-- ==== Sys2Proof/Word.lean ====
section
/-!
DEFINITION. The word types of the block: an octet, an octet string and the fixed widths that the manual's tables use.
-/
namespace Sys2Proof

/-- One octet. -/
abbrev Byte := BitVec 8

/-- An octet string, lowest offset first. -/
abbrev Bytes := List Byte

/-- A 128-byte memory line or a 128-byte block, lowest offset first (R153). -/
abbrev Line := List Byte

end Sys2Proof
end

