-- ==== Sys2Proof/Syntax.lean ====
section
/-!
DEFINITION. The commands and events that the block takes: one constructor of `Instr` for each row of the opcode table.
A command that a queue carries has the header of R333, its operands at the widths of R369-R376, and what its block-DMA
reads returned (memory lies outside the block, log 1).
-/
namespace Sys2Proof

/-- Which fetched command: its queue, the ring index of its ring-level command, and for a command of a CALL buffer or a
graph its place at each nesting level, outermost first, as (position, iteration) (R358). -/
structure CmdKey where
  queue : BitVec 6
  index : BitVec 32
  path : List (BitVec 16 × BitVec 32)
  deriving DecidableEq, Repr

/-- The header of a command (R333) and its SLICE byte (R364). -/
structure CmdHdr where
  key : CmdKey
  flags : BitVec 16
  ctx : BitVec 16
  cond : BitVec 16
  dep : BitVec 64
  cookie : BitVec 64
  slice : BitVec 8
  deriving DecidableEq, Repr

/-- A block-DMA access that failed: a translation fault (R398), with the faulting address and XLT_DETAIL; or, with `noFault`, a read of a data
payload that returned poison, or a write that its memory engine dropped (R399, R403). -/
structure XFault where
  bva : BitVec 64
  pasid : BitVec 20
  detail : BitVec 32
  noFault : Bool
  deriving DecidableEq, Repr

/-- The principals of the dictionary (R442). A slice principal carries its slice. -/
inductive Principal where
  | tray
  | hostk
  | coord
  | dbg
  | fw
  | slice (s : BitVec 4)
  deriving DecidableEq, Repr

/-- What a stack returns for one read (R155): the status, 0 CLEAN, 1 CORRECTED, 2 DUE, 3 POISONED; the ciphertext; the line tag. -/
structure RdWord where
  status : BitVec 2
  cipher : Line
  tag : BitVec 56
  deriving DecidableEq, Repr

/-- What a stack returns for an internal read: its pseudo-channel tag and its word (R241). -/
structure LineRead where
  pc : BitVec 6
  word : RdWord
  deriving DecidableEq, Repr

/-- One line of COPY: the output addresses of its source and its destination (R386), with bit 51 for an address outside the stacks, and what
the source reads as when it lies there (none for poison). -/
structure CopyLine where
  src : BitVec 52
  dst : BitVec 52
  outside : Option Line
  deriving DecidableEq, Repr

/-- The instructions of the JTAG TAP (R529): those of IEEE 1149.1 that it names, the LC register of R507, internal scan, memory built-in
self-test and the RISC-V debug transport. -/
inductive TapInstr where
  | idcode
  | bypass
  | samplePreload
  | extest
  | lcRegister
  | intest
  | scan
  | selfTest
  | debug
  deriving DecidableEq, Repr

/-- How a request reaches the life-cycle controller or the debug module (R507, R526): as a dictionary request of a principal, or through the
JTAG TAP with the instruction that its master has loaded. -/
inductive Access where
  | dict (who : Principal)
  | tap (ir : TapInstr)
  deriving DecidableEq, Repr

/-- A message of the domain protocol: the header of R110 without the fields that a message's row already fixes, its
arrival slice and its body. -/
structure DomHdr where
  domain : BitVec 64
  attempt : BitVec 32
  sender : BitVec 16
  receiver : BitVec 16
  sequence : BitVec 64
  deriving DecidableEq, Repr

/-- The operations of the key-work engine (R70). -/
inductive KweOp where
  | derive (label : Bytes) (context : Bytes)
  | wrap (slot : BitVec 11) (sequence : BitVec 64)
  | unwrap (blob : Bytes)
  | encrypt (iv : BitVec 96) (aad text : Bytes)
  | decrypt (iv : BitVec 96) (aad text : Bytes) (tag : BitVec 128)
  | generate
  | load
  | zeroize
  deriving DecidableEq, Repr

/-- Where a key-work result goes (R69): a slot with its words, an engine class, or a buffer. -/
inductive KweDst where
  | slot (n : BitVec 11) (attr binding : BitVec 64)
  | engine (cls : BitVec 4) (index : BitVec 17)
  | buffer
  deriving DecidableEq, Repr

/-- A firmware image as its source delivers it (R591): the 128 header octets, the two signatures, the image. -/
structure FwImage where
  header : Bytes
  sig : Bytes
  image : Bytes
  deriving DecidableEq, Repr

/-- What the firmware reads out of the engine configuration table (R594): the manual names its values and gives no layout. -/
structure EctValues where
  version : BitVec 32
  hostId : BitVec 128
  stackPeak : BitVec 32
  portPeak : BitVec 32
  decodeG : BitVec 8
  decodeK : BitVec 8
  decodeMap : List (BitVec 8)
  adjacency : Option Bytes
  classMap : List (BitVec 8)
  filters : List (List (BitVec 16 × BitVec 16))
  clocks : List (BitVec 32)
  deriving DecidableEq, Repr

/-- How an SPDM request came (R98, R99): over MCTP or else DOE, the slice to whose TDI a host-link requester is bound (16 and above:
none), the session whose keys opened it, and the version byte that it carries. -/
structure SpdmHdr where
  mctp : Bool
  tdi : BitVec 5
  session : Option (BitVec 3)
  version : BitVec 8
  deriving DecidableEq, Repr

/-- The carrier of a dictionary message, with the requester's identity there (R443, R449): the source EID, the mailbox (16 and above the
host's), the receiving slice and ORIGIN. -/
inductive DictPath where
  | i3c (eid : BitVec 8)
  | mailbox (n : BitVec 5)
  | fabric (slc : BitVec 4) (origin : BitVec 16)
  deriving DecidableEq, Repr

/-- A dictionary-access message (R447) beside its OP, which its row gives. -/
structure DictMsg where
  flags : BitVec 8
  tag : BitVec 8
  type : BitVec 8
  index : BitVec 16
  sub : BitVec 8
  reserved : BitVec 8
  status : BitVec 16
  segNo : BitVec 16
  total : BitVec 32
  data : Bytes
  deriving DecidableEq, Repr

/-- The commands and events of the table, one constructor for each row. -/
inductive Instr where
  /-- NOP (R369). -/
  | nop (h : CmdHdr)
  /-- CALL (R340). -/
  | call (h : CmdHdr) (bva : BitVec 64) (count : BitVec 16) (index : BitVec 8) (limit : BitVec 32)
  /-- CALL_ITERATION_START (R340). -/
  | callIterationStart (key : CmdKey)
  /-- SEAL (R342). -/
  | seal (h : CmdHdr) (bva : BitVec 64) (count : BitVec 16) (handle : BitVec 8) (x : Option XFault) (graph : List (BitVec 512))
  /-- LOAD (R343). -/
  | load (h : CmdHdr) (bva : BitVec 64) (handle : BitVec 8) (x : Option XFault) (graph : List (BitVec 512))
  /-- LAUNCH (R344). -/
  | launch (h : CmdHdr) (handle : BitVec 8)
  /-- SCALAR_SET (R369). -/
  | scalarSet (h : CmdHdr) (value : BitVec 64) (dst : BitVec 8)
  /-- SCALAR_ADD (R369). -/
  | scalarAdd (h : CmdHdr) (value : BitVec 64) (dst : BitVec 8) (src : BitVec 8) (opt : BitVec 8)
  /-- SCALAR_LOAD (R369). -/
  | scalarLoad (h : CmdHdr) (bva : BitVec 64) (dst : BitVec 8) (x : Option XFault) (word : BitVec 64)
  /-- SCALAR_STORE (R369). -/
  | scalarStore (h : CmdHdr) (bva : BitVec 64) (src : BitVec 8) (x : Option XFault)
  /-- WAIT_MEM (R345). -/
  | waitMem (h : CmdHdr) (bva : BitVec 64) (value : BitVec 64) (mask : BitVec 64) (timeout : BitVec 32) (cmp : BitVec 8)
  /-- WAIT_MEM_POLL (R345). -/
  | waitMemPoll (key : CmdKey) (x : Option XFault) (word : BitVec 64)
  /-- WAIT_SYNC (R346). -/
  | waitSync (h : CmdHdr) (value : BitVec 64) (counter : BitVec 8) (timeout : BitVec 32)
  /-- WAIT_TIMEOUT (R345). -/
  | waitTimeout (key : CmdKey)
  /-- FENCE_LOCAL (R38). -/
  | fenceLocal (h : CmdHdr) (value : BitVec 64) (counter : BitVec 8) (opt : BitVec 8)
  /-- FENCE_DOMAIN (R349). -/
  | fenceDomain (h : CmdHdr) (group : BitVec 8)
  /-- KEY_FENCE (R235). -/
  | keyFence (h : CmdHdr) (epoch : BitVec 32) (target : BitVec 32) (timeout : BitVec 32)
  /-- EGRESS_FENCE (R287). -/
  | egressFence (h : CmdHdr)
  /-- STEP_OPEN (R202). -/
  | stepOpen (h : CmdHdr)
  /-- STEP_CLOSE (R203). -/
  | stepClose (h : CmdHdr)
  /-- STEP_CLOSE_WRITES_DRAINED (R203). -/
  | stepCloseWritesDrained (slc : BitVec 4)
  /-- GROUP_DEFINE (R348). -/
  | groupDefine (h : CmdHdr) (bva : BitVec 64) (group : BitVec 8) (collector : BitVec 16) (x : Option XFault) (bitmap : BitVec 4096)
  /-- REGION_DEFINE (R147). -/
  | regionDefine (h : CmdHdr) (region : BitVec 16) (ctrl : BitVec 16) (epoch : BitVec 32) (base : BitVec 40) (metaBase : BitVec 40) (mirrorBase : BitVec 40) (pages : BitVec 32) (keyData : BitVec 16) (keyTweak : BitVec 16) (keyTag : BitVec 16) (crownFirst : BitVec 16)
  /-- REGION_ZERO_FILL_DONE (R186). -/
  | regionZeroFillDone (region : BitVec 12)
  /-- REGION_RETIRE (R175). -/
  | regionRetire (h : CmdHdr) (region : BitVec 16)
  /-- REGION_DESCRIPTOR_FREED (R175). -/
  | regionDescriptorFreed (region : BitVec 12)
  /-- REGION_GRANT (R151). -/
  | regionGrant (h : CmdHdr) (region : BitVec 16) (grantee : BitVec 8)
  /-- REGION_REVOKE (R152). -/
  | regionRevoke (h : CmdHdr) (region : BitVec 16) (grantee : BitVec 8)
  /-- FALLOW_READ (R252). -/
  | fallowRead (h : CmdHdr) (bva : BitVec 64) (x : Option XFault)
  /-- PAGE_RETIRE (R255). -/
  | pageRetire (h : CmdHdr) (entry : BitVec 8) (opt : BitVec 8)
  /-- SAVE_BEGIN (R210). -/
  | saveBegin (h : CmdHdr) (region : BitVec 16) (first : BitVec 64) (count : BitVec 64)
  /-- SAVE_END (R211). -/
  | saveEnd (h : CmdHdr) (region : BitVec 16)
  /-- SAVE_DISCARD (R212). -/
  | saveDiscard (h : CmdHdr) (region : BitVec 16)
  /-- PLOUGH (R220). -/
  | plough (h : CmdHdr) (region : BitVec 16) (epoch : BitVec 32) (nextData : BitVec 16) (nextTweak : BitVec 16) (nextTag : BitVec 16)
  /-- PLOUGH_LINE_MOVE (R222). -/
  | ploughLineMove (region : BitVec 12) (line : BitVec 33) (read : LineRead)
  /-- PLOUGH_COMPLETE (R234). -/
  | ploughComplete (region : BitVec 12)
  /-- PLOUGH_PAUSE (R232). -/
  | ploughPause (region : BitVec 12) (cause : BitVec 4)
  /-- EPOCH_AGED (R217). -/
  | epochAged (region : BitVec 12)
  /-- KEY_DERIVE (R372). -/
  | keyDerive (h : CmdHdr) (src : BitVec 16) (dst : BitVec 16) (label : BitVec 8) (opt : BitVec 8) (region : BitVec 16) (id : BitVec 32)
  /-- KEY_GENERATE (R372). -/
  | keyGenerate (h : CmdHdr) (dst : BitVec 16) (usage : BitVec 8) (opt : BitVec 8) (type : BitVec 8) (wrapIdBva : BitVec 64) (x : Option XFault) (wrapId : BitVec 128)
  /-- KEY_WRAP (R372). -/
  | keyWrap (h : CmdHdr) (src : BitVec 16) (wrapSlot : BitVec 16) (method : BitVec 8) (out : BitVec 64) (rcptBva : BitVec 64) (sequence : BitVec 64) (x : Option XFault) (rcpt : Bytes)
  /-- KEY_UNWRAP (R372). -/
  | keyUnwrap (h : CmdHdr) (dst : BitVec 16) (wrapSlot : BitVec 16) (opt : BitVec 8) (blobBva : BitVec 64) (wrapIdBva : BitVec 64) (x : Option XFault) (blob : Bytes) (wrapId : BitVec 128)
  /-- KEY_ZEROIZE (R63). -/
  | keyZeroize (h : CmdHdr) (slot : BitVec 16)
  /-- CIPHER_ENCRYPT (R372). -/
  | cipherEncrypt (h : CmdHdr) (slot : BitVec 16) (len : BitVec 16) (aadLen : BitVec 16) (src : BitVec 64) (dst : BitVec 64) (ivBva : BitVec 64) (x : Option XFault) (data : Bytes)
  /-- CIPHER_DECRYPT (R372). -/
  | cipherDecrypt (h : CmdHdr) (slot : BitVec 16) (len : BitVec 16) (aadLen : BitVec 16) (src : BitVec 64) (dst : BitVec 64) (ivBva : BitVec 64) (x : Option XFault) (data : Bytes) (iv : BitVec 96)
  /-- PK_HASH (R372). -/
  | pkHash (h : CmdHdr) (src : BitVec 64) (len : BitVec 64) (dst : BitVec 64) (alg : BitVec 8) (outLen : BitVec 16) (x : Option XFault) (data : Bytes)
  /-- PK_VERIFY (R372). -/
  | pkVerify (h : CmdHdr) (keyBva : BitVec 64) (msgBva : BitVec 64) (sigBva : BitVec 64) (msgLen : BitVec 32) (alg : BitVec 8) (ctxLen : BitVec 8) (x : Option XFault) (key : Bytes) (msg : Bytes) (sig : Bytes)
  /-- SHEAF_BEGIN (R314). -/
  | sheafBegin (h : CmdHdr) (id : BitVec 32) (slot : BitVec 16) (count : BitVec 8) (listBva : BitVec 64) (x : Option XFault) (list : List (BitVec 128))
  /-- SHEAF_END (R315). -/
  | sheafEnd (h : CmdHdr) (id : BitVec 32) (out : BitVec 64) (x : Option XFault)
  /-- SHEAF_COMBINE (R318). -/
  | sheafCombine (h : CmdHdr) (id : BitVec 32) (slot : BitVec 16) (opt : BitVec 8) (inBva : BitVec 64) (count : BitVec 16) (out : BitVec 64) (x : Option XFault) (recs : List Bytes)
  /-- STREAM_OPEN (R273). -/
  | streamOpen (h : CmdHdr) (peer : BitVec 16) (mask : BitVec 16) (port : BitVec 8) (opt : BitVec 8)
  /-- STREAM_CLOSE (R275). -/
  | streamClose (h : CmdHdr) (peer : BitVec 16) (mask : BitVec 16) (opt : BitVec 8)
  /-- STREAM_ROTATE (R282). -/
  | streamRotate (h : CmdHdr) (bva : BitVec 64) (count : BitVec 16) (x : Option XFault) (list : List (BitVec 16))
  /-- DOMAIN_JOIN (R104). -/
  | domainJoin (h : CmdHdr) (id : BitVec 64) (attempt : BitVec 32) (member : BitVec 16) (masthead : BitVec 16) (count : BitVec 16) (listBva : BitVec 64) (x : Option XFault) (list : Bytes)
  /-- DOMAIN_FORM (R108). -/
  | domainForm (h : CmdHdr) (policyBva : BitVec 64) (fenceMs : BitVec 32) (rereqMs : BitVec 16) (x : Option XFault) (policy : Bytes)
  /-- DOMAIN_RELEASE (R125). -/
  | domainRelease (h : CmdHdr) (releaseBva : BitVec 64) (len : BitVec 32) (x : Option XFault) (release : Bytes)
  /-- DOMAIN_GO (R129). -/
  | domainGo (h : CmdHdr)
  /-- DOMAIN_ABORT (R136). -/
  | domainAbort (h : CmdHdr) (detail : BitVec 32)
  /-- DOMAIN_DISSOLVE (R137). -/
  | domainDissolve (h : CmdHdr)
  /-- DOMAIN_PROVE (R123). -/
  | domainProve (h : CmdHdr) (outBva : BitVec 64) (outLen : BitVec 32) (x : Option XFault)
  /-- SLICE_CREATE (R408). -/
  | sliceCreate (h : CmdHdr) (specBva : BitVec 64) (x : Option XFault) (record : Bytes)
  /-- SLICE_RESET (R374). -/
  | sliceReset (h : CmdHdr)
  /-- SLICE_FREEZE (R427). -/
  | sliceFreeze (h : CmdHdr)
  /-- SLICE_SAVE (R429). -/
  | sliceSave (h : CmdHdr) (out : BitVec 64) (outLen : BitVec 64) (rcptBva : BitVec 64) (x : Option XFault) (bundle : Bytes)
  /-- SLICE_RESTORE (R431). -/
  | sliceRestore (h : CmdHdr) (blobBva : BitVec 64) (blobLen : BitVec 64) (x : Option XFault) (blob : Bytes) (placement : Bytes)
  /-- SLICE_COMMIT (R433). -/
  | sliceCommit (h : CmdHdr)
  /-- SLICE_THAW (R433). -/
  | sliceThaw (h : CmdHdr)
  /-- CONTEXT_BIND (R338). -/
  | contextBind (h : CmdHdr) (context : BitVec 16) (pasid : BitVec 32)
  /-- CONTEXT_UNBIND (R338). -/
  | contextUnbind (h : CmdHdr) (context : BitVec 16)
  /-- CONTEXT_KILL (R486). -/
  | contextKill (h : CmdHdr) (context : BitVec 16)
  /-- USAGE_REPORT (R424). -/
  | usageReport (h : CmdHdr) (out : BitVec 64) (opt : BitVec 8) (x : Option XFault)
  /-- COPY (R376). -/
  | copy (h : CmdHdr) (src : BitVec 64) (dst : BitVec 64) (len : BitVec 64) (x : Option XFault) (lines : List CopyLine)
  /-- IMPORT (R377). -/
  | importBlob (h : CmdHdr) (blobBva : BitVec 64) (blobLen : BitVec 64) (listBva : BitVec 64) (wrapSlot : BitVec 16) (x : Option XFault) (list : Bytes) (blob : Bytes)
  /-- EXPORT (R377). -/
  | exportBlob (h : CmdHdr) (out : BitVec 64) (outLen : BitVec 64) (listBva : BitVec 64) (wrapSlot : BitVec 16) (kind : BitVec 8) (log2 : BitVec 8) (method : BitVec 8) (x : Option XFault) (list : Bytes) (rcpt : Bytes)
  /-- XLT_INVALIDATE (R396). -/
  | xltInvalidate (h : CmdHdr) (bva : BitVec 64) (sizeLog2 : BitVec 8) (scope : BitVec 8) (pasid : BitVec 32)
  /-- DOORBELL (R331). -/
  | doorbell (queue : BitVec 6) (value : BitVec 64)
  /-- COMMAND_FETCH (R337). -/
  | commandFetch (key : CmdKey) (x : Option XFault) (raw : BitVec 512)
  /-- COMMAND_COMPLETION (R41). -/
  | commandCompletion (key : CmdKey)
  /-- QUEUE_ENABLE (R329). -/
  | queueEnable (who : Principal) (queue : BitVec 6) (on : Bool)
  /-- QUEUE_RESUME (R359). -/
  | queueResume (who : Principal) (queue : BitVec 6)
  /-- QUEUE_SKIP (R359). -/
  | queueSkip (who : Principal) (queue : BitVec 6)
  /-- COMPAT_TIMEOUT (R360). -/
  | compatTimeout (key : CmdKey) (busy : Bool)
  /-- COMPAT_DRAIN_TIMEOUT (R360). -/
  | compatDrainTimeout (key : CmdKey) (engine : BitVec 16)
  /-- EVENT_POST (R354). -/
  | eventPost (ring : BitVec 5) (x : Option XFault)
  /-- EVENT_MODERATION_EXPIRY (R355). -/
  | eventModerationExpiry (ring : BitVec 5)
  /-- EVENT_RING_BASE_WRITE (R401). -/
  | eventRingBaseWrite (who : Principal) (ring : BitVec 5) (base : BitVec 64)
  /-- FENCE_ACK (R349). -/
  | fenceAck (slc : BitVec 4) (h : DomHdr) (origin : BitVec 12) (word : BitVec 64)
  /-- FENCE_DONE (R349). -/
  | fenceDone (slc : BitVec 4) (h : DomHdr) (word : BitVec 64)
  /-- FENCE_RESEND (R350). -/
  | fenceResend (slc : BitVec 4) (h : DomHdr) (word : BitVec 64)
  /-- FENCE_MSG_FORWARD (R348). -/
  | fenceMsgForward (slc : BitVec 4) (h : DomHdr) (origin : BitVec 16) (target : BitVec 16) (word : BitVec 64)
  /-- FENCE_REREQUEST_EXPIRY (R350). -/
  | fenceRerequestExpiry (slc : BitVec 4) (group : BitVec 6) (dseq : BitVec 44) (collector : Bool)
  /-- DOMAIN_FENCE_TIMEOUT (R349). -/
  | domainFenceTimeout (key : CmdKey)
  /-- ROLL_CHALLENGE (R114). -/
  | rollChallenge (slc : BitVec 4) (h : DomHdr) (policy : Bytes) (listDigest : BitVec 384) (nonce : Bytes) (evidence : Bytes) (certs : List Bytes)
  /-- ROLL_CHALLENGE_HOLD_EXPIRY (R108). -/
  | rollChallengeHoldExpiry (slc : BitVec 4)
  /-- ROLL_ANSWER (R115). -/
  | rollAnswer (slc : BitVec 4) (h : DomHdr) (evidence : Bytes) (certs : List Bytes) (statement : Bytes)
  /-- ROLL_ANSWER_DEADLINE (R117). -/
  | rollAnswerDeadline (slc : BitVec 4) (member : BitVec 12)
  /-- ROLL_CALL_TIMEOUT (R121). -/
  | rollCallTimeout (slc : BitVec 4)
  /-- RELEASE_TIMEOUT (R125). -/
  | releaseTimeout (slc : BitVec 4)
  /-- HALYARD_KEY (R128). -/
  | halyardKey (slc : BitVec 4) (h : DomHdr) (evDigest : BitVec 384) (drkId : BitVec 128) (flags : BitVec 8) (blobs : List Bytes) (evidence : Bytes) (table : Bytes)
  /-- HALYARD_ACK (R128). -/
  | halyardAck (slc : BitVec 4) (h : DomHdr) (keyed : BitVec 16) (fails : List (BitVec 16 × BitVec 8))
  /-- HALYARD_ACK_DEADLINE (R128). -/
  | halyardAckDeadline (slc : BitVec 4) (member : BitVec 12)
  /-- HALYARD_LIVE (R129). -/
  | halyardLive (slc : BitVec 4) (h : DomHdr)
  /-- FORMATION_TIMEOUT (R128). -/
  | formationTimeout (slc : BitVec 4)
  /-- ABORT (R136). -/
  | abort (slc : BitVec 4) (h : DomHdr) (cause : BitVec 8) (flags : BitVec 8) (origin : BitVec 16) (detail : BitVec 32)
  /-- DISSOLVE (R137). -/
  | dissolve (slc : BitVec 4) (h : DomHdr)
  /-- DOMAIN_RESEND (R111). -/
  | domainResend (slc : BitVec 4) (h : DomHdr) (type : BitVec 16) (sequence : BitVec 64)
  /-- DICT_ACCESS (R455). -/
  | dictAccess (slc : BitVec 4) (h : DomHdr) (origin : BitVec 16) (target : BitVec 16) (message : Bytes)
  /-- DICT_REPLY (R455). -/
  | dictReply (slc : BitVec 4) (h : DomHdr) (origin : BitVec 16) (target : BitVec 16) (message : Bytes)
  /-- MEMORY_WRITE (R161). -/
  | memoryWrite (engine : BitVec 4) (req : BitVec 5) (acting : BitVec 5) (pa : BitVec 47) (whole : Bool) (data : Line)
  /-- MEMORY_READ (R162). -/
  | memoryRead (engine : BitVec 4) (req : BitVec 5) (acting : BitVec 5) (pa : BitVec 47)
  /-- MEMORY_READ_DATA (R162). -/
  | memoryReadData (engine : BitVec 4) (ln : BitVec 40) (pc : BitVec 6) (word : RdWord)
  /-- VERSION_SUPPLY (R180). -/
  | versionSupply (engine : BitVec 4) (ln : BitVec 40)
  /-- COUNTER_LINE_FETCH_DATA (R192). -/
  | counterLineFetchData (region : BitVec 12) (level : BitVec 2) (index : BitVec 33) (mirror : Bool) (read : LineRead)
  /-- COUNTER_WRITEBACK (R191). -/
  | counterWriteback (region : BitVec 12) (level : BitVec 2) (index : BitVec 33)
  /-- REBASE (R194). -/
  | rebase (region : BitVec 12) (level : BitVec 2) (index : BitVec 33) (old : Bool)
  /-- REBASE_CHILD_MOVE (R194). -/
  | rebaseChildMove (region : BitVec 12) (level : BitVec 2) (index : BitVec 33) (old : Bool) (read : LineRead)
  /-- DUE_REPORT (R167). -/
  | dueReport (engine : BitVec 4) (ln : BitVec 40) (handle : BitVec 16) (anchor : BitVec 8)
  /-- ERASE_RESPONSE (R169). -/
  | eraseResponse (engine : BitVec 4) (answer : Option (Line × BitVec 56))
  /-- ERASE_TIMEOUT (R167). -/
  | eraseTimeout (engine : BitVec 4)
  /-- SCRUB_REREAD (R258). -/
  | scrubReread (engine : BitVec 4) (ln : BitVec 40) (read : LineRead)
  /-- CAL_ANN (R240). -/
  | calAnn (stack : BitVec 4) (seq : BitVec 8) (kind : BitVec 8) (mask : BitVec 64)
  /-- CAL_DONE (R240). -/
  | calDone (stack : BitVec 4) (seq : BitVec 8)
  /-- CAL_ANNOUNCEMENT_TIMEOUT (R240). -/
  | calAnnouncementTimeout (stack : BitVec 4) (seq : BitVec 8)
  /-- SWEEP_REQ (R245). -/
  | sweepReq (stack : BitVec 4) (duration : BitVec 16) (mask : BitVec 64)
  /-- SWEEP_GNT (R245). -/
  | sweepGnt (stack : BitVec 4)
  /-- SWEEP_REQ_TIMEOUT (R245). -/
  | sweepReqTimeout (stack : BitVec 4)
  /-- SWEEP_END (R246). -/
  | sweepEnd (stack : BitVec 4)
  /-- SWEEP_DURATION_EXPIRY (R246). -/
  | sweepDurationExpiry (stack : BitVec 4)
  /-- THR_CHANGE (R249). -/
  | thrChange (stack : BitVec 4) (thr : BitVec 8)
  /-- RATE_SAMPLE (R553). -/
  | rateSample (rate : BitVec 6) (value : BitVec 32)
  /-- WHEEL_SLOT_SERVICE (R414). -/
  | wheelSlotService (engine : BitVec 4)
  /-- HOST_PACKET_TX (R262). -/
  | hostPacketTx (port : BitVec 5) (slc : BitVec 4) (peer : BitVec 12) (traffic : BitVec 4) (addr : BitVec 64) (opcode : BitVec 8) (attr : BitVec 8) (payload : Bytes) (closing : Bool)
  /-- GROUP_FLUSH_EXPIRY (R262). -/
  | groupFlushExpiry (port : BitVec 5) (stream : BitVec 17)
  /-- GROUP_RECEIVE (R271). -/
  | groupReceive (port : BitVec 5) (gsh : Bytes) (descs : Bytes) (cipher : Bytes)
  /-- GROUP_TRAILER (R266). -/
  | groupTrailer (port : BitVec 5) (index : BitVec 16) (trailer : Bytes) (tag : BitVec 128)
  /-- TRAILER_TIMEOUT (R284). -/
  | trailerTimeout (port : BitVec 5) (index : BitVec 16)
  /-- LINK_ROTATE (R277). -/
  | linkRotate (pair : BitVec 13)
  /-- LINK_NEXT_KEY_DERIVED (R277). -/
  | linkNextKeyDerived (pair : BitVec 13)
  /-- RX_NEXT_WAIT_TIMEOUT (R278). -/
  | rxNextWaitTimeout (port : BitVec 5)
  /-- DRAIN_END (R279). -/
  | drainEnd (port : BitVec 5) (pair : BitVec 13)
  /-- DRAIN_TIMEOUT (R279). -/
  | drainTimeout (port : BitVec 5) (pair : BitVec 13)
  /-- DEAD_TARGET_REPORT (R295). -/
  | deadTargetReport (port : BitVec 5) (endpoint : BitVec 32)
  /-- HLE_TLP_EGRESS (R299). -/
  | hleTlpEgress (slc : BitVec 5) (sub : BitVec 2) (header data : Bytes)
  /-- HLE_TLP_RECEIVE (R298). -/
  | hleTlpReceive (slc : BitVec 4) (sub : BitVec 2) (k : Bool) (t : Bool) (iv : BitVec 96) (aad : Bytes) (data : Bytes) (mac : BitVec 96)
  /-- QUERY (R298). -/
  | query (session : BitVec 3) (slc : BitVec 4)
  /-- KEY_PROG (R298). -/
  | keyProg (session : BitVec 3) (slc : BitVec 4) (streamId : BitVec 8) (tx : Bool) (sub : BitVec 2) (k : Bool) (key : BitVec 256)
  /-- KEY_SET_GO (R298). -/
  | keySetGo (session : BitVec 3) (slc : BitVec 4) (tx : Bool) (sub : BitVec 2) (k : Bool)
  /-- KEY_SET_STOP (R298). -/
  | keySetStop (session : BitVec 3) (slc : BitVec 4) (tx : Bool) (sub : BitVec 2) (k : Bool)
  /-- GET_TDISP_VERSION (R300). -/
  | getTdispVersion (session : BitVec 3)
  /-- GET_TDISP_CAPABILITIES (R300). -/
  | getTdispCapabilities (session : BitVec 3)
  /-- LOCK_INTERFACE_REQUEST (R301). -/
  | lockInterfaceRequest (session : BitVec 3) (slc : BitVec 4)
  /-- GET_DEVICE_INTERFACE_REPORT (R300). -/
  | getDeviceInterfaceReport (session : BitVec 3) (slc : BitVec 4)
  /-- GET_DEVICE_INTERFACE_STATE (R300). -/
  | getDeviceInterfaceState (session : BitVec 3) (slc : BitVec 4)
  /-- START_INTERFACE_REQUEST (R301). -/
  | startInterfaceRequest (session : BitVec 3) (slc : BitVec 4)
  /-- STOP_INTERFACE_REQUEST (R301). -/
  | stopInterfaceRequest (session : BitVec 3) (slc : BitVec 4)
  /-- TDISP_UNSUPPORTED_REQUEST (R300). -/
  | tdispUnsupportedRequest (session : BitVec 3) (code : BitVec 8)
  /-- GET_VERSION (R98). -/
  | getVersion (m : SpdmHdr)
  /-- GET_CAPABILITIES (R98). -/
  | getCapabilities (m : SpdmHdr)
  /-- NEGOTIATE_ALGORITHMS (R98). -/
  | negotiateAlgorithms (m : SpdmHdr) (asym : BitVec 32) (hash : BitVec 32) (dhe : BitVec 16) (aead : BitVec 16) (spec : BitVec 8)
  /-- GET_DIGESTS (R98). -/
  | getDigests (m : SpdmHdr)
  /-- GET_CERTIFICATE (R98). -/
  | getCertificate (m : SpdmHdr) (slot : BitVec 8) (off : BitVec 16) (len : BitVec 16)
  /-- CHALLENGE (R98). -/
  | challenge (m : SpdmHdr) (slot : BitVec 8) (summary : BitVec 8) (nonce : BitVec 256)
  /-- GET_MEASUREMENTS (R100). -/
  | getMeasurements (m : SpdmHdr) (index : BitVec 8) (signed : Bool) (slot : BitVec 8) (nonce : BitVec 256)
  /-- KEY_EXCHANGE (R98). -/
  | keyExchange (m : SpdmHdr) (slot : BitVec 8) (summary : BitVec 8) (point : Bytes)
  /-- FINISH (R98). -/
  | finish (m : SpdmHdr) (verifies : Bool)
  /-- HEARTBEAT (R98). -/
  | heartbeat (m : SpdmHdr)
  /-- KEY_UPDATE (R98). -/
  | keyUpdate (m : SpdmHdr) (op : BitVec 8)
  /-- END_SESSION (R98). -/
  | endSession (m : SpdmHdr)
  /-- CHUNK_SEND (R98). -/
  | chunkSend (m : SpdmHdr) (handle : BitVec 8) (seq : BitVec 16) (last : Bool) (data : Bytes)
  /-- CHUNK_GET (R98). -/
  | chunkGet (m : SpdmHdr) (handle : BitVec 8) (seq : BitVec 16)
  /-- VENDOR_DEFINED_REQUEST (R98). -/
  | vendorDefinedRequest (m : SpdmHdr) (standard : BitVec 16) (vendor : BitVec 16) (data : Bytes)
  /-- SPDM_UNSUPPORTED_REQUEST (R98). -/
  | spdmUnsupportedRequest (m : SpdmHdr) (code : BitVec 8)
  /-- DICT_READ (R449). -/
  | dictRead (path : DictPath) (m : DictMsg)
  /-- DICT_WRITE (R449). -/
  | dictWrite (path : DictPath) (m : DictMsg)
  /-- SEG_READ (R449). -/
  | segRead (path : DictPath) (m : DictMsg)
  /-- SEG_WRITE (R449). -/
  | segWrite (path : DictPath) (m : DictMsg)
  /-- DICT_ABORT (R449). -/
  | dictAbort (path : DictPath) (m : DictMsg)
  /-- DICT_SEG_IDLE_EXPIRY (R449). -/
  | dictSegIdleExpiry (path : DictPath) (tag : BitVec 8)
  /-- DICT_ENTRY_WRITE (R450). -/
  | dictEntryWrite (who : Principal) (index : BitVec 16) (sub : BitVec 8) (type : BitVec 8) (value : Bytes)
  /-- MB_GO (R454). -/
  | mbGo (box : BitVec 5) (irqEn : Bool) (reqLen : BitVec 32) (request : Bytes)
  /-- SETDASA (R451). -/
  | setdasa (static_ : BitVec 7) (dynamic_ : BitVec 7)
  /-- ENTDAA (R451). -/
  | entdaa (dynamic_ : BitVec 7)
  /-- SET_ENDPOINT_ID (R451). -/
  | setEndpointId (dest : BitVec 8) (source : BitVec 8) (op : BitVec 8) (eid : BitVec 8)
  /-- GET_ENDPOINT_ID (R451). -/
  | getEndpointId (dest : BitVec 8)
  /-- GET_ENDPOINT_UUID (R459). -/
  | getEndpointUuid (dest : BitVec 8)
  /-- GET_MCTP_VERSION_SUPPORT (R451). -/
  | getMctpVersionSupport (dest : BitVec 8) (type : BitVec 8)
  /-- GET_MESSAGE_TYPE_SUPPORT (R451). -/
  | getMessageTypeSupport (dest : BitVec 8)
  /-- GET_VENDOR_DEFINED_MESSAGE_SUPPORT (R451). -/
  | getVendorDefinedMessageSupport (dest : BitVec 8) (selector : BitVec 8)
  /-- MCTP_PACKET_RECEIVE (R451). -/
  | mctpPacketReceive (binding : Bool) (packet : Bytes)
  /-- TAMPER_CAUSE_CLEAR (R84). -/
  | tamperCauseClear (who : Principal) (value : Bool)
  /-- CERT_CACHE_FLUSH (R122). -/
  | certCacheFlush (who : Principal) (value : Bool)
  /-- SLICE_RELEASE (R411). -/
  | sliceRelease (who : Principal) (slc : BitVec 4) (value : Bool)
  /-- SLICE_RECORD_WRITE (R411). -/
  | sliceRecordWrite (who : Principal) (slc : BitVec 4) (sub : BitVec 8) (value : Bytes)
  /-- MC_WAY_QUOTA_WRITE (R415). -/
  | mcWayQuotaWrite (who : Principal) (slc : BitVec 4) (value : Bytes)
  /-- S2_ROOT_WRITE (R397). -/
  | s2RootWrite (who : Principal) (stage1 : Bool) (set : BitVec 5) (ix : BitVec 6) (value : BitVec 64)
  /-- LE_MODE_WRITE (R260). -/
  | leModeWrite (who : Principal) (port : BitVec 5) (mode : BitVec 8)
  /-- RESET_CHIP_REQ (R489). -/
  | resetChipReq (who : Principal) (value : Bool)
  /-- CHIP_RESET_GO (R489). -/
  | chipResetGo (value : BitVec 32)
  /-- CHIP_COOP_TIMEOUT (R491). -/
  | chipCoopTimeout
  /-- FIRST_ERROR_CLEAR (R497). -/
  | firstErrorClear (who : Principal) (value : Bool)
  /-- DUMP_CLEAR (R494). -/
  | dumpClear (who : Principal) (value : Bool)
  /-- ERRLOG_CONSUMED_WRITE (R496). -/
  | errlogConsumedWrite (who : Principal) (index : BitVec 32)
  /-- CP_KICK (R481). -/
  | cpKick (who : Principal) (pair : Bool) (value : Bool)
  /-- WATCHDOG_WARNING (R481). -/
  | watchdogWarning (unit : BitVec 8) (pair : Bool)
  /-- WATCHDOG_EXPIRY (R481). -/
  | watchdogExpiry (unit : BitVec 8) (slc : BitVec 5) (ctx : BitVec 16) (units : List (BitVec 256))
  /-- LOCKSTEP_MISMATCH (R481). -/
  | lockstepMismatch (pair : Bool) (units : List (BitVec 256))
  /-- HOST_STALL (R482). -/
  | hostStall (stack : BitVec 4)
  /-- KILL_LIMIT_EXPIRY (R484). -/
  | killLimitExpiry (unit : BitVec 8)
  /-- ENGINE_RESET_DONE (R484). -/
  | engineResetDone (unit : BitVec 8)
  /-- LC_TRANSITION (R509). -/
  | lcTransition (via : Access) (value : Bytes)
  /-- LC_OTP_PROGRAM_DONE (R509). -/
  | lcOtpProgramDone
  /-- DEBUG_REQUEST (R523). -/
  | debugRequest (who : Principal) (scopes : BitVec 8)
  /-- DEBUG_RESPONSE (R525). -/
  | debugResponse (who : Principal) (value : Bytes)
  /-- VAULT_PROVISION (R532). -/
  | vaultProvision (who : Principal) (value : Bool)
  /-- DMI_READ (R526). -/
  | dmiRead (via : Access) (pair : Bool) (addr : BitVec 8)
  /-- DMI_WRITE (R526). -/
  | dmiWrite (via : Access) (pair : Bool) (addr : BitVec 8) (data : BitVec 32)
  /-- HART_HALTED (R527). -/
  | hartHalted (pair : Bool)
  /-- COUNTER_RESET (R537). -/
  | counterReset (who : Principal) (bitmap : BitVec 96)
  /-- COUNTER_SNAPSHOT (R538). -/
  | counterSnapshot (who : Principal) (value : Bool)
  /-- TRACE_ARM (R548). -/
  | traceArm (who : Principal) (on : Bool)
  /-- TRACE_TRIGGER_NOW (R546). -/
  | traceTriggerNow (who : Principal) (value : Bool)
  /-- TRACE_MARKER (R541). -/
  | traceMarker (who : Principal) (marker : BitVec 64) (value : BitVec 64)
  /-- TRACE_PC_SAMPLE (R542). -/
  | tracePcSample (pc : List (Bool × BitVec 64 × BitVec 2 × BitVec 16))
  /-- ICU_SOURCE_ASSERT (R468). -/
  | icuSourceAssert (source : BitVec 10) (pair : Bool) (level : Bool) (wfi : BitVec 2)
  /-- CLAIM (R469). -/
  | claim (pair : Bool) (width : BitVec 8)
  /-- EOI (R470). -/
  | eoi (pair : Bool) (width : BitVec 8) (value : BitVec 32)
  /-- PEND_SET (R471). -/
  | pendSet (pair : Bool) (bitmap : BitVec 512)
  /-- PEND_CLR (R466). -/
  | pendClr (pair : Bool) (bitmap : BitVec 512)
  /-- MASK_SET (R473). -/
  | maskSet (pair : Bool) (bitmap : BitVec 512)
  /-- MASK_CLR (R474). -/
  | maskClr (pair : Bool) (bitmap : BitVec 512)
  /-- STORM_CLEAR (R474). -/
  | stormClear (pair : Bool) (bitmap : BitVec 512)
  /-- SGI (R466). -/
  | sgi (pair : Bool) (width : BitVec 8) (value : BitVec 32)
  /-- STORM_WINDOW_EXPIRY (R474). -/
  | stormWindowExpiry (source : BitVec 10) (pair : Bool)
  /-- ICU_MODERATION_EXPIRY (R472). -/
  | icuModerationExpiry (pair : Bool)
  /-- HOST_EVENT (R475). -/
  | hostEvent (who : Principal) (value : BitVec 32)
  /-- FWD_GO (R476). -/
  | fwdGo (pair : Bool) (detail : BitVec 64) (code : BitVec 16) (kind : BitVec 8) (ring : BitVec 8) (cookie : BitVec 64)
  /-- KWE_REQUEST (R70). -/
  | kweRequest (who : BitVec 5) (op : KweOp) (src : BitVec 11) (dst : KweDst) (ctx : BitVec 16)
  /-- KWE_COMPLETE (R70). -/
  | kweComplete (ns : BitVec 32)
  /-- PKE_COMPLETE (R86). -/
  | pkeComplete (unit : BitVec 2) (who : BitVec 5) (ns : BitVec 32)
  /-- ENT_HEALTH_FAILURE (R80). -/
  | entHealthFailure (test : BitVec 2)
  /-- ENT_RETRY_EXPIRY (R80). -/
  | entRetryExpiry
  /-- ENT_STARTUP_TESTS_DONE (R80). -/
  | entStartupTestsDone
  /-- DRBG_RESEED (R72). -/
  | drbgReseed (which : BitVec 2)
  /-- MESH_COMPARE (R50). -/
  | meshCompare (mismatch : Bool) (short : Bool)
  /-- TAMPER_IN_SAMPLE (R565). -/
  | tamperInSample (input : BitVec 2) (level : Bool)
  /-- TAMPER_LATCH_CLEAR (R566). -/
  | tamperLatchClear (who : Principal) (input : BitVec 2) (value : Bool)
  /-- VBAT_OUT_OF_RANGE (R50). -/
  | vbatOutOfRange (mv : BitVec 16)
  /-- VAULT_SUPPLY_OUT_OF_RANGE (R50). -/
  | vaultSupplyOutOfRange (mv : BitVec 16)
  /-- VAULT_TEMP_READING (R50). -/
  | vaultTempReading (c : BitVec 16)
  /-- ZEROIZATION (R51). -/
  | zeroization
  /-- ZEROIZATION_COMPLETE (R53). -/
  | zeroizationComplete
  /-- CANARY_SAMPLE (R561). -/
  | canarySample (unit : BitVec 6) (canary : BitVec 3) (x : BitVec 8)
  /-- CANARY_IDLE_EXERCISE (R560). -/
  | canaryIdleExercise (unit : BitVec 6) (codes : List (BitVec 8))
  /-- SEN_FREEZE_EXPIRY (R562). -/
  | senFreezeExpiry (unit : BitVec 6)
  /-- SUPPLY_EXCURSION (R563). -/
  | supplyExcursion (die : BitVec 2)
  /-- BROWN_OUT (R563). -/
  | brownOut (die : BitVec 2)
  /-- BROWN_OUT_RECOVERY (R563). -/
  | brownOutRecovery (die : BitVec 2)
  /-- TJ_WARN_CROSSING (R563). -/
  | tjWarnCrossing (hottest : BitVec 32)
  /-- REFERENCE_CLOCK_LOST (R558). -/
  | referenceClockLost (base : BitVec 2)
  /-- REFERENCE_CLOCK_REGAINED (R558). -/
  | referenceClockRegained (base : BitVec 2)
  /-- VAON_RAMP (R589). -/
  | vaonRamp (mv : BitVec 16)
  /-- STRAP_SAMPLE (R575). -/
  | strapSample (straps : List (BitVec 8))
  /-- CHIP_RESET_RELEASE (R589). -/
  | chipResetRelease (rails : BitVec 7) (straps : List (BitVec 8)) (kat : Option (BitVec 8)) (flash : Option FwImage) (recovery : Option FwImage) (certs : List Bytes)
  /-- RECOVERY_FETCH_RETRY (R592). -/
  | recoveryFetchRetry (recovery : Option FwImage) (certs : List Bytes)
  /-- FIRMWARE_START (R594). -/
  | firmwareStart (ect : EctValues) (failed : BitVec 128)
  /-- RAIL_LOSS (R579). -/
  | railLoss (rail : BitVec 3)
  /-- TABLE_WALK_READ (R392). -/
  | tableWalkRead (walker : BitVec 3) (word : Option (BitVec 64))
  /-- BLOCK_DMA_ACCESS (R386). -/
  | blockDmaAccess (set : BitVec 5) (pasid : BitVec 20) (stage1 : Bool) (bva : BitVec 64) (read : Bool) (write : Bool) (ring : Bool) (key : Option CmdKey)
  /-- EVENT_READ_INDEX_WRITE (R354). -/
  | eventReadIndexWrite (ring : BitVec 5) (index : BitVec 32)
  /-- PREEMPTION_POINT (R420). -/
  | preemptionPoint (unit : BitVec 2) (running : BitVec 5) (waiting : BitVec 17) (ran : BitVec 32) (cost : BitVec 32)
  /-- VBAT_RAMP (R557). -/
  | vbatRamp (mv : BitVec 16)
  /-- RESET_PORT_ASSERT (R579). -/
  | resetPortAssert (asserted : Bool)
  /-- LOSS_OF_SECURE (R301). -/
  | lossOfSecure (slc : BitVec 4)
  /-- SRC_CFG_WRITE (R478). -/
  | srcCfgWrite (pair : Bool) (source : BitVec 10) (width : BitVec 8) (value : BitVec 32)
  /-- PMR_WRITE (R468). -/
  | pmrWrite (pair : Bool) (width : BitVec 8) (value : BitVec 32)
  /-- SPDM_HEARTBEAT_TIMEOUT (R98). -/
  | spdmHeartbeatTimeout (session : BitVec 3)
  /-- POWER_ESTIMATE_UPDATE (R588). -/
  | powerEstimateUpdate
  deriving DecidableEq, Repr

end Sys2Proof
end

