-- ==== Sys2Proof/Decode.lean ====
section
/-!
DEFINITION. The command that a word of the table spells.
-/
namespace Sys2Proof

/-- The rows of the command table give no bits: a command of this block is a message, an access or an event, and no word
spells one. -/
def decodeTableWord (_nbits _w : Nat) : Option Instr := none

end Sys2Proof
end

