-- ==== Sys2Proof/Machine/Bits.lean ====
section
/-!
DEFINITION. Bit-field, byte-order and list helpers that the meanings share. R14: multi-byte fields are little-endian;
fields of a published standard take that standard's order (big-endian here, PRESUMED where a standard is used, log 12).
-/
namespace Sys2Proof.Machine

/-- Bits `hi` down to `lo` of a number. -/
def bits (x hi lo : Nat) : Nat := (x / 2 ^ lo) % 2 ^ (hi + 1 - lo)

/-- One bit of a number as a truth value. -/
def bit (x i : Nat) : Bool := (x / 2 ^ i) % 2 == 1

/-- A truth value as a bit. -/
def b2n (b : Bool) : Nat := if b then 1 else 0

/-- `n` octets of a number, little-endian (R14). -/
def leBytes : Nat → Nat → Bytes
  | 0, _ => []
  | n + 1, x => BitVec.ofNat 8 x :: leBytes n (x / 256)

/-- `n` octets of a number, most significant first. -/
def beBytes (n x : Nat) : Bytes := (leBytes n x).reverse

/-- The number that little-endian octets spell. -/
def leNat : Bytes → Nat
  | [] => 0
  | b :: bs => b.toNat + 256 * leNat bs

/-- The number that big-endian octets spell. -/
def beNat (bs : Bytes) : Nat := leNat bs.reverse

/-- `n` octets of `bs` from offset `o`; octets beyond the end read as zero. -/
def slice (bs : Bytes) (o n : Nat) : Bytes :=
  let t := (bs.drop o).take n
  t ++ List.replicate (n - t.length) 0

/-- The little-endian field of `n` octets at offset `o`. -/
def field (bs : Bytes) (o n : Nat) : Nat := leNat (slice bs o n)

/-- `bs` cut or padded with zero octets to exactly `n`. -/
def fit (n : Nat) (bs : Bytes) : Bytes := slice bs 0 n

/-- The octets of a string as numbers, from character codes. -/
def ascii (s : String) : Bytes := s.toList.map (fun c => BitVec.ofNat 8 c.toNat)

/-- Exclusive or of two octet strings of one length. -/
def xorBytes (a b : Bytes) : Bytes := List.zipWith (· ^^^ ·) a b

/-- The halves of a signing pair's private half (R90, R93): the ML-DSA seed, and the P-384 scalar behind it. -/
def mlPart (seed : Bytes) : Bytes := seed.take 32
def ecPart (seed : Bytes) : Bytes := seed.drop 32

/-- Is every octet zero? -/
def allZero (bs : Bytes) : Bool := bs.all (· == 0)

/-- The first index of a list below its length at which the test holds. -/
def findIx {α : Type} (p : α → Bool) : List α → Option Nat
  | [] => none
  | x :: xs => if p x then some 0 else (findIx p xs).map (· + 1)

/-- Replace the elements that the test picks. -/
def mapIf {α : Type} (p : α → Bool) (f : α → α) (l : List α) : List α :=
  l.map (fun x => if p x then f x else x)

/-- Keep the last `n` elements of a list. -/
def lastN {α : Type} (n : Nat) (l : List α) : List α := l.drop (l.length - n)

/-- The numbers `a`, `a+1`, … , `a+n-1`. -/
def rangeFrom : Nat → Nat → List Nat
  | _, 0 => []
  | a, n + 1 => a :: rangeFrom (a + 1) n

/-- Count of set bits among the first `n` bits. -/
def popcount (n x : Nat) : Nat := ((List.range n).filter (bit x)).length

/-- Set bit `i`. -/
def setBit (x i : Nat) : Nat := if bit x i then x else x + 2 ^ i

/-- Clear bit `i`. -/
def clrBit (x i : Nat) : Nat := if bit x i then x - 2 ^ i else x

/-- The number that a list of (bit, value) flags spells. -/
def flagWord (l : List (Nat × Bool)) : Nat := (l.map (fun p => b2n p.2 * 2 ^ p.1)).foldl (· + ·) 0

end Sys2Proof.Machine
end

