-- ==== Sys2Proof/Machine/Flags.lean ====
section
/-!
DEFINITION. The status codes that a completion record, a dictionary response or a life-cycle result carries (R379, R450),
and the event codes (R380). They are the block's flags: every command's outcome is one of them.
-/
namespace Sys2Proof.Machine.St

abbrev success : Nat := 0x0000
abbrev skipped : Nat := 0x0001
abbrev predecessorFailed : Nat := 0x0002
abbrev faulted : Nat := 0x0003
abbrev timeout : Nat := 0x0004
abbrev contextKilled : Nat := 0x0005
abbrev aborted : Nat := 0x0006
abbrev brokenFence : Nat := 0x0007
abbrev keyZeroized : Nat := 0x0008
abbrev reservedField : Nat := 0x0010
abbrev invalidOperand : Nat := 0x0011
abbrev bufferTooSmall : Nat := 0x0012
abbrev notReady : Nat := 0x0013
abbrev resourceExhausted : Nat := 0x0014
abbrev entropyFailure : Nat := 0x0015
abbrev sliceBusy : Nat := 0x0016
abbrev sliceLocked : Nat := 0x0017
abbrev domainState : Nat := 0x0018
abbrev identityState : Nat := 0x0019
abbrev attemptStale : Nat := 0x001A
abbrev slotOccupied : Nat := 0x0020
abbrev slotNotOwned : Nat := 0x0021
abbrev usageViolation : Nat := 0x0022
abbrev slotInUse : Nat := 0x0023
abbrev keyBinding : Nat := 0x0024
abbrev keyEqual : Nat := 0x0025
abbrev keyNotInstalled : Nat := 0x0026
abbrev regionBusy : Nat := 0x0030
abbrev regionRange : Nat := 0x0031
abbrev regionOverlap : Nat := 0x0032
abbrev stackUnpopulated : Nat := 0x0033
abbrev treePlacement : Nat := 0x0034
abbrev epochReused : Nat := 0x0035
abbrev regionState : Nat := 0x0036
abbrev fallowOverlap : Nat := 0x0037
abbrev fallowListFull : Nat := 0x0038
abbrev windowState : Nat := 0x0040
abbrev stepIncomplete : Nat := 0x0041
abbrev stepExhausted : Nat := 0x0042
abbrev saveIncomplete : Nat := 0x0043
abbrev sequenceExhausted : Nat := 0x0044
abbrev blobFormat : Nat := 0x0050
abbrev blobLength : Nat := 0x0051
abbrev domainMismatch : Nat := 0x0052
abbrev wrapMismatch : Nat := 0x0053
abbrev decapsulationFailed : Nat := 0x0054
abbrev tagFailure : Nat := 0x0055
abbrev importLayout : Nat := 0x0056
abbrev sheafReused : Nat := 0x0060
abbrev sheafParticipant : Nat := 0x0061
abbrev recordInvalid : Nat := 0x0062
abbrev recordMismatch : Nat := 0x0063
abbrev recordOverlap : Nat := 0x0064
abbrev sheafMismatch : Nat := 0x0065
abbrev notComplete : Nat := 0x0066
abbrev peerInvalid : Nat := 0x0070
abbrev portState : Nat := 0x0071
abbrev streamExists : Nat := 0x0072
abbrev noRoute : Nat := 0x0073
abbrev policyFailure : Nat := 0x0080
abbrev formationFailed : Nat := 0x0081
abbrev releaseMismatch : Nat := 0x0082
abbrev badSignature : Nat := 0x0083
abbrev graphStoreFull : Nat := 0x0090
abbrev graphTooLarge : Nat := 0x0091
abbrev hashMismatch : Nat := 0x0092
abbrev notLoaded : Nat := 0x0093
abbrev noEntry : Nat := 0x00A0
abbrev accessDenied : Nat := 0x00A1
abbrev typeMismatch : Nat := 0x00A2
abbrev entryState : Nat := 0x00A3
abbrev dictBusy : Nat := 0x00A4
abbrev sequence : Nat := 0x00A5
abbrev transferTimeout : Nat := 0x00A6
abbrev transferAborted : Nat := 0x00A7
abbrev malformed : Nat := 0x00A8
abbrev unavailable : Nat := 0x00A9

end Sys2Proof.Machine.St
end

