-- ==== Sys2Proof/Config.lean ====
section
/-!
DEFINITION. What the model leaves open: cryptographic functions whose text is that of a named standard and not of the
manual, and values that the manual leaves free. Each is an opaque constant: nothing can evaluate it or prove a value of it.
-/
namespace Sys2Proof

/-- What a certificate says (R96): its algorithm's object identifier, names, serial number, validity, basic constraints, key usage, the
fields of its TcbInfo, its subject key and the key that verifies it. -/
structure CertProfile where
  algorithm : String
  issuer : String
  subject : String
  serial : Bytes
  notBefore : Bytes
  notAfter : String
  ca : Bool
  pathLen : Option Nat
  keyUsage : List String
  vendor : String
  model : String
  layer : Nat
  fwids : Bytes
  svn : Nat
  flags : Nat
  key : Bytes
  issuerKey : Bytes
  deriving DecidableEq, Repr

end Sys2Proof

namespace Sys2Proof.Config

/-- Free values: the model applies this to a counter of the state that each use advances (log 3). -/
opaque freeNat : Nat → Nat
/-- A free value of a given width. -/
def free (w k : Nat) : BitVec w := BitVec.ofNat w (freeNat k)

/-- A result that the manual leaves to the order of unordered work: a function of the operands named (log 3). -/
opaque freeOf : Nat → Nat → Nat

/-- Does an address lie in a control pair's own instruction or data memory? The manual gives no addresses of them (R526, log 59). -/
opaque cpMemory : Nat → Bool
/-- The TLB set of a translation's table set, PASID and page, which the manual does not state (R393, log 55). -/
opaque tlbSet : Nat → Nat → Nat → Nat
/-- The L rate of the PLG in lines moved per local ms, which the manual does not state (R418, log 21). -/
opaque plgLRate : Nat
/-- BROM_VERSION, which is fixed in BROM and not stated (R458, log 60). -/
opaque bromVersion : Nat

/-- AES-256 on one block and its inverse (FIPS 197); the manual names it and does not define it (log 12). -/
opaque aes256 (key : BitVec 256) (block : BitVec 128) : BitVec 128
opaque aes256Inv (key : BitVec 256) (block : BitVec 128) : BitVec 128
/-- The AES-256-GCM key stream applied to a string, and the GCM tag (SP 800-38D, log 12). -/
opaque gcmCrypt (key : BitVec 256) (iv : BitVec 96) (text : Bytes) : Bytes
opaque gcmTag (key : BitVec 256) (iv : BitVec 96) (aad : Bytes) (cipher : Bytes) : BitVec 128
/-- KMAC256 with a customization string, 256 output bits (SP 800-185, log 12). -/
opaque kmac256 (key : Bytes) (label : Bytes) (context : Bytes) : BitVec 256
/-- KMAC256 of another output length, in octets. -/
opaque kmacBytes (key : Bytes) (label : Bytes) (context : Bytes) (n : Nat) : Bytes
/-- Hash functions (FIPS 180-4, FIPS 202, log 12). -/
opaque sha384 (m : Bytes) : BitVec 384
opaque sha3_256 (m : Bytes) : BitVec 256
opaque sha3_384 (m : Bytes) : BitVec 384
opaque shake256 (m : Bytes) (n : Nat) : Bytes
/-- CTR_DRBG with AES-256 and the derivation function (SP 800-90A, log 12): its working state after instantiation from entropy input,
nonce and personalization string, after a reseed, and after a request for a number of bits; and that request's output. -/
opaque drbgInstantiate (entropy nonce personal : Bytes) : Bytes
opaque drbgReseed (state entropy : Bytes) : Bytes
opaque drbgStep (state : Bytes) (bits : Nat) : Bytes
opaque drbgOutput (state : Bytes) (bits : Nat) : Nat
/-- Signatures (FIPS 204, FIPS 186-5): signing under the private key that a seed names, with the random string of the hedged
variant or of the nonce, and verification (log 12). -/
opaque mldsaSign (seed : Bytes) (rnd : Bytes) (ctx : Bytes) (m : Bytes) : Bytes
opaque mldsaVerify (pub : Bytes) (ctx : Bytes) (m : Bytes) (sig : Bytes) : Bool
opaque ecdsaSign (seed : Bytes) (rnd : Bytes) (digest : BitVec 384) : Bytes
opaque ecdsaVerify (pub : Bytes) (digest : BitVec 384) (sig : Bytes) : Bool
/-- Key establishment (FIPS 203, SP 800-56A): key pairs from a seed, encapsulation, decapsulation, agreement (log 12). -/
opaque mlkemPub (seed : Bytes) : Bytes
opaque mlkemEncaps (pub : Bytes) (rnd : Bytes) : Bytes × BitVec 256
opaque mlkemDecaps (seed : Bytes) (ct : Bytes) : BitVec 256
opaque ecdhPub (seed : Bytes) : Bytes
opaque ecdhAgree (seed : Bytes) (pub : Bytes) : Option (BitVec 384)
/-- Public keys of the signing pairs that a seed names. -/
opaque mldsaPub (seed : Bytes) : Bytes
opaque ecdsaPub (seed : Bytes) : Bytes
/-- Limrin's manufacturing authority: its ML-DSA key, then its P-384 key (R96). -/
opaque authorityPub : Bytes
/-- SHA-384 of the BROM contents (R92), and Limrin's firmware authority: its ML-DSA key, then its P-384 key (R592). -/
opaque bromDigest : BitVec 384
opaque fwAuthorityMldsa : Bytes
opaque fwAuthorityP384 : Bytes
/-- X.509 certificates by their own encoding (RFC 5280, log 12): does one verify under an issuer's key of its algorithm; its
subject key, its serial number, and the svn and flags of its TcbInfo, bit 0 notSecure, bit 1 debug, bit 2 recovery (R96). -/
opaque certVerifies (issuer : Bytes) (cert : Bytes) : Bool
opaque certKey (cert : Bytes) : Bytes
opaque certSerial (cert : Bytes) : Bytes
opaque certSvn (cert : Bytes) : Nat
opaque certFlags (cert : Bytes) : Nat
/-- The aggregate statement of a member's verifier, which no message of the manual brings to the member (R123, log 33). -/
opaque verifierStatement (domain attempt member : Nat) : Bytes
/-- DER (RFC 5280, log 12) of the part of a certificate that is signed, over its profile, and of a certificate from it and its
signature; the notBefore of a certificate. -/
opaque x509Tbs (profile : CertProfile) : Bytes
opaque x509Cert (tbs sig : Bytes) : Bytes
opaque certNotBefore (cert : Bytes) : Bytes
/-- Body of an SPDM or TDISP response in the encoding of its own standard: of the code and the values that the manual
states it carries (log 12). -/
opaque stdBody (code : Nat) (values : Bytes) : Bytes
/-- A secret of the SPDM key schedule (DSP0274): from the agreed or the earlier secret and a transcript; `which` 0 the master secret,
1 the response-direction and 2 the request-direction key, 3 the key after an update (log 12). -/
opaque spdmKey (secret : Bytes) (which : Nat) : BitVec 256
/-- PCI Express IDE (log 12): the IV of a sub-stream's invocation; whether a TDI's stream carries a PCRC, and the PCRC of a TLP; how many
octets of a header stay clear; and whether a header's requester and address are associated with the stream. -/
opaque ideIv (sub ctr : Nat) : BitVec 96
opaque idePcrc (slice : Nat) : Bool
opaque pcrc (octets : Bytes) : BitVec 32
opaque ideClearHeader (slice : Nat) (header : Bytes) : Nat
opaque ideAssociated (slice : Nat) (header : Bytes) : Bool
/-- Limrin's authority certificates at the head of the certificate chains, ECDSA and ML-DSA (R98). -/
opaque authorityCert (mldsa : Bool) : Bytes

end Sys2Proof.Config
end

