-- ==== Sys2Proof/Machine/Tbl.lean ====
section
/-!
DEFINITION. A sparse table: the value that every unlisted index holds, and the listed entries in strictly rising order.
It holds the block's register files, record tables and buffers (key slots, descriptors, streams, the trace buffer) as
plain data in one canonical form: no listed entry equals the value an unlisted index holds.
-/
namespace Sys2Proof.Machine

/-- A table over natural indexes with a default entry. -/
structure Tbl (α : Type) where
  dflt : α
  ents : List (Nat × α)
  deriving DecidableEq, Repr

/-- The table in which every index holds `d`. -/
def Tbl.const {α : Type} (d : α) : Tbl α := { dflt := d, ents := [] }

/-- Look an index up in a list of entries. -/
def Tbl.look {α : Type} (d : α) : List (Nat × α) → Nat → α
  | [], _ => d
  | (k, v) :: rest, i => if k = i then v else Tbl.look d rest i

/-- The entry at an index. -/
def Tbl.get {α : Type} (t : Tbl α) (i : Nat) : α := Tbl.look t.dflt t.ents i

/-- Remove an index from a list of entries. -/
def Tbl.del {α : Type} : List (Nat × α) → Nat → List (Nat × α)
  | [], _ => []
  | (k, v) :: rest, i => if k = i then Tbl.del rest i else (k, v) :: Tbl.del rest i

/-- Put an entry at its place in a rising list. -/
def Tbl.ins {α : Type} : List (Nat × α) → Nat → α → List (Nat × α)
  | [], i, x => [(i, x)]
  | (k, v) :: rest, i, x =>
    if i < k then (i, x) :: (k, v) :: rest
    else if k = i then (i, x) :: rest
    else (k, v) :: Tbl.ins rest i x

/-- Write an entry; writing the default removes the entry, so equal tables are equal data. -/
def Tbl.set {α : Type} [DecidableEq α] (t : Tbl α) (i : Nat) (x : α) : Tbl α :=
  { t with ents := if x = t.dflt then Tbl.del t.ents i else Tbl.ins t.ents i x }

/-- Change an entry. -/
def Tbl.upd {α : Type} [DecidableEq α] (t : Tbl α) (i : Nat) (f : α → α) : Tbl α := t.set i (f (t.get i))

/-- Write entries at a list of indexes. -/
def Tbl.updMany {α : Type} [DecidableEq α] (t : Tbl α) (is : List Nat) (f : Nat → α → α) : Tbl α :=
  is.foldl (fun t i => t.upd i (f i)) t

/-- The listed indexes whose entries pass a test (the default entry is taken not to pass it). -/
def Tbl.findAll {α : Type} (t : Tbl α) (p : Nat → α → Bool) : List Nat :=
  (t.ents.filter (fun e => p e.1 e.2)).map (·.1)

/-- Change every listed entry. -/
def Tbl.mapEnts {α : Type} [DecidableEq α] (t : Tbl α) (f : Nat → α → α) : Tbl α :=
  (t.ents.map (·.1)).foldl (fun t i => t.upd i (f i)) t

/-- The indexes of a list of entries rise strictly from above `lo`. -/
def Tbl.rising {α : Type} : Nat → List (Nat × α) → Bool
  | _, [] => true
  | lo, (k, _) :: rest => lo ≤ k && Tbl.rising (k + 1) rest

/-- The canonical form: indexes strictly rising, no entry equal to the default. -/
def Tbl.wf {α : Type} [DecidableEq α] (t : Tbl α) : Bool :=
  Tbl.rising 0 t.ents && t.ents.all (fun e => !decide (e.2 = t.dflt))

end Sys2Proof.Machine
end

