-- ==== Sys2Proof/Machine/PartsCore.lean ====
section
/-!
DEFINITION. Plain data of the block's own infrastructure: local timers (R557), the recovery sequencer with the error log
(R481-R502), the interrupt controller (R464-R480), observation (R534-R549), the sentinel and tamper inputs (R559-R569),
the command queues and event rings (R328-R363). Counts, indexes and sizes are `Nat`; the dictionary shows each at its width.
-/
namespace Sys2Proof.Machine

/-- The four local timer bases in local ns, and the source of the three die timers (R557, R558). -/
structure Timers where
  compute : Nat := 0
  io0 : Nat := 0
  io1 : Nat := 0
  vault : Nat := 0
  running : Bool := false
  vaultRunning : Bool := false
  onOsc : Tbl Bool := Tbl.const false
  switches : Nat := 0
  deriving DecidableEq, Repr

/-- One error-log record (R495). -/
structure LogRec where
  timestamp : Nat
  cls : Nat
  severity : Nat
  unit : Nat
  slice : Nat
  coalesced : Bool
  region : Nat
  key : Nat
  detail : Nat
  rpt : Nat
  deriving DecidableEq, Repr

/-- One unit record of a dump (R494). -/
structure DumpUnit where
  unit : Nat
  stageIndex : Nat
  stageState : Nat
  slice : Nat
  flags : Nat
  context : Nat
  opcode : Nat
  index : Nat
  address : Nat
  occupancy : Nat
  deriving DecidableEq, Repr

/-- A dump (R494). -/
structure Dump where
  unit : Nat
  rung : Nat
  timer : Nat
  status : Nat
  firstError : Nat
  firstFatal : Nat
  units : List DumpUnit
  deriving DecidableEq, Repr

/-- What the recovery sequencer remembers of a unit's rungs (R484): the time and slice of its last engine rung, whether an
engine or partition rung has been applied, the context rung in progress with its time, and whether its reset runs. -/
structure UnitHist where
  engineAt : Option Nat
  slice : Nat
  partitionAt : Option Nat
  killing : Option Nat
  killAt : Nat
  resetting : Bool
  deriving DecidableEq, Repr

/-- The recovery sequencer (R481-R502). -/
structure Rcv where
  log : Tbl (Option LogRec) := Tbl.const none
  produced : Nat := 0
  consumed : Nat := 0
  overflow : Bool := false
  dropped : Nat := 0
  coalesceUs : Nat := 1000
  threshold : Nat := 192
  firstError : Option LogRec := none
  firstFatal : Option LogRec := none
  classCount : Tbl Nat := Tbl.const 0
  wdHostMemUs : Nat := 50
  chipCoopMs : Nat := 500
  wdExpiries : Nat := 0
  resetCounts : Tbl Nat := Tbl.const 0
  lastCause : Nat := 0
  pendingCause : Nat := 0
  chipResetReq : Bool := false
  powerCycleReq : Bool := false
  fwRunning : Bool := false
  faultDir : Nat := 0
  dump : Option Dump := none
  dumpsTaken : Nat := 0
  dumpsDropped : Nat := 0
  contextKills : Tbl Nat := Tbl.const 0
  lastKilled : Tbl Nat := Tbl.const 0
  sliceResets : Tbl Nat := Tbl.const 0
  kickAt : Tbl Nat := Tbl.const 0
  hostStallAt : Tbl (Option Nat) := Tbl.const none
  hist : Tbl UnitHist := Tbl.const ⟨none, 0, none, none, 0, false⟩
  deriving DecidableEq, Repr

/-- One interrupt source: its SRC_CFG fields (R467) and its state (R468-R474). `eligSince` is when a moderated source
became eligible (R472); `window` marks the one further claim that R473 allows. -/
structure IcuSrc where
  stormEn : Bool := true
  modEn : Bool := false
  target : Bool := false
  priority : BitVec 4 := 15
  pending : Bool := false
  latch : Bool := false
  input : Bool := false
  active : Bool := false
  masked : Bool := true
  storm : Bool := false
  stormCount : Nat := 0
  stormLimit : Nat := 4096
  eligSince : Option Nat := none
  window : Bool := false
  deriving DecidableEq, Repr

/-- The firmware's forwarding record (R476). -/
structure IcuFwd where
  detail : BitVec 64 := 0
  code : BitVec 16 := 0
  kind : BitVec 8 := 0
  ring : BitVec 8 := 0
  cookie : BitVec 64 := 0
  status : Nat := 0
  go : Bool := false
  deriving DecidableEq, Repr

/-- The banked interface registers of one control pair (R466). `stack` lists (priority, source), top first. -/
structure IcuPair where
  stack : List (Nat × Nat) := []
  pmr : Nat := 16
  modCount : Nat := 8
  modOff : Bool := false
  modNs : Nat := 2000
  fwd : IcuFwd := {}
  line : Bool := false
  wfi : Bool := false
  claims : Nat := 0
  spurious : Nat := 0
  eoiMismatch : Nat := 0
  maskWindowClaims : Nat := 0
  modBypasses : Nat := 0
  deriving DecidableEq, Repr

/-- The interrupt controller: sources keyed as `Machine.srcKey` gives, and the two pairs (R464). -/
structure Icu where
  src : Tbl IcuSrc := Tbl.const {}
  pairs : Tbl IcuPair := Tbl.const {}
  stormWindowUs : Nat := 1000
  stormThreshold : Nat := 4096
  storms : Nat := 0
  hostEvents : Nat := 0
  fwdPosted : Nat := 0
  deriving DecidableEq, Repr

/-- One trace record (R541). -/
structure TraceRec where
  type : Nat
  flags : Nat
  seq : Nat
  timestamp : Nat
  payload : Nat
  payload2 : Nat
  deriving DecidableEq, Repr

/-- One trace comparator (R546). -/
structure TrigCfg where
  kind : Nat := 0
  pairs : Nat := 0
  threshold : Nat := 0
  value : Nat := 0
  deriving DecidableEq, Repr

/-- Observation: counters as (EPOCH, VALUE), the snapshot bank and the trace (R534-R549). -/
structure Obs where
  counters : Tbl (Nat × Nat) := Tbl.const (0, 0)
  snap : Tbl (Nat × Nat) := Tbl.const (0, 0)
  snapTime : Nat := 0
  epochWraps : Nat := 0
  mode : Nat := 0
  arm : Bool := false
  pcSelect : Nat := 3
  pcInterval : Nat := 1000
  pre : Nat := 4095
  lanes : Bool := false
  state : Nat := 0
  writeIndex : Nat := 0
  syncInterval : Nat := 1024
  sinceSync : Nat := 0
  trig : Tbl TrigCfg := Tbl.const {}
  fired : Tbl Bool := Tbl.const false
  seq : Nat := 0
  stored : Nat := 0
  buffer : Tbl (Option TraceRec) := Tbl.const none
  windowLeft : Nat := 0
  gapDropped : Nat := 0
  gapTime : Nat := 0
  trigIndex : Nat := 0
  trigSeq : Nat := 0
  deriving DecidableEq, Repr

/-- A watched unit of the sentinel (R559-R562): canary means and deviations in 1/256 tap. -/
structure SenUnit where
  mu : Tbl Int := Tbl.const 0
  d : Tbl Int := Tbl.const 0
  frozenAt : Option Nat := none
  brownOut : Bool := false
  outliers : Nat := 0
  lastOutlier : Nat := 0
  deriving DecidableEq, Repr

/-- The glitch sentinel, the sensors and the measured rates (R553-R568). -/
structure Sen where
  units : Tbl SenUnit := Tbl.const {}
  window : List Nat := []
  tamperEvents : Nat := 0
  tjMax : Int := 0
  tjMin : Int := 0
  tjWarnC : Int := 105
  vddCore : Nat := 0
  vddIo0 : Nat := 0
  vddIo1 : Nat := 0
  supplyExcursions : Nat := 0
  brownouts : Nat := 0
  vaultTemp : Int := 0
  vaonMv : Nat := 0
  tjMe : Tbl Int := Tbl.const 0
  fairleadMhz : Tbl Nat := Tbl.const 0
  samples : Tbl (List Nat) := Tbl.const []
  rates : Tbl Nat := Tbl.const 0
  deriving DecidableEq, Repr

/-- One tamper input, in the always-on domain (R565, R566). `samples` are the last 32, newest last; `quiet` counts the
samples in a row at which the filtered input was inactive. -/
structure TamperIn where
  filterUs : Nat := 2
  samples : List Bool := []
  quiet : Nat := 0
  latched : Bool := false
  events : Nat := 0
  deriving DecidableEq, Repr

/-- Where a fetched command stands between fetch and the posting of its record (R335, R336, R41, R357). -/
inductive Phase where
  /-- waits for its predecessors or its COND -/
  | waiting
  /-- its predecessors have completed and its COND held: the executor may start it -/
  | ready
  /-- started; a later event finishes it -/
  | running
  /-- its engine has finished, with a status and a DETAIL -/
  | done
  /-- completed; its record waits for its turn in queue order -/
  | completed
  /-- the faulting command of a halted queue -/
  | faulted
  deriving DecidableEq, Repr

/-- A fetched command that is not yet retired. -/
structure Flight where
  key : CmdKey
  raw : BitVec 512
  phase : Phase
  status : Nat
  detail : BitVec 64
  startedAt : Nat
  /-- 0: no record composed yet; 1: composed and waiting to be written; 2: written, or none was requested -/
  recState : Nat
  /-- a kill or timeout status that the command carries when it ends (R487) -/
  override : Option Nat
  deriving DecidableEq, Repr

/-- A running CALL or LAUNCH (R340, R344): the parent command, its copy when it runs a graph, the iteration in progress,
the commands per iteration, and the first failing
status in execution order as (iteration, position, status). -/
structure Frame where
  key : CmdKey
  graph : Option (List (BitVec 512))
  count : Nat
  limit : Nat
  index : Nat
  iteration : Nat
  started : Bool
  fetched : Nat
  finished : Nat
  bad : Option (Nat × Nat × Nat)
  handle : Option Nat
  slice : Nat
  deriving DecidableEq, Repr

/-- The fault-capture area of a queue (R358). -/
structure Capture where
  cause : Nat
  opcode : Nat
  context : Nat
  depth : Nat
  ringIndex : Nat
  position : List Nat
  bva : Nat
  pasid : Nat
  xltDetail : Nat
  timestamp : Nat
  cookie : BitVec 64
  raw : BitVec 512
  engines : List (Nat × Nat × Nat)
  deriving DecidableEq, Repr

/-- A command queue (R328-R332, R339, R357-R363). -/
structure Queue where
  state : Nat := 0
  cls : Nat := 0
  owner : Nat := 0
  ringBase : Nat := 0
  ringLog2 : Nat := 10
  context : Nat := 0
  compat : Bool := false
  enable : Bool := false
  done : Nat := 0
  faultCount : Nat := 0
  pi : Nat := 0
  ci : Nat := 0
  retired : Nat := 0
  fetcher : Nat := 0
  rung : Bool := false
  halted : Bool := false
  scalars : Tbl (BitVec 64) := Tbl.const 0
  capture : Option Capture := none
  flights : List Flight := []
  hist : List (CmdKey × Nat) := []
  frames : List Frame := []
  deriving DecidableEq, Repr

/-- An event record (R352). -/
structure EvRec where
  cookie : BitVec 64
  timestamp : Nat
  detail : BitVec 64
  context : Nat
  status : Nat
  queue : Nat
  kind : Nat
  deriving DecidableEq, Repr

/-- A raised record that waits to be written. `signal` is R355's signalling record; `fwd` marks a record that R476's FWD
of that pair composed, whose STATUS follows the posting; `key` names the command of a COMPLETION record;
`slices` are the slices whose record it is, and `sample` their gates as sampled (R286). -/
structure EvWait where
  record : EvRec
  signal : Bool
  fwd : Option Nat
  key : Option CmdKey
  slices : List Nat
  sample : Option (List (List Nat))
  deriving DecidableEq, Repr

/-- An event ring (R352-R355, R401). `prod` and `cons` are the 32-bit producer and read indexes; PHASE is the parity of `prod / 4096`. -/
structure EventRing where
  base : Nat := 0
  vector : Nat := 0
  modCount : Nat := 16
  modNs : Nat := 20000
  posted : Nat := 0
  dropped : Nat := 0
  prod : Nat := 0
  cons : Nat := 0
  lost : Bool := false
  faulted : Bool := false
  unsignalled : Nat := 0
  oldest : Nat := 0
  waiting : List EvWait := []
  deriving DecidableEq, Repr

/-- A sync counter (R346). -/
structure SyncCtr where
  value : BitVec 64 := 0
  signaller : Nat := 0
  broken : Bool := false
  deriving DecidableEq, Repr

/-- A graph handle (R342-R344): 0 empty, 1 SEALED, 2 LOADED. -/
structure Graph where
  state : Nat := 0
  digest : BitVec 384 := 0
  count : Nat := 0
  copy : List (BitVec 512) := []
  launches : Nat := 0
  deriving DecidableEq, Repr

/-- A collector's bitmap for one outstanding DSEQ of a group (R349, R350). -/
structure FenceColl where
  dseq : Nat
  ftype : Nat
  bitmap : Nat
  outcome : Nat
  changedAt : Nat
  deriving DecidableEq, Repr

/-- A domain fence of this member that has taken its DSEQ (R347-R350). `drained` says that its local part is done, with the gate
sampled then; `done` is the OUTCOME of DONE, with the gate sampled when the fence's turn came (empty before). -/
structure FenceWait where
  key : CmdKey
  dseq : Nat
  ftype : Nat
  outcome : Nat
  drained : Bool
  sample : List Nat
  acked : Bool
  ackAt : Nat
  done : Option Nat
  doneSample : List Nat
  deriving DecidableEq, Repr

/-- A fence group of a slice (R347, R348). -/
structure FenceGroup where
  defined : Bool := false
  members : BitVec 4096 := 0
  collector : Nat := 0
  dseq : Nat := 0
  waits : List FenceWait := []
  colls : List FenceColl := []
  closed : List (Nat × Nat × Nat) := []
  deriving DecidableEq, Repr

/-- A wait in progress: 1 WAIT_MEM (bva, mask, value, comparison), 2 WAIT_SYNC (counter, value), 3 KEY_FENCE (target, epoch). -/
structure WaitRec where
  key : CmdKey
  slice : Nat
  kind : Nat
  a : Nat
  b : Nat
  c : Nat
  cmp : Nat
  since : Nat
  limitUs : Nat
  last : BitVec 64
  deriving DecidableEq, Repr

/-- A fence whose gate is to open: an egress, a local or a key fence, or SEAL (R38, R39, R286, R287), with its gate sample per port,
empty until its other conditions hold. -/
structure FenceHold where
  key : CmdKey
  slice : Nat
  egress : Bool
  sample : List Nat
  tlps : Nat
  counter : Option (Nat × BitVec 64)
  detail : Nat := 0
  deriving DecidableEq, Repr

/-- A context binding (R338). -/
structure Binding where
  slice : Nat
  pasid : Nat
  deriving DecidableEq, Repr

/-- The command front end and executor: queues, bindings, rings, graphs, counters, fences and waits (R328-R363). `kills` are the
context kills in progress, each with its command unless the recovery sequencer began it (R484, R486). -/
structure Cex where
  queues : Tbl Queue := Tbl.const {}
  compatDefault : Bool := false
  compatTimeoutMs : Nat := 2000
  bindings : Tbl (Option Binding) := Tbl.const none
  rings : Tbl EventRing := Tbl.const {}
  graphs : Tbl Graph := Tbl.const {}
  syncs : Tbl SyncCtr := Tbl.const {}
  groups : Tbl FenceGroup := Tbl.const {}
  waits : List WaitRec := []
  holds : List FenceHold := []
  rerequests : Tbl Nat := Tbl.const 0
  msixTable : Tbl (BitVec 128) := Tbl.const 0
  msixPba : Tbl Bool := Tbl.const false
  kills : List (Option CmdKey × Nat) := []
  deriving DecidableEq, Repr

end Sys2Proof.Machine
end

