-- ==== Sys2Proof/Machine/PartsSys.lean ====
section
/-!
DEFINITION. Plain data of translation (R382-R405), of slices and the share regulator (R406-R438), and of the object
dictionary server with its carriers (R439-R463).
-/
namespace Sys2Proof.Machine

/-- A TLB entry: a combined translation (R393). `page` is the input page base, `ia` its intermediate and `oa` its output base. -/
structure TlbEntry where
  set : Nat
  pasid : Nat
  page : Nat
  log2 : Nat
  ia : Nat
  oa : Nat
  read : Bool
  write : Bool
  shared : Bool
  lastUse : Nat
  deriving DecidableEq, Repr

/-- A block-DMA access that waits for a walk: its address, what it needs, its acting slice and the command it serves. -/
structure DmaReq where
  set : Nat
  pasid : Nat
  stage1 : Bool
  slice : Nat
  bva : Nat
  read : Bool
  write : Bool
  ring : Bool
  key : Option CmdKey
  deriving DecidableEq, Repr

/-- A walk in progress (R392). `phase` 0: stage 2 of a stage-1 table address; 1: the stage-1 descriptor itself;
2: stage 2 of the final address. `level1`/`level2` are the levels to be read next, `base` the table read next,
`target` the address that stage 2 translates, `leaf1` the stage-1 leaf found (page base IA, log2, read, write, shared). -/
structure Walk where
  req : DmaReq
  joined : List DmaReq
  phase : Nat
  level1 : Nat
  level2 : Nat
  base : Nat
  target : Nat
  leaf1 : Option (Nat × Nat × Bool × Bool × Bool)
  deriving DecidableEq, Repr

/-- The translation unit (R392-R405). Sets 0-15 are slices, 16 is the host. -/
structure Xlt where
  s2root : Tbl Nat := Tbl.const 0
  s1root : Tbl Nat := Tbl.const 0
  faults : Tbl Nat := Tbl.const 0
  lastDetail : Tbl Nat := Tbl.const 0
  tlb : List TlbEntry := []
  walkers : Tbl (Option Walk) := Tbl.const none
  waiting : List DmaReq := []
  useCtr : Nat := 0
  walks : Nat := 0
  hits : Nat := 0
  misses : Nat := 0
  invalidations : Nat := 0
  invalidating : List (CmdKey × Nat × Nat × Nat × Nat × Nat) := []
  deriving DecidableEq, Repr

/-- Accounting of a slice (R423). -/
structure Usage where
  queueWait : Nat := 0
  started : Nat := 0
  preemptions : Nat := 0
  engineNs : Tbl Nat := Tbl.const 0
  lines : Tbl Nat := Tbl.const 0
  reefedNs : Nat := 0
  linkSent : Nat := 0
  linkReceived : Nat := 0
  seq : Nat := 0
  periodStart : Nat := 0
  migratedIn : Bool := false
  deriving DecidableEq, Repr

/-- A slice (R406-R411, R426-R433): 0 FREE, 1 ACTIVE, 2 FROZEN, 3 SAVED, 4 TARGET, 5 RESTORED. Ranges are (first, count).
`published` says that the PASID table driven to the host holds the slice's entries (R410), `freezing` is the SLICE_FREEZE that waits for R427, `withdrawn` the waits that it has withdrawn, with their remaining time. -/
structure SliceRec where
  state : Nat := 0
  pasids : List Nat := []
  published : Bool := false
  creation : Bytes := []
  keys : Nat × Nat := (0, 0)
  regions : Nat × Nat := (0, 0)
  streams0 : Nat × Nat := (0, 0)
  streams1 : Nat × Nat := (0, 0)
  graphKib : Nat × Nat := (0, 0)
  wheel : Tbl Nat := Tbl.const 0
  ways : Tbl Nat := Tbl.const 0
  shares : Tbl Nat := Tbl.const 0
  migEvidence : Bytes := []
  migChain : Bytes := []
  migrations : Nat := 0
  freezing : Option CmdKey := none
  withdrawn : List WaitRec := []
  usage : Usage := {}
  deriving DecidableEq, Repr

/-- One memory engine's wheel (R412-R414): the next slot, the slots that each slice and the host hold in this revolution, each slice's
PLOUGH_SHARE in it, and the slots that each region's plough has used in it (R229, R238). -/
structure Wheel where
  pos : Nat := 0
  held : List Nat := []
  shares : List Nat := []
  used : Tbl Nat := Tbl.const 0
  slotsLent : Nat := 0
  lastLent : Nat := 16
  deriving DecidableEq, Repr

/-- One shared engine: PKE 0, KWE 1, PLG 2, CEX 3 (R416). `recent` are the engine times of the last SHARE_WINDOW_US, as (contender,
when charged, ns). -/
structure SharedEng where
  recent : List (Nat × Nat × Nat) := []
  switches : Nat := 0
  switchNs : Nat := 0
  deriving DecidableEq, Repr

/-- The share regulator and the sixteen slices (R406-R438). `reef` holds, per published rate, its value at the last GUARANTEE_MISSED
event, while it is below L. -/
structure Srg where
  slices : Tbl SliceRec := Tbl.const {}
  profile : Nat := 0
  hostWheelSlots : Nat := 64
  wheels : Tbl Wheel := Tbl.const {}
  shared : Tbl SharedEng := Tbl.const {}
  reef : Tbl (Option Nat) := Tbl.const none
  store : List Nat := []
  deriving DecidableEq, Repr

/-- An open segmented transfer (R449). `snapshot` is the value read, or the bytes accepted of a write; `idleMs` the idle time in force when it
began (R463); `arrival` the receiving slice of a transfer on the fabric. -/
structure DictTrans where
  path : Nat
  requester : Nat
  tag : Nat
  read : Bool
  who : Principal
  index : Nat
  sub : Nat
  snapshot : Bytes
  total : Nat
  segs : Nat
  lastAt : Nat
  idleMs : Nat
  arrival : Nat
  type : Nat
  deriving DecidableEq, Repr

/-- A mailbox (R453). Mailbox 16 is the host's. -/
structure Mailbox where
  irqEn : Bool := false
  lenErr : Bool := false
  done : Bool := false
  go : Bool := false
  reqLen : Nat := 0
  rspLen : Nat := 0
  request : Bytes := []
  response : Bytes := []
  deriving DecidableEq, Repr

/-- An MCTP message under assembly (R451). -/
structure McAsm where
  source : Nat
  tag : Nat
  seq : Nat
  data : Bytes
  deriving DecidableEq, Repr

/-- The dictionary server and the management endpoint (R447-R463). -/
structure Ods where
  trans : List DictTrans := []
  ended : List (Nat × Nat × Nat) := []
  segIdleMs : Nat := 1000
  requests : Nat := 0
  refused : Nat := 0
  mbs : Tbl Mailbox := Tbl.const {}
  mbVector : Nat := 17
  mbRequests : Nat := 0
  i3cStatic : Nat := 0
  i3cDynamic : Nat := 0
  eid : Nat := 0
  busOwner : Nat := 0
  packetsDropped : Nat := 0
  messagesDropped : Nat := 0
  asm : List McAsm := []
  bootSource : Nat := 0
  ectVersion : Nat := 0
  ectDigest : BitVec 384 := 0
  hostId : BitVec 128 := 0
  stackPeak : Nat := 0
  portPeak : Nat := 0
  fwVersion : Nat := 0
  mfgLot : Option (BitVec 64) := none
  powerMw : Nat := 0
  subsysMw : Tbl Nat := Tbl.const 0
  deriving DecidableEq, Repr

end Sys2Proof.Machine
end

