-- ==== Sys2Proof/Machine/PartsKeys.lean ====
section
/-!
DEFINITION. Plain data of the vault, the key store, the key-work and public-key engines, entropy (R47-R84), the
measurement registers (R91-R96), the life cycle and debug (R503-R532), and pins, straps and rails (R570-R589).
-/
namespace Sys2Proof.Machine

/-- The root vault (R47-R53). `state` 0 READY, 1 EMPTY, 2 ZEROIZING (R82). The miss counters hold what R50 counts;
`trigger` are cause bits recognised before the sequence of R51 runs. -/
structure Vault where
  state : Nat := 1
  rs : BitVec 512 := 0
  provisioned : Bool := false
  check : BitVec 64 := 0
  cause : Nat := 0
  time : Nat := 0
  count : Nat := 0
  vbatMv : Nat := 0
  mesh : Nat := 0
  meshMiss : Nat := 0
  trigger : Nat := 0
  coldMiss : Nat := 0
  hotMiss : Nat := 0
  decided : Bool := false
  deriving DecidableEq, Repr

/-- A key slot: the key, its attribute and binding words (R57, R58) and its wrap identifier (R371). -/
structure Slot where
  key : BitVec 256 := 0
  attr : BitVec 64 := 0
  binding : BitVec 64 := 0x0000FFFF00000000
  wrapId : BitVec 128 := 0
  deriving DecidableEq, Repr

/-- A request of the key-work engine in progress: its requester (16 the device), its operation, source slot and destination,
and the context it acts under; `dead` once a slot it names has been zeroized (R64). -/
structure KweReq where
  who : Nat
  op : KweOp
  src : Nat
  dst : KweDst
  ctx : Nat
  dead : Bool
  deriving DecidableEq, Repr

/-- The key-work engine (R69-R72): the request that runs and those that wait behind it, oldest first. -/
structure Kwe where
  current : Option KweReq := none
  queue : List KweReq := []
  completed : Nat := 0
  refused : Nat := 0
  sinceReseed : Nat := 0
  deriving DecidableEq, Repr

/-- A key held in an engine register: its class (R57), its index there, the key and the slot it came from (R62, R64). -/
structure EngKey where
  cls : Nat
  index : Nat
  key : BitVec 256
  slot : Option Nat
  deriving DecidableEq, Repr

/-- An entry of the public-key engine's store (R90): `seed` is its private half, from which the lattice and the curve private key
are expanded, empty once cleared; `pub` its public half. -/
structure PkeEntry where
  valid : Bool := false
  seed : Bytes := []
  pub : Bytes := []
  deriving DecidableEq, Repr

/-- Entropy source and DRBG (R78-R81). `state` 0 OK, 1 STARTUP, 2 RETRY, 3 FAILED. -/
structure Ent where
  state : Nat := 1
  rctFails : Nat := 0
  aptFails : Nat := 0
  failTimes : List Nat := []
  reseeds : Nat := 0
  interval : Nat := 1048576
  sinceReseed : Nat := 0
  instantiated : Bool := false
  /-- the working state of the block's DRBG (R81) -/
  drbg : Bytes := []
  pkeOps : Nat := 0
  deriving DecidableEq, Repr

/-- The measurement registers and identity (R91-R96, R106). `certs` are the four certificates in the order of 0x3804. -/
structure Atu where
  mr : Tbl (BitVec 384) := Tbl.const 0
  smr : Tbl (BitVec 384) := Tbl.const 0
  diceLock : Bool := false
  identityFault : Bool := false
  fwSvn : Nat := 0
  certs : List Bytes := []
  serial : Bytes := []
  deviceIdDigest : BitVec 384 := 0
  aliasDigest : BitVec 384 := 0
  deriving DecidableEq, Repr

/-- One hart of the debug module (R526, R527). `regs` are the registers that the debugger has read or written since the halt, by
abstract register number; `triggers` are the four triggers' two data words, keyed 2 * trigger + word. -/
structure Hart where
  haltReq : Bool := false
  halted : Bool := false
  resumeAck : Bool := false
  halts : Nat := 0
  regs : Tbl (Option (BitVec 64)) := Tbl.const none
  dcsr : BitVec 64 := 0
  tselect : Nat := 0
  triggers : Tbl (BitVec 64) := Tbl.const 0
  deriving DecidableEq, Repr

/-- The life-cycle controller, debug authorization and the debug module (R503-R532). `cpMem` holds, per address with the pair in bit 64,
the octets of the pairs' own memories that the debugger has read or written while the pair is halted. -/
structure Lcc where
  state : Nat := 1
  decoded : Bool := false
  words : Tbl (BitVec 32) := Tbl.const 0
  target : Nat := 0
  progress : Nat := 0
  result : Nat := 0
  provisionDue : Bool := false
  tokenFailures : Nat := 0
  deviceUid : Option (BitVec 128) := none
  tokenDigests : Option Bytes := none
  molnorDigest : Option (BitVec 384) := none
  scopes : Nat := 0
  challenge : Bytes := []
  outstanding : Bool := false
  challengeSeq : Nat := 0
  debugResult : Nat := 0
  openings : Nat := 0
  harts : Tbl Hart := Tbl.const {}
  dmActive : Bool := false
  hartsel : Nat := 0
  dmData : Tbl (BitVec 32) := Tbl.const 0
  cmdErr : Nat := 0
  sbError : Nat := 0
  sbAddress : BitVec 64 := 0
  sbData : BitVec 64 := 0
  sbcs : BitVec 32 := 0
  dmiAddr : Tbl Nat := Tbl.const 0
  dmiStatus : Tbl Nat := Tbl.const 0
  dmiData : Tbl (BitVec 32) := Tbl.const 0
  cpMem : Tbl (Option (BitVec 8)) := Tbl.const none
  tapIr : TapInstr := .idcode
  deriving DecidableEq, Repr

/-- Straps, rails and pins (R570-R587). Straps are indexed as 0x2000's subindexes 0-7 (R460). -/
structure Pins where
  applied : Tbl Nat := Tbl.const 0
  vaonSample : Tbl Nat := Tbl.const 0
  released : Tbl Nat := Tbl.const 0
  strapTaken : Bool := false
  rails : Nat := 0
  resetPort : Bool := false
  alarmN : Bool := false
  domLive : Bool := false
  pwrcycN : Bool := true
  deriving DecidableEq, Repr

/-- Start-up (R589-R595): the last step finished, whether chip reset holds, whether a recovery fetch runs, and what the verified
image holds of FW_VERSION and of the engine configuration table. -/
structure Boot where
  step : Nat := 0
  inReset : Bool := true
  fetching : Bool := false
  katFail : Option Nat := none
  imageOk : Bool := false
  fwVersion : Nat := 0
  ect : Bytes := []
  unpopulated : Nat := 0
  unwired : Nat := 0
  deriving DecidableEq, Repr

end Sys2Proof.Machine
end

