-- ==== Sys2Proof/Machine/PartsMem.lean ====
section
/-!
DEFINITION. Plain data of the memory engines, the freshness unit, the plough, the calibration interlock and the fallow list
(R140-R259). The stacks themselves lie outside the block (log 1).
-/
namespace Sys2Proof.Machine

/-- A region: its descriptor (R145), its freshness record (R209-R216) and the commands that wait on it. `state` is 0
INITIALIZING, 1 ACTIVE, 2 PLOUGHING, 3 IMPORT_FAILED, 4 KEYLESS, 5 RETIRING; `save` is 0 EMPTY, 1 WRITING, 2 SEALED. -/
structure Region where
  valid : Bool := false
  state : Nat := 0
  mode : Nat := 0
  tgc : Bool := false
  sheaf : Bool := false
  window : Bool := false
  slice : Nat := 0
  base : Nat := 0
  pages : Nat := 0
  keyData : Nat := 0
  keyTweak : Nat := 0
  keyTag : Nat := 0
  nextData : Nat := 0
  nextTweak : Nat := 0
  nextTag : Nat := 0
  mirrorBase : Nat := 0
  metaBase : Nat := 0
  crownFirst : Nat := 0
  furrow : Nat := 0
  epoch : Nat := 0
  grants : Nat := 0
  stepOrSeq : Nat := 0
  save : Nat := 0
  phaseWrites : Nat := 0
  saveFirst : Nat := 0
  saveCount : Nat := 0
  saveSeq : Nat := 0
  closing : Bool := false
  exhausted : Bool := false
  tgcCount : Nat := 0
  epochAt : Nat := 0
  agesRaised : Nat := 0
  define : Option CmdKey := none
  retire : List CmdKey := []
  ending : Option CmdKey := none
  importing : Bool := false
  deriving DecidableEq, Repr

/-- A counter line held on chip (R181, R188): `newer` marks the new epoch of a ploughed region (R225). -/
structure CLine where
  region : Nat
  level : Nat
  idx : Nat
  engine : Nat
  slice : Nat
  major : Nat
  minors : Tbl Nat
  dirty : Bool
  newer : Bool
  use : Nat
  deriving DecidableEq, Repr

/-- A plough (R220-R236): 1 running, 2 paused, 4 abandoned by REGION_RETIRE. `locked` are the lines under the plough's lock whose move is
in progress, `moved` those moved beyond LF; `old` the old copies of R225; `cause` is 1 context kill, 2 PLG reset, 3 freeze while paused;
`told` says that PLOUGH_PAUSED has been raised for this pause. -/
structure Plough where
  region : Nat
  state : Nat
  lf : Nat
  base : Nat
  epoch : Nat
  set : Nat
  keys : List CmdKey
  ctx : Nat
  locked : List Nat := []
  moved : List Nat := []
  old : List CLine := []
  oldCrown : Nat := 0
  cause : Nat := 0
  told : Bool := false
  deriving DecidableEq, Repr

/-- A rebase in progress (R194): the slot's copy of the line's old counters and the next child. `old` marks a rebase of an
old copy of a plough. -/
structure Rebase where
  region : Nat
  level : Nat
  idx : Nat
  old : Bool
  major : Nat
  minors : Tbl Nat
  next : Nat
  deriving DecidableEq, Repr

/-- Why a line is read: for the host; by the block DMA of a command, as its n-th line (R386); as a counter line, or as the mirror of one
with the anchor of the primary's read (R192, R199, R252); by a rebase for its next child (R194); by the plough (R222); once more after a
write-back, under the version just written (R258). -/
inductive Purpose where
  | mission
  | block (k : CmdKey) (n : Nat)
  | counter
  | mirror (anchor : Nat)
  | child (old : Bool)
  | plough
  | scrub (version : Nat)
  deriving DecidableEq, Repr

/-- How far a read has come: held behind a line lock (R223), waiting for a slot of its engine's wheel (R412), asked of the stack, its
data at the engine, in tag-guided correction (R169). -/
inductive Stage where
  | held
  | queued
  | asked
  | back
  | due
  deriving DecidableEq, Repr

/-- A read that an engine has accepted and not ended (R162), numbered from 1 in the order of acceptance. It reads line `idx` of `level` (0 for
data). `req` is its REQ_ID and `who` the slice, host or block behind it (R149). `newer` is the epoch that the furrow line chose; `raw` are
the step or save numbers that its mode gave it at acceptance (R175), `cands` its candidates under the chosen epoch, none while they are
awaited; `got` is the word that has returned, `suspect` whether an announcement was open on its pseudo-channel then (R241), `retried`
whether its calibration retry has been issued. -/
structure MemRead where
  seq : Nat
  engine : Nat
  ln : Nat
  region : Nat
  level : Nat
  idx : Nat
  purpose : Purpose
  req : Nat
  who : Nat
  stage : Stage := .held
  newer : Bool := false
  raw : Option (List Nat) := none
  cands : Option (List Nat) := none
  got : Option RdWord := none
  pc : Nat := 0
  suspect : Bool := false
  retried : Bool := false
  deriving DecidableEq, Repr

/-- An accepted write that waits for its version or its line (R20, R34, R161), numbered like the reads. `raw` is the step or save number
that it takes, none in a tree region; `imported` marks an IMPORT write, `sheaf` the open sheaf context it contributes to (R310), `held` one
that its exhausted counter line holds (R196). -/
structure MemWrite where
  seq : Nat
  engine : Nat
  ln : Nat
  req : Nat
  who : Nat
  region : Nat
  off : Nat
  data : Line
  raw : Option Nat
  imported : Bool
  sheaf : Option Nat
  held : Bool := false
  deriving DecidableEq, Repr

/-- What a line service does at the stack: a read, by its number; a write of ciphertext and line tag. -/
inductive LineOp where
  | read (seq : Nat)
  | write (cipher : Line) (tag : BitVec 56)
  deriving DecidableEq, Repr

/-- A line that waits for a slot of an engine's wheel (R412): the contender charged (0-15 a slice, 16 the host), whether the plough moves
it (R229), its region and its line number. -/
structure WaitLine where
  who : Nat
  plough : Bool
  region : Nat
  ln : Nat
  op : LineOp
  deriving DecidableEq, Repr

/-- A line that the block DMA of a command has read (R386): none for poison. -/
structure BlockLine where
  key : CmdKey
  n : Nat
  data : Option Line
  deriving DecidableEq, Repr

/-- What the first event of a command whose block DMA reads lines brought with it: the lines of COPY, the operand buffers of EXPORT and
SLICE_SAVE (log 133). -/
structure Gather where
  key : CmdKey
  lines : List CopyLine := []
  buffers : List Bytes := []
  deriving DecidableEq, Repr

/-- A correction waiting or in progress on a stack (R169), of the read with a number; the head of an engine's list is the one in
progress. -/
structure Corr where
  read : Nat
  handle : Nat
  anchor : Nat
  todo : List Nat
  tried : Nat := 0
  found : Option (Line × BitVec 56 × Nat) := none
  ambiguous : Bool := false
  deriving DecidableEq, Repr

/-- An open calibration announcement (R239). -/
structure CalAnn where
  seq : Nat
  kind : Nat
  mask : Nat
  deriving DecidableEq, Repr

/-- The interlock and throttle of one stack (R239-R249). `granted` is the duration of the granted sweep. -/
structure Cal where
  anns : List CalAnn := []
  thr : Nat := 255
  retries : List Nat := []
  granted : Option Nat := none
  deriving DecidableEq, Repr

/-- A sweep request in the block-wide queue (R245). -/
structure SweepReq where
  stack : Nat
  duration : Nat
  mask : Nat
  at_ : Nat
  deriving DecidableEq, Repr

/-- A fallow entry (R252). -/
structure Fallow where
  failed : Nat := 0
  first : Nat := 0
  count : Nat := 0
  region : Nat := 0
  slices : Nat := 0
  engine : Nat := 0
  cause : Nat := 0
  anchor : Nat := 0
  timestamp : Nat := 0
  state : Nat := 0
  deriving DecidableEq, Repr

/-- The memory subsystem (R140-R259). `window` is 0 closed, 1 open, 2 closing. Engine counters are keyed
16 * engine + subindex of R176, cache counters 16 * engine + subindex of R215. -/
structure Mem where
  regions : Tbl Region := Tbl.const {}
  mark : Tbl (Option Nat) := Tbl.const none
  crown : Tbl Nat := Tbl.const 0
  cache : List CLine := []
  useCtr : Nat := 0
  rebases : List Rebase := []
  seqCtr : Nat := 1
  reads : List MemRead := []
  writes : List MemWrite := []
  lines : Tbl (List WaitLine) := Tbl.const []
  blocks : List BlockLine := []
  gathers : List Gather := []
  corr : Tbl (List Corr) := Tbl.const []
  ploughs : List Plough := []
  window : Tbl Nat := Tbl.const 0
  closeKey : Tbl (Option CmdKey) := Tbl.const none
  ctr : Tbl Nat := Tbl.const 0
  mcCtr : Tbl Nat := Tbl.const 0
  cal : Tbl Cal := Tbl.const {}
  sweeps : List SweepReq := []
  sweepEnds : Tbl (Option Nat) := Tbl.const none
  fallow : Tbl Fallow := Tbl.const {}
  fallowOver : Bool := false
  scrubbed : Tbl (List (Nat × Nat)) := Tbl.const []
  decodeG : Nat := 10
  decodeK : Nat := 0
  decodeMap : Tbl Nat := Tbl.const 0xFFFF
  decodeLocked : Bool := false
  adjacency : Option Bytes := none
  tgcMax : Nat := 64
  linesMoved : Nat := 0
  ploughsDone : Nat := 0
  ploughShare : Tbl Nat := Tbl.const 64
  ageLimit : Tbl Nat := Tbl.const 0
  progressGib : Tbl Nat := Tbl.const 0
  deriving DecidableEq, Repr

end Sys2Proof.Machine
end

