-- ==== Sys2Proof/Machine/PartsLink.lean ====
section
/-!
DEFINITION. Plain data of the link engines, the host link engine (R260-R305) and the sheaf (R306-R327).
-/
namespace Sys2Proof.Machine

/-- A stream-table entry (R269). `halyard` says that its epoch is that of a halyard key (R126, R280), `fresh` that it waits for
its pair's rotation before it may send at all (R273). -/
structure Stream where
  ctr : Nat := 0
  window : Nat := 0
  epoch : Nat := 0
  kph : Bool := false
  drain : Bool := false
  pair : Nat := 0
  port : Nat := 0
  cls : Nat := 0
  rx : Bool := false
  peer : Nat := 0
  slice : Nat := 0
  state : Nat := 0
  fresh : Bool := false
  sav : Bool := false
  halyard : Bool := false
  deriving DecidableEq, Repr

/-- A pair record (R270) with the rotation in progress (R277): `clearing` while the old key waits for its last invocation,
`halyard` while the edge runs under its halyard key (R280), `waiters` the commands, with
their DETAIL, that ask for the next rotation, `serving` those that the rotation in progress completes. -/
structure Pair where
  slice : Nat := 0
  peer : Nat := 0
  rx : Bool := false
  valid : Bool := false
  next : Bool := false
  kph : Bool := false
  used : Nat := 0
  ports : Nat := 0
  epoch : Nat := 0
  halyard : Bool := false
  clearing : Bool := false
  rotateAsked : Bool := false
  lastSwitch : Option Nat := none
  waiters : List (CmdKey × Nat) := []
  serving : List (CmdKey × Nat) := []
  deriving DecidableEq, Repr

/-- An open transmit group (R262). -/
structure TxGroup where
  stream : Nat
  packets : Nat
  payload : Bytes
  descs : Bytes
  startedAt : Nat
  deriving DecidableEq, Repr

/-- A received group without a tag result (R285): `seq` is its place in acceptance order on its port and slice since the slice last
entered KEYED, 0 when it was accepted before, `fwd` says that its payload has begun to be forwarded, `verified` that it has verified
behind an earlier group that has not. -/
structure RxGroup where
  port : Nat
  slice : Nat
  stream : Nat
  seq : Nat
  epoch : Nat
  halyard : Bool
  gsh : Bytes
  descs : Bytes
  cipher : Bytes
  fwd : Bool
  verified : Bool
  at_ : Nat
  deriving DecidableEq, Repr

/-- A new-phase group that waits for NEXT or for a drain record (R278). -/
structure RxWait where
  port : Nat
  gsh : Bytes
  descs : Bytes
  cipher : Bytes
  at_ : Nat
  deriving DecidableEq, Repr

/-- One stream of a drain record: its index, CTR and WINDOW, and the counter of its rotation mark once accepted (R279). -/
structure DrainEnt where
  stream : Nat
  ctr : Nat
  window : Nat
  mark : Option Nat
  deriving DecidableEq, Repr

/-- A drain record of a port (R278). -/
structure Drain where
  port : Nat
  pair : Nat
  epoch : Nat
  halyard : Bool
  ents : List DrainEnt
  at_ : Nat
  deriving DecidableEq, Repr

/-- A TLP held at the egress gate (R286, R299): its slice (16 none), its IDE sub-stream (0 posted, 1 non-posted, 2 completion), its gate
samples, its header and its data. -/
structure Tlp where
  slice : Nat
  sub : Nat
  sample : List (List Nat)
  header : Bytes
  data : Bytes
  at_ : Nat
  deriving DecidableEq, Repr

/-- A group that closed on a GATEWAY port and waits for the gate (R286). -/
structure GwHold where
  port : Nat
  slice : Nat
  sample : List Nat
  gsh : Bytes
  descs : Bytes
  cipher : Bytes
  trailer : Bytes
  deriving DecidableEq, Repr

/-- A link port (R260, R304). -/
structure Port where
  mode : Nat := 2
  sav : Bool := false
  peak : Nat := 0
  ctr : Tbl Nat := Tbl.const 0
  deriving DecidableEq, Repr

/-- A fence mark that a receive stream has accepted (R289), with its counter and epoch there. -/
structure MarkSeen where
  slice : Nat
  stream : Nat
  word : Nat
  epoch : Nat
  ctr : Nat
  verified : Bool
  deriving DecidableEq, Repr

/-- What waits with a stalled stream: a fence mark (R303) or a message of the firmware (R281). -/
structure TxWait where
  stream : Nat
  mark : Bool
  payload : Bytes
  deriving DecidableEq, Repr

/-- A class-15 message at the firmware, whole or in part (R110, R112): its slice, whether it came in plain groups, its header and as
much of its body as has arrived. -/
structure FwMsg where
  slice : Nat
  plain : Bool
  data : Bytes
  deriving DecidableEq, Repr

/-- The IDE stream of a TDI (R298, R302, R304): key sets programmed and active, keyed 2 * (3 * direction + sub-stream) + K. Per
sub-stream sent, `txK` is the key set in use, `txCtr` the invocation counter, and `agg` the TLPs of the open invocation: how many, their
additional data and their plaintext. -/
structure Ide where
  id : Nat := 0
  secure : Bool := false
  programmed : Tbl Bool := Tbl.const false
  active : Tbl Bool := Tbl.const false
  txK : Tbl Bool := Tbl.const false
  txCtr : Tbl Nat := Tbl.const 0
  agg : Tbl (Nat × Bytes × Bytes) := Tbl.const (0, [], [])
  cause : Nat := 0
  deriving DecidableEq, Repr

/-- The link engines and the host link engine (R260-R305). `txWaits` wait with stalled streams; `inbox` are the
class-15 messages at the firmware. Slice counters are keyed 16 * slice + subindex of R304. -/
structure Link where
  streams : Tbl Stream := Tbl.const {}
  pairs : Tbl Pair := Tbl.const {}
  ports : Tbl Port := Tbl.const {}
  txOpen : Tbl (List TxGroup) := Tbl.const []
  pend : List RxGroup := []
  waits : List RxWait := []
  drains : List Drain := []
  closing : List (CmdKey × List Nat) := []
  egress : List Tlp := []
  gw : List GwHold := []
  marks : List MarkSeen := []
  txWaits : List TxWait := []
  inbox : List FwMsg := []
  ide : Tbl Ide := Tbl.const {}
  ideFails : Nat := 0
  ideAggregation : Nat := 1
  sliceCtr : Tbl Nat := Tbl.const 0
  rotateAt : Nat := 0x1000000000
  flushNs : Nat := 64
  classMap : Tbl Nat := Tbl.const 0xFF
  deriving DecidableEq, Repr

/-- A sheaf context (R314-R319): 0 free, 1 open, 2 ending. Participants are (region, tag, base line). -/
structure SheafCtx where
  state : Nat := 0
  id : Nat := 0
  slice : Nat := 0
  slot : Nat := 0
  parts : List (Nat × Nat × Nat) := []
  lines : Nat := 0
  importLines : Nat := 0
  expected : Nat := 0
  partials : Tbl Nat := Tbl.const 0
  bound : Option (BitVec 128) := none
  ending : Option CmdKey := none
  endBva : Nat := 0
  deriving DecidableEq, Repr

/-- The sheaf unit (R306-R327): `opened` lists the identifiers opened in the current attempt. -/
structure Sheaf where
  ctxs : Tbl SheafCtx := Tbl.const {}
  opened : Tbl (List Nat) := Tbl.const []
  linesTotal : Tbl Nat := Tbl.const 0
  issued : Tbl Nat := Tbl.const 0
  combinesRefused : Tbl Nat := Tbl.const 0
  deriving DecidableEq, Repr

end Sys2Proof.Machine
end

