-- ==== Sys2Proof/Machine/PartsDom.lean ====
section
/-!
DEFINITION. Plain data of the domain protocol, the SPDM responder and the certificate cache (R97-R139).
-/
namespace Sys2Proof.Machine

/-- A member below this one in roll-call and halyard (R114-R128): a tree child or an adoptee. `state` is 0 challenged,
1 answered, 2 excepted. `ack` is 0 no key sent, 1 sent, 2 acknowledged, 3 failed; `resent` after one resend (R128); `failed` are
the failure entries of its acknowledgement. -/
structure Child where
  member : Nat
  adopted : Bool
  state : Nat
  evidence : BitVec 384
  aggregate : BitVec 384
  entries : Bytes
  exceptions : Bytes
  slot : Option Nat
  deadline : Nat
  ack : Nat
  resent : Bool
  keyed : Nat
  failed : Bytes
  deriving DecidableEq, Repr

/-- A class-15 message that was sent, kept so that RESEND can name it (R111). -/
structure SentMsg where
  dest : Nat
  type : Nat
  seq : Nat
  body : Bytes
  deriving DecidableEq, Repr

/-- A challenge that an unarmed slice holds (R108). -/
structure HeldChallenge where
  header : DomHdr
  policy : Bytes
  listDigest : BitVec 384
  nonce : Bytes
  evidence : Bytes
  certs : List Bytes
  at_ : Nat
  deriving DecidableEq, Repr

/-- The domain record of a slice and its formation in progress (R101-R138): 0 IDLE, 1 FORMING, 2 KEYED, 3 LIVE,
4 ABORTING. `roll` is 0 not begun, 1 in roll-call, 2 roll-call resolved, 3 keys being distributed. `tmo` are the formation
timeouts in force, in the order of 0x3830 (R138); `joined` the greatest ATTEMPT joined for each DOMAIN_ID (R104). -/
structure Dom where
  state : Nat := 0
  id : Nat := 0
  attempt : Nat := 0
  member : Nat := 0
  masthead : Nat := 0
  count : Nat := 0
  included : Nat := 0
  fenceMs : Nat := 30000
  rereqMs : Nat := 2
  abortCause : Nat := 0
  abortOrigin : Nat := 0
  abortCount : Nat := 0
  evidence : Bytes := []
  digestTable : Bytes := []
  roll : Nat := 0
  list : Bytes := []
  policy : Bytes := []
  nonce : Bytes := []
  ownEvidence : Bytes := []
  parent : Option Nat := none
  parentSlot : Option Nat := none
  children : List Child := []
  exceptions : Bytes := []
  seqIn : Tbl Nat := Tbl.const 0
  seqOut : Tbl Nat := Tbl.const 0
  sent : List SentMsg := []
  held : Option HeldChallenge := none
  relayed : Bool := false
  formKey : Option CmdKey := none
  releaseKey : Option CmdKey := none
  formedAt : Option Nat := none
  provable : Bool := false
  drk : Option Nat := none
  erk : Option Nat := none
  ssk : Option Nat := none
  dlk : Option Nat := none
  rmk : Option Nat := none
  drkId : BitVec 128 := 0
  flags : Nat := 0
  joined : List (Nat × Nat) := []
  tmo : List Nat := []
  deriving DecidableEq, Repr

/-- An SPDM session (R97-R99). `phase` 0 free, 1 handshake, 2 established. `transport` 0 DOE, 1 MCTP; `slice` 16 when the
requester is bound to no TDI. -/
structure Session where
  phase : Nat := 0
  transport : Nat := 0
  slice : Nat := 16
  heartbeat : Nat := 0
  update : Nat := 0
  deriving DecidableEq, Repr

/-- An SPDM connection of one transport (R98): 0 none, 1 version, 2 capabilities, 3 algorithms negotiated, `selected` with
secp384r1 and AES-256-GCM; the large request and large response in transfer. -/
structure SpdmConn where
  phase : Nat := 0
  version : Nat := 0
  large : Bytes := []
  chunk : Nat := 0
  out : Bytes := []
  outAt : Nat := 0
  selected : Bool := false
  deriving DecidableEq, Repr

/-- Identity, attestation and formation (R97-R139). -/
structure Domain where
  doms : Tbl Dom := Tbl.const {}
  sessions : Tbl Session := Tbl.const {}
  conns : Tbl SpdmConn := Tbl.const {}
  heartbeatS : Nat := 0
  certCache : List Bytes := []
  certHits : Nat := 0
  rollBaseMs : Nat := 3
  rollLevelMs : Nat := 8
  rollCallMs : Nat := 200
  ackBaseUs : Nat := 500
  releaseMs : Nat := 10000
  formationMs : Nat := 60000
  deriving DecidableEq, Repr

end Sys2Proof.Machine
end

