-- ==== Sys2Proof/Machine/State.lean ====
section
/-!
DEFINITION. The state of the block as plain data, the reasons a step can stop, and the state right after reset.
-/
namespace Sys2Proof.Machine

/-- What leaves the block: the model's own trace of its outputs (log 1), oldest last. -/
inductive OutMsg where
  /-- CLAIM's value, as read by a pair (R469) -/
  | claim (pair : Bool) (value : Nat)
  /-- an MSI-X message (R355) -/
  | msix (vector : Nat)
  /-- an event record written to a ring's slot with PHASE and LOST (R352) -/
  | event (ring : Nat) (slot : Nat) (record : EvRec) (phase lost : Bool)
  /-- a block-DMA write of a command: slice, address, data -/
  | dma (slice : Nat) (bva : Nat) (data : Bytes)
  /-- an I3C in-band interrupt with its mandatory data byte (R489, R491) -/
  | ibi (mdb : Nat)
  /-- a trace record on the crow's nest (R547) -/
  | lane (r : TraceRec)
  /-- the status of a dictionary access outside a transfer message (R450) -/
  | dictStatus (who : Principal) (code : Nat)
  /-- an admitted block-DMA access as the engine or the HLE receives it: requester, slice, output address, write (R386) -/
  | access (requester slice oa : Nat) (write : Bool)
  /-- the sentinel made a unit discard its work in flight and replay it under the same inputs (R22, R562) -/
  | replay (unit : Nat)
  /-- a read's outcome at the host: plaintext, or 128 bytes of ones with POISON (R172) -/
  | readData (engine ln : Nat) (data : Line)
  | readPoison (engine ln : Nat)
  /-- an event that a rule raises to the tray controller, whose carrier the manual does not give (R243, log 76) -/
  | tray (code detail : Nat)
  /-- what an engine asks of its stack: a read, a write of ciphertext and line tag, an erasure, a release (R153, R161, R167) -/
  | stackRead (engine ln : Nat)
  | stackWrite (engine ln : Nat) (cipher : Line) (tag : BitVec 56)
  | erase (engine handle e1 e2 : Nat)
  | release (engine handle : Nat)
  /-- the interlock's answers: a grant, or a denial with its reason (R239) -/
  | sweepGnt (stack : Nat)
  | sweepDeny (stack reason : Nat)
  /-- a dictionary reply that has reached the member it answers (R455) -/
  | firmware (slice : Nat) (payload : Bytes)
  /-- a packet group and its trailer put on a fabric port (R263, R266) -/
  | group (port : Nat) (gsh descs payload trailer : Bytes)
  /-- received payload forwarded into the host under a slice's REQ_ID (R272) -/
  | forward (port slice : Nat) (descs payload : Bytes)
  /-- a host packet refused at the fairlead (R261) -/
  | packetRefused (port : Nat)
  /-- a TLP sent on the host link without IDE (R299) -/
  | tlp (slice : Nat) (header data : Bytes)
  /-- a TLP sent under IDE: sub-stream, K bit, the header in clear, the octets encrypted, and the MAC of the invocation that it ends
  (R298) -/
  | ideTlp (slice sub : Nat) (k : Bool) (header cipher : Bytes) (mac : Option (BitVec 96))
  /-- a TLP received from the host link and passed on (R298) -/
  | tlpIn (slice : Nat) (data : Bytes)
  /-- a response of the SPDM, IDE_KM, TDISP or MCTP responder: transport, code, body (R98, R298, R300, R451) -/
  | response (transport code : Nat) (body : Bytes)
  /-- the status of a key-work request of the firmware, the ATU or a link engine, and its data for a buffer (R69, R70) -/
  | kwe (who status : Nat) (data : Bytes)
  /-- a dictionary response on a path (R449) -/
  | dictResponse (path tag status : Nat) (body : Bytes)
  /-- a debug module's answer (R526) -/
  | dmi (value : Nat)
  deriving DecidableEq, Repr

/-- The state of the block. -/
structure State where
  clk : Timers := {}
  rcv : Rcv := {}
  icu : Icu := {}
  obs : Obs := {}
  sen : Sen := {}
  tamperIn : Tbl TamperIn := Tbl.const {}
  cex : Cex := {}
  xlt : Xlt := {}
  srg : Srg := {}
  ods : Ods := {}
  vault : Vault := {}
  kst : Tbl Slot := Tbl.const {}
  engKeys : List EngKey := []
  kwe : Kwe := {}
  pke : Tbl PkeEntry := Tbl.const {}
  ent : Ent := {}
  atu : Atu := {}
  lcc : Lcc := {}
  mem : Mem := {}
  link : Link := {}
  sheaf : Sheaf := {}
  dom : Domain := {}
  pins : Pins := {}
  boot : Boot := {}
  /-- TDI state of each slice: 0 CONFIG_UNLOCKED, 1 CONFIG_LOCKED, 2 RUN, 3 ERROR (R301) -/
  tdi : Tbl Nat := Tbl.const 0
  ac : Tbl Nat := Tbl.const 0
  vt : Tbl Nat := Tbl.const 0
  /-- the model's own fields: the counter that free values are drawn at, the outputs, the waiting commands -/
  free : Nat := 0
  out : List OutMsg := []
  pending : List Instr := []
  deriving DecidableEq, Repr

/-- Why a step could stop with a fault. No meaning of this model raises one: every command of the table has an effect, and
a refusal of the hardware is a status, not a stop. -/
inductive Fault where
  /-- raised by no meaning; safe -/
  | unreachable
  deriving DecidableEq, Repr

/-- Why a step could be refused. -/
inductive Refusal where
  /-- a command that has no meaning yet, by its mnemonic; safe -/
  | notModelled (mnemonic : String)
  deriving DecidableEq, Repr

/-- The state right after reset: the block before any supply has ramped, every field at its reset value. The MSI-X vector of an
event ring is its number (R362). -/
def State.reset : State :=
  { cex := { rings := (List.range 17).foldl (fun t r => t.set r { vector := r }) (Tbl.const {}) } }

end Sys2Proof.Machine
end

