-- ==== Sys2Proof/Machine/Ops.lean ====
section
/-!
DEFINITION. The operations that the meanings share: time, free values and outputs; counters and trace (R534-R547); interrupt
sources (R468-R474); the error log (R496-R498); event records (R352-R355); in-flight commands, their readiness, their
completion and their faults (R335-R341, R356-R360).
-/
namespace Sys2Proof.Machine

/-- The compute die's local timer in ns (R557). -/
def State.now (s : State) : Nat := s.clk.compute

/-- The local timer of I/O die 0, where the HLE lies, and of the die of a fabric port (R11, R260, R557). -/
def State.io0Now (s : State) : Nat := s.clk.io0
def State.leNow (s : State) (port : Nat) : Nat := if port < 9 then s.clk.io0 else s.clk.io1

/-- Add an output. -/
def State.emit (s : State) (m : OutMsg) : State := { s with out := s.out ++ [m] }

/-- Draw a free value of a width (log 3). -/
def State.draw (s : State) (w : Nat) : BitVec w := Config.free w s.free

/-- Move the free-value counter past a draw. -/
def State.drew (s : State) : State := { s with free := s.free + 1 }

/-! ### Counters and trace -/

/-- Add to an always-on counter; VALUE saturates at 2^56 - 1 (R534, R535). -/
def obsAdd (i n : Nat) (s : State) : State :=
  let c := s.obs.counters.get i
  { s with obs := { s.obs with counters := s.obs.counters.set i (c.1, min (c.2 + n) (2 ^ 56 - 1)) } }

/-- Is the TRACE scope open (R519, R540)? -/
def traceOpen (s : State) : Bool := bit s.lcc.scopes 2

/-- The key of an interrupt source: sources 0-63 are banked per pair (R464). -/
def srcKey (pair : Bool) (n : Nat) : Nat := if n < 64 then b2n pair * 64 + n else n + 64

/-- The source of level trigger (R465). -/
def isLevel (n : Nat) : Bool := 64 ≤ n

/-- The source number of a key. -/
def keySrc (k : Nat) : Nat := if k < 128 then k % 64 else k - 64

/-- The pair that a keyed source is routed to (R464, R467). -/
def keyPair (k : Nat) (c : IcuSrc) : Bool := if k < 128 then decide (64 ≤ k) else c.target

/-- Is a source pending (R468)? -/
def srcPending (n : Nat) (c : IcuSrc) : Bool := if isLevel n then (c.input && !c.active) || c.latch else c.pending

/-- Running priority of a pair: the top of its stack, or 0x10 (R466). -/
def rpr (p : IcuPair) : Nat := match p.stack with | [] => 16 | t :: _ => t.1

/-- Is a keyed source eligible for a pair (R468)? `window` marks a masked source in delivery that may be claimed once (R473). -/
def eligible (pair : Bool) (p : IcuPair) (k : Nat) (c : IcuSrc) : Bool :=
  keyPair k c == pair && srcPending (keySrc k) c && (!c.masked || c.window) && decide (c.priority.toNat < rpr p) && decide (c.priority.toNat < p.pmr)

/-- The better of two candidates: lowest priority value, then lowest source number (R469). -/
def better (a b : Nat × Nat) : Nat × Nat :=
  if b.1 < a.1 || (b.1 == a.1 && b.2 < a.2) then b else a

/-- The source that a claim of the pair would select, as (priority, number) (R469). -/
def bestSource (pair : Bool) (s : State) : Option (Nat × Nat) :=
  let p := s.icu.pairs.get (b2n pair)
  let c := (s.icu.src.ents.filter (fun e => eligible pair p e.1 e.2)).map (fun e => (e.2.priority.toNat, keySrc e.1))
  match c with
  | [] => none
  | x :: xs => some (xs.foldl better x)

/-- Is the pair idle: both cores in WFI and no source active on it (R472)? -/
def pairIdle (p : IcuPair) : Bool := p.wfi && p.stack.isEmpty

/-- Does moderation let the pair's input rise for the eligible sources it has (R472)? -/
def moderated (pair : Bool) (s : State) : Bool :=
  let p := s.icu.pairs.get (b2n pair)
  let es := s.icu.src.ents.filter (fun e => eligible pair p e.1 e.2)
  let mods := es.filter (fun e => e.2.modEn)
  p.modOff || es.any (fun e => !e.2.modEn) || decide (p.modCount ≤ mods.length) ||
    mods.any (fun e => match e.2.eligSince with | some t => decide (t + p.modNs ≤ s.now) | none => false)

/-- Recompute the eligibility times and the external interrupt input of a pair (R468, R472). -/
def icuUpdate (pair : Bool) (s : State) : State :=
  let p := s.icu.pairs.get (b2n pair)
  let src := s.icu.src.mapEnts (fun k c =>
    if keyPair k c == pair then
      (if c.modEn && eligible pair p k c then { c with eligSince := some (c.eligSince.getD s.now) }
       else { c with eligSince := none })
    else c)
  let s := { s with icu := { s.icu with src := src } }
  let any := (bestSource pair s).isSome
  let norm := any && moderated pair s
  let line := any && (norm || pairIdle p)
  let byp := line && !norm && !p.line
  let p := { p with line := line, modBypasses := p.modBypasses + b2n byp }
  { s with icu := { s.icu with pairs := s.icu.pairs.set (b2n pair) p } }

/-- Recompute both pairs. -/
def icuUpdateBoth (s : State) : State := icuUpdate true (icuUpdate false s)

/-! ### Trace records -/

/-- The PAYLOAD of a SYNC record (R541). -/
def syncPayload (s : State) : Nat :=
  s.lcc.state + s.lcc.scopes * 2 ^ 8 + b2n (s.clk.onOsc.get 0) * 2 ^ 16 + (s.rcv.resetCounts.get 3 % 2 ^ 32) * 2 ^ 32

/-- A record is stored in its slot, and sent on the crow's nest when the lanes are enabled (R544, R547). -/
def traceStore (r : TraceRec) (s : State) : State :=
  let o := s.obs
  let win := o.state == 2
  let r := if win then { r with flags := setBit r.flags 4 } else r
  let s := { s with obs := { o with
    buffer := o.buffer.set o.writeIndex (some r), stored := min (o.stored + 1) 8191,
    writeIndex := if o.mode == 0 then min (o.writeIndex + 1) 8191 else (o.writeIndex + 1) % 8191,
    windowLeft := if win then o.windowLeft - 1 else o.windowLeft } }
  let s := obsAdd 91 1 s
  if s.obs.lanes then s.emit (.lane r) else s

/-- A record generated after capture has stopped goes into the GAP record of slot 8,191 (R544). -/
def traceDrop (seq : Nat) (s : State) : State :=
  let o := s.obs
  let s := obsAdd 92 1 s
  let s := if o.gapDropped == 0 then obsAdd 93 1 s else s
  let n := o.gapDropped + 1
  let t := if o.gapDropped == 0 then s.now else o.gapTime
  let gap : TraceRec := { type := 3, flags := 0, seq := seq, timestamp := s.now, payload := n % 2 ^ 32, payload2 := t }
  { s with obs := { s.obs with gapDropped := n, gapTime := t, buffer := s.obs.buffer.set 8191 (some gap) } }

/-- Set an ICU source's input or pending state as an assertion does (R468, R474), without the trace comparators. -/
def icuRaise (pair : Bool) (n : Nat) (s : State) : State :=
  let k := srcKey pair n
  let c := s.icu.src.get k
  let rising := if isLevel n then !c.input else true
  let cnt := if c.stormEn && n != 24 && rising then c.stormCount + 1 else c.stormCount
  let storm := c.stormEn && n != 24 && rising && decide (cnt = c.stormLimit)
  let c := if isLevel n then { c with input := true } else { c with pending := true }
  let c := { c with stormCount := cnt, masked := c.masked || storm, storm := c.storm || storm }
  { s with icu := { s.icu with src := s.icu.src.set k c, storms := s.icu.storms + b2n storm } }

/-- One trace record is generated (R541, R543, R544). -/
def traceOne (type flags payload payload2 : Nat) (s : State) : State :=
  let o := s.obs
  let seq := o.seq
  if o.state == 0 || !traceOpen s then s
  else if o.state == 3 then traceDrop seq { s with obs := { o with seq := seq + 1 } }
  else
    let r : TraceRec := { type, flags, seq, timestamp := s.now, payload, payload2 }
    let s := traceStore r { s with obs := { o with seq := seq + 1, sinceSync := if type == 4 then 0 else o.sinceSync + 1 } }
    let stop := (s.obs.mode == 0 && s.obs.stored == 8191) || (s.obs.state == 2 && s.obs.windowLeft == 0)
    if stop then icuUpdateBoth (icuRaise false 369 { s with obs := { s.obs with state := 3 } }) else s

/-- A record, followed by the SYNC record that falls due (R543). -/
def traceRec (type flags payload payload2 : Nat) (s : State) : State :=
  let s := traceOne type flags payload payload2 s
  if s.obs.sinceSync == s.obs.syncInterval && (s.obs.state == 1 || s.obs.state == 2) then traceOne 4 0 (syncPayload s) 0 s else s

/-- A trigger fires: its record, the fixed window in WINDOW mode, source 368; once that window is complete it only counts (R545, R546). -/
def traceFire (id value : Nat) (pair : Bool) (s : State) : State :=
  if s.obs.state == 0 || !traceOpen s || s.obs.fired.get id then s
  else
    let s := obsAdd 94 1 { s with obs := { s.obs with fired := s.obs.fired.set id true } }
    let o := s.obs
    let first := o.mode == 2 && o.state == 1
    let held := min o.pre o.stored
    let s := if first then
        { s with obs := { o with
            state := 2, trigIndex := o.writeIndex, trigSeq := o.seq, windowLeft := 8191 - held,
            buffer := (rangeFrom 0 held).foldl (fun b i =>
              b.upd ((o.writeIndex + 8191 - 1 - i) % 8191) (fun r => r.map (fun r => { r with flags := setBit r.flags 4 }))) o.buffer } }
      else s
    if o.state == 3 && o.mode == 2 then s else icuUpdateBoth (icuRaise false 368 (traceRec 2 (b2n pair) id value s))

/-- The comparators of one KIND look at an event (R546): the first PAIR bits that the comparator names must include it. -/
def traceWatch (kind : Nat) (pair : Bool) (value : Nat) (s : State) : State :=
  (rangeFrom 0 4).foldl (fun s i =>
    let c := s.obs.trig.get i
    if c.kind == kind && (if kind == 2 then c.value % 1024 else c.value) == value && (kind == 4 || bit c.pairs (b2n pair)) then traceFire i value pair s else s) s

/-- A hardware assertion of a source: comparators, pending, storm notice and the pair's input (R468, R474, R546).
The storm rule's report to the error log is added by `icuAssert`. -/
def icuAssertRaw (pair : Bool) (n : Nat) (s : State) : State :=
  let p := keyPair (srcKey pair n) (s.icu.src.get (srcKey pair n))
  icuUpdateBoth (icuRaise pair n (traceWatch 2 p n s))

/-! ### The error log (R495-R498) -/

/-- Severity of each error class, 0 information, 1 error, 2 fatal (R498). -/
def classSeverity (c : Nat) : Nat :=
  if c ∈ [0x07, 0x08, 0x0B, 0x0E, 0x14, 0x19, 0x22] then 2
  else if c ∈ [0x0C, 0x0F, 0x10, 0x12, 0x16, 0x1A, 0x1F, 0x21] then 0 else 1

/-- Unconsumed records of the log (R496). -/
def unconsumed (r : Rcv) : Nat := (r.produced + 2 ^ 32 - r.consumed) % 2 ^ 32

/-- Does a report match the newest unconsumed record within the coalescing time (R496)? -/
def coalesces (t cls unit key : Nat) (r : Rcv) : Bool :=
  unconsumed r != 0 &&
  match r.log.get ((r.produced + 2 ^ 32 - 1) % 256) with
  | some n => n.cls == cls && n.unit == unit && n.key == key && decide (t ≤ n.timestamp + r.coalesceUs * 1000)
  | none => false

/-- The recovery sequencer takes an error report (R496, R497); answers the sources that become pending. -/
def logUpdate (x : LogRec) (r : Rcv) : Rcv × List Nat :=
  let cap1 := decide (1 ≤ x.severity) && r.firstError.isNone
  let cap2 := x.severity == 2 && r.firstFatal.isNone
  let r := { r with
    classCount := r.classCount.upd x.cls (· + 1),
    firstError := if cap1 then some x else r.firstError,
    firstFatal := if cap2 then some x else r.firstFatal }
  let src := if cap1 || cap2 then [434] else []
  if coalesces x.timestamp x.cls x.unit x.key r then
    let i := (r.produced + 2 ^ 32 - 1) % 256
    ({ r with log := r.log.upd i (fun o => o.map (fun n => { n with rpt := n.rpt + 1, coalesced := true })) }, src)
  else if 256 ≤ unconsumed r then
    ({ r with overflow := true, dropped := r.dropped + 1 }, src)
  else
    let r := { r with log := r.log.set (r.produced % 256) (some x), produced := (r.produced + 1) % 2 ^ 32 }
    (r, if unconsumed r == r.threshold then src ++ [433] else src)

/-- The local timer of a unit (R11, R495, R557): a link engine's and the host link engine's that of their die, the vault's its own. -/
def State.unitNow (s : State) (unit : Nat) : Nat :=
  if unit = 4 then s.clk.vault else if decide (23 ≤ unit) && decide (unit ≤ 40) then s.leNow (unit - 23) else if unit = 41 then s.io0Now else s.now

/-- A unit reports an error of a class: counted, captured, written, coalesced or dropped (R496-R498). -/
def logError (cls unit slice region key detail : Nat) (s : State) : State :=
  let x : LogRec := { timestamp := s.unitNow unit, cls, severity := classSeverity cls, unit, slice, coalesced := false, region, key, detail, rpt := 0 }
  let r := logUpdate x s.rcv
  let s := obsAdd (45 + cls) 1 { s with rcv := r.1 }
  r.2.foldl (fun s n => icuAssertRaw false n s) s

/-- A hardware assertion of a source, with the storm rule's notice and report (R474). -/
def icuAssert (pair : Bool) (n : Nat) (s : State) : State :=
  let before := (s.icu.src.get (srcKey pair n)).storm
  let s := icuAssertRaw pair n s
  let c := s.icu.src.get (srcKey pair n)
  if c.storm && !before then
    let p := keyPair (srcKey pair n) c
    logError 0x18 46 0xFF 0 n c.stormCount (icuAssertRaw p 24 s)
  else s

/-- A shared source is made pending. -/
def pend (n : Nat) (s : State) : State := icuAssert false n s

/-- A source's input falls. -/
def icuFall (n : Nat) (s : State) : State :=
  let k := srcKey false n
  let c := s.icu.src.get k
  if c.input then icuUpdateBoth { s with icu := { s.icu with src := s.icu.src.set k { c with input := false } } } else s

/-! ### Event records (R352-R355) -/

/-- Urgent kinds (R353). -/
def urgent (kind : Nat) : Bool := kind ∈ [2, 3, 4, 0x0A]

/-- Append a record to a ring's waiting records. -/
def queueRecord (ring : Nat) (w : EvWait) (s : State) : State :=
  { s with cex := { s.cex with rings := s.cex.rings.upd ring (fun r => { r with waiting := r.waiting ++ [w] }) } }

/-- The slices among some rings: those whose records a record is (R286). -/
def slicesOf (rings : List Nat) : List Nat := rings.filter (fun r => decide (r < 16))

/-- Raise an event record of some slices to one ring; every kind but COMPLETION is signalling (R355). -/
def raise1 (slices : List Nat) (ring kind code : Nat) (detail : Nat) (cookie : BitVec 64) (ctx queue : Nat) (s : State) : State :=
  queueRecord ring { record := { cookie, timestamp := s.now, detail := BitVec.ofNat 64 detail, context := ctx, status := code, queue, kind },
                     signal := true, fwd := none, key := none, slices, sample := none } s

/-- Raise an event record without a command to several rings, each once (R353). -/
def raise (rings : List Nat) (kind code detail : Nat) (s : State) : State :=
  rings.eraseDups.foldl (fun s r => raise1 (slicesOf rings.eraseDups) r kind code detail 0 0 0xFF s) s

/-! ### In-flight commands -/

/-- Fields of a fetched command (R333, R364). -/
def rawField (raw : BitVec 512) (off n : Nat) : Nat := (raw.toNat / 2 ^ (8 * off)) % 2 ^ (8 * n)
def rawOpcode (raw : BitVec 512) : Nat := rawField raw 0 2
def rawFlags (raw : BitVec 512) : Nat := rawField raw 2 2
def rawCtx (raw : BitVec 512) : Nat := rawField raw 4 2
def rawCond (raw : BitVec 512) : Nat := rawField raw 6 2
def rawDep (raw : BitVec 512) (i : Nat) : Nat := rawField raw (8 + 2 * i) 2
def rawCookie (raw : BitVec 512) : BitVec 64 := BitVec.ofNat 64 (rawField raw 0x10 8)
def rawSlice (raw : BitVec 512) : Nat := rawField raw 0x3F 1 % 16

/-- The queue of a command. -/
def State.q (s : State) (k : CmdKey) : Queue := s.cex.queues.get k.queue.toNat

/-- Change a queue. -/
def updQ (q : Nat) (f : Queue → Queue) (s : State) : State :=
  { s with cex := { s.cex with queues := s.cex.queues.upd q f } }

/-- The in-flight entry of a command. -/
def State.flight (s : State) (k : CmdKey) : Option Flight := (s.q k).flights.find? (fun f => f.key == k)

/-- Change the in-flight entry of a command. -/
def updFlight (k : CmdKey) (f : Flight → Flight) (s : State) : State :=
  updQ k.queue.toNat (fun q => { q with flights := mapIf (fun x => x.key == k) f q.flights }) s

/-- The command's engine finishes it with a status and a DETAIL; a kill or timeout status it carries wins (R487). -/
def finish (k : CmdKey) (status : Nat) (detail : Nat) (s : State) : State :=
  updFlight k (fun f => if f.phase == .done || f.phase == .completed then f else
    { f with phase := .done, status := f.override.getD status, detail := BitVec.ofNat 64 detail }) s

/-- The slice that accounting charges a queue's command to: the queue's owner, or the slice its context is bound to. -/
def chargedSlice (s : State) (q : Queue) (ctx : Nat) : Option Nat :=
  if q.owner < 16 then some q.owner
  else if ctx = 0 then none else (s.cex.bindings.get ctx).map (·.slice)

/-- Change a slice's record. -/
def updSlice (n : Nat) (f : SliceRec → SliceRec) (s : State) : State :=
  { s with srg := { s.srg with slices := s.srg.slices.upd n f } }

/-- A slice's record. -/
def State.slice (s : State) (n : Nat) : SliceRec := s.srg.slices.get n

/-- Change a slice's accounting. -/
def updUsage (n : Nat) (f : Usage → Usage) (s : State) : State := updSlice n (fun r => { r with usage := f r.usage }) s

/-- COMMANDS_STARTED and QUEUE_WAIT_NS of the slice charged (R423). -/
def chargeStart (k : CmdKey) (ctx wait : Nat) (s : State) : State :=
  match chargedSlice s (s.q k) ctx with
  | some n => updUsage n (fun u => { u with started := u.started + 1, queueWait := u.queueWait + wait }) s
  | none => s

/-- The statuses that do not fail a dependant (R336). -/
def okStatus (st : Nat) : Bool := st == 0 || st == 1

/-- The status of a command of the queue's history, when it has completed: `none` while it is in flight. A command that
is neither in flight nor in the history lies before the first of its ring (R335). -/
def resultOf (q : Queue) (k : CmdKey) : Option Nat :=
  match q.flights.find? (fun f => f.key == k) with
  | some f => if f.phase == .completed then some f.status else none
  | none => match q.hist.find? (fun p => p.1 == k) with
    | some p => some p.2
    | none => some 0

/-- The command that a back-offset names, in the same sequence (R335). -/
def predKey (k : CmdKey) (d : Nat) : CmdKey :=
  match k.path.reverse with
  | [] => { k with index := k.index - BitVec.ofNat 32 d }
  | (p, it) :: up => { k with path := (((p - BitVec.ofNat 16 d), it) :: up).reverse }

/-- Do two commands belong to one sequence, the first earlier (R335)? `list` order is fetch order. -/
def sameSeq (a b : CmdKey) : Bool :=
  a.queue == b.queue && a.path.length == b.path.length &&
  match a.path.reverse, b.path.reverse with
  | [], [] => true
  | (_, i) :: u, (_, j) :: v => a.index == b.index && i == j && u == v
  | _, _ => false

/-- The earlier commands of the same sequence that are in flight. -/
def earlier (q : Queue) (k : CmdKey) : List Flight := (q.flights.takeWhile (fun f => f.key != k)).filter (fun f => sameSeq f.key k)

/-- COND (R339). -/
def condHolds (q : Queue) (cond : Nat) : Bool :=
  let a := (q.scalars.get (bits cond 7 4)).toNat
  let b := (q.scalars.get (bits cond 3 0)).toNat
  match bits cond 15 12 with
  | 0 => true
  | 1 => a == b
  | 2 => a != b
  | 3 => decide (a < b)
  | 4 => decide (a ≤ b)
  | 5 => decide (b < a)
  | 6 => decide (b ≤ a)
  | 7 => Nat.land a b != 0
  | 8 => Nat.land a b == 0
  | _ => false

/-- What readiness says of a waiting command (R336): wait, fail, skip or ready. -/
inductive Ready where
  | wait
  | failed
  | skip
  | go
  deriving DecidableEq, Repr

/-- Readiness of a waiting command (R335, R336, R339): only in a ring is a back-offset of 256 or more satisfied. A CALL's COND is evaluated before each iteration, once the index scalar
holds the iteration (R340, log 22). -/
def readiness (q : Queue) (f : Flight) : Ready :=
  let deps := ((rangeFrom 0 4).map (rawDep f.raw)).filter (· != 0)
  let res := deps.map (fun d => if 256 ≤ d && f.key.path.isEmpty then some 0 else resultOf q (predKey f.key d))
  let barrier := bit (rawFlags f.raw) 0
  if res.any (fun r => r.isNone) then .wait
  else if barrier && (earlier q f.key).any (fun e => e.phase != .completed) then .wait
  else if res.any (fun r => match r with | some st => !okStatus st | none => false) then .failed
  else if rawOpcode f.raw == 1 || condHolds q (rawCond f.raw) then .go else .skip

/-- The commands that the firmware executes: the key-store, domain and slice commands (R465, log 19). -/
def fwExecuted (op : Nat) : Bool :=
  (decide (0x0200 ≤ op) && decide (op ≤ 0x0204)) || (decide (0x0500 ≤ op) && decide (op ≤ 0x0506)) || (decide (0x0600 ≤ op) && decide (op ≤ 0x060A))

/-- Settle one waiting command. -/
def settle1 (k : CmdKey) (s : State) : State :=
  match s.flight k with
  | none => s
  | some f =>
    if f.phase != .waiting then s
    else match readiness (s.q k) f with
      | .wait => s
      | .failed => finish k 2 0 s
      | .skip => chargeStart k (rawCtx f.raw) 0 (finish k 1 0 s)
      | .go =>
        let s := updFlight k (fun f => { f with phase := .ready, startedAt := s.now }) s
        if fwExecuted (rawOpcode f.raw) then pend (288 + k.queue.toNat) s else s

/-- Settle every waiting command of a queue, in fetch order (R336). -/
def settle (q : Nat) (s : State) : State :=
  (s.cex.queues.get q).flights.foldl (fun s f => settle1 f.key s) s

/-- The four POSITION words of the capture (R358): position in [15:0], iteration in [31:16]. -/
def positionWords (k : CmdKey) : List Nat :=
  ((k.path.map (fun (p : BitVec 16 × BitVec 32) => p.1.toNat + (p.2.toNat % 2 ^ 16) * 2 ^ 16)) ++ [0, 0, 0, 0]).take 4

/-- The capture area is written, unless it already holds an uncleared capture (R357 step 1). -/
def writeCapture (q : Nat) (c : Capture) (s : State) : State :=
  updQ q (fun x => { x with capture := some (x.capture.getD c) }) s

/-- The ring of a queue's owner (R353). -/
def ownerRing (q : Queue) : Nat := q.owner

/-- A fault on a queue (R357, R360): the capture; without COMPAT the halt, the directory bit and the FAULT records. -/
def queueFault (q : Nat) (k : Option CmdKey) (c : Capture) (s : State) : State :=
  let x := s.cex.queues.get q
  let s := obsAdd 84 1 (writeCapture q c (updQ q (fun x => { x with faultCount := x.faultCount + 1 }) s))
  if x.compat then
    (match k with
     | some k => finish k 3 0 s
     | none => s)
  else
    let s := updQ q (fun x => { x with halted := true, state := 2 }) s
    let s := match k with
      | some k => updFlight k (fun f => { f with phase := .faulted }) s
      | none => s
    let s := { s with rcv := { s.rcv with faultDir := setBit s.rcv.faultDir q } }
    let s := raise1 (slicesOf [x.owner]) (ownerRing x) 2 0x8003 c.cause c.cookie c.context q s
    if x.owner = 16 then s else raise1 (slicesOf [x.owner]) 16 2 0x8003 c.cause c.cookie c.context q s

/-- The capture of a command's fault. -/
def captureOf (k : CmdKey) (raw : BitVec 512) (cause bva pasid detail t : Nat) : Capture :=
  { cause, opcode := rawOpcode raw, context := rawCtx raw, depth := k.path.length, ringIndex := k.index.toNat,
    position := positionWords k, bva, pasid, xltDetail := detail, timestamp := t, cookie := rawCookie raw, raw, engines := [] }

/-- A command faults with a cause number of R356. -/
def faultCommand (k : CmdKey) (cause bva pasid detail : Nat) (s : State) : State :=
  match s.flight k with
  | none => s
  | some f => queueFault k.queue.toNat (some k) (captureOf k f.raw cause bva pasid detail s.now) s

/-- The table set that a command's block DMA uses (R383). -/
def tableSet (s : State) (ctx : Nat) : Nat :=
  if ctx = 0 then 16 else match s.cex.bindings.get ctx with | some b => b.slice | none => 16

/-- Commands that read a data payload (R399): CIPHER_ENCRYPT, CIPHER_DECRYPT, PK_HASH, COPY and IMPORT. -/
def readsPayload (op : Nat) : Bool := decide (op ∈ [0x0210, 0x0211, 0x0220, 0x0700, 0x0701])

/-- A failed access of a command (R399, R403): poison in a data payload, or a dropped write, completes it with REGION_STATE; anything else is a
fault with cause TRANSLATION. -/
def xltFault (k : CmdKey) (ctx : Nat) (x : XFault) (s : State) : State :=
  let op := match s.flight k with | some f => rawOpcode f.raw | none => 0
  if x.noFault && (x.detail.getLsbD 8 || readsPayload op) then finish k 0x0036 0 s
  else
  let set := tableSet s ctx
  let s := { s with xlt := { s.xlt with faults := s.xlt.faults.upd set (· + 1), lastDetail := s.xlt.lastDetail.set set x.detail.toNat } }
  faultCommand k 1 x.bva.toNat x.pasid.toNat x.detail.toNat s

/-- The 64 bytes of a command (R333, R364): the header, the operands as (offset, size, value), and SLICE. -/
def encodeCmd (h : CmdHdr) (op : Nat) (ops : List (Nat × Nat × Nat)) : BitVec 512 :=
  BitVec.ofNat 512 (op + h.flags.toNat * 2 ^ 16 + h.ctx.toNat * 2 ^ 32 + h.cond.toNat * 2 ^ 48 + h.dep.toNat * 2 ^ 64
    + h.cookie.toNat * 2 ^ 128 + h.slice.toNat * 2 ^ (8 * 0x3F)
    + (ops.map (fun o => (o.2.2 % 2 ^ (8 * o.2.1)) * 2 ^ (8 * o.1))).foldl (· + ·) 0)

/-- The slice on which a command acts (R364). -/
def hdrSlice (h : CmdHdr) : Nat := h.slice.toNat % 16

/-- A slice from whose queues nothing is fetched or started (R406, R427). -/
def fetchStopped (s : State) (owner : Nat) : Bool :=
  decide (owner < 16) && (decide ((s.slice owner).state ∈ [2, 3, 4, 5]) || (s.slice owner).freezing.isSome)

/-- Is the command in flight, ready, and the one fetched, on a queue that may start it? -/
def cmdReady (h : CmdHdr) (raw : BitVec 512) (s : State) : Bool :=
  match s.flight h.key with
  | some f => f.phase == .ready && f.raw == raw && !fetchStopped s (s.q h.key).owner
  | none => false

/-- A TARGET slice accepts only SLICE_RESTORE and SLICE_RESET (R406): does it turn a command away (log 42)? -/
def targetRefuses (s : State) (raw : BitVec 512) : Bool :=
  let op := rawOpcode raw
  (s.slice (rawSlice raw)).state == 4 && decide (0x0100 ≤ op) && !decide (op ∈ [0x0104, 0x0105, 0x0600, 0x0601, 0x0604]) &&
    !(op == 0x0100 && rawField raw 0x1A 1 % 4 == 3)

/-- The command starts (R336): it runs, and its slice is charged (R423). -/
def startCmd (k : CmdKey) (ctx : Nat) (s : State) : State :=
  let wait := match s.flight k with | some f => s.now - f.startedAt | none => 0
  chargeStart k ctx wait (updFlight k (fun f => { f with phase := .running, startedAt := s.now }) s)

/-- A command event: the executor starts the command and `body` is its effect. An event for a command that is not in
flight, not ready or not the one fetched names nothing the executor could start, and changes nothing (log 4). -/
def cexRun (h : CmdHdr) (op : Nat) (ops : List (Nat × Nat × Nat)) (s : State) (body : State → State) : State :=
  let raw := encodeCmd h op ops
  if cmdReady h raw s then
    let s := startCmd h.key h.ctx.toNat s
    if targetRefuses s raw then finish h.key 0x0016 0 s else body s
  else s

/-- As `cexRun`, for a command whose block DMA may fault before any effect (R399, R400). -/
def cexRunX (h : CmdHdr) (op : Nat) (ops : List (Nat × Nat × Nat)) (x : Option XFault) (s : State) (body : State → State) : State :=
  cexRun h op ops s (fun s => match x with
    | some f => xltFault h.key h.ctx.toNat f s
    | none => body s)

/-- The answer to a dictionary access that came outside a transfer message (R450): its status, and the refusal count. -/
def dictAnswer (who : Principal) (r : State × Nat) : State :=
  let s := { r.1 with ods := { r.1.ods with requests := r.1.ods.requests + 1, refused := r.1.ods.refused + b2n (r.2 != 0) } }
  s.emit (.dictStatus who r.2)

/-- May the principal use an access code list in the order TRAY, HOSTK, COORD, DBG, FW, SLICE (R442)? -/
def principalIx : Principal → Nat
  | .tray => 0
  | .hostk => 1
  | .coord => 2
  | .dbg => 3
  | .fw => 4
  | .slice _ => 5

/-- Is dictionary access by DBG open (R443, R519)? -/
def dbgOpen (s : State) : Bool := bit s.lcc.scopes 0

/-- A principal's path is accepted (R443) and is among those that the entry lists. -/
def mayWrite (who : Principal) (allowed : List Nat) (s : State) : Bool :=
  decide (principalIx who ∈ allowed) && (who != .dbg || dbgOpen s)

/-- A write of an entry by its own command: refused UNAVAILABLE while the firmware that serves it is not running
(unless `early`), ACCESS_DENIED when the principal may not write it (R450 checks 3 and 5), else the effect. -/
def dictWrite (who : Principal) (early : Bool) (allowed : List Nat) (s : State) (f : State → State × Nat) : State :=
  dictAnswer who
    (if !early && !s.rcv.fwRunning then (s, 0xA9)
     else if early && !s.lcc.decoded then (s, 0xA9)
     else if !mayWrite who allowed s then (s, 0xA1)
     else f s)

/-! ### Gates and rungs -/

/-- The gate counters of a port and a slice are held under one key (R285). -/
def gateKey (port slice : Nat) : Nat := port * 16 + slice

/-- Sample the gate of a slice: AC on the 18 ports (R285). -/
def gateSample (s : State) (slice : Nat) : List Nat := (List.range 18).map (fun p => s.ac.get (gateKey p slice))

/-- Is the gate open, for a sample taken earlier (R285)? -/
def gateOpen (s : State) (slice : Nat) (sample : List Nat) : Bool :=
  sample.zipIdx.all (fun p => decide (p.1 ≤ s.vt.get (gateKey p.2 slice)))

/-- A rung of the reset ladder is counted and logged (R483, R498 RESET): 0 context, 1 engine, 2 partition, 3 chip,
4 power cycle (the numbers are the model's, log 8). -/
def logRung (rung unit slice : Nat) (s : State) : State :=
  logError 0x1F unit slice 0 0 rung { s with rcv := { s.rcv with resetCounts := s.rcv.resetCounts.upd rung (· + 1) } }

/-- The engine rung (R483, R484 step 2): the unit's datapath state goes, and the reset runs until ENGINE_RESET_DONE. -/
def engineRung (unit slice : Nat) (s : State) : State :=
  logRung 1 unit slice { s with rcv := { s.rcv with hist := s.rcv.hist.upd unit (fun h =>
    { h with resetting := true, engineAt := some s.now, slice := slice, killing := none }) } }

/-- Send an MSI-X message on a vector (R355): a masked vector is held pending in the PBA. -/
def msix (v : Nat) (s : State) : State :=
  if bit (s.cex.msixTable.get v).toNat 96 then { s with cex := { s.cex with msixPba := s.cex.msixPba.set v true } }
  else s.emit (.msix v)

end Sys2Proof.Machine
end

