-- ==== Sys2Proof/Machine/Operands.lean ====
section
/-!
DEFINITION. Operand forms of the commands: which opcodes exist, on which queues, with which operand bits (R364-R376), and
the checks on operands that many commands share (R366).
-/
namespace Sys2Proof.Machine

/-- One row of the command tables: opcode, queue class (0 USER, 1 KERNEL, 2 HOST), ring-only, immediate, and the operand
fields as (offset, size, mask of defined bits; 0 for all). -/
structure OpRow where
  op : Nat
  cls : Nat
  ring : Bool
  imm : Bool
  fields : List (Nat × Nat × Nat)

def opRowsControl : List OpRow := [
  ⟨0x0000, 0, false, false, []⟩,
  ⟨0x0001, 0, false, false, [(0x18, 8, 0), (0x20, 2, 0), (0x22, 1, 0x0F), (0x24, 4, 0)]⟩,
  ⟨0x0002, 0, false, false, [(0x18, 8, 0), (0x20, 2, 0), (0x22, 1, 0)]⟩,
  ⟨0x0003, 0, false, false, [(0x18, 8, 0), (0x22, 1, 0)]⟩,
  ⟨0x0004, 0, false, false, [(0x22, 1, 0)]⟩,
  ⟨0x0010, 0, false, false, [(0x18, 8, 0), (0x20, 1, 0)]⟩,
  ⟨0x0011, 0, false, false, [(0x18, 8, 0), (0x20, 1, 0), (0x21, 1, 0), (0x22, 1, 1)]⟩,
  ⟨0x0012, 0, false, false, [(0x18, 8, 0), (0x20, 1, 0)]⟩,
  ⟨0x0013, 0, false, false, [(0x18, 8, 0), (0x20, 1, 0)]⟩,
  ⟨0x0020, 0, false, false, [(0x18, 8, 0), (0x20, 8, 0), (0x28, 8, 0), (0x30, 4, 0), (0x34, 1, 0)]⟩,
  ⟨0x0021, 0, false, false, [(0x18, 8, 0), (0x20, 1, 0), (0x30, 4, 0)]⟩,
  ⟨0x0030, 0, false, false, [(0x18, 8, 0), (0x20, 1, 0), (0x21, 1, 1)]⟩,
  ⟨0x0031, 0, false, false, [(0x20, 1, 0)]⟩,
  ⟨0x0032, 0, false, false, [(0x18, 4, 0), (0x1C, 4, 0x80001FFF), (0x20, 4, 0)]⟩,
  ⟨0x0033, 0, false, false, []⟩, ⟨0x0034, 0, false, false, []⟩, ⟨0x0035, 0, false, false, []⟩,
  ⟨0x0036, 1, true, false, [(0x18, 8, 0), (0x20, 1, 0), (0x22, 2, 0)]⟩]

def opRowsRegion : List OpRow := [
  ⟨0x0100, 1, false, false, [(0x18, 2, 0), (0x1A, 2, 0x3F), (0x1C, 4, 0), (0x20, 5, 2 ^ 35 - 1), (0x25, 5, 2 ^ 35 - 1),
    (0x2A, 5, 2 ^ 35 - 1), (0x30, 4, 0), (0x34, 2, 0), (0x36, 2, 0), (0x38, 2, 0), (0x3A, 2, 0)]⟩,
  ⟨0x0101, 1, false, false, [(0x18, 2, 0)]⟩,
  ⟨0x0102, 1, false, false, [(0x18, 2, 0), (0x1A, 1, 0)]⟩,
  ⟨0x0103, 1, false, false, [(0x18, 2, 0), (0x1A, 1, 0)]⟩,
  ⟨0x0104, 2, true, false, [(0x18, 8, 0)]⟩,
  ⟨0x0105, 2, true, false, [(0x18, 1, 0), (0x19, 1, 1)]⟩,
  ⟨0x0110, 0, false, false, [(0x18, 2, 0), (0x20, 8, 0), (0x28, 8, 0)]⟩,
  ⟨0x0111, 0, false, false, [(0x18, 2, 0)]⟩,
  ⟨0x0112, 0, false, false, [(0x18, 2, 0)]⟩,
  ⟨0x0120, 0, false, false, [(0x18, 2, 0), (0x1C, 4, 0), (0x20, 2, 0), (0x22, 2, 0), (0x24, 2, 0)]⟩]

def opRowsKeys : List OpRow := [
  ⟨0x0200, 1, false, false, [(0x18, 2, 0), (0x1A, 2, 0), (0x1C, 1, 0), (0x1D, 1, 1), (0x1E, 2, 0), (0x20, 4, 0)]⟩,
  ⟨0x0201, 1, false, false, [(0x18, 2, 0), (0x1A, 1, 0), (0x1B, 1, 3), (0x1C, 1, 0), (0x20, 8, 0)]⟩,
  ⟨0x0202, 1, false, false, [(0x18, 2, 0), (0x1A, 2, 0), (0x1C, 1, 0), (0x20, 8, 0), (0x28, 8, 0), (0x30, 8, 0)]⟩,
  ⟨0x0203, 1, false, false, [(0x18, 2, 0), (0x1A, 2, 0), (0x1C, 1, 1), (0x20, 8, 0), (0x28, 8, 0)]⟩,
  ⟨0x0204, 1, false, false, [(0x18, 2, 0)]⟩,
  ⟨0x0210, 0, false, false, [(0x18, 2, 0), (0x1A, 2, 0), (0x1C, 2, 0), (0x20, 8, 0), (0x28, 8, 0), (0x30, 8, 0)]⟩,
  ⟨0x0211, 0, false, false, [(0x18, 2, 0), (0x1A, 2, 0), (0x1C, 2, 0), (0x20, 8, 0), (0x28, 8, 0), (0x30, 8, 0)]⟩,
  ⟨0x0220, 0, false, false, [(0x18, 8, 0), (0x20, 8, 0), (0x28, 8, 0), (0x30, 1, 0), (0x32, 2, 0)]⟩,
  ⟨0x0221, 0, false, false, [(0x18, 8, 0), (0x20, 8, 0), (0x28, 8, 0), (0x30, 4, 0), (0x34, 1, 0), (0x35, 1, 0)]⟩]

def opRowsDomain : List OpRow := [
  ⟨0x0300, 0, false, false, [(0x18, 4, 0), (0x1C, 2, 0), (0x1E, 1, 0), (0x20, 8, 0)]⟩,
  ⟨0x0301, 0, false, false, [(0x18, 4, 0), (0x20, 8, 0)]⟩,
  ⟨0x0302, 0, false, false, [(0x18, 4, 0), (0x1C, 2, 0), (0x1E, 1, 1), (0x20, 8, 0), (0x28, 2, 0), (0x30, 8, 0)]⟩,
  ⟨0x0400, 1, false, false, [(0x18, 2, 0), (0x1A, 2, 0x7FFF), (0x1C, 1, 0), (0x1D, 1, 3)]⟩,
  ⟨0x0401, 1, false, false, [(0x18, 2, 0), (0x1A, 2, 0x7FFF), (0x1D, 1, 1)]⟩,
  ⟨0x0402, 0, false, false, [(0x18, 8, 0), (0x20, 2, 0)]⟩,
  ⟨0x0500, 1, true, false, [(0x18, 8, 0), (0x20, 4, 0), (0x24, 2, 0), (0x26, 2, 0), (0x28, 2, 0), (0x30, 8, 0)]⟩,
  ⟨0x0501, 1, true, false, [(0x18, 8, 0), (0x20, 4, 0), (0x24, 2, 0)]⟩,
  ⟨0x0502, 1, true, false, [(0x18, 8, 0), (0x20, 4, 0)]⟩,
  ⟨0x0503, 1, true, false, []⟩,
  ⟨0x0504, 1, true, true, [(0x18, 4, 0)]⟩,
  ⟨0x0505, 1, true, false, []⟩,
  ⟨0x0506, 1, true, false, [(0x18, 8, 0), (0x20, 4, 0)]⟩]

def opRowsSlice : List OpRow := [
  ⟨0x0600, 2, true, false, [(0x18, 8, 0)]⟩,
  ⟨0x0601, 2, true, true, []⟩,
  ⟨0x0602, 2, true, false, []⟩,
  ⟨0x0603, 2, true, false, [(0x18, 8, 0), (0x20, 8, 0), (0x28, 8, 0)]⟩,
  ⟨0x0604, 2, true, false, [(0x18, 8, 0), (0x20, 8, 0)]⟩,
  ⟨0x0605, 2, true, false, []⟩,
  ⟨0x0606, 2, true, false, []⟩,
  ⟨0x0607, 2, true, false, [(0x18, 2, 0), (0x1C, 4, 0xFFFFF)]⟩,
  ⟨0x0608, 2, true, false, [(0x18, 2, 0)]⟩,
  ⟨0x0609, 1, true, true, [(0x18, 2, 0)]⟩,
  ⟨0x060A, 1, false, false, [(0x18, 8, 0), (0x20, 1, 1)]⟩,
  ⟨0x0700, 0, false, false, [(0x18, 8, 0), (0x20, 8, 0), (0x28, 8, 0)]⟩,
  ⟨0x0701, 0, false, false, [(0x18, 8, 0), (0x20, 8, 0), (0x28, 8, 0), (0x30, 2, 0)]⟩,
  ⟨0x0702, 0, false, false, [(0x18, 8, 0), (0x20, 8, 0), (0x28, 8, 0), (0x30, 2, 0), (0x32, 1, 0), (0x33, 1, 0), (0x34, 1, 0)]⟩,
  ⟨0x0800, 1, true, false, [(0x18, 8, 0), (0x20, 1, 0), (0x21, 1, 0), (0x24, 4, 0xFFFFF)]⟩]

/-- Every opcode (R369-R376). -/
def opTable : List OpRow := opRowsControl ++ opRowsRegion ++ opRowsKeys ++ opRowsDomain ++ opRowsSlice

/-- The row of an opcode. -/
def opRow (op : Nat) : Option OpRow := opTable.find? (fun r => r.op == op)

/-- The bits of a command that a row defines (R333, R364): the header, the operands, SLICE[3:0]. -/
def definedMask (r : OpRow) : Nat :=
  (2 ^ 16 - 1) + 0x000F * 2 ^ 16 + (2 ^ 16 - 1) * 2 ^ 32 + 0xF0FF * 2 ^ 48 + (2 ^ 128 - 1) * 2 ^ 64 + 0x0F * 2 ^ (8 * 0x3F)
    + (r.fields.map (fun f => (if f.2.2 = 0 then 2 ^ (8 * f.2.1) - 1 else f.2.2) * 2 ^ (8 * f.1))).foldl (· + ·) 0

/-- Does a command set a reserved field or bit, or a reserved COND (R15, R337, R339)? An immediate command must carry no
DEP, COND or BARRIER_ALL (R367); a command that acts on no slice carries SLICE 0 (R364). -/
def reservedSet (r : OpRow) (raw : BitVec 512) : Bool :=
  decide (Nat.land raw.toNat (definedMask r) ≠ raw.toNat) || decide (8 < bits (rawCond raw) 15 12) ||
  (r.imm && (rawField raw 8 8 != 0 || rawCond raw != 0 || bit (rawFlags raw) 0)) ||
  (decide (r.op ∈ [0x0104, 0x0105]) && rawSlice raw != 0)

/-- The queue class that a command needs, where an operand selects it (R337). -/
def neededClass (r : OpRow) (raw : BitVec 512) : Nat :=
  if r.op == 0x0100 && bits (rawField raw 0x1A 2) 1 0 == 3 then 2
  else if r.op == 0x0800 && decide (rawField raw 0x21 1 ∈ [2, 3]) then 2
  else r.cls

/-- Is the class permitted on the queue (R328, R365)? -/
def classOk (q : Queue) (need : Nat) : Bool :=
  if q.cls == 1 then need == 0 else if q.owner == 16 then true else decide (need ≤ 1)

/-- Is the context permitted on the queue, and does SLICE agree with it (R328, R364)? -/
def contextOk (s : State) (q : Queue) (raw : BitVec 512) : Bool :=
  let c := rawCtx raw
  if c == 0 then q.owner == 16
  else match s.cex.bindings.get c with
    | none => false
    | some b => b.slice == rawSlice raw && (q.owner == 16 || b.slice == q.owner) && (q.cls == 0 || c == q.context)

/-- What the fetch check finds (R337): nothing, a refusal status, or a fault cause. -/
inductive FetchCheck where
  | ok
  | refuse (status : Nat)
  | fault (cause : Nat)
  deriving DecidableEq, Repr

/-- The fetch check (R335, R337). -/
def fetchCheck (s : State) (q : Queue) (k : CmdKey) (raw : BitVec 512) : FetchCheck :=
  match opRow (rawOpcode raw) with
  | none => .fault 4
  | some r =>
    let nested := !k.path.isEmpty
    let pos := match k.path.reverse with | [] => 0 | p :: _ => p.1.toNat
    if reservedSet r raw then .refuse St.reservedField
    else if !classOk q (neededClass r raw) || (nested && r.ring) then .fault 2
    else if !contextOk s q raw then .fault 3
    else if bit (rawFlags raw) 0 && rawField raw 8 8 != 0 then .fault 5
    else if nested && ((rangeFrom 0 4).any (fun i => decide (pos < rawDep raw i))) then .fault 5
    else .ok

/-- An address operand must be 8-byte aligned (R366). -/
def aligned8 (a : BitVec 64) : Bool := a.toNat % 8 == 0

/-- The region descriptor index of an operand (R144): 0 to 4,095. -/
def regionIx (r : BitVec 16) : Option Nat := if r.toNat < 4096 then some r.toNat else none

/-- Is a slot a pool slot of the slice's partition (R61, R372)? -/
def ownsSlot (s : State) (slice slot : Nat) : Bool :=
  let r := (s.slice slice).keys
  decide (32 ≤ slot) && decide (r.1 ≤ slot) && decide (slot < r.1 + r.2)

/-- Is a region descriptor within the slice's range (R407)? -/
def ownsRegionIx (s : State) (slice region : Nat) : Bool :=
  let r := (s.slice slice).regions
  decide (r.1 ≤ region) && decide (region < r.1 + r.2)

/-- Finish a command with a refusal status: a refused command has no other effect (R366). -/
def refuse (h : CmdHdr) (status detail : Nat) (s : State) : State := finish h.key status detail s

/-- The first failing check of a list of (holds, status, DETAIL). -/
def firstFail : List (Bool × Nat × Nat) → Option (Nat × Nat)
  | [] => none
  | (true, _) :: rest => firstFail rest
  | (false, r) :: _ => some r

/-- Run checks in order, then the effect. -/
def checked (h : CmdHdr) (cs : List (Bool × Nat × Nat)) (s : State) (f : State → State) : State :=
  match firstFail cs with
  | some r => refuse h r.1 r.2 s
  | none => f s

end Sys2Proof.Machine
end

