-- ==== Sys2Proof/Machine/Entropy.lean ====
section
/-!
DEFINITION. The block's random bit generators and the engines that draw on them: the DRBG with its instantiation and its reseeds
(R81, R82), the randomization of the key-work and public-key engines (R72, R88), and the engine time that the shared engines are
arbitrated by (R416, R423).
-/
namespace Sys2Proof.Machine

/-- Fresh bits from the entropy source, or a value that the manual leaves open: free values (log 3). -/
def drawBits (w : Nat) (s : State) : BitVec w × State := (s.draw w, s.drew)

/-- Is the entropy source OK (R80)? -/
def entOk (s : State) : Bool := s.ent.state == 0

/-- The check value that the personalization string ends with: eight zero octets while the vault is EMPTY (R81). -/
def personalCheck (s : State) : Bytes := if s.vault.state = 0 then leBytes 8 s.vault.check.toNat else leBytes 8 0

/-- The block's DRBG is instantiated from 384 bits of entropy input, a 128-bit nonce and its personalization string (R81). -/
def drbgInstantiate (s : State) : State :=
  let (e, s) := drawBits 384 s
  let (n, s) := drawBits 128 s
  { s with ent := { s.ent with
    drbg := Config.drbgInstantiate (leBytes 48 e.toNat) (leBytes 16 n.toNat) (ascii "PELGEN-S4/DRBG" ++ personalCheck s)
    sinceReseed := 0, instantiated := true } }

/-- The block's DRBG reseeds from the entropy source (R81, R82), once it is instantiated. -/
def drbgReseed (s : State) : State :=
  if !s.ent.instantiated then drbgInstantiate s
  else
    let (e, s) := drawBits 384 s
    { s with ent := { s.ent with
      drbg := Config.drbgReseed s.ent.drbg (leBytes 48 e.toNat), reseeds := s.ent.reseeds + 1, sinceReseed := 0 } }

/-- What comes before a generate request: instantiation after the state was cleared (R51, log 127), a reseed after
DRBG_RESEED_INTERVAL requests (R81). -/
def drbgPrepare (s : State) : State :=
  if !s.ent.instantiated || (decide (s.ent.interval ≤ s.ent.sinceReseed) && entOk s) then drbgReseed s else s

/-- A generate request of the block's DRBG: its output, and the working state after it (R81). -/
def drbgBits (w : Nat) (s : State) : BitVec w × State :=
  let s := drbgPrepare s
  (BitVec.ofNat w (Config.drbgOutput s.ent.drbg w),
    { s with ent := { s.ent with drbg := Config.drbgStep s.ent.drbg w, sinceReseed := s.ent.sinceReseed + 1 } })

/-- Bits for a key: a reseed comes before (R81). -/
def keyBits (w : Nat) (s : State) : BitVec w × State := drbgBits w (drbgReseed s)

/-- May the KWE, and the PKE, still run (R72, R88)? A generator past 2,048 operations without a reseed refuses every request. -/
def kweRuns (s : State) : Bool := decide (s.kwe.sinceReseed < 2048)
def pkeRuns (s : State) : Bool := decide (s.ent.pkeOps < 2048)

/-- A reseed of the KWE's own instance, and of the PKE's (R72, R82, R88). -/
def kweReseed (s : State) : State :=
  { s with kwe := { s.kwe with sinceReseed := 0 }, ent := { s.ent with reseeds := s.ent.reseeds + 1 } }
def pkeReseed (s : State) : State := { s with ent := { s.ent with reseeds := s.ent.reseeds + 1, pkeOps := 0 } }

/-- The key-work engine has run an operation; its instance reseeds every 1,024 while the entropy source is OK (R72). -/
def kweRan (s : State) : State :=
  let s := { s with kwe := { s.kwe with sinceReseed := s.kwe.sinceReseed + 1 } }
  if 1024 ≤ s.kwe.sinceReseed && entOk s then kweReseed s else s

/-- The key-work engine has completed a request (R70, R82). -/
def kweDone (s : State) : State := kweRan { s with kwe := { s.kwe with completed := s.kwe.completed + 1 } }

/-- The key-work engine has refused a request (R82). -/
def kweRefused (s : State) : State := { s with kwe := { s.kwe with refused := s.kwe.refused + 1 } }

/-- The public-key engine has run an operation (R88). -/
def pkeDone (s : State) : State :=
  let s := { s with ent := { s.ent with pkeOps := s.ent.pkeOps + 1 } }
  if 1024 ≤ s.ent.pkeOps && entOk s then pkeReseed s else s

/-- The checks that the key-work engine makes on a command's request, then the effect: a refusal counts in KWE_REFUSED (R82). -/
def kweChecked (h : CmdHdr) (cs : List (Bool × Nat × Nat)) (s : State) (f : State → State) : State :=
  match firstFail cs with
  | some r => refuse h r.1 r.2 (kweRefused s)
  | none => f s

/-! ### Shared engines -/

/-- SHARE_WINDOW_US in ns (R437). -/
def shareWindowNs : Nat := 1000000

/-- The share of a contender of a shared engine, PKE 0, KWE 1, PLG 2, CEX 3: a slice's, or the device's reserve (R416, R437). -/
def shareOf (s : State) (unit who : Nat) : Nat :=
  if who < 16 then (s.slice who).shares.get unit else [32, 32, 0, 16].getD unit 0

/-- Has a contender a lower ratio of engine time to share than another (R416)? A share of 0 is served last. -/
def lowerRatio (ta sa tb sb : Nat) : Bool := if sa = 0 then false else if sb = 0 then true else decide (ta * sb < tb * sa)

/-- The waiting contender with the lowest ratio. -/
def bestContender (s : State) (unit : Nat) (t : Nat → Nat) : List Nat → Option Nat
  | [] => none
  | c :: cs => match bestContender s unit t cs with
    | none => some c
    | some d => if lowerRatio (t d) (shareOf s unit d) (t c) (shareOf s unit c) then some d else some c

/-- The engine time of a contender in the last SHARE_WINDOW_US (R416). -/
def windowTime (s : State) (unit who : Nat) : Nat :=
  (((s.srg.shared.get unit).recent.filter (fun x => x.1 == who && decide (s.now < x.2.1 + shareWindowNs))).map (·.2.2)).foldl (· + ·) 0

/-- Engine time of a unit: charged to a slice (R423), and kept for the share window (R416). -/
def chargeEngine (who unit ns : Nat) (s : State) : State :=
  let s := { s with srg := { s.srg with shared := s.srg.shared.upd unit (fun e =>
    { e with recent := e.recent.filter (fun x => decide (s.now < x.2.1 + shareWindowNs)) ++ [(who, s.now, ns)] }) } }
  if who < 16 then updUsage who (fun u => { u with engineNs := u.engineNs.upd unit (· + ns) }) s else s

end Sys2Proof.Machine
end

