-- ==== Sys2Proof/Machine/Slots.lean ====
section
/-!
DEFINITION. Fields of key slots (R57, R58).
-/
namespace Sys2Proof.Machine

def Slot.valid (k : Slot) : Bool := bit k.attr.toNat 63
def Slot.zoa (k : Slot) : Bool := bit k.attr.toNat 61
def Slot.exportable (k : Slot) : Bool := bit k.attr.toNat 60
def Slot.eng (k : Slot) : Bool := bit k.attr.toNat 56
def Slot.drv (k : Slot) : Bool := bit k.attr.toNat 55
def Slot.wrap (k : Slot) : Bool := bit k.attr.toNat 54
def Slot.dec (k : Slot) : Bool := bit k.attr.toNat 53
def Slot.enc (k : Slot) : Bool := bit k.attr.toNat 52
def Slot.cls (k : Slot) : Nat := bits k.attr.toNat 51 48
def Slot.origin (k : Slot) : Nat := bits k.attr.toNat 35 32
def Slot.ctx (k : Slot) : Nat := bits k.binding.toNat 63 48
def Slot.region (k : Slot) : Nat := bits k.binding.toNat 47 32
def Slot.epoch (k : Slot) : Nat := bits k.binding.toNat 31 0

/-- A slot. -/
def State.slot (s : State) (n : Nat) : Slot := s.kst.get n

/-- An attribute word (R57): usage bit 56 ENG, 55 DRV, 54 WRAP, 53 DEC, 52 ENC. -/
def attrWord (usage cls sl type origin : Nat) (zoa exportable device : Bool) : BitVec 64 :=
  BitVec.ofNat 64 (2 ^ 63 + b2n zoa * 2 ^ 61 + b2n exportable * 2 ^ 60 + 2 ^ usage + cls * 2 ^ 48 + b2n device * 2 ^ 47 +
    (if device then 0 else sl * 2 ^ 40) + type * 2 ^ 36 + origin * 2 ^ 32)

/-- A binding word (R58). -/
def bindWord (ctx region epoch : Nat) : BitVec 64 := BitVec.ofNat 64 (ctx * 2 ^ 48 + region * 2 ^ 32 + epoch)

/-- Write a key into a slot (R61, R371). -/
def writeSlot (n : Nat) (key : BitVec 256) (attr binding : BitVec 64) (wrapId : BitVec 128) (s : State) : State :=
  { s with kst := s.kst.set n { key, attr, binding, wrapId } }

/-- LOADED: an engine register holds the slot's key (R57). -/
def slotLoaded (s : State) (n : Nat) : Bool := s.engKeys.any (fun k => k.slot == some n)

end Sys2Proof.Machine
end

