-- ==== Sys2Proof/Machine/MemOps.lean ====
section
/-!
DEFINITION. Shared operations of the memory engines: addressing (R143, R183), the cipher and the line tag (R156-R159), the
verification of a returned word with tag-guided correction (R164, R169), and the recording of outcomes (R172-R174).
-/
namespace Sys2Proof.Machine

/-! ### Regions and addresses -/

/-- A region. -/
def State.region (s : State) (r : Nat) : Region := s.mem.regions.get r

/-- Change a region. -/
def updRegion (r : Nat) (f : Region → Region) (s : State) : State :=
  { s with mem := { s.mem with regions := s.mem.regions.upd r f } }

/-- The slices whose streams send nothing and whose groups are discarded (R406). -/
def frozen (s : State) (sl : Nat) : Bool := decide ((s.slice sl).state ∈ [2, 3, 5])

/-- Lines of a region. -/
def Region.lines (r : Region) : Nat := r.pages * 32

/-- The first line number of a region. -/
def Region.firstLn (r : Region) : Nat := r.base * 32

/-- Does a valid region hold a line? -/
def Region.holds (r : Region) (ln : Nat) : Bool := r.valid && decide (r.firstLn ≤ ln) && decide (ln < r.firstLn + r.lines)

/-- The region that holds a line (R148). -/
def regionAt (s : State) (ln : Nat) : Option Nat := (s.mem.regions.findAll (fun _ r => r.holds ln)).head?

/-- The stack of a line (R177). -/
def stackOf (s : State) (ln : Nat) : Nat :=
  let i := (ln * 128 / 2 ^ s.mem.decodeG) % s.mem.decodeK
  let m := s.mem.decodeMap.get i
  if m = 0xFFFF then i else m

/-- Lines of a counter area level (R183). -/
def levelLines (r : Region) (level : Nat) : Nat := (r.pages * 4096 + 2 ^ (7 + 7 * level) - 1) / 2 ^ (7 + 7 * level)

/-- Round a byte count up to whole 4 KiB pages. -/
def roundUp4k (n : Nat) : Nat := (n + 4095) / 4096 * 4096

/-- The byte address of the first counter line of a level (R183). -/
def levelBase (r : Region) : Nat → Nat
  | 0 => r.base * 4096
  | 1 => r.metaBase * 4096
  | n + 2 => levelBase r (n + 1) + roundUp4k (128 * levelLines r (n + 1))

/-- The line number of counter line `i` of a level, or of data line `i` at level 0. -/
def counterLn (r : Region) (level i : Nat) : Nat := levelBase r level / 128 + i

/-- The line number of the mirror of a level-2 or level-3 line (R183). -/
def mirrorLn (r : Region) (level i : Nat) : Nat := r.mirrorBase * 32 + (counterLn r level i - levelBase r 2 / 128)

/-- Bytes of the counter area and of the mirror area (R183). -/
def counterAreaBytes (r : Region) : Nat :=
  roundUp4k (128 * levelLines r 1) + roundUp4k (128 * levelLines r 2) + roundUp4k (128 * levelLines r 3)
def mirrorAreaBytes (r : Region) : Nat := roundUp4k (128 * levelLines r 2) + roundUp4k (128 * levelLines r 3)

/-- The plough of a region. -/
def ploughOf (s : State) (r : Nat) : Option Plough := s.mem.ploughs.find? (fun p => p.region == r)

/-- Change the plough of a region. -/
def updPlough (r : Nat) (f : Plough → Plough) (s : State) : State :=
  { s with mem := { s.mem with ploughs := mapIf (fun p => p.region == r) f s.mem.ploughs } }

/-- Has the plough moved a data line (R221, R222)? -/
def lineMoved (p : Plough) (n : Nat) : Bool := decide (n < p.lf) || decide (n ∈ p.moved)

/-- Is a read a rebase's, a scrub's, of a counter or mirror line? -/
def Purpose.isChild : Purpose → Bool
  | .child _ => true
  | _ => false
def Purpose.isScrub : Purpose → Bool
  | .scrub _ => true
  | _ => false
def Purpose.isFetch : Purpose → Bool
  | .counter => true
  | .mirror _ => true
  | _ => false

/-- Does the host or a command wait for the read? -/
def Purpose.outside : Purpose → Bool
  | .mission => true
  | .block _ _ => true
  | _ => false

/-- Is a data line under the plough's lock: from before it is read until LF has passed it (R222)? -/
def Plough.locks (p : Plough) (n : Nat) : Bool := decide (n ∈ p.locked) || decide (n ∈ p.moved)

/-- Is a data line under a line lock: the plough's (R222) or a rebase's (R194)? -/
def lineLocked (s : State) (r n : Nat) : Bool :=
  (match ploughOf s r with | some p => p.locks n | none => false) ||
  s.mem.reads.any (fun x => x.purpose.isChild && x.region == r && x.level == 0 && x.idx == n)

/-- The epoch side of a data line: true on the new side (R221). -/
def newSide (s : State) (r n : Nat) : Bool := match ploughOf s r with | some p => decide (n < p.lf) | none => false

/-- Has the plough opened a counter line, a line of `level` with index `i` (R225)? Its old copy is held until LF leaves its coverage. -/
def lineOpened (p : Plough) (level i : Nat) : Bool :=
  decide ((i + 1) * 128 ^ level ≤ p.lf) || p.old.any (fun c => c.level == level && c.idx == i)

/-! ### Engine keys -/

/-- The key that an engine register of a class holds; a register that holds none reads as zero. -/
def engKey (s : State) (cls ix : Nat) : BitVec 256 :=
  match s.engKeys.find? (fun k => k.cls == cls && k.index == ix) with
  | some k => k.key
  | none => 0

/-- The key-work engine fills an engine key register, replacing what it held (R62, R66). -/
def putEngKey (cls ix : Nat) (key : BitVec 256) (slot : Option Nat) (s : State) : State :=
  { s with engKeys := s.engKeys.filter (fun k => !(k.cls == cls && k.index == ix)) ++ [{ cls, index := ix, key, slot }] }

/-- A LOAD or DERIVE of the key-work engine into an engine key register (R70). -/
def loadKey (cls ix : Nat) (key : BitVec 256) (slot : Option Nat) (s : State) : State := kweDone (putEngKey cls ix key slot s)

/-- Clear an engine key register. -/
def clearKey (cls ix : Nat) (s : State) : State :=
  { s with engKeys := s.engKeys.filter (fun k => !(k.cls == cls && k.index == ix)) }

/-- The key-set file entry of a region's side: the region's own entry, or its plough's next-epoch set (R144). -/
def keySet (s : State) (r : Nat) (newer : Bool) : Nat :=
  if newer then match ploughOf s r with | some p => 4096 + p.set | none => r else r

/-- The epoch of a side. -/
def sideEpoch (s : State) (r : Nat) (newer : Bool) : Nat :=
  if newer then match ploughOf s r with | some p => p.epoch | none => (s.region r).epoch else (s.region r).epoch

/-! ### Cipher and tag -/

/-- The tweak block of a line (R156); `mask` sets bit 7 of byte 13 for the tag mask (R159). -/
def tweakBlock (v ln mode epoch : Nat) (mask : Bool) : Bytes :=
  leBytes 8 v ++ leBytes 5 ln ++ [BitVec.ofNat 8 (mode % 4 + if mask then 128 else 0)] ++ leBytes 2 epoch

/-- Sixteen octets as a block: octet 0 is the least significant. -/
def toBlock (bs : Bytes) : BitVec 128 := BitVec.ofNat 128 (leNat (fit 16 bs))

/-- A block as sixteen octets. -/
def ofBlock (b : BitVec 128) : Bytes := leBytes 16 b.toNat

/-- Multiplication by alpha over GF(2^128), as IEEE 1619 defines it. -/
def mulAlpha (t : BitVec 128) : BitVec 128 := if t.msb then (t <<< 1) ^^^ 0x87#128 else t <<< 1

/-- The block tweaks T_0 to T_(n-1) from T_0 (R157). -/
def blockTweaks : Nat → BitVec 128 → List (BitVec 128)
  | 0, _ => []
  | n + 1, t => t :: blockTweaks n (mulAlpha t)

/-- The eight blocks of a line. -/
def lineBlocks (l : Line) : List (BitVec 128) := (List.range 8).map (fun j => toBlock (slice l (16 * j) 16))

/-- XTS over a line (R157). -/
def xtsLine (f : BitVec 256 → BitVec 128 → BitVec 128) (k1 k2 : BitVec 256) (i : Bytes) (l : Line) : Line :=
  (List.zipWith (fun p t => ofBlock (f k1 (p ^^^ t) ^^^ t)) (lineBlocks l) (blockTweaks 8 (Config.aes256 k2 (toBlock i)))).flatten

/-- Multiplication in GF(2^64) modulo x^64 + x^4 + x^3 + x + 1 (R158), by the low `n` bits of `b`. -/
def gfMulAux : Nat → BitVec 64 → BitVec 64 → BitVec 64 → BitVec 64
  | 0, _, _, acc => acc
  | n + 1, a, b, acc =>
    gfMulAux n (if a.msb then (a <<< 1) ^^^ 0x1B#64 else a <<< 1) (b >>> 1) (if b.getLsbD 0 then acc ^^^ a else acc)

/-- The product in GF(2^64) (R158). -/
def gfMul (a b : BitVec 64) : BitVec 64 := gfMulAux 64 a b 0

/-- The hash key H of a tag key (R158). -/
def hashKey (kt : BitVec 256) : BitVec 64 :=
  let e := ofBlock (Config.aes256 kt (toBlock (List.replicate 13 0 ++ [0x40, 0, 0])))
  let h := field e 0 8
  let g := field e 8 8
  if 2 ≤ h then BitVec.ofNat 64 h else if 2 ≤ g then BitVec.ofNat 64 g else 2#64

/-- The words c_1 to c_18 of a line (R159). -/
def hashWords (c : Line) (ln mode v : Nat) : List (BitVec 64) :=
  (List.range 16).map (fun t => BitVec.ofNat 64 (field c (8 * t) 8)) ++ [BitVec.ofNat 64 (ln + mode * 2 ^ 40), BitVec.ofNat 64 v]

/-- The polynomial hash P, by Horner's rule (R159). -/
def polyHash (h : BitVec 64) (ws : List (BitVec 64)) : BitVec 64 := ws.foldl (fun acc c => gfMul (acc ^^^ c) h) 0

/-- LT56 from the hash and the mask word (R159). -/
def tagOf (p m : BitVec 64) : BitVec 56 := (p ^^^ m).setWidth 56

/-- LT56 of a ciphertext line (R159). -/
def lt56 (kt : BitVec 256) (c : Line) (ln mode v epoch : Nat) : BitVec 56 :=
  let m := BitVec.ofNat 64 (field (ofBlock (Config.aes256 kt (toBlock (tweakBlock v ln mode epoch true)))) 0 8)
  tagOf (polyHash (hashKey kt) (hashWords c ln mode v)) m

/-- Encrypt and tag a line of a region's side under a version. Counter and mirror lines are formed under MODE 0 (R184). -/
def protect (s : State) (r : Nat) (newer : Bool) (ln mode v : Nat) (p : Line) : Line × BitVec 56 :=
  let ix := keySet s r newer
  let e := sideEpoch s r newer
  let c := xtsLine Config.aes256 (engKey s 1 ix) (engKey s 2 ix) (tweakBlock v ln mode e false) p
  (c, lt56 (engKey s 3 ix) c ln mode v e)

/-- Does a ciphertext verify under a version (R159)? -/
def verifies (s : State) (r : Nat) (newer : Bool) (ln mode v : Nat) (c : Line) (tag : BitVec 56) : Bool :=
  lt56 (engKey s 3 (keySet s r newer)) c ln mode v (sideEpoch s r newer) == tag

/-- Decrypt a line (R157). -/
def reveal (s : State) (r : Nat) (newer : Bool) (ln mode v : Nat) (c : Line) : Line :=
  let ix := keySet s r newer
  xtsLine Config.aes256Inv (engKey s 1 ix) (engKey s 2 ix) (tweakBlock v ln mode (sideEpoch s r newer) false) c

/-! ### Lines for the stacks -/

/-- The contender whose slots an access draws on (R21, R184, R412): the slice or the host behind it (`who` at most 16), and for the block's
own traffic the slice that owns the region. -/
def contender (s : State) (r who : Nat) : Nat := if who ≤ 16 then who else if (s.region r).mode < 3 then (s.region r).slice else 16

/-- A line waits for a slot of an engine's wheel (R412). -/
def queueLine (e : Nat) (l : WaitLine) (s : State) : State := { s with mem := { s.mem with lines := s.mem.lines.upd e (· ++ [l]) } }

/-- Ciphertext and line tag are on their way to a stack (R161 step 4). -/
def writeLine (e r who : Nat) (plough : Bool) (ln : Nat) (c : Line) (tag : BitVec 56) (s : State) : State :=
  queueLine e { who := contender s r who, plough, region := r, ln, op := .write c tag } s

/-- Change a read, by its number. -/
def updRead (q : Nat) (f : MemRead → MemRead) (s : State) : State :=
  { s with mem := { s.mem with reads := mapIf (fun x => x.seq == q) f s.mem.reads } }

/-- Is a waiting line one of some reads? -/
def LineOp.readsOf (ids : List Nat) : LineOp → Bool
  | .read q => decide (q ∈ ids)
  | .write _ _ => false

/-- Is a waiting line a write? -/
def LineOp.isWrite : LineOp → Bool
  | .read _ => false
  | .write _ _ => true

/-- Does an accepted write of a region wait, in its engine or for a slot of its stack's wheel (R203, R211, R427)? -/
def writesOut (s : State) (r : Nat) : Bool :=
  s.mem.writes.any (fun w => w.region == r) || s.mem.lines.ents.any (fun e => e.2.any (fun l => l.region == r && l.op.isWrite))

/-- Reads end, and leave the queues of the wheels. -/
def dropReads (p : MemRead → Bool) (s : State) : State :=
  let ids := (s.mem.reads.filter p).map (·.seq)
  { s with mem := { s.mem with
    reads := s.mem.reads.filter (fun x => !p x)
    lines := s.mem.lines.mapEnts (fun _ ls => ls.filter (fun l => !l.op.readsOf ids)) } }

/-- A read ends. -/
def dropRead (x : MemRead) (s : State) : State := { s with mem := { s.mem with reads := s.mem.reads.filter (fun y => y.seq != x.seq) } }

/-- A read is issued to its stack: it waits for a slot (R162 step 1, R412). -/
def issueRead (x : MemRead) (s : State) : State :=
  queueLine x.engine { who := contender s x.region x.who, plough := x.purpose == .plough, region := x.region, ln := x.ln, op := .read x.seq }
    (updRead x.seq (fun y => { y with stage := .queued, newer := x.newer, cands := x.cands }) s)

/-- A new read takes the next number in the order of acceptance. -/
def addRead (x : MemRead) (s : State) : State :=
  { s with mem := { s.mem with seqCtr := s.mem.seqCtr + 1, reads := s.mem.reads ++ [{ x with seq := s.mem.seqCtr }] } }

/-- A new read of the block's own is accepted and issued (R141). -/
def startRead (x : MemRead) (s : State) : State := issueRead { x with seq := s.mem.seqCtr } (addRead x s)

/-- A line is written: re-reads of it that are still to come are omitted (R258, log 131). -/
def dropScrubs (ln : Nat) (s : State) : State := dropReads (fun x => x.purpose.isScrub && x.ln == ln) s

/-- A protected line is encrypted, tagged and sent to its stack (R161 steps 3 and 4). -/
def storeProtected (e r : Nat) (newer plough : Bool) (ln mode v : Nat) (p : Line) (s : State) : State :=
  let x := protect s r newer ln mode v p
  writeLine e r 0x11 plough ln x.1 x.2 (dropScrubs ln s)

/-! ### Adjacency and correction -/

/-- The T9 adjacency list of an anchor (R168). -/
def t9Adjacency (a : Nat) : List Nat :=
  let g := a % 18
  let b := a / 18
  ((rangeFrom 1 8).flatMap (fun d => [18 * b + (g + d) % 18, 18 * b + (g + 18 - d) % 18])) ++ [18 * b + (g + 9) % 18] ++
    [18 * ((b + 1) % 4) + g, 18 * ((b + 3) % 4) + g, 18 * ((b + 2) % 4) + g]

/-- The adjacency list of an anchor (R168). A loaded MEM_SYMBOL_ADJ holds for each symbol a count and 64 entries (log 16). -/
def adjacency (s : State) (a : Nat) : List Nat :=
  match s.mem.adjacency with
  | none => t9Adjacency a
  | some b => (slice b (65 * a + 1) (min 64 (field b (65 * a) 1))).map (·.toNat)

/-- How a read ends (R162, R172): a version verifies the ciphertext of a word with a status, no version does, a DUE stays uncorrected (with its
anchor and the candidates tried), or the controller poisoned the line. -/
inductive Verdict where
  | ok (v : Nat) (cipher : Line) (status : Nat)
  | tagFail (status : Nat)
  | due (anchor tried : Nat)
  | poison
  deriving DecidableEq, Repr

/-- Verification of a word that the ECC delivered (R162 step 5, R164): exactly one candidate verifies. -/
def checkTag (s : State) (r : Nat) (newer : Bool) (ln mode : Nat) (cands : List Nat) (c : Line) (tag : BitVec 56) : Option Nat :=
  match cands.eraseDups.filter (fun v => verifies s r newer ln mode v c tag) with
  | [v] => some v
  | _ => none

/-- One candidate repair of a correction (R169): the new finding, or an ambiguity. -/
def tryRepair (s : State) (r : Nat) (newer : Bool) (ln mode : Nat) (cands : List Nat)
    (f : Option (Line × BitVec 56 × Nat) × Bool) (a : Option (Line × BitVec 56)) : Option (Line × BitVec 56 × Nat) × Bool :=
  match a with
  | none => f
  | some w => cands.foldl (fun f v =>
      if verifies s r newer ln mode v w.1 w.2 then
        (match f.1 with
         | some o => if o = (w.1, w.2, v) then f else (f.1, true)
         | none => (some (w.1, w.2, v), f.2))
      else f) f

/-- Ask the erasure port for the candidate in turn, at the head of an engine's queue (R169). -/
def nextErase (e : Nat) (s : State) : State :=
  match s.mem.corr.get e with
  | c :: _ => match c.todo with
    | p :: _ => s.emit (.erase e c.handle c.anchor p)
    | [] => s
  | [] => s

/-- A correction leaves an engine's queue (R167, R169): its handle is released, and when it was the one in progress the next begins. -/
def endCorr (e read : Nat) (s : State) : State :=
  let q := s.mem.corr.get e
  let s := { s with mem := { s.mem with corr := s.mem.corr.set e (q.filter (fun c => c.read != read)) } }
  let s := (q.filter (fun c => c.read == read)).foldl (fun s (c : Corr) => s.emit (.release e c.handle)) s
  if (q.head?.map (·.read)) == some read then nextErase e s else s

/-- Is a pseudo-channel named by an open announcement of a stack (R241)? -/
def suspectPc (s : State) (e pc : Nat) : Bool := (s.mem.cal.get e).anns.any (fun a => bit a.mask pc)

/-- Does a word's first result ask for the calibration retry (R242)? -/
def failsPlain (s : State) (r : Nat) (newer : Bool) (ln mode : Nat) (cands : List Nat) (w : RdWord) : Bool :=
  w.status == 2 || (decide (w.status.toNat < 2) && (checkTag s r newer ln mode cands w.cipher w.tag).isNone)

/-! ### Recording -/

/-- Count on an engine counter of R176. -/
def meCount (e sub n : Nat) (s : State) : State :=
  { s with mem := { s.mem with ctr := s.mem.ctr.upd (16 * e + sub) (· + n) } }

/-- Count on a cache counter of R215. -/
def mcCount (e sub n : Nat) (s : State) : State :=
  { s with mem := { s.mem with mcCtr := s.mem.mcCtr.upd (16 * e + sub) (· + n) } }

/-- The slice that a memory error record names: the owner of a protected region, else the requesting slice. -/
def memSlice (s : State) (r : Option Nat) (who : Nat) : Nat :=
  match r with
  | some r => if (s.region r).mode < 3 then (s.region r).slice else if who < 16 then who else 0xFF
  | none => if who < 16 then who else 0xFF

/-- The engine's interrupt source for an error class (R465, log 19): 0 tag failure, 1 DUE or correction, 2 calibration retry,
6 scrub result. -/
def meSource (cls e : Nat) (s : State) : State :=
  match cls with
  | 0x07 => pend (64 + 8 * e) s
  | 0x08 => pend (65 + 8 * e) s
  | 0x10 => pend (66 + 8 * e) s
  | 0x0C => pend (70 + 8 * e) s
  | 0x0D => pend (70 + 8 * e) s
  | 0x0E => pend (70 + 8 * e) s
  | _ => s

/-- An engine reports an outcome to the error log (R174): the line's address is the KEY; the places of status, candidate count and REQ_ID in
DETAIL are the model's (log 17). -/
def meLog (cls e ln req who : Nat) (r : Option Nat) (status cands : Nat) (s : State) : State :=
  meSource cls e <| logError cls (9 + e) (memSlice s r who) (r.getD 0) (ln * 128) (status + 256 * cands + 65536 * req) s

/-- The same for a read of a region. -/
def readLog (cls : Nat) (x : MemRead) (status cands : Nat) (s : State) : State :=
  meLog cls x.engine x.ln x.req x.who (some x.region) status cands s

/-- The rings of a memory event about a region (R353): its owner's when it is protected, and the driver's. -/
def ownerRings (s : State) (r : Nat) : List Nat := if (s.region r).mode < 3 then [(s.region r).slice, 16] else [16]

/-- A line reaches who reads it: the host, or the buffer of the command whose block DMA it is; none is poison (R172, R386). -/
def respond (x : MemRead) (d : Option Line) (s : State) : State :=
  match x.purpose with
  | .mission => s.emit (match d with | some l => .readData x.engine x.ln l | none => .readPoison x.engine x.ln)
  | .block k n => { s with mem := { s.mem with blocks := s.mem.blocks ++ [{ key := k, n, data := d }] } }
  | _ => s

/-- A read ends in poison without a record (R172, fallow lines). -/
def poison (x : MemRead) (s : State) : State := meCount x.engine 10 1 (respond x none (dropRead x s))

/-- A read ends in poison (R172), with an error class. -/
def poisonRead (cls : Nat) (x : MemRead) (r : Option Nat) (status cands : Nat) (s : State) : State :=
  meCount x.engine 10 1 (meLog cls x.engine x.ln x.req x.who r status cands (respond x none (dropRead x s)))

/-- A write is dropped (R173) with an error class and an event code; a denied request goes to its own slice's ring too. -/
def dropWrite (cls code e ln req who : Nat) (r : Option Nat) (denied : Bool) (s : State) : State :=
  let rings := (match r with | some r => ownerRings s r | none => [16]) ++ (if denied && who < 16 then [who] else [])
  let detail := ln * 128 + (if code == 0x8012 then cls * 2 ^ 48 else if code == 0x8013 then 0 else req * 2 ^ 59)
  let s := meCount e 11 1 (meLog cls e ln req who r 0 0 s)
  raise rings 5 code detail s

end Sys2Proof.Machine
end

