-- ==== Sys2Proof/Machine/Groups.lean ====
section
/-!
DEFINITION. What the link engines send, and the tables they send by: the domain record, streams and pairs, link keys, groups, the
gateway's gate, the opening of streams, and the messages of the firmware in class 15 (R112, R260-R276, R281, R286, R288).
-/
namespace Sys2Proof.Machine

/-! ### Domain records -/

/-- The domain record of a slice. -/
def State.domain (s : State) (sl : Nat) : Dom := s.dom.doms.get sl

/-- Change a domain record. -/
def updDom (sl : Nat) (f : Dom → Dom) (s : State) : State := { s with dom := { s.dom with doms := s.dom.doms.upd sl f } }

/-- Does a slice hold domain keys: KEYED or LIVE (R101)? -/
def keyed (s : State) (sl : Nat) : Bool := (s.domain sl).state == 2 || (s.domain sl).state == 3

/-! ### Tables -/

/-- A stream entry, a pair record, a port. -/
def State.stream (s : State) (e : Nat) : Stream := s.link.streams.get e
def State.pair (s : State) (p : Nat) : Pair := s.link.pairs.get p
def State.port (s : State) (p : Nat) : Port := s.link.ports.get p

/-- Change them. -/
def updStream (e : Nat) (f : Stream → Stream) (s : State) : State := { s with link := { s.link with streams := s.link.streams.upd e f } }
def updPair (p : Nat) (f : Pair → Pair) (s : State) : State := { s with link := { s.link with pairs := s.link.pairs.upd p f } }
def updPort (p : Nat) (f : Port → Port) (s : State) : State := { s with link := { s.link with ports := s.link.ports.upd p f } }

/-- Count on a port counter, or on a slice counter of R304. -/
def portCount (p sub n : Nat) (s : State) : State := updPort p (fun x => { x with ctr := x.ctr.upd sub (· + n) }) s
def sliceCount (sl sub n : Nat) (s : State) : State :=
  { s with link := { s.link with sliceCtr := s.link.sliceCtr.upd (16 * sl + sub) (· + n) } }

/-- A wired port (R19, R260). -/
def wired (s : State) (p : Nat) : Bool := decide (p < 18) && (s.port p).mode != 2

/-- The slice's range of entries on a port's die (R268). -/
def dieRange (s : State) (sl p : Nat) : Nat × Nat :=
  let x := s.slice sl
  if p < 9 then x.streams0 else x.streams1

/-- The stream of a slice, peer, class and direction (R271, R273). -/
def findStream (s : State) (sl peer cls : Nat) (rx : Bool) : Option Nat :=
  (s.link.streams.findAll (fun _ x => x.state != 0 && x.slice == sl && x.peer == peer && x.cls == cls && x.rx == rx)).head?

/-- The pair record of a slice, peer and direction (R270). -/
def findPair (s : State) (sl peer : Nat) (rx : Bool) : Option Nat :=
  (s.link.pairs.findAll (fun _ x => x.valid && x.slice == sl && x.peer == peer && x.rx == rx)).head?

/-- A stream that is open, stalled or not (R269, R303). -/
def Stream.isOpen (x : Stream) : Bool := x.state == 1 || x.state == 2

/-- The streams of a pair. -/
def pairStreams (s : State) (p : Nat) : List Nat := s.link.streams.findAll (fun _ x => x.state != 0 && x.pair == p)

/-- The ports of a pair. -/
def portsOf (x : Pair) : List Nat := (List.range 18).filter (bit x.ports)

/-! ### Link keys (R66, R126, R276) -/

/-- The octets of a key, lowest first (log 12). -/
def keyBytes (k : BitVec 256) : Bytes := leBytes 32 k.toNat

/-- The place of a link key: port, pair, epoch, and whether it is a halyard key. -/
def linkIx (port pair epoch : Nat) (halyard : Bool) : Nat := ((port * 8192 + pair) * 2 + b2n halyard) * 2 ^ 32 + epoch % 2 ^ 32

/-- Is a link key installed on a port? -/
def hasLink (s : State) (port pair epoch : Nat) (halyard : Bool) : Bool :=
  s.engKeys.any (fun k => k.cls == 4 && k.index == linkIx port pair epoch halyard)

/-- The stream key of an epoch (R66). -/
def streamKey (s : State) (p epoch : Nat) : BitVec 256 :=
  let x := s.pair p
  let d := s.domain x.slice
  let k := match d.dlk with | some n => (s.slot n).key | none => 0
  let (a, b) := if x.rx then (x.peer, d.member) else (d.member, x.peer)
  Config.kmac256 (keyBytes k) (ascii "PELGEN-S4/STREAM") (leBytes 2 a ++ leBytes 2 b ++ leBytes 4 epoch)

/-- The checks that the KWE makes before it derives a slice's stream keys: its randomization, and DLK's VALID and DRV (R64, R70,
R72). -/
def dlkChecks (s : State) (sl : Nat) : List (Bool × Nat × Nat) :=
  let k := (s.domain sl).dlk.map s.slot
  [(kweRuns s, St.entropyFailure, 0), (k.any Slot.valid, St.keyZeroized, 0), (k.any Slot.drv, St.usageViolation, 0)]

/-- Does the KWE derive stream keys for a slice? -/
def dlkUsable (s : State) (sl : Nat) : Bool := (firstFail (dlkChecks s sl)).isNone

/-- The KWE derives an epoch's key into a port's cache, or refuses (R64, R72). -/
def deriveLink (port p epoch : Nat) (s : State) : State :=
  if dlkUsable s (s.pair p).slice then loadKey 4 (linkIx port p epoch false) (streamKey s p epoch) none s else kweRefused s

/-- The epoch that a pair or a stream takes at its next switch: DLK epoch 0 after the halyard key (R280). -/
def nextEpoch (epoch : Nat) (halyard : Bool) : Nat := if halyard then 0 else epoch + 1

/-- NEXT (R270): the next epoch's key is installed on every port. -/
def refreshNext (p : Nat) (s : State) : State :=
  updPair p (fun x => { x with next := (portsOf x).all (fun q => hasLink s q p (nextEpoch x.epoch x.halyard) false) }) s

/-- Clear a pair's keys on a port but for the epochs named. -/
def keepLinks (port p : Nat) (keep : List Nat) (s : State) : State :=
  { s with engKeys := s.engKeys.filter (fun k => !(k.cls == 4 && k.index / 2 ^ 33 == port * 8192 + p && !decide (k.index ∈ keep))) }

/-! ### The group (R263-R266) -/

/-- The group security header. -/
def gshBytes (kph plain mark : Bool) (cls rxSlice sender receiver len ctr pkts att : Nat) : Bytes :=
  [BitVec.ofNat 8 (b2n kph + 2 * b2n plain + 4 * b2n mark), BitVec.ofNat 8 (cls + 16 * rxSlice)] ++ leBytes 2 sender ++ leBytes 2 receiver ++
    leBytes 2 len ++ leBytes 5 ctr ++ [BitVec.ofNat 8 pkts, 1, BitVec.ofNat 8 att]

/-- SALT (R265). -/
def linkSalt (cls sender receiver : Nat) : Nat := cls * 2 ^ 28 + sender * 2 ^ 12 + receiver

/-- The IV (R265). -/
def linkIv (cls sender receiver ctr : Nat) : BitVec 96 := BitVec.ofNat 96 (linkSalt cls sender receiver + ctr * 2 ^ 32)

/-- A packet descriptor (R264). -/
def descBytes (addr opcode attr len index : Nat) : Bytes := leBytes 8 addr ++ leBytes 1 opcode ++ leBytes 1 attr ++ leBytes 2 len ++ leBytes 2 index ++ [0, 0]

/-- The receiver's slice, by the member list (R106). -/
def peerSlice (d : Dom) (peer : Nat) : Nat := field d.list (64 * peer + 0x30) 2 % 16

/-- Groups that wait at a GATEWAY port leave once the gates they sampled are open (R286), in their order on each port. -/
def settleGw (s : State) : State :=
  let go (acc : State × List Nat) (g : GwHold) : State × List Nat :=
    if decide (g.port ∈ acc.2) || !gateOpen acc.1 g.slice g.sample then (acc.1, g.port :: acc.2)
    else
      let s := { acc.1 with link := { acc.1.link with gw := acc.1.link.gw.erase g } }
      (s.emit (.group g.port g.gsh g.descs g.cipher g.trailer), acc.2)
  (s.link.gw.foldl go (s, [])).1

/-- A group leaves a port; on a GATEWAY port it waits for the gate sampled as it closes (R286). -/
def putGroup (port sl : Nat) (gsh descs cipher trailer : Bytes) (s : State) : State :=
  if (s.port port).mode == 1 then
    settleGw { s with link := { s.link with gw := s.link.gw ++ [{ port, slice := sl, sample := gateSample s sl, gsh, descs, cipher, trailer }] } }
  else s.emit (.group port gsh descs cipher trailer)

/-- One transmit invocation (R262-R266, R281): the group under the next counter, and the counts. BYTES_TX counts GSH,
payload and trailer (log 23). A stream whose counter reaches the reserved one stalls while NEXT is clear. -/
def sendGroup (e pkts : Nat) (mark : Bool) (payload descs : Bytes) (s : State) : State :=
  let x := s.stream e
  let d := s.domain x.slice
  let gsh := gshBytes x.kph false mark x.cls (peerSlice d x.peer) d.member x.peer payload.length x.ctr pkts (d.attempt % 256)
  let iv := linkIv x.cls d.member x.peer x.ctr
  let key := engKey s 4 (linkIx x.port x.pair x.epoch x.halyard)
  let cipher := Config.gcmCrypt key iv payload
  let tag := Config.gcmTag key iv (gsh ++ descs) cipher
  let s := putGroup x.port x.slice gsh descs cipher (gsh ++ leBytes 16 tag.toNat) s
  let ctr := x.ctr + 1
  let stall := x.state == 1 && ctr == 2 ^ 40 - 1 && !(s.pair x.pair).next
  let s := updStream e (fun x => { x with ctr, state := if stall then 2 else x.state }) s
  let s := updPair x.pair (fun p => { p with used := setBit p.used x.cls }) s
  let s := portCount x.port 4 1 (portCount x.port 6 (48 + payload.length) s)
  let s := updUsage x.slice (fun u => { u with linkSent := u.linkSent + payload.length }) s
  if stall then pend (162 + 4 * x.port) (raise [x.slice] 7 0x8030 e s) else s

/-- Close a stream's open group (R262). -/
def closeTx (port e : Nat) (s : State) : State :=
  match (s.link.txOpen.get port).find? (fun g => g.stream == e) with
  | none => s
  | some g =>
    sendGroup e g.packets false g.payload g.descs
      { s with link := { s.link with txOpen := s.link.txOpen.upd port (fun l => l.filter (fun g => g.stream != e)) } }

/-- The greatest counter, kept for the rotation mark (R281). -/
def lastCtr : Nat := 2 ^ 40 - 1

/-- A group that the block composes itself: one packet behind a descriptor of zeros but for its length (R264). -/
def sendOwn (e : Nat) (mark : Bool) (payload : Bytes) (s : State) : State := sendGroup e 1 mark payload (descBytes 0 0 0 payload.length 0) s

/-- The rotation mark (R277), behind the stream's open group. -/
def rotationMark : Nat := 2 ^ 64 - 1
def sendRotationMark (e : Nat) (s : State) : State := sendOwn e true (leBytes 8 rotationMark) (closeTx (s.stream e).port e s)

/-- A fence mark or a message of the firmware, behind the stream's open group; on a stalled stream it waits with the stream
(R281, R289, R303). -/
def sendControl (e : Nat) (mark : Bool) (payload : Bytes) (s : State) : State :=
  let s := closeTx (s.stream e).port e s
  if (s.stream e).state == 2 || (s.stream e).ctr == lastCtr then
    { s with link := { s.link with txWaits := s.link.txWaits ++ [{ stream := e, mark, payload }] } }
  else sendOwn e mark payload s

/-! ### Opening streams (R273) -/

/-- The classes that a mask names. -/
def maskClasses (m : Nat) : List Nat := (List.range 15).filter (bit m)

/-- The free entries of a slice on a port's die, lowest first, as many as asked for. -/
def freeEntries (s : State) (sl port n : Nat) : List Nat :=
  let r := dieRange s sl port
  ((rangeFrom r.1 r.2).filter (fun e => (s.stream e).state == 0)).take n

/-- The lowest free pair record. -/
def freePair (s : State) : Option Nat := (List.range 8192).find? (fun p => !(s.pair p).valid)

/-- The pair of a slice, peer and direction is present on a port. -/
def pairOn (s : State) (sl peer : Nat) (rx : Bool) (port : Nat) : Bool :=
  match findPair s sl peer rx with | some p => bit (s.pair p).ports port | none => false

/-- Free entries of a port's link-key cache (R276): a pair present on the port holds two. -/
def cacheFree (s : State) (port : Nat) : Nat :=
  1024 - 2 * (s.link.pairs.findAll (fun _ x => x.valid && bit x.ports port)).length

/-- The pair record of a slice, peer and direction, made when there is none (R270). -/
def makePair (sl peer : Nat) (rx : Bool) (s : State) : State × Nat :=
  match findPair s sl peer rx with
  | some p => (s, p)
  | none =>
    let p := (freePair s).getD 0
    (updPair p (fun _ => { slice := sl, peer, rx, valid := true }) s, p)

/-- A pair comes onto a port: its current and its next key enter the port's cache (R273). -/
def pairToPort (p port : Nat) (s : State) : State :=
  let x := s.pair p
  if bit x.ports port then s
  else
    let s := updPair p (fun x => { x with ports := setBit x.ports port }) s
    let s := if x.halyard then
        match (portsOf x).head? with
        | some q => loadKey 4 (linkIx port p x.epoch true) (engKey s 4 (linkIx q p x.epoch true)) none s
        | none => s
      else deriveLink port p x.epoch s
    refreshNext p (deriveLink port p (nextEpoch x.epoch x.halyard) s)

/-- The epoch, the phase and the halyard mark of a new stream: those of the pair's streams on the port, else the pair's. -/
def phaseOn (s : State) (p port : Nat) : Nat × Bool × Bool :=
  match (pairStreams s p).find? (fun e => (s.stream e).port == port) with
  | some e => ((s.stream e).epoch, (s.stream e).kph, (s.stream e).halyard)
  | none => ((s.pair p).epoch, (s.pair p).kph, (s.pair p).halyard)

/-- Fill one stream entry. A transmit stream whose class has been used under the pair's epoch opens stalled and sends nothing,
not even a mark, until the pair has rotated (R273, log 26). -/
def fillStream (e p sl peer cls port : Nat) (rx sav : Bool) (s : State) : State :=
  let ph := phaseOn s p port
  let used := !rx && bit (s.pair p).used cls
  updStream e (fun _ => { epoch := ph.1, kph := ph.2.1, halyard := ph.2.2, pair := p, port, cls, rx, peer, slice := sl, state := if used then 2 else 1, fresh := used, sav }) s

/-- Open the streams of the classes on a port; answers the pair. -/
def openStreams (sl peer port : Nat) (classes : List Nat) (rx sav : Bool) (s : State) : State × Nat :=
  let es := freeEntries s sl port classes.length
  let (s, p) := makePair sl peer rx s
  let s := pairToPort p port s
  ((classes.zip es).foldl (fun s ce => fillStream ce.2 p sl peer ce.1 port rx sav s) s, p)


/-- May streams of a slice toward a peer be opened on a port: entries, pair record, link-key cache (R273 conditions 4 to 7)? -/
def roomChecks (s : State) (sl peer port : Nat) (classes : List Nat) (rx : Bool) : List (Bool × Nat × Nat) :=
  [(classes.all (fun c => (findStream s sl peer c rx).isNone), St.streamExists, 4),
   ((freeEntries s sl port classes.length).length == classes.length, St.resourceExhausted, 3),
   ((findPair s sl peer rx).isSome || (freePair s).isSome, St.resourceExhausted, 4),
   (pairOn s sl peer rx port || decide (2 ≤ cacheFree s port), St.resourceExhausted, 5)]

/-! ### Received groups without a result (R285, R288) -/

/-- The pending groups of a port whose payload has begun to be forwarded (R288). -/
def unverified (s : State) (port : Nat) : Nat := (s.link.pend.filter (fun g => g.port == port && g.fwd && !g.verified)).length

/-- A port returns to forwarding on arrival (R288). -/
def leaveSav (port : Nat) (s : State) : State :=
  if (s.port port).sav && decide (unverified s port ≤ 192) then updPort port (fun x => { x with sav := false }) s else s

/-! ### Messages of the firmware in class 15 (R110, R112, R264) -/

/-- The port of a slice's class-15 streams: the lowest wired port in DIRECT mode, else the lowest wired one (log 27). -/
def edgePort (s : State) : Option Nat :=
  match (List.range 18).find? (fun p => (s.port p).mode == 0) with
  | some p => some p
  | none => (List.range 18).find? (wired s)

/-- The header of a domain message (R110). -/
def domHeader (type len id attempt sender receiver seq : Nat) : Bytes :=
  leBytes 2 type ++ [1, 0] ++ leBytes 4 len ++ leBytes 8 id ++ leBytes 4 attempt ++ leBytes 2 sender ++ leBytes 2 receiver ++ leBytes 8 seq

/-- The payloads of the groups that carry a message: each repeats its header, which R267 looks at, before at most 4,064 octets of
the body (log 27). -/
def fragments (header body : Bytes) : List Bytes :=
  (List.range (max 1 ((body.length + 4063) / 4064))).map (fun i => header ++ (body.drop (4064 * i)).take 4064)

/-- ROLL_CHALLENGE and ROLL_ANSWER travel as plain groups (R112). -/
def plainType (type : Nat) : Bool := decide (type ∈ [1, 2])

/-- A plain group (R112, R267): no trailer, no encryption, counter 0. -/
def sendPlain (sl dest : Nat) (payload : Bytes) (s : State) : State :=
  match edgePort s with
  | none => s
  | some port =>
    let d := s.domain sl
    let gsh := gshBytes false true false 15 (peerSlice d dest) d.member dest payload.length 0 1 (d.attempt % 256)
    let s := putGroup port sl gsh (descBytes 0 0 0 payload.length 0) payload [] s
    portCount port 4 1 (portCount port 6 (16 + payload.length) s)

/-- One group of a message toward a member: plain, or on the slice's open class-15 stream to it (R112). -/
def sendFragment (sl dest type : Nat) (payload : Bytes) (s : State) : State :=
  if plainType type then sendPlain sl dest payload s
  else match findStream s sl dest 15 false with
    | some e => if (s.stream e).isOpen then sendControl e false payload s else s
    | none => s

/-- Send a domain message afresh under the slice's next SEQUENCE toward a member (R110, R112). -/
def sendDom (sl dest type : Nat) (body : Bytes) (s : State) : State :=
  let d := s.domain sl
  let n := d.seqOut.get dest + 1
  let header := domHeader type (32 + body.length) d.id d.attempt d.member dest n
  let s := updDom sl (fun d => { d with seqOut := d.seqOut.set dest n, sent := d.sent ++ [{ dest, type, seq := n, body }] }) s
  (fragments header body).foldl (fun s p => sendFragment sl dest type p s) s

/-- A verified class-15 payload, or a plain one, reaches the firmware (R112, R267): a message gathers its groups under the header
that each repeats (log 27). What is no message of the sender's is dropped. -/
def gatherMsg (sl sender : Nat) (plain : Bool) (payload : Bytes) (s : State) : State :=
  let header := payload.take 32
  let len := field header 4 4
  let here (m : FwMsg) : Bool := m.slice == sl && m.plain == plain && m.data.take 32 == header && decide (m.data.length < len)
  if payload.length < 32 || field header 2 1 != 1 || field header 3 1 != 0 || field header 0x14 2 != sender || len < payload.length ||
      plainType (field header 0 2) != plain then s
  else if s.link.inbox.any here then
    { s with link := { s.link with inbox := mapIf here (fun m => { m with data := m.data ++ payload.drop 32 }) s.link.inbox } }
  else { s with link := { s.link with inbox := s.link.inbox ++ [{ slice := sl, plain, data := payload }] } }

end Sys2Proof.Machine
end

