-- ==== Sys2Proof/Machine/Abort.lean ====
section
/-!
DEFINITION. Zeroization of slots (R63, R64), the loss of a slice's keys and its consequences (R136, R146, R233), and domain
aborts (R133-R137), as shared operations.
-/
namespace Sys2Proof.Machine

/-! ### Slots -/

/-- Zeroize the slots that a test picks: key and metadata return to their reset values, every engine register loaded from
one is cleared, and a key-work request that uses one is marked to discard its output (R63, R64). -/
def zeroizeSlots (p : Nat → Slot → Bool) (s : State) : State :=
  let ns := s.kst.findAll p
  { s with
    kst := ns.foldl (fun t n => t.set n {}) s.kst,
    engKeys := s.engKeys.filter (fun k => match k.slot with | some n => !decide (n ∈ ns) | none => true),
    kwe := { s.kwe with current := s.kwe.current.map (kweKill ns), queue := s.kwe.queue.map (kweKill ns) } }
where
  /-- a request that names a zeroized slot completes without a result -/
  kweKill (ns : List Nat) (r : KweReq) : KweReq :=
    if decide (r.src ∈ ns) || (match r.op with | .wrap n _ => decide (n.toNat ∈ ns) | _ => false) then { r with dead := true } else r

/-- The slots of a slice's partition. -/
def inPartition (s : State) (sl n : Nat) : Bool :=
  let r := (s.slice sl).keys
  decide (r.1 ≤ n) && decide (n < r.1 + r.2)

/-! ### Domain state -/

/-- DOM_LIVE is high while a slice is LIVE (R102). -/
def updDomLive (s : State) : State :=
  { s with pins := { s.pins with domLive := (List.range 16).any (fun i => (s.domain i).state == 3) } }

/-- The receive counts of a slice start again (R285): the groups accepted before stand outside them, pending until their own
results. -/
def restartGate (sl : Nat) (s : State) : State :=
  let z (t : Tbl Nat) : Tbl Nat := (List.range 18).foldl (fun t p => t.set (gateKey p sl) 0) t
  { s with
    ac := z s.ac, vt := z s.vt,
    link := { s.link with pend := mapIf (fun g => g.slice == sl) (fun g => { g with seq := 0 }) (s.link.pend.filter (fun g => g.slice != sl || !g.verified)) } }

/-- What a slice has received and has no result is discarded (R303), with its marks and its messages at the firmware; the ports
whose groups go may return to forwarding (R288). -/
def resetGate (sl : Nat) (s : State) : State :=
  let s := restartGate sl s
  (List.range 18).foldl (fun s p => leaveSav p s) { s with link := { s.link with
    pend := s.link.pend.filter (fun g => g.slice != sl), marks := s.link.marks.filter (fun m => m.slice != sl)
    inbox := s.link.inbox.filter (fun m => m.slice != sl) } }

/-- A slice enters a domain state: the DOMAIN_STATE record (R353, R380), and on KEYED the fresh counts, high-water marks,
window and domain sequence numbers (R179, R201, R285, R347). -/
def setDomState (sl st : Nat) (s : State) : State :=
  let s := updDomLive (updDom sl (fun d => { d with state := st }) s)
  let s := if st == 2 then
      let s := restartGate sl s
      let r := (s.slice sl).regions
      { s with
        mem := { s.mem with
          mark := (rangeFrom r.1 r.2).foldl (fun t i => t.set i none) s.mem.mark
          window := s.mem.window.set sl 0 },
        cex := { s.cex with groups := (List.range 64).foldl (fun t g => t.upd (sl * 64 + g) (fun x => { x with dseq := 0 })) s.cex.groups } }
    else s
  raise [sl, 16] 3 0x8001 (st + (s.domain sl).attempt * 2 ^ 32) s

/-! ### Regions of a slice that loses its keys -/

/-- Drop what waits in the engines for a region (R146, R175, R213, R259): writes with their record, the reads of the host and of block DMA as
poison, the block's own reads without an outcome; corrections stop at the next candidate. -/
def flushRegion (r : Nat) (s : State) : State :=
  let ws := s.mem.writes.filter (fun w => w.region == r)
  let rs := s.mem.reads.filter (fun w => w.region == r)
  let s := dropReads (fun x => x.region == r) { s with mem := { s.mem with
    writes := s.mem.writes.filter (fun w => w.region != r), rebases := s.mem.rebases.filter (fun f => f.region != r),
    cache := s.mem.cache.filter (fun c => c.region != r) } }
  let s := rs.foldl (fun s (x : MemRead) =>
    let s := if x.stage == .due then endCorr x.engine x.seq s else s
    if x.purpose.outside then poisonRead 0x05 x (some r) 0 0 s else s) s
  ws.foldl (fun s (w : MemWrite) => dropWrite 0x05 0x8012 w.engine w.ln w.req w.who (some r) false s) s

/-- The plough of a region ends: its record and next-epoch key set are freed (R233, R236). -/
def freePlough (r : Nat) (s : State) : State :=
  match ploughOf s r with
  | none => s
  | some p =>
    let s := clearKey 1 (4096 + p.set) (clearKey 2 (4096 + p.set) (clearKey 3 (4096 + p.set) s))
    { s with mem := { s.mem with ploughs := s.mem.ploughs.filter (fun x => x.region != r) } }

/-- A region enters KEYLESS (R146), a retiring one too: its plough ends (R233), its grantees lose their grant (R152). A region that is KEYLESS
already stays so. -/
def regionKeyless (r : Nat) (s : State) : State :=
  let x := s.region r
  if !x.valid || x.mode == 3 || x.state == 4 then s
  else
    let s := updRegion r (fun x => { x with state := 4, importing := false, define := none, closing := false, window := false, ending := none }) s
    let s := freePlough r (flushRegion r s)
    (List.range 16).foldl (fun s g => if bit x.grants g then raise [x.slice, g, 16] 5 0x8015 r s else s) s

/-- Every protected region of a slice enters KEYLESS. -/
def regionsKeyless (sl : Nat) (s : State) : State :=
  (s.mem.regions.findAll (fun _ r => r.valid && r.slice == sl && r.mode != 3)).foldl (fun s r => regionKeyless r s) s

/-! ### Streams, sheaves and work of a slice that loses its keys -/

/-- The streams and pair records of a slice end with its keys (R270, R276); its held TLPs are dropped (log 18). -/
def dropStreams (sl : Nat) (s : State) : State :=
  let es := s.link.streams.findAll (fun _ x => x.slice == sl && x.state != 0)
  let ps := s.link.pairs.findAll (fun _ x => x.slice == sl && x.valid)
  let s := { s with
    link := { s.link with
      streams := es.foldl (fun t e => t.set e {}) s.link.streams
      pairs := ps.foldl (fun t e => t.set e {}) s.link.pairs
      txOpen := (List.range 18).foldl (fun t p => t.upd p (fun l => l.filter (fun g => !decide (g.stream ∈ es)))) s.link.txOpen
      txWaits := s.link.txWaits.filter (fun w => !decide (w.stream ∈ es))
      drains := s.link.drains.filter (fun d => !decide (d.pair ∈ ps))
      waits := s.link.waits.filter (fun w => field w.gsh 1 1 / 16 != sl)
      egress := s.link.egress.filter (fun t => t.slice != sl)
      gw := s.link.gw.filter (fun t => t.slice != sl)
      closing := s.link.closing.filter (fun c => !c.2.any (fun e => decide (e ∈ es))) },
    engKeys := s.engKeys.filter (fun k => !(k.cls == 4 && decide ((k.index / 2 ^ 33) % 8192 ∈ ps))) }
  resetGate sl s

/-- The open sheaves of a slice end (R325). -/
def dropSheaves (sl : Nat) (s : State) : State :=
  let ks := s.sheaf.ctxs.findAll (fun _ c => c.state != 0 && c.slice == sl)
  { s with
    sheaf := { s.sheaf with ctxs := ks.foldl (fun t k => t.set k {}) s.sheaf.ctxs },
    engKeys := s.engKeys.filter (fun k => !(k.cls == 6 && decide (k.index ∈ ks))) }

/-- The abort cookie (R351). -/
def abortCookie (cause origin attempt : Nat) : Nat :=
  0xAB * 2 ^ 56 + (cause % 256) * 2 ^ 48 + (origin % 65536) * 2 ^ 32 + attempt % 2 ^ 32

/-- Commands of a slice in flight: fetched, and with no result yet, but for one key (R136 step 4). -/
def inFlightOf (s : State) (sl : Nat) (but : Option CmdKey) : List CmdKey :=
  (s.cex.queues.ents.map (fun q => (q.2.flights.filter (fun f =>
    f.phase != .done && f.phase != .completed && rawSlice f.raw == sl && some f.key != but)).map (·.key))).flatten

/-- The graph handles of the running launches among some commands. -/
def launchesOf (ks : List CmdKey) (s : State) : List Nat :=
  (s.cex.queues.ents.map (fun q => (q.2.frames.filter (fun f => decide (f.key ∈ ks))).filterMap (·.handle))).flatten

/-- Forget what waits for commands that have ended: waits, held fences, running frames. -/
def forget (ks : List CmdKey) (s : State) : State :=
  { s with cex := { s.cex with
    waits := s.cex.waits.filter (fun w => !decide (w.key ∈ ks))
    holds := s.cex.holds.filter (fun w => !decide (w.key ∈ ks))
    graphs := (launchesOf ks s).foldl (fun t h => t.upd h (fun g => { g with launches := g.launches - 1 })) s.cex.graphs
    groups := s.cex.groups.mapEnts (fun _ g => { g with waits := g.waits.filter (fun w => !decide (w.key ∈ ks)) })
    queues := s.cex.queues.mapEnts (fun _ q => { q with frames := q.frames.filter (fun f => !decide (f.key ∈ ks)) }) } }

/-- End commands with a status and a DETAIL. -/
def endAll (ks : List CmdKey) (status detail : Nat) (s : State) : State :=
  forget ks (ks.foldl (fun s k => finish k status detail s) s)

/-- The actions by which a slice loses its keys: slots, PKE entry, regions, streams, sheaves, work (R63, R90, R136). -/
def zeroizeSlice (sl : Nat) (s : State) : State :=
  let s := zeroizeSlots (fun n _ => inPartition s sl n) s
  let s := { s with
    pke := s.pke.set (2 + sl) {},
    kwe := { s.kwe with current := s.kwe.current.map (fun (r : KweReq) => if r.who == sl then { r with dead := true } else r) },
    cex := { s.cex with groups := (List.range 64).foldl (fun t g => t.upd (sl * 64 + g) (fun x => { x with waits := [], colls := [], closed := [] })) s.cex.groups } }
  let s := { s with mem := { s.mem with window := s.mem.window.set sl 0, closeKey := s.mem.closeKey.set sl none } }
  dropSheaves sl (dropStreams sl (regionsKeyless sl s))

/-- Open dictionary transactions that an event ends (R457): the next message of each receives TRANSFER_ABORTED. -/
def endTrans (p : DictTrans → Bool) (s : State) : State :=
  { s with ods := { s.ods with
    trans := s.ods.trans.filter (fun t => !p t)
    ended := s.ods.ended ++ (s.ods.trans.filter p).map (fun t => (t.path, t.requester, t.tag)) } }

/-! ### Domain messages and the tree -/

/-- Does a slice accept a domain message of this header (R110)? -/
def domAccepts (s : State) (sl : Nat) (h : DomHdr) : Bool :=
  let d := s.domain sl
  decide (d.state ∈ [1, 2, 3]) && h.domain.toNat == d.id && h.attempt.toNat == d.attempt && h.receiver.toNat == d.member &&
    decide (d.seqIn.get h.sender.toNat < h.sequence.toNat)

/-- The octets of a message behind its header (R110). -/
def domBytes (h : DomHdr) (type : Nat) (body : Bytes) : Bytes :=
  domHeader type (32 + body.length) h.domain.toNat h.attempt.toNat h.sender.toNat h.receiver.toNat h.sequence.toNat ++ body

/-- The firmware takes a whole message that class 15 has brought it (R112); nothing happens for one that it has not. -/
def fromInbox (sl : Nat) (h : DomHdr) (type : Nat) (body : Bytes) (s : State) (f : State → State) : State :=
  let m : FwMsg := { slice := sl, plain := plainType type, data := domBytes h type body }
  if decide (m ∈ s.link.inbox) then f { s with link := { s.link with inbox := s.link.inbox.erase m } } else s

/-- A message that its header admits has its effect, with its SEQUENCE noted; any other is discarded (R110). -/
def admitDom (sl : Nat) (h : DomHdr) (s : State) (f : State → State) : State :=
  if domAccepts s sl h then f (updDom sl (fun d => { d with seqIn := d.seqIn.set h.sender.toNat h.sequence.toNat }) s) else s

/-- A domain message of a type and a body reaches a slice (R110, R112). -/
def takeDom (sl : BitVec 4) (h : DomHdr) (type : Nat) (body : Bytes) (s : State) (f : State → State) : State :=
  fromInbox sl.toNat h type body s (fun s => admitDom sl.toNat h s f)

/-- The members that the evidence record's exception list names (R115). -/
def excepted (d : Dom) : List Nat := (List.range (field d.evidence 0x18 2)).map (fun i => field d.evidence (0x110 + 4 * i) 2)

/-- Is a member included in the domain (R115, R120)? -/
def included (d : Dom) (m : Nat) : Bool := decide (m < d.count) && !decide (m ∈ excepted d)

/-- Tree position of a member (R109). -/
def treePos (d : Dom) (m : Nat) : Nat := (m + d.count - d.masthead) % d.count
/-- The member at a position. -/
def treeMember (d : Dom) (p : Nat) : Nat := (p + d.masthead) % d.count
/-- The tree parent of a member (R109). -/
def treeParent (d : Dom) (m : Nat) : Option Nat :=
  let p := treePos d m
  if p = 0 then none else some (treeMember d ((p - 1) / 16))
/-- The tree children of a member (R109). -/
def treeChildren (d : Dom) (m : Nat) : List Nat :=
  ((rangeFrom (16 * treePos d m + 1) 16).filter (fun p => decide (p < d.count))).map (treeMember d)
/-- Levels below a position (R109), by descent to the first child. -/
def treeHeight (d : Dom) : Nat → Nat → Nat
  | 0, _ => 0
  | n + 1, p => if 16 * p + 1 < d.count then 1 + treeHeight d n (16 * p + 1) else 0

/-- The neighbours of a member: tree parent or adopter, tree children, adoptees (R135). -/
def neighbours (d : Dom) : List Nat :=
  ((match d.parent with | some p => [p] | none => (treeParent d d.member).toList) ++ treeChildren d d.member ++
    (d.children.filter (·.adopted)).map (·.member)).eraseDups

/-- The body of ABORT (R133). -/
def abortBody (cause flags origin detail : Nat) : Bytes :=
  leBytes 1 cause ++ leBytes 1 flags ++ leBytes 2 origin ++ leBytes 4 detail

/-- Can a member be reached: is a class-15 stream to it open (R135, R295)? -/
def reachable (s : State) (sl m : Nat) : Bool :=
  match findStream s sl m 15 false with | some e => (s.stream e).isOpen | none => false

/-- Where an ABORT for a neighbour goes: to it, or, when it cannot be reached, past it (R135). -/
def relayTargets (s : State) (sl m : Nat) : List Nat :=
  let d := s.domain sl
  if reachable s sl m then [m]
  else if (d.parent.or (treeParent d d.member)) == some m then (treeParent d m).toList
  else treeChildren d m

/-- A class-15 transmit stream to a member that is no neighbour, under DLK, for a slice that holds it (R112, R135, R273). -/
def openControl (sl m : Nat) (s : State) : State :=
  match edgePort s with
  | none => s
  | some port =>
    if m == (s.domain sl).member || (firstFail (roomChecks s sl m port [15] false ++ dlkChecks s sl)).isSome then s
    else (openStreams sl m port [15] false false s).1

/-- Relay an ABORT once to every neighbour but the one it came from (R135); a member that holds no halyard key sends nothing
(R131). DISSOLVE goes down the tree only (R137). -/
def relay (sl cause origin detail : Nat) (came : Option Nat) (s : State) : State :=
  let d := s.domain sl
  if d.relayed then s
  else
    let s := updDom sl (fun d => { d with relayed := true }) s
    let ns := if cause == 0 then treeChildren d d.member ++ (d.children.filter (·.adopted)).map (·.member) else neighbours d
    let ts := ((ns.filter (fun m => some m != came)).flatMap (relayTargets s sl)).eraseDups.filter (fun m => some m != came && m != d.member)
    ts.foldl (fun s m =>
      sendDom sl m (if cause == 0 then 7 else 6) (if cause == 0 then [] else abortBody cause 1 origin detail) (openControl sl m s)) s

/-- The formation in progress ends; the record keeps its identity, its evidence and its last abort (R136). -/
def clearFormation (d : Dom) : Dom :=
  { d with
    roll := 0, children := [], parent := none, parentSlot := none, exceptions := [], formKey := none, releaseKey := none,
    formedAt := none, drk := none, erk := none, ssk := none, dlk := none, rmk := none, held := none, provable := false, sent := [] }

/-- R136, with cause 0 for DISSOLVE (R137): `but` is the command that performs it and completes on its own. -/
def abortSlice (sl cause origin detail : Nat) (came : Option Nat) (but : Option CmdKey) (s : State) : State :=
  let d := s.domain sl
  if d.state == 0 || d.state == 4 then s
  else
    let cookie := abortCookie cause origin d.attempt
    let s := endTrans (fun t => t.path == 2 && t.requester / 65536 == d.id) (relay sl cause origin detail came (setDomState sl 4 s))
    let ks := inFlightOf s sl but
    let s := endAll ks 0x0006 cookie (zeroizeSlice sl s)
    let s := updDom sl (fun d => { clearFormation d with
      abortCause := cause, abortOrigin := origin, abortCount := if cause == 0 then d.abortCount else d.abortCount + 1 }) s
    let s := raise [sl, 16] 4 0x8002 cookie s
    let s := if cause == 0 then s else pend 435 (logError 0x20 52 sl 0 cookie cause s)
    setDomState sl 0 s

/-- A domain-fatal finding of this member (R134, R499): the slice originates ABORT when it is in a domain. -/
def originate (sl cause detail : Nat) (s : State) : State :=
  abortSlice sl cause (s.domain sl).member detail none none s

/-- The aborts for a line of a region: the owner's and every grantee's (R172, R254). -/
def abortRegion (r cause detail : Nat) (s : State) : State :=
  let x := s.region r
  ((List.range 16).filter (fun g => g == x.slice || bit x.grants g)).foldl (fun s g => originate g cause detail s) s

end Sys2Proof.Machine
end

