-- ==== Sys2Proof/Machine/Tree.lean ====
section
/-!
DEFINITION. The counter tree and its caches (R181-R200): versions, fetches, eviction, faults of counter lines, and the
fallow list that they feed (R251-R256).
-/
namespace Sys2Proof.Machine

/-! ### Fallow entries -/

/-- Is a line in the range of a FALLOW entry (R253)? -/
def isFallow (s : State) (ln : Nat) : Bool :=
  s.mem.fallow.ents.any (fun e => e.2.state == 1 && decide (e.2.first ≤ ln) && decide (ln < e.2.first + e.2.count))

/-- The first free entry of the list (R252). -/
def freeFallow (s : State) : Option Nat := (List.range 256).find? (fun i => (s.mem.fallow.get i).state == 0)

/-- A line goes fallow (R251-R256): the entry, the FALLOW event, and the aborts of R254. `first` and `cnt` are the range. A failure inside an existing entry's range creates none, and one in a region that serves no reads
follows the REGION_STATE row of R172 (R254). -/
def goFallow (cause failed first cnt r e anchor : Nat) (s : State) : State :=
  let x := s.region r
  let granted := x.grants != 0
  let acause := if granted then 4 else 3
  if !(x.state == 1 || x.state == 2) then s
  else if s.mem.fallow.ents.any (fun f => f.2.state == 1 && decide (f.2.first ≤ first) && decide (first + cnt ≤ f.2.first + f.2.count)) then
    abortRegion r acause (r + 4096 * e + 65536 * 0x1FF + 2 ^ 25 * cause) s
  else
    let ss := (List.range 16).filter (fun g => (g == x.slice || bit x.grants g) && (s.domain g).state != 0)
    match freeFallow s with
    | none =>
      let s := logError 0x0B (9 + e) x.slice r failed cause { s with mem := { s.mem with fallowOver := true } }
      abortRegion r acause (r + 4096 * e + 65536 * 0x1FF + 2 ^ 25 * cause) s
    | some i =>
      let f : Fallow := { failed, first, count := cnt, region := r, slices := flagWord (ss.map (fun g => (g, true))), engine := e, cause, anchor, timestamp := s.now, state := 1 }
      let s := pend (69 + 8 * e) { s with mem := { s.mem with fallow := s.mem.fallow.set i f } }
      let s := raise (ownerRings s r) 5 0x8018 (i + 256 * r + 2 ^ 20 * cause) s
      abortRegion r acause (r + 4096 * e + 65536 * i + 2 ^ 25 * cause) s

/-! ### Versions -/

/-- The version that a slot of a counter line gives (R182). -/
def CLine.ver (c : CLine) (k : Nat) : Nat := c.major * 128 + c.minors.get k

/-- A resident counter line. -/
def cached (s : State) (r level i : Nat) : Option CLine :=
  s.mem.cache.find? (fun c => c.region == r && c.level == level && c.idx == i)

/-- The old copy of a counter line that a plough holds (R225). -/
def oldCopy (s : State) (r level i : Nat) : Option CLine :=
  match ploughOf s r with
  | some p => p.old.find? (fun c => c.level == level && c.idx == i)
  | none => none

/-- Does a line of `level` (0 for data) take its version from the new copy of its parent (R225)? -/
def usesNew (s : State) (r level i : Nat) : Bool :=
  match ploughOf s r with
  | some p => if level = 0 then lineMoved p i else lineOpened p level i
  | none => true

/-- The counter line that gives line `i` of `level` its version, when it is resident: the old copy for a child that the
plough has not reached, else the cached line (R182, R225). -/
def parentOf (s : State) (r level i : Nat) : Option CLine :=
  match (if usesNew s r level i then none else oldCopy s r (level + 1) (i / 128)) with
  | some c => some c
  | none => cached s r (level + 1) (i / 128)

/-- The rebase of the counter line that gives line `i` of `level` its version (R195). -/
def rebaseOver (s : State) (r level i : Nat) : Option Rebase :=
  s.mem.rebases.find? (fun b => b.region == r && b.level == level + 1 && b.idx == i / 128 &&
    b.old == (!usesNew s r level i && (oldCopy s r (level + 1) (i / 128)).isSome))

/-- The version of line `i` of `level`, when its parent is resident: the crown entry for level 3 (R182), the old or the new
version while the parent is rebased (R180, R195). -/
def versionOf (s : State) (r level i : Nat) : Option Nat :=
  if level = 3 then some (s.mem.crown.get ((s.region r).crownFirst + i))
  else match parentOf s r level i with
    | none => none
    | some c => match rebaseOver s r level i with
      | some b => if i % 128 < b.next then some (c.ver (i % 128)) else some (b.major * 128 + b.minors.get (i % 128))
      | none => some (c.ver (i % 128))

/-- The content of a counter line as 128 octets (R181). -/
def CLine.bytes (c : CLine) : Line :=
  leBytes 128 (c.major + 2 ^ 64 * ((List.range 128).foldr (fun k acc => c.minors.get k % 128 + 128 * acc) 0))

/-- The counters that 128 octets spell; none when a reserved bit is set or MAJOR is above 2^57 - 1 (R181). -/
def counterFields (l : Line) : Option (Nat × Tbl Nat) :=
  let x := leNat (fit 128 l)
  let major := x % 2 ^ 64
  if 2 ^ 57 ≤ major || x / 2 ^ 960 != 0 then none
  else some (major, (List.range 128).foldl (fun t k => t.set k ((x / 2 ^ (64 + 7 * k)) % 128)) (Tbl.const 0))

/-- Which side a counter line's stored copy is on: an opened line is in the new epoch (R225). -/
def counterSide (s : State) (r level i : Nat) : Bool :=
  match ploughOf s r with | some p => lineOpened p level i | none => false

/-- Change the counter line that serves line `i` of `level`, in the cache or among the old copies. -/
def updParent (r level i : Nat) (f : CLine → CLine) (s : State) : State :=
  let hit (c : CLine) : Bool := c.region == r && c.level == level + 1 && c.idx == i / 128
  if (!usesNew s r level i) && (oldCopy s r (level + 1) (i / 128)).isSome then updPlough r (fun p => { p with old := mapIf hit f p.old }) s
  else { s with mem := { s.mem with cache := mapIf hit f s.mem.cache } }

/-- A resident counter line is used: the least-recently-used order of its cache (R190). -/
def touch (r level i : Nat) (s : State) : State :=
  { s with mem := { s.mem with
    useCtr := s.mem.useCtr + 1,
    cache := mapIf (fun c => c.region == r && c.level == level && c.idx == i) (fun c => { c with use := s.mem.useCtr }) s.mem.cache } }

/-- A counter line is used, and with it the parents that keep it verified. -/
def touchPath (r level i : Nat) (s : State) : State :=
  (rangeFrom level (4 - level)).foldl (fun s l => touch r l (i / 128 ^ (l - level)) s) s

/-! ### Exhaustion -/

/-- VERSION_EXHAUSTED stands for a region from its first line on (R196, R197, R216); each finding raises the event. -/
def raiseExhausted (r off : Nat) (s : State) : State :=
  raise (ownerRings s r) 5 0x8014 (r * 2 ^ 52 + off) (pend 241 (updRegion r (fun x => { x with exhausted := true }) s))

/-! ### Write-back and eviction (R189-R191) -/

/-- Is a resident line pinned: has it a resident child, or is it being rebased (R189, R194)? -/
def pinned (s : State) (c : CLine) : Bool :=
  s.mem.cache.any (fun d => d.region == c.region && d.level + 1 == c.level && d.idx / 128 == c.idx) ||
  s.mem.rebases.any (fun b => b.region == c.region && b.level == c.level && b.idx == c.idx && !b.old)

/-- The slot of a counter line in its parent, ready to be incremented: none when the parent is being rebased or must be
rebased first, or its version space ends (R191, R195, R197). -/
def bumpParent (c : CLine) (s : State) : Option (State × Nat) :=
  let r := c.region
  if c.level = 3 then
    let i := (s.region r).crownFirst + c.idx
    let v := s.mem.crown.get i
    if v = 2 ^ 64 - 1 then none else some ({ s with mem := { s.mem with crown := s.mem.crown.set i (v + 1) } }, v + 1)
  else
    let k := c.idx % 128
    match parentOf s r c.level c.idx with
    | none => none
    | some p =>
      if (rebaseOver s r c.level c.idx).isSome || p.minors.get k = 127 then none
      else some (updParent r c.level c.idx (fun p => { p with minors := p.minors.set k (p.minors.get k + 1), dirty := true }) s, p.ver k + 1)

/-- Is a dirty line unable ever to be written back before a plough (R197)? -/
def blockedForever (s : State) (c : CLine) : Bool :=
  if c.level = 3 then s.mem.crown.get ((s.region c.region).crownFirst + c.idx) == 2 ^ 64 - 1
  else match parentOf s c.region c.level c.idx with
    | some p => p.minors.get (c.idx % 128) == 127 && p.major == 2 ^ 57 - 1
    | none => false

/-- Store a counter line, and for levels 2 and 3 its mirror, under one version (R184, R191 step 3). -/
def storeCounter (c : CLine) (v : Nat) (s : State) : State :=
  let x := s.region c.region
  let ln := counterLn x c.level c.idx
  let s := mcCount c.engine 8 128 (mcCount c.engine 3 1 (storeProtected c.engine c.region c.newer false ln 0 v c.bytes s))
  if 2 ≤ c.level then
    let ml := mirrorLn x c.level c.idx
    mcCount c.engine 8 128 (mcCount c.engine 4 1 (storeProtected (stackOf s ml) c.region c.newer false ml 0 v c.bytes s))
  else s

/-- A resident line leaves the cache, written back first when dirty (R191); none while that must wait. -/
def evict (c : CLine) (s : State) : Option State :=
  let gone (s : State) : State := { s with mem := { s.mem with
    cache := s.mem.cache.filter (fun d => !(d.region == c.region && d.level == c.level && d.idx == c.idx)) } }
  if !c.dirty then some (gone s)
  else match bumpParent c s with
    | none => none
    | some (s, v) => some (gone (storeCounter c v s))

/-- The least recently used line of a list. -/
def oldest : List CLine → Option CLine
  | [] => none
  | c :: cs => match oldest cs with
    | none => some c
    | some d => if d.use < c.use then some d else some c

/-- The resident descendants of a line. -/
def descendants (s : State) (c : CLine) : List CLine :=
  s.mem.cache.filter (fun d => d.region == c.region && decide (d.level < c.level) && d.idx / 128 ^ (c.level - d.level) == c.idx)

/-- The metadata-cache set of a counter line (R188). -/
def setOf (s : State) (c : CLine) : Nat := counterLn (s.region c.region) c.level c.idx % 1024

/-- The lines of a slice in one set of one engine's cache. -/
def setLines (s : State) (e set sl : Nat) : List CLine :=
  s.mem.cache.filter (fun c => c.engine == e && setOf s c == set && c.slice == sl)

/-- Is a line above another in its tree (R189)? -/
def CLine.above (d c : CLine) : Bool := d.region == c.region && decide (c.level < d.level) && c.idx / 128 ^ (d.level - c.level) == d.idx

/-- May a line leave the cache now: unpinned, and written back without waiting when it is dirty (R190, R191)? -/
def evictable (s : State) (c : CLine) : Bool := !pinned s c && (evict c s).isSome

/-- The line that goes next among a slice's lines in a set (R190): the least recently used that can be evicted; when every line is pinned, of
the descendants of the least recently used the least recently used of the deepest level. `keep` marks the lines that must stay. -/
def victim (keep : CLine → Bool) (ls : List CLine) (s : State) : Option CLine :=
  match oldest (ls.filter (fun c => !keep c && evictable s c)) with
  | some c => some c
  | none => match oldest (ls.filter (fun c => !keep c)) with
    | none => none
    | some c =>
      let ds := (descendants s c).filter (fun d => !keep d && evictable s d)
      oldest (ds.filter (fun d => ds.all (fun x => decide (d.level ≤ x.level))))

/-- VERSION_EXHAUSTED for the lines of a set that can never be written back, where it does not stand yet (R197). -/
def noteBlocked (ls : List CLine) (s : State) : State :=
  ls.foldl (fun s c => if c.dirty && blockedForever s c && !(s.region c.region).exhausted then raiseExhausted c.region (c.idx * 128 ^ (c.level + 1)) s else s) s

/-- Bring a slice's lines in a set below its way quota (R190): the state, and whether it succeeded. -/
def makeRoom (keep : CLine → Bool) : Nat → Nat → Nat → Nat → Nat → State → State × Bool
  | 0, _, _, _, _, s => (s, false)
  | n + 1, e, set, sl, quota, s =>
    let ls := setLines s e set sl
    if ls.length < quota then (s, true)
    else match victim keep ls s with
      | none => (noteBlocked ls s, false)
      | some c => match evict c s with
        | none => (s, false)
        | some s => makeRoom keep n e set sl quota s

/-- Put a verified counter line into its cache (R188-R190): its ancestors stay resident. False while no way can be freed. A line that is
resident is not put there twice. -/
def install (c : CLine) (s : State) : State × Bool :=
  if (cached s c.region c.level c.idx).isSome then (s, true)
  else
    let quota := (s.slice c.slice).ways.get c.engine
    match makeRoom (fun d => d.above c) (s.mem.cache.length + 1) c.engine (setOf s c) c.slice quota s with
    | (s, false) => (s, false)
    | (s, true) => (touchPath c.region c.level c.idx { s with mem := { s.mem with cache := s.mem.cache ++ [c] } }, true)

/-! ### Reads of counter lines -/

/-- Is a counter line being read: a fetch of it or of its mirror, or a rebase that holds its lock (R188, R194)? -/
def counterRead (s : State) (r level i : Nat) : Bool :=
  s.mem.reads.any (fun x => x.region == r && x.level == level && x.idx == i && (x.purpose.isFetch || x.purpose.isChild))

/-- A read of the block's own, of line `i` of a level. -/
def ownRead (s : State) (r level i : Nat) (mirror : Bool) (p : Purpose) : MemRead :=
  let x := s.region r
  let ln := if mirror then mirrorLn x level i else counterLn x level i
  {
    seq := 0, engine := stackOf s ln, ln, region := r, level, idx := i, purpose := p, req := 0x11, who := 0x11,
    newer := if level = 0 then newSide s r i else counterSide s r level i }

/-- Ask for a counter line that is neither resident nor on its way (R188, R192). -/
def fetchLine (r level i : Nat) (s : State) : State :=
  if (cached s r level i).isSome || counterRead s r level i then s
  else
    let x := ownRead s r level i false .counter
    startRead x (mcCount x.engine 2 1 s)

/-- Read the mirror of a counter line whose primary is lost (R199). -/
def fetchMirror (r level i anchor : Nat) (s : State) : State := startRead (ownRead s r level i true (.mirror anchor)) s

/-- Fetch every missing level over a data line, all at once (R192). -/
def fetchMissing (r n : Nat) (s : State) : State :=
  (rangeFrom 1 3).foldl (fun s l => if (parentOf s r (l - 1) (n / 128 ^ (l - 1))).isSome then s else fetchLine r l (n / 128 ^ l) s) s

/-- Begin the scrub re-read of a line after its write-back, unless the line was scrubbed within the last local second; a re-read that is
still to come is replaced (R258). The write-back goes first in the line's order. -/
def addScrub (r level i : Nat) (mirror newer : Bool) (v : Nat) (s : State) : State :=
  let x := ownRead s r level i mirror (.scrub v)
  if (s.mem.scrubbed.get x.engine).any (fun p => p.1 == x.ln && decide (s.now < p.2 + 1000000000)) then s
  else startRead { x with newer, cands := some [v] } (dropScrubs x.ln s)

/-- A calibration retry has its outcome: class CAL_RETRY with it, and CAL_RETRY_HIGH beyond 1,024 in a local second (R242, R243). -/
def noteRetry (x : MemRead) (outcome : Nat) (s : State) : State :=
  let e := x.engine
  let c := s.mem.cal.get e
  let ts := (c.retries.filter (fun t => decide (s.now < t + 1000000000))) ++ [s.now]
  let s := readLog 0x10 x outcome 0 { s with mem := { s.mem with cal := s.mem.cal.set e { c with retries := ts } } }
  if ts.length = 1025 then
    let d := e + ts.length * 2 ^ 32
    (raise [16] 9 0x8050 d s).emit (.tray 0x8050 d)
  else s

/-- The outcome of a tag failure (R172, R198): of a data line, or of a counter or mirror line. -/
def tagFailed (x : MemRead) (status : Nat) (s : State) : State :=
  let n := match x.cands with | some l => l.length | none => 0
  let s := if x.purpose.outside then poisonRead 0x07 x (some x.region) status n s else readLog 0x07 x status n (dropRead x s)
  let s := if x.level = 0 then s else pend 243 s
  abortRegion x.region 2 (x.region + 4096 * x.engine + (if x.level = 0 then 0 else 65536)) (meCount x.engine 5 1 s)

/-- The outcome of an uncorrectable DUE on a data line (R172, last row): in a region that serves no reads, its REGION_STATE row (R254). -/
def dueFailed (x : MemRead) (anchor tried : Nat) (s : State) : State :=
  let g := s.region x.region
  let cls := if g.state == 1 || g.state == 2 then 0x08 else 0x05
  let s := if x.purpose.outside then poisonRead cls x (some x.region) 2 tried s else readLog cls x 2 tried (dropRead x s)
  goFallow 1 x.ln x.ln 1 x.region x.engine anchor (meCount x.engine 8 1 s)

/-- A counter line lost in all its copies: it and its data lines, clipped to the region, go fallow (R200, R251). -/
def counterLost (x : MemRead) (anchor tried : Nat) (s : State) : State :=
  let g := s.region x.region
  let ln := counterLn g x.level x.idx
  let n0 := x.idx * 128 ^ x.level
  let s := pend 243 (meCount x.engine 8 1 (readLog 0x08 x 2 tried (dropRead x s)))
  goFallow (x.level + 1) ln (g.firstLn + n0) (min (128 ^ x.level) (g.lines - n0)) x.region x.engine anchor s

/-- A returned counter line that no correction saves (R199, R200): a lost primary of level 2 or 3 sends for its mirror. -/
def counterGone (x : MemRead) (anchor tried : Nat) (s : State) : State :=
  match x.purpose with
  | .mirror primary => counterLost x primary tried s
  | _ => if 2 ≤ x.level then fetchMirror x.region x.level x.idx anchor (dropRead x s) else counterLost x anchor tried s

/-- The counter line that verified octets spell (R181); none when they spell none. -/
def counterOf (s : State) (x : MemRead) (v : Nat) (c : Line) : Option CLine :=
  match counterFields (reveal s x.region x.newer x.ln 0 v c) with
  | none => none
  | some (major, minors) =>
    let g := s.region x.region
    some { region := x.region, level := x.level, idx := x.idx, engine := stackOf s (counterLn g x.level x.idx), slice := g.slice, major, minors, dirty := false, newer := x.newer, use := 0 }

/-- A mirror that verified restores its primary (R199): MIRROR_RECOVERED, the write-back and its re-read. -/
def restorePrimary (x : MemRead) (c : CLine) (v : Nat) (s : State) : State :=
  let ln := counterLn (s.region x.region) x.level x.idx
  let s := mcCount c.engine 8 128 (storeProtected c.engine x.region x.newer false ln 0 v c.bytes s)
  let s := mcCount c.engine 6 1 (meLog 0x0F c.engine ln 0x11 0x11 (some x.region) 0 0 s)
  addScrub x.region x.level x.idx false x.newer v (pend 242 (raise (ownerRings s x.region) 5 0x8017 (ln * 128) s))

/-- A fetched counter line has verified (R192): it enters its cache. False while no way can be freed; then it waits. A reserved bit set, or a
MAJOR out of range, is a tag failure (R181). -/
def takeCounter (x : MemRead) (v : Nat) (c : Line) (status : Nat) (s : State) : State × Bool :=
  match counterOf s x v c with
  | none => (tagFailed x status s, true)
  | some l => match install l s with
    | (s, false) => (s, false)
    | (s, true) =>
      let s := dropRead x s
      (match x.purpose with | .mirror _ => restorePrimary x l v s | _ => s, true)

end Sys2Proof.Machine
end

