-- ==== Sys2Proof/Machine/KeyOps.lean ====
section
/-!
DEFINITION. The checks on key slots that several commands share (R147, R219, R314).
-/
namespace Sys2Proof.Machine

/-- The checks on one region or sheaf key slot, in the order of R147: ownership, VALID, ZOA, class and binding. -/
def keyChecks (s : State) (sl slot cls region epoch cond : Nat) : List (Bool × Nat × Nat) :=
  let k := s.slot slot
  [(ownsSlot s sl slot, St.slotNotOwned, cond), (k.valid, St.keyZeroized, cond), (!k.zoa, St.usageViolation, cond),
   (k.eng && k.cls == cls && k.region == region && k.epoch == epoch, St.keyBinding, cond)]

/-- The three key slots of a region in the order data, tweak, tag (R147 condition 4, R219 condition 3). -/
def regionKeyChecks (s : State) (sl r epoch d w t cond : Nat) : List (Bool × Nat × Nat) :=
  keyChecks s sl d 1 r epoch cond ++ keyChecks s sl w 2 r epoch cond ++ keyChecks s sl t 3 r epoch cond

/-- Load a region's three keys into a key-set file entry (R144). -/
def loadRegionKeys (ix d w t : Nat) (s : State) : State :=
  loadKey 1 ix (s.slot d).key (some d) (loadKey 2 ix (s.slot w).key (some w) (loadKey 3 ix (s.slot t).key (some t) s))

/-- Clear a key-set file entry. -/
def clearRegionKeys (ix : Nat) (s : State) : State := clearKey 1 ix (clearKey 2 ix (clearKey 3 ix s))

end Sys2Proof.Machine
end

