-- ==== Sys2Proof/Machine/Furrow.lean ====
section
/-!
DEFINITION. What the plough does to a line and to its counters: the live furrow, the opening of counter lines, the rewriting (R221-R236).
-/
namespace Sys2Proof.Machine

/-! ### The live furrow -/

/-- The next line, from `n` on, that a plough of the region must move: in a one-shot region only the save range of a SEALED
region is moved (R227). -/
def skipTo (x : Region) (n : Nat) : Nat :=
  if x.mode != 2 then n
  else if x.save != 2 || decide (x.saveFirst + x.saveCount ≤ n) then x.lines
  else max n x.saveFirst

/-- The lowest line from `n` on that is not yet moved (R222). -/
def lowest (x : Region) (moved : List Nat) : Nat → Nat → Nat
  | 0, n => skipTo x n
  | k + 1, n => if skipTo x n ∈ moved then lowest x moved k (skipTo x n + 1) else skipTo x n

/-- A plough that stops holds no line any more: PLOUGH_PAUSED is raised for a pause (R232), and the PLOUGH commands of a region that retires
complete with the region-state status (R236). -/
def settlePlough (r : Nat) (s : State) : State :=
  match ploughOf s r with
  | none => s
  | some p =>
    if !(p.locked.isEmpty && p.moved.isEmpty) then s
    else if p.state = 2 && !p.told then
      pend 249 (raise [(s.region r).slice] 6 0x8022 (r + p.cause * 4096) (updPlough r (fun p => { p with told := true }) s))
    else if p.state = 4 then p.keys.foldl (fun s k => finish k 0x0036 0 s) (updPlough r (fun p => { p with keys := [] }) s)
    else s

/-- LF advances (R222): FURROW is persisted (R231), PLOUGH_PROGRESS raised, and old copies whose coverage LF has left are
dropped with their rebases (R225). -/
def advance (r : Nat) (s : State) : State :=
  match ploughOf s r with
  | none => s
  | some p =>
    let x := s.region r
    let lf := min x.lines (lowest x p.moved (p.moved.length + 1) p.lf)
    let keep (c : CLine) : Bool := decide (lf < (c.idx + 1) * 128 ^ c.level)
    let s := updPlough r (fun p => { p with lf, moved := p.moved.filter (fun n => decide (lf ≤ n)), old := p.old.filter keep }) s
    let s := { s with mem := { s.mem with rebases := s.mem.rebases.filter (fun b =>
      !(b.region == r && b.old && decide ((b.idx + 1) * 128 ^ b.level ≤ lf))) } }
    let s := updRegion r (fun x => { x with furrow := lf / 16384 }) s
    let g := s.mem.progressGib.get x.slice * 2 ^ 23
    settlePlough r (if g != 0 && decide (p.lf / g < lf / g) then pend 248 (raise [x.slice] 6 0x8021 (r + lf * 2 ^ 16) s) else s)

/-! ### Opening and rewriting -/

/-- The counter lines over a data line that the plough has still to open, with their levels (R225). -/
def toOpen (p : Plough) (n : Nat) : List Nat := (rangeFrom 1 3).filter (fun l => !lineOpened p l (n / 128 ^ l))

/-- Open a counter line (R225): the old copy, and the new copy with every counter 0; a level-3 line's crown entry goes to 0. A rebase of the
line goes on as one of its old copy. -/
def openLine (r l i : Nat) (s : State) : State :=
  match cached s r l i with
  | none => s
  | some c =>
    let s := updPlough r (fun p => { p with
      old := p.old ++ [c], oldCrown := if l = 3 then s.mem.crown.get ((s.region r).crownFirst + i) else p.oldCrown }) s
    let new : CLine := { c with major := 0, minors := Tbl.const 0, dirty := true, newer := true }
    { s with mem := { s.mem with
      cache := mapIf (fun d => d.region == r && d.level == l && d.idx == i) (fun _ => new) s.mem.cache
      rebases := mapIf (fun b => b.region == r && b.level == l && b.idx == i && !b.old) (fun b => { b with old := true }) s.mem.rebases
      reads := mapIf (fun x => x.region == r && x.level + 1 == l && x.idx / 128 == i && x.purpose == .child false) (fun x => { x with purpose := .child true }) s.mem.reads
      crown := if l = 3 then s.mem.crown.set ((s.region r).crownFirst + i) 0 else s.mem.crown } }

/-- The line's plaintext goes back under the new epoch and the line is moved (R222, R224). -/
def rewrite (r n v : Nat) (plain : Line) (s : State) : State :=
  match ploughOf s r with
  | none => s
  | some p =>
    let x := s.region r
    let ln := x.firstLn + n
    let e := stackOf s ln
    let s := updPlough r (fun p => { p with moved := n :: p.moved, locked := p.locked.filter (fun m => m != n) }) s
    let s := if x.mode = 0 then
        touchPath r 1 (n / 128) (updParent r 0 n (fun c => { c with minors := c.minors.set (n % 128) (c.minors.get (n % 128) + 1), dirty := true }) s)
      else s
    let v' := if x.mode = 0 then (match parentOf s r 0 n with | some c => c.ver (n % 128) | none => 1) else v - p.base
    let s := storeProtected e r true true ln x.mode v' plain s
    meCount e 4 128 (meCount e 3 128 (obsAdd 90 1 { s with mem := { s.mem with linesMoved := s.mem.linesMoved + 1 } }))

/-- A line that the plough read as POISONED is left as it is and counts as moved (log 74). -/
def passLine (r n : Nat) (s : State) : State :=
  updPlough r (fun p => { p with moved := n :: p.moved, locked := p.locked.filter (fun m => m != n) }) s

end Sys2Proof.Machine
end

