-- ==== Sys2Proof/Machine/Reads.lean ====
section
/-!
DEFINITION. The one path of every read through an engine (R162): its candidates, the verification of its word, the calibration retry
(R242), tag-guided correction (R167-R171), and its outcome for each purpose (R172, R192, R194, R228, R258).
-/
namespace Sys2Proof.Machine

/-! ### Rebases -/

/-- Does child `k` of a rebase exist and belong to it: inside the region, and on the side of the copy that is rebased (R225)? -/
def childOf (s : State) (b : Rebase) (k : Nat) : Bool :=
  let x := s.region b.region
  let j := b.idx * 128 + k
  decide (j < if b.level = 1 then x.lines else levelLines x (b.level - 1)) &&
    (if b.old then !usesNew s b.region (b.level - 1) j else usesNew s b.region (b.level - 1) j || (oldCopy s b.region b.level b.idx).isNone)

/-- Step a rebase past a child and past children that are not its own; the slot is freed after the last (R194 step 4). -/
def rebaseNext (b : Rebase) (s : State) : State :=
  let ks := (rangeFrom (b.next + 1) (127 - b.next)).filter (childOf s b)
  match ks with
  | [] => { s with mem := { s.mem with rebases := s.mem.rebases.erase b } }
  | k :: _ => { s with mem := { s.mem with rebases := mapIf (fun x => x == b) (fun x => { x with next := k }) s.mem.rebases } }

/-! ### Outcomes -/

/-- The mode under which a read's line is protected (R156, R184). -/
def lineMode (s : State) (x : MemRead) : Nat := if x.level = 0 then (s.region x.region).mode else 0

/-- Plaintext is delivered (R162 step 6). -/
def deliver (x : MemRead) (l : Line) (s : State) : State :=
  let two := match x.cands with | some l => decide (1 < l.length) | none => false
  meCount x.engine 3 128 (if two then obsAdd 88 1 (meCount x.engine 12 1 (respond x (some l) (dropRead x s))) else respond x (some l) (dropRead x s))

/-- The outcome of a read for the host or for block DMA (R172). -/
def missionDone (x : MemRead) (o : Verdict) (s : State) : State :=
  match o with
  | .ok v c _ => deliver x (reveal s x.region x.newer x.ln (lineMode s x) v c) s
  | .tagFail st => tagFailed x st s
  | .due a t => dueFailed x a t s
  | .poison => poisonRead 0x06 x (some x.region) 3 0 s

/-- The outcome of a rebase's read of a child (R194 step 3): it is stored under the new MAJOR; a POISONED data line counts as moved
(log 74). -/
def childDone (x : MemRead) (old : Bool) (o : Verdict) (s : State) : State :=
  match s.mem.rebases.find? (fun b => b.region == x.region && b.level == x.level + 1 && b.idx == x.idx / 128 && b.old == old) with
  | none => dropRead x s
  | some b =>
    let v' := (b.major + 1) * 128
    match o with
    | .ok v c st =>
      if x.level = 0 then
        let m := lineMode s x
        rebaseNext b (meCount x.engine 4 128 (meCount x.engine 3 128
          (storeProtected x.engine x.region x.newer false x.ln m v' (reveal s x.region x.newer x.ln m v c) (dropRead x s))))
      else match counterOf s x v c with
        | none => tagFailed x st s
        | some l => rebaseNext b (storeCounter l v' (dropRead x s))
    | .tagFail st => tagFailed x st s
    | .due a t => if x.level = 0 then dueFailed x a t s else counterGone x a t s
    | .poison => if x.level = 0 then rebaseNext b (readLog 0x06 x 3 0 (dropRead x s)) else counterGone x 0x7F 0 s

/-- The outcome of a plough read (R228). -/
def ploughDone (x : MemRead) (o : Verdict) (s : State) : State :=
  match o with
  | .ok v c _ => advance x.region (rewrite x.region x.idx v (reveal s x.region x.newer x.ln (lineMode s x) v c) (dropRead x s))
  | .tagFail st => tagFailed x st s
  | .due a t => dueFailed x a t s
  | .poison => advance x.region (passLine x.region x.idx (readLog 0x06 x 3 0 (dropRead x s)))

/-- PAGE_DEGRADED to the driver (R258). -/
def pageDegraded (ln : Nat) (again : Bool) (s : State) : State := raise [16] 9 0x8051 (ln * 128 + b2n again * 2 ^ 63) s

/-- The engine remembers that it scrubbed a line (R258). -/
def noteScrubbed (x : MemRead) (s : State) : State :=
  { s with mem := { s.mem with scrubbed := s.mem.scrubbed.upd x.engine (fun l => lastN 64 (l ++ [(x.ln, s.now)])) } }

/-- The outcome of a scrub re-read (R258). A mirror that fails leaves its primary, and nothing goes fallow (R200). -/
def scrubDone (x : MemRead) (o : Verdict) (s : State) : State :=
  let s := noteScrubbed x s
  let primary := x.level = 0 || x.ln == counterLn (s.region x.region) x.level x.idx
  match o with
  | .ok _ _ 0 => readLog 0x0C x 0 1 (dropRead x s)
  | .ok _ _ st => pageDegraded x.ln false (readLog 0x0D x st 1 (dropRead x s))
  | .tagFail st => tagFailed x st s
  | .due a t =>
    let s := meCount x.engine 8 1 (readLog 0x0E x 2 t (dropRead x s))
    if primary then goFallow 5 x.ln x.ln 1 x.region x.engine a s else s
  | .poison =>
    if x.level = 1 then counterLost x 0x7F 0 s
    else
      let s := readLog 0x06 x 3 0 (dropRead x s)
      if 2 ≤ x.level && primary then fetchMirror x.region x.level x.idx 0x7F s else s

/-- The outcome of a read of a counter or mirror line (R192, R198-R200). False while no way can be freed for it. -/
def counterDone (x : MemRead) (o : Verdict) (s : State) : State × Bool :=
  match o with
  | .ok v c st => takeCounter x v c st s
  | .tagFail st => (tagFailed x st s, true)
  | .due a t => (counterGone x a t s, true)
  | .poison => (counterGone x 0x7F 0 s, true)

/-- A read ends, by its purpose. False when it must wait. -/
def finishRead (x : MemRead) (o : Verdict) (s : State) : State × Bool :=
  match x.purpose with
  | .mission => (missionDone x o s, true)
  | .block _ _ => (missionDone x o s, true)
  | .child old => (childDone x old o s, true)
  | .plough => (ploughDone x o s, true)
  | .scrub _ => (scrubDone x o s, true)
  | .counter => counterDone x o s
  | .mirror _ => counterDone x o s

/-! ### Candidates and the word -/

/-- The version base of a side: B on the new side of a plough (R224). -/
def sideBase (s : State) (r : Nat) (newer : Bool) : Nat :=
  if newer then match ploughOf s r with | some p => p.base | none => 0 else 0

/-- The candidates of a read under the epoch chosen for it (R180, R224): the numbers given at acceptance on their side, or the version that
the counters give; none while a counter line is missing. -/
def candidates (s : State) (x : MemRead) : Option (List Nat) :=
  if x.purpose.outside || x.purpose.isFetch then
    (if x.level = 0 && (s.region x.region).mode == 3 then some []
     else match x.raw with
      | some l => let b := sideBase s x.region x.newer; some ((l.filter (fun v => decide (b ≤ v))).map (fun v => v - b))
      | none => (versionOf s x.region x.level x.idx).map (fun v => [v]))
  else x.cands

/-- What CAL_RETRY records as a retry's outcome (R242): the status of its word, or 4 for a failing tag. -/
def retryOutcome (w : RdWord) (v : Option Nat) : Nat := if w.status.toNat < 2 && v.isNone then 4 else w.status.toNat

/-- The word of a read meets its candidates (R162 steps 3-6, R242). A suspect word that fails waits until no announcement covers its
pseudo-channel, and is then read once more; a DUE waits for its report; the outcome of any other word is given. -/
def judgeWord (x : MemRead) (w : RdWord) (cands : List Nat) (s : State) : State :=
  let g := s.region x.region
  let open_ := x.level == 0 && g.mode == 3
  let v := if open_ then some 0 else checkTag s x.region x.newer x.ln (lineMode s x) cands w.cipher w.tag
  if x.suspect && (w.status == 2 || (decide (w.status.toNat < 2) && v.isNone)) then
    (if suspectPc s x.engine x.pc then s
     else updRead x.seq (fun y => { y with stage := .held, got := none, suspect := false, retried := true }) s)
  else
    let s' := if x.retried then noteRetry x (retryOutcome w v) s else s
    if open_ then
      (if 2 ≤ w.status.toNat then poisonRead 0x04 x (some x.region) w.status.toNat 0 s' else deliver x (fit 128 w.cipher) s')
    else if w.status == 3 then (finishRead x .poison s').1
    else if w.status == 2 then updRead x.seq (fun y => { y with stage := .due, got := none }) s'
    else match v with
      | none => (finishRead x (.tagFail w.status.toNat) s').1
      | some v =>
        let o := Verdict.ok v w.cipher w.status.toNat
        if (finishRead x o s').2 then (finishRead x o s').1 else (finishRead x o s).1

/-- Take a read whose data is at its engine as far as its candidates allow; a line that has gone fallow meanwhile returns poison (R253). -/
def decideRead (q : Nat) (s : State) : State :=
  match s.mem.reads.find? (fun x => x.seq == q) with
  | none => s
  | some x =>
    match x.stage, x.got with
    | .back, some w =>
      if x.purpose.outside && (s.region x.region).mode != 3 && isFallow s x.ln then poison x s
      else match (match x.cands with | some l => some l | none => candidates s x) with
        | none => s
        | some l => judgeWord { x with cands := some l } w l (updRead q (fun y => { y with cands := some l }) s)
    | _, _ => s

/-- Issue a read that nothing holds back any more, under the epoch that the furrow line now gives (R223, R259), and send for the counter lines
that it lacks (R192). -/
def pushRead (q : Nat) (s : State) : State :=
  match s.mem.reads.find? (fun x => x.seq == q) with
  | none => s
  | some x =>
    let data := x.level == 0 && x.purpose.outside
    let s := if x.stage == .held && !(data && lineLocked s x.region x.idx) then
        let y := if data then { x with newer := newSide s x.region x.idx } else x
        issueRead { y with cands := candidates s y } s
      else s
    if data && x.cands.isNone && (candidates s x).isNone then fetchMissing x.region x.idx s else s

/-- The numbers of a region's reads of a level. -/
def readsAt (s : State) (r l : Nat) : List Nat := (s.mem.reads.filter (fun x => x.region == r && x.level == l)).map (·.seq)

/-- Carry the reads of a region as far as they go: what has returned, from the top of the tree down (R192), then what may be issued. -/
def settleReads (r : Nat) (s : State) : State :=
  let s := [3, 2, 1, 0].foldl (fun s l => (readsAt s r l).foldl (fun s q => decideRead q s) s) s
  [3, 2, 1, 0].foldl (fun s l => (readsAt s r l).foldl (fun s q => pushRead q s) s) s

/-- Data reaches an engine (R162 step 2, R241). -/
def arrive (x : MemRead) (pc : Nat) (w : RdWord) (s : State) : State :=
  let s := updRead x.seq (fun y => { y with stage := .back, got := some w, pc, suspect := !x.retried && suspectPc s x.engine pc }) s
  settleReads x.region (if x.level = 0 then s else mcCount x.engine 8 128 s)

/-! ### Correction (R167-R171) -/

/-- The line that a correction found goes back to its place under the same version, and is read once more (R170, R258). -/
def writeBack (x : MemRead) (f : Line × BitVec 56 × Nat) (s : State) : State :=
  addScrub x.region x.level x.idx (x.level != 0 && x.ln != counterLn (s.region x.region) x.level x.idx) x.newer f.2.2
    (writeLine x.engine x.region 0x11 false x.ln f.1 f.2.1 (if x.level = 0 then s else mcCount x.engine 8 128 s))

/-- A correction has succeeded (R170, R171, R192, R258). The write-back is omitted for a line written since, or that its reader rewrites. A
counter line that finds no way keeps its corrected word. -/
def corrected (x : MemRead) (f : Line × BitVec 56 × Nat) (s : State) : State :=
  let s := pend (65 + 8 * x.engine) (updRegion x.region (fun g => { g with tgcCount := g.tgcCount + 1 }) (obsAdd 87 1 (meCount x.engine 7 1 s)))
  let o := Verdict.ok f.2.2 f.1 1
  match x.purpose with
  | .scrub _ => pageDegraded x.ln true (readLog 0x0D x 2 1 (dropRead x (noteScrubbed x s)))
  | .plough => (finishRead x o s).1
  | .child _ => (finishRead x o s).1
  | .mission | .block _ _ =>
    let stale := s.mem.writes.any (fun w => w.ln == x.ln && decide (x.seq < w.seq)) || newSide s x.region x.idx != x.newer
    let s := (finishRead x o s).1
    if stale then s else writeBack x f s
  | .counter | .mirror _ =>
    let s := if (counterOf s x f.2.2 f.1).isSome then writeBack x f s else s
    if (finishRead x o s).2 then (finishRead x o s).1
    else updRead x.seq (fun y => { y with stage := .back, got := some { status := 1, cipher := f.1, tag := f.2.1 } }) s

/-- A correction ends (R169): its handle is released, the next begins, its read gets its outcome. -/
def endCorrection (e : Nat) (c : Corr) (s : State) : State :=
  let s := endCorr e c.read s
  match s.mem.reads.find? (fun x => x.seq == c.read) with
  | none => s
  | some x => settleReads x.region (match c.found, c.ambiguous with
    | some f, false => corrected x f s
    | _, _ => (finishRead x (.due c.anchor c.tried) s).1)

/-- One candidate of the correction in progress on a stack has its answer (R169). -/
def takeAnswer (e : Nat) (a : Option (Line × BitVec 56)) (s : State) : State :=
  match s.mem.corr.get e with
  | [] => s
  | c :: rest =>
    match s.mem.reads.find? (fun x => x.seq == c.read) with
    | none => endCorr e c.read s
    | some x =>
      let f := tryRepair s x.region x.newer x.ln (lineMode s x) (x.cands.getD []) (c.found, c.ambiguous) a
      let c := { c with found := f.1, ambiguous := f.2, tried := c.tried + 1, todo := c.todo.drop 1 }
      let s := { s with mem := { s.mem with corr := s.mem.corr.set e (c :: rest) } }
      if c.ambiguous || c.todo.isEmpty then endCorrection e c s else nextErase e s

/-- A DUE report meets its read (R167, R169): the engine queues the correction and begins it when its stack has none. -/
def startCorrection (x : MemRead) (handle anchor : Nat) (s : State) : State :=
  let e := x.engine
  let s := meCount e 6 1 s
  if !(s.region x.region).tgc || anchor == 0x7F then settleReads x.region (finishRead x (.due anchor 0) s).1
  else
    let todo := (adjacency s anchor).take s.mem.tgcMax
    let idle := (s.mem.corr.get e).isEmpty
    if todo.isEmpty then settleReads x.region (finishRead x (.due anchor 0) (s.emit (.release e handle))).1
    else
      let s := { s with mem := { s.mem with corr := s.mem.corr.upd e (· ++ [{ read := x.seq, handle, anchor, todo }]) } }
      if idle then nextErase e s else s

end Sys2Proof.Machine
end

