-- ==== Sys2Proof/Machine/SheafOps.lean ====
section
/-!
DEFINITION. Shared operations of the sheaf: contributions (R306-R311), records and their tags (R316, R317), the end of a sheaf
(R315), and the block's hybrid signatures (R87, R89).
-/
namespace Sys2Proof.Machine

/-! ### Sheaf contributions (R306-R311) -/

/-- The sheaf's modulus, 2^127 - 1 (R306). -/
def sheafP : Nat := 2 ^ 127 - 1

/-- The coefficient of a line's global index (R307). -/
def sheafCoeff (ks : BitVec 256) (tag x : Nat) : Nat :=
  let b := leBytes 8 x ++ leBytes 4 tag ++ [0x53, 0, 0, 0]
  let c := ((Config.aes256 ks (toBlock b)).toNat % 2 ^ 127) % sheafP
  if c < 2 then c + 2 else c

/-- A line's contribution under a coefficient, in Horner's form (R306). -/
def sheafLine (c : Nat) (l : Line) : Nat :=
  (List.range 16).foldr (fun t acc => ((acc + field l (8 * t) 8 + 2 ^ 64) * c) % sheafP) 0

/-- The open sheaf context that names a region (R310); at most one does (R314 condition 4). -/
def sheafOf (s : State) (r : Nat) : Option Nat :=
  (s.sheaf.ctxs.findAll (fun _ c => c.state == 1 && c.parts.any (fun p => p.1 == r))).head?

/-- Add a stored line to the context it was accepted for (R311). -/
def sheafAdd (k : Option Nat) (e r off : Nat) (imported : Bool) (l : Line) (s : State) : State :=
  match k with
  | none => s
  | some k =>
    let c := s.sheaf.ctxs.get k
    match c.parts.find? (fun p => p.1 == r) with
    | none => s
    | some p =>
      let v := sheafLine (sheafCoeff (engKey s 6 k) p.2.1 (p.2.2 + off)) l
      let c := { c with
        lines := c.lines + 1, importLines := c.importLines + b2n imported,
        partials := c.partials.upd e (fun x => (x + v) % sheafP) }
      { s with sheaf := { s.sheaf with
        ctxs := s.sheaf.ctxs.set k c, linesTotal := s.sheaf.linesTotal.upd c.slice (· + 1) } }

/-! ### Records -/

/-- The fields of a sheaf record (R316) but for its IV and tag; MEMBERS as a number whose bit `m` is member `m`. -/
structure SheafRec where
  flags : Nat
  domain : Nat
  attempt : Nat
  id : Nat
  issuer : Nat
  lines : Nat
  expected : Nat
  digest : Nat
  bound : Nat
  members : Nat
  deriving DecidableEq, Repr

/-- Bytes 0x000 to 0x25F of a record (R316). -/
def SheafRec.body (x : SheafRec) (iv : BitVec 96) : Bytes :=
  [0x53, 0x48, 0x46, 0x31] ++ leBytes 2 1 ++ leBytes 1 x.flags ++ [0] ++ leBytes 8 x.domain ++ leBytes 4 x.attempt ++ leBytes 4 x.id ++
    leBytes 2 x.issuer ++ leBytes 6 0 ++ leBytes 8 x.lines ++ leBytes 8 x.expected ++ leBytes 16 x.digest ++ leBytes 16 x.bound ++
    leBytes 512 x.members ++ leBytes 12 iv.toNat ++ leBytes 4 0

/-- The tag of a record under the sheaf key (R317). -/
def recordTag (ks : BitVec 256) (iv : BitVec 96) (body : Bytes) : BitVec 128 := Config.gcmTag ks iv body []

/-- A whole record with a fresh IV. -/
def SheafRec.seal (x : SheafRec) (ks : BitVec 256) (iv : BitVec 96) : Bytes := x.body iv ++ leBytes 16 (recordTag ks iv (x.body iv)).toNat

/-- Does MEMBERS equal the domain's included members (R316)? -/
def completeSet (d : Dom) (members : Nat) : Bool := (List.range 4096).all (fun m => bit members m == included d m)

/-- FLAGS by their definitions (R316). -/
def recordFlags (complete present match_ : Bool) : Nat := b2n complete + 2 * b2n present + 4 * b2n match_

/-! ### The end of a sheaf (R315) -/

/-- Do the twelve engine partials still await a contributing write accepted before SHEAF_END? -/
def sheafWaits (s : State) (k : Nat) : Bool := s.mem.writes.any (fun w => w.sheaf == some k)

/-- Steps 3 to 5 of R315. -/
def endSheaf (k : Nat) (s : State) : State :=
  let c := s.sheaf.ctxs.get k
  match c.ending with
  | none => s
  | some key =>
    let d := s.domain c.slice
    let digest := ((List.range 12).map c.partials.get).foldl (fun a x => (a + x) % sheafP) 0
    let complete := completeSet d (2 ^ d.member)
    let present := c.bound.isSome
    let bound := match c.bound with | some b => b.toNat | none => 0
    let r : SheafRec := {
      flags := recordFlags complete present (complete && present && digest == bound), domain := d.id, attempt := d.attempt, id := c.id, issuer := d.member,
      lines := c.lines, expected := c.expected, digest, bound, members := 2 ^ d.member }
    let ctx := match s.flight key with | some f => rawCtx f.raw | none => 0
    let (iv, s) := drbgBits 96 s
    let s := s.emit (.dma (tableSet s ctx) c.endBva (r.seal (engKey s 6 k) iv))
    let s := clearKey 6 k { s with sheaf := { s.sheaf with ctxs := s.sheaf.ctxs.set k {}, issued := s.sheaf.issued.upd c.slice (· + 1) } }
    finish key (if complete && present && digest != bound then St.sheafMismatch else St.success) 0 s

/-- End the sheaves that wait for nothing more. -/
def settleSheaves (s : State) : State :=
  (s.sheaf.ctxs.findAll (fun k c => c.state == 2 && !sheafWaits s k)).foldl (fun s k => endSheaf k s) s

/-! ### Hybrid signatures (R87, R89) -/

/-- The pair of a store entry signs a string under a label, the ML-DSA-87 part first; the DRBG gives its random strings. -/
def hybridSign (entry : Nat) (label : String) (body : Bytes) (s : State) : Bytes × State :=
  let seed := (s.pke.get entry).seed
  let (r, s) := drbgBits 256 s
  let (k, s) := drbgBits 384 s
  let ml := Config.mldsaSign (mlPart seed) (leBytes 32 r.toNat) (ascii label) body
  let ec := Config.ecdsaSign (ecPart seed) (leBytes 48 k.toNat) (Config.sha384 (ascii label ++ body))
  (fit 4627 ml ++ fit 96 ec, pkeDone (pkeDone s))

end Sys2Proof.Machine
end

