-- ==== Sys2Proof/Machine/Memory.lean ====
section
/-!
DEFINITION. The memory engines' events: writes, reads, their data, corrections, scrubs, counter lines and rebases
(R140-R175, R180-R200, R258).
-/
namespace Sys2Proof.Machine

/-! ### Writes -/

/-- What the freshness unit answers for a write (R180, R224). -/
inductive VersionAnswer where
  | refused
  | wait
  | exhausted
  | version (v : Nat)
  | open_
  deriving DecidableEq, Repr

/-- Is a line offset inside the save range (R209)? -/
def inSave (x : Region) (n : Nat) : Bool := decide (x.saveFirst ≤ n) && decide (n < x.saveFirst + x.saveCount)

/-- The step or save number of a write at acceptance (R180, R208): none where the mode has none, `refused` where it takes no write. An
IMPORT writes a step-cadenced region under the S that it has set. -/
def writeNumber (x : Region) (n : Nat) (imported : Bool) : Except Unit (Option Nat) :=
  match x.mode with
  | 1 => if imported then .ok (some x.stepOrSeq) else if x.window && !x.closing then .ok (some (x.stepOrSeq + 1)) else .error ()
  | 2 => if x.save == 1 && inSave x n then .ok (some x.saveSeq) else .error ()
  | _ => .ok none

/-- The version of a write of line offset `n` with its number, on the line's present side (R180, R196, R224). -/
def writeAnswer (s : State) (r n : Nat) (raw : Option Nat) : VersionAnswer :=
  match raw with
  | some v => .version (v - sideBase s r (newSide s r n))
  | none =>
    if (s.region r).mode = 3 then .open_
    else match parentOf s r 0 n with
      | none => .wait
      | some c =>
        if (rebaseOver s r 0 n).isSome then .wait
        else if c.minors.get (n % 128) = 127 then (if c.major = 2 ^ 57 - 1 then .exhausted else .wait)
        else .version (c.ver (n % 128) + 1)

/-- Does an accepted write count in PHASE_WRITES (R204)? -/
def countsPhase (x : Region) (imported : Bool) : Bool := (x.mode == 1 && x.window && !imported) || (x.mode == 2 && x.save == 1)

/-- Carry out a write whose version is known: the counter moves (R193), the line is protected and on its way (R161), the sheaf adds it
(R311). -/
def doWrite (w : MemWrite) (a : VersionAnswer) (s : State) : State :=
  let r := w.region
  let s := meCount w.engine 4 128 s
  match a with
  | .version v =>
    let newer := newSide s r w.off
    let s := if (s.region r).mode == 0 then
        touchPath r 1 (w.off / 128) (updParent r 0 w.off (fun c => { c with minors := c.minors.set (w.off % 128) (c.minors.get (w.off % 128) + 1), dirty := true }) s)
      else s
    settleSheaves (sheafAdd w.sheaf w.engine r w.off w.imported w.data (storeProtected w.engine r newer false w.ln (s.region r).mode v w.data s))
  | _ => writeLine w.engine r w.who false w.ln (fit 128 w.data) 0 s

/-- Does an access before a write with a number hold the line: another write, a read, a line lock (R34, R223)? -/
def lineBusy (s : State) (r n ln seq : Nat) : Bool :=
  lineLocked s r n || s.mem.writes.any (fun w => w.ln == ln && decide (w.seq < seq)) || s.mem.reads.any (fun x => x.ln == ln && decide (x.seq < seq))

/-- Writes held under an exhausted counter line (R196). -/
def heldUnder (s : State) (r n : Nat) : Nat := (s.mem.writes.filter (fun w => w.held && w.region == r && w.off / 128 == n / 128)).length

/-- A write waits in its engine. -/
def parkWrite (w : MemWrite) (s : State) : State := { s with mem := { s.mem with writes := s.mem.writes ++ [w] } }

/-- A write leaves its engine's buffer. -/
def unparkWrite (q : Nat) (s : State) : State := { s with mem := { s.mem with writes := s.mem.writes.filter (fun w => w.seq != q) } }

/-- The FTU refuses a write a version (R173, R180, R196). -/
def refuseWrite (w : MemWrite) (s : State) : State := dropWrite 0x09 0x8013 w.engine w.ln w.req w.who (some w.region) false s

/-- A write counts as accepted (R204), and what is still to be read of its line for a scrub is omitted (R258). -/
def noteWrite (w : MemWrite) (s : State) : State :=
  let s := { s with mem := { s.mem with seqCtr := s.mem.seqCtr + 1 } }
  dropScrubs w.ln (if countsPhase (s.region w.region) w.imported then updRegion w.region (fun x => { x with phaseWrites := x.phaseWrites + 1 }) s else s)

/-- An accepted write meets its counter line: it is carried out, or it waits (R20, R34, R196). The second component is false when an
exhausted line holds its 16 writes already, and this one is dropped. -/
def placeWrite (w : MemWrite) (s : State) : State × Bool :=
  match writeAnswer s w.region w.off w.raw with
  | .exhausted =>
    let s := raiseExhausted w.region (w.off * 128) s
    if 16 ≤ heldUnder s w.region w.off then (refuseWrite w s, false) else (parkWrite { w with held := true } (noteWrite w s), true)
  | .wait => (parkWrite w (noteWrite w (if (parentOf s w.region 0 w.off).isNone then fetchMissing w.region w.off s else s)), true)
  | a =>
    let s' := noteWrite w s
    if lineBusy s' w.region w.off w.ln w.seq then (parkWrite w s', true)
    else
      let x := s.region w.region
      (doWrite w a (if x.mode == 0 then mcCount (stackOf s (counterLn x 1 (w.off / 128))) 1 1 s' else s'), true)

/-- An engine accepts a write of a region that serves it, or drops it for want of a version (R161, R173, R196). The second
component tells whether it was accepted. -/
def acceptWrite (e ln req who r : Nat) (imported : Bool) (data : Line) (s : State) : State × Bool :=
  let x := s.region r
  let n := ln - x.firstLn
  let w : MemWrite := {
    seq := s.mem.seqCtr, engine := e, ln, req, who, region := r, off := n, data := fit 128 data, raw := none, imported,
    sheaf := if x.sheaf then sheafOf s r else none }
  match writeNumber x n imported with
  | .error _ => (refuseWrite w s, false)
  | .ok raw => placeWrite { w with raw } s

/-- Who acts in an access, as the access rules see it: the acting slice of a block-DMA access, 0x10 for its set 16 (R386). -/
def actor (req acting : Nat) : Nat := if req = 0x11 then (if acting < 16 then acting else if acting = 16 then 0x10 else 0x11) else req

/-- May a requester access a region (R149)? A frozen slice may not (R406). -/
def mayAccess (s : State) (x : Region) (q : Nat) (write : Bool) : Bool :=
  q == 0x11 || (!(decide (q < 16) && frozen s q)) && (if x.mode == 3 then decide (q ≤ 0x10) else q == x.slice || (!write && decide (q < 16) && bit x.grants q))

/-- A write under the mission rules (R148, R149, R161, R173); the second component tells whether it was accepted. -/
def missionWrite (e ln req who : Nat) (whole : Bool) (data : Line) (s : State) : State × Bool :=
  match (if 0x12 ≤ who then none else regionAt s ln) with
  | none => (meCount e 9 1 (dropWrite 0x02 0x8011 e ln req who none true s), false)
  | some r =>
    let x := s.region r
    if !mayAccess s x who true then (meCount e 9 1 (dropWrite 0x03 0x8010 e ln req who (some r) true s), false)
    else if x.grants != 0 || !(x.state == 1 || x.state == 2) then (dropWrite 0x05 0x8012 e ln req who (some r) false s, false)
    else if !whole then (dropWrite 0x01 0x8012 e ln req who (some r) false s, false)
    else if isFallow s ln then (dropWrite 0x0A 0x8012 e ln req who (some r) false s, false)
    else acceptWrite e ln req who r false data s

/-- MEMORY_WRITE (R161, R173). -/
def execMemoryWrite (engine : BitVec 4) (req acting : BitVec 5) (pa : BitVec 47) (whole : Bool) (data : Line) (s : State) :
    Host.Outcome State Fault Refusal :=
  .next (missionWrite engine.toNat (pa.toNat / 128) req.toNat (actor req.toNat acting.toNat) whole data s).1

/-- A SAVE_END that waits ends when every write accepted in WRITING has been written (R211): with fewer than the range's lines it fails, with
more STEP_OVERWRITE is raised. -/
def settleSave (r : Nat) (s : State) : State :=
  let x := s.region r
  match x.ending with
  | none => s
  | some k =>
    if writesOut s r then s
    else
      let s := updRegion r (fun x => { x with ending := none }) s
      if x.phaseWrites < x.saveCount then finish k St.saveIncomplete 0 s
      else
        let s := if x.saveCount < x.phaseWrites then raise (ownerRings s r) 5 0x8016 (r * 2 ^ 52 + (x.phaseWrites - x.saveCount) % 2 ^ 48) s else s
        finish k St.success 0 (pend 245 (updRegion r (fun x => { x with save := 2 }) s))

/-- VERSION_SUPPLY (R180): the oldest waiting write of a line takes its version and leaves the engine, once every access before it in the
line's order is done (R34) and no lock holds the line (R223). -/
def execVersionSupply (engine : BitVec 4) (ln : BitVec 40) (s : State) : Host.Outcome State Fault Refusal :=
  .next <| match s.mem.writes.find? (fun w => w.engine == engine.toNat && w.ln == ln.toNat) with
    | none => s
    | some w =>
      if lineBusy s w.region w.off w.ln w.seq then s
      else match writeAnswer s w.region w.off w.raw with
        | .wait => if (parentOf s w.region 0 w.off).isNone then fetchMissing w.region w.off s else s
        | .exhausted =>
          if w.held then s
          else
            let s := raiseExhausted w.region (w.off * 128) s
            if 16 ≤ heldUnder s w.region w.off then settleReads w.region (settleSheaves (refuseWrite w (unparkWrite w.seq s)))
            else { s with mem := { s.mem with writes := mapIf (fun y => y.seq == w.seq) (fun y => { y with held := true }) s.mem.writes } }
        | a => settleReads w.region (doWrite w a (unparkWrite w.seq s))

/-! ### Reads -/

/-- What the freshness unit gives a read at acceptance (R175, R180): refused; nothing in a tree or open region; else its step or save numbers
in order. A granted region's window that is open counts as open (log 134). -/
def readNumbers (x : Region) (n : Nat) : Except Unit (Option (List Nat)) :=
  match x.mode with
  | 1 => .ok (some (if x.window then [x.stepOrSeq + 1, x.stepOrSeq] else [x.stepOrSeq]))
  | 2 => if x.save == 2 && inSave x n then .ok (some [x.saveSeq]) else .error ()
  | _ => .ok none

/-- An engine accepts a read of a region that serves it (R162, R163, R172): one behind a waiting write of its line returns that write's data
from the buffer; any other goes to its stack in the line's order. -/
def acceptRead (x : MemRead) (s : State) : State :=
  let g := s.region x.region
  match readNumbers g x.idx with
  | .error _ => poisonRead 0x05 x (some x.region) 0 0 s
  | .ok raw =>
    if g.mode != 3 && isFallow s x.ln then poison x s
    else match (s.mem.writes.filter (fun w => w.ln == x.ln)).getLast? with
      | some w => meCount x.engine 3 128 (respond x (some w.data) s)
      | none =>
        let s := if g.mode == 0 && (parentOf s x.region 0 x.idx).isSome then
            touchPath x.region 1 (x.idx / 128) (mcCount (stackOf s (counterLn g 1 (x.idx / 128))) 1 1 s)
          else s
        settleReads x.region (addRead { x with raw } s)

/-- A read under the mission rules (R148, R149, R162 step 1, R172), for the host or as a line of a command's block DMA. -/
def missionRead (e ln req who : Nat) (p : Purpose) (s : State) : State :=
  let x : MemRead := { seq := 0, engine := e, ln, region := 0, level := 0, idx := 0, purpose := p, req, who }
  let note (code : Nat) (s : State) : State := raise (16 :: if who < 16 then [who] else []) 5 code (ln * 128 + req * 2 ^ 59) s
  match (if 0x12 ≤ who then none else regionAt s ln) with
  | none => note 0x8011 (meCount e 9 1 (poisonRead 0x02 x none 0 0 s))
  | some r =>
    let g := s.region r
    let x := { x with region := r, idx := ln - g.firstLn }
    if !mayAccess s g who false then note 0x8010 (meCount e 9 1 (poisonRead 0x03 x (some r) 0 0 s))
    else if !(g.state == 1 || g.state == 2) then poisonRead 0x05 x (some r) 0 0 s
    else acceptRead x s

/-- MEMORY_READ (R162 step 1, R172). -/
def execMemoryRead (engine : BitVec 4) (req acting : BitVec 5) (pa : BitVec 47) (s : State) : Host.Outcome State Fault Refusal :=
  .next (missionRead engine.toNat (pa.toNat / 128) req.toNat (actor req.toNat acting.toNat) .mission s)

/-- The oldest read that a test picks among those asked of a stack. -/
def askedRead (s : State) (p : MemRead → Bool) : Option MemRead := s.mem.reads.find? (fun x => x.stage == .asked && p x)

/-- The data of a read that a test picks reaches its engine; of no read, nothing. -/
def returned (p : MemRead → Bool) (pc : BitVec 6) (w : RdWord) (s : State) : State :=
  match askedRead s p with
  | none => s
  | some x => arrive x pc.toNat w s

/-- MEMORY_READ_DATA (R162 steps 2-6): the data of the oldest read of the line, of the host or of block DMA, that its stack has been asked for. -/
def execMemoryReadData (engine : BitVec 4) (ln : BitVec 40) (pc : BitVec 6) (word : RdWord) (s : State) : Host.Outcome State Fault Refusal :=
  .next (returned (fun x => x.engine == engine.toNat && x.ln == ln.toNat && x.purpose.outside) pc word s)

/-! ### Correction -/

/-- DUE_REPORT (R167, R169): the report of the oldest read of the line that its ECC could not deliver and that is in no queue yet. -/
def execDueReport (engine : BitVec 4) (ln : BitVec 40) (handle : BitVec 16) (anchor : BitVec 8) (s : State) : Host.Outcome State Fault Refusal :=
  .next <|
    let e := engine.toNat
    match s.mem.reads.find? (fun x => x.engine == e && x.ln == ln.toNat && x.stage == .due && !(s.mem.corr.get e).any (fun c => c.read == x.seq)) with
    | none => s
    | some x => startCorrection x handle.toNat anchor.toNat s

/-- ERASE_RESPONSE (R169). -/
def execEraseResponse (engine : BitVec 4) (answer : Option (Line × BitVec 56)) (s : State) : Host.Outcome State Fault Refusal :=
  .next (takeAnswer engine.toNat answer s)

/-- ERASE_TIMEOUT (R167): INCONSISTENT for that candidate only. -/
def execEraseTimeout (engine : BitVec 4) (s : State) : Host.Outcome State Fault Refusal := .next (takeAnswer engine.toNat none s)

/-- SCRUB_REREAD (R258): the data of the single re-read of a line after its write-back. -/
def execScrubReread (engine : BitVec 4) (ln : BitVec 40) (read : LineRead) (s : State) : Host.Outcome State Fault Refusal :=
  .next (returned (fun x => x.engine == engine.toNat && x.ln == ln.toNat && x.purpose.isScrub) read.pc read.word s)

/-! ### Counter lines -/

/-- COUNTER_LINE_FETCH_DATA (R192, R198-R200). -/
def execCounterLineFetchData (region : BitVec 12) (level : BitVec 2) (index : BitVec 33) (mirror : Bool) (read : LineRead) (s : State) :
    Host.Outcome State Fault Refusal :=
  .next (returned (fun x => x.region == region.toNat && x.level == level.toNat && x.idx == index.toNat &&
    (match x.purpose with | .counter => !mirror | .mirror _ => mirror | _ => false)) read.pc read.word s)

/-- COUNTER_WRITEBACK (R191, R197): an unpinned resident line is evicted. A line that can never be written back stays, and
VERSION_EXHAUSTED is raised. -/
def execCounterWriteback (region : BitVec 12) (level : BitVec 2) (index : BitVec 33) (s : State) : Host.Outcome State Fault Refusal :=
  .next <| match cached s region.toNat level.toNat index.toNat with
    | none => s
    | some c =>
      if c.dirty && blockedForever s c then raiseExhausted region.toNat (c.idx * 128 ^ (c.level + 1)) s
      else if pinned s c then s
      else (evict c s).getD s

/-- The counter line that a rebase works on: an old copy of a plough, or the cached line. -/
def rebaseLine (s : State) (r level i : Nat) (old : Bool) : Option CLine := if old then oldCopy s r level i else cached s r level i

/-- Does the plough hold a line of the block under a counter line (R213)? -/
def ploughIn (s : State) (r level i : Nat) : Bool :=
  match ploughOf s r with
  | some p => (p.locked ++ p.moved).any (fun n => n / 128 ^ level == i)
  | none => false

/-- REBASE (R194 steps 1 and 2): a counter of the line is at its end and its MAJOR is not. It waits for the plough's lines (R213). -/
def execRebase (region : BitVec 12) (level : BitVec 2) (index : BitVec 33) (old : Bool) (s : State) : Host.Outcome State Fault Refusal :=
  .next <|
    let r := region.toNat
    let l := level.toNat
    let i := index.toNat
    match rebaseLine s r l i old with
    | none => s
    | some c =>
      let busy := s.mem.rebases.any (fun b => b.region == r && b.level == l && b.idx == i && b.old == old)
      if busy || 32 ≤ s.mem.rebases.length || !(s.region r).valid || ploughIn s r l i || c.major = 2 ^ 57 - 1 || !c.minors.ents.any (fun e => e.2 == 127) then s
      else
        let hit (d : CLine) : Bool := d.region == r && d.level == l && d.idx == i
        let f (d : CLine) : CLine := { d with major := d.major + 1, minors := Tbl.const 0, dirty := true }
        let s := { s with mem := { s.mem with rebases := s.mem.rebases ++ [{ region := r, level := l, idx := i, old, major := c.major, minors := c.minors, next := 0 }] } }
        let s := if old then updPlough r (fun p => { p with old := mapIf hit f p.old }) s
          else { s with mem := { s.mem with cache := mapIf hit f s.mem.cache } }
        pend 240 (obsAdd 89 1 (mcCount c.engine 7 1 s))

/-- A read that still holds a line against a lock: accepted, and not waiting behind a lock or for its calibration retry (R223, R259). -/
def MemRead.holds (x : MemRead) : Bool :=
  !x.purpose.isScrub && match x.stage with
    | .held => false
    | .back => x.cands.isNone
    | _ => true

/-- May a rebase take the lock of a data line: no access accepted before is unfinished but writes, which wait for it (R195), and the plough
does not hold it (R213)? -/
def childFree (s : State) (r n ln : Nat) : Bool := !lineLocked s r n && !s.mem.reads.any (fun x => x.region == r && x.ln == ln && x.holds)

/-- The child that a rebase has come to, whose read has not begun (R194 step 3): it is locked and read under its old version; a resident
counter line is stored from the cache; a fallow line is passed. -/
def startChild (b : Rebase) (s : State) : State :=
  let r := b.region
  let l := b.level - 1
  let i := b.idx * 128 + b.next
  let read (s : State) : State := startRead { ownRead s r l i false (.child b.old) with cands := some [b.major * 128 + b.minors.get b.next] } s
  if !childOf s b b.next then rebaseNext b s
  else if l = 0 then
    let ln := counterLn (s.region r) 0 i
    if isFallow s ln then rebaseNext b s else if childFree s r i ln then read s else s
  else match cached s r l i with
    | some c =>
      let s := storeCounter c ((b.major + 1) * 128) s
      rebaseNext b { s with mem := { s.mem with cache := mapIf (fun d => d == c) (fun d => { d with dirty := false }) s.mem.cache } }
    | none => if counterRead s r l i then s else read s

/-- REBASE_CHILD_MOVE (R194 step 3, R195): the rebase goes on with its next child, or `read` is what that child's read has returned. -/
def execRebaseChildMove (region : BitVec 12) (level : BitVec 2) (index : BitVec 33) (old : Bool) (read : LineRead) (s : State) :
    Host.Outcome State Fault Refusal :=
  .next <|
    let r := region.toNat
    match s.mem.rebases.find? (fun b => b.region == r && b.level == level.toNat && b.idx == index.toNat && b.old == old) with
    | none => s
    | some b =>
      let mine (x : MemRead) : Bool := x.region == r && x.level + 1 == b.level && x.idx / 128 == b.idx && x.purpose == .child old
      if s.mem.reads.any mine then returned mine read.pc read.word s else settleReads r (startChild b s)

end Sys2Proof.Machine
end

