-- ==== Sys2Proof/Machine/Queues.lean ====
section
/-!
DEFINITION. Queues, fetch, completion and event records (R328-R341, R352-R363, R401).
-/
namespace Sys2Proof.Machine

/-! ### Records, retirement -/

/-- The flags of a command (R334). -/
def wantsRecord (f : Flight) : Bool :=
  bit (rawFlags f.raw) 1 || (bit (rawFlags f.raw) 3 && !okStatus f.status)

/-- May an incomplete command still post a record, and so hold the records behind it (R41)? A parked faulting command
holds nothing: its fault posts no record (R379). -/
def holdsRecords (f : Flight) : Bool :=
  (bit (rawFlags f.raw) 1 || bit (rawFlags f.raw) 3) && f.phase != .faulted

/-- Is the COMPLETION record a signalling record (R355)? -/
def completionSignals (f : Flight) : Bool := bit (rawFlags f.raw) 2 || (bit (rawFlags f.raw) 3 && !okStatus f.status)

/-- The COMPLETION record of a command (R352, R368). -/
def completionRecord (slices : List Nat) (q : Nat) (f : Flight) (t : Nat) : EvWait :=
  {
    record := { cookie := rawCookie f.raw, timestamp := t, detail := f.detail, context := rawCtx f.raw, status := f.status, queue := q, kind := 1 },
    signal := completionSignals f, fwd := none, key := some f.key, slices, sample := none }

/-- Compose the records that are due, in queue order (R41): each completed command's record once every earlier command
that requests completion has composed its own. -/
def postDue (q : Nat) : List Flight → State → State
  | [], s => s
  | f :: rest, s =>
    if f.phase == .completed then
      let s := if f.recState != 0 then s
        else if wantsRecord f then
          queueRecord (ownerRing (s.cex.queues.get q)) (completionRecord (slicesOf [(s.cex.queues.get q).owner]) q f s.now) (updFlight f.key (fun f => { f with recState := 1 }) s)
        else updFlight f.key (fun f => { f with recState := 2 }) s
      postDue q rest s
    else if holdsRecords f then s
    else postDue q rest s

/-- The history that a back-offset can still name (R335): the last 256 commands of the ring, and those of every buffer iteration or
graph that runs. -/
def pruneHist (fs : List Frame) (hist : List (CmdKey × Nat)) : List (CmdKey × Nat) :=
  lastN 256 (hist.filter (fun p => p.1.path.isEmpty)) ++ hist.filter (fun p => match p.1.path.reverse with
    | [] => false
    | (_, it) :: _ => fs.any (fun f => f.key == { p.1 with path := p.1.path.dropLast } && f.iteration == it.toNat))

/-- Retire the commands at the head of a queue that have completed and posted (R330): RETIRED counts ring commands. -/
def retireFlights : Nat → Queue → Queue
  | 0, q => q
  | n + 1, q =>
    match q.flights with
    | f :: rest =>
      if f.phase == .completed && f.recState == 2 then
        retireFlights n { q with
          flights := rest, done := q.done + 1, hist := pruneHist q.frames (q.hist ++ [(f.key, f.status)]),
          retired := if f.key.path.isEmpty then (q.retired + 1) % 2 ^ 32 else q.retired }
      else q
    | [] => q

/-- A stopping queue with nothing in flight becomes free (R329). -/
def freeIfDrained (q : Queue) : Queue :=
  if q.state == 3 && q.flights.isEmpty then { q with state := 0, enable := false, fetcher := 0, rung := false } else q

/-- Compose due records and retire. -/
def drainQueue (q : Nat) (s : State) : State :=
  let s := postDue q (s.cex.queues.get q).flights s
  updQ q (fun x => freeIfDrained (retireFlights x.flights.length x)) s

/-! ### Event rings -/

/-- Free entries of a ring (R352, R354). -/
def ringFree (r : EventRing) : Nat := 4096 - (r.prod + 2 ^ 32 - r.cons) % 2 ^ 32

/-- Has a ring space for a record of a kind (R354)? Sixteen entries are kept for urgent records. -/
def ringSpace (r : EventRing) (kind : Nat) : Bool := if urgent kind then decide (0 < ringFree r) else decide (16 < ringFree r)

/-- Must a record wait for space (R354, R401)? Only COMPLETION records wait; every other kind is dropped. -/
def mustWait (r : EventRing) (w : EvWait) : Bool := w.record.kind == 1 && (r.faulted || !ringSpace r w.record.kind)

/-- The firmware's forwarding STATUS follows its record (R476). -/
def fwdDone (w : EvWait) (status : Nat) (s : State) : State :=
  match w.fwd with
  | none => s
  | some p =>
    let pr := s.icu.pairs.get p
    { s with icu := { s.icu with
      pairs := s.icu.pairs.set p { pr with fwd := { pr.fwd with go := false, status := status } },
      fwdPosted := s.icu.fwdPosted + b2n (status == 1) } }

/-- A ring signals its vector (R355). -/
def signalRing (ring : Nat) (s : State) : State :=
  let r := s.cex.rings.get ring
  let s := { s with cex := { s.cex with rings := s.cex.rings.set ring { r with unsignalled := 0 } } }
  msix r.vector s

/-- Drop a record (R354, R401). -/
def dropRecord (ring : Nat) (w : EvWait) (s : State) : State :=
  let s := { s with cex := { s.cex with rings := s.cex.rings.upd ring (fun r => { r with dropped := r.dropped + 1, lost := true }) } }
  fwdDone w 2 (obsAdd 85 1 s)

/-- Write a record (R352, R354, R355): its slot, PHASE (1 on the first pass, log 10) and LOST, then the signalling. -/
def writeRecord (ring : Nat) (w : EvWait) (s : State) : State :=
  let r := s.cex.rings.get ring
  let s := s.emit (.event ring (r.prod % 4096) w.record (r.prod / 4096 % 2 == 0) r.lost)
  let r' := { r with
    prod := (r.prod + 1) % 2 ^ 32, posted := r.posted + 1, lost := false,
    oldest := if w.signal && r.unsignalled == 0 then s.now else r.oldest,
    unsignalled := r.unsignalled + b2n w.signal }
  let s := { s with cex := { s.cex with rings := s.cex.rings.set ring r' } }
  let s := match w.key with
    | some k => drainQueue k.queue.toNat (updFlight k (fun f => { f with recState := 2 }) s)
    | none => s
  let s := fwdDone w 1 s
  if urgent w.record.kind || (w.signal && decide (r'.modCount ≤ r'.unsignalled)) then signalRing ring s else s

/-- A record's gate samples, one for each slice whose record it is (R286), taken when the executor would otherwise post. -/
def recordGate (w : EvWait) (s : State) : List (List Nat) := w.sample.getD (w.slices.map (gateSample s))

/-- Are the gates of a record open? -/
def recordOpen (w : EvWait) (s : State) (g : List (List Nat)) : Bool := (w.slices.zip g).all (fun p => gateOpen s p.1 p.2)

/-- The executor turns to one waiting record that space does not hold back: gate, drop, fault or write (R286, R354, R401). -/
def postOne (ring : Nat) (pre : List EvWait) (w : EvWait) (post : List EvWait) (x : Option XFault) (s : State) : State :=
  let r := s.cex.rings.get ring
  let keep (l : List EvWait) (s : State) : State :=
    { s with cex := { s.cex with rings := s.cex.rings.upd ring (fun r => { r with waiting := l }) } }
  let g := recordGate w s
  if !recordOpen w s g then keep (pre ++ { w with sample := some g } :: post) s
  else if r.faulted || !ringSpace r w.record.kind then dropRecord ring w (keep (pre ++ post) s)
  else match x with
    | none => writeRecord ring w (keep (pre ++ post) s)
    | some f =>
      let comp := w.record.kind == 1
      let s := keep (if comp then pre ++ w :: post else pre ++ post) s
      let s := { s with
        cex := { s.cex with rings := s.cex.rings.upd ring (fun r => { r with faulted := true }) },
        xlt := { s.xlt with faults := s.xlt.faults.upd ring (· + 1), lastDetail := s.xlt.lastDetail.set ring f.detail.toNat } }
      let s := logError 0x17 44 (if ring < 16 then ring else 0xFF) 0 ring f.detail.toNat s
      if comp then s else dropRecord ring w s

/-- Split the waiting records at the first one that space does not hold back. -/
def splitWaiting (r : EventRing) : List EvWait → Option (List EvWait × EvWait × List EvWait)
  | [] => none
  | w :: rest => if mustWait r w then (splitWaiting r rest).map (fun p => (w :: p.1, p.2)) else some ([], w, rest)

/-- The executor posts the next record of a ring (R354). -/
def postRing (ring : Nat) (x : Option XFault) (s : State) : State :=
  match splitWaiting (s.cex.rings.get ring) (s.cex.rings.get ring).waiting with
  | none => s
  | some (pre, w, post) => postOne ring pre w post x s

/-- EVENT_POST (R354). -/
def execEventPost (ring : BitVec 5) (x : Option XFault) (s : State) : Host.Outcome State Fault Refusal :=
  .next (if 16 < ring.toNat then s else postRing ring.toNat x s)

/-- EVENT_MODERATION_EXPIRY (R355): EVENT_MOD_NS since the oldest unsignalled record. -/
def execEventModerationExpiry (ring : BitVec 5) (s : State) : Host.Outcome State Fault Refusal :=
  .next (if 0 < (s.cex.rings.get ring.toNat).unsignalled then signalRing ring.toNat s else s)

/-- The effect of the write that execEventRingBaseWrite makes, and its status. -/
def ringBaseWrite (who : Principal) (ring : BitVec 5) (base : BitVec 64) (s : State) : State × Nat :=
  let n := ring.toNat
  let r := s.cex.rings.get n
  if 16 < n then (s, St.noEntry)
  else if (match who with | .slice m => m.toNat != n | _ => false) then (s, St.accessDenied)
  else if !r.faulted && r.prod != r.cons then (s, St.entryState)
  else if base.toNat % 4096 != 0 then (s, St.invalidOperand)
  else ({ s with cex := { s.cex with rings := s.cex.rings.set n { r with
    base := base.toNat, lost := r.lost || r.faulted, faulted := false } } }, St.success)

/-- EVENT_RING_BASE_WRITE (R363, R401). -/
def execEventRingBaseWrite (who : Principal) (ring : BitVec 5) (base : BitVec 64) (s : State) : Host.Outcome State Fault Refusal :=
  .next (dictWrite who false [1, 5] s (ringBaseWrite who ring base))

/-- EVENT_READ_INDEX_WRITE (R354): the consumer's read index frees space, and waiting records post. An index that lies
outside the unread records is ignored (DEDUCED, log 14). -/
def execEventReadIndexWrite (ring : BitVec 5) (index : BitVec 32) (s : State) : Host.Outcome State Fault Refusal :=
  .next <|
    let n := ring.toNat
    let r := s.cex.rings.get n
    let unread := (r.prod + 2 ^ 32 - r.cons) % 2 ^ 32
    if 16 < n || unread < (r.prod + 2 ^ 32 - index.toNat) % 2 ^ 32 then s
    else
      let s := { s with cex := { s.cex with rings := s.cex.rings.set n { r with cons := index.toNat } } }
      (List.range r.waiting.length).foldl (fun s _ => postRing n none s) s

/-! ### Doorbells and fetch -/

/-- The oldest incomplete ring command of a queue (R335). -/
def oldestIncomplete (q : Queue) : Nat :=
  match q.flights.find? (fun f => f.key.path.isEmpty && f.phase != .completed) with
  | some f => f.key.index.toNat
  | none => q.ci

/-- The idle handshake (R332): a fetcher that finds CI = PI enters IDLE_PENDING, and there reads and clears RUNG and re-reads PI as one
step, to return to ACTIVE or to idle. -/
def fetcherIdle (q : Queue) : Queue :=
  if q.fetcher == 1 then { q with rung := false, fetcher := if q.rung || q.pi != q.ci then 0 else 2 }
  else if q.fetcher == 0 && q.ci == q.pi then { q with fetcher := 1 }
  else q

/-- DOORBELL (R330-R332, R357). -/
def execDoorbell (queue : BitVec 6) (value : BitVec 64) (s : State) : Host.Outcome State Fault Refusal :=
  .next <|
    let n := queue.toNat
    let q := s.cex.queues.get n
    let v := value.toNat % 2 ^ 32
    if q.state != 1 then s
    else if 2 ^ 31 ≤ (v + 2 ^ 32 - q.pi) % 2 ^ 32 then logError 0x16 43 (if q.owner < 16 then q.owner else 0xFF) 0 n v s
    else if 2 ^ q.ringLog2 < (v + 2 ^ 32 - q.ci) % 2 ^ 32 then
      queueFault n none { cause := 7, opcode := 0, context := 0, depth := 0, ringIndex := q.ci, position := [0, 0, 0, 0], bva := 0, pasid := 0, xltDetail := 0, timestamp := s.now, cookie := 0, raw := 0, engines := [] } s
    else updQ n (fun q => { q with pi := v, rung := true, fetcher := if q.fetcher == 1 then 1 else 0 }) s

/-- The parent of a nested command. -/
def parentKey (k : CmdKey) : CmdKey := { k with path := k.path.dropLast }

/-- The frame of a nested command: its parent's, running the iteration and awaiting the position that the key names. -/
def frameFor (q : Queue) (k : CmdKey) : Option Frame :=
  match k.path.reverse with
  | [] => none
  | (p, it) :: _ => q.frames.find? (fun f =>
      f.key == parentKey k && f.started && f.iteration == it.toNat && f.fetched == p.toNat && decide (p.toNat < f.count))

/-- Free command spaces of a slice's graph-store partition, 64 bytes each, beside its loaded graphs (R341, R343). -/
def partitionSpaces (s : State) (slice : Nat) : Nat :=
  let part := (s.slice slice).graphKib.2 * 16
  let used := ((List.range 64).map (fun h => (s.cex.graphs.get (slice * 64 + h)).copy.length)).foldl (· + ·) 0
  part - used

/-- Is the window of a buffer full (R341)? A graph runs on its copy and needs no window. -/
def windowFull (s : State) (q : Queue) (f : Frame) : Bool :=
  f.graph.isNone && decide (partitionSpaces s f.slice ≤
    (q.flights.filter (fun x => x.key.path.length == f.key.path.length + 1 && parentKey x.key == f.key && x.phase != .completed)).length)

/-- Put a nested command before its parent, so that list order is record order (R340, R41). -/
def insertBefore (k : CmdKey) (f : Flight) : List Flight → List Flight
  | [] => [f]
  | x :: xs => if x.key == k then f :: x :: xs else x :: insertBefore k f xs

/-- Take a fetched command in and act on what the fetch check found (R337). -/
def takeFetched (k : CmdKey) (raw : BitVec 512) (s : State) : State :=
  let n := k.queue.toNat
  let f : Flight := { key := k, raw, phase := .waiting, status := 0, detail := 0, startedAt := s.now, recState := 0, override := none }
  let chk := fetchCheck s (s.cex.queues.get n) k raw
  let s := updQ n (fun q => { q with flights :=
    if k.path.isEmpty then q.flights ++ [f] else insertBefore (parentKey k) f q.flights }) s
  match chk with
  | .fault c => faultCommand k c 0 0 0 s
  | .refuse st => finish k st 0 s
  | .ok =>
    if (match opRow (rawOpcode raw) with | some r => r.imm | none => false) then
      let s := updFlight k (fun f => { f with phase := .ready }) s
      if fwExecuted (rawOpcode raw) then pend (288 + n) s else s
    else settle1 k s

/-- A block-DMA fault on the fetch itself (R399): the queue halts with CI at the entry, which a resume fetches again. Under
COMPAT the entry completes as FAULTED (R360). -/
def fetchFault (k : CmdKey) (x : XFault) (s : State) : State :=
  let n := k.queue.toNat
  let q := s.cex.queues.get n
  let set := if q.owner < 16 then q.owner else 16
  let s := { s with xlt := { s.xlt with faults := s.xlt.faults.upd set (· + 1), lastDetail := s.xlt.lastDetail.set set x.detail.toNat } }
  let c := captureOf k 0 1 x.bva.toNat x.pasid.toNat x.detail.toNat s.now
  if q.compat then
    let f : Flight := { key := k, raw := 0, phase := .done, status := St.faulted, detail := 0, startedAt := s.now, recState := 0, override := none }
    let s := queueFault n none c s
    updQ n (fun q => { q with
      ci := if k.path.isEmpty then (q.ci + 1) % 2 ^ 32 else q.ci
      flights := if k.path.isEmpty then q.flights ++ [f] else insertBefore (parentKey k) f q.flights }) s
  else queueFault n none c s

/-- Does a kill in progress keep a command of its context from being fetched (R486 step 1)? -/
def fetchKilled (s : State) (raw : BitVec 512) : Bool := rawCtx raw != 0 && s.cex.kills.any (fun k => k.2 == rawCtx raw)

/-- COMMAND_FETCH (R329, R332, R335, R337, R341): one turn of the fetcher. It takes a ring entry, or a step of the idle handshake; or the
next command of a running buffer or graph, also while the queue is stopping. -/
def execCommandFetch (key : CmdKey) (x : Option XFault) (raw : BitVec 512) (s : State) : Host.Outcome State Fault Refusal :=
  .next <|
    let n := key.queue.toNat
    let q := s.cex.queues.get n
    if !decide (q.state ∈ [1, 3]) || fetchStopped s q.owner then s
    else if key.path.isEmpty then
      if q.state != 1 then s
      else if q.fetcher != 0 || q.ci == q.pi then updQ n fetcherIdle s
      else if key.index.toNat != q.ci || 256 ≤ (q.ci + 2 ^ 32 - oldestIncomplete q) % 2 ^ 32 then s
      else match x with
        | some f => fetchFault key f s
        | none => if fetchKilled s raw then s else takeFetched key raw (updQ n (fun q => { q with ci := (q.ci + 1) % 2 ^ 32 }) s)
    else match frameFor q key with
      | none => s
      | some f =>
        if windowFull s q f then s
        else
          let step (s : State) : State := updQ n (fun q => { q with frames := mapIf (fun g => g.key == f.key) (fun g => { g with fetched := g.fetched + 1 }) q.frames }) s
          match f.graph, x with
          | some g, _ => if fetchKilled s (g.getD f.fetched 0) then s else takeFetched key (g.getD f.fetched 0) (step s)
          | none, some e => fetchFault key e s
          | none, none => if fetchKilled s raw then s else takeFetched key raw (step s)

/-! ### Completion -/

/-- A nested command's completion counts toward its frame (R340). -/
def countNested (k : CmdKey) (status : Nat) (q : Queue) : Queue :=
  match k.path.reverse with
  | [] => q
  | (p, it) :: _ =>
    { q with frames := mapIf (fun g => g.key == parentKey k) (fun g =>
        let b := (it.toNat, p.toNat, status)
        { g with
          finished := g.finished + 1
          bad := if okStatus status then g.bad else match g.bad with
            | none => some b
            | some o => if b.1 < o.1 || (b.1 == o.1 && b.2.1 < o.2.1) then some b else some o }) q.frames }

/-- Does a held fence still wait (R38, R286)? A local fence waits for every earlier command of its sequence. -/
def holdDone (s : State) (h : FenceHold) : Bool :=
  gateOpen s h.slice h.sample && (if h.egress then h.tlps == 0 else true)

/-- A local fence's other completion conditions: every earlier command of the queue has completed (R38). -/
def localReady (s : State) (k : CmdKey) : Bool :=
  !((s.q k).flights.takeWhile (fun f => f.key != k)).any (fun f => f.phase != .completed)

/-- A local fence signals its counter (R346): value, signaller and a cleared BROKEN. -/
def signalCounter (slice c : Nat) (v : BitVec 64) (ctx : Nat) (s : State) : State :=
  { s with cex := { s.cex with syncs := s.cex.syncs.set (slice * 64 + c) { value := v, signaller := ctx, broken := false } } }

/-- Complete the WAIT_SYNC waits of a slice's counter that its value or its BROKEN state ends (R345, R346). -/
def wakeSync (slice c : Nat) (s : State) : State :=
  let y := s.cex.syncs.get (slice * 64 + c)
  let hit (w : WaitRec) : Bool := w.kind == 2 && w.slice == slice && w.a == c && (y.broken || decide (w.b ≤ y.value.toNat))
  let s := (s.cex.waits.filter hit).foldl (fun s w =>
    finish w.key (if y.broken then St.brokenFence else St.success) (if y.broken then y.value.toNat else 0) s) s
  { s with cex := { s.cex with waits := s.cex.waits.filter (fun w => !hit w) } }

/-- End the fences that a slice's gate, or its queue's progress, lets complete (R38, R286, R287): a local fence whose
conditions come to hold samples the gate then. -/
def settleHolds (s : State) : State :=
  let s := { s with cex := { s.cex with holds := s.cex.holds.map (fun (h : FenceHold) =>
    if !h.egress && h.sample.isEmpty && localReady s h.key then { h with sample := gateSample s h.slice } else h) } }
  let ends := s.cex.holds.filter (fun (h : FenceHold) => !h.sample.isEmpty && holdDone s h)
  let s := { s with cex := { s.cex with holds := s.cex.holds.filter (fun (h : FenceHold) => h.sample.isEmpty || !holdDone s h) } }
  ends.foldl (fun s (h : FenceHold) =>
    let ctx := match s.flight h.key with | some f => rawCtx f.raw | none => 0
    let s := match h.counter with
      | some (c, v) => wakeSync h.slice c (signalCounter h.slice c v ctx s)
      | none => s
    finish h.key St.success h.detail { s with cex := { s.cex with waits := s.cex.waits.filter (fun w => w.key != h.key) } }) s

/-- Add a fence that waits for its gate, and end it at once when nothing holds it. -/
def addHold (f : FenceHold) (s : State) : State := settleHolds { s with cex := { s.cex with holds := s.cex.holds ++ [f] } }

/-- A fence of a slice whose other conditions hold completes with a DETAIL once the gate sampled now is open (R39, R286); one that
already waits so is left. -/
def throughGate (k : CmdKey) (sl detail : Nat) (s : State) : State :=
  if s.cex.holds.any (fun (h : FenceHold) => h.key == k) then s
  else addHold { key := k, slice := sl, egress := false, sample := gateSample s sl, tlps := 0, counter := none, detail } s

/-- Add a wait. -/
def addWait (w : WaitRec) (s : State) : State := { s with cex := { s.cex with waits := s.cex.waits ++ [w] } }

/-- End a wait. -/
def endWait (k : CmdKey) (status detail : Nat) (s : State) : State :=
  finish k status detail { s with cex := { s.cex with
    waits := s.cex.waits.filter (fun w => w.key != k), holds := s.cex.holds.filter (fun h => h.key != k) } }

/-- A LAUNCH whose graph has run finishes (R344); its handle has one launch fewer in flight. -/
def endLaunches (n : Nat) (s : State) : State :=
  let spent (f : Frame) : Bool := f.graph.isSome && decide (f.count ≤ f.finished)
  ((s.cex.queues.get n).frames.filter spent).foldl (fun s f =>
    let s := finish f.key (match f.bad with | some b => b.2.2 | none => 0) 0 s
    let s := match f.handle with
      | some h => { s with cex := { s.cex with graphs := s.cex.graphs.upd h (fun g => { g with launches := g.launches - 1 }) } }
      | none => s
    updQ n (fun q => { q with frames := q.frames.filter (fun g => g.key != f.key) }) s) s

/-- A command has finished in its engine and completes: its frame, its record in order, readiness of the others (R41, R336). -/
def completeCmd (k : CmdKey) (s : State) : State :=
  match s.flight k with
  | none => s
  | some f =>
    if f.phase != .done then s
    else
      let n := k.queue.toNat
      let s := updFlight k (fun f => { f with phase := .completed }) s
      let s := endLaunches n (updQ n (countNested k f.status) s)
      let s := settleHolds (settle n s)
      drainQueue n s

/-- COMMAND_COMPLETION (R41). -/
def execCommandCompletion (key : CmdKey) (s : State) : Host.Outcome State Fault Refusal := .next (completeCmd key s)

/-! ### Creating, stopping, resuming -/

/-- A slice's TDI is CONFIG_LOCKED or RUN (R301). -/
def tdiLocked (s : State) (slice : Nat) : Bool := decide (s.tdi.get slice ∈ [1, 2])

/-- End the commands parked on a halted queue that is disabled (R361). -/
def killParked (q : Nat) (s : State) : State :=
  (s.cex.queues.get q).flights.foldl (fun s f =>
    if f.phase == .waiting || f.phase == .ready || f.phase == .faulted then
      finish f.key St.contextKilled 0 (updFlight f.key (fun f => { f with phase := .waiting }) s) else s) s

/-- The capture area and the directory bit clear (R359). -/
def clearCapture (q : Nat) (s : State) : State :=
  let s := updQ q (fun x => { x with capture := none, halted := false }) s
  { s with rcv := { s.rcv with faultDir := clrBit s.rcv.faultDir q } }

/-- Why a queue's enable is refused (R329), if it is. -/
def enableRefusal (s : State) (q : Queue) : Option Nat :=
  if q.state != 0 then some St.entryState
  else if q.owner < 16 && tdiLocked s q.owner then some St.sliceLocked
  else if 16 < q.owner || 1 < q.cls || (q.owner < 16 && (s.slice q.owner).state == 0) then some St.invalidOperand
  else if q.ringLog2 < 4 || 20 < q.ringLog2 || q.ringBase % 4096 != 0 then some St.invalidOperand
  else if q.cls == 1 && (match s.cex.bindings.get q.context with
      | some b => q.owner == 16 || b.slice != q.owner
      | none => true) then some St.invalidOperand
  else none

/-- An accepted enable (R329). -/
def enableQueue (n : Nat) (s : State) : State :=
  updQ n (fun q => { q with
    state := 1, enable := true, pi := 0, ci := 0, retired := 0, fetcher := 0, rung := false, halted := false,
    scalars := Tbl.const 0, flights := [], hist := [], frames := [] }) s

/-- A write of FALSE (R329, R361). -/
def disableQueue (n : Nat) (s : State) : State :=
  let q := s.cex.queues.get n
  if q.state == 1 || q.state == 2 then
    let s := if q.state == 2 then clearCapture n (killParked n s) else s
    updQ n (fun q => freeIfDrained { q with state := 3, enable := false }) s
  else s

/-- The effect of the write that execQueueEnable makes, and its status. -/
def queueEnableWrite (queue : BitVec 6) (on : Bool) (s : State) : State × Nat :=
  let q := s.cex.queues.get queue.toNat
  if on then match enableRefusal s q with
    | some c => (s, c)
    | none => (enableQueue queue.toNat s, St.success)
  else if q.state != 0 && q.owner < 16 && tdiLocked s q.owner then (s, St.sliceLocked)
  else (disableQueue queue.toNat s, St.success)

/-- QUEUE_ENABLE (R329). -/
def execQueueEnable (who : Principal) (queue : BitVec 6) (on : Bool) (s : State) : Host.Outcome State Fault Refusal :=
  .next (dictWrite who false [1] s (queueEnableWrite queue on))

/-- Is a slice principal reaching a queue of another owner (R363)? -/
def notOwner (who : Principal) (q : Queue) : Bool := match who with | .slice m => m.toNat != q.owner | _ => false

/-- The faulting command of a halted queue. -/
def faultedKey (q : Queue) : Option CmdKey := (q.flights.find? (fun f => f.phase == .faulted)).map (·.key)

/-- Leave HALT: the capture clears and fetching resumes (R359). -/
def unhalt (n : Nat) (s : State) : State := updQ n (fun q => { q with state := 1 }) (clearCapture n s)

/-- The effect of the write that execQueueResume makes, and its status. -/
def queueResumeWrite (who : Principal) (queue : BitVec 6) (s : State) : State × Nat :=
  let n := queue.toNat
  let q := s.cex.queues.get n
  if notOwner who q then (s, St.accessDenied)
  else if !q.halted then (s, St.entryState)
  else
    let s := match faultedKey q with
      | some k => settle1 k (updFlight k (fun f => { f with phase := .waiting }) s)
      | none => s
    (unhalt n s, St.success)

/-- QUEUE_RESUME (R359): the faulting command is executed again from its start. -/
def execQueueResume (who : Principal) (queue : BitVec 6) (s : State) : Host.Outcome State Fault Refusal :=
  .next (dictWrite who false [1, 5] s (queueResumeWrite who queue))

/-- The effect of the write that execQueueSkip makes, and its status. -/
def queueSkipWrite (who : Principal) (queue : BitVec 6) (s : State) : State × Nat :=
  let n := queue.toNat
  let q := s.cex.queues.get n
  if notOwner who q then (s, St.accessDenied)
  else if !q.halted then (s, St.entryState)
  else
    let s := match faultedKey q with
      | some k => finish k St.faulted 0 s
      | none => s
    (unhalt n s, St.success)

/-- QUEUE_SKIP (R359): the faulting command completes with FAULTED. -/
def execQueueSkip (who : Principal) (queue : BitVec 6) (s : State) : Host.Outcome State Fault Refusal :=
  .next (dictWrite who false [1, 5] s (queueSkipWrite who queue))

/-! ### COMPAT -/

/-- Commands whose own bound replaces the COMPAT timeout (R360). -/
def compatExempt (op : Nat) : Bool :=
  decide (op ∈ [0x0001, 0x0004, 0x0020, 0x0021, 0x0030, 0x0031, 0x0032, 0x0033, 0x0034, 0x0035, 0x0120, 0x0701, 0x0702]) ||
  (decide (0x0500 ≤ op) && decide (op ≤ 0x0506))

/-- A stopped command completes with TIMEOUT and its TIMEOUT record (R360, R380 COMMAND_TIMEOUT). -/
def compatEnd (k : CmdKey) (raw : BitVec 512) (engine : Nat) (s : State) : State :=
  let s := finish k St.timeout 0 s
  raise1 (slicesOf [(s.q k).owner]) (ownerRing (s.q k)) 0x0A 0x8004 engine (rawCookie raw) (rawCtx raw) k.queue.toNat s

/-- COMPAT_TIMEOUT (R360): `busy` says that an engine has not yet dropped the command's work. -/
def execCompatTimeout (key : CmdKey) (busy : Bool) (s : State) : Host.Outcome State Fault Refusal :=
  .next <| match s.flight key with
    | none => s
    | some f =>
      if !(s.q key).compat || f.phase != .running || compatExempt (rawOpcode f.raw) then s
      else if busy then updFlight key (fun f => { f with override := some St.timeout }) s
      else compatEnd key f.raw 0xFFFF s

end Sys2Proof.Machine
end

