-- ==== Sys2Proof/Machine/Regions.lean ====
section
/-!
DEFINITION. The region, save and fallow commands (R144-R152, R185-R187, R209-R212, R252-R256, R370, R600, R601).
-/
namespace Sys2Proof.Machine

/-! ### REGION_DEFINE -/

/-- Is a stack populated (R19)? -/
def populated (s : State) (e : Nat) : Bool := decide (e < 12) && !bit s.boot.unpopulated e

/-- Does every line of a byte range decode to a populated stack? The decoding repeats after K granules (R177). -/
def rangePopulated (s : State) (base bytes : Nat) : Bool :=
  let g := 2 ^ s.mem.decodeG
  let n := (base + bytes + g - 1) / g - base / g
  (rangeFrom (base / g) (min n s.mem.decodeK)).all (fun i => populated s (stackOf s (i * g / 128)))

/-- The byte ranges that a region occupies: its own, its counter area, its mirror area. -/
def Region.ranges (x : Region) : List (Nat × Nat) :=
  (x.base * 4096, x.pages * 4096) ::
    (if x.mode == 0 then [(x.metaBase * 4096, counterAreaBytes x), (x.mirrorBase * 4096, mirrorAreaBytes x)] else [])

/-- Do two byte ranges overlap? -/
def overlap (a b : Nat × Nat) : Bool := decide (a.1 < b.1 + b.2) && decide (b.1 < a.1 + a.2)

/-- Does a range overlap nothing that a valid region occupies? -/
def rangeFree (s : State) (a : Nat × Nat) : Bool :=
  !s.mem.regions.ents.any (fun e => e.2.valid && e.2.ranges.any (overlap a))

/-- The crown entries of a tree region (R183). -/
def Region.crowns (x : Region) : Nat × Nat := (x.crownFirst, levelLines x 3)

/-- Condition 1 of R185. -/
def crownFree (s : State) (x : Region) : Bool :=
  decide (x.crownFirst + levelLines x 3 ≤ 4096) &&
  !s.mem.regions.ents.any (fun e => e.2.valid && e.2.mode == 0 && overlap x.crowns e.2.crowns)

/-- Condition 4 of R185: every level-2 and level-3 line and its mirror lie on different stacks. The pattern repeats after
K granules. -/
def mirrorApart (s : State) (x : Region) : Bool :=
  [2, 3].all (fun l =>
    (List.range (min (levelLines x l) (s.mem.decodeK * 2 ^ (s.mem.decodeG - 7)))).all (fun i => stackOf s (counterLn x l i) != stackOf s (mirrorLn x l i)))

/-- The conditions of R185, in order. -/
def treeChecks (s : State) (x : Region) : List (Bool × Nat × Nat) :=
  let c := (x.metaBase * 4096, counterAreaBytes x)
  let m := (x.mirrorBase * 4096, mirrorAreaBytes x)
  let own := (x.base * 4096, x.pages * 4096)
  let inUse := ((s.mem.regions.ents.filter (fun e => e.2.valid && e.2.mode == 0)).map (fun e => levelLines e.2 3)).foldl (· + ·) 0
  [(crownFree s x, St.treePlacement, 1),
   (!overlap c m && !overlap c own && !overlap m own && rangeFree s c && rangeFree s m, St.treePlacement, 2),
   (rangePopulated s c.1 c.2 && rangePopulated s m.1 m.2, St.treePlacement, 3),
   (mirrorApart s x, St.treePlacement, 4),
   ((List.range 12).all (fun e => !populated s e || decide (4 ≤ (s.slice x.slice).ways.get e)), St.treePlacement, 5),
   (decide (inUse + levelLines x 3 ≤ 4096), St.treePlacement, 6)]

/-- Does a byte range hold the page of a failed line (R256)? -/
def holdsFallowPage (s : State) (a : Nat × Nat) : Bool :=
  s.mem.fallow.ents.any (fun f => (f.2.state == 1 || f.2.state == 2) && overlap a (f.2.failed / 32 * 4096, 4096))

/-- Does any slice's descriptor range hold an index (R409)? -/
def inSomeSlice (s : State) (r : Nat) : Bool := (List.range 16).any (fun sl => ownsRegionIx s sl r)

/-- The checks of REGION_DEFINE in the order of R600; `tgcBit` is CTRL's TGC bit. A range that runs past the address space is refused with the
number of the range condition (log 132). -/
def defineChecks (s : State) (r : Nat) (x : Region) (tgcBit : Bool) : List (Bool × Nat × Nat) :=
  let slc := x.slice
  let prot := x.mode != 3
  [(if prot then ownsRegionIx s slc r else decide (r < 4096) && !inSomeSlice s r, St.invalidOperand, 0),
   (!(s.region r).valid, St.regionBusy, 0),
   (decide (1 ≤ x.pages) && decide (x.pages ≤ 2 ^ 28) && decide (x.base + x.pages ≤ 2 ^ 35), St.regionRange, 1),
   (rangeFree s (x.base * 4096, x.pages * 4096), St.regionOverlap, 2),
   (rangePopulated s (x.base * 4096) (x.pages * 4096), St.stackUnpopulated, 3)] ++
  (if prot then (keyed s slc, St.domainState, 4) :: regionKeyChecks s slc r x.epoch x.keyData x.keyTweak x.keyTag 4
   else [(x.keyData == 0 && x.keyTweak == 0 && x.keyTag == 0 && !tgcBit && !x.sheaf, St.invalidOperand, 5)]) ++
  (if x.mode == 0 then treeChecks s x else []) ++
  [(!prot || (match s.mem.mark.get r with | some e => decide (e < x.epoch) | none => true), St.epochReused, 0),
   (!s.mem.fallowOver, St.fallowListFull, 0),
   (!x.ranges.any (holdsFallowPage s), St.fallowOverlap, 0),
   (!prot || kweRuns s, St.entropyFailure, 0),
   (!prot || (s.slot x.keyData).key != (s.slot x.keyTweak).key, St.keyEqual, 0)]

/-- The initial line at index `i` of a level (R146, R186): zeros under version 0, in an open region as they are. -/
def zeroLine (r : Nat) (level : Nat) (mirror : Bool) (s : State) (i : Nat) : State :=
  let x := s.region r
  let ln := if mirror then mirrorLn x level i else counterLn x level i
  let p := List.replicate 128 0
  if x.mode = 3 then writeLine (stackOf s ln) r 16 false ln p 0 s
  else storeProtected (stackOf s ln) r false false ln (if level = 0 then x.mode else 0) 0 p s

/-- The writes of INITIALIZING (R146, R186): every data line, and in a tree region every counter and mirror line. -/
def zeroFill (r : Nat) (s : State) : State :=
  let x := s.region r
  let fill (level : Nat) (mirror : Bool) (s : State) : State :=
    (List.range (if level = 0 then x.lines else levelLines x level)).foldl (zeroLine r level mirror) s
  let s := fill 0 false s
  if x.mode = 0 then fill 3 true (fill 2 true (fill 3 false (fill 2 false (fill 1 false s)))) else s

/-- An accepted definition (R144, R146, R179, R186). -/
def defineRegion (h : CmdHdr) (r : Nat) (x : Region) (zero : Bool) (s : State) : State :=
  let init := x.mode == 0 || zero
  let x := { x with valid := true, state := if init then 0 else 1, epochAt := s.now, define := if init then some h.key else none }
  let s := { s with mem := { s.mem with
    regions := s.mem.regions.set r x
    decodeLocked := true
    mark := if x.mode == 3 then s.mem.mark else s.mem.mark.set r (some x.epoch)
    crown := if x.mode == 0 then (rangeFrom x.crownFirst (levelLines x 3)).foldl (fun t i => t.set i 0) s.mem.crown else s.mem.crown } }
  let s := if x.mode == 3 then s else loadRegionKeys r x.keyData x.keyTweak x.keyTag s
  if init then zeroFill r s else finish h.key St.success 0 s

/-- REGION_DEFINE (R147, R370, R600). -/
def execRegionDefine (h : CmdHdr) (region ctrl : BitVec 16) (epoch : BitVec 32) (base metaBase mirrorBase : BitVec 40) (pages : BitVec 32)
    (keyData keyTweak keyTag crownFirst : BitVec 16) (s : State) : Host.Outcome State Fault Refusal :=
  .next (cexRun h 0x0100 [(0x18, 2, region.toNat), (0x1A, 2, ctrl.toNat), (0x1C, 4, epoch.toNat), (0x20, 5, base.toNat), (0x25, 5, metaBase.toNat),
      (0x2A, 5, mirrorBase.toNat), (0x30, 4, pages.toNat), (0x34, 2, keyData.toNat), (0x36, 2, keyTweak.toNat), (0x38, 2, keyTag.toNat),
      (0x3A, 2, crownFirst.toNat)] s (fun s =>
    let c := ctrl.toNat
    let mode := c % 4
    let tgc := if bit c 2 then bit c 3 else decide (mode < 2)
    let x : Region := {
      mode, tgc, sheaf := bit c 4, slice := (hdrSlice h), base := base.toNat, pages := pages.toNat, keyData := keyData.toNat, keyTweak := keyTweak.toNat,
      keyTag := keyTag.toNat, mirrorBase := if mode == 0 then mirrorBase.toNat else 0, metaBase := if mode == 0 then metaBase.toNat else 0,
      crownFirst := if mode == 0 then crownFirst.toNat else 0, epoch := epoch.toNat }
    checked h (defineChecks s region.toNat x (bit c 3)) s (defineRegion h region.toNat x (bit c 5))))

/-- Has a region lines on their way to the stacks: a write, or any line (R162, R412)? -/
def linesWait (s : State) (r : Nat) : Bool := s.mem.lines.ents.any (fun e => e.2.any (fun l => l.region == r))

/-- REGION_ZERO_FILL_DONE (R146, R186): the engines have written every line. -/
def execRegionZeroFillDone (region : BitVec 12) (s : State) : Host.Outcome State Fault Refusal :=
  .next <|
    let r := region.toNat
    let x := s.region r
    if !x.valid || x.state != 0 || linesWait s r then s
    else
      let s := updRegion r (fun x => { x with state := 1, define := none, epochAt := s.now }) s
      match x.define with
      | some k => finish k St.success 0 s
      | none => s

/-! ### Retirement and grants -/

/-- The index check of R601: outside the acting slice's range INVALID_OPERAND, not VALID REGION_STATE. -/
def indexChecks (s : State) (sl r : Nat) (hostOpen : Bool) : List (Bool × Nat × Nat) :=
  [(ownsRegionIx s sl r || (hostOpen && decide (r < 4096) && !inSomeSlice s r), St.invalidOperand, 0), ((s.region r).valid, St.regionState, 0)]

/-- Complete the KEY_FENCE waits on a region that its state now decides (R235). -/
def settleKeyFences (r : Nat) (s : State) : State :=
  let x := s.region r
  let decided (w : WaitRec) : Option Nat :=
    if w.kind == 3 && w.a == r && w.slice == x.slice then
      (if x.valid && x.epoch == w.b && x.state != 2 then some St.success
       else if x.valid && (match ploughOf s r with | some p => p.state != 4 && p.epoch == w.b | none => false) then none
       else if x.valid && x.epoch == w.b then some St.success
       else some St.keyNotInstalled)
    else none
  let done := s.cex.waits.filterMap (fun w => (decided w).map (fun st => (w, st)))
  done.foldl (fun s d => if d.2 == St.success then throughGate d.1.key d.1.slice 0 s else endWait d.1.key d.2 0 s) s

/-- A region leaves the sheaf that names it (R325). -/
def leaveSheaf (r : Nat) (s : State) : State :=
  { s with sheaf := { s.sheaf with ctxs := s.sheaf.ctxs.mapEnts (fun _ c => { c with parts := c.parts.filter (fun p => p.1 != r) }) } }

/-- Enter RETIRING (R146, R175, R236): the accesses accepted before complete, but writes that only a plough could free are dropped, and
scrub re-reads are omitted (R259). A plough stops after the lines it holds. -/
def retireRegion (r : Nat) (k : CmdKey) (s : State) : State :=
  let x := s.region r
  let held := s.mem.writes.filter (fun w => w.region == r && w.held)
  let s := dropReads (fun z => z.purpose.isScrub && z.region == r)
    { s with mem := { s.mem with writes := s.mem.writes.filter (fun w => !(w.region == r && w.held)) } }
  let s := settleSheaves (held.foldl (fun s w => refuseWrite w s) s)
  let s := match x.define with | some d => finish d St.regionState 0 s | none => s
  let s := updRegion r (fun x => { x with state := 5, retire := x.retire ++ [k], define := none, importing := false }) (leaveSheaf r s)
  settleKeyFences r (settlePlough r (updPlough r (fun p => { p with state := 4 }) s))

/-- REGION_RETIRE (R175, R601). -/
def execRegionRetire (h : CmdHdr) (region : BitVec 16) (s : State) : Host.Outcome State Fault Refusal :=
  .next (cexRun h 0x0101 [(0x18, 2, region.toNat)] s (fun s =>
    let r := region.toNat
    checked h (indexChecks s (hdrSlice h) r ((s.q h.key).owner == 16)) s (fun s =>
      if !(s.region r).retire.isEmpty then updRegion r (fun x => { x with retire := x.retire ++ [h.key] }) s
      else retireRegion r h.key s)))

/-- Is any accepted access of a region unfinished (R175)? A rebase counts (R213), and a line that the plough holds (R236). -/
def regionBusy (s : State) (r : Nat) : Bool :=
  s.mem.reads.any (fun x => x.region == r) || s.mem.writes.any (fun x => x.region == r) || s.mem.rebases.any (fun x => x.region == r) ||
  linesWait s r || (match ploughOf s r with | some p => !(p.locked.isEmpty && p.moved.isEmpty) | none => false)

/-- REGION_DESCRIPTOR_FREED (R175, R187, R236, R255 step 2). -/
def execRegionDescriptorFreed (region : BitVec 12) (s : State) : Host.Outcome State Fault Refusal :=
  .next <|
    let r := region.toNat
    let x := s.region r
    if !x.valid || x.retire.isEmpty || regionBusy s r then s
    else
      let s := freePlough r s
      let s := { s with mem := { s.mem with
        regions := s.mem.regions.set r {}
        cache := s.mem.cache.filter (fun c => c.region != r)
        crown := if x.mode == 0 then (rangeFrom x.crownFirst (levelLines x 3)).foldl (fun t i => t.set i 0) s.mem.crown else s.mem.crown
        fallow := s.mem.fallow.mapEnts (fun _ f => if f.state == 1 && f.region == r then { f with state := 2 } else f) } }
      x.retire.foldl (fun s k => finish k St.success 0 s) (clearRegionKeys r s)

/-- REGION_GRANT (R151, R370, R601). A region under the plough accepts it (R236). -/
def execRegionGrant (h : CmdHdr) (region : BitVec 16) (grantee : BitVec 8) (s : State) : Host.Outcome State Fault Refusal :=
  .next (cexRun h 0x0102 [(0x18, 2, region.toNat), (0x1A, 1, grantee.toNat)] s (fun s =>
    let r := region.toNat
    let g := grantee.toNat
    let x := s.region r
    checked h (indexChecks s (hdrSlice h) r false ++
      [(decide (g < 16) && g != x.slice && (s.slice g).state != 0, St.invalidOperand, 0),
       (bit x.grants g || (x.mode != 3 && (x.state == 1 || x.state == 2)), St.regionState, 0)]) s (fun s =>
      finish h.key St.success 0 (updRegion r (fun x => { x with grants := setBit x.grants g }) s))))

/-- REGION_REVOKE (R151, R152, R601). A GRANTEE above 15 is refused like REGION_GRANT's (log 132). -/
def execRegionRevoke (h : CmdHdr) (region : BitVec 16) (grantee : BitVec 8) (s : State) : Host.Outcome State Fault Refusal :=
  .next (cexRun h 0x0103 [(0x18, 2, region.toNat), (0x1A, 1, grantee.toNat)] s (fun s =>
    let r := region.toNat
    let g := grantee.toNat
    checked h (indexChecks s (hdrSlice h) r false ++ [(decide (g < 16), St.invalidOperand, 0)]) s (fun s =>
      finish h.key St.success 0 (updRegion r (fun x => { x with grants := clrBit x.grants g }) s))))

/-! ### The fallow list -/

/-- A fallow entry as 256 bits, little-endian (R252). -/
def Fallow.bytes (f : Fallow) : Bytes :=
  leBytes 32 (f.failed * 2 ^ 216 + f.first * 2 ^ 176 + f.count * 2 ^ 144 + f.region * 2 ^ 132 + f.slices * 2 ^ 116 + f.engine * 2 ^ 112 +
    f.cause * 2 ^ 104 + f.anchor * 2 ^ 96 + (f.timestamp % 2 ^ 64) * 2 ^ 32 + f.state)

/-- FALLOW_READ (R252, R370). -/
def execFallowRead (h : CmdHdr) (bva : BitVec 64) (x : Option XFault) (s : State) : Host.Outcome State Fault Refusal :=
  .next (cexRun h 0x0104 [(0x18, 8, bva.toNat)] s (fun s =>
    checked h [(aligned8 bva, St.invalidOperand, 0)] s (fun s =>
      match x with
      | some f => xltFault h.key h.ctx.toNat f s
      | none =>
        let es := (List.range 256).map s.mem.fallow.get
        finish h.key St.success ((es.filter (fun f => f.state != 0)).length) (s.emit (.dma 16 bva.toNat ((es.map Fallow.bytes).flatten))))))

/-- PAGE_RETIRE (R255 step 4, R256). -/
def execPageRetire (h : CmdHdr) (entry opt : BitVec 8) (s : State) : Host.Outcome State Fault Refusal :=
  .next (cexRun h 0x0105 [(0x18, 1, entry.toNat), (0x19, 1, opt.toNat)] s (fun s =>
    let i := entry.toNat
    let clear := bit opt.toNat 0
    let f := s.mem.fallow.get i
    checked h [(f.state != 1, St.regionState, 0), (f.state == 2 || clear, St.invalidOperand, 0)] s (fun s =>
      finish h.key St.success 0 { s with mem := { s.mem with
        fallow := s.mem.fallow.set i {}, fallowOver := s.mem.fallowOver && !clear } })))

/-! ### Saves of one-shot regions -/

/-- SAVE_BEGIN (R210). -/
def execSaveBegin (h : CmdHdr) (region : BitVec 16) (first count : BitVec 64) (s : State) : Host.Outcome State Fault Refusal :=
  .next (cexRun h 0x0110 [(0x18, 2, region.toNat), (0x20, 8, first.toNat), (0x28, 8, count.toNat)] s (fun s =>
    let r := region.toNat
    let x := s.region r
    checked h (indexChecks s (hdrSlice h) r false ++
      [(x.mode == 2 && x.state == 1 && x.save != 1, St.regionState, 0),
       (decide (1 ≤ count.toNat) && decide (first.toNat + count.toNat ≤ x.lines), St.invalidOperand, 0),
       (x.stepOrSeq != 2 ^ 48 - 1, St.sequenceExhausted, 0)]) s (fun s =>
      finish h.key St.success x.stepOrSeq <| pend 245 (updRegion r (fun x => { x with
        saveSeq := x.stepOrSeq, stepOrSeq := x.stepOrSeq + 1, phaseWrites := 0, save := 1, saveFirst := first.toNat, saveCount := count.toNat }) s))))

/-- STEP_OVERWRITE: writes beyond the line count (R203, R211). -/
def raiseOverwrite (r extra : Nat) (s : State) : State := raise (ownerRings s r) 5 0x8016 (r * 2 ^ 52 + extra % 2 ^ 48) s

/-- SAVE_END (R211): it ends once every write accepted in WRITING has been written. -/
def execSaveEnd (h : CmdHdr) (region : BitVec 16) (s : State) : Host.Outcome State Fault Refusal :=
  .next (cexRun h 0x0111 [(0x18, 2, region.toNat)] s (fun s =>
    let r := region.toNat
    let x := s.region r
    checked h (indexChecks s (hdrSlice h) r false ++ [(x.mode == 2 && x.save == 1 && x.ending.isNone, St.regionState, 0)]) s (fun s =>
      settleSave r (updRegion r (fun x => { x with ending := some h.key }) s))))

/-- SAVE_DISCARD (R212, R227). -/
def execSaveDiscard (h : CmdHdr) (region : BitVec 16) (s : State) : Host.Outcome State Fault Refusal :=
  .next (cexRun h 0x0112 [(0x18, 2, region.toNat)] s (fun s =>
    let r := region.toNat
    checked h (indexChecks s (hdrSlice h) r false ++ [((s.region r).mode == 2, St.regionState, 0)]) s (fun s =>
      finish h.key St.success 0 (pend 245 (updRegion r (fun x => { x with save := 0, saveFirst := 0, saveCount := 0 }) s)))))

end Sys2Proof.Machine
end

