-- ==== Sys2Proof/Machine/Plough.lean ====
section
/-!
DEFINITION. The plough: its start, the moving of lines, its pauses and its completion (R217-R238).
-/
namespace Sys2Proof.Machine

/-! ### PLOUGH -/

/-- The free next-epoch key sets (R144, R219). -/
def freeSet (s : State) : Option Nat := (List.range 256).find? (fun i => !s.mem.ploughs.any (fun p => p.set == i))

/-- The conditions of R219, in order. -/
def ploughChecks (s : State) (sl r epoch d w t : Nat) : List (Bool × Nat × Nat) :=
  let x := s.region r
  [(decide (r < 4096), St.invalidOperand, 0),
   (x.valid && x.state == 1 && x.mode != 3 && x.slice == sl, St.regionState, 1), (keyed s sl, St.domainState, 1),
   (decide (x.epoch < epoch) && (match s.mem.mark.get r with | some e => decide (e < epoch) | none => true), St.epochReused, 2)] ++
  regionKeyChecks s sl r epoch d w t 3 ++
  [((freeSet s).isSome, St.resourceExhausted, 1), (decide (s.mem.ploughs.length < 256), St.resourceExhausted, 2),
   (!(x.mode == 2 && x.save == 1), St.regionState, 5), (!x.importing, St.regionState, 6), (kweRuns s, St.entropyFailure, 0), ((s.slot d).key != (s.slot w).key, St.keyEqual, 7)]

/-- The base B of a plough (R220 step 3). -/
def ploughBase (x : Region) : Nat :=
  match x.mode with
  | 1 => x.stepOrSeq
  | 2 => if x.save == 2 then x.saveSeq else x.stepOrSeq
  | _ => 0

/-- An accepted PLOUGH (R220). -/
def startPlough (h : CmdHdr) (r epoch d w t : Nat) (s : State) : State :=
  let x := s.region r
  let set := (freeSet s).getD 0
  let p : Plough := {
    region := r, state := 1, lf := 0, base := ploughBase x, epoch, set, keys := [h.key], ctx := h.ctx.toNat }
  let s := loadRegionKeys (4096 + set) d w t s
  let s := { s with mem := { s.mem with ploughs := s.mem.ploughs ++ [p], mark := s.mem.mark.set r (some epoch) } }
  advance r (updRegion r (fun x => { x with nextData := d, nextTweak := w, nextTag := t, furrow := 0, state := 2 }) s)

/-- Is a PLOUGH the resume form (R219): the same epoch and slots on a paused plough of the slice's region? -/
def resumes (s : State) (sl r epoch d w t : Nat) : Bool :=
  let x := s.region r
  x.valid && x.state == 2 && x.slice == sl && x.nextData == d && x.nextTweak == w && x.nextTag == t &&
  match ploughOf s r with | some p => p.state == 2 && p.epoch == epoch | none => false

/-- PLOUGH (R219, R220). -/
def execPlough (h : CmdHdr) (region : BitVec 16) (epoch : BitVec 32) (nextData nextTweak nextTag : BitVec 16) (s : State) :
    Host.Outcome State Fault Refusal :=
  .next (cexRun h 0x0120 [(0x18, 2, region.toNat), (0x1C, 4, epoch.toNat), (0x20, 2, nextData.toNat), (0x22, 2, nextTweak.toNat), (0x24, 2, nextTag.toNat)] s (fun s =>
    let r := region.toNat
    let (e, d, w, t) := (epoch.toNat, nextData.toNat, nextTweak.toNat, nextTag.toNat)
    if resumes s (hdrSlice h) r e d w t then
      updPlough r (fun p => { p with state := 1, cause := 0, told := false, keys := p.keys ++ [h.key], ctx := h.ctx.toNat }) s
    else checked h (ploughChecks s (hdrSlice h) r e d w t) s (startPlough h r e d w t)))

/-! ### Moving lines -/

/-- May the plough take the lock on a data line (R213, R222, R223, R225)? The line lies at or above LF and within reach; no
access accepted on it is unfinished but a write that only the plough frees (R196) and a read that waits for its calibration retry (R259); no
rebase holds its lock. In a tree region a counter line to be opened finds the old copy of its level free, and the new copy that would count
the move is not being rebased (R195). -/
def mayMove (s : State) (p : Plough) (x : Region) (r n : Nat) : Bool :=
  let ln := x.firstLn + n
  decide (p.lf ≤ n) && decide (n < min x.lines (p.lf + 256)) && !lineLocked s r n && skipTo x n == n &&
  !s.mem.reads.any (fun y => y.region == r && y.ln == ln && y.holds) && !s.mem.writes.any (fun w => w.ln == ln && !w.held) &&
  (x.mode != 0 ||
    ((toOpen p n).all (fun l => !p.old.any (fun c => c.level == l)) &&
     !(lineOpened p 1 (n / 128) && s.mem.rebases.any (fun b => b.region == r && b.level == 1 && b.idx == n / 128 && !b.old))))

/-- The old version candidates of a line that the plough moves (R224). -/
def oldVersions (s : State) (x : Region) (r n : Nat) : Option (List Nat) :=
  match x.mode with
  | 0 => (versionOf s r 0 n).map (fun v => [v])
  | 1 => some (if x.window then [x.stepOrSeq + 1, x.stepOrSeq] else [x.stepOrSeq])
  | _ => some [x.saveSeq]

/-- Are the counter lines over a data line at hand: those to be opened, and the level-1 line that gives the new version?
A missing one is fetched (R192). -/
def countersReady (s : State) (p : Plough) (r n : Nat) : Bool :=
  (1 :: toOpen p n).all (fun l => (cached s r l (n / 128 ^ l)).isSome)

/-- Does the plough of a region work on a line: running with the PLG in service, or stopping, on a line at or below one that it holds, so
that LF can pass that one (R232, R236)? -/
def ploughWorks (s : State) (p : Plough) (n : Nat) : Bool :=
  (p.state == 1 && !(s.rcv.hist.get 22).resetting) || (p.locked ++ p.moved).any (fun m => decide (n ≤ m))

/-- The plough takes a line's lock, opens the counter lines over it, and reads it under the old epoch (R222, R225). -/
def lockLine (r n : Nat) (cands : List Nat) (s : State) : State :=
  match ploughOf s r with
  | none => s
  | some p =>
    let s := if (s.region r).mode = 0 then (toOpen p n).foldl (fun s l => openLine r l (n / 128 ^ l) s) s else s
    startRead { ownRead s r 0 n false .plough with cands := some cands } (updPlough r (fun p => { p with locked := p.locked ++ [n] }) s)

/-- PLOUGH_LINE_MOVE (R222-R228, R231): the plough goes on to a line, or `read` is what its read of that line has returned. A line that R223
or R225 makes it wait for is left for a later event. -/
def execPloughLineMove (region : BitVec 12) (line : BitVec 33) (read : LineRead) (s : State) : Host.Outcome State Fault Refusal :=
  .next <|
    let r := region.toNat
    let n := line.toNat
    let x := s.region r
    let mine (y : MemRead) : Bool := y.region == r && y.idx == n && y.purpose == .plough
    match ploughOf s r with
    | none => s
    | some p =>
      if s.mem.reads.any mine then returned mine read.pc read.word s
      else if !ploughWorks s p n || !mayMove s p x r n || isFallow s (x.firstLn + n) then s
      else if x.mode == 0 && !countersReady s p r n then (1 :: toOpen p n).foldl (fun s l => fetchLine r l (n / 128 ^ l) s) s
      else match oldVersions s x r n with
        | none => fetchMissing r n s
        | some cands => lockLine r n cands s

/-! ### Completion and pauses -/

/-- The steps of R234. What waits in the engines keeps its number less B. -/
def completePlough (r : Nat) (p : Plough) (s : State) : State :=
  let x := s.region r
  let olds := [x.keyData, x.keyTweak, x.keyTag]
  let b := if x.mode = 0 then 0 else p.base
  let s := updRegion r (fun x => { x with
    stepOrSeq := x.stepOrSeq - b, saveSeq := if x.mode == 2 && x.save == 2 then x.saveSeq - b else x.saveSeq,
    epoch := p.epoch, keyData := x.nextData, keyTweak := x.nextTweak, keyTag := x.nextTag, nextData := 0, nextTweak := 0, nextTag := 0,
    furrow := 0, state := 1, epochAt := s.now, agesRaised := 0, exhausted := false }) s
  let s := zeroizeSlots (fun n _ => decide (n ∈ olds)) s
  let s := freePlough r (loadRegionKeys r x.nextData x.nextTweak x.nextTag s)
  let s := { s with mem := { s.mem with
    ploughsDone := s.mem.ploughsDone + 1
    cache := mapIf (fun c => c.region == r) (fun c => { c with newer := false }) s.mem.cache
    reads := mapIf (fun c => c.region == r) (fun c => { c with newer := false, raw := c.raw.map (fun l => (l.filter (fun v => decide (b ≤ v))).map (fun v => v - b)) }) s.mem.reads
    writes := mapIf (fun w => w.region == r) (fun w => { w with raw := w.raw.map (fun v => v - b) }) s.mem.writes } }
  pend 250 <| settleReads r (settleKeyFences r (p.keys.foldl (fun s k => finish k St.success 0 s) s))

/-- PLOUGH_COMPLETE (R234): LF has reached the region's line count and every lock is released. -/
def execPloughComplete (region : BitVec 12) (s : State) : Host.Outcome State Fault Refusal :=
  .next <|
    let r := region.toNat
    let s' := advance r s
    match ploughOf s' r with
    | none => s
    | some p => if (s'.region r).state == 2 && p.state == 1 && p.lf == (s'.region r).lines && p.locked.isEmpty then completePlough r p s' else s

/-- A plough pauses (R232): 1 context kill, which ends its commands, 2 PLG reset, 3 freeze. A kill takes a paused plough's commands too, which
then waits for the resume form of R219, and a freeze outlasts the PLG's reset. PLOUGH_PAUSED follows when the lines it holds are finished. -/
def pausePlough (r cause : Nat) (s : State) : State :=
  match ploughOf s r with
  | none => s
  | some p =>
    if !(p.state == 1 || (p.state == 2 && ((cause = 1 && p.cause != 1) || (cause = 3 && p.cause == 2)))) || cause = 0 || 3 < cause then s
    else
      let s := if cause = 1 then p.keys.foldl (fun s k => finish k St.contextKilled 0 s) s else s
      settlePlough r (updPlough r (fun p => { p with state := 2, cause, told := p.told && p.state == 2, keys := if cause = 1 then [] else p.keys }) s)

/-- Ploughs that a PLG reset paused resume when the PLG returns to service (R232). -/
def resumePloughs (s : State) : State :=
  { s with mem := { s.mem with ploughs := mapIf (fun p => p.state == 2 && p.cause == 2) (fun p => { p with state := 1, cause := 0, told := false }) s.mem.ploughs } }

/-- PLOUGH_PAUSE (R232). -/
def execPloughPause (region : BitVec 12) (cause : BitVec 4) (s : State) : Host.Outcome State Fault Refusal :=
  .next (pausePlough region.toNat cause.toNat s)

/-- EPOCH_AGED (R217, R218): the region's epoch has reached its slice's limit, or a further one. The event means that the
age has been reached (log 6). -/
def execEpochAged (region : BitVec 12) (s : State) : Host.Outcome State Fault Refusal :=
  .next <|
    let r := region.toNat
    let x := s.region r
    let limit := s.mem.ageLimit.get x.slice
    if !x.valid || x.mode == 3 || limit == 0 || !(x.state == 1 || x.state == 2) then s
    else
      let age := max ((s.now - x.epochAt) / 1000000000) ((x.agesRaised + 1) * limit)
      raise [x.slice] 6 0x8020 (r + (age % 2 ^ 32) * 2 ^ 32) (updRegion r (fun x => { x with agesRaised := age / limit }) s)

end Sys2Proof.Machine
end

