-- ==== Sys2Proof/Machine/Calib.lean ====
section
/-!
DEFINITION. The calibration interlock, margin sweeps and the throttle code (R239-R250).
-/
namespace Sys2Proof.Machine

/-! ### Announcements -/

/-- The stacks that a byte range lies on; the decoding repeats after K granules (R177). -/
def rangeStacks (s : State) (a : Nat × Nat) : List Nat :=
  let g := 2 ^ s.mem.decodeG
  ((rangeFrom (a.1 / g) (min ((a.1 + a.2 + g - 1) / g - a.1 / g) s.mem.decodeK)).map (fun i => stackOf s (i * g / 128))).eraseDups

/-- Has a valid protected region a line on a stack (R244)? -/
def regionOn (s : State) (x : Region) (e : Nat) : Bool := x.valid && x.mode != 3 && x.ranges.any (fun a => decide (e ∈ rangeStacks s a))

/-- Is a stack in mission mode (R244)? -/
def missionMode (s : State) (e : Nat) : Bool := s.mem.regions.ents.any (fun r => regionOn s r.2 e)

/-- SWEEP_EN of a stack (R244). -/
def sweepEn (s : State) (e : Nat) : Bool := !missionMode s e || (s.mem.cal.get e).granted.isSome

/-- Change a stack's interlock. -/
def updCal (e : Nat) (f : Cal → Cal) (s : State) : State := { s with mem := { s.mem with cal := s.mem.cal.upd e f } }

/-- CAL_OVERRUN (R240, R246). -/
def calOverrun (e detail : Nat) (s : State) : State := logError 0x11 (9 + e) 0xFF 0 e detail s

/-- CAL_ANN (R240, R241, R248): a fifth announcement is recorded and ignored; a spare-lane switch before any stack is in
mission mode is recorded only. The record's KEY is PC_MASK, which tells it from the record of another switch (log 76). -/
def execCalAnn (stack : BitVec 4) (seq kind : BitVec 8) (mask : BitVec 64) (s : State) : Host.Outcome State Fault Refusal :=
  .next <|
    let e := stack.toNat
    if 12 ≤ e then s
    else
      let s := if kind.toNat = 2 then logError 0x12 (9 + e) 0xFF 0 mask.toNat (e + 256 * seq.toNat) s else s
      if kind.toNat = 2 && !(List.range 12).any (missionMode s) then s
      else if 4 ≤ (s.mem.cal.get e).anns.length then calOverrun e seq.toNat s
      else updCal e (fun c => { c with anns := c.anns ++ [{ seq := seq.toNat, kind := kind.toNat, mask := mask.toNat }] }) (pend (66 + 8 * e) s)

/-- An announcement closes (R240): what waited for it in the engine goes on (R242). -/
def closeAnn (e seq : Nat) (s : State) : State :=
  let s := updCal e (fun c => { c with anns := c.anns.filter (fun a => a.seq != seq) }) s
  ((s.mem.reads.filter (fun x => x.engine == e && x.suspect)).map (·.region)).eraseDups.foldl (fun s r => settleReads r s) s

/-- CAL_DONE (R240). -/
def execCalDone (stack : BitVec 4) (seq : BitVec 8) (s : State) : Host.Outcome State Fault Refusal := .next (closeAnn stack.toNat seq.toNat s)

/-- CAL_ANNOUNCEMENT_TIMEOUT (R240): an open announcement has lasted 200 local µs. -/
def execCalAnnouncementTimeout (stack : BitVec 4) (seq : BitVec 8) (s : State) : Host.Outcome State Fault Refusal :=
  .next <|
    let e := stack.toNat
    if (s.mem.cal.get e).anns.any (fun a => a.seq == seq.toNat) then closeAnn e seq.toNat (calOverrun e seq.toNat s) else s

/-! ### Sweeps -/

/-- The linked set of a stack (R245). -/
def linkedSet (s : State) (e : Nat) : List Nat :=
  let slices := ((s.mem.regions.ents.filter (fun r => regionOn s r.2 e)).map (fun r => r.2.slice)).eraseDups
  (List.range 12).filter (fun t => t == e || s.mem.regions.ents.any (fun r => decide (r.2.slice ∈ slices) && regionOn s r.2 t))

/-- Conditions 2 and 3 of R245. -/
def noSweep (s : State) (q : SweepReq) : Bool := (linkedSet s q.stack).all (fun t => (s.mem.cal.get t).granted.isNone)
def spaced (s : State) (q : SweepReq) : Bool :=
  (linkedSet s q.stack).all (fun t => match s.mem.sweepEnds.get t with | some w => decide (w + 100000000 ≤ s.now) | none => true)

/-- SWEEP_REQ (R245): a duration outside 1 to 5,000 is denied at once; any other request is queued. -/
def execSweepReq (stack : BitVec 4) (duration : BitVec 16) (mask : BitVec 64) (s : State) : Host.Outcome State Fault Refusal :=
  .next <|
    let e := stack.toNat
    if 12 ≤ e then s
    else
      let s := pend (67 + 8 * e) s
      if duration.toNat = 0 || 5000 < duration.toNat then s.emit (.sweepDeny e 1)
      else { s with mem := { s.mem with sweeps := s.mem.sweeps ++ [{ stack := e, duration := duration.toNat, mask := mask.toNat, at_ := s.now }] } }

/-- SWEEP_GNT (R245): the oldest request of the stack is granted when its conditions hold and no earlier request, of any
stack, could be granted before it (first come, DEDUCED, log 20). -/
def execSweepGnt (stack : BitVec 4) (s : State) : Host.Outcome State Fault Refusal :=
  .next <| match s.mem.sweeps.find? (fun q => noSweep s q && spaced s q) with
    | none => s
    | some q =>
      if q.stack != stack.toNat then s
      else
        let s := updCal q.stack (fun c => { c with granted := some q.duration }) s
        ({ s with mem := { s.mem with sweeps := s.mem.sweeps.erase q } } : State).emit (.sweepGnt q.stack)

/-- SWEEP_REQ_TIMEOUT (R245): the stack's oldest request has waited 1 local s; reason 3 when only the spacing holds it. -/
def execSweepReqTimeout (stack : BitVec 4) (s : State) : Host.Outcome State Fault Refusal :=
  .next <| match s.mem.sweeps.find? (fun q => q.stack == stack.toNat) with
    | none => s
    | some q =>
      if noSweep s q && spaced s q then s
      else ({ s with mem := { s.mem with sweeps := s.mem.sweeps.erase q } } : State).emit (.sweepDeny q.stack (if noSweep s q then 3 else 2))

/-- A granted sweep ends (R246). -/
def endSweep (e : Nat) (s : State) : State :=
  updCal e (fun c => { c with granted := none }) { s with mem := { s.mem with sweepEnds := s.mem.sweepEnds.set e (some s.now) } }

/-- SWEEP_END (R246). -/
def execSweepEnd (stack : BitVec 4) (s : State) : Host.Outcome State Fault Refusal :=
  .next (if (s.mem.cal.get stack.toNat).granted.isSome then endSweep stack.toNat s else s)

/-- SWEEP_DURATION_EXPIRY (R246). -/
def execSweepDurationExpiry (stack : BitVec 4) (s : State) : Host.Outcome State Fault Refusal :=
  .next <| match (s.mem.cal.get stack.toNat).granted with
    | none => s
    | some d => calOverrun stack.toNat d (endSweep stack.toNat s)

/-- THR_CHANGE (R249). ME_RATE follows at the next sample (R553). -/
def execThrChange (stack : BitVec 4) (thr : BitVec 8) (s : State) : Host.Outcome State Fault Refusal :=
  .next (if 12 ≤ stack.toNat then s else pend (68 + 8 * stack.toNat) (updCal stack.toNat (fun c => { c with thr := thr.toNat }) s))

end Sys2Proof.Machine
end

