-- ==== Sys2Proof/Machine/Control.lean ====
section
/-!
DEFINITION. Control commands: NOP, buffers and graphs, scalars, waits, local and egress fences, group definitions
(R38, R235, R287, R339-R348, R369).
-/
namespace Sys2Proof.Machine

/-- NOP (R369). -/
def execNop (h : CmdHdr) (s : State) : Host.Outcome State Fault Refusal := .next (cexRun h 0x0000 [] s (finish h.key St.success 0))

/-! ### Buffers and graphs -/

/-- Add a running CALL or LAUNCH to its queue. -/
def addFrame (f : Frame) (s : State) : State := updQ f.key.queue.toNat (fun q => { q with frames := q.frames ++ [f] }) s

/-- A fifth level of CALL and LAUNCH is a fault (R340, R356 cause 6). -/
def nested (h : CmdHdr) (s : State) (f : State → State) : State := if 4 ≤ h.key.path.length then faultCommand h.key 6 0 0 0 s else f s

/-- CALL (R340, R341). -/
def execCall (h : CmdHdr) (bva : BitVec 64) (count : BitVec 16) (index : BitVec 8) (limit : BitVec 32) (s : State) : Host.Outcome State Fault Refusal :=
  .next (cexRun h 0x0001 [(0x18, 8, bva.toNat), (0x20, 2, count.toNat), (0x22, 1, index.toNat), (0x24, 4, limit.toNat)] s (fun s =>
    nested h s (fun s =>
      checked h [(aligned8 bva && count != 0 && limit != 0, St.invalidOperand, 0), (decide (64 ≤ partitionSpaces s (hdrSlice h)), St.graphStoreFull, 0)] s
        (addFrame {
          key := h.key, graph := none, count := count.toNat, limit := limit.toNat, index := index.toNat % 16, iteration := 0, started := false, fetched := 0,
          finished := 0, bad := none, handle := none, slice := hdrSlice h }))))

/-- End a CALL after `k` iterations (R340). -/
def endCall (f : Frame) (k : Nat) (s : State) : State :=
  updQ f.key.queue.toNat (fun q => { q with frames := q.frames.filter (fun g => g.key != f.key) })
    (finish f.key (match f.bad with | some b => b.2.2 | none => 0) k s)

/-- CALL_ITERATION_START (R340): the index scalar is written, COND evaluated, and the iteration begins or the CALL ends. -/
def execCallIterationStart (key : CmdKey) (s : State) : Host.Outcome State Fault Refusal :=
  .next <| match (s.q key).frames.find? (fun f => f.key == key && f.graph.isNone), s.flight key with
    | some f, some p =>
      if (f.started && decide (f.finished < f.count)) || p.phase != .running || fetchStopped s (s.q key).owner then s
      else
        let k := if f.started then f.iteration + 1 else 0
        let s := updQ key.queue.toNat (fun q => { q with scalars := q.scalars.set f.index (BitVec.ofNat 64 k) }) s
        if !condHolds (s.q key) (rawCond p.raw) || k == f.limit then endCall f k s
        else
          let next (g : Frame) : Frame := { g with iteration := k, started := true, fetched := 0, finished := 0 }
          updQ key.queue.toNat (fun q => { q with frames := mapIf (fun g => g.key == key) next q.frames }) s
    | _, _ => s

/-- A slice's graph handle. -/
def State.graph (s : State) (sl handle : Nat) : Graph := s.cex.graphs.get (sl * 64 + handle)

/-- Change a slice's graph handle. -/
def updGraph (sl handle : Nat) (f : Graph → Graph) (s : State) : State :=
  { s with cex := { s.cex with graphs := s.cex.graphs.upd (sl * 64 + handle) f } }

/-- The `n` commands that a read of a graph returned. -/
def graphOf (n : Nat) (g : List (BitVec 512)) : List (BitVec 512) := g.take n ++ List.replicate (n - g.length) 0

/-- The SHA-384 of a graph (R342). -/
def graphDigest (g : List (BitVec 512)) : BitVec 384 := Config.sha384 (g.flatMap (fun c => leBytes 64 c.toNat))

/-- Bytes 0 to 7 of a digest as a little-endian number. -/
def digestHead (d : BitVec 384) : Nat := leNat ((beBytes 48 d.toNat).take 8)

/-- SEAL (R39, R342, R343). -/
def execSeal (h : CmdHdr) (bva : BitVec 64) (count : BitVec 16) (handle : BitVec 8) (x : Option XFault) (graph : List (BitVec 512)) (s : State) :
    Host.Outcome State Fault Refusal :=
  .next <|
    let (sl, n) := (hdrSlice h, handle.toNat)
    if n < 64 && (s.graph sl n).launches != 0 then s
    else cexRun h 0x0002 [(0x18, 8, bva.toNat), (0x20, 2, count.toNat), (0x22, 1, n)] s (fun s =>
      checked h [(aligned8 bva && count != 0 && decide (count.toNat ≤ 8192) && decide (n < 64), St.invalidOperand, 0),
        (decide (count.toNat ≤ (s.slice sl).graphKib.2 * 16), St.graphTooLarge, 0)] s (fun s =>
        match x with
        | some f => xltFault h.key h.ctx.toNat f s
        | none =>
          let d := graphDigest (graphOf count.toNat graph)
          throughGate h.key sl (digestHead d) (updGraph sl n (fun _ => { state := 1, digest := d, count := count.toNat, copy := [], launches := 0 }) s)))

/-- LOAD (R343). -/
def execLoad (h : CmdHdr) (bva : BitVec 64) (handle : BitVec 8) (x : Option XFault) (graph : List (BitVec 512)) (s : State) :
    Host.Outcome State Fault Refusal :=
  .next <|
    let (sl, n) := (hdrSlice h, handle.toNat)
    if n < 64 && (s.graph sl n).launches != 0 then s
    else cexRun h 0x0003 [(0x18, 8, bva.toNat), (0x22, 1, n)] s (fun s =>
      let g := s.graph sl n
      checked h [(aligned8 bva && decide (n < 64), St.invalidOperand, 0), (decide (g.count ≤ partitionSpaces s sl), St.graphStoreFull, 0)] s (fun s =>
        match x with
        | some f => xltFault h.key h.ctx.toNat f s
        | none =>
          let c := graphOf g.count graph
          if g.state != 0 && graphDigest c == g.digest then finish h.key St.success 0 (updGraph sl n (fun g => { g with state := 2, copy := c }) s)
          else finish h.key St.hashMismatch 0 s))

/-- LAUNCH (R344): one iteration of the on-chip copy. -/
def execLaunch (h : CmdHdr) (handle : BitVec 8) (s : State) : Host.Outcome State Fault Refusal :=
  .next (cexRun h 0x0004 [(0x22, 1, handle.toNat)] s (fun s =>
    nested h s (fun s =>
      let (sl, n) := (hdrSlice h, handle.toNat)
      let g := s.graph sl n
      checked h [(decide (n < 64), St.invalidOperand, 0), (g.state == 2, St.notLoaded, 0)] s (fun s =>
        addFrame {
          key := h.key, graph := some g.copy, count := g.count, limit := 1, index := 0, iteration := 0, started := true, fetched := 0, finished := 0,
          bad := none, handle := some (sl * 64 + n), slice := sl } (updGraph sl n (fun g => { g with launches := g.launches + 1 }) s)))))

/-! ### Scalars -/

/-- Write a scalar of a command's queue. -/
def setScalar (k : CmdKey) (i : Nat) (v : BitVec 64) (s : State) : State :=
  updQ k.queue.toNat (fun q => { q with scalars := q.scalars.set i v }) s

/-- SCALAR_SET (R369). -/
def execScalarSet (h : CmdHdr) (value : BitVec 64) (dst : BitVec 8) (s : State) : Host.Outcome State Fault Refusal :=
  .next (cexRun h 0x0010 [(0x18, 8, value.toNat), (0x20, 1, dst.toNat)] s (fun s =>
    checked h [(decide (dst.toNat < 16), St.invalidOperand, 0)] s (fun s => finish h.key St.success 0 (setScalar h.key dst.toNat value s))))

/-- SCALAR_ADD (R369): modulo 2^64. -/
def execScalarAdd (h : CmdHdr) (value : BitVec 64) (dst src opt : BitVec 8) (s : State) : Host.Outcome State Fault Refusal :=
  .next (cexRun h 0x0011 [(0x18, 8, value.toNat), (0x20, 1, dst.toNat), (0x21, 1, src.toNat), (0x22, 1, opt.toNat)] s (fun s =>
    let r := bit opt.toNat 0
    checked h [(decide (dst.toNat < 16) && (!r || decide (src.toNat < 16)), St.invalidOperand, 0)] s (fun s =>
      let q := s.q h.key
      let a := if r then q.scalars.get src.toNat else value
      finish h.key St.success 0 (setScalar h.key dst.toNat (q.scalars.get dst.toNat + a) s))))

/-- SCALAR_LOAD (R339, R369). -/
def execScalarLoad (h : CmdHdr) (bva : BitVec 64) (dst : BitVec 8) (x : Option XFault) (word : BitVec 64) (s : State) : Host.Outcome State Fault Refusal :=
  .next (cexRun h 0x0012 [(0x18, 8, bva.toNat), (0x20, 1, dst.toNat)] s (fun s =>
    checked h [(aligned8 bva && decide (dst.toNat < 16), St.invalidOperand, 0)] s (fun s =>
      match x with
      | some f => xltFault h.key h.ctx.toNat f s
      | none => finish h.key St.success word.toNat (setScalar h.key dst.toNat word s))))

/-- SCALAR_STORE (R339, R369). -/
def execScalarStore (h : CmdHdr) (bva : BitVec 64) (src : BitVec 8) (x : Option XFault) (s : State) : Host.Outcome State Fault Refusal :=
  .next (cexRun h 0x0013 [(0x18, 8, bva.toNat), (0x20, 1, src.toNat)] s (fun s =>
    checked h [(aligned8 bva && decide (src.toNat < 16), St.invalidOperand, 0)] s (fun s =>
      match x with
      | some f => xltFault h.key h.ctx.toNat f s
      | none => finish h.key St.success 0 (s.emit (.dma (tableSet s h.ctx.toNat) bva.toNat (leBytes 8 ((s.q h.key).scalars.get src.toNat).toNat))))))

/-! ### Waits -/

/-- The comparison of WAIT_MEM (R339, R369). -/
def waitHolds (cmp word value : Nat) : Bool :=
  match cmp with
  | 1 => word == value
  | 2 => word != value
  | 3 => decide (word < value)
  | 4 => decide (word ≤ value)
  | 5 => decide (value < word)
  | 6 => decide (value ≤ word)
  | 7 => Nat.land word value != 0
  | 8 => Nat.land word value == 0
  | _ => false

/-- WAIT_MEM (R15, R339, R345, R369): the first read comes with the first poll. -/
def execWaitMem (h : CmdHdr) (bva value mask : BitVec 64) (timeout : BitVec 32) (cmp : BitVec 8) (s : State) : Host.Outcome State Fault Refusal :=
  .next (cexRun h 0x0020 [(0x18, 8, bva.toNat), (0x20, 8, value.toNat), (0x28, 8, mask.toNat), (0x30, 4, timeout.toNat), (0x34, 1, cmp.toNat)] s (fun s =>
    checked h [(decide (cmp.toNat ≤ 8), St.reservedField, 0), (aligned8 bva && timeout != 0 && cmp != 0, St.invalidOperand, 0)] s
      (addWait { key := h.key, slice := hdrSlice h, kind := 1, a := bva.toNat, b := mask.toNat, c := value.toNat, cmp := cmp.toNat, since := s.now, limitUs := timeout.toNat, last := 0 })))

/-- WAIT_MEM_POLL (R345): one read of the word, every local µs. -/
def execWaitMemPoll (key : CmdKey) (x : Option XFault) (word : BitVec 64) (s : State) : Host.Outcome State Fault Refusal :=
  .next <| match s.cex.waits.find? (fun w => w.key == key && w.kind == 1) with
    | none => s
    | some w => match x with
      | some f =>
        let ctx := match s.flight key with | some fl => rawCtx fl.raw | none => 0
        xltFault key ctx f { s with cex := { s.cex with waits := s.cex.waits.filter (fun w => w.key != key) } }
      | none =>
        if waitHolds w.cmp (Nat.land word.toNat w.b) w.c then endWait key St.success word.toNat s
        else { s with cex := { s.cex with waits := mapIf (fun v => v.key == key) (fun v => { v with last := word }) s.cex.waits } }

/-- WAIT_SYNC (R345, R346). -/
def execWaitSync (h : CmdHdr) (value : BitVec 64) (counter : BitVec 8) (timeout : BitVec 32) (s : State) : Host.Outcome State Fault Refusal :=
  .next (cexRun h 0x0021 [(0x18, 8, value.toNat), (0x20, 1, counter.toNat), (0x30, 4, timeout.toNat)] s (fun s =>
    checked h [(decide (counter.toNat < 64) && timeout != 0, St.invalidOperand, 0)] s (fun s =>
      wakeSync (hdrSlice h) counter.toNat (addWait {
        key := h.key, slice := hdrSlice h, kind := 2, a := counter.toNat, b := value.toNat, c := 0, cmp := 0, since := s.now, limitUs := timeout.toNat, last := 0 } s))))

/-- WAIT_TIMEOUT (R345): a wait has reached its TIMEOUT_US. -/
def execWaitTimeout (key : CmdKey) (s : State) : Host.Outcome State Fault Refusal :=
  .next <| match s.cex.waits.find? (fun w => w.key == key) with
    | none => s
    | some w => endWait key St.timeout (if w.kind = 1 then w.last.toNat else 0) s

/-- Complete the KEY_FENCE waits on a stream pair whose EPOCH has reached the named one (R39, R345). -/
def settlePairFences (p : Nat) (s : State) : State :=
  let x := s.link.pairs.get p
  (s.cex.waits.filter (fun w => w.kind == 4 && w.a == p && (!x.valid || decide (w.b ≤ x.epoch)))).foldl (fun s w =>
    if x.valid then throughGate w.key w.slice 0 s else endWait w.key St.keyNotInstalled 0 s) s

/-- KEY_FENCE (R235, R345, R369). -/
def execKeyFence (h : CmdHdr) (epoch target timeout : BitVec 32) (s : State) : Host.Outcome State Fault Refusal :=
  .next (cexRun h 0x0032 [(0x18, 4, epoch.toNat), (0x1C, 4, target.toNat), (0x20, 4, timeout.toNat)] s (fun s =>
    let pair := bit target.toNat 31
    let i := target.toNat % 8192
    let w : WaitRec := {
      key := h.key, slice := hdrSlice h, kind := if pair then 4 else 3, a := i, b := epoch.toNat, c := 0, cmp := 0, since := s.now, limitUs := timeout.toNat, last := 0 }
    checked h [(timeout != 0 && (pair || ownsRegionIx s (hdrSlice h) i), St.invalidOperand, 0),
      (if pair then (s.link.pairs.get i).valid && (s.link.pairs.get i).slice == hdrSlice h
       else (s.region i).valid && (s.region i).slice == hdrSlice h, St.keyNotInstalled, 0)] s (fun s =>
      if pair then settlePairFences i (addWait w s) else settleKeyFences i (addWait w s))))

/-! ### Local and egress fences, groups -/

/-- FENCE_LOCAL (R38, R39, R346). -/
def execFenceLocal (h : CmdHdr) (value : BitVec 64) (counter opt : BitVec 8) (s : State) : Host.Outcome State Fault Refusal :=
  .next (cexRun h 0x0030 [(0x18, 8, value.toNat), (0x20, 1, counter.toNat), (0x21, 1, opt.toNat)] s (fun s =>
    let sig := bit opt.toNat 0
    checked h [(!sig || decide (counter.toNat < 64), St.invalidOperand, 0)] s
      (addHold { key := h.key, slice := hdrSlice h, egress := false, sample := [], tlps := 0, counter := if sig then some (counter.toNat, value) else none })))

/-- EGRESS_FENCE (R287). -/
def execEgressFence (h : CmdHdr) (s : State) : Host.Outcome State Fault Refusal :=
  .next (cexRun h 0x0033 [] s (fun s =>
    let sl := hdrSlice h
    addHold { key := h.key, slice := sl, egress := true, sample := gateSample s sl, tlps := (s.link.egress.filter (fun t => t.slice == sl)).length, counter := none } s))

/-- Change a fence group of a slice. -/
def updGroup (sl g : Nat) (f : FenceGroup → FenceGroup) (s : State) : State :=
  { s with cex := { s.cex with groups := s.cex.groups.upd (sl * 64 + g) f } }

/-- GROUP_DEFINE (R348). -/
def execGroupDefine (h : CmdHdr) (bva : BitVec 64) (group : BitVec 8) (collector : BitVec 16) (x : Option XFault) (bitmap : BitVec 4096) (s : State) :
    Host.Outcome State Fault Refusal :=
  .next (cexRun h 0x0036 [(0x18, 8, bva.toNat), (0x20, 1, group.toNat), (0x22, 2, collector.toNat)] s (fun s =>
    let (sl, g) := (hdrSlice h, group.toNat)
    checked h [(aligned8 bva && decide (1 ≤ g) && decide (g < 64), St.invalidOperand, 0), (keyed s sl, St.domainState, 0)] s (fun s =>
      match x with
      | some f => xltFault h.key h.ctx.toNat f s
      | none => if bit bitmap.toNat collector.toNat then
          finish h.key St.success 0 (updGroup sl g (fun x => { x with defined := true, members := bitmap, collector := collector.toNat }) s)
        else finish h.key St.invalidOperand 0 s)))

end Sys2Proof.Machine
end

