-- ==== Sys2Proof/Machine/Link.lean ====
section
/-!
DEFINITION. Shared operations of the link engines: the stream table, link keys, the transmission of groups, rotations, the
replay window, pending groups and the failed tag (R260-R293).
-/
namespace Sys2Proof.Machine

/-! ### Rotation of a transmit pair (R277, R280, R281) -/

/-- The local timer of a pair: that of the die of its lowest port (R11, R557). -/
def pairNow (s : State) (x : Pair) : Nat := s.leNow ((portsOf x).headD 0)

/-- Steps 1 and 2 of R277: a mark on each stream that has sent, then the switch; what waited with a stalled stream follows under
the new epoch (R303). -/
def rotatePair (p : Nat) (s : State) : State :=
  let es := (pairStreams s p).filter (fun e => (s.stream e).isOpen)
  let s := (es.filter (fun e => !(s.stream e).fresh)).foldl (fun s e => sendRotationMark e s) s
  let x := s.pair p
  let ep := nextEpoch x.epoch x.halyard
  let s := (pairStreams s p).foldl (fun s e => updStream e (fun y =>
    { y with epoch := ep, kph := !y.kph, halyard := false, ctr := 0, fresh := false, state := if y.state == 2 then 1 else y.state }) s) s
  let s := updPair p (fun x => { x with
    epoch := ep, kph := !x.kph, used := 0, next := false, halyard := false, clearing := true, rotateAsked := false, lastSwitch := some (pairNow s x)
    waiters := [], serving := x.serving ++ x.waiters }) s
  let ws := s.link.txWaits.filter (fun w => decide (w.stream ∈ es))
  let s := { s with link := { s.link with txWaits := s.link.txWaits.filter (fun w => !decide (w.stream ∈ es)) } }
  settlePairFences p (ws.foldl (fun s w => sendOwn w.stream w.mark w.payload s) (sliceCount x.slice 5 1 s))

/-- Has any stream of a pair reached the rotation limit (R277)? -/
def rotateDue (s : State) (p : Nat) : Bool := (pairStreams s p).any (fun e => decide (s.link.rotateAt ≤ (s.stream e).ctr) || (s.stream e).state == 2)

/-- Has LINK_ROTATE_HOLDOFF_US passed since the pair's last switch (R277)? It does not bind the first switch to DLK (R280). -/
def holdoffOver (s : State) (x : Pair) : Bool := x.halyard || match x.lastSwitch with | some t => decide (t + 200000 ≤ pairNow s x) | none => true

/-- Commands that a pair's rotation completes; a command of several pairs waits for the last (R282). -/
def pairDone (p : Nat) (s : State) : State :=
  let ws := (s.pair p).serving
  let s := updPair p (fun x => { x with serving := [] }) s
  ws.foldl (fun s w =>
    if s.link.pairs.ents.any (fun e => (e.2.waiters ++ e.2.serving).any (fun v => v.1 == w.1)) then s else finish w.1 St.success w.2 s) s

/-- Step 3 of R277 on a transmit pair: the old key is cleared and the next one derived on every port. -/
def installNext (p : Nat) (s : State) : State :=
  let x := s.pair p
  let s := (portsOf x).foldl (fun s q => deriveLink q p (x.epoch + 1) (keepLinks q p [linkIx q p x.epoch x.halyard] s)) s
  pairDone p (refreshNext p (updPair p (fun x => { x with clearing := false }) s))

/-! ### Closing streams (R275) -/

/-- May a closing stream's entry be freed: no open group, no group without a result? -/
def closable (s : State) (e : Nat) : Bool :=
  let x := s.stream e
  if x.rx then !s.link.pend.any (fun g => g.stream == e && !g.verified) else !(s.link.txOpen.get x.port).any (fun g => g.stream == e)

/-- Free what closing streams may be freed, and complete the commands that waited for them. -/
def settleClosing (s : State) : State :=
  let es := s.link.streams.findAll (fun e x => x.state == 3 && closable s e)
  let s := { s with link := { s.link with
    streams := es.foldl (fun t e => t.set e {}) s.link.streams
    closing := s.link.closing.map (fun (c : CmdKey × List Nat) => (c.1, c.2.filter (fun e => !decide (e ∈ es)))) } }
  let done := (s.link.closing.filter (fun (c : CmdKey × List Nat) => c.2.isEmpty)).map (·.1)
  done.foldl (fun s k => finish k St.success 0 s)
    { s with link := { s.link with closing := s.link.closing.filter (fun (c : CmdKey × List Nat) => !c.2.isEmpty) } }

/-! ### Reception -/

/-- The replay window (R283): base and window after acceptance, or none. -/
def slide : Nat → Nat → Nat → Nat × Nat
  | 0, b, w => (b, w)
  | n + 1, b, w => if bit w 0 then slide n (b + 1) (w / 2) else (b, w)
def windowAccept (base window ctr : Nat) : Option (Nat × Nat) :=
  if ctr < base then none
  else if 64 ≤ ctr - base then none
  else if bit window (ctr - base) then none
  else some (slide 65 base (setBit window (ctr - base)))

/-- Is a member a tree neighbour of a slice's member (R109, R117)? -/
def treeNeighbour (d : Dom) (m : Nat) : Bool := decide (m ∈ neighbours d)

/-- A failed tag (R290). `slc`, `cls` and `sender` are those of the group's header. -/
def failedTag (port slc stream cls sender reason : Nat) (s : State) : State :=
  let detail := port + stream * 2 ^ 8 + reason * 2 ^ 25
  let cause := if cls == 15 && treeNeighbour (s.domain slc) sender then 5 else 1
  originate slc cause detail (pend (160 + 4 * port) (logError 0x14 (23 + port) slc port detail reason s))

end Sys2Proof.Machine
end

