-- ==== Sys2Proof/Machine/Fences.lean ====
section
/-!
DEFINITION. Domain fences: FENCE_DOMAIN, STEP_OPEN and STEP_CLOSE, their marks, and the messages by which they agree across
members (R201-R203, R286, R289, R347-R351).
-/
namespace Sys2Proof.Machine

/-! ### Groups, words and routes -/

/-- A slice's fence group. -/
def State.group (s : State) (sl g : Nat) : FenceGroup := s.cex.groups.get (sl * 64 + g)

/-- Is a member in a group (R348)? -/
def inGroup (s : State) (sl g m : Nat) : Bool :=
  let d := s.domain sl
  if g = 0 then included d m else bit (s.group sl g).members.toNat m

/-- The collector of a group (R348). -/
def collectorOf (s : State) (sl g : Nat) : Nat := if g = 0 then (s.domain sl).masthead else (s.group sl g).collector

/-- A member and its tree ancestors, nearest first (R109): a domain of 4,096 members has depth 3. -/
def ancestors (d : Dom) : Nat → Nat → List Nat
  | 0, m => [m]
  | n + 1, m => m :: (match treeParent d m with | some p => ancestors d n p | none => [])

/-- The tree neighbour on the path to a member (R348): the child or adoptee above it, else the tree parent. -/
def nextHop (d : Dom) (target : Nat) : Option Nat :=
  let below := treeChildren d d.member ++ (d.children.filter (·.adopted)).map (·.member)
  match (ancestors d 4 target).find? (fun m => decide (m ∈ below)) with
  | some m => some m
  | none => match d.parent with | some p => some p | none => treeParent d d.member

/-- The fence word (R347). -/
def fenceWord (kind ftype outcome group dseq : Nat) : Nat := kind * 2 ^ 60 + ftype * 2 ^ 56 + outcome * 2 ^ 52 + group * 2 ^ 44 + dseq % 2 ^ 44

/-- The body of a FENCE_MSG (R348). -/
def fenceBody (origin target word : Nat) : Bytes := leBytes 2 origin ++ leBytes 2 target ++ leBytes 4 0 ++ leBytes 8 word

/-- Send a FENCE_MSG toward a member (R348). -/
def sendFence (sl origin target word : Nat) (s : State) : State :=
  match nextHop (s.domain sl) target with
  | some hop => sendDom sl hop 0x0102 (fenceBody origin target word) s
  | none => s

/-- The no-route refusal (R348). -/
def hasRoute (s : State) (sl g : Nat) : Bool :=
  let d := s.domain sl
  collectorOf s sl g == d.member ||
  match nextHop d (collectorOf s sl g) with
  | some hop => (match findStream s sl hop 15 false with | some e => (s.stream e).isOpen | none => false)
  | none => false

/-- The open streams of a slice in one direction whose peer is in a group. -/
def groupStreams (s : State) (sl g : Nat) (rx : Bool) : List Nat :=
  s.link.streams.findAll (fun _ x => x.isOpen && x.slice == sl && x.rx == rx && inGroup s sl g x.peer)

/-- The FENCE marks of a fence (R289); the mark of a stalled stream waits with it (R303). -/
def sendMarks (sl g word : Nat) (s : State) : State :=
  (groupStreams s sl g false).foldl (fun s e =>
    sendControl e true (leBytes 8 word) (sliceCount sl 8 1 s)) s

/-! ### The collector -/

/-- The members of a group, as a bitmap holds them. -/
def membersOf (s : State) (sl g : Nat) : List Nat := (List.range 4096).filter (inGroup s sl g)

/-- Change the wait of a fence. -/
def updFence (sl g dseq : Nat) (f : FenceWait → FenceWait) (s : State) : State :=
  updGroup sl g (fun x => { x with waits := mapIf (fun w => w.dseq == dseq) f x.waits }) s

/-- The bitmap with one more ACK (R349 step 3). -/
def FenceColl.add (c : FenceColl) (origin outcome t : Nat) : FenceColl :=
  { c with bitmap := setBit c.bitmap origin, outcome := if c.outcome = 0 then outcome else c.outcome, changedAt := t }

/-- The collector completes a fence: DONE to every member (R349 step 3). -/
def closeFence (sl g : Nat) (c : FenceColl) (s : State) : State :=
  let me := (s.domain sl).member
  let s := updGroup sl g (fun x => { x with
    colls := x.colls.filter (fun y => y.dseq != c.dseq), closed := lastN 16 (x.closed ++ [(c.dseq, c.ftype, c.outcome)]) }) s
  (membersOf s sl g).foldl (fun s m =>
    if m == me then updFence sl g c.dseq (fun w => { w with done := some c.outcome }) s
    else sendFence sl me m (fenceWord 2 c.ftype c.outcome g c.dseq) s) s

/-- The collector takes an ACK (R349 step 3, R350). -/
def collect (sl g dseq ftype origin outcome : Nat) (s : State) : State :=
  let x := s.group sl g
  match x.closed.find? (fun c => c.1 == dseq) with
  | some c => if c.2.1 == ftype then sendFence sl (s.domain sl).member origin (fenceWord 2 ftype c.2.2 g dseq) s else s
  | none =>
    let c := (x.colls.find? (fun c => c.dseq == dseq)).getD { dseq, ftype, bitmap := 0, outcome := 0, changedAt := s.now }
    let known := x.colls.any (fun c => c.dseq == dseq)
    if (!known && decide (8 ≤ x.colls.length)) || c.ftype != ftype || bit c.bitmap origin then s
    else
      let c := c.add origin outcome s.now
      if (membersOf s sl g).all (bit c.bitmap) then closeFence sl g c s
      else updGroup sl g (fun x => { x with colls := x.colls.filter (fun y => y.dseq != dseq) ++ [c] }) s

/-! ### The member -/

/-- Has a receive stream accepted and verified a fence's mark, with no lower invocation missing (R289)? The lower invocations
of a mark under an earlier epoch are the drain record's. -/
def markMet (s : State) (e word : Nat) : Bool :=
  let x := s.stream e
  s.link.marks.any (fun m => m.stream == e && m.word == word && m.verified &&
    (if m.epoch == x.epoch then decide (m.ctr < x.ctr)
     else s.link.drains.all (fun d => d.epoch != m.epoch || d.pair != x.pair || d.port != x.port ||
       d.ents.all (fun n => n.stream != e || decide (m.ctr < n.ctr)))))

/-- May a member acknowledge a fence (R286, R289, R349)? An ACK waits while its collector holds eight earlier DSEQ values. -/
def mayAck (s : State) (sl g : Nat) (w : FenceWait) : Bool :=
  w.drained && !w.acked && gateOpen s sl w.sample &&
  (groupStreams s sl g true).all (fun e => markMet s e (fenceWord 0 w.ftype 0 g w.dseq)) &&
  (s.group sl g).waits.all (fun v => v.done.isSome || decide (w.dseq < v.dseq + 8))

/-- Acknowledge a fence (R349 step 2). -/
def ackFence (sl g : Nat) (w : FenceWait) (s : State) : State :=
  let me := (s.domain sl).member
  let s := updFence sl g w.dseq (fun w => { w with acked := true, ackAt := s.now }) s
  if collectorOf s sl g == me then collect sl g w.dseq w.ftype me w.outcome s
  else sendFence sl me (collectorOf s sl g) (fenceWord 1 w.ftype w.outcome g w.dseq) s

/-- The regions that STEP_OPEN and STEP_CLOSE act on (R201). -/
def openRegions (s : State) (sl : Nat) : List Nat :=
  s.mem.regions.findAll (fun _ r => r.valid && r.slice == sl && r.mode == 1 && r.grants == 0 && (r.state == 1 || r.state == 2) && !r.window)
def closeRegions (s : State) (sl : Nat) : List Nat := s.mem.regions.findAll (fun _ r => r.valid && r.slice == sl && r.mode == 1 && r.window)

/-- Set a slice's window. -/
def setWindow (sl w : Nat) (s : State) : State := { s with mem := { s.mem with window := s.mem.window.set sl w } }

/-- The commit of STEP_OPEN (R202) and of STEP_CLOSE (R203). -/
def commitOpen (sl : Nat) (s : State) : State :=
  setWindow sl 1 ((openRegions s sl).foldl (fun s r => updRegion r (fun x => { x with window := true, phaseWrites := 0 }) s) s)
def commitClose (sl : Nat) (s : State) : State :=
  setWindow sl 0 ((closeRegions s sl).foldl (fun s r =>
    let x := s.region r
    let s := updRegion r (fun x => { x with stepOrSeq := x.stepOrSeq + 1, window := false, closing := false }) s
    if x.lines < x.phaseWrites then raiseOverwrite r (x.phaseWrites - x.lines) s else s) s)

/-- The regions and the window of a slice return from closing to open (R203). -/
def reopen (sl : Nat) (s : State) : State :=
  if s.mem.window.get sl != 2 then s
  else setWindow sl 1 ((closeRegions s sl).foldl (fun s r => updRegion r (fun x => { x with closing := false }) s) s)

/-- The status of a fence's OUTCOME (R347). -/
def outcomeStatus (o : Nat) : Nat := match o with | 0 => St.success | 2 => St.stepIncomplete | 3 => St.stepExhausted | _ => St.windowState

/-- The fence completes (R349 step 4). -/
def endFence (sl g : Nat) (w : FenceWait) (outcome : Nat) (s : State) : State :=
  let s := updGroup sl g (fun x => { x with waits := x.waits.filter (fun v => v.dseq != w.dseq) }) s
  let s := { s with link := { s.link with marks := s.link.marks.filter (fun m => !(m.slice == sl && m.word == fenceWord 0 w.ftype 0 g w.dseq)) } }
  let s := match w.ftype with
    | 2 => if outcome = 0 then commitOpen sl s else s
    | 3 => if outcome = 0 then commitClose sl s else reopen sl s
    | _ => s
  finish w.key (outcomeStatus outcome) w.dseq s

/-- One look at a group's fences: acknowledge those that may be, and complete the first in DSEQ order when it may. -/
def settleGroup (sl g : Nat) (s : State) : State :=
  let s := (s.group sl g).waits.foldl (fun s w => if mayAck s sl g w then ackFence sl g w s else s) s
  match (s.group sl g).waits with
  | [] => s
  | w :: _ => match w.done with
    | none => s
    | some o =>
      let sample := if w.doneSample.isEmpty then gateSample s sl else w.doneSample
      if gateOpen s sl sample then endFence sl g w o s else updFence sl g w.dseq (fun w => { w with doneSample := sample }) s

/-- Look at every group with waiting fences, as often as it has fences to complete. -/
def settleFences (s : State) : State :=
  (s.cex.groups.ents.filter (fun e => !e.2.waits.isEmpty)).foldl (fun s e =>
    (List.range e.2.waits.length).foldl (fun s _ => settleGroup (e.1 / 64) (e.1 % 64) s) s) s

/-- A fence command takes its DSEQ, sends its marks and begins its local part (R347, R349 step 1). -/
def startFence (h : CmdHdr) (g ftype outcome : Nat) (drained : Bool) (s : State) : State :=
  let sl := hdrSlice h
  let n := (s.group sl g).dseq + 1
  let w : FenceWait := {
    key := h.key, dseq := n, ftype, outcome, drained, sample := if drained then gateSample s sl else [], acked := false, ackAt := 0, done := none,
    doneSample := [] }
  settleFences (sendMarks sl g (fenceWord 0 ftype 0 g n) (updGroup sl g (fun x => { x with dseq := n, waits := x.waits ++ [w] }) s))

/-- The refusals of a domain fence (R347, R348). -/
def fenceChecks (s : State) (sl g : Nat) : List (Bool × Nat × Nat) :=
  [(decide (g < 64), St.invalidOperand, 0), (keyed s sl, St.domainState, 0), (g == 0 || (s.group sl g).defined, St.invalidOperand, 0),
   (hasRoute s sl g, St.noRoute, 0)]

/-- FENCE_DOMAIN (R347-R349). -/
def execFenceDomain (h : CmdHdr) (group : BitVec 8) (s : State) : Host.Outcome State Fault Refusal :=
  .next (cexRun h 0x0031 [(0x20, 1, group.toNat)] s (fun s => checked h (fenceChecks s (hdrSlice h) group.toNat) s (startFence h group.toNat 1 0 true)))

/-- STEP_OPEN (R202, R349): its local check is that the slice's window is closed. -/
def execStepOpen (h : CmdHdr) (s : State) : Host.Outcome State Fault Refusal :=
  .next (cexRun h 0x0034 [] s (fun s =>
    let sl := hdrSlice h
    checked h (fenceChecks s sl 0) s (fun t => pend 244 (startFence h 0 2 (if s.mem.window.get sl = 0 then 0 else 1) true t))))

/-- STEP_CLOSE (R203, R349): its regions are closing until the writes accepted in the window have been written. -/
def execStepClose (h : CmdHdr) (s : State) : Host.Outcome State Fault Refusal :=
  .next (cexRun h 0x0035 [] s (fun s =>
    let sl := hdrSlice h
    checked h (fenceChecks s sl 0) s (fun s =>
      if s.mem.window.get sl != 1 then pend 244 (startFence h 0 3 1 true s)
      else
        let s := (closeRegions s sl).foldl (fun s r => updRegion r (fun x => { x with closing := true }) s) s
        startFence h 0 3 0 false { s with mem := { s.mem with window := s.mem.window.set sl 2, closeKey := s.mem.closeKey.set sl (some h.key) } })))

/-- The first failing check of STEP_CLOSE, in region order (R203). -/
def closeOutcome (s : State) (sl : Nat) : Nat :=
  let bad (r : Nat) : Nat :=
    let x := s.region r
    if x.phaseWrites < x.lines then 2 else if 2 ^ 48 - 1 ≤ x.stepOrSeq + 1 then 3 else 0
  (((closeRegions s sl).map bad).find? (· != 0)).getD 0

/-- STEP_CLOSE_WRITES_DRAINED (R203): every write accepted while the window was open has been written. -/
def execStepCloseWritesDrained (slc : BitVec 4) (s : State) : Host.Outcome State Fault Refusal :=
  .next <|
    let sl := slc.toNat
    match s.mem.closeKey.get sl with
    | none => s
    | some k =>
      if (closeRegions s sl).any (writesOut s) then s
      else
        let o := closeOutcome s sl
        let s := { s with mem := { s.mem with closeKey := s.mem.closeKey.set sl none } }
        let sample := gateSample s sl
        settleFences (updGroup sl 0 (fun x => { x with waits := mapIf (fun w => w.key == k) (fun w => { w with outcome := o, drained := true, sample }) x.waits }) (pend 244 s))

/-! ### Messages -/

/-- The fields of a received fence word. -/
def wordKind (w : BitVec 64) : Nat := bits w.toNat 63 60
def wordType (w : BitVec 64) : Nat := bits w.toNat 59 56
def wordOutcome (w : BitVec 64) : Nat := bits w.toNat 55 52
def wordGroup (w : BitVec 64) : Nat := bits w.toNat 51 44
def wordDseq (w : BitVec 64) : Nat := bits w.toNat 43 0

/-- A FENCE_MSG that reaches its TARGET is accepted while the slice is KEYED or LIVE, with the KIND of its row (R347, R348). -/
def takeFence (sl : BitVec 4) (h : DomHdr) (origin kind : Nat) (word : BitVec 64) (s : State) (f : Nat → Nat → Nat → State → State) : State :=
  takeDom sl h 0x0102 (fenceBody origin (s.domain sl.toNat).member word.toNat) s (fun s =>
    if keyed s sl.toNat && wordKind word == kind && decide (wordGroup word < 64) then f sl.toNat (wordGroup word) (wordDseq word) s else s)

/-- FENCE_ACK (R349 step 3, R350): the collector takes an acknowledgement. -/
def execFenceAck (slc : BitVec 4) (h : DomHdr) (origin : BitVec 12) (word : BitVec 64) (s : State) : Host.Outcome State Fault Refusal :=
  .next (takeFence slc h origin.toNat 1 word s (fun sl g n s =>
    if collectorOf s sl g == (s.domain sl).member then settleFences (collect sl g n (wordType word) origin.toNat (wordOutcome word) s) else s))

/-- FENCE_DONE (R349 step 4). -/
def execFenceDone (slc : BitVec 4) (h : DomHdr) (word : BitVec 64) (s : State) : Host.Outcome State Fault Refusal :=
  .next (takeFence slc h (collectorOf s slc.toNat (wordGroup word)) 2 word s (fun sl g n s =>
    settleFences (updFence sl g n (fun w => if w.acked && w.ftype == wordType word then { w with done := some (w.done.getD (wordOutcome word)) } else w) s)))

/-- A member sends its ACK for a fence again (R350). -/
def ackAgain (sl g n : Nat) (s : State) : State :=
  match (s.group sl g).waits.find? (fun w => w.dseq == n && w.acked && w.done.isNone) with
  | some w =>
    let me := (s.domain sl).member
    let s := updFence sl g n (fun w => { w with ackAt := s.now }) s
    if collectorOf s sl g == me then s else sendFence sl me (collectorOf s sl g) (fenceWord 1 w.ftype w.outcome g n) s
  | none => s

/-- FENCE_RESEND (R350). -/
def execFenceResend (slc : BitVec 4) (h : DomHdr) (word : BitVec 64) (s : State) : Host.Outcome State Fault Refusal :=
  .next (takeFence slc h (collectorOf s slc.toNat (wordGroup word)) 3 word s (fun sl g n s => ackAgain sl g n s))

/-- FENCE_MSG_FORWARD (R348): a FENCE_MSG for another member goes on along the tree. -/
def execFenceMsgForward (slc : BitVec 4) (h : DomHdr) (origin target : BitVec 16) (word : BitVec 64) (s : State) : Host.Outcome State Fault Refusal :=
  .next (takeDom slc h 0x0102 (fenceBody origin.toNat target.toNat word.toNat) s (fun s =>
    let sl := slc.toNat
    if keyed s sl && target.toNat != (s.domain sl).member then sendFence sl origin.toNat target.toNat word.toNat s else s))

/-- FENCE_REREQUEST_EXPIRY (R350): at a collector, RESEND to each missing member; at a member, the ACK again. -/
def execFenceRerequestExpiry (slc : BitVec 4) (group : BitVec 6) (dseq : BitVec 44) (collector : Bool) (s : State) : Host.Outcome State Fault Refusal :=
  .next <|
    let (sl, g, n) := (slc.toNat, group.toNat, dseq.toNat)
    if !collector then ackAgain sl g n s
    else match (s.group sl g).colls.find? (fun c => c.dseq == n) with
      | none => s
      | some c =>
        let me := (s.domain sl).member
        ((membersOf s sl g).filter (fun m => !bit c.bitmap m && m != me)).foldl (fun s m =>
          obsAdd 83 1 (sendFence sl me m (fenceWord 3 c.ftype 0 g n)
            { s with cex := { s.cex with rerequests := s.cex.rerequests.upd sl (· + 1) } })) s

/-- DOMAIN_FENCE_TIMEOUT (R349, R133): no DONE has arrived within the domain fence timeout. -/
def execDomainFenceTimeout (key : CmdKey) (s : State) : Host.Outcome State Fault Refusal :=
  .next <| match s.cex.groups.ents.find? (fun e => e.2.waits.any (fun w => w.key == key && w.done.isNone)) with
    | none => s
    | some e => match e.2.waits.find? (fun w => w.key == key) with
      | none => s
      | some w => originate (e.1 / 64) 6 (e.1 % 64 + w.ftype * 2 ^ 6 + w.dseq % 2 ^ 22 * 2 ^ 10) s

end Sys2Proof.Machine
end

