-- ==== Sys2Proof/Machine/HostTx.lean ====
section
/-!
DEFINITION. What the host link engine sends under IDE (R298, R299).
-/
namespace Sys2Proof.Machine

/-- The IDE stream of a TDI. -/
def State.ideOf (s : State) (sl : Nat) : Ide := s.link.ide.get sl

/-- Change the IDE stream of a TDI. -/
def updIde (sl : Nat) (f : Ide → Ide) (s : State) : State := { s with link := { s.link with ide := s.link.ide.upd sl f } }

/-- The place of an IDE key of the 192-entry key file (R298). -/
def ideSet (tx : Bool) (sub : Nat) (k : Bool) : Nat := 2 * (3 * b2n tx + sub) + b2n k
def ideIx (sl set : Nat) : Nat := sl * 12 + set

/-- TLPs that one MAC covers: posted requests aggregate, every other TLP has its own (R298). -/
def ideAggregate (s : State) (sub : Nat) : Nat := if sub = 0 then s.link.ideAggregation else 1

/-- A TLP of a Secure stream (R298): the header beyond its clear part, the data and the PCRC are encrypted as the next octets of the
sub-stream's invocation, whose MAC follows its last TLP. The IV, the PCRC, what of the header stays clear and the association are their
standard's (log 12). -/
def sendIde (t : Tlp) (s : State) : State :=
  let x := s.ideOf t.slice
  let n := Config.ideClearHeader t.slice t.header
  let body := t.header.drop n ++ t.data
  let body := if Config.idePcrc t.slice then body ++ leBytes 4 (Config.pcrc (t.header ++ t.data)).toNat else body
  let (c, a, p) := x.agg.get t.sub
  let (aad, plain) := (a ++ t.header.take n, p ++ body)
  let k := x.txK.get t.sub
  let key := engKey s 5 (ideIx t.slice (ideSet true t.sub k))
  let iv := Config.ideIv t.sub (x.txCtr.get t.sub)
  let cipher := Config.gcmCrypt key iv plain
  let last := decide (ideAggregate s t.sub ≤ c + 1)
  let s := updIde t.slice (fun x => { x with
    agg := x.agg.set t.sub (if last then (0, [], []) else (c + 1, aad, plain)), txCtr := if last then x.txCtr.upd t.sub (· + 1) else x.txCtr }) s
  s.emit (.ideTlp t.slice t.sub k (t.header.take n) (cipher.drop p.length)
    (if last then some ((Config.gcmTag key iv aad cipher).setWidth 96) else none))

/-- The HLE sends a TLP that has passed the egress gate (R298, R299): under IDE on a Secure stream. -/
def sendTlp (t : Tlp) (s : State) : State :=
  if t.slice < 16 && (s.ideOf t.slice).secure then sendIde t s else s.emit (.tlp t.slice t.header t.data)

end Sys2Proof.Machine
end

