-- ==== Sys2Proof/Machine/Streams.lean ====
section
/-!
DEFINITION. Secure streams: opening, closing and rotating them, the transmission and reception of packet groups, drains, the
egress gate and dead peers (R260-R295).
-/
namespace Sys2Proof.Machine

/-! ### Opening (R273) -/

/-- The refusals of STREAM_OPEN (R273), and those of the key-work engine that derives a new pair's keys (R64, R70, R72). A pod is not known to the block, so a GATEWAY port admits every peer (log 29). -/
def openChecks (s : State) (sl peer port : Nat) (classes : List Nat) (rx : Bool) : List (Bool × Nat × Nat) :=
  [(!classes.isEmpty && decide (port < 18), St.invalidOperand, 0),
   (keyed s sl, St.domainState, 1),
   (inGroup s sl 0 peer && peer != (s.domain sl).member, St.peerInvalid, 2),
   (wired s port, St.portState, 3)] ++ roomChecks s sl peer port classes rx ++ (if pairOn s sl peer rx port then [] else dlkChecks s sl)

/-- STREAM_OPEN (R273). -/
def execStreamOpen (h : CmdHdr) (peer mask : BitVec 16) (port opt : BitVec 8) (s : State) : Host.Outcome State Fault Refusal :=
  .next (cexRun h 0x0400 [(0x18, 2, peer.toNat), (0x1A, 2, mask.toNat), (0x1C, 1, port.toNat), (0x1D, 1, opt.toNat)] s (fun s =>
    let sl := hdrSlice h
    let rx := bit opt.toNat 0
    let cs := maskClasses mask.toNat
    checked h (openChecks s sl peer.toNat port.toNat cs rx) s (fun s =>
      let entry := (freeEntries s sl port.toNat 1).headD 0
      let (s, p) := openStreams sl peer.toNat port.toNat cs rx (bit opt.toNat 1) s
      let detail := p + entry * 2 ^ 16
      if (pairStreams s p).any (fun e => decide ((s.stream e).cls ∈ cs) && (s.stream e).state == 2) then
        updPair p (fun x => { x with rotateAsked := true, waiters := x.waiters ++ [(h.key, detail)] }) s
      else finish h.key St.success detail s)))

/-! ### Closing and rotating (R275, R277, R282) -/

/-- STREAM_CLOSE (R275). -/
def execStreamClose (h : CmdHdr) (peer mask : BitVec 16) (opt : BitVec 8) (s : State) : Host.Outcome State Fault Refusal :=
  .next (cexRun h 0x0401 [(0x18, 2, peer.toNat), (0x1A, 2, mask.toNat), (0x1D, 1, opt.toNat)] s (fun s =>
    checked h [(decide (peer.toNat < 4096), St.invalidOperand, 0)] s (fun s =>
      let es := (maskClasses mask.toNat).filterMap (fun c => findStream s (hdrSlice h) peer.toNat c (bit opt.toNat 0))
      let s := es.foldl (fun s e => updStream e (fun x => { x with state := 3 }) s) s
      settleClosing { s with link := { s.link with
        closing := s.link.closing ++ [(h.key, es)]
        txWaits := s.link.txWaits.filter (fun w => !decide (w.stream ∈ es)) } })))

/-- STREAM_ROTATE (R282). -/
def execStreamRotate (h : CmdHdr) (bva : BitVec 64) (count : BitVec 16) (x : Option XFault) (list : List (BitVec 16)) (s : State) :
    Host.Outcome State Fault Refusal :=
  .next (cexRun h 0x0402 [(0x18, 8, bva.toNat), (0x20, 2, count.toNat)] s (fun s =>
    checked h [(aligned8 bva && count != 0 && decide (count.toNat ≤ 256), St.invalidOperand, 0)] s (fun s =>
      match x with
      | some f => xltFault h.key h.ctx.toNat f s
      | none =>
        let ps := ((list.take count.toNat).map (·.toNat)).eraseDups
        let ok (p : Nat) : Bool := decide (p < 8192) && (s.pair p).valid && (s.pair p).slice == hdrSlice h && !(s.pair p).rx
        checked h [(list.length == count.toNat && ps.all ok, St.invalidOperand, 0)] s (fun s =>
          ps.foldl (fun s p => updPair p (fun x => { x with rotateAsked := true, waiters := x.waiters ++ [(h.key, 0)] }) s) s))))

/-- The ports of a pair report a rotation step (R465). -/
def pendPair (p : Nat) (s : State) : State := (portsOf (s.pair p)).foldl (fun s q => pend (161 + 4 * q) s) s

/-- LINK_ROTATE (R277, R280): a transmit pair switches to its next epoch. -/
def execLinkRotate (pair : BitVec 13) (s : State) : Host.Outcome State Fault Refusal :=
  .next <|
    let p := pair.toNat
    let x := s.pair p
    if x.valid && !x.rx && (x.rotateAsked || rotateDue s p || x.halyard) && holdoffOver s x && x.next && !x.clearing && !frozen s x.slice then
      pendPair p (rotatePair p s)
    else s

/-! ### Transmission (R261, R262, R281) -/

/-- A host packet is refused at the fairlead (R261). -/
def refusePacket (port sl detail : Nat) (s : State) : State :=
  (logError 0x13 (23 + port) sl port 0 detail s).emit (.packetRefused port)

/-- Put a packet into its stream's open group, opening one where there is none (R262). -/
def putPacket (e addr opcode attr : Nat) (payload : Bytes) (closing : Bool) (s : State) : State :=
  let p := (s.stream e).port
  let s := if (s.link.txOpen.get p).any (fun g => g.stream == e) then s
    else
      let s := match s.link.txOpen.get p with
        | g :: rest => if 31 ≤ rest.length then closeTx p g.stream s else s
        | [] => s
      { s with link := { s.link with txOpen := s.link.txOpen.upd p (fun l => l ++ [{ stream := e, packets := 0, payload := [], descs := [], startedAt := s.leNow p }]) } }
  let s := { s with link := { s.link with txOpen := s.link.txOpen.upd p (fun l => mapIf (fun g => g.stream == e) (fun g =>
    { g with
      packets := g.packets + 1, payload := g.payload ++ payload
      descs := g.descs ++ descBytes addr opcode attr payload.length g.packets }) l) } }
  let full := (s.link.txOpen.get p).any (fun g => g.stream == e && decide (64 ≤ g.packets))
  if closing || full then closeTx p e s else s

/-- Add a packet to its stream (R262): the open group that it would overfill closes first. At the counter kept for the rotation mark
the packet waits outside (R281). -/
def addPacket (e addr opcode attr : Nat) (payload : Bytes) (closing : Bool) (s : State) : State :=
  let p := (s.stream e).port
  let big := match (s.link.txOpen.get p).find? (fun g => g.stream == e) with
    | some g => decide (4096 < g.payload.length + payload.length)
    | none => false
  let s := if big then closeTx p e s else s
  if (s.stream e).ctr == lastCtr then s else putPacket e addr opcode attr payload closing s

/-- HOST_PACKET_TX (R261, R262): a packet presented at a port's fairlead with its traffic class and descriptor. A packet of a
stalled stream, or of a slice whose streams send nothing, waits outside (R281, R406). -/
def execHostPacketTx (port : BitVec 5) (slc : BitVec 4) (peer : BitVec 12) (traffic : BitVec 4) (addr : BitVec 64) (opcode attr : BitVec 8)
    (payload : Bytes) (closing : Bool) (s : State) : Host.Outcome State Fault Refusal :=
  .next <|
    let sl := slc.toNat
    let cls := s.link.classMap.get traffic.toNat
    if 17 < port.toNat then s
    else if 14 < cls then refusePacket port.toNat sl 0 s
    else match findStream s sl peer.toNat cls false with
      | none => refusePacket port.toNat sl 1 s
      | some e =>
        let x := s.stream e
        if x.state == 2 || (x.state == 1 && frozen s sl) then s
        else if x.state == 1 then addPacket e addr.toNat opcode.toNat attr.toNat (payload.take 4096) closing s
        else refusePacket port.toNat sl 1 s

/-- GROUP_FLUSH_EXPIRY (R262). -/
def execGroupFlushExpiry (port : BitVec 5) (stream : BitVec 17) (s : State) : Host.Outcome State Fault Refusal :=
  .next (settleClosing (closeTx port.toNat stream.toNat s))

/-! ### The egress gate (R286, R287, R299) -/

/-- Is a held TLP's gate open? A TLP of no slice holds the samples of all sixteen. -/
def tlpGate (s : State) (t : Tlp) : Bool :=
  if t.slice < 16 then t.sample.all (gateOpen s t.slice) else t.sample.zipIdx.all (fun p => gateOpen s p.2 p.1)

/-- TLPs leave the egress gate in arrival order (R299): EGRESS_WAIT_NS of R304, and one TLP fewer before the egress fences. -/
def passTlps : Nat → State → State
  | 0, s => s
  | n + 1, s =>
    match s.link.egress with
    | [] => s
    | t :: rest =>
      if !tlpGate s t then s
      else
        let s := { s with
          link := { s.link with egress := rest }
          cex := { s.cex with holds := mapIf (fun (h : FenceHold) => h.egress && h.slice == t.slice) (fun h => { h with tlps := h.tlps - 1 }) s.cex.holds } }
        let s := if t.slice < 16 then sliceCount t.slice 7 (s.io0Now - t.at_) s else s
        passTlps n (sendTlp t s)

/-- What an opened gate lets proceed (R286). -/
def settleGate (s : State) : State :=
  settleClosing (settleGw (settleFences (settleHolds (passTlps s.link.egress.length s))))

/-! ### Reception (R267, R271, R278, R283, R285, R288) -/

/-- The fields of a group security header (R263). -/
structure Gsh where
  flags : Nat
  cls : Nat
  rxSlice : Nat
  sender : Nat
  receiver : Nat
  len : Nat
  ctr : Nat
  pkts : Nat
  format : Nat
  att : Nat
  deriving DecidableEq, Repr

/-- Read a group security header. -/
def readGsh (b : Bytes) : Gsh :=
  {
    flags := field b 0 1, cls := field b 1 1 % 16, rxSlice := field b 1 1 / 16, sender := field b 2 2, receiver := field b 4 2, len := field b 6 2,
    ctr := field b 8 5, pkts := field b 0xD 1, format := field b 0xE 1, att := field b 0xF 1 }

/-- Is a reserved field or value of a header set (R263, R266)? -/
def Gsh.bad (g : Gsh) : Bool := decide (8 ≤ g.flags) || g.format != 1 || g.pkts == 0 || decide (64 < g.pkts) || decide (4096 < g.len)

/-- A failed tag, counted on its port (R290, R304). -/
def failGroup (port slc stream cls sender reason : Nat) (s : State) : State :=
  failedTag port slc stream cls sender reason (portCount port (if reason == 2 then 9 else 8) 1 s)

/-- A group is discarded silently (R267, R271, R406). -/
def discardGroup (port : Nat) (s : State) : State := portCount port 13 1 s

/-- Is the block a pod gateway (R291)? -/
def isGateway (s : State) : Bool := (List.range 18).any (fun p => (s.port p).mode == 1)

/-- Must a stream's groups be held until their tags verify (R288)? Every port of a gateway block holds (R292, log 128). -/
def mustHold (s : State) (e : Nat) : Bool := isGateway s || (s.stream e).sav || (s.stream e).cls == 15

/-- Enter store-and-verify when a 257th group would begin to be forwarded (R288). -/
def enterSav (port : Nat) (s : State) : State :=
  if !(s.port port).sav && decide (256 ≤ unverified s port) then obsAdd 81 1 (portCount port 12 1 (updPort port (fun x => { x with sav := true }) s)) else s

/-- The plaintext of a group's payload under a key of its stream's pair. -/
def openPayload (s : State) (e epoch : Nat) (halyard : Bool) (g : Gsh) (cipher : Bytes) : Bytes :=
  let x := s.stream e
  Config.gcmCrypt (engKey s 4 (linkIx x.port x.pair epoch halyard)) (linkIv g.cls g.sender g.receiver g.ctr) cipher

/-- A group that its window has accepted becomes pending, and is forwarded unless it must be held (R285, R288). -/
def acceptGroup (port e epoch : Nat) (halyard : Bool) (g : Gsh) (gsh descs cipher : Bytes) (s : State) : State :=
  let sl := (s.stream e).slice
  let plain := openPayload s e epoch halyard g cipher
  let mark := bit g.flags 2
  let mayFwd := !mark && !mustHold s e
  let s := if mayFwd then enterSav port s else s
  let fwd := mayFwd && !(s.port port).sav
  let k := gateKey port sl
  let n := s.ac.get k + 1
  let s := { s with
    ac := s.ac.set k n
    link := { s.link with
      pend := s.link.pend ++ [{ port, slice := sl, stream := e, seq := n, epoch, halyard, gsh, descs, cipher, fwd, verified := false, at_ := s.leNow port }]
      marks := if mark then s.link.marks ++ [{ slice := sl, stream := e, word := field plain 0 8, epoch, ctr := g.ctr, verified := false }] else s.link.marks } }
  let s := portCount port 5 1 (portCount port 7 (48 + cipher.length) s)
  let s := updUsage sl (fun u => { u with linkReceived := u.linkReceived + cipher.length }) s
  let s := updPort port (fun x => { x with peak := max x.peak (unverified s port) }) s
  if fwd then s.emit (.forward port sl descs plain) else s

/-- The drain record of a pair on a port. -/
def drainOf (s : State) (port pair : Nat) : Option Drain := s.link.drains.find? (fun d => d.port == port && d.pair == pair)

/-- The receive streams of a pair on a port switch together (R278). A rotation mark already accepted goes into the record. -/
def switchRx (port p : Nat) (s : State) : State :=
  let es := (pairStreams s p).filter (fun e => (s.stream e).port == port)
  let y := s.stream (es.headD 0)
  let ep := nextEpoch y.epoch y.halyard
  let first := (s.pair p).epoch == y.epoch && (s.pair p).halyard == y.halyard
  let markOf (e : Nat) : Option Nat :=
    (s.link.marks.find? (fun m => m.stream == e && m.word == rotationMark && m.epoch == y.epoch)).map (·.ctr)
  let d : Drain := {
    port, pair := p, epoch := y.epoch, halyard := y.halyard, at_ := s.leNow port
    ents := es.map (fun e => { stream := e, ctr := (s.stream e).ctr, window := (s.stream e).window, mark := markOf e }) }
  let s := es.foldl (fun s e => updStream e (fun x => { x with ctr := 0, window := 0, epoch := ep, kph := !x.kph, halyard := false, drain := true }) s) s
  let s := { s with link := { s.link with
    drains := s.link.drains ++ [d], marks := s.link.marks.filter (fun m => !(decide (m.stream ∈ es) && m.word == rotationMark)) } }
  let s := if first then updPair p (fun x => { x with epoch := ep, kph := !x.kph, halyard := false, lastSwitch := some (s.leNow port) }) s else s
  settlePairFences p (pendPair p (refreshNext p s))

/-- An old-phase group is checked against its drain record (R279). -/
def takeOld (port e : Nat) (d : Drain) (g : Gsh) (gsh descs cipher : Bytes) (s : State) : State :=
  let x := s.stream e
  match d.ents.find? (fun n => n.stream == e) with
  | none => failGroup port x.slice e g.cls g.sender 2 s
  | some n => match windowAccept n.ctr n.window g.ctr with
    | none => failGroup port x.slice e g.cls g.sender 2 s
    | some (b, w) =>
      let rot := bit g.flags 2 && field (openPayload s e d.epoch d.halyard g cipher) 0 8 == rotationMark
      let put (n : DrainEnt) : DrainEnt := { n with ctr := b, window := w, mark := if rot then some g.ctr else n.mark }
      let put2 (v : Drain) : Drain := { v with ents := mapIf (fun n => n.stream == e) put v.ents }
      let s := { s with link := { s.link with drains := mapIf (fun v => v.port == d.port && v.pair == d.pair) put2 s.link.drains } }
      acceptGroup port e d.epoch d.halyard g gsh descs cipher s

/-- A group of its stream's current phase meets the replay window (R283). -/
def takeCurrent (port e : Nat) (g : Gsh) (gsh descs cipher : Bytes) (s : State) : State :=
  let x := s.stream e
  match windowAccept x.ctr x.window g.ctr with
  | none => failGroup port x.slice e g.cls g.sender 2 s
  | some (b, w) =>
    acceptGroup port e x.epoch x.halyard g gsh descs cipher (updStream e (fun x => { x with ctr := b, window := w }) s)

/-- Does a new-phase group wait: NEXT is clear, or no drain record is free (R278)? -/
def nextClear (s : State) (e : Nat) : Bool :=
  let x := s.stream e
  !hasLink s x.port x.pair (nextEpoch x.epoch x.halyard) false
def drainsFull (s : State) (port : Nat) : Bool := decide (16 ≤ (s.link.drains.filter (fun d => d.port == port)).length)

/-- A group whose entry has been found (R278, R279, R283). -/
def takeGroup (port e : Nat) (g : Gsh) (gsh descs cipher : Bytes) (s : State) : State :=
  let x := s.stream e
  if bit g.flags 0 == x.kph then takeCurrent port e g gsh descs cipher s
  else match drainOf s x.port x.pair with
    | some d => takeOld port e d g gsh descs cipher s
    | none =>
      if nextClear s e || drainsFull s x.port then
        { s with link := { s.link with waits := s.link.waits ++ [{ port, gsh, descs, cipher, at_ := s.leNow port }] } }
      else takeCurrent port e g gsh descs cipher (switchRx x.port x.pair s)

/-- Is the block a gateway that passes a class-15 group through: one for another member (R291, R293)? While the slice it names here
is IDLE, only a plain ROLL_CHALLENGE of a domain in which no slice of this block is a member is the slice's own (log 128). -/
def passesThrough (s : State) (g : Gsh) (payload : Bytes) : Bool :=
  let d := s.domain g.rxSlice
  g.cls == 15 && isGateway s &&
  (if d.state != 0 then g.receiver != d.member
   else !(bit g.flags 1 && field payload 0 2 == 1) || (List.range 16).any (fun i => (s.domain i).state != 0 && (s.domain i).id == field payload 8 8))

/-- Is a PLAIN group accepted (R267)? -/
def plainOk (s : State) (g : Gsh) (payload : Bytes) : Bool :=
  let st := (s.domain g.rxSlice).state
  g.cls == 15 && (st == 1 || (st == 0 && field payload 0 2 == 1))

/-- Is a group stale (R271, R406)? -/
def staleGroup (s : State) (g : Gsh) : Bool :=
  let d := s.domain g.rxSlice
  d.state == 0 || d.state == 4 || (d.state == 1 && g.cls != 15) || g.att != d.attempt % 256 || frozen s g.rxSlice

/-- Is a reserved field of a group's descriptors set (R264, R266)? -/
def descsBad (descs : Bytes) : Bool := (List.range (descs.length / 16)).any (fun i => field descs (16 * i + 14) 2 != 0)

/-- A receiving engine takes a group (R267, R271, R274, R293). -/
def receiveGroup (port : Nat) (gsh descs cipher : Bytes) (s : State) : State :=
  let g := readGsh gsh
  if passesThrough s g cipher then s.emit (.group port gsh descs cipher [])
  else if bit g.flags 1 then
    if plainOk s g cipher then gatherMsg g.rxSlice g.sender true cipher s else discardGroup port s
  else if staleGroup s g then discardGroup port s
  else match findStream s g.rxSlice g.sender g.cls true with
    | none => failGroup port g.rxSlice 0 g.cls g.sender 4 s
    | some e =>
      if decide ((s.stream e).port < 9) != decide (port < 9) then failGroup port g.rxSlice 0 g.cls g.sender 4 s
      else if (s.stream e).port != port || g.receiver != (s.domain g.rxSlice).member then failGroup port g.rxSlice e g.cls g.sender 4 s
      else if g.bad || descsBad descs then failGroup port g.rxSlice e g.cls g.sender 5 s
      else takeGroup port e g gsh descs cipher s

/-- The octets that a port's 64 KiB buffer holds: the groups held for their tags, and those that wait for a key or a drain (R278,
R288). -/
def bufferUsed (s : State) (port : Nat) : Nat :=
  ((s.link.pend.filter (fun g => g.port == port && !g.fwd && !g.verified)).map (fun g => 16 + g.descs.length + g.cipher.length)).foldl (· + ·) 0 +
    ((s.link.waits.filter (fun w => w.port == port)).map (fun w => 16 + w.descs.length + w.cipher.length)).foldl (· + ·) 0

/-- Has a port's buffer room for one more group (R288)? A full one holds back the sender. -/
def bufferRoom (s : State) (port : Nat) (descs cipher : Bytes) : Bool := decide (bufferUsed s port + 16 + descs.length + cipher.length ≤ 65536)

/-- GROUP_RECEIVE (R263, R267, R271, R278, R283, R288): a group that finds the port's buffer full is held back outside. -/
def execGroupReceive (port : BitVec 5) (gsh descs cipher : Bytes) (s : State) : Host.Outcome State Fault Refusal :=
  .next (if !wired s port.toNat || !bufferRoom s port.toNat descs cipher then s else settleGate (receiveGroup port.toNat gsh descs cipher s))

/-- The pending group of a port at a place in acceptance order. -/
def pendAt (s : State) (port index : Nat) : Option RxGroup := (s.link.pend.filter (fun g => g.port == port))[index]?

/-- Does a trailer agree with its group (R266)? -/
def trailerOk (g : RxGroup) (trailer : Bytes) : Bool :=
  let h := readGsh g.gsh
  trailer == g.gsh && h.len == g.cipher.length && g.descs.length == 16 * h.pkts

/-- Does a group's tag verify (R264, R265)? -/
def tagOk (s : State) (g : RxGroup) (tag : BitVec 128) : Bool :=
  let h := readGsh g.gsh
  let x := s.stream g.stream
  Config.gcmTag (engKey s 4 (linkIx x.port x.pair g.epoch g.halyard)) (linkIv h.cls h.sender h.receiver h.ctr) (g.gsh ++ g.descs) g.cipher == tag

/-- VT catches up with the longest verified prefix (R285). -/
def advanceVt (port sl : Nat) (s : State) : State :=
  let mine (g : RxGroup) : Bool := g.port == port && g.slice == sl && g.seq != 0
  let left := (s.link.pend.filter mine).dropWhile (·.verified)
  let lo := match left with | g :: _ => g.seq | [] => s.ac.get (gateKey port sl) + 1
  { s with
    vt := s.vt.set (gateKey port sl) (lo - 1)
    link := { s.link with pend := s.link.pend.filter (fun g => !mine g || decide (lo ≤ g.seq)) } }

/-- A group has verified: it counts toward the gate, and what was held goes on (R112, R285, R288, R289). -/
def verifiedGroup (g : RxGroup) (s : State) : State :=
  let h := readGsh g.gsh
  let plain := openPayload s g.stream g.epoch g.halyard h g.cipher
  let s := { s with link := { s.link with
    pend := if g.seq = 0 then s.link.pend.erase g else mapIf (fun x => x == g) (fun x => { x with verified := true }) s.link.pend
    marks := mapIf (fun m => m.stream == g.stream && m.epoch == g.epoch && m.ctr == h.ctr) (fun m => { m with verified := true }) s.link.marks } }
  let s := if bit h.flags 2 || g.fwd then s
    else if h.cls == 15 then gatherMsg g.slice h.sender false plain s
    else s.emit (.forward g.port g.slice g.descs plain)
  settleGate (leaveSav g.port (advanceVt g.port g.slice s))

/-- The trailer of a group that the gateway passes through follows it (R293). -/
def passTrailer (port : Nat) (trailer : Bytes) (tag : BitVec 128) (s : State) : State :=
  if passesThrough s (readGsh trailer) [] && trailer.length == 16 then s.emit (.group port [] [] [] (trailer ++ leBytes 16 tag.toNat)) else s

/-- GROUP_TRAILER (R266, R285, R290, R293): the trailer of a pending group, named by its place in acceptance order on the port, or of
one that the gateway passes through. -/
def execGroupTrailer (port : BitVec 5) (index : BitVec 16) (trailer : Bytes) (tag : BitVec 128) (s : State) : Host.Outcome State Fault Refusal :=
  .next <| match pendAt s port.toNat index.toNat with
    | none => passTrailer port.toNat trailer tag s
    | some g =>
      let h := readGsh g.gsh
      if g.verified then s
      else if trailer != g.gsh && passesThrough s (readGsh trailer) [] then passTrailer port.toNat trailer tag s
      else if !trailerOk g trailer then failGroup g.port g.slice g.stream h.cls h.sender 5 s
      else if !tagOk s g tag then failGroup g.port g.slice g.stream h.cls h.sender 1 s
      else verifiedGroup g s

/-- TRAILER_TIMEOUT (R284). -/
def execTrailerTimeout (port : BitVec 5) (index : BitVec 16) (s : State) : Host.Outcome State Fault Refusal :=
  .next <| match pendAt s port.toNat index.toNat with
    | none => s
    | some g => if g.verified then s else failGroup g.port g.slice g.stream (readGsh g.gsh).cls (readGsh g.gsh).sender 3 s

/-! ### NEXT, drains and dead peers -/

/-- The groups that wait on a port are taken again, in their order (R278). -/
def retryWaits (port : Nat) (s : State) : State :=
  let ws := s.link.waits.filter (fun w => w.port == port)
  ws.foldl (fun s w => receiveGroup w.port w.gsh w.descs w.cipher s) { s with link := { s.link with waits := s.link.waits.filter (fun w => w.port != port) } }

/-- The KWE derives a receive pair's next key on the ports that have no drain of it (R279). -/
def deriveRxNext (p : Nat) (s : State) : State :=
  let x := s.pair p
  let s := (portsOf x).foldl (fun s q =>
    let ph := phaseOn s p q
    if (drainOf s q p).isSome then s else deriveLink q p (nextEpoch ph.1 ph.2.2) s) s
  pendPair p (refreshNext p s)

/-- LINK_NEXT_KEY_DERIVED (R277 step 3, R279): the next epoch's key is installed, and what waited for it goes on. -/
def execLinkNextKeyDerived (pair : BitVec 13) (s : State) : Host.Outcome State Fault Refusal :=
  .next <|
    let p := pair.toNat
    let x := s.pair p
    if !x.valid then s
    else if x.rx then settleGate ((portsOf x).foldl (fun s q => retryWaits q s) (deriveRxNext p s))
    else if x.clearing then (if dlkUsable s x.slice then pendPair p (installNext p s) else kweRefused s)
    else s

/-- RX_NEXT_WAIT_TIMEOUT (R278): the oldest new-phase group of a port that waits for NEXT is a failed tag. -/
def execRxNextWaitTimeout (port : BitVec 5) (s : State) : Host.Outcome State Fault Refusal :=
  .next <|
    let waitsNext (w : RxWait) : Bool :=
      let g := readGsh w.gsh
      w.port == port.toNat && (match findStream s g.rxSlice g.sender g.cls true with | some e => nextClear s e | none => true)
    match s.link.waits.find? waitsNext with
    | none => s
    | some w =>
      let g := readGsh w.gsh
      let e := (findStream s g.rxSlice g.sender g.cls true).getD 0
      failGroup w.port g.rxSlice e g.cls g.sender 3 { s with link := { s.link with waits := s.link.waits.erase w } }

/-- Has a stream of a drain record accepted its rotation mark, with no lower invocation missing (R279)? -/
def entDone (s : State) (n : DrainEnt) : Bool :=
  (s.stream n.stream).state == 0 || match n.mark with | some m => decide (m < n.ctr) | none => false

/-- Is a group of a drain's old epoch still without a result (R303)? -/
def oldGroup (d : Drain) (g : RxGroup) : Bool :=
  !g.verified && g.port == d.port && decide (g.stream ∈ d.ents.map (·.stream)) && g.epoch == d.epoch && g.halyard == d.halyard

/-- DRAIN_END (R279, R303): every mark is in and every old-phase group has a result. -/
def execDrainEnd (port : BitVec 5) (pair : BitVec 13) (s : State) : Host.Outcome State Fault Refusal :=
  .next <| match drainOf s port.toNat pair.toNat with
    | none => s
    | some d =>
      let q := port.toNat
      if !d.ents.all (entDone s) || s.link.pend.any (oldGroup d) then s
      else
        let s := (d.ents.map (·.stream)).foldl (fun s e => updStream e (fun x => { x with drain := false }) s) s
        let s := { s with
          link := { s.link with drains := s.link.drains.erase d }
          engKeys := s.engKeys.filter (fun k => !(k.cls == 4 && k.index == linkIx q pair.toNat d.epoch d.halyard)) }
        settleGate (retryWaits q (pendPair pair.toNat s))

/-- DRAIN_TIMEOUT (R279): a missing rotation mark counts as a failed tag. -/
def execDrainTimeout (port : BitVec 5) (pair : BitVec 13) (s : State) : Host.Outcome State Fault Refusal :=
  .next <| match drainOf s port.toNat pair.toNat with
    | none => s
    | some d => match d.ents.find? (fun n => !entDone s n) with
      | none => s
      | some n => failGroup port.toNat (s.stream n.stream).slice n.stream (s.stream n.stream).cls (s.stream n.stream).peer 3 s

/-- The included members that a fabric endpoint names in a slice's member list (R106, R294, R295). -/
def membersAt (d : Dom) (endpoint : Nat) : List Nat :=
  (List.range d.count).filter (fun m => m != d.member && included d m && field d.list (64 * m + 0x34) 4 == endpoint)

/-- The open streams of a slice to a dead member have failed: their packets are dropped; those that are closing close on (R275,
R295). -/
def failStreams (sl m : Nat) (s : State) : State :=
  let es := s.link.streams.findAll (fun _ x => x.state != 0 && x.slice == sl && x.peer == m)
  let s := (es.filter (fun e => (s.stream e).isOpen)).foldl (fun s e => updStream e (fun x => { x with state := 4 }) s) s
  settleClosing { s with link := { s.link with
    txOpen := (List.range 18).foldl (fun t p => t.upd p (fun l => l.filter (fun g => !decide (g.stream ∈ es)))) s.link.txOpen
    txWaits := s.link.txWaits.filter (fun w => !decide (w.stream ∈ es)) } }

/-- A dead member, for one slice (R295). -/
def deadMember (sl m : Nat) (s : State) : State :=
  let s := failStreams sl m s
  if treeNeighbour (s.domain sl) m then originate sl 5 (m + 6 * 2 ^ 25) s else raise [16, sl] 7 0x8031 m s

/-- DEAD_TARGET_REPORT (R294, R295). -/
def execDeadTargetReport (port : BitVec 5) (endpoint : BitVec 32) (s : State) : Host.Outcome State Fault Refusal :=
  .next <|
    if 17 < port.toNat then s
    else
      let live (s : State) (sl : Nat) : Bool := (s.domain sl).state != 0 && (s.domain sl).state != 4
      ((List.range 16).filter (live s)).foldl (fun s sl =>
        (membersAt (s.domain sl) endpoint.toNat).foldl (fun s m => if live s sl then deadMember sl m s else s) s) (pend (163 + 4 * port.toNat) s)

end Sys2Proof.Machine
end

