-- ==== Sys2Proof/Machine/Blob.lean ====
section
/-!
DEFINITION. Shroud blobs: their header, their keys, their chunks and their checks (R73-R77); and the
transient slot of a bulk blob's key (R66, R68).
-/
namespace Sys2Proof.Machine

/-! ### Headers (R73) -/

/-- Kinds of blobs. -/
abbrev kindKey : Nat := 1
abbrev kindSave : Nat := 4

/-- A blob header as the block writes it. -/
structure BlobHdr where
  kind : Nat
  method : Nat
  domain : Nat
  wrapId : BitVec 128
  len : Nat
  log2 : Nat
  attr : Nat
  sequence : Nat
  nonce : BitVec 64
  bound : Nat
  deriving DecidableEq, Repr

/-- Chunks of a payload (R73). -/
def chunkCount (len log2 : Nat) : Nat := if log2 = 0 then 1 else (len + 2 ^ log2 - 1) / 2 ^ log2

/-- The 128 bytes of a header. -/
def BlobHdr.bytes (h : BlobHdr) : Bytes :=
  [0x53, 0x48, 0x52, 0x44] ++ leBytes 2 1 ++ leBytes 1 h.kind ++ leBytes 1 h.method ++ leBytes 8 h.domain ++ leBytes 16 h.wrapId.toNat ++
    leBytes 8 h.len ++ leBytes 1 h.log2 ++ [0, 0, 0] ++ leBytes 4 (chunkCount h.len h.log2) ++ leBytes 8 h.attr ++ leBytes 8 h.sequence ++
    leBytes 8 h.nonce.toNat ++ leBytes 8 0 ++ leBytes 16 h.bound ++ leBytes 32 0

/-- The identifier of a recipient's public keys (R73): the first 16 bytes of their SHA-384. -/
def recipientId (pub : Bytes) : BitVec 128 := BitVec.ofNat 128 (leNat ((beBytes 48 (Config.sha384 pub).toNat).take 16))

/-- The KEM section of a hybrid blob (R74). -/
def kemSection (ct eph : Bytes) : Bytes := fit 1568 ct ++ fit 97 eph ++ List.replicate 31 0

/-- The blob key (R66, R75). -/
def blobKey (secret : Bytes) (hybrid : Bool) (header : Bytes) : BitVec 256 :=
  Config.kmac256 secret (ascii (if hybrid then "PELGEN-S4/SHROUD-HYBRID" else "PELGEN-S4/SHROUD")) header

/-- The IV and the additional data of chunk `i` (R75). -/
def chunkIv (nonce i : Nat) : BitVec 96 := BitVec.ofNat 96 (nonce + i % 2 ^ 32 * 2 ^ 64)
def chunkAad (header : Bytes) (i : Nat) (last : Bool) : Bytes :=
  beBytes 48 (Config.sha384 header).toNat ++ leBytes 4 i ++ [BitVec.ofNat 8 (b2n last)]

/-- The chunks of a payload from chunk `i` on, encrypted (R75). -/
def sealChunks (key : BitVec 256) (header : Bytes) (nonce size : Nat) : Nat → Nat → Bytes → Bytes
  | 0, _, _ => []
  | n + 1, i, p =>
    let (iv, a) := (chunkIv nonce i, chunkAad header i (n == 0))
    let c := Config.gcmCrypt key iv (p.take size)
    c ++ leBytes 16 (Config.gcmTag key iv a c).toNat ++ sealChunks key header nonce size n (i + 1) (p.drop size)

/-- One chunk of a blob, opened: none when its tag fails (R76 step 6). -/
def openChunk (key : BitVec 256) (header : Bytes) (nonce i : Nat) (last : Bool) (c : Bytes) (tag : Nat) : Option Bytes :=
  let (iv, a) := (chunkIv nonce i, chunkAad header i last)
  if (Config.gcmTag key iv a c).toNat == tag then some (Config.gcmCrypt key iv c) else none

/-- The chunks of a payload of `len` bytes, opened in order until one fails: the plaintext, and whether all verified (R77). -/
def openChunks (key : BitVec 256) (header : Bytes) (nonce size : Nat) : Nat → Nat → Nat → Bytes → Bytes × Bool
  | 0, _, _, _ => ([], true)
  | n + 1, i, len, b =>
    let m := min size len
    match openChunk key header nonce i (n == 0) (slice b 0 m) (field b m 16) with
    | none => ([], false)
    | some p =>
      let r := openChunks key header nonce size n (i + 1) (len - m) (b.drop (m + 16))
      (p ++ r.1, r.2)

/-- Chunk size of a header: the whole payload of a KEY blob. -/
def chunkSize (log2 len : Nat) : Nat := if log2 = 0 then len else 2 ^ log2

/-! ### Issue -/

/-- A blob under a symmetric wrapping key (R75). -/
def sealSym (w : BitVec 256) (h : BlobHdr) (payload : Bytes) : Bytes :=
  let hdr := h.bytes
  hdr ++ sealChunks (blobKey (keyBytes w) false hdr) hdr h.nonce.toNat (chunkSize h.log2 h.len) (chunkCount h.len h.log2) 0 payload

/-- The public-key engine's free entry for a transient pair (R90). -/
def freePke (s : State) : Option Nat := (rangeFrom 18 14).find? (fun i => !(s.pke.get i).valid)

/-- Hold a transient pair while a request runs: the store entry is written before and cleared when it completes (R90). -/
def withTransient {α : Type} (seed pub : Bytes) (s : State) (f : State → α × State) : α × State :=
  match freePke s with
  | none => f s
  | some i =>
    let r := f { s with pke := s.pke.set i { valid := true, seed, pub } }
    (r.1, { r.2 with pke := r.2.pke.set i {} })

/-- The head of a hybrid blob to a recipient's ML-KEM and ECDH keys: its header with the KEM section, and its key (R74, R75);
none when the ECDH key is not one. -/
def hybridHead (rcpt : Bytes) (h : BlobHdr) (s : State) : Option (Bytes × BitVec 256) × State :=
  let (rnd, s) := drbgBits 256 s
  let (eph, s) := keyBits 384 s
  let (ct, ssKem) := Config.mlkemEncaps (slice rcpt 0 1568) (leBytes 32 rnd.toNat)
  let seed := leBytes 48 eph.toNat
  withTransient seed (Config.ecdhPub seed) s (fun s =>
    let s := pkeDone (pkeDone (pkeDone s))
    match Config.ecdhAgree seed (slice rcpt 1568 97) with
    | none => (none, s)
    | some ssEc =>
      let hdr := h.bytes ++ kemSection ct (Config.ecdhPub seed)
      (some (hdr, blobKey (leBytes 32 ssKem.toNat ++ beBytes 48 ssEc.toNat) true hdr), s))

/-- The chunks of a payload behind a header. -/
def blobChunks (key : BitVec 256) (hdr : Bytes) (h : BlobHdr) (payload : Bytes) : Bytes :=
  sealChunks key hdr h.nonce.toNat (chunkSize h.log2 h.len) (chunkCount h.len h.log2) 0 payload

/-- A hybrid blob (R74, R75). -/
def sealHybrid (rcpt : Bytes) (h : BlobHdr) (payload : Bytes) (s : State) : Option Bytes × State :=
  let r := hybridHead rcpt h s
  (r.1.map (fun p => p.1 ++ blobChunks p.2 p.1 h payload), r.2)

/-- The domain identifier that a slice's blobs carry (R73). -/
def blobDomain (s : State) (sl : Nat) : Nat :=
  let d := s.domain sl
  if (s.slice sl).state = 4 then field (s.slice sl).creation 0x140 8 else if d.state = 0 then 0 else d.id

/-! ### Checks (R76) -/

/-- Is the KEY_ATTR of a KEY blob allowed (R73, R76 step 1)? -/
def attrOk (a : Nat) : Bool :=
  !bit a 63 && !bit a 62 && bits a 59 57 == 0 && bits a 47 40 == 0 && bits a 35 0 == 0 && decide (1 ≤ bits a 39 36) && decide (bits a 39 36 ≤ 4) &&
  (!bit a 56 || (decide (1 ≤ bits a 51 48) && decide (bits a 51 48 ≤ 7)))

/-- Exactly one usage, and no ENG with EXPORTABLE (R59). -/
def usageOk (a : Nat) : Bool := popcount 5 (bits a 56 52) == 1 && !(bit a 56 && bit a 60)

/-- Fields of a blob (R73). -/
def blobMethod (b : Bytes) : Nat := field b 7 1
def blobLen (b : Bytes) : Nat := field b 0x20 8
def blobLog2 (b : Bytes) : Nat := field b 0x28 1
def blobHeaderLen (b : Bytes) : Nat := if blobMethod b = 2 then 1824 else 128

/-- Step 1 of R76. -/
def formatOk (b : Bytes) (kinds : List Nat) : Bool :=
  let k := field b 6 1
  slice b 0 4 == [0x53, 0x48, 0x52, 0x44] && field b 4 2 == 1 && decide (k ∈ kinds) && decide (blobMethod b ∈ [1, 2]) &&
  field b 0x29 3 == 0 && field b 0x48 8 == 0 && allZero (slice b 0x60 32) &&
  (if k = kindKey then attrOk (field b 0x30 8) else field b 0x30 8 == 0)

/-- Step 2 of R76. -/
def lengthOk (b : Bytes) (total : Nat) : Bool :=
  let (n, l, c) := (blobLen b, blobLog2 b, field b 0x2C 4)
  (if field b 6 1 = kindKey then n == 32 && l == 0 && c == 1
   else decide (1 ≤ n) && decide (16 ≤ l) && decide (l ≤ 24) && c == chunkCount n l) &&
  total == blobHeaderLen b + n + 16 * c

/-- The encoded public keys of a hybrid pair: ML-KEM, then ECDH (R73, R90). -/
def hybridPub (seed : Bytes) : Bytes := Config.mlkemPub seed ++ Config.ecdhPub seed

/-- The secret of a blob key: the wrapping key, or what decapsulation under a store entry gives (R75, R76 steps 4 and 5). -/
def blobSecret (s : State) (b : Bytes) (w : Option Nat) (entry : Nat) : Except Nat Bytes :=
  let id := BitVec.ofNat 128 (field b 0x10 16)
  match w with
  | some n =>
    if blobMethod b == 1 && (s.slot n).wrapId == id then .ok (keyBytes (s.slot n).key) else .error St.wrapMismatch
  | none =>
    let e := s.pke.get entry
    if blobMethod b != 2 || !e.valid || recipientId e.pub != id then .error St.wrapMismatch
    else match Config.ecdhAgree e.seed (slice b 0x6A0 97) with
      | none => .error St.decapsulationFailed
      | some ss => .ok (leBytes 32 (Config.mlkemDecaps e.seed (slice b 0x80 1568)).toNat ++ beBytes 48 ss.toNat)

/-- Steps 1 to 5 of R76: the blob key, or the status of the first failure. -/
def checkBlob (s : State) (sl : Nat) (b : Bytes) (kinds : List Nat) (total : Nat) (w : Option Nat) (entry : Nat) : Except Nat (BitVec 256) :=
  if !formatOk b kinds then .error St.blobFormat
  else if !lengthOk b total then .error St.blobLength
  else if field b 8 8 != 0 && field b 8 8 != blobDomain s sl then .error St.domainMismatch
  else match blobSecret s b w entry with
    | .error e => .error e
    | .ok x => .ok (blobKey x (blobMethod b == 2) (slice b 0 (blobHeaderLen b)))

/-- The payload of a blob after step 6 of R76: what verified, and whether all of it did. -/
def openBlob (key : BitVec 256) (b : Bytes) : Bytes × Bool :=
  let h := blobHeaderLen b
  openChunks key (slice b 0 h) (field b 0x40 8) (chunkSize (blobLog2 b) (blobLen b)) (field b 0x2C 4) 0 (blobLen b) (b.drop h)

/-! ### The transient slot of a bulk blob's key (R66, R68) -/

/-- The transient BLOB-class slot: the last empty slot of the slice's partition (R66, R68, log 125). -/
def blobSlot (s : State) (sl : Nat) : Option Nat :=
  let r := (s.slice sl).keys
  (rangeFrom r.1 r.2).reverse.find? (fun n => !(s.slot n).valid)

/-- The key of a bulk blob stands in its transient slot, ENG BLOB with ZOA, AES-256 and derived, until the command that created it
completes or fails (R66, R68). -/
def withBlobSlot (sl ctx : Nat) (key : BitVec 256) (s : State) (f : State → State × Nat × Nat) : State × Nat × Nat :=
  match blobSlot s sl with
  | none => (s, St.resourceExhausted, 8)
  | some n =>
    let r := f (kweDone (writeSlot n key (attrWord 56 7 sl 1 1 true false false) (bindWord ctx 0xFFFF 0) 0 s))
    (zeroizeSlots (fun m _ => m == n) r.1, r.2)

end Sys2Proof.Machine
end

