-- ==== Sys2Proof/Machine/DomainOps.lean ====
section
/-!
DEFINITION. Shared operations of domain formation: measurement registers (R91, R92), evidence and its checks (R113, R115,
R122), aggregate statements (R116), the domain evidence and its Merkle tree (R119, R120), halyard edges (R126).
-/
namespace Sys2Proof.Machine

/-! ### Measurement registers -/

/-- A digest of 384 bits as 48 octets. -/
def digestBytes (d : BitVec 384) : Bytes := beBytes 48 d.toNat

/-- Extension (R91). -/
def extend (r : BitVec 384) (d : BitVec 384) : BitVec 384 := Config.sha384 (digestBytes r ++ digestBytes d)

/-- Extend an MR or an SMR. -/
def extendMr (i : Nat) (d : BitVec 384) (s : State) : State := { s with atu := { s.atu with mr := s.atu.mr.upd i (fun r => extend r d) } }
def extendSmr (i : Nat) (d : BitVec 384) (s : State) : State := { s with atu := { s.atu with smr := s.atu.smr.upd i (fun r => extend r d) } }

/-- The boot-source record (R92), in the model's layout (log 34): octet 0 for flash; octet 1 and the image's digest for recovery. -/
def bootRecord (recovery : Option (BitVec 384)) : Bytes := match recovery with | none => [0] | some d => 1 :: digestBytes d

/-- MR5 of a flash boot. -/
def flashMr5 : BitVec 384 := extend 0 (Config.sha384 (bootRecord none))

/-! ### Slots -/

/-- The free slots of a slice's partition (R61, R104). -/
def freeSlots (s : State) (sl : Nat) : List Nat :=
  let r := (s.slice sl).keys
  (rangeFrom r.1 r.2).filter (fun n => decide (32 ≤ n) && !(s.slot n).valid)

/-- A key goes into a slot of a slice, with usage DRV, type KMAC256 and the context tag of the command that creates it (R58, R66, R126). -/
def putKey (sl ctx n origin : Nat) (zoa : Bool) (key : BitVec 256) (wrapId : BitVec 128) (s : State) : State :=
  kweDone (writeSlot n key (attrWord 55 0 sl 2 origin zoa false false) (bindWord ctx 0xFFFF 0) wrapId s)

/-- Zeroize one slot. -/
def zeroizeSlot (n : Nat) (s : State) : State := zeroizeSlots (fun m _ => m == n) s

/-! ### Evidence -/

/-- The MAGIC and FORMAT that begin a record. -/
def magicFormat (m : String) : Bytes := ascii m ++ leBytes 2 1

/-- The scopes opened since reset, as evidence carries them (R113). -/
def debugScopes (s : State) : Nat := s.lcc.scopes % 256

/-- The signed body of a member's evidence record (R113). -/
def evidenceBody (s : State) (sl : Nat) (nonce ct : Bytes) : Bytes :=
  let d := s.domain sl
  magicFormat "EVD1" ++ leBytes 2 d.member ++ leBytes 8 d.id ++ leBytes 4 d.attempt ++ leBytes 1 s.lcc.state ++ leBytes 1 sl ++
    leBytes 1 s.vault.state ++ leBytes 1 (debugScopes s) ++ leBytes 4 s.atu.fwSvn ++ leBytes 4 0 ++ fit 32 nonce ++
    digestBytes s.atu.deviceIdDigest ++ digestBytes s.atu.aliasDigest ++ (List.range 12).flatMap (fun i => digestBytes (s.atu.mr.get i)) ++
    digestBytes (s.atu.smr.get sl) ++ fit 1568 (Config.mlkemPub (s.pke.get (2 + sl)).seed) ++ fit 97 (Config.ecdhPub (s.pke.get (2 + sl)).seed) ++
    List.replicate 15 0 ++ fit 1568 ct

/-- Sign a body under the alias pair (R113). -/
def signed (label : String) (body : Bytes) (s : State) : Bytes × State :=
  let (sig, s) := hybridSign 1 label body s
  (body ++ sig, s)

/-- Does a hybrid signature over a body verify under a pair of public keys (R87)? -/
def hybridOk (ml ec : Bytes) (label : String) (body sig : Bytes) : Bool :=
  Config.mldsaVerify ml (ascii label) body (slice sig 0 4627) && Config.ecdsaVerify ec (Config.sha384 (ascii label ++ body)) (slice sig 4627 96)

/-- Fields of an evidence record (R113). -/
def evMember (e : Bytes) : Nat := field e 6 2
def evLc (e : Bytes) : Nat := field e 0x14 1
def evScopes (e : Bytes) : Nat := field e 0x17 1
def evSvn (e : Bytes) : Nat := field e 0x18 4
def evDevice (e : Bytes) : Bytes := slice e 0x40 48
def evAlias (e : Bytes) : Bytes := slice e 0x70 48
def evMr (e : Bytes) (i : Nat) : Bytes := slice e (0xA0 + 48 * i) 48
def evEk (e : Bytes) : Bytes := slice e 0x310 1568
def evEcdh (e : Bytes) : Bytes := slice e 0x930 97
def evCt (e : Bytes) : Bytes := slice e 0x9A0 1568

/-- A certificate of a message: the certificate itself, or the cached one that a 48-octet digest names; with whether the cache
holds it (R111, R122). -/
def findCert (s : State) (c : Bytes) : Option (Bytes × Bool) :=
  if c.length = 48 then (s.dom.certCache.find? (fun x => digestBytes (Config.sha384 x) == c)).map (fun x => (x, true))
  else some (c, decide (c ∈ s.dom.certCache))

/-- Verified certificates enter the cache of 256, the oldest leaving first (R122, log 35). -/
def cacheCerts (cs : List Bytes) (s : State) : State := { s with dom := { s.dom with certCache := lastN 256 (s.dom.certCache ++ cs) } }

/-- Is a member's boot a recovery boot, by MR5 (R92, R96)? -/
def recoveryBoot (e : Bytes) : Bool := evMr e 5 != digestBytes flashMr5

/-- The TcbInfo flags that agree with an evidence record (R96, R115 check 4). -/
def tcbFlags (e : Bytes) : Nat := b2n (!decide (evLc e ∈ [0x40, 0x50])) + 2 * b2n (evScopes e != 0) + 4 * b2n (recoveryBoot e)

/-- Check 3 of R115 on the DeviceID certificates, in the order ML-DSA, P-384. A cache hit replaces the check for its certificate
(R122); the serials are compared where both are new. The keys must be those that the evidence names (log 129). -/
def deviceCertsOk (authority : Bytes) (e : Bytes) (a b : Bytes × Bool) : Bool :=
  let under (c : Bytes × Bool) : Bool :=
    c.2 || (digestBytes (Config.sha384 Config.authorityPub) == authority && Config.certVerifies Config.authorityPub c.1)
  under a && under b && (a.2 || b.2 || Config.certSerial a.1 == Config.certSerial b.1) &&
    digestBytes (Config.sha384 (Config.certKey a.1 ++ Config.certKey b.1)) == evDevice e

/-- Check 4 of R115 on the alias certificates, each but for one that the cache holds (R122). -/
def aliasCertsOk (e : Bytes) (a b c d : Bytes × Bool) : Bool :=
  let ok (i x : Bytes × Bool) : Bool :=
    x.2 || (Config.certVerifies (Config.certKey i.1) x.1 && Config.certSvn x.1 == evSvn e && Config.certFlags x.1 == tcbFlags e)
  ok a c && ok b d && digestBytes (Config.sha384 (Config.certKey c.1 ++ Config.certKey d.1)) == evAlias e

/-- The bit of LC_ALLOWED for a state code (R107). -/
def lcBit (lc : Nat) : Option Nat := match lc with | 0x30 => some 0 | 0x40 => some 1 | 0x50 => some 2 | _ => none

/-- Checks 6 to 9 of R115: the policy. -/
def policyFailure (p e : Bytes) : Option Nat :=
  if !(match lcBit (evLc e) with | some i => bit (field p 6 1) i | none => false) then some 0x06
  else if (bit (field p 7 1) 0 && evScopes e != 0) || (bit (field p 7 1) 1 && recoveryBoot e) then some 0x08
  else if evSvn e < field p 8 4 then some 0x07
  else if !(List.range (field p 0xE 1)).any (fun i =>
      digestBytes (extend 0 (BitVec.ofNat 384 (beNat (slice p (0x70 + 48 * i) 48)))) == evMr e 2) then some 0x05
  else none

/-- Is a policy record well formed (R107)? -/
def policyOk (p : Bytes) : Bool :=
  let n := field p 0xE 1
  slice p 0 6 == magicFormat "POL1" && decide (field p 6 1 < 8) && decide (field p 7 1 < 4) && decide (1 ≤ n) && decide (n ≤ 8) && field p 0xF 1 == 0 &&
    allZero (slice p (0x70 + 48 * n) (384 - 48 * n)) && allZero (slice p 0x1F0 16)

/-- Checks 1 to 9 of R115 on a sender's evidence: the exception code of the first failure. A record of another length, MAGIC or
FORMAT fails check 1 (log 36); a certificate by a digest that the cache does not hold, or a list of other than four, fails check 3 (log
129). The certificates that verified enter the cache. Check 2 is
made of a sender that the member list names. -/
def checkEvidenceOf (listed : Bool) (sl sender : Nat) (policy nonce e : Bytes) (certs : List Bytes) (s : State) : Option Nat × State :=
  let d := s.domain sl
  if e.length != 8755 || slice e 0 6 != magicFormat "EVD1" || slice e 0x20 32 != fit 32 nonce || field e 8 8 != d.id || field e 0x10 4 != d.attempt ||
      evMember e != sender then (some 0x09, s)
  else if listed && (evDevice e != slice d.list (64 * sender) 48 || field e 0x15 1 != field d.list (64 * sender + 0x30) 2) then (some 0x04, s)
  else match certs.map (findCert s) with
    | [some a, some b, some c, some x] =>
      let cs := [a, b, c, x]
      let hits := (cs.filter (·.2)).length
      let s := { s with dom := { s.dom with certHits := s.dom.certHits + hits }, ent := { s.ent with pkeOps := s.ent.pkeOps + (4 - hits) } }
      if !deviceCertsOk (slice policy 0x10 48) e a b then (some 0x03, s)
      else
        let fresh (l : List (Bytes × Bool)) : List Bytes := (l.filter (fun y => !y.2)).map (·.1)
        if !aliasCertsOk e a b c x then (some 0x03, cacheCerts (fresh [a, b]) s)
        else
          let s := pkeDone (pkeDone (cacheCerts (fresh cs) s))
          if !hybridOk (Config.certKey c.1) (Config.certKey x.1) "PELGEN-S4/EVIDENCE" (slice e 0 0xFC0) (slice e 0xFC0 4723) then (some 0x02, s)
          else (policyFailure policy e, s)
    | _ => (some 0x03, s)

/-- Checks 1 to 9 on the evidence of a member of the list. -/
def checkEvidence (sl sender : Nat) (policy nonce e : Bytes) (certs : List Bytes) (s : State) : Option Nat × State :=
  checkEvidenceOf true sl sender policy nonce e certs s

/-! ### Aggregate statements (R116) -/

/-- The members that a statement of `n` entries and `e` exceptions names. -/
def statementMembers (b : Bytes) : List Nat :=
  (List.range (field b 0x14 2)).map (fun i => field b (0x40 + 100 * i) 2) ++
    (List.range (field b 0x16 2)).map (fun i => field b (0x40 + 100 * field b 0x14 2 + 4 * i) 2)

/-- The length of a statement's signed body. -/
def statementLen (b : Bytes) : Nat := 0x40 + 100 * field b 0x14 2 + 4 * field b 0x16 2

/-- Check 10 of R115, under the sender's alias keys. -/
def statementOk (d : Dom) (sender : Nat) (ml ec b : Bytes) : Bool :=
  let n := statementLen b
  let ms := statementMembers b
  b.length == n + 4723 && slice b 0 6 == magicFormat "AGG1" && field b 6 2 == sender && field b 8 8 == d.id && field b 0x10 4 == d.attempt &&
    field b 0x18 8 == 0 && slice b 0x20 32 == fit 32 d.nonce && ms.eraseDups.length == ms.length && !decide (sender ∈ ms) &&
    ms.all (fun m => decide (m < d.count)) && hybridOk ml ec "PELGEN-S4/AGGREGATE" (slice b 0 n) (slice b n 4723)

/-- An entry of R116, and an exception. -/
def statementEntry (member : Nat) (aggregator adopted : Bool) (evidence : BitVec 384) (aggregate : Bytes) : Bytes :=
  leBytes 2 member ++ leBytes 1 (b2n aggregator + 2 * b2n adopted) ++ [0] ++ digestBytes evidence ++ fit 48 aggregate
def exceptionEntry (member code : Nat) : Bytes := leBytes 2 member ++ leBytes 1 code ++ [0]

/-- The entries and the exceptions of a member's subtree. -/
def allEntries (d : Dom) : Bytes := (d.children.filter (·.state == 1)).flatMap (·.entries)
def allExceptions (d : Dom) : Bytes := (d.children.filter (·.state == 1)).flatMap (·.exceptions) ++ d.exceptions

/-- The signed body of a member's aggregate statement. -/
def statementBody (d : Dom) : Bytes :=
  magicFormat "AGG1" ++ leBytes 2 d.member ++ leBytes 8 d.id ++ leBytes 4 d.attempt ++ leBytes 2 ((allEntries d).length / 100) ++
    leBytes 2 ((allExceptions d).length / 4) ++ leBytes 8 0 ++ fit 32 d.nonce ++ allEntries d ++ allExceptions d

/-! ### The Merkle tree (R120) -/

/-- The levels below the root. -/
def merkleDepth (count : Nat) : Nat := max 1 ((List.range 12).filter (fun k => decide (2 ^ k < count))).length

/-- An interior node, and the level above a level. -/
def merkleNode (a b : BitVec 384) : BitVec 384 := Config.sha384 (1 :: digestBytes a ++ digestBytes b)
def merkleUp : List (BitVec 384) → List (BitVec 384)
  | a :: b :: rest => merkleNode a b :: merkleUp rest
  | _ => []

/-- The leaf of a member: from its entry of the digest table, zero for an excluded member. -/
def merkleLeaf (table : Bytes) (count m : Nat) : BitVec 384 :=
  let e := slice table (48 * m) 48
  if m < count && !allZero e then Config.sha384 (0 :: leBytes 2 m ++ e) else Config.sha384 (2 :: leBytes 2 m)

/-- The leaves over a digest table. -/
def merkleLeaves (table : Bytes) (count : Nat) : List (BitVec 384) := (List.range (2 ^ merkleDepth count)).map (merkleLeaf table count)

/-- The root above a level, and the sibling digests of a place from that level upward. -/
def merkleRoot : Nat → List (BitVec 384) → BitVec 384
  | 0, l => l.headD 0
  | k + 1, l => merkleRoot k (merkleUp l)
def merkleSiblings : Nat → Nat → List (BitVec 384) → List (BitVec 384)
  | 0, _, _ => []
  | k + 1, m, l => l.getD (if m % 2 = 0 then m + 1 else m - 1) 0 :: merkleSiblings k (m / 2) (merkleUp l)

/-- MERKLE_ROOT of a digest table. -/
def tableRoot (table : Bytes) (count : Nat) : BitVec 384 := merkleRoot (merkleDepth count) (merkleLeaves table count)

/-! ### Domain evidence (R119) -/

/-- The evidence digest of a member from the entries of a statement. -/
def entryDigest (entries : Bytes) (m : Nat) : Bytes :=
  match (List.range (entries.length / 100)).find? (fun i => field entries (100 * i) 2 == m) with
  | some i => slice entries (100 * i + 4) 48
  | none => List.replicate 48 0

/-- The digest table of a masthead. -/
def digestTable (d : Dom) : Bytes :=
  (List.range d.count).flatMap (fun m =>
    if m == d.member then digestBytes (Config.sha384 d.ownEvidence) else entryDigest (allEntries d) m)

/-- Members with an entry in a digest table. -/
def tableCount (table : Bytes) : Nat := ((List.range (table.length / 48)).filter (fun m => !allZero (slice table (48 * m) 48))).length

/-- The signed body of the domain evidence. -/
def domainBody (d : Dom) (table exceptions : Bytes) : Bytes :=
  magicFormat "DOM1" ++ leBytes 2 d.masthead ++ leBytes 8 d.id ++ leBytes 4 d.attempt ++ leBytes 2 d.count ++ leBytes 2 (tableCount table) ++
    leBytes 2 (exceptions.length / 4) ++ leBytes 6 0 ++ fit 32 d.nonce ++ digestBytes (Config.sha384 d.policy) ++ digestBytes (Config.sha384 d.list) ++
    digestBytes (tableRoot table d.count) ++ digestBytes (Config.sha384 d.ownEvidence) ++ leBytes 4 d.fenceMs ++ leBytes 2 d.rereqMs ++ leBytes 10 0 ++
    exceptions

/-! ### Halyard edges (R126) -/

/-- The context of a halyard key. -/
def halyardCtx (d : Dom) (a b : Nat) : Bytes := leBytes 8 d.id ++ leBytes 4 d.attempt ++ leBytes 2 a ++ leBytes 2 b

/-- The halyard secret of the edge between a parent and a child, and its WRAP_ID. -/
def halyardSecret (d : Dom) (ss : Bytes) (parent child : Nat) : BitVec 256 := Config.kmac256 ss (ascii "PELGEN-S4/HALYARD") (halyardCtx d parent child)
def halyardId (d : Dom) (parent child : Nat) : BitVec 128 :=
  BitVec.ofNat 128 (leNat ((digestBytes (Config.sha384 (ascii "PELGEN-S4/HALYARD" ++ halyardCtx d parent child))).take 16))

/-- The halyard stream key from one end to the other. -/
def halyardLink (d : Dom) (hs : BitVec 256) (a b : Nat) : BitVec 256 :=
  Config.kmac256 (keyBytes hs) (ascii "PELGEN-S4/HALYARD-LINK") (halyardCtx d a b)

/-- Open one direction of an edge's class-15 stream under its halyard key (R126, R273): nothing without a port, or where a stream,
an entry, a pair record or the port's key cache stands against it. -/
def openEdge (sl peer : Nat) (rx : Bool) (key : BitVec 256) (s : State) : State :=
  match edgePort s with
  | none => s
  | some port =>
    if (firstFail (roomChecks s sl peer port [15] rx)).isSome then s
    else
      let e := (freeEntries s sl port 1).headD 0
      let (s, p) := makePair sl peer rx s
      let s := updPair p (fun x => { x with halyard := true, ports := setBit x.ports port }) s
      let s := loadKey 4 (linkIx port p 0 true) key none s
      updStream e (fun _ => { pair := p, port, cls := 15, rx, peer, slice := sl, state := 1, halyard := true }) s

/-- Close both directions of an edge that is given up (R117). -/
def closeEdge (sl peer : Nat) (s : State) : State :=
  let es := s.link.streams.findAll (fun _ x => x.slice == sl && x.peer == peer && x.cls == 15 && x.state != 0)
  let ps := s.link.pairs.findAll (fun _ x => x.valid && x.slice == sl && x.peer == peer)
  { s with
    link := { s.link with
      streams := es.foldl (fun t e => t.set e {}) s.link.streams
      pairs := ps.foldl (fun t p => t.set p {}) s.link.pairs
      txWaits := s.link.txWaits.filter (fun w => !decide (w.stream ∈ es)) }
    engKeys := s.engKeys.filter (fun k => !(k.cls == 4 && decide ((k.index / 2 ^ 33) % 8192 ∈ ps))) }

/-- Both directions of an edge, at the end that is `me`. -/
def openEdges (sl me peer : Nat) (hs : BitVec 256) (s : State) : State :=
  let d := s.domain sl
  openEdge sl peer true (halyardLink d hs peer me) (openEdge sl peer false (halyardLink d hs me peer) s)

/-- An edge's streams receive their DLK keys of epoch 0 as NEXT (R128 step 4, R280). -/
def dlkEdge (sl peer : Nat) (rx : Bool) (s : State) : State :=
  match findPair s sl peer rx with
  | some p => if (s.pair p).halyard then refreshNext p ((portsOf (s.pair p)).foldl (fun s q => deriveLink q p 0 s) s) else s
  | none => s

end Sys2Proof.Machine
end

