-- ==== Sys2Proof/Machine/HostLink.lean ====
section
/-!
DEFINITION. The host link engine: IDE streams and their keys, the TDISP responder, and TLPs (R298-R302).
-/
namespace Sys2Proof.Machine

/-! ### TDIs -/

/-- A TDI takes a state; when it leaves RUN, its mailbox's transactions end (R301, R457). -/
def setTdi (sl st : Nat) (s : State) : State :=
  let left := s.tdi.get sl == 2 && st != 2
  let s := { s with tdi := s.tdi.set sl st }
  if left then endTrans (fun t => t.path == 1 && t.requester == sl) s else s

/-- The held egress TLPs of a slice are dropped, and no egress fence waits for one (R301, R303). -/
def dropEgress (sl : Nat) (s : State) : State :=
  settleGate { s with
    link := { s.link with egress := s.link.egress.filter (fun t => t.slice != sl) }
    cex := { s.cex with holds := mapIf (fun (h : FenceHold) => h.egress && h.slice == sl) (fun h => { h with tlps := 0 }) s.cex.holds } }

/-- A TDI enters ERROR (R301) with TDI_ERROR_CAUSE 1 IDE failure, 2 loss of Secure, 3 reset or 4 freeze. -/
def tdiError (sl cause : Nat) (s : State) : State := dropEgress sl (setTdi sl 3 (updIde sl (fun x => { x with cause := cause }) s))

/-- A stream leaves Secure: its key sets are cleared (R298). -/
def leaveSecure (sl : Nat) (s : State) : State :=
  let s := { s with engKeys := s.engKeys.filter (fun k => !(k.cls == 5 && k.index / 12 == sl)) }
  updIde sl (fun x => { x with secure := false, programmed := Tbl.const false, active := Tbl.const false, txCtr := Tbl.const 0, agg := Tbl.const (0, [], []) }) s

/-- An IDE integrity failure (R302). -/
def ideFail (sl : Nat) (s : State) : State :=
  let id := (s.ideOf sl).id
  let s := tdiError sl 1 (leaveSecure sl { s with link := { s.link with ideFails := s.link.ideFails + 1 } })
  raise [16, sl] 7 0x8032 id (pend 235 (logError 0x15 41 sl 0 id 0 s))

/-- LOSS_OF_SECURE (R301). -/
def execLossOfSecure (slc : BitVec 4) (s : State) : Host.Outcome State Fault Refusal :=
  .next (tdiError slc.toNat 2 (leaveSecure slc.toNat s))

/-! ### TLPs -/

/-- Does a TDI's state let a TLP to it through, by its T bit (R298, R301)? TDI traffic in RUN must carry the T bit; no other
state admits a T-bit TLP. -/
def tdiAdmits (s : State) (sl : Nat) (t : Bool) : Bool := (s.tdi.get sl == 2) == t

/-- HLE_TLP_RECEIVE (R298, R301, R302): the sub-stream, the K bit and T bit, the IV that the standard's receive counter gives,
the additional data, the data and the 96-bit MAC (log 12). A TLP under no active key set of a Secure stream, or one that is not associated
with the stream, is discarded; a wrong PCRC is an integrity failure. -/
def execHleTlpReceive (slc : BitVec 4) (sub : BitVec 2) (k t : Bool) (iv : BitVec 96) (aad data : Bytes) (mac : BitVec 96) (s : State) :
    Host.Outcome State Fault Refusal :=
  .next <|
    let sl := slc.toNat
    let set := ideSet false sub.toNat k
    let key := engKey s 5 (ideIx sl set)
    if 3 ≤ sub.toNat || !(s.ideOf sl).secure || !(s.ideOf sl).active.get set then s
    else if (Config.gcmTag key iv aad data).setWidth 96 != mac then ideFail sl s
    else
      let plain := Config.gcmCrypt key iv data
      let body := if Config.idePcrc sl then plain.take (plain.length - 4) else plain
      if Config.idePcrc sl && leNat (plain.drop (plain.length - 4)) != (Config.pcrc (aad ++ body)).toNat then ideFail sl s
      else if Config.ideAssociated sl (aad ++ body) && tdiAdmits s sl t then s.emit (.tlpIn sl body)
      else s

/-- HLE_TLP_EGRESS (R286, R299, R301): a TLP of a slice, or of none (16 and above), is accepted with its gate samples. A TLP of a
slice whose TDI is in ERROR is dropped. -/
def execHleTlpEgress (slc : BitVec 5) (sub : BitVec 2) (header data : Bytes) (s : State) : Host.Outcome State Fault Refusal :=
  .next <|
    let sl := min slc.toNat 16
    if sl < 16 && s.tdi.get sl == 3 then s
    else
      let sample := if sl < 16 then [gateSample s sl] else (List.range 16).map (gateSample s)
      let t : Tlp := { slice := sl, sub := sub.toNat, sample, header, data, at_ := s.io0Now }
      let held := !s.link.egress.isEmpty || !tlpGate s t
      let s := if held && sl < 16 then sliceCount sl 6 1 s else s
      settleGate { s with link := { s.link with egress := s.link.egress ++ [t] } }

/-! ### Key management (R298) -/

/-- Is an SPDM session of the host link established, with the firmware to serve it (R97-R99, R298)? -/
def doeSession (s : State) (n : Nat) : Bool :=
  s.rcv.fwRunning && (s.dom.sessions.get n).phase == 2 && (s.dom.sessions.get n).transport == 0

/-- A message in a session: none is read outside one. -/
def inSession (n : BitVec 3) (src : Nat) (s : State) (f : State → State) : Host.Outcome State Fault Refusal :=
  .next (if doeSession s n.toNat then f (pend src s) else s)

/-- An IDE_KM response. Transport 2 stands for IDE_KM, and the object numbers are its standard's (PRESUMED, log 12). -/
def ideReply (obj : Nat) (values : Bytes) (s : State) : State := s.emit (.response 2 obj (Config.stdBody obj values))

/-- QUERY (R298). -/
def execQuery (session : BitVec 3) (slc : BitVec 4) (s : State) : Host.Outcome State Fault Refusal :=
  inSession session 233 s (fun s =>
    let x := s.ideOf slc.toNat
    ideReply 1 (leBytes 1 x.id ++ leBytes 1 (b2n x.secure)) s)

/-- Is a Stream ID free for a TDI (R298: unique)? -/
def ideIdFree (s : State) (sl id : Nat) : Bool :=
  let used (x : Ide) : Bool := x.programmed.ents.any (·.2)
  (!used (s.ideOf sl) || (s.ideOf sl).id == id) && (List.range 16).all (fun t => t == sl || !used (s.ideOf t) || (s.ideOf t).id != id)

/-- The status of KP_ACK (its standard's numbers, PRESUMED, log 12): 0 success, 3 unsupported value. -/
def keyProgStatus (s : State) (sl id sub : Nat) : Nat := if 3 ≤ sub || !ideIdFree s sl id then 3 else 0

/-- KEY_PROG (R298): a key goes into the HLE's key file and never into a slot. -/
def execKeyProg (session : BitVec 3) (slc : BitVec 4) (streamId : BitVec 8) (tx : Bool) (sub : BitVec 2) (k : Bool) (key : BitVec 256) (s : State) :
    Host.Outcome State Fault Refusal :=
  inSession session 233 s (fun s =>
    let sl := slc.toNat
    let set := ideSet tx sub.toNat k
    let st := keyProgStatus s sl streamId.toNat sub.toNat
    let s := if st = 0 then
        loadKey 5 (ideIx sl set) key none (updIde sl (fun x => { x with id := streamId.toNat, programmed := x.programmed.set set true }) s)
      else s
    ideReply 3 (leBytes 1 st) s)

/-- Has every sub-stream of both directions an active key set? -/
def allActive (x : Ide) : Bool := (List.range 6).all (fun i => x.active.get (2 * i) || x.active.get (2 * i + 1))

/-- KEY_SET_GO (R298): a programmed key set becomes active. The stream is Secure once every sub-stream has one (PRESUMED,
log 12). -/
def execKeySetGo (session : BitVec 3) (slc : BitVec 4) (tx : Bool) (sub : BitVec 2) (k : Bool) (s : State) : Host.Outcome State Fault Refusal :=
  inSession session 233 s (fun s =>
    let set := ideSet tx sub.toNat k
    let s := if sub.toNat < 3 && (s.ideOf slc.toNat).programmed.get set then
        updIde slc.toNat (fun x =>
          let a := x.active.set set true
          { x with
            active := a, secure := x.secure || allActive { x with active := a }
            txK := if tx then x.txK.set sub.toNat k else x.txK, txCtr := if tx then x.txCtr.set sub.toNat 0 else x.txCtr
            agg := if tx then x.agg.set sub.toNat (0, [], []) else x.agg }) s
      else s
    ideReply 6 (leBytes 1 set) s)

/-- KEY_SET_STOP (R298): the key set ends. A Secure stream that is left without an active set leaves Secure (R301). -/
def execKeySetStop (session : BitVec 3) (slc : BitVec 4) (tx : Bool) (sub : BitVec 2) (k : Bool) (s : State) : Host.Outcome State Fault Refusal :=
  inSession session 233 s (fun s =>
    let sl := slc.toNat
    let set := ideSet tx sub.toNat k
    let s := if sub.toNat < 3 then
        clearKey 5 (ideIx sl set) (updIde sl (fun x => { x with active := x.active.set set false, programmed := x.programmed.set set false }) s)
      else s
    let s := if (s.ideOf sl).secure && !allActive (s.ideOf sl) then tdiError sl 2 (leaveSecure sl s) else s
    ideReply 6 (leBytes 1 set) s)

/-! ### TDISP (R300, R301) -/

/-- A TDISP response. Transport 3 stands for TDISP; the codes are its standard's (PRESUMED, log 12). -/
def tdispReply (code : Nat) (values : Bytes) (s : State) : State := s.emit (.response 3 code (Config.stdBody code values))

/-- TDISP_ERROR with an error code: 0x0004 INVALID_INTERFACE_STATE, 0x0007 UNSUPPORTED_REQUEST. -/
def tdispError (code : Nat) (s : State) : State := tdispReply 0x7F (leBytes 4 code) s

/-- GET_TDISP_VERSION (R300). -/
def execGetTdispVersion (session : BitVec 3) (s : State) : Host.Outcome State Fault Refusal :=
  inSession session 234 s (tdispReply 0x01 [0x10])

/-- GET_TDISP_CAPABILITIES (R300): the seven messages that the responder supports. -/
def execGetTdispCapabilities (session : BitVec 3) (s : State) : Host.Outcome State Fault Refusal :=
  inSession session 234 s (tdispReply 0x02 [0x81, 0x82, 0x83, 0x84, 0x85, 0x86, 0x87])

/-- LOCK_INTERFACE_REQUEST (R301). -/
def execLockInterfaceRequest (session : BitVec 3) (slc : BitVec 4) (s : State) : Host.Outcome State Fault Refusal :=
  inSession session 234 s (fun s =>
    let sl := slc.toNat
    if s.tdi.get sl == 0 && (s.slice sl).state != 0 && (s.ideOf sl).secure then tdispReply 0x03 [] (setTdi sl 1 s) else tdispError 4 s)

/-- The interface report of a TDI (R300): the slice control page at its BAR 4 offset, the queue pages of the slice (R330), its
PASIDs and the Stream ID. -/
def interfaceReport (s : State) (sl : Nat) : Bytes :=
  let qs := s.cex.queues.findAll (fun _ q => q.state != 0 && q.owner == sl)
  leBytes 8 (0x200000 + sl * 0x10000) ++ qs.flatMap (fun q => leBytes 8 (0x100000 + q * 0x1000)) ++
    (s.slice sl).pasids.flatMap (leBytes 4) ++ leBytes 1 (s.ideOf sl).id

/-- GET_DEVICE_INTERFACE_REPORT (R300). -/
def execGetDeviceInterfaceReport (session : BitVec 3) (slc : BitVec 4) (s : State) : Host.Outcome State Fault Refusal :=
  inSession session 234 s (fun s => tdispReply 0x04 (interfaceReport s slc.toNat) s)

/-- GET_DEVICE_INTERFACE_STATE (R300). -/
def execGetDeviceInterfaceState (session : BitVec 3) (slc : BitVec 4) (s : State) : Host.Outcome State Fault Refusal :=
  inSession session 234 s (fun s => tdispReply 0x05 (leBytes 1 (s.tdi.get slc.toNat)) s)

/-- START_INTERFACE_REQUEST (R301). -/
def execStartInterfaceRequest (session : BitVec 3) (slc : BitVec 4) (s : State) : Host.Outcome State Fault Refusal :=
  inSession session 234 s (fun s => if s.tdi.get slc.toNat == 1 then tdispReply 0x06 [] (setTdi slc.toNat 2 s) else tdispError 4 s)

/-- STOP_INTERFACE_REQUEST (R301): from every state, and the only way out of ERROR. -/
def execStopInterfaceRequest (session : BitVec 3) (slc : BitVec 4) (s : State) : Host.Outcome State Fault Refusal :=
  inSession session 234 s (fun s => tdispReply 0x07 [] (setTdi slc.toNat 0 (updIde slc.toNat (fun x => { x with cause := 0 }) s)))

/-- TDISP_UNSUPPORTED_REQUEST (R300). -/
def execTdispUnsupportedRequest (session : BitVec 3) (_code : BitVec 8) (s : State) : Host.Outcome State Fault Refusal :=
  inSession session 234 s (tdispError 7)

end Sys2Proof.Machine
end

