-- ==== Sys2Proof/Machine/Sentinel.lean ====
section
/-!
DEFINITION. The glitch sentinel, the reference clock and the tamper inputs (R556-R569).
-/
namespace Sys2Proof.Machine

/-- The error-log UNIT code of a watched unit (R559; the codes are the model's, log 9). -/
def senUnitCode (u : Nat) : Nat :=
  if u ≤ 11 then 9 + u else if u ≤ 29 then 23 + (u - 12)
  else match u with | 30 => 41 | 31 => 5 | 32 => 6 | 33 => 21 | 34 => 42 | _ => 4

/-- Canaries of a watched unit (R559). -/
def canaries (u : Nat) : Nat :=
  if u ≤ 11 then 8 else if u ≤ 32 then 4 else if u ≤ 35 then 2 else 0

/-- The watched units of a die (R563): compute die 0, I/O die 0 is 1, I/O die 1 is 2. -/
def dieUnits (die : Nat) : List Nat :=
  match die with
  | 0 => List.range 12 ++ [31, 32, 33, 34]
  | 1 => rangeFrom 12 9 ++ [30]
  | 2 => rangeFrom 21 9
  | _ => []

/-- The vault recognises a trigger (R50): its cause bit waits for the sequence of R51, or joins the one that runs (R54). -/
def vaultTrigger (cause : Nat) (s : State) : State :=
  let v := s.vault
  if v.state == 2 then { s with vault := { v with cause := setBit v.cause cause } }
  else { s with vault := { v with trigger := setBit v.trigger cause } }

/-- SEN_TAMPER_WINDOW_US in ns, SEN_TAMPER_COUNT (R564). -/
def senWindowNs : Nat := 1000000
def senTamperCount : Nat := 16

/-- One count in the tamper window, and the tamper signal when it reaches the threshold (R564). -/
def senCount (s : State) : State :=
  let w := (s.sen.window.filter (fun t => decide (s.now < t + senWindowNs))) ++ [s.now]
  if senTamperCount ≤ w.length then
    vaultTrigger 8 { s with sen := { s.sen with window := [], tamperEvents := s.sen.tamperEvents + 1 } }
  else { s with sen := { s.sen with window := w } }

/-- A unit discards and replays what it holds in flight, and its filters freeze (R562 steps 1 and 2). -/
def senDiscard (u : Nat) (s : State) : State :=
  let s := { s with sen := { s.sen with units := s.sen.units.upd u (fun x => { x with frozenAt := some s.now }) } }
  pend 417 ((obsAdd 80 1 s).emit (.replay u))

/-- An outlier of a unit (R562). -/
def senOutlier (u canary : Nat) (s : State) : State :=
  let s := senDiscard u s
  let s := { s with sen := { s.sen with units := s.sen.units.upd u (fun x =>
    { x with outliers := x.outliers + 1, lastOutlier := s.now }) } }
  pend 416 (logError 0x21 (senUnitCode u) 0xFF 0 canary 0 (senCount s))

/-- Clamp to a range. -/
def clampInt (x lo hi : Int) : Int := max lo (min hi x)

/-- One canary sample against its band (R561). -/
def canarySample (u c x : Nat) (s : State) : State :=
  if canaries u ≤ c then s
  else
    let n := s.sen.units.get u
    let mu := n.mu.get c
    let d := n.d.get c
    let v : Int := x * 256
    let half := 8 * d + 2 * 256
    if v < mu - half || mu + half < v then senOutlier u c s
    else if n.frozenAt.isSome then s
    else
      let e := v - mu
      let mu' := mu + clampInt (e / 4096) (-16) 16
      let d' := d + (((e.natAbs : Int) - d) / 4096)
      { s with sen := { s.sen with units := s.sen.units.set u { n with mu := n.mu.set c mu', d := n.d.set c d' } } }

/-- CANARY_SAMPLE (R560, R561). -/
def execCanarySample (unit : BitVec 6) (canary : BitVec 3) (x : BitVec 8) (s : State) : Host.Outcome State Fault Refusal :=
  .next (canarySample unit.toNat canary.toNat x.toNat s)

/-- CANARY_IDLE_EXERCISE (R560): each canary of the unit once, on a dummy handshake. -/
def execCanaryIdleExercise (unit : BitVec 6) (codes : List (BitVec 8)) (s : State) : Host.Outcome State Fault Refusal :=
  .next ((codes.zipIdx).foldl (fun s p => canarySample unit.toNat p.2 p.1.toNat s) s)

/-- Source 417 is pending while any unit is frozen (R562). -/
def freezeNotice (s : State) : State :=
  if s.sen.units.ents.any (fun e => e.2.frozenAt.isSome) then s else icuFall 417 s

/-- SEN_FREEZE_EXPIRY (R562): SEN_FREEZE_US without a further outlier. -/
def execSenFreezeExpiry (unit : BitVec 6) (s : State) : Host.Outcome State Fault Refusal :=
  .next (freezeNotice { s with sen := { s.sen with units := s.sen.units.upd unit.toNat (fun x => { x with frozenAt := none }) } })

/-- SUPPLY_EXCURSION (R563): shorter than 5 local us. It counts once in the tamper window. -/
def execSupplyExcursion (die : BitVec 2) (s : State) : Host.Outcome State Fault Refusal :=
  .next <|
    if (dieUnits die.toNat).isEmpty then s
    else
      let s := (dieUnits die.toNat).foldl (fun s u => senDiscard u s) s
      let s := { s with sen := { s.sen with supplyExcursions := s.sen.supplyExcursions + 1 } }
      pend 418 (senCount s)

/-- Units of a die held, or released, by a brown-out. -/
def setBrownOut (die : Nat) (b : Bool) (s : State) : State :=
  { s with sen := { s.sen with units := s.sen.units.updMany (dieUnits die) (fun _ x => { x with brownOut := b }) } }

/-- BROWN_OUT (R563): every unit of the die holds and discards; nothing counts in the tamper window. -/
def execBrownOut (die : BitVec 2) (s : State) : Host.Outcome State Fault Refusal :=
  .next <|
    if (dieUnits die.toNat).isEmpty then s
    else pend 418 (setBrownOut die.toNat true { s with sen := { s.sen with brownouts := s.sen.brownouts + 1 } })

/-- BROWN_OUT_RECOVERY (R563): the units held replay and resume. -/
def execBrownOutRecovery (die : BitVec 2) (s : State) : Host.Outcome State Fault Refusal :=
  .next <|
    let held := (dieUnits die.toNat).filter (fun u => (s.sen.units.get u).brownOut)
    held.foldl (fun s u => (obsAdd 80 1 s).emit (.replay u)) (setBrownOut die.toNat false s)

/-- TJ_WARN_CROSSING (R563): source 419; the reading becomes TJ_MAX. -/
def execTjWarnCrossing (hottest : BitVec 32) (s : State) : Host.Outcome State Fault Refusal :=
  .next (pend 419 { s with sen := { s.sen with tjMax := hottest.toInt } })

/-- A die timer changes its source (R558). -/
def switchTimer (base : Nat) (osc : Bool) (s : State) : State :=
  if base < 3 && (s.clk.onOsc.get base != osc) then
    { s with clk := { s.clk with onOsc := s.clk.onOsc.set base osc, switches := s.clk.switches + 1 } }
  else s

/-- REFERENCE_CLOCK_LOST (R558). -/
def execReferenceClockLost (base : BitVec 2) (s : State) : Host.Outcome State Fault Refusal :=
  .next (switchTimer base.toNat true s)

/-- REFERENCE_CLOCK_REGAINED (R558). -/
def execReferenceClockRegained (base : BitVec 2) (s : State) : Host.Outcome State Fault Refusal :=
  .next (switchTimer base.toNat false s)

/-- Level changes along a list of samples. -/
def levelChanges : List Bool → Nat
  | a :: b :: rest => b2n (a != b) + levelChanges (b :: rest)
  | _ => 0

/-- The filtered input over the last 32 samples (R565). -/
def tamperActive (l : List Bool) : Bool := decide (16 ≤ (l.filter id).length) || decide (4 < levelChanges l)

/-- Is a tamper input enabled (R461, R576)? STRAP_TAMPER is applied from its VAON-ramp sample. -/
def tamperEnabled (k : Nat) (s : State) : Bool := bit (s.pins.applied.get 6) k

/-- TAMPER_IN_SAMPLE (R565, R566). -/
def execTamperInSample (input : BitVec 2) (level : Bool) (s : State) : Host.Outcome State Fault Refusal :=
  .next <|
    let k := input.toNat
    if !s.clk.vaultRunning || !tamperEnabled k s then s
    else
      let t := s.tamperIn.get k
      let samples := lastN 32 (t.samples ++ [level])
      let act := tamperActive samples
      let fire := act && !t.latched
      let t := { t with
        samples := samples, quiet := if act then 0 else t.quiet + 1, latched := t.latched || fire, events := t.events + b2n fire }
      let s := { s with tamperIn := s.tamperIn.set k t }
      if fire then vaultTrigger (1 + k) s else s

/-- The effect of the write that execTamperLatchClear makes, and its status. -/
def tamperLatchWrite (input : BitVec 2) (value : Bool) (s : State) : State × Nat :=
  let t := s.tamperIn.get input.toNat
  if !value then (s, St.success)
  else if 32 ≤ t.quiet then ({ s with tamperIn := s.tamperIn.set input.toNat { t with latched := false } }, St.success)
  else (s, St.entryState)

/-- TAMPER_LATCH_CLEAR (R566). -/
def execTamperLatchClear (who : Principal) (input : BitVec 2) (value : Bool) (s : State) : Host.Outcome State Fault Refusal :=
  .next (dictWrite who true [0, 1] s (tamperLatchWrite input value))

end Sys2Proof.Machine
end

