-- ==== Sys2Proof/Machine/LifeOps.lean ====
section
/-!
DEFINITION. Shared operations of the root vault and the life cycle: what zeroization clears (R51, R54), the encoding of the
life-cycle state (R512-R514), transitions and their wipe steps (R506-R511), the opening of debug scopes (R521).
-/
namespace Sys2Proof.Machine

/-! ### The vault -/

/-- The vault runs while VAON or VBAT supplies it (R557). -/
def vaultRuns (s : State) : Bool := s.clk.vaultRunning

/-- The vault releases ALARM_N only while VAULT_STATE reads READY with its state decided (R572). -/
def updAlarm (s : State) : State :=
  { s with pins := { s.pins with alarmN := s.vault.decided && s.vault.state == 0 && vaultRuns s } }

/-- Is a VBAT voltage in mV outside the trigger's range (R50)? -/
def vbatOut (mv : Nat) : Bool := decide (mv < 2200) || decide (3800 < mv)

/-- VBAT_MV reads a voltage, and RAIL_STATE's bit 5 says whether it is in its operating range (R578, R587). -/
def setVbat (mv : Nat) (s : State) : State :=
  { s with
    vault := { s.vault with vbatMv := mv }
    pins := { s.pins with rails := if decide (2500 ≤ mv) && decide (mv ≤ 3600) then setBit s.pins.rails 5 else clrBit s.pins.rails 5 } }

/-- A slice that lost its keys to the vault falls silent: its started commands complete with KEY_ZEROIZED, its domain ends
without a message and DOM_LIVE drops (R54, R64, log 50). -/
def silenceSlice (sl : Nat) (s : State) : State :=
  let ks := inFlightOf s sl none
  let was := (s.domain sl).state
  let s := zeroizeSlice sl s
  if was == 0 then s
  else setDomState sl 0 (updDom sl clearFormation (endAll ks St.keyZeroized 0 s))

/-- Every slot, device and slice, every engine key register, the link-key caches and the working state of the KWE, the PKE and
the DRBG are cleared (R51, R54, R90); the SPDM sessions, whose keys were device slots, end. -/
def clearVolatileKeys (s : State) : State :=
  let s := zeroizeSlots (fun _ _ => true) s
  let s := { s with
    kwe := { s.kwe with current := s.kwe.current.map (fun (r : KweReq) => { r with dead := true }) }
    pke := Tbl.const {}
    ent := { s.ent with sinceReseed := 0, instantiated := false } }
  let s := (List.range 16).foldl (fun s sl => silenceSlice sl s) s
  let s := (List.range 16).foldl (fun s sl => if (s.ideOf sl).secure then tdiError sl 2 (leaveSecure sl s) else s) s
  { s with engKeys := [], dom := { s.dom with sessions := Tbl.const {} } }

/-- The two records of a zeroization whose sequence has completed (R53): one TAMPER record and one TAMPER_NOTICE, while the CEX runs. -/
def tamperRecords (s : State) : State :=
  let c := s.vault.cause
  if s.rcv.fwRunning then raise [16] 9 0x8052 c (logError 0x22 (if bit c 8 then 51 else 4) 0xFF 0 0 c s) else s

/-- What TAMPER_CAUSE, TAMPER_TIME and TAMPER_COUNT record of a zeroization that begins with the bits of `bits` (R53): the bits join those
that no write has cleared (log 127). -/
def recordTamper (bits : Nat) (s : State) : State :=
  let v := s.vault
  { s with vault := { v with
    cause := Nat.lor v.cause (Nat.lor v.trigger bits), trigger := 0, time := s.clk.vault, count := v.count + 1, decided := true } }

/-- RS and the check value are overwritten with zeros (R51). -/
def clearRoot (s : State) : State :=
  { s with vault := { s.vault with rs := 0, check := 0, provisioned := false } }

/-! ### The life-cycle state (R503, R512-R514) -/

abbrev lcRaw : Nat := 0x01
abbrev lcDev : Nat := 0x30
abbrev lcProd : Nat := 0x40
abbrev lcProdEnd : Nat := 0x50
abbrev lcAnalysis : Nat := 0x60
abbrev lcScrap : Nat := 0x70
abbrev lcPending : Nat := 0x7E
abbrev lcInvalid : Nat := 0x7F

/-- TEST_UNLOCKED(k) and TEST_LOCKED(k), by code. -/
def testUnlocked (st : Nat) : Bool := decide (0x20 ≤ st) && decide (st ≤ 0x27)
def testLocked (st : Nat) : Bool := decide (0x10 ≤ st) && decide (st ≤ 0x17)

/-- Does the TAP offer an instruction in a life-cycle state (R529)? In every state but TEST_* it is held in Test-Logic-Reset. -/
def tapOffers (st : Nat) : TapInstr → Bool
  | .idcode | .bypass | .samplePreload | .extest | .lcRegister => testLocked st || testUnlocked st
  | .intest | .scan | .selfTest | .debug => testUnlocked st

/-- The JTAG master loads an instruction and shifts its data register (R529): an instruction that is offered is current from then on, and `f`
happens when it is the one that the access needs (log 136). -/
def tapAccess (ir needs : TapInstr) (f : State → State) (s : State) : State :=
  if !tapOffers s.lcc.state ir then s
  else
    let s := { s with lcc := { s.lcc with tapIr := ir } }
    if ir = needs then f s else s

/-- The pattern of every LC word and its intent half (R512). -/
abbrev lcPattern : Nat := 0x5A5AA5A5
abbrev lcIntent : Nat := 0x0000A5A5

/-- A word is blank (0), full (1), torn (2) or corrupt (3) (R512). -/
def lcKind (w : Nat) : Nat :=
  if w = 0 then 0 else if w = lcPattern then 1 else if Nat.land w lcPattern == w then 2 else 3

/-- The decode of R513 of words that are each full or blank; no word corrupt. -/
def decodeFull (full : Nat → Bool) : Nat :=
  let t := (List.range 16).map full
  let n := (t.takeWhile id).length
  let m := b2n (full 16) + 2 * b2n (full 17) + 4 * b2n (full 18) + 8 * b2n (full 19)
  if (t.drop n).any id then lcInvalid
  else if full 20 then lcScrap
  else if m = 0 then (if n = 0 then lcRaw else if n % 2 = 1 then 0x20 + (n - 1) / 2 else 0x10 + (n - 2) / 2)
  else if n = 0 || n % 2 == 1 then lcInvalid
  else match m with
    | 1 => lcDev
    | 2 => lcProd
    | 6 => lcProdEnd
    | 9 => lcAnalysis
    | 10 => lcAnalysis
    | _ => lcInvalid

/-- The transitions of R506. -/
def lcAllowed (a b : Nat) : Bool :=
  (a == lcRaw && b == 0x20) || (testUnlocked a && b + 0x10 == a) || (testLocked a && decide (a ≤ 0x16) && b == a + 0x11) ||
  (testLocked a && (b == lcDev || b == lcProd)) || (a == lcProd && b == lcProdEnd) ||
  ((a == lcDev || a == lcProd) && b == lcAnalysis) || (b == lcScrap && a != lcScrap && a != lcInvalid)

/-- The state and the target that the 21 words spell (R513, R514). -/
def lcDecode (w : Nat → Nat) : Nat × Nat :=
  let ks := (List.range 21).map (fun i => lcKind (w i))
  let full (i : Nat) : Bool := lcKind (w i) == 1
  if ks.any (· == 3) then (lcInvalid, 0)
  else match (List.range 21).filter (fun i => lcKind (w i) == 2) with
    | [] => (decodeFull full, 0)
    | [i] =>
      let dest := decodeFull (fun j => full j || j == i)
      if dest != lcInvalid && lcAllowed (decodeFull full) dest then (lcPending, dest) else (lcInvalid, 0)
    | _ => (lcInvalid, 0)

/-- The word that a target programs (R512). -/
def lcWordOf (st : Nat) : Nat :=
  if testUnlocked st then 2 * (st - 0x20) else if testLocked st then 2 * (st - 0x10) + 1
  else if st = lcDev then 16 else if st = lcProd then 17 else if st = lcProdEnd then 18 else if st = lcAnalysis then 19 else 20

/-! ### Wipe steps (R510) -/

/-- A new root secret and its check value from the entropy source, after a reseed (R47, R48, R81, R510). VAULT_STATE reads READY
on the stored state (R48, log 52). -/
def provisionRoot (s : State) : State :=
  let (rs, s) := drawBits 512 (drbgReseed s)
  let check := Config.kmacBytes (leBytes 64 rs.toNat) (ascii "PELGEN-S4/VAULT-CHECK") [] 8
  updAlarm { s with vault := { s.vault with rs, check := BitVec.ofNat 64 (leNat check), provisioned := true, state := 0, decided := true } }

/-- The sequence of R51 without a trigger (R510): the tamper entries keep their values. The flash's user partition lies outside
the block (log 1). -/
def zeroizeErase (s : State) : State :=
  let s := clearVolatileKeys (clearRoot s)
  updAlarm { s with vault := { s.vault with state := if s.vault.state = 2 then 2 else 1 } }

/-- Do the wipe steps provision the root secret, or zeroize and erase (R506)? -/
def provisions (target : Nat) : Bool := target == lcDev || target == lcProd
def erases (target : Nat) : Bool := target == lcAnalysis || target == lcScrap

/-- May a provisioning step run: entropy, and no zeroization in progress (R510)? -/
def canProvision (s : State) : Bool := entOk s && s.vault.state != 2

/-- The wipe step of the transition in progress runs, or waits for entropy (R509 step 2, R510). -/
def runWipe (s : State) : State :=
  if s.lcc.progress != 2 then s
  else if provisions s.lcc.target then
    (if canProvision s then let s := provisionRoot s
                            { s with lcc := { s.lcc with progress := 3 } }
     else s)
  else if erases s.lcc.target then
    let s := zeroizeErase s
    { s with lcc := { s.lcc with progress := 3 } }
  else { s with lcc := { s.lcc with progress := 3 } }

/-- After a vault zeroization a provisioning step runs again (R530). -/
def wipeAgain (s : State) : State :=
  if s.lcc.progress == 3 && provisions s.lcc.target then runWipe { s with lcc := { s.lcc with progress := 2 } } else runWipe s

/-! ### Debug scopes (R519-R521) -/

/-- The record that MR1 is extended with (R92). -/
def mr1Record (s : State) : Bytes := [BitVec.ofNat 8 s.lcc.state, BitVec.ofNat 8 s.lcc.scopes] ++ List.replicate 14 0

/-- Is no slice FORMING, KEYED or LIVE (R508, R521 step 1)? -/
def noDomain (s : State) : Bool := (List.range 16).all (fun i => !decide ((s.domain i).state ∈ [1, 2, 3]))

/-- Steps 3 and 4 of an opening (R521): MR1 takes the new bitmap, the bits are set, the opening counts. -/
def setScopes (bits : Nat) (s : State) : State :=
  let s := { s with lcc := { s.lcc with scopes := Nat.lor s.lcc.scopes bits, openings := s.lcc.openings + 1 } }
  extendMr 1 (Config.sha384 (mr1Record s)) s

/-- A scope opens (R521): every pool slot is zeroized, PKE entries 2 to 17 are cleared, the affected regions become KEYLESS. -/
def openScopes (bits : Nat) (s : State) : State :=
  let s := zeroizeSlots (fun n _ => decide (32 ≤ n)) s
  setScopes bits ((List.range 16).foldl (fun s sl => zeroizeSlice sl s) s)

end Sys2Proof.Machine
end

