-- ==== Sys2Proof/Machine/Power.lean ====
section
/-!
DEFINITION. What a chip reset and a loss of power remove and keep (R483, R489-R492, R579, R586), the requests for either, and
the supplies' own events (R557, R575, R579).
-/
namespace Sys2Proof.Machine

/-- The always-on domain of a state (R483, R566, R570), with the model's own fields, over the power-on values: vault and its timer, tamper
inputs, one-time-programmable words, the strap samples, the vault's sensors, the pads' state. -/
def alwaysOn (s : State) : State :=
  { State.reset with
    clk := { vault := s.clk.vault, vaultRunning := s.clk.vaultRunning }
    tamperIn := s.tamperIn
    vault := s.vault
    lcc := {
             words := s.lcc.words, deviceUid := s.lcc.deviceUid, tokenDigests := s.lcc.tokenDigests, molnorDigest := s.lcc.molnorDigest,
             openings := s.lcc.openings }
    sen := { vaultTemp := s.sen.vaultTemp, vaonMv := s.sen.vaonMv }
    ods := { mfgLot := s.ods.mfgLot }
    pins := {
              applied := s.pins.applied, vaonSample := s.pins.vaonSample, released := s.pins.released, strapTaken := s.pins.strapTaken,
              rails := s.pins.rails, resetPort := s.pins.resetPort, alarmN := s.pins.alarmN }
    free := s.free, out := s.out, pending := s.pending }

/-- The retained records (R492). -/
def retained (r : Rcv) : Rcv :=
  {
    log := r.log, produced := r.produced, consumed := r.consumed, overflow := r.overflow, dropped := r.dropped, firstError := r.firstError,
    firstFatal := r.firstFatal, classCount := r.classCount, dump := r.dump, resetCounts := r.resetCounts, lastCause := r.lastCause,
    powerCycleReq := r.powerCycleReq }

/-- Chip reset (R483, R489 step 4, R492): every unit outside the always-on domain; a request for a power cycle stands (R491). -/
def chipReset (s : State) : State :=
  let a := alwaysOn s
  { a with rcv := retained s.rcv, pins := { a.pins with pwrcycN := s.pins.pwrcycN } }

/-- A chip reset with its cause (R493). -/
def chipResetCause (cause : Nat) (s : State) : State :=
  let s := chipReset s
  { s with rcv := { s.rcv with lastCause := cause } }

/-- The compute die and the I/O dies lose power: the retained records go too (R483, R491). -/
def powerOff (s : State) : State := alwaysOn s

/-- A chip reset is requested (R489 steps 1 and 2), once (R500); none after a request for a power cycle (R491). -/
def requestChipReset (cause : Nat) (s : State) : State :=
  if s.rcv.chipResetReq || s.rcv.powerCycleReq then s
  else
    let s := logRung 3 52 0xFF { s with rcv := { s.rcv with chipResetReq := true, pendingCause := cause } }
    let s := (msix (s.cex.rings.get 16).vector s).emit (.ibi 0x9E)
    (List.range 16).foldl (fun s sl => originate sl 9 0 s) s

/-- A power cycle is requested (R491). -/
def requestPowerCycle (s : State) : State :=
  let s := { s with rcv := { s.rcv with powerCycleReq := true }, pins := { s.pins with pwrcycN := false } }
  logRung 4 52 0xFF (s.emit (.ibi 0x9F))

/-! ### Supplies -/

/-- Widths of the straps, in the order of 0x2000 (R460, R576). -/
def strapWidths : List Nat := [7, 4, 5, 2, 1, 3, 4, 1]

/-- A strap sample: each value cut to its width (R460). -/
def strapSample (v : List (BitVec 8)) : List Nat := strapWidths.zipIdx.map (fun w => (v.getD w.2 0).toNat % 2 ^ w.1)

/-- The vault and its timer start at the first ramp of VAON or VBAT (R557). -/
def startVault (s : State) : State :=
  if s.clk.vaultRunning then s else { s with clk := { s.clk with vault := 0, vaultRunning := true } }

/-- A bit of RAIL_STATE (R587). -/
def setRail (i : Nat) (on : Bool) (s : State) : State :=
  { s with pins := { s.pins with rails := if on then setBit s.pins.rails i else clrBit s.pins.rails i } }

/-- VBAT_RAMP (R557, R578). -/
def execVbatRamp (mv : BitVec 16) (s : State) : Host.Outcome State Fault Refusal :=
  .next (startVault (setVbat mv.toNat s))

/-- VAON_RAMP (R48, R557, R572, R589 step 1): VAULT_STATE is decided on the stored state alone, unless a zeroization runs; DEBUG_OPENINGS
counts from here (R531). -/
def execVaonRamp (mv : BitVec 16) (s : State) : Host.Outcome State Fault Refusal :=
  .next <|
    if bit s.pins.rails 4 then s
    else
      let s := startVault (setRail 4 true s)
      let st := if s.vault.state = 2 then 2 else if s.vault.provisioned then 0 else 1
      updAlarm { s with
        vault := { s.vault with state := st, decided := true }
        sen := { s.sen with vaonMv := mv.toNat }
        pins := { s.pins with strapTaken := false }
        lcc := { s.lcc with openings := 0 } }

/-- STRAP_SAMPLE (R461, R575): once, 100 us after the VAON ramp; STRAP_TAMPER is applied from this sample. -/
def execStrapSample (straps : List (BitVec 8)) (s : State) : Host.Outcome State Fault Refusal :=
  .next <|
    if !bit s.pins.rails 4 || s.pins.strapTaken then s
    else
      let v := strapSample straps
      { s with pins := { s.pins with
        strapTaken := true
        vaonSample := v.zipIdx.foldl (fun t x => t.set x.2 x.1) (Tbl.const 0)
        applied := s.pins.applied.set 6 (v.getD 6 0) } }

/-- The vault loses its last supply (R50, R52, R579): the charge on die completes the clearing of RS and the check value, and the sequence of
R51 clears what a powered compute die holds, with the records of R53; a sequence that runs already takes the cause bit (R54). -/
def vaultCollapse (s : State) : State :=
  let s := if s.vault.state == 2 then { s with vault := { s.vault with cause := setBit s.vault.cause 5 } } else recordTamper 32 s
  let s := clearVolatileKeys (clearRoot s)
  let s := tamperRecords { s with vault := { s.vault with state := 1 } }
  updAlarm { s with vault := { s.vault with decided := false }, clk := { s.clk with vaultRunning := false } }

/-- RAIL_LOSS (R52, R579, R586), by RAIL_STATE's bit (R587): a VDD rail takes the volatile state; VDDIO and VDD_TRACE take only their
pads; VAON leaves the vault to VBAT; VBAT zeroizes. VAON lost while VBAT is outside its operating range counts as the loss of both (the
model's choice, log 127). -/
def execRailLoss (rail : BitVec 3) (s : State) : Host.Outcome State Fault Refusal :=
  .next <|
    let r := rail.toNat
    if 7 ≤ r || !bit s.pins.rails r then s
    else
      let s := setRail r false s
      if r < 3 then powerOff s
      else if r = 3 then { s with pins := { s.pins with pwrcycN := true } }
      else if r = 4 then (if bit s.pins.rails 5 then s else vaultCollapse s)
      else if r = 5 then
        let s := { s with vault := { s.vault with vbatMv := 0 } }
        if bit s.pins.rails 4 then vaultTrigger 5 s else vaultCollapse s
      else s

/-- RESET_PORT_ASSERT (R579): asserted, the host chip's port holds the block in chip reset until it is deasserted. -/
def execResetPortAssert (asserted : Bool) (s : State) : Host.Outcome State Fault Refusal :=
  .next <|
    let s := { s with pins := { s.pins with resetPort := asserted } }
    if asserted then chipReset s else s

end Sys2Proof.Machine
end

