-- ==== Sys2Proof/Machine/Boot.lean ====
section
/-!
DEFINITION. Start-up from chip reset release to the firmware (R579, R589-R596), with DICE (R93-R96).
-/
namespace Sys2Proof.Machine

/-! ### Step 3: straps and the life-cycle decode -/

/-- Addresses that the MIPI I3C specification reserves (PRESUMED, log 12). -/
def i3cReserved (a : Nat) : Bool := decide (a ∈ [0x00, 0x01, 0x02, 0x3E, 0x5E, 0x6E, 0x76, 0x78, 0x79, 0x7A, 0x7B, 0x7C, 0x7D, 0x7E, 0x7F])

/-- Bits `n` to `m - 1` set. -/
def bitsFrom (n m : Nat) : Nat := 2 ^ m - 2 ^ n

/-- The straps take effect (R460, R461, R576, R577). -/
def applyStraps (v : List Nat) (s : State) : State :=
  let get (i : Nat) : Nat := if i = 6 then s.pins.vaonSample.get 6 else v.getD i 0
  let nStacks := if decide (get 1 ∈ [8, 10, 12]) then get 1 else 0
  let ports := if get 2 ≤ 18 then get 2 else 0
  let share := if get 5 ≤ 4 then get 5 else 0
  { s with
    pins := { s.pins with
      applied := (List.range 8).foldl (fun t i => t.set i (get i)) s.pins.applied
      released := (List.range 8).foldl (fun t i => t.set i (v.getD i 0)) s.pins.released }
    boot := { s.boot with unpopulated := bitsFrom nStacks 12, unwired := bitsFrom ports 18 }
    mem := { s.mem with decodeK := nStacks }
    link := { s.link with ports := (List.range ports).foldl (fun t p => t.upd p (fun x => { x with mode := 0 })) s.link.ports }
    cex := { s.cex with
      compatDefault := get 4 == 1
      queues := if get 4 = 1 then (List.range 64).foldl (fun t q => t.upd q (fun x => { x with compat := true })) s.cex.queues else s.cex.queues }
    srg := { s.srg with profile := share }
    ods := { s.ods with i3cStatic := if i3cReserved (get 0) then 0 else get 0 } }

/-- STRAP_MISMATCH (R460, R461): bit `k` compares the sample at reset release with the one at the VAON ramp. -/
def strapMismatch (s : State) : Nat :=
  flagWord ((List.range 8).map (fun k => (k, s.pins.released.get k != s.pins.vaonSample.get k)))

/-- The 17 octets that MR4 is extended with (R461). -/
def strapRecord (s : State) : Bytes :=
  ((List.range 8).map (fun k => BitVec.ofNat 8 (s.pins.applied.get k))) ++ ((List.range 8).map (fun k => BitVec.ofNat 8 (s.pins.vaonSample.get k))) ++
    [BitVec.ofNat 8 (strapMismatch s)]

/-- The life-cycle decode (R504, R514, R515). In TRANSITION_PENDING the wipe steps are due again; in TEST_UNLOCKED three scopes open
(R521). -/
def decodeLc (s : State) : State :=
  let d := lcDecode (fun i => (s.lcc.words.get i).toNat)
  let s := { s with lcc := { s.lcc with
    decoded := true, state := d.1, target := d.2, progress := if d.1 = lcPending then 2 else 0, tapIr := .idcode } }
  if testUnlocked d.1 then setScopes 7 s else s

/-! ### Steps 5 and 6 -/

/-- An identity fault (R94, R593): logged, DICE_LOCK set, nothing derived further. -/
def identityFault (detail : Nat) (s : State) : State :=
  logError 0x19 2 0xFF 0 0 detail { s with atu := { s.atu with identityFault := true } }

/-- A device slot that holds a derived key (R66, R93). -/
def deviceSlot (n origin : Nat) (key : BitVec 256) (s : State) : State :=
  kweDone (writeSlot n key (attrWord 55 0 0 2 origin false false true) (bindWord 0 0xFFFF 0) 0 s)

/-- The vault's check value is compared, and UDS and FSK are derived (R48, R66, R589 step 6). -/
def deriveDevice (s : State) : State :=
  let rs := leBytes 64 s.vault.rs.toNat
  let ok := leNat (Config.kmacBytes rs (ascii "PELGEN-S4/VAULT-CHECK") [] 8) == s.vault.check.toNat
  let s := kweDone s
  let s := if s.vault.state == 0 && !ok then updAlarm { s with vault := { s.vault with state := 1 } } else s
  if s.vault.state == 0 && !s.atu.identityFault then
    deviceSlot 1 4 (Config.kmac256 rs (ascii "PELGEN-S4/FLASH") []) (deviceSlot 0 4 (Config.kmac256 rs (ascii "PELGEN-S4/UDS") []) s)
  else s

/-! ### Step 7: the firmware image (R591, R592) -/

/-- Does BROM accept an image? -/
def imageAccepted (x : FwImage) : Bool :=
  let h := x.header
  h.length == 128 && slice h 0 4 == [0x50, 0x46, 0x57, 0x31] && field h 4 2 == 1 && field h 6 2 == 0 && field h 0x1C 4 == 0 &&
  allZero (slice h 0x50 48) && decide (1 ≤ field h 0x10 4) && decide (field h 0x10 4 ≤ 4194304) && x.image.length == field h 0x10 4 &&
  decide (field h 0x14 4 + field h 0x18 4 ≤ field h 0x10 4) && slice h 0x20 48 == digestBytes (Config.sha384 x.image) && x.sig.length == 4723 &&
  hybridOk Config.fwAuthorityMldsa Config.fwAuthorityP384 "PELGEN-S4/FIRMWARE" h x.sig

/-- An accepted image is measured (R92, R591). -/
def takeImage (recovery : Bool) (x : FwImage) (s : State) : State :=
  let digest := Config.sha384 x.image
  let s := extendMr 3 (Config.sha384 x.header) (extendMr 2 digest s)
  let s := extendMr 5 (Config.sha384 (bootRecord (if recovery then some digest else none))) s
  { s with
    atu := { s.atu with fwSvn := field x.header 8 4 }
    ods := { s.ods with bootSource := b2n recovery }
    boot := { s.boot with
      imageOk := true, fetching := false, fwVersion := field x.header 0xC 4
      ect := slice x.image (field x.header 0x14 4) (field x.header 0x18 4) } }

/-! ### Step 8: DICE (R93-R95) -/

/-- The order n of the P-384 group (FIPS 186-5, log 12). -/
def p384Order : Nat :=
  0xFFFFFFFFFFFFFFFFFFFFFFFFFFFFFFFFFFFFFFFFFFFFFFFFC7634D81F4372DDF581A0DB248B0A77AECEC196ACCC52973

/-- The P-384 scalar that a 448-bit output becomes (R93): d = (v mod (n - 1)) + 1, v big-endian. -/
def scalarOf (v : Bytes) : Nat := beNat v % (p384Order - 1) + 1

/-- A pair's private half (R90, R93): the ML-DSA seed, then the P-384 scalar. -/
def pairSeed (k : BitVec 256) (ml ec : String) : Bytes :=
  keyBytes (Config.kmac256 (keyBytes k) (ascii ml) []) ++ beBytes 48 (scalarOf (Config.kmacBytes (keyBytes k) (ascii ec) [] 56))

/-- The public half of a signing pair: its ML-DSA-87 key, then its P-384 key. -/
def signingPub (seed : Bytes) : Bytes := Config.mldsaPub (mlPart seed) ++ Config.ecdsaPub (ecPart seed)

/-- The digest of a pair's public keys (R106, R113). -/
def pairDigest (seed : Bytes) : BitVec 384 := Config.sha384 (signingPub seed)

/-- The serial number of a pair's certificates (R96): 20 octets with the top bit clear. -/
def pairSerial (seed : Bytes) : Bytes :=
  match (digestBytes (pairDigest seed)).take 20 with
  | [] => []
  | b :: bs => (b &&& 0x7F) :: bs

/-- The flags of an alias certificate's TcbInfo (R96): bit 0 notSecure, bit 1 debug, bit 2 recovery. -/
def aliasFlags (s : State) : Nat :=
  b2n (!decide (s.lcc.state ∈ [lcProd, lcProdEnd])) + 2 * b2n (s.lcc.scopes != 0) + 4 * s.ods.bootSource

/-- The profile of an alias certificate (R96), for the DeviceID and the alias pair's private halves, the image digest and the DeviceID
certificate whose validity it takes. -/
def aliasProfile (ec : Bool) (id al digest deviceCert : Bytes) (s : State) : CertProfile := {
  algorithm := if ec then "1.2.840.10045.4.3.3" else "2.16.840.1.101.3.4.3.19"
  issuer := "CN=PELGEN-S4-ID, O=Limrin", subject := "CN=PELGEN-S4-ALIAS, O=Limrin"
  serial := pairSerial al, notBefore := Config.certNotBefore deviceCert, notAfter := "99991231235959Z"
  ca := false, pathLen := none, keyUsage := ["digitalSignature"]
  vendor := "Limrin", model := "Pelgen-S4", layer := 1, fwids := digest, svn := s.atu.fwSvn, flags := aliasFlags s
  key := if ec then Config.ecdsaPub (ecPart al) else Config.mldsaPub (mlPart al)
  issuerKey := if ec then Config.ecdsaPub (ecPart id) else Config.mldsaPub (mlPart id) }

/-- An alias certificate (R94 step 4, R96): its profile's encoding under the signature of DeviceID. -/
def issueAlias (ec : Bool) (id al digest deviceCert : Bytes) (s : State) : Bytes × State :=
  let tbs := Config.x509Tbs (aliasProfile ec id al digest deviceCert s)
  if ec then
    let (k, s) := drbgBits 384 s
    (Config.x509Cert tbs (Config.ecdsaSign (ecPart id) (leBytes 48 k.toNat) (Config.sha384 tbs)), pkeDone s)
  else
    let (r, s) := drbgBits 256 s
    (Config.x509Cert tbs (Config.mldsaSign (mlPart id) (leBytes 32 r.toNat) [] tbs), pkeDone s)

/-- DICE_LOCK is set and the private half of PKE entry 0 is cleared (R90, R95). -/
def diceLock (s : State) : State :=
  { s with atu := { s.atu with diceLock := true }, pke := s.pke.upd 0 (fun e => { e with seed := [] }) }

/-- The DeviceID pair (R94 step 1): CDI_ID in slot 2, and the pair in PKE entry 0; three derivations and two key generations. -/
def diceId (s : State) : Bytes × State :=
  let cdi := Config.kmac256 (keyBytes (s.slot 0).key) (ascii "PELGEN-S4/CDI-ID") (digestBytes (s.atu.mr.get 0))
  let id := pairSeed cdi "PELGEN-S4/DEVICEID-MLDSA" "PELGEN-S4/DEVICEID-P384"
  (id, pkeDone (pkeDone (kweDone (kweDone (deviceSlot 2 1 cdi { s with pke := s.pke.set 0 { valid := true, seed := id, pub := signingPub id } })))))

/-- CDI_FW (R93), from CDI_ID in slot 2, the image digest, FW_SVN and the life-cycle state code. -/
def cdiFw (digest : Bytes) (s : State) : BitVec 256 :=
  Config.kmac256 (keyBytes (s.slot 2).key) (ascii "PELGEN-S4/CDI-FW") (digest ++ leBytes 4 s.atu.fwSvn ++ leBytes 4 s.lcc.state)

/-- The alias pair (R94 step 3): CDI_FW in slot 3, and the pair in PKE entry 1. -/
def diceAlias (digest : Bytes) (s : State) : Bytes × State :=
  let fw := cdiFw digest s
  let al := pairSeed fw "PELGEN-S4/ALIAS-MLDSA" "PELGEN-S4/ALIAS-P384"
  (al, pkeDone (pkeDone (kweDone (kweDone (deviceSlot 3 1 fw { s with pke := s.pke.set 1 { valid := true, seed := al, pub := signingPub al } })))))

/-- Do the DeviceID public keys match the certificates of the flash (R94 step 2)? -/
def deviceIdMatches (id c0 c1 : Bytes) : Bool :=
  Config.certKey c0 == Config.mldsaPub (mlPart id) && Config.certKey c1 == Config.ecdsaPub (ecPart id)

/-- The DICE steps (R94) over the image digest and the certificates of the flash. -/
def dice (digest : Bytes) (certs : List Bytes) (s : State) : State :=
  if s.vault.state != 0 || s.atu.identityFault then diceLock s
  else
    let (id, s) := diceId s
    let c0 := certs.getD 0 []
    let c1 := certs.getD 1 []
    if !deviceIdMatches id c0 c1 then diceLock (identityFault 0 s)
    else
      let (al, s) := diceAlias digest s
      let (a0, s) := issueAlias false id al digest c0 s
      let (a1, s) := issueAlias true id al digest c1 s
      diceLock { s with atu := { s.atu with
        certs := [c0, c1, a0, a1], serial := pairSerial id, deviceIdDigest := pairDigest id, aliasDigest := pairDigest al } }

/-- Step 7 with an image, and step 8. -/
def bootImage (recovery : Bool) (x : FwImage) (certs : List Bytes) (s : State) : State :=
  let s := dice (digestBytes (Config.sha384 x.image)) certs (takeImage recovery x s)
  { s with boot := { s.boot with step := 8 } }

/-- Step 7's search for an image: the flash, then the management network (R592); an image that fails is fetched again later. -/
def findImage (flash recovery : Option FwImage) (certs : List Bytes) (s : State) : State :=
  match flash with
  | some x => if s.pins.applied.get 7 == 0 && imageAccepted x then bootImage false x certs s else fetch recovery s
  | none => fetch recovery s
where
  fetch (r : Option FwImage) (s : State) : State :=
    match r with
    | some x => if imageAccepted x then bootImage true x certs s else { s with boot := { s.boot with fetching := true } }
    | none => { s with boot := { s.boot with fetching := true } }

/-! ### The events -/

/-- Do the conditions of R579 hold for release? `rails` gives the VDD and VDDIO rails in range for 100 local us. -/
def mayRelease (s : State) : Bool :=
  s.boot.inReset && bit s.pins.rails 4 && bits s.pins.rails 3 0 == 15 && s.pins.strapTaken && !s.pins.resetPort

/-- The rails of VDD and VDDIO and the bit of RAIL_STATE above VBAT, as release finds them. -/
def takeRails (rails : Nat) (s : State) : State :=
  { s with pins := { s.pins with rails := rails % 16 + bits s.pins.rails 5 4 * 16 + bits rails 6 6 * 64 } }

/-- The block leaves chip reset: the die timers start at 0 (R557, R589 step 2). -/
def leaveReset (s : State) : State :=
  { s with boot := { s.boot with inReset := false, step := 2 }, clk := { s.clk with compute := 0, io0 := 0, io1 := 0, running := true } }

/-- A step of R589 is reached. -/
def bootStep (n : Nat) (s : State) : State := { s with boot := { s.boot with step := n } }

/-- The known-answer test that failed (R593). -/
def katFailed (t : Nat) (s : State) : State := { s with boot := { s.boot with katFail := some t } }

/-- CHIP_RESET_RELEASE (R579, R589 steps 2 to 8): the rails then in range (bits as RAIL_STATE, VAON and VBAT keeping their own), the strap
sample, the known-answer test that failed if one did (R593), what the flash and a recovery fetch hold, and the flash's
certificates. In RAW, SCRAP, INVALID and TRANSITION_PENDING it ends after step 4 (R505, R515, R589). -/
def execChipResetRelease (rails : BitVec 7) (straps : List (BitVec 8)) (kat : Option (BitVec 8)) (flash recovery : Option FwImage)
    (certs : List Bytes) (s : State) : Host.Outcome State Fault Refusal :=
  .next <|
    let s := takeRails rails.toNat s
    if !mayRelease s then s
    else
      let s := extendMr 0 Config.bromDigest (bootStep 4 (decodeLc (applyStraps (strapSample straps) (leaveReset s))))
      if s.lcc.state = lcPending then runWipe s
      else if decide (s.lcc.state ∈ [lcScrap, lcInvalid]) then zeroizeErase s
      else if s.lcc.state = lcRaw then s
      else
        let s := match kat with
          | some t => diceLock (identityFault t.toNat (katFailed t.toNat s))
          | none => s
        let s := deriveDevice s
        let s := extendMr 1 (Config.sha384 (mr1Record s)) s
        let s := extendMr 4 (Config.sha384 (strapRecord s)) (bootStep 6 s)
        findImage flash recovery certs s

/-- RECOVERY_FETCH_RETRY (R592): what the fetch of a local second later delivers. -/
def execRecoveryFetchRetry (recovery : Option FwImage) (certs : List Bytes) (s : State) : Host.Outcome State Fault Refusal :=
  .next (if s.boot.fetching then findImage none recovery certs s else s)

/-- A failed engine is held as unpopulated or unwired (R594). The result record's bits are the UNIT codes of the log (log 9). -/
def holdFailed (failed : Nat) (s : State) : State :=
  { s with
    boot := { s.boot with
      unpopulated := Nat.lor s.boot.unpopulated (bits failed 20 9), unwired := Nat.lor s.boot.unwired (bits failed 40 23) }
    link := { s.link with ports := (List.range 18).foldl (fun t p => if bit failed (23 + p) then t.upd p (fun x => { x with mode := 2 }) else t) s.link.ports } }

/-- The firmware writes what the engine configuration table gives (R177, R261, R556, R561, R594). -/
def loadEct (v : EctValues) (s : State) : State :=
  let units := v.filters.zipIdx.foldl (fun t x => t.upd x.2 (fun (u : SenUnit) => { u with
      mu := x.1.zipIdx.foldl (fun t y => t.set y.2 (y.1.1.toNat : Int)) u.mu
      d := x.1.zipIdx.foldl (fun t y => t.set y.2 (y.1.2.toNat : Int)) u.d })) s.sen.units
  let map := (v.decodeMap.take 64).zipIdx.foldl (fun (t : Tbl Nat) x => t.set x.2 x.1.toNat) s.mem.decodeMap
  let cls := (v.classMap.take 16).zipIdx.foldl (fun (t : Tbl Nat) x => t.set x.2 x.1.toNat) s.link.classMap
  let clocks := (v.clocks.take 8).zipIdx.foldl (fun (t : Tbl Nat) x => t.set x.2 x.1.toNat) s.sen.fairleadMhz
  { s with
    mem := { s.mem with decodeG := v.decodeG.toNat, decodeK := v.decodeK.toNat, decodeMap := map, adjacency := v.adjacency }
    link := { s.link with classMap := cls }
    sen := { s.sen with units := units, fairleadMhz := clocks }
    ods := { s.ods with
      ectVersion := v.version.toNat, ectDigest := Config.sha384 s.boot.ect, hostId := v.hostId
      stackPeak := v.stackPeak.toNat, portPeak := v.portPeak.toNat } }

/-- FW_RUNNING is set (R589 step 9). -/
def fwStarted (s : State) : State :=
  { s with rcv := { s.rcv with fwRunning := true }, boot := { s.boot with step := 9 }, ods := { s.ods with fwVersion := s.boot.fwVersion } }

/-- FIRMWARE_START (R589 step 9, R594): MR6 takes the table, MR7 the 16-octet result record, FW_RUNNING is set. -/
def execFirmwareStart (ect : EctValues) (failed : BitVec 128) (s : State) : Host.Outcome State Fault Refusal :=
  .next <|
    if s.boot.step != 8 || s.rcv.fwRunning then s
    else
      let s := extendMr 6 (Config.sha384 s.boot.ect) (loadEct ect s)
      fwStarted (logError 0x1A 8 0xFF 0 0 7 (extendMr 7 (Config.sha384 (leBytes 16 failed.toNat)) (holdFailed failed.toNat s)))

end Sys2Proof.Machine
end

