-- ==== Sys2Proof/Machine/Kill.lean ====
section
/-!
DEFINITION. Killing a context, as one shared operation (R381, R486, R487).
-/
namespace Sys2Proof.Machine

/-- Has a domain fence taken its DSEQ (R347, R487)? -/
def fenceTaken (s : State) (k : CmdKey) : Bool := s.cex.groups.ents.any (fun g => g.2.waits.any (fun w => w.key == k))

/-- The commands of a context that are in flight and not done, but for one key. -/
def commandsOf (s : State) (c : Nat) (but : Option CmdKey) : List CmdKey :=
  (s.cex.queues.ents.map (fun q => (q.2.flights.filter (fun f =>
    f.phase != .done && f.phase != .completed && rawCtx f.raw == c && some f.key != but)).map (·.key))).flatten

/-- Is a command the faulting one of its queue? -/
def isFaulted (s : State) (k : CmdKey) : Bool := match s.flight k with | some f => f.phase == .faulted | none => false

/-- The requests of a context that wait in the key-work engine's queue are removed (R381). -/
def dropRequests (c : Nat) (s : State) : State :=
  let mine (r : KweReq) : Bool := c != 0 && r.ctx == c
  (s.kwe.queue.filter mine).foldl (fun s r => s.emit (.kwe r.who St.contextKilled []))
    { s with kwe := { s.kwe with queue := s.kwe.queue.filter (fun r => !mine r) } }

/-- Steps 1 and 2 (R486): the context's commands end with CONTEXT_KILLED, a domain fence that has taken its DSEQ only carries it
(R487), its ploughs pause (R232), and a queue halted at one of them goes on fetching (R359). -/
def removeWork (c : Nat) (but : Option CmdKey) (s : State) : State :=
  let ks := commandsOf s c but
  let fences := ks.filter (fenceTaken s)
  let rest := ks.filter (fun k => !fenceTaken s k)
  let halted := ks.filter (isFaulted s)
  let s := (s.mem.ploughs.filter (fun p => p.ctx == c)).foldl (fun s p => pausePlough p.region 1 s) s
  let s := dropRequests c (endAll rest St.contextKilled 0 s)
  let s := fences.foldl (fun s k => updFlight k (fun f => { f with override := some St.contextKilled }) s) s
  let s := { s with srg := { s.srg with slices := s.srg.slices.mapEnts (fun _ r =>
    { r with withdrawn := r.withdrawn.filter (fun w => !decide (w.key ∈ rest)) }) } }
  settleFences (halted.foldl (fun s k => unhalt k.queue.toNat s) s)

/-- Does the key-work engine run a request of a context (R381)? -/
def kweHolds (s : State) (c : Nat) : Bool := match s.kwe.current with | some r => r.ctx == c | none => false

/-- The slice that a context is bound to. -/
def sliceOf (s : State) (c : Nat) : Option Nat := (s.cex.bindings.get c).map (·.slice)

/-- Steps 3 and 4 (R486): ZOA slots of the context are zeroized, and the sync counters that it signals become BROKEN. -/
def breakContext (sl c : Nat) (s : State) : State :=
  let s := zeroizeSlots (fun n (k : Slot) => inPartition s sl n && k.valid && k.zoa && k.ctx == c) s
  (List.range 64).foldl (fun s i =>
    let y := s.cex.syncs.get (sl * 64 + i)
    if y.signaller == c && !y.broken then wakeSync sl i { s with cex := { s.cex with syncs := s.cex.syncs.set (sl * 64 + i) { y with broken := true } } }
    else s) s

/-- Steps 3 to 5 of the kills that no engine holds back any more (R486). -/
def settleKills (s : State) : State :=
  let spent (k : Option CmdKey × Nat) : Bool := !kweHolds s k.2
  let cs := ((s.cex.kills.filter spent).map (·.2)).eraseDups
  let keys := (s.cex.kills.filter spent).filterMap (·.1)
  let s := { s with cex := { s.cex with kills := s.cex.kills.filter (fun k => !spent k) } }
  let s := cs.foldl (fun s c => match sliceOf s c with | some sl => breakContext sl c s | none => s) s
  keys.foldl (fun s k => finish k St.success 0 s) s

/-- A context is killed (R486), by a command or by the recovery sequencer for a unit (R484): once, however many ask (R500). The rung
is counted and logged, and the slice's record notes it (R501). -/
def killContext (c : Nat) (key : Option CmdKey) (unit : Nat) (s : State) : State :=
  let running := s.cex.kills.any (fun k => k.2 == c)
  let s := { s with cex := { s.cex with kills := s.cex.kills ++ [(key, c)] } }
  if running then s
  else
    let sl := sliceOf s c
    let s := match sl with
      | some sl => { s with rcv := { s.rcv with contextKills := s.rcv.contextKills.upd sl (· + 1), lastKilled := s.rcv.lastKilled.set sl c } }
      | none => s
    settleKills (removeWork c key (logRung 0 unit (sl.getD 0xFF) s))

end Sys2Proof.Machine
end

