-- ==== Sys2Proof/Machine/Keys.lean ====
section
/-!
DEFINITION. The key, cipher and public-key commands (R372), the key-work engine's own requests (R69-R72), and the entropy
source (R78-R81).
-/
namespace Sys2Proof.Machine

/-! ### Checks -/

/-- A source slot of the slice: owned, valid, of the usage asked for (R64, R70). -/
def srcChecks (s : State) (sl n : Nat) (usage : Slot → Bool) : List (Bool × Nat × Nat) :=
  [(ownsSlot s sl n, St.slotNotOwned, 0), ((s.slot n).valid, St.keyZeroized, 0), (usage (s.slot n), St.usageViolation, 0)]

/-- A destination slot of the slice: owned and empty (R61). -/
def dstChecks (s : State) (sl n : Nat) : List (Bool × Nat × Nat) :=
  [(ownsSlot s sl n, St.slotNotOwned, 0), (!(s.slot n).valid, St.slotOccupied, 0)]

/-- Does a slot serve as a wrapping key (R70)? -/
def Slot.wraps (k : Slot) : Bool := k.wrap || k.drv

/-! ### Key-store commands -/

/-- The customization strings of the labels of KEY_DERIVE (R66, R372). -/
def deriveLabel (label : Nat) : String :=
  match label with | 1 => "PELGEN-S4/REGION-DATA" | 2 => "PELGEN-S4/REGION-TWEAK" | 3 => "PELGEN-S4/REGION-TAG" | _ => "PELGEN-S4/SHEAF"

/-- KEY_DERIVE (R66, R309, R372). -/
def execKeyDerive (h : CmdHdr) (src dst : BitVec 16) (label opt : BitVec 8) (region : BitVec 16) (id : BitVec 32) (s : State) :
    Host.Outcome State Fault Refusal :=
  .next (cexRun h 0x0200 [(0x18, 2, src.toNat), (0x1A, 2, dst.toNat), (0x1C, 1, label.toNat), (0x1D, 1, opt.toNat), (0x1E, 2, region.toNat), (0x20, 4, id.toNat)] s (fun s =>
    let (sl, l) := (hdrSlice h, label.toNat)
    let sheaf := l == 4
    checked h [(decide (1 ≤ l) && decide (l ≤ 4), St.reservedField, 0), (sheaf || decide (region.toNat < 4096), St.invalidOperand, 0),
        (!bit opt.toNat 0, St.usageViolation, 0)] s (fun s =>
      kweChecked h (srcChecks s sl src.toNat Slot.drv ++ dstChecks s sl dst.toNat ++ [(kweRuns s, St.entropyFailure, 0)]) s (fun s =>
      let x := if sheaf then leBytes 4 id.toNat else leBytes 2 region.toNat ++ leBytes 4 id.toNat
      let key := Config.kmac256 (keyBytes (s.slot src.toNat).key) (ascii (deriveLabel l)) x
      let attr := attrWord 56 (if sheaf then 6 else l) sl (if l = 3 then 3 else 1) 1 false false false
      let bind := bindWord h.ctx.toNat (if sheaf then 0xFFFF else region.toNat) id.toNat
      finish h.key St.success 0 (kweDone (writeSlot dst.toNat key attr bind 0 s))))))

/-- The usage bit of KEY_GENERATE's USAGE (R57, R372). -/
def usageBit (u : Nat) : Nat := match u with | 1 => 52 | 2 => 53 | 3 => 54 | _ => 55

/-- KEY_GENERATE (R70, R81, R371, R372). -/
def execKeyGenerate (h : CmdHdr) (dst : BitVec 16) (usage opt type : BitVec 8) (wrapIdBva : BitVec 64) (x : Option XFault) (wrapId : BitVec 128) (s : State) :
    Host.Outcome State Fault Refusal :=
  .next (cexRun h 0x0201 [(0x18, 2, dst.toNat), (0x1A, 1, usage.toNat), (0x1B, 1, opt.toNat), (0x1C, 1, type.toNat), (0x20, 8, wrapIdBva.toNat)] s (fun s =>
    let sl := hdrSlice h
    let ok (n : BitVec 8) : Bool := decide (1 ≤ n.toNat) && decide (n.toNat ≤ 4)
    checked h [(ok usage && ok type, St.reservedField, 0), (aligned8 wrapIdBva, St.invalidOperand, 0)] s (fun s =>
     kweChecked h (dstChecks s sl dst.toNat ++ [(entOk s && kweRuns s, St.entropyFailure, 0)]) s (fun s =>
      match x with
      | some f => xltFault h.key h.ctx.toNat f s
      | none =>
        let (key, s) := keyBits 256 s
        let wrapId := if wrapIdBva = 0 then 0 else wrapId
        let attr := attrWord (usageBit usage.toNat) 0 sl type.toNat 3 (bit opt.toNat 0) (bit opt.toNat 1) false
        finish h.key St.success 0 (kweDone (writeSlot dst.toNat key attr (bindWord h.ctx.toNat 0xFFFF 0) wrapId s))))))

/-- The KEY_ATTR of a slot's blob (R73): its attribute word without the bits that the unwrapping block sets. -/
def blobAttr (k : Slot) : Nat :=
  let a := k.attr.toNat
  b2n (bit a 61) * 2 ^ 61 + b2n (bit a 60) * 2 ^ 60 + bits a 56 48 * 2 ^ 48 + bits a 39 36 * 2 ^ 36

/-- The refusals of KEY_WRAP's wrapping operands (R372). -/
def wrapChecks (s : State) (sl method slot : Nat) : List (Bool × Nat × Nat) :=
  if method = 1 then srcChecks s sl slot Slot.wraps
  else [(slot == 0xFFFF, St.invalidOperand, 0), (entOk s && pkeRuns s, St.entropyFailure, 0), ((freePke s).isSome, St.resourceExhausted, 9)]

/-- KEY_WRAP (R73-R75, R372). -/
def execKeyWrap (h : CmdHdr) (src wrapSlot : BitVec 16) (method : BitVec 8) (out rcptBva sequence : BitVec 64) (x : Option XFault) (rcpt : Bytes) (s : State) :
    Host.Outcome State Fault Refusal :=
  .next (cexRun h 0x0202 [(0x18, 2, src.toNat), (0x1A, 2, wrapSlot.toNat), (0x1C, 1, method.toNat), (0x20, 8, out.toNat), (0x28, 8, rcptBva.toNat), (0x30, 8, sequence.toNat)] s (fun s =>
    let (sl, m, k) := (hdrSlice h, method.toNat, s.slot src.toNat)
    checked h [(m == 1 || m == 2, St.reservedField, 0), (aligned8 out && (m == 1 || aligned8 rcptBva), St.invalidOperand, 0)] s (fun s =>
     kweChecked h (srcChecks s sl src.toNat Slot.exportable ++ wrapChecks s sl m wrapSlot.toNat ++ [(kweRuns s, St.entropyFailure, 0)]) s (fun s =>
      match x with
      | some f => xltFault h.key h.ctx.toNat f s
      | none =>
        let (nonce, s) := drbgBits 64 s
        let id := if m = 1 then (s.slot wrapSlot.toNat).wrapId else recipientId (fit 1665 rcpt)
        let hdr : BlobHdr := {
          kind := kindKey, method := m, domain := blobDomain s sl, wrapId := id, len := 32, log2 := 0, attr := blobAttr k,
          sequence := sequence.toNat, nonce, bound := 0 }
        let (b, s) := if m = 1 then (some (sealSym (s.slot wrapSlot.toNat).key hdr (keyBytes k.key)), s) else sealHybrid rcpt hdr (keyBytes k.key) s
        match b with
        | none => finish h.key St.invalidOperand 0 s
        | some b => finish h.key St.success b.length (kweDone (s.emit (.dma (tableSet s h.ctx.toNat) out.toNat b)))))))

/-- The attribute word of an unwrapped key (R57, R73): KEY_ATTR with VALID, the owner and ORIGIN unwrapped. -/
def unwrapAttr (a sl : Nat) (zoa device : Bool) : BitVec 64 :=
  BitVec.ofNat 64 (2 ^ 63 + b2n (bit a 61 || zoa) * 2 ^ 61 + b2n (bit a 60) * 2 ^ 60 + bits a 56 48 * 2 ^ 48 + b2n device * 2 ^ 47 +
    (if device then 0 else sl * 2 ^ 40) + bits a 39 36 * 2 ^ 36 + 2 * 2 ^ 32)

/-- KEY_UNWRAP (R59, R76, R77, R371, R372): `blob` and `wrapId` are what its reads returned. -/
def execKeyUnwrap (h : CmdHdr) (dst wrapSlot : BitVec 16) (opt : BitVec 8) (blobBva wrapIdBva : BitVec 64) (x : Option XFault) (blob : Bytes)
    (wrapId : BitVec 128) (s : State) : Host.Outcome State Fault Refusal :=
  .next (cexRun h 0x0203 [(0x18, 2, dst.toNat), (0x1A, 2, wrapSlot.toNat), (0x1C, 1, opt.toNat), (0x20, 8, blobBva.toNat), (0x28, 8, wrapIdBva.toNat)] s (fun s =>
    let sl := hdrSlice h
    let w := if wrapSlot = 0xFFFF then none else some wrapSlot.toNat
    checked h [(aligned8 blobBva && aligned8 wrapIdBva, St.invalidOperand, 0)] s (fun s =>
     kweChecked h (dstChecks s sl dst.toNat ++ (match w with | some n => srcChecks s sl n Slot.wraps | none => [(pkeRuns s, St.entropyFailure, 0)]) ++
        [(kweRuns s, St.entropyFailure, 0)]) s (fun s =>
      match x with
      | some f => xltFault h.key h.ctx.toNat f s
      | none => match checkBlob s sl blob [kindKey] blob.length w (2 + sl) with
        | .error e => finish h.key e 0 s
        | .ok bk =>
          let (p, ok) := openBlob bk blob
          let a := field blob 0x30 8
          let s := if w.isNone then pkeDone (pkeDone s) else s
          if !ok then finish h.key St.tagFailure 0 (kweDone s)
          else if !usageOk a then finish h.key St.usageViolation 0 (kweRefused s)
          else
            finish h.key St.success 0 (kweDone (writeSlot dst.toNat (BitVec.ofNat 256 (leNat p)) (unwrapAttr a sl (bit opt.toNat 0) false)
              (bindWord h.ctx.toNat 0xFFFF 0) (if wrapIdBva = 0 then 0 else wrapId) s))))))

/-- Does a live region, a plough or an open sheaf name a slot (R63, R236, R325)? -/
def slotInUse (s : State) (n : Nat) : Bool :=
  s.mem.regions.ents.any (fun e => e.2.valid && e.2.mode != 3 &&
    (e.2.keyData == n || e.2.keyTweak == n || e.2.keyTag == n ||
      (s.mem.ploughs.any (fun p => p.region == e.1) && (e.2.nextData == n || e.2.nextTweak == n || e.2.nextTag == n)))) ||
  s.sheaf.ctxs.ents.any (fun e => e.2.state != 0 && e.2.slot == n)

/-- KEY_ZEROIZE (R63, R64, R372). -/
def execKeyZeroize (h : CmdHdr) (slot : BitVec 16) (s : State) : Host.Outcome State Fault Refusal :=
  .next (cexRun h 0x0204 [(0x18, 2, slot.toNat)] s (fun s =>
    kweChecked h [(ownsSlot s (hdrSlice h) slot.toNat, St.slotNotOwned, 0), (!slotInUse s slot.toNat, St.slotInUse, 0)] s (fun s =>
      finish h.key St.success 0 (kweDone (zeroizeSlots (fun n _ => n == slot.toNat) s)))))

/-! ### Cipher and public-key commands -/

/-- The operands that CIPHER_ENCRYPT and CIPHER_DECRYPT share, and their ranges (R372). -/
def cipherOps (slot len aadLen : BitVec 16) (src dst iv : BitVec 64) : List (Nat × Nat × Nat) :=
  [(0x18, 2, slot.toNat), (0x1A, 2, len.toNat), (0x1C, 2, aadLen.toNat), (0x20, 8, src.toNat), (0x28, 8, dst.toNat), (0x30, 8, iv.toNat)]
def cipherRange (len aadLen : BitVec 16) (src dst iv : BitVec 64) : Bool :=
  decide (len.toNat ≤ 4096) && decide (aadLen.toNat ≤ 256) && aligned8 src && aligned8 dst && aligned8 iv

/-- CIPHER_ENCRYPT (R70, R372): `data` is the AAD, then the plaintext. -/
def execCipherEncrypt (h : CmdHdr) (slot len aadLen : BitVec 16) (src dst ivBva : BitVec 64) (x : Option XFault) (data : Bytes) (s : State) :
    Host.Outcome State Fault Refusal :=
  .next (cexRun h 0x0210 (cipherOps slot len aadLen src dst ivBva) s (fun s =>
    checked h [(cipherRange len aadLen src dst ivBva, St.invalidOperand, 0)] s (fun s =>
     kweChecked h (srcChecks s (hdrSlice h) slot.toNat Slot.enc ++ [(kweRuns s, St.entropyFailure, 0)]) s (fun s =>
      match x with
      | some f => xltFault h.key h.ctx.toNat f s
      | none =>
        let (iv, s) := drawBits 96 s
        let k := (s.slot slot.toNat).key
        let c := Config.gcmCrypt k iv (slice data aadLen.toNat len.toNat)
        let t := Config.gcmTag k iv (slice data 0 aadLen.toNat) c
        let set := tableSet s h.ctx.toNat
        let s := (s.emit (.dma set dst.toNat (c ++ leBytes 16 t.toNat))).emit (.dma set ivBva.toNat (leBytes 12 iv.toNat))
        finish h.key St.success 0 (kweDone s)))))

/-- CIPHER_DECRYPT (R70, R372): `data` is the AAD, the ciphertext and the tag. -/
def execCipherDecrypt (h : CmdHdr) (slot len aadLen : BitVec 16) (src dst ivBva : BitVec 64) (x : Option XFault) (data : Bytes) (iv : BitVec 96) (s : State) :
    Host.Outcome State Fault Refusal :=
  .next (cexRun h 0x0211 (cipherOps slot len aadLen src dst ivBva) s (fun s =>
    checked h [(cipherRange len aadLen src dst ivBva, St.invalidOperand, 0)] s (fun s =>
     kweChecked h (srcChecks s (hdrSlice h) slot.toNat Slot.dec ++ [(kweRuns s, St.entropyFailure, 0)]) s (fun s =>
      match x with
      | some f => xltFault h.key h.ctx.toNat f s
      | none =>
        let k := (s.slot slot.toNat).key
        let c := slice data aadLen.toNat len.toNat
        if (Config.gcmTag k iv (slice data 0 aadLen.toNat) c).toNat == field data (aadLen.toNat + len.toNat) 16 then
          finish h.key St.success 0 (kweDone (s.emit (.dma (tableSet s h.ctx.toNat) dst.toNat (Config.gcmCrypt k iv c))))
        else finish h.key St.tagFailure 0 (kweDone s)))))

/-- The digest of PK_HASH (R372). -/
def hashOf (alg n : Nat) (m : Bytes) : Bytes :=
  match alg with
  | 1 => beBytes 48 (Config.sha384 m).toNat
  | 2 => beBytes 32 (Config.sha3_256 m).toNat
  | 3 => beBytes 48 (Config.sha3_384 m).toNat
  | _ => fit n (Config.shake256 m n)

/-- PK_HASH (R86, R372). -/
def execPkHash (h : CmdHdr) (src len dst : BitVec 64) (alg : BitVec 8) (outLen : BitVec 16) (x : Option XFault) (data : Bytes) (s : State) :
    Host.Outcome State Fault Refusal :=
  .next (cexRun h 0x0220 [(0x18, 8, src.toNat), (0x20, 8, len.toNat), (0x28, 8, dst.toNat), (0x30, 1, alg.toNat), (0x32, 2, outLen.toNat)] s (fun s =>
    let (a, n) := (alg.toNat, outLen.toNat)
    checked h [(decide (1 ≤ a) && decide (a ≤ 4) && (a == 4 || n == 0), St.reservedField, 0),
        (aligned8 src && aligned8 dst && decide (len.toNat ≤ 2 ^ 24) && (a != 4 || (decide (1 ≤ n) && decide (n ≤ 512))), St.invalidOperand, 0),
        (pkeRuns s, St.entropyFailure, 0)] s (fun s =>
      match x with
      | some f => xltFault h.key h.ctx.toNat f s
      | none => finish h.key St.success 0 (pkeDone (s.emit (.dma (tableSet s h.ctx.toNat) dst.toNat (hashOf a n (fit len.toNat data))))))))

/-- Verification under an algorithm choice (R87, R372): keys and signatures have the ML-DSA-87 part first; ECDSA verifies
SHA-384 of the context followed by the message. -/
def pkVerify (alg : Nat) (key ctx msg sig : Bytes) : Bool :=
  let ml := Config.mldsaVerify (slice key 0 2592) ctx msg (slice sig 0 4627)
  let o := if alg = 3 then 1 else 0
  let ec := Config.ecdsaVerify (slice key (2592 * o) 97) (Config.sha384 (ctx ++ msg)) (slice sig (4627 * o) 96)
  (alg == 2 || ml) && (alg == 1 || ec)

/-- PK_VERIFY (R86, R87, R372). -/
def execPkVerify (h : CmdHdr) (keyBva msgBva sigBva : BitVec 64) (msgLen : BitVec 32) (alg ctxLen : BitVec 8) (x : Option XFault)
    (key msg sig : Bytes) (s : State) : Host.Outcome State Fault Refusal :=
  .next (cexRun h 0x0221 [(0x18, 8, keyBva.toNat), (0x20, 8, msgBva.toNat), (0x28, 8, sigBva.toNat), (0x30, 4, msgLen.toNat), (0x34, 1, alg.toNat), (0x35, 1, ctxLen.toNat)] s (fun s =>
    let (a, n) := (alg.toNat, ctxLen.toNat)
    checked h [(decide (1 ≤ a) && decide (a ≤ 3), St.reservedField, 0),
        (aligned8 keyBva && aligned8 msgBva && aligned8 sigBva && decide (msgLen.toNat ≤ 65536), St.invalidOperand, 0), (pkeRuns s, St.entropyFailure, 0)] s (fun s =>
      match x with
      | some f => xltFault h.key h.ctx.toNat f s
      | none => finish h.key (if pkVerify a key (slice msg 0 n) (slice msg n msgLen.toNat) sig then St.success else St.badSignature) 0 (pkeDone s))))

/-! ### The key-work engine's own requests (R69, R70) -/

/-- Does a requester own a slot (R61)? The device's slots are 0 to 31. -/
def ownsFor (s : State) (who n : Nat) : Bool := if who < 16 then ownsSlot s who n else decide (n < 32)

/-- The usage that an operation requires of its source (R70). -/
def opUsage (op : KweOp) (dst : KweDst) (k : Slot) : Bool :=
  match op with
  | .derive _ _ => k.drv
  | .wrap _ _ => k.wraps
  | .unwrap _ => k.wraps
  | .encrypt _ _ _ => k.enc
  | .decrypt _ _ _ _ => k.dec
  | .load => k.eng && (match dst with | .engine c _ => k.cls == c.toNat | _ => false)
  | .generate => true
  | .zeroize => true

/-- The sizes that an operation takes (R70): a DERIVE's context, the text of ENCRYPT and DECRYPT. -/
def opSize (op : KweOp) : Bool :=
  match op with
  | .derive _ c => decide (c.length ≤ 64)
  | .encrypt _ _ t => decide (t.length ≤ 4096)
  | .decrypt _ _ t _ => decide (t.length ≤ 4096)
  | _ => true

/-- The slot that a WRAP takes out of the block: owned, valid and EXPORTABLE (R62, R64). -/
def wrapSource (s : State) (who : Nat) (op : KweOp) : List (Bool × Nat × Nat) :=
  match op with
  | .wrap n _ => [(ownsFor s who n.toNat, St.slotNotOwned, 0), ((s.slot n.toNat).valid, St.keyZeroized, 0), ((s.slot n.toNat).exportable, St.usageViolation, 0)]
  | _ => []

/-- Why a request is refused before it starts (R61, R62, R64, R70, R72, R80, R95), in the model's order (log 126). -/
def kweRefusal (s : State) (who : Nat) (op : KweOp) (src : Nat) (dst : KweDst) : Option (Nat × Nat) :=
  let k := s.slot src
  let free := op == .generate || op == .zeroize
  firstFail ([(opSize op, St.invalidOperand, 0), (kweRuns s && (op != .generate || entOk s), St.entropyFailure, 0),
    (op == .generate || ownsFor s who src, St.slotNotOwned, 0), (free || k.valid, St.keyZeroized, 0),
    (!(s.atu.diceLock && decide (src ∈ [0, 2]) && !free), St.usageViolation, 0), (opUsage op dst k, St.usageViolation, 0)] ++ wrapSource s who op ++
    [(match dst with | .slot n _ _ => ownsFor s who n.toNat | _ => true, St.slotNotOwned, 0),
    (match dst with | .slot n _ _ => !(s.slot n.toNat).valid | _ => true, St.slotOccupied, 0),
    (match dst with | .slot _ a _ => (match op with | .unwrap _ => true | _ => usageOk a.toNat && attrOk (reqAttr a.toNat)) | _ => true, St.usageViolation, 0)])
where
  /-- the fields of a request's attribute word that the requester chooses (R57) -/
  reqAttr (a : Nat) : Nat := bits a 61 60 * 2 ^ 60 + bits a 56 48 * 2 ^ 48 + bits a 39 36 * 2 ^ 36

/-- The attribute word that a request's key takes (R57, R66): VALID, the owner and ORIGIN are the engine's; a DRV key that it derives is
a KMAC256 key. -/
def kweAttr (r : KweReq) (a : Nat) : BitVec 64 :=
  let derives := match r.op with | .derive _ _ => true | _ => false
  let device := decide (16 ≤ r.who)
  BitVec.ofNat 64 (2 ^ 63 + bits a 61 60 * 2 ^ 60 + bits a 56 52 * 2 ^ 52 + (if bit a 56 then bits a 51 48 else 0) * 2 ^ 48 + b2n device * 2 ^ 47 +
    (if device then 0 else r.who * 2 ^ 40) + (if derives && bit a 55 then 2 else bits a 39 36) * 2 ^ 36 + (if derives then 1 else 3) * 2 ^ 32)

/-- The key that a request produces goes to its destination (R61, R69); CONTEXT is 0, for no command created it (R58). -/
def kwePut (r : KweReq) (key : BitVec 256) (attr : BitVec 64 → BitVec 64) (s : State) : State × Nat :=
  match r.dst with
  | .slot n a b =>
    if (s.slot n.toNat).valid then (s, St.slotOccupied)
    else (writeSlot n.toNat key (attr a) (bindWord 0 (bits b.toNat 47 32) (bits b.toNat 31 0)) 0 s, St.success)
  | .engine c i => (putEngKey c.toNat i.toNat key (if r.op == .load then some r.src else none) s, St.success)
  | .buffer => (s, St.success)

/-- The KEY blob that WRAP gives of a slot under a wrapping key (R70, R73-R75). -/
def wrapSlotBlob (sl src n sequence : Nat) (s : State) : Bytes × State :=
  let (nonce, s) := drbgBits 64 s
  let k := s.slot n
  let hdr : BlobHdr := {
    kind := kindKey, method := 1, domain := blobDomain s sl, wrapId := (s.slot src).wrapId, len := 32, log2 := 0, attr := blobAttr k, sequence, nonce, bound := 0 }
  (sealSym (s.slot src).key hdr (keyBytes k.key), s)

/-- What an operation gives: the state, its status, and the data for a buffer (R70). -/
def kweRun (r : KweReq) (s : State) : State × Nat × Bytes :=
  let k := (s.slot r.src).key
  let put (key : BitVec 256) (s : State) : State × Nat × Bytes :=
    let x := kwePut r key (fun a => kweAttr r a.toNat) s
    (x.1, x.2, [])
  match r.op with
  | .derive l c => put (Config.kmac256 (keyBytes k) l c) s
  | .wrap n q => let x := wrapSlotBlob r.who r.src n.toNat q.toNat s; (x.2, St.success, x.1)
  | .unwrap b => match checkBlob s r.who b [kindKey] b.length (some r.src) 0 with
    | .error e => (s, e, [])
    | .ok bk =>
      let (p, ok) := openBlob bk b
      let a := field b 0x30 8
      if !ok then (s, St.tagFailure, [])
      else if !usageOk a then (s, St.usageViolation, [])
      else
        let x := kwePut r (BitVec.ofNat 256 (leNat p)) (fun _ => unwrapAttr a r.who false (decide (16 ≤ r.who))) s
        (x.1, x.2, [])
  | .encrypt iv aad t => let c := Config.gcmCrypt k iv t; (s, St.success, c ++ leBytes 16 (Config.gcmTag k iv aad c).toNat)
  | .decrypt iv aad c tag => if Config.gcmTag k iv aad c == tag then (s, St.success, Config.gcmCrypt k iv c) else (s, St.tagFailure, [])
  | .generate => let (key, s) := keyBits 256 s; put key s
  | .load => put k s
  | .zeroize => (zeroizeSlots (fun n _ => n == r.src) s, St.success, [])

/-- The request that the engine takes next (R69, R416): the oldest of the waiting contender with the lowest ratio of engine time to share. -/
def nextKwe (s : State) : Option KweReq :=
  match bestContender s 1 (windowTime s 1) (s.kwe.queue.map (·.who)) with
  | none => none
  | some c => s.kwe.queue.find? (fun r => r.who == c)

/-- Why a request taken from the queue does not start (R64, R70). -/
def kweStop (s : State) (r : KweReq) : Option (Nat × Nat) :=
  if r.dead then some (St.keyZeroized, 0) else kweRefusal s r.who r.op r.src r.dst

/-- The idle engine takes requests from its queue until one starts (R69, R70): a request that it refuses completes at once. -/
def kweStart : Nat → State → State
  | 0, s => s
  | n + 1, s =>
    if s.kwe.current.isSome then s
    else match nextKwe s with
      | none => s
      | some r =>
        let s := { s with kwe := { s.kwe with queue := s.kwe.queue.erase r } }
        match kweStop s r with
        | some x => kweStart n ((kweRefused s).emit (.kwe r.who x.1 []))
        | none => { s with kwe := { s.kwe with current := some r } }

/-- KWE_REQUEST (R69, R70): the request enters the queue of 256 entries, and the idle engine takes its next; a request that finds the queue
full stays with its requester (log 126). -/
def execKweRequest (who : BitVec 5) (op : KweOp) (src : BitVec 11) (dst : KweDst) (ctx : BitVec 16) (s : State) : Host.Outcome State Fault Refusal :=
  .next <|
    if 256 ≤ s.kwe.queue.length then s
    else
      let r : KweReq := { who := min 16 who.toNat, op, src := src.toNat, dst, ctx := ctx.toNat, dead := false }
      kweStart 257 { s with kwe := { s.kwe with queue := s.kwe.queue ++ [r] } }

/-- KWE_COMPLETE (R54, R64, R70): the operation's result, or its discard when a slot it names was zeroized. A context kill that
waited for it goes on (R381, R486), and the engine takes its next request. -/
def execKweComplete (ns : BitVec 32) (s : State) : Host.Outcome State Fault Refusal :=
  .next <| match s.kwe.current with
    | none => s
    | some r =>
      let s := chargeEngine r.who 1 ns.toNat (obsAdd 31 ns.toNat { s with kwe := { s.kwe with current := none } })
      let x := if r.dead then (s, St.keyZeroized, []) else kweRun r s
      let s := kweDone x.1
      let s := if r.who < 16 then s else pend 257 s
      kweStart 257 (settleKills (s.emit (.kwe r.who x.2.1 x.2.2)))

/-- PKE_COMPLETE (R85, R86, R421, R423): a unit's operation of a contender finishes, with its engine time. -/
def execPkeComplete (unit : BitVec 2) (who : BitVec 5) (ns : BitVec 32) (s : State) : Host.Outcome State Fault Refusal :=
  .next <|
    let s := chargeEngine who.toNat 0 ns.toNat (obsAdd (32 + unit.toNat) ns.toNat s)
    let s := { s with srg := { s.srg with store := s.srg.store.erase who.toNat } }
    if who.toNat < 16 || unit == 3 then s else pend 257 s

/-! ### Entropy -/

/-- ENT_HEALTH_FAILURE (R80): the repetition count test (0), the adaptive proportion test (1) or the start-up tests (2). -/
def execEntHealthFailure (test : BitVec 2) (s : State) : Host.Outcome State Fault Refusal :=
  .next <|
    let e := s.ent
    if e.state == 3 || e.state == 2 || 2 < test.toNat then s
    else
      let recent := (e.failTimes.filter (fun t => decide (s.now < t + 1000000000))) ++ [s.now]
      let s := { s with ent := { e with
        rctFails := e.rctFails + b2n (test == 0), aptFails := e.aptFails + b2n (test == 1), failTimes := recent
        state := if 3 ≤ recent.length then 3 else 2 } }
      pend 258 (logError 0x1B 7 0xFF 0 0 test.toNat s)

/-- ENT_RETRY_EXPIRY (R80). -/
def execEntRetryExpiry (s : State) : Host.Outcome State Fault Refusal :=
  .next (if s.ent.state == 2 then { s with ent := { s.ent with state := 1 } } else s)

/-- ENT_STARTUP_TESTS_DONE (R80, R81): the source is OK, and the DRBG is instantiated when it was not. -/
def execEntStartupTestsDone (s : State) : Host.Outcome State Fault Refusal :=
  .next (if s.ent.state == 1 then drbgStartUp { s with ent := { s.ent with state := 0 } } else s)
where
  /-- the DRBG is instantiated when it was not -/
  drbgStartUp (s : State) : State := if s.ent.instantiated then s else drbgInstantiate s

/-- DRBG_RESEED (R72, R81, R82, R88): the block's instance (0), the KWE's (1) or the PKE's (2), while the source is OK. -/
def execDrbgReseed (which : BitVec 2) (s : State) : Host.Outcome State Fault Refusal :=
  .next <|
    if which == 3 then s
    else if !entOk s then pend 259 s
    else if which == 0 then drbgReseed s
    else if which == 1 then kweReseed s
    else pkeReseed s

end Sys2Proof.Machine
end

