-- ==== Sys2Proof/Machine/Copy.lean ====
section
/-!
DEFINITION. COPY, IMPORT and EXPORT (R77, R208, R319, R375-R377), and the block DMA that reads the lines of a command (R386).
-/
namespace Sys2Proof.Machine

/-! ### Block-DMA reads -/

/-- Has every block-DMA read of a command ended? -/
def blockDone (s : State) (k : CmdKey) : Bool :=
  !s.mem.reads.any (fun x => match x.purpose with | .block j _ => j == k | _ => false)

/-- What the n-th block-DMA read of a command returned: none for poison. -/
def blockAt (s : State) (k : CmdKey) (n : Nat) : Option Line := (s.mem.blocks.find? (fun b => b.key == k && b.n == n)).bind (·.data)

/-- A command's buffer is given up. -/
def dropBlocks (k : CmdKey) (s : State) : State :=
  { s with mem := { s.mem with blocks := s.mem.blocks.filter (fun b => b.key != k), gathers := s.mem.gathers.filter (fun g => g.key != k) } }

/-- The line `l.1` is read as the command's line `l.2` (R386). -/
def blockRead (k : CmdKey) (who : Nat) (s : State) (l : Nat × Nat) : State := missionRead (stackOf s l.1) l.1 0x11 who (.block k l.2) s

/-- The last step of a command whose block-DMA reads have all ended: it takes its buffer. -/
def tryGather (k : CmdKey) (f : Gather → (Nat → Option Line) → State → State) (s : State) : State :=
  match s.mem.gathers.find? (fun g => g.key == k) with
  | none => s
  | some g => if blockDone s k then f g (blockAt s k) (dropBlocks k s) else s

/-- A command's block DMA reads its lines, each under its number, and the command goes on when all have been read (R386, log 133). -/
def startGather (g : Gather) (who : Nat) (lines : List (Nat × Nat)) (f : Gather → (Nat → Option Line) → State → State) (s : State) : State :=
  let s := dropBlocks g.key s
  let s := { s with mem := { s.mem with gathers := s.mem.gathers ++ [g] } }
  tryGather g.key f (lines.foldl (blockRead g.key who) s)

/-- A command whose block DMA reads lines: its first event starts it, a later event takes it on from what has been read (log 133). -/
def gatherRun (h : CmdHdr) (op : Nat) (ops : List (Nat × Nat × Nat)) (s : State) (f : Gather → (Nat → Option Line) → State → State)
    (start : State → State) : State :=
  if (s.flight h.key).any (fun x => x.phase == .running && x.raw == encodeCmd h op ops) then tryGather h.key f s else cexRun h op ops s start

/-! ### COPY -/

/-- The requester that block DMA of a table set acts for (R386): the slice, or 0x10 for set 16. -/
def dmaActor (sl : Nat) : Nat := if sl < 16 then sl else 0x10

/-- One line of COPY is written to its destination, with what its source read as (none for poison). -/
def copyLine (sl : Nat) (acc : State × Bool) (l : BitVec 52 × Option Line) : State × Bool :=
  match acc with
  | (s, false) => (s, false)
  | (s, true) => match l.2 with
    | none => (s, false)
    | some d =>
      if l.1.getLsbD 51 then (s.emit (.dma sl (l.1.toNat % 2 ^ 51) (fit 128 d)), true)
      else
        let ln := l.1.toNat % 2 ^ 47 / 128
        missionWrite (stackOf s ln) ln 0x11 (dmaActor sl) true d s

/-- The lines of COPY whose source lies in the block's own memory, with their numbers. -/
def copySources (lines : List CopyLine) : List (Nat × Nat) :=
  lines.zipIdx.filterMap (fun e => if e.1.src.getLsbD 51 then none else some (e.1.src.toNat % 2 ^ 47 / 128, e.2))

/-- COPY writes its lines in order; the first that read poison or whose write is dropped ends it (R376, R399). -/
def copyBody (h : CmdHdr) (n : Nat) (g : Gather) (got : Nat → Option Line) (s : State) : State :=
  let data (e : CopyLine × Nat) : BitVec 52 × Option Line := (e.1.dst, if e.1.src.getLsbD 51 then e.1.outside else got e.2)
  let r := (g.lines.zipIdx.map data).foldl (copyLine (tableSet s h.ctx.toNat)) (s, true)
  finish h.key (if r.2 && g.lines.length == n then St.success else St.regionState) 0 r.1

/-- COPY (R376, R386): every line is read and written as a mission access of the acting slice. -/
def execCopy (h : CmdHdr) (src dst len : BitVec 64) (x : Option XFault) (lines : List CopyLine) (s : State) :
    Host.Outcome State Fault Refusal :=
  let n := len.toNat / 128
  .next (gatherRun h 0x0700 [(0x18, 8, src.toNat), (0x20, 8, dst.toNat), (0x28, 8, len.toNat)] s (copyBody h n) (fun s =>
    checked h [(decide (128 ≤ len.toNat) && decide (len.toNat ≤ 2 ^ 40) && len.toNat % 128 == 0 && src.toNat % 128 == 0 && dst.toNat % 128 == 0, St.invalidOperand, 0)] s (fun s =>
      match x with
      | some f => xltFault h.key h.ctx.toNat f s
      | none =>
        let ls := lines.take n
        startGather { key := h.key, lines := ls } (dmaActor (tableSet s h.ctx.toNat)) (copySources ls) (copyBody h n) s)))

/-! ### Extent lists (R375) -/

/-- An extent: region, byte offset, byte length. -/
structure Extent where
  region : Nat
  zero : Nat
  off : Nat
  len : Nat
  deriving DecidableEq, Repr

/-- The extents of a list. -/
def extents (b : Bytes) : List Extent :=
  (List.range (field b 0 1)).map (fun e =>
    { region := field b (0x30 + 24 * e) 2, zero := field b (0x32 + 24 * e) 6, off := field b (0x38 + 24 * e) 8, len := field b (0x40 + 24 * e) 8 })

/-- Payload bytes of an extent list. -/
def payloadLen (es : List Extent) : Nat := (es.map (·.len)).foldl (· + ·) 0

/-- An extent lies inside a protected region of the slice (R377). -/
def extentIn (s : State) (sl : Nat) (e : Extent) : Bool :=
  let x := s.region e.region
  decide (e.region < 4096) && x.valid && x.slice == sl && x.mode != 3 && decide (e.off + e.len ≤ x.pages * 4096)

/-- No two extents overlap (R377). -/
def apart : List Extent → Bool
  | [] => true
  | e :: es => es.all (fun f => f.region != e.region || decide (f.off + f.len ≤ e.off) || decide (e.off + e.len ≤ f.off)) && apart es

/-- The checks of an extent list; fields that the direction does not use are zero (R375, R377). -/
def listChecks (s : State) (sl : Nat) (b : Bytes) (imports : Bool) : List (Bool × Nat × Nat) :=
  let es := extents b
  [(field b 1 7 == 0 && field b 0x28 8 == 0 && es.all (fun e => e.zero == 0) && (!imports || allZero (slice b 8 32)), St.reservedField, 0),
   (decide (1 ≤ field b 0 1) && decide (field b 0 1 ≤ 16) && es.all (fun e => e.off % 128 == 0 && decide (1 ≤ e.len)), St.invalidOperand, 0),
   (es.all (extentIn s sl) && apart es, St.importLayout, 0)]

/-- The regions of an extent list, each once. -/
def listRegions (es : List Extent) : List Nat := (es.map (·.region)).eraseDups

/-- The lines of a payload: region, line offset, and the payload range that fills it. -/
def listLines (es : List Extent) : List (Nat × Nat × Nat × Nat) :=
  let go (acc : Nat × List (Nat × Nat × Nat × Nat)) (e : Extent) : Nat × List (Nat × Nat × Nat × Nat) :=
    (acc.1 + e.len, acc.2 ++ (List.range ((e.len + 127) / 128)).map (fun i => (e.region, e.off / 128 + i, acc.1 + 128 * i, min 128 (e.len - 128 * i))))
  (es.foldl go (0, [])).2

/-! ### IMPORT -/

/-- May a destination be imported into (R146, R208, R212, R226)? The status of the first reason against it. -/
def importRefusal (s : State) (r : Nat) : Option Nat :=
  let x := s.region r
  if x.mode == 1 then
    if x.window || x.closing then some St.windowState else if 2 ^ 48 - 1 ≤ x.stepOrSeq + 1 then some St.stepExhausted else none
  else if x.mode == 2 && x.save != 1 then some St.regionState
  else none

/-- The open sheaves that name the destinations accept the blob's bound digest (R319). -/
def boundAgrees (s : State) (rs : List Nat) (bound : Nat) : Bool :=
  bound == 0 || rs.all (fun r => match sheafOf s r with
    | some k => (match (s.sheaf.ctxs.get k).bound with | some b => b.toNat == bound | none => true)
    | none => true)

/-- The blob's bound digest is stored in them. -/
def bindSheaves (rs : List Nat) (bound : Nat) (s : State) : State :=
  if bound = 0 then s
  else rs.foldl (fun s r => match sheafOf s r with
    | some k => { s with sheaf := { s.sheaf with ctxs := s.sheaf.ctxs.upd k (fun c => { c with bound := some (BitVec.ofNat 128 bound) }) } }
    | none => s) s

/-- One imported line (R77): `ok` falls when the engine drops it; `done` are the regions that have received a line. -/
def importLine (sl : Nat) (acc : State × Bool × List Nat) (r off : Nat) (data : Line) : State × Bool × List Nat :=
  let (s, ok, done) := acc
  if !ok then acc
  else
    let ln := (s.region r).firstLn + off
    let e := stackOf s ln
    if isFallow s ln then (dropWrite 0x0A 0x8012 e ln 0x11 sl (some r) false s, false, done)
    else
      let a := acceptWrite e ln 0x11 sl r true data s
      (a.1, a.2, if a.2 && !decide (r ∈ done) then done ++ [r] else done)

/-- Destinations enter IMPORT_FAILED unless they are KEYLESS (R77). -/
def importFailed (rs : List Nat) (s : State) : State :=
  rs.foldl (fun s r => updRegion r (fun x => if x.state == 4 then x else { x with state := 3 }) s) s

/-- The lines of a step-cadenced destination that no extent covers (R377). -/
def uncovered (s : State) (r : Nat) (ls : List (Nat × Nat × Nat × Nat)) : List Nat :=
  (List.range (s.region r).lines).filter (fun n => !ls.any (fun l => l.1 == r && l.2.1 == n))

/-- The writes of an IMPORT whose checks have passed: the new S first (R208), the lines of the chunks that verified, then the
lines that no extent covers (R77, R377); its status. -/
def importBody (sl : Nat) (es : List Extent) (key : BitVec 256) (blob : Bytes) (s : State) : State × Nat :=
  let rs := listRegions es
  let ls := listLines es
  let s := bindSheaves rs (field blob 0x50 16) s
  let s := rs.foldl (fun s r => updRegion r (fun x => if x.mode == 1 then { x with stepOrSeq := x.stepOrSeq + 1 } else x) s) s
  let (plain, all) := openBlob key blob
  let take (acc : State × Bool × List Nat) (l : Nat × Nat × Nat × Nat) : State × Bool × List Nat :=
    if plain.length < l.2.2.1 + l.2.2.2 then acc else importLine sl acc l.1 l.2.1 (fit 128 (slice plain l.2.2.1 l.2.2.2))
  let (s, ok, done) := ls.foldl take (s, true, [])
  if !ok then (importFailed done s, St.regionState)
  else if !all then (importFailed rs s, St.tagFailure)
  else
    let zeros (acc : State × Bool × List Nat) (r : Nat) : State × Bool × List Nat :=
      if (acc.1.region r).mode != 1 then acc
      else (uncovered acc.1 r ls).foldl (fun acc n => importLine sl acc r n (List.replicate 128 0)) acc
    let (s, ok, done) := rs.foldl zeros (s, true, done)
    if !ok then (importFailed done s, St.regionState)
    else (rs.foldl (fun s r => updRegion r (fun x => if x.state == 3 then { x with state := 1 } else x) s) s, St.success)

/-- Does a save being written cover the extents that name its region (R212, R377)? -/
def saveCovers (s : State) (e : Extent) : Bool :=
  let x := s.region e.region
  x.mode != 2 || x.save != 1 || (inSave x (e.off / 128) && inSave x ((e.off + e.len - 1) / 128))

/-- IMPORT (R76, R77, R208, R212, R319, R377): `list` and `blob` are what its reads returned. -/
def execImportBlob (h : CmdHdr) (blobBva blobLen listBva : BitVec 64) (wrapSlot : BitVec 16) (x : Option XFault) (list blob : Bytes) (s : State) :
    Host.Outcome State Fault Refusal :=
  .next (cexRun h 0x0701 [(0x18, 8, blobBva.toNat), (0x20, 8, blobLen.toNat), (0x28, 8, listBva.toNat), (0x30, 2, wrapSlot.toNat)] s (fun s =>
    let sl := hdrSlice h
    let w := if wrapSlot = 0xFFFF then none else some wrapSlot.toNat
    checked h [(aligned8 blobBva && aligned8 listBva, St.invalidOperand, 0)] s (fun s =>
      match x with
      | some f => xltFault h.key h.ctx.toNat f s
      | none =>
        let es := extents list
        let rs := listRegions es
        checked h (listChecks s sl list true ++ [(es.all (saveCovers s), St.importLayout, 0),
            (rs.all (fun r => (s.region r).state == 1 || (s.region r).state == 3), St.regionState, 0)] ++
            (match w with | some n => srcChecks s sl n Slot.drv | none => []) ++ [(kweRuns s, St.entropyFailure, 0)]) s (fun s =>
          match checkBlob s sl blob [2, 3, 5] blobLen.toNat w (2 + sl) with
          | .error e => finish h.key e 0 s
          | .ok bk =>
            checked h [(payloadLen es == Sys2Proof.Machine.blobLen blob, St.importLayout, 0), ((blobSlot s sl).isSome, St.resourceExhausted, 8),
                ((rs.filterMap (importRefusal s)).isEmpty, (rs.filterMap (importRefusal s)).headD 0, 0),
                (boundAgrees s rs (field blob 0x50 16), St.sheafMismatch, 0)] s (fun s =>
              let r := withBlobSlot sl h.ctx.toNat bk s (fun s => let b := importBody sl es bk blob s; (b.1, b.2, 0))
              finish h.key r.2.1 r.2.2 r.1)))))

/-! ### EXPORT -/

/-- What EXPORT needs of the key engines: the wrapping slot carries DRV (R70), or the hybrid issue has its entropy and its transient pair
(R80, R90); the blob's key has a slot (R68). -/
def exportKeys (s : State) (sl m slot : Nat) : List (Bool × Nat × Nat) :=
  (if m = 1 then srcChecks s sl slot Slot.drv else [(entOk s && pkeRuns s, St.entropyFailure, 0), ((freePke s).isSome, St.resourceExhausted, 9)]) ++
    [(kweRuns s, St.entropyFailure, 0), ((blobSlot s sl).isSome, St.resourceExhausted, 8)]

/-- The payload of an extent list from the lines that were read: none when one read poison (R377). -/
def exportPayload (es : List Extent) (got : Nat → Option Line) : Option Bytes :=
  (listLines es).zipIdx.foldl (fun acc e => match acc, got e.2 with
    | some p, some l => some (p ++ l.take e.1.2.2.2)
    | _, _ => none) (some [])

/-- The blob of EXPORT and its key; none when the recipient's ECDH key is not one (R73-R75). -/
def exportBlob (sl m slot kind log2 : Nat) (list rcpt payload : Bytes) (s : State) : Option (Bytes × BitVec 256) × State :=
  let (nonce, s) := drbgBits 64 s
  let hdr : BlobHdr := {
    kind, method := m, domain := blobDomain s sl, len := payload.length, log2, attr := 0, sequence := field list 8 8, nonce,
    wrapId := if m = 1 then (s.slot slot).wrapId else recipientId (fit 1665 rcpt), bound := field list 0x10 16 }
  if m = 1 then
    let w := (s.slot slot).key
    (some (sealSym w hdr payload, blobKey (keyBytes w) false hdr.bytes), s)
  else
    let r := hybridHead rcpt hdr s
    (r.1.map (fun p => (p.1 ++ blobChunks p.2 p.1 hdr payload, p.2)), r.2)

/-- EXPORT with the lines of its extents read: it writes the blob (R73-R75, R376, R377). -/
def exportBody (h : CmdHdr) (out m slot kind log2 : Nat) (g : Gather) (got : Nat → Option Line) (s : State) : State :=
  let sl := hdrSlice h
  let list := g.buffers.headD []
  checked h (exportKeys s sl m slot) s (fun s =>
    match exportPayload (extents list) got with
    | none => finish h.key St.regionState 0 s
    | some p => match exportBlob sl m slot kind log2 list (g.buffers.getD 1 []) p s with
      | (none, s) => finish h.key St.invalidOperand 0 s
      | (some (b, key), s) =>
        let r := withBlobSlot sl h.ctx.toNat key s (fun s => (s.emit (.dma (tableSet s h.ctx.toNat) out b), St.success, b.length))
        finish h.key r.2.1 r.2.2 r.1)

/-- EXPORT (R73-R75, R375-R377): `list` and `rcpt` are what its reads of the operand buffers returned. -/
def execExportBlob (h : CmdHdr) (out outLen listBva : BitVec 64) (wrapSlot : BitVec 16) (kind log2 method : BitVec 8) (x : Option XFault)
    (list rcpt : Bytes) (s : State) : Host.Outcome State Fault Refusal :=
  let (sl, m) := (hdrSlice h, method.toNat)
  let l := if log2 = 0 then 21 else log2.toNat
  let body := exportBody h out.toNat m wrapSlot.toNat kind.toNat l
  .next (gatherRun h 0x0702 [(0x18, 8, out.toNat), (0x20, 8, outLen.toNat), (0x28, 8, listBva.toNat), (0x30, 2, wrapSlot.toNat), (0x32, 1, kind.toNat),
      (0x33, 1, log2.toNat), (0x34, 1, m)] s body (fun s =>
    checked h [(decide (kind.toNat ∈ [2, 3, 5]) && (m == 1 || m == 2), St.reservedField, 0),
        (decide (16 ≤ l) && decide (l ≤ 24) && ((m == 2) == (wrapSlot == 0xFFFF)) && aligned8 out && aligned8 listBva, St.invalidOperand, 0)] s (fun s =>
      match x with
      | some f => xltFault h.key h.ctx.toNat f s
      | none =>
        let es := extents list
        let n := payloadLen es
        let total := (if m = 2 then 1824 else 128) + n + 16 * chunkCount n l
        checked h (listChecks s sl list false ++ [(kind.toNat != 5 || field list 0x10 16 == 0, St.invalidOperand, 0),
            (if m = 1 then field list 0x20 8 == 0 else field list 0x20 8 % 8 == 0, if m = 1 then St.reservedField else St.invalidOperand, 0),
            ((listRegions es).all (fun r => (s.region r).state == 1 || (s.region r).state == 2), St.regionState, 0),
            (decide (total ≤ outLen.toNat), St.bufferTooSmall, total)] ++ exportKeys s sl m wrapSlot.toNat) s (fun s =>
          startGather { key := h.key, buffers := [list, rcpt] } sl
            ((listLines es).zipIdx.map (fun e => ((s.region e.1.1).firstLn + e.1.2.1, e.2))) body s))))

end Sys2Proof.Machine
end

