-- ==== Sys2Proof/Machine/Icu.lean ====
section
/-!
DEFINITION. The interrupt controller's commands (R464-R480).
-/
namespace Sys2Proof.Machine

/-- Private sources that R465 reserves. -/
def reservedSource (n : Nat) : Bool := (27 ≤ n && n ≤ 31) || (48 ≤ n && n ≤ 63) || 448 ≤ n

/-- The sources that a 512-bit register's set bits name; bits of reserved sources do nothing (R466). -/
def bitmapSources (m : BitVec 512) : List Nat :=
  (List.range 448).filter (fun n => bit m.toNat n && !reservedSource n)

/-- Change a source. -/
def updSrc (pair : Bool) (n : Nat) (f : IcuSrc → IcuSrc) (s : State) : State :=
  { s with icu := { s.icu with src := s.icu.src.upd (srcKey pair n) f } }

/-- Change a pair's interface registers. -/
def updIcuPair (pair : Bool) (f : IcuPair → IcuPair) (s : State) : State :=
  { s with icu := { s.icu with pairs := s.icu.pairs.upd (b2n pair) f } }

/-- A pair that accesses the controller is running, so neither of its cores is in WFI. -/
def awake (pair : Bool) (s : State) : State := updIcuPair pair (fun p => { p with wfi := false }) s

/-- The value of a read of CLAIM (R466): source and priority, or the spurious number. -/
def claimValue (b : Option (Nat × Nat)) : Nat := match b with | some (p, n) => n + p * 2 ^ 16 | none => 0x3FF

/-- A claim takes the source (R469). -/
def claimTake (pair : Bool) (prio n : Nat) (s : State) : State :=
  let w := (s.icu.src.get (srcKey pair n)).window
  let s := updSrc pair n (fun c => if isLevel n then { c with active := true, latch := false, window := false }
    else { c with active := true, pending := false, window := false }) s
  updIcuPair pair (fun p => { p with
    stack := (prio, n) :: p.stack, claims := p.claims + 1,
    maskWindowClaims := p.maskWindowClaims + b2n w }) s

/-- CLAIM (R469). An access of another width is ignored and reads zero (R466). -/
def execClaim (pair : Bool) (width : BitVec 8) (s : State) : Host.Outcome State Fault Refusal :=
  .next <|
    if width != 4 then s.emit (.claim pair 0)
    else
      let b := bestSource pair s
      let line := (s.icu.pairs.get (b2n pair)).line
      let s := awake pair s
      let s := match b with
        | some (p, n) => claimTake pair p n s
        | none => updIcuPair pair (fun p => { p with spurious := p.spurious + b2n line }) s
      let s := if b.isNone && line then obsAdd 86 1 s else s
      (icuUpdateBoth s).emit (.claim pair (claimValue b))

/-- A re-sample or an assertion has counted: the storm rule's notice and report when it trips (R474). -/
def stormCheck (pair : Bool) (n : Nat) (s : State) : State :=
  let c := s.icu.src.get (srcKey pair n)
  if c.stormEn && n != 24 && !c.storm && decide (c.stormCount = c.stormLimit) then
    let s := updSrc pair n (fun c => { c with masked := true, storm := true }) s
    let s := { s with icu := { s.icu with storms := s.icu.storms + 1 } }
    logError 0x18 46 0xFF 0 n c.stormCount (icuAssert (keyPair (srcKey pair n) c) 24 s)
  else s

/-- An accepted EOI (R470): ACTIVE clears, the stack pops, a level source is sampled. -/
def eoiAccept (pair : Bool) (n : Nat) (s : State) : State :=
  let s := updIcuPair pair (fun p => { p with stack := p.stack.tail }) s
  let c := s.icu.src.get (srcKey pair n)
  if isLevel n && c.input && c.stormEn then
    stormCheck pair n (updSrc pair n (fun c => { c with active := false, stormCount := c.stormCount + 1 }) s)
  else updSrc pair n (fun c => { c with active := false }) s

/-- EOI (R470). -/
def execEoi (pair : Bool) (width : BitVec 8) (value : BitVec 32) (s : State) : Host.Outcome State Fault Refusal :=
  .next <|
    if width != 4 then s
    else
      let n := value.toNat % 1024
      let s := awake pair s
      match (s.icu.pairs.get (b2n pair)).stack with
      | (_, m) :: _ =>
        if m == n then icuUpdateBoth (eoiAccept pair n s)
        else updIcuPair pair (fun p => { p with eoiMismatch := p.eoiMismatch + 1 }) s
      | [] => updIcuPair pair (fun p => { p with eoiMismatch := p.eoiMismatch + 1 }) s

/-- PEND_SET on one source (R471): an edge source asserts, a level source latches; neither counts toward a storm. -/
def pendSet1 (pair : Bool) (n : Nat) (s : State) : State :=
  let s := traceWatch 2 (keyPair (srcKey pair n) (s.icu.src.get (srcKey pair n))) n s
  updSrc pair n (fun c => if isLevel n then { c with latch := true } else { c with pending := true }) s

/-- PEND_SET (R471). -/
def execPendSet (pair : Bool) (bitmap : BitVec 512) (s : State) : Host.Outcome State Fault Refusal :=
  .next (icuUpdateBoth ((bitmapSources bitmap).foldl (fun s n => pendSet1 pair n s) (awake pair s)))

/-- PEND_CLR (R466, R471): no effect on level sources. -/
def execPendClr (pair : Bool) (bitmap : BitVec 512) (s : State) : Host.Outcome State Fault Refusal :=
  .next (icuUpdateBoth ((bitmapSources bitmap).foldl
    (fun s n => if isLevel n then s else updSrc pair n (fun c => { c with pending := false }) s) (awake pair s)))

/-- MASK_SET on one source: masked; a source in delivery may still be claimed once, which a free value decides (R473). -/
def maskSet1 (pair : Bool) (n : Nat) (s : State) : State :=
  let t := keyPair (srcKey pair n) (s.icu.src.get (srcKey pair n))
  let inDelivery := (s.icu.pairs.get (b2n t)).line && (bestSource t s).map (·.2) == some n
  let may := inDelivery && (s.draw 1 == 1)
  updSrc pair n (fun c => { c with masked := true, window := c.window || may }) s.drew

/-- MASK_SET (R473). -/
def execMaskSet (pair : Bool) (bitmap : BitVec 512) (s : State) : Host.Outcome State Fault Refusal :=
  .next (icuUpdateBoth ((bitmapSources bitmap).foldl (fun s n => maskSet1 pair n s) (awake pair s)))

/-- MASK_CLR (R466, R474): ignored for a source whose STORM bit is set. -/
def execMaskClr (pair : Bool) (bitmap : BitVec 512) (s : State) : Host.Outcome State Fault Refusal :=
  .next (icuUpdateBoth ((bitmapSources bitmap).foldl
    (fun s n => updSrc pair n (fun c => if c.storm then c else { c with masked := false, window := false }) s) (awake pair s)))

/-- STORM (R466, R474): writing 1 clears the bit; the source stays masked. -/
def execStormClear (pair : Bool) (bitmap : BitVec 512) (s : State) : Host.Outcome State Fault Refusal :=
  .next (icuUpdateBoth ((bitmapSources bitmap).foldl
    (fun s n => updSrc pair n (fun c => { c with storm := false }) s) (awake pair s)))

/-- SGI (R466): a software interrupt on this pair, or the other. -/
def execSgi (pair : Bool) (width : BitVec 8) (value : BitVec 32) (s : State) : Host.Outcome State Fault Refusal :=
  .next <| if width != 4 then s else
    icuAssert (if bit value.toNat 8 then !pair else pair) (value.toNat % 16) (awake pair s)

/-- The end of a source's storm window (R474): its count restarts, under the threshold now written (R480). -/
def execStormWindowExpiry (source : BitVec 10) (pair : Bool) (s : State) : Host.Outcome State Fault Refusal :=
  .next (updSrc pair source.toNat (fun c => { c with stormCount := 0, stormLimit := s.icu.stormThreshold }) s)

/-- MOD_NS after the oldest moderated eligible source (R472): the input is asserted while a source is eligible. -/
def execIcuModerationExpiry (pair : Bool) (s : State) : Host.Outcome State Fault Refusal :=
  .next (updIcuPair pair (fun p => { p with line := (bestSource pair s).isSome }) s)

/-- HOST_EVENT (R475): only the HOSTK path reaches it. -/
def execHostEvent (who : Principal) (value : BitVec 32) (s : State) : Host.Outcome State Fault Refusal :=
  .next <| if who != .hostk then s else
    ((List.range 32).filter (bit value.toNat)).foldl (fun s k =>
      let s := { s with icu := { s.icu with hostEvents := s.icu.hostEvents + 1 } }
      icuAssert (decide (16 ≤ k)) (32 + k % 16) s) s

/-- The kinds that FWD may carry (R476). -/
def fwdKind (kind : Nat) : Bool := kind ∈ [3, 4, 5, 7, 8, 9]

/-- GO on what FWD holds (R476): refused for a bad RING or KIND; else handed to the executor. -/
def fwdHand (pair : Bool) (s : State) : State :=
  let f := (s.icu.pairs.get (b2n pair)).fwd
  let (ring, kind) := (f.ring.toNat, f.kind.toNat)
  let ok := decide (ring ≤ 16) && fwdKind kind
  let s := updIcuPair pair (fun p => { p with fwd := { f with status := if ok then 0 else 3, go := ok } }) s
  if ok then queueRecord ring
    {
      record := { cookie := f.cookie, timestamp := s.now, detail := f.detail, context := 0, status := f.code.toNat, queue := 0xFF, kind },
      signal := true, fwd := some (b2n pair), key := none, slices := slicesOf [ring], sample := none } s
  else s

/-- A write of FWD (R476): ignored while GO is set. -/
def fwdWrite (pair : Bool) (f : IcuFwd → IcuFwd) (s : State) : State :=
  if (s.icu.pairs.get (b2n pair)).fwd.go then s else updIcuPair pair (fun p => { p with fwd := f p.fwd }) s

/-- A write of FWD with GO (R476). -/
def execFwdGo (pair : Bool) (detail : BitVec 64) (code : BitVec 16) (kind : BitVec 8) (ring : BitVec 8) (cookie : BitVec 64)
    (s : State) : Host.Outcome State Fault Refusal :=
  .next <|
    let s := awake pair s
    if (s.icu.pairs.get (b2n pair)).fwd.go then s
    else fwdHand pair (fwdWrite pair (fun f => { f with detail, code, kind, ring, cookie }) s)

/-- SRC_CFG (R467, R478): STORM_EN of source 24 stays 0, TARGET exists for shared sources only. -/
def execSrcCfgWrite (pair : Bool) (source : BitVec 10) (width : BitVec 8) (value : BitVec 32) (s : State) : Host.Outcome State Fault Refusal :=
  .next <|
    let n := source.toNat
    if width != 4 || 448 ≤ n then s
    else icuUpdateBoth (updSrc pair n (fun c => { c with
      stormEn := bit value.toNat 9, modEn := bit value.toNat 8,
      target := if n < 64 then c.target else bit value.toNat 5, priority := value.truncate 4 }) (awake pair s))

/-- PMR (R466, R478): 0x00-0x10; a value above is a reserved encoding and is ignored (DEDUCED, log 14). -/
def execPmrWrite (pair : Bool) (width : BitVec 8) (value : BitVec 32) (s : State) : Host.Outcome State Fault Refusal :=
  .next <|
    let v := value.toNat % 32
    if width != 4 || 16 < v then s
    else icuUpdateBoth (updIcuPair pair (fun p => { p with pmr := v }) (awake pair s))

/-- A hardware source asserts or falls (R468); `wfi` are the pairs' WFI states at that moment (R472). -/
def execIcuSourceAssert (source : BitVec 10) (pair : Bool) (level : Bool) (wfi : BitVec 2) (s : State) : Host.Outcome State Fault Refusal :=
  .next <|
    let n := source.toNat
    let s := updIcuPair true (fun p => { p with wfi := bit wfi.toNat 1 }) (updIcuPair false (fun p => { p with wfi := bit wfi.toNat 0 }) s)
    if reservedSource n then s
    else if level then icuAssert pair n s
    else if isLevel n then icuFall n s else s

end Sys2Proof.Machine
end

