-- ==== Sys2Proof/Machine/Lifecycle.lean ====
section
/-!
DEFINITION. Life-cycle transitions and debug authorization (R506-R525, R532).
-/
namespace Sys2Proof.Machine

/-! ### Transitions -/

/-- The digest of a test token (R516). -/
def tokenDigest (k : Nat) (token : Bytes) : BitVec 256 := Config.sha3_256 (ascii "PELGEN-S4/TEST-TOKEN" ++ [BitVec.ofNat 8 k] ++ token)

/-- Does a token match its stored digest, with tokens not locked out (R508, R517)? -/
def tokenOk (s : State) (k : Nat) (token : Bytes) : Bool :=
  decide (s.lcc.tokenFailures < 3) &&
  match s.lcc.tokenDigests with
  | some d => slice d (32 * k) 32 == beBytes 32 (tokenDigest k token).toNat
  | none => false

/-- The first failing condition of R508, in its order; 0 when none fails. -/
def lcRefusal (s : State) (req : Bytes) : Nat :=
  let target := field req 0 1
  let token := slice req 4 16
  if req.length != 24 || slice req 0x14 4 != [0x4C, 0x43, 0x54, 0x52] || field req 1 3 != 0 || (!testUnlocked target && !allZero token) then St.reservedField
  else if !lcAllowed s.lcc.state target then St.identityState
  else if s.lcc.progress != 0 then St.sliceBusy
  else if !noDomain s then St.domainState
  else if testUnlocked target && !tokenOk s (target - 0x20) token then St.badSignature
  else if provisions target && (s.lcc.molnorDigest.isNone || s.lcc.deviceUid.isNone) then St.notReady
  else if target == lcAnalysis && !bit s.lcc.scopes 4 then St.identityState
  else 0

/-- A transition request (R507-R509, R517): a refusal is recorded in LC_RESULT; an accepted one programs its intent half. -/
def lcRequest (req : Bytes) (s : State) : State :=
  let r := lcRefusal s req
  if r = 0 then { s with lcc := { s.lcc with progress := 1, target := field req 0 1 } }
  else { s with lcc := { s.lcc with result := r, tokenFailures := s.lcc.tokenFailures + b2n (r == St.badSignature && decide (s.lcc.tokenFailures < 3)) } }

/-- The effect of the write that execLcTransition makes, and its status. -/
def lcTransitionWrite (value : Bytes) (s : State) : State × Nat :=
  if value.length != 24 then (s, St.typeMismatch) else (lcRequest value s, St.success)

/-- LC_TRANSITION (R507, R531). The write itself succeeds; LC_RESULT tells the rest. The LC register of the TAP carries the same request. -/
def execLcTransition (via : Access) (value : Bytes) (s : State) : Host.Outcome State Fault Refusal :=
  .next (match via with
    | .dict who => dictWrite who true [0, 1, 3] s (lcTransitionWrite value)
    | .tap ir => tapAccess ir .lcRegister (fun s => (lcTransitionWrite value s).1) s)

/-- Program bits of an LC word: a programmed bit stays (R512). -/
def program (w : Nat) (bits : Nat) (s : State) : State :=
  { s with lcc := { s.lcc with words := s.lcc.words.upd w (fun x => x ||| BitVec.ofNat 32 bits) } }

/-- LC_OTP_PROGRAM_DONE (R509, R515): the intent half leads to the wipe, the commit half to the request for a chip reset. -/
def execLcOtpProgramDone (s : State) : Host.Outcome State Fault Refusal :=
  .next <|
    let w := lcWordOf s.lcc.target
    if s.lcc.progress = 1 then
      let s := program w lcIntent s
      runWipe { s with lcc := { s.lcc with progress := 2 } }
    else if s.lcc.progress = 3 then
      let s := program w lcPattern s
      requestChipReset 1 { s with lcc := { s.lcc with progress := 4, result := 0 } }
    else s

/-! ### Debug scopes -/

/-- The scopes that a state permits by request alone, and by Molnor (R503). -/
def aloneScopes (st : Nat) : Nat := if st = lcDev || st = lcAnalysis then 0x07 else 0
def molnorScopes (st : Nat) : Nat := if st = lcDev then 0x18 else if st = lcProd then 0x1F else if st = lcProdEnd then 0x08 else 0

/-- Is a bitmap within another? -/
def subset (a b : Nat) : Bool := Nat.land a b == a

/-- The challenge of R523. -/
def challengeBytes (s : State) (scopes : Nat) (nonce : Bytes) : Bytes :=
  let id := s.vault.state != 1 && !s.atu.identityFault
  magicFormat "DBC1" ++ leBytes 1 s.lcc.state ++ leBytes 1 scopes ++ leBytes 1 (debugScopes s) ++ leBytes 1 s.vault.state ++ leBytes 2 0 ++
    leBytes 4 (s.lcc.challengeSeq + 1) ++ leBytes 16 (s.lcc.deviceUid.getD 0).toNat ++
    (if id then digestBytes s.atu.deviceIdDigest else List.replicate 48 0) ++ nonce

/-- A request for scopes (R523): its refusal, the opening by request alone, or a challenge for the whole bitmap. An empty
bitmap names no scope (log 58). -/
def debugRequest (scopes : Nat) (s : State) : State :=
  let st := s.lcc.state
  let res (r : Nat) (s : State) : State := { s with lcc := { s.lcc with debugResult := r } }
  if 0x20 ≤ scopes then res St.reservedField s
  else if scopes = 0 then res St.invalidOperand s
  else if !subset scopes (Nat.lor (aloneScopes st) (molnorScopes st)) then res St.identityState s
  else if !noDomain s then res St.domainState s
  else if subset scopes (aloneScopes st) then res 0 (openScopes scopes s)
  else
    let (nonce, s) := drbgBits 256 s
    let c := challengeBytes s scopes (leBytes 32 nonce.toNat)
    res 0 { s with lcc := { s.lcc with challenge := c, outstanding := true, challengeSeq := s.lcc.challengeSeq + 1 } }

/-- The effect of the write that execDebugRequest makes, and its status. -/
def debugRequestWrite (scopes : BitVec 8) (s : State) : State × Nat :=
  (debugRequest scopes.toNat s, St.success)

/-- DEBUG_REQUEST (R523, R531). -/
def execDebugRequest (who : Principal) (scopes : BitVec 8) (s : State) : Host.Outcome State Fault Refusal :=
  .next (dictWrite who true [0, 1] s (debugRequestWrite scopes))

/-- Checks 3 to 6 of R525. -/
def responseRefusal (s : State) (v : Bytes) : Nat :=
  let granted := field v 6 1
  let st := s.lcc.state
  let key := slice v 0x38 2592
  if s.lcc.molnorDigest != some (Config.sha384 key) then St.badSignature
  else if !Config.mldsaVerify key (ascii "PELGEN-S4/DEBUG-AUTH") (slice v 0 0xA58) (slice v 0xA58 4627) then St.badSignature
  else if granted = 0 || !subset granted (field s.lcc.challenge 7 1) || !subset granted (Nat.lor (aloneScopes st) (molnorScopes st)) then St.invalidOperand
  else if !noDomain s then St.domainState
  else 0

/-- A Molnor response (R524, R525): the challenge is consumed at check 2. -/
def debugResponse (v : Bytes) (s : State) : State :=
  let res (r : Nat) (s : State) : State := { s with lcc := { s.lcc with debugResult := r } }
  if v.length != 7275 || slice v 0 6 != magicFormat "DBR1" || field v 7 1 != 0 then res St.reservedField s
  else if !s.lcc.outstanding || slice v 8 48 != digestBytes (Config.sha384 s.lcc.challenge) then res St.notReady s
  else
    let s := { s with lcc := { s.lcc with outstanding := false } }
    let r := responseRefusal s v
    if r = 0 then res 0 (openScopes (field v 6 1) s) else res r s

/-- The effect of the write that execDebugResponse makes, and its status. -/
def debugResponseWrite (value : Bytes) (s : State) : State × Nat :=
  (debugResponse value s, St.success)

/-- DEBUG_RESPONSE (R525, R531). -/
def execDebugResponse (who : Principal) (value : Bytes) (s : State) : Host.Outcome State Fault Refusal :=
  .next (dictWrite who true [0, 1] s (debugResponseWrite value))

/-- The effect of VAULT_PROVISION (R532): the provisioning step runs, or waits for entropy (R510). -/
def vaultProvision (s : State) : State × Nat :=
  if !bit s.lcc.scopes 3 || s.vault.state != 1 then (s, St.entryState)
  else if canProvision s then (provisionRoot s, St.success)
  else ({ s with lcc := { s.lcc with provisionDue := true } }, St.success)

/-- The effect of the write that execVaultProvision makes, and its status. -/
def vaultProvisionWrite (value : Bool) (s : State) : State × Nat :=
  if value then vaultProvision s else (s, St.success)

/-- VAULT_PROVISION (R532). -/
def execVaultProvision (who : Principal) (value : Bool) (s : State) : Host.Outcome State Fault Refusal :=
  .next (dictWrite who true [0, 1] s (vaultProvisionWrite value))

/-- The provisioning steps that wait for entropy try again, each local ms (R510). -/
def retryProvision (s : State) : State :=
  let s := runWipe s
  if s.lcc.provisionDue && s.vault.state == 1 && canProvision s then
    let s := provisionRoot s
    { s with lcc := { s.lcc with provisionDue := false } }
  else s

end Sys2Proof.Machine
end

