-- ==== Sys2Proof/Machine/Debug.lean ====
section
/-!
DEFINITION. Control-pair debug (R526, R527, R532): the subset of the RISC-V Debug Specification 0.13.2 that R526 names. The
manual gives no register layout of it; the layout is that specification's (PRESUMED, log 59).
-/
namespace Sys2Proof.Machine

/-! ### The ICU window (R466), as system bus access reaches it -/

/-- Thirty-two bits of a per-source bitmap, from source `n` on, as a pair reads it. -/
def icuBitmap (pair : Bool) (n : Nat) (f : IcuSrc → Bool) (s : State) : Nat :=
  flagWord ((List.range 32).map (fun i => (i, decide (n + i < 448) && f (s.icu.src.get (srcKey pair (n + i))))))

/-- SRC_CFG of a source (R467). -/
def srcCfgWord (pair : Bool) (n : Nat) (s : State) : Nat :=
  let c := s.icu.src.get (srcKey pair n)
  flagWord [(9, c.stormEn && n != 24), (8, c.modEn), (5, c.target), (4, isLevel n)] + c.priority.toNat

/-- The state after an outcome. -/
def afterOutcome (o : Host.Outcome State Fault Refusal) (s : State) : State := match o with | .next t => t | _ => s

/-- A read of 32 bits of the ICU window; a read of CLAIM claims. -/
def icuRead (pair : Bool) (off : Nat) (s : State) : Nat × State :=
  let p := s.icu.pairs.get (b2n pair)
  let word (o : Nat) : Nat := (off - o) / 4 * 32
  if off = 0x00 then (0x00100200, s)
  else if off = 0x08 then (claimValue (bestSource pair s), afterOutcome (execClaim pair 4 s) s)
  else if off = 0x10 then (rpr p, s)
  else if off = 0x14 then (p.pmr, s)
  else if off = 0x18 then (p.stack.length + (match p.stack with | t :: _ => t.2 | [] => 0x3FF) * 2 ^ 16, s)
  else if off = 0x1C then (p.modCount + b2n p.modOff * 2 ^ 8, s)
  else if off = 0x20 then (p.modNs, s)
  else if off = 0x28 then (claimValue (bestSource pair s), s)
  else if off = 0x2C then (b2n (pairIdle p), s)
  else if off = 0x40 then (p.fwd.detail.toNat % 2 ^ 32, s)
  else if off = 0x44 then (p.fwd.detail.toNat / 2 ^ 32, s)
  else if off = 0x48 then (p.fwd.code.toNat + p.fwd.kind.toNat * 2 ^ 16 + p.fwd.ring.toNat * 2 ^ 24, s)
  else if off = 0x50 then (p.fwd.cookie.toNat % 2 ^ 32, s)
  else if off = 0x54 then (p.fwd.cookie.toNat / 2 ^ 32, s)
  else if off = 0x58 then (p.fwd.status, s)
  else if off = 0x5C then (b2n p.fwd.go, s)
  else if 0x1000 ≤ off && off < 0x1700 then (srcCfgWord pair ((off - 0x1000) / 4) s, s)
  else if 0x2100 ≤ off && off < 0x2140 then
    (flagWord ((List.range 32).map (fun i => (i, decide (word 0x2100 + i < 448) && srcPending (word 0x2100 + i) (s.icu.src.get (srcKey pair (word 0x2100 + i)))))), s)
  else if 0x2140 ≤ off && off < 0x2180 then (icuBitmap pair (word 0x2140) (·.active) s, s)
  else if 0x2180 ≤ off && off < 0x21C0 then (icuBitmap pair (word 0x2180) (·.masked) s, s)
  else if 0x21C0 ≤ off && off < 0x2200 then (icuBitmap pair (word 0x21C0) (·.storm) s, s)
  else if off = 0x3000 then (s.icu.stormWindowUs, s)
  else if off = 0x3004 then (s.icu.stormThreshold, s)
  else (0, s)

/-- A bitmap word placed in its 512-bit register. -/
def bitmapWord (off base v : Nat) : BitVec 512 := BitVec.ofNat 512 (v * 2 ^ ((off - base) / 4 * 32))

/-- A write of 32 bits of the ICU window; values outside a field's range are ignored (log 14). -/
def icuWrite (pair : Bool) (off v : Nat) (s : State) : State :=
  let word := BitVec.ofNat 32 v
  if off = 0x0C then afterOutcome (execEoi pair 4 word s) s
  else if off = 0x14 then afterOutcome (execPmrWrite pair 4 word s) s
  else if off = 0x1C then
    (if 1 ≤ v % 128 && v % 128 ≤ 64 then icuUpdateBoth (updIcuPair pair (fun p => { p with modCount := v % 128, modOff := bit v 8 }) s) else s)
  else if off = 0x20 then (if 50 ≤ v && v ≤ 1000000 then icuUpdateBoth (updIcuPair pair (fun p => { p with modNs := v }) s) else s)
  else if off = 0x24 then afterOutcome (execSgi pair 4 word s) s
  else if off = 0x40 then fwdWrite pair (fun f => { f with detail := BitVec.ofNat 64 (f.detail.toNat / 2 ^ 32 * 2 ^ 32 + v) }) s
  else if off = 0x44 then fwdWrite pair (fun f => { f with detail := BitVec.ofNat 64 (f.detail.toNat % 2 ^ 32 + v * 2 ^ 32) }) s
  else if off = 0x48 then fwdWrite pair (fun f => { f with code := BitVec.ofNat 16 v, kind := BitVec.ofNat 8 (v / 2 ^ 16), ring := BitVec.ofNat 8 (v / 2 ^ 24) }) s
  else if off = 0x50 then fwdWrite pair (fun f => { f with cookie := BitVec.ofNat 64 (f.cookie.toNat / 2 ^ 32 * 2 ^ 32 + v) }) s
  else if off = 0x54 then fwdWrite pair (fun f => { f with cookie := BitVec.ofNat 64 (f.cookie.toNat % 2 ^ 32 + v * 2 ^ 32) }) s
  else if off = 0x5C then (if bit v 0 && !(s.icu.pairs.get (b2n pair)).fwd.go then fwdHand pair s else s)
  else if 0x1000 ≤ off && off < 0x1700 then afterOutcome (execSrcCfgWrite pair (BitVec.ofNat 10 ((off - 0x1000) / 4)) 4 word s) s
  else if 0x2000 ≤ off && off < 0x2040 then afterOutcome (execPendSet pair (bitmapWord off 0x2000 v) s) s
  else if 0x2040 ≤ off && off < 0x2080 then afterOutcome (execPendClr pair (bitmapWord off 0x2040 v) s) s
  else if 0x2080 ≤ off && off < 0x20C0 then afterOutcome (execMaskSet pair (bitmapWord off 0x2080 v) s) s
  else if 0x20C0 ≤ off && off < 0x2100 then afterOutcome (execMaskClr pair (bitmapWord off 0x20C0 v) s) s
  else if 0x21C0 ≤ off && off < 0x2200 then afterOutcome (execStormClear pair (bitmapWord off 0x21C0 v) s) s
  else if off = 0x3000 then (if 10 ≤ v && v ≤ 100000 then { s with icu := { s.icu with stormWindowUs := v } } else s)
  else if off = 0x3004 then (if 16 ≤ v && v ≤ 65535 then { s with icu := { s.icu with stormThreshold := v } } else s)
  else s

/-! ### Harts and their registers -/

/-- Change a hart. -/
def updHart (n : Nat) (f : Hart → Hart) (s : State) : State := { s with lcc := { s.lcc with harts := s.lcc.harts.upd n f } }

/-- The hart selected; the module has two. -/
def selHart (s : State) : Nat := s.lcc.hartsel

/-- Abstract register numbers: CSRs, GPRs, FPRs. -/
def regExists (r : Nat) : Bool := decide (r < 0x1000) || (decide (0x1000 ≤ r) && decide (r < 0x1040))

/-- A register of the selected hart: the debug CSRs, or what the pair's firmware left, a free value until the debugger writes it. -/
def readReg (r : Nat) (s : State) : BitVec 64 × State :=
  let n := selHart s
  let h := s.lcc.harts.get n
  if r = 0x7B0 then (h.dcsr, s)
  else if r = 0x7A0 then (BitVec.ofNat 64 h.tselect, s)
  else if r = 0x7A1 then (h.triggers.get (2 * h.tselect), s)
  else if r = 0x7A2 then (h.triggers.get (2 * h.tselect + 1), s)
  else if r = 0x1000 then (0, s)
  else match h.regs.get r with
    | some v => (v, s)
    | none =>
      let (v, s) := drawBits 64 s
      (v, updHart n (fun h => { h with regs := h.regs.set r (some v) }) s)

/-- A register write reaches both cores of the pair (R526). -/
def writeReg (r : Nat) (v : BitVec 64) (s : State) : State :=
  updHart (selHart s) (fun h =>
    if r = 0x7B0 then { h with dcsr := v }
    else if r = 0x7A0 then { h with tselect := if v.toNat < 4 then v.toNat else h.tselect }
    else if r = 0x7A1 then { h with triggers := h.triggers.set (2 * h.tselect) v }
    else if r = 0x7A2 then { h with triggers := h.triggers.set (2 * h.tselect + 1) v }
    else if r = 0x1000 then h
    else { h with regs := h.regs.set r (some v) }) s

/-- An abstract command (R526): Access Register of 32 or 64 bits on a halted hart, without a program buffer. CMDERR keeps the
first error: 2 not supported, 3 no such register, 4 wrong state. -/
def runCommand (c : Nat) (s : State) : State :=
  let err (e : Nat) : State := { s with lcc := { s.lcc with cmdErr := e } }
  let size := bits c 22 20
  let r := bits c 15 0
  if s.lcc.cmdErr != 0 then s
  else if bits c 31 24 != 0 || bit c 18 || bit c 19 || !(size == 2 || size == 3) then err 2
  else if !(s.lcc.harts.get (selHart s)).halted then err 4
  else if !bit c 17 then s
  else if !regExists r then err 3
  else
    let data := (s.lcc.dmData.get 0).toNat + (if size = 3 then (s.lcc.dmData.get 1).toNat * 2 ^ 32 else 0)
    if bit c 16 then
      let (old, s) := if size = 3 then ((0 : BitVec 64), s) else readReg r s
      writeReg r (BitVec.ofNat 64 (old.toNat / 2 ^ 32 * 2 ^ 32 * b2n (size == 2) + data)) s
    else
      let (v, s) := readReg r s
      let d := s.lcc.dmData.set 0 (BitVec.ofNat 32 v.toNat)
      { s with lcc := { s.lcc with dmData := if size = 3 then d.set 1 (BitVec.ofNat 32 (v.toNat / 2 ^ 32)) else d } }

/-! ### System bus access -/

/-- The pair's own memories, whose addresses the manual does not give. -/
def inCpMem (a : Nat) : Bool := Config.cpMemory a

/-- One octet of the selected pair's memory: what the firmware left, a free value until the debugger writes it. -/
def cpByte (a : Nat) (s : State) : Nat × State :=
  let k := a + selHart s * 2 ^ 64
  match s.lcc.cpMem.get k with
  | some b => (b.toNat, s)
  | none =>
    let (b, s) := drawBits 8 s
    (b.toNat, { s with lcc := { s.lcc with cpMem := s.lcc.cpMem.set k (some b) } })

/-- `n` octets from an address on, little-endian. -/
def cpBytes : Nat → Nat → State → Nat × State
  | 0, _, s => (0, s)
  | n + 1, a, s =>
    let (b, s) := cpByte a s
    let (r, s) := cpBytes n (a + 1) s
    (b + 256 * r, s)

/-- A bus access of 4 or 8 octets: SBERROR 2 for an address outside the pair's memories and its ICU window (R526), 3 for a
misaligned one, 4 for another size. -/
def sbAccess (write : Bool) (s : State) : State :=
  let a := s.lcc.sbAddress.toNat
  let size := bits s.lcc.sbcs.toNat 19 17
  let n := 2 ^ size
  let err (e : Nat) : State := { s with lcc := { s.lcc with sbError := e } }
  let icu := decide (0x10000000 ≤ a) && decide (a < 0x10004000)
  let pair := selHart s == 1
  if s.lcc.sbError != 0 then s
  else if !(size == 2 || size == 3) then err 4
  else if a % n != 0 then err 3
  else if !icu && !inCpMem a then err 2
  else
    let v := s.lcc.sbData.toNat % 2 ^ (8 * n)
    let s :=
      if write then
        (if icu then (if size = 2 then icuWrite pair (a % 0x4000) v s else s)
         else { s with lcc := { s.lcc with
           cpMem := (List.range n).foldl (fun t i => t.set (a + i + selHart s * 2 ^ 64) (some (BitVec.ofNat 8 (v / 256 ^ i)))) s.lcc.cpMem } })
      else
        let (d, s) := if icu then (if size = 2 then icuRead pair (a % 0x4000) s else (0, s)) else cpBytes n a s
        { s with lcc := { s.lcc with sbData := BitVec.ofNat 64 d } }
    if bit s.lcc.sbcs.toNat 16 then { s with lcc := { s.lcc with sbAddress := s.lcc.sbAddress + BitVec.ofNat 64 n } } else s

/-! ### The debug module's registers -/

/-- dmstatus of the selected hart; a hart number above 1 does not exist. -/
def dmStatus (s : State) : Nat :=
  let h := s.lcc.harts.get (selHart s)
  let gone := decide (1 < selHart s)
  let two (i : Nat) (b : Bool) : List (Nat × Bool) := [(i, b), (i + 1, b)]
  flagWord (two 16 (!gone && h.resumeAck) ++ two 14 gone ++ two 10 (!gone && !h.halted) ++ two 8 (!gone && h.halted) ++ [(7, true)]) + 2

/-- A register read through the DMI; reading sbdata0 starts a further bus read when sbreadondata is set. -/
def dmRead (a : Nat) (s : State) : Nat × State :=
  match a with
  | 0x04 => ((s.lcc.dmData.get 0).toNat, s)
  | 0x05 => ((s.lcc.dmData.get 1).toNat, s)
  | 0x10 => (b2n s.lcc.dmActive + selHart s * 2 ^ 16, s)
  | 0x11 => (dmStatus s, s)
  | 0x16 => (2 + s.lcc.cmdErr * 2 ^ 8, s)
  | 0x38 => (s.lcc.sbcs.toNat + s.lcc.sbError * 2 ^ 12 + 2 ^ 29 + 64 * 2 ^ 5 + 2 ^ 2 + 2 ^ 3, s)
  | 0x39 => (s.lcc.sbAddress.toNat % 2 ^ 32, s)
  | 0x3A => (s.lcc.sbAddress.toNat / 2 ^ 32, s)
  | 0x3C =>
    let v := s.lcc.sbData.toNat % 2 ^ 32
    (v, if bit s.lcc.sbcs.toNat 15 then sbAccess false s else s)
  | 0x3D => (s.lcc.sbData.toNat / 2 ^ 32, s)
  | 0x40 => (flagWord [(0, (s.lcc.harts.get 0).halted), (1, (s.lcc.harts.get 1).halted)], s)
  | _ => (0, s)

/-- A write of dmcontrol (R526): haltreq, resumereq, hartsel and dmactive; ndmreset and hartreset are ignored. A halt request
raises the pair's private source 26 (R465). -/
def dmControl (v : Nat) (s : State) : State :=
  if !bit v 0 then
    { s with lcc := { s.lcc with
                                 dmActive := false, hartsel := 0, cmdErr := 0, sbError := 0, sbcs := 0, sbAddress := 0, sbData := 0, dmData := Tbl.const 0,
                                 harts := s.lcc.harts.mapEnts (fun _ h => { h with haltReq := false, resumeAck := false }) } }
  else
    let n := bits v 25 16 + bits v 15 6 * 2 ^ 10
    let s := { s with lcc := { s.lcc with dmActive := true, hartsel := n } }
    let h := s.lcc.harts.get n
    if 1 < n then s
    else if bit v 31 then
      let s := updHart n (fun h => { h with haltReq := true }) s
      if h.haltReq then s else icuAssert (n == 1) 26 s
    else if bit v 30 && h.halted then
      let s := { s with lcc := { s.lcc with cpMem := Tbl.const none } }
      updHart n (fun h => { h with haltReq := false, halted := false, resumeAck := true, regs := Tbl.const none }) s
    else updHart n (fun h => { h with haltReq := false }) s

/-- A register write through the DMI. While the module is inactive only dmcontrol answers. -/
def dmWrite (a v : Nat) (s : State) : State :=
  if a = 0x10 then dmControl v s
  else if !s.lcc.dmActive then s
  else match a with
    | 0x04 => { s with lcc := { s.lcc with dmData := s.lcc.dmData.set 0 (BitVec.ofNat 32 v) } }
    | 0x05 => { s with lcc := { s.lcc with dmData := s.lcc.dmData.set 1 (BitVec.ofNat 32 v) } }
    | 0x16 => { s with lcc := { s.lcc with cmdErr := s.lcc.cmdErr - Nat.land s.lcc.cmdErr (bits v 10 8) } }
    | 0x17 => runCommand v s
    | 0x38 => { s with lcc := { s.lcc with
        sbcs := BitVec.ofNat 32 (bits v 20 15 * 2 ^ 15), sbError := s.lcc.sbError - Nat.land s.lcc.sbError (bits v 14 12) } }
    | 0x39 =>
      let s := { s with lcc := { s.lcc with sbAddress := BitVec.ofNat 64 (s.lcc.sbAddress.toNat / 2 ^ 32 * 2 ^ 32 + v % 2 ^ 32) } }
      if bit s.lcc.sbcs.toNat 20 then sbAccess false s else s
    | 0x3A => { s with lcc := { s.lcc with sbAddress := BitVec.ofNat 64 (s.lcc.sbAddress.toNat % 2 ^ 32 + v % 2 ^ 32 * 2 ^ 32) } }
    | 0x3C => sbAccess true { s with lcc := { s.lcc with sbData := BitVec.ofNat 64 (s.lcc.sbData.toNat / 2 ^ 32 * 2 ^ 32 + v % 2 ^ 32) } }
    | 0x3D => { s with lcc := { s.lcc with sbData := BitVec.ofNat 64 (s.lcc.sbData.toNat % 2 ^ 32 + v % 2 ^ 32 * 2 ^ 32) } }
    | _ => s

/-! ### DMI_ACCESS (R526, R527, R532) -/

/-- What a write of DMI_ACCESS makes a read of it return: ADDR, STATUS and DATA, per record. -/
def dmiResult (rec addr status : Nat) (data : BitVec 32) (s : State) : State :=
  { s with lcc := { s.lcc with
    dmiAddr := s.lcc.dmiAddr.set rec addr, dmiStatus := s.lcc.dmiStatus.set rec status, dmiData := s.lcc.dmiData.set rec data } }

/-- A read or a write of the debug module, whose result a record holds. -/
def dmiRun (rec addr op : Nat) (data : BitVec 32) (s : State) : State × Nat :=
  if op = 1 then
    let (v, s) := dmRead addr s
    ((dmiResult rec addr 0 (BitVec.ofNat 32 v) s).emit (.dmi v), St.success)
  else if op = 2 then (dmiResult rec addr 0 data (dmWrite addr data.toNat s), St.success)
  else (s, St.reservedField)

/-- DMI_ACCESS (R527): only with the CPU scope open. -/
def dmiAccess (rec addr op : Nat) (data : BitVec 32) (s : State) : State × Nat :=
  if !bit s.lcc.scopes 1 then (s, St.entryState) else dmiRun rec addr op data s

/-- An access of the debug module, by DMI_ACCESS or by the TAP's debug transport (R526, R529). -/
def dmiVia (via : Access) (rec addr op : Nat) (data : BitVec 32) (s : State) : State :=
  match via with
  | .dict who => dictWrite who true [3] s (dmiAccess rec addr op data)
  | .tap ir => tapAccess ir .debug (fun s => (dmiRun rec addr op data s).1) s

/-- DMI_READ (R526, R532). -/
def execDmiRead (via : Access) (pair : Bool) (addr : BitVec 8) (s : State) : Host.Outcome State Fault Refusal :=
  .next (dmiVia via (b2n pair) addr.toNat 1 0 s)

/-- DMI_WRITE (R526, R532). -/
def execDmiWrite (via : Access) (pair : Bool) (addr : BitVec 8) (data : BitVec 32) (s : State) : Host.Outcome State Fault Refusal :=
  .next (dmiVia via (b2n pair) addr.toNat 2 data s)

/-- HART_HALTED (R527): a halt request, a trigger or a single step has stopped the hart, and its outstanding accesses have
completed. Its registers are then what its firmware left. -/
def execHartHalted (pair : Bool) (s : State) : Host.Outcome State Fault Refusal :=
  .next <|
    let n := b2n pair
    if !bit s.lcc.scopes 1 || (s.lcc.harts.get n).halted || (s.rcv.hist.get n).resetting then s
    else updHart n (fun h => { h with halted := true, halts := h.halts + 1, haltReq := false, regs := Tbl.const none }) s

end Sys2Proof.Machine
end

