-- ==== Sys2Proof/Machine/DictTable.lean ====
section
/-!
DEFINITION. The entries of the object dictionary (R439-R446): index, subindex, type, length and access, one row for each row of the
tables that the owning chapters give.
-/
namespace Sys2Proof.Machine

/-- A row of a dictionary table: the indexes and subindexes that it covers; for a row whose entries take turns along the subindexes
(R177, R216, R238), every how many subindexes it comes and at which; the type code and length of R440 (0 for a BLOB); the access
codes as six decimal digits in the order TRAY, HOSTK, COORD, DBG, FW, SLICE: 0 none, 1 ro, 2 rw, 3 wo, 4 const (R442). -/
structure DictRow where
  lo : Nat
  hi : Nat
  sub0 : Nat
  sub1 : Nat
  every : Nat
  at_ : Nat
  type : Nat
  len : Nat
  acc : Nat
  deriving DecidableEq, Repr

/-- R82. -/
def dictR82 : List DictRow := [
  ⟨0x3400, 0x3400, 0, 0, 0, 0, 3, 2, 444444⟩,
  ⟨0x3400, 0x3400, 1, 1, 0, 0, 3, 2, 444444⟩,
  ⟨0x3400, 0x3400, 2, 2, 0, 0, 3, 2, 10110⟩,
  ⟨0x3401, 0x3401, 0, 0, 0, 0, 2, 1, 110111⟩,
  ⟨0x3402, 0x3402, 1, 1, 0, 0, 3, 2, 110110⟩,
  ⟨0x3402, 0x3402, 2, 2, 0, 0, 5, 8, 110110⟩,
  ⟨0x3402, 0x3402, 3, 3, 0, 0, 4, 4, 110110⟩,
  ⟨0x3402, 0x3402, 4, 4, 0, 0, 1, 1, 330000⟩,
  ⟨0x3403, 0x3403, 0, 0, 0, 0, 3, 2, 110110⟩,
  ⟨0x3403, 0x3403, 1, 1, 0, 0, 2, 1, 110110⟩,
  ⟨0x3410, 0x3410, 1, 1, 0, 0, 3, 2, 40440⟩,
  ⟨0x3410, 0x3410, 2, 2, 0, 0, 3, 2, 10110⟩,
  ⟨0x3410, 0x3410, 3, 3, 0, 0, 5, 8, 10110⟩,
  ⟨0x3410, 0x3410, 4, 4, 0, 0, 5, 8, 10110⟩,
  ⟨0x3411, 0x3411, 1, 1, 0, 0, 4, 4, 111111⟩,
  ⟨0x3411, 0x3411, 2, 2, 0, 0, 4, 4, 111111⟩,
  ⟨0x3412, 0x3412, 0, 0, 0, 0, 2, 1, 40440⟩,
  ⟨0x3420, 0x3420, 1, 1, 0, 0, 2, 1, 110110⟩,
  ⟨0x3420, 0x3420, 2, 2, 0, 0, 4, 4, 10110⟩,
  ⟨0x3420, 0x3420, 3, 3, 0, 0, 4, 4, 10110⟩,
  ⟨0x3420, 0x3420, 4, 4, 0, 0, 3, 2, 40440⟩,
  ⟨0x3420, 0x3420, 5, 5, 0, 0, 3, 2, 40440⟩,
  ⟨0x3420, 0x3420, 6, 6, 0, 0, 3, 2, 40440⟩,
  ⟨0x3420, 0x3420, 7, 7, 0, 0, 5, 8, 10110⟩,
  ⟨0x3421, 0x3421, 0, 0, 0, 0, 4, 4, 20110⟩,
  ⟨0x3600, 0x360F, 0, 255, 0, 0, 5, 8, 10111⟩]

/-- R138. -/
def dictR138 : List DictRow := [
  ⟨0x3800, 0x3800, 0, 0, 0, 0, 2, 1, 444444⟩,
  ⟨0x3801, 0x3801, 0, 11, 0, 0, 7, 48, 111111⟩,
  ⟨0x3802, 0x3802, 0, 15, 0, 0, 7, 48, 111111⟩,
  ⟨0x3803, 0x3803, 1, 1, 0, 0, 7, 48, 111111⟩,
  ⟨0x3803, 0x3803, 2, 2, 0, 0, 7, 48, 111111⟩,
  ⟨0x3803, 0x3803, 3, 3, 0, 0, 4, 4, 111111⟩,
  ⟨0x3803, 0x3803, 4, 4, 0, 0, 1, 1, 111111⟩,
  ⟨0x3803, 0x3803, 5, 5, 0, 0, 1, 1, 111111⟩,
  ⟨0x3804, 0x3804, 1, 4, 0, 0, 9, 0, 111111⟩,
  ⟨0x3810, 0x3810, 1, 1, 0, 0, 2, 1, 440440⟩,
  ⟨0x3810, 0x3810, 2, 2, 0, 0, 2, 1, 110110⟩,
  ⟨0x3810, 0x3810, 3, 3, 0, 0, 2, 1, 20110⟩,
  ⟨0x3820, 0x3820, 1, 1, 0, 0, 4, 4, 111111⟩,
  ⟨0x3820, 0x3820, 2, 2, 0, 0, 4, 4, 111111⟩,
  ⟨0x3820, 0x3820, 3, 3, 0, 0, 4, 4, 111111⟩,
  ⟨0x3820, 0x3820, 4, 4, 0, 0, 2, 1, 10110⟩,
  ⟨0x3830, 0x3830, 1, 1, 0, 0, 3, 2, 21120⟩,
  ⟨0x3830, 0x3830, 2, 2, 0, 0, 3, 2, 21120⟩,
  ⟨0x3830, 0x3830, 3, 3, 0, 0, 3, 2, 21120⟩,
  ⟨0x3830, 0x3830, 4, 4, 0, 0, 3, 2, 21120⟩,
  ⟨0x3830, 0x3830, 5, 5, 0, 0, 4, 4, 21120⟩,
  ⟨0x3830, 0x3830, 6, 6, 0, 0, 4, 4, 21120⟩,
  ⟨0x3830, 0x3830, 7, 7, 0, 0, 3, 2, 444444⟩,
  ⟨0x3831, 0x3831, 1, 1, 0, 0, 3, 2, 40440⟩,
  ⟨0x3831, 0x3831, 2, 2, 0, 0, 5, 8, 10110⟩,
  ⟨0x3831, 0x3831, 3, 3, 0, 0, 1, 1, 30030⟩,
  ⟨0x3840, 0x384F, 1, 1, 0, 0, 2, 1, 111111⟩,
  ⟨0x3840, 0x384F, 2, 2, 0, 0, 5, 8, 111111⟩,
  ⟨0x3840, 0x384F, 3, 3, 0, 0, 4, 4, 111111⟩,
  ⟨0x3840, 0x384F, 4, 4, 0, 0, 3, 2, 111111⟩,
  ⟨0x3840, 0x384F, 5, 5, 0, 0, 3, 2, 111111⟩,
  ⟨0x3840, 0x384F, 6, 6, 0, 0, 3, 2, 111111⟩,
  ⟨0x3840, 0x384F, 7, 7, 0, 0, 3, 2, 111111⟩,
  ⟨0x3840, 0x384F, 8, 8, 0, 0, 4, 4, 111111⟩,
  ⟨0x3840, 0x384F, 9, 9, 0, 0, 3, 2, 111111⟩,
  ⟨0x3840, 0x384F, 10, 10, 0, 0, 2, 1, 111111⟩,
  ⟨0x3840, 0x384F, 11, 11, 0, 0, 3, 2, 111111⟩,
  ⟨0x3840, 0x384F, 12, 12, 0, 0, 4, 4, 111111⟩,
  ⟨0x3840, 0x384F, 13, 13, 0, 0, 9, 0, 111111⟩,
  ⟨0x3840, 0x384F, 14, 14, 0, 0, 9, 0, 111111⟩]

/-- R176. -/
def dictR176 : List DictRow := [
  ⟨0x4000, 0x4000, 0, 0, 0, 0, 2, 1, 444444⟩,
  ⟨0x4000, 0x4000, 1, 1, 0, 0, 3, 2, 111111⟩,
  ⟨0x4000, 0x4000, 2, 2, 0, 0, 2, 1, 444444⟩,
  ⟨0x4000, 0x4000, 3, 3, 0, 0, 3, 2, 444444⟩,
  ⟨0x4000, 0x4000, 4, 4, 0, 0, 3, 2, 10110⟩,
  ⟨0x4000, 0x4000, 5, 5, 0, 0, 3, 2, 10110⟩,
  ⟨0x4001, 0x4001, 1, 1, 0, 0, 2, 1, 110120⟩,
  ⟨0x4001, 0x4001, 2, 2, 0, 0, 2, 1, 110120⟩,
  ⟨0x4001, 0x4001, 3, 3, 0, 0, 7, 64, 110120⟩,
  ⟨0x4002, 0x4002, 0, 0, 0, 0, 9, 0, 110120⟩,
  ⟨0x4003, 0x4003, 1, 1, 0, 0, 2, 1, 20110⟩,
  ⟨0x4003, 0x4003, 2, 2, 0, 0, 3, 2, 444444⟩,
  ⟨0x4010, 0x401B, 1, 1, 0, 0, 4, 4, 111111⟩,
  ⟨0x4010, 0x401B, 2, 2, 0, 0, 2, 1, 111111⟩,
  ⟨0x4010, 0x401B, 3, 3, 0, 0, 5, 8, 10110⟩,
  ⟨0x4010, 0x401B, 4, 4, 0, 0, 5, 8, 10110⟩,
  ⟨0x4010, 0x401B, 5, 5, 0, 0, 5, 8, 10110⟩,
  ⟨0x4010, 0x401B, 6, 6, 0, 0, 5, 8, 10110⟩,
  ⟨0x4010, 0x401B, 7, 7, 0, 0, 5, 8, 10110⟩,
  ⟨0x4010, 0x401B, 8, 8, 0, 0, 5, 8, 10110⟩,
  ⟨0x4010, 0x401B, 9, 9, 0, 0, 5, 8, 10110⟩,
  ⟨0x4010, 0x401B, 10, 10, 0, 0, 5, 8, 10110⟩,
  ⟨0x4010, 0x401B, 11, 11, 0, 0, 5, 8, 10110⟩,
  ⟨0x4010, 0x401B, 12, 12, 0, 0, 5, 8, 10110⟩,
  ⟨0x4100, 0x41FF, 0, 31, 2, 0, 7, 64, 10111⟩,
  ⟨0x4100, 0x41FF, 0, 31, 2, 1, 5, 8, 10111⟩]

/-- R215. -/
def dictR215 : List DictRow := [
  ⟨0x4400, 0x4400, 0, 0, 0, 0, 3, 2, 444444⟩,
  ⟨0x4400, 0x4400, 1, 1, 0, 0, 3, 2, 10110⟩,
  ⟨0x4400, 0x4400, 2, 2, 0, 0, 3, 2, 10110⟩,
  ⟨0x4400, 0x4400, 3, 3, 0, 0, 2, 1, 444444⟩,
  ⟨0x4400, 0x4400, 4, 4, 0, 0, 2, 1, 10110⟩,
  ⟨0x4400, 0x4400, 5, 5, 0, 0, 2, 1, 444444⟩,
  ⟨0x4400, 0x4400, 6, 6, 0, 0, 2, 1, 444444⟩,
  ⟨0x4400, 0x4400, 7, 7, 0, 0, 2, 1, 444444⟩,
  ⟨0x4410, 0x441B, 1, 1, 0, 0, 5, 8, 10110⟩,
  ⟨0x4410, 0x441B, 2, 2, 0, 0, 5, 8, 10110⟩,
  ⟨0x4410, 0x441B, 3, 3, 0, 0, 5, 8, 10110⟩,
  ⟨0x4410, 0x441B, 4, 4, 0, 0, 5, 8, 10110⟩,
  ⟨0x4410, 0x441B, 5, 5, 0, 0, 3, 2, 10110⟩,
  ⟨0x4410, 0x441B, 6, 6, 0, 0, 5, 8, 10110⟩,
  ⟨0x4410, 0x441B, 7, 7, 0, 0, 5, 8, 10110⟩,
  ⟨0x4410, 0x441B, 8, 8, 0, 0, 5, 8, 10110⟩,
  ⟨0x4500, 0x45FF, 0, 63, 4, 0, 2, 1, 10111⟩,
  ⟨0x4500, 0x45FF, 0, 63, 4, 1, 5, 8, 10111⟩,
  ⟨0x4500, 0x45FF, 0, 63, 4, 2, 7, 16, 10111⟩,
  ⟨0x4500, 0x45FF, 0, 63, 4, 3, 5, 8, 10111⟩]

/-- R237. -/
def dictR237 : List DictRow := [
  ⟨0x4800, 0x4800, 0, 0, 0, 0, 3, 2, 444444⟩,
  ⟨0x4800, 0x4800, 1, 1, 0, 0, 3, 2, 10110⟩,
  ⟨0x4800, 0x4800, 2, 2, 0, 0, 3, 2, 444444⟩,
  ⟨0x4800, 0x4800, 3, 3, 0, 0, 5, 8, 10110⟩,
  ⟨0x4800, 0x4800, 4, 4, 0, 0, 5, 8, 10110⟩,
  ⟨0x4800, 0x4800, 5, 5, 0, 0, 4, 4, 111111⟩,
  ⟨0x4810, 0x481F, 1, 1, 0, 0, 2, 1, 20111⟩,
  ⟨0x4810, 0x481F, 2, 2, 0, 0, 4, 4, 20112⟩,
  ⟨0x4810, 0x481F, 3, 3, 0, 0, 3, 2, 20112⟩,
  ⟨0x4900, 0x49FF, 0, 63, 4, 0, 2, 1, 10111⟩,
  ⟨0x4900, 0x49FF, 0, 63, 4, 1, 5, 8, 10111⟩,
  ⟨0x4900, 0x49FF, 0, 63, 4, 2, 5, 8, 10111⟩,
  ⟨0x4900, 0x49FF, 0, 63, 4, 3, 4, 4, 10111⟩]

/-- R304. -/
def dictR304a : List DictRow := [
  ⟨0x5000, 0x5000, 0, 0, 0, 0, 2, 1, 444444⟩,
  ⟨0x5000, 0x5000, 1, 1, 0, 0, 4, 4, 111111⟩,
  ⟨0x5000, 0x5000, 2, 2, 0, 0, 4, 4, 444444⟩,
  ⟨0x5000, 0x5000, 3, 3, 0, 0, 4, 4, 10110⟩,
  ⟨0x5000, 0x5000, 4, 4, 0, 0, 3, 2, 444444⟩,
  ⟨0x5000, 0x5000, 5, 5, 0, 0, 3, 2, 10110⟩,
  ⟨0x5000, 0x5000, 6, 6, 0, 0, 3, 2, 444444⟩,
  ⟨0x5001, 0x5001, 1, 1, 0, 0, 5, 8, 21120⟩,
  ⟨0x5001, 0x5001, 2, 2, 0, 0, 3, 2, 444444⟩,
  ⟨0x5001, 0x5001, 3, 3, 0, 0, 3, 2, 444444⟩,
  ⟨0x5001, 0x5001, 4, 4, 0, 0, 3, 2, 20120⟩,
  ⟨0x5001, 0x5001, 5, 5, 0, 0, 3, 2, 444444⟩,
  ⟨0x5001, 0x5001, 6, 6, 0, 0, 3, 2, 444444⟩,
  ⟨0x5001, 0x5001, 7, 7, 0, 0, 3, 2, 444444⟩,
  ⟨0x5001, 0x5001, 8, 8, 0, 0, 7, 16, 110120⟩,
  ⟨0x5010, 0x5021, 1, 1, 0, 0, 4, 4, 111111⟩,
  ⟨0x5010, 0x5021, 2, 2, 0, 0, 2, 1, 20110⟩,
  ⟨0x5010, 0x5021, 3, 3, 0, 0, 1, 1, 10110⟩,
  ⟨0x5010, 0x5021, 4, 4, 0, 0, 5, 8, 10110⟩,
  ⟨0x5010, 0x5021, 5, 5, 0, 0, 5, 8, 10110⟩,
  ⟨0x5010, 0x5021, 6, 6, 0, 0, 5, 8, 10110⟩,
  ⟨0x5010, 0x5021, 7, 7, 0, 0, 5, 8, 10110⟩,
  ⟨0x5010, 0x5021, 8, 8, 0, 0, 5, 8, 10110⟩,
  ⟨0x5010, 0x5021, 9, 9, 0, 0, 5, 8, 10110⟩,
  ⟨0x5010, 0x5021, 10, 10, 0, 0, 3, 2, 10110⟩,
  ⟨0x5010, 0x5021, 11, 11, 0, 0, 3, 2, 10110⟩,
  ⟨0x5010, 0x5021, 12, 12, 0, 0, 5, 8, 10110⟩,
  ⟨0x5010, 0x5021, 13, 13, 0, 0, 5, 8, 10110⟩,
  ⟨0x5010, 0x5021, 14, 14, 0, 0, 3, 2, 10110⟩,
  ⟨0x5010, 0x5021, 15, 15, 0, 0, 2, 1, 10110⟩,
  ⟨0x5040, 0x504F, 1, 1, 0, 0, 7, 8, 10111⟩,
  ⟨0x5040, 0x504F, 2, 2, 0, 0, 7, 8, 10111⟩,
  ⟨0x5040, 0x504F, 3, 3, 0, 0, 4, 4, 10111⟩,
  ⟨0x5040, 0x504F, 4, 4, 0, 0, 3, 2, 10111⟩,
  ⟨0x5040, 0x504F, 5, 5, 0, 0, 5, 8, 10111⟩,
  ⟨0x5040, 0x504F, 6, 6, 0, 0, 5, 8, 10111⟩,
  ⟨0x5040, 0x504F, 7, 7, 0, 0, 5, 8, 10111⟩,
  ⟨0x5040, 0x504F, 8, 8, 0, 0, 5, 8, 10111⟩,
  ⟨0x5100, 0x5100, 1, 1, 0, 0, 4, 4, 111111⟩,
  ⟨0x5100, 0x5100, 2, 2, 0, 0, 2, 1, 444444⟩]

/-- R304. -/
def dictR304b : List DictRow := [
  ⟨0x5100, 0x5100, 3, 3, 0, 0, 2, 1, 20110⟩,
  ⟨0x5100, 0x5100, 4, 4, 0, 0, 5, 8, 10110⟩,
  ⟨0x5110, 0x511F, 1, 1, 0, 0, 2, 1, 110111⟩,
  ⟨0x5110, 0x511F, 2, 2, 0, 0, 2, 1, 10111⟩,
  ⟨0x5110, 0x511F, 3, 3, 0, 0, 2, 1, 10111⟩,
  ⟨0x5110, 0x511F, 4, 4, 0, 0, 2, 1, 10111⟩,
  ⟨0x5400, 0x55FF, 0, 255, 0, 0, 7, 24, 10111⟩,
  ⟨0x5600, 0x561F, 0, 255, 0, 0, 7, 12, 10111⟩]

/-- R326. -/
def dictR326 : List DictRow := [
  ⟨0x6000, 0x6000, 0, 0, 0, 0, 2, 1, 444444⟩,
  ⟨0x6000, 0x6000, 1, 1, 0, 0, 2, 1, 10110⟩,
  ⟨0x6000, 0x6000, 2, 2, 0, 0, 2, 1, 444444⟩,
  ⟨0x6000, 0x6000, 3, 3, 0, 0, 2, 1, 444444⟩,
  ⟨0x6001, 0x6001, 1, 1, 0, 0, 4, 4, 111111⟩,
  ⟨0x6001, 0x6001, 2, 2, 0, 0, 4, 4, 111111⟩,
  ⟨0x6010, 0x601F, 1, 1, 0, 0, 2, 1, 10111⟩,
  ⟨0x6010, 0x601F, 2, 2, 0, 0, 5, 8, 10111⟩,
  ⟨0x6010, 0x601F, 3, 3, 0, 0, 5, 8, 10111⟩,
  ⟨0x6010, 0x601F, 4, 4, 0, 0, 5, 8, 10111⟩,
  ⟨0x6100, 0x611F, 1, 1, 0, 0, 2, 1, 10111⟩,
  ⟨0x6100, 0x611F, 2, 2, 0, 0, 4, 4, 10111⟩,
  ⟨0x6100, 0x611F, 3, 3, 0, 0, 2, 1, 10111⟩,
  ⟨0x6100, 0x611F, 4, 4, 0, 0, 5, 8, 10111⟩,
  ⟨0x6100, 0x611F, 5, 5, 0, 0, 5, 8, 10111⟩,
  ⟨0x6100, 0x611F, 6, 6, 0, 0, 7, 16, 10111⟩]

/-- R362. -/
def dictR362 : List DictRow := [
  ⟨0x6400, 0x6400, 0, 0, 0, 0, 2, 1, 444444⟩,
  ⟨0x6400, 0x6400, 1, 1, 0, 0, 2, 1, 10110⟩,
  ⟨0x6400, 0x6400, 2, 2, 0, 0, 3, 2, 444444⟩,
  ⟨0x6400, 0x6400, 3, 3, 0, 0, 4, 4, 444444⟩,
  ⟨0x6400, 0x6400, 4, 4, 0, 0, 3, 2, 444444⟩,
  ⟨0x6400, 0x6400, 5, 5, 0, 0, 2, 1, 444444⟩,
  ⟨0x6400, 0x6400, 6, 6, 0, 0, 4, 4, 111111⟩,
  ⟨0x6401, 0x6401, 1, 1, 0, 0, 1, 1, 120110⟩,
  ⟨0x6401, 0x6401, 2, 2, 0, 0, 4, 4, 20110⟩,
  ⟨0x6401, 0x6401, 3, 3, 0, 0, 3, 2, 444444⟩,
  ⟨0x6440, 0x647F, 1, 1, 0, 0, 2, 1, 10111⟩,
  ⟨0x6440, 0x647F, 2, 2, 0, 0, 2, 1, 20111⟩,
  ⟨0x6440, 0x647F, 3, 3, 0, 0, 2, 1, 20111⟩,
  ⟨0x6440, 0x647F, 4, 4, 0, 0, 5, 8, 20111⟩,
  ⟨0x6440, 0x647F, 5, 5, 0, 0, 2, 1, 20111⟩,
  ⟨0x6440, 0x647F, 6, 6, 0, 0, 3, 2, 20111⟩,
  ⟨0x6440, 0x647F, 7, 7, 0, 0, 1, 1, 20111⟩,
  ⟨0x6440, 0x647F, 8, 8, 0, 0, 1, 1, 20111⟩,
  ⟨0x6440, 0x647F, 9, 9, 0, 0, 7, 2, 30003⟩,
  ⟨0x6440, 0x647F, 10, 10, 0, 0, 5, 8, 10111⟩,
  ⟨0x6440, 0x647F, 11, 11, 0, 0, 4, 4, 10111⟩,
  ⟨0x6480, 0x6490, 1, 1, 0, 0, 5, 8, 20112⟩,
  ⟨0x6480, 0x6490, 2, 2, 0, 0, 2, 1, 20111⟩,
  ⟨0x6480, 0x6490, 3, 3, 0, 0, 3, 2, 20112⟩,
  ⟨0x6480, 0x6490, 4, 4, 0, 0, 4, 4, 20112⟩,
  ⟨0x6480, 0x6490, 5, 5, 0, 0, 5, 8, 10111⟩,
  ⟨0x6480, 0x6490, 6, 6, 0, 0, 5, 8, 10111⟩,
  ⟨0x64A0, 0x64AF, 1, 1, 0, 0, 4, 4, 10111⟩,
  ⟨0x64A0, 0x64AF, 2, 2, 0, 0, 2, 1, 10111⟩,
  ⟨0x64A0, 0x64AF, 3, 3, 0, 0, 5, 8, 10111⟩,
  ⟨0x64A0, 0x64AF, 4, 4, 0, 0, 5, 8, 10111⟩,
  ⟨0x64A0, 0x64AF, 5, 5, 0, 0, 3, 2, 10111⟩]

/-- R404. -/
def dictR404 : List DictRow := [
  ⟨0x6800, 0x6800, 0, 0, 0, 0, 2, 1, 444444⟩,
  ⟨0x6800, 0x6800, 1, 1, 0, 0, 3, 2, 444444⟩,
  ⟨0x6800, 0x6800, 2, 2, 0, 0, 2, 1, 444444⟩,
  ⟨0x6800, 0x6800, 3, 3, 0, 0, 4, 4, 111111⟩,
  ⟨0x6800, 0x6800, 4, 4, 0, 0, 5, 8, 10110⟩,
  ⟨0x6800, 0x6800, 5, 5, 0, 0, 5, 8, 10110⟩,
  ⟨0x6800, 0x6800, 6, 6, 0, 0, 5, 8, 10110⟩,
  ⟨0x6800, 0x6800, 7, 7, 0, 0, 5, 8, 10110⟩,
  ⟨0x6810, 0x6820, 1, 1, 0, 0, 5, 8, 20111⟩,
  ⟨0x6810, 0x6820, 2, 2, 0, 0, 4, 4, 10111⟩,
  ⟨0x6810, 0x6820, 3, 3, 0, 0, 4, 4, 10111⟩,
  ⟨0x6810, 0x6820, 4, 4, 0, 0, 3, 2, 10111⟩,
  ⟨0x6810, 0x6820, 5, 5, 0, 0, 1, 1, 10111⟩,
  ⟨0x6840, 0x684F, 0, 63, 0, 0, 5, 8, 20112⟩]

/-- R437. -/
def dictR437 : List DictRow := [
  ⟨0x6C00, 0x6C00, 0, 0, 0, 0, 2, 1, 444444⟩,
  ⟨0x6C00, 0x6C00, 1, 1, 0, 0, 2, 1, 10110⟩,
  ⟨0x6C00, 0x6C00, 2, 2, 0, 0, 2, 1, 110110⟩,
  ⟨0x6C00, 0x6C00, 3, 3, 0, 0, 3, 2, 444444⟩,
  ⟨0x6C00, 0x6C00, 4, 4, 0, 0, 3, 2, 20110⟩,
  ⟨0x6C00, 0x6C00, 5, 5, 0, 0, 3, 2, 444444⟩,
  ⟨0x6C00, 0x6C00, 6, 6, 0, 0, 4, 4, 444444⟩,
  ⟨0x6C00, 0x6C00, 7, 7, 0, 0, 3, 2, 10110⟩,
  ⟨0x6C01, 0x6C01, 1, 4, 0, 0, 2, 1, 444444⟩,
  ⟨0x6C10, 0x6C1B, 1, 1, 0, 0, 3, 2, 10110⟩,
  ⟨0x6C10, 0x6C1B, 2, 2, 0, 0, 2, 1, 10110⟩,
  ⟨0x6C10, 0x6C1B, 3, 3, 0, 0, 4, 4, 111111⟩,
  ⟨0x6C10, 0x6C1B, 4, 4, 0, 0, 5, 8, 10110⟩,
  ⟨0x6C20, 0x6C23, 1, 1, 0, 0, 3, 2, 10110⟩,
  ⟨0x6C20, 0x6C23, 2, 2, 0, 0, 5, 8, 10110⟩,
  ⟨0x6C20, 0x6C23, 3, 3, 0, 0, 5, 8, 10110⟩,
  ⟨0x6C40, 0x6C4F, 1, 1, 0, 0, 2, 1, 111111⟩,
  ⟨0x6C40, 0x6C4F, 2, 2, 0, 0, 7, 256, 10111⟩,
  ⟨0x6C40, 0x6C4F, 3, 3, 0, 0, 9, 0, 10111⟩,
  ⟨0x6C40, 0x6C4F, 4, 4, 0, 0, 7, 4, 10111⟩,
  ⟨0x6C40, 0x6C4F, 5, 5, 0, 0, 7, 4, 10111⟩,
  ⟨0x6C40, 0x6C4F, 6, 6, 0, 0, 7, 24, 20111⟩,
  ⟨0x6C40, 0x6C4F, 7, 7, 0, 0, 7, 12, 20111⟩,
  ⟨0x6C40, 0x6C4F, 8, 8, 0, 0, 7, 4, 20111⟩,
  ⟨0x6C40, 0x6C4F, 9, 9, 0, 0, 1, 1, 30000⟩,
  ⟨0x6C40, 0x6C4F, 10, 10, 0, 0, 9, 0, 111111⟩,
  ⟨0x6C40, 0x6C4F, 11, 11, 0, 0, 9, 0, 111111⟩,
  ⟨0x6C80, 0x6C8F, 1, 1, 0, 0, 5, 8, 10111⟩,
  ⟨0x6C80, 0x6C8F, 2, 2, 0, 0, 5, 8, 10111⟩,
  ⟨0x6C80, 0x6C8F, 3, 3, 0, 0, 5, 8, 10111⟩,
  ⟨0x6C80, 0x6C8F, 4, 4, 0, 0, 7, 32, 10111⟩,
  ⟨0x6C80, 0x6C8F, 5, 5, 0, 0, 7, 96, 10111⟩,
  ⟨0x6C80, 0x6C8F, 6, 6, 0, 0, 5, 8, 10111⟩,
  ⟨0x6C80, 0x6C8F, 7, 7, 0, 0, 7, 16, 10111⟩,
  ⟨0x6C80, 0x6C8F, 8, 8, 0, 0, 4, 4, 10111⟩,
  ⟨0x6C80, 0x6C8F, 9, 9, 0, 0, 5, 8, 10111⟩]

/-- R458. -/
def dictR458 : List DictRow := [
  ⟨0x1000, 0x1000, 0, 0, 0, 0, 7, 8, 444444⟩,
  ⟨0x1000, 0x1000, 1, 1, 0, 0, 7, 16, 444444⟩,
  ⟨0x1000, 0x1000, 2, 2, 0, 0, 3, 2, 444444⟩,
  ⟨0x1000, 0x1000, 3, 3, 0, 0, 3, 2, 444444⟩,
  ⟨0x1000, 0x1000, 4, 4, 0, 0, 4, 4, 444444⟩,
  ⟨0x1001, 0x1001, 1, 1, 0, 0, 7, 20, 111111⟩,
  ⟨0x1001, 0x1001, 2, 2, 0, 0, 7, 8, 211111⟩,
  ⟨0x1001, 0x1001, 3, 3, 0, 0, 7, 16, 111111⟩,
  ⟨0x1002, 0x1002, 1, 1, 0, 0, 7, 16, 111111⟩,
  ⟨0x1002, 0x1002, 2, 2, 0, 0, 4, 4, 111111⟩,
  ⟨0x1002, 0x1002, 3, 3, 0, 0, 4, 4, 111111⟩,
  ⟨0x1003, 0x1003, 1, 1, 0, 0, 4, 4, 111111⟩,
  ⟨0x1003, 0x1003, 2, 2, 0, 0, 4, 4, 444444⟩]

/-- R460. -/
def dictR460 : List DictRow := [
  ⟨0x2000, 0x2000, 0, 0, 0, 0, 2, 1, 444444⟩,
  ⟨0x2000, 0x2000, 1, 1, 0, 0, 2, 1, 444444⟩,
  ⟨0x2000, 0x2000, 2, 2, 0, 0, 2, 1, 444444⟩,
  ⟨0x2000, 0x2000, 3, 3, 0, 0, 2, 1, 444444⟩,
  ⟨0x2000, 0x2000, 4, 4, 0, 0, 1, 1, 444444⟩,
  ⟨0x2000, 0x2000, 5, 5, 0, 0, 2, 1, 444444⟩,
  ⟨0x2000, 0x2000, 6, 6, 0, 0, 2, 1, 444444⟩,
  ⟨0x2000, 0x2000, 7, 7, 0, 0, 2, 1, 444444⟩,
  ⟨0x2001, 0x2001, 0, 0, 0, 0, 2, 1, 444444⟩,
  ⟨0x2001, 0x2001, 1, 1, 0, 0, 2, 1, 444444⟩,
  ⟨0x2001, 0x2001, 2, 2, 0, 0, 2, 1, 444444⟩,
  ⟨0x2001, 0x2001, 3, 3, 0, 0, 2, 1, 444444⟩,
  ⟨0x2001, 0x2001, 4, 4, 0, 0, 1, 1, 444444⟩,
  ⟨0x2001, 0x2001, 5, 5, 0, 0, 2, 1, 444444⟩,
  ⟨0x2001, 0x2001, 6, 6, 0, 0, 2, 1, 444444⟩,
  ⟨0x2001, 0x2001, 7, 7, 0, 0, 2, 1, 444444⟩,
  ⟨0x2002, 0x2002, 0, 0, 0, 0, 2, 1, 444444⟩]

/-- R462. -/
def dictR462 : List DictRow := [
  ⟨0x2100, 0x2100, 1, 1, 0, 0, 2, 1, 444444⟩,
  ⟨0x2100, 0x2100, 2, 2, 0, 0, 4, 4, 444444⟩,
  ⟨0x2100, 0x2100, 3, 3, 0, 0, 3, 2, 120120⟩,
  ⟨0x2100, 0x2100, 4, 4, 0, 0, 2, 1, 110110⟩,
  ⟨0x2100, 0x2100, 5, 5, 0, 0, 5, 8, 110110⟩,
  ⟨0x2100, 0x2100, 6, 6, 0, 0, 5, 8, 110110⟩,
  ⟨0x2101, 0x2101, 1, 1, 0, 0, 3, 2, 444444⟩,
  ⟨0x2101, 0x2101, 2, 2, 0, 0, 3, 2, 444444⟩,
  ⟨0x2101, 0x2101, 3, 3, 0, 0, 3, 2, 444444⟩,
  ⟨0x2110, 0x2110, 1, 1, 0, 0, 2, 1, 110110⟩,
  ⟨0x2110, 0x2110, 2, 2, 0, 0, 2, 1, 110110⟩,
  ⟨0x2110, 0x2110, 3, 3, 0, 0, 2, 1, 110110⟩,
  ⟨0x2110, 0x2110, 4, 4, 0, 0, 2, 1, 110110⟩,
  ⟨0x2110, 0x2110, 5, 5, 0, 0, 5, 8, 110110⟩,
  ⟨0x2110, 0x2110, 6, 6, 0, 0, 5, 8, 110110⟩,
  ⟨0x2120, 0x2120, 1, 1, 0, 0, 2, 1, 20110⟩,
  ⟨0x2120, 0x2120, 2, 2, 0, 0, 5, 8, 10110⟩,
  ⟨0x2130, 0x2130, 1, 1, 0, 0, 2, 1, 111111⟩,
  ⟨0x2130, 0x2130, 2, 2, 0, 0, 4, 4, 111111⟩,
  ⟨0x2130, 0x2130, 3, 3, 0, 0, 7, 48, 111111⟩]

/-- R479. -/
def dictR479 : List DictRow := [
  ⟨0x7000, 0x7000, 0, 0, 0, 0, 3, 2, 444444⟩,
  ⟨0x7000, 0x7000, 1, 1, 0, 0, 2, 1, 444444⟩,
  ⟨0x7000, 0x7000, 2, 2, 0, 0, 2, 1, 444444⟩,
  ⟨0x7001, 0x7001, 1, 1, 0, 0, 4, 4, 10120⟩,
  ⟨0x7001, 0x7001, 2, 2, 0, 0, 4, 4, 10120⟩,
  ⟨0x7001, 0x7001, 3, 3, 0, 0, 5, 8, 10110⟩,
  ⟨0x7001, 0x7001, 4, 4, 0, 0, 7, 64, 10110⟩,
  ⟨0x7001, 0x7001, 5, 5, 0, 0, 5, 8, 10110⟩,
  ⟨0x7001, 0x7001, 6, 6, 0, 0, 5, 8, 10110⟩,
  ⟨0x7010, 0x7011, 1, 1, 0, 0, 5, 8, 10110⟩,
  ⟨0x7010, 0x7011, 2, 2, 0, 0, 5, 8, 10110⟩,
  ⟨0x7010, 0x7011, 3, 3, 0, 0, 5, 8, 10110⟩,
  ⟨0x7010, 0x7011, 4, 4, 0, 0, 5, 8, 10110⟩,
  ⟨0x7010, 0x7011, 5, 5, 0, 0, 5, 8, 10110⟩,
  ⟨0x7010, 0x7011, 6, 6, 0, 0, 2, 1, 10110⟩,
  ⟨0x7010, 0x7011, 7, 7, 0, 0, 2, 1, 10110⟩,
  ⟨0x7010, 0x7011, 8, 8, 0, 0, 5, 8, 10110⟩]

/-- R501. -/
def dictR501 : List DictRow := [
  ⟨0x7400, 0x7400, 1, 1, 0, 0, 3, 2, 444444⟩,
  ⟨0x7400, 0x7400, 2, 2, 0, 0, 4, 4, 110110⟩,
  ⟨0x7400, 0x7400, 3, 3, 0, 0, 4, 4, 220110⟩,
  ⟨0x7400, 0x7400, 4, 4, 0, 0, 1, 1, 110110⟩,
  ⟨0x7400, 0x7400, 5, 5, 0, 0, 5, 8, 110110⟩,
  ⟨0x7400, 0x7400, 6, 6, 0, 0, 4, 4, 120120⟩,
  ⟨0x7400, 0x7400, 7, 7, 0, 0, 3, 2, 120120⟩,
  ⟨0x7401, 0x7401, 0, 255, 0, 0, 7, 32, 110110⟩,
  ⟨0x7402, 0x7402, 1, 1, 0, 0, 7, 32, 110110⟩,
  ⟨0x7402, 0x7402, 2, 2, 0, 0, 7, 32, 110110⟩,
  ⟨0x7402, 0x7402, 3, 3, 0, 0, 1, 1, 330000⟩,
  ⟨0x7403, 0x7403, 1, 34, 0, 0, 5, 8, 110110⟩,
  ⟨0x7410, 0x7410, 1, 1, 0, 0, 4, 4, 444444⟩,
  ⟨0x7410, 0x7410, 2, 2, 0, 0, 4, 4, 120110⟩,
  ⟨0x7410, 0x7410, 3, 3, 0, 0, 3, 2, 444444⟩,
  ⟨0x7410, 0x7410, 4, 4, 0, 0, 4, 4, 444444⟩,
  ⟨0x7410, 0x7410, 5, 5, 0, 0, 3, 2, 444444⟩,
  ⟨0x7410, 0x7410, 6, 6, 0, 0, 3, 2, 444444⟩,
  ⟨0x7410, 0x7410, 7, 7, 0, 0, 4, 4, 120110⟩,
  ⟨0x7410, 0x7410, 8, 8, 0, 0, 5, 8, 110110⟩,
  ⟨0x7410, 0x7410, 9, 9, 0, 0, 1, 1, 30⟩,
  ⟨0x7411, 0x7411, 1, 1, 0, 0, 1, 1, 330000⟩,
  ⟨0x7411, 0x7411, 2, 2, 0, 0, 4, 4, 110110⟩,
  ⟨0x7411, 0x7411, 3, 3, 0, 0, 7, 20, 110110⟩,
  ⟨0x7412, 0x7412, 1, 1, 0, 0, 9, 0, 110110⟩,
  ⟨0x7412, 0x7412, 2, 2, 0, 0, 1, 1, 330300⟩,
  ⟨0x7412, 0x7412, 3, 3, 0, 0, 4, 4, 110110⟩,
  ⟨0x7412, 0x7412, 4, 4, 0, 0, 4, 4, 110110⟩,
  ⟨0x7420, 0x742F, 1, 1, 0, 0, 5, 8, 10111⟩,
  ⟨0x7420, 0x742F, 2, 2, 0, 0, 3, 2, 10111⟩,
  ⟨0x7420, 0x742F, 3, 3, 0, 0, 4, 4, 10111⟩]

/-- R531. -/
def dictR531 : List DictRow := [
  ⟨0x3000, 0x3000, 0, 0, 0, 0, 2, 1, 444444⟩,
  ⟨0x3000, 0x3000, 1, 1, 0, 0, 2, 1, 110110⟩,
  ⟨0x3000, 0x3000, 2, 2, 0, 0, 7, 24, 330300⟩,
  ⟨0x3000, 0x3000, 3, 3, 0, 0, 2, 1, 110110⟩,
  ⟨0x3000, 0x3000, 4, 4, 0, 0, 3, 2, 110110⟩,
  ⟨0x3000, 0x3000, 5, 5, 0, 0, 2, 1, 110110⟩,
  ⟨0x3000, 0x3000, 6, 6, 0, 0, 2, 1, 110110⟩,
  ⟨0x3001, 0x3001, 1, 1, 0, 0, 7, 16, 210110⟩,
  ⟨0x3001, 0x3001, 2, 2, 0, 0, 7, 256, 300000⟩,
  ⟨0x3001, 0x3001, 3, 3, 0, 0, 7, 48, 210110⟩,
  ⟨0x3001, 0x3001, 4, 4, 0, 0, 7, 84, 110110⟩,
  ⟨0x3010, 0x3010, 1, 1, 0, 0, 2, 1, 111111⟩,
  ⟨0x3010, 0x3010, 2, 2, 0, 0, 2, 1, 330000⟩,
  ⟨0x3010, 0x3010, 3, 3, 0, 0, 7, 112, 110100⟩,
  ⟨0x3010, 0x3010, 4, 4, 0, 0, 9, 0, 330000⟩,
  ⟨0x3010, 0x3010, 5, 5, 0, 0, 3, 2, 110110⟩,
  ⟨0x3010, 0x3010, 6, 6, 0, 0, 4, 4, 110110⟩,
  ⟨0x3010, 0x3010, 7, 7, 0, 0, 1, 1, 330000⟩,
  ⟨0x3020, 0x3021, 1, 1, 0, 0, 7, 8, 200⟩,
  ⟨0x3020, 0x3021, 2, 2, 0, 0, 1, 1, 110110⟩,
  ⟨0x3020, 0x3021, 3, 3, 0, 0, 4, 4, 110110⟩,
  ⟨0x3030, 0x3030, 1, 1, 0, 0, 1, 1, 444444⟩]

/-- R551. -/
def dictR551 : List DictRow := [
  ⟨0x7800, 0x7800, 0, 0, 0, 0, 2, 1, 444444⟩,
  ⟨0x7800, 0x7800, 1, 1, 0, 0, 4, 4, 444444⟩,
  ⟨0x7800, 0x7800, 2, 2, 0, 0, 2, 1, 444444⟩,
  ⟨0x7800, 0x7800, 3, 3, 0, 0, 4, 4, 444444⟩,
  ⟨0x7801, 0x7801, 1, 1, 0, 0, 7, 12, 330330⟩,
  ⟨0x7801, 0x7801, 2, 2, 0, 0, 1, 1, 330330⟩,
  ⟨0x7801, 0x7801, 3, 3, 0, 0, 5, 8, 110110⟩,
  ⟨0x7801, 0x7801, 4, 4, 0, 0, 4, 4, 110110⟩,
  ⟨0x7810, 0x7815, 0, 15, 0, 0, 5, 8, 110110⟩,
  ⟨0x7820, 0x7825, 0, 15, 0, 0, 5, 8, 110110⟩,
  ⟨0x7830, 0x7830, 1, 1, 0, 0, 2, 1, 110210⟩,
  ⟨0x7830, 0x7830, 2, 2, 0, 0, 1, 1, 110210⟩,
  ⟨0x7830, 0x7830, 3, 3, 0, 0, 2, 1, 110210⟩,
  ⟨0x7830, 0x7830, 4, 4, 0, 0, 4, 4, 110210⟩,
  ⟨0x7830, 0x7830, 5, 5, 0, 0, 3, 2, 110210⟩,
  ⟨0x7830, 0x7830, 6, 6, 0, 0, 1, 1, 110210⟩,
  ⟨0x7830, 0x7830, 7, 7, 0, 0, 2, 1, 110110⟩,
  ⟨0x7830, 0x7830, 8, 8, 0, 0, 3, 2, 110110⟩,
  ⟨0x7830, 0x7830, 9, 9, 0, 0, 1, 1, 300⟩,
  ⟨0x7830, 0x7830, 10, 10, 0, 0, 7, 16, 30⟩,
  ⟨0x7830, 0x7830, 11, 11, 0, 0, 3, 2, 110210⟩,
  ⟨0x7831, 0x7831, 0, 3, 0, 0, 7, 16, 110210⟩,
  ⟨0x7832, 0x7832, 1, 1, 0, 0, 9, 0, 100⟩,
  ⟨0x7832, 0x7832, 2, 2, 0, 0, 3, 2, 110110⟩,
  ⟨0x7832, 0x7832, 3, 3, 0, 0, 4, 4, 110110⟩]

/-- R568. -/
def dictR568 : List DictRow := [
  ⟨0x8000, 0x8000, 0, 0, 0, 0, 2, 1, 444444⟩,
  ⟨0x8000, 0x8000, 1, 1, 0, 0, 3, 2, 444444⟩,
  ⟨0x8000, 0x8000, 2, 2, 0, 0, 2, 1, 444444⟩,
  ⟨0x8000, 0x8000, 3, 3, 0, 0, 2, 1, 444444⟩,
  ⟨0x8000, 0x8000, 4, 4, 0, 0, 3, 2, 444444⟩,
  ⟨0x8000, 0x8000, 5, 5, 0, 0, 4, 4, 444444⟩,
  ⟨0x8000, 0x8000, 6, 6, 0, 0, 4, 4, 444444⟩,
  ⟨0x8000, 0x8000, 7, 7, 0, 0, 3, 2, 110110⟩,
  ⟨0x8000, 0x8000, 8, 8, 0, 0, 4, 4, 110110⟩,
  ⟨0x8001, 0x8001, 1, 1, 0, 0, 3, 2, 444444⟩,
  ⟨0x8002, 0x8002, 1, 4, 0, 0, 2, 1, 110110⟩,
  ⟨0x8002, 0x8002, 5, 5, 0, 0, 4, 4, 110110⟩,
  ⟨0x8010, 0x8033, 1, 1, 0, 0, 2, 1, 110110⟩,
  ⟨0x8010, 0x8033, 2, 2, 0, 0, 7, 16, 110110⟩,
  ⟨0x8010, 0x8033, 3, 3, 0, 0, 7, 16, 110110⟩,
  ⟨0x8010, 0x8033, 4, 4, 0, 0, 5, 8, 110110⟩,
  ⟨0x8010, 0x8033, 5, 5, 0, 0, 5, 8, 110110⟩,
  ⟨0x8040, 0x8040, 1, 1, 0, 0, 6, 4, 110110⟩,
  ⟨0x8040, 0x8040, 2, 2, 0, 0, 6, 4, 110110⟩,
  ⟨0x8040, 0x8040, 3, 3, 0, 0, 6, 4, 220110⟩,
  ⟨0x8040, 0x8040, 4, 4, 0, 0, 3, 2, 110110⟩,
  ⟨0x8040, 0x8040, 5, 5, 0, 0, 3, 2, 110110⟩,
  ⟨0x8040, 0x8040, 6, 6, 0, 0, 3, 2, 110110⟩,
  ⟨0x8040, 0x8040, 7, 7, 0, 0, 5, 8, 110110⟩,
  ⟨0x8040, 0x8040, 8, 8, 0, 0, 4, 4, 110110⟩,
  ⟨0x8040, 0x8040, 9, 9, 0, 0, 6, 4, 110110⟩,
  ⟨0x8040, 0x8040, 10, 10, 0, 0, 3, 2, 110110⟩,
  ⟨0x8041, 0x8041, 0, 11, 0, 0, 6, 4, 110110⟩,
  ⟨0x8050, 0x8053, 1, 1, 0, 0, 3, 2, 220110⟩,
  ⟨0x8050, 0x8053, 2, 2, 0, 0, 2, 1, 110110⟩,
  ⟨0x8050, 0x8053, 3, 3, 0, 0, 1, 1, 330000⟩,
  ⟨0x8050, 0x8053, 4, 4, 0, 0, 4, 4, 110110⟩,
  ⟨0x8060, 0x8067, 1, 1, 0, 0, 4, 4, 110110⟩,
  ⟨0x8060, 0x8067, 2, 2, 0, 0, 2, 1, 444444⟩,
  ⟨0x8060, 0x8067, 3, 3, 0, 0, 2, 1, 444444⟩]

/-- R587. -/
def dictR587 : List DictRow := [
  ⟨0x8100, 0x8100, 0, 0, 0, 0, 4, 4, 110110⟩,
  ⟨0x8100, 0x8100, 1, 1, 0, 0, 4, 4, 444444⟩,
  ⟨0x8100, 0x8100, 2, 2, 0, 0, 4, 4, 444444⟩,
  ⟨0x8100, 0x8100, 3, 3, 0, 0, 4, 4, 444444⟩,
  ⟨0x8100, 0x8100, 4, 4, 0, 0, 4, 4, 444444⟩,
  ⟨0x8101, 0x8101, 1, 21, 0, 0, 4, 4, 110110⟩,
  ⟨0x8102, 0x8102, 1, 12, 0, 0, 3, 2, 444444⟩,
  ⟨0x8103, 0x8103, 1, 1, 0, 0, 7, 8, 110110⟩,
  ⟨0x8103, 0x8103, 2, 2, 0, 0, 2, 1, 110110⟩,
  ⟨0x8103, 0x8103, 3, 3, 0, 0, 1, 1, 110110⟩]

/-- Every entry (R446). -/
def dictTable : List DictRow :=
  dictR82 ++ dictR138 ++ dictR176 ++ dictR215 ++ dictR237 ++ dictR304a ++ dictR304b ++ dictR326 ++ dictR362 ++
  dictR404 ++ dictR437 ++ dictR458 ++ dictR460 ++ dictR462 ++ dictR479 ++ dictR501 ++ dictR531 ++ dictR551 ++ dictR568 ++ dictR587

/-- Does a row list an entry? -/
def DictRow.covers (r : DictRow) (ix sub : Nat) : Bool :=
  decide (r.lo ≤ ix) && decide (ix ≤ r.hi) && decide (r.sub0 ≤ sub) && decide (sub ≤ r.sub1) && (r.every == 0 || sub % r.every == r.at_)

/-- The row of an entry: none where it is reserved (R439). -/
def dictRow (ix sub : Nat) : Option DictRow := dictTable.find? (fun r => r.covers ix sub)

/-- The access code of a principal, by its place in R442's order. -/
def DictRow.code (r : DictRow) (p : Nat) : Nat := r.acc / 10 ^ (5 - p) % 10

/-- May a principal read, or write, the entries of a row (R442)? -/
def DictRow.readable (r : DictRow) (p : Nat) : Bool := decide (r.code p ∈ [1, 2, 4])
def DictRow.writable (r : DictRow) (p : Nat) : Bool := decide (r.code p ∈ [2, 3])

/-- The entries that the ODS serves without the firmware (R456). -/
def dictEarly (ix sub : Nat) : Bool :=
  let within (a b : Nat) : Bool := decide (a ≤ ix) && decide (ix ≤ b)
  within 0x1000 0x20FF || within 0x3000 0x33FF || within 0x3401 0x3403 || within 0x7400 0x7403 || within 0x7411 0x7412 || within 0x7800 0x7801 ||
  within 0x7810 0x7815 || within 0x7820 0x7825 || (ix == 0x8040 && decide (sub ∈ [9, 10])) || within 0x8050 0x8053 ||
  (ix == 0x8103 && decide (sub ∈ [2, 3]))

end Sys2Proof.Machine
end

