-- ==== Sys2Proof/Machine/Observe.lean ====
section
/-!
DEFINITION. Counters and trace commands (R533-R552).
-/
namespace Sys2Proof.Machine

/-- Reset one counter (R537): VALUE 0, EPOCH + 1; a wrap counts and raises source 370. -/
def counterReset1 (i : Nat) (s : State) : State :=
  let c := s.obs.counters.get i
  let wrap := c.1 == 255
  let s := { s with obs := { s.obs with
    counters := s.obs.counters.set i ((c.1 + 1) % 256, 0),
    epochWraps := s.obs.epochWraps + b2n wrap } }
  if wrap then pend 370 s else s

/-- The effect of the write that execCounterReset makes, and its status. -/
def counterResetWrite (bitmap : BitVec 96) (s : State) : State × Nat :=
  (((List.range 96).filter (bit bitmap.toNat)).foldl (fun s i => counterReset1 i s) s, St.success)

/-- COUNTER_RESET (R537, R552). -/
def execCounterReset (who : Principal) (bitmap : BitVec 96) (s : State) : Host.Outcome State Fault Refusal :=
  .next (dictWrite who true [0, 1, 3, 4] s (counterResetWrite bitmap))

/-- The effect of the write that execCounterSnapshot makes, and its status. -/
def counterSnapshotWrite (value : Bool) (s : State) : State × Nat :=
  (if value then { s with obs := { s.obs with snap := s.obs.counters, snapTime := s.now } } else s, St.success)

/-- COUNTER_SNAPSHOT (R538): FALSE has no effect (R442). -/
def execCounterSnapshot (who : Principal) (value : Bool) (s : State) : Host.Outcome State Fault Refusal :=
  .next (dictWrite who true [0, 1, 3, 4] s (counterSnapshotWrite value))

/-- A write of TRACE_ARM (R548). -/
def traceArm (on : Bool) (s : State) : State :=
  if on then
    let o := s.obs
    traceRec 4 0 (syncPayload s) 0 { s with obs := { o with
      arm := true, state := 1, buffer := Tbl.const none, fired := Tbl.const false, seq := 0, stored := 0, writeIndex := 0,
      sinceSync := 0, windowLeft := 0, gapDropped := 0, gapTime := 0, trigIndex := 0, trigSeq := 0 } }
  else { s with obs := { s.obs with arm := false, state := 0 } }

/-- The effect of the write that execTraceArm makes, and its status. -/
def traceArmWrite (on : Bool) (s : State) : State × Nat :=
  if traceOpen s then (traceArm on s, St.success) else (s, St.entryState)

/-- TRACE_ARM (R540, R548). -/
def execTraceArm (who : Principal) (on : Bool) (s : State) : Host.Outcome State Fault Refusal :=
  .next (dictWrite who false [3] s (traceArmWrite on))

/-- The effect of the write that execTraceTriggerNow makes, and its status. -/
def traceTriggerWrite (value : Bool) (s : State) : State × Nat :=
  if !traceOpen s then (s, St.entryState)
  else (if value then traceFire 4 0 false s else s, St.success)

/-- TRACE_TRIGGER_NOW (R546): trigger 4, once. -/
def execTraceTriggerNow (who : Principal) (value : Bool) (s : State) : Host.Outcome State Fault Refusal :=
  .next (dictWrite who false [3] s (traceTriggerWrite value))

/-- The effect of the write that execTraceMarker makes, and its status. -/
def traceMarkerWrite (marker value : BitVec 64) (s : State) : State × Nat :=
  if !traceOpen s then (s, St.entryState)
  else (traceRec 5 0 marker.toNat value.toNat (traceWatch 4 false marker.toNat s), St.success)

/-- TRACE_MARKER (R541, R546): the firmware's MARKER record. -/
def execTraceMarker (who : Principal) (marker value : BitVec 64) (s : State) : Host.Outcome State Fault Refusal :=
  .next (dictWrite who false [4] s (traceMarkerWrite marker value))

/-- One pair's PC record (R542, R543): none while the pair is under reset; a halted pair carries HALTED and STALL 0. -/
def pcRecord (pair : Bool) (pc stall target : Nat) (s : State) : State :=
  if !bit s.obs.pcSelect (b2n pair) || (s.rcv.hist.get (b2n pair)).resetting then s
  else
    let halted := (s.lcc.harts.get (b2n pair)).halted
    let stall := if halted then 0 else stall
    let s := traceWatch 1 pair pc s
    traceRec 1 (b2n pair + stall * 2 + b2n halted * 8) pc (if stall == 1 then target else 0xFFFF) s

/-- The counter comparators (R546 KIND 3) look at the counters. -/
def watchCounters (s : State) : State :=
  (rangeFrom 0 4).foldl (fun s i =>
    let c := s.obs.trig.get i
    let v := s.obs.counters.get (c.value % 2 ^ 16)
    if c.kind == 3 && decide (c.threshold ≤ v.2 % 2 ^ 48) then traceFire i (v.1 * 2 ^ 56 + v.2) false s else s) s

/-- TRACE_PC_SAMPLE (R542): what each pair's observation port shows, as (pair, PC, STALL, STALL_TARGET). -/
def execTracePcSample (pc : List (Bool × BitVec 64 × BitVec 2 × BitVec 16)) (s : State) : Host.Outcome State Fault Refusal :=
  .next <|
    if s.obs.state == 0 || !traceOpen s then s
    else pc.foldl (fun s e => pcRecord e.1 e.2.1.toNat e.2.2.1.toNat e.2.2.2.toNat s) (watchCounters s)

end Sys2Proof.Machine
end

