-- ==== Sys2Proof/Machine/Domain.lean ====
section
/-!
DEFINITION. Domain formation, key release, halyard, abort and dissolution (R104-R137), and the certificate cache (R122).
-/
namespace Sys2Proof.Machine

/-! ### Joining (R104, R108) -/

/-- The conditions of R104 behind the operands' own. -/
def joinChecks (s : State) (sl id attempt : Nat) : List (Bool × Nat × Nat) :=
  let d := s.domain sl
  [(d.state == 0, St.sliceBusy, 1), (decide (s.lcc.state ∈ [0x30, 0x40, 0x50]), St.identityState, 2),
   (s.vault.state == 0 && s.atu.diceLock && !s.atu.identityFault, St.identityState, 3),
   (decide (22 ≤ (freeSlots s sl).length), St.resourceExhausted, 8),
   (d.joined.all (fun j => j.1 != id || decide (j.2 < attempt)), St.attemptStale, 5)]

/-- Are the reserved fields of a member list zero (R15, R106)? -/
def listOk (count : Nat) (list : Bytes) : Bool :=
  (List.range count).all (fun m => field list (64 * m + 0x32) 2 == 0 && field list (64 * m + 0x38) 8 == 0)

/-- The join parameters that SMR is extended with (R92, R104): the operands, then the member-list digest (log 37). -/
def joinParams (id attempt member masthead count : Nat) (list : Bytes) : Bytes :=
  leBytes 8 id ++ leBytes 4 attempt ++ leBytes 2 member ++ leBytes 2 masthead ++ leBytes 2 count ++ digestBytes (Config.sha384 list)

/-- The formation timeouts in force, in the order of 0x3830 (R138). -/
def timeouts (s : State) : List Nat := [s.dom.rollBaseMs, s.dom.rollLevelMs, s.dom.rollCallMs, s.dom.ackBaseUs, s.dom.releaseMs, s.dom.formationMs]

/-- A slice is armed. Its sheaf identifiers and its migrations are those of a new attempt (R314, R429). -/
def joinSlice (sl id attempt member masthead count : Nat) (list : Bytes) (s : State) : State :=
  let s := updDom sl (fun d => { clearFormation d with
    id := id, attempt := attempt, member := member, masthead := masthead, count := count, included := 0, fenceMs := 30000, rereqMs := 2,
    evidence := [], digestTable := [], list := list, policy := [], nonce := [], ownEvidence := [], seqIn := Tbl.const 0, seqOut := Tbl.const 0,
    relayed := false, held := d.held, flags := 0, drkId := 0, tmo := timeouts s,
    joined := d.joined.filter (fun j => j.1 != id) ++ [(id, attempt)] }) s
  let s := updSlice sl (fun r => { r with migrations := 0, migChain := [] }) { s with sheaf := { s.sheaf with opened := s.sheaf.opened.set sl [] } }
  setDomState sl 1 (extendSmr sl (Config.sha384 (joinParams id attempt member masthead count list)) s)

/-! ### Roll-call (R114-R118) -/

/-- The local deadline of a child's answer (R117), in ns. -/
def answerDeadline (s : State) (d : Dom) (m : Nat) : Nat := s.now + (d.tmo.getD 0 0 + treeHeight d 4 (treePos d m) * d.tmo.getD 1 0) * 1000000

/-- The bodies of ROLL_CHALLENGE and ROLL_ANSWER (R111). -/
def challengeBody (policy : Bytes) (listDigest : BitVec 384) (nonce evidence : Bytes) (certs : List Bytes) : Bytes :=
  policy ++ digestBytes listDigest ++ nonce ++ evidence ++ certs.flatten
def answerBody (evidence : Bytes) (certs : List Bytes) (statement : Bytes) : Bytes := evidence ++ certs.flatten ++ statement

/-- Challenge a member below, by the tree or by adoption (R114, R117). -/
def challenge (sl m : Nat) (adopted : Bool) (s : State) : State :=
  let d := s.domain sl
  if m == d.member || d.children.any (fun c => c.member == m) then s
  else
    let c : Child := {
      member := m, adopted, state := 0, evidence := 0, aggregate := 0, entries := [], exceptions := [], slot := none,
      deadline := answerDeadline s d m, ack := 0, resent := false, keyed := 0, failed := [] }
    sendDom sl m 1 (challengeBody d.policy (Config.sha384 d.list) (fit 32 d.nonce) d.ownEvidence s.atu.certs)
      (updDom sl (fun d => { d with children := d.children ++ [c] }) s)

/-- Change a child. -/
def updChild (sl m : Nat) (f : Child → Child) (s : State) : State :=
  updDom sl (fun d => { d with children := mapIf (fun c => c.member == m) f d.children }) s

/-- Can the ATU sign (R88, R89)? -/
def canIssue (s : State) : Bool := entOk s && pkeRuns s

/-- Send this member's answer (R114). A member that challenged no one sends no aggregate statement; one that cannot sign its statement
sends no answer (log 38). -/
def sendAnswer (sl : Nat) (s : State) : State :=
  let d := s.domain sl
  match d.parent with
  | none => s
  | some p =>
    if d.children.isEmpty then sendDom sl p 2 (answerBody d.ownEvidence s.atu.certs []) s
    else if !canIssue s then s
    else
      let (st, s) := signed "PELGEN-S4/AGGREGATE" (statementBody d) s
      sendDom sl p 2 (answerBody d.ownEvidence s.atu.certs st) s

/-- The members that have not answered are excepted at the end of roll-call (R121). -/
def exceptLate (sl : Nat) (s : State) : State :=
  (((s.domain sl).children.filter (·.state == 0)).map (·.member)).foldl (fun s m => updChild sl m (fun c => { c with state := 2 })
    (updDom sl (fun d => { d with exceptions := d.exceptions ++ exceptionEntry m 0x01 }) s)) s

/-- DOMAIN_FORM completes with a status; DETAIL is the count of included members. -/
def endForm (sl st n : Nat) (s : State) : State :=
  match (s.domain sl).formKey with | some k => finish k st n s | none => s

/-- The status of DOMAIN_FORM, and the end of roll-call on the masthead (R114 step 5, R119, R121). A masthead that cannot sign the
evidence refuses the command, and the formation ends (R80, log 38). -/
def finishForm (sl : Nat) (timedOut : Bool) (s : State) : State :=
  let s := exceptLate sl s
  let d := s.domain sl
  if !canIssue s then originate sl 8 (d.member * 256) (endForm sl St.entropyFailure 0 s)
  else
    let table := digestTable d
    let exc := allExceptions d
    let (ev, s) := signed "PELGEN-S4/DOMAIN" (domainBody d table exc) s
    let n := tableCount table
    let s := updDom sl (fun d => { d with roll := 2, evidence := ev, digestTable := table, included := n }) s
    if timedOut || decide (field d.policy 0xC 2 < exc.length / 4) then originate sl 8 (d.member * 256) (endForm sl St.formationFailed n s)
    else
      let s := updDom sl (fun d => { d with provable := true, formedAt := some s.now, formKey := none }) (endForm sl St.success n s)
      raise [sl, 16] 3 0x8001 (1 + d.attempt * 2 ^ 32) s

/-- Roll-call goes on once every tree child and adoptee is resolved (R114 steps 4 and 5). -/
def progress (sl : Nat) (s : State) : State :=
  let d := s.domain sl
  if d.roll != 1 || d.children.any (fun c => c.state == 0) then s
  else if d.member == d.masthead then finishForm sl false s
  else sendAnswer sl (updDom sl (fun d => { d with roll := 2 }) s)

/-- A member below is excepted and its children adopted (R115, R117, R118). The ABORT goes to a member that answered. -/
def exceptMember (sl m code : Nat) (s : State) : State :=
  let s := updChild sl m (fun c => { c with state := 2 }) (updDom sl (fun d => { d with exceptions := d.exceptions ++ exceptionEntry m code }) s)
  let d := s.domain sl
  let s := if code = 0x01 then s else sendDom sl m 6 (abortBody 8 0 d.member (code + m * 256)) s
  progress sl ((treeChildren d m).foldl (fun s x => challenge sl x true s) s)

/-- Generate the slice's domain pair, unless it is there (R113). -/
def domainPair (sl : Nat) (s : State) : State :=
  if (s.pke.get (2 + sl)).valid then s
  else
    let (r, s) := keyBits 512 s
    let seed := leBytes 64 r.toNat
    pkeDone { s with pke := s.pke.set (2 + sl) { valid := true, seed, pub := hybridPub seed } }

/-- Does a slice take a challenge from a sender: its tree parent or an ancestor that adopts it (R114 step 2, R117)? -/
def fromAbove (d : Dom) (sender : Nat) : Bool := d.member != d.masthead && decide (sender ∈ (ancestors d 4 d.member).tail)

/-- The halyard parent of a member changes: the secret and the edge of the former one are discarded (R117). -/
def leaveParent (sl : Nat) (s : State) : State :=
  let d := s.domain sl
  let s := match d.parentSlot with | some n => zeroizeSlot n s | none => s
  match d.parent with
  | some p => closeEdge sl p s
  | none => s

/-- A member has a parent, its secret and its evidence: it challenges its children, or answers (R114 steps 2 and 3). -/
def joinTree (sl sender slot : Nat) (hs : BitVec 256) (ct policy nonce : Bytes) (s : State) : State :=
  let d := s.domain sl
  let s := putKey sl 0 slot 1 true hs (halyardId d sender d.member) s
  let s := openEdges sl d.member sender hs s
  let (ev, s) := signed "PELGEN-S4/EVIDENCE" (evidenceBody s sl nonce ct) s
  let s := updDom sl (fun d => { d with parent := some sender, parentSlot := some slot, policy := policy, nonce := nonce, ownEvidence := ev }) s
  if d.roll = 0 then
    progress sl ((treeChildren d d.member).foldl (fun s m => challenge sl m false s) (updDom sl (fun d => { d with roll := 1 }) s))
  else if d.roll = 1 then s
  else sendAnswer sl s

/-- A member processes a challenge that its header admits (R114 step 2). A failed check discards it; so does a pair, a secret or a
signature that cannot be made (log 38). -/
def processChallenge (sl sender : Nat) (policy : Bytes) (listDigest : BitVec 384) (nonce e : Bytes) (certs : List Bytes) (s : State) : State :=
  let d := s.domain sl
  if d.state != 1 || d.drk.isSome || !fromAbove d sender || !policyOk policy || listDigest != Config.sha384 d.list || !entOk s || !pkeRuns s ||
      !kweRuns s then s
  else match checkEvidence sl sender policy nonce e certs s with
    | (some _, s) => s
    | (none, s) =>
      let s := domainPair sl s
      let (rnd, s) := drbgBits 256 s
      let (ct, ss) := Config.mlkemEncaps (evEk e) (leBytes 32 rnd.toNat)
      match Config.ecdhAgree (s.pke.get (2 + sl)).seed (evEcdh e) with
      | none => s
      | some x =>
        let s := leaveParent sl s
        match freeSlots s sl with
        | [] => s
        | n :: _ => joinTree sl sender n (halyardSecret d (leBytes 32 ss.toNat ++ beBytes 48 x.toNat) sender d.member) ct policy nonce (pkeDone (pkeDone s))

/-- ROLL_CHALLENGE (R108, R110, R114): an unarmed slice holds it for its DOMAIN_JOIN. -/
def execRollChallenge (slc : BitVec 4) (h : DomHdr) (policy : Bytes) (listDigest : BitVec 384) (nonce evidence : Bytes) (certs : List Bytes) (s : State) :
    Host.Outcome State Fault Refusal :=
  .next <|
    let sl := slc.toNat
    if !s.rcv.fwRunning then s
    else fromInbox sl h 1 (challengeBody policy listDigest nonce evidence certs) s (fun s =>
      if (s.domain sl).state == 0 then
        updDom sl (fun d => { d with held := some { header := h, policy, listDigest, nonce, evidence, certs, at_ := s.now } }) s
      else admitDom sl h s (processChallenge sl h.sender.toNat policy listDigest nonce evidence certs))

/-- ROLL_CHALLENGE_HOLD_EXPIRY (R108). -/
def execRollChallengeHoldExpiry (slc : BitVec 4) (s : State) : Host.Outcome State Fault Refusal :=
  .next (updDom slc.toNat (fun d => { d with held := none }) s)

/-- A held challenge is processed when its slice has been armed for it (R108). -/
def takeHeld (slc : BitVec 4) (s : State) : State :=
  match (s.domain slc.toNat).held with
  | none => s
  | some c =>
    let s := updDom slc.toNat (fun d => { d with held := none }) s
    admitDom slc.toNat c.header s (processChallenge slc.toNat c.header.sender.toNat c.policy c.listDigest c.nonce c.evidence c.certs)

/-- DOMAIN_JOIN (R104, R105, R373). -/
def execDomainJoin (h : CmdHdr) (id : BitVec 64) (attempt : BitVec 32) (member masthead count : BitVec 16) (listBva : BitVec 64) (x : Option XFault)
    (list : Bytes) (s : State) : Host.Outcome State Fault Refusal :=
  .next (cexRun h 0x0500 [(0x18, 8, id.toNat), (0x20, 4, attempt.toNat), (0x24, 2, member.toNat), (0x26, 2, masthead.toNat), (0x28, 2, count.toNat),
      (0x30, 8, listBva.toNat)] s (fun s =>
    let sl := hdrSlice h
    checked h ((id != 0 && decide (1 ≤ count.toNat) && decide (count.toNat ≤ 4096) && decide (member.toNat < count.toNat) &&
        decide (masthead.toNat < count.toNat) && aligned8 listBva, St.invalidOperand, 0) :: joinChecks s sl id.toNat attempt.toNat) s (fun s =>
      match x with
      | some f => xltFault h.key h.ctx.toNat f s
      | none =>
        let l := fit (64 * count.toNat) list
        checked h [(listOk count.toNat l, St.reservedField, 0)] s (fun s =>
          takeHeld (BitVec.ofNat 4 sl) (finish h.key St.success 0
            (joinSlice sl id.toNat attempt.toNat member.toNat masthead.toNat count.toNat l s))))))

/-- An answer that passed every check: the halyard secret of its edge (R114 step 4, R118). An unusable ECDH key counts as no
answer (log 36). -/
def acceptAnswer (sl sender : Nat) (e st : Bytes) (s : State) : State :=
  let d := s.domain sl
  let seed := (s.pke.get (2 + sl)).seed
  match Config.ecdhAgree seed (evEcdh e), freeSlots s sl with
  | none, _ => exceptMember sl sender 0x01 s
  | some _, [] => exceptMember sl sender 0x0C s
  | some x, n :: _ =>
    let hs := halyardSecret d (leBytes 32 (Config.mlkemDecaps seed (evCt e)).toNat ++ beBytes 48 x.toNat) d.member sender
    let s := openEdges sl d.member sender hs (putKey sl 0 n 1 true hs (halyardId d d.member sender) (pkeDone (pkeDone s)))
    let agg := if st.isEmpty then 0 else Config.sha384 st
    let k := 100 * field st 0x14 2
    progress sl (updChild sl sender (fun c => { c with
      state := 1, slot := some n, evidence := Config.sha384 e, aggregate := agg
      entries := statementEntry sender (!st.isEmpty) c.adopted (Config.sha384 e) (if st.isEmpty then [] else digestBytes agg) ++
        (if st.isEmpty then [] else slice st 0x40 k)
      exceptions := if st.isEmpty then [] else slice st (0x40 + k) (4 * field st 0x16 2) }) s)

/-- The alias keys of a sender's certificates. -/
def aliasKeys (s : State) (certs : List Bytes) : Bytes × Bytes :=
  match (certs.map (findCert s)).drop 2 with
  | [some a, some b] => (Config.certKey a.1, Config.certKey b.1)
  | _ => ([], [])

/-- Is an answer's aggregate statement acceptable (R115 check 10)? A member with tree children is an aggregator and sends one. -/
def aggregateOk (d : Dom) (m : Nat) (keys : Bytes × Bytes) (statement : Bytes) : Bool :=
  if statement.isEmpty then (treeChildren d m).isEmpty else statementOk d m keys.1 keys.2 statement

/-- ROLL_ANSWER (R114 step 4, R115). An answer that the PKE or the KWE cannot check now counts as none (R88, log 38). -/
def execRollAnswer (slc : BitVec 4) (h : DomHdr) (evidence : Bytes) (certs : List Bytes) (statement : Bytes) (s : State) : Host.Outcome State Fault Refusal :=
  .next (takeDom slc h 2 (answerBody evidence certs statement) s (fun s =>
    let sl := slc.toNat
    let m := h.sender.toNat
    let d := s.domain sl
    match d.children.find? (fun c => c.member == m) with
    | none => s
    | some c =>
      if d.state != 1 || c.state == 1 || !pkeRuns s || !kweRuns s then s
      else if c.state == 2 then sendDom sl m 6 (abortBody 8 0 d.member (0x0B + m * 256)) s
      else match checkEvidence sl m d.policy d.nonce evidence certs s with
        | (some code, s) => exceptMember sl m code s
        | (none, s) =>
          if !aggregateOk d m (aliasKeys s certs) statement then exceptMember sl m 0x0A s
          else acceptAnswer sl m evidence statement s))

/-- ROLL_ANSWER_DEADLINE (R117). -/
def execRollAnswerDeadline (slc : BitVec 4) (member : BitVec 12) (s : State) : Host.Outcome State Fault Refusal :=
  .next <|
    let d := s.domain slc.toNat
    if d.state == 1 && d.roll == 1 && d.children.any (fun c => c.member == member.toNat && c.state == 0) then exceptMember slc.toNat member.toNat 0x01 s else s

/-- ROLL_CALL_TIMEOUT (R121). -/
def execRollCallTimeout (slc : BitVec 4) (s : State) : Host.Outcome State Fault Refusal :=
  .next <|
    let d := s.domain slc.toNat
    if d.state == 1 && d.roll == 1 && d.member == d.masthead then finishForm slc.toNat true s else s

/-! ### The masthead's commands (R108, R125, R129) -/

/-- DOMAIN_FORM (R108, R114 step 1): the masthead's own evidence meets the policy first. -/
def execDomainForm (h : CmdHdr) (policyBva : BitVec 64) (fenceMs : BitVec 32) (rereqMs : BitVec 16) (x : Option XFault) (policy : Bytes) (s : State) :
    Host.Outcome State Fault Refusal :=
  .next (cexRun h 0x0501 [(0x18, 8, policyBva.toNat), (0x20, 4, fenceMs.toNat), (0x24, 2, rereqMs.toNat)] s (fun s =>
    let sl := hdrSlice h
    let d := s.domain sl
    checked h [(aligned8 policyBva, St.invalidOperand, 0), (d.state == 1 && d.member == d.masthead && d.roll == 0, St.domainState, 0)] s (fun s =>
      match x with
      | some f => xltFault h.key h.ctx.toNat f s
      | none =>
        let p := fit 512 policy
        checked h [(policyOk p, St.reservedField, 0), (entOk s && pkeRuns s && kweRuns s, St.entropyFailure, 0)] s (fun s =>
          let (r, s1) := drbgBits 256 (domainPair sl s)
          let nonce := leBytes 32 r.toNat
          let (ev, s1) := signed "PELGEN-S4/EVIDENCE" (evidenceBody s1 sl nonce []) s1
          match checkEvidence sl d.member p nonce ev s1.atu.certs s1 with
          | (some code, _) => refuse h St.policyFailure code s
          | (none, s) =>
            let s := updDom sl (fun d => { d with
              roll := 1, policy := p, nonce := nonce, ownEvidence := ev, formKey := some h.key, tmo := timeouts s,
              fenceMs := if fenceMs = 0 then 30000 else fenceMs.toNat, rereqMs := if rereqMs = 0 then 2 else rereqMs.toNat }) s
            progress sl ((treeChildren d d.member).foldl (fun s m => challenge sl m false s) s)))))

/-! ### Keys (R66, R67, R126-R128) -/

/-- KEY_ATTR of a released key: DRV, KMAC256, not exportable (R125). -/
def drvAttr : Nat := 2 ^ 55 + 2 * 2 ^ 36

/-- Install the domain's keys (R66, R67, R128): DRK, then ERK and SSK as released or derived, then DLK and RMK. -/
def installKeys (sl ctx : Nat) (keys : List (BitVec 256)) (flags : Nat) (drkId : BitVec 128) (s : State) : State :=
  let d := s.domain sl
  let drk := keys.headD 0
  let derive (label : String) (ctx : Bytes) : BitVec 256 := Config.kmac256 (keyBytes drk) (ascii label) ctx
  let id := leBytes 8 d.id
  let erk := bit flags 0
  let ssk := bit flags 1
  match freeSlots s sl with
  | a :: b :: c :: e :: f :: _ =>
    let s := putKey sl ctx a 2 false drk drkId s
    let s := putKey sl ctx b (if erk then 2 else 1) false (if erk then keys.getD 1 0 else derive "PELGEN-S4/EXPORT-ROOT" id) 0 s
    let s := putKey sl ctx c (if ssk then 2 else 1) false (if ssk then keys.getD (1 + b2n erk) 0 else derive "PELGEN-S4/SHEAF-SEED" id) 0 s
    let s := putKey sl ctx e 1 false (derive "PELGEN-S4/LINK" id) 0 s
    let s := putKey sl ctx f 1 false (derive "PELGEN-S4/REGION" (id ++ leBytes 2 d.member)) 0 s
    let s := updDom sl (fun d => { d with drk := some a, erk := some b, ssk := some c, dlk := some e, rmk := some f, flags := flags, drkId := drkId }) s
    let edges := (s.domain sl).parent.toList ++ (((s.domain sl).children.filter (·.state == 1)).map (·.member))
    edges.foldl (fun s m => dlkEdge sl m true s) s
  | _ => s

/-- A key as a KEY blob under an edge's secret (R127). -/
def edgeBlob (d : Dom) (hs : Slot) (key : BitVec 256) (s : State) : Bytes × State :=
  let (n, s) := drbgBits 64 s
  let hdr : BlobHdr := { kind := 1, method := 1, domain := d.id, wrapId := hs.wrapId, len := 32, log2 := 0, attr := drvAttr, sequence := 0, nonce := n, bound := 0 }
  (sealSym hs.key hdr (keyBytes key), kweDone s)

/-- The slots of the keys that HALYARD_KEY carries: DRK, and ERK and SSK where released. -/
def sentKeys (d : Dom) : List Nat :=
  d.drk.toList ++ (if bit d.flags 0 then d.erk.toList else []) ++ (if bit d.flags 1 then d.ssk.toList else [])

/-- The body of HALYARD_KEY (R127). -/
def keysBody (evDigest : BitVec 384) (drkId : BitVec 128) (flags : Nat) (blobs : List Bytes) (evidence table : Bytes) : Bytes :=
  digestBytes evDigest ++ leBytes 16 drkId.toNat ++ leBytes 1 flags ++ [0, 0, 0] ++ leBytes 4 blobs.length ++ blobs.flatten ++ evidence ++ table

/-- Send HALYARD_KEY to a child (R127, R128). -/
def sendKeys (sl : Nat) (c : Child) (s : State) : State :=
  let d := s.domain sl
  match c.slot with
  | none => s
  | some n =>
    let (blobs, s) := (sentKeys d).foldl (fun (a : List Bytes × State) k =>
      let r := edgeBlob d (a.2.slot n) (a.2.slot k).key a.2
      (a.1 ++ [r.1], r.2)) ([], s)
    sendDom sl c.member 3 (keysBody (Config.sha384 d.evidence) d.drkId d.flags blobs d.evidence d.digestTable) (updChild sl c.member (fun c => { c with ack := 1 }) s)

/-- A member enters KEYED (R128 step 4): its halyard secrets go, and its parent's edge takes the DLK keys. -/
def enterKeyed (sl : Nat) (s : State) : State :=
  let d := s.domain sl
  let s := (d.parentSlot.toList ++ d.children.filterMap (·.slot)).foldl (fun s n => zeroizeSlot n s) s
  let s := updDom sl (fun d => { d with parentSlot := none, children := d.children.map (fun c => { c with slot := none }) }) s
  setDomState sl 2 (match d.parent with | some p => dlkEdge sl p false s | none => s)

/-- The failure entries of HALYARD_ACK (R111): the reasons are the model's, 1 an unwrap failure, 2 no acknowledgement (log 39). -/
def failEntry (m reason : Nat) : Bytes := leBytes 2 m ++ leBytes 1 reason ++ [0]

/-- The body of HALYARD_ACK (R111). -/
def ackBody (keyed : Nat) (fails : Bytes) : Bytes := leBytes 2 keyed ++ leBytes 2 (fails.length / 4) ++ fails

/-- Distribution goes on once every child has acknowledged or failed (R128 steps 3 to 5). -/
def ackProgress (sl : Nat) (s : State) : State :=
  let d := s.domain sl
  let cs := d.children.filter (·.state == 1)
  if d.roll != 3 || cs.any (fun c => decide (c.ack < 2)) then s
  else
    let keyed := 1 + (cs.map (·.keyed)).foldl (· + ·) 0
    let fails := cs.flatMap (·.failed)
    let s := updDom sl (fun d => { d with roll := 4 }) s
    if d.member == d.masthead then
      if !fails.isEmpty || keyed != d.included then originate sl 8 ((if fails.isEmpty then d.member else field fails 0 2) * 256) s
      else
        let s := enterKeyed sl s
        match d.releaseKey with
        | some k => finish k St.success 0 (updDom sl (fun d => { d with releaseKey := none }) s)
        | none => s
    else match d.parent with
      | some p => enterKeyed sl (sendDom sl p 4 (ackBody keyed fails) s)
      | none => s

/-- The keys go to every child in turn (R128 steps 1 and 2). -/
def distribute (sl : Nat) (s : State) : State :=
  let s := updDom sl (fun d => { d with roll := 3 }) s
  ackProgress sl (((s.domain sl).children.filter (·.state == 1)).foldl (fun s c => sendKeys sl c s) s)

/-- The keys of a list of KEY blobs under a wrapping slot, or under the store entry of a hybrid pair: all of them, or the status of
the first failure (R76, R125 check 4). -/
def openKeys (s : State) (sl : Nat) (w : Option Nat) (len : Nat) : List Bytes → Except Nat (List (BitVec 256))
  | [] => .ok []
  | b :: bs =>
    match checkBlob s sl b [kindKey] len w (2 + sl) with
    | .error e => .error e
    | .ok k =>
      let p := openBlob k b
      if !p.2 then .error St.tagFailure
      else if field b 0x30 8 != drvAttr then .error St.blobFormat
      else match openKeys s sl w len bs with
        | .error e => .error e
        | .ok ks => .ok (BitVec.ofNat 256 (leNat (fit 32 p.1)) :: ks)

/-- The parts of a release record (R124). -/
def releaseBlobs (r : Bytes) : List Bytes := (List.range (field r 7 1)).map (fun i => slice r (0x60 + 1872 * i) 1872)
def releaseKeys (r : Bytes) : Nat := 0x60 + 1872 * field r 7 1

/-- Is a release record well formed (R124)? -/
def releaseOk (r : Bytes) (len : Nat) : Bool :=
  slice r 0 6 == magicFormat "REL1" && decide (field r 6 1 < 4) && field r 7 1 == 1 + popcount 2 (field r 6 1) && allZero (slice r 0x14 12) &&
    len == releaseKeys r + 2689 + 4723

/-- DOMAIN_RELEASE (R125, R128 step 1). -/
def execDomainRelease (h : CmdHdr) (releaseBva : BitVec 64) (len : BitVec 32) (x : Option XFault) (release : Bytes) (s : State) :
    Host.Outcome State Fault Refusal :=
  .next (cexRun h 0x0502 [(0x18, 8, releaseBva.toNat), (0x20, 4, len.toNat)] s (fun s =>
    let sl := hdrSlice h
    let d := s.domain sl
    let inTime := match d.formedAt with | some t => decide (s.now ≤ t + d.tmo.getD 4 0 * 1000000) | none => false
    checked h [(aligned8 releaseBva, St.invalidOperand, 0), (d.state == 1 && d.roll == 2 && d.releaseKey.isNone && inTime, St.notReady, 1)] s (fun s =>
      match x with
      | some f => xltFault h.key h.ctx.toNat f s
      | none =>
        let r := release
        let k := releaseKeys r
        checked h [(releaseOk r len.toNat, St.reservedField, 0),
          (pkeRuns s, St.entropyFailure, 0), (field r 8 8 == d.id && field r 0x10 4 == d.attempt && slice r 0x20 48 == digestBytes (Config.sha384 d.evidence), St.releaseMismatch, 2),
          (slice d.policy 0x40 48 == digestBytes (Config.sha384 (slice r k 2689)) &&
            hybridOk (slice r k 2592) (slice r (k + 2592) 97) "PELGEN-S4/RELEASE" (slice r 0 (k + 2689)) (slice r (k + 2689) 4723), St.badSignature, 3)] s (fun s =>
          let s := pkeDone (pkeDone s)
          match openKeys s sl none 1872 (releaseBlobs r) with
          | .error e => refuse h e 4 s
          | .ok ks =>
            checked h [(decide (5 ≤ (freeSlots s sl).length), St.resourceExhausted, 8), (kweRuns s, St.entropyFailure, 0)] s (fun s =>
              distribute sl (installKeys sl h.ctx.toNat ks (field r 6 1) (BitVec.ofNat 128 (field r 0x50 16)) (updDom sl (fun d => { d with releaseKey := some h.key }) s)))))))

/-- RELEASE_TIMEOUT (R125). -/
def execReleaseTimeout (slc : BitVec 4) (s : State) : Host.Outcome State Fault Refusal :=
  .next <|
    let d := s.domain slc.toNat
    if d.state == 1 && d.formedAt.isSome && d.drk.isNone then originate slc.toNat 8 (d.member * 256) s else s

/-- The evidence and digest table of HALYARD_KEY agree (R123): the digest, MERKLE_ROOT, and the member's own entry (log 40). -/
def tableOk (d : Dom) (evDigest : BitVec 384) (evidence table : Bytes) : Bool :=
  Config.sha384 evidence == evDigest && table.length == 48 * d.count && digestBytes (tableRoot table d.count) == slice evidence 0xA0 48 &&
    slice table (48 * d.member) 48 == digestBytes (Config.sha384 d.ownEvidence)

/-- A member that could not unwrap its keys reports itself as failed (R128). -/
def failUnwrap (sl parent : Nat) (s : State) : State := sendDom sl parent 4 (ackBody 0 (failEntry (s.domain sl).member 1)) s

/-- HALYARD_KEY (R127, R128 step 2). A repetition is answered with the acknowledgement that was sent. -/
def execHalyardKey (slc : BitVec 4) (h : DomHdr) (evDigest : BitVec 384) (drkId : BitVec 128) (flags : BitVec 8) (blobs : List Bytes)
    (evidence table : Bytes) (s : State) : Host.Outcome State Fault Refusal :=
  .next (takeDom slc h 3 (keysBody evDigest drkId flags.toNat blobs evidence table) s (fun s =>
    let sl := slc.toNat
    let d := s.domain sl
    let p := h.sender.toNat
    if d.parent != some p then s
    else match d.sent.reverse.find? (fun m => m.type == 4) with
      | some m => sendDom sl p 4 m.body s
      | none =>
        if d.state != 1 || d.drk.isSome then s
        else if !tableOk d evDigest evidence table then originate sl 8 (d.member * 256) s
        else
          let fl := flags.toNat % 4
          let ok := d.parentSlot.isSome && blobs.length == 1 + popcount 2 fl && kweRuns s && decide (5 ≤ (freeSlots s sl).length)
          match ok, openKeys s sl d.parentSlot 176 blobs with
          | true, .ok ks =>
            let s := updDom sl (fun d => { d with
              evidence := evidence, digestTable := table, included := tableCount table, fenceMs := field evidence 0x100 4,
              rereqMs := field evidence 0x104 2, provable := true }) s
            distribute sl (installKeys sl 0 ks fl drkId s)
          | _, _ => failUnwrap sl p s))

/-- HALYARD_ACK (R128 steps 3 to 5). -/
def execHalyardAck (slc : BitVec 4) (h : DomHdr) (keyed : BitVec 16) (fails : List (BitVec 16 × BitVec 8)) (s : State) : Host.Outcome State Fault Refusal :=
  .next (takeDom slc h 4 (ackBody keyed.toNat (fails.flatMap (fun f => failEntry f.1.toNat f.2.toNat))) s (fun s =>
    let sl := slc.toNat
    let m := h.sender.toNat
    let fs := fails.flatMap (fun f => failEntry f.1.toNat f.2.toNat)
    if (s.domain sl).roll == 3 && (s.domain sl).children.any (fun c => c.member == m && c.state == 1 && c.ack == 1) then
      ackProgress sl (dlkEdge sl m false (updChild sl m (fun c => { c with ack := 2, keyed := keyed.toNat, failed := fs }) s))
    else s))

/-- HALYARD_ACK_DEADLINE (R128): one resend, then the child counts as failed. -/
def execHalyardAckDeadline (slc : BitVec 4) (member : BitVec 12) (s : State) : Host.Outcome State Fault Refusal :=
  .next <|
    let sl := slc.toNat
    let m := member.toNat
    match (s.domain sl).children.find? (fun c => c.member == m && c.state == 1 && c.ack == 1) with
    | none => s
    | some c =>
      if !c.resent then sendKeys sl c (updChild sl m (fun c => { c with resent := true }) s)
      else ackProgress sl (updChild sl m (fun c => { c with ack := 3, failed := failEntry m 2 }) s)

/-! ### Going live -/

/-- A member enters LIVE and sends HALYARD_LIVE to its children (R129). -/
def goLive (sl : Nat) (s : State) : State :=
  ((s.domain sl).children.filter (·.state == 1)).foldl (fun s c => sendDom sl c.member 5 [] s) (setDomState sl 3 s)

/-- DOMAIN_GO (R129). -/
def execDomainGo (h : CmdHdr) (s : State) : Host.Outcome State Fault Refusal :=
  .next (cexRun h 0x0503 [] s (fun s =>
    let d := s.domain (hdrSlice h)
    checked h [(d.state == 2 && d.member == d.masthead, St.domainState, 0)] s (fun s => finish h.key St.success 0 (goLive (hdrSlice h) s))))

/-- HALYARD_LIVE (R129). -/
def execHalyardLive (slc : BitVec 4) (h : DomHdr) (s : State) : Host.Outcome State Fault Refusal :=
  .next (takeDom slc h 5 [] s (fun s =>
    let d := s.domain slc.toNat
    if d.state == 2 && d.parent == some h.sender.toNat then goLive slc.toNat s else s))

/-! ### Ends (R128, R133-R137) -/

/-- FORMATION_TIMEOUT (R128): the slice zeroizes its slots and returns to IDLE; it sends nothing. -/
def execFormationTimeout (slc : BitVec 4) (s : State) : Host.Outcome State Fault Refusal :=
  .next <|
    let sl := slc.toNat
    if (s.domain sl).state != 1 then s
    else
      let s := endAll (inFlightOf s sl none) St.aborted 0 (zeroizeSlice sl s)
      setDomState sl 0 (updDom sl clearFormation s)

/-- ABORT (R133-R136): relayed only when its relay flag is set. -/
def execAbort (slc : BitVec 4) (h : DomHdr) (cause flags : BitVec 8) (origin : BitVec 16) (detail : BitVec 32) (s : State) : Host.Outcome State Fault Refusal :=
  .next (takeDom slc h 6 (abortBody cause.toNat flags.toNat origin.toNat detail.toNat) s (fun s =>
    let sl := slc.toNat
    if cause.toNat = 0 || 9 < cause.toNat then s
    else abortSlice sl cause.toNat origin.toNat detail.toNat (some h.sender.toNat) none
      (updDom sl (fun d => { d with relayed := d.relayed || !bit flags.toNat 0 }) s)))

/-- DISSOLVE (R137). -/
def execDissolve (slc : BitVec 4) (h : DomHdr) (s : State) : Host.Outcome State Fault Refusal :=
  .next (takeDom slc h 7 [] s (fun s => abortSlice slc.toNat 0 (s.domain slc.toNat).masthead 0 (some h.sender.toNat) none s))

/-- DOMAIN_RESEND (R111): the message named is sent again, under a fresh SEQUENCE so that it can be accepted (DEDUCED, log 41). -/
def execDomainResend (slc : BitVec 4) (h : DomHdr) (type : BitVec 16) (sequence : BitVec 64) (s : State) : Host.Outcome State Fault Refusal :=
  .next (takeDom slc h 8 (leBytes 2 type.toNat ++ leBytes 8 sequence.toNat) s (fun s =>
    match (s.domain slc.toNat).sent.find? (fun m => m.dest == h.sender.toNat && m.type == type.toNat && m.seq == sequence.toNat) with
    | some m => sendDom slc.toNat m.dest m.type m.body s
    | none => s))

/-- DOMAIN_ABORT (R133 cause OPERATOR, R136). -/
def execDomainAbort (h : CmdHdr) (detail : BitVec 32) (s : State) : Host.Outcome State Fault Refusal :=
  .next (cexRun h 0x0504 [(0x18, 4, detail.toNat)] s (fun s =>
    let d := s.domain (hdrSlice h)
    checked h [(decide (d.state ∈ [1, 2, 3]), St.domainState, 0)] s (fun s =>
      finish h.key St.success 0 (abortSlice (hdrSlice h) 7 d.member detail.toNat none (some h.key) s))))

/-- DOMAIN_DISSOLVE (R137). -/
def execDomainDissolve (h : CmdHdr) (s : State) : Host.Outcome State Fault Refusal :=
  .next (cexRun h 0x0505 [] s (fun s =>
    let d := s.domain (hdrSlice h)
    checked h [(d.state == 3 && d.member == d.masthead, St.domainState, 0)] s (fun s =>
      finish h.key St.success 0 (abortSlice (hdrSlice h) 0 d.member 0 none (some h.key) s))))

/-! ### Proofs and the certificate cache -/

/-- The inclusion proof of R123 in the layout of R373. A member whose verifier is the masthead, and the masthead itself, have no
aggregate statement. -/
def inclusionProof (s : State) (sl : Nat) : Bytes :=
  let d := s.domain sl
  let st := match d.parent with
    | some p => if p == d.masthead then [] else Config.verifierStatement d.id d.attempt d.member
    | none => []
  let sib := merkleSiblings (merkleDepth d.count) d.member (merkleLeaves d.digestTable d.count)
  ((d.ownEvidence :: s.atu.certs) ++ [st]).flatMap (fun b => leBytes 4 b.length ++ b) ++ leBytes 1 sib.length ++ sib.flatMap digestBytes

/-- DOMAIN_PROVE (R123, R373). -/
def execDomainProve (h : CmdHdr) (outBva : BitVec 64) (outLen : BitVec 32) (x : Option XFault) (s : State) : Host.Outcome State Fault Refusal :=
  .next (cexRun h 0x0506 [(0x18, 8, outBva.toNat), (0x20, 4, outLen.toNat)] s (fun s =>
    let sl := hdrSlice h
    let p := inclusionProof s sl
    checked h [(aligned8 outBva, St.invalidOperand, 0), (keyed s sl, St.domainState, 0), ((s.domain sl).provable, St.notReady, 0),
      (decide (p.length ≤ outLen.toNat), St.bufferTooSmall, p.length)] s (fun s =>
      match x with
      | some f => xltFault h.key h.ctx.toNat f s
      | none => finish h.key St.success p.length (s.emit (.dma (tableSet s h.ctx.toNat) outBva.toNat p)))))

/-- The effect of the write that execCertCacheFlush makes, and its status. -/
def certFlushWrite (value : Bool) (s : State) : State × Nat :=
  (if value then { s with dom := { s.dom with certCache := [] } } else s, St.success)

/-- CERT_CACHE_FLUSH (R122). -/
def execCertCacheFlush (who : Principal) (value : Bool) (s : State) : Host.Outcome State Fault Refusal :=
  .next (dictWrite who false [1, 4] s (certFlushWrite value))

end Sys2Proof.Machine
end

