-- ==== Sys2Proof/Machine/Shares.lean ====
section
/-!
DEFINITION. Measured rates (R553), reefing (R418) and the preemption of shared engines
(R416, R420, R421).
-/
namespace Sys2Proof.Machine

/-! ### Rates and reefing -/

/-- The engine codes of R418 beside 0-11 for the memory engines, 12 PKE, 13 KWE, 14 PLG and 15 CEX: the slice's guarantee in
1/65,536. -/
def guarantee (s : State) (sl e : Nat) : Nat :=
  let x := s.slice sl
  min 65535 (if e < 12 then x.wheel.get e * 64 else x.shares.get (e - 12) * 256)

/-- The engine code of a rate (R418): the PKE publishes three rates and the KWE two (R82, R138, log 21). -/
def reefCode (rate : Nat) : Option Nat :=
  if rate < 12 then some rate
  else match rate with | 12 | 13 | 14 => some 12 | 15 | 16 => some 13 | 17 => some 14 | 18 => some 15 | _ => none

/-- The L value of a rate, in its own unit (R70, R86, R165, R378; log 21). -/
def lRate (rate : Nat) : Nat :=
  if rate < 12 then 2880
  else match rate with | 12 => 19607 | 13 => 13605 | 14 => 7692 | 15 => 526 | 16 => 3125 | 18 => 40000 | _ => Config.plgLRate

/-- GUARANTEE_MISSED to every slice with a guarantee on an engine, and to the driver, each record counted (R418, R535). -/
def raiseMissed (e rate value : Nat) (s : State) : State :=
  (List.range 16).foldl (fun s sl =>
    let g := guarantee s sl e
    if g = 0 || (s.slice sl).state = 0 then s
    else raise [sl, 16] 8 0x8040 (e + g * 2 ^ 16 + (g * value / lRate rate) * 2 ^ 32) (obsAdd 82 2 s)) s

/-- Reefing follows the rates of an engine (R10, R418): the events at the first fall below L, at each further 1/64, and on return. -/
def reef (e rate value : Nat) (s : State) : State :=
  let l := lRate rate
  let set (o : Option Nat) (s : State) : State := { s with srg := { s.srg with reef := s.srg.reef.set rate o } }
  match s.srg.reef.get rate with
  | none => if value < l then raiseMissed e rate value (pend 353 (set (some value) s)) else s
  | some last =>
    if l ≤ value then raiseMissed e rate value (pend 353 (set none s))
    else if value * 64 + l ≤ last * 64 then raiseMissed e rate value (pend 353 (set (some value) s))
    else s

/-- A sample's value (R19, R249, R553): zero for the engine of an unpopulated stack or an unwired port, and a memory engine's capacity under
the throttle ceiling. -/
def sampleValue (s : State) (rate value : Nat) : Nat :=
  if rate < 12 then
    let t := (s.mem.cal.get rate).thr
    if !populated s rate then 0 else if t = 255 then value else min value (t * s.ods.stackPeak / 256)
  else if 19 ≤ rate && rate < 37 && !wired s (rate - 19) then 0
  else value

/-- RATE_SAMPLE (R553): the published rate is the lowest of the last four samples. The rate's number is the model's: 0-11
ME_RATE, 12-14 PKE_RATE_LATTICE, _EC, _HASH, 15 KWE_RATE_DERIVE, 16 KWE_RATE_AES, 17 PLG_RATE, 18 CEX_RATE, 19-36 LE_RATE,
37 HLE_RATE, 38 SDG_RATE, 39 SHEAF_COMBINE_RATE, 40 XLT_RATE. -/
def execRateSample (rate : BitVec 6) (value : BitVec 32) (s : State) : Host.Outcome State Fault Refusal :=
  .next <|
    let r := rate.toNat
    if 40 < r then s
    else
      let l := lastN 4 (s.sen.samples.get r ++ [sampleValue s r value.toNat])
      let v := l.foldl min (l.headD 0)
      let changed := v != s.sen.rates.get r
      let s := { s with sen := { s.sen with samples := s.sen.samples.set r l, rates := s.sen.rates.set r v } }
      let s := if changed && decide (r < 12) then pend (71 + 8 * r) s else s
      match reefCode r with
      | some e => reef e r v s
      | none => s

/-! ### Shared engines -/

/-- A shared engine switches contenders (R420, R421, R423): the one switched out counts a preemption, the one switched in is charged the cost,
and the PKE keeps the operation switched out in its context store. -/
def switchTo (unit from_ dest cost : Nat) (s : State) : State :=
  let s := if from_ < 16 then updUsage from_ (fun u => { u with preemptions := u.preemptions + 1 }) s else s
  let s := chargeEngine dest unit cost s
  { s with srg := { s.srg with
    shared := s.srg.shared.upd unit (fun e => { e with switches := e.switches + 1, switchNs := e.switchNs + cost })
    store := if unit = 0 then s.srg.store.erase dest ++ [from_] else s.srg.store } }

/-- PREEMPTION_POINT (R416, R420, R421) of the PKE 0, KWE 1, PLG 2 or CEX 3: the running contender (0-15 slices, 16 the device), the waiting
ones, the engine time of the running one since it was last charged, and the cost of a switch. -/
def execPreemptionPoint (unit : BitVec 2) (running : BitVec 5) (waiting : BitVec 17) (ran cost : BitVec 32) (s : State) :
    Host.Outcome State Fault Refusal :=
  .next <|
    let (u, r) := (unit.toNat, running.toNat)
    if 16 < r then s
    else
      let s := chargeEngine r u ran.toNat s
      match bestContender s u (windowTime s u) ((List.range 17).filter (fun c => bit waiting.toNat c && c != r)) with
      | none => s
      | some c =>
        if !lowerRatio (windowTime s u c) (shareOf s u c) (windowTime s u r) (shareOf s u r) || (u == 0 && decide (4 ≤ s.srg.store.length)) then s
        else switchTo u r c cost.toNat s

end Sys2Proof.Machine
end

