-- ==== Sys2Proof/Machine/XltOps.lean ====
section
/-!
DEFINITION. Shared operations of translation: addresses and targets (R384-R386), descriptors (R387-R390), walks (R391, R392),
the TLB (R393), and the reports of faults (R398, R399, R401).
-/
namespace Sys2Proof.Machine

/-! ### Reasons and targets -/

abbrev xNotMapped : Nat := 1
abbrev xPermission : Nat := 2
abbrev xFormat : Nat := 3
abbrev xAddressSize : Nat := 4
abbrev xAccess : Nat := 5
abbrev xTarget : Nat := 6
abbrev xNoBinding : Nat := 7
abbrev xPoison : Nat := 8

/-- A fault: REASON, STAGE, LEVEL and TABLE_WALK (R398). -/
structure XFlt where
  reason : Nat
  stage : Nat
  level : Nat
  walk : Bool
  deriving DecidableEq, Repr

/-- XLT_DETAIL (R398). -/
def XFlt.detail (f : XFlt) (write : Bool) : Nat := f.reason + f.stage * 16 + f.level * 64 + b2n write * 256 + b2n f.walk * 512

/-- The requester and the acting slice of an access on the wire (R386). -/
def dmaRequester (set : Nat) : Nat := if set = 16 then 0x10 else 0x11

/-- May an output address be accessed, privately or shared, by a table set (R384-R386, R149, R151)? The reason when not. -/
def admitOa (s : State) (set oa : Nat) (priv write : Bool) : Option Nat :=
  if bit oa 51 then (if priv && s.tdi.get set != 2 then some xTarget else none)
  else if bits oa 50 47 != 0 then some xAddressSize
  else match regionAt s (oa / 128) with
    | none => some xTarget
    | some r =>
      let x := s.region r
      let owns := x.slice == set || bit x.grants set
      if priv && (x.mode == 3 || !owns) then some xTarget
      else if !priv && x.mode != 3 then some xTarget
      else if !mayAccess s x (if set = 16 then 0x10 else set) write || (write && x.grants != 0) || x.state == 5 then some xAccess
      else none

/-! ### Descriptors (R387-R389) -/

/-- The index of an input address at a level. -/
def descIx (a level : Nat) : Nat := (a / 2 ^ (39 - 9 * level)) % 512

/-- A root or table base (R405). -/
def baseOf (v : Nat) : Nat := bits v 51 12 * 4096

/-- The base-2 logarithm of a leaf's page at a level. -/
def leafLog2 (level : Nat) (cont : Bool) : Nat := match level with | 1 => 30 | 2 => 21 | _ => if cont then 16 else 12

/-- Is a valid descriptor well formed (R388, R389)? -/
def descOk (stage level a d : Nat) : Bool :=
  let leaf := bit d 1
  bits d 55 52 == 0 && bits d 11 6 == 0 && (leaf || level != 3) && (!leaf || level != 0) &&
  (!bit d 5 || (leaf && stage == 1)) && (!bit d 4 || (leaf && level == 3)) && (leaf || bits d 3 2 == 0) &&
  (!leaf || (if bit d 4 then bits d 15 12 == bits a 15 12 else baseOf d % 2 ^ leafLog2 level false == 0))

/-- A leaf: the page base of its input and of its output, the page's logarithm, READ, WRITE and SHARED. -/
structure Leaf where
  input : Nat
  output : Nat
  log2 : Nat
  read : Bool
  write : Bool
  shared : Bool
  deriving DecidableEq, Repr

/-- The leaf that a descriptor gives for an input address. -/
def leafOf (level a d : Nat) : Leaf :=
  let n := leafLog2 level (bit d 4)
  { input := a / 2 ^ n * 2 ^ n, output := baseOf d / 2 ^ n * 2 ^ n, log2 := n, read := bit d 2, write := bit d 3, shared := bit d 5 }

/-- What one descriptor says: a fault, the next table's base, or a leaf. At stage 1 the address bits [51:48] must be 0 (R384, R388). -/
def readDesc (stage level a d : Nat) (walk : Bool) : Except XFlt (Nat ⊕ Leaf) :=
  let flt (r : Nat) : Except XFlt (Nat ⊕ Leaf) := .error { reason := r, stage, level, walk }
  if !bit d 0 then flt xNotMapped
  else if !descOk stage level a d then flt xFormat
  else if stage == 1 && bits d 51 48 != 0 then flt xAddressSize
  else if bit d 1 then .ok (.inr (leafOf level a d))
  else .ok (.inl (baseOf d))

/-! ### Walks (R392) -/

/-- The stage-1 root of a slice's PASID (R391). -/
def s1RootOf (s : State) (set pasid : Nat) : Nat :=
  match findIx (· == pasid) (s.slice set).pasids with
  | some i => s.xlt.s1root.get (set * 64 + i)
  | none => 0

/-- A walk begins: at stage 2 of its first stage-1 table address, or of its IA (R384, R391, R392, R397). -/
def beginWalk (s : State) (r : DmaReq) : Except XFlt Walk :=
  let root2 := s.xlt.s2root.get r.set
  let root1 := s1RootOf s r.set r.pasid
  let w : Walk := { req := r, joined := [], phase := 2, level1 := 0, level2 := 0, base := baseOf root2, target := r.bva, leaf1 := none }
  if 2 ^ 48 ≤ r.bva then .error { reason := xAddressSize, stage := if r.stage1 then 1 else 2, level := 0, walk := false }
  else if !bit root2 0 then .error { reason := xNotMapped, stage := 2, level := 0, walk := false }
  else if !r.stage1 then .ok w
  else if !bit root1 0 then .error { reason := xNoBinding, stage := 1, level := 0, walk := false }
  else .ok { w with phase := 0, target := baseOf root1 + 8 * descIx r.bva 0 }

/-- The output address of the descriptor that a walk reads next: a stage-2 table's, shared, or in phase 1 the stage-1
descriptor's own, private (R385, R391). -/
def nextRead (w : Walk) : Nat × Bool := if w.phase = 1 then (w.base, true) else (w.base + 8 * descIx w.target w.level2, false)

/-- The stage and level of the descriptor that a walk reads next. -/
def nextStage (w : Walk) : Nat × Nat := if w.phase = 1 then (1, w.level1) else (2, w.level2)

/-- The read of a walk's next descriptor, when it is admitted (R391). -/
def checkRead (s : State) (w : Walk) : Option XFlt :=
  let (oa, priv) := nextRead w
  (admitOa s w.req.set oa priv false).map (fun r => { reason := r, stage := (nextStage w).1, level := (nextStage w).2, walk := true })

/-- What a walk makes of a descriptor: a fault, the walk to continue, or both leaves. -/
def walkStep (s : State) (w : Walk) (d : Nat) : Except XFlt (Walk ⊕ (Leaf × Nat)) :=
  let root2 := baseOf (s.xlt.s2root.get w.req.set)
  if w.phase = 1 then
    match readDesc 1 w.level1 w.req.bva d false with
    | .error f => .error f
    | .ok (.inl next) =>
      .ok (.inl { w with phase := 0, level1 := w.level1 + 1, level2 := 0, base := root2, target := next + 8 * descIx w.req.bva (w.level1 + 1) })
    | .ok (.inr l) =>
      .ok (.inl { w with
                         phase := 2, level2 := 0, base := root2, target := l.output + (w.req.bva - l.input),
                         leaf1 := some (l.input, l.log2, l.read, l.write, l.shared) })
  else
    match readDesc 2 w.level2 w.target d (w.phase == 0) with
    | .error f => .error f
    | .ok (.inl next) => .ok (.inl { w with level2 := w.level2 + 1, base := next })
    | .ok (.inr l) =>
      if w.phase = 0 then .ok (.inl { w with phase := 1, base := l.output + (w.target - l.input) })
      else .ok (.inr (l, w.level2))

/-- The combined translation of a finished walk (R390, R393). -/
def combine (w : Walk) (l : Leaf) (use : Nat) : TlbEntry :=
  let n := match w.leaf1 with | some (_, n, _) => min n l.log2 | none => l.log2
  let oa := l.output + (w.target - l.input)
  {
    set := w.req.set, pasid := w.req.pasid, page := w.req.bva / 2 ^ n * 2 ^ n, log2 := n, ia := w.target / 2 ^ n * 2 ^ n, oa := oa / 2 ^ n * 2 ^ n,
    read := l.read && (match w.leaf1 with | some x => x.2.2.1 | none => true),
    write := l.write && (match w.leaf1 with | some x => x.2.2.2.1 | none => true),
    shared := match w.leaf1 with | some x => x.2.2.2.2 | none => false, lastUse := use }

/-! ### The TLB (R393) -/

/-- Does an entry translate an address? -/
def TlbEntry.hits (e : TlbEntry) (r : DmaReq) : Bool := e.set == r.set && e.pasid == r.pasid && decide (e.page ≤ r.bva) && decide (r.bva < e.page + 2 ^ e.log2)

/-- Does an entry, or a leaf, permit an access (R390)? -/
def permits (read write : Bool) (r : DmaReq) : Bool := (!r.read || read) && (!r.write || write)

/-- The set of an entry. -/
def TlbEntry.place (e : TlbEntry) : Nat := Config.tlbSet e.set e.pasid (e.page / 2 ^ e.log2) % 256

/-- The least recently used of some entries. -/
def oldestEntry : List TlbEntry → Option TlbEntry
  | [] => none
  | e :: es => match oldestEntry es with
    | some x => if x.lastUse < e.lastUse then some x else some e
    | none => some e

/-- Enter a translation: one of the same page is replaced, else the least recently used of a full set. -/
def tlbFill (e : TlbEntry) (x : Xlt) : Xlt :=
  let l := x.tlb.filter (fun o => !(o.set == e.set && o.pasid == e.pasid && o.page == e.page && o.log2 == e.log2))
  let mates := l.filter (fun o => o.place == e.place)
  let l := if 8 ≤ mates.length then match oldestEntry mates with | some v => l.erase v | none => l else l
  { x with tlb := l ++ [e], useCtr := x.useCtr + 1 }

/-- Forget the translations and walks of a table set, for a SLICE_RESET (R397, R403). -/
def clearSet (set : Nat) (s : State) : State :=
  { s with xlt := { s.xlt with
    s2root := s.xlt.s2root.set set 0
    s1root := (rangeFrom (set * 64) 64).foldl (fun t i => t.set i 0) s.xlt.s1root
    tlb := s.xlt.tlb.filter (fun e => e.set != set)
    walkers := (List.range 8).foldl (fun t i => match t.get i with | some w => if w.req.set = set then t.set i none else t | none => t) s.xlt.walkers
    waiting := s.xlt.waiting.filter (fun r => r.set != set) } }

/-! ### Faults and accepted accesses -/

/-- A fault of an access (R398, R399, R401): counted; the ring becomes FAULTED, or the command faults; a fault of the
firmware's own block DMA raises source 352. A command that has ended is past faulting. -/
def dmaFault (r : DmaReq) (f : XFlt) (s : State) : State :=
  let d := f.detail r.write
  let s := { s with xlt := { s.xlt with faults := s.xlt.faults.upd r.set (· + 1), lastDetail := s.xlt.lastDetail.set r.set d } }
  if r.ring then
    logError 0x17 44 (if r.set < 16 then r.set else 0xFF) 0 r.set d
      { s with cex := { s.cex with rings := s.cex.rings.upd r.set (fun x => { x with faulted := true }) } }
  else match r.key with
    | none => pend 352 s
    | some k => match s.flight k with
      | some g => if g.phase == .ready || g.phase == .running then faultCommand k 1 r.bva r.pasid d s else s
      | none => s

/-- Is an access private (R385)? -/
def isPrivate (r : DmaReq) (shared : Bool) : Bool := r.set != 16 && !(r.stage1 && shared)

/-- A translated access is checked and presented (R385, R386). -/
def present (r : DmaReq) (oa : Nat) (shared : Bool) (s : State) : State :=
  match admitOa s r.set oa (isPrivate r shared) r.write with
  | some c => dmaFault r { reason := c, stage := 3, level := 0, walk := false } s
  | none => s.emit (.access (dmaRequester r.set) r.slice oa r.write)

/-- A hit (R393). -/
def tlbHit (r : DmaReq) (e : TlbEntry) (s : State) : State :=
  let s := { s with xlt := { s.xlt with
    hits := s.xlt.hits + 1, useCtr := s.xlt.useCtr + 1, tlb := mapIf (fun x => x == e) (fun x => { x with lastUse := s.xlt.useCtr }) s.xlt.tlb } }
  present r (e.oa + (r.bva - e.page)) e.shared s

/-! ### Walkers (R392) -/

/-- Walkers that a table set holds. -/
def walkersOf (s : State) (set : Nat) : Nat :=
  ((List.range 8).filter (fun i => match s.xlt.walkers.get i with | some w => w.req.set == set | none => false)).length

/-- Is a walk in progress for the same table set, PASID and 4 KiB page? -/
def sameWalk (w : Walk) (r : DmaReq) : Bool := w.req.set == r.set && w.req.pasid == r.pasid && w.req.bva / 4096 == r.bva / 4096

/-- May a table set take another walker: fewer than four, unless no other set waits? -/
def mayWalk (s : State) (set : Nat) : Bool := decide (walkersOf s set < 4) || s.xlt.waiting.all (fun r => r.set == set)

/-- A walker asks for its next descriptor, or its walk faults. -/
def askRead (i : Nat) (w : Walk) (s : State) : State × Option XFlt :=
  match checkRead s w with
  | some f => (s, some f)
  | none =>
    let (oa, _) := nextRead w
    (({ s with xlt := { s.xlt with walkers := s.xlt.walkers.set i (some w) } }).emit (.access (dmaRequester w.req.set) w.req.slice oa false), none)

/-- A request takes a walker; a walk that cannot begin faults at once. -/
def takeWalker (i : Nat) (r : DmaReq) (s : State) : State :=
  match beginWalk s r with
  | .error f => dmaFault r f s
  | .ok w =>
    let s := { s with xlt := { s.xlt with walks := s.xlt.walks + 1 } }
    match askRead i w s with
    | (s, none) => s
    | (s, some f) => dmaFault r f s

/-- The walk in progress that serves a request (R392, R403). -/
def walkFor (s : State) (r : DmaReq) : Option Nat := (List.range 8).find? (fun i => match s.xlt.walkers.get i with | some w => sameWalk w r | none => false)

/-- A request joins a walk. -/
def joinWalk (i : Nat) (r : DmaReq) (s : State) : State :=
  { s with xlt := { s.xlt with walkers := s.xlt.walkers.upd i (fun o => o.map (fun w => { w with joined := w.joined ++ [r] })) } }

/-- Waiting requests whose page a walk now serves join it. -/
def joinWaiting (s : State) : State :=
  s.xlt.waiting.foldl (fun s r => match walkFor s r with
    | some i => joinWalk i r { s with xlt := { s.xlt with waiting := s.xlt.waiting.erase r } }
    | none => s) s

/-- Waiting requests take the walkers that are free, in order. -/
def giveWalkers : Nat → State → State
  | 0, s => s
  | n + 1, s =>
    match (List.range 8).find? (fun i => (s.xlt.walkers.get i).isNone), s.xlt.waiting.find? (fun r => mayWalk s r.set) with
    | some i, some r => giveWalkers n (joinWaiting (takeWalker i r { s with xlt := { s.xlt with waiting := s.xlt.waiting.erase r } }))
    | _, _ => s

/-- A miss joins a walk for its page or waits for a walker. -/
def missWalk (r : DmaReq) (s : State) : State :=
  let s := { s with xlt := { s.xlt with misses := s.xlt.misses + 1 } }
  match walkFor s r with
  | some i => joinWalk i r s
  | none => giveWalkers 8 { s with xlt := { s.xlt with waiting := s.xlt.waiting ++ [r] } }

/-- An access that has finished its walk: permission in both leaves (R390), then target. `level1` and `level2` are its leaves' levels. -/
def finishWalk (w : Walk) (l : Leaf) (level2 : Nat) (r : DmaReq) (s : State) : State :=
  let ok1 := match w.leaf1 with | some x => permits x.2.2.1 x.2.2.2.1 r | none => true
  let e := combine w l 0
  if !ok1 then dmaFault r { reason := xPermission, stage := 1, level := w.level1, walk := false } s
  else if !permits l.read l.write r then dmaFault r { reason := xPermission, stage := 2, level := level2, walk := false } s
  else present r (e.oa + (r.bva - e.page)) e.shared s

/-! ### Invalidation (R396) -/

/-- Does a page overlap a range? -/
def overlaps (page n base log2 : Nat) : Bool := decide (page < base + 2 ^ log2) && decide (base < page + 2 ^ n)

/-- Is a translation within a scope: 0 a stage-1 range of a PASID, 1 a PASID, 2 a stage-2 range, 3 a set? -/
def inScope (scope set pasid base log2 : Nat) (e : TlbEntry) : Bool :=
  e.set == set && match scope with
    | 0 => e.pasid == pasid && overlaps e.page e.log2 base log2
    | 1 => e.pasid == pasid
    | 2 => overlaps e.ia e.log2 base log2
    | _ => true

/-- Drop the TLB entries within a scope. -/
def dropScope (scope set pasid base log2 : Nat) (s : State) : State :=
  { s with xlt := { s.xlt with tlb := s.xlt.tlb.filter (fun e => !inScope scope set pasid base log2 e) } }

/-- May a walker hold a translation within a scope? A walk of the set may still reach any IA. -/
def walkInScope (scope set pasid base log2 : Nat) (s : State) : Bool :=
  (List.range 8).any (fun i => match s.xlt.walkers.get i with
    | some w => w.req.set == set && (match scope with
      | 0 => w.req.pasid == pasid && overlaps (w.req.bva / 4096 * 4096) 12 base log2
      | 1 => w.req.pasid == pasid
      | _ => true)
    | none => false)

/-- Invalidations complete once no walk is left in their scope (R381, R396). -/
def settleInvalidations (s : State) : State :=
  let spent (x : CmdKey × Nat × Nat × Nat × Nat × Nat) : Bool := !walkInScope x.2.1 x.2.2.1 x.2.2.2.1 x.2.2.2.2.1 x.2.2.2.2.2 s
  let ends := s.xlt.invalidating.filter spent
  let s := { s with xlt := { s.xlt with invalidating := s.xlt.invalidating.filter (fun x => !spent x) } }
  ends.foldl (fun s x => finish x.1 0 0 (dropScope x.2.1 x.2.2.1 x.2.2.2.1 x.2.2.2.2.1 x.2.2.2.2.2 s)) s

end Sys2Proof.Machine
end

