-- ==== Sys2Proof/Machine/Slices.lean ====
section
/-!
DEFINITION. Slices: creation, admission, reset and release, context bindings and usage reports (R338, R406-R425).
-/
namespace Sys2Proof.Machine

/-! ### Admission (R417) -/

/-- A value per memory engine; unpopulated engines are held as 0 (R417). -/
def perEngine (s : State) (f : Nat → Nat) : Tbl Nat := (List.range 12).foldl (fun t e => t.set e (if populated s e then f e else 0)) (Tbl.const 0)

/-- A sum over the sixteen slices. -/
def sumSlices (s : State) (f : SliceRec → Nat) : Nat := ((List.range 16).map (fun i => f (s.slice i))).foldl (· + ·) 0

/-- DEVICE_SHARE of the PKE, KWE, PLG and CEX (R437). -/
def deviceShare (u : Nat) : Nat := match u with | 0 => 32 | 1 => 32 | 3 => 16 | _ => 0

/-- Is the set of guarantees that the slices hold admitted (R417)? -/
def admitted (s : State) : Bool :=
  (List.range 12).all (fun e => !populated s e ||
    (decide (sumSlices s (fun r => r.wheel.get e) + s.srg.hostWheelSlots ≤ 1024) && decide (sumSlices s (fun r => r.ways.get e) ≤ 16))) &&
  (List.range 4).all (fun u => decide (sumSlices s (fun r => r.shares.get u) + deviceShare u ≤ 256))

/-- Wheel slots, ways and share of a profile (R419). -/
def shareProfile (p : Nat) : Nat × Nat × Nat :=
  match p with
  | 1 => (240, 4, 56)
  | 2 => (120, 2, 28)
  | 3 => (60, 1, 14)
  | 4 => (960, 16, 224)
  | _ => (0, 4, 0)

/-! ### Creation (R407-R409) -/

/-- The lowest place of `n` units of a pool beside the ranges in use (R409 step 1). -/
def firstFit (used : List (Nat × Nat)) (lo hi n : Nat) : Option (Nat × Nat) :=
  let used := used.filter (fun u => u.2 != 0)
  let ok (a : Nat) : Bool := decide (lo ≤ a) && decide (a + n ≤ hi) && (n == 0 || used.all (fun u => !overlap u (a, n)))
  match (lo :: used.map (fun u => u.1 + u.2)).filter ok with
  | [] => none
  | a :: as => some (as.foldl min a, n)

/-- The ranges of the slices in one pool. -/
def usedRanges (s : State) (f : SliceRec → Nat × Nat) : List (Nat × Nat) := (List.range 16).map (fun i => f (s.slice i))

/-- The five ranges that a creation record asks for, each with its resource code (R379, R408 condition 4). -/
def wantedRanges (s : State) (b : Bytes) : List (Option (Nat × Nat) × Nat) :=
  [(firstFit (usedRanges s (·.keys)) 32 2048 (field b 0xA 2), 8), (firstFit (usedRanges s (·.regions)) 0 4096 (field b 0xC 2), 0),
   (firstFit (usedRanges s (·.streams0)) 0 65536 (field b 0xE 2), 3), (firstFit (usedRanges s (·.streams1)) 65536 131072 (field b 0x10 2), 3),
   (firstFit (usedRanges s (·.graphKib)) 0 512 (field b 0x12 2), 0)]

/-- The PASIDs of a creation record. -/
def recordPasids (b : Bytes) : List Nat := (List.range (field b 8 2)).map (fun i => field b (0x40 + 4 * i) 4)

/-- Are the fields of a creation record valid that RESERVED_FIELD refuses (R408 condition 2)? -/
def recordFields (b : Bytes) : Bool :=
  slice b 0 6 == magicFormat "SLC1" && decide (field b 7 1 < 2) && allZero (slice b 0x14 4) && allZero (slice b 0x14E 2) && allZero (slice b 0x192 14) &&
  allZero (slice b 0x1AA 6) && allZero (slice b 0x1F0 16) && (List.range 64).all (fun i => decide (field b (0x40 + 4 * i) 4 < 2 ^ 20)) &&
  (field b 7 1 == 1 || (allZero (slice b 0x140 14) && allZero (slice b 0x150 66) && allZero (slice b 0x1A0 10) && allZero (slice b 0x1B0 64)))

/-- Are the counts of a creation record in range (R408 condition 2)? -/
def recordCounts (b : Bytes) : Bool :=
  let (p, k, r, a, c, g) := (field b 8 2, field b 0xA 2, field b 0xC 2, field b 0xE 2, field b 0x10 2, field b 0x12 2)
  decide (field b 6 1 < 16) && decide (1 ≤ p) && decide (p ≤ 64) && allZero (slice b (0x40 + 4 * p) (256 - 4 * p)) && k % 16 == 0 && decide (32 ≤ k) &&
  r % 16 == 0 && decide (16 ≤ r) && a % 256 == 0 && c % 256 == 0 && g % 16 == 0 && decide (16 ≤ g) && decide (g ≤ 512)

/-- No element stands twice. -/
def noRepeats : List Nat → Bool
  | [] => true
  | x :: xs => !decide (x ∈ xs) && noRepeats xs

/-- Condition 3 of R408. -/
def pasidsFree (s : State) (ps : List Nat) : Bool := noRepeats ps && !(List.range 16).any (fun i => (s.slice i).pasids.any (fun p => decide (p ∈ ps)))

/-- The record of a slice created from a creation record (R409 steps 1, 2 and 6). -/
def newSlice (s : State) (b : Bytes) : SliceRec :=
  let (w, y, h) := shareProfile s.srg.profile
  let at_ (i : Nat) : Nat × Nat := (((wantedRanges s b).map (fun r => r.1.getD (0, 0)))[i]?).getD (0, 0)
  let pick (v dflt prof : Nat) : Nat := if v = dflt then prof else v
  {
    state := if field b 7 1 = 1 then 4 else 1, pasids := recordPasids b, published := true, creation := fit 512 b, keys := at_ 0, regions := at_ 1, streams0 := at_ 2,
    streams1 := at_ 3, graphKib := at_ 4, wheel := perEngine s (fun e => pick (field b (0x18 + 2 * e) 2) 0xFFFF w),
    ways := perEngine s (fun e => pick (field b (0x30 + e) 1) 0xFF y),
    shares := (List.range 4).foldl (fun t u => t.set u (pick (field b (0x3C + u) 1) 0xFF h)) (Tbl.const 0), usage := { periodStart := s.now } }

/-- The life-cycle, vault and identity conditions of R104. -/
def identityReady (s : State) : Bool := decide (s.lcc.state ∈ [0x30, 0x40, 0x50]) && s.vault.state == 0 && s.atu.diceLock && !s.atu.identityFault

/-- The conditions of R408; DETAIL carries the condition, above the resource code for RESOURCE_EXHAUSTED. -/
def createChecks (s : State) (b : Bytes) : List (Bool × Nat × Nat) :=
  let sl := field b 6 1
  let target := field b 7 1 == 1
  [((s.slice sl).state == 0, St.sliceBusy, 1), (recordFields b, St.reservedField, 2), (recordCounts b, St.invalidOperand, 2),
   (pasidsFree s (recordPasids b), St.invalidOperand, 3)] ++ (wantedRanges s b).map (fun r => (r.1.isSome, St.resourceExhausted, r.2 + 4 * 256)) ++
  [(admitted (updSlice sl (fun _ => newSlice s b) s), St.resourceExhausted, 5 * 256), (!target || identityReady s, St.identityState, 6),
   (!target || field b 0x140 8 != 0, St.invalidOperand, 6), (!target || (entOk s && pkeRuns s), St.entropyFailure, 0)]

/-- NONCE of a target's evidence (R428). -/
def migrationNonce (id attempt member : Nat) (source : Bytes) : Bytes :=
  (digestBytes (Config.sha384 (ascii "PELGEN-S4/MIGRATE" ++ leBytes 8 id ++ leBytes 4 attempt ++ leBytes 2 member ++ fit 48 source))).take 32

/-- A target generates its domain pair and builds its evidence record, under the identity that its creation record gives (R428). -/
def targetEvidence (sl : Nat) (b : Bytes) (s : State) : State :=
  let s := domainPair sl s
  let (id, att, m) := (field b 0x140 8, field b 0x148 4, field b 0x14C 2)
  let body := evidenceBody (updDom sl (fun d => { d with id := id, attempt := att, member := m }) s) sl (migrationNonce id att m (slice b 0x150 48)) []
  let (e, s) := signed "PELGEN-S4/EVIDENCE" body s
  updSlice sl (fun r => { r with migEvidence := e }) s

/-- The REQ_ID that the PASID table driven to the host gives a PASID (R410). -/
def reqIdOf (s : State) (pasid : Nat) : Nat :=
  ((List.range 16).find? (fun i => (s.slice i).published && decide (pasid ∈ (s.slice i).pasids))).getD 0x10

/-- An accepted creation (R409, R410). -/
def createSlice (b : Bytes) (s : State) : State :=
  let sl := field b 6 1
  let s := setTdi sl 0 (extendSmr sl (Config.sha384 (fit 512 b)) (updSlice sl (fun _ => newSlice s b) s))
  if field b 7 1 = 1 then targetEvidence sl b s else s

/-- SLICE_CREATE (R374, R407-R409): `record` is what its read returned. The record's SLICE governs (log 43). -/
def execSliceCreate (h : CmdHdr) (specBva : BitVec 64) (x : Option XFault) (record : Bytes) (s : State) : Host.Outcome State Fault Refusal :=
  .next (cexRun h 0x0600 [(0x18, 8, specBva.toNat)] s (fun s =>
    checked h [(aligned8 specBva, St.invalidOperand, 0)] s (fun s =>
      match x with
      | some f => xltFault h.key h.ctx.toNat f s
      | none => checked h (createChecks s (fit 512 record)) s (fun s => finish h.key St.success 0 (createSlice (fit 512 record) s)))))

/-! ### Reset and release -/

/-- The queues that a slice owns. -/
def ownQueues (s : State) (sl : Nat) : List Nat := s.cex.queues.findAll (fun _ q => q.state != 0 && q.owner == sl)

/-- Every command of a slice's queues ends with ABORTED, and the queues are removed (R374, R381); the records that are due are
composed first. -/
def removeQueues (sl cookie : Nat) (s : State) : State :=
  (ownQueues s sl).foldl (fun s n =>
    let ks := (s.cex.queues.get n).flights.map (·.key)
    let s := clearCapture n (endAll ks St.aborted cookie s)
    let s := ks.foldl (fun s k => completeCmd k s) s
    updQ n (fun q => { q with
      state := 0, enable := false, flights := [], hist := [], frames := [], pi := 0, ci := 0, retired := 0, fetcher := 0, rung := false,
      scalars := Tbl.const 0 }) s) s

/-- The bindings, graphs, sync counters and fence groups of a slice go. -/
def clearCommands (sl : Nat) (s : State) : State :=
  let ixs := rangeFrom (sl * 64) 64
  { s with cex := { s.cex with
    bindings := (s.cex.bindings.findAll (fun _ b => match b with | some b => b.slice == sl | none => false)).foldl (fun t c => t.set c none) s.cex.bindings
    graphs := ixs.foldl (fun t i => t.set i {}) s.cex.graphs
    syncs := ixs.foldl (fun t i => t.set i {}) s.cex.syncs
    groups := ixs.foldl (fun t i => t.set i {}) s.cex.groups } }

/-- A slice is emptied: its queues and contexts are removed, and its keys zeroized (R63, R374, R406). -/
def emptySlice (sl cookie : Nat) (s : State) : State := zeroizeSlice sl (clearCommands sl (removeQueues sl cookie s))

/-- A pending SLICE_FREEZE ends (R436). -/
def dropFreeze (sl cookie : Nat) (s : State) : State :=
  let s := match (s.slice sl).freezing with
    | some k => finish k St.aborted cookie s
    | none => s
  updSlice sl (fun r => { r with freezing := none, withdrawn := [] }) s

/-- SLICE_RESET's effect (R133 cause 9, R374, R406): the domain aborts while the member can still send; commands in flight complete
with ABORTED; every slot is zeroized; its roots and translations are cleared (R397); the TDI enters ERROR; SMR is cleared (R92); its entries leave
the PASID table (R410, log 139). The rung is counted and logged (R483). -/
def resetSlice (sl : Nat) (but : Option CmdKey) (s : State) : State :=
  let d := s.domain sl
  let cookie := abortCookie 9 d.member d.attempt
  let s := abortSlice sl 9 d.member 0 none but (dropFreeze sl cookie s)
  let s := emptySlice sl cookie (endAll (inFlightOf s sl but) St.aborted cookie s)
  let s := clearSet sl s
  let s := tdiError sl 3 { s with
    atu := { s.atu with smr := s.atu.smr.set sl 0 }, rcv := { s.rcv with sliceResets := s.rcv.sliceResets.upd sl (· + 1) } }
  logRung 2 52 sl (updSlice sl (fun r => { r with state := if r.state = 0 then 0 else 1, published := false }) s)

/-- An escalation on a slice ends (R500). -/
def endEscalation (sl : Nat) (s : State) : State :=
  { s with rcv := { s.rcv with hist := s.rcv.hist.mapEnts (fun _ h => if h.slice == sl then { h with killing := none, engineAt := none } else h) } }

/-- SLICE_RESET (R374). A slice that does not exist cannot be reset (log 44). -/
def execSliceReset (h : CmdHdr) (s : State) : Host.Outcome State Fault Refusal :=
  .next (cexRun h 0x0601 [] s (fun s =>
    checked h [((s.slice (hdrSlice h)).state != 0, St.invalidOperand, 0)] s (fun s => finish h.key St.success 0 (resetSlice (hdrSlice h) (some h.key) (endEscalation (hdrSlice h) s)))))

/-- May a slice be released (R411)? -/
def releasable (s : State) (sl : Nat) : Bool :=
  (s.slice sl).state == 1 && (s.domain sl).state == 0 && !s.mem.regions.ents.any (fun e => e.2.valid && e.2.mode != 3 && e.2.slice == sl) &&
  !s.cex.bindings.ents.any (fun e => match e.2 with | some b => b.slice == sl | none => false) && (ownQueues s sl).isEmpty

/-- The effect of the write that execSliceRelease makes, and its status. -/
def sliceReleaseWrite (slc : BitVec 4) (value : Bool) (s : State) : State × Nat :=
  let sl := slc.toNat
  if !value then (s, St.success)
  else if !releasable s sl then (s, St.entryState)
  else if tdiLocked s sl then (s, St.sliceLocked)
  else (updSlice sl (fun _ => {}) (clearSet sl (zeroizeSlice sl (clearCommands sl s))), St.success)

/-- SLICE_RELEASE (R411). -/
def execSliceRelease (who : Principal) (slc : BitVec 4) (value : Bool) (s : State) : Host.Outcome State Fault Refusal :=
  .next (dictWrite who false [1] s (sliceReleaseWrite slc value))

/-! ### Guarantees (R411, R413, R415) -/

/-- A changed record is accepted only when the set is still admitted; a refused write changes nothing (R417). -/
def admitWrite (sl : Nat) (f : SliceRec → SliceRec) (s : State) (after : State → State) : State × Nat :=
  let t := updSlice sl f s
  if admitted t then (after t, St.success) else (s, St.resourceExhausted)

/-- The effect of the write that execSliceRecordWrite makes, and its status. -/
def sliceRecordWrite (slc : BitVec 4) (sub : BitVec 8) (value : Bytes) (s : State) : State × Nat :=
  let sl := slc.toNat
  if sub != 6 && sub != 8 then (s, St.noEntry)
  else if value.length != (if sub = 6 then 24 else 4) then (s, St.typeMismatch)
  else if (s.slice sl).state == 0 then (s, St.entryState)
  else if tdiLocked s sl then (s, St.sliceLocked)
  else if sub = 6 then admitWrite sl (fun r => { r with wheel := perEngine s (fun e => field value (2 * e) 2) }) s id
  else admitWrite sl (fun r => { r with shares := (List.range 4).foldl (fun t u => t.set u (field value u 1)) (Tbl.const 0) }) s id

/-- SLICE_RECORD_WRITE (R411, R413): subindex 6 WHEEL_GUARANTEE, 8 ENGINE_SHARES. -/
def execSliceRecordWrite (who : Principal) (slc : BitVec 4) (sub : BitVec 8) (value : Bytes) (s : State) : Host.Outcome State Fault Refusal :=
  .next (dictWrite who false [1] s (sliceRecordWrite slc sub value))

/-- The lines beyond a slice's quota go (R190, R415). -/
def trimWays (sl : Nat) (s : State) : State :=
  let sets := ((s.mem.cache.filter (fun c => c.slice == sl)).map (fun c => (c.engine, setOf s c))).eraseDups
  sets.foldl (fun s e => (makeRoom (fun _ => false) (s.mem.cache.length + 1) e.1 e.2 sl ((s.slice sl).ways.get e.1 + 1) s).1) s

/-- Does a slice hold a valid tree region (R415)? -/
def holdsTree (s : State) (sl : Nat) : Bool := s.mem.regions.ents.any (fun e => e.2.valid && e.2.mode == 0 && e.2.slice == sl)

/-- The effect of the write that execMcWayQuotaWrite makes, and its status. -/
def wayQuotaWrite (slc : BitVec 4) (value : Bytes) (s : State) : State × Nat :=
  let sl := slc.toNat
  if value.length != 12 then (s, St.typeMismatch)
  else if (s.slice sl).state == 0 || (holdsTree s sl && (List.range 12).any (fun e => populated s e && decide (field value e 1 < 4))) then (s, St.entryState)
  else if tdiLocked s sl then (s, St.sliceLocked)
  else admitWrite sl (fun r => { r with ways := perEngine s (fun e => field value e 1) }) s (trimWays sl)

/-- MC_WAY_QUOTA_WRITE (R411, R415). -/
def execMcWayQuotaWrite (who : Principal) (slc : BitVec 4) (value : Bytes) (s : State) : Host.Outcome State Fault Refusal :=
  .next (dictWrite who false [1] s (wayQuotaWrite slc value))

/-! ### Contexts (R338) -/

/-- CONTEXT_BIND (R338). A bound tag, and a PASID that the slice does not hold, are refused (log 45). -/
def execContextBind (h : CmdHdr) (context : BitVec 16) (pasid : BitVec 32) (s : State) : Host.Outcome State Fault Refusal :=
  .next (cexRun h 0x0607 [(0x18, 2, context.toNat), (0x1C, 4, pasid.toNat)] s (fun s =>
    let (sl, c) := (hdrSlice h, context.toNat)
    checked h [(context != 0 && (s.cex.bindings.get c).isNone && decide (pasid.toNat ∈ (s.slice sl).pasids), St.invalidOperand, 0),
        (decide ((s.cex.bindings.findAll (fun _ b => b.isSome)).length < 4096), St.resourceExhausted, 7)] s (fun s =>
      finish h.key St.success 0 { s with cex := { s.cex with bindings := s.cex.bindings.set c (some { slice := sl, pasid := pasid.toNat }) } })))

/-- Is a command of a context in flight? -/
def contextInFlight (s : State) (c : Nat) : Bool := s.cex.queues.ents.any (fun q => q.2.flights.any (fun f => f.phase != .completed && rawCtx f.raw == c))

/-- CONTEXT_UNBIND (R338). -/
def execContextUnbind (h : CmdHdr) (context : BitVec 16) (s : State) : Host.Outcome State Fault Refusal :=
  .next (cexRun h 0x0608 [(0x18, 2, context.toNat)] s (fun s =>
    let c := context.toNat
    checked h [((match s.cex.bindings.get c with | some b => b.slice == hdrSlice h | none => false), St.invalidOperand, 0),
        (!contextInFlight s c, St.sliceBusy, 0)] s (fun s =>
      finish h.key St.success 0 { s with cex := { s.cex with bindings := s.cex.bindings.set c none } })))

/-! ### Accounting (R423-R425) -/

/-- The first 320 bytes of a usage record (R424). -/
def usageBody (s : State) (sl : Nat) (restart : Bool) : Bytes :=
  let (u, d) := ((s.slice sl).usage, s.domain sl)
  magicFormat "USG1" ++ leBytes 1 sl ++ leBytes 1 (b2n restart + 2 * b2n u.migratedIn) ++ leBytes 8 (if d.state = 0 then 0 else d.id) ++ leBytes 4 d.attempt ++
    leBytes 4 (u.seq + 1) ++ leBytes 8 u.periodStart ++ leBytes 8 s.now ++ digestBytes s.atu.deviceIdDigest ++ digestBytes s.atu.aliasDigest ++
    leBytes 8 u.queueWait ++ leBytes 8 u.started ++ leBytes 8 u.preemptions ++ (List.range 4).flatMap (fun i => leBytes 8 (u.engineNs.get i)) ++
    (List.range 12).flatMap (fun i => leBytes 8 (u.lines.get i)) ++ leBytes 8 u.reefedNs ++ leBytes 8 u.linkSent ++ leBytes 8 u.linkReceived ++ leBytes 8 0

/-- USAGE_REPORT (R424, R425). -/
def execUsageReport (h : CmdHdr) (out : BitVec 64) (opt : BitVec 8) (x : Option XFault) (s : State) : Host.Outcome State Fault Refusal :=
  .next (cexRun h 0x060A [(0x18, 8, out.toNat), (0x20, 1, opt.toNat)] s (fun s =>
    let sl := hdrSlice h
    let restart := bit opt.toNat 0
    checked h [(aligned8 out && (s.slice sl).state != 0, St.invalidOperand, 0), (entOk s && pkeRuns s, St.entropyFailure, 0)] s (fun s =>
      match x with
      | some f => xltFault h.key h.ctx.toNat f s
      | none =>
        let (b, s) := signed "PELGEN-S4/USAGE" (usageBody s sl restart) s
        let s := updUsage sl (fun u => if restart then { seq := u.seq + 1, periodStart := s.now } else { u with seq := u.seq + 1 }) s
        finish h.key St.success 0 (s.emit (.dma (tableSet s h.ctx.toNat) out.toNat b)))))

end Sys2Proof.Machine
end

