-- ==== Sys2Proof/Machine/Xlt.lean ====
section
/-!
DEFINITION. The translation unit's commands and events (R382-R405).
-/
namespace Sys2Proof.Machine

/-- The access of a block-DMA event: its table set is that of its context, or of its ring or slice (R383). -/
def dmaReq (set : BitVec 5) (pasid : BitVec 20) (stage1 : Bool) (bva : BitVec 64) (read write ring : Bool) (key : Option CmdKey) : DmaReq :=
  {
    set := set.toNat, pasid := if stage1 then pasid.toNat else 0, stage1 := stage1 && decide (set.toNat < 16), slice := set.toNat,
    bva := bva.toNat, read, write, ring, key }

/-- BLOCK_DMA_ACCESS (R386, R390, R392, R393): a hit that permits the access is presented; any other access walks. A hit that
does not permit it walks again, since widened permissions need no invalidation (R395, log 54). -/
def execBlockDmaAccess (set : BitVec 5) (pasid : BitVec 20) (stage1 : Bool) (bva : BitVec 64) (read write ring : Bool) (key : Option CmdKey)
    (s : State) : Host.Outcome State Fault Refusal :=
  .next <|
    let r := dmaReq set pasid stage1 bva read write ring key
    if 16 < r.set then s
    else match s.xlt.tlb.find? (fun e => e.hits r) with
      | some e => if permits e.read e.write r then tlbHit r e s else missWalk r s
      | none => missWalk r s

/-- A walk ends: its walker is free, its translation fills the TLB when it has one, and every access it served goes on. -/
def endWalk (i : Nat) (w : Walk) (res : Except XFlt (Leaf × Nat)) (s : State) : State :=
  let s := { s with xlt := { s.xlt with walkers := s.xlt.walkers.set i none } }
  let s := match res with
    | .error f => (w.req :: w.joined).foldl (fun s r => dmaFault r f s) s
    | .ok (l, n) =>
      let s := { s with xlt := tlbFill (combine w l s.xlt.useCtr) s.xlt }
      (w.req :: w.joined).foldl (fun s r => finishWalk w l n r s) s
  giveWalkers 8 (settleInvalidations s)

/-- TABLE_WALK_READ (R387-R392, R398, R399): a walker's descriptor, or none when its read returned poison. -/
def execTableWalkRead (walker : BitVec 3) (word : Option (BitVec 64)) (s : State) : Host.Outcome State Fault Refusal :=
  .next <|
    let i := walker.toNat
    match s.xlt.walkers.get i with
    | none => s
    | some w => match word with
      | none => endWalk i w (.error { reason := xPoison, stage := (nextStage w).1, level := (nextStage w).2, walk := true }) s
      | some d => match walkStep s w d.toNat with
        | .error f => endWalk i w (.error f) s
        | .ok (.inr l) => endWalk i w (.ok l) s
        | .ok (.inl w') => match askRead i w' s with
          | (s, none) => s
          | (s, some f) => endWalk i w' (.error f) s

/-- XLT_INVALIDATE (R376, R396): SIZE_LOG2 12 to 40 where the scope has a range; the translations go at once, and the command
completes once no walk is left in the scope. -/
def execXltInvalidate (h : CmdHdr) (bva : BitVec 64) (sizeLog2 scope : BitVec 8) (pasid : BitVec 32) (s : State) :
    Host.Outcome State Fault Refusal :=
  .next (cexRun h 0x0800 [(0x18, 8, bva.toNat), (0x20, 1, sizeLog2.toNat), (0x21, 1, scope.toNat), (0x24, 4, pasid.toNat)] s (fun s =>
    let n := sizeLog2.toNat
    let ranged := scope == 0 || scope == 2
    checked h [(decide (scope.toNat ≤ 3), St.reservedField, 0), (!ranged || (decide (12 ≤ n) && decide (n ≤ 40)), St.invalidOperand, 0),
        (decide (2 ≤ scope.toNat) || decide (pasid.toNat ∈ (s.slice (hdrSlice h)).pasids), St.invalidOperand, 0)] s (fun s =>
      let base := bva.toNat / 2 ^ n * 2 ^ n
      let s := dropScope scope.toNat (hdrSlice h) pasid.toNat base n s
      settleInvalidations { s with xlt := { s.xlt with
        invalidations := s.xlt.invalidations + 1
        invalidating := s.xlt.invalidating ++ [(h.key, scope.toNat, hdrSlice h, pasid.toNat, base, n)] } })))

/-- Walks of a set, or of its (set, PASID), start again from the new root (log 54). -/
def restartWalks (p : DmaReq → Bool) (s : State) : State :=
  let ws := (List.range 8).filterMap (fun i => match s.xlt.walkers.get i with | some w => if p w.req then some (i, w) else none | none => none)
  let s := { s with xlt := { s.xlt with
    walkers := ws.foldl (fun t x => t.set x.1 none) s.xlt.walkers
    waiting := ws.flatMap (fun x => x.2.req :: x.2.joined) ++ s.xlt.waiting } }
  giveWalkers 8 s

/-- The effect of a root write (R397, R405): the write's refusals, then the root with every TLB entry of its set or PASID gone. -/
def writeRoot (who : Principal) (stage1 : Bool) (n i : Nat) (value : BitVec 64) (s : State) : State × Nat :=
  let v := value.toNat
  let own := match who with | .slice m => m.toNat == n | _ => true
  if (stage1 && 16 ≤ n) || 17 ≤ n then (s, St.noEntry)
  else if !own then (s, St.accessDenied)
  else if who == .hostk && n < 16 && tdiLocked s n then (s, St.sliceLocked)
  else if v != baseOf v + v % 2 then (s, St.reservedField)
  else if stage1 then
    let pasid := (s.slice n).pasids[i]?
    let s := { s with xlt := { s.xlt with
      s1root := s.xlt.s1root.set (n * 64 + i) v, tlb := s.xlt.tlb.filter (fun e => !(e.set == n && some e.pasid == pasid)) } }
    (restartWalks (fun r => r.set == n && r.stage1 && some r.pasid == pasid) s, St.success)
  else
    let s := { s with xlt := { s.xlt with s2root := s.xlt.s2root.set n v, tlb := s.xlt.tlb.filter (fun e => e.set != n) } }
    (restartWalks (fun r => r.set == n) s, St.success)

/-- S2_ROOT_WRITE (R397, R404): a write of S2_ROOT of a set, or of S1_ROOT(s, i). -/
def execS2RootWrite (who : Principal) (stage1 : Bool) (set : BitVec 5) (ix : BitVec 6) (value : BitVec 64) (s : State) :
    Host.Outcome State Fault Refusal :=
  .next (dictWrite who false (if stage1 then [1, 5] else [1]) s (writeRoot who stage1 set.toNat ix.toNat value))

end Sys2Proof.Machine
end

