-- ==== Sys2Proof/Machine/Recovery.lean ====
section
/-!
DEFINITION. The recovery sequencer: context kills, watchdogs, the reset ladder, chip reset and power cycle, the error log's and
the dump's own commands (R481-R502).
-/
namespace Sys2Proof.Machine

/-! ### Context -/

/-- CONTEXT_KILL (R374, R486). A tag that is not bound to the slice is refused (log 45). -/
def execContextKill (h : CmdHdr) (context : BitVec 16) (s : State) : Host.Outcome State Fault Refusal :=
  .next (cexRun h 0x0609 [(0x18, 2, context.toNat)] s (fun s =>
    checked h [(sliceOf s context.toNat == some (hdrSlice h), St.invalidOperand, 0)] s (killContext context.toNat (some h.key) 52)))

/-! ### The engine rung -/

/-- Does a pair serve a shared source (R464)? -/
def servedBy (s : State) (pair : Bool) (n : Nat) : Bool := (s.icu.src.get (srcKey false n)).target == pair

/-- The ICU at the reset of one pair (R478). -/
def resetPairIcu (pair : Bool) (s : State) : State :=
  let src := (rangeFrom (b2n pair * 64) 64).foldl (fun t k => t.set k {}) s.icu.src
  let src := src.mapEnts (fun k c => if 128 ≤ k && c.target == pair then { c with active := false } else c)
  icuUpdateBoth { s with icu := { s.icu with src := src, pairs := s.icu.pairs.set (b2n pair) {} } }

/-- The reset of a control pair (R485): its ICU state; the open I3C transactions end as at a chip reset (R457) when the pair serves
them, and so do the SPDM sessions that it serves. -/
def resetPair (pair : Bool) (s : State) : State :=
  let i3c := servedBy s pair 384
  let doe := servedBy s pair 232
  let mctp := servedBy s pair 272
  let gone (x : Session) : Bool := (x.transport == 0 && doe) || (x.transport == 1 && mctp)
  let s := { s with
    ods := if i3c then { s.ods with trans := s.ods.trans.filter (fun t => t.path != 0), asm := [] } else s.ods
    dom := { s.dom with
      sessions := s.dom.sessions.mapEnts (fun _ x => if gone x then {} else x)
      conns := (if mctp then fun (t : Tbl SpdmConn) => t.set 1 {} else id) ((if doe then fun (t : Tbl SpdmConn) => t.set 0 {} else id) s.dom.conns) } }
  resetPairIcu pair s

/-- What an engine's reset takes besides its counted rung (R483, R485, R232). -/
def engineLoss (unit : Nat) (s : State) : State :=
  if unit = 0 then resetPair false s
  else if unit = 1 then resetPair true s
  else if unit = 22 then s.mem.ploughs.foldl (fun s p => pausePlough p.region 2 s) s
  else if unit = 45 then restartWalks (fun _ => true) { s with xlt := { s.xlt with tlb := [] } }
  else s

/-- The engine rung (R483, R484). -/
def resetEngine (unit slice : Nat) (s : State) : State := engineLoss unit (engineRung unit slice s)

/-- COMPAT_DRAIN_TIMEOUT (R360): the engine is reset at the engine rung; then the command times out. -/
def execCompatDrainTimeout (key : CmdKey) (engine : BitVec 16) (s : State) : Host.Outcome State Fault Refusal :=
  .next <| match s.flight key with
    | none => s
    | some f =>
      if f.phase != .running || f.override != some St.timeout then s
      else compatEnd key f.raw engine.toNat (resetEngine (engine.toNat % 256) (rawSlice f.raw) s)

/-- ENGINE_RESET_DONE (R484): the discarded request is issued again, and source 436 becomes pending. -/
def execEngineResetDone (unit : BitVec 8) (s : State) : Host.Outcome State Fault Refusal :=
  .next <|
    let u := unit.toNat
    if !(s.rcv.hist.get u).resetting then s
    else
      let s := { s with rcv := { s.rcv with hist := s.rcv.hist.upd u (fun h => { h with resetting := false }) } }
      let s := if u < 2 then traceRec 4 0 (syncPayload s) 0 s else s
      pend 436 ((if u = 22 then resumePloughs s else s).emit (.replay u))

/-! ### Watchdogs -/

/-- GLOBAL_STATUS (R493). -/
def globalStatus (s : State) : Nat :=
  flagWord [(0, s.rcv.fwRunning), (1, s.rcv.chipResetReq), (2, s.rcv.powerCycleReq), (3, unconsumed s.rcv != 0), (4, s.rcv.firstFatal.isSome),
    (5, s.rcv.dump.isSome), (6, s.pins.domLive), (7, s.vault.state == 1)] + s.rcv.lastCause % 16 * 2 ^ 8

/-- A unit record of a dump (R494). -/
def dumpUnit (r : BitVec 256) : DumpUnit :=
  let b := leBytes 32 r.toNat
  {
    unit := field b 0 2, stageIndex := field b 2 2, stageState := field b 4 2, slice := field b 6 1, flags := field b 7 1, context := field b 8 2,
    opcode := field b 10 2, index := field b 12 4, address := field b 16 8, occupancy := field b 24 4 }

/-- A dump is written when the buffer is empty, else the expiry is counted (R494). -/
def takeDump (unit rung : Nat) (units : List (BitVec 256)) (s : State) : State :=
  let cls (o : Option LogRec) : Nat := match o with | some r => r.cls | none => 0
  if s.rcv.dump.isSome then { s with rcv := { s.rcv with dumpsDropped := s.rcv.dumpsDropped + 1 } }
  else { s with rcv := { s.rcv with
    dumpsTaken := s.rcv.dumpsTaken + 1
    dump := some {
                   unit, rung, timer := s.now, status := globalStatus s, firstError := cls s.rcv.firstError, firstFatal := cls s.rcv.firstFatal,
                   units := (units.take 512).map dumpUnit } } }

/-- The units that R481 watches, and the shared engines among them whose first rung is context (R481; codes: log 9). -/
def watched (u : Nat) : Bool := decide (u ≤ 50) && !decide (u ∈ [2, 4, 49])
def sharedEngine (u : Nat) : Bool := decide (u ∈ [5, 6, 8, 22, 42, 45])

/-- ESCALATE_WINDOW_MS and KILL_LIMIT_US in ns (R484). -/
def escalateNs : Nat := 1000000000
def killLimitNs : Nat := 2000000

/-- Is a time within a window that ends now? -/
def within (s : State) (t : Option Nat) (ns : Nat) : Bool := match t with | some t => decide (s.now ≤ t + ns) | none => false

/-- The rung that an expiry applies (R481, R484, R485), and the cause of a chip reset (R493): 0 context, 1 engine, 2 partition,
3 chip, 5 none, while the context rung of step 1 still has its time. -/
def chooseRung (unit slice ctx : Nat) (s : State) : Nat × Nat :=
  let h := s.rcv.hist.get unit
  if unit ≤ 1 then
    if (s.rcv.hist.get (1 - unit)).resetting then (3, 4) else if within s h.engineAt escalateNs then (3, 3) else (1, 0)
  else if !sharedEngine unit then (3, 2)
  else if within s h.partitionAt escalateNs then (3, 3)
  else if within s h.engineAt escalateNs then (if h.slice == slice && decide (slice < 16) then (2, 0) else (3, 3))
  else if h.killing.isSome && decide (s.now < h.killAt + killLimitNs) then (5, 0)
  else if ctx = 0 then (1, 0) else (0, 0)

/-- A rung is applied. -/
def applyRung (rung cause unit slice ctx : Nat) (s : State) : State :=
  let hist (f : UnitHist → UnitHist) (s : State) : State := { s with rcv := { s.rcv with hist := s.rcv.hist.upd unit f } }
  match rung with
  | 0 => killContext ctx none unit (hist (fun h => { h with killing := some ctx, killAt := s.now, slice := slice }) s)
  | 1 => resetEngine unit slice s
  | 2 => resetSlice slice none (hist (fun h => { h with partitionAt := some s.now, killing := none }) s)
  | 3 => requestChipReset cause s
  | _ => s

/-- An expiry (R481, R494): counted, notified, logged, dumped, then its rung; while a chip reset or a power cycle is requested
it is logged without one (R500). -/
def expire (cls unit slice ctx : Nat) (units : List (BitVec 256)) (s : State) : State :=
  let r := if s.rcv.chipResetReq || s.rcv.powerCycleReq then (5, 0) else chooseRung unit slice ctx s
  let s := pend 432 { s with rcv := { s.rcv with wdExpiries := s.rcv.wdExpiries + 1 } }
  let s := logError cls unit (if slice < 16 then slice else 0xFF) 0 0 0 s
  applyRung r.1 r.2 unit slice ctx (takeDump unit r.1 units s)

/-- Is a unit's watchdog armed: a pair's from FW_RUNNING on, and not while its hart is halted (R481, R500, R527)? -/
def armed (s : State) (u : Nat) : Bool :=
  watched u && !s.boot.inReset && (decide (1 < u) || (s.rcv.fwRunning && !(s.lcc.harts.get u).halted))

/-- WATCHDOG_WARNING (R481): half the limit. -/
def execWatchdogWarning (unit : BitVec 8) (pair : Bool) (s : State) : Host.Outcome State Fault Refusal :=
  .next (if armed s unit.toNat then obsAdd 95 1 (icuAssert pair 25 s) else s)

/-- WATCHDOG_EXPIRY (R481, R484, R494): the stalled unit, the slice (16 and above none) and context of its work, and the unit
records of a dump. -/
def execWatchdogExpiry (unit : BitVec 8) (slc : BitVec 5) (ctx : BitVec 16) (units : List (BitVec 256)) (s : State) :
    Host.Outcome State Fault Refusal :=
  .next (if armed s unit.toNat then expire 0x1C unit.toNat slc.toNat ctx.toNat units s else s)

/-- LOCKSTEP_MISMATCH (R18, R481): an immediate expiry of the pair's watchdog; a halted pair's is held (R530). -/
def execLockstepMismatch (pair : Bool) (units : List (BitVec 256)) (s : State) : Host.Outcome State Fault Refusal :=
  .next (if s.boot.inReset || (s.lcc.harts.get (b2n pair)).halted then s else expire 0x1D (b2n pair) 16 0 units s)

/-- KILL_LIMIT_EXPIRY (R484 step 2, R486 step 5): the engine is reset; work of a killed context leaves it, and the kills that
waited for it complete. -/
def execKillLimitExpiry (unit : BitVec 8) (s : State) : Host.Outcome State Fault Refusal :=
  .next <|
    let u := unit.toNat
    let h := s.rcv.hist.get u
    let holding := u == 5 && s.cex.kills.any (fun k => kweHolds s k.2)
    if !sharedEngine u || !(h.killing.isSome || holding) then s
    else
      let s := resetEngine u (match s.kwe.current with | some r => if holding then r.who else h.slice | none => h.slice) s
      match s.kwe.current with
      | some r =>
        if holding then kweStart 257 (settleKills (({ s with kwe := { s.kwe with current := none } }).emit (.kwe r.who St.contextKilled []))) else s
      | none => s

/-- HOST_STALL (R482): logged, at most once per stack in a local second, and no rung. -/
def execHostStall (stack : BitVec 4) (s : State) : Host.Outcome State Fault Refusal :=
  .next <|
    let e := stack.toNat
    let quiet := match s.rcv.hostStallAt.get e with | some t => decide (s.now < t + 1000000000) | none => false
    if 12 ≤ e || quiet then s
    else logError 0x1E (9 + e) 0xFF 0 0 0 { s with rcv := { s.rcv with hostStallAt := s.rcv.hostStallAt.set e (some s.now) } }

/-- A kick of a pair (R481). -/
def kickWrite (pair : Bool) (s : State) : State × Nat := ({ s with rcv := { s.rcv with kickAt := s.rcv.kickAt.set (b2n pair) s.now } }, St.success)

/-- The effect of the write that execCpKick makes, and its status. -/
def cpKickWrite (pair value : Bool) (s : State) : State × Nat :=
  if value then kickWrite pair s else (s, St.success)

/-- CP_KICK (R481, R501). -/
def execCpKick (who : Principal) (pair value : Bool) (s : State) : Host.Outcome State Fault Refusal :=
  .next (dictWrite who false [4] s (cpKickWrite pair value))

/-! ### Chip reset and power cycle -/

/-- The effect of the write that execResetChipReq makes, and its status. -/
def resetChipWrite (value : Bool) (s : State) : State × Nat :=
  (if value then requestChipReset 1 s else s, St.success)

/-- RESET_CHIP_REQ (R489, R500). -/
def execResetChipReq (who : Principal) (value : Bool) (s : State) : Host.Outcome State Fault Refusal :=
  .next (dictWrite who true [0, 1] s (resetChipWrite value))

/-- CHIP_RESET_GO (R489, R493): accepted while a chip reset is requested; any other write is ignored. -/
def execChipResetGo (value : BitVec 32) (s : State) : Host.Outcome State Fault Refusal :=
  .next (if value == 0xA501 && s.rcv.chipResetReq && !s.rcv.powerCycleReq then chipResetCause s.rcv.pendingCause s else s)

/-- CHIP_COOP_TIMEOUT (R489 step 3, R491). -/
def execChipCoopTimeout (s : State) : Host.Outcome State Fault Refusal :=
  .next (if s.rcv.chipResetReq && !s.rcv.powerCycleReq then requestPowerCycle s else s)

/-! ### The log and the dump -/

/-- The effect of the write that execFirstErrorClear makes, and its status. -/
def firstErrorClearWrite (value : Bool) (s : State) : State × Nat :=
  (if value then { s with rcv := { s.rcv with firstError := none, firstFatal := none } } else s, St.success)

/-- FIRST_ERROR_CLEAR (R497): both captures empty. -/
def execFirstErrorClear (who : Principal) (value : Bool) (s : State) : Host.Outcome State Fault Refusal :=
  .next (dictWrite who true [0, 1] s (firstErrorClearWrite value))

/-- The effect of the write that execDumpClear makes, and its status. -/
def dumpClearWrite (value : Bool) (s : State) : State × Nat :=
  (if value then { s with rcv := { s.rcv with dump := none } } else s, St.success)

/-- DUMP_CLEAR (R494). -/
def execDumpClear (who : Principal) (value : Bool) (s : State) : Host.Outcome State Fault Refusal :=
  .next (dictWrite who true [0, 1, 3] s (dumpClearWrite value))

/-- The effect of a write of ERRLOG_CONSUMED (R496): an index beyond the unconsumed records is refused (log 57); OVERFLOW clears when
it advances. -/
def consumeLog (index : Nat) (s : State) : State × Nat :=
  let n := (index + 2 ^ 32 - s.rcv.consumed) % 2 ^ 32
  if unconsumed s.rcv < n then (s, St.invalidOperand)
  else ({ s with rcv := { s.rcv with consumed := index % 2 ^ 32, overflow := s.rcv.overflow && n == 0 } }, St.success)

/-- ERRLOG_CONSUMED_WRITE (R496, R501). -/
def execErrlogConsumedWrite (who : Principal) (index : BitVec 32) (s : State) : Host.Outcome State Fault Refusal :=
  .next (dictWrite who true [0, 1] s (consumeLog index.toNat))

end Sys2Proof.Machine
end

