-- ==== Sys2Proof/Machine/Spdm.lean ====
section
/-!
DEFINITION. The SPDM responder (R97-R100). The requests, their codes, their error codes and the order in which they are accepted are
DSP0274's (PRESUMED, log 12); the body of a response is that standard's encoding of the values that the manual says it carries.
-/
namespace Sys2Proof.Machine

/-! ### Sessions (R97) -/

/-- The device slots of a session: its master secret, its response-direction and its request-direction key (R97). -/
def masterSlot (n : Nat) : Nat := 4 + n
def responseSlot (n : Nat) : Nat := 12 + n
def requestSlot (n : Nat) : Nat := 20 + n

/-- Change a session. -/
def updSession (n : Nat) (f : Session → Session) (s : State) : State :=
  { s with dom := { s.dom with sessions := s.dom.sessions.upd n f } }

/-- A session ends: its three slots are zeroized. -/
def endSession (n : Nat) (s : State) : State :=
  updSession n (fun _ => {}) (zeroizeSlots (fun m _ => m == masterSlot n || m == responseSlot n || m == requestSlot n) s)

/-- A key of a session goes into its device slot, which is zeroized first when it holds another (R60, R61); `usage` is 55 DRV, 52 ENC or 53 DEC (R97). -/
def sessionKey (slot usage type : Nat) (key : BitVec 256) (s : State) : State :=
  kweDone (writeSlot slot key (attrWord usage 0 0 type 1 false false true) (bindWord 0 0xFFFF 0) 0 (zeroizeSlots (fun m _ => m == slot) s))

/-- The sessions in use (0x3810, R138). -/
def sessionsActive (s : State) : Nat := ((List.range 8).filter (fun n => (s.dom.sessions.get n).phase != 0)).length

/-! ### Connections and responses -/

def SpdmHdr.conn (m : SpdmHdr) : Nat := b2n m.mctp

def updConn (m : SpdmHdr) (f : SpdmConn → SpdmConn) (s : State) : State :=
  { s with dom := { s.dom with conns := s.dom.conns.upd (SpdmHdr.conn m) f } }

def connOf (m : SpdmHdr) (s : State) : SpdmConn := s.dom.conns.get (SpdmHdr.conn m)

/-- The greatest response that a transport carries whole: the greatest MCTP message (R451) on the management network. -/
def spdmLimit (m : SpdmHdr) : Nat := if m.mctp then 1045 else 0x40000

/-- A response leaves; one that the transport does not carry whole waits for CHUNK_GET. -/
def spdmSend (m : SpdmHdr) (code : Nat) (values : Bytes) (s : State) : State :=
  let body := Config.stdBody code values
  if body.length ≤ spdmLimit m then s.emit (.response (SpdmHdr.conn m) code body)
  else (updConn m (fun c => { c with out := body, outAt := 0 }) s).emit (.response (SpdmHdr.conn m) 0x7F (Config.stdBody 0x7F [0x0F]))

/-- ERROR (R98). -/
def spdmError (m : SpdmHdr) (code : Nat) (s : State) : State := spdmSend m 0x7F (leBytes 1 code) s

/-- A request reaches the firmware's responder (R99, R595): none is answered before FW_RUNNING, and a request in a session that is not
open on its transport is not one of that session. -/
def spdmRequest (m : SpdmHdr) (s : State) (f : State → State) : State :=
  if !s.rcv.fwRunning then s
  else
    let s := pend (if m.mctp then 272 else 232) s
    match m.session with
    | none => f s
    | some n =>
      let x := s.dom.sessions.get n.toNat
      if x.phase == 0 || x.transport != SpdmHdr.conn m then spdmError m 0x06 s else f s

/-- A request that the connection must have reached a phase for, in an agreed version. -/
def spdmAfter (phase : Nat) (m : SpdmHdr) (s : State) (f : State → State) : State :=
  spdmRequest m s (fun s =>
    if (connOf m s).phase < phase then spdmError m 0x04 s
    else if m.version.toNat != (connOf m s).version then spdmError m 0x41 s
    else f s)

/-- A request that is not one of a session. -/
def spdmClear (phase : Nat) (m : SpdmHdr) (s : State) (f : State → State) : State :=
  spdmAfter phase m s (fun s => if m.session.isSome then spdmError m 0x04 s else f s)

/-- A request of a session in a phase. -/
def spdmIn (phase : Nat) (m : SpdmHdr) (s : State) (f : Nat → State → State) : State :=
  spdmAfter 3 m s (fun s => match m.session with
    | none => spdmError m 0x0B s
    | some n => if (s.dom.sessions.get n.toNat).phase == phase then f n.toNat s else spdmError m 0x04 s)

/-- Is there an alias pair to sign with, and entropy to sign under (R80, R88, R89)? After an identity fault the ATU issues no evidence (R94). -/
def canSign (s : State) : Bool := (s.pke.get 1).valid && !s.atu.identityFault && entOk s && pkeRuns s

/-! ### Negotiation (R98) -/

/-- GET_VERSION (R98): 1.3 and 1.2. The connection starts again. -/
def execGetVersion (m : SpdmHdr) (s : State) : Host.Outcome State Fault Refusal :=
  .next (spdmRequest m s (fun s => if m.session.isSome then spdmError m 0x04 s
    else spdmSend m 0x04 [0x12, 0x13] (updConn m (fun _ => { phase := 1 }) s)))

/-- GET_CAPABILITIES (R98): it settles the version. CERT, CHAL, MEAS with signature, KEY_EX, ENCRYPT, MAC, HBEAT, KEY_UPD and CHUNK. -/
def execGetCapabilities (m : SpdmHdr) (s : State) : Host.Outcome State Fault Refusal :=
  .next (spdmRequest m s (fun s =>
    if m.session.isSome || (connOf m s).phase == 0 then spdmError m 0x04 s
    else if m.version != 0x12 && m.version != 0x13 then spdmError m 0x41 s
    else spdmSend m 0x61 (ascii "CERT CHAL MEAS_SIG KEY_EX ENCRYPT MAC HBEAT KEY_UPD CHUNK")
      (updConn m (fun c => { c with phase := 2, version := m.version.toNat }) s)))

/-- NEGOTIATE_ALGORITHMS (R98): ECDSA P-384, SHA-384, secp384r1, AES-256-GCM and the DMTF measurement specification, at DSP0274's bits. -/
def execNegotiateAlgorithms (m : SpdmHdr) (asym hash : BitVec 32) (dhe aead : BitVec 16) (spec : BitVec 8) (s : State) :
    Host.Outcome State Fault Refusal :=
  .next (spdmClear 2 m s (fun s =>
    if !bit asym.toNat 7 || !bit hash.toNat 1 then spdmError m 0x01 s
    else
      let sel := bit dhe.toNat 4 && bit aead.toNat 1
      spdmSend m 0x63 (leBytes 4 0x80 ++ leBytes 4 2 ++ leBytes 2 (b2n (bit dhe.toNat 4) * 16) ++ leBytes 2 (b2n (bit aead.toNat 1) * 2) ++
        leBytes 1 (b2n (bit spec.toNat 0)))
        (updConn m (fun c => { c with phase := 3, selected := sel }) s)))

/-! ### Certificates -/

/-- A certificate chain (R98): slot 0 the P-384 chain, slot 1 the ML-DSA-87 chain. -/
def certChain (mldsa : Bool) (s : State) : Bytes :=
  let c (i : Nat) := s.atu.certs.getD (i + b2n (!mldsa)) []
  Config.stdBody 0x02 (Config.authorityCert mldsa ++ c 0 ++ c 2)

/-- GET_DIGESTS (R98): the digests of the chains of slots 0 and 1. -/
def execGetDigests (m : SpdmHdr) (s : State) : Host.Outcome State Fault Refusal :=
  .next (spdmAfter 3 m s (fun s =>
    spdmSend m 0x01 (3 :: (digestBytes (Config.sha384 (certChain false s)) ++ digestBytes (Config.sha384 (certChain true s)))) s))

/-- GET_CERTIFICATE (R98): a part of the chain of slot 0 or 1, with what remains of it. -/
def execGetCertificate (m : SpdmHdr) (slot : BitVec 8) (off len : BitVec 16) (s : State) : Host.Outcome State Fault Refusal :=
  .next (spdmAfter 3 m s (fun s =>
    let chain := certChain (slot == 1) s
    if 1 < slot.toNat || chain.length ≤ off.toNat then spdmError m 0x01 s
    else
      let part := (chain.drop off.toNat).take len.toNat
      spdmSend m 0x02 (leBytes 1 slot.toNat ++ leBytes 2 part.length ++ leBytes 2 (chain.length - off.toNat - part.length) ++ part) s))

/-! ### Measurements (R98-R100) -/

/-- May the requester see a slice's SMR (R99)? -/
def seesSmr (m : SpdmHdr) (sl : Nat) : Bool := m.mctp || 16 ≤ m.tdi.toNat || m.tdi.toNat == sl

/-- The measurement indices that the requester may see, without 0xEF (R98, R99). -/
def visibleIndices (m : SpdmHdr) : List Nat := rangeFrom 1 12 ++ ((List.range 16).filter (seesSmr m)).map (0x10 + ·)

/-- A measurement block of a register: its index and its value. -/
def measBlock (s : State) (i : Nat) : Bytes :=
  leBytes 1 i ++ digestBytes (if i < 0x10 then s.atu.mr.get (i - 1) else s.atu.smr.get (i - 0x10))

/-- The measurement summary of CHALLENGE and KEY_EXCHANGE: nothing, or the hash of every block that the requester may see. -/
def measSummary (m : SpdmHdr) (summary : BitVec 8) (s : State) : Bytes :=
  if summary == 0 then [] else digestBytes (Config.sha384 ((visibleIndices m).flatMap (measBlock s)))

/-- The hash of a response's transcript under DSP0274, which the model does not hold: a free value (log 12). -/
def transcriptHash (s : State) : BitVec 384 × State := (s.draw 384, s.drew)

/-- The alias pair's ECDSA signature over a transcript hash (R98). -/
def spdmSign (hash : BitVec 384) (s : State) : Bytes × State :=
  let (k, s) := drbgBits 384 s
  (Config.ecdsaSign (ecPart (s.pke.get 1).seed) (leBytes 48 k.toNat) hash, pkeDone s)

/-- Block 0xEF (R100): the alias key's ML-DSA-87 signature over the transcript hash that the ECDSA signature covers. -/
def hybridBlock (hash : BitVec 384) (s : State) : Bytes × State :=
  let (r, s) := drbgBits 256 s
  (0xEF :: fit 4627 (Config.mldsaSign (mlPart (s.pke.get 1).seed) (leBytes 32 r.toNat) (ascii "PELGEN-S4/SPDM-MEAS") (digestBytes hash)), pkeDone s)

/-- The register blocks that an index names for the requester (R98, R99): index 0 names none and asks for their number. -/
def measSelect (m : SpdmHdr) (index : Nat) : Option (List Nat) :=
  if index == 0 || index == 0xEF then some []
  else if index == 0xFF then some (visibleIndices m)
  else if decide (index ∈ visibleIndices m) then some [index] else none

/-- GET_MEASUREMENTS (R100): a signed response always carries block 0xEF, which exists in no other. -/
def execGetMeasurements (m : SpdmHdr) (index : BitVec 8) (signed : Bool) (slot : BitVec 8) (nonce : BitVec 256) (s : State) :
    Host.Outcome State Fault Refusal :=
  .next (spdmAfter 3 m s (fun s =>
    match measSelect m index.toNat with
    | none => spdmError m 0x01 s
    | some is =>
      let head := (if index == 0 then leBytes 1 ((visibleIndices m).length + 1) else []) ++ is.flatMap (measBlock s)
      if signed then
        if slot != 0 then spdmError m 0x01 s
        else if !canSign s then spdmError m 0x05 s
        else
          let (hash, s) := transcriptHash s
          let (ef, s) := hybridBlock hash s
          let (own, s) := drbgBits 256 s
          let (sig, s) := spdmSign hash s
          spdmSend m 0x60 (head ++ ef ++ leBytes 32 own.toNat ++ leBytes 32 nonce.toNat ++ sig) s
      else if index == 0xEF then spdmError m 0x01 s
      else spdmSend m 0x60 head s))

/-- CHALLENGE (R98): the chain's digest, a nonce, the summary and the signature of slot 0. -/
def execChallenge (m : SpdmHdr) (slot summary : BitVec 8) (nonce : BitVec 256) (s : State) : Host.Outcome State Fault Refusal :=
  .next (spdmClear 3 m s (fun s =>
    if slot != 0 then spdmError m 0x01 s
    else if !canSign s then spdmError m 0x05 s
    else
      let (own, s) := drbgBits 256 s
      let (hash, s) := transcriptHash s
      let (sig, s) := spdmSign hash s
      spdmSend m 0x03 (digestBytes (Config.sha384 (certChain false s)) ++ leBytes 32 own.toNat ++ measSummary m summary s ++
        leBytes 32 nonce.toNat ++ sig) s))

/-! ### Sessions (R97-R99) -/

/-- KEY_EXCHANGE (R97-R99): a session of the eight opens in its handshake, its keys in its device slots. -/
def execKeyExchange (m : SpdmHdr) (slot summary : BitVec 8) (point : Bytes) (s : State) : Host.Outcome State Fault Refusal :=
  .next (spdmClear 3 m s (fun s =>
    if slot != 0 || !(connOf m s).selected then spdmError m 0x01 s
    else match (List.range 8).find? (fun n => (s.dom.sessions.get n).phase == 0) with
      | none => spdmError m 0x0A s
      | some n =>
        if !canSign s || !kweRuns s || (freePke s).isNone then spdmError m 0x05 s else exchange m n summary point s))
where
  /-- the ephemeral pair, which a transient store entry holds until the exchange completes (R90); the agreed secret; and the session -/
  exchange (m : SpdmHdr) (n : Nat) (summary : BitVec 8) (point : Bytes) (s : State) : State :=
    let (eph, s) := keyBits 384 s
    let seed := leBytes 48 eph.toNat
    (withTransient seed (Config.ecdhPub seed) (pkeDone s) (fun s =>
      match Config.ecdhAgree seed point with
      | none => ((), spdmError m 0x01 s)
      | some shared =>
        let (hash, s) := transcriptHash (pkeDone s)
        let (sig, s) := spdmSign hash s
        let secret := digestBytes shared ++ digestBytes hash
        let s := sessionKey (masterSlot n) 55 4 (Config.spdmKey secret 0) s
        let s := sessionKey (responseSlot n) 52 1 (Config.spdmKey secret 1) s
        let s := sessionKey (requestSlot n) 53 1 (Config.spdmKey secret 2) s
        let s := updSession n (fun _ => {
          phase := 1, transport := SpdmHdr.conn m, slice := if m.mctp then 16 else min m.tdi.toNat 16,
          heartbeat := s.dom.heartbeatS }) s
        ((), spdmSend m 0x64 (leBytes 1 n ++ leBytes 1 s.dom.heartbeatS ++ Config.ecdhPub seed ++ measSummary m summary s ++ sig) s))).2

/-- FINISH (R98): the handshake completes when the requester's verify data does, and the keys go over to application data. -/
def execFinish (m : SpdmHdr) (verifies : Bool) (s : State) : Host.Outcome State Fault Refusal :=
  .next (spdmIn 1 m s (fun n s =>
    if !verifies then spdmError m 0x06 (endSession n s)
    else if !kweRuns s then spdmError m 0x05 s
    else
      let master := keyBytes (s.slot (masterSlot n)).key
      let s := spdmSend m 0x65 [] s
      let s := sessionKey (responseSlot n) 52 1 (Config.spdmKey master 1) s
      let s := sessionKey (requestSlot n) 53 1 (Config.spdmKey master 2) s
      updSession n (fun x => { x with phase := 2 }) s))

/-- HEARTBEAT (R98). -/
def execHeartbeat (m : SpdmHdr) (s : State) : Host.Outcome State Fault Refusal :=
  .next (spdmIn 2 m s (fun _ s => spdmSend m 0x68 [] s))

/-- The next key of a slot after KEY_UPDATE. -/
def nextKey (slot : Nat) (s : State) : State :=
  let k := s.slot slot
  kweDone (writeSlot slot (Config.spdmKey (keyBytes k.key) 3) k.attr k.binding k.wrapId (zeroizeSlots (fun m _ => m == slot) s))

/-- KEY_UPDATE (R98): 1 the request direction, 2 both directions, 3 the new key is verified. -/
def execKeyUpdate (m : SpdmHdr) (op : BitVec 8) (s : State) : Host.Outcome State Fault Refusal :=
  .next (spdmIn 2 m s (fun n s =>
    let x := s.dom.sessions.get n
    let mark (u : Nat) := updSession n (fun x => { x with update := u })
    if op != 3 && !kweRuns s then spdmError m 0x05 s
    else if op == 3 && x.update != 0 then spdmSend m 0x69 [3] (mark 0 s)
    else if op == 1 && x.update == 0 then spdmSend m 0x69 [1] (mark 1 (nextKey (requestSlot n) s))
    else if op == 2 && x.update == 0 then spdmSend m 0x69 [2] (mark 1 (nextKey (responseSlot n) (nextKey (requestSlot n) s)))
    else spdmError m 0x01 s))

/-- END_SESSION (R98). -/
def execEndSession (m : SpdmHdr) (s : State) : Host.Outcome State Fault Refusal :=
  .next (spdmIn 2 m s (fun n s => endSession n (spdmSend m 0x6C [] s)))

/-- SPDM_HEARTBEAT_TIMEOUT (R98): no HEARTBEAT came in time (log 6). -/
def execSpdmHeartbeatTimeout (session : BitVec 3) (s : State) : Host.Outcome State Fault Refusal :=
  .next (if (s.dom.sessions.get session.toNat).phase == 2 && (s.dom.sessions.get session.toNat).heartbeat != 0 then endSession session.toNat s
    else s)

/-! ### Chunks, vendor messages and the rest -/

/-- CHUNK_SEND (R98): a chunk of a large request, in sequence. The request that the last chunk completes comes as the command of its
own row (log 12). -/
def execChunkSend (m : SpdmHdr) (handle : BitVec 8) (seq : BitVec 16) (last : Bool) (data : Bytes) (s : State) : Host.Outcome State Fault Refusal :=
  .next (spdmAfter 2 m s (fun s =>
    let c := connOf m s
    if seq.toNat != 0 && seq.toNat != c.chunk then spdmError m 0x01 (updConn m (fun c => { c with large := [], chunk := 0 }) s)
    else
      let all := (if seq == 0 then [] else c.large) ++ data
      spdmSend m 0x05 (leBytes 1 handle.toNat ++ leBytes 2 seq.toNat)
        (updConn m (fun c => if last then { c with large := [], chunk := 0 } else { c with large := all, chunk := seq.toNat + 1 }) s)))

/-- CHUNK_GET (R98): the next chunk of the large response that waits, 1,024 bytes or the rest (log 12). -/
def execChunkGet (m : SpdmHdr) (handle : BitVec 8) (seq : BitVec 16) (s : State) : Host.Outcome State Fault Refusal :=
  .next (spdmAfter 2 m s (fun s =>
    let c := connOf m s
    if c.out.isEmpty || c.outAt != 1024 * seq.toNat then spdmError m 0x01 s
    else
      let part := (c.out.drop c.outAt).take 1024
      let done := c.out.length ≤ c.outAt + 1024
      (updConn m (fun c => if done then { c with out := [], outAt := 0 } else { c with outAt := c.outAt + 1024 }) s).emit
        (.response (SpdmHdr.conn m) 0x06 (leBytes 1 handle.toNat ++ leBytes 2 seq.toNat ++ leBytes 1 (b2n done) ++ part))))

/-- VENDOR_DEFINED_REQUEST (R98, R298, R300): in a session on the host link a message of the PCI-SIG (standard 3, vendor 1) carries an
IDE_KM or TDISP message, whose own row's command answers it. To any other the manual gives no content: its answer is a free value. -/
def execVendorDefinedRequest (m : SpdmHdr) (standard vendor : BitVec 16) (_data : Bytes) (s : State) : Host.Outcome State Fault Refusal :=
  .next (spdmAfter 3 m s (fun s =>
    if m.session.isSome && !m.mctp && standard == 3 && vendor == 1 then s
    else
      let (r, s) := drawBits 512 s
      spdmSend m 0x7E (leBytes 64 r.toNat) s))

/-- SPDM_UNSUPPORTED_REQUEST (R98): ERROR with UnsupportedRequest (0x07). -/
def execSpdmUnsupportedRequest (m : SpdmHdr) (_code : BitVec 8) (s : State) : Host.Outcome State Fault Refusal :=
  .next (spdmRequest m s (spdmError m 0x07))

end Sys2Proof.Machine
end

