-- ==== Sys2Proof/Machine/DictValue.lean ====
section
/-!
DEFINITION. The value of every entry of the object dictionary in its encoding (R440), chapter by chapter.
-/
namespace Sys2Proof.Machine

/-! ### Encodings (R440) -/

def d1 (n : Nat) : Bytes := leBytes 1 n
def d2 (n : Nat) : Bytes := leBytes 2 n
def d4 (n : Nat) : Bytes := leBytes 4 n
def d8 (n : Nat) : Bytes := leBytes 8 n
def dBool (b : Bool) : Bytes := leBytes 1 (b2n b)
def dInt (i : Int) : Bytes := leBytes 4 (i % 2 ^ 32).toNat

/-- The value of a subindex of a record. -/
def pick (sub : Nat) : List (Nat × Bytes) → Bytes
  | [] => []
  | (k, v) :: rest => if k = sub then v else pick sub rest

/-- How many listed entries of a table pass a test. -/
def countOf {α : Type} (t : Tbl α) (p : Nat → α → Bool) : Nat := (t.findAll p).length

/-! ### Identity, straps, the server itself (R458-R463) -/

/-- Is DEVICE_SERIAL zero (R458)? -/
def noSerial (s : State) : Bool := s.atu.identityFault || s.vault.state == 1

/-- ENDPOINT_UUID (R459). -/
def endpointUuid (s : State) : Bytes :=
  if noSerial s then List.replicate 16 0
  else ((digestBytes s.atu.deviceIdDigest).take 16).zipIdx.map (fun b =>
    if b.2 = 6 then (b.1 &&& 0x0F) ||| 0x80 else if b.2 = 8 then (b.1 &&& 0x3F) ||| 0x80 else b.1)

def valIdentity (s : State) (ix sub : Nat) : Bytes :=
  if ix = 0x1000 then pick sub [(0, fit 8 (ascii "LIMRIN")), (1, fit 16 (ascii "PELGEN-S4")), (2, d2 0x0100), (3, d2 1), (4, d4 61703)]
  else if ix = 0x1001 then pick sub [(1, if noSerial s then List.replicate 20 0 else fit 20 s.atu.serial),
    (2, leBytes 8 (s.ods.mfgLot.getD 0).toNat), (3, endpointUuid s)]
  else if ix = 0x1002 then pick sub [(1, leBytes 16 s.ods.hostId.toNat), (2, d4 s.ods.stackPeak), (3, d4 s.ods.portPeak)]
  else if ix = 0x1003 then pick sub [(1, d4 (if s.rcv.fwRunning then s.ods.fwVersion else 0)), (2, d4 Config.bromVersion)]
  else if ix = 0x2000 then d1 (s.pins.applied.get sub)
  else if ix = 0x2001 then d1 (s.pins.vaonSample.get sub)
  else if ix = 0x2002 then d1 (strapMismatch s)
  else if ix = 0x2100 then pick sub [(1, d1 8), (2, d4 524288), (3, d2 s.ods.segIdleMs), (4, d1 s.ods.trans.length), (5, d8 s.ods.requests),
    (6, d8 s.ods.refused)]
  else if ix = 0x2101 then pick sub [(1, d2 1024), (2, d2 4080), (3, d2 4044)]
  else if ix = 0x2110 then pick sub [(1, d1 s.ods.i3cStatic), (2, d1 s.ods.i3cDynamic), (3, d1 s.ods.eid), (4, d1 s.ods.busOwner),
    (5, d8 s.ods.packetsDropped), (6, d8 s.ods.messagesDropped)]
  else if ix = 0x2120 then pick sub [(1, d1 s.ods.mbVector), (2, d8 s.ods.mbRequests)]
  else pick sub [(1, d1 s.ods.bootSource), (2, d4 s.ods.ectVersion), (3, digestBytes s.ods.ectDigest)]

/-! ### Life cycle and debug (R531, R532) -/

def valLife (s : State) (ix sub : Nat) : Bytes :=
  let l := s.lcc
  if ix = 0x3000 then pick sub [(0, d1 l.state), (1, d1 l.target), (3, d1 l.progress), (4, d2 l.result),
    (5, d1 (8 - ((List.range 8).filter (fun k => l.words.get (2 * k) != 0)).length)), (6, d1 l.tokenFailures)]
  else if ix = 0x3001 then pick sub [(1, leBytes 16 (l.deviceUid.getD 0).toNat), (3, digestBytes (l.molnorDigest.getD 0)),
    (4, (List.range 21).flatMap (fun i => d4 (l.words.get i).toNat))]
  else if ix = 0x3010 then pick sub [(1, d1 (debugScopes s)), (3, fit 112 l.challenge), (5, d2 l.debugResult), (6, d4 l.openings)]
  else if ix = 0x3030 then dBool (tapOffers l.state .idcode)
  else
    let n := ix - 0x3020
    pick sub [(1, d1 (l.dmiAddr.get n) ++ d1 (l.dmiStatus.get n) ++ d2 0 ++ d4 (l.dmiData.get n).toNat), (2, dBool (l.harts.get n).halted),
      (3, d4 (l.harts.get n).halts)]

/-! ### Keys and vault (R82-R84) -/

/-- Pool slots in no slice's partition (log 61). -/
def freePool (s : State) : Nat := 2016 - sumSlices s (fun r => r.keys.2)

/-- The attribute word with LOADED (R57). -/
def attrNow (s : State) (n : Nat) : Nat :=
  let a := (s.slot n).attr.toNat
  if slotLoaded s n then setBit a 62 else a

def valKeys (s : State) (ix sub : Nat) : Bytes :=
  if ix = 0x3400 then pick sub [(0, d2 2048), (1, d2 32), (2, d2 (freePool s))]
  else if ix = 0x3401 then d1 s.vault.state
  else if ix = 0x3402 then pick sub [(1, d2 s.vault.cause), (2, d8 s.vault.time), (3, d4 s.vault.count)]
  else if ix = 0x3403 then pick sub [(0, d2 s.vault.vbatMv), (1, d1 s.vault.mesh)]
  else if ix = 0x3410 then pick sub [(1, d2 256), (2, d2 s.kwe.queue.length), (3, d8 s.kwe.completed), (4, d8 s.kwe.refused)]
  else if ix = 0x3411 then pick sub [(1, d4 (s.sen.rates.get 15)), (2, d4 (s.sen.rates.get 16))]
  else if ix = 0x3412 then d1 32
  else if ix = 0x3420 then pick sub [(1, d1 s.ent.state), (2, d4 s.ent.rctFails), (3, d4 s.ent.aptFails), (4, d2 41), (5, d2 793), (6, d2 1024),
    (7, d8 s.ent.reseeds)]
  else if ix = 0x3421 then d4 s.ent.interval
  else
    let n := 128 * (ix - 0x3600) + sub / 2
    if sub % 2 = 0 then d8 (attrNow s n) else d8 (s.slot n).binding.toNat

/-! ### Attestation and domain (R138) -/

def valDomain (s : State) (ix sub : Nat) : Bytes :=
  let x := s.dom
  let tr (n : Nat) : Nat := s.sen.rates.get n
  if ix = 0x3800 then d1 12
  else if ix = 0x3801 then digestBytes (s.atu.mr.get sub)
  else if ix = 0x3802 then digestBytes (s.atu.smr.get sub)
  else if ix = 0x3803 then pick sub [(1, digestBytes s.atu.deviceIdDigest), (2, digestBytes s.atu.aliasDigest), (3, d4 s.atu.fwSvn),
    (4, dBool s.atu.diceLock), (5, dBool s.atu.identityFault)]
  else if ix = 0x3804 then s.atu.certs.getD (sub - 1) []
  else if ix = 0x3810 then pick sub [(1, d1 8), (2, d1 (sessionsActive s)), (3, d1 x.heartbeatS)]
  else if ix = 0x3820 then pick sub [(1, d4 (tr 12)), (2, d4 (tr 13)), (3, d4 (tr 14)),
    (4, d1 (14 - ((rangeFrom 18 14).filter (fun e => (s.pke.get e).valid)).length))]
  else if ix = 0x3830 then pick sub [(1, d2 x.rollBaseMs), (2, d2 x.rollLevelMs), (3, d2 x.rollCallMs), (4, d2 x.ackBaseUs), (5, d4 x.releaseMs),
    (6, d4 x.formationMs), (7, d2 50)]
  else if ix = 0x3831 then pick sub [(1, d2 256), (2, d8 x.certHits)]
  else
    let d := s.domain (ix - 0x3840)
    pick sub [(1, d1 d.state), (2, d8 d.id), (3, d4 d.attempt), (4, d2 d.member), (5, d2 d.masthead), (6, d2 d.count), (7, d2 d.included),
      (8, d4 d.fenceMs), (9, d2 d.rereqMs), (10, d1 d.abortCause), (11, d2 d.abortOrigin), (12, d4 d.abortCount), (13, d.evidence),
      (14, d.digestTable)]

/-! ### Memory engines, freshness, plough (R176, R177, R215, R216, R237, R238) -/

/-- A bitmap of numbers below `n` that pass a test. -/
def bitmapOf (n : Nat) (p : Nat → Bool) : Nat := flagWord ((List.range n).map (fun i => (i, p i)))

/-- Do no slices hold metadata-cache ways of an engine: its arrays are in retention (R415)? -/
def waysIdle (s : State) (e : Nat) : Bool := sumSlices s (fun r => r.ways.get e) == 0

/-- MEM_SYMBOL_ADJ as a value: the loaded table, or the T9 lists in its form (log 16). -/
def adjacencyBytes (s : State) : Bytes :=
  match s.mem.adjacency with
  | some b => b
  | none => (List.range 72).flatMap (fun a => let l := t9Adjacency a; d1 l.length ++ fit 64 (l.map (BitVec.ofNat 8)))

/-- A region descriptor (R145). -/
def regionDesc (x : Region) : Bytes :=
  leBytes 64 (b2n x.valid + x.state * 2 ^ 1 + x.mode * 2 ^ 4 + b2n x.tgc * 2 ^ 6 + b2n x.sheaf * 2 ^ 7 + b2n x.window * 2 ^ 8 + x.slice * 2 ^ 10 +
    x.base * 2 ^ 184 + x.pages * 2 ^ 219 + x.keyData * 2 ^ 248 + x.keyTweak * 2 ^ 259 + x.keyTag * 2 ^ 270 + x.nextData * 2 ^ 281 +
    x.nextTweak * 2 ^ 292 + x.nextTag * 2 ^ 303 + x.mirrorBase * 2 ^ 314 + x.metaBase * 2 ^ 349 + x.crownFirst * 2 ^ 384 + x.furrow * 2 ^ 396 +
    x.epoch * 2 ^ 416 + x.grants * 2 ^ 448 + x.stepOrSeq * 2 ^ 464)

def valMemory (s : State) (ix sub : Nat) : Bytes :=
  if ix = 0x4000 then pick sub [(0, d1 12), (1, d2 (bitmapOf 12 (populated s))), (2, d1 96), (3, d2 4096),
    (4, d2 (4096 - countOf s.mem.regions (fun _ r => r.valid))), (5, d2 (256 - s.mem.ploughs.length))]
  else if ix = 0x4001 then pick sub [(1, d1 s.mem.decodeG), (2, d1 s.mem.decodeK),
    (3, (List.range 64).flatMap (fun i => let m := s.mem.decodeMap.get i; d1 (if m = 0xFFFF then i else m)))]
  else if ix = 0x4002 then adjacencyBytes s
  else if ix = 0x4003 then pick sub [(1, d1 s.mem.tgcMax), (2, d2 1000)]
  else if ix < 0x4100 then
    let e := ix - 0x4010
    if sub = 1 then d4 (s.sen.rates.get e)
    else if sub = 2 then d1 (if !populated s e then 2 else if waysIdle s e then 0 else 1)
    else d8 (s.mem.ctr.get (16 * e + sub))
  else
    let x := s.region (16 * (ix - 0x4100) + sub / 2)
    if sub % 2 = 0 then regionDesc x else d8 x.tgcCount

/-- The crown entries that no tree region holds, as a list of truth values. -/
def crownMap (s : State) : List Bool :=
  (List.range 4096).map (fun i => !s.mem.regions.ents.any (fun e => e.2.valid && e.2.mode == 0 && decide (e.2.crowns.1 ≤ i) && decide (i < e.2.crowns.1 + e.2.crowns.2)))

/-- The longest run of truths. -/
def longestRun : List Bool → Nat → Nat → Nat
  | [], cur, best => max cur best
  | true :: l, cur, best => longestRun l (cur + 1) best
  | false :: l, cur, best => longestRun l 0 (max cur best)

/-- FRESH_STATE (R216). -/
def freshState (x : Region) : Nat :=
  (if x.mode = 1 then (if x.closing then 3 else if x.window then 2 else 1) else if x.mode = 2 then 4 + x.save else 0) + b2n x.exhausted * 128

def valFresh (s : State) (ix sub : Nat) : Bytes :=
  if ix = 0x4400 then pick sub [(0, d2 4096), (1, d2 ((crownMap s).filter id).length), (2, d2 (longestRun (crownMap s) 0 0)), (3, d1 32),
    (4, d1 s.mem.rebases.length), (5, d1 16), (6, d1 4), (7, d1 16)]
  else if ix < 0x4500 then
    let e := ix - 0x4410
    if sub = 5 then d2 ((s.mem.cache.filter (fun c => c.engine == e && pinned s c)).length) else d8 (s.mem.mcCtr.get (16 * e + sub))
  else
    let x := s.region (16 * (ix - 0x4500) + sub / 4)
    pick (sub % 4) [(0, d1 (freshState x)), (1, d8 x.phaseWrites), (2, d8 x.saveFirst ++ d8 x.saveCount), (3, d8 x.saveSeq)]

/-- PLOUGH_STATE of a plough (R238): completing once LF has reached the line count; a plough that a retire abandons is none (log 74). -/
def ploughState (p : Plough) (x : Region) : Nat := if p.state = 4 then 0 else if p.state == 1 && p.lf == x.lines then 3 else p.state

def valPlough (s : State) (ix sub : Nat) : Bytes :=
  if ix = 0x4800 then pick sub [(0, d2 256), (1, d2 s.mem.ploughs.length), (2, d2 256), (3, d8 s.mem.linesMoved), (4, d8 s.mem.ploughsDone),
    (5, d4 (s.sen.rates.get 17))]
  else if ix < 0x4900 then
    let n := ix - 0x4810
    pick sub [(1, d1 (s.mem.ploughShare.get n)), (2, d4 (s.mem.ageLimit.get n)), (3, d2 (s.mem.progressGib.get n))]
  else
    let r := 16 * (ix - 0x4900) + sub / 4
    let p := ploughOf s r
    let of (f : Plough → Nat) : Nat := match p with | some p => f p | none => 0
    pick (sub % 4) [(0, d1 (of (fun p => ploughState p (s.region r)))), (1, d8 (of (·.lf))), (2, d8 (of (·.base))),
      (3, d4 (if (s.region r).valid then (s.now - (s.region r).epochAt) / 1000000000 else 0))]

/-! ### Link and host link engines, sheaf (R304, R305, R326, R327) -/

/-- A stream-table entry (R269). -/
def streamBytes (x : Stream) : Bytes :=
  leBytes 24 (b2n x.sav * 2 ^ 10 + x.state * 2 ^ 11 + x.slice * 2 ^ 14 + x.peer * 2 ^ 18 + b2n x.rx * 2 ^ 30 + x.cls * 2 ^ 31 + x.port * 2 ^ 35 +
    x.pair * 2 ^ 40 + b2n x.drain * 2 ^ 54 + b2n x.kph * 2 ^ 55 + x.epoch * 2 ^ 56 + x.window * 2 ^ 88 + x.ctr * 2 ^ 152)

/-- A pair record (R270). -/
def pairBytes (x : Pair) : Bytes :=
  leBytes 12 (x.epoch * 2 ^ 10 + x.ports * 2 ^ 42 + x.used * 2 ^ 60 + b2n x.kph * 2 ^ 76 + b2n x.next * 2 ^ 77 + b2n x.valid * 2 ^ 78 +
    b2n x.rx * 2 ^ 79 + x.peer * 2 ^ 80 + x.slice * 2 ^ 92)

def valPort (s : State) (p sub : Nat) : Bytes :=
  let x := s.port p
  if sub = 1 then d4 (s.sen.rates.get (19 + p))
  else if sub = 2 then d1 x.mode
  else if sub = 3 then dBool x.sav
  else if sub = 10 then d2 (unverified s p)
  else if sub = 11 then d2 x.peak
  else if sub = 14 then d2 (cacheFree s p)
  else if sub = 15 then d1 (s.link.drains.filter (fun d => d.port == p)).length
  else d8 (x.ctr.get sub)

def valLink (s : State) (ix sub : Nat) : Bytes :=
  if ix = 0x5000 then pick sub [(0, d1 18), (1, d4 (bitmapOf 18 (wired s))), (2, d4 131072), (3, d4 (131072 - countOf s.link.streams (fun _ x => x.state != 0))),
    (4, d2 8192), (5, d2 (8192 - countOf s.link.pairs (fun _ x => x.valid))), (6, d2 1024)]
  else if ix = 0x5001 then pick sub [(1, d8 s.link.rotateAt), (2, d2 200), (3, d2 50), (4, d2 s.link.flushNs), (5, d2 256), (6, d2 192), (7, d2 1000),
    (8, (List.range 16).flatMap (fun i => d1 (s.link.classMap.get i)))]
  else if ix < 0x5040 then valPort s (ix - 0x5010) sub
  else if ix < 0x5100 then
    let n := ix - 0x5040
    let r := s.slice n
    if sub = 1 then d4 r.streams0.1 ++ d4 r.streams0.2
    else if sub = 2 then d4 r.streams1.1 ++ d4 r.streams1.2
    else if sub = 3 then d4 (countOf s.link.streams (fun _ x => x.state != 0 && x.slice == n))
    else if sub = 4 then d2 (countOf s.link.pairs (fun _ x => x.valid && x.slice == n))
    else d8 (s.link.sliceCtr.get (16 * n + sub))
  else if ix = 0x5100 then pick sub [(1, d4 (s.sen.rates.get 37)), (2, d1 16), (3, d1 s.link.ideAggregation), (4, d8 s.link.ideFails)]
  else if ix < 0x5400 then
    let x := s.ideOf (ix - 0x5110)
    pick sub [(1, d1 (s.tdi.get (ix - 0x5110))), (2, d1 x.id), (3, dBool x.secure), (4, d1 x.cause)]
  else if ix < 0x5600 then streamBytes (s.stream (256 * (ix - 0x5400) + sub))
  else pairBytes (s.pair (256 * (ix - 0x5600) + sub))

def valSheaf (s : State) (ix sub : Nat) : Bytes :=
  if ix = 0x6000 then pick sub [(0, d1 32), (1, d1 (32 - countOf s.sheaf.ctxs (fun _ c => c.state != 0))), (2, d1 16), (3, d1 4)]
  else if ix = 0x6001 then pick sub [(1, d4 (s.sen.rates.get 38)), (2, d4 (s.sen.rates.get 39))]
  else if ix < 0x6100 then
    let n := ix - 0x6010
    pick sub [(1, d1 (countOf s.sheaf.ctxs (fun _ c => c.state != 0 && c.slice == n))), (2, d8 (s.sheaf.linesTotal.get n)), (3, d8 (s.sheaf.issued.get n)),
      (4, d8 (s.sheaf.combinesRefused.get n))]
  else
    let c := s.sheaf.ctxs.get (ix - 0x6100)
    pick sub [(1, d1 c.state), (2, d4 c.id), (3, d1 c.slice), (4, d8 c.lines), (5, d8 c.importLines), (6, leBytes 16 (c.bound.getD 0).toNat)]

/-! ### Commands and queues, translation, slices (R362, R404, R437) -/

def valQueues (s : State) (ix sub : Nat) : Bytes :=
  if ix = 0x6400 then pick sub [(0, d1 64), (1, d1 (64 - countOf s.cex.queues (fun _ q => q.state != 0))), (2, d2 256), (3, d4 524288), (4, d2 4096),
    (5, d1 4), (6, d4 (s.sen.rates.get 18))]
  else if ix = 0x6401 then pick sub [(1, dBool s.cex.compatDefault), (2, d4 s.cex.compatTimeoutMs), (3, d2 10)]
  else if ix < 0x6480 then
    let q := s.cex.queues.get (ix - 0x6440)
    pick sub [(1, d1 q.state), (2, d1 q.cls), (3, d1 q.owner), (4, d8 q.ringBase), (5, d1 q.ringLog2), (6, d2 q.context), (7, dBool q.compat),
      (8, dBool q.enable), (10, d8 q.done), (11, d4 q.faultCount)]
  else if ix < 0x64A0 then
    let r := s.cex.rings.get (ix - 0x6480)
    pick sub [(1, d8 r.base), (2, d1 r.vector), (3, d2 r.modCount), (4, d4 r.modNs), (5, d8 r.posted), (6, d8 r.dropped)]
  else
    let n := ix - 0x64A0
    pick sub [(1, d4 ((s.slice n).graphKib.2 * 1024)), (2, d1 ((List.range 64).filter (fun h => (s.graph n h).state == 2)).length),
      (3, d8 (bitmapOf 64 (fun k => (s.cex.syncs.get (n * 64 + k)).broken))), (4, d8 (s.cex.rerequests.get n)),
      (5, d2 (countOf s.cex.bindings (fun _ b => match b with | some b => b.slice == n | none => false)))]

def valXlt (s : State) (ix sub : Nat) : Bytes :=
  if ix = 0x6800 then pick sub [(0, d1 8), (1, d2 2048), (2, d1 8), (3, d4 (s.sen.rates.get 40)), (4, d8 s.xlt.walks), (5, d8 s.xlt.hits),
    (6, d8 s.xlt.misses), (7, d8 s.xlt.invalidations)]
  else if ix < 0x6840 then
    let n := ix - 0x6810
    pick sub [(1, d8 (s.xlt.s2root.get n)), (2, d4 (s.xlt.faults.get n)), (3, d4 (s.xlt.lastDetail.get n)),
      (4, d2 (s.xlt.tlb.filter (fun e => e.set == n)).length), (5, dBool (s.cex.rings.get n).faulted)]
  else d8 (s.xlt.s1root.get (64 * (ix - 0x6840) + sub))

/-- A slice's usage record entries (R423, R437). -/
def valUsage (u : Usage) (sub : Nat) : Bytes :=
  pick sub [(1, d8 u.queueWait), (2, d8 u.started), (3, d8 u.preemptions), (4, (List.range 4).flatMap (fun i => d8 (u.engineNs.get i))),
    (5, (List.range 12).flatMap (fun i => d8 (u.lines.get i))), (6, d8 u.reefedNs), (7, d8 u.linkSent ++ d8 u.linkReceived), (8, d4 u.seq),
    (9, d8 u.periodStart)]

/-- REVOLUTION_NS: 131,072 bytes at ME_RATE in GB/s (R412), rounded down, and 0 while ME_RATE is 0 (the model's choice, log 140). -/
def revolutionNs (s : State) (e : Nat) : Nat := 131072 / s.sen.rates.get e

def valSlices (s : State) (ix sub : Nat) : Bytes :=
  if ix = 0x6C00 then pick sub [(0, d1 16), (1, d1 (countOf s.srg.slices (fun _ r => r.state != 0))), (2, d1 s.srg.profile), (3, d2 1024),
    (4, d2 s.srg.hostWheelSlots), (5, d2 1000), (6, d4 6000), (7, d2 (512 - sumSlices s (fun r => r.graphKib.2)))]
  else if ix = 0x6C01 then d1 (deviceShare (sub - 1))
  else if ix < 0x6C20 then
    let e := ix - 0x6C10
    pick sub [(1, d2 (1024 - s.srg.hostWheelSlots - sumSlices s (fun r => r.wheel.get e))), (2, d1 (16 - sumSlices s (fun r => r.ways.get e))),
      (3, d4 (revolutionNs s e)), (4, d8 (s.srg.wheels.get e).slotsLent)]
  else if ix < 0x6C40 then
    let u := ix - 0x6C20
    pick sub [(1, d2 (256 - deviceShare u - sumSlices s (fun r => r.shares.get u))), (2, d8 (s.srg.shared.get u).switches), (3, d8 (s.srg.shared.get u).switchNs)]
  else if ix < 0x6C80 then
    let r := s.slice (ix - 0x6C40)
    pick sub [(1, d1 r.state), (2, fit 256 (r.pasids.flatMap d4)), (3, r.creation), (4, d2 r.keys.1 ++ d2 r.keys.2), (5, d2 r.regions.1 ++ d2 r.regions.2),
      (6, (List.range 12).flatMap (fun e => d2 (r.wheel.get e))), (7, (List.range 12).flatMap (fun e => d1 (r.ways.get e))),
      (8, (List.range 4).flatMap (fun u => d1 (r.shares.get u))), (10, r.migEvidence), (11, r.migChain)]
  else valUsage (s.slice (ix - 0x6C80)).usage sub

/-! ### Interrupts, recovery, observation (R479, R501, R551) -/

def valIcu (s : State) (ix sub : Nat) : Bytes :=
  if ix = 0x7000 then pick sub [(0, d2 512), (1, d1 16), (2, d1 16)]
  else if ix = 0x7001 then pick sub [(1, d4 s.icu.stormWindowUs), (2, d4 s.icu.stormThreshold), (3, d8 s.icu.storms),
    (4, leBytes 64 (bitmapOf 448 (fun n => decide (64 ≤ n) && (s.icu.src.get (srcKey false n)).storm))), (5, d8 s.icu.hostEvents), (6, d8 s.icu.fwdPosted)]
  else
    let pair := ix == 0x7011
    let p := s.icu.pairs.get (b2n pair)
    pick sub [(1, d8 p.claims), (2, d8 p.spurious), (3, d8 p.eoiMismatch), (4, d8 p.maskWindowClaims), (5, d8 p.modBypasses), (6, d1 (rpr p)),
      (7, d1 p.stack.length), (8, d8 (bitmapOf 64 (fun n => (s.icu.src.get (srcKey pair n)).storm)))]

/-- An error-log record (R495). -/
def logBytes (o : Option LogRec) : Bytes :=
  match o with
  | none => List.replicate 32 0
  | some r => d8 r.timestamp ++ d2 r.cls ++ d1 r.severity ++ d1 r.unit ++ d1 r.slice ++ dBool r.coalesced ++ d2 r.region ++ d8 r.key ++ d4 r.detail ++ d4 r.rpt

/-- A dump (R494); the manual gives the header's fields in order and not their places (log 62). -/
def dumpBytes (o : Option Dump) : Bytes :=
  match o with
  | none => []
  | some d =>
    fit 64 (ascii "DMP1" ++ d2 1 ++ d2 d.unit ++ d2 d.rung ++ d8 d.timer ++ d4 d.units.length ++ d4 d.status ++ d2 d.firstError ++ d2 d.firstFatal) ++
    d.units.flatMap (fun u => d2 u.unit ++ d2 u.stageIndex ++ d2 u.stageState ++ d1 u.slice ++ d1 u.flags ++ d2 u.context ++ d2 u.opcode ++ d4 u.index ++
      d8 u.address ++ d4 u.occupancy ++ d4 0)

def valRecovery (s : State) (ix sub : Nat) : Bytes :=
  let r := s.rcv
  if ix = 0x7400 then pick sub [(1, d2 256), (2, d4 r.produced), (3, d4 r.consumed), (4, dBool r.overflow), (5, d8 r.dropped), (6, d4 r.coalesceUs),
    (7, d2 r.threshold)]
  else if ix = 0x7401 then logBytes (r.log.get sub)
  else if ix = 0x7402 then pick sub [(1, logBytes r.firstError), (2, logBytes r.firstFatal)]
  else if ix = 0x7403 then d8 (r.classCount.get sub)
  else if ix = 0x7410 then pick sub [(1, d4 100), (2, d4 r.wdHostMemUs), (3, d2 10), (4, d4 2000), (5, d2 20), (6, d2 1000), (7, d4 r.chipCoopMs),
    (8, d8 r.wdExpiries)]
  else if ix = 0x7411 then pick sub [(2, d4 (globalStatus s)), (3, (List.range 5).flatMap (fun i => d4 (r.resetCounts.get i)))]
  else if ix = 0x7412 then pick sub [(1, dumpBytes r.dump), (3, d4 r.dumpsTaken), (4, d4 r.dumpsDropped)]
  else
    let n := ix - 0x7420
    pick sub [(1, d8 (r.contextKills.get n)), (2, d2 (r.lastKilled.get n)), (3, d4 (r.sliceResets.get n))]

/-- A counter sample (R534). -/
def counterBytes (c : Nat × Nat) : Bytes := d8 (c.2 + c.1 * 2 ^ 56)

/-- A trace record (R541). -/
def traceBytes (o : Option TraceRec) : Bytes :=
  match o with
  | none => List.replicate 32 0
  | some r => d1 r.type ++ d1 r.flags ++ d2 0 ++ d4 r.seq ++ d8 r.timestamp ++ d8 r.payload ++ d8 r.payload2

def valObs (s : State) (ix sub : Nat) : Bytes :=
  let o := s.obs
  if ix = 0x7800 then pick sub [(0, d1 96), (1, d4 262144), (2, d1 2), (3, d4 12500)]
  else if ix = 0x7801 then pick sub [(3, d8 o.snapTime), (4, d4 o.epochWraps)]
  else if ix < 0x7820 then counterBytes (o.counters.get (16 * (ix - 0x7810) + sub))
  else if ix < 0x7830 then counterBytes (o.snap.get (16 * (ix - 0x7820) + sub))
  else if ix = 0x7830 then pick sub [(1, d1 o.mode), (2, dBool o.arm), (3, d1 o.pcSelect), (4, d4 o.pcInterval), (5, d2 o.pre), (6, dBool o.lanes),
    (7, d1 o.state), (8, d2 o.writeIndex), (11, d2 o.syncInterval)]
  else if ix = 0x7831 then
    let c := o.trig.get sub
    d1 c.kind ++ d1 c.pairs ++ leBytes 6 c.threshold ++ d8 c.value
  else if sub = 1 then (List.range 8192).flatMap (fun i => traceBytes (o.buffer.get i))
  else if sub = 2 then d2 o.trigIndex
  else d4 o.trigSeq

/-! ### Sentinel, environment, power (R568, R587) -/

/-- TAMPER_IN_STATE (R568). -/
def tamperInState (s : State) (k : Nat) : Nat :=
  let t := s.tamperIn.get k
  if !tamperEnabled k s then 0 else if t.latched then 3 else if tamperActive t.samples then 2 else 1

def valSentinel (s : State) (ix sub : Nat) : Bytes :=
  let x := s.sen
  if ix = 0x8000 then pick sub [(0, d1 36), (1, d2 186), (2, d1 8), (3, d1 2), (4, d2 16), (5, d4 1000), (6, d4 1000),
    (7, d2 (x.window.filter (fun t => decide (s.now < t + senWindowNs))).length), (8, d4 x.tamperEvents)]
  else if ix = 0x8001 then d2 5
  else if ix = 0x8002 then (if sub = 5 then d4 s.clk.switches else if sub = 4 then d1 1 else dBool (s.clk.onOsc.get (sub - 1)))
  else if ix < 0x8040 then
    let u := x.units.get (ix - 0x8010)
    pick sub [(1, d1 (if u.brownOut then 2 else b2n u.frozenAt.isSome)), (2, (List.range 8).flatMap (fun c => d2 (u.mu.get c).toNat)),
      (3, (List.range 8).flatMap (fun c => d2 (u.d.get c).toNat)), (4, d8 u.outliers), (5, d8 u.lastOutlier)]
  else if ix = 0x8040 then pick sub [(1, dInt x.tjMax), (2, dInt x.tjMin), (3, dInt x.tjWarnC), (4, d2 x.vddCore), (5, d2 x.vddIo0), (6, d2 x.vddIo1),
    (7, d8 x.supplyExcursions), (8, d4 x.brownouts), (9, dInt x.vaultTemp), (10, d2 x.vaonMv)]
  else if ix = 0x8041 then dInt (x.tjMe.get sub)
  else if ix < 0x8060 then
    let t := s.tamperIn.get (ix - 0x8050)
    pick sub [(1, d2 t.filterUs), (2, d1 (tamperInState s (ix - 0x8050))), (4, d4 t.events)]
  else
    let k := ix - 0x8060
    pick sub [(1, d4 (x.fairleadMhz.get k)), (2, d1 ([2, 2, 3, 2, 2, 3, 0, 2].getD k 0)), (3, d1 ([2, 2, 3, 2, 2, 3, 2, 0].getD k 0))]

/-- RETENTION_MAP (R582, R587). -/
def retentionMap (s : State) : Nat :=
  flagWord ((List.range 12).map (fun e => (e, waysIdle s e)) ++ (List.range 12).map (fun e => (12 + e, !populated s e)) ++
    (List.range 18).map (fun p => (24 + p, !wired s p)) ++
    [(42, sumSlices s (fun r => r.streams0.2) == 0), (43, sumSlices s (fun r => r.streams1.2) == 0), (44, sumSlices s (fun r => r.graphKib.2) == 0),
     (45, !s.obs.arm)])

def valPower (s : State) (ix sub : Nat) : Bytes :=
  if ix = 0x8100 then pick sub [(0, d4 s.ods.powerMw), (1, d4 1000), (2, d4 700), (3, d4 27000), (4, d4 31000)]
  else if ix = 0x8101 then d4 (s.ods.subsysMw.get sub)
  else if ix = 0x8102 then d2 ([450, 350, 560, 300, 230, 370, 300, 230, 370, 60, 50, 70].getD (sub - 1) 0)
  else pick sub [(1, d8 (retentionMap s)), (2, d1 s.pins.rails), (3, dBool (!s.pins.pwrcycN))]

/-! ### Every entry (R446) -/

/-- The value of an entry that the tables list. -/
def dictValue (s : State) (ix sub : Nat) : Bytes :=
  if ix < 0x3000 then valIdentity s ix sub
  else if ix < 0x3400 then valLife s ix sub
  else if ix < 0x3800 then valKeys s ix sub
  else if ix < 0x4000 then valDomain s ix sub
  else if ix < 0x4400 then valMemory s ix sub
  else if ix < 0x4800 then valFresh s ix sub
  else if ix < 0x5000 then valPlough s ix sub
  else if ix < 0x6000 then valLink s ix sub
  else if ix < 0x6400 then valSheaf s ix sub
  else if ix < 0x6800 then valQueues s ix sub
  else if ix < 0x6C00 then valXlt s ix sub
  else if ix < 0x7000 then valSlices s ix sub
  else if ix < 0x7400 then valIcu s ix sub
  else if ix < 0x7800 then valRecovery s ix sub
  else if ix < 0x8000 then valObs s ix sub
  else if ix < 0x8100 then valSentinel s ix sub
  else valPower s ix sub

/-- The sensors are read anew (R568 'measured'): what they show is a free value (log 63). -/
def readSensors (s : State) : State :=
  let int (k : Nat) : Int := (Config.free 32 (s.free + k)).toInt
  let x := s.sen
  { s with
    sen := { x with
      tjMax := int 0, tjMin := int 1, vddCore := (Config.free 16 (s.free + 2)).toNat, vddIo0 := (Config.free 16 (s.free + 3)).toNat
      vddIo1 := (Config.free 16 (s.free + 4)).toNat, tjMe := (List.range 12).foldl (fun t e => t.set e (int (5 + e))) x.tjMe }
    free := s.free + 17 }

end Sys2Proof.Machine
end

