-- ==== Sys2Proof/Machine/Vault.lean ====
section
/-!
DEFINITION. The root vault: its triggers and zeroization (R47-R54, R84).
-/
namespace Sys2Proof.Machine

/-- A run of readings: its length goes on or starts again, and the trigger is recognised at the second (R50, log 49). -/
def secondOf (miss : Bool) (n : Nat) : Nat × Bool := if miss then (n + 1, n == 1) else (0, false)

/-- MESH_COMPARE (R50, R574): the comparison at the end of a pattern period, with what a mismatch is reported as. -/
def execMeshCompare (mismatch short : Bool) (s : State) : Host.Outcome State Fault Refusal :=
  .next <|
    if !vaultRuns s then s
    else
      let r := secondOf mismatch s.vault.meshMiss
      let s := { s with vault := { s.vault with meshMiss := r.1, mesh := if mismatch then 1 + b2n short else 0 } }
      if r.2 then vaultTrigger 0 s else s

/-- VBAT_OUT_OF_RANGE (R50): the voltage that has lasted 20 local us. -/
def execVbatOutOfRange (mv : BitVec 16) (s : State) : Host.Outcome State Fault Refusal :=
  .next (if !vaultRuns s || !vbatOut mv.toNat then s else vaultTrigger 5 (setVbat mv.toNat s))

/-- VAULT_SUPPLY_OUT_OF_RANGE (R50): the rail's voltage that has lasted 1 local us. -/
def execVaultSupplyOutOfRange (mv : BitVec 16) (s : State) : Host.Outcome State Fault Refusal :=
  .next (if vaultRuns s && (decide (mv.toNat < 550) || decide (900 < mv.toNat)) then vaultTrigger 6 s else s)

/-- VAULT_TEMP_READING (R50): a reading in 1/16 of a degree Celsius, the unit of VAULT_TEMP (R568). -/
def execVaultTempReading (c : BitVec 16) (s : State) : Host.Outcome State Fault Refusal :=
  .next <|
    if !vaultRuns s then s
    else
      let cold := secondOf (decide (c.toInt < -640)) s.vault.coldMiss
      let hot := secondOf (decide (2000 < c.toInt)) s.vault.hotMiss
      let s := { s with vault := { s.vault with coldMiss := cold.1, hotMiss := hot.1 }, sen := { s.sen with vaultTemp := c.toInt } }
      if cold.2 || hot.2 then vaultTrigger 7 s else s

/-! ### Zeroization -/

/-- ZEROIZATION (R51, R53): the sequence for the triggers recognised. -/
def execZeroization (s : State) : Host.Outcome State Fault Refusal :=
  .next <|
    if s.vault.trigger == 0 || s.vault.state == 2 then s
    else
      let s := recordTamper 0 s
      updAlarm (clearVolatileKeys (clearRoot { s with vault := { s.vault with state := 2 } }))

/-- ZEROIZATION_COMPLETE (R51, R53): VAULT_STATE reads EMPTY; with the CEX running, one TAMPER record and one
TAMPER_NOTICE. A provisioning step of a transition in progress runs again (R530). -/
def execZeroizationComplete (s : State) : Host.Outcome State Fault Refusal :=
  .next <|
    if s.vault.state != 2 then s
    else
      tamperRecords (wipeAgain (updAlarm { s with vault := { s.vault with state := 1 } }))

/-- The effect of the write that execTamperCauseClear makes, and its status. -/
def tamperCauseWrite (value : Bool) (s : State) : State × Nat :=
  if !value then (s, St.success)
  else if s.vault.state == 2 then (s, St.entryState)
  else ({ s with vault := { s.vault with cause := 0, time := 0 } }, St.success)

/-- TAMPER_CAUSE_CLEAR (R84). -/
def execTamperCauseClear (who : Principal) (value : Bool) (s : State) : Host.Outcome State Fault Refusal :=
  .next (dictWrite who true [0, 1] s (tamperCauseWrite value))

end Sys2Proof.Machine
end

