-- ==== Sys2Proof/Machine/DictWrite.lean ====
section
/-!
DEFINITION. Who reaches an entry (R442-R444), and what a write of each writable entry checks and does (checks 8 to 11 of R450). An entry that
has a command of its own shares that command's effect.
-/
namespace Sys2Proof.Machine

/-! ### Reach (R444) -/

/-- Is the region protected and owned by a slice, or shared with it (R177)? An open region is no slice's, whatever its descriptor's SLICE
says: no slice reads it there (log 141). -/
def ownsRegion (s : State) (r sl : Nat) (shared : Bool) : Bool :=
  let x := s.region r
  x.valid && x.mode != 3 && (x.slice == sl || (shared && bit x.grants sl))

/-- The slice whose record an entry is: `none` for a block-wide entry, `some` of a test for a per-slice one (R83, R139, R177, R216, R238, R305,
R327, R363, R405, R438, R502). -/
def entryScope (s : State) (ix sub : Nat) : Option (Nat → Bool) :=
  let within (a b : Nat) : Bool := decide (a ≤ ix) && decide (ix ≤ b)
  let own (base : Nat) : Option (Nat → Bool) := some (fun sl => ix - base == sl)
  if within 0x3600 0x360F then some (fun sl => ownsSlot s sl (128 * (ix - 0x3600) + sub / 2))
  else if ix = 0x3802 then some (fun sl => sub == sl)
  else if within 0x3840 0x384F then own 0x3840
  else if within 0x4100 0x41FF then some (fun sl => ownsRegion s (16 * (ix - 0x4100) + sub / 2) sl true)
  else if within 0x4500 0x45FF then some (fun sl => ownsRegion s (16 * (ix - 0x4500) + sub / 4) sl false)
  else if within 0x4810 0x481F then own 0x4810
  else if within 0x4900 0x49FF then some (fun sl => ownsRegion s (16 * (ix - 0x4900) + sub / 4) sl false)
  else if within 0x5040 0x504F then own 0x5040
  else if within 0x5110 0x511F then own 0x5110
  else if within 0x5400 0x55FF then some (fun sl => let x := s.stream (256 * (ix - 0x5400) + sub); x.state != 0 && x.slice == sl)
  else if within 0x5600 0x561F then some (fun sl => let x := s.pair (256 * (ix - 0x5600) + sub); x.valid && x.slice == sl)
  else if within 0x6010 0x601F then own 0x6010
  else if within 0x6100 0x611F then some (fun sl => (s.sheaf.ctxs.get (ix - 0x6100)).slice == sl)
  else if within 0x6440 0x647F then some (fun sl => let q := s.cex.queues.get (ix - 0x6440); q.state != 0 && q.owner == sl)
  else if within 0x6480 0x6490 then own 0x6480
  else if within 0x64A0 0x64AF then own 0x64A0
  else if within 0x6810 0x6820 then own 0x6810
  else if within 0x6840 0x684F then own 0x6840
  else if within 0x6C40 0x6C4F then own 0x6C40
  else if within 0x6C80 0x6C8F then own 0x6C80
  else if within 0x7420 0x742F then own 0x7420
  else none

/-- The slice that bounds what a principal reaches: a slice's own, or the receiving slice of a request on the fabric (R444). -/
def principalSlice (who : Principal) (arrival : Nat) : Option Nat :=
  match who with
  | .slice m => some m.toNat
  | .coord => some arrival
  | _ => none

/-- Check 5 of R450: the access code, the DBG scope (R443) and R444. -/
def mayReach (who : Principal) (arrival : Nat) (r : DictRow) (ix sub : Nat) (write : Bool) (s : State) : Bool :=
  (if write then r.writable (principalIx who) else r.readable (principalIx who)) && (who != .dbg || dbgOpen s) &&
  (match principalSlice who arrival, entryScope s ix sub with
   | some sl, some p => p sl
   | _, _ => true)

/-! ### Writes -/

/-- A value in its range is stored (R450 check 10). -/
def ranged (lo hi : Nat) (bs : Bytes) (s : State) (f : Nat → State) : State × Nat :=
  let n := leNat bs
  if decide (lo ≤ n) && decide (n ≤ hi) then (f n, St.success) else (s, St.invalidOperand)

/-- A wo BOOL: FALSE is accepted and has no effect (R442). -/
def onTrue (bs : Bytes) (s : State) (f : State × Nat) : State × Nat := if leNat bs = 1 then f else (s, St.success)

/-- A one-time-programmable value: written once, in a state that permits it (R516, R518). -/
def writeOnce (ok : Bool) (s : State) (f : State) : State × Nat := if ok then (f, St.success) else (s, St.entryState)

def writeSelf (ix sub : Nat) (bs : Bytes) (s : State) : State × Nat :=
  if ix = 0x1001 then writeOnce (s.lcc.state == lcRaw && (s.ods.mfgLot.getD 0) == 0) s { s with ods := { s.ods with mfgLot := some (BitVec.ofNat 64 (leNat bs)) } }
  else if ix = 0x2100 then ranged 100 60000 bs s (fun n => { s with ods := { s.ods with segIdleMs := n } })
  else if ix = 0x2120 && sub == 1 then ranged 0 255 bs s (fun n => { s with ods := { s.ods with mbVector := n } })
  else (s, St.accessDenied)

def writeLife (ix sub : Nat) (bs : Bytes) (s : State) : State × Nat :=
  let raw := s.lcc.state == lcRaw
  if ix = 0x3000 then lcTransitionWrite bs s
  else if ix = 0x3001 then
    if sub = 1 then writeOnce (raw && s.lcc.deviceUid.isNone) s { s with lcc := { s.lcc with deviceUid := some (BitVec.ofNat 128 (leNat bs)) } }
    else if sub = 2 then writeOnce (raw && s.lcc.tokenDigests.isNone) s { s with lcc := { s.lcc with tokenDigests := some bs } }
    else writeOnce (testUnlocked s.lcc.state && s.lcc.molnorDigest.isNone) s { s with lcc := { s.lcc with molnorDigest := some (BitVec.ofNat 384 (beNat bs)) } }
  else if ix = 0x3010 then
    if sub = 2 then debugRequestWrite (BitVec.ofNat 8 (leNat bs)) s
    else if sub = 4 then debugResponseWrite bs s
    else vaultProvisionWrite (leNat bs == 1) s
  else if field bs 2 2 != 0 then (s, St.reservedField)
  else dmiAccess (ix - 0x3020) (field bs 0 1) (field bs 1 1) (BitVec.ofNat 32 (field bs 4 4)) s

def writeDomain (ix sub : Nat) (bs : Bytes) (s : State) : State × Nat :=
  let put (f : Domain → Nat → Domain) (bound : Nat) : State × Nat := ranged 0 bound bs s (fun n => { s with dom := f s.dom n })
  if ix = 0x3402 then tamperCauseWrite (leNat bs == 1) s
  else if ix = 0x3421 then ranged 1 1048576 bs s (fun n => { s with ent := { s.ent with interval := n } })
  else if ix = 0x3810 then put (fun x n => { x with heartbeatS := n }) 0xFF
  else if ix = 0x3830 then
    match sub with
    | 1 => put (fun x n => { x with rollBaseMs := n }) 0xFFFF
    | 2 => put (fun x n => { x with rollLevelMs := n }) 0xFFFF
    | 3 => put (fun x n => { x with rollCallMs := n }) 0xFFFF
    | 4 => put (fun x n => { x with ackBaseUs := n }) 0xFFFF
    | 5 => put (fun x n => { x with releaseMs := n }) 0xFFFFFFFF
    | _ => put (fun x n => { x with formationMs := n }) 0xFFFFFFFF
  else certFlushWrite (leNat bs == 1) s

/-- The decode entries: only before the first REGION_DEFINE (R177). A stack number that K can select is below 12, the granule at least one line (log 64). -/
def writeDecode (ix sub : Nat) (bs : Bytes) (s : State) : State × Nat :=
  if s.mem.decodeLocked then (s, St.entryState)
  else if ix = 0x4002 then ({ s with mem := { s.mem with adjacency := some bs } }, St.success)
  else if sub = 1 then ranged 7 46 bs s (fun n => { s with mem := { s.mem with decodeG := n } })
  else if sub = 2 then ranged 1 12 bs s (fun n => { s with mem := { s.mem with decodeK := n } })
  else if (bs.take 12).any (fun b => decide (12 ≤ b.toNat)) then (s, St.invalidOperand)
  else ({ s with mem := { s.mem with decodeMap := bs.zipIdx.foldl (fun t b => t.set b.2 b.1.toNat) s.mem.decodeMap } }, St.success)

def writeMemory (ix sub : Nat) (bs : Bytes) (s : State) : State × Nat :=
  if ix < 0x4003 then writeDecode ix sub bs s
  else if ix = 0x4003 then ranged 1 64 bs s (fun n => { s with mem := { s.mem with tgcMax := n } })
  else
    let sl := ix - 0x4810
    let n := leNat bs
    if sub = 1 then ({ s with mem := { s.mem with ploughShare := s.mem.ploughShare.set sl n } }, St.success)
    else if sub = 2 then ({ s with mem := { s.mem with ageLimit := s.mem.ageLimit.set sl n } }, St.success)
    else ({ s with mem := { s.mem with progressGib := s.mem.progressGib.set sl n } }, St.success)

/-- The effect of a write of LE_MODE (R260): DIRECT or GATEWAY, not on an unwired port, refused while any stream is open on the port. -/
def leModeWrite (p mode : Nat) (s : State) : State × Nat :=
  if 18 ≤ p then (s, St.noEntry)
  else if s.link.streams.ents.any (fun e => e.2.state != 0 && e.2.port == p) then (s, St.portState)
  else if !wired s p then (s, St.entryState)
  else if 1 < mode then (s, St.invalidOperand)
  else (updPort p (fun x => { x with mode := mode }) s, St.success)

def writeLink (ix sub : Nat) (bs : Bytes) (s : State) : State × Nat :=
  if ix = 0x5001 then
    if sub = 1 then ranged (2 ^ 20) (2 ^ 40 - 2 ^ 20) bs s (fun n => { s with link := { s.link with rotateAt := n } })
    else if sub = 4 then ranged 16 4096 bs s (fun n => { s with link := { s.link with flushNs := n } })
    else ({ s with link := { s.link with classMap := bs.zipIdx.foldl (fun t b => t.set b.2 b.1.toNat) s.link.classMap } }, St.success)
  else if ix < 0x5100 then leModeWrite (ix - 0x5010) (leNat bs) s
  else if decide (leNat bs ∈ [1, 2, 4, 8]) then ({ s with link := { s.link with ideAggregation := leNat bs } }, St.success)
  else (s, St.invalidOperand)

/-- COMPAT_DEFAULT, and with it COMPAT of every free queue (R362, log 53). -/
def compatDefaultWrite (on : Bool) (s : State) : State × Nat :=
  ({ s with cex := { s.cex with
    compatDefault := on
    queues := (List.range 64).foldl (fun t q => t.upd q (fun x => if x.state = 0 then { x with compat := on } else x)) s.cex.queues } }, St.success)

/-- The configuration of a queue, subindexes 2 to 7: only while it is free (R328, R360, R363, log 65). -/
def queueConfigWrite (q sub : Nat) (bs : Bytes) (s : State) : State × Nat :=
  let put (f : Queue → Nat → Queue) (n : Nat) : State := updQ q (fun x => f x n) s
  if (s.cex.queues.get q).state != 0 then (s, St.entryState)
  else match sub with
    | 2 => ranged 0 1 bs s (put (fun x n => { x with cls := n }))
    | 3 => ranged 0 16 bs s (put (fun x n => { x with owner := n }))
    | 4 => ranged 0 (2 ^ 64 - 1) bs s (put (fun x n => { x with ringBase := n }))
    | 5 => ranged 0 255 bs s (put (fun x n => { x with ringLog2 := n }))
    | 6 => ranged 0 0xFFFF bs s (put (fun x n => { x with context := n }))
    | _ => ranged 0 1 bs s (put (fun x n => { x with compat := n == 1 }))

/-- QUEUE_RESUME and QUEUE_SKIP, one byte each: both TRUE is refused (R441). -/
def resumeSkipWrite (who : Principal) (q : Nat) (bs : Bytes) (s : State) : State × Nat :=
  let (a, b) := (field bs 0 1, field bs 1 1)
  if 1 < a || 1 < b then (s, St.reservedField)
  else if a = 1 && b = 1 then (s, St.invalidOperand)
  else if a = 1 then queueResumeWrite who (BitVec.ofNat 6 q) s
  else if b = 1 then queueSkipWrite who (BitVec.ofNat 6 q) s
  else (s, St.success)

def writeQueues (who : Principal) (ix sub : Nat) (bs : Bytes) (s : State) : State × Nat :=
  if ix = 0x6401 then
    if sub = 1 then compatDefaultWrite (leNat bs == 1) s
    else ranged 0 0xFFFFFFFF bs s (fun n => { s with cex := { s.cex with compatTimeoutMs := n } })
  else if ix < 0x6480 then
    let q := ix - 0x6440
    if sub = 8 then queueEnableWrite (BitVec.ofNat 6 q) (leNat bs == 1) s
    else if sub = 9 then resumeSkipWrite who q bs s
    else queueConfigWrite q sub bs s
  else
    let r := ix - 0x6480
    let put (f : EventRing → Nat → EventRing) (n : Nat) : State := { s with cex := { s.cex with rings := s.cex.rings.upd r (fun x => f x n) } }
    match sub with
    | 1 => ringBaseWrite who (BitVec.ofNat 5 r) (BitVec.ofNat 64 (leNat bs)) s
    | 2 => ranged 0 255 bs s (put (fun x n => { x with vector := n }))
    | 3 => ranged 1 4080 bs s (put (fun x n => { x with modCount := n }))
    | _ => ranged 0 0xFFFFFFFF bs s (put (fun x n => { x with modNs := n }))

def writeSlices (who : Principal) (ix sub : Nat) (bs : Bytes) (s : State) : State × Nat :=
  if ix < 0x6840 then writeRoot who false (ix - 0x6810) 0 (BitVec.ofNat 64 (leNat bs)) s
  else if ix < 0x6C00 then writeRoot who true (ix - 0x6840) sub (BitVec.ofNat 64 (leNat bs)) s
  else if ix = 0x6C00 then
    let t := { s with srg := { s.srg with hostWheelSlots := leNat bs } }
    if admitted t then (t, St.success) else (s, St.resourceExhausted)
  else
    let sl := BitVec.ofNat 4 (ix - 0x6C40)
    if sub = 9 then sliceReleaseWrite sl (leNat bs == 1) s
    else if sub = 7 then wayQuotaWrite sl bs s
    else sliceRecordWrite sl (BitVec.ofNat 8 sub) bs s

def writeRecovery (ix sub : Nat) (bs : Bytes) (s : State) : State × Nat :=
  let put (lo hi : Nat) (f : Rcv → Nat → Rcv) : State × Nat := ranged lo hi bs s (fun n => { s with rcv := f s.rcv n })
  if ix = 0x7001 then
    if sub = 1 then ranged 10 100000 bs s (fun n => { s with icu := { s.icu with stormWindowUs := n } })
    else ranged 16 65535 bs s (fun n => { s with icu := { s.icu with stormThreshold := n } })
  else if ix = 0x7400 then
    if sub = 3 then consumeLog (leNat bs) s
    else if sub = 6 then put 0 100000 (fun r n => { r with coalesceUs := n })
    else put 1 256 (fun r n => { r with threshold := n })
  else if ix = 0x7402 then firstErrorClearWrite (leNat bs == 1) s
  else if ix = 0x7410 then
    if sub = 2 then put 10 10000 (fun r n => { r with wdHostMemUs := n })
    else if sub = 7 then put 50 10000 (fun r n => { r with chipCoopMs := n })
    else onTrue bs s (kickWrite false s)
  else if ix = 0x7411 then resetChipWrite (leNat bs == 1) s
  else dumpClearWrite (leNat bs == 1) s

/-- The trace configuration (R540, R546, R548). -/
def writeTrace (ix sub : Nat) (bs : Bytes) (s : State) : State × Nat :=
  let put (lo hi : Nat) (f : Obs → Nat → Obs) : State × Nat := ranged lo hi bs s (fun n => { s with obs := f s.obs n })
  if !traceOpen s then (s, St.entryState)
  else if ix = 0x7830 && sub == 2 then traceArmWrite (leNat bs == 1) s
  else if ix = 0x7830 && sub == 6 then put 0 1 (fun o n => { o with lanes := n == 1 })
  else if ix = 0x7830 && sub == 9 then traceTriggerWrite (leNat bs == 1) s
  else if ix = 0x7830 && sub == 10 then traceMarkerWrite (BitVec.ofNat 64 (field bs 0 8)) (BitVec.ofNat 64 (field bs 8 8)) s
  else if s.obs.arm then (s, St.entryState)
  else if ix = 0x7831 then
    let c : TrigCfg := { kind := field bs 0 1, pairs := field bs 1 1, threshold := field bs 2 6, value := field bs 8 8 }
    if 4 < c.kind || 3 < c.pairs then (s, St.reservedField) else ({ s with obs := { s.obs with trig := s.obs.trig.set sub c } }, St.success)
  else match sub with
    | 1 => put 0 2 (fun o n => { o with mode := n })
    | 3 => put 0 3 (fun o n => { o with pcSelect := n })
    | 4 => put 100 1000000 (fun o n => { o with pcInterval := n })
    | 5 => put 0 8190 (fun o n => { o with pre := n })
    | _ => put 64 8191 (fun o n => { o with syncInterval := n })

def writeObs (ix sub : Nat) (bs : Bytes) (s : State) : State × Nat :=
  if ix = 0x7801 then
    if sub = 1 then counterResetWrite (BitVec.ofNat 96 (leNat bs)) s else counterSnapshotWrite (leNat bs == 1) s
  else if ix < 0x8000 then writeTrace ix sub bs s
  else if ix = 0x8040 then
    let v := (BitVec.ofNat 32 (leNat bs)).toInt
    if decide (60 ≤ v) && decide (v ≤ 125) then ({ s with sen := { s.sen with tjWarnC := v } }, St.success) else (s, St.invalidOperand)
  else
    let k := ix - 0x8050
    if sub = 1 then ranged 2 500 bs s (fun n => { s with tamperIn := s.tamperIn.upd k (fun t => { t with filterUs := n }) })
    else tamperLatchWrite (BitVec.ofNat 2 k) (leNat bs == 1) s

/-- What a write of an entry checks and does beyond check 7 of R450. -/
def entryWrite (who : Principal) (ix sub : Nat) (bs : Bytes) (s : State) : State × Nat :=
  if ix < 0x3000 then writeSelf ix sub bs s
  else if ix < 0x3400 then writeLife ix sub bs s
  else if ix < 0x4000 then writeDomain ix sub bs s
  else if ix < 0x5000 then writeMemory ix sub bs s
  else if ix < 0x6000 then writeLink ix sub bs s
  else if ix < 0x6800 then writeQueues who ix sub bs s
  else if ix < 0x7000 then writeSlices who ix sub bs s
  else if ix < 0x7800 then writeRecovery ix sub bs s
  else writeObs ix sub bs s

/-! ### Checks 3 to 6 -/

/-- Is the subsystem that serves an entry available (R456)? -/
def dictAvailable (s : State) (ix sub : Nat) : Bool := if dictEarly ix sub then s.lcc.decoded else s.rcv.fwRunning

/-- Does a write's type and length agree with the entry (R440)? -/
def typeFits (r : DictRow) (type len : Nat) : Bool := type == r.type && (r.type == 9 || len == r.len)

/-- A write after check 7: a reserved BOOL encoding is refused (R15, R440) where checks 8 and 9 let a TRUE pass. -/
def applyWrite (who : Principal) (ix sub : Nat) (r : DictRow) (bs : Bytes) (s : State) : State × Nat :=
  if r.type = 1 && 1 < leNat bs then
    let st := (entryWrite who ix sub [1] s).2
    (s, if st = St.entryState || st = St.sliceLocked then st else St.reservedField)
  else entryWrite who ix sub bs s

/-- A write of a whole value outside a message: checks 3 to 6, then its effect. -/
def dictPut (who : Principal) (ix sub type : Nat) (bs : Bytes) (s : State) : State × Nat :=
  if !dictAvailable s ix sub then (s, St.unavailable)
  else match dictRow ix sub with
    | none => (s, St.noEntry)
    | some r =>
      if !mayReach who 16 r ix sub true s then (s, St.accessDenied)
      else if !typeFits r type bs.length then (s, St.typeMismatch)
      else applyWrite who ix sub r bs s

/-- DICT_ENTRY_WRITE (R450). -/
def execDictEntryWrite (who : Principal) (index : BitVec 16) (sub type : BitVec 8) (value : Bytes) (s : State) : Host.Outcome State Fault Refusal :=
  .next (dictAnswer who (dictPut who index.toNat sub.toNat type.toNat value s))

/-- LE_MODE_WRITE (R260, R304). -/
def execLeModeWrite (who : Principal) (port : BitVec 5) (mode : BitVec 8) (s : State) : Host.Outcome State Fault Refusal :=
  .next (dictWrite who false [1] s (leModeWrite port.toNat mode.toNat))

end Sys2Proof.Machine
end

