-- ==== Sys2Proof/Machine/Dict.lean ====
section
/-!
DEFINITION. The dictionary server: the message of R447, its checks in the order of R450, expedited and segmented transfers (R449), and
the fabric's carrier (R455).
-/
namespace Sys2Proof.Machine

/-! ### Messages (R447, R448) -/

/-- An answer: FLAGS, TYPE, STATUS, TOTAL_LEN and the data; the other fields are the request's. -/
structure DictAns where
  flags : Nat
  type : Nat
  status : Nat
  total : Nat
  data : Bytes
  deriving DecidableEq, Repr

/-- A refusal. -/
def dictRefuse (m : DictMsg) (flags status : Nat) : DictAns := { flags, type := m.type.toNat, status, total := 0, data := [] }

/-- The octets of a response (R447). -/
def ansBytes (op : Nat) (m : DictMsg) (a : DictAns) : Bytes :=
  d1 (op + 128) ++ d1 a.flags ++ d1 m.tag.toNat ++ d1 a.type ++ d2 m.index.toNat ++ d1 m.sub.toNat ++ d1 0 ++ d2 a.status ++ d2 m.segNo.toNat ++ d4 a.total ++ a.data

/-- A message from its octets: OP and the rest. -/
def msgOf (b : Bytes) : Nat × DictMsg :=
  let f (o n w : Nat) : BitVec w := BitVec.ofNat w (field b o n)
  (field b 0 1, {
    flags := f 1 1 8, tag := f 2 1 8, type := f 3 1 8, index := f 4 2 16, sub := f 6 1 8, reserved := f 7 1 8, status := f 8 2 16, segNo := f 0xA 2 16
    total := f 0xC 4 32, data := b.drop 16 })

/-- FLAGS (R447). -/
def msgWhole (m : DictMsg) : Bool := bit m.flags.toNat 0
def msgSeg (m : DictMsg) : Bool := bit m.flags.toNat 1
def msgLast (m : DictMsg) : Bool := bit m.flags.toNat 2
def msgDbg (m : DictMsg) : Bool := bit m.flags.toNat 3

/-- The number of a path in a transaction (R449). -/
def pathCode : DictPath → Nat
  | .i3c _ => 0
  | .mailbox _ => 1
  | .fabric _ _ => 2

/-- SEG_MAX of a path (R449, R463). -/
def segMax : DictPath → Nat
  | .i3c _ => 1024
  | .mailbox _ => 4080
  | .fabric _ _ => 4044

/-- A requester's identity (R449): its source EID, its mailbox, ORIGIN together with DOMAIN_ID. -/
def requesterOf (s : State) : DictPath → Nat
  | .i3c e => e.toNat
  | .mailbox n => min n.toNat 16
  | .fabric sl o => o.toNat + (s.domain sl.toNat).id * 65536

/-- The receiving slice of a request on the fabric; 16 elsewhere. -/
def arrivalOf : DictPath → Nat
  | .fabric sl _ => sl.toNat
  | _ => 16

/-- The principal of a request, from its path alone but for DBG (R443): DBG names none on a slice's mailbox or the fabric. -/
def principalOf (p : DictPath) (dbg : Bool) : Option Principal :=
  match p with
  | .i3c _ => some (if dbg then .dbg else .tray)
  | .mailbox n => if 16 ≤ n.toNat then some (if dbg then .dbg else .hostk) else if dbg then none else some (.slice (n.setWidth 4))
  | .fabric _ _ => if dbg then none else some .coord

/-- Does the path deliver a request (R443, R454, R455)? A slice's mailbox only while its TDI is in RUN; the fabric only from the masthead while
the slice is KEYED or LIVE. None reaches a block held in chip reset. -/
def pathOpen (s : State) (p : DictPath) : Bool :=
  !s.boot.inReset &&
  match p with
  | .i3c _ => true
  | .mailbox n => decide (16 ≤ n.toNat) || s.tdi.get n.toNat == 2
  | .fabric sl o => decide ((s.domain sl.toNat).state ∈ [2, 3]) && o.toNat == (s.domain sl.toNat).masthead

/-! ### Check 1 (R450) -/

/-- Reserved header fields and OP. -/
def headerReserved (op : Nat) (m : DictMsg) : Bool := 16 ≤ m.flags.toNat || m.reserved != 0 || m.status != 0 || op == 0 || 5 < op

/-- The flags fit the OP, and the data length agrees with TOTAL_LEN and SEG_MAX. SEG_READ may carry SEGMENTED or not (R449, the example of
R457; log 67). -/
def wellFormed (op smax : Nat) (m : DictMsg) : Bool :=
  let n := m.data.length
  let noData := n == 0 && m.total == 0
  match op with
  | 1 => !(msgSeg m) && !(msgLast m) && noData && m.segNo == 0
  | 2 => !(msgWhole m) && !(msgLast m) && m.segNo == 0 && ((msgSeg m) == decide (smax < m.total.toNat)) && n == (if (msgSeg m) then smax else m.total.toNat)
  | 3 => !(msgWhole m) && !(msgLast m) && noData
  | 4 => !(msgWhole m) && (msgSeg m) && m.total == 0 && decide (1 ≤ n) && decide (n ≤ smax) && ((msgLast m) || n == smax)
  | _ => !(msgWhole m) && !(msgSeg m) && !(msgLast m)

/-! ### Reading -/

/-- Is a trace entry closed (R540)? The constants and TRACE_STATE are never. -/
def traceClosed (s : State) (ix sub : Nat) : Bool := !traceOpen s && ((ix == 0x7830 && sub != 7) || ix == 0x7831 || ix == 0x7832)

/-- The rows of an index's subindexes in ascending order. -/
def indexRows (ix : Nat) : List (Nat × DictRow) :=
  let rows := dictTable.filter (fun r => decide (r.lo ≤ ix) && decide (ix ≤ r.hi))
  (List.range 256).filterMap (fun sub => (rows.find? (fun r => r.covers ix sub)).map (fun r => (sub, r)))

/-- A whole-index read (R441). -/
def wholeValue (s : State) (ix : Nat) (subs : List (Nat × DictRow)) : Bytes :=
  subs.flatMap (fun e => let v := dictValue s ix e.1; d1 e.1 ++ d1 e.2.type ++ d2 v.length ++ v)

/-- The type code and value of a read, or its refusal: checks 3 to 6 and 8 of R450. -/
def readValue (who : Option Principal) (arrival : Nat) (m : DictMsg) (s : State) : Except Nat (Nat × Bytes) :=
  let ix := m.index.toNat
  let sub := m.sub.toNat
  let may (e : Nat × DictRow) : Bool := match who with | some w => mayReach w arrival e.2 ix e.1 false s | none => false
  if (msgWhole m) then
    let all := indexRows ix
    if !all.all (fun (e : Nat × DictRow) => dictAvailable s ix e.1) || (all.isEmpty && !dictAvailable s ix 0) then .error St.unavailable
    else if all.isEmpty then .error St.noEntry
    else
      let mine := all.filter may
      if mine.isEmpty then .error St.accessDenied
      else if m.type != 0 && m.type != 8 then .error St.typeMismatch
      else
        let live := mine.filter (fun (e : Nat × DictRow) => !traceClosed s ix e.1)
        if live.isEmpty then .error St.entryState else .ok (8, wholeValue s ix live)
  else if !dictAvailable s ix sub then .error St.unavailable
  else match dictRow ix sub with
    | none => .error St.noEntry
    | some r =>
      if !may (sub, r) then .error St.accessDenied
      else if m.type != 0 && m.type.toNat != r.type then .error St.typeMismatch
      else if traceClosed s ix sub then .error St.entryState
      else .ok (r.type, dictValue s ix sub)

/-! ### Transactions (R449) -/

/-- Does a transaction carry an identity? -/
def sameTrans (p r t : Nat) (x : DictTrans) : Bool := x.path == p && x.requester == r && x.tag == t

/-- The transaction with an identity ends. -/
def endIdentity (p r t : Nat) (s : State) : State :=
  { s with ods := { s.ods with trans := s.ods.trans.filter (fun x => !sameTrans p r t x), ended := s.ods.ended.filter (· != (p, r, t)) } }

/-- Is there room for a transfer of a length (R449)? -/
def transRoom (s : State) (n : Nat) : Bool :=
  decide (s.ods.trans.length < 8) && decide ((s.ods.trans.map (fun x => if x.read then x.snapshot.length else x.total)).foldl (· + ·) 0 + n ≤ 524288)

def updTrans (p r t : Nat) (f : DictTrans → DictTrans) (s : State) : State :=
  { s with ods := { s.ods with trans := mapIf (sameTrans p r t) f s.ods.trans } }

/-- READ (R449). -/
def serveRead (path : DictPath) (m : DictMsg) (s : State) : State × DictAns :=
  let (p, r, t) := (pathCode path, requesterOf s path, m.tag.toNat)
  let s := endIdentity p r t s
  let s := if decide (m.index.toNat ∈ [0x8040, 0x8041]) then readSensors s else s
  match readValue (principalOf path (msgDbg m)) (arrivalOf path) m s with
  | .error e => (s, dictRefuse m 0 e)
  | .ok (type, v) =>
    if v.length ≤ segMax path then (s, { flags := 0, type, status := St.success, total := v.length, data := v })
    else if !transRoom s v.length then (s, dictRefuse m 0 St.dictBusy)
    else
      let x : DictTrans := {
        path := p, requester := r, tag := t, read := true, who := (principalOf path (msgDbg m)).getD .tray, index := m.index.toNat, sub := m.sub.toNat
        snapshot := v, total := v.length, segs := 1, lastAt := s.now, idleMs := s.ods.segIdleMs, arrival := arrivalOf path, type }
      ({ s with ods := { s.ods with trans := s.ods.trans ++ [x] } },
        { flags := 2, type, status := St.success, total := v.length, data := v.take (segMax path) })

/-- WRITE (R449): checks 3 to 7, then an expedited write's effect or segment 0. -/
def serveWrite (path : DictPath) (m : DictMsg) (s : State) : State × DictAns :=
  let (p, r, t) := (pathCode path, requesterOf s path, m.tag.toNat)
  let (ix, sub) := (m.index.toNat, m.sub.toNat)
  let s := endIdentity p r t s
  if !dictAvailable s ix sub then (s, dictRefuse m 0 St.unavailable)
  else match dictRow ix sub, principalOf path (msgDbg m) with
    | none, _ => (s, dictRefuse m 0 St.noEntry)
    | some _, none => (s, dictRefuse m 0 St.accessDenied)
    | some row, some who =>
      if !mayReach who (arrivalOf path) row ix sub true s then (s, dictRefuse m 0 St.accessDenied)
      else if !typeFits row m.type.toNat m.total.toNat then (s, dictRefuse m 0 St.typeMismatch)
      else if !(msgSeg m) then
        let (s, st) := applyWrite who ix sub row m.data s
        (s, { flags := 0, type := m.type.toNat, status := st, total := 0, data := [] })
      else if !transRoom s m.total.toNat then (s, dictRefuse m 0 St.dictBusy)
      else
        let x : DictTrans := {
          path := p, requester := r, tag := t, read := false, who, index := ix, sub, snapshot := m.data, total := m.total.toNat, segs := 1
          lastAt := s.now, idleMs := s.ods.segIdleMs, arrival := arrivalOf path, type := m.type.toNat }
        ({ s with ods := { s.ods with trans := s.ods.trans ++ [x] } }, dictRefuse m 2 St.success)

/-- The transaction of a segment message (R449, R450 check 2, R457): one ended by an event answers TRANSFER_ABORTED once, one that is not
open TRANSFER_TIMEOUT (log 68), one of the other kind SEQUENCE. -/
def segTrans (path : DictPath) (read : Bool) (m : DictMsg) (s : State) (f : DictTrans → State × DictAns) : State × DictAns :=
  let (p, r, t) := (pathCode path, requesterOf s path, m.tag.toNat)
  if decide ((p, r, t) ∈ s.ods.ended) then
    ({ s with ods := { s.ods with ended := s.ods.ended.filter (· != (p, r, t)) } }, dictRefuse m 0 St.transferAborted)
  else match s.ods.trans.find? (sameTrans p r t) with
    | none => (s, dictRefuse m 0 St.transferTimeout)
    | some x => if x.read == read then f x else (s, dictRefuse m 2 St.sequence)

/-- SEG_READ (R449): a segment from the snapshot, as often as it is asked for. -/
def serveSegRead (path : DictPath) (m : DictMsg) (s : State) : State × DictAns :=
  segTrans path true m s (fun x =>
    let k := m.segNo.toNat * segMax path
    if x.total ≤ k then (s, dictRefuse m 2 St.sequence)
    else
      let last := x.total ≤ k + segMax path
      (updTrans x.path x.requester x.tag (fun x => { x with lastAt := s.now }) s,
        { flags := 2 + 4 * b2n last, type := x.type, status := St.success, total := x.total, data := (x.snapshot.drop k).take (segMax path) }))

/-- SEG_WRITE (R449): in SEG_NO order; a repeat of the last accepted segment has no further effect; the value is applied whole on LAST. -/
def serveSegWrite (path : DictPath) (m : DictMsg) (s : State) : State × DictAns :=
  segTrans path false m s (fun x =>
    let n := m.segNo.toNat
    let s := updTrans x.path x.requester x.tag (fun x => { x with lastAt := s.now }) s
    let bs := x.snapshot ++ m.data
    if n + 1 = x.segs then (s, dictRefuse m 2 St.success)
    else if n != x.segs then (s, dictRefuse m 2 St.sequence)
    else if x.total < bs.length || ((msgLast m) != (bs.length == x.total)) then (s, dictRefuse m 2 St.malformed)
    else if !(msgLast m) then (updTrans x.path x.requester x.tag (fun x => { x with snapshot := bs, segs := x.segs + 1 }) s, dictRefuse m 2 St.success)
    else
      let s := endIdentity x.path x.requester x.tag s
      match dictRow x.index x.sub with
      | none => (s, dictRefuse m 2 St.noEntry)
      | some row =>
        let (s, st) := applyWrite x.who x.index x.sub row bs s
        (s, dictRefuse m 2 st))

/-- A request runs (R450): check 1, then its OP. -/
def serve (path : DictPath) (op : Nat) (m : DictMsg) (s : State) : State × DictAns :=
  if headerReserved op m then (s, dictRefuse m 0 St.reservedField)
  else if !wellFormed op (segMax path) m then (s, dictRefuse m 0 St.malformed)
  else match op with
    | 1 => serveRead path m s
    | 2 => serveWrite path m s
    | 3 => serveSegRead path m s
    | 4 => serveSegWrite path m s
    | _ => (endIdentity (pathCode path) (requesterOf s path) m.tag.toNat s, dictRefuse m 0 St.success)

/-- A request is counted and answered; every refusal counts (R450). -/
def dictRequest (path : DictPath) (op : Nat) (m : DictMsg) (s : State) : State × DictAns :=
  let r := serve path op m { s with ods := { s.ods with requests := s.ods.requests + 1 } }
  ({ r.1 with ods := { r.1.ods with refused := r.1.ods.refused + b2n (r.2.status != 0) } }, r.2)

/-- The interrupt source of a path (R465, log 19). -/
def pathSource : DictPath → Nat
  | .i3c _ => 384
  | .mailbox n => 385 + (if 16 ≤ n.toNat then 0 else 1 + n.toNat)
  | .fabric _ _ => 402

/-- The answer leaves on its path: an in-band interrupt announces one on I3C (R451; the data byte is its binding's, log 12), one on the
fabric goes toward ORIGIN (R455). -/
def deliverDict (path : DictPath) (op : Nat) (m : DictMsg) (a : DictAns) (s : State) : State :=
  let b := ansBytes op m a
  match path with
  | .i3c _ => (s.emit (.dictResponse 0 m.tag.toNat a.status b)).emit (.ibi 0xAE)
  | .mailbox _ => s.emit (.dictResponse 1 m.tag.toNat a.status b)
  | .fabric sl o =>
    match nextHop (s.domain sl.toNat) o.toNat with
    | some hop => sendDom sl.toNat hop 0x0101 (d2 o.toNat ++ d2 (s.domain sl.toNat).member ++ b) s
    | none => s.emit (.firmware sl.toNat b)

/-- A request of a path that delivers it. -/
def dictMessage (path : DictPath) (op : Nat) (m : DictMsg) (s : State) : State :=
  if pathOpen s path then
    let (s, a) := dictRequest path op m (pend (pathSource path) s)
    deliverDict path op m a s
  else s

/-- DICT_READ (R448, R449). -/
def execDictRead (path : DictPath) (m : DictMsg) (s : State) : Host.Outcome State Fault Refusal := .next (dictMessage path 1 m s)
/-- DICT_WRITE (R448, R449). -/
def execDictWrite (path : DictPath) (m : DictMsg) (s : State) : Host.Outcome State Fault Refusal := .next (dictMessage path 2 m s)
/-- SEG_READ (R448, R449). -/
def execSegRead (path : DictPath) (m : DictMsg) (s : State) : Host.Outcome State Fault Refusal := .next (dictMessage path 3 m s)
/-- SEG_WRITE (R448, R449). -/
def execSegWrite (path : DictPath) (m : DictMsg) (s : State) : Host.Outcome State Fault Refusal := .next (dictMessage path 4 m s)
/-- DICT_ABORT (R448, R449). -/
def execDictAbort (path : DictPath) (m : DictMsg) (s : State) : Host.Outcome State Fault Refusal := .next (dictMessage path 5 m s)

/-- DICT_SEG_IDLE_EXPIRY (R449, log 6): the transaction is freed; a later message with its identity finds none open. -/
def execDictSegIdleExpiry (path : DictPath) (tag : BitVec 8) (s : State) : Host.Outcome State Fault Refusal :=
  .next { s with ods := { s.ods with trans := s.ods.trans.filter (fun x => !sameTrans (pathCode path) (requesterOf s path) tag.toNat x) } }

/-! ### The fabric (R455) -/

/-- A message for another member goes on along the tree under this member's own SENDER and SEQUENCE. -/
def forwardDict (sl dest type : Nat) (body : Bytes) (s : State) : State :=
  match nextHop (s.domain sl) dest with
  | some hop => sendDom sl hop type body s
  | none => s

/-- DICT_ACCESS (R443, R455): accepted while KEYED or LIVE. A TARGET answers the masthead only; a message shorter than its header is
none (log 66). -/
def execDictAccess (slc : BitVec 4) (h : DomHdr) (origin target : BitVec 16) (message : Bytes) (s : State) : Host.Outcome State Fault Refusal :=
  .next (takeDom slc h 0x0100 (d2 origin.toNat ++ d2 target.toNat ++ message) s (fun s =>
    let sl := slc.toNat
    let d := s.domain sl
    if !decide (d.state ∈ [2, 3]) then s
    else if target.toNat != d.member then forwardDict sl target.toNat 0x0100 (d2 origin.toNat ++ d2 target.toNat ++ message) s
    else if message.length < 16 then s
    else let (op, m) := msgOf message; dictMessage (.fabric slc origin) op m s))

/-- DICT_REPLY (R455): forwarded toward ORIGIN, whose firmware takes it. -/
def execDictReply (slc : BitVec 4) (h : DomHdr) (origin target : BitVec 16) (message : Bytes) (s : State) : Host.Outcome State Fault Refusal :=
  .next (takeDom slc h 0x0101 (d2 origin.toNat ++ d2 target.toNat ++ message) s (fun s =>
    let sl := slc.toNat
    let d := s.domain sl
    if !decide (d.state ∈ [2, 3]) then s
    else if origin.toNat != d.member then forwardDict sl origin.toNat 0x0101 (d2 origin.toNat ++ d2 target.toNat ++ message) s
    else s.emit (.firmware sl message)))

end Sys2Proof.Machine
end

