-- ==== Sys2Proof/Machine/Mgmt.lean ====
section
/-!
DEFINITION. The carriers of the management plane: I3C addressing, MCTP packets and control messages (R451, R452), the mailboxes (R453, R454),
and the power estimate (R588). Codes and encodings of I3C and MCTP are their standards' (PRESUMED, log 12).
-/
namespace Sys2Proof.Machine

/-! ### Mailboxes (R453, R454) -/

def updMb (n : Nat) (f : Mailbox → Mailbox) (s : State) : State := { s with ods := { s.ods with mbs := s.ods.mbs.upd n f } }

/-- Completion of a mailbox's request: the response buffer, DONE, and the signal when IRQ_EN is set (R453). -/
def mbComplete (n : Nat) (b : Bytes) (s : State) : State :=
  let s := updMb n (fun x => { x with go := false, done := true, response := b, rspLen := b.length }) s
  if (s.ods.mbs.get n).irqEn then msix (if n = 16 then s.ods.mbVector else (s.cex.rings.get n).vector) s else s

/-- MB_GO (R453, R454): the driver's IRQ_EN, MB_REQ_LEN and request buffer at the write of GO. -/
def execMbGo (box : BitVec 5) (irqEn : Bool) (reqLen : BitVec 32) (request : Bytes) (s : State) : Host.Outcome State Fault Refusal :=
  .next <|
    let n := min box.toNat 16
    let path := DictPath.mailbox (BitVec.ofNat 5 n)
    if !pathOpen s path || (s.ods.mbs.get n).go then s
    else
      let req := fit reqLen.toNat (request.take 4096)
      let s := updMb n (fun x => { x with irqEn, reqLen := reqLen.toNat, request := request.take 4096 }) s
      if reqLen.toNat < 16 || 4096 < reqLen.toNat then updMb n (fun x => { x with lenErr := true }) s
      else
        let (op, m) := msgOf req
        let s := { s with ods := { s.ods with mbRequests := s.ods.mbRequests + b2n (n == 16) } }
        let (s, a) := dictRequest path op m (pend (pathSource path) (updMb n (fun x => { x with lenErr := false }) s))
        mbComplete n (ansBytes op m a) s

/-! ### I3C (R451, R577) -/

/-- SETDASA: the dynamic address, for a block with this static address and no dynamic one. -/
def execSetdasa (static_ dynamic_ : BitVec 7) (s : State) : Host.Outcome State Fault Refusal :=
  .next (if s.boot.inReset || s.ods.i3cStatic == 0 || s.ods.i3cDynamic != 0 || static_.toNat != s.ods.i3cStatic then s
    else { s with ods := { s.ods with i3cDynamic := dynamic_.toNat } })

/-- ENTDAA: the dynamic address, for a block that has none. -/
def execEntdaa (dynamic_ : BitVec 7) (s : State) : Host.Outcome State Fault Refusal :=
  .next (if s.boot.inReset || s.ods.i3cDynamic != 0 then s else { s with ods := { s.ods with i3cDynamic := dynamic_.toNat } })

/-! ### MCTP control messages (R451) -/

/-- Is a destination the block's endpoint: the null EID, or its own once one is assigned (R451)? -/
def atEndpoint (s : State) (dest : Nat) : Bool := !s.boot.inReset && (dest == 0 || (s.ods.eid != 0 && dest == s.ods.eid))

/-- A control message reaches the endpoint. Transport 4 stands for MCTP control; the codes are DSP0236's. -/
def mctpControl (dest : BitVec 8) (s : State) (f : State → State) : State := if atEndpoint s dest.toNat then f (pend 384 s) else s

def mctpReply (code : Nat) (values : Bytes) (s : State) : State := (s.emit (.response 4 code (Config.stdBody code values))).emit (.ibi 0xAE)

/-- SET_ENDPOINT_ID: operations 0 and 1 assign the EID; another, or an EID that names no endpoint, is invalid data. -/
def execSetEndpointId (dest source op eid : BitVec 8) (s : State) : Host.Outcome State Fault Refusal :=
  .next (mctpControl dest s (fun s =>
    if 1 < op.toNat || eid.toNat < 8 || eid == 0xFF then mctpReply 1 [2] s
    else mctpReply 1 [0, 0, eid, 0] { s with ods := { s.ods with eid := eid.toNat, busOwner := source.toNat } }))

/-- GET_ENDPOINT_ID. -/
def execGetEndpointId (dest : BitVec 8) (s : State) : Host.Outcome State Fault Refusal :=
  .next (mctpControl dest s (fun s => mctpReply 2 (0 :: d1 s.ods.eid) s))

/-- GET_ENDPOINT_UUID (R459). -/
def execGetEndpointUuid (dest : BitVec 8) (s : State) : Host.Outcome State Fault Refusal :=
  .next (mctpControl dest s (fun s => mctpReply 3 (0 :: endpointUuid s) s))

/-- GET_MCTP_VERSION_SUPPORT. -/
def execGetMctpVersionSupport (dest type : BitVec 8) (s : State) : Host.Outcome State Fault Refusal :=
  .next (mctpControl dest s (mctpReply 4 [0, type]))

/-- GET_MESSAGE_TYPE_SUPPORT: SPDM, SPDM secured messages, vendor defined by IANA enterprise number (R451). -/
def execGetMessageTypeSupport (dest : BitVec 8) (s : State) : Host.Outcome State Fault Refusal :=
  .next (mctpControl dest s (mctpReply 5 [0, 3, 0x05, 0x06, 0x7F]))

/-- GET_VENDOR_DEFINED_MESSAGE_SUPPORT: one set, MGMT_PEN (R452). -/
def execGetVendorDefinedMessageSupport (dest selector : BitVec 8) (s : State) : Host.Outcome State Fault Refusal :=
  .next (mctpControl dest s (if selector == 0 then mctpReply 6 ([0, 0xFF, 1] ++ beBytes 4 61703) else mctpReply 6 [2]))

/-! ### MCTP packets (R451, R452) -/

/-- The fields of a packet's header (DSP0236): SOM, EOM, sequence, tag with its owner, source. -/
def packetHdr (b : Bytes) : Bool × Bool × Nat × Nat × Nat :=
  let f := field b 3 1
  (bit f 7, bit f 6, bits f 5 4, bits f 3 0, field b 2 1)

def dropPacket (s : State) : State := { s with ods := { s.ods with packetsDropped := s.ods.packetsDropped + 1 } }
def dropMessage (s : State) : State := { s with ods := { s.ods with messagesDropped := s.ods.messagesDropped + 1 } }

/-- An assembled message (R451, R452): a dictionary-access message of MGMT_PEN with the integrity-check bit clear runs here; a control or
SPDM message is the command of its own row (log 66); any other is dropped. -/
def takeMessage (source : Nat) (b : Bytes) (s : State) : State :=
  let type := field b 0 1
  if 1045 < b.length then dropMessage s
  else if type = 0x7F && beNat (slice b 1 4) == 61703 && decide (21 ≤ b.length) then
    let (op, m) := msgOf (b.drop 5)
    dictMessage (.i3c (BitVec.ofNat 8 source)) op m s
  else if decide (type ∈ [0x00, 0x05, 0x06]) then s
  else dropMessage s

/-- MCTP_PACKET_RECEIVE (R451): `binding` says that the packet passes its I3C binding's checks. A packet that fails them, that is not one of
the baseline transmission unit, that is for another endpoint or that continues no message is dropped. -/
def execMctpPacketReceive (binding : Bool) (packet : Bytes) (s : State) : Host.Outcome State Fault Refusal :=
  .next <|
    let (som, eom, seq, tag, source) := packetHdr packet
    let data := packet.drop 4
    let others := s.ods.asm.filter (fun a => !(a.source == source && a.tag == tag))
    if s.boot.inReset then s
    else if !binding || packet.length < 5 || 68 < packet.length || field packet 0 1 % 16 != 1 || !atEndpoint s (field packet 1 1) ||
        (!eom && packet.length != 68) then dropPacket s
    else
      let go (all : Bytes) (s : State) : State :=
        if eom then takeMessage source all { s with ods := { s.ods with asm := others } }
        else { s with ods := { s.ods with asm := others ++ [{ source, tag, seq, data := all }] } }
      if som then go data s
      else match s.ods.asm.find? (fun a => a.source == source && a.tag == tag) with
        | none => dropPacket s
        | some a =>
          if seq != (a.seq + 1) % 4 then dropPacket { s with ods := { s.ods with asm := others } }
          else go (a.data ++ data) s

/-! ### The power estimate -/

/-- POWER_ESTIMATE_UPDATE (R588): the estimates are recomputed. The manual gives their sources and not their formula: free values (log 69). -/
def execPowerEstimateUpdate (s : State) : Host.Outcome State Fault Refusal :=
  .next { s with
    ods := { s.ods with
      powerMw := (s.draw 32).toNat
      subsysMw := (rangeFrom 1 21).foldl (fun t i => t.set i (Config.free 32 (s.free + i)).toNat) s.ods.subsysMw }
    free := s.free + 22 }

end Sys2Proof.Machine
end

