-- ==== Sys2Proof/Machine/Sheaf.lean ====
section
/-!
DEFINITION. The sheaf commands (R314, R315, R318-R320).
-/
namespace Sys2Proof.Machine

/-- A participant entry (R314): region, reserved octets, tag, base line. -/
structure PartEntry where
  region : Nat
  zero : Nat
  tag : Nat
  base : Nat
  deriving DecidableEq, Repr

/-- Read a participant entry. -/
def partEntry (b : BitVec 128) : PartEntry :=
  { region := bits b.toNat 15 0, zero := bits b.toNat 31 16, tag := bits b.toNat 63 32, base := bits b.toNat 127 64 }

/-- Condition 4 of R314 for one entry; a region stands once in the list (R308). -/
def partRegionOk (s : State) (sl : Nat) (ps : List PartEntry) (p : PartEntry) : Bool :=
  let x := s.region p.region
  decide (p.region < 4096) && x.valid && x.slice == sl && x.mode != 3 && x.sheaf && (x.state == 1 || x.state == 2) &&
  !s.sheaf.ctxs.ents.any (fun e => e.2.state != 0 && e.2.parts.any (fun q => q.1 == p.region)) &&
  (ps.filter (fun q => q.region == p.region)).length == 1

/-- Condition 5 of R314 for one entry: its logical range, and its overlap with entries of its tag. -/
def partRangeOk (s : State) (ps : List PartEntry) (p : PartEntry) : Bool :=
  let n (q : PartEntry) : Nat := (s.region q.region).lines
  decide (p.base + n p ≤ 2 ^ 64) &&
  (ps.filter (fun q => q.tag == p.tag && q != p)).all (fun q => decide (q.base + n q ≤ p.base) || decide (p.base + n p ≤ q.base))

/-- A free sheaf context of the block's 32 (R326). -/
def freeCtx (s : State) : Option Nat := (List.range 32).find? (fun k => (s.sheaf.ctxs.get k).state == 0)

/-- The sheaves that a slice holds open. -/
def openSheaves (s : State) (sl : Nat) : Nat := (s.sheaf.ctxs.findAll (fun _ c => c.state != 0 && c.slice == sl)).length

/-- An accepted SHEAF_BEGIN (R314). -/
def beginSheaf (h : CmdHdr) (id slot : Nat) (ps : List PartEntry) (s : State) : State :=
  let sl := hdrSlice h
  let k := (freeCtx s).getD 0
  let c : SheafCtx := {
    state := 1, id, slice := sl, slot, parts := ps.map (fun p => (p.region, p.tag, p.base)),
    expected := (ps.map (fun p => (s.region p.region).lines)).foldl (· + ·) 0 }
  let s := { s with sheaf := { s.sheaf with ctxs := s.sheaf.ctxs.set k c, opened := s.sheaf.opened.upd sl (fun l => l ++ [id]) } }
  finish h.key St.success 0 (loadKey 6 k (s.slot slot).key (some slot) s)

/-- SHEAF_BEGIN (R314). -/
def execSheafBegin (h : CmdHdr) (id : BitVec 32) (slot : BitVec 16) (count : BitVec 8) (listBva : BitVec 64) (x : Option XFault)
    (list : List (BitVec 128)) (s : State) : Host.Outcome State Fault Refusal :=
  .next (cexRun h 0x0300 [(0x18, 4, id.toNat), (0x1C, 2, slot.toNat), (0x1E, 1, count.toNat), (0x20, 8, listBva.toNat)] s (fun s =>
    let sl := hdrSlice h
    checked h ([(decide (1 ≤ count.toNat) && decide (count.toNat ≤ 16) && aligned8 listBva, St.invalidOperand, 0), (keyed s sl, St.domainState, 1),
        (id != 0, St.invalidOperand, 1), (!decide (id.toNat ∈ s.sheaf.opened.get sl), St.sheafReused, 2)] ++
        keyChecks s sl slot.toNat 6 0xFFFF id.toNat 3 ++ [(kweRuns s, St.entropyFailure, 0)]) s (fun s =>
      match x with
      | some f => xltFault h.key h.ctx.toNat f s
      | none =>
        let ps := ((list.take count.toNat) ++ List.replicate (count.toNat - list.length) 0).map partEntry
        checked h [(ps.all (fun p => p.zero == 0), St.reservedField, 0), (ps.all (partRegionOk s sl ps), St.sheafParticipant, 4),
          (ps.all (partRangeOk s ps), St.sheafParticipant, 5), ((freeCtx s).isSome && decide (openSheaves s sl < 4), St.resourceExhausted, 6)] s
          (beginSheaf h id.toNat slot.toNat ps))))

/-- SHEAF_END (R315). -/
def execSheafEnd (h : CmdHdr) (id : BitVec 32) (out : BitVec 64) (x : Option XFault) (s : State) : Host.Outcome State Fault Refusal :=
  .next (cexRun h 0x0301 [(0x18, 4, id.toNat), (0x20, 8, out.toNat)] s (fun s =>
    let k := (s.sheaf.ctxs.findAll (fun _ c => c.state == 1 && c.slice == hdrSlice h && c.id == id.toNat)).head?
    checked h [(aligned8 out && k.isSome, St.invalidOperand, 0)] s (fun s =>
      match x with
      | some f => xltFault h.key h.ctx.toNat f s
      | none => settleSheaves { s with sheaf := { s.sheaf with
          ctxs := s.sheaf.ctxs.upd (k.getD 0) (fun c => { c with state := 2, ending := some h.key, endBva := out.toNat }) } })))

/-! ### Combining (R318-R320) -/

/-- Checks 1 to 3 of R318 on one input record: the status and the number of the failing check. -/
def recordStatus (ks : BitVec 256) (d : Dom) (id : Nat) (r : Bytes) : Nat × Nat :=
  let form := slice r 0 4 == [0x53, 0x48, 0x46, 0x31] && field r 4 2 == 1 && decide (field r 6 1 < 8) && field r 7 1 == 0 &&
    field r 0x1A 6 == 0 && field r 0x25C 4 == 0
  if !form then (St.reservedField, 1)
  else if (recordTag ks (BitVec.ofNat 96 (field r 0x250 12)) (slice r 0 0x260)).toNat != field r 0x260 16 then (St.recordInvalid, 2)
  else if field r 8 8 != d.id || field r 0x10 4 != d.attempt || field r 0x14 4 != id then (St.recordMismatch, 3)
  else (St.success, 0)

/-- What combining has gathered so far: MEMBERS, LINES, EXPECTED_LINES, DIGEST, and the bound digest. -/
structure Combined where
  members : Nat
  lines : Nat
  expected : Nat
  digest : Nat
  bound : Option Nat
  deriving DecidableEq, Repr

/-- One input of SHEAF_COMBINE, in list order (R318). -/
def combineOne (ks : BitVec 256) (d : Dom) (id : Nat) (a : Except (Nat × Nat) Combined) (r : Bytes) : Except (Nat × Nat) Combined :=
  match a with
  | .error e => .error e
  | .ok c =>
    let st := recordStatus ks d id r
    let m := field r 0x50 512
    let bound := if bit (field r 6 1) 1 then some (field r 0x40 16) else none
    if st.1 != 0 then .error st
    else if Nat.land m c.members != 0 then .error (St.recordOverlap, 4)
    else if bound.isSome && c.bound.isSome && bound != c.bound then .error (St.sheafMismatch, 5)
    else .ok {
      members := c.members + m, lines := (c.lines + field r 0x20 8) % 2 ^ 64, expected := (c.expected + field r 0x28 8) % 2 ^ 64,
      digest := (c.digest + field r 0x30 16) % sheafP, bound := if c.bound.isSome then c.bound else bound }

/-- The output of an accepted SHEAF_COMBINE (R318, R320). -/
def combineOut (h : CmdHdr) (id slot : Nat) (sign : Bool) (out : Nat) (c : Combined) (s : State) : State :=
  let sl := hdrSlice h
  let d := s.domain sl
  let complete := completeSet d c.members
  let present := c.bound.isSome
  let bound := c.bound.getD 0
  let mismatch := complete && present && c.digest != bound
  let r : SheafRec := {
    flags := recordFlags complete present (complete && present && c.digest == bound), domain := d.id, attempt := d.attempt, id, issuer := d.member,
    lines := c.lines, expected := c.expected, digest := c.digest, bound, members := c.members }
  let (iv, s) := drbgBits 96 s
  let b := r.seal (s.slot slot).key iv
  let (b, s) := if sign && complete then
      let body := b ++ beBytes 48 (Config.sha384 d.evidence).toNat ++ beBytes 48 s.atu.aliasDigest.toNat
      let (sig, s) := hybridSign 1 "PELGEN-S4/SHEAF" body s
      (body ++ sig, s)
    else (b, s)
  let s := { s.emit (.dma (tableSet s h.ctx.toNat) out b) with sheaf := { s.sheaf with issued := s.sheaf.issued.upd sl (· + 1) } }
  finish h.key (if mismatch then St.sheafMismatch else if sign && !complete then St.notComplete else St.success) b.length s

/-- A refused SHEAF_COMBINE is counted (R326). -/
def refuseCombine (h : CmdHdr) (status detail : Nat) (s : State) : State :=
  refuse h status detail { s with sheaf := { s.sheaf with combinesRefused := s.sheaf.combinesRefused.upd (hdrSlice h) (· + 1) } }

/-- SHEAF_COMBINE (R318-R320): `recs` are the input records as read. A sheaf that is to be signed and cannot be is refused after the
checks of R318 (R80, R88, log 130). -/
def execSheafCombine (h : CmdHdr) (id : BitVec 32) (slot : BitVec 16) (opt : BitVec 8) (inBva : BitVec 64) (count : BitVec 16) (out : BitVec 64)
    (x : Option XFault) (recs : List Bytes) (s : State) : Host.Outcome State Fault Refusal :=
  .next (cexRun h 0x0302 [(0x18, 4, id.toNat), (0x1C, 2, slot.toNat), (0x1E, 1, opt.toNat), (0x20, 8, inBva.toNat), (0x28, 2, count.toNat), (0x30, 8, out.toNat)] s (fun s =>
    let sl := hdrSlice h
    let sign := bit opt.toNat 0
    match firstFail ([(aligned8 inBva && aligned8 out && decide (1 ≤ count.toNat) && decide (count.toNat ≤ 4096), St.invalidOperand, 0)] ++
        keyChecks s sl slot.toNat 6 0xFFFF id.toNat 0) with
    | some r => refuseCombine h r.1 r.2 s
    | none => match x with
      | some f => xltFault h.key h.ctx.toNat f s
      | none =>
        let rs := ((recs.take count.toNat) ++ List.replicate (count.toNat - recs.length) []).map (fit 624)
        match rs.foldl (combineOne (s.slot slot.toNat).key (s.domain sl) id.toNat) (.ok { members := 0, lines := 0, expected := 0, digest := 0, bound := none }) with
        | .error e => refuseCombine h e.1 e.2 s
        | .ok c =>
          if sign && completeSet (s.domain sl) c.members && !(entOk s && pkeRuns s) then refuseCombine h St.entropyFailure 0 s
          else combineOut h id.toNat slot.toNat sign out.toNat c s))

end Sys2Proof.Machine
end

