-- ==== Sys2Proof/Machine/Migrate.lean ====
section
/-!
DEFINITION. Moving a slice to another block: freeze, save, restore, commit and thaw (R426-R436).
-/
namespace Sys2Proof.Machine

/-! ### Freezing (R426, R427) -/

/-- The conditions of R426: why a freeze is refused with REGION_STATE. -/
def freezeRefused (s : State) (sl : Nat) : Bool :=
  s.mem.regions.ents.any (fun e => e.2.valid && e.2.mode != 3 &&
    ((e.2.slice == sl && (e.2.grants != 0 || (e.2.mode == 2 && e.2.save == 1))) || bit e.2.grants sl)) || s.mem.window.get sl != 0 ||
  s.cex.queues.ents.any (fun q => q.2.flights.any (fun f => f.phase != .completed && rawSlice f.raw == sl && decide (rawOpcode f.raw ∈ [0x0700, 0x0701, 0x0702])))

/-- The waits of a slice's WAIT_MEM and WAIT_SYNC are withdrawn and keep their remaining time (R427 condition 1). -/
def withdrawWaits (sl : Nat) (s : State) : State :=
  let mine (w : WaitRec) : Bool := w.slice == sl && decide (w.kind ∈ [1, 2])
  let left (w : WaitRec) : WaitRec := { w with limitUs := w.limitUs - (s.now - w.since) / 1000 }
  let s' := updSlice sl (fun r => { r with withdrawn := r.withdrawn ++ (s.cex.waits.filter mine).map left }) s
  { s' with cex := { s'.cex with waits := s'.cex.waits.filter (fun w => !mine w) } }

/-- The ploughs of a slice's regions. -/
def sliceRegions (s : State) (sl : Nat) : List Nat := s.mem.regions.findAll (fun _ r => r.valid && r.mode != 3 && r.slice == sl)

/-- SLICE_FREEZE (R426, R427): a slice that is not ACTIVE, or is freezing, refuses it (log 44). -/
def execSliceFreeze (h : CmdHdr) (s : State) : Host.Outcome State Fault Refusal :=
  .next (cexRun h 0x0602 [] s (fun s =>
    let sl := hdrSlice h
    checked h [((s.slice sl).state == 1 && (s.slice sl).freezing.isNone, St.sliceBusy, 0), (!freezeRefused s sl, St.regionState, 0)] s (fun s =>
      let s := withdrawWaits sl (tdiError sl 4 (updSlice sl (fun r => { r with freezing := some h.key }) s))
      (sliceRegions s sl).foldl (fun s r => pausePlough r 3 s) s)))

/-- A started command that a freeze waits for (R427 condition 1): not its own, a paused PLOUGH, a CALL, a LAUNCH or a withdrawn wait. -/
def holdsFreeze (s : State) (sl : Nat) (k : CmdKey) (f : Flight) : Bool :=
  (f.phase == .running || f.phase == .done) && rawSlice f.raw == sl && f.key != k &&
  !(rawOpcode f.raw == 0x0120 && s.mem.ploughs.any (fun p => p.state == 2 && decide (f.key ∈ p.keys))) && !decide (rawOpcode f.raw ∈ [0x0001, 0x0004]) &&
  !(s.slice sl).withdrawn.any (fun w => w.key == f.key)

/-- Is a slice quiescent (R427)? -/
def quiescent (s : State) (sl : Nat) (k : CmdKey) : Bool :=
  !s.cex.queues.ents.any (fun q => q.2.flights.any (holdsFreeze s sl k)) &&
  !(sliceRegions s sl).any (writesOut s) &&
  !(List.range 18).any (fun p => (s.link.txOpen.get p).any (fun g => (s.stream g.stream).slice == sl)) &&
  !s.link.gw.any (fun g => g.slice == sl) && !s.link.pend.any (fun g => g.slice == sl) && !s.link.waits.any (fun w => field w.gsh 1 1 / 16 == sl) &&
  !(s.kwe.current.toList ++ s.kwe.queue).any (fun r => r.who == sl) && !decide (sl ∈ s.srg.store)

/-- A freeze whose conditions hold completes, and its slice enters FROZEN (R427). A freeze whose command has ended otherwise is over. -/
def settleFreeze (sl : Nat) (s : State) : State :=
  match (s.slice sl).freezing with
  | none => s
  | some k =>
    if !(match s.flight k with | some f => f.phase == .running | none => false) then updSlice sl (fun r => { r with freezing := none }) s
    else if quiescent s sl k then finish k St.success 0 (updSlice sl (fun r => { r with freezing := none, state := 2 }) s)
    else s

/-- Every pending freeze is looked at (log 46). -/
def settleFreezes (s : State) : State := (List.range 16).foldl (fun s sl => settleFreeze sl s) s

/-! ### Saving (R429, R430, R435) -/

/-- What a save carries of a slice beside its keys, its lines and its statements (R430). `slots` are the source's slot numbers
in the order of the KEYS section. -/
structure SliceSave where
  creation : Bytes
  dom : Dom
  proof : Bytes
  slots : List Nat
  pasids : List Nat
  regions : List (Nat × Region × Option Nat × Option Plough)
  streams : List (Nat × Stream)
  pairs : List (Nat × Pair)
  groups : List (Nat × FenceGroup)
  queues : List (Nat × Queue)
  bindings : List (Nat × Binding)
  syncs : List SyncCtr
  waits : List WaitRec
  graphs : List (Nat × Graph)
  sheaves : List SheafCtx
  opened : List Nat
  usage : Usage
  deriving DecidableEq, Repr

end Sys2Proof.Machine

namespace Sys2Proof.Config

/-- The bytes of sections 1 and 3 to 8 of a save, whose inner layout the manual does not give (R430, log 47), and their reading
at the destination: none when they are not those of a save. -/
opaque saveSection (type : Nat) (x : Sys2Proof.Machine.SliceSave) : Bytes
opaque readSave (sections : List Bytes) : Option Sys2Proof.Machine.SliceSave

end Sys2Proof.Config

namespace Sys2Proof.Machine

/-- The entries of a table that a test picks, with their indexes. -/
def pickEnts {α : Type} (t : Tbl α) (p : Nat → α → Bool) : List (Nat × α) := t.ents.filter (fun e => p e.1 e.2)

/-- The slots that the KEYS section carries: VALID, no region key, no BLOB key (R430). -/
def savedSlots (s : State) (sl : Nat) : List Nat :=
  (pickEnts s.kst (fun n k => inPartition s sl n && k.valid && !(k.eng && decide (k.cls ∈ [1, 2, 3, 7])))).map (·.1)

/-- What a save of a slice carries. -/
def saveOf (s : State) (sl : Nat) : SliceSave :=
  let r := s.slice sl
  let qs := pickEnts s.cex.queues (fun _ q => q.state != 0 && q.owner == sl)
  {
    creation := r.creation, dom := s.domain sl, proof := if (s.domain sl).provable then inclusionProof s sl else [], slots := savedSlots s sl, pasids := r.pasids,
    regions := (pickEnts s.mem.regions (fun _ x => x.valid && x.mode != 3 && x.slice == sl)).map (fun e => (e.1, e.2, s.mem.mark.get e.1, ploughOf s e.1)),
    streams := pickEnts s.link.streams (fun _ x => x.state != 0 && x.slice == sl), pairs := pickEnts s.link.pairs (fun _ x => x.valid && x.slice == sl),
    groups := (pickEnts s.cex.groups (fun i _ => i / 64 == sl)).map (fun e => (e.1 % 64, e.2)), queues := qs,
    bindings := s.cex.bindings.ents.filterMap (fun e => match e.2 with | some b => if b.slice == sl then some (e.1, b) else none | none => none),
    syncs := (rangeFrom (sl * 64) 64).map s.cex.syncs.get, waits := r.withdrawn,
    graphs := (pickEnts s.cex.graphs (fun i g => i / 64 == sl && g.state != 0)).map (fun e => (e.1 % 64, e.2)),
    sheaves := (pickEnts s.sheaf.ctxs (fun _ c => c.state != 0 && c.slice == sl)).map (·.2), opened := s.sheaf.opened.get sl, usage := r.usage }

/-- The KEYS section: attribute word, binding word, wrap identifier and key of each slot (R430). -/
def keysSection (s : State) (ns : List Nat) : Bytes :=
  ns.flatMap (fun n => let k := s.slot n; leBytes 8 k.attr.toNat ++ leBytes 8 k.binding.toNat ++ leBytes 16 k.wrapId.toNat ++ keyBytes k.key)

/-- Lines of the regions of a save. -/
def saveLines (x : SliceSave) : Nat := (x.regions.map (fun r => r.2.1.lines)).foldl (· + ·) 0

/-- Things that each section of a save counts (R430). -/
def saveCounts (x : SliceSave) (chain : Nat) : List Nat :=
  [1, x.slots.length, x.regions.length, x.streams.length + x.pairs.length + x.groups.length, x.queues.length, x.graphs.length, x.sheaves.length, 1,
   x.regions.length, chain]

/-- The directory of a save's payload (R430). -/
def saveDirectory (counts : List Nat) (sections : List Bytes) : Bytes :=
  let entry (acc : Nat × Bytes) (e : (Nat × Bytes) × Nat) : Nat × Bytes :=
    (acc.1 + e.1.2.length, acc.2 ++ leBytes 2 (e.2 + 1) ++ leBytes 2 (e.1.1 % 65536) ++ leBytes 4 0 ++ leBytes 8 acc.1 ++ leBytes 8 e.1.2.length ++ leBytes 8 0)
  leBytes 4 sections.length ++ List.replicate 12 0 ++ ((counts.zip sections).zipIdx.foldl entry (16 + 32 * sections.length, [])).2

/-- The payload of a save (R430). -/
def savePayload (s : State) (x : SliceSave) (data chain : Bytes) : Bytes :=
  let sections := (rangeFrom 1 10).map (fun t =>
    if t = 2 then keysSection s x.slots else if t = 9 then fit (128 * saveLines x) data else if t = 10 then chain else Config.saveSection t x)
  saveDirectory (saveCounts x (chain.length / 4899)) sections ++ sections.flatten

/-- A section of a payload by its TYPE. -/
def saveSectionAt (p : Bytes) (t : Nat) : Bytes := let e := 16 + 32 * (t - 1); slice p (field p (e + 8) 8) (field p (e + 16) 8)

/-- The first 176 bytes of a migration statement (R435). -/
def migrationBody (s : State) (sl : Nat) (evidence head : Bytes) : Bytes :=
  let d := s.domain sl
  magicFormat "MIG1" ++ leBytes 2 d.member ++ leBytes 8 d.id ++ leBytes 4 d.attempt ++ leBytes 4 ((s.slice sl).migrations + 1) ++ leBytes 8 0 ++
    digestBytes s.atu.deviceIdDigest ++ digestBytes (Config.sha384 evidence) ++ digestBytes (Config.sha384 head)

/-- The certificates of a recipient bundle (R428): each behind its length. -/
def bundleCerts : Nat → Bytes → List Bytes
  | 0, _ => []
  | n + 1, b => let l := field b 0 4; slice b 4 l :: bundleCerts n (b.drop (4 + l))

/-- A save that its checks let through (R429, R430, R435): the state after it, its blob and the blob's key. -/
def saveSlice (sl : Nat) (rcpt evidence data : Bytes) (s : State) : State × Option (Bytes × BitVec 256) :=
  let x := saveOf s sl
  let chain := (s.slice sl).migChain
  let len := (savePayload s x data (chain ++ List.replicate 4899 0)).length
  let (nonce, s) := drbgBits 64 s
  let hdr : BlobHdr := {
    kind := kindSave, method := 2, domain := blobDomain s sl, wrapId := recipientId rcpt, len := len, log2 := 21, attr := 0, sequence := 0, nonce := nonce, bound := 0 }
  match hybridHead rcpt hdr s with
  | (none, s) => (s, none)
  | (some (head, key), s) =>
    let (st, s) := signed "PELGEN-S4/MIGRATION" (migrationBody s sl evidence head) s
    let blob := head ++ blobChunks key head hdr (savePayload s x data (chain ++ st))
    (kweDone (updSlice sl (fun r => { r with state := 3, migChain := chain ++ st, migrations := r.migrations + 1 }) s), some (blob, key))

/-- Bytes of the save blob of a slice. -/
def saveTotal (s : State) (sl : Nat) : Nat :=
  let n := (savePayload s (saveOf s sl) [] ((s.slice sl).migChain ++ List.replicate 4899 0)).length
  1824 + n + 16 * chunkCount n 21

/-- Is a line in a save's DATA section read? A line of a one-shot region outside its SEALED save range has no version, and stands there as
zeros (R430, log 47). -/
def savedLine (x : Region) (n : Nat) : Bool := x.mode != 2 || (x.save == 2 && inSave x n)

/-- The lines of the DATA section in their order: whether each is read, and its line number (R430). -/
def dataLines (s : State) (sl : Nat) : List (Bool × Nat) :=
  (saveOf s sl).regions.flatMap (fun r => (List.range r.2.1.lines).map (fun n => (savedLine r.2.1 n, r.2.1.firstLn + n)))

/-- The lines that SLICE_SAVE reads, with their numbers. -/
def saveReads (s : State) (sl : Nat) : List (Nat × Nat) :=
  (dataLines s sl).zipIdx.filterMap (fun e => if e.1.1 then some (e.1.2, e.2) else none)

/-- The DATA section from the lines that were read: none when one read poison. -/
def saveData (ls : List (Bool × Nat)) (got : Nat → Option Line) : Option Bytes :=
  ls.zipIdx.foldl (fun acc e => match acc, (if e.1.1 then got e.2 else some []) with
    | some p, some l => some (p ++ fit 128 l)
    | _, _ => none) (some [])

/-- SLICE_SAVE with the lines of its regions read (R429, R430). -/
def saveBody (h : CmdHdr) (out : Nat) (g : Gather) (got : Nat → Option Line) (s : State) : State :=
  let sl := hdrSlice h
  checked h [((s.slice sl).state == 2, St.sliceBusy, 1), (entOk s && pkeRuns s && kweRuns s, St.entropyFailure, 0),
      ((freePke s).isSome, St.resourceExhausted, 9), ((blobSlot s sl).isSome, St.resourceExhausted, 8)] s (fun s =>
    match saveData (dataLines s sl) got with
    | none => finish h.key St.regionState 0 s
    | some p => match saveSlice sl (g.buffers.headD []) (g.buffers.getD 1 []) p s with
      | (s, none) => finish h.key St.invalidOperand 0 s
      | (s, some (b, key)) =>
        let r := withBlobSlot sl h.ctx.toNat key s (fun s => (s.emit (.dma (tableSet s h.ctx.toNat) out b), St.success, b.length))
        finish h.key r.2.1 r.2.2 r.1)

/-- SLICE_SAVE (R374, R429): `bundle` is the recipient bundle. The block reads the lines of the regions itself (R430). -/
def execSliceSave (h : CmdHdr) (out outLen rcptBva : BitVec 64) (x : Option XFault) (bundle : Bytes) (s : State) :
    Host.Outcome State Fault Refusal :=
  .next (gatherRun h 0x0603 [(0x18, 8, out.toNat), (0x20, 8, outLen.toNat), (0x28, 8, rcptBva.toNat)] s (saveBody h out.toNat) (fun s =>
    let sl := hdrSlice h
    let d := s.domain sl
    checked h [(aligned8 out && aligned8 rcptBva, St.invalidOperand, 0), ((s.slice sl).state == 2, St.sliceBusy, 1), (keyed s sl, St.domainState, 1),
        (decide ((s.slice sl).migrations < 8), St.sliceBusy, 2)] s (fun s =>
      match x with
      | some f => xltFault h.key h.ctx.toNat f s
      | none =>
        let (rcpt, ev) := (slice bundle 0 1665, slice bundle 0x688 8755)
        let nonce := migrationNonce d.id d.attempt d.member (digestBytes s.atu.deviceIdDigest)
        match checkEvidenceOf false sl d.member d.policy nonce ev (bundleCerts 4 (bundle.drop 0x28BB)) s with
        | (some code, s) => finish h.key St.policyFailure code s
        | (none, s) =>
          checked h [(rcpt == evEk ev ++ evEcdh ev, St.policyFailure, 4), (decide (saveTotal s sl ≤ outLen.toNat), St.bufferTooSmall, saveTotal s sl),
              (entOk s && pkeRuns s && kweRuns s, St.entropyFailure, 0), ((freePke s).isSome, St.resourceExhausted, 9),
              ((blobSlot s sl).isSome, St.resourceExhausted, 8)] s (fun s =>
            startGather { key := h.key, buffers := [rcpt, ev] } 0x11 (saveReads s sl) (saveBody h out.toNat) s))))

/-! ### Restoring (R431, R432) -/

/-- An entry of the placement list (R431). -/
structure Placement where
  src : Nat
  dst : Nat
  crown : Nat
  base : Nat
  metaBase : Nat
  mirror : Nat
  ok : Bool
  deriving DecidableEq, Repr

/-- The placement list. -/
def placements (n : Nat) (b : Bytes) : List Placement :=
  (List.range n).map (fun i =>
    let e := slice b (24 * i) 24
    {
      src := field e 0 2, dst := field e 2 2, crown := field e 4 2, base := field e 8 5, metaBase := field e 0xD 5, mirror := field e 0x12 5,
      ok := field e 6 2 == 0 && field e 0x17 1 == 0 })

/-- E_r of R432 step 2. -/
def restoreEpoch (x : Region) (mark : Option Nat) (p : Option Plough) : Nat :=
  max x.epoch (max (mark.getD 0) ((p.map (fun p => p.epoch)).getD 0)) + 1

/-- A saved region at its placement, under E_r and the destination's slice (R432 step 3). -/
def placedRegion (sl : Nat) (x : Region) (e : Nat) (p : Placement) (now : Nat) : Region :=
  { x with
    state := 1, slice := sl, base := p.base, metaBase := if x.mode = 0 then p.metaBase else 0, mirrorBase := if x.mode = 0 then p.mirror else 0,
    crownFirst := if x.mode = 0 then p.crown else 0, epoch := e, furrow := 0, nextData := 0, nextTweak := 0, nextTag := 0, window := false, closing := false,
    grants := 0, tgcCount := 0, epochAt := now, agesRaised := 0, define := none, retire := [], importing := false }

/-- The checks of one placement (R431): conditions 1 to 3 of R147, R185, R256. -/
def placementChecks (s : State) (sl : Nat) (p : Placement) (x : Region) : List (Bool × Nat × Nat) :=
  [(p.ok, St.reservedField, 0), (ownsRegionIx s sl p.dst, St.invalidOperand, 0), (!(s.region p.dst).valid, St.regionBusy, 0),
   (decide (1 ≤ x.pages) && decide (x.pages ≤ 2 ^ 28) && decide (x.base + x.pages ≤ 2 ^ 35), St.regionRange, 1),
   (rangeFree s (x.base * 4096, x.pages * 4096), St.regionOverlap, 2), (rangePopulated s (x.base * 4096) (x.pages * 4096), St.stackUnpopulated, 3)] ++
  (if x.mode == 0 then treeChecks s x else []) ++
  [(!s.mem.fallowOver, St.fallowListFull, 0), (!x.ranges.any (holdsFallowPage s), St.fallowOverlap, 0)]

/-- Place every region of a save in turn: the state with their descriptors, or the first refusal (R431). -/
def placeAll (sl : Nat) (ps : List Placement) : List (Nat × Region × Option Nat × Option Plough) → State → Except (Nat × Nat) State
  | [], s => .ok s
  | (n, x, m, q) :: rest, s =>
    match ps.filter (fun p => p.src == n) with
    | [p] =>
      let y := placedRegion sl x (restoreEpoch x m q) p s.now
      match firstFail (placementChecks s sl p y) with
      | some r => .error r
      | none => placeAll sl ps rest { s with mem := { s.mem with regions := s.mem.regions.set p.dst y, decodeLocked := true } }
    | _ => .error (St.invalidOperand, 0)

/-- Where a save's region goes. -/
def dstRegion (ps : List Placement) (n : Nat) : Nat := ((ps.find? (fun p => p.src == n)).map (fun p => p.dst)).getD n

/-- The queue and the port that the creation record maps (R407). -/
def mapQueue (creation : Bytes) (qs : List (Nat × Queue)) (q : Nat) : Nat := match findIx (fun e => e.1 == q) qs with | some i => field creation (0x1B0 + i) 1 | none => 0xFF
def mapPort (creation : Bytes) (p : Nat) : Nat := field creation (0x180 + p) 1

/-- The checks of R431 on ports, queues and room. -/
def restoreChecks (s : State) (sl : Nat) (x : SliceSave) : List (Bool × Nat × Nat) :=
  let c := (s.slice sl).creation
  let qs := x.queues.map (fun e => mapQueue c x.queues e.1)
  [(x.streams.all (fun e => wired s (mapPort c e.2.port)) && x.pairs.all (fun e => (portsOf e.2).all (fun p => wired s (mapPort c p))), St.portState, 0),
   (noRepeats qs && qs.all (fun q => decide (q < 64) && (s.cex.queues.get q).state == 0), St.invalidOperand, 0),
   (decide (x.slots.length + 3 * x.regions.length ≤ (freeSlots s sl).length), St.resourceExhausted, 8),
   (x.bindings.all (fun b => (s.cex.bindings.get b.1).isNone) && decide (x.pasids.length ≤ (s.slice sl).pasids.length), St.invalidOperand, 0)]

/-- Steps 1 of R432: the carried keys go into the first free slots in order, under the destination's slice number. -/
def restoreKeys (sl : Nat) (keys : Bytes) (ns : List Nat) (s : State) : State :=
  (ns.zipIdx).foldl (fun s e =>
    let k := slice keys (64 * e.2) 64
    let a := field k 0 8
    let attr := if bit a 47 then a else a - bits a 43 40 * 2 ^ 40 + sl * 2 ^ 40
    writeSlot e.1 (BitVec.ofNat 256 (field k 32 32)) (BitVec.ofNat 64 attr) (BitVec.ofNat 64 (field k 8 8)) (BitVec.ofNat 128 (field k 16 16)) s) s

/-- Steps 2 and 3 of R432 for one region: its keys derived from RMK into three slots, its marks, its crowns, and a tree region's
initial lines (R186). -/
def restoreRegion (sl r rmk : Nat) (s : State) : State :=
  let x := s.region r
  let key (l : Nat) : BitVec 256 := Config.kmac256 (keyBytes (s.slot rmk).key) (ascii (deriveLabel l)) (leBytes 2 r ++ leBytes 4 x.epoch)
  match freeSlots s sl with
  | a :: b :: c :: _ =>
    let put (n l : Nat) (s : State) : State := kweDone (writeSlot n (key l) (attrWord 56 l sl (if l = 3 then 3 else 1) 1 false false false) (bindWord 0 r x.epoch) 0 s)
    let s := put c 3 (put b 2 (put a 1 s))
    let s := updRegion r (fun x => { x with keyData := a, keyTweak := b, keyTag := c }) s
    let s := { s with mem := { s.mem with
      mark := s.mem.mark.set r (some x.epoch)
      crown := if x.mode == 0 then (rangeFrom x.crownFirst (levelLines x 3)).foldl (fun t i => t.set i 0) s.mem.crown else s.mem.crown } }
    let s := loadRegionKeys r a b c s
    if x.mode = 0 then zeroFill r s else s
  | _ => s

/-- Step 4 of R432 for one region: its lines are written under the versions of R180. A one-shot region has lines in its SEALED
save range only. -/
def restoreLines (sl r : Nat) (data : Bytes) (s : State) : State :=
  let x := s.region r
  let s := if x.mode = 2 then updRegion r (fun y => { y with save := if x.save = 2 then 1 else x.save }) s else s
  let w (s : State) (i : Nat) : State :=
    if x.mode = 2 && !(x.save == 2 && inSave x i) then s
    else
      let ln := x.firstLn + i
      (acceptWrite (stackOf s ln) ln 0x11 sl r true (slice data (128 * i) 128) s).1
  let s := (List.range x.lines).foldl w s
  if x.mode = 2 then updRegion r (fun y => { y with save := x.save, phaseWrites := x.phaseWrites }) s else s

/-- Step 4 of R432. -/
def restoreData (sl : Nat) (ps : List Placement) : List (Nat × Region × Option Nat × Option Plough) → Bytes → State → State
  | [], _, s => s
  | (n, x, _, _) :: rest, data, s => restoreData sl ps rest (data.drop (128 * x.lines)) (restoreLines sl (dstRegion ps n) data s)

/-- Step 5 of R432: a pair with its streams on the mapped ports; a transmit pair rotates before its first group, so its streams are stalled
until then. -/
def restorePair (sl : Nat) (c : Bytes) (ss : List (Nat × Stream)) (n : Nat) (x : Pair) (s : State) : State :=
  match freePair s with
  | none => s
  | some p =>
    let ports := (portsOf x).map (mapPort c)
    let y : Pair := { x with
      slice := sl, ports := ports.foldl setBit 0, next := false, clearing := false, rotateAsked := !x.rx, lastSwitch := none, waiters := [] }
    let s := { s with link := { s.link with pairs := s.link.pairs.set p y } }
    let s := refreshNext p (ports.foldl (fun s q => deriveLink q p (x.epoch + 1) (deriveLink q p x.epoch s)) s)
    (ss.filter (fun e => e.2.pair == n)).foldl (fun s e =>
      match freeEntries s sl (mapPort c e.2.port) 1 with
      | i :: _ => { s with link := { s.link with streams := s.link.streams.set i { e.2 with
          slice := sl, pair := p, port := mapPort c e.2.port, drain := false, state := if !e.2.rx && e.2.state == 1 then 2 else e.2.state } } }
      | [] => s) s

/-- A carried command under its destination queue and slice. -/
def moveFlight (sl q : Nat) (f : Flight) : Flight :=
  { f with key := { f.key with queue := BitVec.ofNat 6 q }, raw := BitVec.ofNat 512 (f.raw.toNat - rawSlice f.raw * 2 ^ 504 + sl * 2 ^ 504) }

/-- Step 6 of R432: queues, bindings, waits, sync counters, graphs, fence groups. -/
def restoreCommands (sl : Nat) (x : SliceSave) (s : State) : State :=
  let c := (s.slice sl).creation
  let ps := (s.slice sl).pasids
  let dest (k : CmdKey) : CmdKey := { k with queue := BitVec.ofNat 6 (mapQueue c x.queues k.queue.toNat) }
  let queue (t : Tbl Queue) (e : Nat × Queue) : Tbl Queue :=
    let n := mapQueue c x.queues e.1
    t.set n { e.2 with
      owner := sl, flights := e.2.flights.map (moveFlight sl n), hist := e.2.hist.map (fun r => (dest r.1, r.2)),
      frames := e.2.frames.map (fun f => { f with key := dest f.key, slice := sl, handle := f.handle.map (fun g => sl * 64 + g % 64) }) }
  let bind (t : Tbl (Option Binding)) (b : Nat × Binding) : Tbl (Option Binding) :=
    t.set b.1 (some { slice := sl, pasid := ps.getD ((findIx (fun p => p == b.2.pasid) x.pasids).getD 0) 0 })
  updSlice sl (fun r => { r with withdrawn := x.waits.map (fun w => { w with key := dest w.key, slice := sl }) })
    { s with cex := { s.cex with
      queues := x.queues.foldl queue s.cex.queues
      bindings := x.bindings.foldl bind s.cex.bindings
      syncs := x.syncs.zipIdx.foldl (fun t e => t.set (sl * 64 + e.2) e.1) s.cex.syncs
      graphs := x.graphs.foldl (fun t e => t.set (sl * 64 + e.1) e.2) s.cex.graphs
      groups := x.groups.foldl (fun t e => t.set (sl * 64 + e.1) { e.2 with waits := [], colls := [], closed := [] }) s.cex.groups } }

/-- Step 6 of R432: one open sheaf. -/
def restoreSheaf (sl : Nat) (ps : List Placement) (slot : Nat → Nat) (c : SheafCtx) (s : State) : State :=
  match freeCtx s with
  | none => s
  | some k =>
    let n := slot c.slot
    let s := { s with sheaf := { s.sheaf with ctxs := s.sheaf.ctxs.set k { c with slice := sl, slot := n, parts := c.parts.map (fun p => (dstRegion ps p.1, p.2)), ending := none } } }
    loadKey 6 k (s.slot n).key (some n) s

/-- Step 7 of R432: the carried domain record with the destination's slots. -/
def restoreDomain (sl : Nat) (d : Dom) (slot : Nat → Nat) (s : State) : State :=
  let m (o : Option Nat) : Option Nat := o.map slot
  let s := updDomLive (updDom sl (fun o => { d with
    drk := m d.drk, erk := m d.erk, ssk := m d.ssk, dlk := m d.dlk, rmk := m d.rmk, parentSlot := m d.parentSlot, joined := o.joined,
    children := d.children.map (fun c => { c with slot := m c.slot }) }) s)
  raise [sl, 16] 3 0x8001 (d.state + d.attempt * 2 ^ 32) s

/-- The steps of R432 on a save whose regions `s` has placed. -/
def restoreSlice (sl : Nat) (ps : List Placement) (x : SliceSave) (keys data chain : Bytes) (s : State) : State :=
  let ns := (freeSlots s sl).take x.slots.length
  let slot (n : Nat) : Nat := match findIx (fun m => m == n) x.slots with | some i => ns.getD i 0 | none => 0
  let s := restoreKeys sl keys ns s
  let s := x.regions.foldl (fun s e => restoreRegion sl (dstRegion ps e.1) (slot (x.dom.rmk.getD 0)) s) s
  let s := restoreData sl ps x.regions data s
  let s := updDom sl (fun o => { x.dom with dlk := x.dom.dlk.map slot, joined := o.joined }) s
  let s := x.pairs.foldl (fun s e => restorePair sl (s.slice sl).creation x.streams e.1 e.2 s) s
  let s := restoreCommands sl x s
  let s := x.sheaves.foldl (fun s c => restoreSheaf sl ps slot c s) { s with sheaf := { s.sheaf with opened := s.sheaf.opened.set sl x.opened } }
  let s := restoreDomain sl x.dom slot s
  updSlice sl (fun r => { r with
    state := 5, usage := { x.usage with migratedIn := true }, migChain := chain, migrations := chain.length / 4899 }) s

/-- A failed restore zeroizes the destination, which returns to ACTIVE, empty (R432). -/
def restoreFailed (sl : Nat) (s : State) : State := updSlice sl (fun r => { r with state := 1 }) (zeroizeSlice sl s)

/-- SLICE_RESTORE (R374, R431, R432): `blob` and `placement` are what its reads returned. -/
def execSliceRestore (h : CmdHdr) (blobBva blobLen : BitVec 64) (x : Option XFault) (blob placement : Bytes) (s : State) :
    Host.Outcome State Fault Refusal :=
  .next (cexRun h 0x0604 [(0x18, 8, blobBva.toNat), (0x20, 8, blobLen.toNat)] s (fun s =>
    let sl := hdrSlice h
    checked h [(aligned8 blobBva, St.invalidOperand, 0), ((s.slice sl).state == 4, St.sliceBusy, 0), (kweRuns s, St.entropyFailure, 0)] s (fun s =>
      match x with
      | some f => xltFault h.key h.ctx.toNat f s
      | none => match checkBlob s sl blob [kindSave] blobLen.toNat none (2 + sl) with
        | .error e => finish h.key e 0 s
        | .ok key => checked h [((blobSlot s sl).isSome, St.resourceExhausted, 8)] s (fun s =>
          let s := (withBlobSlot sl h.ctx.toNat key s (fun s => (s, 0, 0))).1
          match openBlob key blob with
          | (_, false) => finish h.key St.tagFailure 0 (restoreFailed sl s)
          | (p, true) => match Config.readSave ([1, 3, 4, 5, 6, 7, 8].map (saveSectionAt p)) with
            | none => finish h.key St.blobFormat 0 (restoreFailed sl s)
            | some v =>
              let ps := placements (field (s.slice sl).creation 0x1A8 2) placement
              checked h (restoreChecks s sl v) s (fun s => match placeAll sl ps v.regions s with
                | .error r => refuse h r.1 r.2 s
                | .ok t => finish h.key St.success 0 (restoreSlice sl ps v (saveSectionAt p 2) (saveSectionAt p 9) (saveSectionAt p 10) t))))))

/-! ### Commit and thaw (R433) -/

/-- SLICE_COMMIT (R433): the saved source is zeroized and empty; the keys of its domain are gone, and it holds no domain (log 48). -/
def execSliceCommit (h : CmdHdr) (s : State) : Host.Outcome State Fault Refusal :=
  .next (cexRun h 0x0605 [] s (fun s =>
    let sl := hdrSlice h
    checked h [((s.slice sl).state == 3, St.sliceBusy, 0)] s (fun s =>
      let s := emptySlice sl 0 s
      let s := setDomState sl 0 (updDom sl clearFormation s)
      finish h.key St.success 0 (updSlice sl (fun r => { r with state := 1, withdrawn := [] }) s))))

/-- The withdrawn waits of a slice run again with their remaining time (R427, R433). -/
def resumeWaits (sl : Nat) (s : State) : State :=
  let ws := (s.slice sl).withdrawn.filter (fun w => match s.flight w.key with | some f => f.phase == .running | none => false)
  let s := updSlice sl (fun r => { r with withdrawn := [] })
    { s with cex := { s.cex with waits := s.cex.waits ++ ws.map (fun w => { w with since := s.now }) } }
  (List.range 64).foldl (fun s c => wakeSync sl c s) s

/-- The PLOUGH commands that a restore brought complete: their regions are wholly in the new epoch (R432). -/
def endCarriedPloughs (sl : Nat) (s : State) : State :=
  (ownQueues s sl).foldl (fun s n => (s.cex.queues.get n).flights.foldl (fun s f =>
    if f.phase == .running && rawOpcode f.raw == 0x0120 then finish f.key St.success 0 s else s) s) s

/-- Ploughs that the freeze paused run again (R232, R433). -/
def resumeFrozen (sl : Nat) (s : State) : State :=
  { s with mem := { s.mem with ploughs := mapIf (fun p => p.state == 2 && p.cause == 3 && (s.region p.region).slice == sl) (fun p => { p with state := 1, cause := 0, told := false }) s.mem.ploughs } }

/-- SLICE_THAW (R433). -/
def execSliceThaw (h : CmdHdr) (s : State) : Host.Outcome State Fault Refusal :=
  .next (cexRun h 0x0606 [] s (fun s =>
    let sl := hdrSlice h
    let active (s : State) : State := updSlice sl (fun r => { r with state := 1 }) s
    let drop (s : State) : State := updSlice sl (fun r => { r with withdrawn := [] }) s
    match (s.slice sl).state with
    | 5 => finish h.key St.success 0 (resumeWaits sl (endCarriedPloughs sl (active s)))
    | 2 => finish h.key St.success 0 (resumeWaits sl (resumeFrozen sl (active s)))
    | 3 => finish h.key St.success 0 (active (drop (abortSlice sl 9 (s.domain sl).member 0 none (some h.key) s)))
    | _ => refuse h St.sliceBusy 0 s))

end Sys2Proof.Machine
end

