-- ==== Sys2Proof/Machine/Wheel.lean ====
section
/-!
DEFINITION. The slot wheels: who holds each of an engine's 1,024 slots, and which waiting line a slot serves (R21, R229, R412-R414).
-/
namespace Sys2Proof.Machine

/-- The run of a list of lengths that a place falls into, counted from `h`. -/
def runAt : List Nat → Nat → Nat → Option Nat
  | [], _, _ => none
  | n :: ns, h, k => if k < n then some h else runAt ns (h + 1) (k - n)

/-- The holder of a slot, given the slots that each contender holds (R413, log 135). A holder of W slots has every slot of W / 16 of the 64
residues modulo 64, so that any 64 consecutive slots hold as many of them; the W mod 16 left over lie in the residues that remain. -/
def slotHolder (g : List Nat) (i : Nat) : Option Nat :=
  let whole := g.map (fun w => w / 16)
  let n := whole.foldl (fun a b => a + b) 0
  if i % 64 < n then runAt whole 0 (i % 64) else runAt (g.map (fun w => w % 16)) 0 ((i % 64 - n) * 16 + i / 64)

/-- The guarantees of an engine as the records now give them: slices 0 to 15, then the host (R412). -/
def guarantees (s : State) (e : Nat) : List Nat := (List.range 16).map (fun sl => (s.slice sl).wheel.get e) ++ [s.srg.hostWheelSlots]

/-- A revolution begins: guarantees and plough shares take effect (R238, R413). -/
def newRevolution (s : State) (e : Nat) (w : Wheel) : Wheel :=
  { w with held := guarantees s e, shares := (List.range 16).map s.mem.ploughShare.get, used := Tbl.const 0 }

/-- The waiting lines of an engine that no earlier one of the same line holds back (R34). -/
def freeLines : List Nat → List WaitLine → List WaitLine
  | _, [] => []
  | seen, l :: ls => if l.ln ∈ seen then freeLines seen ls else l :: freeLines (l.ln :: seen) ls

/-- May a plough's line use one more slot of the revolution: within PLOUGH_SHARE / 256 of the wheel, which the ploughs of a slice split
equally (R229)? -/
def ploughMay (s : State) (w : Wheel) (l : WaitLine) : Bool :=
  decide (w.used.get l.region * max 1 ((s.mem.ploughs.filter (fun p => (s.region p.region).slice == l.who)).length) < 4 * w.shares.getD l.who 0)

/-- The line that a contender has for a slot: its oldest, and where the plough may draw on the slot, after them its plough's. -/
def lineFor (s : State) (w : Wheel) (ls : List WaitLine) (plough : Bool) (c : Nat) : Option WaitLine :=
  match ls.find? (fun l => l.who == c && !l.plough) with
  | some l => some l
  | none => if plough then ls.find? (fun l => l.who == c && l.plough && ploughMay s w l) else none

/-- The line that a slot serves, and whether the slot is lent (R414): the holder's; else the next waiting contender's after the one last served
so, in the order slice 0 to 15, host. A plough never draws on a slot of another slice (R229). -/
def slotLine (s : State) (w : Wheel) (ls : List WaitLine) : Option (WaitLine × Bool) :=
  let holder := slotHolder w.held w.pos
  match holder.bind (lineFor s w ls true) with
  | some l => some (l, false)
  | none =>
    let plough := match holder with | some h => h == 16 | none => true
    (((rangeFrom (w.lastLent + 1) 17).map (· % 17)).findSome? (lineFor s w ls plough)).map (fun l => (l, true))

/-- A line leaves the queue for its stack, and is charged (R21, R412, R423). -/
def serveLine (e : Nat) (l : WaitLine) (s : State) : State :=
  let s := { s with mem := { s.mem with lines := s.mem.lines.upd e (fun ls => ls.erase l) } }
  let s := if l.who < 16 then updUsage l.who (fun u => { u with lines := u.lines.upd e (· + 1) }) s else s
  match l.op with
  | .read q => (updRead q (fun x => { x with stage := .asked }) s).emit (.stackRead e l.ln)
  | .write c tag => settleSave l.region (s.emit (.stackWrite e l.ln c tag))

/-- The wheel after a slot: what it served, and the next place. -/
def turnWheel (w : Wheel) (o : Option (WaitLine × Bool)) : Wheel :=
  let w := { w with pos := (w.pos + 1) % 1024 }
  match o with
  | none => w
  | some (l, lent) =>
    let w := if l.plough then { w with used := w.used.upd l.region (· + 1) } else w
    if lent then { w with slotsLent := w.slotsLent + 1, lastLent := l.who } else w

/-- WHEEL_SLOT_SERVICE (R412-R414): the next slot of a populated engine's wheel. -/
def execWheelSlotService (engine : BitVec 4) (s : State) : Host.Outcome State Fault Refusal :=
  .next <|
    let e := engine.toNat
    if !populated s e then s
    else
      let w := s.srg.wheels.get e
      let w := if w.pos = 0 then newRevolution s e w else w
      let o := slotLine s w (freeLines [] (s.mem.lines.get e))
      let s := { s with srg := { s.srg with wheels := s.srg.wheels.set e (turnWheel w o) } }
      match o with
      | none => s
      | some (l, _) => serveLine e l s

end Sys2Proof.Machine
end

