-- ==== Sys2Proof/Machine/Dispatch.lean ====
section
/-!
DEFINITION. The dispatch: one arm for each command of the table, each a direct call of its meaning.
-/
namespace Sys2Proof.Machine

def exec (i : Instr) (s : State) : Host.Outcome State Fault Refusal :=
  match i with
  | .nop h => Sys2Proof.Machine.execNop h s
  | .call h bva count index limit => Sys2Proof.Machine.execCall h bva count index limit s
  | .callIterationStart key => Sys2Proof.Machine.execCallIterationStart key s
  | .seal h bva count handle x graph => Sys2Proof.Machine.execSeal h bva count handle x graph s
  | .load h bva handle x graph => Sys2Proof.Machine.execLoad h bva handle x graph s
  | .launch h handle => Sys2Proof.Machine.execLaunch h handle s
  | .scalarSet h value dst => Sys2Proof.Machine.execScalarSet h value dst s
  | .scalarAdd h value dst src opt => Sys2Proof.Machine.execScalarAdd h value dst src opt s
  | .scalarLoad h bva dst x word => Sys2Proof.Machine.execScalarLoad h bva dst x word s
  | .scalarStore h bva src x => Sys2Proof.Machine.execScalarStore h bva src x s
  | .waitMem h bva value mask timeout cmp => Sys2Proof.Machine.execWaitMem h bva value mask timeout cmp s
  | .waitMemPoll key x word => Sys2Proof.Machine.execWaitMemPoll key x word s
  | .waitSync h value counter timeout => Sys2Proof.Machine.execWaitSync h value counter timeout s
  | .waitTimeout key => Sys2Proof.Machine.execWaitTimeout key s
  | .fenceLocal h value counter opt => Sys2Proof.Machine.execFenceLocal h value counter opt s
  | .fenceDomain h group => Sys2Proof.Machine.execFenceDomain h group s
  | .keyFence h epoch target timeout => Sys2Proof.Machine.execKeyFence h epoch target timeout s
  | .egressFence h => Sys2Proof.Machine.execEgressFence h s
  | .stepOpen h => Sys2Proof.Machine.execStepOpen h s
  | .stepClose h => Sys2Proof.Machine.execStepClose h s
  | .stepCloseWritesDrained slc => Sys2Proof.Machine.execStepCloseWritesDrained slc s
  | .groupDefine h bva group collector x bitmap => Sys2Proof.Machine.execGroupDefine h bva group collector x bitmap s
  | .regionDefine h region ctrl epoch base metaBase mirrorBase pages keyData keyTweak keyTag crownFirst => Sys2Proof.Machine.execRegionDefine h region ctrl epoch base metaBase mirrorBase pages keyData keyTweak keyTag crownFirst s
  | .regionZeroFillDone region => Sys2Proof.Machine.execRegionZeroFillDone region s
  | .regionRetire h region => Sys2Proof.Machine.execRegionRetire h region s
  | .regionDescriptorFreed region => Sys2Proof.Machine.execRegionDescriptorFreed region s
  | .regionGrant h region grantee => Sys2Proof.Machine.execRegionGrant h region grantee s
  | .regionRevoke h region grantee => Sys2Proof.Machine.execRegionRevoke h region grantee s
  | .fallowRead h bva x => Sys2Proof.Machine.execFallowRead h bva x s
  | .pageRetire h entry opt => Sys2Proof.Machine.execPageRetire h entry opt s
  | .saveBegin h region first count => Sys2Proof.Machine.execSaveBegin h region first count s
  | .saveEnd h region => Sys2Proof.Machine.execSaveEnd h region s
  | .saveDiscard h region => Sys2Proof.Machine.execSaveDiscard h region s
  | .plough h region epoch nextData nextTweak nextTag => Sys2Proof.Machine.execPlough h region epoch nextData nextTweak nextTag s
  | .ploughLineMove region line read => Sys2Proof.Machine.execPloughLineMove region line read s
  | .ploughComplete region => Sys2Proof.Machine.execPloughComplete region s
  | .ploughPause region cause => Sys2Proof.Machine.execPloughPause region cause s
  | .epochAged region => Sys2Proof.Machine.execEpochAged region s
  | .keyDerive h src dst label opt region id => Sys2Proof.Machine.execKeyDerive h src dst label opt region id s
  | .keyGenerate h dst usage opt type wrapIdBva x wrapId => Sys2Proof.Machine.execKeyGenerate h dst usage opt type wrapIdBva x wrapId s
  | .keyWrap h src wrapSlot method out rcptBva sequence x rcpt => Sys2Proof.Machine.execKeyWrap h src wrapSlot method out rcptBva sequence x rcpt s
  | .keyUnwrap h dst wrapSlot opt blobBva wrapIdBva x blob wrapId => Sys2Proof.Machine.execKeyUnwrap h dst wrapSlot opt blobBva wrapIdBva x blob wrapId s
  | .keyZeroize h slot => Sys2Proof.Machine.execKeyZeroize h slot s
  | .cipherEncrypt h slot len aadLen src dst ivBva x data => Sys2Proof.Machine.execCipherEncrypt h slot len aadLen src dst ivBva x data s
  | .cipherDecrypt h slot len aadLen src dst ivBva x data iv => Sys2Proof.Machine.execCipherDecrypt h slot len aadLen src dst ivBva x data iv s
  | .pkHash h src len dst alg outLen x data => Sys2Proof.Machine.execPkHash h src len dst alg outLen x data s
  | .pkVerify h keyBva msgBva sigBva msgLen alg ctxLen x key msg sig => Sys2Proof.Machine.execPkVerify h keyBva msgBva sigBva msgLen alg ctxLen x key msg sig s
  | .sheafBegin h id slot count listBva x list => Sys2Proof.Machine.execSheafBegin h id slot count listBva x list s
  | .sheafEnd h id out x => Sys2Proof.Machine.execSheafEnd h id out x s
  | .sheafCombine h id slot opt inBva count out x recs => Sys2Proof.Machine.execSheafCombine h id slot opt inBva count out x recs s
  | .streamOpen h peer mask port opt => Sys2Proof.Machine.execStreamOpen h peer mask port opt s
  | .streamClose h peer mask opt => Sys2Proof.Machine.execStreamClose h peer mask opt s
  | .streamRotate h bva count x list => Sys2Proof.Machine.execStreamRotate h bva count x list s
  | .domainJoin h id attempt member masthead count listBva x list => Sys2Proof.Machine.execDomainJoin h id attempt member masthead count listBva x list s
  | .domainForm h policyBva fenceMs rereqMs x policy => Sys2Proof.Machine.execDomainForm h policyBva fenceMs rereqMs x policy s
  | .domainRelease h releaseBva len x release => Sys2Proof.Machine.execDomainRelease h releaseBva len x release s
  | .domainGo h => Sys2Proof.Machine.execDomainGo h s
  | .domainAbort h detail => Sys2Proof.Machine.execDomainAbort h detail s
  | .domainDissolve h => Sys2Proof.Machine.execDomainDissolve h s
  | .domainProve h outBva outLen x => Sys2Proof.Machine.execDomainProve h outBva outLen x s
  | .sliceCreate h specBva x record => Sys2Proof.Machine.execSliceCreate h specBva x record s
  | .sliceReset h => Sys2Proof.Machine.execSliceReset h s
  | .sliceFreeze h => Sys2Proof.Machine.execSliceFreeze h s
  | .sliceSave h out outLen rcptBva x bundle => Sys2Proof.Machine.execSliceSave h out outLen rcptBva x bundle s
  | .sliceRestore h blobBva blobLen x blob placement => Sys2Proof.Machine.execSliceRestore h blobBva blobLen x blob placement s
  | .sliceCommit h => Sys2Proof.Machine.execSliceCommit h s
  | .sliceThaw h => Sys2Proof.Machine.execSliceThaw h s
  | .contextBind h context pasid => Sys2Proof.Machine.execContextBind h context pasid s
  | .contextUnbind h context => Sys2Proof.Machine.execContextUnbind h context s
  | .contextKill h context => Sys2Proof.Machine.execContextKill h context s
  | .usageReport h out opt x => Sys2Proof.Machine.execUsageReport h out opt x s
  | .copy h src dst len x lines => Sys2Proof.Machine.execCopy h src dst len x lines s
  | .importBlob h blobBva blobLen listBva wrapSlot x list blob => Sys2Proof.Machine.execImportBlob h blobBva blobLen listBva wrapSlot x list blob s
  | .exportBlob h out outLen listBva wrapSlot kind log2 method x list rcpt => Sys2Proof.Machine.execExportBlob h out outLen listBva wrapSlot kind log2 method x list rcpt s
  | .xltInvalidate h bva sizeLog2 scope pasid => Sys2Proof.Machine.execXltInvalidate h bva sizeLog2 scope pasid s
  | .doorbell queue value => Sys2Proof.Machine.execDoorbell queue value s
  | .commandFetch key x raw => Sys2Proof.Machine.execCommandFetch key x raw s
  | .commandCompletion key => Sys2Proof.Machine.execCommandCompletion key s
  | .queueEnable who queue on => Sys2Proof.Machine.execQueueEnable who queue on s
  | .queueResume who queue => Sys2Proof.Machine.execQueueResume who queue s
  | .queueSkip who queue => Sys2Proof.Machine.execQueueSkip who queue s
  | .compatTimeout key busy => Sys2Proof.Machine.execCompatTimeout key busy s
  | .compatDrainTimeout key engine => Sys2Proof.Machine.execCompatDrainTimeout key engine s
  | .eventPost ring x => Sys2Proof.Machine.execEventPost ring x s
  | .eventModerationExpiry ring => Sys2Proof.Machine.execEventModerationExpiry ring s
  | .eventRingBaseWrite who ring base => Sys2Proof.Machine.execEventRingBaseWrite who ring base s
  | .fenceAck slc h origin word => Sys2Proof.Machine.execFenceAck slc h origin word s
  | .fenceDone slc h word => Sys2Proof.Machine.execFenceDone slc h word s
  | .fenceResend slc h word => Sys2Proof.Machine.execFenceResend slc h word s
  | .fenceMsgForward slc h origin target word => Sys2Proof.Machine.execFenceMsgForward slc h origin target word s
  | .fenceRerequestExpiry slc group dseq collector => Sys2Proof.Machine.execFenceRerequestExpiry slc group dseq collector s
  | .domainFenceTimeout key => Sys2Proof.Machine.execDomainFenceTimeout key s
  | .rollChallenge slc h policy listDigest nonce evidence certs => Sys2Proof.Machine.execRollChallenge slc h policy listDigest nonce evidence certs s
  | .rollChallengeHoldExpiry slc => Sys2Proof.Machine.execRollChallengeHoldExpiry slc s
  | .rollAnswer slc h evidence certs statement => Sys2Proof.Machine.execRollAnswer slc h evidence certs statement s
  | .rollAnswerDeadline slc member => Sys2Proof.Machine.execRollAnswerDeadline slc member s
  | .rollCallTimeout slc => Sys2Proof.Machine.execRollCallTimeout slc s
  | .releaseTimeout slc => Sys2Proof.Machine.execReleaseTimeout slc s
  | .halyardKey slc h evDigest drkId flags blobs evidence table => Sys2Proof.Machine.execHalyardKey slc h evDigest drkId flags blobs evidence table s
  | .halyardAck slc h keyed fails => Sys2Proof.Machine.execHalyardAck slc h keyed fails s
  | .halyardAckDeadline slc member => Sys2Proof.Machine.execHalyardAckDeadline slc member s
  | .halyardLive slc h => Sys2Proof.Machine.execHalyardLive slc h s
  | .formationTimeout slc => Sys2Proof.Machine.execFormationTimeout slc s
  | .abort slc h cause flags origin detail => Sys2Proof.Machine.execAbort slc h cause flags origin detail s
  | .dissolve slc h => Sys2Proof.Machine.execDissolve slc h s
  | .domainResend slc h type sequence => Sys2Proof.Machine.execDomainResend slc h type sequence s
  | .dictAccess slc h origin target message => Sys2Proof.Machine.execDictAccess slc h origin target message s
  | .dictReply slc h origin target message => Sys2Proof.Machine.execDictReply slc h origin target message s
  | .memoryWrite engine req acting pa whole data => Sys2Proof.Machine.execMemoryWrite engine req acting pa whole data s
  | .memoryRead engine req acting pa => Sys2Proof.Machine.execMemoryRead engine req acting pa s
  | .memoryReadData engine ln pc word => Sys2Proof.Machine.execMemoryReadData engine ln pc word s
  | .versionSupply engine ln => Sys2Proof.Machine.execVersionSupply engine ln s
  | .counterLineFetchData region level index mirror read => Sys2Proof.Machine.execCounterLineFetchData region level index mirror read s
  | .counterWriteback region level index => Sys2Proof.Machine.execCounterWriteback region level index s
  | .rebase region level index old => Sys2Proof.Machine.execRebase region level index old s
  | .rebaseChildMove region level index old read => Sys2Proof.Machine.execRebaseChildMove region level index old read s
  | .dueReport engine ln handle anchor => Sys2Proof.Machine.execDueReport engine ln handle anchor s
  | .eraseResponse engine answer => Sys2Proof.Machine.execEraseResponse engine answer s
  | .eraseTimeout engine => Sys2Proof.Machine.execEraseTimeout engine s
  | .scrubReread engine ln read => Sys2Proof.Machine.execScrubReread engine ln read s
  | .calAnn stack seq kind mask => Sys2Proof.Machine.execCalAnn stack seq kind mask s
  | .calDone stack seq => Sys2Proof.Machine.execCalDone stack seq s
  | .calAnnouncementTimeout stack seq => Sys2Proof.Machine.execCalAnnouncementTimeout stack seq s
  | .sweepReq stack duration mask => Sys2Proof.Machine.execSweepReq stack duration mask s
  | .sweepGnt stack => Sys2Proof.Machine.execSweepGnt stack s
  | .sweepReqTimeout stack => Sys2Proof.Machine.execSweepReqTimeout stack s
  | .sweepEnd stack => Sys2Proof.Machine.execSweepEnd stack s
  | .sweepDurationExpiry stack => Sys2Proof.Machine.execSweepDurationExpiry stack s
  | .thrChange stack thr => Sys2Proof.Machine.execThrChange stack thr s
  | .rateSample rate value => Sys2Proof.Machine.execRateSample rate value s
  | .wheelSlotService engine => Sys2Proof.Machine.execWheelSlotService engine s
  | .hostPacketTx port slc peer traffic addr opcode attr payload closing => Sys2Proof.Machine.execHostPacketTx port slc peer traffic addr opcode attr payload closing s
  | .groupFlushExpiry port stream => Sys2Proof.Machine.execGroupFlushExpiry port stream s
  | .groupReceive port gsh descs cipher => Sys2Proof.Machine.execGroupReceive port gsh descs cipher s
  | .groupTrailer port index trailer tag => Sys2Proof.Machine.execGroupTrailer port index trailer tag s
  | .trailerTimeout port index => Sys2Proof.Machine.execTrailerTimeout port index s
  | .linkRotate pair => Sys2Proof.Machine.execLinkRotate pair s
  | .linkNextKeyDerived pair => Sys2Proof.Machine.execLinkNextKeyDerived pair s
  | .rxNextWaitTimeout port => Sys2Proof.Machine.execRxNextWaitTimeout port s
  | .drainEnd port pair => Sys2Proof.Machine.execDrainEnd port pair s
  | .drainTimeout port pair => Sys2Proof.Machine.execDrainTimeout port pair s
  | .deadTargetReport port endpoint => Sys2Proof.Machine.execDeadTargetReport port endpoint s
  | .hleTlpEgress slc sub header data => Sys2Proof.Machine.execHleTlpEgress slc sub header data s
  | .hleTlpReceive slc sub k t iv aad data mac => Sys2Proof.Machine.execHleTlpReceive slc sub k t iv aad data mac s
  | .query session slc => Sys2Proof.Machine.execQuery session slc s
  | .keyProg session slc streamId tx sub k key => Sys2Proof.Machine.execKeyProg session slc streamId tx sub k key s
  | .keySetGo session slc tx sub k => Sys2Proof.Machine.execKeySetGo session slc tx sub k s
  | .keySetStop session slc tx sub k => Sys2Proof.Machine.execKeySetStop session slc tx sub k s
  | .getTdispVersion session => Sys2Proof.Machine.execGetTdispVersion session s
  | .getTdispCapabilities session => Sys2Proof.Machine.execGetTdispCapabilities session s
  | .lockInterfaceRequest session slc => Sys2Proof.Machine.execLockInterfaceRequest session slc s
  | .getDeviceInterfaceReport session slc => Sys2Proof.Machine.execGetDeviceInterfaceReport session slc s
  | .getDeviceInterfaceState session slc => Sys2Proof.Machine.execGetDeviceInterfaceState session slc s
  | .startInterfaceRequest session slc => Sys2Proof.Machine.execStartInterfaceRequest session slc s
  | .stopInterfaceRequest session slc => Sys2Proof.Machine.execStopInterfaceRequest session slc s
  | .tdispUnsupportedRequest session code => Sys2Proof.Machine.execTdispUnsupportedRequest session code s
  | .getVersion m => Sys2Proof.Machine.execGetVersion m s
  | .getCapabilities m => Sys2Proof.Machine.execGetCapabilities m s
  | .negotiateAlgorithms m asym hash dhe aead spec => Sys2Proof.Machine.execNegotiateAlgorithms m asym hash dhe aead spec s
  | .getDigests m => Sys2Proof.Machine.execGetDigests m s
  | .getCertificate m slot off len => Sys2Proof.Machine.execGetCertificate m slot off len s
  | .challenge m slot summary nonce => Sys2Proof.Machine.execChallenge m slot summary nonce s
  | .getMeasurements m index signed slot nonce => Sys2Proof.Machine.execGetMeasurements m index signed slot nonce s
  | .keyExchange m slot summary point => Sys2Proof.Machine.execKeyExchange m slot summary point s
  | .finish m verifies => Sys2Proof.Machine.execFinish m verifies s
  | .heartbeat m => Sys2Proof.Machine.execHeartbeat m s
  | .keyUpdate m op => Sys2Proof.Machine.execKeyUpdate m op s
  | .endSession m => Sys2Proof.Machine.execEndSession m s
  | .chunkSend m handle seq last data => Sys2Proof.Machine.execChunkSend m handle seq last data s
  | .chunkGet m handle seq => Sys2Proof.Machine.execChunkGet m handle seq s
  | .vendorDefinedRequest m standard vendor data => Sys2Proof.Machine.execVendorDefinedRequest m standard vendor data s
  | .spdmUnsupportedRequest m code => Sys2Proof.Machine.execSpdmUnsupportedRequest m code s
  | .dictRead path m => Sys2Proof.Machine.execDictRead path m s
  | .dictWrite path m => Sys2Proof.Machine.execDictWrite path m s
  | .segRead path m => Sys2Proof.Machine.execSegRead path m s
  | .segWrite path m => Sys2Proof.Machine.execSegWrite path m s
  | .dictAbort path m => Sys2Proof.Machine.execDictAbort path m s
  | .dictSegIdleExpiry path tag => Sys2Proof.Machine.execDictSegIdleExpiry path tag s
  | .dictEntryWrite who index sub type value => Sys2Proof.Machine.execDictEntryWrite who index sub type value s
  | .mbGo box irqEn reqLen request => Sys2Proof.Machine.execMbGo box irqEn reqLen request s
  | .setdasa static_ dynamic_ => Sys2Proof.Machine.execSetdasa static_ dynamic_ s
  | .entdaa dynamic_ => Sys2Proof.Machine.execEntdaa dynamic_ s
  | .setEndpointId dest source op eid => Sys2Proof.Machine.execSetEndpointId dest source op eid s
  | .getEndpointId dest => Sys2Proof.Machine.execGetEndpointId dest s
  | .getEndpointUuid dest => Sys2Proof.Machine.execGetEndpointUuid dest s
  | .getMctpVersionSupport dest type => Sys2Proof.Machine.execGetMctpVersionSupport dest type s
  | .getMessageTypeSupport dest => Sys2Proof.Machine.execGetMessageTypeSupport dest s
  | .getVendorDefinedMessageSupport dest selector => Sys2Proof.Machine.execGetVendorDefinedMessageSupport dest selector s
  | .mctpPacketReceive binding packet => Sys2Proof.Machine.execMctpPacketReceive binding packet s
  | .tamperCauseClear who value => Sys2Proof.Machine.execTamperCauseClear who value s
  | .certCacheFlush who value => Sys2Proof.Machine.execCertCacheFlush who value s
  | .sliceRelease who slc value => Sys2Proof.Machine.execSliceRelease who slc value s
  | .sliceRecordWrite who slc sub value => Sys2Proof.Machine.execSliceRecordWrite who slc sub value s
  | .mcWayQuotaWrite who slc value => Sys2Proof.Machine.execMcWayQuotaWrite who slc value s
  | .s2RootWrite who stage1 set ix value => Sys2Proof.Machine.execS2RootWrite who stage1 set ix value s
  | .leModeWrite who port mode => Sys2Proof.Machine.execLeModeWrite who port mode s
  | .resetChipReq who value => Sys2Proof.Machine.execResetChipReq who value s
  | .chipResetGo value => Sys2Proof.Machine.execChipResetGo value s
  | .chipCoopTimeout => Sys2Proof.Machine.execChipCoopTimeout s
  | .firstErrorClear who value => Sys2Proof.Machine.execFirstErrorClear who value s
  | .dumpClear who value => Sys2Proof.Machine.execDumpClear who value s
  | .errlogConsumedWrite who index => Sys2Proof.Machine.execErrlogConsumedWrite who index s
  | .cpKick who pair value => Sys2Proof.Machine.execCpKick who pair value s
  | .watchdogWarning unit pair => Sys2Proof.Machine.execWatchdogWarning unit pair s
  | .watchdogExpiry unit slc ctx units => Sys2Proof.Machine.execWatchdogExpiry unit slc ctx units s
  | .lockstepMismatch pair units => Sys2Proof.Machine.execLockstepMismatch pair units s
  | .hostStall stack => Sys2Proof.Machine.execHostStall stack s
  | .killLimitExpiry unit => Sys2Proof.Machine.execKillLimitExpiry unit s
  | .engineResetDone unit => Sys2Proof.Machine.execEngineResetDone unit s
  | .lcTransition via value => Sys2Proof.Machine.execLcTransition via value s
  | .lcOtpProgramDone => Sys2Proof.Machine.execLcOtpProgramDone s
  | .debugRequest who scopes => Sys2Proof.Machine.execDebugRequest who scopes s
  | .debugResponse who value => Sys2Proof.Machine.execDebugResponse who value s
  | .vaultProvision who value => Sys2Proof.Machine.execVaultProvision who value s
  | .dmiRead via pair addr => Sys2Proof.Machine.execDmiRead via pair addr s
  | .dmiWrite via pair addr data => Sys2Proof.Machine.execDmiWrite via pair addr data s
  | .hartHalted pair => Sys2Proof.Machine.execHartHalted pair s
  | .counterReset who bitmap => Sys2Proof.Machine.execCounterReset who bitmap s
  | .counterSnapshot who value => Sys2Proof.Machine.execCounterSnapshot who value s
  | .traceArm who on => Sys2Proof.Machine.execTraceArm who on s
  | .traceTriggerNow who value => Sys2Proof.Machine.execTraceTriggerNow who value s
  | .traceMarker who marker value => Sys2Proof.Machine.execTraceMarker who marker value s
  | .tracePcSample pc => Sys2Proof.Machine.execTracePcSample pc s
  | .icuSourceAssert source pair level wfi => Sys2Proof.Machine.execIcuSourceAssert source pair level wfi s
  | .claim pair width => Sys2Proof.Machine.execClaim pair width s
  | .eoi pair width value => Sys2Proof.Machine.execEoi pair width value s
  | .pendSet pair bitmap => Sys2Proof.Machine.execPendSet pair bitmap s
  | .pendClr pair bitmap => Sys2Proof.Machine.execPendClr pair bitmap s
  | .maskSet pair bitmap => Sys2Proof.Machine.execMaskSet pair bitmap s
  | .maskClr pair bitmap => Sys2Proof.Machine.execMaskClr pair bitmap s
  | .stormClear pair bitmap => Sys2Proof.Machine.execStormClear pair bitmap s
  | .sgi pair width value => Sys2Proof.Machine.execSgi pair width value s
  | .stormWindowExpiry source pair => Sys2Proof.Machine.execStormWindowExpiry source pair s
  | .icuModerationExpiry pair => Sys2Proof.Machine.execIcuModerationExpiry pair s
  | .hostEvent who value => Sys2Proof.Machine.execHostEvent who value s
  | .fwdGo pair detail code kind ring cookie => Sys2Proof.Machine.execFwdGo pair detail code kind ring cookie s
  | .kweRequest who op src dst ctx => Sys2Proof.Machine.execKweRequest who op src dst ctx s
  | .kweComplete ns => Sys2Proof.Machine.execKweComplete ns s
  | .pkeComplete unit who ns => Sys2Proof.Machine.execPkeComplete unit who ns s
  | .entHealthFailure test => Sys2Proof.Machine.execEntHealthFailure test s
  | .entRetryExpiry => Sys2Proof.Machine.execEntRetryExpiry s
  | .entStartupTestsDone => Sys2Proof.Machine.execEntStartupTestsDone s
  | .drbgReseed which => Sys2Proof.Machine.execDrbgReseed which s
  | .meshCompare mismatch short => Sys2Proof.Machine.execMeshCompare mismatch short s
  | .tamperInSample input level => Sys2Proof.Machine.execTamperInSample input level s
  | .tamperLatchClear who input value => Sys2Proof.Machine.execTamperLatchClear who input value s
  | .vbatOutOfRange mv => Sys2Proof.Machine.execVbatOutOfRange mv s
  | .vaultSupplyOutOfRange mv => Sys2Proof.Machine.execVaultSupplyOutOfRange mv s
  | .vaultTempReading c => Sys2Proof.Machine.execVaultTempReading c s
  | .zeroization => Sys2Proof.Machine.execZeroization s
  | .zeroizationComplete => Sys2Proof.Machine.execZeroizationComplete s
  | .canarySample unit canary x => Sys2Proof.Machine.execCanarySample unit canary x s
  | .canaryIdleExercise unit codes => Sys2Proof.Machine.execCanaryIdleExercise unit codes s
  | .senFreezeExpiry unit => Sys2Proof.Machine.execSenFreezeExpiry unit s
  | .supplyExcursion die => Sys2Proof.Machine.execSupplyExcursion die s
  | .brownOut die => Sys2Proof.Machine.execBrownOut die s
  | .brownOutRecovery die => Sys2Proof.Machine.execBrownOutRecovery die s
  | .tjWarnCrossing hottest => Sys2Proof.Machine.execTjWarnCrossing hottest s
  | .referenceClockLost base => Sys2Proof.Machine.execReferenceClockLost base s
  | .referenceClockRegained base => Sys2Proof.Machine.execReferenceClockRegained base s
  | .vaonRamp mv => Sys2Proof.Machine.execVaonRamp mv s
  | .strapSample straps => Sys2Proof.Machine.execStrapSample straps s
  | .chipResetRelease rails straps kat flash recovery certs => Sys2Proof.Machine.execChipResetRelease rails straps kat flash recovery certs s
  | .recoveryFetchRetry recovery certs => Sys2Proof.Machine.execRecoveryFetchRetry recovery certs s
  | .firmwareStart ect failed => Sys2Proof.Machine.execFirmwareStart ect failed s
  | .railLoss rail => Sys2Proof.Machine.execRailLoss rail s
  | .tableWalkRead walker word => Sys2Proof.Machine.execTableWalkRead walker word s
  | .blockDmaAccess set pasid stage1 bva read write ring key => Sys2Proof.Machine.execBlockDmaAccess set pasid stage1 bva read write ring key s
  | .eventReadIndexWrite ring index => Sys2Proof.Machine.execEventReadIndexWrite ring index s
  | .preemptionPoint unit running waiting ran cost => Sys2Proof.Machine.execPreemptionPoint unit running waiting ran cost s
  | .vbatRamp mv => Sys2Proof.Machine.execVbatRamp mv s
  | .resetPortAssert asserted => Sys2Proof.Machine.execResetPortAssert asserted s
  | .lossOfSecure slc => Sys2Proof.Machine.execLossOfSecure slc s
  | .srcCfgWrite pair source width value => Sys2Proof.Machine.execSrcCfgWrite pair source width value s
  | .pmrWrite pair width value => Sys2Proof.Machine.execPmrWrite pair width value s
  | .spdmHeartbeatTimeout session => Sys2Proof.Machine.execSpdmHeartbeatTimeout session s
  | .powerEstimateUpdate => Sys2Proof.Machine.execPowerEstimateUpdate s

end Sys2Proof.Machine
end

