-- ==== Sys2Proof/Machine/Tick.lean ====
section
/-!
DEFINITION. What time alone does: a step on an empty queue is one period of the 100 MHz local timers (DESIGN CHOICE, log 70).
-/
namespace Sys2Proof.Machine

/-- Nanoseconds of one tick (R558: a die timer counts 10 ns on each edge of its source). -/
def tickNs : Nat := 10

/-- The local timers advance while they run (R557, R558). -/
def advanceTimers (s : State) : State :=
  let c := s.clk
  let c := if c.running then { c with compute := c.compute + tickNs, io0 := c.io0 + tickNs, io1 := c.io1 + tickNs } else c
  { s with clk := if c.vaultRunning then { c with vault := c.vault + tickNs } else c }

/-- Does a slice hold a guarantee on a reefed engine (R418)? -/
def heldReefed (s : State) (sl : Nat) : Bool :=
  (s.slice sl).state != 0 && (List.range 19).any (fun r =>
    (s.srg.reef.get r).isSome && (match reefCode r with | some e => guarantee s sl e != 0 | none => false))

/-- REEFED_NS accumulates (R418). -/
def accrueReefed (s : State) : State :=
  (List.range 16).foldl (fun s sl => if heldReefed s sl then updUsage sl (fun u => { u with reefedNs := u.reefedNs + tickNs }) s else s) s

/-- Is a queue's fetcher at work, and does a queue hold a command that has started or may start? -/
def fetching (q : Queue) : Bool := q.state == 1 && q.pi != q.ci
def executing (q : Queue) : Bool := q.flights.any (fun f => f.phase == .ready || f.phase == .running)

/-- Does the unit of a busy counter hold an accepted handshake in flight (R535)? What each unit's handshakes are in this model's State is
the model's reading (log 143); the KWE's and the PKE units' counters, 31-35, take the engine times of their completions. -/
def unitBusy (s : State) (i : Nat) : Bool :=
  if i < 12 then !(s.mem.lines.get i).isEmpty || s.mem.reads.any (fun x => x.engine == i)
  else if i < 30 then
    let p := i - 12
    !(s.link.txOpen.get p).isEmpty || s.link.pend.any (fun g => g.port == p) || s.link.waits.any (fun g => g.port == p) ||
      s.link.gw.any (fun g => g.port == p)
  else match i with
  | 30 => !s.link.egress.isEmpty
  | 36 => s.mem.ploughs.any (fun p => p.state == 1)
  | 37 => !s.mem.rebases.isEmpty || s.mem.reads.any (fun x => x.level != 0)
  | 38 => s.sheaf.ctxs.ents.any (fun e => e.2.state == 2)
  | 39 => s.cex.queues.ents.any (fun e => executing e.2)
  | 40 => s.cex.queues.ents.any (fun e => fetching e.2)
  | 41 => s.xlt.walkers.ents.any (fun e => e.2.isSome)
  | 42 => s.dom.doms.ents.any (fun e => e.2.roll == 1 || e.2.roll == 3)
  | 43 => s.ods.mbs.ents.any (fun e => e.2.go)
  | 44 => !(s.icu.pairs.get 0).wfi
  | 45 => !(s.icu.pairs.get 1).wfi
  | _ => false

/-- The busy counters of a tick (R534, R535): from the release of chip reset on. -/
def accrueBusy (s : State) : State :=
  if s.boot.inReset then s else ((List.range 46).filter (unitBusy s)).foldl (fun s i => obsAdd i tickNs s) s

/-- Has the earliest TLP held at the egress gate just been held for 1 ms (R286)? -/
def gateOverdue (s : State) : Bool :=
  match s.link.egress with
  | [] => false
  | t :: _ => decide (t.at_ + 1000000 ≤ s.io0Now) && decide (s.io0Now < t.at_ + 1000000 + tickNs)

/-- Does a tick pass a local millisecond? -/
def passesMs (s t : State) : Bool := s.now / 1000000 != t.now / 1000000

/-- One tick: the timers, and what waits for time or for a condition that other commands bring about (R286, R418, R427, R510). -/
def tick (s : State) : State :=
  if !s.clk.running then advanceTimers s
  else
    let t := watchCounters (settleFreezes (accrueReefed (accrueBusy (advanceTimers s))))
    let t := if gateOverdue t then pend 236 t else t
    if passesMs s t then retryProvision t else t

end Sys2Proof.Machine
end

