-- ==== Sys2Proof/Machine/Step.lean ====
section
/-!
DEFINITION. One step of the block: the waiting command at the front, or a tick when none waits.
-/
namespace Sys2Proof.Machine

/-- One step. A command that waits at the front is taken and runs with the rest of the queue; on an empty queue time passes
(DESIGN CHOICE, log 70). -/
def step (s : State) : Host.Outcome State Fault Refusal :=
  match s.pending with
  | [] => .next (tick s)
  | c :: rest => exec c { s with pending := rest }

/-- The state with the command that a table word spells put in front of the queue. The table gives no row a bit, so no word spells
a command, and the state is as it was. -/
def State.withFetchWord (s : State) (nbits w : Nat) : State :=
  match Sys2Proof.decodeTableWord nbits w with
  | some c => { s with pending := c :: s.pending }
  | none => s

end Sys2Proof.Machine
end

