-- ==== Sys2Proof/Safety.lean ====
section
/-!
DEFINITION. What a safe run of the block keeps: bounds that the manual gives its counters, its trace buffer, its error log, its
interrupt stacks and its TDI states, and what no command undoes: the one-time-programmable words, the outputs already sent, the
free values already drawn.
-/
namespace Sys2Proof.Machine

/-- Every counter's VALUE is at most 2^56 - 1 (R534, R535), and the trace buffer's places lie in it (R544). -/
def ObsOk (o : Obs) : Prop := (∀ i, (o.counters.get i).2 ≤ 2 ^ 56 - 1) ∧ o.stored ≤ 8191 ∧ o.writeIndex ≤ 8191

/-- The error log's indexes are 32 bits wide, and it holds at most 256 records that are not consumed (R496). -/
def LogOk (r : Rcv) : Prop := r.produced < 2 ^ 32 ∧ r.consumed < 2 ^ 32 ∧ unconsumed r ≤ 256

/-- A pair's active priorities rise strictly from the top of its stack: a source preempts only for a lower priority value (R468, R469). -/
def NestOk (u : Icu) : Prop := ∀ p, ((u.pairs.get p).stack).Pairwise (fun a b => a.1 < b.1)

/-- Every TDI is in one of the four states (R301). -/
def TdiOk (t : Tbl Nat) : Prop := ∀ sl, t.get sl ≤ 3

/-- The invariant of every step. -/
structure Inv (s : State) : Prop where
  obs : ObsOk s.obs
  log : LogOk s.rcv
  nest : NestOk s.icu
  tdi : TdiOk s.tdi

/-- No one-time-programmable value is undone: a programmed bit of a life-cycle word stays programmed, and a value written once stays
(R512, R518). -/
structure FusesKept (a b : Lcc) : Prop where
  words : ∀ i, a.words.get i &&& b.words.get i = a.words.get i
  uid : ∀ v, a.deviceUid = some v → b.deviceUid = some v
  tokens : ∀ v, a.tokenDigests = some v → b.tokenDigests = some v
  molnor : ∀ v, a.molnorDigest = some v → b.molnorDigest = some v

/-- From `s` to `t` the waiting commands are the same, outputs are only added, free values are only drawn, no fuse is undone, and the
invariant is kept. -/
structure Kept (s t : State) : Prop where
  pending : t.pending = s.pending
  out : s.out <+: t.out
  free : s.free ≤ t.free
  fuses : FusesKept s.lcc t.lcc
  lot : ∀ v, v ≠ 0 → s.ods.mfgLot = some v → t.ods.mfgLot = some v
  obs : ObsOk s.obs → ObsOk t.obs
  log : LogOk s.rcv → LogOk t.rcv
  nest : NestOk s.icu → NestOk t.icu
  tdi : TdiOk s.tdi → TdiOk t.tdi

/-- The same of an outcome: of its next state, when it has one. -/
def KeptBy (s : State) : Host.Outcome State Fault Refusal → Prop
  | .next t => Kept s t
  | .fault _ => True
  | .refused _ => True

/-! ### The words of claims about commands -/

/-- The executor may start the command: it is in flight, ready, the one fetched, and no kill or timeout waits for it; its queue's slice
may start commands, and its own slice does not turn it away as a target (R336, R406, R427, R487). -/
structure Starts (h : CmdHdr) (op : Nat) (ops : List (Nat × Nat × Nat)) (s : State) : Prop where
  flight : ∃ f, s.flight h.key = some f ∧ f.phase = .ready ∧ f.raw = encodeCmd h op ops ∧ f.override = none
  owner : fetchStopped s (s.q h.key).owner = false
  target : targetRefuses s (encodeCmd h op ops) = false

/-- The state in which the command has been started and charged, and nothing else has happened (R336, R423). -/
def State.started (s : State) (h : CmdHdr) : State := startCmd h.key h.ctx.toNat s

/-- The command's engine has finished it with a status and a DETAIL (R336, R357). -/
def Ended (k : CmdKey) (status detail : Nat) (t : State) : Prop :=
  ∃ f, t.flight k = some f ∧ f.phase = .done ∧ f.status = status ∧ f.detail = BitVec.ofNat 64 detail

/-- The command has started, and a later event finishes it (R336). -/
def Runs (k : CmdKey) (t : State) : Prop := ∃ f, t.flight k = some f ∧ f.phase = .running ∧ f.override = none

/-- A command whose block DMA reads lines has started, and its next event takes it on (R386). -/
def InHand (h : CmdHdr) (op : Nat) (ops : List (Nat × Nat × Nat)) (s : State) : Prop :=
  ∃ f, s.flight h.key = some f ∧ f.phase = .running ∧ f.raw = encodeCmd h op ops ∧ f.override = none

/-- No queue of a slice holds the command, among its flights or its frames. -/
def OutsideQueues (k : CmdKey) (sl : Nat) (s : State) : Prop :=
  ∀ n ∈ ownQueues s sl, (∀ f ∈ (s.cex.queues.get n).flights, f.key ≠ k) ∧ ∀ f ∈ (s.cex.queues.get n).frames, f.key ≠ k

/-- Nothing in the block waits on behalf of the command: no wait, held fence, domain fence, closing stream, rotation, region, plough, sheaf,
domain, slice, kill, invalidation or gathered block DMA names it. -/
structure Fresh (k : CmdKey) (s : State) : Prop where
  waits : ∀ w ∈ s.cex.waits, w.key ≠ k
  holds : ∀ x ∈ s.cex.holds, x.key ≠ k
  fences : ∀ i, ∀ w ∈ (s.cex.groups.get i).waits, w.key ≠ k
  frames : ∀ f ∈ (s.q k).frames, f.key ≠ k
  kills : ∀ c ∈ s.cex.kills, c.1 ≠ some k
  closing : ∀ c ∈ s.link.closing, c.1 ≠ k
  pairs : ∀ i, ∀ v ∈ (s.link.pairs.get i).waiters ++ (s.link.pairs.get i).serving, v.1 ≠ k
  windows : ∀ i, s.mem.closeKey.get i ≠ some k
  defines : ∀ i, (s.mem.regions.get i).define ≠ some k
  retires : ∀ i, k ∉ (s.mem.regions.get i).retire
  saves : ∀ i, (s.mem.regions.get i).ending ≠ some k
  ploughs : ∀ p ∈ s.mem.ploughs, k ∉ p.keys
  gathers : ∀ g ∈ s.mem.gathers, g.key ≠ k
  sheaves : ∀ i, (s.sheaf.ctxs.get i).ending ≠ some k
  forms : ∀ i, (s.dom.doms.get i).formKey ≠ some k
  releases : ∀ i, (s.dom.doms.get i).releaseKey ≠ some k
  freezes : ∀ i, (s.srg.slices.get i).freezing ≠ some k
  invalidates : ∀ c ∈ s.xlt.invalidating, c.1 ≠ k

/-- The command ends with SUCCESS and a DETAIL when the gate of its slice, sampled in `s`, is open there, and otherwise waits for the gate
(R39, R286). -/
def EndsAtGate (k : CmdKey) (sl detail : Nat) (s t : State) : Prop :=
  (gateOpen s sl (gateSample s sl) = true → Ended k St.success detail t) ∧
  (gateOpen s sl (gateSample s sl) = false → Runs k t ∧ ∃ x ∈ t.cex.holds, x.key = k ∧ x.sample = gateSample s sl ∧ x.detail = detail)

/-- From `s` to `t` a slice's firmware has sent one domain message to a member, under its next SEQUENCE (R110). -/
def SendsMsg (sl dest type : Nat) (body : Bytes) (s t : State) : Prop :=
  (t.domain sl).sent = (s.domain sl).sent ++ [{ dest, type, seq := (s.domain sl).seqOut.get dest + 1, body }] ∧
  (t.domain sl).seqOut = (s.domain sl).seqOut.set dest ((s.domain sl).seqOut.get dest + 1)

/-- A whole message stands at the firmware of a slice, whose domain accepts its header (R110, R112). -/
structure Arrived (sl : Nat) (h : DomHdr) (type : Nat) (body : Bytes) (s : State) : Prop where
  whole : { slice := sl, plain := plainType type, data := domBytes h type body } ∈ s.link.inbox
  accepted : domAccepts s sl h = true

/-- Nothing in the block waits for a slice's gate or closes: no TLP, no group of a gateway, no fence, no domain fence, no closing stream
(R275, R286). -/
structure GateIdle (s : State) : Prop where
  egress : s.link.egress = []
  gw : s.link.gw = []
  holds : s.cex.holds = []
  fences : ∀ e ∈ s.cex.groups.ents, e.2.waits = []
  streams : ∀ e ∈ s.link.streams.ents, e.2.state ≠ 3

/-- From `s` to `t` a slice's member has originated ABORT with a cause: it is IDLE, and the abort is counted and recorded (R134, R136). -/
def Aborts (sl cause : Nat) (s t : State) : Prop :=
  (t.domain sl).state = 0 ∧ (t.domain sl).abortCause = cause ∧ (t.domain sl).abortOrigin = (s.domain sl).member ∧
  (t.domain sl).abortCount = (s.domain sl).abortCount + 1

/-- From `s` to `t` a transmit stream has sent one group of its own key and counter on its port, with a payload behind its descriptors, and
nothing else has left the block (R262-R266). -/
def SendsGroup (e pkts : Nat) (payload descs : Bytes) (s t : State) : Prop :=
  let x := s.stream e
  let d := s.domain x.slice
  let key := engKey s 4 (linkIx x.port x.pair x.epoch x.halyard)
  let iv := linkIv x.cls d.member x.peer x.ctr
  let gsh := gshBytes x.kph false false x.cls (peerSlice d x.peer) d.member x.peer payload.length x.ctr pkts (d.attempt % 256)
  let cipher := Config.gcmCrypt key iv payload
  t.out = s.out ++ [.group x.port gsh descs cipher (gsh ++ leBytes 16 (Config.gcmTag key iv (gsh ++ descs) cipher).toNat)] ∧
  t.stream e = { x with ctr := x.ctr + 1 }

/-- An event record without a command that is raised to some rings, as it waits to be posted (R352, R353), with the slices whose gate it waits
for (R286). -/
def eventOf (rings : List Nat) (kind code detail time : Nat) : EvWait :=
  { record := { cookie := 0, timestamp := time, detail := BitVec.ofNat 64 detail, context := 0, status := code, queue := 0xFF, kind }, signal := true,
    fwd := none, key := none, slices := slicesOf rings, sample := none }

/-- A message is a trace record on a lane of the crow's nest. -/
def isLane : OutMsg → Bool
  | .lane _ => true
  | _ => false

/-- From `s` to `t` these messages have left the block, in this order, and beside them trace records only (R544, R547): an armed trace
records what a command makes pending. -/
def Sends (ms : List OutMsg) (s t : State) : Prop := ∃ l, t.out = s.out ++ l ∧ l.filter (fun m => !isLane m) = ms

/-- A ring's waiting records are those of `s` followed by `es`. -/
def Posts (ring : Nat) (es : List EvWait) (s t : State) : Prop := (t.cex.rings.get ring).waiting = (s.cex.rings.get ring).waiting ++ es

/-- The firmware's responder takes an SPDM request: it runs, the connection has reached a phase in the request's version, and a session it
names is open on its transport (R98, R99, R595). -/
structure Accepts (phase : Nat) (m : SpdmHdr) (s : State) : Prop where
  running : s.rcv.fwRunning = true
  reached : phase ≤ (connOf m s).phase
  version : m.version.toNat = (connOf m s).version
  session : ∀ n, m.session = some n → (s.dom.sessions.get n.toNat).phase ≠ 0 ∧ (s.dom.sessions.get n.toNat).transport = SpdmHdr.conn m

/-- The responder's one answer is a response with a code and values: whole when the transport carries it, and otherwise ERROR with the response
kept for CHUNK_GET (R98). -/
def Answers (m : SpdmHdr) (code : Nat) (values : Bytes) (s t : State) : Prop :=
  let body := Config.stdBody code values
  (body.length ≤ spdmLimit m → Sends [.response (SpdmHdr.conn m) code body] s t) ∧
  (spdmLimit m < body.length → Sends [.response (SpdmHdr.conn m) 0x7F (Config.stdBody 0x7F [0x0F])] s t ∧ (connOf m t).out = body ∧ (connOf m t).outAt = 0)

/-- The state in which the dictionary server serves a request: its path's source is pending, the request is counted, and the transaction of
the same identity has ended (R449, R450, R465). -/
def asked (path : DictPath) (m : DictMsg) (s : State) : State :=
  let s := pend (pathSource path) s
  endIdentity (pathCode path) (requesterOf s path) m.tag.toNat { s with ods := { s.ods with requests := s.ods.requests + 1 } }

/-- A dictionary answer has left on its path: as a response, announced by an in-band interrupt on I3C, or on the fabric as a message toward the
masthead (R451, R453, R455). -/
def Delivers (path : DictPath) (op : Nat) (m : DictMsg) (a : DictAns) (s t : State) : Prop :=
  let b := ansBytes op m a
  match path with
  | .i3c _ => Sends [.dictResponse 0 m.tag.toNat a.status b, .ibi 0xAE] s t
  | .mailbox _ => Sends [.dictResponse 1 m.tag.toNat a.status b] s t
  | .fabric sl o =>
    match nextHop (s.domain sl.toNat) o.toNat with
    | some hop => SendsMsg sl.toNat hop 0x0101 (d2 o.toNat ++ d2 (s.domain sl.toNat).member ++ b) s t
    | none => Sends [.firmware sl.toNat b] s t

/-- The parts of the state: one for each field of `State`. -/
inductive Part where
  | clk | rcv | icu | obs | sen | tamperIn | cex | xlt | srg | ods | vault | kst | engKeys | kwe | pke | ent | atu | lcc | mem | link | sheaf | dom | pins | boot | tdi | ac | vt | free | out | pending
  deriving DecidableEq, Repr

/-- From `s` to `t` no part changes but those that `P` allows. -/
structure Off (P : Part → Bool) (s t : State) : Prop where
  clk : P .clk = false → t.clk = s.clk
  rcv : P .rcv = false → t.rcv = s.rcv
  icu : P .icu = false → t.icu = s.icu
  obs : P .obs = false → t.obs = s.obs
  sen : P .sen = false → t.sen = s.sen
  tamperIn : P .tamperIn = false → t.tamperIn = s.tamperIn
  cex : P .cex = false → t.cex = s.cex
  xlt : P .xlt = false → t.xlt = s.xlt
  srg : P .srg = false → t.srg = s.srg
  ods : P .ods = false → t.ods = s.ods
  vault : P .vault = false → t.vault = s.vault
  kst : P .kst = false → t.kst = s.kst
  engKeys : P .engKeys = false → t.engKeys = s.engKeys
  kwe : P .kwe = false → t.kwe = s.kwe
  pke : P .pke = false → t.pke = s.pke
  ent : P .ent = false → t.ent = s.ent
  atu : P .atu = false → t.atu = s.atu
  lcc : P .lcc = false → t.lcc = s.lcc
  mem : P .mem = false → t.mem = s.mem
  link : P .link = false → t.link = s.link
  sheaf : P .sheaf = false → t.sheaf = s.sheaf
  dom : P .dom = false → t.dom = s.dom
  pins : P .pins = false → t.pins = s.pins
  boot : P .boot = false → t.boot = s.boot
  tdi : P .tdi = false → t.tdi = s.tdi
  ac : P .ac = false → t.ac = s.ac
  vt : P .vt = false → t.vt = s.vt
  free : P .free = false → t.free = s.free
  out : P .out = false → t.out = s.out
  pending : P .pending = false → t.pending = s.pending

/-- The same of an outcome: of its next state, when it has one. -/
def OffBy (P : Part → Bool) (s : State) : Host.Outcome State Fault Refusal → Prop
  | .next t => Off P s t
  | .fault _ => True
  | .refused _ => True

/-- The parts of the state that a command may change, by command; every other part it leaves as it was. -/
def commandParts : Instr → List Part
  | .nop .. | .scalarSet .. | .scalarAdd .. | .waitMem .. | .waitSync .. | .fenceLocal .. | .keyFence .. | .egressFence .. | .contextBind .. |
    .contextUnbind .. => [.cex, .srg]
  | .call .. | .launch .. => [.rcv, .obs, .cex, .srg]
  | .callIterationStart .. | .waitTimeout .. | .compatTimeout .. => [.cex]
  | .seal .. | .load .. | .scalarLoad .. | .groupDefine .. => [.rcv, .obs, .cex, .xlt, .srg]
  | .scalarStore .. | .fallowRead .. | .domainProve .. => [.rcv, .obs, .cex, .xlt, .srg, .out]
  | .waitMemPoll .. => [.rcv, .obs, .cex, .xlt]
  | .fenceDomain .. | .stepOpen .. | .stepClose .. | .stepCloseWritesDrained .. | .fenceAck .. | .fenceDone .. | .hleTlpEgress .. =>
    [.rcv, .icu, .obs, .cex, .srg, .mem, .link, .dom, .out]
  | .regionDefine .. => [.cex, .srg, .engKeys, .kwe, .ent, .mem]
  | .regionZeroFillDone .. | .epochAged .. => [.cex, .mem]
  | .regionRetire .. => [.rcv, .icu, .obs, .cex, .srg, .engKeys, .ent, .mem, .sheaf, .free, .out]
  | .regionDescriptorFreed .. => [.cex, .engKeys, .mem]
  | .regionGrant .. | .regionRevoke .. | .pageRetire .. => [.cex, .srg, .mem]
  | .saveBegin .. | .saveEnd .. | .saveDiscard .. | .wheelSlotService .. => [.rcv, .icu, .obs, .cex, .srg, .mem, .out]
  | .plough .. => [.rcv, .icu, .obs, .cex, .srg, .engKeys, .kwe, .ent, .mem, .out]
  | .ploughLineMove .. | .ploughComplete .. | .domainAbort .. | .domainDissolve .. | .sliceThaw .. | .domainFenceTimeout .. | .releaseTimeout .. |
    .halyardAck .. | .abort .. | .dissolve .. | .memoryRead .. | .memoryReadData .. | .counterLineFetchData .. | .rebaseChildMove .. |
    .dueReport .. | .eraseResponse .. | .eraseTimeout .. | .scrubReread .. | .calDone .. | .calAnnouncementTimeout .. | .groupReceive .. |
    .groupTrailer .. | .trailerTimeout .. | .linkNextKeyDerived .. | .rxNextWaitTimeout .. | .drainEnd .. | .drainTimeout .. |
    .deadTargetReport .. | .resetChipReq .. =>
    [.rcv, .icu, .obs, .cex, .srg, .ods, .kst, .engKeys, .kwe, .pke, .ent, .mem, .link, .sheaf, .dom, .pins, .ac, .vt, .out]
  | .ploughPause .. | .counterWriteback .. => [.rcv, .icu, .obs, .cex, .mem, .out]
  | .keyDerive .. => [.cex, .srg, .kst, .kwe, .ent]
  | .keyGenerate .. => [.rcv, .obs, .cex, .xlt, .srg, .kst, .kwe, .ent, .free]
  | .keyWrap .. => [.rcv, .obs, .cex, .xlt, .srg, .kwe, .pke, .ent, .free, .out]
  | .keyUnwrap .. => [.rcv, .obs, .cex, .xlt, .srg, .kst, .kwe, .ent]
  | .keyZeroize .. => [.cex, .srg, .kst, .engKeys, .kwe, .ent]
  | .cipherEncrypt .. => [.rcv, .obs, .cex, .xlt, .srg, .kwe, .ent, .free, .out]
  | .cipherDecrypt .. => [.rcv, .obs, .cex, .xlt, .srg, .kwe, .ent, .out]
  | .pkHash .. => [.rcv, .obs, .cex, .xlt, .srg, .ent, .out]
  | .pkVerify .. => [.rcv, .obs, .cex, .xlt, .srg, .ent]
  | .sheafBegin .. => [.rcv, .obs, .cex, .xlt, .srg, .engKeys, .kwe, .ent, .sheaf]
  | .sheafEnd .. => [.rcv, .obs, .cex, .xlt, .srg, .engKeys, .ent, .sheaf, .free, .out]
  | .sheafCombine .. => [.rcv, .obs, .cex, .xlt, .srg, .ent, .sheaf, .free, .out]
  | .streamOpen .. => [.cex, .srg, .engKeys, .kwe, .ent, .link]
  | .streamClose .. => [.cex, .srg, .link]
  | .streamRotate .. => [.rcv, .obs, .cex, .xlt, .srg, .link]
  | .domainJoin .. =>
    [.rcv, .icu, .obs, .cex, .xlt, .srg, .ods, .kst, .engKeys, .kwe, .pke, .ent, .atu, .mem, .link, .sheaf, .dom, .pins, .ac, .vt, .free, .out]
  | .domainForm .. | .domainRelease .. | .sliceSave .. | .copy .. | .exportBlob .. =>
    [.rcv, .icu, .obs, .cex, .xlt, .srg, .ods, .kst, .engKeys, .kwe, .pke, .ent, .mem, .link, .sheaf, .dom, .pins, .ac, .vt, .free, .out]
  | .domainGo .. | .halyardLive .. => [.rcv, .icu, .obs, .cex, .srg, .mem, .link, .dom, .pins, .ac, .vt, .out]
  | .sliceCreate .. => [.rcv, .obs, .cex, .xlt, .srg, .ods, .pke, .ent, .atu, .tdi, .free]
  | .sliceReset .. | .watchdogExpiry .. | .lockstepMismatch .. =>
    [.rcv, .icu, .obs, .cex, .xlt, .srg, .ods, .kst, .engKeys, .kwe, .pke, .ent, .atu, .mem, .link, .sheaf, .dom, .pins, .tdi, .ac, .vt, .out]
  | .sliceFreeze .. => [.rcv, .icu, .obs, .cex, .srg, .ods, .mem, .link, .dom, .tdi, .out]
  | .sliceRestore .. =>
    [.rcv, .icu, .obs, .cex, .xlt, .srg, .kst, .engKeys, .kwe, .pke, .ent, .mem, .link, .sheaf, .dom, .pins, .ac, .vt, .free, .out]
  | .sliceCommit .. => [.rcv, .icu, .obs, .cex, .srg, .kst, .engKeys, .kwe, .pke, .mem, .link, .sheaf, .dom, .pins, .ac, .vt, .out]
  | .contextKill .. => [.rcv, .icu, .obs, .cex, .srg, .kst, .engKeys, .kwe, .mem, .link, .dom, .out]
  | .usageReport .. => [.rcv, .obs, .cex, .xlt, .srg, .ent, .free, .out]
  | .importBlob .. => [.rcv, .icu, .obs, .cex, .xlt, .srg, .kst, .engKeys, .kwe, .ent, .mem, .sheaf, .free, .out]
  | .xltInvalidate .. => [.cex, .xlt, .srg]
  | .doorbell .. => [.rcv, .icu, .obs, .cex, .out]
  | .commandFetch .. => [.rcv, .icu, .obs, .cex, .xlt, .srg, .out]
  | .commandCompletion .. => [.rcv, .icu, .obs, .cex, .srg, .out]
  | .queueEnable .. | .queueSkip .. => [.rcv, .cex, .ods, .out]
  | .queueResume .. => [.rcv, .icu, .obs, .cex, .srg, .ods, .out]
  | .compatDrainTimeout .. => [.rcv, .icu, .obs, .cex, .xlt, .ods, .mem, .dom, .out]
  | .eventPost .. | .tableWalkRead .. | .blockDmaAccess .. | .eventReadIndexWrite .. => [.rcv, .icu, .obs, .cex, .xlt, .out]
  | .eventModerationExpiry .. => [.cex, .out]
  | .eventRingBaseWrite .. => [.cex, .ods, .out]
  | .fenceResend .. | .fenceMsgForward .. | .fenceRerequestExpiry .. | .domainResend .. | .dictReply .. =>
    [.rcv, .icu, .obs, .cex, .srg, .link, .dom, .out]
  | .rollChallenge .. | .rollAnswer .. | .rollAnswerDeadline .. | .rollCallTimeout .. | .halyardKey .. | .halyardAckDeadline .. |
    .versionSupply .. =>
    [.rcv, .icu, .obs, .cex, .srg, .ods, .kst, .engKeys, .kwe, .pke, .ent, .mem, .link, .sheaf, .dom, .pins, .ac, .vt, .free, .out]
  | .rollChallengeHoldExpiry .. => [.dom]
  | .formationTimeout .. => [.rcv, .icu, .obs, .cex, .kst, .engKeys, .kwe, .pke, .mem, .link, .sheaf, .dom, .pins, .ac, .vt, .out]
  | .dictAccess .. | .dictRead .. | .dictWrite .. | .segRead .. | .segWrite .. | .dictAbort .. | .dictEntryWrite .. | .mbGo .. |
    .mctpPacketReceive .. =>
    [.rcv, .icu, .obs, .sen, .tamperIn, .cex, .xlt, .srg, .ods, .vault, .kst, .engKeys, .kwe, .pke, .ent, .atu, .lcc, .mem, .link, .sheaf, .dom,
    .pins, .ac, .vt, .free, .out]
  | .memoryWrite .. => [.rcv, .icu, .obs, .cex, .engKeys, .ent, .mem, .sheaf, .free, .out]
  | .rebase .. | .calAnn .. | .sweepReq .. | .sweepDurationExpiry .. | .thrChange .. | .engineResetDone .. => [.rcv, .icu, .obs, .mem, .out]
  | .sweepGnt .. | .sweepReqTimeout .. => [.mem, .out]
  | .sweepEnd .. => [.mem]
  | .rateSample .. => [.rcv, .icu, .obs, .sen, .cex, .srg, .out]
  | .hostPacketTx .. | .groupFlushExpiry .. | .linkRotate .. => [.rcv, .icu, .obs, .cex, .srg, .link, .out]
  | .hleTlpReceive .. | .keySetStop .. | .lossOfSecure .. => [.rcv, .icu, .obs, .cex, .srg, .ods, .engKeys, .mem, .link, .dom, .tdi, .out]
  | .query .. | .getTdispVersion .. | .getTdispCapabilities .. | .getDeviceInterfaceReport .. | .getDeviceInterfaceState .. |
    .tdispUnsupportedRequest .. | .getEndpointId .. | .getEndpointUuid .. | .getMctpVersionSupport .. | .getMessageTypeSupport .. |
    .getVendorDefinedMessageSupport .. | .watchdogWarning .. | .hostStall .. | .icuSourceAssert .. | .eoi .. | .sgi .. | .hostEvent .. =>
    [.rcv, .icu, .obs, .out]
  | .keyProg .. => [.rcv, .icu, .obs, .engKeys, .kwe, .ent, .link, .out]
  | .keySetGo .. => [.rcv, .icu, .obs, .link, .out]
  | .lockInterfaceRequest .. | .startInterfaceRequest .. => [.rcv, .icu, .obs, .ods, .tdi, .out]
  | .stopInterfaceRequest .. => [.rcv, .icu, .obs, .ods, .link, .tdi, .out]
  | .getVersion .. | .getCapabilities .. | .negotiateAlgorithms .. | .getDigests .. | .getCertificate .. | .heartbeat .. | .chunkSend .. |
    .chunkGet .. | .spdmUnsupportedRequest .. => [.rcv, .icu, .obs, .dom, .out]
  | .challenge .. | .getMeasurements .. => [.rcv, .icu, .obs, .ent, .dom, .free, .out]
  | .keyExchange .. => [.rcv, .icu, .obs, .kst, .engKeys, .kwe, .pke, .ent, .dom, .free, .out]
  | .finish .. | .keyUpdate .. => [.rcv, .icu, .obs, .kst, .engKeys, .kwe, .ent, .dom, .out]
  | .endSession .. => [.rcv, .icu, .obs, .kst, .engKeys, .kwe, .dom, .out]
  | .vendorDefinedRequest .. => [.rcv, .icu, .obs, .dom, .free, .out]
  | .dictSegIdleExpiry .. | .setdasa .. | .entdaa .. => [.ods]
  | .setEndpointId .. | .counterReset .. => [.rcv, .icu, .obs, .ods, .out]
  | .tamperCauseClear .. => [.ods, .vault, .out]
  | .certCacheFlush .. => [.ods, .dom, .out]
  | .sliceRelease .. => [.rcv, .icu, .obs, .cex, .xlt, .srg, .ods, .kst, .engKeys, .kwe, .pke, .mem, .link, .sheaf, .ac, .vt, .out]
  | .sliceRecordWrite .. => [.srg, .ods, .out]
  | .mcWayQuotaWrite .. => [.rcv, .icu, .obs, .cex, .srg, .ods, .mem, .out]
  | .s2RootWrite .. => [.rcv, .icu, .obs, .cex, .xlt, .ods, .out]
  | .leModeWrite .. => [.ods, .link, .out]
  | .chipResetGo .. | .resetPortAssert .. =>
    [.clk, .rcv, .icu, .obs, .sen, .cex, .xlt, .srg, .ods, .kst, .engKeys, .kwe, .pke, .ent, .atu, .lcc, .mem, .link, .sheaf, .dom, .pins, .boot,
    .tdi, .ac, .vt]
  | .chipCoopTimeout .. => [.rcv, .icu, .obs, .pins, .out]
  | .firstErrorClear .. | .dumpClear .. | .errlogConsumedWrite .. | .cpKick .. => [.rcv, .ods, .out]
  | .killLimitExpiry .. => [.rcv, .icu, .obs, .cex, .xlt, .ods, .kst, .engKeys, .kwe, .mem, .dom, .out]
  | .lcTransition .. => [.ods, .lcc, .out]
  | .lcOtpProgramDone .. | .zeroizationComplete .. =>
    [.rcv, .icu, .obs, .cex, .srg, .ods, .vault, .kst, .engKeys, .kwe, .pke, .ent, .lcc, .mem, .link, .sheaf, .dom, .pins, .tdi, .ac, .vt, .free,
    .out]
  | .debugRequest .. => [.rcv, .icu, .obs, .cex, .ods, .kst, .engKeys, .kwe, .pke, .ent, .atu, .lcc, .mem, .link, .sheaf, .ac, .vt, .free, .out]
  | .debugResponse .. => [.rcv, .icu, .obs, .cex, .ods, .kst, .engKeys, .kwe, .pke, .atu, .lcc, .mem, .link, .sheaf, .ac, .vt, .out]
  | .vaultProvision .. => [.ods, .vault, .ent, .lcc, .pins, .free, .out]
  | .dmiRead .. | .dmiWrite .. => [.rcv, .icu, .obs, .cex, .ods, .lcc, .free, .out]
  | .hartHalted .. => [.lcc]
  | .counterSnapshot .. => [.obs, .ods, .out]
  | .traceArm .. | .traceTriggerNow .. | .traceMarker .. => [.icu, .obs, .ods, .out]
  | .tracePcSample .. | .claim .. | .pendSet .. => [.icu, .obs, .out]
  | .pendClr .. | .maskClr .. | .stormClear .. | .stormWindowExpiry .. | .icuModerationExpiry .. | .srcCfgWrite .. | .pmrWrite .. => [.icu]
  | .maskSet .. => [.icu, .free]
  | .fwdGo .. => [.icu, .cex]
  | .kweRequest .. => [.kwe, .out]
  | .kweComplete .. => [.rcv, .icu, .obs, .cex, .srg, .kst, .engKeys, .kwe, .ent, .free, .out]
  | .pkeComplete .. => [.rcv, .icu, .obs, .srg, .out]
  | .entHealthFailure .. => [.rcv, .icu, .obs, .ent, .out]
  | .entRetryExpiry .. => [.ent]
  | .entStartupTestsDone .. => [.ent, .free]
  | .drbgReseed .. => [.rcv, .icu, .obs, .kwe, .ent, .free, .out]
  | .meshCompare .. | .vaultSupplyOutOfRange .. => [.vault]
  | .tamperInSample .. => [.tamperIn, .vault]
  | .tamperLatchClear .. => [.tamperIn, .ods, .out]
  | .vbatOutOfRange .. => [.vault, .pins]
  | .vaultTempReading .. => [.sen, .vault]
  | .zeroization .. =>
    [.rcv, .icu, .obs, .cex, .srg, .ods, .vault, .kst, .engKeys, .kwe, .pke, .ent, .mem, .link, .sheaf, .dom, .pins, .tdi, .ac, .vt, .out]
  | .canarySample .. | .canaryIdleExercise .. | .supplyExcursion .. => [.rcv, .icu, .obs, .sen, .vault, .out]
  | .senFreezeExpiry .. => [.icu, .sen]
  | .brownOut .. | .tjWarnCrossing .. => [.rcv, .icu, .obs, .sen, .out]
  | .brownOutRecovery .. => [.obs, .sen, .out]
  | .referenceClockLost .. | .referenceClockRegained .. => [.clk]
  | .vaonRamp .. => [.clk, .sen, .vault, .lcc, .pins]
  | .strapSample .. => [.pins]
  | .chipResetRelease .. =>
    [.clk, .rcv, .icu, .obs, .cex, .srg, .ods, .vault, .kst, .engKeys, .kwe, .pke, .ent, .atu, .lcc, .mem, .link, .sheaf, .dom, .pins, .boot, .tdi,
    .ac, .vt, .free, .out]
  | .recoveryFetchRetry .. => [.rcv, .icu, .obs, .ods, .kst, .kwe, .pke, .ent, .atu, .boot, .free, .out]
  | .firmwareStart .. => [.rcv, .icu, .obs, .sen, .ods, .atu, .mem, .link, .boot, .out]
  | .railLoss .. =>
    [.clk, .rcv, .icu, .obs, .sen, .cex, .xlt, .srg, .ods, .vault, .kst, .engKeys, .kwe, .pke, .ent, .atu, .lcc, .mem, .link, .sheaf, .dom, .pins,
    .boot, .tdi, .ac, .vt, .out]
  | .preemptionPoint .. => [.srg]
  | .vbatRamp .. => [.clk, .vault, .pins]
  | .spdmHeartbeatTimeout .. => [.kst, .engKeys, .kwe, .dom]
  | .powerEstimateUpdate .. => [.ods, .free]

end Sys2Proof.Machine
end

