-- ==== Sys2Proof/WellFormed.lean ====
section
/-!
DEFINITION. Which commands are well formed: the operands whose Lean type is wider than what the manual numbers. The meanings are
total and take any operand; statements about a command of the block take a well-formed one.
-/
namespace Sys2Proof

/-- Memory engines and stacks are 0 to 11 (R153). -/
def engineOk (n : BitVec 4) : Bool := decide (n.toNat < 12)
/-- Fabric ports are 0 to 17 (R259). -/
def portOk (n : BitVec 5) : Bool := decide (n.toNat < 18)
/-- Event rings are one for each slice and one for the driver (R352). -/
def ringOk (n : BitVec 5) : Bool := decide (n.toNat ≤ 16)
/-- Translation sets are one for each slice and one for the host (R388). -/
def setOk (n : BitVec 5) : Bool := decide (n.toNat ≤ 16)
/-- Units of the error log and of the watchdogs (log 9). -/
def unitOk (n : BitVec 8) : Bool := decide (n.toNat ≤ 52)
/-- Units that the glitch sentinel watches (R559). -/
def watchedOk (n : BitVec 6) : Bool := decide (n.toNat < 36)
/-- Dies and die timer bases (R557, R563). -/
def dieOk (n : BitVec 2) : Bool := decide (n.toNat < 3)
/-- Published rates (R553; their numbers are the model's). -/
def rateOk (n : BitVec 6) : Bool := decide (n.toNat ≤ 40)
/-- Interrupt sources (R465). -/
def sourceOk (n : BitVec 10) : Bool := decide (n.toNat < 512)
/-- A command of a nested sequence stands at most this deep (R340). -/
def keyOk (k : CmdKey) : Bool := decide (k.path.length ≤ 4)
/-- A line has 128 octets (R153). -/
def lineOk (l : Line) : Bool := l.length == 128
def rdWordOk (r : RdWord) : Bool := lineOk r.cipher
def lineReadOk (r : LineRead) : Bool := rdWordOk r.word

/-- Is a command well formed? -/
def Instr.wf (i : Instr) : Bool :=
  match i with
  | .nop h => keyOk h.key
  | .call h _ _ _ _ => keyOk h.key
  | .callIterationStart key => keyOk key
  | .seal h _ _ _ _ _ => keyOk h.key
  | .load h _ _ _ _ => keyOk h.key
  | .launch h _ => keyOk h.key
  | .scalarSet h _ _ => keyOk h.key
  | .scalarAdd h _ _ _ _ => keyOk h.key
  | .scalarLoad h _ _ _ _ => keyOk h.key
  | .scalarStore h _ _ _ => keyOk h.key
  | .waitMem h _ _ _ _ _ => keyOk h.key
  | .waitMemPoll key _ _ => keyOk key
  | .waitSync h _ _ _ => keyOk h.key
  | .waitTimeout key => keyOk key
  | .fenceLocal h _ _ _ => keyOk h.key
  | .fenceDomain h _ => keyOk h.key
  | .keyFence h _ _ _ => keyOk h.key
  | .egressFence h => keyOk h.key
  | .stepOpen h => keyOk h.key
  | .stepClose h => keyOk h.key
  | .stepCloseWritesDrained _ => true
  | .groupDefine h _ _ _ _ _ => keyOk h.key
  | .regionDefine h _ _ _ _ _ _ _ _ _ _ _ => keyOk h.key
  | .regionZeroFillDone _ => true
  | .regionRetire h _ => keyOk h.key
  | .regionDescriptorFreed _ => true
  | .regionGrant h _ _ => keyOk h.key
  | .regionRevoke h _ _ => keyOk h.key
  | .fallowRead h _ _ => keyOk h.key
  | .pageRetire h _ _ => keyOk h.key
  | .saveBegin h _ _ _ => keyOk h.key
  | .saveEnd h _ => keyOk h.key
  | .saveDiscard h _ => keyOk h.key
  | .plough h _ _ _ _ _ => keyOk h.key
  | .ploughLineMove _ _ read => lineReadOk read
  | .ploughComplete _ => true
  | .ploughPause _ _ => true
  | .epochAged _ => true
  | .keyDerive h _ _ _ _ _ _ => keyOk h.key
  | .keyGenerate h _ _ _ _ _ _ _ => keyOk h.key
  | .keyWrap h _ _ _ _ _ _ _ _ => keyOk h.key
  | .keyUnwrap h _ _ _ _ _ _ _ _ => keyOk h.key
  | .keyZeroize h _ => keyOk h.key
  | .cipherEncrypt h _ _ _ _ _ _ _ _ => keyOk h.key
  | .cipherDecrypt h _ _ _ _ _ _ _ _ _ => keyOk h.key
  | .pkHash h _ _ _ _ _ _ _ => keyOk h.key
  | .pkVerify h _ _ _ _ _ _ _ _ _ _ => keyOk h.key
  | .sheafBegin h _ _ _ _ _ _ => keyOk h.key
  | .sheafEnd h _ _ _ => keyOk h.key
  | .sheafCombine h _ _ _ _ _ _ _ _ => keyOk h.key
  | .streamOpen h _ _ _ _ => keyOk h.key
  | .streamClose h _ _ _ => keyOk h.key
  | .streamRotate h _ _ _ _ => keyOk h.key
  | .domainJoin h _ _ _ _ _ _ _ _ => keyOk h.key
  | .domainForm h _ _ _ _ _ => keyOk h.key
  | .domainRelease h _ _ _ _ => keyOk h.key
  | .domainGo h => keyOk h.key
  | .domainAbort h _ => keyOk h.key
  | .domainDissolve h => keyOk h.key
  | .domainProve h _ _ _ => keyOk h.key
  | .sliceCreate h _ _ _ => keyOk h.key
  | .sliceReset h => keyOk h.key
  | .sliceFreeze h => keyOk h.key
  | .sliceSave h _ _ _ _ _ => keyOk h.key
  | .sliceRestore h _ _ _ _ _ => keyOk h.key
  | .sliceCommit h => keyOk h.key
  | .sliceThaw h => keyOk h.key
  | .contextBind h _ _ => keyOk h.key
  | .contextUnbind h _ => keyOk h.key
  | .contextKill h _ => keyOk h.key
  | .usageReport h _ _ _ => keyOk h.key
  | .copy h _ _ _ _ lines => keyOk h.key && lines.all (fun e => e.outside.all lineOk)
  | .importBlob h _ _ _ _ _ _ _ => keyOk h.key
  | .exportBlob h _ _ _ _ _ _ _ _ _ _ => keyOk h.key
  | .xltInvalidate h _ _ _ _ => keyOk h.key
  | .doorbell _ _ => true
  | .commandFetch key _ _ => keyOk key
  | .commandCompletion key => keyOk key
  | .queueEnable _ _ _ => true
  | .queueResume _ _ => true
  | .queueSkip _ _ => true
  | .compatTimeout key _ => keyOk key
  | .compatDrainTimeout key _ => keyOk key
  | .eventPost ring _ => ringOk ring
  | .eventModerationExpiry ring => ringOk ring
  | .eventRingBaseWrite _ ring _ => ringOk ring
  | .fenceAck _ _ _ _ => true
  | .fenceDone _ _ _ => true
  | .fenceResend _ _ _ => true
  | .fenceMsgForward _ _ _ _ _ => true
  | .fenceRerequestExpiry _ _ _ _ => true
  | .domainFenceTimeout key => keyOk key
  | .rollChallenge _ _ _ _ _ _ _ => true
  | .rollChallengeHoldExpiry _ => true
  | .rollAnswer _ _ _ _ _ => true
  | .rollAnswerDeadline _ _ => true
  | .rollCallTimeout _ => true
  | .releaseTimeout _ => true
  | .halyardKey _ _ _ _ _ _ _ _ => true
  | .halyardAck _ _ _ _ => true
  | .halyardAckDeadline _ _ => true
  | .halyardLive _ _ => true
  | .formationTimeout _ => true
  | .abort _ _ _ _ _ _ => true
  | .dissolve _ _ => true
  | .domainResend _ _ _ _ => true
  | .dictAccess _ _ _ _ _ => true
  | .dictReply _ _ _ _ _ => true
  | .memoryWrite engine _ _ _ _ data => engineOk engine && lineOk data
  | .memoryRead engine _ _ _ => engineOk engine
  | .memoryReadData engine _ _ word => engineOk engine && rdWordOk word
  | .versionSupply engine _ => engineOk engine
  | .counterLineFetchData _ _ _ _ read => lineReadOk read
  | .counterWriteback _ _ _ => true
  | .rebase _ _ _ _ => true
  | .rebaseChildMove _ _ _ _ read => lineReadOk read
  | .dueReport engine _ _ _ => engineOk engine
  | .eraseResponse engine answer => engineOk engine && answer.all (fun a => lineOk a.1)
  | .eraseTimeout engine => engineOk engine
  | .scrubReread engine _ read => engineOk engine && lineReadOk read
  | .calAnn stack _ _ _ => engineOk stack
  | .calDone stack _ => engineOk stack
  | .calAnnouncementTimeout stack _ => engineOk stack
  | .sweepReq stack _ _ => engineOk stack
  | .sweepGnt stack => engineOk stack
  | .sweepReqTimeout stack => engineOk stack
  | .sweepEnd stack => engineOk stack
  | .sweepDurationExpiry stack => engineOk stack
  | .thrChange stack _ => engineOk stack
  | .rateSample rate _ => rateOk rate
  | .wheelSlotService engine => engineOk engine
  | .hostPacketTx port _ _ _ _ _ _ _ _ => portOk port
  | .groupFlushExpiry port _ => portOk port
  | .groupReceive port _ _ _ => portOk port
  | .groupTrailer port _ _ _ => portOk port
  | .trailerTimeout port _ => portOk port
  | .linkRotate _ => true
  | .linkNextKeyDerived _ => true
  | .rxNextWaitTimeout port => portOk port
  | .drainEnd port _ => portOk port
  | .drainTimeout port _ => portOk port
  | .deadTargetReport port _ => portOk port
  | .hleTlpEgress _ _ _ _ => true
  | .hleTlpReceive _ _ _ _ _ _ _ _ => true
  | .query _ _ => true
  | .keyProg _ _ _ _ _ _ _ => true
  | .keySetGo _ _ _ _ _ => true
  | .keySetStop _ _ _ _ _ => true
  | .getTdispVersion _ => true
  | .getTdispCapabilities _ => true
  | .lockInterfaceRequest _ _ => true
  | .getDeviceInterfaceReport _ _ => true
  | .getDeviceInterfaceState _ _ => true
  | .startInterfaceRequest _ _ => true
  | .stopInterfaceRequest _ _ => true
  | .tdispUnsupportedRequest _ _ => true
  | .getVersion _ => true
  | .getCapabilities _ => true
  | .negotiateAlgorithms _ _ _ _ _ _ => true
  | .getDigests _ => true
  | .getCertificate _ _ _ _ => true
  | .challenge _ _ _ _ => true
  | .getMeasurements _ _ _ _ _ => true
  | .keyExchange _ _ _ _ => true
  | .finish _ _ => true
  | .heartbeat _ => true
  | .keyUpdate _ _ => true
  | .endSession _ => true
  | .chunkSend _ _ _ _ _ => true
  | .chunkGet _ _ _ => true
  | .vendorDefinedRequest _ _ _ _ => true
  | .spdmUnsupportedRequest _ _ => true
  | .dictRead _ _ => true
  | .dictWrite _ _ => true
  | .segRead _ _ => true
  | .segWrite _ _ => true
  | .dictAbort _ _ => true
  | .dictSegIdleExpiry _ _ => true
  | .dictEntryWrite _ _ _ _ _ => true
  | .mbGo _ _ _ _ => true
  | .setdasa _ _ => true
  | .entdaa _ => true
  | .setEndpointId _ _ _ _ => true
  | .getEndpointId _ => true
  | .getEndpointUuid _ => true
  | .getMctpVersionSupport _ _ => true
  | .getMessageTypeSupport _ => true
  | .getVendorDefinedMessageSupport _ _ => true
  | .mctpPacketReceive _ _ => true
  | .tamperCauseClear _ _ => true
  | .certCacheFlush _ _ => true
  | .sliceRelease _ _ _ => true
  | .sliceRecordWrite _ _ _ _ => true
  | .mcWayQuotaWrite _ _ _ => true
  | .s2RootWrite _ _ set _ _ => setOk set
  | .leModeWrite _ port _ => portOk port
  | .resetChipReq _ _ => true
  | .chipResetGo _ => true
  | .chipCoopTimeout => true
  | .firstErrorClear _ _ => true
  | .dumpClear _ _ => true
  | .errlogConsumedWrite _ _ => true
  | .cpKick _ _ _ => true
  | .watchdogWarning unit _ => unitOk unit
  | .watchdogExpiry unit _ _ _ => unitOk unit
  | .lockstepMismatch _ _ => true
  | .hostStall stack => engineOk stack
  | .killLimitExpiry unit => unitOk unit
  | .engineResetDone unit => unitOk unit
  | .lcTransition _ _ => true
  | .lcOtpProgramDone => true
  | .debugRequest _ _ => true
  | .debugResponse _ _ => true
  | .vaultProvision _ _ => true
  | .dmiRead _ _ _ => true
  | .dmiWrite _ _ _ _ => true
  | .hartHalted _ => true
  | .counterReset _ _ => true
  | .counterSnapshot _ _ => true
  | .traceArm _ _ => true
  | .traceTriggerNow _ _ => true
  | .traceMarker _ _ _ => true
  | .tracePcSample _ => true
  | .icuSourceAssert source _ _ _ => sourceOk source
  | .claim _ _ => true
  | .eoi _ _ _ => true
  | .pendSet _ _ => true
  | .pendClr _ _ => true
  | .maskSet _ _ => true
  | .maskClr _ _ => true
  | .stormClear _ _ => true
  | .sgi _ _ _ => true
  | .stormWindowExpiry source _ => sourceOk source
  | .icuModerationExpiry _ => true
  | .hostEvent _ _ => true
  | .fwdGo _ _ _ _ _ _ => true
  | .kweRequest _ _ _ _ _ => true
  | .kweComplete _ => true
  | .pkeComplete _ _ _ => true
  | .entHealthFailure _ => true
  | .entRetryExpiry => true
  | .entStartupTestsDone => true
  | .drbgReseed _ => true
  | .meshCompare _ _ => true
  | .tamperInSample _ _ => true
  | .tamperLatchClear _ _ _ => true
  | .vbatOutOfRange _ => true
  | .vaultSupplyOutOfRange _ => true
  | .vaultTempReading _ => true
  | .zeroization => true
  | .zeroizationComplete => true
  | .canarySample unit _ _ => watchedOk unit
  | .canaryIdleExercise unit _ => watchedOk unit
  | .senFreezeExpiry unit => watchedOk unit
  | .supplyExcursion die => dieOk die
  | .brownOut die => dieOk die
  | .brownOutRecovery die => dieOk die
  | .tjWarnCrossing _ => true
  | .referenceClockLost base => dieOk base
  | .referenceClockRegained base => dieOk base
  | .vaonRamp _ => true
  | .strapSample _ => true
  | .chipResetRelease _ _ _ _ _ _ => true
  | .recoveryFetchRetry _ _ => true
  | .firmwareStart _ _ => true
  | .railLoss _ => true
  | .tableWalkRead _ _ => true
  | .blockDmaAccess set _ _ _ _ _ _ key => setOk set && key.all keyOk
  | .eventReadIndexWrite ring _ => ringOk ring
  | .preemptionPoint _ _ _ _ _ => true
  | .vbatRamp _ => true
  | .resetPortAssert _ => true
  | .lossOfSecure _ => true
  | .srcCfgWrite _ source _ _ => sourceOk source
  | .pmrWrite _ _ _ => true
  | .spdmHeartbeatTimeout _ => true
  | .powerEstimateUpdate => true

end Sys2Proof
end

