-- ==== Sys2Proof/Certificates/Slice0/Obligations.lean ====
section
/-!
DEFINITION. The model's statements for the provers. A statement that a command completes names the state that its own effect leaves; `Starts`,
`Ended`, `Runs`, `Posts` and `eventOf` are the words of Sys2Proof/Safety.lean.
-/
open Sys2Proof Sys2Proof.Machine

/-- A step takes the command at the front of the queue and runs it on the state with the rest of the queue. -/
def Obligations.StepRunsFrontCommand : Prop :=
  ∀ (c : Instr) (rest : List Instr) (s : State), s.pending = c :: rest → step s = exec c { s with pending := rest }

/-- A step on an empty queue is one 10 ns tick (the model's choice, log 70): the timers that run advance, and no command is added. -/
def Obligations.IdleStepIsOneTick : Prop :=
  ∀ (s : State), s.pending = [] → ∃ t, step s = .next t ∧ t.pending = [] ∧
    t.clk.compute = (if s.clk.running then s.clk.compute + 10 else s.clk.compute) ∧
    t.clk.vault = (if s.clk.vaultRunning then s.clk.vault + 10 else s.clk.vault)

/-- The state right after reset meets the invariant. -/
def Obligations.ResetMeetsTheInvariant : Prop := Inv State.reset

/-- Every step keeps the invariant: counter values stay below 2^56 and the trace buffer's places inside it (R534, R544), the error log holds
at most 256 records that are not consumed (R496), the active priorities of each pair rise strictly from the top of its stack (R468,
R469), and every TDI is in one of its four states (R301). -/
def Obligations.StepKeepsTheInvariant : Prop := ∀ (s t : State), Inv s → step s = .next t → Inv t

/-- No command and no tick clears a programmed bit of a life-cycle word (R512) or changes a value that is written once: DEVICE_UID, the token
digests, MOLNOR_KEY_DIGEST and a MFG_LOT that is not blank (R458, R518). -/
def Obligations.ProgrammedWordsAreNeverUndone : Prop :=
  ∀ (s t : State), step s = .next t → FusesKept s.lcc t.lcc ∧ ∀ v, v ≠ 0 → s.ods.mfgLot = some v → t.ods.mfgLot = some v

/-- A command leaves the waiting commands alone, only adds to what the block has sent, and only draws free values (the model's own fields,
log 3). -/
def Obligations.CommandsOnlyAddOutput : Prop :=
  ∀ (c : Instr) (s t : State), exec c s = .next t → t.pending = s.pending ∧ s.out <+: t.out ∧ s.free ≤ t.free

/-- Every command on every state answers a next state: refusals of the manual are answers of the block, and no value stops it (R15, R337,
R450). -/
def Obligations.EveryCommandAnswersANextState : Prop := ∀ (c : Instr) (s : State), ∃ t, exec c s = .next t

/-- A command changes no part of the state but those that `commandParts` lists for it. -/
def Obligations.CommandsChangeOnlyTheirParts : Prop :=
  ∀ (c : Instr) (s t : State), exec c s = .next t → Off (fun p => decide (p ∈ commandParts c)) s t

/-- The error log, the first-error captures, the class counts, the dump, the reset counts and LAST_CHIP_RESET_CAUSE survive a chip reset
that the reset port forces, and all but the cause, which becomes the pending one, a chip reset of the ladder (R492, R493). -/
def Obligations.RetainedRecordsSurviveChipReset : Prop :=
  ∀ (s : State),
    (∃ t, exec (.resetPortAssert true) s = .next t ∧ t.rcv.log = s.rcv.log ∧ t.rcv.produced = s.rcv.produced ∧ t.rcv.consumed = s.rcv.consumed ∧
      t.rcv.overflow = s.rcv.overflow ∧ t.rcv.dropped = s.rcv.dropped ∧ t.rcv.firstError = s.rcv.firstError ∧ t.rcv.firstFatal = s.rcv.firstFatal ∧
      t.rcv.classCount = s.rcv.classCount ∧ t.rcv.dump = s.rcv.dump ∧ t.rcv.resetCounts = s.rcv.resetCounts ∧ t.rcv.lastCause = s.rcv.lastCause) ∧
    (s.rcv.chipResetReq = true → s.rcv.powerCycleReq = false →
      ∃ t, exec (.chipResetGo 0xA501) s = .next t ∧ t.rcv.log = s.rcv.log ∧ t.rcv.produced = s.rcv.produced ∧ t.rcv.consumed = s.rcv.consumed ∧
        t.rcv.overflow = s.rcv.overflow ∧ t.rcv.dropped = s.rcv.dropped ∧ t.rcv.firstError = s.rcv.firstError ∧ t.rcv.firstFatal = s.rcv.firstFatal ∧
        t.rcv.classCount = s.rcv.classCount ∧ t.rcv.dump = s.rcv.dump ∧ t.rcv.resetCounts = s.rcv.resetCounts ∧ t.rcv.lastCause = s.rcv.pendingCause)

/-- A chip reset, by the reset port or by the ladder, sets every counter, the snapshot bank and EPOCH_WRAPS to 0, and RESET_COUNTS survives
it (R539). -/
def Obligations.ChipResetClearsTheCounters : Prop :=
  ∀ (s : State),
    (∃ t, exec (.resetPortAssert true) s = .next t ∧ (∀ i, t.obs.counters.get i = (0, 0) ∧ t.obs.snap.get i = (0, 0)) ∧ t.obs.epochWraps = 0 ∧
      t.rcv.resetCounts = s.rcv.resetCounts) ∧
    (s.rcv.chipResetReq = true → s.rcv.powerCycleReq = false →
      ∃ t, exec (.chipResetGo 0xA501) s = .next t ∧ (∀ i, t.obs.counters.get i = (0, 0) ∧ t.obs.snap.get i = (0, 0)) ∧ t.obs.epochWraps = 0 ∧
        t.rcv.resetCounts = s.rcv.resetCounts)

/-- A command whose fetched words or state do not let it start has no effect (the strict reading of a command event, log 4): with no command in flight under its key, the scalar commands
change nothing. -/
def Obligations.UnknownCommandsChangeNothing : Prop :=
  ∀ (h : CmdHdr) (s : State), s.flight h.key = none →
    (∀ (value : BitVec 64) (dst : BitVec 8), exec (.scalarSet h value dst) s = .next s) ∧ exec (.nop h) s = .next s

/-- NOP, SCALAR_SET, SCALAR_ADD, SCALAR_LOAD and SCALAR_STORE complete with SUCCESS, and a scalar register of the queue takes the value
the command gives it, addition being modulo 2^64; no other scalar of the queue changes (R339, R369). SCALAR_STORE sends eight octets,
least significant first. -/
def Obligations.ScalarCommandsComplete : Prop :=
  ∀ (h : CmdHdr) (s : State),
    (Starts h 0x0000 [] s → ∃ t, exec (.nop h) s = .next t ∧ Ended h.key St.success 0 t) ∧
    (∀ (value : BitVec 64) (dst : BitVec 8), Starts h 0x0010 [(0x18, 8, value.toNat), (0x20, 1, dst.toNat)] s → dst.toNat < 16 →
      ∃ t, exec (.scalarSet h value dst) s = .next t ∧ Ended h.key St.success 0 t ∧
        ∀ i, (t.q h.key).scalars.get i = if i = dst.toNat then value else (s.q h.key).scalars.get i) ∧
    (∀ (value : BitVec 64) (dst src opt : BitVec 8),
      Starts h 0x0011 [(0x18, 8, value.toNat), (0x20, 1, dst.toNat), (0x21, 1, src.toNat), (0x22, 1, opt.toNat)] s → dst.toNat < 16 →
      (bit opt.toNat 0 = true → src.toNat < 16) →
      ∃ t, exec (.scalarAdd h value dst src opt) s = .next t ∧ Ended h.key St.success 0 t ∧
        ∀ i, (t.q h.key).scalars.get i = if i = dst.toNat then
          (s.q h.key).scalars.get dst.toNat + (if bit opt.toNat 0 then (s.q h.key).scalars.get src.toNat else value) else (s.q h.key).scalars.get i) ∧
    (∀ (bva word : BitVec 64) (dst : BitVec 8), Starts h 0x0012 [(0x18, 8, bva.toNat), (0x20, 1, dst.toNat)] s → bva.toNat % 8 = 0 → dst.toNat < 16 →
      ∃ t, exec (.scalarLoad h bva dst none word) s = .next t ∧ Ended h.key St.success word.toNat t ∧
        ∀ i, (t.q h.key).scalars.get i = if i = dst.toNat then word else (s.q h.key).scalars.get i) ∧
    (∀ (bva : BitVec 64) (src : BitVec 8), Starts h 0x0013 [(0x18, 8, bva.toNat), (0x20, 1, src.toNat)] s → bva.toNat % 8 = 0 → src.toNat < 16 →
      ∃ t, exec (.scalarStore h bva src none) s = .next t ∧ Ended h.key St.success 0 t ∧
        t.out = s.out ++ [.dma (tableSet s h.ctx.toNat) bva.toNat (leBytes 8 ((s.q h.key).scalars.get src.toNat).toNat)] ∧
        ∀ i, (t.q h.key).scalars.get i = (s.q h.key).scalars.get i)

/-- CALL starts a frame and keeps running; SEAL keeps the digest of the graph that its read returned and ends once its slice's gate is open;
LOAD compares the digest and loads the copy or refuses it with HASH_MISMATCH; LAUNCH starts a frame over the copy and counts itself in flight
(R39, R340-R344). CALL_ITERATION_START writes the index scalar with the number of the iteration, and either ends the CALL with the first
failing status and the iterations run or begins the iteration (R340). -/
def Obligations.BufferAndGraphCommandsComplete : Prop :=
  (∀ (h : CmdHdr) (bva : BitVec 64) (count : BitVec 16) (index : BitVec 8) (limit : BitVec 32) (s : State),
    Starts h 0x0001 [(0x18, 8, bva.toNat), (0x20, 2, count.toNat), (0x22, 1, index.toNat), (0x24, 4, limit.toNat)] s →
    h.key.path.length < 4 → bva.toNat % 8 = 0 → count ≠ 0 → limit ≠ 0 → 64 ≤ partitionSpaces (s.started h) (hdrSlice h) →
    ∃ t, exec (.call h bva count index limit) s = .next t ∧ Runs h.key t ∧
      (t.q h.key).frames = (s.q h.key).frames ++ [{
        key := h.key, graph := none, count := count.toNat, limit := limit.toNat, index := index.toNat % 16, iteration := 0, started := false,
        fetched := 0, finished := 0, bad := none, handle := none, slice := hdrSlice h }]) ∧
  (∀ (key : CmdKey) (f : Frame) (p : Flight) (s : State),
    (s.q key).frames.find? (fun f => f.key == key && f.graph.isNone) = some f → s.flight key = some p → p.phase = .running → p.override = none →
    fetchStopped s (s.q key).owner = false → (f.started = true → f.count ≤ f.finished) →
    let k := if f.started then f.iteration + 1 else 0
    let q := { s.q key with scalars := (s.q key).scalars.set f.index (BitVec.ofNat 64 k) }
    ∃ t, exec (.callIterationStart key) s = .next t ∧ (t.q key).scalars.get f.index = BitVec.ofNat 64 k ∧
      (k = f.limit ∨ condHolds q (rawCond p.raw) = false →
        Ended key (match f.bad with | some b => b.2.2 | none => 0) k t ∧ ∀ g ∈ (t.q key).frames, g.key ≠ key) ∧
      (k ≠ f.limit → condHolds q (rawCond p.raw) = true →
        Runs key t ∧ ∀ g ∈ (t.q key).frames, g.key = key → g.iteration = k ∧ g.started = true ∧ g.fetched = 0 ∧ g.finished = 0)) ∧
  (∀ (h : CmdHdr) (bva : BitVec 64) (count : BitVec 16) (handle : BitVec 8) (graph : List (BitVec 512)) (s : State),
    Starts h 0x0002 [(0x18, 8, bva.toNat), (0x20, 2, count.toNat), (0x22, 1, handle.toNat)] s → Fresh h.key s →
    bva.toNat % 8 = 0 → count ≠ 0 → count.toNat ≤ 8192 → handle.toNat < 64 → (s.graph (hdrSlice h) handle.toNat).launches = 0 →
    count.toNat ≤ (s.slice (hdrSlice h)).graphKib.2 * 16 →
    let d := graphDigest (graphOf count.toNat graph)
    ∃ t, exec (.seal h bva count handle none graph) s = .next t ∧ EndsAtGate h.key (hdrSlice h) (digestHead d) s t ∧
      t.graph (hdrSlice h) handle.toNat = { state := 1, digest := d, count := count.toNat, copy := [], launches := 0 }) ∧
  (∀ (h : CmdHdr) (bva : BitVec 64) (handle : BitVec 8) (graph : List (BitVec 512)) (s : State),
    Starts h 0x0003 [(0x18, 8, bva.toNat), (0x22, 1, handle.toNat)] s → bva.toNat % 8 = 0 → handle.toNat < 64 →
    let g := s.graph (hdrSlice h) handle.toNat
    g.launches = 0 → g.count ≤ partitionSpaces (s.started h) (hdrSlice h) →
    ∃ t, exec (.load h bva handle none graph) s = .next t ∧
      (g.state ≠ 0 ∧ graphDigest (graphOf g.count graph) = g.digest →
        Ended h.key St.success 0 t ∧ t.graph (hdrSlice h) handle.toNat = { g with state := 2, copy := graphOf g.count graph }) ∧
      (¬ (g.state ≠ 0 ∧ graphDigest (graphOf g.count graph) = g.digest) →
        Ended h.key St.hashMismatch 0 t ∧ t.graph (hdrSlice h) handle.toNat = g)) ∧
  (∀ (h : CmdHdr) (handle : BitVec 8) (s : State),
    Starts h 0x0004 [(0x22, 1, handle.toNat)] s → h.key.path.length < 4 → handle.toNat < 64 → (s.graph (hdrSlice h) handle.toNat).state = 2 →
    ∃ t, exec (.launch h handle) s = .next t ∧ Runs h.key t ∧
      (t.graph (hdrSlice h) handle.toNat).launches = (s.graph (hdrSlice h) handle.toNat).launches + 1 ∧
      (t.q h.key).frames = (s.q h.key).frames ++ [{
        key := h.key, graph := some (s.graph (hdrSlice h) handle.toNat).copy, count := (s.graph (hdrSlice h) handle.toNat).count, limit := 1,
        index := 0, iteration := 0, started := true, fetched := 0, finished := 0, bad := none, handle := some (hdrSlice h * 64 + handle.toNat),
        slice := hdrSlice h }])

/-- WAIT_MEM starts a wait, and a poll that finds its comparison true ends it with the word read (R339, R345). WAIT_SYNC ends at once where its
counter has reached the value, or is broken, and waits otherwise (R346). A timeout ends any wait with TIMEOUT, and WAIT_MEM with the word read
last (R345). KEY_FENCE waits until the epoch it names is current, and then completes at the gate; for a region whose epoch is another, under
no plough to the one named, it ends with KEY_NOT_INSTALLED (R39, R235). -/
def Obligations.WaitCommandsComplete : Prop :=
  (∀ (h : CmdHdr) (bva value mask : BitVec 64) (timeout : BitVec 32) (cmp : BitVec 8) (s : State),
    Starts h 0x0020 [(0x18, 8, bva.toNat), (0x20, 8, value.toNat), (0x28, 8, mask.toNat), (0x30, 4, timeout.toNat), (0x34, 1, cmp.toNat)] s →
    bva.toNat % 8 = 0 → timeout ≠ 0 → 1 ≤ cmp.toNat → cmp.toNat ≤ 8 →
    ∃ t, exec (.waitMem h bva value mask timeout cmp) s = .next t ∧ Runs h.key t ∧
      t.cex.waits = s.cex.waits ++ [{
        key := h.key, slice := hdrSlice h, kind := 1, a := bva.toNat, b := mask.toNat, c := value.toNat, cmp := cmp.toNat, since := s.now,
        limitUs := timeout.toNat, last := 0 }]) ∧
  (∀ (key : CmdKey) (word : BitVec 64) (w : WaitRec) (s : State), s.cex.waits.find? (fun w => w.key == key && w.kind == 1) = some w → Runs key s →
    ∃ t, exec (.waitMemPoll key none word) s = .next t ∧
      (waitHolds w.cmp (Nat.land word.toNat w.b) w.c = true → Ended key St.success word.toNat t ∧ ∀ v ∈ t.cex.waits, v.key ≠ key) ∧
      (waitHolds w.cmp (Nat.land word.toNat w.b) w.c = false → Runs key t ∧ { w with last := word } ∈ t.cex.waits)) ∧
  (∀ (h : CmdHdr) (value : BitVec 64) (counter : BitVec 8) (timeout : BitVec 32) (s : State),
    Starts h 0x0021 [(0x18, 8, value.toNat), (0x20, 1, counter.toNat), (0x30, 4, timeout.toNat)] s → Fresh h.key s → counter.toNat < 64 → timeout ≠ 0 →
    let y := s.cex.syncs.get (hdrSlice h * 64 + counter.toNat)
    ∃ t, exec (.waitSync h value counter timeout) s = .next t ∧
      (y.broken = true → Ended h.key St.brokenFence y.value.toNat t) ∧
      (y.broken = false → value.toNat ≤ y.value.toNat → Ended h.key St.success 0 t) ∧
      (y.broken = false → y.value.toNat < value.toNat → Runs h.key t ∧
        { key := h.key, slice := hdrSlice h, kind := 2, a := counter.toNat, b := value.toNat, c := 0, cmp := 0, since := s.now,
          limitUs := timeout.toNat, last := 0 } ∈ t.cex.waits)) ∧
  (∀ (key : CmdKey) (w : WaitRec) (s : State), s.cex.waits.find? (fun w => w.key == key) = some w → Runs key s →
    ∃ t, exec (.waitTimeout key) s = .next t ∧ Ended key St.timeout (if w.kind = 1 then w.last.toNat else 0) t ∧ ∀ v ∈ t.cex.waits, v.key ≠ key) ∧
  (∀ (h : CmdHdr) (epoch target timeout : BitVec 32) (s : State),
    Starts h 0x0032 [(0x18, 4, epoch.toNat), (0x1C, 4, target.toNat), (0x20, 4, timeout.toNat)] s → Fresh h.key s → timeout ≠ 0 →
    let i := target.toNat % 8192
    let p := s.link.pairs.get i
    let r := s.region i
    let ahead := ∃ x, ploughOf s i = some x ∧ x.state ≠ 4 ∧ x.epoch = epoch.toNat
    ∃ t, exec (.keyFence h epoch target timeout) s = .next t ∧
      (bit target.toNat 31 = true → p.valid = true → p.slice = hdrSlice h →
        (epoch.toNat ≤ p.epoch → EndsAtGate h.key (hdrSlice h) 0 s t) ∧
        (p.epoch < epoch.toNat → Runs h.key t ∧ ∃ w ∈ t.cex.waits, w.key = h.key ∧ w.kind = 4 ∧ w.a = i ∧ w.b = epoch.toNat ∧ w.limitUs = timeout.toNat)) ∧
      (bit target.toNat 31 = false → ownsRegionIx s (hdrSlice h) i = true → r.valid = true → r.slice = hdrSlice h →
        (r.epoch = epoch.toNat → r.state ≠ 2 ∨ ¬ahead → EndsAtGate h.key (hdrSlice h) 0 s t) ∧
        (r.epoch ≠ epoch.toNat ∨ r.state = 2 → ahead →
          Runs h.key t ∧ ∃ w ∈ t.cex.waits, w.key = h.key ∧ w.kind = 3 ∧ w.a = i ∧ w.b = epoch.toNat ∧ w.limitUs = timeout.toNat) ∧
        (r.epoch ≠ epoch.toNat → ¬ahead → Ended h.key St.keyNotInstalled 0 t)))

/-- FENCE_LOCAL completes once every earlier command of its queue has completed and the slice's gate is open, and signals its counter;
EGRESS_FENCE completes once the slice holds no TLP and the gate is open (R38, R286, R287, R346). GROUP_DEFINE sets the group's members
and collector (R348). -/
def Obligations.LocalFenceAndGroupCommandsComplete : Prop :=
  (∀ (h : CmdHdr) (value : BitVec 64) (counter opt : BitVec 8) (s : State),
    Starts h 0x0030 [(0x18, 8, value.toNat), (0x20, 1, counter.toNat), (0x21, 1, opt.toNat)] s → (bit opt.toNat 0 = true → counter.toNat < 64) →
    localReady (s.started h) h.key = true → gateOpen s (hdrSlice h) (gateSample s (hdrSlice h)) = true →
    s.cex.holds = [] → s.cex.waits = [] →
    ∃ t, exec (.fenceLocal h value counter opt) s = .next t ∧ Ended h.key St.success 0 t ∧ t.cex.holds = [] ∧
      (bit opt.toNat 0 = true → (t.cex.syncs.get (hdrSlice h * 64 + counter.toNat)).value = value ∧
        (t.cex.syncs.get (hdrSlice h * 64 + counter.toNat)).broken = false) ∧
      (bit opt.toNat 0 = false → t.cex.syncs = s.cex.syncs)) ∧
  (∀ (h : CmdHdr) (s : State), Starts h 0x0033 [] s → gateOpen s (hdrSlice h) (gateSample s (hdrSlice h)) = true →
    (∀ x ∈ s.link.egress, x.slice ≠ hdrSlice h) → s.cex.holds = [] →
    ∃ t, exec (.egressFence h) s = .next t ∧ Ended h.key St.success 0 t ∧ t.cex.holds = [] ∧ t.cex.syncs = s.cex.syncs) ∧
  (∀ (h : CmdHdr) (bva : BitVec 64) (group : BitVec 8) (collector : BitVec 16) (bitmap : BitVec 4096) (s : State),
    Starts h 0x0036 [(0x18, 8, bva.toNat), (0x20, 1, group.toNat), (0x22, 2, collector.toNat)] s → bva.toNat % 8 = 0 → 1 ≤ group.toNat →
    group.toNat < 64 → keyed s (hdrSlice h) = true → bit bitmap.toNat collector.toNat = true →
    ∃ t, exec (.groupDefine h bva group collector none bitmap) s = .next t ∧ Ended h.key St.success 0 t ∧
      t.group (hdrSlice h) group.toNat = { s.group (hdrSlice h) group.toNat with defined := true, members := bitmap, collector := collector.toNat })

/-- A domain fence of a group with other members takes the group's next DSEQ and waits under it, as long as no member has acknowledged that
DSEQ before (R347, R349); STEP_OPEN does so with the outcome that the state of its slice's window gives (R202), and STEP_CLOSE makes its slice's
window and its regions closing first (R203). Once the writes of the window are out, STEP_CLOSE has the outcome of its checks (R203). A collector
marks an ACK in the bitmap of its DSEQ while another member is missing (R349). The DONE of the one domain fence that waits completes it with the
status of its outcome, and opens or closes the window, once the gate is open (R202, R203, R286, R349). A member sends its ACK again when it is
asked, or its own timer expires, and a FENCE_MSG for another member goes on toward it (R348, R350). A collector counts one re-request for each
missing member (R350). The fence timeout aborts the domain with cause 6 (R133, R349). -/
def Obligations.DomainFenceCommandsComplete : Prop :=
  (∀ (h : CmdHdr) (group : BitVec 8) (m : Nat) (s : State), Starts h 0x0031 [(0x20, 1, group.toNat)] s → Fresh h.key s →
    let sl := hdrSlice h
    let g := group.toNat
    let x := s.group sl g
    g < 64 → keyed s sl = true → g = 0 ∨ x.defined = true → hasRoute s sl g = true →
    m < 4096 → m ≠ (s.domain sl).member → inGroup s sl g m = true →
    (∀ c ∈ x.colls, c.dseq ≠ x.dseq + 1) → (∀ c ∈ x.closed, c.1 ≠ x.dseq + 1) → (∀ v ∈ x.waits, v.dseq ≤ x.dseq) →
    ∃ t, exec (.fenceDomain h group) s = .next t ∧ Runs h.key t ∧ (t.group sl g).dseq = x.dseq + 1 ∧
      ∃ w ∈ (t.group sl g).waits, w.key = h.key ∧ w.dseq = x.dseq + 1 ∧ w.ftype = 1 ∧ w.outcome = 0 ∧ w.done = none) ∧
  (∀ (h : CmdHdr) (m : Nat) (s : State), Starts h 0x0034 [] s → Fresh h.key s →
    let sl := hdrSlice h
    let x := s.group sl 0
    keyed s sl = true → hasRoute s sl 0 = true → m < 4096 → m ≠ (s.domain sl).member → inGroup s sl 0 m = true →
    (∀ c ∈ x.colls, c.dseq ≠ x.dseq + 1) → (∀ c ∈ x.closed, c.1 ≠ x.dseq + 1) → (∀ v ∈ x.waits, v.dseq ≤ x.dseq) →
    ∃ t, exec (.stepOpen h) s = .next t ∧ Runs h.key t ∧ (t.group sl 0).dseq = x.dseq + 1 ∧
      ∃ w ∈ (t.group sl 0).waits, w.key = h.key ∧ w.dseq = x.dseq + 1 ∧ w.ftype = 2 ∧ w.outcome = (if s.mem.window.get sl = 0 then 0 else 1) ∧ w.done = none) ∧
  (∀ (h : CmdHdr) (s : State), Starts h 0x0035 [] s → Fresh h.key s →
    let sl := hdrSlice h
    let x := s.group sl 0
    keyed s sl = true → hasRoute s sl 0 = true → s.mem.window.get sl = 1 → (∀ i, (s.cex.groups.get i).waits = []) →
    ∃ t, exec (.stepClose h) s = .next t ∧ Runs h.key t ∧ t.mem.window.get sl = 2 ∧ t.mem.closeKey.get sl = some h.key ∧
      (∀ r ∈ closeRegions s sl, t.region r = { s.region r with closing := true }) ∧ (t.group sl 0).dseq = x.dseq + 1 ∧
      ∃ w ∈ (t.group sl 0).waits, w.key = h.key ∧ w.dseq = x.dseq + 1 ∧ w.ftype = 3 ∧ w.drained = false ∧ w.acked = false) ∧
  (∀ (slc : BitVec 4) (k : CmdKey) (s : State),
    let sl := slc.toNat
    s.mem.closeKey.get sl = some k → (closeRegions s sl).any (writesOut s) = false →
    ∃ t, exec (.stepCloseWritesDrained slc) s = .next t ∧ t.mem.closeKey.get sl = none ∧
      ∀ w ∈ (t.group sl 0).waits, w.key = k → w.drained = true ∧ w.outcome = closeOutcome s sl) ∧
  (∀ (slc : BitVec 4) (h : DomHdr) (origin : BitVec 12) (word : BitVec 64) (m : Nat) (s : State),
    let sl := slc.toNat
    let g := wordGroup word
    let n := wordDseq word
    let x := s.group sl g
    Arrived sl h 0x0102 (fenceBody origin.toNat (s.domain sl).member word.toNat) s → keyed s sl = true → wordKind word = 1 → g < 64 →
    collectorOf s sl g = (s.domain sl).member → (∀ c ∈ x.closed, c.1 ≠ n) → x.colls.length < 8 → (∀ c ∈ x.colls, c.dseq = n → c.ftype = wordType word) →
    m < 4096 → inGroup s sl g m = true → m ≠ origin.toNat → m ≠ (s.domain sl).member → (∀ c ∈ x.colls, c.dseq = n → bit c.bitmap m = false) →
    ∃ t, exec (.fenceAck slc h origin word) s = .next t ∧ (t.domain sl).seqIn.get h.sender.toNat = h.sequence.toNat ∧
      ∃ c ∈ (t.group sl g).colls, c.dseq = n ∧ c.ftype = wordType word ∧ bit c.bitmap origin.toNat = true ∧ bit c.bitmap m = false) ∧
  (∀ (slc : BitVec 4) (h : DomHdr) (word : BitVec 64) (w : FenceWait) (s : State),
    let sl := slc.toNat
    let g := wordGroup word
    let o := wordOutcome word
    Arrived sl h 0x0102 (fenceBody (collectorOf s sl g) (s.domain sl).member word.toNat) s → keyed s sl = true → wordKind word = 2 → g < 64 →
    (s.group sl g).waits = [w] → (∀ i, i ≠ sl * 64 + g → (s.cex.groups.get i).waits = []) → w.dseq = wordDseq word → w.ftype = wordType word →
    w.acked = true → w.done = none → w.doneSample = [] → Runs w.key s →
    ∃ t, exec (.fenceDone slc h word) s = .next t ∧ (t.domain sl).seqIn.get h.sender.toNat = h.sequence.toNat ∧
      (gateOpen s sl (gateSample s sl) = true → Ended w.key (outcomeStatus o) w.dseq t ∧ (t.group sl g).waits = [] ∧
        (w.ftype = 2 → o = 0 → t.mem.window.get sl = 1 ∧ ∀ r ∈ openRegions s sl, (t.region r).window = true ∧ (t.region r).phaseWrites = 0) ∧
        (w.ftype = 3 → o = 0 → t.mem.window.get sl = 0 ∧ ∀ r ∈ closeRegions s sl, (t.region r).window = false)) ∧
      (gateOpen s sl (gateSample s sl) = false → Runs w.key t ∧ (t.group sl g).waits = [{ w with done := some o, doneSample := gateSample s sl }])) ∧
  (∀ (slc : BitVec 4) (h : DomHdr) (word : BitVec 64) (w : FenceWait) (hop : Nat) (s : State),
    let sl := slc.toNat
    let g := wordGroup word
    let me := (s.domain sl).member
    Arrived sl h 0x0102 (fenceBody (collectorOf s sl g) me word.toNat) s → keyed s sl = true → wordKind word = 3 → g < 64 →
    (s.group sl g).waits.find? (fun w => w.dseq == wordDseq word && w.acked && w.done.isNone) = some w → collectorOf s sl g ≠ me →
    nextHop (s.domain sl) (collectorOf s sl g) = some hop →
    ∃ t, exec (.fenceResend slc h word) s = .next t ∧ (t.domain sl).seqIn.get h.sender.toNat = h.sequence.toNat ∧
      SendsMsg sl hop 0x0102 (fenceBody me (collectorOf s sl g) (fenceWord 1 w.ftype w.outcome g (wordDseq word))) s t) ∧
  (∀ (slc : BitVec 4) (h : DomHdr) (origin target : BitVec 16) (word : BitVec 64) (hop : Nat) (s : State),
    let sl := slc.toNat
    Arrived sl h 0x0102 (fenceBody origin.toNat target.toNat word.toNat) s → keyed s sl = true → target.toNat ≠ (s.domain sl).member →
    nextHop (s.domain sl) target.toNat = some hop →
    ∃ t, exec (.fenceMsgForward slc h origin target word) s = .next t ∧ (t.domain sl).seqIn.get h.sender.toNat = h.sequence.toNat ∧
      SendsMsg sl hop 0x0102 (fenceBody origin.toNat target.toNat word.toNat) s t) ∧
  (∀ (slc : BitVec 4) (group : BitVec 6) (dseq : BitVec 44) (c : FenceColl) (s : State),
    let sl := slc.toNat
    (s.group sl group.toNat).colls.find? (fun c => c.dseq == dseq.toNat) = some c →
    ∃ t, exec (.fenceRerequestExpiry slc group dseq true) s = .next t ∧ t.cex.rerequests.get sl = s.cex.rerequests.get sl +
      ((membersOf s sl group.toNat).filter (fun m => !bit c.bitmap m && m != (s.domain sl).member)).length) ∧
  (∀ (slc : BitVec 4) (group : BitVec 6) (dseq : BitVec 44) (w : FenceWait) (hop : Nat) (s : State),
    let sl := slc.toNat
    let g := group.toNat
    let me := (s.domain sl).member
    (s.group sl g).waits.find? (fun w => w.dseq == dseq.toNat && w.acked && w.done.isNone) = some w → collectorOf s sl g ≠ me →
    nextHop (s.domain sl) (collectorOf s sl g) = some hop →
    ∃ t, exec (.fenceRerequestExpiry slc group dseq false) s = .next t ∧
      SendsMsg sl hop 0x0102 (fenceBody me (collectorOf s sl g) (fenceWord 1 w.ftype w.outcome g dseq.toNat)) s t) ∧
  (∀ (key : CmdKey) (e : Nat × FenceGroup) (w : FenceWait) (s : State),
    s.cex.groups.ents.find? (fun e => e.2.waits.any (fun w => w.key == key && w.done.isNone)) = some e →
    e.2.waits.find? (fun w => w.key == key) = some w → keyed s (e.1 / 64) = true →
    ∃ t, exec (.domainFenceTimeout key) s = .next t ∧ (t.domain (e.1 / 64)).state = 0 ∧ (t.domain (e.1 / 64)).abortCause = 6 ∧
      (t.domain (e.1 / 64)).abortOrigin = (s.domain (e.1 / 64)).member ∧ (t.domain (e.1 / 64)).abortCount = (s.domain (e.1 / 64)).abortCount + 1)

/-- REGION_DEFINE makes the descriptor it names valid with the operands' values; a tree region or one to be zero-filled stays
INITIALIZING until REGION_ZERO_FILL_DONE, with no line of it left to write, ends its command; every other region becomes ACTIVE at once and
the command ends (R144-R147, R186). REGION_GRANT and REGION_REVOKE set and clear one grant bit (R151, R152). REGION_RETIRE leaves the region
RETIRING with the command waiting; REGION_DESCRIPTOR_FREED frees the descriptor and its key set and ends the commands that wait (R175). -/
def Obligations.RegionCommandsComplete : Prop :=
  (∀ (h : CmdHdr) (region ctrl : BitVec 16) (epoch : BitVec 32) (base metaBase mirrorBase : BitVec 40) (pages : BitVec 32)
      (keyData keyTweak keyTag crownFirst : BitVec 16) (s : State),
    Starts h 0x0100 [(0x18, 2, region.toNat), (0x1A, 2, ctrl.toNat), (0x1C, 4, epoch.toNat), (0x20, 5, base.toNat), (0x25, 5, metaBase.toNat),
      (0x2A, 5, mirrorBase.toNat), (0x30, 4, pages.toNat), (0x34, 2, keyData.toNat), (0x36, 2, keyTweak.toNat), (0x38, 2, keyTag.toNat),
      (0x3A, 2, crownFirst.toNat)] s →
    let mode := ctrl.toNat % 4
    let init := mode = 0 ∨ bit ctrl.toNat 5 = true
    let x : Region := {
      mode, tgc := if bit ctrl.toNat 2 then bit ctrl.toNat 3 else decide (mode < 2), sheaf := bit ctrl.toNat 4, slice := hdrSlice h, base := base.toNat,
      pages := pages.toNat, keyData := keyData.toNat, keyTweak := keyTweak.toNat, keyTag := keyTag.toNat,
      mirrorBase := if mode == 0 then mirrorBase.toNat else 0, metaBase := if mode == 0 then metaBase.toNat else 0,
      crownFirst := if mode == 0 then crownFirst.toNat else 0, epoch := epoch.toNat }
    Fresh h.key s → firstFail (defineChecks (s.started h) region.toNat x (bit ctrl.toNat 3)) = none →
    ∃ t, exec (.regionDefine h region ctrl epoch base metaBase mirrorBase pages keyData keyTweak keyTag crownFirst) s = .next t ∧
      (init → Runs h.key t ∧ t.region region.toNat = { x with valid := true, state := 0, epochAt := s.now, define := some h.key }) ∧
      (¬init → Ended h.key St.success 0 t ∧ t.region region.toNat = { x with valid := true, state := 1, epochAt := s.now }) ∧
      (∀ r, r ≠ region.toNat → t.region r = s.region r) ∧ t.mem.decodeLocked = true ∧
      (mode ≠ 3 → t.mem.mark.get region.toNat = some epoch.toNat)) ∧
  (∀ (region : BitVec 12) (k : CmdKey) (s : State), (s.region region.toNat).valid = true → (s.region region.toNat).state = 0 →
    (s.region region.toNat).define = some k → linesWait s region.toNat = false → Runs k s →
    ∃ t, exec (.regionZeroFillDone region) s = .next t ∧ Ended k St.success 0 t ∧
      t.region region.toNat = { s.region region.toNat with state := 1, define := none, epochAt := s.now }) ∧
  (∀ (h : CmdHdr) (region : BitVec 16) (s : State), Starts h 0x0101 [(0x18, 2, region.toNat)] s →
    firstFail (indexChecks (s.started h) (hdrSlice h) region.toNat ((s.q h.key).owner == 16)) = none →
    Fresh h.key s →
    let x := s.region region.toNat
    ∃ t, exec (.regionRetire h region) s = .next t ∧ Runs h.key t ∧
      (x.retire = [] → t.region region.toNat = { x with state := 5, retire := [h.key], define := none, importing := false }) ∧
      (x.retire ≠ [] → t.region region.toNat = { x with retire := x.retire ++ [h.key] })) ∧
  (∀ (region : BitVec 12) (s : State), (s.region region.toNat).valid = true → (s.region region.toNat).retire ≠ [] → regionBusy s region.toNat = false →
    ∃ t, exec (.regionDescriptorFreed region) s = .next t ∧ t.region region.toNat = {} ∧
      (∀ k ∈ (s.region region.toNat).retire, Runs k s → Ended k St.success 0 t) ∧ (∀ k ∈ t.engKeys, ¬(k.cls ∈ [1, 2, 3] ∧ k.index = region.toNat)) ∧
      (∀ r, r ≠ region.toNat → t.region r = s.region r) ∧ (∀ c ∈ t.mem.cache, c.region ≠ region.toNat)) ∧
  (∀ (h : CmdHdr) (region : BitVec 16) (grantee : BitVec 8) (s : State), Starts h 0x0102 [(0x18, 2, region.toNat), (0x1A, 1, grantee.toNat)] s →
    ownsRegionIx s (hdrSlice h) region.toNat = true → (s.region region.toNat).valid = true →
    grantee.toNat < 16 → grantee.toNat ≠ (s.region region.toNat).slice → (s.slice grantee.toNat).state ≠ 0 →
    bit (s.region region.toNat).grants grantee.toNat = true ∨
      ((s.region region.toNat).mode ≠ 3 ∧ ((s.region region.toNat).state = 1 ∨ (s.region region.toNat).state = 2)) →
    ∃ t, exec (.regionGrant h region grantee) s = .next t ∧ Ended h.key St.success 0 t ∧
      t.region region.toNat = { s.region region.toNat with grants := setBit (s.region region.toNat).grants grantee.toNat } ∧
      (∀ r, r ≠ region.toNat → t.region r = s.region r)) ∧
  (∀ (h : CmdHdr) (region : BitVec 16) (grantee : BitVec 8) (s : State), Starts h 0x0103 [(0x18, 2, region.toNat), (0x1A, 1, grantee.toNat)] s →
    ownsRegionIx s (hdrSlice h) region.toNat = true → (s.region region.toNat).valid = true → grantee.toNat < 16 →
    ∃ t, exec (.regionRevoke h region grantee) s = .next t ∧ Ended h.key St.success 0 t ∧
      t.region region.toNat = { s.region region.toNat with grants := clrBit (s.region region.toNat).grants grantee.toNat } ∧
      (∀ r, r ≠ region.toNat → t.region r = s.region r))

/-- FALLOW_READ sends the 256 entries of 32 bytes to the host's table set and answers how many are in use; PAGE_RETIRE frees an entry,
and with CLEAR_FULL clears the list-full state (R252, R255, R256). SAVE_BEGIN takes the region's sequence number as the phase's and answers
it; SAVE_END waits for the writes that were accepted, then seals a save whose declared lines were written and otherwise answers
SAVE_INCOMPLETE; SAVE_DISCARD empties it (R209-R212). -/
def Obligations.FallowAndSaveCommandsComplete : Prop :=
  (∀ (h : CmdHdr) (bva : BitVec 64) (s : State), Starts h 0x0104 [(0x18, 8, bva.toNat)] s → bva.toNat % 8 = 0 →
    let es := (List.range 256).map s.mem.fallow.get
    ∃ t, exec (.fallowRead h bva none) s = .next t ∧ Ended h.key St.success ((es.filter (fun f => f.state != 0)).length) t ∧
      t.out = s.out ++ [.dma 16 bva.toNat ((es.map Fallow.bytes).flatten)]) ∧
  (∀ (h : CmdHdr) (entry opt : BitVec 8) (s : State), Starts h 0x0105 [(0x18, 1, entry.toNat), (0x19, 1, opt.toNat)] s →
    (s.mem.fallow.get entry.toNat).state ≠ 1 → (s.mem.fallow.get entry.toNat).state = 2 ∨ bit opt.toNat 0 = true →
    ∃ t, exec (.pageRetire h entry opt) s = .next t ∧ Ended h.key St.success 0 t ∧ t.mem.fallow.get entry.toNat = {} ∧
      (∀ i, i ≠ entry.toNat → t.mem.fallow.get i = s.mem.fallow.get i) ∧ t.mem.fallowOver = (s.mem.fallowOver && !bit opt.toNat 0)) ∧
  (∀ (h : CmdHdr) (region : BitVec 16) (first count : BitVec 64) (s : State),
    Starts h 0x0110 [(0x18, 2, region.toNat), (0x20, 8, first.toNat), (0x28, 8, count.toNat)] s →
    ownsRegionIx s (hdrSlice h) region.toNat = true → (s.region region.toNat).valid = true →
    (s.region region.toNat).mode = 2 → (s.region region.toNat).state = 1 → (s.region region.toNat).save ≠ 1 → 1 ≤ count.toNat →
    first.toNat + count.toNat ≤ (s.region region.toNat).lines → (s.region region.toNat).stepOrSeq ≠ 2 ^ 48 - 1 →
    ∃ t, exec (.saveBegin h region first count) s = .next t ∧ Ended h.key St.success (s.region region.toNat).stepOrSeq t ∧
      t.region region.toNat = { s.region region.toNat with
        saveSeq := (s.region region.toNat).stepOrSeq, stepOrSeq := (s.region region.toNat).stepOrSeq + 1, phaseWrites := 0, save := 1,
        saveFirst := first.toNat, saveCount := count.toNat } ∧ (∀ r, r ≠ region.toNat → t.region r = s.region r)) ∧
  (∀ (h : CmdHdr) (region : BitVec 16) (s : State), Starts h 0x0111 [(0x18, 2, region.toNat)] s →
    let r := region.toNat
    let x := s.region r
    ownsRegionIx s (hdrSlice h) r = true → x.valid = true → x.mode = 2 → x.save = 1 → x.ending = none →
    ∃ t, exec (.saveEnd h region) s = .next t ∧
      (writesOut s r = true → Runs h.key t ∧ t.region r = { x with ending := some h.key }) ∧
      (writesOut s r = false → x.phaseWrites < x.saveCount → Ended h.key St.saveIncomplete 0 t ∧ t.region r = x) ∧
      (writesOut s r = false → x.saveCount ≤ x.phaseWrites → Ended h.key St.success 0 t ∧ t.region r = { x with save := 2 }) ∧
      (∀ i, i ≠ r → t.region i = s.region i)) ∧
  (∀ (h : CmdHdr) (region : BitVec 16) (s : State), Starts h 0x0112 [(0x18, 2, region.toNat)] s →
    ownsRegionIx s (hdrSlice h) region.toNat = true → (s.region region.toNat).valid = true → (s.region region.toNat).mode = 2 →
    ∃ t, exec (.saveDiscard h region) s = .next t ∧ Ended h.key St.success 0 t ∧
      t.region region.toNat = { s.region region.toNat with save := 0, saveFirst := 0, saveCount := 0 })

/-- PLOUGH takes its epoch as the region's mark, loads the three next keys in a free set and leaves the region PLOUGHING under a running
plough; PLOUGH on a paused plough of the same epoch and slots resumes it (R219, R220). A line move takes the line's lock, opens the counter lines
over it in a tree region, and queues its read under the old epoch; when that read has come back and one of its candidates verifies, the line goes
to its stack under the new epoch, with the next count of its new counter in a tree region and the version less B in any other, and counts as
moved (R222, R224, R225). Completion gives the region the new epoch and slots and
its step number less B, zeroizes the old slots and ends the commands (R234). A pause ends the commands where a context kill makes it, and posts
event 0x8022 once the plough holds no line (R232). An aged epoch posts 0x8020 (R217). -/
def Obligations.PloughCommandsComplete : Prop :=
  (∀ (h : CmdHdr) (region : BitVec 16) (epoch : BitVec 32) (nextData nextTweak nextTag : BitVec 16) (s : State),
    Starts h 0x0120 [(0x18, 2, region.toNat), (0x1C, 4, epoch.toNat), (0x20, 2, nextData.toNat), (0x22, 2, nextTweak.toNat), (0x24, 2, nextTag.toNat)] s →
    firstFail (ploughChecks (s.started h) (hdrSlice h) region.toNat epoch.toNat nextData.toNat nextTweak.toNat nextTag.toNat) = none →
    ploughOf s region.toNat = none →
    ∃ t p, exec (.plough h region epoch nextData nextTweak nextTag) s = .next t ∧ Runs h.key t ∧
      (t.region region.toNat).state = 2 ∧ (t.region region.toNat).nextData = nextData.toNat ∧ (t.region region.toNat).nextTweak = nextTweak.toNat ∧
      (t.region region.toNat).nextTag = nextTag.toNat ∧ (t.region region.toNat).epoch = (s.region region.toNat).epoch ∧
      t.mem.mark.get region.toNat = some epoch.toNat ∧ ploughOf t region.toNat = some p ∧ p.state = 1 ∧ p.epoch = epoch.toNat ∧ p.keys = [h.key] ∧
      p.base = ploughBase (s.region region.toNat) ∧ (∀ q ∈ s.mem.ploughs, q.set ≠ p.set)) ∧
  (∀ (h : CmdHdr) (region : BitVec 16) (epoch : BitVec 32) (nextData nextTweak nextTag : BitVec 16) (p : Plough) (s : State),
    Starts h 0x0120 [(0x18, 2, region.toNat), (0x1C, 4, epoch.toNat), (0x20, 2, nextData.toNat), (0x22, 2, nextTweak.toNat), (0x24, 2, nextTag.toNat)] s →
    resumes s (hdrSlice h) region.toNat epoch.toNat nextData.toNat nextTweak.toNat nextTag.toNat = true → ploughOf s region.toNat = some p →
    ∃ t, exec (.plough h region epoch nextData nextTweak nextTag) s = .next t ∧ Runs h.key t ∧
      ploughOf t region.toNat = some { p with state := 1, cause := 0, told := false, keys := p.keys ++ [h.key], ctx := h.ctx.toNat }) ∧
  (∀ (region : BitVec 12) (line : BitVec 33) (read : LineRead) (p : Plough) (cands : List Nat) (s : State),
    let r := region.toNat
    let n := line.toNat
    let x := s.region r
    let ln := x.firstLn + n
    let e := stackOf s ln
    ploughOf s r = some p → x.mode ≤ 2 → ploughWorks s p n = true → mayMove s p x r n = true → isFallow s ln = false →
    (x.mode = 0 → countersReady s p r n = true) → oldVersions s x r n = some cands →
    (∀ y ∈ s.mem.reads, y.seq ≠ s.mem.seqCtr ∧ (y.region = r → y.purpose ≠ .plough ∧ y.purpose.isChild = false)) →
    ∃ t q y, exec (.ploughLineMove region line read) s = .next t ∧ ploughOf t r = some q ∧ q.lf = p.lf ∧ q.locked = p.locked ++ [n] ∧
      q.moved = p.moved ∧ (x.mode = 0 → ∀ l ∈ [1, 2, 3], lineOpened q l (n / 128 ^ l) = true) ∧ (x.mode ≠ 0 → q.old = p.old) ∧
      t.mem.reads = s.mem.reads ++ [y] ∧ y.seq = s.mem.seqCtr ∧ y.purpose = .plough ∧ y.region = r ∧ y.level = 0 ∧ y.idx = n ∧ y.ln = ln ∧
      y.engine = e ∧ y.newer = false ∧ y.cands = some cands ∧ y.stage = .queued ∧
      t.mem.lines.get e = s.mem.lines.get e ++ [{ who := x.slice, plough := true, region := r, ln, op := .read s.mem.seqCtr }]) ∧
  (∀ (region : BitVec 12) (line : BitVec 33) (read : LineRead) (p : Plough) (y : MemRead) (cands : List Nat) (v : Nat) (s : State),
    let r := region.toNat
    let n := line.toNat
    let x := s.region r
    let ln := x.firstLn + n
    let e := stackOf s ln
    let w := read.word
    ploughOf s r = some p → x.mode ≤ 2 → s.mem.reads = [y] → y.purpose = .plough → y.region = r → y.idx = n → y.level = 0 → y.ln = ln →
    y.stage = .asked → y.newer = false → y.cands = some cands → suspectPc s y.engine read.pc.toNat = false → w.status.toNat < 2 →
    checkTag s r false ln x.mode cands w.cipher w.tag = some v →
    let v' := if x.mode = 0 then (match cached s r 1 (n / 128) with | some k => k.ver (n % 128) + 1 | none => 1) else v - p.base
    let c := protect s r true ln x.mode v' (reveal s r false ln x.mode v w.cipher)
    ∃ t, exec (.ploughLineMove region line read) s = .next t ∧ t.mem.reads = [] ∧ t.mem.linesMoved = s.mem.linesMoved + 1 ∧
      t.mem.lines.get e = s.mem.lines.get e ++ [{ who := x.slice, plough := true, region := r, ln, op := .write c.1 c.2 }] ∧
      ∃ q, ploughOf t r = some q ∧ lineMoved q n = true ∧ n ∉ q.locked) ∧
  (∀ (region : BitVec 12) (p : Plough) (s : State),
    let r := region.toNat
    let x := s.region r
    let b := if x.mode = 0 then 0 else p.base
    ploughOf s r = some p → x.state = 2 → p.state = 1 → p.lf = x.lines → p.locked = [] → p.moved = [] → s.kst.dflt = {} →
    (∀ y ∈ s.mem.reads, y.region ≠ r) →
    ∃ t, exec (.ploughComplete region) s = .next t ∧ ploughOf t r = none ∧ t.mem.ploughsDone = s.mem.ploughsDone + 1 ∧
      t.region r = { x with
        epoch := p.epoch, keyData := x.nextData, keyTweak := x.nextTweak, keyTag := x.nextTag, nextData := 0, nextTweak := 0, nextTag := 0,
        furrow := 0, state := 1, epochAt := s.now, agesRaised := 0, exhausted := false, stepOrSeq := x.stepOrSeq - b,
        saveSeq := if x.mode = 2 ∧ x.save = 2 then x.saveSeq - b else x.saveSeq } ∧
      (∀ n ∈ [x.keyData, x.keyTweak, x.keyTag], t.slot n = {}) ∧
      ∀ k ∈ p.keys, Runs k s → Ended k St.success 0 t) ∧
  (∀ (region : BitVec 12) (cause : BitVec 4) (p : Plough) (s : State), ploughOf s region.toNat = some p → p.state = 1 → cause.toNat ∈ [1, 2, 3] →
    let q := { p with state := 2, cause := cause.toNat, keys := if cause.toNat = 1 then [] else p.keys }
    ∃ t, exec (.ploughPause region cause) s = .next t ∧ t.region region.toNat = s.region region.toNat ∧
      (cause.toNat = 1 → ∀ k ∈ p.keys, Runs k s → Ended k St.contextKilled 0 t) ∧
      (p.locked = [] → p.moved = [] → ploughOf t region.toNat = some { q with told := true } ∧
        Posts (s.region region.toNat).slice [eventOf [(s.region region.toNat).slice] 6 0x8022 (region.toNat + cause.toNat * 4096) s.now] s t) ∧
      (p.locked ≠ [] ∨ p.moved ≠ [] → ploughOf t region.toNat = some { q with told := false } ∧ t.cex.rings = s.cex.rings)) ∧
  (∀ (region : BitVec 12) (s : State), (s.region region.toNat).valid = true → (s.region region.toNat).mode ≠ 3 →
    s.mem.ageLimit.get (s.region region.toNat).slice ≠ 0 → (s.region region.toNat).state = 1 ∨ (s.region region.toNat).state = 2 →
    let x := s.region region.toNat
    let limit := s.mem.ageLimit.get x.slice
    let age := max ((s.now - x.epochAt) / 1000000000) ((x.agesRaised + 1) * limit)
    ∃ t, exec (.epochAged region) s = .next t ∧ t.region region.toNat = { x with agesRaised := age / limit } ∧
      Posts x.slice [eventOf [x.slice] 6 0x8020 (region.toNat + (age % 2 ^ 32) * 2 ^ 32) s.now] s t)

/-- KEY_DERIVE writes the key that KMAC256 derives from its source under the label's string, with the class of the label, into the
destination slot; KEY_GENERATE writes a key that the reseeded DRBG gives; KEY_WRAP sends a KEY blob, under a wrapping slot or a recipient's
public keys, and answers its length; KEY_UNWRAP, under either, writes the key that a blob holds or answers the status of the first check that
fails; KEY_ZEROIZE returns the slot to its reset value and clears every engine register loaded from it (R61, R63, R66, R70, R73-R77, R372). -/
def Obligations.KeyStoreCommandsComplete : Prop :=
  (∀ (h : CmdHdr) (src dst : BitVec 16) (label opt : BitVec 8) (region : BitVec 16) (id : BitVec 32) (s : State),
    Starts h 0x0200 [(0x18, 2, src.toNat), (0x1A, 2, dst.toNat), (0x1C, 1, label.toNat), (0x1D, 1, opt.toNat), (0x1E, 2, region.toNat),
      (0x20, 4, id.toNat)] s → label.toNat ∈ [1, 2, 3, 4] → label.toNat = 4 ∨ region.toNat < 4096 → bit opt.toNat 0 = false →
    firstFail (srcChecks (s.started h) (hdrSlice h) src.toNat Slot.drv) = none → firstFail (dstChecks (s.started h) (hdrSlice h) dst.toNat) = none →
    kweRuns s = true →
    ∃ t, exec (.keyDerive h src dst label opt region id) s = .next t ∧ Ended h.key St.success 0 t ∧
      t.slot dst.toNat = {
        key := Config.kmac256 (keyBytes (s.slot src.toNat).key) (ascii (deriveLabel label.toNat))
          (if label.toNat = 4 then leBytes 4 id.toNat else leBytes 2 region.toNat ++ leBytes 4 id.toNat),
        attr := attrWord 56 (if label.toNat = 4 then 6 else label.toNat) (hdrSlice h) (if label.toNat = 3 then 3 else 1) 1 false false false,
        binding := bindWord h.ctx.toNat (if label.toNat = 4 then 0xFFFF else region.toNat) id.toNat, wrapId := 0 } ∧
      (∀ n, n ≠ dst.toNat → t.slot n = s.slot n)) ∧
  (∀ (h : CmdHdr) (dst : BitVec 16) (usage opt type : BitVec 8) (wrapIdBva : BitVec 64) (wrapId : BitVec 128) (s : State),
    Starts h 0x0201 [(0x18, 2, dst.toNat), (0x1A, 1, usage.toNat), (0x1B, 1, opt.toNat), (0x1C, 1, type.toNat), (0x20, 8, wrapIdBva.toNat)] s →
    usage.toNat ∈ [1, 2, 3, 4] → type.toNat ∈ [1, 2, 3, 4] → wrapIdBva.toNat % 8 = 0 →
    firstFail (dstChecks (s.started h) (hdrSlice h) dst.toNat) = none → entOk s = true → kweRuns s = true →
    ∃ t, exec (.keyGenerate h dst usage opt type wrapIdBva none wrapId) s = .next t ∧ Ended h.key St.success 0 t ∧
      t.slot dst.toNat = {
        key := (keyBits 256 (s.started h)).1,
        attr := attrWord (usageBit usage.toNat) 0 (hdrSlice h) type.toNat 3 (bit opt.toNat 0) (bit opt.toNat 1) false,
        binding := bindWord h.ctx.toNat 0xFFFF 0, wrapId := if wrapIdBva = 0 then 0 else wrapId } ∧
      (∀ n, n ≠ dst.toNat → t.slot n = s.slot n)) ∧
  (∀ (h : CmdHdr) (src wrapSlot : BitVec 16) (method : BitVec 8) (out rcptBva sequence : BitVec 64) (rcpt : Bytes) (s : State),
    Starts h 0x0202 [(0x18, 2, src.toNat), (0x1A, 2, wrapSlot.toNat), (0x1C, 1, method.toNat), (0x20, 8, out.toNat), (0x28, 8, rcptBva.toNat),
      (0x30, 8, sequence.toNat)] s →
    let sl := hdrSlice h
    let m := method.toNat
    let k := s.slot src.toNat
    m = 1 ∨ m = 2 → out.toNat % 8 = 0 → (m = 2 → rcptBva.toNat % 8 = 0) →
    firstFail (srcChecks (s.started h) sl src.toNat Slot.exportable ++ wrapChecks (s.started h) sl m wrapSlot.toNat) = none → kweRuns s = true →
    let n := drbgBits 64 (s.started h)
    let b : BlobHdr := {
      kind := kindKey, method := m, domain := blobDomain s sl,
      wrapId := if m = 1 then (s.slot wrapSlot.toNat).wrapId else recipientId (fit 1665 rcpt), len := 32, log2 := 0, attr := blobAttr k,
      sequence := sequence.toNat, nonce := n.1, bound := 0 }
    ∃ t, exec (.keyWrap h src wrapSlot method out rcptBva sequence none rcpt) s = .next t ∧ t.kst = s.kst ∧
      match (if m = 1 then some (sealSym (s.slot wrapSlot.toNat).key b (keyBytes k.key)) else (sealHybrid rcpt b (keyBytes k.key) n.2).1) with
      | some blob => Ended h.key St.success blob.length t ∧ t.out = s.out ++ [.dma (tableSet s h.ctx.toNat) out.toNat blob]
      | none => Ended h.key St.invalidOperand 0 t ∧ t.out = s.out) ∧
  (∀ (h : CmdHdr) (dst wrapSlot : BitVec 16) (opt : BitVec 8) (blobBva wrapIdBva : BitVec 64) (blob : Bytes) (wrapId : BitVec 128) (s : State),
    Starts h 0x0203 [(0x18, 2, dst.toNat), (0x1A, 2, wrapSlot.toNat), (0x1C, 1, opt.toNat), (0x20, 8, blobBva.toNat), (0x28, 8, wrapIdBva.toNat)] s →
    let sl := hdrSlice h
    let w := if wrapSlot = 0xFFFF then none else some wrapSlot.toNat
    let a := field blob 0x30 8
    blobBva.toNat % 8 = 0 → wrapIdBva.toNat % 8 = 0 → firstFail (dstChecks (s.started h) sl dst.toNat) = none →
    (∀ n, w = some n → firstFail (srcChecks (s.started h) sl n Slot.wraps) = none) → (w = none → pkeRuns s = true) → kweRuns s = true →
    ∃ t, exec (.keyUnwrap h dst wrapSlot opt blobBva wrapIdBva none blob wrapId) s = .next t ∧ (∀ n, n ≠ dst.toNat → t.slot n = s.slot n) ∧
      match checkBlob (s.started h) sl blob [kindKey] blob.length w (2 + sl) with
      | .error e => Ended h.key e 0 t ∧ t.kst = s.kst
      | .ok bk =>
        if (openBlob bk blob).2 = false then Ended h.key St.tagFailure 0 t ∧ t.kst = s.kst
        else if usageOk a = false then Ended h.key St.usageViolation 0 t ∧ t.kst = s.kst
        else Ended h.key St.success 0 t ∧ t.slot dst.toNat = {
          key := BitVec.ofNat 256 (leNat (openBlob bk blob).1),
          attr := BitVec.ofNat 64 (2 ^ 63 + b2n (bit a 61 || bit opt.toNat 0) * 2 ^ 61 + b2n (bit a 60) * 2 ^ 60 + bits a 56 48 * 2 ^ 48 +
            sl * 2 ^ 40 + bits a 39 36 * 2 ^ 36 + 2 * 2 ^ 32),
          binding := bindWord h.ctx.toNat 0xFFFF 0, wrapId := if wrapIdBva = 0 then 0 else wrapId }) ∧
  (∀ (h : CmdHdr) (slot : BitVec 16) (s : State), Starts h 0x0204 [(0x18, 2, slot.toNat)] s → ownsSlot s (hdrSlice h) slot.toNat = true →
    slotInUse s slot.toNat = false → s.kst.dflt = {} →
    ∃ t, exec (.keyZeroize h slot) s = .next t ∧ Ended h.key St.success 0 t ∧ t.slot slot.toNat = {} ∧
      (∀ n, n ≠ slot.toNat → t.slot n = s.slot n) ∧
      (s.slot slot.toNat ≠ {} → ∀ k ∈ t.engKeys, k.slot ≠ some slot.toNat))

/-- CIPHER_ENCRYPT sends the ciphertext with its tag and the IV it drew; CIPHER_DECRYPT sends the plaintext of a ciphertext whose tag
verifies and otherwise answers TAG_FAILURE and sends nothing; PK_HASH sends the digest; PK_VERIFY answers SUCCESS for a signature that
verifies and BAD_SIGNATURE for one that does not (R70, R86, R87, R372). -/
def Obligations.CipherAndPublicKeyCommandsComplete : Prop :=
  (∀ (h : CmdHdr) (slot len aadLen : BitVec 16) (src dst ivBva : BitVec 64) (data : Bytes) (s : State),
    Starts h 0x0210 (cipherOps slot len aadLen src dst ivBva) s → cipherRange len aadLen src dst ivBva = true →
    firstFail (srcChecks (s.started h) (hdrSlice h) slot.toNat Slot.enc) = none → kweRuns s = true →
    let iv := Config.free 96 s.free
    let c := Config.gcmCrypt (s.slot slot.toNat).key iv (slice data aadLen.toNat len.toNat)
    let t96 := Config.gcmTag (s.slot slot.toNat).key iv (slice data 0 aadLen.toNat) c
    ∃ t, exec (.cipherEncrypt h slot len aadLen src dst ivBva none data) s = .next t ∧ Ended h.key St.success 0 t ∧
      t.out = s.out ++ [.dma (tableSet s h.ctx.toNat) dst.toNat (c ++ leBytes 16 t96.toNat),
        .dma (tableSet s h.ctx.toNat) ivBva.toNat (leBytes 12 iv.toNat)] ∧ t.kst = s.kst) ∧
  (∀ (h : CmdHdr) (slot len aadLen : BitVec 16) (src dst ivBva : BitVec 64) (data : Bytes) (iv : BitVec 96) (s : State),
    Starts h 0x0211 (cipherOps slot len aadLen src dst ivBva) s → cipherRange len aadLen src dst ivBva = true →
    firstFail (srcChecks (s.started h) (hdrSlice h) slot.toNat Slot.dec) = none → kweRuns s = true →
    let k := (s.slot slot.toNat).key
    let c := slice data aadLen.toNat len.toNat
    let good := (Config.gcmTag k iv (slice data 0 aadLen.toNat) c).toNat = field data (aadLen.toNat + len.toNat) 16
    ∃ t, exec (.cipherDecrypt h slot len aadLen src dst ivBva none data iv) s = .next t ∧
      (good → Ended h.key St.success 0 t ∧ t.out = s.out ++ [.dma (tableSet s h.ctx.toNat) dst.toNat (Config.gcmCrypt k iv c)]) ∧
      (¬good → Ended h.key St.tagFailure 0 t ∧ t.out = s.out)) ∧
  (∀ (h : CmdHdr) (src len dst : BitVec 64) (alg : BitVec 8) (outLen : BitVec 16) (data : Bytes) (s : State),
    Starts h 0x0220 [(0x18, 8, src.toNat), (0x20, 8, len.toNat), (0x28, 8, dst.toNat), (0x30, 1, alg.toNat), (0x32, 2, outLen.toNat)] s →
    alg.toNat ∈ [1, 2, 3, 4] → (alg.toNat ≠ 4 → outLen.toNat = 0) → (alg.toNat = 4 → 1 ≤ outLen.toNat ∧ outLen.toNat ≤ 512) →
    src.toNat % 8 = 0 → dst.toNat % 8 = 0 → len.toNat ≤ 2 ^ 24 → pkeRuns s = true →
    ∃ t, exec (.pkHash h src len dst alg outLen none data) s = .next t ∧ Ended h.key St.success 0 t ∧
      t.out = s.out ++ [.dma (tableSet s h.ctx.toNat) dst.toNat (hashOf alg.toNat outLen.toNat (fit len.toNat data))]) ∧
  (∀ (h : CmdHdr) (keyBva msgBva sigBva : BitVec 64) (msgLen : BitVec 32) (alg ctxLen : BitVec 8) (key msg sig : Bytes) (s : State),
    Starts h 0x0221 [(0x18, 8, keyBva.toNat), (0x20, 8, msgBva.toNat), (0x28, 8, sigBva.toNat), (0x30, 4, msgLen.toNat), (0x34, 1, alg.toNat),
      (0x35, 1, ctxLen.toNat)] s → alg.toNat ∈ [1, 2, 3] → keyBva.toNat % 8 = 0 → msgBva.toNat % 8 = 0 → sigBva.toNat % 8 = 0 →
    msgLen.toNat ≤ 65536 → pkeRuns s = true →
    ∃ t, exec (.pkVerify h keyBva msgBva sigBva msgLen alg ctxLen none key msg sig) s = .next t ∧ t.out = s.out ∧
      Ended h.key (if pkVerify alg.toNat key (slice msg 0 ctxLen.toNat) (slice msg ctxLen.toNat msgLen.toNat) sig then St.success else St.badSignature) 0 t)

/-- A request finds the key-work engine idle and starts, or is refused when a check fails; while another runs it waits behind it.
KWE_COMPLETE gives the result of its operation: the derived, loaded, generated or unwrapped key at its destination, a blob, a ciphertext or a
plaintext as data, the zeroized slot; the request of a slot that was zeroized meanwhile gives nothing; the engine then takes the next
(R62, R64, R69, R70, R72). PKE_COMPLETE charges the operation and takes its work out of the store (R86, R421, R423). A health failure counts,
opens a retry wait and, as the third within a second, ends in FAILED; the wait and the start-up tests lead back to OK, with an instantiated
DRBG; a reseed is run only while the source is OK (R80, R81). -/
def Obligations.KeyWorkAndEntropyEventsComplete : Prop :=
  (∀ (who : BitVec 5) (op : KweOp) (src : BitVec 11) (dst : KweDst) (ctx : BitVec 16) (s : State), s.kwe.queue.length < 256 →
    let r : KweReq := { who := min 16 who.toNat, op, src := src.toNat, dst, ctx := ctx.toNat, dead := false }
    ∃ t, exec (.kweRequest who op src dst ctx) s = .next t ∧
      (s.kwe.current ≠ none → t.kwe.current = s.kwe.current ∧ t.kwe.queue = s.kwe.queue ++ [r] ∧ t.out = s.out) ∧
      (s.kwe.current = none → s.kwe.queue = [] → t.kwe.queue = [] ∧
        match kweRefusal s r.who op r.src dst with
        | some x => t.kwe.refused = s.kwe.refused + 1 ∧ t.kwe.current = none ∧ t.out = s.out ++ [.kwe r.who x.1 []]
        | none => t.kwe.current = some r ∧ t.out = s.out)) ∧
  (∀ (ns : BitVec 32) (r : KweReq) (s : State), s.kwe.current = some r → r.dead = false → s.kwe.queue = [] → s.cex.kills = [] → s.kst.dflt = {} →
    (∀ n a b, r.dst = .slot n a b → (s.slot n.toNat).valid = false) →
    let k := (s.slot r.src).key
    ∃ t, exec (.kweComplete ns) s = .next t ∧ t.kwe.current = none ∧ t.kwe.completed = s.kwe.completed + 1 ∧
      match r.op with
      | .derive l c =>
        (∃ o, t.out = s.out ++ o ++ [.kwe r.who St.success []]) ∧
        (∀ n a b, r.dst = .slot n a b →
          t.slot n.toNat = { key := Config.kmac256 (keyBytes k) l c, attr := kweAttr r a.toNat, binding := bindWord 0 (bits b.toNat 47 32) (bits b.toNat 31 0), wrapId := 0 }) ∧
        (∀ c' i, r.dst = .engine c' i → engKey t c'.toNat i.toNat = Config.kmac256 (keyBytes k) l c)
      | .load => (∃ o, t.out = s.out ++ o ++ [.kwe r.who St.success []]) ∧ ∀ c i, r.dst = .engine c i → engKey t c.toNat i.toNat = k
      | .generate =>
        (∃ o, t.out = s.out ++ o ++ [.kwe r.who St.success []]) ∧
        ∀ n a b, r.dst = .slot n a b →
          t.slot n.toNat = { key := (keyBits 256 s).1, attr := kweAttr r a.toNat, binding := bindWord 0 (bits b.toNat 47 32) (bits b.toNat 31 0), wrapId := 0 }
      | .zeroize => (∃ o, t.out = s.out ++ o ++ [.kwe r.who St.success []]) ∧ ∀ n, t.slot n = if n = r.src then {} else s.slot n
      | .encrypt iv aad p =>
        let c := Config.gcmCrypt k iv p
        (∃ o, t.out = s.out ++ o ++ [.kwe r.who St.success (c ++ leBytes 16 (Config.gcmTag k iv aad c).toNat)]) ∧ t.kst = s.kst
      | .decrypt iv aad c tag =>
        (∃ o, t.out = s.out ++ o ++ [if Config.gcmTag k iv aad c = tag then .kwe r.who St.success (Config.gcmCrypt k iv c) else .kwe r.who St.tagFailure []]) ∧
        t.kst = s.kst
      | .wrap n q => (∃ o, t.out = s.out ++ o ++ [.kwe r.who St.success (wrapSlotBlob r.who r.src n.toNat q.toNat s).1]) ∧ t.kst = s.kst
      | .unwrap b =>
        match checkBlob s r.who b [kindKey] b.length (some r.src) 0 with
        | .error e => (∃ o, t.out = s.out ++ o ++ [.kwe r.who e []]) ∧ t.kst = s.kst
        | .ok bk =>
          let p := openBlob bk b
          (p.2 = false → (∃ o, t.out = s.out ++ o ++ [.kwe r.who St.tagFailure []]) ∧ t.kst = s.kst) ∧
          (p.2 = true → usageOk (field b 0x30 8) = false → (∃ o, t.out = s.out ++ o ++ [.kwe r.who St.usageViolation []]) ∧ t.kst = s.kst) ∧
          (p.2 = true → usageOk (field b 0x30 8) = true → (∃ o, t.out = s.out ++ o ++ [.kwe r.who St.success []]) ∧
            ∀ n a c, r.dst = .slot n a c → (t.slot n.toNat).key = BitVec.ofNat 256 (leNat p.1) ∧
              (t.slot n.toNat).attr = unwrapAttr (field b 0x30 8) r.who false (decide (16 ≤ r.who)))) ∧
  (∀ (ns : BitVec 32) (r : KweReq) (s : State), s.kwe.current = some r → r.dead = true → s.kwe.queue = [] → s.cex.kills = [] →
    ∃ t, exec (.kweComplete ns) s = .next t ∧ t.kwe.current = none ∧ t.kst = s.kst ∧ t.engKeys = s.engKeys ∧
      ∃ o, t.out = s.out ++ o ++ [.kwe r.who St.keyZeroized []]) ∧
  (∀ (ns : BitVec 32) (r q : KweReq) (s : State), s.kwe.current = some r → r.dead = true → s.kwe.queue = [q] → s.cex.kills = [] → kweStop s q = none →
    s.kwe.sinceReseed < 2047 →
    ∃ t, exec (.kweComplete ns) s = .next t ∧ t.kwe.current = some q ∧ t.kwe.queue = []) ∧
  (∀ (unit : BitVec 2) (who : BitVec 5) (ns : BitVec 32) (s : State),
    ∃ t, exec (.pkeComplete unit who ns) s = .next t ∧ t.srg.store = s.srg.store.erase who.toNat ∧
      (who.toNat < 16 → (t.slice who.toNat).usage.engineNs.get 0 = (s.slice who.toNat).usage.engineNs.get 0 + ns.toNat) ∧
      (∀ sl, sl ≠ who.toNat → t.slice sl = s.slice sl)) ∧
  (∀ (test : BitVec 2) (s : State), s.ent.state = 0 ∨ s.ent.state = 1 → test.toNat ≤ 2 →
    let recent := (s.ent.failTimes.filter (fun x => decide (s.now < x + 1000000000))) ++ [s.now]
    ∃ t, exec (.entHealthFailure test) s = .next t ∧ t.ent = { s.ent with
      rctFails := s.ent.rctFails + b2n (test == 0), aptFails := s.ent.aptFails + b2n (test == 1), failTimes := recent
      state := if 3 ≤ recent.length then 3 else 2 } ∧ t.rcv.classCount.get 0x1B = s.rcv.classCount.get 0x1B + 1) ∧
  (∀ s : State, s.ent.state = 2 → ∃ t, exec .entRetryExpiry s = .next t ∧ t.ent = { s.ent with state := 1 }) ∧
  (∀ s : State, s.ent.state = 1 → ∃ t, exec .entStartupTestsDone s = .next t ∧ t.ent.state = 0 ∧ t.ent.instantiated = true ∧
    (s.ent.instantiated = true → t.ent = { s.ent with state := 0 })) ∧
  (∀ (which : BitVec 2) (s : State), which ≠ 3 → entOk s = true →
    ∃ t, exec (.drbgReseed which) s = .next t ∧ (which ≠ 0 ∨ s.ent.instantiated = true → t.ent.reseeds = s.ent.reseeds + 1) ∧
      t.ent.sinceReseed = (if which = 0 then 0 else s.ent.sinceReseed) ∧ t.kwe.sinceReseed = (if which = 1 then 0 else s.kwe.sinceReseed) ∧
      t.ent.pkeOps = (if which = 2 then 0 else s.ent.pkeOps) ∧ (which = 0 → t.ent.instantiated = true)) ∧
  (∀ (which : BitVec 2) (s : State), which ≠ 3 → entOk s = false → ∃ t, exec (.drbgReseed which) s = .next t ∧ t.ent = s.ent ∧ t.kwe = s.kwe)

/-- SHEAF_BEGIN opens a free context with its participants and the sum of their lines as EXPECTED, and loads the sheaf key (R314). SHEAF_END
makes the context ending, and once no contributing write is outstanding, at once where none is, the record goes out with the digest of the
twelve partials modulo 2^127 - 1, the context is freed and the command ends (R306, R315-R317). SHEAF_COMBINE answers the status of the first
failing check, or sends the combined record, signed where SIGN asks for it and the members are complete, and answers its length (R318-R320); a
record that cannot be signed for want of entropy is refused (R80, log 130). -/
def Obligations.SheafCommandsComplete : Prop :=
  (∀ (h : CmdHdr) (id : BitVec 32) (slot : BitVec 16) (count : BitVec 8) (listBva : BitVec 64) (list : List (BitVec 128)) (k : Nat) (s : State),
    Starts h 0x0300 [(0x18, 4, id.toNat), (0x1C, 2, slot.toNat), (0x1E, 1, count.toNat), (0x20, 8, listBva.toNat)] s →
    1 ≤ count.toNat → count.toNat ≤ 16 → listBva.toNat % 8 = 0 → keyed s (hdrSlice h) = true → id ≠ 0 →
    id.toNat ∉ s.sheaf.opened.get (hdrSlice h) → firstFail (keyChecks (s.started h) (hdrSlice h) slot.toNat 6 0xFFFF id.toNat 3) = none →
    kweRuns s = true → list.length = count.toNat →
    let ps := list.map partEntry
    (∀ p ∈ ps, p.zero = 0 ∧ partRegionOk s (hdrSlice h) ps p = true ∧ partRangeOk s ps p = true) → freeCtx s = some k → openSheaves s (hdrSlice h) < 4 →
    ∃ t, exec (.sheafBegin h id slot count listBva none list) s = .next t ∧ Ended h.key St.success 0 t ∧
      t.sheaf.ctxs.get k = {
        state := 1, id := id.toNat, slice := hdrSlice h, slot := slot.toNat, parts := ps.map (fun p => (p.region, p.tag, p.base)),
        expected := (ps.map (fun p => (s.region p.region).lines)).foldl (· + ·) 0 } ∧
      (∀ j, j ≠ k → t.sheaf.ctxs.get j = s.sheaf.ctxs.get j) ∧ t.sheaf.opened.get (hdrSlice h) = s.sheaf.opened.get (hdrSlice h) ++ [id.toNat] ∧
      (∃ e ∈ t.engKeys, e.cls = 6 ∧ e.index = k ∧ e.key = (s.slot slot.toNat).key ∧ e.slot = some slot.toNat)) ∧
  (∀ (h : CmdHdr) (id : BitVec 32) (out : BitVec 64) (k : Nat) (s : State), Starts h 0x0301 [(0x18, 4, id.toNat), (0x20, 8, out.toNat)] s →
    out.toNat % 8 = 0 → (s.sheaf.ctxs.findAll (fun _ c => c.state == 1 && c.slice == hdrSlice h && c.id == id.toNat)).head? = some k →
    s.sheaf.ctxs.wf = true → (∀ j, (s.sheaf.ctxs.get j).state ≠ 2) →
    let c := s.sheaf.ctxs.get k
    let d := s.domain c.slice
    let digest := ((List.range 12).map c.partials.get).foldl (fun a x => (a + x) % sheafP) 0
    let complete := completeSet d (2 ^ d.member)
    let bound := match c.bound with | some b => b.toNat | none => 0
    let r : SheafRec := {
      flags := recordFlags complete c.bound.isSome (complete && c.bound.isSome && digest == bound), domain := d.id, attempt := d.attempt, id := c.id,
      issuer := d.member, lines := c.lines, expected := c.expected, digest, bound, members := 2 ^ d.member }
    ∃ t, exec (.sheafEnd h id out none) s = .next t ∧
      (sheafWaits s k = true → Runs h.key t ∧ t.out = s.out ∧
        t.sheaf.ctxs.get k = { c with state := 2, ending := some h.key, endBva := out.toNat }) ∧
      (sheafWaits s k = false → t.sheaf.ctxs.get k = {} ∧
        Ended h.key (if complete = true ∧ c.bound.isSome = true ∧ digest ≠ bound then St.sheafMismatch else St.success) 0 t ∧
        ∃ set, t.out = s.out ++ [.dma set out.toNat (r.seal (engKey s 6 k) (drbgBits 96 (s.started h)).1)]) ∧
      (∀ j, j ≠ k → t.sheaf.ctxs.get j = s.sheaf.ctxs.get j)) ∧
  (∀ (k : Nat) (key : CmdKey) (f : Flight) (s : State), (s.sheaf.ctxs.get k).ending = some key → s.flight key = some f → f.phase = .running →
    f.override = none →
    let c := s.sheaf.ctxs.get k
    let d := s.domain c.slice
    let digest := ((List.range 12).map c.partials.get).foldl (fun a x => (a + x) % sheafP) 0
    let complete := completeSet d (2 ^ d.member)
    let bound := match c.bound with | some b => b.toNat | none => 0
    let r : SheafRec := {
      flags := recordFlags complete c.bound.isSome (complete && c.bound.isSome && digest == bound), domain := d.id, attempt := d.attempt, id := c.id,
      issuer := d.member, lines := c.lines, expected := c.expected, digest, bound, members := 2 ^ d.member }
    (endSheaf k s).out = s.out ++ [.dma (tableSet s (rawCtx f.raw)) c.endBva (r.seal (engKey s 6 k) (drbgBits 96 s).1)] ∧
      (endSheaf k s).sheaf.ctxs.get k = {} ∧
      Ended key (if complete = true ∧ c.bound.isSome = true ∧ digest ≠ bound then St.sheafMismatch else St.success) 0 (endSheaf k s)) ∧
  (∀ (h : CmdHdr) (id : BitVec 32) (slot : BitVec 16) (opt : BitVec 8) (inBva : BitVec 64) (count : BitVec 16) (out : BitVec 64)
      (recs : List Bytes) (s : State),
    Starts h 0x0302 [(0x18, 4, id.toNat), (0x1C, 2, slot.toNat), (0x1E, 1, opt.toNat), (0x20, 8, inBva.toNat), (0x28, 2, count.toNat),
      (0x30, 8, out.toNat)] s → inBva.toNat % 8 = 0 → out.toNat % 8 = 0 → 1 ≤ count.toNat → count.toNat ≤ 4096 →
    firstFail (keyChecks (s.started h) (hdrSlice h) slot.toNat 6 0xFFFF id.toNat 0) = none → recs.length = count.toNat →
    let d := s.domain (hdrSlice h)
    let sign := bit opt.toNat 0
    ∃ t, exec (.sheafCombine h id slot opt inBva count out none recs) s = .next t ∧
      match (recs.map (fit 624)).foldl (combineOne (s.slot slot.toNat).key d id.toNat)
        (.ok { members := 0, lines := 0, expected := 0, digest := 0, bound := none }) with
      | .error e => Ended h.key e.1 e.2 t ∧ t.out = s.out
      | .ok c =>
        let complete := completeSet d c.members
        let r : SheafRec := {
          flags := recordFlags complete c.bound.isSome (complete && c.bound.isSome && c.digest == c.bound.getD 0), domain := d.id, attempt := d.attempt,
          id := id.toNat, issuer := d.member, lines := c.lines, expected := c.expected, digest := c.digest, bound := c.bound.getD 0, members := c.members }
        let iv := drbgBits 96 (s.started h)
        let b := r.seal (s.slot slot.toNat).key iv.1
        let body := b ++ beBytes 48 (Config.sha384 d.evidence).toNat ++ beBytes 48 s.atu.aliasDigest.toNat
        let sent := if sign = true ∧ complete = true then body ++ (hybridSign 1 "PELGEN-S4/SHEAF" body iv.2).1 else b
        if sign = true ∧ complete = true ∧ (entOk s && pkeRuns s) = false then Ended h.key St.entropyFailure 0 t ∧ t.out = s.out
        else t.out = s.out ++ [.dma (tableSet s h.ctx.toNat) out.toNat sent] ∧
          Ended h.key (if complete = true ∧ c.bound.isSome = true ∧ c.digest ≠ c.bound.getD 0 then St.sheafMismatch
            else if sign = true ∧ complete = false then St.notComplete else St.success) sent.length t)

/-- STREAM_OPEN fills one free entry for each class of its mask and answers the pair record and the first entry, at once or, when an entry
opens stalled, once the pair has rotated (R273). STREAM_CLOSE frees the entries that nothing holds and waits for the others, which are closing
(R275). STREAM_ROTATE asks each pair that it names to rotate (R282). A rotation moves the pair and its streams to the next epoch and the other
phase; the derived next key ends it and completes the commands that it served, and on a receive pair sets NEXT (R277, R279, R282). -/
def Obligations.StreamCommandsComplete : Prop :=
  (∀ (h : CmdHdr) (peer mask : BitVec 16) (port opt : BitVec 8) (s : State),
    Starts h 0x0400 [(0x18, 2, peer.toNat), (0x1A, 2, mask.toNat), (0x1C, 1, port.toNat), (0x1D, 1, opt.toNat)] s →
    let sl := hdrSlice h
    let rx := bit opt.toNat 0
    let cs := maskClasses mask.toNat
    let es := freeEntries s sl port.toNat cs.length
    firstFail (openChecks (s.started h) sl peer.toNat port.toNat cs rx) = none → s.link.pairs.wf = true →
    let p := (findPair s sl peer.toNat rx).getD ((freePair s).getD 0)
    let detail := p + (freeEntries s sl port.toNat 1).headD 0 * 2 ^ 16
    ∃ t, exec (.streamOpen h peer mask port opt) s = .next t ∧ (t.pair p).valid = true ∧ bit (t.pair p).ports port.toNat = true ∧
      (∀ ce ∈ cs.zip es, (t.stream ce.2).cls = ce.1 ∧ (t.stream ce.2).port = port.toNat ∧ (t.stream ce.2).rx = rx ∧
        (t.stream ce.2).peer = peer.toNat ∧ (t.stream ce.2).slice = sl ∧ (t.stream ce.2).pair = p ∧ (t.stream ce.2).ctr = 0 ∧
        (t.stream ce.2).sav = bit opt.toNat 1 ∧ (t.stream ce.2).state = if !rx && bit (s.pair p).used ce.1 && (findPair s sl peer.toNat rx).isSome then 2 else 1) ∧
      (∀ e, e ∉ es → t.stream e = s.stream e) ∧
      (if ∃ e ∈ pairStreams t p, (t.stream e).cls ∈ cs ∧ (t.stream e).state = 2 then
        Runs h.key t ∧ (t.pair p).rotateAsked = true ∧ (h.key, detail) ∈ (t.pair p).waiters
      else Ended h.key St.success detail t)) ∧
  (∀ (h : CmdHdr) (peer mask : BitVec 16) (opt : BitVec 8) (s : State),
    Starts h 0x0401 [(0x18, 2, peer.toNat), (0x1A, 2, mask.toNat), (0x1D, 1, opt.toNat)] s → peer.toNat < 4096 →
    s.link.closing = [] → s.link.streams.wf = true → s.link.streams.dflt = {} → (∀ e ∈ s.link.streams.ents, e.2.state ≠ 3) →
    let es := (maskClasses mask.toNat).filterMap (fun c => findStream s (hdrSlice h) peer.toNat c (bit opt.toNat 0))
    let left := es.filter (fun e => !closable s e)
    ∃ t, exec (.streamClose h peer mask opt) s = .next t ∧
      (∀ e, t.stream e = if e ∈ left then { s.stream e with state := 3 } else if e ∈ es then {} else s.stream e) ∧
      (left = [] → Ended h.key St.success 0 t ∧ t.link.closing = []) ∧
      (left ≠ [] → Runs h.key t ∧ t.link.closing = [(h.key, left)])) ∧
  (∀ (h : CmdHdr) (bva : BitVec 64) (count : BitVec 16) (list : List (BitVec 16)) (s : State),
    Starts h 0x0402 [(0x18, 8, bva.toNat), (0x20, 2, count.toNat)] s → bva.toNat % 8 = 0 → count ≠ 0 → count.toNat ≤ 256 → list.length = count.toNat →
    (∀ p ∈ list, p.toNat < 8192 ∧ (s.pair p.toNat).valid = true ∧ (s.pair p.toNat).slice = hdrSlice h ∧ (s.pair p.toNat).rx = false) →
    ∃ t, exec (.streamRotate h bva count none list) s = .next t ∧ Runs h.key t ∧
      (∀ p ∈ list, (t.pair p.toNat).rotateAsked = true ∧ (h.key, 0) ∈ (t.pair p.toNat).waiters) ∧
      (∀ n, (∀ p ∈ list, p.toNat ≠ n) → t.pair n = s.pair n)) ∧
  (∀ (pair : BitVec 13) (s : State),
    let x := s.pair pair.toNat
    x.valid = true → x.rx = false → x.rotateAsked = true ∨ rotateDue s pair.toNat = true ∨ x.halyard = true → holdoffOver s x = true →
    x.next = true → x.clearing = false → frozen s x.slice = false → s.link.streams.wf = true →
    ∃ t, exec (.linkRotate pair) s = .next t ∧ (t.pair pair.toNat).epoch = nextEpoch x.epoch x.halyard ∧ (t.pair pair.toNat).kph = !x.kph ∧
      (t.pair pair.toNat).halyard = false ∧ (t.pair pair.toNat).next = false ∧ (t.pair pair.toNat).clearing = true ∧
      (t.pair pair.toNat).rotateAsked = false ∧ (t.pair pair.toNat).lastSwitch = some (pairNow s x) ∧ (t.pair pair.toNat).waiters = [] ∧
      (t.pair pair.toNat).serving = x.serving ++ x.waiters ∧
      ∀ e ∈ pairStreams s pair.toNat, (t.stream e).epoch = nextEpoch x.epoch x.halyard ∧ (t.stream e).kph = !(s.stream e).kph ∧
        (t.stream e).halyard = false ∧ (s.link.txWaits = [] → (t.stream e).ctr = 0)) ∧
  (∀ (pair : BitVec 13) (s : State),
    let x := s.pair pair.toNat
    x.valid = true → x.rx = false → x.clearing = true → x.halyard = false → dlkUsable s x.slice = true →
    ∃ t, exec (.linkNextKeyDerived pair) s = .next t ∧ (t.pair pair.toNat).clearing = false ∧ (t.pair pair.toNat).serving = [] ∧
      (t.pair pair.toNat).epoch = x.epoch ∧ (entOk s = true → (t.pair pair.toNat).next = true) ∧
      (∀ k d, x.serving = [(k, d)] → Runs k s → (∀ v ∈ x.waiters, v.1 ≠ k) →
        (∀ e ∈ s.link.pairs.ents, e.1 ≠ pair.toNat → ∀ v ∈ e.2.waiters ++ e.2.serving, v.1 ≠ k) → s.link.pairs.wf = true → Ended k St.success d t)) ∧
  (∀ (pair : BitVec 13) (s : State),
    let x := s.pair pair.toNat
    x.valid = true → x.rx = true → dlkUsable s x.slice = true → entOk s = true → GateIdle s → s.link.waits = [] →
    (∀ d ∈ s.link.drains, d.pair ≠ pair.toNat) →
    (∀ e ∈ pairStreams s pair.toNat, (s.stream e).epoch = x.epoch ∧ (s.stream e).halyard = x.halyard) →
    ∃ t, exec (.linkNextKeyDerived pair) s = .next t ∧ t.pair pair.toNat = { x with next := true } ∧
      ∀ q ∈ portsOf x, hasLink t q pair.toNat (nextEpoch x.epoch x.halyard) false = true)

/-- A host packet of a mapped class opens its stream's group, joins the open one, or leaves at once when it closes the group; one of an unmapped
class is refused and logged (R261, R262). A group that the flush closes leaves under the next counter, encrypted and tagged (R262-R266). A
received group that its window accepts becomes pending and is forwarded on arrival (R271, R283, R285, R288); its trailer verifies it, forwards
what was held, and VT advances (R285). A trailer that does not agree or does not verify, a missing one, a missing NEXT and a missing rotation
mark are failed tags, and the slice originates ABORT, with cause 5 for a class-15 group of a tree neighbour and 1 otherwise (R278, R279, R284,
R290). A drain ends by clearing the old key (R279, R303). A dead tree neighbour aborts the domain; any other dead member fails its streams
(R294, R295). -/
def Obligations.GroupEventsComplete : Prop :=
  (∀ (port : BitVec 5) (slc : BitVec 4) (peer : BitVec 12) (traffic : BitVec 4) (addr : BitVec 64) (opcode attr : BitVec 8) (payload : Bytes)
      (closing : Bool) (e : Nat) (s : State),
    let cls := s.link.classMap.get traffic.toNat
    let q := port.toNat
    q < 18 → cls ≤ 14 → findStream s slc.toNat peer.toNat cls false = some e → (s.stream e).state = 1 → (s.stream e).port = q →
    frozen s slc.toNat = false → payload.length ≤ 4096 → (s.stream e).ctr < 2 ^ 40 - 2 →
    ∃ t, exec (.hostPacketTx port slc peer traffic addr opcode attr payload closing) s = .next t ∧
      ((∀ g ∈ s.link.txOpen.get q, g.stream ≠ e) → (s.link.txOpen.get q).length < 32 →
        let descs := descBytes addr.toNat opcode.toNat attr.toNat payload.length 0
        (closing = false → t.out = s.out ∧ t.link.txOpen.get q = s.link.txOpen.get q ++
          [{ stream := e, packets := 1, payload, descs, startedAt := s.leNow q }]) ∧
        (closing = true → (s.port q).mode ≠ 1 → SendsGroup e 1 payload descs s t ∧ t.link.txOpen.get q = s.link.txOpen.get q)) ∧
      (∀ g, s.link.txOpen.get q = [g] → g.stream = e → g.payload.length + payload.length ≤ 4096 → g.packets < 63 → closing = false →
        t.out = s.out ∧ t.link.txOpen.get q = [{ g with
          packets := g.packets + 1, payload := g.payload ++ payload
          descs := g.descs ++ descBytes addr.toNat opcode.toNat attr.toNat payload.length g.packets }]) ∧
      (∀ n, n ≠ q → t.link.txOpen.get n = s.link.txOpen.get n)) ∧
  (∀ (port : BitVec 5) (slc : BitVec 4) (peer : BitVec 12) (traffic : BitVec 4) (addr : BitVec 64) (opcode attr : BitVec 8) (payload : Bytes) (closing : Bool)
      (s : State), port.toNat < 18 → 14 < s.link.classMap.get traffic.toNat →
    ∃ t, exec (.hostPacketTx port slc peer traffic addr opcode attr payload closing) s = .next t ∧ (∃ l, t.out = s.out ++ l ++ [.packetRefused port.toNat]) ∧
      t.rcv.classCount.get 0x13 = s.rcv.classCount.get 0x13 + 1 ∧ t.link = s.link) ∧
  (∀ (port : BitVec 5) (stream : BitVec 17) (g : TxGroup) (s : State), (s.link.txOpen.get port.toNat).find? (fun g => g.stream == stream.toNat) = some g →
    (s.stream stream.toNat).port = port.toNat → (s.stream stream.toNat).ctr < 2 ^ 40 - 2 → (s.port port.toNat).mode ≠ 1 →
    (∀ e ∈ s.link.streams.ents, e.2.state ≠ 3) → (s.stream stream.toNat).state ≠ 3 →
    ∃ t, exec (.groupFlushExpiry port stream) s = .next t ∧ SendsGroup stream.toNat g.packets g.payload g.descs s t ∧
      (∀ n, n ≠ stream.toNat → t.stream n = s.stream n) ∧
      t.link.txOpen.get port.toNat = (s.link.txOpen.get port.toNat).filter (fun w => w.stream != stream.toNat)) ∧
  (∀ (port : BitVec 5) (gsh descs cipher : Bytes) (e b w : Nat) (s : State),
    let g := readGsh gsh
    let x := s.stream e
    let k := gateKey port.toNat x.slice
    GateIdle s → wired s port.toNat = true → bufferRoom s port.toNat descs cipher = true → g.flags < 2 → g.bad = false → descsBad descs = false →
    g.cls ≠ 15 → staleGroup s g = false → findStream s g.rxSlice g.sender g.cls true = some e → x.port = port.toNat → x.state ≠ 3 →
    g.receiver = (s.domain g.rxSlice).member → bit g.flags 0 = x.kph → windowAccept x.ctr x.window g.ctr = some (b, w) → isGateway s = false →
    x.cls ≠ 15 → x.sav = false → (s.port port.toNat).sav = false → unverified s port.toNat < 256 →
    ∃ t r, exec (.groupReceive port gsh descs cipher) s = .next t ∧ t.stream e = { x with ctr := b, window := w } ∧
      (∀ n, n ≠ e → t.stream n = s.stream n) ∧ t.ac.get k = s.ac.get k + 1 ∧ t.vt = s.vt ∧ t.link.pend = s.link.pend ++ [r] ∧
      r.port = port.toNat ∧ r.slice = x.slice ∧ r.stream = e ∧ r.seq = s.ac.get k + 1 ∧ r.gsh = gsh ∧ r.descs = descs ∧ r.cipher = cipher ∧
      r.fwd = true ∧ r.verified = false ∧
      t.out = s.out ++ [.forward port.toNat x.slice descs (openPayload s e x.epoch x.halyard g cipher)]) ∧
  (∀ (port : BitVec 5) (index : BitVec 16) (tag : BitVec 128) (g : RxGroup) (s : State), GateIdle s → pendAt s port.toNat index.toNat = some g →
    g.verified = false → g.seq ≠ 0 → g.seq ≤ s.ac.get (gateKey port.toNat g.slice) →
    (∀ x ∈ s.link.pend, x.port = port.toNat → x.slice = g.slice → x = g) → trailerOk g g.gsh = true → tagOk s g tag = true →
    let h := readGsh g.gsh
    let plain := openPayload s g.stream g.epoch g.halyard h g.cipher
    ∃ t, exec (.groupTrailer port index g.gsh tag) s = .next t ∧
      t.vt.get (gateKey port.toNat g.slice) = s.ac.get (gateKey port.toNat g.slice) ∧ t.ac = s.ac ∧
      t.link.pend = s.link.pend.filter (fun x => !(x.port == port.toNat && x.slice == g.slice)) ∧
      (bit h.flags 2 = true ∨ g.fwd = true → t.out = s.out ∧ t.link.inbox = s.link.inbox) ∧
      (bit h.flags 2 = false → g.fwd = false → h.cls ≠ 15 → t.out = s.out ++ [.forward port.toNat g.slice g.descs plain]) ∧
      (bit h.flags 2 = false → g.fwd = false → h.cls = 15 → t.out = s.out ∧ t.link.inbox = (gatherMsg g.slice h.sender false plain s).link.inbox)) ∧
  (∀ (port : BitVec 5) (index : BitVec 16) (trailer : Bytes) (tag : BitVec 128) (g : RxGroup) (s : State), pendAt s port.toNat index.toNat = some g →
    g.verified = false → (s.domain g.slice).state ∈ [1, 2, 3] →
    let h := readGsh g.gsh
    let cause := if h.cls = 15 ∧ treeNeighbour (s.domain g.slice) h.sender = true then 5 else 1
    (trailerOk g trailer = false ∧ passesThrough s (readGsh trailer) [] = false ∨ tagOk s g tag = false ∧ trailer = g.gsh →
      ∃ t, exec (.groupTrailer port index trailer tag) s = .next t ∧ Aborts g.slice cause s t) ∧
    ∃ t, exec (.trailerTimeout port index) s = .next t ∧ Aborts g.slice cause s t) ∧
  (∀ (port : BitVec 5) (w : RxWait) (e : Nat) (s : State), s.link.waits = [w] → w.port = port.toNat →
    let g := readGsh w.gsh
    findStream s g.rxSlice g.sender g.cls true = some e → nextClear s e = true → (s.domain g.rxSlice).state ∈ [1, 2, 3] →
    ∃ t, exec (.rxNextWaitTimeout port) s = .next t ∧
      Aborts g.rxSlice (if g.cls = 15 ∧ treeNeighbour (s.domain g.rxSlice) g.sender = true then 5 else 1) s t ∧ t.link.waits = []) ∧
  (∀ (port : BitVec 5) (pair : BitVec 13) (d : Drain) (s : State), drainOf s port.toNat pair.toNat = some d → d.ents.all (entDone s) = true →
    s.link.pend.any (oldGroup d) = false → GateIdle s → (∀ n ∈ d.ents, (s.stream n.stream).state ≠ 3) → (∀ w ∈ s.link.waits, w.port ≠ port.toNat) →
    ∃ t, exec (.drainEnd port pair) s = .next t ∧ t.link.drains = s.link.drains.erase d ∧
      hasLink t port.toNat pair.toNat d.epoch d.halyard = false ∧ (∀ n ∈ d.ents, (t.stream n.stream).drain = false)) ∧
  (∀ (port : BitVec 5) (pair : BitVec 13) (d : Drain) (n : DrainEnt) (s : State), drainOf s port.toNat pair.toNat = some d →
    d.ents.find? (fun n => !entDone s n) = some n → (s.domain (s.stream n.stream).slice).state ∈ [1, 2, 3] →
    let x := s.stream n.stream
    ∃ t, exec (.drainTimeout port pair) s = .next t ∧
      Aborts x.slice (if x.cls = 15 ∧ treeNeighbour (s.domain x.slice) x.peer = true then 5 else 1) s t) ∧
  (∀ (port : BitVec 5) (endpoint : BitVec 32) (sl m : Nat) (s : State), port.toNat < 18 →
    (List.range 16).filter (fun n => (s.domain n).state != 0 && (s.domain n).state != 4) = [sl] → membersAt (s.domain sl) endpoint.toNat = [m] →
    s.link.streams.wf = true → s.link.streams.dflt = {} → (∀ e ∈ s.link.streams.ents, e.2.state ≠ 3) →
    ∃ t, exec (.deadTargetReport port endpoint) s = .next t ∧
      (treeNeighbour (s.domain sl) m = true → Aborts sl 5 s t) ∧
      (treeNeighbour (s.domain sl) m = false → t.dom = s.dom ∧
        ∀ e, t.stream e = if (s.stream e).isOpen = true ∧ (s.stream e).slice = sl ∧ (s.stream e).peer = m then { s.stream e with state := 4 } else s.stream e))

/-- DOMAIN_JOIN arms the slice with the operands and FORMING (R104, R105); DOMAIN_FORM starts roll-call under the policy and challenges the
tree children, or answers POLICY_FAILURE with the code of the check that the masthead's own evidence fails (R108, R114); DOMAIN_RELEASE installs
the released keys and sends them on, a masthead alone entering KEYED at once, or answers the status of the first failing check (R125, R128);
DOMAIN_GO makes the slice LIVE and tells its children (R129); DOMAIN_ABORT and DOMAIN_DISSOLVE leave it IDLE with its slots zeroized and the
cause recorded (R136, R137); DOMAIN_PROVE writes the inclusion proof (R123). -/
def Obligations.DomainCommandsComplete : Prop :=
  (∀ (h : CmdHdr) (id : BitVec 64) (attempt : BitVec 32) (member masthead count : BitVec 16) (listBva : BitVec 64) (list : Bytes) (s : State),
    let sl := hdrSlice h
    Starts h 0x0500 [(0x18, 8, id.toNat), (0x20, 4, attempt.toNat), (0x24, 2, member.toNat), (0x26, 2, masthead.toNat), (0x28, 2, count.toNat),
      (0x30, 8, listBva.toNat)] s →
    id ≠ 0 → 1 ≤ count.toNat → count.toNat ≤ 4096 → member.toNat < count.toNat → masthead.toNat < count.toNat → aligned8 listBva = true →
    firstFail (joinChecks s sl id.toNat attempt.toNat) = none → (s.domain sl).held = none → list.length = 64 * count.toNat →
    listOk count.toNat list = true →
    ∃ t, exec (.domainJoin h id attempt member masthead count listBva none list) s = .next t ∧ Ended h.key St.success 0 t ∧
      (t.domain sl).state = 1 ∧ (t.domain sl).id = id.toNat ∧ (t.domain sl).attempt = attempt.toNat ∧ (t.domain sl).member = member.toNat ∧
      (t.domain sl).masthead = masthead.toNat ∧ (t.domain sl).count = count.toNat ∧ (t.domain sl).list = list ∧ (t.domain sl).included = 0 ∧
      (id.toNat, attempt.toNat) ∈ (t.domain sl).joined ∧
      t.atu.smr.get sl =
        extend (s.atu.smr.get sl) (Config.sha384 (joinParams id.toNat attempt.toNat member.toNat masthead.toNat count.toNat list)) ∧
      (∀ n, n ≠ sl → t.domain n = s.domain n)) ∧
  (∀ (h : CmdHdr) (policyBva : BitVec 64) (fenceMs : BitVec 32) (rereqMs : BitVec 16) (policy : Bytes) (s : State),
    let sl := hdrSlice h
    let d := s.domain sl
    Starts h 0x0501 [(0x18, 8, policyBva.toNat), (0x20, 4, fenceMs.toNat), (0x24, 2, rereqMs.toNat)] s →
    aligned8 policyBva = true → d.state = 1 → d.member = d.masthead → d.roll = 0 → d.children = [] → policyOk (fit 512 policy) = true →
    entOk s = true → pkeRuns s = true → kweRuns s = true →
    let y := drbgBits 256 (domainPair sl (s.started h))
    let nonce := leBytes 32 y.1.toNat
    let e := signed "PELGEN-S4/EVIDENCE" (evidenceBody y.2 sl nonce []) y.2
    let v := checkEvidence sl d.member (fit 512 policy) nonce e.1 e.2.atu.certs e.2
    ∃ t, exec (.domainForm h policyBva fenceMs rereqMs none policy) s = .next t ∧
      (∀ code, v.1 = some code → Ended h.key St.policyFailure code t ∧ t.dom = s.dom) ∧
      (v.1 = none → treeChildren d d.member ≠ [] → Runs h.key t ∧ (t.domain sl).state = 1 ∧ (t.domain sl).roll = 1 ∧
        (t.domain sl).policy = fit 512 policy ∧ (t.domain sl).nonce = nonce ∧ (t.domain sl).ownEvidence = e.1 ∧ (t.domain sl).formKey = some h.key ∧
        (t.domain sl).fenceMs = (if fenceMs = 0 then 30000 else fenceMs.toNat) ∧ (t.domain sl).rereqMs = (if rereqMs = 0 then 2 else rereqMs.toNat) ∧
        (t.domain sl).children.map (fun c => (c.member, c.adopted, c.state)) = (treeChildren d d.member).map (fun m => (m, false, 0)) ∧
        (t.domain sl).sent = d.sent ++ (treeChildren d d.member).map (fun m =>
          { dest := m, type := 1, seq := d.seqOut.get m + 1
            body := challengeBody (fit 512 policy) (Config.sha384 d.list) (fit 32 nonce) e.1 v.2.atu.certs }))) ∧
  (∀ (h : CmdHdr) (releaseBva : BitVec 64) (len : BitVec 32) (r : Bytes) (at_ : Nat) (s : State),
    let sl := hdrSlice h
    let d := s.domain sl
    let k := releaseKeys r
    let u := pkeDone (pkeDone (s.started h))
    let signedOk := slice d.policy 0x40 48 = digestBytes (Config.sha384 (slice r k 2689)) ∧
      hybridOk (slice r k 2592) (slice r (k + 2592) 97) "PELGEN-S4/RELEASE" (slice r 0 (k + 2689)) (slice r (k + 2689) 4723) = true
    Starts h 0x0502 [(0x18, 8, releaseBva.toNat), (0x20, 4, len.toNat)] s →
    aligned8 releaseBva = true → d.state = 1 → d.roll = 2 → d.releaseKey = none → d.formedAt = some at_ → (s.started h).now ≤ at_ + d.tmo.getD 4 0 * 1000000 →
    releaseOk r len.toNat = true → pkeRuns s = true → field r 8 8 = d.id → field r 0x10 4 = d.attempt →
    slice r 0x20 48 = digestBytes (Config.sha384 d.evidence) →
    ∃ t, exec (.domainRelease h releaseBva len none r) s = .next t ∧
      (¬ signedOk → Ended h.key St.badSignature 3 t ∧ t.dom = s.dom ∧ t.kst = s.kst) ∧
      (∀ e, signedOk → openKeys u sl none 1872 (releaseBlobs r) = .error e → Ended h.key e 4 t ∧ t.dom = s.dom ∧ t.kst = s.kst) ∧
      (∀ ks a b c e f rest, signedOk → openKeys u sl none 1872 (releaseBlobs r) = .ok ks → freeSlots s sl = a :: b :: c :: e :: f :: rest →
        kweRuns u = true → (∃ c ∈ d.children, c.state = 1 ∧ c.slot ≠ none) ∨ d.children = [] ∧ d.parentSlot = none ∧ d.included = 1 ∧ d.member = d.masthead →
        (t.domain sl).drk = some a ∧ (t.domain sl).erk = some b ∧ (t.domain sl).ssk = some c ∧ (t.domain sl).dlk = some e ∧ (t.domain sl).rmk = some f ∧
        (t.domain sl).flags = field r 6 1 ∧ (t.slot a).key = ks.headD 0 ∧ (t.slot a).binding = bindWord h.ctx.toNat 0xFFFF 0 ∧
        (t.slot e).key = Config.kmac256 (keyBytes (ks.headD 0)) (ascii "PELGEN-S4/LINK") (leBytes 8 d.id) ∧
        (t.slot f).key = Config.kmac256 (keyBytes (ks.headD 0)) (ascii "PELGEN-S4/REGION") (leBytes 8 d.id ++ leBytes 2 d.member) ∧
        (d.children ≠ [] → Runs h.key t ∧ (t.domain sl).state = 1 ∧ (t.domain sl).roll = 3 ∧ (t.domain sl).releaseKey = some h.key ∧
          ∀ c ∈ (t.domain sl).children, c.state = 1 → c.slot ≠ none → c.ack = 1) ∧
        (d.children = [] → Ended h.key St.success 0 t ∧ (t.domain sl).state = 2 ∧ (t.domain sl).releaseKey = none))) ∧
  (∀ (h : CmdHdr) (s : State), Starts h 0x0503 [] s → (s.domain (hdrSlice h)).state = 2 → (s.domain (hdrSlice h)).member = (s.domain (hdrSlice h)).masthead →
    ∃ t ms, exec (.domainGo h) s = .next t ∧ Ended h.key St.success 0 t ∧ (t.domain (hdrSlice h)).state = 3 ∧ t.pins.domLive = true ∧
      (t.domain (hdrSlice h)).sent = (s.domain (hdrSlice h)).sent ++ ms ∧
      ms.map (fun m => (m.dest, m.type, m.body)) = ((s.domain (hdrSlice h)).children.filter (·.state == 1)).map (fun c => (c.member, 5, [])) ∧
      (∀ n, n ≠ hdrSlice h → t.domain n = s.domain n)) ∧
  (∀ (h : CmdHdr) (detail : BitVec 32) (s : State), Starts h 0x0504 [(0x18, 4, detail.toNat)] s → s.kst.dflt = {} →
    (s.domain (hdrSlice h)).state = 1 ∨ (s.domain (hdrSlice h)).state = 2 ∨ (s.domain (hdrSlice h)).state = 3 →
    ∃ t, exec (.domainAbort h detail) s = .next t ∧ Ended h.key St.success 0 t ∧ Aborts (hdrSlice h) 7 s t ∧
      ∀ n, inPartition s (hdrSlice h) n = true → t.slot n = {}) ∧
  (∀ (h : CmdHdr) (s : State), Starts h 0x0505 [] s → (s.domain (hdrSlice h)).state = 3 → (s.domain (hdrSlice h)).member = (s.domain (hdrSlice h)).masthead →
    s.kst.dflt = {} →
    ∃ t, exec (.domainDissolve h) s = .next t ∧ Ended h.key St.success 0 t ∧ (t.domain (hdrSlice h)).state = 0 ∧ (t.domain (hdrSlice h)).abortCause = 0 ∧
      (t.domain (hdrSlice h)).abortOrigin = (s.domain (hdrSlice h)).member ∧
      (t.domain (hdrSlice h)).abortCount = (s.domain (hdrSlice h)).abortCount ∧ ∀ n, inPartition s (hdrSlice h) n = true → t.slot n = {}) ∧
  (∀ (h : CmdHdr) (outBva : BitVec 64) (outLen : BitVec 32) (s : State), Starts h 0x0506 [(0x18, 8, outBva.toNat), (0x20, 4, outLen.toNat)] s →
    let p := inclusionProof s (hdrSlice h)
    aligned8 outBva = true → keyed s (hdrSlice h) = true → (s.domain (hdrSlice h)).provable = true → p.length ≤ outLen.toNat →
    ∃ t, exec (.domainProve h outBva outLen none) s = .next t ∧ Ended h.key St.success p.length t ∧
      t.out = s.out ++ [.dma (tableSet s h.ctx.toNat) outBva.toNat p] ∧ t.dom = s.dom)

/-- An unarmed slice holds a challenge until its hold expires (R108); an armed one checks it, takes its sender as parent and challenges its
own children, or answers at once where it has none (R114, R117). An answer that passes its checks resolves its child (R114); one that fails
them, or that is missing, excepts the member and adopts its children (R115, R117, R118). The deadlines of roll-call and release end the
formation with cause FORMATION_FAILED (R121, R125). -/
def Obligations.RollCallEventsComplete : Prop :=
  (∀ (slc : BitVec 4) (h : DomHdr) (policy : Bytes) (listDigest : BitVec 384) (nonce evidence : Bytes) (certs : List Bytes) (s : State),
    let m : FwMsg := { slice := slc.toNat, plain := true, data := domBytes h 1 (challengeBody policy listDigest nonce evidence certs) }
    s.rcv.fwRunning = true → m ∈ s.link.inbox → (s.domain slc.toNat).state = 0 →
    ∃ t, exec (.rollChallenge slc h policy listDigest nonce evidence certs) s = .next t ∧
      t.domain slc.toNat = { s.domain slc.toNat with held := some { header := h, policy, listDigest, nonce, evidence, certs, at_ := s.now } } ∧
      t.link.inbox = s.link.inbox.erase m ∧ (∀ sl, sl ≠ slc.toNat → t.domain sl = s.domain sl) ∧ t.out = s.out) ∧
  (∀ (slc : BitVec 4) (s : State), ∃ t, exec (.rollChallengeHoldExpiry slc) s = .next t ∧
      t.domain slc.toNat = { s.domain slc.toNat with held := none } ∧ (∀ sl, sl ≠ slc.toNat → t.domain sl = s.domain sl) ∧ t.out = s.out) ∧
  (∀ (slc : BitVec 4) (h : DomHdr) (policy : Bytes) (listDigest : BitVec 384) (nonce evidence : Bytes) (certs : List Bytes) (s : State),
    let sl := slc.toNat
    let d := s.domain sl
    let p := h.sender.toNat
    let m : FwMsg := { slice := sl, plain := true, data := domBytes h 1 (challengeBody policy listDigest nonce evidence certs) }
    let u := updDom sl (fun d => { d with seqIn := d.seqIn.set p h.sequence.toNat }) { s with link := { s.link with inbox := s.link.inbox.erase m } }
    let v := checkEvidence sl p policy nonce evidence certs u
    s.rcv.fwRunning = true → Arrived sl h 1 (challengeBody policy listDigest nonce evidence certs) s → d.state = 1 → d.drk = none →
    fromAbove d p = true → policyOk policy = true → listDigest = Config.sha384 d.list → entOk s = true → pkeRuns s = true → kweRuns s = true →
    d.roll = 0 → d.children = [] → freeSlots s sl ≠ [] →
    ∃ t, exec (.rollChallenge slc h policy listDigest nonce evidence certs) s = .next t ∧
      (v.1 ≠ none → t.domain sl = { d with seqIn := d.seqIn.set p h.sequence.toNat } ∧ t.out = s.out) ∧
      (∀ x, v.1 = none → Config.ecdhAgree ((domainPair sl v.2).pke.get (2 + sl)).seed (evEcdh evidence) = some x →
        (t.domain sl).parent = some p ∧ (t.domain sl).parentSlot ≠ none ∧ (t.domain sl).policy = policy ∧ (t.domain sl).nonce = nonce ∧
        (treeChildren d d.member = [] → (t.domain sl).roll = 2 ∧ SendsMsg sl p 2 (answerBody (t.domain sl).ownEvidence t.atu.certs []) s t) ∧
        (treeChildren d d.member ≠ [] → d.member ∉ treeChildren d d.member → (t.domain sl).roll = 1 ∧
          ∀ m ∈ treeChildren d d.member, ∃ c ∈ (t.domain sl).children, c.member = m ∧ c.adopted = false ∧ c.state = 0))) ∧
  (∀ (slc : BitVec 4) (h : DomHdr) (evidence : Bytes) (certs : List Bytes) (statement : Bytes) (c : Child) (n : Nat) (rest : List Nat) (s : State),
    let sl := slc.toNat
    let d := s.domain sl
    let p := h.sender.toNat
    let m : FwMsg := { slice := sl, plain := true, data := domBytes h 2 (answerBody evidence certs statement) }
    let u := updDom sl (fun d => { d with seqIn := d.seqIn.set p h.sequence.toNat }) { s with link := { s.link with inbox := s.link.inbox.erase m } }
    let v := checkEvidence sl p d.policy d.nonce evidence certs u
    let ok := aggregateOk d p (aliasKeys v.2 certs) statement
    let seed := (v.2.pke.get (2 + sl)).seed
    Arrived sl h 2 (answerBody evidence certs statement) s → d.state = 1 → d.roll = 1 → d.children.find? (fun c => c.member == p) = some c → c.state = 0 →
    pkeRuns s = true → kweRuns s = true → freeSlots s sl = n :: rest →
    ∃ t, exec (.rollAnswer slc h evidence certs statement) s = .next t ∧
      (∀ x, v.1 = none → ok = true → Config.ecdhAgree seed (evEcdh evidence) = some x →
        (t.slot n).key = halyardSecret d (leBytes 32 (Config.mlkemDecaps seed (evCt evidence)).toNat ++ beBytes 48 x.toNat) d.member p ∧
        (∀ c ∈ (t.domain sl).children, c.member = p → c.state = 1 ∧ c.slot = some n ∧ c.evidence = Config.sha384 evidence) ∧
        ((∀ c ∈ d.children, c.member ≠ p → c.state ≠ 0) → d.member ≠ d.masthead → (t.domain sl).roll = 2)) ∧
      ((∃ c ∈ d.children, c.member ≠ p ∧ c.state = 0) → ∀ code, v.1 = some code ∨ v.1 = none ∧ ok = false ∧ code = 0x0A →
        (t.domain sl).exceptions = d.exceptions ++ exceptionEntry p code ∧ (∀ c ∈ (t.domain sl).children, c.member = p → c.state = 2) ∧
        (∀ x ∈ treeChildren d p, x ≠ d.member → ∃ c ∈ (t.domain sl).children, c.member = x))) ∧
  (∀ (slc : BitVec 4) (member : BitVec 12) (c : Child) (s : State),
    let sl := slc.toNat
    let d := s.domain sl
    let m := member.toNat
    d.state = 1 → d.roll = 1 → c ∈ d.children → c.member = m → c.state = 0 → (∃ x ∈ d.children, x.member ≠ m ∧ x.state = 0) →
    ∃ t, exec (.rollAnswerDeadline slc member) s = .next t ∧ (t.domain sl).exceptions = d.exceptions ++ exceptionEntry m 0x01 ∧
      (∀ c ∈ (t.domain sl).children, c.member = m → c.state = 2) ∧
      (∀ x ∈ treeChildren d m, x ≠ d.member → ∃ c ∈ (t.domain sl).children, c.member = x ∧ ((∀ y ∈ d.children, y.member ≠ x) → c.adopted = true ∧ c.state = 0))) ∧
  (∀ (slc : BitVec 4) (s : State), (s.domain slc.toNat).state = 1 → (s.domain slc.toNat).roll = 1 → (s.domain slc.toNat).member = (s.domain slc.toNat).masthead →
    ∃ t, exec (.rollCallTimeout slc) s = .next t ∧ Aborts slc.toNat 8 s t ∧
      ∀ k, (s.domain slc.toNat).formKey = some k → Runs k s → ∃ n, Ended k (if canIssue s then St.formationFailed else St.entropyFailure) n t) ∧
  (∀ (slc : BitVec 4) (at_ : Nat) (s : State), (s.domain slc.toNat).state = 1 → (s.domain slc.toNat).formedAt = some at_ → (s.domain slc.toNat).drk = none →
    ∃ t, exec (.releaseTimeout slc) s = .next t ∧ Aborts slc.toNat 8 s t)

/-- HALYARD_KEY gives a member its domain keys, which it sends on, or acknowledges at once where it has no children; a table that disagrees
aborts, and keys that do not open are reported as failed (R127, R128). An acknowledgement is noted, the last one makes the slice KEYED, and a
missing one costs one resend and then counts as a failure (R128). HALYARD_LIVE makes a KEYED member LIVE (R129). A formation that runs out of
time returns to IDLE in silence (R128). ABORT and DISSOLVE end the slice's domain with their cause and origin (R134-R137). A message that a
member asks for again is sent again (R111). -/
def Obligations.HalyardAndAbortEventsComplete : Prop :=
  (∀ (slc : BitVec 4) (h : DomHdr) (evDigest : BitVec 384) (drkId : BitVec 128) (flags : BitVec 8) (blobs : List Bytes) (evidence table : Bytes)
      (s : State),
    let sl := slc.toNat
    let d := s.domain sl
    let p := h.sender.toNat
    let body := keysBody evDigest drkId flags.toNat blobs evidence table
    let fl := flags.toNat % 4
    let opened := openKeys s sl d.parentSlot 176 blobs
    let ready := d.parentSlot ≠ none ∧ blobs.length = 1 + popcount 2 fl ∧ kweRuns s = true
    Arrived sl h 3 body s → d.parent = some p → (∀ m ∈ d.sent, m.type ≠ 4) → d.state = 1 → d.drk = none →
    ∃ t, exec (.halyardKey slc h evDigest drkId flags blobs evidence table) s = .next t ∧
      (tableOk d evDigest evidence table = false → Aborts sl 8 s t) ∧
      (tableOk d evDigest evidence table = true →
        (¬ ready ∨ (∃ e, opened = .error e) → SendsMsg sl p 4 (ackBody 0 (failEntry d.member 1)) s t ∧ (t.domain sl).drk = none) ∧
        ∀ ks a b c e f rest, ready → opened = .ok ks → freeSlots s sl = a :: b :: c :: e :: f :: rest →
          (∀ n, d.parentSlot = some n → (s.slot n).valid = true) →
          (t.domain sl).drk = some a ∧ (t.domain sl).dlk = some e ∧ (t.domain sl).rmk = some f ∧ (t.slot a).key = ks.headD 0 ∧ (t.slot a).wrapId = drkId ∧
          (t.domain sl).evidence = evidence ∧ (t.domain sl).digestTable = table ∧ (t.domain sl).included = tableCount table ∧
          (t.domain sl).fenceMs = field evidence 0x100 4 ∧ (t.domain sl).provable = true ∧
          ((∃ c ∈ d.children, c.state = 1 ∧ c.slot ≠ none ∧ c.ack < 2) → (t.domain sl).state = 1 ∧ (t.domain sl).roll = 3) ∧
          (d.children = [] → d.member ≠ d.masthead → (t.domain sl).state = 2 ∧ (t.domain sl).parentSlot = none ∧ SendsMsg sl p 4 (ackBody 1 []) s t))) ∧
  (∀ (slc : BitVec 4) (h : DomHdr) (evDigest : BitVec 384) (drkId : BitVec 128) (flags : BitVec 8) (blobs : List Bytes) (evidence table : Bytes)
      (m : SentMsg) (s : State),
    Arrived slc.toNat h 3 (keysBody evDigest drkId flags.toNat blobs evidence table) s → (s.domain slc.toNat).parent = some h.sender.toNat →
    (s.domain slc.toNat).sent.reverse.find? (fun m => m.type == 4) = some m →
    ∃ t, exec (.halyardKey slc h evDigest drkId flags blobs evidence table) s = .next t ∧ SendsMsg slc.toNat h.sender.toNat 4 m.body s t) ∧
  (∀ (slc : BitVec 4) (h : DomHdr) (keyed : BitVec 16) (fails : List (BitVec 16 × BitVec 8)) (c : Child) (s : State),
    let sl := slc.toNat
    let d := s.domain sl
    let fs := fails.flatMap (fun f => failEntry f.1.toNat f.2.toNat)
    Arrived sl h 4 (ackBody keyed.toNat fs) s → d.roll = 3 → c ∈ d.children → c.member = h.sender.toNat → c.state = 1 → c.ack = 1 →
    ∃ t, exec (.halyardAck slc h keyed fails) s = .next t ∧
      ((∃ x ∈ d.children, x.member ≠ c.member ∧ x.state = 1 ∧ x.ack < 2) → (t.domain sl).roll = 3 ∧
        ∀ c ∈ (t.domain sl).children, c.member = h.sender.toNat → c.ack = 2 ∧ c.keyed = keyed.toNat ∧ c.failed = fs) ∧
      (d.children = [c] → d.member = d.masthead → fails = [] → 1 + keyed.toNat = d.included → (t.domain sl).state = 2 ∧
        ∀ k, d.releaseKey = some k → Runs k s → Ended k St.success 0 t)) ∧
  (∀ (slc : BitVec 4) (member : BitVec 12) (c : Child) (s : State),
    let sl := slc.toNat
    let d := s.domain sl
    d.children.find? (fun c => c.member == member.toNat && c.state == 1 && c.ack == 1) = some c →
    ∃ t, exec (.halyardAckDeadline slc member) s = .next t ∧
      (c.resent = false → c.slot ≠ none → (∃ body, SendsMsg sl member.toNat 3 body s t) ∧
        ∀ c ∈ (t.domain sl).children, c.member = member.toNat → c.resent = true) ∧
      (c.resent = true → d.roll = 3 → d.children = [c] → (d.member = d.masthead → d.state = 1 → Aborts sl 8 s t) ∧
        ∀ p, d.member ≠ d.masthead → d.parent = some p → (t.domain sl).state = 2 ∧
          SendsMsg sl p 4 (ackBody (1 + c.keyed) (failEntry member.toNat 2)) s t)) ∧
  (∀ (slc : BitVec 4) (h : DomHdr) (s : State), Arrived slc.toNat h 5 [] s → (s.domain slc.toNat).state = 2 →
    (s.domain slc.toNat).parent = some h.sender.toNat →
    ∃ t ms, exec (.halyardLive slc h) s = .next t ∧ (t.domain slc.toNat).state = 3 ∧ t.pins.domLive = true ∧
      (t.domain slc.toNat).sent = (s.domain slc.toNat).sent ++ ms ∧
      ms.map (fun m => (m.dest, m.type, m.body)) = ((s.domain slc.toNat).children.filter (·.state == 1)).map (fun c => (c.member, 5, [])) ∧
      (∀ sl, sl ≠ slc.toNat → t.domain sl = s.domain sl)) ∧
  (∀ (slc : BitVec 4) (s : State), (s.domain slc.toNat).state = 1 → s.kst.dflt = {} →
    ∃ t, exec (.formationTimeout slc) s = .next t ∧ (t.domain slc.toNat).state = 0 ∧ (t.domain slc.toNat).drk = none ∧ (t.domain slc.toNat).sent = [] ∧
      (t.domain slc.toNat).abortCount = (s.domain slc.toNat).abortCount ∧ ∀ n, inPartition s slc.toNat n = true → t.slot n = {}) ∧
  (∀ (slc : BitVec 4) (h : DomHdr) (cause flags : BitVec 8) (origin : BitVec 16) (detail : BitVec 32) (s : State),
    Arrived slc.toNat h 6 (abortBody cause.toNat flags.toNat origin.toNat detail.toNat) s → 1 ≤ cause.toNat → cause.toNat ≤ 9 → s.kst.dflt = {} →
    ∃ t, exec (.abort slc h cause flags origin detail) s = .next t ∧ (t.domain slc.toNat).state = 0 ∧ (t.domain slc.toNat).abortCause = cause.toNat ∧
      (t.domain slc.toNat).abortOrigin = origin.toNat ∧ (t.domain slc.toNat).abortCount = (s.domain slc.toNat).abortCount + 1 ∧
      ∀ n, inPartition s slc.toNat n = true → t.slot n = {}) ∧
  (∀ (slc : BitVec 4) (h : DomHdr) (s : State), Arrived slc.toNat h 7 [] s → s.kst.dflt = {} →
    ∃ t, exec (.dissolve slc h) s = .next t ∧ (t.domain slc.toNat).state = 0 ∧ (t.domain slc.toNat).abortCause = 0 ∧
      (t.domain slc.toNat).abortOrigin = (s.domain slc.toNat).masthead ∧ (t.domain slc.toNat).abortCount = (s.domain slc.toNat).abortCount ∧
      ∀ n, inPartition s slc.toNat n = true → t.slot n = {}) ∧
  (∀ (slc : BitVec 4) (h : DomHdr) (type : BitVec 16) (sequence : BitVec 64) (m : SentMsg) (s : State),
    Arrived slc.toNat h 8 (leBytes 2 type.toNat ++ leBytes 8 sequence.toNat) s →
    (s.domain slc.toNat).sent.find? (fun m => m.dest == h.sender.toNat && m.type == type.toNat && m.seq == sequence.toNat) = some m →
    ∃ t, exec (.domainResend slc h type sequence) s = .next t ∧ SendsMsg slc.toNat h.sender.toNat type.toNat m.body s t)

/-- SLICE_CREATE gives the slice the record of its creation (R407-R409), a migration target with its evidence (R428); SLICE_RESET leaves it
ACTIVE and empty, with its slots zeroized, SMR cleared, its PASID entries withdrawn and its TDI in ERROR (R374, R406); CONTEXT_BIND and
CONTEXT_UNBIND set and clear a binding (R338); CONTEXT_KILL ends the context's commands, is counted, and completes unless the key-work engine
still runs for the context (R486, R501); USAGE_REPORT writes the signed record under the next sequence number and restarts the period where it
is asked to (R424, R425). SLICE_RELEASE frees the slice, and an admitted guarantee, share or way quota is recorded (R411-R417). -/
def Obligations.SliceCommandsComplete : Prop :=
  (∀ (h : CmdHdr) (specBva : BitVec 64) (record : Bytes) (s : State), Starts h 0x0600 [(0x18, 8, specBva.toNat)] s →
    let b := fit 512 record
    let sl := field b 6 1
    aligned8 specBva = true → firstFail (createChecks s b) = none →
    ∃ t, exec (.sliceCreate h specBva none record) s = .next t ∧ Ended h.key St.success 0 t ∧
      { t.slice sl with migEvidence := [] } = newSlice s b ∧ (t.slice sl).state = (if field b 7 1 = 1 then 4 else 1) ∧
      (field b 7 1 ≠ 1 → (t.slice sl).migEvidence = []) ∧
      t.atu.smr.get sl = extend (s.atu.smr.get sl) (Config.sha384 b) ∧ t.tdi.get sl = 0 ∧
      (∀ n, n ≠ sl → t.slice n = (s.started h).slice n)) ∧
  (∀ (h : CmdHdr) (s : State), let sl := hdrSlice h
    Starts h 0x0601 [] s → (s.slice sl).state ≠ 0 → Fresh h.key s → OutsideQueues h.key sl s → s.kst.dflt = {} →
    ∃ t, exec (.sliceReset h) s = .next t ∧ Ended h.key St.success 0 t ∧ (t.slice sl).state = 1 ∧ (t.slice sl).published = false ∧ t.tdi.get sl = 3 ∧
      t.atu.smr.get sl = 0 ∧ (t.domain sl).state = 0 ∧ t.xlt.s2root.get sl = 0 ∧ (∀ e ∈ t.xlt.tlb, e.set ≠ sl) ∧
      t.rcv.sliceResets.get sl = s.rcv.sliceResets.get sl + 1 ∧ ∀ n, inPartition s sl n = true → t.slot n = {}) ∧
  (∀ (h : CmdHdr) (context : BitVec 16) (pasid : BitVec 32) (s : State), Starts h 0x0607 [(0x18, 2, context.toNat), (0x1C, 4, pasid.toNat)] s →
    context ≠ 0 → s.cex.bindings.get context.toNat = none → pasid.toNat ∈ (s.slice (hdrSlice h)).pasids →
    (s.cex.bindings.findAll (fun _ b => b.isSome)).length < 4096 →
    ∃ t, exec (.contextBind h context pasid) s = .next t ∧ Ended h.key St.success 0 t ∧
      t.cex.bindings.get context.toNat = some { slice := hdrSlice h, pasid := pasid.toNat } ∧
      (∀ c, c ≠ context.toNat → t.cex.bindings.get c = s.cex.bindings.get c)) ∧
  (∀ (h : CmdHdr) (context : BitVec 16) (b : Binding) (s : State), Starts h 0x0608 [(0x18, 2, context.toNat)] s →
    s.cex.bindings.get context.toNat = some b → b.slice = hdrSlice h → contextInFlight s context.toNat = false →
    ∃ t, exec (.contextUnbind h context) s = .next t ∧ Ended h.key St.success 0 t ∧ t.cex.bindings.get context.toNat = none ∧
      (∀ c, c ≠ context.toNat → t.cex.bindings.get c = s.cex.bindings.get c)) ∧
  (∀ (h : CmdHdr) (context : BitVec 16) (s : State), let c := context.toNat
    Starts h 0x0609 [(0x18, 2, c)] s → sliceOf s c = some (hdrSlice h) → s.cex.kills = [] → Fresh h.key s →
    (∀ e ∈ s.cex.groups.ents, e.2.waits = []) →
    ∃ t, exec (.contextKill h context) s = .next t ∧ t.rcv.lastKilled.get (hdrSlice h) = c ∧
      t.rcv.contextKills.get (hdrSlice h) = s.rcv.contextKills.get (hdrSlice h) + 1 ∧
      (∀ k ∈ commandsOf s c (some h.key), Runs k s → Ended k St.contextKilled 0 t) ∧
      (kweHolds s c = false → Ended h.key St.success 0 t ∧ t.cex.kills = []) ∧
      (kweHolds s c = true → Runs h.key t ∧ t.cex.kills = [(some h.key, c)])) ∧
  (∀ (h : CmdHdr) (out : BitVec 64) (opt : BitVec 8) (s : State), Starts h 0x060A [(0x18, 8, out.toNat), (0x20, 1, opt.toNat)] s →
    let sl := hdrSlice h
    let z := s.started h
    aligned8 out = true → (s.slice sl).state ≠ 0 → entOk s = true → pkeRuns s = true →
    ∃ t, exec (.usageReport h out opt none) s = .next t ∧ Ended h.key St.success 0 t ∧
      t.out = s.out ++ [.dma (tableSet s h.ctx.toNat) out.toNat (signed "PELGEN-S4/USAGE" (usageBody z sl (bit opt.toNat 0)) z).1] ∧
      (t.slice sl).usage = (if bit opt.toNat 0 then { seq := (s.slice sl).usage.seq + 1, periodStart := s.now }
        else { (z.slice sl).usage with seq := (s.slice sl).usage.seq + 1 })) ∧
  (∀ (who : Principal) (slc : BitVec 4) (s : State), s.rcv.fwRunning = true → mayWrite who [1] s = true → releasable s slc.toNat = true →
    tdiLocked s slc.toNat = false →
    ∃ (l : List OutMsg) (t : State), exec (.sliceRelease who slc true) s = .next t ∧ t.out = s.out ++ l ++ [.dictStatus who St.success] ∧
      t.slice slc.toNat = {} ∧ t.ods.requests = s.ods.requests + 1 ∧ t.ods.refused = s.ods.refused) ∧
  (∀ (who : Principal) (slc : BitVec 4) (sub : BitVec 8) (value : Bytes) (s : State), s.rcv.fwRunning = true → mayWrite who [1] s = true →
    (s.slice slc.toNat).state ≠ 0 → tdiLocked s slc.toNat = false → sub = 6 ∧ value.length = 24 ∨ sub = 8 ∧ value.length = 4 →
    let r := if sub = 6 then { s.slice slc.toNat with wheel := perEngine s (fun e => field value (2 * e) 2) }
      else { s.slice slc.toNat with shares := (List.range 4).foldl (fun t u => t.set u (field value u 1)) (Tbl.const 0) }
    let ok := admitted (updSlice slc.toNat (fun _ => r) s)
    ∃ t, exec (.sliceRecordWrite who slc sub value) s = .next t ∧ t.out = s.out ++ [.dictStatus who (if ok then St.success else St.resourceExhausted)] ∧
      t.slice slc.toNat = (if ok then r else s.slice slc.toNat) ∧ (∀ n, n ≠ slc.toNat → t.slice n = s.slice n)) ∧
  (∀ (who : Principal) (slc : BitVec 4) (value : Bytes) (s : State), s.rcv.fwRunning = true → mayWrite who [1] s = true → value.length = 12 →
    (s.slice slc.toNat).state ≠ 0 → (holdsTree s slc.toNat = true → ∀ e < 12, populated s e = true → 4 ≤ field value e 1) → tdiLocked s slc.toNat = false →
    let r := { s.slice slc.toNat with ways := perEngine s (fun e => field value e 1) }
    admitted (updSlice slc.toNat (fun _ => r) s) = true →
    ∃ (l : List OutMsg) (t : State), exec (.mcWayQuotaWrite who slc value) s = .next t ∧ t.out = s.out ++ l ++ [.dictStatus who St.success] ∧
      t.slice slc.toNat = r ∧ (∀ n, n ≠ slc.toNat → t.slice n = s.slice n))

/-- SLICE_FREEZE withdraws the slice's waits and starts the freeze (R426, R427); SLICE_SAVE checks its recipient's evidence, reads the lines of
the slice's regions, and then writes the save blob and leaves the slice SAVED (R429, R430, R435); SLICE_RESTORE answers the status of the first
check that fails, or makes the target slice RESTORED (R431, R432); SLICE_COMMIT empties the source and SLICE_THAW returns the slice to ACTIVE,
aborting the domain of a saved one (R433). -/
def Obligations.MigrationCommandsComplete : Prop :=
  (∀ (h : CmdHdr) (s : State), let sl := hdrSlice h
    Starts h 0x0602 [] s → (s.slice sl).state = 1 → (s.slice sl).freezing = none → freezeRefused s sl = false → Fresh h.key s →
    ∃ t, exec (.sliceFreeze h) s = .next t ∧ Runs h.key t ∧ (t.slice sl).freezing = some h.key ∧ (t.slice sl).state = 1 ∧ t.tdi.get sl = 3 ∧
      (∀ w ∈ t.cex.waits, ¬(w.slice = sl ∧ (w.kind = 1 ∨ w.kind = 2))) ∧
      (t.slice sl).withdrawn.map (·.key) =
        ((s.slice sl).withdrawn ++ s.cex.waits.filter (fun w => w.slice == sl && (w.kind == 1 || w.kind == 2))).map (·.key)) ∧
  (∀ (h : CmdHdr) (out outLen rcptBva : BitVec 64) (bundle : Bytes) (s : State),
    let sl := hdrSlice h
    let d := s.domain sl
    let rcpt := slice bundle 0 1665
    let ev := slice bundle 0x688 8755
    let v := checkEvidenceOf false sl d.member d.policy (migrationNonce d.id d.attempt d.member (digestBytes s.atu.deviceIdDigest)) ev
      (bundleCerts 4 (bundle.drop 0x28BB)) (s.started h)
    Starts h 0x0603 [(0x18, 8, out.toNat), (0x20, 8, outLen.toNat), (0x28, 8, rcptBva.toNat)] s →
    aligned8 out = true → aligned8 rcptBva = true → (s.slice sl).state = 2 → keyed s sl = true → (s.slice sl).migrations < 8 → Fresh h.key s →
    ∃ t, exec (.sliceSave h out outLen rcptBva none bundle) s = .next t ∧
      (∀ code, v.1 = some code → Ended h.key St.policyFailure code t ∧ t.out = s.out) ∧
      (v.1 = none → rcpt ≠ evEk ev ++ evEcdh ev → Ended h.key St.policyFailure 4 t ∧ t.out = s.out) ∧
      (v.1 = none → rcpt = evEk ev ++ evEcdh ev → saveTotal s sl ≤ outLen.toNat → entOk v.2 = true → pkeRuns v.2 = true → kweRuns v.2 = true →
        (freePke s).isSome = true → (blobSlot s sl).isSome = true →
        (blockDone t h.key = false → Runs h.key t ∧ { key := h.key, buffers := [rcpt, ev] } ∈ t.mem.gathers) ∧
        (saveReads s sl = [] → ∀ p w b key, saveData (dataLines s sl) (fun _ => none) = some p →
          saveSlice sl rcpt ev p (dropBlocks h.key v.2) = (w, some (b, key)) → blockDone s h.key = true →
          Ended h.key St.success b.length t ∧ t.out = w.out ++ [.dma (tableSet s h.ctx.toNat) out.toNat b] ∧
          (t.slice sl).state = 3 ∧ (t.slice sl).migrations = (s.slice sl).migrations + 1))) ∧
  (∀ (h : CmdHdr) (out outLen rcptBva : BitVec 64) (bundle : Bytes) (x : Option XFault) (g : Gather) (s : State),
    let sl := hdrSlice h
    let u := dropBlocks h.key s
    InHand h 0x0603 [(0x18, 8, out.toNat), (0x20, 8, outLen.toNat), (0x28, 8, rcptBva.toNat)] s →
    s.mem.gathers.find? (fun g => g.key == h.key) = some g → blockDone s h.key = true → (s.slice sl).state = 2 → entOk s = true → pkeRuns s = true →
    kweRuns s = true → (freePke s).isSome = true → (blobSlot s sl).isSome = true →
    ∃ t, exec (.sliceSave h out outLen rcptBva x bundle) s = .next t ∧ (∀ y ∈ t.mem.gathers, y.key ≠ h.key) ∧
      (saveData (dataLines s sl) (blockAt s h.key) = none → Ended h.key St.regionState 0 t ∧ t.out = s.out) ∧
      (∀ p, saveData (dataLines s sl) (blockAt s h.key) = some p →
        ∀ w r, saveSlice sl (g.buffers.headD []) (g.buffers.getD 1 []) p u = (w, r) →
          (r = none → Ended h.key St.invalidOperand 0 t) ∧
          (∀ b key, r = some (b, key) → Ended h.key St.success b.length t ∧ t.out = w.out ++ [.dma (tableSet s h.ctx.toNat) out.toNat b] ∧
            (t.slice sl).state = 3 ∧ (t.slice sl).migrations = (s.slice sl).migrations + 1))) ∧
  (∀ (h : CmdHdr) (blobBva blobLen : BitVec 64) (blob placement : Bytes) (s : State),
    let sl := hdrSlice h
    let z := s.started h
    let ps := placements (field (s.slice sl).creation 0x1A8 2) placement
    let checked := checkBlob z sl blob [kindSave] blobLen.toNat none (2 + sl)
    Starts h 0x0604 [(0x18, 8, blobBva.toNat), (0x20, 8, blobLen.toNat)] s → (s.q h.key).state ≠ 0 →
    aligned8 blobBva = true → (s.slice sl).state = 4 → kweRuns s = true → (blobSlot s sl).isSome = true → Fresh h.key s →
    ∃ t, exec (.sliceRestore h blobBva blobLen none blob placement) s = .next t ∧
      (∀ e, checked = .error e → Ended h.key e 0 t ∧ t.slice sl = z.slice sl) ∧
      (∀ key p, checked = .ok key → openBlob key blob = (p, false) → Ended h.key St.tagFailure 0 t ∧ (t.slice sl).state = 1) ∧
      (∀ key p, checked = .ok key → openBlob key blob = (p, true) →
        (Config.readSave ([1, 3, 4, 5, 6, 7, 8].map (saveSectionAt p)) = none → Ended h.key St.blobFormat 0 t ∧ (t.slice sl).state = 1) ∧
        (∀ v u, Config.readSave ([1, 3, 4, 5, 6, 7, 8].map (saveSectionAt p)) = some v →
          let y := (withBlobSlot sl h.ctx.toNat key z (fun s => (s, 0, 0))).1
          firstFail (restoreChecks y sl v) = none → placeAll sl ps v.regions y = .ok u →
          (t.slice sl).state = 5 ∧ (t.slice sl).usage.migratedIn = true ∧ (t.slice sl).migChain = saveSectionAt p 10))) ∧
  (∀ (h : CmdHdr) (s : State), let sl := hdrSlice h
    Starts h 0x0605 [] s → (s.slice sl).state = 3 → Fresh h.key s → OutsideQueues h.key sl s → s.kst.dflt = {} →
    ∃ t, exec (.sliceCommit h) s = .next t ∧ Ended h.key St.success 0 t ∧ (t.slice sl).state = 1 ∧ (t.slice sl).withdrawn = [] ∧
      (t.domain sl).state = 0 ∧ ∀ n, inPartition s sl n = true → t.slot n = {}) ∧
  (∀ (h : CmdHdr) (s : State), Starts h 0x0606 [] s → (s.slice (hdrSlice h)).state = 5 ∨ (s.slice (hdrSlice h)).state = 2 → Fresh h.key s →
    (∀ w ∈ (s.slice (hdrSlice h)).withdrawn, w.key ≠ h.key) →
    ∃ t, exec (.sliceThaw h) s = .next t ∧ Ended h.key St.success 0 t ∧ (t.slice (hdrSlice h)).state = 1 ∧ (t.slice (hdrSlice h)).withdrawn = [] ∧
      t.dom = s.dom) ∧
  (∀ (h : CmdHdr) (s : State), Starts h 0x0606 [] s → (s.slice (hdrSlice h)).state = 3 → keyed s (hdrSlice h) = true →
    ∃ t, exec (.sliceThaw h) s = .next t ∧ Ended h.key St.success 0 t ∧ (t.slice (hdrSlice h)).state = 1 ∧ Aborts (hdrSlice h) 9 s t)

/-- COPY reads its lines, then writes every one (R376, R386); IMPORT answers the status of the first check that fails, or writes the blob's
payload (R76, R77, R377); EXPORT reads the lines of its extents, then writes a blob (R73-R75, R375-R377); XLT_INVALIDATE drops the
translations in its scope (R396). A translated access is presented with its output address (R386, R393); a walk's descriptor leads to the
next read or to a TLB entry (R391-R393). A root write takes effect (R397, R405), and so does the flush of the certificate cache (R122). -/
def Obligations.TransferAndTranslationComplete : Prop :=
  (∀ (h : CmdHdr) (src dst len : BitVec 64) (lines : List CopyLine) (s : State),
    let ops := [(0x18, 8, src.toNat), (0x20, 8, dst.toNat), (0x28, 8, len.toNat)]
    Starts h 0x0700 ops s → 128 ≤ len.toNat → len.toNat ≤ 2 ^ 40 → len.toNat % 128 = 0 → src.toNat % 128 = 0 → dst.toNat % 128 = 0 →
    lines.length = len.toNat / 128 → Fresh h.key s → (∀ b ∈ s.mem.blocks, b.key ≠ h.key) → blockDone s h.key = true →
    ∃ t, exec (.copy h src dst len none lines) s = .next t ∧
      (blockDone t h.key = false → Runs h.key t ∧ { key := h.key, lines } ∈ t.mem.gathers) ∧
      ((∀ l ∈ lines, l.src.getLsbD 51 = true ∧ l.dst.getLsbD 51 = true ∧ l.outside.isSome = true) → Ended h.key St.success 0 t ∧ t.mem = s.mem ∧
        t.out = s.out ++ lines.map (fun l => .dma (tableSet s h.ctx.toNat) (l.dst.toNat % 2 ^ 51) (fit 128 (l.outside.getD [])))) ∧
      (∀ l ls, lines = l :: ls → l.src.getLsbD 51 = true → l.outside = none → copySources lines = [] →
        Ended h.key St.regionState 0 t ∧ t.out = s.out ∧ t.mem = s.mem)) ∧
  (∀ (h : CmdHdr) (src dst len : BitVec 64) (x : Option XFault) (ls : List CopyLine) (g : Gather) (s : State),
    let ops := [(0x18, 8, src.toNat), (0x20, 8, dst.toNat), (0x28, 8, len.toNat)]
    let data (e : CopyLine × Nat) : Option Line := if e.1.src.getLsbD 51 then e.1.outside else blockAt s h.key e.2
    let r := (g.lines.zipIdx.map (fun e => (e.1.dst, data e))).foldl (copyLine (tableSet s h.ctx.toNat)) (dropBlocks h.key s, true)
    InHand h 0x0700 ops s → s.mem.gathers.find? (fun g => g.key == h.key) = some g → blockDone s h.key = true → g.lines.length = len.toNat / 128 →
    ∃ t, exec (.copy h src dst len x ls) s = .next t ∧ t.mem = r.1.mem ∧ t.out = r.1.out ∧
      (Runs h.key r.1 → Ended h.key (if r.2 then St.success else St.regionState) 0 t) ∧
      ((∀ e ∈ g.lines.zipIdx, e.1.dst.getLsbD 51 = true ∧ (data e).isSome = true) → Ended h.key St.success 0 t ∧
        t.out = s.out ++ g.lines.zipIdx.map (fun e => .dma (tableSet s h.ctx.toNat) (e.1.dst.toNat % 2 ^ 51) (fit 128 ((data e).getD []))))) ∧
  (∀ (h : CmdHdr) (blobBva blobLen listBva : BitVec 64) (wrapSlot : BitVec 16) (list blob : Bytes) (s : State),
    let sl := hdrSlice h
    let z := s.started h
    let es := extents list
    let rs := listRegions es
    let checked := checkBlob z sl blob [2, 3, 5] blobLen.toNat (if wrapSlot = 0xFFFF then none else some wrapSlot.toNat) (2 + sl)
    Starts h 0x0701 [(0x18, 8, blobBva.toNat), (0x20, 8, blobLen.toNat), (0x28, 8, listBva.toNat), (0x30, 2, wrapSlot.toNat)] s →
    aligned8 blobBva = true → aligned8 listBva = true → firstFail (listChecks s sl list true) = none → es.all (saveCovers s) = true →
    (∀ r ∈ rs, (s.region r).state = 1 ∨ (s.region r).state = 3) → (wrapSlot ≠ 0xFFFF → firstFail (srcChecks s sl wrapSlot.toNat Slot.drv) = none) →
    kweRuns s = true → payloadLen es = Sys2Proof.Machine.blobLen blob → (blobSlot s sl).isSome = true → (∀ r ∈ rs, importRefusal s r = none) →
    boundAgrees s rs (field blob 0x50 16) = true →
    ∃ t, exec (.importBlob h blobBva blobLen listBva wrapSlot none list blob) s = .next t ∧
      (∀ e, checked = .error e → Ended h.key e 0 t ∧ t.mem = s.mem ∧ t.out = s.out) ∧
      (∀ bk, checked = .ok bk →
        let r := withBlobSlot sl h.ctx.toNat bk z (fun s => let b := importBody sl es bk blob s; (b.1, b.2, 0))
        t.mem = r.1.mem ∧ t.out = r.1.out ∧ (Runs h.key r.1 → Ended h.key r.2.1 0 t) ∧
        (r.2.1 = St.success → ∀ n ∈ rs, (s.region n).state = 1 → (r.1.region n).state = 1 → (t.region n).state = 1))) ∧
  (∀ (h : CmdHdr) (out outLen listBva : BitVec 64) (wrapSlot : BitVec 16) (kind log2 method : BitVec 8) (list rcpt : Bytes) (s : State),
    let sl := hdrSlice h
    let es := extents list
    let n := payloadLen es
    let m := method.toNat
    let l := if log2 = 0 then 21 else log2.toNat
    let ops := [(0x18, 8, out.toNat), (0x20, 8, outLen.toNat), (0x28, 8, listBva.toNat), (0x30, 2, wrapSlot.toNat), (0x32, 1, kind.toNat),
      (0x33, 1, log2.toNat), (0x34, 1, m)]
    Starts h 0x0702 ops s → kind.toNat ∈ [2, 3, 5] → m = 1 ∧ wrapSlot ≠ 0xFFFF ∨ m = 2 ∧ wrapSlot = 0xFFFF → 16 ≤ l → l ≤ 24 → aligned8 out = true →
    aligned8 listBva = true → firstFail (listChecks s sl list false) = none → kind.toNat ≠ 5 ∨ field list 0x10 16 = 0 →
    (if m = 1 then field list 0x20 8 = 0 else field list 0x20 8 % 8 = 0) → (∀ r ∈ listRegions es, (s.region r).state = 1 ∨ (s.region r).state = 2) →
    (if m = 2 then 1824 else 128) + n + 16 * chunkCount n l ≤ outLen.toNat → firstFail (exportKeys s sl m wrapSlot.toNat) = none →
    ∃ t, exec (.exportBlob h out outLen listBva wrapSlot kind log2 method none list rcpt) s = .next t ∧
      (blockDone t h.key = false → Runs h.key t ∧ { key := h.key, buffers := [list, rcpt] } ∈ t.mem.gathers)) ∧
  (∀ (h : CmdHdr) (out outLen listBva : BitVec 64) (wrapSlot : BitVec 16) (kind log2 method : BitVec 8) (x : Option XFault) (list rcpt : Bytes) (g : Gather)
      (s : State),
    let sl := hdrSlice h
    let m := method.toNat
    let l := if log2 = 0 then 21 else log2.toNat
    let u := dropBlocks h.key s
    let ops := [(0x18, 8, out.toNat), (0x20, 8, outLen.toNat), (0x28, 8, listBva.toNat), (0x30, 2, wrapSlot.toNat), (0x32, 1, kind.toNat),
      (0x33, 1, log2.toNat), (0x34, 1, m)]
    InHand h 0x0702 ops s → s.mem.gathers.find? (fun g => g.key == h.key) = some g → blockDone s h.key = true →
    firstFail (exportKeys s sl m wrapSlot.toNat) = none →
    let payload := exportPayload (extents (g.buffers.headD [])) (blockAt s h.key)
    ∃ t, exec (.exportBlob h out outLen listBva wrapSlot kind log2 method x list rcpt) s = .next t ∧ (∀ y ∈ t.mem.gathers, y.key ≠ h.key) ∧
      (payload = none → Ended h.key St.regionState 0 t ∧ t.out = s.out) ∧
      (∀ p, payload = some p →
        let e := exportBlob sl m wrapSlot.toNat kind.toNat l (g.buffers.headD []) (g.buffers.getD 1 []) p u
        (e.1 = none → Ended h.key St.invalidOperand 0 t) ∧
        (∀ b key, e.1 = some (b, key) → Ended h.key St.success b.length t ∧ t.out = s.out ++ [.dma (tableSet s h.ctx.toNat) out.toNat b]) ∧
        (m = 1 → ∃ nonce : BitVec 64, e.1.map (·.1) = some (sealSym (s.slot wrapSlot.toNat).key {
          kind := kind.toNat, method := 1, domain := blobDomain s sl, len := p.length, log2 := l, attr := 0
          sequence := field (g.buffers.headD []) 8 8, nonce, wrapId := (s.slot wrapSlot.toNat).wrapId
          bound := field (g.buffers.headD []) 0x10 16 } p)))) ∧
  (∀ (h : CmdHdr) (bva : BitVec 64) (sizeLog2 scope : BitVec 8) (pasid : BitVec 32) (s : State),
    Starts h 0x0800 [(0x18, 8, bva.toNat), (0x20, 1, sizeLog2.toNat), (0x21, 1, scope.toNat), (0x24, 4, pasid.toNat)] s →
    let base := bva.toNat / 2 ^ sizeLog2.toNat * 2 ^ sizeLog2.toNat
    scope.toNat ≤ 3 → (scope = 0 ∨ scope = 2 → 12 ≤ sizeLog2.toNat ∧ sizeLog2.toNat ≤ 40) →
    2 ≤ scope.toNat ∨ pasid.toNat ∈ (s.slice (hdrSlice h)).pasids → s.xlt.invalidating = [] →
    ∃ t, exec (.xltInvalidate h bva sizeLog2 scope pasid) s = .next t ∧
      t.xlt.tlb = s.xlt.tlb.filter (fun e => !inScope scope.toNat (hdrSlice h) pasid.toNat base sizeLog2.toNat e) ∧
      t.xlt.invalidations = s.xlt.invalidations + 1 ∧
      (walkInScope scope.toNat (hdrSlice h) pasid.toNat base sizeLog2.toNat s = false → Ended h.key St.success 0 t ∧ t.xlt.invalidating = []) ∧
      (walkInScope scope.toNat (hdrSlice h) pasid.toNat base sizeLog2.toNat s = true → Runs h.key t ∧ t.xlt.invalidating.map (·.1) = [h.key])) ∧
  (∀ (set : BitVec 5) (pasid : BitVec 20) (stage1 : Bool) (bva : BitVec 64) (read write ring : Bool) (key : Option CmdKey) (e : TlbEntry) (s : State),
    let r := dmaReq set pasid stage1 bva read write ring key
    set.toNat ≤ 16 → s.xlt.tlb.find? (fun e => e.hits r) = some e → permits e.read e.write r = true →
    admitOa s set.toNat (e.oa + (bva.toNat - e.page)) (isPrivate r e.shared) write = none →
    ∃ t, exec (.blockDmaAccess set pasid stage1 bva read write ring key) s = .next t ∧
      t.out = s.out ++ [.access (dmaRequester set.toNat) set.toNat (e.oa + (bva.toNat - e.page)) write] ∧ t.xlt.hits = s.xlt.hits + 1) ∧
  (∀ (walker : BitVec 3) (d : BitVec 64) (w w' : Walk) (s : State), s.xlt.walkers.get walker.toNat = some w → walkStep s w d.toNat = .ok (.inl w') →
    checkRead s w' = none →
    ∃ t, exec (.tableWalkRead walker (some d)) s = .next t ∧ t.xlt.walkers.get walker.toNat = some w' ∧
      t.out = s.out ++ [.access (dmaRequester w'.req.set) w'.req.slice (nextRead w').1 false]) ∧
  (∀ (walker : BitVec 3) (d : BitVec 64) (w : Walk) (l : Leaf) (n : Nat) (s : State), s.xlt.walkers.get walker.toNat = some w →
    walkStep s w d.toNat = .ok (.inr (l, n)) → w.joined = [] → w.leaf1 = none → permits l.read l.write w.req = true → s.xlt.waiting = [] →
    s.xlt.invalidating = [] →
    let e := combine w l s.xlt.useCtr
    admitOa s w.req.set (e.oa + (w.req.bva - e.page)) (isPrivate w.req e.shared) w.req.write = none →
    ∃ t, exec (.tableWalkRead walker (some d)) s = .next t ∧ t.xlt.walkers.get walker.toNat = none ∧ e ∈ t.xlt.tlb ∧
      t.out = s.out ++ [.access (dmaRequester w.req.set) w.req.slice (e.oa + (w.req.bva - e.page)) w.req.write]) ∧
  (∀ (who : Principal) (set : BitVec 5) (ix : BitVec 6) (value : BitVec 64) (s : State), s.rcv.fwRunning = true → mayWrite who [1] s = true → set.toNat ≤ 16 →
    (set.toNat < 16 → tdiLocked s set.toNat = false) → value.toNat = baseOf value.toNat + value.toNat % 2 → (∀ i, i < 8 → s.xlt.walkers.get i = none) →
    s.xlt.waiting = [] →
    ∃ t, exec (.s2RootWrite who false set ix value) s = .next t ∧ t.xlt.s2root.get set.toNat = value.toNat ∧ (∀ e ∈ t.xlt.tlb, e.set ≠ set.toNat) ∧
      t.out = s.out ++ [.dictStatus who St.success]) ∧
  (∀ (who : Principal) (set : BitVec 5) (ix : BitVec 6) (value : BitVec 64) (s : State), s.rcv.fwRunning = true → mayWrite who [1, 5] s = true → set.toNat < 16 →
    (∀ m, who = .slice m → m.toNat = set.toNat) → (who = .hostk → tdiLocked s set.toNat = false) →
    value.toNat = baseOf value.toNat + value.toNat % 2 → (∀ i, i < 8 → s.xlt.walkers.get i = none) → s.xlt.waiting = [] →
    ∃ t, exec (.s2RootWrite who true set ix value) s = .next t ∧ t.xlt.s1root.get (set.toNat * 64 + ix.toNat) = value.toNat ∧
      (∀ e ∈ t.xlt.tlb, ¬ (e.set = set.toNat ∧ (s.slice set.toNat).pasids[ix.toNat]? = some e.pasid)) ∧
      t.out = s.out ++ [.dictStatus who St.success]) ∧
  (∀ (who : Principal) (s : State), s.rcv.fwRunning = true → mayWrite who [1, 4] s = true →
    ∃ t, exec (.certCacheFlush who true) s = .next t ∧ t.dom = { s.dom with certCache := [] } ∧ t.out = s.out ++ [.dictStatus who St.success])

/-- A source that asserts is pending and falls with its input (R468, R475, R466 SGI); CLAIM takes the best source and EOI completes it (R469, R470);
PEND_SET, PEND_CLR, MASK_SET, MASK_CLR and STORM act on every bit set (R466, R471, R473, R474); SRC_CFG and PMR are written (R466, R467); a storm
window ends (R474) and a moderation time (R472); FWD hands its record to the executor (R476). -/
def Obligations.InterruptCommandsComplete : Prop :=
  (∀ (n : BitVec 10) (pair : Bool) (wfi : BitVec 2) (s : State), reservedSource n.toNat = false →
    ∃ t, exec (.icuSourceAssert n pair true wfi) s = .next t ∧
      (isLevel n.toNat = true → (t.icu.src.get (srcKey pair n.toNat)).input = true) ∧
      (isLevel n.toNat = false → (t.icu.src.get (srcKey pair n.toNat)).pending = true)) ∧
  (∀ (n : BitVec 10) (pair : Bool) (wfi : BitVec 2) (s : State), reservedSource n.toNat = false → isLevel n.toNat = true →
    ∃ t, exec (.icuSourceAssert n pair false wfi) s = .next t ∧ (t.icu.src.get (srcKey false n.toNat)).input = false) ∧
  (∀ (pair : Bool) (p n : Nat) (s : State), bestSource pair s = some (p, n) →
    ∃ t, exec (.claim pair 4) s = .next t ∧ t.out = s.out ++ [.claim pair (n + p * 2 ^ 16)] ∧
      (t.icu.pairs.get (b2n pair)).stack = (p, n) :: (s.icu.pairs.get (b2n pair)).stack ∧ (t.icu.src.get (srcKey pair n)).active = true ∧
      (t.icu.src.get (srcKey pair n)).latch = (!isLevel n && (s.icu.src.get (srcKey pair n)).latch) ∧
      (isLevel n = false → (t.icu.src.get (srcKey pair n)).pending = false)) ∧
  (∀ (pair : Bool) (s : State), bestSource pair s = none →
    ∃ t, exec (.claim pair 4) s = .next t ∧ t.out = s.out ++ [.claim pair 0x3FF] ∧ (t.icu.pairs.get (b2n pair)).stack = (s.icu.pairs.get (b2n pair)).stack ∧
      (t.icu.pairs.get (b2n pair)).spurious = (s.icu.pairs.get (b2n pair)).spurious + b2n (s.icu.pairs.get (b2n pair)).line) ∧
  (∀ (pair : Bool) (v : BitVec 32) (p n : Nat) (rest : List (Nat × Nat)) (s : State), (s.icu.pairs.get (b2n pair)).stack = (p, n) :: rest → n = v.toNat % 1024 →
    ∃ t, exec (.eoi pair 4 v) s = .next t ∧ (t.icu.pairs.get (b2n pair)).stack = rest ∧ (t.icu.src.get (srcKey pair n)).active = false) ∧
  (∀ (pair : Bool) (m : BitVec 512) (n : Nat) (s : State), n ∈ bitmapSources m →
    (∃ t, exec (.pendSet pair m) s = .next t ∧
      (isLevel n = true → (t.icu.src.get (srcKey pair n)).latch = true) ∧ (isLevel n = false → (t.icu.src.get (srcKey pair n)).pending = true)) ∧
    (∃ t, exec (.pendClr pair m) s = .next t ∧ (isLevel n = false → (t.icu.src.get (srcKey pair n)).pending = false)) ∧
    (∃ t, exec (.maskSet pair m) s = .next t ∧ (t.icu.src.get (srcKey pair n)).masked = true) ∧
    (∃ t, exec (.maskClr pair m) s = .next t ∧ ((s.icu.src.get (srcKey pair n)).storm = false → (t.icu.src.get (srcKey pair n)).masked = false)) ∧
    (∃ t, exec (.stormClear pair m) s = .next t ∧ (t.icu.src.get (srcKey pair n)).storm = false)) ∧
  (∀ (pair : Bool) (v : BitVec 32) (s : State), ∃ t, exec (.sgi pair 4 v) s = .next t ∧
    (t.icu.src.get (srcKey (if bit v.toNat 8 then !pair else pair) (v.toNat % 16))).pending = true) ∧
  (∀ (v : BitVec 32) (s : State), ∃ t, exec (.hostEvent .hostk v) s = .next t ∧
    ∀ k, k < 32 → bit v.toNat k = true → (t.icu.src.get (srcKey (decide (16 ≤ k)) (32 + k % 16))).pending = true) ∧
  (∀ (n : BitVec 10) (pair : Bool) (s : State), ∃ t, exec (.stormWindowExpiry n pair) s = .next t ∧ (t.icu.src.get (srcKey pair n.toNat)).stormCount = 0) ∧
  (∀ (pair : Bool) (s : State), ∃ t, exec (.icuModerationExpiry pair) s = .next t ∧ (t.icu.pairs.get (b2n pair)).line = (bestSource pair s).isSome) ∧
  (∀ (pair : Bool) (detail : BitVec 64) (code : BitVec 16) (kind ring : BitVec 8) (cookie : BitVec 64) (s : State),
    (s.icu.pairs.get (b2n pair)).fwd.go = false → ring.toNat ≤ 16 → fwdKind kind.toNat = true →
    ∃ t, exec (.fwdGo pair detail code kind ring cookie) s = .next t ∧ (t.icu.pairs.get (b2n pair)).fwd.go = true ∧
      Posts ring.toNat [{ record := { cookie, timestamp := s.now, detail, context := 0, status := code.toNat, queue := 0xFF, kind := kind.toNat }
                          signal := true, fwd := some (b2n pair), key := none, slices := slicesOf [ring.toNat], sample := none }] s t) ∧
  (∀ (pair : Bool) (n : BitVec 10) (v : BitVec 32) (s : State), n.toNat < 448 → ∃ t, exec (.srcCfgWrite pair n 4 v) s = .next t ∧
    (t.icu.src.get (srcKey pair n.toNat)).priority = v.truncate 4 ∧ (t.icu.src.get (srcKey pair n.toNat)).modEn = bit v.toNat 8 ∧
    (t.icu.src.get (srcKey pair n.toNat)).stormEn = bit v.toNat 9 ∧ (64 ≤ n.toNat → (t.icu.src.get (srcKey pair n.toNat)).target = bit v.toNat 5)) ∧
  (∀ (pair : Bool) (v : BitVec 32) (s : State), v.toNat % 32 ≤ 16 → ∃ t, exec (.pmrWrite pair 4 v) s = .next t ∧
    (t.icu.pairs.get (b2n pair)).pmr = v.toNat % 32)

/-- Announcements open and close (R240, R242); a sweep is queued, granted, denied and ended (R245, R246); a throttle code is taken (R249); a rate
publishes the lowest of its last four samples (R553). A wheel slot serves a line, its holder's first, and charges it, or passes (R21, R412-R414);
a shared engine switches contenders (R416, R420, R423). -/
def Obligations.CalibrationAndShareEventsComplete : Prop :=
  (∀ (stack : BitVec 4) (seq kind : BitVec 8) (mask : BitVec 64) (s : State), stack.toNat < 12 →
    kind ≠ 2 ∨ (List.range 12).any (missionMode s) = true → (s.mem.cal.get stack.toNat).anns.length < 4 →
    ∃ t, exec (.calAnn stack seq kind mask) s = .next t ∧
      (t.mem.cal.get stack.toNat).anns = (s.mem.cal.get stack.toNat).anns ++ [{ seq := seq.toNat, kind := kind.toNat, mask := mask.toNat }]) ∧
  (∀ (stack : BitVec 4) (seq kind : BitVec 8) (mask : BitVec 64) (s : State), stack.toNat < 12 →
    (kind = 2 → (List.range 12).any (missionMode s) = false →
      ∃ t, exec (.calAnn stack seq kind mask) s = .next t ∧ t.mem = s.mem ∧ t.rcv.classCount.get 0x12 = s.rcv.classCount.get 0x12 + 1) ∧
    (kind ≠ 2 ∨ (List.range 12).any (missionMode s) = true → 4 ≤ (s.mem.cal.get stack.toNat).anns.length →
      ∃ t, exec (.calAnn stack seq kind mask) s = .next t ∧ t.mem = s.mem ∧ t.rcv.classCount.get 0x11 = s.rcv.classCount.get 0x11 + 1)) ∧
  (∀ (stack : BitVec 4) (seq : BitVec 8) (s : State), ∃ t, exec (.calDone stack seq) s = .next t ∧
    (t.mem.cal.get stack.toNat).anns = (s.mem.cal.get stack.toNat).anns.filter (fun a => a.seq != seq.toNat)) ∧
  (∀ (stack : BitVec 4) (seq : BitVec 8) (s : State), (s.mem.cal.get stack.toNat).anns.any (fun a => a.seq == seq.toNat) = true →
    ∃ t, exec (.calAnnouncementTimeout stack seq) s = .next t ∧ t.rcv.classCount.get 0x11 = s.rcv.classCount.get 0x11 + 1 ∧
      (t.mem.cal.get stack.toNat).anns = (s.mem.cal.get stack.toNat).anns.filter (fun a => a.seq != seq.toNat)) ∧
  (∀ (stack : BitVec 4) (duration : BitVec 16) (mask : BitVec 64) (s : State), stack.toNat < 12 → 1 ≤ duration.toNat → duration.toNat ≤ 5000 →
    ∃ t, exec (.sweepReq stack duration mask) s = .next t ∧
      t.mem.sweeps = s.mem.sweeps ++ [{ stack := stack.toNat, duration := duration.toNat, mask := mask.toNat, at_ := s.now }]) ∧
  (∀ (stack : BitVec 4) (duration : BitVec 16) (mask : BitVec 64) (s : State), stack.toNat < 12 → duration.toNat = 0 ∨ 5000 < duration.toNat →
    ∃ (t : State) (l : List OutMsg), exec (.sweepReq stack duration mask) s = .next t ∧ t.out = s.out ++ l ++ [.sweepDeny stack.toNat 1] ∧ t.mem = s.mem) ∧
  (∀ (stack : BitVec 4) (q : SweepReq) (s : State), s.mem.sweeps.find? (fun q => noSweep s q && spaced s q) = some q → q.stack = stack.toNat →
    ∃ t, exec (.sweepGnt stack) s = .next t ∧ t.out = s.out ++ [.sweepGnt q.stack] ∧ (t.mem.cal.get q.stack).granted = some q.duration ∧
      t.mem.sweeps = s.mem.sweeps.erase q) ∧
  (∀ (stack : BitVec 4) (q : SweepReq) (s : State), s.mem.sweeps.find? (fun q => q.stack == stack.toNat) = some q → (noSweep s q && spaced s q) = false →
    ∃ t, exec (.sweepReqTimeout stack) s = .next t ∧ t.out = s.out ++ [.sweepDeny q.stack (if noSweep s q then 3 else 2)] ∧ t.mem.sweeps = s.mem.sweeps.erase q) ∧
  (∀ (stack : BitVec 4) (s : State), (s.mem.cal.get stack.toNat).granted.isSome = true →
    ∃ t, exec (.sweepEnd stack) s = .next t ∧ (t.mem.cal.get stack.toNat).granted = none ∧ t.mem.sweepEnds.get stack.toNat = some s.now) ∧
  (∀ (stack : BitVec 4) (s : State), (s.mem.cal.get stack.toNat).granted.isSome = true →
    ∃ t, exec (.sweepDurationExpiry stack) s = .next t ∧ (t.mem.cal.get stack.toNat).granted = none ∧ t.mem.sweepEnds.get stack.toNat = some s.now ∧
      t.rcv.classCount.get 0x11 = s.rcv.classCount.get 0x11 + 1) ∧
  (∀ (stack : BitVec 4) (thr : BitVec 8) (s : State), stack.toNat < 12 → ∃ t, exec (.thrChange stack thr) s = .next t ∧
    (t.mem.cal.get stack.toNat).thr = thr.toNat ∧ (t.icu.src.get (srcKey false (68 + 8 * stack.toNat))).input = true) ∧
  (∀ (rate : BitVec 6) (value : BitVec 32) (s : State), rate.toNat ≤ 40 →
    let l := lastN 4 (s.sen.samples.get rate.toNat ++ [sampleValue s rate.toNat value.toNat])
    ∃ t, exec (.rateSample rate value) s = .next t ∧ t.sen.samples.get rate.toNat = l ∧ t.sen.rates.get rate.toNat = l.foldl min (l.headD 0)) ∧
  (∀ (engine : BitVec 4) (s : State),
    let e := engine.toNat
    let w := if (s.srg.wheels.get e).pos = 0 then newRevolution s e (s.srg.wheels.get e) else s.srg.wheels.get e
    let ls := freeLines [] (s.mem.lines.get e)
    (populated s e = false → exec (.wheelSlotService engine) s = .next s) ∧
    (populated s e = true → slotLine s w ls = none →
      exec (.wheelSlotService engine) s = .next { s with srg := { s.srg with wheels := s.srg.wheels.set e { w with pos := (w.pos + 1) % 1024 } } }) ∧
    (∀ (l : WaitLine) (lent : Bool), populated s e = true → slotLine s w ls = some (l, lent) →
      ∃ t, exec (.wheelSlotService engine) s = .next t ∧ t.mem.lines.get e = (s.mem.lines.get e).erase l ∧
        t.srg.wheels.get e = {
          w with
            pos := (w.pos + 1) % 1024
            used := if l.plough then w.used.upd l.region (· + 1) else w.used
            slotsLent := if lent then w.slotsLent + 1 else w.slotsLent
            lastLent := if lent then l.who else w.lastLent } ∧
        (l.who < 16 → (t.slice l.who).usage.lines.get e = (s.slice l.who).usage.lines.get e + 1) ∧
        (∀ c tag, l.op = .write c tag → s.out ++ [.stackWrite e l.ln c tag] <+: t.out) ∧
        (∀ q, l.op = .read q → t.out = s.out ++ [.stackRead e l.ln] ∧ ∀ x ∈ t.mem.reads, x.seq = q → x.stage = .asked)) ∧
    (∀ (c : Nat) (l : WaitLine), slotHolder w.held w.pos = some c → ls.find? (fun l => l.who == c && !l.plough) = some l → slotLine s w ls = some (l, false))) ∧
  (∀ (unit : BitVec 2) (running : BitVec 5) (waiting : BitVec 17) (ran cost : BitVec 32) (c : Nat) (s : State),
    let (u, r) := (unit.toNat, running.toNat)
    let z := chargeEngine r u ran.toNat s
    r ≤ 16 → bestContender z u (windowTime z u) ((List.range 17).filter (fun c => bit waiting.toNat c && c != r)) = some c →
    lowerRatio (windowTime z u c) (shareOf s u c) (windowTime z u r) (shareOf s u r) = true → unit ≠ 0 ∨ s.srg.store.length < 4 →
    ∃ t, exec (.preemptionPoint unit running waiting ran cost) s = .next t ∧
      (t.srg.shared.get u).switches = (s.srg.shared.get u).switches + 1 ∧ (t.srg.shared.get u).switchNs = (s.srg.shared.get u).switchNs + cost.toNat ∧
      (r < 16 → (t.slice r).usage.preemptions = (s.slice r).usage.preemptions + 1 ∧
        (t.slice r).usage.engineNs.get u = (s.slice r).usage.engineNs.get u + ran.toNat) ∧
      (c < 16 → (t.slice c).usage.engineNs.get u = (s.slice c).usage.engineNs.get u + cost.toNat) ∧
      (u = 0 → t.srg.store = s.srg.store.erase c ++ [r]))

/-- A write whose version is known is protected and on its way to its stack, and an open region's goes there plain (R161, R180, R204); a read is
issued under the candidates of its epoch (R162, R180), and its data, verified, delivered, or its tag fails (R162, R172, R386). A write that
waited takes its version (R180). A counter line is installed when it verifies (R192) and evicted under a new version (R191). A rebase
takes its slot, reads a child and moves it (R194). A DUE that cannot be corrected makes its line fallow (R251, R252); a correction asks
for each candidate in turn and delivers what it finds (R167, R169, R170). A clean scrub re-read is logged (R258). -/
def Obligations.MemoryEventsComplete : Prop :=
  (∀ (engine : BitVec 4) (req acting : BitVec 5) (pa : BitVec 47) (data : Line) (r v : Nat) (raw : Option Nat) (s : State),
    let (e, ln, q, x) := (engine.toNat, pa.toNat / 128, actor req.toNat acting.toNat, s.region r)
    let n := ln - x.firstLn
    q < 0x12 → regionAt s ln = some r → mayAccess s x q true = true → x.grants = 0 → x.state = 1 ∨ x.state = 2 → isFallow s ln = false →
    writeNumber x n false = .ok raw → writeAnswer s r n raw = .version v → lineLocked s r n = false →
    (∀ w ∈ s.mem.writes, w.ln ≠ ln) → (∀ y ∈ s.mem.reads, y.ln ≠ ln) →
    let p := protect s r (newSide s r n) ln x.mode v (fit 128 data)
    ∃ t, exec (.memoryWrite engine req acting pa true data) s = .next t ∧
      t.mem.lines.get e = s.mem.lines.get e ++ [{ who := contender s r 0x11, plough := false, region := r, ln, op := .write p.1 p.2 }] ∧
      (t.region r).phaseWrites = x.phaseWrites + b2n (countsPhase x false) ∧ (x.mode = 0 → versionOf t r 0 n = some v)) ∧
  (∀ (engine : BitVec 4) (req acting : BitVec 5) (pa : BitVec 47) (data : Line) (r : Nat) (s : State),
    let (e, ln, q, x) := (engine.toNat, pa.toNat / 128, actor req.toNat acting.toNat, s.region r)
    q < 0x12 → regionAt s ln = some r → mayAccess s x q true = true → x.grants = 0 → x.state = 1 ∨ x.state = 2 → isFallow s ln = false → x.mode = 3 →
    lineLocked s r (ln - x.firstLn) = false → (∀ w ∈ s.mem.writes, w.ln ≠ ln) → (∀ y ∈ s.mem.reads, y.ln ≠ ln) →
    ∃ t, exec (.memoryWrite engine req acting pa true data) s = .next t ∧
      t.mem.lines.get e = s.mem.lines.get e ++ [{ who := contender s r q, plough := false, region := r, ln, op := .write (fit 128 data) 0 }]) ∧
  (∀ (engine : BitVec 4) (req acting : BitVec 5) (pa : BitVec 47) (r : Nat) (raw : Option (List Nat)) (s : State),
    let (e, ln, q, g) := (engine.toNat, pa.toNat / 128, actor req.toNat acting.toNat, s.region r)
    let n := ln - g.firstLn
    let x : MemRead := { seq := s.mem.seqCtr, engine := e, ln, region := r, level := 0, idx := n, purpose := .mission, req := req.toNat, who := q, newer := newSide s r n, raw }
    q < 0x12 → regionAt s ln = some r → mayAccess s g q false = true → g.state = 1 ∨ g.state = 2 → readNumbers g n = .ok raw →
    g.mode = 3 ∨ isFallow s ln = false → (candidates s x).isSome = true → lineLocked s r n = false → (∀ w ∈ s.mem.writes, w.ln ≠ ln) →
    (∀ y ∈ s.mem.reads, y.region ≠ r ∧ y.seq ≠ s.mem.seqCtr) →
    ∃ t, exec (.memoryRead engine req acting pa) s = .next t ∧ t.mem.reads = s.mem.reads ++ [{ x with stage := .queued, cands := candidates s x }] ∧
      t.mem.lines.get e = s.mem.lines.get e ++ [{ who := contender s r q, plough := false, region := r, ln, op := .read x.seq }]) ∧
  (∀ (engine : BitVec 4) (ln : BitVec 40) (pc : BitVec 6) (word : RdWord) (x : MemRead) (c : List Nat) (d : Line) (s : State),
    let g := s.region x.region
    askedRead s (fun x => x.engine == engine.toNat && x.ln == ln.toNat && x.purpose.outside) = some x → x.level = 0 → x.cands = some c → x.retried = false →
    (∀ y ∈ s.mem.reads, y = x ∨ y.region ≠ x.region ∧ y.seq ≠ x.seq) → suspectPc s engine.toNat pc.toNat = false → word.status.toNat < 2 →
    (if g.mode = 3 then d = fit 128 word.cipher
     else isFallow s x.ln = false ∧ ∃ v, checkTag s x.region x.newer x.ln g.mode c word.cipher word.tag = some v ∧
      d = reveal s x.region x.newer x.ln g.mode v word.cipher) →
    ∃ t, exec (.memoryReadData engine ln pc word) s = .next t ∧ t.mem.reads = s.mem.reads.filter (fun y => y.seq != x.seq) ∧
      (x.purpose = .mission → t.out = s.out ++ [.readData x.engine x.ln d]) ∧
      (∀ k n, x.purpose = .block k n → t.mem.blocks = s.mem.blocks ++ [{ key := k, n, data := some d }])) ∧
  (∀ (engine : BitVec 4) (ln : BitVec 40) (pc : BitVec 6) (word : RdWord) (x : MemRead) (c : List Nat) (s : State),
    let g := s.region x.region
    askedRead s (fun x => x.engine == engine.toNat && x.ln == ln.toNat && x.purpose.outside) = some x → x.level = 0 → x.cands = some c → x.retried = false →
    (∀ y ∈ s.mem.reads, y = x ∨ y.region ≠ x.region ∧ y.seq ≠ x.seq) → suspectPc s engine.toNat pc.toNat = false → word.status.toNat < 2 → g.mode ≠ 3 →
    isFallow s x.ln = false → x.purpose = .mission →
    ∃ t, exec (.memoryReadData engine ln pc word) s = .next t ∧ (checkTag s x.region x.newer x.ln g.mode c word.cipher word.tag = none →
      s.out ++ [.readPoison x.engine x.ln] <+: t.out ∧ t.rcv.classCount.get 0x07 = s.rcv.classCount.get 0x07 + 1)) ∧
  (∀ (engine : BitVec 4) (ln : BitVec 40) (w : MemWrite) (v : Nat) (s : State),
    let x := s.region w.region
    s.mem.writes.find? (fun w => w.engine == engine.toNat && w.ln == ln.toNat) = some w → writeAnswer s w.region w.off w.raw = .version v →
    lineBusy s w.region w.off w.ln w.seq = false → (∀ y ∈ s.mem.reads, y.region ≠ w.region ∧ y.ln ≠ w.ln) →
    let p := protect s w.region (newSide s w.region w.off) w.ln x.mode v w.data
    ∃ t, exec (.versionSupply engine ln) s = .next t ∧ t.mem.writes = s.mem.writes.filter (fun y => y.seq != w.seq) ∧
      t.mem.lines.get w.engine = s.mem.lines.get w.engine ++
        [{ who := contender s w.region 0x11, plough := false, region := w.region, ln := w.ln, op := .write p.1 p.2 }]) ∧
  (∀ (region : BitVec 12) (level : BitVec 2) (index : BitVec 33) (c : CLine) (s : State),
    let (r, l, i) := (region.toNat, level.toNat, index.toNat)
    cached s r l i = some c → pinned s c = false →
    (c.dirty = false → ∃ t, exec (.counterWriteback region level index) s = .next t ∧
      t.mem.cache = s.mem.cache.filter (fun d => !(d.region == r && d.level == l && d.idx == i))) ∧
    (∀ v, c.dirty = true → blockedForever s c = false → (bumpParent c s).isSome = true → versionOf s r l i = some v →
      let p := protect s r c.newer (counterLn (s.region r) l i) 0 (v + 1) c.bytes
      let m := protect s r c.newer (mirrorLn (s.region r) l i) 0 (v + 1) c.bytes
      ∃ t, exec (.counterWriteback region level index) s = .next t ∧ cached t r l i = none ∧ versionOf t r l i = some (v + 1) ∧
        { who := contender s r 0x11, plough := false, region := r, ln := counterLn (s.region r) l i, op := .write p.1 p.2 } ∈ t.mem.lines.get c.engine ∧
        (2 ≤ l → { who := contender s r 0x11, plough := false, region := r, ln := mirrorLn (s.region r) l i, op := .write m.1 m.2 } ∈
          t.mem.lines.get (stackOf s (mirrorLn (s.region r) l i))))) ∧
  (∀ (region : BitVec 12) (level : BitVec 2) (index : BitVec 33) (old : Bool) (c : CLine) (s : State),
    let (r, l, i) := (region.toNat, level.toNat, index.toNat)
    rebaseLine s r l i old = some c → c.region = r → s.mem.rebases.any (fun b => b.region == r && b.level == l && b.idx == i && b.old == old) = false →
    s.mem.rebases.length < 32 → (s.region r).valid = true → ploughIn s r l i = false → c.major ≠ 2 ^ 57 - 1 → c.minors.ents.any (fun e => e.2 == 127) = true →
    ∃ t, exec (.rebase region level index old) s = .next t ∧
      t.mem.rebases = s.mem.rebases ++ [{ region := r, level := l, idx := i, old, major := c.major, minors := c.minors, next := 0 }] ∧
      rebaseLine t r l i old = some { c with major := c.major + 1, minors := Tbl.const 0, dirty := true }) ∧
  (∀ (region : BitVec 12) (level : BitVec 2) (index : BitVec 33) (old : Bool) (read : LineRead) (b : Rebase) (s : State),
    let r := region.toNat
    let (l, i) := (b.level - 1, b.idx * 128 + b.next)
    let ln := counterLn (s.region r) l i
    s.mem.rebases.find? (fun b => b.region == r && b.level == level.toNat && b.idx == index.toNat && b.old == old) = some b → level ≠ 0 →
    childOf s b b.next = true →
    ((if b.level = 1 then isFallow s ln = false ∧ childFree s r i ln = true else cached s r l i = none) →
      (∀ y ∈ s.mem.reads, y.region ≠ r ∧ y.seq ≠ s.mem.seqCtr) →
      ∃ t, exec (.rebaseChildMove region level index old read) s = .next t ∧
        t.mem.reads = s.mem.reads ++ [{
          ownRead s r l i false (.child old) with seq := s.mem.seqCtr, stage := .queued, cands := some [b.major * 128 + b.minors.get b.next] }] ∧
        t.mem.lines.get (stackOf s ln) = s.mem.lines.get (stackOf s ln) ++
          [{ who := contender s r 0x11, plough := false, region := r, ln, op := .read s.mem.seqCtr }] ∧
        (b.level = 1 → lineLocked t r i = true)) ∧
    (∀ c, b.level ≠ 1 → cached s r l i = some c → s.mem.reads = [] →
      let p := protect s r c.newer ln 0 ((b.major + 1) * 128) c.bytes
      ∃ t, exec (.rebaseChildMove region level index old read) s = .next t ∧ t.mem.rebases = (rebaseNext b s).mem.rebases ∧
        { who := contender s r 0x11, plough := false, region := r, ln, op := .write p.1 p.2 } ∈ t.mem.lines.get c.engine) ∧
    (∀ y v, b.level = 1 → s.mem.reads = [y] → y.stage = .asked → y.region = r → y.level = 0 → y.idx = i → y.purpose = .child old →
      y.cands = some [b.major * 128 + b.minors.get b.next] → y.retried = false → suspectPc s y.engine read.pc.toNat = false → read.word.status.toNat < 2 →
      checkTag s r y.newer y.ln (s.region r).mode [b.major * 128 + b.minors.get b.next] read.word.cipher read.word.tag = some v →
      let p := protect s r y.newer y.ln (s.region r).mode ((b.major + 1) * 128) (reveal s r y.newer y.ln (s.region r).mode v read.word.cipher)
      ∃ t, exec (.rebaseChildMove region level index old read) s = .next t ∧ t.mem.reads = [] ∧ t.mem.rebases = (rebaseNext b s).mem.rebases ∧
        { who := contender s r 0x11, plough := false, region := r, ln := y.ln, op := .write p.1 p.2 } ∈ t.mem.lines.get y.engine)) ∧
  (∀ (engine : BitVec 4) (ln : BitVec 40) (handle : BitVec 16) (anchor : BitVec 8) (x : MemRead) (s : State),
    let (e, g) := (engine.toNat, s.region x.region)
    s.mem.reads.find? (fun x => x.engine == e && x.ln == ln.toNat && x.stage == .due && !(s.mem.corr.get e).any (fun c => c.read == x.seq)) = some x →
    (∀ p ps, g.tgc = true → anchor.toNat ≠ 0x7F → (adjacency s anchor.toNat).take s.mem.tgcMax = p :: ps → s.mem.corr.get e = [] →
      ∃ t, exec (.dueReport engine ln handle anchor) s = .next t ∧ t.out = s.out ++ [.erase e handle.toNat anchor.toNat p] ∧
        t.mem.corr.get e = [{ read := x.seq, handle := handle.toNat, anchor := anchor.toNat, todo := p :: ps }]) ∧
    (∀ i, g.tgc = false ∨ anchor.toNat = 0x7F → x.level = 0 → x.purpose = .mission → g.state = 1 ∨ g.state = 2 → freeFallow s = some i → isFallow s x.ln = false →
      ∃ t, exec (.dueReport engine ln handle anchor) s = .next t ∧ s.out ++ [.readPoison e x.ln] <+: t.out ∧
        t.rcv.classCount.get 0x08 = s.rcv.classCount.get 0x08 + 1 ∧
        (t.mem.fallow.get i).state = 1 ∧ (t.mem.fallow.get i).first = x.ln ∧ (t.mem.fallow.get i).count = 1 ∧ (t.mem.fallow.get i).cause = 1 ∧
        (t.mem.fallow.get i).region = x.region ∧ (t.mem.fallow.get i).anchor = anchor.toNat)) ∧
  (∀ (engine : BitVec 4) (answer : Option (Line × BitVec 56)) (c : Corr) (rest : List Corr) (x : MemRead) (s : State),
    let e := engine.toNat
    let g := s.region x.region
    let f := tryRepair s x.region x.newer x.ln (if x.level = 0 then g.mode else 0) (x.cands.getD []) (c.found, c.ambiguous) answer
    s.mem.corr.get e = c :: rest → s.mem.reads.find? (fun x => x.seq == c.read) = some x →
    (∀ p p' ps, c.todo = p :: p' :: ps → c.ambiguous = false → ∃ t, exec (.eraseResponse engine answer) s = .next t ∧
      (f.2 = false → t.out = s.out ++ [.erase e c.handle c.anchor p'] ∧
        t.mem.corr.get e = { c with found := f.1, ambiguous := false, tried := c.tried + 1, todo := p' :: ps } :: rest)) ∧
    (∀ p p' ps, c.todo = p :: p' :: ps → c.ambiguous = false → ∃ t, exec (.eraseTimeout engine) s = .next t ∧
      t.out = s.out ++ [.erase e c.handle c.anchor p'] ∧ t.mem.corr.get e = { c with tried := c.tried + 1, todo := p' :: ps } :: rest) ∧
    (∀ p, c.todo = [p] → rest = [] → s.mem.reads = [x] → x.level = 0 → x.purpose = .mission → s.mem.writes = [] → newSide s x.region x.idx = x.newer →
      ∃ t, exec (.eraseResponse engine answer) s = .next t ∧ (∀ w, f = (some w, false) →
        Sends [.release e c.handle, .readData x.engine x.ln (reveal s x.region x.newer x.ln g.mode w.2.2 w.1)] s t ∧
        { who := contender s x.region 0x11, plough := false, region := x.region, ln := x.ln, op := .write w.1 w.2.1 } ∈ t.mem.lines.get x.engine))) ∧
  (∀ (engine : BitVec 4) (ln : BitVec 40) (read : LineRead) (x : MemRead) (v : Nat) (s : State),
    askedRead s (fun x => x.engine == engine.toNat && x.ln == ln.toNat && x.purpose.isScrub) = some x → x.cands = some [v] → x.retried = false →
    s.mem.reads = [x] → suspectPc s engine.toNat read.pc.toNat = false → read.word.status = 0 → x.level = 0 → (s.region x.region).mode ≠ 3 →
    ∃ t, exec (.scrubReread engine ln read) s = .next t ∧
      (verifies s x.region x.newer x.ln (s.region x.region).mode v read.word.cipher read.word.tag = true →
        t.mem.reads = [] ∧ t.rcv.classCount.get 0x0C = s.rcv.classCount.get 0x0C + 1 ∧ (x.ln, s.now) ∈ t.mem.scrubbed.get x.engine)) ∧
  (∀ (region : BitVec 12) (index : BitVec 33) (read : LineRead) (x : MemRead) (major : Nat) (minors : Tbl Nat) (s : State),
    let r := region.toNat
    let g := s.region r
    let v := s.mem.crown.get (g.crownFirst + index.toNat)
    s.mem.reads = [x] → x.region = r → x.level = 3 → x.idx = index.toNat → x.purpose = .counter → x.stage = .asked → x.retried = false → x.cands = some [v] →
    suspectPc s x.engine read.pc.toNat = false → read.word.status.toNat < 2 → s.mem.cache = [] → 0 < (s.slice g.slice).ways.get (stackOf s (counterLn g 3 index.toNat)) →
    ∃ t, exec (.counterLineFetchData region 3 index false read) s = .next t ∧
      (verifies s r x.newer x.ln 0 v read.word.cipher read.word.tag = true → counterFields (reveal s r x.newer x.ln 0 v read.word.cipher) = some (major, minors) →
        t.mem.reads = [] ∧ ∃ k, t.mem.cache = [k] ∧ k.region = r ∧ k.level = 3 ∧ k.idx = index.toNat ∧ k.engine = stackOf s (counterLn g 3 index.toNat) ∧
          k.major = major ∧ k.minors = minors ∧ k.dirty = false ∧ k.slice = g.slice))

/-- A doorbell sets PI, or is ignored, logged or faults the queue (R330-R332, R357); a turn of the fetcher takes a step of the idle handshake (R332),
or a ring entry, or the next command of a running buffer or graph, into flight (R335, R337, R341), or halts the queue (R399); a finished
command completes, posts its record and retires (R41, R330). A queue is enabled and stops (R329), a halted queue is resumed and skips its faulting command (R359), and COMPAT
ends a command that has run too long (R360). -/
def Obligations.QueueCommandsComplete : Prop :=
  (∀ (queue : BitVec 6) (value : BitVec 64) (s : State),
    let q := s.cex.queues.get queue.toNat
    let v := value.toNat % 2 ^ 32
    q.state = 1 → (v + 2 ^ 32 - q.pi) % 2 ^ 32 < 2 ^ 31 → (v + 2 ^ 32 - q.ci) % 2 ^ 32 ≤ 2 ^ q.ringLog2 →
    ∃ t, exec (.doorbell queue value) s = .next t ∧ t = updQ queue.toNat (fun q => { q with pi := v, rung := true, fetcher := if q.fetcher = 1 then 1 else 0 }) s) ∧
  (∀ (queue : BitVec 6) (value : BitVec 64) (s : State),
    let q := s.cex.queues.get queue.toNat
    let v := value.toNat % 2 ^ 32
    (q.state ≠ 1 → exec (.doorbell queue value) s = .next s) ∧
    (q.state = 1 → 2 ^ 31 ≤ (v + 2 ^ 32 - q.pi) % 2 ^ 32 →
      ∃ t, exec (.doorbell queue value) s = .next t ∧ t.cex = s.cex ∧ t.rcv.classCount.get 0x16 = s.rcv.classCount.get 0x16 + 1) ∧
    (q.state = 1 → q.compat = false → (v + 2 ^ 32 - q.pi) % 2 ^ 32 < 2 ^ 31 → 2 ^ q.ringLog2 < (v + 2 ^ 32 - q.ci) % 2 ^ 32 →
      ∃ t, exec (.doorbell queue value) s = .next t ∧ (t.cex.queues.get queue.toNat).pi = q.pi ∧ (t.cex.queues.get queue.toNat).halted = true ∧
        (q.capture = none → ∃ c, (t.cex.queues.get queue.toNat).capture = some c ∧ c.cause = 7 ∧ c.ringIndex = q.ci))) ∧
  (∀ (key : CmdKey) (x : Option XFault) (raw : BitVec 512) (s : State),
    let n := key.queue.toNat
    let q := s.cex.queues.get n
    q.state = 1 → fetchStopped s q.owner = false → key.path = [] →
    (q.fetcher = 0 → q.ci = q.pi → exec (.commandFetch key x raw) s = .next (updQ n (fun q => { q with fetcher := 1 }) s)) ∧
    (q.fetcher = 1 → exec (.commandFetch key x raw) s =
      .next (updQ n (fun q => { q with rung := false, fetcher := if q.rung = true ∨ q.pi ≠ q.ci then 0 else 2 }) s))) ∧
  (∀ (key : CmdKey) (raw : BitVec 512) (s : State),
    let n := key.queue.toNat
    let q := s.cex.queues.get n
    let u := updQ n (fun q => { q with ci := (q.ci + 1) % 2 ^ 32 }) s
    q.state = 1 → fetchStopped s q.owner = false → key.path = [] → q.fetcher = 0 → q.ci ≠ q.pi → key.index.toNat = q.ci →
    (q.ci + 2 ^ 32 - oldestIncomplete q) % 2 ^ 32 < 256 → fetchKilled s raw = false → s.flight key = none →
    ∃ t, exec (.commandFetch key none raw) s = .next t ∧ (t.cex.queues.get n).ci = (q.ci + 1) % 2 ^ 32 ∧
      (∃ f, t.flight key = some f ∧ f.raw = raw) ∧
      (∀ st, fetchCheck u (u.cex.queues.get n) key raw = .refuse st → Ended key st 0 t) ∧
      (∀ c, fetchCheck u (u.cex.queues.get n) key raw = .fault c → q.compat = false →
        (t.cex.queues.get n).halted = true ∧ ∃ f, t.flight key = some f ∧ f.phase = .faulted)) ∧
  (∀ (key : CmdKey) (x : XFault) (raw : BitVec 512) (s : State),
    let n := key.queue.toNat
    let q := s.cex.queues.get n
    q.state = 1 → fetchStopped s q.owner = false → key.path = [] → q.fetcher = 0 → q.ci ≠ q.pi → key.index.toNat = q.ci →
    (q.ci + 2 ^ 32 - oldestIncomplete q) % 2 ^ 32 < 256 → q.compat = false →
    ∃ t, exec (.commandFetch key (some x) raw) s = .next t ∧ (t.cex.queues.get n).ci = q.ci ∧ (t.cex.queues.get n).halted = true ∧
      (t.cex.queues.get n).flights = q.flights) ∧
  (∀ (key : CmdKey) (raw : BitVec 512) (f : Frame) (s : State),
    let n := key.queue.toNat
    let q := s.cex.queues.get n
    let w := match f.graph with
      | none => raw
      | some g => g.getD f.fetched 0
    let u := updQ n (fun q => { q with frames := mapIf (fun g => g.key == f.key) (fun g => { g with fetched := g.fetched + 1 }) q.frames }) s
    q.state = 1 ∨ q.state = 3 → fetchStopped s q.owner = false → key.path ≠ [] → frameFor q key = some f → windowFull s q f = false →
    fetchKilled s w = false → s.flight key = none →
    ∃ t, exec (.commandFetch key none raw) s = .next t ∧ (∃ g, t.flight key = some g ∧ g.raw = w) ∧
      (∀ st, fetchCheck u (u.cex.queues.get n) key w = .refuse st → Ended key st 0 t)) ∧
  (∀ (key : CmdKey) (f : Flight) (s : State),
    let n := key.queue.toNat
    let q := s.cex.queues.get n
    let g := { f with phase := Phase.completed }
    q.flights = [f] → f.key = key → key.path = [] → f.phase = .done → f.recState = 0 → q.frames = [] →
    (wantsRecord g = false → ∃ t, exec (.commandCompletion key) s = .next t ∧ (t.cex.queues.get n).flights = [] ∧
      (t.cex.queues.get n).retired = (q.retired + 1) % 2 ^ 32) ∧
    (wantsRecord g = true → ∃ t, exec (.commandCompletion key) s = .next t ∧
      Posts (ownerRing q) [completionRecord (slicesOf [q.owner]) n g s.now] s t ∧ ∀ h, t.flight key = some h → h.phase = .completed ∧ h.status = f.status)) ∧
  (∀ (who : Principal) (queue : BitVec 6) (s : State), s.rcv.fwRunning = true → mayWrite who [1] s = true → enableRefusal s (s.cex.queues.get queue.toNat) = none →
    ∃ t, exec (.queueEnable who queue true) s = .next t ∧ t.out = s.out ++ [.dictStatus who St.success] ∧
      (let q := t.cex.queues.get queue.toNat
      q.state = 1 ∧ q.pi = 0 ∧ q.ci = 0 ∧ q.retired = 0 ∧ q.flights = [] ∧ q.scalars = Tbl.const 0)) ∧
  (∀ (who : Principal) (queue : BitVec 6) (s : State), s.rcv.fwRunning = true → mayWrite who [1] s = true → (s.cex.queues.get queue.toNat).state = 1 →
    (s.cex.queues.get queue.toNat).owner = 16 ∨ tdiLocked s (s.cex.queues.get queue.toNat).owner = false →
    ∃ t, exec (.queueEnable who queue false) s = .next t ∧ t.out = s.out ++ [.dictStatus who St.success] ∧
      (t.cex.queues.get queue.toNat).state = (if (s.cex.queues.get queue.toNat).flights.isEmpty then 0 else 3) ∧ (t.cex.queues.get queue.toNat).enable = false) ∧
  (∀ (who : Principal) (queue : BitVec 6) (s : State), s.rcv.fwRunning = true → mayWrite who [1, 5] s = true → notOwner who (s.cex.queues.get queue.toNat) = false →
    (s.cex.queues.get queue.toNat).halted = true →
    (∃ t, exec (.queueResume who queue) s = .next t ∧ (t.cex.queues.get queue.toNat).state = 1 ∧ (t.cex.queues.get queue.toNat).halted = false ∧
      (t.cex.queues.get queue.toNat).capture = none) ∧
    (∃ t, exec (.queueSkip who queue) s = .next t ∧ (t.cex.queues.get queue.toNat).state = 1 ∧ (t.cex.queues.get queue.toNat).halted = false ∧
      (t.cex.queues.get queue.toNat).capture = none ∧ t.out = s.out ++ [.dictStatus who St.success] ∧
      ∀ k f, faultedKey (s.cex.queues.get queue.toNat) = some k → k.queue = queue → s.flight k = some f → f.phase = .faulted → f.override = none →
        Ended k St.faulted 0 t)) ∧
  (∀ (key : CmdKey) (f : Flight) (s : State), s.flight key = some f → (s.q key).compat = true → f.phase = .running → compatExempt (rawOpcode f.raw) = false →
    (∃ t, exec (.compatTimeout key false) s = .next t ∧ (f.override = none → Ended key St.timeout 0 t) ∧
      Posts (ownerRing (s.q key)) [{
        record := { cookie := rawCookie f.raw, timestamp := s.now, detail := 0xFFFF, context := rawCtx f.raw, status := 0x8004, queue := key.queue.toNat, kind := 0x0A }
        signal := true, fwd := none, key := none, slices := slicesOf [(s.q key).owner], sample := none }] s t) ∧
    (∃ t, exec (.compatTimeout key true) s = .next t ∧ t.flight key = some { f with override := some St.timeout })) ∧
  (∀ (key : CmdKey) (engine : BitVec 16) (f : Flight) (s : State), s.flight key = some f → f.phase = .running → f.override = some St.timeout →
    engine.toNat % 256 ≠ 45 → ∃ t, exec (.compatDrainTimeout key engine) s = .next t ∧ Ended key St.timeout 0 t)

/-- The executor writes the first waiting record of a ring that is not faulted and has space, at the ring's next slot, and advances the
producer index; a record that finds no space and may not wait is dropped (R354). A ring signals its vector at the moderation expiry
(R355), takes a new base (R363, R401) and a new read index (R354). -/
def Obligations.EventRingCommandsComplete : Prop :=
  (∀ (ring : BitVec 5) (w : EvWait) (rest : List EvWait) (s : State),
    let n := ring.toNat
    let r := s.cex.rings.get n
    n ≤ 16 → r.waiting = w :: rest → r.faulted = false → ringSpace r w.record.kind = true → recordOpen w s (recordGate w s) = true →
    ∃ t, exec (.eventPost ring none) s = .next t ∧
      s.out ++ [.event n (r.prod % 4096) w.record (r.prod / 4096 % 2 == 0) r.lost] <+: t.out ∧
      (t.cex.rings.get n).prod = (r.prod + 1) % 2 ^ 32 ∧ (t.cex.rings.get n).lost = false) ∧
  (∀ (ring : BitVec 5) (w : EvWait) (rest : List EvWait) (s : State),
    let n := ring.toNat
    let r := s.cex.rings.get n
    n ≤ 16 → r.waiting = w :: rest → w.record.kind ≠ 1 → ringSpace r w.record.kind = false → recordOpen w s (recordGate w s) = true →
    ∃ t, exec (.eventPost ring none) s = .next t ∧ t.out = s.out ∧ (t.cex.rings.get n).prod = r.prod ∧ (t.cex.rings.get n).waiting = rest ∧
      (t.cex.rings.get n).dropped = r.dropped + 1 ∧ (t.cex.rings.get n).lost = true) ∧
  (∀ (ring : BitVec 5) (w : EvWait) (rest : List EvWait) (s : State),
    let n := ring.toNat
    let r := s.cex.rings.get n
    n ≤ 16 → r.waiting = w :: rest → mustWait r w = false → recordOpen w s (recordGate w s) = false →
    ∃ t, exec (.eventPost ring none) s = .next t ∧ t.out = s.out ∧ (t.cex.rings.get n).waiting = { w with sample := some (recordGate w s) } :: rest) ∧
  (∀ (ring : BitVec 5) (s : State),
    let r := s.cex.rings.get ring.toNat
    0 < r.unsignalled →
    ∃ t, exec (.eventModerationExpiry ring) s = .next t ∧ (t.cex.rings.get ring.toNat).unsignalled = 0 ∧
      (if bit (s.cex.msixTable.get r.vector).toNat 96 then t.cex.msixPba.get r.vector = true ∧ t.out = s.out else t.out = s.out ++ [.msix r.vector])) ∧
  (∀ (who : Principal) (ring : BitVec 5) (base : BitVec 64) (s : State),
    let r := s.cex.rings.get ring.toNat
    s.rcv.fwRunning = true → mayWrite who [1, 5] s = true → ring.toNat ≤ 16 → (∀ m, who = .slice m → m.toNat = ring.toNat) →
    (r.faulted = true ∨ r.prod = r.cons) → base.toNat % 4096 = 0 →
    ∃ t, exec (.eventRingBaseWrite who ring base) s = .next t ∧ t.out = s.out ++ [.dictStatus who St.success] ∧ (t.cex.rings.get ring.toNat).base = base.toNat ∧
      (t.cex.rings.get ring.toNat).faulted = false ∧ (t.cex.rings.get ring.toNat).lost = (r.lost || r.faulted)) ∧
  (∀ (ring : BitVec 5) (index : BitVec 32) (s : State),
    let r := s.cex.rings.get ring.toNat
    ring.toNat ≤ 16 → (r.prod + 2 ^ 32 - index.toNat) % 2 ^ 32 ≤ (r.prod + 2 ^ 32 - r.cons) % 2 ^ 32 →
    ∃ t, exec (.eventReadIndexWrite ring index) s = .next t ∧ (t.cex.rings.get ring.toNat).cons = index.toNat)

/-- The recovery commands complete: a chip reset and a power cycle are requested and done (R489-R493), the log's, the captures' and the
dump's own commands take effect (R494, R496, R497), a watchdog warns and expires (R481, R494, R500), a lockstep mismatch expires the
pair's watchdog (R18), a stalled host is logged (R482), and an engine is reset and returns to service (R483, R484). -/
def Obligations.RecoveryCommandsComplete : Prop :=
  (∀ (who : Principal) (s : State), s.lcc.decoded = true → mayWrite who [0, 1] s = true → s.rcv.chipResetReq = false → s.rcv.powerCycleReq = false →
    ∃ t, exec (.resetChipReq who true) s = .next t ∧ t.rcv.chipResetReq = true ∧ t.rcv.pendingCause = 1 ∧ t.rcv.resetCounts.get 3 = s.rcv.resetCounts.get 3 + 1) ∧
  (∀ (s : State), s.rcv.chipResetReq = true → s.rcv.powerCycleReq = false →
    (∃ t, exec (.chipResetGo 0xA501) s = .next t ∧ t.rcv.lastCause = s.rcv.pendingCause ∧ t.rcv.chipResetReq = false ∧ t.rcv.fwRunning = false ∧
      t.rcv.log = s.rcv.log ∧ t.rcv.resetCounts = s.rcv.resetCounts ∧ t.cex = State.reset.cex ∧ t.kst = State.reset.kst ∧ t.vault = s.vault) ∧
    (∃ t, exec .chipCoopTimeout s = .next t ∧ t.rcv.powerCycleReq = true ∧ t.pins.pwrcycN = false ∧ t.rcv.resetCounts.get 4 = s.rcv.resetCounts.get 4 + 1)) ∧
  (∀ (who : Principal) (s : State), s.lcc.decoded = true → mayWrite who [0, 1] s = true →
    (∃ t, exec (.firstErrorClear who true) s = .next t ∧ t.rcv.firstError = none ∧ t.rcv.firstFatal = none ∧ t.out = s.out ++ [.dictStatus who St.success]) ∧
    (∀ index : BitVec 32, (index.toNat + 2 ^ 32 - s.rcv.consumed) % 2 ^ 32 ≤ unconsumed s.rcv →
      ∃ t, exec (.errlogConsumedWrite who index) s = .next t ∧ t.rcv.consumed = index.toNat ∧ t.out = s.out ++ [.dictStatus who St.success])) ∧
  (∀ (who : Principal) (s : State), s.lcc.decoded = true → mayWrite who [0, 1, 3] s = true →
    ∃ t, exec (.dumpClear who true) s = .next t ∧ t.rcv.dump = none ∧ t.out = s.out ++ [.dictStatus who St.success]) ∧
  (∀ (who : Principal) (pair : Bool) (s : State), s.rcv.fwRunning = true → mayWrite who [4] s = true →
    ∃ t, exec (.cpKick who pair true) s = .next t ∧ t.rcv.kickAt.get (b2n pair) = s.now ∧ t.out = s.out ++ [.dictStatus who St.success]) ∧
  (∀ (unit : BitVec 8) (pair : Bool) (s : State), armed s unit.toNat = true →
    ∃ t, exec (.watchdogWarning unit pair) s = .next t ∧ (t.icu.src.get (srcKey pair 25)).pending = true) ∧
  (∀ (unit : BitVec 8) (slc : BitVec 5) (ctx : BitVec 16) (units : List (BitVec 256)) (s : State), armed s unit.toNat = true →
    (s.rcv.chipResetReq = true ∨ s.rcv.powerCycleReq = true →
      ∃ t, exec (.watchdogExpiry unit slc ctx units) s = .next t ∧ t.rcv.wdExpiries = s.rcv.wdExpiries + 1 ∧
        t.rcv.classCount.get 0x1C = s.rcv.classCount.get 0x1C + 1 ∧ t.rcv.dump.isSome = true ∧
        (s.rcv.dump = none → t.rcv.dumpsTaken = s.rcv.dumpsTaken + 1) ∧ (s.rcv.dump ≠ none → t.rcv.dump = s.rcv.dump ∧ t.rcv.dumpsDropped = s.rcv.dumpsDropped + 1)) ∧
    (s.rcv.chipResetReq = false → s.rcv.powerCycleReq = false → 1 < unit.toNat → sharedEngine unit.toNat = false →
      ∃ t, exec (.watchdogExpiry unit slc ctx units) s = .next t ∧ t.rcv.wdExpiries = s.rcv.wdExpiries + 1 ∧ t.rcv.chipResetReq = true ∧ t.rcv.pendingCause = 2) ∧
    (s.rcv.chipResetReq = false → s.rcv.powerCycleReq = false → within s (s.rcv.hist.get unit.toNat).engineAt escalateNs = false →
      (unit.toNat ≤ 1 ∧ (s.rcv.hist.get (1 - unit.toNat)).resetting = false ∨ sharedEngine unit.toNat = true ∧ ctx = 0 ∧
        within s (s.rcv.hist.get unit.toNat).partitionAt escalateNs = false ∧ (s.rcv.hist.get unit.toNat).killing = none) →
      ∃ t, exec (.watchdogExpiry unit slc ctx units) s = .next t ∧ t.rcv.wdExpiries = s.rcv.wdExpiries + 1 ∧
        (t.rcv.hist.get unit.toNat).resetting = true ∧ t.rcv.resetCounts.get 1 = s.rcv.resetCounts.get 1 + 1) ∧
    (s.rcv.chipResetReq = false → s.rcv.powerCycleReq = false → sharedEngine unit.toNat = true → ctx ≠ 0 →
      within s (s.rcv.hist.get unit.toNat).partitionAt escalateNs = false → within s (s.rcv.hist.get unit.toNat).engineAt escalateNs = false →
      (s.rcv.hist.get unit.toNat).killing = none → s.cex.kills.any (fun k => k.2 == ctx.toNat) = false →
      ∃ t, exec (.watchdogExpiry unit slc ctx units) s = .next t ∧ (t.rcv.hist.get unit.toNat).killing = some ctx.toNat ∧
        t.rcv.resetCounts.get 0 = s.rcv.resetCounts.get 0 + 1)) ∧
  (∀ (pair : Bool) (units : List (BitVec 256)) (s : State), s.boot.inReset = false → (s.lcc.harts.get (b2n pair)).halted = false →
    (s.rcv.chipResetReq = true ∨ s.rcv.powerCycleReq = true →
      ∃ t, exec (.lockstepMismatch pair units) s = .next t ∧ t.rcv.wdExpiries = s.rcv.wdExpiries + 1 ∧ t.rcv.classCount.get 0x1D = s.rcv.classCount.get 0x1D + 1) ∧
    (s.rcv.chipResetReq = false → s.rcv.powerCycleReq = false → (s.rcv.hist.get (1 - b2n pair)).resetting = false →
      within s (s.rcv.hist.get (b2n pair)).engineAt escalateNs = false →
      ∃ t, exec (.lockstepMismatch pair units) s = .next t ∧ t.rcv.wdExpiries = s.rcv.wdExpiries + 1 ∧ (t.rcv.hist.get (b2n pair)).resetting = true)) ∧
  (∀ (stack : BitVec 4) (s : State), stack.toNat < 12 → (∀ x, s.rcv.hostStallAt.get stack.toNat = some x → x + 1000000000 ≤ s.now) →
    ∃ t, exec (.hostStall stack) s = .next t ∧ t.rcv.hostStallAt.get stack.toNat = some s.now ∧ t.rcv.classCount.get 0x1E = s.rcv.classCount.get 0x1E + 1) ∧
  (∀ (unit : BitVec 8) (s : State), sharedEngine unit.toNat = true → (s.rcv.hist.get unit.toNat).killing.isSome = true → s.kwe.current = none →
    ∃ t, exec (.killLimitExpiry unit) s = .next t ∧ (t.rcv.hist.get unit.toNat).resetting = true ∧ (t.rcv.hist.get unit.toNat).killing = none) ∧
  (∀ (r : KweReq) (s : State), s.kwe.current = some r → s.cex.kills.any (fun k => k.2 == r.ctx) = true →
    ∃ t, exec (.killLimitExpiry 5) s = .next t ∧ (t.rcv.hist.get 5).resetting = true ∧ .kwe r.who St.contextKilled [] ∈ t.out) ∧
  (∀ (unit : BitVec 8) (s : State), (s.rcv.hist.get unit.toNat).resetting = true →
    ∃ t, exec (.engineResetDone unit) s = .next t ∧ (t.rcv.hist.get unit.toNat).resetting = false ∧ .replay unit.toNat ∈ t.out ∧
      (t.icu.src.get (srcKey false 436)).input = true)

/-- The sentinel's commands complete: a canary's sample is an outlier of its unit or moves the filters (R560-R562), a freeze ends (R562),
outliers are counted in the tamper window (R564), excursions, brown-outs and the temperature's warning are noticed (R563), the die timers change their source (R558), and a tamper input
is filtered, latched and cleared (R565, R566). -/
def Obligations.SentinelCommandsComplete : Prop :=
  (∀ (unit : BitVec 6) (canary : BitVec 3) (x : BitVec 8) (s : State),
    let n := s.sen.units.get unit.toNat
    let mu := n.mu.get canary.toNat
    let d := n.d.get canary.toNat
    let v : Int := x.toNat * 256
    canary.toNat < canaries unit.toNat →
    (v < mu - (8 * d + 2 * 256) ∨ mu + (8 * d + 2 * 256) < v →
      ∃ t, exec (.canarySample unit canary x) s = .next t ∧ (t.sen.units.get unit.toNat).outliers = n.outliers + 1 ∧ (t.sen.units.get unit.toNat).lastOutlier = s.now ∧
        (t.sen.units.get unit.toNat).frozenAt = some s.now ∧ .replay unit.toNat ∈ t.out ∧ t.rcv.classCount.get 0x21 = s.rcv.classCount.get 0x21 + 1 ∧
        (t.icu.src.get (srcKey false 416)).input = true ∧
        (15 ≤ (s.sen.window.filter (fun w => decide (s.now < w + 1000000))).length → t.sen.tamperEvents = s.sen.tamperEvents + 1 ∧
          if s.vault.state = 2 then t.vault.cause = setBit s.vault.cause 8 else t.vault.trigger = setBit s.vault.trigger 8)) ∧
    (mu - (8 * d + 2 * 256) ≤ v → v ≤ mu + (8 * d + 2 * 256) → n.frozenAt = none →
      ∃ t, exec (.canarySample unit canary x) s = .next t ∧ t.out = s.out ∧
        (t.sen.units.get unit.toNat).mu.get canary.toNat = mu + clampInt ((v - mu) / 4096) (-16) 16 ∧
        (t.sen.units.get unit.toNat).d.get canary.toNat = d + (((v - mu).natAbs : Int) - d) / 4096)) ∧
  (∀ (unit : BitVec 6) (s : State), exec (.canaryIdleExercise unit []) s = .next s ∧
    ∀ (codes : List (BitVec 8)) (x : BitVec 8), codes.length < 8 →
      ∃ t, exec (.canaryIdleExercise unit codes) s = .next t ∧ exec (.canaryIdleExercise unit (codes ++ [x])) s = exec (.canarySample unit (BitVec.ofNat 3 codes.length) x) t) ∧
  (∀ (unit : BitVec 6) (s : State), ∃ t, exec (.senFreezeExpiry unit) s = .next t ∧ (t.sen.units.get unit.toNat).frozenAt = none ∧
    (t.sen.units.get unit.toNat).outliers = (s.sen.units.get unit.toNat).outliers) ∧
  (∀ (die : BitVec 2) (s : State), die ≠ 3 →
    (∃ t, exec (.supplyExcursion die) s = .next t ∧ t.sen.supplyExcursions = s.sen.supplyExcursions + 1 ∧ (t.icu.src.get (srcKey false 418)).input = true ∧
      ∀ u ∈ dieUnits die.toNat, (t.sen.units.get u).frozenAt = some s.now) ∧
    (∃ t, exec (.brownOut die) s = .next t ∧ t.sen.brownouts = s.sen.brownouts + 1 ∧ t.sen.window = s.sen.window ∧ (t.icu.src.get (srcKey false 418)).input = true ∧
      ∀ u ∈ dieUnits die.toNat, (t.sen.units.get u).brownOut = true) ∧
    (∃ t, exec (.brownOutRecovery die) s = .next t ∧ t.out = s.out ++ ((dieUnits die.toNat).filter (fun u => (s.sen.units.get u).brownOut)).map .replay ∧
      ∀ u ∈ dieUnits die.toNat, (t.sen.units.get u).brownOut = false)) ∧
  (∀ (hottest : BitVec 32) (s : State), ∃ t, exec (.tjWarnCrossing hottest) s = .next t ∧ t.sen.tjMax = hottest.toInt ∧ (t.icu.src.get (srcKey false 419)).input = true) ∧
  (∀ (base : BitVec 2) (s : State), base ≠ 3 →
    (∃ t, exec (.referenceClockLost base) s = .next t ∧ t.clk.onOsc.get base.toNat = true ∧ t.clk.switches = s.clk.switches + b2n (!s.clk.onOsc.get base.toNat)) ∧
    (∃ t, exec (.referenceClockRegained base) s = .next t ∧ t.clk.onOsc.get base.toNat = false ∧ t.clk.switches = s.clk.switches + b2n (s.clk.onOsc.get base.toNat))) ∧
  (∀ (input : BitVec 2) (level : Bool) (s : State), s.clk.vaultRunning = true → tamperEnabled input.toNat s = true →
    let o := s.tamperIn.get input.toNat
    let samples := lastN 32 (o.samples ++ [level])
    ∃ t, exec (.tamperInSample input level) s = .next t ∧ (t.tamperIn.get input.toNat).samples = samples ∧
      (t.tamperIn.get input.toNat).latched = (o.latched || tamperActive samples) ∧
      (t.tamperIn.get input.toNat).quiet = (if tamperActive samples then 0 else o.quiet + 1) ∧
      (tamperActive samples = true → o.latched = false →
        (if s.vault.state = 2 then t.vault.cause = setBit s.vault.cause (1 + input.toNat) else t.vault.trigger = setBit s.vault.trigger (1 + input.toNat)))) ∧
  (∀ (who : Principal) (input : BitVec 2) (s : State), s.lcc.decoded = true → mayWrite who [0, 1] s = true → 32 ≤ (s.tamperIn.get input.toNat).quiet →
    ∃ t, exec (.tamperLatchClear who input true) s = .next t ∧ t.out = s.out ++ [.dictStatus who St.success] ∧ (t.tamperIn.get input.toNat).latched = false)

/-- The vault's triggers are recognised (R50), its zeroization clears RS, the check value, every slot and every engine key and then reads
EMPTY (R51, R53, R54), TAMPER_CAUSE_CLEAR empties the cause (R84); the supplies ramp and fail, the straps are sampled and the reset port
acts (R48, R52, R557, R575, R578, R579, R587). -/
def Obligations.VaultAndSupplyCommandsComplete : Prop :=
  (∀ (mismatch short : Bool) (s : State), vaultRuns s = true →
    ∃ t, exec (.meshCompare mismatch short) s = .next t ∧ t.vault.mesh = (if mismatch then 1 + b2n short else 0) ∧ t.vault.meshMiss = (if mismatch then s.vault.meshMiss + 1 else 0) ∧
      (mismatch = true → s.vault.meshMiss = 1 →
        if s.vault.state = 2 then t.vault.cause = setBit s.vault.cause 0 else t.vault.trigger = setBit s.vault.trigger 0)) ∧
  (∀ (mv : BitVec 16) (s : State), vaultRuns s = true →
    (mv.toNat < 2200 ∨ 3800 < mv.toNat →
      ∃ t, exec (.vbatOutOfRange mv) s = .next t ∧ t.vault.vbatMv = mv.toNat ∧
        (if s.vault.state = 2 then t.vault.cause = setBit s.vault.cause 5 else t.vault.trigger = setBit s.vault.trigger 5)) ∧
    (mv.toNat < 550 ∨ 900 < mv.toNat →
      ∃ t, exec (.vaultSupplyOutOfRange mv) s = .next t ∧
        (if s.vault.state = 2 then t.vault.cause = setBit s.vault.cause 6 else t.vault.trigger = setBit s.vault.trigger 6))) ∧
  (∀ (c : BitVec 16) (s : State), vaultRuns s = true →
    ∃ t, exec (.vaultTempReading c) s = .next t ∧ t.sen.vaultTemp = c.toInt ∧ t.vault.coldMiss = (if c.toInt < -640 then s.vault.coldMiss + 1 else 0) ∧
      t.vault.hotMiss = (if 2000 < c.toInt then s.vault.hotMiss + 1 else 0) ∧
      ((c.toInt < -640 ∧ s.vault.coldMiss = 1) ∨ (2000 < c.toInt ∧ s.vault.hotMiss = 1) →
        if s.vault.state = 2 then t.vault.cause = setBit s.vault.cause 7 else t.vault.trigger = setBit s.vault.trigger 7)) ∧
  (∀ (s : State), s.vault.trigger ≠ 0 → s.vault.state ≠ 2 → s.kst.dflt = {} →
    ∃ t, exec .zeroization s = .next t ∧ t.vault.state = 2 ∧ t.vault.rs = 0 ∧ t.vault.check = 0 ∧ t.vault.provisioned = false ∧
      t.vault.cause = Nat.lor s.vault.cause s.vault.trigger ∧ t.vault.trigger = 0 ∧ t.vault.time = s.clk.vault ∧ t.vault.count = s.vault.count + 1 ∧
      t.engKeys = [] ∧ t.pins.alarmN = false ∧ ∀ n, t.slot n = {}) ∧
  (∀ (s : State), s.vault.state = 2 → s.lcc.progress ≠ 2 → s.lcc.progress ≠ 3 →
    ∃ t, exec .zeroizationComplete s = .next t ∧ t.vault.state = 1 ∧ t.vault.cause = s.vault.cause ∧
      (s.rcv.fwRunning = true → t.rcv.classCount.get 0x22 = s.rcv.classCount.get 0x22 + 1 ∧ Posts 16 [eventOf [16] 9 0x8052 s.vault.cause s.now] s t)) ∧
  (∀ (who : Principal) (s : State), s.lcc.decoded = true → mayWrite who [0, 1] s = true → s.vault.state ≠ 2 →
    ∃ t, exec (.tamperCauseClear who true) s = .next t ∧ t.out = s.out ++ [.dictStatus who St.success] ∧ t.vault.cause = 0 ∧ t.vault.time = 0) ∧
  (∀ (mv : BitVec 16) (s : State),
    (∃ t, exec (.vbatRamp mv) s = .next t ∧ t.vault.vbatMv = mv.toNat ∧ t.clk.vaultRunning = true ∧ t.clk.vault = (if s.clk.vaultRunning then s.clk.vault else 0)) ∧
    (bit s.pins.rails 4 = false →
      ∃ t, exec (.vaonRamp mv) s = .next t ∧ t.sen.vaonMv = mv.toNat ∧ t.vault.decided = true ∧ t.clk.vaultRunning = true ∧ t.lcc.openings = 0 ∧
        t.vault.state = (if s.vault.state = 2 then 2 else if s.vault.provisioned then 0 else 1) ∧ t.pins.strapTaken = false ∧
        t.pins.alarmN = (s.vault.state != 2 && s.vault.provisioned))) ∧
  (∀ (straps : List (BitVec 8)) (s : State), bit s.pins.rails 4 = true → s.pins.strapTaken = false →
    ∃ t, exec (.strapSample straps) s = .next t ∧ t.pins.strapTaken = true ∧ t.pins.applied.get 6 = (straps.getD 6 0).toNat % 16 ∧
      (∀ i, i ≠ 6 → t.pins.applied.get i = s.pins.applied.get i) ∧ t.pins.vaonSample.get 0 = (straps.getD 0 0).toNat % 128) ∧
  (∀ (rail : BitVec 3) (s : State), rail.toNat < 7 → bit s.pins.rails rail.toNat = true →
    (rail.toNat < 3 → ∃ t, exec (.railLoss rail) s = .next t ∧ t.cex = State.reset.cex ∧ t.kst = State.reset.kst ∧ t.mem = State.reset.mem ∧ t.rcv = State.reset.rcv ∧
      t.vault = s.vault ∧ t.lcc.words = s.lcc.words) ∧
    (rail.toNat = 3 → ∃ t, exec (.railLoss rail) s = .next t ∧ t.pins.pwrcycN = true ∧ t.vault = s.vault ∧ t.kst = s.kst) ∧
    (rail.toNat = 4 → bit s.pins.rails 5 = false →
      ∃ t, exec (.railLoss rail) s = .next t ∧ t.vault.rs = 0 ∧ t.vault.check = 0 ∧ t.vault.provisioned = false ∧ t.vault.state = 1 ∧
        bit t.vault.cause 5 = true ∧ t.engKeys = [] ∧ (s.kst.dflt = {} → ∀ n, t.slot n = {}) ∧ t.clk.vaultRunning = false) ∧
    (rail.toNat = 4 → bit s.pins.rails 5 = true → ∃ t, exec (.railLoss rail) s = .next t ∧ t.vault = s.vault ∧ t.kst = s.kst ∧ bit t.pins.rails 4 = false) ∧
    (rail.toNat = 5 → bit s.pins.rails 4 = true → ∃ t, exec (.railLoss rail) s = .next t ∧ t.vault.vbatMv = 0 ∧
      if s.vault.state = 2 then t.vault.cause = setBit s.vault.cause 5 else t.vault.trigger = setBit s.vault.trigger 5)) ∧
  (∀ (s : State),
    (∃ t, exec (.resetPortAssert true) s = .next t ∧ t.pins.resetPort = true ∧ t.cex = State.reset.cex ∧ t.kst = State.reset.kst ∧ t.vault = s.vault ∧ t.lcc.words = s.lcc.words) ∧
    (∃ t, exec (.resetPortAssert false) s = .next t ∧ t = { s with pins := { s.pins with resetPort := false } }))

/-- HLE_TLP_EGRESS sends a TLP whose gate is open, under IDE on a Secure stream and plainly otherwise, holds one whose gate is closed, and
drops one of a TDI in ERROR (R286, R298, R299, R301). HLE_TLP_RECEIVE delivers a TLP of an active key set whose MAC verifies, and takes a
wrong MAC for an IDE failure (R298, R302); LOSS_OF_SECURE puts the TDI in ERROR and clears its stream's keys (R298, R301). -/
def Obligations.HostTlpCommandsComplete : Prop :=
  (∀ (slc : BitVec 5) (sub : BitVec 2) (header data : Bytes) (s : State), GateIdle s →
    let sl := slc.toNat
    let x := s.ideOf sl
    let r : Tlp := { slice := sl, sub := sub.toNat, sample := [gateSample s sl], header, data, at_ := s.clk.io0 }
    (sl < 16 → s.tdi.get sl = 3 → exec (.hleTlpEgress slc sub header data) s = .next s) ∧
    (sl < 16 → s.tdi.get sl ≠ 3 → gateOpen s sl (gateSample s sl) = true → x.secure = false →
      ∃ t, exec (.hleTlpEgress slc sub header data) s = .next t ∧ t.out = s.out ++ [.tlp sl header data] ∧ t.link.egress = [] ∧ t.link.ide = s.link.ide) ∧
    (sl < 16 → s.tdi.get sl ≠ 3 → gateOpen s sl (gateSample s sl) = true → x.secure = true →
      let n := Config.ideClearHeader sl header
      let body := header.drop n ++ data ++ if Config.idePcrc sl then leBytes 4 (Config.pcrc (header ++ data)).toNat else []
      let (c, a, p) := x.agg.get sub.toNat
      let last := sub.toNat ≠ 0 ∨ s.link.ideAggregation ≤ c + 1
      let key := engKey s 5 (ideIx sl (ideSet true sub.toNat (x.txK.get sub.toNat)))
      let iv := Config.ideIv sub.toNat (x.txCtr.get sub.toNat)
      let cipher := Config.gcmCrypt key iv (p ++ body)
      ∃ t mac, exec (.hleTlpEgress slc sub header data) s = .next t ∧ t.link.egress = [] ∧
        t.out = s.out ++ [.ideTlp sl sub.toNat (x.txK.get sub.toNat) (header.take n) (cipher.drop p.length) mac] ∧
        (last → mac = some ((Config.gcmTag key iv (a ++ header.take n) cipher).setWidth 96) ∧
          (t.ideOf sl).txCtr.get sub.toNat = x.txCtr.get sub.toNat + 1 ∧ (t.ideOf sl).agg.get sub.toNat = (0, [], [])) ∧
        (¬last → mac = none ∧ (t.ideOf sl).txCtr.get sub.toNat = x.txCtr.get sub.toNat ∧
          (t.ideOf sl).agg.get sub.toNat = (c + 1, a ++ header.take n, p ++ body))) ∧
    (sl < 16 → s.tdi.get sl ≠ 3 → gateOpen s sl (gateSample s sl) = false →
      ∃ t, exec (.hleTlpEgress slc sub header data) s = .next t ∧ t.out = s.out ∧ t.link.egress = [r]) ∧
    (16 ≤ sl → (∀ i, i < 16 → gateOpen s i (gateSample s i) = true) →
      ∃ t, exec (.hleTlpEgress slc sub header data) s = .next t ∧ t.out = s.out ++ [.tlp 16 header data] ∧ t.link.egress = [])) ∧
  (∀ (slc : BitVec 4) (sub : BitVec 2) (k t : Bool) (iv : BitVec 96) (aad data : Bytes) (mac : BitVec 96) (s : State), GateIdle s →
    let sl := slc.toNat
    let set := ideSet false sub.toNat k
    let x := s.ideOf sl
    let key := engKey s 5 (ideIx sl set)
    let good := (Config.gcmTag key iv aad data).setWidth 96 = mac
    let plain := Config.gcmCrypt key iv data
    let admitted := if t then s.tdi.get sl = 2 else s.tdi.get sl ≠ 2
    sub.toNat < 3 → x.secure = true → x.active.get set = true →
    ∃ u, exec (.hleTlpReceive slc sub k t iv aad data mac) s = .next u ∧
      (good → Config.idePcrc sl = false → Config.ideAssociated sl (aad ++ plain) = true → admitted → u = { s with out := s.out ++ [.tlpIn sl plain] }) ∧
      (good → Config.idePcrc sl = false → Config.ideAssociated sl (aad ++ plain) = false ∨ ¬admitted → u = s) ∧
      (¬good → u.tdi.get sl = 3 ∧ (u.ideOf sl).cause = 1 ∧ (u.ideOf sl).secure = false ∧ u.link.ideFails = s.link.ideFails + 1 ∧
        u.rcv.classCount.get 0x15 = s.rcv.classCount.get 0x15 + 1 ∧ Posts 16 [eventOf [16, sl] 7 0x8032 x.id s.now] s u ∧
        Posts sl [eventOf [16, sl] 7 0x8032 x.id s.now] s u ∧ ∀ i, i / 12 = sl → engKey u 5 i = 0)) ∧
  (∀ (slc : BitVec 4) (s : State),
    let sl := slc.toNat
    ∃ t, exec (.lossOfSecure slc) s = .next t ∧ t.tdi = s.tdi.set sl 3 ∧ (t.ideOf sl).cause = 2 ∧ (t.ideOf sl).secure = false ∧
      (∀ i, engKey t 5 i = if i / 12 = sl then 0 else engKey s 5 i) ∧ ∀ e ∈ t.link.egress, e.slice ≠ sl)

/-- In an established session of the host link QUERY answers the Stream ID and the state, KEY_PROG loads a key into the key file, KEY_SET_GO
makes a programmed key set active and the stream Secure once every sub-stream has one, and KEY_SET_STOP ends it (R298; what the numbers of
the answers are is the model's choice, log 12). The TDISP messages answer and move the TDI through its states (R300, R301). Outside such a
session a message has no effect. -/
def Obligations.IdeAndTdispMessagesComplete : Prop :=
  (∀ (n : BitVec 3) (slc : BitVec 4) (streamId : BitVec 8) (tx k : Bool) (sub : BitVec 2) (key : BitVec 256) (s : State),
    let sl := slc.toNat
    let set := ideSet tx sub.toNat k
    let x := s.ideOf sl
    doeSession s n.toNat = true →
    (∃ t, exec (.query n slc) s = .next t ∧ t.link = s.link ∧ Sends [.response 2 1 (Config.stdBody 1 (leBytes 1 x.id ++ leBytes 1 (b2n x.secure)))] s t) ∧
    (sub.toNat < 3 → ideIdFree s sl streamId.toNat = true →
      ∃ t, exec (.keyProg n slc streamId tx sub k key) s = .next t ∧ Sends [.response 2 3 (Config.stdBody 3 [0])] s t ∧
        (∀ i, engKey t 5 i = if i = ideIx sl set then key else engKey s 5 i) ∧
        t.ideOf sl = { x with id := streamId.toNat, programmed := x.programmed.set set true }) ∧
    (3 ≤ sub.toNat ∨ ideIdFree s sl streamId.toNat = false →
      ∃ t, exec (.keyProg n slc streamId tx sub k key) s = .next t ∧ Sends [.response 2 3 (Config.stdBody 3 [3])] s t ∧ t.engKeys = s.engKeys ∧ t.link = s.link) ∧
    (sub.toNat < 3 → x.programmed.get set = true →
      ∃ t, exec (.keySetGo n slc tx sub k) s = .next t ∧ Sends [.response 2 6 (Config.stdBody 6 (leBytes 1 set))] s t ∧
        (t.ideOf sl).active = x.active.set set true ∧ (t.ideOf sl).secure = (x.secure || allActive (t.ideOf sl)) ∧
        (tx = true → (t.ideOf sl).txK.get sub.toNat = k ∧ (t.ideOf sl).txCtr.get sub.toNat = 0)) ∧
    (sub.toNat < 3 → GateIdle s →
      let left := allActive { x with active := x.active.set set false }
      ∃ t, exec (.keySetStop n slc tx sub k) s = .next t ∧ Sends [.response 2 6 (Config.stdBody 6 (leBytes 1 set))] s t ∧
        engKey t 5 (ideIx sl set) = 0 ∧ (t.ideOf sl).active.get set = false ∧
        (x.secure = false ∨ left = true → t.tdi = s.tdi ∧ (t.ideOf sl).secure = x.secure) ∧
        (x.secure = true → left = false → t.tdi.get sl = 3 ∧ (t.ideOf sl).cause = 2 ∧ (t.ideOf sl).secure = false))) ∧
  (∀ (n : BitVec 3) (slc : BitVec 4) (code : BitVec 8) (s : State),
    let sl := slc.toNat
    let st := s.tdi.get sl
    doeSession s n.toNat = true →
    (∃ t, exec (.getTdispVersion n) s = .next t ∧ t.tdi = s.tdi ∧ Sends [.response 3 0x01 (Config.stdBody 0x01 [0x10])] s t) ∧
    (∃ t, exec (.getTdispCapabilities n) s = .next t ∧ t.tdi = s.tdi ∧
      Sends [.response 3 0x02 (Config.stdBody 0x02 [0x81, 0x82, 0x83, 0x84, 0x85, 0x86, 0x87])] s t) ∧
    (st = 0 → (s.slice sl).state ≠ 0 → (s.ideOf sl).secure = true →
      ∃ t, exec (.lockInterfaceRequest n slc) s = .next t ∧ t.tdi = s.tdi.set sl 1 ∧ Sends [.response 3 0x03 (Config.stdBody 0x03 [])] s t) ∧
    (st ≠ 0 ∨ (s.slice sl).state = 0 ∨ (s.ideOf sl).secure = false →
      ∃ t, exec (.lockInterfaceRequest n slc) s = .next t ∧ t.tdi = s.tdi ∧ Sends [.response 3 0x7F (Config.stdBody 0x7F [4, 0, 0, 0])] s t) ∧
    (∃ t, exec (.getDeviceInterfaceReport n slc) s = .next t ∧ t.tdi = s.tdi ∧
      Sends [.response 3 0x04 (Config.stdBody 0x04 (interfaceReport s sl))] s t) ∧
    (∃ t, exec (.getDeviceInterfaceState n slc) s = .next t ∧ t.tdi = s.tdi ∧ Sends [.response 3 0x05 (Config.stdBody 0x05 (leBytes 1 st))] s t) ∧
    (st = 1 → ∃ t, exec (.startInterfaceRequest n slc) s = .next t ∧ t.tdi = s.tdi.set sl 2 ∧ Sends [.response 3 0x06 (Config.stdBody 0x06 [])] s t) ∧
    (st ≠ 1 →
      ∃ t, exec (.startInterfaceRequest n slc) s = .next t ∧ t.tdi = s.tdi ∧ Sends [.response 3 0x7F (Config.stdBody 0x7F [4, 0, 0, 0])] s t) ∧
    (∃ t, exec (.stopInterfaceRequest n slc) s = .next t ∧ t.tdi = s.tdi.set sl 0 ∧ (t.ideOf sl).cause = 0 ∧
      (st = 2 → ∀ x ∈ t.ods.trans, ¬(x.path = 1 ∧ x.requester = sl)) ∧ Sends [.response 3 0x07 (Config.stdBody 0x07 [])] s t) ∧
    (∃ t, exec (.tdispUnsupportedRequest n code) s = .next t ∧ t.tdi = s.tdi ∧ Sends [.response 3 0x7F (Config.stdBody 0x7F [7, 0, 0, 0])] s t)) ∧
  (∀ (n : BitVec 3) (slc : BitVec 4) (tx k : Bool) (streamId : BitVec 8) (sub : BitVec 2) (key : BitVec 256) (s : State), doeSession s n.toNat = false →
    exec (.query n slc) s = .next s ∧ exec (.keyProg n slc streamId tx sub k key) s = .next s ∧ exec (.keySetGo n slc tx sub k) s = .next s ∧
    exec (.keySetStop n slc tx sub k) s = .next s ∧ exec (.lockInterfaceRequest n slc) s = .next s ∧ exec (.startInterfaceRequest n slc) s = .next s ∧
    exec (.stopInterfaceRequest n slc) s = .next s)

/-- The SPDM responder settles a version and the algorithms, and answers digests, certificates, measurements and CHALLENGE with the alias
pair's signature while it may sign (R80, R88, R89, R94, R98-R100); it carries large messages in chunks (R98). What the manual leaves to DSP0274
(the codes, the order, the transcript, the values of error codes) is the model's choice (log 12). -/
def Obligations.SpdmRequestsComplete : Prop :=
  (∀ (m : SpdmHdr) (s : State), s.rcv.fwRunning = true → m.session = none →
    (∃ t, exec (.getVersion m) s = .next t ∧ (connOf m t).phase = 1 ∧ (connOf m t).selected = false ∧ Answers m 0x04 [0x12, 0x13] s t) ∧
    ((connOf m s).phase ≠ 0 → m.version = 0x12 ∨ m.version = 0x13 →
      ∃ t, exec (.getCapabilities m) s = .next t ∧ (connOf m t).phase = 2 ∧ (connOf m t).version = m.version.toNat ∧
        Answers m 0x61 (ascii "CERT CHAL MEAS_SIG KEY_EX ENCRYPT MAC HBEAT KEY_UPD CHUNK") s t) ∧
    ((connOf m s).phase ≠ 0 → m.version ≠ 0x12 → m.version ≠ 0x13 → ∃ t, exec (.getCapabilities m) s = .next t ∧ Answers m 0x7F [0x41] s t) ∧
    (∀ code, ∃ t, exec (.spdmUnsupportedRequest m code) s = .next t ∧ Answers m 0x7F [0x07] s t) ∧
    ((connOf m s).phase < 3 → ∃ t, exec (.getDigests m) s = .next t ∧ Answers m 0x7F [0x04] s t)) ∧
  (∀ (m : SpdmHdr) (asym hash : BitVec 32) (dhe aead : BitVec 16) (spec : BitVec 8) (s : State), Accepts 2 m s → m.session = none →
    (bit asym.toNat 7 = true → bit hash.toNat 1 = true →
      ∃ t, exec (.negotiateAlgorithms m asym hash dhe aead spec) s = .next t ∧ (connOf m t).phase = 3 ∧
        (connOf m t).selected = (bit dhe.toNat 4 && bit aead.toNat 1) ∧
        Answers m 0x63 (leBytes 4 0x80 ++ leBytes 4 2 ++ leBytes 2 (b2n (bit dhe.toNat 4) * 16) ++ leBytes 2 (b2n (bit aead.toNat 1) * 2) ++
          leBytes 1 (b2n (bit spec.toNat 0))) s t) ∧
    (bit asym.toNat 7 = false ∨ bit hash.toNat 1 = false →
      ∃ t, exec (.negotiateAlgorithms m asym hash dhe aead spec) s = .next t ∧ Answers m 0x7F [0x01] s t)) ∧
  (∀ (m : SpdmHdr) (slot : BitVec 8) (off len : BitVec 16) (s : State), Accepts 3 m s →
    let chain := certChain (slot == 1) s
    (∃ t, exec (.getDigests m) s = .next t ∧
      Answers m 0x01 (3 :: (digestBytes (Config.sha384 (certChain false s)) ++ digestBytes (Config.sha384 (certChain true s)))) s t) ∧
    (slot.toNat ≤ 1 →
      let part := (chain.drop off.toNat).take len.toNat
      ∃ t, exec (.getCertificate m slot off len) s = .next t ∧
        (off.toNat < chain.length →
          Answers m 0x02 (leBytes 1 slot.toNat ++ leBytes 2 part.length ++ leBytes 2 (chain.length - off.toNat - part.length) ++ part) s t) ∧
        (chain.length ≤ off.toNat → Answers m 0x7F [0x01] s t))) ∧
  (∀ (m : SpdmHdr) (summary : BitVec 8) (nonce : BitVec 256) (s : State), Accepts 3 m s → m.session = none →
    (canSign s = true →
      ∃ t hash r, exec (.challenge m 0 summary nonce) s = .next t ∧
        Answers m 0x03 (digestBytes (Config.sha384 (certChain false s)) ++ leBytes 32 (drbgBits 256 s).1.toNat ++ measSummary m summary s ++
          leBytes 32 nonce.toNat ++ Config.ecdsaSign (ecPart (s.pke.get 1).seed) r hash) s t) ∧
    (canSign s = false → ∃ t, exec (.challenge m 0 summary nonce) s = .next t ∧ Answers m 0x7F [0x05] s t)) ∧
  (∀ (m : SpdmHdr) (index slot : BitVec 8) (nonce : BitVec 256) (is : List Nat) (s : State), Accepts 3 m s →
    measSelect m index.toNat = some is →
    let head := (if index = 0 then leBytes 1 ((visibleIndices m).length + 1) else []) ++ is.flatMap (measBlock s)
    (index ≠ 0xEF → ∃ t, exec (.getMeasurements m index false slot nonce) s = .next t ∧ Answers m 0x60 head s t) ∧
    (canSign s = true →
      ∃ t hash own r q, exec (.getMeasurements m index true 0 nonce) s = .next t ∧
        Answers m 0x60 (head ++
          (0xEF :: fit 4627 (Config.mldsaSign (mlPart (s.pke.get 1).seed) q (ascii "PELGEN-S4/SPDM-MEAS") (digestBytes hash))) ++
          leBytes 32 own ++ leBytes 32 nonce.toNat ++ Config.ecdsaSign (ecPart (s.pke.get 1).seed) r hash) s t) ∧
    (canSign s = false → ∃ t, exec (.getMeasurements m index true 0 nonce) s = .next t ∧ Answers m 0x7F [0x05] s t)) ∧
  (∀ (m : SpdmHdr) (handle : BitVec 8) (seq : BitVec 16) (last : Bool) (data : Bytes) (s : State), Accepts 2 m s →
    let c := connOf m s
    (seq.toNat = 0 ∨ seq.toNat = c.chunk →
      ∃ t, exec (.chunkSend m handle seq last data) s = .next t ∧ Answers m 0x05 (leBytes 1 handle.toNat ++ leBytes 2 seq.toNat) s t ∧
        (connOf m t).large = (if last then [] else (if seq = 0 then [] else c.large) ++ data) ∧
        (connOf m t).chunk = (if last then 0 else seq.toNat + 1)) ∧
    (c.out ≠ [] → c.outAt = 1024 * seq.toNat →
      let part := (c.out.drop c.outAt).take 1024
      let done := decide (c.out.length ≤ c.outAt + 1024)
      ∃ t, exec (.chunkGet m handle seq) s = .next t ∧
        Sends [.response (SpdmHdr.conn m) 0x06 (leBytes 1 handle.toNat ++ leBytes 2 seq.toNat ++ leBytes 1 (b2n done) ++ part)] s t ∧
        (connOf m t).out = (if done then [] else c.out) ∧ (connOf m t).outAt = (if done then 0 else c.outAt + 1024))) ∧
  (∀ (m : SpdmHdr) (standard vendor : BitVec 16) (data : Bytes) (s : State), Accepts 3 m s →
    let ours := m.session.isSome = true ∧ m.mctp = false ∧ standard = 3 ∧ vendor = 1
    (ours → ∃ t, exec (.vendorDefinedRequest m standard vendor data) s = .next t ∧ Sends [] s t ∧ t.dom = s.dom) ∧
    (¬ours → ∃ t, exec (.vendorDefinedRequest m standard vendor data) s = .next t ∧ Answers m 0x7E (leBytes 64 (s.draw 512).toNat) s t))

/-- KEY_EXCHANGE opens the lowest free session with its three device slots when the requester's point agrees, FINISH establishes it, HEARTBEAT and
KEY_UPDATE serve it, and END_SESSION and a missed heartbeat end it, its slots zeroized (R60, R61, R97-R99). The key schedule is DSP0274's
(log 12). -/
def Obligations.SpdmSessionsComplete : Prop :=
  (∀ (m : SpdmHdr) (summary : BitVec 8) (point : Bytes) (n : Nat) (s : State), Accepts 3 m s → m.session = none → (connOf m s).selected = true →
    (List.range 8).find? (fun n => (s.dom.sessions.get n).phase == 0) = some n →
    let seed := leBytes 48 (keyBits 384 s).1.toNat
    let ready := canSign s = true ∧ kweRuns s = true ∧ (freePke s).isSome = true
    (ready → ∃ t, exec (.keyExchange m 0 summary point) s = .next t ∧
      (Config.ecdhAgree seed point = none → Answers m 0x7F [0x01] s t ∧ t.dom.sessions = s.dom.sessions ∧ t.kst = s.kst) ∧
      (∀ shared, Config.ecdhAgree seed point = some shared → ∃ hash r,
        let secret := digestBytes shared ++ digestBytes hash
        (t.slot (masterSlot n)).key = Config.spdmKey secret 0 ∧ (t.slot (responseSlot n)).key = Config.spdmKey secret 1 ∧
        (t.slot (requestSlot n)).key = Config.spdmKey secret 2 ∧
        t.dom.sessions.get n = { phase := 1, transport := SpdmHdr.conn m, slice := if m.mctp then 16 else min m.tdi.toNat 16, heartbeat := s.dom.heartbeatS } ∧
        (∀ i, i ≠ n → t.dom.sessions.get i = s.dom.sessions.get i) ∧
        (∀ i, i ≠ masterSlot n → i ≠ responseSlot n → i ≠ requestSlot n → t.slot i = s.slot i) ∧
        Answers m 0x64 (leBytes 1 n ++ leBytes 1 s.dom.heartbeatS ++ Config.ecdhPub seed ++ measSummary m summary s ++
          Config.ecdsaSign (ecPart (s.pke.get 1).seed) r hash) s t)) ∧
    (¬ready → ∃ t, exec (.keyExchange m 0 summary point) s = .next t ∧ Answers m 0x7F [0x05] s t ∧ t.dom.sessions = s.dom.sessions)) ∧
  (∀ (m : SpdmHdr) (x : BitVec 3) (s : State), Accepts 3 m s → m.session = some x → s.kst.dflt = {} →
    let n := x.toNat
    let own := fun i => i = masterSlot n ∨ i = responseSlot n ∨ i = requestSlot n
    ((s.dom.sessions.get n).phase = 1 →
      (kweRuns s = true → ∃ t, exec (.finish m true) s = .next t ∧ (t.dom.sessions.get n).phase = 2 ∧
        (t.slot (responseSlot n)).key = Config.spdmKey (keyBytes (s.slot (masterSlot n)).key) 1 ∧
        (t.slot (requestSlot n)).key = Config.spdmKey (keyBytes (s.slot (masterSlot n)).key) 2 ∧ Answers m 0x65 [] s t) ∧
      (∃ t, exec (.finish m false) s = .next t ∧ t.dom.sessions.get n = {} ∧ (∀ i, t.slot i = if own i then {} else s.slot i) ∧ Answers m 0x7F [0x06] s t)) ∧
    ((s.dom.sessions.get n).phase = 2 →
      (∃ t, exec (.heartbeat m) s = .next t ∧ t.dom.sessions = s.dom.sessions ∧ t.kst = s.kst ∧ Answers m 0x68 [] s t) ∧
      ((s.dom.sessions.get n).update = 0 → kweRuns s = true →
        (∃ t, exec (.keyUpdate m 1) s = .next t ∧ (t.dom.sessions.get n).update = 1 ∧
          (t.slot (requestSlot n)).key = Config.spdmKey (keyBytes (s.slot (requestSlot n)).key) 3 ∧
          (∀ i, i ≠ requestSlot n → t.slot i = s.slot i) ∧ Answers m 0x69 [1] s t) ∧
        (∃ t, exec (.keyUpdate m 2) s = .next t ∧ (t.dom.sessions.get n).update = 1 ∧
          (t.slot (requestSlot n)).key = Config.spdmKey (keyBytes (s.slot (requestSlot n)).key) 3 ∧
          (t.slot (responseSlot n)).key = Config.spdmKey (keyBytes (s.slot (responseSlot n)).key) 3 ∧ Answers m 0x69 [2] s t)) ∧
      ((s.dom.sessions.get n).update ≠ 0 →
        ∃ t, exec (.keyUpdate m 3) s = .next t ∧ (t.dom.sessions.get n).update = 0 ∧ t.kst = s.kst ∧ Answers m 0x69 [3] s t) ∧
      (∃ t, exec (.endSession m) s = .next t ∧ t.dom.sessions.get n = {} ∧ (∀ i, t.slot i = if own i then {} else s.slot i) ∧ Answers m 0x6C [] s t))) ∧
  (∀ (x : BitVec 3) (s : State), s.kst.dflt = {} → (s.dom.sessions.get x.toNat).phase = 2 → (s.dom.sessions.get x.toNat).heartbeat ≠ 0 →
    ∃ t, exec (.spdmHeartbeatTimeout x) s = .next t ∧ t.dom.sessions.get x.toNat = {} ∧ t.out = s.out ∧
      ∀ i, t.slot i = if i = masterSlot x.toNat ∨ i = responseSlot x.toNat ∨ i = requestSlot x.toNat then {} else s.slot i) ∧
  (∀ (m : SpdmHdr) (s : State), s.rcv.fwRunning = false →
    exec (.getVersion m) s = .next s ∧ exec (.heartbeat m) s = .next s ∧ exec (.endSession m) s = .next s)

/-- The dictionary server answers READ with an entry's value, the first failing check of R450 or the first segment of a snapshot, WRITE with the
entry's effect or an open transaction, SEG_READ and SEG_WRITE by segment, and DICT_ABORT by ending the transaction; a whole-index read carries
the readable entries in order (R441, R447-R450). An idle transaction is freed (R449). -/
def Obligations.DictionaryMessagesComplete : Prop :=
  (∀ (path : DictPath) (m : DictMsg) (s : State), pathOpen s path = true →
    let ix := m.index.toNat
    let sub := m.sub.toNat
    let u := if ix ∈ [0x8040, 0x8041] then readSensors (asked path m s) else asked path m s
    let may (e : Nat × DictRow) : Bool := (principalOf path (msgDbg m)).elim false (fun w => mayReach w (arrivalOf path) e.2 ix e.1 false u)
    (msgWhole m = false →
      let st := if headerReserved 1 m then St.reservedField else if !wellFormed 1 (segMax path) m then St.malformed
        else if !dictAvailable u ix sub then St.unavailable
        else match dictRow ix sub with
          | none => St.noEntry
          | some r => if !may (sub, r) then St.accessDenied else if m.type ≠ 0 ∧ m.type.toNat ≠ r.type then St.typeMismatch
            else if traceClosed u ix sub then St.entryState else St.success
      ∃ t a, exec (.dictRead path m) s = .next t ∧ Delivers path 1 m a s t ∧ (st ≠ St.success → a = dictRefuse m 0 st) ∧
        ∀ r, st = St.success → dictRow ix sub = some r →
          let v := dictValue u ix sub
          (v.length ≤ segMax path → a = { flags := 0, type := r.type, status := St.success, total := v.length, data := v }) ∧
          (segMax path < v.length → transRoom u v.length = false → a = dictRefuse m 0 St.dictBusy) ∧
          (segMax path < v.length → transRoom u v.length = true →
            a = { flags := 2, type := r.type, status := St.success, total := v.length, data := v.take (segMax path) } ∧
            ∃ x, t.ods.trans = u.ods.trans ++ [x] ∧ sameTrans (pathCode path) (requesterOf s path) m.tag.toNat x = true ∧ x.read = true ∧
              x.snapshot = v ∧ x.total = v.length ∧ x.type = r.type)) ∧
    (msgWhole m = true → headerReserved 1 m = false → wellFormed 1 (segMax path) m = true → m.type = 0 ∨ m.type = 8 →
      let rows := (indexRows ix).filter may
      let live := rows.filter (fun (e : Nat × DictRow) => !traceClosed u ix e.1)
      indexRows ix ≠ [] → (∀ e ∈ indexRows ix, dictAvailable u ix e.1 = true) → live ≠ [] → (wholeValue u ix live).length ≤ segMax path →
      ∃ t, exec (.dictRead path m) s = .next t ∧
        Delivers path 1 m { flags := 0, type := 8, status := St.success, total := (wholeValue u ix live).length, data := wholeValue u ix live } s t)) ∧
  (∀ (path : DictPath) (m : DictMsg) (row : DictRow) (who : Principal) (s : State), pathOpen s path = true →
    let ix := m.index.toNat
    let sub := m.sub.toNat
    let u := asked path m s
    headerReserved 2 m = false → wellFormed 2 (segMax path) m = true → dictAvailable u ix sub = true → dictRow ix sub = some row →
    principalOf path (msgDbg m) = some who →
    let open_ := mayReach who (arrivalOf path) row ix sub true u
    let fits := typeFits row m.type.toNat m.total.toNat
    (open_ = false → ∃ t, exec (.dictWrite path m) s = .next t ∧ Delivers path 2 m (dictRefuse m 0 St.accessDenied) s t) ∧
    (open_ = true → fits = false → ∃ t, exec (.dictWrite path m) s = .next t ∧ Delivers path 2 m (dictRefuse m 0 St.typeMismatch) s t) ∧
    (open_ = true → fits = true → msgSeg m = false →
      let r := applyWrite who ix sub row m.data u
      exec (.dictWrite path m) s = .next (deliverDict path 2 m { flags := 0, type := m.type.toNat, status := r.2, total := 0, data := [] }
        { r.1 with ods := { r.1.ods with refused := r.1.ods.refused + b2n (r.2 != 0) } })) ∧
    (open_ = true → fits = true → msgSeg m = true → transRoom u m.total.toNat = true →
      ∃ t x, exec (.dictWrite path m) s = .next t ∧ Delivers path 2 m (dictRefuse m 2 St.success) s t ∧ t.ods.trans = u.ods.trans ++ [x] ∧
        sameTrans (pathCode path) (requesterOf s path) m.tag.toNat x = true ∧ x.read = false ∧ x.who = who ∧ x.index = ix ∧ x.sub = sub ∧
        x.snapshot = m.data ∧ x.total = m.total.toNat ∧ x.segs = 1) ∧
    (open_ = true → fits = true → msgSeg m = true → transRoom u m.total.toNat = false →
      ∃ t, exec (.dictWrite path m) s = .next t ∧ Delivers path 2 m (dictRefuse m 0 St.dictBusy) s t)) ∧
  (∀ (path : DictPath) (m : DictMsg) (x : DictTrans) (s : State), pathOpen s path = true →
    let id := (pathCode path, requesterOf s path, m.tag.toNat)
    (headerReserved 3 m = false → wellFormed 3 (segMax path) m = true →
      (id ∈ s.ods.ended → ∃ t, exec (.segRead path m) s = .next t ∧ Delivers path 3 m (dictRefuse m 0 St.transferAborted) s t ∧ id ∉ t.ods.ended) ∧
      (id ∉ s.ods.ended → s.ods.trans.find? (sameTrans id.1 id.2.1 id.2.2) = none →
        ∃ t, exec (.segRead path m) s = .next t ∧ Delivers path 3 m (dictRefuse m 0 St.transferTimeout) s t)) ∧
    (id ∉ s.ods.ended → s.ods.trans.find? (sameTrans id.1 id.2.1 id.2.2) = some x →
      let k := m.segNo.toNat * segMax path
      (headerReserved 3 m = false → wellFormed 3 (segMax path) m = true → x.read = true → k < x.total →
        ∃ t, exec (.segRead path m) s = .next t ∧
          Delivers path 3 m { flags := if x.total ≤ k + segMax path then 6 else 2, type := x.type, status := St.success, total := x.total,
                              data := (x.snapshot.drop k).take (segMax path) } s t) ∧
      (headerReserved 4 m = false → wellFormed 4 (segMax path) m = true → x.read = false → m.segNo.toNat = x.segs →
        let bs := x.snapshot ++ m.data
        (msgLast m = false → bs.length < x.total →
          ∃ t, exec (.segWrite path m) s = .next t ∧ Delivers path 4 m (dictRefuse m 2 St.success) s t ∧
            ∃ y ∈ t.ods.trans, sameTrans id.1 id.2.1 id.2.2 y = true ∧ y.snapshot = bs ∧ y.segs = x.segs + 1) ∧
        (∀ row, msgLast m = true → bs.length = x.total → dictRow x.index x.sub = some row →
          let r := applyWrite x.who x.index x.sub row bs (asked path m s)
          exec (.segWrite path m) s = .next (deliverDict path 4 m (dictRefuse m 2 r.2)
            { r.1 with ods := { r.1.ods with refused := r.1.ods.refused + b2n (r.2 != 0) } })))) ∧
    (headerReserved 5 m = false → wellFormed 5 (segMax path) m = true →
      ∃ t, exec (.dictAbort path m) s = .next t ∧ Delivers path 5 m (dictRefuse m 0 St.success) s t ∧
        t.ods.trans = s.ods.trans.filter (fun x => !sameTrans id.1 id.2.1 id.2.2 x))) ∧
  (∀ (path : DictPath) (tag : BitVec 8) (s : State),
    exec (.dictSegIdleExpiry path tag) s = .next { s with ods := { s.ods with
      trans := s.ods.trans.filter (fun x => !sameTrans (pathCode path) (requesterOf s path) tag.toNat x) } }) ∧
  (∀ (path : DictPath) (m : DictMsg) (s : State), pathOpen s path = false →
    exec (.dictRead path m) s = .next s ∧ exec (.dictWrite path m) s = .next s ∧ exec (.segRead path m) s = .next s ∧
    exec (.segWrite path m) s = .next s ∧ exec (.dictAbort path m) s = .next s)

/-- A whole value written to an entry has the entry's effect or the refusal of the first check that fails (R450); a mailbox's GO runs the
message in its buffer and completes it (R453, R454); a dictionary message on the fabric runs at its TARGET and its answer goes toward ORIGIN
(R455); LE_MODE moves a port between DIRECT and GATEWAY while no stream is open on it (R260). -/
def Obligations.DictionaryCarriersComplete : Prop :=
  (∀ (who : Principal) (index : BitVec 16) (sub type : BitVec 8) (value : Bytes) (s : State),
    let ix := index.toNat
    let n := sub.toNat
    let answer (st : Nat) : Prop := ∃ t, exec (.dictEntryWrite who index sub type value) s = .next t ∧ t.out = s.out ++ [.dictStatus who st] ∧
      t = { s with out := t.out, ods := t.ods }
    (dictAvailable s ix n = false → answer St.unavailable) ∧
    (dictAvailable s ix n = true → dictRow ix n = none → answer St.noEntry) ∧
    (∀ r, dictAvailable s ix n = true → dictRow ix n = some r →
      (mayReach who 16 r ix n true s = false → answer St.accessDenied) ∧
      (mayReach who 16 r ix n true s = true → typeFits r type.toNat value.length = false → answer St.typeMismatch) ∧
      (mayReach who 16 r ix n true s = true → typeFits r type.toNat value.length = true →
        let w := applyWrite who ix n r value s
        ∃ t, exec (.dictEntryWrite who index sub type value) s = .next t ∧ t.out = w.1.out ++ [.dictStatus who w.2] ∧
          t = { w.1 with out := t.out, ods := { w.1.ods with requests := w.1.ods.requests + 1, refused := w.1.ods.refused + b2n (w.2 != 0) } }))) ∧
  (∀ (x : BitVec 16) (s : State), s.rcv.fwRunning = true →
    (16 ≤ x.toNat → x.toNat ≤ 4096 →
      ∃ t, exec (.dictEntryWrite .hostk 0x5001 4 3 (leBytes 2 x.toNat)) s = .next t ∧ t.link.flushNs = x.toNat ∧ t.out = s.out ++ [.dictStatus .hostk St.success]) ∧
    (x.toNat < 16 ∨ 4096 < x.toNat →
      ∃ t, exec (.dictEntryWrite .hostk 0x5001 4 3 (leBytes 2 x.toNat)) s = .next t ∧ t.link = s.link ∧
        t.out = s.out ++ [.dictStatus .hostk St.invalidOperand])) ∧
  (∀ (box : BitVec 5) (irqEn : Bool) (reqLen : BitVec 32) (request : Bytes) (s : State),
    let n := min box.toNat 16
    let path := DictPath.mailbox (BitVec.ofNat 5 n)
    pathOpen s path = true → (s.ods.mbs.get n).go = false →
    (reqLen.toNat < 16 ∨ 4096 < reqLen.toNat →
      ∃ t, exec (.mbGo box irqEn reqLen request) s = .next t ∧ t.out = s.out ∧ (t.ods.mbs.get n).lenErr = true ∧ (t.ods.mbs.get n).reqLen = reqLen.toNat) ∧
    (16 ≤ reqLen.toNat → reqLen.toNat ≤ 4096 →
      ∃ t op m a, exec (.mbGo box irqEn reqLen request) s = .next t ∧ (op, m) = msgOf (fit reqLen.toNat (request.take 4096)) ∧
        (t.ods.mbs.get n).response = ansBytes op m a ∧ (t.ods.mbs.get n).rspLen = 16 + a.data.length ∧ (t.ods.mbs.get n).done = true ∧
        (t.ods.mbs.get n).go = false ∧
        (headerReserved op m = true → a = dictRefuse m 0 St.reservedField) ∧
        (headerReserved op m = false → wellFormed op 4080 m = false → a = dictRefuse m 0 St.malformed) ∧
        (headerReserved op m = false → wellFormed op 4080 m = true → op = 5 → a = dictRefuse m 0 St.success) ∧
        (irqEn = true → headerReserved op m = true →
          let v := if n = 16 then s.ods.mbVector else (s.cex.rings.get n).vector
          if bit (s.cex.msixTable.get v).toNat 96 then t.cex.msixPba.get v = true else Sends [.msix v] s t))) ∧
  (∀ (slc : BitVec 4) (h : DomHdr) (origin target : BitVec 16) (message : Bytes) (s : State),
    let sl := slc.toNat
    let d := s.domain sl
    let body := d2 origin.toNat ++ d2 target.toNat ++ message
    d.state ∈ [2, 3] →
    (Arrived sl h 0x0100 body s →
      (∀ hop, target.toNat ≠ d.member → nextHop d target.toNat = some hop →
        ∃ t, exec (.dictAccess slc h origin target message) s = .next t ∧ SendsMsg sl hop 0x0100 body s t) ∧
      (target.toNat = d.member → 16 ≤ message.length → (msgOf message).1 = 1 →
        let w := updDom sl (fun d => { d with seqIn := d.seqIn.set h.sender.toNat h.sequence.toNat })
          { s with link := { s.link with inbox := s.link.inbox.erase { slice := sl, plain := plainType 0x0100, data := domBytes h 0x0100 body } } }
        ∃ t, exec (.dictAccess slc h origin target message) s = .next t ∧ exec (.dictRead (.fabric slc origin) (msgOf message).2) w = .next t)) ∧
    (Arrived sl h 0x0101 body s →
      (∀ hop, origin.toNat ≠ d.member → nextHop d origin.toNat = some hop →
        ∃ t, exec (.dictReply slc h origin target message) s = .next t ∧ SendsMsg sl hop 0x0101 body s t) ∧
      (origin.toNat = d.member →
        ∃ t, exec (.dictReply slc h origin target message) s = .next t ∧ t.out = s.out ++ [.firmware sl message]))) ∧
  (∀ (who : Principal) (port : BitVec 5) (mode : BitVec 8) (s : State), s.rcv.fwRunning = true → mayWrite who [1] s = true → port.toNat < 18 →
    let used := s.link.streams.ents.any (fun e => e.2.state != 0 && e.2.port == port.toNat)
    let answer (st : Nat) : Prop := ∃ t, exec (.leModeWrite who port mode) s = .next t ∧ t.out = s.out ++ [.dictStatus who st] ∧ t.link = s.link
    (used = true → answer St.portState) ∧
    (used = false → wired s port.toNat = false → answer St.entryState) ∧
    (used = false → wired s port.toNat = true → 1 < mode.toNat → answer St.invalidOperand) ∧
    (used = false → wired s port.toNat = true → mode.toNat ≤ 1 →
      ∃ t, exec (.leModeWrite who port mode) s = .next t ∧ t.out = s.out ++ [.dictStatus who St.success] ∧
        ∀ p, t.port p = if p = port.toNat then { s.port p with mode := mode.toNat } else s.port p))

/-- SETDASA and ENTDAA give a block without a dynamic address one (R451, R577); the MCTP control messages to the block's endpoint answer its EID,
UUID, version and message types (R451, R452, R459), and a packet with a whole dictionary message runs it, while one that fails a check is
dropped and counted (R451, R452). The codes and encodings of I3C and MCTP are the model's presumption (log 12). -/
def Obligations.ManagementNetworkCommandsComplete : Prop :=
  (∀ (a d : BitVec 7) (s : State), s.boot.inReset = false →
    (s.ods.i3cDynamic = 0 → s.ods.i3cStatic ≠ 0 → a.toNat = s.ods.i3cStatic →
      exec (.setdasa a d) s = .next { s with ods := { s.ods with i3cDynamic := d.toNat } }) ∧
    (s.ods.i3cDynamic ≠ 0 ∨ s.ods.i3cStatic = 0 ∨ a.toNat ≠ s.ods.i3cStatic → exec (.setdasa a d) s = .next s) ∧
    (s.ods.i3cDynamic = 0 → exec (.entdaa d) s = .next { s with ods := { s.ods with i3cDynamic := d.toNat } }) ∧
    (s.ods.i3cDynamic ≠ 0 → exec (.entdaa d) s = .next s)) ∧
  (∀ (dest source op eid type selector : BitVec 8) (s : State),
    let reply (code : Nat) (values : Bytes) (t : State) : Prop := Sends [.response 4 code (Config.stdBody code values), .ibi 0xAE] s t
    (atEndpoint s dest.toNat = true →
      (op.toNat ≤ 1 → 8 ≤ eid.toNat → eid ≠ 0xFF →
        ∃ t, exec (.setEndpointId dest source op eid) s = .next t ∧ t.ods.eid = eid.toNat ∧ t.ods.busOwner = source.toNat ∧ reply 1 [0, 0, eid, 0] t) ∧
      (1 < op.toNat ∨ eid.toNat < 8 ∨ eid = 0xFF →
        ∃ t, exec (.setEndpointId dest source op eid) s = .next t ∧ t.ods = s.ods ∧ reply 1 [2] t) ∧
      (∃ t, exec (.getEndpointId dest) s = .next t ∧ reply 2 (0 :: d1 s.ods.eid) t) ∧
      (∃ t, exec (.getEndpointUuid dest) s = .next t ∧ reply 3 (0 :: endpointUuid s) t) ∧
      (∃ t, exec (.getMctpVersionSupport dest type) s = .next t ∧ reply 4 [0, type] t) ∧
      (∃ t, exec (.getMessageTypeSupport dest) s = .next t ∧ reply 5 [0, 3, 0x05, 0x06, 0x7F] t) ∧
      (∃ t, exec (.getVendorDefinedMessageSupport dest selector) s = .next t ∧
        reply 6 (if selector = 0 then [0, 0xFF, 1] ++ beBytes 4 61703 else [2]) t)) ∧
    (atEndpoint s dest.toNat = false →
      exec (.setEndpointId dest source op eid) s = .next s ∧ exec (.getEndpointId dest) s = .next s ∧ exec (.getEndpointUuid dest) s = .next s)) ∧
  (∀ (binding : Bool) (packet : Bytes) (s : State), s.boot.inReset = false →
    let (som, eom, seq, tag, source) := packetHdr packet
    let data := packet.drop 4
    let fits := binding = true ∧ 5 ≤ packet.length ∧ packet.length ≤ 68 ∧ field packet 0 1 % 16 = 1 ∧ atEndpoint s (field packet 1 1) = true ∧
      (eom = true ∨ packet.length = 68)
    let others := s.ods.asm.filter (fun a => !(a.source == source && a.tag == tag))
    let dropped := { s with ods := { s.ods with packetsDropped := s.ods.packetsDropped + 1 } }
    (¬fits → exec (.mctpPacketReceive binding packet) s = .next dropped) ∧
    (fits → som = true → eom = false →
      exec (.mctpPacketReceive binding packet) s = .next { s with ods := { s.ods with asm := others ++ [{ source, tag, seq, data }] } }) ∧
    (fits → som = false → s.ods.asm.find? (fun a => a.source == source && a.tag == tag) = none →
      exec (.mctpPacketReceive binding packet) s = .next dropped) ∧
    (∀ a, fits → som = false → eom = false → s.ods.asm.find? (fun a => a.source == source && a.tag == tag) = some a → seq = (a.seq + 1) % 4 →
      exec (.mctpPacketReceive binding packet) s = .next { s with ods := { s.ods with asm := others ++ [{ source, tag, seq, data := a.data ++ data }] } }) ∧
    (fits → som = true → eom = true → 21 ≤ data.length → field data 0 1 = 0x7F → beNat (slice data 1 4) = 61703 → (msgOf (data.drop 5)).1 = 1 →
      ∃ t, exec (.mctpPacketReceive binding packet) s = .next t ∧
        exec (.dictRead (.i3c (BitVec.ofNat 8 source)) (msgOf (data.drop 5)).2) { s with ods := { s.ods with asm := others } } = .next t) ∧
    (fits → som = true → eom = true → field data 0 1 = 0x01 →
      ∃ t, exec (.mctpPacketReceive binding packet) s = .next t ∧ t = { s with ods := { s.ods with asm := others, messagesDropped := s.ods.messagesDropped + 1 } })) ∧
  (∀ (s : State), ∃ t, exec .powerEstimateUpdate s = .next t ∧ t.ods.powerMw = (s.draw 32).toNat ∧ t.free = s.free + 22 ∧
    t = { s with ods := t.ods, free := t.free })

/-- A life-cycle transition is refused by the first failing condition of R508 or begins, and its programming goes from the intent half through
the wipe to the commit half and a chip reset (R507-R517); debug scopes open by request alone or after Molnor's response to a challenge
(R519-R525); VAULT_PROVISION makes a root secret (R532); the debug module is reached with the CPU scope open (R526, R527); the TAP reaches
the life-cycle register and the debug module only in the states that offer them (R529). -/
def Obligations.LifeCycleAndDebugCommandsComplete : Prop :=
  (∀ (who : Principal) (value : Bytes) (s : State), s.lcc.decoded = true → mayWrite who [0, 1, 3] s = true →
    let r := lcRefusal s value
    (value.length ≠ 24 → ∃ t, exec (.lcTransition (.dict who) value) s = .next t ∧ t.lcc = s.lcc ∧ t.out = s.out ++ [.dictStatus who St.typeMismatch]) ∧
    (value.length = 24 → ∃ t, exec (.lcTransition (.dict who) value) s = .next t ∧ t.out = s.out ++ [.dictStatus who St.success] ∧
      (r = 0 → t.lcc = { s.lcc with progress := 1, target := field value 0 1 }) ∧
      (r ≠ 0 → t.lcc.result = r ∧ t.lcc.progress = s.lcc.progress ∧
        t.lcc.tokenFailures = s.lcc.tokenFailures + (if r = St.badSignature ∧ s.lcc.tokenFailures < 3 then 1 else 0)))) ∧
  (∀ (ir : TapInstr) (value : Bytes) (s : State),
    (tapOffers s.lcc.state ir = false → exec (.lcTransition (.tap ir) value) s = .next s) ∧
    (tapOffers s.lcc.state ir = true → ir ≠ .lcRegister →
      exec (.lcTransition (.tap ir) value) s = .next { s with lcc := { s.lcc with tapIr := ir } }) ∧
    (testLocked s.lcc.state = true ∨ testUnlocked s.lcc.state = true → value.length = 24 → lcRefusal s value = 0 →
      exec (.lcTransition (.tap .lcRegister) value) s =
        .next { s with lcc := { s.lcc with tapIr := .lcRegister, progress := 1, target := field value 0 1 } })) ∧
  (∀ (s : State),
    let w := lcWordOf s.lcc.target
    (s.lcc.progress = 1 → ∃ t, exec .lcOtpProgramDone s = .next t ∧ t.lcc.words.get w = s.lcc.words.get w ||| BitVec.ofNat 32 lcIntent ∧
      t.lcc.target = s.lcc.target ∧
      (provisions s.lcc.target = true → entOk s = true → s.vault.state ≠ 2 →
        t.lcc.progress = 3 ∧ t.vault.state = 0 ∧ t.vault.provisioned = true) ∧
      (provisions s.lcc.target = true → entOk s = false ∨ s.vault.state = 2 → t.lcc.progress = 2 ∧ t.vault = s.vault) ∧
      (erases s.lcc.target = true → t.lcc.progress = 3 ∧ t.vault.rs = 0 ∧ t.vault.provisioned = false ∧ t.engKeys = [] ∧
        (s.kst.dflt = {} → ∀ n, t.slot n = {})) ∧
      (provisions s.lcc.target = false → erases s.lcc.target = false → t.lcc.progress = 3 ∧ t.vault = s.vault ∧ t.kst = s.kst)) ∧
    (s.lcc.progress = 3 → ∃ t, exec .lcOtpProgramDone s = .next t ∧ t.lcc.words.get w = s.lcc.words.get w ||| BitVec.ofNat 32 lcPattern ∧
      t.lcc.progress = 4 ∧ t.lcc.result = 0 ∧ (s.rcv.powerCycleReq = false → t.rcv.chipResetReq = true)) ∧
    (s.lcc.progress ≠ 1 → s.lcc.progress ≠ 3 → exec .lcOtpProgramDone s = .next s)) ∧
  (∀ (who : Principal) (scopes : BitVec 8) (s : State), s.lcc.decoded = true → mayWrite who [0, 1] s = true →
    let n := scopes.toNat
    let st := s.lcc.state
    let refused (c : Nat) : Prop := ∃ t, exec (.debugRequest who scopes) s = .next t ∧ t.out = s.out ++ [.dictStatus who St.success] ∧
      t.lcc = { s.lcc with debugResult := c }
    (0x20 ≤ n → refused St.reservedField) ∧
    (n = 0 → refused St.invalidOperand) ∧
    (0 < n → n < 0x20 → subset n (Nat.lor (aloneScopes st) (molnorScopes st)) = false → refused St.identityState) ∧
    (0 < n → n < 0x20 → subset n (Nat.lor (aloneScopes st) (molnorScopes st)) = true →
      (noDomain s = false → refused St.domainState) ∧
      (noDomain s = true → subset n (aloneScopes st) = true →
        ∃ t, exec (.debugRequest who scopes) s = .next t ∧ t.lcc.debugResult = 0 ∧ t.lcc.scopes = Nat.lor s.lcc.scopes n ∧
          t.lcc.openings = s.lcc.openings + 1 ∧ (s.kst.dflt = {} → ∀ i, 32 ≤ i → t.slot i = {})) ∧
      (noDomain s = true → subset n (aloneScopes st) = false →
        ∃ t, exec (.debugRequest who scopes) s = .next t ∧ t.lcc.debugResult = 0 ∧ t.lcc.outstanding = true ∧
          t.lcc.challengeSeq = s.lcc.challengeSeq + 1 ∧ t.lcc.scopes = s.lcc.scopes ∧
          t.lcc.challenge = challengeBytes s n (leBytes 32 (drbgBits 256 s).1.toNat)))) ∧
  (∀ (who : Principal) (v : Bytes) (s : State), s.lcc.decoded = true → mayWrite who [0, 1] s = true →
    let shaped := v.length = 7275 ∧ slice v 0 6 = magicFormat "DBR1" ∧ field v 7 1 = 0
    let current := s.lcc.outstanding = true ∧ slice v 8 48 = digestBytes (Config.sha384 s.lcc.challenge)
    let r := responseRefusal { s with lcc := { s.lcc with outstanding := false } } v
    ∃ t, exec (.debugResponse who v) s = .next t ∧ (∃ l, t.out = s.out ++ l ++ [.dictStatus who St.success]) ∧
      (¬shaped → t.lcc = { s.lcc with debugResult := St.reservedField }) ∧
      (shaped → ¬current → t.lcc = { s.lcc with debugResult := St.notReady }) ∧
      (shaped → current → r ≠ 0 → t.lcc = { s.lcc with outstanding := false, debugResult := r }) ∧
      (shaped → current → r = 0 → t.lcc.outstanding = false ∧ t.lcc.debugResult = 0 ∧ t.lcc.openings = s.lcc.openings + 1 ∧
        t.lcc.scopes = Nat.lor s.lcc.scopes (field v 6 1))) ∧
  (∀ (who : Principal) (s : State), s.lcc.decoded = true → mayWrite who [0, 1] s = true →
    let due := bit s.lcc.scopes 3 = true ∧ s.vault.state = 1
    ∃ t, exec (.vaultProvision who true) s = .next t ∧
      (due → entOk s = true → t.vault.state = 0 ∧ t.vault.provisioned = true ∧ t.out = s.out ++ [.dictStatus who St.success]) ∧
      (due → entOk s = false → t.vault = s.vault ∧ t.lcc.provisionDue = true ∧ t.out = s.out ++ [.dictStatus who St.success]) ∧
      (¬due → t.vault = s.vault ∧ t.lcc = s.lcc ∧ t.out = s.out ++ [.dictStatus who St.entryState])) ∧
  (∀ (who : Principal) (pair : Bool) (addr : BitVec 8) (data : BitVec 32) (s : State), s.lcc.decoded = true → mayWrite who [3] s = true →
    let k := b2n pair
    (bit s.lcc.scopes 1 = false → ∃ t u, exec (.dmiRead (.dict who) pair addr) s = .next t ∧ t.lcc = s.lcc ∧
      exec (.dmiWrite (.dict who) pair addr data) s = .next u ∧ u.lcc = s.lcc ∧
      t.out = s.out ++ [.dictStatus who St.entryState] ∧ u.out = s.out ++ [.dictStatus who St.entryState]) ∧
    (bit s.lcc.scopes 1 = true →
      (let r := dmRead addr.toNat s
       ∃ t, exec (.dmiRead (.dict who) pair addr) s = .next t ∧ t.out = r.2.out ++ [.dmi r.1, .dictStatus who St.success] ∧
        t.lcc.dmiStatus.get k = 0 ∧ t.lcc.dmiAddr.get k = addr.toNat ∧ t.lcc.dmiData.get k = BitVec.ofNat 32 r.1) ∧
      (∃ t, exec (.dmiWrite (.dict who) pair addr data) s = .next t ∧ t.lcc.dmiStatus.get k = 0 ∧ t.lcc.dmiAddr.get k = addr.toNat ∧
        t.lcc.dmiData.get k = data ∧
        (addr = 0x04 → s.lcc.dmActive = true → t.lcc.dmData.get 0 = data) ∧
        (addr = 0x10 → data = 0x80000001 → (t.lcc.harts.get 0).haltReq = true ∧ t.lcc.dmActive = true ∧
          ((s.lcc.harts.get 0).haltReq = false → (t.icu.src.get (srcKey false 26)).pending = true))))) ∧
  (∀ (ir : TapInstr) (pair : Bool) (addr : BitVec 8) (data : BitVec 32) (s : State),
    (testUnlocked s.lcc.state = false → ir = .debug → exec (.dmiRead (.tap ir) pair addr) s = .next s ∧ exec (.dmiWrite (.tap ir) pair addr data) s = .next s) ∧
    (testUnlocked s.lcc.state = true →
      let u := { s with lcc := { s.lcc with tapIr := .debug } }
      ∃ t, exec (.dmiRead (.tap .debug) pair addr) s = .next t ∧ t.out = (dmRead addr.toNat u).2.out ++ [.dmi (dmRead addr.toNat u).1] ∧ t.lcc.tapIr = .debug)) ∧
  (∀ (pair : Bool) (s : State),
    let h := s.lcc.harts.get (b2n pair)
    let halts := bit s.lcc.scopes 1 = true ∧ h.halted = false ∧ (s.rcv.hist.get (b2n pair)).resetting = false
    (halts → ∃ t, exec (.hartHalted pair) s = .next t ∧ t.lcc.harts = s.lcc.harts.set (b2n pair) { h with
      halted := true, halts := h.halts + 1, haltReq := false, regs := Tbl.const none }) ∧
    (¬halts → exec (.hartHalted pair) s = .next s))

/-- COUNTER_RESET clears the counters named and advances their epochs, COUNTER_SNAPSHOT copies every counter (R537, R538); TRACE_ARM starts or
stops a capture, TRACE_TRIGGER_NOW fires trigger 4, TRACE_MARKER and TRACE_PC_SAMPLE write their records, with the trace scope open (R540-R548,
R552). -/
def Obligations.ObservationCommandsComplete : Prop :=
  (∀ (who : Principal) (bitmap : BitVec 96) (s : State), s.lcc.decoded = true → mayWrite who [0, 1, 3, 4] s = true →
    ((∀ i, i < 96 → bit bitmap.toNat i = true → (s.obs.counters.get i).1 < 255) →
      ∃ t, exec (.counterReset who bitmap) s = .next t ∧ t.out = s.out ++ [.dictStatus who St.success] ∧ t.obs.epochWraps = s.obs.epochWraps ∧
        ∀ i, t.obs.counters.get i =
          if i < 96 ∧ bit bitmap.toNat i = true then ((s.obs.counters.get i).1 + 1, 0) else s.obs.counters.get i) ∧
    (∀ i, i < 96 → bitmap = BitVec.ofNat 96 (2 ^ i) → (s.obs.counters.get i).1 = 255 →
      ∃ t, exec (.counterReset who bitmap) s = .next t ∧ (t.obs.counters.get i).1 = 0 ∧ t.obs.epochWraps = s.obs.epochWraps + 1 ∧
        (i < 91 → i ≠ 69 → (t.obs.counters.get i).2 = 0) ∧
        (t.icu.src.get (srcKey false 370)).input = true)) ∧
  (∀ (who : Principal) (s : State), s.lcc.decoded = true → mayWrite who [0, 1, 3, 4] s = true →
    (∃ t, exec (.counterSnapshot who true) s = .next t ∧ t.obs = { s.obs with snap := s.obs.counters, snapTime := s.now } ∧
      t.out = s.out ++ [.dictStatus who St.success]) ∧
    (∃ t, exec (.counterSnapshot who false) s = .next t ∧ t.obs = s.obs ∧ t.out = s.out ++ [.dictStatus who St.success])) ∧
  (∀ (who : Principal) (s : State), s.rcv.fwRunning = true → mayWrite who [3] s = true →
    (traceOpen s = true → s.obs.syncInterval ≠ 0 →
      (∃ t, exec (.traceArm who true) s = .next t ∧ t.obs.arm = true ∧ t.obs.state = 1 ∧ t.obs.stored = 1 ∧ t.obs.seq = 1 ∧
        t.obs.buffer.get 0 = some { type := 4, flags := 0, seq := 0, timestamp := s.now, payload := syncPayload s, payload2 := 0 } ∧
        ∀ i, 0 < i → t.obs.buffer.get i = none) ∧
      (∃ t, exec (.traceArm who false) s = .next t ∧ t.obs = { s.obs with arm := false, state := 0 })) ∧
    (traceOpen s = false → ∀ on, ∃ t, exec (.traceArm who on) s = .next t ∧ t.obs = s.obs ∧ t.out = s.out ++ [.dictStatus who St.entryState]) ∧
    (traceOpen s = true → s.obs.state = 1 → s.obs.writeIndex < 8191 → s.obs.fired.get 4 = false →
      ∃ t r, exec (.traceTriggerNow who true) s = .next t ∧ t.obs.fired.get 4 = true ∧ t.obs.buffer.get s.obs.writeIndex = some r ∧
        r.type = 2 ∧ r.payload = 4 ∧ r.seq = s.obs.seq ∧
        (t.icu.src.get (srcKey false 368)).input = true) ∧
    (∃ t, exec (.traceTriggerNow who false) s = .next t ∧ t.obs = s.obs)) ∧
  (∀ (who : Principal) (marker value : BitVec 64) (s : State), s.rcv.fwRunning = true → mayWrite who [4] s = true → traceOpen s = true →
    s.obs.state = 1 → s.obs.writeIndex < 8191 → (∀ i, i < 4 → (s.obs.trig.get i).kind ≠ 4) →
    ∃ t r, exec (.traceMarker who marker value) s = .next t ∧ t.obs.buffer.get s.obs.writeIndex = some r ∧
      r.type = 5 ∧ r.payload = marker.toNat ∧ r.payload2 = value.toNat ∧ r.seq = s.obs.seq) ∧
  (∀ (pair : Bool) (pc : BitVec 64) (stall : BitVec 2) (target : BitVec 16) (s : State),
    (s.obs.state = 0 ∨ traceOpen s = false → ∀ l, exec (.tracePcSample l) s = .next s) ∧
    (s.obs.state = 1 → traceOpen s = true → s.obs.writeIndex < 8191 → (∀ i, i < 4 → (s.obs.trig.get i).kind ≠ 3 ∧ (s.obs.trig.get i).kind ≠ 1) →
      bit s.obs.pcSelect (b2n pair) = true → (s.rcv.hist.get (b2n pair)).resetting = false →
      let halted := (s.lcc.harts.get (b2n pair)).halted
      ∃ t r, exec (.tracePcSample [(pair, pc, stall, target)]) s = .next t ∧ t.obs.buffer.get s.obs.writeIndex = some r ∧ r.type = 1 ∧
        r.payload = pc.toNat ∧ r.seq = s.obs.seq ∧
        r.flags = b2n pair + (if halted then 8 else stall.toNat * 2) ∧ r.payload2 = (if stall = 1 ∧ halted = false then target.toNat else 0xFFFF)))

/-- The block leaves chip reset with its timers at 0, its straps applied and its life-cycle state decoded, and goes on as far as that state and
what the flash and the network hold allow (R505, R515, R557, R579, R589, R591-R593); a fetch is tried again (R592); the firmware
starts (R589, R594). -/
def Obligations.StartUpCommandsComplete : Prop :=
  (∀ (rails : BitVec 7) (straps : List (BitVec 8)) (kat : Option (BitVec 8)) (flash recovery : Option FwImage) (certs : List Bytes) (s : State),
    let u := takeRails rails.toNat s
    let d := lcDecode (fun i => (s.lcc.words.get i).toNat)
    (mayRelease u = false → exec (.chipResetRelease rails straps kat flash recovery certs) s = .next u) ∧
    (mayRelease u = true →
      ∃ t, exec (.chipResetRelease rails straps kat flash recovery certs) s = .next t ∧ t.boot.inReset = false ∧
        t.clk.compute = 0 ∧ t.clk.io0 = 0 ∧ t.clk.io1 = 0 ∧ t.clk.running = true ∧ t.lcc.decoded = true ∧ t.lcc.state = d.1 ∧ t.lcc.words = s.lcc.words ∧
        t.atu.mr.get 0 = extend (s.atu.mr.get 0) Config.bromDigest ∧
        (∀ i, i < 8 → i ≠ 6 → t.pins.applied.get i = (strapSample straps).getD i 0) ∧
        (d.1 ∈ [lcRaw, lcScrap, lcInvalid, lcPending] → t.boot.step = 4 ∧ t.boot.fetching = s.boot.fetching) ∧
        (d.1 ∈ [lcScrap, lcInvalid] → t.vault.rs = 0 ∧ t.vault.provisioned = false) ∧
        (d.1 ∉ [lcRaw, lcScrap, lcInvalid, lcPending] →
          (kat ≠ none → t.atu.identityFault = true ∧ t.atu.diceLock = true ∧ t.boot.katFail = kat.map (·.toNat)) ∧
          (flash = none → recovery = none → t.boot.step = 6 ∧ t.boot.fetching = true) ∧
          (∀ x, flash = some x → (t.pins.applied.get 7 = 0 → imageAccepted x = true →
              t.boot.step = 8 ∧ t.boot.fetching = false ∧ t.atu.diceLock = true ∧ t.ods.bootSource = 0 ∧
              t.atu.mr.get 2 = extend (s.atu.mr.get 2) (Config.sha384 x.image)) ∧
            (recovery = none → t.pins.applied.get 7 ≠ 0 ∨ imageAccepted x = false → t.boot.step = 6 ∧ t.boot.fetching = true))))) ∧
  (∀ (recovery : Option FwImage) (certs : List Bytes) (s : State),
    (s.boot.fetching = false → exec (.recoveryFetchRetry recovery certs) s = .next s) ∧
    (s.boot.fetching = true → recovery = none → exec (.recoveryFetchRetry recovery certs) s = .next s) ∧
    (∀ x, s.boot.fetching = true → recovery = some x → ∃ t, exec (.recoveryFetchRetry recovery certs) s = .next t ∧
      (imageAccepted x = false → t = s) ∧
      (imageAccepted x = true → t.boot.step = 8 ∧ t.boot.fetching = false ∧ t.ods.bootSource = 1 ∧ t.atu.diceLock = true ∧
        t.atu.mr.get 2 = extend (s.atu.mr.get 2) (Config.sha384 x.image)))) ∧
  (∀ (ect : EctValues) (failed : BitVec 128) (s : State),
    (s.boot.step ≠ 8 ∨ s.rcv.fwRunning = true → exec (.firmwareStart ect failed) s = .next s) ∧
    (s.boot.step = 8 → s.rcv.fwRunning = false →
      ∃ t, exec (.firmwareStart ect failed) s = .next t ∧ t.rcv.fwRunning = true ∧ t.boot.step = 9 ∧
        t.atu.mr.get 6 = extend (s.atu.mr.get 6) (Config.sha384 s.boot.ect) ∧
        t.atu.mr.get 7 = extend (s.atu.mr.get 7) (Config.sha384 (leBytes 16 failed.toNat)) ∧
        (∀ i, i ≠ 6 → i ≠ 7 → t.atu.mr.get i = s.atu.mr.get i) ∧
        t.mem.decodeG = ect.decodeG.toNat ∧ t.mem.decodeK = ect.decodeK.toNat ∧ t.mem.adjacency = ect.adjacency ∧
        t.boot.unpopulated = Nat.lor s.boot.unpopulated (bits failed.toNat 20 9) ∧ t.boot.unwired = Nat.lor s.boot.unwired (bits failed.toNat 40 23) ∧
        t.rcv.classCount.get 0x1A = s.rcv.classCount.get 0x1A + 1))

/-- The SRG spreads each holder's slots around the wheel: a holder of W slots holds W of the 1,024, and any 64 consecutive slots contain at least
⌊64 × W ÷ 1,024⌋ of them; a change of guarantee takes effect at the next revolution (R413). -/
def Obligations.SlotsAreSpreadAroundTheWheel : Prop :=
  (∀ (g : List Nat) (h i : Nat), g.foldl (fun a b => a + b) 0 ≤ 1024 →
    ((List.range 1024).filter (fun j => slotHolder g j == some h)).length = g.getD h 0 ∧
    64 * g.getD h 0 / 1024 ≤ ((List.range 64).filter (fun j => slotHolder g ((i + j) % 1024) == some h)).length) ∧
  (∀ (engine : BitVec 4) (s : State), populated s engine.toNat = true →
    let w := s.srg.wheels.get engine.toNat
    ∃ t, exec (.wheelSlotService engine) s = .next t ∧ (t.srg.wheels.get engine.toNat).pos = (w.pos + 1) % 1024 ∧
      (t.srg.wheels.get engine.toNat).held = (if w.pos = 0 then guarantees s engine.toNat else w.held))
end

