-- ==== Sys2Proof/Laws/Tbl.lean ====
section
/-!
SUPPORT. Laws of the sparse table: a read after a write, and that every operation keeps the canonical form.
-/

set_option Elab.async false
namespace Sys2Proof.Machine

variable {α : Type}

theorem Tbl.look_del (d : α) (l : List (Nat × α)) (i j : Nat) : Tbl.look d (Tbl.del l i) j = if j = i then d else Tbl.look d l j := by
  induction l with
  | nil => simp [Tbl.del, Tbl.look]
  | cons e l ih =>
    simp only [Tbl.del]
    split
    · rename_i h
      rw [ih]
      split
      · rfl
      · rename_i hj
        rw [Tbl.look, if_neg (fun hk => hj (hk.symm.trans h))]
    · rename_i h
      simp only [Tbl.look, ih]
      split
      · rename_i hk
        rw [if_neg (fun hj => h (hk.trans hj))]
      · rfl

theorem Tbl.look_ins (d : α) (l : List (Nat × α)) (i j : Nat) (x : α) :
    Tbl.look d (Tbl.ins l i x) j = if j = i then x else Tbl.look d l j := by
  induction l with
  | nil =>
    simp only [Tbl.ins, Tbl.look]
    split <;> split <;> first | rfl | (exfalso; omega)
  | cons e l ih =>
    simp only [Tbl.ins]
    split
    · simp only [Tbl.look]
      by_cases hj : j = i
      · rw [if_pos hj.symm, if_pos hj]
      · rw [if_neg (fun h => hj h.symm), if_neg hj]
    · split
      · rename_i h
        simp only [Tbl.look]
        by_cases hj : j = i
        · rw [if_pos hj.symm, if_pos hj]
        · rw [if_neg (fun h => hj h.symm), if_neg hj, if_neg (fun hk => hj (hk.symm.trans h))]
      · rename_i h
        simp only [Tbl.look, ih]
        by_cases hk : e.1 = j
        · rw [if_pos hk, if_pos hk, if_neg (fun hj => h (hk.trans hj))]
        · rw [if_neg hk, if_neg hk]

/-- A read after a write: the value written, at its index; every other index as before. -/
theorem Tbl.get_set [DecidableEq α] (t : Tbl α) (i j : Nat) (x : α) : (t.set i x).get j = if j = i then x else t.get j := by
  simp only [Tbl.set, Tbl.get]
  split
  · rename_i h
    rw [Tbl.look_del, h]
  · rw [Tbl.look_ins]

@[simp] theorem Tbl.get_set_self [DecidableEq α] (t : Tbl α) (i : Nat) (x : α) : (t.set i x).get i = x := by simp [Tbl.get_set]

theorem Tbl.get_set_ne [DecidableEq α] (t : Tbl α) {i j : Nat} (h : j ≠ i) (x : α) : (t.set i x).get j = t.get j := by simp [Tbl.get_set, h]

theorem Tbl.get_upd [DecidableEq α] (t : Tbl α) (i j : Nat) (f : α → α) : (t.upd i f).get j = if j = i then f (t.get i) else t.get j := by
  simp [Tbl.upd, Tbl.get_set]

@[simp] theorem Tbl.get_upd_self [DecidableEq α] (t : Tbl α) (i : Nat) (f : α → α) : (t.upd i f).get i = f (t.get i) := by simp [Tbl.get_upd]

theorem Tbl.get_upd_ne [DecidableEq α] (t : Tbl α) {i j : Nat} (h : j ≠ i) (f : α → α) : (t.upd i f).get j = t.get j := by simp [Tbl.get_upd, h]

@[simp] theorem Tbl.get_const (d : α) (i : Nat) : (Tbl.const d).get i = d := rfl

@[simp] theorem Tbl.set_dflt [DecidableEq α] (t : Tbl α) (i : Nat) (x : α) : (t.set i x).dflt = t.dflt := rfl

/-- What holds of every entry before a write of a value that it holds of, holds after. -/
theorem Tbl.all_set [DecidableEq α] {p : α → Prop} {t : Tbl α} (h : ∀ i, p (t.get i)) (i : Nat) {x : α} (hx : p x) (j : Nat) : p ((t.set i x).get j) := by
  rw [Tbl.get_set]
  split
  · exact hx
  · exact h j

/-! ### The canonical form -/

theorem Tbl.rising_mono (l : List (Nat × α)) {a b : Nat} (hab : b ≤ a) (h : Tbl.rising a l = true) : Tbl.rising b l = true := by
  cases l with
  | nil => rfl
  | cons e l =>
    simp only [Tbl.rising, Bool.and_eq_true, decide_eq_true_eq] at h ⊢
    exact ⟨Nat.le_trans hab h.1, h.2⟩

theorem Tbl.rising_del (l : List (Nat × α)) (lo i : Nat) (h : Tbl.rising lo l = true) : Tbl.rising lo (Tbl.del l i) = true := by
  induction l generalizing lo with
  | nil => rfl
  | cons e l ih =>
    simp only [Tbl.rising, Bool.and_eq_true, decide_eq_true_eq] at h
    simp only [Tbl.del]
    split
    · exact Tbl.rising_mono _ (by omega) (ih _ h.2)
    · simp only [Tbl.rising, Bool.and_eq_true, decide_eq_true_eq]
      exact ⟨h.1, ih _ h.2⟩

theorem Tbl.rising_ins (l : List (Nat × α)) (lo i : Nat) (x : α) (hi : lo ≤ i) (h : Tbl.rising lo l = true) : Tbl.rising lo (Tbl.ins l i x) = true := by
  induction l generalizing lo with
  | nil => simp [Tbl.ins, Tbl.rising, hi]
  | cons e l ih =>
    simp only [Tbl.rising, Bool.and_eq_true, decide_eq_true_eq] at h
    simp only [Tbl.ins]
    split
    · simp only [Tbl.rising, Bool.and_eq_true, decide_eq_true_eq]
      exact ⟨hi, by omega, h.2⟩
    · split
      · rename_i he
        simp only [Tbl.rising, Bool.and_eq_true, decide_eq_true_eq]
        exact ⟨hi, he ▸ h.2⟩
      · simp only [Tbl.rising, Bool.and_eq_true, decide_eq_true_eq]
        exact ⟨h.1, ih _ (by omega) h.2⟩

theorem Tbl.mem_del {l : List (Nat × α)} {i : Nat} {e : Nat × α} (h : e ∈ Tbl.del l i) : e ∈ l := by
  induction l with
  | nil => exact h
  | cons a l ih =>
    simp only [Tbl.del] at h
    split at h
    · exact List.mem_cons_of_mem _ (ih h)
    · rcases List.mem_cons.1 h with h | h
      · exact List.mem_cons.2 (Or.inl h)
      · exact List.mem_cons_of_mem _ (ih h)

theorem Tbl.mem_ins {l : List (Nat × α)} {i : Nat} {x : α} {e : Nat × α} (h : e ∈ Tbl.ins l i x) : e = (i, x) ∨ e ∈ l := by
  induction l with
  | nil => simpa [Tbl.ins] using h
  | cons a l ih =>
    simp only [Tbl.ins] at h
    split at h
    · rcases List.mem_cons.1 h with h | h
      · exact Or.inl h
      · exact Or.inr h
    · split at h
      · rcases List.mem_cons.1 h with h | h
        · exact Or.inl h
        · exact Or.inr (List.mem_cons_of_mem _ h)
      · rcases List.mem_cons.1 h with h | h
        · exact Or.inr (List.mem_cons.2 (Or.inl h))
        · rcases ih h with h | h
          · exact Or.inl h
          · exact Or.inr (List.mem_cons_of_mem _ h)

/-- A write keeps the canonical form, so equal tables are equal data. -/
theorem Tbl.wf_set [DecidableEq α] (t : Tbl α) (i : Nat) (x : α) (h : t.wf = true) : (t.set i x).wf = true := by
  simp only [Tbl.wf, Bool.and_eq_true, List.all_eq_true, Bool.not_eq_true', decide_eq_false_iff_not] at h ⊢
  simp only [Tbl.set]
  split
  · exact ⟨Tbl.rising_del _ _ _ h.1, fun e he => h.2 e (Tbl.mem_del he)⟩
  · rename_i hx
    refine ⟨Tbl.rising_ins _ _ _ _ (Nat.zero_le _) h.1, fun e he => ?_⟩
    rcases Tbl.mem_ins he with h' | h'
    · rw [h']; exact hx
    · exact h.2 e h'

theorem Tbl.wf_upd [DecidableEq α] (t : Tbl α) (i : Nat) (f : α → α) (h : t.wf = true) : (t.upd i f).wf = true := Tbl.wf_set _ _ _ h

theorem Tbl.wf_foldl_upd [DecidableEq α] {ι : Type} (g : ι → Nat) (f : ι → α → α) (l : List ι) (t : Tbl α) (h : t.wf = true) :
    (l.foldl (fun t i => t.upd (g i) (f i)) t).wf = true := by
  induction l generalizing t with
  | nil => exact h
  | cons a l ih => exact ih _ (Tbl.wf_upd _ _ _ h)

theorem Tbl.wf_const [DecidableEq α] (d : α) : (Tbl.const d).wf = true := rfl

end Sys2Proof.Machine
end

