-- ==== Sys2Proof/Laws/Keeps.lean ====
section
/-!
SUPPORT. What every operation keeps, base lemmas. `Keeps P Q` says that the predicate `Q` survives an update of every part that `P` allows, as long
as the update keeps the bounds of that part that Safety.lean names. For each operation of Machine/ the files Laws/Keeps*.lean prove once that it
keeps every such `Q`, naming the parts it may change; the frames (`Off`) and the invariants (`Kept`) of Safety.lean are the two instances.
-/

set_option Elab.async false
namespace Sys2Proof.Machine

theorem FusesKept.of_eq {a b : Lcc} (h1 : b.words = a.words) (h2 : b.deviceUid = a.deviceUid) (h3 : b.tokenDigests = a.tokenDigests)
    (h4 : b.molnorDigest = a.molnorDigest) : FusesKept a b :=
  ⟨fun i => by rw [h1]; exact BitVec.and_self, fun v h => by rw [h2, h], fun v h => by rw [h3, h], fun v h => by rw [h4, h]⟩

theorem FusesKept.trans {a b c : Lcc} (h : FusesKept a b) (k : FusesKept b c) : FusesKept a c where
  words i := by
    have h1 := h.words i
    have h2 := k.words i
    rw [← h1, BitVec.and_assoc, h2]
  uid v e := k.uid v (h.uid v e)
  tokens v e := k.tokens v (h.tokens v e)
  molnor v e := k.molnor v (h.molnor v e)

/-- A MFG_LOT that is not blank stays (R458). -/
def LotKept (a b : Ods) : Prop := ∀ v, v ≠ 0 → a.mfgLot = some v → b.mfgLot = some v

theorem LotKept.of_eq {a b : Ods} (h : b.mfgLot = a.mfgLot) : LotKept a b := fun _ _ e => h.trans e

/-- `Q` is kept by every update of a part that `P` allows. -/
structure Keeps (P : Part → Bool) (Q : State → Prop) : Prop where
  clk {s : State} {x : Timers} : P .clk = true → Q s → Q { s with clk := x }
  rcv {s : State} {x : Rcv} : P .rcv = true → (LogOk s.rcv → LogOk x) → Q s → Q { s with rcv := x }
  icu {s : State} {x : Icu} : P .icu = true → (NestOk s.icu → NestOk x) → Q s → Q { s with icu := x }
  obs {s : State} {x : Obs} : P .obs = true → (ObsOk s.obs → ObsOk x) → Q s → Q { s with obs := x }
  sen {s : State} {x : Sen} : P .sen = true → Q s → Q { s with sen := x }
  tamperIn {s : State} {x : Tbl TamperIn} : P .tamperIn = true → Q s → Q { s with tamperIn := x }
  cex {s : State} {x : Cex} : P .cex = true → Q s → Q { s with cex := x }
  xlt {s : State} {x : Xlt} : P .xlt = true → Q s → Q { s with xlt := x }
  srg {s : State} {x : Srg} : P .srg = true → Q s → Q { s with srg := x }
  ods {s : State} {x : Ods} : P .ods = true → LotKept s.ods x → Q s → Q { s with ods := x }
  vault {s : State} {x : Vault} : P .vault = true → Q s → Q { s with vault := x }
  kst {s : State} {x : Tbl Slot} : P .kst = true → Q s → Q { s with kst := x }
  engKeys {s : State} {x : List EngKey} : P .engKeys = true → Q s → Q { s with engKeys := x }
  kwe {s : State} {x : Kwe} : P .kwe = true → Q s → Q { s with kwe := x }
  pke {s : State} {x : Tbl PkeEntry} : P .pke = true → Q s → Q { s with pke := x }
  ent {s : State} {x : Ent} : P .ent = true → Q s → Q { s with ent := x }
  atu {s : State} {x : Atu} : P .atu = true → Q s → Q { s with atu := x }
  lcc {s : State} {x : Lcc} : P .lcc = true → FusesKept s.lcc x → Q s → Q { s with lcc := x }
  mem {s : State} {x : Mem} : P .mem = true → Q s → Q { s with mem := x }
  link {s : State} {x : Link} : P .link = true → Q s → Q { s with link := x }
  sheaf {s : State} {x : Sheaf} : P .sheaf = true → Q s → Q { s with sheaf := x }
  dom {s : State} {x : Domain} : P .dom = true → Q s → Q { s with dom := x }
  pins {s : State} {x : Pins} : P .pins = true → Q s → Q { s with pins := x }
  boot {s : State} {x : Boot} : P .boot = true → Q s → Q { s with boot := x }
  tdi {s : State} {x : Tbl Nat} : P .tdi = true → (TdiOk s.tdi → TdiOk x) → Q s → Q { s with tdi := x }
  ac {s : State} {x : Tbl Nat} : P .ac = true → Q s → Q { s with ac := x }
  vt {s : State} {x : Tbl Nat} : P .vt = true → Q s → Q { s with vt := x }
  free {s : State} {x : Nat} : P .free = true → s.free ≤ x → Q s → Q { s with free := x }
  out {s : State} {x : List OutMsg} : P .out = true → s.out <+: x → Q s → Q { s with out := x }

variable {P : Part → Bool} {Q : State → Prop} {s : State}

/-- An update of several parts. -/
theorem Keeps.upd (K : Keeps P Q) {s : State}
    {x_clk : Timers} {x_rcv : Rcv} {x_icu : Icu} {x_obs : Obs} {x_sen : Sen} {x_tamperIn : Tbl TamperIn} {x_cex : Cex} {x_xlt : Xlt} {x_srg : Srg} {x_ods : Ods} {x_vault : Vault} {x_kst : Tbl Slot} {x_engKeys : List EngKey} {x_kwe : Kwe} {x_pke : Tbl PkeEntry} {x_ent : Ent} {x_atu : Atu} {x_lcc : Lcc} {x_mem : Mem} {x_link : Link} {x_sheaf : Sheaf} {x_dom : Domain} {x_pins : Pins} {x_boot : Boot} {x_tdi : Tbl Nat} {x_ac : Tbl Nat} {x_vt : Tbl Nat} {x_free : Nat} {x_out : List OutMsg} (h : Q s)
    (h_clk : x_clk = s.clk ∨ P .clk = true := by exact .inl rfl)
    (h_rcv : x_rcv = s.rcv ∨ (P .rcv = true ∧ (LogOk s.rcv → LogOk x_rcv)) := by exact .inl rfl)
    (h_icu : x_icu = s.icu ∨ (P .icu = true ∧ (NestOk s.icu → NestOk x_icu)) := by exact .inl rfl)
    (h_obs : x_obs = s.obs ∨ (P .obs = true ∧ (ObsOk s.obs → ObsOk x_obs)) := by exact .inl rfl)
    (h_sen : x_sen = s.sen ∨ P .sen = true := by exact .inl rfl)
    (h_tamperIn : x_tamperIn = s.tamperIn ∨ P .tamperIn = true := by exact .inl rfl)
    (h_cex : x_cex = s.cex ∨ P .cex = true := by exact .inl rfl)
    (h_xlt : x_xlt = s.xlt ∨ P .xlt = true := by exact .inl rfl)
    (h_srg : x_srg = s.srg ∨ P .srg = true := by exact .inl rfl)
    (h_ods : x_ods = s.ods ∨ (P .ods = true ∧ LotKept s.ods x_ods) := by exact .inl rfl)
    (h_vault : x_vault = s.vault ∨ P .vault = true := by exact .inl rfl)
    (h_kst : x_kst = s.kst ∨ P .kst = true := by exact .inl rfl)
    (h_engKeys : x_engKeys = s.engKeys ∨ P .engKeys = true := by exact .inl rfl)
    (h_kwe : x_kwe = s.kwe ∨ P .kwe = true := by exact .inl rfl)
    (h_pke : x_pke = s.pke ∨ P .pke = true := by exact .inl rfl)
    (h_ent : x_ent = s.ent ∨ P .ent = true := by exact .inl rfl)
    (h_atu : x_atu = s.atu ∨ P .atu = true := by exact .inl rfl)
    (h_lcc : x_lcc = s.lcc ∨ (P .lcc = true ∧ FusesKept s.lcc x_lcc) := by exact .inl rfl)
    (h_mem : x_mem = s.mem ∨ P .mem = true := by exact .inl rfl)
    (h_link : x_link = s.link ∨ P .link = true := by exact .inl rfl)
    (h_sheaf : x_sheaf = s.sheaf ∨ P .sheaf = true := by exact .inl rfl)
    (h_dom : x_dom = s.dom ∨ P .dom = true := by exact .inl rfl)
    (h_pins : x_pins = s.pins ∨ P .pins = true := by exact .inl rfl)
    (h_boot : x_boot = s.boot ∨ P .boot = true := by exact .inl rfl)
    (h_tdi : x_tdi = s.tdi ∨ (P .tdi = true ∧ (TdiOk s.tdi → TdiOk x_tdi)) := by exact .inl rfl)
    (h_ac : x_ac = s.ac ∨ P .ac = true := by exact .inl rfl)
    (h_vt : x_vt = s.vt ∨ P .vt = true := by exact .inl rfl)
    (h_free : x_free = s.free ∨ (P .free = true ∧ s.free ≤ x_free) := by exact .inl rfl)
    (h_out : x_out = s.out ∨ (P .out = true ∧ s.out <+: x_out) := by exact .inl rfl) :
    Q (State.mk x_clk x_rcv x_icu x_obs x_sen x_tamperIn x_cex x_xlt x_srg x_ods x_vault x_kst x_engKeys x_kwe x_pke x_ent x_atu x_lcc x_mem x_link x_sheaf x_dom x_pins x_boot x_tdi x_ac x_vt x_free x_out s.pending) := by
  have k0 : Q (State.mk x_clk s.rcv s.icu s.obs s.sen s.tamperIn s.cex s.xlt s.srg s.ods s.vault s.kst s.engKeys s.kwe s.pke s.ent s.atu s.lcc s.mem s.link s.sheaf s.dom s.pins s.boot s.tdi s.ac s.vt s.free s.out s.pending) := by
    rcases h_clk with e | e
    · rw [e]; exact h
    · exact K.clk (s := State.mk s.clk s.rcv s.icu s.obs s.sen s.tamperIn s.cex s.xlt s.srg s.ods s.vault s.kst s.engKeys s.kwe s.pke s.ent s.atu s.lcc s.mem s.link s.sheaf s.dom s.pins s.boot s.tdi s.ac s.vt s.free s.out s.pending) e h
  have k1 : Q (State.mk x_clk x_rcv s.icu s.obs s.sen s.tamperIn s.cex s.xlt s.srg s.ods s.vault s.kst s.engKeys s.kwe s.pke s.ent s.atu s.lcc s.mem s.link s.sheaf s.dom s.pins s.boot s.tdi s.ac s.vt s.free s.out s.pending) := by
    rcases h_rcv with e | e
    · rw [e]; exact k0
    · exact K.rcv (s := State.mk x_clk s.rcv s.icu s.obs s.sen s.tamperIn s.cex s.xlt s.srg s.ods s.vault s.kst s.engKeys s.kwe s.pke s.ent s.atu s.lcc s.mem s.link s.sheaf s.dom s.pins s.boot s.tdi s.ac s.vt s.free s.out s.pending) e.1 e.2 k0
  have k2 : Q (State.mk x_clk x_rcv x_icu s.obs s.sen s.tamperIn s.cex s.xlt s.srg s.ods s.vault s.kst s.engKeys s.kwe s.pke s.ent s.atu s.lcc s.mem s.link s.sheaf s.dom s.pins s.boot s.tdi s.ac s.vt s.free s.out s.pending) := by
    rcases h_icu with e | e
    · rw [e]; exact k1
    · exact K.icu (s := State.mk x_clk x_rcv s.icu s.obs s.sen s.tamperIn s.cex s.xlt s.srg s.ods s.vault s.kst s.engKeys s.kwe s.pke s.ent s.atu s.lcc s.mem s.link s.sheaf s.dom s.pins s.boot s.tdi s.ac s.vt s.free s.out s.pending) e.1 e.2 k1
  have k3 : Q (State.mk x_clk x_rcv x_icu x_obs s.sen s.tamperIn s.cex s.xlt s.srg s.ods s.vault s.kst s.engKeys s.kwe s.pke s.ent s.atu s.lcc s.mem s.link s.sheaf s.dom s.pins s.boot s.tdi s.ac s.vt s.free s.out s.pending) := by
    rcases h_obs with e | e
    · rw [e]; exact k2
    · exact K.obs (s := State.mk x_clk x_rcv x_icu s.obs s.sen s.tamperIn s.cex s.xlt s.srg s.ods s.vault s.kst s.engKeys s.kwe s.pke s.ent s.atu s.lcc s.mem s.link s.sheaf s.dom s.pins s.boot s.tdi s.ac s.vt s.free s.out s.pending) e.1 e.2 k2
  have k4 : Q (State.mk x_clk x_rcv x_icu x_obs x_sen s.tamperIn s.cex s.xlt s.srg s.ods s.vault s.kst s.engKeys s.kwe s.pke s.ent s.atu s.lcc s.mem s.link s.sheaf s.dom s.pins s.boot s.tdi s.ac s.vt s.free s.out s.pending) := by
    rcases h_sen with e | e
    · rw [e]; exact k3
    · exact K.sen (s := State.mk x_clk x_rcv x_icu x_obs s.sen s.tamperIn s.cex s.xlt s.srg s.ods s.vault s.kst s.engKeys s.kwe s.pke s.ent s.atu s.lcc s.mem s.link s.sheaf s.dom s.pins s.boot s.tdi s.ac s.vt s.free s.out s.pending) e k3
  have k5 : Q (State.mk x_clk x_rcv x_icu x_obs x_sen x_tamperIn s.cex s.xlt s.srg s.ods s.vault s.kst s.engKeys s.kwe s.pke s.ent s.atu s.lcc s.mem s.link s.sheaf s.dom s.pins s.boot s.tdi s.ac s.vt s.free s.out s.pending) := by
    rcases h_tamperIn with e | e
    · rw [e]; exact k4
    · exact K.tamperIn (s := State.mk x_clk x_rcv x_icu x_obs x_sen s.tamperIn s.cex s.xlt s.srg s.ods s.vault s.kst s.engKeys s.kwe s.pke s.ent s.atu s.lcc s.mem s.link s.sheaf s.dom s.pins s.boot s.tdi s.ac s.vt s.free s.out s.pending) e k4
  have k6 : Q (State.mk x_clk x_rcv x_icu x_obs x_sen x_tamperIn x_cex s.xlt s.srg s.ods s.vault s.kst s.engKeys s.kwe s.pke s.ent s.atu s.lcc s.mem s.link s.sheaf s.dom s.pins s.boot s.tdi s.ac s.vt s.free s.out s.pending) := by
    rcases h_cex with e | e
    · rw [e]; exact k5
    · exact K.cex (s := State.mk x_clk x_rcv x_icu x_obs x_sen x_tamperIn s.cex s.xlt s.srg s.ods s.vault s.kst s.engKeys s.kwe s.pke s.ent s.atu s.lcc s.mem s.link s.sheaf s.dom s.pins s.boot s.tdi s.ac s.vt s.free s.out s.pending) e k5
  have k7 : Q (State.mk x_clk x_rcv x_icu x_obs x_sen x_tamperIn x_cex x_xlt s.srg s.ods s.vault s.kst s.engKeys s.kwe s.pke s.ent s.atu s.lcc s.mem s.link s.sheaf s.dom s.pins s.boot s.tdi s.ac s.vt s.free s.out s.pending) := by
    rcases h_xlt with e | e
    · rw [e]; exact k6
    · exact K.xlt (s := State.mk x_clk x_rcv x_icu x_obs x_sen x_tamperIn x_cex s.xlt s.srg s.ods s.vault s.kst s.engKeys s.kwe s.pke s.ent s.atu s.lcc s.mem s.link s.sheaf s.dom s.pins s.boot s.tdi s.ac s.vt s.free s.out s.pending) e k6
  have k8 : Q (State.mk x_clk x_rcv x_icu x_obs x_sen x_tamperIn x_cex x_xlt x_srg s.ods s.vault s.kst s.engKeys s.kwe s.pke s.ent s.atu s.lcc s.mem s.link s.sheaf s.dom s.pins s.boot s.tdi s.ac s.vt s.free s.out s.pending) := by
    rcases h_srg with e | e
    · rw [e]; exact k7
    · exact K.srg (s := State.mk x_clk x_rcv x_icu x_obs x_sen x_tamperIn x_cex x_xlt s.srg s.ods s.vault s.kst s.engKeys s.kwe s.pke s.ent s.atu s.lcc s.mem s.link s.sheaf s.dom s.pins s.boot s.tdi s.ac s.vt s.free s.out s.pending) e k7
  have k9 : Q (State.mk x_clk x_rcv x_icu x_obs x_sen x_tamperIn x_cex x_xlt x_srg x_ods s.vault s.kst s.engKeys s.kwe s.pke s.ent s.atu s.lcc s.mem s.link s.sheaf s.dom s.pins s.boot s.tdi s.ac s.vt s.free s.out s.pending) := by
    rcases h_ods with e | e
    · rw [e]; exact k8
    · exact K.ods (s := State.mk x_clk x_rcv x_icu x_obs x_sen x_tamperIn x_cex x_xlt x_srg s.ods s.vault s.kst s.engKeys s.kwe s.pke s.ent s.atu s.lcc s.mem s.link s.sheaf s.dom s.pins s.boot s.tdi s.ac s.vt s.free s.out s.pending) e.1 e.2 k8
  have k10 : Q (State.mk x_clk x_rcv x_icu x_obs x_sen x_tamperIn x_cex x_xlt x_srg x_ods x_vault s.kst s.engKeys s.kwe s.pke s.ent s.atu s.lcc s.mem s.link s.sheaf s.dom s.pins s.boot s.tdi s.ac s.vt s.free s.out s.pending) := by
    rcases h_vault with e | e
    · rw [e]; exact k9
    · exact K.vault (s := State.mk x_clk x_rcv x_icu x_obs x_sen x_tamperIn x_cex x_xlt x_srg x_ods s.vault s.kst s.engKeys s.kwe s.pke s.ent s.atu s.lcc s.mem s.link s.sheaf s.dom s.pins s.boot s.tdi s.ac s.vt s.free s.out s.pending) e k9
  have k11 : Q (State.mk x_clk x_rcv x_icu x_obs x_sen x_tamperIn x_cex x_xlt x_srg x_ods x_vault x_kst s.engKeys s.kwe s.pke s.ent s.atu s.lcc s.mem s.link s.sheaf s.dom s.pins s.boot s.tdi s.ac s.vt s.free s.out s.pending) := by
    rcases h_kst with e | e
    · rw [e]; exact k10
    · exact K.kst (s := State.mk x_clk x_rcv x_icu x_obs x_sen x_tamperIn x_cex x_xlt x_srg x_ods x_vault s.kst s.engKeys s.kwe s.pke s.ent s.atu s.lcc s.mem s.link s.sheaf s.dom s.pins s.boot s.tdi s.ac s.vt s.free s.out s.pending) e k10
  have k12 : Q (State.mk x_clk x_rcv x_icu x_obs x_sen x_tamperIn x_cex x_xlt x_srg x_ods x_vault x_kst x_engKeys s.kwe s.pke s.ent s.atu s.lcc s.mem s.link s.sheaf s.dom s.pins s.boot s.tdi s.ac s.vt s.free s.out s.pending) := by
    rcases h_engKeys with e | e
    · rw [e]; exact k11
    · exact K.engKeys (s := State.mk x_clk x_rcv x_icu x_obs x_sen x_tamperIn x_cex x_xlt x_srg x_ods x_vault x_kst s.engKeys s.kwe s.pke s.ent s.atu s.lcc s.mem s.link s.sheaf s.dom s.pins s.boot s.tdi s.ac s.vt s.free s.out s.pending) e k11
  have k13 : Q (State.mk x_clk x_rcv x_icu x_obs x_sen x_tamperIn x_cex x_xlt x_srg x_ods x_vault x_kst x_engKeys x_kwe s.pke s.ent s.atu s.lcc s.mem s.link s.sheaf s.dom s.pins s.boot s.tdi s.ac s.vt s.free s.out s.pending) := by
    rcases h_kwe with e | e
    · rw [e]; exact k12
    · exact K.kwe (s := State.mk x_clk x_rcv x_icu x_obs x_sen x_tamperIn x_cex x_xlt x_srg x_ods x_vault x_kst x_engKeys s.kwe s.pke s.ent s.atu s.lcc s.mem s.link s.sheaf s.dom s.pins s.boot s.tdi s.ac s.vt s.free s.out s.pending) e k12
  have k14 : Q (State.mk x_clk x_rcv x_icu x_obs x_sen x_tamperIn x_cex x_xlt x_srg x_ods x_vault x_kst x_engKeys x_kwe x_pke s.ent s.atu s.lcc s.mem s.link s.sheaf s.dom s.pins s.boot s.tdi s.ac s.vt s.free s.out s.pending) := by
    rcases h_pke with e | e
    · rw [e]; exact k13
    · exact K.pke (s := State.mk x_clk x_rcv x_icu x_obs x_sen x_tamperIn x_cex x_xlt x_srg x_ods x_vault x_kst x_engKeys x_kwe s.pke s.ent s.atu s.lcc s.mem s.link s.sheaf s.dom s.pins s.boot s.tdi s.ac s.vt s.free s.out s.pending) e k13
  have k15 : Q (State.mk x_clk x_rcv x_icu x_obs x_sen x_tamperIn x_cex x_xlt x_srg x_ods x_vault x_kst x_engKeys x_kwe x_pke x_ent s.atu s.lcc s.mem s.link s.sheaf s.dom s.pins s.boot s.tdi s.ac s.vt s.free s.out s.pending) := by
    rcases h_ent with e | e
    · rw [e]; exact k14
    · exact K.ent (s := State.mk x_clk x_rcv x_icu x_obs x_sen x_tamperIn x_cex x_xlt x_srg x_ods x_vault x_kst x_engKeys x_kwe x_pke s.ent s.atu s.lcc s.mem s.link s.sheaf s.dom s.pins s.boot s.tdi s.ac s.vt s.free s.out s.pending) e k14
  have k16 : Q (State.mk x_clk x_rcv x_icu x_obs x_sen x_tamperIn x_cex x_xlt x_srg x_ods x_vault x_kst x_engKeys x_kwe x_pke x_ent x_atu s.lcc s.mem s.link s.sheaf s.dom s.pins s.boot s.tdi s.ac s.vt s.free s.out s.pending) := by
    rcases h_atu with e | e
    · rw [e]; exact k15
    · exact K.atu (s := State.mk x_clk x_rcv x_icu x_obs x_sen x_tamperIn x_cex x_xlt x_srg x_ods x_vault x_kst x_engKeys x_kwe x_pke x_ent s.atu s.lcc s.mem s.link s.sheaf s.dom s.pins s.boot s.tdi s.ac s.vt s.free s.out s.pending) e k15
  have k17 : Q (State.mk x_clk x_rcv x_icu x_obs x_sen x_tamperIn x_cex x_xlt x_srg x_ods x_vault x_kst x_engKeys x_kwe x_pke x_ent x_atu x_lcc s.mem s.link s.sheaf s.dom s.pins s.boot s.tdi s.ac s.vt s.free s.out s.pending) := by
    rcases h_lcc with e | e
    · rw [e]; exact k16
    · exact K.lcc (s := State.mk x_clk x_rcv x_icu x_obs x_sen x_tamperIn x_cex x_xlt x_srg x_ods x_vault x_kst x_engKeys x_kwe x_pke x_ent x_atu s.lcc s.mem s.link s.sheaf s.dom s.pins s.boot s.tdi s.ac s.vt s.free s.out s.pending) e.1 e.2 k16
  have k18 : Q (State.mk x_clk x_rcv x_icu x_obs x_sen x_tamperIn x_cex x_xlt x_srg x_ods x_vault x_kst x_engKeys x_kwe x_pke x_ent x_atu x_lcc x_mem s.link s.sheaf s.dom s.pins s.boot s.tdi s.ac s.vt s.free s.out s.pending) := by
    rcases h_mem with e | e
    · rw [e]; exact k17
    · exact K.mem (s := State.mk x_clk x_rcv x_icu x_obs x_sen x_tamperIn x_cex x_xlt x_srg x_ods x_vault x_kst x_engKeys x_kwe x_pke x_ent x_atu x_lcc s.mem s.link s.sheaf s.dom s.pins s.boot s.tdi s.ac s.vt s.free s.out s.pending) e k17
  have k19 : Q (State.mk x_clk x_rcv x_icu x_obs x_sen x_tamperIn x_cex x_xlt x_srg x_ods x_vault x_kst x_engKeys x_kwe x_pke x_ent x_atu x_lcc x_mem x_link s.sheaf s.dom s.pins s.boot s.tdi s.ac s.vt s.free s.out s.pending) := by
    rcases h_link with e | e
    · rw [e]; exact k18
    · exact K.link (s := State.mk x_clk x_rcv x_icu x_obs x_sen x_tamperIn x_cex x_xlt x_srg x_ods x_vault x_kst x_engKeys x_kwe x_pke x_ent x_atu x_lcc x_mem s.link s.sheaf s.dom s.pins s.boot s.tdi s.ac s.vt s.free s.out s.pending) e k18
  have k20 : Q (State.mk x_clk x_rcv x_icu x_obs x_sen x_tamperIn x_cex x_xlt x_srg x_ods x_vault x_kst x_engKeys x_kwe x_pke x_ent x_atu x_lcc x_mem x_link x_sheaf s.dom s.pins s.boot s.tdi s.ac s.vt s.free s.out s.pending) := by
    rcases h_sheaf with e | e
    · rw [e]; exact k19
    · exact K.sheaf (s := State.mk x_clk x_rcv x_icu x_obs x_sen x_tamperIn x_cex x_xlt x_srg x_ods x_vault x_kst x_engKeys x_kwe x_pke x_ent x_atu x_lcc x_mem x_link s.sheaf s.dom s.pins s.boot s.tdi s.ac s.vt s.free s.out s.pending) e k19
  have k21 : Q (State.mk x_clk x_rcv x_icu x_obs x_sen x_tamperIn x_cex x_xlt x_srg x_ods x_vault x_kst x_engKeys x_kwe x_pke x_ent x_atu x_lcc x_mem x_link x_sheaf x_dom s.pins s.boot s.tdi s.ac s.vt s.free s.out s.pending) := by
    rcases h_dom with e | e
    · rw [e]; exact k20
    · exact K.dom (s := State.mk x_clk x_rcv x_icu x_obs x_sen x_tamperIn x_cex x_xlt x_srg x_ods x_vault x_kst x_engKeys x_kwe x_pke x_ent x_atu x_lcc x_mem x_link x_sheaf s.dom s.pins s.boot s.tdi s.ac s.vt s.free s.out s.pending) e k20
  have k22 : Q (State.mk x_clk x_rcv x_icu x_obs x_sen x_tamperIn x_cex x_xlt x_srg x_ods x_vault x_kst x_engKeys x_kwe x_pke x_ent x_atu x_lcc x_mem x_link x_sheaf x_dom x_pins s.boot s.tdi s.ac s.vt s.free s.out s.pending) := by
    rcases h_pins with e | e
    · rw [e]; exact k21
    · exact K.pins (s := State.mk x_clk x_rcv x_icu x_obs x_sen x_tamperIn x_cex x_xlt x_srg x_ods x_vault x_kst x_engKeys x_kwe x_pke x_ent x_atu x_lcc x_mem x_link x_sheaf x_dom s.pins s.boot s.tdi s.ac s.vt s.free s.out s.pending) e k21
  have k23 : Q (State.mk x_clk x_rcv x_icu x_obs x_sen x_tamperIn x_cex x_xlt x_srg x_ods x_vault x_kst x_engKeys x_kwe x_pke x_ent x_atu x_lcc x_mem x_link x_sheaf x_dom x_pins x_boot s.tdi s.ac s.vt s.free s.out s.pending) := by
    rcases h_boot with e | e
    · rw [e]; exact k22
    · exact K.boot (s := State.mk x_clk x_rcv x_icu x_obs x_sen x_tamperIn x_cex x_xlt x_srg x_ods x_vault x_kst x_engKeys x_kwe x_pke x_ent x_atu x_lcc x_mem x_link x_sheaf x_dom x_pins s.boot s.tdi s.ac s.vt s.free s.out s.pending) e k22
  have k24 : Q (State.mk x_clk x_rcv x_icu x_obs x_sen x_tamperIn x_cex x_xlt x_srg x_ods x_vault x_kst x_engKeys x_kwe x_pke x_ent x_atu x_lcc x_mem x_link x_sheaf x_dom x_pins x_boot x_tdi s.ac s.vt s.free s.out s.pending) := by
    rcases h_tdi with e | e
    · rw [e]; exact k23
    · exact K.tdi (s := State.mk x_clk x_rcv x_icu x_obs x_sen x_tamperIn x_cex x_xlt x_srg x_ods x_vault x_kst x_engKeys x_kwe x_pke x_ent x_atu x_lcc x_mem x_link x_sheaf x_dom x_pins x_boot s.tdi s.ac s.vt s.free s.out s.pending) e.1 e.2 k23
  have k25 : Q (State.mk x_clk x_rcv x_icu x_obs x_sen x_tamperIn x_cex x_xlt x_srg x_ods x_vault x_kst x_engKeys x_kwe x_pke x_ent x_atu x_lcc x_mem x_link x_sheaf x_dom x_pins x_boot x_tdi x_ac s.vt s.free s.out s.pending) := by
    rcases h_ac with e | e
    · rw [e]; exact k24
    · exact K.ac (s := State.mk x_clk x_rcv x_icu x_obs x_sen x_tamperIn x_cex x_xlt x_srg x_ods x_vault x_kst x_engKeys x_kwe x_pke x_ent x_atu x_lcc x_mem x_link x_sheaf x_dom x_pins x_boot x_tdi s.ac s.vt s.free s.out s.pending) e k24
  have k26 : Q (State.mk x_clk x_rcv x_icu x_obs x_sen x_tamperIn x_cex x_xlt x_srg x_ods x_vault x_kst x_engKeys x_kwe x_pke x_ent x_atu x_lcc x_mem x_link x_sheaf x_dom x_pins x_boot x_tdi x_ac x_vt s.free s.out s.pending) := by
    rcases h_vt with e | e
    · rw [e]; exact k25
    · exact K.vt (s := State.mk x_clk x_rcv x_icu x_obs x_sen x_tamperIn x_cex x_xlt x_srg x_ods x_vault x_kst x_engKeys x_kwe x_pke x_ent x_atu x_lcc x_mem x_link x_sheaf x_dom x_pins x_boot x_tdi x_ac s.vt s.free s.out s.pending) e k25
  have k27 : Q (State.mk x_clk x_rcv x_icu x_obs x_sen x_tamperIn x_cex x_xlt x_srg x_ods x_vault x_kst x_engKeys x_kwe x_pke x_ent x_atu x_lcc x_mem x_link x_sheaf x_dom x_pins x_boot x_tdi x_ac x_vt x_free s.out s.pending) := by
    rcases h_free with e | e
    · rw [e]; exact k26
    · exact K.free (s := State.mk x_clk x_rcv x_icu x_obs x_sen x_tamperIn x_cex x_xlt x_srg x_ods x_vault x_kst x_engKeys x_kwe x_pke x_ent x_atu x_lcc x_mem x_link x_sheaf x_dom x_pins x_boot x_tdi x_ac x_vt s.free s.out s.pending) e.1 e.2 k26
  have k28 : Q (State.mk x_clk x_rcv x_icu x_obs x_sen x_tamperIn x_cex x_xlt x_srg x_ods x_vault x_kst x_engKeys x_kwe x_pke x_ent x_atu x_lcc x_mem x_link x_sheaf x_dom x_pins x_boot x_tdi x_ac x_vt x_free x_out s.pending) := by
    rcases h_out with e | e
    · rw [e]; exact k27
    · exact K.out (s := State.mk x_clk x_rcv x_icu x_obs x_sen x_tamperIn x_cex x_xlt x_srg x_ods x_vault x_kst x_engKeys x_kwe x_pke x_ent x_atu x_lcc x_mem x_link x_sheaf x_dom x_pins x_boot x_tdi x_ac x_vt x_free s.out s.pending) e.1 e.2 k27
  exact k28

theorem Keeps.foldl {α : Type} {f : State → α → State} {l : List α} (hf : ∀ t x, Q t → Q (f t x)) (h : Q s) : Q (l.foldl f s) := by
  induction l generalizing s with
  | nil => exact h
  | cons x l ih => exact ih (hf s x h)

theorem Keeps.foldl1 {α β : Type} {f : State × β → α → State × β} {l : List α} {p : State × β} (hf : ∀ t x, Q t.1 → Q (f t x).1)
    (h : Q p.1) : Q (l.foldl f p).1 := by
  induction l generalizing p with
  | nil => exact h
  | cons x l ih => exact ih (hf p x h)

theorem Keeps.foldl2 {α β : Type} {f : β × State → α → β × State} {l : List α} {p : β × State} (hf : ∀ t x, Q t.2 → Q (f t x).2)
    (h : Q p.2) : Q (l.foldl f p).2 := by
  induction l generalizing p with
  | nil => exact h
  | cons x l ih => exact ih (hf p x h)

theorem Keeps.fst {α : Type} {p : State × α} {t : State} {b : α} (hp : p = (t, b)) (h : Q p.1) : Q t := by rw [hp] at h; exact h

theorem Keeps.snd {α : Type} {p : α × State} {t : State} {b : α} (hp : p = (b, t)) (h : Q p.2) : Q t := by rw [hp] at h; exact h

theorem Keeps.snd2 {α β : Type} {p : α × β × State} {t : State} {a : α} {b : β} (hp : p = (a, b, t)) (h : Q p.2.2) : Q t := by rw [hp] at h; exact h

theorem Keeps.ite {c : Prop} [Decidable c] {t u : State} (ht : Q t) (hu : Q u) : Q (if c then t else u) := by
  split
  · exact ht
  · exact hu

theorem Keeps.ite1 {β : Type} {c : Prop} [Decidable c] {t u : State × β} (ht : Q t.1) (hu : Q u.1) : Q (if c then t else u).1 := by
  split
  · exact ht
  · exact hu

theorem Keeps.ite2 {β : Type} {c : Prop} [Decidable c] {t u : β × State} (ht : Q t.2) (hu : Q u.2) : Q (if c then t else u).2 := by
  split
  · exact ht
  · exact hu

theorem Keeps.p1 {α : Type} {t : State} {b : α} (h : Q t) : Q (t, b).1 := h

theorem Keeps.p2 {α : Type} {t : State} {b : α} (h : Q t) : Q (b, t).2 := h

theorem Keeps.p22 {α β : Type} {t : State} {a : α} {b : β} (h : Q t) : Q (a, b, t).2.2 := h

/-- The same of a result that may have no state. -/
def KeepsOpt (Q : State → Prop) : Option State → Prop
  | some t => Q t
  | none => True

def KeepsOptP (Q : State → Prop) : Option (State × Nat) → Prop
  | some p => Q p.1
  | none => True

def KeepsE (Q : State → Prop) : Except (Nat × Nat) State → Prop
  | .ok t => Q t
  | .error _ => True

def KeepsBy (Q : State → Prop) : Host.Outcome State Fault Refusal → Prop
  | .next t => Q t
  | .fault _ => True
  | .refused _ => True

theorem KeepsOpt.of {t : State} (h : Q t) : KeepsOpt Q (some t) := h

theorem KeepsOptP.of {p : State × Nat} (h : Q p.1) : KeepsOptP Q (some p) := h

theorem KeepsE.of {t : State} (h : Q t) : KeepsE Q (.ok t) := h

theorem KeepsBy.of {t : State} (h : Q t) : KeepsBy Q (.next t) := h

theorem KeepsOpt.some {o : Option State} {t : State} (h : KeepsOpt Q o) (e : o = some t) : Q t := by rw [e] at h; exact h

theorem KeepsOptP.some {o : Option (State × Nat)} {t : State} {n : Nat} (h : KeepsOptP Q o) (e : o = some (t, n)) : Q t := by rw [e] at h; exact h

theorem KeepsE.ok {o : Except (Nat × Nat) State} {t : State} (h : KeepsE Q o) (e : o = .ok t) : Q t := by rw [e] at h; exact h

theorem KeepsBy.next {o : Host.Outcome State Fault Refusal} {t : State} (h : KeepsBy Q o) (e : o = .next t) : Q t := by rw [e] at h; exact h

theorem KeepsOpt.getD {o : Option State} (h : Q s) (k : KeepsOpt Q o) : Q (o.getD s) := by
  cases o with
  | none => exact h
  | some t => exact k

theorem KeepsOptP.ite {c : Prop} [Decidable c] {t u : Option (State × Nat)} (ht : KeepsOptP Q t) (hu : KeepsOptP Q u) : KeepsOptP Q (if c then t else u) := by
  split
  · exact ht
  · exact hu

theorem KeepsOpt.ite {c : Prop} [Decidable c] {t u : Option State} (ht : KeepsOpt Q t) (hu : KeepsOpt Q u) : KeepsOpt Q (if c then t else u) := by
  split
  · exact ht
  · exact hu

theorem KeepsE.ite {c : Prop} [Decidable c] {t u : Except (Nat × Nat) State} (ht : KeepsE Q t) (hu : KeepsE Q u) : KeepsE Q (if c then t else u) := by
  split
  · exact ht
  · exact hu

theorem KeepsBy.ite {c : Prop} [Decidable c] {t u : Host.Outcome State Fault Refusal} (ht : KeepsBy Q t) (hu : KeepsBy Q u) :
    KeepsBy Q (if c then t else u) := by
  split
  · exact ht
  · exact hu

/-- A write of one pair's registers whose stack is nested. -/
theorem NestOk.of_set {u v : Icu} {p : Nat} {q : IcuPair} (hv : v.pairs = u.pairs.set p q) (hq : q.stack.Pairwise (fun (a b : Nat × Nat) => a.1 < b.1))
    (h : NestOk u) : NestOk v := by
  intro j
  rw [hv, Tbl.get_set]
  split
  · exact hq
  · exact h j

/-! ### The two instances -/

theorem Off.refl : Off P s s where
  clk _ := rfl
  rcv _ := rfl
  icu _ := rfl
  obs _ := rfl
  sen _ := rfl
  tamperIn _ := rfl
  cex _ := rfl
  xlt _ := rfl
  srg _ := rfl
  ods _ := rfl
  vault _ := rfl
  kst _ := rfl
  engKeys _ := rfl
  kwe _ := rfl
  pke _ := rfl
  ent _ := rfl
  atu _ := rfl
  lcc _ := rfl
  mem _ := rfl
  link _ := rfl
  sheaf _ := rfl
  dom _ := rfl
  pins _ := rfl
  boot _ := rfl
  tdi _ := rfl
  ac _ := rfl
  vt _ := rfl
  free _ := rfl
  out _ := rfl
  pending _ := rfl

theorem Off.trans {t u : State} (h : Off P s t) (k : Off P t u) : Off P s u where
  clk e := (k.clk e).trans (h.clk e)
  rcv e := (k.rcv e).trans (h.rcv e)
  icu e := (k.icu e).trans (h.icu e)
  obs e := (k.obs e).trans (h.obs e)
  sen e := (k.sen e).trans (h.sen e)
  tamperIn e := (k.tamperIn e).trans (h.tamperIn e)
  cex e := (k.cex e).trans (h.cex e)
  xlt e := (k.xlt e).trans (h.xlt e)
  srg e := (k.srg e).trans (h.srg e)
  ods e := (k.ods e).trans (h.ods e)
  vault e := (k.vault e).trans (h.vault e)
  kst e := (k.kst e).trans (h.kst e)
  engKeys e := (k.engKeys e).trans (h.engKeys e)
  kwe e := (k.kwe e).trans (h.kwe e)
  pke e := (k.pke e).trans (h.pke e)
  ent e := (k.ent e).trans (h.ent e)
  atu e := (k.atu e).trans (h.atu e)
  lcc e := (k.lcc e).trans (h.lcc e)
  mem e := (k.mem e).trans (h.mem e)
  link e := (k.link e).trans (h.link e)
  sheaf e := (k.sheaf e).trans (h.sheaf e)
  dom e := (k.dom e).trans (h.dom e)
  pins e := (k.pins e).trans (h.pins e)
  boot e := (k.boot e).trans (h.boot e)
  tdi e := (k.tdi e).trans (h.tdi e)
  ac e := (k.ac e).trans (h.ac e)
  vt e := (k.vt e).trans (h.vt e)
  free e := (k.free e).trans (h.free e)
  out e := (k.out e).trans (h.out e)
  pending e := (k.pending e).trans (h.pending e)

/-- A part may change, or an update of it leaves the others alone. -/
theorem Off.no {α : Type} {b : Bool} {x y : α} (h : b = true) (e : b = false) : x = y := by rw [h] at e; cases e

/-- A frame survives every update that it allows. -/
theorem Off.keeps (P : Part → Bool) (s₀ : State) : Keeps P (Off P s₀) where
  clk p h := { h with clk := fun e => Off.no p e }
  rcv p _ h := { h with rcv := fun e => Off.no p e }
  icu p _ h := { h with icu := fun e => Off.no p e }
  obs p _ h := { h with obs := fun e => Off.no p e }
  sen p h := { h with sen := fun e => Off.no p e }
  tamperIn p h := { h with tamperIn := fun e => Off.no p e }
  cex p h := { h with cex := fun e => Off.no p e }
  xlt p h := { h with xlt := fun e => Off.no p e }
  srg p h := { h with srg := fun e => Off.no p e }
  ods p _ h := { h with ods := fun e => Off.no p e }
  vault p h := { h with vault := fun e => Off.no p e }
  kst p h := { h with kst := fun e => Off.no p e }
  engKeys p h := { h with engKeys := fun e => Off.no p e }
  kwe p h := { h with kwe := fun e => Off.no p e }
  pke p h := { h with pke := fun e => Off.no p e }
  ent p h := { h with ent := fun e => Off.no p e }
  atu p h := { h with atu := fun e => Off.no p e }
  lcc p _ h := { h with lcc := fun e => Off.no p e }
  mem p h := { h with mem := fun e => Off.no p e }
  link p h := { h with link := fun e => Off.no p e }
  sheaf p h := { h with sheaf := fun e => Off.no p e }
  dom p h := { h with dom := fun e => Off.no p e }
  pins p h := { h with pins := fun e => Off.no p e }
  boot p h := { h with boot := fun e => Off.no p e }
  tdi p _ h := { h with tdi := fun e => Off.no p e }
  ac p h := { h with ac := fun e => Off.no p e }
  vt p h := { h with vt := fun e => Off.no p e }
  free p _ h := { h with free := fun e => Off.no p e }
  out p _ h := { h with out := fun e => Off.no p e }

theorem Kept.refl (s : State) : Kept s s :=
  ⟨rfl, List.prefix_refl _, Nat.le_refl _, .of_eq rfl rfl rfl rfl, fun _ _ h => h, id, id, id, id⟩

theorem Kept.trans {s t u : State} (h : Kept s t) (k : Kept t u) : Kept s u where
  pending := k.pending.trans h.pending
  out := h.out.trans k.out
  free := Nat.le_trans h.free k.free
  fuses := h.fuses.trans k.fuses
  lot v n e := k.lot v n (h.lot v n e)
  obs := k.obs ∘ h.obs
  log := k.log ∘ h.log
  nest := k.nest ∘ h.nest
  tdi := k.tdi ∘ h.tdi

/-- The invariants survive every update that `Keeps` speaks of. -/
theorem Kept.keeps (s₀ : State) : Keeps (fun _ => true) (Kept s₀) where
  clk _ h := { h with }
  rcv _ k h := { h with log := k ∘ h.log }
  icu _ k h := { h with nest := k ∘ h.nest }
  obs _ k h := { h with obs := k ∘ h.obs }
  sen _ h := { h with }
  tamperIn _ h := { h with }
  cex _ h := { h with }
  xlt _ h := { h with }
  srg _ h := { h with }
  ods _ k h := { h with lot := fun v n e => k v n (h.lot v n e) }
  vault _ h := { h with }
  kst _ h := { h with }
  engKeys _ h := { h with }
  kwe _ h := { h with }
  pke _ h := { h with }
  ent _ h := { h with }
  atu _ h := { h with }
  lcc _ k h := { h with fuses := h.fuses.trans k }
  mem _ h := { h with }
  link _ h := { h with }
  sheaf _ h := { h with }
  dom _ h := { h with }
  pins _ h := { h with }
  boot _ h := { h with }
  tdi _ k h := { h with tdi := k ∘ h.tdi }
  ac _ h := { h with }
  vt _ h := { h with }
  free _ k h := { h with free := Nat.le_trans h.free k }
  out _ k h := { h with out := h.out.trans k }

/-- A step's outcome keeps what its state keeps. -/
theorem OffBy.of {o : Host.Outcome State Fault Refusal} (h : KeepsBy (Off P s) o) : OffBy P s o := by cases o <;> exact h

theorem KeptBy.of {o : Host.Outcome State Fault Refusal} (h : KeepsBy (Kept s) o) : KeptBy s o := by cases o <;> exact h

end Sys2Proof.Machine
end

