-- ==== Sys2Proof/Laws/KeepsOps.lean ====
section
/-!
SUPPORT. What the operations of Machine/Ops.lean keep, and which parts they may change (Laws/Keeps.lean).
-/

set_option Elab.async false
namespace Sys2Proof.Machine

variable {P : Part → Bool} {Q : State → Prop}

theorem obsAdd_keeps (K : Keeps P Q) (h_obs : P .obs = true) {i n : Nat} {s : State} (Ks : Q s) : Q (obsAdd i n s) := by
  refine K.obs h_obs (fun o => ⟨fun j => ?_, o.2⟩) Ks
  exact Tbl.all_set (p := fun (c : Nat × Nat) => c.2 ≤ 2 ^ 56 - 1) o.1 i (Nat.min_le_right _ _) j

theorem traceDrop_keeps (K : Keeps P Q) (h_obs : P .obs = true) {seq : Nat} {s : State} (Ks : Q s) : Q (traceDrop seq s) := by
  unfold traceDrop
  extract_lets +onlyGivenNames x1 x2
  have Kx2 : Q x2 := obsAdd_keeps K h_obs Ks
  clear_value x2
  extract_lets +onlyGivenNames x3
  have Kx3 : Q x3 := Keeps.ite (obsAdd_keeps K h_obs Kx2) Kx2
  clear_value x3
  extract_lets +onlyGivenNames x4 x5 x6
  exact K.obs h_obs (fun h => h) Kx3

theorem State.emit_keeps (K : Keeps P Q) (h_out : P .out = true) {s : State} {m : OutMsg} (Ks : Q s) : Q (State.emit s m) := by
  unfold State.emit
  exact K.out h_out (List.prefix_append _ _) Ks

theorem traceStore_keeps (K : Keeps P Q) (h_obs : P .obs = true) (h_out : P .out = true) {r : TraceRec} {s : State} (Ks : Q s)
    : Q (traceStore r s) := by
  unfold traceStore
  extract_lets o win r' t u
  have ht : Q t := by
    refine K.obs h_obs (fun k => ⟨k.1, Nat.min_le_right _ _, ?_⟩) Ks
    show (if o.mode == 0 then min (o.writeIndex + 1) 8191 else (o.writeIndex + 1) % 8191) ≤ 8191
    split <;> omega
  have hu : Q u := obsAdd_keeps K h_obs ht
  exact Keeps.ite (State.emit_keeps K h_out hu) hu

theorem icuUpdate_keeps (K : Keeps P Q) (h_icu : P .icu = true) {pair : Bool} {s : State} (Ks : Q s) : Q (icuUpdate pair s) := by
  unfold icuUpdate
  extract_lets p src u t any norm line byp q
  have ht : Q t := K.icu h_icu (fun h => h) Ks
  exact K.icu (s := t) h_icu (fun n => NestOk.of_set rfl (q := q) (n (b2n pair)) n) ht

theorem icuUpdateBoth_keeps (K : Keeps P Q) (h_icu : P .icu = true) {s : State} (Ks : Q s) : Q (icuUpdateBoth s) := by
  unfold icuUpdateBoth
  exact icuUpdate_keeps K h_icu (icuUpdate_keeps K h_icu Ks)

theorem icuRaise_keeps (K : Keeps P Q) (h_icu : P .icu = true) {pair : Bool} {n : Nat} {s : State} (Ks : Q s) : Q (icuRaise pair n s) := by
  unfold icuRaise
  extract_lets +onlyGivenNames x1 x2 x3 x4 x5 x6 x7
  exact K.icu h_icu (fun h => h) Ks

theorem traceOne_keeps (K : Keeps P Q) (h_icu : P .icu = true) (h_obs : P .obs = true) (h_out : P .out = true) {type flags payload payload2 : Nat}
    {s : State} (Ks : Q s) : Q (traceOne type flags payload payload2 s) := by
  unfold traceOne
  extract_lets +onlyGivenNames x1 x2
  refine Keeps.ite Ks ?_
  refine Keeps.ite (traceDrop_keeps K h_obs (K.obs h_obs (fun h => h) Ks)) ?_
  extract_lets +onlyGivenNames x3 x4
  have Kx4 : Q x4 := traceStore_keeps K h_obs h_out (K.obs h_obs (fun h => h) Ks)
  clear_value x4
  extract_lets +onlyGivenNames x5
  exact Keeps.ite (icuUpdateBoth_keeps K h_icu (icuRaise_keeps K h_icu (K.obs h_obs (fun h => h) Kx4))) Kx4

theorem traceRec_keeps (K : Keeps P Q) (h_icu : P .icu = true) (h_obs : P .obs = true) (h_out : P .out = true) {type flags payload payload2 : Nat}
    {s : State} (Ks : Q s) : Q (traceRec type flags payload payload2 s) := by
  unfold traceRec
  extract_lets +onlyGivenNames x1
  have Kx1 : Q x1 := traceOne_keeps K h_icu h_obs h_out Ks
  clear_value x1
  exact Keeps.ite (traceOne_keeps K h_icu h_obs h_out Kx1) Kx1

theorem traceFire_keeps (K : Keeps P Q) (h_icu : P .icu = true) (h_obs : P .obs = true) (h_out : P .out = true) {id value : Nat} {pair : Bool}
    {s : State} (Ks : Q s) : Q (traceFire id value pair s) := by
  unfold traceFire
  refine Keeps.ite Ks ?_
  extract_lets +onlyGivenNames x1 x2
  have Kx2 : Q x2 := obsAdd_keeps K h_obs (K.obs h_obs (fun h => h) Ks)
  clear_value x2
  extract_lets +onlyGivenNames x3 x4 x5 x6
  have Kx6 : Q x6 := Keeps.ite (K.obs h_obs (fun h => h) Kx2) Kx2
  clear_value x6
  exact Keeps.ite Kx6 (icuUpdateBoth_keeps K h_icu (icuRaise_keeps K h_icu (traceRec_keeps K h_icu h_obs h_out Kx6)))

theorem traceWatch_keeps (K : Keeps P Q) (h_icu : P .icu = true) (h_obs : P .obs = true) (h_out : P .out = true) {kind : Nat} {pair : Bool}
    {value : Nat} {s : State} (Ks : Q s) : Q (traceWatch kind pair value s) := by
  unfold traceWatch
  refine Keeps.foldl ?_ Ks
  intro b1 b2 h3
  extract_lets +onlyGivenNames x4
  exact Keeps.ite (traceFire_keeps K h_icu h_obs h_out h3) h3

theorem icuAssertRaw_keeps (K : Keeps P Q) (h_icu : P .icu = true) (h_obs : P .obs = true) (h_out : P .out = true) {pair : Bool} {n : Nat} {s : State}
    (Ks : Q s) : Q (icuAssertRaw pair n s) := by
  unfold icuAssertRaw
  extract_lets +onlyGivenNames x1
  exact icuUpdateBoth_keeps K h_icu (icuRaise_keeps K h_icu (traceWatch_keeps K h_icu h_obs h_out Ks))

theorem logUpdate_ok (x : LogRec) (r : Rcv) (h : LogOk r) : LogOk (logUpdate x r).1 := by
  obtain ⟨hp, hc, hu⟩ := h
  have hu' : (r.produced + 2 ^ 32 - r.consumed) % 2 ^ 32 ≤ 256 := hu
  unfold logUpdate
  extract_lets cap1 cap2 r' src i
  split
  · exact ⟨hp, hc, hu⟩
  · split
    · exact ⟨hp, hc, hu⟩
    · rename_i hn
      have hn' : ¬ 256 ≤ (r.produced + 2 ^ 32 - r.consumed) % 2 ^ 32 := hn
      refine ⟨Nat.mod_lt _ (by decide), hc, ?_⟩
      show ((r.produced + 1) % 2 ^ 32 + 2 ^ 32 - r.consumed) % 2 ^ 32 ≤ 256
      omega

theorem logError_keeps (K : Keeps P Q) (h_rcv : P .rcv = true) (h_icu : P .icu = true) (h_obs : P .obs = true) (h_out : P .out = true)
    {cls unit slice region key detail : Nat} {s : State} (Ks : Q s) : Q (logError cls unit slice region key detail s) := by
  unfold logError
  refine Keeps.foldl (fun _ _ k => icuAssertRaw_keeps K h_icu h_obs h_out k) (obsAdd_keeps K h_obs ?_)
  exact K.rcv h_rcv (logUpdate_ok _ s.rcv) Ks

theorem queueRecord_keeps (K : Keeps P Q) (h_cex : P .cex = true) {ring : Nat} {w : EvWait} {s : State} (Ks : Q s) : Q (queueRecord ring w s) := by
  unfold queueRecord
  exact K.cex h_cex Ks

theorem updQ_keeps (K : Keeps P Q) (h_cex : P .cex = true) {q : Nat} {f : Queue → Queue} {s : State} (Ks : Q s) : Q (updQ q f s) := by
  unfold updQ
  exact K.cex h_cex Ks

theorem writeCapture_keeps (K : Keeps P Q) (h_cex : P .cex = true) {q : Nat} {c : Capture} {s : State} (Ks : Q s) : Q (writeCapture q c s) := by
  unfold writeCapture
  exact updQ_keeps K h_cex Ks

theorem updFlight_keeps (K : Keeps P Q) (h_cex : P .cex = true) {k : CmdKey} {f : Flight → Flight} {s : State} (Ks : Q s) : Q (updFlight k f s) := by
  unfold updFlight
  exact updQ_keeps K h_cex Ks

theorem finish_keeps (K : Keeps P Q) (h_cex : P .cex = true) {k : CmdKey} {status detail : Nat} {s : State} (Ks : Q s)
    : Q (finish k status detail s) := by
  unfold finish
  exact updFlight_keeps K h_cex Ks

theorem raise1_keeps (K : Keeps P Q) (h_cex : P .cex = true) {slices : List Nat} {ring kind code detail : Nat} {cookie : BitVec 64} {ctx queue : Nat}
    {s : State} (Ks : Q s) : Q (raise1 slices ring kind code detail cookie ctx queue s) := by
  unfold raise1
  exact queueRecord_keeps K h_cex Ks

theorem queueFault_keeps (K : Keeps P Q) (h_rcv : P .rcv = true) (h_obs : P .obs = true) (h_cex : P .cex = true) {q : Nat} {k : Option CmdKey}
    {c : Capture} {s : State} (Ks : Q s) : Q (queueFault q k c s) := by
  unfold queueFault
  extract_lets +onlyGivenNames x1 x2
  have Kx2 : Q x2 := obsAdd_keeps K h_obs (writeCapture_keeps K h_cex (updQ_keeps K h_cex Ks))
  clear_value x2
  refine Keeps.ite ?_ ?_
  · split
    · exact finish_keeps K h_cex Kx2
    · exact Kx2
  · extract_lets +onlyGivenNames x3
    have Kx3 : Q x3 := updQ_keeps K h_cex Kx2
    clear_value x3
    extract_lets +onlyGivenNames x4
    have Kx4 : Q x4 := by
      unfold x4
      split
      · exact updFlight_keeps K h_cex Kx3
      · exact Kx3
    clear_value x4
    extract_lets +onlyGivenNames x5 x6
    have Kx6 : Q x6 := K.rcv h_rcv (fun h => h) Kx4
    clear_value x6
    extract_lets +onlyGivenNames x7
    have Kx7 : Q x7 := raise1_keeps K h_cex Kx6
    clear_value x7
    exact Keeps.ite Kx7 (raise1_keeps K h_cex Kx7)

theorem faultCommand_keeps (K : Keeps P Q) (h_rcv : P .rcv = true) (h_obs : P .obs = true) (h_cex : P .cex = true) {k : CmdKey}
    {cause bva pasid detail : Nat} {s : State} (Ks : Q s) : Q (faultCommand k cause bva pasid detail s) := by
  unfold faultCommand
  split
  · exact Ks
  · exact queueFault_keeps K h_rcv h_obs h_cex Ks

theorem logRung_keeps (K : Keeps P Q) (h_rcv : P .rcv = true) (h_icu : P .icu = true) (h_obs : P .obs = true) (h_out : P .out = true)
    {rung unit slice : Nat} {s : State} (Ks : Q s) : Q (logRung rung unit slice s) := by
  unfold logRung
  exact logError_keeps K h_rcv h_icu h_obs h_out (K.rcv h_rcv (fun h => h) Ks)

theorem updSlice_keeps (K : Keeps P Q) (h_srg : P .srg = true) {n : Nat} {f : SliceRec → SliceRec} {s : State} (Ks : Q s) : Q (updSlice n f s) := by
  unfold updSlice
  exact K.srg h_srg Ks

theorem updUsage_keeps (K : Keeps P Q) (h_srg : P .srg = true) {n : Nat} {f : Usage → Usage} {s : State} (Ks : Q s) : Q (updUsage n f s) := by
  unfold updUsage
  exact updSlice_keeps K h_srg Ks

theorem chargeStart_keeps (K : Keeps P Q) (h_srg : P .srg = true) {k : CmdKey} {ctx wait : Nat} {s : State} (Ks : Q s)
    : Q (chargeStart k ctx wait s) := by
  unfold chargeStart
  split
  · exact updUsage_keeps K h_srg Ks
  · exact Ks

theorem startCmd_keeps (K : Keeps P Q) (h_cex : P .cex = true) (h_srg : P .srg = true) {k : CmdKey} {ctx : Nat} {s : State} (Ks : Q s)
    : Q (startCmd k ctx s) := by
  unfold startCmd
  extract_lets +onlyGivenNames x1
  exact chargeStart_keeps K h_srg (updFlight_keeps K h_cex Ks)

theorem icuAssert_keeps (K : Keeps P Q) (h_rcv : P .rcv = true) (h_icu : P .icu = true) (h_obs : P .obs = true) (h_out : P .out = true) {pair : Bool}
    {n : Nat} {s : State} (Ks : Q s) : Q (icuAssert pair n s) := by
  unfold icuAssert
  extract_lets +onlyGivenNames x1 x2
  have Kx2 : Q x2 := icuAssertRaw_keeps K h_icu h_obs h_out Ks
  clear_value x2
  extract_lets +onlyGivenNames x3
  refine Keeps.ite ?_ Kx2
  extract_lets +onlyGivenNames x4
  exact logError_keeps K h_rcv h_icu h_obs h_out (icuAssertRaw_keeps K h_icu h_obs h_out Kx2)

theorem pend_keeps (K : Keeps P Q) (h_rcv : P .rcv = true) (h_icu : P .icu = true) (h_obs : P .obs = true) (h_out : P .out = true) {n : Nat}
    {s : State} (Ks : Q s) : Q (pend n s) := by
  unfold pend
  exact icuAssert_keeps K h_rcv h_icu h_obs h_out Ks

theorem settle1_keeps (K : Keeps P Q) (h_rcv : P .rcv = true) (h_icu : P .icu = true) (h_obs : P .obs = true) (h_cex : P .cex = true)
    (h_srg : P .srg = true) (h_out : P .out = true) {k : CmdKey} {s : State} (Ks : Q s) : Q (settle1 k s) := by
  unfold settle1
  split
  · exact Ks
  · refine Keeps.ite Ks ?_
    split
    · exact Ks
    · exact finish_keeps K h_cex Ks
    · exact chargeStart_keeps K h_srg (finish_keeps K h_cex Ks)
    · extract_lets +onlyGivenNames x1
      have Kx1 : Q x1 := updFlight_keeps K h_cex Ks
      clear_value x1
      exact Keeps.ite (pend_keeps K h_rcv h_icu h_obs h_out Kx1) Kx1

theorem settle_keeps (K : Keeps P Q) (h_rcv : P .rcv = true) (h_icu : P .icu = true) (h_obs : P .obs = true) (h_cex : P .cex = true)
    (h_srg : P .srg = true) (h_out : P .out = true) {q : Nat} {s : State} (Ks : Q s) : Q (settle q s) := by
  unfold settle
  exact Keeps.foldl (fun b1 b2 h3 => settle1_keeps K h_rcv h_icu h_obs h_cex h_srg h_out h3) Ks

theorem dictAnswer_keeps (K : Keeps P Q) (h_ods : P .ods = true) (h_out : P .out = true) {who : Principal} {r : State × Nat} (Kr : Q r.1)
    : Q (dictAnswer who r) := by
  unfold dictAnswer
  extract_lets +onlyGivenNames x1
  have Kx1 : Q x1 := Kr
  extract_lets +onlyGivenNames x2 x3
  have Kx3 : Q x3 := K.ods h_ods (LotKept.of_eq rfl) Kx1
  clear_value x3
  exact State.emit_keeps K h_out Kx3

theorem msix_keeps (K : Keeps P Q) (h_cex : P .cex = true) (h_out : P .out = true) {v : Nat} {s : State} (Ks : Q s) : Q (msix v s) := by
  unfold msix
  exact Keeps.ite (K.cex h_cex Ks) (State.emit_keeps K h_out Ks)

theorem cexRun_keeps (K : Keeps P Q) (h_cex : P .cex = true) (h_srg : P .srg = true) {h : CmdHdr} {op : Nat} {ops : List (Nat × Nat × Nat)}
    {s : State} {body : State → State} (Ks : Q s) (Kbody : ∀ b0, Q b0 → Q (body b0)) : Q (cexRun h op ops s body) := by
  unfold cexRun
  extract_lets +onlyGivenNames x1
  refine Keeps.ite ?_ Ks
  extract_lets +onlyGivenNames x2
  have Kx2 : Q x2 := startCmd_keeps K h_cex h_srg Ks
  clear_value x2
  exact Keeps.ite (finish_keeps K h_cex Kx2) (Kbody _ Kx2)

theorem xltFault_keeps (K : Keeps P Q) (h_rcv : P .rcv = true) (h_obs : P .obs = true) (h_cex : P .cex = true) (h_xlt : P .xlt = true) {k : CmdKey}
    {ctx : Nat} {x : XFault} {s : State} (Ks : Q s) : Q (xltFault k ctx x s) := by
  unfold xltFault
  extract_lets +onlyGivenNames x1
  refine Keeps.ite (finish_keeps K h_cex Ks) ?_
  extract_lets +onlyGivenNames x2 x3 x4
  have Kx4 : Q x4 := K.xlt h_xlt Ks
  clear_value x4
  exact faultCommand_keeps K h_rcv h_obs h_cex Kx4

theorem cexRunX_keeps (K : Keeps P Q) (h_rcv : P .rcv = true) (h_obs : P .obs = true) (h_cex : P .cex = true) (h_xlt : P .xlt = true)
    (h_srg : P .srg = true) {h : CmdHdr} {op : Nat} {ops : List (Nat × Nat × Nat)} {x : Option XFault} {s : State} {body : State → State} (Ks : Q s)
    (Kbody : ∀ b0, Q b0 → Q (body b0)) : Q (cexRunX h op ops x s body) := by
  unfold cexRunX
  refine cexRun_keeps K h_cex h_srg Ks ?_
  intro b1 h2
  split
  · exact xltFault_keeps K h_rcv h_obs h_cex h_xlt h2
  · exact Kbody _ h2

theorem engineRung_keeps (K : Keeps P Q) (h_rcv : P .rcv = true) (h_icu : P .icu = true) (h_obs : P .obs = true) (h_out : P .out = true)
    {unit slice : Nat} {s : State} (Ks : Q s) : Q (engineRung unit slice s) := by
  unfold engineRung
  exact logRung_keeps K h_rcv h_icu h_obs h_out (K.rcv h_rcv (fun h => h) Ks)

theorem raise_keeps (K : Keeps P Q) (h_cex : P .cex = true) {rings : List Nat} {kind code detail : Nat} {s : State} (Ks : Q s)
    : Q (raise rings kind code detail s) := by
  unfold raise
  exact Keeps.foldl (fun b1 b2 h3 => raise1_keeps K h_cex h3) Ks

theorem icuFall_keeps (K : Keeps P Q) (h_icu : P .icu = true) {n : Nat} {s : State} (Ks : Q s) : Q (icuFall n s) := by
  unfold icuFall
  extract_lets +onlyGivenNames x1 x2
  exact Keeps.ite (icuUpdateBoth_keeps K h_icu (K.icu h_icu (fun h => h) Ks)) Ks

theorem dictWrite_keeps (K : Keeps P Q) (h_ods : P .ods = true) (h_out : P .out = true) {who : Principal} {early : Bool} {allowed : List Nat}
    {s : State} {f : State → State × Nat} (Ks : Q s) (Kf : ∀ b0, Q b0 → Q (f b0).1) : Q (dictWrite who early allowed s f) := by
  unfold dictWrite
  exact dictAnswer_keeps K h_ods h_out (Keeps.ite1 Ks (Keeps.ite1 Ks (Keeps.ite1 Ks (Kf _ Ks))))

theorem State.drew_keeps (K : Keeps P Q) (h_free : P .free = true) {s : State} (Ks : Q s) : Q (State.drew s) := by
  unfold State.drew
  exact K.free h_free (Nat.le_add_right _ _) Ks

end Sys2Proof.Machine
end

