-- ==== Sys2Proof/Laws/State.lean ====
section
/-!
SUPPORT. The fields of the state after each shared update: what an operation of Machine/Ops.lean leaves as it was.
-/
namespace Sys2Proof.Machine

@[simp] theorem obsAdd_same {i n : Nat} {s : State} :
    (obsAdd i n s).clk = s.clk ∧ (obsAdd i n s).rcv = s.rcv ∧ (obsAdd i n s).icu = s.icu ∧ (obsAdd i n s).sen = s.sen ∧ (obsAdd i n s).tamperIn = s.tamperIn ∧ (obsAdd i n s).cex = s.cex ∧ (obsAdd i n s).xlt = s.xlt ∧ (obsAdd i n s).srg = s.srg ∧ (obsAdd i n s).ods = s.ods ∧ (obsAdd i n s).vault = s.vault ∧ (obsAdd i n s).kst = s.kst ∧ (obsAdd i n s).engKeys = s.engKeys ∧ (obsAdd i n s).kwe = s.kwe ∧ (obsAdd i n s).pke = s.pke ∧ (obsAdd i n s).ent = s.ent ∧ (obsAdd i n s).atu = s.atu ∧ (obsAdd i n s).lcc = s.lcc ∧ (obsAdd i n s).mem = s.mem ∧ (obsAdd i n s).link = s.link ∧ (obsAdd i n s).sheaf = s.sheaf ∧ (obsAdd i n s).dom = s.dom ∧ (obsAdd i n s).pins = s.pins ∧ (obsAdd i n s).boot = s.boot ∧ (obsAdd i n s).tdi = s.tdi ∧ (obsAdd i n s).ac = s.ac ∧ (obsAdd i n s).vt = s.vt ∧ (obsAdd i n s).free = s.free ∧ (obsAdd i n s).out = s.out ∧ (obsAdd i n s).pending = s.pending :=
  have k : Off (fun p => p == .obs) s (obsAdd i n s) := obsAdd_keeps (Off.keeps _ _) rfl .refl
  ⟨k.clk rfl, k.rcv rfl, k.icu rfl, k.sen rfl, k.tamperIn rfl, k.cex rfl, k.xlt rfl, k.srg rfl, k.ods rfl, k.vault rfl, k.kst rfl, k.engKeys rfl, k.kwe rfl, k.pke rfl, k.ent rfl, k.atu rfl, k.lcc rfl, k.mem rfl, k.link rfl, k.sheaf rfl, k.dom rfl, k.pins rfl, k.boot rfl, k.tdi rfl, k.ac rfl, k.vt rfl, k.free rfl, k.out rfl, k.pending rfl⟩

@[simp] theorem traceDrop_same {seq : Nat} {s : State} :
    (traceDrop seq s).clk = s.clk ∧ (traceDrop seq s).rcv = s.rcv ∧ (traceDrop seq s).icu = s.icu ∧ (traceDrop seq s).sen = s.sen ∧ (traceDrop seq s).tamperIn = s.tamperIn ∧ (traceDrop seq s).cex = s.cex ∧ (traceDrop seq s).xlt = s.xlt ∧ (traceDrop seq s).srg = s.srg ∧ (traceDrop seq s).ods = s.ods ∧ (traceDrop seq s).vault = s.vault ∧ (traceDrop seq s).kst = s.kst ∧ (traceDrop seq s).engKeys = s.engKeys ∧ (traceDrop seq s).kwe = s.kwe ∧ (traceDrop seq s).pke = s.pke ∧ (traceDrop seq s).ent = s.ent ∧ (traceDrop seq s).atu = s.atu ∧ (traceDrop seq s).lcc = s.lcc ∧ (traceDrop seq s).mem = s.mem ∧ (traceDrop seq s).link = s.link ∧ (traceDrop seq s).sheaf = s.sheaf ∧ (traceDrop seq s).dom = s.dom ∧ (traceDrop seq s).pins = s.pins ∧ (traceDrop seq s).boot = s.boot ∧ (traceDrop seq s).tdi = s.tdi ∧ (traceDrop seq s).ac = s.ac ∧ (traceDrop seq s).vt = s.vt ∧ (traceDrop seq s).free = s.free ∧ (traceDrop seq s).out = s.out ∧ (traceDrop seq s).pending = s.pending :=
  have k : Off (fun p => p == .obs) s (traceDrop seq s) := traceDrop_keeps (Off.keeps _ _) rfl .refl
  ⟨k.clk rfl, k.rcv rfl, k.icu rfl, k.sen rfl, k.tamperIn rfl, k.cex rfl, k.xlt rfl, k.srg rfl, k.ods rfl, k.vault rfl, k.kst rfl, k.engKeys rfl, k.kwe rfl, k.pke rfl, k.ent rfl, k.atu rfl, k.lcc rfl, k.mem rfl, k.link rfl, k.sheaf rfl, k.dom rfl, k.pins rfl, k.boot rfl, k.tdi rfl, k.ac rfl, k.vt rfl, k.free rfl, k.out rfl, k.pending rfl⟩

@[simp] theorem State.emit_same {s : State} {m : OutMsg} :
    (State.emit s m).clk = s.clk ∧ (State.emit s m).rcv = s.rcv ∧ (State.emit s m).icu = s.icu ∧ (State.emit s m).obs = s.obs ∧ (State.emit s m).sen = s.sen ∧ (State.emit s m).tamperIn = s.tamperIn ∧ (State.emit s m).cex = s.cex ∧ (State.emit s m).xlt = s.xlt ∧ (State.emit s m).srg = s.srg ∧ (State.emit s m).ods = s.ods ∧ (State.emit s m).vault = s.vault ∧ (State.emit s m).kst = s.kst ∧ (State.emit s m).engKeys = s.engKeys ∧ (State.emit s m).kwe = s.kwe ∧ (State.emit s m).pke = s.pke ∧ (State.emit s m).ent = s.ent ∧ (State.emit s m).atu = s.atu ∧ (State.emit s m).lcc = s.lcc ∧ (State.emit s m).mem = s.mem ∧ (State.emit s m).link = s.link ∧ (State.emit s m).sheaf = s.sheaf ∧ (State.emit s m).dom = s.dom ∧ (State.emit s m).pins = s.pins ∧ (State.emit s m).boot = s.boot ∧ (State.emit s m).tdi = s.tdi ∧ (State.emit s m).ac = s.ac ∧ (State.emit s m).vt = s.vt ∧ (State.emit s m).free = s.free ∧ (State.emit s m).pending = s.pending :=
  have k : Off (fun p => p == .out) s (State.emit s m) := State.emit_keeps (Off.keeps _ _) rfl .refl
  ⟨k.clk rfl, k.rcv rfl, k.icu rfl, k.obs rfl, k.sen rfl, k.tamperIn rfl, k.cex rfl, k.xlt rfl, k.srg rfl, k.ods rfl, k.vault rfl, k.kst rfl, k.engKeys rfl, k.kwe rfl, k.pke rfl, k.ent rfl, k.atu rfl, k.lcc rfl, k.mem rfl, k.link rfl, k.sheaf rfl, k.dom rfl, k.pins rfl, k.boot rfl, k.tdi rfl, k.ac rfl, k.vt rfl, k.free rfl, k.pending rfl⟩

@[simp] theorem traceStore_same {r : TraceRec} {s : State} :
    (traceStore r s).clk = s.clk ∧ (traceStore r s).rcv = s.rcv ∧ (traceStore r s).icu = s.icu ∧ (traceStore r s).sen = s.sen ∧ (traceStore r s).tamperIn = s.tamperIn ∧ (traceStore r s).cex = s.cex ∧ (traceStore r s).xlt = s.xlt ∧ (traceStore r s).srg = s.srg ∧ (traceStore r s).ods = s.ods ∧ (traceStore r s).vault = s.vault ∧ (traceStore r s).kst = s.kst ∧ (traceStore r s).engKeys = s.engKeys ∧ (traceStore r s).kwe = s.kwe ∧ (traceStore r s).pke = s.pke ∧ (traceStore r s).ent = s.ent ∧ (traceStore r s).atu = s.atu ∧ (traceStore r s).lcc = s.lcc ∧ (traceStore r s).mem = s.mem ∧ (traceStore r s).link = s.link ∧ (traceStore r s).sheaf = s.sheaf ∧ (traceStore r s).dom = s.dom ∧ (traceStore r s).pins = s.pins ∧ (traceStore r s).boot = s.boot ∧ (traceStore r s).tdi = s.tdi ∧ (traceStore r s).ac = s.ac ∧ (traceStore r s).vt = s.vt ∧ (traceStore r s).free = s.free ∧ (traceStore r s).pending = s.pending :=
  have k : Off (fun p => p == .obs || p == .out) s (traceStore r s) := traceStore_keeps (Off.keeps _ _) rfl rfl .refl
  ⟨k.clk rfl, k.rcv rfl, k.icu rfl, k.sen rfl, k.tamperIn rfl, k.cex rfl, k.xlt rfl, k.srg rfl, k.ods rfl, k.vault rfl, k.kst rfl, k.engKeys rfl, k.kwe rfl, k.pke rfl, k.ent rfl, k.atu rfl, k.lcc rfl, k.mem rfl, k.link rfl, k.sheaf rfl, k.dom rfl, k.pins rfl, k.boot rfl, k.tdi rfl, k.ac rfl, k.vt rfl, k.free rfl, k.pending rfl⟩

@[simp] theorem icuUpdate_same {pair : Bool} {s : State} :
    (icuUpdate pair s).clk = s.clk ∧ (icuUpdate pair s).rcv = s.rcv ∧ (icuUpdate pair s).obs = s.obs ∧ (icuUpdate pair s).sen = s.sen ∧ (icuUpdate pair s).tamperIn = s.tamperIn ∧ (icuUpdate pair s).cex = s.cex ∧ (icuUpdate pair s).xlt = s.xlt ∧ (icuUpdate pair s).srg = s.srg ∧ (icuUpdate pair s).ods = s.ods ∧ (icuUpdate pair s).vault = s.vault ∧ (icuUpdate pair s).kst = s.kst ∧ (icuUpdate pair s).engKeys = s.engKeys ∧ (icuUpdate pair s).kwe = s.kwe ∧ (icuUpdate pair s).pke = s.pke ∧ (icuUpdate pair s).ent = s.ent ∧ (icuUpdate pair s).atu = s.atu ∧ (icuUpdate pair s).lcc = s.lcc ∧ (icuUpdate pair s).mem = s.mem ∧ (icuUpdate pair s).link = s.link ∧ (icuUpdate pair s).sheaf = s.sheaf ∧ (icuUpdate pair s).dom = s.dom ∧ (icuUpdate pair s).pins = s.pins ∧ (icuUpdate pair s).boot = s.boot ∧ (icuUpdate pair s).tdi = s.tdi ∧ (icuUpdate pair s).ac = s.ac ∧ (icuUpdate pair s).vt = s.vt ∧ (icuUpdate pair s).free = s.free ∧ (icuUpdate pair s).out = s.out ∧ (icuUpdate pair s).pending = s.pending :=
  have k : Off (fun p => p == .icu) s (icuUpdate pair s) := icuUpdate_keeps (Off.keeps _ _) rfl .refl
  ⟨k.clk rfl, k.rcv rfl, k.obs rfl, k.sen rfl, k.tamperIn rfl, k.cex rfl, k.xlt rfl, k.srg rfl, k.ods rfl, k.vault rfl, k.kst rfl, k.engKeys rfl, k.kwe rfl, k.pke rfl, k.ent rfl, k.atu rfl, k.lcc rfl, k.mem rfl, k.link rfl, k.sheaf rfl, k.dom rfl, k.pins rfl, k.boot rfl, k.tdi rfl, k.ac rfl, k.vt rfl, k.free rfl, k.out rfl, k.pending rfl⟩

@[simp] theorem icuUpdateBoth_same {s : State} :
    (icuUpdateBoth s).clk = s.clk ∧ (icuUpdateBoth s).rcv = s.rcv ∧ (icuUpdateBoth s).obs = s.obs ∧ (icuUpdateBoth s).sen = s.sen ∧ (icuUpdateBoth s).tamperIn = s.tamperIn ∧ (icuUpdateBoth s).cex = s.cex ∧ (icuUpdateBoth s).xlt = s.xlt ∧ (icuUpdateBoth s).srg = s.srg ∧ (icuUpdateBoth s).ods = s.ods ∧ (icuUpdateBoth s).vault = s.vault ∧ (icuUpdateBoth s).kst = s.kst ∧ (icuUpdateBoth s).engKeys = s.engKeys ∧ (icuUpdateBoth s).kwe = s.kwe ∧ (icuUpdateBoth s).pke = s.pke ∧ (icuUpdateBoth s).ent = s.ent ∧ (icuUpdateBoth s).atu = s.atu ∧ (icuUpdateBoth s).lcc = s.lcc ∧ (icuUpdateBoth s).mem = s.mem ∧ (icuUpdateBoth s).link = s.link ∧ (icuUpdateBoth s).sheaf = s.sheaf ∧ (icuUpdateBoth s).dom = s.dom ∧ (icuUpdateBoth s).pins = s.pins ∧ (icuUpdateBoth s).boot = s.boot ∧ (icuUpdateBoth s).tdi = s.tdi ∧ (icuUpdateBoth s).ac = s.ac ∧ (icuUpdateBoth s).vt = s.vt ∧ (icuUpdateBoth s).free = s.free ∧ (icuUpdateBoth s).out = s.out ∧ (icuUpdateBoth s).pending = s.pending :=
  have k : Off (fun p => p == .icu) s (icuUpdateBoth s) := icuUpdateBoth_keeps (Off.keeps _ _) rfl .refl
  ⟨k.clk rfl, k.rcv rfl, k.obs rfl, k.sen rfl, k.tamperIn rfl, k.cex rfl, k.xlt rfl, k.srg rfl, k.ods rfl, k.vault rfl, k.kst rfl, k.engKeys rfl, k.kwe rfl, k.pke rfl, k.ent rfl, k.atu rfl, k.lcc rfl, k.mem rfl, k.link rfl, k.sheaf rfl, k.dom rfl, k.pins rfl, k.boot rfl, k.tdi rfl, k.ac rfl, k.vt rfl, k.free rfl, k.out rfl, k.pending rfl⟩

@[simp] theorem icuRaise_same {pair : Bool} {n : Nat} {s : State} :
    (icuRaise pair n s).clk = s.clk ∧ (icuRaise pair n s).rcv = s.rcv ∧ (icuRaise pair n s).obs = s.obs ∧ (icuRaise pair n s).sen = s.sen ∧ (icuRaise pair n s).tamperIn = s.tamperIn ∧ (icuRaise pair n s).cex = s.cex ∧ (icuRaise pair n s).xlt = s.xlt ∧ (icuRaise pair n s).srg = s.srg ∧ (icuRaise pair n s).ods = s.ods ∧ (icuRaise pair n s).vault = s.vault ∧ (icuRaise pair n s).kst = s.kst ∧ (icuRaise pair n s).engKeys = s.engKeys ∧ (icuRaise pair n s).kwe = s.kwe ∧ (icuRaise pair n s).pke = s.pke ∧ (icuRaise pair n s).ent = s.ent ∧ (icuRaise pair n s).atu = s.atu ∧ (icuRaise pair n s).lcc = s.lcc ∧ (icuRaise pair n s).mem = s.mem ∧ (icuRaise pair n s).link = s.link ∧ (icuRaise pair n s).sheaf = s.sheaf ∧ (icuRaise pair n s).dom = s.dom ∧ (icuRaise pair n s).pins = s.pins ∧ (icuRaise pair n s).boot = s.boot ∧ (icuRaise pair n s).tdi = s.tdi ∧ (icuRaise pair n s).ac = s.ac ∧ (icuRaise pair n s).vt = s.vt ∧ (icuRaise pair n s).free = s.free ∧ (icuRaise pair n s).out = s.out ∧ (icuRaise pair n s).pending = s.pending :=
  have k : Off (fun p => p == .icu) s (icuRaise pair n s) := icuRaise_keeps (Off.keeps _ _) rfl .refl
  ⟨k.clk rfl, k.rcv rfl, k.obs rfl, k.sen rfl, k.tamperIn rfl, k.cex rfl, k.xlt rfl, k.srg rfl, k.ods rfl, k.vault rfl, k.kst rfl, k.engKeys rfl, k.kwe rfl, k.pke rfl, k.ent rfl, k.atu rfl, k.lcc rfl, k.mem rfl, k.link rfl, k.sheaf rfl, k.dom rfl, k.pins rfl, k.boot rfl, k.tdi rfl, k.ac rfl, k.vt rfl, k.free rfl, k.out rfl, k.pending rfl⟩

@[simp] theorem traceOne_same {type flags payload payload2 : Nat} {s : State} :
    (traceOne type flags payload payload2 s).clk = s.clk ∧ (traceOne type flags payload payload2 s).rcv = s.rcv ∧ (traceOne type flags payload payload2 s).sen = s.sen ∧ (traceOne type flags payload payload2 s).tamperIn = s.tamperIn ∧ (traceOne type flags payload payload2 s).cex = s.cex ∧ (traceOne type flags payload payload2 s).xlt = s.xlt ∧ (traceOne type flags payload payload2 s).srg = s.srg ∧ (traceOne type flags payload payload2 s).ods = s.ods ∧ (traceOne type flags payload payload2 s).vault = s.vault ∧ (traceOne type flags payload payload2 s).kst = s.kst ∧ (traceOne type flags payload payload2 s).engKeys = s.engKeys ∧ (traceOne type flags payload payload2 s).kwe = s.kwe ∧ (traceOne type flags payload payload2 s).pke = s.pke ∧ (traceOne type flags payload payload2 s).ent = s.ent ∧ (traceOne type flags payload payload2 s).atu = s.atu ∧ (traceOne type flags payload payload2 s).lcc = s.lcc ∧ (traceOne type flags payload payload2 s).mem = s.mem ∧ (traceOne type flags payload payload2 s).link = s.link ∧ (traceOne type flags payload payload2 s).sheaf = s.sheaf ∧ (traceOne type flags payload payload2 s).dom = s.dom ∧ (traceOne type flags payload payload2 s).pins = s.pins ∧ (traceOne type flags payload payload2 s).boot = s.boot ∧ (traceOne type flags payload payload2 s).tdi = s.tdi ∧ (traceOne type flags payload payload2 s).ac = s.ac ∧ (traceOne type flags payload payload2 s).vt = s.vt ∧ (traceOne type flags payload payload2 s).free = s.free ∧ (traceOne type flags payload payload2 s).pending = s.pending :=
  have k : Off (fun p => p == .icu || p == .obs || p == .out) s (traceOne type flags payload payload2 s) := traceOne_keeps (Off.keeps _ _) rfl rfl rfl .refl
  ⟨k.clk rfl, k.rcv rfl, k.sen rfl, k.tamperIn rfl, k.cex rfl, k.xlt rfl, k.srg rfl, k.ods rfl, k.vault rfl, k.kst rfl, k.engKeys rfl, k.kwe rfl, k.pke rfl, k.ent rfl, k.atu rfl, k.lcc rfl, k.mem rfl, k.link rfl, k.sheaf rfl, k.dom rfl, k.pins rfl, k.boot rfl, k.tdi rfl, k.ac rfl, k.vt rfl, k.free rfl, k.pending rfl⟩

@[simp] theorem traceRec_same {type flags payload payload2 : Nat} {s : State} :
    (traceRec type flags payload payload2 s).clk = s.clk ∧ (traceRec type flags payload payload2 s).rcv = s.rcv ∧ (traceRec type flags payload payload2 s).sen = s.sen ∧ (traceRec type flags payload payload2 s).tamperIn = s.tamperIn ∧ (traceRec type flags payload payload2 s).cex = s.cex ∧ (traceRec type flags payload payload2 s).xlt = s.xlt ∧ (traceRec type flags payload payload2 s).srg = s.srg ∧ (traceRec type flags payload payload2 s).ods = s.ods ∧ (traceRec type flags payload payload2 s).vault = s.vault ∧ (traceRec type flags payload payload2 s).kst = s.kst ∧ (traceRec type flags payload payload2 s).engKeys = s.engKeys ∧ (traceRec type flags payload payload2 s).kwe = s.kwe ∧ (traceRec type flags payload payload2 s).pke = s.pke ∧ (traceRec type flags payload payload2 s).ent = s.ent ∧ (traceRec type flags payload payload2 s).atu = s.atu ∧ (traceRec type flags payload payload2 s).lcc = s.lcc ∧ (traceRec type flags payload payload2 s).mem = s.mem ∧ (traceRec type flags payload payload2 s).link = s.link ∧ (traceRec type flags payload payload2 s).sheaf = s.sheaf ∧ (traceRec type flags payload payload2 s).dom = s.dom ∧ (traceRec type flags payload payload2 s).pins = s.pins ∧ (traceRec type flags payload payload2 s).boot = s.boot ∧ (traceRec type flags payload payload2 s).tdi = s.tdi ∧ (traceRec type flags payload payload2 s).ac = s.ac ∧ (traceRec type flags payload payload2 s).vt = s.vt ∧ (traceRec type flags payload payload2 s).free = s.free ∧ (traceRec type flags payload payload2 s).pending = s.pending :=
  have k : Off (fun p => p == .icu || p == .obs || p == .out) s (traceRec type flags payload payload2 s) := traceRec_keeps (Off.keeps _ _) rfl rfl rfl .refl
  ⟨k.clk rfl, k.rcv rfl, k.sen rfl, k.tamperIn rfl, k.cex rfl, k.xlt rfl, k.srg rfl, k.ods rfl, k.vault rfl, k.kst rfl, k.engKeys rfl, k.kwe rfl, k.pke rfl, k.ent rfl, k.atu rfl, k.lcc rfl, k.mem rfl, k.link rfl, k.sheaf rfl, k.dom rfl, k.pins rfl, k.boot rfl, k.tdi rfl, k.ac rfl, k.vt rfl, k.free rfl, k.pending rfl⟩

@[simp] theorem traceFire_same {id value : Nat} {pair : Bool} {s : State} :
    (traceFire id value pair s).clk = s.clk ∧ (traceFire id value pair s).rcv = s.rcv ∧ (traceFire id value pair s).sen = s.sen ∧ (traceFire id value pair s).tamperIn = s.tamperIn ∧ (traceFire id value pair s).cex = s.cex ∧ (traceFire id value pair s).xlt = s.xlt ∧ (traceFire id value pair s).srg = s.srg ∧ (traceFire id value pair s).ods = s.ods ∧ (traceFire id value pair s).vault = s.vault ∧ (traceFire id value pair s).kst = s.kst ∧ (traceFire id value pair s).engKeys = s.engKeys ∧ (traceFire id value pair s).kwe = s.kwe ∧ (traceFire id value pair s).pke = s.pke ∧ (traceFire id value pair s).ent = s.ent ∧ (traceFire id value pair s).atu = s.atu ∧ (traceFire id value pair s).lcc = s.lcc ∧ (traceFire id value pair s).mem = s.mem ∧ (traceFire id value pair s).link = s.link ∧ (traceFire id value pair s).sheaf = s.sheaf ∧ (traceFire id value pair s).dom = s.dom ∧ (traceFire id value pair s).pins = s.pins ∧ (traceFire id value pair s).boot = s.boot ∧ (traceFire id value pair s).tdi = s.tdi ∧ (traceFire id value pair s).ac = s.ac ∧ (traceFire id value pair s).vt = s.vt ∧ (traceFire id value pair s).free = s.free ∧ (traceFire id value pair s).pending = s.pending :=
  have k : Off (fun p => p == .icu || p == .obs || p == .out) s (traceFire id value pair s) := traceFire_keeps (Off.keeps _ _) rfl rfl rfl .refl
  ⟨k.clk rfl, k.rcv rfl, k.sen rfl, k.tamperIn rfl, k.cex rfl, k.xlt rfl, k.srg rfl, k.ods rfl, k.vault rfl, k.kst rfl, k.engKeys rfl, k.kwe rfl, k.pke rfl, k.ent rfl, k.atu rfl, k.lcc rfl, k.mem rfl, k.link rfl, k.sheaf rfl, k.dom rfl, k.pins rfl, k.boot rfl, k.tdi rfl, k.ac rfl, k.vt rfl, k.free rfl, k.pending rfl⟩

@[simp] theorem traceWatch_same {kind : Nat} {pair : Bool} {value : Nat} {s : State} :
    (traceWatch kind pair value s).clk = s.clk ∧ (traceWatch kind pair value s).rcv = s.rcv ∧ (traceWatch kind pair value s).sen = s.sen ∧ (traceWatch kind pair value s).tamperIn = s.tamperIn ∧ (traceWatch kind pair value s).cex = s.cex ∧ (traceWatch kind pair value s).xlt = s.xlt ∧ (traceWatch kind pair value s).srg = s.srg ∧ (traceWatch kind pair value s).ods = s.ods ∧ (traceWatch kind pair value s).vault = s.vault ∧ (traceWatch kind pair value s).kst = s.kst ∧ (traceWatch kind pair value s).engKeys = s.engKeys ∧ (traceWatch kind pair value s).kwe = s.kwe ∧ (traceWatch kind pair value s).pke = s.pke ∧ (traceWatch kind pair value s).ent = s.ent ∧ (traceWatch kind pair value s).atu = s.atu ∧ (traceWatch kind pair value s).lcc = s.lcc ∧ (traceWatch kind pair value s).mem = s.mem ∧ (traceWatch kind pair value s).link = s.link ∧ (traceWatch kind pair value s).sheaf = s.sheaf ∧ (traceWatch kind pair value s).dom = s.dom ∧ (traceWatch kind pair value s).pins = s.pins ∧ (traceWatch kind pair value s).boot = s.boot ∧ (traceWatch kind pair value s).tdi = s.tdi ∧ (traceWatch kind pair value s).ac = s.ac ∧ (traceWatch kind pair value s).vt = s.vt ∧ (traceWatch kind pair value s).free = s.free ∧ (traceWatch kind pair value s).pending = s.pending :=
  have k : Off (fun p => p == .icu || p == .obs || p == .out) s (traceWatch kind pair value s) := traceWatch_keeps (Off.keeps _ _) rfl rfl rfl .refl
  ⟨k.clk rfl, k.rcv rfl, k.sen rfl, k.tamperIn rfl, k.cex rfl, k.xlt rfl, k.srg rfl, k.ods rfl, k.vault rfl, k.kst rfl, k.engKeys rfl, k.kwe rfl, k.pke rfl, k.ent rfl, k.atu rfl, k.lcc rfl, k.mem rfl, k.link rfl, k.sheaf rfl, k.dom rfl, k.pins rfl, k.boot rfl, k.tdi rfl, k.ac rfl, k.vt rfl, k.free rfl, k.pending rfl⟩

@[simp] theorem icuAssertRaw_same {pair : Bool} {n : Nat} {s : State} :
    (icuAssertRaw pair n s).clk = s.clk ∧ (icuAssertRaw pair n s).rcv = s.rcv ∧ (icuAssertRaw pair n s).sen = s.sen ∧ (icuAssertRaw pair n s).tamperIn = s.tamperIn ∧ (icuAssertRaw pair n s).cex = s.cex ∧ (icuAssertRaw pair n s).xlt = s.xlt ∧ (icuAssertRaw pair n s).srg = s.srg ∧ (icuAssertRaw pair n s).ods = s.ods ∧ (icuAssertRaw pair n s).vault = s.vault ∧ (icuAssertRaw pair n s).kst = s.kst ∧ (icuAssertRaw pair n s).engKeys = s.engKeys ∧ (icuAssertRaw pair n s).kwe = s.kwe ∧ (icuAssertRaw pair n s).pke = s.pke ∧ (icuAssertRaw pair n s).ent = s.ent ∧ (icuAssertRaw pair n s).atu = s.atu ∧ (icuAssertRaw pair n s).lcc = s.lcc ∧ (icuAssertRaw pair n s).mem = s.mem ∧ (icuAssertRaw pair n s).link = s.link ∧ (icuAssertRaw pair n s).sheaf = s.sheaf ∧ (icuAssertRaw pair n s).dom = s.dom ∧ (icuAssertRaw pair n s).pins = s.pins ∧ (icuAssertRaw pair n s).boot = s.boot ∧ (icuAssertRaw pair n s).tdi = s.tdi ∧ (icuAssertRaw pair n s).ac = s.ac ∧ (icuAssertRaw pair n s).vt = s.vt ∧ (icuAssertRaw pair n s).free = s.free ∧ (icuAssertRaw pair n s).pending = s.pending :=
  have k : Off (fun p => p == .icu || p == .obs || p == .out) s (icuAssertRaw pair n s) := icuAssertRaw_keeps (Off.keeps _ _) rfl rfl rfl .refl
  ⟨k.clk rfl, k.rcv rfl, k.sen rfl, k.tamperIn rfl, k.cex rfl, k.xlt rfl, k.srg rfl, k.ods rfl, k.vault rfl, k.kst rfl, k.engKeys rfl, k.kwe rfl, k.pke rfl, k.ent rfl, k.atu rfl, k.lcc rfl, k.mem rfl, k.link rfl, k.sheaf rfl, k.dom rfl, k.pins rfl, k.boot rfl, k.tdi rfl, k.ac rfl, k.vt rfl, k.free rfl, k.pending rfl⟩

@[simp] theorem logError_same {cls unit slice region key detail : Nat} {s : State} :
    (logError cls unit slice region key detail s).clk = s.clk ∧ (logError cls unit slice region key detail s).sen = s.sen ∧ (logError cls unit slice region key detail s).tamperIn = s.tamperIn ∧ (logError cls unit slice region key detail s).cex = s.cex ∧ (logError cls unit slice region key detail s).xlt = s.xlt ∧ (logError cls unit slice region key detail s).srg = s.srg ∧ (logError cls unit slice region key detail s).ods = s.ods ∧ (logError cls unit slice region key detail s).vault = s.vault ∧ (logError cls unit slice region key detail s).kst = s.kst ∧ (logError cls unit slice region key detail s).engKeys = s.engKeys ∧ (logError cls unit slice region key detail s).kwe = s.kwe ∧ (logError cls unit slice region key detail s).pke = s.pke ∧ (logError cls unit slice region key detail s).ent = s.ent ∧ (logError cls unit slice region key detail s).atu = s.atu ∧ (logError cls unit slice region key detail s).lcc = s.lcc ∧ (logError cls unit slice region key detail s).mem = s.mem ∧ (logError cls unit slice region key detail s).link = s.link ∧ (logError cls unit slice region key detail s).sheaf = s.sheaf ∧ (logError cls unit slice region key detail s).dom = s.dom ∧ (logError cls unit slice region key detail s).pins = s.pins ∧ (logError cls unit slice region key detail s).boot = s.boot ∧ (logError cls unit slice region key detail s).tdi = s.tdi ∧ (logError cls unit slice region key detail s).ac = s.ac ∧ (logError cls unit slice region key detail s).vt = s.vt ∧ (logError cls unit slice region key detail s).free = s.free ∧ (logError cls unit slice region key detail s).pending = s.pending :=
  have k : Off (fun p => p == .rcv || p == .icu || p == .obs || p == .out) s (logError cls unit slice region key detail s) := logError_keeps (Off.keeps _ _) rfl rfl rfl rfl .refl
  ⟨k.clk rfl, k.sen rfl, k.tamperIn rfl, k.cex rfl, k.xlt rfl, k.srg rfl, k.ods rfl, k.vault rfl, k.kst rfl, k.engKeys rfl, k.kwe rfl, k.pke rfl, k.ent rfl, k.atu rfl, k.lcc rfl, k.mem rfl, k.link rfl, k.sheaf rfl, k.dom rfl, k.pins rfl, k.boot rfl, k.tdi rfl, k.ac rfl, k.vt rfl, k.free rfl, k.pending rfl⟩

@[simp] theorem queueRecord_same {ring : Nat} {w : EvWait} {s : State} :
    (queueRecord ring w s).clk = s.clk ∧ (queueRecord ring w s).rcv = s.rcv ∧ (queueRecord ring w s).icu = s.icu ∧ (queueRecord ring w s).obs = s.obs ∧ (queueRecord ring w s).sen = s.sen ∧ (queueRecord ring w s).tamperIn = s.tamperIn ∧ (queueRecord ring w s).xlt = s.xlt ∧ (queueRecord ring w s).srg = s.srg ∧ (queueRecord ring w s).ods = s.ods ∧ (queueRecord ring w s).vault = s.vault ∧ (queueRecord ring w s).kst = s.kst ∧ (queueRecord ring w s).engKeys = s.engKeys ∧ (queueRecord ring w s).kwe = s.kwe ∧ (queueRecord ring w s).pke = s.pke ∧ (queueRecord ring w s).ent = s.ent ∧ (queueRecord ring w s).atu = s.atu ∧ (queueRecord ring w s).lcc = s.lcc ∧ (queueRecord ring w s).mem = s.mem ∧ (queueRecord ring w s).link = s.link ∧ (queueRecord ring w s).sheaf = s.sheaf ∧ (queueRecord ring w s).dom = s.dom ∧ (queueRecord ring w s).pins = s.pins ∧ (queueRecord ring w s).boot = s.boot ∧ (queueRecord ring w s).tdi = s.tdi ∧ (queueRecord ring w s).ac = s.ac ∧ (queueRecord ring w s).vt = s.vt ∧ (queueRecord ring w s).free = s.free ∧ (queueRecord ring w s).out = s.out ∧ (queueRecord ring w s).pending = s.pending :=
  have k : Off (fun p => p == .cex) s (queueRecord ring w s) := queueRecord_keeps (Off.keeps _ _) rfl .refl
  ⟨k.clk rfl, k.rcv rfl, k.icu rfl, k.obs rfl, k.sen rfl, k.tamperIn rfl, k.xlt rfl, k.srg rfl, k.ods rfl, k.vault rfl, k.kst rfl, k.engKeys rfl, k.kwe rfl, k.pke rfl, k.ent rfl, k.atu rfl, k.lcc rfl, k.mem rfl, k.link rfl, k.sheaf rfl, k.dom rfl, k.pins rfl, k.boot rfl, k.tdi rfl, k.ac rfl, k.vt rfl, k.free rfl, k.out rfl, k.pending rfl⟩

@[simp] theorem updQ_same {q : Nat} {f : Queue → Queue} {s : State} :
    (updQ q f s).clk = s.clk ∧ (updQ q f s).rcv = s.rcv ∧ (updQ q f s).icu = s.icu ∧ (updQ q f s).obs = s.obs ∧ (updQ q f s).sen = s.sen ∧ (updQ q f s).tamperIn = s.tamperIn ∧ (updQ q f s).xlt = s.xlt ∧ (updQ q f s).srg = s.srg ∧ (updQ q f s).ods = s.ods ∧ (updQ q f s).vault = s.vault ∧ (updQ q f s).kst = s.kst ∧ (updQ q f s).engKeys = s.engKeys ∧ (updQ q f s).kwe = s.kwe ∧ (updQ q f s).pke = s.pke ∧ (updQ q f s).ent = s.ent ∧ (updQ q f s).atu = s.atu ∧ (updQ q f s).lcc = s.lcc ∧ (updQ q f s).mem = s.mem ∧ (updQ q f s).link = s.link ∧ (updQ q f s).sheaf = s.sheaf ∧ (updQ q f s).dom = s.dom ∧ (updQ q f s).pins = s.pins ∧ (updQ q f s).boot = s.boot ∧ (updQ q f s).tdi = s.tdi ∧ (updQ q f s).ac = s.ac ∧ (updQ q f s).vt = s.vt ∧ (updQ q f s).free = s.free ∧ (updQ q f s).out = s.out ∧ (updQ q f s).pending = s.pending :=
  have k : Off (fun p => p == .cex) s (updQ q f s) := updQ_keeps (Off.keeps _ _) rfl .refl
  ⟨k.clk rfl, k.rcv rfl, k.icu rfl, k.obs rfl, k.sen rfl, k.tamperIn rfl, k.xlt rfl, k.srg rfl, k.ods rfl, k.vault rfl, k.kst rfl, k.engKeys rfl, k.kwe rfl, k.pke rfl, k.ent rfl, k.atu rfl, k.lcc rfl, k.mem rfl, k.link rfl, k.sheaf rfl, k.dom rfl, k.pins rfl, k.boot rfl, k.tdi rfl, k.ac rfl, k.vt rfl, k.free rfl, k.out rfl, k.pending rfl⟩

@[simp] theorem writeCapture_same {q : Nat} {c : Capture} {s : State} :
    (writeCapture q c s).clk = s.clk ∧ (writeCapture q c s).rcv = s.rcv ∧ (writeCapture q c s).icu = s.icu ∧ (writeCapture q c s).obs = s.obs ∧ (writeCapture q c s).sen = s.sen ∧ (writeCapture q c s).tamperIn = s.tamperIn ∧ (writeCapture q c s).xlt = s.xlt ∧ (writeCapture q c s).srg = s.srg ∧ (writeCapture q c s).ods = s.ods ∧ (writeCapture q c s).vault = s.vault ∧ (writeCapture q c s).kst = s.kst ∧ (writeCapture q c s).engKeys = s.engKeys ∧ (writeCapture q c s).kwe = s.kwe ∧ (writeCapture q c s).pke = s.pke ∧ (writeCapture q c s).ent = s.ent ∧ (writeCapture q c s).atu = s.atu ∧ (writeCapture q c s).lcc = s.lcc ∧ (writeCapture q c s).mem = s.mem ∧ (writeCapture q c s).link = s.link ∧ (writeCapture q c s).sheaf = s.sheaf ∧ (writeCapture q c s).dom = s.dom ∧ (writeCapture q c s).pins = s.pins ∧ (writeCapture q c s).boot = s.boot ∧ (writeCapture q c s).tdi = s.tdi ∧ (writeCapture q c s).ac = s.ac ∧ (writeCapture q c s).vt = s.vt ∧ (writeCapture q c s).free = s.free ∧ (writeCapture q c s).out = s.out ∧ (writeCapture q c s).pending = s.pending :=
  have k : Off (fun p => p == .cex) s (writeCapture q c s) := writeCapture_keeps (Off.keeps _ _) rfl .refl
  ⟨k.clk rfl, k.rcv rfl, k.icu rfl, k.obs rfl, k.sen rfl, k.tamperIn rfl, k.xlt rfl, k.srg rfl, k.ods rfl, k.vault rfl, k.kst rfl, k.engKeys rfl, k.kwe rfl, k.pke rfl, k.ent rfl, k.atu rfl, k.lcc rfl, k.mem rfl, k.link rfl, k.sheaf rfl, k.dom rfl, k.pins rfl, k.boot rfl, k.tdi rfl, k.ac rfl, k.vt rfl, k.free rfl, k.out rfl, k.pending rfl⟩

@[simp] theorem updFlight_same {k : CmdKey} {f : Flight → Flight} {s : State} :
    (updFlight k f s).clk = s.clk ∧ (updFlight k f s).rcv = s.rcv ∧ (updFlight k f s).icu = s.icu ∧ (updFlight k f s).obs = s.obs ∧ (updFlight k f s).sen = s.sen ∧ (updFlight k f s).tamperIn = s.tamperIn ∧ (updFlight k f s).xlt = s.xlt ∧ (updFlight k f s).srg = s.srg ∧ (updFlight k f s).ods = s.ods ∧ (updFlight k f s).vault = s.vault ∧ (updFlight k f s).kst = s.kst ∧ (updFlight k f s).engKeys = s.engKeys ∧ (updFlight k f s).kwe = s.kwe ∧ (updFlight k f s).pke = s.pke ∧ (updFlight k f s).ent = s.ent ∧ (updFlight k f s).atu = s.atu ∧ (updFlight k f s).lcc = s.lcc ∧ (updFlight k f s).mem = s.mem ∧ (updFlight k f s).link = s.link ∧ (updFlight k f s).sheaf = s.sheaf ∧ (updFlight k f s).dom = s.dom ∧ (updFlight k f s).pins = s.pins ∧ (updFlight k f s).boot = s.boot ∧ (updFlight k f s).tdi = s.tdi ∧ (updFlight k f s).ac = s.ac ∧ (updFlight k f s).vt = s.vt ∧ (updFlight k f s).free = s.free ∧ (updFlight k f s).out = s.out ∧ (updFlight k f s).pending = s.pending :=
  have k : Off (fun p => p == .cex) s (updFlight k f s) := updFlight_keeps (Off.keeps _ _) rfl .refl
  ⟨k.clk rfl, k.rcv rfl, k.icu rfl, k.obs rfl, k.sen rfl, k.tamperIn rfl, k.xlt rfl, k.srg rfl, k.ods rfl, k.vault rfl, k.kst rfl, k.engKeys rfl, k.kwe rfl, k.pke rfl, k.ent rfl, k.atu rfl, k.lcc rfl, k.mem rfl, k.link rfl, k.sheaf rfl, k.dom rfl, k.pins rfl, k.boot rfl, k.tdi rfl, k.ac rfl, k.vt rfl, k.free rfl, k.out rfl, k.pending rfl⟩

@[simp] theorem finish_same {k : CmdKey} {status detail : Nat} {s : State} :
    (finish k status detail s).clk = s.clk ∧ (finish k status detail s).rcv = s.rcv ∧ (finish k status detail s).icu = s.icu ∧ (finish k status detail s).obs = s.obs ∧ (finish k status detail s).sen = s.sen ∧ (finish k status detail s).tamperIn = s.tamperIn ∧ (finish k status detail s).xlt = s.xlt ∧ (finish k status detail s).srg = s.srg ∧ (finish k status detail s).ods = s.ods ∧ (finish k status detail s).vault = s.vault ∧ (finish k status detail s).kst = s.kst ∧ (finish k status detail s).engKeys = s.engKeys ∧ (finish k status detail s).kwe = s.kwe ∧ (finish k status detail s).pke = s.pke ∧ (finish k status detail s).ent = s.ent ∧ (finish k status detail s).atu = s.atu ∧ (finish k status detail s).lcc = s.lcc ∧ (finish k status detail s).mem = s.mem ∧ (finish k status detail s).link = s.link ∧ (finish k status detail s).sheaf = s.sheaf ∧ (finish k status detail s).dom = s.dom ∧ (finish k status detail s).pins = s.pins ∧ (finish k status detail s).boot = s.boot ∧ (finish k status detail s).tdi = s.tdi ∧ (finish k status detail s).ac = s.ac ∧ (finish k status detail s).vt = s.vt ∧ (finish k status detail s).free = s.free ∧ (finish k status detail s).out = s.out ∧ (finish k status detail s).pending = s.pending :=
  have k : Off (fun p => p == .cex) s (finish k status detail s) := finish_keeps (Off.keeps _ _) rfl .refl
  ⟨k.clk rfl, k.rcv rfl, k.icu rfl, k.obs rfl, k.sen rfl, k.tamperIn rfl, k.xlt rfl, k.srg rfl, k.ods rfl, k.vault rfl, k.kst rfl, k.engKeys rfl, k.kwe rfl, k.pke rfl, k.ent rfl, k.atu rfl, k.lcc rfl, k.mem rfl, k.link rfl, k.sheaf rfl, k.dom rfl, k.pins rfl, k.boot rfl, k.tdi rfl, k.ac rfl, k.vt rfl, k.free rfl, k.out rfl, k.pending rfl⟩

@[simp] theorem raise1_same {slices : List Nat} {ring kind code detail : Nat} {cookie : BitVec 64} {ctx queue : Nat} {s : State} :
    (raise1 slices ring kind code detail cookie ctx queue s).clk = s.clk ∧ (raise1 slices ring kind code detail cookie ctx queue s).rcv = s.rcv ∧ (raise1 slices ring kind code detail cookie ctx queue s).icu = s.icu ∧ (raise1 slices ring kind code detail cookie ctx queue s).obs = s.obs ∧ (raise1 slices ring kind code detail cookie ctx queue s).sen = s.sen ∧ (raise1 slices ring kind code detail cookie ctx queue s).tamperIn = s.tamperIn ∧ (raise1 slices ring kind code detail cookie ctx queue s).xlt = s.xlt ∧ (raise1 slices ring kind code detail cookie ctx queue s).srg = s.srg ∧ (raise1 slices ring kind code detail cookie ctx queue s).ods = s.ods ∧ (raise1 slices ring kind code detail cookie ctx queue s).vault = s.vault ∧ (raise1 slices ring kind code detail cookie ctx queue s).kst = s.kst ∧ (raise1 slices ring kind code detail cookie ctx queue s).engKeys = s.engKeys ∧ (raise1 slices ring kind code detail cookie ctx queue s).kwe = s.kwe ∧ (raise1 slices ring kind code detail cookie ctx queue s).pke = s.pke ∧ (raise1 slices ring kind code detail cookie ctx queue s).ent = s.ent ∧ (raise1 slices ring kind code detail cookie ctx queue s).atu = s.atu ∧ (raise1 slices ring kind code detail cookie ctx queue s).lcc = s.lcc ∧ (raise1 slices ring kind code detail cookie ctx queue s).mem = s.mem ∧ (raise1 slices ring kind code detail cookie ctx queue s).link = s.link ∧ (raise1 slices ring kind code detail cookie ctx queue s).sheaf = s.sheaf ∧ (raise1 slices ring kind code detail cookie ctx queue s).dom = s.dom ∧ (raise1 slices ring kind code detail cookie ctx queue s).pins = s.pins ∧ (raise1 slices ring kind code detail cookie ctx queue s).boot = s.boot ∧ (raise1 slices ring kind code detail cookie ctx queue s).tdi = s.tdi ∧ (raise1 slices ring kind code detail cookie ctx queue s).ac = s.ac ∧ (raise1 slices ring kind code detail cookie ctx queue s).vt = s.vt ∧ (raise1 slices ring kind code detail cookie ctx queue s).free = s.free ∧ (raise1 slices ring kind code detail cookie ctx queue s).out = s.out ∧ (raise1 slices ring kind code detail cookie ctx queue s).pending = s.pending :=
  have k : Off (fun p => p == .cex) s (raise1 slices ring kind code detail cookie ctx queue s) := raise1_keeps (Off.keeps _ _) rfl .refl
  ⟨k.clk rfl, k.rcv rfl, k.icu rfl, k.obs rfl, k.sen rfl, k.tamperIn rfl, k.xlt rfl, k.srg rfl, k.ods rfl, k.vault rfl, k.kst rfl, k.engKeys rfl, k.kwe rfl, k.pke rfl, k.ent rfl, k.atu rfl, k.lcc rfl, k.mem rfl, k.link rfl, k.sheaf rfl, k.dom rfl, k.pins rfl, k.boot rfl, k.tdi rfl, k.ac rfl, k.vt rfl, k.free rfl, k.out rfl, k.pending rfl⟩

@[simp] theorem queueFault_same {q : Nat} {k : Option CmdKey} {c : Capture} {s : State} :
    (queueFault q k c s).clk = s.clk ∧ (queueFault q k c s).icu = s.icu ∧ (queueFault q k c s).sen = s.sen ∧ (queueFault q k c s).tamperIn = s.tamperIn ∧ (queueFault q k c s).xlt = s.xlt ∧ (queueFault q k c s).srg = s.srg ∧ (queueFault q k c s).ods = s.ods ∧ (queueFault q k c s).vault = s.vault ∧ (queueFault q k c s).kst = s.kst ∧ (queueFault q k c s).engKeys = s.engKeys ∧ (queueFault q k c s).kwe = s.kwe ∧ (queueFault q k c s).pke = s.pke ∧ (queueFault q k c s).ent = s.ent ∧ (queueFault q k c s).atu = s.atu ∧ (queueFault q k c s).lcc = s.lcc ∧ (queueFault q k c s).mem = s.mem ∧ (queueFault q k c s).link = s.link ∧ (queueFault q k c s).sheaf = s.sheaf ∧ (queueFault q k c s).dom = s.dom ∧ (queueFault q k c s).pins = s.pins ∧ (queueFault q k c s).boot = s.boot ∧ (queueFault q k c s).tdi = s.tdi ∧ (queueFault q k c s).ac = s.ac ∧ (queueFault q k c s).vt = s.vt ∧ (queueFault q k c s).free = s.free ∧ (queueFault q k c s).out = s.out ∧ (queueFault q k c s).pending = s.pending :=
  have k : Off (fun p => p == .rcv || p == .obs || p == .cex) s (queueFault q k c s) := queueFault_keeps (Off.keeps _ _) rfl rfl rfl .refl
  ⟨k.clk rfl, k.icu rfl, k.sen rfl, k.tamperIn rfl, k.xlt rfl, k.srg rfl, k.ods rfl, k.vault rfl, k.kst rfl, k.engKeys rfl, k.kwe rfl, k.pke rfl, k.ent rfl, k.atu rfl, k.lcc rfl, k.mem rfl, k.link rfl, k.sheaf rfl, k.dom rfl, k.pins rfl, k.boot rfl, k.tdi rfl, k.ac rfl, k.vt rfl, k.free rfl, k.out rfl, k.pending rfl⟩

@[simp] theorem faultCommand_same {k : CmdKey} {cause bva pasid detail : Nat} {s : State} :
    (faultCommand k cause bva pasid detail s).clk = s.clk ∧ (faultCommand k cause bva pasid detail s).icu = s.icu ∧ (faultCommand k cause bva pasid detail s).sen = s.sen ∧ (faultCommand k cause bva pasid detail s).tamperIn = s.tamperIn ∧ (faultCommand k cause bva pasid detail s).xlt = s.xlt ∧ (faultCommand k cause bva pasid detail s).srg = s.srg ∧ (faultCommand k cause bva pasid detail s).ods = s.ods ∧ (faultCommand k cause bva pasid detail s).vault = s.vault ∧ (faultCommand k cause bva pasid detail s).kst = s.kst ∧ (faultCommand k cause bva pasid detail s).engKeys = s.engKeys ∧ (faultCommand k cause bva pasid detail s).kwe = s.kwe ∧ (faultCommand k cause bva pasid detail s).pke = s.pke ∧ (faultCommand k cause bva pasid detail s).ent = s.ent ∧ (faultCommand k cause bva pasid detail s).atu = s.atu ∧ (faultCommand k cause bva pasid detail s).lcc = s.lcc ∧ (faultCommand k cause bva pasid detail s).mem = s.mem ∧ (faultCommand k cause bva pasid detail s).link = s.link ∧ (faultCommand k cause bva pasid detail s).sheaf = s.sheaf ∧ (faultCommand k cause bva pasid detail s).dom = s.dom ∧ (faultCommand k cause bva pasid detail s).pins = s.pins ∧ (faultCommand k cause bva pasid detail s).boot = s.boot ∧ (faultCommand k cause bva pasid detail s).tdi = s.tdi ∧ (faultCommand k cause bva pasid detail s).ac = s.ac ∧ (faultCommand k cause bva pasid detail s).vt = s.vt ∧ (faultCommand k cause bva pasid detail s).free = s.free ∧ (faultCommand k cause bva pasid detail s).out = s.out ∧ (faultCommand k cause bva pasid detail s).pending = s.pending :=
  have k : Off (fun p => p == .rcv || p == .obs || p == .cex) s (faultCommand k cause bva pasid detail s) := faultCommand_keeps (Off.keeps _ _) rfl rfl rfl .refl
  ⟨k.clk rfl, k.icu rfl, k.sen rfl, k.tamperIn rfl, k.xlt rfl, k.srg rfl, k.ods rfl, k.vault rfl, k.kst rfl, k.engKeys rfl, k.kwe rfl, k.pke rfl, k.ent rfl, k.atu rfl, k.lcc rfl, k.mem rfl, k.link rfl, k.sheaf rfl, k.dom rfl, k.pins rfl, k.boot rfl, k.tdi rfl, k.ac rfl, k.vt rfl, k.free rfl, k.out rfl, k.pending rfl⟩

@[simp] theorem logRung_same {rung unit slice : Nat} {s : State} :
    (logRung rung unit slice s).clk = s.clk ∧ (logRung rung unit slice s).sen = s.sen ∧ (logRung rung unit slice s).tamperIn = s.tamperIn ∧ (logRung rung unit slice s).cex = s.cex ∧ (logRung rung unit slice s).xlt = s.xlt ∧ (logRung rung unit slice s).srg = s.srg ∧ (logRung rung unit slice s).ods = s.ods ∧ (logRung rung unit slice s).vault = s.vault ∧ (logRung rung unit slice s).kst = s.kst ∧ (logRung rung unit slice s).engKeys = s.engKeys ∧ (logRung rung unit slice s).kwe = s.kwe ∧ (logRung rung unit slice s).pke = s.pke ∧ (logRung rung unit slice s).ent = s.ent ∧ (logRung rung unit slice s).atu = s.atu ∧ (logRung rung unit slice s).lcc = s.lcc ∧ (logRung rung unit slice s).mem = s.mem ∧ (logRung rung unit slice s).link = s.link ∧ (logRung rung unit slice s).sheaf = s.sheaf ∧ (logRung rung unit slice s).dom = s.dom ∧ (logRung rung unit slice s).pins = s.pins ∧ (logRung rung unit slice s).boot = s.boot ∧ (logRung rung unit slice s).tdi = s.tdi ∧ (logRung rung unit slice s).ac = s.ac ∧ (logRung rung unit slice s).vt = s.vt ∧ (logRung rung unit slice s).free = s.free ∧ (logRung rung unit slice s).pending = s.pending :=
  have k : Off (fun p => p == .rcv || p == .icu || p == .obs || p == .out) s (logRung rung unit slice s) := logRung_keeps (Off.keeps _ _) rfl rfl rfl rfl .refl
  ⟨k.clk rfl, k.sen rfl, k.tamperIn rfl, k.cex rfl, k.xlt rfl, k.srg rfl, k.ods rfl, k.vault rfl, k.kst rfl, k.engKeys rfl, k.kwe rfl, k.pke rfl, k.ent rfl, k.atu rfl, k.lcc rfl, k.mem rfl, k.link rfl, k.sheaf rfl, k.dom rfl, k.pins rfl, k.boot rfl, k.tdi rfl, k.ac rfl, k.vt rfl, k.free rfl, k.pending rfl⟩

@[simp] theorem updSlice_same {n : Nat} {f : SliceRec → SliceRec} {s : State} :
    (updSlice n f s).clk = s.clk ∧ (updSlice n f s).rcv = s.rcv ∧ (updSlice n f s).icu = s.icu ∧ (updSlice n f s).obs = s.obs ∧ (updSlice n f s).sen = s.sen ∧ (updSlice n f s).tamperIn = s.tamperIn ∧ (updSlice n f s).cex = s.cex ∧ (updSlice n f s).xlt = s.xlt ∧ (updSlice n f s).ods = s.ods ∧ (updSlice n f s).vault = s.vault ∧ (updSlice n f s).kst = s.kst ∧ (updSlice n f s).engKeys = s.engKeys ∧ (updSlice n f s).kwe = s.kwe ∧ (updSlice n f s).pke = s.pke ∧ (updSlice n f s).ent = s.ent ∧ (updSlice n f s).atu = s.atu ∧ (updSlice n f s).lcc = s.lcc ∧ (updSlice n f s).mem = s.mem ∧ (updSlice n f s).link = s.link ∧ (updSlice n f s).sheaf = s.sheaf ∧ (updSlice n f s).dom = s.dom ∧ (updSlice n f s).pins = s.pins ∧ (updSlice n f s).boot = s.boot ∧ (updSlice n f s).tdi = s.tdi ∧ (updSlice n f s).ac = s.ac ∧ (updSlice n f s).vt = s.vt ∧ (updSlice n f s).free = s.free ∧ (updSlice n f s).out = s.out ∧ (updSlice n f s).pending = s.pending :=
  have k : Off (fun p => p == .srg) s (updSlice n f s) := updSlice_keeps (Off.keeps _ _) rfl .refl
  ⟨k.clk rfl, k.rcv rfl, k.icu rfl, k.obs rfl, k.sen rfl, k.tamperIn rfl, k.cex rfl, k.xlt rfl, k.ods rfl, k.vault rfl, k.kst rfl, k.engKeys rfl, k.kwe rfl, k.pke rfl, k.ent rfl, k.atu rfl, k.lcc rfl, k.mem rfl, k.link rfl, k.sheaf rfl, k.dom rfl, k.pins rfl, k.boot rfl, k.tdi rfl, k.ac rfl, k.vt rfl, k.free rfl, k.out rfl, k.pending rfl⟩

@[simp] theorem updUsage_same {n : Nat} {f : Usage → Usage} {s : State} :
    (updUsage n f s).clk = s.clk ∧ (updUsage n f s).rcv = s.rcv ∧ (updUsage n f s).icu = s.icu ∧ (updUsage n f s).obs = s.obs ∧ (updUsage n f s).sen = s.sen ∧ (updUsage n f s).tamperIn = s.tamperIn ∧ (updUsage n f s).cex = s.cex ∧ (updUsage n f s).xlt = s.xlt ∧ (updUsage n f s).ods = s.ods ∧ (updUsage n f s).vault = s.vault ∧ (updUsage n f s).kst = s.kst ∧ (updUsage n f s).engKeys = s.engKeys ∧ (updUsage n f s).kwe = s.kwe ∧ (updUsage n f s).pke = s.pke ∧ (updUsage n f s).ent = s.ent ∧ (updUsage n f s).atu = s.atu ∧ (updUsage n f s).lcc = s.lcc ∧ (updUsage n f s).mem = s.mem ∧ (updUsage n f s).link = s.link ∧ (updUsage n f s).sheaf = s.sheaf ∧ (updUsage n f s).dom = s.dom ∧ (updUsage n f s).pins = s.pins ∧ (updUsage n f s).boot = s.boot ∧ (updUsage n f s).tdi = s.tdi ∧ (updUsage n f s).ac = s.ac ∧ (updUsage n f s).vt = s.vt ∧ (updUsage n f s).free = s.free ∧ (updUsage n f s).out = s.out ∧ (updUsage n f s).pending = s.pending :=
  have k : Off (fun p => p == .srg) s (updUsage n f s) := updUsage_keeps (Off.keeps _ _) rfl .refl
  ⟨k.clk rfl, k.rcv rfl, k.icu rfl, k.obs rfl, k.sen rfl, k.tamperIn rfl, k.cex rfl, k.xlt rfl, k.ods rfl, k.vault rfl, k.kst rfl, k.engKeys rfl, k.kwe rfl, k.pke rfl, k.ent rfl, k.atu rfl, k.lcc rfl, k.mem rfl, k.link rfl, k.sheaf rfl, k.dom rfl, k.pins rfl, k.boot rfl, k.tdi rfl, k.ac rfl, k.vt rfl, k.free rfl, k.out rfl, k.pending rfl⟩

@[simp] theorem chargeStart_same {k : CmdKey} {ctx wait : Nat} {s : State} :
    (chargeStart k ctx wait s).clk = s.clk ∧ (chargeStart k ctx wait s).rcv = s.rcv ∧ (chargeStart k ctx wait s).icu = s.icu ∧ (chargeStart k ctx wait s).obs = s.obs ∧ (chargeStart k ctx wait s).sen = s.sen ∧ (chargeStart k ctx wait s).tamperIn = s.tamperIn ∧ (chargeStart k ctx wait s).cex = s.cex ∧ (chargeStart k ctx wait s).xlt = s.xlt ∧ (chargeStart k ctx wait s).ods = s.ods ∧ (chargeStart k ctx wait s).vault = s.vault ∧ (chargeStart k ctx wait s).kst = s.kst ∧ (chargeStart k ctx wait s).engKeys = s.engKeys ∧ (chargeStart k ctx wait s).kwe = s.kwe ∧ (chargeStart k ctx wait s).pke = s.pke ∧ (chargeStart k ctx wait s).ent = s.ent ∧ (chargeStart k ctx wait s).atu = s.atu ∧ (chargeStart k ctx wait s).lcc = s.lcc ∧ (chargeStart k ctx wait s).mem = s.mem ∧ (chargeStart k ctx wait s).link = s.link ∧ (chargeStart k ctx wait s).sheaf = s.sheaf ∧ (chargeStart k ctx wait s).dom = s.dom ∧ (chargeStart k ctx wait s).pins = s.pins ∧ (chargeStart k ctx wait s).boot = s.boot ∧ (chargeStart k ctx wait s).tdi = s.tdi ∧ (chargeStart k ctx wait s).ac = s.ac ∧ (chargeStart k ctx wait s).vt = s.vt ∧ (chargeStart k ctx wait s).free = s.free ∧ (chargeStart k ctx wait s).out = s.out ∧ (chargeStart k ctx wait s).pending = s.pending :=
  have k : Off (fun p => p == .srg) s (chargeStart k ctx wait s) := chargeStart_keeps (Off.keeps _ _) rfl .refl
  ⟨k.clk rfl, k.rcv rfl, k.icu rfl, k.obs rfl, k.sen rfl, k.tamperIn rfl, k.cex rfl, k.xlt rfl, k.ods rfl, k.vault rfl, k.kst rfl, k.engKeys rfl, k.kwe rfl, k.pke rfl, k.ent rfl, k.atu rfl, k.lcc rfl, k.mem rfl, k.link rfl, k.sheaf rfl, k.dom rfl, k.pins rfl, k.boot rfl, k.tdi rfl, k.ac rfl, k.vt rfl, k.free rfl, k.out rfl, k.pending rfl⟩

@[simp] theorem startCmd_same {k : CmdKey} {ctx : Nat} {s : State} :
    (startCmd k ctx s).clk = s.clk ∧ (startCmd k ctx s).rcv = s.rcv ∧ (startCmd k ctx s).icu = s.icu ∧ (startCmd k ctx s).obs = s.obs ∧ (startCmd k ctx s).sen = s.sen ∧ (startCmd k ctx s).tamperIn = s.tamperIn ∧ (startCmd k ctx s).xlt = s.xlt ∧ (startCmd k ctx s).ods = s.ods ∧ (startCmd k ctx s).vault = s.vault ∧ (startCmd k ctx s).kst = s.kst ∧ (startCmd k ctx s).engKeys = s.engKeys ∧ (startCmd k ctx s).kwe = s.kwe ∧ (startCmd k ctx s).pke = s.pke ∧ (startCmd k ctx s).ent = s.ent ∧ (startCmd k ctx s).atu = s.atu ∧ (startCmd k ctx s).lcc = s.lcc ∧ (startCmd k ctx s).mem = s.mem ∧ (startCmd k ctx s).link = s.link ∧ (startCmd k ctx s).sheaf = s.sheaf ∧ (startCmd k ctx s).dom = s.dom ∧ (startCmd k ctx s).pins = s.pins ∧ (startCmd k ctx s).boot = s.boot ∧ (startCmd k ctx s).tdi = s.tdi ∧ (startCmd k ctx s).ac = s.ac ∧ (startCmd k ctx s).vt = s.vt ∧ (startCmd k ctx s).free = s.free ∧ (startCmd k ctx s).out = s.out ∧ (startCmd k ctx s).pending = s.pending :=
  have k : Off (fun p => p == .cex || p == .srg) s (startCmd k ctx s) := startCmd_keeps (Off.keeps _ _) rfl rfl .refl
  ⟨k.clk rfl, k.rcv rfl, k.icu rfl, k.obs rfl, k.sen rfl, k.tamperIn rfl, k.xlt rfl, k.ods rfl, k.vault rfl, k.kst rfl, k.engKeys rfl, k.kwe rfl, k.pke rfl, k.ent rfl, k.atu rfl, k.lcc rfl, k.mem rfl, k.link rfl, k.sheaf rfl, k.dom rfl, k.pins rfl, k.boot rfl, k.tdi rfl, k.ac rfl, k.vt rfl, k.free rfl, k.out rfl, k.pending rfl⟩

@[simp] theorem icuAssert_same {pair : Bool} {n : Nat} {s : State} :
    (icuAssert pair n s).clk = s.clk ∧ (icuAssert pair n s).sen = s.sen ∧ (icuAssert pair n s).tamperIn = s.tamperIn ∧ (icuAssert pair n s).cex = s.cex ∧ (icuAssert pair n s).xlt = s.xlt ∧ (icuAssert pair n s).srg = s.srg ∧ (icuAssert pair n s).ods = s.ods ∧ (icuAssert pair n s).vault = s.vault ∧ (icuAssert pair n s).kst = s.kst ∧ (icuAssert pair n s).engKeys = s.engKeys ∧ (icuAssert pair n s).kwe = s.kwe ∧ (icuAssert pair n s).pke = s.pke ∧ (icuAssert pair n s).ent = s.ent ∧ (icuAssert pair n s).atu = s.atu ∧ (icuAssert pair n s).lcc = s.lcc ∧ (icuAssert pair n s).mem = s.mem ∧ (icuAssert pair n s).link = s.link ∧ (icuAssert pair n s).sheaf = s.sheaf ∧ (icuAssert pair n s).dom = s.dom ∧ (icuAssert pair n s).pins = s.pins ∧ (icuAssert pair n s).boot = s.boot ∧ (icuAssert pair n s).tdi = s.tdi ∧ (icuAssert pair n s).ac = s.ac ∧ (icuAssert pair n s).vt = s.vt ∧ (icuAssert pair n s).free = s.free ∧ (icuAssert pair n s).pending = s.pending :=
  have k : Off (fun p => p == .rcv || p == .icu || p == .obs || p == .out) s (icuAssert pair n s) := icuAssert_keeps (Off.keeps _ _) rfl rfl rfl rfl .refl
  ⟨k.clk rfl, k.sen rfl, k.tamperIn rfl, k.cex rfl, k.xlt rfl, k.srg rfl, k.ods rfl, k.vault rfl, k.kst rfl, k.engKeys rfl, k.kwe rfl, k.pke rfl, k.ent rfl, k.atu rfl, k.lcc rfl, k.mem rfl, k.link rfl, k.sheaf rfl, k.dom rfl, k.pins rfl, k.boot rfl, k.tdi rfl, k.ac rfl, k.vt rfl, k.free rfl, k.pending rfl⟩

@[simp] theorem pend_same {n : Nat} {s : State} :
    (pend n s).clk = s.clk ∧ (pend n s).sen = s.sen ∧ (pend n s).tamperIn = s.tamperIn ∧ (pend n s).cex = s.cex ∧ (pend n s).xlt = s.xlt ∧ (pend n s).srg = s.srg ∧ (pend n s).ods = s.ods ∧ (pend n s).vault = s.vault ∧ (pend n s).kst = s.kst ∧ (pend n s).engKeys = s.engKeys ∧ (pend n s).kwe = s.kwe ∧ (pend n s).pke = s.pke ∧ (pend n s).ent = s.ent ∧ (pend n s).atu = s.atu ∧ (pend n s).lcc = s.lcc ∧ (pend n s).mem = s.mem ∧ (pend n s).link = s.link ∧ (pend n s).sheaf = s.sheaf ∧ (pend n s).dom = s.dom ∧ (pend n s).pins = s.pins ∧ (pend n s).boot = s.boot ∧ (pend n s).tdi = s.tdi ∧ (pend n s).ac = s.ac ∧ (pend n s).vt = s.vt ∧ (pend n s).free = s.free ∧ (pend n s).pending = s.pending :=
  have k : Off (fun p => p == .rcv || p == .icu || p == .obs || p == .out) s (pend n s) := pend_keeps (Off.keeps _ _) rfl rfl rfl rfl .refl
  ⟨k.clk rfl, k.sen rfl, k.tamperIn rfl, k.cex rfl, k.xlt rfl, k.srg rfl, k.ods rfl, k.vault rfl, k.kst rfl, k.engKeys rfl, k.kwe rfl, k.pke rfl, k.ent rfl, k.atu rfl, k.lcc rfl, k.mem rfl, k.link rfl, k.sheaf rfl, k.dom rfl, k.pins rfl, k.boot rfl, k.tdi rfl, k.ac rfl, k.vt rfl, k.free rfl, k.pending rfl⟩

@[simp] theorem settle1_same {k : CmdKey} {s : State} :
    (settle1 k s).clk = s.clk ∧ (settle1 k s).sen = s.sen ∧ (settle1 k s).tamperIn = s.tamperIn ∧ (settle1 k s).xlt = s.xlt ∧ (settle1 k s).ods = s.ods ∧ (settle1 k s).vault = s.vault ∧ (settle1 k s).kst = s.kst ∧ (settle1 k s).engKeys = s.engKeys ∧ (settle1 k s).kwe = s.kwe ∧ (settle1 k s).pke = s.pke ∧ (settle1 k s).ent = s.ent ∧ (settle1 k s).atu = s.atu ∧ (settle1 k s).lcc = s.lcc ∧ (settle1 k s).mem = s.mem ∧ (settle1 k s).link = s.link ∧ (settle1 k s).sheaf = s.sheaf ∧ (settle1 k s).dom = s.dom ∧ (settle1 k s).pins = s.pins ∧ (settle1 k s).boot = s.boot ∧ (settle1 k s).tdi = s.tdi ∧ (settle1 k s).ac = s.ac ∧ (settle1 k s).vt = s.vt ∧ (settle1 k s).free = s.free ∧ (settle1 k s).pending = s.pending :=
  have k : Off (fun p => p == .rcv || p == .icu || p == .obs || p == .cex || p == .srg || p == .out) s (settle1 k s) := settle1_keeps (Off.keeps _ _) rfl rfl rfl rfl rfl rfl .refl
  ⟨k.clk rfl, k.sen rfl, k.tamperIn rfl, k.xlt rfl, k.ods rfl, k.vault rfl, k.kst rfl, k.engKeys rfl, k.kwe rfl, k.pke rfl, k.ent rfl, k.atu rfl, k.lcc rfl, k.mem rfl, k.link rfl, k.sheaf rfl, k.dom rfl, k.pins rfl, k.boot rfl, k.tdi rfl, k.ac rfl, k.vt rfl, k.free rfl, k.pending rfl⟩

@[simp] theorem settle_same {q : Nat} {s : State} :
    (settle q s).clk = s.clk ∧ (settle q s).sen = s.sen ∧ (settle q s).tamperIn = s.tamperIn ∧ (settle q s).xlt = s.xlt ∧ (settle q s).ods = s.ods ∧ (settle q s).vault = s.vault ∧ (settle q s).kst = s.kst ∧ (settle q s).engKeys = s.engKeys ∧ (settle q s).kwe = s.kwe ∧ (settle q s).pke = s.pke ∧ (settle q s).ent = s.ent ∧ (settle q s).atu = s.atu ∧ (settle q s).lcc = s.lcc ∧ (settle q s).mem = s.mem ∧ (settle q s).link = s.link ∧ (settle q s).sheaf = s.sheaf ∧ (settle q s).dom = s.dom ∧ (settle q s).pins = s.pins ∧ (settle q s).boot = s.boot ∧ (settle q s).tdi = s.tdi ∧ (settle q s).ac = s.ac ∧ (settle q s).vt = s.vt ∧ (settle q s).free = s.free ∧ (settle q s).pending = s.pending :=
  have k : Off (fun p => p == .rcv || p == .icu || p == .obs || p == .cex || p == .srg || p == .out) s (settle q s) := settle_keeps (Off.keeps _ _) rfl rfl rfl rfl rfl rfl .refl
  ⟨k.clk rfl, k.sen rfl, k.tamperIn rfl, k.xlt rfl, k.ods rfl, k.vault rfl, k.kst rfl, k.engKeys rfl, k.kwe rfl, k.pke rfl, k.ent rfl, k.atu rfl, k.lcc rfl, k.mem rfl, k.link rfl, k.sheaf rfl, k.dom rfl, k.pins rfl, k.boot rfl, k.tdi rfl, k.ac rfl, k.vt rfl, k.free rfl, k.pending rfl⟩

@[simp] theorem msix_same {v : Nat} {s : State} :
    (msix v s).clk = s.clk ∧ (msix v s).rcv = s.rcv ∧ (msix v s).icu = s.icu ∧ (msix v s).obs = s.obs ∧ (msix v s).sen = s.sen ∧ (msix v s).tamperIn = s.tamperIn ∧ (msix v s).xlt = s.xlt ∧ (msix v s).srg = s.srg ∧ (msix v s).ods = s.ods ∧ (msix v s).vault = s.vault ∧ (msix v s).kst = s.kst ∧ (msix v s).engKeys = s.engKeys ∧ (msix v s).kwe = s.kwe ∧ (msix v s).pke = s.pke ∧ (msix v s).ent = s.ent ∧ (msix v s).atu = s.atu ∧ (msix v s).lcc = s.lcc ∧ (msix v s).mem = s.mem ∧ (msix v s).link = s.link ∧ (msix v s).sheaf = s.sheaf ∧ (msix v s).dom = s.dom ∧ (msix v s).pins = s.pins ∧ (msix v s).boot = s.boot ∧ (msix v s).tdi = s.tdi ∧ (msix v s).ac = s.ac ∧ (msix v s).vt = s.vt ∧ (msix v s).free = s.free ∧ (msix v s).pending = s.pending :=
  have k : Off (fun p => p == .cex || p == .out) s (msix v s) := msix_keeps (Off.keeps _ _) rfl rfl .refl
  ⟨k.clk rfl, k.rcv rfl, k.icu rfl, k.obs rfl, k.sen rfl, k.tamperIn rfl, k.xlt rfl, k.srg rfl, k.ods rfl, k.vault rfl, k.kst rfl, k.engKeys rfl, k.kwe rfl, k.pke rfl, k.ent rfl, k.atu rfl, k.lcc rfl, k.mem rfl, k.link rfl, k.sheaf rfl, k.dom rfl, k.pins rfl, k.boot rfl, k.tdi rfl, k.ac rfl, k.vt rfl, k.free rfl, k.pending rfl⟩

@[simp] theorem xltFault_same {k : CmdKey} {ctx : Nat} {x : XFault} {s : State} :
    (xltFault k ctx x s).clk = s.clk ∧ (xltFault k ctx x s).icu = s.icu ∧ (xltFault k ctx x s).sen = s.sen ∧ (xltFault k ctx x s).tamperIn = s.tamperIn ∧ (xltFault k ctx x s).srg = s.srg ∧ (xltFault k ctx x s).ods = s.ods ∧ (xltFault k ctx x s).vault = s.vault ∧ (xltFault k ctx x s).kst = s.kst ∧ (xltFault k ctx x s).engKeys = s.engKeys ∧ (xltFault k ctx x s).kwe = s.kwe ∧ (xltFault k ctx x s).pke = s.pke ∧ (xltFault k ctx x s).ent = s.ent ∧ (xltFault k ctx x s).atu = s.atu ∧ (xltFault k ctx x s).lcc = s.lcc ∧ (xltFault k ctx x s).mem = s.mem ∧ (xltFault k ctx x s).link = s.link ∧ (xltFault k ctx x s).sheaf = s.sheaf ∧ (xltFault k ctx x s).dom = s.dom ∧ (xltFault k ctx x s).pins = s.pins ∧ (xltFault k ctx x s).boot = s.boot ∧ (xltFault k ctx x s).tdi = s.tdi ∧ (xltFault k ctx x s).ac = s.ac ∧ (xltFault k ctx x s).vt = s.vt ∧ (xltFault k ctx x s).free = s.free ∧ (xltFault k ctx x s).out = s.out ∧ (xltFault k ctx x s).pending = s.pending :=
  have k : Off (fun p => p == .rcv || p == .obs || p == .cex || p == .xlt) s (xltFault k ctx x s) := xltFault_keeps (Off.keeps _ _) rfl rfl rfl rfl .refl
  ⟨k.clk rfl, k.icu rfl, k.sen rfl, k.tamperIn rfl, k.srg rfl, k.ods rfl, k.vault rfl, k.kst rfl, k.engKeys rfl, k.kwe rfl, k.pke rfl, k.ent rfl, k.atu rfl, k.lcc rfl, k.mem rfl, k.link rfl, k.sheaf rfl, k.dom rfl, k.pins rfl, k.boot rfl, k.tdi rfl, k.ac rfl, k.vt rfl, k.free rfl, k.out rfl, k.pending rfl⟩

@[simp] theorem engineRung_same {unit slice : Nat} {s : State} :
    (engineRung unit slice s).clk = s.clk ∧ (engineRung unit slice s).sen = s.sen ∧ (engineRung unit slice s).tamperIn = s.tamperIn ∧ (engineRung unit slice s).cex = s.cex ∧ (engineRung unit slice s).xlt = s.xlt ∧ (engineRung unit slice s).srg = s.srg ∧ (engineRung unit slice s).ods = s.ods ∧ (engineRung unit slice s).vault = s.vault ∧ (engineRung unit slice s).kst = s.kst ∧ (engineRung unit slice s).engKeys = s.engKeys ∧ (engineRung unit slice s).kwe = s.kwe ∧ (engineRung unit slice s).pke = s.pke ∧ (engineRung unit slice s).ent = s.ent ∧ (engineRung unit slice s).atu = s.atu ∧ (engineRung unit slice s).lcc = s.lcc ∧ (engineRung unit slice s).mem = s.mem ∧ (engineRung unit slice s).link = s.link ∧ (engineRung unit slice s).sheaf = s.sheaf ∧ (engineRung unit slice s).dom = s.dom ∧ (engineRung unit slice s).pins = s.pins ∧ (engineRung unit slice s).boot = s.boot ∧ (engineRung unit slice s).tdi = s.tdi ∧ (engineRung unit slice s).ac = s.ac ∧ (engineRung unit slice s).vt = s.vt ∧ (engineRung unit slice s).free = s.free ∧ (engineRung unit slice s).pending = s.pending :=
  have k : Off (fun p => p == .rcv || p == .icu || p == .obs || p == .out) s (engineRung unit slice s) := engineRung_keeps (Off.keeps _ _) rfl rfl rfl rfl .refl
  ⟨k.clk rfl, k.sen rfl, k.tamperIn rfl, k.cex rfl, k.xlt rfl, k.srg rfl, k.ods rfl, k.vault rfl, k.kst rfl, k.engKeys rfl, k.kwe rfl, k.pke rfl, k.ent rfl, k.atu rfl, k.lcc rfl, k.mem rfl, k.link rfl, k.sheaf rfl, k.dom rfl, k.pins rfl, k.boot rfl, k.tdi rfl, k.ac rfl, k.vt rfl, k.free rfl, k.pending rfl⟩

@[simp] theorem raise_same {rings : List Nat} {kind code detail : Nat} {s : State} :
    (raise rings kind code detail s).clk = s.clk ∧ (raise rings kind code detail s).rcv = s.rcv ∧ (raise rings kind code detail s).icu = s.icu ∧ (raise rings kind code detail s).obs = s.obs ∧ (raise rings kind code detail s).sen = s.sen ∧ (raise rings kind code detail s).tamperIn = s.tamperIn ∧ (raise rings kind code detail s).xlt = s.xlt ∧ (raise rings kind code detail s).srg = s.srg ∧ (raise rings kind code detail s).ods = s.ods ∧ (raise rings kind code detail s).vault = s.vault ∧ (raise rings kind code detail s).kst = s.kst ∧ (raise rings kind code detail s).engKeys = s.engKeys ∧ (raise rings kind code detail s).kwe = s.kwe ∧ (raise rings kind code detail s).pke = s.pke ∧ (raise rings kind code detail s).ent = s.ent ∧ (raise rings kind code detail s).atu = s.atu ∧ (raise rings kind code detail s).lcc = s.lcc ∧ (raise rings kind code detail s).mem = s.mem ∧ (raise rings kind code detail s).link = s.link ∧ (raise rings kind code detail s).sheaf = s.sheaf ∧ (raise rings kind code detail s).dom = s.dom ∧ (raise rings kind code detail s).pins = s.pins ∧ (raise rings kind code detail s).boot = s.boot ∧ (raise rings kind code detail s).tdi = s.tdi ∧ (raise rings kind code detail s).ac = s.ac ∧ (raise rings kind code detail s).vt = s.vt ∧ (raise rings kind code detail s).free = s.free ∧ (raise rings kind code detail s).out = s.out ∧ (raise rings kind code detail s).pending = s.pending :=
  have k : Off (fun p => p == .cex) s (raise rings kind code detail s) := raise_keeps (Off.keeps _ _) rfl .refl
  ⟨k.clk rfl, k.rcv rfl, k.icu rfl, k.obs rfl, k.sen rfl, k.tamperIn rfl, k.xlt rfl, k.srg rfl, k.ods rfl, k.vault rfl, k.kst rfl, k.engKeys rfl, k.kwe rfl, k.pke rfl, k.ent rfl, k.atu rfl, k.lcc rfl, k.mem rfl, k.link rfl, k.sheaf rfl, k.dom rfl, k.pins rfl, k.boot rfl, k.tdi rfl, k.ac rfl, k.vt rfl, k.free rfl, k.out rfl, k.pending rfl⟩

@[simp] theorem icuFall_same {n : Nat} {s : State} :
    (icuFall n s).clk = s.clk ∧ (icuFall n s).rcv = s.rcv ∧ (icuFall n s).obs = s.obs ∧ (icuFall n s).sen = s.sen ∧ (icuFall n s).tamperIn = s.tamperIn ∧ (icuFall n s).cex = s.cex ∧ (icuFall n s).xlt = s.xlt ∧ (icuFall n s).srg = s.srg ∧ (icuFall n s).ods = s.ods ∧ (icuFall n s).vault = s.vault ∧ (icuFall n s).kst = s.kst ∧ (icuFall n s).engKeys = s.engKeys ∧ (icuFall n s).kwe = s.kwe ∧ (icuFall n s).pke = s.pke ∧ (icuFall n s).ent = s.ent ∧ (icuFall n s).atu = s.atu ∧ (icuFall n s).lcc = s.lcc ∧ (icuFall n s).mem = s.mem ∧ (icuFall n s).link = s.link ∧ (icuFall n s).sheaf = s.sheaf ∧ (icuFall n s).dom = s.dom ∧ (icuFall n s).pins = s.pins ∧ (icuFall n s).boot = s.boot ∧ (icuFall n s).tdi = s.tdi ∧ (icuFall n s).ac = s.ac ∧ (icuFall n s).vt = s.vt ∧ (icuFall n s).free = s.free ∧ (icuFall n s).out = s.out ∧ (icuFall n s).pending = s.pending :=
  have k : Off (fun p => p == .icu) s (icuFall n s) := icuFall_keeps (Off.keeps _ _) rfl .refl
  ⟨k.clk rfl, k.rcv rfl, k.obs rfl, k.sen rfl, k.tamperIn rfl, k.cex rfl, k.xlt rfl, k.srg rfl, k.ods rfl, k.vault rfl, k.kst rfl, k.engKeys rfl, k.kwe rfl, k.pke rfl, k.ent rfl, k.atu rfl, k.lcc rfl, k.mem rfl, k.link rfl, k.sheaf rfl, k.dom rfl, k.pins rfl, k.boot rfl, k.tdi rfl, k.ac rfl, k.vt rfl, k.free rfl, k.out rfl, k.pending rfl⟩

@[simp] theorem State.drew_same {s : State} :
    (State.drew s).clk = s.clk ∧ (State.drew s).rcv = s.rcv ∧ (State.drew s).icu = s.icu ∧ (State.drew s).obs = s.obs ∧ (State.drew s).sen = s.sen ∧ (State.drew s).tamperIn = s.tamperIn ∧ (State.drew s).cex = s.cex ∧ (State.drew s).xlt = s.xlt ∧ (State.drew s).srg = s.srg ∧ (State.drew s).ods = s.ods ∧ (State.drew s).vault = s.vault ∧ (State.drew s).kst = s.kst ∧ (State.drew s).engKeys = s.engKeys ∧ (State.drew s).kwe = s.kwe ∧ (State.drew s).pke = s.pke ∧ (State.drew s).ent = s.ent ∧ (State.drew s).atu = s.atu ∧ (State.drew s).lcc = s.lcc ∧ (State.drew s).mem = s.mem ∧ (State.drew s).link = s.link ∧ (State.drew s).sheaf = s.sheaf ∧ (State.drew s).dom = s.dom ∧ (State.drew s).pins = s.pins ∧ (State.drew s).boot = s.boot ∧ (State.drew s).tdi = s.tdi ∧ (State.drew s).ac = s.ac ∧ (State.drew s).vt = s.vt ∧ (State.drew s).out = s.out ∧ (State.drew s).pending = s.pending :=
  have k : Off (fun p => p == .free) s (State.drew s) := State.drew_keeps (Off.keeps _ _) rfl .refl
  ⟨k.clk rfl, k.rcv rfl, k.icu rfl, k.obs rfl, k.sen rfl, k.tamperIn rfl, k.cex rfl, k.xlt rfl, k.srg rfl, k.ods rfl, k.vault rfl, k.kst rfl, k.engKeys rfl, k.kwe rfl, k.pke rfl, k.ent rfl, k.atu rfl, k.lcc rfl, k.mem rfl, k.link rfl, k.sheaf rfl, k.dom rfl, k.pins rfl, k.boot rfl, k.tdi rfl, k.ac rfl, k.vt rfl, k.out rfl, k.pending rfl⟩

end Sys2Proof.Machine
end

