-- ==== Sys2Proof/Laws/Commands.lean ====
section
/-!
SUPPORT. What starting and finishing a command does to its entry in flight: one spec lemma for each shared operation.
-/

set_option Elab.async false
namespace Sys2Proof.Machine

theorem find?_mapIf {α : Type} (p : α → Bool) (f : α → α) (hp : ∀ x, p x = true → p (f x) = true) (l : List α) :
    (mapIf p f l).find? p = (l.find? p).map f := by
  induction l with
  | nil => rfl
  | cons x l ih =>
    unfold mapIf at ih ⊢
    rw [List.map_cons, List.find?_cons, List.find?_cons]
    cases hx : p x with
    | true => simp [hp x hx]
    | false => simp [hx, ih]

@[simp] theorem updQ_q_self (n : Nat) (f : Queue → Queue) (s : State) : (updQ n f s).cex.queues.get n = f (s.cex.queues.get n) := by
  simp [updQ]

@[simp] theorem updQ_q {k : CmdKey} (f : Queue → Queue) (s : State) : (updQ k.queue.toNat f s).q k = f (s.q k) := updQ_q_self _ _ _

theorem updQ_get (n m : Nat) (f : Queue → Queue) (s : State) :
    (updQ n f s).cex.queues.get m = if m = n then f (s.cex.queues.get n) else s.cex.queues.get m := by
  simp [updQ, Tbl.get_upd]

theorem updQ_flights {k : CmdKey} {f : Queue → Queue} {s : State} (hf : (f (s.q k)).flights = (s.q k).flights) :
    ((updQ k.queue.toNat f s).q k).flights = (s.q k).flights := by rw [updQ_q, hf]

/-- Everything of the front end but the queues is as it was. -/
@[simp] theorem updQ_cex (n : Nat) (f : Queue → Queue) (s : State) : (updQ n f s).cex = { s.cex with queues := s.cex.queues.upd n f } := rfl

theorem updFlight_flight {k : CmdKey} {f : Flight → Flight} (hf : ∀ x, (f x).key = x.key) (s : State) : (updFlight k f s).flight k = (s.flight k).map f := by
  unfold State.flight updFlight
  rw [updQ_q]
  exact find?_mapIf _ f (fun x h => by rw [hf]; exact h) _

/-- The queue of a command, but for its entries in flight. -/
theorem updFlight_q {k : CmdKey} {f : Flight → Flight} (s : State) :
    (updFlight k f s).q k = { s.q k with flights := mapIf (fun x => x.key == k) f (s.q k).flights } := updQ_q _ _

/-- A running command that its engine finishes has ended so (R336, R487). -/
theorem finish_ended {k : CmdKey} {s : State} (st d : Nat) (h : Runs k s) : Ended k st d (finish k st d s) := by
  obtain ⟨f, hf, hp, ho⟩ := h
  unfold finish
  refine ⟨{ f with phase := .done, status := st, detail := BitVec.ofNat 64 d }, ?_, rfl, rfl, rfl⟩
  · rw [updFlight_flight, hf]
    · simp [hp, ho]
    · intro x; split <;> rfl

@[simp] theorem finish_scalars {k : CmdKey} {st d : Nat} {s : State} : ((finish k st d s).q k).scalars = (s.q k).scalars := by
  unfold finish; rw [updFlight_q]

/-- A command's status depends on the entries in flight alone. -/
theorem Runs.of_queues {k : CmdKey} {s t : State} (h : Runs k s) (e : (t.q k).flights = (s.q k).flights) : Runs k t := by
  obtain ⟨f, hf, r⟩ := h
  exact ⟨f, by unfold State.flight at *; rw [e]; exact hf, r⟩

theorem Runs.of_cex {k : CmdKey} {s t : State} (h : Runs k s) (e : t.cex = s.cex) : Runs k t :=
  h.of_queues (by unfold State.q; rw [e])

theorem Ended.of_queues {k : CmdKey} {st d : Nat} {s t : State} (h : Ended k st d s) (e : (t.q k).flights = (s.q k).flights) : Ended k st d t := by
  obtain ⟨f, hf, r⟩ := h
  exact ⟨f, by unfold State.flight at *; rw [e]; exact hf, r⟩

theorem chargeStart_state {k : CmdKey} {c w : Nat} {s : State} (n : Nat) : ((chargeStart k c w s).slice n).state = (s.slice n).state := by
  unfold chargeStart
  split
  · unfold updUsage updSlice State.slice
    rw [Tbl.get_upd]
    split
    · rename_i h; rw [h]
    · rfl
  · rfl

theorem targetRefuses_congr {s t : State} {raw : BitVec 512} (h : ∀ n, (t.slice n).state = (s.slice n).state) : targetRefuses t raw = targetRefuses s raw := by
  unfold targetRefuses; rw [h]

theorem startCmd_slice_state {k : CmdKey} {c : Nat} {s : State} (n : Nat) : ((startCmd k c s).slice n).state = (s.slice n).state := by
  unfold startCmd
  rw [chargeStart_state]; unfold State.slice; rw [updFlight_same.2.2.2.2.2.2.2.1]

/-- Starting a command leaves everything of the front end but the queues. -/
theorem startCmd_cex {k : CmdKey} {c : Nat} {s : State} :
    (startCmd k c s).cex = { s.cex with queues := s.cex.queues.upd k.queue.toNat (fun q =>
      { q with flights := mapIf (fun x => x.key == k) (fun f => { f with phase := .running, startedAt := s.now }) q.flights }) } := by
  unfold startCmd
  rw [chargeStart_same.2.2.2.2.2.2.1]
  rfl

theorem started_runs {h : CmdHdr} {op : Nat} {ops : List (Nat × Nat × Nat)} {s : State} (H : Starts h op ops s) :
    Runs h.key (s.started h) := by
  obtain ⟨f, hf, hp, _, ho⟩ := H.flight
  unfold State.started startCmd
  refine Runs.of_cex (s := updFlight h.key (fun f => { f with phase := .running, startedAt := s.now }) s) ?_ chargeStart_same.2.2.2.2.2.2.1
  exact ⟨{ f with phase := .running, startedAt := s.now }, by rw [updFlight_flight (by intro x; rfl), hf]; rfl, rfl, ho⟩

/-- A command that may start runs its effect. -/
theorem cexRun_starts {h : CmdHdr} {op : Nat} {ops : List (Nat × Nat × Nat)} {s : State} (H : Starts h op ops s) (body : State → State) :
    cexRun h op ops s body = body (s.started h) := by
  obtain ⟨f, hf, hp, hr, _⟩ := H.flight
  have hc : cmdReady h (encodeCmd h op ops) s = true := by
    unfold cmdReady
    rw [hf]
    simp [hp, hr, H.owner]
  unfold cexRun
  rw [if_pos hc]
  show (if targetRefuses _ _ = true then _ else _) = _
  rw [targetRefuses_congr startCmd_slice_state, H.target]
  rfl

@[simp] theorem started_same {h : CmdHdr} {s : State} :
    (s.started h).clk = s.clk ∧ (s.started h).rcv = s.rcv ∧ (s.started h).icu = s.icu ∧ (s.started h).obs = s.obs ∧ (s.started h).sen = s.sen ∧ (s.started h).tamperIn = s.tamperIn ∧ (s.started h).xlt = s.xlt ∧ (s.started h).ods = s.ods ∧ (s.started h).vault = s.vault ∧ (s.started h).kst = s.kst ∧ (s.started h).engKeys = s.engKeys ∧ (s.started h).kwe = s.kwe ∧ (s.started h).pke = s.pke ∧ (s.started h).ent = s.ent ∧ (s.started h).atu = s.atu ∧ (s.started h).lcc = s.lcc ∧ (s.started h).mem = s.mem ∧ (s.started h).link = s.link ∧ (s.started h).sheaf = s.sheaf ∧ (s.started h).dom = s.dom ∧ (s.started h).pins = s.pins ∧ (s.started h).boot = s.boot ∧ (s.started h).tdi = s.tdi ∧ (s.started h).ac = s.ac ∧ (s.started h).vt = s.vt ∧ (s.started h).free = s.free ∧ (s.started h).out = s.out ∧ (s.started h).pending = s.pending := startCmd_same

/-- The command's queue after its start, but for its entries in flight. -/
theorem started_q {h : CmdHdr} {s : State} : (s.started h).q h.key =
    { s.q h.key with flights := mapIf (fun x => x.key == h.key) (fun f => { f with phase := .running, startedAt := s.now }) (s.q h.key).flights } := by
  unfold State.q State.started
  rw [startCmd_cex]
  simp

@[simp] theorem started_scalars {h : CmdHdr} {s : State} : ((s.started h).q h.key).scalars = (s.q h.key).scalars := by rw [started_q]

@[simp] theorem started_frames {h : CmdHdr} {s : State} : ((s.started h).q h.key).frames = (s.q h.key).frames := by rw [started_q]

/-- Everything of the front end but the queues. -/
theorem started_cex {h : CmdHdr} {s : State} : ∃ q, (s.started h).cex = { s.cex with queues := q } := ⟨_, startCmd_cex⟩

@[simp] theorem started_cexes {h : CmdHdr} {s : State} :
    (s.started h).cex.compatDefault = s.cex.compatDefault ∧ (s.started h).cex.compatTimeoutMs = s.cex.compatTimeoutMs ∧
    (s.started h).cex.bindings = s.cex.bindings ∧ (s.started h).cex.rings = s.cex.rings ∧ (s.started h).cex.graphs = s.cex.graphs ∧
    (s.started h).cex.syncs = s.cex.syncs ∧ (s.started h).cex.groups = s.cex.groups ∧ (s.started h).cex.waits = s.cex.waits ∧
    (s.started h).cex.holds = s.cex.holds ∧ (s.started h).cex.rerequests = s.cex.rerequests ∧ (s.started h).cex.msixTable = s.cex.msixTable ∧
    (s.started h).cex.msixPba = s.cex.msixPba ∧ (s.started h).cex.kills = s.cex.kills := by
  obtain ⟨q, e⟩ := started_cex (h := h) (s := s)
  simp [e]

/-- The checks hold when each of them does. -/
theorem firstFail_cons {b : Bool} {r : Nat × Nat} {cs : List (Bool × Nat × Nat)} : firstFail ((b, r) :: cs) = none ↔ b = true ∧ firstFail cs = none := by
  cases b <;> simp [firstFail]

theorem firstFail_nil : firstFail [] = none ↔ True := by simp [firstFail]

theorem firstFail_append {as bs : List (Bool × Nat × Nat)} : firstFail (as ++ bs) = none ↔ firstFail as = none ∧ firstFail bs = none := by
  induction as with
  | nil => simp [firstFail]
  | cons a as ih =>
    obtain ⟨b, r⟩ := a
    rw [List.cons_append, firstFail_cons, firstFail_cons, ih, and_assoc]

/-- Checks that hold let the effect run. -/
theorem checked_ok {h : CmdHdr} {cs : List (Bool × Nat × Nat)} {s : State} {f : State → State} (hc : firstFail cs = none) : checked h cs s f = f s := by
  unfold checked; rw [hc]

/-- A change of another command's entry leaves a running command running. -/
theorem Runs.updFlight_ne {k j : CmdKey} {f : Flight → Flight} {s : State} (h : Runs k s) (hj : k ≠ j) (hf : ∀ x, (f x).key = x.key) : Runs k (updFlight j f s) := by
  obtain ⟨x, hx, r⟩ := h
  refine ⟨x, ?_, r⟩
  unfold State.flight State.q updFlight at *
  rw [updQ_get]
  split
  · rename_i e
    rw [e] at hx
    show (mapIf _ f _).find? _ = _
    unfold mapIf
    generalize (s.cex.queues.get j.queue.toNat).flights = l at hx
    induction l with
    | nil => cases hx
    | cons y l ih =>
      rw [List.map_cons, List.find?_cons]
      rw [List.find?_cons] at hx
      by_cases hy : y.key = k
      · simp only [hy, beq_self_eq_true] at hx
        have hn : (if (y.key == j) = true then f y else y) = y := by simp [hy, hj]
        rw [hn]
        simp only [hy, beq_self_eq_true]
        exact hx
      · have hy' : (y.key == k) = false := by simp [hy]
        rw [hy'] at hx
        have hz : ((if (y.key == j) = true then f y else y).key == k) = false := by
          split <;> simp [hf, hy]
        rw [hz]
        exact ih hx
  · exact hx

theorem Runs.finish_ne {k j : CmdKey} {st d : Nat} {s : State} (h : Runs k s) (hj : k ≠ j) : Runs k (finish j st d s) :=
  h.updFlight_ne hj (by intro x; split <;> rfl)

/-- Finishing a command again, or another one, leaves it ended as it is. -/
theorem Ended.updFlight {k j : CmdKey} {st d : Nat} {f : Flight → Flight} {s : State} (h : Ended k st d s) (hf : ∀ x, (f x).key = x.key)
    (hd : ∀ x, x.phase = .done → f x = x) : Ended k st d (updFlight j f s) := by
  obtain ⟨x, hx, hp, r⟩ := h
  refine ⟨x, ?_, hp, r⟩
  unfold State.flight State.q Machine.updFlight at *
  rw [updQ_get]
  split
  · rename_i e
    rw [e] at hx
    show (mapIf _ f _).find? _ = _
    unfold mapIf
    generalize (s.cex.queues.get j.queue.toNat).flights = l at hx
    induction l with
    | nil => cases hx
    | cons y l ih =>
      rw [List.map_cons, List.find?_cons]
      rw [List.find?_cons] at hx
      by_cases hy : y.key = k
      · simp only [hy, beq_self_eq_true, Option.some.injEq] at hx
        have hfy : (if (y.key == j) = true then f y else y) = y := by
          split
          · exact hd y (by rw [hx]; exact hp)
          · rfl
        rw [hfy]
        rw [hx] at hy ⊢
        simp only [hy, beq_self_eq_true]
      · have hy' : (y.key == k) = false := by simp [hy]
        rw [hy'] at hx
        have hz : ((if (y.key == j) = true then f y else y).key == k) = false := by
          split <;> simp [hf, hy]
        rw [hz]
        exact ih hx
  · exact hx

theorem Ended.finish {k j : CmdKey} {st d st' d' : Nat} {s : State} (h : Ended k st d s) : Ended k st d (finish j st' d' s) :=
  h.updFlight (by intro x; split <;> rfl) (by intro x hx; simp [hx])

theorem Ended.foldl_finish {α : Type} {key : α → CmdKey} {k : CmdKey} {st d st' d' : Nat} (l : List α) {s : State} (h : Ended k st d s) :
    Ended k st d (l.foldl (fun s x => Machine.finish (key x) st' d' s) s) := by
  induction l generalizing s with
  | nil => exact h
  | cons y l ih => exact ih h.finish

/-- Finishing a list of commands with one status leaves a command that is not in it running. -/
theorem Runs.foldl_finish {α : Type} {key : α → CmdKey} {k : CmdKey} {st d : Nat} (l : List α) {s : State} (h : Runs k s) (hk : ∀ x ∈ l, key x ≠ k) :
    Runs k (l.foldl (fun s x => finish (key x) st d s) s) := by
  induction l generalizing s with
  | nil => exact h
  | cons y l ih => exact ih (h.finish_ne (fun e => hk y (List.mem_cons_self ..) e.symm)) (fun x hx => hk x (List.mem_cons_of_mem _ hx))

/-- Finishing a list of commands with one status ends each of them that runs. -/
theorem foldl_finish_ended {α : Type} {key : α → CmdKey} {k : CmdKey} {st d : Nat} (l : List α) {s : State} (h : Runs k s) (hk : ∃ x ∈ l, key x = k) :
    Ended k st d (l.foldl (fun s x => finish (key x) st d s) s) := by
  induction l generalizing s with
  | nil => obtain ⟨x, hx, _⟩ := hk; cases hx
  | cons y l ih =>
    rw [List.foldl_cons]
    by_cases hy : key y = k
    · rw [hy]
      exact Ended.foldl_finish l (finish_ended st d h)
    · refine ih (h.finish_ne (fun e => hy e.symm)) ?_
      obtain ⟨x, hx, e⟩ := hk
      rcases List.mem_cons.1 hx with rfl | hx
      · exact absurd e hy
      · exact ⟨x, hx, e⟩

end Sys2Proof.Machine
end

