-- ==== Sys2Proof/Laws/Exec.lean ====
section
/-!
SUPPORT. What `exec` does with each command: the equation of each arm of the dispatch.
-/

set_option Elab.async false
namespace Sys2Proof.Machine

variable {s : State}

theorem exec_nop {h : CmdHdr} : exec (.nop h) s = execNop h s := rfl
theorem exec_call {h : CmdHdr} {bva : BitVec 64} {count : BitVec 16} {index : BitVec 8} {limit : BitVec 32} : exec (.call h bva count index limit) s = execCall h bva count index limit s := rfl
theorem exec_callIterationStart {key : CmdKey} : exec (.callIterationStart key) s = execCallIterationStart key s := rfl
theorem exec_seal {h : CmdHdr} {bva : BitVec 64} {count : BitVec 16} {handle : BitVec 8} {x : Option XFault} {graph : List (BitVec 512)} : exec (.seal h bva count handle x graph) s = execSeal h bva count handle x graph s := rfl
theorem exec_load {h : CmdHdr} {bva : BitVec 64} {handle : BitVec 8} {x : Option XFault} {graph : List (BitVec 512)} : exec (.load h bva handle x graph) s = execLoad h bva handle x graph s := rfl
theorem exec_launch {h : CmdHdr} {handle : BitVec 8} : exec (.launch h handle) s = execLaunch h handle s := rfl
theorem exec_scalarSet {h : CmdHdr} {value : BitVec 64} {dst : BitVec 8} : exec (.scalarSet h value dst) s = execScalarSet h value dst s := rfl
theorem exec_scalarAdd {h : CmdHdr} {value : BitVec 64} {dst : BitVec 8} {src : BitVec 8} {opt : BitVec 8} : exec (.scalarAdd h value dst src opt) s = execScalarAdd h value dst src opt s := rfl
theorem exec_scalarLoad {h : CmdHdr} {bva : BitVec 64} {dst : BitVec 8} {x : Option XFault} {word : BitVec 64} : exec (.scalarLoad h bva dst x word) s = execScalarLoad h bva dst x word s := rfl
theorem exec_scalarStore {h : CmdHdr} {bva : BitVec 64} {src : BitVec 8} {x : Option XFault} : exec (.scalarStore h bva src x) s = execScalarStore h bva src x s := rfl
theorem exec_waitMem {h : CmdHdr} {bva : BitVec 64} {value : BitVec 64} {mask : BitVec 64} {timeout : BitVec 32} {cmp : BitVec 8} : exec (.waitMem h bva value mask timeout cmp) s = execWaitMem h bva value mask timeout cmp s := rfl
theorem exec_waitMemPoll {key : CmdKey} {x : Option XFault} {word : BitVec 64} : exec (.waitMemPoll key x word) s = execWaitMemPoll key x word s := rfl
theorem exec_waitSync {h : CmdHdr} {value : BitVec 64} {counter : BitVec 8} {timeout : BitVec 32} : exec (.waitSync h value counter timeout) s = execWaitSync h value counter timeout s := rfl
theorem exec_waitTimeout {key : CmdKey} : exec (.waitTimeout key) s = execWaitTimeout key s := rfl
theorem exec_fenceLocal {h : CmdHdr} {value : BitVec 64} {counter : BitVec 8} {opt : BitVec 8} : exec (.fenceLocal h value counter opt) s = execFenceLocal h value counter opt s := rfl
theorem exec_fenceDomain {h : CmdHdr} {group : BitVec 8} : exec (.fenceDomain h group) s = execFenceDomain h group s := rfl
theorem exec_keyFence {h : CmdHdr} {epoch : BitVec 32} {target : BitVec 32} {timeout : BitVec 32} : exec (.keyFence h epoch target timeout) s = execKeyFence h epoch target timeout s := rfl
theorem exec_egressFence {h : CmdHdr} : exec (.egressFence h) s = execEgressFence h s := rfl
theorem exec_stepOpen {h : CmdHdr} : exec (.stepOpen h) s = execStepOpen h s := rfl
theorem exec_stepClose {h : CmdHdr} : exec (.stepClose h) s = execStepClose h s := rfl
theorem exec_stepCloseWritesDrained {slc : BitVec 4} : exec (.stepCloseWritesDrained slc) s = execStepCloseWritesDrained slc s := rfl
theorem exec_groupDefine {h : CmdHdr} {bva : BitVec 64} {group : BitVec 8} {collector : BitVec 16} {x : Option XFault} {bitmap : BitVec 4096} : exec (.groupDefine h bva group collector x bitmap) s = execGroupDefine h bva group collector x bitmap s := rfl
theorem exec_regionDefine {h : CmdHdr} {region : BitVec 16} {ctrl : BitVec 16} {epoch : BitVec 32} {base : BitVec 40} {metaBase : BitVec 40} {mirrorBase : BitVec 40} {pages : BitVec 32} {keyData : BitVec 16} {keyTweak : BitVec 16} {keyTag : BitVec 16} {crownFirst : BitVec 16} : exec (.regionDefine h region ctrl epoch base metaBase mirrorBase pages keyData keyTweak keyTag crownFirst) s = execRegionDefine h region ctrl epoch base metaBase mirrorBase pages keyData keyTweak keyTag crownFirst s := rfl
theorem exec_regionZeroFillDone {region : BitVec 12} : exec (.regionZeroFillDone region) s = execRegionZeroFillDone region s := rfl
theorem exec_regionRetire {h : CmdHdr} {region : BitVec 16} : exec (.regionRetire h region) s = execRegionRetire h region s := rfl
theorem exec_regionDescriptorFreed {region : BitVec 12} : exec (.regionDescriptorFreed region) s = execRegionDescriptorFreed region s := rfl
theorem exec_regionGrant {h : CmdHdr} {region : BitVec 16} {grantee : BitVec 8} : exec (.regionGrant h region grantee) s = execRegionGrant h region grantee s := rfl
theorem exec_regionRevoke {h : CmdHdr} {region : BitVec 16} {grantee : BitVec 8} : exec (.regionRevoke h region grantee) s = execRegionRevoke h region grantee s := rfl
theorem exec_fallowRead {h : CmdHdr} {bva : BitVec 64} {x : Option XFault} : exec (.fallowRead h bva x) s = execFallowRead h bva x s := rfl
theorem exec_pageRetire {h : CmdHdr} {entry : BitVec 8} {opt : BitVec 8} : exec (.pageRetire h entry opt) s = execPageRetire h entry opt s := rfl
theorem exec_saveBegin {h : CmdHdr} {region : BitVec 16} {first : BitVec 64} {count : BitVec 64} : exec (.saveBegin h region first count) s = execSaveBegin h region first count s := rfl
theorem exec_saveEnd {h : CmdHdr} {region : BitVec 16} : exec (.saveEnd h region) s = execSaveEnd h region s := rfl
theorem exec_saveDiscard {h : CmdHdr} {region : BitVec 16} : exec (.saveDiscard h region) s = execSaveDiscard h region s := rfl
theorem exec_plough {h : CmdHdr} {region : BitVec 16} {epoch : BitVec 32} {nextData : BitVec 16} {nextTweak : BitVec 16} {nextTag : BitVec 16} : exec (.plough h region epoch nextData nextTweak nextTag) s = execPlough h region epoch nextData nextTweak nextTag s := rfl
theorem exec_ploughLineMove {region : BitVec 12} {line : BitVec 33} {read : LineRead} : exec (.ploughLineMove region line read) s = execPloughLineMove region line read s := rfl
theorem exec_ploughComplete {region : BitVec 12} : exec (.ploughComplete region) s = execPloughComplete region s := rfl
theorem exec_ploughPause {region : BitVec 12} {cause : BitVec 4} : exec (.ploughPause region cause) s = execPloughPause region cause s := rfl
theorem exec_epochAged {region : BitVec 12} : exec (.epochAged region) s = execEpochAged region s := rfl
theorem exec_keyDerive {h : CmdHdr} {src : BitVec 16} {dst : BitVec 16} {label : BitVec 8} {opt : BitVec 8} {region : BitVec 16} {id : BitVec 32} : exec (.keyDerive h src dst label opt region id) s = execKeyDerive h src dst label opt region id s := rfl
theorem exec_keyGenerate {h : CmdHdr} {dst : BitVec 16} {usage : BitVec 8} {opt : BitVec 8} {type : BitVec 8} {wrapIdBva : BitVec 64} {x : Option XFault} {wrapId : BitVec 128} : exec (.keyGenerate h dst usage opt type wrapIdBva x wrapId) s = execKeyGenerate h dst usage opt type wrapIdBva x wrapId s := rfl
theorem exec_keyWrap {h : CmdHdr} {src : BitVec 16} {wrapSlot : BitVec 16} {method : BitVec 8} {out : BitVec 64} {rcptBva : BitVec 64} {sequence : BitVec 64} {x : Option XFault} {rcpt : Bytes} : exec (.keyWrap h src wrapSlot method out rcptBva sequence x rcpt) s = execKeyWrap h src wrapSlot method out rcptBva sequence x rcpt s := rfl
theorem exec_keyUnwrap {h : CmdHdr} {dst : BitVec 16} {wrapSlot : BitVec 16} {opt : BitVec 8} {blobBva : BitVec 64} {wrapIdBva : BitVec 64} {x : Option XFault} {blob : Bytes} {wrapId : BitVec 128} : exec (.keyUnwrap h dst wrapSlot opt blobBva wrapIdBva x blob wrapId) s = execKeyUnwrap h dst wrapSlot opt blobBva wrapIdBva x blob wrapId s := rfl
theorem exec_keyZeroize {h : CmdHdr} {slot : BitVec 16} : exec (.keyZeroize h slot) s = execKeyZeroize h slot s := rfl
theorem exec_cipherEncrypt {h : CmdHdr} {slot : BitVec 16} {len : BitVec 16} {aadLen : BitVec 16} {src : BitVec 64} {dst : BitVec 64} {ivBva : BitVec 64} {x : Option XFault} {data : Bytes} : exec (.cipherEncrypt h slot len aadLen src dst ivBva x data) s = execCipherEncrypt h slot len aadLen src dst ivBva x data s := rfl
theorem exec_cipherDecrypt {h : CmdHdr} {slot : BitVec 16} {len : BitVec 16} {aadLen : BitVec 16} {src : BitVec 64} {dst : BitVec 64} {ivBva : BitVec 64} {x : Option XFault} {data : Bytes} {iv : BitVec 96} : exec (.cipherDecrypt h slot len aadLen src dst ivBva x data iv) s = execCipherDecrypt h slot len aadLen src dst ivBva x data iv s := rfl
theorem exec_pkHash {h : CmdHdr} {src : BitVec 64} {len : BitVec 64} {dst : BitVec 64} {alg : BitVec 8} {outLen : BitVec 16} {x : Option XFault} {data : Bytes} : exec (.pkHash h src len dst alg outLen x data) s = execPkHash h src len dst alg outLen x data s := rfl
theorem exec_pkVerify {h : CmdHdr} {keyBva : BitVec 64} {msgBva : BitVec 64} {sigBva : BitVec 64} {msgLen : BitVec 32} {alg : BitVec 8} {ctxLen : BitVec 8} {x : Option XFault} {key : Bytes} {msg : Bytes} {sig : Bytes} : exec (.pkVerify h keyBva msgBva sigBva msgLen alg ctxLen x key msg sig) s = execPkVerify h keyBva msgBva sigBva msgLen alg ctxLen x key msg sig s := rfl
theorem exec_sheafBegin {h : CmdHdr} {id : BitVec 32} {slot : BitVec 16} {count : BitVec 8} {listBva : BitVec 64} {x : Option XFault} {list : List (BitVec 128)} : exec (.sheafBegin h id slot count listBva x list) s = execSheafBegin h id slot count listBva x list s := rfl
theorem exec_sheafEnd {h : CmdHdr} {id : BitVec 32} {out : BitVec 64} {x : Option XFault} : exec (.sheafEnd h id out x) s = execSheafEnd h id out x s := rfl
theorem exec_sheafCombine {h : CmdHdr} {id : BitVec 32} {slot : BitVec 16} {opt : BitVec 8} {inBva : BitVec 64} {count : BitVec 16} {out : BitVec 64} {x : Option XFault} {recs : List Bytes} : exec (.sheafCombine h id slot opt inBva count out x recs) s = execSheafCombine h id slot opt inBva count out x recs s := rfl
theorem exec_streamOpen {h : CmdHdr} {peer : BitVec 16} {mask : BitVec 16} {port : BitVec 8} {opt : BitVec 8} : exec (.streamOpen h peer mask port opt) s = execStreamOpen h peer mask port opt s := rfl
theorem exec_streamClose {h : CmdHdr} {peer : BitVec 16} {mask : BitVec 16} {opt : BitVec 8} : exec (.streamClose h peer mask opt) s = execStreamClose h peer mask opt s := rfl
theorem exec_streamRotate {h : CmdHdr} {bva : BitVec 64} {count : BitVec 16} {x : Option XFault} {list : List (BitVec 16)} : exec (.streamRotate h bva count x list) s = execStreamRotate h bva count x list s := rfl
theorem exec_domainJoin {h : CmdHdr} {id : BitVec 64} {attempt : BitVec 32} {member : BitVec 16} {masthead : BitVec 16} {count : BitVec 16} {listBva : BitVec 64} {x : Option XFault} {list : Bytes} : exec (.domainJoin h id attempt member masthead count listBva x list) s = execDomainJoin h id attempt member masthead count listBva x list s := rfl
theorem exec_domainForm {h : CmdHdr} {policyBva : BitVec 64} {fenceMs : BitVec 32} {rereqMs : BitVec 16} {x : Option XFault} {policy : Bytes} : exec (.domainForm h policyBva fenceMs rereqMs x policy) s = execDomainForm h policyBva fenceMs rereqMs x policy s := rfl
theorem exec_domainRelease {h : CmdHdr} {releaseBva : BitVec 64} {len : BitVec 32} {x : Option XFault} {release : Bytes} : exec (.domainRelease h releaseBva len x release) s = execDomainRelease h releaseBva len x release s := rfl
theorem exec_domainGo {h : CmdHdr} : exec (.domainGo h) s = execDomainGo h s := rfl
theorem exec_domainAbort {h : CmdHdr} {detail : BitVec 32} : exec (.domainAbort h detail) s = execDomainAbort h detail s := rfl
theorem exec_domainDissolve {h : CmdHdr} : exec (.domainDissolve h) s = execDomainDissolve h s := rfl
theorem exec_domainProve {h : CmdHdr} {outBva : BitVec 64} {outLen : BitVec 32} {x : Option XFault} : exec (.domainProve h outBva outLen x) s = execDomainProve h outBva outLen x s := rfl
theorem exec_sliceCreate {h : CmdHdr} {specBva : BitVec 64} {x : Option XFault} {record : Bytes} : exec (.sliceCreate h specBva x record) s = execSliceCreate h specBva x record s := rfl
theorem exec_sliceReset {h : CmdHdr} : exec (.sliceReset h) s = execSliceReset h s := rfl
theorem exec_sliceFreeze {h : CmdHdr} : exec (.sliceFreeze h) s = execSliceFreeze h s := rfl
theorem exec_sliceSave {h : CmdHdr} {out : BitVec 64} {outLen : BitVec 64} {rcptBva : BitVec 64} {x : Option XFault} {bundle : Bytes} : exec (.sliceSave h out outLen rcptBva x bundle) s = execSliceSave h out outLen rcptBva x bundle s := rfl
theorem exec_sliceRestore {h : CmdHdr} {blobBva : BitVec 64} {blobLen : BitVec 64} {x : Option XFault} {blob : Bytes} {placement : Bytes} : exec (.sliceRestore h blobBva blobLen x blob placement) s = execSliceRestore h blobBva blobLen x blob placement s := rfl
theorem exec_sliceCommit {h : CmdHdr} : exec (.sliceCommit h) s = execSliceCommit h s := rfl
theorem exec_sliceThaw {h : CmdHdr} : exec (.sliceThaw h) s = execSliceThaw h s := rfl
theorem exec_contextBind {h : CmdHdr} {context : BitVec 16} {pasid : BitVec 32} : exec (.contextBind h context pasid) s = execContextBind h context pasid s := rfl
theorem exec_contextUnbind {h : CmdHdr} {context : BitVec 16} : exec (.contextUnbind h context) s = execContextUnbind h context s := rfl
theorem exec_contextKill {h : CmdHdr} {context : BitVec 16} : exec (.contextKill h context) s = execContextKill h context s := rfl
theorem exec_usageReport {h : CmdHdr} {out : BitVec 64} {opt : BitVec 8} {x : Option XFault} : exec (.usageReport h out opt x) s = execUsageReport h out opt x s := rfl
theorem exec_copy {h : CmdHdr} {src : BitVec 64} {dst : BitVec 64} {len : BitVec 64} {x : Option XFault} {lines : List CopyLine} : exec (.copy h src dst len x lines) s = execCopy h src dst len x lines s := rfl
theorem exec_importBlob {h : CmdHdr} {blobBva : BitVec 64} {blobLen : BitVec 64} {listBva : BitVec 64} {wrapSlot : BitVec 16} {x : Option XFault} {list : Bytes} {blob : Bytes} : exec (.importBlob h blobBva blobLen listBva wrapSlot x list blob) s = execImportBlob h blobBva blobLen listBva wrapSlot x list blob s := rfl
theorem exec_exportBlob {h : CmdHdr} {out : BitVec 64} {outLen : BitVec 64} {listBva : BitVec 64} {wrapSlot : BitVec 16} {kind : BitVec 8} {log2 : BitVec 8} {method : BitVec 8} {x : Option XFault} {list : Bytes} {rcpt : Bytes} : exec (.exportBlob h out outLen listBva wrapSlot kind log2 method x list rcpt) s = execExportBlob h out outLen listBva wrapSlot kind log2 method x list rcpt s := rfl
theorem exec_xltInvalidate {h : CmdHdr} {bva : BitVec 64} {sizeLog2 : BitVec 8} {scope : BitVec 8} {pasid : BitVec 32} : exec (.xltInvalidate h bva sizeLog2 scope pasid) s = execXltInvalidate h bva sizeLog2 scope pasid s := rfl
theorem exec_doorbell {queue : BitVec 6} {value : BitVec 64} : exec (.doorbell queue value) s = execDoorbell queue value s := rfl
theorem exec_commandFetch {key : CmdKey} {x : Option XFault} {raw : BitVec 512} : exec (.commandFetch key x raw) s = execCommandFetch key x raw s := rfl
theorem exec_commandCompletion {key : CmdKey} : exec (.commandCompletion key) s = execCommandCompletion key s := rfl
theorem exec_queueEnable {who : Principal} {queue : BitVec 6} {on : Bool} : exec (.queueEnable who queue on) s = execQueueEnable who queue on s := rfl
theorem exec_queueResume {who : Principal} {queue : BitVec 6} : exec (.queueResume who queue) s = execQueueResume who queue s := rfl
theorem exec_queueSkip {who : Principal} {queue : BitVec 6} : exec (.queueSkip who queue) s = execQueueSkip who queue s := rfl
theorem exec_compatTimeout {key : CmdKey} {busy : Bool} : exec (.compatTimeout key busy) s = execCompatTimeout key busy s := rfl
theorem exec_compatDrainTimeout {key : CmdKey} {engine : BitVec 16} : exec (.compatDrainTimeout key engine) s = execCompatDrainTimeout key engine s := rfl
theorem exec_eventPost {ring : BitVec 5} {x : Option XFault} : exec (.eventPost ring x) s = execEventPost ring x s := rfl
theorem exec_eventModerationExpiry {ring : BitVec 5} : exec (.eventModerationExpiry ring) s = execEventModerationExpiry ring s := rfl
theorem exec_eventRingBaseWrite {who : Principal} {ring : BitVec 5} {base : BitVec 64} : exec (.eventRingBaseWrite who ring base) s = execEventRingBaseWrite who ring base s := rfl
theorem exec_fenceAck {slc : BitVec 4} {h : DomHdr} {origin : BitVec 12} {word : BitVec 64} : exec (.fenceAck slc h origin word) s = execFenceAck slc h origin word s := rfl
theorem exec_fenceDone {slc : BitVec 4} {h : DomHdr} {word : BitVec 64} : exec (.fenceDone slc h word) s = execFenceDone slc h word s := rfl
theorem exec_fenceResend {slc : BitVec 4} {h : DomHdr} {word : BitVec 64} : exec (.fenceResend slc h word) s = execFenceResend slc h word s := rfl
theorem exec_fenceMsgForward {slc : BitVec 4} {h : DomHdr} {origin : BitVec 16} {target : BitVec 16} {word : BitVec 64} : exec (.fenceMsgForward slc h origin target word) s = execFenceMsgForward slc h origin target word s := rfl
theorem exec_fenceRerequestExpiry {slc : BitVec 4} {group : BitVec 6} {dseq : BitVec 44} {collector : Bool} : exec (.fenceRerequestExpiry slc group dseq collector) s = execFenceRerequestExpiry slc group dseq collector s := rfl
theorem exec_domainFenceTimeout {key : CmdKey} : exec (.domainFenceTimeout key) s = execDomainFenceTimeout key s := rfl
theorem exec_rollChallenge {slc : BitVec 4} {h : DomHdr} {policy : Bytes} {listDigest : BitVec 384} {nonce : Bytes} {evidence : Bytes} {certs : List Bytes} : exec (.rollChallenge slc h policy listDigest nonce evidence certs) s = execRollChallenge slc h policy listDigest nonce evidence certs s := rfl
theorem exec_rollChallengeHoldExpiry {slc : BitVec 4} : exec (.rollChallengeHoldExpiry slc) s = execRollChallengeHoldExpiry slc s := rfl
theorem exec_rollAnswer {slc : BitVec 4} {h : DomHdr} {evidence : Bytes} {certs : List Bytes} {statement : Bytes} : exec (.rollAnswer slc h evidence certs statement) s = execRollAnswer slc h evidence certs statement s := rfl
theorem exec_rollAnswerDeadline {slc : BitVec 4} {member : BitVec 12} : exec (.rollAnswerDeadline slc member) s = execRollAnswerDeadline slc member s := rfl
theorem exec_rollCallTimeout {slc : BitVec 4} : exec (.rollCallTimeout slc) s = execRollCallTimeout slc s := rfl
theorem exec_releaseTimeout {slc : BitVec 4} : exec (.releaseTimeout slc) s = execReleaseTimeout slc s := rfl
theorem exec_halyardKey {slc : BitVec 4} {h : DomHdr} {evDigest : BitVec 384} {drkId : BitVec 128} {flags : BitVec 8} {blobs : List Bytes} {evidence : Bytes} {table : Bytes} : exec (.halyardKey slc h evDigest drkId flags blobs evidence table) s = execHalyardKey slc h evDigest drkId flags blobs evidence table s := rfl
theorem exec_halyardAck {slc : BitVec 4} {h : DomHdr} {keyed : BitVec 16} {fails : List (BitVec 16 × BitVec 8)} : exec (.halyardAck slc h keyed fails) s = execHalyardAck slc h keyed fails s := rfl
theorem exec_halyardAckDeadline {slc : BitVec 4} {member : BitVec 12} : exec (.halyardAckDeadline slc member) s = execHalyardAckDeadline slc member s := rfl
theorem exec_halyardLive {slc : BitVec 4} {h : DomHdr} : exec (.halyardLive slc h) s = execHalyardLive slc h s := rfl
theorem exec_formationTimeout {slc : BitVec 4} : exec (.formationTimeout slc) s = execFormationTimeout slc s := rfl
theorem exec_abort {slc : BitVec 4} {h : DomHdr} {cause : BitVec 8} {flags : BitVec 8} {origin : BitVec 16} {detail : BitVec 32} : exec (.abort slc h cause flags origin detail) s = execAbort slc h cause flags origin detail s := rfl
theorem exec_dissolve {slc : BitVec 4} {h : DomHdr} : exec (.dissolve slc h) s = execDissolve slc h s := rfl
theorem exec_domainResend {slc : BitVec 4} {h : DomHdr} {type : BitVec 16} {sequence : BitVec 64} : exec (.domainResend slc h type sequence) s = execDomainResend slc h type sequence s := rfl
theorem exec_dictAccess {slc : BitVec 4} {h : DomHdr} {origin : BitVec 16} {target : BitVec 16} {message : Bytes} : exec (.dictAccess slc h origin target message) s = execDictAccess slc h origin target message s := rfl
theorem exec_dictReply {slc : BitVec 4} {h : DomHdr} {origin : BitVec 16} {target : BitVec 16} {message : Bytes} : exec (.dictReply slc h origin target message) s = execDictReply slc h origin target message s := rfl
theorem exec_memoryWrite {engine : BitVec 4} {req : BitVec 5} {acting : BitVec 5} {pa : BitVec 47} {whole : Bool} {data : Line} : exec (.memoryWrite engine req acting pa whole data) s = execMemoryWrite engine req acting pa whole data s := rfl
theorem exec_memoryRead {engine : BitVec 4} {req : BitVec 5} {acting : BitVec 5} {pa : BitVec 47} : exec (.memoryRead engine req acting pa) s = execMemoryRead engine req acting pa s := rfl
theorem exec_memoryReadData {engine : BitVec 4} {ln : BitVec 40} {pc : BitVec 6} {word : RdWord} : exec (.memoryReadData engine ln pc word) s = execMemoryReadData engine ln pc word s := rfl
theorem exec_versionSupply {engine : BitVec 4} {ln : BitVec 40} : exec (.versionSupply engine ln) s = execVersionSupply engine ln s := rfl
theorem exec_counterLineFetchData {region : BitVec 12} {level : BitVec 2} {index : BitVec 33} {mirror : Bool} {read : LineRead} : exec (.counterLineFetchData region level index mirror read) s = execCounterLineFetchData region level index mirror read s := rfl
theorem exec_counterWriteback {region : BitVec 12} {level : BitVec 2} {index : BitVec 33} : exec (.counterWriteback region level index) s = execCounterWriteback region level index s := rfl
theorem exec_rebase {region : BitVec 12} {level : BitVec 2} {index : BitVec 33} {old : Bool} : exec (.rebase region level index old) s = execRebase region level index old s := rfl
theorem exec_rebaseChildMove {region : BitVec 12} {level : BitVec 2} {index : BitVec 33} {old : Bool} {read : LineRead} : exec (.rebaseChildMove region level index old read) s = execRebaseChildMove region level index old read s := rfl
theorem exec_dueReport {engine : BitVec 4} {ln : BitVec 40} {handle : BitVec 16} {anchor : BitVec 8} : exec (.dueReport engine ln handle anchor) s = execDueReport engine ln handle anchor s := rfl
theorem exec_eraseResponse {engine : BitVec 4} {answer : Option (Line × BitVec 56)} : exec (.eraseResponse engine answer) s = execEraseResponse engine answer s := rfl
theorem exec_eraseTimeout {engine : BitVec 4} : exec (.eraseTimeout engine) s = execEraseTimeout engine s := rfl
theorem exec_scrubReread {engine : BitVec 4} {ln : BitVec 40} {read : LineRead} : exec (.scrubReread engine ln read) s = execScrubReread engine ln read s := rfl
theorem exec_calAnn {stack : BitVec 4} {seq : BitVec 8} {kind : BitVec 8} {mask : BitVec 64} : exec (.calAnn stack seq kind mask) s = execCalAnn stack seq kind mask s := rfl
theorem exec_calDone {stack : BitVec 4} {seq : BitVec 8} : exec (.calDone stack seq) s = execCalDone stack seq s := rfl
theorem exec_calAnnouncementTimeout {stack : BitVec 4} {seq : BitVec 8} : exec (.calAnnouncementTimeout stack seq) s = execCalAnnouncementTimeout stack seq s := rfl
theorem exec_sweepReq {stack : BitVec 4} {duration : BitVec 16} {mask : BitVec 64} : exec (.sweepReq stack duration mask) s = execSweepReq stack duration mask s := rfl
theorem exec_sweepGnt {stack : BitVec 4} : exec (.sweepGnt stack) s = execSweepGnt stack s := rfl
theorem exec_sweepReqTimeout {stack : BitVec 4} : exec (.sweepReqTimeout stack) s = execSweepReqTimeout stack s := rfl
theorem exec_sweepEnd {stack : BitVec 4} : exec (.sweepEnd stack) s = execSweepEnd stack s := rfl
theorem exec_sweepDurationExpiry {stack : BitVec 4} : exec (.sweepDurationExpiry stack) s = execSweepDurationExpiry stack s := rfl
theorem exec_thrChange {stack : BitVec 4} {thr : BitVec 8} : exec (.thrChange stack thr) s = execThrChange stack thr s := rfl
theorem exec_rateSample {rate : BitVec 6} {value : BitVec 32} : exec (.rateSample rate value) s = execRateSample rate value s := rfl
theorem exec_wheelSlotService {engine : BitVec 4} : exec (.wheelSlotService engine) s = execWheelSlotService engine s := rfl
theorem exec_hostPacketTx {port : BitVec 5} {slc : BitVec 4} {peer : BitVec 12} {traffic : BitVec 4} {addr : BitVec 64} {opcode : BitVec 8} {attr : BitVec 8} {payload : Bytes} {closing : Bool} : exec (.hostPacketTx port slc peer traffic addr opcode attr payload closing) s = execHostPacketTx port slc peer traffic addr opcode attr payload closing s := rfl
theorem exec_groupFlushExpiry {port : BitVec 5} {stream : BitVec 17} : exec (.groupFlushExpiry port stream) s = execGroupFlushExpiry port stream s := rfl
theorem exec_groupReceive {port : BitVec 5} {gsh : Bytes} {descs : Bytes} {cipher : Bytes} : exec (.groupReceive port gsh descs cipher) s = execGroupReceive port gsh descs cipher s := rfl
theorem exec_groupTrailer {port : BitVec 5} {index : BitVec 16} {trailer : Bytes} {tag : BitVec 128} : exec (.groupTrailer port index trailer tag) s = execGroupTrailer port index trailer tag s := rfl
theorem exec_trailerTimeout {port : BitVec 5} {index : BitVec 16} : exec (.trailerTimeout port index) s = execTrailerTimeout port index s := rfl
theorem exec_linkRotate {pair : BitVec 13} : exec (.linkRotate pair) s = execLinkRotate pair s := rfl
theorem exec_linkNextKeyDerived {pair : BitVec 13} : exec (.linkNextKeyDerived pair) s = execLinkNextKeyDerived pair s := rfl
theorem exec_rxNextWaitTimeout {port : BitVec 5} : exec (.rxNextWaitTimeout port) s = execRxNextWaitTimeout port s := rfl
theorem exec_drainEnd {port : BitVec 5} {pair : BitVec 13} : exec (.drainEnd port pair) s = execDrainEnd port pair s := rfl
theorem exec_drainTimeout {port : BitVec 5} {pair : BitVec 13} : exec (.drainTimeout port pair) s = execDrainTimeout port pair s := rfl
theorem exec_deadTargetReport {port : BitVec 5} {endpoint : BitVec 32} : exec (.deadTargetReport port endpoint) s = execDeadTargetReport port endpoint s := rfl
theorem exec_hleTlpEgress {slc : BitVec 5} {sub : BitVec 2} {header data : Bytes} : exec (.hleTlpEgress slc sub header data) s = execHleTlpEgress slc sub header data s := rfl
theorem exec_hleTlpReceive {slc : BitVec 4} {sub : BitVec 2} {k : Bool} {t : Bool} {iv : BitVec 96} {aad : Bytes} {data : Bytes} {mac : BitVec 96} : exec (.hleTlpReceive slc sub k t iv aad data mac) s = execHleTlpReceive slc sub k t iv aad data mac s := rfl
theorem exec_query {session : BitVec 3} {slc : BitVec 4} : exec (.query session slc) s = execQuery session slc s := rfl
theorem exec_keyProg {session : BitVec 3} {slc : BitVec 4} {streamId : BitVec 8} {tx : Bool} {sub : BitVec 2} {k : Bool} {key : BitVec 256} : exec (.keyProg session slc streamId tx sub k key) s = execKeyProg session slc streamId tx sub k key s := rfl
theorem exec_keySetGo {session : BitVec 3} {slc : BitVec 4} {tx : Bool} {sub : BitVec 2} {k : Bool} : exec (.keySetGo session slc tx sub k) s = execKeySetGo session slc tx sub k s := rfl
theorem exec_keySetStop {session : BitVec 3} {slc : BitVec 4} {tx : Bool} {sub : BitVec 2} {k : Bool} : exec (.keySetStop session slc tx sub k) s = execKeySetStop session slc tx sub k s := rfl
theorem exec_getTdispVersion {session : BitVec 3} : exec (.getTdispVersion session) s = execGetTdispVersion session s := rfl
theorem exec_getTdispCapabilities {session : BitVec 3} : exec (.getTdispCapabilities session) s = execGetTdispCapabilities session s := rfl
theorem exec_lockInterfaceRequest {session : BitVec 3} {slc : BitVec 4} : exec (.lockInterfaceRequest session slc) s = execLockInterfaceRequest session slc s := rfl
theorem exec_getDeviceInterfaceReport {session : BitVec 3} {slc : BitVec 4} : exec (.getDeviceInterfaceReport session slc) s = execGetDeviceInterfaceReport session slc s := rfl
theorem exec_getDeviceInterfaceState {session : BitVec 3} {slc : BitVec 4} : exec (.getDeviceInterfaceState session slc) s = execGetDeviceInterfaceState session slc s := rfl
theorem exec_startInterfaceRequest {session : BitVec 3} {slc : BitVec 4} : exec (.startInterfaceRequest session slc) s = execStartInterfaceRequest session slc s := rfl
theorem exec_stopInterfaceRequest {session : BitVec 3} {slc : BitVec 4} : exec (.stopInterfaceRequest session slc) s = execStopInterfaceRequest session slc s := rfl
theorem exec_tdispUnsupportedRequest {session : BitVec 3} {code : BitVec 8} : exec (.tdispUnsupportedRequest session code) s = execTdispUnsupportedRequest session code s := rfl
theorem exec_getVersion {m : SpdmHdr} : exec (.getVersion m) s = execGetVersion m s := rfl
theorem exec_getCapabilities {m : SpdmHdr} : exec (.getCapabilities m) s = execGetCapabilities m s := rfl
theorem exec_negotiateAlgorithms {m : SpdmHdr} {asym : BitVec 32} {hash : BitVec 32} {dhe : BitVec 16} {aead : BitVec 16} {spec : BitVec 8} : exec (.negotiateAlgorithms m asym hash dhe aead spec) s = execNegotiateAlgorithms m asym hash dhe aead spec s := rfl
theorem exec_getDigests {m : SpdmHdr} : exec (.getDigests m) s = execGetDigests m s := rfl
theorem exec_getCertificate {m : SpdmHdr} {slot : BitVec 8} {off : BitVec 16} {len : BitVec 16} : exec (.getCertificate m slot off len) s = execGetCertificate m slot off len s := rfl
theorem exec_challenge {m : SpdmHdr} {slot : BitVec 8} {summary : BitVec 8} {nonce : BitVec 256} : exec (.challenge m slot summary nonce) s = execChallenge m slot summary nonce s := rfl
theorem exec_getMeasurements {m : SpdmHdr} {index : BitVec 8} {signed : Bool} {slot : BitVec 8} {nonce : BitVec 256} : exec (.getMeasurements m index signed slot nonce) s = execGetMeasurements m index signed slot nonce s := rfl
theorem exec_keyExchange {m : SpdmHdr} {slot : BitVec 8} {summary : BitVec 8} {point : Bytes} : exec (.keyExchange m slot summary point) s = execKeyExchange m slot summary point s := rfl
theorem exec_finish {m : SpdmHdr} {verifies : Bool} : exec (.finish m verifies) s = execFinish m verifies s := rfl
theorem exec_heartbeat {m : SpdmHdr} : exec (.heartbeat m) s = execHeartbeat m s := rfl
theorem exec_keyUpdate {m : SpdmHdr} {op : BitVec 8} : exec (.keyUpdate m op) s = execKeyUpdate m op s := rfl
theorem exec_endSession {m : SpdmHdr} : exec (.endSession m) s = execEndSession m s := rfl
theorem exec_chunkSend {m : SpdmHdr} {handle : BitVec 8} {seq : BitVec 16} {last : Bool} {data : Bytes} : exec (.chunkSend m handle seq last data) s = execChunkSend m handle seq last data s := rfl
theorem exec_chunkGet {m : SpdmHdr} {handle : BitVec 8} {seq : BitVec 16} : exec (.chunkGet m handle seq) s = execChunkGet m handle seq s := rfl
theorem exec_vendorDefinedRequest {m : SpdmHdr} {standard : BitVec 16} {vendor : BitVec 16} {data : Bytes} : exec (.vendorDefinedRequest m standard vendor data) s = execVendorDefinedRequest m standard vendor data s := rfl
theorem exec_spdmUnsupportedRequest {m : SpdmHdr} {code : BitVec 8} : exec (.spdmUnsupportedRequest m code) s = execSpdmUnsupportedRequest m code s := rfl
theorem exec_dictRead {path : DictPath} {m : DictMsg} : exec (.dictRead path m) s = execDictRead path m s := rfl
theorem exec_dictWrite {path : DictPath} {m : DictMsg} : exec (.dictWrite path m) s = execDictWrite path m s := rfl
theorem exec_segRead {path : DictPath} {m : DictMsg} : exec (.segRead path m) s = execSegRead path m s := rfl
theorem exec_segWrite {path : DictPath} {m : DictMsg} : exec (.segWrite path m) s = execSegWrite path m s := rfl
theorem exec_dictAbort {path : DictPath} {m : DictMsg} : exec (.dictAbort path m) s = execDictAbort path m s := rfl
theorem exec_dictSegIdleExpiry {path : DictPath} {tag : BitVec 8} : exec (.dictSegIdleExpiry path tag) s = execDictSegIdleExpiry path tag s := rfl
theorem exec_dictEntryWrite {who : Principal} {index : BitVec 16} {sub : BitVec 8} {type : BitVec 8} {value : Bytes} : exec (.dictEntryWrite who index sub type value) s = execDictEntryWrite who index sub type value s := rfl
theorem exec_mbGo {box : BitVec 5} {irqEn : Bool} {reqLen : BitVec 32} {request : Bytes} : exec (.mbGo box irqEn reqLen request) s = execMbGo box irqEn reqLen request s := rfl
theorem exec_setdasa {static_ : BitVec 7} {dynamic_ : BitVec 7} : exec (.setdasa static_ dynamic_) s = execSetdasa static_ dynamic_ s := rfl
theorem exec_entdaa {dynamic_ : BitVec 7} : exec (.entdaa dynamic_) s = execEntdaa dynamic_ s := rfl
theorem exec_setEndpointId {dest : BitVec 8} {source : BitVec 8} {op : BitVec 8} {eid : BitVec 8} : exec (.setEndpointId dest source op eid) s = execSetEndpointId dest source op eid s := rfl
theorem exec_getEndpointId {dest : BitVec 8} : exec (.getEndpointId dest) s = execGetEndpointId dest s := rfl
theorem exec_getEndpointUuid {dest : BitVec 8} : exec (.getEndpointUuid dest) s = execGetEndpointUuid dest s := rfl
theorem exec_getMctpVersionSupport {dest : BitVec 8} {type : BitVec 8} : exec (.getMctpVersionSupport dest type) s = execGetMctpVersionSupport dest type s := rfl
theorem exec_getMessageTypeSupport {dest : BitVec 8} : exec (.getMessageTypeSupport dest) s = execGetMessageTypeSupport dest s := rfl
theorem exec_getVendorDefinedMessageSupport {dest : BitVec 8} {selector : BitVec 8} : exec (.getVendorDefinedMessageSupport dest selector) s = execGetVendorDefinedMessageSupport dest selector s := rfl
theorem exec_mctpPacketReceive {binding : Bool} {packet : Bytes} : exec (.mctpPacketReceive binding packet) s = execMctpPacketReceive binding packet s := rfl
theorem exec_tamperCauseClear {who : Principal} {value : Bool} : exec (.tamperCauseClear who value) s = execTamperCauseClear who value s := rfl
theorem exec_certCacheFlush {who : Principal} {value : Bool} : exec (.certCacheFlush who value) s = execCertCacheFlush who value s := rfl
theorem exec_sliceRelease {who : Principal} {slc : BitVec 4} {value : Bool} : exec (.sliceRelease who slc value) s = execSliceRelease who slc value s := rfl
theorem exec_sliceRecordWrite {who : Principal} {slc : BitVec 4} {sub : BitVec 8} {value : Bytes} : exec (.sliceRecordWrite who slc sub value) s = execSliceRecordWrite who slc sub value s := rfl
theorem exec_mcWayQuotaWrite {who : Principal} {slc : BitVec 4} {value : Bytes} : exec (.mcWayQuotaWrite who slc value) s = execMcWayQuotaWrite who slc value s := rfl
theorem exec_s2RootWrite {who : Principal} {stage1 : Bool} {set : BitVec 5} {ix : BitVec 6} {value : BitVec 64} : exec (.s2RootWrite who stage1 set ix value) s = execS2RootWrite who stage1 set ix value s := rfl
theorem exec_leModeWrite {who : Principal} {port : BitVec 5} {mode : BitVec 8} : exec (.leModeWrite who port mode) s = execLeModeWrite who port mode s := rfl
theorem exec_resetChipReq {who : Principal} {value : Bool} : exec (.resetChipReq who value) s = execResetChipReq who value s := rfl
theorem exec_chipResetGo {value : BitVec 32} : exec (.chipResetGo value) s = execChipResetGo value s := rfl
theorem exec_chipCoopTimeout : exec (.chipCoopTimeout) s = execChipCoopTimeout s := rfl
theorem exec_firstErrorClear {who : Principal} {value : Bool} : exec (.firstErrorClear who value) s = execFirstErrorClear who value s := rfl
theorem exec_dumpClear {who : Principal} {value : Bool} : exec (.dumpClear who value) s = execDumpClear who value s := rfl
theorem exec_errlogConsumedWrite {who : Principal} {index : BitVec 32} : exec (.errlogConsumedWrite who index) s = execErrlogConsumedWrite who index s := rfl
theorem exec_cpKick {who : Principal} {pair : Bool} {value : Bool} : exec (.cpKick who pair value) s = execCpKick who pair value s := rfl
theorem exec_watchdogWarning {unit : BitVec 8} {pair : Bool} : exec (.watchdogWarning unit pair) s = execWatchdogWarning unit pair s := rfl
theorem exec_watchdogExpiry {unit : BitVec 8} {slc : BitVec 5} {ctx : BitVec 16} {units : List (BitVec 256)} : exec (.watchdogExpiry unit slc ctx units) s = execWatchdogExpiry unit slc ctx units s := rfl
theorem exec_lockstepMismatch {pair : Bool} {units : List (BitVec 256)} : exec (.lockstepMismatch pair units) s = execLockstepMismatch pair units s := rfl
theorem exec_hostStall {stack : BitVec 4} : exec (.hostStall stack) s = execHostStall stack s := rfl
theorem exec_killLimitExpiry {unit : BitVec 8} : exec (.killLimitExpiry unit) s = execKillLimitExpiry unit s := rfl
theorem exec_engineResetDone {unit : BitVec 8} : exec (.engineResetDone unit) s = execEngineResetDone unit s := rfl
theorem exec_lcTransition {via : Access} {value : Bytes} : exec (.lcTransition via value) s = execLcTransition via value s := rfl
theorem exec_lcOtpProgramDone : exec (.lcOtpProgramDone) s = execLcOtpProgramDone s := rfl
theorem exec_debugRequest {who : Principal} {scopes : BitVec 8} : exec (.debugRequest who scopes) s = execDebugRequest who scopes s := rfl
theorem exec_debugResponse {who : Principal} {value : Bytes} : exec (.debugResponse who value) s = execDebugResponse who value s := rfl
theorem exec_vaultProvision {who : Principal} {value : Bool} : exec (.vaultProvision who value) s = execVaultProvision who value s := rfl
theorem exec_dmiRead {via : Access} {pair : Bool} {addr : BitVec 8} : exec (.dmiRead via pair addr) s = execDmiRead via pair addr s := rfl
theorem exec_dmiWrite {via : Access} {pair : Bool} {addr : BitVec 8} {data : BitVec 32} : exec (.dmiWrite via pair addr data) s = execDmiWrite via pair addr data s := rfl
theorem exec_hartHalted {pair : Bool} : exec (.hartHalted pair) s = execHartHalted pair s := rfl
theorem exec_counterReset {who : Principal} {bitmap : BitVec 96} : exec (.counterReset who bitmap) s = execCounterReset who bitmap s := rfl
theorem exec_counterSnapshot {who : Principal} {value : Bool} : exec (.counterSnapshot who value) s = execCounterSnapshot who value s := rfl
theorem exec_traceArm {who : Principal} {on : Bool} : exec (.traceArm who on) s = execTraceArm who on s := rfl
theorem exec_traceTriggerNow {who : Principal} {value : Bool} : exec (.traceTriggerNow who value) s = execTraceTriggerNow who value s := rfl
theorem exec_traceMarker {who : Principal} {marker : BitVec 64} {value : BitVec 64} : exec (.traceMarker who marker value) s = execTraceMarker who marker value s := rfl
theorem exec_tracePcSample {pc : List (Bool × BitVec 64 × BitVec 2 × BitVec 16)} : exec (.tracePcSample pc) s = execTracePcSample pc s := rfl
theorem exec_icuSourceAssert {source : BitVec 10} {pair : Bool} {level : Bool} {wfi : BitVec 2} : exec (.icuSourceAssert source pair level wfi) s = execIcuSourceAssert source pair level wfi s := rfl
theorem exec_claim {pair : Bool} {width : BitVec 8} : exec (.claim pair width) s = execClaim pair width s := rfl
theorem exec_eoi {pair : Bool} {width : BitVec 8} {value : BitVec 32} : exec (.eoi pair width value) s = execEoi pair width value s := rfl
theorem exec_pendSet {pair : Bool} {bitmap : BitVec 512} : exec (.pendSet pair bitmap) s = execPendSet pair bitmap s := rfl
theorem exec_pendClr {pair : Bool} {bitmap : BitVec 512} : exec (.pendClr pair bitmap) s = execPendClr pair bitmap s := rfl
theorem exec_maskSet {pair : Bool} {bitmap : BitVec 512} : exec (.maskSet pair bitmap) s = execMaskSet pair bitmap s := rfl
theorem exec_maskClr {pair : Bool} {bitmap : BitVec 512} : exec (.maskClr pair bitmap) s = execMaskClr pair bitmap s := rfl
theorem exec_stormClear {pair : Bool} {bitmap : BitVec 512} : exec (.stormClear pair bitmap) s = execStormClear pair bitmap s := rfl
theorem exec_sgi {pair : Bool} {width : BitVec 8} {value : BitVec 32} : exec (.sgi pair width value) s = execSgi pair width value s := rfl
theorem exec_stormWindowExpiry {source : BitVec 10} {pair : Bool} : exec (.stormWindowExpiry source pair) s = execStormWindowExpiry source pair s := rfl
theorem exec_icuModerationExpiry {pair : Bool} : exec (.icuModerationExpiry pair) s = execIcuModerationExpiry pair s := rfl
theorem exec_hostEvent {who : Principal} {value : BitVec 32} : exec (.hostEvent who value) s = execHostEvent who value s := rfl
theorem exec_fwdGo {pair : Bool} {detail : BitVec 64} {code : BitVec 16} {kind : BitVec 8} {ring : BitVec 8} {cookie : BitVec 64} : exec (.fwdGo pair detail code kind ring cookie) s = execFwdGo pair detail code kind ring cookie s := rfl
theorem exec_kweRequest {who : BitVec 5} {op : KweOp} {src : BitVec 11} {dst : KweDst} {ctx : BitVec 16} : exec (.kweRequest who op src dst ctx) s = execKweRequest who op src dst ctx s := rfl
theorem exec_kweComplete {ns : BitVec 32} : exec (.kweComplete ns) s = execKweComplete ns s := rfl
theorem exec_pkeComplete {unit : BitVec 2} {who : BitVec 5} {ns : BitVec 32} : exec (.pkeComplete unit who ns) s = execPkeComplete unit who ns s := rfl
theorem exec_entHealthFailure {test : BitVec 2} : exec (.entHealthFailure test) s = execEntHealthFailure test s := rfl
theorem exec_entRetryExpiry : exec (.entRetryExpiry) s = execEntRetryExpiry s := rfl
theorem exec_entStartupTestsDone : exec (.entStartupTestsDone) s = execEntStartupTestsDone s := rfl
theorem exec_drbgReseed {which : BitVec 2} : exec (.drbgReseed which) s = execDrbgReseed which s := rfl
theorem exec_meshCompare {mismatch : Bool} {short : Bool} : exec (.meshCompare mismatch short) s = execMeshCompare mismatch short s := rfl
theorem exec_tamperInSample {input : BitVec 2} {level : Bool} : exec (.tamperInSample input level) s = execTamperInSample input level s := rfl
theorem exec_tamperLatchClear {who : Principal} {input : BitVec 2} {value : Bool} : exec (.tamperLatchClear who input value) s = execTamperLatchClear who input value s := rfl
theorem exec_vbatOutOfRange {mv : BitVec 16} : exec (.vbatOutOfRange mv) s = execVbatOutOfRange mv s := rfl
theorem exec_vaultSupplyOutOfRange {mv : BitVec 16} : exec (.vaultSupplyOutOfRange mv) s = execVaultSupplyOutOfRange mv s := rfl
theorem exec_vaultTempReading {c : BitVec 16} : exec (.vaultTempReading c) s = execVaultTempReading c s := rfl
theorem exec_zeroization : exec (.zeroization) s = execZeroization s := rfl
theorem exec_zeroizationComplete : exec (.zeroizationComplete) s = execZeroizationComplete s := rfl
theorem exec_canarySample {unit : BitVec 6} {canary : BitVec 3} {x : BitVec 8} : exec (.canarySample unit canary x) s = execCanarySample unit canary x s := rfl
theorem exec_canaryIdleExercise {unit : BitVec 6} {codes : List (BitVec 8)} : exec (.canaryIdleExercise unit codes) s = execCanaryIdleExercise unit codes s := rfl
theorem exec_senFreezeExpiry {unit : BitVec 6} : exec (.senFreezeExpiry unit) s = execSenFreezeExpiry unit s := rfl
theorem exec_supplyExcursion {die : BitVec 2} : exec (.supplyExcursion die) s = execSupplyExcursion die s := rfl
theorem exec_brownOut {die : BitVec 2} : exec (.brownOut die) s = execBrownOut die s := rfl
theorem exec_brownOutRecovery {die : BitVec 2} : exec (.brownOutRecovery die) s = execBrownOutRecovery die s := rfl
theorem exec_tjWarnCrossing {hottest : BitVec 32} : exec (.tjWarnCrossing hottest) s = execTjWarnCrossing hottest s := rfl
theorem exec_referenceClockLost {base : BitVec 2} : exec (.referenceClockLost base) s = execReferenceClockLost base s := rfl
theorem exec_referenceClockRegained {base : BitVec 2} : exec (.referenceClockRegained base) s = execReferenceClockRegained base s := rfl
theorem exec_vaonRamp {mv : BitVec 16} : exec (.vaonRamp mv) s = execVaonRamp mv s := rfl
theorem exec_strapSample {straps : List (BitVec 8)} : exec (.strapSample straps) s = execStrapSample straps s := rfl
theorem exec_chipResetRelease {rails : BitVec 7} {straps : List (BitVec 8)} {kat : Option (BitVec 8)} {flash : Option FwImage} {recovery : Option FwImage} {certs : List Bytes} : exec (.chipResetRelease rails straps kat flash recovery certs) s = execChipResetRelease rails straps kat flash recovery certs s := rfl
theorem exec_recoveryFetchRetry {recovery : Option FwImage} {certs : List Bytes} : exec (.recoveryFetchRetry recovery certs) s = execRecoveryFetchRetry recovery certs s := rfl
theorem exec_firmwareStart {ect : EctValues} {failed : BitVec 128} : exec (.firmwareStart ect failed) s = execFirmwareStart ect failed s := rfl
theorem exec_railLoss {rail : BitVec 3} : exec (.railLoss rail) s = execRailLoss rail s := rfl
theorem exec_tableWalkRead {walker : BitVec 3} {word : Option (BitVec 64)} : exec (.tableWalkRead walker word) s = execTableWalkRead walker word s := rfl
theorem exec_blockDmaAccess {set : BitVec 5} {pasid : BitVec 20} {stage1 : Bool} {bva : BitVec 64} {read : Bool} {write : Bool} {ring : Bool} {key : Option CmdKey} : exec (.blockDmaAccess set pasid stage1 bva read write ring key) s = execBlockDmaAccess set pasid stage1 bva read write ring key s := rfl
theorem exec_eventReadIndexWrite {ring : BitVec 5} {index : BitVec 32} : exec (.eventReadIndexWrite ring index) s = execEventReadIndexWrite ring index s := rfl
theorem exec_preemptionPoint {unit : BitVec 2} {running : BitVec 5} {waiting : BitVec 17} {ran : BitVec 32} {cost : BitVec 32} : exec (.preemptionPoint unit running waiting ran cost) s = execPreemptionPoint unit running waiting ran cost s := rfl
theorem exec_vbatRamp {mv : BitVec 16} : exec (.vbatRamp mv) s = execVbatRamp mv s := rfl
theorem exec_resetPortAssert {asserted : Bool} : exec (.resetPortAssert asserted) s = execResetPortAssert asserted s := rfl
theorem exec_lossOfSecure {slc : BitVec 4} : exec (.lossOfSecure slc) s = execLossOfSecure slc s := rfl
theorem exec_srcCfgWrite {pair : Bool} {source : BitVec 10} {width : BitVec 8} {value : BitVec 32} : exec (.srcCfgWrite pair source width value) s = execSrcCfgWrite pair source width value s := rfl
theorem exec_pmrWrite {pair : Bool} {width : BitVec 8} {value : BitVec 32} : exec (.pmrWrite pair width value) s = execPmrWrite pair width value s := rfl
theorem exec_spdmHeartbeatTimeout {session : BitVec 3} : exec (.spdmHeartbeatTimeout session) s = execSpdmHeartbeatTimeout session s := rfl
theorem exec_powerEstimateUpdate : exec (.powerEstimateUpdate) s = execPowerEstimateUpdate s := rfl

end Sys2Proof.Machine
end

