-- ==== Sys2Proof/Laws/KeepsOperands.lean ====
section
/-!
SUPPORT. What the operations of Machine/Operands.lean keep, and which parts they may change (Laws/Keeps.lean).
-/

set_option Elab.async false
namespace Sys2Proof.Machine

variable {P : Part → Bool} {Q : State → Prop}

theorem refuse_keeps (K : Keeps P Q) (h_cex : P .cex = true) {h : CmdHdr} {status detail : Nat} {s : State} (Ks : Q s)
    : Q (refuse h status detail s) := by
  unfold refuse
  exact finish_keeps K h_cex Ks

theorem checked_keeps (K : Keeps P Q) (h_cex : P .cex = true) {h : CmdHdr} {cs : List (Bool × Nat × Nat)} {s : State} {f : State → State} (Ks : Q s)
    (Kf : ∀ b0, Q b0 → Q (f b0)) : Q (checked h cs s f) := by
  unfold checked
  split
  · exact refuse_keeps K h_cex Ks
  · exact Kf _ Ks

end Sys2Proof.Machine
end

