-- ==== Sys2Proof/Laws/KeepsEntropy.lean ====
section
/-!
SUPPORT. What the operations of Machine/Entropy.lean keep, and which parts they may change (Laws/Keeps.lean).
-/

set_option Elab.async false
namespace Sys2Proof.Machine

variable {P : Part → Bool} {Q : State → Prop}

theorem kweReseed_keeps (K : Keeps P Q) (h_kwe : P .kwe = true) (h_ent : P .ent = true) {s : State} (Ks : Q s) : Q (kweReseed s) := by
  unfold kweReseed
  exact K.upd Ks (h_kwe := .inr h_kwe) (h_ent := .inr h_ent)

theorem kweRan_keeps (K : Keeps P Q) (h_kwe : P .kwe = true) (h_ent : P .ent = true) {s : State} (Ks : Q s) : Q (kweRan s) := by
  unfold kweRan
  extract_lets +onlyGivenNames x1 x2
  have Kx2 : Q x2 := K.kwe h_kwe Ks
  clear_value x2
  exact Keeps.ite (kweReseed_keeps K h_kwe h_ent Kx2) Kx2

theorem kweDone_keeps (K : Keeps P Q) (h_kwe : P .kwe = true) (h_ent : P .ent = true) {s : State} (Ks : Q s) : Q (kweDone s) := by
  unfold kweDone
  exact kweRan_keeps K h_kwe h_ent (K.kwe h_kwe Ks)

theorem kweRefused_keeps (K : Keeps P Q) (h_kwe : P .kwe = true) {s : State} (Ks : Q s) : Q (kweRefused s) := by
  unfold kweRefused
  exact K.kwe h_kwe Ks

theorem kweChecked_keeps (K : Keeps P Q) (h_cex : P .cex = true) (h_kwe : P .kwe = true) {h : CmdHdr} {cs : List (Bool × Nat × Nat)} {s : State}
    {f : State → State} (Ks : Q s) (Kf : ∀ b0, Q b0 → Q (f b0)) : Q (kweChecked h cs s f) := by
  unfold kweChecked
  split
  · exact refuse_keeps K h_cex (kweRefused_keeps K h_kwe Ks)
  · exact Kf _ Ks

theorem drawBits_keeps (K : Keeps P Q) (h_free : P .free = true) {w : Nat} {s : State} (Ks : Q s) : Q (drawBits w s).2 := by
  unfold drawBits
  exact Keeps.p2 (State.drew_keeps K h_free Ks)

theorem drbgInstantiate_keeps (K : Keeps P Q) (h_ent : P .ent = true) (h_free : P .free = true) {s : State} (Ks : Q s) : Q (drbgInstantiate s) := by
  unfold drbgInstantiate
  split
  rename_i y1 y2 y3 y4
  have Ky3 : Q y3 := Keeps.snd y4 (drawBits_keeps K h_free Ks)
  split
  rename_i y5 y6 y7 y8
  have Ky7 : Q y7 := Keeps.snd y8 (drawBits_keeps K h_free Ky3)
  exact K.ent h_ent Ky7

theorem drbgReseed_keeps (K : Keeps P Q) (h_ent : P .ent = true) (h_free : P .free = true) {s : State} (Ks : Q s) : Q (drbgReseed s) := by
  unfold drbgReseed
  refine Keeps.ite (drbgInstantiate_keeps K h_ent h_free Ks) ?_
  split
  rename_i y1 y2 y3 y4
  have Ky3 : Q y3 := Keeps.snd y4 (drawBits_keeps K h_free Ks)
  exact K.ent h_ent Ky3

theorem drbgPrepare_keeps (K : Keeps P Q) (h_ent : P .ent = true) (h_free : P .free = true) {s : State} (Ks : Q s) : Q (drbgPrepare s) := by
  unfold drbgPrepare
  exact Keeps.ite (drbgReseed_keeps K h_ent h_free Ks) Ks

theorem drbgBits_keeps (K : Keeps P Q) (h_ent : P .ent = true) (h_free : P .free = true) {w : Nat} {s : State} (Ks : Q s) : Q (drbgBits w s).2 := by
  unfold drbgBits
  extract_lets +onlyGivenNames x1
  have Kx1 : Q x1 := drbgPrepare_keeps K h_ent h_free Ks
  clear_value x1
  exact Keeps.p2 (K.ent h_ent Kx1)

theorem chargeEngine_keeps (K : Keeps P Q) (h_srg : P .srg = true) {who unit ns : Nat} {s : State} (Ks : Q s) : Q (chargeEngine who unit ns s) := by
  unfold chargeEngine
  extract_lets +onlyGivenNames x1 x2
  have Kx2 : Q x2 := K.srg h_srg Ks
  clear_value x2
  exact Keeps.ite (updUsage_keeps K h_srg Kx2) Kx2

theorem pkeReseed_keeps (K : Keeps P Q) (h_ent : P .ent = true) {s : State} (Ks : Q s) : Q (pkeReseed s) := by
  unfold pkeReseed
  exact K.ent h_ent Ks

theorem pkeDone_keeps (K : Keeps P Q) (h_ent : P .ent = true) {s : State} (Ks : Q s) : Q (pkeDone s) := by
  unfold pkeDone
  extract_lets +onlyGivenNames x1 x2
  have Kx2 : Q x2 := K.ent h_ent Ks
  clear_value x2
  exact Keeps.ite (pkeReseed_keeps K h_ent Kx2) Kx2

theorem keyBits_keeps (K : Keeps P Q) (h_ent : P .ent = true) (h_free : P .free = true) {w : Nat} {s : State} (Ks : Q s) : Q (keyBits w s).2 := by
  unfold keyBits
  exact drbgBits_keeps K h_ent h_free (drbgReseed_keeps K h_ent h_free Ks)

end Sys2Proof.Machine
end

