-- ==== Sys2Proof/Laws/KeepsMemOps.lean ====
section
/-!
SUPPORT. What the operations of Machine/MemOps.lean keep, and which parts they may change (Laws/Keeps.lean).
-/

set_option Elab.async false
namespace Sys2Proof.Machine

variable {P : Part → Bool} {Q : State → Prop}

theorem updPlough_keeps (K : Keeps P Q) (h_mem : P .mem = true) {r : Nat} {f : Plough → Plough} {s : State} (Ks : Q s) : Q (updPlough r f s) := by
  unfold updPlough
  exact K.mem h_mem Ks

theorem nextErase_keeps (K : Keeps P Q) (h_out : P .out = true) {e : Nat} {s : State} (Ks : Q s) : Q (nextErase e s) := by
  unfold nextErase
  split
  · split
    · exact State.emit_keeps K h_out Ks
    · exact Ks
  · exact Ks

theorem endCorr_keeps (K : Keeps P Q) (h_mem : P .mem = true) (h_out : P .out = true) {e read : Nat} {s : State} (Ks : Q s)
    : Q (endCorr e read s) := by
  unfold endCorr
  extract_lets +onlyGivenNames x1 x2 x3
  have Kx3 : Q x3 := K.mem h_mem Ks
  clear_value x3
  extract_lets +onlyGivenNames x4
  have Kx4 : Q x4 := Keeps.foldl (fun b5 b6 h7 => State.emit_keeps K h_out h7) Kx3
  clear_value x4
  exact Keeps.ite (nextErase_keeps K h_out Kx4) Kx4

theorem queueLine_keeps (K : Keeps P Q) (h_mem : P .mem = true) {e : Nat} {l : WaitLine} {s : State} (Ks : Q s) : Q (queueLine e l s) := by
  unfold queueLine
  exact K.mem h_mem Ks

theorem writeLine_keeps (K : Keeps P Q) (h_mem : P .mem = true) {e r who : Nat} {plough : Bool} {ln : Nat} {c : Line} {tag : BitVec 56} {s : State}
    (Ks : Q s) : Q (writeLine e r who plough ln c tag s) := by
  unfold writeLine
  exact queueLine_keeps K h_mem Ks

theorem clearKey_keeps (K : Keeps P Q) (h_engKeys : P .engKeys = true) {cls ix : Nat} {s : State} (Ks : Q s) : Q (clearKey cls ix s) := by
  unfold clearKey
  exact K.engKeys h_engKeys Ks

theorem meCount_keeps (K : Keeps P Q) (h_mem : P .mem = true) {e sub n : Nat} {s : State} (Ks : Q s) : Q (meCount e sub n s) := by
  unfold meCount
  exact K.mem h_mem Ks

theorem meSource_keeps (K : Keeps P Q) (h_rcv : P .rcv = true) (h_icu : P .icu = true) (h_obs : P .obs = true) (h_out : P .out = true) {cls e : Nat}
    {s : State} (Ks : Q s) : Q (meSource cls e s) := by
  unfold meSource
  split
  · exact pend_keeps K h_rcv h_icu h_obs h_out Ks
  · exact pend_keeps K h_rcv h_icu h_obs h_out Ks
  · exact pend_keeps K h_rcv h_icu h_obs h_out Ks
  · exact pend_keeps K h_rcv h_icu h_obs h_out Ks
  · exact pend_keeps K h_rcv h_icu h_obs h_out Ks
  · exact pend_keeps K h_rcv h_icu h_obs h_out Ks
  · exact Ks

theorem meLog_keeps (K : Keeps P Q) (h_rcv : P .rcv = true) (h_icu : P .icu = true) (h_obs : P .obs = true) (h_out : P .out = true)
    {cls e ln req who : Nat} {r : Option Nat} {status cands : Nat} {s : State} (Ks : Q s) : Q (meLog cls e ln req who r status cands s) := by
  unfold meLog
  exact meSource_keeps K h_rcv h_icu h_obs h_out (logError_keeps K h_rcv h_icu h_obs h_out Ks)

theorem respond_keeps (K : Keeps P Q) (h_mem : P .mem = true) (h_out : P .out = true) {x : MemRead} {d : Option Line} {s : State} (Ks : Q s)
    : Q (respond x d s) := by
  unfold respond
  split
  · exact State.emit_keeps K h_out Ks
  · exact K.mem h_mem Ks
  · exact Ks

theorem dropRead_keeps (K : Keeps P Q) (h_mem : P .mem = true) {x : MemRead} {s : State} (Ks : Q s) : Q (dropRead x s) := by
  unfold dropRead
  exact K.mem h_mem Ks

theorem poisonRead_keeps (K : Keeps P Q) (h_rcv : P .rcv = true) (h_icu : P .icu = true) (h_obs : P .obs = true) (h_mem : P .mem = true)
    (h_out : P .out = true) {cls : Nat} {x : MemRead} {r : Option Nat} {status cands : Nat} {s : State} (Ks : Q s)
    : Q (poisonRead cls x r status cands s) := by
  unfold poisonRead
  exact meCount_keeps K h_mem (meLog_keeps K h_rcv h_icu h_obs h_out (respond_keeps K h_mem h_out (dropRead_keeps K h_mem Ks)))

theorem dropWrite_keeps (K : Keeps P Q) (h_rcv : P .rcv = true) (h_icu : P .icu = true) (h_obs : P .obs = true) (h_cex : P .cex = true)
    (h_mem : P .mem = true) (h_out : P .out = true) {cls code e ln req who : Nat} {r : Option Nat} {denied : Bool} {s : State} (Ks : Q s)
    : Q (dropWrite cls code e ln req who r denied s) := by
  unfold dropWrite
  extract_lets +onlyGivenNames x1 x2 x3
  have Kx3 : Q x3 := meCount_keeps K h_mem (meLog_keeps K h_rcv h_icu h_obs h_out Ks)
  clear_value x3
  exact raise_keeps K h_cex Kx3

theorem addRead_keeps (K : Keeps P Q) (h_mem : P .mem = true) {x : MemRead} {s : State} (Ks : Q s) : Q (addRead x s) := by
  unfold addRead
  exact K.mem h_mem Ks

theorem poison_keeps (K : Keeps P Q) (h_mem : P .mem = true) (h_out : P .out = true) {x : MemRead} {s : State} (Ks : Q s) : Q (poison x s) := by
  unfold poison
  exact meCount_keeps K h_mem (respond_keeps K h_mem h_out (dropRead_keeps K h_mem Ks))

theorem dropReads_keeps (K : Keeps P Q) (h_mem : P .mem = true) {p : MemRead → Bool} {s : State} (Ks : Q s) : Q (dropReads p s) := by
  unfold dropReads
  extract_lets +onlyGivenNames x1
  exact K.mem h_mem Ks

theorem putEngKey_keeps (K : Keeps P Q) (h_engKeys : P .engKeys = true) {cls ix : Nat} {key : BitVec 256} {slot : Option Nat} {s : State} (Ks : Q s)
    : Q (putEngKey cls ix key slot s) := by
  unfold putEngKey
  exact K.engKeys h_engKeys Ks

theorem updRead_keeps (K : Keeps P Q) (h_mem : P .mem = true) {q : Nat} {f : MemRead → MemRead} {s : State} (Ks : Q s) : Q (updRead q f s) := by
  unfold updRead
  exact K.mem h_mem Ks

theorem issueRead_keeps (K : Keeps P Q) (h_mem : P .mem = true) {x : MemRead} {s : State} (Ks : Q s) : Q (issueRead x s) := by
  unfold issueRead
  exact queueLine_keeps K h_mem (updRead_keeps K h_mem Ks)

theorem startRead_keeps (K : Keeps P Q) (h_mem : P .mem = true) {x : MemRead} {s : State} (Ks : Q s) : Q (startRead x s) := by
  unfold startRead
  exact issueRead_keeps K h_mem (addRead_keeps K h_mem Ks)

theorem dropScrubs_keeps (K : Keeps P Q) (h_mem : P .mem = true) {ln : Nat} {s : State} (Ks : Q s) : Q (dropScrubs ln s) := by
  unfold dropScrubs
  exact dropReads_keeps K h_mem Ks

theorem storeProtected_keeps (K : Keeps P Q) (h_mem : P .mem = true) {e r : Nat} {newer plough : Bool} {ln mode v : Nat} {p : Line} {s : State} (Ks
    : Q s) : Q (storeProtected e r newer plough ln mode v p s) := by
  unfold storeProtected
  extract_lets +onlyGivenNames x1
  exact writeLine_keeps K h_mem (dropScrubs_keeps K h_mem Ks)

theorem loadKey_keeps (K : Keeps P Q) (h_engKeys : P .engKeys = true) (h_kwe : P .kwe = true) (h_ent : P .ent = true) {cls ix : Nat}
    {key : BitVec 256} {slot : Option Nat} {s : State} (Ks : Q s) : Q (loadKey cls ix key slot s) := by
  unfold loadKey
  exact kweDone_keeps K h_kwe h_ent (putEngKey_keeps K h_engKeys Ks)

theorem updRegion_keeps (K : Keeps P Q) (h_mem : P .mem = true) {r : Nat} {f : Region → Region} {s : State} (Ks : Q s) : Q (updRegion r f s) := by
  unfold updRegion
  exact K.mem h_mem Ks

theorem mcCount_keeps (K : Keeps P Q) (h_mem : P .mem = true) {e sub n : Nat} {s : State} (Ks : Q s) : Q (mcCount e sub n s) := by
  unfold mcCount
  exact K.mem h_mem Ks

theorem readLog_keeps (K : Keeps P Q) (h_rcv : P .rcv = true) (h_icu : P .icu = true) (h_obs : P .obs = true) (h_out : P .out = true) {cls : Nat}
    {x : MemRead} {status cands : Nat} {s : State} (Ks : Q s) : Q (readLog cls x status cands s) := by
  unfold readLog
  exact meLog_keeps K h_rcv h_icu h_obs h_out Ks

end Sys2Proof.Machine
end

