-- ==== Sys2Proof/Laws/KeepsGroups.lean ====
section
/-!
SUPPORT. What the operations of Machine/Groups.lean keep, and which parts they may change (Laws/Keeps.lean).
-/

set_option Elab.async false
namespace Sys2Proof.Machine

variable {P : Part → Bool} {Q : State → Prop}

theorem settleGw_keeps (K : Keeps P Q) (h_link : P .link = true) (h_out : P .out = true) {s : State} (Ks : Q s) : Q (settleGw s) := by
  unfold settleGw
  extract_lets +onlyGivenNames x1
  have Kx1 : ∀ b0 b1, Q b0.1 → Q (x1 b0 b1).1 := by
    intro b2 b3 b4
    unfold x1
    refine Keeps.ite1 b4 ?_
    extract_lets +onlyGivenNames x5
    have Kx5 : Q x5 := b4
    extract_lets +onlyGivenNames x6 x7
    have Kx7 : Q x7 := K.link h_link Kx5
    clear_value x7
    exact Keeps.p1 (State.emit_keeps K h_out Kx7)
  clear_value x1
  exact Keeps.foldl1 (fun b8 b9 h10 => Kx1 _ _ h10) Ks

theorem putGroup_keeps (K : Keeps P Q) (h_link : P .link = true) (h_out : P .out = true) {port sl : Nat} {gsh descs cipher trailer : Bytes}
    {s : State} (Ks : Q s) : Q (putGroup port sl gsh descs cipher trailer s) := by
  unfold putGroup
  exact Keeps.ite (settleGw_keeps K h_link h_out (K.link h_link Ks)) (State.emit_keeps K h_out Ks)

theorem updPort_keeps (K : Keeps P Q) (h_link : P .link = true) {p : Nat} {f : Port → Port} {s : State} (Ks : Q s) : Q (updPort p f s) := by
  unfold updPort
  exact K.link h_link Ks

theorem portCount_keeps (K : Keeps P Q) (h_link : P .link = true) {p sub n : Nat} {s : State} (Ks : Q s) : Q (portCount p sub n s) := by
  unfold portCount
  exact updPort_keeps K h_link Ks

theorem sendPlain_keeps (K : Keeps P Q) (h_link : P .link = true) (h_out : P .out = true) {sl dest : Nat} {payload : Bytes} {s : State} (Ks : Q s)
    : Q (sendPlain sl dest payload s) := by
  unfold sendPlain
  split
  · exact Ks
  · extract_lets +onlyGivenNames x1 x2 x3
    have Kx3 : Q x3 := putGroup_keeps K h_link h_out Ks
    clear_value x3
    exact portCount_keeps K h_link (portCount_keeps K h_link Kx3)

theorem updPair_keeps (K : Keeps P Q) (h_link : P .link = true) {p : Nat} {f : Pair → Pair} {s : State} (Ks : Q s) : Q (updPair p f s) := by
  unfold updPair
  exact K.link h_link Ks

theorem deriveLink_keeps (K : Keeps P Q) (h_engKeys : P .engKeys = true) (h_kwe : P .kwe = true) (h_ent : P .ent = true) {port p epoch : Nat}
    {s : State} (Ks : Q s) : Q (deriveLink port p epoch s) := by
  unfold deriveLink
  exact Keeps.ite (loadKey_keeps K h_engKeys h_kwe h_ent Ks) (kweRefused_keeps K h_kwe Ks)

theorem refreshNext_keeps (K : Keeps P Q) (h_link : P .link = true) {p : Nat} {s : State} (Ks : Q s) : Q (refreshNext p s) := by
  unfold refreshNext
  exact updPair_keeps K h_link Ks

theorem pairToPort_keeps (K : Keeps P Q) (h_engKeys : P .engKeys = true) (h_kwe : P .kwe = true) (h_ent : P .ent = true) (h_link : P .link = true)
    {p port : Nat} {s : State} (Ks : Q s) : Q (pairToPort p port s) := by
  unfold pairToPort
  extract_lets +onlyGivenNames x1
  refine Keeps.ite Ks ?_
  extract_lets +onlyGivenNames x2
  have Kx2 : Q x2 := updPair_keeps K h_link Ks
  clear_value x2
  extract_lets +onlyGivenNames x3
  have Kx3 : Q x3 := by
    unfold x3
    refine Keeps.ite ?_ (deriveLink_keeps K h_engKeys h_kwe h_ent Kx2)
    split
    · exact loadKey_keeps K h_engKeys h_kwe h_ent Kx2
    · exact Kx2
  clear_value x3
  exact refreshNext_keeps K h_link (deriveLink_keeps K h_engKeys h_kwe h_ent Kx3)

theorem updStream_keeps (K : Keeps P Q) (h_link : P .link = true) {e : Nat} {f : Stream → Stream} {s : State} (Ks : Q s) : Q (updStream e f s) := by
  unfold updStream
  exact K.link h_link Ks

theorem sendGroup_keeps (K : Keeps P Q) (h_rcv : P .rcv = true) (h_icu : P .icu = true) (h_obs : P .obs = true) (h_cex : P .cex = true)
    (h_srg : P .srg = true) (h_link : P .link = true) (h_out : P .out = true) {e pkts : Nat} {mark : Bool} {payload descs : Bytes} {s : State} (Ks
    : Q s) : Q (sendGroup e pkts mark payload descs s) := by
  unfold sendGroup
  extract_lets +onlyGivenNames x1 x2 x3 x4 x5 x6 x7 x8
  have Kx8 : Q x8 := putGroup_keeps K h_link h_out Ks
  clear_value x8
  extract_lets +onlyGivenNames x9 x10 x11
  have Kx11 : Q x11 := updStream_keeps K h_link Kx8
  clear_value x11
  extract_lets +onlyGivenNames x12
  have Kx12 : Q x12 := updPair_keeps K h_link Kx11
  clear_value x12
  extract_lets +onlyGivenNames x13
  have Kx13 : Q x13 := portCount_keeps K h_link (portCount_keeps K h_link Kx12)
  clear_value x13
  extract_lets +onlyGivenNames x14
  have Kx14 : Q x14 := updUsage_keeps K h_srg Kx13
  clear_value x14
  exact Keeps.ite (pend_keeps K h_rcv h_icu h_obs h_out (raise_keeps K h_cex Kx14)) Kx14

theorem closeTx_keeps (K : Keeps P Q) (h_rcv : P .rcv = true) (h_icu : P .icu = true) (h_obs : P .obs = true) (h_cex : P .cex = true)
    (h_srg : P .srg = true) (h_link : P .link = true) (h_out : P .out = true) {port e : Nat} {s : State} (Ks : Q s) : Q (closeTx port e s) := by
  unfold closeTx
  split
  · exact Ks
  · exact sendGroup_keeps K h_rcv h_icu h_obs h_cex h_srg h_link h_out (K.link h_link Ks)

theorem sendOwn_keeps (K : Keeps P Q) (h_rcv : P .rcv = true) (h_icu : P .icu = true) (h_obs : P .obs = true) (h_cex : P .cex = true)
    (h_srg : P .srg = true) (h_link : P .link = true) (h_out : P .out = true) {e : Nat} {mark : Bool} {payload : Bytes} {s : State} (Ks : Q s)
    : Q (sendOwn e mark payload s) := by
  unfold sendOwn
  exact sendGroup_keeps K h_rcv h_icu h_obs h_cex h_srg h_link h_out Ks

theorem sendControl_keeps (K : Keeps P Q) (h_rcv : P .rcv = true) (h_icu : P .icu = true) (h_obs : P .obs = true) (h_cex : P .cex = true)
    (h_srg : P .srg = true) (h_link : P .link = true) (h_out : P .out = true) {e : Nat} {mark : Bool} {payload : Bytes} {s : State} (Ks : Q s)
    : Q (sendControl e mark payload s) := by
  unfold sendControl
  extract_lets +onlyGivenNames x1
  have Kx1 : Q x1 := closeTx_keeps K h_rcv h_icu h_obs h_cex h_srg h_link h_out Ks
  clear_value x1
  exact Keeps.ite (K.link h_link Kx1) (sendOwn_keeps K h_rcv h_icu h_obs h_cex h_srg h_link h_out Kx1)

theorem sendFragment_keeps (K : Keeps P Q) (h_rcv : P .rcv = true) (h_icu : P .icu = true) (h_obs : P .obs = true) (h_cex : P .cex = true)
    (h_srg : P .srg = true) (h_link : P .link = true) (h_out : P .out = true) {sl dest type : Nat} {payload : Bytes} {s : State} (Ks : Q s)
    : Q (sendFragment sl dest type payload s) := by
  unfold sendFragment
  refine Keeps.ite (sendPlain_keeps K h_link h_out Ks) ?_
  split
  · exact Keeps.ite (sendControl_keeps K h_rcv h_icu h_obs h_cex h_srg h_link h_out Ks) Ks
  · exact Ks

theorem updDom_keeps (K : Keeps P Q) (h_dom : P .dom = true) {sl : Nat} {f : Dom → Dom} {s : State} (Ks : Q s) : Q (updDom sl f s) := by
  unfold updDom
  exact K.dom h_dom Ks

theorem sendDom_keeps (K : Keeps P Q) (h_rcv : P .rcv = true) (h_icu : P .icu = true) (h_obs : P .obs = true) (h_cex : P .cex = true)
    (h_srg : P .srg = true) (h_link : P .link = true) (h_dom : P .dom = true) (h_out : P .out = true) {sl dest type : Nat} {body : Bytes} {s : State}
    (Ks : Q s) : Q (sendDom sl dest type body s) := by
  unfold sendDom
  extract_lets +onlyGivenNames x1 x2 x3 x4
  have Kx4 : Q x4 := updDom_keeps K h_dom Ks
  clear_value x4
  exact Keeps.foldl (fun b5 b6 h7 => sendFragment_keeps K h_rcv h_icu h_obs h_cex h_srg h_link h_out h7) Kx4

theorem fillStream_keeps (K : Keeps P Q) (h_link : P .link = true) {e p sl peer cls port : Nat} {rx sav : Bool} {s : State} (Ks : Q s)
    : Q (fillStream e p sl peer cls port rx sav s) := by
  unfold fillStream
  extract_lets +onlyGivenNames x1 x2
  exact updStream_keeps K h_link Ks

theorem makePair_keeps (K : Keeps P Q) (h_link : P .link = true) {sl peer : Nat} {rx : Bool} {s : State} (Ks : Q s)
    : Q (makePair sl peer rx s).1 := by
  unfold makePair
  split
  · exact Ks
  · extract_lets +onlyGivenNames x1
    exact Keeps.p1 (updPair_keeps K h_link Ks)

theorem sendRotationMark_keeps (K : Keeps P Q) (h_rcv : P .rcv = true) (h_icu : P .icu = true) (h_obs : P .obs = true) (h_cex : P .cex = true)
    (h_srg : P .srg = true) (h_link : P .link = true) (h_out : P .out = true) {e : Nat} {s : State} (Ks : Q s) : Q (sendRotationMark e s) := by
  unfold sendRotationMark
  exact sendOwn_keeps K h_rcv h_icu h_obs h_cex h_srg h_link h_out (closeTx_keeps K h_rcv h_icu h_obs h_cex h_srg h_link h_out Ks)

theorem keepLinks_keeps (K : Keeps P Q) (h_engKeys : P .engKeys = true) {port p : Nat} {keep : List Nat} {s : State} (Ks : Q s)
    : Q (keepLinks port p keep s) := by
  unfold keepLinks
  exact K.engKeys h_engKeys Ks

theorem openStreams_keeps (K : Keeps P Q) (h_engKeys : P .engKeys = true) (h_kwe : P .kwe = true) (h_ent : P .ent = true) (h_link : P .link = true)
    {sl peer port : Nat} {classes : List Nat} {rx sav : Bool} {s : State} (Ks : Q s) : Q (openStreams sl peer port classes rx sav s).1 := by
  unfold openStreams
  extract_lets +onlyGivenNames x1
  split
  rename_i y2 y3 y4 y5
  have Ky3 : Q y3 := Keeps.fst y5 (makePair_keeps K h_link Ks)
  extract_lets +onlyGivenNames x6
  have Kx6 : Q x6 := pairToPort_keeps K h_engKeys h_kwe h_ent h_link Ky3
  clear_value x6
  exact Keeps.p1 (Keeps.foldl (fun b7 b8 h9 => fillStream_keeps K h_link h9) Kx6)

theorem gatherMsg_keeps (K : Keeps P Q) (h_link : P .link = true) {sl sender : Nat} {plain : Bool} {payload : Bytes} {s : State} (Ks : Q s)
    : Q (gatherMsg sl sender plain payload s) := by
  unfold gatherMsg
  extract_lets +onlyGivenNames x1 x2 x3
  exact Keeps.ite Ks (Keeps.ite (K.link h_link Ks) (K.link h_link Ks))

theorem sliceCount_keeps (K : Keeps P Q) (h_link : P .link = true) {sl sub n : Nat} {s : State} (Ks : Q s) : Q (sliceCount sl sub n s) := by
  unfold sliceCount
  exact K.link h_link Ks

theorem leaveSav_keeps (K : Keeps P Q) (h_link : P .link = true) {port : Nat} {s : State} (Ks : Q s) : Q (leaveSav port s) := by
  unfold leaveSav
  exact Keeps.ite (updPort_keeps K h_link Ks) Ks

end Sys2Proof.Machine
end

