-- ==== Sys2Proof/Laws/KeepsAbort.lean ====
section
/-!
SUPPORT. What the operations of Machine/Abort.lean keep, and which parts they may change (Laws/Keeps.lean).
-/

set_option Elab.async false
namespace Sys2Proof.Machine

variable {P : Part → Bool} {Q : State → Prop}

theorem endTrans_keeps (K : Keeps P Q) (h_ods : P .ods = true) {p : DictTrans → Bool} {s : State} (Ks : Q s) : Q (endTrans p s) := by
  unfold endTrans
  exact K.ods h_ods (LotKept.of_eq rfl) Ks

theorem zeroizeSlots_keeps (K : Keeps P Q) (h_kst : P .kst = true) (h_engKeys : P .engKeys = true) (h_kwe : P .kwe = true) {p : Nat → Slot → Bool}
    {s : State} (Ks : Q s) : Q (zeroizeSlots p s) := by
  unfold zeroizeSlots
  extract_lets +onlyGivenNames x1
  exact K.upd Ks (h_kst := .inr h_kst) (h_engKeys := .inr h_engKeys) (h_kwe := .inr h_kwe)

theorem dropSheaves_keeps (K : Keeps P Q) (h_engKeys : P .engKeys = true) (h_sheaf : P .sheaf = true) {sl : Nat} {s : State} (Ks : Q s)
    : Q (dropSheaves sl s) := by
  unfold dropSheaves
  extract_lets +onlyGivenNames x1
  exact K.upd Ks (h_engKeys := .inr h_engKeys) (h_sheaf := .inr h_sheaf)

theorem restartGate_keeps (K : Keeps P Q) (h_link : P .link = true) (h_ac : P .ac = true) (h_vt : P .vt = true) {sl : Nat} {s : State} (Ks : Q s)
    : Q (restartGate sl s) := by
  unfold restartGate
  extract_lets +onlyGivenNames x1
  exact K.upd Ks (h_link := .inr h_link) (h_ac := .inr h_ac) (h_vt := .inr h_vt)

theorem resetGate_keeps (K : Keeps P Q) (h_link : P .link = true) (h_ac : P .ac = true) (h_vt : P .vt = true) {sl : Nat} {s : State} (Ks : Q s)
    : Q (resetGate sl s) := by
  unfold resetGate
  extract_lets +onlyGivenNames x1
  have Kx1 : Q x1 := restartGate_keeps K h_link h_ac h_vt Ks
  clear_value x1
  exact Keeps.foldl (fun b2 b3 h4 => leaveSav_keeps K h_link h4) (K.link h_link Kx1)

theorem dropStreams_keeps (K : Keeps P Q) (h_engKeys : P .engKeys = true) (h_link : P .link = true) (h_ac : P .ac = true) (h_vt : P .vt = true)
    {sl : Nat} {s : State} (Ks : Q s) : Q (dropStreams sl s) := by
  unfold dropStreams
  extract_lets +onlyGivenNames x1 x2 x3 x4
  have Kx4 : Q x4 := K.upd Ks (h_engKeys := .inr h_engKeys) (h_link := .inr h_link)
  clear_value x4
  exact resetGate_keeps K h_link h_ac h_vt Kx4

theorem freePlough_keeps (K : Keeps P Q) (h_engKeys : P .engKeys = true) (h_mem : P .mem = true) {r : Nat} {s : State} (Ks : Q s)
    : Q (freePlough r s) := by
  unfold freePlough
  split
  · exact Ks
  · extract_lets +onlyGivenNames x1
    have Kx1 : Q x1 := clearKey_keeps K h_engKeys (clearKey_keeps K h_engKeys (clearKey_keeps K h_engKeys Ks))
    clear_value x1
    exact K.mem h_mem Kx1

theorem flushRegion_keeps (K : Keeps P Q) (h_rcv : P .rcv = true) (h_icu : P .icu = true) (h_obs : P .obs = true) (h_cex : P .cex = true)
    (h_mem : P .mem = true) (h_out : P .out = true) {r : Nat} {s : State} (Ks : Q s) : Q (flushRegion r s) := by
  unfold flushRegion
  extract_lets +onlyGivenNames x1 x2 x3 x4
  have Kx4 : Q x4 := dropReads_keeps K h_mem (K.mem h_mem Ks)
  clear_value x4
  extract_lets +onlyGivenNames x5
  have Kx5 : Q x5 := by
    unfold x5
    refine Keeps.foldl ?_ Kx4
    intro b6 b7 h8
    extract_lets +onlyGivenNames x9
    have Kx9 : Q x9 := Keeps.ite (endCorr_keeps K h_mem h_out h8) h8
    clear_value x9
    exact Keeps.ite (poisonRead_keeps K h_rcv h_icu h_obs h_mem h_out Kx9) Kx9
  clear_value x5
  exact Keeps.foldl (fun b10 b11 h12 => dropWrite_keeps K h_rcv h_icu h_obs h_cex h_mem h_out h12) Kx5

theorem regionKeyless_keeps (K : Keeps P Q) (h_rcv : P .rcv = true) (h_icu : P .icu = true) (h_obs : P .obs = true) (h_cex : P .cex = true)
    (h_engKeys : P .engKeys = true) (h_mem : P .mem = true) (h_out : P .out = true) {r : Nat} {s : State} (Ks : Q s) : Q (regionKeyless r s) := by
  unfold regionKeyless
  extract_lets +onlyGivenNames x1
  refine Keeps.ite Ks ?_
  extract_lets +onlyGivenNames x2
  have Kx2 : Q x2 := updRegion_keeps K h_mem Ks
  clear_value x2
  extract_lets +onlyGivenNames x3
  have Kx3 : Q x3 := freePlough_keeps K h_engKeys h_mem (flushRegion_keeps K h_rcv h_icu h_obs h_cex h_mem h_out Kx2)
  clear_value x3
  exact Keeps.foldl (fun b4 b5 h6 => Keeps.ite (raise_keeps K h_cex h6) h6) Kx3

theorem regionsKeyless_keeps (K : Keeps P Q) (h_rcv : P .rcv = true) (h_icu : P .icu = true) (h_obs : P .obs = true) (h_cex : P .cex = true)
    (h_engKeys : P .engKeys = true) (h_mem : P .mem = true) (h_out : P .out = true) {sl : Nat} {s : State} (Ks : Q s) : Q (regionsKeyless sl s) := by
  unfold regionsKeyless
  exact Keeps.foldl (fun b1 b2 h3 => regionKeyless_keeps K h_rcv h_icu h_obs h_cex h_engKeys h_mem h_out h3) Ks

theorem zeroizeSlice_keeps (K : Keeps P Q) (h_rcv : P .rcv = true) (h_icu : P .icu = true) (h_obs : P .obs = true) (h_cex : P .cex = true)
    (h_kst : P .kst = true) (h_engKeys : P .engKeys = true) (h_kwe : P .kwe = true) (h_pke : P .pke = true) (h_mem : P .mem = true)
    (h_link : P .link = true) (h_sheaf : P .sheaf = true) (h_ac : P .ac = true) (h_vt : P .vt = true) (h_out : P .out = true) {sl : Nat} {s : State}
    (Ks : Q s) : Q (zeroizeSlice sl s) := by
  unfold zeroizeSlice
  extract_lets +onlyGivenNames x1
  have Kx1 : Q x1 := zeroizeSlots_keeps K h_kst h_engKeys h_kwe Ks
  clear_value x1
  extract_lets +onlyGivenNames x2 x3 x4
  have Kx4 : Q x4 := K.upd Kx1 (h_cex := .inr h_cex) (h_kwe := .inr h_kwe) (h_pke := .inr h_pke)
  clear_value x4
  extract_lets +onlyGivenNames x5 x6
  have Kx6 : Q x6 := K.mem h_mem Kx4
  clear_value x6
  exact dropSheaves_keeps K h_engKeys h_sheaf (dropStreams_keeps K h_engKeys h_link h_ac h_vt (regionsKeyless_keeps K h_rcv h_icu h_obs h_cex h_engKeys h_mem h_out Kx6))

theorem openControl_keeps (K : Keeps P Q) (h_engKeys : P .engKeys = true) (h_kwe : P .kwe = true) (h_ent : P .ent = true) (h_link : P .link = true)
    {sl m : Nat} {s : State} (Ks : Q s) : Q (openControl sl m s) := by
  unfold openControl
  split
  · exact Ks
  · exact Keeps.ite Ks (openStreams_keeps K h_engKeys h_kwe h_ent h_link Ks)

theorem relay_keeps (K : Keeps P Q) (h_rcv : P .rcv = true) (h_icu : P .icu = true) (h_obs : P .obs = true) (h_cex : P .cex = true)
    (h_srg : P .srg = true) (h_engKeys : P .engKeys = true) (h_kwe : P .kwe = true) (h_ent : P .ent = true) (h_link : P .link = true)
    (h_dom : P .dom = true) (h_out : P .out = true) {sl cause origin detail : Nat} {came : Option Nat} {s : State} (Ks : Q s)
    : Q (relay sl cause origin detail came s) := by
  unfold relay
  extract_lets +onlyGivenNames x1
  refine Keeps.ite Ks ?_
  extract_lets +onlyGivenNames x2
  have Kx2 : Q x2 := updDom_keeps K h_dom Ks
  clear_value x2
  extract_lets +onlyGivenNames x3 x4
  exact Keeps.foldl (fun b5 b6 h7 => sendDom_keeps K h_rcv h_icu h_obs h_cex h_srg h_link h_dom h_out (openControl_keeps K h_engKeys h_kwe h_ent h_link h7)) Kx2

theorem updDomLive_keeps (K : Keeps P Q) (h_pins : P .pins = true) {s : State} (Ks : Q s) : Q (updDomLive s) := by
  unfold updDomLive
  exact K.pins h_pins Ks

theorem setDomState_keeps (K : Keeps P Q) (h_cex : P .cex = true) (h_mem : P .mem = true) (h_link : P .link = true) (h_dom : P .dom = true)
    (h_pins : P .pins = true) (h_ac : P .ac = true) (h_vt : P .vt = true) {sl st : Nat} {s : State} (Ks : Q s) : Q (setDomState sl st s) := by
  unfold setDomState
  extract_lets +onlyGivenNames x1
  have Kx1 : Q x1 := updDomLive_keeps K h_pins (updDom_keeps K h_dom Ks)
  clear_value x1
  extract_lets +onlyGivenNames x2
  have Kx2 : Q x2 := restartGate_keeps K h_link h_ac h_vt Kx1
  clear_value x2
  extract_lets +onlyGivenNames x3 x4 x5 x6
  have Kx6 : Q x6 := Keeps.ite (K.upd Kx2 (h_cex := .inr h_cex) (h_mem := .inr h_mem)) Kx1
  clear_value x6
  exact raise_keeps K h_cex Kx6

theorem forget_keeps (K : Keeps P Q) (h_cex : P .cex = true) {ks : List CmdKey} {s : State} (Ks : Q s) : Q (forget ks s) := by
  unfold forget
  exact K.cex h_cex Ks

theorem endAll_keeps (K : Keeps P Q) (h_cex : P .cex = true) {ks : List CmdKey} {status detail : Nat} {s : State} (Ks : Q s)
    : Q (endAll ks status detail s) := by
  unfold endAll
  exact forget_keeps K h_cex (Keeps.foldl (fun b1 b2 h3 => finish_keeps K h_cex h3) Ks)

theorem abortSlice_keeps (K : Keeps P Q) (h_rcv : P .rcv = true) (h_icu : P .icu = true) (h_obs : P .obs = true) (h_cex : P .cex = true)
    (h_srg : P .srg = true) (h_ods : P .ods = true) (h_kst : P .kst = true) (h_engKeys : P .engKeys = true) (h_kwe : P .kwe = true)
    (h_pke : P .pke = true) (h_ent : P .ent = true) (h_mem : P .mem = true) (h_link : P .link = true) (h_sheaf : P .sheaf = true)
    (h_dom : P .dom = true) (h_pins : P .pins = true) (h_ac : P .ac = true) (h_vt : P .vt = true) (h_out : P .out = true)
    {sl cause origin detail : Nat} {came : Option Nat} {but : Option CmdKey} {s : State} (Ks : Q s)
    : Q (abortSlice sl cause origin detail came but s) := by
  unfold abortSlice
  extract_lets +onlyGivenNames x1
  refine Keeps.ite Ks ?_
  extract_lets +onlyGivenNames x2 x3
  have Kx3 : Q x3 := endTrans_keeps K h_ods (relay_keeps K h_rcv h_icu h_obs h_cex h_srg h_engKeys h_kwe h_ent h_link h_dom h_out (setDomState_keeps K h_cex h_mem h_link h_dom h_pins h_ac h_vt Ks))
  clear_value x3
  extract_lets +onlyGivenNames x4 x5
  have Kx5 : Q x5 := endAll_keeps K h_cex (zeroizeSlice_keeps K h_rcv h_icu h_obs h_cex h_kst h_engKeys h_kwe h_pke h_mem h_link h_sheaf h_ac h_vt h_out Kx3)
  clear_value x5
  extract_lets +onlyGivenNames x6
  have Kx6 : Q x6 := updDom_keeps K h_dom Kx5
  clear_value x6
  extract_lets +onlyGivenNames x7
  have Kx7 : Q x7 := raise_keeps K h_cex Kx6
  clear_value x7
  extract_lets +onlyGivenNames x8
  have Kx8 : Q x8 := Keeps.ite Kx7 (pend_keeps K h_rcv h_icu h_obs h_out (logError_keeps K h_rcv h_icu h_obs h_out Kx7))
  clear_value x8
  exact setDomState_keeps K h_cex h_mem h_link h_dom h_pins h_ac h_vt Kx8

theorem originate_keeps (K : Keeps P Q) (h_rcv : P .rcv = true) (h_icu : P .icu = true) (h_obs : P .obs = true) (h_cex : P .cex = true)
    (h_srg : P .srg = true) (h_ods : P .ods = true) (h_kst : P .kst = true) (h_engKeys : P .engKeys = true) (h_kwe : P .kwe = true)
    (h_pke : P .pke = true) (h_ent : P .ent = true) (h_mem : P .mem = true) (h_link : P .link = true) (h_sheaf : P .sheaf = true)
    (h_dom : P .dom = true) (h_pins : P .pins = true) (h_ac : P .ac = true) (h_vt : P .vt = true) (h_out : P .out = true) {sl cause detail : Nat}
    {s : State} (Ks : Q s) : Q (originate sl cause detail s) := by
  unfold originate
  exact abortSlice_keeps K h_rcv h_icu h_obs h_cex h_srg h_ods h_kst h_engKeys h_kwe h_pke h_ent h_mem h_link h_sheaf h_dom h_pins h_ac h_vt h_out Ks

theorem admitDom_keeps (K : Keeps P Q) (h_dom : P .dom = true) {sl : Nat} {h : DomHdr} {s : State} {f : State → State} (Ks : Q s)
    (Kf : ∀ b0, Q b0 → Q (f b0)) : Q (admitDom sl h s f) := by
  unfold admitDom
  exact Keeps.ite (Kf _ (updDom_keeps K h_dom Ks)) Ks

theorem fromInbox_keeps (K : Keeps P Q) (h_link : P .link = true) {sl : Nat} {h : DomHdr} {type : Nat} {body : Bytes} {s : State} {f : State → State}
    (Ks : Q s) (Kf : ∀ b0, Q b0 → Q (f b0)) : Q (fromInbox sl h type body s f) := by
  unfold fromInbox
  extract_lets +onlyGivenNames x1
  exact Keeps.ite (Kf _ (K.link h_link Ks)) Ks

theorem takeDom_keeps (K : Keeps P Q) (h_link : P .link = true) (h_dom : P .dom = true) {sl : BitVec 4} {h : DomHdr} {type : Nat} {body : Bytes}
    {s : State} {f : State → State} (Ks : Q s) (Kf : ∀ b0, Q b0 → Q (f b0)) : Q (takeDom sl h type body s f) := by
  unfold takeDom
  exact fromInbox_keeps K h_link Ks (fun b1 h2 => admitDom_keeps K h_dom h2 (fun b3 h4 => Kf _ h4))

theorem abortRegion_keeps (K : Keeps P Q) (h_rcv : P .rcv = true) (h_icu : P .icu = true) (h_obs : P .obs = true) (h_cex : P .cex = true)
    (h_srg : P .srg = true) (h_ods : P .ods = true) (h_kst : P .kst = true) (h_engKeys : P .engKeys = true) (h_kwe : P .kwe = true)
    (h_pke : P .pke = true) (h_ent : P .ent = true) (h_mem : P .mem = true) (h_link : P .link = true) (h_sheaf : P .sheaf = true)
    (h_dom : P .dom = true) (h_pins : P .pins = true) (h_ac : P .ac = true) (h_vt : P .vt = true) (h_out : P .out = true) {r cause detail : Nat}
    {s : State} (Ks : Q s) : Q (abortRegion r cause detail s) := by
  unfold abortRegion
  extract_lets +onlyGivenNames x1
  exact Keeps.foldl (fun b2 b3 h4 => originate_keeps K h_rcv h_icu h_obs h_cex h_srg h_ods h_kst h_engKeys h_kwe h_pke h_ent h_mem h_link h_sheaf h_dom h_pins h_ac h_vt h_out h4) Ks

end Sys2Proof.Machine
end

