-- ==== Sys2Proof/Laws/KeepsSheafOps.lean ====
section
/-!
SUPPORT. What the operations of Machine/SheafOps.lean keep, and which parts they may change (Laws/Keeps.lean).
-/

set_option Elab.async false
namespace Sys2Proof.Machine

variable {P : Part → Bool} {Q : State → Prop}

theorem endSheaf_keeps (K : Keeps P Q) (h_cex : P .cex = true) (h_engKeys : P .engKeys = true) (h_ent : P .ent = true) (h_sheaf : P .sheaf = true)
    (h_free : P .free = true) (h_out : P .out = true) {k : Nat} {s : State} (Ks : Q s) : Q (endSheaf k s) := by
  unfold endSheaf
  extract_lets +onlyGivenNames x1
  split
  · exact Ks
  · extract_lets +onlyGivenNames x2 x3 x4 x5 x6 x7 x8
    split
    rename_i y9 y10 y11 y12
    have Ky11 : Q y11 := Keeps.snd y12 (drbgBits_keeps K h_ent h_free Ks)
    extract_lets +onlyGivenNames x13
    have Kx13 : Q x13 := State.emit_keeps K h_out Ky11
    clear_value x13
    extract_lets +onlyGivenNames x14 x15
    have Kx15 : Q x15 := clearKey_keeps K h_engKeys (K.sheaf h_sheaf Kx13)
    clear_value x15
    exact finish_keeps K h_cex Kx15

theorem settleSheaves_keeps (K : Keeps P Q) (h_cex : P .cex = true) (h_engKeys : P .engKeys = true) (h_ent : P .ent = true)
    (h_sheaf : P .sheaf = true) (h_free : P .free = true) (h_out : P .out = true) {s : State} (Ks : Q s) : Q (settleSheaves s) := by
  unfold settleSheaves
  exact Keeps.foldl (fun b1 b2 h3 => endSheaf_keeps K h_cex h_engKeys h_ent h_sheaf h_free h_out h3) Ks

theorem sheafAdd_keeps (K : Keeps P Q) (h_sheaf : P .sheaf = true) {k : Option Nat} {e r off : Nat} {imported : Bool} {l : Line} {s : State} (Ks
    : Q s) : Q (sheafAdd k e r off imported l s) := by
  unfold sheafAdd
  split
  · exact Ks
  · extract_lets +onlyGivenNames x1
    split
    · exact Ks
    · extract_lets +onlyGivenNames x2 x3
      exact K.sheaf h_sheaf Ks

theorem hybridSign_keeps (K : Keeps P Q) (h_ent : P .ent = true) (h_free : P .free = true) {entry : Nat} {label : String} {body : Bytes} {s : State}
    (Ks : Q s) : Q (hybridSign entry label body s).2 := by
  unfold hybridSign
  extract_lets +onlyGivenNames x1
  split
  rename_i y2 y3 y4 y5
  have Ky4 : Q y4 := Keeps.snd y5 (drbgBits_keeps K h_ent h_free Ks)
  split
  rename_i y6 y7 y8 y9
  have Ky8 : Q y8 := Keeps.snd y9 (drbgBits_keeps K h_ent h_free Ky4)
  extract_lets +onlyGivenNames x10 x11
  exact Keeps.p2 (pkeDone_keeps K h_ent (pkeDone_keeps K h_ent Ky8))

end Sys2Proof.Machine
end

