-- ==== Sys2Proof/Laws/KeepsSlots.lean ====
section
/-!
SUPPORT. What the operations of Machine/Slots.lean keep, and which parts they may change (Laws/Keeps.lean).
-/

set_option Elab.async false
namespace Sys2Proof.Machine

variable {P : Part → Bool} {Q : State → Prop}

theorem writeSlot_keeps (K : Keeps P Q) (h_kst : P .kst = true) {n : Nat} {key : BitVec 256} {attr binding : BitVec 64} {wrapId : BitVec 128}
    {s : State} (Ks : Q s) : Q (writeSlot n key attr binding wrapId s) := by
  unfold writeSlot
  exact K.kst h_kst Ks

end Sys2Proof.Machine
end

