-- ==== Sys2Proof/Laws/KeepsDomainOps.lean ====
section
/-!
SUPPORT. What the operations of Machine/DomainOps.lean keep, and which parts they may change (Laws/Keeps.lean).
-/

set_option Elab.async false
namespace Sys2Proof.Machine

variable {P : Part → Bool} {Q : State → Prop}

theorem openEdge_keeps (K : Keeps P Q) (h_engKeys : P .engKeys = true) (h_kwe : P .kwe = true) (h_ent : P .ent = true) (h_link : P .link = true)
    {sl peer : Nat} {rx : Bool} {key : BitVec 256} {s : State} (Ks : Q s) : Q (openEdge sl peer rx key s) := by
  unfold openEdge
  split
  · exact Ks
  · refine Keeps.ite Ks ?_
    extract_lets +onlyGivenNames x1
    split
    rename_i y2 y3 y4 y5
    have Ky3 : Q y3 := Keeps.fst y5 (makePair_keeps K h_link Ks)
    extract_lets +onlyGivenNames x6
    have Kx6 : Q x6 := updPair_keeps K h_link Ky3
    clear_value x6
    extract_lets +onlyGivenNames x7
    have Kx7 : Q x7 := loadKey_keeps K h_engKeys h_kwe h_ent Kx6
    clear_value x7
    exact updStream_keeps K h_link Kx7

theorem openEdges_keeps (K : Keeps P Q) (h_engKeys : P .engKeys = true) (h_kwe : P .kwe = true) (h_ent : P .ent = true) (h_link : P .link = true)
    {sl me peer : Nat} {hs : BitVec 256} {s : State} (Ks : Q s) : Q (openEdges sl me peer hs s) := by
  unfold openEdges
  extract_lets +onlyGivenNames x1
  exact openEdge_keeps K h_engKeys h_kwe h_ent h_link (openEdge_keeps K h_engKeys h_kwe h_ent h_link Ks)

theorem extendSmr_keeps (K : Keeps P Q) (h_atu : P .atu = true) {i : Nat} {d : BitVec 384} {s : State} (Ks : Q s) : Q (extendSmr i d s) := by
  unfold extendSmr
  exact K.atu h_atu Ks

theorem zeroizeSlot_keeps (K : Keeps P Q) (h_kst : P .kst = true) (h_engKeys : P .engKeys = true) (h_kwe : P .kwe = true) {n : Nat} {s : State} (Ks
    : Q s) : Q (zeroizeSlot n s) := by
  unfold zeroizeSlot
  exact zeroizeSlots_keeps K h_kst h_engKeys h_kwe Ks

theorem cacheCerts_keeps (K : Keeps P Q) (h_dom : P .dom = true) {cs : List Bytes} {s : State} (Ks : Q s) : Q (cacheCerts cs s) := by
  unfold cacheCerts
  exact K.dom h_dom Ks

theorem checkEvidenceOf_keeps (K : Keeps P Q) (h_ent : P .ent = true) (h_dom : P .dom = true) {listed : Bool} {sl sender : Nat}
    {policy nonce e : Bytes} {certs : List Bytes} {s : State} (Ks : Q s) : Q (checkEvidenceOf listed sl sender policy nonce e certs s).2 := by
  unfold checkEvidenceOf
  extract_lets +onlyGivenNames x1
  refine Keeps.ite2 Ks ?_
  refine Keeps.ite2 Ks ?_
  split
  · extract_lets +onlyGivenNames x2 x3 x4 x5 x6
    have Kx6 : Q x6 := K.upd Ks (h_ent := .inr h_ent) (h_dom := .inr h_dom)
    clear_value x6
    refine Keeps.ite2 Kx6 ?_
    extract_lets +onlyGivenNames x7
    refine Keeps.ite2 (Keeps.p2 (cacheCerts_keeps K h_dom Kx6)) ?_
    extract_lets +onlyGivenNames x8
    have Kx8 : Q x8 := pkeDone_keeps K h_ent (pkeDone_keeps K h_ent (cacheCerts_keeps K h_dom Kx6))
    clear_value x8
    exact Keeps.ite2 Kx8 Kx8
  · exact Ks

theorem checkEvidence_keeps (K : Keeps P Q) (h_ent : P .ent = true) (h_dom : P .dom = true) {sl sender : Nat} {policy nonce e : Bytes}
    {certs : List Bytes} {s : State} (Ks : Q s) : Q (checkEvidence sl sender policy nonce e certs s).2 := by
  unfold checkEvidence
  exact checkEvidenceOf_keeps K h_ent h_dom Ks

theorem putKey_keeps (K : Keeps P Q) (h_kst : P .kst = true) (h_kwe : P .kwe = true) (h_ent : P .ent = true) {sl ctx n origin : Nat} {zoa : Bool}
    {key : BitVec 256} {wrapId : BitVec 128} {s : State} (Ks : Q s) : Q (putKey sl ctx n origin zoa key wrapId s) := by
  unfold putKey
  exact kweDone_keeps K h_kwe h_ent (writeSlot_keeps K h_kst Ks)

theorem closeEdge_keeps (K : Keeps P Q) (h_engKeys : P .engKeys = true) (h_link : P .link = true) {sl peer : Nat} {s : State} (Ks : Q s)
    : Q (closeEdge sl peer s) := by
  unfold closeEdge
  extract_lets +onlyGivenNames x1 x2
  exact K.upd Ks (h_engKeys := .inr h_engKeys) (h_link := .inr h_link)

theorem signed_keeps (K : Keeps P Q) (h_ent : P .ent = true) (h_free : P .free = true) {label : String} {body : Bytes} {s : State} (Ks : Q s)
    : Q (signed label body s).2 := by
  unfold signed
  split
  rename_i y1 y2 y3 y4
  have Ky3 : Q y3 := Keeps.snd y4 (hybridSign_keeps K h_ent h_free Ks)
  exact Ky3

theorem dlkEdge_keeps (K : Keeps P Q) (h_engKeys : P .engKeys = true) (h_kwe : P .kwe = true) (h_ent : P .ent = true) (h_link : P .link = true)
    {sl peer : Nat} {rx : Bool} {s : State} (Ks : Q s) : Q (dlkEdge sl peer rx s) := by
  unfold dlkEdge
  split
  · exact Keeps.ite (refreshNext_keeps K h_link (Keeps.foldl (fun b1 b2 h3 => deriveLink_keeps K h_engKeys h_kwe h_ent h3) Ks)) Ks
  · exact Ks

theorem extendMr_keeps (K : Keeps P Q) (h_atu : P .atu = true) {i : Nat} {d : BitVec 384} {s : State} (Ks : Q s) : Q (extendMr i d s) := by
  unfold extendMr
  exact K.atu h_atu Ks

end Sys2Proof.Machine
end

