-- ==== Sys2Proof/Laws/KeepsKeyOps.lean ====
section
/-!
SUPPORT. What the operations of Machine/KeyOps.lean keep, and which parts they may change (Laws/Keeps.lean).
-/

set_option Elab.async false
namespace Sys2Proof.Machine

variable {P : Part → Bool} {Q : State → Prop}

theorem loadRegionKeys_keeps (K : Keeps P Q) (h_engKeys : P .engKeys = true) (h_kwe : P .kwe = true) (h_ent : P .ent = true) {ix d w t : Nat}
    {s : State} (Ks : Q s) : Q (loadRegionKeys ix d w t s) := by
  unfold loadRegionKeys
  exact loadKey_keeps K h_engKeys h_kwe h_ent (loadKey_keeps K h_engKeys h_kwe h_ent (loadKey_keeps K h_engKeys h_kwe h_ent Ks))

theorem clearRegionKeys_keeps (K : Keeps P Q) (h_engKeys : P .engKeys = true) {ix : Nat} {s : State} (Ks : Q s) : Q (clearRegionKeys ix s) := by
  unfold clearRegionKeys
  exact clearKey_keeps K h_engKeys (clearKey_keeps K h_engKeys (clearKey_keeps K h_engKeys Ks))

end Sys2Proof.Machine
end

