-- ==== Sys2Proof/Laws/KeepsTree.lean ====
section
/-!
SUPPORT. What the operations of Machine/Tree.lean keep, and which parts they may change (Laws/Keeps.lean).
-/

set_option Elab.async false
namespace Sys2Proof.Machine

variable {P : Part → Bool} {Q : State → Prop}

theorem updParent_keeps (K : Keeps P Q) (h_mem : P .mem = true) {r level i : Nat} {f : CLine → CLine} {s : State} (Ks : Q s)
    : Q (updParent r level i f s) := by
  unfold updParent
  extract_lets +onlyGivenNames x1
  exact Keeps.ite (updPlough_keeps K h_mem Ks) (K.mem h_mem Ks)

theorem addScrub_keeps (K : Keeps P Q) (h_mem : P .mem = true) {r level i : Nat} {mirror newer : Bool} {v : Nat} {s : State} (Ks : Q s)
    : Q (addScrub r level i mirror newer v s) := by
  unfold addScrub
  extract_lets +onlyGivenNames x1
  exact Keeps.ite Ks (startRead_keeps K h_mem (dropScrubs_keeps K h_mem Ks))

theorem touch_keeps (K : Keeps P Q) (h_mem : P .mem = true) {r level i : Nat} {s : State} (Ks : Q s) : Q (touch r level i s) := by
  unfold touch
  exact K.mem h_mem Ks

theorem touchPath_keeps (K : Keeps P Q) (h_mem : P .mem = true) {r level i : Nat} {s : State} (Ks : Q s) : Q (touchPath r level i s) := by
  unfold touchPath
  exact Keeps.foldl (fun b1 b2 h3 => touch_keeps K h_mem h3) Ks

theorem goFallow_keeps (K : Keeps P Q) (h_rcv : P .rcv = true) (h_icu : P .icu = true) (h_obs : P .obs = true) (h_cex : P .cex = true)
    (h_srg : P .srg = true) (h_ods : P .ods = true) (h_kst : P .kst = true) (h_engKeys : P .engKeys = true) (h_kwe : P .kwe = true)
    (h_pke : P .pke = true) (h_ent : P .ent = true) (h_mem : P .mem = true) (h_link : P .link = true) (h_sheaf : P .sheaf = true)
    (h_dom : P .dom = true) (h_pins : P .pins = true) (h_ac : P .ac = true) (h_vt : P .vt = true) (h_out : P .out = true)
    {cause failed first cnt r e anchor : Nat} {s : State} (Ks : Q s) : Q (goFallow cause failed first cnt r e anchor s) := by
  unfold goFallow
  extract_lets +onlyGivenNames x1 x2 x3
  refine Keeps.ite Ks ?_
  refine Keeps.ite (abortRegion_keeps K h_rcv h_icu h_obs h_cex h_srg h_ods h_kst h_engKeys h_kwe h_pke h_ent h_mem h_link h_sheaf h_dom h_pins h_ac h_vt h_out Ks) ?_
  extract_lets +onlyGivenNames x4
  split
  · extract_lets +onlyGivenNames x5 x6
    have Kx6 : Q x6 := logError_keeps K h_rcv h_icu h_obs h_out (K.mem h_mem Ks)
    clear_value x6
    exact abortRegion_keeps K h_rcv h_icu h_obs h_cex h_srg h_ods h_kst h_engKeys h_kwe h_pke h_ent h_mem h_link h_sheaf h_dom h_pins h_ac h_vt h_out Kx6
  · extract_lets +onlyGivenNames x7 x8 x9
    have Kx9 : Q x9 := pend_keeps K h_rcv h_icu h_obs h_out (K.mem h_mem Ks)
    clear_value x9
    extract_lets +onlyGivenNames x10
    have Kx10 : Q x10 := raise_keeps K h_cex Kx9
    clear_value x10
    exact abortRegion_keeps K h_rcv h_icu h_obs h_cex h_srg h_ods h_kst h_engKeys h_kwe h_pke h_ent h_mem h_link h_sheaf h_dom h_pins h_ac h_vt h_out Kx10

theorem counterLost_keeps (K : Keeps P Q) (h_rcv : P .rcv = true) (h_icu : P .icu = true) (h_obs : P .obs = true) (h_cex : P .cex = true)
    (h_srg : P .srg = true) (h_ods : P .ods = true) (h_kst : P .kst = true) (h_engKeys : P .engKeys = true) (h_kwe : P .kwe = true)
    (h_pke : P .pke = true) (h_ent : P .ent = true) (h_mem : P .mem = true) (h_link : P .link = true) (h_sheaf : P .sheaf = true)
    (h_dom : P .dom = true) (h_pins : P .pins = true) (h_ac : P .ac = true) (h_vt : P .vt = true) (h_out : P .out = true) {x : MemRead}
    {anchor tried : Nat} {s : State} (Ks : Q s) : Q (counterLost x anchor tried s) := by
  unfold counterLost
  extract_lets +onlyGivenNames x1 x2 x3 x4
  have Kx4 : Q x4 := pend_keeps K h_rcv h_icu h_obs h_out (meCount_keeps K h_mem (readLog_keeps K h_rcv h_icu h_obs h_out (dropRead_keeps K h_mem Ks)))
  clear_value x4
  exact goFallow_keeps K h_rcv h_icu h_obs h_cex h_srg h_ods h_kst h_engKeys h_kwe h_pke h_ent h_mem h_link h_sheaf h_dom h_pins h_ac h_vt h_out Kx4

theorem fetchMirror_keeps (K : Keeps P Q) (h_mem : P .mem = true) {r level i anchor : Nat} {s : State} (Ks : Q s)
    : Q (fetchMirror r level i anchor s) := by
  unfold fetchMirror
  exact startRead_keeps K h_mem Ks

theorem counterGone_keeps (K : Keeps P Q) (h_rcv : P .rcv = true) (h_icu : P .icu = true) (h_obs : P .obs = true) (h_cex : P .cex = true)
    (h_srg : P .srg = true) (h_ods : P .ods = true) (h_kst : P .kst = true) (h_engKeys : P .engKeys = true) (h_kwe : P .kwe = true)
    (h_pke : P .pke = true) (h_ent : P .ent = true) (h_mem : P .mem = true) (h_link : P .link = true) (h_sheaf : P .sheaf = true)
    (h_dom : P .dom = true) (h_pins : P .pins = true) (h_ac : P .ac = true) (h_vt : P .vt = true) (h_out : P .out = true) {x : MemRead}
    {anchor tried : Nat} {s : State} (Ks : Q s) : Q (counterGone x anchor tried s) := by
  unfold counterGone
  split
  · exact counterLost_keeps K h_rcv h_icu h_obs h_cex h_srg h_ods h_kst h_engKeys h_kwe h_pke h_ent h_mem h_link h_sheaf h_dom h_pins h_ac h_vt h_out Ks
  · exact Keeps.ite (fetchMirror_keeps K h_mem (dropRead_keeps K h_mem Ks)) (counterLost_keeps K h_rcv h_icu h_obs h_cex h_srg h_ods h_kst h_engKeys h_kwe h_pke h_ent h_mem h_link h_sheaf h_dom h_pins h_ac h_vt h_out Ks)

theorem noteRetry_keeps (K : Keeps P Q) (h_rcv : P .rcv = true) (h_icu : P .icu = true) (h_obs : P .obs = true) (h_cex : P .cex = true)
    (h_mem : P .mem = true) (h_out : P .out = true) {x : MemRead} {outcome : Nat} {s : State} (Ks : Q s) : Q (noteRetry x outcome s) := by
  unfold noteRetry
  extract_lets +onlyGivenNames x1 x2 x3 x4 x5
  have Kx5 : Q x5 := readLog_keeps K h_rcv h_icu h_obs h_out (K.mem h_mem Ks)
  clear_value x5
  refine Keeps.ite ?_ Kx5
  extract_lets +onlyGivenNames x6
  exact State.emit_keeps K h_out (raise_keeps K h_cex Kx5)

theorem bumpParent_keeps (K : Keeps P Q) (h_mem : P .mem = true) {c : CLine} {s : State} (Ks : Q s) : KeepsOptP Q (bumpParent c s) := by
  unfold bumpParent
  extract_lets +onlyGivenNames x1
  refine KeepsOptP.ite ?_ ?_
  · extract_lets +onlyGivenNames x2 x3
    exact KeepsOptP.ite trivial (KeepsOptP.of (Keeps.p1 (K.mem h_mem Ks)))
  · extract_lets +onlyGivenNames x4
    split
    · exact trivial
    · exact KeepsOptP.ite trivial (KeepsOptP.of (Keeps.p1 (updParent_keeps K h_mem Ks)))

theorem storeCounter_keeps (K : Keeps P Q) (h_mem : P .mem = true) {c : CLine} {v : Nat} {s : State} (Ks : Q s) : Q (storeCounter c v s) := by
  unfold storeCounter
  extract_lets +onlyGivenNames x1 x2 x3
  have Kx3 : Q x3 := mcCount_keeps K h_mem (mcCount_keeps K h_mem (storeProtected_keeps K h_mem Ks))
  clear_value x3
  refine Keeps.ite ?_ Kx3
  extract_lets +onlyGivenNames x4
  exact mcCount_keeps K h_mem (mcCount_keeps K h_mem (storeProtected_keeps K h_mem Kx3))

theorem evict_keeps (K : Keeps P Q) (h_mem : P .mem = true) {c : CLine} {s : State} (Ks : Q s) : KeepsOpt Q (evict c s) := by
  unfold evict
  extract_lets +onlyGivenNames x1
  have Kx1 : ∀ b0, Q b0 → Q (x1 b0) := by
    intro b2 b3
    unfold x1
    exact K.mem h_mem b3
  clear_value x1
  refine KeepsOpt.ite (KeepsOpt.of (Kx1 _ Ks)) ?_
  split
  · exact trivial
  · rename_i y4 y5 y6 y7
    have Ky5 : Q y5 := KeepsOptP.some (bumpParent_keeps K h_mem Ks) y7
    exact KeepsOpt.of (Kx1 _ (storeCounter_keeps K h_mem Ky5))

theorem fetchLine_keeps (K : Keeps P Q) (h_mem : P .mem = true) {r level i : Nat} {s : State} (Ks : Q s) : Q (fetchLine r level i s) := by
  unfold fetchLine
  refine Keeps.ite Ks ?_
  extract_lets +onlyGivenNames x1
  exact startRead_keeps K h_mem (mcCount_keeps K h_mem Ks)

theorem fetchMissing_keeps (K : Keeps P Q) (h_mem : P .mem = true) {r n : Nat} {s : State} (Ks : Q s) : Q (fetchMissing r n s) := by
  unfold fetchMissing
  exact Keeps.foldl (fun b1 b2 h3 => Keeps.ite h3 (fetchLine_keeps K h_mem h3)) Ks

theorem raiseExhausted_keeps (K : Keeps P Q) (h_rcv : P .rcv = true) (h_icu : P .icu = true) (h_obs : P .obs = true) (h_cex : P .cex = true)
    (h_mem : P .mem = true) (h_out : P .out = true) {r off : Nat} {s : State} (Ks : Q s) : Q (raiseExhausted r off s) := by
  unfold raiseExhausted
  exact raise_keeps K h_cex (pend_keeps K h_rcv h_icu h_obs h_out (updRegion_keeps K h_mem Ks))

theorem noteBlocked_keeps (K : Keeps P Q) (h_rcv : P .rcv = true) (h_icu : P .icu = true) (h_obs : P .obs = true) (h_cex : P .cex = true)
    (h_mem : P .mem = true) (h_out : P .out = true) {ls : List CLine} {s : State} (Ks : Q s) : Q (noteBlocked ls s) := by
  unfold noteBlocked
  exact Keeps.foldl (fun b1 b2 h3 => Keeps.ite (raiseExhausted_keeps K h_rcv h_icu h_obs h_cex h_mem h_out h3) h3) Ks

theorem makeRoom_keeps (K : Keeps P Q) (h_rcv : P .rcv = true) (h_icu : P .icu = true) (h_obs : P .obs = true) (h_cex : P .cex = true)
    (h_mem : P .mem = true) (h_out : P .out = true) {keep : CLine → Bool} {a a2 a3 a4 a5 : Nat} {a6 : State} (Ka6 : Q a6)
    : Q (makeRoom keep a a2 a3 a4 a5 a6).1 := by
  induction a generalizing keep a2 a3 a4 a5 a6 with
  | zero =>
    unfold makeRoom
    exact Ka6
  | succ n ih =>
    unfold makeRoom
    extract_lets +onlyGivenNames x1
    refine Keeps.ite1 Ka6 ?_
    split
    · exact Keeps.p1 (noteBlocked_keeps K h_rcv h_icu h_obs h_cex h_mem h_out Ka6)
    · split
      · exact Ka6
      · rename_i y2 y3 y4
        have Ky3 : Q y3 := KeepsOpt.some (evict_keeps K h_mem Ka6) y4
        exact ih Ky3

theorem tagFailed_keeps (K : Keeps P Q) (h_rcv : P .rcv = true) (h_icu : P .icu = true) (h_obs : P .obs = true) (h_cex : P .cex = true)
    (h_srg : P .srg = true) (h_ods : P .ods = true) (h_kst : P .kst = true) (h_engKeys : P .engKeys = true) (h_kwe : P .kwe = true)
    (h_pke : P .pke = true) (h_ent : P .ent = true) (h_mem : P .mem = true) (h_link : P .link = true) (h_sheaf : P .sheaf = true)
    (h_dom : P .dom = true) (h_pins : P .pins = true) (h_ac : P .ac = true) (h_vt : P .vt = true) (h_out : P .out = true) {x : MemRead} {status : Nat}
    {s : State} (Ks : Q s) : Q (tagFailed x status s) := by
  unfold tagFailed
  extract_lets +onlyGivenNames x1 x2
  have Kx2 : Q x2 := Keeps.ite (poisonRead_keeps K h_rcv h_icu h_obs h_mem h_out Ks) (readLog_keeps K h_rcv h_icu h_obs h_out (dropRead_keeps K h_mem Ks))
  clear_value x2
  extract_lets +onlyGivenNames x3
  have Kx3 : Q x3 := Keeps.ite Kx2 (pend_keeps K h_rcv h_icu h_obs h_out Kx2)
  clear_value x3
  exact abortRegion_keeps K h_rcv h_icu h_obs h_cex h_srg h_ods h_kst h_engKeys h_kwe h_pke h_ent h_mem h_link h_sheaf h_dom h_pins h_ac h_vt h_out (meCount_keeps K h_mem Kx3)

theorem install_keeps (K : Keeps P Q) (h_rcv : P .rcv = true) (h_icu : P .icu = true) (h_obs : P .obs = true) (h_cex : P .cex = true)
    (h_mem : P .mem = true) (h_out : P .out = true) {c : CLine} {s : State} (Ks : Q s) : Q (install c s).1 := by
  unfold install
  refine Keeps.ite1 Ks ?_
  extract_lets +onlyGivenNames x1
  split
  · rename_i y2 y3 y4
    have Ky3 : Q y3 := Keeps.fst y4 (makeRoom_keeps K h_rcv h_icu h_obs h_cex h_mem h_out Ks)
    exact Ky3
  · rename_i y5 y6 y7
    have Ky6 : Q y6 := Keeps.fst y7 (makeRoom_keeps K h_rcv h_icu h_obs h_cex h_mem h_out Ks)
    exact Keeps.p1 (touchPath_keeps K h_mem (K.mem h_mem Ky6))

theorem restorePrimary_keeps (K : Keeps P Q) (h_rcv : P .rcv = true) (h_icu : P .icu = true) (h_obs : P .obs = true) (h_cex : P .cex = true)
    (h_mem : P .mem = true) (h_out : P .out = true) {x : MemRead} {c : CLine} {v : Nat} {s : State} (Ks : Q s) : Q (restorePrimary x c v s) := by
  unfold restorePrimary
  extract_lets +onlyGivenNames x1 x2
  have Kx2 : Q x2 := mcCount_keeps K h_mem (storeProtected_keeps K h_mem Ks)
  clear_value x2
  extract_lets +onlyGivenNames x3
  have Kx3 : Q x3 := mcCount_keeps K h_mem (meLog_keeps K h_rcv h_icu h_obs h_out Kx2)
  clear_value x3
  exact addScrub_keeps K h_mem (pend_keeps K h_rcv h_icu h_obs h_out (raise_keeps K h_cex Kx3))

theorem takeCounter_keeps (K : Keeps P Q) (h_rcv : P .rcv = true) (h_icu : P .icu = true) (h_obs : P .obs = true) (h_cex : P .cex = true)
    (h_srg : P .srg = true) (h_ods : P .ods = true) (h_kst : P .kst = true) (h_engKeys : P .engKeys = true) (h_kwe : P .kwe = true)
    (h_pke : P .pke = true) (h_ent : P .ent = true) (h_mem : P .mem = true) (h_link : P .link = true) (h_sheaf : P .sheaf = true)
    (h_dom : P .dom = true) (h_pins : P .pins = true) (h_ac : P .ac = true) (h_vt : P .vt = true) (h_out : P .out = true) {x : MemRead} {v : Nat}
    {c : Line} {status : Nat} {s : State} (Ks : Q s) : Q (takeCounter x v c status s).1 := by
  unfold takeCounter
  split
  · exact Keeps.p1 (tagFailed_keeps K h_rcv h_icu h_obs h_cex h_srg h_ods h_kst h_engKeys h_kwe h_pke h_ent h_mem h_link h_sheaf h_dom h_pins h_ac h_vt h_out Ks)
  · split
    · rename_i y1 y2 y3
      have Ky2 : Q y2 := Keeps.fst y3 (install_keeps K h_rcv h_icu h_obs h_cex h_mem h_out Ks)
      exact Ky2
    · rename_i y4 y5 y6
      have Ky5 : Q y5 := Keeps.fst y6 (install_keeps K h_rcv h_icu h_obs h_cex h_mem h_out Ks)
      extract_lets +onlyGivenNames x7
      have Kx7 : Q x7 := dropRead_keeps K h_mem Ky5
      clear_value x7
      refine Keeps.p1 ?_
      split
      · exact restorePrimary_keeps K h_rcv h_icu h_obs h_cex h_mem h_out Kx7
      · exact Kx7

theorem dueFailed_keeps (K : Keeps P Q) (h_rcv : P .rcv = true) (h_icu : P .icu = true) (h_obs : P .obs = true) (h_cex : P .cex = true)
    (h_srg : P .srg = true) (h_ods : P .ods = true) (h_kst : P .kst = true) (h_engKeys : P .engKeys = true) (h_kwe : P .kwe = true)
    (h_pke : P .pke = true) (h_ent : P .ent = true) (h_mem : P .mem = true) (h_link : P .link = true) (h_sheaf : P .sheaf = true)
    (h_dom : P .dom = true) (h_pins : P .pins = true) (h_ac : P .ac = true) (h_vt : P .vt = true) (h_out : P .out = true) {x : MemRead}
    {anchor tried : Nat} {s : State} (Ks : Q s) : Q (dueFailed x anchor tried s) := by
  unfold dueFailed
  extract_lets +onlyGivenNames x1 x2 x3
  have Kx3 : Q x3 := Keeps.ite (poisonRead_keeps K h_rcv h_icu h_obs h_mem h_out Ks) (readLog_keeps K h_rcv h_icu h_obs h_out (dropRead_keeps K h_mem Ks))
  clear_value x3
  exact goFallow_keeps K h_rcv h_icu h_obs h_cex h_srg h_ods h_kst h_engKeys h_kwe h_pke h_ent h_mem h_link h_sheaf h_dom h_pins h_ac h_vt h_out (meCount_keeps K h_mem Kx3)

end Sys2Proof.Machine
end

