-- ==== Sys2Proof/Laws/KeepsFurrow.lean ====
section
/-!
SUPPORT. What the operations of Machine/Furrow.lean keep, and which parts they may change (Laws/Keeps.lean).
-/

set_option Elab.async false
namespace Sys2Proof.Machine

variable {P : Part → Bool} {Q : State → Prop}

theorem settlePlough_keeps (K : Keeps P Q) (h_rcv : P .rcv = true) (h_icu : P .icu = true) (h_obs : P .obs = true) (h_cex : P .cex = true)
    (h_mem : P .mem = true) (h_out : P .out = true) {r : Nat} {s : State} (Ks : Q s) : Q (settlePlough r s) := by
  unfold settlePlough
  split
  · exact Ks
  · exact Keeps.ite Ks (Keeps.ite (pend_keeps K h_rcv h_icu h_obs h_out (raise_keeps K h_cex (updPlough_keeps K h_mem Ks))) (Keeps.ite (Keeps.foldl (fun b1 b2 h3 => finish_keeps K h_cex h3) (updPlough_keeps K h_mem Ks)) Ks))

theorem passLine_keeps (K : Keeps P Q) (h_mem : P .mem = true) {r n : Nat} {s : State} (Ks : Q s) : Q (passLine r n s) := by
  unfold passLine
  exact updPlough_keeps K h_mem Ks

theorem openLine_keeps (K : Keeps P Q) (h_mem : P .mem = true) {r l i : Nat} {s : State} (Ks : Q s) : Q (openLine r l i s) := by
  unfold openLine
  split
  · exact Ks
  · extract_lets +onlyGivenNames x1
    have Kx1 : Q x1 := updPlough_keeps K h_mem Ks
    clear_value x1
    extract_lets +onlyGivenNames x2
    exact K.mem h_mem Kx1

theorem rewrite_keeps (K : Keeps P Q) (h_obs : P .obs = true) (h_mem : P .mem = true) {r n v : Nat} {plain : Line} {s : State} (Ks : Q s)
    : Q (rewrite r n v plain s) := by
  unfold rewrite
  split
  · exact Ks
  · extract_lets +onlyGivenNames x1 x2 x3 x4
    have Kx4 : Q x4 := updPlough_keeps K h_mem Ks
    clear_value x4
    extract_lets +onlyGivenNames x5
    have Kx5 : Q x5 := Keeps.ite (touchPath_keeps K h_mem (updParent_keeps K h_mem Kx4)) Kx4
    clear_value x5
    extract_lets +onlyGivenNames x6 x7
    have Kx7 : Q x7 := storeProtected_keeps K h_mem Kx5
    clear_value x7
    exact meCount_keeps K h_mem (meCount_keeps K h_mem (obsAdd_keeps K h_obs (K.mem h_mem Kx7)))

theorem advance_keeps (K : Keeps P Q) (h_rcv : P .rcv = true) (h_icu : P .icu = true) (h_obs : P .obs = true) (h_cex : P .cex = true)
    (h_mem : P .mem = true) (h_out : P .out = true) {r : Nat} {s : State} (Ks : Q s) : Q (advance r s) := by
  unfold advance
  split
  · exact Ks
  · extract_lets +onlyGivenNames x1 x2 x3 x4
    have Kx4 : Q x4 := updPlough_keeps K h_mem Ks
    clear_value x4
    extract_lets +onlyGivenNames x5 x6
    have Kx6 : Q x6 := K.mem h_mem Kx4
    clear_value x6
    extract_lets +onlyGivenNames x7
    have Kx7 : Q x7 := updRegion_keeps K h_mem Kx6
    clear_value x7
    extract_lets +onlyGivenNames x8
    exact settlePlough_keeps K h_rcv h_icu h_obs h_cex h_mem h_out (Keeps.ite (pend_keeps K h_rcv h_icu h_obs h_out (raise_keeps K h_cex Kx7)) Kx7)

end Sys2Proof.Machine
end

