-- ==== Sys2Proof/Laws/KeepsReads.lean ====
section
/-!
SUPPORT. What the operations of Machine/Reads.lean keep, and which parts they may change (Laws/Keeps.lean).
-/

set_option Elab.async false
namespace Sys2Proof.Machine

variable {P : Part → Bool} {Q : State → Prop}

theorem deliver_keeps (K : Keeps P Q) (h_obs : P .obs = true) (h_mem : P .mem = true) (h_out : P .out = true) {x : MemRead} {l : Line} {s : State} (Ks
    : Q s) : Q (deliver x l s) := by
  unfold deliver
  extract_lets +onlyGivenNames x1
  exact meCount_keeps K h_mem (Keeps.ite (obsAdd_keeps K h_obs (meCount_keeps K h_mem (respond_keeps K h_mem h_out (dropRead_keeps K h_mem Ks)))) (respond_keeps K h_mem h_out (dropRead_keeps K h_mem Ks)))

theorem missionDone_keeps (K : Keeps P Q) (h_rcv : P .rcv = true) (h_icu : P .icu = true) (h_obs : P .obs = true) (h_cex : P .cex = true)
    (h_srg : P .srg = true) (h_ods : P .ods = true) (h_kst : P .kst = true) (h_engKeys : P .engKeys = true) (h_kwe : P .kwe = true)
    (h_pke : P .pke = true) (h_ent : P .ent = true) (h_mem : P .mem = true) (h_link : P .link = true) (h_sheaf : P .sheaf = true)
    (h_dom : P .dom = true) (h_pins : P .pins = true) (h_ac : P .ac = true) (h_vt : P .vt = true) (h_out : P .out = true) {x : MemRead} {o : Verdict}
    {s : State} (Ks : Q s) : Q (missionDone x o s) := by
  unfold missionDone
  split
  · exact deliver_keeps K h_obs h_mem h_out Ks
  · exact tagFailed_keeps K h_rcv h_icu h_obs h_cex h_srg h_ods h_kst h_engKeys h_kwe h_pke h_ent h_mem h_link h_sheaf h_dom h_pins h_ac h_vt h_out Ks
  · exact dueFailed_keeps K h_rcv h_icu h_obs h_cex h_srg h_ods h_kst h_engKeys h_kwe h_pke h_ent h_mem h_link h_sheaf h_dom h_pins h_ac h_vt h_out Ks
  · exact poisonRead_keeps K h_rcv h_icu h_obs h_mem h_out Ks

theorem rebaseNext_keeps (K : Keeps P Q) (h_mem : P .mem = true) {b : Rebase} {s : State} (Ks : Q s) : Q (rebaseNext b s) := by
  unfold rebaseNext
  extract_lets +onlyGivenNames x1
  clear_value x1
  split
  · exact K.mem h_mem Ks
  · exact K.mem h_mem Ks

theorem childDone_keeps (K : Keeps P Q) (h_rcv : P .rcv = true) (h_icu : P .icu = true) (h_obs : P .obs = true) (h_cex : P .cex = true)
    (h_srg : P .srg = true) (h_ods : P .ods = true) (h_kst : P .kst = true) (h_engKeys : P .engKeys = true) (h_kwe : P .kwe = true)
    (h_pke : P .pke = true) (h_ent : P .ent = true) (h_mem : P .mem = true) (h_link : P .link = true) (h_sheaf : P .sheaf = true)
    (h_dom : P .dom = true) (h_pins : P .pins = true) (h_ac : P .ac = true) (h_vt : P .vt = true) (h_out : P .out = true) {x : MemRead} {old : Bool}
    {o : Verdict} {s : State} (Ks : Q s) : Q (childDone x old o s) := by
  unfold childDone
  split
  · exact dropRead_keeps K h_mem Ks
  · extract_lets +onlyGivenNames x1
    split
    · refine Keeps.ite ?_ ?_
      · extract_lets +onlyGivenNames x2
        exact rebaseNext_keeps K h_mem (meCount_keeps K h_mem (meCount_keeps K h_mem (storeProtected_keeps K h_mem (dropRead_keeps K h_mem Ks))))
      · split
        · exact tagFailed_keeps K h_rcv h_icu h_obs h_cex h_srg h_ods h_kst h_engKeys h_kwe h_pke h_ent h_mem h_link h_sheaf h_dom h_pins h_ac h_vt h_out Ks
        · exact rebaseNext_keeps K h_mem (storeCounter_keeps K h_mem (dropRead_keeps K h_mem Ks))
    · exact tagFailed_keeps K h_rcv h_icu h_obs h_cex h_srg h_ods h_kst h_engKeys h_kwe h_pke h_ent h_mem h_link h_sheaf h_dom h_pins h_ac h_vt h_out Ks
    · exact Keeps.ite (dueFailed_keeps K h_rcv h_icu h_obs h_cex h_srg h_ods h_kst h_engKeys h_kwe h_pke h_ent h_mem h_link h_sheaf h_dom h_pins h_ac h_vt h_out Ks) (counterGone_keeps K h_rcv h_icu h_obs h_cex h_srg h_ods h_kst h_engKeys h_kwe h_pke h_ent h_mem h_link h_sheaf h_dom h_pins h_ac h_vt h_out Ks)
    · exact Keeps.ite (rebaseNext_keeps K h_mem (readLog_keeps K h_rcv h_icu h_obs h_out (dropRead_keeps K h_mem Ks))) (counterGone_keeps K h_rcv h_icu h_obs h_cex h_srg h_ods h_kst h_engKeys h_kwe h_pke h_ent h_mem h_link h_sheaf h_dom h_pins h_ac h_vt h_out Ks)

theorem ploughDone_keeps (K : Keeps P Q) (h_rcv : P .rcv = true) (h_icu : P .icu = true) (h_obs : P .obs = true) (h_cex : P .cex = true)
    (h_srg : P .srg = true) (h_ods : P .ods = true) (h_kst : P .kst = true) (h_engKeys : P .engKeys = true) (h_kwe : P .kwe = true)
    (h_pke : P .pke = true) (h_ent : P .ent = true) (h_mem : P .mem = true) (h_link : P .link = true) (h_sheaf : P .sheaf = true)
    (h_dom : P .dom = true) (h_pins : P .pins = true) (h_ac : P .ac = true) (h_vt : P .vt = true) (h_out : P .out = true) {x : MemRead} {o : Verdict}
    {s : State} (Ks : Q s) : Q (ploughDone x o s) := by
  unfold ploughDone
  split
  · exact advance_keeps K h_rcv h_icu h_obs h_cex h_mem h_out (rewrite_keeps K h_obs h_mem (dropRead_keeps K h_mem Ks))
  · exact tagFailed_keeps K h_rcv h_icu h_obs h_cex h_srg h_ods h_kst h_engKeys h_kwe h_pke h_ent h_mem h_link h_sheaf h_dom h_pins h_ac h_vt h_out Ks
  · exact dueFailed_keeps K h_rcv h_icu h_obs h_cex h_srg h_ods h_kst h_engKeys h_kwe h_pke h_ent h_mem h_link h_sheaf h_dom h_pins h_ac h_vt h_out Ks
  · exact advance_keeps K h_rcv h_icu h_obs h_cex h_mem h_out (passLine_keeps K h_mem (readLog_keeps K h_rcv h_icu h_obs h_out (dropRead_keeps K h_mem Ks)))

theorem noteScrubbed_keeps (K : Keeps P Q) (h_mem : P .mem = true) {x : MemRead} {s : State} (Ks : Q s) : Q (noteScrubbed x s) := by
  unfold noteScrubbed
  exact K.mem h_mem Ks

theorem pageDegraded_keeps (K : Keeps P Q) (h_cex : P .cex = true) {ln : Nat} {again : Bool} {s : State} (Ks : Q s)
    : Q (pageDegraded ln again s) := by
  unfold pageDegraded
  exact raise_keeps K h_cex Ks

theorem scrubDone_keeps (K : Keeps P Q) (h_rcv : P .rcv = true) (h_icu : P .icu = true) (h_obs : P .obs = true) (h_cex : P .cex = true)
    (h_srg : P .srg = true) (h_ods : P .ods = true) (h_kst : P .kst = true) (h_engKeys : P .engKeys = true) (h_kwe : P .kwe = true)
    (h_pke : P .pke = true) (h_ent : P .ent = true) (h_mem : P .mem = true) (h_link : P .link = true) (h_sheaf : P .sheaf = true)
    (h_dom : P .dom = true) (h_pins : P .pins = true) (h_ac : P .ac = true) (h_vt : P .vt = true) (h_out : P .out = true) {x : MemRead} {o : Verdict}
    {s : State} (Ks : Q s) : Q (scrubDone x o s) := by
  unfold scrubDone
  extract_lets +onlyGivenNames x1
  have Kx1 : Q x1 := noteScrubbed_keeps K h_mem Ks
  clear_value x1
  extract_lets +onlyGivenNames x2
  split
  · exact readLog_keeps K h_rcv h_icu h_obs h_out (dropRead_keeps K h_mem Kx1)
  · exact pageDegraded_keeps K h_cex (readLog_keeps K h_rcv h_icu h_obs h_out (dropRead_keeps K h_mem Kx1))
  · exact tagFailed_keeps K h_rcv h_icu h_obs h_cex h_srg h_ods h_kst h_engKeys h_kwe h_pke h_ent h_mem h_link h_sheaf h_dom h_pins h_ac h_vt h_out Kx1
  · extract_lets +onlyGivenNames x3
    have Kx3 : Q x3 := meCount_keeps K h_mem (readLog_keeps K h_rcv h_icu h_obs h_out (dropRead_keeps K h_mem Kx1))
    clear_value x3
    exact Keeps.ite (goFallow_keeps K h_rcv h_icu h_obs h_cex h_srg h_ods h_kst h_engKeys h_kwe h_pke h_ent h_mem h_link h_sheaf h_dom h_pins h_ac h_vt h_out Kx3) Kx3
  · refine Keeps.ite (counterLost_keeps K h_rcv h_icu h_obs h_cex h_srg h_ods h_kst h_engKeys h_kwe h_pke h_ent h_mem h_link h_sheaf h_dom h_pins h_ac h_vt h_out Kx1) ?_
    extract_lets +onlyGivenNames x4
    have Kx4 : Q x4 := readLog_keeps K h_rcv h_icu h_obs h_out (dropRead_keeps K h_mem Kx1)
    clear_value x4
    exact Keeps.ite (fetchMirror_keeps K h_mem Kx4) Kx4

theorem counterDone_keeps (K : Keeps P Q) (h_rcv : P .rcv = true) (h_icu : P .icu = true) (h_obs : P .obs = true) (h_cex : P .cex = true)
    (h_srg : P .srg = true) (h_ods : P .ods = true) (h_kst : P .kst = true) (h_engKeys : P .engKeys = true) (h_kwe : P .kwe = true)
    (h_pke : P .pke = true) (h_ent : P .ent = true) (h_mem : P .mem = true) (h_link : P .link = true) (h_sheaf : P .sheaf = true)
    (h_dom : P .dom = true) (h_pins : P .pins = true) (h_ac : P .ac = true) (h_vt : P .vt = true) (h_out : P .out = true) {x : MemRead} {o : Verdict}
    {s : State} (Ks : Q s) : Q (counterDone x o s).1 := by
  unfold counterDone
  split
  · exact takeCounter_keeps K h_rcv h_icu h_obs h_cex h_srg h_ods h_kst h_engKeys h_kwe h_pke h_ent h_mem h_link h_sheaf h_dom h_pins h_ac h_vt h_out Ks
  · exact Keeps.p1 (tagFailed_keeps K h_rcv h_icu h_obs h_cex h_srg h_ods h_kst h_engKeys h_kwe h_pke h_ent h_mem h_link h_sheaf h_dom h_pins h_ac h_vt h_out Ks)
  · exact Keeps.p1 (counterGone_keeps K h_rcv h_icu h_obs h_cex h_srg h_ods h_kst h_engKeys h_kwe h_pke h_ent h_mem h_link h_sheaf h_dom h_pins h_ac h_vt h_out Ks)
  · exact Keeps.p1 (counterGone_keeps K h_rcv h_icu h_obs h_cex h_srg h_ods h_kst h_engKeys h_kwe h_pke h_ent h_mem h_link h_sheaf h_dom h_pins h_ac h_vt h_out Ks)

theorem finishRead_keeps (K : Keeps P Q) (h_rcv : P .rcv = true) (h_icu : P .icu = true) (h_obs : P .obs = true) (h_cex : P .cex = true)
    (h_srg : P .srg = true) (h_ods : P .ods = true) (h_kst : P .kst = true) (h_engKeys : P .engKeys = true) (h_kwe : P .kwe = true)
    (h_pke : P .pke = true) (h_ent : P .ent = true) (h_mem : P .mem = true) (h_link : P .link = true) (h_sheaf : P .sheaf = true)
    (h_dom : P .dom = true) (h_pins : P .pins = true) (h_ac : P .ac = true) (h_vt : P .vt = true) (h_out : P .out = true) {x : MemRead} {o : Verdict}
    {s : State} (Ks : Q s) : Q (finishRead x o s).1 := by
  unfold finishRead
  split
  · exact Keeps.p1 (missionDone_keeps K h_rcv h_icu h_obs h_cex h_srg h_ods h_kst h_engKeys h_kwe h_pke h_ent h_mem h_link h_sheaf h_dom h_pins h_ac h_vt h_out Ks)
  · exact Keeps.p1 (missionDone_keeps K h_rcv h_icu h_obs h_cex h_srg h_ods h_kst h_engKeys h_kwe h_pke h_ent h_mem h_link h_sheaf h_dom h_pins h_ac h_vt h_out Ks)
  · exact Keeps.p1 (childDone_keeps K h_rcv h_icu h_obs h_cex h_srg h_ods h_kst h_engKeys h_kwe h_pke h_ent h_mem h_link h_sheaf h_dom h_pins h_ac h_vt h_out Ks)
  · exact Keeps.p1 (ploughDone_keeps K h_rcv h_icu h_obs h_cex h_srg h_ods h_kst h_engKeys h_kwe h_pke h_ent h_mem h_link h_sheaf h_dom h_pins h_ac h_vt h_out Ks)
  · exact Keeps.p1 (scrubDone_keeps K h_rcv h_icu h_obs h_cex h_srg h_ods h_kst h_engKeys h_kwe h_pke h_ent h_mem h_link h_sheaf h_dom h_pins h_ac h_vt h_out Ks)
  · exact counterDone_keeps K h_rcv h_icu h_obs h_cex h_srg h_ods h_kst h_engKeys h_kwe h_pke h_ent h_mem h_link h_sheaf h_dom h_pins h_ac h_vt h_out Ks
  · exact counterDone_keeps K h_rcv h_icu h_obs h_cex h_srg h_ods h_kst h_engKeys h_kwe h_pke h_ent h_mem h_link h_sheaf h_dom h_pins h_ac h_vt h_out Ks

theorem judgeWord_keeps (K : Keeps P Q) (h_rcv : P .rcv = true) (h_icu : P .icu = true) (h_obs : P .obs = true) (h_cex : P .cex = true)
    (h_srg : P .srg = true) (h_ods : P .ods = true) (h_kst : P .kst = true) (h_engKeys : P .engKeys = true) (h_kwe : P .kwe = true)
    (h_pke : P .pke = true) (h_ent : P .ent = true) (h_mem : P .mem = true) (h_link : P .link = true) (h_sheaf : P .sheaf = true)
    (h_dom : P .dom = true) (h_pins : P .pins = true) (h_ac : P .ac = true) (h_vt : P .vt = true) (h_out : P .out = true) {x : MemRead} {w : RdWord}
    {cands : List Nat} {s : State} (Ks : Q s) : Q (judgeWord x w cands s) := by
  unfold judgeWord
  extract_lets +onlyGivenNames x1 x2 x3
  refine Keeps.ite (Keeps.ite Ks (updRead_keeps K h_mem Ks)) ?_
  extract_lets +onlyGivenNames x4
  have Kx4 : Q x4 := Keeps.ite (noteRetry_keeps K h_rcv h_icu h_obs h_cex h_mem h_out Ks) Ks
  clear_value x4
  refine Keeps.ite (Keeps.ite (poisonRead_keeps K h_rcv h_icu h_obs h_mem h_out Kx4) (deliver_keeps K h_obs h_mem h_out Kx4)) ?_
  refine Keeps.ite (finishRead_keeps K h_rcv h_icu h_obs h_cex h_srg h_ods h_kst h_engKeys h_kwe h_pke h_ent h_mem h_link h_sheaf h_dom h_pins h_ac h_vt h_out Kx4) ?_
  refine Keeps.ite (updRead_keeps K h_mem Kx4) ?_
  clear_value x3
  split
  · exact finishRead_keeps K h_rcv h_icu h_obs h_cex h_srg h_ods h_kst h_engKeys h_kwe h_pke h_ent h_mem h_link h_sheaf h_dom h_pins h_ac h_vt h_out Kx4
  · extract_lets +onlyGivenNames x5
    exact Keeps.ite (finishRead_keeps K h_rcv h_icu h_obs h_cex h_srg h_ods h_kst h_engKeys h_kwe h_pke h_ent h_mem h_link h_sheaf h_dom h_pins h_ac h_vt h_out Kx4) (finishRead_keeps K h_rcv h_icu h_obs h_cex h_srg h_ods h_kst h_engKeys h_kwe h_pke h_ent h_mem h_link h_sheaf h_dom h_pins h_ac h_vt h_out Ks)

theorem decideRead_keeps (K : Keeps P Q) (h_rcv : P .rcv = true) (h_icu : P .icu = true) (h_obs : P .obs = true) (h_cex : P .cex = true)
    (h_srg : P .srg = true) (h_ods : P .ods = true) (h_kst : P .kst = true) (h_engKeys : P .engKeys = true) (h_kwe : P .kwe = true)
    (h_pke : P .pke = true) (h_ent : P .ent = true) (h_mem : P .mem = true) (h_link : P .link = true) (h_sheaf : P .sheaf = true)
    (h_dom : P .dom = true) (h_pins : P .pins = true) (h_ac : P .ac = true) (h_vt : P .vt = true) (h_out : P .out = true) {q : Nat} {s : State} (Ks
    : Q s) : Q (decideRead q s) := by
  unfold decideRead
  split
  · exact Ks
  · split
    · refine Keeps.ite (poison_keeps K h_mem h_out Ks) ?_
      split
      · exact Ks
      · exact judgeWord_keeps K h_rcv h_icu h_obs h_cex h_srg h_ods h_kst h_engKeys h_kwe h_pke h_ent h_mem h_link h_sheaf h_dom h_pins h_ac h_vt h_out (updRead_keeps K h_mem Ks)
    · exact Ks

theorem pushRead_keeps (K : Keeps P Q) (h_mem : P .mem = true) {q : Nat} {s : State} (Ks : Q s) : Q (pushRead q s) := by
  unfold pushRead
  split
  · exact Ks
  · extract_lets +onlyGivenNames x1 x2 x3
    have Kx3 : Q x3 := Keeps.ite (issueRead_keeps K h_mem Ks) Ks
    clear_value x3
    exact Keeps.ite (fetchMissing_keeps K h_mem Kx3) Kx3

theorem settleReads_keeps (K : Keeps P Q) (h_rcv : P .rcv = true) (h_icu : P .icu = true) (h_obs : P .obs = true) (h_cex : P .cex = true)
    (h_srg : P .srg = true) (h_ods : P .ods = true) (h_kst : P .kst = true) (h_engKeys : P .engKeys = true) (h_kwe : P .kwe = true)
    (h_pke : P .pke = true) (h_ent : P .ent = true) (h_mem : P .mem = true) (h_link : P .link = true) (h_sheaf : P .sheaf = true)
    (h_dom : P .dom = true) (h_pins : P .pins = true) (h_ac : P .ac = true) (h_vt : P .vt = true) (h_out : P .out = true) {r : Nat} {s : State} (Ks
    : Q s) : Q (settleReads r s) := by
  unfold settleReads
  extract_lets +onlyGivenNames x1
  have Kx1 : Q x1 := Keeps.foldl (fun b2 b3 h4 => Keeps.foldl (fun b5 b6 h7 => decideRead_keeps K h_rcv h_icu h_obs h_cex h_srg h_ods h_kst h_engKeys h_kwe h_pke h_ent h_mem h_link h_sheaf h_dom h_pins h_ac h_vt h_out h7) h4) Ks
  clear_value x1
  exact Keeps.foldl (fun b8 b9 h10 => Keeps.foldl (fun b11 b12 h13 => pushRead_keeps K h_mem h13) h10) Kx1

theorem writeBack_keeps (K : Keeps P Q) (h_mem : P .mem = true) {x : MemRead} {f : Line × BitVec 56 × Nat} {s : State} (Ks : Q s)
    : Q (writeBack x f s) := by
  unfold writeBack
  exact addScrub_keeps K h_mem (writeLine_keeps K h_mem (Keeps.ite Ks (mcCount_keeps K h_mem Ks)))

theorem corrected_keeps (K : Keeps P Q) (h_rcv : P .rcv = true) (h_icu : P .icu = true) (h_obs : P .obs = true) (h_cex : P .cex = true)
    (h_srg : P .srg = true) (h_ods : P .ods = true) (h_kst : P .kst = true) (h_engKeys : P .engKeys = true) (h_kwe : P .kwe = true)
    (h_pke : P .pke = true) (h_ent : P .ent = true) (h_mem : P .mem = true) (h_link : P .link = true) (h_sheaf : P .sheaf = true)
    (h_dom : P .dom = true) (h_pins : P .pins = true) (h_ac : P .ac = true) (h_vt : P .vt = true) (h_out : P .out = true) {x : MemRead}
    {f : Line × BitVec 56 × Nat} {s : State} (Ks : Q s) : Q (corrected x f s) := by
  unfold corrected
  extract_lets +onlyGivenNames x1
  have Kx1 : Q x1 := pend_keeps K h_rcv h_icu h_obs h_out (updRegion_keeps K h_mem (obsAdd_keeps K h_obs (meCount_keeps K h_mem Ks)))
  clear_value x1
  extract_lets +onlyGivenNames x2
  split
  · exact pageDegraded_keeps K h_cex (readLog_keeps K h_rcv h_icu h_obs h_out (dropRead_keeps K h_mem (noteScrubbed_keeps K h_mem Kx1)))
  · exact finishRead_keeps K h_rcv h_icu h_obs h_cex h_srg h_ods h_kst h_engKeys h_kwe h_pke h_ent h_mem h_link h_sheaf h_dom h_pins h_ac h_vt h_out Kx1
  · exact finishRead_keeps K h_rcv h_icu h_obs h_cex h_srg h_ods h_kst h_engKeys h_kwe h_pke h_ent h_mem h_link h_sheaf h_dom h_pins h_ac h_vt h_out Kx1
  · extract_lets +onlyGivenNames x3 x4
    have Kx4 : Q x4 := finishRead_keeps K h_rcv h_icu h_obs h_cex h_srg h_ods h_kst h_engKeys h_kwe h_pke h_ent h_mem h_link h_sheaf h_dom h_pins h_ac h_vt h_out Kx1
    exact Keeps.ite Kx4 (writeBack_keeps K h_mem Kx4)
  · extract_lets +onlyGivenNames x5 x6
    have Kx6 : Q x6 := finishRead_keeps K h_rcv h_icu h_obs h_cex h_srg h_ods h_kst h_engKeys h_kwe h_pke h_ent h_mem h_link h_sheaf h_dom h_pins h_ac h_vt h_out Kx1
    exact Keeps.ite Kx6 (writeBack_keeps K h_mem Kx6)
  · extract_lets +onlyGivenNames x7
    have Kx7 : Q x7 := Keeps.ite (writeBack_keeps K h_mem Kx1) Kx1
    clear_value x7
    exact Keeps.ite (finishRead_keeps K h_rcv h_icu h_obs h_cex h_srg h_ods h_kst h_engKeys h_kwe h_pke h_ent h_mem h_link h_sheaf h_dom h_pins h_ac h_vt h_out Kx7) (updRead_keeps K h_mem Kx7)
  · extract_lets +onlyGivenNames x8
    have Kx8 : Q x8 := Keeps.ite (writeBack_keeps K h_mem Kx1) Kx1
    clear_value x8
    exact Keeps.ite (finishRead_keeps K h_rcv h_icu h_obs h_cex h_srg h_ods h_kst h_engKeys h_kwe h_pke h_ent h_mem h_link h_sheaf h_dom h_pins h_ac h_vt h_out Kx8) (updRead_keeps K h_mem Kx8)

theorem endCorrection_keeps (K : Keeps P Q) (h_rcv : P .rcv = true) (h_icu : P .icu = true) (h_obs : P .obs = true) (h_cex : P .cex = true)
    (h_srg : P .srg = true) (h_ods : P .ods = true) (h_kst : P .kst = true) (h_engKeys : P .engKeys = true) (h_kwe : P .kwe = true)
    (h_pke : P .pke = true) (h_ent : P .ent = true) (h_mem : P .mem = true) (h_link : P .link = true) (h_sheaf : P .sheaf = true)
    (h_dom : P .dom = true) (h_pins : P .pins = true) (h_ac : P .ac = true) (h_vt : P .vt = true) (h_out : P .out = true) {e : Nat} {c : Corr}
    {s : State} (Ks : Q s) : Q (endCorrection e c s) := by
  unfold endCorrection
  extract_lets +onlyGivenNames x1
  have Kx1 : Q x1 := endCorr_keeps K h_mem h_out Ks
  clear_value x1
  split
  · exact Kx1
  · refine settleReads_keeps K h_rcv h_icu h_obs h_cex h_srg h_ods h_kst h_engKeys h_kwe h_pke h_ent h_mem h_link h_sheaf h_dom h_pins h_ac h_vt h_out ?_
    split
    · exact corrected_keeps K h_rcv h_icu h_obs h_cex h_srg h_ods h_kst h_engKeys h_kwe h_pke h_ent h_mem h_link h_sheaf h_dom h_pins h_ac h_vt h_out Kx1
    · exact finishRead_keeps K h_rcv h_icu h_obs h_cex h_srg h_ods h_kst h_engKeys h_kwe h_pke h_ent h_mem h_link h_sheaf h_dom h_pins h_ac h_vt h_out Kx1

theorem startCorrection_keeps (K : Keeps P Q) (h_rcv : P .rcv = true) (h_icu : P .icu = true) (h_obs : P .obs = true) (h_cex : P .cex = true)
    (h_srg : P .srg = true) (h_ods : P .ods = true) (h_kst : P .kst = true) (h_engKeys : P .engKeys = true) (h_kwe : P .kwe = true)
    (h_pke : P .pke = true) (h_ent : P .ent = true) (h_mem : P .mem = true) (h_link : P .link = true) (h_sheaf : P .sheaf = true)
    (h_dom : P .dom = true) (h_pins : P .pins = true) (h_ac : P .ac = true) (h_vt : P .vt = true) (h_out : P .out = true) {x : MemRead}
    {handle anchor : Nat} {s : State} (Ks : Q s) : Q (startCorrection x handle anchor s) := by
  unfold startCorrection
  extract_lets +onlyGivenNames x1 x2
  have Kx2 : Q x2 := meCount_keeps K h_mem Ks
  clear_value x2
  refine Keeps.ite (settleReads_keeps K h_rcv h_icu h_obs h_cex h_srg h_ods h_kst h_engKeys h_kwe h_pke h_ent h_mem h_link h_sheaf h_dom h_pins h_ac h_vt h_out (finishRead_keeps K h_rcv h_icu h_obs h_cex h_srg h_ods h_kst h_engKeys h_kwe h_pke h_ent h_mem h_link h_sheaf h_dom h_pins h_ac h_vt h_out Kx2)) ?_
  extract_lets +onlyGivenNames x3 x4
  refine Keeps.ite (settleReads_keeps K h_rcv h_icu h_obs h_cex h_srg h_ods h_kst h_engKeys h_kwe h_pke h_ent h_mem h_link h_sheaf h_dom h_pins h_ac h_vt h_out (finishRead_keeps K h_rcv h_icu h_obs h_cex h_srg h_ods h_kst h_engKeys h_kwe h_pke h_ent h_mem h_link h_sheaf h_dom h_pins h_ac h_vt h_out (State.emit_keeps K h_out Kx2))) ?_
  extract_lets +onlyGivenNames x5 x6
  have Kx6 : Q x6 := K.mem h_mem Kx2
  clear_value x6
  exact Keeps.ite (nextErase_keeps K h_out Kx6) Kx6

theorem arrive_keeps (K : Keeps P Q) (h_rcv : P .rcv = true) (h_icu : P .icu = true) (h_obs : P .obs = true) (h_cex : P .cex = true)
    (h_srg : P .srg = true) (h_ods : P .ods = true) (h_kst : P .kst = true) (h_engKeys : P .engKeys = true) (h_kwe : P .kwe = true)
    (h_pke : P .pke = true) (h_ent : P .ent = true) (h_mem : P .mem = true) (h_link : P .link = true) (h_sheaf : P .sheaf = true)
    (h_dom : P .dom = true) (h_pins : P .pins = true) (h_ac : P .ac = true) (h_vt : P .vt = true) (h_out : P .out = true) {x : MemRead} {pc : Nat}
    {w : RdWord} {s : State} (Ks : Q s) : Q (arrive x pc w s) := by
  unfold arrive
  extract_lets +onlyGivenNames x1
  have Kx1 : Q x1 := updRead_keeps K h_mem Ks
  clear_value x1
  exact settleReads_keeps K h_rcv h_icu h_obs h_cex h_srg h_ods h_kst h_engKeys h_kwe h_pke h_ent h_mem h_link h_sheaf h_dom h_pins h_ac h_vt h_out (Keeps.ite Kx1 (mcCount_keeps K h_mem Kx1))

theorem takeAnswer_keeps (K : Keeps P Q) (h_rcv : P .rcv = true) (h_icu : P .icu = true) (h_obs : P .obs = true) (h_cex : P .cex = true)
    (h_srg : P .srg = true) (h_ods : P .ods = true) (h_kst : P .kst = true) (h_engKeys : P .engKeys = true) (h_kwe : P .kwe = true)
    (h_pke : P .pke = true) (h_ent : P .ent = true) (h_mem : P .mem = true) (h_link : P .link = true) (h_sheaf : P .sheaf = true)
    (h_dom : P .dom = true) (h_pins : P .pins = true) (h_ac : P .ac = true) (h_vt : P .vt = true) (h_out : P .out = true) {e : Nat}
    {a : Option (Line × BitVec 56)} {s : State} (Ks : Q s) : Q (takeAnswer e a s) := by
  unfold takeAnswer
  split
  · exact Ks
  · split
    · exact endCorr_keeps K h_mem h_out Ks
    · extract_lets +onlyGivenNames x1 x2 x3 x4
      have Kx4 : Q x4 := K.mem h_mem Ks
      clear_value x4
      exact Keeps.ite (endCorrection_keeps K h_rcv h_icu h_obs h_cex h_srg h_ods h_kst h_engKeys h_kwe h_pke h_ent h_mem h_link h_sheaf h_dom h_pins h_ac h_vt h_out Kx4) (nextErase_keeps K h_out Kx4)

end Sys2Proof.Machine
end

