-- ==== Sys2Proof/Laws/KeepsMemory.lean ====
section
/-!
SUPPORT. What the operations of Machine/Memory.lean keep, and which parts they may change (Laws/Keeps.lean).
-/

set_option Elab.async false
namespace Sys2Proof.Machine

variable {P : Part → Bool} {Q : State → Prop}

theorem acceptRead_keeps (K : Keeps P Q) (h_rcv : P .rcv = true) (h_icu : P .icu = true) (h_obs : P .obs = true) (h_cex : P .cex = true)
    (h_srg : P .srg = true) (h_ods : P .ods = true) (h_kst : P .kst = true) (h_engKeys : P .engKeys = true) (h_kwe : P .kwe = true)
    (h_pke : P .pke = true) (h_ent : P .ent = true) (h_mem : P .mem = true) (h_link : P .link = true) (h_sheaf : P .sheaf = true)
    (h_dom : P .dom = true) (h_pins : P .pins = true) (h_ac : P .ac = true) (h_vt : P .vt = true) (h_out : P .out = true) {x : MemRead} {s : State}
    (Ks : Q s) : Q (acceptRead x s) := by
  unfold acceptRead
  extract_lets +onlyGivenNames x1
  split
  · exact poisonRead_keeps K h_rcv h_icu h_obs h_mem h_out Ks
  · refine Keeps.ite (poison_keeps K h_mem h_out Ks) ?_
    split
    · exact meCount_keeps K h_mem (respond_keeps K h_mem h_out Ks)
    · extract_lets +onlyGivenNames x2
      have Kx2 : Q x2 := Keeps.ite (touchPath_keeps K h_mem (mcCount_keeps K h_mem Ks)) Ks
      clear_value x2
      exact settleReads_keeps K h_rcv h_icu h_obs h_cex h_srg h_ods h_kst h_engKeys h_kwe h_pke h_ent h_mem h_link h_sheaf h_dom h_pins h_ac h_vt h_out (addRead_keeps K h_mem Kx2)

theorem missionRead_keeps (K : Keeps P Q) (h_rcv : P .rcv = true) (h_icu : P .icu = true) (h_obs : P .obs = true) (h_cex : P .cex = true)
    (h_srg : P .srg = true) (h_ods : P .ods = true) (h_kst : P .kst = true) (h_engKeys : P .engKeys = true) (h_kwe : P .kwe = true)
    (h_pke : P .pke = true) (h_ent : P .ent = true) (h_mem : P .mem = true) (h_link : P .link = true) (h_sheaf : P .sheaf = true)
    (h_dom : P .dom = true) (h_pins : P .pins = true) (h_ac : P .ac = true) (h_vt : P .vt = true) (h_out : P .out = true) {e ln req who : Nat}
    {p : Purpose} {s : State} (Ks : Q s) : Q (missionRead e ln req who p s) := by
  unfold missionRead
  extract_lets +onlyGivenNames x1 x2
  have Kx2 : ∀ b0 b1, Q b1 → Q (x2 b0 b1) := by
    intro b3 b4 b5
    unfold x2
    exact raise_keeps K h_cex b5
  clear_value x2
  split
  · exact Kx2 _ _ (meCount_keeps K h_mem (poisonRead_keeps K h_rcv h_icu h_obs h_mem h_out Ks))
  · extract_lets +onlyGivenNames x6 x7
    exact Keeps.ite (Kx2 _ _ (meCount_keeps K h_mem (poisonRead_keeps K h_rcv h_icu h_obs h_mem h_out Ks))) (Keeps.ite (poisonRead_keeps K h_rcv h_icu h_obs h_mem h_out Ks) (acceptRead_keeps K h_rcv h_icu h_obs h_cex h_srg h_ods h_kst h_engKeys h_kwe h_pke h_ent h_mem h_link h_sheaf h_dom h_pins h_ac h_vt h_out Ks))

theorem execMemoryRead_keeps (K : Keeps P Q) (h_rcv : P .rcv = true) (h_icu : P .icu = true) (h_obs : P .obs = true) (h_cex : P .cex = true)
    (h_srg : P .srg = true) (h_ods : P .ods = true) (h_kst : P .kst = true) (h_engKeys : P .engKeys = true) (h_kwe : P .kwe = true)
    (h_pke : P .pke = true) (h_ent : P .ent = true) (h_mem : P .mem = true) (h_link : P .link = true) (h_sheaf : P .sheaf = true)
    (h_dom : P .dom = true) (h_pins : P .pins = true) (h_ac : P .ac = true) (h_vt : P .vt = true) (h_out : P .out = true) {engine : BitVec 4}
    {req acting : BitVec 5} {pa : BitVec 47} {s : State} (Ks : Q s) : KeepsBy Q (execMemoryRead engine req acting pa s) := by
  unfold execMemoryRead
  exact KeepsBy.of (missionRead_keeps K h_rcv h_icu h_obs h_cex h_srg h_ods h_kst h_engKeys h_kwe h_pke h_ent h_mem h_link h_sheaf h_dom h_pins h_ac h_vt h_out Ks)

theorem execDueReport_keeps (K : Keeps P Q) (h_rcv : P .rcv = true) (h_icu : P .icu = true) (h_obs : P .obs = true) (h_cex : P .cex = true)
    (h_srg : P .srg = true) (h_ods : P .ods = true) (h_kst : P .kst = true) (h_engKeys : P .engKeys = true) (h_kwe : P .kwe = true)
    (h_pke : P .pke = true) (h_ent : P .ent = true) (h_mem : P .mem = true) (h_link : P .link = true) (h_sheaf : P .sheaf = true)
    (h_dom : P .dom = true) (h_pins : P .pins = true) (h_ac : P .ac = true) (h_vt : P .vt = true) (h_out : P .out = true) {engine : BitVec 4}
    {ln : BitVec 40} {handle : BitVec 16} {anchor : BitVec 8} {s : State} (Ks : Q s) : KeepsBy Q (execDueReport engine ln handle anchor s) := by
  unfold execDueReport
  refine KeepsBy.of ?_
  extract_lets +onlyGivenNames x1
  split
  · exact Ks
  · exact startCorrection_keeps K h_rcv h_icu h_obs h_cex h_srg h_ods h_kst h_engKeys h_kwe h_pke h_ent h_mem h_link h_sheaf h_dom h_pins h_ac h_vt h_out Ks

theorem noteWrite_keeps (K : Keeps P Q) (h_mem : P .mem = true) {w : MemWrite} {s : State} (Ks : Q s) : Q (noteWrite w s) := by
  unfold noteWrite
  extract_lets +onlyGivenNames x1 x2
  have Kx2 : Q x2 := K.mem h_mem Ks
  clear_value x2
  exact dropScrubs_keeps K h_mem (Keeps.ite (updRegion_keeps K h_mem Kx2) Kx2)

theorem execRebase_keeps (K : Keeps P Q) (h_rcv : P .rcv = true) (h_icu : P .icu = true) (h_obs : P .obs = true) (h_mem : P .mem = true)
    (h_out : P .out = true) {region : BitVec 12} {level : BitVec 2} {index : BitVec 33} {old : Bool} {s : State} (Ks : Q s)
    : KeepsBy Q (execRebase region level index old s) := by
  unfold execRebase
  refine KeepsBy.of ?_
  extract_lets +onlyGivenNames x1 x2 x3
  split
  · exact Ks
  · extract_lets +onlyGivenNames x4
    refine Keeps.ite Ks ?_
    extract_lets +onlyGivenNames x5 x6 x7 x8
    have Kx8 : Q x8 := K.mem h_mem Ks
    clear_value x8
    extract_lets +onlyGivenNames x9 x10
    have Kx10 : Q x10 := Keeps.ite (updPlough_keeps K h_mem Kx8) (K.mem h_mem Kx8)
    clear_value x10
    exact pend_keeps K h_rcv h_icu h_obs h_out (obsAdd_keeps K h_obs (mcCount_keeps K h_mem Kx10))

theorem refuseWrite_keeps (K : Keeps P Q) (h_rcv : P .rcv = true) (h_icu : P .icu = true) (h_obs : P .obs = true) (h_cex : P .cex = true)
    (h_mem : P .mem = true) (h_out : P .out = true) {w : MemWrite} {s : State} (Ks : Q s) : Q (refuseWrite w s) := by
  unfold refuseWrite
  exact dropWrite_keeps K h_rcv h_icu h_obs h_cex h_mem h_out Ks

theorem parkWrite_keeps (K : Keeps P Q) (h_mem : P .mem = true) {w : MemWrite} {s : State} (Ks : Q s) : Q (parkWrite w s) := by
  unfold parkWrite
  exact K.mem h_mem Ks

theorem doWrite_keeps (K : Keeps P Q) (h_cex : P .cex = true) (h_engKeys : P .engKeys = true) (h_ent : P .ent = true) (h_mem : P .mem = true)
    (h_sheaf : P .sheaf = true) (h_free : P .free = true) (h_out : P .out = true) {w : MemWrite} {a : VersionAnswer} {s : State} (Ks : Q s)
    : Q (doWrite w a s) := by
  unfold doWrite
  extract_lets +onlyGivenNames x1 x2
  have Kx2 : Q x2 := meCount_keeps K h_mem Ks
  clear_value x2
  split
  · extract_lets +onlyGivenNames x3 x4
    have Kx4 : Q x4 := Keeps.ite (touchPath_keeps K h_mem (updParent_keeps K h_mem Kx2)) Kx2
    clear_value x4
    exact settleSheaves_keeps K h_cex h_engKeys h_ent h_sheaf h_free h_out (sheafAdd_keeps K h_sheaf (storeProtected_keeps K h_mem Kx4))
  · exact writeLine_keeps K h_mem Kx2

theorem placeWrite_keeps (K : Keeps P Q) (h_rcv : P .rcv = true) (h_icu : P .icu = true) (h_obs : P .obs = true) (h_cex : P .cex = true)
    (h_engKeys : P .engKeys = true) (h_ent : P .ent = true) (h_mem : P .mem = true) (h_sheaf : P .sheaf = true) (h_free : P .free = true)
    (h_out : P .out = true) {w : MemWrite} {s : State} (Ks : Q s) : Q (placeWrite w s).1 := by
  unfold placeWrite
  split
  · extract_lets +onlyGivenNames x1
    have Kx1 : Q x1 := raiseExhausted_keeps K h_rcv h_icu h_obs h_cex h_mem h_out Ks
    clear_value x1
    exact Keeps.ite1 (Keeps.p1 (refuseWrite_keeps K h_rcv h_icu h_obs h_cex h_mem h_out Kx1)) (Keeps.p1 (parkWrite_keeps K h_mem (noteWrite_keeps K h_mem Kx1)))
  · exact Keeps.p1 (parkWrite_keeps K h_mem (noteWrite_keeps K h_mem (Keeps.ite (fetchMissing_keeps K h_mem Ks) Ks)))
  · extract_lets +onlyGivenNames x2
    have Kx2 : Q x2 := noteWrite_keeps K h_mem Ks
    clear_value x2
    refine Keeps.ite1 (Keeps.p1 (parkWrite_keeps K h_mem Kx2)) ?_
    extract_lets +onlyGivenNames x3
    exact Keeps.p1 (doWrite_keeps K h_cex h_engKeys h_ent h_mem h_sheaf h_free h_out (Keeps.ite (mcCount_keeps K h_mem Kx2) Kx2))

theorem acceptWrite_keeps (K : Keeps P Q) (h_rcv : P .rcv = true) (h_icu : P .icu = true) (h_obs : P .obs = true) (h_cex : P .cex = true)
    (h_engKeys : P .engKeys = true) (h_ent : P .ent = true) (h_mem : P .mem = true) (h_sheaf : P .sheaf = true) (h_free : P .free = true)
    (h_out : P .out = true) {e ln req who r : Nat} {imported : Bool} {data : Line} {s : State} (Ks : Q s)
    : Q (acceptWrite e ln req who r imported data s).1 := by
  unfold acceptWrite
  extract_lets +onlyGivenNames x1 x2 x3
  split
  · exact Keeps.p1 (refuseWrite_keeps K h_rcv h_icu h_obs h_cex h_mem h_out Ks)
  · exact placeWrite_keeps K h_rcv h_icu h_obs h_cex h_engKeys h_ent h_mem h_sheaf h_free h_out Ks

theorem missionWrite_keeps (K : Keeps P Q) (h_rcv : P .rcv = true) (h_icu : P .icu = true) (h_obs : P .obs = true) (h_cex : P .cex = true)
    (h_engKeys : P .engKeys = true) (h_ent : P .ent = true) (h_mem : P .mem = true) (h_sheaf : P .sheaf = true) (h_free : P .free = true)
    (h_out : P .out = true) {e ln req who : Nat} {whole : Bool} {data : Line} {s : State} (Ks : Q s)
    : Q (missionWrite e ln req who whole data s).1 := by
  unfold missionWrite
  split
  · exact Keeps.p1 (meCount_keeps K h_mem (dropWrite_keeps K h_rcv h_icu h_obs h_cex h_mem h_out Ks))
  · extract_lets +onlyGivenNames x1
    exact Keeps.ite1 (Keeps.p1 (meCount_keeps K h_mem (dropWrite_keeps K h_rcv h_icu h_obs h_cex h_mem h_out Ks))) (Keeps.ite1 (Keeps.p1 (dropWrite_keeps K h_rcv h_icu h_obs h_cex h_mem h_out Ks)) (Keeps.ite1 (Keeps.p1 (dropWrite_keeps K h_rcv h_icu h_obs h_cex h_mem h_out Ks)) (Keeps.ite1 (Keeps.p1 (dropWrite_keeps K h_rcv h_icu h_obs h_cex h_mem h_out Ks)) (acceptWrite_keeps K h_rcv h_icu h_obs h_cex h_engKeys h_ent h_mem h_sheaf h_free h_out Ks))))

theorem returned_keeps (K : Keeps P Q) (h_rcv : P .rcv = true) (h_icu : P .icu = true) (h_obs : P .obs = true) (h_cex : P .cex = true)
    (h_srg : P .srg = true) (h_ods : P .ods = true) (h_kst : P .kst = true) (h_engKeys : P .engKeys = true) (h_kwe : P .kwe = true)
    (h_pke : P .pke = true) (h_ent : P .ent = true) (h_mem : P .mem = true) (h_link : P .link = true) (h_sheaf : P .sheaf = true)
    (h_dom : P .dom = true) (h_pins : P .pins = true) (h_ac : P .ac = true) (h_vt : P .vt = true) (h_out : P .out = true) {p : MemRead → Bool}
    {pc : BitVec 6} {w : RdWord} {s : State} (Ks : Q s) : Q (returned p pc w s) := by
  unfold returned
  split
  · exact Ks
  · exact arrive_keeps K h_rcv h_icu h_obs h_cex h_srg h_ods h_kst h_engKeys h_kwe h_pke h_ent h_mem h_link h_sheaf h_dom h_pins h_ac h_vt h_out Ks

theorem execScrubReread_keeps (K : Keeps P Q) (h_rcv : P .rcv = true) (h_icu : P .icu = true) (h_obs : P .obs = true) (h_cex : P .cex = true)
    (h_srg : P .srg = true) (h_ods : P .ods = true) (h_kst : P .kst = true) (h_engKeys : P .engKeys = true) (h_kwe : P .kwe = true)
    (h_pke : P .pke = true) (h_ent : P .ent = true) (h_mem : P .mem = true) (h_link : P .link = true) (h_sheaf : P .sheaf = true)
    (h_dom : P .dom = true) (h_pins : P .pins = true) (h_ac : P .ac = true) (h_vt : P .vt = true) (h_out : P .out = true) {engine : BitVec 4}
    {ln : BitVec 40} {read : LineRead} {s : State} (Ks : Q s) : KeepsBy Q (execScrubReread engine ln read s) := by
  unfold execScrubReread
  exact KeepsBy.of (returned_keeps K h_rcv h_icu h_obs h_cex h_srg h_ods h_kst h_engKeys h_kwe h_pke h_ent h_mem h_link h_sheaf h_dom h_pins h_ac h_vt h_out Ks)

theorem execMemoryReadData_keeps (K : Keeps P Q) (h_rcv : P .rcv = true) (h_icu : P .icu = true) (h_obs : P .obs = true) (h_cex : P .cex = true)
    (h_srg : P .srg = true) (h_ods : P .ods = true) (h_kst : P .kst = true) (h_engKeys : P .engKeys = true) (h_kwe : P .kwe = true)
    (h_pke : P .pke = true) (h_ent : P .ent = true) (h_mem : P .mem = true) (h_link : P .link = true) (h_sheaf : P .sheaf = true)
    (h_dom : P .dom = true) (h_pins : P .pins = true) (h_ac : P .ac = true) (h_vt : P .vt = true) (h_out : P .out = true) {engine : BitVec 4}
    {ln : BitVec 40} {pc : BitVec 6} {word : RdWord} {s : State} (Ks : Q s) : KeepsBy Q (execMemoryReadData engine ln pc word s) := by
  unfold execMemoryReadData
  exact KeepsBy.of (returned_keeps K h_rcv h_icu h_obs h_cex h_srg h_ods h_kst h_engKeys h_kwe h_pke h_ent h_mem h_link h_sheaf h_dom h_pins h_ac h_vt h_out Ks)

theorem startChild_keeps (K : Keeps P Q) (h_mem : P .mem = true) {b : Rebase} {s : State} (Ks : Q s) : Q (startChild b s) := by
  unfold startChild
  extract_lets +onlyGivenNames x1 x2 x3 x4
  have Kx4 : ∀ b0, Q b0 → Q (x4 b0) := by
    intro b5 b6
    unfold x4
    exact startRead_keeps K h_mem b6
  clear_value x4
  refine Keeps.ite (rebaseNext_keeps K h_mem Ks) ?_
  refine Keeps.ite ?_ ?_
  · extract_lets +onlyGivenNames x7
    exact Keeps.ite (rebaseNext_keeps K h_mem Ks) (Keeps.ite (Kx4 _ Ks) Ks)
  · split
    · extract_lets +onlyGivenNames x8
      have Kx8 : Q x8 := storeCounter_keeps K h_mem Ks
      clear_value x8
      exact rebaseNext_keeps K h_mem (K.mem h_mem Kx8)
    · exact Keeps.ite Ks (Kx4 _ Ks)

theorem execRebaseChildMove_keeps (K : Keeps P Q) (h_rcv : P .rcv = true) (h_icu : P .icu = true) (h_obs : P .obs = true) (h_cex : P .cex = true)
    (h_srg : P .srg = true) (h_ods : P .ods = true) (h_kst : P .kst = true) (h_engKeys : P .engKeys = true) (h_kwe : P .kwe = true)
    (h_pke : P .pke = true) (h_ent : P .ent = true) (h_mem : P .mem = true) (h_link : P .link = true) (h_sheaf : P .sheaf = true)
    (h_dom : P .dom = true) (h_pins : P .pins = true) (h_ac : P .ac = true) (h_vt : P .vt = true) (h_out : P .out = true) {region : BitVec 12}
    {level : BitVec 2} {index : BitVec 33} {old : Bool} {read : LineRead} {s : State} (Ks : Q s)
    : KeepsBy Q (execRebaseChildMove region level index old read s) := by
  unfold execRebaseChildMove
  refine KeepsBy.of ?_
  extract_lets +onlyGivenNames x1
  split
  · exact Ks
  · extract_lets +onlyGivenNames x2
    exact Keeps.ite (returned_keeps K h_rcv h_icu h_obs h_cex h_srg h_ods h_kst h_engKeys h_kwe h_pke h_ent h_mem h_link h_sheaf h_dom h_pins h_ac h_vt h_out Ks) (settleReads_keeps K h_rcv h_icu h_obs h_cex h_srg h_ods h_kst h_engKeys h_kwe h_pke h_ent h_mem h_link h_sheaf h_dom h_pins h_ac h_vt h_out (startChild_keeps K h_mem Ks))

theorem execEraseTimeout_keeps (K : Keeps P Q) (h_rcv : P .rcv = true) (h_icu : P .icu = true) (h_obs : P .obs = true) (h_cex : P .cex = true)
    (h_srg : P .srg = true) (h_ods : P .ods = true) (h_kst : P .kst = true) (h_engKeys : P .engKeys = true) (h_kwe : P .kwe = true)
    (h_pke : P .pke = true) (h_ent : P .ent = true) (h_mem : P .mem = true) (h_link : P .link = true) (h_sheaf : P .sheaf = true)
    (h_dom : P .dom = true) (h_pins : P .pins = true) (h_ac : P .ac = true) (h_vt : P .vt = true) (h_out : P .out = true) {engine : BitVec 4}
    {s : State} (Ks : Q s) : KeepsBy Q (execEraseTimeout engine s) := by
  unfold execEraseTimeout
  exact KeepsBy.of (takeAnswer_keeps K h_rcv h_icu h_obs h_cex h_srg h_ods h_kst h_engKeys h_kwe h_pke h_ent h_mem h_link h_sheaf h_dom h_pins h_ac h_vt h_out Ks)

theorem execEraseResponse_keeps (K : Keeps P Q) (h_rcv : P .rcv = true) (h_icu : P .icu = true) (h_obs : P .obs = true) (h_cex : P .cex = true)
    (h_srg : P .srg = true) (h_ods : P .ods = true) (h_kst : P .kst = true) (h_engKeys : P .engKeys = true) (h_kwe : P .kwe = true)
    (h_pke : P .pke = true) (h_ent : P .ent = true) (h_mem : P .mem = true) (h_link : P .link = true) (h_sheaf : P .sheaf = true)
    (h_dom : P .dom = true) (h_pins : P .pins = true) (h_ac : P .ac = true) (h_vt : P .vt = true) (h_out : P .out = true) {engine : BitVec 4}
    {answer : Option (Line × BitVec 56)} {s : State} (Ks : Q s) : KeepsBy Q (execEraseResponse engine answer s) := by
  unfold execEraseResponse
  exact KeepsBy.of (takeAnswer_keeps K h_rcv h_icu h_obs h_cex h_srg h_ods h_kst h_engKeys h_kwe h_pke h_ent h_mem h_link h_sheaf h_dom h_pins h_ac h_vt h_out Ks)

theorem unparkWrite_keeps (K : Keeps P Q) (h_mem : P .mem = true) {q : Nat} {s : State} (Ks : Q s) : Q (unparkWrite q s) := by
  unfold unparkWrite
  exact K.mem h_mem Ks

theorem execVersionSupply_keeps (K : Keeps P Q) (h_rcv : P .rcv = true) (h_icu : P .icu = true) (h_obs : P .obs = true) (h_cex : P .cex = true)
    (h_srg : P .srg = true) (h_ods : P .ods = true) (h_kst : P .kst = true) (h_engKeys : P .engKeys = true) (h_kwe : P .kwe = true)
    (h_pke : P .pke = true) (h_ent : P .ent = true) (h_mem : P .mem = true) (h_link : P .link = true) (h_sheaf : P .sheaf = true)
    (h_dom : P .dom = true) (h_pins : P .pins = true) (h_ac : P .ac = true) (h_vt : P .vt = true) (h_free : P .free = true) (h_out : P .out = true)
    {engine : BitVec 4} {ln : BitVec 40} {s : State} (Ks : Q s) : KeepsBy Q (execVersionSupply engine ln s) := by
  unfold execVersionSupply
  refine KeepsBy.of ?_
  split
  · exact Ks
  · refine Keeps.ite Ks ?_
    split
    · exact Keeps.ite (fetchMissing_keeps K h_mem Ks) Ks
    · refine Keeps.ite Ks ?_
      extract_lets +onlyGivenNames x1
      have Kx1 : Q x1 := raiseExhausted_keeps K h_rcv h_icu h_obs h_cex h_mem h_out Ks
      clear_value x1
      exact Keeps.ite (settleReads_keeps K h_rcv h_icu h_obs h_cex h_srg h_ods h_kst h_engKeys h_kwe h_pke h_ent h_mem h_link h_sheaf h_dom h_pins h_ac h_vt h_out (settleSheaves_keeps K h_cex h_engKeys h_ent h_sheaf h_free h_out (refuseWrite_keeps K h_rcv h_icu h_obs h_cex h_mem h_out (unparkWrite_keeps K h_mem Kx1)))) (K.mem h_mem Kx1)
    · exact settleReads_keeps K h_rcv h_icu h_obs h_cex h_srg h_ods h_kst h_engKeys h_kwe h_pke h_ent h_mem h_link h_sheaf h_dom h_pins h_ac h_vt h_out (doWrite_keeps K h_cex h_engKeys h_ent h_mem h_sheaf h_free h_out (unparkWrite_keeps K h_mem Ks))

theorem execCounterLineFetchData_keeps (K : Keeps P Q) (h_rcv : P .rcv = true) (h_icu : P .icu = true) (h_obs : P .obs = true) (h_cex : P .cex = true)
    (h_srg : P .srg = true) (h_ods : P .ods = true) (h_kst : P .kst = true) (h_engKeys : P .engKeys = true) (h_kwe : P .kwe = true)
    (h_pke : P .pke = true) (h_ent : P .ent = true) (h_mem : P .mem = true) (h_link : P .link = true) (h_sheaf : P .sheaf = true)
    (h_dom : P .dom = true) (h_pins : P .pins = true) (h_ac : P .ac = true) (h_vt : P .vt = true) (h_out : P .out = true) {region : BitVec 12}
    {level : BitVec 2} {index : BitVec 33} {mirror : Bool} {read : LineRead} {s : State} (Ks : Q s)
    : KeepsBy Q (execCounterLineFetchData region level index mirror read s) := by
  unfold execCounterLineFetchData
  exact KeepsBy.of (returned_keeps K h_rcv h_icu h_obs h_cex h_srg h_ods h_kst h_engKeys h_kwe h_pke h_ent h_mem h_link h_sheaf h_dom h_pins h_ac h_vt h_out Ks)

theorem execMemoryWrite_keeps (K : Keeps P Q) (h_rcv : P .rcv = true) (h_icu : P .icu = true) (h_obs : P .obs = true) (h_cex : P .cex = true)
    (h_engKeys : P .engKeys = true) (h_ent : P .ent = true) (h_mem : P .mem = true) (h_sheaf : P .sheaf = true) (h_free : P .free = true)
    (h_out : P .out = true) {engine : BitVec 4} {req acting : BitVec 5} {pa : BitVec 47} {whole : Bool} {data : Line} {s : State} (Ks : Q s)
    : KeepsBy Q (execMemoryWrite engine req acting pa whole data s) := by
  unfold execMemoryWrite
  exact KeepsBy.of (missionWrite_keeps K h_rcv h_icu h_obs h_cex h_engKeys h_ent h_mem h_sheaf h_free h_out Ks)

theorem settleSave_keeps (K : Keeps P Q) (h_rcv : P .rcv = true) (h_icu : P .icu = true) (h_obs : P .obs = true) (h_cex : P .cex = true)
    (h_mem : P .mem = true) (h_out : P .out = true) {r : Nat} {s : State} (Ks : Q s) : Q (settleSave r s) := by
  unfold settleSave
  extract_lets +onlyGivenNames x1
  split
  · exact Ks
  · refine Keeps.ite Ks ?_
    extract_lets +onlyGivenNames x2
    have Kx2 : Q x2 := updRegion_keeps K h_mem Ks
    clear_value x2
    refine Keeps.ite (finish_keeps K h_cex Kx2) ?_
    extract_lets +onlyGivenNames x3
    have Kx3 : Q x3 := Keeps.ite (raise_keeps K h_cex Kx2) Kx2
    clear_value x3
    exact finish_keeps K h_cex (pend_keeps K h_rcv h_icu h_obs h_out (updRegion_keeps K h_mem Kx3))

theorem execCounterWriteback_keeps (K : Keeps P Q) (h_rcv : P .rcv = true) (h_icu : P .icu = true) (h_obs : P .obs = true) (h_cex : P .cex = true)
    (h_mem : P .mem = true) (h_out : P .out = true) {region : BitVec 12} {level : BitVec 2} {index : BitVec 33} {s : State} (Ks : Q s)
    : KeepsBy Q (execCounterWriteback region level index s) := by
  unfold execCounterWriteback
  refine KeepsBy.of ?_
  split
  · exact Ks
  · exact Keeps.ite (raiseExhausted_keeps K h_rcv h_icu h_obs h_cex h_mem h_out Ks) (Keeps.ite Ks (KeepsOpt.getD Ks (evict_keeps K h_mem Ks)))

end Sys2Proof.Machine
end

