-- ==== Sys2Proof/Laws/KeepsQueues.lean ====
section
/-!
SUPPORT. What the operations of Machine/Queues.lean keep, and which parts they may change (Laws/Keeps.lean).
-/

set_option Elab.async false
namespace Sys2Proof.Machine

variable {P : Part → Bool} {Q : State → Prop}

theorem wakeSync_keeps (K : Keeps P Q) (h_cex : P .cex = true) {slice c : Nat} {s : State} (Ks : Q s) : Q (wakeSync slice c s) := by
  unfold wakeSync
  extract_lets +onlyGivenNames x1 x2 x3
  have Kx3 : Q x3 := Keeps.foldl (fun b4 b5 h6 => finish_keeps K h_cex h6) Ks
  clear_value x3
  exact K.cex h_cex Kx3

theorem enableQueue_keeps (K : Keeps P Q) (h_cex : P .cex = true) {n : Nat} {s : State} (Ks : Q s) : Q (enableQueue n s) := by
  unfold enableQueue
  exact updQ_keeps K h_cex Ks

theorem clearCapture_keeps (K : Keeps P Q) (h_rcv : P .rcv = true) (h_cex : P .cex = true) {q : Nat} {s : State} (Ks : Q s)
    : Q (clearCapture q s) := by
  unfold clearCapture
  extract_lets +onlyGivenNames x1
  have Kx1 : Q x1 := updQ_keeps K h_cex Ks
  clear_value x1
  exact K.rcv h_rcv (fun h => h) Kx1

theorem killParked_keeps (K : Keeps P Q) (h_cex : P .cex = true) {q : Nat} {s : State} (Ks : Q s) : Q (killParked q s) := by
  unfold killParked
  exact Keeps.foldl (fun b1 b2 h3 => Keeps.ite (finish_keeps K h_cex (updFlight_keeps K h_cex h3)) h3) Ks

theorem disableQueue_keeps (K : Keeps P Q) (h_rcv : P .rcv = true) (h_cex : P .cex = true) {n : Nat} {s : State} (Ks : Q s)
    : Q (disableQueue n s) := by
  unfold disableQueue
  extract_lets +onlyGivenNames x1
  refine Keeps.ite ?_ Ks
  extract_lets +onlyGivenNames x2
  have Kx2 : Q x2 := Keeps.ite (clearCapture_keeps K h_rcv h_cex (killParked_keeps K h_cex Ks)) Ks
  clear_value x2
  exact updQ_keeps K h_cex Kx2

theorem queueEnableWrite_keeps (K : Keeps P Q) (h_rcv : P .rcv = true) (h_cex : P .cex = true) {queue : BitVec 6} {on : Bool} {s : State} (Ks : Q s)
    : Q (queueEnableWrite queue on s).1 := by
  unfold queueEnableWrite
  extract_lets +onlyGivenNames x1
  refine Keeps.ite1 ?_ (Keeps.ite1 Ks (Keeps.p1 (disableQueue_keeps K h_rcv h_cex Ks)))
  split
  · exact Ks
  · exact Keeps.p1 (enableQueue_keeps K h_cex Ks)

theorem execQueueEnable_keeps (K : Keeps P Q) (h_rcv : P .rcv = true) (h_cex : P .cex = true) (h_ods : P .ods = true) (h_out : P .out = true)
    {who : Principal} {queue : BitVec 6} {on : Bool} {s : State} (Ks : Q s) : KeepsBy Q (execQueueEnable who queue on s) := by
  unfold execQueueEnable
  exact KeepsBy.of (dictWrite_keeps K h_ods h_out Ks (fun b1 h2 => queueEnableWrite_keeps K h_rcv h_cex h2))

theorem unhalt_keeps (K : Keeps P Q) (h_rcv : P .rcv = true) (h_cex : P .cex = true) {n : Nat} {s : State} (Ks : Q s) : Q (unhalt n s) := by
  unfold unhalt
  exact updQ_keeps K h_cex (clearCapture_keeps K h_rcv h_cex Ks)

theorem queueSkipWrite_keeps (K : Keeps P Q) (h_rcv : P .rcv = true) (h_cex : P .cex = true) {who : Principal} {queue : BitVec 6} {s : State} (Ks
    : Q s) : Q (queueSkipWrite who queue s).1 := by
  unfold queueSkipWrite
  extract_lets +onlyGivenNames x1 x2
  refine Keeps.ite1 Ks ?_
  refine Keeps.ite1 Ks ?_
  extract_lets +onlyGivenNames x3
  have Kx3 : Q x3 := by
    unfold x3
    split
    · exact finish_keeps K h_cex Ks
    · exact Ks
  clear_value x3
  exact Keeps.p1 (unhalt_keeps K h_rcv h_cex Kx3)

theorem compatEnd_keeps (K : Keeps P Q) (h_cex : P .cex = true) {k : CmdKey} {raw : BitVec 512} {engine : Nat} {s : State} (Ks : Q s)
    : Q (compatEnd k raw engine s) := by
  unfold compatEnd
  extract_lets +onlyGivenNames x1
  have Kx1 : Q x1 := finish_keeps K h_cex Ks
  clear_value x1
  exact raise1_keeps K h_cex Kx1

theorem postDue_keeps (K : Keeps P Q) (h_cex : P .cex = true) {q : Nat} {a : List Flight} {a2 : State} (Ka2 : Q a2) : Q (postDue q a a2) := by
  induction a generalizing q a2 with
  | nil =>
    unfold postDue
    exact Ka2
  | cons x l ih =>
    unfold postDue
    refine Keeps.ite ?_ (Keeps.ite Ka2 (ih Ka2))
    extract_lets +onlyGivenNames x1
    have Kx1 : Q x1 := Keeps.ite Ka2 (Keeps.ite (queueRecord_keeps K h_cex (updFlight_keeps K h_cex Ka2)) (updFlight_keeps K h_cex Ka2))
    clear_value x1
    exact ih Kx1

theorem drainQueue_keeps (K : Keeps P Q) (h_cex : P .cex = true) {q : Nat} {s : State} (Ks : Q s) : Q (drainQueue q s) := by
  unfold drainQueue
  extract_lets +onlyGivenNames x1
  have Kx1 : Q x1 := postDue_keeps K h_cex Ks
  clear_value x1
  exact updQ_keeps K h_cex Kx1

theorem fwdDone_keeps (K : Keeps P Q) (h_icu : P .icu = true) {w : EvWait} {status : Nat} {s : State} (Ks : Q s) : Q (fwdDone w status s) := by
  unfold fwdDone
  split
  · exact Ks
  · exact K.icu h_icu (fun n => NestOk.of_set rfl (n _) n) Ks

theorem signalRing_keeps (K : Keeps P Q) (h_cex : P .cex = true) (h_out : P .out = true) {ring : Nat} {s : State} (Ks : Q s)
    : Q (signalRing ring s) := by
  unfold signalRing
  extract_lets +onlyGivenNames x1 x2 x3
  have Kx3 : Q x3 := K.cex h_cex Ks
  clear_value x3
  exact msix_keeps K h_cex h_out Kx3

theorem writeRecord_keeps (K : Keeps P Q) (h_icu : P .icu = true) (h_cex : P .cex = true) (h_out : P .out = true) {ring : Nat} {w : EvWait}
    {s : State} (Ks : Q s) : Q (writeRecord ring w s) := by
  unfold writeRecord
  extract_lets +onlyGivenNames x1 x2
  have Kx2 : Q x2 := State.emit_keeps K h_out Ks
  clear_value x2
  extract_lets +onlyGivenNames x3 x4 x5
  have Kx5 : Q x5 := K.cex h_cex Kx2
  clear_value x5
  extract_lets +onlyGivenNames x6
  have Kx6 : Q x6 := by
    unfold x6
    split
    · exact drainQueue_keeps K h_cex (updFlight_keeps K h_cex Kx5)
    · exact Kx5
  clear_value x6
  extract_lets +onlyGivenNames x7
  have Kx7 : Q x7 := fwdDone_keeps K h_icu Kx6
  clear_value x7
  exact Keeps.ite (signalRing_keeps K h_cex h_out Kx7) Kx7

theorem queueResumeWrite_keeps (K : Keeps P Q) (h_rcv : P .rcv = true) (h_icu : P .icu = true) (h_obs : P .obs = true) (h_cex : P .cex = true)
    (h_srg : P .srg = true) (h_out : P .out = true) {who : Principal} {queue : BitVec 6} {s : State} (Ks : Q s)
    : Q (queueResumeWrite who queue s).1 := by
  unfold queueResumeWrite
  extract_lets +onlyGivenNames x1 x2
  refine Keeps.ite1 Ks ?_
  refine Keeps.ite1 Ks ?_
  extract_lets +onlyGivenNames x3
  have Kx3 : Q x3 := by
    unfold x3
    split
    · exact settle1_keeps K h_rcv h_icu h_obs h_cex h_srg h_out (updFlight_keeps K h_cex Ks)
    · exact Ks
  clear_value x3
  exact Keeps.p1 (unhalt_keeps K h_rcv h_cex Kx3)

theorem execQueueResume_keeps (K : Keeps P Q) (h_rcv : P .rcv = true) (h_icu : P .icu = true) (h_obs : P .obs = true) (h_cex : P .cex = true)
    (h_srg : P .srg = true) (h_ods : P .ods = true) (h_out : P .out = true) {who : Principal} {queue : BitVec 6} {s : State} (Ks : Q s)
    : KeepsBy Q (execQueueResume who queue s) := by
  unfold execQueueResume
  exact KeepsBy.of (dictWrite_keeps K h_ods h_out Ks (fun b1 h2 => queueResumeWrite_keeps K h_rcv h_icu h_obs h_cex h_srg h_out h2))

theorem execCompatTimeout_keeps (K : Keeps P Q) (h_cex : P .cex = true) {key : CmdKey} {busy : Bool} {s : State} (Ks : Q s)
    : KeepsBy Q (execCompatTimeout key busy s) := by
  unfold execCompatTimeout
  refine KeepsBy.of ?_
  split
  · exact Ks
  · exact Keeps.ite Ks (Keeps.ite (updFlight_keeps K h_cex Ks) (compatEnd_keeps K h_cex Ks))

theorem signalCounter_keeps (K : Keeps P Q) (h_cex : P .cex = true) {slice c : Nat} {v : BitVec 64} {ctx : Nat} {s : State} (Ks : Q s)
    : Q (signalCounter slice c v ctx s) := by
  unfold signalCounter
  exact K.cex h_cex Ks

theorem settleHolds_keeps (K : Keeps P Q) (h_cex : P .cex = true) {s : State} (Ks : Q s) : Q (settleHolds s) := by
  unfold settleHolds
  extract_lets +onlyGivenNames x1 x2
  have Kx2 : Q x2 := K.cex h_cex Ks
  clear_value x2
  extract_lets +onlyGivenNames x3 x4 x5
  have Kx5 : Q x5 := K.cex h_cex Kx2
  clear_value x5
  refine Keeps.foldl ?_ Kx5
  intro b6 b7 h8
  extract_lets +onlyGivenNames x9 x10
  have Kx10 : Q x10 := by
    unfold x10
    split
    · exact wakeSync_keeps K h_cex (signalCounter_keeps K h_cex h8)
    · exact h8
  clear_value x10
  exact finish_keeps K h_cex (K.cex h_cex Kx10)

theorem addHold_keeps (K : Keeps P Q) (h_cex : P .cex = true) {f : FenceHold} {s : State} (Ks : Q s) : Q (addHold f s) := by
  unfold addHold
  exact settleHolds_keeps K h_cex (K.cex h_cex Ks)

theorem endLaunches_keeps (K : Keeps P Q) (h_cex : P .cex = true) {n : Nat} {s : State} (Ks : Q s) : Q (endLaunches n s) := by
  unfold endLaunches
  extract_lets +onlyGivenNames x1
  refine Keeps.foldl ?_ Ks
  intro b2 b3 h4
  extract_lets +onlyGivenNames x5
  have Kx5 : Q x5 := finish_keeps K h_cex h4
  clear_value x5
  extract_lets +onlyGivenNames x6 x7
  have Kx7 : Q x7 := by
    unfold x7
    split
    · exact K.cex h_cex Kx5
    · exact Kx5
  clear_value x7
  exact updQ_keeps K h_cex Kx7

theorem completeCmd_keeps (K : Keeps P Q) (h_rcv : P .rcv = true) (h_icu : P .icu = true) (h_obs : P .obs = true) (h_cex : P .cex = true)
    (h_srg : P .srg = true) (h_out : P .out = true) {k : CmdKey} {s : State} (Ks : Q s) : Q (completeCmd k s) := by
  unfold completeCmd
  split
  · exact Ks
  · refine Keeps.ite Ks ?_
    extract_lets +onlyGivenNames x1 x2
    have Kx2 : Q x2 := updFlight_keeps K h_cex Ks
    clear_value x2
    extract_lets +onlyGivenNames x3
    have Kx3 : Q x3 := endLaunches_keeps K h_cex (updQ_keeps K h_cex Kx2)
    clear_value x3
    extract_lets +onlyGivenNames x4
    have Kx4 : Q x4 := settleHolds_keeps K h_cex (settle_keeps K h_rcv h_icu h_obs h_cex h_srg h_out Kx3)
    clear_value x4
    exact drainQueue_keeps K h_cex Kx4

theorem execCommandCompletion_keeps (K : Keeps P Q) (h_rcv : P .rcv = true) (h_icu : P .icu = true) (h_obs : P .obs = true) (h_cex : P .cex = true)
    (h_srg : P .srg = true) (h_out : P .out = true) {key : CmdKey} {s : State} (Ks : Q s) : KeepsBy Q (execCommandCompletion key s) := by
  unfold execCommandCompletion
  exact KeepsBy.of (completeCmd_keeps K h_rcv h_icu h_obs h_cex h_srg h_out Ks)

theorem dropRecord_keeps (K : Keeps P Q) (h_icu : P .icu = true) (h_obs : P .obs = true) (h_cex : P .cex = true) {ring : Nat} {w : EvWait} {s : State}
    (Ks : Q s) : Q (dropRecord ring w s) := by
  unfold dropRecord
  extract_lets +onlyGivenNames x1 x2
  have Kx2 : Q x2 := K.cex h_cex Ks
  clear_value x2
  exact fwdDone_keeps K h_icu (obsAdd_keeps K h_obs Kx2)

theorem postOne_keeps (K : Keeps P Q) (h_rcv : P .rcv = true) (h_icu : P .icu = true) (h_obs : P .obs = true) (h_cex : P .cex = true)
    (h_xlt : P .xlt = true) (h_out : P .out = true) {ring : Nat} {pre : List EvWait} {w : EvWait} {post : List EvWait} {x : Option XFault} {s : State}
    (Ks : Q s) : Q (postOne ring pre w post x s) := by
  unfold postOne
  extract_lets +onlyGivenNames x1 x2
  have Kx2 : ∀ b0 b1, Q b1 → Q (x2 b0 b1) := by
    intro b3 b4 b5
    unfold x2
    exact K.cex h_cex b5
  clear_value x2
  extract_lets +onlyGivenNames x6
  refine Keeps.ite (Kx2 _ _ Ks) ?_
  refine Keeps.ite (dropRecord_keeps K h_icu h_obs h_cex (Kx2 _ _ Ks)) ?_
  split
  · exact writeRecord_keeps K h_icu h_cex h_out (Kx2 _ _ Ks)
  · extract_lets +onlyGivenNames x7 x8
    have Kx8 : Q x8 := Kx2 _ _ Ks
    clear_value x8
    extract_lets +onlyGivenNames x9 x10 x11
    have Kx11 : Q x11 := K.upd Kx8 (h_cex := .inr h_cex) (h_xlt := .inr h_xlt)
    clear_value x11
    extract_lets +onlyGivenNames x12
    have Kx12 : Q x12 := logError_keeps K h_rcv h_icu h_obs h_out Kx11
    clear_value x12
    exact Keeps.ite Kx12 (dropRecord_keeps K h_icu h_obs h_cex Kx12)

theorem postRing_keeps (K : Keeps P Q) (h_rcv : P .rcv = true) (h_icu : P .icu = true) (h_obs : P .obs = true) (h_cex : P .cex = true)
    (h_xlt : P .xlt = true) (h_out : P .out = true) {ring : Nat} {x : Option XFault} {s : State} (Ks : Q s) : Q (postRing ring x s) := by
  unfold postRing
  split
  · exact Ks
  · exact postOne_keeps K h_rcv h_icu h_obs h_cex h_xlt h_out Ks

theorem execEventReadIndexWrite_keeps (K : Keeps P Q) (h_rcv : P .rcv = true) (h_icu : P .icu = true) (h_obs : P .obs = true) (h_cex : P .cex = true)
    (h_xlt : P .xlt = true) (h_out : P .out = true) {ring : BitVec 5} {index : BitVec 32} {s : State} (Ks : Q s)
    : KeepsBy Q (execEventReadIndexWrite ring index s) := by
  unfold execEventReadIndexWrite
  refine KeepsBy.of ?_
  extract_lets +onlyGivenNames x1 x2 x3
  refine Keeps.ite Ks ?_
  extract_lets +onlyGivenNames x4 x5
  have Kx5 : Q x5 := K.cex h_cex Ks
  clear_value x5
  exact Keeps.foldl (fun b6 b7 h8 => postRing_keeps K h_rcv h_icu h_obs h_cex h_xlt h_out h8) Kx5

theorem execDoorbell_keeps (K : Keeps P Q) (h_rcv : P .rcv = true) (h_icu : P .icu = true) (h_obs : P .obs = true) (h_cex : P .cex = true)
    (h_out : P .out = true) {queue : BitVec 6} {value : BitVec 64} {s : State} (Ks : Q s) : KeepsBy Q (execDoorbell queue value s) := by
  unfold execDoorbell
  refine KeepsBy.of ?_
  extract_lets +onlyGivenNames x1 x2 x3
  exact Keeps.ite Ks (Keeps.ite (logError_keeps K h_rcv h_icu h_obs h_out Ks) (Keeps.ite (queueFault_keeps K h_rcv h_obs h_cex Ks) (updQ_keeps K h_cex Ks)))

theorem fetchFault_keeps (K : Keeps P Q) (h_rcv : P .rcv = true) (h_obs : P .obs = true) (h_cex : P .cex = true) (h_xlt : P .xlt = true) {k : CmdKey}
    {x : XFault} {s : State} (Ks : Q s) : Q (fetchFault k x s) := by
  unfold fetchFault
  extract_lets +onlyGivenNames x1 x2 x3 x4 x5
  have Kx5 : Q x5 := K.xlt h_xlt Ks
  clear_value x5
  extract_lets +onlyGivenNames x6
  refine Keeps.ite ?_ (queueFault_keeps K h_rcv h_obs h_cex Kx5)
  extract_lets +onlyGivenNames x7 x8
  have Kx8 : Q x8 := queueFault_keeps K h_rcv h_obs h_cex Kx5
  clear_value x8
  exact updQ_keeps K h_cex Kx8

theorem takeFetched_keeps (K : Keeps P Q) (h_rcv : P .rcv = true) (h_icu : P .icu = true) (h_obs : P .obs = true) (h_cex : P .cex = true)
    (h_srg : P .srg = true) (h_out : P .out = true) {k : CmdKey} {raw : BitVec 512} {s : State} (Ks : Q s) : Q (takeFetched k raw s) := by
  unfold takeFetched
  extract_lets +onlyGivenNames x1 x2 x3 x4
  have Kx4 : Q x4 := updQ_keeps K h_cex Ks
  clear_value x4
  split
  · clear_value x3
    split
    · exact faultCommand_keeps K h_rcv h_obs h_cex Kx4
    · exact finish_keeps K h_cex Kx4
    · refine Keeps.ite ?_ (settle1_keeps K h_rcv h_icu h_obs h_cex h_srg h_out Kx4)
      extract_lets +onlyGivenNames x5
      have Kx5 : Q x5 := updFlight_keeps K h_cex Kx4
      clear_value x5
      exact Keeps.ite (pend_keeps K h_rcv h_icu h_obs h_out Kx5) Kx5
  · clear_value x3
    split
    · exact faultCommand_keeps K h_rcv h_obs h_cex Kx4
    · exact finish_keeps K h_cex Kx4
    · refine Keeps.ite ?_ (settle1_keeps K h_rcv h_icu h_obs h_cex h_srg h_out Kx4)
      extract_lets +onlyGivenNames x6
      have Kx6 : Q x6 := updFlight_keeps K h_cex Kx4
      clear_value x6
      exact Keeps.ite (pend_keeps K h_rcv h_icu h_obs h_out Kx6) Kx6

theorem execCommandFetch_keeps (K : Keeps P Q) (h_rcv : P .rcv = true) (h_icu : P .icu = true) (h_obs : P .obs = true) (h_cex : P .cex = true)
    (h_xlt : P .xlt = true) (h_srg : P .srg = true) (h_out : P .out = true) {key : CmdKey} {x : Option XFault} {raw : BitVec 512} {s : State} (Ks
    : Q s) : KeepsBy Q (execCommandFetch key x raw s) := by
  unfold execCommandFetch
  refine KeepsBy.of ?_
  extract_lets +onlyGivenNames x1 x2
  refine Keeps.ite Ks ?_
  refine Keeps.ite ?_ ?_
  · refine Keeps.ite Ks ?_
    refine Keeps.ite (updQ_keeps K h_cex Ks) ?_
    refine Keeps.ite Ks ?_
    split
    · exact fetchFault_keeps K h_rcv h_obs h_cex h_xlt Ks
    · exact Keeps.ite Ks (takeFetched_keeps K h_rcv h_icu h_obs h_cex h_srg h_out (updQ_keeps K h_cex Ks))
  · split
    · exact Ks
    · refine Keeps.ite Ks ?_
      extract_lets +onlyGivenNames x3
      have Kx3 : ∀ b0, Q b0 → Q (x3 b0) := by
        intro b4 b5
        unfold x3
        exact updQ_keeps K h_cex b5
      clear_value x3
      split
      · exact Keeps.ite Ks (takeFetched_keeps K h_rcv h_icu h_obs h_cex h_srg h_out (Kx3 _ Ks))
      · exact fetchFault_keeps K h_rcv h_obs h_cex h_xlt Ks
      · exact Keeps.ite Ks (takeFetched_keeps K h_rcv h_icu h_obs h_cex h_srg h_out (Kx3 _ Ks))

theorem execQueueSkip_keeps (K : Keeps P Q) (h_rcv : P .rcv = true) (h_cex : P .cex = true) (h_ods : P .ods = true) (h_out : P .out = true)
    {who : Principal} {queue : BitVec 6} {s : State} (Ks : Q s) : KeepsBy Q (execQueueSkip who queue s) := by
  unfold execQueueSkip
  exact KeepsBy.of (dictWrite_keeps K h_ods h_out Ks (fun b1 h2 => queueSkipWrite_keeps K h_rcv h_cex h2))

theorem ringBaseWrite_keeps (K : Keeps P Q) (h_cex : P .cex = true) {who : Principal} {ring : BitVec 5} {base : BitVec 64} {s : State} (Ks : Q s)
    : Q (ringBaseWrite who ring base s).1 := by
  unfold ringBaseWrite
  extract_lets +onlyGivenNames x1 x2
  exact Keeps.ite1 Ks (Keeps.ite1 Ks (Keeps.ite1 Ks (Keeps.ite1 Ks (Keeps.p1 (K.cex h_cex Ks)))))

theorem execEventRingBaseWrite_keeps (K : Keeps P Q) (h_cex : P .cex = true) (h_ods : P .ods = true) (h_out : P .out = true) {who : Principal}
    {ring : BitVec 5} {base : BitVec 64} {s : State} (Ks : Q s) : KeepsBy Q (execEventRingBaseWrite who ring base s) := by
  unfold execEventRingBaseWrite
  exact KeepsBy.of (dictWrite_keeps K h_ods h_out Ks (fun b1 h2 => ringBaseWrite_keeps K h_cex h2))

theorem execEventModerationExpiry_keeps (K : Keeps P Q) (h_cex : P .cex = true) (h_out : P .out = true) {ring : BitVec 5} {s : State} (Ks : Q s)
    : KeepsBy Q (execEventModerationExpiry ring s) := by
  unfold execEventModerationExpiry
  exact KeepsBy.of (Keeps.ite (signalRing_keeps K h_cex h_out Ks) Ks)

theorem execEventPost_keeps (K : Keeps P Q) (h_rcv : P .rcv = true) (h_icu : P .icu = true) (h_obs : P .obs = true) (h_cex : P .cex = true)
    (h_xlt : P .xlt = true) (h_out : P .out = true) {ring : BitVec 5} {x : Option XFault} {s : State} (Ks : Q s)
    : KeepsBy Q (execEventPost ring x s) := by
  unfold execEventPost
  exact KeepsBy.of (Keeps.ite Ks (postRing_keeps K h_rcv h_icu h_obs h_cex h_xlt h_out Ks))

theorem endWait_keeps (K : Keeps P Q) (h_cex : P .cex = true) {k : CmdKey} {status detail : Nat} {s : State} (Ks : Q s)
    : Q (endWait k status detail s) := by
  unfold endWait
  exact finish_keeps K h_cex (K.cex h_cex Ks)

theorem throughGate_keeps (K : Keeps P Q) (h_cex : P .cex = true) {k : CmdKey} {sl detail : Nat} {s : State} (Ks : Q s)
    : Q (throughGate k sl detail s) := by
  unfold throughGate
  exact Keeps.ite Ks (addHold_keeps K h_cex Ks)

theorem addWait_keeps (K : Keeps P Q) (h_cex : P .cex = true) {w : WaitRec} {s : State} (Ks : Q s) : Q (addWait w s) := by
  unfold addWait
  exact K.cex h_cex Ks

end Sys2Proof.Machine
end

