-- ==== Sys2Proof/Laws/KeepsRegions.lean ====
section
/-!
SUPPORT. What the operations of Machine/Regions.lean keep, and which parts they may change (Laws/Keeps.lean).
-/

set_option Elab.async false
namespace Sys2Proof.Machine

variable {P : Part → Bool} {Q : State → Prop}

theorem execRegionZeroFillDone_keeps (K : Keeps P Q) (h_cex : P .cex = true) (h_mem : P .mem = true) {region : BitVec 12} {s : State} (Ks : Q s)
    : KeepsBy Q (execRegionZeroFillDone region s) := by
  unfold execRegionZeroFillDone
  refine KeepsBy.of ?_
  extract_lets +onlyGivenNames x1 x2
  refine Keeps.ite Ks ?_
  extract_lets +onlyGivenNames x3
  have Kx3 : Q x3 := updRegion_keeps K h_mem Ks
  clear_value x3
  split
  · exact finish_keeps K h_cex Kx3
  · exact Kx3

theorem execRegionGrant_keeps (K : Keeps P Q) (h_cex : P .cex = true) (h_srg : P .srg = true) (h_mem : P .mem = true) {h : CmdHdr}
    {region : BitVec 16} {grantee : BitVec 8} {s : State} (Ks : Q s) : KeepsBy Q (execRegionGrant h region grantee s) := by
  unfold execRegionGrant
  refine KeepsBy.of ?_
  refine cexRun_keeps K h_cex h_srg Ks ?_
  intro b1 h2
  extract_lets +onlyGivenNames x3 x4 x5
  exact checked_keeps K h_cex h2 (fun b6 h7 => finish_keeps K h_cex (updRegion_keeps K h_mem h7))

theorem leaveSheaf_keeps (K : Keeps P Q) (h_sheaf : P .sheaf = true) {r : Nat} {s : State} (Ks : Q s) : Q (leaveSheaf r s) := by
  unfold leaveSheaf
  exact K.sheaf h_sheaf Ks

theorem raiseOverwrite_keeps (K : Keeps P Q) (h_cex : P .cex = true) {r extra : Nat} {s : State} (Ks : Q s) : Q (raiseOverwrite r extra s) := by
  unfold raiseOverwrite
  exact raise_keeps K h_cex Ks

theorem execSaveDiscard_keeps (K : Keeps P Q) (h_rcv : P .rcv = true) (h_icu : P .icu = true) (h_obs : P .obs = true) (h_cex : P .cex = true)
    (h_srg : P .srg = true) (h_mem : P .mem = true) (h_out : P .out = true) {h : CmdHdr} {region : BitVec 16} {s : State} (Ks : Q s)
    : KeepsBy Q (execSaveDiscard h region s) := by
  unfold execSaveDiscard
  refine KeepsBy.of ?_
  refine cexRun_keeps K h_cex h_srg Ks ?_
  intro b1 h2
  extract_lets +onlyGivenNames x3
  exact checked_keeps K h_cex h2 (fun b4 h5 => finish_keeps K h_cex (pend_keeps K h_rcv h_icu h_obs h_out (updRegion_keeps K h_mem h5)))

theorem zeroLine_keeps (K : Keeps P Q) (h_mem : P .mem = true) {r level : Nat} {mirror : Bool} {s : State} {i : Nat} (Ks : Q s)
    : Q (zeroLine r level mirror s i) := by
  unfold zeroLine
  extract_lets +onlyGivenNames x1 x2 x3
  exact Keeps.ite (writeLine_keeps K h_mem Ks) (storeProtected_keeps K h_mem Ks)

theorem zeroFill_keeps (K : Keeps P Q) (h_mem : P .mem = true) {r : Nat} {s : State} (Ks : Q s) : Q (zeroFill r s) := by
  unfold zeroFill
  extract_lets +onlyGivenNames x1 x2
  have Kx2 : ∀ b0 b1 b2, Q b2 → Q (x2 b0 b1 b2) := by
    intro b3 b4 b5 b6
    unfold x2
    exact Keeps.foldl (fun b7 b8 h9 => zeroLine_keeps K h_mem h9) b6
  clear_value x2
  extract_lets +onlyGivenNames x10
  have Kx10 : Q x10 := Kx2 _ _ _ Ks
  clear_value x10
  exact Keeps.ite (Kx2 _ _ _ (Kx2 _ _ _ (Kx2 _ _ _ (Kx2 _ _ _ (Kx2 _ _ _ Kx10))))) Kx10

theorem defineRegion_keeps (K : Keeps P Q) (h_cex : P .cex = true) (h_engKeys : P .engKeys = true) (h_kwe : P .kwe = true) (h_ent : P .ent = true)
    (h_mem : P .mem = true) {h : CmdHdr} {r : Nat} {x : Region} {zero : Bool} {s : State} (Ks : Q s) : Q (defineRegion h r x zero s) := by
  unfold defineRegion
  extract_lets +onlyGivenNames x1 x2 x3 x4
  have Kx4 : Q x4 := K.mem h_mem Ks
  clear_value x4
  extract_lets +onlyGivenNames x5
  have Kx5 : Q x5 := Keeps.ite Kx4 (loadRegionKeys_keeps K h_engKeys h_kwe h_ent Kx4)
  clear_value x5
  exact Keeps.ite (zeroFill_keeps K h_mem Kx5) (finish_keeps K h_cex Kx5)

theorem execRegionDefine_keeps (K : Keeps P Q) (h_cex : P .cex = true) (h_srg : P .srg = true) (h_engKeys : P .engKeys = true) (h_kwe : P .kwe = true)
    (h_ent : P .ent = true) (h_mem : P .mem = true) {h : CmdHdr} {region ctrl : BitVec 16} {epoch : BitVec 32} {base metaBase mirrorBase : BitVec 40}
    {pages : BitVec 32} {keyData keyTweak keyTag crownFirst : BitVec 16} {s : State} (Ks : Q s)
    : KeepsBy Q (execRegionDefine h region ctrl epoch base metaBase mirrorBase pages keyData keyTweak keyTag crownFirst s) := by
  unfold execRegionDefine
  refine KeepsBy.of ?_
  refine cexRun_keeps K h_cex h_srg Ks ?_
  intro b1 h2
  extract_lets +onlyGivenNames x3 x4 x5 x6
  exact checked_keeps K h_cex h2 (fun b7 h8 => defineRegion_keeps K h_cex h_engKeys h_kwe h_ent h_mem h8)

theorem settleKeyFences_keeps (K : Keeps P Q) (h_cex : P .cex = true) {r : Nat} {s : State} (Ks : Q s) : Q (settleKeyFences r s) := by
  unfold settleKeyFences
  extract_lets +onlyGivenNames x1 x2 x3
  exact Keeps.foldl (fun b4 b5 h6 => Keeps.ite (throughGate_keeps K h_cex h6) (endWait_keeps K h_cex h6)) Ks

theorem execRegionDescriptorFreed_keeps (K : Keeps P Q) (h_cex : P .cex = true) (h_engKeys : P .engKeys = true) (h_mem : P .mem = true)
    {region : BitVec 12} {s : State} (Ks : Q s) : KeepsBy Q (execRegionDescriptorFreed region s) := by
  unfold execRegionDescriptorFreed
  refine KeepsBy.of ?_
  extract_lets +onlyGivenNames x1 x2
  refine Keeps.ite Ks ?_
  extract_lets +onlyGivenNames x3
  have Kx3 : Q x3 := freePlough_keeps K h_engKeys h_mem Ks
  clear_value x3
  extract_lets +onlyGivenNames x4 x5
  have Kx5 : Q x5 := K.mem h_mem Kx3
  clear_value x5
  exact Keeps.foldl (fun b6 b7 h8 => finish_keeps K h_cex h8) (clearRegionKeys_keeps K h_engKeys Kx5)

theorem execRegionRevoke_keeps (K : Keeps P Q) (h_cex : P .cex = true) (h_srg : P .srg = true) (h_mem : P .mem = true) {h : CmdHdr}
    {region : BitVec 16} {grantee : BitVec 8} {s : State} (Ks : Q s) : KeepsBy Q (execRegionRevoke h region grantee s) := by
  unfold execRegionRevoke
  refine KeepsBy.of ?_
  refine cexRun_keeps K h_cex h_srg Ks ?_
  intro b1 h2
  extract_lets +onlyGivenNames x3 x4
  exact checked_keeps K h_cex h2 (fun b5 h6 => finish_keeps K h_cex (updRegion_keeps K h_mem h6))

theorem execFallowRead_keeps (K : Keeps P Q) (h_rcv : P .rcv = true) (h_obs : P .obs = true) (h_cex : P .cex = true) (h_xlt : P .xlt = true)
    (h_srg : P .srg = true) (h_out : P .out = true) {h : CmdHdr} {bva : BitVec 64} {x : Option XFault} {s : State} (Ks : Q s)
    : KeepsBy Q (execFallowRead h bva x s) := by
  unfold execFallowRead
  refine KeepsBy.of ?_
  refine cexRun_keeps K h_cex h_srg Ks ?_
  intro b1 h2
  refine checked_keeps K h_cex h2 ?_
  intro b3 h4
  split
  · exact xltFault_keeps K h_rcv h_obs h_cex h_xlt h4
  · extract_lets +onlyGivenNames x5
    exact finish_keeps K h_cex (State.emit_keeps K h_out h4)

theorem execPageRetire_keeps (K : Keeps P Q) (h_cex : P .cex = true) (h_srg : P .srg = true) (h_mem : P .mem = true) {h : CmdHdr}
    {entry opt : BitVec 8} {s : State} (Ks : Q s) : KeepsBy Q (execPageRetire h entry opt s) := by
  unfold execPageRetire
  refine KeepsBy.of ?_
  refine cexRun_keeps K h_cex h_srg Ks ?_
  intro b1 h2
  extract_lets +onlyGivenNames x3 x4 x5
  exact checked_keeps K h_cex h2 (fun b6 h7 => finish_keeps K h_cex (K.mem h_mem h7))

theorem retireRegion_keeps (K : Keeps P Q) (h_rcv : P .rcv = true) (h_icu : P .icu = true) (h_obs : P .obs = true) (h_cex : P .cex = true)
    (h_engKeys : P .engKeys = true) (h_ent : P .ent = true) (h_mem : P .mem = true) (h_sheaf : P .sheaf = true) (h_free : P .free = true)
    (h_out : P .out = true) {r : Nat} {k : CmdKey} {s : State} (Ks : Q s) : Q (retireRegion r k s) := by
  unfold retireRegion
  extract_lets +onlyGivenNames x1 x2 x3 x4
  have Kx4 : Q x4 := dropReads_keeps K h_mem (K.mem h_mem Ks)
  clear_value x4
  extract_lets +onlyGivenNames x5
  have Kx5 : Q x5 := settleSheaves_keeps K h_cex h_engKeys h_ent h_sheaf h_free h_out (Keeps.foldl (fun b6 b7 h8 => refuseWrite_keeps K h_rcv h_icu h_obs h_cex h_mem h_out h8) Kx4)
  clear_value x5
  extract_lets +onlyGivenNames x9
  have Kx9 : Q x9 := by
    unfold x9
    split
    · exact finish_keeps K h_cex Kx5
    · exact Kx5
  clear_value x9
  extract_lets +onlyGivenNames x10
  have Kx10 : Q x10 := updRegion_keeps K h_mem (leaveSheaf_keeps K h_sheaf Kx9)
  clear_value x10
  exact settleKeyFences_keeps K h_cex (settlePlough_keeps K h_rcv h_icu h_obs h_cex h_mem h_out (updPlough_keeps K h_mem Kx10))

theorem execRegionRetire_keeps (K : Keeps P Q) (h_rcv : P .rcv = true) (h_icu : P .icu = true) (h_obs : P .obs = true) (h_cex : P .cex = true)
    (h_srg : P .srg = true) (h_engKeys : P .engKeys = true) (h_ent : P .ent = true) (h_mem : P .mem = true) (h_sheaf : P .sheaf = true)
    (h_free : P .free = true) (h_out : P .out = true) {h : CmdHdr} {region : BitVec 16} {s : State} (Ks : Q s)
    : KeepsBy Q (execRegionRetire h region s) := by
  unfold execRegionRetire
  refine KeepsBy.of ?_
  refine cexRun_keeps K h_cex h_srg Ks ?_
  intro b1 h2
  extract_lets +onlyGivenNames x3
  exact checked_keeps K h_cex h2 (fun b4 h5 => Keeps.ite (updRegion_keeps K h_mem h5) (retireRegion_keeps K h_rcv h_icu h_obs h_cex h_engKeys h_ent h_mem h_sheaf h_free h_out h5))

theorem execSaveEnd_keeps (K : Keeps P Q) (h_rcv : P .rcv = true) (h_icu : P .icu = true) (h_obs : P .obs = true) (h_cex : P .cex = true)
    (h_srg : P .srg = true) (h_mem : P .mem = true) (h_out : P .out = true) {h : CmdHdr} {region : BitVec 16} {s : State} (Ks : Q s)
    : KeepsBy Q (execSaveEnd h region s) := by
  unfold execSaveEnd
  refine KeepsBy.of ?_
  refine cexRun_keeps K h_cex h_srg Ks ?_
  intro b1 h2
  extract_lets +onlyGivenNames x3 x4
  exact checked_keeps K h_cex h2 (fun b5 h6 => settleSave_keeps K h_rcv h_icu h_obs h_cex h_mem h_out (updRegion_keeps K h_mem h6))

theorem execSaveBegin_keeps (K : Keeps P Q) (h_rcv : P .rcv = true) (h_icu : P .icu = true) (h_obs : P .obs = true) (h_cex : P .cex = true)
    (h_srg : P .srg = true) (h_mem : P .mem = true) (h_out : P .out = true) {h : CmdHdr} {region : BitVec 16} {first count : BitVec 64} {s : State}
    (Ks : Q s) : KeepsBy Q (execSaveBegin h region first count s) := by
  unfold execSaveBegin
  refine KeepsBy.of ?_
  refine cexRun_keeps K h_cex h_srg Ks ?_
  intro b1 h2
  extract_lets +onlyGivenNames x3 x4
  exact checked_keeps K h_cex h2 (fun b5 h6 => finish_keeps K h_cex (pend_keeps K h_rcv h_icu h_obs h_out (updRegion_keeps K h_mem h6)))

end Sys2Proof.Machine
end

