-- ==== Sys2Proof/Laws/KeepsControl.lean ====
section
/-!
SUPPORT. What the operations of Machine/Control.lean keep, and which parts they may change (Laws/Keeps.lean).
-/

set_option Elab.async false
namespace Sys2Proof.Machine

variable {P : Part → Bool} {Q : State → Prop}

theorem execWaitSync_keeps (K : Keeps P Q) (h_cex : P .cex = true) (h_srg : P .srg = true) {h : CmdHdr} {value : BitVec 64} {counter : BitVec 8}
    {timeout : BitVec 32} {s : State} (Ks : Q s) : KeepsBy Q (execWaitSync h value counter timeout s) := by
  unfold execWaitSync
  exact KeepsBy.of (cexRun_keeps K h_cex h_srg Ks (fun b1 h2 => checked_keeps K h_cex h2 (fun b3 h4 => wakeSync_keeps K h_cex (addWait_keeps K h_cex h4))))

theorem updGraph_keeps (K : Keeps P Q) (h_cex : P .cex = true) {sl handle : Nat} {f : Graph → Graph} {s : State} (Ks : Q s)
    : Q (updGraph sl handle f s) := by
  unfold updGraph
  exact K.cex h_cex Ks

theorem execLoad_keeps (K : Keeps P Q) (h_rcv : P .rcv = true) (h_obs : P .obs = true) (h_cex : P .cex = true) (h_xlt : P .xlt = true)
    (h_srg : P .srg = true) {h : CmdHdr} {bva : BitVec 64} {handle : BitVec 8} {x : Option XFault} {graph : List (BitVec 512)} {s : State} (Ks : Q s)
    : KeepsBy Q (execLoad h bva handle x graph s) := by
  unfold execLoad
  refine KeepsBy.of ?_
  split
  refine Keeps.ite Ks ?_
  refine cexRun_keeps K h_cex h_srg Ks ?_
  intro b1 h2
  extract_lets +onlyGivenNames x3
  refine checked_keeps K h_cex h2 ?_
  intro b4 h5
  split
  · exact xltFault_keeps K h_rcv h_obs h_cex h_xlt h5
  · extract_lets +onlyGivenNames x6
    exact Keeps.ite (finish_keeps K h_cex (updGraph_keeps K h_cex h5)) (finish_keeps K h_cex h5)

theorem setScalar_keeps (K : Keeps P Q) (h_cex : P .cex = true) {k : CmdKey} {i : Nat} {v : BitVec 64} {s : State} (Ks : Q s)
    : Q (setScalar k i v s) := by
  unfold setScalar
  exact updQ_keeps K h_cex Ks

theorem execScalarAdd_keeps (K : Keeps P Q) (h_cex : P .cex = true) (h_srg : P .srg = true) {h : CmdHdr} {value : BitVec 64} {dst src opt : BitVec 8}
    {s : State} (Ks : Q s) : KeepsBy Q (execScalarAdd h value dst src opt s) := by
  unfold execScalarAdd
  refine KeepsBy.of ?_
  refine cexRun_keeps K h_cex h_srg Ks ?_
  intro b1 h2
  extract_lets +onlyGivenNames x3
  refine checked_keeps K h_cex h2 ?_
  intro b4 h5
  extract_lets +onlyGivenNames x6 x7
  exact finish_keeps K h_cex (setScalar_keeps K h_cex h5)

theorem execWaitMem_keeps (K : Keeps P Q) (h_cex : P .cex = true) (h_srg : P .srg = true) {h : CmdHdr} {bva value mask : BitVec 64}
    {timeout : BitVec 32} {cmp : BitVec 8} {s : State} (Ks : Q s) : KeepsBy Q (execWaitMem h bva value mask timeout cmp s) := by
  unfold execWaitMem
  exact KeepsBy.of (cexRun_keeps K h_cex h_srg Ks (fun b1 h2 => checked_keeps K h_cex h2 (fun b3 h4 => addWait_keeps K h_cex h4)))

theorem endCall_keeps (K : Keeps P Q) (h_cex : P .cex = true) {f : Frame} {k : Nat} {s : State} (Ks : Q s) : Q (endCall f k s) := by
  unfold endCall
  exact updQ_keeps K h_cex (finish_keeps K h_cex Ks)

theorem execCallIterationStart_keeps (K : Keeps P Q) (h_cex : P .cex = true) {key : CmdKey} {s : State} (Ks : Q s)
    : KeepsBy Q (execCallIterationStart key s) := by
  unfold execCallIterationStart
  refine KeepsBy.of ?_
  split
  · refine Keeps.ite Ks ?_
    extract_lets +onlyGivenNames x1 x2
    have Kx2 : Q x2 := updQ_keeps K h_cex Ks
    clear_value x2
    refine Keeps.ite (endCall_keeps K h_cex Kx2) ?_
    extract_lets +onlyGivenNames x3
    exact updQ_keeps K h_cex Kx2
  · exact Ks

theorem settlePairFences_keeps (K : Keeps P Q) (h_cex : P .cex = true) {p : Nat} {s : State} (Ks : Q s) : Q (settlePairFences p s) := by
  unfold settlePairFences
  extract_lets +onlyGivenNames x1
  exact Keeps.foldl (fun b2 b3 h4 => Keeps.ite (throughGate_keeps K h_cex h4) (endWait_keeps K h_cex h4)) Ks

theorem execKeyFence_keeps (K : Keeps P Q) (h_cex : P .cex = true) (h_srg : P .srg = true) {h : CmdHdr} {epoch target timeout : BitVec 32} {s : State}
    (Ks : Q s) : KeepsBy Q (execKeyFence h epoch target timeout s) := by
  unfold execKeyFence
  refine KeepsBy.of ?_
  refine cexRun_keeps K h_cex h_srg Ks ?_
  intro b1 h2
  extract_lets +onlyGivenNames x3 x4 x5
  exact checked_keeps K h_cex h2 (fun b6 h7 => Keeps.ite (settlePairFences_keeps K h_cex (addWait_keeps K h_cex h7)) (settleKeyFences_keeps K h_cex (addWait_keeps K h_cex h7)))

theorem execWaitMemPoll_keeps (K : Keeps P Q) (h_rcv : P .rcv = true) (h_obs : P .obs = true) (h_cex : P .cex = true) (h_xlt : P .xlt = true)
    {key : CmdKey} {x : Option XFault} {word : BitVec 64} {s : State} (Ks : Q s) : KeepsBy Q (execWaitMemPoll key x word s) := by
  unfold execWaitMemPoll
  refine KeepsBy.of ?_
  split
  · exact Ks
  · split
    · extract_lets +onlyGivenNames x1
      exact xltFault_keeps K h_rcv h_obs h_cex h_xlt (K.cex h_cex Ks)
    · exact Keeps.ite (endWait_keeps K h_cex Ks) (K.cex h_cex Ks)

theorem execFenceLocal_keeps (K : Keeps P Q) (h_cex : P .cex = true) (h_srg : P .srg = true) {h : CmdHdr} {value : BitVec 64} {counter opt : BitVec 8}
    {s : State} (Ks : Q s) : KeepsBy Q (execFenceLocal h value counter opt s) := by
  unfold execFenceLocal
  refine KeepsBy.of ?_
  refine cexRun_keeps K h_cex h_srg Ks ?_
  intro b1 h2
  extract_lets +onlyGivenNames x3
  exact checked_keeps K h_cex h2 (fun b4 h5 => addHold_keeps K h_cex h5)

theorem nested_keeps (K : Keeps P Q) (h_rcv : P .rcv = true) (h_obs : P .obs = true) (h_cex : P .cex = true) {h : CmdHdr} {s : State}
    {f : State → State} (Ks : Q s) (Kf : ∀ b0, Q b0 → Q (f b0)) : Q (nested h s f) := by
  unfold nested
  exact Keeps.ite (faultCommand_keeps K h_rcv h_obs h_cex Ks) (Kf _ Ks)

theorem addFrame_keeps (K : Keeps P Q) (h_cex : P .cex = true) {f : Frame} {s : State} (Ks : Q s) : Q (addFrame f s) := by
  unfold addFrame
  exact updQ_keeps K h_cex Ks

theorem execCall_keeps (K : Keeps P Q) (h_rcv : P .rcv = true) (h_obs : P .obs = true) (h_cex : P .cex = true) (h_srg : P .srg = true) {h : CmdHdr}
    {bva : BitVec 64} {count : BitVec 16} {index : BitVec 8} {limit : BitVec 32} {s : State} (Ks : Q s)
    : KeepsBy Q (execCall h bva count index limit s) := by
  unfold execCall
  exact KeepsBy.of (cexRun_keeps K h_cex h_srg Ks (fun b1 h2 => nested_keeps K h_rcv h_obs h_cex h2 (fun b3 h4 => checked_keeps K h_cex h4 (fun b5 h6 => addFrame_keeps K h_cex h6))))

theorem execEgressFence_keeps (K : Keeps P Q) (h_cex : P .cex = true) (h_srg : P .srg = true) {h : CmdHdr} {s : State} (Ks : Q s)
    : KeepsBy Q (execEgressFence h s) := by
  unfold execEgressFence
  refine KeepsBy.of ?_
  refine cexRun_keeps K h_cex h_srg Ks ?_
  intro b1 h2
  extract_lets +onlyGivenNames x3
  exact addHold_keeps K h_cex h2

theorem execScalarSet_keeps (K : Keeps P Q) (h_cex : P .cex = true) (h_srg : P .srg = true) {h : CmdHdr} {value : BitVec 64} {dst : BitVec 8}
    {s : State} (Ks : Q s) : KeepsBy Q (execScalarSet h value dst s) := by
  unfold execScalarSet
  exact KeepsBy.of (cexRun_keeps K h_cex h_srg Ks (fun b1 h2 => checked_keeps K h_cex h2 (fun b3 h4 => finish_keeps K h_cex (setScalar_keeps K h_cex h4))))

theorem updGroup_keeps (K : Keeps P Q) (h_cex : P .cex = true) {sl g : Nat} {f : FenceGroup → FenceGroup} {s : State} (Ks : Q s)
    : Q (updGroup sl g f s) := by
  unfold updGroup
  exact K.cex h_cex Ks

theorem execGroupDefine_keeps (K : Keeps P Q) (h_rcv : P .rcv = true) (h_obs : P .obs = true) (h_cex : P .cex = true) (h_xlt : P .xlt = true)
    (h_srg : P .srg = true) {h : CmdHdr} {bva : BitVec 64} {group : BitVec 8} {collector : BitVec 16} {x : Option XFault} {bitmap : BitVec 4096}
    {s : State} (Ks : Q s) : KeepsBy Q (execGroupDefine h bva group collector x bitmap s) := by
  unfold execGroupDefine
  refine KeepsBy.of ?_
  refine cexRun_keeps K h_cex h_srg Ks ?_
  intro b1 h2
  split
  refine checked_keeps K h_cex h2 ?_
  intro b3 h4
  split
  · exact xltFault_keeps K h_rcv h_obs h_cex h_xlt h4
  · exact Keeps.ite (finish_keeps K h_cex (updGroup_keeps K h_cex h4)) (finish_keeps K h_cex h4)

theorem execSeal_keeps (K : Keeps P Q) (h_rcv : P .rcv = true) (h_obs : P .obs = true) (h_cex : P .cex = true) (h_xlt : P .xlt = true)
    (h_srg : P .srg = true) {h : CmdHdr} {bva : BitVec 64} {count : BitVec 16} {handle : BitVec 8} {x : Option XFault} {graph : List (BitVec 512)}
    {s : State} (Ks : Q s) : KeepsBy Q (execSeal h bva count handle x graph s) := by
  unfold execSeal
  refine KeepsBy.of ?_
  split
  refine Keeps.ite Ks ?_
  refine cexRun_keeps K h_cex h_srg Ks ?_
  intro b1 h2
  refine checked_keeps K h_cex h2 ?_
  intro b3 h4
  split
  · exact xltFault_keeps K h_rcv h_obs h_cex h_xlt h4
  · extract_lets +onlyGivenNames x5
    exact throughGate_keeps K h_cex (updGraph_keeps K h_cex h4)

theorem execWaitTimeout_keeps (K : Keeps P Q) (h_cex : P .cex = true) {key : CmdKey} {s : State} (Ks : Q s) : KeepsBy Q (execWaitTimeout key s) := by
  unfold execWaitTimeout
  refine KeepsBy.of ?_
  split
  · exact Ks
  · exact endWait_keeps K h_cex Ks

theorem execLaunch_keeps (K : Keeps P Q) (h_rcv : P .rcv = true) (h_obs : P .obs = true) (h_cex : P .cex = true) (h_srg : P .srg = true) {h : CmdHdr}
    {handle : BitVec 8} {s : State} (Ks : Q s) : KeepsBy Q (execLaunch h handle s) := by
  unfold execLaunch
  refine KeepsBy.of ?_
  refine cexRun_keeps K h_cex h_srg Ks ?_
  intro b1 h2
  refine nested_keeps K h_rcv h_obs h_cex h2 ?_
  intro b3 h4
  split
  extract_lets +onlyGivenNames x5
  exact checked_keeps K h_cex h4 (fun b6 h7 => addFrame_keeps K h_cex (updGraph_keeps K h_cex h7))

theorem execScalarLoad_keeps (K : Keeps P Q) (h_rcv : P .rcv = true) (h_obs : P .obs = true) (h_cex : P .cex = true) (h_xlt : P .xlt = true)
    (h_srg : P .srg = true) {h : CmdHdr} {bva : BitVec 64} {dst : BitVec 8} {x : Option XFault} {word : BitVec 64} {s : State} (Ks : Q s)
    : KeepsBy Q (execScalarLoad h bva dst x word s) := by
  unfold execScalarLoad
  refine KeepsBy.of ?_
  refine cexRun_keeps K h_cex h_srg Ks ?_
  intro b1 h2
  refine checked_keeps K h_cex h2 ?_
  intro b3 h4
  split
  · exact xltFault_keeps K h_rcv h_obs h_cex h_xlt h4
  · exact finish_keeps K h_cex (setScalar_keeps K h_cex h4)

theorem execNop_keeps (K : Keeps P Q) (h_cex : P .cex = true) (h_srg : P .srg = true) {h : CmdHdr} {s : State} (Ks : Q s)
    : KeepsBy Q (execNop h s) := by
  unfold execNop
  exact KeepsBy.of (cexRun_keeps K h_cex h_srg Ks (fun b1 h2 => finish_keeps K h_cex h2))

theorem execScalarStore_keeps (K : Keeps P Q) (h_rcv : P .rcv = true) (h_obs : P .obs = true) (h_cex : P .cex = true) (h_xlt : P .xlt = true)
    (h_srg : P .srg = true) (h_out : P .out = true) {h : CmdHdr} {bva : BitVec 64} {src : BitVec 8} {x : Option XFault} {s : State} (Ks : Q s)
    : KeepsBy Q (execScalarStore h bva src x s) := by
  unfold execScalarStore
  refine KeepsBy.of ?_
  refine cexRun_keeps K h_cex h_srg Ks ?_
  intro b1 h2
  refine checked_keeps K h_cex h2 ?_
  intro b3 h4
  split
  · exact xltFault_keeps K h_rcv h_obs h_cex h_xlt h4
  · exact finish_keeps K h_cex (State.emit_keeps K h_out h4)

end Sys2Proof.Machine
end

