-- ==== Sys2Proof/Laws/KeepsFences.lean ====
section
/-!
SUPPORT. What the operations of Machine/Fences.lean keep, and which parts they may change (Laws/Keeps.lean).
-/

set_option Elab.async false
namespace Sys2Proof.Machine

variable {P : Part → Bool} {Q : State → Prop}

theorem updFence_keeps (K : Keeps P Q) (h_cex : P .cex = true) {sl g dseq : Nat} {f : FenceWait → FenceWait} {s : State} (Ks : Q s)
    : Q (updFence sl g dseq f s) := by
  unfold updFence
  exact updGroup_keeps K h_cex Ks

theorem sendFence_keeps (K : Keeps P Q) (h_rcv : P .rcv = true) (h_icu : P .icu = true) (h_obs : P .obs = true) (h_cex : P .cex = true)
    (h_srg : P .srg = true) (h_link : P .link = true) (h_dom : P .dom = true) (h_out : P .out = true) {sl origin target word : Nat} {s : State} (Ks
    : Q s) : Q (sendFence sl origin target word s) := by
  unfold sendFence
  split
  · exact sendDom_keeps K h_rcv h_icu h_obs h_cex h_srg h_link h_dom h_out Ks
  · exact Ks

theorem closeFence_keeps (K : Keeps P Q) (h_rcv : P .rcv = true) (h_icu : P .icu = true) (h_obs : P .obs = true) (h_cex : P .cex = true)
    (h_srg : P .srg = true) (h_link : P .link = true) (h_dom : P .dom = true) (h_out : P .out = true) {sl g : Nat} {c : FenceColl} {s : State} (Ks
    : Q s) : Q (closeFence sl g c s) := by
  unfold closeFence
  extract_lets +onlyGivenNames x1 x2
  have Kx2 : Q x2 := updGroup_keeps K h_cex Ks
  clear_value x2
  exact Keeps.foldl (fun b3 b4 h5 => Keeps.ite (updFence_keeps K h_cex h5) (sendFence_keeps K h_rcv h_icu h_obs h_cex h_srg h_link h_dom h_out h5)) Kx2

theorem collect_keeps (K : Keeps P Q) (h_rcv : P .rcv = true) (h_icu : P .icu = true) (h_obs : P .obs = true) (h_cex : P .cex = true)
    (h_srg : P .srg = true) (h_link : P .link = true) (h_dom : P .dom = true) (h_out : P .out = true) {sl g dseq ftype origin outcome : Nat}
    {s : State} (Ks : Q s) : Q (collect sl g dseq ftype origin outcome s) := by
  unfold collect
  extract_lets +onlyGivenNames x1
  split
  · exact Keeps.ite (sendFence_keeps K h_rcv h_icu h_obs h_cex h_srg h_link h_dom h_out Ks) Ks
  · extract_lets +onlyGivenNames x2 x3
    refine Keeps.ite Ks ?_
    extract_lets +onlyGivenNames x4
    exact Keeps.ite (closeFence_keeps K h_rcv h_icu h_obs h_cex h_srg h_link h_dom h_out Ks) (updGroup_keeps K h_cex Ks)

theorem ackFence_keeps (K : Keeps P Q) (h_rcv : P .rcv = true) (h_icu : P .icu = true) (h_obs : P .obs = true) (h_cex : P .cex = true)
    (h_srg : P .srg = true) (h_link : P .link = true) (h_dom : P .dom = true) (h_out : P .out = true) {sl g : Nat} {w : FenceWait} {s : State} (Ks
    : Q s) : Q (ackFence sl g w s) := by
  unfold ackFence
  extract_lets +onlyGivenNames x1 x2
  have Kx2 : Q x2 := updFence_keeps K h_cex Ks
  clear_value x2
  exact Keeps.ite (collect_keeps K h_rcv h_icu h_obs h_cex h_srg h_link h_dom h_out Kx2) (sendFence_keeps K h_rcv h_icu h_obs h_cex h_srg h_link h_dom h_out Kx2)

theorem takeFence_keeps (K : Keeps P Q) (h_link : P .link = true) (h_dom : P .dom = true) {sl : BitVec 4} {h : DomHdr} {origin kind : Nat}
    {word : BitVec 64} {s : State} {f : Nat → Nat → Nat → State → State} (Ks : Q s) (Kf : ∀ b0 b1 b2 b3, Q b3 → Q (f b0 b1 b2 b3))
    : Q (takeFence sl h origin kind word s f) := by
  unfold takeFence
  exact takeDom_keeps K h_link h_dom Ks (fun b1 h2 => Keeps.ite (Kf _ _ _ _ h2) h2)

theorem ackAgain_keeps (K : Keeps P Q) (h_rcv : P .rcv = true) (h_icu : P .icu = true) (h_obs : P .obs = true) (h_cex : P .cex = true)
    (h_srg : P .srg = true) (h_link : P .link = true) (h_dom : P .dom = true) (h_out : P .out = true) {sl g n : Nat} {s : State} (Ks : Q s)
    : Q (ackAgain sl g n s) := by
  unfold ackAgain
  split
  · extract_lets +onlyGivenNames x1 x2
    have Kx2 : Q x2 := updFence_keeps K h_cex Ks
    clear_value x2
    exact Keeps.ite Kx2 (sendFence_keeps K h_rcv h_icu h_obs h_cex h_srg h_link h_dom h_out Kx2)
  · exact Ks

theorem execFenceResend_keeps (K : Keeps P Q) (h_rcv : P .rcv = true) (h_icu : P .icu = true) (h_obs : P .obs = true) (h_cex : P .cex = true)
    (h_srg : P .srg = true) (h_link : P .link = true) (h_dom : P .dom = true) (h_out : P .out = true) {slc : BitVec 4} {h : DomHdr} {word : BitVec 64}
    {s : State} (Ks : Q s) : KeepsBy Q (execFenceResend slc h word s) := by
  unfold execFenceResend
  exact KeepsBy.of (takeFence_keeps K h_link h_dom Ks (fun b1 b2 b3 b4 h5 => ackAgain_keeps K h_rcv h_icu h_obs h_cex h_srg h_link h_dom h_out h5))

theorem setWindow_keeps (K : Keeps P Q) (h_mem : P .mem = true) {sl w : Nat} {s : State} (Ks : Q s) : Q (setWindow sl w s) := by
  unfold setWindow
  exact K.mem h_mem Ks

theorem commitOpen_keeps (K : Keeps P Q) (h_mem : P .mem = true) {sl : Nat} {s : State} (Ks : Q s) : Q (commitOpen sl s) := by
  unfold commitOpen
  exact setWindow_keeps K h_mem (Keeps.foldl (fun b1 b2 h3 => updRegion_keeps K h_mem h3) Ks)

theorem commitClose_keeps (K : Keeps P Q) (h_cex : P .cex = true) (h_mem : P .mem = true) {sl : Nat} {s : State} (Ks : Q s)
    : Q (commitClose sl s) := by
  unfold commitClose
  refine setWindow_keeps K h_mem ?_
  refine Keeps.foldl ?_ Ks
  intro b1 b2 h3
  extract_lets +onlyGivenNames x4 x5
  have Kx5 : Q x5 := updRegion_keeps K h_mem h3
  clear_value x5
  exact Keeps.ite (raiseOverwrite_keeps K h_cex Kx5) Kx5

theorem reopen_keeps (K : Keeps P Q) (h_mem : P .mem = true) {sl : Nat} {s : State} (Ks : Q s) : Q (reopen sl s) := by
  unfold reopen
  exact Keeps.ite Ks (setWindow_keeps K h_mem (Keeps.foldl (fun b1 b2 h3 => updRegion_keeps K h_mem h3) Ks))

theorem endFence_keeps (K : Keeps P Q) (h_cex : P .cex = true) (h_mem : P .mem = true) (h_link : P .link = true) {sl g : Nat} {w : FenceWait}
    {outcome : Nat} {s : State} (Ks : Q s) : Q (endFence sl g w outcome s) := by
  unfold endFence
  extract_lets +onlyGivenNames x1
  have Kx1 : Q x1 := updGroup_keeps K h_cex Ks
  clear_value x1
  extract_lets +onlyGivenNames x2 x3
  have Kx3 : Q x3 := K.link h_link Kx1
  clear_value x3
  extract_lets +onlyGivenNames x4
  have Kx4 : Q x4 := by
    unfold x4
    split
    · exact Keeps.ite (commitOpen_keeps K h_mem Kx3) Kx3
    · exact Keeps.ite (commitClose_keeps K h_cex h_mem Kx3) (reopen_keeps K h_mem Kx3)
    · exact Kx3
  clear_value x4
  exact finish_keeps K h_cex Kx4

theorem settleGroup_keeps (K : Keeps P Q) (h_rcv : P .rcv = true) (h_icu : P .icu = true) (h_obs : P .obs = true) (h_cex : P .cex = true)
    (h_srg : P .srg = true) (h_mem : P .mem = true) (h_link : P .link = true) (h_dom : P .dom = true) (h_out : P .out = true) {sl g : Nat} {s : State}
    (Ks : Q s) : Q (settleGroup sl g s) := by
  unfold settleGroup
  extract_lets +onlyGivenNames x1
  have Kx1 : Q x1 := Keeps.foldl (fun b2 b3 h4 => Keeps.ite (ackFence_keeps K h_rcv h_icu h_obs h_cex h_srg h_link h_dom h_out h4) h4) Ks
  clear_value x1
  split
  · exact Kx1
  · split
    · exact Kx1
    · extract_lets +onlyGivenNames x5
      exact Keeps.ite (endFence_keeps K h_cex h_mem h_link Kx1) (updFence_keeps K h_cex Kx1)

theorem settleFences_keeps (K : Keeps P Q) (h_rcv : P .rcv = true) (h_icu : P .icu = true) (h_obs : P .obs = true) (h_cex : P .cex = true)
    (h_srg : P .srg = true) (h_mem : P .mem = true) (h_link : P .link = true) (h_dom : P .dom = true) (h_out : P .out = true) {s : State} (Ks : Q s)
    : Q (settleFences s) := by
  unfold settleFences
  exact Keeps.foldl (fun b1 b2 h3 => Keeps.foldl (fun b4 b5 h6 => settleGroup_keeps K h_rcv h_icu h_obs h_cex h_srg h_mem h_link h_dom h_out h6) h3) Ks

theorem sendMarks_keeps (K : Keeps P Q) (h_rcv : P .rcv = true) (h_icu : P .icu = true) (h_obs : P .obs = true) (h_cex : P .cex = true)
    (h_srg : P .srg = true) (h_link : P .link = true) (h_out : P .out = true) {sl g word : Nat} {s : State} (Ks : Q s)
    : Q (sendMarks sl g word s) := by
  unfold sendMarks
  exact Keeps.foldl (fun b1 b2 h3 => sendControl_keeps K h_rcv h_icu h_obs h_cex h_srg h_link h_out (sliceCount_keeps K h_link h3)) Ks

theorem startFence_keeps (K : Keeps P Q) (h_rcv : P .rcv = true) (h_icu : P .icu = true) (h_obs : P .obs = true) (h_cex : P .cex = true)
    (h_srg : P .srg = true) (h_mem : P .mem = true) (h_link : P .link = true) (h_dom : P .dom = true) (h_out : P .out = true) {h : CmdHdr}
    {g ftype outcome : Nat} {drained : Bool} {s : State} (Ks : Q s) : Q (startFence h g ftype outcome drained s) := by
  unfold startFence
  extract_lets +onlyGivenNames x1 x2 x3
  exact settleFences_keeps K h_rcv h_icu h_obs h_cex h_srg h_mem h_link h_dom h_out (sendMarks_keeps K h_rcv h_icu h_obs h_cex h_srg h_link h_out (updGroup_keeps K h_cex Ks))

theorem execFenceDomain_keeps (K : Keeps P Q) (h_rcv : P .rcv = true) (h_icu : P .icu = true) (h_obs : P .obs = true) (h_cex : P .cex = true)
    (h_srg : P .srg = true) (h_mem : P .mem = true) (h_link : P .link = true) (h_dom : P .dom = true) (h_out : P .out = true) {h : CmdHdr}
    {group : BitVec 8} {s : State} (Ks : Q s) : KeepsBy Q (execFenceDomain h group s) := by
  unfold execFenceDomain
  exact KeepsBy.of (cexRun_keeps K h_cex h_srg Ks (fun b1 h2 => checked_keeps K h_cex h2 (fun b3 h4 => startFence_keeps K h_rcv h_icu h_obs h_cex h_srg h_mem h_link h_dom h_out h4)))

theorem execStepOpen_keeps (K : Keeps P Q) (h_rcv : P .rcv = true) (h_icu : P .icu = true) (h_obs : P .obs = true) (h_cex : P .cex = true)
    (h_srg : P .srg = true) (h_mem : P .mem = true) (h_link : P .link = true) (h_dom : P .dom = true) (h_out : P .out = true) {h : CmdHdr} {s : State}
    (Ks : Q s) : KeepsBy Q (execStepOpen h s) := by
  unfold execStepOpen
  refine KeepsBy.of ?_
  refine cexRun_keeps K h_cex h_srg Ks ?_
  intro b1 h2
  extract_lets +onlyGivenNames x3
  exact checked_keeps K h_cex h2 (fun b4 h5 => pend_keeps K h_rcv h_icu h_obs h_out (startFence_keeps K h_rcv h_icu h_obs h_cex h_srg h_mem h_link h_dom h_out h5))

theorem execFenceAck_keeps (K : Keeps P Q) (h_rcv : P .rcv = true) (h_icu : P .icu = true) (h_obs : P .obs = true) (h_cex : P .cex = true)
    (h_srg : P .srg = true) (h_mem : P .mem = true) (h_link : P .link = true) (h_dom : P .dom = true) (h_out : P .out = true) {slc : BitVec 4}
    {h : DomHdr} {origin : BitVec 12} {word : BitVec 64} {s : State} (Ks : Q s) : KeepsBy Q (execFenceAck slc h origin word s) := by
  unfold execFenceAck
  exact KeepsBy.of (takeFence_keeps K h_link h_dom Ks (fun b1 b2 b3 b4 h5 => Keeps.ite (settleFences_keeps K h_rcv h_icu h_obs h_cex h_srg h_mem h_link h_dom h_out (collect_keeps K h_rcv h_icu h_obs h_cex h_srg h_link h_dom h_out h5)) h5))

theorem execStepClose_keeps (K : Keeps P Q) (h_rcv : P .rcv = true) (h_icu : P .icu = true) (h_obs : P .obs = true) (h_cex : P .cex = true)
    (h_srg : P .srg = true) (h_mem : P .mem = true) (h_link : P .link = true) (h_dom : P .dom = true) (h_out : P .out = true) {h : CmdHdr} {s : State}
    (Ks : Q s) : KeepsBy Q (execStepClose h s) := by
  unfold execStepClose
  refine KeepsBy.of ?_
  refine cexRun_keeps K h_cex h_srg Ks ?_
  intro b1 h2
  extract_lets +onlyGivenNames x3
  refine checked_keeps K h_cex h2 ?_
  intro b4 h5
  refine Keeps.ite (pend_keeps K h_rcv h_icu h_obs h_out (startFence_keeps K h_rcv h_icu h_obs h_cex h_srg h_mem h_link h_dom h_out h5)) ?_
  extract_lets +onlyGivenNames x6
  have Kx6 : Q x6 := Keeps.foldl (fun b7 b8 h9 => updRegion_keeps K h_mem h9) h5
  clear_value x6
  exact startFence_keeps K h_rcv h_icu h_obs h_cex h_srg h_mem h_link h_dom h_out (K.mem h_mem Kx6)

theorem execFenceRerequestExpiry_keeps (K : Keeps P Q) (h_rcv : P .rcv = true) (h_icu : P .icu = true) (h_obs : P .obs = true) (h_cex : P .cex = true)
    (h_srg : P .srg = true) (h_link : P .link = true) (h_dom : P .dom = true) (h_out : P .out = true) {slc : BitVec 4} {group : BitVec 6}
    {dseq : BitVec 44} {collector : Bool} {s : State} (Ks : Q s) : KeepsBy Q (execFenceRerequestExpiry slc group dseq collector s) := by
  unfold execFenceRerequestExpiry
  refine KeepsBy.of ?_
  split
  refine Keeps.ite (ackAgain_keeps K h_rcv h_icu h_obs h_cex h_srg h_link h_dom h_out Ks) ?_
  split
  · exact Ks
  · extract_lets +onlyGivenNames x1
    exact Keeps.foldl (fun b2 b3 h4 => obsAdd_keeps K h_obs (sendFence_keeps K h_rcv h_icu h_obs h_cex h_srg h_link h_dom h_out (K.cex h_cex h4))) Ks

theorem execStepCloseWritesDrained_keeps (K : Keeps P Q) (h_rcv : P .rcv = true) (h_icu : P .icu = true) (h_obs : P .obs = true)
    (h_cex : P .cex = true) (h_srg : P .srg = true) (h_mem : P .mem = true) (h_link : P .link = true) (h_dom : P .dom = true) (h_out : P .out = true)
    {slc : BitVec 4} {s : State} (Ks : Q s) : KeepsBy Q (execStepCloseWritesDrained slc s) := by
  unfold execStepCloseWritesDrained
  refine KeepsBy.of ?_
  extract_lets +onlyGivenNames x1
  split
  · exact Ks
  · refine Keeps.ite Ks ?_
    extract_lets +onlyGivenNames x2 x3 x4
    have Kx4 : Q x4 := K.mem h_mem Ks
    clear_value x4
    extract_lets +onlyGivenNames x5
    exact settleFences_keeps K h_rcv h_icu h_obs h_cex h_srg h_mem h_link h_dom h_out (updGroup_keeps K h_cex (pend_keeps K h_rcv h_icu h_obs h_out Kx4))

theorem execDomainFenceTimeout_keeps (K : Keeps P Q) (h_rcv : P .rcv = true) (h_icu : P .icu = true) (h_obs : P .obs = true) (h_cex : P .cex = true)
    (h_srg : P .srg = true) (h_ods : P .ods = true) (h_kst : P .kst = true) (h_engKeys : P .engKeys = true) (h_kwe : P .kwe = true)
    (h_pke : P .pke = true) (h_ent : P .ent = true) (h_mem : P .mem = true) (h_link : P .link = true) (h_sheaf : P .sheaf = true)
    (h_dom : P .dom = true) (h_pins : P .pins = true) (h_ac : P .ac = true) (h_vt : P .vt = true) (h_out : P .out = true) {key : CmdKey} {s : State}
    (Ks : Q s) : KeepsBy Q (execDomainFenceTimeout key s) := by
  unfold execDomainFenceTimeout
  refine KeepsBy.of ?_
  split
  · exact Ks
  · split
    · exact Ks
    · exact originate_keeps K h_rcv h_icu h_obs h_cex h_srg h_ods h_kst h_engKeys h_kwe h_pke h_ent h_mem h_link h_sheaf h_dom h_pins h_ac h_vt h_out Ks

theorem execFenceDone_keeps (K : Keeps P Q) (h_rcv : P .rcv = true) (h_icu : P .icu = true) (h_obs : P .obs = true) (h_cex : P .cex = true)
    (h_srg : P .srg = true) (h_mem : P .mem = true) (h_link : P .link = true) (h_dom : P .dom = true) (h_out : P .out = true) {slc : BitVec 4}
    {h : DomHdr} {word : BitVec 64} {s : State} (Ks : Q s) : KeepsBy Q (execFenceDone slc h word s) := by
  unfold execFenceDone
  exact KeepsBy.of (takeFence_keeps K h_link h_dom Ks (fun b1 b2 b3 b4 h5 => settleFences_keeps K h_rcv h_icu h_obs h_cex h_srg h_mem h_link h_dom h_out (updFence_keeps K h_cex h5)))

theorem execFenceMsgForward_keeps (K : Keeps P Q) (h_rcv : P .rcv = true) (h_icu : P .icu = true) (h_obs : P .obs = true) (h_cex : P .cex = true)
    (h_srg : P .srg = true) (h_link : P .link = true) (h_dom : P .dom = true) (h_out : P .out = true) {slc : BitVec 4} {h : DomHdr}
    {origin target : BitVec 16} {word : BitVec 64} {s : State} (Ks : Q s) : KeepsBy Q (execFenceMsgForward slc h origin target word s) := by
  unfold execFenceMsgForward
  refine KeepsBy.of ?_
  refine takeDom_keeps K h_link h_dom Ks ?_
  intro b1 h2
  extract_lets +onlyGivenNames x3
  exact Keeps.ite (sendFence_keeps K h_rcv h_icu h_obs h_cex h_srg h_link h_dom h_out h2) h2

end Sys2Proof.Machine
end

