-- ==== Sys2Proof/Laws/KeepsHostTx.lean ====
section
/-!
SUPPORT. What the operations of Machine/HostTx.lean keep, and which parts they may change (Laws/Keeps.lean).
-/

set_option Elab.async false
namespace Sys2Proof.Machine

variable {P : Part → Bool} {Q : State → Prop}

theorem updIde_keeps (K : Keeps P Q) (h_link : P .link = true) {sl : Nat} {f : Ide → Ide} {s : State} (Ks : Q s) : Q (updIde sl f s) := by
  unfold updIde
  exact K.link h_link Ks

theorem sendIde_keeps (K : Keeps P Q) (h_link : P .link = true) (h_out : P .out = true) {t : Tlp} {s : State} (Ks : Q s) : Q (sendIde t s) := by
  unfold sendIde
  extract_lets +onlyGivenNames x1 x2 x3 x4
  split
  split
  extract_lets +onlyGivenNames x5 x6 x7 x8 x9 x10
  have Kx10 : Q x10 := updIde_keeps K h_link Ks
  clear_value x10
  exact State.emit_keeps K h_out Kx10

theorem sendTlp_keeps (K : Keeps P Q) (h_link : P .link = true) (h_out : P .out = true) {t : Tlp} {s : State} (Ks : Q s) : Q (sendTlp t s) := by
  unfold sendTlp
  exact Keeps.ite (sendIde_keeps K h_link h_out Ks) (State.emit_keeps K h_out Ks)

end Sys2Proof.Machine
end

