-- ==== Sys2Proof/Laws/KeepsLink.lean ====
section
/-!
SUPPORT. What the operations of Machine/Link.lean keep, and which parts they may change (Laws/Keeps.lean).
-/

set_option Elab.async false
namespace Sys2Proof.Machine

variable {P : Part → Bool} {Q : State → Prop}

theorem settleClosing_keeps (K : Keeps P Q) (h_cex : P .cex = true) (h_link : P .link = true) {s : State} (Ks : Q s) : Q (settleClosing s) := by
  unfold settleClosing
  extract_lets +onlyGivenNames x1 x2 x3
  have Kx3 : Q x3 := K.link h_link Ks
  clear_value x3
  extract_lets +onlyGivenNames x4
  exact Keeps.foldl (fun b5 b6 h7 => finish_keeps K h_cex h7) (K.link h_link Kx3)

theorem pairDone_keeps (K : Keeps P Q) (h_cex : P .cex = true) (h_link : P .link = true) {p : Nat} {s : State} (Ks : Q s) : Q (pairDone p s) := by
  unfold pairDone
  extract_lets +onlyGivenNames x1 x2
  have Kx2 : Q x2 := updPair_keeps K h_link Ks
  clear_value x2
  exact Keeps.foldl (fun b3 b4 h5 => Keeps.ite h5 (finish_keeps K h_cex h5)) Kx2

theorem installNext_keeps (K : Keeps P Q) (h_cex : P .cex = true) (h_engKeys : P .engKeys = true) (h_kwe : P .kwe = true) (h_ent : P .ent = true)
    (h_link : P .link = true) {p : Nat} {s : State} (Ks : Q s) : Q (installNext p s) := by
  unfold installNext
  extract_lets +onlyGivenNames x1 x2
  have Kx2 : Q x2 := Keeps.foldl (fun b3 b4 h5 => deriveLink_keeps K h_engKeys h_kwe h_ent (keepLinks_keeps K h_engKeys h5)) Ks
  clear_value x2
  exact pairDone_keeps K h_cex h_link (refreshNext_keeps K h_link (updPair_keeps K h_link Kx2))

theorem rotatePair_keeps (K : Keeps P Q) (h_rcv : P .rcv = true) (h_icu : P .icu = true) (h_obs : P .obs = true) (h_cex : P .cex = true)
    (h_srg : P .srg = true) (h_link : P .link = true) (h_out : P .out = true) {p : Nat} {s : State} (Ks : Q s) : Q (rotatePair p s) := by
  unfold rotatePair
  extract_lets +onlyGivenNames x1 x2
  have Kx2 : Q x2 := Keeps.foldl (fun b3 b4 h5 => sendRotationMark_keeps K h_rcv h_icu h_obs h_cex h_srg h_link h_out h5) Ks
  clear_value x2
  extract_lets +onlyGivenNames x6 x7 x8
  have Kx8 : Q x8 := Keeps.foldl (fun b9 b10 h11 => updStream_keeps K h_link h11) Kx2
  clear_value x8
  extract_lets +onlyGivenNames x12
  have Kx12 : Q x12 := updPair_keeps K h_link Kx8
  clear_value x12
  extract_lets +onlyGivenNames x13 x14 x15
  have Kx15 : Q x15 := K.link h_link Kx12
  clear_value x15
  exact settlePairFences_keeps K h_cex (Keeps.foldl (fun b16 b17 h18 => sendOwn_keeps K h_rcv h_icu h_obs h_cex h_srg h_link h_out h18) (sliceCount_keeps K h_link Kx15))

theorem failedTag_keeps (K : Keeps P Q) (h_rcv : P .rcv = true) (h_icu : P .icu = true) (h_obs : P .obs = true) (h_cex : P .cex = true)
    (h_srg : P .srg = true) (h_ods : P .ods = true) (h_kst : P .kst = true) (h_engKeys : P .engKeys = true) (h_kwe : P .kwe = true)
    (h_pke : P .pke = true) (h_ent : P .ent = true) (h_mem : P .mem = true) (h_link : P .link = true) (h_sheaf : P .sheaf = true)
    (h_dom : P .dom = true) (h_pins : P .pins = true) (h_ac : P .ac = true) (h_vt : P .vt = true) (h_out : P .out = true)
    {port slc stream cls sender reason : Nat} {s : State} (Ks : Q s) : Q (failedTag port slc stream cls sender reason s) := by
  unfold failedTag
  extract_lets +onlyGivenNames x1 x2
  exact originate_keeps K h_rcv h_icu h_obs h_cex h_srg h_ods h_kst h_engKeys h_kwe h_pke h_ent h_mem h_link h_sheaf h_dom h_pins h_ac h_vt h_out (pend_keeps K h_rcv h_icu h_obs h_out (logError_keeps K h_rcv h_icu h_obs h_out Ks))

end Sys2Proof.Machine
end

