-- ==== Sys2Proof/Laws/KeepsStreams.lean ====
section
/-!
SUPPORT. What the operations of Machine/Streams.lean keep, and which parts they may change (Laws/Keeps.lean).
-/

set_option Elab.async false
namespace Sys2Proof.Machine

variable {P : Part → Bool} {Q : State → Prop}

theorem execStreamClose_keeps (K : Keeps P Q) (h_cex : P .cex = true) (h_srg : P .srg = true) (h_link : P .link = true) {h : CmdHdr}
    {peer mask : BitVec 16} {opt : BitVec 8} {s : State} (Ks : Q s) : KeepsBy Q (execStreamClose h peer mask opt s) := by
  unfold execStreamClose
  refine KeepsBy.of ?_
  refine cexRun_keeps K h_cex h_srg Ks ?_
  intro b1 h2
  refine checked_keeps K h_cex h2 ?_
  intro b3 h4
  extract_lets +onlyGivenNames x5 x6
  have Kx6 : Q x6 := Keeps.foldl (fun b7 b8 h9 => updStream_keeps K h_link h9) h4
  clear_value x6
  exact settleClosing_keeps K h_cex h_link (K.link h_link Kx6)

theorem passTlps_keeps (K : Keeps P Q) (h_cex : P .cex = true) (h_link : P .link = true) (h_out : P .out = true) {a : Nat} {a1 : State} (Ka1 : Q a1)
    : Q (passTlps a a1) := by
  induction a generalizing a1 with
  | zero =>
    unfold passTlps
    exact Ka1
  | succ n ih =>
    unfold passTlps
    split
    · exact Ka1
    · refine Keeps.ite Ka1 ?_
      extract_lets +onlyGivenNames x1 x2 x3
      have Kx3 : Q x3 := K.upd Ka1 (h_cex := .inr h_cex) (h_link := .inr h_link)
      clear_value x3
      extract_lets +onlyGivenNames x4
      have Kx4 : Q x4 := Keeps.ite (sliceCount_keeps K h_link Kx3) Kx3
      clear_value x4
      exact ih (sendTlp_keeps K h_link h_out Kx4)

theorem settleGate_keeps (K : Keeps P Q) (h_rcv : P .rcv = true) (h_icu : P .icu = true) (h_obs : P .obs = true) (h_cex : P .cex = true)
    (h_srg : P .srg = true) (h_mem : P .mem = true) (h_link : P .link = true) (h_dom : P .dom = true) (h_out : P .out = true) {s : State} (Ks : Q s)
    : Q (settleGate s) := by
  unfold settleGate
  exact settleClosing_keeps K h_cex h_link (settleGw_keeps K h_link h_out (settleFences_keeps K h_rcv h_icu h_obs h_cex h_srg h_mem h_link h_dom h_out (settleHolds_keeps K h_cex (passTlps_keeps K h_cex h_link h_out Ks))))

theorem discardGroup_keeps (K : Keeps P Q) (h_link : P .link = true) {port : Nat} {s : State} (Ks : Q s) : Q (discardGroup port s) := by
  unfold discardGroup
  exact portCount_keeps K h_link Ks

theorem failGroup_keeps (K : Keeps P Q) (h_rcv : P .rcv = true) (h_icu : P .icu = true) (h_obs : P .obs = true) (h_cex : P .cex = true)
    (h_srg : P .srg = true) (h_ods : P .ods = true) (h_kst : P .kst = true) (h_engKeys : P .engKeys = true) (h_kwe : P .kwe = true)
    (h_pke : P .pke = true) (h_ent : P .ent = true) (h_mem : P .mem = true) (h_link : P .link = true) (h_sheaf : P .sheaf = true)
    (h_dom : P .dom = true) (h_pins : P .pins = true) (h_ac : P .ac = true) (h_vt : P .vt = true) (h_out : P .out = true)
    {port slc stream cls sender reason : Nat} {s : State} (Ks : Q s) : Q (failGroup port slc stream cls sender reason s) := by
  unfold failGroup
  exact failedTag_keeps K h_rcv h_icu h_obs h_cex h_srg h_ods h_kst h_engKeys h_kwe h_pke h_ent h_mem h_link h_sheaf h_dom h_pins h_ac h_vt h_out (portCount_keeps K h_link Ks)

theorem enterSav_keeps (K : Keeps P Q) (h_obs : P .obs = true) (h_link : P .link = true) {port : Nat} {s : State} (Ks : Q s)
    : Q (enterSav port s) := by
  unfold enterSav
  exact Keeps.ite (obsAdd_keeps K h_obs (portCount_keeps K h_link (updPort_keeps K h_link Ks))) Ks

theorem acceptGroup_keeps (K : Keeps P Q) (h_obs : P .obs = true) (h_srg : P .srg = true) (h_link : P .link = true) (h_ac : P .ac = true)
    (h_out : P .out = true) {port e epoch : Nat} {halyard : Bool} {g : Gsh} {gsh descs cipher : Bytes} {s : State} (Ks : Q s)
    : Q (acceptGroup port e epoch halyard g gsh descs cipher s) := by
  unfold acceptGroup
  extract_lets +onlyGivenNames x1 x2 x3 x4 x5
  have Kx5 : Q x5 := Keeps.ite (enterSav_keeps K h_obs h_link Ks) Ks
  clear_value x5
  extract_lets +onlyGivenNames x6 x7 x8 x9 x10
  have Kx10 : Q x10 := K.upd Kx5 (h_link := .inr h_link) (h_ac := .inr h_ac)
  clear_value x10
  extract_lets +onlyGivenNames x11
  have Kx11 : Q x11 := portCount_keeps K h_link (portCount_keeps K h_link Kx10)
  clear_value x11
  extract_lets +onlyGivenNames x12
  have Kx12 : Q x12 := updUsage_keeps K h_srg Kx11
  clear_value x12
  extract_lets +onlyGivenNames x13
  have Kx13 : Q x13 := updPort_keeps K h_link Kx12
  clear_value x13
  exact Keeps.ite (State.emit_keeps K h_out Kx13) Kx13

theorem takeCurrent_keeps (K : Keeps P Q) (h_rcv : P .rcv = true) (h_icu : P .icu = true) (h_obs : P .obs = true) (h_cex : P .cex = true)
    (h_srg : P .srg = true) (h_ods : P .ods = true) (h_kst : P .kst = true) (h_engKeys : P .engKeys = true) (h_kwe : P .kwe = true)
    (h_pke : P .pke = true) (h_ent : P .ent = true) (h_mem : P .mem = true) (h_link : P .link = true) (h_sheaf : P .sheaf = true)
    (h_dom : P .dom = true) (h_pins : P .pins = true) (h_ac : P .ac = true) (h_vt : P .vt = true) (h_out : P .out = true) {port e : Nat} {g : Gsh}
    {gsh descs cipher : Bytes} {s : State} (Ks : Q s) : Q (takeCurrent port e g gsh descs cipher s) := by
  unfold takeCurrent
  extract_lets +onlyGivenNames x1
  split
  · exact failGroup_keeps K h_rcv h_icu h_obs h_cex h_srg h_ods h_kst h_engKeys h_kwe h_pke h_ent h_mem h_link h_sheaf h_dom h_pins h_ac h_vt h_out Ks
  · exact acceptGroup_keeps K h_obs h_srg h_link h_ac h_out (updStream_keeps K h_link Ks)

theorem takeOld_keeps (K : Keeps P Q) (h_rcv : P .rcv = true) (h_icu : P .icu = true) (h_obs : P .obs = true) (h_cex : P .cex = true)
    (h_srg : P .srg = true) (h_ods : P .ods = true) (h_kst : P .kst = true) (h_engKeys : P .engKeys = true) (h_kwe : P .kwe = true)
    (h_pke : P .pke = true) (h_ent : P .ent = true) (h_mem : P .mem = true) (h_link : P .link = true) (h_sheaf : P .sheaf = true)
    (h_dom : P .dom = true) (h_pins : P .pins = true) (h_ac : P .ac = true) (h_vt : P .vt = true) (h_out : P .out = true) {port e : Nat} {d : Drain}
    {g : Gsh} {gsh descs cipher : Bytes} {s : State} (Ks : Q s) : Q (takeOld port e d g gsh descs cipher s) := by
  unfold takeOld
  extract_lets +onlyGivenNames x1
  split
  · exact failGroup_keeps K h_rcv h_icu h_obs h_cex h_srg h_ods h_kst h_engKeys h_kwe h_pke h_ent h_mem h_link h_sheaf h_dom h_pins h_ac h_vt h_out Ks
  · split
    · exact failGroup_keeps K h_rcv h_icu h_obs h_cex h_srg h_ods h_kst h_engKeys h_kwe h_pke h_ent h_mem h_link h_sheaf h_dom h_pins h_ac h_vt h_out Ks
    · extract_lets +onlyGivenNames x2 x3 x4 x5 x6
      have Kx6 : Q x6 := K.link h_link Ks
      clear_value x6
      exact acceptGroup_keeps K h_obs h_srg h_link h_ac h_out Kx6

theorem pendPair_keeps (K : Keeps P Q) (h_rcv : P .rcv = true) (h_icu : P .icu = true) (h_obs : P .obs = true) (h_out : P .out = true) {p : Nat}
    {s : State} (Ks : Q s) : Q (pendPair p s) := by
  unfold pendPair
  exact Keeps.foldl (fun b1 b2 h3 => pend_keeps K h_rcv h_icu h_obs h_out h3) Ks

theorem switchRx_keeps (K : Keeps P Q) (h_rcv : P .rcv = true) (h_icu : P .icu = true) (h_obs : P .obs = true) (h_cex : P .cex = true)
    (h_link : P .link = true) (h_out : P .out = true) {port p : Nat} {s : State} (Ks : Q s) : Q (switchRx port p s) := by
  unfold switchRx
  extract_lets +onlyGivenNames x1 x2 x3 x4 x5 x6 x7
  have Kx7 : Q x7 := Keeps.foldl (fun b8 b9 h10 => updStream_keeps K h_link h10) Ks
  clear_value x7
  extract_lets +onlyGivenNames x11 x12
  have Kx12 : Q x12 := K.link h_link Kx7
  clear_value x12
  extract_lets +onlyGivenNames x13
  have Kx13 : Q x13 := Keeps.ite (updPair_keeps K h_link Kx12) Kx12
  clear_value x13
  exact settlePairFences_keeps K h_cex (pendPair_keeps K h_rcv h_icu h_obs h_out (refreshNext_keeps K h_link Kx13))

theorem takeGroup_keeps (K : Keeps P Q) (h_rcv : P .rcv = true) (h_icu : P .icu = true) (h_obs : P .obs = true) (h_cex : P .cex = true)
    (h_srg : P .srg = true) (h_ods : P .ods = true) (h_kst : P .kst = true) (h_engKeys : P .engKeys = true) (h_kwe : P .kwe = true)
    (h_pke : P .pke = true) (h_ent : P .ent = true) (h_mem : P .mem = true) (h_link : P .link = true) (h_sheaf : P .sheaf = true)
    (h_dom : P .dom = true) (h_pins : P .pins = true) (h_ac : P .ac = true) (h_vt : P .vt = true) (h_out : P .out = true) {port e : Nat} {g : Gsh}
    {gsh descs cipher : Bytes} {s : State} (Ks : Q s) : Q (takeGroup port e g gsh descs cipher s) := by
  unfold takeGroup
  extract_lets +onlyGivenNames x1
  refine Keeps.ite (takeCurrent_keeps K h_rcv h_icu h_obs h_cex h_srg h_ods h_kst h_engKeys h_kwe h_pke h_ent h_mem h_link h_sheaf h_dom h_pins h_ac h_vt h_out Ks) ?_
  split
  · exact takeOld_keeps K h_rcv h_icu h_obs h_cex h_srg h_ods h_kst h_engKeys h_kwe h_pke h_ent h_mem h_link h_sheaf h_dom h_pins h_ac h_vt h_out Ks
  · exact Keeps.ite (K.link h_link Ks) (takeCurrent_keeps K h_rcv h_icu h_obs h_cex h_srg h_ods h_kst h_engKeys h_kwe h_pke h_ent h_mem h_link h_sheaf h_dom h_pins h_ac h_vt h_out (switchRx_keeps K h_rcv h_icu h_obs h_cex h_link h_out Ks))

theorem receiveGroup_keeps (K : Keeps P Q) (h_rcv : P .rcv = true) (h_icu : P .icu = true) (h_obs : P .obs = true) (h_cex : P .cex = true)
    (h_srg : P .srg = true) (h_ods : P .ods = true) (h_kst : P .kst = true) (h_engKeys : P .engKeys = true) (h_kwe : P .kwe = true)
    (h_pke : P .pke = true) (h_ent : P .ent = true) (h_mem : P .mem = true) (h_link : P .link = true) (h_sheaf : P .sheaf = true)
    (h_dom : P .dom = true) (h_pins : P .pins = true) (h_ac : P .ac = true) (h_vt : P .vt = true) (h_out : P .out = true) {port : Nat}
    {gsh descs cipher : Bytes} {s : State} (Ks : Q s) : Q (receiveGroup port gsh descs cipher s) := by
  unfold receiveGroup
  extract_lets +onlyGivenNames x1
  refine Keeps.ite (State.emit_keeps K h_out Ks) ?_
  refine Keeps.ite (Keeps.ite (gatherMsg_keeps K h_link Ks) (discardGroup_keeps K h_link Ks)) ?_
  refine Keeps.ite (discardGroup_keeps K h_link Ks) ?_
  split
  · exact failGroup_keeps K h_rcv h_icu h_obs h_cex h_srg h_ods h_kst h_engKeys h_kwe h_pke h_ent h_mem h_link h_sheaf h_dom h_pins h_ac h_vt h_out Ks
  · exact Keeps.ite (failGroup_keeps K h_rcv h_icu h_obs h_cex h_srg h_ods h_kst h_engKeys h_kwe h_pke h_ent h_mem h_link h_sheaf h_dom h_pins h_ac h_vt h_out Ks) (Keeps.ite (failGroup_keeps K h_rcv h_icu h_obs h_cex h_srg h_ods h_kst h_engKeys h_kwe h_pke h_ent h_mem h_link h_sheaf h_dom h_pins h_ac h_vt h_out Ks) (Keeps.ite (failGroup_keeps K h_rcv h_icu h_obs h_cex h_srg h_ods h_kst h_engKeys h_kwe h_pke h_ent h_mem h_link h_sheaf h_dom h_pins h_ac h_vt h_out Ks) (takeGroup_keeps K h_rcv h_icu h_obs h_cex h_srg h_ods h_kst h_engKeys h_kwe h_pke h_ent h_mem h_link h_sheaf h_dom h_pins h_ac h_vt h_out Ks)))

theorem retryWaits_keeps (K : Keeps P Q) (h_rcv : P .rcv = true) (h_icu : P .icu = true) (h_obs : P .obs = true) (h_cex : P .cex = true)
    (h_srg : P .srg = true) (h_ods : P .ods = true) (h_kst : P .kst = true) (h_engKeys : P .engKeys = true) (h_kwe : P .kwe = true)
    (h_pke : P .pke = true) (h_ent : P .ent = true) (h_mem : P .mem = true) (h_link : P .link = true) (h_sheaf : P .sheaf = true)
    (h_dom : P .dom = true) (h_pins : P .pins = true) (h_ac : P .ac = true) (h_vt : P .vt = true) (h_out : P .out = true) {port : Nat} {s : State} (Ks
    : Q s) : Q (retryWaits port s) := by
  unfold retryWaits
  extract_lets +onlyGivenNames x1
  exact Keeps.foldl (fun b2 b3 h4 => receiveGroup_keeps K h_rcv h_icu h_obs h_cex h_srg h_ods h_kst h_engKeys h_kwe h_pke h_ent h_mem h_link h_sheaf h_dom h_pins h_ac h_vt h_out h4) (K.link h_link Ks)

theorem deriveRxNext_keeps (K : Keeps P Q) (h_rcv : P .rcv = true) (h_icu : P .icu = true) (h_obs : P .obs = true) (h_engKeys : P .engKeys = true)
    (h_kwe : P .kwe = true) (h_ent : P .ent = true) (h_link : P .link = true) (h_out : P .out = true) {p : Nat} {s : State} (Ks : Q s)
    : Q (deriveRxNext p s) := by
  unfold deriveRxNext
  extract_lets +onlyGivenNames x1 x2
  have Kx2 : Q x2 := by
    unfold x2
    refine Keeps.foldl ?_ Ks
    intro b3 b4 h5
    extract_lets +onlyGivenNames x6
    exact Keeps.ite h5 (deriveLink_keeps K h_engKeys h_kwe h_ent h5)
  clear_value x2
  exact pendPair_keeps K h_rcv h_icu h_obs h_out (refreshNext_keeps K h_link Kx2)

theorem execLinkNextKeyDerived_keeps (K : Keeps P Q) (h_rcv : P .rcv = true) (h_icu : P .icu = true) (h_obs : P .obs = true) (h_cex : P .cex = true)
    (h_srg : P .srg = true) (h_ods : P .ods = true) (h_kst : P .kst = true) (h_engKeys : P .engKeys = true) (h_kwe : P .kwe = true)
    (h_pke : P .pke = true) (h_ent : P .ent = true) (h_mem : P .mem = true) (h_link : P .link = true) (h_sheaf : P .sheaf = true)
    (h_dom : P .dom = true) (h_pins : P .pins = true) (h_ac : P .ac = true) (h_vt : P .vt = true) (h_out : P .out = true) {pair : BitVec 13}
    {s : State} (Ks : Q s) : KeepsBy Q (execLinkNextKeyDerived pair s) := by
  unfold execLinkNextKeyDerived
  refine KeepsBy.of ?_
  extract_lets +onlyGivenNames x1 x2
  exact Keeps.ite Ks (Keeps.ite (settleGate_keeps K h_rcv h_icu h_obs h_cex h_srg h_mem h_link h_dom h_out (Keeps.foldl (fun b3 b4 h5 => retryWaits_keeps K h_rcv h_icu h_obs h_cex h_srg h_ods h_kst h_engKeys h_kwe h_pke h_ent h_mem h_link h_sheaf h_dom h_pins h_ac h_vt h_out h5) (deriveRxNext_keeps K h_rcv h_icu h_obs h_engKeys h_kwe h_ent h_link h_out Ks))) (Keeps.ite (Keeps.ite (pendPair_keeps K h_rcv h_icu h_obs h_out (installNext_keeps K h_cex h_engKeys h_kwe h_ent h_link Ks)) (kweRefused_keeps K h_kwe Ks)) Ks))

theorem execTrailerTimeout_keeps (K : Keeps P Q) (h_rcv : P .rcv = true) (h_icu : P .icu = true) (h_obs : P .obs = true) (h_cex : P .cex = true)
    (h_srg : P .srg = true) (h_ods : P .ods = true) (h_kst : P .kst = true) (h_engKeys : P .engKeys = true) (h_kwe : P .kwe = true)
    (h_pke : P .pke = true) (h_ent : P .ent = true) (h_mem : P .mem = true) (h_link : P .link = true) (h_sheaf : P .sheaf = true)
    (h_dom : P .dom = true) (h_pins : P .pins = true) (h_ac : P .ac = true) (h_vt : P .vt = true) (h_out : P .out = true) {port : BitVec 5}
    {index : BitVec 16} {s : State} (Ks : Q s) : KeepsBy Q (execTrailerTimeout port index s) := by
  unfold execTrailerTimeout
  refine KeepsBy.of ?_
  split
  · exact Ks
  · exact Keeps.ite Ks (failGroup_keeps K h_rcv h_icu h_obs h_cex h_srg h_ods h_kst h_engKeys h_kwe h_pke h_ent h_mem h_link h_sheaf h_dom h_pins h_ac h_vt h_out Ks)

theorem execGroupReceive_keeps (K : Keeps P Q) (h_rcv : P .rcv = true) (h_icu : P .icu = true) (h_obs : P .obs = true) (h_cex : P .cex = true)
    (h_srg : P .srg = true) (h_ods : P .ods = true) (h_kst : P .kst = true) (h_engKeys : P .engKeys = true) (h_kwe : P .kwe = true)
    (h_pke : P .pke = true) (h_ent : P .ent = true) (h_mem : P .mem = true) (h_link : P .link = true) (h_sheaf : P .sheaf = true)
    (h_dom : P .dom = true) (h_pins : P .pins = true) (h_ac : P .ac = true) (h_vt : P .vt = true) (h_out : P .out = true) {port : BitVec 5}
    {gsh descs cipher : Bytes} {s : State} (Ks : Q s) : KeepsBy Q (execGroupReceive port gsh descs cipher s) := by
  unfold execGroupReceive
  exact KeepsBy.of (Keeps.ite Ks (settleGate_keeps K h_rcv h_icu h_obs h_cex h_srg h_mem h_link h_dom h_out (receiveGroup_keeps K h_rcv h_icu h_obs h_cex h_srg h_ods h_kst h_engKeys h_kwe h_pke h_ent h_mem h_link h_sheaf h_dom h_pins h_ac h_vt h_out Ks)))

theorem execRxNextWaitTimeout_keeps (K : Keeps P Q) (h_rcv : P .rcv = true) (h_icu : P .icu = true) (h_obs : P .obs = true) (h_cex : P .cex = true)
    (h_srg : P .srg = true) (h_ods : P .ods = true) (h_kst : P .kst = true) (h_engKeys : P .engKeys = true) (h_kwe : P .kwe = true)
    (h_pke : P .pke = true) (h_ent : P .ent = true) (h_mem : P .mem = true) (h_link : P .link = true) (h_sheaf : P .sheaf = true)
    (h_dom : P .dom = true) (h_pins : P .pins = true) (h_ac : P .ac = true) (h_vt : P .vt = true) (h_out : P .out = true) {port : BitVec 5}
    {s : State} (Ks : Q s) : KeepsBy Q (execRxNextWaitTimeout port s) := by
  unfold execRxNextWaitTimeout
  refine KeepsBy.of ?_
  extract_lets +onlyGivenNames x1
  split
  · exact Ks
  · extract_lets +onlyGivenNames x2 x3
    exact failGroup_keeps K h_rcv h_icu h_obs h_cex h_srg h_ods h_kst h_engKeys h_kwe h_pke h_ent h_mem h_link h_sheaf h_dom h_pins h_ac h_vt h_out (K.link h_link Ks)

theorem passTrailer_keeps (K : Keeps P Q) (h_out : P .out = true) {port : Nat} {trailer : Bytes} {tag : BitVec 128} {s : State} (Ks : Q s)
    : Q (passTrailer port trailer tag s) := by
  unfold passTrailer
  exact Keeps.ite (State.emit_keeps K h_out Ks) Ks

theorem putPacket_keeps (K : Keeps P Q) (h_rcv : P .rcv = true) (h_icu : P .icu = true) (h_obs : P .obs = true) (h_cex : P .cex = true)
    (h_srg : P .srg = true) (h_link : P .link = true) (h_out : P .out = true) {e addr opcode attr : Nat} {payload : Bytes} {closing : Bool}
    {s : State} (Ks : Q s) : Q (putPacket e addr opcode attr payload closing s) := by
  unfold putPacket
  extract_lets +onlyGivenNames x1 x2
  have Kx2 : Q x2 := by
    unfold x2
    split
    · exact Keeps.ite (closeTx_keeps K h_rcv h_icu h_obs h_cex h_srg h_link h_out Ks) Ks
    · exact Ks
  clear_value x2
  extract_lets +onlyGivenNames x3 x4
  have Kx4 : Q x4 := Keeps.ite Ks (K.link h_link Kx2)
  clear_value x4
  extract_lets +onlyGivenNames x5 x6
  have Kx6 : Q x6 := K.link h_link Kx4
  clear_value x6
  extract_lets +onlyGivenNames x7
  exact Keeps.ite (closeTx_keeps K h_rcv h_icu h_obs h_cex h_srg h_link h_out Kx6) Kx6

theorem refusePacket_keeps (K : Keeps P Q) (h_rcv : P .rcv = true) (h_icu : P .icu = true) (h_obs : P .obs = true) (h_out : P .out = true)
    {port sl detail : Nat} {s : State} (Ks : Q s) : Q (refusePacket port sl detail s) := by
  unfold refusePacket
  exact State.emit_keeps K h_out (logError_keeps K h_rcv h_icu h_obs h_out Ks)

theorem addPacket_keeps (K : Keeps P Q) (h_rcv : P .rcv = true) (h_icu : P .icu = true) (h_obs : P .obs = true) (h_cex : P .cex = true)
    (h_srg : P .srg = true) (h_link : P .link = true) (h_out : P .out = true) {e addr opcode attr : Nat} {payload : Bytes} {closing : Bool}
    {s : State} (Ks : Q s) : Q (addPacket e addr opcode attr payload closing s) := by
  unfold addPacket
  extract_lets +onlyGivenNames x1 x2 x3
  have Kx3 : Q x3 := Keeps.ite (closeTx_keeps K h_rcv h_icu h_obs h_cex h_srg h_link h_out Ks) Ks
  clear_value x3
  exact Keeps.ite Kx3 (putPacket_keeps K h_rcv h_icu h_obs h_cex h_srg h_link h_out Kx3)

theorem execHostPacketTx_keeps (K : Keeps P Q) (h_rcv : P .rcv = true) (h_icu : P .icu = true) (h_obs : P .obs = true) (h_cex : P .cex = true)
    (h_srg : P .srg = true) (h_link : P .link = true) (h_out : P .out = true) {port : BitVec 5} {slc : BitVec 4} {peer : BitVec 12}
    {traffic : BitVec 4} {addr : BitVec 64} {opcode attr : BitVec 8} {payload : Bytes} {closing : Bool} {s : State} (Ks : Q s)
    : KeepsBy Q (execHostPacketTx port slc peer traffic addr opcode attr payload closing s) := by
  unfold execHostPacketTx
  refine KeepsBy.of ?_
  extract_lets +onlyGivenNames x1 x2
  refine Keeps.ite Ks ?_
  refine Keeps.ite (refusePacket_keeps K h_rcv h_icu h_obs h_out Ks) ?_
  split
  · exact refusePacket_keeps K h_rcv h_icu h_obs h_out Ks
  · extract_lets +onlyGivenNames x3
    exact Keeps.ite Ks (Keeps.ite (addPacket_keeps K h_rcv h_icu h_obs h_cex h_srg h_link h_out Ks) (refusePacket_keeps K h_rcv h_icu h_obs h_out Ks))

theorem failStreams_keeps (K : Keeps P Q) (h_cex : P .cex = true) (h_link : P .link = true) {sl m : Nat} {s : State} (Ks : Q s)
    : Q (failStreams sl m s) := by
  unfold failStreams
  extract_lets +onlyGivenNames x1 x2
  have Kx2 : Q x2 := Keeps.foldl (fun b3 b4 h5 => updStream_keeps K h_link h5) Ks
  clear_value x2
  exact settleClosing_keeps K h_cex h_link (K.link h_link Kx2)

theorem deadMember_keeps (K : Keeps P Q) (h_rcv : P .rcv = true) (h_icu : P .icu = true) (h_obs : P .obs = true) (h_cex : P .cex = true)
    (h_srg : P .srg = true) (h_ods : P .ods = true) (h_kst : P .kst = true) (h_engKeys : P .engKeys = true) (h_kwe : P .kwe = true)
    (h_pke : P .pke = true) (h_ent : P .ent = true) (h_mem : P .mem = true) (h_link : P .link = true) (h_sheaf : P .sheaf = true)
    (h_dom : P .dom = true) (h_pins : P .pins = true) (h_ac : P .ac = true) (h_vt : P .vt = true) (h_out : P .out = true) {sl m : Nat} {s : State} (Ks
    : Q s) : Q (deadMember sl m s) := by
  unfold deadMember
  extract_lets +onlyGivenNames x1
  have Kx1 : Q x1 := failStreams_keeps K h_cex h_link Ks
  clear_value x1
  exact Keeps.ite (originate_keeps K h_rcv h_icu h_obs h_cex h_srg h_ods h_kst h_engKeys h_kwe h_pke h_ent h_mem h_link h_sheaf h_dom h_pins h_ac h_vt h_out Kx1) (raise_keeps K h_cex Kx1)

theorem execDrainEnd_keeps (K : Keeps P Q) (h_rcv : P .rcv = true) (h_icu : P .icu = true) (h_obs : P .obs = true) (h_cex : P .cex = true)
    (h_srg : P .srg = true) (h_ods : P .ods = true) (h_kst : P .kst = true) (h_engKeys : P .engKeys = true) (h_kwe : P .kwe = true)
    (h_pke : P .pke = true) (h_ent : P .ent = true) (h_mem : P .mem = true) (h_link : P .link = true) (h_sheaf : P .sheaf = true)
    (h_dom : P .dom = true) (h_pins : P .pins = true) (h_ac : P .ac = true) (h_vt : P .vt = true) (h_out : P .out = true) {port : BitVec 5}
    {pair : BitVec 13} {s : State} (Ks : Q s) : KeepsBy Q (execDrainEnd port pair s) := by
  unfold execDrainEnd
  refine KeepsBy.of ?_
  split
  · exact Ks
  · extract_lets +onlyGivenNames x1
    refine Keeps.ite Ks ?_
    extract_lets +onlyGivenNames x2
    have Kx2 : Q x2 := Keeps.foldl (fun b3 b4 h5 => updStream_keeps K h_link h5) Ks
    clear_value x2
    extract_lets +onlyGivenNames x6 x7
    have Kx7 : Q x7 := K.upd Kx2 (h_engKeys := .inr h_engKeys) (h_link := .inr h_link)
    clear_value x7
    exact settleGate_keeps K h_rcv h_icu h_obs h_cex h_srg h_mem h_link h_dom h_out (retryWaits_keeps K h_rcv h_icu h_obs h_cex h_srg h_ods h_kst h_engKeys h_kwe h_pke h_ent h_mem h_link h_sheaf h_dom h_pins h_ac h_vt h_out (pendPair_keeps K h_rcv h_icu h_obs h_out Kx7))

theorem execLinkRotate_keeps (K : Keeps P Q) (h_rcv : P .rcv = true) (h_icu : P .icu = true) (h_obs : P .obs = true) (h_cex : P .cex = true)
    (h_srg : P .srg = true) (h_link : P .link = true) (h_out : P .out = true) {pair : BitVec 13} {s : State} (Ks : Q s)
    : KeepsBy Q (execLinkRotate pair s) := by
  unfold execLinkRotate
  refine KeepsBy.of ?_
  extract_lets +onlyGivenNames x1 x2
  exact Keeps.ite (pendPair_keeps K h_rcv h_icu h_obs h_out (rotatePair_keeps K h_rcv h_icu h_obs h_cex h_srg h_link h_out Ks)) Ks

theorem execGroupFlushExpiry_keeps (K : Keeps P Q) (h_rcv : P .rcv = true) (h_icu : P .icu = true) (h_obs : P .obs = true) (h_cex : P .cex = true)
    (h_srg : P .srg = true) (h_link : P .link = true) (h_out : P .out = true) {port : BitVec 5} {stream : BitVec 17} {s : State} (Ks : Q s)
    : KeepsBy Q (execGroupFlushExpiry port stream s) := by
  unfold execGroupFlushExpiry
  exact KeepsBy.of (settleClosing_keeps K h_cex h_link (closeTx_keeps K h_rcv h_icu h_obs h_cex h_srg h_link h_out Ks))

theorem execDeadTargetReport_keeps (K : Keeps P Q) (h_rcv : P .rcv = true) (h_icu : P .icu = true) (h_obs : P .obs = true) (h_cex : P .cex = true)
    (h_srg : P .srg = true) (h_ods : P .ods = true) (h_kst : P .kst = true) (h_engKeys : P .engKeys = true) (h_kwe : P .kwe = true)
    (h_pke : P .pke = true) (h_ent : P .ent = true) (h_mem : P .mem = true) (h_link : P .link = true) (h_sheaf : P .sheaf = true)
    (h_dom : P .dom = true) (h_pins : P .pins = true) (h_ac : P .ac = true) (h_vt : P .vt = true) (h_out : P .out = true) {port : BitVec 5}
    {endpoint : BitVec 32} {s : State} (Ks : Q s) : KeepsBy Q (execDeadTargetReport port endpoint s) := by
  unfold execDeadTargetReport
  refine KeepsBy.of ?_
  refine Keeps.ite Ks ?_
  extract_lets +onlyGivenNames x1
  exact Keeps.foldl (fun b2 b3 h4 => Keeps.foldl (fun b5 b6 h7 => Keeps.ite (deadMember_keeps K h_rcv h_icu h_obs h_cex h_srg h_ods h_kst h_engKeys h_kwe h_pke h_ent h_mem h_link h_sheaf h_dom h_pins h_ac h_vt h_out h7) h7) h4) (pend_keeps K h_rcv h_icu h_obs h_out Ks)

theorem advanceVt_keeps (K : Keeps P Q) (h_link : P .link = true) (h_vt : P .vt = true) {port sl : Nat} {s : State} (Ks : Q s)
    : Q (advanceVt port sl s) := by
  unfold advanceVt
  extract_lets +onlyGivenNames x1 x2 x3
  exact K.upd Ks (h_link := .inr h_link) (h_vt := .inr h_vt)

theorem verifiedGroup_keeps (K : Keeps P Q) (h_rcv : P .rcv = true) (h_icu : P .icu = true) (h_obs : P .obs = true) (h_cex : P .cex = true)
    (h_srg : P .srg = true) (h_mem : P .mem = true) (h_link : P .link = true) (h_dom : P .dom = true) (h_vt : P .vt = true) (h_out : P .out = true)
    {g : RxGroup} {s : State} (Ks : Q s) : Q (verifiedGroup g s) := by
  unfold verifiedGroup
  extract_lets +onlyGivenNames x1 x2 x3 x4
  have Kx4 : Q x4 := K.link h_link Ks
  clear_value x4
  extract_lets +onlyGivenNames x5
  have Kx5 : Q x5 := Keeps.ite Kx4 (Keeps.ite (gatherMsg_keeps K h_link Kx4) (State.emit_keeps K h_out Kx4))
  clear_value x5
  exact settleGate_keeps K h_rcv h_icu h_obs h_cex h_srg h_mem h_link h_dom h_out (leaveSav_keeps K h_link (advanceVt_keeps K h_link h_vt Kx5))

theorem execStreamOpen_keeps (K : Keeps P Q) (h_cex : P .cex = true) (h_srg : P .srg = true) (h_engKeys : P .engKeys = true) (h_kwe : P .kwe = true)
    (h_ent : P .ent = true) (h_link : P .link = true) {h : CmdHdr} {peer mask : BitVec 16} {port opt : BitVec 8} {s : State} (Ks : Q s)
    : KeepsBy Q (execStreamOpen h peer mask port opt s) := by
  unfold execStreamOpen
  refine KeepsBy.of ?_
  refine cexRun_keeps K h_cex h_srg Ks ?_
  intro b1 h2
  extract_lets +onlyGivenNames x3 x4 x5
  refine checked_keeps K h_cex h2 ?_
  intro b6 h7
  extract_lets +onlyGivenNames x8
  split
  rename_i y9 y10 y11 y12
  have Ky10 : Q y10 := Keeps.fst y12 (openStreams_keeps K h_engKeys h_kwe h_ent h_link h7)
  extract_lets +onlyGivenNames x13
  exact Keeps.ite (updPair_keeps K h_link Ky10) (finish_keeps K h_cex Ky10)

theorem execDrainTimeout_keeps (K : Keeps P Q) (h_rcv : P .rcv = true) (h_icu : P .icu = true) (h_obs : P .obs = true) (h_cex : P .cex = true)
    (h_srg : P .srg = true) (h_ods : P .ods = true) (h_kst : P .kst = true) (h_engKeys : P .engKeys = true) (h_kwe : P .kwe = true)
    (h_pke : P .pke = true) (h_ent : P .ent = true) (h_mem : P .mem = true) (h_link : P .link = true) (h_sheaf : P .sheaf = true)
    (h_dom : P .dom = true) (h_pins : P .pins = true) (h_ac : P .ac = true) (h_vt : P .vt = true) (h_out : P .out = true) {port : BitVec 5}
    {pair : BitVec 13} {s : State} (Ks : Q s) : KeepsBy Q (execDrainTimeout port pair s) := by
  unfold execDrainTimeout
  refine KeepsBy.of ?_
  split
  · exact Ks
  · split
    · exact Ks
    · exact failGroup_keeps K h_rcv h_icu h_obs h_cex h_srg h_ods h_kst h_engKeys h_kwe h_pke h_ent h_mem h_link h_sheaf h_dom h_pins h_ac h_vt h_out Ks

theorem execGroupTrailer_keeps (K : Keeps P Q) (h_rcv : P .rcv = true) (h_icu : P .icu = true) (h_obs : P .obs = true) (h_cex : P .cex = true)
    (h_srg : P .srg = true) (h_ods : P .ods = true) (h_kst : P .kst = true) (h_engKeys : P .engKeys = true) (h_kwe : P .kwe = true)
    (h_pke : P .pke = true) (h_ent : P .ent = true) (h_mem : P .mem = true) (h_link : P .link = true) (h_sheaf : P .sheaf = true)
    (h_dom : P .dom = true) (h_pins : P .pins = true) (h_ac : P .ac = true) (h_vt : P .vt = true) (h_out : P .out = true) {port : BitVec 5}
    {index : BitVec 16} {trailer : Bytes} {tag : BitVec 128} {s : State} (Ks : Q s) : KeepsBy Q (execGroupTrailer port index trailer tag s) := by
  unfold execGroupTrailer
  refine KeepsBy.of ?_
  split
  · exact passTrailer_keeps K h_out Ks
  · extract_lets +onlyGivenNames x1
    exact Keeps.ite Ks (Keeps.ite (passTrailer_keeps K h_out Ks) (Keeps.ite (failGroup_keeps K h_rcv h_icu h_obs h_cex h_srg h_ods h_kst h_engKeys h_kwe h_pke h_ent h_mem h_link h_sheaf h_dom h_pins h_ac h_vt h_out Ks) (Keeps.ite (failGroup_keeps K h_rcv h_icu h_obs h_cex h_srg h_ods h_kst h_engKeys h_kwe h_pke h_ent h_mem h_link h_sheaf h_dom h_pins h_ac h_vt h_out Ks) (verifiedGroup_keeps K h_rcv h_icu h_obs h_cex h_srg h_mem h_link h_dom h_vt h_out Ks))))

theorem execStreamRotate_keeps (K : Keeps P Q) (h_rcv : P .rcv = true) (h_obs : P .obs = true) (h_cex : P .cex = true) (h_xlt : P .xlt = true)
    (h_srg : P .srg = true) (h_link : P .link = true) {h : CmdHdr} {bva : BitVec 64} {count : BitVec 16} {x : Option XFault} {list : List (BitVec 16)}
    {s : State} (Ks : Q s) : KeepsBy Q (execStreamRotate h bva count x list s) := by
  unfold execStreamRotate
  refine KeepsBy.of ?_
  refine cexRun_keeps K h_cex h_srg Ks ?_
  intro b1 h2
  refine checked_keeps K h_cex h2 ?_
  intro b3 h4
  split
  · exact xltFault_keeps K h_rcv h_obs h_cex h_xlt h4
  · extract_lets +onlyGivenNames x5 x6
    exact checked_keeps K h_cex h4 (fun b7 h8 => Keeps.foldl (fun b9 b10 h11 => updPair_keeps K h_link h11) h8)

end Sys2Proof.Machine
end

