-- ==== Sys2Proof/Laws/KeepsHostLink.lean ====
section
/-!
SUPPORT. What the operations of Machine/HostLink.lean keep, and which parts they may change (Laws/Keeps.lean).
-/

set_option Elab.async false
namespace Sys2Proof.Machine

variable {P : Part → Bool} {Q : State → Prop}

theorem dropEgress_keeps (K : Keeps P Q) (h_rcv : P .rcv = true) (h_icu : P .icu = true) (h_obs : P .obs = true) (h_cex : P .cex = true)
    (h_srg : P .srg = true) (h_mem : P .mem = true) (h_link : P .link = true) (h_dom : P .dom = true) (h_out : P .out = true) {sl : Nat} {s : State}
    (Ks : Q s) : Q (dropEgress sl s) := by
  unfold dropEgress
  exact settleGate_keeps K h_rcv h_icu h_obs h_cex h_srg h_mem h_link h_dom h_out (K.upd Ks (h_cex := .inr h_cex) (h_link := .inr h_link))

theorem inSession_keeps (K : Keeps P Q) (h_rcv : P .rcv = true) (h_icu : P .icu = true) (h_obs : P .obs = true) (h_out : P .out = true) {n : BitVec 3}
    {src : Nat} {s : State} {f : State → State} (Ks : Q s) (Kf : ∀ b0, Q b0 → Q (f b0)) : KeepsBy Q (inSession n src s f) := by
  unfold inSession
  exact KeepsBy.of (Keeps.ite (Kf _ (pend_keeps K h_rcv h_icu h_obs h_out Ks)) Ks)

theorem tdispReply_keeps (K : Keeps P Q) (h_out : P .out = true) {code : Nat} {values : Bytes} {s : State} (Ks : Q s)
    : Q (tdispReply code values s) := by
  unfold tdispReply
  exact State.emit_keeps K h_out Ks

theorem execGetTdispCapabilities_keeps (K : Keeps P Q) (h_rcv : P .rcv = true) (h_icu : P .icu = true) (h_obs : P .obs = true) (h_out : P .out = true)
    {session : BitVec 3} {s : State} (Ks : Q s) : KeepsBy Q (execGetTdispCapabilities session s) := by
  unfold execGetTdispCapabilities
  exact inSession_keeps K h_rcv h_icu h_obs h_out Ks (fun b1 h2 => tdispReply_keeps K h_out h2)

theorem ideReply_keeps (K : Keeps P Q) (h_out : P .out = true) {obj : Nat} {values : Bytes} {s : State} (Ks : Q s) : Q (ideReply obj values s) := by
  unfold ideReply
  exact State.emit_keeps K h_out Ks

theorem execKeyProg_keeps (K : Keeps P Q) (h_rcv : P .rcv = true) (h_icu : P .icu = true) (h_obs : P .obs = true) (h_engKeys : P .engKeys = true)
    (h_kwe : P .kwe = true) (h_ent : P .ent = true) (h_link : P .link = true) (h_out : P .out = true) {session : BitVec 3} {slc : BitVec 4}
    {streamId : BitVec 8} {tx : Bool} {sub : BitVec 2} {k : Bool} {key : BitVec 256} {s : State} (Ks : Q s)
    : KeepsBy Q (execKeyProg session slc streamId tx sub k key s) := by
  unfold execKeyProg
  refine inSession_keeps K h_rcv h_icu h_obs h_out Ks ?_
  intro b1 h2
  extract_lets +onlyGivenNames x3 x4 x5 x6
  have Kx6 : Q x6 := Keeps.ite (loadKey_keeps K h_engKeys h_kwe h_ent (updIde_keeps K h_link h2)) h2
  clear_value x6
  exact ideReply_keeps K h_out Kx6

theorem setTdi_keeps (K : Keeps P Q) (h_ods : P .ods = true) (h_tdi : P .tdi = true) {sl st : Nat} {s : State} (hst : st ≤ 3) (Ks : Q s)
    : Q (setTdi sl st s) := by
  unfold setTdi
  have k : Q { s with tdi := s.tdi.set sl st } := K.tdi h_tdi (fun t j => Tbl.all_set (p := fun n => n ≤ 3) t sl hst j) Ks
  exact Keeps.ite (endTrans_keeps K h_ods k) k

theorem tdispError_keeps (K : Keeps P Q) (h_out : P .out = true) {code : Nat} {s : State} (Ks : Q s) : Q (tdispError code s) := by
  unfold tdispError
  exact tdispReply_keeps K h_out Ks

theorem execLockInterfaceRequest_keeps (K : Keeps P Q) (h_rcv : P .rcv = true) (h_icu : P .icu = true) (h_obs : P .obs = true) (h_ods : P .ods = true)
    (h_tdi : P .tdi = true) (h_out : P .out = true) {session : BitVec 3} {slc : BitVec 4} {s : State} (Ks : Q s)
    : KeepsBy Q (execLockInterfaceRequest session slc s) := by
  unfold execLockInterfaceRequest
  refine inSession_keeps K h_rcv h_icu h_obs h_out Ks ?_
  intro b1 h2
  extract_lets +onlyGivenNames x3
  exact Keeps.ite (tdispReply_keeps K h_out (setTdi_keeps K h_ods h_tdi (by decide) h2)) (tdispError_keeps K h_out h2)

theorem tdiError_keeps (K : Keeps P Q) (h_rcv : P .rcv = true) (h_icu : P .icu = true) (h_obs : P .obs = true) (h_cex : P .cex = true)
    (h_srg : P .srg = true) (h_ods : P .ods = true) (h_mem : P .mem = true) (h_link : P .link = true) (h_dom : P .dom = true) (h_tdi : P .tdi = true)
    (h_out : P .out = true) {sl cause : Nat} {s : State} (Ks : Q s) : Q (tdiError sl cause s) := by
  unfold tdiError
  exact dropEgress_keeps K h_rcv h_icu h_obs h_cex h_srg h_mem h_link h_dom h_out (setTdi_keeps K h_ods h_tdi (by decide) (updIde_keeps K h_link Ks))

theorem leaveSecure_keeps (K : Keeps P Q) (h_engKeys : P .engKeys = true) (h_link : P .link = true) {sl : Nat} {s : State} (Ks : Q s)
    : Q (leaveSecure sl s) := by
  unfold leaveSecure
  extract_lets +onlyGivenNames x1
  have Kx1 : Q x1 := K.engKeys h_engKeys Ks
  clear_value x1
  exact updIde_keeps K h_link Kx1

theorem ideFail_keeps (K : Keeps P Q) (h_rcv : P .rcv = true) (h_icu : P .icu = true) (h_obs : P .obs = true) (h_cex : P .cex = true)
    (h_srg : P .srg = true) (h_ods : P .ods = true) (h_engKeys : P .engKeys = true) (h_mem : P .mem = true) (h_link : P .link = true)
    (h_dom : P .dom = true) (h_tdi : P .tdi = true) (h_out : P .out = true) {sl : Nat} {s : State} (Ks : Q s) : Q (ideFail sl s) := by
  unfold ideFail
  extract_lets +onlyGivenNames x1 x2 x3
  have Kx3 : Q x3 := tdiError_keeps K h_rcv h_icu h_obs h_cex h_srg h_ods h_mem h_link h_dom h_tdi h_out (leaveSecure_keeps K h_engKeys h_link (K.link h_link Ks))
  clear_value x3
  exact raise_keeps K h_cex (pend_keeps K h_rcv h_icu h_obs h_out (logError_keeps K h_rcv h_icu h_obs h_out Kx3))

theorem execHleTlpReceive_keeps (K : Keeps P Q) (h_rcv : P .rcv = true) (h_icu : P .icu = true) (h_obs : P .obs = true) (h_cex : P .cex = true)
    (h_srg : P .srg = true) (h_ods : P .ods = true) (h_engKeys : P .engKeys = true) (h_mem : P .mem = true) (h_link : P .link = true)
    (h_dom : P .dom = true) (h_tdi : P .tdi = true) (h_out : P .out = true) {slc : BitVec 4} {sub : BitVec 2} {k t : Bool} {iv : BitVec 96}
    {aad data : Bytes} {mac : BitVec 96} {s : State} (Ks : Q s) : KeepsBy Q (execHleTlpReceive slc sub k t iv aad data mac s) := by
  unfold execHleTlpReceive
  refine KeepsBy.of ?_
  extract_lets +onlyGivenNames x1 x2 x3
  refine Keeps.ite Ks ?_
  refine Keeps.ite (ideFail_keeps K h_rcv h_icu h_obs h_cex h_srg h_ods h_engKeys h_mem h_link h_dom h_tdi h_out Ks) ?_
  extract_lets +onlyGivenNames x4 x5
  exact Keeps.ite (ideFail_keeps K h_rcv h_icu h_obs h_cex h_srg h_ods h_engKeys h_mem h_link h_dom h_tdi h_out Ks) (Keeps.ite (State.emit_keeps K h_out Ks) Ks)

theorem execLossOfSecure_keeps (K : Keeps P Q) (h_rcv : P .rcv = true) (h_icu : P .icu = true) (h_obs : P .obs = true) (h_cex : P .cex = true)
    (h_srg : P .srg = true) (h_ods : P .ods = true) (h_engKeys : P .engKeys = true) (h_mem : P .mem = true) (h_link : P .link = true)
    (h_dom : P .dom = true) (h_tdi : P .tdi = true) (h_out : P .out = true) {slc : BitVec 4} {s : State} (Ks : Q s)
    : KeepsBy Q (execLossOfSecure slc s) := by
  unfold execLossOfSecure
  exact KeepsBy.of (tdiError_keeps K h_rcv h_icu h_obs h_cex h_srg h_ods h_mem h_link h_dom h_tdi h_out (leaveSecure_keeps K h_engKeys h_link Ks))

theorem execKeySetStop_keeps (K : Keeps P Q) (h_rcv : P .rcv = true) (h_icu : P .icu = true) (h_obs : P .obs = true) (h_cex : P .cex = true)
    (h_srg : P .srg = true) (h_ods : P .ods = true) (h_engKeys : P .engKeys = true) (h_mem : P .mem = true) (h_link : P .link = true)
    (h_dom : P .dom = true) (h_tdi : P .tdi = true) (h_out : P .out = true) {session : BitVec 3} {slc : BitVec 4} {tx : Bool} {sub : BitVec 2}
    {k : Bool} {s : State} (Ks : Q s) : KeepsBy Q (execKeySetStop session slc tx sub k s) := by
  unfold execKeySetStop
  refine inSession_keeps K h_rcv h_icu h_obs h_out Ks ?_
  intro b1 h2
  extract_lets +onlyGivenNames x3 x4 x5
  have Kx5 : Q x5 := Keeps.ite (clearKey_keeps K h_engKeys (updIde_keeps K h_link h2)) h2
  clear_value x5
  extract_lets +onlyGivenNames x6
  have Kx6 : Q x6 := Keeps.ite (tdiError_keeps K h_rcv h_icu h_obs h_cex h_srg h_ods h_mem h_link h_dom h_tdi h_out (leaveSecure_keeps K h_engKeys h_link Kx5)) Kx5
  clear_value x6
  exact ideReply_keeps K h_out Kx6

theorem execStartInterfaceRequest_keeps (K : Keeps P Q) (h_rcv : P .rcv = true) (h_icu : P .icu = true) (h_obs : P .obs = true)
    (h_ods : P .ods = true) (h_tdi : P .tdi = true) (h_out : P .out = true) {session : BitVec 3} {slc : BitVec 4} {s : State} (Ks : Q s)
    : KeepsBy Q (execStartInterfaceRequest session slc s) := by
  unfold execStartInterfaceRequest
  exact inSession_keeps K h_rcv h_icu h_obs h_out Ks (fun b1 h2 => Keeps.ite (tdispReply_keeps K h_out (setTdi_keeps K h_ods h_tdi (by decide) h2)) (tdispError_keeps K h_out h2))

theorem execTdispUnsupportedRequest_keeps (K : Keeps P Q) (h_rcv : P .rcv = true) (h_icu : P .icu = true) (h_obs : P .obs = true)
    (h_out : P .out = true) {session : BitVec 3} {_code : BitVec 8} {s : State} (Ks : Q s)
    : KeepsBy Q (execTdispUnsupportedRequest session _code s) := by
  unfold execTdispUnsupportedRequest
  exact inSession_keeps K h_rcv h_icu h_obs h_out Ks (fun b1 h2 => tdispError_keeps K h_out h2)

theorem execHleTlpEgress_keeps (K : Keeps P Q) (h_rcv : P .rcv = true) (h_icu : P .icu = true) (h_obs : P .obs = true) (h_cex : P .cex = true)
    (h_srg : P .srg = true) (h_mem : P .mem = true) (h_link : P .link = true) (h_dom : P .dom = true) (h_out : P .out = true) {slc : BitVec 5}
    {sub : BitVec 2} {header data : Bytes} {s : State} (Ks : Q s) : KeepsBy Q (execHleTlpEgress slc sub header data s) := by
  unfold execHleTlpEgress
  refine KeepsBy.of ?_
  extract_lets +onlyGivenNames x1
  refine Keeps.ite Ks ?_
  extract_lets +onlyGivenNames x2 x3 x4 x5
  have Kx5 : Q x5 := Keeps.ite (sliceCount_keeps K h_link Ks) Ks
  clear_value x5
  exact settleGate_keeps K h_rcv h_icu h_obs h_cex h_srg h_mem h_link h_dom h_out (K.link h_link Kx5)

theorem execKeySetGo_keeps (K : Keeps P Q) (h_rcv : P .rcv = true) (h_icu : P .icu = true) (h_obs : P .obs = true) (h_link : P .link = true)
    (h_out : P .out = true) {session : BitVec 3} {slc : BitVec 4} {tx : Bool} {sub : BitVec 2} {k : Bool} {s : State} (Ks : Q s)
    : KeepsBy Q (execKeySetGo session slc tx sub k s) := by
  unfold execKeySetGo
  refine inSession_keeps K h_rcv h_icu h_obs h_out Ks ?_
  intro b1 h2
  extract_lets +onlyGivenNames x3 x4
  have Kx4 : Q x4 := Keeps.ite (updIde_keeps K h_link h2) h2
  clear_value x4
  exact ideReply_keeps K h_out Kx4

theorem execQuery_keeps (K : Keeps P Q) (h_rcv : P .rcv = true) (h_icu : P .icu = true) (h_obs : P .obs = true) (h_out : P .out = true)
    {session : BitVec 3} {slc : BitVec 4} {s : State} (Ks : Q s) : KeepsBy Q (execQuery session slc s) := by
  unfold execQuery
  refine inSession_keeps K h_rcv h_icu h_obs h_out Ks ?_
  intro b1 h2
  extract_lets +onlyGivenNames x3
  exact ideReply_keeps K h_out h2

theorem execGetTdispVersion_keeps (K : Keeps P Q) (h_rcv : P .rcv = true) (h_icu : P .icu = true) (h_obs : P .obs = true) (h_out : P .out = true)
    {session : BitVec 3} {s : State} (Ks : Q s) : KeepsBy Q (execGetTdispVersion session s) := by
  unfold execGetTdispVersion
  exact inSession_keeps K h_rcv h_icu h_obs h_out Ks (fun b1 h2 => tdispReply_keeps K h_out h2)

theorem execGetDeviceInterfaceState_keeps (K : Keeps P Q) (h_rcv : P .rcv = true) (h_icu : P .icu = true) (h_obs : P .obs = true)
    (h_out : P .out = true) {session : BitVec 3} {slc : BitVec 4} {s : State} (Ks : Q s) : KeepsBy Q (execGetDeviceInterfaceState session slc s) := by
  unfold execGetDeviceInterfaceState
  exact inSession_keeps K h_rcv h_icu h_obs h_out Ks (fun b1 h2 => tdispReply_keeps K h_out h2)

theorem execGetDeviceInterfaceReport_keeps (K : Keeps P Q) (h_rcv : P .rcv = true) (h_icu : P .icu = true) (h_obs : P .obs = true)
    (h_out : P .out = true) {session : BitVec 3} {slc : BitVec 4} {s : State} (Ks : Q s)
    : KeepsBy Q (execGetDeviceInterfaceReport session slc s) := by
  unfold execGetDeviceInterfaceReport
  exact inSession_keeps K h_rcv h_icu h_obs h_out Ks (fun b1 h2 => tdispReply_keeps K h_out h2)

theorem execStopInterfaceRequest_keeps (K : Keeps P Q) (h_rcv : P .rcv = true) (h_icu : P .icu = true) (h_obs : P .obs = true) (h_ods : P .ods = true)
    (h_link : P .link = true) (h_tdi : P .tdi = true) (h_out : P .out = true) {session : BitVec 3} {slc : BitVec 4} {s : State} (Ks : Q s)
    : KeepsBy Q (execStopInterfaceRequest session slc s) := by
  unfold execStopInterfaceRequest
  exact inSession_keeps K h_rcv h_icu h_obs h_out Ks (fun b1 h2 => tdispReply_keeps K h_out (setTdi_keeps K h_ods h_tdi (by decide) (updIde_keeps K h_link h2)))

end Sys2Proof.Machine
end

