-- ==== Sys2Proof/Laws/KeepsLifeOps.lean ====
section
/-!
SUPPORT. What the operations of Machine/LifeOps.lean keep, and which parts they may change (Laws/Keeps.lean).
-/

set_option Elab.async false
namespace Sys2Proof.Machine

variable {P : Part → Bool} {Q : State → Prop}

theorem clearRoot_keeps (K : Keeps P Q) (h_vault : P .vault = true) {s : State} (Ks : Q s) : Q (clearRoot s) := by
  unfold clearRoot
  exact K.vault h_vault Ks

theorem silenceSlice_keeps (K : Keeps P Q) (h_rcv : P .rcv = true) (h_icu : P .icu = true) (h_obs : P .obs = true) (h_cex : P .cex = true)
    (h_kst : P .kst = true) (h_engKeys : P .engKeys = true) (h_kwe : P .kwe = true) (h_pke : P .pke = true) (h_mem : P .mem = true)
    (h_link : P .link = true) (h_sheaf : P .sheaf = true) (h_dom : P .dom = true) (h_pins : P .pins = true) (h_ac : P .ac = true)
    (h_vt : P .vt = true) (h_out : P .out = true) {sl : Nat} {s : State} (Ks : Q s) : Q (silenceSlice sl s) := by
  unfold silenceSlice
  extract_lets +onlyGivenNames x1 x2 x3
  have Kx3 : Q x3 := zeroizeSlice_keeps K h_rcv h_icu h_obs h_cex h_kst h_engKeys h_kwe h_pke h_mem h_link h_sheaf h_ac h_vt h_out Ks
  clear_value x3
  exact Keeps.ite Kx3 (setDomState_keeps K h_cex h_mem h_link h_dom h_pins h_ac h_vt (updDom_keeps K h_dom (endAll_keeps K h_cex Kx3)))

theorem clearVolatileKeys_keeps (K : Keeps P Q) (h_rcv : P .rcv = true) (h_icu : P .icu = true) (h_obs : P .obs = true) (h_cex : P .cex = true)
    (h_srg : P .srg = true) (h_ods : P .ods = true) (h_kst : P .kst = true) (h_engKeys : P .engKeys = true) (h_kwe : P .kwe = true)
    (h_pke : P .pke = true) (h_ent : P .ent = true) (h_mem : P .mem = true) (h_link : P .link = true) (h_sheaf : P .sheaf = true)
    (h_dom : P .dom = true) (h_pins : P .pins = true) (h_tdi : P .tdi = true) (h_ac : P .ac = true) (h_vt : P .vt = true) (h_out : P .out = true)
    {s : State} (Ks : Q s) : Q (clearVolatileKeys s) := by
  unfold clearVolatileKeys
  extract_lets +onlyGivenNames x1
  have Kx1 : Q x1 := zeroizeSlots_keeps K h_kst h_engKeys h_kwe Ks
  clear_value x1
  extract_lets +onlyGivenNames x2 x3 x4
  have Kx4 : Q x4 := K.upd Kx1 (h_kwe := .inr h_kwe) (h_pke := .inr h_pke) (h_ent := .inr h_ent)
  clear_value x4
  extract_lets +onlyGivenNames x5
  have Kx5 : Q x5 := Keeps.foldl (fun b6 b7 h8 => silenceSlice_keeps K h_rcv h_icu h_obs h_cex h_kst h_engKeys h_kwe h_pke h_mem h_link h_sheaf h_dom h_pins h_ac h_vt h_out h8) Kx4
  clear_value x5
  extract_lets +onlyGivenNames x9
  have Kx9 : Q x9 := Keeps.foldl (fun b10 b11 h12 => Keeps.ite (tdiError_keeps K h_rcv h_icu h_obs h_cex h_srg h_ods h_mem h_link h_dom h_tdi h_out (leaveSecure_keeps K h_engKeys h_link h12)) h12) Kx5
  clear_value x9
  exact K.upd Kx9 (h_engKeys := .inr h_engKeys) (h_dom := .inr h_dom)

theorem tamperRecords_keeps (K : Keeps P Q) (h_rcv : P .rcv = true) (h_icu : P .icu = true) (h_obs : P .obs = true) (h_cex : P .cex = true)
    (h_out : P .out = true) {s : State} (Ks : Q s) : Q (tamperRecords s) := by
  unfold tamperRecords
  extract_lets +onlyGivenNames x1
  exact Keeps.ite (raise_keeps K h_cex (logError_keeps K h_rcv h_icu h_obs h_out Ks)) Ks

theorem setScopes_keeps (K : Keeps P Q) (h_atu : P .atu = true) (h_lcc : P .lcc = true) {bits : Nat} {s : State} (Ks : Q s)
    : Q (setScopes bits s) := by
  unfold setScopes
  extract_lets +onlyGivenNames x1 x2
  have Kx2 : Q x2 := K.lcc h_lcc (FusesKept.of_eq rfl rfl rfl rfl) Ks
  clear_value x2
  exact extendMr_keeps K h_atu Kx2

theorem updAlarm_keeps (K : Keeps P Q) (h_pins : P .pins = true) {s : State} (Ks : Q s) : Q (updAlarm s) := by
  unfold updAlarm
  exact K.pins h_pins Ks

theorem provisionRoot_keeps (K : Keeps P Q) (h_vault : P .vault = true) (h_ent : P .ent = true) (h_pins : P .pins = true) (h_free : P .free = true)
    {s : State} (Ks : Q s) : Q (provisionRoot s) := by
  unfold provisionRoot
  split
  rename_i y1 y2 y3 y4
  have Ky3 : Q y3 := Keeps.snd y4 (drawBits_keeps K h_free (drbgReseed_keeps K h_ent h_free Ks))
  extract_lets +onlyGivenNames x5
  exact updAlarm_keeps K h_pins (K.vault h_vault Ky3)

theorem zeroizeErase_keeps (K : Keeps P Q) (h_rcv : P .rcv = true) (h_icu : P .icu = true) (h_obs : P .obs = true) (h_cex : P .cex = true)
    (h_srg : P .srg = true) (h_ods : P .ods = true) (h_vault : P .vault = true) (h_kst : P .kst = true) (h_engKeys : P .engKeys = true)
    (h_kwe : P .kwe = true) (h_pke : P .pke = true) (h_ent : P .ent = true) (h_mem : P .mem = true) (h_link : P .link = true)
    (h_sheaf : P .sheaf = true) (h_dom : P .dom = true) (h_pins : P .pins = true) (h_tdi : P .tdi = true) (h_ac : P .ac = true) (h_vt : P .vt = true)
    (h_out : P .out = true) {s : State} (Ks : Q s) : Q (zeroizeErase s) := by
  unfold zeroizeErase
  extract_lets +onlyGivenNames x1
  have Kx1 : Q x1 := clearVolatileKeys_keeps K h_rcv h_icu h_obs h_cex h_srg h_ods h_kst h_engKeys h_kwe h_pke h_ent h_mem h_link h_sheaf h_dom h_pins h_tdi h_ac h_vt h_out (clearRoot_keeps K h_vault Ks)
  clear_value x1
  exact updAlarm_keeps K h_pins (K.vault h_vault Kx1)

theorem runWipe_keeps (K : Keeps P Q) (h_rcv : P .rcv = true) (h_icu : P .icu = true) (h_obs : P .obs = true) (h_cex : P .cex = true)
    (h_srg : P .srg = true) (h_ods : P .ods = true) (h_vault : P .vault = true) (h_kst : P .kst = true) (h_engKeys : P .engKeys = true)
    (h_kwe : P .kwe = true) (h_pke : P .pke = true) (h_ent : P .ent = true) (h_lcc : P .lcc = true) (h_mem : P .mem = true) (h_link : P .link = true)
    (h_sheaf : P .sheaf = true) (h_dom : P .dom = true) (h_pins : P .pins = true) (h_tdi : P .tdi = true) (h_ac : P .ac = true) (h_vt : P .vt = true)
    (h_free : P .free = true) (h_out : P .out = true) {s : State} (Ks : Q s) : Q (runWipe s) := by
  unfold runWipe
  refine Keeps.ite Ks ?_
  refine Keeps.ite ?_ ?_
  · refine Keeps.ite ?_ Ks
    extract_lets +onlyGivenNames x1
    have Kx1 : Q x1 := provisionRoot_keeps K h_vault h_ent h_pins h_free Ks
    clear_value x1
    exact K.lcc h_lcc (FusesKept.of_eq rfl rfl rfl rfl) Kx1
  · refine Keeps.ite ?_ (K.lcc h_lcc (FusesKept.of_eq rfl rfl rfl rfl) Ks)
    extract_lets +onlyGivenNames x2
    have Kx2 : Q x2 := zeroizeErase_keeps K h_rcv h_icu h_obs h_cex h_srg h_ods h_vault h_kst h_engKeys h_kwe h_pke h_ent h_mem h_link h_sheaf h_dom h_pins h_tdi h_ac h_vt h_out Ks
    clear_value x2
    exact K.lcc h_lcc (FusesKept.of_eq rfl rfl rfl rfl) Kx2

theorem setVbat_keeps (K : Keeps P Q) (h_vault : P .vault = true) (h_pins : P .pins = true) {mv : Nat} {s : State} (Ks : Q s) : Q (setVbat mv s) := by
  unfold setVbat
  exact K.upd Ks (h_vault := .inr h_vault) (h_pins := .inr h_pins)

theorem recordTamper_keeps (K : Keeps P Q) (h_vault : P .vault = true) {bits : Nat} {s : State} (Ks : Q s) : Q (recordTamper bits s) := by
  unfold recordTamper
  extract_lets +onlyGivenNames x1
  exact K.vault h_vault Ks

theorem openScopes_keeps (K : Keeps P Q) (h_rcv : P .rcv = true) (h_icu : P .icu = true) (h_obs : P .obs = true) (h_cex : P .cex = true)
    (h_kst : P .kst = true) (h_engKeys : P .engKeys = true) (h_kwe : P .kwe = true) (h_pke : P .pke = true) (h_atu : P .atu = true)
    (h_lcc : P .lcc = true) (h_mem : P .mem = true) (h_link : P .link = true) (h_sheaf : P .sheaf = true) (h_ac : P .ac = true) (h_vt : P .vt = true)
    (h_out : P .out = true) {bits : Nat} {s : State} (Ks : Q s) : Q (openScopes bits s) := by
  unfold openScopes
  extract_lets +onlyGivenNames x1
  have Kx1 : Q x1 := zeroizeSlots_keeps K h_kst h_engKeys h_kwe Ks
  clear_value x1
  exact setScopes_keeps K h_atu h_lcc (Keeps.foldl (fun b2 b3 h4 => zeroizeSlice_keeps K h_rcv h_icu h_obs h_cex h_kst h_engKeys h_kwe h_pke h_mem h_link h_sheaf h_ac h_vt h_out h4) Kx1)

theorem tapAccess_keeps (K : Keeps P Q) (h_lcc : P .lcc = true) {ir needs : TapInstr} {f : State → State} {s : State} (Kf : ∀ b0, Q b0 → Q (f b0)) (Ks
    : Q s) : Q (tapAccess ir needs f s) := by
  unfold tapAccess
  refine Keeps.ite Ks ?_
  extract_lets +onlyGivenNames x1 x2
  have Kx2 : Q x2 := K.lcc h_lcc (FusesKept.of_eq rfl rfl rfl rfl) Ks
  clear_value x2
  exact Keeps.ite (Kf _ Kx2) Kx2

theorem wipeAgain_keeps (K : Keeps P Q) (h_rcv : P .rcv = true) (h_icu : P .icu = true) (h_obs : P .obs = true) (h_cex : P .cex = true)
    (h_srg : P .srg = true) (h_ods : P .ods = true) (h_vault : P .vault = true) (h_kst : P .kst = true) (h_engKeys : P .engKeys = true)
    (h_kwe : P .kwe = true) (h_pke : P .pke = true) (h_ent : P .ent = true) (h_lcc : P .lcc = true) (h_mem : P .mem = true) (h_link : P .link = true)
    (h_sheaf : P .sheaf = true) (h_dom : P .dom = true) (h_pins : P .pins = true) (h_tdi : P .tdi = true) (h_ac : P .ac = true) (h_vt : P .vt = true)
    (h_free : P .free = true) (h_out : P .out = true) {s : State} (Ks : Q s) : Q (wipeAgain s) := by
  unfold wipeAgain
  exact Keeps.ite (runWipe_keeps K h_rcv h_icu h_obs h_cex h_srg h_ods h_vault h_kst h_engKeys h_kwe h_pke h_ent h_lcc h_mem h_link h_sheaf h_dom h_pins h_tdi h_ac h_vt h_free h_out (K.lcc h_lcc (FusesKept.of_eq rfl rfl rfl rfl) Ks)) (runWipe_keeps K h_rcv h_icu h_obs h_cex h_srg h_ods h_vault h_kst h_engKeys h_kwe h_pke h_ent h_lcc h_mem h_link h_sheaf h_dom h_pins h_tdi h_ac h_vt h_free h_out Ks)

end Sys2Proof.Machine
end

