-- ==== Sys2Proof/Laws/KeepsBoot.lean ====
section
/-!
SUPPORT. What the operations of Machine/Boot.lean keep, and which parts they may change (Laws/Keeps.lean).
-/

set_option Elab.async false
namespace Sys2Proof.Machine

variable {P : Part → Bool} {Q : State → Prop}

theorem takeRails_keeps (K : Keeps P Q) (h_pins : P .pins = true) {rails : Nat} {s : State} (Ks : Q s) : Q (takeRails rails s) := by
  unfold takeRails
  exact K.pins h_pins Ks

theorem bootStep_keeps (K : Keeps P Q) (h_boot : P .boot = true) {n : Nat} {s : State} (Ks : Q s) : Q (bootStep n s) := by
  unfold bootStep
  exact K.boot h_boot Ks

theorem decodeLc_keeps (K : Keeps P Q) (h_atu : P .atu = true) (h_lcc : P .lcc = true) {s : State} (Ks : Q s) : Q (decodeLc s) := by
  unfold decodeLc
  extract_lets +onlyGivenNames x1 x2 x3
  have Kx3 : Q x3 := K.lcc h_lcc (FusesKept.of_eq rfl rfl rfl rfl) Ks
  clear_value x3
  exact Keeps.ite (setScopes_keeps K h_atu h_lcc Kx3) Kx3

theorem applyStraps_keeps (K : Keeps P Q) (h_cex : P .cex = true) (h_srg : P .srg = true) (h_ods : P .ods = true) (h_mem : P .mem = true)
    (h_link : P .link = true) (h_pins : P .pins = true) (h_boot : P .boot = true) {v : List Nat} {s : State} (Ks : Q s) : Q (applyStraps v s) := by
  unfold applyStraps
  extract_lets +onlyGivenNames x1 x2 x3 x4
  exact K.upd Ks (h_cex := .inr h_cex) (h_srg := .inr h_srg) (h_ods := .inr ⟨h_ods, LotKept.of_eq rfl⟩) (h_mem := .inr h_mem) (h_link := .inr h_link) (h_pins := .inr h_pins) (h_boot := .inr h_boot)

theorem leaveReset_keeps (K : Keeps P Q) (h_clk : P .clk = true) (h_boot : P .boot = true) {s : State} (Ks : Q s) : Q (leaveReset s) := by
  unfold leaveReset
  exact K.upd Ks (h_clk := .inr h_clk) (h_boot := .inr h_boot)

theorem diceLock_keeps (K : Keeps P Q) (h_pke : P .pke = true) (h_atu : P .atu = true) {s : State} (Ks : Q s) : Q (diceLock s) := by
  unfold diceLock
  exact K.upd Ks (h_pke := .inr h_pke) (h_atu := .inr h_atu)

theorem identityFault_keeps (K : Keeps P Q) (h_rcv : P .rcv = true) (h_icu : P .icu = true) (h_obs : P .obs = true) (h_atu : P .atu = true)
    (h_out : P .out = true) {detail : Nat} {s : State} (Ks : Q s) : Q (identityFault detail s) := by
  unfold identityFault
  exact logError_keeps K h_rcv h_icu h_obs h_out (K.atu h_atu Ks)

theorem katFailed_keeps (K : Keeps P Q) (h_boot : P .boot = true) {t : Nat} {s : State} (Ks : Q s) : Q (katFailed t s) := by
  unfold katFailed
  exact K.boot h_boot Ks

theorem deviceSlot_keeps (K : Keeps P Q) (h_kst : P .kst = true) (h_kwe : P .kwe = true) (h_ent : P .ent = true) {n origin : Nat} {key : BitVec 256}
    {s : State} (Ks : Q s) : Q (deviceSlot n origin key s) := by
  unfold deviceSlot
  exact kweDone_keeps K h_kwe h_ent (writeSlot_keeps K h_kst Ks)

theorem deriveDevice_keeps (K : Keeps P Q) (h_vault : P .vault = true) (h_kst : P .kst = true) (h_kwe : P .kwe = true) (h_ent : P .ent = true)
    (h_pins : P .pins = true) {s : State} (Ks : Q s) : Q (deriveDevice s) := by
  unfold deriveDevice
  extract_lets +onlyGivenNames x1 x2 x3
  have Kx3 : Q x3 := kweDone_keeps K h_kwe h_ent Ks
  clear_value x3
  extract_lets +onlyGivenNames x4 x5
  have Kx5 : Q x5 := Keeps.ite (updAlarm_keeps K h_pins (K.vault h_vault Kx3)) Kx3
  clear_value x5
  exact Keeps.ite (deviceSlot_keeps K h_kst h_kwe h_ent (deviceSlot_keeps K h_kst h_kwe h_ent Kx5)) Kx5

theorem diceId_keeps (K : Keeps P Q) (h_kst : P .kst = true) (h_kwe : P .kwe = true) (h_pke : P .pke = true) (h_ent : P .ent = true) {s : State} (Ks
    : Q s) : Q (diceId s).2 := by
  unfold diceId
  extract_lets +onlyGivenNames x1 x2
  exact Keeps.p2 (pkeDone_keeps K h_ent (pkeDone_keeps K h_ent (kweDone_keeps K h_kwe h_ent (kweDone_keeps K h_kwe h_ent (deviceSlot_keeps K h_kst h_kwe h_ent (K.pke h_pke Ks))))))

theorem diceAlias_keeps (K : Keeps P Q) (h_kst : P .kst = true) (h_kwe : P .kwe = true) (h_pke : P .pke = true) (h_ent : P .ent = true)
    {digest : Bytes} {s : State} (Ks : Q s) : Q (diceAlias digest s).2 := by
  unfold diceAlias
  extract_lets +onlyGivenNames x1 x2
  exact Keeps.p2 (pkeDone_keeps K h_ent (pkeDone_keeps K h_ent (kweDone_keeps K h_kwe h_ent (kweDone_keeps K h_kwe h_ent (deviceSlot_keeps K h_kst h_kwe h_ent (K.pke h_pke Ks))))))

theorem issueAlias_keeps (K : Keeps P Q) (h_ent : P .ent = true) (h_free : P .free = true) {ec : Bool} {id al digest deviceCert : Bytes} {s : State}
    (Ks : Q s) : Q (issueAlias ec id al digest deviceCert s).2 := by
  unfold issueAlias
  extract_lets +onlyGivenNames x1
  refine Keeps.ite2 ?_ ?_
  · split
    rename_i y2 y3 y4 y5
    have Ky4 : Q y4 := Keeps.snd y5 (drbgBits_keeps K h_ent h_free Ks)
    exact Keeps.p2 (pkeDone_keeps K h_ent Ky4)
  · split
    rename_i y6 y7 y8 y9
    have Ky8 : Q y8 := Keeps.snd y9 (drbgBits_keeps K h_ent h_free Ks)
    exact Keeps.p2 (pkeDone_keeps K h_ent Ky8)

theorem dice_keeps (K : Keeps P Q) (h_rcv : P .rcv = true) (h_icu : P .icu = true) (h_obs : P .obs = true) (h_kst : P .kst = true)
    (h_kwe : P .kwe = true) (h_pke : P .pke = true) (h_ent : P .ent = true) (h_atu : P .atu = true) (h_free : P .free = true) (h_out : P .out = true)
    {digest : Bytes} {certs : List Bytes} {s : State} (Ks : Q s) : Q (dice digest certs s) := by
  unfold dice
  refine Keeps.ite (diceLock_keeps K h_pke h_atu Ks) ?_
  split
  rename_i y1 y2 y3 y4
  have Ky3 : Q y3 := Keeps.snd y4 (diceId_keeps K h_kst h_kwe h_pke h_ent Ks)
  extract_lets +onlyGivenNames x5 x6
  refine Keeps.ite (diceLock_keeps K h_pke h_atu (identityFault_keeps K h_rcv h_icu h_obs h_atu h_out Ky3)) ?_
  split
  rename_i y7 y8 y9 y10
  have Ky9 : Q y9 := Keeps.snd y10 (diceAlias_keeps K h_kst h_kwe h_pke h_ent Ky3)
  split
  rename_i y11 y12 y13 y14
  have Ky13 : Q y13 := Keeps.snd y14 (issueAlias_keeps K h_ent h_free Ky9)
  split
  rename_i y15 y16 y17 y18
  have Ky17 : Q y17 := Keeps.snd y18 (issueAlias_keeps K h_ent h_free Ky13)
  exact diceLock_keeps K h_pke h_atu (K.atu h_atu Ky17)

theorem takeImage_keeps (K : Keeps P Q) (h_ods : P .ods = true) (h_atu : P .atu = true) (h_boot : P .boot = true) {recovery : Bool} {x : FwImage}
    {s : State} (Ks : Q s) : Q (takeImage recovery x s) := by
  unfold takeImage
  extract_lets +onlyGivenNames x1 x2
  have Kx2 : Q x2 := extendMr_keeps K h_atu (extendMr_keeps K h_atu Ks)
  clear_value x2
  extract_lets +onlyGivenNames x3
  have Kx3 : Q x3 := extendMr_keeps K h_atu Kx2
  clear_value x3
  exact K.upd Kx3 (h_ods := .inr ⟨h_ods, LotKept.of_eq rfl⟩) (h_atu := .inr h_atu) (h_boot := .inr h_boot)

theorem bootImage_keeps (K : Keeps P Q) (h_rcv : P .rcv = true) (h_icu : P .icu = true) (h_obs : P .obs = true) (h_ods : P .ods = true)
    (h_kst : P .kst = true) (h_kwe : P .kwe = true) (h_pke : P .pke = true) (h_ent : P .ent = true) (h_atu : P .atu = true) (h_boot : P .boot = true)
    (h_free : P .free = true) (h_out : P .out = true) {recovery : Bool} {x : FwImage} {certs : List Bytes} {s : State} (Ks : Q s)
    : Q (bootImage recovery x certs s) := by
  unfold bootImage
  extract_lets +onlyGivenNames x1
  have Kx1 : Q x1 := dice_keeps K h_rcv h_icu h_obs h_kst h_kwe h_pke h_ent h_atu h_free h_out (takeImage_keeps K h_ods h_atu h_boot Ks)
  clear_value x1
  exact K.boot h_boot Kx1

theorem findImage_fetch_keeps (K : Keeps P Q) (h_rcv : P .rcv = true) (h_icu : P .icu = true) (h_obs : P .obs = true) (h_ods : P .ods = true)
    (h_kst : P .kst = true) (h_kwe : P .kwe = true) (h_pke : P .pke = true) (h_ent : P .ent = true) (h_atu : P .atu = true) (h_boot : P .boot = true)
    (h_free : P .free = true) (h_out : P .out = true) {certs : List Bytes} {r : Option FwImage} {s : State} (Ks : Q s)
    : Q (findImage.fetch certs r s) := by
  unfold findImage.fetch
  split
  · exact Keeps.ite (bootImage_keeps K h_rcv h_icu h_obs h_ods h_kst h_kwe h_pke h_ent h_atu h_boot h_free h_out Ks) (K.boot h_boot Ks)
  · exact K.boot h_boot Ks

theorem findImage_keeps (K : Keeps P Q) (h_rcv : P .rcv = true) (h_icu : P .icu = true) (h_obs : P .obs = true) (h_ods : P .ods = true)
    (h_kst : P .kst = true) (h_kwe : P .kwe = true) (h_pke : P .pke = true) (h_ent : P .ent = true) (h_atu : P .atu = true) (h_boot : P .boot = true)
    (h_free : P .free = true) (h_out : P .out = true) {flash recovery : Option FwImage} {certs : List Bytes} {s : State} (Ks : Q s)
    : Q (findImage flash recovery certs s) := by
  unfold findImage
  split
  · exact Keeps.ite (bootImage_keeps K h_rcv h_icu h_obs h_ods h_kst h_kwe h_pke h_ent h_atu h_boot h_free h_out Ks) (findImage_fetch_keeps K h_rcv h_icu h_obs h_ods h_kst h_kwe h_pke h_ent h_atu h_boot h_free h_out Ks)
  · exact findImage_fetch_keeps K h_rcv h_icu h_obs h_ods h_kst h_kwe h_pke h_ent h_atu h_boot h_free h_out Ks

theorem execChipResetRelease_keeps (K : Keeps P Q) (h_clk : P .clk = true) (h_rcv : P .rcv = true) (h_icu : P .icu = true) (h_obs : P .obs = true)
    (h_cex : P .cex = true) (h_srg : P .srg = true) (h_ods : P .ods = true) (h_vault : P .vault = true) (h_kst : P .kst = true)
    (h_engKeys : P .engKeys = true) (h_kwe : P .kwe = true) (h_pke : P .pke = true) (h_ent : P .ent = true) (h_atu : P .atu = true)
    (h_lcc : P .lcc = true) (h_mem : P .mem = true) (h_link : P .link = true) (h_sheaf : P .sheaf = true) (h_dom : P .dom = true)
    (h_pins : P .pins = true) (h_boot : P .boot = true) (h_tdi : P .tdi = true) (h_ac : P .ac = true) (h_vt : P .vt = true) (h_free : P .free = true)
    (h_out : P .out = true) {rails : BitVec 7} {straps : List (BitVec 8)} {kat : Option (BitVec 8)} {flash recovery : Option FwImage}
    {certs : List Bytes} {s : State} (Ks : Q s) : KeepsBy Q (execChipResetRelease rails straps kat flash recovery certs s) := by
  unfold execChipResetRelease
  refine KeepsBy.of ?_
  extract_lets +onlyGivenNames x1
  have Kx1 : Q x1 := takeRails_keeps K h_pins Ks
  clear_value x1
  refine Keeps.ite Kx1 ?_
  extract_lets +onlyGivenNames x2
  have Kx2 : Q x2 := extendMr_keeps K h_atu (bootStep_keeps K h_boot (decodeLc_keeps K h_atu h_lcc (applyStraps_keeps K h_cex h_srg h_ods h_mem h_link h_pins h_boot (leaveReset_keeps K h_clk h_boot Kx1))))
  clear_value x2
  refine Keeps.ite (runWipe_keeps K h_rcv h_icu h_obs h_cex h_srg h_ods h_vault h_kst h_engKeys h_kwe h_pke h_ent h_lcc h_mem h_link h_sheaf h_dom h_pins h_tdi h_ac h_vt h_free h_out Kx2) ?_
  refine Keeps.ite (zeroizeErase_keeps K h_rcv h_icu h_obs h_cex h_srg h_ods h_vault h_kst h_engKeys h_kwe h_pke h_ent h_mem h_link h_sheaf h_dom h_pins h_tdi h_ac h_vt h_out Kx2) ?_
  refine Keeps.ite Kx2 ?_
  extract_lets +onlyGivenNames x3
  have Kx3 : Q x3 := by
    unfold x3
    split
    · exact diceLock_keeps K h_pke h_atu (identityFault_keeps K h_rcv h_icu h_obs h_atu h_out (katFailed_keeps K h_boot Kx2))
    · exact Kx2
  clear_value x3
  extract_lets +onlyGivenNames x4
  have Kx4 : Q x4 := deriveDevice_keeps K h_vault h_kst h_kwe h_ent h_pins Kx3
  clear_value x4
  extract_lets +onlyGivenNames x5
  have Kx5 : Q x5 := extendMr_keeps K h_atu Kx4
  clear_value x5
  extract_lets +onlyGivenNames x6
  have Kx6 : Q x6 := extendMr_keeps K h_atu (bootStep_keeps K h_boot Kx5)
  clear_value x6
  exact findImage_keeps K h_rcv h_icu h_obs h_ods h_kst h_kwe h_pke h_ent h_atu h_boot h_free h_out Kx6

theorem fwStarted_keeps (K : Keeps P Q) (h_rcv : P .rcv = true) (h_ods : P .ods = true) (h_boot : P .boot = true) {s : State} (Ks : Q s)
    : Q (fwStarted s) := by
  unfold fwStarted
  exact K.upd Ks (h_rcv := .inr ⟨h_rcv, fun h => h⟩) (h_ods := .inr ⟨h_ods, LotKept.of_eq rfl⟩) (h_boot := .inr h_boot)

theorem holdFailed_keeps (K : Keeps P Q) (h_link : P .link = true) (h_boot : P .boot = true) {failed : Nat} {s : State} (Ks : Q s)
    : Q (holdFailed failed s) := by
  unfold holdFailed
  exact K.upd Ks (h_link := .inr h_link) (h_boot := .inr h_boot)

theorem loadEct_keeps (K : Keeps P Q) (h_sen : P .sen = true) (h_ods : P .ods = true) (h_mem : P .mem = true) (h_link : P .link = true)
    {v : EctValues} {s : State} (Ks : Q s) : Q (loadEct v s) := by
  unfold loadEct
  extract_lets +onlyGivenNames x1 x2 x3 x4
  exact K.upd Ks (h_sen := .inr h_sen) (h_ods := .inr ⟨h_ods, LotKept.of_eq rfl⟩) (h_mem := .inr h_mem) (h_link := .inr h_link)

theorem execFirmwareStart_keeps (K : Keeps P Q) (h_rcv : P .rcv = true) (h_icu : P .icu = true) (h_obs : P .obs = true) (h_sen : P .sen = true)
    (h_ods : P .ods = true) (h_atu : P .atu = true) (h_mem : P .mem = true) (h_link : P .link = true) (h_boot : P .boot = true)
    (h_out : P .out = true) {ect : EctValues} {failed : BitVec 128} {s : State} (Ks : Q s) : KeepsBy Q (execFirmwareStart ect failed s) := by
  unfold execFirmwareStart
  refine KeepsBy.of ?_
  refine Keeps.ite Ks ?_
  extract_lets +onlyGivenNames x1
  have Kx1 : Q x1 := extendMr_keeps K h_atu (loadEct_keeps K h_sen h_ods h_mem h_link Ks)
  clear_value x1
  exact fwStarted_keeps K h_rcv h_ods h_boot (logError_keeps K h_rcv h_icu h_obs h_out (extendMr_keeps K h_atu (holdFailed_keeps K h_link h_boot Kx1)))

theorem execRecoveryFetchRetry_keeps (K : Keeps P Q) (h_rcv : P .rcv = true) (h_icu : P .icu = true) (h_obs : P .obs = true) (h_ods : P .ods = true)
    (h_kst : P .kst = true) (h_kwe : P .kwe = true) (h_pke : P .pke = true) (h_ent : P .ent = true) (h_atu : P .atu = true) (h_boot : P .boot = true)
    (h_free : P .free = true) (h_out : P .out = true) {recovery : Option FwImage} {certs : List Bytes} {s : State} (Ks : Q s)
    : KeepsBy Q (execRecoveryFetchRetry recovery certs s) := by
  unfold execRecoveryFetchRetry
  exact KeepsBy.of (Keeps.ite (findImage_keeps K h_rcv h_icu h_obs h_ods h_kst h_kwe h_pke h_ent h_atu h_boot h_free h_out Ks) Ks)

end Sys2Proof.Machine
end

