-- ==== Sys2Proof/Laws/KeepsCalib.lean ====
section
/-!
SUPPORT. What the operations of Machine/Calib.lean keep, and which parts they may change (Laws/Keeps.lean).
-/

set_option Elab.async false
namespace Sys2Proof.Machine

variable {P : Part → Bool} {Q : State → Prop}

theorem updCal_keeps (K : Keeps P Q) (h_mem : P .mem = true) {e : Nat} {f : Cal → Cal} {s : State} (Ks : Q s) : Q (updCal e f s) := by
  unfold updCal
  exact K.mem h_mem Ks

theorem execThrChange_keeps (K : Keeps P Q) (h_rcv : P .rcv = true) (h_icu : P .icu = true) (h_obs : P .obs = true) (h_mem : P .mem = true)
    (h_out : P .out = true) {stack : BitVec 4} {thr : BitVec 8} {s : State} (Ks : Q s) : KeepsBy Q (execThrChange stack thr s) := by
  unfold execThrChange
  exact KeepsBy.of (Keeps.ite Ks (pend_keeps K h_rcv h_icu h_obs h_out (updCal_keeps K h_mem Ks)))

theorem closeAnn_keeps (K : Keeps P Q) (h_rcv : P .rcv = true) (h_icu : P .icu = true) (h_obs : P .obs = true) (h_cex : P .cex = true)
    (h_srg : P .srg = true) (h_ods : P .ods = true) (h_kst : P .kst = true) (h_engKeys : P .engKeys = true) (h_kwe : P .kwe = true)
    (h_pke : P .pke = true) (h_ent : P .ent = true) (h_mem : P .mem = true) (h_link : P .link = true) (h_sheaf : P .sheaf = true)
    (h_dom : P .dom = true) (h_pins : P .pins = true) (h_ac : P .ac = true) (h_vt : P .vt = true) (h_out : P .out = true) {e seq : Nat} {s : State}
    (Ks : Q s) : Q (closeAnn e seq s) := by
  unfold closeAnn
  extract_lets +onlyGivenNames x1
  have Kx1 : Q x1 := updCal_keeps K h_mem Ks
  clear_value x1
  exact Keeps.foldl (fun b2 b3 h4 => settleReads_keeps K h_rcv h_icu h_obs h_cex h_srg h_ods h_kst h_engKeys h_kwe h_pke h_ent h_mem h_link h_sheaf h_dom h_pins h_ac h_vt h_out h4) Kx1

theorem execSweepReq_keeps (K : Keeps P Q) (h_rcv : P .rcv = true) (h_icu : P .icu = true) (h_obs : P .obs = true) (h_mem : P .mem = true)
    (h_out : P .out = true) {stack : BitVec 4} {duration : BitVec 16} {mask : BitVec 64} {s : State} (Ks : Q s)
    : KeepsBy Q (execSweepReq stack duration mask s) := by
  unfold execSweepReq
  refine KeepsBy.of ?_
  extract_lets +onlyGivenNames x1
  refine Keeps.ite Ks ?_
  extract_lets +onlyGivenNames x2
  have Kx2 : Q x2 := pend_keeps K h_rcv h_icu h_obs h_out Ks
  clear_value x2
  exact Keeps.ite (State.emit_keeps K h_out Kx2) (K.mem h_mem Kx2)

theorem endSweep_keeps (K : Keeps P Q) (h_mem : P .mem = true) {e : Nat} {s : State} (Ks : Q s) : Q (endSweep e s) := by
  unfold endSweep
  exact updCal_keeps K h_mem (K.mem h_mem Ks)

theorem execSweepEnd_keeps (K : Keeps P Q) (h_mem : P .mem = true) {stack : BitVec 4} {s : State} (Ks : Q s) : KeepsBy Q (execSweepEnd stack s) := by
  unfold execSweepEnd
  exact KeepsBy.of (Keeps.ite (endSweep_keeps K h_mem Ks) Ks)

theorem execCalDone_keeps (K : Keeps P Q) (h_rcv : P .rcv = true) (h_icu : P .icu = true) (h_obs : P .obs = true) (h_cex : P .cex = true)
    (h_srg : P .srg = true) (h_ods : P .ods = true) (h_kst : P .kst = true) (h_engKeys : P .engKeys = true) (h_kwe : P .kwe = true)
    (h_pke : P .pke = true) (h_ent : P .ent = true) (h_mem : P .mem = true) (h_link : P .link = true) (h_sheaf : P .sheaf = true)
    (h_dom : P .dom = true) (h_pins : P .pins = true) (h_ac : P .ac = true) (h_vt : P .vt = true) (h_out : P .out = true) {stack : BitVec 4}
    {seq : BitVec 8} {s : State} (Ks : Q s) : KeepsBy Q (execCalDone stack seq s) := by
  unfold execCalDone
  exact KeepsBy.of (closeAnn_keeps K h_rcv h_icu h_obs h_cex h_srg h_ods h_kst h_engKeys h_kwe h_pke h_ent h_mem h_link h_sheaf h_dom h_pins h_ac h_vt h_out Ks)

theorem calOverrun_keeps (K : Keeps P Q) (h_rcv : P .rcv = true) (h_icu : P .icu = true) (h_obs : P .obs = true) (h_out : P .out = true)
    {e detail : Nat} {s : State} (Ks : Q s) : Q (calOverrun e detail s) := by
  unfold calOverrun
  exact logError_keeps K h_rcv h_icu h_obs h_out Ks

theorem execSweepDurationExpiry_keeps (K : Keeps P Q) (h_rcv : P .rcv = true) (h_icu : P .icu = true) (h_obs : P .obs = true) (h_mem : P .mem = true)
    (h_out : P .out = true) {stack : BitVec 4} {s : State} (Ks : Q s) : KeepsBy Q (execSweepDurationExpiry stack s) := by
  unfold execSweepDurationExpiry
  refine KeepsBy.of ?_
  split
  · exact Ks
  · exact calOverrun_keeps K h_rcv h_icu h_obs h_out (endSweep_keeps K h_mem Ks)

theorem execCalAnnouncementTimeout_keeps (K : Keeps P Q) (h_rcv : P .rcv = true) (h_icu : P .icu = true) (h_obs : P .obs = true)
    (h_cex : P .cex = true) (h_srg : P .srg = true) (h_ods : P .ods = true) (h_kst : P .kst = true) (h_engKeys : P .engKeys = true)
    (h_kwe : P .kwe = true) (h_pke : P .pke = true) (h_ent : P .ent = true) (h_mem : P .mem = true) (h_link : P .link = true)
    (h_sheaf : P .sheaf = true) (h_dom : P .dom = true) (h_pins : P .pins = true) (h_ac : P .ac = true) (h_vt : P .vt = true) (h_out : P .out = true)
    {stack : BitVec 4} {seq : BitVec 8} {s : State} (Ks : Q s) : KeepsBy Q (execCalAnnouncementTimeout stack seq s) := by
  unfold execCalAnnouncementTimeout
  refine KeepsBy.of ?_
  extract_lets +onlyGivenNames x1
  exact Keeps.ite (closeAnn_keeps K h_rcv h_icu h_obs h_cex h_srg h_ods h_kst h_engKeys h_kwe h_pke h_ent h_mem h_link h_sheaf h_dom h_pins h_ac h_vt h_out (calOverrun_keeps K h_rcv h_icu h_obs h_out Ks)) Ks

theorem execSweepReqTimeout_keeps (K : Keeps P Q) (h_mem : P .mem = true) (h_out : P .out = true) {stack : BitVec 4} {s : State} (Ks : Q s)
    : KeepsBy Q (execSweepReqTimeout stack s) := by
  unfold execSweepReqTimeout
  refine KeepsBy.of ?_
  split
  · exact Ks
  · exact Keeps.ite Ks (State.emit_keeps K h_out (K.mem h_mem Ks))

theorem execCalAnn_keeps (K : Keeps P Q) (h_rcv : P .rcv = true) (h_icu : P .icu = true) (h_obs : P .obs = true) (h_mem : P .mem = true)
    (h_out : P .out = true) {stack : BitVec 4} {seq kind : BitVec 8} {mask : BitVec 64} {s : State} (Ks : Q s)
    : KeepsBy Q (execCalAnn stack seq kind mask s) := by
  unfold execCalAnn
  refine KeepsBy.of ?_
  extract_lets +onlyGivenNames x1
  refine Keeps.ite Ks ?_
  extract_lets +onlyGivenNames x2
  have Kx2 : Q x2 := Keeps.ite (logError_keeps K h_rcv h_icu h_obs h_out Ks) Ks
  clear_value x2
  exact Keeps.ite Kx2 (Keeps.ite (calOverrun_keeps K h_rcv h_icu h_obs h_out Kx2) (updCal_keeps K h_mem (pend_keeps K h_rcv h_icu h_obs h_out Kx2)))

theorem execSweepGnt_keeps (K : Keeps P Q) (h_mem : P .mem = true) (h_out : P .out = true) {stack : BitVec 4} {s : State} (Ks : Q s)
    : KeepsBy Q (execSweepGnt stack s) := by
  unfold execSweepGnt
  refine KeepsBy.of ?_
  split
  · exact Ks
  · refine Keeps.ite Ks ?_
    extract_lets +onlyGivenNames x1
    have Kx1 : Q x1 := updCal_keeps K h_mem Ks
    clear_value x1
    exact State.emit_keeps K h_out (K.mem h_mem Kx1)

end Sys2Proof.Machine
end

