-- ==== Sys2Proof/Laws/KeepsBlob.lean ====
section
/-!
SUPPORT. What the operations of Machine/Blob.lean keep, and which parts they may change (Laws/Keeps.lean).
-/

set_option Elab.async false
namespace Sys2Proof.Machine

variable {P : Part → Bool} {Q : State → Prop}

theorem withTransient_keeps (K : Keeps P Q) (h_pke : P .pke = true) {a0 : Type} {seed pub : Bytes} {s : State} {f : State → a0 × State} (Ks : Q s)
    (Kf : ∀ b0, Q b0 → Q (f b0).2) : Q (withTransient seed pub s f).2 := by
  unfold withTransient
  split
  · exact Kf _ Ks
  · extract_lets +onlyGivenNames x1
    have Kx1 : Q x1.2 := Kf _ (K.pke h_pke Ks)
    clear_value x1
    refine Keeps.p2 ?_
    extract_lets +onlyGivenNames x2
    have Kx2 : Q x2 := Kx1
    exact K.pke h_pke Kx2

theorem withBlobSlot_keeps (K : Keeps P Q) (h_kst : P .kst = true) (h_engKeys : P .engKeys = true) (h_kwe : P .kwe = true) (h_ent : P .ent = true)
    {sl ctx : Nat} {key : BitVec 256} {s : State} {f : State → State × Nat × Nat} (Ks : Q s) (Kf : ∀ b0, Q b0 → Q (f b0).1)
    : Q (withBlobSlot sl ctx key s f).1 := by
  unfold withBlobSlot
  split
  · exact Ks
  · extract_lets +onlyGivenNames x1
    have Kx1 : Q x1.1 := Kf _ (kweDone_keeps K h_kwe h_ent (writeSlot_keeps K h_kst Ks))
    clear_value x1
    exact Keeps.p1 (zeroizeSlots_keeps K h_kst h_engKeys h_kwe Kx1)

theorem hybridHead_keeps (K : Keeps P Q) (h_pke : P .pke = true) (h_ent : P .ent = true) (h_free : P .free = true) {rcpt : Bytes} {h : BlobHdr}
    {s : State} (Ks : Q s) : Q (hybridHead rcpt h s).2 := by
  unfold hybridHead
  split
  rename_i y1 y2 y3 y4
  have Ky3 : Q y3 := Keeps.snd y4 (drbgBits_keeps K h_ent h_free Ks)
  split
  rename_i y5 y6 y7 y8
  have Ky7 : Q y7 := Keeps.snd y8 (keyBits_keeps K h_ent h_free Ky3)
  split
  extract_lets +onlyGivenNames x9
  refine withTransient_keeps K h_pke Ky7 ?_
  intro b10 h11
  extract_lets +onlyGivenNames x12
  have Kx12 : Q x12 := pkeDone_keeps K h_ent (pkeDone_keeps K h_ent (pkeDone_keeps K h_ent h11))
  clear_value x12
  split
  · exact Kx12
  · exact Kx12

theorem sealHybrid_keeps (K : Keeps P Q) (h_pke : P .pke = true) (h_ent : P .ent = true) (h_free : P .free = true) {rcpt : Bytes} {h : BlobHdr}
    {payload : Bytes} {s : State} (Ks : Q s) : Q (sealHybrid rcpt h payload s).2 := by
  unfold sealHybrid
  extract_lets +onlyGivenNames x1
  have Kx1 : Q x1.2 := hybridHead_keeps K h_pke h_ent h_free Ks
  clear_value x1
  exact Kx1

end Sys2Proof.Machine
end

