-- ==== Sys2Proof/Laws/KeepsCopy.lean ====
section
/-!
SUPPORT. What the operations of Machine/Copy.lean keep, and which parts they may change (Laws/Keeps.lean).
-/

set_option Elab.async false
namespace Sys2Proof.Machine

variable {P : Part → Bool} {Q : State → Prop}

theorem exportBlob_keeps (K : Keeps P Q) (h_pke : P .pke = true) (h_ent : P .ent = true) (h_free : P .free = true) {sl m slot kind log2 : Nat}
    {list rcpt payload : Bytes} {s : State} (Ks : Q s) : Q (exportBlob sl m slot kind log2 list rcpt payload s).2 := by
  unfold exportBlob
  split
  rename_i y1 y2 y3 y4
  have Ky3 : Q y3 := Keeps.snd y4 (drbgBits_keeps K h_ent h_free Ks)
  extract_lets +onlyGivenNames x5
  refine Keeps.ite2 Ky3 ?_
  extract_lets +onlyGivenNames x6
  have Kx6 : Q x6.2 := hybridHead_keeps K h_pke h_ent h_free Ky3
  clear_value x6
  exact Kx6

theorem exportBody_keeps (K : Keeps P Q) (h_cex : P .cex = true) (h_kst : P .kst = true) (h_engKeys : P .engKeys = true) (h_kwe : P .kwe = true)
    (h_pke : P .pke = true) (h_ent : P .ent = true) (h_free : P .free = true) (h_out : P .out = true) {h : CmdHdr} {out m slot kind log2 : Nat}
    {g : Gather} {got : Nat → Option Line} {s : State} (Ks : Q s) : Q (exportBody h out m slot kind log2 g got s) := by
  unfold exportBody
  extract_lets +onlyGivenNames x1 x2
  refine checked_keeps K h_cex Ks ?_
  intro b3 h4
  split
  · exact finish_keeps K h_cex h4
  · split
    · rename_i y5 y6 y7
      have Ky6 : Q y6 := Keeps.snd y7 (exportBlob_keeps K h_pke h_ent h_free h4)
      exact finish_keeps K h_cex Ky6
    · rename_i y8 y9 y10 y11 y12
      have Ky11 : Q y11 := Keeps.snd y12 (exportBlob_keeps K h_pke h_ent h_free h4)
      extract_lets +onlyGivenNames x13
      have Kx13 : Q x13.1 := withBlobSlot_keeps K h_kst h_engKeys h_kwe h_ent Ky11 (fun b14 h15 => Keeps.p1 (State.emit_keeps K h_out h15))
      clear_value x13
      exact finish_keeps K h_cex Kx13

theorem dropBlocks_keeps (K : Keeps P Q) (h_mem : P .mem = true) {k : CmdKey} {s : State} (Ks : Q s) : Q (dropBlocks k s) := by
  unfold dropBlocks
  exact K.mem h_mem Ks

theorem tryGather_keeps (K : Keeps P Q) (h_mem : P .mem = true) {k : CmdKey} {f : Gather → (Nat → Option Line) → State → State} {s : State}
    (Kf : ∀ b0 b1 b2, Q b2 → Q (f b0 b1 b2)) (Ks : Q s) : Q (tryGather k f s) := by
  unfold tryGather
  split
  · exact Ks
  · exact Keeps.ite (Kf _ _ _ (dropBlocks_keeps K h_mem Ks)) Ks

theorem gatherRun_keeps (K : Keeps P Q) (h_cex : P .cex = true) (h_srg : P .srg = true) (h_mem : P .mem = true) {h : CmdHdr} {op : Nat}
    {ops : List (Nat × Nat × Nat)} {s : State} {f : Gather → (Nat → Option Line) → State → State} {start : State → State} (Ks : Q s)
    (Kf : ∀ b0 b1 b2, Q b2 → Q (f b0 b1 b2)) (Kstart : ∀ b0, Q b0 → Q (start b0)) : Q (gatherRun h op ops s f start) := by
  unfold gatherRun
  exact Keeps.ite (tryGather_keeps K h_mem (fun b1 b2 b3 h4 => Kf _ _ _ h4) Ks) (cexRun_keeps K h_cex h_srg Ks (fun b5 h6 => Kstart _ h6))

theorem blockRead_keeps (K : Keeps P Q) (h_rcv : P .rcv = true) (h_icu : P .icu = true) (h_obs : P .obs = true) (h_cex : P .cex = true)
    (h_srg : P .srg = true) (h_ods : P .ods = true) (h_kst : P .kst = true) (h_engKeys : P .engKeys = true) (h_kwe : P .kwe = true)
    (h_pke : P .pke = true) (h_ent : P .ent = true) (h_mem : P .mem = true) (h_link : P .link = true) (h_sheaf : P .sheaf = true)
    (h_dom : P .dom = true) (h_pins : P .pins = true) (h_ac : P .ac = true) (h_vt : P .vt = true) (h_out : P .out = true) {k : CmdKey} {who : Nat}
    {s : State} {l : Nat × Nat} (Ks : Q s) : Q (blockRead k who s l) := by
  unfold blockRead
  exact missionRead_keeps K h_rcv h_icu h_obs h_cex h_srg h_ods h_kst h_engKeys h_kwe h_pke h_ent h_mem h_link h_sheaf h_dom h_pins h_ac h_vt h_out Ks

theorem startGather_keeps (K : Keeps P Q) (h_rcv : P .rcv = true) (h_icu : P .icu = true) (h_obs : P .obs = true) (h_cex : P .cex = true)
    (h_srg : P .srg = true) (h_ods : P .ods = true) (h_kst : P .kst = true) (h_engKeys : P .engKeys = true) (h_kwe : P .kwe = true)
    (h_pke : P .pke = true) (h_ent : P .ent = true) (h_mem : P .mem = true) (h_link : P .link = true) (h_sheaf : P .sheaf = true)
    (h_dom : P .dom = true) (h_pins : P .pins = true) (h_ac : P .ac = true) (h_vt : P .vt = true) (h_out : P .out = true) {g : Gather} {who : Nat}
    {lines : List (Nat × Nat)} {f : Gather → (Nat → Option Line) → State → State} {s : State} (Kf : ∀ b0 b1 b2, Q b2 → Q (f b0 b1 b2)) (Ks : Q s)
    : Q (startGather g who lines f s) := by
  unfold startGather
  extract_lets +onlyGivenNames x1
  have Kx1 : Q x1 := dropBlocks_keeps K h_mem Ks
  clear_value x1
  extract_lets +onlyGivenNames x2 x3
  have Kx3 : Q x3 := K.mem h_mem Kx1
  clear_value x3
  exact tryGather_keeps K h_mem (fun b4 b5 b6 h7 => Kf _ _ _ h7) (Keeps.foldl (fun b8 b9 h10 => blockRead_keeps K h_rcv h_icu h_obs h_cex h_srg h_ods h_kst h_engKeys h_kwe h_pke h_ent h_mem h_link h_sheaf h_dom h_pins h_ac h_vt h_out h10) Kx3)

theorem execExportBlob_keeps (K : Keeps P Q) (h_rcv : P .rcv = true) (h_icu : P .icu = true) (h_obs : P .obs = true) (h_cex : P .cex = true)
    (h_xlt : P .xlt = true) (h_srg : P .srg = true) (h_ods : P .ods = true) (h_kst : P .kst = true) (h_engKeys : P .engKeys = true)
    (h_kwe : P .kwe = true) (h_pke : P .pke = true) (h_ent : P .ent = true) (h_mem : P .mem = true) (h_link : P .link = true)
    (h_sheaf : P .sheaf = true) (h_dom : P .dom = true) (h_pins : P .pins = true) (h_ac : P .ac = true) (h_vt : P .vt = true)
    (h_free : P .free = true) (h_out : P .out = true) {h : CmdHdr} {out outLen listBva : BitVec 64} {wrapSlot : BitVec 16}
    {kind log2 method : BitVec 8} {x : Option XFault} {list rcpt : Bytes} {s : State} (Ks : Q s)
    : KeepsBy Q (execExportBlob h out outLen listBva wrapSlot kind log2 method x list rcpt s) := by
  unfold execExportBlob
  split
  extract_lets +onlyGivenNames x1 x2
  have Kx2 : ∀ b0 b1 b2, Q b2 → Q (x2 b0 b1 b2) := by
    intro b3 b4 b5 b6
    unfold x2
    exact exportBody_keeps K h_cex h_kst h_engKeys h_kwe h_pke h_ent h_free h_out b6
  clear_value x2
  refine KeepsBy.of ?_
  refine gatherRun_keeps K h_cex h_srg h_mem Ks (fun b7 b8 b9 h10 => Kx2 _ _ _ h10) ?_
  intro b11 h12
  refine checked_keeps K h_cex h12 ?_
  intro b13 h14
  split
  · exact xltFault_keeps K h_rcv h_obs h_cex h_xlt h14
  · extract_lets +onlyGivenNames x15 x16 x17
    exact checked_keeps K h_cex h14 (fun b18 h19 => startGather_keeps K h_rcv h_icu h_obs h_cex h_srg h_ods h_kst h_engKeys h_kwe h_pke h_ent h_mem h_link h_sheaf h_dom h_pins h_ac h_vt h_out (fun b20 b21 b22 h23 => Kx2 _ _ _ h23) h19)

theorem copyLine_keeps (K : Keeps P Q) (h_rcv : P .rcv = true) (h_icu : P .icu = true) (h_obs : P .obs = true) (h_cex : P .cex = true)
    (h_engKeys : P .engKeys = true) (h_ent : P .ent = true) (h_mem : P .mem = true) (h_sheaf : P .sheaf = true) (h_free : P .free = true)
    (h_out : P .out = true) {sl : Nat} {acc : State × Bool} {l : BitVec 52 × Option Line} (Kacc : Q acc.1) : Q (copyLine sl acc l).1 := by
  unfold copyLine
  split
  · exact Kacc
  · split
    · exact Kacc
    · refine Keeps.ite1 (Keeps.p1 (State.emit_keeps K h_out Kacc)) ?_
      extract_lets +onlyGivenNames x1
      exact missionWrite_keeps K h_rcv h_icu h_obs h_cex h_engKeys h_ent h_mem h_sheaf h_free h_out Kacc

theorem copyBody_keeps (K : Keeps P Q) (h_rcv : P .rcv = true) (h_icu : P .icu = true) (h_obs : P .obs = true) (h_cex : P .cex = true)
    (h_engKeys : P .engKeys = true) (h_ent : P .ent = true) (h_mem : P .mem = true) (h_sheaf : P .sheaf = true) (h_free : P .free = true)
    (h_out : P .out = true) {h : CmdHdr} {n : Nat} {g : Gather} {got : Nat → Option Line} {s : State} (Ks : Q s) : Q (copyBody h n g got s) := by
  unfold copyBody
  extract_lets +onlyGivenNames x1 x2
  have Kx2 : Q x2.1 := Keeps.foldl1 (fun b3 b4 h5 => copyLine_keeps K h_rcv h_icu h_obs h_cex h_engKeys h_ent h_mem h_sheaf h_free h_out h5) Ks
  clear_value x2
  exact finish_keeps K h_cex Kx2

theorem importLine_keeps (K : Keeps P Q) (h_rcv : P .rcv = true) (h_icu : P .icu = true) (h_obs : P .obs = true) (h_cex : P .cex = true)
    (h_engKeys : P .engKeys = true) (h_ent : P .ent = true) (h_mem : P .mem = true) (h_sheaf : P .sheaf = true) (h_free : P .free = true)
    (h_out : P .out = true) {sl : Nat} {acc : State × Bool × List Nat} {r off : Nat} {data : Line} (Kacc : Q acc.1)
    : Q (importLine sl acc r off data).1 := by
  unfold importLine
  split
  refine Keeps.ite1 Kacc ?_
  extract_lets +onlyGivenNames x1 x2
  refine Keeps.ite1 (Keeps.p1 (dropWrite_keeps K h_rcv h_icu h_obs h_cex h_mem h_out Kacc)) ?_
  extract_lets +onlyGivenNames x3
  have Kx3 : Q x3.1 := acceptWrite_keeps K h_rcv h_icu h_obs h_cex h_engKeys h_ent h_mem h_sheaf h_free h_out Kacc
  clear_value x3
  exact Kx3

theorem bindSheaves_keeps (K : Keeps P Q) (h_sheaf : P .sheaf = true) {rs : List Nat} {bound : Nat} {s : State} (Ks : Q s)
    : Q (bindSheaves rs bound s) := by
  unfold bindSheaves
  refine Keeps.ite Ks ?_
  refine Keeps.foldl ?_ Ks
  intro b1 b2 h3
  split
  · exact K.sheaf h_sheaf h3
  · exact h3

theorem importFailed_keeps (K : Keeps P Q) (h_mem : P .mem = true) {rs : List Nat} {s : State} (Ks : Q s) : Q (importFailed rs s) := by
  unfold importFailed
  exact Keeps.foldl (fun b1 b2 h3 => updRegion_keeps K h_mem h3) Ks

theorem importBody_keeps (K : Keeps P Q) (h_rcv : P .rcv = true) (h_icu : P .icu = true) (h_obs : P .obs = true) (h_cex : P .cex = true)
    (h_engKeys : P .engKeys = true) (h_ent : P .ent = true) (h_mem : P .mem = true) (h_sheaf : P .sheaf = true) (h_free : P .free = true)
    (h_out : P .out = true) {sl : Nat} {es : List Extent} {key : BitVec 256} {blob : Bytes} {s : State} (Ks : Q s)
    : Q (importBody sl es key blob s).1 := by
  unfold importBody
  extract_lets +onlyGivenNames x1 x2 x3
  have Kx3 : Q x3 := bindSheaves_keeps K h_sheaf Ks
  clear_value x3
  extract_lets +onlyGivenNames x4
  have Kx4 : Q x4 := Keeps.foldl (fun b5 b6 h7 => updRegion_keeps K h_mem h7) Kx3
  clear_value x4
  split
  extract_lets +onlyGivenNames x8
  have Kx8 : ∀ b0 b1, Q b0.1 → Q (x8 b0 b1).1 := by
    intro b9 b10 b11
    unfold x8
    exact Keeps.ite1 b11 (importLine_keeps K h_rcv h_icu h_obs h_cex h_engKeys h_ent h_mem h_sheaf h_free h_out b11)
  clear_value x8
  split
  rename_i y12 y13 y14 y15 y16
  have Ky13 : Q y13 := Keeps.fst y16 (Keeps.foldl1 (fun b17 b18 h19 => Kx8 _ _ h19) Kx4)
  refine Keeps.ite1 (Keeps.p1 (importFailed_keeps K h_mem Ky13)) ?_
  refine Keeps.ite1 (Keeps.p1 (importFailed_keeps K h_mem Ky13)) ?_
  extract_lets +onlyGivenNames x20
  have Kx20 : ∀ b0 b1, Q b0.1 → Q (x20 b0 b1).1 := by
    intro b21 b22 b23
    unfold x20
    exact Keeps.ite1 b23 (Keeps.foldl1 (fun b24 b25 h26 => importLine_keeps K h_rcv h_icu h_obs h_cex h_engKeys h_ent h_mem h_sheaf h_free h_out h26) b23)
  clear_value x20
  split
  rename_i y27 y28 y29 y30 y31
  have Ky28 : Q y28 := Keeps.fst y31 (Keeps.foldl1 (fun b32 b33 h34 => Kx20 _ _ h34) Ky13)
  exact Keeps.ite1 (Keeps.p1 (importFailed_keeps K h_mem Ky28)) (Keeps.p1 (Keeps.foldl (fun b35 b36 h37 => updRegion_keeps K h_mem h37) Ky28))

theorem execImportBlob_keeps (K : Keeps P Q) (h_rcv : P .rcv = true) (h_icu : P .icu = true) (h_obs : P .obs = true) (h_cex : P .cex = true)
    (h_xlt : P .xlt = true) (h_srg : P .srg = true) (h_kst : P .kst = true) (h_engKeys : P .engKeys = true) (h_kwe : P .kwe = true)
    (h_ent : P .ent = true) (h_mem : P .mem = true) (h_sheaf : P .sheaf = true) (h_free : P .free = true) (h_out : P .out = true) {h : CmdHdr}
    {blobBva blobLen listBva : BitVec 64} {wrapSlot : BitVec 16} {x : Option XFault} {list blob : Bytes} {s : State} (Ks : Q s)
    : KeepsBy Q (execImportBlob h blobBva blobLen listBva wrapSlot x list blob s) := by
  unfold execImportBlob
  refine KeepsBy.of ?_
  refine cexRun_keeps K h_cex h_srg Ks ?_
  intro b1 h2
  extract_lets +onlyGivenNames x3 x4
  refine checked_keeps K h_cex h2 ?_
  intro b5 h6
  split
  · exact xltFault_keeps K h_rcv h_obs h_cex h_xlt h6
  · extract_lets +onlyGivenNames x7 x8
    refine checked_keeps K h_cex h6 ?_
    intro b9 h10
    split
    · exact finish_keeps K h_cex h10
    · refine checked_keeps K h_cex h10 ?_
      intro b11 h12
      extract_lets +onlyGivenNames x13
      have Kx13 : Q x13.1 := by
        unfold x13
        refine withBlobSlot_keeps K h_kst h_engKeys h_kwe h_ent h12 ?_
        intro b14 h15
        extract_lets +onlyGivenNames x16
        have Kx16 : Q x16.1 := importBody_keeps K h_rcv h_icu h_obs h_cex h_engKeys h_ent h_mem h_sheaf h_free h_out h15
        clear_value x16
        exact Kx16
      clear_value x13
      exact finish_keeps K h_cex Kx13

theorem execCopy_keeps (K : Keeps P Q) (h_rcv : P .rcv = true) (h_icu : P .icu = true) (h_obs : P .obs = true) (h_cex : P .cex = true)
    (h_xlt : P .xlt = true) (h_srg : P .srg = true) (h_ods : P .ods = true) (h_kst : P .kst = true) (h_engKeys : P .engKeys = true)
    (h_kwe : P .kwe = true) (h_pke : P .pke = true) (h_ent : P .ent = true) (h_mem : P .mem = true) (h_link : P .link = true)
    (h_sheaf : P .sheaf = true) (h_dom : P .dom = true) (h_pins : P .pins = true) (h_ac : P .ac = true) (h_vt : P .vt = true)
    (h_free : P .free = true) (h_out : P .out = true) {h : CmdHdr} {src dst len : BitVec 64} {x : Option XFault} {lines : List CopyLine} {s : State}
    (Ks : Q s) : KeepsBy Q (execCopy h src dst len x lines s) := by
  unfold execCopy
  extract_lets +onlyGivenNames x1
  refine KeepsBy.of ?_
  refine gatherRun_keeps K h_cex h_srg h_mem Ks (fun b2 b3 b4 h5 => copyBody_keeps K h_rcv h_icu h_obs h_cex h_engKeys h_ent h_mem h_sheaf h_free h_out h5) ?_
  intro b6 h7
  refine checked_keeps K h_cex h7 ?_
  intro b8 h9
  split
  · exact xltFault_keeps K h_rcv h_obs h_cex h_xlt h9
  · extract_lets +onlyGivenNames x10
    exact startGather_keeps K h_rcv h_icu h_obs h_cex h_srg h_ods h_kst h_engKeys h_kwe h_pke h_ent h_mem h_link h_sheaf h_dom h_pins h_ac h_vt h_out (fun b11 b12 b13 h14 => copyBody_keeps K h_rcv h_icu h_obs h_cex h_engKeys h_ent h_mem h_sheaf h_free h_out h14) h9

end Sys2Proof.Machine
end

