-- ==== Sys2Proof/Laws/KeepsIcu.lean ====
section
/-!
SUPPORT. What the operations of Machine/Icu.lean keep, and which parts they may change (Laws/Keeps.lean).
-/

set_option Elab.async false
namespace Sys2Proof.Machine

variable {P : Part → Bool} {Q : State → Prop}

theorem updIcuPair_keeps (K : Keeps P Q) (h_icu : P .icu = true) {pair : Bool} {f : IcuPair → IcuPair} {s : State}
    (hf : (f (s.icu.pairs.get (b2n pair))).stack = (s.icu.pairs.get (b2n pair)).stack) (Ks : Q s) : Q (updIcuPair pair f s) := by
  refine K.icu h_icu (fun n => NestOk.of_set rfl ?_ n) Ks
  rw [hf]; exact n _

theorem updSrc_keeps (K : Keeps P Q) (h_icu : P .icu = true) {pair : Bool} {n : Nat} {f : IcuSrc → IcuSrc} {s : State} (Ks : Q s)
    : Q (updSrc pair n f s) := by
  unfold updSrc
  exact K.icu h_icu (fun h => h) Ks

theorem stormCheck_keeps (K : Keeps P Q) (h_rcv : P .rcv = true) (h_icu : P .icu = true) (h_obs : P .obs = true) (h_out : P .out = true) {pair : Bool}
    {n : Nat} {s : State} (Ks : Q s) : Q (stormCheck pair n s) := by
  unfold stormCheck
  extract_lets +onlyGivenNames x1
  refine Keeps.ite ?_ Ks
  extract_lets +onlyGivenNames x2
  have Kx2 : Q x2 := updSrc_keeps K h_icu Ks
  clear_value x2
  extract_lets +onlyGivenNames x3 x4
  have Kx4 : Q x4 := K.icu h_icu (fun h => h) Kx2
  clear_value x4
  exact logError_keeps K h_rcv h_icu h_obs h_out (icuAssert_keeps K h_rcv h_icu h_obs h_out Kx4)

theorem eoiAccept_keeps (K : Keeps P Q) (h_rcv : P .rcv = true) (h_icu : P .icu = true) (h_obs : P .obs = true) (h_out : P .out = true) {pair : Bool}
    {n : Nat} {s : State} (Ks : Q s) : Q (eoiAccept pair n s) := by
  unfold eoiAccept
  extract_lets t u
  have ht : Q t := K.icu h_icu (fun k => NestOk.of_set rfl ((k _).sublist (List.tail_sublist _)) k) Ks
  exact Keeps.ite (stormCheck_keeps K h_rcv h_icu h_obs h_out (updSrc_keeps K h_icu ht)) (updSrc_keeps K h_icu ht)

theorem awake_keeps (K : Keeps P Q) (h_icu : P .icu = true) {pair : Bool} {s : State} (Ks : Q s) : Q (awake pair s) := by
  unfold awake
  exact updIcuPair_keeps K h_icu rfl Ks

theorem execPmrWrite_keeps (K : Keeps P Q) (h_icu : P .icu = true) {pair : Bool} {width : BitVec 8} {value : BitVec 32} {s : State} (Ks : Q s)
    : KeepsBy Q (execPmrWrite pair width value s) := by
  unfold execPmrWrite
  refine KeepsBy.of ?_
  extract_lets +onlyGivenNames x1
  exact Keeps.ite Ks (icuUpdateBoth_keeps K h_icu (updIcuPair_keeps K h_icu rfl (awake_keeps K h_icu Ks)))

theorem execEoi_keeps (K : Keeps P Q) (h_rcv : P .rcv = true) (h_icu : P .icu = true) (h_obs : P .obs = true) (h_out : P .out = true) {pair : Bool}
    {width : BitVec 8} {value : BitVec 32} {s : State} (Ks : Q s) : KeepsBy Q (execEoi pair width value s) := by
  unfold execEoi
  refine KeepsBy.of ?_
  refine Keeps.ite Ks ?_
  extract_lets +onlyGivenNames x1 x2
  have Kx2 : Q x2 := awake_keeps K h_icu Ks
  clear_value x2
  split
  · exact Keeps.ite (icuUpdateBoth_keeps K h_icu (eoiAccept_keeps K h_rcv h_icu h_obs h_out Kx2)) (updIcuPair_keeps K h_icu rfl Kx2)
  · exact updIcuPair_keeps K h_icu rfl Kx2

theorem execHostEvent_keeps (K : Keeps P Q) (h_rcv : P .rcv = true) (h_icu : P .icu = true) (h_obs : P .obs = true) (h_out : P .out = true)
    {who : Principal} {value : BitVec 32} {s : State} (Ks : Q s) : KeepsBy Q (execHostEvent who value s) := by
  unfold execHostEvent
  refine KeepsBy.of ?_
  refine Keeps.ite Ks ?_
  refine Keeps.foldl ?_ Ks
  intro b1 b2 h3
  extract_lets +onlyGivenNames x4 x5
  have Kx5 : Q x5 := K.icu h_icu (fun h => h) h3
  clear_value x5
  exact icuAssert_keeps K h_rcv h_icu h_obs h_out Kx5

theorem pendSet1_keeps (K : Keeps P Q) (h_icu : P .icu = true) (h_obs : P .obs = true) (h_out : P .out = true) {pair : Bool} {n : Nat} {s : State} (Ks
    : Q s) : Q (pendSet1 pair n s) := by
  unfold pendSet1
  extract_lets +onlyGivenNames x1
  have Kx1 : Q x1 := traceWatch_keeps K h_icu h_obs h_out Ks
  clear_value x1
  exact updSrc_keeps K h_icu Kx1

theorem execPendSet_keeps (K : Keeps P Q) (h_icu : P .icu = true) (h_obs : P .obs = true) (h_out : P .out = true) {pair : Bool} {bitmap : BitVec 512}
    {s : State} (Ks : Q s) : KeepsBy Q (execPendSet pair bitmap s) := by
  unfold execPendSet
  exact KeepsBy.of (icuUpdateBoth_keeps K h_icu (Keeps.foldl (fun b1 b2 h3 => pendSet1_keeps K h_icu h_obs h_out h3) (awake_keeps K h_icu Ks)))

theorem execSgi_keeps (K : Keeps P Q) (h_rcv : P .rcv = true) (h_icu : P .icu = true) (h_obs : P .obs = true) (h_out : P .out = true) {pair : Bool}
    {width : BitVec 8} {value : BitVec 32} {s : State} (Ks : Q s) : KeepsBy Q (execSgi pair width value s) := by
  unfold execSgi
  exact KeepsBy.of (Keeps.ite Ks (icuAssert_keeps K h_rcv h_icu h_obs h_out (awake_keeps K h_icu Ks)))

theorem execSrcCfgWrite_keeps (K : Keeps P Q) (h_icu : P .icu = true) {pair : Bool} {source : BitVec 10} {width : BitVec 8} {value : BitVec 32}
    {s : State} (Ks : Q s) : KeepsBy Q (execSrcCfgWrite pair source width value s) := by
  unfold execSrcCfgWrite
  refine KeepsBy.of ?_
  extract_lets +onlyGivenNames x1
  exact Keeps.ite Ks (icuUpdateBoth_keeps K h_icu (updSrc_keeps K h_icu (awake_keeps K h_icu Ks)))

theorem claimTake_keeps (K : Keeps P Q) (h_icu : P .icu = true) {pair : Bool} {prio n : Nat} {s : State}
    (hp : prio < rpr (s.icu.pairs.get (b2n pair)))
    (Ks : Q s) : Q (claimTake pair prio n s) := by
  unfold claimTake
  extract_lets w t
  have ht : Q t := updSrc_keeps K h_icu Ks
  have hq : t.icu.pairs = s.icu.pairs := rfl
  clear_value t
  refine K.icu h_icu (fun k => NestOk.of_set rfl ?_ k) ht
  have hs := k (b2n pair)
  rw [hq] at hs
  show ((prio, n) :: (t.icu.pairs.get (b2n pair)).stack).Pairwise (fun (a b : Nat × Nat) => a.1 < b.1)
  rw [hq]
  refine List.pairwise_cons.2 ⟨?_, hs⟩
  unfold rpr at hp
  cases hst : (s.icu.pairs.get (b2n pair)).stack with
  | nil => intro a ha; cases ha
  | cons x l =>
    rw [hst] at hp hs
    intro a ha
    rcases List.mem_cons.1 ha with rfl | ha
    · exact hp
    · exact Nat.lt_trans hp ((List.pairwise_cons.1 hs).1 a ha)

theorem better_cases (a b : Nat × Nat) : better a b = a ∨ better a b = b := by
  unfold better
  split
  · exact Or.inr rfl
  · exact Or.inl rfl

theorem foldl_better_mem (l : List (Nat × Nat)) (x : Nat × Nat) : l.foldl better x = x ∨ l.foldl better x ∈ l := by
  induction l generalizing x with
  | nil => exact Or.inl rfl
  | cons y l ih =>
    rcases ih (better x y) with h | h
    · rcases better_cases x y with k | k
      · left; rw [List.foldl_cons, h, k]
      · right; rw [List.foldl_cons, h, k]; exact List.mem_cons.2 (Or.inl rfl)
    · right; exact List.mem_cons_of_mem _ h

/-- The source that a claim selects has a priority below the running priority (R468, R469). -/
theorem bestSource_lt {pair : Bool} {s : State} {p n : Nat} (h : bestSource pair s = some (p, n)) : p < rpr (s.icu.pairs.get (b2n pair)) := by
  have key : ∀ e ∈ (s.icu.src.ents.filter (fun e => eligible pair (s.icu.pairs.get (b2n pair)) e.1 e.2)).map (fun e => (e.2.priority.toNat, keySrc e.1)),
      e.1 < rpr (s.icu.pairs.get (b2n pair)) := by
    intro e he
    obtain ⟨x, hx, rfl⟩ := List.mem_map.1 he
    have hx := (List.mem_filter.1 hx).2
    simp only [eligible, Bool.and_eq_true, decide_eq_true_eq] at hx
    exact hx.1.2
  unfold bestSource at h
  extract_lets q c at h
  have hc0 : c = (s.icu.src.ents.filter (fun e => eligible pair (s.icu.pairs.get (b2n pair)) e.1 e.2)).map (fun e => (e.2.priority.toNat, keySrc e.1)) := rfl
  clear_value c
  split at h
  · cases h
  · rename_i x xs
    have hm : xs.foldl better x ∈ x :: xs := by
      rcases foldl_better_mem xs x with k | k
      · rw [k]; exact List.mem_cons.2 (Or.inl rfl)
      · exact List.mem_cons_of_mem _ k
    rw [Option.some.inj h, hc0] at hm
    exact key _ hm

theorem execClaim_keeps (K : Keeps P Q) (h_icu : P .icu = true) (h_obs : P .obs = true) (h_out : P .out = true) {pair : Bool} {width : BitVec 8}
    {s : State} (Ks : Q s) :
    KeepsBy Q (execClaim pair width s) := by
  unfold execClaim
  refine KeepsBy.of (Keeps.ite (State.emit_keeps K h_out Ks) ?_)
  extract_lets b line t u v
  have ht : Q t := awake_keeps K h_icu Ks
  have hr : rpr (t.icu.pairs.get (b2n pair)) = rpr (s.icu.pairs.get (b2n pair)) := by
    show rpr ((s.icu.pairs.upd (b2n pair) _).get (b2n pair)) = _
    rw [Tbl.get_upd_self]; rfl
  have hu : Q u := by
    show Q (match b with | some (p, n) => claimTake pair p n t | none => _)
    cases hb : b with
    | none => exact updIcuPair_keeps K h_icu rfl ht
    | some e =>
      obtain ⟨p, n⟩ := e
      exact claimTake_keeps K h_icu (by rw [hr]; exact bestSource_lt hb) ht
  clear_value u
  exact State.emit_keeps K h_out (icuUpdateBoth_keeps K h_icu (Keeps.ite (obsAdd_keeps K h_obs hu) hu))

theorem fwdHand_keeps (K : Keeps P Q) (h_icu : P .icu = true) (h_cex : P .cex = true) {pair : Bool} {s : State} (Ks : Q s) : Q (fwdHand pair s) := by
  unfold fwdHand
  extract_lets +onlyGivenNames x1
  split
  extract_lets +onlyGivenNames x2 x3
  have Kx3 : Q x3 := updIcuPair_keeps K h_icu rfl Ks
  clear_value x3
  exact Keeps.ite (queueRecord_keeps K h_cex Kx3) Kx3

theorem fwdWrite_keeps (K : Keeps P Q) (h_icu : P .icu = true) {pair : Bool} {f : IcuFwd → IcuFwd} {s : State} (Ks : Q s)
    : Q (fwdWrite pair f s) := by
  unfold fwdWrite
  exact Keeps.ite Ks (updIcuPair_keeps K h_icu rfl Ks)

theorem execFwdGo_keeps (K : Keeps P Q) (h_icu : P .icu = true) (h_cex : P .cex = true) {pair : Bool} {detail : BitVec 64} {code : BitVec 16}
    {kind ring : BitVec 8} {cookie : BitVec 64} {s : State} (Ks : Q s) : KeepsBy Q (execFwdGo pair detail code kind ring cookie s) := by
  unfold execFwdGo
  refine KeepsBy.of ?_
  extract_lets +onlyGivenNames x1
  have Kx1 : Q x1 := awake_keeps K h_icu Ks
  clear_value x1
  exact Keeps.ite Kx1 (fwdHand_keeps K h_icu h_cex (fwdWrite_keeps K h_icu Kx1))

theorem execIcuModerationExpiry_keeps (K : Keeps P Q) (h_icu : P .icu = true) {pair : Bool} {s : State} (Ks : Q s)
    : KeepsBy Q (execIcuModerationExpiry pair s) := by
  unfold execIcuModerationExpiry
  exact KeepsBy.of (updIcuPair_keeps K h_icu rfl Ks)

theorem execMaskClr_keeps (K : Keeps P Q) (h_icu : P .icu = true) {pair : Bool} {bitmap : BitVec 512} {s : State} (Ks : Q s)
    : KeepsBy Q (execMaskClr pair bitmap s) := by
  unfold execMaskClr
  exact KeepsBy.of (icuUpdateBoth_keeps K h_icu (Keeps.foldl (fun b1 b2 h3 => updSrc_keeps K h_icu h3) (awake_keeps K h_icu Ks)))

theorem maskSet1_keeps (K : Keeps P Q) (h_icu : P .icu = true) (h_free : P .free = true) {pair : Bool} {n : Nat} {s : State} (Ks : Q s)
    : Q (maskSet1 pair n s) := by
  unfold maskSet1
  extract_lets +onlyGivenNames x1 x2 x3
  exact updSrc_keeps K h_icu (State.drew_keeps K h_free Ks)

theorem execMaskSet_keeps (K : Keeps P Q) (h_icu : P .icu = true) (h_free : P .free = true) {pair : Bool} {bitmap : BitVec 512} {s : State} (Ks : Q s)
    : KeepsBy Q (execMaskSet pair bitmap s) := by
  unfold execMaskSet
  exact KeepsBy.of (icuUpdateBoth_keeps K h_icu (Keeps.foldl (fun b1 b2 h3 => maskSet1_keeps K h_icu h_free h3) (awake_keeps K h_icu Ks)))

theorem execIcuSourceAssert_keeps (K : Keeps P Q) (h_rcv : P .rcv = true) (h_icu : P .icu = true) (h_obs : P .obs = true) (h_out : P .out = true)
    {source : BitVec 10} {pair level : Bool} {wfi : BitVec 2} {s : State} (Ks : Q s) : KeepsBy Q (execIcuSourceAssert source pair level wfi s) := by
  unfold execIcuSourceAssert
  refine KeepsBy.of ?_
  extract_lets +onlyGivenNames x1 x2
  have Kx2 : Q x2 := updIcuPair_keeps K h_icu rfl (updIcuPair_keeps K h_icu rfl Ks)
  clear_value x2
  exact Keeps.ite Kx2 (Keeps.ite (icuAssert_keeps K h_rcv h_icu h_obs h_out Kx2) (Keeps.ite (icuFall_keeps K h_icu Kx2) Kx2))

theorem execStormClear_keeps (K : Keeps P Q) (h_icu : P .icu = true) {pair : Bool} {bitmap : BitVec 512} {s : State} (Ks : Q s)
    : KeepsBy Q (execStormClear pair bitmap s) := by
  unfold execStormClear
  exact KeepsBy.of (icuUpdateBoth_keeps K h_icu (Keeps.foldl (fun b1 b2 h3 => updSrc_keeps K h_icu h3) (awake_keeps K h_icu Ks)))

theorem execStormWindowExpiry_keeps (K : Keeps P Q) (h_icu : P .icu = true) {source : BitVec 10} {pair : Bool} {s : State} (Ks : Q s)
    : KeepsBy Q (execStormWindowExpiry source pair s) := by
  unfold execStormWindowExpiry
  exact KeepsBy.of (updSrc_keeps K h_icu Ks)

theorem execPendClr_keeps (K : Keeps P Q) (h_icu : P .icu = true) {pair : Bool} {bitmap : BitVec 512} {s : State} (Ks : Q s)
    : KeepsBy Q (execPendClr pair bitmap s) := by
  unfold execPendClr
  exact KeepsBy.of (icuUpdateBoth_keeps K h_icu (Keeps.foldl (fun b1 b2 h3 => Keeps.ite h3 (updSrc_keeps K h_icu h3)) (awake_keeps K h_icu Ks)))

end Sys2Proof.Machine
end

