-- ==== Sys2Proof/Laws/KeepsDebug.lean ====
section
/-!
SUPPORT. What the operations of Machine/Debug.lean keep, and which parts they may change (Laws/Keeps.lean).
-/

set_option Elab.async false
namespace Sys2Proof.Machine

variable {P : Part → Bool} {Q : State → Prop}

theorem updHart_keeps (K : Keeps P Q) (h_lcc : P .lcc = true) {n : Nat} {f : Hart → Hart} {s : State} (Ks : Q s) : Q (updHart n f s) := by
  unfold updHart
  exact K.lcc h_lcc (FusesKept.of_eq rfl rfl rfl rfl) Ks

theorem readReg_keeps (K : Keeps P Q) (h_lcc : P .lcc = true) (h_free : P .free = true) {r : Nat} {s : State} (Ks : Q s) : Q (readReg r s).2 := by
  unfold readReg
  extract_lets +onlyGivenNames x1 x2
  refine Keeps.ite2 Ks ?_
  refine Keeps.ite2 Ks ?_
  refine Keeps.ite2 Ks ?_
  refine Keeps.ite2 Ks ?_
  refine Keeps.ite2 Ks ?_
  split
  · exact Ks
  · split
    rename_i y3 y4 y5 y6
    have Ky5 : Q y5 := Keeps.snd y6 (drawBits_keeps K h_free Ks)
    exact Keeps.p2 (updHart_keeps K h_lcc Ky5)

theorem writeReg_keeps (K : Keeps P Q) (h_lcc : P .lcc = true) {r : Nat} {v : BitVec 64} {s : State} (Ks : Q s) : Q (writeReg r v s) := by
  unfold writeReg
  exact updHart_keeps K h_lcc Ks

theorem runCommand_keeps (K : Keeps P Q) (h_lcc : P .lcc = true) (h_free : P .free = true) {c : Nat} {s : State} (Ks : Q s) : Q (runCommand c s) := by
  unfold runCommand
  extract_lets +onlyGivenNames x1 x2
  have Kx2 : ∀ b0, Q (x2 b0) := by
    intro b3
    unfold x2
    exact K.lcc h_lcc (FusesKept.of_eq rfl rfl rfl rfl) Ks
  clear_value x2
  extract_lets +onlyGivenNames x4 x5
  refine Keeps.ite Ks ?_
  refine Keeps.ite (Kx2 _) ?_
  refine Keeps.ite (Kx2 _) ?_
  refine Keeps.ite Ks ?_
  refine Keeps.ite (Kx2 _) ?_
  extract_lets +onlyGivenNames x6
  refine Keeps.ite ?_ ?_
  · split
    rename_i y7 y8 y9 y10
    have Ky9 : Q y9 := Keeps.snd y10 (Keeps.ite2 Ks (readReg_keeps K h_lcc h_free Ks))
    exact writeReg_keeps K h_lcc Ky9
  · split
    rename_i y11 y12 y13 y14
    have Ky13 : Q y13 := Keeps.snd y14 (readReg_keeps K h_lcc h_free Ks)
    extract_lets +onlyGivenNames x15
    exact K.lcc h_lcc (FusesKept.of_eq rfl rfl rfl rfl) Ky13

theorem cpByte_keeps (K : Keeps P Q) (h_lcc : P .lcc = true) (h_free : P .free = true) {a : Nat} {s : State} (Ks : Q s) : Q (cpByte a s).2 := by
  unfold cpByte
  extract_lets +onlyGivenNames x1
  split
  · exact Ks
  · split
    rename_i y2 y3 y4 y5
    have Ky4 : Q y4 := Keeps.snd y5 (drawBits_keeps K h_free Ks)
    exact Keeps.p2 (K.lcc h_lcc (FusesKept.of_eq rfl rfl rfl rfl) Ky4)

theorem cpBytes_keeps (K : Keeps P Q) (h_lcc : P .lcc = true) (h_free : P .free = true) {a a1 : Nat} {a2 : State} (Ka2 : Q a2)
    : Q (cpBytes a a1 a2).2 := by
  induction a generalizing a1 a2 with
  | zero =>
    unfold cpBytes
    exact Ka2
  | succ n ih =>
    unfold cpBytes
    split
    rename_i y1 y2 y3 y4
    have Ky3 : Q y3 := Keeps.snd y4 (cpByte_keeps K h_lcc h_free Ka2)
    split
    rename_i y5 y6 y7 y8
    have Ky7 : Q y7 := Keeps.snd y8 (ih Ky3)
    exact Ky7

theorem execHartHalted_keeps (K : Keeps P Q) (h_lcc : P .lcc = true) {pair : Bool} {s : State} (Ks : Q s) : KeepsBy Q (execHartHalted pair s) := by
  unfold execHartHalted
  refine KeepsBy.of ?_
  extract_lets +onlyGivenNames x1
  exact Keeps.ite Ks (updHart_keeps K h_lcc Ks)

theorem afterOutcome_keeps (K : Keeps P Q) {o : Host.Outcome State Fault Refusal} {s : State} (Ko : KeepsBy Q o) (Ks : Q s)
    : Q (afterOutcome o s) := by
  unfold afterOutcome
  split
  · assumption
  · exact Ks

theorem icuWrite_keeps (K : Keeps P Q) (h_rcv : P .rcv = true) (h_icu : P .icu = true) (h_obs : P .obs = true) (h_cex : P .cex = true)
    (h_free : P .free = true) (h_out : P .out = true) {pair : Bool} {off v : Nat} {s : State} (Ks : Q s) : Q (icuWrite pair off v s) := by
  unfold icuWrite
  extract_lets +onlyGivenNames x1
  exact Keeps.ite (afterOutcome_keeps K (execEoi_keeps K h_rcv h_icu h_obs h_out Ks) Ks) (Keeps.ite (afterOutcome_keeps K (execPmrWrite_keeps K h_icu Ks) Ks) (Keeps.ite (Keeps.ite (icuUpdateBoth_keeps K h_icu (updIcuPair_keeps K h_icu rfl Ks)) Ks) (Keeps.ite (Keeps.ite (icuUpdateBoth_keeps K h_icu (updIcuPair_keeps K h_icu rfl Ks)) Ks) (Keeps.ite (afterOutcome_keeps K (execSgi_keeps K h_rcv h_icu h_obs h_out Ks) Ks) (Keeps.ite (fwdWrite_keeps K h_icu Ks) (Keeps.ite (fwdWrite_keeps K h_icu Ks) (Keeps.ite (fwdWrite_keeps K h_icu Ks) (Keeps.ite (fwdWrite_keeps K h_icu Ks) (Keeps.ite (fwdWrite_keeps K h_icu Ks) (Keeps.ite (Keeps.ite (fwdHand_keeps K h_icu h_cex Ks) Ks) (Keeps.ite (afterOutcome_keeps K (execSrcCfgWrite_keeps K h_icu Ks) Ks) (Keeps.ite (afterOutcome_keeps K (execPendSet_keeps K h_icu h_obs h_out Ks) Ks) (Keeps.ite (afterOutcome_keeps K (execPendClr_keeps K h_icu Ks) Ks) (Keeps.ite (afterOutcome_keeps K (execMaskSet_keeps K h_icu h_free Ks) Ks) (Keeps.ite (afterOutcome_keeps K (execMaskClr_keeps K h_icu Ks) Ks) (Keeps.ite (afterOutcome_keeps K (execStormClear_keeps K h_icu Ks) Ks) (Keeps.ite (Keeps.ite (K.icu h_icu (fun h => h) Ks) Ks) (Keeps.ite (Keeps.ite (K.icu h_icu (fun h => h) Ks) Ks) Ks))))))))))))))))))

theorem icuRead_keeps (K : Keeps P Q) (h_icu : P .icu = true) (h_obs : P .obs = true) (h_out : P .out = true) {pair : Bool} {off : Nat} {s : State}
    (Ks : Q s) : Q (icuRead pair off s).2 := by
  unfold icuRead
  extract_lets +onlyGivenNames x1 x2
  exact Keeps.ite2 Ks (Keeps.ite2 (Keeps.p2 (afterOutcome_keeps K (execClaim_keeps K h_icu h_obs h_out Ks) Ks)) (Keeps.ite2 Ks (Keeps.ite2 Ks (Keeps.ite2 Ks (Keeps.ite2 Ks (Keeps.ite2 Ks (Keeps.ite2 Ks (Keeps.ite2 Ks (Keeps.ite2 Ks (Keeps.ite2 Ks (Keeps.ite2 Ks (Keeps.ite2 Ks (Keeps.ite2 Ks (Keeps.ite2 Ks (Keeps.ite2 Ks (Keeps.ite2 Ks (Keeps.ite2 Ks (Keeps.ite2 Ks (Keeps.ite2 Ks (Keeps.ite2 Ks (Keeps.ite2 Ks (Keeps.ite2 Ks Ks))))))))))))))))))))))

theorem sbAccess_keeps (K : Keeps P Q) (h_rcv : P .rcv = true) (h_icu : P .icu = true) (h_obs : P .obs = true) (h_cex : P .cex = true)
    (h_lcc : P .lcc = true) (h_free : P .free = true) (h_out : P .out = true) {write : Bool} {s : State} (Ks : Q s) : Q (sbAccess write s) := by
  unfold sbAccess
  extract_lets +onlyGivenNames x1 x2 x3 x4 x5
  have Kx5 : ∀ b0, Q (x5 b0) := by
    intro b6
    unfold x5
    exact K.lcc h_lcc (FusesKept.of_eq rfl rfl rfl rfl) Ks
  clear_value x5
  extract_lets +onlyGivenNames x7 x8
  refine Keeps.ite Ks ?_
  refine Keeps.ite (Kx5 _) ?_
  refine Keeps.ite (Kx5 _) ?_
  refine Keeps.ite (Kx5 _) ?_
  extract_lets +onlyGivenNames x9 x10
  have Kx10 : Q x10 := by
    unfold x10
    refine Keeps.ite (Keeps.ite (Keeps.ite (icuWrite_keeps K h_rcv h_icu h_obs h_cex h_free h_out Ks) Ks) (K.lcc h_lcc (FusesKept.of_eq rfl rfl rfl rfl) Ks)) ?_
    split
    rename_i y11 y12 y13 y14
    have Ky13 : Q y13 := Keeps.snd y14 (Keeps.ite2 (Keeps.ite2 (icuRead_keeps K h_icu h_obs h_out Ks) Ks) (cpBytes_keeps K h_lcc h_free Ks))
    exact K.lcc h_lcc (FusesKept.of_eq rfl rfl rfl rfl) Ky13
  clear_value x10
  exact Keeps.ite (K.lcc h_lcc (FusesKept.of_eq rfl rfl rfl rfl) Kx10) Kx10

theorem dmRead_keeps (K : Keeps P Q) (h_rcv : P .rcv = true) (h_icu : P .icu = true) (h_obs : P .obs = true) (h_cex : P .cex = true)
    (h_lcc : P .lcc = true) (h_free : P .free = true) (h_out : P .out = true) {a : Nat} {s : State} (Ks : Q s) : Q (dmRead a s).2 := by
  unfold dmRead
  split
  · exact Ks
  · exact Ks
  · exact Ks
  · exact Ks
  · exact Ks
  · exact Ks
  · exact Ks
  · exact Ks
  · extract_lets +onlyGivenNames x1
    exact Keeps.p2 (Keeps.ite (sbAccess_keeps K h_rcv h_icu h_obs h_cex h_lcc h_free h_out Ks) Ks)
  · exact Ks
  · exact Ks
  · exact Ks

theorem dmiResult_keeps (K : Keeps P Q) (h_lcc : P .lcc = true) {rec addr status : Nat} {data : BitVec 32} {s : State} (Ks : Q s)
    : Q (dmiResult rec addr status data s) := by
  unfold dmiResult
  exact K.lcc h_lcc (FusesKept.of_eq rfl rfl rfl rfl) Ks

theorem dmControl_keeps (K : Keeps P Q) (h_rcv : P .rcv = true) (h_icu : P .icu = true) (h_obs : P .obs = true) (h_lcc : P .lcc = true)
    (h_out : P .out = true) {v : Nat} {s : State} (Ks : Q s) : Q (dmControl v s) := by
  unfold dmControl
  refine Keeps.ite (K.lcc h_lcc (FusesKept.of_eq rfl rfl rfl rfl) Ks) ?_
  extract_lets +onlyGivenNames x1 x2 x3
  have Kx3 : Q x3 := K.lcc h_lcc (FusesKept.of_eq rfl rfl rfl rfl) Ks
  clear_value x3
  extract_lets +onlyGivenNames x4
  refine Keeps.ite Kx3 ?_
  refine Keeps.ite ?_ ?_
  · extract_lets +onlyGivenNames x5
    have Kx5 : Q x5 := updHart_keeps K h_lcc Kx3
    clear_value x5
    exact Keeps.ite Kx5 (icuAssert_keeps K h_rcv h_icu h_obs h_out Kx5)
  · refine Keeps.ite ?_ (updHart_keeps K h_lcc Kx3)
    extract_lets +onlyGivenNames x6 x7
    have Kx7 : Q x7 := K.lcc h_lcc (FusesKept.of_eq rfl rfl rfl rfl) Kx3
    clear_value x7
    exact updHart_keeps K h_lcc Kx7

theorem dmWrite_keeps (K : Keeps P Q) (h_rcv : P .rcv = true) (h_icu : P .icu = true) (h_obs : P .obs = true) (h_cex : P .cex = true)
    (h_lcc : P .lcc = true) (h_free : P .free = true) (h_out : P .out = true) {a v : Nat} {s : State} (Ks : Q s) : Q (dmWrite a v s) := by
  unfold dmWrite
  refine Keeps.ite (dmControl_keeps K h_rcv h_icu h_obs h_lcc h_out Ks) ?_
  refine Keeps.ite Ks ?_
  split
  · exact K.lcc h_lcc (FusesKept.of_eq rfl rfl rfl rfl) Ks
  · exact K.lcc h_lcc (FusesKept.of_eq rfl rfl rfl rfl) Ks
  · exact K.lcc h_lcc (FusesKept.of_eq rfl rfl rfl rfl) Ks
  · exact runCommand_keeps K h_lcc h_free Ks
  · exact K.lcc h_lcc (FusesKept.of_eq rfl rfl rfl rfl) Ks
  · extract_lets +onlyGivenNames x1 x2
    have Kx2 : Q x2 := K.lcc h_lcc (FusesKept.of_eq rfl rfl rfl rfl) Ks
    clear_value x2
    exact Keeps.ite (sbAccess_keeps K h_rcv h_icu h_obs h_cex h_lcc h_free h_out Kx2) Kx2
  · exact K.lcc h_lcc (FusesKept.of_eq rfl rfl rfl rfl) Ks
  · exact sbAccess_keeps K h_rcv h_icu h_obs h_cex h_lcc h_free h_out (K.lcc h_lcc (FusesKept.of_eq rfl rfl rfl rfl) Ks)
  · exact K.lcc h_lcc (FusesKept.of_eq rfl rfl rfl rfl) Ks
  · exact Ks

theorem dmiRun_keeps (K : Keeps P Q) (h_rcv : P .rcv = true) (h_icu : P .icu = true) (h_obs : P .obs = true) (h_cex : P .cex = true)
    (h_lcc : P .lcc = true) (h_free : P .free = true) (h_out : P .out = true) {rec addr op : Nat} {data : BitVec 32} {s : State} (Ks : Q s)
    : Q (dmiRun rec addr op data s).1 := by
  unfold dmiRun
  refine Keeps.ite1 ?_ (Keeps.ite1 (Keeps.p1 (dmiResult_keeps K h_lcc (dmWrite_keeps K h_rcv h_icu h_obs h_cex h_lcc h_free h_out Ks))) Ks)
  split
  rename_i y1 y2 y3 y4
  have Ky3 : Q y3 := Keeps.snd y4 (dmRead_keeps K h_rcv h_icu h_obs h_cex h_lcc h_free h_out Ks)
  exact Keeps.p1 (State.emit_keeps K h_out (dmiResult_keeps K h_lcc Ky3))

theorem dmiAccess_keeps (K : Keeps P Q) (h_rcv : P .rcv = true) (h_icu : P .icu = true) (h_obs : P .obs = true) (h_cex : P .cex = true)
    (h_lcc : P .lcc = true) (h_free : P .free = true) (h_out : P .out = true) {rec addr op : Nat} {data : BitVec 32} {s : State} (Ks : Q s)
    : Q (dmiAccess rec addr op data s).1 := by
  unfold dmiAccess
  exact Keeps.ite1 Ks (dmiRun_keeps K h_rcv h_icu h_obs h_cex h_lcc h_free h_out Ks)

theorem dmiVia_keeps (K : Keeps P Q) (h_rcv : P .rcv = true) (h_icu : P .icu = true) (h_obs : P .obs = true) (h_cex : P .cex = true)
    (h_ods : P .ods = true) (h_lcc : P .lcc = true) (h_free : P .free = true) (h_out : P .out = true) {via : Access} {rec addr op : Nat}
    {data : BitVec 32} {s : State} (Ks : Q s) : Q (dmiVia via rec addr op data s) := by
  unfold dmiVia
  split
  · exact dictWrite_keeps K h_ods h_out Ks (fun b1 h2 => dmiAccess_keeps K h_rcv h_icu h_obs h_cex h_lcc h_free h_out h2)
  · exact tapAccess_keeps K h_lcc (fun b3 h4 => dmiRun_keeps K h_rcv h_icu h_obs h_cex h_lcc h_free h_out h4) Ks

theorem execDmiWrite_keeps (K : Keeps P Q) (h_rcv : P .rcv = true) (h_icu : P .icu = true) (h_obs : P .obs = true) (h_cex : P .cex = true)
    (h_ods : P .ods = true) (h_lcc : P .lcc = true) (h_free : P .free = true) (h_out : P .out = true) {via : Access} {pair : Bool} {addr : BitVec 8}
    {data : BitVec 32} {s : State} (Ks : Q s) : KeepsBy Q (execDmiWrite via pair addr data s) := by
  unfold execDmiWrite
  exact KeepsBy.of (dmiVia_keeps K h_rcv h_icu h_obs h_cex h_ods h_lcc h_free h_out Ks)

theorem execDmiRead_keeps (K : Keeps P Q) (h_rcv : P .rcv = true) (h_icu : P .icu = true) (h_obs : P .obs = true) (h_cex : P .cex = true)
    (h_ods : P .ods = true) (h_lcc : P .lcc = true) (h_free : P .free = true) (h_out : P .out = true) {via : Access} {pair : Bool} {addr : BitVec 8}
    {s : State} (Ks : Q s) : KeepsBy Q (execDmiRead via pair addr s) := by
  unfold execDmiRead
  exact KeepsBy.of (dmiVia_keeps K h_rcv h_icu h_obs h_cex h_ods h_lcc h_free h_out Ks)

end Sys2Proof.Machine
end

