-- ==== Sys2Proof/Laws/KeepsDictValue.lean ====
section
/-!
SUPPORT. What the operations of Machine/DictValue.lean keep, and which parts they may change (Laws/Keeps.lean).
-/

set_option Elab.async false
namespace Sys2Proof.Machine

variable {P : Part → Bool} {Q : State → Prop}

theorem readSensors_keeps (K : Keeps P Q) (h_sen : P .sen = true) (h_free : P .free = true) {s : State} (Ks : Q s) : Q (readSensors s) := by
  unfold readSensors
  extract_lets +onlyGivenNames x1 x2
  exact K.upd Ks (h_sen := .inr h_sen) (h_free := .inr ⟨h_free, Nat.le_add_right _ _⟩)

end Sys2Proof.Machine
end

