-- ==== Sys2Proof/Laws/KeepsSentinel.lean ====
section
/-!
SUPPORT. What the operations of Machine/Sentinel.lean keep, and which parts they may change (Laws/Keeps.lean).
-/

set_option Elab.async false
namespace Sys2Proof.Machine

variable {P : Part → Bool} {Q : State → Prop}

theorem setBrownOut_keeps (K : Keeps P Q) (h_sen : P .sen = true) {die : Nat} {b : Bool} {s : State} (Ks : Q s) : Q (setBrownOut die b s) := by
  unfold setBrownOut
  exact K.sen h_sen Ks

theorem execBrownOut_keeps (K : Keeps P Q) (h_rcv : P .rcv = true) (h_icu : P .icu = true) (h_obs : P .obs = true) (h_sen : P .sen = true)
    (h_out : P .out = true) {die : BitVec 2} {s : State} (Ks : Q s) : KeepsBy Q (execBrownOut die s) := by
  unfold execBrownOut
  exact KeepsBy.of (Keeps.ite Ks (pend_keeps K h_rcv h_icu h_obs h_out (setBrownOut_keeps K h_sen (K.sen h_sen Ks))))

theorem senDiscard_keeps (K : Keeps P Q) (h_rcv : P .rcv = true) (h_icu : P .icu = true) (h_obs : P .obs = true) (h_sen : P .sen = true)
    (h_out : P .out = true) {u : Nat} {s : State} (Ks : Q s) : Q (senDiscard u s) := by
  unfold senDiscard
  extract_lets +onlyGivenNames x1 x2
  have Kx2 : Q x2 := K.sen h_sen Ks
  clear_value x2
  exact pend_keeps K h_rcv h_icu h_obs h_out (State.emit_keeps K h_out (obsAdd_keeps K h_obs Kx2))

theorem execBrownOutRecovery_keeps (K : Keeps P Q) (h_obs : P .obs = true) (h_sen : P .sen = true) (h_out : P .out = true) {die : BitVec 2}
    {s : State} (Ks : Q s) : KeepsBy Q (execBrownOutRecovery die s) := by
  unfold execBrownOutRecovery
  refine KeepsBy.of ?_
  extract_lets +onlyGivenNames x1
  exact Keeps.foldl (fun b2 b3 h4 => State.emit_keeps K h_out (obsAdd_keeps K h_obs h4)) (setBrownOut_keeps K h_sen Ks)

theorem vaultTrigger_keeps (K : Keeps P Q) (h_vault : P .vault = true) {cause : Nat} {s : State} (Ks : Q s) : Q (vaultTrigger cause s) := by
  unfold vaultTrigger
  extract_lets +onlyGivenNames x1
  exact Keeps.ite (K.vault h_vault Ks) (K.vault h_vault Ks)

theorem senCount_keeps (K : Keeps P Q) (h_sen : P .sen = true) (h_vault : P .vault = true) {s : State} (Ks : Q s) : Q (senCount s) := by
  unfold senCount
  extract_lets +onlyGivenNames x1
  exact Keeps.ite (vaultTrigger_keeps K h_vault (K.sen h_sen Ks)) (K.sen h_sen Ks)

theorem switchTimer_keeps (K : Keeps P Q) (h_clk : P .clk = true) {base : Nat} {osc : Bool} {s : State} (Ks : Q s) : Q (switchTimer base osc s) := by
  unfold switchTimer
  exact Keeps.ite (K.clk h_clk Ks) Ks

theorem freezeNotice_keeps (K : Keeps P Q) (h_icu : P .icu = true) {s : State} (Ks : Q s) : Q (freezeNotice s) := by
  unfold freezeNotice
  exact Keeps.ite Ks (icuFall_keeps K h_icu Ks)

theorem execReferenceClockLost_keeps (K : Keeps P Q) (h_clk : P .clk = true) {base : BitVec 2} {s : State} (Ks : Q s)
    : KeepsBy Q (execReferenceClockLost base s) := by
  unfold execReferenceClockLost
  exact KeepsBy.of (switchTimer_keeps K h_clk Ks)

theorem execReferenceClockRegained_keeps (K : Keeps P Q) (h_clk : P .clk = true) {base : BitVec 2} {s : State} (Ks : Q s)
    : KeepsBy Q (execReferenceClockRegained base s) := by
  unfold execReferenceClockRegained
  exact KeepsBy.of (switchTimer_keeps K h_clk Ks)

theorem senOutlier_keeps (K : Keeps P Q) (h_rcv : P .rcv = true) (h_icu : P .icu = true) (h_obs : P .obs = true) (h_sen : P .sen = true)
    (h_vault : P .vault = true) (h_out : P .out = true) {u canary : Nat} {s : State} (Ks : Q s) : Q (senOutlier u canary s) := by
  unfold senOutlier
  extract_lets +onlyGivenNames x1
  have Kx1 : Q x1 := senDiscard_keeps K h_rcv h_icu h_obs h_sen h_out Ks
  clear_value x1
  extract_lets +onlyGivenNames x2 x3
  have Kx3 : Q x3 := K.sen h_sen Kx1
  clear_value x3
  exact pend_keeps K h_rcv h_icu h_obs h_out (logError_keeps K h_rcv h_icu h_obs h_out (senCount_keeps K h_sen h_vault Kx3))

theorem canarySample_keeps (K : Keeps P Q) (h_rcv : P .rcv = true) (h_icu : P .icu = true) (h_obs : P .obs = true) (h_sen : P .sen = true)
    (h_vault : P .vault = true) (h_out : P .out = true) {u c x : Nat} {s : State} (Ks : Q s) : Q (canarySample u c x s) := by
  unfold canarySample
  refine Keeps.ite Ks ?_
  extract_lets +onlyGivenNames x1 x2 x3 x4 x5
  refine Keeps.ite (senOutlier_keeps K h_rcv h_icu h_obs h_sen h_vault h_out Ks) ?_
  refine Keeps.ite Ks ?_
  extract_lets +onlyGivenNames x6 x7 x8
  exact K.sen h_sen Ks

theorem execCanarySample_keeps (K : Keeps P Q) (h_rcv : P .rcv = true) (h_icu : P .icu = true) (h_obs : P .obs = true) (h_sen : P .sen = true)
    (h_vault : P .vault = true) (h_out : P .out = true) {unit : BitVec 6} {canary : BitVec 3} {x : BitVec 8} {s : State} (Ks : Q s)
    : KeepsBy Q (execCanarySample unit canary x s) := by
  unfold execCanarySample
  exact KeepsBy.of (canarySample_keeps K h_rcv h_icu h_obs h_sen h_vault h_out Ks)

theorem execSupplyExcursion_keeps (K : Keeps P Q) (h_rcv : P .rcv = true) (h_icu : P .icu = true) (h_obs : P .obs = true) (h_sen : P .sen = true)
    (h_vault : P .vault = true) (h_out : P .out = true) {die : BitVec 2} {s : State} (Ks : Q s) : KeepsBy Q (execSupplyExcursion die s) := by
  unfold execSupplyExcursion
  refine KeepsBy.of ?_
  refine Keeps.ite Ks ?_
  extract_lets +onlyGivenNames x1
  have Kx1 : Q x1 := Keeps.foldl (fun b2 b3 h4 => senDiscard_keeps K h_rcv h_icu h_obs h_sen h_out h4) Ks
  clear_value x1
  extract_lets +onlyGivenNames x5 x6
  have Kx6 : Q x6 := K.sen h_sen Kx1
  clear_value x6
  exact pend_keeps K h_rcv h_icu h_obs h_out (senCount_keeps K h_sen h_vault Kx6)

theorem tamperLatchWrite_keeps (K : Keeps P Q) (h_tamperIn : P .tamperIn = true) {input : BitVec 2} {value : Bool} {s : State} (Ks : Q s)
    : Q (tamperLatchWrite input value s).1 := by
  unfold tamperLatchWrite
  extract_lets +onlyGivenNames x1
  exact Keeps.ite1 Ks (Keeps.ite1 (Keeps.p1 (K.tamperIn h_tamperIn Ks)) Ks)

theorem execTamperLatchClear_keeps (K : Keeps P Q) (h_tamperIn : P .tamperIn = true) (h_ods : P .ods = true) (h_out : P .out = true) {who : Principal}
    {input : BitVec 2} {value : Bool} {s : State} (Ks : Q s) : KeepsBy Q (execTamperLatchClear who input value s) := by
  unfold execTamperLatchClear
  exact KeepsBy.of (dictWrite_keeps K h_ods h_out Ks (fun b1 h2 => tamperLatchWrite_keeps K h_tamperIn h2))

theorem execCanaryIdleExercise_keeps (K : Keeps P Q) (h_rcv : P .rcv = true) (h_icu : P .icu = true) (h_obs : P .obs = true) (h_sen : P .sen = true)
    (h_vault : P .vault = true) (h_out : P .out = true) {unit : BitVec 6} {codes : List (BitVec 8)} {s : State} (Ks : Q s)
    : KeepsBy Q (execCanaryIdleExercise unit codes s) := by
  unfold execCanaryIdleExercise
  exact KeepsBy.of (Keeps.foldl (fun b1 b2 h3 => canarySample_keeps K h_rcv h_icu h_obs h_sen h_vault h_out h3) Ks)

theorem execSenFreezeExpiry_keeps (K : Keeps P Q) (h_icu : P .icu = true) (h_sen : P .sen = true) {unit : BitVec 6} {s : State} (Ks : Q s)
    : KeepsBy Q (execSenFreezeExpiry unit s) := by
  unfold execSenFreezeExpiry
  exact KeepsBy.of (freezeNotice_keeps K h_icu (K.sen h_sen Ks))

theorem execTjWarnCrossing_keeps (K : Keeps P Q) (h_rcv : P .rcv = true) (h_icu : P .icu = true) (h_obs : P .obs = true) (h_sen : P .sen = true)
    (h_out : P .out = true) {hottest : BitVec 32} {s : State} (Ks : Q s) : KeepsBy Q (execTjWarnCrossing hottest s) := by
  unfold execTjWarnCrossing
  exact KeepsBy.of (pend_keeps K h_rcv h_icu h_obs h_out (K.sen h_sen Ks))

theorem execTamperInSample_keeps (K : Keeps P Q) (h_tamperIn : P .tamperIn = true) (h_vault : P .vault = true) {input : BitVec 2} {level : Bool}
    {s : State} (Ks : Q s) : KeepsBy Q (execTamperInSample input level s) := by
  unfold execTamperInSample
  refine KeepsBy.of ?_
  extract_lets +onlyGivenNames x1
  refine Keeps.ite Ks ?_
  extract_lets +onlyGivenNames x2 x3 x4 x5 x6 x7
  have Kx7 : Q x7 := K.tamperIn h_tamperIn Ks
  clear_value x7
  exact Keeps.ite (vaultTrigger_keeps K h_vault Kx7) Kx7

end Sys2Proof.Machine
end

