-- ==== Sys2Proof/Laws/KeepsPower.lean ====
section
/-!
SUPPORT. What the operations of Machine/Power.lean keep, and which parts they may change (Laws/Keeps.lean).
-/

set_option Elab.async false
namespace Sys2Proof.Machine

variable {P : Part → Bool} {Q : State → Prop}

theorem logOk_reset : LogOk ({} : Rcv) := ⟨by decide, by decide, by decide⟩

theorem alwaysOn_keeps (K : Keeps P Q) (h_clk : P .clk = true) (h_rcv : P .rcv = true) (h_icu : P .icu = true) (h_obs : P .obs = true)
    (h_sen : P .sen = true) (h_cex : P .cex = true) (h_xlt : P .xlt = true) (h_srg : P .srg = true) (h_ods : P .ods = true) (h_kst : P .kst = true)
    (h_engKeys : P .engKeys = true) (h_kwe : P .kwe = true) (h_pke : P .pke = true) (h_ent : P .ent = true) (h_atu : P .atu = true)
    (h_lcc : P .lcc = true) (h_mem : P .mem = true) (h_link : P .link = true) (h_sheaf : P .sheaf = true) (h_dom : P .dom = true)
    (h_pins : P .pins = true) (h_boot : P .boot = true) (h_tdi : P .tdi = true) (h_ac : P .ac = true) (h_vt : P .vt = true) {s : State} (Ks : Q s)
    : Q (alwaysOn s) :=
  K.upd Ks (h_clk := .inr h_clk) (h_rcv := .inr ⟨h_rcv, fun _ => logOk_reset⟩) (h_icu := .inr ⟨h_icu, fun _ _ => List.Pairwise.nil⟩) (h_obs := .inr ⟨h_obs, fun _ => ⟨fun _ => Nat.zero_le _, Nat.zero_le _, Nat.zero_le _⟩⟩) (h_sen := .inr h_sen) (h_cex := .inr h_cex) (h_xlt := .inr h_xlt) (h_srg := .inr h_srg) (h_ods := .inr ⟨h_ods, LotKept.of_eq rfl⟩) (h_kst := .inr h_kst) (h_engKeys := .inr h_engKeys) (h_kwe := .inr h_kwe) (h_pke := .inr h_pke) (h_ent := .inr h_ent) (h_atu := .inr h_atu) (h_lcc := .inr ⟨h_lcc, FusesKept.of_eq rfl rfl rfl rfl⟩) (h_mem := .inr h_mem) (h_link := .inr h_link) (h_sheaf := .inr h_sheaf) (h_dom := .inr h_dom) (h_pins := .inr h_pins) (h_boot := .inr h_boot) (h_tdi := .inr ⟨h_tdi, fun _ _ => Nat.zero_le _⟩) (h_ac := .inr h_ac) (h_vt := .inr h_vt)

theorem chipReset_keeps (K : Keeps P Q) (h_clk : P .clk = true) (h_rcv : P .rcv = true) (h_icu : P .icu = true) (h_obs : P .obs = true)
    (h_sen : P .sen = true) (h_cex : P .cex = true) (h_xlt : P .xlt = true) (h_srg : P .srg = true) (h_ods : P .ods = true) (h_kst : P .kst = true)
    (h_engKeys : P .engKeys = true) (h_kwe : P .kwe = true) (h_pke : P .pke = true) (h_ent : P .ent = true) (h_atu : P .atu = true)
    (h_lcc : P .lcc = true) (h_mem : P .mem = true) (h_link : P .link = true) (h_sheaf : P .sheaf = true) (h_dom : P .dom = true)
    (h_pins : P .pins = true) (h_boot : P .boot = true) (h_tdi : P .tdi = true) (h_ac : P .ac = true) (h_vt : P .vt = true) {s : State} (Ks : Q s)
    : Q (chipReset s) :=
  K.upd (s := s) Ks (h_clk := .inr h_clk) (h_rcv := .inr ⟨h_rcv, fun o => o⟩) (h_icu := .inr ⟨h_icu, fun _ _ => List.Pairwise.nil⟩) (h_obs := .inr ⟨h_obs, fun _ => ⟨fun _ => Nat.zero_le _, Nat.zero_le _, Nat.zero_le _⟩⟩) (h_sen := .inr h_sen) (h_cex := .inr h_cex) (h_xlt := .inr h_xlt) (h_srg := .inr h_srg) (h_ods := .inr ⟨h_ods, LotKept.of_eq rfl⟩) (h_kst := .inr h_kst) (h_engKeys := .inr h_engKeys) (h_kwe := .inr h_kwe) (h_pke := .inr h_pke) (h_ent := .inr h_ent) (h_atu := .inr h_atu) (h_lcc := .inr ⟨h_lcc, FusesKept.of_eq rfl rfl rfl rfl⟩) (h_mem := .inr h_mem) (h_link := .inr h_link) (h_sheaf := .inr h_sheaf) (h_dom := .inr h_dom) (h_pins := .inr h_pins) (h_boot := .inr h_boot) (h_tdi := .inr ⟨h_tdi, fun _ _ => Nat.zero_le _⟩) (h_ac := .inr h_ac) (h_vt := .inr h_vt)

theorem execResetPortAssert_keeps (K : Keeps P Q) (h_clk : P .clk = true) (h_rcv : P .rcv = true) (h_icu : P .icu = true) (h_obs : P .obs = true)
    (h_sen : P .sen = true) (h_cex : P .cex = true) (h_xlt : P .xlt = true) (h_srg : P .srg = true) (h_ods : P .ods = true) (h_kst : P .kst = true)
    (h_engKeys : P .engKeys = true) (h_kwe : P .kwe = true) (h_pke : P .pke = true) (h_ent : P .ent = true) (h_atu : P .atu = true)
    (h_lcc : P .lcc = true) (h_mem : P .mem = true) (h_link : P .link = true) (h_sheaf : P .sheaf = true) (h_dom : P .dom = true)
    (h_pins : P .pins = true) (h_boot : P .boot = true) (h_tdi : P .tdi = true) (h_ac : P .ac = true) (h_vt : P .vt = true) {asserted : Bool}
    {s : State} (Ks : Q s) : KeepsBy Q (execResetPortAssert asserted s) := by
  unfold execResetPortAssert
  refine KeepsBy.of ?_
  extract_lets +onlyGivenNames x1 x2
  have Kx2 : Q x2 := K.pins h_pins Ks
  clear_value x2
  exact Keeps.ite (chipReset_keeps K h_clk h_rcv h_icu h_obs h_sen h_cex h_xlt h_srg h_ods h_kst h_engKeys h_kwe h_pke h_ent h_atu h_lcc h_mem h_link h_sheaf h_dom h_pins h_boot h_tdi h_ac h_vt Kx2) Kx2

theorem requestChipReset_keeps (K : Keeps P Q) (h_rcv : P .rcv = true) (h_icu : P .icu = true) (h_obs : P .obs = true) (h_cex : P .cex = true)
    (h_srg : P .srg = true) (h_ods : P .ods = true) (h_kst : P .kst = true) (h_engKeys : P .engKeys = true) (h_kwe : P .kwe = true)
    (h_pke : P .pke = true) (h_ent : P .ent = true) (h_mem : P .mem = true) (h_link : P .link = true) (h_sheaf : P .sheaf = true)
    (h_dom : P .dom = true) (h_pins : P .pins = true) (h_ac : P .ac = true) (h_vt : P .vt = true) (h_out : P .out = true) {cause : Nat} {s : State}
    (Ks : Q s) : Q (requestChipReset cause s) := by
  unfold requestChipReset
  refine Keeps.ite Ks ?_
  extract_lets +onlyGivenNames x1 x2
  have Kx2 : Q x2 := logRung_keeps K h_rcv h_icu h_obs h_out (K.rcv h_rcv (fun h => h) Ks)
  clear_value x2
  extract_lets +onlyGivenNames x3
  have Kx3 : Q x3 := State.emit_keeps K h_out (msix_keeps K h_cex h_out Kx2)
  clear_value x3
  exact Keeps.foldl (fun b4 b5 h6 => originate_keeps K h_rcv h_icu h_obs h_cex h_srg h_ods h_kst h_engKeys h_kwe h_pke h_ent h_mem h_link h_sheaf h_dom h_pins h_ac h_vt h_out h6) Kx3

theorem setRail_keeps (K : Keeps P Q) (h_pins : P .pins = true) {i : Nat} {on : Bool} {s : State} (Ks : Q s) : Q (setRail i on s) := by
  unfold setRail
  exact K.pins h_pins Ks

theorem powerOff_keeps (K : Keeps P Q) (h_clk : P .clk = true) (h_rcv : P .rcv = true) (h_icu : P .icu = true) (h_obs : P .obs = true)
    (h_sen : P .sen = true) (h_cex : P .cex = true) (h_xlt : P .xlt = true) (h_srg : P .srg = true) (h_ods : P .ods = true) (h_kst : P .kst = true)
    (h_engKeys : P .engKeys = true) (h_kwe : P .kwe = true) (h_pke : P .pke = true) (h_ent : P .ent = true) (h_atu : P .atu = true)
    (h_lcc : P .lcc = true) (h_mem : P .mem = true) (h_link : P .link = true) (h_sheaf : P .sheaf = true) (h_dom : P .dom = true)
    (h_pins : P .pins = true) (h_boot : P .boot = true) (h_tdi : P .tdi = true) (h_ac : P .ac = true) (h_vt : P .vt = true) {s : State} (Ks : Q s)
    : Q (powerOff s) := by
  unfold powerOff
  exact alwaysOn_keeps K h_clk h_rcv h_icu h_obs h_sen h_cex h_xlt h_srg h_ods h_kst h_engKeys h_kwe h_pke h_ent h_atu h_lcc h_mem h_link h_sheaf h_dom h_pins h_boot h_tdi h_ac h_vt Ks

theorem vaultCollapse_keeps (K : Keeps P Q) (h_clk : P .clk = true) (h_rcv : P .rcv = true) (h_icu : P .icu = true) (h_obs : P .obs = true)
    (h_cex : P .cex = true) (h_srg : P .srg = true) (h_ods : P .ods = true) (h_vault : P .vault = true) (h_kst : P .kst = true)
    (h_engKeys : P .engKeys = true) (h_kwe : P .kwe = true) (h_pke : P .pke = true) (h_ent : P .ent = true) (h_mem : P .mem = true)
    (h_link : P .link = true) (h_sheaf : P .sheaf = true) (h_dom : P .dom = true) (h_pins : P .pins = true) (h_tdi : P .tdi = true)
    (h_ac : P .ac = true) (h_vt : P .vt = true) (h_out : P .out = true) {s : State} (Ks : Q s) : Q (vaultCollapse s) := by
  unfold vaultCollapse
  extract_lets +onlyGivenNames x1 x2
  have Kx2 : Q x2 := Keeps.ite (K.vault h_vault Ks) (recordTamper_keeps K h_vault Ks)
  clear_value x2
  extract_lets +onlyGivenNames x3
  have Kx3 : Q x3 := clearVolatileKeys_keeps K h_rcv h_icu h_obs h_cex h_srg h_ods h_kst h_engKeys h_kwe h_pke h_ent h_mem h_link h_sheaf h_dom h_pins h_tdi h_ac h_vt h_out (clearRoot_keeps K h_vault Kx2)
  clear_value x3
  extract_lets +onlyGivenNames x4 x5
  have Kx5 : Q x5 := tamperRecords_keeps K h_rcv h_icu h_obs h_cex h_out (K.vault h_vault Kx3)
  clear_value x5
  exact updAlarm_keeps K h_pins (K.upd Kx5 (h_clk := .inr h_clk) (h_vault := .inr h_vault))

theorem execRailLoss_keeps (K : Keeps P Q) (h_clk : P .clk = true) (h_rcv : P .rcv = true) (h_icu : P .icu = true) (h_obs : P .obs = true)
    (h_sen : P .sen = true) (h_cex : P .cex = true) (h_xlt : P .xlt = true) (h_srg : P .srg = true) (h_ods : P .ods = true)
    (h_vault : P .vault = true) (h_kst : P .kst = true) (h_engKeys : P .engKeys = true) (h_kwe : P .kwe = true) (h_pke : P .pke = true)
    (h_ent : P .ent = true) (h_atu : P .atu = true) (h_lcc : P .lcc = true) (h_mem : P .mem = true) (h_link : P .link = true)
    (h_sheaf : P .sheaf = true) (h_dom : P .dom = true) (h_pins : P .pins = true) (h_boot : P .boot = true) (h_tdi : P .tdi = true)
    (h_ac : P .ac = true) (h_vt : P .vt = true) (h_out : P .out = true) {rail : BitVec 3} {s : State} (Ks : Q s)
    : KeepsBy Q (execRailLoss rail s) := by
  unfold execRailLoss
  refine KeepsBy.of ?_
  extract_lets +onlyGivenNames x1
  refine Keeps.ite Ks ?_
  extract_lets +onlyGivenNames x2
  have Kx2 : Q x2 := setRail_keeps K h_pins Ks
  clear_value x2
  refine Keeps.ite (powerOff_keeps K h_clk h_rcv h_icu h_obs h_sen h_cex h_xlt h_srg h_ods h_kst h_engKeys h_kwe h_pke h_ent h_atu h_lcc h_mem h_link h_sheaf h_dom h_pins h_boot h_tdi h_ac h_vt Kx2) ?_
  refine Keeps.ite (K.pins h_pins Kx2) ?_
  refine Keeps.ite (Keeps.ite Kx2 (vaultCollapse_keeps K h_clk h_rcv h_icu h_obs h_cex h_srg h_ods h_vault h_kst h_engKeys h_kwe h_pke h_ent h_mem h_link h_sheaf h_dom h_pins h_tdi h_ac h_vt h_out Kx2)) ?_
  refine Keeps.ite ?_ Kx2
  extract_lets +onlyGivenNames x3 x4
  have Kx4 : Q x4 := K.vault h_vault Kx2
  clear_value x4
  exact Keeps.ite (vaultTrigger_keeps K h_vault Kx4) (vaultCollapse_keeps K h_clk h_rcv h_icu h_obs h_cex h_srg h_ods h_vault h_kst h_engKeys h_kwe h_pke h_ent h_mem h_link h_sheaf h_dom h_pins h_tdi h_ac h_vt h_out Kx4)

theorem chipResetCause_keeps (K : Keeps P Q) (h_clk : P .clk = true) (h_rcv : P .rcv = true) (h_icu : P .icu = true) (h_obs : P .obs = true)
    (h_sen : P .sen = true) (h_cex : P .cex = true) (h_xlt : P .xlt = true) (h_srg : P .srg = true) (h_ods : P .ods = true) (h_kst : P .kst = true)
    (h_engKeys : P .engKeys = true) (h_kwe : P .kwe = true) (h_pke : P .pke = true) (h_ent : P .ent = true) (h_atu : P .atu = true)
    (h_lcc : P .lcc = true) (h_mem : P .mem = true) (h_link : P .link = true) (h_sheaf : P .sheaf = true) (h_dom : P .dom = true)
    (h_pins : P .pins = true) (h_boot : P .boot = true) (h_tdi : P .tdi = true) (h_ac : P .ac = true) (h_vt : P .vt = true) {cause : Nat} {s : State}
    (Ks : Q s) : Q (chipResetCause cause s) := by
  unfold chipResetCause
  extract_lets +onlyGivenNames x1
  have Kx1 : Q x1 := chipReset_keeps K h_clk h_rcv h_icu h_obs h_sen h_cex h_xlt h_srg h_ods h_kst h_engKeys h_kwe h_pke h_ent h_atu h_lcc h_mem h_link h_sheaf h_dom h_pins h_boot h_tdi h_ac h_vt Ks
  clear_value x1
  exact K.rcv h_rcv (fun h => h) Kx1

theorem startVault_keeps (K : Keeps P Q) (h_clk : P .clk = true) {s : State} (Ks : Q s) : Q (startVault s) := by
  unfold startVault
  exact Keeps.ite Ks (K.clk h_clk Ks)

theorem execVaonRamp_keeps (K : Keeps P Q) (h_clk : P .clk = true) (h_sen : P .sen = true) (h_vault : P .vault = true) (h_lcc : P .lcc = true)
    (h_pins : P .pins = true) {mv : BitVec 16} {s : State} (Ks : Q s) : KeepsBy Q (execVaonRamp mv s) := by
  unfold execVaonRamp
  refine KeepsBy.of ?_
  refine Keeps.ite Ks ?_
  extract_lets +onlyGivenNames x1
  have Kx1 : Q x1 := startVault_keeps K h_clk (setRail_keeps K h_pins Ks)
  clear_value x1
  extract_lets +onlyGivenNames x2
  exact updAlarm_keeps K h_pins (K.upd Kx1 (h_sen := .inr h_sen) (h_vault := .inr h_vault) (h_lcc := .inr ⟨h_lcc, FusesKept.of_eq rfl rfl rfl rfl⟩) (h_pins := .inr h_pins))

theorem execStrapSample_keeps (K : Keeps P Q) (h_pins : P .pins = true) {straps : List (BitVec 8)} {s : State} (Ks : Q s)
    : KeepsBy Q (execStrapSample straps s) := by
  unfold execStrapSample
  refine KeepsBy.of ?_
  refine Keeps.ite Ks ?_
  extract_lets +onlyGivenNames x1
  exact K.pins h_pins Ks

theorem requestPowerCycle_keeps (K : Keeps P Q) (h_rcv : P .rcv = true) (h_icu : P .icu = true) (h_obs : P .obs = true) (h_pins : P .pins = true)
    (h_out : P .out = true) {s : State} (Ks : Q s) : Q (requestPowerCycle s) := by
  unfold requestPowerCycle
  extract_lets +onlyGivenNames x1 x2 x3
  have Kx3 : Q x3 := K.upd Ks (h_rcv := .inr ⟨h_rcv, fun h => h⟩) (h_pins := .inr h_pins)
  clear_value x3
  exact logRung_keeps K h_rcv h_icu h_obs h_out (State.emit_keeps K h_out Kx3)

theorem execVbatRamp_keeps (K : Keeps P Q) (h_clk : P .clk = true) (h_vault : P .vault = true) (h_pins : P .pins = true) {mv : BitVec 16} {s : State}
    (Ks : Q s) : KeepsBy Q (execVbatRamp mv s) := by
  unfold execVbatRamp
  exact KeepsBy.of (startVault_keeps K h_clk (setVbat_keeps K h_vault h_pins Ks))

end Sys2Proof.Machine
end

