-- ==== Sys2Proof/Laws/KeepsLifecycle.lean ====
section
/-!
SUPPORT. What the operations of Machine/Lifecycle.lean keep, and which parts they may change (Laws/Keeps.lean).
-/

set_option Elab.async false
namespace Sys2Proof.Machine

variable {P : Part → Bool} {Q : State → Prop}

theorem debugRequest_keeps (K : Keeps P Q) (h_rcv : P .rcv = true) (h_icu : P .icu = true) (h_obs : P .obs = true) (h_cex : P .cex = true)
    (h_kst : P .kst = true) (h_engKeys : P .engKeys = true) (h_kwe : P .kwe = true) (h_pke : P .pke = true) (h_ent : P .ent = true)
    (h_atu : P .atu = true) (h_lcc : P .lcc = true) (h_mem : P .mem = true) (h_link : P .link = true) (h_sheaf : P .sheaf = true)
    (h_ac : P .ac = true) (h_vt : P .vt = true) (h_free : P .free = true) (h_out : P .out = true) {scopes : Nat} {s : State} (Ks : Q s)
    : Q (debugRequest scopes s) := by
  unfold debugRequest
  extract_lets +onlyGivenNames x1 x2
  have Kx2 : ∀ b0 b1, Q b1 → Q (x2 b0 b1) := by
    intro b3 b4 b5
    unfold x2
    exact K.lcc h_lcc (FusesKept.of_eq rfl rfl rfl rfl) b5
  clear_value x2
  refine Keeps.ite (Kx2 _ _ Ks) ?_
  refine Keeps.ite (Kx2 _ _ Ks) ?_
  refine Keeps.ite (Kx2 _ _ Ks) ?_
  refine Keeps.ite (Kx2 _ _ Ks) ?_
  refine Keeps.ite (Kx2 _ _ (openScopes_keeps K h_rcv h_icu h_obs h_cex h_kst h_engKeys h_kwe h_pke h_atu h_lcc h_mem h_link h_sheaf h_ac h_vt h_out Ks)) ?_
  split
  rename_i y6 y7 y8 y9
  have Ky8 : Q y8 := Keeps.snd y9 (drbgBits_keeps K h_ent h_free Ks)
  extract_lets +onlyGivenNames x10
  exact Kx2 _ _ (K.lcc h_lcc (FusesKept.of_eq rfl rfl rfl rfl) Ky8)

theorem debugRequestWrite_keeps (K : Keeps P Q) (h_rcv : P .rcv = true) (h_icu : P .icu = true) (h_obs : P .obs = true) (h_cex : P .cex = true)
    (h_kst : P .kst = true) (h_engKeys : P .engKeys = true) (h_kwe : P .kwe = true) (h_pke : P .pke = true) (h_ent : P .ent = true)
    (h_atu : P .atu = true) (h_lcc : P .lcc = true) (h_mem : P .mem = true) (h_link : P .link = true) (h_sheaf : P .sheaf = true)
    (h_ac : P .ac = true) (h_vt : P .vt = true) (h_free : P .free = true) (h_out : P .out = true) {scopes : BitVec 8} {s : State} (Ks : Q s)
    : Q (debugRequestWrite scopes s).1 := by
  unfold debugRequestWrite
  exact Keeps.p1 (debugRequest_keeps K h_rcv h_icu h_obs h_cex h_kst h_engKeys h_kwe h_pke h_ent h_atu h_lcc h_mem h_link h_sheaf h_ac h_vt h_free h_out Ks)

theorem lcRequest_keeps (K : Keeps P Q) (h_lcc : P .lcc = true) {req : Bytes} {s : State} (Ks : Q s) : Q (lcRequest req s) := by
  unfold lcRequest
  extract_lets +onlyGivenNames x1
  exact Keeps.ite (K.lcc h_lcc (FusesKept.of_eq rfl rfl rfl rfl) Ks) (K.lcc h_lcc (FusesKept.of_eq rfl rfl rfl rfl) Ks)

theorem debugResponse_keeps (K : Keeps P Q) (h_rcv : P .rcv = true) (h_icu : P .icu = true) (h_obs : P .obs = true) (h_cex : P .cex = true)
    (h_kst : P .kst = true) (h_engKeys : P .engKeys = true) (h_kwe : P .kwe = true) (h_pke : P .pke = true) (h_atu : P .atu = true)
    (h_lcc : P .lcc = true) (h_mem : P .mem = true) (h_link : P .link = true) (h_sheaf : P .sheaf = true) (h_ac : P .ac = true) (h_vt : P .vt = true)
    (h_out : P .out = true) {v : Bytes} {s : State} (Ks : Q s) : Q (debugResponse v s) := by
  unfold debugResponse
  extract_lets +onlyGivenNames x1
  have Kx1 : ∀ b0 b1, Q b1 → Q (x1 b0 b1) := by
    intro b2 b3 b4
    unfold x1
    exact K.lcc h_lcc (FusesKept.of_eq rfl rfl rfl rfl) b4
  clear_value x1
  refine Keeps.ite (Kx1 _ _ Ks) ?_
  refine Keeps.ite (Kx1 _ _ Ks) ?_
  extract_lets +onlyGivenNames x5 x6
  have Kx6 : Q x6 := K.lcc h_lcc (FusesKept.of_eq rfl rfl rfl rfl) Ks
  clear_value x6
  extract_lets +onlyGivenNames x7
  exact Keeps.ite (Kx1 _ _ (openScopes_keeps K h_rcv h_icu h_obs h_cex h_kst h_engKeys h_kwe h_pke h_atu h_lcc h_mem h_link h_sheaf h_ac h_vt h_out Kx6)) (Kx1 _ _ Kx6)

theorem debugResponseWrite_keeps (K : Keeps P Q) (h_rcv : P .rcv = true) (h_icu : P .icu = true) (h_obs : P .obs = true) (h_cex : P .cex = true)
    (h_kst : P .kst = true) (h_engKeys : P .engKeys = true) (h_kwe : P .kwe = true) (h_pke : P .pke = true) (h_atu : P .atu = true)
    (h_lcc : P .lcc = true) (h_mem : P .mem = true) (h_link : P .link = true) (h_sheaf : P .sheaf = true) (h_ac : P .ac = true) (h_vt : P .vt = true)
    (h_out : P .out = true) {value : Bytes} {s : State} (Ks : Q s) : Q (debugResponseWrite value s).1 := by
  unfold debugResponseWrite
  exact Keeps.p1 (debugResponse_keeps K h_rcv h_icu h_obs h_cex h_kst h_engKeys h_kwe h_pke h_atu h_lcc h_mem h_link h_sheaf h_ac h_vt h_out Ks)

theorem lcTransitionWrite_keeps (K : Keeps P Q) (h_lcc : P .lcc = true) {value : Bytes} {s : State} (Ks : Q s) : Q (lcTransitionWrite value s).1 := by
  unfold lcTransitionWrite
  exact Keeps.ite1 Ks (Keeps.p1 (lcRequest_keeps K h_lcc Ks))

theorem vaultProvision_keeps (K : Keeps P Q) (h_vault : P .vault = true) (h_ent : P .ent = true) (h_lcc : P .lcc = true) (h_pins : P .pins = true)
    (h_free : P .free = true) {s : State} (Ks : Q s) : Q (vaultProvision s).1 := by
  unfold vaultProvision
  exact Keeps.ite1 Ks (Keeps.ite1 (Keeps.p1 (provisionRoot_keeps K h_vault h_ent h_pins h_free Ks)) (Keeps.p1 (K.lcc h_lcc (FusesKept.of_eq rfl rfl rfl rfl) Ks)))

theorem vaultProvisionWrite_keeps (K : Keeps P Q) (h_vault : P .vault = true) (h_ent : P .ent = true) (h_lcc : P .lcc = true)
    (h_pins : P .pins = true) (h_free : P .free = true) {value : Bool} {s : State} (Ks : Q s) : Q (vaultProvisionWrite value s).1 := by
  unfold vaultProvisionWrite
  exact Keeps.ite1 (vaultProvision_keeps K h_vault h_ent h_lcc h_pins h_free Ks) Ks

theorem execVaultProvision_keeps (K : Keeps P Q) (h_ods : P .ods = true) (h_vault : P .vault = true) (h_ent : P .ent = true) (h_lcc : P .lcc = true)
    (h_pins : P .pins = true) (h_free : P .free = true) (h_out : P .out = true) {who : Principal} {value : Bool} {s : State} (Ks : Q s)
    : KeepsBy Q (execVaultProvision who value s) := by
  unfold execVaultProvision
  exact KeepsBy.of (dictWrite_keeps K h_ods h_out Ks (fun b1 h2 => vaultProvisionWrite_keeps K h_vault h_ent h_lcc h_pins h_free h2))

theorem retryProvision_keeps (K : Keeps P Q) (h_rcv : P .rcv = true) (h_icu : P .icu = true) (h_obs : P .obs = true) (h_cex : P .cex = true)
    (h_srg : P .srg = true) (h_ods : P .ods = true) (h_vault : P .vault = true) (h_kst : P .kst = true) (h_engKeys : P .engKeys = true)
    (h_kwe : P .kwe = true) (h_pke : P .pke = true) (h_ent : P .ent = true) (h_lcc : P .lcc = true) (h_mem : P .mem = true) (h_link : P .link = true)
    (h_sheaf : P .sheaf = true) (h_dom : P .dom = true) (h_pins : P .pins = true) (h_tdi : P .tdi = true) (h_ac : P .ac = true) (h_vt : P .vt = true)
    (h_free : P .free = true) (h_out : P .out = true) {s : State} (Ks : Q s) : Q (retryProvision s) := by
  unfold retryProvision
  extract_lets +onlyGivenNames x1
  have Kx1 : Q x1 := runWipe_keeps K h_rcv h_icu h_obs h_cex h_srg h_ods h_vault h_kst h_engKeys h_kwe h_pke h_ent h_lcc h_mem h_link h_sheaf h_dom h_pins h_tdi h_ac h_vt h_free h_out Ks
  clear_value x1
  refine Keeps.ite ?_ Kx1
  extract_lets +onlyGivenNames x2
  have Kx2 : Q x2 := provisionRoot_keeps K h_vault h_ent h_pins h_free Kx1
  clear_value x2
  exact K.lcc h_lcc (FusesKept.of_eq rfl rfl rfl rfl) Kx2

theorem execLcTransition_keeps (K : Keeps P Q) (h_ods : P .ods = true) (h_lcc : P .lcc = true) (h_out : P .out = true) {via : Access} {value : Bytes}
    {s : State} (Ks : Q s) : KeepsBy Q (execLcTransition via value s) := by
  unfold execLcTransition
  refine KeepsBy.of ?_
  split
  · exact dictWrite_keeps K h_ods h_out Ks (fun b1 h2 => lcTransitionWrite_keeps K h_lcc h2)
  · exact tapAccess_keeps K h_lcc (fun b3 h4 => lcTransitionWrite_keeps K h_lcc h4) Ks

theorem program_keeps (K : Keeps P Q) (h_lcc : P .lcc = true) {w bits : Nat} {s : State} (Ks : Q s) : Q (program w bits s) := by
  refine K.lcc h_lcc ⟨fun i => ?_, fun _ e => e, fun _ e => e, fun _ e => e⟩ Ks
  show s.lcc.words.get i &&& (s.lcc.words.upd w _).get i = s.lcc.words.get i
  rw [Tbl.get_upd]
  split
  · rename_i hi
    rw [hi]
    ext j hj
    simp only [BitVec.getElem_and, BitVec.getElem_or]
    cases (s.lcc.words.get w)[j] <;> rfl
  · exact BitVec.and_self

theorem execLcOtpProgramDone_keeps (K : Keeps P Q) (h_rcv : P .rcv = true) (h_icu : P .icu = true) (h_obs : P .obs = true) (h_cex : P .cex = true)
    (h_srg : P .srg = true) (h_ods : P .ods = true) (h_vault : P .vault = true) (h_kst : P .kst = true) (h_engKeys : P .engKeys = true)
    (h_kwe : P .kwe = true) (h_pke : P .pke = true) (h_ent : P .ent = true) (h_lcc : P .lcc = true) (h_mem : P .mem = true) (h_link : P .link = true)
    (h_sheaf : P .sheaf = true) (h_dom : P .dom = true) (h_pins : P .pins = true) (h_tdi : P .tdi = true) (h_ac : P .ac = true) (h_vt : P .vt = true)
    (h_free : P .free = true) (h_out : P .out = true) {s : State} (Ks : Q s) : KeepsBy Q (execLcOtpProgramDone s) := by
  unfold execLcOtpProgramDone
  refine KeepsBy.of ?_
  extract_lets +onlyGivenNames x1
  refine Keeps.ite ?_ ?_
  · extract_lets +onlyGivenNames x2
    have Kx2 : Q x2 := program_keeps K h_lcc Ks
    clear_value x2
    exact runWipe_keeps K h_rcv h_icu h_obs h_cex h_srg h_ods h_vault h_kst h_engKeys h_kwe h_pke h_ent h_lcc h_mem h_link h_sheaf h_dom h_pins h_tdi h_ac h_vt h_free h_out (K.lcc h_lcc (FusesKept.of_eq rfl rfl rfl rfl) Kx2)
  · refine Keeps.ite ?_ Ks
    extract_lets +onlyGivenNames x3
    have Kx3 : Q x3 := program_keeps K h_lcc Ks
    clear_value x3
    exact requestChipReset_keeps K h_rcv h_icu h_obs h_cex h_srg h_ods h_kst h_engKeys h_kwe h_pke h_ent h_mem h_link h_sheaf h_dom h_pins h_ac h_vt h_out (K.lcc h_lcc (FusesKept.of_eq rfl rfl rfl rfl) Kx3)

theorem execDebugResponse_keeps (K : Keeps P Q) (h_rcv : P .rcv = true) (h_icu : P .icu = true) (h_obs : P .obs = true) (h_cex : P .cex = true)
    (h_ods : P .ods = true) (h_kst : P .kst = true) (h_engKeys : P .engKeys = true) (h_kwe : P .kwe = true) (h_pke : P .pke = true)
    (h_atu : P .atu = true) (h_lcc : P .lcc = true) (h_mem : P .mem = true) (h_link : P .link = true) (h_sheaf : P .sheaf = true)
    (h_ac : P .ac = true) (h_vt : P .vt = true) (h_out : P .out = true) {who : Principal} {value : Bytes} {s : State} (Ks : Q s)
    : KeepsBy Q (execDebugResponse who value s) := by
  unfold execDebugResponse
  exact KeepsBy.of (dictWrite_keeps K h_ods h_out Ks (fun b1 h2 => debugResponseWrite_keeps K h_rcv h_icu h_obs h_cex h_kst h_engKeys h_kwe h_pke h_atu h_lcc h_mem h_link h_sheaf h_ac h_vt h_out h2))

theorem execDebugRequest_keeps (K : Keeps P Q) (h_rcv : P .rcv = true) (h_icu : P .icu = true) (h_obs : P .obs = true) (h_cex : P .cex = true)
    (h_ods : P .ods = true) (h_kst : P .kst = true) (h_engKeys : P .engKeys = true) (h_kwe : P .kwe = true) (h_pke : P .pke = true)
    (h_ent : P .ent = true) (h_atu : P .atu = true) (h_lcc : P .lcc = true) (h_mem : P .mem = true) (h_link : P .link = true)
    (h_sheaf : P .sheaf = true) (h_ac : P .ac = true) (h_vt : P .vt = true) (h_free : P .free = true) (h_out : P .out = true) {who : Principal}
    {scopes : BitVec 8} {s : State} (Ks : Q s) : KeepsBy Q (execDebugRequest who scopes s) := by
  unfold execDebugRequest
  exact KeepsBy.of (dictWrite_keeps K h_ods h_out Ks (fun b1 h2 => debugRequestWrite_keeps K h_rcv h_icu h_obs h_cex h_kst h_engKeys h_kwe h_pke h_ent h_atu h_lcc h_mem h_link h_sheaf h_ac h_vt h_free h_out h2))

end Sys2Proof.Machine
end

