-- ==== Sys2Proof/Laws/KeepsObserve.lean ====
section
/-!
SUPPORT. What the operations of Machine/Observe.lean keep, and which parts they may change (Laws/Keeps.lean).
-/

set_option Elab.async false
namespace Sys2Proof.Machine

variable {P : Part → Bool} {Q : State → Prop}

theorem traceArm_keeps (K : Keeps P Q) (h_icu : P .icu = true) (h_obs : P .obs = true) (h_out : P .out = true) {on : Bool} {s : State} (Ks : Q s)
    : Q (traceArm on s) :=
  Keeps.ite (traceRec_keeps K h_icu h_obs h_out (K.obs h_obs (fun o => ⟨o.1, Nat.zero_le _, Nat.zero_le _⟩) Ks)) (K.obs h_obs (fun o => o) Ks)

theorem pcRecord_keeps (K : Keeps P Q) (h_icu : P .icu = true) (h_obs : P .obs = true) (h_out : P .out = true) {pair : Bool} {pc stall target : Nat}
    {s : State} (Ks : Q s) : Q (pcRecord pair pc stall target s) := by
  unfold pcRecord
  refine Keeps.ite Ks ?_
  extract_lets +onlyGivenNames x1 x2 x3
  have Kx3 : Q x3 := traceWatch_keeps K h_icu h_obs h_out Ks
  clear_value x3
  exact traceRec_keeps K h_icu h_obs h_out Kx3

theorem watchCounters_keeps (K : Keeps P Q) (h_icu : P .icu = true) (h_obs : P .obs = true) (h_out : P .out = true) {s : State} (Ks : Q s)
    : Q (watchCounters s) := by
  unfold watchCounters
  refine Keeps.foldl ?_ Ks
  intro b1 b2 h3
  extract_lets +onlyGivenNames x4 x5
  exact Keeps.ite (traceFire_keeps K h_icu h_obs h_out h3) h3

theorem execTracePcSample_keeps (K : Keeps P Q) (h_icu : P .icu = true) (h_obs : P .obs = true) (h_out : P .out = true)
    {pc : List (Bool × BitVec 64 × BitVec 2 × BitVec 16)} {s : State} (Ks : Q s) : KeepsBy Q (execTracePcSample pc s) := by
  unfold execTracePcSample
  exact KeepsBy.of (Keeps.ite Ks (Keeps.foldl (fun b1 b2 h3 => pcRecord_keeps K h_icu h_obs h_out h3) (watchCounters_keeps K h_icu h_obs h_out Ks)))

theorem traceMarkerWrite_keeps (K : Keeps P Q) (h_icu : P .icu = true) (h_obs : P .obs = true) (h_out : P .out = true) {marker value : BitVec 64}
    {s : State} (Ks : Q s) : Q (traceMarkerWrite marker value s).1 := by
  unfold traceMarkerWrite
  exact Keeps.ite1 Ks (Keeps.p1 (traceRec_keeps K h_icu h_obs h_out (traceWatch_keeps K h_icu h_obs h_out Ks)))

theorem execTraceMarker_keeps (K : Keeps P Q) (h_icu : P .icu = true) (h_obs : P .obs = true) (h_ods : P .ods = true) (h_out : P .out = true)
    {who : Principal} {marker value : BitVec 64} {s : State} (Ks : Q s) : KeepsBy Q (execTraceMarker who marker value s) := by
  unfold execTraceMarker
  exact KeepsBy.of (dictWrite_keeps K h_ods h_out Ks (fun b1 h2 => traceMarkerWrite_keeps K h_icu h_obs h_out h2))

theorem traceArmWrite_keeps (K : Keeps P Q) (h_icu : P .icu = true) (h_obs : P .obs = true) (h_out : P .out = true) {on : Bool} {s : State} (Ks : Q s)
    : Q (traceArmWrite on s).1 := by
  unfold traceArmWrite
  exact Keeps.ite1 (Keeps.p1 (traceArm_keeps K h_icu h_obs h_out Ks)) Ks

theorem execTraceArm_keeps (K : Keeps P Q) (h_icu : P .icu = true) (h_obs : P .obs = true) (h_ods : P .ods = true) (h_out : P .out = true)
    {who : Principal} {on : Bool} {s : State} (Ks : Q s) : KeepsBy Q (execTraceArm who on s) := by
  unfold execTraceArm
  exact KeepsBy.of (dictWrite_keeps K h_ods h_out Ks (fun b1 h2 => traceArmWrite_keeps K h_icu h_obs h_out h2))

theorem counterSnapshotWrite_keeps (K : Keeps P Q) (h_obs : P .obs = true) {value : Bool} {s : State} (Ks : Q s)
    : Q (counterSnapshotWrite value s).1 := by
  unfold counterSnapshotWrite
  exact Keeps.p1 (Keeps.ite (K.obs h_obs (fun h => h) Ks) Ks)

theorem execCounterSnapshot_keeps (K : Keeps P Q) (h_obs : P .obs = true) (h_ods : P .ods = true) (h_out : P .out = true) {who : Principal}
    {value : Bool} {s : State} (Ks : Q s) : KeepsBy Q (execCounterSnapshot who value s) := by
  unfold execCounterSnapshot
  exact KeepsBy.of (dictWrite_keeps K h_ods h_out Ks (fun b1 h2 => counterSnapshotWrite_keeps K h_obs h2))

theorem counterReset1_keeps (K : Keeps P Q) (h_rcv : P .rcv = true) (h_icu : P .icu = true) (h_obs : P .obs = true) (h_out : P .out = true) {i : Nat}
    {s : State} (Ks : Q s) : Q (counterReset1 i s) := by
  unfold counterReset1
  extract_lets c wrap o t
  have ht : Q t := K.obs h_obs (fun o => ⟨fun j => Tbl.all_set (p := fun (c : Nat × Nat) => c.2 ≤ 2 ^ 56 - 1) o.1 i (Nat.zero_le _) j, o.2⟩) Ks
  exact Keeps.ite (pend_keeps K h_rcv h_icu h_obs h_out ht) ht

theorem counterResetWrite_keeps (K : Keeps P Q) (h_rcv : P .rcv = true) (h_icu : P .icu = true) (h_obs : P .obs = true) (h_out : P .out = true)
    {bitmap : BitVec 96} {s : State} (Ks : Q s) : Q (counterResetWrite bitmap s).1 := by
  unfold counterResetWrite
  exact Keeps.p1 (Keeps.foldl (fun b1 b2 h3 => counterReset1_keeps K h_rcv h_icu h_obs h_out h3) Ks)

theorem execCounterReset_keeps (K : Keeps P Q) (h_rcv : P .rcv = true) (h_icu : P .icu = true) (h_obs : P .obs = true) (h_ods : P .ods = true)
    (h_out : P .out = true) {who : Principal} {bitmap : BitVec 96} {s : State} (Ks : Q s) : KeepsBy Q (execCounterReset who bitmap s) := by
  unfold execCounterReset
  exact KeepsBy.of (dictWrite_keeps K h_ods h_out Ks (fun b1 h2 => counterResetWrite_keeps K h_rcv h_icu h_obs h_out h2))

theorem traceTriggerWrite_keeps (K : Keeps P Q) (h_icu : P .icu = true) (h_obs : P .obs = true) (h_out : P .out = true) {value : Bool} {s : State} (Ks
    : Q s) : Q (traceTriggerWrite value s).1 := by
  unfold traceTriggerWrite
  exact Keeps.ite1 Ks (Keeps.p1 (Keeps.ite (traceFire_keeps K h_icu h_obs h_out Ks) Ks))

theorem execTraceTriggerNow_keeps (K : Keeps P Q) (h_icu : P .icu = true) (h_obs : P .obs = true) (h_ods : P .ods = true) (h_out : P .out = true)
    {who : Principal} {value : Bool} {s : State} (Ks : Q s) : KeepsBy Q (execTraceTriggerNow who value s) := by
  unfold execTraceTriggerNow
  exact KeepsBy.of (dictWrite_keeps K h_ods h_out Ks (fun b1 h2 => traceTriggerWrite_keeps K h_icu h_obs h_out h2))

end Sys2Proof.Machine
end

