-- ==== Sys2Proof/Laws/KeepsPlough.lean ====
section
/-!
SUPPORT. What the operations of Machine/Plough.lean keep, and which parts they may change (Laws/Keeps.lean).
-/

set_option Elab.async false
namespace Sys2Proof.Machine

variable {P : Part → Bool} {Q : State → Prop}

theorem completePlough_keeps (K : Keeps P Q) (h_rcv : P .rcv = true) (h_icu : P .icu = true) (h_obs : P .obs = true) (h_cex : P .cex = true)
    (h_srg : P .srg = true) (h_ods : P .ods = true) (h_kst : P .kst = true) (h_engKeys : P .engKeys = true) (h_kwe : P .kwe = true)
    (h_pke : P .pke = true) (h_ent : P .ent = true) (h_mem : P .mem = true) (h_link : P .link = true) (h_sheaf : P .sheaf = true)
    (h_dom : P .dom = true) (h_pins : P .pins = true) (h_ac : P .ac = true) (h_vt : P .vt = true) (h_out : P .out = true) {r : Nat} {p : Plough}
    {s : State} (Ks : Q s) : Q (completePlough r p s) := by
  unfold completePlough
  extract_lets +onlyGivenNames x1 x2 x3 x4
  have Kx4 : Q x4 := updRegion_keeps K h_mem Ks
  clear_value x4
  extract_lets +onlyGivenNames x5
  have Kx5 : Q x5 := zeroizeSlots_keeps K h_kst h_engKeys h_kwe Kx4
  clear_value x5
  extract_lets +onlyGivenNames x6
  have Kx6 : Q x6 := freePlough_keeps K h_engKeys h_mem (loadRegionKeys_keeps K h_engKeys h_kwe h_ent Kx5)
  clear_value x6
  extract_lets +onlyGivenNames x7 x8
  have Kx8 : Q x8 := K.mem h_mem Kx6
  clear_value x8
  exact pend_keeps K h_rcv h_icu h_obs h_out (settleReads_keeps K h_rcv h_icu h_obs h_cex h_srg h_ods h_kst h_engKeys h_kwe h_pke h_ent h_mem h_link h_sheaf h_dom h_pins h_ac h_vt h_out (settleKeyFences_keeps K h_cex (Keeps.foldl (fun b9 b10 h11 => finish_keeps K h_cex h11) Kx8)))

theorem startPlough_keeps (K : Keeps P Q) (h_rcv : P .rcv = true) (h_icu : P .icu = true) (h_obs : P .obs = true) (h_cex : P .cex = true)
    (h_engKeys : P .engKeys = true) (h_kwe : P .kwe = true) (h_ent : P .ent = true) (h_mem : P .mem = true) (h_out : P .out = true) {h : CmdHdr}
    {r epoch d w t : Nat} {s : State} (Ks : Q s) : Q (startPlough h r epoch d w t s) := by
  unfold startPlough
  extract_lets +onlyGivenNames x1 x2 x3 x4
  have Kx4 : Q x4 := loadRegionKeys_keeps K h_engKeys h_kwe h_ent Ks
  clear_value x4
  extract_lets +onlyGivenNames x5 x6
  have Kx6 : Q x6 := K.mem h_mem Kx4
  clear_value x6
  exact advance_keeps K h_rcv h_icu h_obs h_cex h_mem h_out (updRegion_keeps K h_mem Kx6)

theorem execPlough_keeps (K : Keeps P Q) (h_rcv : P .rcv = true) (h_icu : P .icu = true) (h_obs : P .obs = true) (h_cex : P .cex = true)
    (h_srg : P .srg = true) (h_engKeys : P .engKeys = true) (h_kwe : P .kwe = true) (h_ent : P .ent = true) (h_mem : P .mem = true)
    (h_out : P .out = true) {h : CmdHdr} {region : BitVec 16} {epoch : BitVec 32} {nextData nextTweak nextTag : BitVec 16} {s : State} (Ks : Q s)
    : KeepsBy Q (execPlough h region epoch nextData nextTweak nextTag s) := by
  unfold execPlough
  refine KeepsBy.of ?_
  refine cexRun_keeps K h_cex h_srg Ks ?_
  intro b1 h2
  extract_lets +onlyGivenNames x3
  split
  exact Keeps.ite (updPlough_keeps K h_mem h2) (checked_keeps K h_cex h2 (fun b4 h5 => startPlough_keeps K h_rcv h_icu h_obs h_cex h_engKeys h_kwe h_ent h_mem h_out h5))

theorem lockLine_keeps (K : Keeps P Q) (h_mem : P .mem = true) {r n : Nat} {cands : List Nat} {s : State} (Ks : Q s) : Q (lockLine r n cands s) := by
  unfold lockLine
  split
  · exact Ks
  · extract_lets +onlyGivenNames x1
    have Kx1 : Q x1 := Keeps.ite (Keeps.foldl (fun b2 b3 h4 => openLine_keeps K h_mem h4) Ks) Ks
    clear_value x1
    exact startRead_keeps K h_mem (updPlough_keeps K h_mem Kx1)

theorem execPloughLineMove_keeps (K : Keeps P Q) (h_rcv : P .rcv = true) (h_icu : P .icu = true) (h_obs : P .obs = true) (h_cex : P .cex = true)
    (h_srg : P .srg = true) (h_ods : P .ods = true) (h_kst : P .kst = true) (h_engKeys : P .engKeys = true) (h_kwe : P .kwe = true)
    (h_pke : P .pke = true) (h_ent : P .ent = true) (h_mem : P .mem = true) (h_link : P .link = true) (h_sheaf : P .sheaf = true)
    (h_dom : P .dom = true) (h_pins : P .pins = true) (h_ac : P .ac = true) (h_vt : P .vt = true) (h_out : P .out = true) {region : BitVec 12}
    {line : BitVec 33} {read : LineRead} {s : State} (Ks : Q s) : KeepsBy Q (execPloughLineMove region line read s) := by
  unfold execPloughLineMove
  refine KeepsBy.of ?_
  extract_lets +onlyGivenNames x1 x2 x3 x4
  split
  · exact Ks
  · refine Keeps.ite (returned_keeps K h_rcv h_icu h_obs h_cex h_srg h_ods h_kst h_engKeys h_kwe h_pke h_ent h_mem h_link h_sheaf h_dom h_pins h_ac h_vt h_out Ks) ?_
    refine Keeps.ite Ks ?_
    refine Keeps.ite (Keeps.foldl (fun b5 b6 h7 => fetchLine_keeps K h_mem h7) Ks) ?_
    split
    · exact fetchMissing_keeps K h_mem Ks
    · exact lockLine_keeps K h_mem Ks

theorem resumePloughs_keeps (K : Keeps P Q) (h_mem : P .mem = true) {s : State} (Ks : Q s) : Q (resumePloughs s) := by
  unfold resumePloughs
  exact K.mem h_mem Ks

theorem pausePlough_keeps (K : Keeps P Q) (h_rcv : P .rcv = true) (h_icu : P .icu = true) (h_obs : P .obs = true) (h_cex : P .cex = true)
    (h_mem : P .mem = true) (h_out : P .out = true) {r cause : Nat} {s : State} (Ks : Q s) : Q (pausePlough r cause s) := by
  unfold pausePlough
  split
  · exact Ks
  · refine Keeps.ite Ks ?_
    extract_lets +onlyGivenNames x1
    have Kx1 : Q x1 := Keeps.ite (Keeps.foldl (fun b2 b3 h4 => finish_keeps K h_cex h4) Ks) Ks
    clear_value x1
    exact settlePlough_keeps K h_rcv h_icu h_obs h_cex h_mem h_out (updPlough_keeps K h_mem Kx1)

theorem execPloughPause_keeps (K : Keeps P Q) (h_rcv : P .rcv = true) (h_icu : P .icu = true) (h_obs : P .obs = true) (h_cex : P .cex = true)
    (h_mem : P .mem = true) (h_out : P .out = true) {region : BitVec 12} {cause : BitVec 4} {s : State} (Ks : Q s)
    : KeepsBy Q (execPloughPause region cause s) := by
  unfold execPloughPause
  exact KeepsBy.of (pausePlough_keeps K h_rcv h_icu h_obs h_cex h_mem h_out Ks)

theorem execPloughComplete_keeps (K : Keeps P Q) (h_rcv : P .rcv = true) (h_icu : P .icu = true) (h_obs : P .obs = true) (h_cex : P .cex = true)
    (h_srg : P .srg = true) (h_ods : P .ods = true) (h_kst : P .kst = true) (h_engKeys : P .engKeys = true) (h_kwe : P .kwe = true)
    (h_pke : P .pke = true) (h_ent : P .ent = true) (h_mem : P .mem = true) (h_link : P .link = true) (h_sheaf : P .sheaf = true)
    (h_dom : P .dom = true) (h_pins : P .pins = true) (h_ac : P .ac = true) (h_vt : P .vt = true) (h_out : P .out = true) {region : BitVec 12}
    {s : State} (Ks : Q s) : KeepsBy Q (execPloughComplete region s) := by
  unfold execPloughComplete
  refine KeepsBy.of ?_
  extract_lets +onlyGivenNames x1 x2
  have Kx2 : Q x2 := advance_keeps K h_rcv h_icu h_obs h_cex h_mem h_out Ks
  clear_value x2
  split
  · exact Ks
  · exact Keeps.ite (completePlough_keeps K h_rcv h_icu h_obs h_cex h_srg h_ods h_kst h_engKeys h_kwe h_pke h_ent h_mem h_link h_sheaf h_dom h_pins h_ac h_vt h_out Kx2) Ks

theorem execEpochAged_keeps (K : Keeps P Q) (h_cex : P .cex = true) (h_mem : P .mem = true) {region : BitVec 12} {s : State} (Ks : Q s)
    : KeepsBy Q (execEpochAged region s) := by
  unfold execEpochAged
  refine KeepsBy.of ?_
  extract_lets +onlyGivenNames x1 x2 x3
  refine Keeps.ite Ks ?_
  extract_lets +onlyGivenNames x4
  exact raise_keeps K h_cex (updRegion_keeps K h_mem Ks)

end Sys2Proof.Machine
end

