-- ==== Sys2Proof/Laws/KeepsKill.lean ====
section
/-!
SUPPORT. What the operations of Machine/Kill.lean keep, and which parts they may change (Laws/Keeps.lean).
-/

set_option Elab.async false
namespace Sys2Proof.Machine

variable {P : Part → Bool} {Q : State → Prop}

theorem dropRequests_keeps (K : Keeps P Q) (h_kwe : P .kwe = true) (h_out : P .out = true) {c : Nat} {s : State} (Ks : Q s)
    : Q (dropRequests c s) := by
  unfold dropRequests
  extract_lets +onlyGivenNames x1
  exact Keeps.foldl (fun b2 b3 h4 => State.emit_keeps K h_out h4) (K.kwe h_kwe Ks)

theorem removeWork_keeps (K : Keeps P Q) (h_rcv : P .rcv = true) (h_icu : P .icu = true) (h_obs : P .obs = true) (h_cex : P .cex = true)
    (h_srg : P .srg = true) (h_kwe : P .kwe = true) (h_mem : P .mem = true) (h_link : P .link = true) (h_dom : P .dom = true) (h_out : P .out = true)
    {c : Nat} {but : Option CmdKey} {s : State} (Ks : Q s) : Q (removeWork c but s) := by
  unfold removeWork
  extract_lets +onlyGivenNames x1 x2 x3 x4 x5
  have Kx5 : Q x5 := Keeps.foldl (fun b6 b7 h8 => pausePlough_keeps K h_rcv h_icu h_obs h_cex h_mem h_out h8) Ks
  clear_value x5
  extract_lets +onlyGivenNames x9
  have Kx9 : Q x9 := dropRequests_keeps K h_kwe h_out (endAll_keeps K h_cex Kx5)
  clear_value x9
  extract_lets +onlyGivenNames x10
  have Kx10 : Q x10 := Keeps.foldl (fun b11 b12 h13 => updFlight_keeps K h_cex h13) Kx9
  clear_value x10
  extract_lets +onlyGivenNames x14 x15
  have Kx15 : Q x15 := K.srg h_srg Kx10
  clear_value x15
  exact settleFences_keeps K h_rcv h_icu h_obs h_cex h_srg h_mem h_link h_dom h_out (Keeps.foldl (fun b16 b17 h18 => unhalt_keeps K h_rcv h_cex h18) Kx15)

theorem breakContext_keeps (K : Keeps P Q) (h_cex : P .cex = true) (h_kst : P .kst = true) (h_engKeys : P .engKeys = true) (h_kwe : P .kwe = true)
    {sl c : Nat} {s : State} (Ks : Q s) : Q (breakContext sl c s) := by
  unfold breakContext
  extract_lets +onlyGivenNames x1
  have Kx1 : Q x1 := zeroizeSlots_keeps K h_kst h_engKeys h_kwe Ks
  clear_value x1
  refine Keeps.foldl ?_ Kx1
  intro b2 b3 h4
  extract_lets +onlyGivenNames x5
  exact Keeps.ite (wakeSync_keeps K h_cex (K.cex h_cex h4)) h4

theorem settleKills_keeps (K : Keeps P Q) (h_cex : P .cex = true) (h_kst : P .kst = true) (h_engKeys : P .engKeys = true) (h_kwe : P .kwe = true)
    {s : State} (Ks : Q s) : Q (settleKills s) := by
  unfold settleKills
  extract_lets +onlyGivenNames x1 x2 x3 x4 x5
  have Kx5 : Q x5 := K.cex h_cex Ks
  clear_value x5
  extract_lets +onlyGivenNames x6
  have Kx6 : Q x6 := by
    unfold x6
    refine Keeps.foldl ?_ Kx5
    intro b7 b8 h9
    split
    · exact breakContext_keeps K h_cex h_kst h_engKeys h_kwe h9
    · exact h9
  clear_value x6
  exact Keeps.foldl (fun b10 b11 h12 => finish_keeps K h_cex h12) Kx6

theorem killContext_keeps (K : Keeps P Q) (h_rcv : P .rcv = true) (h_icu : P .icu = true) (h_obs : P .obs = true) (h_cex : P .cex = true)
    (h_srg : P .srg = true) (h_kst : P .kst = true) (h_engKeys : P .engKeys = true) (h_kwe : P .kwe = true) (h_mem : P .mem = true)
    (h_link : P .link = true) (h_dom : P .dom = true) (h_out : P .out = true) {c : Nat} {key : Option CmdKey} {unit : Nat} {s : State} (Ks : Q s)
    : Q (killContext c key unit s) := by
  unfold killContext
  extract_lets +onlyGivenNames x1 x2 x3
  have Kx3 : Q x3 := K.cex h_cex Ks
  clear_value x3
  refine Keeps.ite Kx3 ?_
  extract_lets +onlyGivenNames x4 x5 x6
  have Kx6 : Q x6 := by
    unfold x6
    clear_value x4
    split
    · exact K.rcv h_rcv (fun h => h) Kx3
    · exact Kx3
  clear_value x6
  exact settleKills_keeps K h_cex h_kst h_engKeys h_kwe (removeWork_keeps K h_rcv h_icu h_obs h_cex h_srg h_kwe h_mem h_link h_dom h_out (logRung_keeps K h_rcv h_icu h_obs h_out Kx6))

end Sys2Proof.Machine
end

