-- ==== Sys2Proof/Laws/KeepsKeys.lean ====
section
/-!
SUPPORT. What the operations of Machine/Keys.lean keep, and which parts they may change (Laws/Keeps.lean).
-/

set_option Elab.async false
namespace Sys2Proof.Machine

variable {P : Part → Bool} {Q : State → Prop}

theorem execKeyGenerate_keeps (K : Keeps P Q) (h_rcv : P .rcv = true) (h_obs : P .obs = true) (h_cex : P .cex = true) (h_xlt : P .xlt = true)
    (h_srg : P .srg = true) (h_kst : P .kst = true) (h_kwe : P .kwe = true) (h_ent : P .ent = true) (h_free : P .free = true) {h : CmdHdr}
    {dst : BitVec 16} {usage opt type : BitVec 8} {wrapIdBva : BitVec 64} {x : Option XFault} {wrapId : BitVec 128} {s : State} (Ks : Q s)
    : KeepsBy Q (execKeyGenerate h dst usage opt type wrapIdBva x wrapId s) := by
  unfold execKeyGenerate
  refine KeepsBy.of ?_
  refine cexRun_keeps K h_cex h_srg Ks ?_
  intro b1 h2
  extract_lets +onlyGivenNames x3 x4
  refine checked_keeps K h_cex h2 ?_
  intro b5 h6
  refine kweChecked_keeps K h_cex h_kwe h6 ?_
  intro b7 h8
  split
  · exact xltFault_keeps K h_rcv h_obs h_cex h_xlt h8
  · split
    rename_i y9 y10 y11 y12
    have Ky11 : Q y11 := Keeps.snd y12 (keyBits_keeps K h_ent h_free h8)
    extract_lets +onlyGivenNames x13 x14
    exact finish_keeps K h_cex (kweDone_keeps K h_kwe h_ent (writeSlot_keeps K h_kst Ky11))

theorem execPkeComplete_keeps (K : Keeps P Q) (h_rcv : P .rcv = true) (h_icu : P .icu = true) (h_obs : P .obs = true) (h_srg : P .srg = true)
    (h_out : P .out = true) {unit : BitVec 2} {who : BitVec 5} {ns : BitVec 32} {s : State} (Ks : Q s)
    : KeepsBy Q (execPkeComplete unit who ns s) := by
  unfold execPkeComplete
  refine KeepsBy.of ?_
  extract_lets +onlyGivenNames x1
  have Kx1 : Q x1 := chargeEngine_keeps K h_srg (obsAdd_keeps K h_obs Ks)
  clear_value x1
  extract_lets +onlyGivenNames x2 x3
  have Kx3 : Q x3 := K.srg h_srg Kx1
  clear_value x3
  exact Keeps.ite Kx3 (pend_keeps K h_rcv h_icu h_obs h_out Kx3)

theorem execKeyZeroize_keeps (K : Keeps P Q) (h_cex : P .cex = true) (h_srg : P .srg = true) (h_kst : P .kst = true) (h_engKeys : P .engKeys = true)
    (h_kwe : P .kwe = true) (h_ent : P .ent = true) {h : CmdHdr} {slot : BitVec 16} {s : State} (Ks : Q s) : KeepsBy Q (execKeyZeroize h slot s) := by
  unfold execKeyZeroize
  exact KeepsBy.of (cexRun_keeps K h_cex h_srg Ks (fun b1 h2 => kweChecked_keeps K h_cex h_kwe h2 (fun b3 h4 => finish_keeps K h_cex (kweDone_keeps K h_kwe h_ent (zeroizeSlots_keeps K h_kst h_engKeys h_kwe h4)))))

theorem execCipherEncrypt_keeps (K : Keeps P Q) (h_rcv : P .rcv = true) (h_obs : P .obs = true) (h_cex : P .cex = true) (h_xlt : P .xlt = true)
    (h_srg : P .srg = true) (h_kwe : P .kwe = true) (h_ent : P .ent = true) (h_free : P .free = true) (h_out : P .out = true) {h : CmdHdr}
    {slot len aadLen : BitVec 16} {src dst ivBva : BitVec 64} {x : Option XFault} {data : Bytes} {s : State} (Ks : Q s)
    : KeepsBy Q (execCipherEncrypt h slot len aadLen src dst ivBva x data s) := by
  unfold execCipherEncrypt
  refine KeepsBy.of ?_
  refine cexRun_keeps K h_cex h_srg Ks ?_
  intro b1 h2
  refine checked_keeps K h_cex h2 ?_
  intro b3 h4
  refine kweChecked_keeps K h_cex h_kwe h4 ?_
  intro b5 h6
  split
  · exact xltFault_keeps K h_rcv h_obs h_cex h_xlt h6
  · split
    rename_i y7 y8 y9 y10
    have Ky9 : Q y9 := Keeps.snd y10 (drawBits_keeps K h_free h6)
    extract_lets +onlyGivenNames x11 x12 x13 x14 x15
    have Kx15 : Q x15 := State.emit_keeps K h_out (State.emit_keeps K h_out Ky9)
    clear_value x15
    exact finish_keeps K h_cex (kweDone_keeps K h_kwe h_ent Kx15)

theorem execEntRetryExpiry_keeps (K : Keeps P Q) (h_ent : P .ent = true) {s : State} (Ks : Q s) : KeepsBy Q (execEntRetryExpiry s) := by
  unfold execEntRetryExpiry
  exact KeepsBy.of (Keeps.ite (K.ent h_ent Ks) Ks)

theorem execEntStartupTestsDone_drbgStartUp_keeps (K : Keeps P Q) (h_ent : P .ent = true) (h_free : P .free = true) {s : State} (Ks : Q s)
    : Q (execEntStartupTestsDone.drbgStartUp s) := by
  unfold execEntStartupTestsDone.drbgStartUp
  exact Keeps.ite Ks (drbgInstantiate_keeps K h_ent h_free Ks)

theorem execEntStartupTestsDone_keeps (K : Keeps P Q) (h_ent : P .ent = true) (h_free : P .free = true) {s : State} (Ks : Q s)
    : KeepsBy Q (execEntStartupTestsDone s) := by
  unfold execEntStartupTestsDone
  exact KeepsBy.of (Keeps.ite (execEntStartupTestsDone_drbgStartUp_keeps K h_ent h_free (K.ent h_ent Ks)) Ks)

theorem kweStart_keeps (K : Keeps P Q) (h_kwe : P .kwe = true) (h_out : P .out = true) {a : Nat} {a1 : State} (Ka1 : Q a1) : Q (kweStart a a1) := by
  induction a generalizing a1 with
  | zero =>
    unfold kweStart
    exact Ka1
  | succ n ih =>
    unfold kweStart
    refine Keeps.ite Ka1 ?_
    split
    · exact Ka1
    · extract_lets +onlyGivenNames x1 x2
      have Kx2 : Q x2 := K.kwe h_kwe Ka1
      clear_value x2
      split
      · exact ih (State.emit_keeps K h_out (kweRefused_keeps K h_kwe Kx2))
      · exact K.kwe h_kwe Kx2

theorem execKweRequest_keeps (K : Keeps P Q) (h_kwe : P .kwe = true) (h_out : P .out = true) {who : BitVec 5} {op : KweOp} {src : BitVec 11}
    {dst : KweDst} {ctx : BitVec 16} {s : State} (Ks : Q s) : KeepsBy Q (execKweRequest who op src dst ctx s) := by
  unfold execKweRequest
  refine KeepsBy.of ?_
  refine Keeps.ite Ks ?_
  extract_lets +onlyGivenNames x1
  exact kweStart_keeps K h_kwe h_out (K.kwe h_kwe Ks)

theorem execKeyUnwrap_keeps (K : Keeps P Q) (h_rcv : P .rcv = true) (h_obs : P .obs = true) (h_cex : P .cex = true) (h_xlt : P .xlt = true)
    (h_srg : P .srg = true) (h_kst : P .kst = true) (h_kwe : P .kwe = true) (h_ent : P .ent = true) {h : CmdHdr} {dst wrapSlot : BitVec 16}
    {opt : BitVec 8} {blobBva wrapIdBva : BitVec 64} {x : Option XFault} {blob : Bytes} {wrapId : BitVec 128} {s : State} (Ks : Q s)
    : KeepsBy Q (execKeyUnwrap h dst wrapSlot opt blobBva wrapIdBva x blob wrapId s) := by
  unfold execKeyUnwrap
  refine KeepsBy.of ?_
  refine cexRun_keeps K h_cex h_srg Ks ?_
  intro b1 h2
  extract_lets +onlyGivenNames x3 x4
  refine checked_keeps K h_cex h2 ?_
  intro b5 h6
  refine kweChecked_keeps K h_cex h_kwe h6 ?_
  intro b7 h8
  split
  · exact xltFault_keeps K h_rcv h_obs h_cex h_xlt h8
  · split
    · exact finish_keeps K h_cex h8
    · split
      extract_lets +onlyGivenNames x9 x10
      have Kx10 : Q x10 := Keeps.ite (pkeDone_keeps K h_ent (pkeDone_keeps K h_ent h8)) h8
      clear_value x10
      exact Keeps.ite (finish_keeps K h_cex (kweDone_keeps K h_kwe h_ent Kx10)) (Keeps.ite (finish_keeps K h_cex (kweRefused_keeps K h_kwe Kx10)) (finish_keeps K h_cex (kweDone_keeps K h_kwe h_ent (writeSlot_keeps K h_kst Kx10))))

theorem execDrbgReseed_keeps (K : Keeps P Q) (h_rcv : P .rcv = true) (h_icu : P .icu = true) (h_obs : P .obs = true) (h_kwe : P .kwe = true)
    (h_ent : P .ent = true) (h_free : P .free = true) (h_out : P .out = true) {which : BitVec 2} {s : State} (Ks : Q s)
    : KeepsBy Q (execDrbgReseed which s) := by
  unfold execDrbgReseed
  exact KeepsBy.of (Keeps.ite Ks (Keeps.ite (pend_keeps K h_rcv h_icu h_obs h_out Ks) (Keeps.ite (drbgReseed_keeps K h_ent h_free Ks) (Keeps.ite (kweReseed_keeps K h_kwe h_ent Ks) (pkeReseed_keeps K h_ent Ks)))))

theorem execCipherDecrypt_keeps (K : Keeps P Q) (h_rcv : P .rcv = true) (h_obs : P .obs = true) (h_cex : P .cex = true) (h_xlt : P .xlt = true)
    (h_srg : P .srg = true) (h_kwe : P .kwe = true) (h_ent : P .ent = true) (h_out : P .out = true) {h : CmdHdr} {slot len aadLen : BitVec 16}
    {src dst ivBva : BitVec 64} {x : Option XFault} {data : Bytes} {iv : BitVec 96} {s : State} (Ks : Q s)
    : KeepsBy Q (execCipherDecrypt h slot len aadLen src dst ivBva x data iv s) := by
  unfold execCipherDecrypt
  refine KeepsBy.of ?_
  refine cexRun_keeps K h_cex h_srg Ks ?_
  intro b1 h2
  refine checked_keeps K h_cex h2 ?_
  intro b3 h4
  refine kweChecked_keeps K h_cex h_kwe h4 ?_
  intro b5 h6
  split
  · exact xltFault_keeps K h_rcv h_obs h_cex h_xlt h6
  · extract_lets +onlyGivenNames x7 x8
    exact Keeps.ite (finish_keeps K h_cex (kweDone_keeps K h_kwe h_ent (State.emit_keeps K h_out h6))) (finish_keeps K h_cex (kweDone_keeps K h_kwe h_ent h6))

theorem execPkVerify_keeps (K : Keeps P Q) (h_rcv : P .rcv = true) (h_obs : P .obs = true) (h_cex : P .cex = true) (h_xlt : P .xlt = true)
    (h_srg : P .srg = true) (h_ent : P .ent = true) {h : CmdHdr} {keyBva msgBva sigBva : BitVec 64} {msgLen : BitVec 32} {alg ctxLen : BitVec 8}
    {x : Option XFault} {key msg sig : Bytes} {s : State} (Ks : Q s)
    : KeepsBy Q (execPkVerify h keyBva msgBva sigBva msgLen alg ctxLen x key msg sig s) := by
  unfold execPkVerify
  refine KeepsBy.of ?_
  refine cexRun_keeps K h_cex h_srg Ks ?_
  intro b1 h2
  split
  refine checked_keeps K h_cex h2 ?_
  intro b3 h4
  split
  · exact xltFault_keeps K h_rcv h_obs h_cex h_xlt h4
  · exact finish_keeps K h_cex (pkeDone_keeps K h_ent h4)

theorem execEntHealthFailure_keeps (K : Keeps P Q) (h_rcv : P .rcv = true) (h_icu : P .icu = true) (h_obs : P .obs = true) (h_ent : P .ent = true)
    (h_out : P .out = true) {test : BitVec 2} {s : State} (Ks : Q s) : KeepsBy Q (execEntHealthFailure test s) := by
  unfold execEntHealthFailure
  refine KeepsBy.of ?_
  extract_lets +onlyGivenNames x1
  refine Keeps.ite Ks ?_
  extract_lets +onlyGivenNames x2 x3
  have Kx3 : Q x3 := K.ent h_ent Ks
  clear_value x3
  exact pend_keeps K h_rcv h_icu h_obs h_out (logError_keeps K h_rcv h_icu h_obs h_out Kx3)

theorem kwePut_keeps (K : Keeps P Q) (h_kst : P .kst = true) (h_engKeys : P .engKeys = true) {r : KweReq} {key : BitVec 256}
    {attr : BitVec 64 → BitVec 64} {s : State} (Ks : Q s) : Q (kwePut r key attr s).1 := by
  unfold kwePut
  split
  · exact Keeps.ite1 Ks (Keeps.p1 (writeSlot_keeps K h_kst Ks))
  · exact Keeps.p1 (putEngKey_keeps K h_engKeys Ks)
  · exact Ks

theorem wrapSlotBlob_keeps (K : Keeps P Q) (h_ent : P .ent = true) (h_free : P .free = true) {sl src n sequence : Nat} {s : State} (Ks : Q s)
    : Q (wrapSlotBlob sl src n sequence s).2 := by
  unfold wrapSlotBlob
  split
  rename_i y1 y2 y3 y4
  have Ky3 : Q y3 := Keeps.snd y4 (drbgBits_keeps K h_ent h_free Ks)
  exact Ky3

theorem kweRun_keeps (K : Keeps P Q) (h_kst : P .kst = true) (h_engKeys : P .engKeys = true) (h_kwe : P .kwe = true) (h_ent : P .ent = true)
    (h_free : P .free = true) {r : KweReq} {s : State} (Ks : Q s) : Q (kweRun r s).1 := by
  unfold kweRun
  extract_lets +onlyGivenNames x1 x2
  have Kx2 : ∀ b0 b1, Q b1 → Q (x2 b0 b1).1 := by
    intro b3 b4 b5
    unfold x2
    extract_lets +onlyGivenNames x6
    have Kx6 : Q x6.1 := kwePut_keeps K h_kst h_engKeys b5
    clear_value x6
    exact Kx6
  clear_value x2
  split
  · exact Kx2 _ _ Ks
  · extract_lets +onlyGivenNames x7
    have Kx7 : Q x7.2 := wrapSlotBlob_keeps K h_ent h_free Ks
    clear_value x7
    exact Kx7
  · split
    · exact Ks
    · split
      extract_lets +onlyGivenNames x8
      refine Keeps.ite1 Ks ?_
      refine Keeps.ite1 Ks ?_
      extract_lets +onlyGivenNames x9
      have Kx9 : Q x9.1 := kwePut_keeps K h_kst h_engKeys Ks
      clear_value x9
      exact Kx9
  · exact Ks
  · exact Keeps.ite1 Ks Ks
  · split
    rename_i y10 y11 y12 y13
    have Ky12 : Q y12 := Keeps.snd y13 (keyBits_keeps K h_ent h_free Ks)
    exact Kx2 _ _ Ky12
  · exact Kx2 _ _ Ks
  · exact Keeps.p1 (zeroizeSlots_keeps K h_kst h_engKeys h_kwe Ks)

theorem execKweComplete_keeps (K : Keeps P Q) (h_rcv : P .rcv = true) (h_icu : P .icu = true) (h_obs : P .obs = true) (h_cex : P .cex = true)
    (h_srg : P .srg = true) (h_kst : P .kst = true) (h_engKeys : P .engKeys = true) (h_kwe : P .kwe = true) (h_ent : P .ent = true)
    (h_free : P .free = true) (h_out : P .out = true) {ns : BitVec 32} {s : State} (Ks : Q s) : KeepsBy Q (execKweComplete ns s) := by
  unfold execKweComplete
  refine KeepsBy.of ?_
  split
  · exact Ks
  · extract_lets +onlyGivenNames x1 x2
    have Kx2 : Q x2 := chargeEngine_keeps K h_srg (obsAdd_keeps K h_obs (K.kwe h_kwe Ks))
    clear_value x2
    extract_lets +onlyGivenNames x3
    have Kx3 : Q x3.1 := Keeps.ite1 Kx2 (kweRun_keeps K h_kst h_engKeys h_kwe h_ent h_free Kx2)
    clear_value x3
    extract_lets +onlyGivenNames x4
    have Kx4 : Q x4 := kweDone_keeps K h_kwe h_ent Kx3
    clear_value x4
    extract_lets +onlyGivenNames x5
    have Kx5 : Q x5 := Keeps.ite Kx4 (pend_keeps K h_rcv h_icu h_obs h_out Kx4)
    clear_value x5
    exact kweStart_keeps K h_kwe h_out (settleKills_keeps K h_cex h_kst h_engKeys h_kwe (State.emit_keeps K h_out Kx5))

theorem execPkHash_keeps (K : Keeps P Q) (h_rcv : P .rcv = true) (h_obs : P .obs = true) (h_cex : P .cex = true) (h_xlt : P .xlt = true)
    (h_srg : P .srg = true) (h_ent : P .ent = true) (h_out : P .out = true) {h : CmdHdr} {src len dst : BitVec 64} {alg : BitVec 8}
    {outLen : BitVec 16} {x : Option XFault} {data : Bytes} {s : State} (Ks : Q s) : KeepsBy Q (execPkHash h src len dst alg outLen x data s) := by
  unfold execPkHash
  refine KeepsBy.of ?_
  refine cexRun_keeps K h_cex h_srg Ks ?_
  intro b1 h2
  split
  refine checked_keeps K h_cex h2 ?_
  intro b3 h4
  split
  · exact xltFault_keeps K h_rcv h_obs h_cex h_xlt h4
  · exact finish_keeps K h_cex (pkeDone_keeps K h_ent (State.emit_keeps K h_out h4))

theorem execKeyDerive_keeps (K : Keeps P Q) (h_cex : P .cex = true) (h_srg : P .srg = true) (h_kst : P .kst = true) (h_kwe : P .kwe = true)
    (h_ent : P .ent = true) {h : CmdHdr} {src dst : BitVec 16} {label opt : BitVec 8} {region : BitVec 16} {id : BitVec 32} {s : State} (Ks : Q s)
    : KeepsBy Q (execKeyDerive h src dst label opt region id s) := by
  unfold execKeyDerive
  refine KeepsBy.of ?_
  refine cexRun_keeps K h_cex h_srg Ks ?_
  intro b1 h2
  split
  extract_lets +onlyGivenNames x3
  refine checked_keeps K h_cex h2 ?_
  intro b4 h5
  refine kweChecked_keeps K h_cex h_kwe h5 ?_
  intro b6 h7
  extract_lets +onlyGivenNames x8 x9 x10 x11
  exact finish_keeps K h_cex (kweDone_keeps K h_kwe h_ent (writeSlot_keeps K h_kst h7))

theorem execKeyWrap_keeps (K : Keeps P Q) (h_rcv : P .rcv = true) (h_obs : P .obs = true) (h_cex : P .cex = true) (h_xlt : P .xlt = true)
    (h_srg : P .srg = true) (h_kwe : P .kwe = true) (h_pke : P .pke = true) (h_ent : P .ent = true) (h_free : P .free = true) (h_out : P .out = true)
    {h : CmdHdr} {src wrapSlot : BitVec 16} {method : BitVec 8} {out rcptBva sequence : BitVec 64} {x : Option XFault} {rcpt : Bytes} {s : State} (Ks
    : Q s) : KeepsBy Q (execKeyWrap h src wrapSlot method out rcptBva sequence x rcpt s) := by
  unfold execKeyWrap
  refine KeepsBy.of ?_
  refine cexRun_keeps K h_cex h_srg Ks ?_
  intro b1 h2
  split
  refine checked_keeps K h_cex h2 ?_
  intro b3 h4
  refine kweChecked_keeps K h_cex h_kwe h4 ?_
  intro b5 h6
  split
  · exact xltFault_keeps K h_rcv h_obs h_cex h_xlt h6
  · split
    rename_i y7 y8 y9 y10
    have Ky9 : Q y9 := Keeps.snd y10 (drbgBits_keeps K h_ent h_free h6)
    extract_lets +onlyGivenNames x11 x12
    split
    rename_i y13 y14 y15 y16
    have Ky15 : Q y15 := Keeps.snd y16 (Keeps.ite2 Ky9 (sealHybrid_keeps K h_pke h_ent h_free Ky9))
    split
    · rename_i y17 y18
      have Ky15 : Q y15 := Keeps.snd y16 (Keeps.ite2 Ky9 (sealHybrid_keeps K h_pke h_ent h_free Ky9))
      exact finish_keeps K h_cex Ky15
    · rename_i y19 y20 y21
      have Ky15 : Q y15 := Keeps.snd y16 (Keeps.ite2 Ky9 (sealHybrid_keeps K h_pke h_ent h_free Ky9))
      exact finish_keeps K h_cex (kweDone_keeps K h_kwe h_ent (State.emit_keeps K h_out Ky15))

end Sys2Proof.Machine
end

