-- ==== Sys2Proof/Laws/KeepsDomain.lean ====
section
/-!
SUPPORT. What the operations of Machine/Domain.lean keep, and which parts they may change (Laws/Keeps.lean).
-/

set_option Elab.async false
namespace Sys2Proof.Machine

variable {P : Part → Bool} {Q : State → Prop}

theorem enterKeyed_keeps (K : Keeps P Q) (h_cex : P .cex = true) (h_kst : P .kst = true) (h_engKeys : P .engKeys = true) (h_kwe : P .kwe = true)
    (h_ent : P .ent = true) (h_mem : P .mem = true) (h_link : P .link = true) (h_dom : P .dom = true) (h_pins : P .pins = true) (h_ac : P .ac = true)
    (h_vt : P .vt = true) {sl : Nat} {s : State} (Ks : Q s) : Q (enterKeyed sl s) := by
  unfold enterKeyed
  extract_lets +onlyGivenNames x1 x2
  have Kx2 : Q x2 := Keeps.foldl (fun b3 b4 h5 => zeroizeSlot_keeps K h_kst h_engKeys h_kwe h5) Ks
  clear_value x2
  extract_lets +onlyGivenNames x6
  have Kx6 : Q x6 := updDom_keeps K h_dom Kx2
  clear_value x6
  refine setDomState_keeps K h_cex h_mem h_link h_dom h_pins h_ac h_vt ?_
  split
  · exact dlkEdge_keeps K h_engKeys h_kwe h_ent h_link Kx6
  · exact Kx6

theorem ackProgress_keeps (K : Keeps P Q) (h_rcv : P .rcv = true) (h_icu : P .icu = true) (h_obs : P .obs = true) (h_cex : P .cex = true)
    (h_srg : P .srg = true) (h_ods : P .ods = true) (h_kst : P .kst = true) (h_engKeys : P .engKeys = true) (h_kwe : P .kwe = true)
    (h_pke : P .pke = true) (h_ent : P .ent = true) (h_mem : P .mem = true) (h_link : P .link = true) (h_sheaf : P .sheaf = true)
    (h_dom : P .dom = true) (h_pins : P .pins = true) (h_ac : P .ac = true) (h_vt : P .vt = true) (h_out : P .out = true) {sl : Nat} {s : State} (Ks
    : Q s) : Q (ackProgress sl s) := by
  unfold ackProgress
  extract_lets +onlyGivenNames x1 x2
  refine Keeps.ite Ks ?_
  extract_lets +onlyGivenNames x3 x4 x5
  have Kx5 : Q x5 := updDom_keeps K h_dom Ks
  clear_value x5
  refine Keeps.ite ?_ ?_
  · refine Keeps.ite (originate_keeps K h_rcv h_icu h_obs h_cex h_srg h_ods h_kst h_engKeys h_kwe h_pke h_ent h_mem h_link h_sheaf h_dom h_pins h_ac h_vt h_out Kx5) ?_
    extract_lets +onlyGivenNames x6
    have Kx6 : Q x6 := enterKeyed_keeps K h_cex h_kst h_engKeys h_kwe h_ent h_mem h_link h_dom h_pins h_ac h_vt Kx5
    clear_value x6
    split
    · exact finish_keeps K h_cex (updDom_keeps K h_dom Kx6)
    · exact Kx6
  · split
    · exact enterKeyed_keeps K h_cex h_kst h_engKeys h_kwe h_ent h_mem h_link h_dom h_pins h_ac h_vt (sendDom_keeps K h_rcv h_icu h_obs h_cex h_srg h_link h_dom h_out Kx5)
    · exact Kx5

theorem updChild_keeps (K : Keeps P Q) (h_dom : P .dom = true) {sl m : Nat} {f : Child → Child} {s : State} (Ks : Q s) : Q (updChild sl m f s) := by
  unfold updChild
  exact updDom_keeps K h_dom Ks

theorem execHalyardAck_keeps (K : Keeps P Q) (h_rcv : P .rcv = true) (h_icu : P .icu = true) (h_obs : P .obs = true) (h_cex : P .cex = true)
    (h_srg : P .srg = true) (h_ods : P .ods = true) (h_kst : P .kst = true) (h_engKeys : P .engKeys = true) (h_kwe : P .kwe = true)
    (h_pke : P .pke = true) (h_ent : P .ent = true) (h_mem : P .mem = true) (h_link : P .link = true) (h_sheaf : P .sheaf = true)
    (h_dom : P .dom = true) (h_pins : P .pins = true) (h_ac : P .ac = true) (h_vt : P .vt = true) (h_out : P .out = true) {slc : BitVec 4}
    {h : DomHdr} {keyed : BitVec 16} {fails : List (BitVec 16 × BitVec 8)} {s : State} (Ks : Q s)
    : KeepsBy Q (execHalyardAck slc h keyed fails s) := by
  unfold execHalyardAck
  refine KeepsBy.of ?_
  refine takeDom_keeps K h_link h_dom Ks ?_
  intro b1 h2
  extract_lets +onlyGivenNames x3 x4 x5
  exact Keeps.ite (ackProgress_keeps K h_rcv h_icu h_obs h_cex h_srg h_ods h_kst h_engKeys h_kwe h_pke h_ent h_mem h_link h_sheaf h_dom h_pins h_ac h_vt h_out (dlkEdge_keeps K h_engKeys h_kwe h_ent h_link (updChild_keeps K h_dom h2))) h2

theorem goLive_keeps (K : Keeps P Q) (h_rcv : P .rcv = true) (h_icu : P .icu = true) (h_obs : P .obs = true) (h_cex : P .cex = true)
    (h_srg : P .srg = true) (h_mem : P .mem = true) (h_link : P .link = true) (h_dom : P .dom = true) (h_pins : P .pins = true) (h_ac : P .ac = true)
    (h_vt : P .vt = true) (h_out : P .out = true) {sl : Nat} {s : State} (Ks : Q s) : Q (goLive sl s) := by
  unfold goLive
  exact Keeps.foldl (fun b1 b2 h3 => sendDom_keeps K h_rcv h_icu h_obs h_cex h_srg h_link h_dom h_out h3) (setDomState_keeps K h_cex h_mem h_link h_dom h_pins h_ac h_vt Ks)

theorem execHalyardLive_keeps (K : Keeps P Q) (h_rcv : P .rcv = true) (h_icu : P .icu = true) (h_obs : P .obs = true) (h_cex : P .cex = true)
    (h_srg : P .srg = true) (h_mem : P .mem = true) (h_link : P .link = true) (h_dom : P .dom = true) (h_pins : P .pins = true) (h_ac : P .ac = true)
    (h_vt : P .vt = true) (h_out : P .out = true) {slc : BitVec 4} {h : DomHdr} {s : State} (Ks : Q s) : KeepsBy Q (execHalyardLive slc h s) := by
  unfold execHalyardLive
  refine KeepsBy.of ?_
  refine takeDom_keeps K h_link h_dom Ks ?_
  intro b1 h2
  extract_lets +onlyGivenNames x3
  exact Keeps.ite (goLive_keeps K h_rcv h_icu h_obs h_cex h_srg h_mem h_link h_dom h_pins h_ac h_vt h_out h2) h2

theorem execDomainResend_keeps (K : Keeps P Q) (h_rcv : P .rcv = true) (h_icu : P .icu = true) (h_obs : P .obs = true) (h_cex : P .cex = true)
    (h_srg : P .srg = true) (h_link : P .link = true) (h_dom : P .dom = true) (h_out : P .out = true) {slc : BitVec 4} {h : DomHdr} {type : BitVec 16}
    {sequence : BitVec 64} {s : State} (Ks : Q s) : KeepsBy Q (execDomainResend slc h type sequence s) := by
  unfold execDomainResend
  refine KeepsBy.of ?_
  refine takeDom_keeps K h_link h_dom Ks ?_
  intro b1 h2
  split
  · exact sendDom_keeps K h_rcv h_icu h_obs h_cex h_srg h_link h_dom h_out h2
  · exact h2

theorem domainPair_keeps (K : Keeps P Q) (h_pke : P .pke = true) (h_ent : P .ent = true) (h_free : P .free = true) {sl : Nat} {s : State} (Ks : Q s)
    : Q (domainPair sl s) := by
  unfold domainPair
  refine Keeps.ite Ks ?_
  split
  rename_i y1 y2 y3 y4
  have Ky3 : Q y3 := Keeps.snd y4 (keyBits_keeps K h_ent h_free Ks)
  extract_lets +onlyGivenNames x5
  exact pkeDone_keeps K h_ent (K.pke h_pke Ky3)

theorem leaveParent_keeps (K : Keeps P Q) (h_kst : P .kst = true) (h_engKeys : P .engKeys = true) (h_kwe : P .kwe = true) (h_link : P .link = true)
    {sl : Nat} {s : State} (Ks : Q s) : Q (leaveParent sl s) := by
  unfold leaveParent
  extract_lets +onlyGivenNames x1 x2
  have Kx2 : Q x2 := by
    unfold x2
    split
    · exact zeroizeSlot_keeps K h_kst h_engKeys h_kwe Ks
    · exact Ks
  clear_value x2
  split
  · exact closeEdge_keeps K h_engKeys h_link Kx2
  · exact Kx2

theorem exceptLate_keeps (K : Keeps P Q) (h_dom : P .dom = true) {sl : Nat} {s : State} (Ks : Q s) : Q (exceptLate sl s) := by
  unfold exceptLate
  exact Keeps.foldl (fun b1 b2 h3 => updChild_keeps K h_dom (updDom_keeps K h_dom h3)) Ks

theorem endForm_keeps (K : Keeps P Q) (h_cex : P .cex = true) {sl st n : Nat} {s : State} (Ks : Q s) : Q (endForm sl st n s) := by
  unfold endForm
  split
  · exact finish_keeps K h_cex Ks
  · exact Ks

theorem finishForm_keeps (K : Keeps P Q) (h_rcv : P .rcv = true) (h_icu : P .icu = true) (h_obs : P .obs = true) (h_cex : P .cex = true)
    (h_srg : P .srg = true) (h_ods : P .ods = true) (h_kst : P .kst = true) (h_engKeys : P .engKeys = true) (h_kwe : P .kwe = true)
    (h_pke : P .pke = true) (h_ent : P .ent = true) (h_mem : P .mem = true) (h_link : P .link = true) (h_sheaf : P .sheaf = true)
    (h_dom : P .dom = true) (h_pins : P .pins = true) (h_ac : P .ac = true) (h_vt : P .vt = true) (h_free : P .free = true) (h_out : P .out = true)
    {sl : Nat} {timedOut : Bool} {s : State} (Ks : Q s) : Q (finishForm sl timedOut s) := by
  unfold finishForm
  extract_lets +onlyGivenNames x1
  have Kx1 : Q x1 := exceptLate_keeps K h_dom Ks
  clear_value x1
  extract_lets +onlyGivenNames x2
  refine Keeps.ite (originate_keeps K h_rcv h_icu h_obs h_cex h_srg h_ods h_kst h_engKeys h_kwe h_pke h_ent h_mem h_link h_sheaf h_dom h_pins h_ac h_vt h_out (endForm_keeps K h_cex Kx1)) ?_
  extract_lets +onlyGivenNames x3 x4
  split
  rename_i y5 y6 y7 y8
  have Ky7 : Q y7 := Keeps.snd y8 (signed_keeps K h_ent h_free Kx1)
  extract_lets +onlyGivenNames x9 x10
  have Kx10 : Q x10 := updDom_keeps K h_dom Ky7
  clear_value x10
  refine Keeps.ite (originate_keeps K h_rcv h_icu h_obs h_cex h_srg h_ods h_kst h_engKeys h_kwe h_pke h_ent h_mem h_link h_sheaf h_dom h_pins h_ac h_vt h_out (endForm_keeps K h_cex Kx10)) ?_
  extract_lets +onlyGivenNames x11
  have Kx11 : Q x11 := updDom_keeps K h_dom (endForm_keeps K h_cex Kx10)
  clear_value x11
  exact raise_keeps K h_cex Kx11

theorem sendAnswer_keeps (K : Keeps P Q) (h_rcv : P .rcv = true) (h_icu : P .icu = true) (h_obs : P .obs = true) (h_cex : P .cex = true)
    (h_srg : P .srg = true) (h_ent : P .ent = true) (h_link : P .link = true) (h_dom : P .dom = true) (h_free : P .free = true)
    (h_out : P .out = true) {sl : Nat} {s : State} (Ks : Q s) : Q (sendAnswer sl s) := by
  unfold sendAnswer
  extract_lets +onlyGivenNames x1
  split
  · exact Ks
  · refine Keeps.ite (sendDom_keeps K h_rcv h_icu h_obs h_cex h_srg h_link h_dom h_out Ks) ?_
    refine Keeps.ite Ks ?_
    split
    rename_i y2 y3 y4 y5
    have Ky4 : Q y4 := Keeps.snd y5 (signed_keeps K h_ent h_free Ks)
    exact sendDom_keeps K h_rcv h_icu h_obs h_cex h_srg h_link h_dom h_out Ky4

theorem progress_keeps (K : Keeps P Q) (h_rcv : P .rcv = true) (h_icu : P .icu = true) (h_obs : P .obs = true) (h_cex : P .cex = true)
    (h_srg : P .srg = true) (h_ods : P .ods = true) (h_kst : P .kst = true) (h_engKeys : P .engKeys = true) (h_kwe : P .kwe = true)
    (h_pke : P .pke = true) (h_ent : P .ent = true) (h_mem : P .mem = true) (h_link : P .link = true) (h_sheaf : P .sheaf = true)
    (h_dom : P .dom = true) (h_pins : P .pins = true) (h_ac : P .ac = true) (h_vt : P .vt = true) (h_free : P .free = true) (h_out : P .out = true)
    {sl : Nat} {s : State} (Ks : Q s) : Q (progress sl s) := by
  unfold progress
  extract_lets +onlyGivenNames x1
  exact Keeps.ite Ks (Keeps.ite (finishForm_keeps K h_rcv h_icu h_obs h_cex h_srg h_ods h_kst h_engKeys h_kwe h_pke h_ent h_mem h_link h_sheaf h_dom h_pins h_ac h_vt h_free h_out Ks) (sendAnswer_keeps K h_rcv h_icu h_obs h_cex h_srg h_ent h_link h_dom h_free h_out (updDom_keeps K h_dom Ks)))

theorem challenge_keeps (K : Keeps P Q) (h_rcv : P .rcv = true) (h_icu : P .icu = true) (h_obs : P .obs = true) (h_cex : P .cex = true)
    (h_srg : P .srg = true) (h_link : P .link = true) (h_dom : P .dom = true) (h_out : P .out = true) {sl m : Nat} {adopted : Bool} {s : State} (Ks
    : Q s) : Q (challenge sl m adopted s) := by
  unfold challenge
  extract_lets +onlyGivenNames x1
  refine Keeps.ite Ks ?_
  extract_lets +onlyGivenNames x2
  exact sendDom_keeps K h_rcv h_icu h_obs h_cex h_srg h_link h_dom h_out (updDom_keeps K h_dom Ks)

theorem joinTree_keeps (K : Keeps P Q) (h_rcv : P .rcv = true) (h_icu : P .icu = true) (h_obs : P .obs = true) (h_cex : P .cex = true)
    (h_srg : P .srg = true) (h_ods : P .ods = true) (h_kst : P .kst = true) (h_engKeys : P .engKeys = true) (h_kwe : P .kwe = true)
    (h_pke : P .pke = true) (h_ent : P .ent = true) (h_mem : P .mem = true) (h_link : P .link = true) (h_sheaf : P .sheaf = true)
    (h_dom : P .dom = true) (h_pins : P .pins = true) (h_ac : P .ac = true) (h_vt : P .vt = true) (h_free : P .free = true) (h_out : P .out = true)
    {sl sender slot : Nat} {hs : BitVec 256} {ct policy nonce : Bytes} {s : State} (Ks : Q s) : Q (joinTree sl sender slot hs ct policy nonce s) := by
  unfold joinTree
  extract_lets +onlyGivenNames x1 x2
  have Kx2 : Q x2 := putKey_keeps K h_kst h_kwe h_ent Ks
  clear_value x2
  extract_lets +onlyGivenNames x3
  have Kx3 : Q x3 := openEdges_keeps K h_engKeys h_kwe h_ent h_link Kx2
  clear_value x3
  split
  rename_i y4 y5 y6 y7
  have Ky6 : Q y6 := Keeps.snd y7 (signed_keeps K h_ent h_free Kx3)
  extract_lets +onlyGivenNames x8
  have Kx8 : Q x8 := updDom_keeps K h_dom Ky6
  clear_value x8
  exact Keeps.ite (progress_keeps K h_rcv h_icu h_obs h_cex h_srg h_ods h_kst h_engKeys h_kwe h_pke h_ent h_mem h_link h_sheaf h_dom h_pins h_ac h_vt h_free h_out (Keeps.foldl (fun b9 b10 h11 => challenge_keeps K h_rcv h_icu h_obs h_cex h_srg h_link h_dom h_out h11) (updDom_keeps K h_dom Kx8))) (Keeps.ite Kx8 (sendAnswer_keeps K h_rcv h_icu h_obs h_cex h_srg h_ent h_link h_dom h_free h_out Kx8))

theorem processChallenge_keeps (K : Keeps P Q) (h_rcv : P .rcv = true) (h_icu : P .icu = true) (h_obs : P .obs = true) (h_cex : P .cex = true)
    (h_srg : P .srg = true) (h_ods : P .ods = true) (h_kst : P .kst = true) (h_engKeys : P .engKeys = true) (h_kwe : P .kwe = true)
    (h_pke : P .pke = true) (h_ent : P .ent = true) (h_mem : P .mem = true) (h_link : P .link = true) (h_sheaf : P .sheaf = true)
    (h_dom : P .dom = true) (h_pins : P .pins = true) (h_ac : P .ac = true) (h_vt : P .vt = true) (h_free : P .free = true) (h_out : P .out = true)
    {sl sender : Nat} {policy : Bytes} {listDigest : BitVec 384} {nonce e : Bytes} {certs : List Bytes} {s : State} (Ks : Q s)
    : Q (processChallenge sl sender policy listDigest nonce e certs s) := by
  unfold processChallenge
  extract_lets +onlyGivenNames x1
  refine Keeps.ite Ks ?_
  split
  · rename_i y2 y3 y4 y5
    have Ky4 : Q y4 := Keeps.snd y5 (checkEvidence_keeps K h_ent h_dom Ks)
    exact Ky4
  · rename_i y6 y7 y8
    have Ky7 : Q y7 := Keeps.snd y8 (checkEvidence_keeps K h_ent h_dom Ks)
    extract_lets +onlyGivenNames x9
    have Kx9 : Q x9 := domainPair_keeps K h_pke h_ent h_free Ky7
    clear_value x9
    split
    rename_i y10 y11 y12 y13
    have Ky12 : Q y12 := Keeps.snd y13 (drbgBits_keeps K h_ent h_free Kx9)
    split
    split
    · exact Ky12
    · extract_lets +onlyGivenNames x14
      have Kx14 : Q x14 := leaveParent_keeps K h_kst h_engKeys h_kwe h_link Ky12
      clear_value x14
      split
      · exact Kx14
      · exact joinTree_keeps K h_rcv h_icu h_obs h_cex h_srg h_ods h_kst h_engKeys h_kwe h_pke h_ent h_mem h_link h_sheaf h_dom h_pins h_ac h_vt h_free h_out (pkeDone_keeps K h_ent (pkeDone_keeps K h_ent Kx14))

theorem execRollChallenge_keeps (K : Keeps P Q) (h_rcv : P .rcv = true) (h_icu : P .icu = true) (h_obs : P .obs = true) (h_cex : P .cex = true)
    (h_srg : P .srg = true) (h_ods : P .ods = true) (h_kst : P .kst = true) (h_engKeys : P .engKeys = true) (h_kwe : P .kwe = true)
    (h_pke : P .pke = true) (h_ent : P .ent = true) (h_mem : P .mem = true) (h_link : P .link = true) (h_sheaf : P .sheaf = true)
    (h_dom : P .dom = true) (h_pins : P .pins = true) (h_ac : P .ac = true) (h_vt : P .vt = true) (h_free : P .free = true) (h_out : P .out = true)
    {slc : BitVec 4} {h : DomHdr} {policy : Bytes} {listDigest : BitVec 384} {nonce evidence : Bytes} {certs : List Bytes} {s : State} (Ks : Q s)
    : KeepsBy Q (execRollChallenge slc h policy listDigest nonce evidence certs s) := by
  unfold execRollChallenge
  refine KeepsBy.of ?_
  extract_lets +onlyGivenNames x1
  exact Keeps.ite Ks (fromInbox_keeps K h_link Ks (fun b2 h3 => Keeps.ite (updDom_keeps K h_dom h3) (admitDom_keeps K h_dom h3 (fun b4 h5 => processChallenge_keeps K h_rcv h_icu h_obs h_cex h_srg h_ods h_kst h_engKeys h_kwe h_pke h_ent h_mem h_link h_sheaf h_dom h_pins h_ac h_vt h_free h_out h5))))

theorem failUnwrap_keeps (K : Keeps P Q) (h_rcv : P .rcv = true) (h_icu : P .icu = true) (h_obs : P .obs = true) (h_cex : P .cex = true)
    (h_srg : P .srg = true) (h_link : P .link = true) (h_dom : P .dom = true) (h_out : P .out = true) {sl parent : Nat} {s : State} (Ks : Q s)
    : Q (failUnwrap sl parent s) := by
  unfold failUnwrap
  exact sendDom_keeps K h_rcv h_icu h_obs h_cex h_srg h_link h_dom h_out Ks

theorem execDomainDissolve_keeps (K : Keeps P Q) (h_rcv : P .rcv = true) (h_icu : P .icu = true) (h_obs : P .obs = true) (h_cex : P .cex = true)
    (h_srg : P .srg = true) (h_ods : P .ods = true) (h_kst : P .kst = true) (h_engKeys : P .engKeys = true) (h_kwe : P .kwe = true)
    (h_pke : P .pke = true) (h_ent : P .ent = true) (h_mem : P .mem = true) (h_link : P .link = true) (h_sheaf : P .sheaf = true)
    (h_dom : P .dom = true) (h_pins : P .pins = true) (h_ac : P .ac = true) (h_vt : P .vt = true) (h_out : P .out = true) {h : CmdHdr} {s : State} (Ks
    : Q s) : KeepsBy Q (execDomainDissolve h s) := by
  unfold execDomainDissolve
  refine KeepsBy.of ?_
  refine cexRun_keeps K h_cex h_srg Ks ?_
  intro b1 h2
  extract_lets +onlyGivenNames x3
  exact checked_keeps K h_cex h2 (fun b4 h5 => finish_keeps K h_cex (abortSlice_keeps K h_rcv h_icu h_obs h_cex h_srg h_ods h_kst h_engKeys h_kwe h_pke h_ent h_mem h_link h_sheaf h_dom h_pins h_ac h_vt h_out h5))

theorem execDomainGo_keeps (K : Keeps P Q) (h_rcv : P .rcv = true) (h_icu : P .icu = true) (h_obs : P .obs = true) (h_cex : P .cex = true)
    (h_srg : P .srg = true) (h_mem : P .mem = true) (h_link : P .link = true) (h_dom : P .dom = true) (h_pins : P .pins = true) (h_ac : P .ac = true)
    (h_vt : P .vt = true) (h_out : P .out = true) {h : CmdHdr} {s : State} (Ks : Q s) : KeepsBy Q (execDomainGo h s) := by
  unfold execDomainGo
  refine KeepsBy.of ?_
  refine cexRun_keeps K h_cex h_srg Ks ?_
  intro b1 h2
  extract_lets +onlyGivenNames x3
  exact checked_keeps K h_cex h2 (fun b4 h5 => finish_keeps K h_cex (goLive_keeps K h_rcv h_icu h_obs h_cex h_srg h_mem h_link h_dom h_pins h_ac h_vt h_out h5))

theorem execDomainAbort_keeps (K : Keeps P Q) (h_rcv : P .rcv = true) (h_icu : P .icu = true) (h_obs : P .obs = true) (h_cex : P .cex = true)
    (h_srg : P .srg = true) (h_ods : P .ods = true) (h_kst : P .kst = true) (h_engKeys : P .engKeys = true) (h_kwe : P .kwe = true)
    (h_pke : P .pke = true) (h_ent : P .ent = true) (h_mem : P .mem = true) (h_link : P .link = true) (h_sheaf : P .sheaf = true)
    (h_dom : P .dom = true) (h_pins : P .pins = true) (h_ac : P .ac = true) (h_vt : P .vt = true) (h_out : P .out = true) {h : CmdHdr}
    {detail : BitVec 32} {s : State} (Ks : Q s) : KeepsBy Q (execDomainAbort h detail s) := by
  unfold execDomainAbort
  refine KeepsBy.of ?_
  refine cexRun_keeps K h_cex h_srg Ks ?_
  intro b1 h2
  extract_lets +onlyGivenNames x3
  exact checked_keeps K h_cex h2 (fun b4 h5 => finish_keeps K h_cex (abortSlice_keeps K h_rcv h_icu h_obs h_cex h_srg h_ods h_kst h_engKeys h_kwe h_pke h_ent h_mem h_link h_sheaf h_dom h_pins h_ac h_vt h_out h5))

theorem edgeBlob_keeps (K : Keeps P Q) (h_kwe : P .kwe = true) (h_ent : P .ent = true) (h_free : P .free = true) {d : Dom} {hs : Slot}
    {key : BitVec 256} {s : State} (Ks : Q s) : Q (edgeBlob d hs key s).2 := by
  unfold edgeBlob
  split
  rename_i y1 y2 y3 y4
  have Ky3 : Q y3 := Keeps.snd y4 (drbgBits_keeps K h_ent h_free Ks)
  extract_lets +onlyGivenNames x5
  exact Keeps.p2 (kweDone_keeps K h_kwe h_ent Ky3)

theorem sendKeys_keeps (K : Keeps P Q) (h_rcv : P .rcv = true) (h_icu : P .icu = true) (h_obs : P .obs = true) (h_cex : P .cex = true)
    (h_srg : P .srg = true) (h_kwe : P .kwe = true) (h_ent : P .ent = true) (h_link : P .link = true) (h_dom : P .dom = true)
    (h_free : P .free = true) (h_out : P .out = true) {sl : Nat} {c : Child} {s : State} (Ks : Q s) : Q (sendKeys sl c s) := by
  unfold sendKeys
  extract_lets +onlyGivenNames x1
  split
  · exact Ks
  · split
    rename_i y2 y3 y4 y5
    have Ky4 : Q y4 := by
      refine Keeps.snd y5 ?_
      refine Keeps.foldl2 ?_ Ks
      intro b6 b7 h8
      extract_lets +onlyGivenNames x9
      have Kx9 : Q x9.2 := edgeBlob_keeps K h_kwe h_ent h_free h8
      clear_value x9
      exact Kx9
    exact sendDom_keeps K h_rcv h_icu h_obs h_cex h_srg h_link h_dom h_out (updChild_keeps K h_dom Ky4)

theorem distribute_keeps (K : Keeps P Q) (h_rcv : P .rcv = true) (h_icu : P .icu = true) (h_obs : P .obs = true) (h_cex : P .cex = true)
    (h_srg : P .srg = true) (h_ods : P .ods = true) (h_kst : P .kst = true) (h_engKeys : P .engKeys = true) (h_kwe : P .kwe = true)
    (h_pke : P .pke = true) (h_ent : P .ent = true) (h_mem : P .mem = true) (h_link : P .link = true) (h_sheaf : P .sheaf = true)
    (h_dom : P .dom = true) (h_pins : P .pins = true) (h_ac : P .ac = true) (h_vt : P .vt = true) (h_free : P .free = true) (h_out : P .out = true)
    {sl : Nat} {s : State} (Ks : Q s) : Q (distribute sl s) := by
  unfold distribute
  extract_lets +onlyGivenNames x1
  have Kx1 : Q x1 := updDom_keeps K h_dom Ks
  clear_value x1
  exact ackProgress_keeps K h_rcv h_icu h_obs h_cex h_srg h_ods h_kst h_engKeys h_kwe h_pke h_ent h_mem h_link h_sheaf h_dom h_pins h_ac h_vt h_out (Keeps.foldl (fun b2 b3 h4 => sendKeys_keeps K h_rcv h_icu h_obs h_cex h_srg h_kwe h_ent h_link h_dom h_free h_out h4) Kx1)

theorem installKeys_keeps (K : Keeps P Q) (h_kst : P .kst = true) (h_engKeys : P .engKeys = true) (h_kwe : P .kwe = true) (h_ent : P .ent = true)
    (h_link : P .link = true) (h_dom : P .dom = true) {sl ctx : Nat} {keys : List (BitVec 256)} {flags : Nat} {drkId : BitVec 128} {s : State} (Ks
    : Q s) : Q (installKeys sl ctx keys flags drkId s) := by
  unfold installKeys
  extract_lets +onlyGivenNames x1 x2 x3 x4 x5 x6
  split
  · extract_lets +onlyGivenNames x7
    have Kx7 : Q x7 := putKey_keeps K h_kst h_kwe h_ent Ks
    clear_value x7
    extract_lets +onlyGivenNames x8
    have Kx8 : Q x8 := putKey_keeps K h_kst h_kwe h_ent Kx7
    clear_value x8
    extract_lets +onlyGivenNames x9
    have Kx9 : Q x9 := putKey_keeps K h_kst h_kwe h_ent Kx8
    clear_value x9
    extract_lets +onlyGivenNames x10
    have Kx10 : Q x10 := putKey_keeps K h_kst h_kwe h_ent Kx9
    clear_value x10
    extract_lets +onlyGivenNames x11
    have Kx11 : Q x11 := putKey_keeps K h_kst h_kwe h_ent Kx10
    clear_value x11
    extract_lets +onlyGivenNames x12
    have Kx12 : Q x12 := updDom_keeps K h_dom Kx11
    clear_value x12
    extract_lets +onlyGivenNames x13
    exact Keeps.foldl (fun b14 b15 h16 => dlkEdge_keeps K h_engKeys h_kwe h_ent h_link h16) Kx12
  · exact Ks

theorem execDomainRelease_keeps (K : Keeps P Q) (h_rcv : P .rcv = true) (h_icu : P .icu = true) (h_obs : P .obs = true) (h_cex : P .cex = true)
    (h_xlt : P .xlt = true) (h_srg : P .srg = true) (h_ods : P .ods = true) (h_kst : P .kst = true) (h_engKeys : P .engKeys = true)
    (h_kwe : P .kwe = true) (h_pke : P .pke = true) (h_ent : P .ent = true) (h_mem : P .mem = true) (h_link : P .link = true)
    (h_sheaf : P .sheaf = true) (h_dom : P .dom = true) (h_pins : P .pins = true) (h_ac : P .ac = true) (h_vt : P .vt = true)
    (h_free : P .free = true) (h_out : P .out = true) {h : CmdHdr} {releaseBva : BitVec 64} {len : BitVec 32} {x : Option XFault} {release : Bytes}
    {s : State} (Ks : Q s) : KeepsBy Q (execDomainRelease h releaseBva len x release s) := by
  unfold execDomainRelease
  refine KeepsBy.of ?_
  refine cexRun_keeps K h_cex h_srg Ks ?_
  intro b1 h2
  extract_lets +onlyGivenNames x3 x4 x5
  refine checked_keeps K h_cex h2 ?_
  intro b6 h7
  split
  · exact xltFault_keeps K h_rcv h_obs h_cex h_xlt h7
  · extract_lets +onlyGivenNames x8 x9
    refine checked_keeps K h_cex h7 ?_
    intro b10 h11
    extract_lets +onlyGivenNames x12
    have Kx12 : Q x12 := pkeDone_keeps K h_ent (pkeDone_keeps K h_ent h11)
    clear_value x12
    split
    · exact refuse_keeps K h_cex Kx12
    · exact checked_keeps K h_cex Kx12 (fun b13 h14 => distribute_keeps K h_rcv h_icu h_obs h_cex h_srg h_ods h_kst h_engKeys h_kwe h_pke h_ent h_mem h_link h_sheaf h_dom h_pins h_ac h_vt h_free h_out (installKeys_keeps K h_kst h_engKeys h_kwe h_ent h_link h_dom (updDom_keeps K h_dom h14)))

theorem certFlushWrite_keeps (K : Keeps P Q) (h_dom : P .dom = true) {value : Bool} {s : State} (Ks : Q s) : Q (certFlushWrite value s).1 := by
  unfold certFlushWrite
  exact Keeps.p1 (Keeps.ite (K.dom h_dom Ks) Ks)

theorem execDomainForm_keeps (K : Keeps P Q) (h_rcv : P .rcv = true) (h_icu : P .icu = true) (h_obs : P .obs = true) (h_cex : P .cex = true)
    (h_xlt : P .xlt = true) (h_srg : P .srg = true) (h_ods : P .ods = true) (h_kst : P .kst = true) (h_engKeys : P .engKeys = true)
    (h_kwe : P .kwe = true) (h_pke : P .pke = true) (h_ent : P .ent = true) (h_mem : P .mem = true) (h_link : P .link = true)
    (h_sheaf : P .sheaf = true) (h_dom : P .dom = true) (h_pins : P .pins = true) (h_ac : P .ac = true) (h_vt : P .vt = true)
    (h_free : P .free = true) (h_out : P .out = true) {h : CmdHdr} {policyBva : BitVec 64} {fenceMs : BitVec 32} {rereqMs : BitVec 16}
    {x : Option XFault} {policy : Bytes} {s : State} (Ks : Q s) : KeepsBy Q (execDomainForm h policyBva fenceMs rereqMs x policy s) := by
  unfold execDomainForm
  refine KeepsBy.of ?_
  refine cexRun_keeps K h_cex h_srg Ks ?_
  intro b1 h2
  extract_lets +onlyGivenNames x3 x4
  refine checked_keeps K h_cex h2 ?_
  intro b5 h6
  split
  · exact xltFault_keeps K h_rcv h_obs h_cex h_xlt h6
  · extract_lets +onlyGivenNames x7
    refine checked_keeps K h_cex h6 ?_
    intro b8 h9
    split
    rename_i y10 y11 y12 y13
    have Ky12 : Q y12 := Keeps.snd y13 (drbgBits_keeps K h_ent h_free (domainPair_keeps K h_pke h_ent h_free h9))
    extract_lets +onlyGivenNames x14
    split
    rename_i y15 y16 y17 y18
    have Ky17 : Q y17 := Keeps.snd y18 (signed_keeps K h_ent h_free Ky12)
    split
    · rename_i y19 y20 y21 y22
      have Ky21 : Q y21 := Keeps.snd y22 (checkEvidence_keeps K h_ent h_dom Ky17)
      exact refuse_keeps K h_cex h9
    · rename_i y23 y24 y25
      have Ky24 : Q y24 := Keeps.snd y25 (checkEvidence_keeps K h_ent h_dom Ky17)
      extract_lets +onlyGivenNames x26
      have Kx26 : Q x26 := updDom_keeps K h_dom Ky24
      clear_value x26
      exact progress_keeps K h_rcv h_icu h_obs h_cex h_srg h_ods h_kst h_engKeys h_kwe h_pke h_ent h_mem h_link h_sheaf h_dom h_pins h_ac h_vt h_free h_out (Keeps.foldl (fun b27 b28 h29 => challenge_keeps K h_rcv h_icu h_obs h_cex h_srg h_link h_dom h_out h29) Kx26)

theorem exceptMember_keeps (K : Keeps P Q) (h_rcv : P .rcv = true) (h_icu : P .icu = true) (h_obs : P .obs = true) (h_cex : P .cex = true)
    (h_srg : P .srg = true) (h_ods : P .ods = true) (h_kst : P .kst = true) (h_engKeys : P .engKeys = true) (h_kwe : P .kwe = true)
    (h_pke : P .pke = true) (h_ent : P .ent = true) (h_mem : P .mem = true) (h_link : P .link = true) (h_sheaf : P .sheaf = true)
    (h_dom : P .dom = true) (h_pins : P .pins = true) (h_ac : P .ac = true) (h_vt : P .vt = true) (h_free : P .free = true) (h_out : P .out = true)
    {sl m code : Nat} {s : State} (Ks : Q s) : Q (exceptMember sl m code s) := by
  unfold exceptMember
  extract_lets +onlyGivenNames x1
  have Kx1 : Q x1 := updChild_keeps K h_dom (updDom_keeps K h_dom Ks)
  clear_value x1
  extract_lets +onlyGivenNames x2 x3
  have Kx3 : Q x3 := Keeps.ite Kx1 (sendDom_keeps K h_rcv h_icu h_obs h_cex h_srg h_link h_dom h_out Kx1)
  clear_value x3
  exact progress_keeps K h_rcv h_icu h_obs h_cex h_srg h_ods h_kst h_engKeys h_kwe h_pke h_ent h_mem h_link h_sheaf h_dom h_pins h_ac h_vt h_free h_out (Keeps.foldl (fun b4 b5 h6 => challenge_keeps K h_rcv h_icu h_obs h_cex h_srg h_link h_dom h_out h6) Kx3)

theorem execRollAnswerDeadline_keeps (K : Keeps P Q) (h_rcv : P .rcv = true) (h_icu : P .icu = true) (h_obs : P .obs = true) (h_cex : P .cex = true)
    (h_srg : P .srg = true) (h_ods : P .ods = true) (h_kst : P .kst = true) (h_engKeys : P .engKeys = true) (h_kwe : P .kwe = true)
    (h_pke : P .pke = true) (h_ent : P .ent = true) (h_mem : P .mem = true) (h_link : P .link = true) (h_sheaf : P .sheaf = true)
    (h_dom : P .dom = true) (h_pins : P .pins = true) (h_ac : P .ac = true) (h_vt : P .vt = true) (h_free : P .free = true) (h_out : P .out = true)
    {slc : BitVec 4} {member : BitVec 12} {s : State} (Ks : Q s) : KeepsBy Q (execRollAnswerDeadline slc member s) := by
  unfold execRollAnswerDeadline
  refine KeepsBy.of ?_
  extract_lets +onlyGivenNames x1
  exact Keeps.ite (exceptMember_keeps K h_rcv h_icu h_obs h_cex h_srg h_ods h_kst h_engKeys h_kwe h_pke h_ent h_mem h_link h_sheaf h_dom h_pins h_ac h_vt h_free h_out Ks) Ks

theorem execDomainProve_keeps (K : Keeps P Q) (h_rcv : P .rcv = true) (h_obs : P .obs = true) (h_cex : P .cex = true) (h_xlt : P .xlt = true)
    (h_srg : P .srg = true) (h_out : P .out = true) {h : CmdHdr} {outBva : BitVec 64} {outLen : BitVec 32} {x : Option XFault} {s : State} (Ks : Q s)
    : KeepsBy Q (execDomainProve h outBva outLen x s) := by
  unfold execDomainProve
  refine KeepsBy.of ?_
  refine cexRun_keeps K h_cex h_srg Ks ?_
  intro b1 h2
  extract_lets +onlyGivenNames x3 x4
  refine checked_keeps K h_cex h2 ?_
  intro b5 h6
  split
  · exact xltFault_keeps K h_rcv h_obs h_cex h_xlt h6
  · exact finish_keeps K h_cex (State.emit_keeps K h_out h6)

theorem execReleaseTimeout_keeps (K : Keeps P Q) (h_rcv : P .rcv = true) (h_icu : P .icu = true) (h_obs : P .obs = true) (h_cex : P .cex = true)
    (h_srg : P .srg = true) (h_ods : P .ods = true) (h_kst : P .kst = true) (h_engKeys : P .engKeys = true) (h_kwe : P .kwe = true)
    (h_pke : P .pke = true) (h_ent : P .ent = true) (h_mem : P .mem = true) (h_link : P .link = true) (h_sheaf : P .sheaf = true)
    (h_dom : P .dom = true) (h_pins : P .pins = true) (h_ac : P .ac = true) (h_vt : P .vt = true) (h_out : P .out = true) {slc : BitVec 4} {s : State}
    (Ks : Q s) : KeepsBy Q (execReleaseTimeout slc s) := by
  unfold execReleaseTimeout
  refine KeepsBy.of ?_
  extract_lets +onlyGivenNames x1
  exact Keeps.ite (originate_keeps K h_rcv h_icu h_obs h_cex h_srg h_ods h_kst h_engKeys h_kwe h_pke h_ent h_mem h_link h_sheaf h_dom h_pins h_ac h_vt h_out Ks) Ks

theorem acceptAnswer_keeps (K : Keeps P Q) (h_rcv : P .rcv = true) (h_icu : P .icu = true) (h_obs : P .obs = true) (h_cex : P .cex = true)
    (h_srg : P .srg = true) (h_ods : P .ods = true) (h_kst : P .kst = true) (h_engKeys : P .engKeys = true) (h_kwe : P .kwe = true)
    (h_pke : P .pke = true) (h_ent : P .ent = true) (h_mem : P .mem = true) (h_link : P .link = true) (h_sheaf : P .sheaf = true)
    (h_dom : P .dom = true) (h_pins : P .pins = true) (h_ac : P .ac = true) (h_vt : P .vt = true) (h_free : P .free = true) (h_out : P .out = true)
    {sl sender : Nat} {e st : Bytes} {s : State} (Ks : Q s) : Q (acceptAnswer sl sender e st s) := by
  unfold acceptAnswer
  extract_lets +onlyGivenNames x1 x2
  split
  · exact exceptMember_keeps K h_rcv h_icu h_obs h_cex h_srg h_ods h_kst h_engKeys h_kwe h_pke h_ent h_mem h_link h_sheaf h_dom h_pins h_ac h_vt h_free h_out Ks
  · exact exceptMember_keeps K h_rcv h_icu h_obs h_cex h_srg h_ods h_kst h_engKeys h_kwe h_pke h_ent h_mem h_link h_sheaf h_dom h_pins h_ac h_vt h_free h_out Ks
  · extract_lets +onlyGivenNames x3 x4
    have Kx4 : Q x4 := openEdges_keeps K h_engKeys h_kwe h_ent h_link (putKey_keeps K h_kst h_kwe h_ent (pkeDone_keeps K h_ent (pkeDone_keeps K h_ent Ks)))
    clear_value x4
    extract_lets +onlyGivenNames x5 x6
    exact progress_keeps K h_rcv h_icu h_obs h_cex h_srg h_ods h_kst h_engKeys h_kwe h_pke h_ent h_mem h_link h_sheaf h_dom h_pins h_ac h_vt h_free h_out (updChild_keeps K h_dom Kx4)

theorem execRollAnswer_keeps (K : Keeps P Q) (h_rcv : P .rcv = true) (h_icu : P .icu = true) (h_obs : P .obs = true) (h_cex : P .cex = true)
    (h_srg : P .srg = true) (h_ods : P .ods = true) (h_kst : P .kst = true) (h_engKeys : P .engKeys = true) (h_kwe : P .kwe = true)
    (h_pke : P .pke = true) (h_ent : P .ent = true) (h_mem : P .mem = true) (h_link : P .link = true) (h_sheaf : P .sheaf = true)
    (h_dom : P .dom = true) (h_pins : P .pins = true) (h_ac : P .ac = true) (h_vt : P .vt = true) (h_free : P .free = true) (h_out : P .out = true)
    {slc : BitVec 4} {h : DomHdr} {evidence : Bytes} {certs : List Bytes} {statement : Bytes} {s : State} (Ks : Q s)
    : KeepsBy Q (execRollAnswer slc h evidence certs statement s) := by
  unfold execRollAnswer
  refine KeepsBy.of ?_
  refine takeDom_keeps K h_link h_dom Ks ?_
  intro b1 h2
  extract_lets +onlyGivenNames x3 x4 x5
  split
  · exact h2
  · refine Keeps.ite h2 ?_
    refine Keeps.ite (sendDom_keeps K h_rcv h_icu h_obs h_cex h_srg h_link h_dom h_out h2) ?_
    split
    · rename_i y6 y7 y8 y9
      have Ky8 : Q y8 := Keeps.snd y9 (checkEvidence_keeps K h_ent h_dom h2)
      exact exceptMember_keeps K h_rcv h_icu h_obs h_cex h_srg h_ods h_kst h_engKeys h_kwe h_pke h_ent h_mem h_link h_sheaf h_dom h_pins h_ac h_vt h_free h_out Ky8
    · rename_i y10 y11 y12
      have Ky11 : Q y11 := Keeps.snd y12 (checkEvidence_keeps K h_ent h_dom h2)
      exact Keeps.ite (exceptMember_keeps K h_rcv h_icu h_obs h_cex h_srg h_ods h_kst h_engKeys h_kwe h_pke h_ent h_mem h_link h_sheaf h_dom h_pins h_ac h_vt h_free h_out Ky11) (acceptAnswer_keeps K h_rcv h_icu h_obs h_cex h_srg h_ods h_kst h_engKeys h_kwe h_pke h_ent h_mem h_link h_sheaf h_dom h_pins h_ac h_vt h_free h_out Ky11)

theorem joinSlice_keeps (K : Keeps P Q) (h_cex : P .cex = true) (h_srg : P .srg = true) (h_atu : P .atu = true) (h_mem : P .mem = true)
    (h_link : P .link = true) (h_sheaf : P .sheaf = true) (h_dom : P .dom = true) (h_pins : P .pins = true) (h_ac : P .ac = true)
    (h_vt : P .vt = true) {sl id attempt member masthead count : Nat} {list : Bytes} {s : State} (Ks : Q s)
    : Q (joinSlice sl id attempt member masthead count list s) := by
  unfold joinSlice
  extract_lets +onlyGivenNames x1
  have Kx1 : Q x1 := updDom_keeps K h_dom Ks
  clear_value x1
  extract_lets +onlyGivenNames x2 x3
  have Kx3 : Q x3 := updSlice_keeps K h_srg (K.sheaf h_sheaf Kx1)
  clear_value x3
  exact setDomState_keeps K h_cex h_mem h_link h_dom h_pins h_ac h_vt (extendSmr_keeps K h_atu Kx3)

theorem execHalyardKey_keeps (K : Keeps P Q) (h_rcv : P .rcv = true) (h_icu : P .icu = true) (h_obs : P .obs = true) (h_cex : P .cex = true)
    (h_srg : P .srg = true) (h_ods : P .ods = true) (h_kst : P .kst = true) (h_engKeys : P .engKeys = true) (h_kwe : P .kwe = true)
    (h_pke : P .pke = true) (h_ent : P .ent = true) (h_mem : P .mem = true) (h_link : P .link = true) (h_sheaf : P .sheaf = true)
    (h_dom : P .dom = true) (h_pins : P .pins = true) (h_ac : P .ac = true) (h_vt : P .vt = true) (h_free : P .free = true) (h_out : P .out = true)
    {slc : BitVec 4} {h : DomHdr} {evDigest : BitVec 384} {drkId : BitVec 128} {flags : BitVec 8} {blobs : List Bytes} {evidence table : Bytes}
    {s : State} (Ks : Q s) : KeepsBy Q (execHalyardKey slc h evDigest drkId flags blobs evidence table s) := by
  unfold execHalyardKey
  refine KeepsBy.of ?_
  refine takeDom_keeps K h_link h_dom Ks ?_
  intro b1 h2
  extract_lets +onlyGivenNames x3 x4 x5
  refine Keeps.ite h2 ?_
  split
  · exact sendDom_keeps K h_rcv h_icu h_obs h_cex h_srg h_link h_dom h_out h2
  · refine Keeps.ite h2 ?_
    refine Keeps.ite (originate_keeps K h_rcv h_icu h_obs h_cex h_srg h_ods h_kst h_engKeys h_kwe h_pke h_ent h_mem h_link h_sheaf h_dom h_pins h_ac h_vt h_out h2) ?_
    extract_lets +onlyGivenNames x6 x7
    split
    · extract_lets +onlyGivenNames x8
      have Kx8 : Q x8 := updDom_keeps K h_dom h2
      clear_value x8
      exact distribute_keeps K h_rcv h_icu h_obs h_cex h_srg h_ods h_kst h_engKeys h_kwe h_pke h_ent h_mem h_link h_sheaf h_dom h_pins h_ac h_vt h_free h_out (installKeys_keeps K h_kst h_engKeys h_kwe h_ent h_link h_dom Kx8)
    · exact failUnwrap_keeps K h_rcv h_icu h_obs h_cex h_srg h_link h_dom h_out h2

theorem execDissolve_keeps (K : Keeps P Q) (h_rcv : P .rcv = true) (h_icu : P .icu = true) (h_obs : P .obs = true) (h_cex : P .cex = true)
    (h_srg : P .srg = true) (h_ods : P .ods = true) (h_kst : P .kst = true) (h_engKeys : P .engKeys = true) (h_kwe : P .kwe = true)
    (h_pke : P .pke = true) (h_ent : P .ent = true) (h_mem : P .mem = true) (h_link : P .link = true) (h_sheaf : P .sheaf = true)
    (h_dom : P .dom = true) (h_pins : P .pins = true) (h_ac : P .ac = true) (h_vt : P .vt = true) (h_out : P .out = true) {slc : BitVec 4}
    {h : DomHdr} {s : State} (Ks : Q s) : KeepsBy Q (execDissolve slc h s) := by
  unfold execDissolve
  exact KeepsBy.of (takeDom_keeps K h_link h_dom Ks (fun b1 h2 => abortSlice_keeps K h_rcv h_icu h_obs h_cex h_srg h_ods h_kst h_engKeys h_kwe h_pke h_ent h_mem h_link h_sheaf h_dom h_pins h_ac h_vt h_out h2))

theorem execFormationTimeout_keeps (K : Keeps P Q) (h_rcv : P .rcv = true) (h_icu : P .icu = true) (h_obs : P .obs = true) (h_cex : P .cex = true)
    (h_kst : P .kst = true) (h_engKeys : P .engKeys = true) (h_kwe : P .kwe = true) (h_pke : P .pke = true) (h_mem : P .mem = true)
    (h_link : P .link = true) (h_sheaf : P .sheaf = true) (h_dom : P .dom = true) (h_pins : P .pins = true) (h_ac : P .ac = true)
    (h_vt : P .vt = true) (h_out : P .out = true) {slc : BitVec 4} {s : State} (Ks : Q s) : KeepsBy Q (execFormationTimeout slc s) := by
  unfold execFormationTimeout
  refine KeepsBy.of ?_
  extract_lets +onlyGivenNames x1
  refine Keeps.ite Ks ?_
  extract_lets +onlyGivenNames x2
  have Kx2 : Q x2 := endAll_keeps K h_cex (zeroizeSlice_keeps K h_rcv h_icu h_obs h_cex h_kst h_engKeys h_kwe h_pke h_mem h_link h_sheaf h_ac h_vt h_out Ks)
  clear_value x2
  exact setDomState_keeps K h_cex h_mem h_link h_dom h_pins h_ac h_vt (updDom_keeps K h_dom Kx2)

theorem takeHeld_keeps (K : Keeps P Q) (h_rcv : P .rcv = true) (h_icu : P .icu = true) (h_obs : P .obs = true) (h_cex : P .cex = true)
    (h_srg : P .srg = true) (h_ods : P .ods = true) (h_kst : P .kst = true) (h_engKeys : P .engKeys = true) (h_kwe : P .kwe = true)
    (h_pke : P .pke = true) (h_ent : P .ent = true) (h_mem : P .mem = true) (h_link : P .link = true) (h_sheaf : P .sheaf = true)
    (h_dom : P .dom = true) (h_pins : P .pins = true) (h_ac : P .ac = true) (h_vt : P .vt = true) (h_free : P .free = true) (h_out : P .out = true)
    {slc : BitVec 4} {s : State} (Ks : Q s) : Q (takeHeld slc s) := by
  unfold takeHeld
  split
  · exact Ks
  · extract_lets +onlyGivenNames x1
    have Kx1 : Q x1 := updDom_keeps K h_dom Ks
    clear_value x1
    exact admitDom_keeps K h_dom Kx1 (fun b2 h3 => processChallenge_keeps K h_rcv h_icu h_obs h_cex h_srg h_ods h_kst h_engKeys h_kwe h_pke h_ent h_mem h_link h_sheaf h_dom h_pins h_ac h_vt h_free h_out h3)

theorem execCertCacheFlush_keeps (K : Keeps P Q) (h_ods : P .ods = true) (h_dom : P .dom = true) (h_out : P .out = true) {who : Principal}
    {value : Bool} {s : State} (Ks : Q s) : KeepsBy Q (execCertCacheFlush who value s) := by
  unfold execCertCacheFlush
  exact KeepsBy.of (dictWrite_keeps K h_ods h_out Ks (fun b1 h2 => certFlushWrite_keeps K h_dom h2))

theorem execRollCallTimeout_keeps (K : Keeps P Q) (h_rcv : P .rcv = true) (h_icu : P .icu = true) (h_obs : P .obs = true) (h_cex : P .cex = true)
    (h_srg : P .srg = true) (h_ods : P .ods = true) (h_kst : P .kst = true) (h_engKeys : P .engKeys = true) (h_kwe : P .kwe = true)
    (h_pke : P .pke = true) (h_ent : P .ent = true) (h_mem : P .mem = true) (h_link : P .link = true) (h_sheaf : P .sheaf = true)
    (h_dom : P .dom = true) (h_pins : P .pins = true) (h_ac : P .ac = true) (h_vt : P .vt = true) (h_free : P .free = true) (h_out : P .out = true)
    {slc : BitVec 4} {s : State} (Ks : Q s) : KeepsBy Q (execRollCallTimeout slc s) := by
  unfold execRollCallTimeout
  refine KeepsBy.of ?_
  extract_lets +onlyGivenNames x1
  exact Keeps.ite (finishForm_keeps K h_rcv h_icu h_obs h_cex h_srg h_ods h_kst h_engKeys h_kwe h_pke h_ent h_mem h_link h_sheaf h_dom h_pins h_ac h_vt h_free h_out Ks) Ks

theorem execHalyardAckDeadline_keeps (K : Keeps P Q) (h_rcv : P .rcv = true) (h_icu : P .icu = true) (h_obs : P .obs = true) (h_cex : P .cex = true)
    (h_srg : P .srg = true) (h_ods : P .ods = true) (h_kst : P .kst = true) (h_engKeys : P .engKeys = true) (h_kwe : P .kwe = true)
    (h_pke : P .pke = true) (h_ent : P .ent = true) (h_mem : P .mem = true) (h_link : P .link = true) (h_sheaf : P .sheaf = true)
    (h_dom : P .dom = true) (h_pins : P .pins = true) (h_ac : P .ac = true) (h_vt : P .vt = true) (h_free : P .free = true) (h_out : P .out = true)
    {slc : BitVec 4} {member : BitVec 12} {s : State} (Ks : Q s) : KeepsBy Q (execHalyardAckDeadline slc member s) := by
  unfold execHalyardAckDeadline
  refine KeepsBy.of ?_
  extract_lets +onlyGivenNames x1 x2
  split
  · exact Ks
  · exact Keeps.ite (sendKeys_keeps K h_rcv h_icu h_obs h_cex h_srg h_kwe h_ent h_link h_dom h_free h_out (updChild_keeps K h_dom Ks)) (ackProgress_keeps K h_rcv h_icu h_obs h_cex h_srg h_ods h_kst h_engKeys h_kwe h_pke h_ent h_mem h_link h_sheaf h_dom h_pins h_ac h_vt h_out (updChild_keeps K h_dom Ks))

theorem execAbort_keeps (K : Keeps P Q) (h_rcv : P .rcv = true) (h_icu : P .icu = true) (h_obs : P .obs = true) (h_cex : P .cex = true)
    (h_srg : P .srg = true) (h_ods : P .ods = true) (h_kst : P .kst = true) (h_engKeys : P .engKeys = true) (h_kwe : P .kwe = true)
    (h_pke : P .pke = true) (h_ent : P .ent = true) (h_mem : P .mem = true) (h_link : P .link = true) (h_sheaf : P .sheaf = true)
    (h_dom : P .dom = true) (h_pins : P .pins = true) (h_ac : P .ac = true) (h_vt : P .vt = true) (h_out : P .out = true) {slc : BitVec 4}
    {h : DomHdr} {cause flags : BitVec 8} {origin : BitVec 16} {detail : BitVec 32} {s : State} (Ks : Q s)
    : KeepsBy Q (execAbort slc h cause flags origin detail s) := by
  unfold execAbort
  refine KeepsBy.of ?_
  refine takeDom_keeps K h_link h_dom Ks ?_
  intro b1 h2
  extract_lets +onlyGivenNames x3
  exact Keeps.ite h2 (abortSlice_keeps K h_rcv h_icu h_obs h_cex h_srg h_ods h_kst h_engKeys h_kwe h_pke h_ent h_mem h_link h_sheaf h_dom h_pins h_ac h_vt h_out (updDom_keeps K h_dom h2))

theorem execRollChallengeHoldExpiry_keeps (K : Keeps P Q) (h_dom : P .dom = true) {slc : BitVec 4} {s : State} (Ks : Q s)
    : KeepsBy Q (execRollChallengeHoldExpiry slc s) := by
  unfold execRollChallengeHoldExpiry
  exact KeepsBy.of (updDom_keeps K h_dom Ks)

theorem execDomainJoin_keeps (K : Keeps P Q) (h_rcv : P .rcv = true) (h_icu : P .icu = true) (h_obs : P .obs = true) (h_cex : P .cex = true)
    (h_xlt : P .xlt = true) (h_srg : P .srg = true) (h_ods : P .ods = true) (h_kst : P .kst = true) (h_engKeys : P .engKeys = true)
    (h_kwe : P .kwe = true) (h_pke : P .pke = true) (h_ent : P .ent = true) (h_atu : P .atu = true) (h_mem : P .mem = true) (h_link : P .link = true)
    (h_sheaf : P .sheaf = true) (h_dom : P .dom = true) (h_pins : P .pins = true) (h_ac : P .ac = true) (h_vt : P .vt = true)
    (h_free : P .free = true) (h_out : P .out = true) {h : CmdHdr} {id : BitVec 64} {attempt : BitVec 32} {member masthead count : BitVec 16}
    {listBva : BitVec 64} {x : Option XFault} {list : Bytes} {s : State} (Ks : Q s)
    : KeepsBy Q (execDomainJoin h id attempt member masthead count listBva x list s) := by
  unfold execDomainJoin
  refine KeepsBy.of ?_
  refine cexRun_keeps K h_cex h_srg Ks ?_
  intro b1 h2
  extract_lets +onlyGivenNames x3
  refine checked_keeps K h_cex h2 ?_
  intro b4 h5
  split
  · exact xltFault_keeps K h_rcv h_obs h_cex h_xlt h5
  · extract_lets +onlyGivenNames x6
    exact checked_keeps K h_cex h5 (fun b7 h8 => takeHeld_keeps K h_rcv h_icu h_obs h_cex h_srg h_ods h_kst h_engKeys h_kwe h_pke h_ent h_mem h_link h_sheaf h_dom h_pins h_ac h_vt h_free h_out (finish_keeps K h_cex (joinSlice_keeps K h_cex h_srg h_atu h_mem h_link h_sheaf h_dom h_pins h_ac h_vt h8)))

end Sys2Proof.Machine
end

