-- ==== Sys2Proof/Laws/KeepsXltOps.lean ====
section
/-!
SUPPORT. What the operations of Machine/XltOps.lean keep, and which parts they may change (Laws/Keeps.lean).
-/

set_option Elab.async false
namespace Sys2Proof.Machine

variable {P : Part → Bool} {Q : State → Prop}

theorem clearSet_keeps (K : Keeps P Q) (h_xlt : P .xlt = true) {set : Nat} {s : State} (Ks : Q s) : Q (clearSet set s) := by
  unfold clearSet
  exact K.xlt h_xlt Ks

theorem dmaFault_keeps (K : Keeps P Q) (h_rcv : P .rcv = true) (h_icu : P .icu = true) (h_obs : P .obs = true) (h_cex : P .cex = true)
    (h_xlt : P .xlt = true) (h_out : P .out = true) {r : DmaReq} {f : XFlt} {s : State} (Ks : Q s) : Q (dmaFault r f s) := by
  unfold dmaFault
  extract_lets +onlyGivenNames x1 x2 x3
  have Kx3 : Q x3 := K.xlt h_xlt Ks
  clear_value x3
  refine Keeps.ite (logError_keeps K h_rcv h_icu h_obs h_out (K.cex h_cex Kx3)) ?_
  split
  · exact pend_keeps K h_rcv h_icu h_obs h_out Kx3
  · split
    · exact Keeps.ite (faultCommand_keeps K h_rcv h_obs h_cex Kx3) Kx3
    · exact Kx3

theorem present_keeps (K : Keeps P Q) (h_rcv : P .rcv = true) (h_icu : P .icu = true) (h_obs : P .obs = true) (h_cex : P .cex = true)
    (h_xlt : P .xlt = true) (h_out : P .out = true) {r : DmaReq} {oa : Nat} {shared : Bool} {s : State} (Ks : Q s) : Q (present r oa shared s) := by
  unfold present
  split
  · exact dmaFault_keeps K h_rcv h_icu h_obs h_cex h_xlt h_out Ks
  · exact State.emit_keeps K h_out Ks

theorem finishWalk_keeps (K : Keeps P Q) (h_rcv : P .rcv = true) (h_icu : P .icu = true) (h_obs : P .obs = true) (h_cex : P .cex = true)
    (h_xlt : P .xlt = true) (h_out : P .out = true) {w : Walk} {l : Leaf} {level2 : Nat} {r : DmaReq} {s : State} (Ks : Q s)
    : Q (finishWalk w l level2 r s) := by
  unfold finishWalk
  extract_lets +onlyGivenNames x1 x2
  exact Keeps.ite (dmaFault_keeps K h_rcv h_icu h_obs h_cex h_xlt h_out Ks) (Keeps.ite (dmaFault_keeps K h_rcv h_icu h_obs h_cex h_xlt h_out Ks) (present_keeps K h_rcv h_icu h_obs h_cex h_xlt h_out Ks))

theorem dropScope_keeps (K : Keeps P Q) (h_xlt : P .xlt = true) {scope set pasid base log2 : Nat} {s : State} (Ks : Q s)
    : Q (dropScope scope set pasid base log2 s) := by
  unfold dropScope
  exact K.xlt h_xlt Ks

theorem joinWalk_keeps (K : Keeps P Q) (h_xlt : P .xlt = true) {i : Nat} {r : DmaReq} {s : State} (Ks : Q s) : Q (joinWalk i r s) := by
  unfold joinWalk
  exact K.xlt h_xlt Ks

theorem joinWaiting_keeps (K : Keeps P Q) (h_xlt : P .xlt = true) {s : State} (Ks : Q s) : Q (joinWaiting s) := by
  unfold joinWaiting
  refine Keeps.foldl ?_ Ks
  intro b1 b2 h3
  split
  · exact joinWalk_keeps K h_xlt (K.xlt h_xlt h3)
  · exact h3

theorem askRead_keeps (K : Keeps P Q) (h_xlt : P .xlt = true) (h_out : P .out = true) {i : Nat} {w : Walk} {s : State} (Ks : Q s)
    : Q (askRead i w s).1 := by
  unfold askRead
  split
  · exact Ks
  · split
    exact Keeps.p1 (State.emit_keeps K h_out (K.xlt h_xlt Ks))

theorem takeWalker_keeps (K : Keeps P Q) (h_rcv : P .rcv = true) (h_icu : P .icu = true) (h_obs : P .obs = true) (h_cex : P .cex = true)
    (h_xlt : P .xlt = true) (h_out : P .out = true) {i : Nat} {r : DmaReq} {s : State} (Ks : Q s) : Q (takeWalker i r s) := by
  unfold takeWalker
  split
  · exact dmaFault_keeps K h_rcv h_icu h_obs h_cex h_xlt h_out Ks
  · extract_lets +onlyGivenNames x1 x2
    have Kx2 : Q x2 := K.xlt h_xlt Ks
    clear_value x2
    split
    · rename_i y3 y4 y5
      have Ky4 : Q y4 := Keeps.fst y5 (askRead_keeps K h_xlt h_out Kx2)
      exact Ky4
    · rename_i y6 y7 y8 y9
      have Ky7 : Q y7 := Keeps.fst y9 (askRead_keeps K h_xlt h_out Kx2)
      exact dmaFault_keeps K h_rcv h_icu h_obs h_cex h_xlt h_out Ky7

theorem giveWalkers_keeps (K : Keeps P Q) (h_rcv : P .rcv = true) (h_icu : P .icu = true) (h_obs : P .obs = true) (h_cex : P .cex = true)
    (h_xlt : P .xlt = true) (h_out : P .out = true) {a : Nat} {a1 : State} (Ka1 : Q a1) : Q (giveWalkers a a1) := by
  induction a generalizing a1 with
  | zero =>
    unfold giveWalkers
    exact Ka1
  | succ n ih =>
    unfold giveWalkers
    split
    · exact ih (joinWaiting_keeps K h_xlt (takeWalker_keeps K h_rcv h_icu h_obs h_cex h_xlt h_out (K.xlt h_xlt Ka1)))
    · exact Ka1

theorem missWalk_keeps (K : Keeps P Q) (h_rcv : P .rcv = true) (h_icu : P .icu = true) (h_obs : P .obs = true) (h_cex : P .cex = true)
    (h_xlt : P .xlt = true) (h_out : P .out = true) {r : DmaReq} {s : State} (Ks : Q s) : Q (missWalk r s) := by
  unfold missWalk
  extract_lets +onlyGivenNames x1 x2
  have Kx2 : Q x2 := K.xlt h_xlt Ks
  clear_value x2
  split
  · exact joinWalk_keeps K h_xlt Kx2
  · exact giveWalkers_keeps K h_rcv h_icu h_obs h_cex h_xlt h_out (K.xlt h_xlt Kx2)

theorem settleInvalidations_keeps (K : Keeps P Q) (h_cex : P .cex = true) (h_xlt : P .xlt = true) {s : State} (Ks : Q s)
    : Q (settleInvalidations s) := by
  unfold settleInvalidations
  extract_lets +onlyGivenNames x1 x2 x3 x4
  have Kx4 : Q x4 := K.xlt h_xlt Ks
  clear_value x4
  exact Keeps.foldl (fun b5 b6 h7 => finish_keeps K h_cex (dropScope_keeps K h_xlt h7)) Kx4

theorem tlbHit_keeps (K : Keeps P Q) (h_rcv : P .rcv = true) (h_icu : P .icu = true) (h_obs : P .obs = true) (h_cex : P .cex = true)
    (h_xlt : P .xlt = true) (h_out : P .out = true) {r : DmaReq} {e : TlbEntry} {s : State} (Ks : Q s) : Q (tlbHit r e s) := by
  unfold tlbHit
  extract_lets +onlyGivenNames x1 x2
  have Kx2 : Q x2 := K.xlt h_xlt Ks
  clear_value x2
  exact present_keeps K h_rcv h_icu h_obs h_cex h_xlt h_out Kx2

end Sys2Proof.Machine
end

