-- ==== Sys2Proof/Laws/KeepsSlices.lean ====
section
/-!
SUPPORT. What the operations of Machine/Slices.lean keep, and which parts they may change (Laws/Keeps.lean).
-/

set_option Elab.async false
namespace Sys2Proof.Machine

variable {P : Part → Bool} {Q : State → Prop}

theorem dropFreeze_keeps (K : Keeps P Q) (h_cex : P .cex = true) (h_srg : P .srg = true) {sl cookie : Nat} {s : State} (Ks : Q s)
    : Q (dropFreeze sl cookie s) := by
  unfold dropFreeze
  extract_lets +onlyGivenNames x1
  have Kx1 : Q x1 := by
    unfold x1
    split
    · exact finish_keeps K h_cex Ks
    · exact Ks
  clear_value x1
  exact updSlice_keeps K h_srg Kx1

theorem clearCommands_keeps (K : Keeps P Q) (h_cex : P .cex = true) {sl : Nat} {s : State} (Ks : Q s) : Q (clearCommands sl s) := by
  unfold clearCommands
  extract_lets +onlyGivenNames x1
  exact K.cex h_cex Ks

theorem removeQueues_keeps (K : Keeps P Q) (h_rcv : P .rcv = true) (h_icu : P .icu = true) (h_obs : P .obs = true) (h_cex : P .cex = true)
    (h_srg : P .srg = true) (h_out : P .out = true) {sl cookie : Nat} {s : State} (Ks : Q s) : Q (removeQueues sl cookie s) := by
  unfold removeQueues
  refine Keeps.foldl ?_ Ks
  intro b1 b2 h3
  extract_lets +onlyGivenNames x4 x5
  have Kx5 : Q x5 := clearCapture_keeps K h_rcv h_cex (endAll_keeps K h_cex h3)
  clear_value x5
  extract_lets +onlyGivenNames x6
  have Kx6 : Q x6 := Keeps.foldl (fun b7 b8 h9 => completeCmd_keeps K h_rcv h_icu h_obs h_cex h_srg h_out h9) Kx5
  clear_value x6
  exact updQ_keeps K h_cex Kx6

theorem emptySlice_keeps (K : Keeps P Q) (h_rcv : P .rcv = true) (h_icu : P .icu = true) (h_obs : P .obs = true) (h_cex : P .cex = true)
    (h_srg : P .srg = true) (h_kst : P .kst = true) (h_engKeys : P .engKeys = true) (h_kwe : P .kwe = true) (h_pke : P .pke = true)
    (h_mem : P .mem = true) (h_link : P .link = true) (h_sheaf : P .sheaf = true) (h_ac : P .ac = true) (h_vt : P .vt = true) (h_out : P .out = true)
    {sl cookie : Nat} {s : State} (Ks : Q s) : Q (emptySlice sl cookie s) := by
  unfold emptySlice
  exact zeroizeSlice_keeps K h_rcv h_icu h_obs h_cex h_kst h_engKeys h_kwe h_pke h_mem h_link h_sheaf h_ac h_vt h_out (clearCommands_keeps K h_cex (removeQueues_keeps K h_rcv h_icu h_obs h_cex h_srg h_out Ks))

theorem resetSlice_keeps (K : Keeps P Q) (h_rcv : P .rcv = true) (h_icu : P .icu = true) (h_obs : P .obs = true) (h_cex : P .cex = true)
    (h_xlt : P .xlt = true) (h_srg : P .srg = true) (h_ods : P .ods = true) (h_kst : P .kst = true) (h_engKeys : P .engKeys = true)
    (h_kwe : P .kwe = true) (h_pke : P .pke = true) (h_ent : P .ent = true) (h_atu : P .atu = true) (h_mem : P .mem = true) (h_link : P .link = true)
    (h_sheaf : P .sheaf = true) (h_dom : P .dom = true) (h_pins : P .pins = true) (h_tdi : P .tdi = true) (h_ac : P .ac = true) (h_vt : P .vt = true)
    (h_out : P .out = true) {sl : Nat} {but : Option CmdKey} {s : State} (Ks : Q s) : Q (resetSlice sl but s) := by
  unfold resetSlice
  extract_lets +onlyGivenNames x1 x2 x3
  have Kx3 : Q x3 := abortSlice_keeps K h_rcv h_icu h_obs h_cex h_srg h_ods h_kst h_engKeys h_kwe h_pke h_ent h_mem h_link h_sheaf h_dom h_pins h_ac h_vt h_out (dropFreeze_keeps K h_cex h_srg Ks)
  clear_value x3
  extract_lets +onlyGivenNames x4
  have Kx4 : Q x4 := emptySlice_keeps K h_rcv h_icu h_obs h_cex h_srg h_kst h_engKeys h_kwe h_pke h_mem h_link h_sheaf h_ac h_vt h_out (endAll_keeps K h_cex Kx3)
  clear_value x4
  extract_lets +onlyGivenNames x5
  have Kx5 : Q x5 := clearSet_keeps K h_xlt Kx4
  clear_value x5
  extract_lets +onlyGivenNames x6 x7 x8
  have Kx8 : Q x8 := tdiError_keeps K h_rcv h_icu h_obs h_cex h_srg h_ods h_mem h_link h_dom h_tdi h_out (K.upd Kx5 (h_rcv := .inr ⟨h_rcv, fun h => h⟩) (h_atu := .inr h_atu))
  clear_value x8
  exact logRung_keeps K h_rcv h_icu h_obs h_out (updSlice_keeps K h_srg Kx8)

theorem admitWrite_keeps (K : Keeps P Q) (h_srg : P .srg = true) {sl : Nat} {f : SliceRec → SliceRec} {s : State} {after : State → State} (Ks : Q s)
    (Kafter : ∀ b0, Q b0 → Q (after b0)) : Q (admitWrite sl f s after).1 := by
  unfold admitWrite
  extract_lets +onlyGivenNames x1
  have Kx1 : Q x1 := updSlice_keeps K h_srg Ks
  clear_value x1
  exact Keeps.ite1 (Keeps.p1 (Kafter _ Kx1)) Ks

theorem sliceRecordWrite_keeps (K : Keeps P Q) (h_srg : P .srg = true) {slc : BitVec 4} {sub : BitVec 8} {value : Bytes} {s : State} (Ks : Q s)
    : Q (sliceRecordWrite slc sub value s).1 := by
  unfold sliceRecordWrite
  extract_lets +onlyGivenNames x1
  refine Keeps.ite1 Ks ?_
  refine Keeps.ite1 Ks ?_
  refine Keeps.ite1 Ks ?_
  refine Keeps.ite1 Ks ?_
  refine Keeps.ite1 ?_ ?_
  · refine admitWrite_keeps K h_srg Ks ?_
    intro b2 h3
    unfold id
    exact h3
  · refine admitWrite_keeps K h_srg Ks ?_
    intro b4 h5
    unfold id
    exact h5

theorem execUsageReport_keeps (K : Keeps P Q) (h_rcv : P .rcv = true) (h_obs : P .obs = true) (h_cex : P .cex = true) (h_xlt : P .xlt = true)
    (h_srg : P .srg = true) (h_ent : P .ent = true) (h_free : P .free = true) (h_out : P .out = true) {h : CmdHdr} {out : BitVec 64} {opt : BitVec 8}
    {x : Option XFault} {s : State} (Ks : Q s) : KeepsBy Q (execUsageReport h out opt x s) := by
  unfold execUsageReport
  refine KeepsBy.of ?_
  refine cexRun_keeps K h_cex h_srg Ks ?_
  intro b1 h2
  extract_lets +onlyGivenNames x3 x4
  refine checked_keeps K h_cex h2 ?_
  intro b5 h6
  split
  · exact xltFault_keeps K h_rcv h_obs h_cex h_xlt h6
  · split
    rename_i y7 y8 y9 y10
    have Ky9 : Q y9 := Keeps.snd y10 (signed_keeps K h_ent h_free h6)
    extract_lets +onlyGivenNames x11
    have Kx11 : Q x11 := updUsage_keeps K h_srg Ky9
    clear_value x11
    exact finish_keeps K h_cex (State.emit_keeps K h_out Kx11)

theorem targetEvidence_keeps (K : Keeps P Q) (h_srg : P .srg = true) (h_pke : P .pke = true) (h_ent : P .ent = true) (h_free : P .free = true)
    {sl : Nat} {b : Bytes} {s : State} (Ks : Q s) : Q (targetEvidence sl b s) := by
  unfold targetEvidence
  extract_lets +onlyGivenNames x1
  have Kx1 : Q x1 := domainPair_keeps K h_pke h_ent h_free Ks
  clear_value x1
  split
  extract_lets +onlyGivenNames x2
  split
  rename_i y3 y4 y5 y6
  have Ky5 : Q y5 := Keeps.snd y6 (signed_keeps K h_ent h_free Kx1)
  exact updSlice_keeps K h_srg Ky5

theorem trimWays_keeps (K : Keeps P Q) (h_rcv : P .rcv = true) (h_icu : P .icu = true) (h_obs : P .obs = true) (h_cex : P .cex = true)
    (h_mem : P .mem = true) (h_out : P .out = true) {sl : Nat} {s : State} (Ks : Q s) : Q (trimWays sl s) := by
  unfold trimWays
  extract_lets +onlyGivenNames x1
  exact Keeps.foldl (fun b2 b3 h4 => makeRoom_keeps K h_rcv h_icu h_obs h_cex h_mem h_out h4) Ks

theorem wayQuotaWrite_keeps (K : Keeps P Q) (h_rcv : P .rcv = true) (h_icu : P .icu = true) (h_obs : P .obs = true) (h_cex : P .cex = true)
    (h_srg : P .srg = true) (h_mem : P .mem = true) (h_out : P .out = true) {slc : BitVec 4} {value : Bytes} {s : State} (Ks : Q s)
    : Q (wayQuotaWrite slc value s).1 := by
  unfold wayQuotaWrite
  extract_lets +onlyGivenNames x1
  exact Keeps.ite1 Ks (Keeps.ite1 Ks (Keeps.ite1 Ks (admitWrite_keeps K h_srg Ks (fun b2 h3 => trimWays_keeps K h_rcv h_icu h_obs h_cex h_mem h_out h3))))

theorem sliceReleaseWrite_keeps (K : Keeps P Q) (h_rcv : P .rcv = true) (h_icu : P .icu = true) (h_obs : P .obs = true) (h_cex : P .cex = true)
    (h_xlt : P .xlt = true) (h_srg : P .srg = true) (h_kst : P .kst = true) (h_engKeys : P .engKeys = true) (h_kwe : P .kwe = true)
    (h_pke : P .pke = true) (h_mem : P .mem = true) (h_link : P .link = true) (h_sheaf : P .sheaf = true) (h_ac : P .ac = true) (h_vt : P .vt = true)
    (h_out : P .out = true) {slc : BitVec 4} {value : Bool} {s : State} (Ks : Q s) : Q (sliceReleaseWrite slc value s).1 := by
  unfold sliceReleaseWrite
  extract_lets +onlyGivenNames x1
  exact Keeps.ite1 Ks (Keeps.ite1 Ks (Keeps.ite1 Ks (Keeps.p1 (updSlice_keeps K h_srg (clearSet_keeps K h_xlt (zeroizeSlice_keeps K h_rcv h_icu h_obs h_cex h_kst h_engKeys h_kwe h_pke h_mem h_link h_sheaf h_ac h_vt h_out (clearCommands_keeps K h_cex Ks)))))))

theorem execSliceRelease_keeps (K : Keeps P Q) (h_rcv : P .rcv = true) (h_icu : P .icu = true) (h_obs : P .obs = true) (h_cex : P .cex = true)
    (h_xlt : P .xlt = true) (h_srg : P .srg = true) (h_ods : P .ods = true) (h_kst : P .kst = true) (h_engKeys : P .engKeys = true)
    (h_kwe : P .kwe = true) (h_pke : P .pke = true) (h_mem : P .mem = true) (h_link : P .link = true) (h_sheaf : P .sheaf = true)
    (h_ac : P .ac = true) (h_vt : P .vt = true) (h_out : P .out = true) {who : Principal} {slc : BitVec 4} {value : Bool} {s : State} (Ks : Q s)
    : KeepsBy Q (execSliceRelease who slc value s) := by
  unfold execSliceRelease
  exact KeepsBy.of (dictWrite_keeps K h_ods h_out Ks (fun b1 h2 => sliceReleaseWrite_keeps K h_rcv h_icu h_obs h_cex h_xlt h_srg h_kst h_engKeys h_kwe h_pke h_mem h_link h_sheaf h_ac h_vt h_out h2))

theorem endEscalation_keeps (K : Keeps P Q) (h_rcv : P .rcv = true) {sl : Nat} {s : State} (Ks : Q s) : Q (endEscalation sl s) := by
  unfold endEscalation
  exact K.rcv h_rcv (fun h => h) Ks

theorem execSliceReset_keeps (K : Keeps P Q) (h_rcv : P .rcv = true) (h_icu : P .icu = true) (h_obs : P .obs = true) (h_cex : P .cex = true)
    (h_xlt : P .xlt = true) (h_srg : P .srg = true) (h_ods : P .ods = true) (h_kst : P .kst = true) (h_engKeys : P .engKeys = true)
    (h_kwe : P .kwe = true) (h_pke : P .pke = true) (h_ent : P .ent = true) (h_atu : P .atu = true) (h_mem : P .mem = true) (h_link : P .link = true)
    (h_sheaf : P .sheaf = true) (h_dom : P .dom = true) (h_pins : P .pins = true) (h_tdi : P .tdi = true) (h_ac : P .ac = true) (h_vt : P .vt = true)
    (h_out : P .out = true) {h : CmdHdr} {s : State} (Ks : Q s) : KeepsBy Q (execSliceReset h s) := by
  unfold execSliceReset
  exact KeepsBy.of (cexRun_keeps K h_cex h_srg Ks (fun b1 h2 => checked_keeps K h_cex h2 (fun b3 h4 => finish_keeps K h_cex (resetSlice_keeps K h_rcv h_icu h_obs h_cex h_xlt h_srg h_ods h_kst h_engKeys h_kwe h_pke h_ent h_atu h_mem h_link h_sheaf h_dom h_pins h_tdi h_ac h_vt h_out (endEscalation_keeps K h_rcv h4)))))

theorem execContextUnbind_keeps (K : Keeps P Q) (h_cex : P .cex = true) (h_srg : P .srg = true) {h : CmdHdr} {context : BitVec 16} {s : State} (Ks
    : Q s) : KeepsBy Q (execContextUnbind h context s) := by
  unfold execContextUnbind
  refine KeepsBy.of ?_
  refine cexRun_keeps K h_cex h_srg Ks ?_
  intro b1 h2
  extract_lets +onlyGivenNames x3
  exact checked_keeps K h_cex h2 (fun b4 h5 => finish_keeps K h_cex (K.cex h_cex h5))

theorem execSliceRecordWrite_keeps (K : Keeps P Q) (h_srg : P .srg = true) (h_ods : P .ods = true) (h_out : P .out = true) {who : Principal}
    {slc : BitVec 4} {sub : BitVec 8} {value : Bytes} {s : State} (Ks : Q s) : KeepsBy Q (execSliceRecordWrite who slc sub value s) := by
  unfold execSliceRecordWrite
  exact KeepsBy.of (dictWrite_keeps K h_ods h_out Ks (fun b1 h2 => sliceRecordWrite_keeps K h_srg h2))

theorem createSlice_keeps (K : Keeps P Q) (h_srg : P .srg = true) (h_ods : P .ods = true) (h_pke : P .pke = true) (h_ent : P .ent = true)
    (h_atu : P .atu = true) (h_tdi : P .tdi = true) (h_free : P .free = true) {b : Bytes} {s : State} (Ks : Q s) : Q (createSlice b s) := by
  unfold createSlice
  extract_lets +onlyGivenNames x1 x2
  have Kx2 : Q x2 := setTdi_keeps K h_ods h_tdi (by decide) (extendSmr_keeps K h_atu (updSlice_keeps K h_srg Ks))
  clear_value x2
  exact Keeps.ite (targetEvidence_keeps K h_srg h_pke h_ent h_free Kx2) Kx2

theorem execSliceCreate_keeps (K : Keeps P Q) (h_rcv : P .rcv = true) (h_obs : P .obs = true) (h_cex : P .cex = true) (h_xlt : P .xlt = true)
    (h_srg : P .srg = true) (h_ods : P .ods = true) (h_pke : P .pke = true) (h_ent : P .ent = true) (h_atu : P .atu = true) (h_tdi : P .tdi = true)
    (h_free : P .free = true) {h : CmdHdr} {specBva : BitVec 64} {x : Option XFault} {record : Bytes} {s : State} (Ks : Q s)
    : KeepsBy Q (execSliceCreate h specBva x record s) := by
  unfold execSliceCreate
  refine KeepsBy.of ?_
  refine cexRun_keeps K h_cex h_srg Ks ?_
  intro b1 h2
  refine checked_keeps K h_cex h2 ?_
  intro b3 h4
  split
  · exact xltFault_keeps K h_rcv h_obs h_cex h_xlt h4
  · exact checked_keeps K h_cex h4 (fun b5 h6 => finish_keeps K h_cex (createSlice_keeps K h_srg h_ods h_pke h_ent h_atu h_tdi h_free h6))

theorem execContextBind_keeps (K : Keeps P Q) (h_cex : P .cex = true) (h_srg : P .srg = true) {h : CmdHdr} {context : BitVec 16} {pasid : BitVec 32}
    {s : State} (Ks : Q s) : KeepsBy Q (execContextBind h context pasid s) := by
  unfold execContextBind
  refine KeepsBy.of ?_
  refine cexRun_keeps K h_cex h_srg Ks ?_
  intro b1 h2
  split
  exact checked_keeps K h_cex h2 (fun b3 h4 => finish_keeps K h_cex (K.cex h_cex h4))

theorem execMcWayQuotaWrite_keeps (K : Keeps P Q) (h_rcv : P .rcv = true) (h_icu : P .icu = true) (h_obs : P .obs = true) (h_cex : P .cex = true)
    (h_srg : P .srg = true) (h_ods : P .ods = true) (h_mem : P .mem = true) (h_out : P .out = true) {who : Principal} {slc : BitVec 4} {value : Bytes}
    {s : State} (Ks : Q s) : KeepsBy Q (execMcWayQuotaWrite who slc value s) := by
  unfold execMcWayQuotaWrite
  exact KeepsBy.of (dictWrite_keeps K h_ods h_out Ks (fun b1 h2 => wayQuotaWrite_keeps K h_rcv h_icu h_obs h_cex h_srg h_mem h_out h2))

end Sys2Proof.Machine
end

