-- ==== Sys2Proof/Laws/KeepsXlt.lean ====
section
/-!
SUPPORT. What the operations of Machine/Xlt.lean keep, and which parts they may change (Laws/Keeps.lean).
-/

set_option Elab.async false
namespace Sys2Proof.Machine

variable {P : Part → Bool} {Q : State → Prop}

theorem restartWalks_keeps (K : Keeps P Q) (h_rcv : P .rcv = true) (h_icu : P .icu = true) (h_obs : P .obs = true) (h_cex : P .cex = true)
    (h_xlt : P .xlt = true) (h_out : P .out = true) {p : DmaReq → Bool} {s : State} (Ks : Q s) : Q (restartWalks p s) := by
  unfold restartWalks
  extract_lets +onlyGivenNames x1 x2 x3
  have Kx3 : Q x3 := K.xlt h_xlt Ks
  clear_value x3
  exact giveWalkers_keeps K h_rcv h_icu h_obs h_cex h_xlt h_out Kx3

theorem writeRoot_keeps (K : Keeps P Q) (h_rcv : P .rcv = true) (h_icu : P .icu = true) (h_obs : P .obs = true) (h_cex : P .cex = true)
    (h_xlt : P .xlt = true) (h_out : P .out = true) {who : Principal} {stage1 : Bool} {n i : Nat} {value : BitVec 64} {s : State} (Ks : Q s)
    : Q (writeRoot who stage1 n i value s).1 := by
  unfold writeRoot
  extract_lets +onlyGivenNames x1 x2
  refine Keeps.ite1 Ks ?_
  refine Keeps.ite1 Ks ?_
  refine Keeps.ite1 Ks ?_
  refine Keeps.ite1 Ks ?_
  refine Keeps.ite1 ?_ ?_
  · extract_lets +onlyGivenNames x3 x4 x5
    have Kx5 : Q x5 := K.xlt h_xlt Ks
    clear_value x5
    exact Keeps.p1 (restartWalks_keeps K h_rcv h_icu h_obs h_cex h_xlt h_out Kx5)
  · extract_lets +onlyGivenNames x6 x7
    have Kx7 : Q x7 := K.xlt h_xlt Ks
    clear_value x7
    exact Keeps.p1 (restartWalks_keeps K h_rcv h_icu h_obs h_cex h_xlt h_out Kx7)

theorem endWalk_keeps (K : Keeps P Q) (h_rcv : P .rcv = true) (h_icu : P .icu = true) (h_obs : P .obs = true) (h_cex : P .cex = true)
    (h_xlt : P .xlt = true) (h_out : P .out = true) {i : Nat} {w : Walk} {res : Except XFlt (Leaf × Nat)} {s : State} (Ks : Q s)
    : Q (endWalk i w res s) := by
  unfold endWalk
  extract_lets +onlyGivenNames x1 x2
  have Kx2 : Q x2 := K.xlt h_xlt Ks
  clear_value x2
  extract_lets +onlyGivenNames x3
  have Kx3 : Q x3 := by
    unfold x3
    split
    · exact Keeps.foldl (fun b4 b5 h6 => dmaFault_keeps K h_rcv h_icu h_obs h_cex h_xlt h_out h6) Kx2
    · extract_lets +onlyGivenNames x7
      have Kx7 : Q x7 := K.xlt h_xlt Kx2
      clear_value x7
      exact Keeps.foldl (fun b8 b9 h10 => finishWalk_keeps K h_rcv h_icu h_obs h_cex h_xlt h_out h10) Kx7
  clear_value x3
  exact giveWalkers_keeps K h_rcv h_icu h_obs h_cex h_xlt h_out (settleInvalidations_keeps K h_cex h_xlt Kx3)

theorem execTableWalkRead_keeps (K : Keeps P Q) (h_rcv : P .rcv = true) (h_icu : P .icu = true) (h_obs : P .obs = true) (h_cex : P .cex = true)
    (h_xlt : P .xlt = true) (h_out : P .out = true) {walker : BitVec 3} {word : Option (BitVec 64)} {s : State} (Ks : Q s)
    : KeepsBy Q (execTableWalkRead walker word s) := by
  unfold execTableWalkRead
  refine KeepsBy.of ?_
  extract_lets +onlyGivenNames x1
  split
  · exact Ks
  · split
    · exact endWalk_keeps K h_rcv h_icu h_obs h_cex h_xlt h_out Ks
    · split
      · exact endWalk_keeps K h_rcv h_icu h_obs h_cex h_xlt h_out Ks
      · exact endWalk_keeps K h_rcv h_icu h_obs h_cex h_xlt h_out Ks
      · split
        · rename_i y2 y3 y4
          have Ky3 : Q y3 := Keeps.fst y4 (askRead_keeps K h_xlt h_out Ks)
          exact Ky3
        · rename_i y5 y6 y7 y8
          have Ky6 : Q y6 := Keeps.fst y8 (askRead_keeps K h_xlt h_out Ks)
          exact endWalk_keeps K h_rcv h_icu h_obs h_cex h_xlt h_out Ky6

theorem execBlockDmaAccess_keeps (K : Keeps P Q) (h_rcv : P .rcv = true) (h_icu : P .icu = true) (h_obs : P .obs = true) (h_cex : P .cex = true)
    (h_xlt : P .xlt = true) (h_out : P .out = true) {set : BitVec 5} {pasid : BitVec 20} {stage1 : Bool} {bva : BitVec 64} {read write ring : Bool}
    {key : Option CmdKey} {s : State} (Ks : Q s) : KeepsBy Q (execBlockDmaAccess set pasid stage1 bva read write ring key s) := by
  unfold execBlockDmaAccess
  refine KeepsBy.of ?_
  extract_lets +onlyGivenNames x1
  refine Keeps.ite Ks ?_
  split
  · exact Keeps.ite (tlbHit_keeps K h_rcv h_icu h_obs h_cex h_xlt h_out Ks) (missWalk_keeps K h_rcv h_icu h_obs h_cex h_xlt h_out Ks)
  · exact missWalk_keeps K h_rcv h_icu h_obs h_cex h_xlt h_out Ks

theorem execXltInvalidate_keeps (K : Keeps P Q) (h_cex : P .cex = true) (h_xlt : P .xlt = true) (h_srg : P .srg = true) {h : CmdHdr} {bva : BitVec 64}
    {sizeLog2 scope : BitVec 8} {pasid : BitVec 32} {s : State} (Ks : Q s) : KeepsBy Q (execXltInvalidate h bva sizeLog2 scope pasid s) := by
  unfold execXltInvalidate
  refine KeepsBy.of ?_
  refine cexRun_keeps K h_cex h_srg Ks ?_
  intro b1 h2
  extract_lets +onlyGivenNames x3 x4
  refine checked_keeps K h_cex h2 ?_
  intro b5 h6
  extract_lets +onlyGivenNames x7 x8
  have Kx8 : Q x8 := dropScope_keeps K h_xlt h6
  clear_value x8
  exact settleInvalidations_keeps K h_cex h_xlt (K.xlt h_xlt Kx8)

theorem execS2RootWrite_keeps (K : Keeps P Q) (h_rcv : P .rcv = true) (h_icu : P .icu = true) (h_obs : P .obs = true) (h_cex : P .cex = true)
    (h_xlt : P .xlt = true) (h_ods : P .ods = true) (h_out : P .out = true) {who : Principal} {stage1 : Bool} {set : BitVec 5} {ix : BitVec 6}
    {value : BitVec 64} {s : State} (Ks : Q s) : KeepsBy Q (execS2RootWrite who stage1 set ix value s) := by
  unfold execS2RootWrite
  exact KeepsBy.of (dictWrite_keeps K h_ods h_out Ks (fun b1 h2 => writeRoot_keeps K h_rcv h_icu h_obs h_cex h_xlt h_out h2))

end Sys2Proof.Machine
end

