-- ==== Sys2Proof/Laws/KeepsRecovery.lean ====
section
/-!
SUPPORT. What the operations of Machine/Recovery.lean keep, and which parts they may change (Laws/Keeps.lean).
-/

set_option Elab.async false
namespace Sys2Proof.Machine

variable {P : Part → Bool} {Q : State → Prop}

theorem firstErrorClearWrite_keeps (K : Keeps P Q) (h_rcv : P .rcv = true) {value : Bool} {s : State} (Ks : Q s)
    : Q (firstErrorClearWrite value s).1 := by
  unfold firstErrorClearWrite
  exact Keeps.p1 (Keeps.ite (K.rcv h_rcv (fun h => h) Ks) Ks)

theorem execFirstErrorClear_keeps (K : Keeps P Q) (h_rcv : P .rcv = true) (h_ods : P .ods = true) (h_out : P .out = true) {who : Principal}
    {value : Bool} {s : State} (Ks : Q s) : KeepsBy Q (execFirstErrorClear who value s) := by
  unfold execFirstErrorClear
  exact KeepsBy.of (dictWrite_keeps K h_ods h_out Ks (fun b1 h2 => firstErrorClearWrite_keeps K h_rcv h2))

theorem resetPairIcu_keeps (K : Keeps P Q) (h_icu : P .icu = true) {pair : Bool} {s : State} (Ks : Q s) : Q (resetPairIcu pair s) :=
  icuUpdateBoth_keeps K h_icu (K.icu h_icu (fun n => NestOk.of_set rfl List.Pairwise.nil n) Ks)

theorem resetPair_keeps (K : Keeps P Q) (h_icu : P .icu = true) (h_ods : P .ods = true) (h_dom : P .dom = true) {pair : Bool} {s : State} (Ks : Q s) :
    Q (resetPair pair s) := by
  unfold resetPair
  extract_lets i3c doe mctp gone o d t
  have ht : Q t := by
    refine K.upd Ks (h_ods := .inr ⟨h_ods, LotKept.of_eq ?_⟩) (h_dom := .inr h_dom)
    split <;> rfl
  exact resetPairIcu_keeps K h_icu ht

theorem engineLoss_keeps (K : Keeps P Q) (h_rcv : P .rcv = true) (h_icu : P .icu = true) (h_obs : P .obs = true) (h_cex : P .cex = true)
    (h_xlt : P .xlt = true) (h_ods : P .ods = true) (h_mem : P .mem = true) (h_dom : P .dom = true) (h_out : P .out = true) {unit : Nat} {s : State}
    (Ks : Q s) : Q (engineLoss unit s) := by
  unfold engineLoss
  exact Keeps.ite (resetPair_keeps K h_icu h_ods h_dom Ks) (Keeps.ite (resetPair_keeps K h_icu h_ods h_dom Ks) (Keeps.ite (Keeps.foldl (fun b1 b2 h3 => pausePlough_keeps K h_rcv h_icu h_obs h_cex h_mem h_out h3) Ks) (Keeps.ite (restartWalks_keeps K h_rcv h_icu h_obs h_cex h_xlt h_out (K.xlt h_xlt Ks)) Ks)))

theorem resetChipWrite_keeps (K : Keeps P Q) (h_rcv : P .rcv = true) (h_icu : P .icu = true) (h_obs : P .obs = true) (h_cex : P .cex = true)
    (h_srg : P .srg = true) (h_ods : P .ods = true) (h_kst : P .kst = true) (h_engKeys : P .engKeys = true) (h_kwe : P .kwe = true)
    (h_pke : P .pke = true) (h_ent : P .ent = true) (h_mem : P .mem = true) (h_link : P .link = true) (h_sheaf : P .sheaf = true)
    (h_dom : P .dom = true) (h_pins : P .pins = true) (h_ac : P .ac = true) (h_vt : P .vt = true) (h_out : P .out = true) {value : Bool} {s : State}
    (Ks : Q s) : Q (resetChipWrite value s).1 := by
  unfold resetChipWrite
  exact Keeps.p1 (Keeps.ite (requestChipReset_keeps K h_rcv h_icu h_obs h_cex h_srg h_ods h_kst h_engKeys h_kwe h_pke h_ent h_mem h_link h_sheaf h_dom h_pins h_ac h_vt h_out Ks) Ks)

theorem dumpClearWrite_keeps (K : Keeps P Q) (h_rcv : P .rcv = true) {value : Bool} {s : State} (Ks : Q s) : Q (dumpClearWrite value s).1 := by
  unfold dumpClearWrite
  exact Keeps.p1 (Keeps.ite (K.rcv h_rcv (fun h => h) Ks) Ks)

theorem resetEngine_keeps (K : Keeps P Q) (h_rcv : P .rcv = true) (h_icu : P .icu = true) (h_obs : P .obs = true) (h_cex : P .cex = true)
    (h_xlt : P .xlt = true) (h_ods : P .ods = true) (h_mem : P .mem = true) (h_dom : P .dom = true) (h_out : P .out = true) {unit slice : Nat}
    {s : State} (Ks : Q s) : Q (resetEngine unit slice s) := by
  unfold resetEngine
  exact engineLoss_keeps K h_rcv h_icu h_obs h_cex h_xlt h_ods h_mem h_dom h_out (engineRung_keeps K h_rcv h_icu h_obs h_out Ks)

theorem applyRung_keeps (K : Keeps P Q) (h_rcv : P .rcv = true) (h_icu : P .icu = true) (h_obs : P .obs = true) (h_cex : P .cex = true)
    (h_xlt : P .xlt = true) (h_srg : P .srg = true) (h_ods : P .ods = true) (h_kst : P .kst = true) (h_engKeys : P .engKeys = true)
    (h_kwe : P .kwe = true) (h_pke : P .pke = true) (h_ent : P .ent = true) (h_atu : P .atu = true) (h_mem : P .mem = true) (h_link : P .link = true)
    (h_sheaf : P .sheaf = true) (h_dom : P .dom = true) (h_pins : P .pins = true) (h_tdi : P .tdi = true) (h_ac : P .ac = true) (h_vt : P .vt = true)
    (h_out : P .out = true) {rung cause unit slice ctx : Nat} {s : State} (Ks : Q s) : Q (applyRung rung cause unit slice ctx s) := by
  unfold applyRung
  extract_lets +onlyGivenNames x1
  have Kx1 : ∀ b0 b1, Q b1 → Q (x1 b0 b1) := by
    intro b2 b3 b4
    unfold x1
    exact K.rcv h_rcv (fun h => h) b4
  clear_value x1
  split
  · exact killContext_keeps K h_rcv h_icu h_obs h_cex h_srg h_kst h_engKeys h_kwe h_mem h_link h_dom h_out (Kx1 _ _ Ks)
  · exact resetEngine_keeps K h_rcv h_icu h_obs h_cex h_xlt h_ods h_mem h_dom h_out Ks
  · exact resetSlice_keeps K h_rcv h_icu h_obs h_cex h_xlt h_srg h_ods h_kst h_engKeys h_kwe h_pke h_ent h_atu h_mem h_link h_sheaf h_dom h_pins h_tdi h_ac h_vt h_out (Kx1 _ _ Ks)
  · exact requestChipReset_keeps K h_rcv h_icu h_obs h_cex h_srg h_ods h_kst h_engKeys h_kwe h_pke h_ent h_mem h_link h_sheaf h_dom h_pins h_ac h_vt h_out Ks
  · exact Ks

theorem kickWrite_keeps (K : Keeps P Q) (h_rcv : P .rcv = true) {pair : Bool} {s : State} (Ks : Q s) : Q (kickWrite pair s).1 := by
  unfold kickWrite
  exact Keeps.p1 (K.rcv h_rcv (fun h => h) Ks)

theorem execKillLimitExpiry_keeps (K : Keeps P Q) (h_rcv : P .rcv = true) (h_icu : P .icu = true) (h_obs : P .obs = true) (h_cex : P .cex = true)
    (h_xlt : P .xlt = true) (h_ods : P .ods = true) (h_kst : P .kst = true) (h_engKeys : P .engKeys = true) (h_kwe : P .kwe = true)
    (h_mem : P .mem = true) (h_dom : P .dom = true) (h_out : P .out = true) {unit : BitVec 8} {s : State} (Ks : Q s)
    : KeepsBy Q (execKillLimitExpiry unit s) := by
  unfold execKillLimitExpiry
  refine KeepsBy.of ?_
  extract_lets +onlyGivenNames x1 x2 x3
  refine Keeps.ite Ks ?_
  extract_lets +onlyGivenNames x4
  have Kx4 : Q x4 := resetEngine_keeps K h_rcv h_icu h_obs h_cex h_xlt h_ods h_mem h_dom h_out Ks
  clear_value x4
  split
  · exact Keeps.ite (kweStart_keeps K h_kwe h_out (settleKills_keeps K h_cex h_kst h_engKeys h_kwe (State.emit_keeps K h_out (K.kwe h_kwe Kx4)))) Kx4
  · exact Kx4

theorem execEngineResetDone_keeps (K : Keeps P Q) (h_rcv : P .rcv = true) (h_icu : P .icu = true) (h_obs : P .obs = true) (h_mem : P .mem = true)
    (h_out : P .out = true) {unit : BitVec 8} {s : State} (Ks : Q s) : KeepsBy Q (execEngineResetDone unit s) := by
  unfold execEngineResetDone
  refine KeepsBy.of ?_
  extract_lets +onlyGivenNames x1
  refine Keeps.ite Ks ?_
  extract_lets +onlyGivenNames x2 x3
  have Kx3 : Q x3 := K.rcv h_rcv (fun h => h) Ks
  clear_value x3
  extract_lets +onlyGivenNames x4
  have Kx4 : Q x4 := Keeps.ite (traceRec_keeps K h_icu h_obs h_out Kx3) Kx3
  clear_value x4
  exact pend_keeps K h_rcv h_icu h_obs h_out (State.emit_keeps K h_out (Keeps.ite (resumePloughs_keeps K h_mem Kx4) Kx4))

theorem execChipCoopTimeout_keeps (K : Keeps P Q) (h_rcv : P .rcv = true) (h_icu : P .icu = true) (h_obs : P .obs = true) (h_pins : P .pins = true)
    (h_out : P .out = true) {s : State} (Ks : Q s) : KeepsBy Q (execChipCoopTimeout s) := by
  unfold execChipCoopTimeout
  exact KeepsBy.of (Keeps.ite (requestPowerCycle_keeps K h_rcv h_icu h_obs h_pins h_out Ks) Ks)

theorem consumeLog_keeps (K : Keeps P Q) (h_rcv : P .rcv = true) {index : Nat} {s : State} (Ks : Q s) : Q (consumeLog index s).1 := by
  unfold consumeLog
  extract_lets n
  split
  · exact Ks
  · rename_i hn
    refine K.rcv h_rcv (fun ⟨hp, hc, hu⟩ => ⟨hp, Nat.mod_lt _ (by decide), ?_⟩) Ks
    have hn' : ¬ (s.rcv.produced + 2 ^ 32 - s.rcv.consumed) % 2 ^ 32 < (index + 2 ^ 32 - s.rcv.consumed) % 2 ^ 32 := hn
    have hu' : (s.rcv.produced + 2 ^ 32 - s.rcv.consumed) % 2 ^ 32 ≤ 256 := hu
    show (s.rcv.produced + 2 ^ 32 - index % 2 ^ 32) % 2 ^ 32 ≤ 256
    omega

theorem takeDump_keeps (K : Keeps P Q) (h_rcv : P .rcv = true) {unit rung : Nat} {units : List (BitVec 256)} {s : State} (Ks : Q s)
    : Q (takeDump unit rung units s) := by
  unfold takeDump
  extract_lets +onlyGivenNames x1
  exact Keeps.ite (K.rcv h_rcv (fun h => h) Ks) (K.rcv h_rcv (fun h => h) Ks)

theorem execChipResetGo_keeps (K : Keeps P Q) (h_clk : P .clk = true) (h_rcv : P .rcv = true) (h_icu : P .icu = true) (h_obs : P .obs = true)
    (h_sen : P .sen = true) (h_cex : P .cex = true) (h_xlt : P .xlt = true) (h_srg : P .srg = true) (h_ods : P .ods = true) (h_kst : P .kst = true)
    (h_engKeys : P .engKeys = true) (h_kwe : P .kwe = true) (h_pke : P .pke = true) (h_ent : P .ent = true) (h_atu : P .atu = true)
    (h_lcc : P .lcc = true) (h_mem : P .mem = true) (h_link : P .link = true) (h_sheaf : P .sheaf = true) (h_dom : P .dom = true)
    (h_pins : P .pins = true) (h_boot : P .boot = true) (h_tdi : P .tdi = true) (h_ac : P .ac = true) (h_vt : P .vt = true) {value : BitVec 32}
    {s : State} (Ks : Q s) : KeepsBy Q (execChipResetGo value s) := by
  unfold execChipResetGo
  exact KeepsBy.of (Keeps.ite (chipResetCause_keeps K h_clk h_rcv h_icu h_obs h_sen h_cex h_xlt h_srg h_ods h_kst h_engKeys h_kwe h_pke h_ent h_atu h_lcc h_mem h_link h_sheaf h_dom h_pins h_boot h_tdi h_ac h_vt Ks) Ks)

theorem execWatchdogWarning_keeps (K : Keeps P Q) (h_rcv : P .rcv = true) (h_icu : P .icu = true) (h_obs : P .obs = true) (h_out : P .out = true)
    {unit : BitVec 8} {pair : Bool} {s : State} (Ks : Q s) : KeepsBy Q (execWatchdogWarning unit pair s) := by
  unfold execWatchdogWarning
  exact KeepsBy.of (Keeps.ite (obsAdd_keeps K h_obs (icuAssert_keeps K h_rcv h_icu h_obs h_out Ks)) Ks)

theorem execContextKill_keeps (K : Keeps P Q) (h_rcv : P .rcv = true) (h_icu : P .icu = true) (h_obs : P .obs = true) (h_cex : P .cex = true)
    (h_srg : P .srg = true) (h_kst : P .kst = true) (h_engKeys : P .engKeys = true) (h_kwe : P .kwe = true) (h_mem : P .mem = true)
    (h_link : P .link = true) (h_dom : P .dom = true) (h_out : P .out = true) {h : CmdHdr} {context : BitVec 16} {s : State} (Ks : Q s)
    : KeepsBy Q (execContextKill h context s) := by
  unfold execContextKill
  exact KeepsBy.of (cexRun_keeps K h_cex h_srg Ks (fun b1 h2 => checked_keeps K h_cex h2 (fun b3 h4 => killContext_keeps K h_rcv h_icu h_obs h_cex h_srg h_kst h_engKeys h_kwe h_mem h_link h_dom h_out h4)))

theorem execResetChipReq_keeps (K : Keeps P Q) (h_rcv : P .rcv = true) (h_icu : P .icu = true) (h_obs : P .obs = true) (h_cex : P .cex = true)
    (h_srg : P .srg = true) (h_ods : P .ods = true) (h_kst : P .kst = true) (h_engKeys : P .engKeys = true) (h_kwe : P .kwe = true)
    (h_pke : P .pke = true) (h_ent : P .ent = true) (h_mem : P .mem = true) (h_link : P .link = true) (h_sheaf : P .sheaf = true)
    (h_dom : P .dom = true) (h_pins : P .pins = true) (h_ac : P .ac = true) (h_vt : P .vt = true) (h_out : P .out = true) {who : Principal}
    {value : Bool} {s : State} (Ks : Q s) : KeepsBy Q (execResetChipReq who value s) := by
  unfold execResetChipReq
  exact KeepsBy.of (dictWrite_keeps K h_ods h_out Ks (fun b1 h2 => resetChipWrite_keeps K h_rcv h_icu h_obs h_cex h_srg h_ods h_kst h_engKeys h_kwe h_pke h_ent h_mem h_link h_sheaf h_dom h_pins h_ac h_vt h_out h2))

theorem execDumpClear_keeps (K : Keeps P Q) (h_rcv : P .rcv = true) (h_ods : P .ods = true) (h_out : P .out = true) {who : Principal} {value : Bool}
    {s : State} (Ks : Q s) : KeepsBy Q (execDumpClear who value s) := by
  unfold execDumpClear
  exact KeepsBy.of (dictWrite_keeps K h_ods h_out Ks (fun b1 h2 => dumpClearWrite_keeps K h_rcv h2))

theorem execHostStall_keeps (K : Keeps P Q) (h_rcv : P .rcv = true) (h_icu : P .icu = true) (h_obs : P .obs = true) (h_out : P .out = true)
    {stack : BitVec 4} {s : State} (Ks : Q s) : KeepsBy Q (execHostStall stack s) := by
  unfold execHostStall
  refine KeepsBy.of ?_
  extract_lets +onlyGivenNames x1 x2
  exact Keeps.ite Ks (logError_keeps K h_rcv h_icu h_obs h_out (K.rcv h_rcv (fun h => h) Ks))

theorem expire_keeps (K : Keeps P Q) (h_rcv : P .rcv = true) (h_icu : P .icu = true) (h_obs : P .obs = true) (h_cex : P .cex = true)
    (h_xlt : P .xlt = true) (h_srg : P .srg = true) (h_ods : P .ods = true) (h_kst : P .kst = true) (h_engKeys : P .engKeys = true)
    (h_kwe : P .kwe = true) (h_pke : P .pke = true) (h_ent : P .ent = true) (h_atu : P .atu = true) (h_mem : P .mem = true) (h_link : P .link = true)
    (h_sheaf : P .sheaf = true) (h_dom : P .dom = true) (h_pins : P .pins = true) (h_tdi : P .tdi = true) (h_ac : P .ac = true) (h_vt : P .vt = true)
    (h_out : P .out = true) {cls unit slice ctx : Nat} {units : List (BitVec 256)} {s : State} (Ks : Q s)
    : Q (expire cls unit slice ctx units s) := by
  unfold expire
  extract_lets +onlyGivenNames x1 x2 x3
  have Kx3 : Q x3 := pend_keeps K h_rcv h_icu h_obs h_out (K.rcv h_rcv (fun h => h) Ks)
  clear_value x3
  extract_lets +onlyGivenNames x4
  have Kx4 : Q x4 := logError_keeps K h_rcv h_icu h_obs h_out Kx3
  clear_value x4
  exact applyRung_keeps K h_rcv h_icu h_obs h_cex h_xlt h_srg h_ods h_kst h_engKeys h_kwe h_pke h_ent h_atu h_mem h_link h_sheaf h_dom h_pins h_tdi h_ac h_vt h_out (takeDump_keeps K h_rcv Kx4)

theorem execWatchdogExpiry_keeps (K : Keeps P Q) (h_rcv : P .rcv = true) (h_icu : P .icu = true) (h_obs : P .obs = true) (h_cex : P .cex = true)
    (h_xlt : P .xlt = true) (h_srg : P .srg = true) (h_ods : P .ods = true) (h_kst : P .kst = true) (h_engKeys : P .engKeys = true)
    (h_kwe : P .kwe = true) (h_pke : P .pke = true) (h_ent : P .ent = true) (h_atu : P .atu = true) (h_mem : P .mem = true) (h_link : P .link = true)
    (h_sheaf : P .sheaf = true) (h_dom : P .dom = true) (h_pins : P .pins = true) (h_tdi : P .tdi = true) (h_ac : P .ac = true) (h_vt : P .vt = true)
    (h_out : P .out = true) {unit : BitVec 8} {slc : BitVec 5} {ctx : BitVec 16} {units : List (BitVec 256)} {s : State} (Ks : Q s)
    : KeepsBy Q (execWatchdogExpiry unit slc ctx units s) := by
  unfold execWatchdogExpiry
  exact KeepsBy.of (Keeps.ite (expire_keeps K h_rcv h_icu h_obs h_cex h_xlt h_srg h_ods h_kst h_engKeys h_kwe h_pke h_ent h_atu h_mem h_link h_sheaf h_dom h_pins h_tdi h_ac h_vt h_out Ks) Ks)

theorem execErrlogConsumedWrite_keeps (K : Keeps P Q) (h_rcv : P .rcv = true) (h_ods : P .ods = true) (h_out : P .out = true) {who : Principal}
    {index : BitVec 32} {s : State} (Ks : Q s) : KeepsBy Q (execErrlogConsumedWrite who index s) := by
  unfold execErrlogConsumedWrite
  exact KeepsBy.of (dictWrite_keeps K h_ods h_out Ks (fun b1 h2 => consumeLog_keeps K h_rcv h2))

theorem execCompatDrainTimeout_keeps (K : Keeps P Q) (h_rcv : P .rcv = true) (h_icu : P .icu = true) (h_obs : P .obs = true) (h_cex : P .cex = true)
    (h_xlt : P .xlt = true) (h_ods : P .ods = true) (h_mem : P .mem = true) (h_dom : P .dom = true) (h_out : P .out = true) {key : CmdKey}
    {engine : BitVec 16} {s : State} (Ks : Q s) : KeepsBy Q (execCompatDrainTimeout key engine s) := by
  unfold execCompatDrainTimeout
  refine KeepsBy.of ?_
  split
  · exact Ks
  · exact Keeps.ite Ks (compatEnd_keeps K h_cex (resetEngine_keeps K h_rcv h_icu h_obs h_cex h_xlt h_ods h_mem h_dom h_out Ks))

theorem cpKickWrite_keeps (K : Keeps P Q) (h_rcv : P .rcv = true) {pair value : Bool} {s : State} (Ks : Q s) : Q (cpKickWrite pair value s).1 := by
  unfold cpKickWrite
  exact Keeps.ite1 (kickWrite_keeps K h_rcv Ks) Ks

theorem execCpKick_keeps (K : Keeps P Q) (h_rcv : P .rcv = true) (h_ods : P .ods = true) (h_out : P .out = true) {who : Principal} {pair value : Bool}
    {s : State} (Ks : Q s) : KeepsBy Q (execCpKick who pair value s) := by
  unfold execCpKick
  exact KeepsBy.of (dictWrite_keeps K h_ods h_out Ks (fun b1 h2 => cpKickWrite_keeps K h_rcv h2))

theorem execLockstepMismatch_keeps (K : Keeps P Q) (h_rcv : P .rcv = true) (h_icu : P .icu = true) (h_obs : P .obs = true) (h_cex : P .cex = true)
    (h_xlt : P .xlt = true) (h_srg : P .srg = true) (h_ods : P .ods = true) (h_kst : P .kst = true) (h_engKeys : P .engKeys = true)
    (h_kwe : P .kwe = true) (h_pke : P .pke = true) (h_ent : P .ent = true) (h_atu : P .atu = true) (h_mem : P .mem = true) (h_link : P .link = true)
    (h_sheaf : P .sheaf = true) (h_dom : P .dom = true) (h_pins : P .pins = true) (h_tdi : P .tdi = true) (h_ac : P .ac = true) (h_vt : P .vt = true)
    (h_out : P .out = true) {pair : Bool} {units : List (BitVec 256)} {s : State} (Ks : Q s) : KeepsBy Q (execLockstepMismatch pair units s) := by
  unfold execLockstepMismatch
  exact KeepsBy.of (Keeps.ite Ks (expire_keeps K h_rcv h_icu h_obs h_cex h_xlt h_srg h_ods h_kst h_engKeys h_kwe h_pke h_ent h_atu h_mem h_link h_sheaf h_dom h_pins h_tdi h_ac h_vt h_out Ks))

end Sys2Proof.Machine
end

