-- ==== Sys2Proof/Laws/KeepsVault.lean ====
section
/-!
SUPPORT. What the operations of Machine/Vault.lean keep, and which parts they may change (Laws/Keeps.lean).
-/

set_option Elab.async false
namespace Sys2Proof.Machine

variable {P : Part → Bool} {Q : State → Prop}

theorem execVaultTempReading_keeps (K : Keeps P Q) (h_sen : P .sen = true) (h_vault : P .vault = true) {c : BitVec 16} {s : State} (Ks : Q s)
    : KeepsBy Q (execVaultTempReading c s) := by
  unfold execVaultTempReading
  refine KeepsBy.of ?_
  refine Keeps.ite Ks ?_
  extract_lets +onlyGivenNames x1 x2 x3 x4 x5
  have Kx5 : Q x5 := K.upd Ks (h_sen := .inr h_sen) (h_vault := .inr h_vault)
  clear_value x5
  exact Keeps.ite (vaultTrigger_keeps K h_vault Kx5) Kx5

theorem tamperCauseWrite_keeps (K : Keeps P Q) (h_vault : P .vault = true) {value : Bool} {s : State} (Ks : Q s)
    : Q (tamperCauseWrite value s).1 := by
  unfold tamperCauseWrite
  exact Keeps.ite1 Ks (Keeps.ite1 Ks (Keeps.p1 (K.vault h_vault Ks)))

theorem execZeroization_keeps (K : Keeps P Q) (h_rcv : P .rcv = true) (h_icu : P .icu = true) (h_obs : P .obs = true) (h_cex : P .cex = true)
    (h_srg : P .srg = true) (h_ods : P .ods = true) (h_vault : P .vault = true) (h_kst : P .kst = true) (h_engKeys : P .engKeys = true)
    (h_kwe : P .kwe = true) (h_pke : P .pke = true) (h_ent : P .ent = true) (h_mem : P .mem = true) (h_link : P .link = true)
    (h_sheaf : P .sheaf = true) (h_dom : P .dom = true) (h_pins : P .pins = true) (h_tdi : P .tdi = true) (h_ac : P .ac = true) (h_vt : P .vt = true)
    (h_out : P .out = true) {s : State} (Ks : Q s) : KeepsBy Q (execZeroization s) := by
  unfold execZeroization
  refine KeepsBy.of ?_
  refine Keeps.ite Ks ?_
  extract_lets +onlyGivenNames x1
  have Kx1 : Q x1 := recordTamper_keeps K h_vault Ks
  clear_value x1
  exact updAlarm_keeps K h_pins (clearVolatileKeys_keeps K h_rcv h_icu h_obs h_cex h_srg h_ods h_kst h_engKeys h_kwe h_pke h_ent h_mem h_link h_sheaf h_dom h_pins h_tdi h_ac h_vt h_out (clearRoot_keeps K h_vault (K.vault h_vault Kx1)))

theorem execZeroizationComplete_keeps (K : Keeps P Q) (h_rcv : P .rcv = true) (h_icu : P .icu = true) (h_obs : P .obs = true) (h_cex : P .cex = true)
    (h_srg : P .srg = true) (h_ods : P .ods = true) (h_vault : P .vault = true) (h_kst : P .kst = true) (h_engKeys : P .engKeys = true)
    (h_kwe : P .kwe = true) (h_pke : P .pke = true) (h_ent : P .ent = true) (h_lcc : P .lcc = true) (h_mem : P .mem = true) (h_link : P .link = true)
    (h_sheaf : P .sheaf = true) (h_dom : P .dom = true) (h_pins : P .pins = true) (h_tdi : P .tdi = true) (h_ac : P .ac = true) (h_vt : P .vt = true)
    (h_free : P .free = true) (h_out : P .out = true) {s : State} (Ks : Q s) : KeepsBy Q (execZeroizationComplete s) := by
  unfold execZeroizationComplete
  exact KeepsBy.of (Keeps.ite Ks (tamperRecords_keeps K h_rcv h_icu h_obs h_cex h_out (wipeAgain_keeps K h_rcv h_icu h_obs h_cex h_srg h_ods h_vault h_kst h_engKeys h_kwe h_pke h_ent h_lcc h_mem h_link h_sheaf h_dom h_pins h_tdi h_ac h_vt h_free h_out (updAlarm_keeps K h_pins (K.vault h_vault Ks)))))

theorem execVaultSupplyOutOfRange_keeps (K : Keeps P Q) (h_vault : P .vault = true) {mv : BitVec 16} {s : State} (Ks : Q s)
    : KeepsBy Q (execVaultSupplyOutOfRange mv s) := by
  unfold execVaultSupplyOutOfRange
  exact KeepsBy.of (Keeps.ite (vaultTrigger_keeps K h_vault Ks) Ks)

theorem execTamperCauseClear_keeps (K : Keeps P Q) (h_ods : P .ods = true) (h_vault : P .vault = true) (h_out : P .out = true) {who : Principal}
    {value : Bool} {s : State} (Ks : Q s) : KeepsBy Q (execTamperCauseClear who value s) := by
  unfold execTamperCauseClear
  exact KeepsBy.of (dictWrite_keeps K h_ods h_out Ks (fun b1 h2 => tamperCauseWrite_keeps K h_vault h2))

theorem execMeshCompare_keeps (K : Keeps P Q) (h_vault : P .vault = true) {mismatch short : Bool} {s : State} (Ks : Q s)
    : KeepsBy Q (execMeshCompare mismatch short s) := by
  unfold execMeshCompare
  refine KeepsBy.of ?_
  refine Keeps.ite Ks ?_
  extract_lets +onlyGivenNames x1 x2 x3
  have Kx3 : Q x3 := K.vault h_vault Ks
  clear_value x3
  exact Keeps.ite (vaultTrigger_keeps K h_vault Kx3) Kx3

theorem execVbatOutOfRange_keeps (K : Keeps P Q) (h_vault : P .vault = true) (h_pins : P .pins = true) {mv : BitVec 16} {s : State} (Ks : Q s)
    : KeepsBy Q (execVbatOutOfRange mv s) := by
  unfold execVbatOutOfRange
  exact KeepsBy.of (Keeps.ite Ks (vaultTrigger_keeps K h_vault (setVbat_keeps K h_vault h_pins Ks)))

end Sys2Proof.Machine
end

