-- ==== Sys2Proof/Laws/KeepsDictWrite.lean ====
section
/-!
SUPPORT. What the operations of Machine/DictWrite.lean keep, and which parts they may change (Laws/Keeps.lean).
-/

set_option Elab.async false
namespace Sys2Proof.Machine

variable {P : Part → Bool} {Q : State → Prop}

theorem writeOnce_keeps (K : Keeps P Q) {ok : Bool} {s f : State} (Ks : Q s) (Kf : Q f) : Q (writeOnce ok s f).1 := by
  unfold writeOnce
  exact Keeps.ite1 Kf Ks

theorem ranged_keeps (K : Keeps P Q) {lo hi : Nat} {bs : Bytes} {s : State} {f : Nat → State} (Ks : Q s) (Kf : ∀ b0, Q (f b0))
    : Q (ranged lo hi bs s f).1 := by
  unfold ranged
  extract_lets +onlyGivenNames x1
  exact Keeps.ite1 (Keeps.p1 (Kf _)) Ks

theorem writeSelf_keeps (K : Keeps P Q) (h_ods : P .ods = true) {ix sub : Nat} {bs : Bytes} {s : State} (Ks : Q s) : Q (writeSelf ix sub bs s).1 := by
  unfold writeSelf
  refine Keeps.ite1 ?_ (Keeps.ite1 (ranged_keeps K Ks (fun _ => K.ods h_ods (LotKept.of_eq rfl) Ks)) (Keeps.ite1 (ranged_keeps K Ks (fun _ => K.ods h_ods (LotKept.of_eq rfl) Ks)) Ks))
  unfold writeOnce
  split
  · rename_i hc
    refine K.ods h_ods (fun v hv e => absurd ?_ hv) Ks
    simp only [Bool.and_eq_true, beq_iff_eq] at hc
    have h0 := hc.2
    rw [e] at h0
    exact h0
  · exact Ks

theorem guardOnce {α : Type} {b : Bool} {o w : Option α} (h : (b && o.isNone) = true) (v : α) (e : o = some v) : w = some v := by
  rw [e] at h
  cases b <;> cases h

theorem writeLife_keeps (K : Keeps P Q) (h_rcv : P .rcv = true) (h_icu : P .icu = true) (h_obs : P .obs = true) (h_cex : P .cex = true)
    (h_vault : P .vault = true) (h_kst : P .kst = true) (h_engKeys : P .engKeys = true) (h_kwe : P .kwe = true) (h_pke : P .pke = true)
    (h_ent : P .ent = true) (h_atu : P .atu = true) (h_lcc : P .lcc = true) (h_mem : P .mem = true) (h_link : P .link = true)
    (h_sheaf : P .sheaf = true) (h_pins : P .pins = true) (h_ac : P .ac = true) (h_vt : P .vt = true) (h_free : P .free = true)
    (h_out : P .out = true) {ix sub : Nat} {bs : Bytes} {s : State}
    (Ks : Q s) : Q (writeLife ix sub bs s).1 := by
  unfold writeLife
  extract_lets raw
  refine Keeps.ite1 (lcTransitionWrite_keeps K h_lcc Ks) (Keeps.ite1 ?_ (Keeps.ite1 (Keeps.ite1 (debugRequestWrite_keeps K h_rcv h_icu h_obs h_cex h_kst h_engKeys h_kwe h_pke h_ent h_atu h_lcc h_mem h_link h_sheaf h_ac h_vt h_free h_out Ks)
    (Keeps.ite1 (debugResponseWrite_keeps K h_rcv h_icu h_obs h_cex h_kst h_engKeys h_kwe h_pke h_atu h_lcc h_mem h_link h_sheaf h_ac h_vt h_out Ks) (vaultProvisionWrite_keeps K h_vault h_ent h_lcc h_pins h_free Ks))) (Keeps.ite1 Ks (dmiAccess_keeps K h_rcv h_icu h_obs h_cex h_lcc h_free h_out Ks))))
  refine Keeps.ite1 ?_ (Keeps.ite1 ?_ ?_) <;> unfold writeOnce <;> split <;> first | exact Ks | rename_i hc
  · exact K.lcc h_lcc ⟨fun _ => BitVec.and_self, fun v e => guardOnce hc v e, fun _ e => e, fun _ e => e⟩ Ks
  · exact K.lcc h_lcc ⟨fun _ => BitVec.and_self, fun _ e => e, fun v e => guardOnce hc v e, fun _ e => e⟩ Ks
  · exact K.lcc h_lcc ⟨fun _ => BitVec.and_self, fun _ e => e, fun _ e => e, fun v e => guardOnce hc v e⟩ Ks

theorem writeDomain_keeps (K : Keeps P Q) (h_vault : P .vault = true) (h_ent : P .ent = true) (h_dom : P .dom = true) {ix sub : Nat} {bs : Bytes}
    {s : State} (Ks : Q s) : Q (writeDomain ix sub bs s).1 := by
  unfold writeDomain
  extract_lets +onlyGivenNames x1
  have Kx1 : ∀ b0 b1, Q (x1 b0 b1).1 := by
    intro b2 b3
    unfold x1
    exact ranged_keeps K Ks (fun b4 => K.dom h_dom Ks)
  clear_value x1
  refine Keeps.ite1 (tamperCauseWrite_keeps K h_vault Ks) ?_
  refine Keeps.ite1 (ranged_keeps K Ks (fun b5 => K.ent h_ent Ks)) ?_
  refine Keeps.ite1 (Kx1 _ _) ?_
  refine Keeps.ite1 ?_ (certFlushWrite_keeps K h_dom Ks)
  split
  · exact Kx1 _ _
  · exact Kx1 _ _
  · exact Kx1 _ _
  · exact Kx1 _ _
  · exact Kx1 _ _
  · exact Kx1 _ _

theorem writeDecode_keeps (K : Keeps P Q) (h_mem : P .mem = true) {ix sub : Nat} {bs : Bytes} {s : State} (Ks : Q s)
    : Q (writeDecode ix sub bs s).1 := by
  unfold writeDecode
  exact Keeps.ite1 Ks (Keeps.ite1 (Keeps.p1 (K.mem h_mem Ks)) (Keeps.ite1 (ranged_keeps K Ks (fun b1 => K.mem h_mem Ks)) (Keeps.ite1 (ranged_keeps K Ks (fun b2 => K.mem h_mem Ks)) (Keeps.ite1 Ks (Keeps.p1 (K.mem h_mem Ks))))))

theorem writeMemory_keeps (K : Keeps P Q) (h_mem : P .mem = true) {ix sub : Nat} {bs : Bytes} {s : State} (Ks : Q s)
    : Q (writeMemory ix sub bs s).1 := by
  unfold writeMemory
  refine Keeps.ite1 (writeDecode_keeps K h_mem Ks) ?_
  refine Keeps.ite1 (ranged_keeps K Ks (fun b1 => K.mem h_mem Ks)) ?_
  extract_lets +onlyGivenNames x2 x3
  exact Keeps.ite1 (Keeps.p1 (K.mem h_mem Ks)) (Keeps.ite1 (Keeps.p1 (K.mem h_mem Ks)) (Keeps.p1 (K.mem h_mem Ks)))

theorem leModeWrite_keeps (K : Keeps P Q) (h_link : P .link = true) {p mode : Nat} {s : State} (Ks : Q s) : Q (leModeWrite p mode s).1 := by
  unfold leModeWrite
  exact Keeps.ite1 Ks (Keeps.ite1 Ks (Keeps.ite1 Ks (Keeps.ite1 Ks (Keeps.p1 (updPort_keeps K h_link Ks)))))

theorem writeLink_keeps (K : Keeps P Q) (h_link : P .link = true) {ix sub : Nat} {bs : Bytes} {s : State} (Ks : Q s)
    : Q (writeLink ix sub bs s).1 := by
  unfold writeLink
  exact Keeps.ite1 (Keeps.ite1 (ranged_keeps K Ks (fun b1 => K.link h_link Ks)) (Keeps.ite1 (ranged_keeps K Ks (fun b2 => K.link h_link Ks)) (Keeps.p1 (K.link h_link Ks)))) (Keeps.ite1 (leModeWrite_keeps K h_link Ks) (Keeps.ite1 (Keeps.p1 (K.link h_link Ks)) Ks))

theorem compatDefaultWrite_keeps (K : Keeps P Q) (h_cex : P .cex = true) {on : Bool} {s : State} (Ks : Q s) : Q (compatDefaultWrite on s).1 := by
  unfold compatDefaultWrite
  exact Keeps.p1 (K.cex h_cex Ks)

theorem resumeSkipWrite_keeps (K : Keeps P Q) (h_rcv : P .rcv = true) (h_icu : P .icu = true) (h_obs : P .obs = true) (h_cex : P .cex = true)
    (h_srg : P .srg = true) (h_out : P .out = true) {who : Principal} {q : Nat} {bs : Bytes} {s : State} (Ks : Q s)
    : Q (resumeSkipWrite who q bs s).1 := by
  unfold resumeSkipWrite
  split
  exact Keeps.ite1 Ks (Keeps.ite1 Ks (Keeps.ite1 (queueResumeWrite_keeps K h_rcv h_icu h_obs h_cex h_srg h_out Ks) (Keeps.ite1 (queueSkipWrite_keeps K h_rcv h_cex Ks) Ks)))

theorem queueConfigWrite_keeps (K : Keeps P Q) (h_cex : P .cex = true) {q sub : Nat} {bs : Bytes} {s : State} (Ks : Q s)
    : Q (queueConfigWrite q sub bs s).1 := by
  unfold queueConfigWrite
  extract_lets +onlyGivenNames x1
  have Kx1 : ∀ b0 b1, Q (x1 b0 b1) := by
    intro b2 b3
    unfold x1
    exact updQ_keeps K h_cex Ks
  clear_value x1
  refine Keeps.ite1 Ks ?_
  split
  · exact ranged_keeps K Ks (fun b4 => Kx1 _ _)
  · exact ranged_keeps K Ks (fun b5 => Kx1 _ _)
  · exact ranged_keeps K Ks (fun b6 => Kx1 _ _)
  · exact ranged_keeps K Ks (fun b7 => Kx1 _ _)
  · exact ranged_keeps K Ks (fun b8 => Kx1 _ _)
  · exact ranged_keeps K Ks (fun b9 => Kx1 _ _)

theorem writeQueues_keeps (K : Keeps P Q) (h_rcv : P .rcv = true) (h_icu : P .icu = true) (h_obs : P .obs = true) (h_cex : P .cex = true)
    (h_srg : P .srg = true) (h_out : P .out = true) {who : Principal} {ix sub : Nat} {bs : Bytes} {s : State} (Ks : Q s)
    : Q (writeQueues who ix sub bs s).1 := by
  unfold writeQueues
  refine Keeps.ite1 (Keeps.ite1 (compatDefaultWrite_keeps K h_cex Ks) (ranged_keeps K Ks (fun b1 => K.cex h_cex Ks))) ?_
  refine Keeps.ite1 ?_ ?_
  · extract_lets +onlyGivenNames x2
    exact Keeps.ite1 (queueEnableWrite_keeps K h_rcv h_cex Ks) (Keeps.ite1 (resumeSkipWrite_keeps K h_rcv h_icu h_obs h_cex h_srg h_out Ks) (queueConfigWrite_keeps K h_cex Ks))
  · extract_lets +onlyGivenNames x3 x4 x5
    have Kx5 : ∀ b0 b1, Q (x5 b0 b1) := by
      intro b6 b7
      unfold x5
      exact K.cex h_cex Ks
    clear_value x5
    split
    · exact ringBaseWrite_keeps K h_cex Ks
    · exact ranged_keeps K Ks (fun b8 => Kx5 _ _)
    · exact ranged_keeps K Ks (fun b9 => Kx5 _ _)
    · exact ranged_keeps K Ks (fun b10 => Kx5 _ _)

theorem writeSlices_keeps (K : Keeps P Q) (h_rcv : P .rcv = true) (h_icu : P .icu = true) (h_obs : P .obs = true) (h_cex : P .cex = true)
    (h_xlt : P .xlt = true) (h_srg : P .srg = true) (h_kst : P .kst = true) (h_engKeys : P .engKeys = true) (h_kwe : P .kwe = true)
    (h_pke : P .pke = true) (h_mem : P .mem = true) (h_link : P .link = true) (h_sheaf : P .sheaf = true) (h_ac : P .ac = true) (h_vt : P .vt = true)
    (h_out : P .out = true) {who : Principal} {ix sub : Nat} {bs : Bytes} {s : State} (Ks : Q s) : Q (writeSlices who ix sub bs s).1 := by
  unfold writeSlices
  refine Keeps.ite1 (writeRoot_keeps K h_rcv h_icu h_obs h_cex h_xlt h_out Ks) ?_
  refine Keeps.ite1 (writeRoot_keeps K h_rcv h_icu h_obs h_cex h_xlt h_out Ks) ?_
  refine Keeps.ite1 ?_ ?_
  · extract_lets +onlyGivenNames x1 x2
    have Kx2 : Q x2 := K.srg h_srg Ks
    clear_value x2
    exact Keeps.ite1 Kx2 Ks
  · extract_lets +onlyGivenNames x3
    exact Keeps.ite1 (sliceReleaseWrite_keeps K h_rcv h_icu h_obs h_cex h_xlt h_srg h_kst h_engKeys h_kwe h_pke h_mem h_link h_sheaf h_ac h_vt h_out Ks) (Keeps.ite1 (wayQuotaWrite_keeps K h_rcv h_icu h_obs h_cex h_srg h_mem h_out Ks) (sliceRecordWrite_keeps K h_srg Ks))

theorem onTrue_keeps (K : Keeps P Q) {bs : Bytes} {s : State} {f : State × Nat} (Ks : Q s) (Kf : Q f.1) : Q (onTrue bs s f).1 := by
  unfold onTrue
  exact Keeps.ite1 Kf Ks

theorem writeRecovery_keeps (K : Keeps P Q) (h_rcv : P .rcv = true) (h_icu : P .icu = true) (h_obs : P .obs = true) (h_cex : P .cex = true)
    (h_srg : P .srg = true) (h_ods : P .ods = true) (h_kst : P .kst = true) (h_engKeys : P .engKeys = true) (h_kwe : P .kwe = true)
    (h_pke : P .pke = true) (h_ent : P .ent = true) (h_mem : P .mem = true) (h_link : P .link = true) (h_sheaf : P .sheaf = true)
    (h_dom : P .dom = true) (h_pins : P .pins = true) (h_ac : P .ac = true) (h_vt : P .vt = true) (h_out : P .out = true) {ix sub : Nat} {bs : Bytes}
    {s : State} (Ks : Q s) : Q (writeRecovery ix sub bs s).1 := by
  unfold writeRecovery
  extract_lets +onlyGivenNames x1
  refine Keeps.ite1 (Keeps.ite1 (ranged_keeps K Ks (fun b6 => K.icu h_icu (fun h => h) Ks)) (ranged_keeps K Ks (fun b7 => K.icu h_icu (fun h => h) Ks))) ?_
  refine Keeps.ite1 ?_ ?_
  · refine Keeps.ite1 (consumeLog_keeps K h_rcv Ks) ?_
    refine Keeps.ite1 ?_ ?_
    · unfold x1
      exact ranged_keeps K Ks (fun b8 => K.rcv h_rcv (fun h => h) Ks)
    · unfold x1
      exact ranged_keeps K Ks (fun b9 => K.rcv h_rcv (fun h => h) Ks)
  · refine Keeps.ite1 (firstErrorClearWrite_keeps K h_rcv Ks) ?_
    refine Keeps.ite1 ?_ (Keeps.ite1 (resetChipWrite_keeps K h_rcv h_icu h_obs h_cex h_srg h_ods h_kst h_engKeys h_kwe h_pke h_ent h_mem h_link h_sheaf h_dom h_pins h_ac h_vt h_out Ks) (dumpClearWrite_keeps K h_rcv Ks))
    refine Keeps.ite1 ?_ ?_
    · unfold x1
      exact ranged_keeps K Ks (fun b10 => K.rcv h_rcv (fun h => h) Ks)
    · refine Keeps.ite1 ?_ (onTrue_keeps K Ks (kickWrite_keeps K h_rcv Ks))
      unfold x1
      exact ranged_keeps K Ks (fun b11 => K.rcv h_rcv (fun h => h) Ks)

theorem writeTrace_keeps (K : Keeps P Q) (h_icu : P .icu = true) (h_obs : P .obs = true) (h_out : P .out = true) {ix sub : Nat} {bs : Bytes}
    {s : State} (Ks : Q s) : Q (writeTrace ix sub bs s).1 := by
  unfold writeTrace
  extract_lets +onlyGivenNames x1
  refine Keeps.ite1 Ks ?_
  refine Keeps.ite1 (traceArmWrite_keeps K h_icu h_obs h_out Ks) ?_
  refine Keeps.ite1 ?_ ?_
  · unfold x1
    exact ranged_keeps K Ks (fun b6 => K.obs h_obs (fun h => h) Ks)
  · refine Keeps.ite1 (traceTriggerWrite_keeps K h_icu h_obs h_out Ks) ?_
    refine Keeps.ite1 (traceMarkerWrite_keeps K h_icu h_obs h_out Ks) ?_
    refine Keeps.ite1 Ks ?_
    refine Keeps.ite1 ?_ ?_
    · extract_lets +onlyGivenNames x7
      exact Keeps.ite1 Ks (Keeps.p1 (K.obs h_obs (fun h => h) Ks))
    · split
      · unfold x1
        exact ranged_keeps K Ks (fun b8 => K.obs h_obs (fun h => h) Ks)
      · unfold x1
        exact ranged_keeps K Ks (fun b9 => K.obs h_obs (fun h => h) Ks)
      · unfold x1
        exact ranged_keeps K Ks (fun b10 => K.obs h_obs (fun h => h) Ks)
      · unfold x1
        exact ranged_keeps K Ks (fun b11 => K.obs h_obs (fun h => h) Ks)
      · unfold x1
        exact ranged_keeps K Ks (fun b12 => K.obs h_obs (fun h => h) Ks)

theorem writeObs_keeps (K : Keeps P Q) (h_rcv : P .rcv = true) (h_icu : P .icu = true) (h_obs : P .obs = true) (h_sen : P .sen = true)
    (h_tamperIn : P .tamperIn = true) (h_out : P .out = true) {ix sub : Nat} {bs : Bytes} {s : State} (Ks : Q s) : Q (writeObs ix sub bs s).1 := by
  unfold writeObs
  refine Keeps.ite1 (Keeps.ite1 (counterResetWrite_keeps K h_rcv h_icu h_obs h_out Ks) (counterSnapshotWrite_keeps K h_obs Ks)) ?_
  refine Keeps.ite1 (writeTrace_keeps K h_icu h_obs h_out Ks) ?_
  refine Keeps.ite1 ?_ ?_
  · extract_lets +onlyGivenNames x1
    exact Keeps.ite1 (Keeps.p1 (K.sen h_sen Ks)) Ks
  · extract_lets +onlyGivenNames x2
    exact Keeps.ite1 (ranged_keeps K Ks (fun b3 => K.tamperIn h_tamperIn Ks)) (tamperLatchWrite_keeps K h_tamperIn Ks)

theorem entryWrite_keeps (K : Keeps P Q) (h_rcv : P .rcv = true) (h_icu : P .icu = true) (h_obs : P .obs = true) (h_sen : P .sen = true)
    (h_tamperIn : P .tamperIn = true) (h_cex : P .cex = true) (h_xlt : P .xlt = true) (h_srg : P .srg = true) (h_ods : P .ods = true)
    (h_vault : P .vault = true) (h_kst : P .kst = true) (h_engKeys : P .engKeys = true) (h_kwe : P .kwe = true) (h_pke : P .pke = true)
    (h_ent : P .ent = true) (h_atu : P .atu = true) (h_lcc : P .lcc = true) (h_mem : P .mem = true) (h_link : P .link = true)
    (h_sheaf : P .sheaf = true) (h_dom : P .dom = true) (h_pins : P .pins = true) (h_ac : P .ac = true) (h_vt : P .vt = true)
    (h_free : P .free = true) (h_out : P .out = true) {who : Principal} {ix sub : Nat} {bs : Bytes} {s : State} (Ks : Q s)
    : Q (entryWrite who ix sub bs s).1 := by
  unfold entryWrite
  exact Keeps.ite1 (writeSelf_keeps K h_ods Ks) (Keeps.ite1 (writeLife_keeps K h_rcv h_icu h_obs h_cex h_vault h_kst h_engKeys h_kwe h_pke h_ent h_atu h_lcc h_mem h_link h_sheaf h_pins h_ac h_vt h_free h_out Ks) (Keeps.ite1 (writeDomain_keeps K h_vault h_ent h_dom Ks) (Keeps.ite1 (writeMemory_keeps K h_mem Ks) (Keeps.ite1 (writeLink_keeps K h_link Ks) (Keeps.ite1 (writeQueues_keeps K h_rcv h_icu h_obs h_cex h_srg h_out Ks) (Keeps.ite1 (writeSlices_keeps K h_rcv h_icu h_obs h_cex h_xlt h_srg h_kst h_engKeys h_kwe h_pke h_mem h_link h_sheaf h_ac h_vt h_out Ks) (Keeps.ite1 (writeRecovery_keeps K h_rcv h_icu h_obs h_cex h_srg h_ods h_kst h_engKeys h_kwe h_pke h_ent h_mem h_link h_sheaf h_dom h_pins h_ac h_vt h_out Ks) (writeObs_keeps K h_rcv h_icu h_obs h_sen h_tamperIn h_out Ks))))))))

theorem applyWrite_keeps (K : Keeps P Q) (h_rcv : P .rcv = true) (h_icu : P .icu = true) (h_obs : P .obs = true) (h_sen : P .sen = true)
    (h_tamperIn : P .tamperIn = true) (h_cex : P .cex = true) (h_xlt : P .xlt = true) (h_srg : P .srg = true) (h_ods : P .ods = true)
    (h_vault : P .vault = true) (h_kst : P .kst = true) (h_engKeys : P .engKeys = true) (h_kwe : P .kwe = true) (h_pke : P .pke = true)
    (h_ent : P .ent = true) (h_atu : P .atu = true) (h_lcc : P .lcc = true) (h_mem : P .mem = true) (h_link : P .link = true)
    (h_sheaf : P .sheaf = true) (h_dom : P .dom = true) (h_pins : P .pins = true) (h_ac : P .ac = true) (h_vt : P .vt = true)
    (h_free : P .free = true) (h_out : P .out = true) {who : Principal} {ix sub : Nat} {r : DictRow} {bs : Bytes} {s : State} (Ks : Q s)
    : Q (applyWrite who ix sub r bs s).1 := by
  unfold applyWrite
  exact Keeps.ite1 Ks (entryWrite_keeps K h_rcv h_icu h_obs h_sen h_tamperIn h_cex h_xlt h_srg h_ods h_vault h_kst h_engKeys h_kwe h_pke h_ent h_atu h_lcc h_mem h_link h_sheaf h_dom h_pins h_ac h_vt h_free h_out Ks)

theorem dictPut_keeps (K : Keeps P Q) (h_rcv : P .rcv = true) (h_icu : P .icu = true) (h_obs : P .obs = true) (h_sen : P .sen = true)
    (h_tamperIn : P .tamperIn = true) (h_cex : P .cex = true) (h_xlt : P .xlt = true) (h_srg : P .srg = true) (h_ods : P .ods = true)
    (h_vault : P .vault = true) (h_kst : P .kst = true) (h_engKeys : P .engKeys = true) (h_kwe : P .kwe = true) (h_pke : P .pke = true)
    (h_ent : P .ent = true) (h_atu : P .atu = true) (h_lcc : P .lcc = true) (h_mem : P .mem = true) (h_link : P .link = true)
    (h_sheaf : P .sheaf = true) (h_dom : P .dom = true) (h_pins : P .pins = true) (h_ac : P .ac = true) (h_vt : P .vt = true)
    (h_free : P .free = true) (h_out : P .out = true) {who : Principal} {ix sub type : Nat} {bs : Bytes} {s : State} (Ks : Q s)
    : Q (dictPut who ix sub type bs s).1 := by
  unfold dictPut
  refine Keeps.ite1 Ks ?_
  split
  · exact Ks
  · exact Keeps.ite1 Ks (Keeps.ite1 Ks (applyWrite_keeps K h_rcv h_icu h_obs h_sen h_tamperIn h_cex h_xlt h_srg h_ods h_vault h_kst h_engKeys h_kwe h_pke h_ent h_atu h_lcc h_mem h_link h_sheaf h_dom h_pins h_ac h_vt h_free h_out Ks))

theorem execLeModeWrite_keeps (K : Keeps P Q) (h_ods : P .ods = true) (h_link : P .link = true) (h_out : P .out = true) {who : Principal}
    {port : BitVec 5} {mode : BitVec 8} {s : State} (Ks : Q s) : KeepsBy Q (execLeModeWrite who port mode s) := by
  unfold execLeModeWrite
  exact KeepsBy.of (dictWrite_keeps K h_ods h_out Ks (fun b1 h2 => leModeWrite_keeps K h_link h2))

theorem execDictEntryWrite_keeps (K : Keeps P Q) (h_rcv : P .rcv = true) (h_icu : P .icu = true) (h_obs : P .obs = true) (h_sen : P .sen = true)
    (h_tamperIn : P .tamperIn = true) (h_cex : P .cex = true) (h_xlt : P .xlt = true) (h_srg : P .srg = true) (h_ods : P .ods = true)
    (h_vault : P .vault = true) (h_kst : P .kst = true) (h_engKeys : P .engKeys = true) (h_kwe : P .kwe = true) (h_pke : P .pke = true)
    (h_ent : P .ent = true) (h_atu : P .atu = true) (h_lcc : P .lcc = true) (h_mem : P .mem = true) (h_link : P .link = true)
    (h_sheaf : P .sheaf = true) (h_dom : P .dom = true) (h_pins : P .pins = true) (h_ac : P .ac = true) (h_vt : P .vt = true)
    (h_free : P .free = true) (h_out : P .out = true) {who : Principal} {index : BitVec 16} {sub type : BitVec 8} {value : Bytes} {s : State} (Ks
    : Q s) : KeepsBy Q (execDictEntryWrite who index sub type value s) := by
  unfold execDictEntryWrite
  exact KeepsBy.of (dictAnswer_keeps K h_ods h_out (dictPut_keeps K h_rcv h_icu h_obs h_sen h_tamperIn h_cex h_xlt h_srg h_ods h_vault h_kst h_engKeys h_kwe h_pke h_ent h_atu h_lcc h_mem h_link h_sheaf h_dom h_pins h_ac h_vt h_free h_out Ks))

end Sys2Proof.Machine
end

