-- ==== Sys2Proof/Laws/KeepsDict.lean ====
section
/-!
SUPPORT. What the operations of Machine/Dict.lean keep, and which parts they may change (Laws/Keeps.lean).
-/

set_option Elab.async false
namespace Sys2Proof.Machine

variable {P : Part → Bool} {Q : State → Prop}

theorem endIdentity_keeps (K : Keeps P Q) (h_ods : P .ods = true) {p r t : Nat} {s : State} (Ks : Q s) : Q (endIdentity p r t s) := by
  unfold endIdentity
  exact K.ods h_ods (LotKept.of_eq rfl) Ks

theorem serveRead_keeps (K : Keeps P Q) (h_sen : P .sen = true) (h_ods : P .ods = true) (h_free : P .free = true) {path : DictPath} {m : DictMsg}
    {s : State} (Ks : Q s) : Q (serveRead path m s).1 := by
  unfold serveRead
  split
  extract_lets +onlyGivenNames x1
  have Kx1 : Q x1 := endIdentity_keeps K h_ods Ks
  clear_value x1
  extract_lets +onlyGivenNames x2
  have Kx2 : Q x2 := Keeps.ite (readSensors_keeps K h_sen h_free Kx1) Kx1
  clear_value x2
  split
  · exact Kx2
  · refine Keeps.ite1 Kx2 ?_
    refine Keeps.ite1 Kx2 ?_
    extract_lets +onlyGivenNames x3
    exact Keeps.p1 (K.ods h_ods (LotKept.of_eq rfl) Kx2)

theorem serveWrite_keeps (K : Keeps P Q) (h_rcv : P .rcv = true) (h_icu : P .icu = true) (h_obs : P .obs = true) (h_sen : P .sen = true)
    (h_tamperIn : P .tamperIn = true) (h_cex : P .cex = true) (h_xlt : P .xlt = true) (h_srg : P .srg = true) (h_ods : P .ods = true)
    (h_vault : P .vault = true) (h_kst : P .kst = true) (h_engKeys : P .engKeys = true) (h_kwe : P .kwe = true) (h_pke : P .pke = true)
    (h_ent : P .ent = true) (h_atu : P .atu = true) (h_lcc : P .lcc = true) (h_mem : P .mem = true) (h_link : P .link = true)
    (h_sheaf : P .sheaf = true) (h_dom : P .dom = true) (h_pins : P .pins = true) (h_ac : P .ac = true) (h_vt : P .vt = true)
    (h_free : P .free = true) (h_out : P .out = true) {path : DictPath} {m : DictMsg} {s : State} (Ks : Q s) : Q (serveWrite path m s).1 := by
  unfold serveWrite
  split
  split
  extract_lets +onlyGivenNames x1
  have Kx1 : Q x1 := endIdentity_keeps K h_ods Ks
  clear_value x1
  refine Keeps.ite1 Kx1 ?_
  split
  · exact Kx1
  · exact Kx1
  · refine Keeps.ite1 Kx1 ?_
    refine Keeps.ite1 Kx1 ?_
    refine Keeps.ite1 ?_ ?_
    · split
      rename_i y2 y3 y4 y5
      have Ky3 : Q y3 := Keeps.fst y5 (applyWrite_keeps K h_rcv h_icu h_obs h_sen h_tamperIn h_cex h_xlt h_srg h_ods h_vault h_kst h_engKeys h_kwe h_pke h_ent h_atu h_lcc h_mem h_link h_sheaf h_dom h_pins h_ac h_vt h_free h_out Kx1)
      exact Ky3
    · refine Keeps.ite1 Kx1 ?_
      extract_lets +onlyGivenNames x6
      exact Keeps.p1 (K.ods h_ods (LotKept.of_eq rfl) Kx1)

theorem segTrans_keeps (K : Keeps P Q) (h_ods : P .ods = true) {path : DictPath} {read : Bool} {m : DictMsg} {s : State}
    {f : DictTrans → State × DictAns} (Ks : Q s) (Kf : ∀ b0, Q (f b0).1) : Q (segTrans path read m s f).1 := by
  unfold segTrans
  split
  refine Keeps.ite1 (Keeps.p1 (K.ods h_ods (LotKept.of_eq rfl) Ks)) ?_
  split
  · exact Ks
  · exact Keeps.ite1 (Kf _) Ks

theorem updTrans_keeps (K : Keeps P Q) (h_ods : P .ods = true) {p r t : Nat} {f : DictTrans → DictTrans} {s : State} (Ks : Q s)
    : Q (updTrans p r t f s) := by
  unfold updTrans
  exact K.ods h_ods (LotKept.of_eq rfl) Ks

theorem serveSegRead_keeps (K : Keeps P Q) (h_ods : P .ods = true) {path : DictPath} {m : DictMsg} {s : State} (Ks : Q s)
    : Q (serveSegRead path m s).1 := by
  unfold serveSegRead
  refine segTrans_keeps K h_ods Ks ?_
  intro b1
  extract_lets +onlyGivenNames x2
  refine Keeps.ite1 Ks ?_
  extract_lets +onlyGivenNames x3
  exact Keeps.p1 (updTrans_keeps K h_ods Ks)

theorem serveSegWrite_keeps (K : Keeps P Q) (h_rcv : P .rcv = true) (h_icu : P .icu = true) (h_obs : P .obs = true) (h_sen : P .sen = true)
    (h_tamperIn : P .tamperIn = true) (h_cex : P .cex = true) (h_xlt : P .xlt = true) (h_srg : P .srg = true) (h_ods : P .ods = true)
    (h_vault : P .vault = true) (h_kst : P .kst = true) (h_engKeys : P .engKeys = true) (h_kwe : P .kwe = true) (h_pke : P .pke = true)
    (h_ent : P .ent = true) (h_atu : P .atu = true) (h_lcc : P .lcc = true) (h_mem : P .mem = true) (h_link : P .link = true)
    (h_sheaf : P .sheaf = true) (h_dom : P .dom = true) (h_pins : P .pins = true) (h_ac : P .ac = true) (h_vt : P .vt = true)
    (h_free : P .free = true) (h_out : P .out = true) {path : DictPath} {m : DictMsg} {s : State} (Ks : Q s) : Q (serveSegWrite path m s).1 := by
  unfold serveSegWrite
  refine segTrans_keeps K h_ods Ks ?_
  intro b1
  extract_lets +onlyGivenNames x2 x3
  have Kx3 : Q x3 := updTrans_keeps K h_ods Ks
  clear_value x3
  extract_lets +onlyGivenNames x4
  refine Keeps.ite1 Kx3 ?_
  refine Keeps.ite1 Kx3 ?_
  refine Keeps.ite1 Kx3 ?_
  refine Keeps.ite1 (Keeps.p1 (updTrans_keeps K h_ods Kx3)) ?_
  extract_lets +onlyGivenNames x5
  have Kx5 : Q x5 := endIdentity_keeps K h_ods Kx3
  clear_value x5
  split
  · exact Kx5
  · split
    rename_i y6 y7 y8 y9
    have Ky7 : Q y7 := Keeps.fst y9 (applyWrite_keeps K h_rcv h_icu h_obs h_sen h_tamperIn h_cex h_xlt h_srg h_ods h_vault h_kst h_engKeys h_kwe h_pke h_ent h_atu h_lcc h_mem h_link h_sheaf h_dom h_pins h_ac h_vt h_free h_out Kx5)
    exact Ky7

theorem serve_keeps (K : Keeps P Q) (h_rcv : P .rcv = true) (h_icu : P .icu = true) (h_obs : P .obs = true) (h_sen : P .sen = true)
    (h_tamperIn : P .tamperIn = true) (h_cex : P .cex = true) (h_xlt : P .xlt = true) (h_srg : P .srg = true) (h_ods : P .ods = true)
    (h_vault : P .vault = true) (h_kst : P .kst = true) (h_engKeys : P .engKeys = true) (h_kwe : P .kwe = true) (h_pke : P .pke = true)
    (h_ent : P .ent = true) (h_atu : P .atu = true) (h_lcc : P .lcc = true) (h_mem : P .mem = true) (h_link : P .link = true)
    (h_sheaf : P .sheaf = true) (h_dom : P .dom = true) (h_pins : P .pins = true) (h_ac : P .ac = true) (h_vt : P .vt = true)
    (h_free : P .free = true) (h_out : P .out = true) {path : DictPath} {op : Nat} {m : DictMsg} {s : State} (Ks : Q s)
    : Q (serve path op m s).1 := by
  unfold serve
  refine Keeps.ite1 Ks ?_
  refine Keeps.ite1 Ks ?_
  split
  · exact serveRead_keeps K h_sen h_ods h_free Ks
  · exact serveWrite_keeps K h_rcv h_icu h_obs h_sen h_tamperIn h_cex h_xlt h_srg h_ods h_vault h_kst h_engKeys h_kwe h_pke h_ent h_atu h_lcc h_mem h_link h_sheaf h_dom h_pins h_ac h_vt h_free h_out Ks
  · exact serveSegRead_keeps K h_ods Ks
  · exact serveSegWrite_keeps K h_rcv h_icu h_obs h_sen h_tamperIn h_cex h_xlt h_srg h_ods h_vault h_kst h_engKeys h_kwe h_pke h_ent h_atu h_lcc h_mem h_link h_sheaf h_dom h_pins h_ac h_vt h_free h_out Ks
  · exact Keeps.p1 (endIdentity_keeps K h_ods Ks)

theorem dictRequest_keeps (K : Keeps P Q) (h_rcv : P .rcv = true) (h_icu : P .icu = true) (h_obs : P .obs = true) (h_sen : P .sen = true)
    (h_tamperIn : P .tamperIn = true) (h_cex : P .cex = true) (h_xlt : P .xlt = true) (h_srg : P .srg = true) (h_ods : P .ods = true)
    (h_vault : P .vault = true) (h_kst : P .kst = true) (h_engKeys : P .engKeys = true) (h_kwe : P .kwe = true) (h_pke : P .pke = true)
    (h_ent : P .ent = true) (h_atu : P .atu = true) (h_lcc : P .lcc = true) (h_mem : P .mem = true) (h_link : P .link = true)
    (h_sheaf : P .sheaf = true) (h_dom : P .dom = true) (h_pins : P .pins = true) (h_ac : P .ac = true) (h_vt : P .vt = true)
    (h_free : P .free = true) (h_out : P .out = true) {path : DictPath} {op : Nat} {m : DictMsg} {s : State} (Ks : Q s)
    : Q (dictRequest path op m s).1 := by
  unfold dictRequest
  extract_lets +onlyGivenNames x1 x2
  have Kx2 : Q x2.1 := serve_keeps K h_rcv h_icu h_obs h_sen h_tamperIn h_cex h_xlt h_srg h_ods h_vault h_kst h_engKeys h_kwe h_pke h_ent h_atu h_lcc h_mem h_link h_sheaf h_dom h_pins h_ac h_vt h_free h_out (K.ods h_ods (LotKept.of_eq rfl) Ks)
  clear_value x2
  refine Keeps.p1 ?_
  extract_lets +onlyGivenNames x3
  have Kx3 : Q x3 := Kx2
  exact K.ods h_ods (LotKept.of_eq rfl) Kx3

theorem deliverDict_keeps (K : Keeps P Q) (h_rcv : P .rcv = true) (h_icu : P .icu = true) (h_obs : P .obs = true) (h_cex : P .cex = true)
    (h_srg : P .srg = true) (h_link : P .link = true) (h_dom : P .dom = true) (h_out : P .out = true) {path : DictPath} {op : Nat} {m : DictMsg}
    {a : DictAns} {s : State} (Ks : Q s) : Q (deliverDict path op m a s) := by
  unfold deliverDict
  extract_lets +onlyGivenNames x1
  split
  · exact State.emit_keeps K h_out (State.emit_keeps K h_out Ks)
  · exact State.emit_keeps K h_out Ks
  · split
    · exact sendDom_keeps K h_rcv h_icu h_obs h_cex h_srg h_link h_dom h_out Ks
    · exact State.emit_keeps K h_out Ks

theorem dictMessage_keeps (K : Keeps P Q) (h_rcv : P .rcv = true) (h_icu : P .icu = true) (h_obs : P .obs = true) (h_sen : P .sen = true)
    (h_tamperIn : P .tamperIn = true) (h_cex : P .cex = true) (h_xlt : P .xlt = true) (h_srg : P .srg = true) (h_ods : P .ods = true)
    (h_vault : P .vault = true) (h_kst : P .kst = true) (h_engKeys : P .engKeys = true) (h_kwe : P .kwe = true) (h_pke : P .pke = true)
    (h_ent : P .ent = true) (h_atu : P .atu = true) (h_lcc : P .lcc = true) (h_mem : P .mem = true) (h_link : P .link = true)
    (h_sheaf : P .sheaf = true) (h_dom : P .dom = true) (h_pins : P .pins = true) (h_ac : P .ac = true) (h_vt : P .vt = true)
    (h_free : P .free = true) (h_out : P .out = true) {path : DictPath} {op : Nat} {m : DictMsg} {s : State} (Ks : Q s)
    : Q (dictMessage path op m s) := by
  unfold dictMessage
  refine Keeps.ite ?_ Ks
  split
  rename_i y1 y2 y3 y4
  have Ky2 : Q y2 := Keeps.fst y4 (dictRequest_keeps K h_rcv h_icu h_obs h_sen h_tamperIn h_cex h_xlt h_srg h_ods h_vault h_kst h_engKeys h_kwe h_pke h_ent h_atu h_lcc h_mem h_link h_sheaf h_dom h_pins h_ac h_vt h_free h_out (pend_keeps K h_rcv h_icu h_obs h_out Ks))
  exact deliverDict_keeps K h_rcv h_icu h_obs h_cex h_srg h_link h_dom h_out Ky2

theorem execSegWrite_keeps (K : Keeps P Q) (h_rcv : P .rcv = true) (h_icu : P .icu = true) (h_obs : P .obs = true) (h_sen : P .sen = true)
    (h_tamperIn : P .tamperIn = true) (h_cex : P .cex = true) (h_xlt : P .xlt = true) (h_srg : P .srg = true) (h_ods : P .ods = true)
    (h_vault : P .vault = true) (h_kst : P .kst = true) (h_engKeys : P .engKeys = true) (h_kwe : P .kwe = true) (h_pke : P .pke = true)
    (h_ent : P .ent = true) (h_atu : P .atu = true) (h_lcc : P .lcc = true) (h_mem : P .mem = true) (h_link : P .link = true)
    (h_sheaf : P .sheaf = true) (h_dom : P .dom = true) (h_pins : P .pins = true) (h_ac : P .ac = true) (h_vt : P .vt = true)
    (h_free : P .free = true) (h_out : P .out = true) {path : DictPath} {m : DictMsg} {s : State} (Ks : Q s) : KeepsBy Q (execSegWrite path m s) := by
  unfold execSegWrite
  exact KeepsBy.of (dictMessage_keeps K h_rcv h_icu h_obs h_sen h_tamperIn h_cex h_xlt h_srg h_ods h_vault h_kst h_engKeys h_kwe h_pke h_ent h_atu h_lcc h_mem h_link h_sheaf h_dom h_pins h_ac h_vt h_free h_out Ks)

theorem execDictRead_keeps (K : Keeps P Q) (h_rcv : P .rcv = true) (h_icu : P .icu = true) (h_obs : P .obs = true) (h_sen : P .sen = true)
    (h_tamperIn : P .tamperIn = true) (h_cex : P .cex = true) (h_xlt : P .xlt = true) (h_srg : P .srg = true) (h_ods : P .ods = true)
    (h_vault : P .vault = true) (h_kst : P .kst = true) (h_engKeys : P .engKeys = true) (h_kwe : P .kwe = true) (h_pke : P .pke = true)
    (h_ent : P .ent = true) (h_atu : P .atu = true) (h_lcc : P .lcc = true) (h_mem : P .mem = true) (h_link : P .link = true)
    (h_sheaf : P .sheaf = true) (h_dom : P .dom = true) (h_pins : P .pins = true) (h_ac : P .ac = true) (h_vt : P .vt = true)
    (h_free : P .free = true) (h_out : P .out = true) {path : DictPath} {m : DictMsg} {s : State} (Ks : Q s) : KeepsBy Q (execDictRead path m s) := by
  unfold execDictRead
  exact KeepsBy.of (dictMessage_keeps K h_rcv h_icu h_obs h_sen h_tamperIn h_cex h_xlt h_srg h_ods h_vault h_kst h_engKeys h_kwe h_pke h_ent h_atu h_lcc h_mem h_link h_sheaf h_dom h_pins h_ac h_vt h_free h_out Ks)

theorem execDictAbort_keeps (K : Keeps P Q) (h_rcv : P .rcv = true) (h_icu : P .icu = true) (h_obs : P .obs = true) (h_sen : P .sen = true)
    (h_tamperIn : P .tamperIn = true) (h_cex : P .cex = true) (h_xlt : P .xlt = true) (h_srg : P .srg = true) (h_ods : P .ods = true)
    (h_vault : P .vault = true) (h_kst : P .kst = true) (h_engKeys : P .engKeys = true) (h_kwe : P .kwe = true) (h_pke : P .pke = true)
    (h_ent : P .ent = true) (h_atu : P .atu = true) (h_lcc : P .lcc = true) (h_mem : P .mem = true) (h_link : P .link = true)
    (h_sheaf : P .sheaf = true) (h_dom : P .dom = true) (h_pins : P .pins = true) (h_ac : P .ac = true) (h_vt : P .vt = true)
    (h_free : P .free = true) (h_out : P .out = true) {path : DictPath} {m : DictMsg} {s : State} (Ks : Q s)
    : KeepsBy Q (execDictAbort path m s) := by
  unfold execDictAbort
  exact KeepsBy.of (dictMessage_keeps K h_rcv h_icu h_obs h_sen h_tamperIn h_cex h_xlt h_srg h_ods h_vault h_kst h_engKeys h_kwe h_pke h_ent h_atu h_lcc h_mem h_link h_sheaf h_dom h_pins h_ac h_vt h_free h_out Ks)

theorem forwardDict_keeps (K : Keeps P Q) (h_rcv : P .rcv = true) (h_icu : P .icu = true) (h_obs : P .obs = true) (h_cex : P .cex = true)
    (h_srg : P .srg = true) (h_link : P .link = true) (h_dom : P .dom = true) (h_out : P .out = true) {sl dest type : Nat} {body : Bytes} {s : State}
    (Ks : Q s) : Q (forwardDict sl dest type body s) := by
  unfold forwardDict
  split
  · exact sendDom_keeps K h_rcv h_icu h_obs h_cex h_srg h_link h_dom h_out Ks
  · exact Ks

theorem execDictAccess_keeps (K : Keeps P Q) (h_rcv : P .rcv = true) (h_icu : P .icu = true) (h_obs : P .obs = true) (h_sen : P .sen = true)
    (h_tamperIn : P .tamperIn = true) (h_cex : P .cex = true) (h_xlt : P .xlt = true) (h_srg : P .srg = true) (h_ods : P .ods = true)
    (h_vault : P .vault = true) (h_kst : P .kst = true) (h_engKeys : P .engKeys = true) (h_kwe : P .kwe = true) (h_pke : P .pke = true)
    (h_ent : P .ent = true) (h_atu : P .atu = true) (h_lcc : P .lcc = true) (h_mem : P .mem = true) (h_link : P .link = true)
    (h_sheaf : P .sheaf = true) (h_dom : P .dom = true) (h_pins : P .pins = true) (h_ac : P .ac = true) (h_vt : P .vt = true)
    (h_free : P .free = true) (h_out : P .out = true) {slc : BitVec 4} {h : DomHdr} {origin target : BitVec 16} {message : Bytes} {s : State} (Ks
    : Q s) : KeepsBy Q (execDictAccess slc h origin target message s) := by
  unfold execDictAccess
  refine KeepsBy.of ?_
  refine takeDom_keeps K h_link h_dom Ks ?_
  intro b1 h2
  extract_lets +onlyGivenNames x3 x4
  refine Keeps.ite h2 ?_
  refine Keeps.ite (forwardDict_keeps K h_rcv h_icu h_obs h_cex h_srg h_link h_dom h_out h2) ?_
  refine Keeps.ite h2 ?_
  split
  exact dictMessage_keeps K h_rcv h_icu h_obs h_sen h_tamperIn h_cex h_xlt h_srg h_ods h_vault h_kst h_engKeys h_kwe h_pke h_ent h_atu h_lcc h_mem h_link h_sheaf h_dom h_pins h_ac h_vt h_free h_out h2

theorem execSegRead_keeps (K : Keeps P Q) (h_rcv : P .rcv = true) (h_icu : P .icu = true) (h_obs : P .obs = true) (h_sen : P .sen = true)
    (h_tamperIn : P .tamperIn = true) (h_cex : P .cex = true) (h_xlt : P .xlt = true) (h_srg : P .srg = true) (h_ods : P .ods = true)
    (h_vault : P .vault = true) (h_kst : P .kst = true) (h_engKeys : P .engKeys = true) (h_kwe : P .kwe = true) (h_pke : P .pke = true)
    (h_ent : P .ent = true) (h_atu : P .atu = true) (h_lcc : P .lcc = true) (h_mem : P .mem = true) (h_link : P .link = true)
    (h_sheaf : P .sheaf = true) (h_dom : P .dom = true) (h_pins : P .pins = true) (h_ac : P .ac = true) (h_vt : P .vt = true)
    (h_free : P .free = true) (h_out : P .out = true) {path : DictPath} {m : DictMsg} {s : State} (Ks : Q s) : KeepsBy Q (execSegRead path m s) := by
  unfold execSegRead
  exact KeepsBy.of (dictMessage_keeps K h_rcv h_icu h_obs h_sen h_tamperIn h_cex h_xlt h_srg h_ods h_vault h_kst h_engKeys h_kwe h_pke h_ent h_atu h_lcc h_mem h_link h_sheaf h_dom h_pins h_ac h_vt h_free h_out Ks)

theorem execDictSegIdleExpiry_keeps (K : Keeps P Q) (h_ods : P .ods = true) {path : DictPath} {tag : BitVec 8} {s : State} (Ks : Q s)
    : KeepsBy Q (execDictSegIdleExpiry path tag s) := by
  unfold execDictSegIdleExpiry
  exact KeepsBy.of (K.ods h_ods (LotKept.of_eq rfl) Ks)

theorem execDictWrite_keeps (K : Keeps P Q) (h_rcv : P .rcv = true) (h_icu : P .icu = true) (h_obs : P .obs = true) (h_sen : P .sen = true)
    (h_tamperIn : P .tamperIn = true) (h_cex : P .cex = true) (h_xlt : P .xlt = true) (h_srg : P .srg = true) (h_ods : P .ods = true)
    (h_vault : P .vault = true) (h_kst : P .kst = true) (h_engKeys : P .engKeys = true) (h_kwe : P .kwe = true) (h_pke : P .pke = true)
    (h_ent : P .ent = true) (h_atu : P .atu = true) (h_lcc : P .lcc = true) (h_mem : P .mem = true) (h_link : P .link = true)
    (h_sheaf : P .sheaf = true) (h_dom : P .dom = true) (h_pins : P .pins = true) (h_ac : P .ac = true) (h_vt : P .vt = true)
    (h_free : P .free = true) (h_out : P .out = true) {path : DictPath} {m : DictMsg} {s : State} (Ks : Q s)
    : KeepsBy Q (execDictWrite path m s) := by
  unfold execDictWrite
  exact KeepsBy.of (dictMessage_keeps K h_rcv h_icu h_obs h_sen h_tamperIn h_cex h_xlt h_srg h_ods h_vault h_kst h_engKeys h_kwe h_pke h_ent h_atu h_lcc h_mem h_link h_sheaf h_dom h_pins h_ac h_vt h_free h_out Ks)

theorem execDictReply_keeps (K : Keeps P Q) (h_rcv : P .rcv = true) (h_icu : P .icu = true) (h_obs : P .obs = true) (h_cex : P .cex = true)
    (h_srg : P .srg = true) (h_link : P .link = true) (h_dom : P .dom = true) (h_out : P .out = true) {slc : BitVec 4} {h : DomHdr}
    {origin target : BitVec 16} {message : Bytes} {s : State} (Ks : Q s) : KeepsBy Q (execDictReply slc h origin target message s) := by
  unfold execDictReply
  refine KeepsBy.of ?_
  refine takeDom_keeps K h_link h_dom Ks ?_
  intro b1 h2
  extract_lets +onlyGivenNames x3 x4
  exact Keeps.ite h2 (Keeps.ite (forwardDict_keeps K h_rcv h_icu h_obs h_cex h_srg h_link h_dom h_out h2) (State.emit_keeps K h_out h2))

end Sys2Proof.Machine
end

