-- ==== Sys2Proof/Laws/KeepsMgmt.lean ====
section
/-!
SUPPORT. What the operations of Machine/Mgmt.lean keep, and which parts they may change (Laws/Keeps.lean).
-/

set_option Elab.async false
namespace Sys2Proof.Machine

variable {P : Part → Bool} {Q : State → Prop}

theorem updMb_keeps (K : Keeps P Q) (h_ods : P .ods = true) {n : Nat} {f : Mailbox → Mailbox} {s : State} (Ks : Q s) : Q (updMb n f s) := by
  unfold updMb
  exact K.ods h_ods (LotKept.of_eq rfl) Ks

theorem mbComplete_keeps (K : Keeps P Q) (h_cex : P .cex = true) (h_ods : P .ods = true) (h_out : P .out = true) {n : Nat} {b : Bytes} {s : State} (Ks
    : Q s) : Q (mbComplete n b s) := by
  unfold mbComplete
  extract_lets +onlyGivenNames x1
  have Kx1 : Q x1 := updMb_keeps K h_ods Ks
  clear_value x1
  exact Keeps.ite (msix_keeps K h_cex h_out Kx1) Kx1

theorem execMbGo_keeps (K : Keeps P Q) (h_rcv : P .rcv = true) (h_icu : P .icu = true) (h_obs : P .obs = true) (h_sen : P .sen = true)
    (h_tamperIn : P .tamperIn = true) (h_cex : P .cex = true) (h_xlt : P .xlt = true) (h_srg : P .srg = true) (h_ods : P .ods = true)
    (h_vault : P .vault = true) (h_kst : P .kst = true) (h_engKeys : P .engKeys = true) (h_kwe : P .kwe = true) (h_pke : P .pke = true)
    (h_ent : P .ent = true) (h_atu : P .atu = true) (h_lcc : P .lcc = true) (h_mem : P .mem = true) (h_link : P .link = true)
    (h_sheaf : P .sheaf = true) (h_dom : P .dom = true) (h_pins : P .pins = true) (h_ac : P .ac = true) (h_vt : P .vt = true)
    (h_free : P .free = true) (h_out : P .out = true) {box : BitVec 5} {irqEn : Bool} {reqLen : BitVec 32} {request : Bytes} {s : State} (Ks : Q s)
    : KeepsBy Q (execMbGo box irqEn reqLen request s) := by
  unfold execMbGo
  refine KeepsBy.of ?_
  extract_lets +onlyGivenNames x1 x2
  refine Keeps.ite Ks ?_
  extract_lets +onlyGivenNames x3 x4
  have Kx4 : Q x4 := updMb_keeps K h_ods Ks
  clear_value x4
  refine Keeps.ite (updMb_keeps K h_ods Kx4) ?_
  split
  extract_lets +onlyGivenNames x5 x6
  have Kx6 : Q x6 := K.ods h_ods (LotKept.of_eq rfl) Kx4
  clear_value x6
  split
  rename_i y7 y8 y9 y10
  have Ky8 : Q y8 := Keeps.fst y10 (dictRequest_keeps K h_rcv h_icu h_obs h_sen h_tamperIn h_cex h_xlt h_srg h_ods h_vault h_kst h_engKeys h_kwe h_pke h_ent h_atu h_lcc h_mem h_link h_sheaf h_dom h_pins h_ac h_vt h_free h_out (pend_keeps K h_rcv h_icu h_obs h_out (updMb_keeps K h_ods Kx6)))
  exact mbComplete_keeps K h_cex h_ods h_out Ky8

theorem dropMessage_keeps (K : Keeps P Q) (h_ods : P .ods = true) {s : State} (Ks : Q s) : Q (dropMessage s) := by
  unfold dropMessage
  exact K.ods h_ods (LotKept.of_eq rfl) Ks

theorem takeMessage_keeps (K : Keeps P Q) (h_rcv : P .rcv = true) (h_icu : P .icu = true) (h_obs : P .obs = true) (h_sen : P .sen = true)
    (h_tamperIn : P .tamperIn = true) (h_cex : P .cex = true) (h_xlt : P .xlt = true) (h_srg : P .srg = true) (h_ods : P .ods = true)
    (h_vault : P .vault = true) (h_kst : P .kst = true) (h_engKeys : P .engKeys = true) (h_kwe : P .kwe = true) (h_pke : P .pke = true)
    (h_ent : P .ent = true) (h_atu : P .atu = true) (h_lcc : P .lcc = true) (h_mem : P .mem = true) (h_link : P .link = true)
    (h_sheaf : P .sheaf = true) (h_dom : P .dom = true) (h_pins : P .pins = true) (h_ac : P .ac = true) (h_vt : P .vt = true)
    (h_free : P .free = true) (h_out : P .out = true) {source : Nat} {b : Bytes} {s : State} (Ks : Q s) : Q (takeMessage source b s) := by
  unfold takeMessage
  extract_lets +onlyGivenNames x1
  refine Keeps.ite (dropMessage_keeps K h_ods Ks) ?_
  refine Keeps.ite ?_ (Keeps.ite Ks (dropMessage_keeps K h_ods Ks))
  split
  exact dictMessage_keeps K h_rcv h_icu h_obs h_sen h_tamperIn h_cex h_xlt h_srg h_ods h_vault h_kst h_engKeys h_kwe h_pke h_ent h_atu h_lcc h_mem h_link h_sheaf h_dom h_pins h_ac h_vt h_free h_out Ks

theorem dropPacket_keeps (K : Keeps P Q) (h_ods : P .ods = true) {s : State} (Ks : Q s) : Q (dropPacket s) := by
  unfold dropPacket
  exact K.ods h_ods (LotKept.of_eq rfl) Ks

theorem mctpReply_keeps (K : Keeps P Q) (h_out : P .out = true) {code : Nat} {values : Bytes} {s : State} (Ks : Q s)
    : Q (mctpReply code values s) := by
  unfold mctpReply
  exact State.emit_keeps K h_out (State.emit_keeps K h_out Ks)

theorem mctpControl_keeps (K : Keeps P Q) (h_rcv : P .rcv = true) (h_icu : P .icu = true) (h_obs : P .obs = true) (h_out : P .out = true)
    {dest : BitVec 8} {s : State} {f : State → State} (Ks : Q s) (Kf : ∀ b0, Q b0 → Q (f b0)) : Q (mctpControl dest s f) := by
  unfold mctpControl
  exact Keeps.ite (Kf _ (pend_keeps K h_rcv h_icu h_obs h_out Ks)) Ks

theorem execGetEndpointUuid_keeps (K : Keeps P Q) (h_rcv : P .rcv = true) (h_icu : P .icu = true) (h_obs : P .obs = true) (h_out : P .out = true)
    {dest : BitVec 8} {s : State} (Ks : Q s) : KeepsBy Q (execGetEndpointUuid dest s) := by
  unfold execGetEndpointUuid
  exact KeepsBy.of (mctpControl_keeps K h_rcv h_icu h_obs h_out Ks (fun b1 h2 => mctpReply_keeps K h_out h2))

theorem execEntdaa_keeps (K : Keeps P Q) (h_ods : P .ods = true) {dynamic_ : BitVec 7} {s : State} (Ks : Q s)
    : KeepsBy Q (execEntdaa dynamic_ s) := by
  unfold execEntdaa
  exact KeepsBy.of (Keeps.ite Ks (K.ods h_ods (LotKept.of_eq rfl) Ks))

theorem execMctpPacketReceive_keeps (K : Keeps P Q) (h_rcv : P .rcv = true) (h_icu : P .icu = true) (h_obs : P .obs = true) (h_sen : P .sen = true)
    (h_tamperIn : P .tamperIn = true) (h_cex : P .cex = true) (h_xlt : P .xlt = true) (h_srg : P .srg = true) (h_ods : P .ods = true)
    (h_vault : P .vault = true) (h_kst : P .kst = true) (h_engKeys : P .engKeys = true) (h_kwe : P .kwe = true) (h_pke : P .pke = true)
    (h_ent : P .ent = true) (h_atu : P .atu = true) (h_lcc : P .lcc = true) (h_mem : P .mem = true) (h_link : P .link = true)
    (h_sheaf : P .sheaf = true) (h_dom : P .dom = true) (h_pins : P .pins = true) (h_ac : P .ac = true) (h_vt : P .vt = true)
    (h_free : P .free = true) (h_out : P .out = true) {binding : Bool} {packet : Bytes} {s : State} (Ks : Q s)
    : KeepsBy Q (execMctpPacketReceive binding packet s) := by
  unfold execMctpPacketReceive
  refine KeepsBy.of ?_
  split
  extract_lets +onlyGivenNames x1 x2
  refine Keeps.ite Ks ?_
  refine Keeps.ite (dropPacket_keeps K h_ods Ks) ?_
  extract_lets +onlyGivenNames x3
  have Kx3 : ∀ b0 b1, Q b1 → Q (x3 b0 b1) := by
    intro b4 b5 b6
    unfold x3
    exact Keeps.ite (takeMessage_keeps K h_rcv h_icu h_obs h_sen h_tamperIn h_cex h_xlt h_srg h_ods h_vault h_kst h_engKeys h_kwe h_pke h_ent h_atu h_lcc h_mem h_link h_sheaf h_dom h_pins h_ac h_vt h_free h_out (K.ods h_ods (LotKept.of_eq rfl) b6)) (K.ods h_ods (LotKept.of_eq rfl) b6)
  clear_value x3
  refine Keeps.ite (Kx3 _ _ Ks) ?_
  split
  · exact dropPacket_keeps K h_ods Ks
  · exact Keeps.ite (dropPacket_keeps K h_ods (K.ods h_ods (LotKept.of_eq rfl) Ks)) (Kx3 _ _ Ks)

theorem execSetdasa_keeps (K : Keeps P Q) (h_ods : P .ods = true) {static_ dynamic_ : BitVec 7} {s : State} (Ks : Q s)
    : KeepsBy Q (execSetdasa static_ dynamic_ s) := by
  unfold execSetdasa
  exact KeepsBy.of (Keeps.ite Ks (K.ods h_ods (LotKept.of_eq rfl) Ks))

theorem execGetVendorDefinedMessageSupport_keeps (K : Keeps P Q) (h_rcv : P .rcv = true) (h_icu : P .icu = true) (h_obs : P .obs = true)
    (h_out : P .out = true) {dest selector : BitVec 8} {s : State} (Ks : Q s) : KeepsBy Q (execGetVendorDefinedMessageSupport dest selector s) := by
  unfold execGetVendorDefinedMessageSupport
  refine KeepsBy.of ?_
  refine mctpControl_keeps K h_rcv h_icu h_obs h_out Ks ?_
  intro b1 h2
  split
  · exact mctpReply_keeps K h_out h2
  · exact mctpReply_keeps K h_out h2

theorem execGetMessageTypeSupport_keeps (K : Keeps P Q) (h_rcv : P .rcv = true) (h_icu : P .icu = true) (h_obs : P .obs = true)
    (h_out : P .out = true) {dest : BitVec 8} {s : State} (Ks : Q s) : KeepsBy Q (execGetMessageTypeSupport dest s) := by
  unfold execGetMessageTypeSupport
  exact KeepsBy.of (mctpControl_keeps K h_rcv h_icu h_obs h_out Ks (fun b1 h2 => mctpReply_keeps K h_out h2))

theorem execSetEndpointId_keeps (K : Keeps P Q) (h_rcv : P .rcv = true) (h_icu : P .icu = true) (h_obs : P .obs = true) (h_ods : P .ods = true)
    (h_out : P .out = true) {dest source op eid : BitVec 8} {s : State} (Ks : Q s) : KeepsBy Q (execSetEndpointId dest source op eid s) := by
  unfold execSetEndpointId
  exact KeepsBy.of (mctpControl_keeps K h_rcv h_icu h_obs h_out Ks (fun b1 h2 => Keeps.ite (mctpReply_keeps K h_out h2) (mctpReply_keeps K h_out (K.ods h_ods (LotKept.of_eq rfl) h2))))

theorem execGetEndpointId_keeps (K : Keeps P Q) (h_rcv : P .rcv = true) (h_icu : P .icu = true) (h_obs : P .obs = true) (h_out : P .out = true)
    {dest : BitVec 8} {s : State} (Ks : Q s) : KeepsBy Q (execGetEndpointId dest s) := by
  unfold execGetEndpointId
  exact KeepsBy.of (mctpControl_keeps K h_rcv h_icu h_obs h_out Ks (fun b1 h2 => mctpReply_keeps K h_out h2))

theorem execPowerEstimateUpdate_keeps (K : Keeps P Q) (h_ods : P .ods = true) (h_free : P .free = true) {s : State} (Ks : Q s)
    : KeepsBy Q (execPowerEstimateUpdate s) := by
  unfold execPowerEstimateUpdate
  exact KeepsBy.of (K.upd Ks (h_ods := .inr ⟨h_ods, LotKept.of_eq rfl⟩) (h_free := .inr ⟨h_free, Nat.le_add_right _ _⟩))

theorem execGetMctpVersionSupport_keeps (K : Keeps P Q) (h_rcv : P .rcv = true) (h_icu : P .icu = true) (h_obs : P .obs = true)
    (h_out : P .out = true) {dest type : BitVec 8} {s : State} (Ks : Q s) : KeepsBy Q (execGetMctpVersionSupport dest type s) := by
  unfold execGetMctpVersionSupport
  exact KeepsBy.of (mctpControl_keeps K h_rcv h_icu h_obs h_out Ks (fun b1 h2 => mctpReply_keeps K h_out h2))

end Sys2Proof.Machine
end

