-- ==== Sys2Proof/Laws/KeepsMigrate.lean ====
section
/-!
SUPPORT. What the operations of Machine/Migrate.lean keep, and which parts they may change (Laws/Keeps.lean).
-/

set_option Elab.async false
namespace Sys2Proof.Machine

variable {P : Part → Bool} {Q : State → Prop}

theorem restoreRegion_keeps (K : Keeps P Q) (h_kst : P .kst = true) (h_engKeys : P .engKeys = true) (h_kwe : P .kwe = true) (h_ent : P .ent = true)
    (h_mem : P .mem = true) {sl r rmk : Nat} {s : State} (Ks : Q s) : Q (restoreRegion sl r rmk s) := by
  unfold restoreRegion
  extract_lets +onlyGivenNames x1 x2
  split
  · extract_lets +onlyGivenNames x3
    have Kx3 : ∀ b0 b1 b2, Q b2 → Q (x3 b0 b1 b2) := by
      intro b4 b5 b6 b7
      unfold x3
      exact kweDone_keeps K h_kwe h_ent (writeSlot_keeps K h_kst b7)
    clear_value x3
    extract_lets +onlyGivenNames x8
    have Kx8 : Q x8 := Kx3 _ _ _ (Kx3 _ _ _ (Kx3 _ _ _ Ks))
    clear_value x8
    extract_lets +onlyGivenNames x9
    have Kx9 : Q x9 := updRegion_keeps K h_mem Kx8
    clear_value x9
    extract_lets +onlyGivenNames x10 x11
    have Kx11 : Q x11 := K.mem h_mem Kx9
    clear_value x11
    extract_lets +onlyGivenNames x12
    have Kx12 : Q x12 := loadRegionKeys_keeps K h_engKeys h_kwe h_ent Kx11
    clear_value x12
    exact Keeps.ite (zeroFill_keeps K h_mem Kx12) Kx12
  · exact Ks

theorem restoreLines_keeps (K : Keeps P Q) (h_rcv : P .rcv = true) (h_icu : P .icu = true) (h_obs : P .obs = true) (h_cex : P .cex = true)
    (h_engKeys : P .engKeys = true) (h_ent : P .ent = true) (h_mem : P .mem = true) (h_sheaf : P .sheaf = true) (h_free : P .free = true)
    (h_out : P .out = true) {sl r : Nat} {data : Bytes} {s : State} (Ks : Q s) : Q (restoreLines sl r data s) := by
  unfold restoreLines
  extract_lets +onlyGivenNames x1 x2
  have Kx2 : Q x2 := Keeps.ite (updRegion_keeps K h_mem Ks) Ks
  clear_value x2
  extract_lets +onlyGivenNames x3
  have Kx3 : ∀ b0 b1, Q b0 → Q (x3 b0 b1) := by
    intro b4 b5 b6
    unfold x3
    refine Keeps.ite b6 ?_
    extract_lets +onlyGivenNames x7
    exact acceptWrite_keeps K h_rcv h_icu h_obs h_cex h_engKeys h_ent h_mem h_sheaf h_free h_out b6
  clear_value x3
  extract_lets +onlyGivenNames x8
  have Kx8 : Q x8 := Keeps.foldl (fun b9 b10 h11 => Kx3 _ _ h11) Kx2
  clear_value x8
  exact Keeps.ite (updRegion_keeps K h_mem Kx8) Kx8

theorem restoreData_keeps (K : Keeps P Q) (h_rcv : P .rcv = true) (h_icu : P .icu = true) (h_obs : P .obs = true) (h_cex : P .cex = true)
    (h_engKeys : P .engKeys = true) (h_ent : P .ent = true) (h_mem : P .mem = true) (h_sheaf : P .sheaf = true) (h_free : P .free = true)
    (h_out : P .out = true) {sl : Nat} {ps : List Placement} {a : List (Nat × Region × Option Nat × Option Plough)} {a3 : Bytes} {a4 : State} (Ka4
    : Q a4) : Q (restoreData sl ps a a3 a4) := by
  induction a generalizing sl ps a3 a4 with
  | nil =>
    unfold restoreData
    exact Ka4
  | cons x l ih =>
    unfold restoreData
    exact ih (restoreLines_keeps K h_rcv h_icu h_obs h_cex h_engKeys h_ent h_mem h_sheaf h_free h_out Ka4)

theorem restoreDomain_keeps (K : Keeps P Q) (h_cex : P .cex = true) (h_dom : P .dom = true) (h_pins : P .pins = true) {sl : Nat} {d : Dom}
    {slot : Nat → Nat} {s : State} (Ks : Q s) : Q (restoreDomain sl d slot s) := by
  unfold restoreDomain
  extract_lets +onlyGivenNames x1 x2
  have Kx2 : Q x2 := updDomLive_keeps K h_pins (updDom_keeps K h_dom Ks)
  clear_value x2
  exact raise_keeps K h_cex Kx2

theorem resumeFrozen_keeps (K : Keeps P Q) (h_mem : P .mem = true) {sl : Nat} {s : State} (Ks : Q s) : Q (resumeFrozen sl s) := by
  unfold resumeFrozen
  exact K.mem h_mem Ks

theorem withdrawWaits_keeps (K : Keeps P Q) (h_cex : P .cex = true) (h_srg : P .srg = true) {sl : Nat} {s : State} (Ks : Q s)
    : Q (withdrawWaits sl s) := by
  unfold withdrawWaits
  extract_lets +onlyGivenNames x1 x2 x3
  have Kx3 : Q x3 := updSlice_keeps K h_srg Ks
  clear_value x3
  exact K.cex h_cex Kx3

theorem execSliceFreeze_keeps (K : Keeps P Q) (h_rcv : P .rcv = true) (h_icu : P .icu = true) (h_obs : P .obs = true) (h_cex : P .cex = true)
    (h_srg : P .srg = true) (h_ods : P .ods = true) (h_mem : P .mem = true) (h_link : P .link = true) (h_dom : P .dom = true) (h_tdi : P .tdi = true)
    (h_out : P .out = true) {h : CmdHdr} {s : State} (Ks : Q s) : KeepsBy Q (execSliceFreeze h s) := by
  unfold execSliceFreeze
  refine KeepsBy.of ?_
  refine cexRun_keeps K h_cex h_srg Ks ?_
  intro b1 h2
  extract_lets +onlyGivenNames x3
  refine checked_keeps K h_cex h2 ?_
  intro b4 h5
  extract_lets +onlyGivenNames x6
  have Kx6 : Q x6 := withdrawWaits_keeps K h_cex h_srg (tdiError_keeps K h_rcv h_icu h_obs h_cex h_srg h_ods h_mem h_link h_dom h_tdi h_out (updSlice_keeps K h_srg h5))
  clear_value x6
  exact Keeps.foldl (fun b7 b8 h9 => pausePlough_keeps K h_rcv h_icu h_obs h_cex h_mem h_out h9) Kx6

theorem settleFreeze_keeps (K : Keeps P Q) (h_cex : P .cex = true) (h_srg : P .srg = true) {sl : Nat} {s : State} (Ks : Q s)
    : Q (settleFreeze sl s) := by
  unfold settleFreeze
  split
  · exact Ks
  · exact Keeps.ite (updSlice_keeps K h_srg Ks) (Keeps.ite (finish_keeps K h_cex (updSlice_keeps K h_srg Ks)) Ks)

theorem settleFreezes_keeps (K : Keeps P Q) (h_cex : P .cex = true) (h_srg : P .srg = true) {s : State} (Ks : Q s) : Q (settleFreezes s) := by
  unfold settleFreezes
  exact Keeps.foldl (fun b1 b2 h3 => settleFreeze_keeps K h_cex h_srg h3) Ks

theorem endCarriedPloughs_keeps (K : Keeps P Q) (h_cex : P .cex = true) {sl : Nat} {s : State} (Ks : Q s) : Q (endCarriedPloughs sl s) := by
  unfold endCarriedPloughs
  exact Keeps.foldl (fun b1 b2 h3 => Keeps.foldl (fun b4 b5 h6 => Keeps.ite (finish_keeps K h_cex h6) h6) h3) Ks

theorem resumeWaits_keeps (K : Keeps P Q) (h_cex : P .cex = true) (h_srg : P .srg = true) {sl : Nat} {s : State} (Ks : Q s)
    : Q (resumeWaits sl s) := by
  unfold resumeWaits
  extract_lets +onlyGivenNames x1 x2 x3
  have Kx3 : Q x3 := updSlice_keeps K h_srg (K.cex h_cex Ks)
  clear_value x3
  exact Keeps.foldl (fun b4 b5 h6 => wakeSync_keeps K h_cex h6) Kx3

theorem restoreKeys_keeps (K : Keeps P Q) (h_kst : P .kst = true) {sl : Nat} {keys : Bytes} {ns : List Nat} {s : State} (Ks : Q s)
    : Q (restoreKeys sl keys ns s) := by
  unfold restoreKeys
  refine Keeps.foldl ?_ Ks
  intro b1 b2 h3
  extract_lets +onlyGivenNames x4 x5 x6
  exact writeSlot_keeps K h_kst h3

theorem saveSlice_keeps (K : Keeps P Q) (h_srg : P .srg = true) (h_kwe : P .kwe = true) (h_pke : P .pke = true) (h_ent : P .ent = true)
    (h_free : P .free = true) {sl : Nat} {rcpt evidence data : Bytes} {s : State} (Ks : Q s) : Q (saveSlice sl rcpt evidence data s).1 := by
  unfold saveSlice
  extract_lets +onlyGivenNames x1 x2 x3
  split
  rename_i y4 y5 y6 y7
  have Ky6 : Q y6 := Keeps.snd y7 (drbgBits_keeps K h_ent h_free Ks)
  extract_lets +onlyGivenNames x8
  split
  · rename_i y9 y10 y11
    have Ky10 : Q y10 := Keeps.snd y11 (hybridHead_keeps K h_pke h_ent h_free Ky6)
    exact Ky10
  · rename_i y12 y13 y14 y15 y16
    have Ky15 : Q y15 := Keeps.snd y16 (hybridHead_keeps K h_pke h_ent h_free Ky6)
    split
    rename_i y17 y18 y19 y20
    have Ky19 : Q y19 := Keeps.snd y20 (signed_keeps K h_ent h_free Ky15)
    extract_lets +onlyGivenNames x21
    exact Keeps.p1 (kweDone_keeps K h_kwe h_ent (updSlice_keeps K h_srg Ky19))

theorem saveBody_keeps (K : Keeps P Q) (h_cex : P .cex = true) (h_srg : P .srg = true) (h_kst : P .kst = true) (h_engKeys : P .engKeys = true)
    (h_kwe : P .kwe = true) (h_pke : P .pke = true) (h_ent : P .ent = true) (h_free : P .free = true) (h_out : P .out = true) {h : CmdHdr} {out : Nat}
    {g : Gather} {got : Nat → Option Line} {s : State} (Ks : Q s) : Q (saveBody h out g got s) := by
  unfold saveBody
  extract_lets +onlyGivenNames x1
  refine checked_keeps K h_cex Ks ?_
  intro b2 h3
  split
  · exact finish_keeps K h_cex h3
  · split
    · rename_i y4 y5 y6
      have Ky5 : Q y5 := Keeps.fst y6 (saveSlice_keeps K h_srg h_kwe h_pke h_ent h_free h3)
      exact finish_keeps K h_cex Ky5
    · rename_i y7 y8 y9 y10 y11
      have Ky8 : Q y8 := Keeps.fst y11 (saveSlice_keeps K h_srg h_kwe h_pke h_ent h_free h3)
      extract_lets +onlyGivenNames x12
      have Kx12 : Q x12.1 := withBlobSlot_keeps K h_kst h_engKeys h_kwe h_ent Ky8 (fun b13 h14 => Keeps.p1 (State.emit_keeps K h_out h14))
      clear_value x12
      exact finish_keeps K h_cex Kx12

theorem restoreFailed_keeps (K : Keeps P Q) (h_rcv : P .rcv = true) (h_icu : P .icu = true) (h_obs : P .obs = true) (h_cex : P .cex = true)
    (h_srg : P .srg = true) (h_kst : P .kst = true) (h_engKeys : P .engKeys = true) (h_kwe : P .kwe = true) (h_pke : P .pke = true)
    (h_mem : P .mem = true) (h_link : P .link = true) (h_sheaf : P .sheaf = true) (h_ac : P .ac = true) (h_vt : P .vt = true) (h_out : P .out = true)
    {sl : Nat} {s : State} (Ks : Q s) : Q (restoreFailed sl s) := by
  unfold restoreFailed
  exact updSlice_keeps K h_srg (zeroizeSlice_keeps K h_rcv h_icu h_obs h_cex h_kst h_engKeys h_kwe h_pke h_mem h_link h_sheaf h_ac h_vt h_out Ks)

theorem restorePair_keeps (K : Keeps P Q) (h_engKeys : P .engKeys = true) (h_kwe : P .kwe = true) (h_ent : P .ent = true) (h_link : P .link = true)
    {sl : Nat} {c : Bytes} {ss : List (Nat × Stream)} {n : Nat} {x : Pair} {s : State} (Ks : Q s) : Q (restorePair sl c ss n x s) := by
  unfold restorePair
  split
  · exact Ks
  · extract_lets +onlyGivenNames x1 x2 x3 x4
    have Kx4 : Q x4 := K.link h_link Ks
    clear_value x4
    extract_lets +onlyGivenNames x5
    have Kx5 : Q x5 := refreshNext_keeps K h_link (Keeps.foldl (fun b6 b7 h8 => deriveLink_keeps K h_engKeys h_kwe h_ent (deriveLink_keeps K h_engKeys h_kwe h_ent h8)) Kx4)
    clear_value x5
    refine Keeps.foldl ?_ Kx5
    intro b9 b10 h11
    split
    · exact K.link h_link h11
    · exact h11

theorem restoreCommands_keeps (K : Keeps P Q) (h_cex : P .cex = true) (h_srg : P .srg = true) {sl : Nat} {x : SliceSave} {s : State} (Ks : Q s)
    : Q (restoreCommands sl x s) := by
  unfold restoreCommands
  extract_lets +onlyGivenNames x1 x2 x3 x4 x5
  exact updSlice_keeps K h_srg (K.cex h_cex Ks)

theorem restoreSheaf_keeps (K : Keeps P Q) (h_engKeys : P .engKeys = true) (h_kwe : P .kwe = true) (h_ent : P .ent = true) (h_sheaf : P .sheaf = true)
    {sl : Nat} {ps : List Placement} {slot : Nat → Nat} {c : SheafCtx} {s : State} (Ks : Q s) : Q (restoreSheaf sl ps slot c s) := by
  unfold restoreSheaf
  split
  · exact Ks
  · extract_lets +onlyGivenNames x1 x2 x3
    have Kx3 : Q x3 := K.sheaf h_sheaf Ks
    clear_value x3
    exact loadKey_keeps K h_engKeys h_kwe h_ent Kx3

theorem restoreSlice_keeps (K : Keeps P Q) (h_rcv : P .rcv = true) (h_icu : P .icu = true) (h_obs : P .obs = true) (h_cex : P .cex = true)
    (h_srg : P .srg = true) (h_kst : P .kst = true) (h_engKeys : P .engKeys = true) (h_kwe : P .kwe = true) (h_ent : P .ent = true)
    (h_mem : P .mem = true) (h_link : P .link = true) (h_sheaf : P .sheaf = true) (h_dom : P .dom = true) (h_pins : P .pins = true)
    (h_free : P .free = true) (h_out : P .out = true) {sl : Nat} {ps : List Placement} {x : SliceSave} {keys data chain : Bytes} {s : State} (Ks
    : Q s) : Q (restoreSlice sl ps x keys data chain s) := by
  unfold restoreSlice
  extract_lets +onlyGivenNames x1 x2 x3
  have Kx3 : Q x3 := restoreKeys_keeps K h_kst Ks
  clear_value x3
  extract_lets +onlyGivenNames x4
  have Kx4 : Q x4 := Keeps.foldl (fun b5 b6 h7 => restoreRegion_keeps K h_kst h_engKeys h_kwe h_ent h_mem h7) Kx3
  clear_value x4
  extract_lets +onlyGivenNames x8
  have Kx8 : Q x8 := restoreData_keeps K h_rcv h_icu h_obs h_cex h_engKeys h_ent h_mem h_sheaf h_free h_out Kx4
  clear_value x8
  extract_lets +onlyGivenNames x9 x10
  have Kx10 : Q x10 := updDom_keeps K h_dom Kx8
  clear_value x10
  extract_lets +onlyGivenNames x11
  have Kx11 : Q x11 := Keeps.foldl (fun b12 b13 h14 => restorePair_keeps K h_engKeys h_kwe h_ent h_link h14) Kx10
  clear_value x11
  extract_lets +onlyGivenNames x15
  have Kx15 : Q x15 := restoreCommands_keeps K h_cex h_srg Kx11
  clear_value x15
  extract_lets +onlyGivenNames x16 x17
  have Kx17 : Q x17 := Keeps.foldl (fun b18 b19 h20 => restoreSheaf_keeps K h_engKeys h_kwe h_ent h_sheaf h20) (K.sheaf h_sheaf Kx15)
  clear_value x17
  extract_lets +onlyGivenNames x21
  have Kx21 : Q x21 := restoreDomain_keeps K h_cex h_dom h_pins Kx17
  clear_value x21
  exact updSlice_keeps K h_srg Kx21

theorem placeAll_keeps (K : Keeps P Q) (h_mem : P .mem = true) {sl : Nat} {ps : List Placement} {a : List (Nat × Region × Option Nat × Option Plough)}
    {a3 : State} (Ka3 : Q a3) : KeepsE Q (placeAll sl ps a a3) := by
  induction a generalizing sl ps a3 with
  | nil =>
    unfold placeAll
    exact KeepsE.of Ka3
  | cons x l ih =>
    unfold placeAll
    split
    · extract_lets +onlyGivenNames x1
      split
      · exact trivial
      · exact ih (K.mem h_mem Ka3)
    · exact trivial

theorem execSliceSave_keeps (K : Keeps P Q) (h_rcv : P .rcv = true) (h_icu : P .icu = true) (h_obs : P .obs = true) (h_cex : P .cex = true)
    (h_xlt : P .xlt = true) (h_srg : P .srg = true) (h_ods : P .ods = true) (h_kst : P .kst = true) (h_engKeys : P .engKeys = true)
    (h_kwe : P .kwe = true) (h_pke : P .pke = true) (h_ent : P .ent = true) (h_mem : P .mem = true) (h_link : P .link = true)
    (h_sheaf : P .sheaf = true) (h_dom : P .dom = true) (h_pins : P .pins = true) (h_ac : P .ac = true) (h_vt : P .vt = true)
    (h_free : P .free = true) (h_out : P .out = true) {h : CmdHdr} {out outLen rcptBva : BitVec 64} {x : Option XFault} {bundle : Bytes} {s : State}
    (Ks : Q s) : KeepsBy Q (execSliceSave h out outLen rcptBva x bundle s) := by
  unfold execSliceSave
  refine KeepsBy.of ?_
  refine gatherRun_keeps K h_cex h_srg h_mem Ks (fun b1 b2 b3 h4 => saveBody_keeps K h_cex h_srg h_kst h_engKeys h_kwe h_pke h_ent h_free h_out h4) ?_
  intro b5 h6
  extract_lets +onlyGivenNames x7 x8
  refine checked_keeps K h_cex h6 ?_
  intro b9 h10
  split
  · exact xltFault_keeps K h_rcv h_obs h_cex h_xlt h10
  · split
    extract_lets +onlyGivenNames x11
    split
    · rename_i y12 y13 y14 y15
      have Ky14 : Q y14 := Keeps.snd y15 (checkEvidenceOf_keeps K h_ent h_dom h10)
      exact finish_keeps K h_cex Ky14
    · rename_i y16 y17 y18
      have Ky17 : Q y17 := Keeps.snd y18 (checkEvidenceOf_keeps K h_ent h_dom h10)
      exact checked_keeps K h_cex Ky17 (fun b19 h20 => startGather_keeps K h_rcv h_icu h_obs h_cex h_srg h_ods h_kst h_engKeys h_kwe h_pke h_ent h_mem h_link h_sheaf h_dom h_pins h_ac h_vt h_out (fun b21 b22 b23 h24 => saveBody_keeps K h_cex h_srg h_kst h_engKeys h_kwe h_pke h_ent h_free h_out h24) h20)

theorem execSliceRestore_keeps (K : Keeps P Q) (h_rcv : P .rcv = true) (h_icu : P .icu = true) (h_obs : P .obs = true) (h_cex : P .cex = true)
    (h_xlt : P .xlt = true) (h_srg : P .srg = true) (h_kst : P .kst = true) (h_engKeys : P .engKeys = true) (h_kwe : P .kwe = true)
    (h_pke : P .pke = true) (h_ent : P .ent = true) (h_mem : P .mem = true) (h_link : P .link = true) (h_sheaf : P .sheaf = true)
    (h_dom : P .dom = true) (h_pins : P .pins = true) (h_ac : P .ac = true) (h_vt : P .vt = true) (h_free : P .free = true) (h_out : P .out = true)
    {h : CmdHdr} {blobBva blobLen : BitVec 64} {x : Option XFault} {blob placement : Bytes} {s : State} (Ks : Q s)
    : KeepsBy Q (execSliceRestore h blobBva blobLen x blob placement s) := by
  unfold execSliceRestore
  refine KeepsBy.of ?_
  refine cexRun_keeps K h_cex h_srg Ks ?_
  intro b1 h2
  extract_lets +onlyGivenNames x3
  refine checked_keeps K h_cex h2 ?_
  intro b4 h5
  split
  · exact xltFault_keeps K h_rcv h_obs h_cex h_xlt h5
  · split
    · exact finish_keeps K h_cex h5
    · refine checked_keeps K h_cex h5 ?_
      intro b6 h7
      extract_lets +onlyGivenNames x8
      have Kx8 : Q x8 := withBlobSlot_keeps K h_kst h_engKeys h_kwe h_ent h7 (fun b9 h10 => h10)
      split
      · exact finish_keeps K h_cex (restoreFailed_keeps K h_rcv h_icu h_obs h_cex h_srg h_kst h_engKeys h_kwe h_pke h_mem h_link h_sheaf h_ac h_vt h_out Kx8)
      · split
        · exact finish_keeps K h_cex (restoreFailed_keeps K h_rcv h_icu h_obs h_cex h_srg h_kst h_engKeys h_kwe h_pke h_mem h_link h_sheaf h_ac h_vt h_out Kx8)
        · extract_lets +onlyGivenNames x11
          refine checked_keeps K h_cex Kx8 ?_
          intro b12 h13
          split
          · exact refuse_keeps K h_cex h13
          · rename_i y14 y15 y16
            have Ky15 : Q y15 := KeepsE.ok (placeAll_keeps K h_mem h13) y16
            exact finish_keeps K h_cex (restoreSlice_keeps K h_rcv h_icu h_obs h_cex h_srg h_kst h_engKeys h_kwe h_ent h_mem h_link h_sheaf h_dom h_pins h_free h_out Ky15)

theorem execSliceCommit_keeps (K : Keeps P Q) (h_rcv : P .rcv = true) (h_icu : P .icu = true) (h_obs : P .obs = true) (h_cex : P .cex = true)
    (h_srg : P .srg = true) (h_kst : P .kst = true) (h_engKeys : P .engKeys = true) (h_kwe : P .kwe = true) (h_pke : P .pke = true)
    (h_mem : P .mem = true) (h_link : P .link = true) (h_sheaf : P .sheaf = true) (h_dom : P .dom = true) (h_pins : P .pins = true)
    (h_ac : P .ac = true) (h_vt : P .vt = true) (h_out : P .out = true) {h : CmdHdr} {s : State} (Ks : Q s) : KeepsBy Q (execSliceCommit h s) := by
  unfold execSliceCommit
  refine KeepsBy.of ?_
  refine cexRun_keeps K h_cex h_srg Ks ?_
  intro b1 h2
  extract_lets +onlyGivenNames x3
  refine checked_keeps K h_cex h2 ?_
  intro b4 h5
  extract_lets +onlyGivenNames x6
  have Kx6 : Q x6 := emptySlice_keeps K h_rcv h_icu h_obs h_cex h_srg h_kst h_engKeys h_kwe h_pke h_mem h_link h_sheaf h_ac h_vt h_out h5
  clear_value x6
  extract_lets +onlyGivenNames x7
  have Kx7 : Q x7 := setDomState_keeps K h_cex h_mem h_link h_dom h_pins h_ac h_vt (updDom_keeps K h_dom Kx6)
  clear_value x7
  exact finish_keeps K h_cex (updSlice_keeps K h_srg Kx7)

theorem execSliceThaw_keeps (K : Keeps P Q) (h_rcv : P .rcv = true) (h_icu : P .icu = true) (h_obs : P .obs = true) (h_cex : P .cex = true)
    (h_srg : P .srg = true) (h_ods : P .ods = true) (h_kst : P .kst = true) (h_engKeys : P .engKeys = true) (h_kwe : P .kwe = true)
    (h_pke : P .pke = true) (h_ent : P .ent = true) (h_mem : P .mem = true) (h_link : P .link = true) (h_sheaf : P .sheaf = true)
    (h_dom : P .dom = true) (h_pins : P .pins = true) (h_ac : P .ac = true) (h_vt : P .vt = true) (h_out : P .out = true) {h : CmdHdr} {s : State} (Ks
    : Q s) : KeepsBy Q (execSliceThaw h s) := by
  unfold execSliceThaw
  refine KeepsBy.of ?_
  refine cexRun_keeps K h_cex h_srg Ks ?_
  intro b1 h2
  extract_lets +onlyGivenNames x3 x4
  have Kx4 : ∀ b0, Q b0 → Q (x4 b0) := by
    intro b5 b6
    unfold x4
    exact updSlice_keeps K h_srg b6
  clear_value x4
  extract_lets +onlyGivenNames x7
  have Kx7 : ∀ b0, Q b0 → Q (x7 b0) := by
    intro b8 b9
    unfold x7
    exact updSlice_keeps K h_srg b9
  clear_value x7
  split
  · exact finish_keeps K h_cex (resumeWaits_keeps K h_cex h_srg (endCarriedPloughs_keeps K h_cex (Kx4 _ h2)))
  · exact finish_keeps K h_cex (resumeWaits_keeps K h_cex h_srg (resumeFrozen_keeps K h_mem (Kx4 _ h2)))
  · exact finish_keeps K h_cex (Kx4 _ (Kx7 _ (abortSlice_keeps K h_rcv h_icu h_obs h_cex h_srg h_ods h_kst h_engKeys h_kwe h_pke h_ent h_mem h_link h_sheaf h_dom h_pins h_ac h_vt h_out h2)))
  · exact refuse_keeps K h_cex h2

end Sys2Proof.Machine
end

