-- ==== Sys2Proof/Laws/KeepsShares.lean ====
section
/-!
SUPPORT. What the operations of Machine/Shares.lean keep, and which parts they may change (Laws/Keeps.lean).
-/

set_option Elab.async false
namespace Sys2Proof.Machine

variable {P : Part → Bool} {Q : State → Prop}

theorem switchTo_keeps (K : Keeps P Q) (h_srg : P .srg = true) {unit from_ dest cost : Nat} {s : State} (Ks : Q s)
    : Q (switchTo unit from_ dest cost s) := by
  unfold switchTo
  extract_lets +onlyGivenNames x1
  have Kx1 : Q x1 := Keeps.ite (updUsage_keeps K h_srg Ks) Ks
  clear_value x1
  extract_lets +onlyGivenNames x2
  have Kx2 : Q x2 := chargeEngine_keeps K h_srg Kx1
  clear_value x2
  exact K.srg h_srg Kx2

theorem execPreemptionPoint_keeps (K : Keeps P Q) (h_srg : P .srg = true) {unit : BitVec 2} {running : BitVec 5} {waiting : BitVec 17}
    {ran cost : BitVec 32} {s : State} (Ks : Q s) : KeepsBy Q (execPreemptionPoint unit running waiting ran cost s) := by
  unfold execPreemptionPoint
  refine KeepsBy.of ?_
  split
  refine Keeps.ite Ks ?_
  extract_lets +onlyGivenNames x1
  have Kx1 : Q x1 := chargeEngine_keeps K h_srg Ks
  clear_value x1
  split
  · exact Kx1
  · exact Keeps.ite Kx1 (switchTo_keeps K h_srg Kx1)

theorem raiseMissed_keeps (K : Keeps P Q) (h_obs : P .obs = true) (h_cex : P .cex = true) {e rate value : Nat} {s : State} (Ks : Q s)
    : Q (raiseMissed e rate value s) := by
  unfold raiseMissed
  refine Keeps.foldl ?_ Ks
  intro b1 b2 h3
  extract_lets +onlyGivenNames x4
  exact Keeps.ite h3 (raise_keeps K h_cex (obsAdd_keeps K h_obs h3))

theorem reef_keeps (K : Keeps P Q) (h_rcv : P .rcv = true) (h_icu : P .icu = true) (h_obs : P .obs = true) (h_cex : P .cex = true)
    (h_srg : P .srg = true) (h_out : P .out = true) {e rate value : Nat} {s : State} (Ks : Q s) : Q (reef e rate value s) := by
  unfold reef
  extract_lets +onlyGivenNames x1 x2
  have Kx2 : ∀ b0 b1, Q b1 → Q (x2 b0 b1) := by
    intro b3 b4 b5
    unfold x2
    exact K.srg h_srg b5
  clear_value x2
  split
  · exact Keeps.ite (raiseMissed_keeps K h_obs h_cex (pend_keeps K h_rcv h_icu h_obs h_out (Kx2 _ _ Ks))) Ks
  · exact Keeps.ite (raiseMissed_keeps K h_obs h_cex (pend_keeps K h_rcv h_icu h_obs h_out (Kx2 _ _ Ks))) (Keeps.ite (raiseMissed_keeps K h_obs h_cex (pend_keeps K h_rcv h_icu h_obs h_out (Kx2 _ _ Ks))) Ks)

theorem execRateSample_keeps (K : Keeps P Q) (h_rcv : P .rcv = true) (h_icu : P .icu = true) (h_obs : P .obs = true) (h_sen : P .sen = true)
    (h_cex : P .cex = true) (h_srg : P .srg = true) (h_out : P .out = true) {rate : BitVec 6} {value : BitVec 32} {s : State} (Ks : Q s)
    : KeepsBy Q (execRateSample rate value s) := by
  unfold execRateSample
  refine KeepsBy.of ?_
  extract_lets +onlyGivenNames x1
  refine Keeps.ite Ks ?_
  extract_lets +onlyGivenNames x2 x3 x4 x5 x6
  have Kx6 : Q x6 := K.sen h_sen Ks
  clear_value x6
  extract_lets +onlyGivenNames x7
  have Kx7 : Q x7 := Keeps.ite (pend_keeps K h_rcv h_icu h_obs h_out Kx6) Kx6
  clear_value x7
  split
  · exact reef_keeps K h_rcv h_icu h_obs h_cex h_srg h_out Kx7
  · exact Kx7

end Sys2Proof.Machine
end

