-- ==== Sys2Proof/Laws/KeepsSheaf.lean ====
section
/-!
SUPPORT. What the operations of Machine/Sheaf.lean keep, and which parts they may change (Laws/Keeps.lean).
-/

set_option Elab.async false
namespace Sys2Proof.Machine

variable {P : Part → Bool} {Q : State → Prop}

theorem beginSheaf_keeps (K : Keeps P Q) (h_cex : P .cex = true) (h_engKeys : P .engKeys = true) (h_kwe : P .kwe = true) (h_ent : P .ent = true)
    (h_sheaf : P .sheaf = true) {h : CmdHdr} {id slot : Nat} {ps : List PartEntry} {s : State} (Ks : Q s) : Q (beginSheaf h id slot ps s) := by
  unfold beginSheaf
  extract_lets +onlyGivenNames x1 x2 x3 x4 x5
  have Kx5 : Q x5 := K.sheaf h_sheaf Ks
  clear_value x5
  exact finish_keeps K h_cex (loadKey_keeps K h_engKeys h_kwe h_ent Kx5)

theorem execSheafBegin_keeps (K : Keeps P Q) (h_rcv : P .rcv = true) (h_obs : P .obs = true) (h_cex : P .cex = true) (h_xlt : P .xlt = true)
    (h_srg : P .srg = true) (h_engKeys : P .engKeys = true) (h_kwe : P .kwe = true) (h_ent : P .ent = true) (h_sheaf : P .sheaf = true) {h : CmdHdr}
    {id : BitVec 32} {slot : BitVec 16} {count : BitVec 8} {listBva : BitVec 64} {x : Option XFault} {list : List (BitVec 128)} {s : State} (Ks : Q s)
    : KeepsBy Q (execSheafBegin h id slot count listBva x list s) := by
  unfold execSheafBegin
  refine KeepsBy.of ?_
  refine cexRun_keeps K h_cex h_srg Ks ?_
  intro b1 h2
  extract_lets +onlyGivenNames x3
  refine checked_keeps K h_cex h2 ?_
  intro b4 h5
  split
  · exact xltFault_keeps K h_rcv h_obs h_cex h_xlt h5
  · extract_lets +onlyGivenNames x6
    exact checked_keeps K h_cex h5 (fun b7 h8 => beginSheaf_keeps K h_cex h_engKeys h_kwe h_ent h_sheaf h8)

theorem combineOut_keeps (K : Keeps P Q) (h_cex : P .cex = true) (h_ent : P .ent = true) (h_sheaf : P .sheaf = true) (h_free : P .free = true)
    (h_out : P .out = true) {h : CmdHdr} {id slot : Nat} {sign : Bool} {out : Nat} {c : Combined} {s : State} (Ks : Q s)
    : Q (combineOut h id slot sign out c s) := by
  unfold combineOut
  extract_lets +onlyGivenNames x1 x2 x3 x4 x5 x6 x7
  split
  rename_i y8 y9 y10 y11
  have Ky10 : Q y10 := Keeps.snd y11 (drbgBits_keeps K h_ent h_free Ks)
  extract_lets +onlyGivenNames x12
  split
  rename_i y13 y14 y15 y16
  have Ky15 : Q y15 := by
    refine Keeps.snd y16 ?_
    refine Keeps.ite2 ?_ Ky10
    extract_lets +onlyGivenNames x17
    split
    rename_i y18 y19 y20 y21
    have Ky20 : Q y20 := Keeps.snd y21 (hybridSign_keeps K h_ent h_free Ky10)
    exact Ky20
  extract_lets +onlyGivenNames x22
  have Kx22 : Q x22 := State.emit_keeps K h_out Ky15
  clear_value x22
  extract_lets +onlyGivenNames x23 x24
  have Kx24 : Q x24 := K.sheaf h_sheaf Kx22
  clear_value x24
  exact finish_keeps K h_cex Kx24

theorem refuseCombine_keeps (K : Keeps P Q) (h_cex : P .cex = true) (h_sheaf : P .sheaf = true) {h : CmdHdr} {status detail : Nat} {s : State} (Ks
    : Q s) : Q (refuseCombine h status detail s) := by
  unfold refuseCombine
  exact refuse_keeps K h_cex (K.sheaf h_sheaf Ks)

theorem execSheafCombine_keeps (K : Keeps P Q) (h_rcv : P .rcv = true) (h_obs : P .obs = true) (h_cex : P .cex = true) (h_xlt : P .xlt = true)
    (h_srg : P .srg = true) (h_ent : P .ent = true) (h_sheaf : P .sheaf = true) (h_free : P .free = true) (h_out : P .out = true) {h : CmdHdr}
    {id : BitVec 32} {slot : BitVec 16} {opt : BitVec 8} {inBva : BitVec 64} {count : BitVec 16} {out : BitVec 64} {x : Option XFault}
    {recs : List Bytes} {s : State} (Ks : Q s) : KeepsBy Q (execSheafCombine h id slot opt inBva count out x recs s) := by
  unfold execSheafCombine
  refine KeepsBy.of ?_
  refine cexRun_keeps K h_cex h_srg Ks ?_
  intro b1 h2
  extract_lets +onlyGivenNames x3 x4
  split
  · exact refuseCombine_keeps K h_cex h_sheaf h2
  · split
    · exact xltFault_keeps K h_rcv h_obs h_cex h_xlt h2
    · extract_lets +onlyGivenNames x5
      split
      · exact refuseCombine_keeps K h_cex h_sheaf h2
      · exact Keeps.ite (refuseCombine_keeps K h_cex h_sheaf h2) (combineOut_keeps K h_cex h_ent h_sheaf h_free h_out h2)

theorem execSheafEnd_keeps (K : Keeps P Q) (h_rcv : P .rcv = true) (h_obs : P .obs = true) (h_cex : P .cex = true) (h_xlt : P .xlt = true)
    (h_srg : P .srg = true) (h_engKeys : P .engKeys = true) (h_ent : P .ent = true) (h_sheaf : P .sheaf = true) (h_free : P .free = true)
    (h_out : P .out = true) {h : CmdHdr} {id : BitVec 32} {out : BitVec 64} {x : Option XFault} {s : State} (Ks : Q s)
    : KeepsBy Q (execSheafEnd h id out x s) := by
  unfold execSheafEnd
  refine KeepsBy.of ?_
  refine cexRun_keeps K h_cex h_srg Ks ?_
  intro b1 h2
  extract_lets +onlyGivenNames x3
  refine checked_keeps K h_cex h2 ?_
  intro b4 h5
  split
  · exact xltFault_keeps K h_rcv h_obs h_cex h_xlt h5
  · exact settleSheaves_keeps K h_cex h_engKeys h_ent h_sheaf h_free h_out (K.sheaf h_sheaf h5)

end Sys2Proof.Machine
end

