-- ==== Sys2Proof/Laws/KeepsSpdm.lean ====
section
/-!
SUPPORT. What the operations of Machine/Spdm.lean keep, and which parts they may change (Laws/Keeps.lean).
-/

set_option Elab.async false
namespace Sys2Proof.Machine

variable {P : Part → Bool} {Q : State → Prop}

theorem updConn_keeps (K : Keeps P Q) (h_dom : P .dom = true) {m : SpdmHdr} {f : SpdmConn → SpdmConn} {s : State} (Ks : Q s) : Q (updConn m f s) := by
  unfold updConn
  exact K.dom h_dom Ks

theorem spdmSend_keeps (K : Keeps P Q) (h_dom : P .dom = true) (h_out : P .out = true) {m : SpdmHdr} {code : Nat} {values : Bytes} {s : State} (Ks
    : Q s) : Q (spdmSend m code values s) := by
  unfold spdmSend
  extract_lets +onlyGivenNames x1
  exact Keeps.ite (State.emit_keeps K h_out Ks) (State.emit_keeps K h_out (updConn_keeps K h_dom Ks))

theorem spdmError_keeps (K : Keeps P Q) (h_dom : P .dom = true) (h_out : P .out = true) {m : SpdmHdr} {code : Nat} {s : State} (Ks : Q s)
    : Q (spdmError m code s) := by
  unfold spdmError
  exact spdmSend_keeps K h_dom h_out Ks

theorem spdmRequest_keeps (K : Keeps P Q) (h_rcv : P .rcv = true) (h_icu : P .icu = true) (h_obs : P .obs = true) (h_dom : P .dom = true)
    (h_out : P .out = true) {m : SpdmHdr} {s : State} {f : State → State} (Ks : Q s) (Kf : ∀ b0, Q b0 → Q (f b0)) : Q (spdmRequest m s f) := by
  unfold spdmRequest
  refine Keeps.ite Ks ?_
  extract_lets +onlyGivenNames x1
  have Kx1 : Q x1 := pend_keeps K h_rcv h_icu h_obs h_out Ks
  clear_value x1
  split
  · exact Kf _ Kx1
  · extract_lets +onlyGivenNames x2
    exact Keeps.ite (spdmError_keeps K h_dom h_out Kx1) (Kf _ Kx1)

theorem spdmAfter_keeps (K : Keeps P Q) (h_rcv : P .rcv = true) (h_icu : P .icu = true) (h_obs : P .obs = true) (h_dom : P .dom = true)
    (h_out : P .out = true) {phase : Nat} {m : SpdmHdr} {s : State} {f : State → State} (Ks : Q s) (Kf : ∀ b0, Q b0 → Q (f b0))
    : Q (spdmAfter phase m s f) := by
  unfold spdmAfter
  exact spdmRequest_keeps K h_rcv h_icu h_obs h_dom h_out Ks (fun b1 h2 => Keeps.ite (spdmError_keeps K h_dom h_out h2) (Keeps.ite (spdmError_keeps K h_dom h_out h2) (Kf _ h2)))

theorem transcriptHash_keeps (K : Keeps P Q) (h_free : P .free = true) {s : State} (Ks : Q s) : Q (transcriptHash s).2 := by
  unfold transcriptHash
  exact Keeps.p2 (State.drew_keeps K h_free Ks)

theorem hybridBlock_keeps (K : Keeps P Q) (h_ent : P .ent = true) (h_free : P .free = true) {hash : BitVec 384} {s : State} (Ks : Q s)
    : Q (hybridBlock hash s).2 := by
  unfold hybridBlock
  split
  rename_i y1 y2 y3 y4
  have Ky3 : Q y3 := Keeps.snd y4 (drbgBits_keeps K h_ent h_free Ks)
  exact Keeps.p2 (pkeDone_keeps K h_ent Ky3)

theorem spdmSign_keeps (K : Keeps P Q) (h_ent : P .ent = true) (h_free : P .free = true) {hash : BitVec 384} {s : State} (Ks : Q s)
    : Q (spdmSign hash s).2 := by
  unfold spdmSign
  split
  rename_i y1 y2 y3 y4
  have Ky3 : Q y3 := Keeps.snd y4 (drbgBits_keeps K h_ent h_free Ks)
  exact Keeps.p2 (pkeDone_keeps K h_ent Ky3)

theorem execGetMeasurements_keeps (K : Keeps P Q) (h_rcv : P .rcv = true) (h_icu : P .icu = true) (h_obs : P .obs = true) (h_ent : P .ent = true)
    (h_dom : P .dom = true) (h_free : P .free = true) (h_out : P .out = true) {m : SpdmHdr} {index : BitVec 8} {signed : Bool} {slot : BitVec 8}
    {nonce : BitVec 256} {s : State} (Ks : Q s) : KeepsBy Q (execGetMeasurements m index signed slot nonce s) := by
  unfold execGetMeasurements
  refine KeepsBy.of ?_
  refine spdmAfter_keeps K h_rcv h_icu h_obs h_dom h_out Ks ?_
  intro b1 h2
  split
  · exact spdmError_keeps K h_dom h_out h2
  · extract_lets +onlyGivenNames x3
    refine Keeps.ite ?_ (Keeps.ite (spdmError_keeps K h_dom h_out h2) (spdmSend_keeps K h_dom h_out h2))
    refine Keeps.ite (spdmError_keeps K h_dom h_out h2) ?_
    refine Keeps.ite (spdmError_keeps K h_dom h_out h2) ?_
    split
    rename_i y4 y5 y6 y7
    have Ky6 : Q y6 := Keeps.snd y7 (transcriptHash_keeps K h_free h2)
    split
    rename_i y8 y9 y10 y11
    have Ky10 : Q y10 := Keeps.snd y11 (hybridBlock_keeps K h_ent h_free Ky6)
    split
    rename_i y12 y13 y14 y15
    have Ky14 : Q y14 := Keeps.snd y15 (drbgBits_keeps K h_ent h_free Ky10)
    split
    rename_i y16 y17 y18 y19
    have Ky18 : Q y18 := Keeps.snd y19 (spdmSign_keeps K h_ent h_free Ky14)
    exact spdmSend_keeps K h_dom h_out Ky18

theorem spdmClear_keeps (K : Keeps P Q) (h_rcv : P .rcv = true) (h_icu : P .icu = true) (h_obs : P .obs = true) (h_dom : P .dom = true)
    (h_out : P .out = true) {phase : Nat} {m : SpdmHdr} {s : State} {f : State → State} (Ks : Q s) (Kf : ∀ b0, Q b0 → Q (f b0))
    : Q (spdmClear phase m s f) := by
  unfold spdmClear
  exact spdmAfter_keeps K h_rcv h_icu h_obs h_dom h_out Ks (fun b1 h2 => Keeps.ite (spdmError_keeps K h_dom h_out h2) (Kf _ h2))

theorem execNegotiateAlgorithms_keeps (K : Keeps P Q) (h_rcv : P .rcv = true) (h_icu : P .icu = true) (h_obs : P .obs = true) (h_dom : P .dom = true)
    (h_out : P .out = true) {m : SpdmHdr} {asym hash : BitVec 32} {dhe aead : BitVec 16} {spec : BitVec 8} {s : State} (Ks : Q s)
    : KeepsBy Q (execNegotiateAlgorithms m asym hash dhe aead spec s) := by
  unfold execNegotiateAlgorithms
  refine KeepsBy.of ?_
  refine spdmClear_keeps K h_rcv h_icu h_obs h_dom h_out Ks ?_
  intro b1 h2
  refine Keeps.ite (spdmError_keeps K h_dom h_out h2) ?_
  extract_lets +onlyGivenNames x3
  exact spdmSend_keeps K h_dom h_out (updConn_keeps K h_dom h2)

theorem execChallenge_keeps (K : Keeps P Q) (h_rcv : P .rcv = true) (h_icu : P .icu = true) (h_obs : P .obs = true) (h_ent : P .ent = true)
    (h_dom : P .dom = true) (h_free : P .free = true) (h_out : P .out = true) {m : SpdmHdr} {slot summary : BitVec 8} {nonce : BitVec 256} {s : State}
    (Ks : Q s) : KeepsBy Q (execChallenge m slot summary nonce s) := by
  unfold execChallenge
  refine KeepsBy.of ?_
  refine spdmClear_keeps K h_rcv h_icu h_obs h_dom h_out Ks ?_
  intro b1 h2
  refine Keeps.ite (spdmError_keeps K h_dom h_out h2) ?_
  refine Keeps.ite (spdmError_keeps K h_dom h_out h2) ?_
  split
  rename_i y3 y4 y5 y6
  have Ky5 : Q y5 := Keeps.snd y6 (drbgBits_keeps K h_ent h_free h2)
  split
  rename_i y7 y8 y9 y10
  have Ky9 : Q y9 := Keeps.snd y10 (transcriptHash_keeps K h_free Ky5)
  split
  rename_i y11 y12 y13 y14
  have Ky13 : Q y13 := Keeps.snd y14 (spdmSign_keeps K h_ent h_free Ky9)
  exact spdmSend_keeps K h_dom h_out Ky13

theorem execChunkGet_keeps (K : Keeps P Q) (h_rcv : P .rcv = true) (h_icu : P .icu = true) (h_obs : P .obs = true) (h_dom : P .dom = true)
    (h_out : P .out = true) {m : SpdmHdr} {handle : BitVec 8} {seq : BitVec 16} {s : State} (Ks : Q s) : KeepsBy Q (execChunkGet m handle seq s) := by
  unfold execChunkGet
  refine KeepsBy.of ?_
  refine spdmAfter_keeps K h_rcv h_icu h_obs h_dom h_out Ks ?_
  intro b1 h2
  extract_lets +onlyGivenNames x3
  refine Keeps.ite (spdmError_keeps K h_dom h_out h2) ?_
  extract_lets +onlyGivenNames x4 x5
  exact State.emit_keeps K h_out (updConn_keeps K h_dom h2)

theorem updSession_keeps (K : Keeps P Q) (h_dom : P .dom = true) {n : Nat} {f : Session → Session} {s : State} (Ks : Q s) : Q (updSession n f s) := by
  unfold updSession
  exact K.dom h_dom Ks

theorem spdmIn_keeps (K : Keeps P Q) (h_rcv : P .rcv = true) (h_icu : P .icu = true) (h_obs : P .obs = true) (h_dom : P .dom = true)
    (h_out : P .out = true) {phase : Nat} {m : SpdmHdr} {s : State} {f : Nat → State → State} (Ks : Q s) (Kf : ∀ b0 b1, Q b1 → Q (f b0 b1))
    : Q (spdmIn phase m s f) := by
  unfold spdmIn
  refine spdmAfter_keeps K h_rcv h_icu h_obs h_dom h_out Ks ?_
  intro b1 h2
  split
  · exact spdmError_keeps K h_dom h_out h2
  · exact Keeps.ite (Kf _ _ h2) (spdmError_keeps K h_dom h_out h2)

theorem endSession_keeps (K : Keeps P Q) (h_kst : P .kst = true) (h_engKeys : P .engKeys = true) (h_kwe : P .kwe = true) (h_dom : P .dom = true)
    {n : Nat} {s : State} (Ks : Q s) : Q (endSession n s) := by
  unfold endSession
  exact updSession_keeps K h_dom (zeroizeSlots_keeps K h_kst h_engKeys h_kwe Ks)

theorem sessionKey_keeps (K : Keeps P Q) (h_kst : P .kst = true) (h_engKeys : P .engKeys = true) (h_kwe : P .kwe = true) (h_ent : P .ent = true)
    {slot usage type : Nat} {key : BitVec 256} {s : State} (Ks : Q s) : Q (sessionKey slot usage type key s) := by
  unfold sessionKey
  exact kweDone_keeps K h_kwe h_ent (writeSlot_keeps K h_kst (zeroizeSlots_keeps K h_kst h_engKeys h_kwe Ks))

theorem execFinish_keeps (K : Keeps P Q) (h_rcv : P .rcv = true) (h_icu : P .icu = true) (h_obs : P .obs = true) (h_kst : P .kst = true)
    (h_engKeys : P .engKeys = true) (h_kwe : P .kwe = true) (h_ent : P .ent = true) (h_dom : P .dom = true) (h_out : P .out = true) {m : SpdmHdr}
    {verifies : Bool} {s : State} (Ks : Q s) : KeepsBy Q (execFinish m verifies s) := by
  unfold execFinish
  refine KeepsBy.of ?_
  refine spdmIn_keeps K h_rcv h_icu h_obs h_dom h_out Ks ?_
  intro b1 b2 h3
  refine Keeps.ite (spdmError_keeps K h_dom h_out (endSession_keeps K h_kst h_engKeys h_kwe h_dom h3)) ?_
  refine Keeps.ite (spdmError_keeps K h_dom h_out h3) ?_
  extract_lets +onlyGivenNames x4 x5
  have Kx5 : Q x5 := spdmSend_keeps K h_dom h_out h3
  clear_value x5
  extract_lets +onlyGivenNames x6
  have Kx6 : Q x6 := sessionKey_keeps K h_kst h_engKeys h_kwe h_ent Kx5
  clear_value x6
  extract_lets +onlyGivenNames x7
  have Kx7 : Q x7 := sessionKey_keeps K h_kst h_engKeys h_kwe h_ent Kx6
  clear_value x7
  exact updSession_keeps K h_dom Kx7

theorem nextKey_keeps (K : Keeps P Q) (h_kst : P .kst = true) (h_engKeys : P .engKeys = true) (h_kwe : P .kwe = true) (h_ent : P .ent = true)
    {slot : Nat} {s : State} (Ks : Q s) : Q (nextKey slot s) := by
  unfold nextKey
  extract_lets +onlyGivenNames x1
  exact kweDone_keeps K h_kwe h_ent (writeSlot_keeps K h_kst (zeroizeSlots_keeps K h_kst h_engKeys h_kwe Ks))

theorem execKeyUpdate_keeps (K : Keeps P Q) (h_rcv : P .rcv = true) (h_icu : P .icu = true) (h_obs : P .obs = true) (h_kst : P .kst = true)
    (h_engKeys : P .engKeys = true) (h_kwe : P .kwe = true) (h_ent : P .ent = true) (h_dom : P .dom = true) (h_out : P .out = true) {m : SpdmHdr}
    {op : BitVec 8} {s : State} (Ks : Q s) : KeepsBy Q (execKeyUpdate m op s) := by
  unfold execKeyUpdate
  refine KeepsBy.of ?_
  refine spdmIn_keeps K h_rcv h_icu h_obs h_dom h_out Ks ?_
  intro b1 b2 h3
  extract_lets +onlyGivenNames x4 x5
  have Kx5 : ∀ b0 b1, Q b1 → Q (x5 b0 b1) := by
    intro b6 b7 b8
    unfold x5
    exact updSession_keeps K h_dom b8
  clear_value x5
  exact Keeps.ite (spdmError_keeps K h_dom h_out h3) (Keeps.ite (spdmSend_keeps K h_dom h_out (Kx5 _ _ h3)) (Keeps.ite (spdmSend_keeps K h_dom h_out (Kx5 _ _ (nextKey_keeps K h_kst h_engKeys h_kwe h_ent h3))) (Keeps.ite (spdmSend_keeps K h_dom h_out (Kx5 _ _ (nextKey_keeps K h_kst h_engKeys h_kwe h_ent (nextKey_keeps K h_kst h_engKeys h_kwe h_ent h3)))) (spdmError_keeps K h_dom h_out h3))))

theorem execSpdmHeartbeatTimeout_keeps (K : Keeps P Q) (h_kst : P .kst = true) (h_engKeys : P .engKeys = true) (h_kwe : P .kwe = true)
    (h_dom : P .dom = true) {session : BitVec 3} {s : State} (Ks : Q s) : KeepsBy Q (execSpdmHeartbeatTimeout session s) := by
  unfold execSpdmHeartbeatTimeout
  exact KeepsBy.of (Keeps.ite (endSession_keeps K h_kst h_engKeys h_kwe h_dom Ks) Ks)

theorem execEndSession_keeps (K : Keeps P Q) (h_rcv : P .rcv = true) (h_icu : P .icu = true) (h_obs : P .obs = true) (h_kst : P .kst = true)
    (h_engKeys : P .engKeys = true) (h_kwe : P .kwe = true) (h_dom : P .dom = true) (h_out : P .out = true) {m : SpdmHdr} {s : State} (Ks : Q s)
    : KeepsBy Q (execEndSession m s) := by
  unfold execEndSession
  exact KeepsBy.of (spdmIn_keeps K h_rcv h_icu h_obs h_dom h_out Ks (fun b1 b2 h3 => endSession_keeps K h_kst h_engKeys h_kwe h_dom (spdmSend_keeps K h_dom h_out h3)))

theorem execVendorDefinedRequest_keeps (K : Keeps P Q) (h_rcv : P .rcv = true) (h_icu : P .icu = true) (h_obs : P .obs = true) (h_dom : P .dom = true)
    (h_free : P .free = true) (h_out : P .out = true) {m : SpdmHdr} {standard vendor : BitVec 16} {_data : Bytes} {s : State} (Ks : Q s)
    : KeepsBy Q (execVendorDefinedRequest m standard vendor _data s) := by
  unfold execVendorDefinedRequest
  refine KeepsBy.of ?_
  refine spdmAfter_keeps K h_rcv h_icu h_obs h_dom h_out Ks ?_
  intro b1 h2
  refine Keeps.ite h2 ?_
  split
  rename_i y3 y4 y5 y6
  have Ky5 : Q y5 := Keeps.snd y6 (drawBits_keeps K h_free h2)
  exact spdmSend_keeps K h_dom h_out Ky5

theorem execGetCapabilities_keeps (K : Keeps P Q) (h_rcv : P .rcv = true) (h_icu : P .icu = true) (h_obs : P .obs = true) (h_dom : P .dom = true)
    (h_out : P .out = true) {m : SpdmHdr} {s : State} (Ks : Q s) : KeepsBy Q (execGetCapabilities m s) := by
  unfold execGetCapabilities
  exact KeepsBy.of (spdmRequest_keeps K h_rcv h_icu h_obs h_dom h_out Ks (fun b1 h2 => Keeps.ite (spdmError_keeps K h_dom h_out h2) (Keeps.ite (spdmError_keeps K h_dom h_out h2) (spdmSend_keeps K h_dom h_out (updConn_keeps K h_dom h2)))))

theorem execGetDigests_keeps (K : Keeps P Q) (h_rcv : P .rcv = true) (h_icu : P .icu = true) (h_obs : P .obs = true) (h_dom : P .dom = true)
    (h_out : P .out = true) {m : SpdmHdr} {s : State} (Ks : Q s) : KeepsBy Q (execGetDigests m s) := by
  unfold execGetDigests
  exact KeepsBy.of (spdmAfter_keeps K h_rcv h_icu h_obs h_dom h_out Ks (fun b1 h2 => spdmSend_keeps K h_dom h_out h2))

theorem execKeyExchange_exchange_keeps (K : Keeps P Q) (h_kst : P .kst = true) (h_engKeys : P .engKeys = true) (h_kwe : P .kwe = true)
    (h_pke : P .pke = true) (h_ent : P .ent = true) (h_dom : P .dom = true) (h_free : P .free = true) (h_out : P .out = true) {m : SpdmHdr} {n : Nat}
    {summary : BitVec 8} {point : Bytes} {s : State} (Ks : Q s) : Q (execKeyExchange.exchange m n summary point s) := by
  unfold execKeyExchange.exchange
  split
  rename_i y1 y2 y3 y4
  have Ky3 : Q y3 := Keeps.snd y4 (keyBits_keeps K h_ent h_free Ks)
  extract_lets +onlyGivenNames x5
  refine withTransient_keeps K h_pke (pkeDone_keeps K h_ent Ky3) ?_
  intro b6 h7
  split
  · exact Keeps.p2 (spdmError_keeps K h_dom h_out h7)
  · split
    rename_i y8 y9 y10 y11
    have Ky10 : Q y10 := Keeps.snd y11 (transcriptHash_keeps K h_free (pkeDone_keeps K h_ent h7))
    split
    rename_i y12 y13 y14 y15
    have Ky14 : Q y14 := Keeps.snd y15 (spdmSign_keeps K h_ent h_free Ky10)
    extract_lets +onlyGivenNames x16 x17
    have Kx17 : Q x17 := sessionKey_keeps K h_kst h_engKeys h_kwe h_ent Ky14
    clear_value x17
    extract_lets +onlyGivenNames x18
    have Kx18 : Q x18 := sessionKey_keeps K h_kst h_engKeys h_kwe h_ent Kx17
    clear_value x18
    extract_lets +onlyGivenNames x19
    have Kx19 : Q x19 := sessionKey_keeps K h_kst h_engKeys h_kwe h_ent Kx18
    clear_value x19
    extract_lets +onlyGivenNames x20
    have Kx20 : Q x20 := updSession_keeps K h_dom Kx19
    clear_value x20
    exact Keeps.p2 (spdmSend_keeps K h_dom h_out Kx20)

theorem execKeyExchange_keeps (K : Keeps P Q) (h_rcv : P .rcv = true) (h_icu : P .icu = true) (h_obs : P .obs = true) (h_kst : P .kst = true)
    (h_engKeys : P .engKeys = true) (h_kwe : P .kwe = true) (h_pke : P .pke = true) (h_ent : P .ent = true) (h_dom : P .dom = true)
    (h_free : P .free = true) (h_out : P .out = true) {m : SpdmHdr} {slot summary : BitVec 8} {point : Bytes} {s : State} (Ks : Q s)
    : KeepsBy Q (execKeyExchange m slot summary point s) := by
  unfold execKeyExchange
  refine KeepsBy.of ?_
  refine spdmClear_keeps K h_rcv h_icu h_obs h_dom h_out Ks ?_
  intro b1 h2
  refine Keeps.ite (spdmError_keeps K h_dom h_out h2) ?_
  split
  · exact spdmError_keeps K h_dom h_out h2
  · exact Keeps.ite (spdmError_keeps K h_dom h_out h2) (execKeyExchange_exchange_keeps K h_kst h_engKeys h_kwe h_pke h_ent h_dom h_free h_out h2)

theorem execChunkSend_keeps (K : Keeps P Q) (h_rcv : P .rcv = true) (h_icu : P .icu = true) (h_obs : P .obs = true) (h_dom : P .dom = true)
    (h_out : P .out = true) {m : SpdmHdr} {handle : BitVec 8} {seq : BitVec 16} {last : Bool} {data : Bytes} {s : State} (Ks : Q s)
    : KeepsBy Q (execChunkSend m handle seq last data s) := by
  unfold execChunkSend
  refine KeepsBy.of ?_
  refine spdmAfter_keeps K h_rcv h_icu h_obs h_dom h_out Ks ?_
  intro b1 h2
  extract_lets +onlyGivenNames x3
  refine Keeps.ite (spdmError_keeps K h_dom h_out (updConn_keeps K h_dom h2)) ?_
  extract_lets +onlyGivenNames x4
  exact spdmSend_keeps K h_dom h_out (updConn_keeps K h_dom h2)

theorem execHeartbeat_keeps (K : Keeps P Q) (h_rcv : P .rcv = true) (h_icu : P .icu = true) (h_obs : P .obs = true) (h_dom : P .dom = true)
    (h_out : P .out = true) {m : SpdmHdr} {s : State} (Ks : Q s) : KeepsBy Q (execHeartbeat m s) := by
  unfold execHeartbeat
  exact KeepsBy.of (spdmIn_keeps K h_rcv h_icu h_obs h_dom h_out Ks (fun b1 b2 h3 => spdmSend_keeps K h_dom h_out h3))

theorem execSpdmUnsupportedRequest_keeps (K : Keeps P Q) (h_rcv : P .rcv = true) (h_icu : P .icu = true) (h_obs : P .obs = true)
    (h_dom : P .dom = true) (h_out : P .out = true) {m : SpdmHdr} {_code : BitVec 8} {s : State} (Ks : Q s)
    : KeepsBy Q (execSpdmUnsupportedRequest m _code s) := by
  unfold execSpdmUnsupportedRequest
  exact KeepsBy.of (spdmRequest_keeps K h_rcv h_icu h_obs h_dom h_out Ks (fun b1 h2 => spdmError_keeps K h_dom h_out h2))

theorem execGetCertificate_keeps (K : Keeps P Q) (h_rcv : P .rcv = true) (h_icu : P .icu = true) (h_obs : P .obs = true) (h_dom : P .dom = true)
    (h_out : P .out = true) {m : SpdmHdr} {slot : BitVec 8} {off len : BitVec 16} {s : State} (Ks : Q s)
    : KeepsBy Q (execGetCertificate m slot off len s) := by
  unfold execGetCertificate
  refine KeepsBy.of ?_
  refine spdmAfter_keeps K h_rcv h_icu h_obs h_dom h_out Ks ?_
  intro b1 h2
  extract_lets +onlyGivenNames x3
  refine Keeps.ite (spdmError_keeps K h_dom h_out h2) ?_
  extract_lets +onlyGivenNames x4
  exact spdmSend_keeps K h_dom h_out h2

theorem execGetVersion_keeps (K : Keeps P Q) (h_rcv : P .rcv = true) (h_icu : P .icu = true) (h_obs : P .obs = true) (h_dom : P .dom = true)
    (h_out : P .out = true) {m : SpdmHdr} {s : State} (Ks : Q s) : KeepsBy Q (execGetVersion m s) := by
  unfold execGetVersion
  exact KeepsBy.of (spdmRequest_keeps K h_rcv h_icu h_obs h_dom h_out Ks (fun b1 h2 => Keeps.ite (spdmError_keeps K h_dom h_out h2) (spdmSend_keeps K h_dom h_out (updConn_keeps K h_dom h2))))

end Sys2Proof.Machine
end

