-- ==== Sys2Proof/Laws/KeepsTick.lean ====
section
/-!
SUPPORT. What the operations of Machine/Tick.lean keep, and which parts they may change (Laws/Keeps.lean).
-/

set_option Elab.async false
namespace Sys2Proof.Machine

variable {P : Part → Bool} {Q : State → Prop}

theorem accrueBusy_keeps (K : Keeps P Q) (h_obs : P .obs = true) {s : State} (Ks : Q s) : Q (accrueBusy s) := by
  unfold accrueBusy
  exact Keeps.ite Ks (Keeps.foldl (fun b1 b2 h3 => obsAdd_keeps K h_obs h3) Ks)

theorem advanceTimers_keeps (K : Keeps P Q) (h_clk : P .clk = true) {s : State} (Ks : Q s) : Q (advanceTimers s) := by
  unfold advanceTimers
  extract_lets +onlyGivenNames x1 x2
  exact K.clk h_clk Ks

theorem accrueReefed_keeps (K : Keeps P Q) (h_srg : P .srg = true) {s : State} (Ks : Q s) : Q (accrueReefed s) := by
  unfold accrueReefed
  exact Keeps.foldl (fun b1 b2 h3 => Keeps.ite (updUsage_keeps K h_srg h3) h3) Ks

theorem tick_keeps (K : Keeps P Q) (h_clk : P .clk = true) (h_rcv : P .rcv = true) (h_icu : P .icu = true) (h_obs : P .obs = true)
    (h_cex : P .cex = true) (h_srg : P .srg = true) (h_ods : P .ods = true) (h_vault : P .vault = true) (h_kst : P .kst = true)
    (h_engKeys : P .engKeys = true) (h_kwe : P .kwe = true) (h_pke : P .pke = true) (h_ent : P .ent = true) (h_lcc : P .lcc = true)
    (h_mem : P .mem = true) (h_link : P .link = true) (h_sheaf : P .sheaf = true) (h_dom : P .dom = true) (h_pins : P .pins = true)
    (h_tdi : P .tdi = true) (h_ac : P .ac = true) (h_vt : P .vt = true) (h_free : P .free = true) (h_out : P .out = true) {s : State} (Ks : Q s)
    : Q (tick s) := by
  unfold tick
  refine Keeps.ite (advanceTimers_keeps K h_clk Ks) ?_
  extract_lets +onlyGivenNames x1
  have Kx1 : Q x1 := watchCounters_keeps K h_icu h_obs h_out (settleFreezes_keeps K h_cex h_srg (accrueReefed_keeps K h_srg (accrueBusy_keeps K h_obs (advanceTimers_keeps K h_clk Ks))))
  clear_value x1
  extract_lets +onlyGivenNames x2
  have Kx2 : Q x2 := Keeps.ite (pend_keeps K h_rcv h_icu h_obs h_out Kx1) Kx1
  clear_value x2
  exact Keeps.ite (retryProvision_keeps K h_rcv h_icu h_obs h_cex h_srg h_ods h_vault h_kst h_engKeys h_kwe h_pke h_ent h_lcc h_mem h_link h_sheaf h_dom h_pins h_tdi h_ac h_vt h_free h_out Kx2) Kx2

end Sys2Proof.Machine
end

