-- ==== Sys2Proof/Laws/KeepsWheel.lean ====
section
/-!
SUPPORT. What the operations of Machine/Wheel.lean keep, and which parts they may change (Laws/Keeps.lean).
-/

set_option Elab.async false
namespace Sys2Proof.Machine

variable {P : Part → Bool} {Q : State → Prop}

theorem serveLine_keeps (K : Keeps P Q) (h_rcv : P .rcv = true) (h_icu : P .icu = true) (h_obs : P .obs = true) (h_cex : P .cex = true)
    (h_srg : P .srg = true) (h_mem : P .mem = true) (h_out : P .out = true) {e : Nat} {l : WaitLine} {s : State} (Ks : Q s)
    : Q (serveLine e l s) := by
  unfold serveLine
  extract_lets +onlyGivenNames x1 x2
  have Kx2 : Q x2 := K.mem h_mem Ks
  clear_value x2
  extract_lets +onlyGivenNames x3
  have Kx3 : Q x3 := Keeps.ite (updUsage_keeps K h_srg Kx2) Kx2
  clear_value x3
  split
  · exact State.emit_keeps K h_out (updRead_keeps K h_mem Kx3)
  · exact settleSave_keeps K h_rcv h_icu h_obs h_cex h_mem h_out (State.emit_keeps K h_out Kx3)

theorem execWheelSlotService_keeps (K : Keeps P Q) (h_rcv : P .rcv = true) (h_icu : P .icu = true) (h_obs : P .obs = true) (h_cex : P .cex = true)
    (h_srg : P .srg = true) (h_mem : P .mem = true) (h_out : P .out = true) {engine : BitVec 4} {s : State} (Ks : Q s)
    : KeepsBy Q (execWheelSlotService engine s) := by
  unfold execWheelSlotService
  refine KeepsBy.of ?_
  extract_lets +onlyGivenNames x1
  refine Keeps.ite Ks ?_
  extract_lets +onlyGivenNames x2 x3 x4 x5 x6
  have Kx6 : Q x6 := K.srg h_srg Ks
  clear_value x6
  clear_value x4
  split
  · exact Kx6
  · exact serveLine_keeps K h_rcv h_icu h_obs h_cex h_srg h_mem h_out Kx6

end Sys2Proof.Machine
end

