-- ==== Sys2Proof/Laws/Same.lean ====
section
/-!
SUPPORT. The fields of the state after each operation of the families: what it leaves as it was.
-/

set_option Elab.async false
namespace Sys2Proof.Machine

@[simp] theorem refuse_same {h : CmdHdr} {status detail : Nat} {s : State} :
    (refuse h status detail s).clk = s.clk ∧ (refuse h status detail s).rcv = s.rcv ∧ (refuse h status detail s).icu = s.icu ∧ (refuse h status detail s).obs = s.obs ∧ (refuse h status detail s).sen = s.sen ∧ (refuse h status detail s).tamperIn = s.tamperIn ∧ (refuse h status detail s).xlt = s.xlt ∧ (refuse h status detail s).srg = s.srg ∧ (refuse h status detail s).ods = s.ods ∧ (refuse h status detail s).vault = s.vault ∧ (refuse h status detail s).kst = s.kst ∧ (refuse h status detail s).engKeys = s.engKeys ∧ (refuse h status detail s).kwe = s.kwe ∧ (refuse h status detail s).pke = s.pke ∧ (refuse h status detail s).ent = s.ent ∧ (refuse h status detail s).atu = s.atu ∧ (refuse h status detail s).lcc = s.lcc ∧ (refuse h status detail s).mem = s.mem ∧ (refuse h status detail s).link = s.link ∧ (refuse h status detail s).sheaf = s.sheaf ∧ (refuse h status detail s).dom = s.dom ∧ (refuse h status detail s).pins = s.pins ∧ (refuse h status detail s).boot = s.boot ∧ (refuse h status detail s).tdi = s.tdi ∧ (refuse h status detail s).ac = s.ac ∧ (refuse h status detail s).vt = s.vt ∧ (refuse h status detail s).free = s.free ∧ (refuse h status detail s).out = s.out ∧ (refuse h status detail s).pending = s.pending :=
  have k : Off (fun p => p == .cex) s (refuse h status detail s) := refuse_keeps (Off.keeps _ _) rfl .refl
  ⟨k.clk rfl, k.rcv rfl, k.icu rfl, k.obs rfl, k.sen rfl, k.tamperIn rfl, k.xlt rfl, k.srg rfl, k.ods rfl, k.vault rfl, k.kst rfl, k.engKeys rfl, k.kwe rfl, k.pke rfl, k.ent rfl, k.atu rfl, k.lcc rfl, k.mem rfl, k.link rfl, k.sheaf rfl, k.dom rfl, k.pins rfl, k.boot rfl, k.tdi rfl, k.ac rfl, k.vt rfl, k.free rfl, k.out rfl, k.pending rfl⟩

@[simp] theorem wakeSync_same {slice c : Nat} {s : State} :
    (wakeSync slice c s).clk = s.clk ∧ (wakeSync slice c s).rcv = s.rcv ∧ (wakeSync slice c s).icu = s.icu ∧ (wakeSync slice c s).obs = s.obs ∧ (wakeSync slice c s).sen = s.sen ∧ (wakeSync slice c s).tamperIn = s.tamperIn ∧ (wakeSync slice c s).xlt = s.xlt ∧ (wakeSync slice c s).srg = s.srg ∧ (wakeSync slice c s).ods = s.ods ∧ (wakeSync slice c s).vault = s.vault ∧ (wakeSync slice c s).kst = s.kst ∧ (wakeSync slice c s).engKeys = s.engKeys ∧ (wakeSync slice c s).kwe = s.kwe ∧ (wakeSync slice c s).pke = s.pke ∧ (wakeSync slice c s).ent = s.ent ∧ (wakeSync slice c s).atu = s.atu ∧ (wakeSync slice c s).lcc = s.lcc ∧ (wakeSync slice c s).mem = s.mem ∧ (wakeSync slice c s).link = s.link ∧ (wakeSync slice c s).sheaf = s.sheaf ∧ (wakeSync slice c s).dom = s.dom ∧ (wakeSync slice c s).pins = s.pins ∧ (wakeSync slice c s).boot = s.boot ∧ (wakeSync slice c s).tdi = s.tdi ∧ (wakeSync slice c s).ac = s.ac ∧ (wakeSync slice c s).vt = s.vt ∧ (wakeSync slice c s).free = s.free ∧ (wakeSync slice c s).out = s.out ∧ (wakeSync slice c s).pending = s.pending :=
  have k : Off (fun p => p == .cex) s (wakeSync slice c s) := wakeSync_keeps (Off.keeps _ _) rfl .refl
  ⟨k.clk rfl, k.rcv rfl, k.icu rfl, k.obs rfl, k.sen rfl, k.tamperIn rfl, k.xlt rfl, k.srg rfl, k.ods rfl, k.vault rfl, k.kst rfl, k.engKeys rfl, k.kwe rfl, k.pke rfl, k.ent rfl, k.atu rfl, k.lcc rfl, k.mem rfl, k.link rfl, k.sheaf rfl, k.dom rfl, k.pins rfl, k.boot rfl, k.tdi rfl, k.ac rfl, k.vt rfl, k.free rfl, k.out rfl, k.pending rfl⟩

@[simp] theorem enableQueue_same {n : Nat} {s : State} :
    (enableQueue n s).clk = s.clk ∧ (enableQueue n s).rcv = s.rcv ∧ (enableQueue n s).icu = s.icu ∧ (enableQueue n s).obs = s.obs ∧ (enableQueue n s).sen = s.sen ∧ (enableQueue n s).tamperIn = s.tamperIn ∧ (enableQueue n s).xlt = s.xlt ∧ (enableQueue n s).srg = s.srg ∧ (enableQueue n s).ods = s.ods ∧ (enableQueue n s).vault = s.vault ∧ (enableQueue n s).kst = s.kst ∧ (enableQueue n s).engKeys = s.engKeys ∧ (enableQueue n s).kwe = s.kwe ∧ (enableQueue n s).pke = s.pke ∧ (enableQueue n s).ent = s.ent ∧ (enableQueue n s).atu = s.atu ∧ (enableQueue n s).lcc = s.lcc ∧ (enableQueue n s).mem = s.mem ∧ (enableQueue n s).link = s.link ∧ (enableQueue n s).sheaf = s.sheaf ∧ (enableQueue n s).dom = s.dom ∧ (enableQueue n s).pins = s.pins ∧ (enableQueue n s).boot = s.boot ∧ (enableQueue n s).tdi = s.tdi ∧ (enableQueue n s).ac = s.ac ∧ (enableQueue n s).vt = s.vt ∧ (enableQueue n s).free = s.free ∧ (enableQueue n s).out = s.out ∧ (enableQueue n s).pending = s.pending :=
  have k : Off (fun p => p == .cex) s (enableQueue n s) := enableQueue_keeps (Off.keeps _ _) rfl .refl
  ⟨k.clk rfl, k.rcv rfl, k.icu rfl, k.obs rfl, k.sen rfl, k.tamperIn rfl, k.xlt rfl, k.srg rfl, k.ods rfl, k.vault rfl, k.kst rfl, k.engKeys rfl, k.kwe rfl, k.pke rfl, k.ent rfl, k.atu rfl, k.lcc rfl, k.mem rfl, k.link rfl, k.sheaf rfl, k.dom rfl, k.pins rfl, k.boot rfl, k.tdi rfl, k.ac rfl, k.vt rfl, k.free rfl, k.out rfl, k.pending rfl⟩

@[simp] theorem clearCapture_same {q : Nat} {s : State} :
    (clearCapture q s).clk = s.clk ∧ (clearCapture q s).icu = s.icu ∧ (clearCapture q s).obs = s.obs ∧ (clearCapture q s).sen = s.sen ∧ (clearCapture q s).tamperIn = s.tamperIn ∧ (clearCapture q s).xlt = s.xlt ∧ (clearCapture q s).srg = s.srg ∧ (clearCapture q s).ods = s.ods ∧ (clearCapture q s).vault = s.vault ∧ (clearCapture q s).kst = s.kst ∧ (clearCapture q s).engKeys = s.engKeys ∧ (clearCapture q s).kwe = s.kwe ∧ (clearCapture q s).pke = s.pke ∧ (clearCapture q s).ent = s.ent ∧ (clearCapture q s).atu = s.atu ∧ (clearCapture q s).lcc = s.lcc ∧ (clearCapture q s).mem = s.mem ∧ (clearCapture q s).link = s.link ∧ (clearCapture q s).sheaf = s.sheaf ∧ (clearCapture q s).dom = s.dom ∧ (clearCapture q s).pins = s.pins ∧ (clearCapture q s).boot = s.boot ∧ (clearCapture q s).tdi = s.tdi ∧ (clearCapture q s).ac = s.ac ∧ (clearCapture q s).vt = s.vt ∧ (clearCapture q s).free = s.free ∧ (clearCapture q s).out = s.out ∧ (clearCapture q s).pending = s.pending :=
  have k : Off (fun p => p == .rcv || p == .cex) s (clearCapture q s) := clearCapture_keeps (Off.keeps _ _) rfl rfl .refl
  ⟨k.clk rfl, k.icu rfl, k.obs rfl, k.sen rfl, k.tamperIn rfl, k.xlt rfl, k.srg rfl, k.ods rfl, k.vault rfl, k.kst rfl, k.engKeys rfl, k.kwe rfl, k.pke rfl, k.ent rfl, k.atu rfl, k.lcc rfl, k.mem rfl, k.link rfl, k.sheaf rfl, k.dom rfl, k.pins rfl, k.boot rfl, k.tdi rfl, k.ac rfl, k.vt rfl, k.free rfl, k.out rfl, k.pending rfl⟩

@[simp] theorem killParked_same {q : Nat} {s : State} :
    (killParked q s).clk = s.clk ∧ (killParked q s).rcv = s.rcv ∧ (killParked q s).icu = s.icu ∧ (killParked q s).obs = s.obs ∧ (killParked q s).sen = s.sen ∧ (killParked q s).tamperIn = s.tamperIn ∧ (killParked q s).xlt = s.xlt ∧ (killParked q s).srg = s.srg ∧ (killParked q s).ods = s.ods ∧ (killParked q s).vault = s.vault ∧ (killParked q s).kst = s.kst ∧ (killParked q s).engKeys = s.engKeys ∧ (killParked q s).kwe = s.kwe ∧ (killParked q s).pke = s.pke ∧ (killParked q s).ent = s.ent ∧ (killParked q s).atu = s.atu ∧ (killParked q s).lcc = s.lcc ∧ (killParked q s).mem = s.mem ∧ (killParked q s).link = s.link ∧ (killParked q s).sheaf = s.sheaf ∧ (killParked q s).dom = s.dom ∧ (killParked q s).pins = s.pins ∧ (killParked q s).boot = s.boot ∧ (killParked q s).tdi = s.tdi ∧ (killParked q s).ac = s.ac ∧ (killParked q s).vt = s.vt ∧ (killParked q s).free = s.free ∧ (killParked q s).out = s.out ∧ (killParked q s).pending = s.pending :=
  have k : Off (fun p => p == .cex) s (killParked q s) := killParked_keeps (Off.keeps _ _) rfl .refl
  ⟨k.clk rfl, k.rcv rfl, k.icu rfl, k.obs rfl, k.sen rfl, k.tamperIn rfl, k.xlt rfl, k.srg rfl, k.ods rfl, k.vault rfl, k.kst rfl, k.engKeys rfl, k.kwe rfl, k.pke rfl, k.ent rfl, k.atu rfl, k.lcc rfl, k.mem rfl, k.link rfl, k.sheaf rfl, k.dom rfl, k.pins rfl, k.boot rfl, k.tdi rfl, k.ac rfl, k.vt rfl, k.free rfl, k.out rfl, k.pending rfl⟩

@[simp] theorem disableQueue_same {n : Nat} {s : State} :
    (disableQueue n s).clk = s.clk ∧ (disableQueue n s).icu = s.icu ∧ (disableQueue n s).obs = s.obs ∧ (disableQueue n s).sen = s.sen ∧ (disableQueue n s).tamperIn = s.tamperIn ∧ (disableQueue n s).xlt = s.xlt ∧ (disableQueue n s).srg = s.srg ∧ (disableQueue n s).ods = s.ods ∧ (disableQueue n s).vault = s.vault ∧ (disableQueue n s).kst = s.kst ∧ (disableQueue n s).engKeys = s.engKeys ∧ (disableQueue n s).kwe = s.kwe ∧ (disableQueue n s).pke = s.pke ∧ (disableQueue n s).ent = s.ent ∧ (disableQueue n s).atu = s.atu ∧ (disableQueue n s).lcc = s.lcc ∧ (disableQueue n s).mem = s.mem ∧ (disableQueue n s).link = s.link ∧ (disableQueue n s).sheaf = s.sheaf ∧ (disableQueue n s).dom = s.dom ∧ (disableQueue n s).pins = s.pins ∧ (disableQueue n s).boot = s.boot ∧ (disableQueue n s).tdi = s.tdi ∧ (disableQueue n s).ac = s.ac ∧ (disableQueue n s).vt = s.vt ∧ (disableQueue n s).free = s.free ∧ (disableQueue n s).out = s.out ∧ (disableQueue n s).pending = s.pending :=
  have k : Off (fun p => p == .rcv || p == .cex) s (disableQueue n s) := disableQueue_keeps (Off.keeps _ _) rfl rfl .refl
  ⟨k.clk rfl, k.icu rfl, k.obs rfl, k.sen rfl, k.tamperIn rfl, k.xlt rfl, k.srg rfl, k.ods rfl, k.vault rfl, k.kst rfl, k.engKeys rfl, k.kwe rfl, k.pke rfl, k.ent rfl, k.atu rfl, k.lcc rfl, k.mem rfl, k.link rfl, k.sheaf rfl, k.dom rfl, k.pins rfl, k.boot rfl, k.tdi rfl, k.ac rfl, k.vt rfl, k.free rfl, k.out rfl, k.pending rfl⟩

@[simp] theorem unhalt_same {n : Nat} {s : State} :
    (unhalt n s).clk = s.clk ∧ (unhalt n s).icu = s.icu ∧ (unhalt n s).obs = s.obs ∧ (unhalt n s).sen = s.sen ∧ (unhalt n s).tamperIn = s.tamperIn ∧ (unhalt n s).xlt = s.xlt ∧ (unhalt n s).srg = s.srg ∧ (unhalt n s).ods = s.ods ∧ (unhalt n s).vault = s.vault ∧ (unhalt n s).kst = s.kst ∧ (unhalt n s).engKeys = s.engKeys ∧ (unhalt n s).kwe = s.kwe ∧ (unhalt n s).pke = s.pke ∧ (unhalt n s).ent = s.ent ∧ (unhalt n s).atu = s.atu ∧ (unhalt n s).lcc = s.lcc ∧ (unhalt n s).mem = s.mem ∧ (unhalt n s).link = s.link ∧ (unhalt n s).sheaf = s.sheaf ∧ (unhalt n s).dom = s.dom ∧ (unhalt n s).pins = s.pins ∧ (unhalt n s).boot = s.boot ∧ (unhalt n s).tdi = s.tdi ∧ (unhalt n s).ac = s.ac ∧ (unhalt n s).vt = s.vt ∧ (unhalt n s).free = s.free ∧ (unhalt n s).out = s.out ∧ (unhalt n s).pending = s.pending :=
  have k : Off (fun p => p == .rcv || p == .cex) s (unhalt n s) := unhalt_keeps (Off.keeps _ _) rfl rfl .refl
  ⟨k.clk rfl, k.icu rfl, k.obs rfl, k.sen rfl, k.tamperIn rfl, k.xlt rfl, k.srg rfl, k.ods rfl, k.vault rfl, k.kst rfl, k.engKeys rfl, k.kwe rfl, k.pke rfl, k.ent rfl, k.atu rfl, k.lcc rfl, k.mem rfl, k.link rfl, k.sheaf rfl, k.dom rfl, k.pins rfl, k.boot rfl, k.tdi rfl, k.ac rfl, k.vt rfl, k.free rfl, k.out rfl, k.pending rfl⟩

@[simp] theorem compatEnd_same {k : CmdKey} {raw : BitVec 512} {engine : Nat} {s : State} :
    (compatEnd k raw engine s).clk = s.clk ∧ (compatEnd k raw engine s).rcv = s.rcv ∧ (compatEnd k raw engine s).icu = s.icu ∧ (compatEnd k raw engine s).obs = s.obs ∧ (compatEnd k raw engine s).sen = s.sen ∧ (compatEnd k raw engine s).tamperIn = s.tamperIn ∧ (compatEnd k raw engine s).xlt = s.xlt ∧ (compatEnd k raw engine s).srg = s.srg ∧ (compatEnd k raw engine s).ods = s.ods ∧ (compatEnd k raw engine s).vault = s.vault ∧ (compatEnd k raw engine s).kst = s.kst ∧ (compatEnd k raw engine s).engKeys = s.engKeys ∧ (compatEnd k raw engine s).kwe = s.kwe ∧ (compatEnd k raw engine s).pke = s.pke ∧ (compatEnd k raw engine s).ent = s.ent ∧ (compatEnd k raw engine s).atu = s.atu ∧ (compatEnd k raw engine s).lcc = s.lcc ∧ (compatEnd k raw engine s).mem = s.mem ∧ (compatEnd k raw engine s).link = s.link ∧ (compatEnd k raw engine s).sheaf = s.sheaf ∧ (compatEnd k raw engine s).dom = s.dom ∧ (compatEnd k raw engine s).pins = s.pins ∧ (compatEnd k raw engine s).boot = s.boot ∧ (compatEnd k raw engine s).tdi = s.tdi ∧ (compatEnd k raw engine s).ac = s.ac ∧ (compatEnd k raw engine s).vt = s.vt ∧ (compatEnd k raw engine s).free = s.free ∧ (compatEnd k raw engine s).out = s.out ∧ (compatEnd k raw engine s).pending = s.pending :=
  have k : Off (fun p => p == .cex) s (compatEnd k raw engine s) := compatEnd_keeps (Off.keeps _ _) rfl .refl
  ⟨k.clk rfl, k.rcv rfl, k.icu rfl, k.obs rfl, k.sen rfl, k.tamperIn rfl, k.xlt rfl, k.srg rfl, k.ods rfl, k.vault rfl, k.kst rfl, k.engKeys rfl, k.kwe rfl, k.pke rfl, k.ent rfl, k.atu rfl, k.lcc rfl, k.mem rfl, k.link rfl, k.sheaf rfl, k.dom rfl, k.pins rfl, k.boot rfl, k.tdi rfl, k.ac rfl, k.vt rfl, k.free rfl, k.out rfl, k.pending rfl⟩

@[simp] theorem postDue_same {q : Nat} {a : List Flight} {a2 : State} :
    (postDue q a a2).clk = a2.clk ∧ (postDue q a a2).rcv = a2.rcv ∧ (postDue q a a2).icu = a2.icu ∧ (postDue q a a2).obs = a2.obs ∧ (postDue q a a2).sen = a2.sen ∧ (postDue q a a2).tamperIn = a2.tamperIn ∧ (postDue q a a2).xlt = a2.xlt ∧ (postDue q a a2).srg = a2.srg ∧ (postDue q a a2).ods = a2.ods ∧ (postDue q a a2).vault = a2.vault ∧ (postDue q a a2).kst = a2.kst ∧ (postDue q a a2).engKeys = a2.engKeys ∧ (postDue q a a2).kwe = a2.kwe ∧ (postDue q a a2).pke = a2.pke ∧ (postDue q a a2).ent = a2.ent ∧ (postDue q a a2).atu = a2.atu ∧ (postDue q a a2).lcc = a2.lcc ∧ (postDue q a a2).mem = a2.mem ∧ (postDue q a a2).link = a2.link ∧ (postDue q a a2).sheaf = a2.sheaf ∧ (postDue q a a2).dom = a2.dom ∧ (postDue q a a2).pins = a2.pins ∧ (postDue q a a2).boot = a2.boot ∧ (postDue q a a2).tdi = a2.tdi ∧ (postDue q a a2).ac = a2.ac ∧ (postDue q a a2).vt = a2.vt ∧ (postDue q a a2).free = a2.free ∧ (postDue q a a2).out = a2.out ∧ (postDue q a a2).pending = a2.pending :=
  have k : Off (fun p => p == .cex) a2 (postDue q a a2) := postDue_keeps (Off.keeps _ _) rfl .refl
  ⟨k.clk rfl, k.rcv rfl, k.icu rfl, k.obs rfl, k.sen rfl, k.tamperIn rfl, k.xlt rfl, k.srg rfl, k.ods rfl, k.vault rfl, k.kst rfl, k.engKeys rfl, k.kwe rfl, k.pke rfl, k.ent rfl, k.atu rfl, k.lcc rfl, k.mem rfl, k.link rfl, k.sheaf rfl, k.dom rfl, k.pins rfl, k.boot rfl, k.tdi rfl, k.ac rfl, k.vt rfl, k.free rfl, k.out rfl, k.pending rfl⟩

@[simp] theorem drainQueue_same {q : Nat} {s : State} :
    (drainQueue q s).clk = s.clk ∧ (drainQueue q s).rcv = s.rcv ∧ (drainQueue q s).icu = s.icu ∧ (drainQueue q s).obs = s.obs ∧ (drainQueue q s).sen = s.sen ∧ (drainQueue q s).tamperIn = s.tamperIn ∧ (drainQueue q s).xlt = s.xlt ∧ (drainQueue q s).srg = s.srg ∧ (drainQueue q s).ods = s.ods ∧ (drainQueue q s).vault = s.vault ∧ (drainQueue q s).kst = s.kst ∧ (drainQueue q s).engKeys = s.engKeys ∧ (drainQueue q s).kwe = s.kwe ∧ (drainQueue q s).pke = s.pke ∧ (drainQueue q s).ent = s.ent ∧ (drainQueue q s).atu = s.atu ∧ (drainQueue q s).lcc = s.lcc ∧ (drainQueue q s).mem = s.mem ∧ (drainQueue q s).link = s.link ∧ (drainQueue q s).sheaf = s.sheaf ∧ (drainQueue q s).dom = s.dom ∧ (drainQueue q s).pins = s.pins ∧ (drainQueue q s).boot = s.boot ∧ (drainQueue q s).tdi = s.tdi ∧ (drainQueue q s).ac = s.ac ∧ (drainQueue q s).vt = s.vt ∧ (drainQueue q s).free = s.free ∧ (drainQueue q s).out = s.out ∧ (drainQueue q s).pending = s.pending :=
  have k : Off (fun p => p == .cex) s (drainQueue q s) := drainQueue_keeps (Off.keeps _ _) rfl .refl
  ⟨k.clk rfl, k.rcv rfl, k.icu rfl, k.obs rfl, k.sen rfl, k.tamperIn rfl, k.xlt rfl, k.srg rfl, k.ods rfl, k.vault rfl, k.kst rfl, k.engKeys rfl, k.kwe rfl, k.pke rfl, k.ent rfl, k.atu rfl, k.lcc rfl, k.mem rfl, k.link rfl, k.sheaf rfl, k.dom rfl, k.pins rfl, k.boot rfl, k.tdi rfl, k.ac rfl, k.vt rfl, k.free rfl, k.out rfl, k.pending rfl⟩

@[simp] theorem fwdDone_same {w : EvWait} {status : Nat} {s : State} :
    (fwdDone w status s).clk = s.clk ∧ (fwdDone w status s).rcv = s.rcv ∧ (fwdDone w status s).obs = s.obs ∧ (fwdDone w status s).sen = s.sen ∧ (fwdDone w status s).tamperIn = s.tamperIn ∧ (fwdDone w status s).cex = s.cex ∧ (fwdDone w status s).xlt = s.xlt ∧ (fwdDone w status s).srg = s.srg ∧ (fwdDone w status s).ods = s.ods ∧ (fwdDone w status s).vault = s.vault ∧ (fwdDone w status s).kst = s.kst ∧ (fwdDone w status s).engKeys = s.engKeys ∧ (fwdDone w status s).kwe = s.kwe ∧ (fwdDone w status s).pke = s.pke ∧ (fwdDone w status s).ent = s.ent ∧ (fwdDone w status s).atu = s.atu ∧ (fwdDone w status s).lcc = s.lcc ∧ (fwdDone w status s).mem = s.mem ∧ (fwdDone w status s).link = s.link ∧ (fwdDone w status s).sheaf = s.sheaf ∧ (fwdDone w status s).dom = s.dom ∧ (fwdDone w status s).pins = s.pins ∧ (fwdDone w status s).boot = s.boot ∧ (fwdDone w status s).tdi = s.tdi ∧ (fwdDone w status s).ac = s.ac ∧ (fwdDone w status s).vt = s.vt ∧ (fwdDone w status s).free = s.free ∧ (fwdDone w status s).out = s.out ∧ (fwdDone w status s).pending = s.pending :=
  have k : Off (fun p => p == .icu) s (fwdDone w status s) := fwdDone_keeps (Off.keeps _ _) rfl .refl
  ⟨k.clk rfl, k.rcv rfl, k.obs rfl, k.sen rfl, k.tamperIn rfl, k.cex rfl, k.xlt rfl, k.srg rfl, k.ods rfl, k.vault rfl, k.kst rfl, k.engKeys rfl, k.kwe rfl, k.pke rfl, k.ent rfl, k.atu rfl, k.lcc rfl, k.mem rfl, k.link rfl, k.sheaf rfl, k.dom rfl, k.pins rfl, k.boot rfl, k.tdi rfl, k.ac rfl, k.vt rfl, k.free rfl, k.out rfl, k.pending rfl⟩

@[simp] theorem signalRing_same {ring : Nat} {s : State} :
    (signalRing ring s).clk = s.clk ∧ (signalRing ring s).rcv = s.rcv ∧ (signalRing ring s).icu = s.icu ∧ (signalRing ring s).obs = s.obs ∧ (signalRing ring s).sen = s.sen ∧ (signalRing ring s).tamperIn = s.tamperIn ∧ (signalRing ring s).xlt = s.xlt ∧ (signalRing ring s).srg = s.srg ∧ (signalRing ring s).ods = s.ods ∧ (signalRing ring s).vault = s.vault ∧ (signalRing ring s).kst = s.kst ∧ (signalRing ring s).engKeys = s.engKeys ∧ (signalRing ring s).kwe = s.kwe ∧ (signalRing ring s).pke = s.pke ∧ (signalRing ring s).ent = s.ent ∧ (signalRing ring s).atu = s.atu ∧ (signalRing ring s).lcc = s.lcc ∧ (signalRing ring s).mem = s.mem ∧ (signalRing ring s).link = s.link ∧ (signalRing ring s).sheaf = s.sheaf ∧ (signalRing ring s).dom = s.dom ∧ (signalRing ring s).pins = s.pins ∧ (signalRing ring s).boot = s.boot ∧ (signalRing ring s).tdi = s.tdi ∧ (signalRing ring s).ac = s.ac ∧ (signalRing ring s).vt = s.vt ∧ (signalRing ring s).free = s.free ∧ (signalRing ring s).pending = s.pending :=
  have k : Off (fun p => p == .cex || p == .out) s (signalRing ring s) := signalRing_keeps (Off.keeps _ _) rfl rfl .refl
  ⟨k.clk rfl, k.rcv rfl, k.icu rfl, k.obs rfl, k.sen rfl, k.tamperIn rfl, k.xlt rfl, k.srg rfl, k.ods rfl, k.vault rfl, k.kst rfl, k.engKeys rfl, k.kwe rfl, k.pke rfl, k.ent rfl, k.atu rfl, k.lcc rfl, k.mem rfl, k.link rfl, k.sheaf rfl, k.dom rfl, k.pins rfl, k.boot rfl, k.tdi rfl, k.ac rfl, k.vt rfl, k.free rfl, k.pending rfl⟩

@[simp] theorem writeRecord_same {ring : Nat} {w : EvWait} {s : State} :
    (writeRecord ring w s).clk = s.clk ∧ (writeRecord ring w s).rcv = s.rcv ∧ (writeRecord ring w s).obs = s.obs ∧ (writeRecord ring w s).sen = s.sen ∧ (writeRecord ring w s).tamperIn = s.tamperIn ∧ (writeRecord ring w s).xlt = s.xlt ∧ (writeRecord ring w s).srg = s.srg ∧ (writeRecord ring w s).ods = s.ods ∧ (writeRecord ring w s).vault = s.vault ∧ (writeRecord ring w s).kst = s.kst ∧ (writeRecord ring w s).engKeys = s.engKeys ∧ (writeRecord ring w s).kwe = s.kwe ∧ (writeRecord ring w s).pke = s.pke ∧ (writeRecord ring w s).ent = s.ent ∧ (writeRecord ring w s).atu = s.atu ∧ (writeRecord ring w s).lcc = s.lcc ∧ (writeRecord ring w s).mem = s.mem ∧ (writeRecord ring w s).link = s.link ∧ (writeRecord ring w s).sheaf = s.sheaf ∧ (writeRecord ring w s).dom = s.dom ∧ (writeRecord ring w s).pins = s.pins ∧ (writeRecord ring w s).boot = s.boot ∧ (writeRecord ring w s).tdi = s.tdi ∧ (writeRecord ring w s).ac = s.ac ∧ (writeRecord ring w s).vt = s.vt ∧ (writeRecord ring w s).free = s.free ∧ (writeRecord ring w s).pending = s.pending :=
  have k : Off (fun p => p == .icu || p == .cex || p == .out) s (writeRecord ring w s) := writeRecord_keeps (Off.keeps _ _) rfl rfl rfl .refl
  ⟨k.clk rfl, k.rcv rfl, k.obs rfl, k.sen rfl, k.tamperIn rfl, k.xlt rfl, k.srg rfl, k.ods rfl, k.vault rfl, k.kst rfl, k.engKeys rfl, k.kwe rfl, k.pke rfl, k.ent rfl, k.atu rfl, k.lcc rfl, k.mem rfl, k.link rfl, k.sheaf rfl, k.dom rfl, k.pins rfl, k.boot rfl, k.tdi rfl, k.ac rfl, k.vt rfl, k.free rfl, k.pending rfl⟩

@[simp] theorem signalCounter_same {slice c : Nat} {v : BitVec 64} {ctx : Nat} {s : State} :
    (signalCounter slice c v ctx s).clk = s.clk ∧ (signalCounter slice c v ctx s).rcv = s.rcv ∧ (signalCounter slice c v ctx s).icu = s.icu ∧ (signalCounter slice c v ctx s).obs = s.obs ∧ (signalCounter slice c v ctx s).sen = s.sen ∧ (signalCounter slice c v ctx s).tamperIn = s.tamperIn ∧ (signalCounter slice c v ctx s).xlt = s.xlt ∧ (signalCounter slice c v ctx s).srg = s.srg ∧ (signalCounter slice c v ctx s).ods = s.ods ∧ (signalCounter slice c v ctx s).vault = s.vault ∧ (signalCounter slice c v ctx s).kst = s.kst ∧ (signalCounter slice c v ctx s).engKeys = s.engKeys ∧ (signalCounter slice c v ctx s).kwe = s.kwe ∧ (signalCounter slice c v ctx s).pke = s.pke ∧ (signalCounter slice c v ctx s).ent = s.ent ∧ (signalCounter slice c v ctx s).atu = s.atu ∧ (signalCounter slice c v ctx s).lcc = s.lcc ∧ (signalCounter slice c v ctx s).mem = s.mem ∧ (signalCounter slice c v ctx s).link = s.link ∧ (signalCounter slice c v ctx s).sheaf = s.sheaf ∧ (signalCounter slice c v ctx s).dom = s.dom ∧ (signalCounter slice c v ctx s).pins = s.pins ∧ (signalCounter slice c v ctx s).boot = s.boot ∧ (signalCounter slice c v ctx s).tdi = s.tdi ∧ (signalCounter slice c v ctx s).ac = s.ac ∧ (signalCounter slice c v ctx s).vt = s.vt ∧ (signalCounter slice c v ctx s).free = s.free ∧ (signalCounter slice c v ctx s).out = s.out ∧ (signalCounter slice c v ctx s).pending = s.pending :=
  have k : Off (fun p => p == .cex) s (signalCounter slice c v ctx s) := signalCounter_keeps (Off.keeps _ _) rfl .refl
  ⟨k.clk rfl, k.rcv rfl, k.icu rfl, k.obs rfl, k.sen rfl, k.tamperIn rfl, k.xlt rfl, k.srg rfl, k.ods rfl, k.vault rfl, k.kst rfl, k.engKeys rfl, k.kwe rfl, k.pke rfl, k.ent rfl, k.atu rfl, k.lcc rfl, k.mem rfl, k.link rfl, k.sheaf rfl, k.dom rfl, k.pins rfl, k.boot rfl, k.tdi rfl, k.ac rfl, k.vt rfl, k.free rfl, k.out rfl, k.pending rfl⟩

@[simp] theorem settleHolds_same {s : State} :
    (settleHolds s).clk = s.clk ∧ (settleHolds s).rcv = s.rcv ∧ (settleHolds s).icu = s.icu ∧ (settleHolds s).obs = s.obs ∧ (settleHolds s).sen = s.sen ∧ (settleHolds s).tamperIn = s.tamperIn ∧ (settleHolds s).xlt = s.xlt ∧ (settleHolds s).srg = s.srg ∧ (settleHolds s).ods = s.ods ∧ (settleHolds s).vault = s.vault ∧ (settleHolds s).kst = s.kst ∧ (settleHolds s).engKeys = s.engKeys ∧ (settleHolds s).kwe = s.kwe ∧ (settleHolds s).pke = s.pke ∧ (settleHolds s).ent = s.ent ∧ (settleHolds s).atu = s.atu ∧ (settleHolds s).lcc = s.lcc ∧ (settleHolds s).mem = s.mem ∧ (settleHolds s).link = s.link ∧ (settleHolds s).sheaf = s.sheaf ∧ (settleHolds s).dom = s.dom ∧ (settleHolds s).pins = s.pins ∧ (settleHolds s).boot = s.boot ∧ (settleHolds s).tdi = s.tdi ∧ (settleHolds s).ac = s.ac ∧ (settleHolds s).vt = s.vt ∧ (settleHolds s).free = s.free ∧ (settleHolds s).out = s.out ∧ (settleHolds s).pending = s.pending :=
  have k : Off (fun p => p == .cex) s (settleHolds s) := settleHolds_keeps (Off.keeps _ _) rfl .refl
  ⟨k.clk rfl, k.rcv rfl, k.icu rfl, k.obs rfl, k.sen rfl, k.tamperIn rfl, k.xlt rfl, k.srg rfl, k.ods rfl, k.vault rfl, k.kst rfl, k.engKeys rfl, k.kwe rfl, k.pke rfl, k.ent rfl, k.atu rfl, k.lcc rfl, k.mem rfl, k.link rfl, k.sheaf rfl, k.dom rfl, k.pins rfl, k.boot rfl, k.tdi rfl, k.ac rfl, k.vt rfl, k.free rfl, k.out rfl, k.pending rfl⟩

@[simp] theorem addHold_same {f : FenceHold} {s : State} :
    (addHold f s).clk = s.clk ∧ (addHold f s).rcv = s.rcv ∧ (addHold f s).icu = s.icu ∧ (addHold f s).obs = s.obs ∧ (addHold f s).sen = s.sen ∧ (addHold f s).tamperIn = s.tamperIn ∧ (addHold f s).xlt = s.xlt ∧ (addHold f s).srg = s.srg ∧ (addHold f s).ods = s.ods ∧ (addHold f s).vault = s.vault ∧ (addHold f s).kst = s.kst ∧ (addHold f s).engKeys = s.engKeys ∧ (addHold f s).kwe = s.kwe ∧ (addHold f s).pke = s.pke ∧ (addHold f s).ent = s.ent ∧ (addHold f s).atu = s.atu ∧ (addHold f s).lcc = s.lcc ∧ (addHold f s).mem = s.mem ∧ (addHold f s).link = s.link ∧ (addHold f s).sheaf = s.sheaf ∧ (addHold f s).dom = s.dom ∧ (addHold f s).pins = s.pins ∧ (addHold f s).boot = s.boot ∧ (addHold f s).tdi = s.tdi ∧ (addHold f s).ac = s.ac ∧ (addHold f s).vt = s.vt ∧ (addHold f s).free = s.free ∧ (addHold f s).out = s.out ∧ (addHold f s).pending = s.pending :=
  have k : Off (fun p => p == .cex) s (addHold f s) := addHold_keeps (Off.keeps _ _) rfl .refl
  ⟨k.clk rfl, k.rcv rfl, k.icu rfl, k.obs rfl, k.sen rfl, k.tamperIn rfl, k.xlt rfl, k.srg rfl, k.ods rfl, k.vault rfl, k.kst rfl, k.engKeys rfl, k.kwe rfl, k.pke rfl, k.ent rfl, k.atu rfl, k.lcc rfl, k.mem rfl, k.link rfl, k.sheaf rfl, k.dom rfl, k.pins rfl, k.boot rfl, k.tdi rfl, k.ac rfl, k.vt rfl, k.free rfl, k.out rfl, k.pending rfl⟩

@[simp] theorem endLaunches_same {n : Nat} {s : State} :
    (endLaunches n s).clk = s.clk ∧ (endLaunches n s).rcv = s.rcv ∧ (endLaunches n s).icu = s.icu ∧ (endLaunches n s).obs = s.obs ∧ (endLaunches n s).sen = s.sen ∧ (endLaunches n s).tamperIn = s.tamperIn ∧ (endLaunches n s).xlt = s.xlt ∧ (endLaunches n s).srg = s.srg ∧ (endLaunches n s).ods = s.ods ∧ (endLaunches n s).vault = s.vault ∧ (endLaunches n s).kst = s.kst ∧ (endLaunches n s).engKeys = s.engKeys ∧ (endLaunches n s).kwe = s.kwe ∧ (endLaunches n s).pke = s.pke ∧ (endLaunches n s).ent = s.ent ∧ (endLaunches n s).atu = s.atu ∧ (endLaunches n s).lcc = s.lcc ∧ (endLaunches n s).mem = s.mem ∧ (endLaunches n s).link = s.link ∧ (endLaunches n s).sheaf = s.sheaf ∧ (endLaunches n s).dom = s.dom ∧ (endLaunches n s).pins = s.pins ∧ (endLaunches n s).boot = s.boot ∧ (endLaunches n s).tdi = s.tdi ∧ (endLaunches n s).ac = s.ac ∧ (endLaunches n s).vt = s.vt ∧ (endLaunches n s).free = s.free ∧ (endLaunches n s).out = s.out ∧ (endLaunches n s).pending = s.pending :=
  have k : Off (fun p => p == .cex) s (endLaunches n s) := endLaunches_keeps (Off.keeps _ _) rfl .refl
  ⟨k.clk rfl, k.rcv rfl, k.icu rfl, k.obs rfl, k.sen rfl, k.tamperIn rfl, k.xlt rfl, k.srg rfl, k.ods rfl, k.vault rfl, k.kst rfl, k.engKeys rfl, k.kwe rfl, k.pke rfl, k.ent rfl, k.atu rfl, k.lcc rfl, k.mem rfl, k.link rfl, k.sheaf rfl, k.dom rfl, k.pins rfl, k.boot rfl, k.tdi rfl, k.ac rfl, k.vt rfl, k.free rfl, k.out rfl, k.pending rfl⟩

@[simp] theorem completeCmd_same {k : CmdKey} {s : State} :
    (completeCmd k s).clk = s.clk ∧ (completeCmd k s).sen = s.sen ∧ (completeCmd k s).tamperIn = s.tamperIn ∧ (completeCmd k s).xlt = s.xlt ∧ (completeCmd k s).ods = s.ods ∧ (completeCmd k s).vault = s.vault ∧ (completeCmd k s).kst = s.kst ∧ (completeCmd k s).engKeys = s.engKeys ∧ (completeCmd k s).kwe = s.kwe ∧ (completeCmd k s).pke = s.pke ∧ (completeCmd k s).ent = s.ent ∧ (completeCmd k s).atu = s.atu ∧ (completeCmd k s).lcc = s.lcc ∧ (completeCmd k s).mem = s.mem ∧ (completeCmd k s).link = s.link ∧ (completeCmd k s).sheaf = s.sheaf ∧ (completeCmd k s).dom = s.dom ∧ (completeCmd k s).pins = s.pins ∧ (completeCmd k s).boot = s.boot ∧ (completeCmd k s).tdi = s.tdi ∧ (completeCmd k s).ac = s.ac ∧ (completeCmd k s).vt = s.vt ∧ (completeCmd k s).free = s.free ∧ (completeCmd k s).pending = s.pending :=
  have k : Off (fun p => p == .rcv || p == .icu || p == .obs || p == .cex || p == .srg || p == .out) s (completeCmd k s) := completeCmd_keeps (Off.keeps _ _) rfl rfl rfl rfl rfl rfl .refl
  ⟨k.clk rfl, k.sen rfl, k.tamperIn rfl, k.xlt rfl, k.ods rfl, k.vault rfl, k.kst rfl, k.engKeys rfl, k.kwe rfl, k.pke rfl, k.ent rfl, k.atu rfl, k.lcc rfl, k.mem rfl, k.link rfl, k.sheaf rfl, k.dom rfl, k.pins rfl, k.boot rfl, k.tdi rfl, k.ac rfl, k.vt rfl, k.free rfl, k.pending rfl⟩

@[simp] theorem dropRecord_same {ring : Nat} {w : EvWait} {s : State} :
    (dropRecord ring w s).clk = s.clk ∧ (dropRecord ring w s).rcv = s.rcv ∧ (dropRecord ring w s).sen = s.sen ∧ (dropRecord ring w s).tamperIn = s.tamperIn ∧ (dropRecord ring w s).xlt = s.xlt ∧ (dropRecord ring w s).srg = s.srg ∧ (dropRecord ring w s).ods = s.ods ∧ (dropRecord ring w s).vault = s.vault ∧ (dropRecord ring w s).kst = s.kst ∧ (dropRecord ring w s).engKeys = s.engKeys ∧ (dropRecord ring w s).kwe = s.kwe ∧ (dropRecord ring w s).pke = s.pke ∧ (dropRecord ring w s).ent = s.ent ∧ (dropRecord ring w s).atu = s.atu ∧ (dropRecord ring w s).lcc = s.lcc ∧ (dropRecord ring w s).mem = s.mem ∧ (dropRecord ring w s).link = s.link ∧ (dropRecord ring w s).sheaf = s.sheaf ∧ (dropRecord ring w s).dom = s.dom ∧ (dropRecord ring w s).pins = s.pins ∧ (dropRecord ring w s).boot = s.boot ∧ (dropRecord ring w s).tdi = s.tdi ∧ (dropRecord ring w s).ac = s.ac ∧ (dropRecord ring w s).vt = s.vt ∧ (dropRecord ring w s).free = s.free ∧ (dropRecord ring w s).out = s.out ∧ (dropRecord ring w s).pending = s.pending :=
  have k : Off (fun p => p == .icu || p == .obs || p == .cex) s (dropRecord ring w s) := dropRecord_keeps (Off.keeps _ _) rfl rfl rfl .refl
  ⟨k.clk rfl, k.rcv rfl, k.sen rfl, k.tamperIn rfl, k.xlt rfl, k.srg rfl, k.ods rfl, k.vault rfl, k.kst rfl, k.engKeys rfl, k.kwe rfl, k.pke rfl, k.ent rfl, k.atu rfl, k.lcc rfl, k.mem rfl, k.link rfl, k.sheaf rfl, k.dom rfl, k.pins rfl, k.boot rfl, k.tdi rfl, k.ac rfl, k.vt rfl, k.free rfl, k.out rfl, k.pending rfl⟩

@[simp] theorem postOne_same {ring : Nat} {pre : List EvWait} {w : EvWait} {post : List EvWait} {x : Option XFault} {s : State} :
    (postOne ring pre w post x s).clk = s.clk ∧ (postOne ring pre w post x s).sen = s.sen ∧ (postOne ring pre w post x s).tamperIn = s.tamperIn ∧ (postOne ring pre w post x s).srg = s.srg ∧ (postOne ring pre w post x s).ods = s.ods ∧ (postOne ring pre w post x s).vault = s.vault ∧ (postOne ring pre w post x s).kst = s.kst ∧ (postOne ring pre w post x s).engKeys = s.engKeys ∧ (postOne ring pre w post x s).kwe = s.kwe ∧ (postOne ring pre w post x s).pke = s.pke ∧ (postOne ring pre w post x s).ent = s.ent ∧ (postOne ring pre w post x s).atu = s.atu ∧ (postOne ring pre w post x s).lcc = s.lcc ∧ (postOne ring pre w post x s).mem = s.mem ∧ (postOne ring pre w post x s).link = s.link ∧ (postOne ring pre w post x s).sheaf = s.sheaf ∧ (postOne ring pre w post x s).dom = s.dom ∧ (postOne ring pre w post x s).pins = s.pins ∧ (postOne ring pre w post x s).boot = s.boot ∧ (postOne ring pre w post x s).tdi = s.tdi ∧ (postOne ring pre w post x s).ac = s.ac ∧ (postOne ring pre w post x s).vt = s.vt ∧ (postOne ring pre w post x s).free = s.free ∧ (postOne ring pre w post x s).pending = s.pending :=
  have k : Off (fun p => p == .rcv || p == .icu || p == .obs || p == .cex || p == .xlt || p == .out) s (postOne ring pre w post x s) := postOne_keeps (Off.keeps _ _) rfl rfl rfl rfl rfl rfl .refl
  ⟨k.clk rfl, k.sen rfl, k.tamperIn rfl, k.srg rfl, k.ods rfl, k.vault rfl, k.kst rfl, k.engKeys rfl, k.kwe rfl, k.pke rfl, k.ent rfl, k.atu rfl, k.lcc rfl, k.mem rfl, k.link rfl, k.sheaf rfl, k.dom rfl, k.pins rfl, k.boot rfl, k.tdi rfl, k.ac rfl, k.vt rfl, k.free rfl, k.pending rfl⟩

@[simp] theorem postRing_same {ring : Nat} {x : Option XFault} {s : State} :
    (postRing ring x s).clk = s.clk ∧ (postRing ring x s).sen = s.sen ∧ (postRing ring x s).tamperIn = s.tamperIn ∧ (postRing ring x s).srg = s.srg ∧ (postRing ring x s).ods = s.ods ∧ (postRing ring x s).vault = s.vault ∧ (postRing ring x s).kst = s.kst ∧ (postRing ring x s).engKeys = s.engKeys ∧ (postRing ring x s).kwe = s.kwe ∧ (postRing ring x s).pke = s.pke ∧ (postRing ring x s).ent = s.ent ∧ (postRing ring x s).atu = s.atu ∧ (postRing ring x s).lcc = s.lcc ∧ (postRing ring x s).mem = s.mem ∧ (postRing ring x s).link = s.link ∧ (postRing ring x s).sheaf = s.sheaf ∧ (postRing ring x s).dom = s.dom ∧ (postRing ring x s).pins = s.pins ∧ (postRing ring x s).boot = s.boot ∧ (postRing ring x s).tdi = s.tdi ∧ (postRing ring x s).ac = s.ac ∧ (postRing ring x s).vt = s.vt ∧ (postRing ring x s).free = s.free ∧ (postRing ring x s).pending = s.pending :=
  have k : Off (fun p => p == .rcv || p == .icu || p == .obs || p == .cex || p == .xlt || p == .out) s (postRing ring x s) := postRing_keeps (Off.keeps _ _) rfl rfl rfl rfl rfl rfl .refl
  ⟨k.clk rfl, k.sen rfl, k.tamperIn rfl, k.srg rfl, k.ods rfl, k.vault rfl, k.kst rfl, k.engKeys rfl, k.kwe rfl, k.pke rfl, k.ent rfl, k.atu rfl, k.lcc rfl, k.mem rfl, k.link rfl, k.sheaf rfl, k.dom rfl, k.pins rfl, k.boot rfl, k.tdi rfl, k.ac rfl, k.vt rfl, k.free rfl, k.pending rfl⟩

@[simp] theorem fetchFault_same {k : CmdKey} {x : XFault} {s : State} :
    (fetchFault k x s).clk = s.clk ∧ (fetchFault k x s).icu = s.icu ∧ (fetchFault k x s).sen = s.sen ∧ (fetchFault k x s).tamperIn = s.tamperIn ∧ (fetchFault k x s).srg = s.srg ∧ (fetchFault k x s).ods = s.ods ∧ (fetchFault k x s).vault = s.vault ∧ (fetchFault k x s).kst = s.kst ∧ (fetchFault k x s).engKeys = s.engKeys ∧ (fetchFault k x s).kwe = s.kwe ∧ (fetchFault k x s).pke = s.pke ∧ (fetchFault k x s).ent = s.ent ∧ (fetchFault k x s).atu = s.atu ∧ (fetchFault k x s).lcc = s.lcc ∧ (fetchFault k x s).mem = s.mem ∧ (fetchFault k x s).link = s.link ∧ (fetchFault k x s).sheaf = s.sheaf ∧ (fetchFault k x s).dom = s.dom ∧ (fetchFault k x s).pins = s.pins ∧ (fetchFault k x s).boot = s.boot ∧ (fetchFault k x s).tdi = s.tdi ∧ (fetchFault k x s).ac = s.ac ∧ (fetchFault k x s).vt = s.vt ∧ (fetchFault k x s).free = s.free ∧ (fetchFault k x s).out = s.out ∧ (fetchFault k x s).pending = s.pending :=
  have k : Off (fun p => p == .rcv || p == .obs || p == .cex || p == .xlt) s (fetchFault k x s) := fetchFault_keeps (Off.keeps _ _) rfl rfl rfl rfl .refl
  ⟨k.clk rfl, k.icu rfl, k.sen rfl, k.tamperIn rfl, k.srg rfl, k.ods rfl, k.vault rfl, k.kst rfl, k.engKeys rfl, k.kwe rfl, k.pke rfl, k.ent rfl, k.atu rfl, k.lcc rfl, k.mem rfl, k.link rfl, k.sheaf rfl, k.dom rfl, k.pins rfl, k.boot rfl, k.tdi rfl, k.ac rfl, k.vt rfl, k.free rfl, k.out rfl, k.pending rfl⟩

@[simp] theorem takeFetched_same {k : CmdKey} {raw : BitVec 512} {s : State} :
    (takeFetched k raw s).clk = s.clk ∧ (takeFetched k raw s).sen = s.sen ∧ (takeFetched k raw s).tamperIn = s.tamperIn ∧ (takeFetched k raw s).xlt = s.xlt ∧ (takeFetched k raw s).ods = s.ods ∧ (takeFetched k raw s).vault = s.vault ∧ (takeFetched k raw s).kst = s.kst ∧ (takeFetched k raw s).engKeys = s.engKeys ∧ (takeFetched k raw s).kwe = s.kwe ∧ (takeFetched k raw s).pke = s.pke ∧ (takeFetched k raw s).ent = s.ent ∧ (takeFetched k raw s).atu = s.atu ∧ (takeFetched k raw s).lcc = s.lcc ∧ (takeFetched k raw s).mem = s.mem ∧ (takeFetched k raw s).link = s.link ∧ (takeFetched k raw s).sheaf = s.sheaf ∧ (takeFetched k raw s).dom = s.dom ∧ (takeFetched k raw s).pins = s.pins ∧ (takeFetched k raw s).boot = s.boot ∧ (takeFetched k raw s).tdi = s.tdi ∧ (takeFetched k raw s).ac = s.ac ∧ (takeFetched k raw s).vt = s.vt ∧ (takeFetched k raw s).free = s.free ∧ (takeFetched k raw s).pending = s.pending :=
  have k : Off (fun p => p == .rcv || p == .icu || p == .obs || p == .cex || p == .srg || p == .out) s (takeFetched k raw s) := takeFetched_keeps (Off.keeps _ _) rfl rfl rfl rfl rfl rfl .refl
  ⟨k.clk rfl, k.sen rfl, k.tamperIn rfl, k.xlt rfl, k.ods rfl, k.vault rfl, k.kst rfl, k.engKeys rfl, k.kwe rfl, k.pke rfl, k.ent rfl, k.atu rfl, k.lcc rfl, k.mem rfl, k.link rfl, k.sheaf rfl, k.dom rfl, k.pins rfl, k.boot rfl, k.tdi rfl, k.ac rfl, k.vt rfl, k.free rfl, k.pending rfl⟩

@[simp] theorem endWait_same {k : CmdKey} {status detail : Nat} {s : State} :
    (endWait k status detail s).clk = s.clk ∧ (endWait k status detail s).rcv = s.rcv ∧ (endWait k status detail s).icu = s.icu ∧ (endWait k status detail s).obs = s.obs ∧ (endWait k status detail s).sen = s.sen ∧ (endWait k status detail s).tamperIn = s.tamperIn ∧ (endWait k status detail s).xlt = s.xlt ∧ (endWait k status detail s).srg = s.srg ∧ (endWait k status detail s).ods = s.ods ∧ (endWait k status detail s).vault = s.vault ∧ (endWait k status detail s).kst = s.kst ∧ (endWait k status detail s).engKeys = s.engKeys ∧ (endWait k status detail s).kwe = s.kwe ∧ (endWait k status detail s).pke = s.pke ∧ (endWait k status detail s).ent = s.ent ∧ (endWait k status detail s).atu = s.atu ∧ (endWait k status detail s).lcc = s.lcc ∧ (endWait k status detail s).mem = s.mem ∧ (endWait k status detail s).link = s.link ∧ (endWait k status detail s).sheaf = s.sheaf ∧ (endWait k status detail s).dom = s.dom ∧ (endWait k status detail s).pins = s.pins ∧ (endWait k status detail s).boot = s.boot ∧ (endWait k status detail s).tdi = s.tdi ∧ (endWait k status detail s).ac = s.ac ∧ (endWait k status detail s).vt = s.vt ∧ (endWait k status detail s).free = s.free ∧ (endWait k status detail s).out = s.out ∧ (endWait k status detail s).pending = s.pending :=
  have k : Off (fun p => p == .cex) s (endWait k status detail s) := endWait_keeps (Off.keeps _ _) rfl .refl
  ⟨k.clk rfl, k.rcv rfl, k.icu rfl, k.obs rfl, k.sen rfl, k.tamperIn rfl, k.xlt rfl, k.srg rfl, k.ods rfl, k.vault rfl, k.kst rfl, k.engKeys rfl, k.kwe rfl, k.pke rfl, k.ent rfl, k.atu rfl, k.lcc rfl, k.mem rfl, k.link rfl, k.sheaf rfl, k.dom rfl, k.pins rfl, k.boot rfl, k.tdi rfl, k.ac rfl, k.vt rfl, k.free rfl, k.out rfl, k.pending rfl⟩

@[simp] theorem throughGate_same {k : CmdKey} {sl detail : Nat} {s : State} :
    (throughGate k sl detail s).clk = s.clk ∧ (throughGate k sl detail s).rcv = s.rcv ∧ (throughGate k sl detail s).icu = s.icu ∧ (throughGate k sl detail s).obs = s.obs ∧ (throughGate k sl detail s).sen = s.sen ∧ (throughGate k sl detail s).tamperIn = s.tamperIn ∧ (throughGate k sl detail s).xlt = s.xlt ∧ (throughGate k sl detail s).srg = s.srg ∧ (throughGate k sl detail s).ods = s.ods ∧ (throughGate k sl detail s).vault = s.vault ∧ (throughGate k sl detail s).kst = s.kst ∧ (throughGate k sl detail s).engKeys = s.engKeys ∧ (throughGate k sl detail s).kwe = s.kwe ∧ (throughGate k sl detail s).pke = s.pke ∧ (throughGate k sl detail s).ent = s.ent ∧ (throughGate k sl detail s).atu = s.atu ∧ (throughGate k sl detail s).lcc = s.lcc ∧ (throughGate k sl detail s).mem = s.mem ∧ (throughGate k sl detail s).link = s.link ∧ (throughGate k sl detail s).sheaf = s.sheaf ∧ (throughGate k sl detail s).dom = s.dom ∧ (throughGate k sl detail s).pins = s.pins ∧ (throughGate k sl detail s).boot = s.boot ∧ (throughGate k sl detail s).tdi = s.tdi ∧ (throughGate k sl detail s).ac = s.ac ∧ (throughGate k sl detail s).vt = s.vt ∧ (throughGate k sl detail s).free = s.free ∧ (throughGate k sl detail s).out = s.out ∧ (throughGate k sl detail s).pending = s.pending :=
  have k : Off (fun p => p == .cex) s (throughGate k sl detail s) := throughGate_keeps (Off.keeps _ _) rfl .refl
  ⟨k.clk rfl, k.rcv rfl, k.icu rfl, k.obs rfl, k.sen rfl, k.tamperIn rfl, k.xlt rfl, k.srg rfl, k.ods rfl, k.vault rfl, k.kst rfl, k.engKeys rfl, k.kwe rfl, k.pke rfl, k.ent rfl, k.atu rfl, k.lcc rfl, k.mem rfl, k.link rfl, k.sheaf rfl, k.dom rfl, k.pins rfl, k.boot rfl, k.tdi rfl, k.ac rfl, k.vt rfl, k.free rfl, k.out rfl, k.pending rfl⟩

@[simp] theorem addWait_same {w : WaitRec} {s : State} :
    (addWait w s).clk = s.clk ∧ (addWait w s).rcv = s.rcv ∧ (addWait w s).icu = s.icu ∧ (addWait w s).obs = s.obs ∧ (addWait w s).sen = s.sen ∧ (addWait w s).tamperIn = s.tamperIn ∧ (addWait w s).xlt = s.xlt ∧ (addWait w s).srg = s.srg ∧ (addWait w s).ods = s.ods ∧ (addWait w s).vault = s.vault ∧ (addWait w s).kst = s.kst ∧ (addWait w s).engKeys = s.engKeys ∧ (addWait w s).kwe = s.kwe ∧ (addWait w s).pke = s.pke ∧ (addWait w s).ent = s.ent ∧ (addWait w s).atu = s.atu ∧ (addWait w s).lcc = s.lcc ∧ (addWait w s).mem = s.mem ∧ (addWait w s).link = s.link ∧ (addWait w s).sheaf = s.sheaf ∧ (addWait w s).dom = s.dom ∧ (addWait w s).pins = s.pins ∧ (addWait w s).boot = s.boot ∧ (addWait w s).tdi = s.tdi ∧ (addWait w s).ac = s.ac ∧ (addWait w s).vt = s.vt ∧ (addWait w s).free = s.free ∧ (addWait w s).out = s.out ∧ (addWait w s).pending = s.pending :=
  have k : Off (fun p => p == .cex) s (addWait w s) := addWait_keeps (Off.keeps _ _) rfl .refl
  ⟨k.clk rfl, k.rcv rfl, k.icu rfl, k.obs rfl, k.sen rfl, k.tamperIn rfl, k.xlt rfl, k.srg rfl, k.ods rfl, k.vault rfl, k.kst rfl, k.engKeys rfl, k.kwe rfl, k.pke rfl, k.ent rfl, k.atu rfl, k.lcc rfl, k.mem rfl, k.link rfl, k.sheaf rfl, k.dom rfl, k.pins rfl, k.boot rfl, k.tdi rfl, k.ac rfl, k.vt rfl, k.free rfl, k.out rfl, k.pending rfl⟩

@[simp] theorem kweReseed_same {s : State} :
    (kweReseed s).clk = s.clk ∧ (kweReseed s).rcv = s.rcv ∧ (kweReseed s).icu = s.icu ∧ (kweReseed s).obs = s.obs ∧ (kweReseed s).sen = s.sen ∧ (kweReseed s).tamperIn = s.tamperIn ∧ (kweReseed s).cex = s.cex ∧ (kweReseed s).xlt = s.xlt ∧ (kweReseed s).srg = s.srg ∧ (kweReseed s).ods = s.ods ∧ (kweReseed s).vault = s.vault ∧ (kweReseed s).kst = s.kst ∧ (kweReseed s).engKeys = s.engKeys ∧ (kweReseed s).pke = s.pke ∧ (kweReseed s).atu = s.atu ∧ (kweReseed s).lcc = s.lcc ∧ (kweReseed s).mem = s.mem ∧ (kweReseed s).link = s.link ∧ (kweReseed s).sheaf = s.sheaf ∧ (kweReseed s).dom = s.dom ∧ (kweReseed s).pins = s.pins ∧ (kweReseed s).boot = s.boot ∧ (kweReseed s).tdi = s.tdi ∧ (kweReseed s).ac = s.ac ∧ (kweReseed s).vt = s.vt ∧ (kweReseed s).free = s.free ∧ (kweReseed s).out = s.out ∧ (kweReseed s).pending = s.pending :=
  have k : Off (fun p => p == .kwe || p == .ent) s (kweReseed s) := kweReseed_keeps (Off.keeps _ _) rfl rfl .refl
  ⟨k.clk rfl, k.rcv rfl, k.icu rfl, k.obs rfl, k.sen rfl, k.tamperIn rfl, k.cex rfl, k.xlt rfl, k.srg rfl, k.ods rfl, k.vault rfl, k.kst rfl, k.engKeys rfl, k.pke rfl, k.atu rfl, k.lcc rfl, k.mem rfl, k.link rfl, k.sheaf rfl, k.dom rfl, k.pins rfl, k.boot rfl, k.tdi rfl, k.ac rfl, k.vt rfl, k.free rfl, k.out rfl, k.pending rfl⟩

@[simp] theorem kweRan_same {s : State} :
    (kweRan s).clk = s.clk ∧ (kweRan s).rcv = s.rcv ∧ (kweRan s).icu = s.icu ∧ (kweRan s).obs = s.obs ∧ (kweRan s).sen = s.sen ∧ (kweRan s).tamperIn = s.tamperIn ∧ (kweRan s).cex = s.cex ∧ (kweRan s).xlt = s.xlt ∧ (kweRan s).srg = s.srg ∧ (kweRan s).ods = s.ods ∧ (kweRan s).vault = s.vault ∧ (kweRan s).kst = s.kst ∧ (kweRan s).engKeys = s.engKeys ∧ (kweRan s).pke = s.pke ∧ (kweRan s).atu = s.atu ∧ (kweRan s).lcc = s.lcc ∧ (kweRan s).mem = s.mem ∧ (kweRan s).link = s.link ∧ (kweRan s).sheaf = s.sheaf ∧ (kweRan s).dom = s.dom ∧ (kweRan s).pins = s.pins ∧ (kweRan s).boot = s.boot ∧ (kweRan s).tdi = s.tdi ∧ (kweRan s).ac = s.ac ∧ (kweRan s).vt = s.vt ∧ (kweRan s).free = s.free ∧ (kweRan s).out = s.out ∧ (kweRan s).pending = s.pending :=
  have k : Off (fun p => p == .kwe || p == .ent) s (kweRan s) := kweRan_keeps (Off.keeps _ _) rfl rfl .refl
  ⟨k.clk rfl, k.rcv rfl, k.icu rfl, k.obs rfl, k.sen rfl, k.tamperIn rfl, k.cex rfl, k.xlt rfl, k.srg rfl, k.ods rfl, k.vault rfl, k.kst rfl, k.engKeys rfl, k.pke rfl, k.atu rfl, k.lcc rfl, k.mem rfl, k.link rfl, k.sheaf rfl, k.dom rfl, k.pins rfl, k.boot rfl, k.tdi rfl, k.ac rfl, k.vt rfl, k.free rfl, k.out rfl, k.pending rfl⟩

@[simp] theorem kweDone_same {s : State} :
    (kweDone s).clk = s.clk ∧ (kweDone s).rcv = s.rcv ∧ (kweDone s).icu = s.icu ∧ (kweDone s).obs = s.obs ∧ (kweDone s).sen = s.sen ∧ (kweDone s).tamperIn = s.tamperIn ∧ (kweDone s).cex = s.cex ∧ (kweDone s).xlt = s.xlt ∧ (kweDone s).srg = s.srg ∧ (kweDone s).ods = s.ods ∧ (kweDone s).vault = s.vault ∧ (kweDone s).kst = s.kst ∧ (kweDone s).engKeys = s.engKeys ∧ (kweDone s).pke = s.pke ∧ (kweDone s).atu = s.atu ∧ (kweDone s).lcc = s.lcc ∧ (kweDone s).mem = s.mem ∧ (kweDone s).link = s.link ∧ (kweDone s).sheaf = s.sheaf ∧ (kweDone s).dom = s.dom ∧ (kweDone s).pins = s.pins ∧ (kweDone s).boot = s.boot ∧ (kweDone s).tdi = s.tdi ∧ (kweDone s).ac = s.ac ∧ (kweDone s).vt = s.vt ∧ (kweDone s).free = s.free ∧ (kweDone s).out = s.out ∧ (kweDone s).pending = s.pending :=
  have k : Off (fun p => p == .kwe || p == .ent) s (kweDone s) := kweDone_keeps (Off.keeps _ _) rfl rfl .refl
  ⟨k.clk rfl, k.rcv rfl, k.icu rfl, k.obs rfl, k.sen rfl, k.tamperIn rfl, k.cex rfl, k.xlt rfl, k.srg rfl, k.ods rfl, k.vault rfl, k.kst rfl, k.engKeys rfl, k.pke rfl, k.atu rfl, k.lcc rfl, k.mem rfl, k.link rfl, k.sheaf rfl, k.dom rfl, k.pins rfl, k.boot rfl, k.tdi rfl, k.ac rfl, k.vt rfl, k.free rfl, k.out rfl, k.pending rfl⟩

@[simp] theorem kweRefused_same {s : State} :
    (kweRefused s).clk = s.clk ∧ (kweRefused s).rcv = s.rcv ∧ (kweRefused s).icu = s.icu ∧ (kweRefused s).obs = s.obs ∧ (kweRefused s).sen = s.sen ∧ (kweRefused s).tamperIn = s.tamperIn ∧ (kweRefused s).cex = s.cex ∧ (kweRefused s).xlt = s.xlt ∧ (kweRefused s).srg = s.srg ∧ (kweRefused s).ods = s.ods ∧ (kweRefused s).vault = s.vault ∧ (kweRefused s).kst = s.kst ∧ (kweRefused s).engKeys = s.engKeys ∧ (kweRefused s).pke = s.pke ∧ (kweRefused s).ent = s.ent ∧ (kweRefused s).atu = s.atu ∧ (kweRefused s).lcc = s.lcc ∧ (kweRefused s).mem = s.mem ∧ (kweRefused s).link = s.link ∧ (kweRefused s).sheaf = s.sheaf ∧ (kweRefused s).dom = s.dom ∧ (kweRefused s).pins = s.pins ∧ (kweRefused s).boot = s.boot ∧ (kweRefused s).tdi = s.tdi ∧ (kweRefused s).ac = s.ac ∧ (kweRefused s).vt = s.vt ∧ (kweRefused s).free = s.free ∧ (kweRefused s).out = s.out ∧ (kweRefused s).pending = s.pending :=
  have k : Off (fun p => p == .kwe) s (kweRefused s) := kweRefused_keeps (Off.keeps _ _) rfl .refl
  ⟨k.clk rfl, k.rcv rfl, k.icu rfl, k.obs rfl, k.sen rfl, k.tamperIn rfl, k.cex rfl, k.xlt rfl, k.srg rfl, k.ods rfl, k.vault rfl, k.kst rfl, k.engKeys rfl, k.pke rfl, k.ent rfl, k.atu rfl, k.lcc rfl, k.mem rfl, k.link rfl, k.sheaf rfl, k.dom rfl, k.pins rfl, k.boot rfl, k.tdi rfl, k.ac rfl, k.vt rfl, k.free rfl, k.out rfl, k.pending rfl⟩

@[simp] theorem drbgInstantiate_same {s : State} :
    (drbgInstantiate s).clk = s.clk ∧ (drbgInstantiate s).rcv = s.rcv ∧ (drbgInstantiate s).icu = s.icu ∧ (drbgInstantiate s).obs = s.obs ∧ (drbgInstantiate s).sen = s.sen ∧ (drbgInstantiate s).tamperIn = s.tamperIn ∧ (drbgInstantiate s).cex = s.cex ∧ (drbgInstantiate s).xlt = s.xlt ∧ (drbgInstantiate s).srg = s.srg ∧ (drbgInstantiate s).ods = s.ods ∧ (drbgInstantiate s).vault = s.vault ∧ (drbgInstantiate s).kst = s.kst ∧ (drbgInstantiate s).engKeys = s.engKeys ∧ (drbgInstantiate s).kwe = s.kwe ∧ (drbgInstantiate s).pke = s.pke ∧ (drbgInstantiate s).atu = s.atu ∧ (drbgInstantiate s).lcc = s.lcc ∧ (drbgInstantiate s).mem = s.mem ∧ (drbgInstantiate s).link = s.link ∧ (drbgInstantiate s).sheaf = s.sheaf ∧ (drbgInstantiate s).dom = s.dom ∧ (drbgInstantiate s).pins = s.pins ∧ (drbgInstantiate s).boot = s.boot ∧ (drbgInstantiate s).tdi = s.tdi ∧ (drbgInstantiate s).ac = s.ac ∧ (drbgInstantiate s).vt = s.vt ∧ (drbgInstantiate s).out = s.out ∧ (drbgInstantiate s).pending = s.pending :=
  have k : Off (fun p => p == .ent || p == .free) s (drbgInstantiate s) := drbgInstantiate_keeps (Off.keeps _ _) rfl rfl .refl
  ⟨k.clk rfl, k.rcv rfl, k.icu rfl, k.obs rfl, k.sen rfl, k.tamperIn rfl, k.cex rfl, k.xlt rfl, k.srg rfl, k.ods rfl, k.vault rfl, k.kst rfl, k.engKeys rfl, k.kwe rfl, k.pke rfl, k.atu rfl, k.lcc rfl, k.mem rfl, k.link rfl, k.sheaf rfl, k.dom rfl, k.pins rfl, k.boot rfl, k.tdi rfl, k.ac rfl, k.vt rfl, k.out rfl, k.pending rfl⟩

@[simp] theorem drbgReseed_same {s : State} :
    (drbgReseed s).clk = s.clk ∧ (drbgReseed s).rcv = s.rcv ∧ (drbgReseed s).icu = s.icu ∧ (drbgReseed s).obs = s.obs ∧ (drbgReseed s).sen = s.sen ∧ (drbgReseed s).tamperIn = s.tamperIn ∧ (drbgReseed s).cex = s.cex ∧ (drbgReseed s).xlt = s.xlt ∧ (drbgReseed s).srg = s.srg ∧ (drbgReseed s).ods = s.ods ∧ (drbgReseed s).vault = s.vault ∧ (drbgReseed s).kst = s.kst ∧ (drbgReseed s).engKeys = s.engKeys ∧ (drbgReseed s).kwe = s.kwe ∧ (drbgReseed s).pke = s.pke ∧ (drbgReseed s).atu = s.atu ∧ (drbgReseed s).lcc = s.lcc ∧ (drbgReseed s).mem = s.mem ∧ (drbgReseed s).link = s.link ∧ (drbgReseed s).sheaf = s.sheaf ∧ (drbgReseed s).dom = s.dom ∧ (drbgReseed s).pins = s.pins ∧ (drbgReseed s).boot = s.boot ∧ (drbgReseed s).tdi = s.tdi ∧ (drbgReseed s).ac = s.ac ∧ (drbgReseed s).vt = s.vt ∧ (drbgReseed s).out = s.out ∧ (drbgReseed s).pending = s.pending :=
  have k : Off (fun p => p == .ent || p == .free) s (drbgReseed s) := drbgReseed_keeps (Off.keeps _ _) rfl rfl .refl
  ⟨k.clk rfl, k.rcv rfl, k.icu rfl, k.obs rfl, k.sen rfl, k.tamperIn rfl, k.cex rfl, k.xlt rfl, k.srg rfl, k.ods rfl, k.vault rfl, k.kst rfl, k.engKeys rfl, k.kwe rfl, k.pke rfl, k.atu rfl, k.lcc rfl, k.mem rfl, k.link rfl, k.sheaf rfl, k.dom rfl, k.pins rfl, k.boot rfl, k.tdi rfl, k.ac rfl, k.vt rfl, k.out rfl, k.pending rfl⟩

@[simp] theorem drbgPrepare_same {s : State} :
    (drbgPrepare s).clk = s.clk ∧ (drbgPrepare s).rcv = s.rcv ∧ (drbgPrepare s).icu = s.icu ∧ (drbgPrepare s).obs = s.obs ∧ (drbgPrepare s).sen = s.sen ∧ (drbgPrepare s).tamperIn = s.tamperIn ∧ (drbgPrepare s).cex = s.cex ∧ (drbgPrepare s).xlt = s.xlt ∧ (drbgPrepare s).srg = s.srg ∧ (drbgPrepare s).ods = s.ods ∧ (drbgPrepare s).vault = s.vault ∧ (drbgPrepare s).kst = s.kst ∧ (drbgPrepare s).engKeys = s.engKeys ∧ (drbgPrepare s).kwe = s.kwe ∧ (drbgPrepare s).pke = s.pke ∧ (drbgPrepare s).atu = s.atu ∧ (drbgPrepare s).lcc = s.lcc ∧ (drbgPrepare s).mem = s.mem ∧ (drbgPrepare s).link = s.link ∧ (drbgPrepare s).sheaf = s.sheaf ∧ (drbgPrepare s).dom = s.dom ∧ (drbgPrepare s).pins = s.pins ∧ (drbgPrepare s).boot = s.boot ∧ (drbgPrepare s).tdi = s.tdi ∧ (drbgPrepare s).ac = s.ac ∧ (drbgPrepare s).vt = s.vt ∧ (drbgPrepare s).out = s.out ∧ (drbgPrepare s).pending = s.pending :=
  have k : Off (fun p => p == .ent || p == .free) s (drbgPrepare s) := drbgPrepare_keeps (Off.keeps _ _) rfl rfl .refl
  ⟨k.clk rfl, k.rcv rfl, k.icu rfl, k.obs rfl, k.sen rfl, k.tamperIn rfl, k.cex rfl, k.xlt rfl, k.srg rfl, k.ods rfl, k.vault rfl, k.kst rfl, k.engKeys rfl, k.kwe rfl, k.pke rfl, k.atu rfl, k.lcc rfl, k.mem rfl, k.link rfl, k.sheaf rfl, k.dom rfl, k.pins rfl, k.boot rfl, k.tdi rfl, k.ac rfl, k.vt rfl, k.out rfl, k.pending rfl⟩

@[simp] theorem chargeEngine_same {who unit ns : Nat} {s : State} :
    (chargeEngine who unit ns s).clk = s.clk ∧ (chargeEngine who unit ns s).rcv = s.rcv ∧ (chargeEngine who unit ns s).icu = s.icu ∧ (chargeEngine who unit ns s).obs = s.obs ∧ (chargeEngine who unit ns s).sen = s.sen ∧ (chargeEngine who unit ns s).tamperIn = s.tamperIn ∧ (chargeEngine who unit ns s).cex = s.cex ∧ (chargeEngine who unit ns s).xlt = s.xlt ∧ (chargeEngine who unit ns s).ods = s.ods ∧ (chargeEngine who unit ns s).vault = s.vault ∧ (chargeEngine who unit ns s).kst = s.kst ∧ (chargeEngine who unit ns s).engKeys = s.engKeys ∧ (chargeEngine who unit ns s).kwe = s.kwe ∧ (chargeEngine who unit ns s).pke = s.pke ∧ (chargeEngine who unit ns s).ent = s.ent ∧ (chargeEngine who unit ns s).atu = s.atu ∧ (chargeEngine who unit ns s).lcc = s.lcc ∧ (chargeEngine who unit ns s).mem = s.mem ∧ (chargeEngine who unit ns s).link = s.link ∧ (chargeEngine who unit ns s).sheaf = s.sheaf ∧ (chargeEngine who unit ns s).dom = s.dom ∧ (chargeEngine who unit ns s).pins = s.pins ∧ (chargeEngine who unit ns s).boot = s.boot ∧ (chargeEngine who unit ns s).tdi = s.tdi ∧ (chargeEngine who unit ns s).ac = s.ac ∧ (chargeEngine who unit ns s).vt = s.vt ∧ (chargeEngine who unit ns s).free = s.free ∧ (chargeEngine who unit ns s).out = s.out ∧ (chargeEngine who unit ns s).pending = s.pending :=
  have k : Off (fun p => p == .srg) s (chargeEngine who unit ns s) := chargeEngine_keeps (Off.keeps _ _) rfl .refl
  ⟨k.clk rfl, k.rcv rfl, k.icu rfl, k.obs rfl, k.sen rfl, k.tamperIn rfl, k.cex rfl, k.xlt rfl, k.ods rfl, k.vault rfl, k.kst rfl, k.engKeys rfl, k.kwe rfl, k.pke rfl, k.ent rfl, k.atu rfl, k.lcc rfl, k.mem rfl, k.link rfl, k.sheaf rfl, k.dom rfl, k.pins rfl, k.boot rfl, k.tdi rfl, k.ac rfl, k.vt rfl, k.free rfl, k.out rfl, k.pending rfl⟩

@[simp] theorem pkeReseed_same {s : State} :
    (pkeReseed s).clk = s.clk ∧ (pkeReseed s).rcv = s.rcv ∧ (pkeReseed s).icu = s.icu ∧ (pkeReseed s).obs = s.obs ∧ (pkeReseed s).sen = s.sen ∧ (pkeReseed s).tamperIn = s.tamperIn ∧ (pkeReseed s).cex = s.cex ∧ (pkeReseed s).xlt = s.xlt ∧ (pkeReseed s).srg = s.srg ∧ (pkeReseed s).ods = s.ods ∧ (pkeReseed s).vault = s.vault ∧ (pkeReseed s).kst = s.kst ∧ (pkeReseed s).engKeys = s.engKeys ∧ (pkeReseed s).kwe = s.kwe ∧ (pkeReseed s).pke = s.pke ∧ (pkeReseed s).atu = s.atu ∧ (pkeReseed s).lcc = s.lcc ∧ (pkeReseed s).mem = s.mem ∧ (pkeReseed s).link = s.link ∧ (pkeReseed s).sheaf = s.sheaf ∧ (pkeReseed s).dom = s.dom ∧ (pkeReseed s).pins = s.pins ∧ (pkeReseed s).boot = s.boot ∧ (pkeReseed s).tdi = s.tdi ∧ (pkeReseed s).ac = s.ac ∧ (pkeReseed s).vt = s.vt ∧ (pkeReseed s).free = s.free ∧ (pkeReseed s).out = s.out ∧ (pkeReseed s).pending = s.pending :=
  have k : Off (fun p => p == .ent) s (pkeReseed s) := pkeReseed_keeps (Off.keeps _ _) rfl .refl
  ⟨k.clk rfl, k.rcv rfl, k.icu rfl, k.obs rfl, k.sen rfl, k.tamperIn rfl, k.cex rfl, k.xlt rfl, k.srg rfl, k.ods rfl, k.vault rfl, k.kst rfl, k.engKeys rfl, k.kwe rfl, k.pke rfl, k.atu rfl, k.lcc rfl, k.mem rfl, k.link rfl, k.sheaf rfl, k.dom rfl, k.pins rfl, k.boot rfl, k.tdi rfl, k.ac rfl, k.vt rfl, k.free rfl, k.out rfl, k.pending rfl⟩

@[simp] theorem pkeDone_same {s : State} :
    (pkeDone s).clk = s.clk ∧ (pkeDone s).rcv = s.rcv ∧ (pkeDone s).icu = s.icu ∧ (pkeDone s).obs = s.obs ∧ (pkeDone s).sen = s.sen ∧ (pkeDone s).tamperIn = s.tamperIn ∧ (pkeDone s).cex = s.cex ∧ (pkeDone s).xlt = s.xlt ∧ (pkeDone s).srg = s.srg ∧ (pkeDone s).ods = s.ods ∧ (pkeDone s).vault = s.vault ∧ (pkeDone s).kst = s.kst ∧ (pkeDone s).engKeys = s.engKeys ∧ (pkeDone s).kwe = s.kwe ∧ (pkeDone s).pke = s.pke ∧ (pkeDone s).atu = s.atu ∧ (pkeDone s).lcc = s.lcc ∧ (pkeDone s).mem = s.mem ∧ (pkeDone s).link = s.link ∧ (pkeDone s).sheaf = s.sheaf ∧ (pkeDone s).dom = s.dom ∧ (pkeDone s).pins = s.pins ∧ (pkeDone s).boot = s.boot ∧ (pkeDone s).tdi = s.tdi ∧ (pkeDone s).ac = s.ac ∧ (pkeDone s).vt = s.vt ∧ (pkeDone s).free = s.free ∧ (pkeDone s).out = s.out ∧ (pkeDone s).pending = s.pending :=
  have k : Off (fun p => p == .ent) s (pkeDone s) := pkeDone_keeps (Off.keeps _ _) rfl .refl
  ⟨k.clk rfl, k.rcv rfl, k.icu rfl, k.obs rfl, k.sen rfl, k.tamperIn rfl, k.cex rfl, k.xlt rfl, k.srg rfl, k.ods rfl, k.vault rfl, k.kst rfl, k.engKeys rfl, k.kwe rfl, k.pke rfl, k.atu rfl, k.lcc rfl, k.mem rfl, k.link rfl, k.sheaf rfl, k.dom rfl, k.pins rfl, k.boot rfl, k.tdi rfl, k.ac rfl, k.vt rfl, k.free rfl, k.out rfl, k.pending rfl⟩

@[simp] theorem writeSlot_same {n : Nat} {key : BitVec 256} {attr binding : BitVec 64} {wrapId : BitVec 128} {s : State} :
    (writeSlot n key attr binding wrapId s).clk = s.clk ∧ (writeSlot n key attr binding wrapId s).rcv = s.rcv ∧ (writeSlot n key attr binding wrapId s).icu = s.icu ∧ (writeSlot n key attr binding wrapId s).obs = s.obs ∧ (writeSlot n key attr binding wrapId s).sen = s.sen ∧ (writeSlot n key attr binding wrapId s).tamperIn = s.tamperIn ∧ (writeSlot n key attr binding wrapId s).cex = s.cex ∧ (writeSlot n key attr binding wrapId s).xlt = s.xlt ∧ (writeSlot n key attr binding wrapId s).srg = s.srg ∧ (writeSlot n key attr binding wrapId s).ods = s.ods ∧ (writeSlot n key attr binding wrapId s).vault = s.vault ∧ (writeSlot n key attr binding wrapId s).engKeys = s.engKeys ∧ (writeSlot n key attr binding wrapId s).kwe = s.kwe ∧ (writeSlot n key attr binding wrapId s).pke = s.pke ∧ (writeSlot n key attr binding wrapId s).ent = s.ent ∧ (writeSlot n key attr binding wrapId s).atu = s.atu ∧ (writeSlot n key attr binding wrapId s).lcc = s.lcc ∧ (writeSlot n key attr binding wrapId s).mem = s.mem ∧ (writeSlot n key attr binding wrapId s).link = s.link ∧ (writeSlot n key attr binding wrapId s).sheaf = s.sheaf ∧ (writeSlot n key attr binding wrapId s).dom = s.dom ∧ (writeSlot n key attr binding wrapId s).pins = s.pins ∧ (writeSlot n key attr binding wrapId s).boot = s.boot ∧ (writeSlot n key attr binding wrapId s).tdi = s.tdi ∧ (writeSlot n key attr binding wrapId s).ac = s.ac ∧ (writeSlot n key attr binding wrapId s).vt = s.vt ∧ (writeSlot n key attr binding wrapId s).free = s.free ∧ (writeSlot n key attr binding wrapId s).out = s.out ∧ (writeSlot n key attr binding wrapId s).pending = s.pending :=
  have k : Off (fun p => p == .kst) s (writeSlot n key attr binding wrapId s) := writeSlot_keeps (Off.keeps _ _) rfl .refl
  ⟨k.clk rfl, k.rcv rfl, k.icu rfl, k.obs rfl, k.sen rfl, k.tamperIn rfl, k.cex rfl, k.xlt rfl, k.srg rfl, k.ods rfl, k.vault rfl, k.engKeys rfl, k.kwe rfl, k.pke rfl, k.ent rfl, k.atu rfl, k.lcc rfl, k.mem rfl, k.link rfl, k.sheaf rfl, k.dom rfl, k.pins rfl, k.boot rfl, k.tdi rfl, k.ac rfl, k.vt rfl, k.free rfl, k.out rfl, k.pending rfl⟩

@[simp] theorem updPlough_same {r : Nat} {f : Plough → Plough} {s : State} :
    (updPlough r f s).clk = s.clk ∧ (updPlough r f s).rcv = s.rcv ∧ (updPlough r f s).icu = s.icu ∧ (updPlough r f s).obs = s.obs ∧ (updPlough r f s).sen = s.sen ∧ (updPlough r f s).tamperIn = s.tamperIn ∧ (updPlough r f s).cex = s.cex ∧ (updPlough r f s).xlt = s.xlt ∧ (updPlough r f s).srg = s.srg ∧ (updPlough r f s).ods = s.ods ∧ (updPlough r f s).vault = s.vault ∧ (updPlough r f s).kst = s.kst ∧ (updPlough r f s).engKeys = s.engKeys ∧ (updPlough r f s).kwe = s.kwe ∧ (updPlough r f s).pke = s.pke ∧ (updPlough r f s).ent = s.ent ∧ (updPlough r f s).atu = s.atu ∧ (updPlough r f s).lcc = s.lcc ∧ (updPlough r f s).link = s.link ∧ (updPlough r f s).sheaf = s.sheaf ∧ (updPlough r f s).dom = s.dom ∧ (updPlough r f s).pins = s.pins ∧ (updPlough r f s).boot = s.boot ∧ (updPlough r f s).tdi = s.tdi ∧ (updPlough r f s).ac = s.ac ∧ (updPlough r f s).vt = s.vt ∧ (updPlough r f s).free = s.free ∧ (updPlough r f s).out = s.out ∧ (updPlough r f s).pending = s.pending :=
  have k : Off (fun p => p == .mem) s (updPlough r f s) := updPlough_keeps (Off.keeps _ _) rfl .refl
  ⟨k.clk rfl, k.rcv rfl, k.icu rfl, k.obs rfl, k.sen rfl, k.tamperIn rfl, k.cex rfl, k.xlt rfl, k.srg rfl, k.ods rfl, k.vault rfl, k.kst rfl, k.engKeys rfl, k.kwe rfl, k.pke rfl, k.ent rfl, k.atu rfl, k.lcc rfl, k.link rfl, k.sheaf rfl, k.dom rfl, k.pins rfl, k.boot rfl, k.tdi rfl, k.ac rfl, k.vt rfl, k.free rfl, k.out rfl, k.pending rfl⟩

@[simp] theorem nextErase_same {e : Nat} {s : State} :
    (nextErase e s).clk = s.clk ∧ (nextErase e s).rcv = s.rcv ∧ (nextErase e s).icu = s.icu ∧ (nextErase e s).obs = s.obs ∧ (nextErase e s).sen = s.sen ∧ (nextErase e s).tamperIn = s.tamperIn ∧ (nextErase e s).cex = s.cex ∧ (nextErase e s).xlt = s.xlt ∧ (nextErase e s).srg = s.srg ∧ (nextErase e s).ods = s.ods ∧ (nextErase e s).vault = s.vault ∧ (nextErase e s).kst = s.kst ∧ (nextErase e s).engKeys = s.engKeys ∧ (nextErase e s).kwe = s.kwe ∧ (nextErase e s).pke = s.pke ∧ (nextErase e s).ent = s.ent ∧ (nextErase e s).atu = s.atu ∧ (nextErase e s).lcc = s.lcc ∧ (nextErase e s).mem = s.mem ∧ (nextErase e s).link = s.link ∧ (nextErase e s).sheaf = s.sheaf ∧ (nextErase e s).dom = s.dom ∧ (nextErase e s).pins = s.pins ∧ (nextErase e s).boot = s.boot ∧ (nextErase e s).tdi = s.tdi ∧ (nextErase e s).ac = s.ac ∧ (nextErase e s).vt = s.vt ∧ (nextErase e s).free = s.free ∧ (nextErase e s).pending = s.pending :=
  have k : Off (fun p => p == .out) s (nextErase e s) := nextErase_keeps (Off.keeps _ _) rfl .refl
  ⟨k.clk rfl, k.rcv rfl, k.icu rfl, k.obs rfl, k.sen rfl, k.tamperIn rfl, k.cex rfl, k.xlt rfl, k.srg rfl, k.ods rfl, k.vault rfl, k.kst rfl, k.engKeys rfl, k.kwe rfl, k.pke rfl, k.ent rfl, k.atu rfl, k.lcc rfl, k.mem rfl, k.link rfl, k.sheaf rfl, k.dom rfl, k.pins rfl, k.boot rfl, k.tdi rfl, k.ac rfl, k.vt rfl, k.free rfl, k.pending rfl⟩

@[simp] theorem endCorr_same {e read : Nat} {s : State} :
    (endCorr e read s).clk = s.clk ∧ (endCorr e read s).rcv = s.rcv ∧ (endCorr e read s).icu = s.icu ∧ (endCorr e read s).obs = s.obs ∧ (endCorr e read s).sen = s.sen ∧ (endCorr e read s).tamperIn = s.tamperIn ∧ (endCorr e read s).cex = s.cex ∧ (endCorr e read s).xlt = s.xlt ∧ (endCorr e read s).srg = s.srg ∧ (endCorr e read s).ods = s.ods ∧ (endCorr e read s).vault = s.vault ∧ (endCorr e read s).kst = s.kst ∧ (endCorr e read s).engKeys = s.engKeys ∧ (endCorr e read s).kwe = s.kwe ∧ (endCorr e read s).pke = s.pke ∧ (endCorr e read s).ent = s.ent ∧ (endCorr e read s).atu = s.atu ∧ (endCorr e read s).lcc = s.lcc ∧ (endCorr e read s).link = s.link ∧ (endCorr e read s).sheaf = s.sheaf ∧ (endCorr e read s).dom = s.dom ∧ (endCorr e read s).pins = s.pins ∧ (endCorr e read s).boot = s.boot ∧ (endCorr e read s).tdi = s.tdi ∧ (endCorr e read s).ac = s.ac ∧ (endCorr e read s).vt = s.vt ∧ (endCorr e read s).free = s.free ∧ (endCorr e read s).pending = s.pending :=
  have k : Off (fun p => p == .mem || p == .out) s (endCorr e read s) := endCorr_keeps (Off.keeps _ _) rfl rfl .refl
  ⟨k.clk rfl, k.rcv rfl, k.icu rfl, k.obs rfl, k.sen rfl, k.tamperIn rfl, k.cex rfl, k.xlt rfl, k.srg rfl, k.ods rfl, k.vault rfl, k.kst rfl, k.engKeys rfl, k.kwe rfl, k.pke rfl, k.ent rfl, k.atu rfl, k.lcc rfl, k.link rfl, k.sheaf rfl, k.dom rfl, k.pins rfl, k.boot rfl, k.tdi rfl, k.ac rfl, k.vt rfl, k.free rfl, k.pending rfl⟩

@[simp] theorem queueLine_same {e : Nat} {l : WaitLine} {s : State} :
    (queueLine e l s).clk = s.clk ∧ (queueLine e l s).rcv = s.rcv ∧ (queueLine e l s).icu = s.icu ∧ (queueLine e l s).obs = s.obs ∧ (queueLine e l s).sen = s.sen ∧ (queueLine e l s).tamperIn = s.tamperIn ∧ (queueLine e l s).cex = s.cex ∧ (queueLine e l s).xlt = s.xlt ∧ (queueLine e l s).srg = s.srg ∧ (queueLine e l s).ods = s.ods ∧ (queueLine e l s).vault = s.vault ∧ (queueLine e l s).kst = s.kst ∧ (queueLine e l s).engKeys = s.engKeys ∧ (queueLine e l s).kwe = s.kwe ∧ (queueLine e l s).pke = s.pke ∧ (queueLine e l s).ent = s.ent ∧ (queueLine e l s).atu = s.atu ∧ (queueLine e l s).lcc = s.lcc ∧ (queueLine e l s).link = s.link ∧ (queueLine e l s).sheaf = s.sheaf ∧ (queueLine e l s).dom = s.dom ∧ (queueLine e l s).pins = s.pins ∧ (queueLine e l s).boot = s.boot ∧ (queueLine e l s).tdi = s.tdi ∧ (queueLine e l s).ac = s.ac ∧ (queueLine e l s).vt = s.vt ∧ (queueLine e l s).free = s.free ∧ (queueLine e l s).out = s.out ∧ (queueLine e l s).pending = s.pending :=
  have k : Off (fun p => p == .mem) s (queueLine e l s) := queueLine_keeps (Off.keeps _ _) rfl .refl
  ⟨k.clk rfl, k.rcv rfl, k.icu rfl, k.obs rfl, k.sen rfl, k.tamperIn rfl, k.cex rfl, k.xlt rfl, k.srg rfl, k.ods rfl, k.vault rfl, k.kst rfl, k.engKeys rfl, k.kwe rfl, k.pke rfl, k.ent rfl, k.atu rfl, k.lcc rfl, k.link rfl, k.sheaf rfl, k.dom rfl, k.pins rfl, k.boot rfl, k.tdi rfl, k.ac rfl, k.vt rfl, k.free rfl, k.out rfl, k.pending rfl⟩

@[simp] theorem writeLine_same {e r who : Nat} {plough : Bool} {ln : Nat} {c : Line} {tag : BitVec 56} {s : State} :
    (writeLine e r who plough ln c tag s).clk = s.clk ∧ (writeLine e r who plough ln c tag s).rcv = s.rcv ∧ (writeLine e r who plough ln c tag s).icu = s.icu ∧ (writeLine e r who plough ln c tag s).obs = s.obs ∧ (writeLine e r who plough ln c tag s).sen = s.sen ∧ (writeLine e r who plough ln c tag s).tamperIn = s.tamperIn ∧ (writeLine e r who plough ln c tag s).cex = s.cex ∧ (writeLine e r who plough ln c tag s).xlt = s.xlt ∧ (writeLine e r who plough ln c tag s).srg = s.srg ∧ (writeLine e r who plough ln c tag s).ods = s.ods ∧ (writeLine e r who plough ln c tag s).vault = s.vault ∧ (writeLine e r who plough ln c tag s).kst = s.kst ∧ (writeLine e r who plough ln c tag s).engKeys = s.engKeys ∧ (writeLine e r who plough ln c tag s).kwe = s.kwe ∧ (writeLine e r who plough ln c tag s).pke = s.pke ∧ (writeLine e r who plough ln c tag s).ent = s.ent ∧ (writeLine e r who plough ln c tag s).atu = s.atu ∧ (writeLine e r who plough ln c tag s).lcc = s.lcc ∧ (writeLine e r who plough ln c tag s).link = s.link ∧ (writeLine e r who plough ln c tag s).sheaf = s.sheaf ∧ (writeLine e r who plough ln c tag s).dom = s.dom ∧ (writeLine e r who plough ln c tag s).pins = s.pins ∧ (writeLine e r who plough ln c tag s).boot = s.boot ∧ (writeLine e r who plough ln c tag s).tdi = s.tdi ∧ (writeLine e r who plough ln c tag s).ac = s.ac ∧ (writeLine e r who plough ln c tag s).vt = s.vt ∧ (writeLine e r who plough ln c tag s).free = s.free ∧ (writeLine e r who plough ln c tag s).out = s.out ∧ (writeLine e r who plough ln c tag s).pending = s.pending :=
  have k : Off (fun p => p == .mem) s (writeLine e r who plough ln c tag s) := writeLine_keeps (Off.keeps _ _) rfl .refl
  ⟨k.clk rfl, k.rcv rfl, k.icu rfl, k.obs rfl, k.sen rfl, k.tamperIn rfl, k.cex rfl, k.xlt rfl, k.srg rfl, k.ods rfl, k.vault rfl, k.kst rfl, k.engKeys rfl, k.kwe rfl, k.pke rfl, k.ent rfl, k.atu rfl, k.lcc rfl, k.link rfl, k.sheaf rfl, k.dom rfl, k.pins rfl, k.boot rfl, k.tdi rfl, k.ac rfl, k.vt rfl, k.free rfl, k.out rfl, k.pending rfl⟩

@[simp] theorem clearKey_same {cls ix : Nat} {s : State} :
    (clearKey cls ix s).clk = s.clk ∧ (clearKey cls ix s).rcv = s.rcv ∧ (clearKey cls ix s).icu = s.icu ∧ (clearKey cls ix s).obs = s.obs ∧ (clearKey cls ix s).sen = s.sen ∧ (clearKey cls ix s).tamperIn = s.tamperIn ∧ (clearKey cls ix s).cex = s.cex ∧ (clearKey cls ix s).xlt = s.xlt ∧ (clearKey cls ix s).srg = s.srg ∧ (clearKey cls ix s).ods = s.ods ∧ (clearKey cls ix s).vault = s.vault ∧ (clearKey cls ix s).kst = s.kst ∧ (clearKey cls ix s).kwe = s.kwe ∧ (clearKey cls ix s).pke = s.pke ∧ (clearKey cls ix s).ent = s.ent ∧ (clearKey cls ix s).atu = s.atu ∧ (clearKey cls ix s).lcc = s.lcc ∧ (clearKey cls ix s).mem = s.mem ∧ (clearKey cls ix s).link = s.link ∧ (clearKey cls ix s).sheaf = s.sheaf ∧ (clearKey cls ix s).dom = s.dom ∧ (clearKey cls ix s).pins = s.pins ∧ (clearKey cls ix s).boot = s.boot ∧ (clearKey cls ix s).tdi = s.tdi ∧ (clearKey cls ix s).ac = s.ac ∧ (clearKey cls ix s).vt = s.vt ∧ (clearKey cls ix s).free = s.free ∧ (clearKey cls ix s).out = s.out ∧ (clearKey cls ix s).pending = s.pending :=
  have k : Off (fun p => p == .engKeys) s (clearKey cls ix s) := clearKey_keeps (Off.keeps _ _) rfl .refl
  ⟨k.clk rfl, k.rcv rfl, k.icu rfl, k.obs rfl, k.sen rfl, k.tamperIn rfl, k.cex rfl, k.xlt rfl, k.srg rfl, k.ods rfl, k.vault rfl, k.kst rfl, k.kwe rfl, k.pke rfl, k.ent rfl, k.atu rfl, k.lcc rfl, k.mem rfl, k.link rfl, k.sheaf rfl, k.dom rfl, k.pins rfl, k.boot rfl, k.tdi rfl, k.ac rfl, k.vt rfl, k.free rfl, k.out rfl, k.pending rfl⟩

@[simp] theorem meCount_same {e sub n : Nat} {s : State} :
    (meCount e sub n s).clk = s.clk ∧ (meCount e sub n s).rcv = s.rcv ∧ (meCount e sub n s).icu = s.icu ∧ (meCount e sub n s).obs = s.obs ∧ (meCount e sub n s).sen = s.sen ∧ (meCount e sub n s).tamperIn = s.tamperIn ∧ (meCount e sub n s).cex = s.cex ∧ (meCount e sub n s).xlt = s.xlt ∧ (meCount e sub n s).srg = s.srg ∧ (meCount e sub n s).ods = s.ods ∧ (meCount e sub n s).vault = s.vault ∧ (meCount e sub n s).kst = s.kst ∧ (meCount e sub n s).engKeys = s.engKeys ∧ (meCount e sub n s).kwe = s.kwe ∧ (meCount e sub n s).pke = s.pke ∧ (meCount e sub n s).ent = s.ent ∧ (meCount e sub n s).atu = s.atu ∧ (meCount e sub n s).lcc = s.lcc ∧ (meCount e sub n s).link = s.link ∧ (meCount e sub n s).sheaf = s.sheaf ∧ (meCount e sub n s).dom = s.dom ∧ (meCount e sub n s).pins = s.pins ∧ (meCount e sub n s).boot = s.boot ∧ (meCount e sub n s).tdi = s.tdi ∧ (meCount e sub n s).ac = s.ac ∧ (meCount e sub n s).vt = s.vt ∧ (meCount e sub n s).free = s.free ∧ (meCount e sub n s).out = s.out ∧ (meCount e sub n s).pending = s.pending :=
  have k : Off (fun p => p == .mem) s (meCount e sub n s) := meCount_keeps (Off.keeps _ _) rfl .refl
  ⟨k.clk rfl, k.rcv rfl, k.icu rfl, k.obs rfl, k.sen rfl, k.tamperIn rfl, k.cex rfl, k.xlt rfl, k.srg rfl, k.ods rfl, k.vault rfl, k.kst rfl, k.engKeys rfl, k.kwe rfl, k.pke rfl, k.ent rfl, k.atu rfl, k.lcc rfl, k.link rfl, k.sheaf rfl, k.dom rfl, k.pins rfl, k.boot rfl, k.tdi rfl, k.ac rfl, k.vt rfl, k.free rfl, k.out rfl, k.pending rfl⟩

@[simp] theorem meSource_same {cls e : Nat} {s : State} :
    (meSource cls e s).clk = s.clk ∧ (meSource cls e s).sen = s.sen ∧ (meSource cls e s).tamperIn = s.tamperIn ∧ (meSource cls e s).cex = s.cex ∧ (meSource cls e s).xlt = s.xlt ∧ (meSource cls e s).srg = s.srg ∧ (meSource cls e s).ods = s.ods ∧ (meSource cls e s).vault = s.vault ∧ (meSource cls e s).kst = s.kst ∧ (meSource cls e s).engKeys = s.engKeys ∧ (meSource cls e s).kwe = s.kwe ∧ (meSource cls e s).pke = s.pke ∧ (meSource cls e s).ent = s.ent ∧ (meSource cls e s).atu = s.atu ∧ (meSource cls e s).lcc = s.lcc ∧ (meSource cls e s).mem = s.mem ∧ (meSource cls e s).link = s.link ∧ (meSource cls e s).sheaf = s.sheaf ∧ (meSource cls e s).dom = s.dom ∧ (meSource cls e s).pins = s.pins ∧ (meSource cls e s).boot = s.boot ∧ (meSource cls e s).tdi = s.tdi ∧ (meSource cls e s).ac = s.ac ∧ (meSource cls e s).vt = s.vt ∧ (meSource cls e s).free = s.free ∧ (meSource cls e s).pending = s.pending :=
  have k : Off (fun p => p == .rcv || p == .icu || p == .obs || p == .out) s (meSource cls e s) := meSource_keeps (Off.keeps _ _) rfl rfl rfl rfl .refl
  ⟨k.clk rfl, k.sen rfl, k.tamperIn rfl, k.cex rfl, k.xlt rfl, k.srg rfl, k.ods rfl, k.vault rfl, k.kst rfl, k.engKeys rfl, k.kwe rfl, k.pke rfl, k.ent rfl, k.atu rfl, k.lcc rfl, k.mem rfl, k.link rfl, k.sheaf rfl, k.dom rfl, k.pins rfl, k.boot rfl, k.tdi rfl, k.ac rfl, k.vt rfl, k.free rfl, k.pending rfl⟩

@[simp] theorem meLog_same {cls e ln req who : Nat} {r : Option Nat} {status cands : Nat} {s : State} :
    (meLog cls e ln req who r status cands s).clk = s.clk ∧ (meLog cls e ln req who r status cands s).sen = s.sen ∧ (meLog cls e ln req who r status cands s).tamperIn = s.tamperIn ∧ (meLog cls e ln req who r status cands s).cex = s.cex ∧ (meLog cls e ln req who r status cands s).xlt = s.xlt ∧ (meLog cls e ln req who r status cands s).srg = s.srg ∧ (meLog cls e ln req who r status cands s).ods = s.ods ∧ (meLog cls e ln req who r status cands s).vault = s.vault ∧ (meLog cls e ln req who r status cands s).kst = s.kst ∧ (meLog cls e ln req who r status cands s).engKeys = s.engKeys ∧ (meLog cls e ln req who r status cands s).kwe = s.kwe ∧ (meLog cls e ln req who r status cands s).pke = s.pke ∧ (meLog cls e ln req who r status cands s).ent = s.ent ∧ (meLog cls e ln req who r status cands s).atu = s.atu ∧ (meLog cls e ln req who r status cands s).lcc = s.lcc ∧ (meLog cls e ln req who r status cands s).mem = s.mem ∧ (meLog cls e ln req who r status cands s).link = s.link ∧ (meLog cls e ln req who r status cands s).sheaf = s.sheaf ∧ (meLog cls e ln req who r status cands s).dom = s.dom ∧ (meLog cls e ln req who r status cands s).pins = s.pins ∧ (meLog cls e ln req who r status cands s).boot = s.boot ∧ (meLog cls e ln req who r status cands s).tdi = s.tdi ∧ (meLog cls e ln req who r status cands s).ac = s.ac ∧ (meLog cls e ln req who r status cands s).vt = s.vt ∧ (meLog cls e ln req who r status cands s).free = s.free ∧ (meLog cls e ln req who r status cands s).pending = s.pending :=
  have k : Off (fun p => p == .rcv || p == .icu || p == .obs || p == .out) s (meLog cls e ln req who r status cands s) := meLog_keeps (Off.keeps _ _) rfl rfl rfl rfl .refl
  ⟨k.clk rfl, k.sen rfl, k.tamperIn rfl, k.cex rfl, k.xlt rfl, k.srg rfl, k.ods rfl, k.vault rfl, k.kst rfl, k.engKeys rfl, k.kwe rfl, k.pke rfl, k.ent rfl, k.atu rfl, k.lcc rfl, k.mem rfl, k.link rfl, k.sheaf rfl, k.dom rfl, k.pins rfl, k.boot rfl, k.tdi rfl, k.ac rfl, k.vt rfl, k.free rfl, k.pending rfl⟩

@[simp] theorem respond_same {x : MemRead} {d : Option Line} {s : State} :
    (respond x d s).clk = s.clk ∧ (respond x d s).rcv = s.rcv ∧ (respond x d s).icu = s.icu ∧ (respond x d s).obs = s.obs ∧ (respond x d s).sen = s.sen ∧ (respond x d s).tamperIn = s.tamperIn ∧ (respond x d s).cex = s.cex ∧ (respond x d s).xlt = s.xlt ∧ (respond x d s).srg = s.srg ∧ (respond x d s).ods = s.ods ∧ (respond x d s).vault = s.vault ∧ (respond x d s).kst = s.kst ∧ (respond x d s).engKeys = s.engKeys ∧ (respond x d s).kwe = s.kwe ∧ (respond x d s).pke = s.pke ∧ (respond x d s).ent = s.ent ∧ (respond x d s).atu = s.atu ∧ (respond x d s).lcc = s.lcc ∧ (respond x d s).link = s.link ∧ (respond x d s).sheaf = s.sheaf ∧ (respond x d s).dom = s.dom ∧ (respond x d s).pins = s.pins ∧ (respond x d s).boot = s.boot ∧ (respond x d s).tdi = s.tdi ∧ (respond x d s).ac = s.ac ∧ (respond x d s).vt = s.vt ∧ (respond x d s).free = s.free ∧ (respond x d s).pending = s.pending :=
  have k : Off (fun p => p == .mem || p == .out) s (respond x d s) := respond_keeps (Off.keeps _ _) rfl rfl .refl
  ⟨k.clk rfl, k.rcv rfl, k.icu rfl, k.obs rfl, k.sen rfl, k.tamperIn rfl, k.cex rfl, k.xlt rfl, k.srg rfl, k.ods rfl, k.vault rfl, k.kst rfl, k.engKeys rfl, k.kwe rfl, k.pke rfl, k.ent rfl, k.atu rfl, k.lcc rfl, k.link rfl, k.sheaf rfl, k.dom rfl, k.pins rfl, k.boot rfl, k.tdi rfl, k.ac rfl, k.vt rfl, k.free rfl, k.pending rfl⟩

@[simp] theorem dropRead_same {x : MemRead} {s : State} :
    (dropRead x s).clk = s.clk ∧ (dropRead x s).rcv = s.rcv ∧ (dropRead x s).icu = s.icu ∧ (dropRead x s).obs = s.obs ∧ (dropRead x s).sen = s.sen ∧ (dropRead x s).tamperIn = s.tamperIn ∧ (dropRead x s).cex = s.cex ∧ (dropRead x s).xlt = s.xlt ∧ (dropRead x s).srg = s.srg ∧ (dropRead x s).ods = s.ods ∧ (dropRead x s).vault = s.vault ∧ (dropRead x s).kst = s.kst ∧ (dropRead x s).engKeys = s.engKeys ∧ (dropRead x s).kwe = s.kwe ∧ (dropRead x s).pke = s.pke ∧ (dropRead x s).ent = s.ent ∧ (dropRead x s).atu = s.atu ∧ (dropRead x s).lcc = s.lcc ∧ (dropRead x s).link = s.link ∧ (dropRead x s).sheaf = s.sheaf ∧ (dropRead x s).dom = s.dom ∧ (dropRead x s).pins = s.pins ∧ (dropRead x s).boot = s.boot ∧ (dropRead x s).tdi = s.tdi ∧ (dropRead x s).ac = s.ac ∧ (dropRead x s).vt = s.vt ∧ (dropRead x s).free = s.free ∧ (dropRead x s).out = s.out ∧ (dropRead x s).pending = s.pending :=
  have k : Off (fun p => p == .mem) s (dropRead x s) := dropRead_keeps (Off.keeps _ _) rfl .refl
  ⟨k.clk rfl, k.rcv rfl, k.icu rfl, k.obs rfl, k.sen rfl, k.tamperIn rfl, k.cex rfl, k.xlt rfl, k.srg rfl, k.ods rfl, k.vault rfl, k.kst rfl, k.engKeys rfl, k.kwe rfl, k.pke rfl, k.ent rfl, k.atu rfl, k.lcc rfl, k.link rfl, k.sheaf rfl, k.dom rfl, k.pins rfl, k.boot rfl, k.tdi rfl, k.ac rfl, k.vt rfl, k.free rfl, k.out rfl, k.pending rfl⟩

@[simp] theorem poisonRead_same {cls : Nat} {x : MemRead} {r : Option Nat} {status cands : Nat} {s : State} :
    (poisonRead cls x r status cands s).clk = s.clk ∧ (poisonRead cls x r status cands s).sen = s.sen ∧ (poisonRead cls x r status cands s).tamperIn = s.tamperIn ∧ (poisonRead cls x r status cands s).cex = s.cex ∧ (poisonRead cls x r status cands s).xlt = s.xlt ∧ (poisonRead cls x r status cands s).srg = s.srg ∧ (poisonRead cls x r status cands s).ods = s.ods ∧ (poisonRead cls x r status cands s).vault = s.vault ∧ (poisonRead cls x r status cands s).kst = s.kst ∧ (poisonRead cls x r status cands s).engKeys = s.engKeys ∧ (poisonRead cls x r status cands s).kwe = s.kwe ∧ (poisonRead cls x r status cands s).pke = s.pke ∧ (poisonRead cls x r status cands s).ent = s.ent ∧ (poisonRead cls x r status cands s).atu = s.atu ∧ (poisonRead cls x r status cands s).lcc = s.lcc ∧ (poisonRead cls x r status cands s).link = s.link ∧ (poisonRead cls x r status cands s).sheaf = s.sheaf ∧ (poisonRead cls x r status cands s).dom = s.dom ∧ (poisonRead cls x r status cands s).pins = s.pins ∧ (poisonRead cls x r status cands s).boot = s.boot ∧ (poisonRead cls x r status cands s).tdi = s.tdi ∧ (poisonRead cls x r status cands s).ac = s.ac ∧ (poisonRead cls x r status cands s).vt = s.vt ∧ (poisonRead cls x r status cands s).free = s.free ∧ (poisonRead cls x r status cands s).pending = s.pending :=
  have k : Off (fun p => p == .rcv || p == .icu || p == .obs || p == .mem || p == .out) s (poisonRead cls x r status cands s) := poisonRead_keeps (Off.keeps _ _) rfl rfl rfl rfl rfl .refl
  ⟨k.clk rfl, k.sen rfl, k.tamperIn rfl, k.cex rfl, k.xlt rfl, k.srg rfl, k.ods rfl, k.vault rfl, k.kst rfl, k.engKeys rfl, k.kwe rfl, k.pke rfl, k.ent rfl, k.atu rfl, k.lcc rfl, k.link rfl, k.sheaf rfl, k.dom rfl, k.pins rfl, k.boot rfl, k.tdi rfl, k.ac rfl, k.vt rfl, k.free rfl, k.pending rfl⟩

@[simp] theorem dropWrite_same {cls code e ln req who : Nat} {r : Option Nat} {denied : Bool} {s : State} :
    (dropWrite cls code e ln req who r denied s).clk = s.clk ∧ (dropWrite cls code e ln req who r denied s).sen = s.sen ∧ (dropWrite cls code e ln req who r denied s).tamperIn = s.tamperIn ∧ (dropWrite cls code e ln req who r denied s).xlt = s.xlt ∧ (dropWrite cls code e ln req who r denied s).srg = s.srg ∧ (dropWrite cls code e ln req who r denied s).ods = s.ods ∧ (dropWrite cls code e ln req who r denied s).vault = s.vault ∧ (dropWrite cls code e ln req who r denied s).kst = s.kst ∧ (dropWrite cls code e ln req who r denied s).engKeys = s.engKeys ∧ (dropWrite cls code e ln req who r denied s).kwe = s.kwe ∧ (dropWrite cls code e ln req who r denied s).pke = s.pke ∧ (dropWrite cls code e ln req who r denied s).ent = s.ent ∧ (dropWrite cls code e ln req who r denied s).atu = s.atu ∧ (dropWrite cls code e ln req who r denied s).lcc = s.lcc ∧ (dropWrite cls code e ln req who r denied s).link = s.link ∧ (dropWrite cls code e ln req who r denied s).sheaf = s.sheaf ∧ (dropWrite cls code e ln req who r denied s).dom = s.dom ∧ (dropWrite cls code e ln req who r denied s).pins = s.pins ∧ (dropWrite cls code e ln req who r denied s).boot = s.boot ∧ (dropWrite cls code e ln req who r denied s).tdi = s.tdi ∧ (dropWrite cls code e ln req who r denied s).ac = s.ac ∧ (dropWrite cls code e ln req who r denied s).vt = s.vt ∧ (dropWrite cls code e ln req who r denied s).free = s.free ∧ (dropWrite cls code e ln req who r denied s).pending = s.pending :=
  have k : Off (fun p => p == .rcv || p == .icu || p == .obs || p == .cex || p == .mem || p == .out) s (dropWrite cls code e ln req who r denied s) := dropWrite_keeps (Off.keeps _ _) rfl rfl rfl rfl rfl rfl .refl
  ⟨k.clk rfl, k.sen rfl, k.tamperIn rfl, k.xlt rfl, k.srg rfl, k.ods rfl, k.vault rfl, k.kst rfl, k.engKeys rfl, k.kwe rfl, k.pke rfl, k.ent rfl, k.atu rfl, k.lcc rfl, k.link rfl, k.sheaf rfl, k.dom rfl, k.pins rfl, k.boot rfl, k.tdi rfl, k.ac rfl, k.vt rfl, k.free rfl, k.pending rfl⟩

@[simp] theorem addRead_same {x : MemRead} {s : State} :
    (addRead x s).clk = s.clk ∧ (addRead x s).rcv = s.rcv ∧ (addRead x s).icu = s.icu ∧ (addRead x s).obs = s.obs ∧ (addRead x s).sen = s.sen ∧ (addRead x s).tamperIn = s.tamperIn ∧ (addRead x s).cex = s.cex ∧ (addRead x s).xlt = s.xlt ∧ (addRead x s).srg = s.srg ∧ (addRead x s).ods = s.ods ∧ (addRead x s).vault = s.vault ∧ (addRead x s).kst = s.kst ∧ (addRead x s).engKeys = s.engKeys ∧ (addRead x s).kwe = s.kwe ∧ (addRead x s).pke = s.pke ∧ (addRead x s).ent = s.ent ∧ (addRead x s).atu = s.atu ∧ (addRead x s).lcc = s.lcc ∧ (addRead x s).link = s.link ∧ (addRead x s).sheaf = s.sheaf ∧ (addRead x s).dom = s.dom ∧ (addRead x s).pins = s.pins ∧ (addRead x s).boot = s.boot ∧ (addRead x s).tdi = s.tdi ∧ (addRead x s).ac = s.ac ∧ (addRead x s).vt = s.vt ∧ (addRead x s).free = s.free ∧ (addRead x s).out = s.out ∧ (addRead x s).pending = s.pending :=
  have k : Off (fun p => p == .mem) s (addRead x s) := addRead_keeps (Off.keeps _ _) rfl .refl
  ⟨k.clk rfl, k.rcv rfl, k.icu rfl, k.obs rfl, k.sen rfl, k.tamperIn rfl, k.cex rfl, k.xlt rfl, k.srg rfl, k.ods rfl, k.vault rfl, k.kst rfl, k.engKeys rfl, k.kwe rfl, k.pke rfl, k.ent rfl, k.atu rfl, k.lcc rfl, k.link rfl, k.sheaf rfl, k.dom rfl, k.pins rfl, k.boot rfl, k.tdi rfl, k.ac rfl, k.vt rfl, k.free rfl, k.out rfl, k.pending rfl⟩

@[simp] theorem poison_same {x : MemRead} {s : State} :
    (poison x s).clk = s.clk ∧ (poison x s).rcv = s.rcv ∧ (poison x s).icu = s.icu ∧ (poison x s).obs = s.obs ∧ (poison x s).sen = s.sen ∧ (poison x s).tamperIn = s.tamperIn ∧ (poison x s).cex = s.cex ∧ (poison x s).xlt = s.xlt ∧ (poison x s).srg = s.srg ∧ (poison x s).ods = s.ods ∧ (poison x s).vault = s.vault ∧ (poison x s).kst = s.kst ∧ (poison x s).engKeys = s.engKeys ∧ (poison x s).kwe = s.kwe ∧ (poison x s).pke = s.pke ∧ (poison x s).ent = s.ent ∧ (poison x s).atu = s.atu ∧ (poison x s).lcc = s.lcc ∧ (poison x s).link = s.link ∧ (poison x s).sheaf = s.sheaf ∧ (poison x s).dom = s.dom ∧ (poison x s).pins = s.pins ∧ (poison x s).boot = s.boot ∧ (poison x s).tdi = s.tdi ∧ (poison x s).ac = s.ac ∧ (poison x s).vt = s.vt ∧ (poison x s).free = s.free ∧ (poison x s).pending = s.pending :=
  have k : Off (fun p => p == .mem || p == .out) s (poison x s) := poison_keeps (Off.keeps _ _) rfl rfl .refl
  ⟨k.clk rfl, k.rcv rfl, k.icu rfl, k.obs rfl, k.sen rfl, k.tamperIn rfl, k.cex rfl, k.xlt rfl, k.srg rfl, k.ods rfl, k.vault rfl, k.kst rfl, k.engKeys rfl, k.kwe rfl, k.pke rfl, k.ent rfl, k.atu rfl, k.lcc rfl, k.link rfl, k.sheaf rfl, k.dom rfl, k.pins rfl, k.boot rfl, k.tdi rfl, k.ac rfl, k.vt rfl, k.free rfl, k.pending rfl⟩

@[simp] theorem dropReads_same {p : MemRead → Bool} {s : State} :
    (dropReads p s).clk = s.clk ∧ (dropReads p s).rcv = s.rcv ∧ (dropReads p s).icu = s.icu ∧ (dropReads p s).obs = s.obs ∧ (dropReads p s).sen = s.sen ∧ (dropReads p s).tamperIn = s.tamperIn ∧ (dropReads p s).cex = s.cex ∧ (dropReads p s).xlt = s.xlt ∧ (dropReads p s).srg = s.srg ∧ (dropReads p s).ods = s.ods ∧ (dropReads p s).vault = s.vault ∧ (dropReads p s).kst = s.kst ∧ (dropReads p s).engKeys = s.engKeys ∧ (dropReads p s).kwe = s.kwe ∧ (dropReads p s).pke = s.pke ∧ (dropReads p s).ent = s.ent ∧ (dropReads p s).atu = s.atu ∧ (dropReads p s).lcc = s.lcc ∧ (dropReads p s).link = s.link ∧ (dropReads p s).sheaf = s.sheaf ∧ (dropReads p s).dom = s.dom ∧ (dropReads p s).pins = s.pins ∧ (dropReads p s).boot = s.boot ∧ (dropReads p s).tdi = s.tdi ∧ (dropReads p s).ac = s.ac ∧ (dropReads p s).vt = s.vt ∧ (dropReads p s).free = s.free ∧ (dropReads p s).out = s.out ∧ (dropReads p s).pending = s.pending :=
  have k : Off (fun p => p == .mem) s (dropReads p s) := dropReads_keeps (Off.keeps _ _) rfl .refl
  ⟨k.clk rfl, k.rcv rfl, k.icu rfl, k.obs rfl, k.sen rfl, k.tamperIn rfl, k.cex rfl, k.xlt rfl, k.srg rfl, k.ods rfl, k.vault rfl, k.kst rfl, k.engKeys rfl, k.kwe rfl, k.pke rfl, k.ent rfl, k.atu rfl, k.lcc rfl, k.link rfl, k.sheaf rfl, k.dom rfl, k.pins rfl, k.boot rfl, k.tdi rfl, k.ac rfl, k.vt rfl, k.free rfl, k.out rfl, k.pending rfl⟩

@[simp] theorem putEngKey_same {cls ix : Nat} {key : BitVec 256} {slot : Option Nat} {s : State} :
    (putEngKey cls ix key slot s).clk = s.clk ∧ (putEngKey cls ix key slot s).rcv = s.rcv ∧ (putEngKey cls ix key slot s).icu = s.icu ∧ (putEngKey cls ix key slot s).obs = s.obs ∧ (putEngKey cls ix key slot s).sen = s.sen ∧ (putEngKey cls ix key slot s).tamperIn = s.tamperIn ∧ (putEngKey cls ix key slot s).cex = s.cex ∧ (putEngKey cls ix key slot s).xlt = s.xlt ∧ (putEngKey cls ix key slot s).srg = s.srg ∧ (putEngKey cls ix key slot s).ods = s.ods ∧ (putEngKey cls ix key slot s).vault = s.vault ∧ (putEngKey cls ix key slot s).kst = s.kst ∧ (putEngKey cls ix key slot s).kwe = s.kwe ∧ (putEngKey cls ix key slot s).pke = s.pke ∧ (putEngKey cls ix key slot s).ent = s.ent ∧ (putEngKey cls ix key slot s).atu = s.atu ∧ (putEngKey cls ix key slot s).lcc = s.lcc ∧ (putEngKey cls ix key slot s).mem = s.mem ∧ (putEngKey cls ix key slot s).link = s.link ∧ (putEngKey cls ix key slot s).sheaf = s.sheaf ∧ (putEngKey cls ix key slot s).dom = s.dom ∧ (putEngKey cls ix key slot s).pins = s.pins ∧ (putEngKey cls ix key slot s).boot = s.boot ∧ (putEngKey cls ix key slot s).tdi = s.tdi ∧ (putEngKey cls ix key slot s).ac = s.ac ∧ (putEngKey cls ix key slot s).vt = s.vt ∧ (putEngKey cls ix key slot s).free = s.free ∧ (putEngKey cls ix key slot s).out = s.out ∧ (putEngKey cls ix key slot s).pending = s.pending :=
  have k : Off (fun p => p == .engKeys) s (putEngKey cls ix key slot s) := putEngKey_keeps (Off.keeps _ _) rfl .refl
  ⟨k.clk rfl, k.rcv rfl, k.icu rfl, k.obs rfl, k.sen rfl, k.tamperIn rfl, k.cex rfl, k.xlt rfl, k.srg rfl, k.ods rfl, k.vault rfl, k.kst rfl, k.kwe rfl, k.pke rfl, k.ent rfl, k.atu rfl, k.lcc rfl, k.mem rfl, k.link rfl, k.sheaf rfl, k.dom rfl, k.pins rfl, k.boot rfl, k.tdi rfl, k.ac rfl, k.vt rfl, k.free rfl, k.out rfl, k.pending rfl⟩

@[simp] theorem updRead_same {q : Nat} {f : MemRead → MemRead} {s : State} :
    (updRead q f s).clk = s.clk ∧ (updRead q f s).rcv = s.rcv ∧ (updRead q f s).icu = s.icu ∧ (updRead q f s).obs = s.obs ∧ (updRead q f s).sen = s.sen ∧ (updRead q f s).tamperIn = s.tamperIn ∧ (updRead q f s).cex = s.cex ∧ (updRead q f s).xlt = s.xlt ∧ (updRead q f s).srg = s.srg ∧ (updRead q f s).ods = s.ods ∧ (updRead q f s).vault = s.vault ∧ (updRead q f s).kst = s.kst ∧ (updRead q f s).engKeys = s.engKeys ∧ (updRead q f s).kwe = s.kwe ∧ (updRead q f s).pke = s.pke ∧ (updRead q f s).ent = s.ent ∧ (updRead q f s).atu = s.atu ∧ (updRead q f s).lcc = s.lcc ∧ (updRead q f s).link = s.link ∧ (updRead q f s).sheaf = s.sheaf ∧ (updRead q f s).dom = s.dom ∧ (updRead q f s).pins = s.pins ∧ (updRead q f s).boot = s.boot ∧ (updRead q f s).tdi = s.tdi ∧ (updRead q f s).ac = s.ac ∧ (updRead q f s).vt = s.vt ∧ (updRead q f s).free = s.free ∧ (updRead q f s).out = s.out ∧ (updRead q f s).pending = s.pending :=
  have k : Off (fun p => p == .mem) s (updRead q f s) := updRead_keeps (Off.keeps _ _) rfl .refl
  ⟨k.clk rfl, k.rcv rfl, k.icu rfl, k.obs rfl, k.sen rfl, k.tamperIn rfl, k.cex rfl, k.xlt rfl, k.srg rfl, k.ods rfl, k.vault rfl, k.kst rfl, k.engKeys rfl, k.kwe rfl, k.pke rfl, k.ent rfl, k.atu rfl, k.lcc rfl, k.link rfl, k.sheaf rfl, k.dom rfl, k.pins rfl, k.boot rfl, k.tdi rfl, k.ac rfl, k.vt rfl, k.free rfl, k.out rfl, k.pending rfl⟩

@[simp] theorem issueRead_same {x : MemRead} {s : State} :
    (issueRead x s).clk = s.clk ∧ (issueRead x s).rcv = s.rcv ∧ (issueRead x s).icu = s.icu ∧ (issueRead x s).obs = s.obs ∧ (issueRead x s).sen = s.sen ∧ (issueRead x s).tamperIn = s.tamperIn ∧ (issueRead x s).cex = s.cex ∧ (issueRead x s).xlt = s.xlt ∧ (issueRead x s).srg = s.srg ∧ (issueRead x s).ods = s.ods ∧ (issueRead x s).vault = s.vault ∧ (issueRead x s).kst = s.kst ∧ (issueRead x s).engKeys = s.engKeys ∧ (issueRead x s).kwe = s.kwe ∧ (issueRead x s).pke = s.pke ∧ (issueRead x s).ent = s.ent ∧ (issueRead x s).atu = s.atu ∧ (issueRead x s).lcc = s.lcc ∧ (issueRead x s).link = s.link ∧ (issueRead x s).sheaf = s.sheaf ∧ (issueRead x s).dom = s.dom ∧ (issueRead x s).pins = s.pins ∧ (issueRead x s).boot = s.boot ∧ (issueRead x s).tdi = s.tdi ∧ (issueRead x s).ac = s.ac ∧ (issueRead x s).vt = s.vt ∧ (issueRead x s).free = s.free ∧ (issueRead x s).out = s.out ∧ (issueRead x s).pending = s.pending :=
  have k : Off (fun p => p == .mem) s (issueRead x s) := issueRead_keeps (Off.keeps _ _) rfl .refl
  ⟨k.clk rfl, k.rcv rfl, k.icu rfl, k.obs rfl, k.sen rfl, k.tamperIn rfl, k.cex rfl, k.xlt rfl, k.srg rfl, k.ods rfl, k.vault rfl, k.kst rfl, k.engKeys rfl, k.kwe rfl, k.pke rfl, k.ent rfl, k.atu rfl, k.lcc rfl, k.link rfl, k.sheaf rfl, k.dom rfl, k.pins rfl, k.boot rfl, k.tdi rfl, k.ac rfl, k.vt rfl, k.free rfl, k.out rfl, k.pending rfl⟩

@[simp] theorem startRead_same {x : MemRead} {s : State} :
    (startRead x s).clk = s.clk ∧ (startRead x s).rcv = s.rcv ∧ (startRead x s).icu = s.icu ∧ (startRead x s).obs = s.obs ∧ (startRead x s).sen = s.sen ∧ (startRead x s).tamperIn = s.tamperIn ∧ (startRead x s).cex = s.cex ∧ (startRead x s).xlt = s.xlt ∧ (startRead x s).srg = s.srg ∧ (startRead x s).ods = s.ods ∧ (startRead x s).vault = s.vault ∧ (startRead x s).kst = s.kst ∧ (startRead x s).engKeys = s.engKeys ∧ (startRead x s).kwe = s.kwe ∧ (startRead x s).pke = s.pke ∧ (startRead x s).ent = s.ent ∧ (startRead x s).atu = s.atu ∧ (startRead x s).lcc = s.lcc ∧ (startRead x s).link = s.link ∧ (startRead x s).sheaf = s.sheaf ∧ (startRead x s).dom = s.dom ∧ (startRead x s).pins = s.pins ∧ (startRead x s).boot = s.boot ∧ (startRead x s).tdi = s.tdi ∧ (startRead x s).ac = s.ac ∧ (startRead x s).vt = s.vt ∧ (startRead x s).free = s.free ∧ (startRead x s).out = s.out ∧ (startRead x s).pending = s.pending :=
  have k : Off (fun p => p == .mem) s (startRead x s) := startRead_keeps (Off.keeps _ _) rfl .refl
  ⟨k.clk rfl, k.rcv rfl, k.icu rfl, k.obs rfl, k.sen rfl, k.tamperIn rfl, k.cex rfl, k.xlt rfl, k.srg rfl, k.ods rfl, k.vault rfl, k.kst rfl, k.engKeys rfl, k.kwe rfl, k.pke rfl, k.ent rfl, k.atu rfl, k.lcc rfl, k.link rfl, k.sheaf rfl, k.dom rfl, k.pins rfl, k.boot rfl, k.tdi rfl, k.ac rfl, k.vt rfl, k.free rfl, k.out rfl, k.pending rfl⟩

@[simp] theorem dropScrubs_same {ln : Nat} {s : State} :
    (dropScrubs ln s).clk = s.clk ∧ (dropScrubs ln s).rcv = s.rcv ∧ (dropScrubs ln s).icu = s.icu ∧ (dropScrubs ln s).obs = s.obs ∧ (dropScrubs ln s).sen = s.sen ∧ (dropScrubs ln s).tamperIn = s.tamperIn ∧ (dropScrubs ln s).cex = s.cex ∧ (dropScrubs ln s).xlt = s.xlt ∧ (dropScrubs ln s).srg = s.srg ∧ (dropScrubs ln s).ods = s.ods ∧ (dropScrubs ln s).vault = s.vault ∧ (dropScrubs ln s).kst = s.kst ∧ (dropScrubs ln s).engKeys = s.engKeys ∧ (dropScrubs ln s).kwe = s.kwe ∧ (dropScrubs ln s).pke = s.pke ∧ (dropScrubs ln s).ent = s.ent ∧ (dropScrubs ln s).atu = s.atu ∧ (dropScrubs ln s).lcc = s.lcc ∧ (dropScrubs ln s).link = s.link ∧ (dropScrubs ln s).sheaf = s.sheaf ∧ (dropScrubs ln s).dom = s.dom ∧ (dropScrubs ln s).pins = s.pins ∧ (dropScrubs ln s).boot = s.boot ∧ (dropScrubs ln s).tdi = s.tdi ∧ (dropScrubs ln s).ac = s.ac ∧ (dropScrubs ln s).vt = s.vt ∧ (dropScrubs ln s).free = s.free ∧ (dropScrubs ln s).out = s.out ∧ (dropScrubs ln s).pending = s.pending :=
  have k : Off (fun p => p == .mem) s (dropScrubs ln s) := dropScrubs_keeps (Off.keeps _ _) rfl .refl
  ⟨k.clk rfl, k.rcv rfl, k.icu rfl, k.obs rfl, k.sen rfl, k.tamperIn rfl, k.cex rfl, k.xlt rfl, k.srg rfl, k.ods rfl, k.vault rfl, k.kst rfl, k.engKeys rfl, k.kwe rfl, k.pke rfl, k.ent rfl, k.atu rfl, k.lcc rfl, k.link rfl, k.sheaf rfl, k.dom rfl, k.pins rfl, k.boot rfl, k.tdi rfl, k.ac rfl, k.vt rfl, k.free rfl, k.out rfl, k.pending rfl⟩

@[simp] theorem storeProtected_same {e r : Nat} {newer plough : Bool} {ln mode v : Nat} {p : Line} {s : State} :
    (storeProtected e r newer plough ln mode v p s).clk = s.clk ∧ (storeProtected e r newer plough ln mode v p s).rcv = s.rcv ∧ (storeProtected e r newer plough ln mode v p s).icu = s.icu ∧ (storeProtected e r newer plough ln mode v p s).obs = s.obs ∧ (storeProtected e r newer plough ln mode v p s).sen = s.sen ∧ (storeProtected e r newer plough ln mode v p s).tamperIn = s.tamperIn ∧ (storeProtected e r newer plough ln mode v p s).cex = s.cex ∧ (storeProtected e r newer plough ln mode v p s).xlt = s.xlt ∧ (storeProtected e r newer plough ln mode v p s).srg = s.srg ∧ (storeProtected e r newer plough ln mode v p s).ods = s.ods ∧ (storeProtected e r newer plough ln mode v p s).vault = s.vault ∧ (storeProtected e r newer plough ln mode v p s).kst = s.kst ∧ (storeProtected e r newer plough ln mode v p s).engKeys = s.engKeys ∧ (storeProtected e r newer plough ln mode v p s).kwe = s.kwe ∧ (storeProtected e r newer plough ln mode v p s).pke = s.pke ∧ (storeProtected e r newer plough ln mode v p s).ent = s.ent ∧ (storeProtected e r newer plough ln mode v p s).atu = s.atu ∧ (storeProtected e r newer plough ln mode v p s).lcc = s.lcc ∧ (storeProtected e r newer plough ln mode v p s).link = s.link ∧ (storeProtected e r newer plough ln mode v p s).sheaf = s.sheaf ∧ (storeProtected e r newer plough ln mode v p s).dom = s.dom ∧ (storeProtected e r newer plough ln mode v p s).pins = s.pins ∧ (storeProtected e r newer plough ln mode v p s).boot = s.boot ∧ (storeProtected e r newer plough ln mode v p s).tdi = s.tdi ∧ (storeProtected e r newer plough ln mode v p s).ac = s.ac ∧ (storeProtected e r newer plough ln mode v p s).vt = s.vt ∧ (storeProtected e r newer plough ln mode v p s).free = s.free ∧ (storeProtected e r newer plough ln mode v p s).out = s.out ∧ (storeProtected e r newer plough ln mode v p s).pending = s.pending :=
  have k : Off (fun p => p == .mem) s (storeProtected e r newer plough ln mode v p s) := storeProtected_keeps (Off.keeps _ _) rfl .refl
  ⟨k.clk rfl, k.rcv rfl, k.icu rfl, k.obs rfl, k.sen rfl, k.tamperIn rfl, k.cex rfl, k.xlt rfl, k.srg rfl, k.ods rfl, k.vault rfl, k.kst rfl, k.engKeys rfl, k.kwe rfl, k.pke rfl, k.ent rfl, k.atu rfl, k.lcc rfl, k.link rfl, k.sheaf rfl, k.dom rfl, k.pins rfl, k.boot rfl, k.tdi rfl, k.ac rfl, k.vt rfl, k.free rfl, k.out rfl, k.pending rfl⟩

@[simp] theorem loadKey_same {cls ix : Nat} {key : BitVec 256} {slot : Option Nat} {s : State} :
    (loadKey cls ix key slot s).clk = s.clk ∧ (loadKey cls ix key slot s).rcv = s.rcv ∧ (loadKey cls ix key slot s).icu = s.icu ∧ (loadKey cls ix key slot s).obs = s.obs ∧ (loadKey cls ix key slot s).sen = s.sen ∧ (loadKey cls ix key slot s).tamperIn = s.tamperIn ∧ (loadKey cls ix key slot s).cex = s.cex ∧ (loadKey cls ix key slot s).xlt = s.xlt ∧ (loadKey cls ix key slot s).srg = s.srg ∧ (loadKey cls ix key slot s).ods = s.ods ∧ (loadKey cls ix key slot s).vault = s.vault ∧ (loadKey cls ix key slot s).kst = s.kst ∧ (loadKey cls ix key slot s).pke = s.pke ∧ (loadKey cls ix key slot s).atu = s.atu ∧ (loadKey cls ix key slot s).lcc = s.lcc ∧ (loadKey cls ix key slot s).mem = s.mem ∧ (loadKey cls ix key slot s).link = s.link ∧ (loadKey cls ix key slot s).sheaf = s.sheaf ∧ (loadKey cls ix key slot s).dom = s.dom ∧ (loadKey cls ix key slot s).pins = s.pins ∧ (loadKey cls ix key slot s).boot = s.boot ∧ (loadKey cls ix key slot s).tdi = s.tdi ∧ (loadKey cls ix key slot s).ac = s.ac ∧ (loadKey cls ix key slot s).vt = s.vt ∧ (loadKey cls ix key slot s).free = s.free ∧ (loadKey cls ix key slot s).out = s.out ∧ (loadKey cls ix key slot s).pending = s.pending :=
  have k : Off (fun p => p == .engKeys || p == .kwe || p == .ent) s (loadKey cls ix key slot s) := loadKey_keeps (Off.keeps _ _) rfl rfl rfl .refl
  ⟨k.clk rfl, k.rcv rfl, k.icu rfl, k.obs rfl, k.sen rfl, k.tamperIn rfl, k.cex rfl, k.xlt rfl, k.srg rfl, k.ods rfl, k.vault rfl, k.kst rfl, k.pke rfl, k.atu rfl, k.lcc rfl, k.mem rfl, k.link rfl, k.sheaf rfl, k.dom rfl, k.pins rfl, k.boot rfl, k.tdi rfl, k.ac rfl, k.vt rfl, k.free rfl, k.out rfl, k.pending rfl⟩

@[simp] theorem updRegion_same {r : Nat} {f : Region → Region} {s : State} :
    (updRegion r f s).clk = s.clk ∧ (updRegion r f s).rcv = s.rcv ∧ (updRegion r f s).icu = s.icu ∧ (updRegion r f s).obs = s.obs ∧ (updRegion r f s).sen = s.sen ∧ (updRegion r f s).tamperIn = s.tamperIn ∧ (updRegion r f s).cex = s.cex ∧ (updRegion r f s).xlt = s.xlt ∧ (updRegion r f s).srg = s.srg ∧ (updRegion r f s).ods = s.ods ∧ (updRegion r f s).vault = s.vault ∧ (updRegion r f s).kst = s.kst ∧ (updRegion r f s).engKeys = s.engKeys ∧ (updRegion r f s).kwe = s.kwe ∧ (updRegion r f s).pke = s.pke ∧ (updRegion r f s).ent = s.ent ∧ (updRegion r f s).atu = s.atu ∧ (updRegion r f s).lcc = s.lcc ∧ (updRegion r f s).link = s.link ∧ (updRegion r f s).sheaf = s.sheaf ∧ (updRegion r f s).dom = s.dom ∧ (updRegion r f s).pins = s.pins ∧ (updRegion r f s).boot = s.boot ∧ (updRegion r f s).tdi = s.tdi ∧ (updRegion r f s).ac = s.ac ∧ (updRegion r f s).vt = s.vt ∧ (updRegion r f s).free = s.free ∧ (updRegion r f s).out = s.out ∧ (updRegion r f s).pending = s.pending :=
  have k : Off (fun p => p == .mem) s (updRegion r f s) := updRegion_keeps (Off.keeps _ _) rfl .refl
  ⟨k.clk rfl, k.rcv rfl, k.icu rfl, k.obs rfl, k.sen rfl, k.tamperIn rfl, k.cex rfl, k.xlt rfl, k.srg rfl, k.ods rfl, k.vault rfl, k.kst rfl, k.engKeys rfl, k.kwe rfl, k.pke rfl, k.ent rfl, k.atu rfl, k.lcc rfl, k.link rfl, k.sheaf rfl, k.dom rfl, k.pins rfl, k.boot rfl, k.tdi rfl, k.ac rfl, k.vt rfl, k.free rfl, k.out rfl, k.pending rfl⟩

@[simp] theorem mcCount_same {e sub n : Nat} {s : State} :
    (mcCount e sub n s).clk = s.clk ∧ (mcCount e sub n s).rcv = s.rcv ∧ (mcCount e sub n s).icu = s.icu ∧ (mcCount e sub n s).obs = s.obs ∧ (mcCount e sub n s).sen = s.sen ∧ (mcCount e sub n s).tamperIn = s.tamperIn ∧ (mcCount e sub n s).cex = s.cex ∧ (mcCount e sub n s).xlt = s.xlt ∧ (mcCount e sub n s).srg = s.srg ∧ (mcCount e sub n s).ods = s.ods ∧ (mcCount e sub n s).vault = s.vault ∧ (mcCount e sub n s).kst = s.kst ∧ (mcCount e sub n s).engKeys = s.engKeys ∧ (mcCount e sub n s).kwe = s.kwe ∧ (mcCount e sub n s).pke = s.pke ∧ (mcCount e sub n s).ent = s.ent ∧ (mcCount e sub n s).atu = s.atu ∧ (mcCount e sub n s).lcc = s.lcc ∧ (mcCount e sub n s).link = s.link ∧ (mcCount e sub n s).sheaf = s.sheaf ∧ (mcCount e sub n s).dom = s.dom ∧ (mcCount e sub n s).pins = s.pins ∧ (mcCount e sub n s).boot = s.boot ∧ (mcCount e sub n s).tdi = s.tdi ∧ (mcCount e sub n s).ac = s.ac ∧ (mcCount e sub n s).vt = s.vt ∧ (mcCount e sub n s).free = s.free ∧ (mcCount e sub n s).out = s.out ∧ (mcCount e sub n s).pending = s.pending :=
  have k : Off (fun p => p == .mem) s (mcCount e sub n s) := mcCount_keeps (Off.keeps _ _) rfl .refl
  ⟨k.clk rfl, k.rcv rfl, k.icu rfl, k.obs rfl, k.sen rfl, k.tamperIn rfl, k.cex rfl, k.xlt rfl, k.srg rfl, k.ods rfl, k.vault rfl, k.kst rfl, k.engKeys rfl, k.kwe rfl, k.pke rfl, k.ent rfl, k.atu rfl, k.lcc rfl, k.link rfl, k.sheaf rfl, k.dom rfl, k.pins rfl, k.boot rfl, k.tdi rfl, k.ac rfl, k.vt rfl, k.free rfl, k.out rfl, k.pending rfl⟩

@[simp] theorem readLog_same {cls : Nat} {x : MemRead} {status cands : Nat} {s : State} :
    (readLog cls x status cands s).clk = s.clk ∧ (readLog cls x status cands s).sen = s.sen ∧ (readLog cls x status cands s).tamperIn = s.tamperIn ∧ (readLog cls x status cands s).cex = s.cex ∧ (readLog cls x status cands s).xlt = s.xlt ∧ (readLog cls x status cands s).srg = s.srg ∧ (readLog cls x status cands s).ods = s.ods ∧ (readLog cls x status cands s).vault = s.vault ∧ (readLog cls x status cands s).kst = s.kst ∧ (readLog cls x status cands s).engKeys = s.engKeys ∧ (readLog cls x status cands s).kwe = s.kwe ∧ (readLog cls x status cands s).pke = s.pke ∧ (readLog cls x status cands s).ent = s.ent ∧ (readLog cls x status cands s).atu = s.atu ∧ (readLog cls x status cands s).lcc = s.lcc ∧ (readLog cls x status cands s).mem = s.mem ∧ (readLog cls x status cands s).link = s.link ∧ (readLog cls x status cands s).sheaf = s.sheaf ∧ (readLog cls x status cands s).dom = s.dom ∧ (readLog cls x status cands s).pins = s.pins ∧ (readLog cls x status cands s).boot = s.boot ∧ (readLog cls x status cands s).tdi = s.tdi ∧ (readLog cls x status cands s).ac = s.ac ∧ (readLog cls x status cands s).vt = s.vt ∧ (readLog cls x status cands s).free = s.free ∧ (readLog cls x status cands s).pending = s.pending :=
  have k : Off (fun p => p == .rcv || p == .icu || p == .obs || p == .out) s (readLog cls x status cands s) := readLog_keeps (Off.keeps _ _) rfl rfl rfl rfl .refl
  ⟨k.clk rfl, k.sen rfl, k.tamperIn rfl, k.cex rfl, k.xlt rfl, k.srg rfl, k.ods rfl, k.vault rfl, k.kst rfl, k.engKeys rfl, k.kwe rfl, k.pke rfl, k.ent rfl, k.atu rfl, k.lcc rfl, k.mem rfl, k.link rfl, k.sheaf rfl, k.dom rfl, k.pins rfl, k.boot rfl, k.tdi rfl, k.ac rfl, k.vt rfl, k.free rfl, k.pending rfl⟩

@[simp] theorem settleGw_same {s : State} :
    (settleGw s).clk = s.clk ∧ (settleGw s).rcv = s.rcv ∧ (settleGw s).icu = s.icu ∧ (settleGw s).obs = s.obs ∧ (settleGw s).sen = s.sen ∧ (settleGw s).tamperIn = s.tamperIn ∧ (settleGw s).cex = s.cex ∧ (settleGw s).xlt = s.xlt ∧ (settleGw s).srg = s.srg ∧ (settleGw s).ods = s.ods ∧ (settleGw s).vault = s.vault ∧ (settleGw s).kst = s.kst ∧ (settleGw s).engKeys = s.engKeys ∧ (settleGw s).kwe = s.kwe ∧ (settleGw s).pke = s.pke ∧ (settleGw s).ent = s.ent ∧ (settleGw s).atu = s.atu ∧ (settleGw s).lcc = s.lcc ∧ (settleGw s).mem = s.mem ∧ (settleGw s).sheaf = s.sheaf ∧ (settleGw s).dom = s.dom ∧ (settleGw s).pins = s.pins ∧ (settleGw s).boot = s.boot ∧ (settleGw s).tdi = s.tdi ∧ (settleGw s).ac = s.ac ∧ (settleGw s).vt = s.vt ∧ (settleGw s).free = s.free ∧ (settleGw s).pending = s.pending :=
  have k : Off (fun p => p == .link || p == .out) s (settleGw s) := settleGw_keeps (Off.keeps _ _) rfl rfl .refl
  ⟨k.clk rfl, k.rcv rfl, k.icu rfl, k.obs rfl, k.sen rfl, k.tamperIn rfl, k.cex rfl, k.xlt rfl, k.srg rfl, k.ods rfl, k.vault rfl, k.kst rfl, k.engKeys rfl, k.kwe rfl, k.pke rfl, k.ent rfl, k.atu rfl, k.lcc rfl, k.mem rfl, k.sheaf rfl, k.dom rfl, k.pins rfl, k.boot rfl, k.tdi rfl, k.ac rfl, k.vt rfl, k.free rfl, k.pending rfl⟩

@[simp] theorem putGroup_same {port sl : Nat} {gsh descs cipher trailer : Bytes} {s : State} :
    (putGroup port sl gsh descs cipher trailer s).clk = s.clk ∧ (putGroup port sl gsh descs cipher trailer s).rcv = s.rcv ∧ (putGroup port sl gsh descs cipher trailer s).icu = s.icu ∧ (putGroup port sl gsh descs cipher trailer s).obs = s.obs ∧ (putGroup port sl gsh descs cipher trailer s).sen = s.sen ∧ (putGroup port sl gsh descs cipher trailer s).tamperIn = s.tamperIn ∧ (putGroup port sl gsh descs cipher trailer s).cex = s.cex ∧ (putGroup port sl gsh descs cipher trailer s).xlt = s.xlt ∧ (putGroup port sl gsh descs cipher trailer s).srg = s.srg ∧ (putGroup port sl gsh descs cipher trailer s).ods = s.ods ∧ (putGroup port sl gsh descs cipher trailer s).vault = s.vault ∧ (putGroup port sl gsh descs cipher trailer s).kst = s.kst ∧ (putGroup port sl gsh descs cipher trailer s).engKeys = s.engKeys ∧ (putGroup port sl gsh descs cipher trailer s).kwe = s.kwe ∧ (putGroup port sl gsh descs cipher trailer s).pke = s.pke ∧ (putGroup port sl gsh descs cipher trailer s).ent = s.ent ∧ (putGroup port sl gsh descs cipher trailer s).atu = s.atu ∧ (putGroup port sl gsh descs cipher trailer s).lcc = s.lcc ∧ (putGroup port sl gsh descs cipher trailer s).mem = s.mem ∧ (putGroup port sl gsh descs cipher trailer s).sheaf = s.sheaf ∧ (putGroup port sl gsh descs cipher trailer s).dom = s.dom ∧ (putGroup port sl gsh descs cipher trailer s).pins = s.pins ∧ (putGroup port sl gsh descs cipher trailer s).boot = s.boot ∧ (putGroup port sl gsh descs cipher trailer s).tdi = s.tdi ∧ (putGroup port sl gsh descs cipher trailer s).ac = s.ac ∧ (putGroup port sl gsh descs cipher trailer s).vt = s.vt ∧ (putGroup port sl gsh descs cipher trailer s).free = s.free ∧ (putGroup port sl gsh descs cipher trailer s).pending = s.pending :=
  have k : Off (fun p => p == .link || p == .out) s (putGroup port sl gsh descs cipher trailer s) := putGroup_keeps (Off.keeps _ _) rfl rfl .refl
  ⟨k.clk rfl, k.rcv rfl, k.icu rfl, k.obs rfl, k.sen rfl, k.tamperIn rfl, k.cex rfl, k.xlt rfl, k.srg rfl, k.ods rfl, k.vault rfl, k.kst rfl, k.engKeys rfl, k.kwe rfl, k.pke rfl, k.ent rfl, k.atu rfl, k.lcc rfl, k.mem rfl, k.sheaf rfl, k.dom rfl, k.pins rfl, k.boot rfl, k.tdi rfl, k.ac rfl, k.vt rfl, k.free rfl, k.pending rfl⟩

@[simp] theorem updPort_same {p : Nat} {f : Port → Port} {s : State} :
    (updPort p f s).clk = s.clk ∧ (updPort p f s).rcv = s.rcv ∧ (updPort p f s).icu = s.icu ∧ (updPort p f s).obs = s.obs ∧ (updPort p f s).sen = s.sen ∧ (updPort p f s).tamperIn = s.tamperIn ∧ (updPort p f s).cex = s.cex ∧ (updPort p f s).xlt = s.xlt ∧ (updPort p f s).srg = s.srg ∧ (updPort p f s).ods = s.ods ∧ (updPort p f s).vault = s.vault ∧ (updPort p f s).kst = s.kst ∧ (updPort p f s).engKeys = s.engKeys ∧ (updPort p f s).kwe = s.kwe ∧ (updPort p f s).pke = s.pke ∧ (updPort p f s).ent = s.ent ∧ (updPort p f s).atu = s.atu ∧ (updPort p f s).lcc = s.lcc ∧ (updPort p f s).mem = s.mem ∧ (updPort p f s).sheaf = s.sheaf ∧ (updPort p f s).dom = s.dom ∧ (updPort p f s).pins = s.pins ∧ (updPort p f s).boot = s.boot ∧ (updPort p f s).tdi = s.tdi ∧ (updPort p f s).ac = s.ac ∧ (updPort p f s).vt = s.vt ∧ (updPort p f s).free = s.free ∧ (updPort p f s).out = s.out ∧ (updPort p f s).pending = s.pending :=
  have k : Off (fun p => p == .link) s (updPort p f s) := updPort_keeps (Off.keeps _ _) rfl .refl
  ⟨k.clk rfl, k.rcv rfl, k.icu rfl, k.obs rfl, k.sen rfl, k.tamperIn rfl, k.cex rfl, k.xlt rfl, k.srg rfl, k.ods rfl, k.vault rfl, k.kst rfl, k.engKeys rfl, k.kwe rfl, k.pke rfl, k.ent rfl, k.atu rfl, k.lcc rfl, k.mem rfl, k.sheaf rfl, k.dom rfl, k.pins rfl, k.boot rfl, k.tdi rfl, k.ac rfl, k.vt rfl, k.free rfl, k.out rfl, k.pending rfl⟩

@[simp] theorem portCount_same {p sub n : Nat} {s : State} :
    (portCount p sub n s).clk = s.clk ∧ (portCount p sub n s).rcv = s.rcv ∧ (portCount p sub n s).icu = s.icu ∧ (portCount p sub n s).obs = s.obs ∧ (portCount p sub n s).sen = s.sen ∧ (portCount p sub n s).tamperIn = s.tamperIn ∧ (portCount p sub n s).cex = s.cex ∧ (portCount p sub n s).xlt = s.xlt ∧ (portCount p sub n s).srg = s.srg ∧ (portCount p sub n s).ods = s.ods ∧ (portCount p sub n s).vault = s.vault ∧ (portCount p sub n s).kst = s.kst ∧ (portCount p sub n s).engKeys = s.engKeys ∧ (portCount p sub n s).kwe = s.kwe ∧ (portCount p sub n s).pke = s.pke ∧ (portCount p sub n s).ent = s.ent ∧ (portCount p sub n s).atu = s.atu ∧ (portCount p sub n s).lcc = s.lcc ∧ (portCount p sub n s).mem = s.mem ∧ (portCount p sub n s).sheaf = s.sheaf ∧ (portCount p sub n s).dom = s.dom ∧ (portCount p sub n s).pins = s.pins ∧ (portCount p sub n s).boot = s.boot ∧ (portCount p sub n s).tdi = s.tdi ∧ (portCount p sub n s).ac = s.ac ∧ (portCount p sub n s).vt = s.vt ∧ (portCount p sub n s).free = s.free ∧ (portCount p sub n s).out = s.out ∧ (portCount p sub n s).pending = s.pending :=
  have k : Off (fun p => p == .link) s (portCount p sub n s) := portCount_keeps (Off.keeps _ _) rfl .refl
  ⟨k.clk rfl, k.rcv rfl, k.icu rfl, k.obs rfl, k.sen rfl, k.tamperIn rfl, k.cex rfl, k.xlt rfl, k.srg rfl, k.ods rfl, k.vault rfl, k.kst rfl, k.engKeys rfl, k.kwe rfl, k.pke rfl, k.ent rfl, k.atu rfl, k.lcc rfl, k.mem rfl, k.sheaf rfl, k.dom rfl, k.pins rfl, k.boot rfl, k.tdi rfl, k.ac rfl, k.vt rfl, k.free rfl, k.out rfl, k.pending rfl⟩

@[simp] theorem sendPlain_same {sl dest : Nat} {payload : Bytes} {s : State} :
    (sendPlain sl dest payload s).clk = s.clk ∧ (sendPlain sl dest payload s).rcv = s.rcv ∧ (sendPlain sl dest payload s).icu = s.icu ∧ (sendPlain sl dest payload s).obs = s.obs ∧ (sendPlain sl dest payload s).sen = s.sen ∧ (sendPlain sl dest payload s).tamperIn = s.tamperIn ∧ (sendPlain sl dest payload s).cex = s.cex ∧ (sendPlain sl dest payload s).xlt = s.xlt ∧ (sendPlain sl dest payload s).srg = s.srg ∧ (sendPlain sl dest payload s).ods = s.ods ∧ (sendPlain sl dest payload s).vault = s.vault ∧ (sendPlain sl dest payload s).kst = s.kst ∧ (sendPlain sl dest payload s).engKeys = s.engKeys ∧ (sendPlain sl dest payload s).kwe = s.kwe ∧ (sendPlain sl dest payload s).pke = s.pke ∧ (sendPlain sl dest payload s).ent = s.ent ∧ (sendPlain sl dest payload s).atu = s.atu ∧ (sendPlain sl dest payload s).lcc = s.lcc ∧ (sendPlain sl dest payload s).mem = s.mem ∧ (sendPlain sl dest payload s).sheaf = s.sheaf ∧ (sendPlain sl dest payload s).dom = s.dom ∧ (sendPlain sl dest payload s).pins = s.pins ∧ (sendPlain sl dest payload s).boot = s.boot ∧ (sendPlain sl dest payload s).tdi = s.tdi ∧ (sendPlain sl dest payload s).ac = s.ac ∧ (sendPlain sl dest payload s).vt = s.vt ∧ (sendPlain sl dest payload s).free = s.free ∧ (sendPlain sl dest payload s).pending = s.pending :=
  have k : Off (fun p => p == .link || p == .out) s (sendPlain sl dest payload s) := sendPlain_keeps (Off.keeps _ _) rfl rfl .refl
  ⟨k.clk rfl, k.rcv rfl, k.icu rfl, k.obs rfl, k.sen rfl, k.tamperIn rfl, k.cex rfl, k.xlt rfl, k.srg rfl, k.ods rfl, k.vault rfl, k.kst rfl, k.engKeys rfl, k.kwe rfl, k.pke rfl, k.ent rfl, k.atu rfl, k.lcc rfl, k.mem rfl, k.sheaf rfl, k.dom rfl, k.pins rfl, k.boot rfl, k.tdi rfl, k.ac rfl, k.vt rfl, k.free rfl, k.pending rfl⟩

@[simp] theorem updPair_same {p : Nat} {f : Pair → Pair} {s : State} :
    (updPair p f s).clk = s.clk ∧ (updPair p f s).rcv = s.rcv ∧ (updPair p f s).icu = s.icu ∧ (updPair p f s).obs = s.obs ∧ (updPair p f s).sen = s.sen ∧ (updPair p f s).tamperIn = s.tamperIn ∧ (updPair p f s).cex = s.cex ∧ (updPair p f s).xlt = s.xlt ∧ (updPair p f s).srg = s.srg ∧ (updPair p f s).ods = s.ods ∧ (updPair p f s).vault = s.vault ∧ (updPair p f s).kst = s.kst ∧ (updPair p f s).engKeys = s.engKeys ∧ (updPair p f s).kwe = s.kwe ∧ (updPair p f s).pke = s.pke ∧ (updPair p f s).ent = s.ent ∧ (updPair p f s).atu = s.atu ∧ (updPair p f s).lcc = s.lcc ∧ (updPair p f s).mem = s.mem ∧ (updPair p f s).sheaf = s.sheaf ∧ (updPair p f s).dom = s.dom ∧ (updPair p f s).pins = s.pins ∧ (updPair p f s).boot = s.boot ∧ (updPair p f s).tdi = s.tdi ∧ (updPair p f s).ac = s.ac ∧ (updPair p f s).vt = s.vt ∧ (updPair p f s).free = s.free ∧ (updPair p f s).out = s.out ∧ (updPair p f s).pending = s.pending :=
  have k : Off (fun p => p == .link) s (updPair p f s) := updPair_keeps (Off.keeps _ _) rfl .refl
  ⟨k.clk rfl, k.rcv rfl, k.icu rfl, k.obs rfl, k.sen rfl, k.tamperIn rfl, k.cex rfl, k.xlt rfl, k.srg rfl, k.ods rfl, k.vault rfl, k.kst rfl, k.engKeys rfl, k.kwe rfl, k.pke rfl, k.ent rfl, k.atu rfl, k.lcc rfl, k.mem rfl, k.sheaf rfl, k.dom rfl, k.pins rfl, k.boot rfl, k.tdi rfl, k.ac rfl, k.vt rfl, k.free rfl, k.out rfl, k.pending rfl⟩

@[simp] theorem deriveLink_same {port p epoch : Nat} {s : State} :
    (deriveLink port p epoch s).clk = s.clk ∧ (deriveLink port p epoch s).rcv = s.rcv ∧ (deriveLink port p epoch s).icu = s.icu ∧ (deriveLink port p epoch s).obs = s.obs ∧ (deriveLink port p epoch s).sen = s.sen ∧ (deriveLink port p epoch s).tamperIn = s.tamperIn ∧ (deriveLink port p epoch s).cex = s.cex ∧ (deriveLink port p epoch s).xlt = s.xlt ∧ (deriveLink port p epoch s).srg = s.srg ∧ (deriveLink port p epoch s).ods = s.ods ∧ (deriveLink port p epoch s).vault = s.vault ∧ (deriveLink port p epoch s).kst = s.kst ∧ (deriveLink port p epoch s).pke = s.pke ∧ (deriveLink port p epoch s).atu = s.atu ∧ (deriveLink port p epoch s).lcc = s.lcc ∧ (deriveLink port p epoch s).mem = s.mem ∧ (deriveLink port p epoch s).link = s.link ∧ (deriveLink port p epoch s).sheaf = s.sheaf ∧ (deriveLink port p epoch s).dom = s.dom ∧ (deriveLink port p epoch s).pins = s.pins ∧ (deriveLink port p epoch s).boot = s.boot ∧ (deriveLink port p epoch s).tdi = s.tdi ∧ (deriveLink port p epoch s).ac = s.ac ∧ (deriveLink port p epoch s).vt = s.vt ∧ (deriveLink port p epoch s).free = s.free ∧ (deriveLink port p epoch s).out = s.out ∧ (deriveLink port p epoch s).pending = s.pending :=
  have k : Off (fun p => p == .engKeys || p == .kwe || p == .ent) s (deriveLink port p epoch s) := deriveLink_keeps (Off.keeps _ _) rfl rfl rfl .refl
  ⟨k.clk rfl, k.rcv rfl, k.icu rfl, k.obs rfl, k.sen rfl, k.tamperIn rfl, k.cex rfl, k.xlt rfl, k.srg rfl, k.ods rfl, k.vault rfl, k.kst rfl, k.pke rfl, k.atu rfl, k.lcc rfl, k.mem rfl, k.link rfl, k.sheaf rfl, k.dom rfl, k.pins rfl, k.boot rfl, k.tdi rfl, k.ac rfl, k.vt rfl, k.free rfl, k.out rfl, k.pending rfl⟩

@[simp] theorem refreshNext_same {p : Nat} {s : State} :
    (refreshNext p s).clk = s.clk ∧ (refreshNext p s).rcv = s.rcv ∧ (refreshNext p s).icu = s.icu ∧ (refreshNext p s).obs = s.obs ∧ (refreshNext p s).sen = s.sen ∧ (refreshNext p s).tamperIn = s.tamperIn ∧ (refreshNext p s).cex = s.cex ∧ (refreshNext p s).xlt = s.xlt ∧ (refreshNext p s).srg = s.srg ∧ (refreshNext p s).ods = s.ods ∧ (refreshNext p s).vault = s.vault ∧ (refreshNext p s).kst = s.kst ∧ (refreshNext p s).engKeys = s.engKeys ∧ (refreshNext p s).kwe = s.kwe ∧ (refreshNext p s).pke = s.pke ∧ (refreshNext p s).ent = s.ent ∧ (refreshNext p s).atu = s.atu ∧ (refreshNext p s).lcc = s.lcc ∧ (refreshNext p s).mem = s.mem ∧ (refreshNext p s).sheaf = s.sheaf ∧ (refreshNext p s).dom = s.dom ∧ (refreshNext p s).pins = s.pins ∧ (refreshNext p s).boot = s.boot ∧ (refreshNext p s).tdi = s.tdi ∧ (refreshNext p s).ac = s.ac ∧ (refreshNext p s).vt = s.vt ∧ (refreshNext p s).free = s.free ∧ (refreshNext p s).out = s.out ∧ (refreshNext p s).pending = s.pending :=
  have k : Off (fun p => p == .link) s (refreshNext p s) := refreshNext_keeps (Off.keeps _ _) rfl .refl
  ⟨k.clk rfl, k.rcv rfl, k.icu rfl, k.obs rfl, k.sen rfl, k.tamperIn rfl, k.cex rfl, k.xlt rfl, k.srg rfl, k.ods rfl, k.vault rfl, k.kst rfl, k.engKeys rfl, k.kwe rfl, k.pke rfl, k.ent rfl, k.atu rfl, k.lcc rfl, k.mem rfl, k.sheaf rfl, k.dom rfl, k.pins rfl, k.boot rfl, k.tdi rfl, k.ac rfl, k.vt rfl, k.free rfl, k.out rfl, k.pending rfl⟩

@[simp] theorem pairToPort_same {p port : Nat} {s : State} :
    (pairToPort p port s).clk = s.clk ∧ (pairToPort p port s).rcv = s.rcv ∧ (pairToPort p port s).icu = s.icu ∧ (pairToPort p port s).obs = s.obs ∧ (pairToPort p port s).sen = s.sen ∧ (pairToPort p port s).tamperIn = s.tamperIn ∧ (pairToPort p port s).cex = s.cex ∧ (pairToPort p port s).xlt = s.xlt ∧ (pairToPort p port s).srg = s.srg ∧ (pairToPort p port s).ods = s.ods ∧ (pairToPort p port s).vault = s.vault ∧ (pairToPort p port s).kst = s.kst ∧ (pairToPort p port s).pke = s.pke ∧ (pairToPort p port s).atu = s.atu ∧ (pairToPort p port s).lcc = s.lcc ∧ (pairToPort p port s).mem = s.mem ∧ (pairToPort p port s).sheaf = s.sheaf ∧ (pairToPort p port s).dom = s.dom ∧ (pairToPort p port s).pins = s.pins ∧ (pairToPort p port s).boot = s.boot ∧ (pairToPort p port s).tdi = s.tdi ∧ (pairToPort p port s).ac = s.ac ∧ (pairToPort p port s).vt = s.vt ∧ (pairToPort p port s).free = s.free ∧ (pairToPort p port s).out = s.out ∧ (pairToPort p port s).pending = s.pending :=
  have k : Off (fun p => p == .engKeys || p == .kwe || p == .ent || p == .link) s (pairToPort p port s) := pairToPort_keeps (Off.keeps _ _) rfl rfl rfl rfl .refl
  ⟨k.clk rfl, k.rcv rfl, k.icu rfl, k.obs rfl, k.sen rfl, k.tamperIn rfl, k.cex rfl, k.xlt rfl, k.srg rfl, k.ods rfl, k.vault rfl, k.kst rfl, k.pke rfl, k.atu rfl, k.lcc rfl, k.mem rfl, k.sheaf rfl, k.dom rfl, k.pins rfl, k.boot rfl, k.tdi rfl, k.ac rfl, k.vt rfl, k.free rfl, k.out rfl, k.pending rfl⟩

@[simp] theorem updStream_same {e : Nat} {f : Stream → Stream} {s : State} :
    (updStream e f s).clk = s.clk ∧ (updStream e f s).rcv = s.rcv ∧ (updStream e f s).icu = s.icu ∧ (updStream e f s).obs = s.obs ∧ (updStream e f s).sen = s.sen ∧ (updStream e f s).tamperIn = s.tamperIn ∧ (updStream e f s).cex = s.cex ∧ (updStream e f s).xlt = s.xlt ∧ (updStream e f s).srg = s.srg ∧ (updStream e f s).ods = s.ods ∧ (updStream e f s).vault = s.vault ∧ (updStream e f s).kst = s.kst ∧ (updStream e f s).engKeys = s.engKeys ∧ (updStream e f s).kwe = s.kwe ∧ (updStream e f s).pke = s.pke ∧ (updStream e f s).ent = s.ent ∧ (updStream e f s).atu = s.atu ∧ (updStream e f s).lcc = s.lcc ∧ (updStream e f s).mem = s.mem ∧ (updStream e f s).sheaf = s.sheaf ∧ (updStream e f s).dom = s.dom ∧ (updStream e f s).pins = s.pins ∧ (updStream e f s).boot = s.boot ∧ (updStream e f s).tdi = s.tdi ∧ (updStream e f s).ac = s.ac ∧ (updStream e f s).vt = s.vt ∧ (updStream e f s).free = s.free ∧ (updStream e f s).out = s.out ∧ (updStream e f s).pending = s.pending :=
  have k : Off (fun p => p == .link) s (updStream e f s) := updStream_keeps (Off.keeps _ _) rfl .refl
  ⟨k.clk rfl, k.rcv rfl, k.icu rfl, k.obs rfl, k.sen rfl, k.tamperIn rfl, k.cex rfl, k.xlt rfl, k.srg rfl, k.ods rfl, k.vault rfl, k.kst rfl, k.engKeys rfl, k.kwe rfl, k.pke rfl, k.ent rfl, k.atu rfl, k.lcc rfl, k.mem rfl, k.sheaf rfl, k.dom rfl, k.pins rfl, k.boot rfl, k.tdi rfl, k.ac rfl, k.vt rfl, k.free rfl, k.out rfl, k.pending rfl⟩

@[simp] theorem sendGroup_same {e pkts : Nat} {mark : Bool} {payload descs : Bytes} {s : State} :
    (sendGroup e pkts mark payload descs s).clk = s.clk ∧ (sendGroup e pkts mark payload descs s).sen = s.sen ∧ (sendGroup e pkts mark payload descs s).tamperIn = s.tamperIn ∧ (sendGroup e pkts mark payload descs s).xlt = s.xlt ∧ (sendGroup e pkts mark payload descs s).ods = s.ods ∧ (sendGroup e pkts mark payload descs s).vault = s.vault ∧ (sendGroup e pkts mark payload descs s).kst = s.kst ∧ (sendGroup e pkts mark payload descs s).engKeys = s.engKeys ∧ (sendGroup e pkts mark payload descs s).kwe = s.kwe ∧ (sendGroup e pkts mark payload descs s).pke = s.pke ∧ (sendGroup e pkts mark payload descs s).ent = s.ent ∧ (sendGroup e pkts mark payload descs s).atu = s.atu ∧ (sendGroup e pkts mark payload descs s).lcc = s.lcc ∧ (sendGroup e pkts mark payload descs s).mem = s.mem ∧ (sendGroup e pkts mark payload descs s).sheaf = s.sheaf ∧ (sendGroup e pkts mark payload descs s).dom = s.dom ∧ (sendGroup e pkts mark payload descs s).pins = s.pins ∧ (sendGroup e pkts mark payload descs s).boot = s.boot ∧ (sendGroup e pkts mark payload descs s).tdi = s.tdi ∧ (sendGroup e pkts mark payload descs s).ac = s.ac ∧ (sendGroup e pkts mark payload descs s).vt = s.vt ∧ (sendGroup e pkts mark payload descs s).free = s.free ∧ (sendGroup e pkts mark payload descs s).pending = s.pending :=
  have k : Off (fun p => p == .rcv || p == .icu || p == .obs || p == .cex || p == .srg || p == .link || p == .out) s (sendGroup e pkts mark payload descs s) := sendGroup_keeps (Off.keeps _ _) rfl rfl rfl rfl rfl rfl rfl .refl
  ⟨k.clk rfl, k.sen rfl, k.tamperIn rfl, k.xlt rfl, k.ods rfl, k.vault rfl, k.kst rfl, k.engKeys rfl, k.kwe rfl, k.pke rfl, k.ent rfl, k.atu rfl, k.lcc rfl, k.mem rfl, k.sheaf rfl, k.dom rfl, k.pins rfl, k.boot rfl, k.tdi rfl, k.ac rfl, k.vt rfl, k.free rfl, k.pending rfl⟩

@[simp] theorem closeTx_same {port e : Nat} {s : State} :
    (closeTx port e s).clk = s.clk ∧ (closeTx port e s).sen = s.sen ∧ (closeTx port e s).tamperIn = s.tamperIn ∧ (closeTx port e s).xlt = s.xlt ∧ (closeTx port e s).ods = s.ods ∧ (closeTx port e s).vault = s.vault ∧ (closeTx port e s).kst = s.kst ∧ (closeTx port e s).engKeys = s.engKeys ∧ (closeTx port e s).kwe = s.kwe ∧ (closeTx port e s).pke = s.pke ∧ (closeTx port e s).ent = s.ent ∧ (closeTx port e s).atu = s.atu ∧ (closeTx port e s).lcc = s.lcc ∧ (closeTx port e s).mem = s.mem ∧ (closeTx port e s).sheaf = s.sheaf ∧ (closeTx port e s).dom = s.dom ∧ (closeTx port e s).pins = s.pins ∧ (closeTx port e s).boot = s.boot ∧ (closeTx port e s).tdi = s.tdi ∧ (closeTx port e s).ac = s.ac ∧ (closeTx port e s).vt = s.vt ∧ (closeTx port e s).free = s.free ∧ (closeTx port e s).pending = s.pending :=
  have k : Off (fun p => p == .rcv || p == .icu || p == .obs || p == .cex || p == .srg || p == .link || p == .out) s (closeTx port e s) := closeTx_keeps (Off.keeps _ _) rfl rfl rfl rfl rfl rfl rfl .refl
  ⟨k.clk rfl, k.sen rfl, k.tamperIn rfl, k.xlt rfl, k.ods rfl, k.vault rfl, k.kst rfl, k.engKeys rfl, k.kwe rfl, k.pke rfl, k.ent rfl, k.atu rfl, k.lcc rfl, k.mem rfl, k.sheaf rfl, k.dom rfl, k.pins rfl, k.boot rfl, k.tdi rfl, k.ac rfl, k.vt rfl, k.free rfl, k.pending rfl⟩

@[simp] theorem sendOwn_same {e : Nat} {mark : Bool} {payload : Bytes} {s : State} :
    (sendOwn e mark payload s).clk = s.clk ∧ (sendOwn e mark payload s).sen = s.sen ∧ (sendOwn e mark payload s).tamperIn = s.tamperIn ∧ (sendOwn e mark payload s).xlt = s.xlt ∧ (sendOwn e mark payload s).ods = s.ods ∧ (sendOwn e mark payload s).vault = s.vault ∧ (sendOwn e mark payload s).kst = s.kst ∧ (sendOwn e mark payload s).engKeys = s.engKeys ∧ (sendOwn e mark payload s).kwe = s.kwe ∧ (sendOwn e mark payload s).pke = s.pke ∧ (sendOwn e mark payload s).ent = s.ent ∧ (sendOwn e mark payload s).atu = s.atu ∧ (sendOwn e mark payload s).lcc = s.lcc ∧ (sendOwn e mark payload s).mem = s.mem ∧ (sendOwn e mark payload s).sheaf = s.sheaf ∧ (sendOwn e mark payload s).dom = s.dom ∧ (sendOwn e mark payload s).pins = s.pins ∧ (sendOwn e mark payload s).boot = s.boot ∧ (sendOwn e mark payload s).tdi = s.tdi ∧ (sendOwn e mark payload s).ac = s.ac ∧ (sendOwn e mark payload s).vt = s.vt ∧ (sendOwn e mark payload s).free = s.free ∧ (sendOwn e mark payload s).pending = s.pending :=
  have k : Off (fun p => p == .rcv || p == .icu || p == .obs || p == .cex || p == .srg || p == .link || p == .out) s (sendOwn e mark payload s) := sendOwn_keeps (Off.keeps _ _) rfl rfl rfl rfl rfl rfl rfl .refl
  ⟨k.clk rfl, k.sen rfl, k.tamperIn rfl, k.xlt rfl, k.ods rfl, k.vault rfl, k.kst rfl, k.engKeys rfl, k.kwe rfl, k.pke rfl, k.ent rfl, k.atu rfl, k.lcc rfl, k.mem rfl, k.sheaf rfl, k.dom rfl, k.pins rfl, k.boot rfl, k.tdi rfl, k.ac rfl, k.vt rfl, k.free rfl, k.pending rfl⟩

@[simp] theorem sendControl_same {e : Nat} {mark : Bool} {payload : Bytes} {s : State} :
    (sendControl e mark payload s).clk = s.clk ∧ (sendControl e mark payload s).sen = s.sen ∧ (sendControl e mark payload s).tamperIn = s.tamperIn ∧ (sendControl e mark payload s).xlt = s.xlt ∧ (sendControl e mark payload s).ods = s.ods ∧ (sendControl e mark payload s).vault = s.vault ∧ (sendControl e mark payload s).kst = s.kst ∧ (sendControl e mark payload s).engKeys = s.engKeys ∧ (sendControl e mark payload s).kwe = s.kwe ∧ (sendControl e mark payload s).pke = s.pke ∧ (sendControl e mark payload s).ent = s.ent ∧ (sendControl e mark payload s).atu = s.atu ∧ (sendControl e mark payload s).lcc = s.lcc ∧ (sendControl e mark payload s).mem = s.mem ∧ (sendControl e mark payload s).sheaf = s.sheaf ∧ (sendControl e mark payload s).dom = s.dom ∧ (sendControl e mark payload s).pins = s.pins ∧ (sendControl e mark payload s).boot = s.boot ∧ (sendControl e mark payload s).tdi = s.tdi ∧ (sendControl e mark payload s).ac = s.ac ∧ (sendControl e mark payload s).vt = s.vt ∧ (sendControl e mark payload s).free = s.free ∧ (sendControl e mark payload s).pending = s.pending :=
  have k : Off (fun p => p == .rcv || p == .icu || p == .obs || p == .cex || p == .srg || p == .link || p == .out) s (sendControl e mark payload s) := sendControl_keeps (Off.keeps _ _) rfl rfl rfl rfl rfl rfl rfl .refl
  ⟨k.clk rfl, k.sen rfl, k.tamperIn rfl, k.xlt rfl, k.ods rfl, k.vault rfl, k.kst rfl, k.engKeys rfl, k.kwe rfl, k.pke rfl, k.ent rfl, k.atu rfl, k.lcc rfl, k.mem rfl, k.sheaf rfl, k.dom rfl, k.pins rfl, k.boot rfl, k.tdi rfl, k.ac rfl, k.vt rfl, k.free rfl, k.pending rfl⟩

@[simp] theorem sendFragment_same {sl dest type : Nat} {payload : Bytes} {s : State} :
    (sendFragment sl dest type payload s).clk = s.clk ∧ (sendFragment sl dest type payload s).sen = s.sen ∧ (sendFragment sl dest type payload s).tamperIn = s.tamperIn ∧ (sendFragment sl dest type payload s).xlt = s.xlt ∧ (sendFragment sl dest type payload s).ods = s.ods ∧ (sendFragment sl dest type payload s).vault = s.vault ∧ (sendFragment sl dest type payload s).kst = s.kst ∧ (sendFragment sl dest type payload s).engKeys = s.engKeys ∧ (sendFragment sl dest type payload s).kwe = s.kwe ∧ (sendFragment sl dest type payload s).pke = s.pke ∧ (sendFragment sl dest type payload s).ent = s.ent ∧ (sendFragment sl dest type payload s).atu = s.atu ∧ (sendFragment sl dest type payload s).lcc = s.lcc ∧ (sendFragment sl dest type payload s).mem = s.mem ∧ (sendFragment sl dest type payload s).sheaf = s.sheaf ∧ (sendFragment sl dest type payload s).dom = s.dom ∧ (sendFragment sl dest type payload s).pins = s.pins ∧ (sendFragment sl dest type payload s).boot = s.boot ∧ (sendFragment sl dest type payload s).tdi = s.tdi ∧ (sendFragment sl dest type payload s).ac = s.ac ∧ (sendFragment sl dest type payload s).vt = s.vt ∧ (sendFragment sl dest type payload s).free = s.free ∧ (sendFragment sl dest type payload s).pending = s.pending :=
  have k : Off (fun p => p == .rcv || p == .icu || p == .obs || p == .cex || p == .srg || p == .link || p == .out) s (sendFragment sl dest type payload s) := sendFragment_keeps (Off.keeps _ _) rfl rfl rfl rfl rfl rfl rfl .refl
  ⟨k.clk rfl, k.sen rfl, k.tamperIn rfl, k.xlt rfl, k.ods rfl, k.vault rfl, k.kst rfl, k.engKeys rfl, k.kwe rfl, k.pke rfl, k.ent rfl, k.atu rfl, k.lcc rfl, k.mem rfl, k.sheaf rfl, k.dom rfl, k.pins rfl, k.boot rfl, k.tdi rfl, k.ac rfl, k.vt rfl, k.free rfl, k.pending rfl⟩

@[simp] theorem updDom_same {sl : Nat} {f : Dom → Dom} {s : State} :
    (updDom sl f s).clk = s.clk ∧ (updDom sl f s).rcv = s.rcv ∧ (updDom sl f s).icu = s.icu ∧ (updDom sl f s).obs = s.obs ∧ (updDom sl f s).sen = s.sen ∧ (updDom sl f s).tamperIn = s.tamperIn ∧ (updDom sl f s).cex = s.cex ∧ (updDom sl f s).xlt = s.xlt ∧ (updDom sl f s).srg = s.srg ∧ (updDom sl f s).ods = s.ods ∧ (updDom sl f s).vault = s.vault ∧ (updDom sl f s).kst = s.kst ∧ (updDom sl f s).engKeys = s.engKeys ∧ (updDom sl f s).kwe = s.kwe ∧ (updDom sl f s).pke = s.pke ∧ (updDom sl f s).ent = s.ent ∧ (updDom sl f s).atu = s.atu ∧ (updDom sl f s).lcc = s.lcc ∧ (updDom sl f s).mem = s.mem ∧ (updDom sl f s).link = s.link ∧ (updDom sl f s).sheaf = s.sheaf ∧ (updDom sl f s).pins = s.pins ∧ (updDom sl f s).boot = s.boot ∧ (updDom sl f s).tdi = s.tdi ∧ (updDom sl f s).ac = s.ac ∧ (updDom sl f s).vt = s.vt ∧ (updDom sl f s).free = s.free ∧ (updDom sl f s).out = s.out ∧ (updDom sl f s).pending = s.pending :=
  have k : Off (fun p => p == .dom) s (updDom sl f s) := updDom_keeps (Off.keeps _ _) rfl .refl
  ⟨k.clk rfl, k.rcv rfl, k.icu rfl, k.obs rfl, k.sen rfl, k.tamperIn rfl, k.cex rfl, k.xlt rfl, k.srg rfl, k.ods rfl, k.vault rfl, k.kst rfl, k.engKeys rfl, k.kwe rfl, k.pke rfl, k.ent rfl, k.atu rfl, k.lcc rfl, k.mem rfl, k.link rfl, k.sheaf rfl, k.pins rfl, k.boot rfl, k.tdi rfl, k.ac rfl, k.vt rfl, k.free rfl, k.out rfl, k.pending rfl⟩

@[simp] theorem sendDom_same {sl dest type : Nat} {body : Bytes} {s : State} :
    (sendDom sl dest type body s).clk = s.clk ∧ (sendDom sl dest type body s).sen = s.sen ∧ (sendDom sl dest type body s).tamperIn = s.tamperIn ∧ (sendDom sl dest type body s).xlt = s.xlt ∧ (sendDom sl dest type body s).ods = s.ods ∧ (sendDom sl dest type body s).vault = s.vault ∧ (sendDom sl dest type body s).kst = s.kst ∧ (sendDom sl dest type body s).engKeys = s.engKeys ∧ (sendDom sl dest type body s).kwe = s.kwe ∧ (sendDom sl dest type body s).pke = s.pke ∧ (sendDom sl dest type body s).ent = s.ent ∧ (sendDom sl dest type body s).atu = s.atu ∧ (sendDom sl dest type body s).lcc = s.lcc ∧ (sendDom sl dest type body s).mem = s.mem ∧ (sendDom sl dest type body s).sheaf = s.sheaf ∧ (sendDom sl dest type body s).pins = s.pins ∧ (sendDom sl dest type body s).boot = s.boot ∧ (sendDom sl dest type body s).tdi = s.tdi ∧ (sendDom sl dest type body s).ac = s.ac ∧ (sendDom sl dest type body s).vt = s.vt ∧ (sendDom sl dest type body s).free = s.free ∧ (sendDom sl dest type body s).pending = s.pending :=
  have k : Off (fun p => p == .rcv || p == .icu || p == .obs || p == .cex || p == .srg || p == .link || p == .dom || p == .out) s (sendDom sl dest type body s) := sendDom_keeps (Off.keeps _ _) rfl rfl rfl rfl rfl rfl rfl rfl .refl
  ⟨k.clk rfl, k.sen rfl, k.tamperIn rfl, k.xlt rfl, k.ods rfl, k.vault rfl, k.kst rfl, k.engKeys rfl, k.kwe rfl, k.pke rfl, k.ent rfl, k.atu rfl, k.lcc rfl, k.mem rfl, k.sheaf rfl, k.pins rfl, k.boot rfl, k.tdi rfl, k.ac rfl, k.vt rfl, k.free rfl, k.pending rfl⟩

@[simp] theorem fillStream_same {e p sl peer cls port : Nat} {rx sav : Bool} {s : State} :
    (fillStream e p sl peer cls port rx sav s).clk = s.clk ∧ (fillStream e p sl peer cls port rx sav s).rcv = s.rcv ∧ (fillStream e p sl peer cls port rx sav s).icu = s.icu ∧ (fillStream e p sl peer cls port rx sav s).obs = s.obs ∧ (fillStream e p sl peer cls port rx sav s).sen = s.sen ∧ (fillStream e p sl peer cls port rx sav s).tamperIn = s.tamperIn ∧ (fillStream e p sl peer cls port rx sav s).cex = s.cex ∧ (fillStream e p sl peer cls port rx sav s).xlt = s.xlt ∧ (fillStream e p sl peer cls port rx sav s).srg = s.srg ∧ (fillStream e p sl peer cls port rx sav s).ods = s.ods ∧ (fillStream e p sl peer cls port rx sav s).vault = s.vault ∧ (fillStream e p sl peer cls port rx sav s).kst = s.kst ∧ (fillStream e p sl peer cls port rx sav s).engKeys = s.engKeys ∧ (fillStream e p sl peer cls port rx sav s).kwe = s.kwe ∧ (fillStream e p sl peer cls port rx sav s).pke = s.pke ∧ (fillStream e p sl peer cls port rx sav s).ent = s.ent ∧ (fillStream e p sl peer cls port rx sav s).atu = s.atu ∧ (fillStream e p sl peer cls port rx sav s).lcc = s.lcc ∧ (fillStream e p sl peer cls port rx sav s).mem = s.mem ∧ (fillStream e p sl peer cls port rx sav s).sheaf = s.sheaf ∧ (fillStream e p sl peer cls port rx sav s).dom = s.dom ∧ (fillStream e p sl peer cls port rx sav s).pins = s.pins ∧ (fillStream e p sl peer cls port rx sav s).boot = s.boot ∧ (fillStream e p sl peer cls port rx sav s).tdi = s.tdi ∧ (fillStream e p sl peer cls port rx sav s).ac = s.ac ∧ (fillStream e p sl peer cls port rx sav s).vt = s.vt ∧ (fillStream e p sl peer cls port rx sav s).free = s.free ∧ (fillStream e p sl peer cls port rx sav s).out = s.out ∧ (fillStream e p sl peer cls port rx sav s).pending = s.pending :=
  have k : Off (fun p => p == .link) s (fillStream e p sl peer cls port rx sav s) := fillStream_keeps (Off.keeps _ _) rfl .refl
  ⟨k.clk rfl, k.rcv rfl, k.icu rfl, k.obs rfl, k.sen rfl, k.tamperIn rfl, k.cex rfl, k.xlt rfl, k.srg rfl, k.ods rfl, k.vault rfl, k.kst rfl, k.engKeys rfl, k.kwe rfl, k.pke rfl, k.ent rfl, k.atu rfl, k.lcc rfl, k.mem rfl, k.sheaf rfl, k.dom rfl, k.pins rfl, k.boot rfl, k.tdi rfl, k.ac rfl, k.vt rfl, k.free rfl, k.out rfl, k.pending rfl⟩

@[simp] theorem sendRotationMark_same {e : Nat} {s : State} :
    (sendRotationMark e s).clk = s.clk ∧ (sendRotationMark e s).sen = s.sen ∧ (sendRotationMark e s).tamperIn = s.tamperIn ∧ (sendRotationMark e s).xlt = s.xlt ∧ (sendRotationMark e s).ods = s.ods ∧ (sendRotationMark e s).vault = s.vault ∧ (sendRotationMark e s).kst = s.kst ∧ (sendRotationMark e s).engKeys = s.engKeys ∧ (sendRotationMark e s).kwe = s.kwe ∧ (sendRotationMark e s).pke = s.pke ∧ (sendRotationMark e s).ent = s.ent ∧ (sendRotationMark e s).atu = s.atu ∧ (sendRotationMark e s).lcc = s.lcc ∧ (sendRotationMark e s).mem = s.mem ∧ (sendRotationMark e s).sheaf = s.sheaf ∧ (sendRotationMark e s).dom = s.dom ∧ (sendRotationMark e s).pins = s.pins ∧ (sendRotationMark e s).boot = s.boot ∧ (sendRotationMark e s).tdi = s.tdi ∧ (sendRotationMark e s).ac = s.ac ∧ (sendRotationMark e s).vt = s.vt ∧ (sendRotationMark e s).free = s.free ∧ (sendRotationMark e s).pending = s.pending :=
  have k : Off (fun p => p == .rcv || p == .icu || p == .obs || p == .cex || p == .srg || p == .link || p == .out) s (sendRotationMark e s) := sendRotationMark_keeps (Off.keeps _ _) rfl rfl rfl rfl rfl rfl rfl .refl
  ⟨k.clk rfl, k.sen rfl, k.tamperIn rfl, k.xlt rfl, k.ods rfl, k.vault rfl, k.kst rfl, k.engKeys rfl, k.kwe rfl, k.pke rfl, k.ent rfl, k.atu rfl, k.lcc rfl, k.mem rfl, k.sheaf rfl, k.dom rfl, k.pins rfl, k.boot rfl, k.tdi rfl, k.ac rfl, k.vt rfl, k.free rfl, k.pending rfl⟩

@[simp] theorem keepLinks_same {port p : Nat} {keep : List Nat} {s : State} :
    (keepLinks port p keep s).clk = s.clk ∧ (keepLinks port p keep s).rcv = s.rcv ∧ (keepLinks port p keep s).icu = s.icu ∧ (keepLinks port p keep s).obs = s.obs ∧ (keepLinks port p keep s).sen = s.sen ∧ (keepLinks port p keep s).tamperIn = s.tamperIn ∧ (keepLinks port p keep s).cex = s.cex ∧ (keepLinks port p keep s).xlt = s.xlt ∧ (keepLinks port p keep s).srg = s.srg ∧ (keepLinks port p keep s).ods = s.ods ∧ (keepLinks port p keep s).vault = s.vault ∧ (keepLinks port p keep s).kst = s.kst ∧ (keepLinks port p keep s).kwe = s.kwe ∧ (keepLinks port p keep s).pke = s.pke ∧ (keepLinks port p keep s).ent = s.ent ∧ (keepLinks port p keep s).atu = s.atu ∧ (keepLinks port p keep s).lcc = s.lcc ∧ (keepLinks port p keep s).mem = s.mem ∧ (keepLinks port p keep s).link = s.link ∧ (keepLinks port p keep s).sheaf = s.sheaf ∧ (keepLinks port p keep s).dom = s.dom ∧ (keepLinks port p keep s).pins = s.pins ∧ (keepLinks port p keep s).boot = s.boot ∧ (keepLinks port p keep s).tdi = s.tdi ∧ (keepLinks port p keep s).ac = s.ac ∧ (keepLinks port p keep s).vt = s.vt ∧ (keepLinks port p keep s).free = s.free ∧ (keepLinks port p keep s).out = s.out ∧ (keepLinks port p keep s).pending = s.pending :=
  have k : Off (fun p => p == .engKeys) s (keepLinks port p keep s) := keepLinks_keeps (Off.keeps _ _) rfl .refl
  ⟨k.clk rfl, k.rcv rfl, k.icu rfl, k.obs rfl, k.sen rfl, k.tamperIn rfl, k.cex rfl, k.xlt rfl, k.srg rfl, k.ods rfl, k.vault rfl, k.kst rfl, k.kwe rfl, k.pke rfl, k.ent rfl, k.atu rfl, k.lcc rfl, k.mem rfl, k.link rfl, k.sheaf rfl, k.dom rfl, k.pins rfl, k.boot rfl, k.tdi rfl, k.ac rfl, k.vt rfl, k.free rfl, k.out rfl, k.pending rfl⟩

@[simp] theorem gatherMsg_same {sl sender : Nat} {plain : Bool} {payload : Bytes} {s : State} :
    (gatherMsg sl sender plain payload s).clk = s.clk ∧ (gatherMsg sl sender plain payload s).rcv = s.rcv ∧ (gatherMsg sl sender plain payload s).icu = s.icu ∧ (gatherMsg sl sender plain payload s).obs = s.obs ∧ (gatherMsg sl sender plain payload s).sen = s.sen ∧ (gatherMsg sl sender plain payload s).tamperIn = s.tamperIn ∧ (gatherMsg sl sender plain payload s).cex = s.cex ∧ (gatherMsg sl sender plain payload s).xlt = s.xlt ∧ (gatherMsg sl sender plain payload s).srg = s.srg ∧ (gatherMsg sl sender plain payload s).ods = s.ods ∧ (gatherMsg sl sender plain payload s).vault = s.vault ∧ (gatherMsg sl sender plain payload s).kst = s.kst ∧ (gatherMsg sl sender plain payload s).engKeys = s.engKeys ∧ (gatherMsg sl sender plain payload s).kwe = s.kwe ∧ (gatherMsg sl sender plain payload s).pke = s.pke ∧ (gatherMsg sl sender plain payload s).ent = s.ent ∧ (gatherMsg sl sender plain payload s).atu = s.atu ∧ (gatherMsg sl sender plain payload s).lcc = s.lcc ∧ (gatherMsg sl sender plain payload s).mem = s.mem ∧ (gatherMsg sl sender plain payload s).sheaf = s.sheaf ∧ (gatherMsg sl sender plain payload s).dom = s.dom ∧ (gatherMsg sl sender plain payload s).pins = s.pins ∧ (gatherMsg sl sender plain payload s).boot = s.boot ∧ (gatherMsg sl sender plain payload s).tdi = s.tdi ∧ (gatherMsg sl sender plain payload s).ac = s.ac ∧ (gatherMsg sl sender plain payload s).vt = s.vt ∧ (gatherMsg sl sender plain payload s).free = s.free ∧ (gatherMsg sl sender plain payload s).out = s.out ∧ (gatherMsg sl sender plain payload s).pending = s.pending :=
  have k : Off (fun p => p == .link) s (gatherMsg sl sender plain payload s) := gatherMsg_keeps (Off.keeps _ _) rfl .refl
  ⟨k.clk rfl, k.rcv rfl, k.icu rfl, k.obs rfl, k.sen rfl, k.tamperIn rfl, k.cex rfl, k.xlt rfl, k.srg rfl, k.ods rfl, k.vault rfl, k.kst rfl, k.engKeys rfl, k.kwe rfl, k.pke rfl, k.ent rfl, k.atu rfl, k.lcc rfl, k.mem rfl, k.sheaf rfl, k.dom rfl, k.pins rfl, k.boot rfl, k.tdi rfl, k.ac rfl, k.vt rfl, k.free rfl, k.out rfl, k.pending rfl⟩

@[simp] theorem sliceCount_same {sl sub n : Nat} {s : State} :
    (sliceCount sl sub n s).clk = s.clk ∧ (sliceCount sl sub n s).rcv = s.rcv ∧ (sliceCount sl sub n s).icu = s.icu ∧ (sliceCount sl sub n s).obs = s.obs ∧ (sliceCount sl sub n s).sen = s.sen ∧ (sliceCount sl sub n s).tamperIn = s.tamperIn ∧ (sliceCount sl sub n s).cex = s.cex ∧ (sliceCount sl sub n s).xlt = s.xlt ∧ (sliceCount sl sub n s).srg = s.srg ∧ (sliceCount sl sub n s).ods = s.ods ∧ (sliceCount sl sub n s).vault = s.vault ∧ (sliceCount sl sub n s).kst = s.kst ∧ (sliceCount sl sub n s).engKeys = s.engKeys ∧ (sliceCount sl sub n s).kwe = s.kwe ∧ (sliceCount sl sub n s).pke = s.pke ∧ (sliceCount sl sub n s).ent = s.ent ∧ (sliceCount sl sub n s).atu = s.atu ∧ (sliceCount sl sub n s).lcc = s.lcc ∧ (sliceCount sl sub n s).mem = s.mem ∧ (sliceCount sl sub n s).sheaf = s.sheaf ∧ (sliceCount sl sub n s).dom = s.dom ∧ (sliceCount sl sub n s).pins = s.pins ∧ (sliceCount sl sub n s).boot = s.boot ∧ (sliceCount sl sub n s).tdi = s.tdi ∧ (sliceCount sl sub n s).ac = s.ac ∧ (sliceCount sl sub n s).vt = s.vt ∧ (sliceCount sl sub n s).free = s.free ∧ (sliceCount sl sub n s).out = s.out ∧ (sliceCount sl sub n s).pending = s.pending :=
  have k : Off (fun p => p == .link) s (sliceCount sl sub n s) := sliceCount_keeps (Off.keeps _ _) rfl .refl
  ⟨k.clk rfl, k.rcv rfl, k.icu rfl, k.obs rfl, k.sen rfl, k.tamperIn rfl, k.cex rfl, k.xlt rfl, k.srg rfl, k.ods rfl, k.vault rfl, k.kst rfl, k.engKeys rfl, k.kwe rfl, k.pke rfl, k.ent rfl, k.atu rfl, k.lcc rfl, k.mem rfl, k.sheaf rfl, k.dom rfl, k.pins rfl, k.boot rfl, k.tdi rfl, k.ac rfl, k.vt rfl, k.free rfl, k.out rfl, k.pending rfl⟩

@[simp] theorem leaveSav_same {port : Nat} {s : State} :
    (leaveSav port s).clk = s.clk ∧ (leaveSav port s).rcv = s.rcv ∧ (leaveSav port s).icu = s.icu ∧ (leaveSav port s).obs = s.obs ∧ (leaveSav port s).sen = s.sen ∧ (leaveSav port s).tamperIn = s.tamperIn ∧ (leaveSav port s).cex = s.cex ∧ (leaveSav port s).xlt = s.xlt ∧ (leaveSav port s).srg = s.srg ∧ (leaveSav port s).ods = s.ods ∧ (leaveSav port s).vault = s.vault ∧ (leaveSav port s).kst = s.kst ∧ (leaveSav port s).engKeys = s.engKeys ∧ (leaveSav port s).kwe = s.kwe ∧ (leaveSav port s).pke = s.pke ∧ (leaveSav port s).ent = s.ent ∧ (leaveSav port s).atu = s.atu ∧ (leaveSav port s).lcc = s.lcc ∧ (leaveSav port s).mem = s.mem ∧ (leaveSav port s).sheaf = s.sheaf ∧ (leaveSav port s).dom = s.dom ∧ (leaveSav port s).pins = s.pins ∧ (leaveSav port s).boot = s.boot ∧ (leaveSav port s).tdi = s.tdi ∧ (leaveSav port s).ac = s.ac ∧ (leaveSav port s).vt = s.vt ∧ (leaveSav port s).free = s.free ∧ (leaveSav port s).out = s.out ∧ (leaveSav port s).pending = s.pending :=
  have k : Off (fun p => p == .link) s (leaveSav port s) := leaveSav_keeps (Off.keeps _ _) rfl .refl
  ⟨k.clk rfl, k.rcv rfl, k.icu rfl, k.obs rfl, k.sen rfl, k.tamperIn rfl, k.cex rfl, k.xlt rfl, k.srg rfl, k.ods rfl, k.vault rfl, k.kst rfl, k.engKeys rfl, k.kwe rfl, k.pke rfl, k.ent rfl, k.atu rfl, k.lcc rfl, k.mem rfl, k.sheaf rfl, k.dom rfl, k.pins rfl, k.boot rfl, k.tdi rfl, k.ac rfl, k.vt rfl, k.free rfl, k.out rfl, k.pending rfl⟩

@[simp] theorem endTrans_same {p : DictTrans → Bool} {s : State} :
    (endTrans p s).clk = s.clk ∧ (endTrans p s).rcv = s.rcv ∧ (endTrans p s).icu = s.icu ∧ (endTrans p s).obs = s.obs ∧ (endTrans p s).sen = s.sen ∧ (endTrans p s).tamperIn = s.tamperIn ∧ (endTrans p s).cex = s.cex ∧ (endTrans p s).xlt = s.xlt ∧ (endTrans p s).srg = s.srg ∧ (endTrans p s).vault = s.vault ∧ (endTrans p s).kst = s.kst ∧ (endTrans p s).engKeys = s.engKeys ∧ (endTrans p s).kwe = s.kwe ∧ (endTrans p s).pke = s.pke ∧ (endTrans p s).ent = s.ent ∧ (endTrans p s).atu = s.atu ∧ (endTrans p s).lcc = s.lcc ∧ (endTrans p s).mem = s.mem ∧ (endTrans p s).link = s.link ∧ (endTrans p s).sheaf = s.sheaf ∧ (endTrans p s).dom = s.dom ∧ (endTrans p s).pins = s.pins ∧ (endTrans p s).boot = s.boot ∧ (endTrans p s).tdi = s.tdi ∧ (endTrans p s).ac = s.ac ∧ (endTrans p s).vt = s.vt ∧ (endTrans p s).free = s.free ∧ (endTrans p s).out = s.out ∧ (endTrans p s).pending = s.pending :=
  have k : Off (fun p => p == .ods) s (endTrans p s) := endTrans_keeps (Off.keeps _ _) rfl .refl
  ⟨k.clk rfl, k.rcv rfl, k.icu rfl, k.obs rfl, k.sen rfl, k.tamperIn rfl, k.cex rfl, k.xlt rfl, k.srg rfl, k.vault rfl, k.kst rfl, k.engKeys rfl, k.kwe rfl, k.pke rfl, k.ent rfl, k.atu rfl, k.lcc rfl, k.mem rfl, k.link rfl, k.sheaf rfl, k.dom rfl, k.pins rfl, k.boot rfl, k.tdi rfl, k.ac rfl, k.vt rfl, k.free rfl, k.out rfl, k.pending rfl⟩

@[simp] theorem zeroizeSlots_same {p : Nat → Slot → Bool} {s : State} :
    (zeroizeSlots p s).clk = s.clk ∧ (zeroizeSlots p s).rcv = s.rcv ∧ (zeroizeSlots p s).icu = s.icu ∧ (zeroizeSlots p s).obs = s.obs ∧ (zeroizeSlots p s).sen = s.sen ∧ (zeroizeSlots p s).tamperIn = s.tamperIn ∧ (zeroizeSlots p s).cex = s.cex ∧ (zeroizeSlots p s).xlt = s.xlt ∧ (zeroizeSlots p s).srg = s.srg ∧ (zeroizeSlots p s).ods = s.ods ∧ (zeroizeSlots p s).vault = s.vault ∧ (zeroizeSlots p s).pke = s.pke ∧ (zeroizeSlots p s).ent = s.ent ∧ (zeroizeSlots p s).atu = s.atu ∧ (zeroizeSlots p s).lcc = s.lcc ∧ (zeroizeSlots p s).mem = s.mem ∧ (zeroizeSlots p s).link = s.link ∧ (zeroizeSlots p s).sheaf = s.sheaf ∧ (zeroizeSlots p s).dom = s.dom ∧ (zeroizeSlots p s).pins = s.pins ∧ (zeroizeSlots p s).boot = s.boot ∧ (zeroizeSlots p s).tdi = s.tdi ∧ (zeroizeSlots p s).ac = s.ac ∧ (zeroizeSlots p s).vt = s.vt ∧ (zeroizeSlots p s).free = s.free ∧ (zeroizeSlots p s).out = s.out ∧ (zeroizeSlots p s).pending = s.pending :=
  have k : Off (fun p => p == .kst || p == .engKeys || p == .kwe) s (zeroizeSlots p s) := zeroizeSlots_keeps (Off.keeps _ _) rfl rfl rfl .refl
  ⟨k.clk rfl, k.rcv rfl, k.icu rfl, k.obs rfl, k.sen rfl, k.tamperIn rfl, k.cex rfl, k.xlt rfl, k.srg rfl, k.ods rfl, k.vault rfl, k.pke rfl, k.ent rfl, k.atu rfl, k.lcc rfl, k.mem rfl, k.link rfl, k.sheaf rfl, k.dom rfl, k.pins rfl, k.boot rfl, k.tdi rfl, k.ac rfl, k.vt rfl, k.free rfl, k.out rfl, k.pending rfl⟩

@[simp] theorem dropSheaves_same {sl : Nat} {s : State} :
    (dropSheaves sl s).clk = s.clk ∧ (dropSheaves sl s).rcv = s.rcv ∧ (dropSheaves sl s).icu = s.icu ∧ (dropSheaves sl s).obs = s.obs ∧ (dropSheaves sl s).sen = s.sen ∧ (dropSheaves sl s).tamperIn = s.tamperIn ∧ (dropSheaves sl s).cex = s.cex ∧ (dropSheaves sl s).xlt = s.xlt ∧ (dropSheaves sl s).srg = s.srg ∧ (dropSheaves sl s).ods = s.ods ∧ (dropSheaves sl s).vault = s.vault ∧ (dropSheaves sl s).kst = s.kst ∧ (dropSheaves sl s).kwe = s.kwe ∧ (dropSheaves sl s).pke = s.pke ∧ (dropSheaves sl s).ent = s.ent ∧ (dropSheaves sl s).atu = s.atu ∧ (dropSheaves sl s).lcc = s.lcc ∧ (dropSheaves sl s).mem = s.mem ∧ (dropSheaves sl s).link = s.link ∧ (dropSheaves sl s).dom = s.dom ∧ (dropSheaves sl s).pins = s.pins ∧ (dropSheaves sl s).boot = s.boot ∧ (dropSheaves sl s).tdi = s.tdi ∧ (dropSheaves sl s).ac = s.ac ∧ (dropSheaves sl s).vt = s.vt ∧ (dropSheaves sl s).free = s.free ∧ (dropSheaves sl s).out = s.out ∧ (dropSheaves sl s).pending = s.pending :=
  have k : Off (fun p => p == .engKeys || p == .sheaf) s (dropSheaves sl s) := dropSheaves_keeps (Off.keeps _ _) rfl rfl .refl
  ⟨k.clk rfl, k.rcv rfl, k.icu rfl, k.obs rfl, k.sen rfl, k.tamperIn rfl, k.cex rfl, k.xlt rfl, k.srg rfl, k.ods rfl, k.vault rfl, k.kst rfl, k.kwe rfl, k.pke rfl, k.ent rfl, k.atu rfl, k.lcc rfl, k.mem rfl, k.link rfl, k.dom rfl, k.pins rfl, k.boot rfl, k.tdi rfl, k.ac rfl, k.vt rfl, k.free rfl, k.out rfl, k.pending rfl⟩

@[simp] theorem restartGate_same {sl : Nat} {s : State} :
    (restartGate sl s).clk = s.clk ∧ (restartGate sl s).rcv = s.rcv ∧ (restartGate sl s).icu = s.icu ∧ (restartGate sl s).obs = s.obs ∧ (restartGate sl s).sen = s.sen ∧ (restartGate sl s).tamperIn = s.tamperIn ∧ (restartGate sl s).cex = s.cex ∧ (restartGate sl s).xlt = s.xlt ∧ (restartGate sl s).srg = s.srg ∧ (restartGate sl s).ods = s.ods ∧ (restartGate sl s).vault = s.vault ∧ (restartGate sl s).kst = s.kst ∧ (restartGate sl s).engKeys = s.engKeys ∧ (restartGate sl s).kwe = s.kwe ∧ (restartGate sl s).pke = s.pke ∧ (restartGate sl s).ent = s.ent ∧ (restartGate sl s).atu = s.atu ∧ (restartGate sl s).lcc = s.lcc ∧ (restartGate sl s).mem = s.mem ∧ (restartGate sl s).sheaf = s.sheaf ∧ (restartGate sl s).dom = s.dom ∧ (restartGate sl s).pins = s.pins ∧ (restartGate sl s).boot = s.boot ∧ (restartGate sl s).tdi = s.tdi ∧ (restartGate sl s).free = s.free ∧ (restartGate sl s).out = s.out ∧ (restartGate sl s).pending = s.pending :=
  have k : Off (fun p => p == .link || p == .ac || p == .vt) s (restartGate sl s) := restartGate_keeps (Off.keeps _ _) rfl rfl rfl .refl
  ⟨k.clk rfl, k.rcv rfl, k.icu rfl, k.obs rfl, k.sen rfl, k.tamperIn rfl, k.cex rfl, k.xlt rfl, k.srg rfl, k.ods rfl, k.vault rfl, k.kst rfl, k.engKeys rfl, k.kwe rfl, k.pke rfl, k.ent rfl, k.atu rfl, k.lcc rfl, k.mem rfl, k.sheaf rfl, k.dom rfl, k.pins rfl, k.boot rfl, k.tdi rfl, k.free rfl, k.out rfl, k.pending rfl⟩

@[simp] theorem resetGate_same {sl : Nat} {s : State} :
    (resetGate sl s).clk = s.clk ∧ (resetGate sl s).rcv = s.rcv ∧ (resetGate sl s).icu = s.icu ∧ (resetGate sl s).obs = s.obs ∧ (resetGate sl s).sen = s.sen ∧ (resetGate sl s).tamperIn = s.tamperIn ∧ (resetGate sl s).cex = s.cex ∧ (resetGate sl s).xlt = s.xlt ∧ (resetGate sl s).srg = s.srg ∧ (resetGate sl s).ods = s.ods ∧ (resetGate sl s).vault = s.vault ∧ (resetGate sl s).kst = s.kst ∧ (resetGate sl s).engKeys = s.engKeys ∧ (resetGate sl s).kwe = s.kwe ∧ (resetGate sl s).pke = s.pke ∧ (resetGate sl s).ent = s.ent ∧ (resetGate sl s).atu = s.atu ∧ (resetGate sl s).lcc = s.lcc ∧ (resetGate sl s).mem = s.mem ∧ (resetGate sl s).sheaf = s.sheaf ∧ (resetGate sl s).dom = s.dom ∧ (resetGate sl s).pins = s.pins ∧ (resetGate sl s).boot = s.boot ∧ (resetGate sl s).tdi = s.tdi ∧ (resetGate sl s).free = s.free ∧ (resetGate sl s).out = s.out ∧ (resetGate sl s).pending = s.pending :=
  have k : Off (fun p => p == .link || p == .ac || p == .vt) s (resetGate sl s) := resetGate_keeps (Off.keeps _ _) rfl rfl rfl .refl
  ⟨k.clk rfl, k.rcv rfl, k.icu rfl, k.obs rfl, k.sen rfl, k.tamperIn rfl, k.cex rfl, k.xlt rfl, k.srg rfl, k.ods rfl, k.vault rfl, k.kst rfl, k.engKeys rfl, k.kwe rfl, k.pke rfl, k.ent rfl, k.atu rfl, k.lcc rfl, k.mem rfl, k.sheaf rfl, k.dom rfl, k.pins rfl, k.boot rfl, k.tdi rfl, k.free rfl, k.out rfl, k.pending rfl⟩

@[simp] theorem dropStreams_same {sl : Nat} {s : State} :
    (dropStreams sl s).clk = s.clk ∧ (dropStreams sl s).rcv = s.rcv ∧ (dropStreams sl s).icu = s.icu ∧ (dropStreams sl s).obs = s.obs ∧ (dropStreams sl s).sen = s.sen ∧ (dropStreams sl s).tamperIn = s.tamperIn ∧ (dropStreams sl s).cex = s.cex ∧ (dropStreams sl s).xlt = s.xlt ∧ (dropStreams sl s).srg = s.srg ∧ (dropStreams sl s).ods = s.ods ∧ (dropStreams sl s).vault = s.vault ∧ (dropStreams sl s).kst = s.kst ∧ (dropStreams sl s).kwe = s.kwe ∧ (dropStreams sl s).pke = s.pke ∧ (dropStreams sl s).ent = s.ent ∧ (dropStreams sl s).atu = s.atu ∧ (dropStreams sl s).lcc = s.lcc ∧ (dropStreams sl s).mem = s.mem ∧ (dropStreams sl s).sheaf = s.sheaf ∧ (dropStreams sl s).dom = s.dom ∧ (dropStreams sl s).pins = s.pins ∧ (dropStreams sl s).boot = s.boot ∧ (dropStreams sl s).tdi = s.tdi ∧ (dropStreams sl s).free = s.free ∧ (dropStreams sl s).out = s.out ∧ (dropStreams sl s).pending = s.pending :=
  have k : Off (fun p => p == .engKeys || p == .link || p == .ac || p == .vt) s (dropStreams sl s) := dropStreams_keeps (Off.keeps _ _) rfl rfl rfl rfl .refl
  ⟨k.clk rfl, k.rcv rfl, k.icu rfl, k.obs rfl, k.sen rfl, k.tamperIn rfl, k.cex rfl, k.xlt rfl, k.srg rfl, k.ods rfl, k.vault rfl, k.kst rfl, k.kwe rfl, k.pke rfl, k.ent rfl, k.atu rfl, k.lcc rfl, k.mem rfl, k.sheaf rfl, k.dom rfl, k.pins rfl, k.boot rfl, k.tdi rfl, k.free rfl, k.out rfl, k.pending rfl⟩

@[simp] theorem freePlough_same {r : Nat} {s : State} :
    (freePlough r s).clk = s.clk ∧ (freePlough r s).rcv = s.rcv ∧ (freePlough r s).icu = s.icu ∧ (freePlough r s).obs = s.obs ∧ (freePlough r s).sen = s.sen ∧ (freePlough r s).tamperIn = s.tamperIn ∧ (freePlough r s).cex = s.cex ∧ (freePlough r s).xlt = s.xlt ∧ (freePlough r s).srg = s.srg ∧ (freePlough r s).ods = s.ods ∧ (freePlough r s).vault = s.vault ∧ (freePlough r s).kst = s.kst ∧ (freePlough r s).kwe = s.kwe ∧ (freePlough r s).pke = s.pke ∧ (freePlough r s).ent = s.ent ∧ (freePlough r s).atu = s.atu ∧ (freePlough r s).lcc = s.lcc ∧ (freePlough r s).link = s.link ∧ (freePlough r s).sheaf = s.sheaf ∧ (freePlough r s).dom = s.dom ∧ (freePlough r s).pins = s.pins ∧ (freePlough r s).boot = s.boot ∧ (freePlough r s).tdi = s.tdi ∧ (freePlough r s).ac = s.ac ∧ (freePlough r s).vt = s.vt ∧ (freePlough r s).free = s.free ∧ (freePlough r s).out = s.out ∧ (freePlough r s).pending = s.pending :=
  have k : Off (fun p => p == .engKeys || p == .mem) s (freePlough r s) := freePlough_keeps (Off.keeps _ _) rfl rfl .refl
  ⟨k.clk rfl, k.rcv rfl, k.icu rfl, k.obs rfl, k.sen rfl, k.tamperIn rfl, k.cex rfl, k.xlt rfl, k.srg rfl, k.ods rfl, k.vault rfl, k.kst rfl, k.kwe rfl, k.pke rfl, k.ent rfl, k.atu rfl, k.lcc rfl, k.link rfl, k.sheaf rfl, k.dom rfl, k.pins rfl, k.boot rfl, k.tdi rfl, k.ac rfl, k.vt rfl, k.free rfl, k.out rfl, k.pending rfl⟩

@[simp] theorem flushRegion_same {r : Nat} {s : State} :
    (flushRegion r s).clk = s.clk ∧ (flushRegion r s).sen = s.sen ∧ (flushRegion r s).tamperIn = s.tamperIn ∧ (flushRegion r s).xlt = s.xlt ∧ (flushRegion r s).srg = s.srg ∧ (flushRegion r s).ods = s.ods ∧ (flushRegion r s).vault = s.vault ∧ (flushRegion r s).kst = s.kst ∧ (flushRegion r s).engKeys = s.engKeys ∧ (flushRegion r s).kwe = s.kwe ∧ (flushRegion r s).pke = s.pke ∧ (flushRegion r s).ent = s.ent ∧ (flushRegion r s).atu = s.atu ∧ (flushRegion r s).lcc = s.lcc ∧ (flushRegion r s).link = s.link ∧ (flushRegion r s).sheaf = s.sheaf ∧ (flushRegion r s).dom = s.dom ∧ (flushRegion r s).pins = s.pins ∧ (flushRegion r s).boot = s.boot ∧ (flushRegion r s).tdi = s.tdi ∧ (flushRegion r s).ac = s.ac ∧ (flushRegion r s).vt = s.vt ∧ (flushRegion r s).free = s.free ∧ (flushRegion r s).pending = s.pending :=
  have k : Off (fun p => p == .rcv || p == .icu || p == .obs || p == .cex || p == .mem || p == .out) s (flushRegion r s) := flushRegion_keeps (Off.keeps _ _) rfl rfl rfl rfl rfl rfl .refl
  ⟨k.clk rfl, k.sen rfl, k.tamperIn rfl, k.xlt rfl, k.srg rfl, k.ods rfl, k.vault rfl, k.kst rfl, k.engKeys rfl, k.kwe rfl, k.pke rfl, k.ent rfl, k.atu rfl, k.lcc rfl, k.link rfl, k.sheaf rfl, k.dom rfl, k.pins rfl, k.boot rfl, k.tdi rfl, k.ac rfl, k.vt rfl, k.free rfl, k.pending rfl⟩

@[simp] theorem regionKeyless_same {r : Nat} {s : State} :
    (regionKeyless r s).clk = s.clk ∧ (regionKeyless r s).sen = s.sen ∧ (regionKeyless r s).tamperIn = s.tamperIn ∧ (regionKeyless r s).xlt = s.xlt ∧ (regionKeyless r s).srg = s.srg ∧ (regionKeyless r s).ods = s.ods ∧ (regionKeyless r s).vault = s.vault ∧ (regionKeyless r s).kst = s.kst ∧ (regionKeyless r s).kwe = s.kwe ∧ (regionKeyless r s).pke = s.pke ∧ (regionKeyless r s).ent = s.ent ∧ (regionKeyless r s).atu = s.atu ∧ (regionKeyless r s).lcc = s.lcc ∧ (regionKeyless r s).link = s.link ∧ (regionKeyless r s).sheaf = s.sheaf ∧ (regionKeyless r s).dom = s.dom ∧ (regionKeyless r s).pins = s.pins ∧ (regionKeyless r s).boot = s.boot ∧ (regionKeyless r s).tdi = s.tdi ∧ (regionKeyless r s).ac = s.ac ∧ (regionKeyless r s).vt = s.vt ∧ (regionKeyless r s).free = s.free ∧ (regionKeyless r s).pending = s.pending :=
  have k : Off (fun p => p == .rcv || p == .icu || p == .obs || p == .cex || p == .engKeys || p == .mem || p == .out) s (regionKeyless r s) := regionKeyless_keeps (Off.keeps _ _) rfl rfl rfl rfl rfl rfl rfl .refl
  ⟨k.clk rfl, k.sen rfl, k.tamperIn rfl, k.xlt rfl, k.srg rfl, k.ods rfl, k.vault rfl, k.kst rfl, k.kwe rfl, k.pke rfl, k.ent rfl, k.atu rfl, k.lcc rfl, k.link rfl, k.sheaf rfl, k.dom rfl, k.pins rfl, k.boot rfl, k.tdi rfl, k.ac rfl, k.vt rfl, k.free rfl, k.pending rfl⟩

@[simp] theorem regionsKeyless_same {sl : Nat} {s : State} :
    (regionsKeyless sl s).clk = s.clk ∧ (regionsKeyless sl s).sen = s.sen ∧ (regionsKeyless sl s).tamperIn = s.tamperIn ∧ (regionsKeyless sl s).xlt = s.xlt ∧ (regionsKeyless sl s).srg = s.srg ∧ (regionsKeyless sl s).ods = s.ods ∧ (regionsKeyless sl s).vault = s.vault ∧ (regionsKeyless sl s).kst = s.kst ∧ (regionsKeyless sl s).kwe = s.kwe ∧ (regionsKeyless sl s).pke = s.pke ∧ (regionsKeyless sl s).ent = s.ent ∧ (regionsKeyless sl s).atu = s.atu ∧ (regionsKeyless sl s).lcc = s.lcc ∧ (regionsKeyless sl s).link = s.link ∧ (regionsKeyless sl s).sheaf = s.sheaf ∧ (regionsKeyless sl s).dom = s.dom ∧ (regionsKeyless sl s).pins = s.pins ∧ (regionsKeyless sl s).boot = s.boot ∧ (regionsKeyless sl s).tdi = s.tdi ∧ (regionsKeyless sl s).ac = s.ac ∧ (regionsKeyless sl s).vt = s.vt ∧ (regionsKeyless sl s).free = s.free ∧ (regionsKeyless sl s).pending = s.pending :=
  have k : Off (fun p => p == .rcv || p == .icu || p == .obs || p == .cex || p == .engKeys || p == .mem || p == .out) s (regionsKeyless sl s) := regionsKeyless_keeps (Off.keeps _ _) rfl rfl rfl rfl rfl rfl rfl .refl
  ⟨k.clk rfl, k.sen rfl, k.tamperIn rfl, k.xlt rfl, k.srg rfl, k.ods rfl, k.vault rfl, k.kst rfl, k.kwe rfl, k.pke rfl, k.ent rfl, k.atu rfl, k.lcc rfl, k.link rfl, k.sheaf rfl, k.dom rfl, k.pins rfl, k.boot rfl, k.tdi rfl, k.ac rfl, k.vt rfl, k.free rfl, k.pending rfl⟩

@[simp] theorem zeroizeSlice_same {sl : Nat} {s : State} :
    (zeroizeSlice sl s).clk = s.clk ∧ (zeroizeSlice sl s).sen = s.sen ∧ (zeroizeSlice sl s).tamperIn = s.tamperIn ∧ (zeroizeSlice sl s).xlt = s.xlt ∧ (zeroizeSlice sl s).srg = s.srg ∧ (zeroizeSlice sl s).ods = s.ods ∧ (zeroizeSlice sl s).vault = s.vault ∧ (zeroizeSlice sl s).ent = s.ent ∧ (zeroizeSlice sl s).atu = s.atu ∧ (zeroizeSlice sl s).lcc = s.lcc ∧ (zeroizeSlice sl s).dom = s.dom ∧ (zeroizeSlice sl s).pins = s.pins ∧ (zeroizeSlice sl s).boot = s.boot ∧ (zeroizeSlice sl s).tdi = s.tdi ∧ (zeroizeSlice sl s).free = s.free ∧ (zeroizeSlice sl s).pending = s.pending :=
  have k : Off (fun p => p == .rcv || p == .icu || p == .obs || p == .cex || p == .kst || p == .engKeys || p == .kwe || p == .pke || p == .mem || p == .link || p == .sheaf || p == .ac || p == .vt || p == .out) s (zeroizeSlice sl s) := zeroizeSlice_keeps (Off.keeps _ _) rfl rfl rfl rfl rfl rfl rfl rfl rfl rfl rfl rfl rfl rfl .refl
  ⟨k.clk rfl, k.sen rfl, k.tamperIn rfl, k.xlt rfl, k.srg rfl, k.ods rfl, k.vault rfl, k.ent rfl, k.atu rfl, k.lcc rfl, k.dom rfl, k.pins rfl, k.boot rfl, k.tdi rfl, k.free rfl, k.pending rfl⟩

@[simp] theorem openControl_same {sl m : Nat} {s : State} :
    (openControl sl m s).clk = s.clk ∧ (openControl sl m s).rcv = s.rcv ∧ (openControl sl m s).icu = s.icu ∧ (openControl sl m s).obs = s.obs ∧ (openControl sl m s).sen = s.sen ∧ (openControl sl m s).tamperIn = s.tamperIn ∧ (openControl sl m s).cex = s.cex ∧ (openControl sl m s).xlt = s.xlt ∧ (openControl sl m s).srg = s.srg ∧ (openControl sl m s).ods = s.ods ∧ (openControl sl m s).vault = s.vault ∧ (openControl sl m s).kst = s.kst ∧ (openControl sl m s).pke = s.pke ∧ (openControl sl m s).atu = s.atu ∧ (openControl sl m s).lcc = s.lcc ∧ (openControl sl m s).mem = s.mem ∧ (openControl sl m s).sheaf = s.sheaf ∧ (openControl sl m s).dom = s.dom ∧ (openControl sl m s).pins = s.pins ∧ (openControl sl m s).boot = s.boot ∧ (openControl sl m s).tdi = s.tdi ∧ (openControl sl m s).ac = s.ac ∧ (openControl sl m s).vt = s.vt ∧ (openControl sl m s).free = s.free ∧ (openControl sl m s).out = s.out ∧ (openControl sl m s).pending = s.pending :=
  have k : Off (fun p => p == .engKeys || p == .kwe || p == .ent || p == .link) s (openControl sl m s) := openControl_keeps (Off.keeps _ _) rfl rfl rfl rfl .refl
  ⟨k.clk rfl, k.rcv rfl, k.icu rfl, k.obs rfl, k.sen rfl, k.tamperIn rfl, k.cex rfl, k.xlt rfl, k.srg rfl, k.ods rfl, k.vault rfl, k.kst rfl, k.pke rfl, k.atu rfl, k.lcc rfl, k.mem rfl, k.sheaf rfl, k.dom rfl, k.pins rfl, k.boot rfl, k.tdi rfl, k.ac rfl, k.vt rfl, k.free rfl, k.out rfl, k.pending rfl⟩

@[simp] theorem relay_same {sl cause origin detail : Nat} {came : Option Nat} {s : State} :
    (relay sl cause origin detail came s).clk = s.clk ∧ (relay sl cause origin detail came s).sen = s.sen ∧ (relay sl cause origin detail came s).tamperIn = s.tamperIn ∧ (relay sl cause origin detail came s).xlt = s.xlt ∧ (relay sl cause origin detail came s).ods = s.ods ∧ (relay sl cause origin detail came s).vault = s.vault ∧ (relay sl cause origin detail came s).kst = s.kst ∧ (relay sl cause origin detail came s).pke = s.pke ∧ (relay sl cause origin detail came s).atu = s.atu ∧ (relay sl cause origin detail came s).lcc = s.lcc ∧ (relay sl cause origin detail came s).mem = s.mem ∧ (relay sl cause origin detail came s).sheaf = s.sheaf ∧ (relay sl cause origin detail came s).pins = s.pins ∧ (relay sl cause origin detail came s).boot = s.boot ∧ (relay sl cause origin detail came s).tdi = s.tdi ∧ (relay sl cause origin detail came s).ac = s.ac ∧ (relay sl cause origin detail came s).vt = s.vt ∧ (relay sl cause origin detail came s).free = s.free ∧ (relay sl cause origin detail came s).pending = s.pending :=
  have k : Off (fun p => p == .rcv || p == .icu || p == .obs || p == .cex || p == .srg || p == .engKeys || p == .kwe || p == .ent || p == .link || p == .dom || p == .out) s (relay sl cause origin detail came s) := relay_keeps (Off.keeps _ _) rfl rfl rfl rfl rfl rfl rfl rfl rfl rfl rfl .refl
  ⟨k.clk rfl, k.sen rfl, k.tamperIn rfl, k.xlt rfl, k.ods rfl, k.vault rfl, k.kst rfl, k.pke rfl, k.atu rfl, k.lcc rfl, k.mem rfl, k.sheaf rfl, k.pins rfl, k.boot rfl, k.tdi rfl, k.ac rfl, k.vt rfl, k.free rfl, k.pending rfl⟩

@[simp] theorem updDomLive_same {s : State} :
    (updDomLive s).clk = s.clk ∧ (updDomLive s).rcv = s.rcv ∧ (updDomLive s).icu = s.icu ∧ (updDomLive s).obs = s.obs ∧ (updDomLive s).sen = s.sen ∧ (updDomLive s).tamperIn = s.tamperIn ∧ (updDomLive s).cex = s.cex ∧ (updDomLive s).xlt = s.xlt ∧ (updDomLive s).srg = s.srg ∧ (updDomLive s).ods = s.ods ∧ (updDomLive s).vault = s.vault ∧ (updDomLive s).kst = s.kst ∧ (updDomLive s).engKeys = s.engKeys ∧ (updDomLive s).kwe = s.kwe ∧ (updDomLive s).pke = s.pke ∧ (updDomLive s).ent = s.ent ∧ (updDomLive s).atu = s.atu ∧ (updDomLive s).lcc = s.lcc ∧ (updDomLive s).mem = s.mem ∧ (updDomLive s).link = s.link ∧ (updDomLive s).sheaf = s.sheaf ∧ (updDomLive s).dom = s.dom ∧ (updDomLive s).boot = s.boot ∧ (updDomLive s).tdi = s.tdi ∧ (updDomLive s).ac = s.ac ∧ (updDomLive s).vt = s.vt ∧ (updDomLive s).free = s.free ∧ (updDomLive s).out = s.out ∧ (updDomLive s).pending = s.pending :=
  have k : Off (fun p => p == .pins) s (updDomLive s) := updDomLive_keeps (Off.keeps _ _) rfl .refl
  ⟨k.clk rfl, k.rcv rfl, k.icu rfl, k.obs rfl, k.sen rfl, k.tamperIn rfl, k.cex rfl, k.xlt rfl, k.srg rfl, k.ods rfl, k.vault rfl, k.kst rfl, k.engKeys rfl, k.kwe rfl, k.pke rfl, k.ent rfl, k.atu rfl, k.lcc rfl, k.mem rfl, k.link rfl, k.sheaf rfl, k.dom rfl, k.boot rfl, k.tdi rfl, k.ac rfl, k.vt rfl, k.free rfl, k.out rfl, k.pending rfl⟩

@[simp] theorem setDomState_same {sl st : Nat} {s : State} :
    (setDomState sl st s).clk = s.clk ∧ (setDomState sl st s).rcv = s.rcv ∧ (setDomState sl st s).icu = s.icu ∧ (setDomState sl st s).obs = s.obs ∧ (setDomState sl st s).sen = s.sen ∧ (setDomState sl st s).tamperIn = s.tamperIn ∧ (setDomState sl st s).xlt = s.xlt ∧ (setDomState sl st s).srg = s.srg ∧ (setDomState sl st s).ods = s.ods ∧ (setDomState sl st s).vault = s.vault ∧ (setDomState sl st s).kst = s.kst ∧ (setDomState sl st s).engKeys = s.engKeys ∧ (setDomState sl st s).kwe = s.kwe ∧ (setDomState sl st s).pke = s.pke ∧ (setDomState sl st s).ent = s.ent ∧ (setDomState sl st s).atu = s.atu ∧ (setDomState sl st s).lcc = s.lcc ∧ (setDomState sl st s).sheaf = s.sheaf ∧ (setDomState sl st s).boot = s.boot ∧ (setDomState sl st s).tdi = s.tdi ∧ (setDomState sl st s).free = s.free ∧ (setDomState sl st s).out = s.out ∧ (setDomState sl st s).pending = s.pending :=
  have k : Off (fun p => p == .cex || p == .mem || p == .link || p == .dom || p == .pins || p == .ac || p == .vt) s (setDomState sl st s) := setDomState_keeps (Off.keeps _ _) rfl rfl rfl rfl rfl rfl rfl .refl
  ⟨k.clk rfl, k.rcv rfl, k.icu rfl, k.obs rfl, k.sen rfl, k.tamperIn rfl, k.xlt rfl, k.srg rfl, k.ods rfl, k.vault rfl, k.kst rfl, k.engKeys rfl, k.kwe rfl, k.pke rfl, k.ent rfl, k.atu rfl, k.lcc rfl, k.sheaf rfl, k.boot rfl, k.tdi rfl, k.free rfl, k.out rfl, k.pending rfl⟩

@[simp] theorem forget_same {ks : List CmdKey} {s : State} :
    (forget ks s).clk = s.clk ∧ (forget ks s).rcv = s.rcv ∧ (forget ks s).icu = s.icu ∧ (forget ks s).obs = s.obs ∧ (forget ks s).sen = s.sen ∧ (forget ks s).tamperIn = s.tamperIn ∧ (forget ks s).xlt = s.xlt ∧ (forget ks s).srg = s.srg ∧ (forget ks s).ods = s.ods ∧ (forget ks s).vault = s.vault ∧ (forget ks s).kst = s.kst ∧ (forget ks s).engKeys = s.engKeys ∧ (forget ks s).kwe = s.kwe ∧ (forget ks s).pke = s.pke ∧ (forget ks s).ent = s.ent ∧ (forget ks s).atu = s.atu ∧ (forget ks s).lcc = s.lcc ∧ (forget ks s).mem = s.mem ∧ (forget ks s).link = s.link ∧ (forget ks s).sheaf = s.sheaf ∧ (forget ks s).dom = s.dom ∧ (forget ks s).pins = s.pins ∧ (forget ks s).boot = s.boot ∧ (forget ks s).tdi = s.tdi ∧ (forget ks s).ac = s.ac ∧ (forget ks s).vt = s.vt ∧ (forget ks s).free = s.free ∧ (forget ks s).out = s.out ∧ (forget ks s).pending = s.pending :=
  have k : Off (fun p => p == .cex) s (forget ks s) := forget_keeps (Off.keeps _ _) rfl .refl
  ⟨k.clk rfl, k.rcv rfl, k.icu rfl, k.obs rfl, k.sen rfl, k.tamperIn rfl, k.xlt rfl, k.srg rfl, k.ods rfl, k.vault rfl, k.kst rfl, k.engKeys rfl, k.kwe rfl, k.pke rfl, k.ent rfl, k.atu rfl, k.lcc rfl, k.mem rfl, k.link rfl, k.sheaf rfl, k.dom rfl, k.pins rfl, k.boot rfl, k.tdi rfl, k.ac rfl, k.vt rfl, k.free rfl, k.out rfl, k.pending rfl⟩

@[simp] theorem endAll_same {ks : List CmdKey} {status detail : Nat} {s : State} :
    (endAll ks status detail s).clk = s.clk ∧ (endAll ks status detail s).rcv = s.rcv ∧ (endAll ks status detail s).icu = s.icu ∧ (endAll ks status detail s).obs = s.obs ∧ (endAll ks status detail s).sen = s.sen ∧ (endAll ks status detail s).tamperIn = s.tamperIn ∧ (endAll ks status detail s).xlt = s.xlt ∧ (endAll ks status detail s).srg = s.srg ∧ (endAll ks status detail s).ods = s.ods ∧ (endAll ks status detail s).vault = s.vault ∧ (endAll ks status detail s).kst = s.kst ∧ (endAll ks status detail s).engKeys = s.engKeys ∧ (endAll ks status detail s).kwe = s.kwe ∧ (endAll ks status detail s).pke = s.pke ∧ (endAll ks status detail s).ent = s.ent ∧ (endAll ks status detail s).atu = s.atu ∧ (endAll ks status detail s).lcc = s.lcc ∧ (endAll ks status detail s).mem = s.mem ∧ (endAll ks status detail s).link = s.link ∧ (endAll ks status detail s).sheaf = s.sheaf ∧ (endAll ks status detail s).dom = s.dom ∧ (endAll ks status detail s).pins = s.pins ∧ (endAll ks status detail s).boot = s.boot ∧ (endAll ks status detail s).tdi = s.tdi ∧ (endAll ks status detail s).ac = s.ac ∧ (endAll ks status detail s).vt = s.vt ∧ (endAll ks status detail s).free = s.free ∧ (endAll ks status detail s).out = s.out ∧ (endAll ks status detail s).pending = s.pending :=
  have k : Off (fun p => p == .cex) s (endAll ks status detail s) := endAll_keeps (Off.keeps _ _) rfl .refl
  ⟨k.clk rfl, k.rcv rfl, k.icu rfl, k.obs rfl, k.sen rfl, k.tamperIn rfl, k.xlt rfl, k.srg rfl, k.ods rfl, k.vault rfl, k.kst rfl, k.engKeys rfl, k.kwe rfl, k.pke rfl, k.ent rfl, k.atu rfl, k.lcc rfl, k.mem rfl, k.link rfl, k.sheaf rfl, k.dom rfl, k.pins rfl, k.boot rfl, k.tdi rfl, k.ac rfl, k.vt rfl, k.free rfl, k.out rfl, k.pending rfl⟩

@[simp] theorem abortSlice_same {sl cause origin detail : Nat} {came : Option Nat} {but : Option CmdKey} {s : State} :
    (abortSlice sl cause origin detail came but s).clk = s.clk ∧ (abortSlice sl cause origin detail came but s).sen = s.sen ∧ (abortSlice sl cause origin detail came but s).tamperIn = s.tamperIn ∧ (abortSlice sl cause origin detail came but s).xlt = s.xlt ∧ (abortSlice sl cause origin detail came but s).vault = s.vault ∧ (abortSlice sl cause origin detail came but s).atu = s.atu ∧ (abortSlice sl cause origin detail came but s).lcc = s.lcc ∧ (abortSlice sl cause origin detail came but s).boot = s.boot ∧ (abortSlice sl cause origin detail came but s).tdi = s.tdi ∧ (abortSlice sl cause origin detail came but s).free = s.free ∧ (abortSlice sl cause origin detail came but s).pending = s.pending :=
  have k : Off (fun p => p == .rcv || p == .icu || p == .obs || p == .cex || p == .srg || p == .ods || p == .kst || p == .engKeys || p == .kwe || p == .pke || p == .ent || p == .mem || p == .link || p == .sheaf || p == .dom || p == .pins || p == .ac || p == .vt || p == .out) s (abortSlice sl cause origin detail came but s) := abortSlice_keeps (Off.keeps _ _) rfl rfl rfl rfl rfl rfl rfl rfl rfl rfl rfl rfl rfl rfl rfl rfl rfl rfl rfl .refl
  ⟨k.clk rfl, k.sen rfl, k.tamperIn rfl, k.xlt rfl, k.vault rfl, k.atu rfl, k.lcc rfl, k.boot rfl, k.tdi rfl, k.free rfl, k.pending rfl⟩

@[simp] theorem originate_same {sl cause detail : Nat} {s : State} :
    (originate sl cause detail s).clk = s.clk ∧ (originate sl cause detail s).sen = s.sen ∧ (originate sl cause detail s).tamperIn = s.tamperIn ∧ (originate sl cause detail s).xlt = s.xlt ∧ (originate sl cause detail s).vault = s.vault ∧ (originate sl cause detail s).atu = s.atu ∧ (originate sl cause detail s).lcc = s.lcc ∧ (originate sl cause detail s).boot = s.boot ∧ (originate sl cause detail s).tdi = s.tdi ∧ (originate sl cause detail s).free = s.free ∧ (originate sl cause detail s).pending = s.pending :=
  have k : Off (fun p => p == .rcv || p == .icu || p == .obs || p == .cex || p == .srg || p == .ods || p == .kst || p == .engKeys || p == .kwe || p == .pke || p == .ent || p == .mem || p == .link || p == .sheaf || p == .dom || p == .pins || p == .ac || p == .vt || p == .out) s (originate sl cause detail s) := originate_keeps (Off.keeps _ _) rfl rfl rfl rfl rfl rfl rfl rfl rfl rfl rfl rfl rfl rfl rfl rfl rfl rfl rfl .refl
  ⟨k.clk rfl, k.sen rfl, k.tamperIn rfl, k.xlt rfl, k.vault rfl, k.atu rfl, k.lcc rfl, k.boot rfl, k.tdi rfl, k.free rfl, k.pending rfl⟩

@[simp] theorem abortRegion_same {r cause detail : Nat} {s : State} :
    (abortRegion r cause detail s).clk = s.clk ∧ (abortRegion r cause detail s).sen = s.sen ∧ (abortRegion r cause detail s).tamperIn = s.tamperIn ∧ (abortRegion r cause detail s).xlt = s.xlt ∧ (abortRegion r cause detail s).vault = s.vault ∧ (abortRegion r cause detail s).atu = s.atu ∧ (abortRegion r cause detail s).lcc = s.lcc ∧ (abortRegion r cause detail s).boot = s.boot ∧ (abortRegion r cause detail s).tdi = s.tdi ∧ (abortRegion r cause detail s).free = s.free ∧ (abortRegion r cause detail s).pending = s.pending :=
  have k : Off (fun p => p == .rcv || p == .icu || p == .obs || p == .cex || p == .srg || p == .ods || p == .kst || p == .engKeys || p == .kwe || p == .pke || p == .ent || p == .mem || p == .link || p == .sheaf || p == .dom || p == .pins || p == .ac || p == .vt || p == .out) s (abortRegion r cause detail s) := abortRegion_keeps (Off.keeps _ _) rfl rfl rfl rfl rfl rfl rfl rfl rfl rfl rfl rfl rfl rfl rfl rfl rfl rfl rfl .refl
  ⟨k.clk rfl, k.sen rfl, k.tamperIn rfl, k.xlt rfl, k.vault rfl, k.atu rfl, k.lcc rfl, k.boot rfl, k.tdi rfl, k.free rfl, k.pending rfl⟩

@[simp] theorem endSheaf_same {k : Nat} {s : State} :
    (endSheaf k s).clk = s.clk ∧ (endSheaf k s).rcv = s.rcv ∧ (endSheaf k s).icu = s.icu ∧ (endSheaf k s).obs = s.obs ∧ (endSheaf k s).sen = s.sen ∧ (endSheaf k s).tamperIn = s.tamperIn ∧ (endSheaf k s).xlt = s.xlt ∧ (endSheaf k s).srg = s.srg ∧ (endSheaf k s).ods = s.ods ∧ (endSheaf k s).vault = s.vault ∧ (endSheaf k s).kst = s.kst ∧ (endSheaf k s).kwe = s.kwe ∧ (endSheaf k s).pke = s.pke ∧ (endSheaf k s).atu = s.atu ∧ (endSheaf k s).lcc = s.lcc ∧ (endSheaf k s).mem = s.mem ∧ (endSheaf k s).link = s.link ∧ (endSheaf k s).dom = s.dom ∧ (endSheaf k s).pins = s.pins ∧ (endSheaf k s).boot = s.boot ∧ (endSheaf k s).tdi = s.tdi ∧ (endSheaf k s).ac = s.ac ∧ (endSheaf k s).vt = s.vt ∧ (endSheaf k s).pending = s.pending :=
  have k : Off (fun p => p == .cex || p == .engKeys || p == .ent || p == .sheaf || p == .free || p == .out) s (endSheaf k s) := endSheaf_keeps (Off.keeps _ _) rfl rfl rfl rfl rfl rfl .refl
  ⟨k.clk rfl, k.rcv rfl, k.icu rfl, k.obs rfl, k.sen rfl, k.tamperIn rfl, k.xlt rfl, k.srg rfl, k.ods rfl, k.vault rfl, k.kst rfl, k.kwe rfl, k.pke rfl, k.atu rfl, k.lcc rfl, k.mem rfl, k.link rfl, k.dom rfl, k.pins rfl, k.boot rfl, k.tdi rfl, k.ac rfl, k.vt rfl, k.pending rfl⟩

@[simp] theorem settleSheaves_same {s : State} :
    (settleSheaves s).clk = s.clk ∧ (settleSheaves s).rcv = s.rcv ∧ (settleSheaves s).icu = s.icu ∧ (settleSheaves s).obs = s.obs ∧ (settleSheaves s).sen = s.sen ∧ (settleSheaves s).tamperIn = s.tamperIn ∧ (settleSheaves s).xlt = s.xlt ∧ (settleSheaves s).srg = s.srg ∧ (settleSheaves s).ods = s.ods ∧ (settleSheaves s).vault = s.vault ∧ (settleSheaves s).kst = s.kst ∧ (settleSheaves s).kwe = s.kwe ∧ (settleSheaves s).pke = s.pke ∧ (settleSheaves s).atu = s.atu ∧ (settleSheaves s).lcc = s.lcc ∧ (settleSheaves s).mem = s.mem ∧ (settleSheaves s).link = s.link ∧ (settleSheaves s).dom = s.dom ∧ (settleSheaves s).pins = s.pins ∧ (settleSheaves s).boot = s.boot ∧ (settleSheaves s).tdi = s.tdi ∧ (settleSheaves s).ac = s.ac ∧ (settleSheaves s).vt = s.vt ∧ (settleSheaves s).pending = s.pending :=
  have k : Off (fun p => p == .cex || p == .engKeys || p == .ent || p == .sheaf || p == .free || p == .out) s (settleSheaves s) := settleSheaves_keeps (Off.keeps _ _) rfl rfl rfl rfl rfl rfl .refl
  ⟨k.clk rfl, k.rcv rfl, k.icu rfl, k.obs rfl, k.sen rfl, k.tamperIn rfl, k.xlt rfl, k.srg rfl, k.ods rfl, k.vault rfl, k.kst rfl, k.kwe rfl, k.pke rfl, k.atu rfl, k.lcc rfl, k.mem rfl, k.link rfl, k.dom rfl, k.pins rfl, k.boot rfl, k.tdi rfl, k.ac rfl, k.vt rfl, k.pending rfl⟩

@[simp] theorem sheafAdd_same {k : Option Nat} {e r off : Nat} {imported : Bool} {l : Line} {s : State} :
    (sheafAdd k e r off imported l s).clk = s.clk ∧ (sheafAdd k e r off imported l s).rcv = s.rcv ∧ (sheafAdd k e r off imported l s).icu = s.icu ∧ (sheafAdd k e r off imported l s).obs = s.obs ∧ (sheafAdd k e r off imported l s).sen = s.sen ∧ (sheafAdd k e r off imported l s).tamperIn = s.tamperIn ∧ (sheafAdd k e r off imported l s).cex = s.cex ∧ (sheafAdd k e r off imported l s).xlt = s.xlt ∧ (sheafAdd k e r off imported l s).srg = s.srg ∧ (sheafAdd k e r off imported l s).ods = s.ods ∧ (sheafAdd k e r off imported l s).vault = s.vault ∧ (sheafAdd k e r off imported l s).kst = s.kst ∧ (sheafAdd k e r off imported l s).engKeys = s.engKeys ∧ (sheafAdd k e r off imported l s).kwe = s.kwe ∧ (sheafAdd k e r off imported l s).pke = s.pke ∧ (sheafAdd k e r off imported l s).ent = s.ent ∧ (sheafAdd k e r off imported l s).atu = s.atu ∧ (sheafAdd k e r off imported l s).lcc = s.lcc ∧ (sheafAdd k e r off imported l s).mem = s.mem ∧ (sheafAdd k e r off imported l s).link = s.link ∧ (sheafAdd k e r off imported l s).dom = s.dom ∧ (sheafAdd k e r off imported l s).pins = s.pins ∧ (sheafAdd k e r off imported l s).boot = s.boot ∧ (sheafAdd k e r off imported l s).tdi = s.tdi ∧ (sheafAdd k e r off imported l s).ac = s.ac ∧ (sheafAdd k e r off imported l s).vt = s.vt ∧ (sheafAdd k e r off imported l s).free = s.free ∧ (sheafAdd k e r off imported l s).out = s.out ∧ (sheafAdd k e r off imported l s).pending = s.pending :=
  have k : Off (fun p => p == .sheaf) s (sheafAdd k e r off imported l s) := sheafAdd_keeps (Off.keeps _ _) rfl .refl
  ⟨k.clk rfl, k.rcv rfl, k.icu rfl, k.obs rfl, k.sen rfl, k.tamperIn rfl, k.cex rfl, k.xlt rfl, k.srg rfl, k.ods rfl, k.vault rfl, k.kst rfl, k.engKeys rfl, k.kwe rfl, k.pke rfl, k.ent rfl, k.atu rfl, k.lcc rfl, k.mem rfl, k.link rfl, k.dom rfl, k.pins rfl, k.boot rfl, k.tdi rfl, k.ac rfl, k.vt rfl, k.free rfl, k.out rfl, k.pending rfl⟩

@[simp] theorem updParent_same {r level i : Nat} {f : CLine → CLine} {s : State} :
    (updParent r level i f s).clk = s.clk ∧ (updParent r level i f s).rcv = s.rcv ∧ (updParent r level i f s).icu = s.icu ∧ (updParent r level i f s).obs = s.obs ∧ (updParent r level i f s).sen = s.sen ∧ (updParent r level i f s).tamperIn = s.tamperIn ∧ (updParent r level i f s).cex = s.cex ∧ (updParent r level i f s).xlt = s.xlt ∧ (updParent r level i f s).srg = s.srg ∧ (updParent r level i f s).ods = s.ods ∧ (updParent r level i f s).vault = s.vault ∧ (updParent r level i f s).kst = s.kst ∧ (updParent r level i f s).engKeys = s.engKeys ∧ (updParent r level i f s).kwe = s.kwe ∧ (updParent r level i f s).pke = s.pke ∧ (updParent r level i f s).ent = s.ent ∧ (updParent r level i f s).atu = s.atu ∧ (updParent r level i f s).lcc = s.lcc ∧ (updParent r level i f s).link = s.link ∧ (updParent r level i f s).sheaf = s.sheaf ∧ (updParent r level i f s).dom = s.dom ∧ (updParent r level i f s).pins = s.pins ∧ (updParent r level i f s).boot = s.boot ∧ (updParent r level i f s).tdi = s.tdi ∧ (updParent r level i f s).ac = s.ac ∧ (updParent r level i f s).vt = s.vt ∧ (updParent r level i f s).free = s.free ∧ (updParent r level i f s).out = s.out ∧ (updParent r level i f s).pending = s.pending :=
  have k : Off (fun p => p == .mem) s (updParent r level i f s) := updParent_keeps (Off.keeps _ _) rfl .refl
  ⟨k.clk rfl, k.rcv rfl, k.icu rfl, k.obs rfl, k.sen rfl, k.tamperIn rfl, k.cex rfl, k.xlt rfl, k.srg rfl, k.ods rfl, k.vault rfl, k.kst rfl, k.engKeys rfl, k.kwe rfl, k.pke rfl, k.ent rfl, k.atu rfl, k.lcc rfl, k.link rfl, k.sheaf rfl, k.dom rfl, k.pins rfl, k.boot rfl, k.tdi rfl, k.ac rfl, k.vt rfl, k.free rfl, k.out rfl, k.pending rfl⟩

@[simp] theorem addScrub_same {r level i : Nat} {mirror newer : Bool} {v : Nat} {s : State} :
    (addScrub r level i mirror newer v s).clk = s.clk ∧ (addScrub r level i mirror newer v s).rcv = s.rcv ∧ (addScrub r level i mirror newer v s).icu = s.icu ∧ (addScrub r level i mirror newer v s).obs = s.obs ∧ (addScrub r level i mirror newer v s).sen = s.sen ∧ (addScrub r level i mirror newer v s).tamperIn = s.tamperIn ∧ (addScrub r level i mirror newer v s).cex = s.cex ∧ (addScrub r level i mirror newer v s).xlt = s.xlt ∧ (addScrub r level i mirror newer v s).srg = s.srg ∧ (addScrub r level i mirror newer v s).ods = s.ods ∧ (addScrub r level i mirror newer v s).vault = s.vault ∧ (addScrub r level i mirror newer v s).kst = s.kst ∧ (addScrub r level i mirror newer v s).engKeys = s.engKeys ∧ (addScrub r level i mirror newer v s).kwe = s.kwe ∧ (addScrub r level i mirror newer v s).pke = s.pke ∧ (addScrub r level i mirror newer v s).ent = s.ent ∧ (addScrub r level i mirror newer v s).atu = s.atu ∧ (addScrub r level i mirror newer v s).lcc = s.lcc ∧ (addScrub r level i mirror newer v s).link = s.link ∧ (addScrub r level i mirror newer v s).sheaf = s.sheaf ∧ (addScrub r level i mirror newer v s).dom = s.dom ∧ (addScrub r level i mirror newer v s).pins = s.pins ∧ (addScrub r level i mirror newer v s).boot = s.boot ∧ (addScrub r level i mirror newer v s).tdi = s.tdi ∧ (addScrub r level i mirror newer v s).ac = s.ac ∧ (addScrub r level i mirror newer v s).vt = s.vt ∧ (addScrub r level i mirror newer v s).free = s.free ∧ (addScrub r level i mirror newer v s).out = s.out ∧ (addScrub r level i mirror newer v s).pending = s.pending :=
  have k : Off (fun p => p == .mem) s (addScrub r level i mirror newer v s) := addScrub_keeps (Off.keeps _ _) rfl .refl
  ⟨k.clk rfl, k.rcv rfl, k.icu rfl, k.obs rfl, k.sen rfl, k.tamperIn rfl, k.cex rfl, k.xlt rfl, k.srg rfl, k.ods rfl, k.vault rfl, k.kst rfl, k.engKeys rfl, k.kwe rfl, k.pke rfl, k.ent rfl, k.atu rfl, k.lcc rfl, k.link rfl, k.sheaf rfl, k.dom rfl, k.pins rfl, k.boot rfl, k.tdi rfl, k.ac rfl, k.vt rfl, k.free rfl, k.out rfl, k.pending rfl⟩

@[simp] theorem touch_same {r level i : Nat} {s : State} :
    (touch r level i s).clk = s.clk ∧ (touch r level i s).rcv = s.rcv ∧ (touch r level i s).icu = s.icu ∧ (touch r level i s).obs = s.obs ∧ (touch r level i s).sen = s.sen ∧ (touch r level i s).tamperIn = s.tamperIn ∧ (touch r level i s).cex = s.cex ∧ (touch r level i s).xlt = s.xlt ∧ (touch r level i s).srg = s.srg ∧ (touch r level i s).ods = s.ods ∧ (touch r level i s).vault = s.vault ∧ (touch r level i s).kst = s.kst ∧ (touch r level i s).engKeys = s.engKeys ∧ (touch r level i s).kwe = s.kwe ∧ (touch r level i s).pke = s.pke ∧ (touch r level i s).ent = s.ent ∧ (touch r level i s).atu = s.atu ∧ (touch r level i s).lcc = s.lcc ∧ (touch r level i s).link = s.link ∧ (touch r level i s).sheaf = s.sheaf ∧ (touch r level i s).dom = s.dom ∧ (touch r level i s).pins = s.pins ∧ (touch r level i s).boot = s.boot ∧ (touch r level i s).tdi = s.tdi ∧ (touch r level i s).ac = s.ac ∧ (touch r level i s).vt = s.vt ∧ (touch r level i s).free = s.free ∧ (touch r level i s).out = s.out ∧ (touch r level i s).pending = s.pending :=
  have k : Off (fun p => p == .mem) s (touch r level i s) := touch_keeps (Off.keeps _ _) rfl .refl
  ⟨k.clk rfl, k.rcv rfl, k.icu rfl, k.obs rfl, k.sen rfl, k.tamperIn rfl, k.cex rfl, k.xlt rfl, k.srg rfl, k.ods rfl, k.vault rfl, k.kst rfl, k.engKeys rfl, k.kwe rfl, k.pke rfl, k.ent rfl, k.atu rfl, k.lcc rfl, k.link rfl, k.sheaf rfl, k.dom rfl, k.pins rfl, k.boot rfl, k.tdi rfl, k.ac rfl, k.vt rfl, k.free rfl, k.out rfl, k.pending rfl⟩

@[simp] theorem touchPath_same {r level i : Nat} {s : State} :
    (touchPath r level i s).clk = s.clk ∧ (touchPath r level i s).rcv = s.rcv ∧ (touchPath r level i s).icu = s.icu ∧ (touchPath r level i s).obs = s.obs ∧ (touchPath r level i s).sen = s.sen ∧ (touchPath r level i s).tamperIn = s.tamperIn ∧ (touchPath r level i s).cex = s.cex ∧ (touchPath r level i s).xlt = s.xlt ∧ (touchPath r level i s).srg = s.srg ∧ (touchPath r level i s).ods = s.ods ∧ (touchPath r level i s).vault = s.vault ∧ (touchPath r level i s).kst = s.kst ∧ (touchPath r level i s).engKeys = s.engKeys ∧ (touchPath r level i s).kwe = s.kwe ∧ (touchPath r level i s).pke = s.pke ∧ (touchPath r level i s).ent = s.ent ∧ (touchPath r level i s).atu = s.atu ∧ (touchPath r level i s).lcc = s.lcc ∧ (touchPath r level i s).link = s.link ∧ (touchPath r level i s).sheaf = s.sheaf ∧ (touchPath r level i s).dom = s.dom ∧ (touchPath r level i s).pins = s.pins ∧ (touchPath r level i s).boot = s.boot ∧ (touchPath r level i s).tdi = s.tdi ∧ (touchPath r level i s).ac = s.ac ∧ (touchPath r level i s).vt = s.vt ∧ (touchPath r level i s).free = s.free ∧ (touchPath r level i s).out = s.out ∧ (touchPath r level i s).pending = s.pending :=
  have k : Off (fun p => p == .mem) s (touchPath r level i s) := touchPath_keeps (Off.keeps _ _) rfl .refl
  ⟨k.clk rfl, k.rcv rfl, k.icu rfl, k.obs rfl, k.sen rfl, k.tamperIn rfl, k.cex rfl, k.xlt rfl, k.srg rfl, k.ods rfl, k.vault rfl, k.kst rfl, k.engKeys rfl, k.kwe rfl, k.pke rfl, k.ent rfl, k.atu rfl, k.lcc rfl, k.link rfl, k.sheaf rfl, k.dom rfl, k.pins rfl, k.boot rfl, k.tdi rfl, k.ac rfl, k.vt rfl, k.free rfl, k.out rfl, k.pending rfl⟩

@[simp] theorem goFallow_same {cause failed first cnt r e anchor : Nat} {s : State} :
    (goFallow cause failed first cnt r e anchor s).clk = s.clk ∧ (goFallow cause failed first cnt r e anchor s).sen = s.sen ∧ (goFallow cause failed first cnt r e anchor s).tamperIn = s.tamperIn ∧ (goFallow cause failed first cnt r e anchor s).xlt = s.xlt ∧ (goFallow cause failed first cnt r e anchor s).vault = s.vault ∧ (goFallow cause failed first cnt r e anchor s).atu = s.atu ∧ (goFallow cause failed first cnt r e anchor s).lcc = s.lcc ∧ (goFallow cause failed first cnt r e anchor s).boot = s.boot ∧ (goFallow cause failed first cnt r e anchor s).tdi = s.tdi ∧ (goFallow cause failed first cnt r e anchor s).free = s.free ∧ (goFallow cause failed first cnt r e anchor s).pending = s.pending :=
  have k : Off (fun p => p == .rcv || p == .icu || p == .obs || p == .cex || p == .srg || p == .ods || p == .kst || p == .engKeys || p == .kwe || p == .pke || p == .ent || p == .mem || p == .link || p == .sheaf || p == .dom || p == .pins || p == .ac || p == .vt || p == .out) s (goFallow cause failed first cnt r e anchor s) := goFallow_keeps (Off.keeps _ _) rfl rfl rfl rfl rfl rfl rfl rfl rfl rfl rfl rfl rfl rfl rfl rfl rfl rfl rfl .refl
  ⟨k.clk rfl, k.sen rfl, k.tamperIn rfl, k.xlt rfl, k.vault rfl, k.atu rfl, k.lcc rfl, k.boot rfl, k.tdi rfl, k.free rfl, k.pending rfl⟩

@[simp] theorem counterLost_same {x : MemRead} {anchor tried : Nat} {s : State} :
    (counterLost x anchor tried s).clk = s.clk ∧ (counterLost x anchor tried s).sen = s.sen ∧ (counterLost x anchor tried s).tamperIn = s.tamperIn ∧ (counterLost x anchor tried s).xlt = s.xlt ∧ (counterLost x anchor tried s).vault = s.vault ∧ (counterLost x anchor tried s).atu = s.atu ∧ (counterLost x anchor tried s).lcc = s.lcc ∧ (counterLost x anchor tried s).boot = s.boot ∧ (counterLost x anchor tried s).tdi = s.tdi ∧ (counterLost x anchor tried s).free = s.free ∧ (counterLost x anchor tried s).pending = s.pending :=
  have k : Off (fun p => p == .rcv || p == .icu || p == .obs || p == .cex || p == .srg || p == .ods || p == .kst || p == .engKeys || p == .kwe || p == .pke || p == .ent || p == .mem || p == .link || p == .sheaf || p == .dom || p == .pins || p == .ac || p == .vt || p == .out) s (counterLost x anchor tried s) := counterLost_keeps (Off.keeps _ _) rfl rfl rfl rfl rfl rfl rfl rfl rfl rfl rfl rfl rfl rfl rfl rfl rfl rfl rfl .refl
  ⟨k.clk rfl, k.sen rfl, k.tamperIn rfl, k.xlt rfl, k.vault rfl, k.atu rfl, k.lcc rfl, k.boot rfl, k.tdi rfl, k.free rfl, k.pending rfl⟩

@[simp] theorem fetchMirror_same {r level i anchor : Nat} {s : State} :
    (fetchMirror r level i anchor s).clk = s.clk ∧ (fetchMirror r level i anchor s).rcv = s.rcv ∧ (fetchMirror r level i anchor s).icu = s.icu ∧ (fetchMirror r level i anchor s).obs = s.obs ∧ (fetchMirror r level i anchor s).sen = s.sen ∧ (fetchMirror r level i anchor s).tamperIn = s.tamperIn ∧ (fetchMirror r level i anchor s).cex = s.cex ∧ (fetchMirror r level i anchor s).xlt = s.xlt ∧ (fetchMirror r level i anchor s).srg = s.srg ∧ (fetchMirror r level i anchor s).ods = s.ods ∧ (fetchMirror r level i anchor s).vault = s.vault ∧ (fetchMirror r level i anchor s).kst = s.kst ∧ (fetchMirror r level i anchor s).engKeys = s.engKeys ∧ (fetchMirror r level i anchor s).kwe = s.kwe ∧ (fetchMirror r level i anchor s).pke = s.pke ∧ (fetchMirror r level i anchor s).ent = s.ent ∧ (fetchMirror r level i anchor s).atu = s.atu ∧ (fetchMirror r level i anchor s).lcc = s.lcc ∧ (fetchMirror r level i anchor s).link = s.link ∧ (fetchMirror r level i anchor s).sheaf = s.sheaf ∧ (fetchMirror r level i anchor s).dom = s.dom ∧ (fetchMirror r level i anchor s).pins = s.pins ∧ (fetchMirror r level i anchor s).boot = s.boot ∧ (fetchMirror r level i anchor s).tdi = s.tdi ∧ (fetchMirror r level i anchor s).ac = s.ac ∧ (fetchMirror r level i anchor s).vt = s.vt ∧ (fetchMirror r level i anchor s).free = s.free ∧ (fetchMirror r level i anchor s).out = s.out ∧ (fetchMirror r level i anchor s).pending = s.pending :=
  have k : Off (fun p => p == .mem) s (fetchMirror r level i anchor s) := fetchMirror_keeps (Off.keeps _ _) rfl .refl
  ⟨k.clk rfl, k.rcv rfl, k.icu rfl, k.obs rfl, k.sen rfl, k.tamperIn rfl, k.cex rfl, k.xlt rfl, k.srg rfl, k.ods rfl, k.vault rfl, k.kst rfl, k.engKeys rfl, k.kwe rfl, k.pke rfl, k.ent rfl, k.atu rfl, k.lcc rfl, k.link rfl, k.sheaf rfl, k.dom rfl, k.pins rfl, k.boot rfl, k.tdi rfl, k.ac rfl, k.vt rfl, k.free rfl, k.out rfl, k.pending rfl⟩

@[simp] theorem counterGone_same {x : MemRead} {anchor tried : Nat} {s : State} :
    (counterGone x anchor tried s).clk = s.clk ∧ (counterGone x anchor tried s).sen = s.sen ∧ (counterGone x anchor tried s).tamperIn = s.tamperIn ∧ (counterGone x anchor tried s).xlt = s.xlt ∧ (counterGone x anchor tried s).vault = s.vault ∧ (counterGone x anchor tried s).atu = s.atu ∧ (counterGone x anchor tried s).lcc = s.lcc ∧ (counterGone x anchor tried s).boot = s.boot ∧ (counterGone x anchor tried s).tdi = s.tdi ∧ (counterGone x anchor tried s).free = s.free ∧ (counterGone x anchor tried s).pending = s.pending :=
  have k : Off (fun p => p == .rcv || p == .icu || p == .obs || p == .cex || p == .srg || p == .ods || p == .kst || p == .engKeys || p == .kwe || p == .pke || p == .ent || p == .mem || p == .link || p == .sheaf || p == .dom || p == .pins || p == .ac || p == .vt || p == .out) s (counterGone x anchor tried s) := counterGone_keeps (Off.keeps _ _) rfl rfl rfl rfl rfl rfl rfl rfl rfl rfl rfl rfl rfl rfl rfl rfl rfl rfl rfl .refl
  ⟨k.clk rfl, k.sen rfl, k.tamperIn rfl, k.xlt rfl, k.vault rfl, k.atu rfl, k.lcc rfl, k.boot rfl, k.tdi rfl, k.free rfl, k.pending rfl⟩

@[simp] theorem noteRetry_same {x : MemRead} {outcome : Nat} {s : State} :
    (noteRetry x outcome s).clk = s.clk ∧ (noteRetry x outcome s).sen = s.sen ∧ (noteRetry x outcome s).tamperIn = s.tamperIn ∧ (noteRetry x outcome s).xlt = s.xlt ∧ (noteRetry x outcome s).srg = s.srg ∧ (noteRetry x outcome s).ods = s.ods ∧ (noteRetry x outcome s).vault = s.vault ∧ (noteRetry x outcome s).kst = s.kst ∧ (noteRetry x outcome s).engKeys = s.engKeys ∧ (noteRetry x outcome s).kwe = s.kwe ∧ (noteRetry x outcome s).pke = s.pke ∧ (noteRetry x outcome s).ent = s.ent ∧ (noteRetry x outcome s).atu = s.atu ∧ (noteRetry x outcome s).lcc = s.lcc ∧ (noteRetry x outcome s).link = s.link ∧ (noteRetry x outcome s).sheaf = s.sheaf ∧ (noteRetry x outcome s).dom = s.dom ∧ (noteRetry x outcome s).pins = s.pins ∧ (noteRetry x outcome s).boot = s.boot ∧ (noteRetry x outcome s).tdi = s.tdi ∧ (noteRetry x outcome s).ac = s.ac ∧ (noteRetry x outcome s).vt = s.vt ∧ (noteRetry x outcome s).free = s.free ∧ (noteRetry x outcome s).pending = s.pending :=
  have k : Off (fun p => p == .rcv || p == .icu || p == .obs || p == .cex || p == .mem || p == .out) s (noteRetry x outcome s) := noteRetry_keeps (Off.keeps _ _) rfl rfl rfl rfl rfl rfl .refl
  ⟨k.clk rfl, k.sen rfl, k.tamperIn rfl, k.xlt rfl, k.srg rfl, k.ods rfl, k.vault rfl, k.kst rfl, k.engKeys rfl, k.kwe rfl, k.pke rfl, k.ent rfl, k.atu rfl, k.lcc rfl, k.link rfl, k.sheaf rfl, k.dom rfl, k.pins rfl, k.boot rfl, k.tdi rfl, k.ac rfl, k.vt rfl, k.free rfl, k.pending rfl⟩

@[simp] theorem storeCounter_same {c : CLine} {v : Nat} {s : State} :
    (storeCounter c v s).clk = s.clk ∧ (storeCounter c v s).rcv = s.rcv ∧ (storeCounter c v s).icu = s.icu ∧ (storeCounter c v s).obs = s.obs ∧ (storeCounter c v s).sen = s.sen ∧ (storeCounter c v s).tamperIn = s.tamperIn ∧ (storeCounter c v s).cex = s.cex ∧ (storeCounter c v s).xlt = s.xlt ∧ (storeCounter c v s).srg = s.srg ∧ (storeCounter c v s).ods = s.ods ∧ (storeCounter c v s).vault = s.vault ∧ (storeCounter c v s).kst = s.kst ∧ (storeCounter c v s).engKeys = s.engKeys ∧ (storeCounter c v s).kwe = s.kwe ∧ (storeCounter c v s).pke = s.pke ∧ (storeCounter c v s).ent = s.ent ∧ (storeCounter c v s).atu = s.atu ∧ (storeCounter c v s).lcc = s.lcc ∧ (storeCounter c v s).link = s.link ∧ (storeCounter c v s).sheaf = s.sheaf ∧ (storeCounter c v s).dom = s.dom ∧ (storeCounter c v s).pins = s.pins ∧ (storeCounter c v s).boot = s.boot ∧ (storeCounter c v s).tdi = s.tdi ∧ (storeCounter c v s).ac = s.ac ∧ (storeCounter c v s).vt = s.vt ∧ (storeCounter c v s).free = s.free ∧ (storeCounter c v s).out = s.out ∧ (storeCounter c v s).pending = s.pending :=
  have k : Off (fun p => p == .mem) s (storeCounter c v s) := storeCounter_keeps (Off.keeps _ _) rfl .refl
  ⟨k.clk rfl, k.rcv rfl, k.icu rfl, k.obs rfl, k.sen rfl, k.tamperIn rfl, k.cex rfl, k.xlt rfl, k.srg rfl, k.ods rfl, k.vault rfl, k.kst rfl, k.engKeys rfl, k.kwe rfl, k.pke rfl, k.ent rfl, k.atu rfl, k.lcc rfl, k.link rfl, k.sheaf rfl, k.dom rfl, k.pins rfl, k.boot rfl, k.tdi rfl, k.ac rfl, k.vt rfl, k.free rfl, k.out rfl, k.pending rfl⟩

@[simp] theorem fetchLine_same {r level i : Nat} {s : State} :
    (fetchLine r level i s).clk = s.clk ∧ (fetchLine r level i s).rcv = s.rcv ∧ (fetchLine r level i s).icu = s.icu ∧ (fetchLine r level i s).obs = s.obs ∧ (fetchLine r level i s).sen = s.sen ∧ (fetchLine r level i s).tamperIn = s.tamperIn ∧ (fetchLine r level i s).cex = s.cex ∧ (fetchLine r level i s).xlt = s.xlt ∧ (fetchLine r level i s).srg = s.srg ∧ (fetchLine r level i s).ods = s.ods ∧ (fetchLine r level i s).vault = s.vault ∧ (fetchLine r level i s).kst = s.kst ∧ (fetchLine r level i s).engKeys = s.engKeys ∧ (fetchLine r level i s).kwe = s.kwe ∧ (fetchLine r level i s).pke = s.pke ∧ (fetchLine r level i s).ent = s.ent ∧ (fetchLine r level i s).atu = s.atu ∧ (fetchLine r level i s).lcc = s.lcc ∧ (fetchLine r level i s).link = s.link ∧ (fetchLine r level i s).sheaf = s.sheaf ∧ (fetchLine r level i s).dom = s.dom ∧ (fetchLine r level i s).pins = s.pins ∧ (fetchLine r level i s).boot = s.boot ∧ (fetchLine r level i s).tdi = s.tdi ∧ (fetchLine r level i s).ac = s.ac ∧ (fetchLine r level i s).vt = s.vt ∧ (fetchLine r level i s).free = s.free ∧ (fetchLine r level i s).out = s.out ∧ (fetchLine r level i s).pending = s.pending :=
  have k : Off (fun p => p == .mem) s (fetchLine r level i s) := fetchLine_keeps (Off.keeps _ _) rfl .refl
  ⟨k.clk rfl, k.rcv rfl, k.icu rfl, k.obs rfl, k.sen rfl, k.tamperIn rfl, k.cex rfl, k.xlt rfl, k.srg rfl, k.ods rfl, k.vault rfl, k.kst rfl, k.engKeys rfl, k.kwe rfl, k.pke rfl, k.ent rfl, k.atu rfl, k.lcc rfl, k.link rfl, k.sheaf rfl, k.dom rfl, k.pins rfl, k.boot rfl, k.tdi rfl, k.ac rfl, k.vt rfl, k.free rfl, k.out rfl, k.pending rfl⟩

@[simp] theorem fetchMissing_same {r n : Nat} {s : State} :
    (fetchMissing r n s).clk = s.clk ∧ (fetchMissing r n s).rcv = s.rcv ∧ (fetchMissing r n s).icu = s.icu ∧ (fetchMissing r n s).obs = s.obs ∧ (fetchMissing r n s).sen = s.sen ∧ (fetchMissing r n s).tamperIn = s.tamperIn ∧ (fetchMissing r n s).cex = s.cex ∧ (fetchMissing r n s).xlt = s.xlt ∧ (fetchMissing r n s).srg = s.srg ∧ (fetchMissing r n s).ods = s.ods ∧ (fetchMissing r n s).vault = s.vault ∧ (fetchMissing r n s).kst = s.kst ∧ (fetchMissing r n s).engKeys = s.engKeys ∧ (fetchMissing r n s).kwe = s.kwe ∧ (fetchMissing r n s).pke = s.pke ∧ (fetchMissing r n s).ent = s.ent ∧ (fetchMissing r n s).atu = s.atu ∧ (fetchMissing r n s).lcc = s.lcc ∧ (fetchMissing r n s).link = s.link ∧ (fetchMissing r n s).sheaf = s.sheaf ∧ (fetchMissing r n s).dom = s.dom ∧ (fetchMissing r n s).pins = s.pins ∧ (fetchMissing r n s).boot = s.boot ∧ (fetchMissing r n s).tdi = s.tdi ∧ (fetchMissing r n s).ac = s.ac ∧ (fetchMissing r n s).vt = s.vt ∧ (fetchMissing r n s).free = s.free ∧ (fetchMissing r n s).out = s.out ∧ (fetchMissing r n s).pending = s.pending :=
  have k : Off (fun p => p == .mem) s (fetchMissing r n s) := fetchMissing_keeps (Off.keeps _ _) rfl .refl
  ⟨k.clk rfl, k.rcv rfl, k.icu rfl, k.obs rfl, k.sen rfl, k.tamperIn rfl, k.cex rfl, k.xlt rfl, k.srg rfl, k.ods rfl, k.vault rfl, k.kst rfl, k.engKeys rfl, k.kwe rfl, k.pke rfl, k.ent rfl, k.atu rfl, k.lcc rfl, k.link rfl, k.sheaf rfl, k.dom rfl, k.pins rfl, k.boot rfl, k.tdi rfl, k.ac rfl, k.vt rfl, k.free rfl, k.out rfl, k.pending rfl⟩

@[simp] theorem raiseExhausted_same {r off : Nat} {s : State} :
    (raiseExhausted r off s).clk = s.clk ∧ (raiseExhausted r off s).sen = s.sen ∧ (raiseExhausted r off s).tamperIn = s.tamperIn ∧ (raiseExhausted r off s).xlt = s.xlt ∧ (raiseExhausted r off s).srg = s.srg ∧ (raiseExhausted r off s).ods = s.ods ∧ (raiseExhausted r off s).vault = s.vault ∧ (raiseExhausted r off s).kst = s.kst ∧ (raiseExhausted r off s).engKeys = s.engKeys ∧ (raiseExhausted r off s).kwe = s.kwe ∧ (raiseExhausted r off s).pke = s.pke ∧ (raiseExhausted r off s).ent = s.ent ∧ (raiseExhausted r off s).atu = s.atu ∧ (raiseExhausted r off s).lcc = s.lcc ∧ (raiseExhausted r off s).link = s.link ∧ (raiseExhausted r off s).sheaf = s.sheaf ∧ (raiseExhausted r off s).dom = s.dom ∧ (raiseExhausted r off s).pins = s.pins ∧ (raiseExhausted r off s).boot = s.boot ∧ (raiseExhausted r off s).tdi = s.tdi ∧ (raiseExhausted r off s).ac = s.ac ∧ (raiseExhausted r off s).vt = s.vt ∧ (raiseExhausted r off s).free = s.free ∧ (raiseExhausted r off s).pending = s.pending :=
  have k : Off (fun p => p == .rcv || p == .icu || p == .obs || p == .cex || p == .mem || p == .out) s (raiseExhausted r off s) := raiseExhausted_keeps (Off.keeps _ _) rfl rfl rfl rfl rfl rfl .refl
  ⟨k.clk rfl, k.sen rfl, k.tamperIn rfl, k.xlt rfl, k.srg rfl, k.ods rfl, k.vault rfl, k.kst rfl, k.engKeys rfl, k.kwe rfl, k.pke rfl, k.ent rfl, k.atu rfl, k.lcc rfl, k.link rfl, k.sheaf rfl, k.dom rfl, k.pins rfl, k.boot rfl, k.tdi rfl, k.ac rfl, k.vt rfl, k.free rfl, k.pending rfl⟩

@[simp] theorem noteBlocked_same {ls : List CLine} {s : State} :
    (noteBlocked ls s).clk = s.clk ∧ (noteBlocked ls s).sen = s.sen ∧ (noteBlocked ls s).tamperIn = s.tamperIn ∧ (noteBlocked ls s).xlt = s.xlt ∧ (noteBlocked ls s).srg = s.srg ∧ (noteBlocked ls s).ods = s.ods ∧ (noteBlocked ls s).vault = s.vault ∧ (noteBlocked ls s).kst = s.kst ∧ (noteBlocked ls s).engKeys = s.engKeys ∧ (noteBlocked ls s).kwe = s.kwe ∧ (noteBlocked ls s).pke = s.pke ∧ (noteBlocked ls s).ent = s.ent ∧ (noteBlocked ls s).atu = s.atu ∧ (noteBlocked ls s).lcc = s.lcc ∧ (noteBlocked ls s).link = s.link ∧ (noteBlocked ls s).sheaf = s.sheaf ∧ (noteBlocked ls s).dom = s.dom ∧ (noteBlocked ls s).pins = s.pins ∧ (noteBlocked ls s).boot = s.boot ∧ (noteBlocked ls s).tdi = s.tdi ∧ (noteBlocked ls s).ac = s.ac ∧ (noteBlocked ls s).vt = s.vt ∧ (noteBlocked ls s).free = s.free ∧ (noteBlocked ls s).pending = s.pending :=
  have k : Off (fun p => p == .rcv || p == .icu || p == .obs || p == .cex || p == .mem || p == .out) s (noteBlocked ls s) := noteBlocked_keeps (Off.keeps _ _) rfl rfl rfl rfl rfl rfl .refl
  ⟨k.clk rfl, k.sen rfl, k.tamperIn rfl, k.xlt rfl, k.srg rfl, k.ods rfl, k.vault rfl, k.kst rfl, k.engKeys rfl, k.kwe rfl, k.pke rfl, k.ent rfl, k.atu rfl, k.lcc rfl, k.link rfl, k.sheaf rfl, k.dom rfl, k.pins rfl, k.boot rfl, k.tdi rfl, k.ac rfl, k.vt rfl, k.free rfl, k.pending rfl⟩

@[simp] theorem tagFailed_same {x : MemRead} {status : Nat} {s : State} :
    (tagFailed x status s).clk = s.clk ∧ (tagFailed x status s).sen = s.sen ∧ (tagFailed x status s).tamperIn = s.tamperIn ∧ (tagFailed x status s).xlt = s.xlt ∧ (tagFailed x status s).vault = s.vault ∧ (tagFailed x status s).atu = s.atu ∧ (tagFailed x status s).lcc = s.lcc ∧ (tagFailed x status s).boot = s.boot ∧ (tagFailed x status s).tdi = s.tdi ∧ (tagFailed x status s).free = s.free ∧ (tagFailed x status s).pending = s.pending :=
  have k : Off (fun p => p == .rcv || p == .icu || p == .obs || p == .cex || p == .srg || p == .ods || p == .kst || p == .engKeys || p == .kwe || p == .pke || p == .ent || p == .mem || p == .link || p == .sheaf || p == .dom || p == .pins || p == .ac || p == .vt || p == .out) s (tagFailed x status s) := tagFailed_keeps (Off.keeps _ _) rfl rfl rfl rfl rfl rfl rfl rfl rfl rfl rfl rfl rfl rfl rfl rfl rfl rfl rfl .refl
  ⟨k.clk rfl, k.sen rfl, k.tamperIn rfl, k.xlt rfl, k.vault rfl, k.atu rfl, k.lcc rfl, k.boot rfl, k.tdi rfl, k.free rfl, k.pending rfl⟩

@[simp] theorem restorePrimary_same {x : MemRead} {c : CLine} {v : Nat} {s : State} :
    (restorePrimary x c v s).clk = s.clk ∧ (restorePrimary x c v s).sen = s.sen ∧ (restorePrimary x c v s).tamperIn = s.tamperIn ∧ (restorePrimary x c v s).xlt = s.xlt ∧ (restorePrimary x c v s).srg = s.srg ∧ (restorePrimary x c v s).ods = s.ods ∧ (restorePrimary x c v s).vault = s.vault ∧ (restorePrimary x c v s).kst = s.kst ∧ (restorePrimary x c v s).engKeys = s.engKeys ∧ (restorePrimary x c v s).kwe = s.kwe ∧ (restorePrimary x c v s).pke = s.pke ∧ (restorePrimary x c v s).ent = s.ent ∧ (restorePrimary x c v s).atu = s.atu ∧ (restorePrimary x c v s).lcc = s.lcc ∧ (restorePrimary x c v s).link = s.link ∧ (restorePrimary x c v s).sheaf = s.sheaf ∧ (restorePrimary x c v s).dom = s.dom ∧ (restorePrimary x c v s).pins = s.pins ∧ (restorePrimary x c v s).boot = s.boot ∧ (restorePrimary x c v s).tdi = s.tdi ∧ (restorePrimary x c v s).ac = s.ac ∧ (restorePrimary x c v s).vt = s.vt ∧ (restorePrimary x c v s).free = s.free ∧ (restorePrimary x c v s).pending = s.pending :=
  have k : Off (fun p => p == .rcv || p == .icu || p == .obs || p == .cex || p == .mem || p == .out) s (restorePrimary x c v s) := restorePrimary_keeps (Off.keeps _ _) rfl rfl rfl rfl rfl rfl .refl
  ⟨k.clk rfl, k.sen rfl, k.tamperIn rfl, k.xlt rfl, k.srg rfl, k.ods rfl, k.vault rfl, k.kst rfl, k.engKeys rfl, k.kwe rfl, k.pke rfl, k.ent rfl, k.atu rfl, k.lcc rfl, k.link rfl, k.sheaf rfl, k.dom rfl, k.pins rfl, k.boot rfl, k.tdi rfl, k.ac rfl, k.vt rfl, k.free rfl, k.pending rfl⟩

@[simp] theorem dueFailed_same {x : MemRead} {anchor tried : Nat} {s : State} :
    (dueFailed x anchor tried s).clk = s.clk ∧ (dueFailed x anchor tried s).sen = s.sen ∧ (dueFailed x anchor tried s).tamperIn = s.tamperIn ∧ (dueFailed x anchor tried s).xlt = s.xlt ∧ (dueFailed x anchor tried s).vault = s.vault ∧ (dueFailed x anchor tried s).atu = s.atu ∧ (dueFailed x anchor tried s).lcc = s.lcc ∧ (dueFailed x anchor tried s).boot = s.boot ∧ (dueFailed x anchor tried s).tdi = s.tdi ∧ (dueFailed x anchor tried s).free = s.free ∧ (dueFailed x anchor tried s).pending = s.pending :=
  have k : Off (fun p => p == .rcv || p == .icu || p == .obs || p == .cex || p == .srg || p == .ods || p == .kst || p == .engKeys || p == .kwe || p == .pke || p == .ent || p == .mem || p == .link || p == .sheaf || p == .dom || p == .pins || p == .ac || p == .vt || p == .out) s (dueFailed x anchor tried s) := dueFailed_keeps (Off.keeps _ _) rfl rfl rfl rfl rfl rfl rfl rfl rfl rfl rfl rfl rfl rfl rfl rfl rfl rfl rfl .refl
  ⟨k.clk rfl, k.sen rfl, k.tamperIn rfl, k.xlt rfl, k.vault rfl, k.atu rfl, k.lcc rfl, k.boot rfl, k.tdi rfl, k.free rfl, k.pending rfl⟩

@[simp] theorem settlePlough_same {r : Nat} {s : State} :
    (settlePlough r s).clk = s.clk ∧ (settlePlough r s).sen = s.sen ∧ (settlePlough r s).tamperIn = s.tamperIn ∧ (settlePlough r s).xlt = s.xlt ∧ (settlePlough r s).srg = s.srg ∧ (settlePlough r s).ods = s.ods ∧ (settlePlough r s).vault = s.vault ∧ (settlePlough r s).kst = s.kst ∧ (settlePlough r s).engKeys = s.engKeys ∧ (settlePlough r s).kwe = s.kwe ∧ (settlePlough r s).pke = s.pke ∧ (settlePlough r s).ent = s.ent ∧ (settlePlough r s).atu = s.atu ∧ (settlePlough r s).lcc = s.lcc ∧ (settlePlough r s).link = s.link ∧ (settlePlough r s).sheaf = s.sheaf ∧ (settlePlough r s).dom = s.dom ∧ (settlePlough r s).pins = s.pins ∧ (settlePlough r s).boot = s.boot ∧ (settlePlough r s).tdi = s.tdi ∧ (settlePlough r s).ac = s.ac ∧ (settlePlough r s).vt = s.vt ∧ (settlePlough r s).free = s.free ∧ (settlePlough r s).pending = s.pending :=
  have k : Off (fun p => p == .rcv || p == .icu || p == .obs || p == .cex || p == .mem || p == .out) s (settlePlough r s) := settlePlough_keeps (Off.keeps _ _) rfl rfl rfl rfl rfl rfl .refl
  ⟨k.clk rfl, k.sen rfl, k.tamperIn rfl, k.xlt rfl, k.srg rfl, k.ods rfl, k.vault rfl, k.kst rfl, k.engKeys rfl, k.kwe rfl, k.pke rfl, k.ent rfl, k.atu rfl, k.lcc rfl, k.link rfl, k.sheaf rfl, k.dom rfl, k.pins rfl, k.boot rfl, k.tdi rfl, k.ac rfl, k.vt rfl, k.free rfl, k.pending rfl⟩

@[simp] theorem passLine_same {r n : Nat} {s : State} :
    (passLine r n s).clk = s.clk ∧ (passLine r n s).rcv = s.rcv ∧ (passLine r n s).icu = s.icu ∧ (passLine r n s).obs = s.obs ∧ (passLine r n s).sen = s.sen ∧ (passLine r n s).tamperIn = s.tamperIn ∧ (passLine r n s).cex = s.cex ∧ (passLine r n s).xlt = s.xlt ∧ (passLine r n s).srg = s.srg ∧ (passLine r n s).ods = s.ods ∧ (passLine r n s).vault = s.vault ∧ (passLine r n s).kst = s.kst ∧ (passLine r n s).engKeys = s.engKeys ∧ (passLine r n s).kwe = s.kwe ∧ (passLine r n s).pke = s.pke ∧ (passLine r n s).ent = s.ent ∧ (passLine r n s).atu = s.atu ∧ (passLine r n s).lcc = s.lcc ∧ (passLine r n s).link = s.link ∧ (passLine r n s).sheaf = s.sheaf ∧ (passLine r n s).dom = s.dom ∧ (passLine r n s).pins = s.pins ∧ (passLine r n s).boot = s.boot ∧ (passLine r n s).tdi = s.tdi ∧ (passLine r n s).ac = s.ac ∧ (passLine r n s).vt = s.vt ∧ (passLine r n s).free = s.free ∧ (passLine r n s).out = s.out ∧ (passLine r n s).pending = s.pending :=
  have k : Off (fun p => p == .mem) s (passLine r n s) := passLine_keeps (Off.keeps _ _) rfl .refl
  ⟨k.clk rfl, k.rcv rfl, k.icu rfl, k.obs rfl, k.sen rfl, k.tamperIn rfl, k.cex rfl, k.xlt rfl, k.srg rfl, k.ods rfl, k.vault rfl, k.kst rfl, k.engKeys rfl, k.kwe rfl, k.pke rfl, k.ent rfl, k.atu rfl, k.lcc rfl, k.link rfl, k.sheaf rfl, k.dom rfl, k.pins rfl, k.boot rfl, k.tdi rfl, k.ac rfl, k.vt rfl, k.free rfl, k.out rfl, k.pending rfl⟩

@[simp] theorem openLine_same {r l i : Nat} {s : State} :
    (openLine r l i s).clk = s.clk ∧ (openLine r l i s).rcv = s.rcv ∧ (openLine r l i s).icu = s.icu ∧ (openLine r l i s).obs = s.obs ∧ (openLine r l i s).sen = s.sen ∧ (openLine r l i s).tamperIn = s.tamperIn ∧ (openLine r l i s).cex = s.cex ∧ (openLine r l i s).xlt = s.xlt ∧ (openLine r l i s).srg = s.srg ∧ (openLine r l i s).ods = s.ods ∧ (openLine r l i s).vault = s.vault ∧ (openLine r l i s).kst = s.kst ∧ (openLine r l i s).engKeys = s.engKeys ∧ (openLine r l i s).kwe = s.kwe ∧ (openLine r l i s).pke = s.pke ∧ (openLine r l i s).ent = s.ent ∧ (openLine r l i s).atu = s.atu ∧ (openLine r l i s).lcc = s.lcc ∧ (openLine r l i s).link = s.link ∧ (openLine r l i s).sheaf = s.sheaf ∧ (openLine r l i s).dom = s.dom ∧ (openLine r l i s).pins = s.pins ∧ (openLine r l i s).boot = s.boot ∧ (openLine r l i s).tdi = s.tdi ∧ (openLine r l i s).ac = s.ac ∧ (openLine r l i s).vt = s.vt ∧ (openLine r l i s).free = s.free ∧ (openLine r l i s).out = s.out ∧ (openLine r l i s).pending = s.pending :=
  have k : Off (fun p => p == .mem) s (openLine r l i s) := openLine_keeps (Off.keeps _ _) rfl .refl
  ⟨k.clk rfl, k.rcv rfl, k.icu rfl, k.obs rfl, k.sen rfl, k.tamperIn rfl, k.cex rfl, k.xlt rfl, k.srg rfl, k.ods rfl, k.vault rfl, k.kst rfl, k.engKeys rfl, k.kwe rfl, k.pke rfl, k.ent rfl, k.atu rfl, k.lcc rfl, k.link rfl, k.sheaf rfl, k.dom rfl, k.pins rfl, k.boot rfl, k.tdi rfl, k.ac rfl, k.vt rfl, k.free rfl, k.out rfl, k.pending rfl⟩

@[simp] theorem rewrite_same {r n v : Nat} {plain : Line} {s : State} :
    (rewrite r n v plain s).clk = s.clk ∧ (rewrite r n v plain s).rcv = s.rcv ∧ (rewrite r n v plain s).icu = s.icu ∧ (rewrite r n v plain s).sen = s.sen ∧ (rewrite r n v plain s).tamperIn = s.tamperIn ∧ (rewrite r n v plain s).cex = s.cex ∧ (rewrite r n v plain s).xlt = s.xlt ∧ (rewrite r n v plain s).srg = s.srg ∧ (rewrite r n v plain s).ods = s.ods ∧ (rewrite r n v plain s).vault = s.vault ∧ (rewrite r n v plain s).kst = s.kst ∧ (rewrite r n v plain s).engKeys = s.engKeys ∧ (rewrite r n v plain s).kwe = s.kwe ∧ (rewrite r n v plain s).pke = s.pke ∧ (rewrite r n v plain s).ent = s.ent ∧ (rewrite r n v plain s).atu = s.atu ∧ (rewrite r n v plain s).lcc = s.lcc ∧ (rewrite r n v plain s).link = s.link ∧ (rewrite r n v plain s).sheaf = s.sheaf ∧ (rewrite r n v plain s).dom = s.dom ∧ (rewrite r n v plain s).pins = s.pins ∧ (rewrite r n v plain s).boot = s.boot ∧ (rewrite r n v plain s).tdi = s.tdi ∧ (rewrite r n v plain s).ac = s.ac ∧ (rewrite r n v plain s).vt = s.vt ∧ (rewrite r n v plain s).free = s.free ∧ (rewrite r n v plain s).out = s.out ∧ (rewrite r n v plain s).pending = s.pending :=
  have k : Off (fun p => p == .obs || p == .mem) s (rewrite r n v plain s) := rewrite_keeps (Off.keeps _ _) rfl rfl .refl
  ⟨k.clk rfl, k.rcv rfl, k.icu rfl, k.sen rfl, k.tamperIn rfl, k.cex rfl, k.xlt rfl, k.srg rfl, k.ods rfl, k.vault rfl, k.kst rfl, k.engKeys rfl, k.kwe rfl, k.pke rfl, k.ent rfl, k.atu rfl, k.lcc rfl, k.link rfl, k.sheaf rfl, k.dom rfl, k.pins rfl, k.boot rfl, k.tdi rfl, k.ac rfl, k.vt rfl, k.free rfl, k.out rfl, k.pending rfl⟩

@[simp] theorem advance_same {r : Nat} {s : State} :
    (advance r s).clk = s.clk ∧ (advance r s).sen = s.sen ∧ (advance r s).tamperIn = s.tamperIn ∧ (advance r s).xlt = s.xlt ∧ (advance r s).srg = s.srg ∧ (advance r s).ods = s.ods ∧ (advance r s).vault = s.vault ∧ (advance r s).kst = s.kst ∧ (advance r s).engKeys = s.engKeys ∧ (advance r s).kwe = s.kwe ∧ (advance r s).pke = s.pke ∧ (advance r s).ent = s.ent ∧ (advance r s).atu = s.atu ∧ (advance r s).lcc = s.lcc ∧ (advance r s).link = s.link ∧ (advance r s).sheaf = s.sheaf ∧ (advance r s).dom = s.dom ∧ (advance r s).pins = s.pins ∧ (advance r s).boot = s.boot ∧ (advance r s).tdi = s.tdi ∧ (advance r s).ac = s.ac ∧ (advance r s).vt = s.vt ∧ (advance r s).free = s.free ∧ (advance r s).pending = s.pending :=
  have k : Off (fun p => p == .rcv || p == .icu || p == .obs || p == .cex || p == .mem || p == .out) s (advance r s) := advance_keeps (Off.keeps _ _) rfl rfl rfl rfl rfl rfl .refl
  ⟨k.clk rfl, k.sen rfl, k.tamperIn rfl, k.xlt rfl, k.srg rfl, k.ods rfl, k.vault rfl, k.kst rfl, k.engKeys rfl, k.kwe rfl, k.pke rfl, k.ent rfl, k.atu rfl, k.lcc rfl, k.link rfl, k.sheaf rfl, k.dom rfl, k.pins rfl, k.boot rfl, k.tdi rfl, k.ac rfl, k.vt rfl, k.free rfl, k.pending rfl⟩

@[simp] theorem deliver_same {x : MemRead} {l : Line} {s : State} :
    (deliver x l s).clk = s.clk ∧ (deliver x l s).rcv = s.rcv ∧ (deliver x l s).icu = s.icu ∧ (deliver x l s).sen = s.sen ∧ (deliver x l s).tamperIn = s.tamperIn ∧ (deliver x l s).cex = s.cex ∧ (deliver x l s).xlt = s.xlt ∧ (deliver x l s).srg = s.srg ∧ (deliver x l s).ods = s.ods ∧ (deliver x l s).vault = s.vault ∧ (deliver x l s).kst = s.kst ∧ (deliver x l s).engKeys = s.engKeys ∧ (deliver x l s).kwe = s.kwe ∧ (deliver x l s).pke = s.pke ∧ (deliver x l s).ent = s.ent ∧ (deliver x l s).atu = s.atu ∧ (deliver x l s).lcc = s.lcc ∧ (deliver x l s).link = s.link ∧ (deliver x l s).sheaf = s.sheaf ∧ (deliver x l s).dom = s.dom ∧ (deliver x l s).pins = s.pins ∧ (deliver x l s).boot = s.boot ∧ (deliver x l s).tdi = s.tdi ∧ (deliver x l s).ac = s.ac ∧ (deliver x l s).vt = s.vt ∧ (deliver x l s).free = s.free ∧ (deliver x l s).pending = s.pending :=
  have k : Off (fun p => p == .obs || p == .mem || p == .out) s (deliver x l s) := deliver_keeps (Off.keeps _ _) rfl rfl rfl .refl
  ⟨k.clk rfl, k.rcv rfl, k.icu rfl, k.sen rfl, k.tamperIn rfl, k.cex rfl, k.xlt rfl, k.srg rfl, k.ods rfl, k.vault rfl, k.kst rfl, k.engKeys rfl, k.kwe rfl, k.pke rfl, k.ent rfl, k.atu rfl, k.lcc rfl, k.link rfl, k.sheaf rfl, k.dom rfl, k.pins rfl, k.boot rfl, k.tdi rfl, k.ac rfl, k.vt rfl, k.free rfl, k.pending rfl⟩

@[simp] theorem missionDone_same {x : MemRead} {o : Verdict} {s : State} :
    (missionDone x o s).clk = s.clk ∧ (missionDone x o s).sen = s.sen ∧ (missionDone x o s).tamperIn = s.tamperIn ∧ (missionDone x o s).xlt = s.xlt ∧ (missionDone x o s).vault = s.vault ∧ (missionDone x o s).atu = s.atu ∧ (missionDone x o s).lcc = s.lcc ∧ (missionDone x o s).boot = s.boot ∧ (missionDone x o s).tdi = s.tdi ∧ (missionDone x o s).free = s.free ∧ (missionDone x o s).pending = s.pending :=
  have k : Off (fun p => p == .rcv || p == .icu || p == .obs || p == .cex || p == .srg || p == .ods || p == .kst || p == .engKeys || p == .kwe || p == .pke || p == .ent || p == .mem || p == .link || p == .sheaf || p == .dom || p == .pins || p == .ac || p == .vt || p == .out) s (missionDone x o s) := missionDone_keeps (Off.keeps _ _) rfl rfl rfl rfl rfl rfl rfl rfl rfl rfl rfl rfl rfl rfl rfl rfl rfl rfl rfl .refl
  ⟨k.clk rfl, k.sen rfl, k.tamperIn rfl, k.xlt rfl, k.vault rfl, k.atu rfl, k.lcc rfl, k.boot rfl, k.tdi rfl, k.free rfl, k.pending rfl⟩

@[simp] theorem rebaseNext_same {b : Rebase} {s : State} :
    (rebaseNext b s).clk = s.clk ∧ (rebaseNext b s).rcv = s.rcv ∧ (rebaseNext b s).icu = s.icu ∧ (rebaseNext b s).obs = s.obs ∧ (rebaseNext b s).sen = s.sen ∧ (rebaseNext b s).tamperIn = s.tamperIn ∧ (rebaseNext b s).cex = s.cex ∧ (rebaseNext b s).xlt = s.xlt ∧ (rebaseNext b s).srg = s.srg ∧ (rebaseNext b s).ods = s.ods ∧ (rebaseNext b s).vault = s.vault ∧ (rebaseNext b s).kst = s.kst ∧ (rebaseNext b s).engKeys = s.engKeys ∧ (rebaseNext b s).kwe = s.kwe ∧ (rebaseNext b s).pke = s.pke ∧ (rebaseNext b s).ent = s.ent ∧ (rebaseNext b s).atu = s.atu ∧ (rebaseNext b s).lcc = s.lcc ∧ (rebaseNext b s).link = s.link ∧ (rebaseNext b s).sheaf = s.sheaf ∧ (rebaseNext b s).dom = s.dom ∧ (rebaseNext b s).pins = s.pins ∧ (rebaseNext b s).boot = s.boot ∧ (rebaseNext b s).tdi = s.tdi ∧ (rebaseNext b s).ac = s.ac ∧ (rebaseNext b s).vt = s.vt ∧ (rebaseNext b s).free = s.free ∧ (rebaseNext b s).out = s.out ∧ (rebaseNext b s).pending = s.pending :=
  have k : Off (fun p => p == .mem) s (rebaseNext b s) := rebaseNext_keeps (Off.keeps _ _) rfl .refl
  ⟨k.clk rfl, k.rcv rfl, k.icu rfl, k.obs rfl, k.sen rfl, k.tamperIn rfl, k.cex rfl, k.xlt rfl, k.srg rfl, k.ods rfl, k.vault rfl, k.kst rfl, k.engKeys rfl, k.kwe rfl, k.pke rfl, k.ent rfl, k.atu rfl, k.lcc rfl, k.link rfl, k.sheaf rfl, k.dom rfl, k.pins rfl, k.boot rfl, k.tdi rfl, k.ac rfl, k.vt rfl, k.free rfl, k.out rfl, k.pending rfl⟩

@[simp] theorem childDone_same {x : MemRead} {old : Bool} {o : Verdict} {s : State} :
    (childDone x old o s).clk = s.clk ∧ (childDone x old o s).sen = s.sen ∧ (childDone x old o s).tamperIn = s.tamperIn ∧ (childDone x old o s).xlt = s.xlt ∧ (childDone x old o s).vault = s.vault ∧ (childDone x old o s).atu = s.atu ∧ (childDone x old o s).lcc = s.lcc ∧ (childDone x old o s).boot = s.boot ∧ (childDone x old o s).tdi = s.tdi ∧ (childDone x old o s).free = s.free ∧ (childDone x old o s).pending = s.pending :=
  have k : Off (fun p => p == .rcv || p == .icu || p == .obs || p == .cex || p == .srg || p == .ods || p == .kst || p == .engKeys || p == .kwe || p == .pke || p == .ent || p == .mem || p == .link || p == .sheaf || p == .dom || p == .pins || p == .ac || p == .vt || p == .out) s (childDone x old o s) := childDone_keeps (Off.keeps _ _) rfl rfl rfl rfl rfl rfl rfl rfl rfl rfl rfl rfl rfl rfl rfl rfl rfl rfl rfl .refl
  ⟨k.clk rfl, k.sen rfl, k.tamperIn rfl, k.xlt rfl, k.vault rfl, k.atu rfl, k.lcc rfl, k.boot rfl, k.tdi rfl, k.free rfl, k.pending rfl⟩

@[simp] theorem ploughDone_same {x : MemRead} {o : Verdict} {s : State} :
    (ploughDone x o s).clk = s.clk ∧ (ploughDone x o s).sen = s.sen ∧ (ploughDone x o s).tamperIn = s.tamperIn ∧ (ploughDone x o s).xlt = s.xlt ∧ (ploughDone x o s).vault = s.vault ∧ (ploughDone x o s).atu = s.atu ∧ (ploughDone x o s).lcc = s.lcc ∧ (ploughDone x o s).boot = s.boot ∧ (ploughDone x o s).tdi = s.tdi ∧ (ploughDone x o s).free = s.free ∧ (ploughDone x o s).pending = s.pending :=
  have k : Off (fun p => p == .rcv || p == .icu || p == .obs || p == .cex || p == .srg || p == .ods || p == .kst || p == .engKeys || p == .kwe || p == .pke || p == .ent || p == .mem || p == .link || p == .sheaf || p == .dom || p == .pins || p == .ac || p == .vt || p == .out) s (ploughDone x o s) := ploughDone_keeps (Off.keeps _ _) rfl rfl rfl rfl rfl rfl rfl rfl rfl rfl rfl rfl rfl rfl rfl rfl rfl rfl rfl .refl
  ⟨k.clk rfl, k.sen rfl, k.tamperIn rfl, k.xlt rfl, k.vault rfl, k.atu rfl, k.lcc rfl, k.boot rfl, k.tdi rfl, k.free rfl, k.pending rfl⟩

@[simp] theorem noteScrubbed_same {x : MemRead} {s : State} :
    (noteScrubbed x s).clk = s.clk ∧ (noteScrubbed x s).rcv = s.rcv ∧ (noteScrubbed x s).icu = s.icu ∧ (noteScrubbed x s).obs = s.obs ∧ (noteScrubbed x s).sen = s.sen ∧ (noteScrubbed x s).tamperIn = s.tamperIn ∧ (noteScrubbed x s).cex = s.cex ∧ (noteScrubbed x s).xlt = s.xlt ∧ (noteScrubbed x s).srg = s.srg ∧ (noteScrubbed x s).ods = s.ods ∧ (noteScrubbed x s).vault = s.vault ∧ (noteScrubbed x s).kst = s.kst ∧ (noteScrubbed x s).engKeys = s.engKeys ∧ (noteScrubbed x s).kwe = s.kwe ∧ (noteScrubbed x s).pke = s.pke ∧ (noteScrubbed x s).ent = s.ent ∧ (noteScrubbed x s).atu = s.atu ∧ (noteScrubbed x s).lcc = s.lcc ∧ (noteScrubbed x s).link = s.link ∧ (noteScrubbed x s).sheaf = s.sheaf ∧ (noteScrubbed x s).dom = s.dom ∧ (noteScrubbed x s).pins = s.pins ∧ (noteScrubbed x s).boot = s.boot ∧ (noteScrubbed x s).tdi = s.tdi ∧ (noteScrubbed x s).ac = s.ac ∧ (noteScrubbed x s).vt = s.vt ∧ (noteScrubbed x s).free = s.free ∧ (noteScrubbed x s).out = s.out ∧ (noteScrubbed x s).pending = s.pending :=
  have k : Off (fun p => p == .mem) s (noteScrubbed x s) := noteScrubbed_keeps (Off.keeps _ _) rfl .refl
  ⟨k.clk rfl, k.rcv rfl, k.icu rfl, k.obs rfl, k.sen rfl, k.tamperIn rfl, k.cex rfl, k.xlt rfl, k.srg rfl, k.ods rfl, k.vault rfl, k.kst rfl, k.engKeys rfl, k.kwe rfl, k.pke rfl, k.ent rfl, k.atu rfl, k.lcc rfl, k.link rfl, k.sheaf rfl, k.dom rfl, k.pins rfl, k.boot rfl, k.tdi rfl, k.ac rfl, k.vt rfl, k.free rfl, k.out rfl, k.pending rfl⟩

@[simp] theorem pageDegraded_same {ln : Nat} {again : Bool} {s : State} :
    (pageDegraded ln again s).clk = s.clk ∧ (pageDegraded ln again s).rcv = s.rcv ∧ (pageDegraded ln again s).icu = s.icu ∧ (pageDegraded ln again s).obs = s.obs ∧ (pageDegraded ln again s).sen = s.sen ∧ (pageDegraded ln again s).tamperIn = s.tamperIn ∧ (pageDegraded ln again s).xlt = s.xlt ∧ (pageDegraded ln again s).srg = s.srg ∧ (pageDegraded ln again s).ods = s.ods ∧ (pageDegraded ln again s).vault = s.vault ∧ (pageDegraded ln again s).kst = s.kst ∧ (pageDegraded ln again s).engKeys = s.engKeys ∧ (pageDegraded ln again s).kwe = s.kwe ∧ (pageDegraded ln again s).pke = s.pke ∧ (pageDegraded ln again s).ent = s.ent ∧ (pageDegraded ln again s).atu = s.atu ∧ (pageDegraded ln again s).lcc = s.lcc ∧ (pageDegraded ln again s).mem = s.mem ∧ (pageDegraded ln again s).link = s.link ∧ (pageDegraded ln again s).sheaf = s.sheaf ∧ (pageDegraded ln again s).dom = s.dom ∧ (pageDegraded ln again s).pins = s.pins ∧ (pageDegraded ln again s).boot = s.boot ∧ (pageDegraded ln again s).tdi = s.tdi ∧ (pageDegraded ln again s).ac = s.ac ∧ (pageDegraded ln again s).vt = s.vt ∧ (pageDegraded ln again s).free = s.free ∧ (pageDegraded ln again s).out = s.out ∧ (pageDegraded ln again s).pending = s.pending :=
  have k : Off (fun p => p == .cex) s (pageDegraded ln again s) := pageDegraded_keeps (Off.keeps _ _) rfl .refl
  ⟨k.clk rfl, k.rcv rfl, k.icu rfl, k.obs rfl, k.sen rfl, k.tamperIn rfl, k.xlt rfl, k.srg rfl, k.ods rfl, k.vault rfl, k.kst rfl, k.engKeys rfl, k.kwe rfl, k.pke rfl, k.ent rfl, k.atu rfl, k.lcc rfl, k.mem rfl, k.link rfl, k.sheaf rfl, k.dom rfl, k.pins rfl, k.boot rfl, k.tdi rfl, k.ac rfl, k.vt rfl, k.free rfl, k.out rfl, k.pending rfl⟩

@[simp] theorem scrubDone_same {x : MemRead} {o : Verdict} {s : State} :
    (scrubDone x o s).clk = s.clk ∧ (scrubDone x o s).sen = s.sen ∧ (scrubDone x o s).tamperIn = s.tamperIn ∧ (scrubDone x o s).xlt = s.xlt ∧ (scrubDone x o s).vault = s.vault ∧ (scrubDone x o s).atu = s.atu ∧ (scrubDone x o s).lcc = s.lcc ∧ (scrubDone x o s).boot = s.boot ∧ (scrubDone x o s).tdi = s.tdi ∧ (scrubDone x o s).free = s.free ∧ (scrubDone x o s).pending = s.pending :=
  have k : Off (fun p => p == .rcv || p == .icu || p == .obs || p == .cex || p == .srg || p == .ods || p == .kst || p == .engKeys || p == .kwe || p == .pke || p == .ent || p == .mem || p == .link || p == .sheaf || p == .dom || p == .pins || p == .ac || p == .vt || p == .out) s (scrubDone x o s) := scrubDone_keeps (Off.keeps _ _) rfl rfl rfl rfl rfl rfl rfl rfl rfl rfl rfl rfl rfl rfl rfl rfl rfl rfl rfl .refl
  ⟨k.clk rfl, k.sen rfl, k.tamperIn rfl, k.xlt rfl, k.vault rfl, k.atu rfl, k.lcc rfl, k.boot rfl, k.tdi rfl, k.free rfl, k.pending rfl⟩

@[simp] theorem judgeWord_same {x : MemRead} {w : RdWord} {cands : List Nat} {s : State} :
    (judgeWord x w cands s).clk = s.clk ∧ (judgeWord x w cands s).sen = s.sen ∧ (judgeWord x w cands s).tamperIn = s.tamperIn ∧ (judgeWord x w cands s).xlt = s.xlt ∧ (judgeWord x w cands s).vault = s.vault ∧ (judgeWord x w cands s).atu = s.atu ∧ (judgeWord x w cands s).lcc = s.lcc ∧ (judgeWord x w cands s).boot = s.boot ∧ (judgeWord x w cands s).tdi = s.tdi ∧ (judgeWord x w cands s).free = s.free ∧ (judgeWord x w cands s).pending = s.pending :=
  have k : Off (fun p => p == .rcv || p == .icu || p == .obs || p == .cex || p == .srg || p == .ods || p == .kst || p == .engKeys || p == .kwe || p == .pke || p == .ent || p == .mem || p == .link || p == .sheaf || p == .dom || p == .pins || p == .ac || p == .vt || p == .out) s (judgeWord x w cands s) := judgeWord_keeps (Off.keeps _ _) rfl rfl rfl rfl rfl rfl rfl rfl rfl rfl rfl rfl rfl rfl rfl rfl rfl rfl rfl .refl
  ⟨k.clk rfl, k.sen rfl, k.tamperIn rfl, k.xlt rfl, k.vault rfl, k.atu rfl, k.lcc rfl, k.boot rfl, k.tdi rfl, k.free rfl, k.pending rfl⟩

@[simp] theorem decideRead_same {q : Nat} {s : State} :
    (decideRead q s).clk = s.clk ∧ (decideRead q s).sen = s.sen ∧ (decideRead q s).tamperIn = s.tamperIn ∧ (decideRead q s).xlt = s.xlt ∧ (decideRead q s).vault = s.vault ∧ (decideRead q s).atu = s.atu ∧ (decideRead q s).lcc = s.lcc ∧ (decideRead q s).boot = s.boot ∧ (decideRead q s).tdi = s.tdi ∧ (decideRead q s).free = s.free ∧ (decideRead q s).pending = s.pending :=
  have k : Off (fun p => p == .rcv || p == .icu || p == .obs || p == .cex || p == .srg || p == .ods || p == .kst || p == .engKeys || p == .kwe || p == .pke || p == .ent || p == .mem || p == .link || p == .sheaf || p == .dom || p == .pins || p == .ac || p == .vt || p == .out) s (decideRead q s) := decideRead_keeps (Off.keeps _ _) rfl rfl rfl rfl rfl rfl rfl rfl rfl rfl rfl rfl rfl rfl rfl rfl rfl rfl rfl .refl
  ⟨k.clk rfl, k.sen rfl, k.tamperIn rfl, k.xlt rfl, k.vault rfl, k.atu rfl, k.lcc rfl, k.boot rfl, k.tdi rfl, k.free rfl, k.pending rfl⟩

@[simp] theorem pushRead_same {q : Nat} {s : State} :
    (pushRead q s).clk = s.clk ∧ (pushRead q s).rcv = s.rcv ∧ (pushRead q s).icu = s.icu ∧ (pushRead q s).obs = s.obs ∧ (pushRead q s).sen = s.sen ∧ (pushRead q s).tamperIn = s.tamperIn ∧ (pushRead q s).cex = s.cex ∧ (pushRead q s).xlt = s.xlt ∧ (pushRead q s).srg = s.srg ∧ (pushRead q s).ods = s.ods ∧ (pushRead q s).vault = s.vault ∧ (pushRead q s).kst = s.kst ∧ (pushRead q s).engKeys = s.engKeys ∧ (pushRead q s).kwe = s.kwe ∧ (pushRead q s).pke = s.pke ∧ (pushRead q s).ent = s.ent ∧ (pushRead q s).atu = s.atu ∧ (pushRead q s).lcc = s.lcc ∧ (pushRead q s).link = s.link ∧ (pushRead q s).sheaf = s.sheaf ∧ (pushRead q s).dom = s.dom ∧ (pushRead q s).pins = s.pins ∧ (pushRead q s).boot = s.boot ∧ (pushRead q s).tdi = s.tdi ∧ (pushRead q s).ac = s.ac ∧ (pushRead q s).vt = s.vt ∧ (pushRead q s).free = s.free ∧ (pushRead q s).out = s.out ∧ (pushRead q s).pending = s.pending :=
  have k : Off (fun p => p == .mem) s (pushRead q s) := pushRead_keeps (Off.keeps _ _) rfl .refl
  ⟨k.clk rfl, k.rcv rfl, k.icu rfl, k.obs rfl, k.sen rfl, k.tamperIn rfl, k.cex rfl, k.xlt rfl, k.srg rfl, k.ods rfl, k.vault rfl, k.kst rfl, k.engKeys rfl, k.kwe rfl, k.pke rfl, k.ent rfl, k.atu rfl, k.lcc rfl, k.link rfl, k.sheaf rfl, k.dom rfl, k.pins rfl, k.boot rfl, k.tdi rfl, k.ac rfl, k.vt rfl, k.free rfl, k.out rfl, k.pending rfl⟩

@[simp] theorem settleReads_same {r : Nat} {s : State} :
    (settleReads r s).clk = s.clk ∧ (settleReads r s).sen = s.sen ∧ (settleReads r s).tamperIn = s.tamperIn ∧ (settleReads r s).xlt = s.xlt ∧ (settleReads r s).vault = s.vault ∧ (settleReads r s).atu = s.atu ∧ (settleReads r s).lcc = s.lcc ∧ (settleReads r s).boot = s.boot ∧ (settleReads r s).tdi = s.tdi ∧ (settleReads r s).free = s.free ∧ (settleReads r s).pending = s.pending :=
  have k : Off (fun p => p == .rcv || p == .icu || p == .obs || p == .cex || p == .srg || p == .ods || p == .kst || p == .engKeys || p == .kwe || p == .pke || p == .ent || p == .mem || p == .link || p == .sheaf || p == .dom || p == .pins || p == .ac || p == .vt || p == .out) s (settleReads r s) := settleReads_keeps (Off.keeps _ _) rfl rfl rfl rfl rfl rfl rfl rfl rfl rfl rfl rfl rfl rfl rfl rfl rfl rfl rfl .refl
  ⟨k.clk rfl, k.sen rfl, k.tamperIn rfl, k.xlt rfl, k.vault rfl, k.atu rfl, k.lcc rfl, k.boot rfl, k.tdi rfl, k.free rfl, k.pending rfl⟩

@[simp] theorem writeBack_same {x : MemRead} {f : Line × BitVec 56 × Nat} {s : State} :
    (writeBack x f s).clk = s.clk ∧ (writeBack x f s).rcv = s.rcv ∧ (writeBack x f s).icu = s.icu ∧ (writeBack x f s).obs = s.obs ∧ (writeBack x f s).sen = s.sen ∧ (writeBack x f s).tamperIn = s.tamperIn ∧ (writeBack x f s).cex = s.cex ∧ (writeBack x f s).xlt = s.xlt ∧ (writeBack x f s).srg = s.srg ∧ (writeBack x f s).ods = s.ods ∧ (writeBack x f s).vault = s.vault ∧ (writeBack x f s).kst = s.kst ∧ (writeBack x f s).engKeys = s.engKeys ∧ (writeBack x f s).kwe = s.kwe ∧ (writeBack x f s).pke = s.pke ∧ (writeBack x f s).ent = s.ent ∧ (writeBack x f s).atu = s.atu ∧ (writeBack x f s).lcc = s.lcc ∧ (writeBack x f s).link = s.link ∧ (writeBack x f s).sheaf = s.sheaf ∧ (writeBack x f s).dom = s.dom ∧ (writeBack x f s).pins = s.pins ∧ (writeBack x f s).boot = s.boot ∧ (writeBack x f s).tdi = s.tdi ∧ (writeBack x f s).ac = s.ac ∧ (writeBack x f s).vt = s.vt ∧ (writeBack x f s).free = s.free ∧ (writeBack x f s).out = s.out ∧ (writeBack x f s).pending = s.pending :=
  have k : Off (fun p => p == .mem) s (writeBack x f s) := writeBack_keeps (Off.keeps _ _) rfl .refl
  ⟨k.clk rfl, k.rcv rfl, k.icu rfl, k.obs rfl, k.sen rfl, k.tamperIn rfl, k.cex rfl, k.xlt rfl, k.srg rfl, k.ods rfl, k.vault rfl, k.kst rfl, k.engKeys rfl, k.kwe rfl, k.pke rfl, k.ent rfl, k.atu rfl, k.lcc rfl, k.link rfl, k.sheaf rfl, k.dom rfl, k.pins rfl, k.boot rfl, k.tdi rfl, k.ac rfl, k.vt rfl, k.free rfl, k.out rfl, k.pending rfl⟩

@[simp] theorem corrected_same {x : MemRead} {f : Line × BitVec 56 × Nat} {s : State} :
    (corrected x f s).clk = s.clk ∧ (corrected x f s).sen = s.sen ∧ (corrected x f s).tamperIn = s.tamperIn ∧ (corrected x f s).xlt = s.xlt ∧ (corrected x f s).vault = s.vault ∧ (corrected x f s).atu = s.atu ∧ (corrected x f s).lcc = s.lcc ∧ (corrected x f s).boot = s.boot ∧ (corrected x f s).tdi = s.tdi ∧ (corrected x f s).free = s.free ∧ (corrected x f s).pending = s.pending :=
  have k : Off (fun p => p == .rcv || p == .icu || p == .obs || p == .cex || p == .srg || p == .ods || p == .kst || p == .engKeys || p == .kwe || p == .pke || p == .ent || p == .mem || p == .link || p == .sheaf || p == .dom || p == .pins || p == .ac || p == .vt || p == .out) s (corrected x f s) := corrected_keeps (Off.keeps _ _) rfl rfl rfl rfl rfl rfl rfl rfl rfl rfl rfl rfl rfl rfl rfl rfl rfl rfl rfl .refl
  ⟨k.clk rfl, k.sen rfl, k.tamperIn rfl, k.xlt rfl, k.vault rfl, k.atu rfl, k.lcc rfl, k.boot rfl, k.tdi rfl, k.free rfl, k.pending rfl⟩

@[simp] theorem endCorrection_same {e : Nat} {c : Corr} {s : State} :
    (endCorrection e c s).clk = s.clk ∧ (endCorrection e c s).sen = s.sen ∧ (endCorrection e c s).tamperIn = s.tamperIn ∧ (endCorrection e c s).xlt = s.xlt ∧ (endCorrection e c s).vault = s.vault ∧ (endCorrection e c s).atu = s.atu ∧ (endCorrection e c s).lcc = s.lcc ∧ (endCorrection e c s).boot = s.boot ∧ (endCorrection e c s).tdi = s.tdi ∧ (endCorrection e c s).free = s.free ∧ (endCorrection e c s).pending = s.pending :=
  have k : Off (fun p => p == .rcv || p == .icu || p == .obs || p == .cex || p == .srg || p == .ods || p == .kst || p == .engKeys || p == .kwe || p == .pke || p == .ent || p == .mem || p == .link || p == .sheaf || p == .dom || p == .pins || p == .ac || p == .vt || p == .out) s (endCorrection e c s) := endCorrection_keeps (Off.keeps _ _) rfl rfl rfl rfl rfl rfl rfl rfl rfl rfl rfl rfl rfl rfl rfl rfl rfl rfl rfl .refl
  ⟨k.clk rfl, k.sen rfl, k.tamperIn rfl, k.xlt rfl, k.vault rfl, k.atu rfl, k.lcc rfl, k.boot rfl, k.tdi rfl, k.free rfl, k.pending rfl⟩

@[simp] theorem startCorrection_same {x : MemRead} {handle anchor : Nat} {s : State} :
    (startCorrection x handle anchor s).clk = s.clk ∧ (startCorrection x handle anchor s).sen = s.sen ∧ (startCorrection x handle anchor s).tamperIn = s.tamperIn ∧ (startCorrection x handle anchor s).xlt = s.xlt ∧ (startCorrection x handle anchor s).vault = s.vault ∧ (startCorrection x handle anchor s).atu = s.atu ∧ (startCorrection x handle anchor s).lcc = s.lcc ∧ (startCorrection x handle anchor s).boot = s.boot ∧ (startCorrection x handle anchor s).tdi = s.tdi ∧ (startCorrection x handle anchor s).free = s.free ∧ (startCorrection x handle anchor s).pending = s.pending :=
  have k : Off (fun p => p == .rcv || p == .icu || p == .obs || p == .cex || p == .srg || p == .ods || p == .kst || p == .engKeys || p == .kwe || p == .pke || p == .ent || p == .mem || p == .link || p == .sheaf || p == .dom || p == .pins || p == .ac || p == .vt || p == .out) s (startCorrection x handle anchor s) := startCorrection_keeps (Off.keeps _ _) rfl rfl rfl rfl rfl rfl rfl rfl rfl rfl rfl rfl rfl rfl rfl rfl rfl rfl rfl .refl
  ⟨k.clk rfl, k.sen rfl, k.tamperIn rfl, k.xlt rfl, k.vault rfl, k.atu rfl, k.lcc rfl, k.boot rfl, k.tdi rfl, k.free rfl, k.pending rfl⟩

@[simp] theorem arrive_same {x : MemRead} {pc : Nat} {w : RdWord} {s : State} :
    (arrive x pc w s).clk = s.clk ∧ (arrive x pc w s).sen = s.sen ∧ (arrive x pc w s).tamperIn = s.tamperIn ∧ (arrive x pc w s).xlt = s.xlt ∧ (arrive x pc w s).vault = s.vault ∧ (arrive x pc w s).atu = s.atu ∧ (arrive x pc w s).lcc = s.lcc ∧ (arrive x pc w s).boot = s.boot ∧ (arrive x pc w s).tdi = s.tdi ∧ (arrive x pc w s).free = s.free ∧ (arrive x pc w s).pending = s.pending :=
  have k : Off (fun p => p == .rcv || p == .icu || p == .obs || p == .cex || p == .srg || p == .ods || p == .kst || p == .engKeys || p == .kwe || p == .pke || p == .ent || p == .mem || p == .link || p == .sheaf || p == .dom || p == .pins || p == .ac || p == .vt || p == .out) s (arrive x pc w s) := arrive_keeps (Off.keeps _ _) rfl rfl rfl rfl rfl rfl rfl rfl rfl rfl rfl rfl rfl rfl rfl rfl rfl rfl rfl .refl
  ⟨k.clk rfl, k.sen rfl, k.tamperIn rfl, k.xlt rfl, k.vault rfl, k.atu rfl, k.lcc rfl, k.boot rfl, k.tdi rfl, k.free rfl, k.pending rfl⟩

@[simp] theorem takeAnswer_same {e : Nat} {a : Option (Line × BitVec 56)} {s : State} :
    (takeAnswer e a s).clk = s.clk ∧ (takeAnswer e a s).sen = s.sen ∧ (takeAnswer e a s).tamperIn = s.tamperIn ∧ (takeAnswer e a s).xlt = s.xlt ∧ (takeAnswer e a s).vault = s.vault ∧ (takeAnswer e a s).atu = s.atu ∧ (takeAnswer e a s).lcc = s.lcc ∧ (takeAnswer e a s).boot = s.boot ∧ (takeAnswer e a s).tdi = s.tdi ∧ (takeAnswer e a s).free = s.free ∧ (takeAnswer e a s).pending = s.pending :=
  have k : Off (fun p => p == .rcv || p == .icu || p == .obs || p == .cex || p == .srg || p == .ods || p == .kst || p == .engKeys || p == .kwe || p == .pke || p == .ent || p == .mem || p == .link || p == .sheaf || p == .dom || p == .pins || p == .ac || p == .vt || p == .out) s (takeAnswer e a s) := takeAnswer_keeps (Off.keeps _ _) rfl rfl rfl rfl rfl rfl rfl rfl rfl rfl rfl rfl rfl rfl rfl rfl rfl rfl rfl .refl
  ⟨k.clk rfl, k.sen rfl, k.tamperIn rfl, k.xlt rfl, k.vault rfl, k.atu rfl, k.lcc rfl, k.boot rfl, k.tdi rfl, k.free rfl, k.pending rfl⟩

@[simp] theorem acceptRead_same {x : MemRead} {s : State} :
    (acceptRead x s).clk = s.clk ∧ (acceptRead x s).sen = s.sen ∧ (acceptRead x s).tamperIn = s.tamperIn ∧ (acceptRead x s).xlt = s.xlt ∧ (acceptRead x s).vault = s.vault ∧ (acceptRead x s).atu = s.atu ∧ (acceptRead x s).lcc = s.lcc ∧ (acceptRead x s).boot = s.boot ∧ (acceptRead x s).tdi = s.tdi ∧ (acceptRead x s).free = s.free ∧ (acceptRead x s).pending = s.pending :=
  have k : Off (fun p => p == .rcv || p == .icu || p == .obs || p == .cex || p == .srg || p == .ods || p == .kst || p == .engKeys || p == .kwe || p == .pke || p == .ent || p == .mem || p == .link || p == .sheaf || p == .dom || p == .pins || p == .ac || p == .vt || p == .out) s (acceptRead x s) := acceptRead_keeps (Off.keeps _ _) rfl rfl rfl rfl rfl rfl rfl rfl rfl rfl rfl rfl rfl rfl rfl rfl rfl rfl rfl .refl
  ⟨k.clk rfl, k.sen rfl, k.tamperIn rfl, k.xlt rfl, k.vault rfl, k.atu rfl, k.lcc rfl, k.boot rfl, k.tdi rfl, k.free rfl, k.pending rfl⟩

@[simp] theorem missionRead_same {e ln req who : Nat} {p : Purpose} {s : State} :
    (missionRead e ln req who p s).clk = s.clk ∧ (missionRead e ln req who p s).sen = s.sen ∧ (missionRead e ln req who p s).tamperIn = s.tamperIn ∧ (missionRead e ln req who p s).xlt = s.xlt ∧ (missionRead e ln req who p s).vault = s.vault ∧ (missionRead e ln req who p s).atu = s.atu ∧ (missionRead e ln req who p s).lcc = s.lcc ∧ (missionRead e ln req who p s).boot = s.boot ∧ (missionRead e ln req who p s).tdi = s.tdi ∧ (missionRead e ln req who p s).free = s.free ∧ (missionRead e ln req who p s).pending = s.pending :=
  have k : Off (fun p => p == .rcv || p == .icu || p == .obs || p == .cex || p == .srg || p == .ods || p == .kst || p == .engKeys || p == .kwe || p == .pke || p == .ent || p == .mem || p == .link || p == .sheaf || p == .dom || p == .pins || p == .ac || p == .vt || p == .out) s (missionRead e ln req who p s) := missionRead_keeps (Off.keeps _ _) rfl rfl rfl rfl rfl rfl rfl rfl rfl rfl rfl rfl rfl rfl rfl rfl rfl rfl rfl .refl
  ⟨k.clk rfl, k.sen rfl, k.tamperIn rfl, k.xlt rfl, k.vault rfl, k.atu rfl, k.lcc rfl, k.boot rfl, k.tdi rfl, k.free rfl, k.pending rfl⟩

@[simp] theorem noteWrite_same {w : MemWrite} {s : State} :
    (noteWrite w s).clk = s.clk ∧ (noteWrite w s).rcv = s.rcv ∧ (noteWrite w s).icu = s.icu ∧ (noteWrite w s).obs = s.obs ∧ (noteWrite w s).sen = s.sen ∧ (noteWrite w s).tamperIn = s.tamperIn ∧ (noteWrite w s).cex = s.cex ∧ (noteWrite w s).xlt = s.xlt ∧ (noteWrite w s).srg = s.srg ∧ (noteWrite w s).ods = s.ods ∧ (noteWrite w s).vault = s.vault ∧ (noteWrite w s).kst = s.kst ∧ (noteWrite w s).engKeys = s.engKeys ∧ (noteWrite w s).kwe = s.kwe ∧ (noteWrite w s).pke = s.pke ∧ (noteWrite w s).ent = s.ent ∧ (noteWrite w s).atu = s.atu ∧ (noteWrite w s).lcc = s.lcc ∧ (noteWrite w s).link = s.link ∧ (noteWrite w s).sheaf = s.sheaf ∧ (noteWrite w s).dom = s.dom ∧ (noteWrite w s).pins = s.pins ∧ (noteWrite w s).boot = s.boot ∧ (noteWrite w s).tdi = s.tdi ∧ (noteWrite w s).ac = s.ac ∧ (noteWrite w s).vt = s.vt ∧ (noteWrite w s).free = s.free ∧ (noteWrite w s).out = s.out ∧ (noteWrite w s).pending = s.pending :=
  have k : Off (fun p => p == .mem) s (noteWrite w s) := noteWrite_keeps (Off.keeps _ _) rfl .refl
  ⟨k.clk rfl, k.rcv rfl, k.icu rfl, k.obs rfl, k.sen rfl, k.tamperIn rfl, k.cex rfl, k.xlt rfl, k.srg rfl, k.ods rfl, k.vault rfl, k.kst rfl, k.engKeys rfl, k.kwe rfl, k.pke rfl, k.ent rfl, k.atu rfl, k.lcc rfl, k.link rfl, k.sheaf rfl, k.dom rfl, k.pins rfl, k.boot rfl, k.tdi rfl, k.ac rfl, k.vt rfl, k.free rfl, k.out rfl, k.pending rfl⟩

@[simp] theorem refuseWrite_same {w : MemWrite} {s : State} :
    (refuseWrite w s).clk = s.clk ∧ (refuseWrite w s).sen = s.sen ∧ (refuseWrite w s).tamperIn = s.tamperIn ∧ (refuseWrite w s).xlt = s.xlt ∧ (refuseWrite w s).srg = s.srg ∧ (refuseWrite w s).ods = s.ods ∧ (refuseWrite w s).vault = s.vault ∧ (refuseWrite w s).kst = s.kst ∧ (refuseWrite w s).engKeys = s.engKeys ∧ (refuseWrite w s).kwe = s.kwe ∧ (refuseWrite w s).pke = s.pke ∧ (refuseWrite w s).ent = s.ent ∧ (refuseWrite w s).atu = s.atu ∧ (refuseWrite w s).lcc = s.lcc ∧ (refuseWrite w s).link = s.link ∧ (refuseWrite w s).sheaf = s.sheaf ∧ (refuseWrite w s).dom = s.dom ∧ (refuseWrite w s).pins = s.pins ∧ (refuseWrite w s).boot = s.boot ∧ (refuseWrite w s).tdi = s.tdi ∧ (refuseWrite w s).ac = s.ac ∧ (refuseWrite w s).vt = s.vt ∧ (refuseWrite w s).free = s.free ∧ (refuseWrite w s).pending = s.pending :=
  have k : Off (fun p => p == .rcv || p == .icu || p == .obs || p == .cex || p == .mem || p == .out) s (refuseWrite w s) := refuseWrite_keeps (Off.keeps _ _) rfl rfl rfl rfl rfl rfl .refl
  ⟨k.clk rfl, k.sen rfl, k.tamperIn rfl, k.xlt rfl, k.srg rfl, k.ods rfl, k.vault rfl, k.kst rfl, k.engKeys rfl, k.kwe rfl, k.pke rfl, k.ent rfl, k.atu rfl, k.lcc rfl, k.link rfl, k.sheaf rfl, k.dom rfl, k.pins rfl, k.boot rfl, k.tdi rfl, k.ac rfl, k.vt rfl, k.free rfl, k.pending rfl⟩

@[simp] theorem parkWrite_same {w : MemWrite} {s : State} :
    (parkWrite w s).clk = s.clk ∧ (parkWrite w s).rcv = s.rcv ∧ (parkWrite w s).icu = s.icu ∧ (parkWrite w s).obs = s.obs ∧ (parkWrite w s).sen = s.sen ∧ (parkWrite w s).tamperIn = s.tamperIn ∧ (parkWrite w s).cex = s.cex ∧ (parkWrite w s).xlt = s.xlt ∧ (parkWrite w s).srg = s.srg ∧ (parkWrite w s).ods = s.ods ∧ (parkWrite w s).vault = s.vault ∧ (parkWrite w s).kst = s.kst ∧ (parkWrite w s).engKeys = s.engKeys ∧ (parkWrite w s).kwe = s.kwe ∧ (parkWrite w s).pke = s.pke ∧ (parkWrite w s).ent = s.ent ∧ (parkWrite w s).atu = s.atu ∧ (parkWrite w s).lcc = s.lcc ∧ (parkWrite w s).link = s.link ∧ (parkWrite w s).sheaf = s.sheaf ∧ (parkWrite w s).dom = s.dom ∧ (parkWrite w s).pins = s.pins ∧ (parkWrite w s).boot = s.boot ∧ (parkWrite w s).tdi = s.tdi ∧ (parkWrite w s).ac = s.ac ∧ (parkWrite w s).vt = s.vt ∧ (parkWrite w s).free = s.free ∧ (parkWrite w s).out = s.out ∧ (parkWrite w s).pending = s.pending :=
  have k : Off (fun p => p == .mem) s (parkWrite w s) := parkWrite_keeps (Off.keeps _ _) rfl .refl
  ⟨k.clk rfl, k.rcv rfl, k.icu rfl, k.obs rfl, k.sen rfl, k.tamperIn rfl, k.cex rfl, k.xlt rfl, k.srg rfl, k.ods rfl, k.vault rfl, k.kst rfl, k.engKeys rfl, k.kwe rfl, k.pke rfl, k.ent rfl, k.atu rfl, k.lcc rfl, k.link rfl, k.sheaf rfl, k.dom rfl, k.pins rfl, k.boot rfl, k.tdi rfl, k.ac rfl, k.vt rfl, k.free rfl, k.out rfl, k.pending rfl⟩

@[simp] theorem doWrite_same {w : MemWrite} {a : VersionAnswer} {s : State} :
    (doWrite w a s).clk = s.clk ∧ (doWrite w a s).rcv = s.rcv ∧ (doWrite w a s).icu = s.icu ∧ (doWrite w a s).obs = s.obs ∧ (doWrite w a s).sen = s.sen ∧ (doWrite w a s).tamperIn = s.tamperIn ∧ (doWrite w a s).xlt = s.xlt ∧ (doWrite w a s).srg = s.srg ∧ (doWrite w a s).ods = s.ods ∧ (doWrite w a s).vault = s.vault ∧ (doWrite w a s).kst = s.kst ∧ (doWrite w a s).kwe = s.kwe ∧ (doWrite w a s).pke = s.pke ∧ (doWrite w a s).atu = s.atu ∧ (doWrite w a s).lcc = s.lcc ∧ (doWrite w a s).link = s.link ∧ (doWrite w a s).dom = s.dom ∧ (doWrite w a s).pins = s.pins ∧ (doWrite w a s).boot = s.boot ∧ (doWrite w a s).tdi = s.tdi ∧ (doWrite w a s).ac = s.ac ∧ (doWrite w a s).vt = s.vt ∧ (doWrite w a s).pending = s.pending :=
  have k : Off (fun p => p == .cex || p == .engKeys || p == .ent || p == .mem || p == .sheaf || p == .free || p == .out) s (doWrite w a s) := doWrite_keeps (Off.keeps _ _) rfl rfl rfl rfl rfl rfl rfl .refl
  ⟨k.clk rfl, k.rcv rfl, k.icu rfl, k.obs rfl, k.sen rfl, k.tamperIn rfl, k.xlt rfl, k.srg rfl, k.ods rfl, k.vault rfl, k.kst rfl, k.kwe rfl, k.pke rfl, k.atu rfl, k.lcc rfl, k.link rfl, k.dom rfl, k.pins rfl, k.boot rfl, k.tdi rfl, k.ac rfl, k.vt rfl, k.pending rfl⟩

@[simp] theorem returned_same {p : MemRead → Bool} {pc : BitVec 6} {w : RdWord} {s : State} :
    (returned p pc w s).clk = s.clk ∧ (returned p pc w s).sen = s.sen ∧ (returned p pc w s).tamperIn = s.tamperIn ∧ (returned p pc w s).xlt = s.xlt ∧ (returned p pc w s).vault = s.vault ∧ (returned p pc w s).atu = s.atu ∧ (returned p pc w s).lcc = s.lcc ∧ (returned p pc w s).boot = s.boot ∧ (returned p pc w s).tdi = s.tdi ∧ (returned p pc w s).free = s.free ∧ (returned p pc w s).pending = s.pending :=
  have k : Off (fun p => p == .rcv || p == .icu || p == .obs || p == .cex || p == .srg || p == .ods || p == .kst || p == .engKeys || p == .kwe || p == .pke || p == .ent || p == .mem || p == .link || p == .sheaf || p == .dom || p == .pins || p == .ac || p == .vt || p == .out) s (returned p pc w s) := returned_keeps (Off.keeps _ _) rfl rfl rfl rfl rfl rfl rfl rfl rfl rfl rfl rfl rfl rfl rfl rfl rfl rfl rfl .refl
  ⟨k.clk rfl, k.sen rfl, k.tamperIn rfl, k.xlt rfl, k.vault rfl, k.atu rfl, k.lcc rfl, k.boot rfl, k.tdi rfl, k.free rfl, k.pending rfl⟩

@[simp] theorem startChild_same {b : Rebase} {s : State} :
    (startChild b s).clk = s.clk ∧ (startChild b s).rcv = s.rcv ∧ (startChild b s).icu = s.icu ∧ (startChild b s).obs = s.obs ∧ (startChild b s).sen = s.sen ∧ (startChild b s).tamperIn = s.tamperIn ∧ (startChild b s).cex = s.cex ∧ (startChild b s).xlt = s.xlt ∧ (startChild b s).srg = s.srg ∧ (startChild b s).ods = s.ods ∧ (startChild b s).vault = s.vault ∧ (startChild b s).kst = s.kst ∧ (startChild b s).engKeys = s.engKeys ∧ (startChild b s).kwe = s.kwe ∧ (startChild b s).pke = s.pke ∧ (startChild b s).ent = s.ent ∧ (startChild b s).atu = s.atu ∧ (startChild b s).lcc = s.lcc ∧ (startChild b s).link = s.link ∧ (startChild b s).sheaf = s.sheaf ∧ (startChild b s).dom = s.dom ∧ (startChild b s).pins = s.pins ∧ (startChild b s).boot = s.boot ∧ (startChild b s).tdi = s.tdi ∧ (startChild b s).ac = s.ac ∧ (startChild b s).vt = s.vt ∧ (startChild b s).free = s.free ∧ (startChild b s).out = s.out ∧ (startChild b s).pending = s.pending :=
  have k : Off (fun p => p == .mem) s (startChild b s) := startChild_keeps (Off.keeps _ _) rfl .refl
  ⟨k.clk rfl, k.rcv rfl, k.icu rfl, k.obs rfl, k.sen rfl, k.tamperIn rfl, k.cex rfl, k.xlt rfl, k.srg rfl, k.ods rfl, k.vault rfl, k.kst rfl, k.engKeys rfl, k.kwe rfl, k.pke rfl, k.ent rfl, k.atu rfl, k.lcc rfl, k.link rfl, k.sheaf rfl, k.dom rfl, k.pins rfl, k.boot rfl, k.tdi rfl, k.ac rfl, k.vt rfl, k.free rfl, k.out rfl, k.pending rfl⟩

@[simp] theorem unparkWrite_same {q : Nat} {s : State} :
    (unparkWrite q s).clk = s.clk ∧ (unparkWrite q s).rcv = s.rcv ∧ (unparkWrite q s).icu = s.icu ∧ (unparkWrite q s).obs = s.obs ∧ (unparkWrite q s).sen = s.sen ∧ (unparkWrite q s).tamperIn = s.tamperIn ∧ (unparkWrite q s).cex = s.cex ∧ (unparkWrite q s).xlt = s.xlt ∧ (unparkWrite q s).srg = s.srg ∧ (unparkWrite q s).ods = s.ods ∧ (unparkWrite q s).vault = s.vault ∧ (unparkWrite q s).kst = s.kst ∧ (unparkWrite q s).engKeys = s.engKeys ∧ (unparkWrite q s).kwe = s.kwe ∧ (unparkWrite q s).pke = s.pke ∧ (unparkWrite q s).ent = s.ent ∧ (unparkWrite q s).atu = s.atu ∧ (unparkWrite q s).lcc = s.lcc ∧ (unparkWrite q s).link = s.link ∧ (unparkWrite q s).sheaf = s.sheaf ∧ (unparkWrite q s).dom = s.dom ∧ (unparkWrite q s).pins = s.pins ∧ (unparkWrite q s).boot = s.boot ∧ (unparkWrite q s).tdi = s.tdi ∧ (unparkWrite q s).ac = s.ac ∧ (unparkWrite q s).vt = s.vt ∧ (unparkWrite q s).free = s.free ∧ (unparkWrite q s).out = s.out ∧ (unparkWrite q s).pending = s.pending :=
  have k : Off (fun p => p == .mem) s (unparkWrite q s) := unparkWrite_keeps (Off.keeps _ _) rfl .refl
  ⟨k.clk rfl, k.rcv rfl, k.icu rfl, k.obs rfl, k.sen rfl, k.tamperIn rfl, k.cex rfl, k.xlt rfl, k.srg rfl, k.ods rfl, k.vault rfl, k.kst rfl, k.engKeys rfl, k.kwe rfl, k.pke rfl, k.ent rfl, k.atu rfl, k.lcc rfl, k.link rfl, k.sheaf rfl, k.dom rfl, k.pins rfl, k.boot rfl, k.tdi rfl, k.ac rfl, k.vt rfl, k.free rfl, k.out rfl, k.pending rfl⟩

@[simp] theorem settleSave_same {r : Nat} {s : State} :
    (settleSave r s).clk = s.clk ∧ (settleSave r s).sen = s.sen ∧ (settleSave r s).tamperIn = s.tamperIn ∧ (settleSave r s).xlt = s.xlt ∧ (settleSave r s).srg = s.srg ∧ (settleSave r s).ods = s.ods ∧ (settleSave r s).vault = s.vault ∧ (settleSave r s).kst = s.kst ∧ (settleSave r s).engKeys = s.engKeys ∧ (settleSave r s).kwe = s.kwe ∧ (settleSave r s).pke = s.pke ∧ (settleSave r s).ent = s.ent ∧ (settleSave r s).atu = s.atu ∧ (settleSave r s).lcc = s.lcc ∧ (settleSave r s).link = s.link ∧ (settleSave r s).sheaf = s.sheaf ∧ (settleSave r s).dom = s.dom ∧ (settleSave r s).pins = s.pins ∧ (settleSave r s).boot = s.boot ∧ (settleSave r s).tdi = s.tdi ∧ (settleSave r s).ac = s.ac ∧ (settleSave r s).vt = s.vt ∧ (settleSave r s).free = s.free ∧ (settleSave r s).pending = s.pending :=
  have k : Off (fun p => p == .rcv || p == .icu || p == .obs || p == .cex || p == .mem || p == .out) s (settleSave r s) := settleSave_keeps (Off.keeps _ _) rfl rfl rfl rfl rfl rfl .refl
  ⟨k.clk rfl, k.sen rfl, k.tamperIn rfl, k.xlt rfl, k.srg rfl, k.ods rfl, k.vault rfl, k.kst rfl, k.engKeys rfl, k.kwe rfl, k.pke rfl, k.ent rfl, k.atu rfl, k.lcc rfl, k.link rfl, k.sheaf rfl, k.dom rfl, k.pins rfl, k.boot rfl, k.tdi rfl, k.ac rfl, k.vt rfl, k.free rfl, k.pending rfl⟩

@[simp] theorem loadRegionKeys_same {ix d w t : Nat} {s : State} :
    (loadRegionKeys ix d w t s).clk = s.clk ∧ (loadRegionKeys ix d w t s).rcv = s.rcv ∧ (loadRegionKeys ix d w t s).icu = s.icu ∧ (loadRegionKeys ix d w t s).obs = s.obs ∧ (loadRegionKeys ix d w t s).sen = s.sen ∧ (loadRegionKeys ix d w t s).tamperIn = s.tamperIn ∧ (loadRegionKeys ix d w t s).cex = s.cex ∧ (loadRegionKeys ix d w t s).xlt = s.xlt ∧ (loadRegionKeys ix d w t s).srg = s.srg ∧ (loadRegionKeys ix d w t s).ods = s.ods ∧ (loadRegionKeys ix d w t s).vault = s.vault ∧ (loadRegionKeys ix d w t s).kst = s.kst ∧ (loadRegionKeys ix d w t s).pke = s.pke ∧ (loadRegionKeys ix d w t s).atu = s.atu ∧ (loadRegionKeys ix d w t s).lcc = s.lcc ∧ (loadRegionKeys ix d w t s).mem = s.mem ∧ (loadRegionKeys ix d w t s).link = s.link ∧ (loadRegionKeys ix d w t s).sheaf = s.sheaf ∧ (loadRegionKeys ix d w t s).dom = s.dom ∧ (loadRegionKeys ix d w t s).pins = s.pins ∧ (loadRegionKeys ix d w t s).boot = s.boot ∧ (loadRegionKeys ix d w t s).tdi = s.tdi ∧ (loadRegionKeys ix d w t s).ac = s.ac ∧ (loadRegionKeys ix d w t s).vt = s.vt ∧ (loadRegionKeys ix d w t s).free = s.free ∧ (loadRegionKeys ix d w t s).out = s.out ∧ (loadRegionKeys ix d w t s).pending = s.pending :=
  have k : Off (fun p => p == .engKeys || p == .kwe || p == .ent) s (loadRegionKeys ix d w t s) := loadRegionKeys_keeps (Off.keeps _ _) rfl rfl rfl .refl
  ⟨k.clk rfl, k.rcv rfl, k.icu rfl, k.obs rfl, k.sen rfl, k.tamperIn rfl, k.cex rfl, k.xlt rfl, k.srg rfl, k.ods rfl, k.vault rfl, k.kst rfl, k.pke rfl, k.atu rfl, k.lcc rfl, k.mem rfl, k.link rfl, k.sheaf rfl, k.dom rfl, k.pins rfl, k.boot rfl, k.tdi rfl, k.ac rfl, k.vt rfl, k.free rfl, k.out rfl, k.pending rfl⟩

@[simp] theorem clearRegionKeys_same {ix : Nat} {s : State} :
    (clearRegionKeys ix s).clk = s.clk ∧ (clearRegionKeys ix s).rcv = s.rcv ∧ (clearRegionKeys ix s).icu = s.icu ∧ (clearRegionKeys ix s).obs = s.obs ∧ (clearRegionKeys ix s).sen = s.sen ∧ (clearRegionKeys ix s).tamperIn = s.tamperIn ∧ (clearRegionKeys ix s).cex = s.cex ∧ (clearRegionKeys ix s).xlt = s.xlt ∧ (clearRegionKeys ix s).srg = s.srg ∧ (clearRegionKeys ix s).ods = s.ods ∧ (clearRegionKeys ix s).vault = s.vault ∧ (clearRegionKeys ix s).kst = s.kst ∧ (clearRegionKeys ix s).kwe = s.kwe ∧ (clearRegionKeys ix s).pke = s.pke ∧ (clearRegionKeys ix s).ent = s.ent ∧ (clearRegionKeys ix s).atu = s.atu ∧ (clearRegionKeys ix s).lcc = s.lcc ∧ (clearRegionKeys ix s).mem = s.mem ∧ (clearRegionKeys ix s).link = s.link ∧ (clearRegionKeys ix s).sheaf = s.sheaf ∧ (clearRegionKeys ix s).dom = s.dom ∧ (clearRegionKeys ix s).pins = s.pins ∧ (clearRegionKeys ix s).boot = s.boot ∧ (clearRegionKeys ix s).tdi = s.tdi ∧ (clearRegionKeys ix s).ac = s.ac ∧ (clearRegionKeys ix s).vt = s.vt ∧ (clearRegionKeys ix s).free = s.free ∧ (clearRegionKeys ix s).out = s.out ∧ (clearRegionKeys ix s).pending = s.pending :=
  have k : Off (fun p => p == .engKeys) s (clearRegionKeys ix s) := clearRegionKeys_keeps (Off.keeps _ _) rfl .refl
  ⟨k.clk rfl, k.rcv rfl, k.icu rfl, k.obs rfl, k.sen rfl, k.tamperIn rfl, k.cex rfl, k.xlt rfl, k.srg rfl, k.ods rfl, k.vault rfl, k.kst rfl, k.kwe rfl, k.pke rfl, k.ent rfl, k.atu rfl, k.lcc rfl, k.mem rfl, k.link rfl, k.sheaf rfl, k.dom rfl, k.pins rfl, k.boot rfl, k.tdi rfl, k.ac rfl, k.vt rfl, k.free rfl, k.out rfl, k.pending rfl⟩

@[simp] theorem leaveSheaf_same {r : Nat} {s : State} :
    (leaveSheaf r s).clk = s.clk ∧ (leaveSheaf r s).rcv = s.rcv ∧ (leaveSheaf r s).icu = s.icu ∧ (leaveSheaf r s).obs = s.obs ∧ (leaveSheaf r s).sen = s.sen ∧ (leaveSheaf r s).tamperIn = s.tamperIn ∧ (leaveSheaf r s).cex = s.cex ∧ (leaveSheaf r s).xlt = s.xlt ∧ (leaveSheaf r s).srg = s.srg ∧ (leaveSheaf r s).ods = s.ods ∧ (leaveSheaf r s).vault = s.vault ∧ (leaveSheaf r s).kst = s.kst ∧ (leaveSheaf r s).engKeys = s.engKeys ∧ (leaveSheaf r s).kwe = s.kwe ∧ (leaveSheaf r s).pke = s.pke ∧ (leaveSheaf r s).ent = s.ent ∧ (leaveSheaf r s).atu = s.atu ∧ (leaveSheaf r s).lcc = s.lcc ∧ (leaveSheaf r s).mem = s.mem ∧ (leaveSheaf r s).link = s.link ∧ (leaveSheaf r s).dom = s.dom ∧ (leaveSheaf r s).pins = s.pins ∧ (leaveSheaf r s).boot = s.boot ∧ (leaveSheaf r s).tdi = s.tdi ∧ (leaveSheaf r s).ac = s.ac ∧ (leaveSheaf r s).vt = s.vt ∧ (leaveSheaf r s).free = s.free ∧ (leaveSheaf r s).out = s.out ∧ (leaveSheaf r s).pending = s.pending :=
  have k : Off (fun p => p == .sheaf) s (leaveSheaf r s) := leaveSheaf_keeps (Off.keeps _ _) rfl .refl
  ⟨k.clk rfl, k.rcv rfl, k.icu rfl, k.obs rfl, k.sen rfl, k.tamperIn rfl, k.cex rfl, k.xlt rfl, k.srg rfl, k.ods rfl, k.vault rfl, k.kst rfl, k.engKeys rfl, k.kwe rfl, k.pke rfl, k.ent rfl, k.atu rfl, k.lcc rfl, k.mem rfl, k.link rfl, k.dom rfl, k.pins rfl, k.boot rfl, k.tdi rfl, k.ac rfl, k.vt rfl, k.free rfl, k.out rfl, k.pending rfl⟩

@[simp] theorem raiseOverwrite_same {r extra : Nat} {s : State} :
    (raiseOverwrite r extra s).clk = s.clk ∧ (raiseOverwrite r extra s).rcv = s.rcv ∧ (raiseOverwrite r extra s).icu = s.icu ∧ (raiseOverwrite r extra s).obs = s.obs ∧ (raiseOverwrite r extra s).sen = s.sen ∧ (raiseOverwrite r extra s).tamperIn = s.tamperIn ∧ (raiseOverwrite r extra s).xlt = s.xlt ∧ (raiseOverwrite r extra s).srg = s.srg ∧ (raiseOverwrite r extra s).ods = s.ods ∧ (raiseOverwrite r extra s).vault = s.vault ∧ (raiseOverwrite r extra s).kst = s.kst ∧ (raiseOverwrite r extra s).engKeys = s.engKeys ∧ (raiseOverwrite r extra s).kwe = s.kwe ∧ (raiseOverwrite r extra s).pke = s.pke ∧ (raiseOverwrite r extra s).ent = s.ent ∧ (raiseOverwrite r extra s).atu = s.atu ∧ (raiseOverwrite r extra s).lcc = s.lcc ∧ (raiseOverwrite r extra s).mem = s.mem ∧ (raiseOverwrite r extra s).link = s.link ∧ (raiseOverwrite r extra s).sheaf = s.sheaf ∧ (raiseOverwrite r extra s).dom = s.dom ∧ (raiseOverwrite r extra s).pins = s.pins ∧ (raiseOverwrite r extra s).boot = s.boot ∧ (raiseOverwrite r extra s).tdi = s.tdi ∧ (raiseOverwrite r extra s).ac = s.ac ∧ (raiseOverwrite r extra s).vt = s.vt ∧ (raiseOverwrite r extra s).free = s.free ∧ (raiseOverwrite r extra s).out = s.out ∧ (raiseOverwrite r extra s).pending = s.pending :=
  have k : Off (fun p => p == .cex) s (raiseOverwrite r extra s) := raiseOverwrite_keeps (Off.keeps _ _) rfl .refl
  ⟨k.clk rfl, k.rcv rfl, k.icu rfl, k.obs rfl, k.sen rfl, k.tamperIn rfl, k.xlt rfl, k.srg rfl, k.ods rfl, k.vault rfl, k.kst rfl, k.engKeys rfl, k.kwe rfl, k.pke rfl, k.ent rfl, k.atu rfl, k.lcc rfl, k.mem rfl, k.link rfl, k.sheaf rfl, k.dom rfl, k.pins rfl, k.boot rfl, k.tdi rfl, k.ac rfl, k.vt rfl, k.free rfl, k.out rfl, k.pending rfl⟩

@[simp] theorem zeroLine_same {r level : Nat} {mirror : Bool} {s : State} {i : Nat} :
    (zeroLine r level mirror s i).clk = s.clk ∧ (zeroLine r level mirror s i).rcv = s.rcv ∧ (zeroLine r level mirror s i).icu = s.icu ∧ (zeroLine r level mirror s i).obs = s.obs ∧ (zeroLine r level mirror s i).sen = s.sen ∧ (zeroLine r level mirror s i).tamperIn = s.tamperIn ∧ (zeroLine r level mirror s i).cex = s.cex ∧ (zeroLine r level mirror s i).xlt = s.xlt ∧ (zeroLine r level mirror s i).srg = s.srg ∧ (zeroLine r level mirror s i).ods = s.ods ∧ (zeroLine r level mirror s i).vault = s.vault ∧ (zeroLine r level mirror s i).kst = s.kst ∧ (zeroLine r level mirror s i).engKeys = s.engKeys ∧ (zeroLine r level mirror s i).kwe = s.kwe ∧ (zeroLine r level mirror s i).pke = s.pke ∧ (zeroLine r level mirror s i).ent = s.ent ∧ (zeroLine r level mirror s i).atu = s.atu ∧ (zeroLine r level mirror s i).lcc = s.lcc ∧ (zeroLine r level mirror s i).link = s.link ∧ (zeroLine r level mirror s i).sheaf = s.sheaf ∧ (zeroLine r level mirror s i).dom = s.dom ∧ (zeroLine r level mirror s i).pins = s.pins ∧ (zeroLine r level mirror s i).boot = s.boot ∧ (zeroLine r level mirror s i).tdi = s.tdi ∧ (zeroLine r level mirror s i).ac = s.ac ∧ (zeroLine r level mirror s i).vt = s.vt ∧ (zeroLine r level mirror s i).free = s.free ∧ (zeroLine r level mirror s i).out = s.out ∧ (zeroLine r level mirror s i).pending = s.pending :=
  have k : Off (fun p => p == .mem) s (zeroLine r level mirror s i) := zeroLine_keeps (Off.keeps _ _) rfl .refl
  ⟨k.clk rfl, k.rcv rfl, k.icu rfl, k.obs rfl, k.sen rfl, k.tamperIn rfl, k.cex rfl, k.xlt rfl, k.srg rfl, k.ods rfl, k.vault rfl, k.kst rfl, k.engKeys rfl, k.kwe rfl, k.pke rfl, k.ent rfl, k.atu rfl, k.lcc rfl, k.link rfl, k.sheaf rfl, k.dom rfl, k.pins rfl, k.boot rfl, k.tdi rfl, k.ac rfl, k.vt rfl, k.free rfl, k.out rfl, k.pending rfl⟩

@[simp] theorem zeroFill_same {r : Nat} {s : State} :
    (zeroFill r s).clk = s.clk ∧ (zeroFill r s).rcv = s.rcv ∧ (zeroFill r s).icu = s.icu ∧ (zeroFill r s).obs = s.obs ∧ (zeroFill r s).sen = s.sen ∧ (zeroFill r s).tamperIn = s.tamperIn ∧ (zeroFill r s).cex = s.cex ∧ (zeroFill r s).xlt = s.xlt ∧ (zeroFill r s).srg = s.srg ∧ (zeroFill r s).ods = s.ods ∧ (zeroFill r s).vault = s.vault ∧ (zeroFill r s).kst = s.kst ∧ (zeroFill r s).engKeys = s.engKeys ∧ (zeroFill r s).kwe = s.kwe ∧ (zeroFill r s).pke = s.pke ∧ (zeroFill r s).ent = s.ent ∧ (zeroFill r s).atu = s.atu ∧ (zeroFill r s).lcc = s.lcc ∧ (zeroFill r s).link = s.link ∧ (zeroFill r s).sheaf = s.sheaf ∧ (zeroFill r s).dom = s.dom ∧ (zeroFill r s).pins = s.pins ∧ (zeroFill r s).boot = s.boot ∧ (zeroFill r s).tdi = s.tdi ∧ (zeroFill r s).ac = s.ac ∧ (zeroFill r s).vt = s.vt ∧ (zeroFill r s).free = s.free ∧ (zeroFill r s).out = s.out ∧ (zeroFill r s).pending = s.pending :=
  have k : Off (fun p => p == .mem) s (zeroFill r s) := zeroFill_keeps (Off.keeps _ _) rfl .refl
  ⟨k.clk rfl, k.rcv rfl, k.icu rfl, k.obs rfl, k.sen rfl, k.tamperIn rfl, k.cex rfl, k.xlt rfl, k.srg rfl, k.ods rfl, k.vault rfl, k.kst rfl, k.engKeys rfl, k.kwe rfl, k.pke rfl, k.ent rfl, k.atu rfl, k.lcc rfl, k.link rfl, k.sheaf rfl, k.dom rfl, k.pins rfl, k.boot rfl, k.tdi rfl, k.ac rfl, k.vt rfl, k.free rfl, k.out rfl, k.pending rfl⟩

@[simp] theorem defineRegion_same {h : CmdHdr} {r : Nat} {x : Region} {zero : Bool} {s : State} :
    (defineRegion h r x zero s).clk = s.clk ∧ (defineRegion h r x zero s).rcv = s.rcv ∧ (defineRegion h r x zero s).icu = s.icu ∧ (defineRegion h r x zero s).obs = s.obs ∧ (defineRegion h r x zero s).sen = s.sen ∧ (defineRegion h r x zero s).tamperIn = s.tamperIn ∧ (defineRegion h r x zero s).xlt = s.xlt ∧ (defineRegion h r x zero s).srg = s.srg ∧ (defineRegion h r x zero s).ods = s.ods ∧ (defineRegion h r x zero s).vault = s.vault ∧ (defineRegion h r x zero s).kst = s.kst ∧ (defineRegion h r x zero s).pke = s.pke ∧ (defineRegion h r x zero s).atu = s.atu ∧ (defineRegion h r x zero s).lcc = s.lcc ∧ (defineRegion h r x zero s).link = s.link ∧ (defineRegion h r x zero s).sheaf = s.sheaf ∧ (defineRegion h r x zero s).dom = s.dom ∧ (defineRegion h r x zero s).pins = s.pins ∧ (defineRegion h r x zero s).boot = s.boot ∧ (defineRegion h r x zero s).tdi = s.tdi ∧ (defineRegion h r x zero s).ac = s.ac ∧ (defineRegion h r x zero s).vt = s.vt ∧ (defineRegion h r x zero s).free = s.free ∧ (defineRegion h r x zero s).out = s.out ∧ (defineRegion h r x zero s).pending = s.pending :=
  have k : Off (fun p => p == .cex || p == .engKeys || p == .kwe || p == .ent || p == .mem) s (defineRegion h r x zero s) := defineRegion_keeps (Off.keeps _ _) rfl rfl rfl rfl rfl .refl
  ⟨k.clk rfl, k.rcv rfl, k.icu rfl, k.obs rfl, k.sen rfl, k.tamperIn rfl, k.xlt rfl, k.srg rfl, k.ods rfl, k.vault rfl, k.kst rfl, k.pke rfl, k.atu rfl, k.lcc rfl, k.link rfl, k.sheaf rfl, k.dom rfl, k.pins rfl, k.boot rfl, k.tdi rfl, k.ac rfl, k.vt rfl, k.free rfl, k.out rfl, k.pending rfl⟩

@[simp] theorem settleKeyFences_same {r : Nat} {s : State} :
    (settleKeyFences r s).clk = s.clk ∧ (settleKeyFences r s).rcv = s.rcv ∧ (settleKeyFences r s).icu = s.icu ∧ (settleKeyFences r s).obs = s.obs ∧ (settleKeyFences r s).sen = s.sen ∧ (settleKeyFences r s).tamperIn = s.tamperIn ∧ (settleKeyFences r s).xlt = s.xlt ∧ (settleKeyFences r s).srg = s.srg ∧ (settleKeyFences r s).ods = s.ods ∧ (settleKeyFences r s).vault = s.vault ∧ (settleKeyFences r s).kst = s.kst ∧ (settleKeyFences r s).engKeys = s.engKeys ∧ (settleKeyFences r s).kwe = s.kwe ∧ (settleKeyFences r s).pke = s.pke ∧ (settleKeyFences r s).ent = s.ent ∧ (settleKeyFences r s).atu = s.atu ∧ (settleKeyFences r s).lcc = s.lcc ∧ (settleKeyFences r s).mem = s.mem ∧ (settleKeyFences r s).link = s.link ∧ (settleKeyFences r s).sheaf = s.sheaf ∧ (settleKeyFences r s).dom = s.dom ∧ (settleKeyFences r s).pins = s.pins ∧ (settleKeyFences r s).boot = s.boot ∧ (settleKeyFences r s).tdi = s.tdi ∧ (settleKeyFences r s).ac = s.ac ∧ (settleKeyFences r s).vt = s.vt ∧ (settleKeyFences r s).free = s.free ∧ (settleKeyFences r s).out = s.out ∧ (settleKeyFences r s).pending = s.pending :=
  have k : Off (fun p => p == .cex) s (settleKeyFences r s) := settleKeyFences_keeps (Off.keeps _ _) rfl .refl
  ⟨k.clk rfl, k.rcv rfl, k.icu rfl, k.obs rfl, k.sen rfl, k.tamperIn rfl, k.xlt rfl, k.srg rfl, k.ods rfl, k.vault rfl, k.kst rfl, k.engKeys rfl, k.kwe rfl, k.pke rfl, k.ent rfl, k.atu rfl, k.lcc rfl, k.mem rfl, k.link rfl, k.sheaf rfl, k.dom rfl, k.pins rfl, k.boot rfl, k.tdi rfl, k.ac rfl, k.vt rfl, k.free rfl, k.out rfl, k.pending rfl⟩

@[simp] theorem retireRegion_same {r : Nat} {k : CmdKey} {s : State} :
    (retireRegion r k s).clk = s.clk ∧ (retireRegion r k s).sen = s.sen ∧ (retireRegion r k s).tamperIn = s.tamperIn ∧ (retireRegion r k s).xlt = s.xlt ∧ (retireRegion r k s).srg = s.srg ∧ (retireRegion r k s).ods = s.ods ∧ (retireRegion r k s).vault = s.vault ∧ (retireRegion r k s).kst = s.kst ∧ (retireRegion r k s).kwe = s.kwe ∧ (retireRegion r k s).pke = s.pke ∧ (retireRegion r k s).atu = s.atu ∧ (retireRegion r k s).lcc = s.lcc ∧ (retireRegion r k s).link = s.link ∧ (retireRegion r k s).dom = s.dom ∧ (retireRegion r k s).pins = s.pins ∧ (retireRegion r k s).boot = s.boot ∧ (retireRegion r k s).tdi = s.tdi ∧ (retireRegion r k s).ac = s.ac ∧ (retireRegion r k s).vt = s.vt ∧ (retireRegion r k s).pending = s.pending :=
  have k : Off (fun p => p == .rcv || p == .icu || p == .obs || p == .cex || p == .engKeys || p == .ent || p == .mem || p == .sheaf || p == .free || p == .out) s (retireRegion r k s) := retireRegion_keeps (Off.keeps _ _) rfl rfl rfl rfl rfl rfl rfl rfl rfl rfl .refl
  ⟨k.clk rfl, k.sen rfl, k.tamperIn rfl, k.xlt rfl, k.srg rfl, k.ods rfl, k.vault rfl, k.kst rfl, k.kwe rfl, k.pke rfl, k.atu rfl, k.lcc rfl, k.link rfl, k.dom rfl, k.pins rfl, k.boot rfl, k.tdi rfl, k.ac rfl, k.vt rfl, k.pending rfl⟩

@[simp] theorem updGraph_same {sl handle : Nat} {f : Graph → Graph} {s : State} :
    (updGraph sl handle f s).clk = s.clk ∧ (updGraph sl handle f s).rcv = s.rcv ∧ (updGraph sl handle f s).icu = s.icu ∧ (updGraph sl handle f s).obs = s.obs ∧ (updGraph sl handle f s).sen = s.sen ∧ (updGraph sl handle f s).tamperIn = s.tamperIn ∧ (updGraph sl handle f s).xlt = s.xlt ∧ (updGraph sl handle f s).srg = s.srg ∧ (updGraph sl handle f s).ods = s.ods ∧ (updGraph sl handle f s).vault = s.vault ∧ (updGraph sl handle f s).kst = s.kst ∧ (updGraph sl handle f s).engKeys = s.engKeys ∧ (updGraph sl handle f s).kwe = s.kwe ∧ (updGraph sl handle f s).pke = s.pke ∧ (updGraph sl handle f s).ent = s.ent ∧ (updGraph sl handle f s).atu = s.atu ∧ (updGraph sl handle f s).lcc = s.lcc ∧ (updGraph sl handle f s).mem = s.mem ∧ (updGraph sl handle f s).link = s.link ∧ (updGraph sl handle f s).sheaf = s.sheaf ∧ (updGraph sl handle f s).dom = s.dom ∧ (updGraph sl handle f s).pins = s.pins ∧ (updGraph sl handle f s).boot = s.boot ∧ (updGraph sl handle f s).tdi = s.tdi ∧ (updGraph sl handle f s).ac = s.ac ∧ (updGraph sl handle f s).vt = s.vt ∧ (updGraph sl handle f s).free = s.free ∧ (updGraph sl handle f s).out = s.out ∧ (updGraph sl handle f s).pending = s.pending :=
  have k : Off (fun p => p == .cex) s (updGraph sl handle f s) := updGraph_keeps (Off.keeps _ _) rfl .refl
  ⟨k.clk rfl, k.rcv rfl, k.icu rfl, k.obs rfl, k.sen rfl, k.tamperIn rfl, k.xlt rfl, k.srg rfl, k.ods rfl, k.vault rfl, k.kst rfl, k.engKeys rfl, k.kwe rfl, k.pke rfl, k.ent rfl, k.atu rfl, k.lcc rfl, k.mem rfl, k.link rfl, k.sheaf rfl, k.dom rfl, k.pins rfl, k.boot rfl, k.tdi rfl, k.ac rfl, k.vt rfl, k.free rfl, k.out rfl, k.pending rfl⟩

@[simp] theorem setScalar_same {k : CmdKey} {i : Nat} {v : BitVec 64} {s : State} :
    (setScalar k i v s).clk = s.clk ∧ (setScalar k i v s).rcv = s.rcv ∧ (setScalar k i v s).icu = s.icu ∧ (setScalar k i v s).obs = s.obs ∧ (setScalar k i v s).sen = s.sen ∧ (setScalar k i v s).tamperIn = s.tamperIn ∧ (setScalar k i v s).xlt = s.xlt ∧ (setScalar k i v s).srg = s.srg ∧ (setScalar k i v s).ods = s.ods ∧ (setScalar k i v s).vault = s.vault ∧ (setScalar k i v s).kst = s.kst ∧ (setScalar k i v s).engKeys = s.engKeys ∧ (setScalar k i v s).kwe = s.kwe ∧ (setScalar k i v s).pke = s.pke ∧ (setScalar k i v s).ent = s.ent ∧ (setScalar k i v s).atu = s.atu ∧ (setScalar k i v s).lcc = s.lcc ∧ (setScalar k i v s).mem = s.mem ∧ (setScalar k i v s).link = s.link ∧ (setScalar k i v s).sheaf = s.sheaf ∧ (setScalar k i v s).dom = s.dom ∧ (setScalar k i v s).pins = s.pins ∧ (setScalar k i v s).boot = s.boot ∧ (setScalar k i v s).tdi = s.tdi ∧ (setScalar k i v s).ac = s.ac ∧ (setScalar k i v s).vt = s.vt ∧ (setScalar k i v s).free = s.free ∧ (setScalar k i v s).out = s.out ∧ (setScalar k i v s).pending = s.pending :=
  have k : Off (fun p => p == .cex) s (setScalar k i v s) := setScalar_keeps (Off.keeps _ _) rfl .refl
  ⟨k.clk rfl, k.rcv rfl, k.icu rfl, k.obs rfl, k.sen rfl, k.tamperIn rfl, k.xlt rfl, k.srg rfl, k.ods rfl, k.vault rfl, k.kst rfl, k.engKeys rfl, k.kwe rfl, k.pke rfl, k.ent rfl, k.atu rfl, k.lcc rfl, k.mem rfl, k.link rfl, k.sheaf rfl, k.dom rfl, k.pins rfl, k.boot rfl, k.tdi rfl, k.ac rfl, k.vt rfl, k.free rfl, k.out rfl, k.pending rfl⟩

@[simp] theorem endCall_same {f : Frame} {k : Nat} {s : State} :
    (endCall f k s).clk = s.clk ∧ (endCall f k s).rcv = s.rcv ∧ (endCall f k s).icu = s.icu ∧ (endCall f k s).obs = s.obs ∧ (endCall f k s).sen = s.sen ∧ (endCall f k s).tamperIn = s.tamperIn ∧ (endCall f k s).xlt = s.xlt ∧ (endCall f k s).srg = s.srg ∧ (endCall f k s).ods = s.ods ∧ (endCall f k s).vault = s.vault ∧ (endCall f k s).kst = s.kst ∧ (endCall f k s).engKeys = s.engKeys ∧ (endCall f k s).kwe = s.kwe ∧ (endCall f k s).pke = s.pke ∧ (endCall f k s).ent = s.ent ∧ (endCall f k s).atu = s.atu ∧ (endCall f k s).lcc = s.lcc ∧ (endCall f k s).mem = s.mem ∧ (endCall f k s).link = s.link ∧ (endCall f k s).sheaf = s.sheaf ∧ (endCall f k s).dom = s.dom ∧ (endCall f k s).pins = s.pins ∧ (endCall f k s).boot = s.boot ∧ (endCall f k s).tdi = s.tdi ∧ (endCall f k s).ac = s.ac ∧ (endCall f k s).vt = s.vt ∧ (endCall f k s).free = s.free ∧ (endCall f k s).out = s.out ∧ (endCall f k s).pending = s.pending :=
  have k : Off (fun p => p == .cex) s (endCall f k s) := endCall_keeps (Off.keeps _ _) rfl .refl
  ⟨k.clk rfl, k.rcv rfl, k.icu rfl, k.obs rfl, k.sen rfl, k.tamperIn rfl, k.xlt rfl, k.srg rfl, k.ods rfl, k.vault rfl, k.kst rfl, k.engKeys rfl, k.kwe rfl, k.pke rfl, k.ent rfl, k.atu rfl, k.lcc rfl, k.mem rfl, k.link rfl, k.sheaf rfl, k.dom rfl, k.pins rfl, k.boot rfl, k.tdi rfl, k.ac rfl, k.vt rfl, k.free rfl, k.out rfl, k.pending rfl⟩

@[simp] theorem settlePairFences_same {p : Nat} {s : State} :
    (settlePairFences p s).clk = s.clk ∧ (settlePairFences p s).rcv = s.rcv ∧ (settlePairFences p s).icu = s.icu ∧ (settlePairFences p s).obs = s.obs ∧ (settlePairFences p s).sen = s.sen ∧ (settlePairFences p s).tamperIn = s.tamperIn ∧ (settlePairFences p s).xlt = s.xlt ∧ (settlePairFences p s).srg = s.srg ∧ (settlePairFences p s).ods = s.ods ∧ (settlePairFences p s).vault = s.vault ∧ (settlePairFences p s).kst = s.kst ∧ (settlePairFences p s).engKeys = s.engKeys ∧ (settlePairFences p s).kwe = s.kwe ∧ (settlePairFences p s).pke = s.pke ∧ (settlePairFences p s).ent = s.ent ∧ (settlePairFences p s).atu = s.atu ∧ (settlePairFences p s).lcc = s.lcc ∧ (settlePairFences p s).mem = s.mem ∧ (settlePairFences p s).link = s.link ∧ (settlePairFences p s).sheaf = s.sheaf ∧ (settlePairFences p s).dom = s.dom ∧ (settlePairFences p s).pins = s.pins ∧ (settlePairFences p s).boot = s.boot ∧ (settlePairFences p s).tdi = s.tdi ∧ (settlePairFences p s).ac = s.ac ∧ (settlePairFences p s).vt = s.vt ∧ (settlePairFences p s).free = s.free ∧ (settlePairFences p s).out = s.out ∧ (settlePairFences p s).pending = s.pending :=
  have k : Off (fun p => p == .cex) s (settlePairFences p s) := settlePairFences_keeps (Off.keeps _ _) rfl .refl
  ⟨k.clk rfl, k.rcv rfl, k.icu rfl, k.obs rfl, k.sen rfl, k.tamperIn rfl, k.xlt rfl, k.srg rfl, k.ods rfl, k.vault rfl, k.kst rfl, k.engKeys rfl, k.kwe rfl, k.pke rfl, k.ent rfl, k.atu rfl, k.lcc rfl, k.mem rfl, k.link rfl, k.sheaf rfl, k.dom rfl, k.pins rfl, k.boot rfl, k.tdi rfl, k.ac rfl, k.vt rfl, k.free rfl, k.out rfl, k.pending rfl⟩

@[simp] theorem addFrame_same {f : Frame} {s : State} :
    (addFrame f s).clk = s.clk ∧ (addFrame f s).rcv = s.rcv ∧ (addFrame f s).icu = s.icu ∧ (addFrame f s).obs = s.obs ∧ (addFrame f s).sen = s.sen ∧ (addFrame f s).tamperIn = s.tamperIn ∧ (addFrame f s).xlt = s.xlt ∧ (addFrame f s).srg = s.srg ∧ (addFrame f s).ods = s.ods ∧ (addFrame f s).vault = s.vault ∧ (addFrame f s).kst = s.kst ∧ (addFrame f s).engKeys = s.engKeys ∧ (addFrame f s).kwe = s.kwe ∧ (addFrame f s).pke = s.pke ∧ (addFrame f s).ent = s.ent ∧ (addFrame f s).atu = s.atu ∧ (addFrame f s).lcc = s.lcc ∧ (addFrame f s).mem = s.mem ∧ (addFrame f s).link = s.link ∧ (addFrame f s).sheaf = s.sheaf ∧ (addFrame f s).dom = s.dom ∧ (addFrame f s).pins = s.pins ∧ (addFrame f s).boot = s.boot ∧ (addFrame f s).tdi = s.tdi ∧ (addFrame f s).ac = s.ac ∧ (addFrame f s).vt = s.vt ∧ (addFrame f s).free = s.free ∧ (addFrame f s).out = s.out ∧ (addFrame f s).pending = s.pending :=
  have k : Off (fun p => p == .cex) s (addFrame f s) := addFrame_keeps (Off.keeps _ _) rfl .refl
  ⟨k.clk rfl, k.rcv rfl, k.icu rfl, k.obs rfl, k.sen rfl, k.tamperIn rfl, k.xlt rfl, k.srg rfl, k.ods rfl, k.vault rfl, k.kst rfl, k.engKeys rfl, k.kwe rfl, k.pke rfl, k.ent rfl, k.atu rfl, k.lcc rfl, k.mem rfl, k.link rfl, k.sheaf rfl, k.dom rfl, k.pins rfl, k.boot rfl, k.tdi rfl, k.ac rfl, k.vt rfl, k.free rfl, k.out rfl, k.pending rfl⟩

@[simp] theorem updGroup_same {sl g : Nat} {f : FenceGroup → FenceGroup} {s : State} :
    (updGroup sl g f s).clk = s.clk ∧ (updGroup sl g f s).rcv = s.rcv ∧ (updGroup sl g f s).icu = s.icu ∧ (updGroup sl g f s).obs = s.obs ∧ (updGroup sl g f s).sen = s.sen ∧ (updGroup sl g f s).tamperIn = s.tamperIn ∧ (updGroup sl g f s).xlt = s.xlt ∧ (updGroup sl g f s).srg = s.srg ∧ (updGroup sl g f s).ods = s.ods ∧ (updGroup sl g f s).vault = s.vault ∧ (updGroup sl g f s).kst = s.kst ∧ (updGroup sl g f s).engKeys = s.engKeys ∧ (updGroup sl g f s).kwe = s.kwe ∧ (updGroup sl g f s).pke = s.pke ∧ (updGroup sl g f s).ent = s.ent ∧ (updGroup sl g f s).atu = s.atu ∧ (updGroup sl g f s).lcc = s.lcc ∧ (updGroup sl g f s).mem = s.mem ∧ (updGroup sl g f s).link = s.link ∧ (updGroup sl g f s).sheaf = s.sheaf ∧ (updGroup sl g f s).dom = s.dom ∧ (updGroup sl g f s).pins = s.pins ∧ (updGroup sl g f s).boot = s.boot ∧ (updGroup sl g f s).tdi = s.tdi ∧ (updGroup sl g f s).ac = s.ac ∧ (updGroup sl g f s).vt = s.vt ∧ (updGroup sl g f s).free = s.free ∧ (updGroup sl g f s).out = s.out ∧ (updGroup sl g f s).pending = s.pending :=
  have k : Off (fun p => p == .cex) s (updGroup sl g f s) := updGroup_keeps (Off.keeps _ _) rfl .refl
  ⟨k.clk rfl, k.rcv rfl, k.icu rfl, k.obs rfl, k.sen rfl, k.tamperIn rfl, k.xlt rfl, k.srg rfl, k.ods rfl, k.vault rfl, k.kst rfl, k.engKeys rfl, k.kwe rfl, k.pke rfl, k.ent rfl, k.atu rfl, k.lcc rfl, k.mem rfl, k.link rfl, k.sheaf rfl, k.dom rfl, k.pins rfl, k.boot rfl, k.tdi rfl, k.ac rfl, k.vt rfl, k.free rfl, k.out rfl, k.pending rfl⟩

@[simp] theorem completePlough_same {r : Nat} {p : Plough} {s : State} :
    (completePlough r p s).clk = s.clk ∧ (completePlough r p s).sen = s.sen ∧ (completePlough r p s).tamperIn = s.tamperIn ∧ (completePlough r p s).xlt = s.xlt ∧ (completePlough r p s).vault = s.vault ∧ (completePlough r p s).atu = s.atu ∧ (completePlough r p s).lcc = s.lcc ∧ (completePlough r p s).boot = s.boot ∧ (completePlough r p s).tdi = s.tdi ∧ (completePlough r p s).free = s.free ∧ (completePlough r p s).pending = s.pending :=
  have k : Off (fun p => p == .rcv || p == .icu || p == .obs || p == .cex || p == .srg || p == .ods || p == .kst || p == .engKeys || p == .kwe || p == .pke || p == .ent || p == .mem || p == .link || p == .sheaf || p == .dom || p == .pins || p == .ac || p == .vt || p == .out) s (completePlough r p s) := completePlough_keeps (Off.keeps _ _) rfl rfl rfl rfl rfl rfl rfl rfl rfl rfl rfl rfl rfl rfl rfl rfl rfl rfl rfl .refl
  ⟨k.clk rfl, k.sen rfl, k.tamperIn rfl, k.xlt rfl, k.vault rfl, k.atu rfl, k.lcc rfl, k.boot rfl, k.tdi rfl, k.free rfl, k.pending rfl⟩

@[simp] theorem startPlough_same {h : CmdHdr} {r epoch d w t : Nat} {s : State} :
    (startPlough h r epoch d w t s).clk = s.clk ∧ (startPlough h r epoch d w t s).sen = s.sen ∧ (startPlough h r epoch d w t s).tamperIn = s.tamperIn ∧ (startPlough h r epoch d w t s).xlt = s.xlt ∧ (startPlough h r epoch d w t s).srg = s.srg ∧ (startPlough h r epoch d w t s).ods = s.ods ∧ (startPlough h r epoch d w t s).vault = s.vault ∧ (startPlough h r epoch d w t s).kst = s.kst ∧ (startPlough h r epoch d w t s).pke = s.pke ∧ (startPlough h r epoch d w t s).atu = s.atu ∧ (startPlough h r epoch d w t s).lcc = s.lcc ∧ (startPlough h r epoch d w t s).link = s.link ∧ (startPlough h r epoch d w t s).sheaf = s.sheaf ∧ (startPlough h r epoch d w t s).dom = s.dom ∧ (startPlough h r epoch d w t s).pins = s.pins ∧ (startPlough h r epoch d w t s).boot = s.boot ∧ (startPlough h r epoch d w t s).tdi = s.tdi ∧ (startPlough h r epoch d w t s).ac = s.ac ∧ (startPlough h r epoch d w t s).vt = s.vt ∧ (startPlough h r epoch d w t s).free = s.free ∧ (startPlough h r epoch d w t s).pending = s.pending :=
  have k : Off (fun p => p == .rcv || p == .icu || p == .obs || p == .cex || p == .engKeys || p == .kwe || p == .ent || p == .mem || p == .out) s (startPlough h r epoch d w t s) := startPlough_keeps (Off.keeps _ _) rfl rfl rfl rfl rfl rfl rfl rfl rfl .refl
  ⟨k.clk rfl, k.sen rfl, k.tamperIn rfl, k.xlt rfl, k.srg rfl, k.ods rfl, k.vault rfl, k.kst rfl, k.pke rfl, k.atu rfl, k.lcc rfl, k.link rfl, k.sheaf rfl, k.dom rfl, k.pins rfl, k.boot rfl, k.tdi rfl, k.ac rfl, k.vt rfl, k.free rfl, k.pending rfl⟩

@[simp] theorem lockLine_same {r n : Nat} {cands : List Nat} {s : State} :
    (lockLine r n cands s).clk = s.clk ∧ (lockLine r n cands s).rcv = s.rcv ∧ (lockLine r n cands s).icu = s.icu ∧ (lockLine r n cands s).obs = s.obs ∧ (lockLine r n cands s).sen = s.sen ∧ (lockLine r n cands s).tamperIn = s.tamperIn ∧ (lockLine r n cands s).cex = s.cex ∧ (lockLine r n cands s).xlt = s.xlt ∧ (lockLine r n cands s).srg = s.srg ∧ (lockLine r n cands s).ods = s.ods ∧ (lockLine r n cands s).vault = s.vault ∧ (lockLine r n cands s).kst = s.kst ∧ (lockLine r n cands s).engKeys = s.engKeys ∧ (lockLine r n cands s).kwe = s.kwe ∧ (lockLine r n cands s).pke = s.pke ∧ (lockLine r n cands s).ent = s.ent ∧ (lockLine r n cands s).atu = s.atu ∧ (lockLine r n cands s).lcc = s.lcc ∧ (lockLine r n cands s).link = s.link ∧ (lockLine r n cands s).sheaf = s.sheaf ∧ (lockLine r n cands s).dom = s.dom ∧ (lockLine r n cands s).pins = s.pins ∧ (lockLine r n cands s).boot = s.boot ∧ (lockLine r n cands s).tdi = s.tdi ∧ (lockLine r n cands s).ac = s.ac ∧ (lockLine r n cands s).vt = s.vt ∧ (lockLine r n cands s).free = s.free ∧ (lockLine r n cands s).out = s.out ∧ (lockLine r n cands s).pending = s.pending :=
  have k : Off (fun p => p == .mem) s (lockLine r n cands s) := lockLine_keeps (Off.keeps _ _) rfl .refl
  ⟨k.clk rfl, k.rcv rfl, k.icu rfl, k.obs rfl, k.sen rfl, k.tamperIn rfl, k.cex rfl, k.xlt rfl, k.srg rfl, k.ods rfl, k.vault rfl, k.kst rfl, k.engKeys rfl, k.kwe rfl, k.pke rfl, k.ent rfl, k.atu rfl, k.lcc rfl, k.link rfl, k.sheaf rfl, k.dom rfl, k.pins rfl, k.boot rfl, k.tdi rfl, k.ac rfl, k.vt rfl, k.free rfl, k.out rfl, k.pending rfl⟩

@[simp] theorem resumePloughs_same {s : State} :
    (resumePloughs s).clk = s.clk ∧ (resumePloughs s).rcv = s.rcv ∧ (resumePloughs s).icu = s.icu ∧ (resumePloughs s).obs = s.obs ∧ (resumePloughs s).sen = s.sen ∧ (resumePloughs s).tamperIn = s.tamperIn ∧ (resumePloughs s).cex = s.cex ∧ (resumePloughs s).xlt = s.xlt ∧ (resumePloughs s).srg = s.srg ∧ (resumePloughs s).ods = s.ods ∧ (resumePloughs s).vault = s.vault ∧ (resumePloughs s).kst = s.kst ∧ (resumePloughs s).engKeys = s.engKeys ∧ (resumePloughs s).kwe = s.kwe ∧ (resumePloughs s).pke = s.pke ∧ (resumePloughs s).ent = s.ent ∧ (resumePloughs s).atu = s.atu ∧ (resumePloughs s).lcc = s.lcc ∧ (resumePloughs s).link = s.link ∧ (resumePloughs s).sheaf = s.sheaf ∧ (resumePloughs s).dom = s.dom ∧ (resumePloughs s).pins = s.pins ∧ (resumePloughs s).boot = s.boot ∧ (resumePloughs s).tdi = s.tdi ∧ (resumePloughs s).ac = s.ac ∧ (resumePloughs s).vt = s.vt ∧ (resumePloughs s).free = s.free ∧ (resumePloughs s).out = s.out ∧ (resumePloughs s).pending = s.pending :=
  have k : Off (fun p => p == .mem) s (resumePloughs s) := resumePloughs_keeps (Off.keeps _ _) rfl .refl
  ⟨k.clk rfl, k.rcv rfl, k.icu rfl, k.obs rfl, k.sen rfl, k.tamperIn rfl, k.cex rfl, k.xlt rfl, k.srg rfl, k.ods rfl, k.vault rfl, k.kst rfl, k.engKeys rfl, k.kwe rfl, k.pke rfl, k.ent rfl, k.atu rfl, k.lcc rfl, k.link rfl, k.sheaf rfl, k.dom rfl, k.pins rfl, k.boot rfl, k.tdi rfl, k.ac rfl, k.vt rfl, k.free rfl, k.out rfl, k.pending rfl⟩

@[simp] theorem pausePlough_same {r cause : Nat} {s : State} :
    (pausePlough r cause s).clk = s.clk ∧ (pausePlough r cause s).sen = s.sen ∧ (pausePlough r cause s).tamperIn = s.tamperIn ∧ (pausePlough r cause s).xlt = s.xlt ∧ (pausePlough r cause s).srg = s.srg ∧ (pausePlough r cause s).ods = s.ods ∧ (pausePlough r cause s).vault = s.vault ∧ (pausePlough r cause s).kst = s.kst ∧ (pausePlough r cause s).engKeys = s.engKeys ∧ (pausePlough r cause s).kwe = s.kwe ∧ (pausePlough r cause s).pke = s.pke ∧ (pausePlough r cause s).ent = s.ent ∧ (pausePlough r cause s).atu = s.atu ∧ (pausePlough r cause s).lcc = s.lcc ∧ (pausePlough r cause s).link = s.link ∧ (pausePlough r cause s).sheaf = s.sheaf ∧ (pausePlough r cause s).dom = s.dom ∧ (pausePlough r cause s).pins = s.pins ∧ (pausePlough r cause s).boot = s.boot ∧ (pausePlough r cause s).tdi = s.tdi ∧ (pausePlough r cause s).ac = s.ac ∧ (pausePlough r cause s).vt = s.vt ∧ (pausePlough r cause s).free = s.free ∧ (pausePlough r cause s).pending = s.pending :=
  have k : Off (fun p => p == .rcv || p == .icu || p == .obs || p == .cex || p == .mem || p == .out) s (pausePlough r cause s) := pausePlough_keeps (Off.keeps _ _) rfl rfl rfl rfl rfl rfl .refl
  ⟨k.clk rfl, k.sen rfl, k.tamperIn rfl, k.xlt rfl, k.srg rfl, k.ods rfl, k.vault rfl, k.kst rfl, k.engKeys rfl, k.kwe rfl, k.pke rfl, k.ent rfl, k.atu rfl, k.lcc rfl, k.link rfl, k.sheaf rfl, k.dom rfl, k.pins rfl, k.boot rfl, k.tdi rfl, k.ac rfl, k.vt rfl, k.free rfl, k.pending rfl⟩

@[simp] theorem updCal_same {e : Nat} {f : Cal → Cal} {s : State} :
    (updCal e f s).clk = s.clk ∧ (updCal e f s).rcv = s.rcv ∧ (updCal e f s).icu = s.icu ∧ (updCal e f s).obs = s.obs ∧ (updCal e f s).sen = s.sen ∧ (updCal e f s).tamperIn = s.tamperIn ∧ (updCal e f s).cex = s.cex ∧ (updCal e f s).xlt = s.xlt ∧ (updCal e f s).srg = s.srg ∧ (updCal e f s).ods = s.ods ∧ (updCal e f s).vault = s.vault ∧ (updCal e f s).kst = s.kst ∧ (updCal e f s).engKeys = s.engKeys ∧ (updCal e f s).kwe = s.kwe ∧ (updCal e f s).pke = s.pke ∧ (updCal e f s).ent = s.ent ∧ (updCal e f s).atu = s.atu ∧ (updCal e f s).lcc = s.lcc ∧ (updCal e f s).link = s.link ∧ (updCal e f s).sheaf = s.sheaf ∧ (updCal e f s).dom = s.dom ∧ (updCal e f s).pins = s.pins ∧ (updCal e f s).boot = s.boot ∧ (updCal e f s).tdi = s.tdi ∧ (updCal e f s).ac = s.ac ∧ (updCal e f s).vt = s.vt ∧ (updCal e f s).free = s.free ∧ (updCal e f s).out = s.out ∧ (updCal e f s).pending = s.pending :=
  have k : Off (fun p => p == .mem) s (updCal e f s) := updCal_keeps (Off.keeps _ _) rfl .refl
  ⟨k.clk rfl, k.rcv rfl, k.icu rfl, k.obs rfl, k.sen rfl, k.tamperIn rfl, k.cex rfl, k.xlt rfl, k.srg rfl, k.ods rfl, k.vault rfl, k.kst rfl, k.engKeys rfl, k.kwe rfl, k.pke rfl, k.ent rfl, k.atu rfl, k.lcc rfl, k.link rfl, k.sheaf rfl, k.dom rfl, k.pins rfl, k.boot rfl, k.tdi rfl, k.ac rfl, k.vt rfl, k.free rfl, k.out rfl, k.pending rfl⟩

@[simp] theorem closeAnn_same {e seq : Nat} {s : State} :
    (closeAnn e seq s).clk = s.clk ∧ (closeAnn e seq s).sen = s.sen ∧ (closeAnn e seq s).tamperIn = s.tamperIn ∧ (closeAnn e seq s).xlt = s.xlt ∧ (closeAnn e seq s).vault = s.vault ∧ (closeAnn e seq s).atu = s.atu ∧ (closeAnn e seq s).lcc = s.lcc ∧ (closeAnn e seq s).boot = s.boot ∧ (closeAnn e seq s).tdi = s.tdi ∧ (closeAnn e seq s).free = s.free ∧ (closeAnn e seq s).pending = s.pending :=
  have k : Off (fun p => p == .rcv || p == .icu || p == .obs || p == .cex || p == .srg || p == .ods || p == .kst || p == .engKeys || p == .kwe || p == .pke || p == .ent || p == .mem || p == .link || p == .sheaf || p == .dom || p == .pins || p == .ac || p == .vt || p == .out) s (closeAnn e seq s) := closeAnn_keeps (Off.keeps _ _) rfl rfl rfl rfl rfl rfl rfl rfl rfl rfl rfl rfl rfl rfl rfl rfl rfl rfl rfl .refl
  ⟨k.clk rfl, k.sen rfl, k.tamperIn rfl, k.xlt rfl, k.vault rfl, k.atu rfl, k.lcc rfl, k.boot rfl, k.tdi rfl, k.free rfl, k.pending rfl⟩

@[simp] theorem endSweep_same {e : Nat} {s : State} :
    (endSweep e s).clk = s.clk ∧ (endSweep e s).rcv = s.rcv ∧ (endSweep e s).icu = s.icu ∧ (endSweep e s).obs = s.obs ∧ (endSweep e s).sen = s.sen ∧ (endSweep e s).tamperIn = s.tamperIn ∧ (endSweep e s).cex = s.cex ∧ (endSweep e s).xlt = s.xlt ∧ (endSweep e s).srg = s.srg ∧ (endSweep e s).ods = s.ods ∧ (endSweep e s).vault = s.vault ∧ (endSweep e s).kst = s.kst ∧ (endSweep e s).engKeys = s.engKeys ∧ (endSweep e s).kwe = s.kwe ∧ (endSweep e s).pke = s.pke ∧ (endSweep e s).ent = s.ent ∧ (endSweep e s).atu = s.atu ∧ (endSweep e s).lcc = s.lcc ∧ (endSweep e s).link = s.link ∧ (endSweep e s).sheaf = s.sheaf ∧ (endSweep e s).dom = s.dom ∧ (endSweep e s).pins = s.pins ∧ (endSweep e s).boot = s.boot ∧ (endSweep e s).tdi = s.tdi ∧ (endSweep e s).ac = s.ac ∧ (endSweep e s).vt = s.vt ∧ (endSweep e s).free = s.free ∧ (endSweep e s).out = s.out ∧ (endSweep e s).pending = s.pending :=
  have k : Off (fun p => p == .mem) s (endSweep e s) := endSweep_keeps (Off.keeps _ _) rfl .refl
  ⟨k.clk rfl, k.rcv rfl, k.icu rfl, k.obs rfl, k.sen rfl, k.tamperIn rfl, k.cex rfl, k.xlt rfl, k.srg rfl, k.ods rfl, k.vault rfl, k.kst rfl, k.engKeys rfl, k.kwe rfl, k.pke rfl, k.ent rfl, k.atu rfl, k.lcc rfl, k.link rfl, k.sheaf rfl, k.dom rfl, k.pins rfl, k.boot rfl, k.tdi rfl, k.ac rfl, k.vt rfl, k.free rfl, k.out rfl, k.pending rfl⟩

@[simp] theorem calOverrun_same {e detail : Nat} {s : State} :
    (calOverrun e detail s).clk = s.clk ∧ (calOverrun e detail s).sen = s.sen ∧ (calOverrun e detail s).tamperIn = s.tamperIn ∧ (calOverrun e detail s).cex = s.cex ∧ (calOverrun e detail s).xlt = s.xlt ∧ (calOverrun e detail s).srg = s.srg ∧ (calOverrun e detail s).ods = s.ods ∧ (calOverrun e detail s).vault = s.vault ∧ (calOverrun e detail s).kst = s.kst ∧ (calOverrun e detail s).engKeys = s.engKeys ∧ (calOverrun e detail s).kwe = s.kwe ∧ (calOverrun e detail s).pke = s.pke ∧ (calOverrun e detail s).ent = s.ent ∧ (calOverrun e detail s).atu = s.atu ∧ (calOverrun e detail s).lcc = s.lcc ∧ (calOverrun e detail s).mem = s.mem ∧ (calOverrun e detail s).link = s.link ∧ (calOverrun e detail s).sheaf = s.sheaf ∧ (calOverrun e detail s).dom = s.dom ∧ (calOverrun e detail s).pins = s.pins ∧ (calOverrun e detail s).boot = s.boot ∧ (calOverrun e detail s).tdi = s.tdi ∧ (calOverrun e detail s).ac = s.ac ∧ (calOverrun e detail s).vt = s.vt ∧ (calOverrun e detail s).free = s.free ∧ (calOverrun e detail s).pending = s.pending :=
  have k : Off (fun p => p == .rcv || p == .icu || p == .obs || p == .out) s (calOverrun e detail s) := calOverrun_keeps (Off.keeps _ _) rfl rfl rfl rfl .refl
  ⟨k.clk rfl, k.sen rfl, k.tamperIn rfl, k.cex rfl, k.xlt rfl, k.srg rfl, k.ods rfl, k.vault rfl, k.kst rfl, k.engKeys rfl, k.kwe rfl, k.pke rfl, k.ent rfl, k.atu rfl, k.lcc rfl, k.mem rfl, k.link rfl, k.sheaf rfl, k.dom rfl, k.pins rfl, k.boot rfl, k.tdi rfl, k.ac rfl, k.vt rfl, k.free rfl, k.pending rfl⟩

@[simp] theorem settleClosing_same {s : State} :
    (settleClosing s).clk = s.clk ∧ (settleClosing s).rcv = s.rcv ∧ (settleClosing s).icu = s.icu ∧ (settleClosing s).obs = s.obs ∧ (settleClosing s).sen = s.sen ∧ (settleClosing s).tamperIn = s.tamperIn ∧ (settleClosing s).xlt = s.xlt ∧ (settleClosing s).srg = s.srg ∧ (settleClosing s).ods = s.ods ∧ (settleClosing s).vault = s.vault ∧ (settleClosing s).kst = s.kst ∧ (settleClosing s).engKeys = s.engKeys ∧ (settleClosing s).kwe = s.kwe ∧ (settleClosing s).pke = s.pke ∧ (settleClosing s).ent = s.ent ∧ (settleClosing s).atu = s.atu ∧ (settleClosing s).lcc = s.lcc ∧ (settleClosing s).mem = s.mem ∧ (settleClosing s).sheaf = s.sheaf ∧ (settleClosing s).dom = s.dom ∧ (settleClosing s).pins = s.pins ∧ (settleClosing s).boot = s.boot ∧ (settleClosing s).tdi = s.tdi ∧ (settleClosing s).ac = s.ac ∧ (settleClosing s).vt = s.vt ∧ (settleClosing s).free = s.free ∧ (settleClosing s).out = s.out ∧ (settleClosing s).pending = s.pending :=
  have k : Off (fun p => p == .cex || p == .link) s (settleClosing s) := settleClosing_keeps (Off.keeps _ _) rfl rfl .refl
  ⟨k.clk rfl, k.rcv rfl, k.icu rfl, k.obs rfl, k.sen rfl, k.tamperIn rfl, k.xlt rfl, k.srg rfl, k.ods rfl, k.vault rfl, k.kst rfl, k.engKeys rfl, k.kwe rfl, k.pke rfl, k.ent rfl, k.atu rfl, k.lcc rfl, k.mem rfl, k.sheaf rfl, k.dom rfl, k.pins rfl, k.boot rfl, k.tdi rfl, k.ac rfl, k.vt rfl, k.free rfl, k.out rfl, k.pending rfl⟩

@[simp] theorem pairDone_same {p : Nat} {s : State} :
    (pairDone p s).clk = s.clk ∧ (pairDone p s).rcv = s.rcv ∧ (pairDone p s).icu = s.icu ∧ (pairDone p s).obs = s.obs ∧ (pairDone p s).sen = s.sen ∧ (pairDone p s).tamperIn = s.tamperIn ∧ (pairDone p s).xlt = s.xlt ∧ (pairDone p s).srg = s.srg ∧ (pairDone p s).ods = s.ods ∧ (pairDone p s).vault = s.vault ∧ (pairDone p s).kst = s.kst ∧ (pairDone p s).engKeys = s.engKeys ∧ (pairDone p s).kwe = s.kwe ∧ (pairDone p s).pke = s.pke ∧ (pairDone p s).ent = s.ent ∧ (pairDone p s).atu = s.atu ∧ (pairDone p s).lcc = s.lcc ∧ (pairDone p s).mem = s.mem ∧ (pairDone p s).sheaf = s.sheaf ∧ (pairDone p s).dom = s.dom ∧ (pairDone p s).pins = s.pins ∧ (pairDone p s).boot = s.boot ∧ (pairDone p s).tdi = s.tdi ∧ (pairDone p s).ac = s.ac ∧ (pairDone p s).vt = s.vt ∧ (pairDone p s).free = s.free ∧ (pairDone p s).out = s.out ∧ (pairDone p s).pending = s.pending :=
  have k : Off (fun p => p == .cex || p == .link) s (pairDone p s) := pairDone_keeps (Off.keeps _ _) rfl rfl .refl
  ⟨k.clk rfl, k.rcv rfl, k.icu rfl, k.obs rfl, k.sen rfl, k.tamperIn rfl, k.xlt rfl, k.srg rfl, k.ods rfl, k.vault rfl, k.kst rfl, k.engKeys rfl, k.kwe rfl, k.pke rfl, k.ent rfl, k.atu rfl, k.lcc rfl, k.mem rfl, k.sheaf rfl, k.dom rfl, k.pins rfl, k.boot rfl, k.tdi rfl, k.ac rfl, k.vt rfl, k.free rfl, k.out rfl, k.pending rfl⟩

@[simp] theorem installNext_same {p : Nat} {s : State} :
    (installNext p s).clk = s.clk ∧ (installNext p s).rcv = s.rcv ∧ (installNext p s).icu = s.icu ∧ (installNext p s).obs = s.obs ∧ (installNext p s).sen = s.sen ∧ (installNext p s).tamperIn = s.tamperIn ∧ (installNext p s).xlt = s.xlt ∧ (installNext p s).srg = s.srg ∧ (installNext p s).ods = s.ods ∧ (installNext p s).vault = s.vault ∧ (installNext p s).kst = s.kst ∧ (installNext p s).pke = s.pke ∧ (installNext p s).atu = s.atu ∧ (installNext p s).lcc = s.lcc ∧ (installNext p s).mem = s.mem ∧ (installNext p s).sheaf = s.sheaf ∧ (installNext p s).dom = s.dom ∧ (installNext p s).pins = s.pins ∧ (installNext p s).boot = s.boot ∧ (installNext p s).tdi = s.tdi ∧ (installNext p s).ac = s.ac ∧ (installNext p s).vt = s.vt ∧ (installNext p s).free = s.free ∧ (installNext p s).out = s.out ∧ (installNext p s).pending = s.pending :=
  have k : Off (fun p => p == .cex || p == .engKeys || p == .kwe || p == .ent || p == .link) s (installNext p s) := installNext_keeps (Off.keeps _ _) rfl rfl rfl rfl rfl .refl
  ⟨k.clk rfl, k.rcv rfl, k.icu rfl, k.obs rfl, k.sen rfl, k.tamperIn rfl, k.xlt rfl, k.srg rfl, k.ods rfl, k.vault rfl, k.kst rfl, k.pke rfl, k.atu rfl, k.lcc rfl, k.mem rfl, k.sheaf rfl, k.dom rfl, k.pins rfl, k.boot rfl, k.tdi rfl, k.ac rfl, k.vt rfl, k.free rfl, k.out rfl, k.pending rfl⟩

@[simp] theorem rotatePair_same {p : Nat} {s : State} :
    (rotatePair p s).clk = s.clk ∧ (rotatePair p s).sen = s.sen ∧ (rotatePair p s).tamperIn = s.tamperIn ∧ (rotatePair p s).xlt = s.xlt ∧ (rotatePair p s).ods = s.ods ∧ (rotatePair p s).vault = s.vault ∧ (rotatePair p s).kst = s.kst ∧ (rotatePair p s).engKeys = s.engKeys ∧ (rotatePair p s).kwe = s.kwe ∧ (rotatePair p s).pke = s.pke ∧ (rotatePair p s).ent = s.ent ∧ (rotatePair p s).atu = s.atu ∧ (rotatePair p s).lcc = s.lcc ∧ (rotatePair p s).mem = s.mem ∧ (rotatePair p s).sheaf = s.sheaf ∧ (rotatePair p s).dom = s.dom ∧ (rotatePair p s).pins = s.pins ∧ (rotatePair p s).boot = s.boot ∧ (rotatePair p s).tdi = s.tdi ∧ (rotatePair p s).ac = s.ac ∧ (rotatePair p s).vt = s.vt ∧ (rotatePair p s).free = s.free ∧ (rotatePair p s).pending = s.pending :=
  have k : Off (fun p => p == .rcv || p == .icu || p == .obs || p == .cex || p == .srg || p == .link || p == .out) s (rotatePair p s) := rotatePair_keeps (Off.keeps _ _) rfl rfl rfl rfl rfl rfl rfl .refl
  ⟨k.clk rfl, k.sen rfl, k.tamperIn rfl, k.xlt rfl, k.ods rfl, k.vault rfl, k.kst rfl, k.engKeys rfl, k.kwe rfl, k.pke rfl, k.ent rfl, k.atu rfl, k.lcc rfl, k.mem rfl, k.sheaf rfl, k.dom rfl, k.pins rfl, k.boot rfl, k.tdi rfl, k.ac rfl, k.vt rfl, k.free rfl, k.pending rfl⟩

@[simp] theorem failedTag_same {port slc stream cls sender reason : Nat} {s : State} :
    (failedTag port slc stream cls sender reason s).clk = s.clk ∧ (failedTag port slc stream cls sender reason s).sen = s.sen ∧ (failedTag port slc stream cls sender reason s).tamperIn = s.tamperIn ∧ (failedTag port slc stream cls sender reason s).xlt = s.xlt ∧ (failedTag port slc stream cls sender reason s).vault = s.vault ∧ (failedTag port slc stream cls sender reason s).atu = s.atu ∧ (failedTag port slc stream cls sender reason s).lcc = s.lcc ∧ (failedTag port slc stream cls sender reason s).boot = s.boot ∧ (failedTag port slc stream cls sender reason s).tdi = s.tdi ∧ (failedTag port slc stream cls sender reason s).free = s.free ∧ (failedTag port slc stream cls sender reason s).pending = s.pending :=
  have k : Off (fun p => p == .rcv || p == .icu || p == .obs || p == .cex || p == .srg || p == .ods || p == .kst || p == .engKeys || p == .kwe || p == .pke || p == .ent || p == .mem || p == .link || p == .sheaf || p == .dom || p == .pins || p == .ac || p == .vt || p == .out) s (failedTag port slc stream cls sender reason s) := failedTag_keeps (Off.keeps _ _) rfl rfl rfl rfl rfl rfl rfl rfl rfl rfl rfl rfl rfl rfl rfl rfl rfl rfl rfl .refl
  ⟨k.clk rfl, k.sen rfl, k.tamperIn rfl, k.xlt rfl, k.vault rfl, k.atu rfl, k.lcc rfl, k.boot rfl, k.tdi rfl, k.free rfl, k.pending rfl⟩

@[simp] theorem updFence_same {sl g dseq : Nat} {f : FenceWait → FenceWait} {s : State} :
    (updFence sl g dseq f s).clk = s.clk ∧ (updFence sl g dseq f s).rcv = s.rcv ∧ (updFence sl g dseq f s).icu = s.icu ∧ (updFence sl g dseq f s).obs = s.obs ∧ (updFence sl g dseq f s).sen = s.sen ∧ (updFence sl g dseq f s).tamperIn = s.tamperIn ∧ (updFence sl g dseq f s).xlt = s.xlt ∧ (updFence sl g dseq f s).srg = s.srg ∧ (updFence sl g dseq f s).ods = s.ods ∧ (updFence sl g dseq f s).vault = s.vault ∧ (updFence sl g dseq f s).kst = s.kst ∧ (updFence sl g dseq f s).engKeys = s.engKeys ∧ (updFence sl g dseq f s).kwe = s.kwe ∧ (updFence sl g dseq f s).pke = s.pke ∧ (updFence sl g dseq f s).ent = s.ent ∧ (updFence sl g dseq f s).atu = s.atu ∧ (updFence sl g dseq f s).lcc = s.lcc ∧ (updFence sl g dseq f s).mem = s.mem ∧ (updFence sl g dseq f s).link = s.link ∧ (updFence sl g dseq f s).sheaf = s.sheaf ∧ (updFence sl g dseq f s).dom = s.dom ∧ (updFence sl g dseq f s).pins = s.pins ∧ (updFence sl g dseq f s).boot = s.boot ∧ (updFence sl g dseq f s).tdi = s.tdi ∧ (updFence sl g dseq f s).ac = s.ac ∧ (updFence sl g dseq f s).vt = s.vt ∧ (updFence sl g dseq f s).free = s.free ∧ (updFence sl g dseq f s).out = s.out ∧ (updFence sl g dseq f s).pending = s.pending :=
  have k : Off (fun p => p == .cex) s (updFence sl g dseq f s) := updFence_keeps (Off.keeps _ _) rfl .refl
  ⟨k.clk rfl, k.rcv rfl, k.icu rfl, k.obs rfl, k.sen rfl, k.tamperIn rfl, k.xlt rfl, k.srg rfl, k.ods rfl, k.vault rfl, k.kst rfl, k.engKeys rfl, k.kwe rfl, k.pke rfl, k.ent rfl, k.atu rfl, k.lcc rfl, k.mem rfl, k.link rfl, k.sheaf rfl, k.dom rfl, k.pins rfl, k.boot rfl, k.tdi rfl, k.ac rfl, k.vt rfl, k.free rfl, k.out rfl, k.pending rfl⟩

@[simp] theorem sendFence_same {sl origin target word : Nat} {s : State} :
    (sendFence sl origin target word s).clk = s.clk ∧ (sendFence sl origin target word s).sen = s.sen ∧ (sendFence sl origin target word s).tamperIn = s.tamperIn ∧ (sendFence sl origin target word s).xlt = s.xlt ∧ (sendFence sl origin target word s).ods = s.ods ∧ (sendFence sl origin target word s).vault = s.vault ∧ (sendFence sl origin target word s).kst = s.kst ∧ (sendFence sl origin target word s).engKeys = s.engKeys ∧ (sendFence sl origin target word s).kwe = s.kwe ∧ (sendFence sl origin target word s).pke = s.pke ∧ (sendFence sl origin target word s).ent = s.ent ∧ (sendFence sl origin target word s).atu = s.atu ∧ (sendFence sl origin target word s).lcc = s.lcc ∧ (sendFence sl origin target word s).mem = s.mem ∧ (sendFence sl origin target word s).sheaf = s.sheaf ∧ (sendFence sl origin target word s).pins = s.pins ∧ (sendFence sl origin target word s).boot = s.boot ∧ (sendFence sl origin target word s).tdi = s.tdi ∧ (sendFence sl origin target word s).ac = s.ac ∧ (sendFence sl origin target word s).vt = s.vt ∧ (sendFence sl origin target word s).free = s.free ∧ (sendFence sl origin target word s).pending = s.pending :=
  have k : Off (fun p => p == .rcv || p == .icu || p == .obs || p == .cex || p == .srg || p == .link || p == .dom || p == .out) s (sendFence sl origin target word s) := sendFence_keeps (Off.keeps _ _) rfl rfl rfl rfl rfl rfl rfl rfl .refl
  ⟨k.clk rfl, k.sen rfl, k.tamperIn rfl, k.xlt rfl, k.ods rfl, k.vault rfl, k.kst rfl, k.engKeys rfl, k.kwe rfl, k.pke rfl, k.ent rfl, k.atu rfl, k.lcc rfl, k.mem rfl, k.sheaf rfl, k.pins rfl, k.boot rfl, k.tdi rfl, k.ac rfl, k.vt rfl, k.free rfl, k.pending rfl⟩

@[simp] theorem closeFence_same {sl g : Nat} {c : FenceColl} {s : State} :
    (closeFence sl g c s).clk = s.clk ∧ (closeFence sl g c s).sen = s.sen ∧ (closeFence sl g c s).tamperIn = s.tamperIn ∧ (closeFence sl g c s).xlt = s.xlt ∧ (closeFence sl g c s).ods = s.ods ∧ (closeFence sl g c s).vault = s.vault ∧ (closeFence sl g c s).kst = s.kst ∧ (closeFence sl g c s).engKeys = s.engKeys ∧ (closeFence sl g c s).kwe = s.kwe ∧ (closeFence sl g c s).pke = s.pke ∧ (closeFence sl g c s).ent = s.ent ∧ (closeFence sl g c s).atu = s.atu ∧ (closeFence sl g c s).lcc = s.lcc ∧ (closeFence sl g c s).mem = s.mem ∧ (closeFence sl g c s).sheaf = s.sheaf ∧ (closeFence sl g c s).pins = s.pins ∧ (closeFence sl g c s).boot = s.boot ∧ (closeFence sl g c s).tdi = s.tdi ∧ (closeFence sl g c s).ac = s.ac ∧ (closeFence sl g c s).vt = s.vt ∧ (closeFence sl g c s).free = s.free ∧ (closeFence sl g c s).pending = s.pending :=
  have k : Off (fun p => p == .rcv || p == .icu || p == .obs || p == .cex || p == .srg || p == .link || p == .dom || p == .out) s (closeFence sl g c s) := closeFence_keeps (Off.keeps _ _) rfl rfl rfl rfl rfl rfl rfl rfl .refl
  ⟨k.clk rfl, k.sen rfl, k.tamperIn rfl, k.xlt rfl, k.ods rfl, k.vault rfl, k.kst rfl, k.engKeys rfl, k.kwe rfl, k.pke rfl, k.ent rfl, k.atu rfl, k.lcc rfl, k.mem rfl, k.sheaf rfl, k.pins rfl, k.boot rfl, k.tdi rfl, k.ac rfl, k.vt rfl, k.free rfl, k.pending rfl⟩

@[simp] theorem collect_same {sl g dseq ftype origin outcome : Nat} {s : State} :
    (collect sl g dseq ftype origin outcome s).clk = s.clk ∧ (collect sl g dseq ftype origin outcome s).sen = s.sen ∧ (collect sl g dseq ftype origin outcome s).tamperIn = s.tamperIn ∧ (collect sl g dseq ftype origin outcome s).xlt = s.xlt ∧ (collect sl g dseq ftype origin outcome s).ods = s.ods ∧ (collect sl g dseq ftype origin outcome s).vault = s.vault ∧ (collect sl g dseq ftype origin outcome s).kst = s.kst ∧ (collect sl g dseq ftype origin outcome s).engKeys = s.engKeys ∧ (collect sl g dseq ftype origin outcome s).kwe = s.kwe ∧ (collect sl g dseq ftype origin outcome s).pke = s.pke ∧ (collect sl g dseq ftype origin outcome s).ent = s.ent ∧ (collect sl g dseq ftype origin outcome s).atu = s.atu ∧ (collect sl g dseq ftype origin outcome s).lcc = s.lcc ∧ (collect sl g dseq ftype origin outcome s).mem = s.mem ∧ (collect sl g dseq ftype origin outcome s).sheaf = s.sheaf ∧ (collect sl g dseq ftype origin outcome s).pins = s.pins ∧ (collect sl g dseq ftype origin outcome s).boot = s.boot ∧ (collect sl g dseq ftype origin outcome s).tdi = s.tdi ∧ (collect sl g dseq ftype origin outcome s).ac = s.ac ∧ (collect sl g dseq ftype origin outcome s).vt = s.vt ∧ (collect sl g dseq ftype origin outcome s).free = s.free ∧ (collect sl g dseq ftype origin outcome s).pending = s.pending :=
  have k : Off (fun p => p == .rcv || p == .icu || p == .obs || p == .cex || p == .srg || p == .link || p == .dom || p == .out) s (collect sl g dseq ftype origin outcome s) := collect_keeps (Off.keeps _ _) rfl rfl rfl rfl rfl rfl rfl rfl .refl
  ⟨k.clk rfl, k.sen rfl, k.tamperIn rfl, k.xlt rfl, k.ods rfl, k.vault rfl, k.kst rfl, k.engKeys rfl, k.kwe rfl, k.pke rfl, k.ent rfl, k.atu rfl, k.lcc rfl, k.mem rfl, k.sheaf rfl, k.pins rfl, k.boot rfl, k.tdi rfl, k.ac rfl, k.vt rfl, k.free rfl, k.pending rfl⟩

@[simp] theorem ackFence_same {sl g : Nat} {w : FenceWait} {s : State} :
    (ackFence sl g w s).clk = s.clk ∧ (ackFence sl g w s).sen = s.sen ∧ (ackFence sl g w s).tamperIn = s.tamperIn ∧ (ackFence sl g w s).xlt = s.xlt ∧ (ackFence sl g w s).ods = s.ods ∧ (ackFence sl g w s).vault = s.vault ∧ (ackFence sl g w s).kst = s.kst ∧ (ackFence sl g w s).engKeys = s.engKeys ∧ (ackFence sl g w s).kwe = s.kwe ∧ (ackFence sl g w s).pke = s.pke ∧ (ackFence sl g w s).ent = s.ent ∧ (ackFence sl g w s).atu = s.atu ∧ (ackFence sl g w s).lcc = s.lcc ∧ (ackFence sl g w s).mem = s.mem ∧ (ackFence sl g w s).sheaf = s.sheaf ∧ (ackFence sl g w s).pins = s.pins ∧ (ackFence sl g w s).boot = s.boot ∧ (ackFence sl g w s).tdi = s.tdi ∧ (ackFence sl g w s).ac = s.ac ∧ (ackFence sl g w s).vt = s.vt ∧ (ackFence sl g w s).free = s.free ∧ (ackFence sl g w s).pending = s.pending :=
  have k : Off (fun p => p == .rcv || p == .icu || p == .obs || p == .cex || p == .srg || p == .link || p == .dom || p == .out) s (ackFence sl g w s) := ackFence_keeps (Off.keeps _ _) rfl rfl rfl rfl rfl rfl rfl rfl .refl
  ⟨k.clk rfl, k.sen rfl, k.tamperIn rfl, k.xlt rfl, k.ods rfl, k.vault rfl, k.kst rfl, k.engKeys rfl, k.kwe rfl, k.pke rfl, k.ent rfl, k.atu rfl, k.lcc rfl, k.mem rfl, k.sheaf rfl, k.pins rfl, k.boot rfl, k.tdi rfl, k.ac rfl, k.vt rfl, k.free rfl, k.pending rfl⟩

@[simp] theorem ackAgain_same {sl g n : Nat} {s : State} :
    (ackAgain sl g n s).clk = s.clk ∧ (ackAgain sl g n s).sen = s.sen ∧ (ackAgain sl g n s).tamperIn = s.tamperIn ∧ (ackAgain sl g n s).xlt = s.xlt ∧ (ackAgain sl g n s).ods = s.ods ∧ (ackAgain sl g n s).vault = s.vault ∧ (ackAgain sl g n s).kst = s.kst ∧ (ackAgain sl g n s).engKeys = s.engKeys ∧ (ackAgain sl g n s).kwe = s.kwe ∧ (ackAgain sl g n s).pke = s.pke ∧ (ackAgain sl g n s).ent = s.ent ∧ (ackAgain sl g n s).atu = s.atu ∧ (ackAgain sl g n s).lcc = s.lcc ∧ (ackAgain sl g n s).mem = s.mem ∧ (ackAgain sl g n s).sheaf = s.sheaf ∧ (ackAgain sl g n s).pins = s.pins ∧ (ackAgain sl g n s).boot = s.boot ∧ (ackAgain sl g n s).tdi = s.tdi ∧ (ackAgain sl g n s).ac = s.ac ∧ (ackAgain sl g n s).vt = s.vt ∧ (ackAgain sl g n s).free = s.free ∧ (ackAgain sl g n s).pending = s.pending :=
  have k : Off (fun p => p == .rcv || p == .icu || p == .obs || p == .cex || p == .srg || p == .link || p == .dom || p == .out) s (ackAgain sl g n s) := ackAgain_keeps (Off.keeps _ _) rfl rfl rfl rfl rfl rfl rfl rfl .refl
  ⟨k.clk rfl, k.sen rfl, k.tamperIn rfl, k.xlt rfl, k.ods rfl, k.vault rfl, k.kst rfl, k.engKeys rfl, k.kwe rfl, k.pke rfl, k.ent rfl, k.atu rfl, k.lcc rfl, k.mem rfl, k.sheaf rfl, k.pins rfl, k.boot rfl, k.tdi rfl, k.ac rfl, k.vt rfl, k.free rfl, k.pending rfl⟩

@[simp] theorem setWindow_same {sl w : Nat} {s : State} :
    (setWindow sl w s).clk = s.clk ∧ (setWindow sl w s).rcv = s.rcv ∧ (setWindow sl w s).icu = s.icu ∧ (setWindow sl w s).obs = s.obs ∧ (setWindow sl w s).sen = s.sen ∧ (setWindow sl w s).tamperIn = s.tamperIn ∧ (setWindow sl w s).cex = s.cex ∧ (setWindow sl w s).xlt = s.xlt ∧ (setWindow sl w s).srg = s.srg ∧ (setWindow sl w s).ods = s.ods ∧ (setWindow sl w s).vault = s.vault ∧ (setWindow sl w s).kst = s.kst ∧ (setWindow sl w s).engKeys = s.engKeys ∧ (setWindow sl w s).kwe = s.kwe ∧ (setWindow sl w s).pke = s.pke ∧ (setWindow sl w s).ent = s.ent ∧ (setWindow sl w s).atu = s.atu ∧ (setWindow sl w s).lcc = s.lcc ∧ (setWindow sl w s).link = s.link ∧ (setWindow sl w s).sheaf = s.sheaf ∧ (setWindow sl w s).dom = s.dom ∧ (setWindow sl w s).pins = s.pins ∧ (setWindow sl w s).boot = s.boot ∧ (setWindow sl w s).tdi = s.tdi ∧ (setWindow sl w s).ac = s.ac ∧ (setWindow sl w s).vt = s.vt ∧ (setWindow sl w s).free = s.free ∧ (setWindow sl w s).out = s.out ∧ (setWindow sl w s).pending = s.pending :=
  have k : Off (fun p => p == .mem) s (setWindow sl w s) := setWindow_keeps (Off.keeps _ _) rfl .refl
  ⟨k.clk rfl, k.rcv rfl, k.icu rfl, k.obs rfl, k.sen rfl, k.tamperIn rfl, k.cex rfl, k.xlt rfl, k.srg rfl, k.ods rfl, k.vault rfl, k.kst rfl, k.engKeys rfl, k.kwe rfl, k.pke rfl, k.ent rfl, k.atu rfl, k.lcc rfl, k.link rfl, k.sheaf rfl, k.dom rfl, k.pins rfl, k.boot rfl, k.tdi rfl, k.ac rfl, k.vt rfl, k.free rfl, k.out rfl, k.pending rfl⟩

@[simp] theorem commitOpen_same {sl : Nat} {s : State} :
    (commitOpen sl s).clk = s.clk ∧ (commitOpen sl s).rcv = s.rcv ∧ (commitOpen sl s).icu = s.icu ∧ (commitOpen sl s).obs = s.obs ∧ (commitOpen sl s).sen = s.sen ∧ (commitOpen sl s).tamperIn = s.tamperIn ∧ (commitOpen sl s).cex = s.cex ∧ (commitOpen sl s).xlt = s.xlt ∧ (commitOpen sl s).srg = s.srg ∧ (commitOpen sl s).ods = s.ods ∧ (commitOpen sl s).vault = s.vault ∧ (commitOpen sl s).kst = s.kst ∧ (commitOpen sl s).engKeys = s.engKeys ∧ (commitOpen sl s).kwe = s.kwe ∧ (commitOpen sl s).pke = s.pke ∧ (commitOpen sl s).ent = s.ent ∧ (commitOpen sl s).atu = s.atu ∧ (commitOpen sl s).lcc = s.lcc ∧ (commitOpen sl s).link = s.link ∧ (commitOpen sl s).sheaf = s.sheaf ∧ (commitOpen sl s).dom = s.dom ∧ (commitOpen sl s).pins = s.pins ∧ (commitOpen sl s).boot = s.boot ∧ (commitOpen sl s).tdi = s.tdi ∧ (commitOpen sl s).ac = s.ac ∧ (commitOpen sl s).vt = s.vt ∧ (commitOpen sl s).free = s.free ∧ (commitOpen sl s).out = s.out ∧ (commitOpen sl s).pending = s.pending :=
  have k : Off (fun p => p == .mem) s (commitOpen sl s) := commitOpen_keeps (Off.keeps _ _) rfl .refl
  ⟨k.clk rfl, k.rcv rfl, k.icu rfl, k.obs rfl, k.sen rfl, k.tamperIn rfl, k.cex rfl, k.xlt rfl, k.srg rfl, k.ods rfl, k.vault rfl, k.kst rfl, k.engKeys rfl, k.kwe rfl, k.pke rfl, k.ent rfl, k.atu rfl, k.lcc rfl, k.link rfl, k.sheaf rfl, k.dom rfl, k.pins rfl, k.boot rfl, k.tdi rfl, k.ac rfl, k.vt rfl, k.free rfl, k.out rfl, k.pending rfl⟩

@[simp] theorem commitClose_same {sl : Nat} {s : State} :
    (commitClose sl s).clk = s.clk ∧ (commitClose sl s).rcv = s.rcv ∧ (commitClose sl s).icu = s.icu ∧ (commitClose sl s).obs = s.obs ∧ (commitClose sl s).sen = s.sen ∧ (commitClose sl s).tamperIn = s.tamperIn ∧ (commitClose sl s).xlt = s.xlt ∧ (commitClose sl s).srg = s.srg ∧ (commitClose sl s).ods = s.ods ∧ (commitClose sl s).vault = s.vault ∧ (commitClose sl s).kst = s.kst ∧ (commitClose sl s).engKeys = s.engKeys ∧ (commitClose sl s).kwe = s.kwe ∧ (commitClose sl s).pke = s.pke ∧ (commitClose sl s).ent = s.ent ∧ (commitClose sl s).atu = s.atu ∧ (commitClose sl s).lcc = s.lcc ∧ (commitClose sl s).link = s.link ∧ (commitClose sl s).sheaf = s.sheaf ∧ (commitClose sl s).dom = s.dom ∧ (commitClose sl s).pins = s.pins ∧ (commitClose sl s).boot = s.boot ∧ (commitClose sl s).tdi = s.tdi ∧ (commitClose sl s).ac = s.ac ∧ (commitClose sl s).vt = s.vt ∧ (commitClose sl s).free = s.free ∧ (commitClose sl s).out = s.out ∧ (commitClose sl s).pending = s.pending :=
  have k : Off (fun p => p == .cex || p == .mem) s (commitClose sl s) := commitClose_keeps (Off.keeps _ _) rfl rfl .refl
  ⟨k.clk rfl, k.rcv rfl, k.icu rfl, k.obs rfl, k.sen rfl, k.tamperIn rfl, k.xlt rfl, k.srg rfl, k.ods rfl, k.vault rfl, k.kst rfl, k.engKeys rfl, k.kwe rfl, k.pke rfl, k.ent rfl, k.atu rfl, k.lcc rfl, k.link rfl, k.sheaf rfl, k.dom rfl, k.pins rfl, k.boot rfl, k.tdi rfl, k.ac rfl, k.vt rfl, k.free rfl, k.out rfl, k.pending rfl⟩

@[simp] theorem reopen_same {sl : Nat} {s : State} :
    (reopen sl s).clk = s.clk ∧ (reopen sl s).rcv = s.rcv ∧ (reopen sl s).icu = s.icu ∧ (reopen sl s).obs = s.obs ∧ (reopen sl s).sen = s.sen ∧ (reopen sl s).tamperIn = s.tamperIn ∧ (reopen sl s).cex = s.cex ∧ (reopen sl s).xlt = s.xlt ∧ (reopen sl s).srg = s.srg ∧ (reopen sl s).ods = s.ods ∧ (reopen sl s).vault = s.vault ∧ (reopen sl s).kst = s.kst ∧ (reopen sl s).engKeys = s.engKeys ∧ (reopen sl s).kwe = s.kwe ∧ (reopen sl s).pke = s.pke ∧ (reopen sl s).ent = s.ent ∧ (reopen sl s).atu = s.atu ∧ (reopen sl s).lcc = s.lcc ∧ (reopen sl s).link = s.link ∧ (reopen sl s).sheaf = s.sheaf ∧ (reopen sl s).dom = s.dom ∧ (reopen sl s).pins = s.pins ∧ (reopen sl s).boot = s.boot ∧ (reopen sl s).tdi = s.tdi ∧ (reopen sl s).ac = s.ac ∧ (reopen sl s).vt = s.vt ∧ (reopen sl s).free = s.free ∧ (reopen sl s).out = s.out ∧ (reopen sl s).pending = s.pending :=
  have k : Off (fun p => p == .mem) s (reopen sl s) := reopen_keeps (Off.keeps _ _) rfl .refl
  ⟨k.clk rfl, k.rcv rfl, k.icu rfl, k.obs rfl, k.sen rfl, k.tamperIn rfl, k.cex rfl, k.xlt rfl, k.srg rfl, k.ods rfl, k.vault rfl, k.kst rfl, k.engKeys rfl, k.kwe rfl, k.pke rfl, k.ent rfl, k.atu rfl, k.lcc rfl, k.link rfl, k.sheaf rfl, k.dom rfl, k.pins rfl, k.boot rfl, k.tdi rfl, k.ac rfl, k.vt rfl, k.free rfl, k.out rfl, k.pending rfl⟩

@[simp] theorem endFence_same {sl g : Nat} {w : FenceWait} {outcome : Nat} {s : State} :
    (endFence sl g w outcome s).clk = s.clk ∧ (endFence sl g w outcome s).rcv = s.rcv ∧ (endFence sl g w outcome s).icu = s.icu ∧ (endFence sl g w outcome s).obs = s.obs ∧ (endFence sl g w outcome s).sen = s.sen ∧ (endFence sl g w outcome s).tamperIn = s.tamperIn ∧ (endFence sl g w outcome s).xlt = s.xlt ∧ (endFence sl g w outcome s).srg = s.srg ∧ (endFence sl g w outcome s).ods = s.ods ∧ (endFence sl g w outcome s).vault = s.vault ∧ (endFence sl g w outcome s).kst = s.kst ∧ (endFence sl g w outcome s).engKeys = s.engKeys ∧ (endFence sl g w outcome s).kwe = s.kwe ∧ (endFence sl g w outcome s).pke = s.pke ∧ (endFence sl g w outcome s).ent = s.ent ∧ (endFence sl g w outcome s).atu = s.atu ∧ (endFence sl g w outcome s).lcc = s.lcc ∧ (endFence sl g w outcome s).sheaf = s.sheaf ∧ (endFence sl g w outcome s).dom = s.dom ∧ (endFence sl g w outcome s).pins = s.pins ∧ (endFence sl g w outcome s).boot = s.boot ∧ (endFence sl g w outcome s).tdi = s.tdi ∧ (endFence sl g w outcome s).ac = s.ac ∧ (endFence sl g w outcome s).vt = s.vt ∧ (endFence sl g w outcome s).free = s.free ∧ (endFence sl g w outcome s).out = s.out ∧ (endFence sl g w outcome s).pending = s.pending :=
  have k : Off (fun p => p == .cex || p == .mem || p == .link) s (endFence sl g w outcome s) := endFence_keeps (Off.keeps _ _) rfl rfl rfl .refl
  ⟨k.clk rfl, k.rcv rfl, k.icu rfl, k.obs rfl, k.sen rfl, k.tamperIn rfl, k.xlt rfl, k.srg rfl, k.ods rfl, k.vault rfl, k.kst rfl, k.engKeys rfl, k.kwe rfl, k.pke rfl, k.ent rfl, k.atu rfl, k.lcc rfl, k.sheaf rfl, k.dom rfl, k.pins rfl, k.boot rfl, k.tdi rfl, k.ac rfl, k.vt rfl, k.free rfl, k.out rfl, k.pending rfl⟩

@[simp] theorem settleGroup_same {sl g : Nat} {s : State} :
    (settleGroup sl g s).clk = s.clk ∧ (settleGroup sl g s).sen = s.sen ∧ (settleGroup sl g s).tamperIn = s.tamperIn ∧ (settleGroup sl g s).xlt = s.xlt ∧ (settleGroup sl g s).ods = s.ods ∧ (settleGroup sl g s).vault = s.vault ∧ (settleGroup sl g s).kst = s.kst ∧ (settleGroup sl g s).engKeys = s.engKeys ∧ (settleGroup sl g s).kwe = s.kwe ∧ (settleGroup sl g s).pke = s.pke ∧ (settleGroup sl g s).ent = s.ent ∧ (settleGroup sl g s).atu = s.atu ∧ (settleGroup sl g s).lcc = s.lcc ∧ (settleGroup sl g s).sheaf = s.sheaf ∧ (settleGroup sl g s).pins = s.pins ∧ (settleGroup sl g s).boot = s.boot ∧ (settleGroup sl g s).tdi = s.tdi ∧ (settleGroup sl g s).ac = s.ac ∧ (settleGroup sl g s).vt = s.vt ∧ (settleGroup sl g s).free = s.free ∧ (settleGroup sl g s).pending = s.pending :=
  have k : Off (fun p => p == .rcv || p == .icu || p == .obs || p == .cex || p == .srg || p == .mem || p == .link || p == .dom || p == .out) s (settleGroup sl g s) := settleGroup_keeps (Off.keeps _ _) rfl rfl rfl rfl rfl rfl rfl rfl rfl .refl
  ⟨k.clk rfl, k.sen rfl, k.tamperIn rfl, k.xlt rfl, k.ods rfl, k.vault rfl, k.kst rfl, k.engKeys rfl, k.kwe rfl, k.pke rfl, k.ent rfl, k.atu rfl, k.lcc rfl, k.sheaf rfl, k.pins rfl, k.boot rfl, k.tdi rfl, k.ac rfl, k.vt rfl, k.free rfl, k.pending rfl⟩

@[simp] theorem settleFences_same {s : State} :
    (settleFences s).clk = s.clk ∧ (settleFences s).sen = s.sen ∧ (settleFences s).tamperIn = s.tamperIn ∧ (settleFences s).xlt = s.xlt ∧ (settleFences s).ods = s.ods ∧ (settleFences s).vault = s.vault ∧ (settleFences s).kst = s.kst ∧ (settleFences s).engKeys = s.engKeys ∧ (settleFences s).kwe = s.kwe ∧ (settleFences s).pke = s.pke ∧ (settleFences s).ent = s.ent ∧ (settleFences s).atu = s.atu ∧ (settleFences s).lcc = s.lcc ∧ (settleFences s).sheaf = s.sheaf ∧ (settleFences s).pins = s.pins ∧ (settleFences s).boot = s.boot ∧ (settleFences s).tdi = s.tdi ∧ (settleFences s).ac = s.ac ∧ (settleFences s).vt = s.vt ∧ (settleFences s).free = s.free ∧ (settleFences s).pending = s.pending :=
  have k : Off (fun p => p == .rcv || p == .icu || p == .obs || p == .cex || p == .srg || p == .mem || p == .link || p == .dom || p == .out) s (settleFences s) := settleFences_keeps (Off.keeps _ _) rfl rfl rfl rfl rfl rfl rfl rfl rfl .refl
  ⟨k.clk rfl, k.sen rfl, k.tamperIn rfl, k.xlt rfl, k.ods rfl, k.vault rfl, k.kst rfl, k.engKeys rfl, k.kwe rfl, k.pke rfl, k.ent rfl, k.atu rfl, k.lcc rfl, k.sheaf rfl, k.pins rfl, k.boot rfl, k.tdi rfl, k.ac rfl, k.vt rfl, k.free rfl, k.pending rfl⟩

@[simp] theorem sendMarks_same {sl g word : Nat} {s : State} :
    (sendMarks sl g word s).clk = s.clk ∧ (sendMarks sl g word s).sen = s.sen ∧ (sendMarks sl g word s).tamperIn = s.tamperIn ∧ (sendMarks sl g word s).xlt = s.xlt ∧ (sendMarks sl g word s).ods = s.ods ∧ (sendMarks sl g word s).vault = s.vault ∧ (sendMarks sl g word s).kst = s.kst ∧ (sendMarks sl g word s).engKeys = s.engKeys ∧ (sendMarks sl g word s).kwe = s.kwe ∧ (sendMarks sl g word s).pke = s.pke ∧ (sendMarks sl g word s).ent = s.ent ∧ (sendMarks sl g word s).atu = s.atu ∧ (sendMarks sl g word s).lcc = s.lcc ∧ (sendMarks sl g word s).mem = s.mem ∧ (sendMarks sl g word s).sheaf = s.sheaf ∧ (sendMarks sl g word s).dom = s.dom ∧ (sendMarks sl g word s).pins = s.pins ∧ (sendMarks sl g word s).boot = s.boot ∧ (sendMarks sl g word s).tdi = s.tdi ∧ (sendMarks sl g word s).ac = s.ac ∧ (sendMarks sl g word s).vt = s.vt ∧ (sendMarks sl g word s).free = s.free ∧ (sendMarks sl g word s).pending = s.pending :=
  have k : Off (fun p => p == .rcv || p == .icu || p == .obs || p == .cex || p == .srg || p == .link || p == .out) s (sendMarks sl g word s) := sendMarks_keeps (Off.keeps _ _) rfl rfl rfl rfl rfl rfl rfl .refl
  ⟨k.clk rfl, k.sen rfl, k.tamperIn rfl, k.xlt rfl, k.ods rfl, k.vault rfl, k.kst rfl, k.engKeys rfl, k.kwe rfl, k.pke rfl, k.ent rfl, k.atu rfl, k.lcc rfl, k.mem rfl, k.sheaf rfl, k.dom rfl, k.pins rfl, k.boot rfl, k.tdi rfl, k.ac rfl, k.vt rfl, k.free rfl, k.pending rfl⟩

@[simp] theorem startFence_same {h : CmdHdr} {g ftype outcome : Nat} {drained : Bool} {s : State} :
    (startFence h g ftype outcome drained s).clk = s.clk ∧ (startFence h g ftype outcome drained s).sen = s.sen ∧ (startFence h g ftype outcome drained s).tamperIn = s.tamperIn ∧ (startFence h g ftype outcome drained s).xlt = s.xlt ∧ (startFence h g ftype outcome drained s).ods = s.ods ∧ (startFence h g ftype outcome drained s).vault = s.vault ∧ (startFence h g ftype outcome drained s).kst = s.kst ∧ (startFence h g ftype outcome drained s).engKeys = s.engKeys ∧ (startFence h g ftype outcome drained s).kwe = s.kwe ∧ (startFence h g ftype outcome drained s).pke = s.pke ∧ (startFence h g ftype outcome drained s).ent = s.ent ∧ (startFence h g ftype outcome drained s).atu = s.atu ∧ (startFence h g ftype outcome drained s).lcc = s.lcc ∧ (startFence h g ftype outcome drained s).sheaf = s.sheaf ∧ (startFence h g ftype outcome drained s).pins = s.pins ∧ (startFence h g ftype outcome drained s).boot = s.boot ∧ (startFence h g ftype outcome drained s).tdi = s.tdi ∧ (startFence h g ftype outcome drained s).ac = s.ac ∧ (startFence h g ftype outcome drained s).vt = s.vt ∧ (startFence h g ftype outcome drained s).free = s.free ∧ (startFence h g ftype outcome drained s).pending = s.pending :=
  have k : Off (fun p => p == .rcv || p == .icu || p == .obs || p == .cex || p == .srg || p == .mem || p == .link || p == .dom || p == .out) s (startFence h g ftype outcome drained s) := startFence_keeps (Off.keeps _ _) rfl rfl rfl rfl rfl rfl rfl rfl rfl .refl
  ⟨k.clk rfl, k.sen rfl, k.tamperIn rfl, k.xlt rfl, k.ods rfl, k.vault rfl, k.kst rfl, k.engKeys rfl, k.kwe rfl, k.pke rfl, k.ent rfl, k.atu rfl, k.lcc rfl, k.sheaf rfl, k.pins rfl, k.boot rfl, k.tdi rfl, k.ac rfl, k.vt rfl, k.free rfl, k.pending rfl⟩

@[simp] theorem updIde_same {sl : Nat} {f : Ide → Ide} {s : State} :
    (updIde sl f s).clk = s.clk ∧ (updIde sl f s).rcv = s.rcv ∧ (updIde sl f s).icu = s.icu ∧ (updIde sl f s).obs = s.obs ∧ (updIde sl f s).sen = s.sen ∧ (updIde sl f s).tamperIn = s.tamperIn ∧ (updIde sl f s).cex = s.cex ∧ (updIde sl f s).xlt = s.xlt ∧ (updIde sl f s).srg = s.srg ∧ (updIde sl f s).ods = s.ods ∧ (updIde sl f s).vault = s.vault ∧ (updIde sl f s).kst = s.kst ∧ (updIde sl f s).engKeys = s.engKeys ∧ (updIde sl f s).kwe = s.kwe ∧ (updIde sl f s).pke = s.pke ∧ (updIde sl f s).ent = s.ent ∧ (updIde sl f s).atu = s.atu ∧ (updIde sl f s).lcc = s.lcc ∧ (updIde sl f s).mem = s.mem ∧ (updIde sl f s).sheaf = s.sheaf ∧ (updIde sl f s).dom = s.dom ∧ (updIde sl f s).pins = s.pins ∧ (updIde sl f s).boot = s.boot ∧ (updIde sl f s).tdi = s.tdi ∧ (updIde sl f s).ac = s.ac ∧ (updIde sl f s).vt = s.vt ∧ (updIde sl f s).free = s.free ∧ (updIde sl f s).out = s.out ∧ (updIde sl f s).pending = s.pending :=
  have k : Off (fun p => p == .link) s (updIde sl f s) := updIde_keeps (Off.keeps _ _) rfl .refl
  ⟨k.clk rfl, k.rcv rfl, k.icu rfl, k.obs rfl, k.sen rfl, k.tamperIn rfl, k.cex rfl, k.xlt rfl, k.srg rfl, k.ods rfl, k.vault rfl, k.kst rfl, k.engKeys rfl, k.kwe rfl, k.pke rfl, k.ent rfl, k.atu rfl, k.lcc rfl, k.mem rfl, k.sheaf rfl, k.dom rfl, k.pins rfl, k.boot rfl, k.tdi rfl, k.ac rfl, k.vt rfl, k.free rfl, k.out rfl, k.pending rfl⟩

@[simp] theorem sendIde_same {t : Tlp} {s : State} :
    (sendIde t s).clk = s.clk ∧ (sendIde t s).rcv = s.rcv ∧ (sendIde t s).icu = s.icu ∧ (sendIde t s).obs = s.obs ∧ (sendIde t s).sen = s.sen ∧ (sendIde t s).tamperIn = s.tamperIn ∧ (sendIde t s).cex = s.cex ∧ (sendIde t s).xlt = s.xlt ∧ (sendIde t s).srg = s.srg ∧ (sendIde t s).ods = s.ods ∧ (sendIde t s).vault = s.vault ∧ (sendIde t s).kst = s.kst ∧ (sendIde t s).engKeys = s.engKeys ∧ (sendIde t s).kwe = s.kwe ∧ (sendIde t s).pke = s.pke ∧ (sendIde t s).ent = s.ent ∧ (sendIde t s).atu = s.atu ∧ (sendIde t s).lcc = s.lcc ∧ (sendIde t s).mem = s.mem ∧ (sendIde t s).sheaf = s.sheaf ∧ (sendIde t s).dom = s.dom ∧ (sendIde t s).pins = s.pins ∧ (sendIde t s).boot = s.boot ∧ (sendIde t s).tdi = s.tdi ∧ (sendIde t s).ac = s.ac ∧ (sendIde t s).vt = s.vt ∧ (sendIde t s).free = s.free ∧ (sendIde t s).pending = s.pending :=
  have k : Off (fun p => p == .link || p == .out) s (sendIde t s) := sendIde_keeps (Off.keeps _ _) rfl rfl .refl
  ⟨k.clk rfl, k.rcv rfl, k.icu rfl, k.obs rfl, k.sen rfl, k.tamperIn rfl, k.cex rfl, k.xlt rfl, k.srg rfl, k.ods rfl, k.vault rfl, k.kst rfl, k.engKeys rfl, k.kwe rfl, k.pke rfl, k.ent rfl, k.atu rfl, k.lcc rfl, k.mem rfl, k.sheaf rfl, k.dom rfl, k.pins rfl, k.boot rfl, k.tdi rfl, k.ac rfl, k.vt rfl, k.free rfl, k.pending rfl⟩

@[simp] theorem sendTlp_same {t : Tlp} {s : State} :
    (sendTlp t s).clk = s.clk ∧ (sendTlp t s).rcv = s.rcv ∧ (sendTlp t s).icu = s.icu ∧ (sendTlp t s).obs = s.obs ∧ (sendTlp t s).sen = s.sen ∧ (sendTlp t s).tamperIn = s.tamperIn ∧ (sendTlp t s).cex = s.cex ∧ (sendTlp t s).xlt = s.xlt ∧ (sendTlp t s).srg = s.srg ∧ (sendTlp t s).ods = s.ods ∧ (sendTlp t s).vault = s.vault ∧ (sendTlp t s).kst = s.kst ∧ (sendTlp t s).engKeys = s.engKeys ∧ (sendTlp t s).kwe = s.kwe ∧ (sendTlp t s).pke = s.pke ∧ (sendTlp t s).ent = s.ent ∧ (sendTlp t s).atu = s.atu ∧ (sendTlp t s).lcc = s.lcc ∧ (sendTlp t s).mem = s.mem ∧ (sendTlp t s).sheaf = s.sheaf ∧ (sendTlp t s).dom = s.dom ∧ (sendTlp t s).pins = s.pins ∧ (sendTlp t s).boot = s.boot ∧ (sendTlp t s).tdi = s.tdi ∧ (sendTlp t s).ac = s.ac ∧ (sendTlp t s).vt = s.vt ∧ (sendTlp t s).free = s.free ∧ (sendTlp t s).pending = s.pending :=
  have k : Off (fun p => p == .link || p == .out) s (sendTlp t s) := sendTlp_keeps (Off.keeps _ _) rfl rfl .refl
  ⟨k.clk rfl, k.rcv rfl, k.icu rfl, k.obs rfl, k.sen rfl, k.tamperIn rfl, k.cex rfl, k.xlt rfl, k.srg rfl, k.ods rfl, k.vault rfl, k.kst rfl, k.engKeys rfl, k.kwe rfl, k.pke rfl, k.ent rfl, k.atu rfl, k.lcc rfl, k.mem rfl, k.sheaf rfl, k.dom rfl, k.pins rfl, k.boot rfl, k.tdi rfl, k.ac rfl, k.vt rfl, k.free rfl, k.pending rfl⟩

@[simp] theorem passTlps_same {a : Nat} {a1 : State} :
    (passTlps a a1).clk = a1.clk ∧ (passTlps a a1).rcv = a1.rcv ∧ (passTlps a a1).icu = a1.icu ∧ (passTlps a a1).obs = a1.obs ∧ (passTlps a a1).sen = a1.sen ∧ (passTlps a a1).tamperIn = a1.tamperIn ∧ (passTlps a a1).xlt = a1.xlt ∧ (passTlps a a1).srg = a1.srg ∧ (passTlps a a1).ods = a1.ods ∧ (passTlps a a1).vault = a1.vault ∧ (passTlps a a1).kst = a1.kst ∧ (passTlps a a1).engKeys = a1.engKeys ∧ (passTlps a a1).kwe = a1.kwe ∧ (passTlps a a1).pke = a1.pke ∧ (passTlps a a1).ent = a1.ent ∧ (passTlps a a1).atu = a1.atu ∧ (passTlps a a1).lcc = a1.lcc ∧ (passTlps a a1).mem = a1.mem ∧ (passTlps a a1).sheaf = a1.sheaf ∧ (passTlps a a1).dom = a1.dom ∧ (passTlps a a1).pins = a1.pins ∧ (passTlps a a1).boot = a1.boot ∧ (passTlps a a1).tdi = a1.tdi ∧ (passTlps a a1).ac = a1.ac ∧ (passTlps a a1).vt = a1.vt ∧ (passTlps a a1).free = a1.free ∧ (passTlps a a1).pending = a1.pending :=
  have k : Off (fun p => p == .cex || p == .link || p == .out) a1 (passTlps a a1) := passTlps_keeps (Off.keeps _ _) rfl rfl rfl .refl
  ⟨k.clk rfl, k.rcv rfl, k.icu rfl, k.obs rfl, k.sen rfl, k.tamperIn rfl, k.xlt rfl, k.srg rfl, k.ods rfl, k.vault rfl, k.kst rfl, k.engKeys rfl, k.kwe rfl, k.pke rfl, k.ent rfl, k.atu rfl, k.lcc rfl, k.mem rfl, k.sheaf rfl, k.dom rfl, k.pins rfl, k.boot rfl, k.tdi rfl, k.ac rfl, k.vt rfl, k.free rfl, k.pending rfl⟩

@[simp] theorem settleGate_same {s : State} :
    (settleGate s).clk = s.clk ∧ (settleGate s).sen = s.sen ∧ (settleGate s).tamperIn = s.tamperIn ∧ (settleGate s).xlt = s.xlt ∧ (settleGate s).ods = s.ods ∧ (settleGate s).vault = s.vault ∧ (settleGate s).kst = s.kst ∧ (settleGate s).engKeys = s.engKeys ∧ (settleGate s).kwe = s.kwe ∧ (settleGate s).pke = s.pke ∧ (settleGate s).ent = s.ent ∧ (settleGate s).atu = s.atu ∧ (settleGate s).lcc = s.lcc ∧ (settleGate s).sheaf = s.sheaf ∧ (settleGate s).pins = s.pins ∧ (settleGate s).boot = s.boot ∧ (settleGate s).tdi = s.tdi ∧ (settleGate s).ac = s.ac ∧ (settleGate s).vt = s.vt ∧ (settleGate s).free = s.free ∧ (settleGate s).pending = s.pending :=
  have k : Off (fun p => p == .rcv || p == .icu || p == .obs || p == .cex || p == .srg || p == .mem || p == .link || p == .dom || p == .out) s (settleGate s) := settleGate_keeps (Off.keeps _ _) rfl rfl rfl rfl rfl rfl rfl rfl rfl .refl
  ⟨k.clk rfl, k.sen rfl, k.tamperIn rfl, k.xlt rfl, k.ods rfl, k.vault rfl, k.kst rfl, k.engKeys rfl, k.kwe rfl, k.pke rfl, k.ent rfl, k.atu rfl, k.lcc rfl, k.sheaf rfl, k.pins rfl, k.boot rfl, k.tdi rfl, k.ac rfl, k.vt rfl, k.free rfl, k.pending rfl⟩

@[simp] theorem discardGroup_same {port : Nat} {s : State} :
    (discardGroup port s).clk = s.clk ∧ (discardGroup port s).rcv = s.rcv ∧ (discardGroup port s).icu = s.icu ∧ (discardGroup port s).obs = s.obs ∧ (discardGroup port s).sen = s.sen ∧ (discardGroup port s).tamperIn = s.tamperIn ∧ (discardGroup port s).cex = s.cex ∧ (discardGroup port s).xlt = s.xlt ∧ (discardGroup port s).srg = s.srg ∧ (discardGroup port s).ods = s.ods ∧ (discardGroup port s).vault = s.vault ∧ (discardGroup port s).kst = s.kst ∧ (discardGroup port s).engKeys = s.engKeys ∧ (discardGroup port s).kwe = s.kwe ∧ (discardGroup port s).pke = s.pke ∧ (discardGroup port s).ent = s.ent ∧ (discardGroup port s).atu = s.atu ∧ (discardGroup port s).lcc = s.lcc ∧ (discardGroup port s).mem = s.mem ∧ (discardGroup port s).sheaf = s.sheaf ∧ (discardGroup port s).dom = s.dom ∧ (discardGroup port s).pins = s.pins ∧ (discardGroup port s).boot = s.boot ∧ (discardGroup port s).tdi = s.tdi ∧ (discardGroup port s).ac = s.ac ∧ (discardGroup port s).vt = s.vt ∧ (discardGroup port s).free = s.free ∧ (discardGroup port s).out = s.out ∧ (discardGroup port s).pending = s.pending :=
  have k : Off (fun p => p == .link) s (discardGroup port s) := discardGroup_keeps (Off.keeps _ _) rfl .refl
  ⟨k.clk rfl, k.rcv rfl, k.icu rfl, k.obs rfl, k.sen rfl, k.tamperIn rfl, k.cex rfl, k.xlt rfl, k.srg rfl, k.ods rfl, k.vault rfl, k.kst rfl, k.engKeys rfl, k.kwe rfl, k.pke rfl, k.ent rfl, k.atu rfl, k.lcc rfl, k.mem rfl, k.sheaf rfl, k.dom rfl, k.pins rfl, k.boot rfl, k.tdi rfl, k.ac rfl, k.vt rfl, k.free rfl, k.out rfl, k.pending rfl⟩

@[simp] theorem failGroup_same {port slc stream cls sender reason : Nat} {s : State} :
    (failGroup port slc stream cls sender reason s).clk = s.clk ∧ (failGroup port slc stream cls sender reason s).sen = s.sen ∧ (failGroup port slc stream cls sender reason s).tamperIn = s.tamperIn ∧ (failGroup port slc stream cls sender reason s).xlt = s.xlt ∧ (failGroup port slc stream cls sender reason s).vault = s.vault ∧ (failGroup port slc stream cls sender reason s).atu = s.atu ∧ (failGroup port slc stream cls sender reason s).lcc = s.lcc ∧ (failGroup port slc stream cls sender reason s).boot = s.boot ∧ (failGroup port slc stream cls sender reason s).tdi = s.tdi ∧ (failGroup port slc stream cls sender reason s).free = s.free ∧ (failGroup port slc stream cls sender reason s).pending = s.pending :=
  have k : Off (fun p => p == .rcv || p == .icu || p == .obs || p == .cex || p == .srg || p == .ods || p == .kst || p == .engKeys || p == .kwe || p == .pke || p == .ent || p == .mem || p == .link || p == .sheaf || p == .dom || p == .pins || p == .ac || p == .vt || p == .out) s (failGroup port slc stream cls sender reason s) := failGroup_keeps (Off.keeps _ _) rfl rfl rfl rfl rfl rfl rfl rfl rfl rfl rfl rfl rfl rfl rfl rfl rfl rfl rfl .refl
  ⟨k.clk rfl, k.sen rfl, k.tamperIn rfl, k.xlt rfl, k.vault rfl, k.atu rfl, k.lcc rfl, k.boot rfl, k.tdi rfl, k.free rfl, k.pending rfl⟩

@[simp] theorem enterSav_same {port : Nat} {s : State} :
    (enterSav port s).clk = s.clk ∧ (enterSav port s).rcv = s.rcv ∧ (enterSav port s).icu = s.icu ∧ (enterSav port s).sen = s.sen ∧ (enterSav port s).tamperIn = s.tamperIn ∧ (enterSav port s).cex = s.cex ∧ (enterSav port s).xlt = s.xlt ∧ (enterSav port s).srg = s.srg ∧ (enterSav port s).ods = s.ods ∧ (enterSav port s).vault = s.vault ∧ (enterSav port s).kst = s.kst ∧ (enterSav port s).engKeys = s.engKeys ∧ (enterSav port s).kwe = s.kwe ∧ (enterSav port s).pke = s.pke ∧ (enterSav port s).ent = s.ent ∧ (enterSav port s).atu = s.atu ∧ (enterSav port s).lcc = s.lcc ∧ (enterSav port s).mem = s.mem ∧ (enterSav port s).sheaf = s.sheaf ∧ (enterSav port s).dom = s.dom ∧ (enterSav port s).pins = s.pins ∧ (enterSav port s).boot = s.boot ∧ (enterSav port s).tdi = s.tdi ∧ (enterSav port s).ac = s.ac ∧ (enterSav port s).vt = s.vt ∧ (enterSav port s).free = s.free ∧ (enterSav port s).out = s.out ∧ (enterSav port s).pending = s.pending :=
  have k : Off (fun p => p == .obs || p == .link) s (enterSav port s) := enterSav_keeps (Off.keeps _ _) rfl rfl .refl
  ⟨k.clk rfl, k.rcv rfl, k.icu rfl, k.sen rfl, k.tamperIn rfl, k.cex rfl, k.xlt rfl, k.srg rfl, k.ods rfl, k.vault rfl, k.kst rfl, k.engKeys rfl, k.kwe rfl, k.pke rfl, k.ent rfl, k.atu rfl, k.lcc rfl, k.mem rfl, k.sheaf rfl, k.dom rfl, k.pins rfl, k.boot rfl, k.tdi rfl, k.ac rfl, k.vt rfl, k.free rfl, k.out rfl, k.pending rfl⟩

@[simp] theorem acceptGroup_same {port e epoch : Nat} {halyard : Bool} {g : Gsh} {gsh descs cipher : Bytes} {s : State} :
    (acceptGroup port e epoch halyard g gsh descs cipher s).clk = s.clk ∧ (acceptGroup port e epoch halyard g gsh descs cipher s).rcv = s.rcv ∧ (acceptGroup port e epoch halyard g gsh descs cipher s).icu = s.icu ∧ (acceptGroup port e epoch halyard g gsh descs cipher s).sen = s.sen ∧ (acceptGroup port e epoch halyard g gsh descs cipher s).tamperIn = s.tamperIn ∧ (acceptGroup port e epoch halyard g gsh descs cipher s).cex = s.cex ∧ (acceptGroup port e epoch halyard g gsh descs cipher s).xlt = s.xlt ∧ (acceptGroup port e epoch halyard g gsh descs cipher s).ods = s.ods ∧ (acceptGroup port e epoch halyard g gsh descs cipher s).vault = s.vault ∧ (acceptGroup port e epoch halyard g gsh descs cipher s).kst = s.kst ∧ (acceptGroup port e epoch halyard g gsh descs cipher s).engKeys = s.engKeys ∧ (acceptGroup port e epoch halyard g gsh descs cipher s).kwe = s.kwe ∧ (acceptGroup port e epoch halyard g gsh descs cipher s).pke = s.pke ∧ (acceptGroup port e epoch halyard g gsh descs cipher s).ent = s.ent ∧ (acceptGroup port e epoch halyard g gsh descs cipher s).atu = s.atu ∧ (acceptGroup port e epoch halyard g gsh descs cipher s).lcc = s.lcc ∧ (acceptGroup port e epoch halyard g gsh descs cipher s).mem = s.mem ∧ (acceptGroup port e epoch halyard g gsh descs cipher s).sheaf = s.sheaf ∧ (acceptGroup port e epoch halyard g gsh descs cipher s).dom = s.dom ∧ (acceptGroup port e epoch halyard g gsh descs cipher s).pins = s.pins ∧ (acceptGroup port e epoch halyard g gsh descs cipher s).boot = s.boot ∧ (acceptGroup port e epoch halyard g gsh descs cipher s).tdi = s.tdi ∧ (acceptGroup port e epoch halyard g gsh descs cipher s).vt = s.vt ∧ (acceptGroup port e epoch halyard g gsh descs cipher s).free = s.free ∧ (acceptGroup port e epoch halyard g gsh descs cipher s).pending = s.pending :=
  have k : Off (fun p => p == .obs || p == .srg || p == .link || p == .ac || p == .out) s (acceptGroup port e epoch halyard g gsh descs cipher s) := acceptGroup_keeps (Off.keeps _ _) rfl rfl rfl rfl rfl .refl
  ⟨k.clk rfl, k.rcv rfl, k.icu rfl, k.sen rfl, k.tamperIn rfl, k.cex rfl, k.xlt rfl, k.ods rfl, k.vault rfl, k.kst rfl, k.engKeys rfl, k.kwe rfl, k.pke rfl, k.ent rfl, k.atu rfl, k.lcc rfl, k.mem rfl, k.sheaf rfl, k.dom rfl, k.pins rfl, k.boot rfl, k.tdi rfl, k.vt rfl, k.free rfl, k.pending rfl⟩

@[simp] theorem takeCurrent_same {port e : Nat} {g : Gsh} {gsh descs cipher : Bytes} {s : State} :
    (takeCurrent port e g gsh descs cipher s).clk = s.clk ∧ (takeCurrent port e g gsh descs cipher s).sen = s.sen ∧ (takeCurrent port e g gsh descs cipher s).tamperIn = s.tamperIn ∧ (takeCurrent port e g gsh descs cipher s).xlt = s.xlt ∧ (takeCurrent port e g gsh descs cipher s).vault = s.vault ∧ (takeCurrent port e g gsh descs cipher s).atu = s.atu ∧ (takeCurrent port e g gsh descs cipher s).lcc = s.lcc ∧ (takeCurrent port e g gsh descs cipher s).boot = s.boot ∧ (takeCurrent port e g gsh descs cipher s).tdi = s.tdi ∧ (takeCurrent port e g gsh descs cipher s).free = s.free ∧ (takeCurrent port e g gsh descs cipher s).pending = s.pending :=
  have k : Off (fun p => p == .rcv || p == .icu || p == .obs || p == .cex || p == .srg || p == .ods || p == .kst || p == .engKeys || p == .kwe || p == .pke || p == .ent || p == .mem || p == .link || p == .sheaf || p == .dom || p == .pins || p == .ac || p == .vt || p == .out) s (takeCurrent port e g gsh descs cipher s) := takeCurrent_keeps (Off.keeps _ _) rfl rfl rfl rfl rfl rfl rfl rfl rfl rfl rfl rfl rfl rfl rfl rfl rfl rfl rfl .refl
  ⟨k.clk rfl, k.sen rfl, k.tamperIn rfl, k.xlt rfl, k.vault rfl, k.atu rfl, k.lcc rfl, k.boot rfl, k.tdi rfl, k.free rfl, k.pending rfl⟩

@[simp] theorem takeOld_same {port e : Nat} {d : Drain} {g : Gsh} {gsh descs cipher : Bytes} {s : State} :
    (takeOld port e d g gsh descs cipher s).clk = s.clk ∧ (takeOld port e d g gsh descs cipher s).sen = s.sen ∧ (takeOld port e d g gsh descs cipher s).tamperIn = s.tamperIn ∧ (takeOld port e d g gsh descs cipher s).xlt = s.xlt ∧ (takeOld port e d g gsh descs cipher s).vault = s.vault ∧ (takeOld port e d g gsh descs cipher s).atu = s.atu ∧ (takeOld port e d g gsh descs cipher s).lcc = s.lcc ∧ (takeOld port e d g gsh descs cipher s).boot = s.boot ∧ (takeOld port e d g gsh descs cipher s).tdi = s.tdi ∧ (takeOld port e d g gsh descs cipher s).free = s.free ∧ (takeOld port e d g gsh descs cipher s).pending = s.pending :=
  have k : Off (fun p => p == .rcv || p == .icu || p == .obs || p == .cex || p == .srg || p == .ods || p == .kst || p == .engKeys || p == .kwe || p == .pke || p == .ent || p == .mem || p == .link || p == .sheaf || p == .dom || p == .pins || p == .ac || p == .vt || p == .out) s (takeOld port e d g gsh descs cipher s) := takeOld_keeps (Off.keeps _ _) rfl rfl rfl rfl rfl rfl rfl rfl rfl rfl rfl rfl rfl rfl rfl rfl rfl rfl rfl .refl
  ⟨k.clk rfl, k.sen rfl, k.tamperIn rfl, k.xlt rfl, k.vault rfl, k.atu rfl, k.lcc rfl, k.boot rfl, k.tdi rfl, k.free rfl, k.pending rfl⟩

@[simp] theorem pendPair_same {p : Nat} {s : State} :
    (pendPair p s).clk = s.clk ∧ (pendPair p s).sen = s.sen ∧ (pendPair p s).tamperIn = s.tamperIn ∧ (pendPair p s).cex = s.cex ∧ (pendPair p s).xlt = s.xlt ∧ (pendPair p s).srg = s.srg ∧ (pendPair p s).ods = s.ods ∧ (pendPair p s).vault = s.vault ∧ (pendPair p s).kst = s.kst ∧ (pendPair p s).engKeys = s.engKeys ∧ (pendPair p s).kwe = s.kwe ∧ (pendPair p s).pke = s.pke ∧ (pendPair p s).ent = s.ent ∧ (pendPair p s).atu = s.atu ∧ (pendPair p s).lcc = s.lcc ∧ (pendPair p s).mem = s.mem ∧ (pendPair p s).link = s.link ∧ (pendPair p s).sheaf = s.sheaf ∧ (pendPair p s).dom = s.dom ∧ (pendPair p s).pins = s.pins ∧ (pendPair p s).boot = s.boot ∧ (pendPair p s).tdi = s.tdi ∧ (pendPair p s).ac = s.ac ∧ (pendPair p s).vt = s.vt ∧ (pendPair p s).free = s.free ∧ (pendPair p s).pending = s.pending :=
  have k : Off (fun p => p == .rcv || p == .icu || p == .obs || p == .out) s (pendPair p s) := pendPair_keeps (Off.keeps _ _) rfl rfl rfl rfl .refl
  ⟨k.clk rfl, k.sen rfl, k.tamperIn rfl, k.cex rfl, k.xlt rfl, k.srg rfl, k.ods rfl, k.vault rfl, k.kst rfl, k.engKeys rfl, k.kwe rfl, k.pke rfl, k.ent rfl, k.atu rfl, k.lcc rfl, k.mem rfl, k.link rfl, k.sheaf rfl, k.dom rfl, k.pins rfl, k.boot rfl, k.tdi rfl, k.ac rfl, k.vt rfl, k.free rfl, k.pending rfl⟩

@[simp] theorem switchRx_same {port p : Nat} {s : State} :
    (switchRx port p s).clk = s.clk ∧ (switchRx port p s).sen = s.sen ∧ (switchRx port p s).tamperIn = s.tamperIn ∧ (switchRx port p s).xlt = s.xlt ∧ (switchRx port p s).srg = s.srg ∧ (switchRx port p s).ods = s.ods ∧ (switchRx port p s).vault = s.vault ∧ (switchRx port p s).kst = s.kst ∧ (switchRx port p s).engKeys = s.engKeys ∧ (switchRx port p s).kwe = s.kwe ∧ (switchRx port p s).pke = s.pke ∧ (switchRx port p s).ent = s.ent ∧ (switchRx port p s).atu = s.atu ∧ (switchRx port p s).lcc = s.lcc ∧ (switchRx port p s).mem = s.mem ∧ (switchRx port p s).sheaf = s.sheaf ∧ (switchRx port p s).dom = s.dom ∧ (switchRx port p s).pins = s.pins ∧ (switchRx port p s).boot = s.boot ∧ (switchRx port p s).tdi = s.tdi ∧ (switchRx port p s).ac = s.ac ∧ (switchRx port p s).vt = s.vt ∧ (switchRx port p s).free = s.free ∧ (switchRx port p s).pending = s.pending :=
  have k : Off (fun p => p == .rcv || p == .icu || p == .obs || p == .cex || p == .link || p == .out) s (switchRx port p s) := switchRx_keeps (Off.keeps _ _) rfl rfl rfl rfl rfl rfl .refl
  ⟨k.clk rfl, k.sen rfl, k.tamperIn rfl, k.xlt rfl, k.srg rfl, k.ods rfl, k.vault rfl, k.kst rfl, k.engKeys rfl, k.kwe rfl, k.pke rfl, k.ent rfl, k.atu rfl, k.lcc rfl, k.mem rfl, k.sheaf rfl, k.dom rfl, k.pins rfl, k.boot rfl, k.tdi rfl, k.ac rfl, k.vt rfl, k.free rfl, k.pending rfl⟩

@[simp] theorem takeGroup_same {port e : Nat} {g : Gsh} {gsh descs cipher : Bytes} {s : State} :
    (takeGroup port e g gsh descs cipher s).clk = s.clk ∧ (takeGroup port e g gsh descs cipher s).sen = s.sen ∧ (takeGroup port e g gsh descs cipher s).tamperIn = s.tamperIn ∧ (takeGroup port e g gsh descs cipher s).xlt = s.xlt ∧ (takeGroup port e g gsh descs cipher s).vault = s.vault ∧ (takeGroup port e g gsh descs cipher s).atu = s.atu ∧ (takeGroup port e g gsh descs cipher s).lcc = s.lcc ∧ (takeGroup port e g gsh descs cipher s).boot = s.boot ∧ (takeGroup port e g gsh descs cipher s).tdi = s.tdi ∧ (takeGroup port e g gsh descs cipher s).free = s.free ∧ (takeGroup port e g gsh descs cipher s).pending = s.pending :=
  have k : Off (fun p => p == .rcv || p == .icu || p == .obs || p == .cex || p == .srg || p == .ods || p == .kst || p == .engKeys || p == .kwe || p == .pke || p == .ent || p == .mem || p == .link || p == .sheaf || p == .dom || p == .pins || p == .ac || p == .vt || p == .out) s (takeGroup port e g gsh descs cipher s) := takeGroup_keeps (Off.keeps _ _) rfl rfl rfl rfl rfl rfl rfl rfl rfl rfl rfl rfl rfl rfl rfl rfl rfl rfl rfl .refl
  ⟨k.clk rfl, k.sen rfl, k.tamperIn rfl, k.xlt rfl, k.vault rfl, k.atu rfl, k.lcc rfl, k.boot rfl, k.tdi rfl, k.free rfl, k.pending rfl⟩

@[simp] theorem receiveGroup_same {port : Nat} {gsh descs cipher : Bytes} {s : State} :
    (receiveGroup port gsh descs cipher s).clk = s.clk ∧ (receiveGroup port gsh descs cipher s).sen = s.sen ∧ (receiveGroup port gsh descs cipher s).tamperIn = s.tamperIn ∧ (receiveGroup port gsh descs cipher s).xlt = s.xlt ∧ (receiveGroup port gsh descs cipher s).vault = s.vault ∧ (receiveGroup port gsh descs cipher s).atu = s.atu ∧ (receiveGroup port gsh descs cipher s).lcc = s.lcc ∧ (receiveGroup port gsh descs cipher s).boot = s.boot ∧ (receiveGroup port gsh descs cipher s).tdi = s.tdi ∧ (receiveGroup port gsh descs cipher s).free = s.free ∧ (receiveGroup port gsh descs cipher s).pending = s.pending :=
  have k : Off (fun p => p == .rcv || p == .icu || p == .obs || p == .cex || p == .srg || p == .ods || p == .kst || p == .engKeys || p == .kwe || p == .pke || p == .ent || p == .mem || p == .link || p == .sheaf || p == .dom || p == .pins || p == .ac || p == .vt || p == .out) s (receiveGroup port gsh descs cipher s) := receiveGroup_keeps (Off.keeps _ _) rfl rfl rfl rfl rfl rfl rfl rfl rfl rfl rfl rfl rfl rfl rfl rfl rfl rfl rfl .refl
  ⟨k.clk rfl, k.sen rfl, k.tamperIn rfl, k.xlt rfl, k.vault rfl, k.atu rfl, k.lcc rfl, k.boot rfl, k.tdi rfl, k.free rfl, k.pending rfl⟩

@[simp] theorem retryWaits_same {port : Nat} {s : State} :
    (retryWaits port s).clk = s.clk ∧ (retryWaits port s).sen = s.sen ∧ (retryWaits port s).tamperIn = s.tamperIn ∧ (retryWaits port s).xlt = s.xlt ∧ (retryWaits port s).vault = s.vault ∧ (retryWaits port s).atu = s.atu ∧ (retryWaits port s).lcc = s.lcc ∧ (retryWaits port s).boot = s.boot ∧ (retryWaits port s).tdi = s.tdi ∧ (retryWaits port s).free = s.free ∧ (retryWaits port s).pending = s.pending :=
  have k : Off (fun p => p == .rcv || p == .icu || p == .obs || p == .cex || p == .srg || p == .ods || p == .kst || p == .engKeys || p == .kwe || p == .pke || p == .ent || p == .mem || p == .link || p == .sheaf || p == .dom || p == .pins || p == .ac || p == .vt || p == .out) s (retryWaits port s) := retryWaits_keeps (Off.keeps _ _) rfl rfl rfl rfl rfl rfl rfl rfl rfl rfl rfl rfl rfl rfl rfl rfl rfl rfl rfl .refl
  ⟨k.clk rfl, k.sen rfl, k.tamperIn rfl, k.xlt rfl, k.vault rfl, k.atu rfl, k.lcc rfl, k.boot rfl, k.tdi rfl, k.free rfl, k.pending rfl⟩

@[simp] theorem deriveRxNext_same {p : Nat} {s : State} :
    (deriveRxNext p s).clk = s.clk ∧ (deriveRxNext p s).sen = s.sen ∧ (deriveRxNext p s).tamperIn = s.tamperIn ∧ (deriveRxNext p s).cex = s.cex ∧ (deriveRxNext p s).xlt = s.xlt ∧ (deriveRxNext p s).srg = s.srg ∧ (deriveRxNext p s).ods = s.ods ∧ (deriveRxNext p s).vault = s.vault ∧ (deriveRxNext p s).kst = s.kst ∧ (deriveRxNext p s).pke = s.pke ∧ (deriveRxNext p s).atu = s.atu ∧ (deriveRxNext p s).lcc = s.lcc ∧ (deriveRxNext p s).mem = s.mem ∧ (deriveRxNext p s).sheaf = s.sheaf ∧ (deriveRxNext p s).dom = s.dom ∧ (deriveRxNext p s).pins = s.pins ∧ (deriveRxNext p s).boot = s.boot ∧ (deriveRxNext p s).tdi = s.tdi ∧ (deriveRxNext p s).ac = s.ac ∧ (deriveRxNext p s).vt = s.vt ∧ (deriveRxNext p s).free = s.free ∧ (deriveRxNext p s).pending = s.pending :=
  have k : Off (fun p => p == .rcv || p == .icu || p == .obs || p == .engKeys || p == .kwe || p == .ent || p == .link || p == .out) s (deriveRxNext p s) := deriveRxNext_keeps (Off.keeps _ _) rfl rfl rfl rfl rfl rfl rfl rfl .refl
  ⟨k.clk rfl, k.sen rfl, k.tamperIn rfl, k.cex rfl, k.xlt rfl, k.srg rfl, k.ods rfl, k.vault rfl, k.kst rfl, k.pke rfl, k.atu rfl, k.lcc rfl, k.mem rfl, k.sheaf rfl, k.dom rfl, k.pins rfl, k.boot rfl, k.tdi rfl, k.ac rfl, k.vt rfl, k.free rfl, k.pending rfl⟩

@[simp] theorem passTrailer_same {port : Nat} {trailer : Bytes} {tag : BitVec 128} {s : State} :
    (passTrailer port trailer tag s).clk = s.clk ∧ (passTrailer port trailer tag s).rcv = s.rcv ∧ (passTrailer port trailer tag s).icu = s.icu ∧ (passTrailer port trailer tag s).obs = s.obs ∧ (passTrailer port trailer tag s).sen = s.sen ∧ (passTrailer port trailer tag s).tamperIn = s.tamperIn ∧ (passTrailer port trailer tag s).cex = s.cex ∧ (passTrailer port trailer tag s).xlt = s.xlt ∧ (passTrailer port trailer tag s).srg = s.srg ∧ (passTrailer port trailer tag s).ods = s.ods ∧ (passTrailer port trailer tag s).vault = s.vault ∧ (passTrailer port trailer tag s).kst = s.kst ∧ (passTrailer port trailer tag s).engKeys = s.engKeys ∧ (passTrailer port trailer tag s).kwe = s.kwe ∧ (passTrailer port trailer tag s).pke = s.pke ∧ (passTrailer port trailer tag s).ent = s.ent ∧ (passTrailer port trailer tag s).atu = s.atu ∧ (passTrailer port trailer tag s).lcc = s.lcc ∧ (passTrailer port trailer tag s).mem = s.mem ∧ (passTrailer port trailer tag s).link = s.link ∧ (passTrailer port trailer tag s).sheaf = s.sheaf ∧ (passTrailer port trailer tag s).dom = s.dom ∧ (passTrailer port trailer tag s).pins = s.pins ∧ (passTrailer port trailer tag s).boot = s.boot ∧ (passTrailer port trailer tag s).tdi = s.tdi ∧ (passTrailer port trailer tag s).ac = s.ac ∧ (passTrailer port trailer tag s).vt = s.vt ∧ (passTrailer port trailer tag s).free = s.free ∧ (passTrailer port trailer tag s).pending = s.pending :=
  have k : Off (fun p => p == .out) s (passTrailer port trailer tag s) := passTrailer_keeps (Off.keeps _ _) rfl .refl
  ⟨k.clk rfl, k.rcv rfl, k.icu rfl, k.obs rfl, k.sen rfl, k.tamperIn rfl, k.cex rfl, k.xlt rfl, k.srg rfl, k.ods rfl, k.vault rfl, k.kst rfl, k.engKeys rfl, k.kwe rfl, k.pke rfl, k.ent rfl, k.atu rfl, k.lcc rfl, k.mem rfl, k.link rfl, k.sheaf rfl, k.dom rfl, k.pins rfl, k.boot rfl, k.tdi rfl, k.ac rfl, k.vt rfl, k.free rfl, k.pending rfl⟩

@[simp] theorem putPacket_same {e addr opcode attr : Nat} {payload : Bytes} {closing : Bool} {s : State} :
    (putPacket e addr opcode attr payload closing s).clk = s.clk ∧ (putPacket e addr opcode attr payload closing s).sen = s.sen ∧ (putPacket e addr opcode attr payload closing s).tamperIn = s.tamperIn ∧ (putPacket e addr opcode attr payload closing s).xlt = s.xlt ∧ (putPacket e addr opcode attr payload closing s).ods = s.ods ∧ (putPacket e addr opcode attr payload closing s).vault = s.vault ∧ (putPacket e addr opcode attr payload closing s).kst = s.kst ∧ (putPacket e addr opcode attr payload closing s).engKeys = s.engKeys ∧ (putPacket e addr opcode attr payload closing s).kwe = s.kwe ∧ (putPacket e addr opcode attr payload closing s).pke = s.pke ∧ (putPacket e addr opcode attr payload closing s).ent = s.ent ∧ (putPacket e addr opcode attr payload closing s).atu = s.atu ∧ (putPacket e addr opcode attr payload closing s).lcc = s.lcc ∧ (putPacket e addr opcode attr payload closing s).mem = s.mem ∧ (putPacket e addr opcode attr payload closing s).sheaf = s.sheaf ∧ (putPacket e addr opcode attr payload closing s).dom = s.dom ∧ (putPacket e addr opcode attr payload closing s).pins = s.pins ∧ (putPacket e addr opcode attr payload closing s).boot = s.boot ∧ (putPacket e addr opcode attr payload closing s).tdi = s.tdi ∧ (putPacket e addr opcode attr payload closing s).ac = s.ac ∧ (putPacket e addr opcode attr payload closing s).vt = s.vt ∧ (putPacket e addr opcode attr payload closing s).free = s.free ∧ (putPacket e addr opcode attr payload closing s).pending = s.pending :=
  have k : Off (fun p => p == .rcv || p == .icu || p == .obs || p == .cex || p == .srg || p == .link || p == .out) s (putPacket e addr opcode attr payload closing s) := putPacket_keeps (Off.keeps _ _) rfl rfl rfl rfl rfl rfl rfl .refl
  ⟨k.clk rfl, k.sen rfl, k.tamperIn rfl, k.xlt rfl, k.ods rfl, k.vault rfl, k.kst rfl, k.engKeys rfl, k.kwe rfl, k.pke rfl, k.ent rfl, k.atu rfl, k.lcc rfl, k.mem rfl, k.sheaf rfl, k.dom rfl, k.pins rfl, k.boot rfl, k.tdi rfl, k.ac rfl, k.vt rfl, k.free rfl, k.pending rfl⟩

@[simp] theorem refusePacket_same {port sl detail : Nat} {s : State} :
    (refusePacket port sl detail s).clk = s.clk ∧ (refusePacket port sl detail s).sen = s.sen ∧ (refusePacket port sl detail s).tamperIn = s.tamperIn ∧ (refusePacket port sl detail s).cex = s.cex ∧ (refusePacket port sl detail s).xlt = s.xlt ∧ (refusePacket port sl detail s).srg = s.srg ∧ (refusePacket port sl detail s).ods = s.ods ∧ (refusePacket port sl detail s).vault = s.vault ∧ (refusePacket port sl detail s).kst = s.kst ∧ (refusePacket port sl detail s).engKeys = s.engKeys ∧ (refusePacket port sl detail s).kwe = s.kwe ∧ (refusePacket port sl detail s).pke = s.pke ∧ (refusePacket port sl detail s).ent = s.ent ∧ (refusePacket port sl detail s).atu = s.atu ∧ (refusePacket port sl detail s).lcc = s.lcc ∧ (refusePacket port sl detail s).mem = s.mem ∧ (refusePacket port sl detail s).link = s.link ∧ (refusePacket port sl detail s).sheaf = s.sheaf ∧ (refusePacket port sl detail s).dom = s.dom ∧ (refusePacket port sl detail s).pins = s.pins ∧ (refusePacket port sl detail s).boot = s.boot ∧ (refusePacket port sl detail s).tdi = s.tdi ∧ (refusePacket port sl detail s).ac = s.ac ∧ (refusePacket port sl detail s).vt = s.vt ∧ (refusePacket port sl detail s).free = s.free ∧ (refusePacket port sl detail s).pending = s.pending :=
  have k : Off (fun p => p == .rcv || p == .icu || p == .obs || p == .out) s (refusePacket port sl detail s) := refusePacket_keeps (Off.keeps _ _) rfl rfl rfl rfl .refl
  ⟨k.clk rfl, k.sen rfl, k.tamperIn rfl, k.cex rfl, k.xlt rfl, k.srg rfl, k.ods rfl, k.vault rfl, k.kst rfl, k.engKeys rfl, k.kwe rfl, k.pke rfl, k.ent rfl, k.atu rfl, k.lcc rfl, k.mem rfl, k.link rfl, k.sheaf rfl, k.dom rfl, k.pins rfl, k.boot rfl, k.tdi rfl, k.ac rfl, k.vt rfl, k.free rfl, k.pending rfl⟩

@[simp] theorem addPacket_same {e addr opcode attr : Nat} {payload : Bytes} {closing : Bool} {s : State} :
    (addPacket e addr opcode attr payload closing s).clk = s.clk ∧ (addPacket e addr opcode attr payload closing s).sen = s.sen ∧ (addPacket e addr opcode attr payload closing s).tamperIn = s.tamperIn ∧ (addPacket e addr opcode attr payload closing s).xlt = s.xlt ∧ (addPacket e addr opcode attr payload closing s).ods = s.ods ∧ (addPacket e addr opcode attr payload closing s).vault = s.vault ∧ (addPacket e addr opcode attr payload closing s).kst = s.kst ∧ (addPacket e addr opcode attr payload closing s).engKeys = s.engKeys ∧ (addPacket e addr opcode attr payload closing s).kwe = s.kwe ∧ (addPacket e addr opcode attr payload closing s).pke = s.pke ∧ (addPacket e addr opcode attr payload closing s).ent = s.ent ∧ (addPacket e addr opcode attr payload closing s).atu = s.atu ∧ (addPacket e addr opcode attr payload closing s).lcc = s.lcc ∧ (addPacket e addr opcode attr payload closing s).mem = s.mem ∧ (addPacket e addr opcode attr payload closing s).sheaf = s.sheaf ∧ (addPacket e addr opcode attr payload closing s).dom = s.dom ∧ (addPacket e addr opcode attr payload closing s).pins = s.pins ∧ (addPacket e addr opcode attr payload closing s).boot = s.boot ∧ (addPacket e addr opcode attr payload closing s).tdi = s.tdi ∧ (addPacket e addr opcode attr payload closing s).ac = s.ac ∧ (addPacket e addr opcode attr payload closing s).vt = s.vt ∧ (addPacket e addr opcode attr payload closing s).free = s.free ∧ (addPacket e addr opcode attr payload closing s).pending = s.pending :=
  have k : Off (fun p => p == .rcv || p == .icu || p == .obs || p == .cex || p == .srg || p == .link || p == .out) s (addPacket e addr opcode attr payload closing s) := addPacket_keeps (Off.keeps _ _) rfl rfl rfl rfl rfl rfl rfl .refl
  ⟨k.clk rfl, k.sen rfl, k.tamperIn rfl, k.xlt rfl, k.ods rfl, k.vault rfl, k.kst rfl, k.engKeys rfl, k.kwe rfl, k.pke rfl, k.ent rfl, k.atu rfl, k.lcc rfl, k.mem rfl, k.sheaf rfl, k.dom rfl, k.pins rfl, k.boot rfl, k.tdi rfl, k.ac rfl, k.vt rfl, k.free rfl, k.pending rfl⟩

@[simp] theorem failStreams_same {sl m : Nat} {s : State} :
    (failStreams sl m s).clk = s.clk ∧ (failStreams sl m s).rcv = s.rcv ∧ (failStreams sl m s).icu = s.icu ∧ (failStreams sl m s).obs = s.obs ∧ (failStreams sl m s).sen = s.sen ∧ (failStreams sl m s).tamperIn = s.tamperIn ∧ (failStreams sl m s).xlt = s.xlt ∧ (failStreams sl m s).srg = s.srg ∧ (failStreams sl m s).ods = s.ods ∧ (failStreams sl m s).vault = s.vault ∧ (failStreams sl m s).kst = s.kst ∧ (failStreams sl m s).engKeys = s.engKeys ∧ (failStreams sl m s).kwe = s.kwe ∧ (failStreams sl m s).pke = s.pke ∧ (failStreams sl m s).ent = s.ent ∧ (failStreams sl m s).atu = s.atu ∧ (failStreams sl m s).lcc = s.lcc ∧ (failStreams sl m s).mem = s.mem ∧ (failStreams sl m s).sheaf = s.sheaf ∧ (failStreams sl m s).dom = s.dom ∧ (failStreams sl m s).pins = s.pins ∧ (failStreams sl m s).boot = s.boot ∧ (failStreams sl m s).tdi = s.tdi ∧ (failStreams sl m s).ac = s.ac ∧ (failStreams sl m s).vt = s.vt ∧ (failStreams sl m s).free = s.free ∧ (failStreams sl m s).out = s.out ∧ (failStreams sl m s).pending = s.pending :=
  have k : Off (fun p => p == .cex || p == .link) s (failStreams sl m s) := failStreams_keeps (Off.keeps _ _) rfl rfl .refl
  ⟨k.clk rfl, k.rcv rfl, k.icu rfl, k.obs rfl, k.sen rfl, k.tamperIn rfl, k.xlt rfl, k.srg rfl, k.ods rfl, k.vault rfl, k.kst rfl, k.engKeys rfl, k.kwe rfl, k.pke rfl, k.ent rfl, k.atu rfl, k.lcc rfl, k.mem rfl, k.sheaf rfl, k.dom rfl, k.pins rfl, k.boot rfl, k.tdi rfl, k.ac rfl, k.vt rfl, k.free rfl, k.out rfl, k.pending rfl⟩

@[simp] theorem deadMember_same {sl m : Nat} {s : State} :
    (deadMember sl m s).clk = s.clk ∧ (deadMember sl m s).sen = s.sen ∧ (deadMember sl m s).tamperIn = s.tamperIn ∧ (deadMember sl m s).xlt = s.xlt ∧ (deadMember sl m s).vault = s.vault ∧ (deadMember sl m s).atu = s.atu ∧ (deadMember sl m s).lcc = s.lcc ∧ (deadMember sl m s).boot = s.boot ∧ (deadMember sl m s).tdi = s.tdi ∧ (deadMember sl m s).free = s.free ∧ (deadMember sl m s).pending = s.pending :=
  have k : Off (fun p => p == .rcv || p == .icu || p == .obs || p == .cex || p == .srg || p == .ods || p == .kst || p == .engKeys || p == .kwe || p == .pke || p == .ent || p == .mem || p == .link || p == .sheaf || p == .dom || p == .pins || p == .ac || p == .vt || p == .out) s (deadMember sl m s) := deadMember_keeps (Off.keeps _ _) rfl rfl rfl rfl rfl rfl rfl rfl rfl rfl rfl rfl rfl rfl rfl rfl rfl rfl rfl .refl
  ⟨k.clk rfl, k.sen rfl, k.tamperIn rfl, k.xlt rfl, k.vault rfl, k.atu rfl, k.lcc rfl, k.boot rfl, k.tdi rfl, k.free rfl, k.pending rfl⟩

@[simp] theorem advanceVt_same {port sl : Nat} {s : State} :
    (advanceVt port sl s).clk = s.clk ∧ (advanceVt port sl s).rcv = s.rcv ∧ (advanceVt port sl s).icu = s.icu ∧ (advanceVt port sl s).obs = s.obs ∧ (advanceVt port sl s).sen = s.sen ∧ (advanceVt port sl s).tamperIn = s.tamperIn ∧ (advanceVt port sl s).cex = s.cex ∧ (advanceVt port sl s).xlt = s.xlt ∧ (advanceVt port sl s).srg = s.srg ∧ (advanceVt port sl s).ods = s.ods ∧ (advanceVt port sl s).vault = s.vault ∧ (advanceVt port sl s).kst = s.kst ∧ (advanceVt port sl s).engKeys = s.engKeys ∧ (advanceVt port sl s).kwe = s.kwe ∧ (advanceVt port sl s).pke = s.pke ∧ (advanceVt port sl s).ent = s.ent ∧ (advanceVt port sl s).atu = s.atu ∧ (advanceVt port sl s).lcc = s.lcc ∧ (advanceVt port sl s).mem = s.mem ∧ (advanceVt port sl s).sheaf = s.sheaf ∧ (advanceVt port sl s).dom = s.dom ∧ (advanceVt port sl s).pins = s.pins ∧ (advanceVt port sl s).boot = s.boot ∧ (advanceVt port sl s).tdi = s.tdi ∧ (advanceVt port sl s).ac = s.ac ∧ (advanceVt port sl s).free = s.free ∧ (advanceVt port sl s).out = s.out ∧ (advanceVt port sl s).pending = s.pending :=
  have k : Off (fun p => p == .link || p == .vt) s (advanceVt port sl s) := advanceVt_keeps (Off.keeps _ _) rfl rfl .refl
  ⟨k.clk rfl, k.rcv rfl, k.icu rfl, k.obs rfl, k.sen rfl, k.tamperIn rfl, k.cex rfl, k.xlt rfl, k.srg rfl, k.ods rfl, k.vault rfl, k.kst rfl, k.engKeys rfl, k.kwe rfl, k.pke rfl, k.ent rfl, k.atu rfl, k.lcc rfl, k.mem rfl, k.sheaf rfl, k.dom rfl, k.pins rfl, k.boot rfl, k.tdi rfl, k.ac rfl, k.free rfl, k.out rfl, k.pending rfl⟩

@[simp] theorem verifiedGroup_same {g : RxGroup} {s : State} :
    (verifiedGroup g s).clk = s.clk ∧ (verifiedGroup g s).sen = s.sen ∧ (verifiedGroup g s).tamperIn = s.tamperIn ∧ (verifiedGroup g s).xlt = s.xlt ∧ (verifiedGroup g s).ods = s.ods ∧ (verifiedGroup g s).vault = s.vault ∧ (verifiedGroup g s).kst = s.kst ∧ (verifiedGroup g s).engKeys = s.engKeys ∧ (verifiedGroup g s).kwe = s.kwe ∧ (verifiedGroup g s).pke = s.pke ∧ (verifiedGroup g s).ent = s.ent ∧ (verifiedGroup g s).atu = s.atu ∧ (verifiedGroup g s).lcc = s.lcc ∧ (verifiedGroup g s).sheaf = s.sheaf ∧ (verifiedGroup g s).pins = s.pins ∧ (verifiedGroup g s).boot = s.boot ∧ (verifiedGroup g s).tdi = s.tdi ∧ (verifiedGroup g s).ac = s.ac ∧ (verifiedGroup g s).free = s.free ∧ (verifiedGroup g s).pending = s.pending :=
  have k : Off (fun p => p == .rcv || p == .icu || p == .obs || p == .cex || p == .srg || p == .mem || p == .link || p == .dom || p == .vt || p == .out) s (verifiedGroup g s) := verifiedGroup_keeps (Off.keeps _ _) rfl rfl rfl rfl rfl rfl rfl rfl rfl rfl .refl
  ⟨k.clk rfl, k.sen rfl, k.tamperIn rfl, k.xlt rfl, k.ods rfl, k.vault rfl, k.kst rfl, k.engKeys rfl, k.kwe rfl, k.pke rfl, k.ent rfl, k.atu rfl, k.lcc rfl, k.sheaf rfl, k.pins rfl, k.boot rfl, k.tdi rfl, k.ac rfl, k.free rfl, k.pending rfl⟩

@[simp] theorem dropEgress_same {sl : Nat} {s : State} :
    (dropEgress sl s).clk = s.clk ∧ (dropEgress sl s).sen = s.sen ∧ (dropEgress sl s).tamperIn = s.tamperIn ∧ (dropEgress sl s).xlt = s.xlt ∧ (dropEgress sl s).ods = s.ods ∧ (dropEgress sl s).vault = s.vault ∧ (dropEgress sl s).kst = s.kst ∧ (dropEgress sl s).engKeys = s.engKeys ∧ (dropEgress sl s).kwe = s.kwe ∧ (dropEgress sl s).pke = s.pke ∧ (dropEgress sl s).ent = s.ent ∧ (dropEgress sl s).atu = s.atu ∧ (dropEgress sl s).lcc = s.lcc ∧ (dropEgress sl s).sheaf = s.sheaf ∧ (dropEgress sl s).pins = s.pins ∧ (dropEgress sl s).boot = s.boot ∧ (dropEgress sl s).tdi = s.tdi ∧ (dropEgress sl s).ac = s.ac ∧ (dropEgress sl s).vt = s.vt ∧ (dropEgress sl s).free = s.free ∧ (dropEgress sl s).pending = s.pending :=
  have k : Off (fun p => p == .rcv || p == .icu || p == .obs || p == .cex || p == .srg || p == .mem || p == .link || p == .dom || p == .out) s (dropEgress sl s) := dropEgress_keeps (Off.keeps _ _) rfl rfl rfl rfl rfl rfl rfl rfl rfl .refl
  ⟨k.clk rfl, k.sen rfl, k.tamperIn rfl, k.xlt rfl, k.ods rfl, k.vault rfl, k.kst rfl, k.engKeys rfl, k.kwe rfl, k.pke rfl, k.ent rfl, k.atu rfl, k.lcc rfl, k.sheaf rfl, k.pins rfl, k.boot rfl, k.tdi rfl, k.ac rfl, k.vt rfl, k.free rfl, k.pending rfl⟩

@[simp] theorem tdispReply_same {code : Nat} {values : Bytes} {s : State} :
    (tdispReply code values s).clk = s.clk ∧ (tdispReply code values s).rcv = s.rcv ∧ (tdispReply code values s).icu = s.icu ∧ (tdispReply code values s).obs = s.obs ∧ (tdispReply code values s).sen = s.sen ∧ (tdispReply code values s).tamperIn = s.tamperIn ∧ (tdispReply code values s).cex = s.cex ∧ (tdispReply code values s).xlt = s.xlt ∧ (tdispReply code values s).srg = s.srg ∧ (tdispReply code values s).ods = s.ods ∧ (tdispReply code values s).vault = s.vault ∧ (tdispReply code values s).kst = s.kst ∧ (tdispReply code values s).engKeys = s.engKeys ∧ (tdispReply code values s).kwe = s.kwe ∧ (tdispReply code values s).pke = s.pke ∧ (tdispReply code values s).ent = s.ent ∧ (tdispReply code values s).atu = s.atu ∧ (tdispReply code values s).lcc = s.lcc ∧ (tdispReply code values s).mem = s.mem ∧ (tdispReply code values s).link = s.link ∧ (tdispReply code values s).sheaf = s.sheaf ∧ (tdispReply code values s).dom = s.dom ∧ (tdispReply code values s).pins = s.pins ∧ (tdispReply code values s).boot = s.boot ∧ (tdispReply code values s).tdi = s.tdi ∧ (tdispReply code values s).ac = s.ac ∧ (tdispReply code values s).vt = s.vt ∧ (tdispReply code values s).free = s.free ∧ (tdispReply code values s).pending = s.pending :=
  have k : Off (fun p => p == .out) s (tdispReply code values s) := tdispReply_keeps (Off.keeps _ _) rfl .refl
  ⟨k.clk rfl, k.rcv rfl, k.icu rfl, k.obs rfl, k.sen rfl, k.tamperIn rfl, k.cex rfl, k.xlt rfl, k.srg rfl, k.ods rfl, k.vault rfl, k.kst rfl, k.engKeys rfl, k.kwe rfl, k.pke rfl, k.ent rfl, k.atu rfl, k.lcc rfl, k.mem rfl, k.link rfl, k.sheaf rfl, k.dom rfl, k.pins rfl, k.boot rfl, k.tdi rfl, k.ac rfl, k.vt rfl, k.free rfl, k.pending rfl⟩

@[simp] theorem ideReply_same {obj : Nat} {values : Bytes} {s : State} :
    (ideReply obj values s).clk = s.clk ∧ (ideReply obj values s).rcv = s.rcv ∧ (ideReply obj values s).icu = s.icu ∧ (ideReply obj values s).obs = s.obs ∧ (ideReply obj values s).sen = s.sen ∧ (ideReply obj values s).tamperIn = s.tamperIn ∧ (ideReply obj values s).cex = s.cex ∧ (ideReply obj values s).xlt = s.xlt ∧ (ideReply obj values s).srg = s.srg ∧ (ideReply obj values s).ods = s.ods ∧ (ideReply obj values s).vault = s.vault ∧ (ideReply obj values s).kst = s.kst ∧ (ideReply obj values s).engKeys = s.engKeys ∧ (ideReply obj values s).kwe = s.kwe ∧ (ideReply obj values s).pke = s.pke ∧ (ideReply obj values s).ent = s.ent ∧ (ideReply obj values s).atu = s.atu ∧ (ideReply obj values s).lcc = s.lcc ∧ (ideReply obj values s).mem = s.mem ∧ (ideReply obj values s).link = s.link ∧ (ideReply obj values s).sheaf = s.sheaf ∧ (ideReply obj values s).dom = s.dom ∧ (ideReply obj values s).pins = s.pins ∧ (ideReply obj values s).boot = s.boot ∧ (ideReply obj values s).tdi = s.tdi ∧ (ideReply obj values s).ac = s.ac ∧ (ideReply obj values s).vt = s.vt ∧ (ideReply obj values s).free = s.free ∧ (ideReply obj values s).pending = s.pending :=
  have k : Off (fun p => p == .out) s (ideReply obj values s) := ideReply_keeps (Off.keeps _ _) rfl .refl
  ⟨k.clk rfl, k.rcv rfl, k.icu rfl, k.obs rfl, k.sen rfl, k.tamperIn rfl, k.cex rfl, k.xlt rfl, k.srg rfl, k.ods rfl, k.vault rfl, k.kst rfl, k.engKeys rfl, k.kwe rfl, k.pke rfl, k.ent rfl, k.atu rfl, k.lcc rfl, k.mem rfl, k.link rfl, k.sheaf rfl, k.dom rfl, k.pins rfl, k.boot rfl, k.tdi rfl, k.ac rfl, k.vt rfl, k.free rfl, k.pending rfl⟩

@[simp] theorem tdispError_same {code : Nat} {s : State} :
    (tdispError code s).clk = s.clk ∧ (tdispError code s).rcv = s.rcv ∧ (tdispError code s).icu = s.icu ∧ (tdispError code s).obs = s.obs ∧ (tdispError code s).sen = s.sen ∧ (tdispError code s).tamperIn = s.tamperIn ∧ (tdispError code s).cex = s.cex ∧ (tdispError code s).xlt = s.xlt ∧ (tdispError code s).srg = s.srg ∧ (tdispError code s).ods = s.ods ∧ (tdispError code s).vault = s.vault ∧ (tdispError code s).kst = s.kst ∧ (tdispError code s).engKeys = s.engKeys ∧ (tdispError code s).kwe = s.kwe ∧ (tdispError code s).pke = s.pke ∧ (tdispError code s).ent = s.ent ∧ (tdispError code s).atu = s.atu ∧ (tdispError code s).lcc = s.lcc ∧ (tdispError code s).mem = s.mem ∧ (tdispError code s).link = s.link ∧ (tdispError code s).sheaf = s.sheaf ∧ (tdispError code s).dom = s.dom ∧ (tdispError code s).pins = s.pins ∧ (tdispError code s).boot = s.boot ∧ (tdispError code s).tdi = s.tdi ∧ (tdispError code s).ac = s.ac ∧ (tdispError code s).vt = s.vt ∧ (tdispError code s).free = s.free ∧ (tdispError code s).pending = s.pending :=
  have k : Off (fun p => p == .out) s (tdispError code s) := tdispError_keeps (Off.keeps _ _) rfl .refl
  ⟨k.clk rfl, k.rcv rfl, k.icu rfl, k.obs rfl, k.sen rfl, k.tamperIn rfl, k.cex rfl, k.xlt rfl, k.srg rfl, k.ods rfl, k.vault rfl, k.kst rfl, k.engKeys rfl, k.kwe rfl, k.pke rfl, k.ent rfl, k.atu rfl, k.lcc rfl, k.mem rfl, k.link rfl, k.sheaf rfl, k.dom rfl, k.pins rfl, k.boot rfl, k.tdi rfl, k.ac rfl, k.vt rfl, k.free rfl, k.pending rfl⟩

@[simp] theorem tdiError_same {sl cause : Nat} {s : State} :
    (tdiError sl cause s).clk = s.clk ∧ (tdiError sl cause s).sen = s.sen ∧ (tdiError sl cause s).tamperIn = s.tamperIn ∧ (tdiError sl cause s).xlt = s.xlt ∧ (tdiError sl cause s).vault = s.vault ∧ (tdiError sl cause s).kst = s.kst ∧ (tdiError sl cause s).engKeys = s.engKeys ∧ (tdiError sl cause s).kwe = s.kwe ∧ (tdiError sl cause s).pke = s.pke ∧ (tdiError sl cause s).ent = s.ent ∧ (tdiError sl cause s).atu = s.atu ∧ (tdiError sl cause s).lcc = s.lcc ∧ (tdiError sl cause s).sheaf = s.sheaf ∧ (tdiError sl cause s).pins = s.pins ∧ (tdiError sl cause s).boot = s.boot ∧ (tdiError sl cause s).ac = s.ac ∧ (tdiError sl cause s).vt = s.vt ∧ (tdiError sl cause s).free = s.free ∧ (tdiError sl cause s).pending = s.pending :=
  have k : Off (fun p => p == .rcv || p == .icu || p == .obs || p == .cex || p == .srg || p == .ods || p == .mem || p == .link || p == .dom || p == .tdi || p == .out) s (tdiError sl cause s) := tdiError_keeps (Off.keeps _ _) rfl rfl rfl rfl rfl rfl rfl rfl rfl rfl rfl .refl
  ⟨k.clk rfl, k.sen rfl, k.tamperIn rfl, k.xlt rfl, k.vault rfl, k.kst rfl, k.engKeys rfl, k.kwe rfl, k.pke rfl, k.ent rfl, k.atu rfl, k.lcc rfl, k.sheaf rfl, k.pins rfl, k.boot rfl, k.ac rfl, k.vt rfl, k.free rfl, k.pending rfl⟩

@[simp] theorem leaveSecure_same {sl : Nat} {s : State} :
    (leaveSecure sl s).clk = s.clk ∧ (leaveSecure sl s).rcv = s.rcv ∧ (leaveSecure sl s).icu = s.icu ∧ (leaveSecure sl s).obs = s.obs ∧ (leaveSecure sl s).sen = s.sen ∧ (leaveSecure sl s).tamperIn = s.tamperIn ∧ (leaveSecure sl s).cex = s.cex ∧ (leaveSecure sl s).xlt = s.xlt ∧ (leaveSecure sl s).srg = s.srg ∧ (leaveSecure sl s).ods = s.ods ∧ (leaveSecure sl s).vault = s.vault ∧ (leaveSecure sl s).kst = s.kst ∧ (leaveSecure sl s).kwe = s.kwe ∧ (leaveSecure sl s).pke = s.pke ∧ (leaveSecure sl s).ent = s.ent ∧ (leaveSecure sl s).atu = s.atu ∧ (leaveSecure sl s).lcc = s.lcc ∧ (leaveSecure sl s).mem = s.mem ∧ (leaveSecure sl s).sheaf = s.sheaf ∧ (leaveSecure sl s).dom = s.dom ∧ (leaveSecure sl s).pins = s.pins ∧ (leaveSecure sl s).boot = s.boot ∧ (leaveSecure sl s).tdi = s.tdi ∧ (leaveSecure sl s).ac = s.ac ∧ (leaveSecure sl s).vt = s.vt ∧ (leaveSecure sl s).free = s.free ∧ (leaveSecure sl s).out = s.out ∧ (leaveSecure sl s).pending = s.pending :=
  have k : Off (fun p => p == .engKeys || p == .link) s (leaveSecure sl s) := leaveSecure_keeps (Off.keeps _ _) rfl rfl .refl
  ⟨k.clk rfl, k.rcv rfl, k.icu rfl, k.obs rfl, k.sen rfl, k.tamperIn rfl, k.cex rfl, k.xlt rfl, k.srg rfl, k.ods rfl, k.vault rfl, k.kst rfl, k.kwe rfl, k.pke rfl, k.ent rfl, k.atu rfl, k.lcc rfl, k.mem rfl, k.sheaf rfl, k.dom rfl, k.pins rfl, k.boot rfl, k.tdi rfl, k.ac rfl, k.vt rfl, k.free rfl, k.out rfl, k.pending rfl⟩

@[simp] theorem ideFail_same {sl : Nat} {s : State} :
    (ideFail sl s).clk = s.clk ∧ (ideFail sl s).sen = s.sen ∧ (ideFail sl s).tamperIn = s.tamperIn ∧ (ideFail sl s).xlt = s.xlt ∧ (ideFail sl s).vault = s.vault ∧ (ideFail sl s).kst = s.kst ∧ (ideFail sl s).kwe = s.kwe ∧ (ideFail sl s).pke = s.pke ∧ (ideFail sl s).ent = s.ent ∧ (ideFail sl s).atu = s.atu ∧ (ideFail sl s).lcc = s.lcc ∧ (ideFail sl s).sheaf = s.sheaf ∧ (ideFail sl s).pins = s.pins ∧ (ideFail sl s).boot = s.boot ∧ (ideFail sl s).ac = s.ac ∧ (ideFail sl s).vt = s.vt ∧ (ideFail sl s).free = s.free ∧ (ideFail sl s).pending = s.pending :=
  have k : Off (fun p => p == .rcv || p == .icu || p == .obs || p == .cex || p == .srg || p == .ods || p == .engKeys || p == .mem || p == .link || p == .dom || p == .tdi || p == .out) s (ideFail sl s) := ideFail_keeps (Off.keeps _ _) rfl rfl rfl rfl rfl rfl rfl rfl rfl rfl rfl rfl .refl
  ⟨k.clk rfl, k.sen rfl, k.tamperIn rfl, k.xlt rfl, k.vault rfl, k.kst rfl, k.kwe rfl, k.pke rfl, k.ent rfl, k.atu rfl, k.lcc rfl, k.sheaf rfl, k.pins rfl, k.boot rfl, k.ac rfl, k.vt rfl, k.free rfl, k.pending rfl⟩

@[simp] theorem setBrownOut_same {die : Nat} {b : Bool} {s : State} :
    (setBrownOut die b s).clk = s.clk ∧ (setBrownOut die b s).rcv = s.rcv ∧ (setBrownOut die b s).icu = s.icu ∧ (setBrownOut die b s).obs = s.obs ∧ (setBrownOut die b s).tamperIn = s.tamperIn ∧ (setBrownOut die b s).cex = s.cex ∧ (setBrownOut die b s).xlt = s.xlt ∧ (setBrownOut die b s).srg = s.srg ∧ (setBrownOut die b s).ods = s.ods ∧ (setBrownOut die b s).vault = s.vault ∧ (setBrownOut die b s).kst = s.kst ∧ (setBrownOut die b s).engKeys = s.engKeys ∧ (setBrownOut die b s).kwe = s.kwe ∧ (setBrownOut die b s).pke = s.pke ∧ (setBrownOut die b s).ent = s.ent ∧ (setBrownOut die b s).atu = s.atu ∧ (setBrownOut die b s).lcc = s.lcc ∧ (setBrownOut die b s).mem = s.mem ∧ (setBrownOut die b s).link = s.link ∧ (setBrownOut die b s).sheaf = s.sheaf ∧ (setBrownOut die b s).dom = s.dom ∧ (setBrownOut die b s).pins = s.pins ∧ (setBrownOut die b s).boot = s.boot ∧ (setBrownOut die b s).tdi = s.tdi ∧ (setBrownOut die b s).ac = s.ac ∧ (setBrownOut die b s).vt = s.vt ∧ (setBrownOut die b s).free = s.free ∧ (setBrownOut die b s).out = s.out ∧ (setBrownOut die b s).pending = s.pending :=
  have k : Off (fun p => p == .sen) s (setBrownOut die b s) := setBrownOut_keeps (Off.keeps _ _) rfl .refl
  ⟨k.clk rfl, k.rcv rfl, k.icu rfl, k.obs rfl, k.tamperIn rfl, k.cex rfl, k.xlt rfl, k.srg rfl, k.ods rfl, k.vault rfl, k.kst rfl, k.engKeys rfl, k.kwe rfl, k.pke rfl, k.ent rfl, k.atu rfl, k.lcc rfl, k.mem rfl, k.link rfl, k.sheaf rfl, k.dom rfl, k.pins rfl, k.boot rfl, k.tdi rfl, k.ac rfl, k.vt rfl, k.free rfl, k.out rfl, k.pending rfl⟩

@[simp] theorem senDiscard_same {u : Nat} {s : State} :
    (senDiscard u s).clk = s.clk ∧ (senDiscard u s).tamperIn = s.tamperIn ∧ (senDiscard u s).cex = s.cex ∧ (senDiscard u s).xlt = s.xlt ∧ (senDiscard u s).srg = s.srg ∧ (senDiscard u s).ods = s.ods ∧ (senDiscard u s).vault = s.vault ∧ (senDiscard u s).kst = s.kst ∧ (senDiscard u s).engKeys = s.engKeys ∧ (senDiscard u s).kwe = s.kwe ∧ (senDiscard u s).pke = s.pke ∧ (senDiscard u s).ent = s.ent ∧ (senDiscard u s).atu = s.atu ∧ (senDiscard u s).lcc = s.lcc ∧ (senDiscard u s).mem = s.mem ∧ (senDiscard u s).link = s.link ∧ (senDiscard u s).sheaf = s.sheaf ∧ (senDiscard u s).dom = s.dom ∧ (senDiscard u s).pins = s.pins ∧ (senDiscard u s).boot = s.boot ∧ (senDiscard u s).tdi = s.tdi ∧ (senDiscard u s).ac = s.ac ∧ (senDiscard u s).vt = s.vt ∧ (senDiscard u s).free = s.free ∧ (senDiscard u s).pending = s.pending :=
  have k : Off (fun p => p == .rcv || p == .icu || p == .obs || p == .sen || p == .out) s (senDiscard u s) := senDiscard_keeps (Off.keeps _ _) rfl rfl rfl rfl rfl .refl
  ⟨k.clk rfl, k.tamperIn rfl, k.cex rfl, k.xlt rfl, k.srg rfl, k.ods rfl, k.vault rfl, k.kst rfl, k.engKeys rfl, k.kwe rfl, k.pke rfl, k.ent rfl, k.atu rfl, k.lcc rfl, k.mem rfl, k.link rfl, k.sheaf rfl, k.dom rfl, k.pins rfl, k.boot rfl, k.tdi rfl, k.ac rfl, k.vt rfl, k.free rfl, k.pending rfl⟩

@[simp] theorem vaultTrigger_same {cause : Nat} {s : State} :
    (vaultTrigger cause s).clk = s.clk ∧ (vaultTrigger cause s).rcv = s.rcv ∧ (vaultTrigger cause s).icu = s.icu ∧ (vaultTrigger cause s).obs = s.obs ∧ (vaultTrigger cause s).sen = s.sen ∧ (vaultTrigger cause s).tamperIn = s.tamperIn ∧ (vaultTrigger cause s).cex = s.cex ∧ (vaultTrigger cause s).xlt = s.xlt ∧ (vaultTrigger cause s).srg = s.srg ∧ (vaultTrigger cause s).ods = s.ods ∧ (vaultTrigger cause s).kst = s.kst ∧ (vaultTrigger cause s).engKeys = s.engKeys ∧ (vaultTrigger cause s).kwe = s.kwe ∧ (vaultTrigger cause s).pke = s.pke ∧ (vaultTrigger cause s).ent = s.ent ∧ (vaultTrigger cause s).atu = s.atu ∧ (vaultTrigger cause s).lcc = s.lcc ∧ (vaultTrigger cause s).mem = s.mem ∧ (vaultTrigger cause s).link = s.link ∧ (vaultTrigger cause s).sheaf = s.sheaf ∧ (vaultTrigger cause s).dom = s.dom ∧ (vaultTrigger cause s).pins = s.pins ∧ (vaultTrigger cause s).boot = s.boot ∧ (vaultTrigger cause s).tdi = s.tdi ∧ (vaultTrigger cause s).ac = s.ac ∧ (vaultTrigger cause s).vt = s.vt ∧ (vaultTrigger cause s).free = s.free ∧ (vaultTrigger cause s).out = s.out ∧ (vaultTrigger cause s).pending = s.pending :=
  have k : Off (fun p => p == .vault) s (vaultTrigger cause s) := vaultTrigger_keeps (Off.keeps _ _) rfl .refl
  ⟨k.clk rfl, k.rcv rfl, k.icu rfl, k.obs rfl, k.sen rfl, k.tamperIn rfl, k.cex rfl, k.xlt rfl, k.srg rfl, k.ods rfl, k.kst rfl, k.engKeys rfl, k.kwe rfl, k.pke rfl, k.ent rfl, k.atu rfl, k.lcc rfl, k.mem rfl, k.link rfl, k.sheaf rfl, k.dom rfl, k.pins rfl, k.boot rfl, k.tdi rfl, k.ac rfl, k.vt rfl, k.free rfl, k.out rfl, k.pending rfl⟩

@[simp] theorem senCount_same {s : State} :
    (senCount s).clk = s.clk ∧ (senCount s).rcv = s.rcv ∧ (senCount s).icu = s.icu ∧ (senCount s).obs = s.obs ∧ (senCount s).tamperIn = s.tamperIn ∧ (senCount s).cex = s.cex ∧ (senCount s).xlt = s.xlt ∧ (senCount s).srg = s.srg ∧ (senCount s).ods = s.ods ∧ (senCount s).kst = s.kst ∧ (senCount s).engKeys = s.engKeys ∧ (senCount s).kwe = s.kwe ∧ (senCount s).pke = s.pke ∧ (senCount s).ent = s.ent ∧ (senCount s).atu = s.atu ∧ (senCount s).lcc = s.lcc ∧ (senCount s).mem = s.mem ∧ (senCount s).link = s.link ∧ (senCount s).sheaf = s.sheaf ∧ (senCount s).dom = s.dom ∧ (senCount s).pins = s.pins ∧ (senCount s).boot = s.boot ∧ (senCount s).tdi = s.tdi ∧ (senCount s).ac = s.ac ∧ (senCount s).vt = s.vt ∧ (senCount s).free = s.free ∧ (senCount s).out = s.out ∧ (senCount s).pending = s.pending :=
  have k : Off (fun p => p == .sen || p == .vault) s (senCount s) := senCount_keeps (Off.keeps _ _) rfl rfl .refl
  ⟨k.clk rfl, k.rcv rfl, k.icu rfl, k.obs rfl, k.tamperIn rfl, k.cex rfl, k.xlt rfl, k.srg rfl, k.ods rfl, k.kst rfl, k.engKeys rfl, k.kwe rfl, k.pke rfl, k.ent rfl, k.atu rfl, k.lcc rfl, k.mem rfl, k.link rfl, k.sheaf rfl, k.dom rfl, k.pins rfl, k.boot rfl, k.tdi rfl, k.ac rfl, k.vt rfl, k.free rfl, k.out rfl, k.pending rfl⟩

@[simp] theorem switchTimer_same {base : Nat} {osc : Bool} {s : State} :
    (switchTimer base osc s).rcv = s.rcv ∧ (switchTimer base osc s).icu = s.icu ∧ (switchTimer base osc s).obs = s.obs ∧ (switchTimer base osc s).sen = s.sen ∧ (switchTimer base osc s).tamperIn = s.tamperIn ∧ (switchTimer base osc s).cex = s.cex ∧ (switchTimer base osc s).xlt = s.xlt ∧ (switchTimer base osc s).srg = s.srg ∧ (switchTimer base osc s).ods = s.ods ∧ (switchTimer base osc s).vault = s.vault ∧ (switchTimer base osc s).kst = s.kst ∧ (switchTimer base osc s).engKeys = s.engKeys ∧ (switchTimer base osc s).kwe = s.kwe ∧ (switchTimer base osc s).pke = s.pke ∧ (switchTimer base osc s).ent = s.ent ∧ (switchTimer base osc s).atu = s.atu ∧ (switchTimer base osc s).lcc = s.lcc ∧ (switchTimer base osc s).mem = s.mem ∧ (switchTimer base osc s).link = s.link ∧ (switchTimer base osc s).sheaf = s.sheaf ∧ (switchTimer base osc s).dom = s.dom ∧ (switchTimer base osc s).pins = s.pins ∧ (switchTimer base osc s).boot = s.boot ∧ (switchTimer base osc s).tdi = s.tdi ∧ (switchTimer base osc s).ac = s.ac ∧ (switchTimer base osc s).vt = s.vt ∧ (switchTimer base osc s).free = s.free ∧ (switchTimer base osc s).out = s.out ∧ (switchTimer base osc s).pending = s.pending :=
  have k : Off (fun p => p == .clk) s (switchTimer base osc s) := switchTimer_keeps (Off.keeps _ _) rfl .refl
  ⟨k.rcv rfl, k.icu rfl, k.obs rfl, k.sen rfl, k.tamperIn rfl, k.cex rfl, k.xlt rfl, k.srg rfl, k.ods rfl, k.vault rfl, k.kst rfl, k.engKeys rfl, k.kwe rfl, k.pke rfl, k.ent rfl, k.atu rfl, k.lcc rfl, k.mem rfl, k.link rfl, k.sheaf rfl, k.dom rfl, k.pins rfl, k.boot rfl, k.tdi rfl, k.ac rfl, k.vt rfl, k.free rfl, k.out rfl, k.pending rfl⟩

@[simp] theorem freezeNotice_same {s : State} :
    (freezeNotice s).clk = s.clk ∧ (freezeNotice s).rcv = s.rcv ∧ (freezeNotice s).obs = s.obs ∧ (freezeNotice s).sen = s.sen ∧ (freezeNotice s).tamperIn = s.tamperIn ∧ (freezeNotice s).cex = s.cex ∧ (freezeNotice s).xlt = s.xlt ∧ (freezeNotice s).srg = s.srg ∧ (freezeNotice s).ods = s.ods ∧ (freezeNotice s).vault = s.vault ∧ (freezeNotice s).kst = s.kst ∧ (freezeNotice s).engKeys = s.engKeys ∧ (freezeNotice s).kwe = s.kwe ∧ (freezeNotice s).pke = s.pke ∧ (freezeNotice s).ent = s.ent ∧ (freezeNotice s).atu = s.atu ∧ (freezeNotice s).lcc = s.lcc ∧ (freezeNotice s).mem = s.mem ∧ (freezeNotice s).link = s.link ∧ (freezeNotice s).sheaf = s.sheaf ∧ (freezeNotice s).dom = s.dom ∧ (freezeNotice s).pins = s.pins ∧ (freezeNotice s).boot = s.boot ∧ (freezeNotice s).tdi = s.tdi ∧ (freezeNotice s).ac = s.ac ∧ (freezeNotice s).vt = s.vt ∧ (freezeNotice s).free = s.free ∧ (freezeNotice s).out = s.out ∧ (freezeNotice s).pending = s.pending :=
  have k : Off (fun p => p == .icu) s (freezeNotice s) := freezeNotice_keeps (Off.keeps _ _) rfl .refl
  ⟨k.clk rfl, k.rcv rfl, k.obs rfl, k.sen rfl, k.tamperIn rfl, k.cex rfl, k.xlt rfl, k.srg rfl, k.ods rfl, k.vault rfl, k.kst rfl, k.engKeys rfl, k.kwe rfl, k.pke rfl, k.ent rfl, k.atu rfl, k.lcc rfl, k.mem rfl, k.link rfl, k.sheaf rfl, k.dom rfl, k.pins rfl, k.boot rfl, k.tdi rfl, k.ac rfl, k.vt rfl, k.free rfl, k.out rfl, k.pending rfl⟩

@[simp] theorem senOutlier_same {u canary : Nat} {s : State} :
    (senOutlier u canary s).clk = s.clk ∧ (senOutlier u canary s).tamperIn = s.tamperIn ∧ (senOutlier u canary s).cex = s.cex ∧ (senOutlier u canary s).xlt = s.xlt ∧ (senOutlier u canary s).srg = s.srg ∧ (senOutlier u canary s).ods = s.ods ∧ (senOutlier u canary s).kst = s.kst ∧ (senOutlier u canary s).engKeys = s.engKeys ∧ (senOutlier u canary s).kwe = s.kwe ∧ (senOutlier u canary s).pke = s.pke ∧ (senOutlier u canary s).ent = s.ent ∧ (senOutlier u canary s).atu = s.atu ∧ (senOutlier u canary s).lcc = s.lcc ∧ (senOutlier u canary s).mem = s.mem ∧ (senOutlier u canary s).link = s.link ∧ (senOutlier u canary s).sheaf = s.sheaf ∧ (senOutlier u canary s).dom = s.dom ∧ (senOutlier u canary s).pins = s.pins ∧ (senOutlier u canary s).boot = s.boot ∧ (senOutlier u canary s).tdi = s.tdi ∧ (senOutlier u canary s).ac = s.ac ∧ (senOutlier u canary s).vt = s.vt ∧ (senOutlier u canary s).free = s.free ∧ (senOutlier u canary s).pending = s.pending :=
  have k : Off (fun p => p == .rcv || p == .icu || p == .obs || p == .sen || p == .vault || p == .out) s (senOutlier u canary s) := senOutlier_keeps (Off.keeps _ _) rfl rfl rfl rfl rfl rfl .refl
  ⟨k.clk rfl, k.tamperIn rfl, k.cex rfl, k.xlt rfl, k.srg rfl, k.ods rfl, k.kst rfl, k.engKeys rfl, k.kwe rfl, k.pke rfl, k.ent rfl, k.atu rfl, k.lcc rfl, k.mem rfl, k.link rfl, k.sheaf rfl, k.dom rfl, k.pins rfl, k.boot rfl, k.tdi rfl, k.ac rfl, k.vt rfl, k.free rfl, k.pending rfl⟩

@[simp] theorem canarySample_same {u c x : Nat} {s : State} :
    (canarySample u c x s).clk = s.clk ∧ (canarySample u c x s).tamperIn = s.tamperIn ∧ (canarySample u c x s).cex = s.cex ∧ (canarySample u c x s).xlt = s.xlt ∧ (canarySample u c x s).srg = s.srg ∧ (canarySample u c x s).ods = s.ods ∧ (canarySample u c x s).kst = s.kst ∧ (canarySample u c x s).engKeys = s.engKeys ∧ (canarySample u c x s).kwe = s.kwe ∧ (canarySample u c x s).pke = s.pke ∧ (canarySample u c x s).ent = s.ent ∧ (canarySample u c x s).atu = s.atu ∧ (canarySample u c x s).lcc = s.lcc ∧ (canarySample u c x s).mem = s.mem ∧ (canarySample u c x s).link = s.link ∧ (canarySample u c x s).sheaf = s.sheaf ∧ (canarySample u c x s).dom = s.dom ∧ (canarySample u c x s).pins = s.pins ∧ (canarySample u c x s).boot = s.boot ∧ (canarySample u c x s).tdi = s.tdi ∧ (canarySample u c x s).ac = s.ac ∧ (canarySample u c x s).vt = s.vt ∧ (canarySample u c x s).free = s.free ∧ (canarySample u c x s).pending = s.pending :=
  have k : Off (fun p => p == .rcv || p == .icu || p == .obs || p == .sen || p == .vault || p == .out) s (canarySample u c x s) := canarySample_keeps (Off.keeps _ _) rfl rfl rfl rfl rfl rfl .refl
  ⟨k.clk rfl, k.tamperIn rfl, k.cex rfl, k.xlt rfl, k.srg rfl, k.ods rfl, k.kst rfl, k.engKeys rfl, k.kwe rfl, k.pke rfl, k.ent rfl, k.atu rfl, k.lcc rfl, k.mem rfl, k.link rfl, k.sheaf rfl, k.dom rfl, k.pins rfl, k.boot rfl, k.tdi rfl, k.ac rfl, k.vt rfl, k.free rfl, k.pending rfl⟩

@[simp] theorem openEdge_same {sl peer : Nat} {rx : Bool} {key : BitVec 256} {s : State} :
    (openEdge sl peer rx key s).clk = s.clk ∧ (openEdge sl peer rx key s).rcv = s.rcv ∧ (openEdge sl peer rx key s).icu = s.icu ∧ (openEdge sl peer rx key s).obs = s.obs ∧ (openEdge sl peer rx key s).sen = s.sen ∧ (openEdge sl peer rx key s).tamperIn = s.tamperIn ∧ (openEdge sl peer rx key s).cex = s.cex ∧ (openEdge sl peer rx key s).xlt = s.xlt ∧ (openEdge sl peer rx key s).srg = s.srg ∧ (openEdge sl peer rx key s).ods = s.ods ∧ (openEdge sl peer rx key s).vault = s.vault ∧ (openEdge sl peer rx key s).kst = s.kst ∧ (openEdge sl peer rx key s).pke = s.pke ∧ (openEdge sl peer rx key s).atu = s.atu ∧ (openEdge sl peer rx key s).lcc = s.lcc ∧ (openEdge sl peer rx key s).mem = s.mem ∧ (openEdge sl peer rx key s).sheaf = s.sheaf ∧ (openEdge sl peer rx key s).dom = s.dom ∧ (openEdge sl peer rx key s).pins = s.pins ∧ (openEdge sl peer rx key s).boot = s.boot ∧ (openEdge sl peer rx key s).tdi = s.tdi ∧ (openEdge sl peer rx key s).ac = s.ac ∧ (openEdge sl peer rx key s).vt = s.vt ∧ (openEdge sl peer rx key s).free = s.free ∧ (openEdge sl peer rx key s).out = s.out ∧ (openEdge sl peer rx key s).pending = s.pending :=
  have k : Off (fun p => p == .engKeys || p == .kwe || p == .ent || p == .link) s (openEdge sl peer rx key s) := openEdge_keeps (Off.keeps _ _) rfl rfl rfl rfl .refl
  ⟨k.clk rfl, k.rcv rfl, k.icu rfl, k.obs rfl, k.sen rfl, k.tamperIn rfl, k.cex rfl, k.xlt rfl, k.srg rfl, k.ods rfl, k.vault rfl, k.kst rfl, k.pke rfl, k.atu rfl, k.lcc rfl, k.mem rfl, k.sheaf rfl, k.dom rfl, k.pins rfl, k.boot rfl, k.tdi rfl, k.ac rfl, k.vt rfl, k.free rfl, k.out rfl, k.pending rfl⟩

@[simp] theorem openEdges_same {sl me peer : Nat} {hs : BitVec 256} {s : State} :
    (openEdges sl me peer hs s).clk = s.clk ∧ (openEdges sl me peer hs s).rcv = s.rcv ∧ (openEdges sl me peer hs s).icu = s.icu ∧ (openEdges sl me peer hs s).obs = s.obs ∧ (openEdges sl me peer hs s).sen = s.sen ∧ (openEdges sl me peer hs s).tamperIn = s.tamperIn ∧ (openEdges sl me peer hs s).cex = s.cex ∧ (openEdges sl me peer hs s).xlt = s.xlt ∧ (openEdges sl me peer hs s).srg = s.srg ∧ (openEdges sl me peer hs s).ods = s.ods ∧ (openEdges sl me peer hs s).vault = s.vault ∧ (openEdges sl me peer hs s).kst = s.kst ∧ (openEdges sl me peer hs s).pke = s.pke ∧ (openEdges sl me peer hs s).atu = s.atu ∧ (openEdges sl me peer hs s).lcc = s.lcc ∧ (openEdges sl me peer hs s).mem = s.mem ∧ (openEdges sl me peer hs s).sheaf = s.sheaf ∧ (openEdges sl me peer hs s).dom = s.dom ∧ (openEdges sl me peer hs s).pins = s.pins ∧ (openEdges sl me peer hs s).boot = s.boot ∧ (openEdges sl me peer hs s).tdi = s.tdi ∧ (openEdges sl me peer hs s).ac = s.ac ∧ (openEdges sl me peer hs s).vt = s.vt ∧ (openEdges sl me peer hs s).free = s.free ∧ (openEdges sl me peer hs s).out = s.out ∧ (openEdges sl me peer hs s).pending = s.pending :=
  have k : Off (fun p => p == .engKeys || p == .kwe || p == .ent || p == .link) s (openEdges sl me peer hs s) := openEdges_keeps (Off.keeps _ _) rfl rfl rfl rfl .refl
  ⟨k.clk rfl, k.rcv rfl, k.icu rfl, k.obs rfl, k.sen rfl, k.tamperIn rfl, k.cex rfl, k.xlt rfl, k.srg rfl, k.ods rfl, k.vault rfl, k.kst rfl, k.pke rfl, k.atu rfl, k.lcc rfl, k.mem rfl, k.sheaf rfl, k.dom rfl, k.pins rfl, k.boot rfl, k.tdi rfl, k.ac rfl, k.vt rfl, k.free rfl, k.out rfl, k.pending rfl⟩

@[simp] theorem extendSmr_same {i : Nat} {d : BitVec 384} {s : State} :
    (extendSmr i d s).clk = s.clk ∧ (extendSmr i d s).rcv = s.rcv ∧ (extendSmr i d s).icu = s.icu ∧ (extendSmr i d s).obs = s.obs ∧ (extendSmr i d s).sen = s.sen ∧ (extendSmr i d s).tamperIn = s.tamperIn ∧ (extendSmr i d s).cex = s.cex ∧ (extendSmr i d s).xlt = s.xlt ∧ (extendSmr i d s).srg = s.srg ∧ (extendSmr i d s).ods = s.ods ∧ (extendSmr i d s).vault = s.vault ∧ (extendSmr i d s).kst = s.kst ∧ (extendSmr i d s).engKeys = s.engKeys ∧ (extendSmr i d s).kwe = s.kwe ∧ (extendSmr i d s).pke = s.pke ∧ (extendSmr i d s).ent = s.ent ∧ (extendSmr i d s).lcc = s.lcc ∧ (extendSmr i d s).mem = s.mem ∧ (extendSmr i d s).link = s.link ∧ (extendSmr i d s).sheaf = s.sheaf ∧ (extendSmr i d s).dom = s.dom ∧ (extendSmr i d s).pins = s.pins ∧ (extendSmr i d s).boot = s.boot ∧ (extendSmr i d s).tdi = s.tdi ∧ (extendSmr i d s).ac = s.ac ∧ (extendSmr i d s).vt = s.vt ∧ (extendSmr i d s).free = s.free ∧ (extendSmr i d s).out = s.out ∧ (extendSmr i d s).pending = s.pending :=
  have k : Off (fun p => p == .atu) s (extendSmr i d s) := extendSmr_keeps (Off.keeps _ _) rfl .refl
  ⟨k.clk rfl, k.rcv rfl, k.icu rfl, k.obs rfl, k.sen rfl, k.tamperIn rfl, k.cex rfl, k.xlt rfl, k.srg rfl, k.ods rfl, k.vault rfl, k.kst rfl, k.engKeys rfl, k.kwe rfl, k.pke rfl, k.ent rfl, k.lcc rfl, k.mem rfl, k.link rfl, k.sheaf rfl, k.dom rfl, k.pins rfl, k.boot rfl, k.tdi rfl, k.ac rfl, k.vt rfl, k.free rfl, k.out rfl, k.pending rfl⟩

@[simp] theorem zeroizeSlot_same {n : Nat} {s : State} :
    (zeroizeSlot n s).clk = s.clk ∧ (zeroizeSlot n s).rcv = s.rcv ∧ (zeroizeSlot n s).icu = s.icu ∧ (zeroizeSlot n s).obs = s.obs ∧ (zeroizeSlot n s).sen = s.sen ∧ (zeroizeSlot n s).tamperIn = s.tamperIn ∧ (zeroizeSlot n s).cex = s.cex ∧ (zeroizeSlot n s).xlt = s.xlt ∧ (zeroizeSlot n s).srg = s.srg ∧ (zeroizeSlot n s).ods = s.ods ∧ (zeroizeSlot n s).vault = s.vault ∧ (zeroizeSlot n s).pke = s.pke ∧ (zeroizeSlot n s).ent = s.ent ∧ (zeroizeSlot n s).atu = s.atu ∧ (zeroizeSlot n s).lcc = s.lcc ∧ (zeroizeSlot n s).mem = s.mem ∧ (zeroizeSlot n s).link = s.link ∧ (zeroizeSlot n s).sheaf = s.sheaf ∧ (zeroizeSlot n s).dom = s.dom ∧ (zeroizeSlot n s).pins = s.pins ∧ (zeroizeSlot n s).boot = s.boot ∧ (zeroizeSlot n s).tdi = s.tdi ∧ (zeroizeSlot n s).ac = s.ac ∧ (zeroizeSlot n s).vt = s.vt ∧ (zeroizeSlot n s).free = s.free ∧ (zeroizeSlot n s).out = s.out ∧ (zeroizeSlot n s).pending = s.pending :=
  have k : Off (fun p => p == .kst || p == .engKeys || p == .kwe) s (zeroizeSlot n s) := zeroizeSlot_keeps (Off.keeps _ _) rfl rfl rfl .refl
  ⟨k.clk rfl, k.rcv rfl, k.icu rfl, k.obs rfl, k.sen rfl, k.tamperIn rfl, k.cex rfl, k.xlt rfl, k.srg rfl, k.ods rfl, k.vault rfl, k.pke rfl, k.ent rfl, k.atu rfl, k.lcc rfl, k.mem rfl, k.link rfl, k.sheaf rfl, k.dom rfl, k.pins rfl, k.boot rfl, k.tdi rfl, k.ac rfl, k.vt rfl, k.free rfl, k.out rfl, k.pending rfl⟩

@[simp] theorem cacheCerts_same {cs : List Bytes} {s : State} :
    (cacheCerts cs s).clk = s.clk ∧ (cacheCerts cs s).rcv = s.rcv ∧ (cacheCerts cs s).icu = s.icu ∧ (cacheCerts cs s).obs = s.obs ∧ (cacheCerts cs s).sen = s.sen ∧ (cacheCerts cs s).tamperIn = s.tamperIn ∧ (cacheCerts cs s).cex = s.cex ∧ (cacheCerts cs s).xlt = s.xlt ∧ (cacheCerts cs s).srg = s.srg ∧ (cacheCerts cs s).ods = s.ods ∧ (cacheCerts cs s).vault = s.vault ∧ (cacheCerts cs s).kst = s.kst ∧ (cacheCerts cs s).engKeys = s.engKeys ∧ (cacheCerts cs s).kwe = s.kwe ∧ (cacheCerts cs s).pke = s.pke ∧ (cacheCerts cs s).ent = s.ent ∧ (cacheCerts cs s).atu = s.atu ∧ (cacheCerts cs s).lcc = s.lcc ∧ (cacheCerts cs s).mem = s.mem ∧ (cacheCerts cs s).link = s.link ∧ (cacheCerts cs s).sheaf = s.sheaf ∧ (cacheCerts cs s).pins = s.pins ∧ (cacheCerts cs s).boot = s.boot ∧ (cacheCerts cs s).tdi = s.tdi ∧ (cacheCerts cs s).ac = s.ac ∧ (cacheCerts cs s).vt = s.vt ∧ (cacheCerts cs s).free = s.free ∧ (cacheCerts cs s).out = s.out ∧ (cacheCerts cs s).pending = s.pending :=
  have k : Off (fun p => p == .dom) s (cacheCerts cs s) := cacheCerts_keeps (Off.keeps _ _) rfl .refl
  ⟨k.clk rfl, k.rcv rfl, k.icu rfl, k.obs rfl, k.sen rfl, k.tamperIn rfl, k.cex rfl, k.xlt rfl, k.srg rfl, k.ods rfl, k.vault rfl, k.kst rfl, k.engKeys rfl, k.kwe rfl, k.pke rfl, k.ent rfl, k.atu rfl, k.lcc rfl, k.mem rfl, k.link rfl, k.sheaf rfl, k.pins rfl, k.boot rfl, k.tdi rfl, k.ac rfl, k.vt rfl, k.free rfl, k.out rfl, k.pending rfl⟩

@[simp] theorem putKey_same {sl ctx n origin : Nat} {zoa : Bool} {key : BitVec 256} {wrapId : BitVec 128} {s : State} :
    (putKey sl ctx n origin zoa key wrapId s).clk = s.clk ∧ (putKey sl ctx n origin zoa key wrapId s).rcv = s.rcv ∧ (putKey sl ctx n origin zoa key wrapId s).icu = s.icu ∧ (putKey sl ctx n origin zoa key wrapId s).obs = s.obs ∧ (putKey sl ctx n origin zoa key wrapId s).sen = s.sen ∧ (putKey sl ctx n origin zoa key wrapId s).tamperIn = s.tamperIn ∧ (putKey sl ctx n origin zoa key wrapId s).cex = s.cex ∧ (putKey sl ctx n origin zoa key wrapId s).xlt = s.xlt ∧ (putKey sl ctx n origin zoa key wrapId s).srg = s.srg ∧ (putKey sl ctx n origin zoa key wrapId s).ods = s.ods ∧ (putKey sl ctx n origin zoa key wrapId s).vault = s.vault ∧ (putKey sl ctx n origin zoa key wrapId s).engKeys = s.engKeys ∧ (putKey sl ctx n origin zoa key wrapId s).pke = s.pke ∧ (putKey sl ctx n origin zoa key wrapId s).atu = s.atu ∧ (putKey sl ctx n origin zoa key wrapId s).lcc = s.lcc ∧ (putKey sl ctx n origin zoa key wrapId s).mem = s.mem ∧ (putKey sl ctx n origin zoa key wrapId s).link = s.link ∧ (putKey sl ctx n origin zoa key wrapId s).sheaf = s.sheaf ∧ (putKey sl ctx n origin zoa key wrapId s).dom = s.dom ∧ (putKey sl ctx n origin zoa key wrapId s).pins = s.pins ∧ (putKey sl ctx n origin zoa key wrapId s).boot = s.boot ∧ (putKey sl ctx n origin zoa key wrapId s).tdi = s.tdi ∧ (putKey sl ctx n origin zoa key wrapId s).ac = s.ac ∧ (putKey sl ctx n origin zoa key wrapId s).vt = s.vt ∧ (putKey sl ctx n origin zoa key wrapId s).free = s.free ∧ (putKey sl ctx n origin zoa key wrapId s).out = s.out ∧ (putKey sl ctx n origin zoa key wrapId s).pending = s.pending :=
  have k : Off (fun p => p == .kst || p == .kwe || p == .ent) s (putKey sl ctx n origin zoa key wrapId s) := putKey_keeps (Off.keeps _ _) rfl rfl rfl .refl
  ⟨k.clk rfl, k.rcv rfl, k.icu rfl, k.obs rfl, k.sen rfl, k.tamperIn rfl, k.cex rfl, k.xlt rfl, k.srg rfl, k.ods rfl, k.vault rfl, k.engKeys rfl, k.pke rfl, k.atu rfl, k.lcc rfl, k.mem rfl, k.link rfl, k.sheaf rfl, k.dom rfl, k.pins rfl, k.boot rfl, k.tdi rfl, k.ac rfl, k.vt rfl, k.free rfl, k.out rfl, k.pending rfl⟩

@[simp] theorem closeEdge_same {sl peer : Nat} {s : State} :
    (closeEdge sl peer s).clk = s.clk ∧ (closeEdge sl peer s).rcv = s.rcv ∧ (closeEdge sl peer s).icu = s.icu ∧ (closeEdge sl peer s).obs = s.obs ∧ (closeEdge sl peer s).sen = s.sen ∧ (closeEdge sl peer s).tamperIn = s.tamperIn ∧ (closeEdge sl peer s).cex = s.cex ∧ (closeEdge sl peer s).xlt = s.xlt ∧ (closeEdge sl peer s).srg = s.srg ∧ (closeEdge sl peer s).ods = s.ods ∧ (closeEdge sl peer s).vault = s.vault ∧ (closeEdge sl peer s).kst = s.kst ∧ (closeEdge sl peer s).kwe = s.kwe ∧ (closeEdge sl peer s).pke = s.pke ∧ (closeEdge sl peer s).ent = s.ent ∧ (closeEdge sl peer s).atu = s.atu ∧ (closeEdge sl peer s).lcc = s.lcc ∧ (closeEdge sl peer s).mem = s.mem ∧ (closeEdge sl peer s).sheaf = s.sheaf ∧ (closeEdge sl peer s).dom = s.dom ∧ (closeEdge sl peer s).pins = s.pins ∧ (closeEdge sl peer s).boot = s.boot ∧ (closeEdge sl peer s).tdi = s.tdi ∧ (closeEdge sl peer s).ac = s.ac ∧ (closeEdge sl peer s).vt = s.vt ∧ (closeEdge sl peer s).free = s.free ∧ (closeEdge sl peer s).out = s.out ∧ (closeEdge sl peer s).pending = s.pending :=
  have k : Off (fun p => p == .engKeys || p == .link) s (closeEdge sl peer s) := closeEdge_keeps (Off.keeps _ _) rfl rfl .refl
  ⟨k.clk rfl, k.rcv rfl, k.icu rfl, k.obs rfl, k.sen rfl, k.tamperIn rfl, k.cex rfl, k.xlt rfl, k.srg rfl, k.ods rfl, k.vault rfl, k.kst rfl, k.kwe rfl, k.pke rfl, k.ent rfl, k.atu rfl, k.lcc rfl, k.mem rfl, k.sheaf rfl, k.dom rfl, k.pins rfl, k.boot rfl, k.tdi rfl, k.ac rfl, k.vt rfl, k.free rfl, k.out rfl, k.pending rfl⟩

@[simp] theorem dlkEdge_same {sl peer : Nat} {rx : Bool} {s : State} :
    (dlkEdge sl peer rx s).clk = s.clk ∧ (dlkEdge sl peer rx s).rcv = s.rcv ∧ (dlkEdge sl peer rx s).icu = s.icu ∧ (dlkEdge sl peer rx s).obs = s.obs ∧ (dlkEdge sl peer rx s).sen = s.sen ∧ (dlkEdge sl peer rx s).tamperIn = s.tamperIn ∧ (dlkEdge sl peer rx s).cex = s.cex ∧ (dlkEdge sl peer rx s).xlt = s.xlt ∧ (dlkEdge sl peer rx s).srg = s.srg ∧ (dlkEdge sl peer rx s).ods = s.ods ∧ (dlkEdge sl peer rx s).vault = s.vault ∧ (dlkEdge sl peer rx s).kst = s.kst ∧ (dlkEdge sl peer rx s).pke = s.pke ∧ (dlkEdge sl peer rx s).atu = s.atu ∧ (dlkEdge sl peer rx s).lcc = s.lcc ∧ (dlkEdge sl peer rx s).mem = s.mem ∧ (dlkEdge sl peer rx s).sheaf = s.sheaf ∧ (dlkEdge sl peer rx s).dom = s.dom ∧ (dlkEdge sl peer rx s).pins = s.pins ∧ (dlkEdge sl peer rx s).boot = s.boot ∧ (dlkEdge sl peer rx s).tdi = s.tdi ∧ (dlkEdge sl peer rx s).ac = s.ac ∧ (dlkEdge sl peer rx s).vt = s.vt ∧ (dlkEdge sl peer rx s).free = s.free ∧ (dlkEdge sl peer rx s).out = s.out ∧ (dlkEdge sl peer rx s).pending = s.pending :=
  have k : Off (fun p => p == .engKeys || p == .kwe || p == .ent || p == .link) s (dlkEdge sl peer rx s) := dlkEdge_keeps (Off.keeps _ _) rfl rfl rfl rfl .refl
  ⟨k.clk rfl, k.rcv rfl, k.icu rfl, k.obs rfl, k.sen rfl, k.tamperIn rfl, k.cex rfl, k.xlt rfl, k.srg rfl, k.ods rfl, k.vault rfl, k.kst rfl, k.pke rfl, k.atu rfl, k.lcc rfl, k.mem rfl, k.sheaf rfl, k.dom rfl, k.pins rfl, k.boot rfl, k.tdi rfl, k.ac rfl, k.vt rfl, k.free rfl, k.out rfl, k.pending rfl⟩

@[simp] theorem extendMr_same {i : Nat} {d : BitVec 384} {s : State} :
    (extendMr i d s).clk = s.clk ∧ (extendMr i d s).rcv = s.rcv ∧ (extendMr i d s).icu = s.icu ∧ (extendMr i d s).obs = s.obs ∧ (extendMr i d s).sen = s.sen ∧ (extendMr i d s).tamperIn = s.tamperIn ∧ (extendMr i d s).cex = s.cex ∧ (extendMr i d s).xlt = s.xlt ∧ (extendMr i d s).srg = s.srg ∧ (extendMr i d s).ods = s.ods ∧ (extendMr i d s).vault = s.vault ∧ (extendMr i d s).kst = s.kst ∧ (extendMr i d s).engKeys = s.engKeys ∧ (extendMr i d s).kwe = s.kwe ∧ (extendMr i d s).pke = s.pke ∧ (extendMr i d s).ent = s.ent ∧ (extendMr i d s).lcc = s.lcc ∧ (extendMr i d s).mem = s.mem ∧ (extendMr i d s).link = s.link ∧ (extendMr i d s).sheaf = s.sheaf ∧ (extendMr i d s).dom = s.dom ∧ (extendMr i d s).pins = s.pins ∧ (extendMr i d s).boot = s.boot ∧ (extendMr i d s).tdi = s.tdi ∧ (extendMr i d s).ac = s.ac ∧ (extendMr i d s).vt = s.vt ∧ (extendMr i d s).free = s.free ∧ (extendMr i d s).out = s.out ∧ (extendMr i d s).pending = s.pending :=
  have k : Off (fun p => p == .atu) s (extendMr i d s) := extendMr_keeps (Off.keeps _ _) rfl .refl
  ⟨k.clk rfl, k.rcv rfl, k.icu rfl, k.obs rfl, k.sen rfl, k.tamperIn rfl, k.cex rfl, k.xlt rfl, k.srg rfl, k.ods rfl, k.vault rfl, k.kst rfl, k.engKeys rfl, k.kwe rfl, k.pke rfl, k.ent rfl, k.lcc rfl, k.mem rfl, k.link rfl, k.sheaf rfl, k.dom rfl, k.pins rfl, k.boot rfl, k.tdi rfl, k.ac rfl, k.vt rfl, k.free rfl, k.out rfl, k.pending rfl⟩

@[simp] theorem clearRoot_same {s : State} :
    (clearRoot s).clk = s.clk ∧ (clearRoot s).rcv = s.rcv ∧ (clearRoot s).icu = s.icu ∧ (clearRoot s).obs = s.obs ∧ (clearRoot s).sen = s.sen ∧ (clearRoot s).tamperIn = s.tamperIn ∧ (clearRoot s).cex = s.cex ∧ (clearRoot s).xlt = s.xlt ∧ (clearRoot s).srg = s.srg ∧ (clearRoot s).ods = s.ods ∧ (clearRoot s).kst = s.kst ∧ (clearRoot s).engKeys = s.engKeys ∧ (clearRoot s).kwe = s.kwe ∧ (clearRoot s).pke = s.pke ∧ (clearRoot s).ent = s.ent ∧ (clearRoot s).atu = s.atu ∧ (clearRoot s).lcc = s.lcc ∧ (clearRoot s).mem = s.mem ∧ (clearRoot s).link = s.link ∧ (clearRoot s).sheaf = s.sheaf ∧ (clearRoot s).dom = s.dom ∧ (clearRoot s).pins = s.pins ∧ (clearRoot s).boot = s.boot ∧ (clearRoot s).tdi = s.tdi ∧ (clearRoot s).ac = s.ac ∧ (clearRoot s).vt = s.vt ∧ (clearRoot s).free = s.free ∧ (clearRoot s).out = s.out ∧ (clearRoot s).pending = s.pending :=
  have k : Off (fun p => p == .vault) s (clearRoot s) := clearRoot_keeps (Off.keeps _ _) rfl .refl
  ⟨k.clk rfl, k.rcv rfl, k.icu rfl, k.obs rfl, k.sen rfl, k.tamperIn rfl, k.cex rfl, k.xlt rfl, k.srg rfl, k.ods rfl, k.kst rfl, k.engKeys rfl, k.kwe rfl, k.pke rfl, k.ent rfl, k.atu rfl, k.lcc rfl, k.mem rfl, k.link rfl, k.sheaf rfl, k.dom rfl, k.pins rfl, k.boot rfl, k.tdi rfl, k.ac rfl, k.vt rfl, k.free rfl, k.out rfl, k.pending rfl⟩

@[simp] theorem silenceSlice_same {sl : Nat} {s : State} :
    (silenceSlice sl s).clk = s.clk ∧ (silenceSlice sl s).sen = s.sen ∧ (silenceSlice sl s).tamperIn = s.tamperIn ∧ (silenceSlice sl s).xlt = s.xlt ∧ (silenceSlice sl s).srg = s.srg ∧ (silenceSlice sl s).ods = s.ods ∧ (silenceSlice sl s).vault = s.vault ∧ (silenceSlice sl s).ent = s.ent ∧ (silenceSlice sl s).atu = s.atu ∧ (silenceSlice sl s).lcc = s.lcc ∧ (silenceSlice sl s).boot = s.boot ∧ (silenceSlice sl s).tdi = s.tdi ∧ (silenceSlice sl s).free = s.free ∧ (silenceSlice sl s).pending = s.pending :=
  have k : Off (fun p => p == .rcv || p == .icu || p == .obs || p == .cex || p == .kst || p == .engKeys || p == .kwe || p == .pke || p == .mem || p == .link || p == .sheaf || p == .dom || p == .pins || p == .ac || p == .vt || p == .out) s (silenceSlice sl s) := silenceSlice_keeps (Off.keeps _ _) rfl rfl rfl rfl rfl rfl rfl rfl rfl rfl rfl rfl rfl rfl rfl rfl .refl
  ⟨k.clk rfl, k.sen rfl, k.tamperIn rfl, k.xlt rfl, k.srg rfl, k.ods rfl, k.vault rfl, k.ent rfl, k.atu rfl, k.lcc rfl, k.boot rfl, k.tdi rfl, k.free rfl, k.pending rfl⟩

@[simp] theorem tamperRecords_same {s : State} :
    (tamperRecords s).clk = s.clk ∧ (tamperRecords s).sen = s.sen ∧ (tamperRecords s).tamperIn = s.tamperIn ∧ (tamperRecords s).xlt = s.xlt ∧ (tamperRecords s).srg = s.srg ∧ (tamperRecords s).ods = s.ods ∧ (tamperRecords s).vault = s.vault ∧ (tamperRecords s).kst = s.kst ∧ (tamperRecords s).engKeys = s.engKeys ∧ (tamperRecords s).kwe = s.kwe ∧ (tamperRecords s).pke = s.pke ∧ (tamperRecords s).ent = s.ent ∧ (tamperRecords s).atu = s.atu ∧ (tamperRecords s).lcc = s.lcc ∧ (tamperRecords s).mem = s.mem ∧ (tamperRecords s).link = s.link ∧ (tamperRecords s).sheaf = s.sheaf ∧ (tamperRecords s).dom = s.dom ∧ (tamperRecords s).pins = s.pins ∧ (tamperRecords s).boot = s.boot ∧ (tamperRecords s).tdi = s.tdi ∧ (tamperRecords s).ac = s.ac ∧ (tamperRecords s).vt = s.vt ∧ (tamperRecords s).free = s.free ∧ (tamperRecords s).pending = s.pending :=
  have k : Off (fun p => p == .rcv || p == .icu || p == .obs || p == .cex || p == .out) s (tamperRecords s) := tamperRecords_keeps (Off.keeps _ _) rfl rfl rfl rfl rfl .refl
  ⟨k.clk rfl, k.sen rfl, k.tamperIn rfl, k.xlt rfl, k.srg rfl, k.ods rfl, k.vault rfl, k.kst rfl, k.engKeys rfl, k.kwe rfl, k.pke rfl, k.ent rfl, k.atu rfl, k.lcc rfl, k.mem rfl, k.link rfl, k.sheaf rfl, k.dom rfl, k.pins rfl, k.boot rfl, k.tdi rfl, k.ac rfl, k.vt rfl, k.free rfl, k.pending rfl⟩

@[simp] theorem setScopes_same {bits : Nat} {s : State} :
    (setScopes bits s).clk = s.clk ∧ (setScopes bits s).rcv = s.rcv ∧ (setScopes bits s).icu = s.icu ∧ (setScopes bits s).obs = s.obs ∧ (setScopes bits s).sen = s.sen ∧ (setScopes bits s).tamperIn = s.tamperIn ∧ (setScopes bits s).cex = s.cex ∧ (setScopes bits s).xlt = s.xlt ∧ (setScopes bits s).srg = s.srg ∧ (setScopes bits s).ods = s.ods ∧ (setScopes bits s).vault = s.vault ∧ (setScopes bits s).kst = s.kst ∧ (setScopes bits s).engKeys = s.engKeys ∧ (setScopes bits s).kwe = s.kwe ∧ (setScopes bits s).pke = s.pke ∧ (setScopes bits s).ent = s.ent ∧ (setScopes bits s).mem = s.mem ∧ (setScopes bits s).link = s.link ∧ (setScopes bits s).sheaf = s.sheaf ∧ (setScopes bits s).dom = s.dom ∧ (setScopes bits s).pins = s.pins ∧ (setScopes bits s).boot = s.boot ∧ (setScopes bits s).tdi = s.tdi ∧ (setScopes bits s).ac = s.ac ∧ (setScopes bits s).vt = s.vt ∧ (setScopes bits s).free = s.free ∧ (setScopes bits s).out = s.out ∧ (setScopes bits s).pending = s.pending :=
  have k : Off (fun p => p == .atu || p == .lcc) s (setScopes bits s) := setScopes_keeps (Off.keeps _ _) rfl rfl .refl
  ⟨k.clk rfl, k.rcv rfl, k.icu rfl, k.obs rfl, k.sen rfl, k.tamperIn rfl, k.cex rfl, k.xlt rfl, k.srg rfl, k.ods rfl, k.vault rfl, k.kst rfl, k.engKeys rfl, k.kwe rfl, k.pke rfl, k.ent rfl, k.mem rfl, k.link rfl, k.sheaf rfl, k.dom rfl, k.pins rfl, k.boot rfl, k.tdi rfl, k.ac rfl, k.vt rfl, k.free rfl, k.out rfl, k.pending rfl⟩

@[simp] theorem updAlarm_same {s : State} :
    (updAlarm s).clk = s.clk ∧ (updAlarm s).rcv = s.rcv ∧ (updAlarm s).icu = s.icu ∧ (updAlarm s).obs = s.obs ∧ (updAlarm s).sen = s.sen ∧ (updAlarm s).tamperIn = s.tamperIn ∧ (updAlarm s).cex = s.cex ∧ (updAlarm s).xlt = s.xlt ∧ (updAlarm s).srg = s.srg ∧ (updAlarm s).ods = s.ods ∧ (updAlarm s).vault = s.vault ∧ (updAlarm s).kst = s.kst ∧ (updAlarm s).engKeys = s.engKeys ∧ (updAlarm s).kwe = s.kwe ∧ (updAlarm s).pke = s.pke ∧ (updAlarm s).ent = s.ent ∧ (updAlarm s).atu = s.atu ∧ (updAlarm s).lcc = s.lcc ∧ (updAlarm s).mem = s.mem ∧ (updAlarm s).link = s.link ∧ (updAlarm s).sheaf = s.sheaf ∧ (updAlarm s).dom = s.dom ∧ (updAlarm s).boot = s.boot ∧ (updAlarm s).tdi = s.tdi ∧ (updAlarm s).ac = s.ac ∧ (updAlarm s).vt = s.vt ∧ (updAlarm s).free = s.free ∧ (updAlarm s).out = s.out ∧ (updAlarm s).pending = s.pending :=
  have k : Off (fun p => p == .pins) s (updAlarm s) := updAlarm_keeps (Off.keeps _ _) rfl .refl
  ⟨k.clk rfl, k.rcv rfl, k.icu rfl, k.obs rfl, k.sen rfl, k.tamperIn rfl, k.cex rfl, k.xlt rfl, k.srg rfl, k.ods rfl, k.vault rfl, k.kst rfl, k.engKeys rfl, k.kwe rfl, k.pke rfl, k.ent rfl, k.atu rfl, k.lcc rfl, k.mem rfl, k.link rfl, k.sheaf rfl, k.dom rfl, k.boot rfl, k.tdi rfl, k.ac rfl, k.vt rfl, k.free rfl, k.out rfl, k.pending rfl⟩

@[simp] theorem provisionRoot_same {s : State} :
    (provisionRoot s).clk = s.clk ∧ (provisionRoot s).rcv = s.rcv ∧ (provisionRoot s).icu = s.icu ∧ (provisionRoot s).obs = s.obs ∧ (provisionRoot s).sen = s.sen ∧ (provisionRoot s).tamperIn = s.tamperIn ∧ (provisionRoot s).cex = s.cex ∧ (provisionRoot s).xlt = s.xlt ∧ (provisionRoot s).srg = s.srg ∧ (provisionRoot s).ods = s.ods ∧ (provisionRoot s).kst = s.kst ∧ (provisionRoot s).engKeys = s.engKeys ∧ (provisionRoot s).kwe = s.kwe ∧ (provisionRoot s).pke = s.pke ∧ (provisionRoot s).atu = s.atu ∧ (provisionRoot s).lcc = s.lcc ∧ (provisionRoot s).mem = s.mem ∧ (provisionRoot s).link = s.link ∧ (provisionRoot s).sheaf = s.sheaf ∧ (provisionRoot s).dom = s.dom ∧ (provisionRoot s).boot = s.boot ∧ (provisionRoot s).tdi = s.tdi ∧ (provisionRoot s).ac = s.ac ∧ (provisionRoot s).vt = s.vt ∧ (provisionRoot s).out = s.out ∧ (provisionRoot s).pending = s.pending :=
  have k : Off (fun p => p == .vault || p == .ent || p == .pins || p == .free) s (provisionRoot s) := provisionRoot_keeps (Off.keeps _ _) rfl rfl rfl rfl .refl
  ⟨k.clk rfl, k.rcv rfl, k.icu rfl, k.obs rfl, k.sen rfl, k.tamperIn rfl, k.cex rfl, k.xlt rfl, k.srg rfl, k.ods rfl, k.kst rfl, k.engKeys rfl, k.kwe rfl, k.pke rfl, k.atu rfl, k.lcc rfl, k.mem rfl, k.link rfl, k.sheaf rfl, k.dom rfl, k.boot rfl, k.tdi rfl, k.ac rfl, k.vt rfl, k.out rfl, k.pending rfl⟩

@[simp] theorem setVbat_same {mv : Nat} {s : State} :
    (setVbat mv s).clk = s.clk ∧ (setVbat mv s).rcv = s.rcv ∧ (setVbat mv s).icu = s.icu ∧ (setVbat mv s).obs = s.obs ∧ (setVbat mv s).sen = s.sen ∧ (setVbat mv s).tamperIn = s.tamperIn ∧ (setVbat mv s).cex = s.cex ∧ (setVbat mv s).xlt = s.xlt ∧ (setVbat mv s).srg = s.srg ∧ (setVbat mv s).ods = s.ods ∧ (setVbat mv s).kst = s.kst ∧ (setVbat mv s).engKeys = s.engKeys ∧ (setVbat mv s).kwe = s.kwe ∧ (setVbat mv s).pke = s.pke ∧ (setVbat mv s).ent = s.ent ∧ (setVbat mv s).atu = s.atu ∧ (setVbat mv s).lcc = s.lcc ∧ (setVbat mv s).mem = s.mem ∧ (setVbat mv s).link = s.link ∧ (setVbat mv s).sheaf = s.sheaf ∧ (setVbat mv s).dom = s.dom ∧ (setVbat mv s).boot = s.boot ∧ (setVbat mv s).tdi = s.tdi ∧ (setVbat mv s).ac = s.ac ∧ (setVbat mv s).vt = s.vt ∧ (setVbat mv s).free = s.free ∧ (setVbat mv s).out = s.out ∧ (setVbat mv s).pending = s.pending :=
  have k : Off (fun p => p == .vault || p == .pins) s (setVbat mv s) := setVbat_keeps (Off.keeps _ _) rfl rfl .refl
  ⟨k.clk rfl, k.rcv rfl, k.icu rfl, k.obs rfl, k.sen rfl, k.tamperIn rfl, k.cex rfl, k.xlt rfl, k.srg rfl, k.ods rfl, k.kst rfl, k.engKeys rfl, k.kwe rfl, k.pke rfl, k.ent rfl, k.atu rfl, k.lcc rfl, k.mem rfl, k.link rfl, k.sheaf rfl, k.dom rfl, k.boot rfl, k.tdi rfl, k.ac rfl, k.vt rfl, k.free rfl, k.out rfl, k.pending rfl⟩

@[simp] theorem recordTamper_same {bits : Nat} {s : State} :
    (recordTamper bits s).clk = s.clk ∧ (recordTamper bits s).rcv = s.rcv ∧ (recordTamper bits s).icu = s.icu ∧ (recordTamper bits s).obs = s.obs ∧ (recordTamper bits s).sen = s.sen ∧ (recordTamper bits s).tamperIn = s.tamperIn ∧ (recordTamper bits s).cex = s.cex ∧ (recordTamper bits s).xlt = s.xlt ∧ (recordTamper bits s).srg = s.srg ∧ (recordTamper bits s).ods = s.ods ∧ (recordTamper bits s).kst = s.kst ∧ (recordTamper bits s).engKeys = s.engKeys ∧ (recordTamper bits s).kwe = s.kwe ∧ (recordTamper bits s).pke = s.pke ∧ (recordTamper bits s).ent = s.ent ∧ (recordTamper bits s).atu = s.atu ∧ (recordTamper bits s).lcc = s.lcc ∧ (recordTamper bits s).mem = s.mem ∧ (recordTamper bits s).link = s.link ∧ (recordTamper bits s).sheaf = s.sheaf ∧ (recordTamper bits s).dom = s.dom ∧ (recordTamper bits s).pins = s.pins ∧ (recordTamper bits s).boot = s.boot ∧ (recordTamper bits s).tdi = s.tdi ∧ (recordTamper bits s).ac = s.ac ∧ (recordTamper bits s).vt = s.vt ∧ (recordTamper bits s).free = s.free ∧ (recordTamper bits s).out = s.out ∧ (recordTamper bits s).pending = s.pending :=
  have k : Off (fun p => p == .vault) s (recordTamper bits s) := recordTamper_keeps (Off.keeps _ _) rfl .refl
  ⟨k.clk rfl, k.rcv rfl, k.icu rfl, k.obs rfl, k.sen rfl, k.tamperIn rfl, k.cex rfl, k.xlt rfl, k.srg rfl, k.ods rfl, k.kst rfl, k.engKeys rfl, k.kwe rfl, k.pke rfl, k.ent rfl, k.atu rfl, k.lcc rfl, k.mem rfl, k.link rfl, k.sheaf rfl, k.dom rfl, k.pins rfl, k.boot rfl, k.tdi rfl, k.ac rfl, k.vt rfl, k.free rfl, k.out rfl, k.pending rfl⟩

@[simp] theorem openScopes_same {bits : Nat} {s : State} :
    (openScopes bits s).clk = s.clk ∧ (openScopes bits s).sen = s.sen ∧ (openScopes bits s).tamperIn = s.tamperIn ∧ (openScopes bits s).xlt = s.xlt ∧ (openScopes bits s).srg = s.srg ∧ (openScopes bits s).ods = s.ods ∧ (openScopes bits s).vault = s.vault ∧ (openScopes bits s).ent = s.ent ∧ (openScopes bits s).dom = s.dom ∧ (openScopes bits s).pins = s.pins ∧ (openScopes bits s).boot = s.boot ∧ (openScopes bits s).tdi = s.tdi ∧ (openScopes bits s).free = s.free ∧ (openScopes bits s).pending = s.pending :=
  have k : Off (fun p => p == .rcv || p == .icu || p == .obs || p == .cex || p == .kst || p == .engKeys || p == .kwe || p == .pke || p == .atu || p == .lcc || p == .mem || p == .link || p == .sheaf || p == .ac || p == .vt || p == .out) s (openScopes bits s) := openScopes_keeps (Off.keeps _ _) rfl rfl rfl rfl rfl rfl rfl rfl rfl rfl rfl rfl rfl rfl rfl rfl .refl
  ⟨k.clk rfl, k.sen rfl, k.tamperIn rfl, k.xlt rfl, k.srg rfl, k.ods rfl, k.vault rfl, k.ent rfl, k.dom rfl, k.pins rfl, k.boot rfl, k.tdi rfl, k.free rfl, k.pending rfl⟩

@[simp] theorem requestChipReset_same {cause : Nat} {s : State} :
    (requestChipReset cause s).clk = s.clk ∧ (requestChipReset cause s).sen = s.sen ∧ (requestChipReset cause s).tamperIn = s.tamperIn ∧ (requestChipReset cause s).xlt = s.xlt ∧ (requestChipReset cause s).vault = s.vault ∧ (requestChipReset cause s).atu = s.atu ∧ (requestChipReset cause s).lcc = s.lcc ∧ (requestChipReset cause s).boot = s.boot ∧ (requestChipReset cause s).tdi = s.tdi ∧ (requestChipReset cause s).free = s.free ∧ (requestChipReset cause s).pending = s.pending :=
  have k : Off (fun p => p == .rcv || p == .icu || p == .obs || p == .cex || p == .srg || p == .ods || p == .kst || p == .engKeys || p == .kwe || p == .pke || p == .ent || p == .mem || p == .link || p == .sheaf || p == .dom || p == .pins || p == .ac || p == .vt || p == .out) s (requestChipReset cause s) := requestChipReset_keeps (Off.keeps _ _) rfl rfl rfl rfl rfl rfl rfl rfl rfl rfl rfl rfl rfl rfl rfl rfl rfl rfl rfl .refl
  ⟨k.clk rfl, k.sen rfl, k.tamperIn rfl, k.xlt rfl, k.vault rfl, k.atu rfl, k.lcc rfl, k.boot rfl, k.tdi rfl, k.free rfl, k.pending rfl⟩

@[simp] theorem setRail_same {i : Nat} {on : Bool} {s : State} :
    (setRail i on s).clk = s.clk ∧ (setRail i on s).rcv = s.rcv ∧ (setRail i on s).icu = s.icu ∧ (setRail i on s).obs = s.obs ∧ (setRail i on s).sen = s.sen ∧ (setRail i on s).tamperIn = s.tamperIn ∧ (setRail i on s).cex = s.cex ∧ (setRail i on s).xlt = s.xlt ∧ (setRail i on s).srg = s.srg ∧ (setRail i on s).ods = s.ods ∧ (setRail i on s).vault = s.vault ∧ (setRail i on s).kst = s.kst ∧ (setRail i on s).engKeys = s.engKeys ∧ (setRail i on s).kwe = s.kwe ∧ (setRail i on s).pke = s.pke ∧ (setRail i on s).ent = s.ent ∧ (setRail i on s).atu = s.atu ∧ (setRail i on s).lcc = s.lcc ∧ (setRail i on s).mem = s.mem ∧ (setRail i on s).link = s.link ∧ (setRail i on s).sheaf = s.sheaf ∧ (setRail i on s).dom = s.dom ∧ (setRail i on s).boot = s.boot ∧ (setRail i on s).tdi = s.tdi ∧ (setRail i on s).ac = s.ac ∧ (setRail i on s).vt = s.vt ∧ (setRail i on s).free = s.free ∧ (setRail i on s).out = s.out ∧ (setRail i on s).pending = s.pending :=
  have k : Off (fun p => p == .pins) s (setRail i on s) := setRail_keeps (Off.keeps _ _) rfl .refl
  ⟨k.clk rfl, k.rcv rfl, k.icu rfl, k.obs rfl, k.sen rfl, k.tamperIn rfl, k.cex rfl, k.xlt rfl, k.srg rfl, k.ods rfl, k.vault rfl, k.kst rfl, k.engKeys rfl, k.kwe rfl, k.pke rfl, k.ent rfl, k.atu rfl, k.lcc rfl, k.mem rfl, k.link rfl, k.sheaf rfl, k.dom rfl, k.boot rfl, k.tdi rfl, k.ac rfl, k.vt rfl, k.free rfl, k.out rfl, k.pending rfl⟩

@[simp] theorem startVault_same {s : State} :
    (startVault s).rcv = s.rcv ∧ (startVault s).icu = s.icu ∧ (startVault s).obs = s.obs ∧ (startVault s).sen = s.sen ∧ (startVault s).tamperIn = s.tamperIn ∧ (startVault s).cex = s.cex ∧ (startVault s).xlt = s.xlt ∧ (startVault s).srg = s.srg ∧ (startVault s).ods = s.ods ∧ (startVault s).vault = s.vault ∧ (startVault s).kst = s.kst ∧ (startVault s).engKeys = s.engKeys ∧ (startVault s).kwe = s.kwe ∧ (startVault s).pke = s.pke ∧ (startVault s).ent = s.ent ∧ (startVault s).atu = s.atu ∧ (startVault s).lcc = s.lcc ∧ (startVault s).mem = s.mem ∧ (startVault s).link = s.link ∧ (startVault s).sheaf = s.sheaf ∧ (startVault s).dom = s.dom ∧ (startVault s).pins = s.pins ∧ (startVault s).boot = s.boot ∧ (startVault s).tdi = s.tdi ∧ (startVault s).ac = s.ac ∧ (startVault s).vt = s.vt ∧ (startVault s).free = s.free ∧ (startVault s).out = s.out ∧ (startVault s).pending = s.pending :=
  have k : Off (fun p => p == .clk) s (startVault s) := startVault_keeps (Off.keeps _ _) rfl .refl
  ⟨k.rcv rfl, k.icu rfl, k.obs rfl, k.sen rfl, k.tamperIn rfl, k.cex rfl, k.xlt rfl, k.srg rfl, k.ods rfl, k.vault rfl, k.kst rfl, k.engKeys rfl, k.kwe rfl, k.pke rfl, k.ent rfl, k.atu rfl, k.lcc rfl, k.mem rfl, k.link rfl, k.sheaf rfl, k.dom rfl, k.pins rfl, k.boot rfl, k.tdi rfl, k.ac rfl, k.vt rfl, k.free rfl, k.out rfl, k.pending rfl⟩

@[simp] theorem requestPowerCycle_same {s : State} :
    (requestPowerCycle s).clk = s.clk ∧ (requestPowerCycle s).sen = s.sen ∧ (requestPowerCycle s).tamperIn = s.tamperIn ∧ (requestPowerCycle s).cex = s.cex ∧ (requestPowerCycle s).xlt = s.xlt ∧ (requestPowerCycle s).srg = s.srg ∧ (requestPowerCycle s).ods = s.ods ∧ (requestPowerCycle s).vault = s.vault ∧ (requestPowerCycle s).kst = s.kst ∧ (requestPowerCycle s).engKeys = s.engKeys ∧ (requestPowerCycle s).kwe = s.kwe ∧ (requestPowerCycle s).pke = s.pke ∧ (requestPowerCycle s).ent = s.ent ∧ (requestPowerCycle s).atu = s.atu ∧ (requestPowerCycle s).lcc = s.lcc ∧ (requestPowerCycle s).mem = s.mem ∧ (requestPowerCycle s).link = s.link ∧ (requestPowerCycle s).sheaf = s.sheaf ∧ (requestPowerCycle s).dom = s.dom ∧ (requestPowerCycle s).boot = s.boot ∧ (requestPowerCycle s).tdi = s.tdi ∧ (requestPowerCycle s).ac = s.ac ∧ (requestPowerCycle s).vt = s.vt ∧ (requestPowerCycle s).free = s.free ∧ (requestPowerCycle s).pending = s.pending :=
  have k : Off (fun p => p == .rcv || p == .icu || p == .obs || p == .pins || p == .out) s (requestPowerCycle s) := requestPowerCycle_keeps (Off.keeps _ _) rfl rfl rfl rfl rfl .refl
  ⟨k.clk rfl, k.sen rfl, k.tamperIn rfl, k.cex rfl, k.xlt rfl, k.srg rfl, k.ods rfl, k.vault rfl, k.kst rfl, k.engKeys rfl, k.kwe rfl, k.pke rfl, k.ent rfl, k.atu rfl, k.lcc rfl, k.mem rfl, k.link rfl, k.sheaf rfl, k.dom rfl, k.boot rfl, k.tdi rfl, k.ac rfl, k.vt rfl, k.free rfl, k.pending rfl⟩

@[simp] theorem takeRails_same {rails : Nat} {s : State} :
    (takeRails rails s).clk = s.clk ∧ (takeRails rails s).rcv = s.rcv ∧ (takeRails rails s).icu = s.icu ∧ (takeRails rails s).obs = s.obs ∧ (takeRails rails s).sen = s.sen ∧ (takeRails rails s).tamperIn = s.tamperIn ∧ (takeRails rails s).cex = s.cex ∧ (takeRails rails s).xlt = s.xlt ∧ (takeRails rails s).srg = s.srg ∧ (takeRails rails s).ods = s.ods ∧ (takeRails rails s).vault = s.vault ∧ (takeRails rails s).kst = s.kst ∧ (takeRails rails s).engKeys = s.engKeys ∧ (takeRails rails s).kwe = s.kwe ∧ (takeRails rails s).pke = s.pke ∧ (takeRails rails s).ent = s.ent ∧ (takeRails rails s).atu = s.atu ∧ (takeRails rails s).lcc = s.lcc ∧ (takeRails rails s).mem = s.mem ∧ (takeRails rails s).link = s.link ∧ (takeRails rails s).sheaf = s.sheaf ∧ (takeRails rails s).dom = s.dom ∧ (takeRails rails s).boot = s.boot ∧ (takeRails rails s).tdi = s.tdi ∧ (takeRails rails s).ac = s.ac ∧ (takeRails rails s).vt = s.vt ∧ (takeRails rails s).free = s.free ∧ (takeRails rails s).out = s.out ∧ (takeRails rails s).pending = s.pending :=
  have k : Off (fun p => p == .pins) s (takeRails rails s) := takeRails_keeps (Off.keeps _ _) rfl .refl
  ⟨k.clk rfl, k.rcv rfl, k.icu rfl, k.obs rfl, k.sen rfl, k.tamperIn rfl, k.cex rfl, k.xlt rfl, k.srg rfl, k.ods rfl, k.vault rfl, k.kst rfl, k.engKeys rfl, k.kwe rfl, k.pke rfl, k.ent rfl, k.atu rfl, k.lcc rfl, k.mem rfl, k.link rfl, k.sheaf rfl, k.dom rfl, k.boot rfl, k.tdi rfl, k.ac rfl, k.vt rfl, k.free rfl, k.out rfl, k.pending rfl⟩

@[simp] theorem bootStep_same {n : Nat} {s : State} :
    (bootStep n s).clk = s.clk ∧ (bootStep n s).rcv = s.rcv ∧ (bootStep n s).icu = s.icu ∧ (bootStep n s).obs = s.obs ∧ (bootStep n s).sen = s.sen ∧ (bootStep n s).tamperIn = s.tamperIn ∧ (bootStep n s).cex = s.cex ∧ (bootStep n s).xlt = s.xlt ∧ (bootStep n s).srg = s.srg ∧ (bootStep n s).ods = s.ods ∧ (bootStep n s).vault = s.vault ∧ (bootStep n s).kst = s.kst ∧ (bootStep n s).engKeys = s.engKeys ∧ (bootStep n s).kwe = s.kwe ∧ (bootStep n s).pke = s.pke ∧ (bootStep n s).ent = s.ent ∧ (bootStep n s).atu = s.atu ∧ (bootStep n s).lcc = s.lcc ∧ (bootStep n s).mem = s.mem ∧ (bootStep n s).link = s.link ∧ (bootStep n s).sheaf = s.sheaf ∧ (bootStep n s).dom = s.dom ∧ (bootStep n s).pins = s.pins ∧ (bootStep n s).tdi = s.tdi ∧ (bootStep n s).ac = s.ac ∧ (bootStep n s).vt = s.vt ∧ (bootStep n s).free = s.free ∧ (bootStep n s).out = s.out ∧ (bootStep n s).pending = s.pending :=
  have k : Off (fun p => p == .boot) s (bootStep n s) := bootStep_keeps (Off.keeps _ _) rfl .refl
  ⟨k.clk rfl, k.rcv rfl, k.icu rfl, k.obs rfl, k.sen rfl, k.tamperIn rfl, k.cex rfl, k.xlt rfl, k.srg rfl, k.ods rfl, k.vault rfl, k.kst rfl, k.engKeys rfl, k.kwe rfl, k.pke rfl, k.ent rfl, k.atu rfl, k.lcc rfl, k.mem rfl, k.link rfl, k.sheaf rfl, k.dom rfl, k.pins rfl, k.tdi rfl, k.ac rfl, k.vt rfl, k.free rfl, k.out rfl, k.pending rfl⟩

@[simp] theorem decodeLc_same {s : State} :
    (decodeLc s).clk = s.clk ∧ (decodeLc s).rcv = s.rcv ∧ (decodeLc s).icu = s.icu ∧ (decodeLc s).obs = s.obs ∧ (decodeLc s).sen = s.sen ∧ (decodeLc s).tamperIn = s.tamperIn ∧ (decodeLc s).cex = s.cex ∧ (decodeLc s).xlt = s.xlt ∧ (decodeLc s).srg = s.srg ∧ (decodeLc s).ods = s.ods ∧ (decodeLc s).vault = s.vault ∧ (decodeLc s).kst = s.kst ∧ (decodeLc s).engKeys = s.engKeys ∧ (decodeLc s).kwe = s.kwe ∧ (decodeLc s).pke = s.pke ∧ (decodeLc s).ent = s.ent ∧ (decodeLc s).mem = s.mem ∧ (decodeLc s).link = s.link ∧ (decodeLc s).sheaf = s.sheaf ∧ (decodeLc s).dom = s.dom ∧ (decodeLc s).pins = s.pins ∧ (decodeLc s).boot = s.boot ∧ (decodeLc s).tdi = s.tdi ∧ (decodeLc s).ac = s.ac ∧ (decodeLc s).vt = s.vt ∧ (decodeLc s).free = s.free ∧ (decodeLc s).out = s.out ∧ (decodeLc s).pending = s.pending :=
  have k : Off (fun p => p == .atu || p == .lcc) s (decodeLc s) := decodeLc_keeps (Off.keeps _ _) rfl rfl .refl
  ⟨k.clk rfl, k.rcv rfl, k.icu rfl, k.obs rfl, k.sen rfl, k.tamperIn rfl, k.cex rfl, k.xlt rfl, k.srg rfl, k.ods rfl, k.vault rfl, k.kst rfl, k.engKeys rfl, k.kwe rfl, k.pke rfl, k.ent rfl, k.mem rfl, k.link rfl, k.sheaf rfl, k.dom rfl, k.pins rfl, k.boot rfl, k.tdi rfl, k.ac rfl, k.vt rfl, k.free rfl, k.out rfl, k.pending rfl⟩

@[simp] theorem applyStraps_same {v : List Nat} {s : State} :
    (applyStraps v s).clk = s.clk ∧ (applyStraps v s).rcv = s.rcv ∧ (applyStraps v s).icu = s.icu ∧ (applyStraps v s).obs = s.obs ∧ (applyStraps v s).sen = s.sen ∧ (applyStraps v s).tamperIn = s.tamperIn ∧ (applyStraps v s).xlt = s.xlt ∧ (applyStraps v s).vault = s.vault ∧ (applyStraps v s).kst = s.kst ∧ (applyStraps v s).engKeys = s.engKeys ∧ (applyStraps v s).kwe = s.kwe ∧ (applyStraps v s).pke = s.pke ∧ (applyStraps v s).ent = s.ent ∧ (applyStraps v s).atu = s.atu ∧ (applyStraps v s).lcc = s.lcc ∧ (applyStraps v s).sheaf = s.sheaf ∧ (applyStraps v s).dom = s.dom ∧ (applyStraps v s).tdi = s.tdi ∧ (applyStraps v s).ac = s.ac ∧ (applyStraps v s).vt = s.vt ∧ (applyStraps v s).free = s.free ∧ (applyStraps v s).out = s.out ∧ (applyStraps v s).pending = s.pending :=
  have k : Off (fun p => p == .cex || p == .srg || p == .ods || p == .mem || p == .link || p == .pins || p == .boot) s (applyStraps v s) := applyStraps_keeps (Off.keeps _ _) rfl rfl rfl rfl rfl rfl rfl .refl
  ⟨k.clk rfl, k.rcv rfl, k.icu rfl, k.obs rfl, k.sen rfl, k.tamperIn rfl, k.xlt rfl, k.vault rfl, k.kst rfl, k.engKeys rfl, k.kwe rfl, k.pke rfl, k.ent rfl, k.atu rfl, k.lcc rfl, k.sheaf rfl, k.dom rfl, k.tdi rfl, k.ac rfl, k.vt rfl, k.free rfl, k.out rfl, k.pending rfl⟩

@[simp] theorem leaveReset_same {s : State} :
    (leaveReset s).rcv = s.rcv ∧ (leaveReset s).icu = s.icu ∧ (leaveReset s).obs = s.obs ∧ (leaveReset s).sen = s.sen ∧ (leaveReset s).tamperIn = s.tamperIn ∧ (leaveReset s).cex = s.cex ∧ (leaveReset s).xlt = s.xlt ∧ (leaveReset s).srg = s.srg ∧ (leaveReset s).ods = s.ods ∧ (leaveReset s).vault = s.vault ∧ (leaveReset s).kst = s.kst ∧ (leaveReset s).engKeys = s.engKeys ∧ (leaveReset s).kwe = s.kwe ∧ (leaveReset s).pke = s.pke ∧ (leaveReset s).ent = s.ent ∧ (leaveReset s).atu = s.atu ∧ (leaveReset s).lcc = s.lcc ∧ (leaveReset s).mem = s.mem ∧ (leaveReset s).link = s.link ∧ (leaveReset s).sheaf = s.sheaf ∧ (leaveReset s).dom = s.dom ∧ (leaveReset s).pins = s.pins ∧ (leaveReset s).tdi = s.tdi ∧ (leaveReset s).ac = s.ac ∧ (leaveReset s).vt = s.vt ∧ (leaveReset s).free = s.free ∧ (leaveReset s).out = s.out ∧ (leaveReset s).pending = s.pending :=
  have k : Off (fun p => p == .clk || p == .boot) s (leaveReset s) := leaveReset_keeps (Off.keeps _ _) rfl rfl .refl
  ⟨k.rcv rfl, k.icu rfl, k.obs rfl, k.sen rfl, k.tamperIn rfl, k.cex rfl, k.xlt rfl, k.srg rfl, k.ods rfl, k.vault rfl, k.kst rfl, k.engKeys rfl, k.kwe rfl, k.pke rfl, k.ent rfl, k.atu rfl, k.lcc rfl, k.mem rfl, k.link rfl, k.sheaf rfl, k.dom rfl, k.pins rfl, k.tdi rfl, k.ac rfl, k.vt rfl, k.free rfl, k.out rfl, k.pending rfl⟩

@[simp] theorem diceLock_same {s : State} :
    (diceLock s).clk = s.clk ∧ (diceLock s).rcv = s.rcv ∧ (diceLock s).icu = s.icu ∧ (diceLock s).obs = s.obs ∧ (diceLock s).sen = s.sen ∧ (diceLock s).tamperIn = s.tamperIn ∧ (diceLock s).cex = s.cex ∧ (diceLock s).xlt = s.xlt ∧ (diceLock s).srg = s.srg ∧ (diceLock s).ods = s.ods ∧ (diceLock s).vault = s.vault ∧ (diceLock s).kst = s.kst ∧ (diceLock s).engKeys = s.engKeys ∧ (diceLock s).kwe = s.kwe ∧ (diceLock s).ent = s.ent ∧ (diceLock s).lcc = s.lcc ∧ (diceLock s).mem = s.mem ∧ (diceLock s).link = s.link ∧ (diceLock s).sheaf = s.sheaf ∧ (diceLock s).dom = s.dom ∧ (diceLock s).pins = s.pins ∧ (diceLock s).boot = s.boot ∧ (diceLock s).tdi = s.tdi ∧ (diceLock s).ac = s.ac ∧ (diceLock s).vt = s.vt ∧ (diceLock s).free = s.free ∧ (diceLock s).out = s.out ∧ (diceLock s).pending = s.pending :=
  have k : Off (fun p => p == .pke || p == .atu) s (diceLock s) := diceLock_keeps (Off.keeps _ _) rfl rfl .refl
  ⟨k.clk rfl, k.rcv rfl, k.icu rfl, k.obs rfl, k.sen rfl, k.tamperIn rfl, k.cex rfl, k.xlt rfl, k.srg rfl, k.ods rfl, k.vault rfl, k.kst rfl, k.engKeys rfl, k.kwe rfl, k.ent rfl, k.lcc rfl, k.mem rfl, k.link rfl, k.sheaf rfl, k.dom rfl, k.pins rfl, k.boot rfl, k.tdi rfl, k.ac rfl, k.vt rfl, k.free rfl, k.out rfl, k.pending rfl⟩

@[simp] theorem identityFault_same {detail : Nat} {s : State} :
    (identityFault detail s).clk = s.clk ∧ (identityFault detail s).sen = s.sen ∧ (identityFault detail s).tamperIn = s.tamperIn ∧ (identityFault detail s).cex = s.cex ∧ (identityFault detail s).xlt = s.xlt ∧ (identityFault detail s).srg = s.srg ∧ (identityFault detail s).ods = s.ods ∧ (identityFault detail s).vault = s.vault ∧ (identityFault detail s).kst = s.kst ∧ (identityFault detail s).engKeys = s.engKeys ∧ (identityFault detail s).kwe = s.kwe ∧ (identityFault detail s).pke = s.pke ∧ (identityFault detail s).ent = s.ent ∧ (identityFault detail s).lcc = s.lcc ∧ (identityFault detail s).mem = s.mem ∧ (identityFault detail s).link = s.link ∧ (identityFault detail s).sheaf = s.sheaf ∧ (identityFault detail s).dom = s.dom ∧ (identityFault detail s).pins = s.pins ∧ (identityFault detail s).boot = s.boot ∧ (identityFault detail s).tdi = s.tdi ∧ (identityFault detail s).ac = s.ac ∧ (identityFault detail s).vt = s.vt ∧ (identityFault detail s).free = s.free ∧ (identityFault detail s).pending = s.pending :=
  have k : Off (fun p => p == .rcv || p == .icu || p == .obs || p == .atu || p == .out) s (identityFault detail s) := identityFault_keeps (Off.keeps _ _) rfl rfl rfl rfl rfl .refl
  ⟨k.clk rfl, k.sen rfl, k.tamperIn rfl, k.cex rfl, k.xlt rfl, k.srg rfl, k.ods rfl, k.vault rfl, k.kst rfl, k.engKeys rfl, k.kwe rfl, k.pke rfl, k.ent rfl, k.lcc rfl, k.mem rfl, k.link rfl, k.sheaf rfl, k.dom rfl, k.pins rfl, k.boot rfl, k.tdi rfl, k.ac rfl, k.vt rfl, k.free rfl, k.pending rfl⟩

@[simp] theorem katFailed_same {t : Nat} {s : State} :
    (katFailed t s).clk = s.clk ∧ (katFailed t s).rcv = s.rcv ∧ (katFailed t s).icu = s.icu ∧ (katFailed t s).obs = s.obs ∧ (katFailed t s).sen = s.sen ∧ (katFailed t s).tamperIn = s.tamperIn ∧ (katFailed t s).cex = s.cex ∧ (katFailed t s).xlt = s.xlt ∧ (katFailed t s).srg = s.srg ∧ (katFailed t s).ods = s.ods ∧ (katFailed t s).vault = s.vault ∧ (katFailed t s).kst = s.kst ∧ (katFailed t s).engKeys = s.engKeys ∧ (katFailed t s).kwe = s.kwe ∧ (katFailed t s).pke = s.pke ∧ (katFailed t s).ent = s.ent ∧ (katFailed t s).atu = s.atu ∧ (katFailed t s).lcc = s.lcc ∧ (katFailed t s).mem = s.mem ∧ (katFailed t s).link = s.link ∧ (katFailed t s).sheaf = s.sheaf ∧ (katFailed t s).dom = s.dom ∧ (katFailed t s).pins = s.pins ∧ (katFailed t s).tdi = s.tdi ∧ (katFailed t s).ac = s.ac ∧ (katFailed t s).vt = s.vt ∧ (katFailed t s).free = s.free ∧ (katFailed t s).out = s.out ∧ (katFailed t s).pending = s.pending :=
  have k : Off (fun p => p == .boot) s (katFailed t s) := katFailed_keeps (Off.keeps _ _) rfl .refl
  ⟨k.clk rfl, k.rcv rfl, k.icu rfl, k.obs rfl, k.sen rfl, k.tamperIn rfl, k.cex rfl, k.xlt rfl, k.srg rfl, k.ods rfl, k.vault rfl, k.kst rfl, k.engKeys rfl, k.kwe rfl, k.pke rfl, k.ent rfl, k.atu rfl, k.lcc rfl, k.mem rfl, k.link rfl, k.sheaf rfl, k.dom rfl, k.pins rfl, k.tdi rfl, k.ac rfl, k.vt rfl, k.free rfl, k.out rfl, k.pending rfl⟩

@[simp] theorem deviceSlot_same {n origin : Nat} {key : BitVec 256} {s : State} :
    (deviceSlot n origin key s).clk = s.clk ∧ (deviceSlot n origin key s).rcv = s.rcv ∧ (deviceSlot n origin key s).icu = s.icu ∧ (deviceSlot n origin key s).obs = s.obs ∧ (deviceSlot n origin key s).sen = s.sen ∧ (deviceSlot n origin key s).tamperIn = s.tamperIn ∧ (deviceSlot n origin key s).cex = s.cex ∧ (deviceSlot n origin key s).xlt = s.xlt ∧ (deviceSlot n origin key s).srg = s.srg ∧ (deviceSlot n origin key s).ods = s.ods ∧ (deviceSlot n origin key s).vault = s.vault ∧ (deviceSlot n origin key s).engKeys = s.engKeys ∧ (deviceSlot n origin key s).pke = s.pke ∧ (deviceSlot n origin key s).atu = s.atu ∧ (deviceSlot n origin key s).lcc = s.lcc ∧ (deviceSlot n origin key s).mem = s.mem ∧ (deviceSlot n origin key s).link = s.link ∧ (deviceSlot n origin key s).sheaf = s.sheaf ∧ (deviceSlot n origin key s).dom = s.dom ∧ (deviceSlot n origin key s).pins = s.pins ∧ (deviceSlot n origin key s).boot = s.boot ∧ (deviceSlot n origin key s).tdi = s.tdi ∧ (deviceSlot n origin key s).ac = s.ac ∧ (deviceSlot n origin key s).vt = s.vt ∧ (deviceSlot n origin key s).free = s.free ∧ (deviceSlot n origin key s).out = s.out ∧ (deviceSlot n origin key s).pending = s.pending :=
  have k : Off (fun p => p == .kst || p == .kwe || p == .ent) s (deviceSlot n origin key s) := deviceSlot_keeps (Off.keeps _ _) rfl rfl rfl .refl
  ⟨k.clk rfl, k.rcv rfl, k.icu rfl, k.obs rfl, k.sen rfl, k.tamperIn rfl, k.cex rfl, k.xlt rfl, k.srg rfl, k.ods rfl, k.vault rfl, k.engKeys rfl, k.pke rfl, k.atu rfl, k.lcc rfl, k.mem rfl, k.link rfl, k.sheaf rfl, k.dom rfl, k.pins rfl, k.boot rfl, k.tdi rfl, k.ac rfl, k.vt rfl, k.free rfl, k.out rfl, k.pending rfl⟩

@[simp] theorem deriveDevice_same {s : State} :
    (deriveDevice s).clk = s.clk ∧ (deriveDevice s).rcv = s.rcv ∧ (deriveDevice s).icu = s.icu ∧ (deriveDevice s).obs = s.obs ∧ (deriveDevice s).sen = s.sen ∧ (deriveDevice s).tamperIn = s.tamperIn ∧ (deriveDevice s).cex = s.cex ∧ (deriveDevice s).xlt = s.xlt ∧ (deriveDevice s).srg = s.srg ∧ (deriveDevice s).ods = s.ods ∧ (deriveDevice s).engKeys = s.engKeys ∧ (deriveDevice s).pke = s.pke ∧ (deriveDevice s).atu = s.atu ∧ (deriveDevice s).lcc = s.lcc ∧ (deriveDevice s).mem = s.mem ∧ (deriveDevice s).link = s.link ∧ (deriveDevice s).sheaf = s.sheaf ∧ (deriveDevice s).dom = s.dom ∧ (deriveDevice s).boot = s.boot ∧ (deriveDevice s).tdi = s.tdi ∧ (deriveDevice s).ac = s.ac ∧ (deriveDevice s).vt = s.vt ∧ (deriveDevice s).free = s.free ∧ (deriveDevice s).out = s.out ∧ (deriveDevice s).pending = s.pending :=
  have k : Off (fun p => p == .vault || p == .kst || p == .kwe || p == .ent || p == .pins) s (deriveDevice s) := deriveDevice_keeps (Off.keeps _ _) rfl rfl rfl rfl rfl .refl
  ⟨k.clk rfl, k.rcv rfl, k.icu rfl, k.obs rfl, k.sen rfl, k.tamperIn rfl, k.cex rfl, k.xlt rfl, k.srg rfl, k.ods rfl, k.engKeys rfl, k.pke rfl, k.atu rfl, k.lcc rfl, k.mem rfl, k.link rfl, k.sheaf rfl, k.dom rfl, k.boot rfl, k.tdi rfl, k.ac rfl, k.vt rfl, k.free rfl, k.out rfl, k.pending rfl⟩

@[simp] theorem dice_same {digest : Bytes} {certs : List Bytes} {s : State} :
    (dice digest certs s).clk = s.clk ∧ (dice digest certs s).sen = s.sen ∧ (dice digest certs s).tamperIn = s.tamperIn ∧ (dice digest certs s).cex = s.cex ∧ (dice digest certs s).xlt = s.xlt ∧ (dice digest certs s).srg = s.srg ∧ (dice digest certs s).ods = s.ods ∧ (dice digest certs s).vault = s.vault ∧ (dice digest certs s).engKeys = s.engKeys ∧ (dice digest certs s).lcc = s.lcc ∧ (dice digest certs s).mem = s.mem ∧ (dice digest certs s).link = s.link ∧ (dice digest certs s).sheaf = s.sheaf ∧ (dice digest certs s).dom = s.dom ∧ (dice digest certs s).pins = s.pins ∧ (dice digest certs s).boot = s.boot ∧ (dice digest certs s).tdi = s.tdi ∧ (dice digest certs s).ac = s.ac ∧ (dice digest certs s).vt = s.vt ∧ (dice digest certs s).pending = s.pending :=
  have k : Off (fun p => p == .rcv || p == .icu || p == .obs || p == .kst || p == .kwe || p == .pke || p == .ent || p == .atu || p == .free || p == .out) s (dice digest certs s) := dice_keeps (Off.keeps _ _) rfl rfl rfl rfl rfl rfl rfl rfl rfl rfl .refl
  ⟨k.clk rfl, k.sen rfl, k.tamperIn rfl, k.cex rfl, k.xlt rfl, k.srg rfl, k.ods rfl, k.vault rfl, k.engKeys rfl, k.lcc rfl, k.mem rfl, k.link rfl, k.sheaf rfl, k.dom rfl, k.pins rfl, k.boot rfl, k.tdi rfl, k.ac rfl, k.vt rfl, k.pending rfl⟩

@[simp] theorem takeImage_same {recovery : Bool} {x : FwImage} {s : State} :
    (takeImage recovery x s).clk = s.clk ∧ (takeImage recovery x s).rcv = s.rcv ∧ (takeImage recovery x s).icu = s.icu ∧ (takeImage recovery x s).obs = s.obs ∧ (takeImage recovery x s).sen = s.sen ∧ (takeImage recovery x s).tamperIn = s.tamperIn ∧ (takeImage recovery x s).cex = s.cex ∧ (takeImage recovery x s).xlt = s.xlt ∧ (takeImage recovery x s).srg = s.srg ∧ (takeImage recovery x s).vault = s.vault ∧ (takeImage recovery x s).kst = s.kst ∧ (takeImage recovery x s).engKeys = s.engKeys ∧ (takeImage recovery x s).kwe = s.kwe ∧ (takeImage recovery x s).pke = s.pke ∧ (takeImage recovery x s).ent = s.ent ∧ (takeImage recovery x s).lcc = s.lcc ∧ (takeImage recovery x s).mem = s.mem ∧ (takeImage recovery x s).link = s.link ∧ (takeImage recovery x s).sheaf = s.sheaf ∧ (takeImage recovery x s).dom = s.dom ∧ (takeImage recovery x s).pins = s.pins ∧ (takeImage recovery x s).tdi = s.tdi ∧ (takeImage recovery x s).ac = s.ac ∧ (takeImage recovery x s).vt = s.vt ∧ (takeImage recovery x s).free = s.free ∧ (takeImage recovery x s).out = s.out ∧ (takeImage recovery x s).pending = s.pending :=
  have k : Off (fun p => p == .ods || p == .atu || p == .boot) s (takeImage recovery x s) := takeImage_keeps (Off.keeps _ _) rfl rfl rfl .refl
  ⟨k.clk rfl, k.rcv rfl, k.icu rfl, k.obs rfl, k.sen rfl, k.tamperIn rfl, k.cex rfl, k.xlt rfl, k.srg rfl, k.vault rfl, k.kst rfl, k.engKeys rfl, k.kwe rfl, k.pke rfl, k.ent rfl, k.lcc rfl, k.mem rfl, k.link rfl, k.sheaf rfl, k.dom rfl, k.pins rfl, k.tdi rfl, k.ac rfl, k.vt rfl, k.free rfl, k.out rfl, k.pending rfl⟩

@[simp] theorem bootImage_same {recovery : Bool} {x : FwImage} {certs : List Bytes} {s : State} :
    (bootImage recovery x certs s).clk = s.clk ∧ (bootImage recovery x certs s).sen = s.sen ∧ (bootImage recovery x certs s).tamperIn = s.tamperIn ∧ (bootImage recovery x certs s).cex = s.cex ∧ (bootImage recovery x certs s).xlt = s.xlt ∧ (bootImage recovery x certs s).srg = s.srg ∧ (bootImage recovery x certs s).vault = s.vault ∧ (bootImage recovery x certs s).engKeys = s.engKeys ∧ (bootImage recovery x certs s).lcc = s.lcc ∧ (bootImage recovery x certs s).mem = s.mem ∧ (bootImage recovery x certs s).link = s.link ∧ (bootImage recovery x certs s).sheaf = s.sheaf ∧ (bootImage recovery x certs s).dom = s.dom ∧ (bootImage recovery x certs s).pins = s.pins ∧ (bootImage recovery x certs s).tdi = s.tdi ∧ (bootImage recovery x certs s).ac = s.ac ∧ (bootImage recovery x certs s).vt = s.vt ∧ (bootImage recovery x certs s).pending = s.pending :=
  have k : Off (fun p => p == .rcv || p == .icu || p == .obs || p == .ods || p == .kst || p == .kwe || p == .pke || p == .ent || p == .atu || p == .boot || p == .free || p == .out) s (bootImage recovery x certs s) := bootImage_keeps (Off.keeps _ _) rfl rfl rfl rfl rfl rfl rfl rfl rfl rfl rfl rfl .refl
  ⟨k.clk rfl, k.sen rfl, k.tamperIn rfl, k.cex rfl, k.xlt rfl, k.srg rfl, k.vault rfl, k.engKeys rfl, k.lcc rfl, k.mem rfl, k.link rfl, k.sheaf rfl, k.dom rfl, k.pins rfl, k.tdi rfl, k.ac rfl, k.vt rfl, k.pending rfl⟩

@[simp] theorem findImage_fetch_same {certs : List Bytes} {r : Option FwImage} {s : State} :
    (findImage.fetch certs r s).clk = s.clk ∧ (findImage.fetch certs r s).sen = s.sen ∧ (findImage.fetch certs r s).tamperIn = s.tamperIn ∧ (findImage.fetch certs r s).cex = s.cex ∧ (findImage.fetch certs r s).xlt = s.xlt ∧ (findImage.fetch certs r s).srg = s.srg ∧ (findImage.fetch certs r s).vault = s.vault ∧ (findImage.fetch certs r s).engKeys = s.engKeys ∧ (findImage.fetch certs r s).lcc = s.lcc ∧ (findImage.fetch certs r s).mem = s.mem ∧ (findImage.fetch certs r s).link = s.link ∧ (findImage.fetch certs r s).sheaf = s.sheaf ∧ (findImage.fetch certs r s).dom = s.dom ∧ (findImage.fetch certs r s).pins = s.pins ∧ (findImage.fetch certs r s).tdi = s.tdi ∧ (findImage.fetch certs r s).ac = s.ac ∧ (findImage.fetch certs r s).vt = s.vt ∧ (findImage.fetch certs r s).pending = s.pending :=
  have k : Off (fun p => p == .rcv || p == .icu || p == .obs || p == .ods || p == .kst || p == .kwe || p == .pke || p == .ent || p == .atu || p == .boot || p == .free || p == .out) s (findImage.fetch certs r s) := findImage_fetch_keeps (Off.keeps _ _) rfl rfl rfl rfl rfl rfl rfl rfl rfl rfl rfl rfl .refl
  ⟨k.clk rfl, k.sen rfl, k.tamperIn rfl, k.cex rfl, k.xlt rfl, k.srg rfl, k.vault rfl, k.engKeys rfl, k.lcc rfl, k.mem rfl, k.link rfl, k.sheaf rfl, k.dom rfl, k.pins rfl, k.tdi rfl, k.ac rfl, k.vt rfl, k.pending rfl⟩

@[simp] theorem findImage_same {flash recovery : Option FwImage} {certs : List Bytes} {s : State} :
    (findImage flash recovery certs s).clk = s.clk ∧ (findImage flash recovery certs s).sen = s.sen ∧ (findImage flash recovery certs s).tamperIn = s.tamperIn ∧ (findImage flash recovery certs s).cex = s.cex ∧ (findImage flash recovery certs s).xlt = s.xlt ∧ (findImage flash recovery certs s).srg = s.srg ∧ (findImage flash recovery certs s).vault = s.vault ∧ (findImage flash recovery certs s).engKeys = s.engKeys ∧ (findImage flash recovery certs s).lcc = s.lcc ∧ (findImage flash recovery certs s).mem = s.mem ∧ (findImage flash recovery certs s).link = s.link ∧ (findImage flash recovery certs s).sheaf = s.sheaf ∧ (findImage flash recovery certs s).dom = s.dom ∧ (findImage flash recovery certs s).pins = s.pins ∧ (findImage flash recovery certs s).tdi = s.tdi ∧ (findImage flash recovery certs s).ac = s.ac ∧ (findImage flash recovery certs s).vt = s.vt ∧ (findImage flash recovery certs s).pending = s.pending :=
  have k : Off (fun p => p == .rcv || p == .icu || p == .obs || p == .ods || p == .kst || p == .kwe || p == .pke || p == .ent || p == .atu || p == .boot || p == .free || p == .out) s (findImage flash recovery certs s) := findImage_keeps (Off.keeps _ _) rfl rfl rfl rfl rfl rfl rfl rfl rfl rfl rfl rfl .refl
  ⟨k.clk rfl, k.sen rfl, k.tamperIn rfl, k.cex rfl, k.xlt rfl, k.srg rfl, k.vault rfl, k.engKeys rfl, k.lcc rfl, k.mem rfl, k.link rfl, k.sheaf rfl, k.dom rfl, k.pins rfl, k.tdi rfl, k.ac rfl, k.vt rfl, k.pending rfl⟩

@[simp] theorem fwStarted_same {s : State} :
    (fwStarted s).clk = s.clk ∧ (fwStarted s).icu = s.icu ∧ (fwStarted s).obs = s.obs ∧ (fwStarted s).sen = s.sen ∧ (fwStarted s).tamperIn = s.tamperIn ∧ (fwStarted s).cex = s.cex ∧ (fwStarted s).xlt = s.xlt ∧ (fwStarted s).srg = s.srg ∧ (fwStarted s).vault = s.vault ∧ (fwStarted s).kst = s.kst ∧ (fwStarted s).engKeys = s.engKeys ∧ (fwStarted s).kwe = s.kwe ∧ (fwStarted s).pke = s.pke ∧ (fwStarted s).ent = s.ent ∧ (fwStarted s).atu = s.atu ∧ (fwStarted s).lcc = s.lcc ∧ (fwStarted s).mem = s.mem ∧ (fwStarted s).link = s.link ∧ (fwStarted s).sheaf = s.sheaf ∧ (fwStarted s).dom = s.dom ∧ (fwStarted s).pins = s.pins ∧ (fwStarted s).tdi = s.tdi ∧ (fwStarted s).ac = s.ac ∧ (fwStarted s).vt = s.vt ∧ (fwStarted s).free = s.free ∧ (fwStarted s).out = s.out ∧ (fwStarted s).pending = s.pending :=
  have k : Off (fun p => p == .rcv || p == .ods || p == .boot) s (fwStarted s) := fwStarted_keeps (Off.keeps _ _) rfl rfl rfl .refl
  ⟨k.clk rfl, k.icu rfl, k.obs rfl, k.sen rfl, k.tamperIn rfl, k.cex rfl, k.xlt rfl, k.srg rfl, k.vault rfl, k.kst rfl, k.engKeys rfl, k.kwe rfl, k.pke rfl, k.ent rfl, k.atu rfl, k.lcc rfl, k.mem rfl, k.link rfl, k.sheaf rfl, k.dom rfl, k.pins rfl, k.tdi rfl, k.ac rfl, k.vt rfl, k.free rfl, k.out rfl, k.pending rfl⟩

@[simp] theorem holdFailed_same {failed : Nat} {s : State} :
    (holdFailed failed s).clk = s.clk ∧ (holdFailed failed s).rcv = s.rcv ∧ (holdFailed failed s).icu = s.icu ∧ (holdFailed failed s).obs = s.obs ∧ (holdFailed failed s).sen = s.sen ∧ (holdFailed failed s).tamperIn = s.tamperIn ∧ (holdFailed failed s).cex = s.cex ∧ (holdFailed failed s).xlt = s.xlt ∧ (holdFailed failed s).srg = s.srg ∧ (holdFailed failed s).ods = s.ods ∧ (holdFailed failed s).vault = s.vault ∧ (holdFailed failed s).kst = s.kst ∧ (holdFailed failed s).engKeys = s.engKeys ∧ (holdFailed failed s).kwe = s.kwe ∧ (holdFailed failed s).pke = s.pke ∧ (holdFailed failed s).ent = s.ent ∧ (holdFailed failed s).atu = s.atu ∧ (holdFailed failed s).lcc = s.lcc ∧ (holdFailed failed s).mem = s.mem ∧ (holdFailed failed s).sheaf = s.sheaf ∧ (holdFailed failed s).dom = s.dom ∧ (holdFailed failed s).pins = s.pins ∧ (holdFailed failed s).tdi = s.tdi ∧ (holdFailed failed s).ac = s.ac ∧ (holdFailed failed s).vt = s.vt ∧ (holdFailed failed s).free = s.free ∧ (holdFailed failed s).out = s.out ∧ (holdFailed failed s).pending = s.pending :=
  have k : Off (fun p => p == .link || p == .boot) s (holdFailed failed s) := holdFailed_keeps (Off.keeps _ _) rfl rfl .refl
  ⟨k.clk rfl, k.rcv rfl, k.icu rfl, k.obs rfl, k.sen rfl, k.tamperIn rfl, k.cex rfl, k.xlt rfl, k.srg rfl, k.ods rfl, k.vault rfl, k.kst rfl, k.engKeys rfl, k.kwe rfl, k.pke rfl, k.ent rfl, k.atu rfl, k.lcc rfl, k.mem rfl, k.sheaf rfl, k.dom rfl, k.pins rfl, k.tdi rfl, k.ac rfl, k.vt rfl, k.free rfl, k.out rfl, k.pending rfl⟩

@[simp] theorem loadEct_same {v : EctValues} {s : State} :
    (loadEct v s).clk = s.clk ∧ (loadEct v s).rcv = s.rcv ∧ (loadEct v s).icu = s.icu ∧ (loadEct v s).obs = s.obs ∧ (loadEct v s).tamperIn = s.tamperIn ∧ (loadEct v s).cex = s.cex ∧ (loadEct v s).xlt = s.xlt ∧ (loadEct v s).srg = s.srg ∧ (loadEct v s).vault = s.vault ∧ (loadEct v s).kst = s.kst ∧ (loadEct v s).engKeys = s.engKeys ∧ (loadEct v s).kwe = s.kwe ∧ (loadEct v s).pke = s.pke ∧ (loadEct v s).ent = s.ent ∧ (loadEct v s).atu = s.atu ∧ (loadEct v s).lcc = s.lcc ∧ (loadEct v s).sheaf = s.sheaf ∧ (loadEct v s).dom = s.dom ∧ (loadEct v s).pins = s.pins ∧ (loadEct v s).boot = s.boot ∧ (loadEct v s).tdi = s.tdi ∧ (loadEct v s).ac = s.ac ∧ (loadEct v s).vt = s.vt ∧ (loadEct v s).free = s.free ∧ (loadEct v s).out = s.out ∧ (loadEct v s).pending = s.pending :=
  have k : Off (fun p => p == .sen || p == .ods || p == .mem || p == .link) s (loadEct v s) := loadEct_keeps (Off.keeps _ _) rfl rfl rfl rfl .refl
  ⟨k.clk rfl, k.rcv rfl, k.icu rfl, k.obs rfl, k.tamperIn rfl, k.cex rfl, k.xlt rfl, k.srg rfl, k.vault rfl, k.kst rfl, k.engKeys rfl, k.kwe rfl, k.pke rfl, k.ent rfl, k.atu rfl, k.lcc rfl, k.sheaf rfl, k.dom rfl, k.pins rfl, k.boot rfl, k.tdi rfl, k.ac rfl, k.vt rfl, k.free rfl, k.out rfl, k.pending rfl⟩

@[simp] theorem dropRequests_same {c : Nat} {s : State} :
    (dropRequests c s).clk = s.clk ∧ (dropRequests c s).rcv = s.rcv ∧ (dropRequests c s).icu = s.icu ∧ (dropRequests c s).obs = s.obs ∧ (dropRequests c s).sen = s.sen ∧ (dropRequests c s).tamperIn = s.tamperIn ∧ (dropRequests c s).cex = s.cex ∧ (dropRequests c s).xlt = s.xlt ∧ (dropRequests c s).srg = s.srg ∧ (dropRequests c s).ods = s.ods ∧ (dropRequests c s).vault = s.vault ∧ (dropRequests c s).kst = s.kst ∧ (dropRequests c s).engKeys = s.engKeys ∧ (dropRequests c s).pke = s.pke ∧ (dropRequests c s).ent = s.ent ∧ (dropRequests c s).atu = s.atu ∧ (dropRequests c s).lcc = s.lcc ∧ (dropRequests c s).mem = s.mem ∧ (dropRequests c s).link = s.link ∧ (dropRequests c s).sheaf = s.sheaf ∧ (dropRequests c s).dom = s.dom ∧ (dropRequests c s).pins = s.pins ∧ (dropRequests c s).boot = s.boot ∧ (dropRequests c s).tdi = s.tdi ∧ (dropRequests c s).ac = s.ac ∧ (dropRequests c s).vt = s.vt ∧ (dropRequests c s).free = s.free ∧ (dropRequests c s).pending = s.pending :=
  have k : Off (fun p => p == .kwe || p == .out) s (dropRequests c s) := dropRequests_keeps (Off.keeps _ _) rfl rfl .refl
  ⟨k.clk rfl, k.rcv rfl, k.icu rfl, k.obs rfl, k.sen rfl, k.tamperIn rfl, k.cex rfl, k.xlt rfl, k.srg rfl, k.ods rfl, k.vault rfl, k.kst rfl, k.engKeys rfl, k.pke rfl, k.ent rfl, k.atu rfl, k.lcc rfl, k.mem rfl, k.link rfl, k.sheaf rfl, k.dom rfl, k.pins rfl, k.boot rfl, k.tdi rfl, k.ac rfl, k.vt rfl, k.free rfl, k.pending rfl⟩

@[simp] theorem removeWork_same {c : Nat} {but : Option CmdKey} {s : State} :
    (removeWork c but s).clk = s.clk ∧ (removeWork c but s).sen = s.sen ∧ (removeWork c but s).tamperIn = s.tamperIn ∧ (removeWork c but s).xlt = s.xlt ∧ (removeWork c but s).ods = s.ods ∧ (removeWork c but s).vault = s.vault ∧ (removeWork c but s).kst = s.kst ∧ (removeWork c but s).engKeys = s.engKeys ∧ (removeWork c but s).pke = s.pke ∧ (removeWork c but s).ent = s.ent ∧ (removeWork c but s).atu = s.atu ∧ (removeWork c but s).lcc = s.lcc ∧ (removeWork c but s).sheaf = s.sheaf ∧ (removeWork c but s).pins = s.pins ∧ (removeWork c but s).boot = s.boot ∧ (removeWork c but s).tdi = s.tdi ∧ (removeWork c but s).ac = s.ac ∧ (removeWork c but s).vt = s.vt ∧ (removeWork c but s).free = s.free ∧ (removeWork c but s).pending = s.pending :=
  have k : Off (fun p => p == .rcv || p == .icu || p == .obs || p == .cex || p == .srg || p == .kwe || p == .mem || p == .link || p == .dom || p == .out) s (removeWork c but s) := removeWork_keeps (Off.keeps _ _) rfl rfl rfl rfl rfl rfl rfl rfl rfl rfl .refl
  ⟨k.clk rfl, k.sen rfl, k.tamperIn rfl, k.xlt rfl, k.ods rfl, k.vault rfl, k.kst rfl, k.engKeys rfl, k.pke rfl, k.ent rfl, k.atu rfl, k.lcc rfl, k.sheaf rfl, k.pins rfl, k.boot rfl, k.tdi rfl, k.ac rfl, k.vt rfl, k.free rfl, k.pending rfl⟩

@[simp] theorem breakContext_same {sl c : Nat} {s : State} :
    (breakContext sl c s).clk = s.clk ∧ (breakContext sl c s).rcv = s.rcv ∧ (breakContext sl c s).icu = s.icu ∧ (breakContext sl c s).obs = s.obs ∧ (breakContext sl c s).sen = s.sen ∧ (breakContext sl c s).tamperIn = s.tamperIn ∧ (breakContext sl c s).xlt = s.xlt ∧ (breakContext sl c s).srg = s.srg ∧ (breakContext sl c s).ods = s.ods ∧ (breakContext sl c s).vault = s.vault ∧ (breakContext sl c s).pke = s.pke ∧ (breakContext sl c s).ent = s.ent ∧ (breakContext sl c s).atu = s.atu ∧ (breakContext sl c s).lcc = s.lcc ∧ (breakContext sl c s).mem = s.mem ∧ (breakContext sl c s).link = s.link ∧ (breakContext sl c s).sheaf = s.sheaf ∧ (breakContext sl c s).dom = s.dom ∧ (breakContext sl c s).pins = s.pins ∧ (breakContext sl c s).boot = s.boot ∧ (breakContext sl c s).tdi = s.tdi ∧ (breakContext sl c s).ac = s.ac ∧ (breakContext sl c s).vt = s.vt ∧ (breakContext sl c s).free = s.free ∧ (breakContext sl c s).out = s.out ∧ (breakContext sl c s).pending = s.pending :=
  have k : Off (fun p => p == .cex || p == .kst || p == .engKeys || p == .kwe) s (breakContext sl c s) := breakContext_keeps (Off.keeps _ _) rfl rfl rfl rfl .refl
  ⟨k.clk rfl, k.rcv rfl, k.icu rfl, k.obs rfl, k.sen rfl, k.tamperIn rfl, k.xlt rfl, k.srg rfl, k.ods rfl, k.vault rfl, k.pke rfl, k.ent rfl, k.atu rfl, k.lcc rfl, k.mem rfl, k.link rfl, k.sheaf rfl, k.dom rfl, k.pins rfl, k.boot rfl, k.tdi rfl, k.ac rfl, k.vt rfl, k.free rfl, k.out rfl, k.pending rfl⟩

@[simp] theorem settleKills_same {s : State} :
    (settleKills s).clk = s.clk ∧ (settleKills s).rcv = s.rcv ∧ (settleKills s).icu = s.icu ∧ (settleKills s).obs = s.obs ∧ (settleKills s).sen = s.sen ∧ (settleKills s).tamperIn = s.tamperIn ∧ (settleKills s).xlt = s.xlt ∧ (settleKills s).srg = s.srg ∧ (settleKills s).ods = s.ods ∧ (settleKills s).vault = s.vault ∧ (settleKills s).pke = s.pke ∧ (settleKills s).ent = s.ent ∧ (settleKills s).atu = s.atu ∧ (settleKills s).lcc = s.lcc ∧ (settleKills s).mem = s.mem ∧ (settleKills s).link = s.link ∧ (settleKills s).sheaf = s.sheaf ∧ (settleKills s).dom = s.dom ∧ (settleKills s).pins = s.pins ∧ (settleKills s).boot = s.boot ∧ (settleKills s).tdi = s.tdi ∧ (settleKills s).ac = s.ac ∧ (settleKills s).vt = s.vt ∧ (settleKills s).free = s.free ∧ (settleKills s).out = s.out ∧ (settleKills s).pending = s.pending :=
  have k : Off (fun p => p == .cex || p == .kst || p == .engKeys || p == .kwe) s (settleKills s) := settleKills_keeps (Off.keeps _ _) rfl rfl rfl rfl .refl
  ⟨k.clk rfl, k.rcv rfl, k.icu rfl, k.obs rfl, k.sen rfl, k.tamperIn rfl, k.xlt rfl, k.srg rfl, k.ods rfl, k.vault rfl, k.pke rfl, k.ent rfl, k.atu rfl, k.lcc rfl, k.mem rfl, k.link rfl, k.sheaf rfl, k.dom rfl, k.pins rfl, k.boot rfl, k.tdi rfl, k.ac rfl, k.vt rfl, k.free rfl, k.out rfl, k.pending rfl⟩

@[simp] theorem killContext_same {c : Nat} {key : Option CmdKey} {unit : Nat} {s : State} :
    (killContext c key unit s).clk = s.clk ∧ (killContext c key unit s).sen = s.sen ∧ (killContext c key unit s).tamperIn = s.tamperIn ∧ (killContext c key unit s).xlt = s.xlt ∧ (killContext c key unit s).ods = s.ods ∧ (killContext c key unit s).vault = s.vault ∧ (killContext c key unit s).pke = s.pke ∧ (killContext c key unit s).ent = s.ent ∧ (killContext c key unit s).atu = s.atu ∧ (killContext c key unit s).lcc = s.lcc ∧ (killContext c key unit s).sheaf = s.sheaf ∧ (killContext c key unit s).pins = s.pins ∧ (killContext c key unit s).boot = s.boot ∧ (killContext c key unit s).tdi = s.tdi ∧ (killContext c key unit s).ac = s.ac ∧ (killContext c key unit s).vt = s.vt ∧ (killContext c key unit s).free = s.free ∧ (killContext c key unit s).pending = s.pending :=
  have k : Off (fun p => p == .rcv || p == .icu || p == .obs || p == .cex || p == .srg || p == .kst || p == .engKeys || p == .kwe || p == .mem || p == .link || p == .dom || p == .out) s (killContext c key unit s) := killContext_keeps (Off.keeps _ _) rfl rfl rfl rfl rfl rfl rfl rfl rfl rfl rfl rfl .refl
  ⟨k.clk rfl, k.sen rfl, k.tamperIn rfl, k.xlt rfl, k.ods rfl, k.vault rfl, k.pke rfl, k.ent rfl, k.atu rfl, k.lcc rfl, k.sheaf rfl, k.pins rfl, k.boot rfl, k.tdi rfl, k.ac rfl, k.vt rfl, k.free rfl, k.pending rfl⟩

@[simp] theorem execEntStartupTestsDone_drbgStartUp_same {s : State} :
    (execEntStartupTestsDone.drbgStartUp s).clk = s.clk ∧ (execEntStartupTestsDone.drbgStartUp s).rcv = s.rcv ∧ (execEntStartupTestsDone.drbgStartUp s).icu = s.icu ∧ (execEntStartupTestsDone.drbgStartUp s).obs = s.obs ∧ (execEntStartupTestsDone.drbgStartUp s).sen = s.sen ∧ (execEntStartupTestsDone.drbgStartUp s).tamperIn = s.tamperIn ∧ (execEntStartupTestsDone.drbgStartUp s).cex = s.cex ∧ (execEntStartupTestsDone.drbgStartUp s).xlt = s.xlt ∧ (execEntStartupTestsDone.drbgStartUp s).srg = s.srg ∧ (execEntStartupTestsDone.drbgStartUp s).ods = s.ods ∧ (execEntStartupTestsDone.drbgStartUp s).vault = s.vault ∧ (execEntStartupTestsDone.drbgStartUp s).kst = s.kst ∧ (execEntStartupTestsDone.drbgStartUp s).engKeys = s.engKeys ∧ (execEntStartupTestsDone.drbgStartUp s).kwe = s.kwe ∧ (execEntStartupTestsDone.drbgStartUp s).pke = s.pke ∧ (execEntStartupTestsDone.drbgStartUp s).atu = s.atu ∧ (execEntStartupTestsDone.drbgStartUp s).lcc = s.lcc ∧ (execEntStartupTestsDone.drbgStartUp s).mem = s.mem ∧ (execEntStartupTestsDone.drbgStartUp s).link = s.link ∧ (execEntStartupTestsDone.drbgStartUp s).sheaf = s.sheaf ∧ (execEntStartupTestsDone.drbgStartUp s).dom = s.dom ∧ (execEntStartupTestsDone.drbgStartUp s).pins = s.pins ∧ (execEntStartupTestsDone.drbgStartUp s).boot = s.boot ∧ (execEntStartupTestsDone.drbgStartUp s).tdi = s.tdi ∧ (execEntStartupTestsDone.drbgStartUp s).ac = s.ac ∧ (execEntStartupTestsDone.drbgStartUp s).vt = s.vt ∧ (execEntStartupTestsDone.drbgStartUp s).out = s.out ∧ (execEntStartupTestsDone.drbgStartUp s).pending = s.pending :=
  have k : Off (fun p => p == .ent || p == .free) s (execEntStartupTestsDone.drbgStartUp s) := execEntStartupTestsDone_drbgStartUp_keeps (Off.keeps _ _) rfl rfl .refl
  ⟨k.clk rfl, k.rcv rfl, k.icu rfl, k.obs rfl, k.sen rfl, k.tamperIn rfl, k.cex rfl, k.xlt rfl, k.srg rfl, k.ods rfl, k.vault rfl, k.kst rfl, k.engKeys rfl, k.kwe rfl, k.pke rfl, k.atu rfl, k.lcc rfl, k.mem rfl, k.link rfl, k.sheaf rfl, k.dom rfl, k.pins rfl, k.boot rfl, k.tdi rfl, k.ac rfl, k.vt rfl, k.out rfl, k.pending rfl⟩

@[simp] theorem kweStart_same {a : Nat} {a1 : State} :
    (kweStart a a1).clk = a1.clk ∧ (kweStart a a1).rcv = a1.rcv ∧ (kweStart a a1).icu = a1.icu ∧ (kweStart a a1).obs = a1.obs ∧ (kweStart a a1).sen = a1.sen ∧ (kweStart a a1).tamperIn = a1.tamperIn ∧ (kweStart a a1).cex = a1.cex ∧ (kweStart a a1).xlt = a1.xlt ∧ (kweStart a a1).srg = a1.srg ∧ (kweStart a a1).ods = a1.ods ∧ (kweStart a a1).vault = a1.vault ∧ (kweStart a a1).kst = a1.kst ∧ (kweStart a a1).engKeys = a1.engKeys ∧ (kweStart a a1).pke = a1.pke ∧ (kweStart a a1).ent = a1.ent ∧ (kweStart a a1).atu = a1.atu ∧ (kweStart a a1).lcc = a1.lcc ∧ (kweStart a a1).mem = a1.mem ∧ (kweStart a a1).link = a1.link ∧ (kweStart a a1).sheaf = a1.sheaf ∧ (kweStart a a1).dom = a1.dom ∧ (kweStart a a1).pins = a1.pins ∧ (kweStart a a1).boot = a1.boot ∧ (kweStart a a1).tdi = a1.tdi ∧ (kweStart a a1).ac = a1.ac ∧ (kweStart a a1).vt = a1.vt ∧ (kweStart a a1).free = a1.free ∧ (kweStart a a1).pending = a1.pending :=
  have k : Off (fun p => p == .kwe || p == .out) a1 (kweStart a a1) := kweStart_keeps (Off.keeps _ _) rfl rfl .refl
  ⟨k.clk rfl, k.rcv rfl, k.icu rfl, k.obs rfl, k.sen rfl, k.tamperIn rfl, k.cex rfl, k.xlt rfl, k.srg rfl, k.ods rfl, k.vault rfl, k.kst rfl, k.engKeys rfl, k.pke rfl, k.ent rfl, k.atu rfl, k.lcc rfl, k.mem rfl, k.link rfl, k.sheaf rfl, k.dom rfl, k.pins rfl, k.boot rfl, k.tdi rfl, k.ac rfl, k.vt rfl, k.free rfl, k.pending rfl⟩

@[simp] theorem exportBody_same {h : CmdHdr} {out m slot kind log2 : Nat} {g : Gather} {got : Nat → Option Line} {s : State} :
    (exportBody h out m slot kind log2 g got s).clk = s.clk ∧ (exportBody h out m slot kind log2 g got s).rcv = s.rcv ∧ (exportBody h out m slot kind log2 g got s).icu = s.icu ∧ (exportBody h out m slot kind log2 g got s).obs = s.obs ∧ (exportBody h out m slot kind log2 g got s).sen = s.sen ∧ (exportBody h out m slot kind log2 g got s).tamperIn = s.tamperIn ∧ (exportBody h out m slot kind log2 g got s).xlt = s.xlt ∧ (exportBody h out m slot kind log2 g got s).srg = s.srg ∧ (exportBody h out m slot kind log2 g got s).ods = s.ods ∧ (exportBody h out m slot kind log2 g got s).vault = s.vault ∧ (exportBody h out m slot kind log2 g got s).atu = s.atu ∧ (exportBody h out m slot kind log2 g got s).lcc = s.lcc ∧ (exportBody h out m slot kind log2 g got s).mem = s.mem ∧ (exportBody h out m slot kind log2 g got s).link = s.link ∧ (exportBody h out m slot kind log2 g got s).sheaf = s.sheaf ∧ (exportBody h out m slot kind log2 g got s).dom = s.dom ∧ (exportBody h out m slot kind log2 g got s).pins = s.pins ∧ (exportBody h out m slot kind log2 g got s).boot = s.boot ∧ (exportBody h out m slot kind log2 g got s).tdi = s.tdi ∧ (exportBody h out m slot kind log2 g got s).ac = s.ac ∧ (exportBody h out m slot kind log2 g got s).vt = s.vt ∧ (exportBody h out m slot kind log2 g got s).pending = s.pending :=
  have k : Off (fun p => p == .cex || p == .kst || p == .engKeys || p == .kwe || p == .pke || p == .ent || p == .free || p == .out) s (exportBody h out m slot kind log2 g got s) := exportBody_keeps (Off.keeps _ _) rfl rfl rfl rfl rfl rfl rfl rfl .refl
  ⟨k.clk rfl, k.rcv rfl, k.icu rfl, k.obs rfl, k.sen rfl, k.tamperIn rfl, k.xlt rfl, k.srg rfl, k.ods rfl, k.vault rfl, k.atu rfl, k.lcc rfl, k.mem rfl, k.link rfl, k.sheaf rfl, k.dom rfl, k.pins rfl, k.boot rfl, k.tdi rfl, k.ac rfl, k.vt rfl, k.pending rfl⟩

@[simp] theorem dropBlocks_same {k : CmdKey} {s : State} :
    (dropBlocks k s).clk = s.clk ∧ (dropBlocks k s).rcv = s.rcv ∧ (dropBlocks k s).icu = s.icu ∧ (dropBlocks k s).obs = s.obs ∧ (dropBlocks k s).sen = s.sen ∧ (dropBlocks k s).tamperIn = s.tamperIn ∧ (dropBlocks k s).cex = s.cex ∧ (dropBlocks k s).xlt = s.xlt ∧ (dropBlocks k s).srg = s.srg ∧ (dropBlocks k s).ods = s.ods ∧ (dropBlocks k s).vault = s.vault ∧ (dropBlocks k s).kst = s.kst ∧ (dropBlocks k s).engKeys = s.engKeys ∧ (dropBlocks k s).kwe = s.kwe ∧ (dropBlocks k s).pke = s.pke ∧ (dropBlocks k s).ent = s.ent ∧ (dropBlocks k s).atu = s.atu ∧ (dropBlocks k s).lcc = s.lcc ∧ (dropBlocks k s).link = s.link ∧ (dropBlocks k s).sheaf = s.sheaf ∧ (dropBlocks k s).dom = s.dom ∧ (dropBlocks k s).pins = s.pins ∧ (dropBlocks k s).boot = s.boot ∧ (dropBlocks k s).tdi = s.tdi ∧ (dropBlocks k s).ac = s.ac ∧ (dropBlocks k s).vt = s.vt ∧ (dropBlocks k s).free = s.free ∧ (dropBlocks k s).out = s.out ∧ (dropBlocks k s).pending = s.pending :=
  have k : Off (fun p => p == .mem) s (dropBlocks k s) := dropBlocks_keeps (Off.keeps _ _) rfl .refl
  ⟨k.clk rfl, k.rcv rfl, k.icu rfl, k.obs rfl, k.sen rfl, k.tamperIn rfl, k.cex rfl, k.xlt rfl, k.srg rfl, k.ods rfl, k.vault rfl, k.kst rfl, k.engKeys rfl, k.kwe rfl, k.pke rfl, k.ent rfl, k.atu rfl, k.lcc rfl, k.link rfl, k.sheaf rfl, k.dom rfl, k.pins rfl, k.boot rfl, k.tdi rfl, k.ac rfl, k.vt rfl, k.free rfl, k.out rfl, k.pending rfl⟩

@[simp] theorem blockRead_same {k : CmdKey} {who : Nat} {s : State} {l : Nat × Nat} :
    (blockRead k who s l).clk = s.clk ∧ (blockRead k who s l).sen = s.sen ∧ (blockRead k who s l).tamperIn = s.tamperIn ∧ (blockRead k who s l).xlt = s.xlt ∧ (blockRead k who s l).vault = s.vault ∧ (blockRead k who s l).atu = s.atu ∧ (blockRead k who s l).lcc = s.lcc ∧ (blockRead k who s l).boot = s.boot ∧ (blockRead k who s l).tdi = s.tdi ∧ (blockRead k who s l).free = s.free ∧ (blockRead k who s l).pending = s.pending :=
  have k : Off (fun p => p == .rcv || p == .icu || p == .obs || p == .cex || p == .srg || p == .ods || p == .kst || p == .engKeys || p == .kwe || p == .pke || p == .ent || p == .mem || p == .link || p == .sheaf || p == .dom || p == .pins || p == .ac || p == .vt || p == .out) s (blockRead k who s l) := blockRead_keeps (Off.keeps _ _) rfl rfl rfl rfl rfl rfl rfl rfl rfl rfl rfl rfl rfl rfl rfl rfl rfl rfl rfl .refl
  ⟨k.clk rfl, k.sen rfl, k.tamperIn rfl, k.xlt rfl, k.vault rfl, k.atu rfl, k.lcc rfl, k.boot rfl, k.tdi rfl, k.free rfl, k.pending rfl⟩

@[simp] theorem copyBody_same {h : CmdHdr} {n : Nat} {g : Gather} {got : Nat → Option Line} {s : State} :
    (copyBody h n g got s).clk = s.clk ∧ (copyBody h n g got s).sen = s.sen ∧ (copyBody h n g got s).tamperIn = s.tamperIn ∧ (copyBody h n g got s).xlt = s.xlt ∧ (copyBody h n g got s).srg = s.srg ∧ (copyBody h n g got s).ods = s.ods ∧ (copyBody h n g got s).vault = s.vault ∧ (copyBody h n g got s).kst = s.kst ∧ (copyBody h n g got s).kwe = s.kwe ∧ (copyBody h n g got s).pke = s.pke ∧ (copyBody h n g got s).atu = s.atu ∧ (copyBody h n g got s).lcc = s.lcc ∧ (copyBody h n g got s).link = s.link ∧ (copyBody h n g got s).dom = s.dom ∧ (copyBody h n g got s).pins = s.pins ∧ (copyBody h n g got s).boot = s.boot ∧ (copyBody h n g got s).tdi = s.tdi ∧ (copyBody h n g got s).ac = s.ac ∧ (copyBody h n g got s).vt = s.vt ∧ (copyBody h n g got s).pending = s.pending :=
  have k : Off (fun p => p == .rcv || p == .icu || p == .obs || p == .cex || p == .engKeys || p == .ent || p == .mem || p == .sheaf || p == .free || p == .out) s (copyBody h n g got s) := copyBody_keeps (Off.keeps _ _) rfl rfl rfl rfl rfl rfl rfl rfl rfl rfl .refl
  ⟨k.clk rfl, k.sen rfl, k.tamperIn rfl, k.xlt rfl, k.srg rfl, k.ods rfl, k.vault rfl, k.kst rfl, k.kwe rfl, k.pke rfl, k.atu rfl, k.lcc rfl, k.link rfl, k.dom rfl, k.pins rfl, k.boot rfl, k.tdi rfl, k.ac rfl, k.vt rfl, k.pending rfl⟩

@[simp] theorem bindSheaves_same {rs : List Nat} {bound : Nat} {s : State} :
    (bindSheaves rs bound s).clk = s.clk ∧ (bindSheaves rs bound s).rcv = s.rcv ∧ (bindSheaves rs bound s).icu = s.icu ∧ (bindSheaves rs bound s).obs = s.obs ∧ (bindSheaves rs bound s).sen = s.sen ∧ (bindSheaves rs bound s).tamperIn = s.tamperIn ∧ (bindSheaves rs bound s).cex = s.cex ∧ (bindSheaves rs bound s).xlt = s.xlt ∧ (bindSheaves rs bound s).srg = s.srg ∧ (bindSheaves rs bound s).ods = s.ods ∧ (bindSheaves rs bound s).vault = s.vault ∧ (bindSheaves rs bound s).kst = s.kst ∧ (bindSheaves rs bound s).engKeys = s.engKeys ∧ (bindSheaves rs bound s).kwe = s.kwe ∧ (bindSheaves rs bound s).pke = s.pke ∧ (bindSheaves rs bound s).ent = s.ent ∧ (bindSheaves rs bound s).atu = s.atu ∧ (bindSheaves rs bound s).lcc = s.lcc ∧ (bindSheaves rs bound s).mem = s.mem ∧ (bindSheaves rs bound s).link = s.link ∧ (bindSheaves rs bound s).dom = s.dom ∧ (bindSheaves rs bound s).pins = s.pins ∧ (bindSheaves rs bound s).boot = s.boot ∧ (bindSheaves rs bound s).tdi = s.tdi ∧ (bindSheaves rs bound s).ac = s.ac ∧ (bindSheaves rs bound s).vt = s.vt ∧ (bindSheaves rs bound s).free = s.free ∧ (bindSheaves rs bound s).out = s.out ∧ (bindSheaves rs bound s).pending = s.pending :=
  have k : Off (fun p => p == .sheaf) s (bindSheaves rs bound s) := bindSheaves_keeps (Off.keeps _ _) rfl .refl
  ⟨k.clk rfl, k.rcv rfl, k.icu rfl, k.obs rfl, k.sen rfl, k.tamperIn rfl, k.cex rfl, k.xlt rfl, k.srg rfl, k.ods rfl, k.vault rfl, k.kst rfl, k.engKeys rfl, k.kwe rfl, k.pke rfl, k.ent rfl, k.atu rfl, k.lcc rfl, k.mem rfl, k.link rfl, k.dom rfl, k.pins rfl, k.boot rfl, k.tdi rfl, k.ac rfl, k.vt rfl, k.free rfl, k.out rfl, k.pending rfl⟩

@[simp] theorem importFailed_same {rs : List Nat} {s : State} :
    (importFailed rs s).clk = s.clk ∧ (importFailed rs s).rcv = s.rcv ∧ (importFailed rs s).icu = s.icu ∧ (importFailed rs s).obs = s.obs ∧ (importFailed rs s).sen = s.sen ∧ (importFailed rs s).tamperIn = s.tamperIn ∧ (importFailed rs s).cex = s.cex ∧ (importFailed rs s).xlt = s.xlt ∧ (importFailed rs s).srg = s.srg ∧ (importFailed rs s).ods = s.ods ∧ (importFailed rs s).vault = s.vault ∧ (importFailed rs s).kst = s.kst ∧ (importFailed rs s).engKeys = s.engKeys ∧ (importFailed rs s).kwe = s.kwe ∧ (importFailed rs s).pke = s.pke ∧ (importFailed rs s).ent = s.ent ∧ (importFailed rs s).atu = s.atu ∧ (importFailed rs s).lcc = s.lcc ∧ (importFailed rs s).link = s.link ∧ (importFailed rs s).sheaf = s.sheaf ∧ (importFailed rs s).dom = s.dom ∧ (importFailed rs s).pins = s.pins ∧ (importFailed rs s).boot = s.boot ∧ (importFailed rs s).tdi = s.tdi ∧ (importFailed rs s).ac = s.ac ∧ (importFailed rs s).vt = s.vt ∧ (importFailed rs s).free = s.free ∧ (importFailed rs s).out = s.out ∧ (importFailed rs s).pending = s.pending :=
  have k : Off (fun p => p == .mem) s (importFailed rs s) := importFailed_keeps (Off.keeps _ _) rfl .refl
  ⟨k.clk rfl, k.rcv rfl, k.icu rfl, k.obs rfl, k.sen rfl, k.tamperIn rfl, k.cex rfl, k.xlt rfl, k.srg rfl, k.ods rfl, k.vault rfl, k.kst rfl, k.engKeys rfl, k.kwe rfl, k.pke rfl, k.ent rfl, k.atu rfl, k.lcc rfl, k.link rfl, k.sheaf rfl, k.dom rfl, k.pins rfl, k.boot rfl, k.tdi rfl, k.ac rfl, k.vt rfl, k.free rfl, k.out rfl, k.pending rfl⟩

@[simp] theorem debugRequest_same {scopes : Nat} {s : State} :
    (debugRequest scopes s).clk = s.clk ∧ (debugRequest scopes s).sen = s.sen ∧ (debugRequest scopes s).tamperIn = s.tamperIn ∧ (debugRequest scopes s).xlt = s.xlt ∧ (debugRequest scopes s).srg = s.srg ∧ (debugRequest scopes s).ods = s.ods ∧ (debugRequest scopes s).vault = s.vault ∧ (debugRequest scopes s).dom = s.dom ∧ (debugRequest scopes s).pins = s.pins ∧ (debugRequest scopes s).boot = s.boot ∧ (debugRequest scopes s).tdi = s.tdi ∧ (debugRequest scopes s).pending = s.pending :=
  have k : Off (fun p => p == .rcv || p == .icu || p == .obs || p == .cex || p == .kst || p == .engKeys || p == .kwe || p == .pke || p == .ent || p == .atu || p == .lcc || p == .mem || p == .link || p == .sheaf || p == .ac || p == .vt || p == .free || p == .out) s (debugRequest scopes s) := debugRequest_keeps (Off.keeps _ _) rfl rfl rfl rfl rfl rfl rfl rfl rfl rfl rfl rfl rfl rfl rfl rfl rfl rfl .refl
  ⟨k.clk rfl, k.sen rfl, k.tamperIn rfl, k.xlt rfl, k.srg rfl, k.ods rfl, k.vault rfl, k.dom rfl, k.pins rfl, k.boot rfl, k.tdi rfl, k.pending rfl⟩

@[simp] theorem lcRequest_same {req : Bytes} {s : State} :
    (lcRequest req s).clk = s.clk ∧ (lcRequest req s).rcv = s.rcv ∧ (lcRequest req s).icu = s.icu ∧ (lcRequest req s).obs = s.obs ∧ (lcRequest req s).sen = s.sen ∧ (lcRequest req s).tamperIn = s.tamperIn ∧ (lcRequest req s).cex = s.cex ∧ (lcRequest req s).xlt = s.xlt ∧ (lcRequest req s).srg = s.srg ∧ (lcRequest req s).ods = s.ods ∧ (lcRequest req s).vault = s.vault ∧ (lcRequest req s).kst = s.kst ∧ (lcRequest req s).engKeys = s.engKeys ∧ (lcRequest req s).kwe = s.kwe ∧ (lcRequest req s).pke = s.pke ∧ (lcRequest req s).ent = s.ent ∧ (lcRequest req s).atu = s.atu ∧ (lcRequest req s).mem = s.mem ∧ (lcRequest req s).link = s.link ∧ (lcRequest req s).sheaf = s.sheaf ∧ (lcRequest req s).dom = s.dom ∧ (lcRequest req s).pins = s.pins ∧ (lcRequest req s).boot = s.boot ∧ (lcRequest req s).tdi = s.tdi ∧ (lcRequest req s).ac = s.ac ∧ (lcRequest req s).vt = s.vt ∧ (lcRequest req s).free = s.free ∧ (lcRequest req s).out = s.out ∧ (lcRequest req s).pending = s.pending :=
  have k : Off (fun p => p == .lcc) s (lcRequest req s) := lcRequest_keeps (Off.keeps _ _) rfl .refl
  ⟨k.clk rfl, k.rcv rfl, k.icu rfl, k.obs rfl, k.sen rfl, k.tamperIn rfl, k.cex rfl, k.xlt rfl, k.srg rfl, k.ods rfl, k.vault rfl, k.kst rfl, k.engKeys rfl, k.kwe rfl, k.pke rfl, k.ent rfl, k.atu rfl, k.mem rfl, k.link rfl, k.sheaf rfl, k.dom rfl, k.pins rfl, k.boot rfl, k.tdi rfl, k.ac rfl, k.vt rfl, k.free rfl, k.out rfl, k.pending rfl⟩

@[simp] theorem debugResponse_same {v : Bytes} {s : State} :
    (debugResponse v s).clk = s.clk ∧ (debugResponse v s).sen = s.sen ∧ (debugResponse v s).tamperIn = s.tamperIn ∧ (debugResponse v s).xlt = s.xlt ∧ (debugResponse v s).srg = s.srg ∧ (debugResponse v s).ods = s.ods ∧ (debugResponse v s).vault = s.vault ∧ (debugResponse v s).ent = s.ent ∧ (debugResponse v s).dom = s.dom ∧ (debugResponse v s).pins = s.pins ∧ (debugResponse v s).boot = s.boot ∧ (debugResponse v s).tdi = s.tdi ∧ (debugResponse v s).free = s.free ∧ (debugResponse v s).pending = s.pending :=
  have k : Off (fun p => p == .rcv || p == .icu || p == .obs || p == .cex || p == .kst || p == .engKeys || p == .kwe || p == .pke || p == .atu || p == .lcc || p == .mem || p == .link || p == .sheaf || p == .ac || p == .vt || p == .out) s (debugResponse v s) := debugResponse_keeps (Off.keeps _ _) rfl rfl rfl rfl rfl rfl rfl rfl rfl rfl rfl rfl rfl rfl rfl rfl .refl
  ⟨k.clk rfl, k.sen rfl, k.tamperIn rfl, k.xlt rfl, k.srg rfl, k.ods rfl, k.vault rfl, k.ent rfl, k.dom rfl, k.pins rfl, k.boot rfl, k.tdi rfl, k.free rfl, k.pending rfl⟩

@[simp] theorem program_same {w bits : Nat} {s : State} :
    (program w bits s).clk = s.clk ∧ (program w bits s).rcv = s.rcv ∧ (program w bits s).icu = s.icu ∧ (program w bits s).obs = s.obs ∧ (program w bits s).sen = s.sen ∧ (program w bits s).tamperIn = s.tamperIn ∧ (program w bits s).cex = s.cex ∧ (program w bits s).xlt = s.xlt ∧ (program w bits s).srg = s.srg ∧ (program w bits s).ods = s.ods ∧ (program w bits s).vault = s.vault ∧ (program w bits s).kst = s.kst ∧ (program w bits s).engKeys = s.engKeys ∧ (program w bits s).kwe = s.kwe ∧ (program w bits s).pke = s.pke ∧ (program w bits s).ent = s.ent ∧ (program w bits s).atu = s.atu ∧ (program w bits s).mem = s.mem ∧ (program w bits s).link = s.link ∧ (program w bits s).sheaf = s.sheaf ∧ (program w bits s).dom = s.dom ∧ (program w bits s).pins = s.pins ∧ (program w bits s).boot = s.boot ∧ (program w bits s).tdi = s.tdi ∧ (program w bits s).ac = s.ac ∧ (program w bits s).vt = s.vt ∧ (program w bits s).free = s.free ∧ (program w bits s).out = s.out ∧ (program w bits s).pending = s.pending :=
  have k : Off (fun p => p == .lcc) s (program w bits s) := program_keeps (Off.keeps _ _) rfl .refl
  ⟨k.clk rfl, k.rcv rfl, k.icu rfl, k.obs rfl, k.sen rfl, k.tamperIn rfl, k.cex rfl, k.xlt rfl, k.srg rfl, k.ods rfl, k.vault rfl, k.kst rfl, k.engKeys rfl, k.kwe rfl, k.pke rfl, k.ent rfl, k.atu rfl, k.mem rfl, k.link rfl, k.sheaf rfl, k.dom rfl, k.pins rfl, k.boot rfl, k.tdi rfl, k.ac rfl, k.vt rfl, k.free rfl, k.out rfl, k.pending rfl⟩

@[simp] theorem updSrc_same {pair : Bool} {n : Nat} {f : IcuSrc → IcuSrc} {s : State} :
    (updSrc pair n f s).clk = s.clk ∧ (updSrc pair n f s).rcv = s.rcv ∧ (updSrc pair n f s).obs = s.obs ∧ (updSrc pair n f s).sen = s.sen ∧ (updSrc pair n f s).tamperIn = s.tamperIn ∧ (updSrc pair n f s).cex = s.cex ∧ (updSrc pair n f s).xlt = s.xlt ∧ (updSrc pair n f s).srg = s.srg ∧ (updSrc pair n f s).ods = s.ods ∧ (updSrc pair n f s).vault = s.vault ∧ (updSrc pair n f s).kst = s.kst ∧ (updSrc pair n f s).engKeys = s.engKeys ∧ (updSrc pair n f s).kwe = s.kwe ∧ (updSrc pair n f s).pke = s.pke ∧ (updSrc pair n f s).ent = s.ent ∧ (updSrc pair n f s).atu = s.atu ∧ (updSrc pair n f s).lcc = s.lcc ∧ (updSrc pair n f s).mem = s.mem ∧ (updSrc pair n f s).link = s.link ∧ (updSrc pair n f s).sheaf = s.sheaf ∧ (updSrc pair n f s).dom = s.dom ∧ (updSrc pair n f s).pins = s.pins ∧ (updSrc pair n f s).boot = s.boot ∧ (updSrc pair n f s).tdi = s.tdi ∧ (updSrc pair n f s).ac = s.ac ∧ (updSrc pair n f s).vt = s.vt ∧ (updSrc pair n f s).free = s.free ∧ (updSrc pair n f s).out = s.out ∧ (updSrc pair n f s).pending = s.pending :=
  have k : Off (fun p => p == .icu) s (updSrc pair n f s) := updSrc_keeps (Off.keeps _ _) rfl .refl
  ⟨k.clk rfl, k.rcv rfl, k.obs rfl, k.sen rfl, k.tamperIn rfl, k.cex rfl, k.xlt rfl, k.srg rfl, k.ods rfl, k.vault rfl, k.kst rfl, k.engKeys rfl, k.kwe rfl, k.pke rfl, k.ent rfl, k.atu rfl, k.lcc rfl, k.mem rfl, k.link rfl, k.sheaf rfl, k.dom rfl, k.pins rfl, k.boot rfl, k.tdi rfl, k.ac rfl, k.vt rfl, k.free rfl, k.out rfl, k.pending rfl⟩

@[simp] theorem stormCheck_same {pair : Bool} {n : Nat} {s : State} :
    (stormCheck pair n s).clk = s.clk ∧ (stormCheck pair n s).sen = s.sen ∧ (stormCheck pair n s).tamperIn = s.tamperIn ∧ (stormCheck pair n s).cex = s.cex ∧ (stormCheck pair n s).xlt = s.xlt ∧ (stormCheck pair n s).srg = s.srg ∧ (stormCheck pair n s).ods = s.ods ∧ (stormCheck pair n s).vault = s.vault ∧ (stormCheck pair n s).kst = s.kst ∧ (stormCheck pair n s).engKeys = s.engKeys ∧ (stormCheck pair n s).kwe = s.kwe ∧ (stormCheck pair n s).pke = s.pke ∧ (stormCheck pair n s).ent = s.ent ∧ (stormCheck pair n s).atu = s.atu ∧ (stormCheck pair n s).lcc = s.lcc ∧ (stormCheck pair n s).mem = s.mem ∧ (stormCheck pair n s).link = s.link ∧ (stormCheck pair n s).sheaf = s.sheaf ∧ (stormCheck pair n s).dom = s.dom ∧ (stormCheck pair n s).pins = s.pins ∧ (stormCheck pair n s).boot = s.boot ∧ (stormCheck pair n s).tdi = s.tdi ∧ (stormCheck pair n s).ac = s.ac ∧ (stormCheck pair n s).vt = s.vt ∧ (stormCheck pair n s).free = s.free ∧ (stormCheck pair n s).pending = s.pending :=
  have k : Off (fun p => p == .rcv || p == .icu || p == .obs || p == .out) s (stormCheck pair n s) := stormCheck_keeps (Off.keeps _ _) rfl rfl rfl rfl .refl
  ⟨k.clk rfl, k.sen rfl, k.tamperIn rfl, k.cex rfl, k.xlt rfl, k.srg rfl, k.ods rfl, k.vault rfl, k.kst rfl, k.engKeys rfl, k.kwe rfl, k.pke rfl, k.ent rfl, k.atu rfl, k.lcc rfl, k.mem rfl, k.link rfl, k.sheaf rfl, k.dom rfl, k.pins rfl, k.boot rfl, k.tdi rfl, k.ac rfl, k.vt rfl, k.free rfl, k.pending rfl⟩

@[simp] theorem eoiAccept_same {pair : Bool} {n : Nat} {s : State} :
    (eoiAccept pair n s).clk = s.clk ∧ (eoiAccept pair n s).sen = s.sen ∧ (eoiAccept pair n s).tamperIn = s.tamperIn ∧ (eoiAccept pair n s).cex = s.cex ∧ (eoiAccept pair n s).xlt = s.xlt ∧ (eoiAccept pair n s).srg = s.srg ∧ (eoiAccept pair n s).ods = s.ods ∧ (eoiAccept pair n s).vault = s.vault ∧ (eoiAccept pair n s).kst = s.kst ∧ (eoiAccept pair n s).engKeys = s.engKeys ∧ (eoiAccept pair n s).kwe = s.kwe ∧ (eoiAccept pair n s).pke = s.pke ∧ (eoiAccept pair n s).ent = s.ent ∧ (eoiAccept pair n s).atu = s.atu ∧ (eoiAccept pair n s).lcc = s.lcc ∧ (eoiAccept pair n s).mem = s.mem ∧ (eoiAccept pair n s).link = s.link ∧ (eoiAccept pair n s).sheaf = s.sheaf ∧ (eoiAccept pair n s).dom = s.dom ∧ (eoiAccept pair n s).pins = s.pins ∧ (eoiAccept pair n s).boot = s.boot ∧ (eoiAccept pair n s).tdi = s.tdi ∧ (eoiAccept pair n s).ac = s.ac ∧ (eoiAccept pair n s).vt = s.vt ∧ (eoiAccept pair n s).free = s.free ∧ (eoiAccept pair n s).pending = s.pending :=
  have k : Off (fun p => p == .rcv || p == .icu || p == .obs || p == .out) s (eoiAccept pair n s) := eoiAccept_keeps (Off.keeps _ _) rfl rfl rfl rfl .refl
  ⟨k.clk rfl, k.sen rfl, k.tamperIn rfl, k.cex rfl, k.xlt rfl, k.srg rfl, k.ods rfl, k.vault rfl, k.kst rfl, k.engKeys rfl, k.kwe rfl, k.pke rfl, k.ent rfl, k.atu rfl, k.lcc rfl, k.mem rfl, k.link rfl, k.sheaf rfl, k.dom rfl, k.pins rfl, k.boot rfl, k.tdi rfl, k.ac rfl, k.vt rfl, k.free rfl, k.pending rfl⟩

@[simp] theorem awake_same {pair : Bool} {s : State} :
    (awake pair s).clk = s.clk ∧ (awake pair s).rcv = s.rcv ∧ (awake pair s).obs = s.obs ∧ (awake pair s).sen = s.sen ∧ (awake pair s).tamperIn = s.tamperIn ∧ (awake pair s).cex = s.cex ∧ (awake pair s).xlt = s.xlt ∧ (awake pair s).srg = s.srg ∧ (awake pair s).ods = s.ods ∧ (awake pair s).vault = s.vault ∧ (awake pair s).kst = s.kst ∧ (awake pair s).engKeys = s.engKeys ∧ (awake pair s).kwe = s.kwe ∧ (awake pair s).pke = s.pke ∧ (awake pair s).ent = s.ent ∧ (awake pair s).atu = s.atu ∧ (awake pair s).lcc = s.lcc ∧ (awake pair s).mem = s.mem ∧ (awake pair s).link = s.link ∧ (awake pair s).sheaf = s.sheaf ∧ (awake pair s).dom = s.dom ∧ (awake pair s).pins = s.pins ∧ (awake pair s).boot = s.boot ∧ (awake pair s).tdi = s.tdi ∧ (awake pair s).ac = s.ac ∧ (awake pair s).vt = s.vt ∧ (awake pair s).free = s.free ∧ (awake pair s).out = s.out ∧ (awake pair s).pending = s.pending :=
  have k : Off (fun p => p == .icu) s (awake pair s) := awake_keeps (Off.keeps _ _) rfl .refl
  ⟨k.clk rfl, k.rcv rfl, k.obs rfl, k.sen rfl, k.tamperIn rfl, k.cex rfl, k.xlt rfl, k.srg rfl, k.ods rfl, k.vault rfl, k.kst rfl, k.engKeys rfl, k.kwe rfl, k.pke rfl, k.ent rfl, k.atu rfl, k.lcc rfl, k.mem rfl, k.link rfl, k.sheaf rfl, k.dom rfl, k.pins rfl, k.boot rfl, k.tdi rfl, k.ac rfl, k.vt rfl, k.free rfl, k.out rfl, k.pending rfl⟩

@[simp] theorem pendSet1_same {pair : Bool} {n : Nat} {s : State} :
    (pendSet1 pair n s).clk = s.clk ∧ (pendSet1 pair n s).rcv = s.rcv ∧ (pendSet1 pair n s).sen = s.sen ∧ (pendSet1 pair n s).tamperIn = s.tamperIn ∧ (pendSet1 pair n s).cex = s.cex ∧ (pendSet1 pair n s).xlt = s.xlt ∧ (pendSet1 pair n s).srg = s.srg ∧ (pendSet1 pair n s).ods = s.ods ∧ (pendSet1 pair n s).vault = s.vault ∧ (pendSet1 pair n s).kst = s.kst ∧ (pendSet1 pair n s).engKeys = s.engKeys ∧ (pendSet1 pair n s).kwe = s.kwe ∧ (pendSet1 pair n s).pke = s.pke ∧ (pendSet1 pair n s).ent = s.ent ∧ (pendSet1 pair n s).atu = s.atu ∧ (pendSet1 pair n s).lcc = s.lcc ∧ (pendSet1 pair n s).mem = s.mem ∧ (pendSet1 pair n s).link = s.link ∧ (pendSet1 pair n s).sheaf = s.sheaf ∧ (pendSet1 pair n s).dom = s.dom ∧ (pendSet1 pair n s).pins = s.pins ∧ (pendSet1 pair n s).boot = s.boot ∧ (pendSet1 pair n s).tdi = s.tdi ∧ (pendSet1 pair n s).ac = s.ac ∧ (pendSet1 pair n s).vt = s.vt ∧ (pendSet1 pair n s).free = s.free ∧ (pendSet1 pair n s).pending = s.pending :=
  have k : Off (fun p => p == .icu || p == .obs || p == .out) s (pendSet1 pair n s) := pendSet1_keeps (Off.keeps _ _) rfl rfl rfl .refl
  ⟨k.clk rfl, k.rcv rfl, k.sen rfl, k.tamperIn rfl, k.cex rfl, k.xlt rfl, k.srg rfl, k.ods rfl, k.vault rfl, k.kst rfl, k.engKeys rfl, k.kwe rfl, k.pke rfl, k.ent rfl, k.atu rfl, k.lcc rfl, k.mem rfl, k.link rfl, k.sheaf rfl, k.dom rfl, k.pins rfl, k.boot rfl, k.tdi rfl, k.ac rfl, k.vt rfl, k.free rfl, k.pending rfl⟩

@[simp] theorem fwdHand_same {pair : Bool} {s : State} :
    (fwdHand pair s).clk = s.clk ∧ (fwdHand pair s).rcv = s.rcv ∧ (fwdHand pair s).obs = s.obs ∧ (fwdHand pair s).sen = s.sen ∧ (fwdHand pair s).tamperIn = s.tamperIn ∧ (fwdHand pair s).xlt = s.xlt ∧ (fwdHand pair s).srg = s.srg ∧ (fwdHand pair s).ods = s.ods ∧ (fwdHand pair s).vault = s.vault ∧ (fwdHand pair s).kst = s.kst ∧ (fwdHand pair s).engKeys = s.engKeys ∧ (fwdHand pair s).kwe = s.kwe ∧ (fwdHand pair s).pke = s.pke ∧ (fwdHand pair s).ent = s.ent ∧ (fwdHand pair s).atu = s.atu ∧ (fwdHand pair s).lcc = s.lcc ∧ (fwdHand pair s).mem = s.mem ∧ (fwdHand pair s).link = s.link ∧ (fwdHand pair s).sheaf = s.sheaf ∧ (fwdHand pair s).dom = s.dom ∧ (fwdHand pair s).pins = s.pins ∧ (fwdHand pair s).boot = s.boot ∧ (fwdHand pair s).tdi = s.tdi ∧ (fwdHand pair s).ac = s.ac ∧ (fwdHand pair s).vt = s.vt ∧ (fwdHand pair s).free = s.free ∧ (fwdHand pair s).out = s.out ∧ (fwdHand pair s).pending = s.pending :=
  have k : Off (fun p => p == .icu || p == .cex) s (fwdHand pair s) := fwdHand_keeps (Off.keeps _ _) rfl rfl .refl
  ⟨k.clk rfl, k.rcv rfl, k.obs rfl, k.sen rfl, k.tamperIn rfl, k.xlt rfl, k.srg rfl, k.ods rfl, k.vault rfl, k.kst rfl, k.engKeys rfl, k.kwe rfl, k.pke rfl, k.ent rfl, k.atu rfl, k.lcc rfl, k.mem rfl, k.link rfl, k.sheaf rfl, k.dom rfl, k.pins rfl, k.boot rfl, k.tdi rfl, k.ac rfl, k.vt rfl, k.free rfl, k.out rfl, k.pending rfl⟩

@[simp] theorem fwdWrite_same {pair : Bool} {f : IcuFwd → IcuFwd} {s : State} :
    (fwdWrite pair f s).clk = s.clk ∧ (fwdWrite pair f s).rcv = s.rcv ∧ (fwdWrite pair f s).obs = s.obs ∧ (fwdWrite pair f s).sen = s.sen ∧ (fwdWrite pair f s).tamperIn = s.tamperIn ∧ (fwdWrite pair f s).cex = s.cex ∧ (fwdWrite pair f s).xlt = s.xlt ∧ (fwdWrite pair f s).srg = s.srg ∧ (fwdWrite pair f s).ods = s.ods ∧ (fwdWrite pair f s).vault = s.vault ∧ (fwdWrite pair f s).kst = s.kst ∧ (fwdWrite pair f s).engKeys = s.engKeys ∧ (fwdWrite pair f s).kwe = s.kwe ∧ (fwdWrite pair f s).pke = s.pke ∧ (fwdWrite pair f s).ent = s.ent ∧ (fwdWrite pair f s).atu = s.atu ∧ (fwdWrite pair f s).lcc = s.lcc ∧ (fwdWrite pair f s).mem = s.mem ∧ (fwdWrite pair f s).link = s.link ∧ (fwdWrite pair f s).sheaf = s.sheaf ∧ (fwdWrite pair f s).dom = s.dom ∧ (fwdWrite pair f s).pins = s.pins ∧ (fwdWrite pair f s).boot = s.boot ∧ (fwdWrite pair f s).tdi = s.tdi ∧ (fwdWrite pair f s).ac = s.ac ∧ (fwdWrite pair f s).vt = s.vt ∧ (fwdWrite pair f s).free = s.free ∧ (fwdWrite pair f s).out = s.out ∧ (fwdWrite pair f s).pending = s.pending :=
  have k : Off (fun p => p == .icu) s (fwdWrite pair f s) := fwdWrite_keeps (Off.keeps _ _) rfl .refl
  ⟨k.clk rfl, k.rcv rfl, k.obs rfl, k.sen rfl, k.tamperIn rfl, k.cex rfl, k.xlt rfl, k.srg rfl, k.ods rfl, k.vault rfl, k.kst rfl, k.engKeys rfl, k.kwe rfl, k.pke rfl, k.ent rfl, k.atu rfl, k.lcc rfl, k.mem rfl, k.link rfl, k.sheaf rfl, k.dom rfl, k.pins rfl, k.boot rfl, k.tdi rfl, k.ac rfl, k.vt rfl, k.free rfl, k.out rfl, k.pending rfl⟩

@[simp] theorem maskSet1_same {pair : Bool} {n : Nat} {s : State} :
    (maskSet1 pair n s).clk = s.clk ∧ (maskSet1 pair n s).rcv = s.rcv ∧ (maskSet1 pair n s).obs = s.obs ∧ (maskSet1 pair n s).sen = s.sen ∧ (maskSet1 pair n s).tamperIn = s.tamperIn ∧ (maskSet1 pair n s).cex = s.cex ∧ (maskSet1 pair n s).xlt = s.xlt ∧ (maskSet1 pair n s).srg = s.srg ∧ (maskSet1 pair n s).ods = s.ods ∧ (maskSet1 pair n s).vault = s.vault ∧ (maskSet1 pair n s).kst = s.kst ∧ (maskSet1 pair n s).engKeys = s.engKeys ∧ (maskSet1 pair n s).kwe = s.kwe ∧ (maskSet1 pair n s).pke = s.pke ∧ (maskSet1 pair n s).ent = s.ent ∧ (maskSet1 pair n s).atu = s.atu ∧ (maskSet1 pair n s).lcc = s.lcc ∧ (maskSet1 pair n s).mem = s.mem ∧ (maskSet1 pair n s).link = s.link ∧ (maskSet1 pair n s).sheaf = s.sheaf ∧ (maskSet1 pair n s).dom = s.dom ∧ (maskSet1 pair n s).pins = s.pins ∧ (maskSet1 pair n s).boot = s.boot ∧ (maskSet1 pair n s).tdi = s.tdi ∧ (maskSet1 pair n s).ac = s.ac ∧ (maskSet1 pair n s).vt = s.vt ∧ (maskSet1 pair n s).out = s.out ∧ (maskSet1 pair n s).pending = s.pending :=
  have k : Off (fun p => p == .icu || p == .free) s (maskSet1 pair n s) := maskSet1_keeps (Off.keeps _ _) rfl rfl .refl
  ⟨k.clk rfl, k.rcv rfl, k.obs rfl, k.sen rfl, k.tamperIn rfl, k.cex rfl, k.xlt rfl, k.srg rfl, k.ods rfl, k.vault rfl, k.kst rfl, k.engKeys rfl, k.kwe rfl, k.pke rfl, k.ent rfl, k.atu rfl, k.lcc rfl, k.mem rfl, k.link rfl, k.sheaf rfl, k.dom rfl, k.pins rfl, k.boot rfl, k.tdi rfl, k.ac rfl, k.vt rfl, k.out rfl, k.pending rfl⟩

@[simp] theorem updHart_same {n : Nat} {f : Hart → Hart} {s : State} :
    (updHart n f s).clk = s.clk ∧ (updHart n f s).rcv = s.rcv ∧ (updHart n f s).icu = s.icu ∧ (updHart n f s).obs = s.obs ∧ (updHart n f s).sen = s.sen ∧ (updHart n f s).tamperIn = s.tamperIn ∧ (updHart n f s).cex = s.cex ∧ (updHart n f s).xlt = s.xlt ∧ (updHart n f s).srg = s.srg ∧ (updHart n f s).ods = s.ods ∧ (updHart n f s).vault = s.vault ∧ (updHart n f s).kst = s.kst ∧ (updHart n f s).engKeys = s.engKeys ∧ (updHart n f s).kwe = s.kwe ∧ (updHart n f s).pke = s.pke ∧ (updHart n f s).ent = s.ent ∧ (updHart n f s).atu = s.atu ∧ (updHart n f s).mem = s.mem ∧ (updHart n f s).link = s.link ∧ (updHart n f s).sheaf = s.sheaf ∧ (updHart n f s).dom = s.dom ∧ (updHart n f s).pins = s.pins ∧ (updHart n f s).boot = s.boot ∧ (updHart n f s).tdi = s.tdi ∧ (updHart n f s).ac = s.ac ∧ (updHart n f s).vt = s.vt ∧ (updHart n f s).free = s.free ∧ (updHart n f s).out = s.out ∧ (updHart n f s).pending = s.pending :=
  have k : Off (fun p => p == .lcc) s (updHart n f s) := updHart_keeps (Off.keeps _ _) rfl .refl
  ⟨k.clk rfl, k.rcv rfl, k.icu rfl, k.obs rfl, k.sen rfl, k.tamperIn rfl, k.cex rfl, k.xlt rfl, k.srg rfl, k.ods rfl, k.vault rfl, k.kst rfl, k.engKeys rfl, k.kwe rfl, k.pke rfl, k.ent rfl, k.atu rfl, k.mem rfl, k.link rfl, k.sheaf rfl, k.dom rfl, k.pins rfl, k.boot rfl, k.tdi rfl, k.ac rfl, k.vt rfl, k.free rfl, k.out rfl, k.pending rfl⟩

@[simp] theorem writeReg_same {r : Nat} {v : BitVec 64} {s : State} :
    (writeReg r v s).clk = s.clk ∧ (writeReg r v s).rcv = s.rcv ∧ (writeReg r v s).icu = s.icu ∧ (writeReg r v s).obs = s.obs ∧ (writeReg r v s).sen = s.sen ∧ (writeReg r v s).tamperIn = s.tamperIn ∧ (writeReg r v s).cex = s.cex ∧ (writeReg r v s).xlt = s.xlt ∧ (writeReg r v s).srg = s.srg ∧ (writeReg r v s).ods = s.ods ∧ (writeReg r v s).vault = s.vault ∧ (writeReg r v s).kst = s.kst ∧ (writeReg r v s).engKeys = s.engKeys ∧ (writeReg r v s).kwe = s.kwe ∧ (writeReg r v s).pke = s.pke ∧ (writeReg r v s).ent = s.ent ∧ (writeReg r v s).atu = s.atu ∧ (writeReg r v s).mem = s.mem ∧ (writeReg r v s).link = s.link ∧ (writeReg r v s).sheaf = s.sheaf ∧ (writeReg r v s).dom = s.dom ∧ (writeReg r v s).pins = s.pins ∧ (writeReg r v s).boot = s.boot ∧ (writeReg r v s).tdi = s.tdi ∧ (writeReg r v s).ac = s.ac ∧ (writeReg r v s).vt = s.vt ∧ (writeReg r v s).free = s.free ∧ (writeReg r v s).out = s.out ∧ (writeReg r v s).pending = s.pending :=
  have k : Off (fun p => p == .lcc) s (writeReg r v s) := writeReg_keeps (Off.keeps _ _) rfl .refl
  ⟨k.clk rfl, k.rcv rfl, k.icu rfl, k.obs rfl, k.sen rfl, k.tamperIn rfl, k.cex rfl, k.xlt rfl, k.srg rfl, k.ods rfl, k.vault rfl, k.kst rfl, k.engKeys rfl, k.kwe rfl, k.pke rfl, k.ent rfl, k.atu rfl, k.mem rfl, k.link rfl, k.sheaf rfl, k.dom rfl, k.pins rfl, k.boot rfl, k.tdi rfl, k.ac rfl, k.vt rfl, k.free rfl, k.out rfl, k.pending rfl⟩

@[simp] theorem runCommand_same {c : Nat} {s : State} :
    (runCommand c s).clk = s.clk ∧ (runCommand c s).rcv = s.rcv ∧ (runCommand c s).icu = s.icu ∧ (runCommand c s).obs = s.obs ∧ (runCommand c s).sen = s.sen ∧ (runCommand c s).tamperIn = s.tamperIn ∧ (runCommand c s).cex = s.cex ∧ (runCommand c s).xlt = s.xlt ∧ (runCommand c s).srg = s.srg ∧ (runCommand c s).ods = s.ods ∧ (runCommand c s).vault = s.vault ∧ (runCommand c s).kst = s.kst ∧ (runCommand c s).engKeys = s.engKeys ∧ (runCommand c s).kwe = s.kwe ∧ (runCommand c s).pke = s.pke ∧ (runCommand c s).ent = s.ent ∧ (runCommand c s).atu = s.atu ∧ (runCommand c s).mem = s.mem ∧ (runCommand c s).link = s.link ∧ (runCommand c s).sheaf = s.sheaf ∧ (runCommand c s).dom = s.dom ∧ (runCommand c s).pins = s.pins ∧ (runCommand c s).boot = s.boot ∧ (runCommand c s).tdi = s.tdi ∧ (runCommand c s).ac = s.ac ∧ (runCommand c s).vt = s.vt ∧ (runCommand c s).out = s.out ∧ (runCommand c s).pending = s.pending :=
  have k : Off (fun p => p == .lcc || p == .free) s (runCommand c s) := runCommand_keeps (Off.keeps _ _) rfl rfl .refl
  ⟨k.clk rfl, k.rcv rfl, k.icu rfl, k.obs rfl, k.sen rfl, k.tamperIn rfl, k.cex rfl, k.xlt rfl, k.srg rfl, k.ods rfl, k.vault rfl, k.kst rfl, k.engKeys rfl, k.kwe rfl, k.pke rfl, k.ent rfl, k.atu rfl, k.mem rfl, k.link rfl, k.sheaf rfl, k.dom rfl, k.pins rfl, k.boot rfl, k.tdi rfl, k.ac rfl, k.vt rfl, k.out rfl, k.pending rfl⟩

@[simp] theorem icuWrite_same {pair : Bool} {off v : Nat} {s : State} :
    (icuWrite pair off v s).clk = s.clk ∧ (icuWrite pair off v s).sen = s.sen ∧ (icuWrite pair off v s).tamperIn = s.tamperIn ∧ (icuWrite pair off v s).xlt = s.xlt ∧ (icuWrite pair off v s).srg = s.srg ∧ (icuWrite pair off v s).ods = s.ods ∧ (icuWrite pair off v s).vault = s.vault ∧ (icuWrite pair off v s).kst = s.kst ∧ (icuWrite pair off v s).engKeys = s.engKeys ∧ (icuWrite pair off v s).kwe = s.kwe ∧ (icuWrite pair off v s).pke = s.pke ∧ (icuWrite pair off v s).ent = s.ent ∧ (icuWrite pair off v s).atu = s.atu ∧ (icuWrite pair off v s).lcc = s.lcc ∧ (icuWrite pair off v s).mem = s.mem ∧ (icuWrite pair off v s).link = s.link ∧ (icuWrite pair off v s).sheaf = s.sheaf ∧ (icuWrite pair off v s).dom = s.dom ∧ (icuWrite pair off v s).pins = s.pins ∧ (icuWrite pair off v s).boot = s.boot ∧ (icuWrite pair off v s).tdi = s.tdi ∧ (icuWrite pair off v s).ac = s.ac ∧ (icuWrite pair off v s).vt = s.vt ∧ (icuWrite pair off v s).pending = s.pending :=
  have k : Off (fun p => p == .rcv || p == .icu || p == .obs || p == .cex || p == .free || p == .out) s (icuWrite pair off v s) := icuWrite_keeps (Off.keeps _ _) rfl rfl rfl rfl rfl rfl .refl
  ⟨k.clk rfl, k.sen rfl, k.tamperIn rfl, k.xlt rfl, k.srg rfl, k.ods rfl, k.vault rfl, k.kst rfl, k.engKeys rfl, k.kwe rfl, k.pke rfl, k.ent rfl, k.atu rfl, k.lcc rfl, k.mem rfl, k.link rfl, k.sheaf rfl, k.dom rfl, k.pins rfl, k.boot rfl, k.tdi rfl, k.ac rfl, k.vt rfl, k.pending rfl⟩

@[simp] theorem sbAccess_same {write : Bool} {s : State} :
    (sbAccess write s).clk = s.clk ∧ (sbAccess write s).sen = s.sen ∧ (sbAccess write s).tamperIn = s.tamperIn ∧ (sbAccess write s).xlt = s.xlt ∧ (sbAccess write s).srg = s.srg ∧ (sbAccess write s).ods = s.ods ∧ (sbAccess write s).vault = s.vault ∧ (sbAccess write s).kst = s.kst ∧ (sbAccess write s).engKeys = s.engKeys ∧ (sbAccess write s).kwe = s.kwe ∧ (sbAccess write s).pke = s.pke ∧ (sbAccess write s).ent = s.ent ∧ (sbAccess write s).atu = s.atu ∧ (sbAccess write s).mem = s.mem ∧ (sbAccess write s).link = s.link ∧ (sbAccess write s).sheaf = s.sheaf ∧ (sbAccess write s).dom = s.dom ∧ (sbAccess write s).pins = s.pins ∧ (sbAccess write s).boot = s.boot ∧ (sbAccess write s).tdi = s.tdi ∧ (sbAccess write s).ac = s.ac ∧ (sbAccess write s).vt = s.vt ∧ (sbAccess write s).pending = s.pending :=
  have k : Off (fun p => p == .rcv || p == .icu || p == .obs || p == .cex || p == .lcc || p == .free || p == .out) s (sbAccess write s) := sbAccess_keeps (Off.keeps _ _) rfl rfl rfl rfl rfl rfl rfl .refl
  ⟨k.clk rfl, k.sen rfl, k.tamperIn rfl, k.xlt rfl, k.srg rfl, k.ods rfl, k.vault rfl, k.kst rfl, k.engKeys rfl, k.kwe rfl, k.pke rfl, k.ent rfl, k.atu rfl, k.mem rfl, k.link rfl, k.sheaf rfl, k.dom rfl, k.pins rfl, k.boot rfl, k.tdi rfl, k.ac rfl, k.vt rfl, k.pending rfl⟩

@[simp] theorem dmiResult_same {rec addr status : Nat} {data : BitVec 32} {s : State} :
    (dmiResult rec addr status data s).clk = s.clk ∧ (dmiResult rec addr status data s).rcv = s.rcv ∧ (dmiResult rec addr status data s).icu = s.icu ∧ (dmiResult rec addr status data s).obs = s.obs ∧ (dmiResult rec addr status data s).sen = s.sen ∧ (dmiResult rec addr status data s).tamperIn = s.tamperIn ∧ (dmiResult rec addr status data s).cex = s.cex ∧ (dmiResult rec addr status data s).xlt = s.xlt ∧ (dmiResult rec addr status data s).srg = s.srg ∧ (dmiResult rec addr status data s).ods = s.ods ∧ (dmiResult rec addr status data s).vault = s.vault ∧ (dmiResult rec addr status data s).kst = s.kst ∧ (dmiResult rec addr status data s).engKeys = s.engKeys ∧ (dmiResult rec addr status data s).kwe = s.kwe ∧ (dmiResult rec addr status data s).pke = s.pke ∧ (dmiResult rec addr status data s).ent = s.ent ∧ (dmiResult rec addr status data s).atu = s.atu ∧ (dmiResult rec addr status data s).mem = s.mem ∧ (dmiResult rec addr status data s).link = s.link ∧ (dmiResult rec addr status data s).sheaf = s.sheaf ∧ (dmiResult rec addr status data s).dom = s.dom ∧ (dmiResult rec addr status data s).pins = s.pins ∧ (dmiResult rec addr status data s).boot = s.boot ∧ (dmiResult rec addr status data s).tdi = s.tdi ∧ (dmiResult rec addr status data s).ac = s.ac ∧ (dmiResult rec addr status data s).vt = s.vt ∧ (dmiResult rec addr status data s).free = s.free ∧ (dmiResult rec addr status data s).out = s.out ∧ (dmiResult rec addr status data s).pending = s.pending :=
  have k : Off (fun p => p == .lcc) s (dmiResult rec addr status data s) := dmiResult_keeps (Off.keeps _ _) rfl .refl
  ⟨k.clk rfl, k.rcv rfl, k.icu rfl, k.obs rfl, k.sen rfl, k.tamperIn rfl, k.cex rfl, k.xlt rfl, k.srg rfl, k.ods rfl, k.vault rfl, k.kst rfl, k.engKeys rfl, k.kwe rfl, k.pke rfl, k.ent rfl, k.atu rfl, k.mem rfl, k.link rfl, k.sheaf rfl, k.dom rfl, k.pins rfl, k.boot rfl, k.tdi rfl, k.ac rfl, k.vt rfl, k.free rfl, k.out rfl, k.pending rfl⟩

@[simp] theorem dmControl_same {v : Nat} {s : State} :
    (dmControl v s).clk = s.clk ∧ (dmControl v s).sen = s.sen ∧ (dmControl v s).tamperIn = s.tamperIn ∧ (dmControl v s).cex = s.cex ∧ (dmControl v s).xlt = s.xlt ∧ (dmControl v s).srg = s.srg ∧ (dmControl v s).ods = s.ods ∧ (dmControl v s).vault = s.vault ∧ (dmControl v s).kst = s.kst ∧ (dmControl v s).engKeys = s.engKeys ∧ (dmControl v s).kwe = s.kwe ∧ (dmControl v s).pke = s.pke ∧ (dmControl v s).ent = s.ent ∧ (dmControl v s).atu = s.atu ∧ (dmControl v s).mem = s.mem ∧ (dmControl v s).link = s.link ∧ (dmControl v s).sheaf = s.sheaf ∧ (dmControl v s).dom = s.dom ∧ (dmControl v s).pins = s.pins ∧ (dmControl v s).boot = s.boot ∧ (dmControl v s).tdi = s.tdi ∧ (dmControl v s).ac = s.ac ∧ (dmControl v s).vt = s.vt ∧ (dmControl v s).free = s.free ∧ (dmControl v s).pending = s.pending :=
  have k : Off (fun p => p == .rcv || p == .icu || p == .obs || p == .lcc || p == .out) s (dmControl v s) := dmControl_keeps (Off.keeps _ _) rfl rfl rfl rfl rfl .refl
  ⟨k.clk rfl, k.sen rfl, k.tamperIn rfl, k.cex rfl, k.xlt rfl, k.srg rfl, k.ods rfl, k.vault rfl, k.kst rfl, k.engKeys rfl, k.kwe rfl, k.pke rfl, k.ent rfl, k.atu rfl, k.mem rfl, k.link rfl, k.sheaf rfl, k.dom rfl, k.pins rfl, k.boot rfl, k.tdi rfl, k.ac rfl, k.vt rfl, k.free rfl, k.pending rfl⟩

@[simp] theorem dmWrite_same {a v : Nat} {s : State} :
    (dmWrite a v s).clk = s.clk ∧ (dmWrite a v s).sen = s.sen ∧ (dmWrite a v s).tamperIn = s.tamperIn ∧ (dmWrite a v s).xlt = s.xlt ∧ (dmWrite a v s).srg = s.srg ∧ (dmWrite a v s).ods = s.ods ∧ (dmWrite a v s).vault = s.vault ∧ (dmWrite a v s).kst = s.kst ∧ (dmWrite a v s).engKeys = s.engKeys ∧ (dmWrite a v s).kwe = s.kwe ∧ (dmWrite a v s).pke = s.pke ∧ (dmWrite a v s).ent = s.ent ∧ (dmWrite a v s).atu = s.atu ∧ (dmWrite a v s).mem = s.mem ∧ (dmWrite a v s).link = s.link ∧ (dmWrite a v s).sheaf = s.sheaf ∧ (dmWrite a v s).dom = s.dom ∧ (dmWrite a v s).pins = s.pins ∧ (dmWrite a v s).boot = s.boot ∧ (dmWrite a v s).tdi = s.tdi ∧ (dmWrite a v s).ac = s.ac ∧ (dmWrite a v s).vt = s.vt ∧ (dmWrite a v s).pending = s.pending :=
  have k : Off (fun p => p == .rcv || p == .icu || p == .obs || p == .cex || p == .lcc || p == .free || p == .out) s (dmWrite a v s) := dmWrite_keeps (Off.keeps _ _) rfl rfl rfl rfl rfl rfl rfl .refl
  ⟨k.clk rfl, k.sen rfl, k.tamperIn rfl, k.xlt rfl, k.srg rfl, k.ods rfl, k.vault rfl, k.kst rfl, k.engKeys rfl, k.kwe rfl, k.pke rfl, k.ent rfl, k.atu rfl, k.mem rfl, k.link rfl, k.sheaf rfl, k.dom rfl, k.pins rfl, k.boot rfl, k.tdi rfl, k.ac rfl, k.vt rfl, k.pending rfl⟩

@[simp] theorem dmiVia_same {via : Access} {rec addr op : Nat} {data : BitVec 32} {s : State} :
    (dmiVia via rec addr op data s).clk = s.clk ∧ (dmiVia via rec addr op data s).sen = s.sen ∧ (dmiVia via rec addr op data s).tamperIn = s.tamperIn ∧ (dmiVia via rec addr op data s).xlt = s.xlt ∧ (dmiVia via rec addr op data s).srg = s.srg ∧ (dmiVia via rec addr op data s).vault = s.vault ∧ (dmiVia via rec addr op data s).kst = s.kst ∧ (dmiVia via rec addr op data s).engKeys = s.engKeys ∧ (dmiVia via rec addr op data s).kwe = s.kwe ∧ (dmiVia via rec addr op data s).pke = s.pke ∧ (dmiVia via rec addr op data s).ent = s.ent ∧ (dmiVia via rec addr op data s).atu = s.atu ∧ (dmiVia via rec addr op data s).mem = s.mem ∧ (dmiVia via rec addr op data s).link = s.link ∧ (dmiVia via rec addr op data s).sheaf = s.sheaf ∧ (dmiVia via rec addr op data s).dom = s.dom ∧ (dmiVia via rec addr op data s).pins = s.pins ∧ (dmiVia via rec addr op data s).boot = s.boot ∧ (dmiVia via rec addr op data s).tdi = s.tdi ∧ (dmiVia via rec addr op data s).ac = s.ac ∧ (dmiVia via rec addr op data s).vt = s.vt ∧ (dmiVia via rec addr op data s).pending = s.pending :=
  have k : Off (fun p => p == .rcv || p == .icu || p == .obs || p == .cex || p == .ods || p == .lcc || p == .free || p == .out) s (dmiVia via rec addr op data s) := dmiVia_keeps (Off.keeps _ _) rfl rfl rfl rfl rfl rfl rfl rfl .refl
  ⟨k.clk rfl, k.sen rfl, k.tamperIn rfl, k.xlt rfl, k.srg rfl, k.vault rfl, k.kst rfl, k.engKeys rfl, k.kwe rfl, k.pke rfl, k.ent rfl, k.atu rfl, k.mem rfl, k.link rfl, k.sheaf rfl, k.dom rfl, k.pins rfl, k.boot rfl, k.tdi rfl, k.ac rfl, k.vt rfl, k.pending rfl⟩

@[simp] theorem updConn_same {m : SpdmHdr} {f : SpdmConn → SpdmConn} {s : State} :
    (updConn m f s).clk = s.clk ∧ (updConn m f s).rcv = s.rcv ∧ (updConn m f s).icu = s.icu ∧ (updConn m f s).obs = s.obs ∧ (updConn m f s).sen = s.sen ∧ (updConn m f s).tamperIn = s.tamperIn ∧ (updConn m f s).cex = s.cex ∧ (updConn m f s).xlt = s.xlt ∧ (updConn m f s).srg = s.srg ∧ (updConn m f s).ods = s.ods ∧ (updConn m f s).vault = s.vault ∧ (updConn m f s).kst = s.kst ∧ (updConn m f s).engKeys = s.engKeys ∧ (updConn m f s).kwe = s.kwe ∧ (updConn m f s).pke = s.pke ∧ (updConn m f s).ent = s.ent ∧ (updConn m f s).atu = s.atu ∧ (updConn m f s).lcc = s.lcc ∧ (updConn m f s).mem = s.mem ∧ (updConn m f s).link = s.link ∧ (updConn m f s).sheaf = s.sheaf ∧ (updConn m f s).pins = s.pins ∧ (updConn m f s).boot = s.boot ∧ (updConn m f s).tdi = s.tdi ∧ (updConn m f s).ac = s.ac ∧ (updConn m f s).vt = s.vt ∧ (updConn m f s).free = s.free ∧ (updConn m f s).out = s.out ∧ (updConn m f s).pending = s.pending :=
  have k : Off (fun p => p == .dom) s (updConn m f s) := updConn_keeps (Off.keeps _ _) rfl .refl
  ⟨k.clk rfl, k.rcv rfl, k.icu rfl, k.obs rfl, k.sen rfl, k.tamperIn rfl, k.cex rfl, k.xlt rfl, k.srg rfl, k.ods rfl, k.vault rfl, k.kst rfl, k.engKeys rfl, k.kwe rfl, k.pke rfl, k.ent rfl, k.atu rfl, k.lcc rfl, k.mem rfl, k.link rfl, k.sheaf rfl, k.pins rfl, k.boot rfl, k.tdi rfl, k.ac rfl, k.vt rfl, k.free rfl, k.out rfl, k.pending rfl⟩

@[simp] theorem spdmSend_same {m : SpdmHdr} {code : Nat} {values : Bytes} {s : State} :
    (spdmSend m code values s).clk = s.clk ∧ (spdmSend m code values s).rcv = s.rcv ∧ (spdmSend m code values s).icu = s.icu ∧ (spdmSend m code values s).obs = s.obs ∧ (spdmSend m code values s).sen = s.sen ∧ (spdmSend m code values s).tamperIn = s.tamperIn ∧ (spdmSend m code values s).cex = s.cex ∧ (spdmSend m code values s).xlt = s.xlt ∧ (spdmSend m code values s).srg = s.srg ∧ (spdmSend m code values s).ods = s.ods ∧ (spdmSend m code values s).vault = s.vault ∧ (spdmSend m code values s).kst = s.kst ∧ (spdmSend m code values s).engKeys = s.engKeys ∧ (spdmSend m code values s).kwe = s.kwe ∧ (spdmSend m code values s).pke = s.pke ∧ (spdmSend m code values s).ent = s.ent ∧ (spdmSend m code values s).atu = s.atu ∧ (spdmSend m code values s).lcc = s.lcc ∧ (spdmSend m code values s).mem = s.mem ∧ (spdmSend m code values s).link = s.link ∧ (spdmSend m code values s).sheaf = s.sheaf ∧ (spdmSend m code values s).pins = s.pins ∧ (spdmSend m code values s).boot = s.boot ∧ (spdmSend m code values s).tdi = s.tdi ∧ (spdmSend m code values s).ac = s.ac ∧ (spdmSend m code values s).vt = s.vt ∧ (spdmSend m code values s).free = s.free ∧ (spdmSend m code values s).pending = s.pending :=
  have k : Off (fun p => p == .dom || p == .out) s (spdmSend m code values s) := spdmSend_keeps (Off.keeps _ _) rfl rfl .refl
  ⟨k.clk rfl, k.rcv rfl, k.icu rfl, k.obs rfl, k.sen rfl, k.tamperIn rfl, k.cex rfl, k.xlt rfl, k.srg rfl, k.ods rfl, k.vault rfl, k.kst rfl, k.engKeys rfl, k.kwe rfl, k.pke rfl, k.ent rfl, k.atu rfl, k.lcc rfl, k.mem rfl, k.link rfl, k.sheaf rfl, k.pins rfl, k.boot rfl, k.tdi rfl, k.ac rfl, k.vt rfl, k.free rfl, k.pending rfl⟩

@[simp] theorem spdmError_same {m : SpdmHdr} {code : Nat} {s : State} :
    (spdmError m code s).clk = s.clk ∧ (spdmError m code s).rcv = s.rcv ∧ (spdmError m code s).icu = s.icu ∧ (spdmError m code s).obs = s.obs ∧ (spdmError m code s).sen = s.sen ∧ (spdmError m code s).tamperIn = s.tamperIn ∧ (spdmError m code s).cex = s.cex ∧ (spdmError m code s).xlt = s.xlt ∧ (spdmError m code s).srg = s.srg ∧ (spdmError m code s).ods = s.ods ∧ (spdmError m code s).vault = s.vault ∧ (spdmError m code s).kst = s.kst ∧ (spdmError m code s).engKeys = s.engKeys ∧ (spdmError m code s).kwe = s.kwe ∧ (spdmError m code s).pke = s.pke ∧ (spdmError m code s).ent = s.ent ∧ (spdmError m code s).atu = s.atu ∧ (spdmError m code s).lcc = s.lcc ∧ (spdmError m code s).mem = s.mem ∧ (spdmError m code s).link = s.link ∧ (spdmError m code s).sheaf = s.sheaf ∧ (spdmError m code s).pins = s.pins ∧ (spdmError m code s).boot = s.boot ∧ (spdmError m code s).tdi = s.tdi ∧ (spdmError m code s).ac = s.ac ∧ (spdmError m code s).vt = s.vt ∧ (spdmError m code s).free = s.free ∧ (spdmError m code s).pending = s.pending :=
  have k : Off (fun p => p == .dom || p == .out) s (spdmError m code s) := spdmError_keeps (Off.keeps _ _) rfl rfl .refl
  ⟨k.clk rfl, k.rcv rfl, k.icu rfl, k.obs rfl, k.sen rfl, k.tamperIn rfl, k.cex rfl, k.xlt rfl, k.srg rfl, k.ods rfl, k.vault rfl, k.kst rfl, k.engKeys rfl, k.kwe rfl, k.pke rfl, k.ent rfl, k.atu rfl, k.lcc rfl, k.mem rfl, k.link rfl, k.sheaf rfl, k.pins rfl, k.boot rfl, k.tdi rfl, k.ac rfl, k.vt rfl, k.free rfl, k.pending rfl⟩

@[simp] theorem updSession_same {n : Nat} {f : Session → Session} {s : State} :
    (updSession n f s).clk = s.clk ∧ (updSession n f s).rcv = s.rcv ∧ (updSession n f s).icu = s.icu ∧ (updSession n f s).obs = s.obs ∧ (updSession n f s).sen = s.sen ∧ (updSession n f s).tamperIn = s.tamperIn ∧ (updSession n f s).cex = s.cex ∧ (updSession n f s).xlt = s.xlt ∧ (updSession n f s).srg = s.srg ∧ (updSession n f s).ods = s.ods ∧ (updSession n f s).vault = s.vault ∧ (updSession n f s).kst = s.kst ∧ (updSession n f s).engKeys = s.engKeys ∧ (updSession n f s).kwe = s.kwe ∧ (updSession n f s).pke = s.pke ∧ (updSession n f s).ent = s.ent ∧ (updSession n f s).atu = s.atu ∧ (updSession n f s).lcc = s.lcc ∧ (updSession n f s).mem = s.mem ∧ (updSession n f s).link = s.link ∧ (updSession n f s).sheaf = s.sheaf ∧ (updSession n f s).pins = s.pins ∧ (updSession n f s).boot = s.boot ∧ (updSession n f s).tdi = s.tdi ∧ (updSession n f s).ac = s.ac ∧ (updSession n f s).vt = s.vt ∧ (updSession n f s).free = s.free ∧ (updSession n f s).out = s.out ∧ (updSession n f s).pending = s.pending :=
  have k : Off (fun p => p == .dom) s (updSession n f s) := updSession_keeps (Off.keeps _ _) rfl .refl
  ⟨k.clk rfl, k.rcv rfl, k.icu rfl, k.obs rfl, k.sen rfl, k.tamperIn rfl, k.cex rfl, k.xlt rfl, k.srg rfl, k.ods rfl, k.vault rfl, k.kst rfl, k.engKeys rfl, k.kwe rfl, k.pke rfl, k.ent rfl, k.atu rfl, k.lcc rfl, k.mem rfl, k.link rfl, k.sheaf rfl, k.pins rfl, k.boot rfl, k.tdi rfl, k.ac rfl, k.vt rfl, k.free rfl, k.out rfl, k.pending rfl⟩

@[simp] theorem endSession_same {n : Nat} {s : State} :
    (endSession n s).clk = s.clk ∧ (endSession n s).rcv = s.rcv ∧ (endSession n s).icu = s.icu ∧ (endSession n s).obs = s.obs ∧ (endSession n s).sen = s.sen ∧ (endSession n s).tamperIn = s.tamperIn ∧ (endSession n s).cex = s.cex ∧ (endSession n s).xlt = s.xlt ∧ (endSession n s).srg = s.srg ∧ (endSession n s).ods = s.ods ∧ (endSession n s).vault = s.vault ∧ (endSession n s).pke = s.pke ∧ (endSession n s).ent = s.ent ∧ (endSession n s).atu = s.atu ∧ (endSession n s).lcc = s.lcc ∧ (endSession n s).mem = s.mem ∧ (endSession n s).link = s.link ∧ (endSession n s).sheaf = s.sheaf ∧ (endSession n s).pins = s.pins ∧ (endSession n s).boot = s.boot ∧ (endSession n s).tdi = s.tdi ∧ (endSession n s).ac = s.ac ∧ (endSession n s).vt = s.vt ∧ (endSession n s).free = s.free ∧ (endSession n s).out = s.out ∧ (endSession n s).pending = s.pending :=
  have k : Off (fun p => p == .kst || p == .engKeys || p == .kwe || p == .dom) s (endSession n s) := endSession_keeps (Off.keeps _ _) rfl rfl rfl rfl .refl
  ⟨k.clk rfl, k.rcv rfl, k.icu rfl, k.obs rfl, k.sen rfl, k.tamperIn rfl, k.cex rfl, k.xlt rfl, k.srg rfl, k.ods rfl, k.vault rfl, k.pke rfl, k.ent rfl, k.atu rfl, k.lcc rfl, k.mem rfl, k.link rfl, k.sheaf rfl, k.pins rfl, k.boot rfl, k.tdi rfl, k.ac rfl, k.vt rfl, k.free rfl, k.out rfl, k.pending rfl⟩

@[simp] theorem sessionKey_same {slot usage type : Nat} {key : BitVec 256} {s : State} :
    (sessionKey slot usage type key s).clk = s.clk ∧ (sessionKey slot usage type key s).rcv = s.rcv ∧ (sessionKey slot usage type key s).icu = s.icu ∧ (sessionKey slot usage type key s).obs = s.obs ∧ (sessionKey slot usage type key s).sen = s.sen ∧ (sessionKey slot usage type key s).tamperIn = s.tamperIn ∧ (sessionKey slot usage type key s).cex = s.cex ∧ (sessionKey slot usage type key s).xlt = s.xlt ∧ (sessionKey slot usage type key s).srg = s.srg ∧ (sessionKey slot usage type key s).ods = s.ods ∧ (sessionKey slot usage type key s).vault = s.vault ∧ (sessionKey slot usage type key s).pke = s.pke ∧ (sessionKey slot usage type key s).atu = s.atu ∧ (sessionKey slot usage type key s).lcc = s.lcc ∧ (sessionKey slot usage type key s).mem = s.mem ∧ (sessionKey slot usage type key s).link = s.link ∧ (sessionKey slot usage type key s).sheaf = s.sheaf ∧ (sessionKey slot usage type key s).dom = s.dom ∧ (sessionKey slot usage type key s).pins = s.pins ∧ (sessionKey slot usage type key s).boot = s.boot ∧ (sessionKey slot usage type key s).tdi = s.tdi ∧ (sessionKey slot usage type key s).ac = s.ac ∧ (sessionKey slot usage type key s).vt = s.vt ∧ (sessionKey slot usage type key s).free = s.free ∧ (sessionKey slot usage type key s).out = s.out ∧ (sessionKey slot usage type key s).pending = s.pending :=
  have k : Off (fun p => p == .kst || p == .engKeys || p == .kwe || p == .ent) s (sessionKey slot usage type key s) := sessionKey_keeps (Off.keeps _ _) rfl rfl rfl rfl .refl
  ⟨k.clk rfl, k.rcv rfl, k.icu rfl, k.obs rfl, k.sen rfl, k.tamperIn rfl, k.cex rfl, k.xlt rfl, k.srg rfl, k.ods rfl, k.vault rfl, k.pke rfl, k.atu rfl, k.lcc rfl, k.mem rfl, k.link rfl, k.sheaf rfl, k.dom rfl, k.pins rfl, k.boot rfl, k.tdi rfl, k.ac rfl, k.vt rfl, k.free rfl, k.out rfl, k.pending rfl⟩

@[simp] theorem nextKey_same {slot : Nat} {s : State} :
    (nextKey slot s).clk = s.clk ∧ (nextKey slot s).rcv = s.rcv ∧ (nextKey slot s).icu = s.icu ∧ (nextKey slot s).obs = s.obs ∧ (nextKey slot s).sen = s.sen ∧ (nextKey slot s).tamperIn = s.tamperIn ∧ (nextKey slot s).cex = s.cex ∧ (nextKey slot s).xlt = s.xlt ∧ (nextKey slot s).srg = s.srg ∧ (nextKey slot s).ods = s.ods ∧ (nextKey slot s).vault = s.vault ∧ (nextKey slot s).pke = s.pke ∧ (nextKey slot s).atu = s.atu ∧ (nextKey slot s).lcc = s.lcc ∧ (nextKey slot s).mem = s.mem ∧ (nextKey slot s).link = s.link ∧ (nextKey slot s).sheaf = s.sheaf ∧ (nextKey slot s).dom = s.dom ∧ (nextKey slot s).pins = s.pins ∧ (nextKey slot s).boot = s.boot ∧ (nextKey slot s).tdi = s.tdi ∧ (nextKey slot s).ac = s.ac ∧ (nextKey slot s).vt = s.vt ∧ (nextKey slot s).free = s.free ∧ (nextKey slot s).out = s.out ∧ (nextKey slot s).pending = s.pending :=
  have k : Off (fun p => p == .kst || p == .engKeys || p == .kwe || p == .ent) s (nextKey slot s) := nextKey_keeps (Off.keeps _ _) rfl rfl rfl rfl .refl
  ⟨k.clk rfl, k.rcv rfl, k.icu rfl, k.obs rfl, k.sen rfl, k.tamperIn rfl, k.cex rfl, k.xlt rfl, k.srg rfl, k.ods rfl, k.vault rfl, k.pke rfl, k.atu rfl, k.lcc rfl, k.mem rfl, k.link rfl, k.sheaf rfl, k.dom rfl, k.pins rfl, k.boot rfl, k.tdi rfl, k.ac rfl, k.vt rfl, k.free rfl, k.out rfl, k.pending rfl⟩

@[simp] theorem execKeyExchange_exchange_same {m : SpdmHdr} {n : Nat} {summary : BitVec 8} {point : Bytes} {s : State} :
    (execKeyExchange.exchange m n summary point s).clk = s.clk ∧ (execKeyExchange.exchange m n summary point s).rcv = s.rcv ∧ (execKeyExchange.exchange m n summary point s).icu = s.icu ∧ (execKeyExchange.exchange m n summary point s).obs = s.obs ∧ (execKeyExchange.exchange m n summary point s).sen = s.sen ∧ (execKeyExchange.exchange m n summary point s).tamperIn = s.tamperIn ∧ (execKeyExchange.exchange m n summary point s).cex = s.cex ∧ (execKeyExchange.exchange m n summary point s).xlt = s.xlt ∧ (execKeyExchange.exchange m n summary point s).srg = s.srg ∧ (execKeyExchange.exchange m n summary point s).ods = s.ods ∧ (execKeyExchange.exchange m n summary point s).vault = s.vault ∧ (execKeyExchange.exchange m n summary point s).atu = s.atu ∧ (execKeyExchange.exchange m n summary point s).lcc = s.lcc ∧ (execKeyExchange.exchange m n summary point s).mem = s.mem ∧ (execKeyExchange.exchange m n summary point s).link = s.link ∧ (execKeyExchange.exchange m n summary point s).sheaf = s.sheaf ∧ (execKeyExchange.exchange m n summary point s).pins = s.pins ∧ (execKeyExchange.exchange m n summary point s).boot = s.boot ∧ (execKeyExchange.exchange m n summary point s).tdi = s.tdi ∧ (execKeyExchange.exchange m n summary point s).ac = s.ac ∧ (execKeyExchange.exchange m n summary point s).vt = s.vt ∧ (execKeyExchange.exchange m n summary point s).pending = s.pending :=
  have k : Off (fun p => p == .kst || p == .engKeys || p == .kwe || p == .pke || p == .ent || p == .dom || p == .free || p == .out) s (execKeyExchange.exchange m n summary point s) := execKeyExchange_exchange_keeps (Off.keeps _ _) rfl rfl rfl rfl rfl rfl rfl rfl .refl
  ⟨k.clk rfl, k.rcv rfl, k.icu rfl, k.obs rfl, k.sen rfl, k.tamperIn rfl, k.cex rfl, k.xlt rfl, k.srg rfl, k.ods rfl, k.vault rfl, k.atu rfl, k.lcc rfl, k.mem rfl, k.link rfl, k.sheaf rfl, k.pins rfl, k.boot rfl, k.tdi rfl, k.ac rfl, k.vt rfl, k.pending rfl⟩

@[simp] theorem enterKeyed_same {sl : Nat} {s : State} :
    (enterKeyed sl s).clk = s.clk ∧ (enterKeyed sl s).rcv = s.rcv ∧ (enterKeyed sl s).icu = s.icu ∧ (enterKeyed sl s).obs = s.obs ∧ (enterKeyed sl s).sen = s.sen ∧ (enterKeyed sl s).tamperIn = s.tamperIn ∧ (enterKeyed sl s).xlt = s.xlt ∧ (enterKeyed sl s).srg = s.srg ∧ (enterKeyed sl s).ods = s.ods ∧ (enterKeyed sl s).vault = s.vault ∧ (enterKeyed sl s).pke = s.pke ∧ (enterKeyed sl s).atu = s.atu ∧ (enterKeyed sl s).lcc = s.lcc ∧ (enterKeyed sl s).sheaf = s.sheaf ∧ (enterKeyed sl s).boot = s.boot ∧ (enterKeyed sl s).tdi = s.tdi ∧ (enterKeyed sl s).free = s.free ∧ (enterKeyed sl s).out = s.out ∧ (enterKeyed sl s).pending = s.pending :=
  have k : Off (fun p => p == .cex || p == .kst || p == .engKeys || p == .kwe || p == .ent || p == .mem || p == .link || p == .dom || p == .pins || p == .ac || p == .vt) s (enterKeyed sl s) := enterKeyed_keeps (Off.keeps _ _) rfl rfl rfl rfl rfl rfl rfl rfl rfl rfl rfl .refl
  ⟨k.clk rfl, k.rcv rfl, k.icu rfl, k.obs rfl, k.sen rfl, k.tamperIn rfl, k.xlt rfl, k.srg rfl, k.ods rfl, k.vault rfl, k.pke rfl, k.atu rfl, k.lcc rfl, k.sheaf rfl, k.boot rfl, k.tdi rfl, k.free rfl, k.out rfl, k.pending rfl⟩

@[simp] theorem ackProgress_same {sl : Nat} {s : State} :
    (ackProgress sl s).clk = s.clk ∧ (ackProgress sl s).sen = s.sen ∧ (ackProgress sl s).tamperIn = s.tamperIn ∧ (ackProgress sl s).xlt = s.xlt ∧ (ackProgress sl s).vault = s.vault ∧ (ackProgress sl s).atu = s.atu ∧ (ackProgress sl s).lcc = s.lcc ∧ (ackProgress sl s).boot = s.boot ∧ (ackProgress sl s).tdi = s.tdi ∧ (ackProgress sl s).free = s.free ∧ (ackProgress sl s).pending = s.pending :=
  have k : Off (fun p => p == .rcv || p == .icu || p == .obs || p == .cex || p == .srg || p == .ods || p == .kst || p == .engKeys || p == .kwe || p == .pke || p == .ent || p == .mem || p == .link || p == .sheaf || p == .dom || p == .pins || p == .ac || p == .vt || p == .out) s (ackProgress sl s) := ackProgress_keeps (Off.keeps _ _) rfl rfl rfl rfl rfl rfl rfl rfl rfl rfl rfl rfl rfl rfl rfl rfl rfl rfl rfl .refl
  ⟨k.clk rfl, k.sen rfl, k.tamperIn rfl, k.xlt rfl, k.vault rfl, k.atu rfl, k.lcc rfl, k.boot rfl, k.tdi rfl, k.free rfl, k.pending rfl⟩

@[simp] theorem updChild_same {sl m : Nat} {f : Child → Child} {s : State} :
    (updChild sl m f s).clk = s.clk ∧ (updChild sl m f s).rcv = s.rcv ∧ (updChild sl m f s).icu = s.icu ∧ (updChild sl m f s).obs = s.obs ∧ (updChild sl m f s).sen = s.sen ∧ (updChild sl m f s).tamperIn = s.tamperIn ∧ (updChild sl m f s).cex = s.cex ∧ (updChild sl m f s).xlt = s.xlt ∧ (updChild sl m f s).srg = s.srg ∧ (updChild sl m f s).ods = s.ods ∧ (updChild sl m f s).vault = s.vault ∧ (updChild sl m f s).kst = s.kst ∧ (updChild sl m f s).engKeys = s.engKeys ∧ (updChild sl m f s).kwe = s.kwe ∧ (updChild sl m f s).pke = s.pke ∧ (updChild sl m f s).ent = s.ent ∧ (updChild sl m f s).atu = s.atu ∧ (updChild sl m f s).lcc = s.lcc ∧ (updChild sl m f s).mem = s.mem ∧ (updChild sl m f s).link = s.link ∧ (updChild sl m f s).sheaf = s.sheaf ∧ (updChild sl m f s).pins = s.pins ∧ (updChild sl m f s).boot = s.boot ∧ (updChild sl m f s).tdi = s.tdi ∧ (updChild sl m f s).ac = s.ac ∧ (updChild sl m f s).vt = s.vt ∧ (updChild sl m f s).free = s.free ∧ (updChild sl m f s).out = s.out ∧ (updChild sl m f s).pending = s.pending :=
  have k : Off (fun p => p == .dom) s (updChild sl m f s) := updChild_keeps (Off.keeps _ _) rfl .refl
  ⟨k.clk rfl, k.rcv rfl, k.icu rfl, k.obs rfl, k.sen rfl, k.tamperIn rfl, k.cex rfl, k.xlt rfl, k.srg rfl, k.ods rfl, k.vault rfl, k.kst rfl, k.engKeys rfl, k.kwe rfl, k.pke rfl, k.ent rfl, k.atu rfl, k.lcc rfl, k.mem rfl, k.link rfl, k.sheaf rfl, k.pins rfl, k.boot rfl, k.tdi rfl, k.ac rfl, k.vt rfl, k.free rfl, k.out rfl, k.pending rfl⟩

@[simp] theorem goLive_same {sl : Nat} {s : State} :
    (goLive sl s).clk = s.clk ∧ (goLive sl s).sen = s.sen ∧ (goLive sl s).tamperIn = s.tamperIn ∧ (goLive sl s).xlt = s.xlt ∧ (goLive sl s).ods = s.ods ∧ (goLive sl s).vault = s.vault ∧ (goLive sl s).kst = s.kst ∧ (goLive sl s).engKeys = s.engKeys ∧ (goLive sl s).kwe = s.kwe ∧ (goLive sl s).pke = s.pke ∧ (goLive sl s).ent = s.ent ∧ (goLive sl s).atu = s.atu ∧ (goLive sl s).lcc = s.lcc ∧ (goLive sl s).sheaf = s.sheaf ∧ (goLive sl s).boot = s.boot ∧ (goLive sl s).tdi = s.tdi ∧ (goLive sl s).free = s.free ∧ (goLive sl s).pending = s.pending :=
  have k : Off (fun p => p == .rcv || p == .icu || p == .obs || p == .cex || p == .srg || p == .mem || p == .link || p == .dom || p == .pins || p == .ac || p == .vt || p == .out) s (goLive sl s) := goLive_keeps (Off.keeps _ _) rfl rfl rfl rfl rfl rfl rfl rfl rfl rfl rfl rfl .refl
  ⟨k.clk rfl, k.sen rfl, k.tamperIn rfl, k.xlt rfl, k.ods rfl, k.vault rfl, k.kst rfl, k.engKeys rfl, k.kwe rfl, k.pke rfl, k.ent rfl, k.atu rfl, k.lcc rfl, k.sheaf rfl, k.boot rfl, k.tdi rfl, k.free rfl, k.pending rfl⟩

@[simp] theorem domainPair_same {sl : Nat} {s : State} :
    (domainPair sl s).clk = s.clk ∧ (domainPair sl s).rcv = s.rcv ∧ (domainPair sl s).icu = s.icu ∧ (domainPair sl s).obs = s.obs ∧ (domainPair sl s).sen = s.sen ∧ (domainPair sl s).tamperIn = s.tamperIn ∧ (domainPair sl s).cex = s.cex ∧ (domainPair sl s).xlt = s.xlt ∧ (domainPair sl s).srg = s.srg ∧ (domainPair sl s).ods = s.ods ∧ (domainPair sl s).vault = s.vault ∧ (domainPair sl s).kst = s.kst ∧ (domainPair sl s).engKeys = s.engKeys ∧ (domainPair sl s).kwe = s.kwe ∧ (domainPair sl s).atu = s.atu ∧ (domainPair sl s).lcc = s.lcc ∧ (domainPair sl s).mem = s.mem ∧ (domainPair sl s).link = s.link ∧ (domainPair sl s).sheaf = s.sheaf ∧ (domainPair sl s).dom = s.dom ∧ (domainPair sl s).pins = s.pins ∧ (domainPair sl s).boot = s.boot ∧ (domainPair sl s).tdi = s.tdi ∧ (domainPair sl s).ac = s.ac ∧ (domainPair sl s).vt = s.vt ∧ (domainPair sl s).out = s.out ∧ (domainPair sl s).pending = s.pending :=
  have k : Off (fun p => p == .pke || p == .ent || p == .free) s (domainPair sl s) := domainPair_keeps (Off.keeps _ _) rfl rfl rfl .refl
  ⟨k.clk rfl, k.rcv rfl, k.icu rfl, k.obs rfl, k.sen rfl, k.tamperIn rfl, k.cex rfl, k.xlt rfl, k.srg rfl, k.ods rfl, k.vault rfl, k.kst rfl, k.engKeys rfl, k.kwe rfl, k.atu rfl, k.lcc rfl, k.mem rfl, k.link rfl, k.sheaf rfl, k.dom rfl, k.pins rfl, k.boot rfl, k.tdi rfl, k.ac rfl, k.vt rfl, k.out rfl, k.pending rfl⟩

@[simp] theorem leaveParent_same {sl : Nat} {s : State} :
    (leaveParent sl s).clk = s.clk ∧ (leaveParent sl s).rcv = s.rcv ∧ (leaveParent sl s).icu = s.icu ∧ (leaveParent sl s).obs = s.obs ∧ (leaveParent sl s).sen = s.sen ∧ (leaveParent sl s).tamperIn = s.tamperIn ∧ (leaveParent sl s).cex = s.cex ∧ (leaveParent sl s).xlt = s.xlt ∧ (leaveParent sl s).srg = s.srg ∧ (leaveParent sl s).ods = s.ods ∧ (leaveParent sl s).vault = s.vault ∧ (leaveParent sl s).pke = s.pke ∧ (leaveParent sl s).ent = s.ent ∧ (leaveParent sl s).atu = s.atu ∧ (leaveParent sl s).lcc = s.lcc ∧ (leaveParent sl s).mem = s.mem ∧ (leaveParent sl s).sheaf = s.sheaf ∧ (leaveParent sl s).dom = s.dom ∧ (leaveParent sl s).pins = s.pins ∧ (leaveParent sl s).boot = s.boot ∧ (leaveParent sl s).tdi = s.tdi ∧ (leaveParent sl s).ac = s.ac ∧ (leaveParent sl s).vt = s.vt ∧ (leaveParent sl s).free = s.free ∧ (leaveParent sl s).out = s.out ∧ (leaveParent sl s).pending = s.pending :=
  have k : Off (fun p => p == .kst || p == .engKeys || p == .kwe || p == .link) s (leaveParent sl s) := leaveParent_keeps (Off.keeps _ _) rfl rfl rfl rfl .refl
  ⟨k.clk rfl, k.rcv rfl, k.icu rfl, k.obs rfl, k.sen rfl, k.tamperIn rfl, k.cex rfl, k.xlt rfl, k.srg rfl, k.ods rfl, k.vault rfl, k.pke rfl, k.ent rfl, k.atu rfl, k.lcc rfl, k.mem rfl, k.sheaf rfl, k.dom rfl, k.pins rfl, k.boot rfl, k.tdi rfl, k.ac rfl, k.vt rfl, k.free rfl, k.out rfl, k.pending rfl⟩

@[simp] theorem exceptLate_same {sl : Nat} {s : State} :
    (exceptLate sl s).clk = s.clk ∧ (exceptLate sl s).rcv = s.rcv ∧ (exceptLate sl s).icu = s.icu ∧ (exceptLate sl s).obs = s.obs ∧ (exceptLate sl s).sen = s.sen ∧ (exceptLate sl s).tamperIn = s.tamperIn ∧ (exceptLate sl s).cex = s.cex ∧ (exceptLate sl s).xlt = s.xlt ∧ (exceptLate sl s).srg = s.srg ∧ (exceptLate sl s).ods = s.ods ∧ (exceptLate sl s).vault = s.vault ∧ (exceptLate sl s).kst = s.kst ∧ (exceptLate sl s).engKeys = s.engKeys ∧ (exceptLate sl s).kwe = s.kwe ∧ (exceptLate sl s).pke = s.pke ∧ (exceptLate sl s).ent = s.ent ∧ (exceptLate sl s).atu = s.atu ∧ (exceptLate sl s).lcc = s.lcc ∧ (exceptLate sl s).mem = s.mem ∧ (exceptLate sl s).link = s.link ∧ (exceptLate sl s).sheaf = s.sheaf ∧ (exceptLate sl s).pins = s.pins ∧ (exceptLate sl s).boot = s.boot ∧ (exceptLate sl s).tdi = s.tdi ∧ (exceptLate sl s).ac = s.ac ∧ (exceptLate sl s).vt = s.vt ∧ (exceptLate sl s).free = s.free ∧ (exceptLate sl s).out = s.out ∧ (exceptLate sl s).pending = s.pending :=
  have k : Off (fun p => p == .dom) s (exceptLate sl s) := exceptLate_keeps (Off.keeps _ _) rfl .refl
  ⟨k.clk rfl, k.rcv rfl, k.icu rfl, k.obs rfl, k.sen rfl, k.tamperIn rfl, k.cex rfl, k.xlt rfl, k.srg rfl, k.ods rfl, k.vault rfl, k.kst rfl, k.engKeys rfl, k.kwe rfl, k.pke rfl, k.ent rfl, k.atu rfl, k.lcc rfl, k.mem rfl, k.link rfl, k.sheaf rfl, k.pins rfl, k.boot rfl, k.tdi rfl, k.ac rfl, k.vt rfl, k.free rfl, k.out rfl, k.pending rfl⟩

@[simp] theorem endForm_same {sl st n : Nat} {s : State} :
    (endForm sl st n s).clk = s.clk ∧ (endForm sl st n s).rcv = s.rcv ∧ (endForm sl st n s).icu = s.icu ∧ (endForm sl st n s).obs = s.obs ∧ (endForm sl st n s).sen = s.sen ∧ (endForm sl st n s).tamperIn = s.tamperIn ∧ (endForm sl st n s).xlt = s.xlt ∧ (endForm sl st n s).srg = s.srg ∧ (endForm sl st n s).ods = s.ods ∧ (endForm sl st n s).vault = s.vault ∧ (endForm sl st n s).kst = s.kst ∧ (endForm sl st n s).engKeys = s.engKeys ∧ (endForm sl st n s).kwe = s.kwe ∧ (endForm sl st n s).pke = s.pke ∧ (endForm sl st n s).ent = s.ent ∧ (endForm sl st n s).atu = s.atu ∧ (endForm sl st n s).lcc = s.lcc ∧ (endForm sl st n s).mem = s.mem ∧ (endForm sl st n s).link = s.link ∧ (endForm sl st n s).sheaf = s.sheaf ∧ (endForm sl st n s).dom = s.dom ∧ (endForm sl st n s).pins = s.pins ∧ (endForm sl st n s).boot = s.boot ∧ (endForm sl st n s).tdi = s.tdi ∧ (endForm sl st n s).ac = s.ac ∧ (endForm sl st n s).vt = s.vt ∧ (endForm sl st n s).free = s.free ∧ (endForm sl st n s).out = s.out ∧ (endForm sl st n s).pending = s.pending :=
  have k : Off (fun p => p == .cex) s (endForm sl st n s) := endForm_keeps (Off.keeps _ _) rfl .refl
  ⟨k.clk rfl, k.rcv rfl, k.icu rfl, k.obs rfl, k.sen rfl, k.tamperIn rfl, k.xlt rfl, k.srg rfl, k.ods rfl, k.vault rfl, k.kst rfl, k.engKeys rfl, k.kwe rfl, k.pke rfl, k.ent rfl, k.atu rfl, k.lcc rfl, k.mem rfl, k.link rfl, k.sheaf rfl, k.dom rfl, k.pins rfl, k.boot rfl, k.tdi rfl, k.ac rfl, k.vt rfl, k.free rfl, k.out rfl, k.pending rfl⟩

@[simp] theorem sendAnswer_same {sl : Nat} {s : State} :
    (sendAnswer sl s).clk = s.clk ∧ (sendAnswer sl s).sen = s.sen ∧ (sendAnswer sl s).tamperIn = s.tamperIn ∧ (sendAnswer sl s).xlt = s.xlt ∧ (sendAnswer sl s).ods = s.ods ∧ (sendAnswer sl s).vault = s.vault ∧ (sendAnswer sl s).kst = s.kst ∧ (sendAnswer sl s).engKeys = s.engKeys ∧ (sendAnswer sl s).kwe = s.kwe ∧ (sendAnswer sl s).pke = s.pke ∧ (sendAnswer sl s).atu = s.atu ∧ (sendAnswer sl s).lcc = s.lcc ∧ (sendAnswer sl s).mem = s.mem ∧ (sendAnswer sl s).sheaf = s.sheaf ∧ (sendAnswer sl s).pins = s.pins ∧ (sendAnswer sl s).boot = s.boot ∧ (sendAnswer sl s).tdi = s.tdi ∧ (sendAnswer sl s).ac = s.ac ∧ (sendAnswer sl s).vt = s.vt ∧ (sendAnswer sl s).pending = s.pending :=
  have k : Off (fun p => p == .rcv || p == .icu || p == .obs || p == .cex || p == .srg || p == .ent || p == .link || p == .dom || p == .free || p == .out) s (sendAnswer sl s) := sendAnswer_keeps (Off.keeps _ _) rfl rfl rfl rfl rfl rfl rfl rfl rfl rfl .refl
  ⟨k.clk rfl, k.sen rfl, k.tamperIn rfl, k.xlt rfl, k.ods rfl, k.vault rfl, k.kst rfl, k.engKeys rfl, k.kwe rfl, k.pke rfl, k.atu rfl, k.lcc rfl, k.mem rfl, k.sheaf rfl, k.pins rfl, k.boot rfl, k.tdi rfl, k.ac rfl, k.vt rfl, k.pending rfl⟩

@[simp] theorem challenge_same {sl m : Nat} {adopted : Bool} {s : State} :
    (challenge sl m adopted s).clk = s.clk ∧ (challenge sl m adopted s).sen = s.sen ∧ (challenge sl m adopted s).tamperIn = s.tamperIn ∧ (challenge sl m adopted s).xlt = s.xlt ∧ (challenge sl m adopted s).ods = s.ods ∧ (challenge sl m adopted s).vault = s.vault ∧ (challenge sl m adopted s).kst = s.kst ∧ (challenge sl m adopted s).engKeys = s.engKeys ∧ (challenge sl m adopted s).kwe = s.kwe ∧ (challenge sl m adopted s).pke = s.pke ∧ (challenge sl m adopted s).ent = s.ent ∧ (challenge sl m adopted s).atu = s.atu ∧ (challenge sl m adopted s).lcc = s.lcc ∧ (challenge sl m adopted s).mem = s.mem ∧ (challenge sl m adopted s).sheaf = s.sheaf ∧ (challenge sl m adopted s).pins = s.pins ∧ (challenge sl m adopted s).boot = s.boot ∧ (challenge sl m adopted s).tdi = s.tdi ∧ (challenge sl m adopted s).ac = s.ac ∧ (challenge sl m adopted s).vt = s.vt ∧ (challenge sl m adopted s).free = s.free ∧ (challenge sl m adopted s).pending = s.pending :=
  have k : Off (fun p => p == .rcv || p == .icu || p == .obs || p == .cex || p == .srg || p == .link || p == .dom || p == .out) s (challenge sl m adopted s) := challenge_keeps (Off.keeps _ _) rfl rfl rfl rfl rfl rfl rfl rfl .refl
  ⟨k.clk rfl, k.sen rfl, k.tamperIn rfl, k.xlt rfl, k.ods rfl, k.vault rfl, k.kst rfl, k.engKeys rfl, k.kwe rfl, k.pke rfl, k.ent rfl, k.atu rfl, k.lcc rfl, k.mem rfl, k.sheaf rfl, k.pins rfl, k.boot rfl, k.tdi rfl, k.ac rfl, k.vt rfl, k.free rfl, k.pending rfl⟩

@[simp] theorem failUnwrap_same {sl parent : Nat} {s : State} :
    (failUnwrap sl parent s).clk = s.clk ∧ (failUnwrap sl parent s).sen = s.sen ∧ (failUnwrap sl parent s).tamperIn = s.tamperIn ∧ (failUnwrap sl parent s).xlt = s.xlt ∧ (failUnwrap sl parent s).ods = s.ods ∧ (failUnwrap sl parent s).vault = s.vault ∧ (failUnwrap sl parent s).kst = s.kst ∧ (failUnwrap sl parent s).engKeys = s.engKeys ∧ (failUnwrap sl parent s).kwe = s.kwe ∧ (failUnwrap sl parent s).pke = s.pke ∧ (failUnwrap sl parent s).ent = s.ent ∧ (failUnwrap sl parent s).atu = s.atu ∧ (failUnwrap sl parent s).lcc = s.lcc ∧ (failUnwrap sl parent s).mem = s.mem ∧ (failUnwrap sl parent s).sheaf = s.sheaf ∧ (failUnwrap sl parent s).pins = s.pins ∧ (failUnwrap sl parent s).boot = s.boot ∧ (failUnwrap sl parent s).tdi = s.tdi ∧ (failUnwrap sl parent s).ac = s.ac ∧ (failUnwrap sl parent s).vt = s.vt ∧ (failUnwrap sl parent s).free = s.free ∧ (failUnwrap sl parent s).pending = s.pending :=
  have k : Off (fun p => p == .rcv || p == .icu || p == .obs || p == .cex || p == .srg || p == .link || p == .dom || p == .out) s (failUnwrap sl parent s) := failUnwrap_keeps (Off.keeps _ _) rfl rfl rfl rfl rfl rfl rfl rfl .refl
  ⟨k.clk rfl, k.sen rfl, k.tamperIn rfl, k.xlt rfl, k.ods rfl, k.vault rfl, k.kst rfl, k.engKeys rfl, k.kwe rfl, k.pke rfl, k.ent rfl, k.atu rfl, k.lcc rfl, k.mem rfl, k.sheaf rfl, k.pins rfl, k.boot rfl, k.tdi rfl, k.ac rfl, k.vt rfl, k.free rfl, k.pending rfl⟩

@[simp] theorem sendKeys_same {sl : Nat} {c : Child} {s : State} :
    (sendKeys sl c s).clk = s.clk ∧ (sendKeys sl c s).sen = s.sen ∧ (sendKeys sl c s).tamperIn = s.tamperIn ∧ (sendKeys sl c s).xlt = s.xlt ∧ (sendKeys sl c s).ods = s.ods ∧ (sendKeys sl c s).vault = s.vault ∧ (sendKeys sl c s).kst = s.kst ∧ (sendKeys sl c s).engKeys = s.engKeys ∧ (sendKeys sl c s).pke = s.pke ∧ (sendKeys sl c s).atu = s.atu ∧ (sendKeys sl c s).lcc = s.lcc ∧ (sendKeys sl c s).mem = s.mem ∧ (sendKeys sl c s).sheaf = s.sheaf ∧ (sendKeys sl c s).pins = s.pins ∧ (sendKeys sl c s).boot = s.boot ∧ (sendKeys sl c s).tdi = s.tdi ∧ (sendKeys sl c s).ac = s.ac ∧ (sendKeys sl c s).vt = s.vt ∧ (sendKeys sl c s).pending = s.pending :=
  have k : Off (fun p => p == .rcv || p == .icu || p == .obs || p == .cex || p == .srg || p == .kwe || p == .ent || p == .link || p == .dom || p == .free || p == .out) s (sendKeys sl c s) := sendKeys_keeps (Off.keeps _ _) rfl rfl rfl rfl rfl rfl rfl rfl rfl rfl rfl .refl
  ⟨k.clk rfl, k.sen rfl, k.tamperIn rfl, k.xlt rfl, k.ods rfl, k.vault rfl, k.kst rfl, k.engKeys rfl, k.pke rfl, k.atu rfl, k.lcc rfl, k.mem rfl, k.sheaf rfl, k.pins rfl, k.boot rfl, k.tdi rfl, k.ac rfl, k.vt rfl, k.pending rfl⟩

@[simp] theorem installKeys_same {sl ctx : Nat} {keys : List (BitVec 256)} {flags : Nat} {drkId : BitVec 128} {s : State} :
    (installKeys sl ctx keys flags drkId s).clk = s.clk ∧ (installKeys sl ctx keys flags drkId s).rcv = s.rcv ∧ (installKeys sl ctx keys flags drkId s).icu = s.icu ∧ (installKeys sl ctx keys flags drkId s).obs = s.obs ∧ (installKeys sl ctx keys flags drkId s).sen = s.sen ∧ (installKeys sl ctx keys flags drkId s).tamperIn = s.tamperIn ∧ (installKeys sl ctx keys flags drkId s).cex = s.cex ∧ (installKeys sl ctx keys flags drkId s).xlt = s.xlt ∧ (installKeys sl ctx keys flags drkId s).srg = s.srg ∧ (installKeys sl ctx keys flags drkId s).ods = s.ods ∧ (installKeys sl ctx keys flags drkId s).vault = s.vault ∧ (installKeys sl ctx keys flags drkId s).pke = s.pke ∧ (installKeys sl ctx keys flags drkId s).atu = s.atu ∧ (installKeys sl ctx keys flags drkId s).lcc = s.lcc ∧ (installKeys sl ctx keys flags drkId s).mem = s.mem ∧ (installKeys sl ctx keys flags drkId s).sheaf = s.sheaf ∧ (installKeys sl ctx keys flags drkId s).pins = s.pins ∧ (installKeys sl ctx keys flags drkId s).boot = s.boot ∧ (installKeys sl ctx keys flags drkId s).tdi = s.tdi ∧ (installKeys sl ctx keys flags drkId s).ac = s.ac ∧ (installKeys sl ctx keys flags drkId s).vt = s.vt ∧ (installKeys sl ctx keys flags drkId s).free = s.free ∧ (installKeys sl ctx keys flags drkId s).out = s.out ∧ (installKeys sl ctx keys flags drkId s).pending = s.pending :=
  have k : Off (fun p => p == .kst || p == .engKeys || p == .kwe || p == .ent || p == .link || p == .dom) s (installKeys sl ctx keys flags drkId s) := installKeys_keeps (Off.keeps _ _) rfl rfl rfl rfl rfl rfl .refl
  ⟨k.clk rfl, k.rcv rfl, k.icu rfl, k.obs rfl, k.sen rfl, k.tamperIn rfl, k.cex rfl, k.xlt rfl, k.srg rfl, k.ods rfl, k.vault rfl, k.pke rfl, k.atu rfl, k.lcc rfl, k.mem rfl, k.sheaf rfl, k.pins rfl, k.boot rfl, k.tdi rfl, k.ac rfl, k.vt rfl, k.free rfl, k.out rfl, k.pending rfl⟩

@[simp] theorem joinSlice_same {sl id attempt member masthead count : Nat} {list : Bytes} {s : State} :
    (joinSlice sl id attempt member masthead count list s).clk = s.clk ∧ (joinSlice sl id attempt member masthead count list s).rcv = s.rcv ∧ (joinSlice sl id attempt member masthead count list s).icu = s.icu ∧ (joinSlice sl id attempt member masthead count list s).obs = s.obs ∧ (joinSlice sl id attempt member masthead count list s).sen = s.sen ∧ (joinSlice sl id attempt member masthead count list s).tamperIn = s.tamperIn ∧ (joinSlice sl id attempt member masthead count list s).xlt = s.xlt ∧ (joinSlice sl id attempt member masthead count list s).ods = s.ods ∧ (joinSlice sl id attempt member masthead count list s).vault = s.vault ∧ (joinSlice sl id attempt member masthead count list s).kst = s.kst ∧ (joinSlice sl id attempt member masthead count list s).engKeys = s.engKeys ∧ (joinSlice sl id attempt member masthead count list s).kwe = s.kwe ∧ (joinSlice sl id attempt member masthead count list s).pke = s.pke ∧ (joinSlice sl id attempt member masthead count list s).ent = s.ent ∧ (joinSlice sl id attempt member masthead count list s).lcc = s.lcc ∧ (joinSlice sl id attempt member masthead count list s).boot = s.boot ∧ (joinSlice sl id attempt member masthead count list s).tdi = s.tdi ∧ (joinSlice sl id attempt member masthead count list s).free = s.free ∧ (joinSlice sl id attempt member masthead count list s).out = s.out ∧ (joinSlice sl id attempt member masthead count list s).pending = s.pending :=
  have k : Off (fun p => p == .cex || p == .srg || p == .atu || p == .mem || p == .link || p == .sheaf || p == .dom || p == .pins || p == .ac || p == .vt) s (joinSlice sl id attempt member masthead count list s) := joinSlice_keeps (Off.keeps _ _) rfl rfl rfl rfl rfl rfl rfl rfl rfl rfl .refl
  ⟨k.clk rfl, k.rcv rfl, k.icu rfl, k.obs rfl, k.sen rfl, k.tamperIn rfl, k.xlt rfl, k.ods rfl, k.vault rfl, k.kst rfl, k.engKeys rfl, k.kwe rfl, k.pke rfl, k.ent rfl, k.lcc rfl, k.boot rfl, k.tdi rfl, k.free rfl, k.out rfl, k.pending rfl⟩

@[simp] theorem switchTo_same {unit from_ dest cost : Nat} {s : State} :
    (switchTo unit from_ dest cost s).clk = s.clk ∧ (switchTo unit from_ dest cost s).rcv = s.rcv ∧ (switchTo unit from_ dest cost s).icu = s.icu ∧ (switchTo unit from_ dest cost s).obs = s.obs ∧ (switchTo unit from_ dest cost s).sen = s.sen ∧ (switchTo unit from_ dest cost s).tamperIn = s.tamperIn ∧ (switchTo unit from_ dest cost s).cex = s.cex ∧ (switchTo unit from_ dest cost s).xlt = s.xlt ∧ (switchTo unit from_ dest cost s).ods = s.ods ∧ (switchTo unit from_ dest cost s).vault = s.vault ∧ (switchTo unit from_ dest cost s).kst = s.kst ∧ (switchTo unit from_ dest cost s).engKeys = s.engKeys ∧ (switchTo unit from_ dest cost s).kwe = s.kwe ∧ (switchTo unit from_ dest cost s).pke = s.pke ∧ (switchTo unit from_ dest cost s).ent = s.ent ∧ (switchTo unit from_ dest cost s).atu = s.atu ∧ (switchTo unit from_ dest cost s).lcc = s.lcc ∧ (switchTo unit from_ dest cost s).mem = s.mem ∧ (switchTo unit from_ dest cost s).link = s.link ∧ (switchTo unit from_ dest cost s).sheaf = s.sheaf ∧ (switchTo unit from_ dest cost s).dom = s.dom ∧ (switchTo unit from_ dest cost s).pins = s.pins ∧ (switchTo unit from_ dest cost s).boot = s.boot ∧ (switchTo unit from_ dest cost s).tdi = s.tdi ∧ (switchTo unit from_ dest cost s).ac = s.ac ∧ (switchTo unit from_ dest cost s).vt = s.vt ∧ (switchTo unit from_ dest cost s).free = s.free ∧ (switchTo unit from_ dest cost s).out = s.out ∧ (switchTo unit from_ dest cost s).pending = s.pending :=
  have k : Off (fun p => p == .srg) s (switchTo unit from_ dest cost s) := switchTo_keeps (Off.keeps _ _) rfl .refl
  ⟨k.clk rfl, k.rcv rfl, k.icu rfl, k.obs rfl, k.sen rfl, k.tamperIn rfl, k.cex rfl, k.xlt rfl, k.ods rfl, k.vault rfl, k.kst rfl, k.engKeys rfl, k.kwe rfl, k.pke rfl, k.ent rfl, k.atu rfl, k.lcc rfl, k.mem rfl, k.link rfl, k.sheaf rfl, k.dom rfl, k.pins rfl, k.boot rfl, k.tdi rfl, k.ac rfl, k.vt rfl, k.free rfl, k.out rfl, k.pending rfl⟩

@[simp] theorem raiseMissed_same {e rate value : Nat} {s : State} :
    (raiseMissed e rate value s).clk = s.clk ∧ (raiseMissed e rate value s).rcv = s.rcv ∧ (raiseMissed e rate value s).icu = s.icu ∧ (raiseMissed e rate value s).sen = s.sen ∧ (raiseMissed e rate value s).tamperIn = s.tamperIn ∧ (raiseMissed e rate value s).xlt = s.xlt ∧ (raiseMissed e rate value s).srg = s.srg ∧ (raiseMissed e rate value s).ods = s.ods ∧ (raiseMissed e rate value s).vault = s.vault ∧ (raiseMissed e rate value s).kst = s.kst ∧ (raiseMissed e rate value s).engKeys = s.engKeys ∧ (raiseMissed e rate value s).kwe = s.kwe ∧ (raiseMissed e rate value s).pke = s.pke ∧ (raiseMissed e rate value s).ent = s.ent ∧ (raiseMissed e rate value s).atu = s.atu ∧ (raiseMissed e rate value s).lcc = s.lcc ∧ (raiseMissed e rate value s).mem = s.mem ∧ (raiseMissed e rate value s).link = s.link ∧ (raiseMissed e rate value s).sheaf = s.sheaf ∧ (raiseMissed e rate value s).dom = s.dom ∧ (raiseMissed e rate value s).pins = s.pins ∧ (raiseMissed e rate value s).boot = s.boot ∧ (raiseMissed e rate value s).tdi = s.tdi ∧ (raiseMissed e rate value s).ac = s.ac ∧ (raiseMissed e rate value s).vt = s.vt ∧ (raiseMissed e rate value s).free = s.free ∧ (raiseMissed e rate value s).out = s.out ∧ (raiseMissed e rate value s).pending = s.pending :=
  have k : Off (fun p => p == .obs || p == .cex) s (raiseMissed e rate value s) := raiseMissed_keeps (Off.keeps _ _) rfl rfl .refl
  ⟨k.clk rfl, k.rcv rfl, k.icu rfl, k.sen rfl, k.tamperIn rfl, k.xlt rfl, k.srg rfl, k.ods rfl, k.vault rfl, k.kst rfl, k.engKeys rfl, k.kwe rfl, k.pke rfl, k.ent rfl, k.atu rfl, k.lcc rfl, k.mem rfl, k.link rfl, k.sheaf rfl, k.dom rfl, k.pins rfl, k.boot rfl, k.tdi rfl, k.ac rfl, k.vt rfl, k.free rfl, k.out rfl, k.pending rfl⟩

@[simp] theorem reef_same {e rate value : Nat} {s : State} :
    (reef e rate value s).clk = s.clk ∧ (reef e rate value s).sen = s.sen ∧ (reef e rate value s).tamperIn = s.tamperIn ∧ (reef e rate value s).xlt = s.xlt ∧ (reef e rate value s).ods = s.ods ∧ (reef e rate value s).vault = s.vault ∧ (reef e rate value s).kst = s.kst ∧ (reef e rate value s).engKeys = s.engKeys ∧ (reef e rate value s).kwe = s.kwe ∧ (reef e rate value s).pke = s.pke ∧ (reef e rate value s).ent = s.ent ∧ (reef e rate value s).atu = s.atu ∧ (reef e rate value s).lcc = s.lcc ∧ (reef e rate value s).mem = s.mem ∧ (reef e rate value s).link = s.link ∧ (reef e rate value s).sheaf = s.sheaf ∧ (reef e rate value s).dom = s.dom ∧ (reef e rate value s).pins = s.pins ∧ (reef e rate value s).boot = s.boot ∧ (reef e rate value s).tdi = s.tdi ∧ (reef e rate value s).ac = s.ac ∧ (reef e rate value s).vt = s.vt ∧ (reef e rate value s).free = s.free ∧ (reef e rate value s).pending = s.pending :=
  have k : Off (fun p => p == .rcv || p == .icu || p == .obs || p == .cex || p == .srg || p == .out) s (reef e rate value s) := reef_keeps (Off.keeps _ _) rfl rfl rfl rfl rfl rfl .refl
  ⟨k.clk rfl, k.sen rfl, k.tamperIn rfl, k.xlt rfl, k.ods rfl, k.vault rfl, k.kst rfl, k.engKeys rfl, k.kwe rfl, k.pke rfl, k.ent rfl, k.atu rfl, k.lcc rfl, k.mem rfl, k.link rfl, k.sheaf rfl, k.dom rfl, k.pins rfl, k.boot rfl, k.tdi rfl, k.ac rfl, k.vt rfl, k.free rfl, k.pending rfl⟩

@[simp] theorem clearSet_same {set : Nat} {s : State} :
    (clearSet set s).clk = s.clk ∧ (clearSet set s).rcv = s.rcv ∧ (clearSet set s).icu = s.icu ∧ (clearSet set s).obs = s.obs ∧ (clearSet set s).sen = s.sen ∧ (clearSet set s).tamperIn = s.tamperIn ∧ (clearSet set s).cex = s.cex ∧ (clearSet set s).srg = s.srg ∧ (clearSet set s).ods = s.ods ∧ (clearSet set s).vault = s.vault ∧ (clearSet set s).kst = s.kst ∧ (clearSet set s).engKeys = s.engKeys ∧ (clearSet set s).kwe = s.kwe ∧ (clearSet set s).pke = s.pke ∧ (clearSet set s).ent = s.ent ∧ (clearSet set s).atu = s.atu ∧ (clearSet set s).lcc = s.lcc ∧ (clearSet set s).mem = s.mem ∧ (clearSet set s).link = s.link ∧ (clearSet set s).sheaf = s.sheaf ∧ (clearSet set s).dom = s.dom ∧ (clearSet set s).pins = s.pins ∧ (clearSet set s).boot = s.boot ∧ (clearSet set s).tdi = s.tdi ∧ (clearSet set s).ac = s.ac ∧ (clearSet set s).vt = s.vt ∧ (clearSet set s).free = s.free ∧ (clearSet set s).out = s.out ∧ (clearSet set s).pending = s.pending :=
  have k : Off (fun p => p == .xlt) s (clearSet set s) := clearSet_keeps (Off.keeps _ _) rfl .refl
  ⟨k.clk rfl, k.rcv rfl, k.icu rfl, k.obs rfl, k.sen rfl, k.tamperIn rfl, k.cex rfl, k.srg rfl, k.ods rfl, k.vault rfl, k.kst rfl, k.engKeys rfl, k.kwe rfl, k.pke rfl, k.ent rfl, k.atu rfl, k.lcc rfl, k.mem rfl, k.link rfl, k.sheaf rfl, k.dom rfl, k.pins rfl, k.boot rfl, k.tdi rfl, k.ac rfl, k.vt rfl, k.free rfl, k.out rfl, k.pending rfl⟩

@[simp] theorem dmaFault_same {r : DmaReq} {f : XFlt} {s : State} :
    (dmaFault r f s).clk = s.clk ∧ (dmaFault r f s).sen = s.sen ∧ (dmaFault r f s).tamperIn = s.tamperIn ∧ (dmaFault r f s).srg = s.srg ∧ (dmaFault r f s).ods = s.ods ∧ (dmaFault r f s).vault = s.vault ∧ (dmaFault r f s).kst = s.kst ∧ (dmaFault r f s).engKeys = s.engKeys ∧ (dmaFault r f s).kwe = s.kwe ∧ (dmaFault r f s).pke = s.pke ∧ (dmaFault r f s).ent = s.ent ∧ (dmaFault r f s).atu = s.atu ∧ (dmaFault r f s).lcc = s.lcc ∧ (dmaFault r f s).mem = s.mem ∧ (dmaFault r f s).link = s.link ∧ (dmaFault r f s).sheaf = s.sheaf ∧ (dmaFault r f s).dom = s.dom ∧ (dmaFault r f s).pins = s.pins ∧ (dmaFault r f s).boot = s.boot ∧ (dmaFault r f s).tdi = s.tdi ∧ (dmaFault r f s).ac = s.ac ∧ (dmaFault r f s).vt = s.vt ∧ (dmaFault r f s).free = s.free ∧ (dmaFault r f s).pending = s.pending :=
  have k : Off (fun p => p == .rcv || p == .icu || p == .obs || p == .cex || p == .xlt || p == .out) s (dmaFault r f s) := dmaFault_keeps (Off.keeps _ _) rfl rfl rfl rfl rfl rfl .refl
  ⟨k.clk rfl, k.sen rfl, k.tamperIn rfl, k.srg rfl, k.ods rfl, k.vault rfl, k.kst rfl, k.engKeys rfl, k.kwe rfl, k.pke rfl, k.ent rfl, k.atu rfl, k.lcc rfl, k.mem rfl, k.link rfl, k.sheaf rfl, k.dom rfl, k.pins rfl, k.boot rfl, k.tdi rfl, k.ac rfl, k.vt rfl, k.free rfl, k.pending rfl⟩

@[simp] theorem present_same {r : DmaReq} {oa : Nat} {shared : Bool} {s : State} :
    (present r oa shared s).clk = s.clk ∧ (present r oa shared s).sen = s.sen ∧ (present r oa shared s).tamperIn = s.tamperIn ∧ (present r oa shared s).srg = s.srg ∧ (present r oa shared s).ods = s.ods ∧ (present r oa shared s).vault = s.vault ∧ (present r oa shared s).kst = s.kst ∧ (present r oa shared s).engKeys = s.engKeys ∧ (present r oa shared s).kwe = s.kwe ∧ (present r oa shared s).pke = s.pke ∧ (present r oa shared s).ent = s.ent ∧ (present r oa shared s).atu = s.atu ∧ (present r oa shared s).lcc = s.lcc ∧ (present r oa shared s).mem = s.mem ∧ (present r oa shared s).link = s.link ∧ (present r oa shared s).sheaf = s.sheaf ∧ (present r oa shared s).dom = s.dom ∧ (present r oa shared s).pins = s.pins ∧ (present r oa shared s).boot = s.boot ∧ (present r oa shared s).tdi = s.tdi ∧ (present r oa shared s).ac = s.ac ∧ (present r oa shared s).vt = s.vt ∧ (present r oa shared s).free = s.free ∧ (present r oa shared s).pending = s.pending :=
  have k : Off (fun p => p == .rcv || p == .icu || p == .obs || p == .cex || p == .xlt || p == .out) s (present r oa shared s) := present_keeps (Off.keeps _ _) rfl rfl rfl rfl rfl rfl .refl
  ⟨k.clk rfl, k.sen rfl, k.tamperIn rfl, k.srg rfl, k.ods rfl, k.vault rfl, k.kst rfl, k.engKeys rfl, k.kwe rfl, k.pke rfl, k.ent rfl, k.atu rfl, k.lcc rfl, k.mem rfl, k.link rfl, k.sheaf rfl, k.dom rfl, k.pins rfl, k.boot rfl, k.tdi rfl, k.ac rfl, k.vt rfl, k.free rfl, k.pending rfl⟩

@[simp] theorem finishWalk_same {w : Walk} {l : Leaf} {level2 : Nat} {r : DmaReq} {s : State} :
    (finishWalk w l level2 r s).clk = s.clk ∧ (finishWalk w l level2 r s).sen = s.sen ∧ (finishWalk w l level2 r s).tamperIn = s.tamperIn ∧ (finishWalk w l level2 r s).srg = s.srg ∧ (finishWalk w l level2 r s).ods = s.ods ∧ (finishWalk w l level2 r s).vault = s.vault ∧ (finishWalk w l level2 r s).kst = s.kst ∧ (finishWalk w l level2 r s).engKeys = s.engKeys ∧ (finishWalk w l level2 r s).kwe = s.kwe ∧ (finishWalk w l level2 r s).pke = s.pke ∧ (finishWalk w l level2 r s).ent = s.ent ∧ (finishWalk w l level2 r s).atu = s.atu ∧ (finishWalk w l level2 r s).lcc = s.lcc ∧ (finishWalk w l level2 r s).mem = s.mem ∧ (finishWalk w l level2 r s).link = s.link ∧ (finishWalk w l level2 r s).sheaf = s.sheaf ∧ (finishWalk w l level2 r s).dom = s.dom ∧ (finishWalk w l level2 r s).pins = s.pins ∧ (finishWalk w l level2 r s).boot = s.boot ∧ (finishWalk w l level2 r s).tdi = s.tdi ∧ (finishWalk w l level2 r s).ac = s.ac ∧ (finishWalk w l level2 r s).vt = s.vt ∧ (finishWalk w l level2 r s).free = s.free ∧ (finishWalk w l level2 r s).pending = s.pending :=
  have k : Off (fun p => p == .rcv || p == .icu || p == .obs || p == .cex || p == .xlt || p == .out) s (finishWalk w l level2 r s) := finishWalk_keeps (Off.keeps _ _) rfl rfl rfl rfl rfl rfl .refl
  ⟨k.clk rfl, k.sen rfl, k.tamperIn rfl, k.srg rfl, k.ods rfl, k.vault rfl, k.kst rfl, k.engKeys rfl, k.kwe rfl, k.pke rfl, k.ent rfl, k.atu rfl, k.lcc rfl, k.mem rfl, k.link rfl, k.sheaf rfl, k.dom rfl, k.pins rfl, k.boot rfl, k.tdi rfl, k.ac rfl, k.vt rfl, k.free rfl, k.pending rfl⟩

@[simp] theorem dropScope_same {scope set pasid base log2 : Nat} {s : State} :
    (dropScope scope set pasid base log2 s).clk = s.clk ∧ (dropScope scope set pasid base log2 s).rcv = s.rcv ∧ (dropScope scope set pasid base log2 s).icu = s.icu ∧ (dropScope scope set pasid base log2 s).obs = s.obs ∧ (dropScope scope set pasid base log2 s).sen = s.sen ∧ (dropScope scope set pasid base log2 s).tamperIn = s.tamperIn ∧ (dropScope scope set pasid base log2 s).cex = s.cex ∧ (dropScope scope set pasid base log2 s).srg = s.srg ∧ (dropScope scope set pasid base log2 s).ods = s.ods ∧ (dropScope scope set pasid base log2 s).vault = s.vault ∧ (dropScope scope set pasid base log2 s).kst = s.kst ∧ (dropScope scope set pasid base log2 s).engKeys = s.engKeys ∧ (dropScope scope set pasid base log2 s).kwe = s.kwe ∧ (dropScope scope set pasid base log2 s).pke = s.pke ∧ (dropScope scope set pasid base log2 s).ent = s.ent ∧ (dropScope scope set pasid base log2 s).atu = s.atu ∧ (dropScope scope set pasid base log2 s).lcc = s.lcc ∧ (dropScope scope set pasid base log2 s).mem = s.mem ∧ (dropScope scope set pasid base log2 s).link = s.link ∧ (dropScope scope set pasid base log2 s).sheaf = s.sheaf ∧ (dropScope scope set pasid base log2 s).dom = s.dom ∧ (dropScope scope set pasid base log2 s).pins = s.pins ∧ (dropScope scope set pasid base log2 s).boot = s.boot ∧ (dropScope scope set pasid base log2 s).tdi = s.tdi ∧ (dropScope scope set pasid base log2 s).ac = s.ac ∧ (dropScope scope set pasid base log2 s).vt = s.vt ∧ (dropScope scope set pasid base log2 s).free = s.free ∧ (dropScope scope set pasid base log2 s).out = s.out ∧ (dropScope scope set pasid base log2 s).pending = s.pending :=
  have k : Off (fun p => p == .xlt) s (dropScope scope set pasid base log2 s) := dropScope_keeps (Off.keeps _ _) rfl .refl
  ⟨k.clk rfl, k.rcv rfl, k.icu rfl, k.obs rfl, k.sen rfl, k.tamperIn rfl, k.cex rfl, k.srg rfl, k.ods rfl, k.vault rfl, k.kst rfl, k.engKeys rfl, k.kwe rfl, k.pke rfl, k.ent rfl, k.atu rfl, k.lcc rfl, k.mem rfl, k.link rfl, k.sheaf rfl, k.dom rfl, k.pins rfl, k.boot rfl, k.tdi rfl, k.ac rfl, k.vt rfl, k.free rfl, k.out rfl, k.pending rfl⟩

@[simp] theorem joinWalk_same {i : Nat} {r : DmaReq} {s : State} :
    (joinWalk i r s).clk = s.clk ∧ (joinWalk i r s).rcv = s.rcv ∧ (joinWalk i r s).icu = s.icu ∧ (joinWalk i r s).obs = s.obs ∧ (joinWalk i r s).sen = s.sen ∧ (joinWalk i r s).tamperIn = s.tamperIn ∧ (joinWalk i r s).cex = s.cex ∧ (joinWalk i r s).srg = s.srg ∧ (joinWalk i r s).ods = s.ods ∧ (joinWalk i r s).vault = s.vault ∧ (joinWalk i r s).kst = s.kst ∧ (joinWalk i r s).engKeys = s.engKeys ∧ (joinWalk i r s).kwe = s.kwe ∧ (joinWalk i r s).pke = s.pke ∧ (joinWalk i r s).ent = s.ent ∧ (joinWalk i r s).atu = s.atu ∧ (joinWalk i r s).lcc = s.lcc ∧ (joinWalk i r s).mem = s.mem ∧ (joinWalk i r s).link = s.link ∧ (joinWalk i r s).sheaf = s.sheaf ∧ (joinWalk i r s).dom = s.dom ∧ (joinWalk i r s).pins = s.pins ∧ (joinWalk i r s).boot = s.boot ∧ (joinWalk i r s).tdi = s.tdi ∧ (joinWalk i r s).ac = s.ac ∧ (joinWalk i r s).vt = s.vt ∧ (joinWalk i r s).free = s.free ∧ (joinWalk i r s).out = s.out ∧ (joinWalk i r s).pending = s.pending :=
  have k : Off (fun p => p == .xlt) s (joinWalk i r s) := joinWalk_keeps (Off.keeps _ _) rfl .refl
  ⟨k.clk rfl, k.rcv rfl, k.icu rfl, k.obs rfl, k.sen rfl, k.tamperIn rfl, k.cex rfl, k.srg rfl, k.ods rfl, k.vault rfl, k.kst rfl, k.engKeys rfl, k.kwe rfl, k.pke rfl, k.ent rfl, k.atu rfl, k.lcc rfl, k.mem rfl, k.link rfl, k.sheaf rfl, k.dom rfl, k.pins rfl, k.boot rfl, k.tdi rfl, k.ac rfl, k.vt rfl, k.free rfl, k.out rfl, k.pending rfl⟩

@[simp] theorem joinWaiting_same {s : State} :
    (joinWaiting s).clk = s.clk ∧ (joinWaiting s).rcv = s.rcv ∧ (joinWaiting s).icu = s.icu ∧ (joinWaiting s).obs = s.obs ∧ (joinWaiting s).sen = s.sen ∧ (joinWaiting s).tamperIn = s.tamperIn ∧ (joinWaiting s).cex = s.cex ∧ (joinWaiting s).srg = s.srg ∧ (joinWaiting s).ods = s.ods ∧ (joinWaiting s).vault = s.vault ∧ (joinWaiting s).kst = s.kst ∧ (joinWaiting s).engKeys = s.engKeys ∧ (joinWaiting s).kwe = s.kwe ∧ (joinWaiting s).pke = s.pke ∧ (joinWaiting s).ent = s.ent ∧ (joinWaiting s).atu = s.atu ∧ (joinWaiting s).lcc = s.lcc ∧ (joinWaiting s).mem = s.mem ∧ (joinWaiting s).link = s.link ∧ (joinWaiting s).sheaf = s.sheaf ∧ (joinWaiting s).dom = s.dom ∧ (joinWaiting s).pins = s.pins ∧ (joinWaiting s).boot = s.boot ∧ (joinWaiting s).tdi = s.tdi ∧ (joinWaiting s).ac = s.ac ∧ (joinWaiting s).vt = s.vt ∧ (joinWaiting s).free = s.free ∧ (joinWaiting s).out = s.out ∧ (joinWaiting s).pending = s.pending :=
  have k : Off (fun p => p == .xlt) s (joinWaiting s) := joinWaiting_keeps (Off.keeps _ _) rfl .refl
  ⟨k.clk rfl, k.rcv rfl, k.icu rfl, k.obs rfl, k.sen rfl, k.tamperIn rfl, k.cex rfl, k.srg rfl, k.ods rfl, k.vault rfl, k.kst rfl, k.engKeys rfl, k.kwe rfl, k.pke rfl, k.ent rfl, k.atu rfl, k.lcc rfl, k.mem rfl, k.link rfl, k.sheaf rfl, k.dom rfl, k.pins rfl, k.boot rfl, k.tdi rfl, k.ac rfl, k.vt rfl, k.free rfl, k.out rfl, k.pending rfl⟩

@[simp] theorem takeWalker_same {i : Nat} {r : DmaReq} {s : State} :
    (takeWalker i r s).clk = s.clk ∧ (takeWalker i r s).sen = s.sen ∧ (takeWalker i r s).tamperIn = s.tamperIn ∧ (takeWalker i r s).srg = s.srg ∧ (takeWalker i r s).ods = s.ods ∧ (takeWalker i r s).vault = s.vault ∧ (takeWalker i r s).kst = s.kst ∧ (takeWalker i r s).engKeys = s.engKeys ∧ (takeWalker i r s).kwe = s.kwe ∧ (takeWalker i r s).pke = s.pke ∧ (takeWalker i r s).ent = s.ent ∧ (takeWalker i r s).atu = s.atu ∧ (takeWalker i r s).lcc = s.lcc ∧ (takeWalker i r s).mem = s.mem ∧ (takeWalker i r s).link = s.link ∧ (takeWalker i r s).sheaf = s.sheaf ∧ (takeWalker i r s).dom = s.dom ∧ (takeWalker i r s).pins = s.pins ∧ (takeWalker i r s).boot = s.boot ∧ (takeWalker i r s).tdi = s.tdi ∧ (takeWalker i r s).ac = s.ac ∧ (takeWalker i r s).vt = s.vt ∧ (takeWalker i r s).free = s.free ∧ (takeWalker i r s).pending = s.pending :=
  have k : Off (fun p => p == .rcv || p == .icu || p == .obs || p == .cex || p == .xlt || p == .out) s (takeWalker i r s) := takeWalker_keeps (Off.keeps _ _) rfl rfl rfl rfl rfl rfl .refl
  ⟨k.clk rfl, k.sen rfl, k.tamperIn rfl, k.srg rfl, k.ods rfl, k.vault rfl, k.kst rfl, k.engKeys rfl, k.kwe rfl, k.pke rfl, k.ent rfl, k.atu rfl, k.lcc rfl, k.mem rfl, k.link rfl, k.sheaf rfl, k.dom rfl, k.pins rfl, k.boot rfl, k.tdi rfl, k.ac rfl, k.vt rfl, k.free rfl, k.pending rfl⟩

@[simp] theorem giveWalkers_same {a : Nat} {a1 : State} :
    (giveWalkers a a1).clk = a1.clk ∧ (giveWalkers a a1).sen = a1.sen ∧ (giveWalkers a a1).tamperIn = a1.tamperIn ∧ (giveWalkers a a1).srg = a1.srg ∧ (giveWalkers a a1).ods = a1.ods ∧ (giveWalkers a a1).vault = a1.vault ∧ (giveWalkers a a1).kst = a1.kst ∧ (giveWalkers a a1).engKeys = a1.engKeys ∧ (giveWalkers a a1).kwe = a1.kwe ∧ (giveWalkers a a1).pke = a1.pke ∧ (giveWalkers a a1).ent = a1.ent ∧ (giveWalkers a a1).atu = a1.atu ∧ (giveWalkers a a1).lcc = a1.lcc ∧ (giveWalkers a a1).mem = a1.mem ∧ (giveWalkers a a1).link = a1.link ∧ (giveWalkers a a1).sheaf = a1.sheaf ∧ (giveWalkers a a1).dom = a1.dom ∧ (giveWalkers a a1).pins = a1.pins ∧ (giveWalkers a a1).boot = a1.boot ∧ (giveWalkers a a1).tdi = a1.tdi ∧ (giveWalkers a a1).ac = a1.ac ∧ (giveWalkers a a1).vt = a1.vt ∧ (giveWalkers a a1).free = a1.free ∧ (giveWalkers a a1).pending = a1.pending :=
  have k : Off (fun p => p == .rcv || p == .icu || p == .obs || p == .cex || p == .xlt || p == .out) a1 (giveWalkers a a1) := giveWalkers_keeps (Off.keeps _ _) rfl rfl rfl rfl rfl rfl .refl
  ⟨k.clk rfl, k.sen rfl, k.tamperIn rfl, k.srg rfl, k.ods rfl, k.vault rfl, k.kst rfl, k.engKeys rfl, k.kwe rfl, k.pke rfl, k.ent rfl, k.atu rfl, k.lcc rfl, k.mem rfl, k.link rfl, k.sheaf rfl, k.dom rfl, k.pins rfl, k.boot rfl, k.tdi rfl, k.ac rfl, k.vt rfl, k.free rfl, k.pending rfl⟩

@[simp] theorem missWalk_same {r : DmaReq} {s : State} :
    (missWalk r s).clk = s.clk ∧ (missWalk r s).sen = s.sen ∧ (missWalk r s).tamperIn = s.tamperIn ∧ (missWalk r s).srg = s.srg ∧ (missWalk r s).ods = s.ods ∧ (missWalk r s).vault = s.vault ∧ (missWalk r s).kst = s.kst ∧ (missWalk r s).engKeys = s.engKeys ∧ (missWalk r s).kwe = s.kwe ∧ (missWalk r s).pke = s.pke ∧ (missWalk r s).ent = s.ent ∧ (missWalk r s).atu = s.atu ∧ (missWalk r s).lcc = s.lcc ∧ (missWalk r s).mem = s.mem ∧ (missWalk r s).link = s.link ∧ (missWalk r s).sheaf = s.sheaf ∧ (missWalk r s).dom = s.dom ∧ (missWalk r s).pins = s.pins ∧ (missWalk r s).boot = s.boot ∧ (missWalk r s).tdi = s.tdi ∧ (missWalk r s).ac = s.ac ∧ (missWalk r s).vt = s.vt ∧ (missWalk r s).free = s.free ∧ (missWalk r s).pending = s.pending :=
  have k : Off (fun p => p == .rcv || p == .icu || p == .obs || p == .cex || p == .xlt || p == .out) s (missWalk r s) := missWalk_keeps (Off.keeps _ _) rfl rfl rfl rfl rfl rfl .refl
  ⟨k.clk rfl, k.sen rfl, k.tamperIn rfl, k.srg rfl, k.ods rfl, k.vault rfl, k.kst rfl, k.engKeys rfl, k.kwe rfl, k.pke rfl, k.ent rfl, k.atu rfl, k.lcc rfl, k.mem rfl, k.link rfl, k.sheaf rfl, k.dom rfl, k.pins rfl, k.boot rfl, k.tdi rfl, k.ac rfl, k.vt rfl, k.free rfl, k.pending rfl⟩

@[simp] theorem settleInvalidations_same {s : State} :
    (settleInvalidations s).clk = s.clk ∧ (settleInvalidations s).rcv = s.rcv ∧ (settleInvalidations s).icu = s.icu ∧ (settleInvalidations s).obs = s.obs ∧ (settleInvalidations s).sen = s.sen ∧ (settleInvalidations s).tamperIn = s.tamperIn ∧ (settleInvalidations s).srg = s.srg ∧ (settleInvalidations s).ods = s.ods ∧ (settleInvalidations s).vault = s.vault ∧ (settleInvalidations s).kst = s.kst ∧ (settleInvalidations s).engKeys = s.engKeys ∧ (settleInvalidations s).kwe = s.kwe ∧ (settleInvalidations s).pke = s.pke ∧ (settleInvalidations s).ent = s.ent ∧ (settleInvalidations s).atu = s.atu ∧ (settleInvalidations s).lcc = s.lcc ∧ (settleInvalidations s).mem = s.mem ∧ (settleInvalidations s).link = s.link ∧ (settleInvalidations s).sheaf = s.sheaf ∧ (settleInvalidations s).dom = s.dom ∧ (settleInvalidations s).pins = s.pins ∧ (settleInvalidations s).boot = s.boot ∧ (settleInvalidations s).tdi = s.tdi ∧ (settleInvalidations s).ac = s.ac ∧ (settleInvalidations s).vt = s.vt ∧ (settleInvalidations s).free = s.free ∧ (settleInvalidations s).out = s.out ∧ (settleInvalidations s).pending = s.pending :=
  have k : Off (fun p => p == .cex || p == .xlt) s (settleInvalidations s) := settleInvalidations_keeps (Off.keeps _ _) rfl rfl .refl
  ⟨k.clk rfl, k.rcv rfl, k.icu rfl, k.obs rfl, k.sen rfl, k.tamperIn rfl, k.srg rfl, k.ods rfl, k.vault rfl, k.kst rfl, k.engKeys rfl, k.kwe rfl, k.pke rfl, k.ent rfl, k.atu rfl, k.lcc rfl, k.mem rfl, k.link rfl, k.sheaf rfl, k.dom rfl, k.pins rfl, k.boot rfl, k.tdi rfl, k.ac rfl, k.vt rfl, k.free rfl, k.out rfl, k.pending rfl⟩

@[simp] theorem tlbHit_same {r : DmaReq} {e : TlbEntry} {s : State} :
    (tlbHit r e s).clk = s.clk ∧ (tlbHit r e s).sen = s.sen ∧ (tlbHit r e s).tamperIn = s.tamperIn ∧ (tlbHit r e s).srg = s.srg ∧ (tlbHit r e s).ods = s.ods ∧ (tlbHit r e s).vault = s.vault ∧ (tlbHit r e s).kst = s.kst ∧ (tlbHit r e s).engKeys = s.engKeys ∧ (tlbHit r e s).kwe = s.kwe ∧ (tlbHit r e s).pke = s.pke ∧ (tlbHit r e s).ent = s.ent ∧ (tlbHit r e s).atu = s.atu ∧ (tlbHit r e s).lcc = s.lcc ∧ (tlbHit r e s).mem = s.mem ∧ (tlbHit r e s).link = s.link ∧ (tlbHit r e s).sheaf = s.sheaf ∧ (tlbHit r e s).dom = s.dom ∧ (tlbHit r e s).pins = s.pins ∧ (tlbHit r e s).boot = s.boot ∧ (tlbHit r e s).tdi = s.tdi ∧ (tlbHit r e s).ac = s.ac ∧ (tlbHit r e s).vt = s.vt ∧ (tlbHit r e s).free = s.free ∧ (tlbHit r e s).pending = s.pending :=
  have k : Off (fun p => p == .rcv || p == .icu || p == .obs || p == .cex || p == .xlt || p == .out) s (tlbHit r e s) := tlbHit_keeps (Off.keeps _ _) rfl rfl rfl rfl rfl rfl .refl
  ⟨k.clk rfl, k.sen rfl, k.tamperIn rfl, k.srg rfl, k.ods rfl, k.vault rfl, k.kst rfl, k.engKeys rfl, k.kwe rfl, k.pke rfl, k.ent rfl, k.atu rfl, k.lcc rfl, k.mem rfl, k.link rfl, k.sheaf rfl, k.dom rfl, k.pins rfl, k.boot rfl, k.tdi rfl, k.ac rfl, k.vt rfl, k.free rfl, k.pending rfl⟩

@[simp] theorem dropFreeze_same {sl cookie : Nat} {s : State} :
    (dropFreeze sl cookie s).clk = s.clk ∧ (dropFreeze sl cookie s).rcv = s.rcv ∧ (dropFreeze sl cookie s).icu = s.icu ∧ (dropFreeze sl cookie s).obs = s.obs ∧ (dropFreeze sl cookie s).sen = s.sen ∧ (dropFreeze sl cookie s).tamperIn = s.tamperIn ∧ (dropFreeze sl cookie s).xlt = s.xlt ∧ (dropFreeze sl cookie s).ods = s.ods ∧ (dropFreeze sl cookie s).vault = s.vault ∧ (dropFreeze sl cookie s).kst = s.kst ∧ (dropFreeze sl cookie s).engKeys = s.engKeys ∧ (dropFreeze sl cookie s).kwe = s.kwe ∧ (dropFreeze sl cookie s).pke = s.pke ∧ (dropFreeze sl cookie s).ent = s.ent ∧ (dropFreeze sl cookie s).atu = s.atu ∧ (dropFreeze sl cookie s).lcc = s.lcc ∧ (dropFreeze sl cookie s).mem = s.mem ∧ (dropFreeze sl cookie s).link = s.link ∧ (dropFreeze sl cookie s).sheaf = s.sheaf ∧ (dropFreeze sl cookie s).dom = s.dom ∧ (dropFreeze sl cookie s).pins = s.pins ∧ (dropFreeze sl cookie s).boot = s.boot ∧ (dropFreeze sl cookie s).tdi = s.tdi ∧ (dropFreeze sl cookie s).ac = s.ac ∧ (dropFreeze sl cookie s).vt = s.vt ∧ (dropFreeze sl cookie s).free = s.free ∧ (dropFreeze sl cookie s).out = s.out ∧ (dropFreeze sl cookie s).pending = s.pending :=
  have k : Off (fun p => p == .cex || p == .srg) s (dropFreeze sl cookie s) := dropFreeze_keeps (Off.keeps _ _) rfl rfl .refl
  ⟨k.clk rfl, k.rcv rfl, k.icu rfl, k.obs rfl, k.sen rfl, k.tamperIn rfl, k.xlt rfl, k.ods rfl, k.vault rfl, k.kst rfl, k.engKeys rfl, k.kwe rfl, k.pke rfl, k.ent rfl, k.atu rfl, k.lcc rfl, k.mem rfl, k.link rfl, k.sheaf rfl, k.dom rfl, k.pins rfl, k.boot rfl, k.tdi rfl, k.ac rfl, k.vt rfl, k.free rfl, k.out rfl, k.pending rfl⟩

@[simp] theorem clearCommands_same {sl : Nat} {s : State} :
    (clearCommands sl s).clk = s.clk ∧ (clearCommands sl s).rcv = s.rcv ∧ (clearCommands sl s).icu = s.icu ∧ (clearCommands sl s).obs = s.obs ∧ (clearCommands sl s).sen = s.sen ∧ (clearCommands sl s).tamperIn = s.tamperIn ∧ (clearCommands sl s).xlt = s.xlt ∧ (clearCommands sl s).srg = s.srg ∧ (clearCommands sl s).ods = s.ods ∧ (clearCommands sl s).vault = s.vault ∧ (clearCommands sl s).kst = s.kst ∧ (clearCommands sl s).engKeys = s.engKeys ∧ (clearCommands sl s).kwe = s.kwe ∧ (clearCommands sl s).pke = s.pke ∧ (clearCommands sl s).ent = s.ent ∧ (clearCommands sl s).atu = s.atu ∧ (clearCommands sl s).lcc = s.lcc ∧ (clearCommands sl s).mem = s.mem ∧ (clearCommands sl s).link = s.link ∧ (clearCommands sl s).sheaf = s.sheaf ∧ (clearCommands sl s).dom = s.dom ∧ (clearCommands sl s).pins = s.pins ∧ (clearCommands sl s).boot = s.boot ∧ (clearCommands sl s).tdi = s.tdi ∧ (clearCommands sl s).ac = s.ac ∧ (clearCommands sl s).vt = s.vt ∧ (clearCommands sl s).free = s.free ∧ (clearCommands sl s).out = s.out ∧ (clearCommands sl s).pending = s.pending :=
  have k : Off (fun p => p == .cex) s (clearCommands sl s) := clearCommands_keeps (Off.keeps _ _) rfl .refl
  ⟨k.clk rfl, k.rcv rfl, k.icu rfl, k.obs rfl, k.sen rfl, k.tamperIn rfl, k.xlt rfl, k.srg rfl, k.ods rfl, k.vault rfl, k.kst rfl, k.engKeys rfl, k.kwe rfl, k.pke rfl, k.ent rfl, k.atu rfl, k.lcc rfl, k.mem rfl, k.link rfl, k.sheaf rfl, k.dom rfl, k.pins rfl, k.boot rfl, k.tdi rfl, k.ac rfl, k.vt rfl, k.free rfl, k.out rfl, k.pending rfl⟩

@[simp] theorem removeQueues_same {sl cookie : Nat} {s : State} :
    (removeQueues sl cookie s).clk = s.clk ∧ (removeQueues sl cookie s).sen = s.sen ∧ (removeQueues sl cookie s).tamperIn = s.tamperIn ∧ (removeQueues sl cookie s).xlt = s.xlt ∧ (removeQueues sl cookie s).ods = s.ods ∧ (removeQueues sl cookie s).vault = s.vault ∧ (removeQueues sl cookie s).kst = s.kst ∧ (removeQueues sl cookie s).engKeys = s.engKeys ∧ (removeQueues sl cookie s).kwe = s.kwe ∧ (removeQueues sl cookie s).pke = s.pke ∧ (removeQueues sl cookie s).ent = s.ent ∧ (removeQueues sl cookie s).atu = s.atu ∧ (removeQueues sl cookie s).lcc = s.lcc ∧ (removeQueues sl cookie s).mem = s.mem ∧ (removeQueues sl cookie s).link = s.link ∧ (removeQueues sl cookie s).sheaf = s.sheaf ∧ (removeQueues sl cookie s).dom = s.dom ∧ (removeQueues sl cookie s).pins = s.pins ∧ (removeQueues sl cookie s).boot = s.boot ∧ (removeQueues sl cookie s).tdi = s.tdi ∧ (removeQueues sl cookie s).ac = s.ac ∧ (removeQueues sl cookie s).vt = s.vt ∧ (removeQueues sl cookie s).free = s.free ∧ (removeQueues sl cookie s).pending = s.pending :=
  have k : Off (fun p => p == .rcv || p == .icu || p == .obs || p == .cex || p == .srg || p == .out) s (removeQueues sl cookie s) := removeQueues_keeps (Off.keeps _ _) rfl rfl rfl rfl rfl rfl .refl
  ⟨k.clk rfl, k.sen rfl, k.tamperIn rfl, k.xlt rfl, k.ods rfl, k.vault rfl, k.kst rfl, k.engKeys rfl, k.kwe rfl, k.pke rfl, k.ent rfl, k.atu rfl, k.lcc rfl, k.mem rfl, k.link rfl, k.sheaf rfl, k.dom rfl, k.pins rfl, k.boot rfl, k.tdi rfl, k.ac rfl, k.vt rfl, k.free rfl, k.pending rfl⟩

@[simp] theorem emptySlice_same {sl cookie : Nat} {s : State} :
    (emptySlice sl cookie s).clk = s.clk ∧ (emptySlice sl cookie s).sen = s.sen ∧ (emptySlice sl cookie s).tamperIn = s.tamperIn ∧ (emptySlice sl cookie s).xlt = s.xlt ∧ (emptySlice sl cookie s).ods = s.ods ∧ (emptySlice sl cookie s).vault = s.vault ∧ (emptySlice sl cookie s).ent = s.ent ∧ (emptySlice sl cookie s).atu = s.atu ∧ (emptySlice sl cookie s).lcc = s.lcc ∧ (emptySlice sl cookie s).dom = s.dom ∧ (emptySlice sl cookie s).pins = s.pins ∧ (emptySlice sl cookie s).boot = s.boot ∧ (emptySlice sl cookie s).tdi = s.tdi ∧ (emptySlice sl cookie s).free = s.free ∧ (emptySlice sl cookie s).pending = s.pending :=
  have k : Off (fun p => p == .rcv || p == .icu || p == .obs || p == .cex || p == .srg || p == .kst || p == .engKeys || p == .kwe || p == .pke || p == .mem || p == .link || p == .sheaf || p == .ac || p == .vt || p == .out) s (emptySlice sl cookie s) := emptySlice_keeps (Off.keeps _ _) rfl rfl rfl rfl rfl rfl rfl rfl rfl rfl rfl rfl rfl rfl rfl .refl
  ⟨k.clk rfl, k.sen rfl, k.tamperIn rfl, k.xlt rfl, k.ods rfl, k.vault rfl, k.ent rfl, k.atu rfl, k.lcc rfl, k.dom rfl, k.pins rfl, k.boot rfl, k.tdi rfl, k.free rfl, k.pending rfl⟩

@[simp] theorem targetEvidence_same {sl : Nat} {b : Bytes} {s : State} :
    (targetEvidence sl b s).clk = s.clk ∧ (targetEvidence sl b s).rcv = s.rcv ∧ (targetEvidence sl b s).icu = s.icu ∧ (targetEvidence sl b s).obs = s.obs ∧ (targetEvidence sl b s).sen = s.sen ∧ (targetEvidence sl b s).tamperIn = s.tamperIn ∧ (targetEvidence sl b s).cex = s.cex ∧ (targetEvidence sl b s).xlt = s.xlt ∧ (targetEvidence sl b s).ods = s.ods ∧ (targetEvidence sl b s).vault = s.vault ∧ (targetEvidence sl b s).kst = s.kst ∧ (targetEvidence sl b s).engKeys = s.engKeys ∧ (targetEvidence sl b s).kwe = s.kwe ∧ (targetEvidence sl b s).atu = s.atu ∧ (targetEvidence sl b s).lcc = s.lcc ∧ (targetEvidence sl b s).mem = s.mem ∧ (targetEvidence sl b s).link = s.link ∧ (targetEvidence sl b s).sheaf = s.sheaf ∧ (targetEvidence sl b s).dom = s.dom ∧ (targetEvidence sl b s).pins = s.pins ∧ (targetEvidence sl b s).boot = s.boot ∧ (targetEvidence sl b s).tdi = s.tdi ∧ (targetEvidence sl b s).ac = s.ac ∧ (targetEvidence sl b s).vt = s.vt ∧ (targetEvidence sl b s).out = s.out ∧ (targetEvidence sl b s).pending = s.pending :=
  have k : Off (fun p => p == .srg || p == .pke || p == .ent || p == .free) s (targetEvidence sl b s) := targetEvidence_keeps (Off.keeps _ _) rfl rfl rfl rfl .refl
  ⟨k.clk rfl, k.rcv rfl, k.icu rfl, k.obs rfl, k.sen rfl, k.tamperIn rfl, k.cex rfl, k.xlt rfl, k.ods rfl, k.vault rfl, k.kst rfl, k.engKeys rfl, k.kwe rfl, k.atu rfl, k.lcc rfl, k.mem rfl, k.link rfl, k.sheaf rfl, k.dom rfl, k.pins rfl, k.boot rfl, k.tdi rfl, k.ac rfl, k.vt rfl, k.out rfl, k.pending rfl⟩

@[simp] theorem trimWays_same {sl : Nat} {s : State} :
    (trimWays sl s).clk = s.clk ∧ (trimWays sl s).sen = s.sen ∧ (trimWays sl s).tamperIn = s.tamperIn ∧ (trimWays sl s).xlt = s.xlt ∧ (trimWays sl s).srg = s.srg ∧ (trimWays sl s).ods = s.ods ∧ (trimWays sl s).vault = s.vault ∧ (trimWays sl s).kst = s.kst ∧ (trimWays sl s).engKeys = s.engKeys ∧ (trimWays sl s).kwe = s.kwe ∧ (trimWays sl s).pke = s.pke ∧ (trimWays sl s).ent = s.ent ∧ (trimWays sl s).atu = s.atu ∧ (trimWays sl s).lcc = s.lcc ∧ (trimWays sl s).link = s.link ∧ (trimWays sl s).sheaf = s.sheaf ∧ (trimWays sl s).dom = s.dom ∧ (trimWays sl s).pins = s.pins ∧ (trimWays sl s).boot = s.boot ∧ (trimWays sl s).tdi = s.tdi ∧ (trimWays sl s).ac = s.ac ∧ (trimWays sl s).vt = s.vt ∧ (trimWays sl s).free = s.free ∧ (trimWays sl s).pending = s.pending :=
  have k : Off (fun p => p == .rcv || p == .icu || p == .obs || p == .cex || p == .mem || p == .out) s (trimWays sl s) := trimWays_keeps (Off.keeps _ _) rfl rfl rfl rfl rfl rfl .refl
  ⟨k.clk rfl, k.sen rfl, k.tamperIn rfl, k.xlt rfl, k.srg rfl, k.ods rfl, k.vault rfl, k.kst rfl, k.engKeys rfl, k.kwe rfl, k.pke rfl, k.ent rfl, k.atu rfl, k.lcc rfl, k.link rfl, k.sheaf rfl, k.dom rfl, k.pins rfl, k.boot rfl, k.tdi rfl, k.ac rfl, k.vt rfl, k.free rfl, k.pending rfl⟩

@[simp] theorem endEscalation_same {sl : Nat} {s : State} :
    (endEscalation sl s).clk = s.clk ∧ (endEscalation sl s).icu = s.icu ∧ (endEscalation sl s).obs = s.obs ∧ (endEscalation sl s).sen = s.sen ∧ (endEscalation sl s).tamperIn = s.tamperIn ∧ (endEscalation sl s).cex = s.cex ∧ (endEscalation sl s).xlt = s.xlt ∧ (endEscalation sl s).srg = s.srg ∧ (endEscalation sl s).ods = s.ods ∧ (endEscalation sl s).vault = s.vault ∧ (endEscalation sl s).kst = s.kst ∧ (endEscalation sl s).engKeys = s.engKeys ∧ (endEscalation sl s).kwe = s.kwe ∧ (endEscalation sl s).pke = s.pke ∧ (endEscalation sl s).ent = s.ent ∧ (endEscalation sl s).atu = s.atu ∧ (endEscalation sl s).lcc = s.lcc ∧ (endEscalation sl s).mem = s.mem ∧ (endEscalation sl s).link = s.link ∧ (endEscalation sl s).sheaf = s.sheaf ∧ (endEscalation sl s).dom = s.dom ∧ (endEscalation sl s).pins = s.pins ∧ (endEscalation sl s).boot = s.boot ∧ (endEscalation sl s).tdi = s.tdi ∧ (endEscalation sl s).ac = s.ac ∧ (endEscalation sl s).vt = s.vt ∧ (endEscalation sl s).free = s.free ∧ (endEscalation sl s).out = s.out ∧ (endEscalation sl s).pending = s.pending :=
  have k : Off (fun p => p == .rcv) s (endEscalation sl s) := endEscalation_keeps (Off.keeps _ _) rfl .refl
  ⟨k.clk rfl, k.icu rfl, k.obs rfl, k.sen rfl, k.tamperIn rfl, k.cex rfl, k.xlt rfl, k.srg rfl, k.ods rfl, k.vault rfl, k.kst rfl, k.engKeys rfl, k.kwe rfl, k.pke rfl, k.ent rfl, k.atu rfl, k.lcc rfl, k.mem rfl, k.link rfl, k.sheaf rfl, k.dom rfl, k.pins rfl, k.boot rfl, k.tdi rfl, k.ac rfl, k.vt rfl, k.free rfl, k.out rfl, k.pending rfl⟩

@[simp] theorem createSlice_same {b : Bytes} {s : State} :
    (createSlice b s).clk = s.clk ∧ (createSlice b s).rcv = s.rcv ∧ (createSlice b s).icu = s.icu ∧ (createSlice b s).obs = s.obs ∧ (createSlice b s).sen = s.sen ∧ (createSlice b s).tamperIn = s.tamperIn ∧ (createSlice b s).cex = s.cex ∧ (createSlice b s).xlt = s.xlt ∧ (createSlice b s).vault = s.vault ∧ (createSlice b s).kst = s.kst ∧ (createSlice b s).engKeys = s.engKeys ∧ (createSlice b s).kwe = s.kwe ∧ (createSlice b s).lcc = s.lcc ∧ (createSlice b s).mem = s.mem ∧ (createSlice b s).link = s.link ∧ (createSlice b s).sheaf = s.sheaf ∧ (createSlice b s).dom = s.dom ∧ (createSlice b s).pins = s.pins ∧ (createSlice b s).boot = s.boot ∧ (createSlice b s).ac = s.ac ∧ (createSlice b s).vt = s.vt ∧ (createSlice b s).out = s.out ∧ (createSlice b s).pending = s.pending :=
  have k : Off (fun p => p == .srg || p == .ods || p == .pke || p == .ent || p == .atu || p == .tdi || p == .free) s (createSlice b s) := createSlice_keeps (Off.keeps _ _) rfl rfl rfl rfl rfl rfl rfl .refl
  ⟨k.clk rfl, k.rcv rfl, k.icu rfl, k.obs rfl, k.sen rfl, k.tamperIn rfl, k.cex rfl, k.xlt rfl, k.vault rfl, k.kst rfl, k.engKeys rfl, k.kwe rfl, k.lcc rfl, k.mem rfl, k.link rfl, k.sheaf rfl, k.dom rfl, k.pins rfl, k.boot rfl, k.ac rfl, k.vt rfl, k.out rfl, k.pending rfl⟩

@[simp] theorem restartWalks_same {p : DmaReq → Bool} {s : State} :
    (restartWalks p s).clk = s.clk ∧ (restartWalks p s).sen = s.sen ∧ (restartWalks p s).tamperIn = s.tamperIn ∧ (restartWalks p s).srg = s.srg ∧ (restartWalks p s).ods = s.ods ∧ (restartWalks p s).vault = s.vault ∧ (restartWalks p s).kst = s.kst ∧ (restartWalks p s).engKeys = s.engKeys ∧ (restartWalks p s).kwe = s.kwe ∧ (restartWalks p s).pke = s.pke ∧ (restartWalks p s).ent = s.ent ∧ (restartWalks p s).atu = s.atu ∧ (restartWalks p s).lcc = s.lcc ∧ (restartWalks p s).mem = s.mem ∧ (restartWalks p s).link = s.link ∧ (restartWalks p s).sheaf = s.sheaf ∧ (restartWalks p s).dom = s.dom ∧ (restartWalks p s).pins = s.pins ∧ (restartWalks p s).boot = s.boot ∧ (restartWalks p s).tdi = s.tdi ∧ (restartWalks p s).ac = s.ac ∧ (restartWalks p s).vt = s.vt ∧ (restartWalks p s).free = s.free ∧ (restartWalks p s).pending = s.pending :=
  have k : Off (fun p => p == .rcv || p == .icu || p == .obs || p == .cex || p == .xlt || p == .out) s (restartWalks p s) := restartWalks_keeps (Off.keeps _ _) rfl rfl rfl rfl rfl rfl .refl
  ⟨k.clk rfl, k.sen rfl, k.tamperIn rfl, k.srg rfl, k.ods rfl, k.vault rfl, k.kst rfl, k.engKeys rfl, k.kwe rfl, k.pke rfl, k.ent rfl, k.atu rfl, k.lcc rfl, k.mem rfl, k.link rfl, k.sheaf rfl, k.dom rfl, k.pins rfl, k.boot rfl, k.tdi rfl, k.ac rfl, k.vt rfl, k.free rfl, k.pending rfl⟩

@[simp] theorem endWalk_same {i : Nat} {w : Walk} {res : Except XFlt (Leaf × Nat)} {s : State} :
    (endWalk i w res s).clk = s.clk ∧ (endWalk i w res s).sen = s.sen ∧ (endWalk i w res s).tamperIn = s.tamperIn ∧ (endWalk i w res s).srg = s.srg ∧ (endWalk i w res s).ods = s.ods ∧ (endWalk i w res s).vault = s.vault ∧ (endWalk i w res s).kst = s.kst ∧ (endWalk i w res s).engKeys = s.engKeys ∧ (endWalk i w res s).kwe = s.kwe ∧ (endWalk i w res s).pke = s.pke ∧ (endWalk i w res s).ent = s.ent ∧ (endWalk i w res s).atu = s.atu ∧ (endWalk i w res s).lcc = s.lcc ∧ (endWalk i w res s).mem = s.mem ∧ (endWalk i w res s).link = s.link ∧ (endWalk i w res s).sheaf = s.sheaf ∧ (endWalk i w res s).dom = s.dom ∧ (endWalk i w res s).pins = s.pins ∧ (endWalk i w res s).boot = s.boot ∧ (endWalk i w res s).tdi = s.tdi ∧ (endWalk i w res s).ac = s.ac ∧ (endWalk i w res s).vt = s.vt ∧ (endWalk i w res s).free = s.free ∧ (endWalk i w res s).pending = s.pending :=
  have k : Off (fun p => p == .rcv || p == .icu || p == .obs || p == .cex || p == .xlt || p == .out) s (endWalk i w res s) := endWalk_keeps (Off.keeps _ _) rfl rfl rfl rfl rfl rfl .refl
  ⟨k.clk rfl, k.sen rfl, k.tamperIn rfl, k.srg rfl, k.ods rfl, k.vault rfl, k.kst rfl, k.engKeys rfl, k.kwe rfl, k.pke rfl, k.ent rfl, k.atu rfl, k.lcc rfl, k.mem rfl, k.link rfl, k.sheaf rfl, k.dom rfl, k.pins rfl, k.boot rfl, k.tdi rfl, k.ac rfl, k.vt rfl, k.free rfl, k.pending rfl⟩

@[simp] theorem resetPairIcu_same {pair : Bool} {s : State} :
    (resetPairIcu pair s).clk = s.clk ∧ (resetPairIcu pair s).rcv = s.rcv ∧ (resetPairIcu pair s).obs = s.obs ∧ (resetPairIcu pair s).sen = s.sen ∧ (resetPairIcu pair s).tamperIn = s.tamperIn ∧ (resetPairIcu pair s).cex = s.cex ∧ (resetPairIcu pair s).xlt = s.xlt ∧ (resetPairIcu pair s).srg = s.srg ∧ (resetPairIcu pair s).ods = s.ods ∧ (resetPairIcu pair s).vault = s.vault ∧ (resetPairIcu pair s).kst = s.kst ∧ (resetPairIcu pair s).engKeys = s.engKeys ∧ (resetPairIcu pair s).kwe = s.kwe ∧ (resetPairIcu pair s).pke = s.pke ∧ (resetPairIcu pair s).ent = s.ent ∧ (resetPairIcu pair s).atu = s.atu ∧ (resetPairIcu pair s).lcc = s.lcc ∧ (resetPairIcu pair s).mem = s.mem ∧ (resetPairIcu pair s).link = s.link ∧ (resetPairIcu pair s).sheaf = s.sheaf ∧ (resetPairIcu pair s).dom = s.dom ∧ (resetPairIcu pair s).pins = s.pins ∧ (resetPairIcu pair s).boot = s.boot ∧ (resetPairIcu pair s).tdi = s.tdi ∧ (resetPairIcu pair s).ac = s.ac ∧ (resetPairIcu pair s).vt = s.vt ∧ (resetPairIcu pair s).free = s.free ∧ (resetPairIcu pair s).out = s.out ∧ (resetPairIcu pair s).pending = s.pending :=
  have k : Off (fun p => p == .icu) s (resetPairIcu pair s) := resetPairIcu_keeps (Off.keeps _ _) rfl .refl
  ⟨k.clk rfl, k.rcv rfl, k.obs rfl, k.sen rfl, k.tamperIn rfl, k.cex rfl, k.xlt rfl, k.srg rfl, k.ods rfl, k.vault rfl, k.kst rfl, k.engKeys rfl, k.kwe rfl, k.pke rfl, k.ent rfl, k.atu rfl, k.lcc rfl, k.mem rfl, k.link rfl, k.sheaf rfl, k.dom rfl, k.pins rfl, k.boot rfl, k.tdi rfl, k.ac rfl, k.vt rfl, k.free rfl, k.out rfl, k.pending rfl⟩

@[simp] theorem resetPair_same {pair : Bool} {s : State} :
    (resetPair pair s).clk = s.clk ∧ (resetPair pair s).rcv = s.rcv ∧ (resetPair pair s).obs = s.obs ∧ (resetPair pair s).sen = s.sen ∧ (resetPair pair s).tamperIn = s.tamperIn ∧ (resetPair pair s).cex = s.cex ∧ (resetPair pair s).xlt = s.xlt ∧ (resetPair pair s).srg = s.srg ∧ (resetPair pair s).vault = s.vault ∧ (resetPair pair s).kst = s.kst ∧ (resetPair pair s).engKeys = s.engKeys ∧ (resetPair pair s).kwe = s.kwe ∧ (resetPair pair s).pke = s.pke ∧ (resetPair pair s).ent = s.ent ∧ (resetPair pair s).atu = s.atu ∧ (resetPair pair s).lcc = s.lcc ∧ (resetPair pair s).mem = s.mem ∧ (resetPair pair s).link = s.link ∧ (resetPair pair s).sheaf = s.sheaf ∧ (resetPair pair s).pins = s.pins ∧ (resetPair pair s).boot = s.boot ∧ (resetPair pair s).tdi = s.tdi ∧ (resetPair pair s).ac = s.ac ∧ (resetPair pair s).vt = s.vt ∧ (resetPair pair s).free = s.free ∧ (resetPair pair s).out = s.out ∧ (resetPair pair s).pending = s.pending :=
  have k : Off (fun p => p == .icu || p == .ods || p == .dom) s (resetPair pair s) := resetPair_keeps (Off.keeps _ _) rfl rfl rfl .refl
  ⟨k.clk rfl, k.rcv rfl, k.obs rfl, k.sen rfl, k.tamperIn rfl, k.cex rfl, k.xlt rfl, k.srg rfl, k.vault rfl, k.kst rfl, k.engKeys rfl, k.kwe rfl, k.pke rfl, k.ent rfl, k.atu rfl, k.lcc rfl, k.mem rfl, k.link rfl, k.sheaf rfl, k.pins rfl, k.boot rfl, k.tdi rfl, k.ac rfl, k.vt rfl, k.free rfl, k.out rfl, k.pending rfl⟩

@[simp] theorem engineLoss_same {unit : Nat} {s : State} :
    (engineLoss unit s).clk = s.clk ∧ (engineLoss unit s).sen = s.sen ∧ (engineLoss unit s).tamperIn = s.tamperIn ∧ (engineLoss unit s).srg = s.srg ∧ (engineLoss unit s).vault = s.vault ∧ (engineLoss unit s).kst = s.kst ∧ (engineLoss unit s).engKeys = s.engKeys ∧ (engineLoss unit s).kwe = s.kwe ∧ (engineLoss unit s).pke = s.pke ∧ (engineLoss unit s).ent = s.ent ∧ (engineLoss unit s).atu = s.atu ∧ (engineLoss unit s).lcc = s.lcc ∧ (engineLoss unit s).link = s.link ∧ (engineLoss unit s).sheaf = s.sheaf ∧ (engineLoss unit s).pins = s.pins ∧ (engineLoss unit s).boot = s.boot ∧ (engineLoss unit s).tdi = s.tdi ∧ (engineLoss unit s).ac = s.ac ∧ (engineLoss unit s).vt = s.vt ∧ (engineLoss unit s).free = s.free ∧ (engineLoss unit s).pending = s.pending :=
  have k : Off (fun p => p == .rcv || p == .icu || p == .obs || p == .cex || p == .xlt || p == .ods || p == .mem || p == .dom || p == .out) s (engineLoss unit s) := engineLoss_keeps (Off.keeps _ _) rfl rfl rfl rfl rfl rfl rfl rfl rfl .refl
  ⟨k.clk rfl, k.sen rfl, k.tamperIn rfl, k.srg rfl, k.vault rfl, k.kst rfl, k.engKeys rfl, k.kwe rfl, k.pke rfl, k.ent rfl, k.atu rfl, k.lcc rfl, k.link rfl, k.sheaf rfl, k.pins rfl, k.boot rfl, k.tdi rfl, k.ac rfl, k.vt rfl, k.free rfl, k.pending rfl⟩

@[simp] theorem resetEngine_same {unit slice : Nat} {s : State} :
    (resetEngine unit slice s).clk = s.clk ∧ (resetEngine unit slice s).sen = s.sen ∧ (resetEngine unit slice s).tamperIn = s.tamperIn ∧ (resetEngine unit slice s).srg = s.srg ∧ (resetEngine unit slice s).vault = s.vault ∧ (resetEngine unit slice s).kst = s.kst ∧ (resetEngine unit slice s).engKeys = s.engKeys ∧ (resetEngine unit slice s).kwe = s.kwe ∧ (resetEngine unit slice s).pke = s.pke ∧ (resetEngine unit slice s).ent = s.ent ∧ (resetEngine unit slice s).atu = s.atu ∧ (resetEngine unit slice s).lcc = s.lcc ∧ (resetEngine unit slice s).link = s.link ∧ (resetEngine unit slice s).sheaf = s.sheaf ∧ (resetEngine unit slice s).pins = s.pins ∧ (resetEngine unit slice s).boot = s.boot ∧ (resetEngine unit slice s).tdi = s.tdi ∧ (resetEngine unit slice s).ac = s.ac ∧ (resetEngine unit slice s).vt = s.vt ∧ (resetEngine unit slice s).free = s.free ∧ (resetEngine unit slice s).pending = s.pending :=
  have k : Off (fun p => p == .rcv || p == .icu || p == .obs || p == .cex || p == .xlt || p == .ods || p == .mem || p == .dom || p == .out) s (resetEngine unit slice s) := resetEngine_keeps (Off.keeps _ _) rfl rfl rfl rfl rfl rfl rfl rfl rfl .refl
  ⟨k.clk rfl, k.sen rfl, k.tamperIn rfl, k.srg rfl, k.vault rfl, k.kst rfl, k.engKeys rfl, k.kwe rfl, k.pke rfl, k.ent rfl, k.atu rfl, k.lcc rfl, k.link rfl, k.sheaf rfl, k.pins rfl, k.boot rfl, k.tdi rfl, k.ac rfl, k.vt rfl, k.free rfl, k.pending rfl⟩

@[simp] theorem takeDump_same {unit rung : Nat} {units : List (BitVec 256)} {s : State} :
    (takeDump unit rung units s).clk = s.clk ∧ (takeDump unit rung units s).icu = s.icu ∧ (takeDump unit rung units s).obs = s.obs ∧ (takeDump unit rung units s).sen = s.sen ∧ (takeDump unit rung units s).tamperIn = s.tamperIn ∧ (takeDump unit rung units s).cex = s.cex ∧ (takeDump unit rung units s).xlt = s.xlt ∧ (takeDump unit rung units s).srg = s.srg ∧ (takeDump unit rung units s).ods = s.ods ∧ (takeDump unit rung units s).vault = s.vault ∧ (takeDump unit rung units s).kst = s.kst ∧ (takeDump unit rung units s).engKeys = s.engKeys ∧ (takeDump unit rung units s).kwe = s.kwe ∧ (takeDump unit rung units s).pke = s.pke ∧ (takeDump unit rung units s).ent = s.ent ∧ (takeDump unit rung units s).atu = s.atu ∧ (takeDump unit rung units s).lcc = s.lcc ∧ (takeDump unit rung units s).mem = s.mem ∧ (takeDump unit rung units s).link = s.link ∧ (takeDump unit rung units s).sheaf = s.sheaf ∧ (takeDump unit rung units s).dom = s.dom ∧ (takeDump unit rung units s).pins = s.pins ∧ (takeDump unit rung units s).boot = s.boot ∧ (takeDump unit rung units s).tdi = s.tdi ∧ (takeDump unit rung units s).ac = s.ac ∧ (takeDump unit rung units s).vt = s.vt ∧ (takeDump unit rung units s).free = s.free ∧ (takeDump unit rung units s).out = s.out ∧ (takeDump unit rung units s).pending = s.pending :=
  have k : Off (fun p => p == .rcv) s (takeDump unit rung units s) := takeDump_keeps (Off.keeps _ _) rfl .refl
  ⟨k.clk rfl, k.icu rfl, k.obs rfl, k.sen rfl, k.tamperIn rfl, k.cex rfl, k.xlt rfl, k.srg rfl, k.ods rfl, k.vault rfl, k.kst rfl, k.engKeys rfl, k.kwe rfl, k.pke rfl, k.ent rfl, k.atu rfl, k.lcc rfl, k.mem rfl, k.link rfl, k.sheaf rfl, k.dom rfl, k.pins rfl, k.boot rfl, k.tdi rfl, k.ac rfl, k.vt rfl, k.free rfl, k.out rfl, k.pending rfl⟩

@[simp] theorem traceArm_same {on : Bool} {s : State} :
    (traceArm on s).clk = s.clk ∧ (traceArm on s).rcv = s.rcv ∧ (traceArm on s).sen = s.sen ∧ (traceArm on s).tamperIn = s.tamperIn ∧ (traceArm on s).cex = s.cex ∧ (traceArm on s).xlt = s.xlt ∧ (traceArm on s).srg = s.srg ∧ (traceArm on s).ods = s.ods ∧ (traceArm on s).vault = s.vault ∧ (traceArm on s).kst = s.kst ∧ (traceArm on s).engKeys = s.engKeys ∧ (traceArm on s).kwe = s.kwe ∧ (traceArm on s).pke = s.pke ∧ (traceArm on s).ent = s.ent ∧ (traceArm on s).atu = s.atu ∧ (traceArm on s).lcc = s.lcc ∧ (traceArm on s).mem = s.mem ∧ (traceArm on s).link = s.link ∧ (traceArm on s).sheaf = s.sheaf ∧ (traceArm on s).dom = s.dom ∧ (traceArm on s).pins = s.pins ∧ (traceArm on s).boot = s.boot ∧ (traceArm on s).tdi = s.tdi ∧ (traceArm on s).ac = s.ac ∧ (traceArm on s).vt = s.vt ∧ (traceArm on s).free = s.free ∧ (traceArm on s).pending = s.pending :=
  have k : Off (fun p => p == .icu || p == .obs || p == .out) s (traceArm on s) := traceArm_keeps (Off.keeps _ _) rfl rfl rfl .refl
  ⟨k.clk rfl, k.rcv rfl, k.sen rfl, k.tamperIn rfl, k.cex rfl, k.xlt rfl, k.srg rfl, k.ods rfl, k.vault rfl, k.kst rfl, k.engKeys rfl, k.kwe rfl, k.pke rfl, k.ent rfl, k.atu rfl, k.lcc rfl, k.mem rfl, k.link rfl, k.sheaf rfl, k.dom rfl, k.pins rfl, k.boot rfl, k.tdi rfl, k.ac rfl, k.vt rfl, k.free rfl, k.pending rfl⟩

@[simp] theorem pcRecord_same {pair : Bool} {pc stall target : Nat} {s : State} :
    (pcRecord pair pc stall target s).clk = s.clk ∧ (pcRecord pair pc stall target s).rcv = s.rcv ∧ (pcRecord pair pc stall target s).sen = s.sen ∧ (pcRecord pair pc stall target s).tamperIn = s.tamperIn ∧ (pcRecord pair pc stall target s).cex = s.cex ∧ (pcRecord pair pc stall target s).xlt = s.xlt ∧ (pcRecord pair pc stall target s).srg = s.srg ∧ (pcRecord pair pc stall target s).ods = s.ods ∧ (pcRecord pair pc stall target s).vault = s.vault ∧ (pcRecord pair pc stall target s).kst = s.kst ∧ (pcRecord pair pc stall target s).engKeys = s.engKeys ∧ (pcRecord pair pc stall target s).kwe = s.kwe ∧ (pcRecord pair pc stall target s).pke = s.pke ∧ (pcRecord pair pc stall target s).ent = s.ent ∧ (pcRecord pair pc stall target s).atu = s.atu ∧ (pcRecord pair pc stall target s).lcc = s.lcc ∧ (pcRecord pair pc stall target s).mem = s.mem ∧ (pcRecord pair pc stall target s).link = s.link ∧ (pcRecord pair pc stall target s).sheaf = s.sheaf ∧ (pcRecord pair pc stall target s).dom = s.dom ∧ (pcRecord pair pc stall target s).pins = s.pins ∧ (pcRecord pair pc stall target s).boot = s.boot ∧ (pcRecord pair pc stall target s).tdi = s.tdi ∧ (pcRecord pair pc stall target s).ac = s.ac ∧ (pcRecord pair pc stall target s).vt = s.vt ∧ (pcRecord pair pc stall target s).free = s.free ∧ (pcRecord pair pc stall target s).pending = s.pending :=
  have k : Off (fun p => p == .icu || p == .obs || p == .out) s (pcRecord pair pc stall target s) := pcRecord_keeps (Off.keeps _ _) rfl rfl rfl .refl
  ⟨k.clk rfl, k.rcv rfl, k.sen rfl, k.tamperIn rfl, k.cex rfl, k.xlt rfl, k.srg rfl, k.ods rfl, k.vault rfl, k.kst rfl, k.engKeys rfl, k.kwe rfl, k.pke rfl, k.ent rfl, k.atu rfl, k.lcc rfl, k.mem rfl, k.link rfl, k.sheaf rfl, k.dom rfl, k.pins rfl, k.boot rfl, k.tdi rfl, k.ac rfl, k.vt rfl, k.free rfl, k.pending rfl⟩

@[simp] theorem watchCounters_same {s : State} :
    (watchCounters s).clk = s.clk ∧ (watchCounters s).rcv = s.rcv ∧ (watchCounters s).sen = s.sen ∧ (watchCounters s).tamperIn = s.tamperIn ∧ (watchCounters s).cex = s.cex ∧ (watchCounters s).xlt = s.xlt ∧ (watchCounters s).srg = s.srg ∧ (watchCounters s).ods = s.ods ∧ (watchCounters s).vault = s.vault ∧ (watchCounters s).kst = s.kst ∧ (watchCounters s).engKeys = s.engKeys ∧ (watchCounters s).kwe = s.kwe ∧ (watchCounters s).pke = s.pke ∧ (watchCounters s).ent = s.ent ∧ (watchCounters s).atu = s.atu ∧ (watchCounters s).lcc = s.lcc ∧ (watchCounters s).mem = s.mem ∧ (watchCounters s).link = s.link ∧ (watchCounters s).sheaf = s.sheaf ∧ (watchCounters s).dom = s.dom ∧ (watchCounters s).pins = s.pins ∧ (watchCounters s).boot = s.boot ∧ (watchCounters s).tdi = s.tdi ∧ (watchCounters s).ac = s.ac ∧ (watchCounters s).vt = s.vt ∧ (watchCounters s).free = s.free ∧ (watchCounters s).pending = s.pending :=
  have k : Off (fun p => p == .icu || p == .obs || p == .out) s (watchCounters s) := watchCounters_keeps (Off.keeps _ _) rfl rfl rfl .refl
  ⟨k.clk rfl, k.rcv rfl, k.sen rfl, k.tamperIn rfl, k.cex rfl, k.xlt rfl, k.srg rfl, k.ods rfl, k.vault rfl, k.kst rfl, k.engKeys rfl, k.kwe rfl, k.pke rfl, k.ent rfl, k.atu rfl, k.lcc rfl, k.mem rfl, k.link rfl, k.sheaf rfl, k.dom rfl, k.pins rfl, k.boot rfl, k.tdi rfl, k.ac rfl, k.vt rfl, k.free rfl, k.pending rfl⟩

@[simp] theorem counterReset1_same {i : Nat} {s : State} :
    (counterReset1 i s).clk = s.clk ∧ (counterReset1 i s).sen = s.sen ∧ (counterReset1 i s).tamperIn = s.tamperIn ∧ (counterReset1 i s).cex = s.cex ∧ (counterReset1 i s).xlt = s.xlt ∧ (counterReset1 i s).srg = s.srg ∧ (counterReset1 i s).ods = s.ods ∧ (counterReset1 i s).vault = s.vault ∧ (counterReset1 i s).kst = s.kst ∧ (counterReset1 i s).engKeys = s.engKeys ∧ (counterReset1 i s).kwe = s.kwe ∧ (counterReset1 i s).pke = s.pke ∧ (counterReset1 i s).ent = s.ent ∧ (counterReset1 i s).atu = s.atu ∧ (counterReset1 i s).lcc = s.lcc ∧ (counterReset1 i s).mem = s.mem ∧ (counterReset1 i s).link = s.link ∧ (counterReset1 i s).sheaf = s.sheaf ∧ (counterReset1 i s).dom = s.dom ∧ (counterReset1 i s).pins = s.pins ∧ (counterReset1 i s).boot = s.boot ∧ (counterReset1 i s).tdi = s.tdi ∧ (counterReset1 i s).ac = s.ac ∧ (counterReset1 i s).vt = s.vt ∧ (counterReset1 i s).free = s.free ∧ (counterReset1 i s).pending = s.pending :=
  have k : Off (fun p => p == .rcv || p == .icu || p == .obs || p == .out) s (counterReset1 i s) := counterReset1_keeps (Off.keeps _ _) rfl rfl rfl rfl .refl
  ⟨k.clk rfl, k.sen rfl, k.tamperIn rfl, k.cex rfl, k.xlt rfl, k.srg rfl, k.ods rfl, k.vault rfl, k.kst rfl, k.engKeys rfl, k.kwe rfl, k.pke rfl, k.ent rfl, k.atu rfl, k.lcc rfl, k.mem rfl, k.link rfl, k.sheaf rfl, k.dom rfl, k.pins rfl, k.boot rfl, k.tdi rfl, k.ac rfl, k.vt rfl, k.free rfl, k.pending rfl⟩

@[simp] theorem readSensors_same {s : State} :
    (readSensors s).clk = s.clk ∧ (readSensors s).rcv = s.rcv ∧ (readSensors s).icu = s.icu ∧ (readSensors s).obs = s.obs ∧ (readSensors s).tamperIn = s.tamperIn ∧ (readSensors s).cex = s.cex ∧ (readSensors s).xlt = s.xlt ∧ (readSensors s).srg = s.srg ∧ (readSensors s).ods = s.ods ∧ (readSensors s).vault = s.vault ∧ (readSensors s).kst = s.kst ∧ (readSensors s).engKeys = s.engKeys ∧ (readSensors s).kwe = s.kwe ∧ (readSensors s).pke = s.pke ∧ (readSensors s).ent = s.ent ∧ (readSensors s).atu = s.atu ∧ (readSensors s).lcc = s.lcc ∧ (readSensors s).mem = s.mem ∧ (readSensors s).link = s.link ∧ (readSensors s).sheaf = s.sheaf ∧ (readSensors s).dom = s.dom ∧ (readSensors s).pins = s.pins ∧ (readSensors s).boot = s.boot ∧ (readSensors s).tdi = s.tdi ∧ (readSensors s).ac = s.ac ∧ (readSensors s).vt = s.vt ∧ (readSensors s).out = s.out ∧ (readSensors s).pending = s.pending :=
  have k : Off (fun p => p == .sen || p == .free) s (readSensors s) := readSensors_keeps (Off.keeps _ _) rfl rfl .refl
  ⟨k.clk rfl, k.rcv rfl, k.icu rfl, k.obs rfl, k.tamperIn rfl, k.cex rfl, k.xlt rfl, k.srg rfl, k.ods rfl, k.vault rfl, k.kst rfl, k.engKeys rfl, k.kwe rfl, k.pke rfl, k.ent rfl, k.atu rfl, k.lcc rfl, k.mem rfl, k.link rfl, k.sheaf rfl, k.dom rfl, k.pins rfl, k.boot rfl, k.tdi rfl, k.ac rfl, k.vt rfl, k.out rfl, k.pending rfl⟩

@[simp] theorem endIdentity_same {p r t : Nat} {s : State} :
    (endIdentity p r t s).clk = s.clk ∧ (endIdentity p r t s).rcv = s.rcv ∧ (endIdentity p r t s).icu = s.icu ∧ (endIdentity p r t s).obs = s.obs ∧ (endIdentity p r t s).sen = s.sen ∧ (endIdentity p r t s).tamperIn = s.tamperIn ∧ (endIdentity p r t s).cex = s.cex ∧ (endIdentity p r t s).xlt = s.xlt ∧ (endIdentity p r t s).srg = s.srg ∧ (endIdentity p r t s).vault = s.vault ∧ (endIdentity p r t s).kst = s.kst ∧ (endIdentity p r t s).engKeys = s.engKeys ∧ (endIdentity p r t s).kwe = s.kwe ∧ (endIdentity p r t s).pke = s.pke ∧ (endIdentity p r t s).ent = s.ent ∧ (endIdentity p r t s).atu = s.atu ∧ (endIdentity p r t s).lcc = s.lcc ∧ (endIdentity p r t s).mem = s.mem ∧ (endIdentity p r t s).link = s.link ∧ (endIdentity p r t s).sheaf = s.sheaf ∧ (endIdentity p r t s).dom = s.dom ∧ (endIdentity p r t s).pins = s.pins ∧ (endIdentity p r t s).boot = s.boot ∧ (endIdentity p r t s).tdi = s.tdi ∧ (endIdentity p r t s).ac = s.ac ∧ (endIdentity p r t s).vt = s.vt ∧ (endIdentity p r t s).free = s.free ∧ (endIdentity p r t s).out = s.out ∧ (endIdentity p r t s).pending = s.pending :=
  have k : Off (fun p => p == .ods) s (endIdentity p r t s) := endIdentity_keeps (Off.keeps _ _) rfl .refl
  ⟨k.clk rfl, k.rcv rfl, k.icu rfl, k.obs rfl, k.sen rfl, k.tamperIn rfl, k.cex rfl, k.xlt rfl, k.srg rfl, k.vault rfl, k.kst rfl, k.engKeys rfl, k.kwe rfl, k.pke rfl, k.ent rfl, k.atu rfl, k.lcc rfl, k.mem rfl, k.link rfl, k.sheaf rfl, k.dom rfl, k.pins rfl, k.boot rfl, k.tdi rfl, k.ac rfl, k.vt rfl, k.free rfl, k.out rfl, k.pending rfl⟩

@[simp] theorem updTrans_same {p r t : Nat} {f : DictTrans → DictTrans} {s : State} :
    (updTrans p r t f s).clk = s.clk ∧ (updTrans p r t f s).rcv = s.rcv ∧ (updTrans p r t f s).icu = s.icu ∧ (updTrans p r t f s).obs = s.obs ∧ (updTrans p r t f s).sen = s.sen ∧ (updTrans p r t f s).tamperIn = s.tamperIn ∧ (updTrans p r t f s).cex = s.cex ∧ (updTrans p r t f s).xlt = s.xlt ∧ (updTrans p r t f s).srg = s.srg ∧ (updTrans p r t f s).vault = s.vault ∧ (updTrans p r t f s).kst = s.kst ∧ (updTrans p r t f s).engKeys = s.engKeys ∧ (updTrans p r t f s).kwe = s.kwe ∧ (updTrans p r t f s).pke = s.pke ∧ (updTrans p r t f s).ent = s.ent ∧ (updTrans p r t f s).atu = s.atu ∧ (updTrans p r t f s).lcc = s.lcc ∧ (updTrans p r t f s).mem = s.mem ∧ (updTrans p r t f s).link = s.link ∧ (updTrans p r t f s).sheaf = s.sheaf ∧ (updTrans p r t f s).dom = s.dom ∧ (updTrans p r t f s).pins = s.pins ∧ (updTrans p r t f s).boot = s.boot ∧ (updTrans p r t f s).tdi = s.tdi ∧ (updTrans p r t f s).ac = s.ac ∧ (updTrans p r t f s).vt = s.vt ∧ (updTrans p r t f s).free = s.free ∧ (updTrans p r t f s).out = s.out ∧ (updTrans p r t f s).pending = s.pending :=
  have k : Off (fun p => p == .ods) s (updTrans p r t f s) := updTrans_keeps (Off.keeps _ _) rfl .refl
  ⟨k.clk rfl, k.rcv rfl, k.icu rfl, k.obs rfl, k.sen rfl, k.tamperIn rfl, k.cex rfl, k.xlt rfl, k.srg rfl, k.vault rfl, k.kst rfl, k.engKeys rfl, k.kwe rfl, k.pke rfl, k.ent rfl, k.atu rfl, k.lcc rfl, k.mem rfl, k.link rfl, k.sheaf rfl, k.dom rfl, k.pins rfl, k.boot rfl, k.tdi rfl, k.ac rfl, k.vt rfl, k.free rfl, k.out rfl, k.pending rfl⟩

@[simp] theorem deliverDict_same {path : DictPath} {op : Nat} {m : DictMsg} {a : DictAns} {s : State} :
    (deliverDict path op m a s).clk = s.clk ∧ (deliverDict path op m a s).sen = s.sen ∧ (deliverDict path op m a s).tamperIn = s.tamperIn ∧ (deliverDict path op m a s).xlt = s.xlt ∧ (deliverDict path op m a s).ods = s.ods ∧ (deliverDict path op m a s).vault = s.vault ∧ (deliverDict path op m a s).kst = s.kst ∧ (deliverDict path op m a s).engKeys = s.engKeys ∧ (deliverDict path op m a s).kwe = s.kwe ∧ (deliverDict path op m a s).pke = s.pke ∧ (deliverDict path op m a s).ent = s.ent ∧ (deliverDict path op m a s).atu = s.atu ∧ (deliverDict path op m a s).lcc = s.lcc ∧ (deliverDict path op m a s).mem = s.mem ∧ (deliverDict path op m a s).sheaf = s.sheaf ∧ (deliverDict path op m a s).pins = s.pins ∧ (deliverDict path op m a s).boot = s.boot ∧ (deliverDict path op m a s).tdi = s.tdi ∧ (deliverDict path op m a s).ac = s.ac ∧ (deliverDict path op m a s).vt = s.vt ∧ (deliverDict path op m a s).free = s.free ∧ (deliverDict path op m a s).pending = s.pending :=
  have k : Off (fun p => p == .rcv || p == .icu || p == .obs || p == .cex || p == .srg || p == .link || p == .dom || p == .out) s (deliverDict path op m a s) := deliverDict_keeps (Off.keeps _ _) rfl rfl rfl rfl rfl rfl rfl rfl .refl
  ⟨k.clk rfl, k.sen rfl, k.tamperIn rfl, k.xlt rfl, k.ods rfl, k.vault rfl, k.kst rfl, k.engKeys rfl, k.kwe rfl, k.pke rfl, k.ent rfl, k.atu rfl, k.lcc rfl, k.mem rfl, k.sheaf rfl, k.pins rfl, k.boot rfl, k.tdi rfl, k.ac rfl, k.vt rfl, k.free rfl, k.pending rfl⟩

@[simp] theorem forwardDict_same {sl dest type : Nat} {body : Bytes} {s : State} :
    (forwardDict sl dest type body s).clk = s.clk ∧ (forwardDict sl dest type body s).sen = s.sen ∧ (forwardDict sl dest type body s).tamperIn = s.tamperIn ∧ (forwardDict sl dest type body s).xlt = s.xlt ∧ (forwardDict sl dest type body s).ods = s.ods ∧ (forwardDict sl dest type body s).vault = s.vault ∧ (forwardDict sl dest type body s).kst = s.kst ∧ (forwardDict sl dest type body s).engKeys = s.engKeys ∧ (forwardDict sl dest type body s).kwe = s.kwe ∧ (forwardDict sl dest type body s).pke = s.pke ∧ (forwardDict sl dest type body s).ent = s.ent ∧ (forwardDict sl dest type body s).atu = s.atu ∧ (forwardDict sl dest type body s).lcc = s.lcc ∧ (forwardDict sl dest type body s).mem = s.mem ∧ (forwardDict sl dest type body s).sheaf = s.sheaf ∧ (forwardDict sl dest type body s).pins = s.pins ∧ (forwardDict sl dest type body s).boot = s.boot ∧ (forwardDict sl dest type body s).tdi = s.tdi ∧ (forwardDict sl dest type body s).ac = s.ac ∧ (forwardDict sl dest type body s).vt = s.vt ∧ (forwardDict sl dest type body s).free = s.free ∧ (forwardDict sl dest type body s).pending = s.pending :=
  have k : Off (fun p => p == .rcv || p == .icu || p == .obs || p == .cex || p == .srg || p == .link || p == .dom || p == .out) s (forwardDict sl dest type body s) := forwardDict_keeps (Off.keeps _ _) rfl rfl rfl rfl rfl rfl rfl rfl .refl
  ⟨k.clk rfl, k.sen rfl, k.tamperIn rfl, k.xlt rfl, k.ods rfl, k.vault rfl, k.kst rfl, k.engKeys rfl, k.kwe rfl, k.pke rfl, k.ent rfl, k.atu rfl, k.lcc rfl, k.mem rfl, k.sheaf rfl, k.pins rfl, k.boot rfl, k.tdi rfl, k.ac rfl, k.vt rfl, k.free rfl, k.pending rfl⟩

@[simp] theorem updMb_same {n : Nat} {f : Mailbox → Mailbox} {s : State} :
    (updMb n f s).clk = s.clk ∧ (updMb n f s).rcv = s.rcv ∧ (updMb n f s).icu = s.icu ∧ (updMb n f s).obs = s.obs ∧ (updMb n f s).sen = s.sen ∧ (updMb n f s).tamperIn = s.tamperIn ∧ (updMb n f s).cex = s.cex ∧ (updMb n f s).xlt = s.xlt ∧ (updMb n f s).srg = s.srg ∧ (updMb n f s).vault = s.vault ∧ (updMb n f s).kst = s.kst ∧ (updMb n f s).engKeys = s.engKeys ∧ (updMb n f s).kwe = s.kwe ∧ (updMb n f s).pke = s.pke ∧ (updMb n f s).ent = s.ent ∧ (updMb n f s).atu = s.atu ∧ (updMb n f s).lcc = s.lcc ∧ (updMb n f s).mem = s.mem ∧ (updMb n f s).link = s.link ∧ (updMb n f s).sheaf = s.sheaf ∧ (updMb n f s).dom = s.dom ∧ (updMb n f s).pins = s.pins ∧ (updMb n f s).boot = s.boot ∧ (updMb n f s).tdi = s.tdi ∧ (updMb n f s).ac = s.ac ∧ (updMb n f s).vt = s.vt ∧ (updMb n f s).free = s.free ∧ (updMb n f s).out = s.out ∧ (updMb n f s).pending = s.pending :=
  have k : Off (fun p => p == .ods) s (updMb n f s) := updMb_keeps (Off.keeps _ _) rfl .refl
  ⟨k.clk rfl, k.rcv rfl, k.icu rfl, k.obs rfl, k.sen rfl, k.tamperIn rfl, k.cex rfl, k.xlt rfl, k.srg rfl, k.vault rfl, k.kst rfl, k.engKeys rfl, k.kwe rfl, k.pke rfl, k.ent rfl, k.atu rfl, k.lcc rfl, k.mem rfl, k.link rfl, k.sheaf rfl, k.dom rfl, k.pins rfl, k.boot rfl, k.tdi rfl, k.ac rfl, k.vt rfl, k.free rfl, k.out rfl, k.pending rfl⟩

@[simp] theorem mbComplete_same {n : Nat} {b : Bytes} {s : State} :
    (mbComplete n b s).clk = s.clk ∧ (mbComplete n b s).rcv = s.rcv ∧ (mbComplete n b s).icu = s.icu ∧ (mbComplete n b s).obs = s.obs ∧ (mbComplete n b s).sen = s.sen ∧ (mbComplete n b s).tamperIn = s.tamperIn ∧ (mbComplete n b s).xlt = s.xlt ∧ (mbComplete n b s).srg = s.srg ∧ (mbComplete n b s).vault = s.vault ∧ (mbComplete n b s).kst = s.kst ∧ (mbComplete n b s).engKeys = s.engKeys ∧ (mbComplete n b s).kwe = s.kwe ∧ (mbComplete n b s).pke = s.pke ∧ (mbComplete n b s).ent = s.ent ∧ (mbComplete n b s).atu = s.atu ∧ (mbComplete n b s).lcc = s.lcc ∧ (mbComplete n b s).mem = s.mem ∧ (mbComplete n b s).link = s.link ∧ (mbComplete n b s).sheaf = s.sheaf ∧ (mbComplete n b s).dom = s.dom ∧ (mbComplete n b s).pins = s.pins ∧ (mbComplete n b s).boot = s.boot ∧ (mbComplete n b s).tdi = s.tdi ∧ (mbComplete n b s).ac = s.ac ∧ (mbComplete n b s).vt = s.vt ∧ (mbComplete n b s).free = s.free ∧ (mbComplete n b s).pending = s.pending :=
  have k : Off (fun p => p == .cex || p == .ods || p == .out) s (mbComplete n b s) := mbComplete_keeps (Off.keeps _ _) rfl rfl rfl .refl
  ⟨k.clk rfl, k.rcv rfl, k.icu rfl, k.obs rfl, k.sen rfl, k.tamperIn rfl, k.xlt rfl, k.srg rfl, k.vault rfl, k.kst rfl, k.engKeys rfl, k.kwe rfl, k.pke rfl, k.ent rfl, k.atu rfl, k.lcc rfl, k.mem rfl, k.link rfl, k.sheaf rfl, k.dom rfl, k.pins rfl, k.boot rfl, k.tdi rfl, k.ac rfl, k.vt rfl, k.free rfl, k.pending rfl⟩

@[simp] theorem dropMessage_same {s : State} :
    (dropMessage s).clk = s.clk ∧ (dropMessage s).rcv = s.rcv ∧ (dropMessage s).icu = s.icu ∧ (dropMessage s).obs = s.obs ∧ (dropMessage s).sen = s.sen ∧ (dropMessage s).tamperIn = s.tamperIn ∧ (dropMessage s).cex = s.cex ∧ (dropMessage s).xlt = s.xlt ∧ (dropMessage s).srg = s.srg ∧ (dropMessage s).vault = s.vault ∧ (dropMessage s).kst = s.kst ∧ (dropMessage s).engKeys = s.engKeys ∧ (dropMessage s).kwe = s.kwe ∧ (dropMessage s).pke = s.pke ∧ (dropMessage s).ent = s.ent ∧ (dropMessage s).atu = s.atu ∧ (dropMessage s).lcc = s.lcc ∧ (dropMessage s).mem = s.mem ∧ (dropMessage s).link = s.link ∧ (dropMessage s).sheaf = s.sheaf ∧ (dropMessage s).dom = s.dom ∧ (dropMessage s).pins = s.pins ∧ (dropMessage s).boot = s.boot ∧ (dropMessage s).tdi = s.tdi ∧ (dropMessage s).ac = s.ac ∧ (dropMessage s).vt = s.vt ∧ (dropMessage s).free = s.free ∧ (dropMessage s).out = s.out ∧ (dropMessage s).pending = s.pending :=
  have k : Off (fun p => p == .ods) s (dropMessage s) := dropMessage_keeps (Off.keeps _ _) rfl .refl
  ⟨k.clk rfl, k.rcv rfl, k.icu rfl, k.obs rfl, k.sen rfl, k.tamperIn rfl, k.cex rfl, k.xlt rfl, k.srg rfl, k.vault rfl, k.kst rfl, k.engKeys rfl, k.kwe rfl, k.pke rfl, k.ent rfl, k.atu rfl, k.lcc rfl, k.mem rfl, k.link rfl, k.sheaf rfl, k.dom rfl, k.pins rfl, k.boot rfl, k.tdi rfl, k.ac rfl, k.vt rfl, k.free rfl, k.out rfl, k.pending rfl⟩

@[simp] theorem dropPacket_same {s : State} :
    (dropPacket s).clk = s.clk ∧ (dropPacket s).rcv = s.rcv ∧ (dropPacket s).icu = s.icu ∧ (dropPacket s).obs = s.obs ∧ (dropPacket s).sen = s.sen ∧ (dropPacket s).tamperIn = s.tamperIn ∧ (dropPacket s).cex = s.cex ∧ (dropPacket s).xlt = s.xlt ∧ (dropPacket s).srg = s.srg ∧ (dropPacket s).vault = s.vault ∧ (dropPacket s).kst = s.kst ∧ (dropPacket s).engKeys = s.engKeys ∧ (dropPacket s).kwe = s.kwe ∧ (dropPacket s).pke = s.pke ∧ (dropPacket s).ent = s.ent ∧ (dropPacket s).atu = s.atu ∧ (dropPacket s).lcc = s.lcc ∧ (dropPacket s).mem = s.mem ∧ (dropPacket s).link = s.link ∧ (dropPacket s).sheaf = s.sheaf ∧ (dropPacket s).dom = s.dom ∧ (dropPacket s).pins = s.pins ∧ (dropPacket s).boot = s.boot ∧ (dropPacket s).tdi = s.tdi ∧ (dropPacket s).ac = s.ac ∧ (dropPacket s).vt = s.vt ∧ (dropPacket s).free = s.free ∧ (dropPacket s).out = s.out ∧ (dropPacket s).pending = s.pending :=
  have k : Off (fun p => p == .ods) s (dropPacket s) := dropPacket_keeps (Off.keeps _ _) rfl .refl
  ⟨k.clk rfl, k.rcv rfl, k.icu rfl, k.obs rfl, k.sen rfl, k.tamperIn rfl, k.cex rfl, k.xlt rfl, k.srg rfl, k.vault rfl, k.kst rfl, k.engKeys rfl, k.kwe rfl, k.pke rfl, k.ent rfl, k.atu rfl, k.lcc rfl, k.mem rfl, k.link rfl, k.sheaf rfl, k.dom rfl, k.pins rfl, k.boot rfl, k.tdi rfl, k.ac rfl, k.vt rfl, k.free rfl, k.out rfl, k.pending rfl⟩

@[simp] theorem mctpReply_same {code : Nat} {values : Bytes} {s : State} :
    (mctpReply code values s).clk = s.clk ∧ (mctpReply code values s).rcv = s.rcv ∧ (mctpReply code values s).icu = s.icu ∧ (mctpReply code values s).obs = s.obs ∧ (mctpReply code values s).sen = s.sen ∧ (mctpReply code values s).tamperIn = s.tamperIn ∧ (mctpReply code values s).cex = s.cex ∧ (mctpReply code values s).xlt = s.xlt ∧ (mctpReply code values s).srg = s.srg ∧ (mctpReply code values s).ods = s.ods ∧ (mctpReply code values s).vault = s.vault ∧ (mctpReply code values s).kst = s.kst ∧ (mctpReply code values s).engKeys = s.engKeys ∧ (mctpReply code values s).kwe = s.kwe ∧ (mctpReply code values s).pke = s.pke ∧ (mctpReply code values s).ent = s.ent ∧ (mctpReply code values s).atu = s.atu ∧ (mctpReply code values s).lcc = s.lcc ∧ (mctpReply code values s).mem = s.mem ∧ (mctpReply code values s).link = s.link ∧ (mctpReply code values s).sheaf = s.sheaf ∧ (mctpReply code values s).dom = s.dom ∧ (mctpReply code values s).pins = s.pins ∧ (mctpReply code values s).boot = s.boot ∧ (mctpReply code values s).tdi = s.tdi ∧ (mctpReply code values s).ac = s.ac ∧ (mctpReply code values s).vt = s.vt ∧ (mctpReply code values s).free = s.free ∧ (mctpReply code values s).pending = s.pending :=
  have k : Off (fun p => p == .out) s (mctpReply code values s) := mctpReply_keeps (Off.keeps _ _) rfl .refl
  ⟨k.clk rfl, k.rcv rfl, k.icu rfl, k.obs rfl, k.sen rfl, k.tamperIn rfl, k.cex rfl, k.xlt rfl, k.srg rfl, k.ods rfl, k.vault rfl, k.kst rfl, k.engKeys rfl, k.kwe rfl, k.pke rfl, k.ent rfl, k.atu rfl, k.lcc rfl, k.mem rfl, k.link rfl, k.sheaf rfl, k.dom rfl, k.pins rfl, k.boot rfl, k.tdi rfl, k.ac rfl, k.vt rfl, k.free rfl, k.pending rfl⟩

@[simp] theorem beginSheaf_same {h : CmdHdr} {id slot : Nat} {ps : List PartEntry} {s : State} :
    (beginSheaf h id slot ps s).clk = s.clk ∧ (beginSheaf h id slot ps s).rcv = s.rcv ∧ (beginSheaf h id slot ps s).icu = s.icu ∧ (beginSheaf h id slot ps s).obs = s.obs ∧ (beginSheaf h id slot ps s).sen = s.sen ∧ (beginSheaf h id slot ps s).tamperIn = s.tamperIn ∧ (beginSheaf h id slot ps s).xlt = s.xlt ∧ (beginSheaf h id slot ps s).srg = s.srg ∧ (beginSheaf h id slot ps s).ods = s.ods ∧ (beginSheaf h id slot ps s).vault = s.vault ∧ (beginSheaf h id slot ps s).kst = s.kst ∧ (beginSheaf h id slot ps s).pke = s.pke ∧ (beginSheaf h id slot ps s).atu = s.atu ∧ (beginSheaf h id slot ps s).lcc = s.lcc ∧ (beginSheaf h id slot ps s).mem = s.mem ∧ (beginSheaf h id slot ps s).link = s.link ∧ (beginSheaf h id slot ps s).dom = s.dom ∧ (beginSheaf h id slot ps s).pins = s.pins ∧ (beginSheaf h id slot ps s).boot = s.boot ∧ (beginSheaf h id slot ps s).tdi = s.tdi ∧ (beginSheaf h id slot ps s).ac = s.ac ∧ (beginSheaf h id slot ps s).vt = s.vt ∧ (beginSheaf h id slot ps s).free = s.free ∧ (beginSheaf h id slot ps s).out = s.out ∧ (beginSheaf h id slot ps s).pending = s.pending :=
  have k : Off (fun p => p == .cex || p == .engKeys || p == .kwe || p == .ent || p == .sheaf) s (beginSheaf h id slot ps s) := beginSheaf_keeps (Off.keeps _ _) rfl rfl rfl rfl rfl .refl
  ⟨k.clk rfl, k.rcv rfl, k.icu rfl, k.obs rfl, k.sen rfl, k.tamperIn rfl, k.xlt rfl, k.srg rfl, k.ods rfl, k.vault rfl, k.kst rfl, k.pke rfl, k.atu rfl, k.lcc rfl, k.mem rfl, k.link rfl, k.dom rfl, k.pins rfl, k.boot rfl, k.tdi rfl, k.ac rfl, k.vt rfl, k.free rfl, k.out rfl, k.pending rfl⟩

@[simp] theorem combineOut_same {h : CmdHdr} {id slot : Nat} {sign : Bool} {out : Nat} {c : Combined} {s : State} :
    (combineOut h id slot sign out c s).clk = s.clk ∧ (combineOut h id slot sign out c s).rcv = s.rcv ∧ (combineOut h id slot sign out c s).icu = s.icu ∧ (combineOut h id slot sign out c s).obs = s.obs ∧ (combineOut h id slot sign out c s).sen = s.sen ∧ (combineOut h id slot sign out c s).tamperIn = s.tamperIn ∧ (combineOut h id slot sign out c s).xlt = s.xlt ∧ (combineOut h id slot sign out c s).srg = s.srg ∧ (combineOut h id slot sign out c s).ods = s.ods ∧ (combineOut h id slot sign out c s).vault = s.vault ∧ (combineOut h id slot sign out c s).kst = s.kst ∧ (combineOut h id slot sign out c s).engKeys = s.engKeys ∧ (combineOut h id slot sign out c s).kwe = s.kwe ∧ (combineOut h id slot sign out c s).pke = s.pke ∧ (combineOut h id slot sign out c s).atu = s.atu ∧ (combineOut h id slot sign out c s).lcc = s.lcc ∧ (combineOut h id slot sign out c s).mem = s.mem ∧ (combineOut h id slot sign out c s).link = s.link ∧ (combineOut h id slot sign out c s).dom = s.dom ∧ (combineOut h id slot sign out c s).pins = s.pins ∧ (combineOut h id slot sign out c s).boot = s.boot ∧ (combineOut h id slot sign out c s).tdi = s.tdi ∧ (combineOut h id slot sign out c s).ac = s.ac ∧ (combineOut h id slot sign out c s).vt = s.vt ∧ (combineOut h id slot sign out c s).pending = s.pending :=
  have k : Off (fun p => p == .cex || p == .ent || p == .sheaf || p == .free || p == .out) s (combineOut h id slot sign out c s) := combineOut_keeps (Off.keeps _ _) rfl rfl rfl rfl rfl .refl
  ⟨k.clk rfl, k.rcv rfl, k.icu rfl, k.obs rfl, k.sen rfl, k.tamperIn rfl, k.xlt rfl, k.srg rfl, k.ods rfl, k.vault rfl, k.kst rfl, k.engKeys rfl, k.kwe rfl, k.pke rfl, k.atu rfl, k.lcc rfl, k.mem rfl, k.link rfl, k.dom rfl, k.pins rfl, k.boot rfl, k.tdi rfl, k.ac rfl, k.vt rfl, k.pending rfl⟩

@[simp] theorem refuseCombine_same {h : CmdHdr} {status detail : Nat} {s : State} :
    (refuseCombine h status detail s).clk = s.clk ∧ (refuseCombine h status detail s).rcv = s.rcv ∧ (refuseCombine h status detail s).icu = s.icu ∧ (refuseCombine h status detail s).obs = s.obs ∧ (refuseCombine h status detail s).sen = s.sen ∧ (refuseCombine h status detail s).tamperIn = s.tamperIn ∧ (refuseCombine h status detail s).xlt = s.xlt ∧ (refuseCombine h status detail s).srg = s.srg ∧ (refuseCombine h status detail s).ods = s.ods ∧ (refuseCombine h status detail s).vault = s.vault ∧ (refuseCombine h status detail s).kst = s.kst ∧ (refuseCombine h status detail s).engKeys = s.engKeys ∧ (refuseCombine h status detail s).kwe = s.kwe ∧ (refuseCombine h status detail s).pke = s.pke ∧ (refuseCombine h status detail s).ent = s.ent ∧ (refuseCombine h status detail s).atu = s.atu ∧ (refuseCombine h status detail s).lcc = s.lcc ∧ (refuseCombine h status detail s).mem = s.mem ∧ (refuseCombine h status detail s).link = s.link ∧ (refuseCombine h status detail s).dom = s.dom ∧ (refuseCombine h status detail s).pins = s.pins ∧ (refuseCombine h status detail s).boot = s.boot ∧ (refuseCombine h status detail s).tdi = s.tdi ∧ (refuseCombine h status detail s).ac = s.ac ∧ (refuseCombine h status detail s).vt = s.vt ∧ (refuseCombine h status detail s).free = s.free ∧ (refuseCombine h status detail s).out = s.out ∧ (refuseCombine h status detail s).pending = s.pending :=
  have k : Off (fun p => p == .cex || p == .sheaf) s (refuseCombine h status detail s) := refuseCombine_keeps (Off.keeps _ _) rfl rfl .refl
  ⟨k.clk rfl, k.rcv rfl, k.icu rfl, k.obs rfl, k.sen rfl, k.tamperIn rfl, k.xlt rfl, k.srg rfl, k.ods rfl, k.vault rfl, k.kst rfl, k.engKeys rfl, k.kwe rfl, k.pke rfl, k.ent rfl, k.atu rfl, k.lcc rfl, k.mem rfl, k.link rfl, k.dom rfl, k.pins rfl, k.boot rfl, k.tdi rfl, k.ac rfl, k.vt rfl, k.free rfl, k.out rfl, k.pending rfl⟩

@[simp] theorem restoreRegion_same {sl r rmk : Nat} {s : State} :
    (restoreRegion sl r rmk s).clk = s.clk ∧ (restoreRegion sl r rmk s).rcv = s.rcv ∧ (restoreRegion sl r rmk s).icu = s.icu ∧ (restoreRegion sl r rmk s).obs = s.obs ∧ (restoreRegion sl r rmk s).sen = s.sen ∧ (restoreRegion sl r rmk s).tamperIn = s.tamperIn ∧ (restoreRegion sl r rmk s).cex = s.cex ∧ (restoreRegion sl r rmk s).xlt = s.xlt ∧ (restoreRegion sl r rmk s).srg = s.srg ∧ (restoreRegion sl r rmk s).ods = s.ods ∧ (restoreRegion sl r rmk s).vault = s.vault ∧ (restoreRegion sl r rmk s).pke = s.pke ∧ (restoreRegion sl r rmk s).atu = s.atu ∧ (restoreRegion sl r rmk s).lcc = s.lcc ∧ (restoreRegion sl r rmk s).link = s.link ∧ (restoreRegion sl r rmk s).sheaf = s.sheaf ∧ (restoreRegion sl r rmk s).dom = s.dom ∧ (restoreRegion sl r rmk s).pins = s.pins ∧ (restoreRegion sl r rmk s).boot = s.boot ∧ (restoreRegion sl r rmk s).tdi = s.tdi ∧ (restoreRegion sl r rmk s).ac = s.ac ∧ (restoreRegion sl r rmk s).vt = s.vt ∧ (restoreRegion sl r rmk s).free = s.free ∧ (restoreRegion sl r rmk s).out = s.out ∧ (restoreRegion sl r rmk s).pending = s.pending :=
  have k : Off (fun p => p == .kst || p == .engKeys || p == .kwe || p == .ent || p == .mem) s (restoreRegion sl r rmk s) := restoreRegion_keeps (Off.keeps _ _) rfl rfl rfl rfl rfl .refl
  ⟨k.clk rfl, k.rcv rfl, k.icu rfl, k.obs rfl, k.sen rfl, k.tamperIn rfl, k.cex rfl, k.xlt rfl, k.srg rfl, k.ods rfl, k.vault rfl, k.pke rfl, k.atu rfl, k.lcc rfl, k.link rfl, k.sheaf rfl, k.dom rfl, k.pins rfl, k.boot rfl, k.tdi rfl, k.ac rfl, k.vt rfl, k.free rfl, k.out rfl, k.pending rfl⟩

@[simp] theorem restoreLines_same {sl r : Nat} {data : Bytes} {s : State} :
    (restoreLines sl r data s).clk = s.clk ∧ (restoreLines sl r data s).sen = s.sen ∧ (restoreLines sl r data s).tamperIn = s.tamperIn ∧ (restoreLines sl r data s).xlt = s.xlt ∧ (restoreLines sl r data s).srg = s.srg ∧ (restoreLines sl r data s).ods = s.ods ∧ (restoreLines sl r data s).vault = s.vault ∧ (restoreLines sl r data s).kst = s.kst ∧ (restoreLines sl r data s).kwe = s.kwe ∧ (restoreLines sl r data s).pke = s.pke ∧ (restoreLines sl r data s).atu = s.atu ∧ (restoreLines sl r data s).lcc = s.lcc ∧ (restoreLines sl r data s).link = s.link ∧ (restoreLines sl r data s).dom = s.dom ∧ (restoreLines sl r data s).pins = s.pins ∧ (restoreLines sl r data s).boot = s.boot ∧ (restoreLines sl r data s).tdi = s.tdi ∧ (restoreLines sl r data s).ac = s.ac ∧ (restoreLines sl r data s).vt = s.vt ∧ (restoreLines sl r data s).pending = s.pending :=
  have k : Off (fun p => p == .rcv || p == .icu || p == .obs || p == .cex || p == .engKeys || p == .ent || p == .mem || p == .sheaf || p == .free || p == .out) s (restoreLines sl r data s) := restoreLines_keeps (Off.keeps _ _) rfl rfl rfl rfl rfl rfl rfl rfl rfl rfl .refl
  ⟨k.clk rfl, k.sen rfl, k.tamperIn rfl, k.xlt rfl, k.srg rfl, k.ods rfl, k.vault rfl, k.kst rfl, k.kwe rfl, k.pke rfl, k.atu rfl, k.lcc rfl, k.link rfl, k.dom rfl, k.pins rfl, k.boot rfl, k.tdi rfl, k.ac rfl, k.vt rfl, k.pending rfl⟩

@[simp] theorem restoreData_same {sl : Nat} {ps : List Placement} {a : List (Nat × Region × Option Nat × Option Plough)} {a3 : Bytes} {a4 : State} :
    (restoreData sl ps a a3 a4).clk = a4.clk ∧ (restoreData sl ps a a3 a4).sen = a4.sen ∧ (restoreData sl ps a a3 a4).tamperIn = a4.tamperIn ∧ (restoreData sl ps a a3 a4).xlt = a4.xlt ∧ (restoreData sl ps a a3 a4).srg = a4.srg ∧ (restoreData sl ps a a3 a4).ods = a4.ods ∧ (restoreData sl ps a a3 a4).vault = a4.vault ∧ (restoreData sl ps a a3 a4).kst = a4.kst ∧ (restoreData sl ps a a3 a4).kwe = a4.kwe ∧ (restoreData sl ps a a3 a4).pke = a4.pke ∧ (restoreData sl ps a a3 a4).atu = a4.atu ∧ (restoreData sl ps a a3 a4).lcc = a4.lcc ∧ (restoreData sl ps a a3 a4).link = a4.link ∧ (restoreData sl ps a a3 a4).dom = a4.dom ∧ (restoreData sl ps a a3 a4).pins = a4.pins ∧ (restoreData sl ps a a3 a4).boot = a4.boot ∧ (restoreData sl ps a a3 a4).tdi = a4.tdi ∧ (restoreData sl ps a a3 a4).ac = a4.ac ∧ (restoreData sl ps a a3 a4).vt = a4.vt ∧ (restoreData sl ps a a3 a4).pending = a4.pending :=
  have k : Off (fun p => p == .rcv || p == .icu || p == .obs || p == .cex || p == .engKeys || p == .ent || p == .mem || p == .sheaf || p == .free || p == .out) a4 (restoreData sl ps a a3 a4) := restoreData_keeps (Off.keeps _ _) rfl rfl rfl rfl rfl rfl rfl rfl rfl rfl .refl
  ⟨k.clk rfl, k.sen rfl, k.tamperIn rfl, k.xlt rfl, k.srg rfl, k.ods rfl, k.vault rfl, k.kst rfl, k.kwe rfl, k.pke rfl, k.atu rfl, k.lcc rfl, k.link rfl, k.dom rfl, k.pins rfl, k.boot rfl, k.tdi rfl, k.ac rfl, k.vt rfl, k.pending rfl⟩

@[simp] theorem restoreDomain_same {sl : Nat} {d : Dom} {slot : Nat → Nat} {s : State} :
    (restoreDomain sl d slot s).clk = s.clk ∧ (restoreDomain sl d slot s).rcv = s.rcv ∧ (restoreDomain sl d slot s).icu = s.icu ∧ (restoreDomain sl d slot s).obs = s.obs ∧ (restoreDomain sl d slot s).sen = s.sen ∧ (restoreDomain sl d slot s).tamperIn = s.tamperIn ∧ (restoreDomain sl d slot s).xlt = s.xlt ∧ (restoreDomain sl d slot s).srg = s.srg ∧ (restoreDomain sl d slot s).ods = s.ods ∧ (restoreDomain sl d slot s).vault = s.vault ∧ (restoreDomain sl d slot s).kst = s.kst ∧ (restoreDomain sl d slot s).engKeys = s.engKeys ∧ (restoreDomain sl d slot s).kwe = s.kwe ∧ (restoreDomain sl d slot s).pke = s.pke ∧ (restoreDomain sl d slot s).ent = s.ent ∧ (restoreDomain sl d slot s).atu = s.atu ∧ (restoreDomain sl d slot s).lcc = s.lcc ∧ (restoreDomain sl d slot s).mem = s.mem ∧ (restoreDomain sl d slot s).link = s.link ∧ (restoreDomain sl d slot s).sheaf = s.sheaf ∧ (restoreDomain sl d slot s).boot = s.boot ∧ (restoreDomain sl d slot s).tdi = s.tdi ∧ (restoreDomain sl d slot s).ac = s.ac ∧ (restoreDomain sl d slot s).vt = s.vt ∧ (restoreDomain sl d slot s).free = s.free ∧ (restoreDomain sl d slot s).out = s.out ∧ (restoreDomain sl d slot s).pending = s.pending :=
  have k : Off (fun p => p == .cex || p == .dom || p == .pins) s (restoreDomain sl d slot s) := restoreDomain_keeps (Off.keeps _ _) rfl rfl rfl .refl
  ⟨k.clk rfl, k.rcv rfl, k.icu rfl, k.obs rfl, k.sen rfl, k.tamperIn rfl, k.xlt rfl, k.srg rfl, k.ods rfl, k.vault rfl, k.kst rfl, k.engKeys rfl, k.kwe rfl, k.pke rfl, k.ent rfl, k.atu rfl, k.lcc rfl, k.mem rfl, k.link rfl, k.sheaf rfl, k.boot rfl, k.tdi rfl, k.ac rfl, k.vt rfl, k.free rfl, k.out rfl, k.pending rfl⟩

@[simp] theorem resumeFrozen_same {sl : Nat} {s : State} :
    (resumeFrozen sl s).clk = s.clk ∧ (resumeFrozen sl s).rcv = s.rcv ∧ (resumeFrozen sl s).icu = s.icu ∧ (resumeFrozen sl s).obs = s.obs ∧ (resumeFrozen sl s).sen = s.sen ∧ (resumeFrozen sl s).tamperIn = s.tamperIn ∧ (resumeFrozen sl s).cex = s.cex ∧ (resumeFrozen sl s).xlt = s.xlt ∧ (resumeFrozen sl s).srg = s.srg ∧ (resumeFrozen sl s).ods = s.ods ∧ (resumeFrozen sl s).vault = s.vault ∧ (resumeFrozen sl s).kst = s.kst ∧ (resumeFrozen sl s).engKeys = s.engKeys ∧ (resumeFrozen sl s).kwe = s.kwe ∧ (resumeFrozen sl s).pke = s.pke ∧ (resumeFrozen sl s).ent = s.ent ∧ (resumeFrozen sl s).atu = s.atu ∧ (resumeFrozen sl s).lcc = s.lcc ∧ (resumeFrozen sl s).link = s.link ∧ (resumeFrozen sl s).sheaf = s.sheaf ∧ (resumeFrozen sl s).dom = s.dom ∧ (resumeFrozen sl s).pins = s.pins ∧ (resumeFrozen sl s).boot = s.boot ∧ (resumeFrozen sl s).tdi = s.tdi ∧ (resumeFrozen sl s).ac = s.ac ∧ (resumeFrozen sl s).vt = s.vt ∧ (resumeFrozen sl s).free = s.free ∧ (resumeFrozen sl s).out = s.out ∧ (resumeFrozen sl s).pending = s.pending :=
  have k : Off (fun p => p == .mem) s (resumeFrozen sl s) := resumeFrozen_keeps (Off.keeps _ _) rfl .refl
  ⟨k.clk rfl, k.rcv rfl, k.icu rfl, k.obs rfl, k.sen rfl, k.tamperIn rfl, k.cex rfl, k.xlt rfl, k.srg rfl, k.ods rfl, k.vault rfl, k.kst rfl, k.engKeys rfl, k.kwe rfl, k.pke rfl, k.ent rfl, k.atu rfl, k.lcc rfl, k.link rfl, k.sheaf rfl, k.dom rfl, k.pins rfl, k.boot rfl, k.tdi rfl, k.ac rfl, k.vt rfl, k.free rfl, k.out rfl, k.pending rfl⟩

@[simp] theorem withdrawWaits_same {sl : Nat} {s : State} :
    (withdrawWaits sl s).clk = s.clk ∧ (withdrawWaits sl s).rcv = s.rcv ∧ (withdrawWaits sl s).icu = s.icu ∧ (withdrawWaits sl s).obs = s.obs ∧ (withdrawWaits sl s).sen = s.sen ∧ (withdrawWaits sl s).tamperIn = s.tamperIn ∧ (withdrawWaits sl s).xlt = s.xlt ∧ (withdrawWaits sl s).ods = s.ods ∧ (withdrawWaits sl s).vault = s.vault ∧ (withdrawWaits sl s).kst = s.kst ∧ (withdrawWaits sl s).engKeys = s.engKeys ∧ (withdrawWaits sl s).kwe = s.kwe ∧ (withdrawWaits sl s).pke = s.pke ∧ (withdrawWaits sl s).ent = s.ent ∧ (withdrawWaits sl s).atu = s.atu ∧ (withdrawWaits sl s).lcc = s.lcc ∧ (withdrawWaits sl s).mem = s.mem ∧ (withdrawWaits sl s).link = s.link ∧ (withdrawWaits sl s).sheaf = s.sheaf ∧ (withdrawWaits sl s).dom = s.dom ∧ (withdrawWaits sl s).pins = s.pins ∧ (withdrawWaits sl s).boot = s.boot ∧ (withdrawWaits sl s).tdi = s.tdi ∧ (withdrawWaits sl s).ac = s.ac ∧ (withdrawWaits sl s).vt = s.vt ∧ (withdrawWaits sl s).free = s.free ∧ (withdrawWaits sl s).out = s.out ∧ (withdrawWaits sl s).pending = s.pending :=
  have k : Off (fun p => p == .cex || p == .srg) s (withdrawWaits sl s) := withdrawWaits_keeps (Off.keeps _ _) rfl rfl .refl
  ⟨k.clk rfl, k.rcv rfl, k.icu rfl, k.obs rfl, k.sen rfl, k.tamperIn rfl, k.xlt rfl, k.ods rfl, k.vault rfl, k.kst rfl, k.engKeys rfl, k.kwe rfl, k.pke rfl, k.ent rfl, k.atu rfl, k.lcc rfl, k.mem rfl, k.link rfl, k.sheaf rfl, k.dom rfl, k.pins rfl, k.boot rfl, k.tdi rfl, k.ac rfl, k.vt rfl, k.free rfl, k.out rfl, k.pending rfl⟩

@[simp] theorem settleFreeze_same {sl : Nat} {s : State} :
    (settleFreeze sl s).clk = s.clk ∧ (settleFreeze sl s).rcv = s.rcv ∧ (settleFreeze sl s).icu = s.icu ∧ (settleFreeze sl s).obs = s.obs ∧ (settleFreeze sl s).sen = s.sen ∧ (settleFreeze sl s).tamperIn = s.tamperIn ∧ (settleFreeze sl s).xlt = s.xlt ∧ (settleFreeze sl s).ods = s.ods ∧ (settleFreeze sl s).vault = s.vault ∧ (settleFreeze sl s).kst = s.kst ∧ (settleFreeze sl s).engKeys = s.engKeys ∧ (settleFreeze sl s).kwe = s.kwe ∧ (settleFreeze sl s).pke = s.pke ∧ (settleFreeze sl s).ent = s.ent ∧ (settleFreeze sl s).atu = s.atu ∧ (settleFreeze sl s).lcc = s.lcc ∧ (settleFreeze sl s).mem = s.mem ∧ (settleFreeze sl s).link = s.link ∧ (settleFreeze sl s).sheaf = s.sheaf ∧ (settleFreeze sl s).dom = s.dom ∧ (settleFreeze sl s).pins = s.pins ∧ (settleFreeze sl s).boot = s.boot ∧ (settleFreeze sl s).tdi = s.tdi ∧ (settleFreeze sl s).ac = s.ac ∧ (settleFreeze sl s).vt = s.vt ∧ (settleFreeze sl s).free = s.free ∧ (settleFreeze sl s).out = s.out ∧ (settleFreeze sl s).pending = s.pending :=
  have k : Off (fun p => p == .cex || p == .srg) s (settleFreeze sl s) := settleFreeze_keeps (Off.keeps _ _) rfl rfl .refl
  ⟨k.clk rfl, k.rcv rfl, k.icu rfl, k.obs rfl, k.sen rfl, k.tamperIn rfl, k.xlt rfl, k.ods rfl, k.vault rfl, k.kst rfl, k.engKeys rfl, k.kwe rfl, k.pke rfl, k.ent rfl, k.atu rfl, k.lcc rfl, k.mem rfl, k.link rfl, k.sheaf rfl, k.dom rfl, k.pins rfl, k.boot rfl, k.tdi rfl, k.ac rfl, k.vt rfl, k.free rfl, k.out rfl, k.pending rfl⟩

@[simp] theorem settleFreezes_same {s : State} :
    (settleFreezes s).clk = s.clk ∧ (settleFreezes s).rcv = s.rcv ∧ (settleFreezes s).icu = s.icu ∧ (settleFreezes s).obs = s.obs ∧ (settleFreezes s).sen = s.sen ∧ (settleFreezes s).tamperIn = s.tamperIn ∧ (settleFreezes s).xlt = s.xlt ∧ (settleFreezes s).ods = s.ods ∧ (settleFreezes s).vault = s.vault ∧ (settleFreezes s).kst = s.kst ∧ (settleFreezes s).engKeys = s.engKeys ∧ (settleFreezes s).kwe = s.kwe ∧ (settleFreezes s).pke = s.pke ∧ (settleFreezes s).ent = s.ent ∧ (settleFreezes s).atu = s.atu ∧ (settleFreezes s).lcc = s.lcc ∧ (settleFreezes s).mem = s.mem ∧ (settleFreezes s).link = s.link ∧ (settleFreezes s).sheaf = s.sheaf ∧ (settleFreezes s).dom = s.dom ∧ (settleFreezes s).pins = s.pins ∧ (settleFreezes s).boot = s.boot ∧ (settleFreezes s).tdi = s.tdi ∧ (settleFreezes s).ac = s.ac ∧ (settleFreezes s).vt = s.vt ∧ (settleFreezes s).free = s.free ∧ (settleFreezes s).out = s.out ∧ (settleFreezes s).pending = s.pending :=
  have k : Off (fun p => p == .cex || p == .srg) s (settleFreezes s) := settleFreezes_keeps (Off.keeps _ _) rfl rfl .refl
  ⟨k.clk rfl, k.rcv rfl, k.icu rfl, k.obs rfl, k.sen rfl, k.tamperIn rfl, k.xlt rfl, k.ods rfl, k.vault rfl, k.kst rfl, k.engKeys rfl, k.kwe rfl, k.pke rfl, k.ent rfl, k.atu rfl, k.lcc rfl, k.mem rfl, k.link rfl, k.sheaf rfl, k.dom rfl, k.pins rfl, k.boot rfl, k.tdi rfl, k.ac rfl, k.vt rfl, k.free rfl, k.out rfl, k.pending rfl⟩

@[simp] theorem endCarriedPloughs_same {sl : Nat} {s : State} :
    (endCarriedPloughs sl s).clk = s.clk ∧ (endCarriedPloughs sl s).rcv = s.rcv ∧ (endCarriedPloughs sl s).icu = s.icu ∧ (endCarriedPloughs sl s).obs = s.obs ∧ (endCarriedPloughs sl s).sen = s.sen ∧ (endCarriedPloughs sl s).tamperIn = s.tamperIn ∧ (endCarriedPloughs sl s).xlt = s.xlt ∧ (endCarriedPloughs sl s).srg = s.srg ∧ (endCarriedPloughs sl s).ods = s.ods ∧ (endCarriedPloughs sl s).vault = s.vault ∧ (endCarriedPloughs sl s).kst = s.kst ∧ (endCarriedPloughs sl s).engKeys = s.engKeys ∧ (endCarriedPloughs sl s).kwe = s.kwe ∧ (endCarriedPloughs sl s).pke = s.pke ∧ (endCarriedPloughs sl s).ent = s.ent ∧ (endCarriedPloughs sl s).atu = s.atu ∧ (endCarriedPloughs sl s).lcc = s.lcc ∧ (endCarriedPloughs sl s).mem = s.mem ∧ (endCarriedPloughs sl s).link = s.link ∧ (endCarriedPloughs sl s).sheaf = s.sheaf ∧ (endCarriedPloughs sl s).dom = s.dom ∧ (endCarriedPloughs sl s).pins = s.pins ∧ (endCarriedPloughs sl s).boot = s.boot ∧ (endCarriedPloughs sl s).tdi = s.tdi ∧ (endCarriedPloughs sl s).ac = s.ac ∧ (endCarriedPloughs sl s).vt = s.vt ∧ (endCarriedPloughs sl s).free = s.free ∧ (endCarriedPloughs sl s).out = s.out ∧ (endCarriedPloughs sl s).pending = s.pending :=
  have k : Off (fun p => p == .cex) s (endCarriedPloughs sl s) := endCarriedPloughs_keeps (Off.keeps _ _) rfl .refl
  ⟨k.clk rfl, k.rcv rfl, k.icu rfl, k.obs rfl, k.sen rfl, k.tamperIn rfl, k.xlt rfl, k.srg rfl, k.ods rfl, k.vault rfl, k.kst rfl, k.engKeys rfl, k.kwe rfl, k.pke rfl, k.ent rfl, k.atu rfl, k.lcc rfl, k.mem rfl, k.link rfl, k.sheaf rfl, k.dom rfl, k.pins rfl, k.boot rfl, k.tdi rfl, k.ac rfl, k.vt rfl, k.free rfl, k.out rfl, k.pending rfl⟩

@[simp] theorem resumeWaits_same {sl : Nat} {s : State} :
    (resumeWaits sl s).clk = s.clk ∧ (resumeWaits sl s).rcv = s.rcv ∧ (resumeWaits sl s).icu = s.icu ∧ (resumeWaits sl s).obs = s.obs ∧ (resumeWaits sl s).sen = s.sen ∧ (resumeWaits sl s).tamperIn = s.tamperIn ∧ (resumeWaits sl s).xlt = s.xlt ∧ (resumeWaits sl s).ods = s.ods ∧ (resumeWaits sl s).vault = s.vault ∧ (resumeWaits sl s).kst = s.kst ∧ (resumeWaits sl s).engKeys = s.engKeys ∧ (resumeWaits sl s).kwe = s.kwe ∧ (resumeWaits sl s).pke = s.pke ∧ (resumeWaits sl s).ent = s.ent ∧ (resumeWaits sl s).atu = s.atu ∧ (resumeWaits sl s).lcc = s.lcc ∧ (resumeWaits sl s).mem = s.mem ∧ (resumeWaits sl s).link = s.link ∧ (resumeWaits sl s).sheaf = s.sheaf ∧ (resumeWaits sl s).dom = s.dom ∧ (resumeWaits sl s).pins = s.pins ∧ (resumeWaits sl s).boot = s.boot ∧ (resumeWaits sl s).tdi = s.tdi ∧ (resumeWaits sl s).ac = s.ac ∧ (resumeWaits sl s).vt = s.vt ∧ (resumeWaits sl s).free = s.free ∧ (resumeWaits sl s).out = s.out ∧ (resumeWaits sl s).pending = s.pending :=
  have k : Off (fun p => p == .cex || p == .srg) s (resumeWaits sl s) := resumeWaits_keeps (Off.keeps _ _) rfl rfl .refl
  ⟨k.clk rfl, k.rcv rfl, k.icu rfl, k.obs rfl, k.sen rfl, k.tamperIn rfl, k.xlt rfl, k.ods rfl, k.vault rfl, k.kst rfl, k.engKeys rfl, k.kwe rfl, k.pke rfl, k.ent rfl, k.atu rfl, k.lcc rfl, k.mem rfl, k.link rfl, k.sheaf rfl, k.dom rfl, k.pins rfl, k.boot rfl, k.tdi rfl, k.ac rfl, k.vt rfl, k.free rfl, k.out rfl, k.pending rfl⟩

@[simp] theorem restoreKeys_same {sl : Nat} {keys : Bytes} {ns : List Nat} {s : State} :
    (restoreKeys sl keys ns s).clk = s.clk ∧ (restoreKeys sl keys ns s).rcv = s.rcv ∧ (restoreKeys sl keys ns s).icu = s.icu ∧ (restoreKeys sl keys ns s).obs = s.obs ∧ (restoreKeys sl keys ns s).sen = s.sen ∧ (restoreKeys sl keys ns s).tamperIn = s.tamperIn ∧ (restoreKeys sl keys ns s).cex = s.cex ∧ (restoreKeys sl keys ns s).xlt = s.xlt ∧ (restoreKeys sl keys ns s).srg = s.srg ∧ (restoreKeys sl keys ns s).ods = s.ods ∧ (restoreKeys sl keys ns s).vault = s.vault ∧ (restoreKeys sl keys ns s).engKeys = s.engKeys ∧ (restoreKeys sl keys ns s).kwe = s.kwe ∧ (restoreKeys sl keys ns s).pke = s.pke ∧ (restoreKeys sl keys ns s).ent = s.ent ∧ (restoreKeys sl keys ns s).atu = s.atu ∧ (restoreKeys sl keys ns s).lcc = s.lcc ∧ (restoreKeys sl keys ns s).mem = s.mem ∧ (restoreKeys sl keys ns s).link = s.link ∧ (restoreKeys sl keys ns s).sheaf = s.sheaf ∧ (restoreKeys sl keys ns s).dom = s.dom ∧ (restoreKeys sl keys ns s).pins = s.pins ∧ (restoreKeys sl keys ns s).boot = s.boot ∧ (restoreKeys sl keys ns s).tdi = s.tdi ∧ (restoreKeys sl keys ns s).ac = s.ac ∧ (restoreKeys sl keys ns s).vt = s.vt ∧ (restoreKeys sl keys ns s).free = s.free ∧ (restoreKeys sl keys ns s).out = s.out ∧ (restoreKeys sl keys ns s).pending = s.pending :=
  have k : Off (fun p => p == .kst) s (restoreKeys sl keys ns s) := restoreKeys_keeps (Off.keeps _ _) rfl .refl
  ⟨k.clk rfl, k.rcv rfl, k.icu rfl, k.obs rfl, k.sen rfl, k.tamperIn rfl, k.cex rfl, k.xlt rfl, k.srg rfl, k.ods rfl, k.vault rfl, k.engKeys rfl, k.kwe rfl, k.pke rfl, k.ent rfl, k.atu rfl, k.lcc rfl, k.mem rfl, k.link rfl, k.sheaf rfl, k.dom rfl, k.pins rfl, k.boot rfl, k.tdi rfl, k.ac rfl, k.vt rfl, k.free rfl, k.out rfl, k.pending rfl⟩

@[simp] theorem saveBody_same {h : CmdHdr} {out : Nat} {g : Gather} {got : Nat → Option Line} {s : State} :
    (saveBody h out g got s).clk = s.clk ∧ (saveBody h out g got s).rcv = s.rcv ∧ (saveBody h out g got s).icu = s.icu ∧ (saveBody h out g got s).obs = s.obs ∧ (saveBody h out g got s).sen = s.sen ∧ (saveBody h out g got s).tamperIn = s.tamperIn ∧ (saveBody h out g got s).xlt = s.xlt ∧ (saveBody h out g got s).ods = s.ods ∧ (saveBody h out g got s).vault = s.vault ∧ (saveBody h out g got s).atu = s.atu ∧ (saveBody h out g got s).lcc = s.lcc ∧ (saveBody h out g got s).mem = s.mem ∧ (saveBody h out g got s).link = s.link ∧ (saveBody h out g got s).sheaf = s.sheaf ∧ (saveBody h out g got s).dom = s.dom ∧ (saveBody h out g got s).pins = s.pins ∧ (saveBody h out g got s).boot = s.boot ∧ (saveBody h out g got s).tdi = s.tdi ∧ (saveBody h out g got s).ac = s.ac ∧ (saveBody h out g got s).vt = s.vt ∧ (saveBody h out g got s).pending = s.pending :=
  have k : Off (fun p => p == .cex || p == .srg || p == .kst || p == .engKeys || p == .kwe || p == .pke || p == .ent || p == .free || p == .out) s (saveBody h out g got s) := saveBody_keeps (Off.keeps _ _) rfl rfl rfl rfl rfl rfl rfl rfl rfl .refl
  ⟨k.clk rfl, k.rcv rfl, k.icu rfl, k.obs rfl, k.sen rfl, k.tamperIn rfl, k.xlt rfl, k.ods rfl, k.vault rfl, k.atu rfl, k.lcc rfl, k.mem rfl, k.link rfl, k.sheaf rfl, k.dom rfl, k.pins rfl, k.boot rfl, k.tdi rfl, k.ac rfl, k.vt rfl, k.pending rfl⟩

@[simp] theorem restoreFailed_same {sl : Nat} {s : State} :
    (restoreFailed sl s).clk = s.clk ∧ (restoreFailed sl s).sen = s.sen ∧ (restoreFailed sl s).tamperIn = s.tamperIn ∧ (restoreFailed sl s).xlt = s.xlt ∧ (restoreFailed sl s).ods = s.ods ∧ (restoreFailed sl s).vault = s.vault ∧ (restoreFailed sl s).ent = s.ent ∧ (restoreFailed sl s).atu = s.atu ∧ (restoreFailed sl s).lcc = s.lcc ∧ (restoreFailed sl s).dom = s.dom ∧ (restoreFailed sl s).pins = s.pins ∧ (restoreFailed sl s).boot = s.boot ∧ (restoreFailed sl s).tdi = s.tdi ∧ (restoreFailed sl s).free = s.free ∧ (restoreFailed sl s).pending = s.pending :=
  have k : Off (fun p => p == .rcv || p == .icu || p == .obs || p == .cex || p == .srg || p == .kst || p == .engKeys || p == .kwe || p == .pke || p == .mem || p == .link || p == .sheaf || p == .ac || p == .vt || p == .out) s (restoreFailed sl s) := restoreFailed_keeps (Off.keeps _ _) rfl rfl rfl rfl rfl rfl rfl rfl rfl rfl rfl rfl rfl rfl rfl .refl
  ⟨k.clk rfl, k.sen rfl, k.tamperIn rfl, k.xlt rfl, k.ods rfl, k.vault rfl, k.ent rfl, k.atu rfl, k.lcc rfl, k.dom rfl, k.pins rfl, k.boot rfl, k.tdi rfl, k.free rfl, k.pending rfl⟩

@[simp] theorem restorePair_same {sl : Nat} {c : Bytes} {ss : List (Nat × Stream)} {n : Nat} {x : Pair} {s : State} :
    (restorePair sl c ss n x s).clk = s.clk ∧ (restorePair sl c ss n x s).rcv = s.rcv ∧ (restorePair sl c ss n x s).icu = s.icu ∧ (restorePair sl c ss n x s).obs = s.obs ∧ (restorePair sl c ss n x s).sen = s.sen ∧ (restorePair sl c ss n x s).tamperIn = s.tamperIn ∧ (restorePair sl c ss n x s).cex = s.cex ∧ (restorePair sl c ss n x s).xlt = s.xlt ∧ (restorePair sl c ss n x s).srg = s.srg ∧ (restorePair sl c ss n x s).ods = s.ods ∧ (restorePair sl c ss n x s).vault = s.vault ∧ (restorePair sl c ss n x s).kst = s.kst ∧ (restorePair sl c ss n x s).pke = s.pke ∧ (restorePair sl c ss n x s).atu = s.atu ∧ (restorePair sl c ss n x s).lcc = s.lcc ∧ (restorePair sl c ss n x s).mem = s.mem ∧ (restorePair sl c ss n x s).sheaf = s.sheaf ∧ (restorePair sl c ss n x s).dom = s.dom ∧ (restorePair sl c ss n x s).pins = s.pins ∧ (restorePair sl c ss n x s).boot = s.boot ∧ (restorePair sl c ss n x s).tdi = s.tdi ∧ (restorePair sl c ss n x s).ac = s.ac ∧ (restorePair sl c ss n x s).vt = s.vt ∧ (restorePair sl c ss n x s).free = s.free ∧ (restorePair sl c ss n x s).out = s.out ∧ (restorePair sl c ss n x s).pending = s.pending :=
  have k : Off (fun p => p == .engKeys || p == .kwe || p == .ent || p == .link) s (restorePair sl c ss n x s) := restorePair_keeps (Off.keeps _ _) rfl rfl rfl rfl .refl
  ⟨k.clk rfl, k.rcv rfl, k.icu rfl, k.obs rfl, k.sen rfl, k.tamperIn rfl, k.cex rfl, k.xlt rfl, k.srg rfl, k.ods rfl, k.vault rfl, k.kst rfl, k.pke rfl, k.atu rfl, k.lcc rfl, k.mem rfl, k.sheaf rfl, k.dom rfl, k.pins rfl, k.boot rfl, k.tdi rfl, k.ac rfl, k.vt rfl, k.free rfl, k.out rfl, k.pending rfl⟩

@[simp] theorem restoreCommands_same {sl : Nat} {x : SliceSave} {s : State} :
    (restoreCommands sl x s).clk = s.clk ∧ (restoreCommands sl x s).rcv = s.rcv ∧ (restoreCommands sl x s).icu = s.icu ∧ (restoreCommands sl x s).obs = s.obs ∧ (restoreCommands sl x s).sen = s.sen ∧ (restoreCommands sl x s).tamperIn = s.tamperIn ∧ (restoreCommands sl x s).xlt = s.xlt ∧ (restoreCommands sl x s).ods = s.ods ∧ (restoreCommands sl x s).vault = s.vault ∧ (restoreCommands sl x s).kst = s.kst ∧ (restoreCommands sl x s).engKeys = s.engKeys ∧ (restoreCommands sl x s).kwe = s.kwe ∧ (restoreCommands sl x s).pke = s.pke ∧ (restoreCommands sl x s).ent = s.ent ∧ (restoreCommands sl x s).atu = s.atu ∧ (restoreCommands sl x s).lcc = s.lcc ∧ (restoreCommands sl x s).mem = s.mem ∧ (restoreCommands sl x s).link = s.link ∧ (restoreCommands sl x s).sheaf = s.sheaf ∧ (restoreCommands sl x s).dom = s.dom ∧ (restoreCommands sl x s).pins = s.pins ∧ (restoreCommands sl x s).boot = s.boot ∧ (restoreCommands sl x s).tdi = s.tdi ∧ (restoreCommands sl x s).ac = s.ac ∧ (restoreCommands sl x s).vt = s.vt ∧ (restoreCommands sl x s).free = s.free ∧ (restoreCommands sl x s).out = s.out ∧ (restoreCommands sl x s).pending = s.pending :=
  have k : Off (fun p => p == .cex || p == .srg) s (restoreCommands sl x s) := restoreCommands_keeps (Off.keeps _ _) rfl rfl .refl
  ⟨k.clk rfl, k.rcv rfl, k.icu rfl, k.obs rfl, k.sen rfl, k.tamperIn rfl, k.xlt rfl, k.ods rfl, k.vault rfl, k.kst rfl, k.engKeys rfl, k.kwe rfl, k.pke rfl, k.ent rfl, k.atu rfl, k.lcc rfl, k.mem rfl, k.link rfl, k.sheaf rfl, k.dom rfl, k.pins rfl, k.boot rfl, k.tdi rfl, k.ac rfl, k.vt rfl, k.free rfl, k.out rfl, k.pending rfl⟩

@[simp] theorem restoreSheaf_same {sl : Nat} {ps : List Placement} {slot : Nat → Nat} {c : SheafCtx} {s : State} :
    (restoreSheaf sl ps slot c s).clk = s.clk ∧ (restoreSheaf sl ps slot c s).rcv = s.rcv ∧ (restoreSheaf sl ps slot c s).icu = s.icu ∧ (restoreSheaf sl ps slot c s).obs = s.obs ∧ (restoreSheaf sl ps slot c s).sen = s.sen ∧ (restoreSheaf sl ps slot c s).tamperIn = s.tamperIn ∧ (restoreSheaf sl ps slot c s).cex = s.cex ∧ (restoreSheaf sl ps slot c s).xlt = s.xlt ∧ (restoreSheaf sl ps slot c s).srg = s.srg ∧ (restoreSheaf sl ps slot c s).ods = s.ods ∧ (restoreSheaf sl ps slot c s).vault = s.vault ∧ (restoreSheaf sl ps slot c s).kst = s.kst ∧ (restoreSheaf sl ps slot c s).pke = s.pke ∧ (restoreSheaf sl ps slot c s).atu = s.atu ∧ (restoreSheaf sl ps slot c s).lcc = s.lcc ∧ (restoreSheaf sl ps slot c s).mem = s.mem ∧ (restoreSheaf sl ps slot c s).link = s.link ∧ (restoreSheaf sl ps slot c s).dom = s.dom ∧ (restoreSheaf sl ps slot c s).pins = s.pins ∧ (restoreSheaf sl ps slot c s).boot = s.boot ∧ (restoreSheaf sl ps slot c s).tdi = s.tdi ∧ (restoreSheaf sl ps slot c s).ac = s.ac ∧ (restoreSheaf sl ps slot c s).vt = s.vt ∧ (restoreSheaf sl ps slot c s).free = s.free ∧ (restoreSheaf sl ps slot c s).out = s.out ∧ (restoreSheaf sl ps slot c s).pending = s.pending :=
  have k : Off (fun p => p == .engKeys || p == .kwe || p == .ent || p == .sheaf) s (restoreSheaf sl ps slot c s) := restoreSheaf_keeps (Off.keeps _ _) rfl rfl rfl rfl .refl
  ⟨k.clk rfl, k.rcv rfl, k.icu rfl, k.obs rfl, k.sen rfl, k.tamperIn rfl, k.cex rfl, k.xlt rfl, k.srg rfl, k.ods rfl, k.vault rfl, k.kst rfl, k.pke rfl, k.atu rfl, k.lcc rfl, k.mem rfl, k.link rfl, k.dom rfl, k.pins rfl, k.boot rfl, k.tdi rfl, k.ac rfl, k.vt rfl, k.free rfl, k.out rfl, k.pending rfl⟩

@[simp] theorem restoreSlice_same {sl : Nat} {ps : List Placement} {x : SliceSave} {keys data chain : Bytes} {s : State} :
    (restoreSlice sl ps x keys data chain s).clk = s.clk ∧ (restoreSlice sl ps x keys data chain s).sen = s.sen ∧ (restoreSlice sl ps x keys data chain s).tamperIn = s.tamperIn ∧ (restoreSlice sl ps x keys data chain s).xlt = s.xlt ∧ (restoreSlice sl ps x keys data chain s).ods = s.ods ∧ (restoreSlice sl ps x keys data chain s).vault = s.vault ∧ (restoreSlice sl ps x keys data chain s).pke = s.pke ∧ (restoreSlice sl ps x keys data chain s).atu = s.atu ∧ (restoreSlice sl ps x keys data chain s).lcc = s.lcc ∧ (restoreSlice sl ps x keys data chain s).boot = s.boot ∧ (restoreSlice sl ps x keys data chain s).tdi = s.tdi ∧ (restoreSlice sl ps x keys data chain s).ac = s.ac ∧ (restoreSlice sl ps x keys data chain s).vt = s.vt ∧ (restoreSlice sl ps x keys data chain s).pending = s.pending :=
  have k : Off (fun p => p == .rcv || p == .icu || p == .obs || p == .cex || p == .srg || p == .kst || p == .engKeys || p == .kwe || p == .ent || p == .mem || p == .link || p == .sheaf || p == .dom || p == .pins || p == .free || p == .out) s (restoreSlice sl ps x keys data chain s) := restoreSlice_keeps (Off.keeps _ _) rfl rfl rfl rfl rfl rfl rfl rfl rfl rfl rfl rfl rfl rfl rfl rfl .refl
  ⟨k.clk rfl, k.sen rfl, k.tamperIn rfl, k.xlt rfl, k.ods rfl, k.vault rfl, k.pke rfl, k.atu rfl, k.lcc rfl, k.boot rfl, k.tdi rfl, k.ac rfl, k.vt rfl, k.pending rfl⟩

@[simp] theorem serveLine_same {e : Nat} {l : WaitLine} {s : State} :
    (serveLine e l s).clk = s.clk ∧ (serveLine e l s).sen = s.sen ∧ (serveLine e l s).tamperIn = s.tamperIn ∧ (serveLine e l s).xlt = s.xlt ∧ (serveLine e l s).ods = s.ods ∧ (serveLine e l s).vault = s.vault ∧ (serveLine e l s).kst = s.kst ∧ (serveLine e l s).engKeys = s.engKeys ∧ (serveLine e l s).kwe = s.kwe ∧ (serveLine e l s).pke = s.pke ∧ (serveLine e l s).ent = s.ent ∧ (serveLine e l s).atu = s.atu ∧ (serveLine e l s).lcc = s.lcc ∧ (serveLine e l s).link = s.link ∧ (serveLine e l s).sheaf = s.sheaf ∧ (serveLine e l s).dom = s.dom ∧ (serveLine e l s).pins = s.pins ∧ (serveLine e l s).boot = s.boot ∧ (serveLine e l s).tdi = s.tdi ∧ (serveLine e l s).ac = s.ac ∧ (serveLine e l s).vt = s.vt ∧ (serveLine e l s).free = s.free ∧ (serveLine e l s).pending = s.pending :=
  have k : Off (fun p => p == .rcv || p == .icu || p == .obs || p == .cex || p == .srg || p == .mem || p == .out) s (serveLine e l s) := serveLine_keeps (Off.keeps _ _) rfl rfl rfl rfl rfl rfl rfl .refl
  ⟨k.clk rfl, k.sen rfl, k.tamperIn rfl, k.xlt rfl, k.ods rfl, k.vault rfl, k.kst rfl, k.engKeys rfl, k.kwe rfl, k.pke rfl, k.ent rfl, k.atu rfl, k.lcc rfl, k.link rfl, k.sheaf rfl, k.dom rfl, k.pins rfl, k.boot rfl, k.tdi rfl, k.ac rfl, k.vt rfl, k.free rfl, k.pending rfl⟩

@[simp] theorem accrueBusy_same {s : State} :
    (accrueBusy s).clk = s.clk ∧ (accrueBusy s).rcv = s.rcv ∧ (accrueBusy s).icu = s.icu ∧ (accrueBusy s).sen = s.sen ∧ (accrueBusy s).tamperIn = s.tamperIn ∧ (accrueBusy s).cex = s.cex ∧ (accrueBusy s).xlt = s.xlt ∧ (accrueBusy s).srg = s.srg ∧ (accrueBusy s).ods = s.ods ∧ (accrueBusy s).vault = s.vault ∧ (accrueBusy s).kst = s.kst ∧ (accrueBusy s).engKeys = s.engKeys ∧ (accrueBusy s).kwe = s.kwe ∧ (accrueBusy s).pke = s.pke ∧ (accrueBusy s).ent = s.ent ∧ (accrueBusy s).atu = s.atu ∧ (accrueBusy s).lcc = s.lcc ∧ (accrueBusy s).mem = s.mem ∧ (accrueBusy s).link = s.link ∧ (accrueBusy s).sheaf = s.sheaf ∧ (accrueBusy s).dom = s.dom ∧ (accrueBusy s).pins = s.pins ∧ (accrueBusy s).boot = s.boot ∧ (accrueBusy s).tdi = s.tdi ∧ (accrueBusy s).ac = s.ac ∧ (accrueBusy s).vt = s.vt ∧ (accrueBusy s).free = s.free ∧ (accrueBusy s).out = s.out ∧ (accrueBusy s).pending = s.pending :=
  have k : Off (fun p => p == .obs) s (accrueBusy s) := accrueBusy_keeps (Off.keeps _ _) rfl .refl
  ⟨k.clk rfl, k.rcv rfl, k.icu rfl, k.sen rfl, k.tamperIn rfl, k.cex rfl, k.xlt rfl, k.srg rfl, k.ods rfl, k.vault rfl, k.kst rfl, k.engKeys rfl, k.kwe rfl, k.pke rfl, k.ent rfl, k.atu rfl, k.lcc rfl, k.mem rfl, k.link rfl, k.sheaf rfl, k.dom rfl, k.pins rfl, k.boot rfl, k.tdi rfl, k.ac rfl, k.vt rfl, k.free rfl, k.out rfl, k.pending rfl⟩

@[simp] theorem advanceTimers_same {s : State} :
    (advanceTimers s).rcv = s.rcv ∧ (advanceTimers s).icu = s.icu ∧ (advanceTimers s).obs = s.obs ∧ (advanceTimers s).sen = s.sen ∧ (advanceTimers s).tamperIn = s.tamperIn ∧ (advanceTimers s).cex = s.cex ∧ (advanceTimers s).xlt = s.xlt ∧ (advanceTimers s).srg = s.srg ∧ (advanceTimers s).ods = s.ods ∧ (advanceTimers s).vault = s.vault ∧ (advanceTimers s).kst = s.kst ∧ (advanceTimers s).engKeys = s.engKeys ∧ (advanceTimers s).kwe = s.kwe ∧ (advanceTimers s).pke = s.pke ∧ (advanceTimers s).ent = s.ent ∧ (advanceTimers s).atu = s.atu ∧ (advanceTimers s).lcc = s.lcc ∧ (advanceTimers s).mem = s.mem ∧ (advanceTimers s).link = s.link ∧ (advanceTimers s).sheaf = s.sheaf ∧ (advanceTimers s).dom = s.dom ∧ (advanceTimers s).pins = s.pins ∧ (advanceTimers s).boot = s.boot ∧ (advanceTimers s).tdi = s.tdi ∧ (advanceTimers s).ac = s.ac ∧ (advanceTimers s).vt = s.vt ∧ (advanceTimers s).free = s.free ∧ (advanceTimers s).out = s.out ∧ (advanceTimers s).pending = s.pending :=
  have k : Off (fun p => p == .clk) s (advanceTimers s) := advanceTimers_keeps (Off.keeps _ _) rfl .refl
  ⟨k.rcv rfl, k.icu rfl, k.obs rfl, k.sen rfl, k.tamperIn rfl, k.cex rfl, k.xlt rfl, k.srg rfl, k.ods rfl, k.vault rfl, k.kst rfl, k.engKeys rfl, k.kwe rfl, k.pke rfl, k.ent rfl, k.atu rfl, k.lcc rfl, k.mem rfl, k.link rfl, k.sheaf rfl, k.dom rfl, k.pins rfl, k.boot rfl, k.tdi rfl, k.ac rfl, k.vt rfl, k.free rfl, k.out rfl, k.pending rfl⟩

@[simp] theorem accrueReefed_same {s : State} :
    (accrueReefed s).clk = s.clk ∧ (accrueReefed s).rcv = s.rcv ∧ (accrueReefed s).icu = s.icu ∧ (accrueReefed s).obs = s.obs ∧ (accrueReefed s).sen = s.sen ∧ (accrueReefed s).tamperIn = s.tamperIn ∧ (accrueReefed s).cex = s.cex ∧ (accrueReefed s).xlt = s.xlt ∧ (accrueReefed s).ods = s.ods ∧ (accrueReefed s).vault = s.vault ∧ (accrueReefed s).kst = s.kst ∧ (accrueReefed s).engKeys = s.engKeys ∧ (accrueReefed s).kwe = s.kwe ∧ (accrueReefed s).pke = s.pke ∧ (accrueReefed s).ent = s.ent ∧ (accrueReefed s).atu = s.atu ∧ (accrueReefed s).lcc = s.lcc ∧ (accrueReefed s).mem = s.mem ∧ (accrueReefed s).link = s.link ∧ (accrueReefed s).sheaf = s.sheaf ∧ (accrueReefed s).dom = s.dom ∧ (accrueReefed s).pins = s.pins ∧ (accrueReefed s).boot = s.boot ∧ (accrueReefed s).tdi = s.tdi ∧ (accrueReefed s).ac = s.ac ∧ (accrueReefed s).vt = s.vt ∧ (accrueReefed s).free = s.free ∧ (accrueReefed s).out = s.out ∧ (accrueReefed s).pending = s.pending :=
  have k : Off (fun p => p == .srg) s (accrueReefed s) := accrueReefed_keeps (Off.keeps _ _) rfl .refl
  ⟨k.clk rfl, k.rcv rfl, k.icu rfl, k.obs rfl, k.sen rfl, k.tamperIn rfl, k.cex rfl, k.xlt rfl, k.ods rfl, k.vault rfl, k.kst rfl, k.engKeys rfl, k.kwe rfl, k.pke rfl, k.ent rfl, k.atu rfl, k.lcc rfl, k.mem rfl, k.link rfl, k.sheaf rfl, k.dom rfl, k.pins rfl, k.boot rfl, k.tdi rfl, k.ac rfl, k.vt rfl, k.free rfl, k.out rfl, k.pending rfl⟩

end Sys2Proof.Machine
end

