-- ==== Sys2Proof/Laws/Completion.lean ====
section
/-!
SUPPORT. One lemma or a few for each shared operation that says what it does to what claims about commands name.
-/

set_option Elab.async false
open Sys2Proof Sys2Proof.Machine
namespace Sys2Proof.Machine
theorem updDom_domain {sl m : Nat} {f : Dom → Dom} {s : State} : (updDom sl f s).domain m = if m = sl then f (s.domain sl) else s.domain m := by
  unfold updDom State.domain; exact Tbl.get_upd _ _ _ _
theorem domain_of_dom {s t : State} (h : t.dom = s.dom) (m : Nat) : t.domain m = s.domain m := by unfold State.domain; rw [h]
theorem mem_mapIf {α : Type} {p : α → Bool} {f : α → α} {l : List α} {w : α} (h : w ∈ mapIf p f l) : ∃ v ∈ l, (p v = true ∧ w = f v) ∨ (p v = false ∧ w = v) := by
  obtain ⟨v, hv, e⟩ := List.mem_map.1 h
  refine ⟨v, hv, ?_⟩
  split at e
  · rename_i hp; exact .inl ⟨hp, e.symm⟩
  · rename_i hp; exact .inr ⟨by simpa using hp, e.symm⟩
theorem setScalar_runs {k : CmdKey} {i : Nat} {v : BitVec 64} {s : State} (h : Runs k s) : Runs k (setScalar k i v s) :=
  h.of_queues (by unfold setScalar; rw [updQ_q])
theorem setScalar_get {k : CmdKey} {i : Nat} {v : BitVec 64} {s : State} (j : Nat) : ((setScalar k i v s).q k).scalars.get j = if j = i then v else (s.q k).scalars.get j := by
  unfold setScalar; rw [updQ_q]; exact Tbl.get_set _ _ _ _
theorem tableSet_started {h : CmdHdr} {s : State} {ctx : Nat} : tableSet (s.started h) ctx = tableSet s ctx := by
  unfold tableSet; rw [started_cexes.2.2.1]
theorem State.started_graph {h : CmdHdr} {s : State} {sl n : Nat} : (s.started h).graph sl n = s.graph sl n := by
  unfold State.graph; rw [started_cexes.2.2.2.2.1]
theorem finish_graph {k : CmdKey} {st d : Nat} {s : State} {sl n : Nat} : (finish k st d s).graph sl n = s.graph sl n := rfl
theorem updGraph_graph {sl n : Nat} {f : Graph → Graph} {s : State} : (updGraph sl n f s).graph sl n = f (s.graph sl n) := by
  unfold updGraph State.graph; simp
theorem updGraph_runs {k : CmdKey} {sl n : Nat} {f : Graph → Graph} {s : State} (h : Runs k s) : Runs k (updGraph sl n f s) := h.of_queues rfl
theorem finish_frames {k : CmdKey} {st d : Nat} {s : State} : ((finish k st d s).q k).frames = (s.q k).frames := by unfold finish; rw [updFlight_q]
theorem addFrame_runs {k : CmdKey} {f : Frame} {s : State} (h : Runs k s) (hk : f.key = k) : Runs k (addFrame f s) := by
  subst hk; exact h.of_queues (updQ_flights rfl)
theorem addFrame_frames {f : Frame} {s : State} : ((addFrame f s).q f.key).frames = (s.q f.key).frames ++ [f] := by unfold addFrame; rw [updQ_q]
theorem nested_ok {h : CmdHdr} {s : State} {f : State → State} (hp : h.key.path.length < 4) : nested h s f = f s := if_neg (by omega)
theorem endWait_ended {k : CmdKey} {st d : Nat} {s : State} (h : Runs k s) : Ended k st d (endWait k st d s) ∧ ∀ v ∈ (endWait k st d s).cex.waits, v.key ≠ k := by
  refine ⟨finish_ended _ _ (h.of_queues rfl), fun v hv => ?_⟩
  have hv : v ∈ s.cex.waits.filter (fun w => w.key != k) := hv
  simpa using (List.mem_filter.1 hv).2
theorem Runs.addWait {k : CmdKey} {w : WaitRec} {s : State} (h : Runs k s) : Runs k (addWait w s) := h.of_queues rfl
theorem foldl_finish_waits {α : Type} {key : α → CmdKey} {st d : Nat} (l : List α) (s : State) :
    (l.foldl (fun s x => finish (key x) st d s) s).cex.waits = s.cex.waits ∧ (l.foldl (fun s x => finish (key x) st d s) s).cex.syncs = s.cex.syncs ∧
    (l.foldl (fun s x => finish (key x) st d s) s).cex.holds = s.cex.holds := by
  induction l generalizing s with
  | nil => exact ⟨rfl, rfl, rfl⟩
  | cons x l ih => exact ih _
theorem wakeSync_ended {k : CmdKey} {sl c : Nat} {s : State} (h : Ended k st d s) : Ended k st d (wakeSync sl c s) := by
  unfold wakeSync
  exact (h.foldl_finish _).of_queues rfl
/-- A wait that the counter ends has ended; one that it does not end waits on. -/
theorem wakeSync_hit {k : CmdKey} {w : WaitRec} {s : State} (h : Runs k s) (hw : w ∈ s.cex.waits) (hk : w.key = k)
    (h2 : w.kind = 2) (hh : (s.cex.syncs.get (w.slice * 64 + w.a)).broken = true ∨ w.b ≤ (s.cex.syncs.get (w.slice * 64 + w.a)).value.toNat) :
    Ended k (if (s.cex.syncs.get (w.slice * 64 + w.a)).broken then St.brokenFence else St.success)
      (if (s.cex.syncs.get (w.slice * 64 + w.a)).broken then (s.cex.syncs.get (w.slice * 64 + w.a)).value.toNat else 0) (wakeSync w.slice w.a s) := by
  unfold wakeSync
  refine Ended.of_queues (foldl_finish_ended (key := WaitRec.key) _ h ⟨w, List.mem_filter.2 ⟨hw, ?_⟩, hk⟩) rfl
  rcases hh with hh | hh <;> simp [h2, hh]
theorem wakeSync_runs {k : CmdKey} {sl c : Nat} {s : State} (h : Runs k s)
    (hn : ∀ w ∈ s.cex.waits, w.key = k → ¬ (w.kind = 2 ∧ w.slice = sl ∧ w.a = c ∧ ((s.cex.syncs.get (sl * 64 + c)).broken = true ∨ w.b ≤ (s.cex.syncs.get (sl * 64 + c)).value.toNat))) :
    Runs k (wakeSync sl c s) := by
  unfold wakeSync
  refine Runs.of_queues (Runs.foldl_finish (key := WaitRec.key) _ h ?_) rfl
  intro w hw e
  obtain ⟨hm, hp⟩ := List.mem_filter.1 hw
  refine hn w hm e ?_
  simpa [and_assoc] using hp
theorem wakeSync_waits {sl c : Nat} {s : State} {w : WaitRec} (hw : w ∈ s.cex.waits)
    (hn : ¬ (w.kind = 2 ∧ w.slice = sl ∧ w.a = c ∧ ((s.cex.syncs.get (sl * 64 + c)).broken = true ∨ w.b ≤ (s.cex.syncs.get (sl * 64 + c)).value.toNat))) :
    w ∈ (wakeSync sl c s).cex.waits := by
  unfold wakeSync
  dsimp only
  rw [(foldl_finish_waits _ _).1]
  refine List.mem_filter.2 ⟨hw, ?_⟩
  simp only [Bool.not_eq_true', ← Bool.not_eq_true, Bool.and_eq_true, beq_iff_eq, decide_eq_true_eq, Bool.or_eq_true, and_assoc]
  exact hn
/-- Folding over waits, each finished with a status of its own, ends the one that is decided, when no other has its key. -/
theorem foldl_decided {f : WaitRec → Option Nat} {k : CmdKey} {st : Nat} (l : List WaitRec) {s : State} (h : Runs k s) (w : WaitRec) (hl : ∀ v ∈ l, v.key ≠ k)
    (hw : w.key = k) (hd : f w = some st) :
    Ended k st 0 ((l ++ [w]).foldl (fun s w => match f w with | some st => finish w.key st 0 s | none => s) s) := by
  induction l generalizing s with
  | nil => simp only [List.nil_append, List.foldl_cons, List.foldl_nil, hd, hw]; exact finish_ended _ _ h
  | cons x l ih =>
    rw [List.cons_append, List.foldl_cons]
    refine ih ?_ (fun v hv => hl v (List.mem_cons_of_mem _ hv))
    split
    · exact h.finish_ne (fun e => hl x (List.mem_cons_self ..) e.symm)
    · exact h
theorem foldl_endWait_ended {k : CmdKey} {st d : Nat} (l : List WaitRec) {s : State} (h : Runs k s) (hk : ∃ x ∈ l, x.key = k) :
    Ended k st d (l.foldl (fun s w => endWait w.key st d s) s) := by
  induction l generalizing s with
  | nil => obtain ⟨x, hx, _⟩ := hk; cases hx
  | cons y l ih =>
    rw [List.foldl_cons]
    by_cases hy : y.key = k
    · rw [hy]
      have e : Ended k st d (endWait k st d s) := (endWait_ended h).1
      clear ih hk hy h
      generalize endWait k st d s = t at e
      induction l generalizing t with
      | nil => exact e
      | cons z l ih => exact ih _ (Ended.finish (Ended.of_queues (t := { t with cex := { t.cex with waits := t.cex.waits.filter (fun w => w.key != z.key) } }) e rfl))
    · refine ih (Runs.finish_ne (h.of_queues rfl) (fun e => hy e.symm)) ?_
      obtain ⟨x, hx, e⟩ := hk
      rcases List.mem_cons.1 hx with rfl | hx
      · exact absurd e hy
      · exact ⟨x, hx, e⟩
theorem updGroup_group {sl g sl' g' : Nat} {f : FenceGroup → FenceGroup} {s : State} :
    (updGroup sl g f s).group sl' g' = if sl' * 64 + g' = sl * 64 + g then f (s.group sl g) else s.group sl' g' := by
  unfold updGroup State.group; exact Tbl.get_upd _ _ _ _
theorem finish_group {k : CmdKey} {st d sl g : Nat} {s : State} : (finish k st d s).group sl g = s.group sl g := rfl
theorem started_group {h : CmdHdr} {s : State} {sl g : Nat} : (s.started h).group sl g = s.group sl g := by
  unfold State.group; rw [started_cexes.2.2.2.2.2.2.1]
theorem started_keyed {h : CmdHdr} {s : State} {sl : Nat} : keyed (s.started h) sl = keyed s sl := by
  unfold keyed State.domain; simp
theorem started_gateSample {h : CmdHdr} {s : State} {sl : Nat} : gateSample (s.started h) sl = gateSample s sl := by unfold gateSample; simp
theorem gateOpen_of_vt {s t : State} (h : t.vt = s.vt) {sl : Nat} {l : List Nat} : gateOpen t sl l = gateOpen s sl l := by unfold gateOpen; rw [h]
theorem gateSample_of_ac {s t : State} (h : t.ac = s.ac) {sl : Nat} : gateSample t sl = gateSample s sl := by unfold gateSample; rw [h]
theorem gateSample_ne {s : State} {sl : Nat} : (gateSample s sl).isEmpty = false := by simp [gateSample]
theorem localReady_congr {s t : State} {k : CmdKey} (h : t.q k = s.q k) : localReady t k = localReady s k := by unfold localReady; rw [h]
theorem wakeSync_nil {sl c : Nat} {s : State} (h : s.cex.waits = []) : wakeSync sl c s = s := by
  unfold wakeSync; simp [h]; rw [← h]
theorem pend_group {n sl g : Nat} {s : State} : (pend n s).group sl g = s.group sl g := by unfold State.group; simp
theorem noted_domain {sl : Nat} {h : DomHdr} {s : State} : (updDom sl (fun d => { d with seqIn := d.seqIn.set h.sender.toNat h.sequence.toNat }) s).domain sl =
    { s.domain sl with seqIn := (s.domain sl).seqIn.set h.sender.toNat h.sequence.toNat } := by rw [updDom_domain, if_pos rfl]
theorem noted_keyed {sl : Nat} {h : DomHdr} {s : State} : keyed (updDom sl (fun d => { d with seqIn := d.seqIn.set h.sender.toNat h.sequence.toNat }) s) sl = keyed s sl := by
  unfold keyed; rw [noted_domain]
theorem nextHop_congr {d : Dom} {q : Tbl Nat} {m : Nat} : nextHop { d with seqIn := q } m = nextHop d m := by
  have : ∀ n m, ancestors { d with seqIn := q } n m = ancestors d n m := by
    intro n
    induction n with
    | zero => intro m; rfl
    | succ n ih =>
      intro m
      unfold ancestors
      have e : treeParent { d with seqIn := q } m = treeParent d m := rfl
      rw [e]
      cases treeParent d m with
      | none => rfl
      | some p => simp only [ih]
  unfold nextHop
  rw [this]
  rfl
theorem collectorOf_noted {sl g : Nat} {h : DomHdr} {s : State} :
    collectorOf (updDom sl (fun d => { d with seqIn := d.seqIn.set h.sender.toNat h.sequence.toNat }) s) sl g = collectorOf s sl g := by
  unfold collectorOf; rw [noted_domain]; rfl
theorem keyed_ne {s : State} {sl : Nat} (h : keyed s sl = true) : (s.domain sl).state ≠ 0 ∧ (s.domain sl).state ≠ 4 := by
  unfold keyed at h
  simp at h
  rcases h with h | h <;> simp [h]
theorem startFence_eq {h : CmdHdr} {g ty o : Nat} {d : Bool} {s : State} {x : FenceGroup} {l : List Nat} (hx : s.group (hdrSlice h) g = x)
    (hl : (if d then gateSample s (hdrSlice h) else []) = l) :
    startFence h g ty o d s = settleFences (sendMarks (hdrSlice h) g (fenceWord 0 ty 0 g (x.dseq + 1)) (updGroup (hdrSlice h) g (fun y => { y with dseq := x.dseq + 1, waits := y.waits ++ [{ key := h.key, dseq := x.dseq + 1, ftype := ty, outcome := o, drained := d, sample := l, acked := false, ackAt := 0, done := none, doneSample := [] }] }) s)) := by subst hx hl; rfl
theorem updRegion_region {r m : Nat} {f : Region → Region} {s : State} : (updRegion r f s).region m = if m = r then f (s.region r) else s.region m := by
  unfold updRegion State.region; exact Tbl.get_upd _ _ _ _
theorem region_of_mem {s t : State} (h : t.mem = s.mem) (m : Nat) : t.region m = s.region m := by unfold State.region; rw [h]
theorem region_of_regions {s t : State} (h : t.mem.regions = s.mem.regions) (m : Nat) : t.region m = s.region m := by unfold State.region; rw [h]
theorem started_region {h : CmdHdr} {s : State} (m : Nat) : (s.started h).region m = s.region m := region_of_mem (by simp) m
theorem finish_region {k : CmdKey} {st d m : Nat} {s : State} : (finish k st d s).region m = s.region m := rfl
theorem Runs.updRegion {k : CmdKey} {r : Nat} {f : Region → Region} {s : State} (h : Runs k s) : Runs k (updRegion r f s) := h.of_cex rfl
theorem startCmd_slices {k : CmdKey} {c : Nat} {s : State} (n : Nat) : ((startCmd k c s).slice n) = { s.slice n with usage := ((startCmd k c s).slice n).usage } := by
  have h2 : ∀ (u : State) (c w : Nat), ((chargeStart k c w u).slice n) = { u.slice n with usage := ((chargeStart k c w u).slice n).usage } := by
    intro u c w
    unfold chargeStart
    split
    · unfold updUsage updSlice State.slice
      rw [Tbl.get_upd]
      split
      · rename_i h; rw [h]
      · rfl
    · rfl
  unfold startCmd
  rw [h2]; rfl
theorem started_slice {h : CmdHdr} {s : State} (n : Nat) : ((s.started h).slice n) = { s.slice n with usage := ((s.started h).slice n).usage } := startCmd_slices n
theorem started_owns {h : CmdHdr} {s : State} {sl r : Nat} : ownsRegionIx (s.started h) sl r = ownsRegionIx s sl r := by unfold ownsRegionIx; rw [started_slice]
theorem finish_mem {k : CmdKey} {st d : Nat} {s : State} : (finish k st d s).mem = s.mem := rfl
theorem loadRegionKeys_memcex {ix d w t : Nat} {s : State} : (loadRegionKeys ix d w t s).mem = s.mem ∧ (loadRegionKeys ix d w t s).cex = s.cex := by
  constructor <;> simp
theorem ite_mem {c : Bool} {a b : State} (h : b.mem = a.mem) : (if c = true then a else b).mem = a.mem := by cases c <;> simp [h]
theorem ite_cex {c : Bool} {a b : State} (h : b.cex = a.cex) : (if c = true then a else b).cex = a.cex := by cases c <;> simp [h]
theorem defineRegion_active {h : CmdHdr} {r : Nat} {x : Region} {zero : Bool} {s : State} (hi : (x.mode == 0 || zero) = false) (hr : Runs h.key s) :
    Ended h.key St.success 0 (defineRegion h r x zero s) ∧
    (defineRegion h r x zero s).mem.regions = s.mem.regions.set r { x with valid := true, state := 1, epochAt := s.now, define := none } ∧
    (defineRegion h r x zero s).mem.decodeLocked = true ∧ (defineRegion h r x zero s).mem.mark = if x.mode == 3 then s.mem.mark else s.mem.mark.set r (some x.epoch) := by
  unfold defineRegion
  dsimp only
  simp only [hi, Bool.false_eq_true, if_false]
  rw [finish_mem, ite_mem loadRegionKeys_memcex.1]
  exact ⟨finish_ended _ _ (hr.of_cex (ite_cex loadRegionKeys_memcex.2)), rfl, rfl, rfl⟩
theorem region_set {s t : State} {r : Nat} {x : Region} (h : t.mem.regions = s.mem.regions.set r x) (m : Nat) : t.region m = if m = r then x else s.region m := by
  unfold State.region; rw [h, Tbl.get_set]
theorem Runs.pend {k : CmdKey} {n : Nat} {s : State} (h : Runs k s) : Runs k (pend n s) := h.of_cex (by simp)
theorem pend_region {n m : Nat} {s : State} : (pend n s).region m = s.region m := region_of_mem (by simp) m
theorem Posts.of_rings {n : Nat} {es : List EvWait} {s s' t t' : State} (h : Posts n es s' t') (hs : s.cex.rings = s'.cex.rings) (ht : t.cex.rings = t'.cex.rings) : Posts n es s t := by
  unfold Posts at *; rw [hs, ht]; exact h
theorem find?_mapIf_self {α : Type} {p : α → Bool} {f : α → α} {l : List α} {x : α} (hp : ∀ x, p x = true → p (f x) = true) (h : l.find? p = some x) :
    (mapIf p f l).find? p = some (f x) := by rw [find?_mapIf p f hp, h]; rfl
theorem updPlough_of {r : Nat} {f : Plough → Plough} {p : Plough} {s : State} (hf : ∀ p, (f p).region = p.region) (h : ploughOf s r = some p) :
    ploughOf (updPlough r f s) r = some (f p) := find?_mapIf_self (by intro x hx; rw [hf]; exact hx) h
theorem ploughOf_of_mem {s t : State} {r : Nat} (h : t.mem.ploughs = s.mem.ploughs) : ploughOf t r = ploughOf s r := by unfold ploughOf; rw [h]
theorem started_mem {h : CmdHdr} {s : State} : (s.started h).mem = s.mem := by simp
theorem foldl_finish_same {α : Type} {key : α → CmdKey} {st d : Nat} (l : List α) (s : State) :
    (l.foldl (fun s x => finish (key x) st d s) s).mem = s.mem := by
  induction l generalizing s with
  | nil => rfl
  | cons x l ih => exact ih _
theorem freePlough_spec {r : Nat} {s : State} : (freePlough r s).mem.regions = s.mem.regions ∧ (freePlough r s).mem.ploughsDone = s.mem.ploughsDone ∧
    ploughOf (freePlough r s) r = none := by
  unfold freePlough
  split
  · rename_i h; exact ⟨rfl, rfl, h⟩
  · refine ⟨rfl, rfl, ?_⟩
    show List.find? _ (List.filter _ _) = none
    rw [List.find?_eq_none]
    intro x hx
    simpa using (List.mem_filter.1 hx).2
theorem completePlough_spec (r : Nat) (p : Plough) (s : State) : ∃ u, completePlough r p s = pend 250 (settleReads r (settleKeyFences r u)) ∧
    (u.region r).epoch = p.epoch ∧ (u.region r).keyData = (s.region r).nextData ∧ (u.region r).keyTweak = (s.region r).nextTweak ∧
    (u.region r).keyTag = (s.region r).nextTag ∧ (u.region r).state = 1 ∧ ploughOf u r = none ∧ u.mem.ploughsDone = s.mem.ploughsDone + 1 := by
  refine ⟨_, rfl, ?_⟩
  generalize hz : updRegion r _ s = z
  have hz1 : (z.region r).epoch = p.epoch ∧ (z.region r).keyData = (s.region r).nextData ∧ (z.region r).keyTweak = (s.region r).nextTweak ∧
      (z.region r).keyTag = (s.region r).nextTag ∧ (z.region r).state = 1 := by rw [← hz, updRegion_region, if_pos rfl]; exact ⟨rfl, rfl, rfl, rfl, rfl⟩
  have hz2 : z.mem.ploughsDone = s.mem.ploughsDone := by rw [← hz]; rfl
  clear hz
  generalize hw : loadRegionKeys _ _ _ _ _ = w
  have hw1 : w.mem = z.mem := by rw [← hw, loadRegionKeys_memcex.1]; simp
  clear hw
  have hm : ∀ u : State, ∀ l : List CmdKey, (l.foldl (fun s k => finish k St.success 0 s) u).mem = u.mem := fun u l => foldl_finish_same (key := id) l u
  have hreg : ∀ u : State, ∀ l : List CmdKey, (l.foldl (fun s k => finish k St.success 0 s) u).region r = u.region r := fun u l => region_of_mem (hm u l) r
  have hpl : ∀ u : State, ∀ l : List CmdKey, ploughOf (l.foldl (fun s k => finish k St.success 0 s) u) r = ploughOf u r := fun u l => ploughOf_of_mem (by rw [hm])
  rw [hreg, hpl, hm]
  obtain ⟨f1, f2, f3⟩ := @freePlough_spec r w
  have hreg' : ∀ u : State, u.mem.regions = (freePlough r w).mem.regions → u.region r = z.region r := fun u e => region_of_regions (e.trans (f1.trans (by rw [hw1]))) r
  have main : ∀ q : State, q.mem.regions = (freePlough r w).mem.regions → q.mem.ploughs = (freePlough r w).mem.ploughs → q.mem.ploughsDone = (freePlough r w).mem.ploughsDone + 1 →
      (q.region r).epoch = p.epoch ∧ (q.region r).keyData = (s.region r).nextData ∧ (q.region r).keyTweak = (s.region r).nextTweak ∧
      (q.region r).keyTag = (s.region r).nextTag ∧ (q.region r).state = 1 ∧ ploughOf q r = none ∧ q.mem.ploughsDone = s.mem.ploughsDone + 1 := by
    intro q e1 e2 e3
    rw [hreg' q e1, ploughOf_of_mem e2, e3, f2, hw1, hz2]
    exact ⟨hz1.1, hz1.2.1, hz1.2.2.1, hz1.2.2.2.1, hz1.2.2.2.2, f3, rfl⟩
  exact main _ rfl rfl rfl
theorem started_slot {h : CmdHdr} {s : State} (n : Nat) : (s.started h).slot n = s.slot n := by unfold State.slot; simp
theorem started_ownsSlot {h : CmdHdr} {s : State} {sl n : Nat} : ownsSlot (s.started h) sl n = ownsSlot s sl n := by unfold ownsSlot; rw [started_slice]
theorem writeSlot_slot {n m : Nat} {k : BitVec 256} {a b : BitVec 64} {w : BitVec 128} {s : State} :
    (writeSlot n k a b w s).slot m = if m = n then { key := k, attr := a, binding := b, wrapId := w } else s.slot m := Tbl.get_set _ _ _ _
theorem finish_slot {k : CmdKey} {st d m : Nat} {s : State} : (finish k st d s).slot m = s.slot m := rfl
theorem started_kweRuns {h : CmdHdr} {s : State} : kweRuns (s.started h) = kweRuns s := by unfold kweRuns; simp
theorem started_entOk {h : CmdHdr} {s : State} : entOk (s.started h) = entOk s := by unfold entOk; simp
theorem firstFail_one {b : Bool} {r : Nat × Nat} : firstFail [(b, r)] = none ↔ b = true := by cases b <;> simp [firstFail]
theorem findAll_mem {α : Type} {t : Tbl α} {p : Nat → α → Bool} {n : Nat} : n ∈ t.findAll p ↔ ∃ v, (n, v) ∈ t.ents ∧ p n v = true := by
  unfold Tbl.findAll
  simp only [List.mem_map, List.mem_filter]
  constructor
  · rintro ⟨⟨a, b⟩, ⟨h1, h2⟩, rfl⟩; exact ⟨b, h1, h2⟩
  · rintro ⟨v, h1, h2⟩; exact ⟨(n, v), ⟨h1, h2⟩, rfl⟩
theorem look_listed {α : Type} {d : α} {l : List (Nat × α)} {n : Nat} (h : Tbl.look d l n ≠ d) : ∃ v, (n, v) ∈ l := by
  induction l with
  | nil => exact absurd rfl h
  | cons e l ih =>
    obtain ⟨k, v⟩ := e
    unfold Tbl.look at h
    split at h
    · rename_i hk; exact ⟨v, by rw [hk]; exact List.mem_cons_self ..⟩
    · obtain ⟨w, hw⟩ := ih h; exact ⟨w, List.mem_cons_of_mem _ hw⟩
theorem foldl_set_get {α : Type} [DecidableEq α] {x : α} (l : List Nat) (t : Tbl α) (m : Nat) : (l.foldl (fun t n => t.set n x) t).get m = if m ∈ l then x else t.get m := by
  induction l generalizing t with
  | nil => simp
  | cons a l ih =>
    rw [List.foldl_cons, ih, Tbl.get_set]
    by_cases h1 : m ∈ l
    · simp [h1]
    · simp [h1]
/-- Zeroizing one slot: it holds its reset value, no other slot changes, and no engine register loaded from it stays (R63). -/
theorem zeroizeSlots_one {s : State} (n : Nat) (hd : s.kst.dflt = {}) :
    (zeroizeSlots (fun m _ => m == n) s).slot n = {} ∧ (∀ m, m ≠ n → (zeroizeSlots (fun m _ => m == n) s).slot m = s.slot m) ∧
    (s.slot n ≠ {} → ∀ k ∈ (zeroizeSlots (fun m _ => m == n) s).engKeys, k.slot ≠ some n) := by
  have hl : s.slot n ≠ {} → n ∈ s.kst.findAll (fun m _ => m == n) := by
    intro h
    rw [← hd] at h
    obtain ⟨v, hv⟩ := look_listed (d := s.kst.dflt) (l := s.kst.ents) (n := n) h
    exact findAll_mem.2 ⟨v, hv, by simp⟩
  unfold zeroizeSlots State.slot
  dsimp only
  refine ⟨?_, ?_, ?_⟩
  · rw [foldl_set_get]
    split
    · rfl
    · rename_i h; exact Classical.byContradiction fun hc => h (hl hc)
  · intro m hm
    rw [foldl_set_get, if_neg]
    intro h
    obtain ⟨v, _, hv⟩ := findAll_mem.1 h
    exact hm (by simpa using hv)
  · intro h k hk hs
    have := (List.mem_filter.1 hk).2
    rw [hs] at this
    simp [hl h] at this
theorem started_pkeRuns {h : CmdHdr} {s : State} : pkeRuns (s.started h) = pkeRuns s := by unfold pkeRuns; simp
theorem started_out {h : CmdHdr} {s : State} : (s.started h).out = s.out := by simp
theorem started_free {h : CmdHdr} {s : State} : (s.started h).free = s.free := by simp
theorem updUsage_slice {n m : Nat} {f : Usage → Usage} {s : State} : (updUsage n f s).slice m = if m = n then { s.slice n with usage := f (s.slice n).usage } else s.slice m := by
  unfold updUsage updSlice State.slice; exact Tbl.get_upd _ _ _ _
theorem logUpdate_classCount (x : LogRec) (r : Rcv) : (logUpdate x r).1.classCount = r.classCount.upd x.cls (· + 1) := by
  unfold logUpdate
  simp only [apply_ite Prod.fst, apply_ite Rcv.classCount, ite_self]
theorem icuFold_rcv (l : List Nat) (s : State) : (l.foldl (fun s n => icuAssertRaw false n s) s).rcv = s.rcv := by
  induction l generalizing s with
  | nil => rfl
  | cons x l ih => rw [List.foldl_cons, ih]; simp
theorem obsAdd_rcv {i n : Nat} {s : State} : (obsAdd i n s).rcv = s.rcv := rfl
theorem logged_rcv {i : Nat} {y : Rcv × List Nat} {s : State} : (y.2.foldl (fun s n => icuAssertRaw false n s) (obsAdd i 1 { s with rcv := y.1 })).rcv = y.1 := icuFold_rcv _ _
theorem icuAssertRaw_rcv {p : Bool} {n : Nat} {s : State} : (icuAssertRaw p n s).rcv = s.rcv := by simp
theorem started_domain {h : CmdHdr} {s : State} (n : Nat) : (s.started h).domain n = s.domain n := domain_of_dom (by simp) n
theorem updPair_pair {n m : Nat} {f : Pair → Pair} {s : State} : (updPair n f s).pair m = if m = n then f (s.pair n) else s.pair m := by
  unfold updPair State.pair; exact Tbl.get_upd _ _ _ _
theorem updStream_stream {n m : Nat} {f : Stream → Stream} {s : State} : (updStream n f s).stream m = if m = n then f (s.stream n) else s.stream m := by
  unfold updStream State.stream; exact Tbl.get_upd _ _ _ _
theorem link_pair {s t : State} (h : t.link.pairs = s.link.pairs) (m : Nat) : t.pair m = s.pair m := by unfold State.pair; rw [h]
theorem link_stream {s t : State} (h : t.link.streams = s.link.streams) (m : Nat) : t.stream m = s.stream m := by unfold State.stream; rw [h]
theorem link_of {s t : State} (h : t.link = s.link) (m : Nat) : t.pair m = s.pair m ∧ t.stream m = s.stream m := ⟨link_pair (by rw [h]) m, link_stream (by rw [h]) m⟩
/-- Filling a list of distinct entries with streams. -/
theorem fill_fold {p sl peer port : Nat} {rx sav : Bool} (l : List (Nat × Nat)) (hn : (l.map (·.2)).Nodup) (s : State) :
    (∀ ce ∈ l, let x := (l.foldl (fun s ce => fillStream ce.2 p sl peer ce.1 port rx sav s) s).stream ce.2
      x.cls = ce.1 ∧ x.port = port ∧ x.rx = rx ∧ x.peer = peer ∧ x.slice = sl ∧ x.pair = p ∧ x.ctr = 0 ∧ (x.state = 1 ∨ x.state = 2)) ∧
    (∀ e, e ∉ l.map (·.2) → (l.foldl (fun s ce => fillStream ce.2 p sl peer ce.1 port rx sav s) s).stream e = s.stream e) := by
  induction l generalizing s with
  | nil => exact ⟨fun _ h => absurd h (List.not_mem_nil), fun _ _ => rfl⟩
  | cons a l ih =>
    rw [List.map_cons, List.nodup_cons] at hn
    obtain ⟨i1, i2⟩ := ih hn.2 (fillStream a.2 p sl peer a.1 port rx sav s)
    refine ⟨fun ce hc => ?_, fun e he => ?_⟩
    · rw [List.foldl_cons]
      rcases List.mem_cons.1 hc with rfl | hc
      · dsimp only
        rw [i2 _ hn.1]
        unfold fillStream
        dsimp only
        rw [updStream_stream, if_pos rfl]
        refine ⟨rfl, rfl, rfl, rfl, rfl, rfl, rfl, ?_⟩
        dsimp only
        split
        · exact .inr rfl
        · exact .inl rfl
      · exact i1 ce hc
    · rw [List.map_cons, List.mem_cons, not_or] at he
      rw [List.foldl_cons, i2 e he.2]
      unfold fillStream
      dsimp only
      rw [updStream_stream, if_neg he.1]
theorem makePair_streams {sl peer : Nat} {rx : Bool} {s : State} : (makePair sl peer rx s).1.link.streams = s.link.streams := by
  unfold makePair; split <;> rfl
theorem refreshNext_streams {p : Nat} {s : State} : (refreshNext p s).link.streams = s.link.streams := rfl
theorem rangeFrom_ge {a n x : Nat} (h : x ∈ rangeFrom a n) : a ≤ x := by
  induction n generalizing a with
  | zero => cases h
  | succ n ih =>
    rcases List.mem_cons.1 h with rfl | h
    · exact Nat.le_refl _
    · exact Nat.le_of_succ_le (ih h)
theorem rangeFrom_nodup (a n : Nat) : (rangeFrom a n).Nodup := by
  induction n generalizing a with
  | zero => exact List.nodup_nil
  | succ n ih =>
    unfold rangeFrom
    rw [List.nodup_cons]
    exact ⟨fun h => absurd (rangeFrom_ge h) (by omega), ih _⟩
theorem freeEntries_nodup {s : State} {sl q n : Nat} : (freeEntries s sl q n).Nodup :=
  List.Nodup.sublist (List.take_sublist _ _) (List.Nodup.sublist List.filter_sublist (rangeFrom_nodup _ _))
theorem zip_snd_sublist {α β : Type} (l : List α) (m : List β) : ((l.zip m).map (·.2)).Sublist m := by
  induction l generalizing m with
  | nil => simp
  | cons a l ih => cases m with
    | nil => simp
    | cons b m => simpa using ih m
theorem freeEntries_congr {s t : State} (h1 : t.link.streams = s.link.streams) (h2 : ∀ sl q, dieRange t sl q = dieRange s sl q) {sl q n : Nat} : freeEntries t sl q n = freeEntries s sl q n := by
  unfold freeEntries State.stream; rw [h1, h2]
theorem started_dieRange {h : CmdHdr} {s : State} (sl q : Nat) : dieRange (s.started h) sl q = dieRange s sl q := by unfold dieRange; rw [started_slice]
theorem started_link {h : CmdHdr} {s : State} : (s.started h).link = s.link := by simp
/-- Changing a list of entries by one idempotent change. -/
theorem foldl_updStream {f : Stream → Stream} (hf : ∀ x, f (f x) = f x) (l : List Nat) (s : State) (e : Nat) :
    (l.foldl (fun s e => updStream e f s) s).stream e = if e ∈ l then f (s.stream e) else s.stream e := by
  induction l generalizing s with
  | nil => simp
  | cons a l ih =>
    rw [List.foldl_cons, ih, updStream_stream]
    by_cases h1 : e ∈ l <;> by_cases h2 : e = a <;> simp [h1, h2, hf]
theorem foldl_updStream_rest {f : Stream → Stream} (l : List Nat) (s : State) :
    (l.foldl (fun s e => updStream e f s) s).cex = s.cex ∧ (l.foldl (fun s e => updStream e f s) s).link.closing = s.link.closing := by
  induction l generalizing s with
  | nil => exact ⟨rfl, rfl⟩
  | cons a l ih => exact ih (updStream a f s)
theorem foldl_updPair_not {f : Pair → Pair} (l : List Nat) (s : State) (n : Nat) (h : n ∉ l) : (l.foldl (fun s p => updPair p f s) s).pair n = s.pair n := by
  induction l generalizing s with
  | nil => rfl
  | cons a l ih =>
    rw [List.mem_cons, not_or] at h
    rw [List.foldl_cons, ih _ h.2, updPair_pair, if_neg h.1]
theorem foldl_updPair_mem {f : Pair → Pair} {P : Pair → Prop} (h1 : ∀ x, P (f x)) (l : List Nat) (s : State) (n : Nat) (h : n ∈ l ∨ P (s.pair n)) (h2 : ∀ x, P x → P (f x)) :
    P ((l.foldl (fun s p => updPair p f s) s).pair n) := by
  induction l generalizing s with
  | nil => rcases h with h | h
           · cases h
           · exact h
  | cons a l ih =>
    rw [List.foldl_cons]
    refine ih _ ?_
    rw [updPair_pair]
    by_cases hn : n = a
    · right; rw [if_pos hn]; exact h1 _
    · rw [if_neg hn]
      rcases h with h | h
      · rcases List.mem_cons.1 h with h | h
        · exact absurd h hn
        · exact .inl h
      · exact .inr h
theorem foldl_updPair_cex {f : Pair → Pair} (l : List Nat) (s : State) : (l.foldl (fun s p => updPair p f s) s).cex = s.cex := by
  induction l generalizing s with
  | nil => rfl
  | cons a l ih => exact ih (updPair a f s)
theorem foldl_updStream_pair {f : Nat → Stream → Stream} (l : List Nat) (s : State) (p : Nat) : (l.foldl (fun s e => updStream e (f e) s) s).pair p = s.pair p := by
  induction l generalizing s with
  | nil => rfl
  | cons a l ih => exact ih (updStream a (f a) s)
theorem Tbl.get_of_mem {α : Type} [DecidableEq α] {t : Tbl α} (h : t.wf = true) {i : Nat} {v : α} (hm : (i, v) ∈ t.ents) : t.get i = v := by
  have : ∀ (l : List (Nat × α)) (lo : Nat), Tbl.rising lo l = true → (∀ e ∈ l, lo ≤ e.1) ∧ ((i, v) ∈ l → Tbl.look t.dflt l i = v) := by
    intro l
    induction l with
    | nil => exact fun _ _ => ⟨fun _ h => absurd h (List.not_mem_nil), fun h => absurd h (List.not_mem_nil)⟩
    | cons e l ih =>
      intro lo hr
      obtain ⟨k, w⟩ := e
      simp only [Tbl.rising, Bool.and_eq_true, decide_eq_true_eq] at hr
      obtain ⟨a, b⟩ := ih _ hr.2
      refine ⟨fun e he => ?_, fun hm => ?_⟩
      · rcases List.mem_cons.1 he with rfl | he
        · exact hr.1
        · exact Nat.le_trans (by omega) (a e he)
      · unfold Tbl.look
        rcases List.mem_cons.1 hm with h | h
        · cases h; rw [if_pos rfl]
        · have := a _ h
          rw [if_neg (by simp at this; omega)]
          exact b h
  simp only [Tbl.wf, Bool.and_eq_true] at h
  exact (this _ 0 h.1).2 hm
theorem mem_of_get_ne {α : Type} {t : Tbl α} {i : Nat} (h : t.get i ≠ t.dflt) : ∃ v, (i, v) ∈ t.ents := look_listed h
theorem wait_link {f : Link → Link} {s : State} : ({ s with link := f s.link } : State).link = f s.link := rfl
theorem updPort_link {q : Nat} {f : Port → Port} {s : State} : (updPort q f s).out = s.out ∧ (∀ n, (updPort q f s).stream n = s.stream n) ∧ (updPort q f s).link.txOpen = s.link.txOpen := ⟨rfl, fun _ => rfl, rfl⟩
/-- A transmit invocation on a port that is not a GATEWAY, below the reserved counter (R262-R266, R281). -/
theorem sendGroup_plain {e n : Nat} {mark : Bool} {pl ds : Bytes} {s : State} (hm : (s.port (s.stream e).port).mode ≠ 1) (hc : (s.stream e).ctr < 2 ^ 40 - 2) :
    let x := s.stream e
    let d := s.domain x.slice
    let key := engKey s 4 (linkIx x.port x.pair x.epoch x.halyard)
    let iv := linkIv x.cls d.member x.peer x.ctr
    let gsh := gshBytes x.kph false mark x.cls (peerSlice d x.peer) d.member x.peer pl.length x.ctr n (d.attempt % 256)
    let cipher := Config.gcmCrypt key iv pl
    (sendGroup e n mark pl ds s).out = s.out ++ [.group x.port gsh ds cipher (gsh ++ leBytes 16 (Config.gcmTag key iv (gsh ++ ds) cipher).toNat)] ∧
    (∀ m, (sendGroup e n mark pl ds s).stream m = if m = e then { x with ctr := x.ctr + 1 } else s.stream m) ∧
    (sendGroup e n mark pl ds s).link.txOpen = s.link.txOpen := by
  intro x d key iv gsh cipher
  have hb : ((s.stream e).ctr + 1 == 2 ^ 40 - 1) = false := by
    rw [beq_eq_false_iff_ne]; omega
  obtain ⟨v, hv, hv2⟩ : ∃ v, putGroup x.port x.slice gsh ds cipher (gsh ++ leBytes 16 (Config.gcmTag key iv (gsh ++ ds) cipher).toNat) s = v ∧
      v = s.emit (.group x.port gsh ds cipher (gsh ++ leBytes 16 (Config.gcmTag key iv (gsh ++ ds) cipher).toNat)) :=
    ⟨_, rfl, if_neg (by simpa using hm)⟩
  have hL : sendGroup e n mark pl ds s = updUsage x.slice (fun u => { u with linkSent := u.linkSent + pl.length })
      (portCount x.port 4 1 (portCount x.port 6 (48 + pl.length) (updPair x.pair (fun p => { p with used := setBit p.used x.cls })
        (updStream e (fun y => { y with ctr := x.ctr + 1, state := y.state }) v)))) := by
    rw [← hv]
    unfold sendGroup
    simp only [hb, Bool.and_false, Bool.false_and, Bool.false_eq_true, if_false]
    rfl
  rw [hL]
  have hl : ∀ u f, (updUsage x.slice f u).out = u.out ∧ (updUsage x.slice f u).link = u.link := fun u f => ⟨rfl, rfl⟩
  have hp : ∀ q b c u, (portCount q b c u).out = u.out ∧ (portCount q b c u).link.streams = u.link.streams ∧ (portCount q b c u).link.txOpen = u.link.txOpen := fun q b c u => ⟨rfl, rfl, rfl⟩
  have hq : ∀ q f u, (updPair q f u).out = u.out ∧ (updPair q f u).link.streams = u.link.streams ∧ (updPair q f u).link.txOpen = u.link.txOpen := fun q b u => ⟨rfl, rfl, rfl⟩
  refine ⟨?_, fun m => ?_, ?_⟩
  · rw [(hl _ _).1, (hp _ _ _ _).1, (hp _ _ _ _).1, (hq _ _ _).1, hv2]
    rfl
  · have : ∀ u f, (updUsage x.slice f u).stream m = u.stream m := fun u f => rfl
    rw [this, link_stream (hp _ _ _ _).2.1, link_stream (hp _ _ _ _).2.1, link_stream (hq _ _ _).2.1, updStream_stream]
    have hvs : ∀ m, v.stream m = s.stream m := fun m => by rw [hv2]; rfl
    rw [hvs, hvs]
  · rw [(hl _ _).2, (hp _ _ _ _).2.2, (hp _ _ _ _).2.2, (hq _ _ _).2.2, hv2]
    rfl
theorem filter_mapIf {α : Type} {p : α → Bool} {f : α → α} {A B : α → Bool} {l : List α} (h : ∀ x ∈ l, (p x = true → A (f x) = false ∧ B x = false) ∧ (p x = false → A x = B x)) :
    (mapIf p f l).filter A = l.filter B := by
  induction l with
  | nil => rfl
  | cons a l ih =>
    have h2 := ih (fun x hx => h x (by simp [hx]))
    have h1 := h a (by simp)
    unfold mapIf at h2 ⊢
    rw [List.map_cons]
    by_cases hp : p a = true
    · rw [if_pos hp, List.filter_cons_of_neg (by simp [h1.1 hp]), List.filter_cons_of_neg (by simp [h1.1 hp]), h2]
    · have hp' : p a = false := by simpa using hp
      rw [if_neg hp, List.filter_cons, List.filter_cons, h1.2 hp', h2]
theorem finish_domain {k : CmdKey} {st d m : Nat} {s : State} : (finish k st d s).domain m = s.domain m := rfl
/-- Only queues of a command's own queue matter to what runs. -/
theorem foldl_queues {α : Type} {f : State → α → State} (hf : ∀ s x, (f s x).cex.queues = s.cex.queues) (l : List α) (s : State) : (l.foldl f s).cex.queues = s.cex.queues := by
  induction l generalizing s with
  | nil => rfl
  | cons x l ih => rw [List.foldl_cons, ih, hf]
theorem freePlough_queues {r : Nat} {s : State} : (freePlough r s).cex = s.cex := by
  unfold freePlough; split <;> rfl
theorem Tbl.mapEnts_get {α β : Type} [DecidableEq α] {f : Nat → α → α} {g : α → β} (hg : ∀ i v, g (f i v) = g v) (t : Tbl α) (j : Nat) : g ((t.mapEnts f).get j) = g (t.get j) := by
  unfold Tbl.mapEnts
  generalize t.ents.map (·.1) = l
  induction l generalizing t with
  | nil => rfl
  | cons x l ih =>
    rw [List.foldl_cons, ih, Tbl.get_upd]
    split
    · rename_i e; rw [hg, e]
    · rfl
theorem forget_flights {ks : List CmdKey} {k : CmdKey} {s : State} : ((forget ks s).q k).flights = (s.q k).flights := by
  unfold forget State.q
  dsimp only
  exact Tbl.mapEnts_get (f := fun _ q => { q with frames := q.frames.filter (fun f => !decide (f.key ∈ ks)) }) (g := Queue.flights) (fun _ _ => rfl) _ _
theorem Runs.endAll {k : CmdKey} {ks : List CmdKey} {st d : Nat} {s : State} (h : Runs k s) (hk : k ∉ ks) : Runs k (endAll ks st d s) := by
  unfold Machine.endAll
  exact (Runs.foldl_finish (key := id) ks h (fun x hx e => hk (e ▸ hx))).of_queues forget_flights
theorem inFlightOf_but {s : State} {sl : Nat} {k : CmdKey} : k ∉ inFlightOf s sl (some k) := by
  unfold inFlightOf
  intro h
  obtain ⟨l, hl, hk⟩ := List.mem_flatten.1 h
  obtain ⟨q, -, rfl⟩ := List.mem_map.1 hl
  obtain ⟨f, hf, rfl⟩ := List.mem_map.1 hk
  have := (List.mem_filter.1 hf).2
  simp at this
theorem Runs.logError {k : CmdKey} {c u sl r ky d : Nat} {s : State} (h : Runs k s) : Runs k (logError c u sl r ky d s) := h.of_cex (by simp)
/-- The state after an accepted header is that of the SEQUENCE noted (R110). -/
theorem accepts_state {s : State} {sl : Nat} {h : DomHdr} (ha : domAccepts s sl h = true) : (s.domain sl).state = 1 ∨ (s.domain sl).state = 2 ∨ (s.domain sl).state = 3 := by
  unfold domAccepts at ha
  simp at ha
  exact ha.1.1.1.1
theorem endAll_dom {ks : List CmdKey} {st d : Nat} {s : State} : (endAll ks st d s).dom = s.dom := by simp
theorem updSlice_slice {n m : Nat} {f : SliceRec → SliceRec} {s : State} : (updSlice n f s).slice m = if m = n then f (s.slice n) else s.slice m := by
  unfold updSlice State.slice; exact Tbl.get_upd _ _ _ _
theorem slice_of_srg {s t : State} (h : t.srg = s.srg) (m : Nat) : t.slice m = s.slice m := by unfold State.slice; rw [h]
theorem finish_slice {k : CmdKey} {st d m : Nat} {s : State} : (finish k st d s).slice m = s.slice m := rfl
/-- A write of an entry by its own command, with its firmware running and its principal admitted (R450). -/
theorem dictWrite_ok {who : Principal} {allowed : List Nat} {s : State} {f : State → State × Nat} (h1 : s.rcv.fwRunning = true) (h2 : mayWrite who allowed s = true) :
    dictWrite who false allowed s f = dictAnswer who (f s) := by
  unfold dictWrite
  rw [if_neg (by simp [h1]), if_neg (by simp), if_neg (by simp [h2])]
theorem dictWrite_early {who : Principal} {allowed : List Nat} {s : State} {f : State → State × Nat} (h1 : s.lcc.decoded = true) (h2 : mayWrite who allowed s = true) :
    dictWrite who true allowed s f = dictAnswer who (f s) := by
  unfold dictWrite
  rw [if_neg (by simp), if_neg (by simp [h1]), if_neg (by simp [h2])]
/-- What an accepted write answers (R450). -/
theorem dictAnswer_ok {who : Principal} {u : State} {st : Nat} : (dictAnswer who (u, st)).out = u.out ++ [.dictStatus who st] ∧
    (dictAnswer who (u, st)).ods = { u.ods with requests := u.ods.requests + 1, refused := u.ods.refused + b2n (st != 0) } ∧
    (dictAnswer who (u, st)).srg = u.srg := ⟨rfl, rfl, rfl⟩
theorem setTdi_get {sl st : Nat} {s : State} : (setTdi sl st s).tdi = s.tdi.set sl st := by
  unfold setTdi; dsimp only; split <;> rfl
theorem updSlice_const {n : Nat} {f : SliceRec → SliceRec} {s : State} : updSlice n (fun _ => f (s.slice n)) s = updSlice n f s := by
  unfold updSlice Tbl.upd State.slice; rfl
theorem fit_length {n : Nat} {b : Bytes} : (fit n b).length = n := by
  unfold fit slice
  simp only [List.length_append, List.length_take, List.length_drop, List.length_replicate, Nat.sub_zero, List.drop_zero]; omega
theorem fit_self {n : Nat} {b : Bytes} (h : b.length = n) : fit n b = b := by
  unfold fit slice
  dsimp only
  rw [List.drop_zero, List.take_of_length_le (by omega), h, Nat.sub_self]
  simp
theorem fit_fit {n : Nat} {b : Bytes} : fit n (fit n b) = fit n b := fit_self fit_length
theorem logUpdate_kills (x : LogRec) (r : Rcv) : (logUpdate x r).1.lastKilled = r.lastKilled ∧ (logUpdate x r).1.contextKills = r.contextKills := by
  unfold logUpdate
  simp only [apply_ite Prod.fst, apply_ite Rcv.lastKilled, apply_ite Rcv.contextKills, ite_self]
  exact ⟨trivial, trivial⟩
theorem tdiError_tdi {sl c : Nat} {s : State} : (tdiError sl c s).tdi.get sl = 3 := by
  unfold tdiError
  rw [show ∀ u, (dropEgress sl u).tdi = u.tdi from fun u => by simp, setTdi_get, Tbl.get_set_self]
theorem tdiError_atu {sl c : Nat} {s : State} : (tdiError sl c s).atu = s.atu := by simp
theorem copyLine_fold (sl : Nat) (lines : List (Nat × Line)) (hl : ∀ l ∈ lines, l.1 < 2 ^ 51) (s : State) :
    (lines.map (fun l => (BitVec.ofNat 52 (l.1 + 2 ^ 51), some l.2))).foldl (copyLine sl) (s, true) =
      ({ s with out := s.out ++ lines.map (fun l => .dma sl l.1 (fit 128 l.2)) }, true) := by
  induction lines generalizing s with
  | nil => simp
  | cons l ls ih =>
    rw [List.map_cons, List.foldl_cons]
    have h1 : l.1 < 2 ^ 51 := hl l List.mem_cons_self
    have : copyLine sl (s, true) (BitVec.ofNat 52 (l.1 + 2 ^ 51), some l.2) = (s.emit (.dma sl l.1 (fit 128 l.2)), true) := by
      unfold copyLine
      dsimp only
      have hn : (BitVec.ofNat 52 (l.1 + 2 ^ 51)).toNat = l.1 + 2 ^ 51 := by
        rw [BitVec.toNat_ofNat]; omega
      have hb : (BitVec.ofNat 52 (l.1 + 2 ^ 51)).getLsbD 51 = true := by
        rw [BitVec.getLsbD, hn, Nat.testBit_eq_decide_div_mod_eq]
        simp only [decide_eq_true_eq]
        omega
      rw [if_pos hb, hn, show (l.1 + 2 ^ 51) % 2 ^ 51 = l.1 by omega]
    rw [this, ih (fun x hx => hl x (List.mem_cons_of_mem _ hx))]
    simp [State.emit]
theorem giveWalkers_idle {n : Nat} {s : State} (h : s.xlt.waiting = []) : giveWalkers n s = s := by
  cases n with
  | zero => rfl
  | succ n =>
    unfold giveWalkers
    rw [h]
    split
    · rename_i h2; simp at h2
    · rfl
theorem settleInvalidations_one {s : State} {k : CmdKey} {sc set p b n : Nat} (hi : s.xlt.invalidating = [(k, sc, set, p, b, n)])
    (hw : walkInScope sc set p b n s = false) :
    settleInvalidations s = finish k 0 0 (dropScope sc set p b n { s with xlt := { s.xlt with invalidating := [] } }) := by
  unfold settleInvalidations
  rw [hi]
  simp only [List.filter_cons, hw, Bool.not_false, Bool.not_true, List.filter_nil, List.foldl_cons, List.foldl_nil, if_true]
  rfl
theorem settleInvalidations_none {s : State} (hi : s.xlt.invalidating = []) : settleInvalidations s = s := by
  unfold settleInvalidations
  rw [hi]
  simp only [List.filter_nil, List.foldl_nil]
  rw [← hi]
theorem restartWalks_idle {p : DmaReq → Bool} {s : State} (h : ∀ i, i < 8 → s.xlt.walkers.get i = none) (hw : s.xlt.waiting = []) : restartWalks p s = s := by
  unfold restartWalks
  extract_lets ws x u
  have hn : ws = [] := by
    refine List.filterMap_eq_nil_iff.2 fun a ha => ?_
    rw [h a (List.mem_range.1 ha)]
  have hu : u = s := by simp only [u, x, hn, List.foldl_nil, List.flatMap_nil, List.nil_append]
  rw [hu]
  exact giveWalkers_idle hw
theorem finish_out {k : CmdKey} {st d : Nat} {s : State} : (finish k st d s).out = s.out := by simp
/-- What an update of the two inputs keeps: of a source all but its eligibility time, of a pair all but its line and its bypass count. -/
theorem icuUpdate_src {α : Type} {g : IcuSrc → α} (hg : ∀ c e, g { c with eligSince := e } = g c) (p : Bool) (k : Nat) (s : State) :
    g ((icuUpdate p s).icu.src.get k) = g (s.icu.src.get k) := by
  refine Tbl.mapEnts_get (f := fun k c => if keyPair k c == p then (if c.modEn && eligible p (s.icu.pairs.get (b2n p)) k c then { c with eligSince := some (c.eligSince.getD s.now) } else { c with eligSince := none }) else c) (fun i v => ?_) _ k
  split
  · split <;> exact hg _ _
  · rfl
theorem icuUpdateBoth_src {α : Type} {g : IcuSrc → α} (hg : ∀ c e, g { c with eligSince := e } = g c) (k : Nat) (s : State) :
    g ((icuUpdateBoth s).icu.src.get k) = g (s.icu.src.get k) := (icuUpdate_src hg _ _ _).trans (icuUpdate_src hg _ _ _)
theorem icuUpdate_pair {α : Type} {g : IcuPair → α} (hg : ∀ c l m, g { c with line := l, modBypasses := m } = g c) (p : Bool) (k : Nat) (s : State) :
    g ((icuUpdate p s).icu.pairs.get k) = g (s.icu.pairs.get k) := by
  unfold icuUpdate
  dsimp only
  rw [Tbl.get_set]
  split
  · rename_i h; rw [h]; exact hg _ _ _
  · rfl
theorem icuUpdateBoth_pair {α : Type} {g : IcuPair → α} (hg : ∀ c l m, g { c with line := l, modBypasses := m } = g c) (k : Nat) (s : State) :
    g ((icuUpdateBoth s).icu.pairs.get k) = g (s.icu.pairs.get k) := (icuUpdate_pair hg _ _ _).trans (icuUpdate_pair hg _ _ _)
theorem icuUpdateBoth_out {s : State} : (icuUpdateBoth s).out = s.out := rfl
theorem updSrc_src {p : Bool} {n k : Nat} {f : IcuSrc → IcuSrc} {s : State} :
    (updSrc p n f s).icu.src.get k = if k = srcKey p n then f (s.icu.src.get k) else s.icu.src.get k := by
  unfold updSrc
  dsimp only
  rw [Tbl.get_upd]
  split
  · rename_i h; rw [h]
  · rfl
theorem updIcuPair_src {p : Bool} {f : IcuPair → IcuPair} {s : State} : (updIcuPair p f s).icu.src = s.icu.src := rfl
theorem updIcuPair_pair {p : Bool} {k : Nat} {f : IcuPair → IcuPair} {s : State} :
    (updIcuPair p f s).icu.pairs.get k = if k = b2n p then f (s.icu.pairs.get k) else s.icu.pairs.get k := by
  unfold updIcuPair
  dsimp only
  rw [Tbl.get_upd]
  split
  · rename_i h; rw [h]
  · rfl
theorem icuRaise_pairs {p : Bool} {n : Nat} {s : State} : (icuRaise p n s).icu.pairs = s.icu.pairs := rfl
/-- What every assertion keeps true of a source. -/
structure AssertKeeps (g : IcuSrc → Bool) : Prop where
  time : ∀ c e, g { c with eligSince := e } = g c
  set : ∀ c a b m st n, (a = c.pending ∨ a = true) → (b = c.input ∨ b = true) → g c = true → g { c with pending := a, input := b, masked := m, storm := st, stormCount := n } = true
theorem assertKeeps_input : AssertKeeps (fun c => c.input) := ⟨fun _ _ => rfl, fun _ _ _ _ _ _ _ hb h => hb.elim (fun e => e.trans h) id⟩
theorem assertKeeps_pending : AssertKeeps (fun c => c.pending) := ⟨fun _ _ => rfl, fun _ _ _ _ _ _ ha _ h => ha.elim (fun e => e.trans h) id⟩
theorem assertKeeps_latch : AssertKeeps (fun c => c.latch) := ⟨fun _ _ => rfl, fun _ _ _ _ _ _ _ _ h => h⟩
theorem assertKeeps_idle : AssertKeeps (fun c => !c.active) := ⟨fun _ _ => rfl, fun _ _ _ _ _ _ _ _ h => h⟩
/-- An assertion keeps what is set in a source, and the other fields. -/
theorem icuRaise_src {g : IcuSrc → Bool} (hg : AssertKeeps g) (p : Bool) (n k : Nat) (s : State) (h : g (s.icu.src.get k) = true) : g ((icuRaise p n s).icu.src.get k) = true := by
  unfold icuRaise
  dsimp only
  rw [Tbl.get_set]
  split
  · rename_i hk
    subst hk
    split
    · exact hg.set (s.icu.src.get (srcKey p n)) _ true _ _ _ (Or.inl rfl) (Or.inr rfl) h
    · exact hg.set (s.icu.src.get (srcKey p n)) true _ _ _ _ (Or.inr rfl) (Or.inl rfl) h
  · exact h
theorem traceOne_src {g : IcuSrc → Bool} (hg : AssertKeeps g) (a b c d k : Nat) (s : State) (h : g (s.icu.src.get k) = true) :
    g ((traceOne a b c d s).icu.src.get k) = true := by
  unfold traceOne
  extract_lets o seq r z stop
  have hz : z.icu = s.icu := by unfold z; rw [show ∀ r z, (traceStore r z).icu = z.icu from fun _ _ => by simp]
  split
  · exact h
  · split
    · rw [show ∀ q z, (traceDrop q z).icu = z.icu from fun _ _ => by simp]; exact h
    · split
      · rw [icuUpdateBoth_src hg.time]
        refine icuRaise_src hg _ _ _ _ ?_
        show g (z.icu.src.get k) = true
        rw [hz]; exact h
      · rw [hz]; exact h
theorem traceOne_pair {α : Type} {g : IcuPair → α} (hg : ∀ c l m, g { c with line := l, modBypasses := m } = g c) (a b c d k : Nat) (s : State) :
    g ((traceOne a b c d s).icu.pairs.get k) = g (s.icu.pairs.get k) := by
  unfold traceOne
  extract_lets o seq r z stop
  have hz : z.icu = s.icu := by unfold z; rw [show ∀ r z, (traceStore r z).icu = z.icu from fun _ _ => by simp]
  split
  · rfl
  · split
    · rw [show ∀ q z, (traceDrop q z).icu = z.icu from fun _ _ => by simp]
    · split
      · rw [icuUpdateBoth_pair hg]
        show g (z.icu.pairs.get k) = _
        rw [hz]
      · rw [hz]
theorem traceRec_src {g : IcuSrc → Bool} (hg : AssertKeeps g) (a b c d k : Nat) (s : State) (h : g (s.icu.src.get k) = true) :
    g ((traceRec a b c d s).icu.src.get k) = true := by
  unfold traceRec
  dsimp only
  split
  · exact traceOne_src hg _ _ _ _ _ _ (traceOne_src hg _ _ _ _ _ _ h)
  · exact traceOne_src hg _ _ _ _ _ _ h
theorem traceRec_pair {α : Type} {g : IcuPair → α} (hg : ∀ c l m, g { c with line := l, modBypasses := m } = g c) (a b c d k : Nat) (s : State) :
    g ((traceRec a b c d s).icu.pairs.get k) = g (s.icu.pairs.get k) := by
  unfold traceRec
  dsimp only
  split
  · rw [traceOne_pair hg, traceOne_pair hg]
  · exact traceOne_pair hg _ _ _ _ _ _
/-- An asserted source is pending: its input is up, or its pending bit is set (R468). -/
theorem icuAssertRaw_input (p : Bool) (n : Nat) (s : State) (h : isLevel n = true) : ((icuAssertRaw p n s).icu.src.get (srcKey p n)).input = true := by
  unfold icuAssertRaw
  dsimp only
  rw [icuUpdateBoth_src (g := fun c => c.input) (fun _ _ => rfl)]
  unfold icuRaise
  dsimp only
  rw [Tbl.get_set_self, if_pos h]
theorem icuAssertRaw_pending (p : Bool) (n : Nat) (s : State) (h : isLevel n = false) : ((icuAssertRaw p n s).icu.src.get (srcKey p n)).pending = true := by
  unfold icuAssertRaw
  dsimp only
  rw [icuUpdateBoth_src (g := fun c => c.pending) (fun _ _ => rfl)]
  unfold icuRaise
  dsimp only
  rw [Tbl.get_set_self, if_neg (by rw [h]; decide)]
/-- A fold over sources leaves the source that each step works on as the step does. -/
theorem foldl_src {f : State → Nat → State} {P Q : IcuSrc → Prop} {k n : Nat} (h1 : ∀ s, Q (s.icu.src.get k) → P ((f s n).icu.src.get k))
    (h2 : ∀ s m, P (s.icu.src.get k) → P ((f s m).icu.src.get k)) (h3 : ∀ s m, Q (s.icu.src.get k) → Q ((f s m).icu.src.get k)) (l : List Nat) (hn : n ∈ l) :
    ∀ s, Q (s.icu.src.get k) → P ((l.foldl f s).icu.src.get k) := by
  have keep : ∀ (l : List Nat) s, P (s.icu.src.get k) → P ((l.foldl f s).icu.src.get k) := by
    intro l
    induction l with
    | nil => exact fun _ h => h
    | cons x l ih => intro s h; exact ih _ (h2 _ _ h)
  induction l with
  | nil => cases hn
  | cons x l ih =>
    intro s hq
    rw [List.foldl_cons]
    rcases List.mem_cons.1 hn with rfl | h
    · exact keep _ _ (h1 _ hq)
    · exact ih h _ (h3 _ _ hq)
/-- What each step of a fold keeps, the fold keeps. -/
theorem foldl_keep {α : Type} {f : State → α → State} {P : State → Prop} (h : ∀ s n, P s → P (f s n)) (l : List α) : ∀ s, P s → P (l.foldl f s) := by
  induction l with
  | nil => exact fun _ h => h
  | cons x l ih => intro s hs; rw [List.foldl_cons]; exact ih _ (h _ _ hs)
theorem updCal_cal {e n : Nat} {f : Cal → Cal} {s : State} : (updCal e f s).mem.cal.get n = if n = e then f (s.mem.cal.get e) else s.mem.cal.get n := by
  unfold updCal; dsimp only; rw [Tbl.get_upd]
theorem pend_mem {n : Nat} {s : State} : (pend n s).mem = s.mem := by simp
theorem pend_now {n : Nat} {s : State} : (pend n s).now = s.now := by unfold State.now; simp
theorem raise_sen {rs : List Nat} {k c d : Nat} {s : State} : (raise rs k c d s).sen = s.sen := by simp
theorem meCount_out {e a n : Nat} {s : State} : (meCount e a n s).out = s.out := rfl
theorem emit_mem {s : State} {m : OutMsg} : (s.emit m).mem = s.mem := rfl
theorem emit_out {s : State} {m : OutMsg} : (s.emit m).out = s.out ++ [m] := rfl
theorem out_ext {f : State → State} {s u : State} (h : ∀ z, Kept z (f z)) (hu : u.out = s.out ++ l) : ∃ l', (f u).out = s.out ++ l ++ l' := by
  obtain ⟨l', hl⟩ := (h u).out
  exact ⟨l', by rw [← hl, hu]⟩
/-- What encrypting a line rests on. -/
theorem protect_congr {s t : State} {r ln mode v : Nat} {newer : Bool} {p : Line} (h1 : t.engKeys = s.engKeys) (h2 : keySet t r newer = keySet s r newer)
    (h3 : sideEpoch t r newer = sideEpoch s r newer) : protect t r newer ln mode v p = protect s r newer ln mode v p := by
  unfold protect engKey
  dsimp only
  rw [h1, h2, h3]
theorem plough_fields {r : Nat} {f : Plough → Plough} {q : Nat} {s : State} (hf : ∀ p, (f p).region = p.region) :
    ploughOf (updPlough r f s) q = (ploughOf s q).map (fun p => if p.region == r then f p else p) := by
  unfold ploughOf updPlough
  dsimp only
  induction s.mem.ploughs with
  | nil => rfl
  | cons a l ih =>
    unfold mapIf at ih ⊢
    rw [List.map_cons, List.find?_cons, List.find?_cons]
    have : (if (a.region == r) = true then f a else a).region = a.region := by split <;> simp [hf]
    rw [this]
    split
    · rfl
    · exact ih
theorem updParent_protect {r l i ln mode v q : Nat} {f : CLine → CLine} {newer : Bool} {p : Line} {s : State} :
    protect (updParent r l i f s) q newer ln mode v p = protect s q newer ln mode v p ∧ ∀ n, newSide (updParent r l i f s) q n = newSide s q n := by
  unfold updParent
  dsimp only
  split
  · have hp := plough_fields (r := r) (f := fun p => { p with old := mapIf (fun c => c.region == r && c.level == l + 1 && c.idx == i / 128) f p.old }) (q := q) (s := s) (fun _ => rfl)
    have hk : ∀ p : Plough, (if (p.region == r) = true then { p with old := mapIf (fun c => c.region == r && c.level == l + 1 && c.idx == i / 128) f p.old } else p).set = p.set ∧
        (if (p.region == r) = true then { p with old := mapIf (fun c => c.region == r && c.level == l + 1 && c.idx == i / 128) f p.old } else p).epoch = p.epoch ∧
        (if (p.region == r) = true then { p with old := mapIf (fun c => c.region == r && c.level == l + 1 && c.idx == i / 128) f p.old } else p).lf = p.lf := by
      intro p; split <;> exact ⟨rfl, rfl, rfl⟩
    refine ⟨protect_congr rfl ?_ ?_, ?_⟩
    · unfold keySet
      rw [hp]
      cases ploughOf s q with
      | none => rfl
      | some p => simp only [Option.map_some]; rw [(hk p).1]
    · unfold sideEpoch
      rw [hp]
      cases ploughOf s q with
      | none => rfl
      | some p => simp only [Option.map_some]; rw [(hk p).2.1]; rfl
    · intro n
      unfold newSide
      rw [hp]
      cases ploughOf s q with
      | none => rfl
      | some p => simp only [Option.map_some]; rw [(hk p).2.2]
  · exact ⟨rfl, fun _ => rfl⟩
/-- Every command under a key has completed. -/
def DoneIn (k : CmdKey) (s : State) : Prop := ∀ f ∈ (s.q k).flights, f.key = k → f.phase = .completed
theorem DoneIn.flight {k : CmdKey} {s : State} (h : DoneIn k s) : ∀ f, s.flight k = some f → f.phase = .completed := by
  intro g hg
  exact h g (List.mem_of_find?_eq_some hg) (by simpa using List.find?_some hg)
theorem DoneIn.of_queues {k : CmdKey} {s t : State} (h : DoneIn k s) (e : t.cex.queues = s.cex.queues) : DoneIn k t := by
  unfold DoneIn State.q at *
  rw [e]; exact h
theorem DoneIn.updQ {k : CmdKey} {n : Nat} {f : Queue → Queue} {s : State} (h : DoneIn k s) (hf : ∀ q, ∀ x ∈ (f q).flights, x ∈ q.flights) : DoneIn k (updQ n f s) := by
  intro x hx hk
  unfold State.q at hx
  rw [updQ_get] at hx
  split at hx
  · rename_i e
    exact h x (by unfold State.q; rw [e]; exact hf _ _ hx) hk
  · exact h x hx hk
theorem DoneIn.updFlight {k j : CmdKey} {g : Flight → Flight} {s : State} (h : DoneIn k s) (hk : ∀ f, (g f).key = f.key)
    (hg : ∀ f, f ∈ (s.q k).flights → f.key = k → j = k → (g f).phase = .completed) : DoneIn k (updFlight j g s) := by
  intro x hx hxk
  unfold State.q Machine.updFlight at hx
  rw [updQ_get] at hx
  split at hx
  · rename_i e
    obtain ⟨v, hv, ⟨hp, rfl⟩ | ⟨hp, rfl⟩⟩ := mem_mapIf hx
    · have hvk : v.key = k := (hk v).symm.trans hxk
      refine hg v (by unfold State.q; rw [e]; exact hv) hvk ?_
      exact (eq_of_beq hp).symm.trans hvk
    · exact h x (by unfold State.q; rw [e]; exact hv) hxk
  · exact h x hx hxk
theorem DoneIn.finish {k j : CmdKey} {st d : Nat} {s : State} (h : DoneIn k s) : DoneIn k (finish j st d s) := by
  unfold Machine.finish
  refine h.updFlight (fun f => by split <;> rfl) (fun f hf hk _ => ?_)
  rw [if_pos (by rw [h f hf hk]; rfl)]
  exact h f hf hk
theorem DoneIn.settle1 {k j : CmdKey} {s : State} (h : DoneIn k s) : DoneIn k (settle1 j s) := by
  unfold Machine.settle1
  split
  · exact h
  · rename_i f hf
    split
    · exact h
    · rename_i hw
      have hw' : DoneIn k (Machine.updFlight j (fun f => { f with phase := .ready, startedAt := s.now }) s) := by
          refine h.updFlight (fun _ => rfl) (fun v hv hk e => ?_)
          subst e
          have := h f (List.mem_of_find?_eq_some hf) (by simpa using List.find?_some hf)
          rw [this] at hw
          exact absurd (by decide) hw
      clear hw
      split
      · exact h
      · exact h.finish
      · exact (h.finish (j := j) (st := 1) (d := 0)).of_queues (by unfold chargeStart; split <;> rfl)
      · dsimp only
        split
        · exact hw'.of_queues (by simp)
        · exact hw'
theorem DoneIn.settle {k : CmdKey} {n : Nat} {s : State} (h : DoneIn k s) : DoneIn k (settle n s) := by
  unfold Machine.settle
  exact foldl_keep (P := DoneIn k) (fun s f hs => hs.settle1) _ _ h
theorem DoneIn.endLaunches {k : CmdKey} {n : Nat} {s : State} (h : DoneIn k s) : DoneIn k (endLaunches n s) := by
  unfold Machine.endLaunches
  refine foldl_keep (P := DoneIn k) (fun s f hs => ?_) _ _ h
  dsimp only
  refine DoneIn.updQ ?_ (fun _ _ hx => hx)
  split
  · exact (hs.finish (j := f.key)).of_queues rfl
  · exact hs.finish
theorem DoneIn.settleHolds {k : CmdKey} {s : State} (h : DoneIn k s) : DoneIn k (settleHolds s) := by
  unfold Machine.settleHolds
  refine foldl_keep (P := DoneIn k) (fun s f hs => ?_) _ _ (h.of_queues rfl)
  dsimp only
  refine DoneIn.finish ?_
  split
  · unfold wakeSync
    dsimp only
    refine DoneIn.of_queues (s := List.foldl _ _ _) ?_ rfl
    exact foldl_keep (P := DoneIn k) (fun s w hs => hs.finish) _ _ (hs.of_queues rfl)
  · exact hs
theorem DoneIn.postDue {k : CmdKey} {n : Nat} (l : List Flight) {s : State} (h : DoneIn k s) : DoneIn k (postDue n l s) := by
  induction l generalizing s with
  | nil => exact h
  | cons f l ih =>
    unfold Machine.postDue
    split
    · refine ih ?_
      have up : ∀ v, DoneIn k (Machine.updFlight f.key (fun f => { f with recState := v }) s) := fun v => h.updFlight (fun _ => rfl) (fun x hx hk _ => h x hx hk)
      split
      · exact h
      · split
        · exact (up 1).of_queues rfl
        · exact up 2
    · split
      · exact h
      · exact ih h
theorem retireFlights_sub (n : Nat) (q : Queue) : ∀ x ∈ (retireFlights n q).flights, x ∈ q.flights := by
  induction n generalizing q with
  | zero => exact fun _ h => h
  | succ n ih =>
    intro x hx
    unfold retireFlights at hx
    split at hx
    · rename_i f rest hq
      split at hx
      · rw [hq]; exact List.mem_cons_of_mem _ (ih _ _ hx)
      · exact hx
    · exact hx
theorem freeIfDrained_flights (q : Queue) : (freeIfDrained q).flights = q.flights := by unfold freeIfDrained; split <;> rfl
theorem DoneIn.drainQueue {k : CmdKey} {n : Nat} {s : State} (h : DoneIn k s) : DoneIn k (drainQueue n s) := by
  unfold Machine.drainQueue
  refine DoneIn.updQ (h.postDue _) (fun q x hx => ?_)
  rw [freeIfDrained_flights] at hx
  exact retireFlights_sub _ _ x hx
/-- A command fetched under a key is in flight. -/
def InFlight (k : CmdKey) (raw : BitVec 512) (s : State) : Prop := ∃ f ∈ (s.q k).flights, f.key = k ∧ f.raw = raw
theorem InFlight.of_queues {k : CmdKey} {raw : BitVec 512} {s t : State} (h : InFlight k raw s) (e : t.cex.queues = s.cex.queues) : InFlight k raw t := by
  unfold InFlight State.q at *
  rw [e]; exact h
theorem mapIf_mem {α : Type} {p : α → Bool} {f : α → α} {l : List α} {x : α} (h : x ∈ l) : (if p x then f x else x) ∈ mapIf p f l := by
  unfold mapIf
  exact List.mem_map_of_mem h
theorem InFlight.updFlight {k j : CmdKey} {raw : BitVec 512} {g : Flight → Flight} {s : State} (h : InFlight k raw s) (hg : ∀ f, (g f).key = f.key ∧ (g f).raw = f.raw) :
    InFlight k raw (updFlight j g s) := by
  obtain ⟨f, hf, hk, hr⟩ := h
  unfold InFlight State.q Machine.updFlight
  rw [updQ_get]
  split
  · rename_i e
    refine ⟨_, mapIf_mem (by unfold State.q at hf; rw [e] at hf; exact hf), ?_⟩
    split
    · exact ⟨(hg f).1.trans hk, (hg f).2.trans hr⟩
    · exact ⟨hk, hr⟩
  · exact ⟨f, hf, hk, hr⟩
theorem InFlight.finish {k j : CmdKey} {raw : BitVec 512} {st d : Nat} {s : State} (h : InFlight k raw s) : InFlight k raw (finish j st d s) := by
  unfold Machine.finish
  exact h.updFlight (fun f => by split <;> exact ⟨rfl, rfl⟩)
theorem InFlight.settle1 {k j : CmdKey} {raw : BitVec 512} {s : State} (h : InFlight k raw s) : InFlight k raw (settle1 j s) := by
  unfold Machine.settle1
  split
  · exact h
  · split
    · exact h
    · split
      · exact h
      · exact h.finish
      · exact (h.finish (j := j) (st := 1) (d := 0)).of_queues (by unfold chargeStart; split <;> rfl)
      · have key : InFlight k raw (Machine.updFlight j (fun f => { f with phase := .ready, startedAt := s.now }) s) := h.updFlight (fun _ => ⟨rfl, rfl⟩)
        split
        · exact key.of_queues (by simp)
        · exact key
theorem updFlight_get {α : Type} {g : Queue → α} (hg : ∀ q l, g { q with flights := l } = g q) {j : CmdKey} {f : Flight → Flight} {s : State} (n : Nat) :
    g ((updFlight j f s).cex.queues.get n) = g (s.cex.queues.get n) := by
  unfold updFlight
  rw [updQ_get]
  split
  · rename_i e; rw [e]; exact hg _ _
  · rfl
theorem settle1_get {α : Type} {g : Queue → α} (hg : ∀ q l, g { q with flights := l } = g q) {j : CmdKey} {s : State} (n : Nat) :
    g ((settle1 j s).cex.queues.get n) = g (s.cex.queues.get n) := by
  unfold settle1
  split
  · rfl
  · split
    · rfl
    · split
      · rfl
      · exact updFlight_get hg n
      · rw [show ∀ a b c (z : State), (chargeStart a b c z).cex = z.cex from fun a b c z => by unfold chargeStart; split <;> rfl]
        exact updFlight_get hg n
      · dsimp only
        split
        · rw [show ∀ m (z : State), (pend m z).cex = z.cex from fun m z => by simp]
          exact updFlight_get hg n
        · exact updFlight_get hg n
theorem insertBefore_mem {k : CmdKey} {f : Flight} (l : List Flight) : f ∈ insertBefore k f l := by
  induction l with
  | nil => exact List.mem_singleton.2 rfl
  | cons x l ih =>
    unfold insertBefore
    split
    · exact List.mem_cons_self
    · exact List.mem_cons_of_mem _ ih
theorem ite_both {α : Type} {P : α → Prop} {c : Prop} [Decidable c] {a b : α} (ha : P a) (hb : P b) : P (if c then a else b) := by
  split
  · exact ha
  · exact hb
theorem takeFetched_spec {k : CmdKey} {raw : BitVec 512} {s : State} (hc : ∀ c, fetchCheck s (s.cex.queues.get k.queue.toNat) k raw ≠ .fault c) :
    InFlight k raw (takeFetched k raw s) ∧ ((takeFetched k raw s).cex.queues.get k.queue.toNat).ci = (s.cex.queues.get k.queue.toNat).ci := by
  unfold takeFetched
  extract_lets n f chk u
  have i : InFlight k raw u := by
    refine ⟨f, ?_, rfl, rfl⟩
    unfold State.q u
    rw [updQ_q_self]
    dsimp only
    split
    · exact List.mem_append_right _ (List.mem_singleton.2 rfl)
    · exact insertBefore_mem _
  have c : (u.cex.queues.get n).ci = (s.cex.queues.get n).ci := by unfold u; rw [updQ_q_self]
  clear_value u
  have hc' : ∀ c, chk ≠ .fault c := hc
  clear_value chk
  rcases chk with _ | _ | c'
  rotate_left
  · exact ⟨i.finish, (updFlight_get (g := fun q => q.ci) (fun _ _ => rfl) n).trans c⟩
  · exact absurd rfl (hc' c')
  · dsimp only
    · have key : InFlight k raw (updFlight k (fun f => { f with phase := .ready }) u) := i.updFlight (fun _ => ⟨rfl, rfl⟩)
      have kc : ((updFlight k (fun f => { f with phase := .ready }) u).cex.queues.get n).ci = (s.cex.queues.get n).ci := (updFlight_get (g := fun q => q.ci) (fun _ _ => rfl) n).trans c
      refine ite_both (P := fun y => InFlight k raw y ∧ (y.cex.queues.get n).ci = (s.cex.queues.get n).ci) (ite_both (P := fun y => InFlight k raw y ∧ (y.cex.queues.get n).ci = (s.cex.queues.get n).ci) ?_ ⟨key, kc⟩) ?_
      · exact ⟨key.of_queues (by simp; rfl), by rw [show ∀ m (z : State), (pend m z).cex = z.cex from fun m z => by simp]; exact kc⟩
      · exact ⟨i.settle1, (settle1_get (g := fun q => q.ci) (fun _ _ => rfl) n).trans c⟩
/-- A field of a ring that the executor's own bookkeeping leaves alone. -/
def RingKeeps {α : Type} (g : EventRing → α) : Prop := ∀ r l u, g { r with waiting := l, unsignalled := u } = g r
theorem queueRecord_ring {α : Type} {g : EventRing → α} (hg : RingKeeps g) (n m : Nat) (w : EvWait) (s : State) : g ((queueRecord m w s).cex.rings.get n) = g (s.cex.rings.get n) := by
  unfold queueRecord
  dsimp only
  rw [Tbl.get_upd]
  split
  · rename_i e; subst e; exact hg _ _ _
  · rfl
theorem postDue_ring {α : Type} {g : EventRing → α} (hg : RingKeeps g) (n q : Nat) (l : List Flight) (s : State) : g ((postDue q l s).cex.rings.get n) = g (s.cex.rings.get n) := by
  induction l generalizing s with
  | nil => rfl
  | cons f l ih =>
    unfold postDue
    split
    · dsimp only
      rw [ih]
      split
      · rfl
      · split
        · exact queueRecord_ring hg _ _ _ _
        · rfl
    · split
      · rfl
      · exact ih _
theorem drainQueue_ring {α : Type} {g : EventRing → α} (hg : RingKeeps g) (n q : Nat) (s : State) : g ((drainQueue q s).cex.rings.get n) = g (s.cex.rings.get n) := postDue_ring hg n q _ s
theorem postDue_out (q : Nat) (l : List Flight) (s : State) : (postDue q l s).out = s.out := by
  induction l generalizing s with
  | nil => rfl
  | cons f l ih =>
    unfold postDue
    split
    · dsimp only
      rw [ih]
      split
      · rfl
      · split <;> rfl
    · split
      · rfl
      · exact ih _
theorem drainQueue_out (q : Nat) (s : State) : (drainQueue q s).out = s.out := postDue_out q _ s
theorem fwdDone_ring (w : EvWait) (st : Nat) (s : State) : (fwdDone w st s).cex = s.cex ∧ (fwdDone w st s).out = s.out := by
  unfold fwdDone
  split <;> exact ⟨rfl, rfl⟩
theorem msix_rings (v : Nat) (s : State) : (msix v s).cex.rings = s.cex.rings := by
  unfold msix
  split <;> rfl
theorem signalRing_ring {α : Type} {g : EventRing → α} (hg : RingKeeps g) (n m : Nat) (s : State) : g ((signalRing m s).cex.rings.get n) = g (s.cex.rings.get n) := by
  unfold signalRing
  dsimp only
  rw [msix_rings]
  show g ((s.cex.rings.set m _).get n) = _
  rw [Tbl.get_set]
  split
  · rename_i e; subst e; exact hg _ _ _
  · rfl
theorem signalRing_out (n : Nat) (s : State) : ∃ l, (signalRing n s).out = s.out ++ l := by
  unfold signalRing msix
  dsimp only
  split
  · exact ⟨[], (List.append_nil _).symm⟩
  · exact ⟨_, rfl⟩
theorem writeRecord_spec (n : Nat) (w : EvWait) (s : State) :
    (∃ l, (writeRecord n w s).out = s.out ++ [.event n ((s.cex.rings.get n).prod % 4096) w.record ((s.cex.rings.get n).prod / 4096 % 2 == 0) (s.cex.rings.get n).lost] ++ l) ∧
    ∀ {α : Type} {g : EventRing → α}, RingKeeps g → (∀ r a b, g { r with posted := a, oldest := b } = g r) →
      g ((writeRecord n w s).cex.rings.get n) = g { s.cex.rings.get n with prod := ((s.cex.rings.get n).prod + 1) % 2 ^ 32, lost := false } := by
  unfold writeRecord
  dsimp only
  generalize hu : ({ s.emit (OutMsg.event n ((s.cex.rings.get n).prod % 4096) w.record ((s.cex.rings.get n).prod / 4096 % 2 == 0) (s.cex.rings.get n).lost) with cex := _ } : State) = u
  have uo : u.out = s.out ++ [.event n ((s.cex.rings.get n).prod % 4096) w.record ((s.cex.rings.get n).prod / 4096 % 2 == 0) (s.cex.rings.get n).lost] := by rw [← hu]; rfl
  have ur : ∀ {α : Type} {g : EventRing → α}, RingKeeps g → (∀ r a b, g { r with posted := a, oldest := b } = g r) →
      g (u.cex.rings.get n) = g { s.cex.rings.get n with prod := ((s.cex.rings.get n).prod + 1) % 2 ^ 32, lost := false } := by
    intro α g hg ho
    rw [← hu]
    show g ((s.cex.rings.set n _).get n) = _
    rw [Tbl.get_set_self]
    rw [← hg { s.cex.rings.get n with prod := ((s.cex.rings.get n).prod + 1) % 2 ^ 32, lost := false } (s.cex.rings.get n).waiting ((s.cex.rings.get n).unsignalled + b2n w.signal), ← ho { s.cex.rings.get n with prod := ((s.cex.rings.get n).prod + 1) % 2 ^ 32, lost := false, waiting := (s.cex.rings.get n).waiting, unsignalled := (s.cex.rings.get n).unsignalled + b2n w.signal } ((s.cex.rings.get n).posted + 1) _]
  clear hu
  generalize hv : fwdDone w 1 _ = v
  have vo : v.out = u.out := by
    rw [← hv, (fwdDone_ring w 1 _).2]
    split
    · exact drainQueue_out _ _
    · rfl
  have vr : ∀ {α : Type} {g : EventRing → α}, RingKeeps g → g (v.cex.rings.get n) = g (u.cex.rings.get n) := by
    intro α g hg
    rw [← hv, (fwdDone_ring w 1 _).1]
    split
    · exact drainQueue_ring hg _ _ _
    · rfl
  clear hv
  split
  · obtain ⟨l, hl⟩ := signalRing_out n v
    exact ⟨⟨l, by rw [hl, vo, uo]⟩, fun hg ho => by rw [signalRing_ring hg, vr hg, ur hg ho]⟩
  · exact ⟨⟨[], by rw [vo, uo, List.append_nil]⟩, fun hg ho => by rw [vr hg, ur hg ho]⟩
theorem postRing_cons (n : Nat) (s : State) : ((postRing n none s).cex.rings.get n).cons = (s.cex.rings.get n).cons := by
  have hk : RingKeeps (fun r : EventRing => r.cons) := fun _ _ _ => rfl
  unfold postRing
  split
  · rfl
  · unfold postOne
    dsimp only
    have kp : ∀ l, ((({ s with cex := { s.cex with rings := s.cex.rings.upd n (fun r => { r with waiting := l }) } } : State)).cex.rings.get n).cons = (s.cex.rings.get n).cons := by
      intro l
      dsimp only
      rw [Tbl.get_upd_self]
    split
    · exact kp _
    · split
      · unfold dropRecord
        dsimp only
        rw [(fwdDone_ring _ _ _).1]
        show ((obsAdd 85 1 _).cex.rings.get n).cons = _
        rw [show ∀ a b (z : State), (obsAdd a b z).cex = z.cex from fun _ _ _ => rfl]
        dsimp only
        rw [Tbl.get_upd_self, Tbl.get_upd_self]
      · rw [(writeRecord_spec n _ _).2 hk (fun _ _ _ => rfl)]
        exact kp _
/-- A part of the recovery sequencer's state that logging leaves alone. -/
def LogKeeps {α : Type} (g : Rcv → α) : Prop := ∀ x r, g (logUpdate x r).1 = g r
theorem LogKeeps.of {α : Type} {g : Rcv → α} (h : ∀ (r : Rcv) a b c d e f i, g { r with classCount := a, firstError := b, firstFatal := c, log := d, produced := e, overflow := f, dropped := i } = g r) : LogKeeps g := by
  intro x r
  have e : ∃ a b c d e f i, (logUpdate x r).1 = { r with classCount := a, firstError := b, firstFatal := c, log := d, produced := e, overflow := f, dropped := i } := by
    unfold logUpdate
    extract_lets c1 c2 r1 src i r2
    refine ite_both (P := fun y : Rcv × List Nat => ∃ a b c d e f i, y.1 = { r with classCount := a, firstError := b, firstFatal := c, log := d, produced := e, overflow := f, dropped := i }) ?_ ?_
    · exact ⟨r1.classCount, r1.firstError, r1.firstFatal, _, r.produced, r.overflow, r.dropped, rfl⟩
    · refine ite_both (P := fun y : Rcv × List Nat => ∃ a b c d e f i, y.1 = { r with classCount := a, firstError := b, firstFatal := c, log := d, produced := e, overflow := f, dropped := i }) ?_ ?_
      · exact ⟨r1.classCount, r1.firstError, r1.firstFatal, r.log, r.produced, true, _, rfl⟩
      · exact ⟨r1.classCount, r1.firstError, r1.firstFatal, r2.log, r2.produced, r.overflow, r.dropped, rfl⟩
  obtain ⟨a, b, c, d, j, f, i, e⟩ := e
  rw [e]
  exact h r a b c d j f i
theorem requestChipReset_eq {c : Nat} {s : State} (h1 : s.rcv.chipResetReq = false) (h2 : s.rcv.powerCycleReq = false) :
    ∃ z, z.rcv = (logRung 3 52 0xFF { s with rcv := { s.rcv with chipResetReq := true, pendingCause := c } }).rcv ∧ requestChipReset c s = (List.range 16).foldl (fun s sl => originate sl 9 0 s) z := by
  have m : ∀ v (y : State), (msix v y).rcv = y.rcv := fun v y => by simp
  have e : requestChipReset c s = (List.range 16).foldl (fun s sl => originate sl 9 0 s) ((msix ((logRung 3 52 0xFF { s with rcv := { s.rcv with chipResetReq := true, pendingCause := c } }).cex.rings.get 16).vector
    (logRung 3 52 0xFF { s with rcv := { s.rcv with chipResetReq := true, pendingCause := c } })).emit (.ibi 0x9E)) := if_neg (by rw [h1, h2]; decide)
  generalize logRung 3 52 0xFF { s with rcv := { s.rcv with chipResetReq := true, pendingCause := c } } = y at e
  exact ⟨_, by rw [show ∀ o (z : State), (z.emit o).rcv = z.rcv from fun _ _ => rfl, m], e⟩
theorem keeps_hist : LogKeeps (·.hist) := LogKeeps.of (g := (·.hist)) (fun _ _ _ _ _ _ _ _ => rfl)
theorem keeps_chipResetReq : LogKeeps (·.chipResetReq) := LogKeeps.of (fun _ _ _ _ _ _ _ _ => rfl)
theorem keeps_powerCycleReq : LogKeeps (·.powerCycleReq) := LogKeeps.of (fun _ _ _ _ _ _ _ _ => rfl)
theorem keeps_pendingCause : LogKeeps (·.pendingCause) := LogKeeps.of (fun _ _ _ _ _ _ _ _ => rfl)
theorem keeps_resetCounts : LogKeeps (·.resetCounts) := LogKeeps.of (fun _ _ _ _ _ _ _ _ => rfl)
theorem keeps_wdExpiries : LogKeeps (·.wdExpiries) := LogKeeps.of (fun _ _ _ _ _ _ _ _ => rfl)
theorem keeps_dump : LogKeeps (·.dump) := LogKeeps.of (fun _ _ _ _ _ _ _ _ => rfl)
theorem keeps_dumpsTaken : LogKeeps (·.dumpsTaken) := LogKeeps.of (fun _ _ _ _ _ _ _ _ => rfl)
theorem keeps_dumpsDropped : LogKeeps (·.dumpsDropped) := LogKeeps.of (fun _ _ _ _ _ _ _ _ => rfl)
theorem keeps_stall : LogKeeps (·.hostStallAt) := LogKeeps.of (fun _ _ _ _ _ _ _ _ => rfl)
theorem takeDump_logKeeps {u r : Nat} {us : List (BitVec 256)} {s : State} : (takeDump u r us s).rcv.wdExpiries = s.rcv.wdExpiries ∧ (takeDump u r us s).rcv.classCount = s.rcv.classCount ∧
    (takeDump u r us s).rcv.chipResetReq = s.rcv.chipResetReq ∧ (takeDump u r us s).rcv.powerCycleReq = s.rcv.powerCycleReq ∧ (takeDump u r us s).rcv.dump.isSome = true ∧
    (s.rcv.dump = none → (takeDump u r us s).rcv.dumpsTaken = s.rcv.dumpsTaken + 1) ∧
    (s.rcv.dump ≠ none → (takeDump u r us s).rcv.dump = s.rcv.dump ∧ (takeDump u r us s).rcv.dumpsDropped = s.rcv.dumpsDropped + 1) := by
  unfold takeDump
  cases hd : s.rcv.dump with
  | none =>
    rw [if_neg (by decide)]
    exact ⟨rfl, rfl, rfl, rfl, rfl, fun _ => rfl, fun h => absurd rfl h⟩
  | some y =>
    rw [if_pos (by rfl)]
    exact ⟨rfl, rfl, rfl, rfl, by rw [show ∀ n, ({ s.rcv with dumpsDropped := n } : Rcv).dump = s.rcv.dump from fun _ => rfl, hd]; rfl, fun h => by (cases h), fun _ => ⟨hd, rfl⟩⟩
theorem expire_def {cls unit sl ctx : Nat} {us : List (BitVec 256)} {s : State} :
   expire cls unit sl ctx us s = (let r := if s.rcv.chipResetReq || s.rcv.powerCycleReq then (5, 0) else chooseRung unit sl ctx s
     applyRung r.1 r.2 unit sl ctx (takeDump unit r.1 us (logError cls unit (if sl < 16 then sl else 0xFF) 0 0 0 (pend 432 { s with rcv := { s.rcv with wdExpiries := s.rcv.wdExpiries + 1 } })))) := rfl
theorem chipResetCause_spec (c : Nat) (s : State) : (chipResetCause c s).rcv = { retained s.rcv with lastCause := c } ∧ (chipResetCause c s).cex = State.reset.cex ∧ (chipResetCause c s).kst = State.reset.kst ∧
    (chipResetCause c s).vault = s.vault := ⟨rfl, rfl, rfl, rfl⟩
theorem pend_sen {n : Nat} {s : State} : (pend n s).sen = s.sen := by simp
theorem logError_sen {a b c d e f : Nat} {s : State} : (logError a b c d e f s).sen = s.sen := by simp
theorem vaultTrigger_sen {c : Nat} {s : State} : (vaultTrigger c s).sen = s.sen := by simp
theorem senCount_spec (s : State) : (senCount s).sen.units = s.sen.units ∧ (senCount s).out = s.out ∧ (senCount s).rcv = s.rcv ∧ (senCount s).sen.supplyExcursions = s.sen.supplyExcursions := by
  unfold senCount
  dsimp only
  split
  · refine ⟨by rw [vaultTrigger_sen], by simp, by simp, by rw [vaultTrigger_sen]⟩
  · exact ⟨rfl, rfl, rfl, rfl⟩
theorem replays_out (l : List Nat) (s : State) : (l.foldl (fun s u => (obsAdd 80 1 s).emit (.replay u)) s).out = s.out ++ l.map .replay ∧ (l.foldl (fun s u => (obsAdd 80 1 s).emit (.replay u)) s).sen = s.sen := by
  induction l generalizing s with
  | nil => exact ⟨(List.append_nil _).symm, rfl⟩
  | cons x l ih =>
    rw [List.foldl_cons]
    obtain ⟨a, b⟩ := ih ((obsAdd 80 1 s).emit (.replay x))
    exact ⟨a.trans (List.append_assoc _ _ _), b⟩
theorem updMany_get {α : Type} [DecidableEq α] (is : List Nat) (f : α → α) (hf : ∀ x, f (f x) = f x) (t : Tbl α) (u : Nat) : (t.updMany is (fun _ x => f x)).get u = if u ∈ is then f (t.get u) else t.get u := by
  unfold Tbl.updMany
  induction is generalizing t with
  | nil => simp
  | cons x l ih =>
    rw [List.foldl_cons, ih, Tbl.get_upd]
    by_cases hx : u = x
    · subst hx
      rw [if_pos rfl, if_pos List.mem_cons_self, hf, ite_self]
    · rw [if_neg hx]
      by_cases hl : u ∈ l
      · rw [if_pos hl, if_pos (List.mem_cons_of_mem _ hl)]
      · rw [if_neg hl, if_neg (fun h => (List.mem_cons.1 h).elim hx hl)]
theorem vaultTrigger_spec (c : Nat) (s : State) : if s.vault.state = 2 then (vaultTrigger c s).vault.cause = setBit s.vault.cause c else (vaultTrigger c s).vault.trigger = setBit s.vault.trigger c := by
  unfold vaultTrigger
  by_cases h : s.vault.state = 2
  · rw [if_pos h, if_pos (by simp [h])]
  · rw [if_neg h, if_neg (by simp [h])]
theorem vaultTrigger_of {c : Nat} {s z : State} (hs : z.vault.state = s.vault.state) (hc : z.vault.cause = s.vault.cause) (ht : z.vault.trigger = s.vault.trigger) :
    if s.vault.state = 2 then (vaultTrigger c z).vault.cause = setBit s.vault.cause c else (vaultTrigger c z).vault.trigger = setBit s.vault.trigger c := by
  have := vaultTrigger_spec c z
  rw [hs, hc, ht] at this
  exact this
theorem vaultTrigger_miss {c : Nat} {z : State} : (vaultTrigger c z).vault.mesh = z.vault.mesh ∧ (vaultTrigger c z).vault.meshMiss = z.vault.meshMiss ∧ (vaultTrigger c z).vault.vbatMv = z.vault.vbatMv ∧
    (vaultTrigger c z).vault.coldMiss = z.vault.coldMiss ∧ (vaultTrigger c z).vault.hotMiss = z.vault.hotMiss := by
  unfold vaultTrigger
  dsimp only
  split <;> exact ⟨rfl, rfl, rfl, rfl, rfl⟩
/-- Every slot is empty. -/
def NoSlots (s : State) : Prop := ∀ n, s.slot n = {}
theorem NoSlots.of {s t : State} (h : NoSlots s) (e : t.kst = s.kst) : NoSlots t := by
  unfold NoSlots State.slot at *
  rw [e]; exact h
theorem zeroes_get (l : List Nat) (t : Tbl Slot) (n : Nat) : (l.foldl (fun t n => t.set n {}) t).get n = if n ∈ l then {} else t.get n := by
  induction l generalizing t with
  | nil => simp
  | cons x l ih =>
    rw [List.foldl_cons, ih, Tbl.get_set]
    by_cases h : n ∈ l
    · rw [if_pos h, if_pos (List.mem_cons_of_mem _ h)]
    · rw [if_neg h]
      by_cases e : n = x
      · rw [if_pos e, if_pos (by rw [e]; exact List.mem_cons_self)]
      · rw [if_neg e, if_neg (fun hh => (List.mem_cons.1 hh).elim e h)]
theorem NoSlots.zeroizeSlots {p : Nat → Slot → Bool} {s : State} (h : NoSlots s) : NoSlots (zeroizeSlots p s) := by
  intro n
  unfold State.slot Machine.zeroizeSlots
  dsimp only
  rw [zeroes_get]
  split
  · rfl
  · exact h n
theorem tbl_get_of_not_mem {α : Type} (t : Tbl α) (n : Nat) (h : n ∉ t.ents.map (·.1)) : t.get n = t.dflt := by
  unfold Tbl.get
  generalize t.ents = l at h
  induction l with
  | nil => rfl
  | cons x l ih =>
    rw [List.map_cons, List.mem_cons, not_or] at h
    unfold Tbl.look
    rw [if_neg (fun e => h.1 e.symm), ih h.2]
theorem zeroizeAll {s : State} (h : s.kst.dflt = {}) : NoSlots (zeroizeSlots (fun _ _ => true) s) := by
  intro n
  unfold State.slot zeroizeSlots
  dsimp only
  rw [zeroes_get]
  split
  · rfl
  · rename_i hn
    rw [tbl_get_of_not_mem, h]
    unfold Tbl.findAll at hn
    simpa using hn
theorem NoSlots.silenceSlice {sl : Nat} {s : State} (h : NoSlots s) : NoSlots (silenceSlice sl s) := by
  have z : NoSlots (zeroizeSlice sl s) := by
    unfold zeroizeSlice
    dsimp only
    refine NoSlots.of (s := Machine.zeroizeSlots (fun n _ => inPartition s sl n) s) h.zeroizeSlots ?_
    simp
  unfold Machine.silenceSlice
  dsimp only
  split
  · exact z
  · exact z.of (by simp)
theorem clearVolatileKeys_slots {u : State} (h : u.kst.dflt = {}) : NoSlots (clearVolatileKeys u) := by
  have z1 : NoSlots (zeroizeSlots (fun _ _ => true) u) := zeroizeAll h
  have key : ∀ w, NoSlots w → NoSlots ((List.range 16).foldl (fun s sl => if (s.ideOf sl).secure then tdiError sl 2 (leaveSecure sl s) else s) ((List.range 16).foldl (fun s sl => silenceSlice sl s) w)) := by
    intro w hw
    refine foldl_keep (P := NoSlots) (fun z x hz => ?_) _ _ (foldl_keep (P := NoSlots) (fun z x hz => hz.silenceSlice) _ _ hw)
    split
    · exact hz.of (by simp)
    · exact hz
  unfold clearVolatileKeys
  extract_lets s1 a b s2 s3 s4
  have h2 : NoSlots s2 := z1.of rfl
  have h4 : NoSlots s4 := key s2 h2
  clear_value s4
  exact h4.of rfl
end Sys2Proof.Machine
end

