-- ==== Sys2Proof/Tests/States.lean ====
section
/-!
SUPPORT. Small states for the tests, and tests in Bool of the words of Sys2Proof/Safety.lean that quantify over the state's tables.
-/
namespace Sys2Proof.Tests
open Sys2Proof Sys2Proof.Machine

/-- A command key of queue 0, ring index 0. -/
def key0 : CmdKey := { queue := 0, index := 0, path := [] }
/-- A header with nothing set but its slice. -/
def hdr (sl : BitVec 8) : CmdHdr := { key := key0, flags := 0, ctx := 0, cond := 0, dep := 0, cookie := 0, slice := sl }
/-- A header with a context. -/
def hc (sl : BitVec 8) (ctx : BitVec 16) : CmdHdr := { hdr sl with ctx }
/-- A line of zeros. -/
def zeroLine : Line := List.replicate 128 0

/-! ### States -/

/-- A command in flight in a phase. -/
def flight (h : CmdHdr) (op : Nat) (ops : List (Nat × Nat × Nat)) (ph : Phase) : Flight :=
  { key := h.key, raw := encodeCmd h op ops, phase := ph, status := 0, detail := 0, startedAt := 0, recState := 0, override := none }
/-- A state with the command as the one flight of the executor's own queue 0. -/
def withF (h : CmdHdr) (op : Nat) (ops : List (Nat × Nat × Nat)) (ph : Phase) (s : State) : State :=
  updQ h.key.queue.toNat (fun q => { q with state := 1, owner := 16, flights := [flight h op ops ph] }) s
/-- The command is ready to start. -/
def ready (h : CmdHdr) (op : Nat) (ops : List (Nat × Nat × Nat)) (s : State) : State := withF h op ops .ready s
/-- The command has started. -/
def running (h : CmdHdr) (op : Nat) (ops : List (Nat × Nat × Nat)) (s : State) : State := withF h op ops .running s

/-- A block whose firmware runs, with its entropy source and its ports. -/
def up : State := { State.reset with
  rcv := { State.reset.rcv with fwRunning := true }, lcc := { decoded := true, state := 1 }, boot := { inReset := false }
  clk := { compute := 5000000000, io0 := 5000000000, io1 := 5000000000, vault := 7000000000, running := true, vaultRunning := true }
  ent := { state := 0, instantiated := true, drbg := List.replicate 48 1 }
  link := { ports := (List.range 18).foldl (fun t p => t.set p { mode := 0 }) (Tbl.const {}) }
  pins := { rails := 63 } }
/-- Slice 1 is ACTIVE, with context 0x21. -/
def slice1 (s : State) : State :=
  let s := updSlice 1 (fun _ => { state := 1, pasids := [5], published := true, keys := (32, 64), regions := (0, 64), streams0 := (0, 64), streams1 := (64, 64), graphKib := (0, 64), wheel := Tbl.const 512, ways := Tbl.const 4, shares := Tbl.const 64 }) s
  { s with cex := { s.cex with bindings := s.cex.bindings.set 0x21 (some { slice := 1, pasid := 5 }) } }
/-- A domain's link key. -/
def dlkSlot : Slot := { key := 77, attr := attrWord 55 0 1 1 1 false false false, binding := bindWord 0 0xFFFF 0 }
/-- Slice 1 is member `me` of a domain of three under member 0, in a state of the domain, with one class-15 stream each way on port 0. -/
def inDom (me : Nat) (st : Nat) (s : State) : State :=
  let s := updDom 1 (fun d => { d with state := st, id := 7, attempt := 1, member := me, masthead := 0, count := 3, list := List.replicate 192 0, dlk := some 33, drk := some 32, parent := if me = 0 then none else some 0 }) s
  let s := { s with kst := s.kst.set 33 dlkSlot }
  let p := if me = 0 then 1 else 0
  let s := updPair 0 (fun _ => { slice := 1, peer := p, rx := false, valid := true, ports := 1, epoch := 3, next := true }) s
  let s := updPair 1 (fun _ => { slice := 1, peer := p, rx := true, valid := true, ports := 1, epoch := 3, next := true }) s
  let s := updStream 0 (fun _ => { ctr := 5, epoch := 3, pair := 0, port := 0, cls := 15, rx := false, peer := p, slice := 1, state := 1 }) s
  updStream 1 (fun _ => { ctr := 9, epoch := 3, pair := 1, port := 0, cls := 15, rx := true, peer := p, slice := 1, state := 1 }) s
/-- Slice 1 is member 1 of 3, and the masthead; both LIVE. -/
def base : State := inDom 1 3 (slice1 up)
def base0 : State := inDom 0 3 (slice1 up)
/-- The header of a domain message. -/
def dh (sender me : Nat) : DomHdr := { domain := 7, attempt := 1, sender := BitVec.ofNat 16 sender, receiver := BitVec.ofNat 16 me, sequence := 1 }
/-- A whole message stands at the firmware. -/
def arrive (sl : Nat) (h : DomHdr) (ty : Nat) (body : Bytes) (s : State) : State :=
  { s with link := { s.link with inbox := s.link.inbox ++ [{ slice := sl, plain := plainType ty, data := domBytes h ty body }] } }
/-- The state after a command. -/
def nx (o : Host.Outcome State Fault Refusal) : State := match o with | .next t => t | _ => State.reset

/-! ### The words of claims, in Bool -/

/-- A property of a table's entries and of its default holds at every index. -/
theorem tbl_all {α : Type} {P : α → Prop} (t : Tbl α) (hd : P t.dflt) (he : ∀ e ∈ t.ents, P e.2) (i : Nat) : P (t.get i) := by
  unfold Tbl.get
  generalize t.ents = l at he
  induction l with
  | nil => exact hd
  | cons e l ih =>
    rw [Tbl.look]
    split
    · exact he e List.mem_cons_self
    · exact ih fun x hx => he x (List.mem_cons_of_mem _ hx)

/-- A property of a table's places with their entries holds at every index, where it holds of the default at that index. -/
theorem tbl_at {α : Type} {P : Nat → α → Prop} (t : Tbl α) (hd : ∀ i, P i t.dflt) (he : ∀ e ∈ t.ents, P e.1 e.2) (i : Nat) : P i (t.get i) := by
  unfold Tbl.get
  generalize t.ents = l at he
  induction l with
  | nil => exact hd i
  | cons e l ih =>
    rw [Tbl.look]
    split
    · rename_i h; exact h ▸ he e List.mem_cons_self
    · exact ih fun x hx => he x (List.mem_cons_of_mem _ hx)

/-- `Starts`. -/
def startsB (h : CmdHdr) (op : Nat) (ops : List (Nat × Nat × Nat)) (s : State) : Bool :=
  (match s.flight h.key with
   | some f => f.phase == .ready && f.raw == encodeCmd h op ops && f.override.isNone
   | none => false) &&
  !fetchStopped s (s.q h.key).owner && !targetRefuses s (encodeCmd h op ops)

theorem starts_of {h : CmdHdr} {op : Nat} {ops : List (Nat × Nat × Nat)} {s : State} (w : startsB h op ops s = true) : Starts h op ops s := by
  unfold startsB at w
  cases hf : s.flight h.key with
  | none => simp [hf] at w
  | some f =>
    simp only [hf, Bool.and_eq_true, beq_iff_eq, Option.isNone_iff_eq_none, Bool.not_eq_true'] at w
    exact ⟨⟨f, hf, w.1.1.1.1, w.1.1.1.2, w.1.1.2⟩, w.1.2, w.2⟩

/-- `InHand`. -/
def inHandB (h : CmdHdr) (op : Nat) (ops : List (Nat × Nat × Nat)) (s : State) : Bool :=
  match s.flight h.key with
  | some f => f.phase == .running && f.raw == encodeCmd h op ops && f.override.isNone
  | none => false

theorem inHand_of {h : CmdHdr} {op : Nat} {ops : List (Nat × Nat × Nat)} {s : State} (w : inHandB h op ops s = true) : InHand h op ops s := by
  unfold inHandB at w
  cases hf : s.flight h.key with
  | none => simp [hf] at w
  | some f =>
    simp only [hf, Bool.and_eq_true, beq_iff_eq, Option.isNone_iff_eq_none] at w
    exact ⟨f, hf, w.1.1, w.1.2, w.2⟩

/-- `Runs`. -/
def runsB (k : CmdKey) (t : State) : Bool :=
  match t.flight k with
  | some f => f.phase == .running && f.override.isNone
  | none => false

theorem runs_of {k : CmdKey} {t : State} (w : runsB k t = true) : Runs k t := by
  unfold runsB at w
  cases hf : t.flight k with
  | none => simp [hf] at w
  | some f =>
    simp only [hf, Bool.and_eq_true, beq_iff_eq, Option.isNone_iff_eq_none] at w
    exact ⟨f, hf, w.1, w.2⟩

/-- `OutsideQueues`. -/
theorem outside_of {k : CmdKey} {sl : Nat} {s : State} (w : ∀ n ∈ ownQueues s sl, (∀ f ∈ (s.cex.queues.get n).flights, f.key ≠ k) ∧
    ∀ f ∈ (s.cex.queues.get n).frames, f.key ≠ k) : OutsideQueues k sl s := w

/-- A test on every entry of a table and on its default. -/
def allB {α : Type} (t : Tbl α) (p : α → Bool) : Bool := p t.dflt && t.ents.all (fun e => p e.2)

theorem allB_get {α : Type} {t : Tbl α} {p : α → Bool} (w : allB t p = true) (i : Nat) : p (t.get i) = true := by
  simp only [allB, Bool.and_eq_true, List.all_eq_true] at w
  exact tbl_all (P := fun x => p x = true) t w.1 w.2 i

/-- `Fresh`. -/
def freshB (k : CmdKey) (s : State) : Bool :=
  (s.cex.waits.all (·.key != k) && s.cex.holds.all (·.key != k) && allB s.cex.groups (·.waits.all (·.key != k)) && (s.q k).frames.all (·.key != k) &&
    s.cex.kills.all (·.1 != some k) && s.link.closing.all (·.1 != k)) &&
  (allB s.link.pairs (fun p => (p.waiters ++ p.serving).all (·.1 != k)) && allB s.mem.closeKey (· != some k) &&
    allB s.mem.regions (·.define != some k) && allB s.mem.regions (fun r => !decide (k ∈ r.retire)) && allB s.mem.regions (·.ending != some k) &&
    s.mem.ploughs.all (fun p => !decide (k ∈ p.keys)) && s.mem.gathers.all (·.key != k)) &&
  (allB s.sheaf.ctxs (·.ending != some k) && allB s.dom.doms (·.formKey != some k) && allB s.dom.doms (·.releaseKey != some k) &&
    allB s.srg.slices (·.freezing != some k) && s.xlt.invalidating.all (·.1 != k))

theorem fresh_of {k : CmdKey} {s : State} (w : freshB k s = true) : Fresh k s := by
  simp only [freshB, Bool.and_eq_true, List.all_eq_true, bne_iff_ne, Bool.not_eq_true', decide_eq_false_iff_not] at w
  obtain ⟨⟨⟨⟨⟨⟨⟨w1, w2⟩, w3⟩, w4⟩, w5⟩, w6⟩, ⟨⟨⟨⟨⟨⟨w7, w8⟩, w9⟩, w10⟩, w11⟩, w12⟩, w13⟩⟩, ⟨⟨⟨⟨w14, w15⟩, w16⟩, w17⟩, w18⟩⟩ := w
  exact {
    waits := w1, holds := w2, frames := w4, kills := w5, closing := w6, ploughs := w12, gathers := w13, invalidates := w18
    fences := fun i => by simpa using allB_get w3 i
    pairs := fun i => by simpa only [List.all_eq_true, bne_iff_ne] using allB_get w7 i
    windows := fun i => by simpa using allB_get w8 i
    defines := fun i => by simpa using allB_get w9 i
    retires := fun i => by simpa using allB_get w10 i
    saves := fun i => by simpa using allB_get w11 i
    sheaves := fun i => by simpa using allB_get w14 i
    forms := fun i => by simpa using allB_get w15 i
    releases := fun i => by simpa using allB_get w16 i
    freezes := fun i => by simpa using allB_get w17 i }

/-- `Arrived`. -/
def arrivedB (sl : Nat) (h : DomHdr) (type : Nat) (body : Bytes) (s : State) : Bool :=
  decide ({ slice := sl, plain := plainType type, data := domBytes h type body } ∈ s.link.inbox) && domAccepts s sl h

theorem arrived_of {sl : Nat} {h : DomHdr} {type : Nat} {body : Bytes} {s : State} (w : arrivedB sl h type body s = true) : Arrived sl h type body s := by
  simp only [arrivedB, Bool.and_eq_true, decide_eq_true_eq] at w
  exact ⟨w.1, w.2⟩

/-- A message that `arrive` puts there has arrived, whatever its body holds. -/
theorem arrived_arrive {sl : Nat} {h : DomHdr} {type : Nat} {body : Bytes} {s : State} (w : domAccepts (arrive sl h type body s) sl h = true) :
    Arrived sl h type body (arrive sl h type body s) := ⟨by simp [arrive], w⟩

/-- A word under its own tag verifies under its one candidate. -/
theorem checkTag_one (s : State) (r : Nat) (newer : Bool) (ln mode v : Nat) (c : Line) :
    checkTag s r newer ln mode [v] c (lt56 (engKey s 3 (keySet s r newer)) c ln mode v (sideEpoch s r newer)) = some v := by
  simp [checkTag, verifies, List.eraseDups, List.eraseDupsBy, List.eraseDupsBy.loop]

/-- The tag of a received group under its stream's key verifies it. -/
def ownTag (s : State) (g : RxGroup) : BitVec 128 :=
  let h := readGsh g.gsh
  let x := s.stream g.stream
  Config.gcmTag (engKey s 4 (linkIx x.port x.pair g.epoch g.halyard)) (linkIv h.cls h.sender h.receiver h.ctr) (g.gsh ++ g.descs) g.cipher

theorem tagOk_own (s : State) (g : RxGroup) : tagOk s g (ownTag s g) = true := beq_self_eq_true _

/-- A part of a list of octets, between two others. -/
theorem slice_mid (a b c : Bytes) : slice (a ++ b ++ c) a.length b.length = b := by simp [slice]

/-- `GateIdle`. -/
def gateIdleB (s : State) : Bool :=
  s.link.egress.isEmpty && s.link.gw.isEmpty && s.cex.holds.isEmpty && s.cex.groups.ents.all (·.2.waits.isEmpty) && s.link.streams.ents.all (·.2.state != 3)

theorem gateIdle_of {s : State} (w : gateIdleB s = true) : GateIdle s := by
  simp only [gateIdleB, Bool.and_eq_true, List.isEmpty_iff, List.all_eq_true, bne_iff_ne] at w
  exact ⟨w.1.1.1.1, w.1.1.1.2, w.1.1.2, w.1.2, w.2⟩

/-- `Accepts`. -/
def acceptsB (phase : Nat) (m : SpdmHdr) (s : State) : Bool :=
  s.rcv.fwRunning && decide (phase ≤ (connOf m s).phase) && m.version.toNat == (connOf m s).version &&
  (match m.session with
   | some n => (s.dom.sessions.get n.toNat).phase != 0 && (s.dom.sessions.get n.toNat).transport == SpdmHdr.conn m
   | none => true)

theorem accepts_of {phase : Nat} {m : SpdmHdr} {s : State} (w : acceptsB phase m s = true) : Accepts phase m s := by
  simp only [acceptsB, Bool.and_eq_true, decide_eq_true_eq, beq_iff_eq] at w
  refine ⟨w.1.1.1, w.1.1.2, w.1.2, fun n hn => ?_⟩
  have h := w.2
  simp only [hn, Bool.and_eq_true, bne_iff_ne, beq_iff_eq] at h
  exact h

end Sys2Proof.Tests
end

