-- ==== Sys2Proof/Tests/Slice0.lean ====
section
/-!
SUPPORT. The model's own tests: what `Instr.wf` refuses, worked examples of the manual, and one small step of some commands.
-/
set_option Elab.async false
namespace Sys2Proof.Tests
open Sys2Proof Sys2Proof.Machine

/-! ### Well-formedness refuses (one ill-formed command for each check) -/

theorem test_wf_engine : (Instr.sweepGnt 12).wf = false ∧ (Instr.sweepGnt 11).wf = true := by decide
theorem test_wf_port : (Instr.groupFlushExpiry 18 0).wf = false ∧ (Instr.groupFlushExpiry 17 0).wf = true := by decide
theorem test_wf_ring : (Instr.eventModerationExpiry 17).wf = false ∧ (Instr.eventModerationExpiry 16).wf = true := by decide
theorem test_wf_set : (Instr.blockDmaAccess 17 0 false 0 false false false none).wf = false := by decide
theorem test_wf_unit : (Instr.engineResetDone 53).wf = false ∧ (Instr.engineResetDone 52).wf = true := by decide
theorem test_wf_watched : (Instr.senFreezeExpiry 36).wf = false ∧ (Instr.senFreezeExpiry 35).wf = true := by decide
theorem test_wf_die : (Instr.brownOut 3).wf = false ∧ (Instr.brownOut 2).wf = true := by decide
theorem test_wf_rate : (Instr.rateSample 41 0).wf = false ∧ (Instr.rateSample 40 0).wf = true := by decide
theorem test_wf_source : (Instr.icuSourceAssert 512 false true 0).wf = false ∧ (Instr.icuSourceAssert 511 false true 0).wf = true := by decide
theorem test_wf_key : (Instr.waitTimeout { key0 with path := List.replicate 5 (0, 0) }).wf = false ∧ (Instr.waitTimeout key0).wf = true := by decide
theorem test_wf_line : (Instr.memoryWrite 0 0 0 0 false []).wf = false := by decide
theorem test_wf_read_word : (Instr.memoryReadData 0 0 0 { status := 0, cipher := [], tag := 0 }).wf = false := by decide
theorem test_wf_line_read : (Instr.ploughLineMove 0 0 { pc := 0, word := { status := 0, cipher := [], tag := 0 } }).wf = false := by decide

/-! ### Worked examples of the manual -/

/-- The 64 bytes of the PLOUGH example after R377. -/
theorem test_plough_words : leBytes 64 (encodeCmd { hdr 3 with flags := 2, ctx := 0x21, cookie := 0x1F40 } 0x0120
    [(0x18, 2, 64), (0x1C, 4, 4), (0x20, 2, 184), (0x22, 2, 185), (0x24, 2, 186)]).toNat =
    [0x20, 0x01, 0x02, 0x00, 0x21, 0x00, 0x00, 0x00] ++ List.replicate 8 0 ++ [0x40, 0x1F] ++ List.replicate 6 0 ++ [0x40, 0, 0, 0, 4, 0, 0, 0] ++
    [0xB8, 0, 0xB9, 0, 0xBA, 0, 0, 0] ++ List.replicate 23 0 ++ [3] := by decide +kernel
/-- The hand check after R309. -/
theorem test_sheaf_line : sheafLine 2 (1 :: List.replicate 127 0) = 0x1_FFFE_0000_0000_0000_0002 := by decide
/-- The tweak block and the hash words of the example in chapter 04. -/
theorem test_tweak_block : tweakBlock 0x1F40 0x02468ACF 1 3 false = [0x40, 0x1F, 0, 0, 0, 0, 0, 0, 0xCF, 0x8A, 0x46, 0x02, 0, 1, 3, 0] := by decide
theorem test_hash : polyHash 2 (hashWords (leBytes 8 0x8000000000000000 ++ List.replicate 112 0 ++ leBytes 8 1) 0x02468ACF 1 0x1F40) = 0x00000400092C15B4 := by
  decide +kernel
theorem test_line_tag : tagOf 0x00000400092C15B4 0x0123456789ABCDEF = 0x2341678087D85B := by decide
/-- The counter lines of the example after R185. -/
def treeRegion : Region := { valid := true, mode := 0, base := 0x4000000, pages := 0x1800000, metaBase := 0x5800000, mirrorBase := 0x5840001, crownFirst := 700 }
theorem test_counter_line1 : 128 * counterLn treeRegion 1 823714 = 0x005806 * 2 ^ 24 + 0x48D100 := by decide
theorem test_counter_line2 : 128 * counterLn treeRegion 2 6435 = 0x0058300C9180 := by decide
theorem test_counter_line3 : 128 * counterLn treeRegion 3 50 = 0x005830601900 := by decide
theorem test_mirror_line2 : 128 * mirrorLn treeRegion 2 6435 = 0x0058400CA180 := by decide
/-- The window example after R283. -/
theorem test_window_gap : windowAccept 1000 0xC 1001 = some (1000, 0xE) := by decide
theorem test_window_slides : windowAccept 1000 0xE 1000 = some (1004, 0) := by decide
theorem test_window_last : (windowAccept 1004 0 1067).isSome = true := by decide
theorem test_window_beyond : windowAccept 1004 0 1068 = none := by decide
/-- The tree of the example after R109. -/
theorem test_tree_parent : treeParent { count := 2048 } 1000 = some 62 := by decide
theorem test_tree_grandparent : treeParent { count := 2048 } 62 = some 3 := by decide
/-- The walk and the fault of the example after R402. -/
theorem test_walk_indexes : (rangeFrom 0 4).map (descIx 0x00007F3012345678) = [254, 192, 145, 325] := by decide
theorem test_xlt_detail : (XFlt.mk 1 1 2 false).detail true = 0x191 := by decide
/-- CLAIM's values in the example after R477. -/
theorem test_claim_value : claimValue (some (2, 104)) = 0x20068 := by decide
theorem test_claim_value_high : claimValue (some (0, 432)) = 0x1B0 := by decide
/-- The response header of the example after R457. -/
theorem test_response_header : ansBytes 1 { flags := 0, tag := 5, type := 0, index := 0x3843, sub := 14, reserved := 0, status := 0, segNo := 0, total := 0, data := [] }
    { status := 0, flags := 2, type := 9, total := 98304, data := [] } = [0x81, 2, 5, 9, 0x43, 0x38, 0x0E, 0, 0, 0, 0, 0, 0, 0x80, 1, 0] := by decide

/-! ### Steps -/

theorem test_reset_idle : State.reset.pending = [] := rfl
/-- The wheel in miniature: a holder of 512 slots has every second one, and the slots nobody holds are idle (R413). -/
theorem test_wheel : (List.range 8).map (slotHolder [512, 256]) = (List.range 8).map (fun i => slotHolder [512, 256] (i + 8)) := by decide +kernel
theorem test_wheel_share : ((List.range 64).filter (fun i => slotHolder [512, 256] i == some 0)).length = 32 := by decide +kernel

end Sys2Proof.Tests
end

