-- ==== Sys2Proof/Tests/WitnessDomain.lean ====
section
/-!
SUPPORT. States that meet the hypotheses of the statements about domains: fences, the domain commands, roll-call, halyard keys and aborts.
-/
set_option Elab.async false
namespace Sys2Proof.Tests
open Sys2Proof Sys2Proof.Machine

/-! ### Domain fences -/

/-- Group 63 of slice 1, collected by the masthead. -/
def grouped : State := updGroup 1 63 (fun g => { g with defined := true, members := 7, collector := 0 }) base
def s_witness_DomainFence_0 : State := ready (hdr 1#8) 49 ([(32, 1, 63)]) (grouped)
theorem witness_DomainFence_0 :
    (Starts (hdr 1#8) 49 [(32, 1, 63)] s_witness_DomainFence_0) ∧
    (Fresh (hdr 1#8).key s_witness_DomainFence_0) ∧
    (63 < 64) ∧
    (keyed s_witness_DomainFence_0 (hdrSlice (hdr 1#8)) = true) ∧
    (63 = 0 ∨ (s_witness_DomainFence_0.group (hdrSlice (hdr 1#8)) 63).defined = true) ∧
    (hasRoute s_witness_DomainFence_0 (hdrSlice (hdr 1#8)) 63 = true) ∧
    (2 < 4096) ∧
    (2 ≠ (s_witness_DomainFence_0.domain (hdrSlice (hdr 1#8))).member) ∧
    (inGroup s_witness_DomainFence_0 (hdrSlice (hdr 1#8)) 63 2 = true) ∧
    (∀ (c : FenceColl),
      c ∈ (s_witness_DomainFence_0.group (hdrSlice (hdr 1#8)) 63).colls → c.dseq ≠ (s_witness_DomainFence_0.group (hdrSlice (hdr 1#8)) 63).dseq + 1) ∧
    (∀ (c : Nat × Nat × Nat),
      c ∈ (s_witness_DomainFence_0.group (hdrSlice (hdr 1#8)) 63).closed → c.fst ≠ (s_witness_DomainFence_0.group (hdrSlice (hdr 1#8)) 63).dseq + 1) ∧
    (∀ (v : FenceWait),
      v ∈ (s_witness_DomainFence_0.group (hdrSlice (hdr 1#8)) 63).waits → v.dseq ≤ (s_witness_DomainFence_0.group (hdrSlice (hdr 1#8)) 63).dseq) :=
  ⟨starts_of (by decide +kernel), fresh_of (by decide +kernel), by decide +kernel, by decide +kernel, by decide +kernel, by decide +kernel, by decide +kernel, by decide +kernel, by decide +kernel, by decide +kernel, by decide +kernel, by decide +kernel⟩
def s_witness_DomainFence_0_alt2 : State := ready (hdr 1#8) 49 ([(32, 1, 0)]) (base)
theorem witness_DomainFence_0_alt2 :
    (Starts (hdr 1#8) 49 [(32, 1, 0)] s_witness_DomainFence_0_alt2) ∧
    (Fresh (hdr 1#8).key s_witness_DomainFence_0_alt2) ∧
    (0 < 64) ∧
    (keyed s_witness_DomainFence_0_alt2 (hdrSlice (hdr 1#8)) = true) ∧
    (0 = 0 ∨ (s_witness_DomainFence_0_alt2.group (hdrSlice (hdr 1#8)) 0).defined = true) ∧
    (hasRoute s_witness_DomainFence_0_alt2 (hdrSlice (hdr 1#8)) 0 = true) ∧
    (2 < 4096) ∧
    (2 ≠ (s_witness_DomainFence_0_alt2.domain (hdrSlice (hdr 1#8))).member) ∧
    (inGroup s_witness_DomainFence_0_alt2 (hdrSlice (hdr 1#8)) 0 2 = true) ∧
    (∀ (c : FenceColl),
      c ∈ (s_witness_DomainFence_0_alt2.group (hdrSlice (hdr 1#8)) 0).colls →
        c.dseq ≠ (s_witness_DomainFence_0_alt2.group (hdrSlice (hdr 1#8)) 0).dseq + 1) ∧
    (∀ (c : Nat × Nat × Nat),
      c ∈ (s_witness_DomainFence_0_alt2.group (hdrSlice (hdr 1#8)) 0).closed →
        c.fst ≠ (s_witness_DomainFence_0_alt2.group (hdrSlice (hdr 1#8)) 0).dseq + 1) ∧
    (∀ (v : FenceWait),
      v ∈ (s_witness_DomainFence_0_alt2.group (hdrSlice (hdr 1#8)) 0).waits → v.dseq ≤ (s_witness_DomainFence_0_alt2.group (hdrSlice (hdr 1#8)) 0).dseq) :=
  ⟨starts_of (by decide +kernel), fresh_of (by decide +kernel), by decide +kernel, by decide +kernel, by decide +kernel, by decide +kernel, by decide +kernel, by decide +kernel, by decide +kernel, by decide +kernel, by decide +kernel, by decide +kernel⟩
def s_witness_DomainFence_1 : State := ready (hdr 1#8) 52 ([]) (base)
theorem witness_DomainFence_1 :
    (Starts (hdr 1#8) 52 [] s_witness_DomainFence_1) ∧
    (Fresh (hdr 1#8).key s_witness_DomainFence_1) ∧
    (keyed s_witness_DomainFence_1 (hdrSlice (hdr 1#8)) = true) ∧
    (hasRoute s_witness_DomainFence_1 (hdrSlice (hdr 1#8)) 0 = true) ∧
    (2 < 4096) ∧
    (2 ≠ (s_witness_DomainFence_1.domain (hdrSlice (hdr 1#8))).member) ∧
    (inGroup s_witness_DomainFence_1 (hdrSlice (hdr 1#8)) 0 2 = true) ∧
    (∀ (c : FenceColl),
      c ∈ (s_witness_DomainFence_1.group (hdrSlice (hdr 1#8)) 0).colls → c.dseq ≠ (s_witness_DomainFence_1.group (hdrSlice (hdr 1#8)) 0).dseq + 1) ∧
    (∀ (c : Nat × Nat × Nat),
      c ∈ (s_witness_DomainFence_1.group (hdrSlice (hdr 1#8)) 0).closed → c.fst ≠ (s_witness_DomainFence_1.group (hdrSlice (hdr 1#8)) 0).dseq + 1) ∧
    (∀ (v : FenceWait),
      v ∈ (s_witness_DomainFence_1.group (hdrSlice (hdr 1#8)) 0).waits → v.dseq ≤ (s_witness_DomainFence_1.group (hdrSlice (hdr 1#8)) 0).dseq) :=
  ⟨starts_of (by decide +kernel), fresh_of (by decide +kernel), by decide +kernel, by decide +kernel, by decide +kernel, by decide +kernel, by decide +kernel, by decide +kernel, by decide +kernel, by decide +kernel⟩
def s_witness_DomainFence_1_alt2 : State := ready (hdr 1#8) 52 ([]) (base0)
theorem witness_DomainFence_1_alt2 :
    (Starts (hdr 1#8) 52 [] s_witness_DomainFence_1_alt2) ∧
    (Fresh (hdr 1#8).key s_witness_DomainFence_1_alt2) ∧
    (keyed s_witness_DomainFence_1_alt2 (hdrSlice (hdr 1#8)) = true) ∧
    (hasRoute s_witness_DomainFence_1_alt2 (hdrSlice (hdr 1#8)) 0 = true) ∧
    (2 < 4096) ∧
    (2 ≠ (s_witness_DomainFence_1_alt2.domain (hdrSlice (hdr 1#8))).member) ∧
    (inGroup s_witness_DomainFence_1_alt2 (hdrSlice (hdr 1#8)) 0 2 = true) ∧
    (∀ (c : FenceColl),
      c ∈ (s_witness_DomainFence_1_alt2.group (hdrSlice (hdr 1#8)) 0).colls →
        c.dseq ≠ (s_witness_DomainFence_1_alt2.group (hdrSlice (hdr 1#8)) 0).dseq + 1) ∧
    (∀ (c : Nat × Nat × Nat),
      c ∈ (s_witness_DomainFence_1_alt2.group (hdrSlice (hdr 1#8)) 0).closed →
        c.fst ≠ (s_witness_DomainFence_1_alt2.group (hdrSlice (hdr 1#8)) 0).dseq + 1) ∧
    (∀ (v : FenceWait),
      v ∈ (s_witness_DomainFence_1_alt2.group (hdrSlice (hdr 1#8)) 0).waits → v.dseq ≤ (s_witness_DomainFence_1_alt2.group (hdrSlice (hdr 1#8)) 0).dseq) :=
  ⟨starts_of (by decide +kernel), fresh_of (by decide +kernel), by decide +kernel, by decide +kernel, by decide +kernel, by decide +kernel, by decide +kernel, by decide +kernel, by decide +kernel, by decide +kernel⟩
/-- Slice 1's step window in a state, with a step-cadenced region. -/
def windowed (w : Nat) (s : State) : State :=
  { s with mem := { s.mem with window := s.mem.window.set 1 w, regions := s.mem.regions.set 3 {
      valid := true, slice := 1, mode := 1, state := 1, window := decide (w = 1), closing := decide (w = 2), pages := 1 } } }
def s_witness_DomainFence_2 : State := ready (hdr 1#8) 53 ([]) (windowed 1 base)
theorem witness_DomainFence_2 :
    (Starts (hdr 1#8) 53 [] s_witness_DomainFence_2) ∧
    (Fresh (hdr 1#8).key s_witness_DomainFence_2) ∧
    (keyed s_witness_DomainFence_2 (hdrSlice (hdr 1#8)) = true) ∧
    (hasRoute s_witness_DomainFence_2 (hdrSlice (hdr 1#8)) 0 = true) ∧
    (s_witness_DomainFence_2.mem.window.get (hdrSlice (hdr 1#8)) = 1) ∧
    (∀ (i : Nat), (s_witness_DomainFence_2.cex.groups.get i).waits = []) :=
  ⟨starts_of (by decide +kernel), fresh_of (by decide +kernel), by decide +kernel, by decide +kernel, by decide +kernel, (tbl_all (P := fun (g : FenceGroup) => g.waits = []) _ (by decide +kernel) (by decide +kernel))⟩
def witness_DomainFence_3_s : Machine.State := (let s := windowed 2 base; { s with mem := { s.mem with closeKey := s.mem.closeKey.set 1 (some key0) } })
theorem witness_DomainFence_3 :
    (witness_DomainFence_3_s.mem.closeKey.get 1 = some key0) ∧
    ((closeRegions witness_DomainFence_3_s 1).any (writesOut witness_DomainFence_3_s) = false) :=
  ⟨by decide +kernel, by decide +kernel⟩
/-- A FENCE_MSG of group 63 of slice 1 to a member. -/
def fence (kind type group dseq : Nat) : BitVec 64 := BitVec.ofNat 64 (fenceWord kind type 0 group dseq)
def witness_DomainFence_4_s : Machine.State := arrive 1 (dh 1 0) 0x0102 (fenceBody 1 0 (fence 1 1 0 1).toNat) base0
theorem witness_DomainFence_4 :
    (Arrived 1 (dh 1 0) 258 (fenceBody 1 (witness_DomainFence_4_s.domain 1).member (fence 1 1 0 1).toNat) witness_DomainFence_4_s) ∧
    (keyed witness_DomainFence_4_s 1 = true) ∧
    (wordKind (fence 1 1 0 1) = 1) ∧
    (wordGroup (fence 1 1 0 1) < 64) ∧
    (collectorOf witness_DomainFence_4_s 1 (wordGroup (fence 1 1 0 1)) = (witness_DomainFence_4_s.domain 1).member) ∧
    (∀ (c : Nat × Nat × Nat), c ∈ (witness_DomainFence_4_s.group 1 (wordGroup (fence 1 1 0 1))).closed → c.fst ≠ wordDseq (fence 1 1 0 1)) ∧
    ((witness_DomainFence_4_s.group 1 (wordGroup (fence 1 1 0 1))).colls.length < 8) ∧
    (∀ (c : FenceColl),
      c ∈ (witness_DomainFence_4_s.group 1 (wordGroup (fence 1 1 0 1))).colls → c.dseq = wordDseq (fence 1 1 0 1) → c.ftype = wordType (fence 1 1 0 1)) ∧
    (2 < 4096) ∧
    (inGroup witness_DomainFence_4_s 1 (wordGroup (fence 1 1 0 1)) 2 = true) ∧
    (2 ≠ 1) ∧
    (2 ≠ (witness_DomainFence_4_s.domain 1).member) ∧
    (∀ (c : FenceColl),
      c ∈ (witness_DomainFence_4_s.group 1 (wordGroup (fence 1 1 0 1))).colls → c.dseq = wordDseq (fence 1 1 0 1) → bit c.bitmap 2 = false) :=
  ⟨arrived_of (by decide +kernel), by decide +kernel, by decide +kernel, by decide +kernel, by decide +kernel, by decide +kernel, by decide +kernel, by decide +kernel, by decide +kernel, by decide +kernel, by decide +kernel, by decide +kernel, by decide +kernel⟩
def witness_DomainFence_4_alt2_s : Machine.State := arrive 1 (dh 1 0) 0x0102 (fenceBody 1 0 (fence 1 3 63 1).toNat) (updGroup 1 63 (fun g => { g with defined := true, members := 7, collector := 0, colls := [{ dseq := 1, ftype := 3, bitmap := 1, outcome := 0, changedAt := 0 }] }) base0)
theorem witness_DomainFence_4_alt2 :
    (Arrived 1 (dh 1 0) 258 (fenceBody 1 (witness_DomainFence_4_alt2_s.domain 1).member (fence 1 3 63 1).toNat) witness_DomainFence_4_alt2_s) ∧
    (keyed witness_DomainFence_4_alt2_s 1 = true) ∧
    (wordKind (fence 1 3 63 1) = 1) ∧
    (wordGroup (fence 1 3 63 1) < 64) ∧
    (collectorOf witness_DomainFence_4_alt2_s 1 (wordGroup (fence 1 3 63 1)) = (witness_DomainFence_4_alt2_s.domain 1).member) ∧
    (∀ (c : Nat × Nat × Nat), c ∈ (witness_DomainFence_4_alt2_s.group 1 (wordGroup (fence 1 3 63 1))).closed → c.fst ≠ wordDseq (fence 1 3 63 1)) ∧
    ((witness_DomainFence_4_alt2_s.group 1 (wordGroup (fence 1 3 63 1))).colls.length < 8) ∧
    (∀ (c : FenceColl),
      c ∈ (witness_DomainFence_4_alt2_s.group 1 (wordGroup (fence 1 3 63 1))).colls →
        c.dseq = wordDseq (fence 1 3 63 1) → c.ftype = wordType (fence 1 3 63 1)) ∧
    (2 < 4096) ∧
    (inGroup witness_DomainFence_4_alt2_s 1 (wordGroup (fence 1 3 63 1)) 2 = true) ∧
    (2 ≠ 1) ∧
    (2 ≠ (witness_DomainFence_4_alt2_s.domain 1).member) ∧
    (∀ (c : FenceColl),
      c ∈ (witness_DomainFence_4_alt2_s.group 1 (wordGroup (fence 1 3 63 1))).colls → c.dseq = wordDseq (fence 1 3 63 1) → bit c.bitmap 2 = false) :=
  ⟨arrived_of (by decide +kernel), by decide +kernel, by decide +kernel, by decide +kernel, by decide +kernel, by decide +kernel, by decide +kernel, by decide +kernel, by decide +kernel, by decide +kernel, by decide +kernel, by decide +kernel, by decide +kernel⟩
/-- A wait of `key0` at a domain fence of a type. -/
def fenceWait (type : Nat) : FenceWait := { key := key0, dseq := 4, ftype := type, outcome := 0, drained := true, sample := [], acked := true, ackAt := 0, done := none, doneSample := [] }
/-- `key0` waits at a fence of group 0. -/
def atFence (type : Nat) : State := updGroup 1 0 (fun g => { g with dseq := 4, waits := [fenceWait type] }) (running (hdr 1) 0x34 [] (windowed (if type = 3 then 2 else 0) base))
def witness_DomainFence_5_s : Machine.State := arrive 1 (dh 0 1) 0x0102 (fenceBody 0 1 (fence 2 2 0 4).toNat) (atFence 2)
theorem witness_DomainFence_5 :
    (Arrived 1 (dh 0 1) 258
      (fenceBody (collectorOf witness_DomainFence_5_s 1 (wordGroup (fence 2 2 0 4))) (witness_DomainFence_5_s.domain 1).member (fence 2 2 0 4).toNat)
      witness_DomainFence_5_s) ∧
    (keyed witness_DomainFence_5_s 1 = true) ∧
    (wordKind (fence 2 2 0 4) = 2) ∧
    (wordGroup (fence 2 2 0 4) < 64) ∧
    ((witness_DomainFence_5_s.group 1 (wordGroup (fence 2 2 0 4))).waits = [fenceWait 2]) ∧
    (∀ (i : Nat), i ≠ 1 * 64 + wordGroup (fence 2 2 0 4) → (witness_DomainFence_5_s.cex.groups.get i).waits = []) ∧
    ((fenceWait 2).dseq = wordDseq (fence 2 2 0 4)) ∧
    ((fenceWait 2).ftype = wordType (fence 2 2 0 4)) ∧
    ((fenceWait 2).acked = true) ∧
    ((fenceWait 2).done = none) ∧
    ((fenceWait 2).doneSample = []) ∧
    (Runs (fenceWait 2).key witness_DomainFence_5_s) :=
  ⟨arrived_of (by decide +kernel), by decide +kernel, by decide +kernel, by decide +kernel, by decide +kernel, (tbl_at (P := fun i (g : FenceGroup) => i ≠ 1 * 64 + wordGroup (fence 2 2 0 4) → g.waits = []) _ (by intro i _; decide +kernel) (by decide +kernel)), by decide +kernel, by decide +kernel, by decide +kernel, by decide +kernel, by decide +kernel, runs_of (by decide +kernel)⟩
def witness_DomainFence_5_alt2_s : Machine.State := arrive 1 (dh 0 1) 0x0102 (fenceBody 0 1 (fence 2 3 0 4).toNat) (atFence 3)
theorem witness_DomainFence_5_alt2 :
    (Arrived 1 (dh 0 1) 258
      (fenceBody (collectorOf witness_DomainFence_5_alt2_s 1 (wordGroup (fence 2 3 0 4))) (witness_DomainFence_5_alt2_s.domain 1).member
        (fence 2 3 0 4).toNat)
      witness_DomainFence_5_alt2_s) ∧
    (keyed witness_DomainFence_5_alt2_s 1 = true) ∧
    (wordKind (fence 2 3 0 4) = 2) ∧
    (wordGroup (fence 2 3 0 4) < 64) ∧
    ((witness_DomainFence_5_alt2_s.group 1 (wordGroup (fence 2 3 0 4))).waits = [fenceWait 3]) ∧
    (∀ (i : Nat), i ≠ 1 * 64 + wordGroup (fence 2 3 0 4) → (witness_DomainFence_5_alt2_s.cex.groups.get i).waits = []) ∧
    ((fenceWait 3).dseq = wordDseq (fence 2 3 0 4)) ∧
    ((fenceWait 3).ftype = wordType (fence 2 3 0 4)) ∧
    ((fenceWait 3).acked = true) ∧
    ((fenceWait 3).done = none) ∧
    ((fenceWait 3).doneSample = []) ∧
    (Runs (fenceWait 3).key witness_DomainFence_5_alt2_s) :=
  ⟨arrived_of (by decide +kernel), by decide +kernel, by decide +kernel, by decide +kernel, by decide +kernel, (tbl_at (P := fun i (g : FenceGroup) => i ≠ 1 * 64 + wordGroup (fence 2 3 0 4) → g.waits = []) _ (by intro i _; decide +kernel) (by decide +kernel)), by decide +kernel, by decide +kernel, by decide +kernel, by decide +kernel, by decide +kernel, runs_of (by decide +kernel)⟩
def witness_DomainFence_6_s : Machine.State := arrive 1 (dh 0 1) 0x0102 (fenceBody 0 1 (fence 3 2 0 4).toNat) (atFence 2)
theorem witness_DomainFence_6 :
    (Arrived 1 (dh 0 1) 258
      (fenceBody (collectorOf witness_DomainFence_6_s 1 (wordGroup (fence 3 2 0 4))) (witness_DomainFence_6_s.domain 1).member (fence 3 2 0 4).toNat)
      witness_DomainFence_6_s) ∧
    (keyed witness_DomainFence_6_s 1 = true) ∧
    (wordKind (fence 3 2 0 4) = 3) ∧
    (wordGroup (fence 3 2 0 4) < 64) ∧
    (List.find? (fun w => w.dseq == wordDseq (fence 3 2 0 4) && w.acked && w.done.isNone)
        (witness_DomainFence_6_s.group 1 (wordGroup (fence 3 2 0 4))).waits =
      some (fenceWait 2)) ∧
    (collectorOf witness_DomainFence_6_s 1 (wordGroup (fence 3 2 0 4)) ≠ (witness_DomainFence_6_s.domain 1).member) ∧
    (nextHop (witness_DomainFence_6_s.domain 1) (collectorOf witness_DomainFence_6_s 1 (wordGroup (fence 3 2 0 4))) = some 0) :=
  ⟨arrived_of (by decide +kernel), by decide +kernel, by decide +kernel, by decide +kernel, by decide +kernel, by decide +kernel, by decide +kernel⟩
def witness_DomainFence_7_s : Machine.State := arrive 1 (dh 0 1) 0x0102 (fenceBody 0 2 (fence 2 1 63 4).toNat) base
theorem witness_DomainFence_7 :
    (Arrived 1 (dh 0 1) 258 (fenceBody 0 2 (fence 2 1 63 4).toNat) witness_DomainFence_7_s) ∧
    (keyed witness_DomainFence_7_s 1 = true) ∧
    (2 ≠ (witness_DomainFence_7_s.domain 1).member) ∧
    (nextHop (witness_DomainFence_7_s.domain 1) 2 = some 0) :=
  ⟨arrived_of (by decide +kernel), by decide +kernel, by decide +kernel, by decide +kernel⟩
def witness_DomainFence_8_s : Machine.State := updGroup 1 63 (fun g => { g with defined := true, members := 7, collector := 0, colls := [{ dseq := 1, ftype := 1, bitmap := 1, outcome := 0, changedAt := 0 }] }) base0
theorem witness_DomainFence_8 :
    (List.find? (fun c => c.dseq == 1) (witness_DomainFence_8_s.group 1 63).colls =
      some { dseq := 1, ftype := 1, bitmap := 1, outcome := 0, changedAt := 0 }) :=
  by decide +kernel
theorem witness_DomainFence_9 :
    (List.find? (fun w => w.dseq == 4 && w.acked && w.done.isNone) ((atFence 1).group 1 0).waits = some (fenceWait 1)) ∧
    (collectorOf (atFence 1) 1 0 ≠ ((atFence 1).domain 1).member) ∧
    (nextHop ((atFence 1).domain 1) (collectorOf (atFence 1) 1 0) = some 0) :=
  ⟨by decide +kernel, by decide +kernel, by decide +kernel⟩
def witness_DomainFence_10_e : Nat × FenceGroup := (64, { dseq := 4, waits := [fenceWait 1] })
theorem witness_DomainFence_10 :
    (List.find? (fun e => e.snd.waits.any fun w => w.key == key0 && w.done.isNone) (atFence 1).cex.groups.ents = some witness_DomainFence_10_e) ∧
    (List.find? (fun w => w.key == key0) witness_DomainFence_10_e.snd.waits = some (fenceWait 1)) ∧
    (keyed (atFence 1) (witness_DomainFence_10_e.fst / 64) = true) :=
  ⟨by decide +kernel, by decide +kernel, by decide +kernel⟩

/-! ### Domain commands -/

/-- A slice in a block that is past DICE. -/
def locked : State := slice1 { up with lcc := { up.lcc with state := 0x30 }, atu := { up.atu with diceLock := true }, vault := { up.vault with state := 0 } }
/-- Slice 1 is member `me` of three in a domain that forms. -/
def forming (me st : Nat) (f : Dom → Dom) : State :=
  updDom 1 (fun d => f { d with state := st, id := 7, attempt := 1, member := me, masthead := 0, count := 3, list := List.replicate 192 0, tmo := [1,1,1,1,1000000000,1] }) locked
/-- A policy with one measurement. -/
def policy0 : Bytes := fit 512 (magicFormat "POL1" ++ [7, 0] ++ List.replicate 6 0 ++ [1])
/-- A child. -/
def child (member state : Nat) (slot : Option Nat) (ack : Nat) : Child := {
  member, adopted := false, state, evidence := 0, aggregate := 0, entries := [], exceptions := [], slot, deadline := 0, ack, resent := false, keyed := 0, failed := [] }
def s_witness_Domain_0 : State := ready (hdr 1#8) 1280 ([(24, 8, 7), (32, 4, 1), (36, 2, 0), (38, 2, 0), (40, 2, 1), (48, 8, 4096)]) (locked)
theorem witness_Domain_0 :
    (Starts (hdr 1#8) 1280 [(24, 8, 7), (32, 4, 1), (36, 2, 0), (38, 2, 0), (40, 2, 1), (48, 8, 4096)] s_witness_Domain_0) ∧
    (7#64 ≠ 0#64) ∧
    (1 ≤ 1) ∧
    (1 ≤ 4096) ∧
    (0 < 1) ∧
    (0 < 1) ∧
    (aligned8 4096#64 = true) ∧
    (firstFail (joinChecks s_witness_Domain_0 (hdrSlice (hdr 1#8)) 7 1) = none) ∧
    ((s_witness_Domain_0.domain (hdrSlice (hdr 1#8))).held = none) ∧
    ((List.replicate 64 0).length = 64 * 1) ∧
    (listOk 1 (List.replicate 64 0) = true) :=
  ⟨starts_of (by decide +kernel), by decide +kernel, by decide +kernel, by decide +kernel, by decide +kernel, by decide +kernel, by decide +kernel, by decide +kernel, by decide +kernel, by decide +kernel, by decide +kernel⟩
def s_witness_Domain_0_alt2 : State := ready (hdr 1#8) 1280 ([(24, 8, 7), (32, 4, 1), (36, 2, 2), (38, 2, 2), (40, 2, 3), (48, 8, 4096)]) (locked)
theorem witness_Domain_0_alt2 :
    (Starts (hdr 1#8) 1280 [(24, 8, 7), (32, 4, 1), (36, 2, 2), (38, 2, 2), (40, 2, 3), (48, 8, 4096)] s_witness_Domain_0_alt2) ∧
    (7#64 ≠ 0#64) ∧
    (1 ≤ 3) ∧
    (3 ≤ 4096) ∧
    (2 < 3) ∧
    (2 < 3) ∧
    (aligned8 4096#64 = true) ∧
    (firstFail (joinChecks s_witness_Domain_0_alt2 (hdrSlice (hdr 1#8)) 7 1) = none) ∧
    ((s_witness_Domain_0_alt2.domain (hdrSlice (hdr 1#8))).held = none) ∧
    ((List.replicate 192 0).length = 64 * 3) ∧
    (listOk 3 (List.replicate 192 0) = true) :=
  ⟨starts_of (by decide +kernel), by decide +kernel, by decide +kernel, by decide +kernel, by decide +kernel, by decide +kernel, by decide +kernel, by decide +kernel, by decide +kernel, by decide +kernel, by decide +kernel⟩
def s_witness_Domain_1 : State := ready (hdr 1#8) 1281 ([(24, 8, 4096), (32, 4, 0), (36, 2, 0)]) (forming 0 1 id)
theorem witness_Domain_1 :
    (Starts (hdr 1#8) 1281 [(24, 8, 4096), (32, 4, 0), (36, 2, 0)] s_witness_Domain_1) ∧
    (aligned8 4096#64 = true) ∧
    ((s_witness_Domain_1.domain (hdrSlice (hdr 1#8))).state = 1) ∧
    ((s_witness_Domain_1.domain (hdrSlice (hdr 1#8))).member = (s_witness_Domain_1.domain (hdrSlice (hdr 1#8))).masthead) ∧
    ((s_witness_Domain_1.domain (hdrSlice (hdr 1#8))).roll = 0) ∧
    ((s_witness_Domain_1.domain (hdrSlice (hdr 1#8))).children = []) ∧
    (policyOk (fit 512 policy0) = true) ∧
    (entOk s_witness_Domain_1 = true) ∧
    (pkeRuns s_witness_Domain_1 = true) ∧
    (kweRuns s_witness_Domain_1 = true) :=
  ⟨starts_of (by decide +kernel), by decide +kernel, by decide +kernel, by decide +kernel, by decide +kernel, by decide +kernel, by decide +kernel, by decide +kernel, by decide +kernel, by decide +kernel⟩
/-- A release record under no evidence. -/
def releaseHead : Bytes := magicFormat "REL1" ++ [0, 1] ++ leBytes 8 7 ++ leBytes 4 1 ++ List.replicate 12 0
def releaseTail : Bytes := List.replicate 9300 0
def release0 : Bytes := releaseHead ++ digestBytes (Config.sha384 []) ++ releaseTail
def s_witness_Domain_2 : State := ready (hdr 1#8) 1282 ([(24, 8, 4096), (32, 4, 9380)]) (forming 0 1 (fun d => { d with roll := 2, formedAt := some 0, count := 1, included := 1 }))
theorem witness_Domain_2 :
    (Starts (hdr 1#8) 1282 [(24, 8, 4096), (32, 4, 9380)] s_witness_Domain_2) ∧
    (aligned8 4096#64 = true) ∧
    ((s_witness_Domain_2.domain (hdrSlice (hdr 1#8))).state = 1) ∧
    ((s_witness_Domain_2.domain (hdrSlice (hdr 1#8))).roll = 2) ∧
    ((s_witness_Domain_2.domain (hdrSlice (hdr 1#8))).releaseKey = none) ∧
    ((s_witness_Domain_2.domain (hdrSlice (hdr 1#8))).formedAt = some 0) ∧
    ((s_witness_Domain_2.started (hdr 1#8)).now ≤ 0 + (s_witness_Domain_2.domain (hdrSlice (hdr 1#8))).tmo.getD 4 0 * 1000000) ∧
    (releaseOk release0 9380 = true) ∧
    (pkeRuns s_witness_Domain_2 = true) ∧
    (field release0 8 8 = (s_witness_Domain_2.domain (hdrSlice (hdr 1#8))).id) ∧
    (field release0 16 4 = (s_witness_Domain_2.domain (hdrSlice (hdr 1#8))).attempt) ∧
    (slice release0 32 48 = digestBytes (Config.sha384 (s_witness_Domain_2.domain (hdrSlice (hdr 1#8))).evidence)) :=
  ⟨starts_of (by decide +kernel), by decide +kernel, by decide +kernel, by decide +kernel, by decide +kernel, by decide +kernel, by decide +kernel, (by decide +kernel), by decide +kernel, by decide +kernel, by decide +kernel, (slice_mid releaseHead (digestBytes (Config.sha384 [])) releaseTail)⟩
def s_witness_Domain_3 : State := ready (hdr 1#8) 1283 ([]) (updDom 1 (fun d => { d with state := 2, children := [child 1 1 none 2] }) base0)
theorem witness_Domain_3 :
    (Starts (hdr 1#8) 1283 [] s_witness_Domain_3) ∧
    ((s_witness_Domain_3.domain (hdrSlice (hdr 1#8))).state = 2) ∧
    ((s_witness_Domain_3.domain (hdrSlice (hdr 1#8))).member = (s_witness_Domain_3.domain (hdrSlice (hdr 1#8))).masthead) :=
  ⟨starts_of (by decide +kernel), by decide +kernel, by decide +kernel⟩
def s_witness_Domain_4 : State := ready (hdr 1#8) 1284 ([(24, 4, 9)]) (base)
theorem witness_Domain_4 :
    (Starts (hdr 1#8) 1284 [(24, 4, 9)] s_witness_Domain_4) ∧
    (s_witness_Domain_4.kst.dflt = { key := 0#256, attr := 0#64, binding := 281470681743360#64, wrapId := 0#128 }) ∧
    ((s_witness_Domain_4.domain (hdrSlice (hdr 1#8))).state = 1 ∨
      (s_witness_Domain_4.domain (hdrSlice (hdr 1#8))).state = 2 ∨ (s_witness_Domain_4.domain (hdrSlice (hdr 1#8))).state = 3) :=
  ⟨starts_of (by decide +kernel), by decide +kernel, by decide +kernel⟩
def s_witness_Domain_4_alt2 : State := ready (hdr 1#8) 1284 ([(24, 4, 9)]) (forming 1 1 id)
theorem witness_Domain_4_alt2 :
    (Starts (hdr 1#8) 1284 [(24, 4, 9)] s_witness_Domain_4_alt2) ∧
    (s_witness_Domain_4_alt2.kst.dflt = { key := 0#256, attr := 0#64, binding := 281470681743360#64, wrapId := 0#128 }) ∧
    ((s_witness_Domain_4_alt2.domain (hdrSlice (hdr 1#8))).state = 1 ∨
      (s_witness_Domain_4_alt2.domain (hdrSlice (hdr 1#8))).state = 2 ∨ (s_witness_Domain_4_alt2.domain (hdrSlice (hdr 1#8))).state = 3) :=
  ⟨starts_of (by decide +kernel), by decide +kernel, by decide +kernel⟩
def s_witness_Domain_5 : State := ready (hdr 1#8) 1285 ([]) (base0)
theorem witness_Domain_5 :
    (Starts (hdr 1#8) 1285 [] s_witness_Domain_5) ∧
    ((s_witness_Domain_5.domain (hdrSlice (hdr 1#8))).state = 3) ∧
    ((s_witness_Domain_5.domain (hdrSlice (hdr 1#8))).member = (s_witness_Domain_5.domain (hdrSlice (hdr 1#8))).masthead) ∧
    (s_witness_Domain_5.kst.dflt = { key := 0#256, attr := 0#64, binding := 281470681743360#64, wrapId := 0#128 }) :=
  ⟨starts_of (by decide +kernel), by decide +kernel, by decide +kernel, by decide +kernel⟩
def s_witness_Domain_6 : State := ready (hdr 1#8) 1286 ([(24, 8, 4096), (32, 4, 100000)]) (updDom 1 (fun d => { d with provable := true }) base)
theorem witness_Domain_6 :
    (Starts (hdr 1#8) 1286 [(24, 8, 4096), (32, 4, 100000)] s_witness_Domain_6) ∧
    (aligned8 4096#64 = true) ∧
    (keyed s_witness_Domain_6 (hdrSlice (hdr 1#8)) = true) ∧
    ((s_witness_Domain_6.domain (hdrSlice (hdr 1#8))).provable = true) ∧
    (List.length (inclusionProof s_witness_Domain_6 (hdrSlice (hdr 1#8))) ≤ 100000) :=
  ⟨starts_of (by decide +kernel), by decide +kernel, by decide +kernel, by decide +kernel, by decide +kernel⟩

/-! ### Roll-call -/

/-- The list of a domain of three. -/
def list0 : Bytes := List.replicate 192 0
def witness_RollCall_0_s : Machine.State := arrive 1 (dh 0 1) 1 (challengeBody [] 0 [] [] []) (forming 1 0 id)
theorem witness_RollCall_0 :
    (witness_RollCall_0_s.rcv.fwRunning = true) ∧
    ({ slice := 1, plain := true, data := domBytes (dh 0 1) 1 (challengeBody [] 0#384 [] [] []) } ∈ witness_RollCall_0_s.link.inbox) ∧
    ((witness_RollCall_0_s.domain 1).state = 0) :=
  ⟨by decide +kernel, by decide +kernel, by decide +kernel⟩
def witness_RollCall_2_s : Machine.State := arrive 1 (dh 0 1) 1 (challengeBody policy0 (Config.sha384 list0) [] [] []) (forming 1 1 id)
theorem witness_RollCall_2 :
    (witness_RollCall_2_s.rcv.fwRunning = true) ∧
    (Arrived 1 (dh 0 1) 1 (challengeBody policy0 (Config.sha384 list0) [] [] []) witness_RollCall_2_s) ∧
    ((witness_RollCall_2_s.domain 1).state = 1) ∧
    ((witness_RollCall_2_s.domain 1).drk = none) ∧
    (fromAbove (witness_RollCall_2_s.domain 1) (dh 0 1).sender.toNat = true) ∧
    (policyOk policy0 = true) ∧
    (Config.sha384 list0 = Config.sha384 (witness_RollCall_2_s.domain 1).list) ∧
    (entOk witness_RollCall_2_s = true) ∧
    (pkeRuns witness_RollCall_2_s = true) ∧
    (kweRuns witness_RollCall_2_s = true) ∧
    ((witness_RollCall_2_s.domain 1).roll = 0) ∧
    ((witness_RollCall_2_s.domain 1).children = []) ∧
    (freeSlots witness_RollCall_2_s 1 ≠ []) :=
  ⟨by decide +kernel, (arrived_arrive (by decide +kernel)), by decide +kernel, by decide +kernel, by decide +kernel, by decide +kernel, (rfl), by decide +kernel, by decide +kernel, by decide +kernel, by decide +kernel, by decide +kernel, by decide +kernel⟩
def witness_RollCall_3_rest : List Nat := (List.range 63).map (33 + ·)
def witness_RollCall_3_s : Machine.State := arrive 1 (dh 1 0) 2 (answerBody [] [] []) (forming 0 1 fun d => { d with roll := 1, children := [child 1 0 none 0, child 2 0 none 0] })
theorem witness_RollCall_3 :
    (Arrived 1 (dh 1 0) 2 (answerBody [] [] []) witness_RollCall_3_s) ∧
    ((witness_RollCall_3_s.domain 1).state = 1) ∧
    ((witness_RollCall_3_s.domain 1).roll = 1) ∧
    (List.find? (fun c => c.member == (dh 1 0).sender.toNat) (witness_RollCall_3_s.domain 1).children = some (child 1 0 none 0)) ∧
    ((child 1 0 none 0).state = 0) ∧
    (pkeRuns witness_RollCall_3_s = true) ∧
    (kweRuns witness_RollCall_3_s = true) ∧
    (freeSlots witness_RollCall_3_s 1 = 32 :: witness_RollCall_3_rest) :=
  ⟨arrived_of (by decide +kernel), by decide +kernel, by decide +kernel, by decide +kernel, by decide +kernel, by decide +kernel, by decide +kernel, by decide +kernel⟩
/-- The roll-call of a masthead with two children. -/
def calling2 : State := forming 0 1 fun d => { d with roll := 1, children := [child 1 0 none 0, child 2 0 none 0] }
theorem witness_RollCall_4 :
    ((calling2.domain 1).state = 1) ∧
    ((calling2.domain 1).roll = 1) ∧
    (child 1 0 none 0 ∈ (calling2.domain 1).children) ∧
    ((child 1 0 none 0).member = 1) ∧
    ((child 1 0 none 0).state = 0) ∧
    (∃ x, x ∈ (calling2.domain 1).children ∧ x.member ≠ 1 ∧ x.state = 0) :=
  ⟨by decide +kernel, by decide +kernel, by decide +kernel, by decide +kernel, by decide +kernel, by decide +kernel⟩
theorem witness_RollCall_5 :
    ((calling2.domain 1).state = 1) ∧
    ((calling2.domain 1).roll = 1) ∧
    ((calling2.domain 1).member = (calling2.domain 1).masthead) :=
  ⟨by decide +kernel, by decide +kernel, by decide +kernel⟩
def witness_RollCall_6_s : Machine.State := forming 0 1 fun d => { d with roll := 2, formedAt := some 3 }
theorem witness_RollCall_6 :
    ((witness_RollCall_6_s.domain 1).state = 1) ∧
    ((witness_RollCall_6_s.domain 1).formedAt = some 3) ∧
    ((witness_RollCall_6_s.domain 1).drk = none) :=
  ⟨by decide +kernel, by decide +kernel, by decide +kernel⟩

/-! ### Halyard keys and aborts -/

def witness_HalyardAndAbort_0_s : Machine.State := arrive 1 (dh 0 1) 3 (keysBody 0 0 0 [] [] []) (forming 1 1 fun d => { d with parent := some 0, parentSlot := some 50, roll := 2 })
theorem witness_HalyardAndAbort_0 :
    (Arrived 1 (dh 0 1) 3 (keysBody (0#384) (0#128) 0 [] [] []) witness_HalyardAndAbort_0_s) ∧
    ((witness_HalyardAndAbort_0_s.domain 1).parent = some (dh 0 1).sender.toNat) ∧
    (∀ (m : SentMsg), m ∈ (witness_HalyardAndAbort_0_s.domain 1).sent → m.type ≠ 4) ∧
    ((witness_HalyardAndAbort_0_s.domain 1).state = 1) ∧
    ((witness_HalyardAndAbort_0_s.domain 1).drk = none) :=
  ⟨arrived_of (by decide +kernel), by decide +kernel, by decide +kernel, by decide +kernel, by decide +kernel⟩
def witness_HalyardAndAbort_1_m : SentMsg := { dest := 0, type := 4, seq := 1, body := [9] }
def witness_HalyardAndAbort_1_s : Machine.State := arrive 1 (dh 0 1) 3 (keysBody 0 0 0 [] [] []) (forming 1 1 fun d => { d with parent := some 0, sent := [{ dest := 0, type := 4, seq := 1, body := [9] }] })
theorem witness_HalyardAndAbort_1 :
    (Arrived 1 (dh 0 1) 3 (keysBody (0#384) (0#128) 0 [] [] []) witness_HalyardAndAbort_1_s) ∧
    ((witness_HalyardAndAbort_1_s.domain 1).parent = some (dh 0 1).sender.toNat) ∧
    (List.find? (fun m => m.type == 4) (witness_HalyardAndAbort_1_s.domain 1).sent.reverse = some witness_HalyardAndAbort_1_m) :=
  ⟨arrived_of (by decide +kernel), by decide +kernel, by decide +kernel⟩
def witness_HalyardAndAbort_2_fails : List (BitVec 16 × BitVec 8) := []
def witness_HalyardAndAbort_2_s : Machine.State := arrive 1 (dh 1 0) 4 (ackBody 1 []) (forming 0 1 fun d => { d with roll := 3, children := [child 1 1 none 1], included := 2 })
theorem witness_HalyardAndAbort_2 :
    (Arrived 1 (dh 1 0) 4 (ackBody 1 (List.flatMap (fun f => failEntry f.fst.toNat f.snd.toNat) witness_HalyardAndAbort_2_fails))
      witness_HalyardAndAbort_2_s) ∧
    ((witness_HalyardAndAbort_2_s.domain 1).roll = 3) ∧
    (child 1 1 none 1 ∈ (witness_HalyardAndAbort_2_s.domain 1).children) ∧
    ((child 1 1 none 1).member = (dh 1 0).sender.toNat) ∧
    ((child 1 1 none 1).state = 1) ∧
    ((child 1 1 none 1).ack = 1) :=
  ⟨arrived_of (by decide +kernel), by decide +kernel, by decide +kernel, by decide +kernel, by decide +kernel, by decide +kernel⟩
def witness_HalyardAndAbort_2_alt2_fails : List (BitVec 16 × BitVec 8) := [(1, 1)]
def witness_HalyardAndAbort_2_alt2_s : Machine.State := arrive 1 (dh 1 0) 4 (ackBody 0 (failEntry 1 1)) (forming 0 1 fun d => { d with roll := 3, children := [child 1 1 none 1, child 2 1 none 1], included := 3 })
theorem witness_HalyardAndAbort_2_alt2 :
    (Arrived 1 (dh 1 0) 4 (ackBody 0 (List.flatMap (fun f => failEntry f.fst.toNat f.snd.toNat) witness_HalyardAndAbort_2_alt2_fails))
      witness_HalyardAndAbort_2_alt2_s) ∧
    ((witness_HalyardAndAbort_2_alt2_s.domain 1).roll = 3) ∧
    (child 1 1 none 1 ∈ (witness_HalyardAndAbort_2_alt2_s.domain 1).children) ∧
    ((child 1 1 none 1).member = (dh 1 0).sender.toNat) ∧
    ((child 1 1 none 1).state = 1) ∧
    ((child 1 1 none 1).ack = 1) :=
  ⟨arrived_of (by decide +kernel), by decide +kernel, by decide +kernel, by decide +kernel, by decide +kernel, by decide +kernel⟩
def witness_HalyardAndAbort_3_c : Child := child 1 1 (some 40) 1
def witness_HalyardAndAbort_3_s : Machine.State := forming 0 1 fun d => { d with roll := 3, drk := some 32, children := [child 1 1 (some 40) 1] }
theorem witness_HalyardAndAbort_3 :
    (List.find? (fun c => c.member == 1 && c.state == 1 && c.ack == 1) (witness_HalyardAndAbort_3_s.domain 1).children = some witness_HalyardAndAbort_3_c) :=
  by decide +kernel
def witness_HalyardAndAbort_3_alt2_c : Child := { child 2 1 (some 40) 1 with resent := true }
def witness_HalyardAndAbort_3_alt2_s : Machine.State := forming 1 1 fun d => { d with roll := 3, parent := some 0, children := [{ child 2 1 (some 40) 1 with resent := true }] }
theorem witness_HalyardAndAbort_3_alt2 :
    (List.find? (fun c => c.member == 2 && c.state == 1 && c.ack == 1) (witness_HalyardAndAbort_3_alt2_s.domain 1).children =
      some witness_HalyardAndAbort_3_alt2_c) :=
  by decide +kernel
def witness_HalyardAndAbort_4_s : Machine.State := arrive 1 (dh 0 1) 5 [] (forming 1 2 fun d => { d with parent := some 0, children := [child 2 1 none 2] })
theorem witness_HalyardAndAbort_4 :
    (Arrived 1 (dh 0 1) 5 [] witness_HalyardAndAbort_4_s) ∧
    ((witness_HalyardAndAbort_4_s.domain 1).state = 2) ∧
    ((witness_HalyardAndAbort_4_s.domain 1).parent = some (dh 0 1).sender.toNat) :=
  ⟨arrived_of (by decide +kernel), by decide +kernel, by decide +kernel⟩
theorem witness_HalyardAndAbort_5 :
    (((forming 1 1 id).domain 1).state = 1) ∧
    ((forming 1 1 id).kst.dflt = { key := 0#256, attr := 0#64, binding := 281470681743360#64, wrapId := 0#128 }) :=
  ⟨by decide +kernel, by decide +kernel⟩
def witness_HalyardAndAbort_6_s : Machine.State := arrive 1 (dh 0 1) 6 (abortBody 1 0 2 9) base
theorem witness_HalyardAndAbort_6 :
    (Arrived 1 (dh 0 1) 6 (abortBody 1 0 2 9) witness_HalyardAndAbort_6_s) ∧
    (1 ≤ 1) ∧
    (1 ≤ 9) ∧
    (witness_HalyardAndAbort_6_s.kst.dflt = { key := 0#256, attr := 0#64, binding := 281470681743360#64, wrapId := 0#128 }) :=
  ⟨arrived_of (by decide +kernel), by decide +kernel, by decide +kernel, by decide +kernel⟩
def witness_HalyardAndAbort_6_alt2_s : Machine.State := arrive 1 (dh 0 1) 6 (abortBody 9 0 2 9) base
theorem witness_HalyardAndAbort_6_alt2 :
    (Arrived 1 (dh 0 1) 6 (abortBody 9 0 2 9) witness_HalyardAndAbort_6_alt2_s) ∧
    (1 ≤ 9) ∧
    (9 ≤ 9) ∧
    (witness_HalyardAndAbort_6_alt2_s.kst.dflt = { key := 0#256, attr := 0#64, binding := 281470681743360#64, wrapId := 0#128 }) :=
  ⟨arrived_of (by decide +kernel), by decide +kernel, by decide +kernel, by decide +kernel⟩
def witness_HalyardAndAbort_7_s : Machine.State := arrive 1 (dh 0 1) 7 [] base
theorem witness_HalyardAndAbort_7 :
    (Arrived 1 (dh 0 1) 7 [] witness_HalyardAndAbort_7_s) ∧
    (witness_HalyardAndAbort_7_s.kst.dflt = { key := 0#256, attr := 0#64, binding := 281470681743360#64, wrapId := 0#128 }) :=
  ⟨arrived_of (by decide +kernel), by decide +kernel⟩
def witness_HalyardAndAbort_8_m : SentMsg := { dest := 0, type := 4, seq := 1, body := [9] }
def witness_HalyardAndAbort_8_s : Machine.State := arrive 1 (dh 0 1) 8 (leBytes 2 4 ++ leBytes 8 1) (updDom 1 (fun d => { d with sent := [{ dest := 0, type := 4, seq := 1, body := [9] }] }) base)
theorem witness_HalyardAndAbort_8 :
    (Arrived 1 (dh 0 1) 8 (leBytes 2 4 ++ leBytes 8 1) witness_HalyardAndAbort_8_s) ∧
    (List.find? (fun m => m.dest == (dh 0 1).sender.toNat && m.type == 4 && m.seq == 1) (witness_HalyardAndAbort_8_s.domain 1).sent =
      some witness_HalyardAndAbort_8_m) :=
  ⟨arrived_of (by decide +kernel), by decide +kernel⟩

end Sys2Proof.Tests
end

