-- ==== Sys2Proof/Tests/WitnessFront.lean ====
section
/-!
SUPPORT. States that meet the hypotheses of the statements about the command front end: scalars, buffers and graphs, waits, local fences, queues, event rings and interrupts.
-/
set_option Elab.async false
namespace Sys2Proof.Tests
open Sys2Proof Sys2Proof.Machine

/-- The words of a statement about the queue of waiting commands. -/
theorem witness_StepRunsFrontCommand : ({ base with pending := [.nop (hdr 1)] } : State).pending = .nop (hdr 1) :: [] := rfl
theorem witness_IdleStepIsOneTick : base.pending = [] := rfl

theorem witness_UnknownCommandsChangeNothing :
    (up.flight (hdr 1#8).key = none) :=
  by decide +kernel
def s_witness_Scalar_0 : State := ready (hdr 1#8) 0 ([]) (base)
theorem witness_Scalar_0 :
    (Starts (hdr 1#8) 0 [] s_witness_Scalar_0) :=
  starts_of (by decide +kernel)
def s_witness_Scalar_1 : State := ready (hdr 1#8) 16 ([(24, 8, 7), (32, 1, 15)]) (base)
theorem witness_Scalar_1 :
    (Starts (hdr 1#8) 16 [(24, 8, 7), (32, 1, 15)] s_witness_Scalar_1) ∧
    (15 < 16) :=
  ⟨starts_of (by decide +kernel), by decide +kernel⟩
def s_witness_Scalar_2 : State := ready (hdr 1#8) 17 ([(24, 8, 7), (32, 1, 15), (33, 1, 15), (34, 1, 1)]) (base)
theorem witness_Scalar_2 :
    (Starts (hdr 1#8) 17 [(24, 8, 7), (32, 1, 15), (33, 1, 15), (34, 1, 1)] s_witness_Scalar_2) ∧
    (15 < 16) ∧
    (bit 1 0 = true → 15 < 16) :=
  ⟨starts_of (by decide +kernel), by decide +kernel, by decide +kernel⟩
def s_witness_Scalar_2_alt2 : State := ready (hdr 1#8) 17 ([(24, 8, 7), (32, 1, 0), (33, 1, 255), (34, 1, 0)]) (base)
theorem witness_Scalar_2_alt2 :
    (Starts (hdr 1#8) 17 [(24, 8, 7), (32, 1, 0), (33, 1, 255), (34, 1, 0)] s_witness_Scalar_2_alt2) ∧
    (0 < 16) ∧
    (bit 0 0 = true → 255 < 16) :=
  ⟨starts_of (by decide +kernel), by decide +kernel, by decide +kernel⟩
def s_witness_Scalar_3 : State := ready (hdr 1#8) 18 ([(24, 8, 8), (32, 1, 15)]) (base)
theorem witness_Scalar_3 :
    (Starts (hdr 1#8) 18 [(24, 8, 8), (32, 1, 15)] s_witness_Scalar_3) ∧
    (8 % 8 = 0) ∧
    (15 < 16) :=
  ⟨starts_of (by decide +kernel), by decide +kernel, by decide +kernel⟩
def s_witness_Scalar_4 : State := ready (hdr 1#8) 19 ([(24, 8, 8), (32, 1, 15)]) (base)
theorem witness_Scalar_4 :
    (Starts (hdr 1#8) 19 [(24, 8, 8), (32, 1, 15)] s_witness_Scalar_4) ∧
    (8 % 8 = 0) ∧
    (15 < 16) :=
  ⟨starts_of (by decide +kernel), by decide +kernel, by decide +kernel⟩
def s_witness_BufferAndGraph_0 : State := ready (hdr 1#8) 1 ([(24, 8, 8), (32, 2, 1), (34, 1, 3), (36, 4, 1)]) (base)
theorem witness_BufferAndGraph_0 :
    (Starts (hdr 1#8) 1 [(24, 8, 8), (32, 2, 1), (34, 1, 3), (36, 4, 1)] s_witness_BufferAndGraph_0) ∧
    ((hdr 1#8).key.path.length < 4) ∧
    (8 % 8 = 0) ∧
    (1#16 ≠ 0#16) ∧
    (1#32 ≠ 0#32) ∧
    (64 ≤ partitionSpaces (s_witness_BufferAndGraph_0.started (hdr 1#8)) (hdrSlice (hdr 1#8))) :=
  ⟨starts_of (by decide +kernel), by decide +kernel, by decide +kernel, by decide +kernel, by decide +kernel, by decide +kernel⟩
/-- A frame of the CALL under `key0`. -/
def frame0 (started : Bool) : Frame := {
  key := key0, graph := none, count := 2, limit := 3, index := 15, iteration := 0, started, fetched := 2, finished := 2, bad := none, handle := none, slice := 1 }
/-- A CALL in hand, its frame beside it. -/
def calling (started : Bool) : State := updQ 0 (fun q => { q with frames := [frame0 started] }) (running (hdr 1) 1 [(24, 8, 8), (32, 2, 2), (34, 1, 15), (36, 4, 3)] base)
/-- Its flight. -/
def callFlight : Flight := flight (hdr 1) 1 [(24, 8, 8), (32, 2, 2), (34, 1, 15), (36, 4, 3)] .running
theorem witness_BufferAndGraph_1 :
    (List.find? (fun f => f.key == key0 && f.graph.isNone) ((calling false).q key0).frames = some (frame0 false)) ∧
    ((calling false).flight key0 = some callFlight) ∧
    (callFlight.phase = Phase.running) ∧
    (callFlight.override = none) ∧
    (fetchStopped (calling false) ((calling false).q key0).owner = false) ∧
    ((frame0 false).started = true → (frame0 false).count ≤ (frame0 false).finished) :=
  ⟨by decide +kernel, by decide +kernel, by decide +kernel, by decide +kernel, by decide +kernel, by decide +kernel⟩
theorem witness_BufferAndGraph_1_alt2 :
    (List.find? (fun f => f.key == key0 && f.graph.isNone) ((calling true).q key0).frames = some (frame0 true)) ∧
    ((calling true).flight key0 = some callFlight) ∧
    (callFlight.phase = Phase.running) ∧
    (callFlight.override = none) ∧
    (fetchStopped (calling true) ((calling true).q key0).owner = false) ∧
    ((frame0 true).started = true → (frame0 true).count ≤ (frame0 true).finished) :=
  ⟨by decide +kernel, by decide +kernel, by decide +kernel, by decide +kernel, by decide +kernel, by decide +kernel⟩
def witness_BufferAndGraph_2_graph : List (BitVec 512) := [0]
def s_witness_BufferAndGraph_2 : State := ready (hdr 1#8) 2 ([(24, 8, 8), (32, 2, 1), (34, 1, 63)]) (base)
theorem witness_BufferAndGraph_2 :
    (Starts (hdr 1#8) 2 [(24, 8, 8), (32, 2, 1), (34, 1, 63)] s_witness_BufferAndGraph_2) ∧
    (Fresh (hdr 1#8).key s_witness_BufferAndGraph_2) ∧
    (8 % 8 = 0) ∧
    (1#16 ≠ 0#16) ∧
    (1 ≤ 8192) ∧
    (63 < 64) ∧
    ((s_witness_BufferAndGraph_2.graph (hdrSlice (hdr 1#8)) 63).launches = 0) ∧
    (1 ≤ (s_witness_BufferAndGraph_2.slice (hdrSlice (hdr 1#8))).graphKib.snd * 16) :=
  ⟨starts_of (by decide +kernel), fresh_of (by decide +kernel), by decide +kernel, by decide +kernel, by decide +kernel, by decide +kernel, by decide +kernel, by decide +kernel⟩
/-- A graph of slice 1 in a state. -/
def withGraph (st : Nat) (s : State) : State :=
  { s with cex := { s.cex with graphs := s.cex.graphs.set (64 + 63) { state := st, digest := 5, count := 1, copy := if st = 2 then [0] else [], launches := 0 } } }
def witness_BufferAndGraph_3_graph : List (BitVec 512) := [0]
def s_witness_BufferAndGraph_3 : State := ready (hdr 1#8) 3 ([(24, 8, 8), (34, 1, 63)]) (withGraph 1 base)
theorem witness_BufferAndGraph_3 :
    (Starts (hdr 1#8) 3 [(24, 8, 8), (34, 1, 63)] s_witness_BufferAndGraph_3) ∧
    (8 % 8 = 0) ∧
    (63 < 64) ∧
    ((s_witness_BufferAndGraph_3.graph (hdrSlice (hdr 1#8)) 63).launches = 0) ∧
    ((s_witness_BufferAndGraph_3.graph (hdrSlice (hdr 1#8)) 63).count ≤ partitionSpaces (s_witness_BufferAndGraph_3.started (hdr 1#8)) (hdrSlice (hdr 1#8))) :=
  ⟨starts_of (by decide +kernel), by decide +kernel, by decide +kernel, by decide +kernel, by decide +kernel⟩
def s_witness_BufferAndGraph_4 : State := ready (hdr 1#8) 4 ([(34, 1, 63)]) (withGraph 2 base)
theorem witness_BufferAndGraph_4 :
    (Starts (hdr 1#8) 4 [(34, 1, 63)] s_witness_BufferAndGraph_4) ∧
    ((hdr 1#8).key.path.length < 4) ∧
    (63 < 64) ∧
    ((s_witness_BufferAndGraph_4.graph (hdrSlice (hdr 1#8)) 63).state = 2) :=
  ⟨starts_of (by decide +kernel), by decide +kernel, by decide +kernel, by decide +kernel⟩

def s_witness_Wait_0 : State := ready (hdr 1#8) 32 ([(24, 8, 8), (32, 8, 5), (40, 8, 6), (48, 4, 1), (52, 1, 1)]) (base)
theorem witness_Wait_0 :
    (Starts (hdr 1#8) 32 [(24, 8, 8), (32, 8, 5), (40, 8, 6), (48, 4, 1), (52, 1, 1)] s_witness_Wait_0) ∧
    (8 % 8 = 0) ∧
    (1#32 ≠ 0#32) ∧
    (1 ≤ 1) ∧
    (1 ≤ 8) :=
  ⟨starts_of (by decide +kernel), by decide +kernel, by decide +kernel, by decide +kernel, by decide +kernel⟩
def s_witness_Wait_0_alt2 : State := ready (hdr 1#8) 32 ([(24, 8, 8), (32, 8, 5), (40, 8, 6), (48, 4, 1), (52, 1, 8)]) (base)
theorem witness_Wait_0_alt2 :
    (Starts (hdr 1#8) 32 [(24, 8, 8), (32, 8, 5), (40, 8, 6), (48, 4, 1), (52, 1, 8)] s_witness_Wait_0_alt2) ∧
    (8 % 8 = 0) ∧
    (1#32 ≠ 0#32) ∧
    (1 ≤ 8) ∧
    (8 ≤ 8) :=
  ⟨starts_of (by decide +kernel), by decide +kernel, by decide +kernel, by decide +kernel, by decide +kernel⟩
/-- A wait of `key0` and a state in which it waits. -/
def wait0 (kind : Nat) : WaitRec := { key := key0, slice := 1, kind, a := 8, b := 6, c := 4, cmp := 1, since := 0, limitUs := 1, last := 3 }
def waiting (kind : Nat) : State := let s := running (hdr 1) 0x20 [] base; { s with cex := { s.cex with waits := [wait0 kind] } }
theorem witness_Wait_1 :
    (List.find? (fun w => w.key == key0 && w.kind == 1) (waiting 1).cex.waits = some (wait0 1)) ∧
    (Runs key0 (waiting 1)) :=
  ⟨by decide +kernel, runs_of (by decide +kernel)⟩
theorem witness_Wait_1_alt2 :
    (List.find? (fun w => w.key == key0 && w.kind == 1) (waiting 1).cex.waits = some (wait0 1)) ∧
    (Runs key0 (waiting 1)) :=
  ⟨by decide +kernel, runs_of (by decide +kernel)⟩
def s_witness_Wait_2 : State := ready (hdr 1#8) 33 ([(24, 8, 0), (32, 1, 63), (48, 4, 1)]) (base)
theorem witness_Wait_2 :
    (Starts (hdr 1#8) 33 [(24, 8, 0), (32, 1, 63), (48, 4, 1)] s_witness_Wait_2) ∧
    (Fresh (hdr 1#8).key s_witness_Wait_2) ∧
    (63 < 64) ∧
    (1#32 ≠ 0#32) :=
  ⟨starts_of (by decide +kernel), fresh_of (by decide +kernel), by decide +kernel, by decide +kernel⟩
def s_witness_Wait_2_alt2 : State := ready (hdr 1#8) 33 ([(24, 8, 1), (32, 1, 63), (48, 4, 1)]) (base)
theorem witness_Wait_2_alt2 :
    (Starts (hdr 1#8) 33 [(24, 8, 1), (32, 1, 63), (48, 4, 1)] s_witness_Wait_2_alt2) ∧
    (Fresh (hdr 1#8).key s_witness_Wait_2_alt2) ∧
    (63 < 64) ∧
    (1#32 ≠ 0#32) :=
  ⟨starts_of (by decide +kernel), fresh_of (by decide +kernel), by decide +kernel, by decide +kernel⟩
def s_witness_Wait_2_alt3_alt3 : State := ready (hdr 1#8) 33 ([(24, 8, 1), (32, 1, 63), (48, 4, 1)]) ({ base with cex := { base.cex with syncs := base.cex.syncs.set 127 { broken := true } } })
theorem witness_Wait_2_alt3_alt3 :
    (Starts (hdr 1#8) 33 [(24, 8, 1), (32, 1, 63), (48, 4, 1)] s_witness_Wait_2_alt3_alt3) ∧
    (Fresh (hdr 1#8).key s_witness_Wait_2_alt3_alt3) ∧
    (63 < 64) ∧
    (1#32 ≠ 0#32) :=
  ⟨starts_of (by decide +kernel), fresh_of (by decide +kernel), by decide +kernel, by decide +kernel⟩
theorem witness_Wait_3 :
    (List.find? (fun w => w.key == key0) (waiting 1).cex.waits = some (wait0 1)) ∧
    (Runs key0 (waiting 1)) :=
  ⟨by decide +kernel, runs_of (by decide +kernel)⟩
theorem witness_Wait_3_alt2 :
    (List.find? (fun w => w.key == key0) (waiting 2).cex.waits = some (wait0 2)) ∧
    (Runs key0 (waiting 2)) :=
  ⟨by decide +kernel, runs_of (by decide +kernel)⟩
def s_witness_Wait_4 : State := ready (hdr 1#8) 50 ([(24, 4, 3), (28, 4, 2147483648), (32, 4, 1)]) (base)
theorem witness_Wait_4 :
    (Starts (hdr 1#8) 50 [(24, 4, 3), (28, 4, 2147483648), (32, 4, 1)] s_witness_Wait_4) ∧
    (Fresh (hdr 1#8).key s_witness_Wait_4) ∧
    (1#32 ≠ 0#32) :=
  ⟨starts_of (by decide +kernel), fresh_of (by decide +kernel), by decide +kernel⟩
def s_witness_Wait_4_alt2 : State := ready (hdr 1#8) 50 ([(24, 4, 4), (28, 4, 2147483648), (32, 4, 1)]) (base)
theorem witness_Wait_4_alt2 :
    (Starts (hdr 1#8) 50 [(24, 4, 4), (28, 4, 2147483648), (32, 4, 1)] s_witness_Wait_4_alt2) ∧
    (Fresh (hdr 1#8).key s_witness_Wait_4_alt2) ∧
    (1#32 ≠ 0#32) :=
  ⟨starts_of (by decide +kernel), fresh_of (by decide +kernel), by decide +kernel⟩

/-- The waits of the key fences meet the cases of their conclusion: a pair of the slice, and a region of the slice at its epoch, at another, and under a plough. -/
def withRegion (st : Nat) (s : State) : State := updRegion 3 (fun _ => { valid := true, slice := 1, mode := 1, state := st, epoch := 7, pages := 1 }) s
def s_witness_Wait_4_alt3_alt3 : State := ready (hdr 1#8) 50 ([(24, 4, 7), (28, 4, 3), (32, 4, 1)]) (withRegion 1 base)
theorem witness_Wait_4_alt3_alt3 :
    (Starts (hdr 1#8) 50 [(24, 4, 7), (28, 4, 3), (32, 4, 1)] s_witness_Wait_4_alt3_alt3) ∧
    (Fresh (hdr 1#8).key s_witness_Wait_4_alt3_alt3) ∧
    (1#32 ≠ 0#32) :=
  ⟨starts_of (by decide +kernel), fresh_of (by decide +kernel), by decide +kernel⟩
def s_witness_Wait_4_alt3_alt4_alt4 : State := ready (hdr 1#8) 50 ([(24, 4, 8), (28, 4, 3), (32, 4, 1)]) (withRegion 1 base)
theorem witness_Wait_4_alt3_alt4_alt4 :
    (Starts (hdr 1#8) 50 [(24, 4, 8), (28, 4, 3), (32, 4, 1)] s_witness_Wait_4_alt3_alt4_alt4) ∧
    (Fresh (hdr 1#8).key s_witness_Wait_4_alt3_alt4_alt4) ∧
    (1#32 ≠ 0#32) :=
  ⟨starts_of (by decide +kernel), fresh_of (by decide +kernel), by decide +kernel⟩
def s_witness_LocalFenceAndGroup_0 : State := ready (hdr 1#8) 48 ([(24, 8, 5), (32, 1, 63), (33, 1, 1)]) (base)
theorem witness_LocalFenceAndGroup_0 :
    (Starts (hdr 1#8) 48 [(24, 8, 5), (32, 1, 63), (33, 1, 1)] s_witness_LocalFenceAndGroup_0) ∧
    (bit 1 0 = true → 63 < 64) ∧
    (localReady (s_witness_LocalFenceAndGroup_0.started (hdr 1#8)) (hdr 1#8).key = true) ∧
    (gateOpen s_witness_LocalFenceAndGroup_0 (hdrSlice (hdr 1#8)) (gateSample s_witness_LocalFenceAndGroup_0 (hdrSlice (hdr 1#8))) = true) ∧
    (s_witness_LocalFenceAndGroup_0.cex.holds = []) ∧
    (s_witness_LocalFenceAndGroup_0.cex.waits = []) :=
  ⟨starts_of (by decide +kernel), by decide +kernel, by decide +kernel, by decide +kernel, by decide +kernel, by decide +kernel⟩
def s_witness_LocalFenceAndGroup_0_alt2 : State := ready (hdr 1#8) 48 ([(24, 8, 5), (32, 1, 255), (33, 1, 0)]) (base)
theorem witness_LocalFenceAndGroup_0_alt2 :
    (Starts (hdr 1#8) 48 [(24, 8, 5), (32, 1, 255), (33, 1, 0)] s_witness_LocalFenceAndGroup_0_alt2) ∧
    (bit 0 0 = true → 255 < 64) ∧
    (localReady (s_witness_LocalFenceAndGroup_0_alt2.started (hdr 1#8)) (hdr 1#8).key = true) ∧
    (gateOpen s_witness_LocalFenceAndGroup_0_alt2 (hdrSlice (hdr 1#8)) (gateSample s_witness_LocalFenceAndGroup_0_alt2 (hdrSlice (hdr 1#8))) = true) ∧
    (s_witness_LocalFenceAndGroup_0_alt2.cex.holds = []) ∧
    (s_witness_LocalFenceAndGroup_0_alt2.cex.waits = []) :=
  ⟨starts_of (by decide +kernel), by decide +kernel, by decide +kernel, by decide +kernel, by decide +kernel, by decide +kernel⟩
def s_witness_LocalFenceAndGroup_1 : State := ready (hdr 1#8) 51 ([]) (base)
theorem witness_LocalFenceAndGroup_1 :
    (Starts (hdr 1#8) 51 [] s_witness_LocalFenceAndGroup_1) ∧
    (gateOpen s_witness_LocalFenceAndGroup_1 (hdrSlice (hdr 1#8)) (gateSample s_witness_LocalFenceAndGroup_1 (hdrSlice (hdr 1#8))) = true) ∧
    (∀ (x : Tlp), x ∈ s_witness_LocalFenceAndGroup_1.link.egress → x.slice ≠ hdrSlice (hdr 1#8)) ∧
    (s_witness_LocalFenceAndGroup_1.cex.holds = []) :=
  ⟨starts_of (by decide +kernel), by decide +kernel, by decide +kernel, by decide +kernel⟩
def s_witness_LocalFenceAndGroup_2 : State := ready (hdr 1#8) 54 ([(24, 8, 8), (32, 1, 1), (34, 2, 0)]) (base)
theorem witness_LocalFenceAndGroup_2 :
    (Starts (hdr 1#8) 54 [(24, 8, 8), (32, 1, 1), (34, 2, 0)] s_witness_LocalFenceAndGroup_2) ∧
    (8 % 8 = 0) ∧
    (1 ≤ 1) ∧
    (1 < 64) ∧
    (keyed s_witness_LocalFenceAndGroup_2 (hdrSlice (hdr 1#8)) = true) ∧
    (bit 1 0 = true) :=
  ⟨starts_of (by decide +kernel), by decide +kernel, by decide +kernel, by decide +kernel, by decide +kernel, by decide +kernel⟩
def s_witness_LocalFenceAndGroup_2_alt2 : State := ready (hdr 1#8) 54 ([(24, 8, 8), (32, 1, 63), (34, 2, 4095)]) (base)
theorem witness_LocalFenceAndGroup_2_alt2 :
    (Starts (hdr 1#8) 54 [(24, 8, 8), (32, 1, 63), (34, 2, 4095)] s_witness_LocalFenceAndGroup_2_alt2) ∧
    (8 % 8 = 0) ∧
    (1 ≤ 63) ∧
    (63 < 64) ∧
    (keyed s_witness_LocalFenceAndGroup_2_alt2 (hdrSlice (hdr 1#8)) = true) ∧
    (bit (BitVec.ofNat 4096 (2 ^ 4095)).toNat 4095 = true) :=
  ⟨starts_of (by decide +kernel), by decide +kernel, by decide +kernel, by decide +kernel, by decide +kernel, by decide +kernel⟩

/-- Queue 0, in use by slice 1. -/
def withQ (f : Queue → Queue) : State := updQ 0 (fun q => f { q with state := 1, owner := 1, ringLog2 := 4, fetcher := 0 }) base
theorem witness_Queue_0 :
    (((withQ id).cex.queues.get 0).state = 1) ∧
    ((16 % 2 ^ 32 + 2 ^ 32 - ((withQ id).cex.queues.get 0).pi) % 2 ^ 32 < 2 ^ 31) ∧
    ((16 % 2 ^ 32 + 2 ^ 32 - ((withQ id).cex.queues.get 0).ci) % 2 ^ 32 ≤ 2 ^ ((withQ id).cex.queues.get 0).ringLog2) :=
  ⟨by decide +kernel, by decide +kernel, by decide +kernel⟩
def witness_Queue_1_0_s : Machine.State := withQ fun q => { q with state := 0 }
theorem witness_Queue_1_0 :
    ((witness_Queue_1_0_s.cex.queues.get 0).state ≠ 1) :=
  by decide +kernel
def witness_Queue_1_1_s : Machine.State := withQ fun q => { q with pi := 1, ci := 1 }
theorem witness_Queue_1_1 :
    ((witness_Queue_1_1_s.cex.queues.get 0).state = 1) ∧
    (2 ^ 31 ≤ (0 % 2 ^ 32 + 2 ^ 32 - (witness_Queue_1_1_s.cex.queues.get 0).pi) % 2 ^ 32) :=
  ⟨by decide +kernel, by decide +kernel⟩
theorem witness_Queue_1_2 :
    (((withQ id).cex.queues.get 0).state = 1) ∧
    (((withQ id).cex.queues.get 0).compat = false) ∧
    ((17 % 2 ^ 32 + 2 ^ 32 - ((withQ id).cex.queues.get 0).pi) % 2 ^ 32 < 2 ^ 31) ∧
    (2 ^ ((withQ id).cex.queues.get 0).ringLog2 < (17 % 2 ^ 32 + 2 ^ 32 - ((withQ id).cex.queues.get 0).ci) % 2 ^ 32) :=
  ⟨by decide +kernel, by decide +kernel, by decide +kernel, by decide +kernel⟩
theorem witness_Queue_2_0 :
    (((withQ id).cex.queues.get key0.queue.toNat).state = 1) ∧
    (fetchStopped (withQ id) ((withQ id).cex.queues.get key0.queue.toNat).owner = false) ∧
    (key0.path = []) ∧
    (((withQ id).cex.queues.get key0.queue.toNat).fetcher = 0) ∧
    (((withQ id).cex.queues.get key0.queue.toNat).ci = ((withQ id).cex.queues.get key0.queue.toNat).pi) :=
  ⟨by decide +kernel, by decide +kernel, by decide +kernel, by decide +kernel, by decide +kernel⟩
def witness_Queue_2_1_s : Machine.State := withQ fun q => { q with fetcher := 1, rung := true }
theorem witness_Queue_2_1 :
    ((witness_Queue_2_1_s.cex.queues.get key0.queue.toNat).state = 1) ∧
    (fetchStopped witness_Queue_2_1_s (witness_Queue_2_1_s.cex.queues.get key0.queue.toNat).owner = false) ∧
    (key0.path = []) ∧
    ((witness_Queue_2_1_s.cex.queues.get key0.queue.toNat).fetcher = 1) :=
  ⟨by decide +kernel, by decide +kernel, by decide +kernel, by decide +kernel⟩
/-- A flight that is not complete, under the key's index `i`. -/
def older (i : BitVec 32) : Flight := { flight (hdr 1) 0 [] .running with key := { key0 with index := i } }
def witness_Queue_3_key : CmdKey := { key0 with index := 256 }
def witness_Queue_3_s : Machine.State := withQ fun q => { q with pi := 257, ci := 256, flights := [older 1] }
theorem witness_Queue_3 :
    ((witness_Queue_3_s.cex.queues.get witness_Queue_3_key.queue.toNat).state = 1) ∧
    (fetchStopped witness_Queue_3_s (witness_Queue_3_s.cex.queues.get witness_Queue_3_key.queue.toNat).owner = false) ∧
    (witness_Queue_3_key.path = []) ∧
    ((witness_Queue_3_s.cex.queues.get witness_Queue_3_key.queue.toNat).fetcher = 0) ∧
    ((witness_Queue_3_s.cex.queues.get witness_Queue_3_key.queue.toNat).ci ≠ (witness_Queue_3_s.cex.queues.get witness_Queue_3_key.queue.toNat).pi) ∧
    (witness_Queue_3_key.index.toNat = (witness_Queue_3_s.cex.queues.get witness_Queue_3_key.queue.toNat).ci) ∧
    (((witness_Queue_3_s.cex.queues.get witness_Queue_3_key.queue.toNat).ci + 2 ^ 32 -
          oldestIncomplete (witness_Queue_3_s.cex.queues.get witness_Queue_3_key.queue.toNat)) %
        2 ^ 32 <
      256) ∧
    (fetchKilled witness_Queue_3_s 0#512 = false) ∧
    (witness_Queue_3_s.flight witness_Queue_3_key = none) :=
  ⟨by decide +kernel, by decide +kernel, by decide +kernel, by decide +kernel, by decide +kernel, by decide +kernel, by decide +kernel, by decide +kernel, by decide +kernel⟩
def witness_Queue_4_key : CmdKey := { key0 with index := 256 }
def witness_Queue_4_s : Machine.State := withQ fun q => { q with pi := 257, ci := 256, flights := [older 1] }
theorem witness_Queue_4 :
    ((witness_Queue_4_s.cex.queues.get witness_Queue_4_key.queue.toNat).state = 1) ∧
    (fetchStopped witness_Queue_4_s (witness_Queue_4_s.cex.queues.get witness_Queue_4_key.queue.toNat).owner = false) ∧
    (witness_Queue_4_key.path = []) ∧
    ((witness_Queue_4_s.cex.queues.get witness_Queue_4_key.queue.toNat).fetcher = 0) ∧
    ((witness_Queue_4_s.cex.queues.get witness_Queue_4_key.queue.toNat).ci ≠ (witness_Queue_4_s.cex.queues.get witness_Queue_4_key.queue.toNat).pi) ∧
    (witness_Queue_4_key.index.toNat = (witness_Queue_4_s.cex.queues.get witness_Queue_4_key.queue.toNat).ci) ∧
    (((witness_Queue_4_s.cex.queues.get witness_Queue_4_key.queue.toNat).ci + 2 ^ 32 -
          oldestIncomplete (witness_Queue_4_s.cex.queues.get witness_Queue_4_key.queue.toNat)) %
        2 ^ 32 <
      256) ∧
    ((witness_Queue_4_s.cex.queues.get witness_Queue_4_key.queue.toNat).compat = false) :=
  ⟨by decide +kernel, by decide +kernel, by decide +kernel, by decide +kernel, by decide +kernel, by decide +kernel, by decide +kernel, by decide +kernel⟩
/-- The key of a nested command. -/
def nest0 : CmdKey := { key0 with path := [(0, 0)] }
def witness_Queue_5_f : Frame := { frame0 true with fetched := 0 }
def witness_Queue_5_s : Machine.State := withQ fun q => { q with frames := [{ frame0 true with fetched := 0 }] }
theorem witness_Queue_5 :
    ((witness_Queue_5_s.cex.queues.get nest0.queue.toNat).state = 1 ∨ (witness_Queue_5_s.cex.queues.get nest0.queue.toNat).state = 3) ∧
    (fetchStopped witness_Queue_5_s (witness_Queue_5_s.cex.queues.get nest0.queue.toNat).owner = false) ∧
    (nest0.path ≠ []) ∧
    (frameFor (witness_Queue_5_s.cex.queues.get nest0.queue.toNat) nest0 = some witness_Queue_5_f) ∧
    (windowFull witness_Queue_5_s (witness_Queue_5_s.cex.queues.get nest0.queue.toNat) witness_Queue_5_f = false) ∧
    (fetchKilled witness_Queue_5_s
        (match witness_Queue_5_f.graph with
        | none => 0#512
        | some g => g.getD witness_Queue_5_f.fetched 0#512) =
      false) ∧
    (witness_Queue_5_s.flight nest0 = none) :=
  ⟨by decide +kernel, by decide +kernel, by decide +kernel, by decide +kernel, by decide +kernel, by decide +kernel, by decide +kernel⟩
def witness_Queue_5_alt2_f : Frame := { frame0 true with fetched := 0, graph := some [0, 0] }
def witness_Queue_5_alt2_s : Machine.State := withQ fun q => { q with state := 3, frames := [{ frame0 true with fetched := 0, graph := some [0, 0] }] }
theorem witness_Queue_5_alt2 :
    ((witness_Queue_5_alt2_s.cex.queues.get nest0.queue.toNat).state = 1 ∨ (witness_Queue_5_alt2_s.cex.queues.get nest0.queue.toNat).state = 3) ∧
    (fetchStopped witness_Queue_5_alt2_s (witness_Queue_5_alt2_s.cex.queues.get nest0.queue.toNat).owner = false) ∧
    (nest0.path ≠ []) ∧
    (frameFor (witness_Queue_5_alt2_s.cex.queues.get nest0.queue.toNat) nest0 = some witness_Queue_5_alt2_f) ∧
    (windowFull witness_Queue_5_alt2_s (witness_Queue_5_alt2_s.cex.queues.get nest0.queue.toNat) witness_Queue_5_alt2_f = false) ∧
    (fetchKilled witness_Queue_5_alt2_s
        (match witness_Queue_5_alt2_f.graph with
        | none => 0#512
        | some g => g.getD witness_Queue_5_alt2_f.fetched 0#512) =
      false) ∧
    (witness_Queue_5_alt2_s.flight nest0 = none) :=
  ⟨by decide +kernel, by decide +kernel, by decide +kernel, by decide +kernel, by decide +kernel, by decide +kernel, by decide +kernel⟩
def witness_Queue_6_0_f : Flight := flight (hdr 1) 0 [] .done
def witness_Queue_6_0_s : Machine.State := withQ fun q => { q with flights := [flight (hdr 1) 0 [] .done] }
theorem witness_Queue_6_0 :
    ((witness_Queue_6_0_s.cex.queues.get key0.queue.toNat).flights = [witness_Queue_6_0_f]) ∧
    (witness_Queue_6_0_f.key = key0) ∧
    (key0.path = []) ∧
    (witness_Queue_6_0_f.phase = Phase.done) ∧
    (witness_Queue_6_0_f.recState = 0) ∧
    ((witness_Queue_6_0_s.cex.queues.get key0.queue.toNat).frames = []) ∧
    (wantsRecord
        { key := witness_Queue_6_0_f.key, raw := witness_Queue_6_0_f.raw, phase := Phase.completed, status := witness_Queue_6_0_f.status,
          detail := witness_Queue_6_0_f.detail, startedAt := witness_Queue_6_0_f.startedAt, recState := witness_Queue_6_0_f.recState,
          override := witness_Queue_6_0_f.override } =
      false) :=
  ⟨by decide +kernel, by decide +kernel, by decide +kernel, by decide +kernel, by decide +kernel, by decide +kernel, by decide +kernel⟩
/-- A flight that ended with a status other than success. -/
def failed : Flight := { flight { hdr 1 with flags := 8 } 0 [] .done with status := 2 }
def witness_Queue_6_1_s : Machine.State := withQ fun q => { q with flights := [failed] }
theorem witness_Queue_6_1 :
    ((witness_Queue_6_1_s.cex.queues.get key0.queue.toNat).flights = [failed]) ∧
    (failed.key = key0) ∧
    (key0.path = []) ∧
    (failed.phase = Phase.done) ∧
    (failed.recState = 0) ∧
    ((witness_Queue_6_1_s.cex.queues.get key0.queue.toNat).frames = []) ∧
    (wantsRecord
        { key := failed.key, raw := failed.raw, phase := Phase.completed, status := failed.status, detail := failed.detail, startedAt := failed.startedAt,
          recState := failed.recState, override := failed.override } =
      true) :=
  ⟨by decide +kernel, by decide +kernel, by decide +kernel, by decide +kernel, by decide +kernel, by decide +kernel, by decide +kernel⟩
def witness_Queue_7_s : Machine.State := withQ fun q => { q with state := 0 }
theorem witness_Queue_7 :
    (witness_Queue_7_s.rcv.fwRunning = true) ∧
    (mayWrite Principal.hostk [1] witness_Queue_7_s = true) ∧
    (enableRefusal witness_Queue_7_s (witness_Queue_7_s.cex.queues.get 0) = none) :=
  ⟨by decide +kernel, by decide +kernel, by decide +kernel⟩
theorem witness_Queue_8 :
    ((withQ id).rcv.fwRunning = true) ∧
    (mayWrite Principal.hostk [1] (withQ id) = true) ∧
    (((withQ id).cex.queues.get 0).state = 1) ∧
    (((withQ id).cex.queues.get 0).owner = 16 ∨ tdiLocked (withQ id) ((withQ id).cex.queues.get 0).owner = false) :=
  ⟨by decide +kernel, by decide +kernel, by decide +kernel, by decide +kernel⟩
def witness_Queue_9_s : Machine.State := withQ fun q => { q with halted := true, state := 2 }
theorem witness_Queue_9 :
    (witness_Queue_9_s.rcv.fwRunning = true) ∧
    (mayWrite Principal.hostk [1, 5] witness_Queue_9_s = true) ∧
    (notOwner Principal.hostk (witness_Queue_9_s.cex.queues.get 0) = false) ∧
    ((witness_Queue_9_s.cex.queues.get 0).halted = true) :=
  ⟨by decide +kernel, by decide +kernel, by decide +kernel, by decide +kernel⟩
/-- A command of a COMPAT queue in hand. -/
def compat (o : Option Nat) : Flight := { flight (hdr 1) 0x100 [] .running with override := o }
def witness_Queue_10_s : Machine.State := withQ fun q => { q with compat := true, flights := [compat none] }
theorem witness_Queue_10 :
    (witness_Queue_10_s.flight key0 = some (compat none)) ∧
    ((witness_Queue_10_s.q key0).compat = true) ∧
    ((compat none).phase = Phase.running) ∧
    (compatExempt (rawOpcode (compat none).raw) = false) :=
  ⟨by decide +kernel, by decide +kernel, by decide +kernel, by decide +kernel⟩
def witness_Queue_11_s : Machine.State := withQ fun q => { q with compat := true, flights := [compat (some St.timeout)] }
theorem witness_Queue_11 :
    (witness_Queue_11_s.flight key0 = some (compat (some St.timeout))) ∧
    ((compat (some St.timeout)).phase = Phase.running) ∧
    ((compat (some St.timeout)).override = some St.timeout) ∧
    (0 % 256 ≠ 45) :=
  ⟨by decide +kernel, by decide +kernel, by decide +kernel, by decide +kernel⟩

/-- A record of a kind that waits at ring 1. -/
def evRec (kind : Nat) : EvWait := {
  record := { cookie := 1, timestamp := 2, detail := 3, context := 4, status := 5, queue := 6, kind }, signal := true, fwd := none, key := none, slices := [1], sample := none }
def withRing (f : EventRing → EventRing) : State := { base with cex := { base.cex with rings := base.cex.rings.upd 1 f } }
def witness_EventRing_0_rest : List EvWait := [evRec 3]
def witness_EventRing_0_s : Machine.State := withRing fun r => { r with waiting := [evRec 1, evRec 3], prod := 4079 }
theorem witness_EventRing_0 :
    (1 ≤ 16) ∧
    ((witness_EventRing_0_s.cex.rings.get 1).waiting = evRec 1 :: witness_EventRing_0_rest) ∧
    ((witness_EventRing_0_s.cex.rings.get 1).faulted = false) ∧
    (ringSpace (witness_EventRing_0_s.cex.rings.get 1) (evRec 1).record.kind = true) ∧
    (recordOpen (evRec 1) witness_EventRing_0_s (recordGate (evRec 1) witness_EventRing_0_s) = true) :=
  ⟨by decide +kernel, by decide +kernel, by decide +kernel, by decide +kernel, by decide +kernel⟩
def witness_EventRing_1_rest : List EvWait := [evRec 1]
def witness_EventRing_1_s : Machine.State := withRing fun r => { r with waiting := [evRec 7, evRec 1], prod := 4080 }
theorem witness_EventRing_1 :
    (1 ≤ 16) ∧
    ((witness_EventRing_1_s.cex.rings.get 1).waiting = evRec 7 :: witness_EventRing_1_rest) ∧
    ((evRec 7).record.kind ≠ 1) ∧
    (ringSpace (witness_EventRing_1_s.cex.rings.get 1) (evRec 7).record.kind = false) ∧
    (recordOpen (evRec 7) witness_EventRing_1_s (recordGate (evRec 7) witness_EventRing_1_s) = true) :=
  ⟨by decide +kernel, by decide +kernel, by decide +kernel, by decide +kernel, by decide +kernel⟩
def witness_EventRing_2_s : Machine.State := (let s := withRing fun r => { r with waiting := [evRec 3] }; { s with ac := s.ac.set (gateKey 3 1) 5 })
theorem witness_EventRing_2 :
    (1 ≤ 16) ∧
    ((witness_EventRing_2_s.cex.rings.get 1).waiting = [evRec 3]) ∧
    (mustWait (witness_EventRing_2_s.cex.rings.get 1) (evRec 3) = false) ∧
    (recordOpen (evRec 3) witness_EventRing_2_s (recordGate (evRec 3) witness_EventRing_2_s) = false) :=
  ⟨by decide +kernel, by decide +kernel, by decide +kernel, by decide +kernel⟩
def witness_EventRing_3_s : Machine.State := { base with cex := { base.cex with rings := base.cex.rings.upd 16 (fun r => { r with unsignalled := 1 }) } }
theorem witness_EventRing_3 :
    (0 < (witness_EventRing_3_s.cex.rings.get 16).unsignalled) :=
  by decide +kernel
def witness_EventRing_4_s : Machine.State := withRing fun r => { r with faulted := true, prod := 1 }
theorem witness_EventRing_4 :
    (witness_EventRing_4_s.rcv.fwRunning = true) ∧
    (mayWrite (Principal.slice 1#4) [1, 5] witness_EventRing_4_s = true) ∧
    (1 ≤ 16) ∧
    (∀ (m : BitVec 4), Principal.slice 1#4 = Principal.slice m → m.toNat = 1) ∧
    ((witness_EventRing_4_s.cex.rings.get 1).faulted = true ∨ (witness_EventRing_4_s.cex.rings.get 1).prod = (witness_EventRing_4_s.cex.rings.get 1).cons) ∧
    (4096 % 4096 = 0) :=
  ⟨by decide +kernel, by decide +kernel, by decide +kernel, by decide +kernel, by decide +kernel, by decide +kernel⟩
theorem witness_EventRing_4_alt2 :
    (base.rcv.fwRunning = true) ∧
    (mayWrite Principal.hostk [1, 5] base = true) ∧
    (16 ≤ 16) ∧
    (∀ (m : BitVec 4), Principal.hostk = Principal.slice m → m.toNat = 16) ∧
    ((base.cex.rings.get 16).faulted = true ∨ (base.cex.rings.get 16).prod = (base.cex.rings.get 16).cons) ∧
    (4096 % 4096 = 0) :=
  ⟨by decide +kernel, by decide +kernel, by decide +kernel, by decide +kernel, by decide +kernel, by decide +kernel⟩
def witness_EventRing_5_s : Machine.State := withRing fun r => { r with prod := 3, cons := 0 }
theorem witness_EventRing_5 :
    (1 ≤ 16) ∧
    (((witness_EventRing_5_s.cex.rings.get 1).prod + 2 ^ 32 - 3) % 2 ^ 32 ≤
      ((witness_EventRing_5_s.cex.rings.get 1).prod + 2 ^ 32 - (witness_EventRing_5_s.cex.rings.get 1).cons) % 2 ^ 32) :=
  ⟨by decide +kernel, by decide +kernel⟩

theorem witness_Interrupt_0 :
    (reservedSource 447 = false) :=
  by decide +kernel
theorem witness_Interrupt_0_alt2 :
    (reservedSource 26 = false) :=
  by decide +kernel
theorem witness_Interrupt_1 :
    (reservedSource 64 = false) ∧
    (isLevel 64 = true) :=
  ⟨by decide +kernel, by decide +kernel⟩
/-- Source 5 of pair 0 is pending and enabled. -/
def pendingSrc : State := updIcuPair false (fun p => { p with pmr := 16 }) (updSrc false 5 (fun c => { c with pending := true, masked := false, priority := 4 }) base)
theorem witness_Interrupt_2 :
    (bestSource false pendingSrc = some (4, 5)) :=
  by decide +kernel
theorem witness_Interrupt_3 :
    (bestSource true base = none) :=
  by decide +kernel
def witness_Interrupt_4_s : Machine.State := updIcuPair false (fun p => { p with stack := [(4, 5)] }) base
theorem witness_Interrupt_4 :
    ((witness_Interrupt_4_s.icu.pairs.get (b2n false)).stack = [(4, 5)]) ∧
    (5 = 5 % 1024) :=
  ⟨by decide +kernel, by decide +kernel⟩
theorem witness_Interrupt_5 :
    (447 ∈ bitmapSources (BitVec.ofNat 512 (2 ^ 447))) :=
  by decide +kernel
theorem witness_Interrupt_10 :
    ((base.icu.pairs.get (b2n false)).fwd.go = false) ∧
    (16 ≤ 16) ∧
    (fwdKind 3 = true) :=
  ⟨by decide +kernel, by decide +kernel, by decide +kernel⟩
theorem witness_Interrupt_11 :
    (447 < 448) :=
  by decide +kernel
theorem witness_Interrupt_12 :
    (16 % 32 ≤ 16) :=
  by decide +kernel

end Sys2Proof.Tests
end

