-- ==== Sys2Proof/Tests/WitnessHost.lean ====
section
/-!
SUPPORT. States that meet the hypotheses of the statements about the host link, the SPDM responder, the dictionary and the management network.
-/
set_option Elab.async false
namespace Sys2Proof.Tests
open Sys2Proof Sys2Proof.Machine

/-! ### The host link -/

/-- Slice 1's IDE stream is Secure. -/
def secured : State := updIde 1 (fun x => { x with id := 4, secure := true, active := Tbl.const true, programmed := Tbl.const true }) base
/-- A group of slice 1 is accepted and not verified. -/
def unverified1 : State := { base with ac := base.ac.set (gateKey 0 1) 1 }
def witness_HostTlp_0_0_header : Bytes := [1, 2]
def witness_HostTlp_0_0_s : Machine.State := { base with tdi := base.tdi.set 1 3 }
theorem witness_HostTlp_0_0 :
    (GateIdle witness_HostTlp_0_0_s) ∧
    (1 < 16) ∧
    (witness_HostTlp_0_0_s.tdi.get 1 = 3) :=
  ⟨gateIdle_of (by decide +kernel), by decide +kernel, by decide +kernel⟩
def witness_HostTlp_0_1_header : Bytes := [1, 2]
theorem witness_HostTlp_0_1 :
    (GateIdle base) ∧
    (1 < 16) ∧
    (base.tdi.get 1 ≠ 3) ∧
    (gateOpen base 1 (gateSample base 1) = true) ∧
    ((base.ideOf 1).secure = false) :=
  ⟨gateIdle_of (by decide +kernel), by decide +kernel, by decide +kernel, by decide +kernel, by decide +kernel⟩
def witness_HostTlp_0_2_header : Bytes := [1, 2]
theorem witness_HostTlp_0_2 :
    (GateIdle secured) ∧
    (1 < 16) ∧
    (secured.tdi.get 1 ≠ 3) ∧
    (gateOpen secured 1 (gateSample secured 1) = true) ∧
    ((secured.ideOf 1).secure = true) :=
  ⟨gateIdle_of (by decide +kernel), by decide +kernel, by decide +kernel, by decide +kernel, by decide +kernel⟩
def witness_HostTlp_0_2_alt2_header : Bytes := [1, 2]
def witness_HostTlp_0_2_alt2_s : Machine.State := { secured with link := { secured.link with ideAggregation := 2 } }
theorem witness_HostTlp_0_2_alt2 :
    (GateIdle witness_HostTlp_0_2_alt2_s) ∧
    (1 < 16) ∧
    (witness_HostTlp_0_2_alt2_s.tdi.get 1 ≠ 3) ∧
    (gateOpen witness_HostTlp_0_2_alt2_s 1 (gateSample witness_HostTlp_0_2_alt2_s 1) = true) ∧
    ((witness_HostTlp_0_2_alt2_s.ideOf 1).secure = true) :=
  ⟨gateIdle_of (by decide +kernel), by decide +kernel, by decide +kernel, by decide +kernel, by decide +kernel⟩
def witness_HostTlp_0_3_header : Bytes := [1, 2]
theorem witness_HostTlp_0_3 :
    (GateIdle unverified1) ∧
    (1 < 16) ∧
    (unverified1.tdi.get 1 ≠ 3) ∧
    (gateOpen unverified1 1 (gateSample unverified1 1) = false) :=
  ⟨gateIdle_of (by decide +kernel), by decide +kernel, by decide +kernel, by decide +kernel⟩
def witness_HostTlp_0_4_header : Bytes := [1, 2]
theorem witness_HostTlp_0_4 :
    (GateIdle base) ∧
    (16 ≤ 16) ∧
    (∀ (i : Nat), i < 16 → gateOpen base i (gateSample base i) = true) :=
  ⟨gateIdle_of (by decide +kernel), by decide +kernel, (by decide +kernel)⟩
theorem witness_HostTlp_1 :
    (GateIdle secured) ∧
    (2 < 3) ∧
    ((secured.ideOf 1).secure = true) ∧
    ((secured.ideOf 1).active.get (ideSet false 2 false) = true) :=
  ⟨gateIdle_of (by decide +kernel), by decide +kernel, by decide +kernel, by decide +kernel⟩
/-- A session of the host link is established. -/
def hostSession (s : State) : State := { s with dom := { s.dom with sessions := s.dom.sessions.set 2 { phase := 2, transport := 0 } } }
theorem witness_IdeAndTdisp_0_0 :
    (doeSession (hostSession secured) 2 = true) :=
  by decide +kernel
theorem witness_IdeAndTdisp_0_1 :
    (doeSession (hostSession base) 2 = true) ∧
    (2 < 3) ∧
    (ideIdFree (hostSession base) 1 4 = true) :=
  ⟨by decide +kernel, by decide +kernel, by decide +kernel⟩
theorem witness_IdeAndTdisp_0_2 :
    (doeSession (hostSession base) 2 = true) ∧
    (3 ≤ 3 ∨ ideIdFree (hostSession base) 1 4 = false) :=
  ⟨by decide +kernel, by decide +kernel⟩
def witness_IdeAndTdisp_0_2_alt2_s : Machine.State := updIde 1 (fun x => { x with id := 4, programmed := x.programmed.set 3 true }) (hostSession base)
theorem witness_IdeAndTdisp_0_2_alt2 :
    (doeSession witness_IdeAndTdisp_0_2_alt2_s 2 = true) ∧
    (3 ≤ 1 ∨ ideIdFree witness_IdeAndTdisp_0_2_alt2_s 1 5 = false) :=
  ⟨by decide +kernel, by decide +kernel⟩
theorem witness_IdeAndTdisp_0_3 :
    (doeSession (hostSession secured) 2 = true) ∧
    (1 < 3) ∧
    (((hostSession secured).ideOf 1).programmed.get (ideSet true 1 true) = true) :=
  ⟨by decide +kernel, by decide +kernel, by decide +kernel⟩
theorem witness_IdeAndTdisp_0_4 :
    (doeSession (hostSession secured) 2 = true) ∧
    (1 < 3) ∧
    (GateIdle (hostSession secured)) :=
  ⟨by decide +kernel, by decide +kernel, gateIdle_of (by decide +kernel)⟩
theorem witness_IdeAndTdisp_1_0 :
    (doeSession (hostSession base) 2 = true) :=
  by decide +kernel
/-- Slice 1's interface in a state. -/
def tdiIn (n : Nat) : State := { hostSession secured with tdi := base.tdi.set 1 n }
theorem witness_IdeAndTdisp_1_2 :
    (doeSession (tdiIn 0) 2 = true) ∧
    ((tdiIn 0).tdi.get 1 = 0) ∧
    (((tdiIn 0).slice 1).state ≠ 0) ∧
    (((tdiIn 0).ideOf 1).secure = true) :=
  ⟨by decide +kernel, by decide +kernel, by decide +kernel, by decide +kernel⟩
theorem witness_IdeAndTdisp_1_3 :
    (doeSession (tdiIn 1) 2 = true) ∧
    ((tdiIn 1).tdi.get 1 ≠ 0 ∨ ((tdiIn 1).slice 1).state = 0 ∨ ((tdiIn 1).ideOf 1).secure = false) :=
  ⟨by decide +kernel, by decide +kernel⟩
theorem witness_IdeAndTdisp_1_3_alt2 :
    (doeSession (hostSession base) 2 = true) ∧
    ((hostSession base).tdi.get 1 ≠ 0 ∨ ((hostSession base).slice 1).state = 0 ∨ ((hostSession base).ideOf 1).secure = false) :=
  ⟨by decide +kernel, by decide +kernel⟩
theorem witness_IdeAndTdisp_1_6 :
    (doeSession (tdiIn 1) 2 = true) ∧
    ((tdiIn 1).tdi.get 1 = 1) :=
  ⟨by decide +kernel, by decide +kernel⟩
theorem witness_IdeAndTdisp_1_7 :
    (doeSession (tdiIn 2) 2 = true) ∧
    ((tdiIn 2).tdi.get 1 ≠ 1) :=
  ⟨by decide +kernel, by decide +kernel⟩
theorem witness_IdeAndTdisp_1_8 :
    (doeSession (tdiIn 2) 2 = true) :=
  by decide +kernel
theorem witness_IdeAndTdisp_2 :
    (doeSession base 2 = false) :=
  by decide +kernel

/-! ### SPDM -/

/-- A request of slice 1's interface outside a session, and one in session 2. -/
def plainReq : SpdmHdr := { mctp := false, tdi := 1, session := none, version := 0x12 }
def sessionReq : SpdmHdr := { plainReq with session := some 2 }
/-- The connection has reached a phase. -/
def phased (n : Nat) : State := updConn plainReq (fun c => { c with phase := n, version := 0x12, selected := true }) base
/-- The alias pair is there. -/
def signs (s : State) : State := { s with pke := s.pke.set 1 { valid := true, seed := [1] } }
theorem witness_Spdm_0_0 :
    (base.rcv.fwRunning = true) ∧
    (plainReq.session = none) :=
  ⟨by decide +kernel, by decide +kernel⟩
theorem witness_Spdm_0_1 :
    ((phased 1).rcv.fwRunning = true) ∧
    (plainReq.session = none) ∧
    ((connOf plainReq (phased 1)).phase ≠ 0) ∧
    (plainReq.version = 18#8 ∨ plainReq.version = 19#8) :=
  ⟨by decide +kernel, by decide +kernel, by decide +kernel, by decide +kernel⟩
def witness_Spdm_0_2_m : SpdmHdr := { plainReq with version := 0x14 }
def witness_Spdm_0_2_s : Machine.State := updConn plainReq (fun c => { c with phase := 1 }) base
theorem witness_Spdm_0_2 :
    (witness_Spdm_0_2_s.rcv.fwRunning = true) ∧
    (witness_Spdm_0_2_m.session = none) ∧
    ((connOf witness_Spdm_0_2_m witness_Spdm_0_2_s).phase ≠ 0) ∧
    (witness_Spdm_0_2_m.version ≠ 18#8) ∧
    (witness_Spdm_0_2_m.version ≠ 19#8) :=
  ⟨by decide +kernel, by decide +kernel, by decide +kernel, by decide +kernel, by decide +kernel⟩
theorem witness_Spdm_0_4 :
    ((phased 2).rcv.fwRunning = true) ∧
    (plainReq.session = none) ∧
    ((connOf plainReq (phased 2)).phase < 3) :=
  ⟨by decide +kernel, by decide +kernel, by decide +kernel⟩
theorem witness_Spdm_1_0 :
    (Accepts 2 plainReq (phased 2)) ∧
    (plainReq.session = none) ∧
    (bit 128 7 = true) ∧
    (bit 2 1 = true) :=
  ⟨accepts_of (by decide +kernel), by decide +kernel, by decide +kernel, by decide +kernel⟩
theorem witness_Spdm_1_1 :
    (Accepts 2 plainReq (phased 2)) ∧
    (plainReq.session = none) ∧
    (bit 127 7 = false ∨ bit 2 1 = false) :=
  ⟨accepts_of (by decide +kernel), by decide +kernel, by decide +kernel⟩
theorem witness_Spdm_2_0 :
    (Accepts 3 plainReq (phased 3)) :=
  accepts_of (by decide +kernel)
theorem witness_Spdm_2_1 :
    (Accepts 3 plainReq (phased 3)) ∧
    (1 ≤ 1) :=
  ⟨accepts_of (by decide +kernel), by decide +kernel⟩
def witness_Spdm_3_0_s : Machine.State := signs (phased 3)
theorem witness_Spdm_3_0 :
    (Accepts 3 plainReq witness_Spdm_3_0_s) ∧
    (plainReq.session = none) ∧
    (canSign witness_Spdm_3_0_s = true) :=
  ⟨accepts_of (by decide +kernel), by decide +kernel, by decide +kernel⟩
theorem witness_Spdm_3_1 :
    (Accepts 3 plainReq (phased 3)) ∧
    (plainReq.session = none) ∧
    (canSign (phased 3) = false) :=
  ⟨accepts_of (by decide +kernel), by decide +kernel, by decide +kernel⟩
/-- The measurements that an index names. -/
def selected0 : List Nat := (measSelect plainReq 0).getD []
theorem witness_Spdm_4_0 :
    (Accepts 3 plainReq (phased 3)) ∧
    (measSelect plainReq 0 = some selected0) ∧
    (0#8 ≠ 239#8) :=
  ⟨accepts_of (by decide +kernel), by decide +kernel, by decide +kernel⟩
def witness_Spdm_4_1_s : Machine.State := signs (phased 3)
theorem witness_Spdm_4_1 :
    (Accepts 3 plainReq witness_Spdm_4_1_s) ∧
    (measSelect plainReq 0 = some selected0) ∧
    (canSign witness_Spdm_4_1_s = true) :=
  ⟨accepts_of (by decide +kernel), by decide +kernel, by decide +kernel⟩
theorem witness_Spdm_4_2 :
    (Accepts 3 plainReq (phased 3)) ∧
    (measSelect plainReq 0 = some selected0) ∧
    (canSign (phased 3) = false) :=
  ⟨accepts_of (by decide +kernel), by decide +kernel, by decide +kernel⟩
def witness_Spdm_5_0_data : Bytes := [1, 2]
theorem witness_Spdm_5_0 :
    (Accepts 2 plainReq (phased 2)) ∧
    (0 = 0 ∨ 0 = (connOf plainReq (phased 2)).chunk) :=
  ⟨accepts_of (by decide +kernel), by decide +kernel⟩
def witness_Spdm_5_0_alt2_data : Bytes := [1, 2]
def witness_Spdm_5_0_alt2_s : Machine.State := updConn plainReq (fun c => { c with chunk := 1, large := [0] }) (phased 2)
theorem witness_Spdm_5_0_alt2 :
    (Accepts 2 plainReq witness_Spdm_5_0_alt2_s) ∧
    (1 = 0 ∨ 1 = (connOf plainReq witness_Spdm_5_0_alt2_s).chunk) :=
  ⟨accepts_of (by decide +kernel), by decide +kernel⟩
def witness_Spdm_5_1_s : Machine.State := updConn plainReq (fun c => { c with out := List.replicate 1025 7, outAt := 1024 }) (phased 2)
theorem witness_Spdm_5_1 :
    (Accepts 2 plainReq witness_Spdm_5_1_s) ∧
    ((connOf plainReq witness_Spdm_5_1_s).out ≠ []) ∧
    ((connOf plainReq witness_Spdm_5_1_s).outAt = 1024 * 1) :=
  ⟨accepts_of (by decide +kernel), by decide +kernel, by decide +kernel⟩
/-- Session 2 of slice 1's interface has reached a phase. -/
def inSession (phase update : Nat) : State := updSession 2 (fun _ => { phase, transport := 0, heartbeat := 3, update }) (signs (phased 3))
theorem witness_Spdm_6_0 :
    (Accepts 3 sessionReq (Tests.inSession 2 0)) ∧
    (sessionReq.session.isSome = true ∧ sessionReq.mctp = false ∧ 3#16 = 3#16 ∧ 1#16 = 1#16) :=
  ⟨accepts_of (by decide +kernel), by decide +kernel⟩
theorem witness_Spdm_6_1 :
    (Accepts 3 plainReq (phased 3)) ∧
    (¬(plainReq.session.isSome = true ∧ plainReq.mctp = false ∧ 3#16 = 3#16 ∧ 1#16 = 1#16)) :=
  ⟨accepts_of (by decide +kernel), by decide +kernel⟩
def witness_SpdmSessions_0_0_s : Machine.State := signs (phased 3)
theorem witness_SpdmSessions_0_0 :
    (Accepts 3 plainReq witness_SpdmSessions_0_0_s) ∧
    (plainReq.session = none) ∧
    ((connOf plainReq witness_SpdmSessions_0_0_s).selected = true) ∧
    (List.find? (fun n => (witness_SpdmSessions_0_0_s.dom.sessions.get n).phase == 0) (List.range 8) = some 0) ∧
    (canSign witness_SpdmSessions_0_0_s = true ∧ kweRuns witness_SpdmSessions_0_0_s = true ∧ (freePke witness_SpdmSessions_0_0_s).isSome = true) :=
  ⟨accepts_of (by decide +kernel), by decide +kernel, by decide +kernel, by decide +kernel, by decide +kernel⟩
theorem witness_SpdmSessions_0_1 :
    (Accepts 3 plainReq (phased 3)) ∧
    (plainReq.session = none) ∧
    ((connOf plainReq (phased 3)).selected = true) ∧
    (List.find? (fun n => ((phased 3).dom.sessions.get n).phase == 0) (List.range 8) = some 0) ∧
    (¬(canSign (phased 3) = true ∧ kweRuns (phased 3) = true ∧ (freePke (phased 3)).isSome = true)) :=
  ⟨accepts_of (by decide +kernel), by decide +kernel, by decide +kernel, by decide +kernel, by decide +kernel⟩
theorem witness_SpdmSessions_1_0_0 :
    (Accepts 3 sessionReq (Tests.inSession 1 0)) ∧
    (sessionReq.session = some 2#3) ∧
    ((Tests.inSession 1 0).kst.dflt = { key := 0#256, attr := 0#64, binding := 281470681743360#64, wrapId := 0#128 : Slot }) ∧
    (((Tests.inSession 1 0).dom.sessions.get 2).phase = 1) ∧
    (kweRuns (Tests.inSession 1 0) = true) :=
  ⟨accepts_of (by decide +kernel), by decide +kernel, by decide +kernel, by decide +kernel, by decide +kernel⟩
theorem witness_SpdmSessions_1_1_0 :
    (Accepts 3 sessionReq (Tests.inSession 2 0)) ∧
    (sessionReq.session = some 2#3) ∧
    ((Tests.inSession 2 0).kst.dflt = { key := 0#256, attr := 0#64, binding := 281470681743360#64, wrapId := 0#128 : Slot }) ∧
    (((Tests.inSession 2 0).dom.sessions.get 2).phase = 2) :=
  ⟨accepts_of (by decide +kernel), by decide +kernel, by decide +kernel, by decide +kernel⟩
theorem witness_SpdmSessions_1_1_1 :
    (Accepts 3 sessionReq (Tests.inSession 2 0)) ∧
    (sessionReq.session = some 2#3) ∧
    ((Tests.inSession 2 0).kst.dflt = { key := 0#256, attr := 0#64, binding := 281470681743360#64, wrapId := 0#128 : Slot }) ∧
    (((Tests.inSession 2 0).dom.sessions.get 2).phase = 2) ∧
    (((Tests.inSession 2 0).dom.sessions.get 2).update = 0) ∧
    (kweRuns (Tests.inSession 2 0) = true) :=
  ⟨accepts_of (by decide +kernel), by decide +kernel, by decide +kernel, by decide +kernel, by decide +kernel, by decide +kernel⟩
theorem witness_SpdmSessions_1_1_2 :
    (Accepts 3 sessionReq (Tests.inSession 2 1)) ∧
    (sessionReq.session = some 2#3) ∧
    ((Tests.inSession 2 1).kst.dflt = { key := 0#256, attr := 0#64, binding := 281470681743360#64, wrapId := 0#128 : Slot }) ∧
    (((Tests.inSession 2 1).dom.sessions.get 2).phase = 2) ∧
    (((Tests.inSession 2 1).dom.sessions.get 2).update ≠ 0) :=
  ⟨accepts_of (by decide +kernel), by decide +kernel, by decide +kernel, by decide +kernel, by decide +kernel⟩
theorem witness_SpdmSessions_2 :
    ((Tests.inSession 2 0).kst.dflt = { key := 0#256, attr := 0#64, binding := 281470681743360#64, wrapId := 0#128 : Slot }) ∧
    (((Tests.inSession 2 0).dom.sessions.get 2).phase = 2) ∧
    (((Tests.inSession 2 0).dom.sessions.get 2).heartbeat ≠ 0) :=
  ⟨by decide +kernel, by decide +kernel, by decide +kernel⟩
theorem witness_SpdmSessions_3 :
    (State.reset.rcv.fwRunning = false) :=
  by decide +kernel

/-! ### The dictionary -/

/-- A dictionary message. -/
def dictMsg (flags type : BitVec 8) (index : BitVec 16) (sub : BitVec 8) (segNo : BitVec 16) (total : BitVec 32) (data : Bytes) : DictMsg :=
  { flags, tag := 9, type, index, sub, reserved := 0, status := 0, segNo, total, data }
/-- The management network's path. -/
def bus : DictPath := .i3c 8
/-- An entry's row. -/
def rowAt (ix sub : Nat) : DictRow := (dictRow ix sub).getD ⟨0, 0, 0, 0, 0, 0, 0, 0, 0⟩
/-- A message that carries `n` octets of a long entry. -/
def segment (flags type : BitVec 8) (ix : BitVec 16) (sub : BitVec 8) (no : BitVec 16) (total : BitVec 32) (n : Nat) : DictMsg := dictMsg flags type ix sub no total (List.replicate n 0)
theorem witness_Dictionary_0_0 :
    (pathOpen base bus = true) ∧
    (msgWhole (dictMsg 0#8 3#8 20481#16 4#8 0#16 0#32 []) = false) :=
  ⟨by decide +kernel, by decide +kernel⟩
theorem witness_Dictionary_0_0_alt2 :
    (pathOpen base bus = true) ∧
    (msgWhole (dictMsg 0#8 0#8 20481#16 40#8 0#16 0#32 []) = false) :=
  ⟨by decide +kernel, by decide +kernel⟩
theorem witness_Dictionary_0_1 :
    (pathOpen base bus = true) ∧
    (msgWhole (dictMsg 1#8 8#8 20481#16 0#8 0#16 0#32 []) = true) ∧
    (headerReserved 1 (dictMsg 1#8 8#8 20481#16 0#8 0#16 0#32 []) = false) ∧
    (wellFormed 1 (segMax bus) (dictMsg 1#8 8#8 20481#16 0#8 0#16 0#32 []) = true) ∧
    ((dictMsg 1#8 8#8 20481#16 0#8 0#16 0#32 []).type = 0#8 ∨ (dictMsg 1#8 8#8 20481#16 0#8 0#16 0#32 []).type = 8#8) ∧
    (indexRows (dictMsg 1#8 8#8 20481#16 0#8 0#16 0#32 []).index.toNat ≠ []) ∧
    (∀ (e : Nat × DictRow),
      e ∈ indexRows (dictMsg 1#8 8#8 20481#16 0#8 0#16 0#32 []).index.toNat →
        dictAvailable
            (if (dictMsg 1#8 8#8 20481#16 0#8 0#16 0#32 []).index.toNat ∈ [32832, 32833] then
              readSensors (asked bus (dictMsg 1#8 8#8 20481#16 0#8 0#16 0#32 []) base)
            else asked bus (dictMsg 1#8 8#8 20481#16 0#8 0#16 0#32 []) base)
            (dictMsg 1#8 8#8 20481#16 0#8 0#16 0#32 []).index.toNat e.fst =
          true) ∧
    (List.filter
        (fun e =>
          !traceClosed
              (if (dictMsg 1#8 8#8 20481#16 0#8 0#16 0#32 []).index.toNat ∈ [32832, 32833] then
                readSensors (asked bus (dictMsg 1#8 8#8 20481#16 0#8 0#16 0#32 []) base)
              else asked bus (dictMsg 1#8 8#8 20481#16 0#8 0#16 0#32 []) base)
              (dictMsg 1#8 8#8 20481#16 0#8 0#16 0#32 []).index.toNat e.fst)
        (List.filter
          (fun e =>
            (principalOf bus (msgDbg (dictMsg 1#8 8#8 20481#16 0#8 0#16 0#32 []))).elim false fun w =>
              mayReach w (arrivalOf bus) e.snd (dictMsg 1#8 8#8 20481#16 0#8 0#16 0#32 []).index.toNat e.fst false
                (if (dictMsg 1#8 8#8 20481#16 0#8 0#16 0#32 []).index.toNat ∈ [32832, 32833] then
                  readSensors (asked bus (dictMsg 1#8 8#8 20481#16 0#8 0#16 0#32 []) base)
                else asked bus (dictMsg 1#8 8#8 20481#16 0#8 0#16 0#32 []) base))
          (indexRows (dictMsg 1#8 8#8 20481#16 0#8 0#16 0#32 []).index.toNat)) ≠
      []) ∧
    (List.length
        (wholeValue
          (if (dictMsg 1#8 8#8 20481#16 0#8 0#16 0#32 []).index.toNat ∈ [32832, 32833] then
            readSensors (asked bus (dictMsg 1#8 8#8 20481#16 0#8 0#16 0#32 []) base)
          else asked bus (dictMsg 1#8 8#8 20481#16 0#8 0#16 0#32 []) base)
          (dictMsg 1#8 8#8 20481#16 0#8 0#16 0#32 []).index.toNat
          (List.filter
            (fun e =>
              !traceClosed
                  (if (dictMsg 1#8 8#8 20481#16 0#8 0#16 0#32 []).index.toNat ∈ [32832, 32833] then
                    readSensors (asked bus (dictMsg 1#8 8#8 20481#16 0#8 0#16 0#32 []) base)
                  else asked bus (dictMsg 1#8 8#8 20481#16 0#8 0#16 0#32 []) base)
                  (dictMsg 1#8 8#8 20481#16 0#8 0#16 0#32 []).index.toNat e.fst)
            (List.filter
              (fun e =>
                (principalOf bus (msgDbg (dictMsg 1#8 8#8 20481#16 0#8 0#16 0#32 []))).elim false fun w =>
                  mayReach w (arrivalOf bus) e.snd (dictMsg 1#8 8#8 20481#16 0#8 0#16 0#32 []).index.toNat e.fst false
                    (if (dictMsg 1#8 8#8 20481#16 0#8 0#16 0#32 []).index.toNat ∈ [32832, 32833] then
                      readSensors (asked bus (dictMsg 1#8 8#8 20481#16 0#8 0#16 0#32 []) base)
                    else asked bus (dictMsg 1#8 8#8 20481#16 0#8 0#16 0#32 []) base))
              (indexRows (dictMsg 1#8 8#8 20481#16 0#8 0#16 0#32 []).index.toNat)))) ≤
      segMax bus) :=
  ⟨by decide +kernel, by decide +kernel, by decide +kernel, by decide +kernel, by decide +kernel, by decide +kernel, by decide +kernel, by decide +kernel, by decide +kernel⟩
def witness_Dictionary_1_0_m : DictMsg := dictMsg 0 3 0x5000 1 0 2 [1, 0]
theorem witness_Dictionary_1_0 :
    (pathOpen base bus = true) ∧
    (headerReserved 2 witness_Dictionary_1_0_m = false) ∧
    (wellFormed 2 (segMax bus) witness_Dictionary_1_0_m = true) ∧
    (dictAvailable (asked bus witness_Dictionary_1_0_m base) witness_Dictionary_1_0_m.index.toNat witness_Dictionary_1_0_m.sub.toNat = true) ∧
    (dictRow witness_Dictionary_1_0_m.index.toNat witness_Dictionary_1_0_m.sub.toNat = some (rowAt 20480 1)) ∧
    (principalOf bus (msgDbg witness_Dictionary_1_0_m) = some Principal.tray) ∧
    (mayReach Principal.tray (arrivalOf bus) (rowAt 20480 1) witness_Dictionary_1_0_m.index.toNat witness_Dictionary_1_0_m.sub.toNat true
        (asked bus witness_Dictionary_1_0_m base) =
      false) :=
  ⟨by decide +kernel, by decide +kernel, by decide +kernel, by decide +kernel, by decide +kernel, by decide +kernel, by decide +kernel⟩
def witness_Dictionary_1_1_m : DictMsg := dictMsg 0 4 0x3010 4 0 4 [1, 0, 0, 0]
theorem witness_Dictionary_1_1 :
    (pathOpen base bus = true) ∧
    (headerReserved 2 witness_Dictionary_1_1_m = false) ∧
    (wellFormed 2 (segMax bus) witness_Dictionary_1_1_m = true) ∧
    (dictAvailable (asked bus witness_Dictionary_1_1_m base) witness_Dictionary_1_1_m.index.toNat witness_Dictionary_1_1_m.sub.toNat = true) ∧
    (dictRow witness_Dictionary_1_1_m.index.toNat witness_Dictionary_1_1_m.sub.toNat = some (rowAt 12304 4)) ∧
    (principalOf bus (msgDbg witness_Dictionary_1_1_m) = some Principal.tray) ∧
    (mayReach Principal.tray (arrivalOf bus) (rowAt 12304 4) witness_Dictionary_1_1_m.index.toNat witness_Dictionary_1_1_m.sub.toNat true
        (asked bus witness_Dictionary_1_1_m base) =
      true) ∧
    (typeFits (rowAt 12304 4) witness_Dictionary_1_1_m.type.toNat witness_Dictionary_1_1_m.total.toNat = false) :=
  ⟨by decide +kernel, by decide +kernel, by decide +kernel, by decide +kernel, by decide +kernel, by decide +kernel, by decide +kernel, by decide +kernel⟩
def witness_Dictionary_1_2_m : DictMsg := dictMsg 0 9 0x3010 4 0 4 [1, 0, 0, 0]
theorem witness_Dictionary_1_2 :
    (pathOpen base bus = true) ∧
    (headerReserved 2 witness_Dictionary_1_2_m = false) ∧
    (wellFormed 2 (segMax bus) witness_Dictionary_1_2_m = true) ∧
    (dictAvailable (asked bus witness_Dictionary_1_2_m base) witness_Dictionary_1_2_m.index.toNat witness_Dictionary_1_2_m.sub.toNat = true) ∧
    (dictRow witness_Dictionary_1_2_m.index.toNat witness_Dictionary_1_2_m.sub.toNat = some (rowAt 12304 4)) ∧
    (principalOf bus (msgDbg witness_Dictionary_1_2_m) = some Principal.tray) ∧
    (mayReach Principal.tray (arrivalOf bus) (rowAt 12304 4) witness_Dictionary_1_2_m.index.toNat witness_Dictionary_1_2_m.sub.toNat true
        (asked bus witness_Dictionary_1_2_m base) =
      true) ∧
    (typeFits (rowAt 12304 4) witness_Dictionary_1_2_m.type.toNat witness_Dictionary_1_2_m.total.toNat = true) ∧
    (msgSeg witness_Dictionary_1_2_m = false) :=
  ⟨by decide +kernel, by decide +kernel, by decide +kernel, by decide +kernel, by decide +kernel, by decide +kernel, by decide +kernel, by decide +kernel, by decide +kernel⟩
/-- The first segment of a long write. -/
def longWrite : DictMsg := segment 2 9 0x3010 4 0 7275 1024
theorem witness_Dictionary_1_3 :
    (pathOpen base bus = true) ∧
    (headerReserved 2 longWrite = false) ∧
    (wellFormed 2 (segMax bus) longWrite = true) ∧
    (dictAvailable (asked bus longWrite base) longWrite.index.toNat longWrite.sub.toNat = true) ∧
    (dictRow longWrite.index.toNat longWrite.sub.toNat = some (rowAt 12304 4)) ∧
    (principalOf bus (msgDbg longWrite) = some Principal.tray) ∧
    (mayReach Principal.tray (arrivalOf bus) (rowAt 12304 4) longWrite.index.toNat longWrite.sub.toNat true (asked bus longWrite base) = true) ∧
    (typeFits (rowAt 12304 4) longWrite.type.toNat longWrite.total.toNat = true) ∧
    (msgSeg longWrite = true) ∧
    (transRoom (asked bus longWrite base) longWrite.total.toNat = true) :=
  ⟨by decide +kernel, by decide +kernel, by decide +kernel, by decide +kernel, by decide +kernel, by decide +kernel, by decide +kernel, by decide +kernel, by decide +kernel, by decide +kernel⟩
/-- A transaction of the requester, of a long write after `n` segments. -/
def longTrans (n : Nat) : DictTrans :=
  { path := pathCode bus, requester := requesterOf base bus, tag := 9, read := false, who := .tray, index := 0x3010, sub := 4, snapshot := List.replicate (1024 * n) 0, total := 7275, segs := n, lastAt := 0, idleMs := 1000, arrival := 0, type := 9 }
def withTrans (l : List DictTrans) : State := { base with ods := { base.ods with trans := l } }
def witness_Dictionary_1_4_s : Machine.State := withTrans (List.replicate 8 { longTrans 1 with tag := 10 })
theorem witness_Dictionary_1_4 :
    (pathOpen witness_Dictionary_1_4_s bus = true) ∧
    (headerReserved 2 longWrite = false) ∧
    (wellFormed 2 (segMax bus) longWrite = true) ∧
    (dictAvailable (asked bus longWrite witness_Dictionary_1_4_s) longWrite.index.toNat longWrite.sub.toNat = true) ∧
    (dictRow longWrite.index.toNat longWrite.sub.toNat = some (rowAt 12304 4)) ∧
    (principalOf bus (msgDbg longWrite) = some Principal.tray) ∧
    (mayReach Principal.tray (arrivalOf bus) (rowAt 12304 4) longWrite.index.toNat longWrite.sub.toNat true
        (asked bus longWrite witness_Dictionary_1_4_s) =
      true) ∧
    (typeFits (rowAt 12304 4) longWrite.type.toNat longWrite.total.toNat = true) ∧
    (msgSeg longWrite = true) ∧
    (transRoom (asked bus longWrite witness_Dictionary_1_4_s) longWrite.total.toNat = false) :=
  ⟨by decide +kernel, by decide +kernel, by decide +kernel, by decide +kernel, by decide +kernel, by decide +kernel, by decide +kernel, by decide +kernel, by decide +kernel, by decide +kernel⟩
/-- A read of two segments. -/
def longRead : DictTrans := { longTrans 1 with read := true, snapshot := List.replicate 1025 0, total := 1025 }
def witness_Dictionary_2_0_0_s : Machine.State := { base with ods := { base.ods with ended := [(pathCode bus, requesterOf base bus, 9)] } }
theorem witness_Dictionary_2_0_0 :
    (pathOpen witness_Dictionary_2_0_0_s bus = true) ∧
    (headerReserved 3 (segment (2#8) (0#8) (0#16) (0#8) (1#16) (0#32) 0) = false) ∧
    (wellFormed 3 (segMax bus) (segment (2#8) (0#8) (0#16) (0#8) (1#16) (0#32) 0) = true) ∧
    ((pathCode bus, requesterOf witness_Dictionary_2_0_0_s bus, (segment (2#8) (0#8) (0#16) (0#8) (1#16) (0#32) 0).tag.toNat) ∈
      witness_Dictionary_2_0_0_s.ods.ended) :=
  ⟨by decide +kernel, by decide +kernel, by decide +kernel, by decide +kernel⟩
theorem witness_Dictionary_2_0_1 :
    (pathOpen base bus = true) ∧
    (headerReserved 3 (segment (2#8) (0#8) (0#16) (0#8) (1#16) (0#32) 0) = false) ∧
    (wellFormed 3 (segMax bus) (segment (2#8) (0#8) (0#16) (0#8) (1#16) (0#32) 0) = true) ∧
    (¬(pathCode bus, requesterOf base bus, (segment (2#8) (0#8) (0#16) (0#8) (1#16) (0#32) 0).tag.toNat) ∈ base.ods.ended) ∧
    (List.find?
        (sameTrans (pathCode bus, requesterOf base bus, (segment (2#8) (0#8) (0#16) (0#8) (1#16) (0#32) 0).tag.toNat).fst
          (pathCode bus, requesterOf base bus, (segment (2#8) (0#8) (0#16) (0#8) (1#16) (0#32) 0).tag.toNat).snd.fst
          (pathCode bus, requesterOf base bus, (segment (2#8) (0#8) (0#16) (0#8) (1#16) (0#32) 0).tag.toNat).snd.snd)
        base.ods.trans =
      none) :=
  ⟨by decide +kernel, by decide +kernel, by decide +kernel, by decide +kernel, by decide +kernel⟩
def witness_Dictionary_2_1_0_s : Machine.State := withTrans [longRead]
theorem witness_Dictionary_2_1_0 :
    (pathOpen witness_Dictionary_2_1_0_s bus = true) ∧
    (¬(pathCode bus, requesterOf witness_Dictionary_2_1_0_s bus, (segment (2#8) (0#8) (0#16) (0#8) (1#16) (0#32) 0).tag.toNat) ∈
        witness_Dictionary_2_1_0_s.ods.ended) ∧
    (List.find?
        (sameTrans (pathCode bus, requesterOf witness_Dictionary_2_1_0_s bus, (segment (2#8) (0#8) (0#16) (0#8) (1#16) (0#32) 0).tag.toNat).fst
          (pathCode bus, requesterOf witness_Dictionary_2_1_0_s bus, (segment (2#8) (0#8) (0#16) (0#8) (1#16) (0#32) 0).tag.toNat).snd.fst
          (pathCode bus, requesterOf witness_Dictionary_2_1_0_s bus, (segment (2#8) (0#8) (0#16) (0#8) (1#16) (0#32) 0).tag.toNat).snd.snd)
        witness_Dictionary_2_1_0_s.ods.trans =
      some longRead) ∧
    (headerReserved 3 (segment (2#8) (0#8) (0#16) (0#8) (1#16) (0#32) 0) = false) ∧
    (wellFormed 3 (segMax bus) (segment (2#8) (0#8) (0#16) (0#8) (1#16) (0#32) 0) = true) ∧
    (longRead.read = true) ∧
    ((segment (2#8) (0#8) (0#16) (0#8) (1#16) (0#32) 0).segNo.toNat * segMax bus < longRead.total) :=
  ⟨by decide +kernel, by decide +kernel, by decide +kernel, by decide +kernel, by decide +kernel, by decide +kernel, by decide +kernel⟩
def witness_Dictionary_2_1_1_0_s : Machine.State := withTrans [longTrans 1]
theorem witness_Dictionary_2_1_1_0 :
    (pathOpen witness_Dictionary_2_1_1_0_s bus = true) ∧
    (¬(pathCode bus, requesterOf witness_Dictionary_2_1_1_0_s bus, (segment (2#8) (0#8) (0#16) (0#8) (1#16) (0#32) 1024).tag.toNat) ∈
        witness_Dictionary_2_1_1_0_s.ods.ended) ∧
    (List.find?
        (sameTrans (pathCode bus, requesterOf witness_Dictionary_2_1_1_0_s bus, (segment (2#8) (0#8) (0#16) (0#8) (1#16) (0#32) 1024).tag.toNat).fst
          (pathCode bus, requesterOf witness_Dictionary_2_1_1_0_s bus, (segment (2#8) (0#8) (0#16) (0#8) (1#16) (0#32) 1024).tag.toNat).snd.fst
          (pathCode bus, requesterOf witness_Dictionary_2_1_1_0_s bus, (segment (2#8) (0#8) (0#16) (0#8) (1#16) (0#32) 1024).tag.toNat).snd.snd)
        witness_Dictionary_2_1_1_0_s.ods.trans =
      some (longTrans 1)) ∧
    (headerReserved 4 (segment (2#8) (0#8) (0#16) (0#8) (1#16) (0#32) 1024) = false) ∧
    (wellFormed 4 (segMax bus) (segment (2#8) (0#8) (0#16) (0#8) (1#16) (0#32) 1024) = true) ∧
    ((longTrans 1).read = false) ∧
    ((segment (2#8) (0#8) (0#16) (0#8) (1#16) (0#32) 1024).segNo.toNat = (longTrans 1).segs) ∧
    (msgLast (segment (2#8) (0#8) (0#16) (0#8) (1#16) (0#32) 1024) = false) ∧
    (List.length ((longTrans 1).snapshot ++ (segment (2#8) (0#8) (0#16) (0#8) (1#16) (0#32) 1024).data) < (longTrans 1).total) :=
  ⟨by decide +kernel, by decide +kernel, by decide +kernel, by decide +kernel, by decide +kernel, by decide +kernel, by decide +kernel, by decide +kernel, by decide +kernel⟩
/-- A write that lacks its last segment. -/
def lastTrans : DictTrans := { longTrans 1 with total := 1131 }
def witness_Dictionary_2_1_1_1_s : Machine.State := withTrans [lastTrans]
theorem witness_Dictionary_2_1_1_1 :
    (pathOpen witness_Dictionary_2_1_1_1_s bus = true) ∧
    (¬(pathCode bus, requesterOf witness_Dictionary_2_1_1_1_s bus, (segment (6#8) (0#8) (0#16) (0#8) (1#16) (0#32) 107).tag.toNat) ∈
        witness_Dictionary_2_1_1_1_s.ods.ended) ∧
    (List.find?
        (sameTrans (pathCode bus, requesterOf witness_Dictionary_2_1_1_1_s bus, (segment (6#8) (0#8) (0#16) (0#8) (1#16) (0#32) 107).tag.toNat).fst
          (pathCode bus, requesterOf witness_Dictionary_2_1_1_1_s bus, (segment (6#8) (0#8) (0#16) (0#8) (1#16) (0#32) 107).tag.toNat).snd.fst
          (pathCode bus, requesterOf witness_Dictionary_2_1_1_1_s bus, (segment (6#8) (0#8) (0#16) (0#8) (1#16) (0#32) 107).tag.toNat).snd.snd)
        witness_Dictionary_2_1_1_1_s.ods.trans =
      some lastTrans) ∧
    (headerReserved 4 (segment (6#8) (0#8) (0#16) (0#8) (1#16) (0#32) 107) = false) ∧
    (wellFormed 4 (segMax bus) (segment (6#8) (0#8) (0#16) (0#8) (1#16) (0#32) 107) = true) ∧
    (lastTrans.read = false) ∧
    ((segment (6#8) (0#8) (0#16) (0#8) (1#16) (0#32) 107).segNo.toNat = lastTrans.segs) ∧
    (msgLast (segment (6#8) (0#8) (0#16) (0#8) (1#16) (0#32) 107) = true) ∧
    (List.length (lastTrans.snapshot ++ (segment (6#8) (0#8) (0#16) (0#8) (1#16) (0#32) 107).data) = lastTrans.total) ∧
    (dictRow lastTrans.index lastTrans.sub = some (rowAt 12304 4)) :=
  ⟨by decide +kernel, by decide +kernel, by decide +kernel, by decide +kernel, by decide +kernel, by decide +kernel, by decide +kernel, by decide +kernel, by decide +kernel, by decide +kernel⟩
def witness_Dictionary_2_2_s : Machine.State := withTrans [longTrans 1]
theorem witness_Dictionary_2_2 :
    (pathOpen witness_Dictionary_2_2_s bus = true) ∧
    (headerReserved 5 (segment (0#8) (0#8) (0#16) (0#8) (0#16) (0#32) 0) = false) ∧
    (wellFormed 5 (segMax bus) (segment (0#8) (0#8) (0#16) (0#8) (0#16) (0#32) 0) = true) :=
  ⟨by decide +kernel, by decide +kernel, by decide +kernel⟩
theorem witness_Dictionary_4 :
    (pathOpen base (DictPath.mailbox 1#5) = false) :=
  by decide +kernel

def witness_DictionaryCarriers_0_0_value : Bytes := [100, 0]
theorem witness_DictionaryCarriers_0_0 :
    (dictAvailable State.reset 20481 4 = false) :=
  by decide +kernel
def witness_DictionaryCarriers_0_1_value : Bytes := [100, 0]
theorem witness_DictionaryCarriers_0_1 :
    (dictAvailable base 20481 40 = true) ∧
    (dictRow 20481 40 = none) :=
  ⟨by decide +kernel, by decide +kernel⟩
def witness_DictionaryCarriers_0_2_0_value : Bytes := [100, 0]
theorem witness_DictionaryCarriers_0_2_0 :
    (dictAvailable base 20481 4 = true) ∧
    (dictRow 20481 4 = some (rowAt 20481 4)) ∧
    (mayReach Principal.tray 16 (rowAt 20481 4) 20481 4 true base = false) :=
  ⟨by decide +kernel, by decide +kernel, by decide +kernel⟩
def witness_DictionaryCarriers_0_2_1_value : Bytes := [100, 0, 0, 0]
theorem witness_DictionaryCarriers_0_2_1 :
    (dictAvailable base 20481 4 = true) ∧
    (dictRow 20481 4 = some (rowAt 20481 4)) ∧
    (mayReach Principal.hostk 16 (rowAt 20481 4) 20481 4 true base = true) ∧
    (typeFits (rowAt 20481 4) 4 (List.length witness_DictionaryCarriers_0_2_1_value) = false) :=
  ⟨by decide +kernel, by decide +kernel, by decide +kernel, by decide +kernel⟩
def witness_DictionaryCarriers_0_2_2_value : Bytes := [100, 0]
theorem witness_DictionaryCarriers_0_2_2 :
    (dictAvailable base 20481 4 = true) ∧
    (dictRow 20481 4 = some (rowAt 20481 4)) ∧
    (mayReach Principal.hostk 16 (rowAt 20481 4) 20481 4 true base = true) ∧
    (typeFits (rowAt 20481 4) 3 (List.length witness_DictionaryCarriers_0_2_2_value) = true) :=
  ⟨by decide +kernel, by decide +kernel, by decide +kernel, by decide +kernel⟩
theorem witness_DictionaryCarriers_1_0 :
    (base.rcv.fwRunning = true) ∧
    (16 ≤ 16) ∧
    (16 ≤ 4096) :=
  ⟨by decide +kernel, by decide +kernel, by decide +kernel⟩
theorem witness_DictionaryCarriers_1_0_alt2 :
    (base.rcv.fwRunning = true) ∧
    (16 ≤ 4096) ∧
    (4096 ≤ 4096) :=
  ⟨by decide +kernel, by decide +kernel, by decide +kernel⟩
theorem witness_DictionaryCarriers_1_1 :
    (base.rcv.fwRunning = true) ∧
    (15 < 16 ∨ 4096 < 15) :=
  ⟨by decide +kernel, by decide +kernel⟩
theorem witness_DictionaryCarriers_1_1_alt2 :
    (base.rcv.fwRunning = true) ∧
    (4097 < 16 ∨ 4096 < 4097) :=
  ⟨by decide +kernel, by decide +kernel⟩
theorem witness_DictionaryCarriers_2_0 :
    (pathOpen base (DictPath.mailbox (BitVec.ofNat 5 (min 16 16))) = true) ∧
    ((base.ods.mbs.get (min 16 16)).go = false) ∧
    (15 < 16 ∨ 4096 < 15) :=
  ⟨by decide +kernel, by decide +kernel, by decide +kernel⟩
theorem witness_DictionaryCarriers_2_0_alt2 :
    (pathOpen base (DictPath.mailbox (BitVec.ofNat 5 (min 31 16))) = true) ∧
    ((base.ods.mbs.get (min 31 16)).go = false) ∧
    (4097 < 16 ∨ 4096 < 4097) :=
  ⟨by decide +kernel, by decide +kernel, by decide +kernel⟩
theorem witness_DictionaryCarriers_2_1 :
    (pathOpen base (DictPath.mailbox (BitVec.ofNat 5 (min 16 16))) = true) ∧
    ((base.ods.mbs.get (min 16 16)).go = false) ∧
    (16 ≤ 16) ∧
    (16 ≤ 4096) :=
  ⟨by decide +kernel, by decide +kernel, by decide +kernel, by decide +kernel⟩
theorem witness_DictionaryCarriers_2_1_alt2 :
    (pathOpen base (DictPath.mailbox (BitVec.ofNat 5 (min 16 16))) = true) ∧
    ((base.ods.mbs.get (min 16 16)).go = false) ∧
    (16 ≤ 4096) ∧
    (4096 ≤ 4096) :=
  ⟨by decide +kernel, by decide +kernel, by decide +kernel, by decide +kernel⟩
/-- A message that reads an entry, and the state where it has come to member 1. -/
def dictBytes : Bytes := d1 1 ++ d1 0 ++ d1 9 ++ d1 0 ++ d2 0x5001 ++ d1 4 ++ List.replicate 9 0
def fabricCame (type origin target : Nat) : State := arrive 1 (dh 0 1) type (d2 origin ++ d2 target ++ dictBytes) base
theorem witness_DictionaryCarriers_3_0_0 :
    (((fabricCame 256 0 2).domain 1).state ∈ [2, 3]) ∧
    (Arrived 1 (dh 0 1) 256 (d2 0 ++ d2 2 ++ dictBytes) (fabricCame 256 0 2)) ∧
    (2 ≠ ((fabricCame 256 0 2).domain 1).member) ∧
    (nextHop ((fabricCame 256 0 2).domain 1) 2 = some 0) :=
  ⟨by decide +kernel, arrived_of (by decide +kernel), by decide +kernel, by decide +kernel⟩
theorem witness_DictionaryCarriers_3_0_1 :
    (((fabricCame 256 0 1).domain 1).state ∈ [2, 3]) ∧
    (Arrived 1 (dh 0 1) 256 (d2 0 ++ d2 1 ++ dictBytes) (fabricCame 256 0 1)) ∧
    (1 = ((fabricCame 256 0 1).domain 1).member) ∧
    (16 ≤ List.length dictBytes) ∧
    ((msgOf dictBytes).fst = 1) :=
  ⟨by decide +kernel, arrived_of (by decide +kernel), by decide +kernel, by decide +kernel, by decide +kernel⟩
theorem witness_DictionaryCarriers_3_1_0 :
    (((fabricCame 257 2 1).domain 1).state ∈ [2, 3]) ∧
    (Arrived 1 (dh 0 1) 257 (d2 2 ++ d2 1 ++ dictBytes) (fabricCame 257 2 1)) ∧
    (2 ≠ ((fabricCame 257 2 1).domain 1).member) ∧
    (nextHop ((fabricCame 257 2 1).domain 1) 2 = some 0) :=
  ⟨by decide +kernel, arrived_of (by decide +kernel), by decide +kernel, by decide +kernel⟩
theorem witness_DictionaryCarriers_3_1_1 :
    (((fabricCame 257 1 2).domain 1).state ∈ [2, 3]) ∧
    (Arrived 1 (dh 0 1) 257 (d2 1 ++ d2 2 ++ dictBytes) (fabricCame 257 1 2)) ∧
    (1 = ((fabricCame 257 1 2).domain 1).member) :=
  ⟨by decide +kernel, arrived_of (by decide +kernel), by decide +kernel⟩
theorem witness_DictionaryCarriers_4_0 :
    (base.rcv.fwRunning = true) ∧
    (mayWrite Principal.hostk [1] base = true) ∧
    (0 < 18) ∧
    ((base.link.streams.ents.any fun e => e.snd.state != 0 && e.snd.port == 0) = true) :=
  ⟨by decide +kernel, by decide +kernel, by decide +kernel, by decide +kernel⟩
def witness_DictionaryCarriers_4_1_s : Machine.State := updPort 17 (fun p => { p with mode := 2 }) base
theorem witness_DictionaryCarriers_4_1 :
    (witness_DictionaryCarriers_4_1_s.rcv.fwRunning = true) ∧
    (mayWrite Principal.hostk [1] witness_DictionaryCarriers_4_1_s = true) ∧
    (17 < 18) ∧
    ((witness_DictionaryCarriers_4_1_s.link.streams.ents.any fun e => e.snd.state != 0 && e.snd.port == 17) = false) ∧
    (wired witness_DictionaryCarriers_4_1_s 17 = false) :=
  ⟨by decide +kernel, by decide +kernel, by decide +kernel, by decide +kernel, by decide +kernel⟩
theorem witness_DictionaryCarriers_4_2 :
    (base.rcv.fwRunning = true) ∧
    (mayWrite Principal.hostk [1] base = true) ∧
    (7 < 18) ∧
    ((base.link.streams.ents.any fun e => e.snd.state != 0 && e.snd.port == 7) = false) ∧
    (wired base 7 = true) ∧
    (1 < 2) :=
  ⟨by decide +kernel, by decide +kernel, by decide +kernel, by decide +kernel, by decide +kernel, by decide +kernel⟩
theorem witness_DictionaryCarriers_4_3 :
    (base.rcv.fwRunning = true) ∧
    (mayWrite Principal.hostk [1] base = true) ∧
    (7 < 18) ∧
    ((base.link.streams.ents.any fun e => e.snd.state != 0 && e.snd.port == 7) = false) ∧
    (wired base 7 = true) ∧
    (1 ≤ 1) :=
  ⟨by decide +kernel, by decide +kernel, by decide +kernel, by decide +kernel, by decide +kernel, by decide +kernel⟩

/-! ### The management network -/

def noAddress (n : Nat) : State := { base with ods := { base.ods with i3cStatic := 9, i3cDynamic := n } }
theorem witness_ManagementNetwork_0_0 :
    ((noAddress 0).boot.inReset = false) ∧
    ((noAddress 0).ods.i3cDynamic = 0) ∧
    ((noAddress 0).ods.i3cStatic ≠ 0) ∧
    (9 = (noAddress 0).ods.i3cStatic) :=
  ⟨by decide +kernel, by decide +kernel, by decide +kernel, by decide +kernel⟩
theorem witness_ManagementNetwork_0_1 :
    ((noAddress 0).boot.inReset = false) ∧
    ((noAddress 0).ods.i3cDynamic ≠ 0 ∨ (noAddress 0).ods.i3cStatic = 0 ∨ 10 ≠ (noAddress 0).ods.i3cStatic) :=
  ⟨by decide +kernel, by decide +kernel⟩
theorem witness_ManagementNetwork_0_2 :
    ((noAddress 0).boot.inReset = false) ∧
    ((noAddress 0).ods.i3cDynamic = 0) :=
  ⟨by decide +kernel, by decide +kernel⟩
theorem witness_ManagementNetwork_0_3 :
    ((noAddress 7).boot.inReset = false) ∧
    ((noAddress 7).ods.i3cDynamic ≠ 0) :=
  ⟨by decide +kernel, by decide +kernel⟩
theorem witness_ManagementNetwork_1_0_0 :
    (atEndpoint base 0 = true) ∧
    (1 ≤ 1) ∧
    (8 ≤ 254) ∧
    (254#8 ≠ 255#8) :=
  ⟨by decide +kernel, by decide +kernel, by decide +kernel, by decide +kernel⟩
theorem witness_ManagementNetwork_1_0_1 :
    (atEndpoint base 0 = true) ∧
    (1 < 1 ∨ 7 < 8 ∨ 7#8 = 255#8) :=
  ⟨by decide +kernel, by decide +kernel⟩
theorem witness_ManagementNetwork_1_0_1_alt2 :
    (atEndpoint base 0 = true) ∧
    (1 < 2 ∨ 8 < 8 ∨ 8#8 = 255#8) :=
  ⟨by decide +kernel, by decide +kernel⟩
theorem witness_ManagementNetwork_1_1 :
    (atEndpoint base 5 = false) :=
  by decide +kernel
def witness_ManagementNetwork_2_packet : Bytes := [1, 0, 8, 0xC8, 0x7F]
theorem witness_ManagementNetwork_2 :
    (base.boot.inReset = false) :=
  by decide +kernel
/-- A packet of the management network, and a message of the dictionary in it. -/
def packet (flags : BitVec 8) (data : Bytes) : Bytes := [1, 0, 8, flags] ++ data
def dictPacket : Bytes := packet 0xC8 ([0x7F, 0, 0, 0xF1, 0x07] ++ dictBytes)
/-- A packet that is the whole of a dictionary message; one that begins a message of more packets, and the one after it; and one of another
message type. -/
theorem witness_ManagementNetwork_2_whole : dictPacket.length ≤ 68 ∧ (packetHdr dictPacket).1 = true ∧ (packetHdr dictPacket).2.1 = true ∧
    21 ≤ (dictPacket.drop 4).length ∧ field (dictPacket.drop 4) 0 1 = 0x7F ∧ beNat (slice (dictPacket.drop 4) 1 4) = 61703 ∧
    (msgOf ((dictPacket.drop 4).drop 5)).1 = 1 ∧ atEndpoint base (field dictPacket 1 1) = true := by decide +kernel
theorem witness_ManagementNetwork_2_parts : (packetHdr (packet 0x88 [])).1 = true ∧ (packetHdr (packet 0x88 [])).2.1 = false ∧
    (packetHdr (packet 0x18 [])).1 = false ∧ (packetHdr (packet 0x18 [])).2.1 = false ∧ (packetHdr (packet 0x18 [])).2.2.1 = 1 ∧
    (packet 0x88 (List.replicate 64 1)).length = 68 := by decide +kernel
theorem witness_ManagementNetwork_2_other : field ((packet 0xC8 [1]).drop 4) 0 1 = 0x01 ∧ 5 ≤ (packet 0xC8 [1]).length := by decide +kernel

end Sys2Proof.Tests
end

