-- ==== Sys2Proof/Tests/WitnessKeys.lean ====
section
/-!
SUPPORT. States that meet the hypotheses of the statements about the key store, the key-work and public-key engines, the entropy source and the sheaf.
-/
set_option Elab.async false
namespace Sys2Proof.Tests
open Sys2Proof Sys2Proof.Machine

/-- A slot of slice 1 for a usage. -/
def keySlot (use : Nat) (exportable : Bool) (k : BitVec 256) : Slot := { key := k, attr := attrWord use 0 1 1 1 false exportable false, binding := bindWord 0 0xFFFF 0, wrapId := 6 }
/-- Slice 1 with a key for derivation in slot 40, one that wraps in 41, one for ciphers that may go out in 42, and one that deciphers in 43. -/
def keysBase : State := { base with kst := (((base.kst.set 40 (keySlot 55 false 11)).set 41 (keySlot 54 false 12)).set 42 (keySlot 52 true 13)).set 43 (keySlot 53 false 14) }
def s_witness_KeyStore_0 : State := ready (hdr 1#8) 512 ([(24, 2, 40), (26, 2, 50), (28, 1, 1), (29, 1, 0), (30, 2, 4095), (32, 4, 9)]) (keysBase)
theorem witness_KeyStore_0 :
    (Starts (hdr 1#8) 512 [(24, 2, 40), (26, 2, 50), (28, 1, 1), (29, 1, 0), (30, 2, 4095), (32, 4, 9)] s_witness_KeyStore_0) ∧
    (1 ∈ [1, 2, 3, 4]) ∧
    (1 = 4 ∨ 4095 < 4096) ∧
    (bit 0 0 = false) ∧
    (firstFail (srcChecks (s_witness_KeyStore_0.started (hdr 1#8)) (hdrSlice (hdr 1#8)) 40 Slot.drv) = none) ∧
    (firstFail (dstChecks (s_witness_KeyStore_0.started (hdr 1#8)) (hdrSlice (hdr 1#8)) 50) = none) ∧
    (kweRuns s_witness_KeyStore_0 = true) :=
  ⟨starts_of (by decide +kernel), by decide +kernel, by decide +kernel, by decide +kernel, by decide +kernel, by decide +kernel, by decide +kernel⟩
def s_witness_KeyStore_0_alt2 : State := ready (hdr 1#8) 512 ([(24, 2, 40), (26, 2, 50), (28, 1, 4), (29, 1, 0), (30, 2, 65535), (32, 4, 9)]) (keysBase)
theorem witness_KeyStore_0_alt2 :
    (Starts (hdr 1#8) 512 [(24, 2, 40), (26, 2, 50), (28, 1, 4), (29, 1, 0), (30, 2, 65535), (32, 4, 9)] s_witness_KeyStore_0_alt2) ∧
    (4 ∈ [1, 2, 3, 4]) ∧
    (4 = 4 ∨ 65535 < 4096) ∧
    (bit 0 0 = false) ∧
    (firstFail (srcChecks (s_witness_KeyStore_0_alt2.started (hdr 1#8)) (hdrSlice (hdr 1#8)) 40 Slot.drv) = none) ∧
    (firstFail (dstChecks (s_witness_KeyStore_0_alt2.started (hdr 1#8)) (hdrSlice (hdr 1#8)) 50) = none) ∧
    (kweRuns s_witness_KeyStore_0_alt2 = true) :=
  ⟨starts_of (by decide +kernel), by decide +kernel, by decide +kernel, by decide +kernel, by decide +kernel, by decide +kernel, by decide +kernel⟩
def s_witness_KeyStore_1 : State := ready (hdr 1#8) 513 ([(24, 2, 50), (26, 1, 1), (27, 1, 3), (28, 1, 1), (32, 8, 8)]) (keysBase)
theorem witness_KeyStore_1 :
    (Starts (hdr 1#8) 513 [(24, 2, 50), (26, 1, 1), (27, 1, 3), (28, 1, 1), (32, 8, 8)] s_witness_KeyStore_1) ∧
    (1 ∈ [1, 2, 3, 4]) ∧
    (1 ∈ [1, 2, 3, 4]) ∧
    (8 % 8 = 0) ∧
    (firstFail (dstChecks (s_witness_KeyStore_1.started (hdr 1#8)) (hdrSlice (hdr 1#8)) 50) = none) ∧
    (entOk s_witness_KeyStore_1 = true) ∧
    (kweRuns s_witness_KeyStore_1 = true) :=
  ⟨starts_of (by decide +kernel), by decide +kernel, by decide +kernel, by decide +kernel, by decide +kernel, by decide +kernel, by decide +kernel⟩
def s_witness_KeyStore_1_alt2 : State := ready (hdr 1#8) 513 ([(24, 2, 50), (26, 1, 4), (27, 1, 3), (28, 1, 4), (32, 8, 8)]) (keysBase)
theorem witness_KeyStore_1_alt2 :
    (Starts (hdr 1#8) 513 [(24, 2, 50), (26, 1, 4), (27, 1, 3), (28, 1, 4), (32, 8, 8)] s_witness_KeyStore_1_alt2) ∧
    (4 ∈ [1, 2, 3, 4]) ∧
    (4 ∈ [1, 2, 3, 4]) ∧
    (8 % 8 = 0) ∧
    (firstFail (dstChecks (s_witness_KeyStore_1_alt2.started (hdr 1#8)) (hdrSlice (hdr 1#8)) 50) = none) ∧
    (entOk s_witness_KeyStore_1_alt2 = true) ∧
    (kweRuns s_witness_KeyStore_1_alt2 = true) :=
  ⟨starts_of (by decide +kernel), by decide +kernel, by decide +kernel, by decide +kernel, by decide +kernel, by decide +kernel, by decide +kernel⟩
def s_witness_KeyStore_2 : State := ready (hdr 1#8) 514 ([(24, 2, 42), (26, 2, 41), (28, 1, 1), (32, 8, 64), (40, 8, 128), (48, 8, 5)]) (keysBase)
theorem witness_KeyStore_2 :
    (Starts (hdr 1#8) 514 [(24, 2, 42), (26, 2, 41), (28, 1, 1), (32, 8, 64), (40, 8, 128), (48, 8, 5)] s_witness_KeyStore_2) ∧
    (1 = 1 ∨ 1 = 2) ∧
    (64 % 8 = 0) ∧
    (1 = 2 → 128 % 8 = 0) ∧
    (firstFail
        (srcChecks (s_witness_KeyStore_2.started (hdr 1#8)) (hdrSlice (hdr 1#8)) 42 Slot.exportable ++
          wrapChecks (s_witness_KeyStore_2.started (hdr 1#8)) (hdrSlice (hdr 1#8)) 1 41) =
      none) ∧
    (kweRuns s_witness_KeyStore_2 = true) :=
  ⟨starts_of (by decide +kernel), by decide +kernel, by decide +kernel, by decide +kernel, by decide +kernel, by decide +kernel⟩
def s_witness_KeyStore_2_alt2 : State := ready (hdr 1#8) 514 ([(24, 2, 42), (26, 2, 65535), (28, 1, 2), (32, 8, 64), (40, 8, 128), (48, 8, 5)]) (keysBase)
theorem witness_KeyStore_2_alt2 :
    (Starts (hdr 1#8) 514 [(24, 2, 42), (26, 2, 65535), (28, 1, 2), (32, 8, 64), (40, 8, 128), (48, 8, 5)] s_witness_KeyStore_2_alt2) ∧
    (2 = 1 ∨ 2 = 2) ∧
    (64 % 8 = 0) ∧
    (2 = 2 → 128 % 8 = 0) ∧
    (firstFail
        (srcChecks (s_witness_KeyStore_2_alt2.started (hdr 1#8)) (hdrSlice (hdr 1#8)) 42 Slot.exportable ++
          wrapChecks (s_witness_KeyStore_2_alt2.started (hdr 1#8)) (hdrSlice (hdr 1#8)) 2 65535) =
      none) ∧
    (kweRuns s_witness_KeyStore_2_alt2 = true) :=
  ⟨starts_of (by decide +kernel), by decide +kernel, by decide +kernel, by decide +kernel, by decide +kernel, by decide +kernel⟩
def s_witness_KeyStore_3 : State := ready (hdr 1#8) 515 ([(24, 2, 50), (26, 2, 41), (28, 1, 1), (32, 8, 64), (40, 8, 8)]) (keysBase)
theorem witness_KeyStore_3 :
    (Starts (hdr 1#8) 515 [(24, 2, 50), (26, 2, 41), (28, 1, 1), (32, 8, 64), (40, 8, 8)] s_witness_KeyStore_3) ∧
    (64 % 8 = 0) ∧
    (8 % 8 = 0) ∧
    (firstFail (dstChecks (s_witness_KeyStore_3.started (hdr 1#8)) (hdrSlice (hdr 1#8)) 50) = none) ∧
    (∀ (n : Nat),
      (if 41#16 = 65535#16 then none else some 41) = some n →
        firstFail (srcChecks (s_witness_KeyStore_3.started (hdr 1#8)) (hdrSlice (hdr 1#8)) n Slot.wraps) = none) ∧
    ((if 41#16 = 65535#16 then none else some 41) = none → pkeRuns s_witness_KeyStore_3 = true) ∧
    (kweRuns s_witness_KeyStore_3 = true) :=
  ⟨starts_of (by decide +kernel), by decide +kernel, by decide +kernel, by decide +kernel, (fun n h => by cases (show some 41 = some n from h); decide +kernel), by decide +kernel, by decide +kernel⟩
def s_witness_KeyStore_3_alt2 : State := ready (hdr 1#8) 515 ([(24, 2, 50), (26, 2, 65535), (28, 1, 1), (32, 8, 64), (40, 8, 8)]) (keysBase)
theorem witness_KeyStore_3_alt2 :
    (Starts (hdr 1#8) 515 [(24, 2, 50), (26, 2, 65535), (28, 1, 1), (32, 8, 64), (40, 8, 8)] s_witness_KeyStore_3_alt2) ∧
    (64 % 8 = 0) ∧
    (8 % 8 = 0) ∧
    (firstFail (dstChecks (s_witness_KeyStore_3_alt2.started (hdr 1#8)) (hdrSlice (hdr 1#8)) 50) = none) ∧
    (∀ (n : Nat),
      (if 65535#16 = 65535#16 then none else some 65535) = some n →
        firstFail (srcChecks (s_witness_KeyStore_3_alt2.started (hdr 1#8)) (hdrSlice (hdr 1#8)) n Slot.wraps) = none) ∧
    ((if 65535#16 = 65535#16 then none else some 65535) = none → pkeRuns s_witness_KeyStore_3_alt2 = true) ∧
    (kweRuns s_witness_KeyStore_3_alt2 = true) :=
  ⟨starts_of (by decide +kernel), by decide +kernel, by decide +kernel, by decide +kernel, (fun n h => by cases (show none = some n from h)), by decide +kernel, by decide +kernel⟩
def s_witness_KeyStore_4 : State := ready (hdr 1#8) 516 ([(24, 2, 40)]) (keysBase)
theorem witness_KeyStore_4 :
    (Starts (hdr 1#8) 516 [(24, 2, 40)] s_witness_KeyStore_4) ∧
    (ownsSlot s_witness_KeyStore_4 (hdrSlice (hdr 1#8)) 40 = true) ∧
    (slotInUse s_witness_KeyStore_4 40 = false) ∧
    (s_witness_KeyStore_4.kst.dflt = { key := 0#256, attr := 0#64, binding := 281470681743360#64, wrapId := 0#128 }) :=
  ⟨starts_of (by decide +kernel), by decide +kernel, by decide +kernel, by decide +kernel⟩
def s_witness_CipherAndPublicKey_0 : State := ready (hdr 1#8) 528 (cipherOps 42#16 4096#16 0#16 8#64 65536#64 131072#64) (keysBase)
theorem witness_CipherAndPublicKey_0 :
    (Starts (hdr 1#8) 528 (cipherOps 42#16 4096#16 0#16 8#64 65536#64 131072#64) s_witness_CipherAndPublicKey_0) ∧
    (cipherRange 4096#16 0#16 8#64 65536#64 131072#64 = true) ∧
    (firstFail (srcChecks (s_witness_CipherAndPublicKey_0.started (hdr 1#8)) (hdrSlice (hdr 1#8)) 42 Slot.enc) = none) ∧
    (kweRuns s_witness_CipherAndPublicKey_0 = true) :=
  ⟨starts_of (by decide +kernel), by decide +kernel, by decide +kernel, by decide +kernel⟩
def s_witness_CipherAndPublicKey_1 : State := ready (hdr 1#8) 529 (cipherOps 43#16 16#16 64#16 8#64 65536#64 131072#64) (keysBase)
theorem witness_CipherAndPublicKey_1 :
    (Starts (hdr 1#8) 529 (cipherOps 43#16 16#16 64#16 8#64 65536#64 131072#64) s_witness_CipherAndPublicKey_1) ∧
    (cipherRange 16#16 64#16 8#64 65536#64 131072#64 = true) ∧
    (firstFail (srcChecks (s_witness_CipherAndPublicKey_1.started (hdr 1#8)) (hdrSlice (hdr 1#8)) 43 Slot.dec) = none) ∧
    (kweRuns s_witness_CipherAndPublicKey_1 = true) :=
  ⟨starts_of (by decide +kernel), by decide +kernel, by decide +kernel, by decide +kernel⟩
def s_witness_CipherAndPublicKey_2 : State := ready (hdr 1#8) 544 ([(24, 8, 8), (32, 8, 16777216), (40, 8, 16), (48, 1, 4), (50, 2, 512)]) (keysBase)
theorem witness_CipherAndPublicKey_2 :
    (Starts (hdr 1#8) 544 [(24, 8, 8), (32, 8, 16777216), (40, 8, 16), (48, 1, 4), (50, 2, 512)] s_witness_CipherAndPublicKey_2) ∧
    (4 ∈ [1, 2, 3, 4]) ∧
    (4 ≠ 4 → 512 = 0) ∧
    (4 = 4 → 1 ≤ 512 ∧ 512 ≤ 512) ∧
    (8 % 8 = 0) ∧
    (16 % 8 = 0) ∧
    (16777216 ≤ 2 ^ 24) ∧
    (pkeRuns s_witness_CipherAndPublicKey_2 = true) :=
  ⟨starts_of (by decide +kernel), by decide +kernel, by decide +kernel, by decide +kernel, by decide +kernel, by decide +kernel, by decide +kernel, by decide +kernel⟩
def s_witness_CipherAndPublicKey_2_alt2 : State := ready (hdr 1#8) 544 ([(24, 8, 8), (32, 8, 0), (40, 8, 16), (48, 1, 1), (50, 2, 0)]) (keysBase)
theorem witness_CipherAndPublicKey_2_alt2 :
    (Starts (hdr 1#8) 544 [(24, 8, 8), (32, 8, 0), (40, 8, 16), (48, 1, 1), (50, 2, 0)] s_witness_CipherAndPublicKey_2_alt2) ∧
    (1 ∈ [1, 2, 3, 4]) ∧
    (1 ≠ 4 → 0 = 0) ∧
    (1 = 4 → 1 ≤ 0 ∧ 0 ≤ 512) ∧
    (8 % 8 = 0) ∧
    (16 % 8 = 0) ∧
    (0 ≤ 2 ^ 24) ∧
    (pkeRuns s_witness_CipherAndPublicKey_2_alt2 = true) :=
  ⟨starts_of (by decide +kernel), by decide +kernel, by decide +kernel, by decide +kernel, by decide +kernel, by decide +kernel, by decide +kernel, by decide +kernel⟩
def s_witness_CipherAndPublicKey_3 : State := ready (hdr 1#8) 545 ([(24, 8, 8), (32, 8, 8), (40, 8, 8), (48, 4, 65536), (52, 1, 3), (53, 1, 0)]) (keysBase)
theorem witness_CipherAndPublicKey_3 :
    (Starts (hdr 1#8) 545 [(24, 8, 8), (32, 8, 8), (40, 8, 8), (48, 4, 65536), (52, 1, 3), (53, 1, 0)] s_witness_CipherAndPublicKey_3) ∧
    (3 ∈ [1, 2, 3]) ∧
    (8 % 8 = 0) ∧
    (8 % 8 = 0) ∧
    (8 % 8 = 0) ∧
    (65536 ≤ 65536) ∧
    (pkeRuns s_witness_CipherAndPublicKey_3 = true) :=
  ⟨starts_of (by decide +kernel), by decide +kernel, by decide +kernel, by decide +kernel, by decide +kernel, by decide +kernel, by decide +kernel⟩

/-- A request that derives into a slot, and one that has a buffer for its result. -/
def kweSlot : KweReq := { who := 1, op := .derive [1] [2], src := 40, dst := .slot 50 (BitVec.ofNat 64 (2^55 + 2^36)) 0, ctx := 0, dead := false }
def kweBuf (op : KweOp) : KweReq := { who := 16, op, src := 42, dst := .buffer, ctx := 0, dead := false }
/-- The key-work engine runs a request, with others behind it. -/
def kweRunning (r : KweReq) (q : List KweReq) : State := { keysBase with kwe := { keysBase.kwe with current := some r, queue := q } }
def witness_KeyWorkAndEntropy_0_op : KweOp := .derive [1] [2]
theorem witness_KeyWorkAndEntropy_0 :
    (keysBase.kwe.queue.length < 256) :=
  by decide +kernel
def witness_KeyWorkAndEntropy_0_alt2_op : KweOp := .derive [1] [2]
theorem witness_KeyWorkAndEntropy_0_alt2 :
    ((kweRunning kweSlot []).kwe.queue.length < 256) :=
  by decide +kernel
theorem witness_KeyWorkAndEntropy_1 :
    ((kweRunning kweSlot []).kwe.current = some kweSlot) ∧
    (kweSlot.dead = false) ∧
    ((kweRunning kweSlot []).kwe.queue = []) ∧
    ((kweRunning kweSlot []).cex.kills = []) ∧
    ((kweRunning kweSlot []).kst.dflt = { key := 0#256, attr := 0#64, binding := 281470681743360#64, wrapId := 0#128 }) ∧
    (∀ (n : BitVec 11) (a b : BitVec 64), kweSlot.dst = KweDst.slot n a b → ((kweRunning kweSlot []).slot n.toNat).valid = false) :=
  ⟨by decide +kernel, by decide +kernel, by decide +kernel, by decide +kernel, by decide +kernel, (by intro n a b h; cases h; decide +kernel)⟩
def witness_KeyWorkAndEntropy_1_alt2_r : KweReq := kweBuf (.encrypt 0 [] [1])
def witness_KeyWorkAndEntropy_1_alt2_s : Machine.State := kweRunning (kweBuf (.encrypt 0 [] [1])) []
theorem witness_KeyWorkAndEntropy_1_alt2 :
    (witness_KeyWorkAndEntropy_1_alt2_s.kwe.current = some witness_KeyWorkAndEntropy_1_alt2_r) ∧
    (witness_KeyWorkAndEntropy_1_alt2_r.dead = false) ∧
    (witness_KeyWorkAndEntropy_1_alt2_s.kwe.queue = []) ∧
    (witness_KeyWorkAndEntropy_1_alt2_s.cex.kills = []) ∧
    (witness_KeyWorkAndEntropy_1_alt2_s.kst.dflt = { key := 0#256, attr := 0#64, binding := 281470681743360#64, wrapId := 0#128 }) ∧
    (∀ (n : BitVec 11) (a b : BitVec 64),
      witness_KeyWorkAndEntropy_1_alt2_r.dst = KweDst.slot n a b → (witness_KeyWorkAndEntropy_1_alt2_s.slot n.toNat).valid = false) :=
  ⟨by decide +kernel, by decide +kernel, by decide +kernel, by decide +kernel, by decide +kernel, (by intro n a b h; cases h)⟩
theorem witness_KeyWorkAndEntropy_1_alt3_alt3 :
    ((kweRunning (kweBuf KweOp.zeroize) []).kwe.current = some (kweBuf KweOp.zeroize)) ∧
    ((kweBuf KweOp.zeroize).dead = false) ∧
    ((kweRunning (kweBuf KweOp.zeroize) []).kwe.queue = []) ∧
    ((kweRunning (kweBuf KweOp.zeroize) []).cex.kills = []) ∧
    ((kweRunning (kweBuf KweOp.zeroize) []).kst.dflt = { key := 0#256, attr := 0#64, binding := 281470681743360#64, wrapId := 0#128 }) ∧
    (∀ (n : BitVec 11) (a b : BitVec 64),
      (kweBuf KweOp.zeroize).dst = KweDst.slot n a b → ((kweRunning (kweBuf KweOp.zeroize) []).slot n.toNat).valid = false) :=
  ⟨by decide +kernel, by decide +kernel, by decide +kernel, by decide +kernel, by decide +kernel, (by intro n a b h; cases h)⟩
/-- The same request after its slot was zeroized. -/
def kweDead : KweReq := { kweSlot with dead := true }
theorem witness_KeyWorkAndEntropy_2 :
    ((kweRunning kweDead []).kwe.current = some kweDead) ∧
    (kweDead.dead = true) ∧
    ((kweRunning kweDead []).kwe.queue = []) ∧
    ((kweRunning kweDead []).cex.kills = []) :=
  ⟨by decide +kernel, by decide +kernel, by decide +kernel, by decide +kernel⟩
def witness_KeyWorkAndEntropy_3_s : Machine.State := kweRunning kweDead [kweSlot]
theorem witness_KeyWorkAndEntropy_3 :
    (witness_KeyWorkAndEntropy_3_s.kwe.current = some kweDead) ∧
    (kweDead.dead = true) ∧
    (witness_KeyWorkAndEntropy_3_s.kwe.queue = [kweSlot]) ∧
    (witness_KeyWorkAndEntropy_3_s.cex.kills = []) ∧
    (kweStop witness_KeyWorkAndEntropy_3_s kweSlot = none) ∧
    (witness_KeyWorkAndEntropy_3_s.kwe.sinceReseed < 2047) :=
  ⟨by decide +kernel, by decide +kernel, by decide +kernel, by decide +kernel, by decide +kernel, by decide +kernel⟩
theorem witness_KeyWorkAndEntropy_5 :
    (keysBase.ent.state = 0 ∨ keysBase.ent.state = 1) ∧
    (0 ≤ 2) :=
  ⟨by decide +kernel, by decide +kernel⟩
def witness_KeyWorkAndEntropy_5_alt2_s : Machine.State := { keysBase with ent := { keysBase.ent with state := 1 } }
theorem witness_KeyWorkAndEntropy_5_alt2 :
    (witness_KeyWorkAndEntropy_5_alt2_s.ent.state = 0 ∨ witness_KeyWorkAndEntropy_5_alt2_s.ent.state = 1) ∧
    (2 ≤ 2) :=
  ⟨by decide +kernel, by decide +kernel⟩
def witness_KeyWorkAndEntropy_6_s : Machine.State := { keysBase with ent := { keysBase.ent with state := 2 } }
theorem witness_KeyWorkAndEntropy_6 :
    (witness_KeyWorkAndEntropy_6_s.ent.state = 2) :=
  by decide +kernel
def witness_KeyWorkAndEntropy_7_s : Machine.State := { keysBase with ent := { keysBase.ent with state := 1 } }
theorem witness_KeyWorkAndEntropy_7 :
    (witness_KeyWorkAndEntropy_7_s.ent.state = 1) :=
  by decide +kernel
theorem witness_KeyWorkAndEntropy_8 :
    (0#2 ≠ 3#2) ∧
    (entOk keysBase = true) :=
  ⟨by decide +kernel, by decide +kernel⟩
theorem witness_KeyWorkAndEntropy_8_alt2 :
    (2#2 ≠ 3#2) ∧
    (entOk keysBase = true) :=
  ⟨by decide +kernel, by decide +kernel⟩
def witness_KeyWorkAndEntropy_9_s : Machine.State := { keysBase with ent := { keysBase.ent with state := 3 } }
theorem witness_KeyWorkAndEntropy_9 :
    (2#2 ≠ 3#2) ∧
    (entOk witness_KeyWorkAndEntropy_9_s = false) :=
  ⟨by decide +kernel, by decide +kernel⟩

/-! ### Sheaf -/

/-- Slice 1 with a sheaf key in slot 46 and a sheaf region. -/
def sheafBase : State := { base with
  kst := base.kst.set 46 { key := 17, attr := attrWord 56 6 1 1 1 false false false, binding := bindWord 0 0xFFFF 9 }
  mem := { base.mem with regions := base.mem.regions.set 3 { valid := true, state := 1, mode := 1, slice := 1, sheaf := true, pages := 1 } } }
def witness_Sheaf_0_list : List (BitVec 128) := [BitVec.ofNat 128 (3 + 7 * 2^32)]
def s_witness_Sheaf_0 : State := ready (hdr 1#8) 768 ([(24, 4, 9), (28, 2, 46), (30, 1, 1), (32, 8, 8)]) (sheafBase)
theorem witness_Sheaf_0 :
    (Starts (hdr 1#8) 768 [(24, 4, 9), (28, 2, 46), (30, 1, 1), (32, 8, 8)] s_witness_Sheaf_0) ∧
    (1 ≤ 1) ∧
    (1 ≤ 16) ∧
    (8 % 8 = 0) ∧
    (keyed s_witness_Sheaf_0 (hdrSlice (hdr 1#8)) = true) ∧
    (9#32 ≠ 0#32) ∧
    (¬9 ∈ s_witness_Sheaf_0.sheaf.opened.get (hdrSlice (hdr 1#8))) ∧
    (firstFail (keyChecks (s_witness_Sheaf_0.started (hdr 1#8)) (hdrSlice (hdr 1#8)) 46 6 65535 9 3) = none) ∧
    (kweRuns s_witness_Sheaf_0 = true) ∧
    (witness_Sheaf_0_list.length = 1) ∧
    (∀ (p : PartEntry),
      p ∈ List.map partEntry witness_Sheaf_0_list →
        p.zero = 0 ∧
          partRegionOk s_witness_Sheaf_0 (hdrSlice (hdr 1#8)) (List.map partEntry witness_Sheaf_0_list) p = true ∧
            partRangeOk s_witness_Sheaf_0 (List.map partEntry witness_Sheaf_0_list) p = true) ∧
    (freeCtx s_witness_Sheaf_0 = some 0) ∧
    (openSheaves s_witness_Sheaf_0 (hdrSlice (hdr 1#8)) < 4) :=
  ⟨starts_of (by decide +kernel), by decide +kernel, by decide +kernel, by decide +kernel, by decide +kernel, by decide +kernel, by decide +kernel, by decide +kernel, by decide +kernel, by decide +kernel, by decide +kernel, (by decide +kernel), by decide +kernel⟩
/-- An open context of sheaf 9. -/
def sheafOpen (st : Nat) (e : Option CmdKey) (s : State) : State :=
  { s with sheaf := { s.sheaf with ctxs := s.sheaf.ctxs.set 0 { state := st, id := 9, slice := 1, slot := 46, parts := [(3, 7, 0)], expected := 32, ending := e } } }
def s_witness_Sheaf_1 : State := ready (hdr 1#8) 769 ([(24, 4, 9), (32, 8, 64)]) (sheafOpen 1 none sheafBase)
theorem witness_Sheaf_1 :
    (Starts (hdr 1#8) 769 [(24, 4, 9), (32, 8, 64)] s_witness_Sheaf_1) ∧
    (64 % 8 = 0) ∧
    ((s_witness_Sheaf_1.sheaf.ctxs.findAll fun x c => c.state == 1 && c.slice == hdrSlice (hdr 1#8) && c.id == 9).head? = some 0) ∧
    (s_witness_Sheaf_1.sheaf.ctxs.wf = true) ∧
    (∀ (j : Nat), (s_witness_Sheaf_1.sheaf.ctxs.get j).state ≠ 2) :=
  ⟨starts_of (by decide +kernel), by decide +kernel, by decide +kernel, by decide +kernel, (tbl_all (P := fun (c : SheafCtx) => c.state ≠ 2) _ (by decide +kernel) (by decide +kernel))⟩
def witness_Sheaf_2_0_f : Flight := flight (hdr 1) 0x301 [] .running
def witness_Sheaf_2_0_s : Machine.State := sheafOpen 2 (some key0) (running (hdr 1) 0x301 [] sheafBase)
theorem witness_Sheaf_2_0 :
    ((witness_Sheaf_2_0_s.sheaf.ctxs.get 0).ending = some key0) ∧
    (witness_Sheaf_2_0_s.flight key0 = some witness_Sheaf_2_0_f) ∧
    (witness_Sheaf_2_0_f.phase = Phase.running) ∧
    (witness_Sheaf_2_0_f.override = none) :=
  ⟨by decide +kernel, by decide +kernel, by decide +kernel, by decide +kernel⟩
/-- A record of member 1. -/
def sheafRec0 : Bytes := SheafRec.seal { flags := 1, domain := 7, attempt := 1, id := 9, issuer := 1, lines := 2, expected := 3, digest := 5, bound := 0, members := 2 } 17 0
def s_witness_Sheaf_3 : State := ready (hdr 1#8) 770 ([(24, 4, 9), (28, 2, 46), (30, 1, 1), (32, 8, 8), (40, 2, 1), (48, 8, 64)]) (sheafBase)
theorem witness_Sheaf_3 :
    (Starts (hdr 1#8) 770 [(24, 4, 9), (28, 2, 46), (30, 1, 1), (32, 8, 8), (40, 2, 1), (48, 8, 64)] s_witness_Sheaf_3) ∧
    (8 % 8 = 0) ∧
    (64 % 8 = 0) ∧
    (1 ≤ 1) ∧
    (1 ≤ 4096) ∧
    (firstFail (keyChecks (s_witness_Sheaf_3.started (hdr 1#8)) (hdrSlice (hdr 1#8)) 46 6 65535 9 0) = none) ∧
    ([sheafRec0].length = 1) :=
  ⟨starts_of (by decide +kernel), by decide +kernel, by decide +kernel, by decide +kernel, by decide +kernel, by decide +kernel, by decide +kernel⟩
def witness_Sheaf_3_alt2_recs : List Bytes := [[], []]
def s_witness_Sheaf_3_alt2 : State := ready (hdr 1#8) 770 ([(24, 4, 9), (28, 2, 46), (30, 1, 0), (32, 8, 8), (40, 2, 2), (48, 8, 64)]) (sheafBase)
theorem witness_Sheaf_3_alt2 :
    (Starts (hdr 1#8) 770 [(24, 4, 9), (28, 2, 46), (30, 1, 0), (32, 8, 8), (40, 2, 2), (48, 8, 64)] s_witness_Sheaf_3_alt2) ∧
    (8 % 8 = 0) ∧
    (64 % 8 = 0) ∧
    (1 ≤ 2) ∧
    (2 ≤ 4096) ∧
    (firstFail (keyChecks (s_witness_Sheaf_3_alt2.started (hdr 1#8)) (hdrSlice (hdr 1#8)) 46 6 65535 9 0) = none) ∧
    (witness_Sheaf_3_alt2_recs.length = 2) :=
  ⟨starts_of (by decide +kernel), by decide +kernel, by decide +kernel, by decide +kernel, by decide +kernel, by decide +kernel, by decide +kernel⟩

end Sys2Proof.Tests
end

