-- ==== Sys2Proof/Tests/WitnessLinks.lean ====
section
/-!
SUPPORT. States that meet the hypotheses of the statements about the link engines: streams and groups.
-/
set_option Elab.async false
namespace Sys2Proof.Tests
open Sys2Proof Sys2Proof.Machine

/-! ### Streams -/

def s_witness_Stream_0 : State := ready (hdr 1#8) 1024 ([(24, 2, 0), (26, 2, 6), (28, 1, 0), (29, 1, 0)]) (base)
theorem witness_Stream_0 :
    (Starts (hdr 1#8) 1024 [(24, 2, 0), (26, 2, 6), (28, 1, 0), (29, 1, 0)] s_witness_Stream_0) ∧
    (firstFail (openChecks (s_witness_Stream_0.started (hdr 1#8)) (hdrSlice (hdr 1#8)) 0 0 (maskClasses 6) (bit 0 0)) = none) ∧
    (s_witness_Stream_0.link.pairs.wf = true) :=
  ⟨starts_of (by decide +kernel), by decide +kernel, by decide +kernel⟩
def s_witness_Stream_0_alt2 : State := ready (hdr 1#8) 1024 ([(24, 2, 2), (26, 2, 16384), (28, 1, 0), (29, 1, 3)]) (base)
theorem witness_Stream_0_alt2 :
    (Starts (hdr 1#8) 1024 [(24, 2, 2), (26, 2, 16384), (28, 1, 0), (29, 1, 3)] s_witness_Stream_0_alt2) ∧
    (firstFail (openChecks (s_witness_Stream_0_alt2.started (hdr 1#8)) (hdrSlice (hdr 1#8)) 2 0 (maskClasses 16384) (bit 3 0)) = none) ∧
    (s_witness_Stream_0_alt2.link.pairs.wf = true) :=
  ⟨starts_of (by decide +kernel), by decide +kernel, by decide +kernel⟩
/-- A class of the pair has been used. -/
def usedPair : State := updPair 0 (fun p => { p with used := 2 }) base
def s_witness_Stream_0_alt3 : State := ready (hdr 1#8) 1024 ([(24, 2, 0), (26, 2, 2), (28, 1, 0), (29, 1, 0)]) (usedPair)
theorem witness_Stream_0_alt3 :
    (Starts (hdr 1#8) 1024 [(24, 2, 0), (26, 2, 2), (28, 1, 0), (29, 1, 0)] s_witness_Stream_0_alt3) ∧
    (firstFail (openChecks (s_witness_Stream_0_alt3.started (hdr 1#8)) (hdrSlice (hdr 1#8)) 0 0 (maskClasses 2) (bit 0 0)) = none) ∧
    (s_witness_Stream_0_alt3.link.pairs.wf = true) :=
  ⟨starts_of (by decide +kernel), by decide +kernel, by decide +kernel⟩
/-- A transmit and a receive stream of class 2 beside those of class 15. -/
def links : State :=
  updStream 3 (fun _ => { ctr := 9, epoch := 3, pair := 1, port := 0, cls := 2, rx := true, peer := 0, slice := 1, state := 1 })
   (updStream 2 (fun _ => { ctr := 5, epoch := 3, pair := 0, port := 0, cls := 2, rx := false, peer := 0, slice := 1, state := 1 })
    { base with link := { base.link with classMap := base.link.classMap.set 4 2 } })
def s_witness_Stream_1 : State := ready (hdr 1#8) 1025 ([(24, 2, 0), (26, 2, 4), (29, 1, 0)]) (links)
theorem witness_Stream_1 :
    (Starts (hdr 1#8) 1025 [(24, 2, 0), (26, 2, 4), (29, 1, 0)] s_witness_Stream_1) ∧
    (0 < 4096) ∧
    (s_witness_Stream_1.link.closing = []) ∧
    (s_witness_Stream_1.link.streams.wf = true) ∧
    (s_witness_Stream_1.link.streams.dflt = { : Machine.Stream }) ∧
    (∀ (e : Nat × Machine.Stream), e ∈ s_witness_Stream_1.link.streams.ents → e.snd.state ≠ 3) :=
  ⟨starts_of (by decide +kernel), by decide +kernel, by decide +kernel, by decide +kernel, by decide +kernel, by decide +kernel⟩
def s_witness_Stream_1_alt2 : State := ready (hdr 1#8) 1025 ([(24, 2, 4095), (26, 2, 4), (29, 1, 1)]) (links)
theorem witness_Stream_1_alt2 :
    (Starts (hdr 1#8) 1025 [(24, 2, 4095), (26, 2, 4), (29, 1, 1)] s_witness_Stream_1_alt2) ∧
    (4095 < 4096) ∧
    (s_witness_Stream_1_alt2.link.closing = []) ∧
    (s_witness_Stream_1_alt2.link.streams.wf = true) ∧
    (s_witness_Stream_1_alt2.link.streams.dflt = { : Machine.Stream }) ∧
    (∀ (e : Nat × Machine.Stream), e ∈ s_witness_Stream_1_alt2.link.streams.ents → e.snd.state ≠ 3) :=
  ⟨starts_of (by decide +kernel), by decide +kernel, by decide +kernel, by decide +kernel, by decide +kernel, by decide +kernel⟩
def witness_Stream_2_list : List (BitVec 16) := [0]
def s_witness_Stream_2 : State := ready (hdr 1#8) 1026 ([(24, 8, 8), (32, 2, 1)]) (base)
theorem witness_Stream_2 :
    (Starts (hdr 1#8) 1026 [(24, 8, 8), (32, 2, 1)] s_witness_Stream_2) ∧
    (8 % 8 = 0) ∧
    (1#16 ≠ 0#16) ∧
    (1 ≤ 256) ∧
    (witness_Stream_2_list.length = 1) ∧
    (∀ (p : BitVec 16),
      p ∈ witness_Stream_2_list →
        p.toNat < 8192 ∧
          (s_witness_Stream_2.pair p.toNat).valid = true ∧
            (s_witness_Stream_2.pair p.toNat).slice = hdrSlice (hdr 1#8) ∧ (s_witness_Stream_2.pair p.toNat).rx = false) :=
  ⟨starts_of (by decide +kernel), by decide +kernel, by decide +kernel, by decide +kernel, by decide +kernel, (by intro p h; cases (List.mem_singleton.mp h); decide +kernel)⟩
/-- A pair of its own in the middle of a rotation, or about to rotate. -/
def rotating (f : Pair → Pair) : State := updPair 0 f base
def witness_Stream_3_s : Machine.State := rotating fun p => { p with rotateAsked := true }
theorem witness_Stream_3 :
    ((witness_Stream_3_s.pair 0).valid = true) ∧
    ((witness_Stream_3_s.pair 0).rx = false) ∧
    ((witness_Stream_3_s.pair 0).rotateAsked = true ∨ rotateDue witness_Stream_3_s 0 = true ∨ (witness_Stream_3_s.pair 0).halyard = true) ∧
    (holdoffOver witness_Stream_3_s (witness_Stream_3_s.pair 0) = true) ∧
    ((witness_Stream_3_s.pair 0).next = true) ∧
    ((witness_Stream_3_s.pair 0).clearing = false) ∧
    (frozen witness_Stream_3_s (witness_Stream_3_s.pair 0).slice = false) ∧
    (witness_Stream_3_s.link.streams.wf = true) :=
  ⟨by decide +kernel, by decide +kernel, by decide +kernel, by decide +kernel, by decide +kernel, by decide +kernel, by decide +kernel, by decide +kernel⟩
def witness_Stream_4_s : Machine.State := rotating fun p => { p with clearing := true, next := false, serving := [(key0, 0)] }
theorem witness_Stream_4 :
    ((witness_Stream_4_s.pair 0).valid = true) ∧
    ((witness_Stream_4_s.pair 0).rx = false) ∧
    ((witness_Stream_4_s.pair 0).clearing = true) ∧
    ((witness_Stream_4_s.pair 0).halyard = false) ∧
    (dlkUsable witness_Stream_4_s (witness_Stream_4_s.pair 0).slice = true) :=
  ⟨by decide +kernel, by decide +kernel, by decide +kernel, by decide +kernel, by decide +kernel⟩
def witness_Stream_5_s : Machine.State := updPair 1 (fun p => { p with next := false }) base
theorem witness_Stream_5 :
    ((witness_Stream_5_s.pair 1).valid = true) ∧
    ((witness_Stream_5_s.pair 1).rx = true) ∧
    (dlkUsable witness_Stream_5_s (witness_Stream_5_s.pair 1).slice = true) ∧
    (entOk witness_Stream_5_s = true) ∧
    (GateIdle witness_Stream_5_s) ∧
    (witness_Stream_5_s.link.waits = []) ∧
    (∀ (d : Drain), d ∈ witness_Stream_5_s.link.drains → d.pair ≠ 1) ∧
    (∀ (e : Nat),
      e ∈ pairStreams witness_Stream_5_s 1 →
        (witness_Stream_5_s.stream e).epoch = (witness_Stream_5_s.pair 1).epoch ∧
          (witness_Stream_5_s.stream e).halyard = (witness_Stream_5_s.pair 1).halyard) :=
  ⟨by decide +kernel, by decide +kernel, by decide +kernel, by decide +kernel, gateIdle_of (by decide +kernel), by decide +kernel, by decide +kernel, by decide +kernel⟩

/-! ### Groups -/

def witness_Group_0_payload : Bytes := [1, 2, 3]
theorem witness_Group_0 :
    (0 < 18) ∧
    (links.link.classMap.get 4 ≤ 14) ∧
    (findStream links 1 0 (links.link.classMap.get 4) false = some 2) ∧
    ((links.stream 2).state = 1) ∧
    ((links.stream 2).port = 0) ∧
    (frozen links 1 = false) ∧
    (List.length witness_Group_0_payload ≤ 4096) ∧
    ((links.stream 2).ctr < 2 ^ 40 - 2) :=
  ⟨by decide +kernel, by decide +kernel, by decide +kernel, by decide +kernel, by decide +kernel, by decide +kernel, by decide +kernel, by decide +kernel⟩
theorem witness_Group_0_alt2 :
    (0 < 18) ∧
    (links.link.classMap.get 4 ≤ 14) ∧
    (findStream links 1 0 (links.link.classMap.get 4) false = some 2) ∧
    ((links.stream 2).state = 1) ∧
    ((links.stream 2).port = 0) ∧
    (frozen links 1 = false) ∧
    ((List.replicate 4096 1).length ≤ 4096) ∧
    ((links.stream 2).ctr < 2 ^ 40 - 2) :=
  ⟨by decide +kernel, by decide +kernel, by decide +kernel, by decide +kernel, by decide +kernel, by decide +kernel, by decide +kernel, by decide +kernel⟩
/-- An open group of the transmit stream. -/
def openGroup : TxGroup := { stream := 2, packets := 1, payload := [9], descs := descBytes 0x1000 7 8 1 0, startedAt := 0 }
def filling : State := { links with link := { links.link with txOpen := links.link.txOpen.set 0 [openGroup] } }
def witness_Group_0_alt3_payload : Bytes := [1, 2, 3]
theorem witness_Group_0_alt3 :
    (0 < 18) ∧
    (filling.link.classMap.get 4 ≤ 14) ∧
    (findStream filling 1 0 (filling.link.classMap.get 4) false = some 2) ∧
    ((filling.stream 2).state = 1) ∧
    ((filling.stream 2).port = 0) ∧
    (frozen filling 1 = false) ∧
    (List.length witness_Group_0_alt3_payload ≤ 4096) ∧
    ((filling.stream 2).ctr < 2 ^ 40 - 2) :=
  ⟨by decide +kernel, by decide +kernel, by decide +kernel, by decide +kernel, by decide +kernel, by decide +kernel, by decide +kernel, by decide +kernel⟩
def witness_Group_1_payload : Bytes := [1, 2, 3]
def witness_Group_1_s : Machine.State := { links with link := { links.link with classMap := links.link.classMap.set 5 15 } }
theorem witness_Group_1 :
    (17 < 18) ∧
    (14 < witness_Group_1_s.link.classMap.get 5) :=
  ⟨by decide +kernel, by decide +kernel⟩
theorem witness_Group_2 :
    (List.find? (fun g => g.stream == 2) (filling.link.txOpen.get 0) = some openGroup) ∧
    ((filling.stream 2).port = 0) ∧
    ((filling.stream 2).ctr < 2 ^ 40 - 2) ∧
    ((filling.port 0).mode ≠ 1) ∧
    (∀ (e : Nat × Machine.Stream), e ∈ filling.link.streams.ents → e.snd.state ≠ 3) ∧
    ((filling.stream 2).state ≠ 3) :=
  ⟨by decide +kernel, by decide +kernel, by decide +kernel, by decide +kernel, by decide +kernel, by decide +kernel⟩
/-- A GSH from member 0 to slice 1, and one descriptor. -/
def gshFor (kph : Bool) (cls len ctr : Nat) : Bytes := gshBytes kph false false cls 1 0 1 len ctr 1 1
def descOf (len : Nat) : Bytes := descBytes 0 0 0 len 0
theorem witness_Group_3 :
    (GateIdle links) ∧
    (wired links 0 = true) ∧
    (bufferRoom links 0 (descOf 0) [] = true) ∧
    ((readGsh (gshFor false 2 0 9)).flags < 2) ∧
    ((readGsh (gshFor false 2 0 9)).bad = false) ∧
    (descsBad (descOf 0) = false) ∧
    ((readGsh (gshFor false 2 0 9)).cls ≠ 15) ∧
    (staleGroup links (readGsh (gshFor false 2 0 9)) = false) ∧
    (findStream links (readGsh (gshFor false 2 0 9)).rxSlice (readGsh (gshFor false 2 0 9)).sender (readGsh (gshFor false 2 0 9)).cls true = some 3) ∧
    ((links.stream 3).port = 0) ∧
    ((links.stream 3).state ≠ 3) ∧
    ((readGsh (gshFor false 2 0 9)).receiver = (links.domain (readGsh (gshFor false 2 0 9)).rxSlice).member) ∧
    (bit (readGsh (gshFor false 2 0 9)).flags 0 = (links.stream 3).kph) ∧
    (windowAccept (links.stream 3).ctr (links.stream 3).window (readGsh (gshFor false 2 0 9)).ctr = some (10, 0)) ∧
    (isGateway links = false) ∧
    ((links.stream 3).cls ≠ 15) ∧
    ((links.stream 3).sav = false) ∧
    ((links.port 0).sav = false) ∧
    (unverified links 0 < 256) :=
  ⟨gateIdle_of (by decide +kernel), by decide +kernel, by decide +kernel, by decide +kernel, by decide +kernel, by decide +kernel, by decide +kernel, by decide +kernel, by decide +kernel, by decide +kernel, by decide +kernel, by decide +kernel, (by decide +kernel), by decide +kernel, by decide +kernel, by decide +kernel, by decide +kernel, by decide +kernel, by decide +kernel⟩
/-- A group of a class that has been accepted, without a result. -/
def pended (cls : Nat) (fwd : Bool) : RxGroup := {
  port := 0, slice := 1, stream := if cls = 15 then 1 else 3, seq := 1, epoch := 3, halyard := false, gsh := gshFor false cls 0 9, descs := descOf 0, cipher := []
  fwd, verified := false, at_ := 0 }
def pending1 (g : RxGroup) : State := { links with link := { links.link with pend := [g] }, ac := links.ac.set (gateKey 0 1) 1 }
def witness_Group_4_s : Machine.State := pending1 (pended 2 true)
theorem witness_Group_4 :
    (GateIdle witness_Group_4_s) ∧
    (pendAt witness_Group_4_s 0 0 = some (pended 2 true)) ∧
    ((pended 2 true).verified = false) ∧
    ((pended 2 true).seq ≠ 0) ∧
    ((pended 2 true).seq ≤ witness_Group_4_s.ac.get (gateKey 0 (pended 2 true).slice)) ∧
    (∀ (x : RxGroup), x ∈ witness_Group_4_s.link.pend → x.port = 0 → x.slice = (pended 2 true).slice → x = pended 2 true) ∧
    (trailerOk (pended 2 true) (pended 2 true).gsh = true) ∧
    (tagOk witness_Group_4_s (pended 2 true) (ownTag (pending1 (pended 2 true)) (pended 2 true)) = true) :=
  ⟨gateIdle_of (by decide +kernel), by decide +kernel, by decide +kernel, by decide +kernel, by decide +kernel, by decide +kernel, (by decide +kernel), (tagOk_own (pending1 (pended 2 true)) (pended 2 true))⟩
def witness_Group_4_alt2_s : Machine.State := pending1 (pended 2 false)
theorem witness_Group_4_alt2 :
    (GateIdle witness_Group_4_alt2_s) ∧
    (pendAt witness_Group_4_alt2_s 0 0 = some (pended 2 false)) ∧
    ((pended 2 false).verified = false) ∧
    ((pended 2 false).seq ≠ 0) ∧
    ((pended 2 false).seq ≤ witness_Group_4_alt2_s.ac.get (gateKey 0 (pended 2 false).slice)) ∧
    (∀ (x : RxGroup), x ∈ witness_Group_4_alt2_s.link.pend → x.port = 0 → x.slice = (pended 2 false).slice → x = pended 2 false) ∧
    (trailerOk (pended 2 false) (pended 2 false).gsh = true) ∧
    (tagOk witness_Group_4_alt2_s (pended 2 false) (ownTag (pending1 (pended 2 false)) (pended 2 false)) = true) :=
  ⟨gateIdle_of (by decide +kernel), by decide +kernel, by decide +kernel, by decide +kernel, by decide +kernel, by decide +kernel, (by decide +kernel), (tagOk_own (pending1 (pended 2 false)) (pended 2 false))⟩
def witness_Group_4_alt3_s : Machine.State := pending1 (pended 15 false)
theorem witness_Group_4_alt3 :
    (GateIdle witness_Group_4_alt3_s) ∧
    (pendAt witness_Group_4_alt3_s 0 0 = some (pended 15 false)) ∧
    ((pended 15 false).verified = false) ∧
    ((pended 15 false).seq ≠ 0) ∧
    ((pended 15 false).seq ≤ witness_Group_4_alt3_s.ac.get (gateKey 0 (pended 15 false).slice)) ∧
    (∀ (x : RxGroup), x ∈ witness_Group_4_alt3_s.link.pend → x.port = 0 → x.slice = (pended 15 false).slice → x = pended 15 false) ∧
    (trailerOk (pended 15 false) (pended 15 false).gsh = true) ∧
    (tagOk witness_Group_4_alt3_s (pended 15 false) (ownTag (pending1 (pended 15 false)) (pended 15 false)) = true) :=
  ⟨gateIdle_of (by decide +kernel), by decide +kernel, by decide +kernel, by decide +kernel, by decide +kernel, by decide +kernel, (by decide +kernel), (tagOk_own (pending1 (pended 15 false)) (pended 15 false))⟩
def witness_Group_5_0_s : Machine.State := pending1 (pended 2 true)
theorem witness_Group_5_0 :
    (pendAt witness_Group_5_0_s 0 0 = some (pended 2 true)) ∧
    ((pended 2 true).verified = false) ∧
    ((witness_Group_5_0_s.domain (pended 2 true).slice).state ∈ [1, 2, 3]) ∧
    (trailerOk (pended 2 true) [] = false ∧ passesThrough witness_Group_5_0_s (readGsh []) [] = false ∨
      tagOk witness_Group_5_0_s (pended 2 true) 0#128 = false ∧ [] = (pended 2 true).gsh) :=
  ⟨by decide +kernel, by decide +kernel, by decide +kernel, (Or.inl (by decide +kernel))⟩
def witness_Group_5_0_alt2_s : Machine.State := pending1 (pended 15 false)
theorem witness_Group_5_0_alt2 :
    (pendAt witness_Group_5_0_alt2_s 0 0 = some (pended 15 false)) ∧
    ((pended 15 false).verified = false) ∧
    ((witness_Group_5_0_alt2_s.domain (pended 15 false).slice).state ∈ [1, 2, 3]) ∧
    (trailerOk (pended 15 false) [] = false ∧ passesThrough witness_Group_5_0_alt2_s (readGsh []) [] = false ∨
      tagOk witness_Group_5_0_alt2_s (pended 15 false) 0#128 = false ∧ [] = (pended 15 false).gsh) :=
  ⟨by decide +kernel, by decide +kernel, by decide +kernel, (Or.inl (by decide +kernel))⟩
def witness_Group_5_1_s : Machine.State := pending1 (pended 2 true)
theorem witness_Group_5_1 :
    (pendAt witness_Group_5_1_s 0 0 = some (pended 2 true)) ∧
    ((pended 2 true).verified = false) ∧
    ((witness_Group_5_1_s.domain (pended 2 true).slice).state ∈ [1, 2, 3]) :=
  ⟨by decide +kernel, by decide +kernel, by decide +kernel⟩
/-- A group of the new phase that waits for NEXT. -/
def nextWait : RxWait := { port := 0, gsh := gshFor true 2 0 0, descs := descOf 0, cipher := [], at_ := 0 }
def witness_Group_6_s : Machine.State := { links with link := { links.link with waits := [nextWait] } }
theorem witness_Group_6 :
    (witness_Group_6_s.link.waits = [nextWait]) ∧
    (nextWait.port = 0) ∧
    (findStream witness_Group_6_s (readGsh nextWait.gsh).rxSlice (readGsh nextWait.gsh).sender (readGsh nextWait.gsh).cls true = some 3) ∧
    (nextClear witness_Group_6_s 3 = true) ∧
    ((witness_Group_6_s.domain (readGsh nextWait.gsh).rxSlice).state ∈ [1, 2, 3]) :=
  ⟨by decide +kernel, by decide +kernel, by decide +kernel, by decide +kernel, by decide +kernel⟩
/-- The drain of the receive stream, its rotation mark in or not. -/
def drain3 (mark : Option Nat) : Drain := { port := 0, pair := 1, epoch := 3, halyard := false, ents := [{ stream := 3, ctr := 9, window := 0, mark }], at_ := 0 }
def draining (mark : Option Nat) : State :=
  updStream 3 (fun x => { x with drain := true, epoch := 4 }) { links with link := { links.link with drains := [drain3 mark] } }
def witness_Group_7_d : Drain := drain3 (some 8)
def witness_Group_7_s : Machine.State := draining (some 8)
theorem witness_Group_7 :
    (drainOf witness_Group_7_s 0 1 = some witness_Group_7_d) ∧
    (witness_Group_7_d.ents.all (entDone witness_Group_7_s) = true) ∧
    (witness_Group_7_s.link.pend.any (oldGroup witness_Group_7_d) = false) ∧
    (GateIdle witness_Group_7_s) ∧
    (∀ (n : DrainEnt), n ∈ witness_Group_7_d.ents → (witness_Group_7_s.stream n.stream).state ≠ 3) ∧
    (∀ (w : RxWait), w ∈ witness_Group_7_s.link.waits → w.port ≠ 0) :=
  ⟨by decide +kernel, by decide +kernel, by decide +kernel, gateIdle_of (by decide +kernel), by decide +kernel, by decide +kernel⟩
theorem witness_Group_8 :
    (drainOf (draining none) 0 1 = some (drain3 none)) ∧
    (List.find? (fun n => !entDone (draining none) n) (drain3 none).ents = some { stream := 3, ctr := 9, window := 0, mark := none : DrainEnt }) ∧
    (((draining none).domain ((draining none).stream { stream := 3, ctr := 9, window := 0, mark := none : DrainEnt }.stream).slice).state ∈ [1, 2, 3]) :=
  ⟨by decide +kernel, by decide +kernel, by decide +kernel⟩
/-- Members with endpoints of their own. -/
def endpoints : State := updDom 1 (fun d => { d with list := (List.range 3).flatMap (fun m => List.replicate 0x34 0 ++ leBytes 4 (m + 1) ++ List.replicate 8 0) }) links
theorem witness_Group_9 :
    (0 < 18) ∧
    (List.filter (fun n => (endpoints.domain n).state != 0 && (endpoints.domain n).state != 4) (List.range 16) = [1]) ∧
    (membersAt (endpoints.domain 1) 1 = [0]) ∧
    (endpoints.link.streams.wf = true) ∧
    (endpoints.link.streams.dflt = { : Machine.Stream }) ∧
    (∀ (e : Nat × Machine.Stream), e ∈ endpoints.link.streams.ents → e.snd.state ≠ 3) :=
  ⟨by decide +kernel, by decide +kernel, by decide +kernel, by decide +kernel, by decide +kernel, by decide +kernel⟩
theorem witness_Group_9_alt2 :
    (17 < 18) ∧
    (List.filter (fun n => (endpoints.domain n).state != 0 && (endpoints.domain n).state != 4) (List.range 16) = [1]) ∧
    (membersAt (endpoints.domain 1) 3 = [2]) ∧
    (endpoints.link.streams.wf = true) ∧
    (endpoints.link.streams.dflt = { : Machine.Stream }) ∧
    (∀ (e : Nat × Machine.Stream), e ∈ endpoints.link.streams.ents → e.snd.state ≠ 3) :=
  ⟨by decide +kernel, by decide +kernel, by decide +kernel, by decide +kernel, by decide +kernel, by decide +kernel⟩

end Sys2Proof.Tests
end

