-- ==== Sys2Proof/Tests/WitnessMemory.lean ====
section
/-!
SUPPORT. States that meet the hypotheses of the statements about memory: regions, fallow lines and saves, the plough, calibration and shares, and the memory engines' events.
-/
set_option Elab.async false
namespace Sys2Proof.Tests
open Sys2Proof Sys2Proof.Machine

/-! ### Regions -/

/-- Twelve stacks, and the three keys of region 3 of slice 1 under an epoch in slots from `n`. -/
def rkey (cls e : Nat) (k : BitVec 256) : Slot := { key := k, attr := attrWord 56 cls 1 1 1 false false false, binding := bindWord 0 3 e }
def twelveStacks (s : State) : State := { s with mem := { s.mem with decodeK := 12, decodeMap := (List.range 12).foldl (fun t i => t.set i i) (Tbl.const 0xFFFF) } }
def keyed3 (s : State) : State := twelveStacks { s with kst := (((((s.kst.set 40 (rkey 1 2 11)).set 41 (rkey 2 2 12)).set 42 (rkey 3 2 13)).set 43 (rkey 1 9 14)).set 44 (rkey 2 9 15)).set 45 (rkey 3 9 16) }
/-- Region 3 of slice 1 in a mode. -/
def reg3 (m : Nat) : Region := {
  valid := true, state := 1, mode := m, slice := 1, base := 0, pages := 1, keyData := 40, keyTweak := 41, keyTag := 42, epoch := 2, stepOrSeq := 5
  save := if m = 2 then 2 else 0, saveCount := 32, saveSeq := 5, epochAt := 0 }
def with3 (x : Region) (s : State) : State := { s with mem := { s.mem with regions := s.mem.regions.set 3 x } }
def memBase (m : Nat) : State := with3 (reg3 m) (keyed3 base)
def s_witness_Region_0 : State := ready (hdr 1#8) 256 ([(24, 2, 3), (26, 2, 1), (28, 4, 2), (32, 5, 0), (37, 5, 0), (42, 5, 0), (48, 4, 1), (52, 2, 40), (54, 2, 41), (56, 2, 42), (58, 2, 0)]) (keyed3 base)
theorem witness_Region_0 :
    (Starts (hdr 1#8) 256
      [(24, 2, 3), (26, 2, 1), (28, 4, 2), (32, 5, 0), (37, 5, 0), (42, 5, 0), (48, 4, 1), (52, 2, 40), (54, 2, 41), (56, 2, 42), (58, 2, 0)]
      s_witness_Region_0) ∧
    (Fresh (hdr 1#8).key s_witness_Region_0) ∧
    (firstFail
        (defineChecks (s_witness_Region_0.started (hdr 1#8)) 3
          { mode := 1 % 4, tgc := if bit 1 2 = true then bit 1 3 else decide (1 % 4 < 2), sheaf := bit 1 4, slice := hdrSlice (hdr 1#8), pages := 1,
            keyData := 40, keyTweak := 41, keyTag := 42, mirrorBase := if (1 % 4 == 0) = true then 0 else 0,
            metaBase := if (1 % 4 == 0) = true then 0 else 0, crownFirst := if (1 % 4 == 0) = true then 0 else 0, epoch := 2 : Region }
          (bit 1 3)) =
      none) :=
  ⟨starts_of (by decide +kernel), fresh_of (by decide +kernel), by decide +kernel⟩
def s_witness_Region_0_alt2 : State := ready (hdr 1#8) 256 ([(24, 2, 3), (26, 2, 33), (28, 4, 2), (32, 5, 0), (37, 5, 0), (42, 5, 0), (48, 4, 1), (52, 2, 40), (54, 2, 41), (56, 2, 42), (58, 2, 0)]) (keyed3 base)
theorem witness_Region_0_alt2 :
    (Starts (hdr 1#8) 256
      [(24, 2, 3), (26, 2, 33), (28, 4, 2), (32, 5, 0), (37, 5, 0), (42, 5, 0), (48, 4, 1), (52, 2, 40), (54, 2, 41), (56, 2, 42), (58, 2, 0)]
      s_witness_Region_0_alt2) ∧
    (Fresh (hdr 1#8).key s_witness_Region_0_alt2) ∧
    (firstFail
        (defineChecks (s_witness_Region_0_alt2.started (hdr 1#8)) 3
          { mode := 33 % 4, tgc := if bit 33 2 = true then bit 33 3 else decide (33 % 4 < 2), sheaf := bit 33 4, slice := hdrSlice (hdr 1#8), pages := 1,
            keyData := 40, keyTweak := 41, keyTag := 42, mirrorBase := if (33 % 4 == 0) = true then 0 else 0,
            metaBase := if (33 % 4 == 0) = true then 0 else 0, crownFirst := if (33 % 4 == 0) = true then 0 else 0, epoch := 2 : Region }
          (bit 33 3)) =
      none) :=
  ⟨starts_of (by decide +kernel), fresh_of (by decide +kernel), by decide +kernel⟩
def witness_Region_1_s : Machine.State := with3 { reg3 1 with state := 0, define := some key0 } (running (hdr 1) 0x100 [] (keyed3 base))
theorem witness_Region_1 :
    ((witness_Region_1_s.region 3).valid = true) ∧
    ((witness_Region_1_s.region 3).state = 0) ∧
    ((witness_Region_1_s.region 3).define = some key0) ∧
    (linesWait witness_Region_1_s 3 = false) ∧
    (Runs key0 witness_Region_1_s) :=
  ⟨by decide +kernel, by decide +kernel, by decide +kernel, by decide +kernel, runs_of (by decide +kernel)⟩
def s_witness_Region_2 : State := ready (hdr 1#8) 257 ([(24, 2, 3)]) (memBase 1)
theorem witness_Region_2 :
    (Starts (hdr 1#8) 257 [(24, 2, 3)] s_witness_Region_2) ∧
    (firstFail (indexChecks (s_witness_Region_2.started (hdr 1#8)) (hdrSlice (hdr 1#8)) 3 ((s_witness_Region_2.q (hdr 1#8).key).owner == 16)) = none) ∧
    (Fresh (hdr 1#8).key s_witness_Region_2) :=
  ⟨starts_of (by decide +kernel), by decide +kernel, fresh_of (by decide +kernel)⟩
theorem witness_Region_3 :
    (((with3
              (let __src := reg3 1;
              { valid := __src.valid, state := 5, mode := __src.mode, tgc := __src.tgc, sheaf := __src.sheaf, window := __src.window,
                slice := __src.slice, base := __src.base, pages := __src.pages, keyData := __src.keyData, keyTweak := __src.keyTweak,
                keyTag := __src.keyTag, nextData := __src.nextData, nextTweak := __src.nextTweak, nextTag := __src.nextTag,
                mirrorBase := __src.mirrorBase, metaBase := __src.metaBase, crownFirst := __src.crownFirst, furrow := __src.furrow, epoch := __src.epoch,
                grants := __src.grants, stepOrSeq := __src.stepOrSeq, save := __src.save, phaseWrites := __src.phaseWrites, saveFirst := __src.saveFirst,
                saveCount := __src.saveCount, saveSeq := __src.saveSeq, closing := __src.closing, exhausted := __src.exhausted,
                tgcCount := __src.tgcCount, epochAt := __src.epochAt, agesRaised := __src.agesRaised, define := __src.define, retire := [key0],
                ending := __src.ending, importing := __src.importing : Region })
              (keyed3 base)).region
          3).valid =
      true) ∧
    (((with3
              (let __src := reg3 1;
              { valid := __src.valid, state := 5, mode := __src.mode, tgc := __src.tgc, sheaf := __src.sheaf, window := __src.window,
                slice := __src.slice, base := __src.base, pages := __src.pages, keyData := __src.keyData, keyTweak := __src.keyTweak,
                keyTag := __src.keyTag, nextData := __src.nextData, nextTweak := __src.nextTweak, nextTag := __src.nextTag,
                mirrorBase := __src.mirrorBase, metaBase := __src.metaBase, crownFirst := __src.crownFirst, furrow := __src.furrow, epoch := __src.epoch,
                grants := __src.grants, stepOrSeq := __src.stepOrSeq, save := __src.save, phaseWrites := __src.phaseWrites, saveFirst := __src.saveFirst,
                saveCount := __src.saveCount, saveSeq := __src.saveSeq, closing := __src.closing, exhausted := __src.exhausted,
                tgcCount := __src.tgcCount, epochAt := __src.epochAt, agesRaised := __src.agesRaised, define := __src.define, retire := [key0],
                ending := __src.ending, importing := __src.importing : Region })
              (keyed3 base)).region
          3).retire ≠
      []) ∧
    (regionBusy
        (with3
          (let __src := reg3 1;
          { valid := __src.valid, state := 5, mode := __src.mode, tgc := __src.tgc, sheaf := __src.sheaf, window := __src.window, slice := __src.slice,
            base := __src.base, pages := __src.pages, keyData := __src.keyData, keyTweak := __src.keyTweak, keyTag := __src.keyTag,
            nextData := __src.nextData, nextTweak := __src.nextTweak, nextTag := __src.nextTag, mirrorBase := __src.mirrorBase,
            metaBase := __src.metaBase, crownFirst := __src.crownFirst, furrow := __src.furrow, epoch := __src.epoch, grants := __src.grants,
            stepOrSeq := __src.stepOrSeq, save := __src.save, phaseWrites := __src.phaseWrites, saveFirst := __src.saveFirst,
            saveCount := __src.saveCount, saveSeq := __src.saveSeq, closing := __src.closing, exhausted := __src.exhausted, tgcCount := __src.tgcCount,
            epochAt := __src.epochAt, agesRaised := __src.agesRaised, define := __src.define, retire := [key0], ending := __src.ending,
            importing := __src.importing : Region })
          (keyed3 base))
        3 =
      false) :=
  ⟨by decide +kernel, by decide +kernel, by decide +kernel⟩
def s_witness_Region_4 : State := ready (hdr 1#8) 258 ([(24, 2, 3), (26, 1, 15)]) (updSlice 15 (fun x => { x with state := 1 }) (memBase 1))
theorem witness_Region_4 :
    (Starts (hdr 1#8) 258 [(24, 2, 3), (26, 1, 15)] s_witness_Region_4) ∧
    (ownsRegionIx s_witness_Region_4 (hdrSlice (hdr 1#8)) 3 = true) ∧
    ((s_witness_Region_4.region 3).valid = true) ∧
    (15 < 16) ∧
    (15 ≠ (s_witness_Region_4.region 3).slice) ∧
    ((s_witness_Region_4.slice 15).state ≠ 0) ∧
    (bit (s_witness_Region_4.region 3).grants 15 = true ∨
      (s_witness_Region_4.region 3).mode ≠ 3 ∧ ((s_witness_Region_4.region 3).state = 1 ∨ (s_witness_Region_4.region 3).state = 2)) :=
  ⟨starts_of (by decide +kernel), by decide +kernel, by decide +kernel, by decide +kernel, by decide +kernel, by decide +kernel, by decide +kernel⟩
def s_witness_Region_5 : State := ready (hdr 1#8) 259 ([(24, 2, 3), (26, 1, 15)]) (memBase 1)
theorem witness_Region_5 :
    (Starts (hdr 1#8) 259 [(24, 2, 3), (26, 1, 15)] s_witness_Region_5) ∧
    (ownsRegionIx s_witness_Region_5 (hdrSlice (hdr 1#8)) 3 = true) ∧
    ((s_witness_Region_5.region 3).valid = true) ∧
    (15 < 16) :=
  ⟨starts_of (by decide +kernel), by decide +kernel, by decide +kernel, by decide +kernel⟩

/-! ### Fallow lines and saves -/

def s_witness_FallowAndSave_0 : State := ready (hdr 16#8) 260 ([(24, 8, 8)]) (base)
theorem witness_FallowAndSave_0 :
    (Starts (hdr 16#8) 260 [(24, 8, 8)] s_witness_FallowAndSave_0) ∧
    (8 % 8 = 0) :=
  ⟨starts_of (by decide +kernel), by decide +kernel⟩
def s_witness_FallowAndSave_1 : State := ready (hdr 16#8) 261 ([(24, 1, 255), (25, 1, 0)]) ({ base with mem := { base.mem with fallow := base.mem.fallow.set 255 { state := 2 } } })
theorem witness_FallowAndSave_1 :
    (Starts (hdr 16#8) 261 [(24, 1, 255), (25, 1, 0)] s_witness_FallowAndSave_1) ∧
    ((s_witness_FallowAndSave_1.mem.fallow.get 255).state ≠ 1) ∧
    ((s_witness_FallowAndSave_1.mem.fallow.get 255).state = 2 ∨ bit 0 0 = true) :=
  ⟨starts_of (by decide +kernel), by decide +kernel, by decide +kernel⟩
def s_witness_FallowAndSave_1_alt2 : State := ready (hdr 16#8) 261 ([(24, 1, 0), (25, 1, 1)]) (base)
theorem witness_FallowAndSave_1_alt2 :
    (Starts (hdr 16#8) 261 [(24, 1, 0), (25, 1, 1)] s_witness_FallowAndSave_1_alt2) ∧
    ((s_witness_FallowAndSave_1_alt2.mem.fallow.get 0).state ≠ 1) ∧
    ((s_witness_FallowAndSave_1_alt2.mem.fallow.get 0).state = 2 ∨ bit 1 0 = true) :=
  ⟨starts_of (by decide +kernel), by decide +kernel, by decide +kernel⟩
def s_witness_FallowAndSave_2 : State := ready (hdr 1#8) 272 ([(24, 2, 3), (32, 8, 31), (40, 8, 1)]) (memBase 2)
theorem witness_FallowAndSave_2 :
    (Starts (hdr 1#8) 272 [(24, 2, 3), (32, 8, 31), (40, 8, 1)] s_witness_FallowAndSave_2) ∧
    (ownsRegionIx s_witness_FallowAndSave_2 (hdrSlice (hdr 1#8)) 3 = true) ∧
    ((s_witness_FallowAndSave_2.region 3).valid = true) ∧
    ((s_witness_FallowAndSave_2.region 3).mode = 2) ∧
    ((s_witness_FallowAndSave_2.region 3).state = 1) ∧
    ((s_witness_FallowAndSave_2.region 3).save ≠ 1) ∧
    (1 ≤ 1) ∧
    (31 + 1 ≤ (s_witness_FallowAndSave_2.region 3).lines) ∧
    ((s_witness_FallowAndSave_2.region 3).stepOrSeq ≠ 2 ^ 48 - 1) :=
  ⟨starts_of (by decide +kernel), by decide +kernel, by decide +kernel, by decide +kernel, by decide +kernel, by decide +kernel, by decide +kernel, by decide +kernel, by decide +kernel⟩
def s_witness_FallowAndSave_2_alt2 : State := ready (hdr 1#8) 272 ([(24, 2, 3), (32, 8, 0), (40, 8, 32)]) (memBase 2)
theorem witness_FallowAndSave_2_alt2 :
    (Starts (hdr 1#8) 272 [(24, 2, 3), (32, 8, 0), (40, 8, 32)] s_witness_FallowAndSave_2_alt2) ∧
    (ownsRegionIx s_witness_FallowAndSave_2_alt2 (hdrSlice (hdr 1#8)) 3 = true) ∧
    ((s_witness_FallowAndSave_2_alt2.region 3).valid = true) ∧
    ((s_witness_FallowAndSave_2_alt2.region 3).mode = 2) ∧
    ((s_witness_FallowAndSave_2_alt2.region 3).state = 1) ∧
    ((s_witness_FallowAndSave_2_alt2.region 3).save ≠ 1) ∧
    (1 ≤ 32) ∧
    (0 + 32 ≤ (s_witness_FallowAndSave_2_alt2.region 3).lines) ∧
    ((s_witness_FallowAndSave_2_alt2.region 3).stepOrSeq ≠ 2 ^ 48 - 1) :=
  ⟨starts_of (by decide +kernel), by decide +kernel, by decide +kernel, by decide +kernel, by decide +kernel, by decide +kernel, by decide +kernel, by decide +kernel, by decide +kernel⟩
def s_witness_FallowAndSave_3 : State := ready (hdr 1#8) 273 ([(24, 2, 3)]) (with3 { reg3 2 with save := 1, phaseWrites := 31 } (keyed3 base))
theorem witness_FallowAndSave_3 :
    (Starts (hdr 1#8) 273 [(24, 2, 3)] s_witness_FallowAndSave_3) ∧
    (ownsRegionIx s_witness_FallowAndSave_3 (hdrSlice (hdr 1#8)) 3 = true) ∧
    ((s_witness_FallowAndSave_3.region 3).valid = true) ∧
    ((s_witness_FallowAndSave_3.region 3).mode = 2) ∧
    ((s_witness_FallowAndSave_3.region 3).save = 1) ∧
    ((s_witness_FallowAndSave_3.region 3).ending = none) :=
  ⟨starts_of (by decide +kernel), by decide +kernel, by decide +kernel, by decide +kernel, by decide +kernel, by decide +kernel⟩
def s_witness_FallowAndSave_3_alt2 : State := ready (hdr 1#8) 273 ([(24, 2, 3)]) (with3 { reg3 2 with save := 1, phaseWrites := 32 } (keyed3 base))
theorem witness_FallowAndSave_3_alt2 :
    (Starts (hdr 1#8) 273 [(24, 2, 3)] s_witness_FallowAndSave_3_alt2) ∧
    (ownsRegionIx s_witness_FallowAndSave_3_alt2 (hdrSlice (hdr 1#8)) 3 = true) ∧
    ((s_witness_FallowAndSave_3_alt2.region 3).valid = true) ∧
    ((s_witness_FallowAndSave_3_alt2.region 3).mode = 2) ∧
    ((s_witness_FallowAndSave_3_alt2.region 3).save = 1) ∧
    ((s_witness_FallowAndSave_3_alt2.region 3).ending = none) :=
  ⟨starts_of (by decide +kernel), by decide +kernel, by decide +kernel, by decide +kernel, by decide +kernel, by decide +kernel⟩
def s_witness_FallowAndSave_4 : State := ready (hdr 1#8) 274 ([(24, 2, 3)]) (memBase 2)
theorem witness_FallowAndSave_4 :
    (Starts (hdr 1#8) 274 [(24, 2, 3)] s_witness_FallowAndSave_4) ∧
    (ownsRegionIx s_witness_FallowAndSave_4 (hdrSlice (hdr 1#8)) 3 = true) ∧
    ((s_witness_FallowAndSave_4.region 3).valid = true) ∧
    ((s_witness_FallowAndSave_4.region 3).mode = 2) :=
  ⟨starts_of (by decide +kernel), by decide +kernel, by decide +kernel, by decide +kernel⟩

/-! ### Plough -/

/-- The plough of region 3 in a state. -/
def plough3 (m st : Nat) : Plough := { region := 3, state := st, lf := 0, base := if m = 0 then 0 else 5, epoch := 9, set := 0, keys := [key0], ctx := 0 }
/-- Region 3 in a mode under a plough. -/
def ploughed (m : Nat) (p : Plough) : State :=
  let s := with3 { reg3 m with state := 2, nextData := 43, nextTweak := 44, nextTag := 45 } (keyed3 base)
  { s with mem := { s.mem with ploughs := [p] } }
def s_witness_Plough_0 : State := ready (hdr 1#8) 288 ([(24, 2, 3), (28, 4, 9), (32, 2, 43), (34, 2, 44), (36, 2, 45)]) (memBase 1)
theorem witness_Plough_0 :
    (Starts (hdr 1#8) 288 [(24, 2, 3), (28, 4, 9), (32, 2, 43), (34, 2, 44), (36, 2, 45)] s_witness_Plough_0) ∧
    (firstFail (ploughChecks (s_witness_Plough_0.started (hdr 1#8)) (hdrSlice (hdr 1#8)) 3 9 43 44 45) = none) ∧
    (ploughOf s_witness_Plough_0 3 = none) :=
  ⟨starts_of (by decide +kernel), by decide +kernel, by decide +kernel⟩
def s_witness_Plough_0_alt2 : State := ready (hdr 1#8) 288 ([(24, 2, 3), (28, 4, 9), (32, 2, 43), (34, 2, 44), (36, 2, 45)]) (memBase 2)
theorem witness_Plough_0_alt2 :
    (Starts (hdr 1#8) 288 [(24, 2, 3), (28, 4, 9), (32, 2, 43), (34, 2, 44), (36, 2, 45)] s_witness_Plough_0_alt2) ∧
    (firstFail (ploughChecks (s_witness_Plough_0_alt2.started (hdr 1#8)) (hdrSlice (hdr 1#8)) 3 9 43 44 45) = none) ∧
    (ploughOf s_witness_Plough_0_alt2 3 = none) :=
  ⟨starts_of (by decide +kernel), by decide +kernel, by decide +kernel⟩
def s_witness_Plough_1 : State := ready (hdr 1#8) 288 ([(24, 2, 3), (28, 4, 9), (32, 2, 43), (34, 2, 44), (36, 2, 45)]) (ploughed 1 (plough3 1 2))
theorem witness_Plough_1 :
    (Starts (hdr 1#8) 288 [(24, 2, 3), (28, 4, 9), (32, 2, 43), (34, 2, 44), (36, 2, 45)] s_witness_Plough_1) ∧
    (resumes s_witness_Plough_1 (hdrSlice (hdr 1#8)) 3 9 43 44 45 = true) ∧
    (ploughOf s_witness_Plough_1 3 = some (plough3 1 2)) :=
  ⟨starts_of (by decide +kernel), by decide +kernel, by decide +kernel⟩
/-- A word for a line of region 3 under version 5 and the old epoch. -/
def word3 (s : State) : LineRead :=
  { pc := 0, word := { status := 0, cipher := zeroLine, tag := lt56 (engKey s 3 (keySet s 3 false)) zeroLine 0 1 5 (sideEpoch s 3 false) } }
def word3p : LineRead := { pc := 0, word := { status := 1, cipher := zeroLine, tag := 0 } }
def witness_Plough_2_s : Machine.State := ploughed 1 (plough3 1 1)
theorem witness_Plough_2 :
    (ploughOf witness_Plough_2_s 3 = some (plough3 1 1)) ∧
    ((witness_Plough_2_s.region 3).mode ≤ 2) ∧
    (ploughWorks witness_Plough_2_s (plough3 1 1) 0 = true) ∧
    (mayMove witness_Plough_2_s (plough3 1 1) (witness_Plough_2_s.region 3) 3 0 = true) ∧
    (isFallow witness_Plough_2_s ((witness_Plough_2_s.region 3).firstLn + 0) = false) ∧
    ((witness_Plough_2_s.region 3).mode = 0 → countersReady witness_Plough_2_s (plough3 1 1) 3 0 = true) ∧
    (oldVersions witness_Plough_2_s (witness_Plough_2_s.region 3) 3 0 = some [5]) ∧
    (∀ (y : MemRead),
      y ∈ witness_Plough_2_s.mem.reads → y.seq ≠ witness_Plough_2_s.mem.seqCtr ∧ (y.region = 3 → y.purpose ≠ Purpose.plough ∧ y.purpose.isChild = false)) :=
  ⟨by decide +kernel, by decide +kernel, by decide +kernel, by decide +kernel, by decide +kernel, by decide +kernel, by decide +kernel, by decide +kernel⟩
def witness_Plough_2_alt2_s : Machine.State := ploughed 2 (plough3 2 1)
theorem witness_Plough_2_alt2 :
    (ploughOf witness_Plough_2_alt2_s 3 = some (plough3 2 1)) ∧
    ((witness_Plough_2_alt2_s.region 3).mode ≤ 2) ∧
    (ploughWorks witness_Plough_2_alt2_s (plough3 2 1) 31 = true) ∧
    (mayMove witness_Plough_2_alt2_s (plough3 2 1) (witness_Plough_2_alt2_s.region 3) 3 31 = true) ∧
    (isFallow witness_Plough_2_alt2_s ((witness_Plough_2_alt2_s.region 3).firstLn + 31) = false) ∧
    ((witness_Plough_2_alt2_s.region 3).mode = 0 → countersReady witness_Plough_2_alt2_s (plough3 2 1) 3 31 = true) ∧
    (oldVersions witness_Plough_2_alt2_s (witness_Plough_2_alt2_s.region 3) 3 31 = some [5]) ∧
    (∀ (y : MemRead),
      y ∈ witness_Plough_2_alt2_s.mem.reads →
        y.seq ≠ witness_Plough_2_alt2_s.mem.seqCtr ∧ (y.region = 3 → y.purpose ≠ Purpose.plough ∧ y.purpose.isChild = false)) :=
  ⟨by decide +kernel, by decide +kernel, by decide +kernel, by decide +kernel, by decide +kernel, by decide +kernel, by decide +kernel, by decide +kernel⟩
/-- Cached counter lines of region 3. -/
def counter3 (l : Nat) : CLine := { region := 3, level := l, idx := 0, engine := 0, slice := 1, major := 2, minors := (Tbl.const 0).set 0 4, dirty := false, newer := false, use := 0 }
/-- The same in a tree region, with the counter lines over the line cached. -/
def ploughedTree : State := let s := ploughed 0 (plough3 0 1); { s with mem := { s.mem with cache := [counter3 3, counter3 2, counter3 1] } }
theorem witness_Plough_2_alt3 :
    (ploughOf ploughedTree 3 = some (plough3 0 1)) ∧
    ((ploughedTree.region 3).mode ≤ 2) ∧
    (ploughWorks ploughedTree (plough3 0 1) 0 = true) ∧
    (mayMove ploughedTree (plough3 0 1) (ploughedTree.region 3) 3 0 = true) ∧
    (isFallow ploughedTree ((ploughedTree.region 3).firstLn + 0) = false) ∧
    ((ploughedTree.region 3).mode = 0 → countersReady ploughedTree (plough3 0 1) 3 0 = true) ∧
    (oldVersions ploughedTree (ploughedTree.region 3) 3 0 = some [260]) ∧
    (∀ (y : MemRead),
      y ∈ ploughedTree.mem.reads → y.seq ≠ ploughedTree.mem.seqCtr ∧ (y.region = 3 → y.purpose ≠ Purpose.plough ∧ y.purpose.isChild = false)) :=
  ⟨by decide +kernel, by decide +kernel, by decide +kernel, by decide +kernel, by decide +kernel, by decide +kernel, by decide +kernel, by decide +kernel⟩
/-- The plough holds line 0 and its read is asked of the stack. -/
def holding : Plough := { plough3 1 1 with locked := [0] }
def ploughRead : MemRead := { seq := 1, engine := 0, ln := 0, region := 3, level := 0, idx := 0, purpose := .plough, req := 0x11, who := 1, stage := .asked, cands := some [5] }
def ploughAsked : State := let s := ploughed 1 holding; { s with mem := { s.mem with reads := [ploughRead] } }
theorem witness_Plough_3 :
    (ploughOf ploughAsked 3 = some holding) ∧
    ((ploughAsked.region 3).mode ≤ 2) ∧
    (ploughAsked.mem.reads = [ploughRead]) ∧
    (ploughRead.purpose = Purpose.plough) ∧
    (ploughRead.region = 3) ∧
    (ploughRead.idx = 0) ∧
    (ploughRead.level = 0) ∧
    (ploughRead.ln = (ploughAsked.region 3).firstLn + 0) ∧
    (ploughRead.stage = Stage.asked) ∧
    (ploughRead.newer = false) ∧
    (ploughRead.cands = some [5]) ∧
    (suspectPc ploughAsked ploughRead.engine (word3 ploughAsked).pc.toNat = false) ∧
    ((word3 ploughAsked).word.status.toNat < 2) ∧
    (checkTag ploughAsked 3 false ((ploughAsked.region 3).firstLn + 0) (ploughAsked.region 3).mode [5] (word3 ploughAsked).word.cipher
        (word3 ploughAsked).word.tag =
      some 5) :=
  ⟨by decide +kernel, by decide +kernel, by decide +kernel, by decide +kernel, by decide +kernel, by decide +kernel, by decide +kernel, by decide +kernel, by decide +kernel, by decide +kernel, by decide +kernel, by decide +kernel, by decide +kernel, (checkTag_one ploughAsked 3 false 0 1 5 zeroLine)⟩
def witness_Plough_4_p : Plough := { plough3 1 1 with lf := 32 }
theorem witness_Plough_4 :
    (ploughOf
        (ploughed 1
          (let __src := plough3 1 1;
          { region := __src.region, state := __src.state, lf := 32, base := __src.base, epoch := __src.epoch, set := __src.set, keys := __src.keys,
            ctx := __src.ctx, locked := __src.locked, moved := __src.moved, old := __src.old, oldCrown := __src.oldCrown, cause := __src.cause,
            told := __src.told : Plough }))
        3 =
      some witness_Plough_4_p) ∧
    (((ploughed 1
              (let __src := plough3 1 1;
              { region := __src.region, state := __src.state, lf := 32, base := __src.base, epoch := __src.epoch, set := __src.set, keys := __src.keys,
                ctx := __src.ctx, locked := __src.locked, moved := __src.moved, old := __src.old, oldCrown := __src.oldCrown, cause := __src.cause,
                told := __src.told : Plough })).region
          3).state =
      2) ∧
    (witness_Plough_4_p.state = 1) ∧
    (witness_Plough_4_p.lf =
      ((ploughed 1
              (let __src := plough3 1 1;
              { region := __src.region, state := __src.state, lf := 32, base := __src.base, epoch := __src.epoch, set := __src.set, keys := __src.keys,
                ctx := __src.ctx, locked := __src.locked, moved := __src.moved, old := __src.old, oldCrown := __src.oldCrown, cause := __src.cause,
                told := __src.told : Plough })).region
          3).lines) ∧
    (witness_Plough_4_p.locked = []) ∧
    (witness_Plough_4_p.moved = []) ∧
    ((ploughed 1
            (let __src := plough3 1 1;
            { region := __src.region, state := __src.state, lf := 32, base := __src.base, epoch := __src.epoch, set := __src.set, keys := __src.keys,
              ctx := __src.ctx, locked := __src.locked, moved := __src.moved, old := __src.old, oldCrown := __src.oldCrown, cause := __src.cause,
              told := __src.told : Plough })).kst.dflt =
      { key := 0#256, attr := 0#64, binding := 281470681743360#64, wrapId := 0#128 : Slot }) ∧
    (∀ (y : MemRead),
      y ∈
          (ploughed 1
                (let __src := plough3 1 1;
                { region := __src.region, state := __src.state, lf := 32, base := __src.base, epoch := __src.epoch, set := __src.set, keys := __src.keys,
                  ctx := __src.ctx, locked := __src.locked, moved := __src.moved, old := __src.old, oldCrown := __src.oldCrown, cause := __src.cause,
                  told := __src.told : Plough })).mem.reads →
        y.region ≠ 3) :=
  ⟨by decide +kernel, by decide +kernel, by decide +kernel, by decide +kernel, by decide +kernel, by decide +kernel, by decide +kernel, by decide +kernel⟩
def witness_Plough_4_alt2_p : Plough := { plough3 2 1 with lf := 32 }
theorem witness_Plough_4_alt2 :
    (ploughOf
        (ploughed 2
          (let __src := plough3 2 1;
          { region := __src.region, state := __src.state, lf := 32, base := __src.base, epoch := __src.epoch, set := __src.set, keys := __src.keys,
            ctx := __src.ctx, locked := __src.locked, moved := __src.moved, old := __src.old, oldCrown := __src.oldCrown, cause := __src.cause,
            told := __src.told : Plough }))
        3 =
      some witness_Plough_4_alt2_p) ∧
    (((ploughed 2
              (let __src := plough3 2 1;
              { region := __src.region, state := __src.state, lf := 32, base := __src.base, epoch := __src.epoch, set := __src.set, keys := __src.keys,
                ctx := __src.ctx, locked := __src.locked, moved := __src.moved, old := __src.old, oldCrown := __src.oldCrown, cause := __src.cause,
                told := __src.told : Plough })).region
          3).state =
      2) ∧
    (witness_Plough_4_alt2_p.state = 1) ∧
    (witness_Plough_4_alt2_p.lf =
      ((ploughed 2
              (let __src := plough3 2 1;
              { region := __src.region, state := __src.state, lf := 32, base := __src.base, epoch := __src.epoch, set := __src.set, keys := __src.keys,
                ctx := __src.ctx, locked := __src.locked, moved := __src.moved, old := __src.old, oldCrown := __src.oldCrown, cause := __src.cause,
                told := __src.told : Plough })).region
          3).lines) ∧
    (witness_Plough_4_alt2_p.locked = []) ∧
    (witness_Plough_4_alt2_p.moved = []) ∧
    ((ploughed 2
            (let __src := plough3 2 1;
            { region := __src.region, state := __src.state, lf := 32, base := __src.base, epoch := __src.epoch, set := __src.set, keys := __src.keys,
              ctx := __src.ctx, locked := __src.locked, moved := __src.moved, old := __src.old, oldCrown := __src.oldCrown, cause := __src.cause,
              told := __src.told : Plough })).kst.dflt =
      { key := 0#256, attr := 0#64, binding := 281470681743360#64, wrapId := 0#128 : Slot }) ∧
    (∀ (y : MemRead),
      y ∈
          (ploughed 2
                (let __src := plough3 2 1;
                { region := __src.region, state := __src.state, lf := 32, base := __src.base, epoch := __src.epoch, set := __src.set, keys := __src.keys,
                  ctx := __src.ctx, locked := __src.locked, moved := __src.moved, old := __src.old, oldCrown := __src.oldCrown, cause := __src.cause,
                  told := __src.told : Plough })).mem.reads →
        y.region ≠ 3) :=
  ⟨by decide +kernel, by decide +kernel, by decide +kernel, by decide +kernel, by decide +kernel, by decide +kernel, by decide +kernel, by decide +kernel⟩
def witness_Plough_5_s : Machine.State := ploughed 1 (plough3 1 1)
theorem witness_Plough_5 :
    (ploughOf witness_Plough_5_s 3 = some (plough3 1 1)) ∧
    ((plough3 1 1).state = 1) ∧
    (1 ∈ [1, 2, 3]) :=
  ⟨by decide +kernel, by decide +kernel, by decide +kernel⟩
theorem witness_Plough_5_alt2 :
    (ploughOf (ploughed 1 holding) 3 = some holding) ∧
    (holding.state = 1) ∧
    (3 ∈ [1, 2, 3]) :=
  ⟨by decide +kernel, by decide +kernel, by decide +kernel⟩
def witness_Plough_6_s : Machine.State := (let s := memBase 1; { s with mem := { s.mem with ageLimit := s.mem.ageLimit.set 1 1 } })
theorem witness_Plough_6 :
    ((witness_Plough_6_s.region 3).valid = true) ∧
    ((witness_Plough_6_s.region 3).mode ≠ 3) ∧
    (witness_Plough_6_s.mem.ageLimit.get (witness_Plough_6_s.region 3).slice ≠ 0) ∧
    ((witness_Plough_6_s.region 3).state = 1 ∨ (witness_Plough_6_s.region 3).state = 2) :=
  ⟨by decide +kernel, by decide +kernel, by decide +kernel, by decide +kernel⟩

/-! ### Calibration and shares -/

/-- Open announcements on stack 11. -/
def announced (n : Nat) : State := { base with mem := { base.mem with cal := base.mem.cal.set 11 { anns := List.replicate n { seq := 1, kind := 0, mask := 1 } } } }
theorem witness_CalibrationAndShare_0 :
    (11 < 12) ∧
    (0#8 ≠ 2#8 ∨ (List.range 12).any (missionMode (announced 3)) = true) ∧
    (((announced 3).mem.cal.get 11).anns.length < 4) :=
  ⟨by decide +kernel, by decide +kernel, by decide +kernel⟩
theorem witness_CalibrationAndShare_0_alt2 :
    (11 < 12) ∧
    (2#8 ≠ 2#8 ∨ (List.range 12).any (missionMode (memBase 1)) = true) ∧
    (((memBase 1).mem.cal.get 11).anns.length < 4) :=
  ⟨by decide +kernel, by decide +kernel, by decide +kernel⟩
theorem witness_CalibrationAndShare_1_0 :
    (11 < 12) ∧
    (2#8 = 2#8) ∧
    ((List.range 12).any (missionMode base) = false) :=
  ⟨by decide +kernel, by decide +kernel, by decide +kernel⟩
theorem witness_CalibrationAndShare_1_1 :
    (11 < 12) ∧
    (0#8 ≠ 2#8 ∨ (List.range 12).any (missionMode (announced 4)) = true) ∧
    (4 ≤ ((announced 4).mem.cal.get 11).anns.length) :=
  ⟨by decide +kernel, by decide +kernel, by decide +kernel⟩
theorem witness_CalibrationAndShare_3 :
    ((((announced 1).mem.cal.get 11).anns.any fun a => a.seq == 1) = true) :=
  by decide +kernel
theorem witness_CalibrationAndShare_4 :
    (11 < 12) ∧
    (1 ≤ 1) ∧
    (1 ≤ 5000) :=
  ⟨by decide +kernel, by decide +kernel, by decide +kernel⟩
theorem witness_CalibrationAndShare_4_alt2 :
    (11 < 12) ∧
    (1 ≤ 5000) ∧
    (5000 ≤ 5000) :=
  ⟨by decide +kernel, by decide +kernel, by decide +kernel⟩
theorem witness_CalibrationAndShare_5 :
    (11 < 12) ∧
    (0 = 0 ∨ 5000 < 0) :=
  ⟨by decide +kernel, by decide +kernel⟩
theorem witness_CalibrationAndShare_5_alt2 :
    (11 < 12) ∧
    (5001 = 0 ∨ 5000 < 5001) :=
  ⟨by decide +kernel, by decide +kernel⟩
/-- A sweep asked for on stack 11. -/
def sweep0 : SweepReq := { stack := 11, duration := 5, mask := 1, at_ := 0 }
def sweepAsked : State := { base with mem := { base.mem with sweeps := [sweep0] } }
/-- A sweep is granted on stack 11. -/
def sweeping (s : State) : State := { s with mem := { s.mem with cal := s.mem.cal.set 11 { granted := some 5 } } }
theorem witness_CalibrationAndShare_6 :
    (List.find? (fun q => noSweep sweepAsked q && spaced sweepAsked q) sweepAsked.mem.sweeps = some sweep0) ∧
    (sweep0.stack = 11) :=
  ⟨by decide +kernel, by decide +kernel⟩
theorem witness_CalibrationAndShare_7 :
    (List.find? (fun q => q.stack == 11) (sweeping sweepAsked).mem.sweeps = some sweep0) ∧
    ((noSweep (sweeping sweepAsked) sweep0 && spaced (sweeping sweepAsked) sweep0) = false) :=
  ⟨by decide +kernel, by decide +kernel⟩
theorem witness_CalibrationAndShare_8 :
    (((sweeping base).mem.cal.get 11).granted.isSome = true) :=
  by decide +kernel
theorem witness_CalibrationAndShare_9 :
    (((sweeping base).mem.cal.get 11).granted.isSome = true) :=
  by decide +kernel
theorem witness_CalibrationAndShare_10 :
    (11 < 12) :=
  by decide +kernel
theorem witness_CalibrationAndShare_11 :
    (40 ≤ 40) :=
  by decide +kernel
/-- A line of slice 1 waits at engine 0, the plough's or not. -/
def waitLine (plough : Bool) : WaitLine := { who := 1, plough, region := 3, ln := 0, op := .write zeroLine 0 }
def lineAt0 (plough : Bool) : State := let s := memBase 1; { s with
  mem := { s.mem with lines := s.mem.lines.set 0 [waitLine plough] }
  srg := { s.srg with wheels := s.srg.wheels.set 0 { pos := 1023, held := List.replicate 16 0 |>.set 1 1024, shares := List.replicate 16 0 |>.set 1 256 } } }
theorem witness_CalibrationAndShare_12_0 :
    (populated base 12 = false) :=
  by decide +kernel
theorem witness_CalibrationAndShare_12_1 :
    (populated (memBase 1) 0 = true) ∧
    (slotLine (memBase 1)
        (if ((memBase 1).srg.wheels.get 0).pos = 0 then newRevolution (memBase 1) 0 ((memBase 1).srg.wheels.get 0) else (memBase 1).srg.wheels.get 0)
        (freeLines [] ((memBase 1).mem.lines.get 0)) =
      none) :=
  ⟨by decide +kernel, by decide +kernel⟩
theorem witness_CalibrationAndShare_12_2 :
    (populated (lineAt0 false) 0 = true) ∧
    (slotLine (lineAt0 false)
        (if ((lineAt0 false).srg.wheels.get 0).pos = 0 then newRevolution (lineAt0 false) 0 ((lineAt0 false).srg.wheels.get 0)
        else (lineAt0 false).srg.wheels.get 0)
        (freeLines [] ((lineAt0 false).mem.lines.get 0)) =
      some (waitLine false, false)) :=
  ⟨by decide +kernel, by decide +kernel⟩
theorem witness_CalibrationAndShare_12_3 :
    (slotHolder
        (if ((lineAt0 false).srg.wheels.get 0).pos = 0 then newRevolution (lineAt0 false) 0 ((lineAt0 false).srg.wheels.get 0)
          else (lineAt0 false).srg.wheels.get 0).held
        (if ((lineAt0 false).srg.wheels.get 0).pos = 0 then newRevolution (lineAt0 false) 0 ((lineAt0 false).srg.wheels.get 0)
          else (lineAt0 false).srg.wheels.get 0).pos =
      some 1) ∧
    (List.find? (fun l => l.who == 1 && !l.plough) (freeLines [] ((lineAt0 false).mem.lines.get 0)) = some (waitLine false)) :=
  ⟨by decide +kernel, by decide +kernel⟩
/-- The KWE has run for slice 1 alone, and the host waits for it. -/
def hogged : State := { base with srg := { base.srg with shared := (base.srg.shared.set 1 { recent := [(1, base.now, 1000)] }) } }
theorem witness_CalibrationAndShare_13 :
    (1 ≤ 16) ∧
    (bestContender (chargeEngine 1 1 50 hogged) 1 (windowTime (chargeEngine 1 1 50 hogged) 1)
        (List.filter (fun c => bit 65536 c && c != 1) (List.range 17)) =
      some 16) ∧
    (lowerRatio (windowTime (chargeEngine 1 1 50 hogged) 1 16) (shareOf hogged 1 16) (windowTime (chargeEngine 1 1 50 hogged) 1 1) (shareOf hogged 1 1) =
      true) ∧
    (1#2 ≠ 0#2 ∨ hogged.srg.store.length < 4) :=
  ⟨by decide +kernel, by decide +kernel, by decide +kernel, by decide +kernel⟩

/-! ### Memory events -/

/-- Region 4 of slice 1 in a mode, from line 32768, and its line 3. -/
def reg4 (m : Nat) : Region := {
  valid := true, state := 1, mode := m, slice := 1, base := 1024, pages := 64, metaBase := 2048, mirrorBase := 4096, stepOrSeq := 5, window := true, tgc := true }
def mem4 (m : Nat) : State := let s := twelveStacks base; { s with mem := { s.mem with regions := s.mem.regions.set 4 (reg4 m) } }
def line4 : Nat := 32771
def pa4 : BitVec 47 := BitVec.ofNat 47 (line4 * 128)
def engine4 : Nat := stackOf (mem4 1) line4
/-- The counter lines over it. -/
def counter4 (l major minor at_ : Nat) : CLine := {
  region := 4, level := l, idx := 0, engine := stackOf (mem4 0) (counterLn ((mem4 0).region 4) l 0), slice := 1, major, minors := (Tbl.const 0).set at_ minor
  dirty := false, newer := false, use := 1 }
def cached4 (l : List CLine) : State := let s := mem4 0; { s with mem := { s.mem with cache := l } }
def counters4 : List CLine := [counter4 1 7 9 3, counter4 2 3 8 0, counter4 3 2 5 0]
def witness_Memory_0_data : Line := [1, 2]
theorem witness_Memory_0 :
    (actor 1 0 < 18) ∧
    (regionAt (mem4 1) (pa4.toNat / 128) = some 4) ∧
    (mayAccess (mem4 1) ((mem4 1).region 4) (actor 1 0) true = true) ∧
    (((mem4 1).region 4).grants = 0) ∧
    (((mem4 1).region 4).state = 1 ∨ ((mem4 1).region 4).state = 2) ∧
    (isFallow (mem4 1) (pa4.toNat / 128) = false) ∧
    (writeNumber ((mem4 1).region 4) (pa4.toNat / 128 - ((mem4 1).region 4).firstLn) false = Except.ok (some 6)) ∧
    (writeAnswer (mem4 1) 4 (pa4.toNat / 128 - ((mem4 1).region 4).firstLn) (some 6) = VersionAnswer.version 6) ∧
    (lineLocked (mem4 1) 4 (pa4.toNat / 128 - ((mem4 1).region 4).firstLn) = false) ∧
    (∀ (w : MemWrite), w ∈ (mem4 1).mem.writes → w.ln ≠ pa4.toNat / 128) ∧
    (∀ (y : MemRead), y ∈ (mem4 1).mem.reads → y.ln ≠ pa4.toNat / 128) :=
  ⟨by decide +kernel, by decide +kernel, by decide +kernel, by decide +kernel, by decide +kernel, by decide +kernel, (rfl), by decide +kernel, by decide +kernel, by decide +kernel, by decide +kernel⟩
def witness_Memory_0_alt2_data : Line := [1, 2]
theorem witness_Memory_0_alt2 :
    (actor 1 0 < 18) ∧
    (regionAt (cached4 counters4) (pa4.toNat / 128) = some 4) ∧
    (mayAccess (cached4 counters4) ((cached4 counters4).region 4) (actor 1 0) true = true) ∧
    (((cached4 counters4).region 4).grants = 0) ∧
    (((cached4 counters4).region 4).state = 1 ∨ ((cached4 counters4).region 4).state = 2) ∧
    (isFallow (cached4 counters4) (pa4.toNat / 128) = false) ∧
    (writeNumber ((cached4 counters4).region 4) (pa4.toNat / 128 - ((cached4 counters4).region 4).firstLn) false = Except.ok none) ∧
    (writeAnswer (cached4 counters4) 4 (pa4.toNat / 128 - ((cached4 counters4).region 4).firstLn) none = VersionAnswer.version 906) ∧
    (lineLocked (cached4 counters4) 4 (pa4.toNat / 128 - ((cached4 counters4).region 4).firstLn) = false) ∧
    (∀ (w : MemWrite), w ∈ (cached4 counters4).mem.writes → w.ln ≠ pa4.toNat / 128) ∧
    (∀ (y : MemRead), y ∈ (cached4 counters4).mem.reads → y.ln ≠ pa4.toNat / 128) :=
  ⟨by decide +kernel, by decide +kernel, by decide +kernel, by decide +kernel, by decide +kernel, by decide +kernel, (rfl), by decide +kernel, by decide +kernel, by decide +kernel, by decide +kernel⟩
def witness_Memory_1_data : Line := [1, 2]
theorem witness_Memory_1 :
    (actor 16 0 < 18) ∧
    (regionAt (mem4 3) (pa4.toNat / 128) = some 4) ∧
    (mayAccess (mem4 3) ((mem4 3).region 4) (actor 16 0) true = true) ∧
    (((mem4 3).region 4).grants = 0) ∧
    (((mem4 3).region 4).state = 1 ∨ ((mem4 3).region 4).state = 2) ∧
    (isFallow (mem4 3) (pa4.toNat / 128) = false) ∧
    (((mem4 3).region 4).mode = 3) ∧
    (lineLocked (mem4 3) 4 (pa4.toNat / 128 - ((mem4 3).region 4).firstLn) = false) ∧
    (∀ (w : MemWrite), w ∈ (mem4 3).mem.writes → w.ln ≠ pa4.toNat / 128) ∧
    (∀ (y : MemRead), y ∈ (mem4 3).mem.reads → y.ln ≠ pa4.toNat / 128) :=
  ⟨by decide +kernel, by decide +kernel, by decide +kernel, by decide +kernel, by decide +kernel, by decide +kernel, by decide +kernel, by decide +kernel, by decide +kernel, by decide +kernel⟩
def witness_Memory_2_raw : Option (List Nat) := some [6, 5]
theorem witness_Memory_2 :
    (actor 1 0 < 18) ∧
    (regionAt (mem4 1) (pa4.toNat / 128) = some 4) ∧
    (mayAccess (mem4 1) ((mem4 1).region 4) (actor 1 0) false = true) ∧
    (((mem4 1).region 4).state = 1 ∨ ((mem4 1).region 4).state = 2) ∧
    (readNumbers ((mem4 1).region 4) (pa4.toNat / 128 - ((mem4 1).region 4).firstLn) = Except.ok witness_Memory_2_raw) ∧
    (((mem4 1).region 4).mode = 3 ∨ isFallow (mem4 1) (pa4.toNat / 128) = false) ∧
    ((candidates (mem4 1)
          { seq := (mem4 1).mem.seqCtr, engine := (BitVec.ofNat 4 engine4).toNat, ln := pa4.toNat / 128, region := 4, level := 0,
            idx := pa4.toNat / 128 - ((mem4 1).region 4).firstLn, purpose := Purpose.mission, req := 1, who := actor 1 0,
            newer := newSide (mem4 1) 4 (pa4.toNat / 128 - ((mem4 1).region 4).firstLn), raw := witness_Memory_2_raw : MemRead }).isSome =
      true) ∧
    (lineLocked (mem4 1) 4 (pa4.toNat / 128 - ((mem4 1).region 4).firstLn) = false) ∧
    (∀ (w : MemWrite), w ∈ (mem4 1).mem.writes → w.ln ≠ pa4.toNat / 128) ∧
    (∀ (y : MemRead), y ∈ (mem4 1).mem.reads → y.region ≠ 4 ∧ y.seq ≠ (mem4 1).mem.seqCtr) :=
  ⟨by decide +kernel, by decide +kernel, by decide +kernel, by decide +kernel, (rfl), by decide +kernel, by decide +kernel, by decide +kernel, by decide +kernel, by decide +kernel⟩
theorem witness_Memory_2_alt2 :
    (actor 1 0 < 18) ∧
    (regionAt (cached4 counters4) (pa4.toNat / 128) = some 4) ∧
    (mayAccess (cached4 counters4) ((cached4 counters4).region 4) (actor 1 0) false = true) ∧
    (((cached4 counters4).region 4).state = 1 ∨ ((cached4 counters4).region 4).state = 2) ∧
    (readNumbers ((cached4 counters4).region 4) (pa4.toNat / 128 - ((cached4 counters4).region 4).firstLn) = Except.ok none) ∧
    (((cached4 counters4).region 4).mode = 3 ∨ isFallow (cached4 counters4) (pa4.toNat / 128) = false) ∧
    ((candidates (cached4 counters4)
          { seq := (cached4 counters4).mem.seqCtr, engine := (BitVec.ofNat 4 engine4).toNat, ln := pa4.toNat / 128, region := 4, level := 0,
            idx := pa4.toNat / 128 - ((cached4 counters4).region 4).firstLn, purpose := Purpose.mission, req := 1, who := actor 1 0,
            newer := newSide (cached4 counters4) 4 (pa4.toNat / 128 - ((cached4 counters4).region 4).firstLn) : MemRead }).isSome =
      true) ∧
    (lineLocked (cached4 counters4) 4 (pa4.toNat / 128 - ((cached4 counters4).region 4).firstLn) = false) ∧
    (∀ (w : MemWrite), w ∈ (cached4 counters4).mem.writes → w.ln ≠ pa4.toNat / 128) ∧
    (∀ (y : MemRead), y ∈ (cached4 counters4).mem.reads → y.region ≠ 4 ∧ y.seq ≠ (cached4 counters4).mem.seqCtr) :=
  ⟨by decide +kernel, by decide +kernel, by decide +kernel, by decide +kernel, (rfl), by decide +kernel, by decide +kernel, by decide +kernel, by decide +kernel, by decide +kernel⟩
theorem witness_Memory_2_alt3 :
    (actor 16 0 < 18) ∧
    (regionAt (mem4 3) (pa4.toNat / 128) = some 4) ∧
    (mayAccess (mem4 3) ((mem4 3).region 4) (actor 16 0) false = true) ∧
    (((mem4 3).region 4).state = 1 ∨ ((mem4 3).region 4).state = 2) ∧
    (readNumbers ((mem4 3).region 4) (pa4.toNat / 128 - ((mem4 3).region 4).firstLn) = Except.ok none) ∧
    (((mem4 3).region 4).mode = 3 ∨ isFallow (mem4 3) (pa4.toNat / 128) = false) ∧
    ((candidates (mem4 3)
          { seq := (mem4 3).mem.seqCtr, engine := (BitVec.ofNat 4 engine4).toNat, ln := pa4.toNat / 128, region := 4, level := 0,
            idx := pa4.toNat / 128 - ((mem4 3).region 4).firstLn, purpose := Purpose.mission, req := 16, who := actor 16 0,
            newer := newSide (mem4 3) 4 (pa4.toNat / 128 - ((mem4 3).region 4).firstLn) : MemRead }).isSome =
      true) ∧
    (lineLocked (mem4 3) 4 (pa4.toNat / 128 - ((mem4 3).region 4).firstLn) = false) ∧
    (∀ (w : MemWrite), w ∈ (mem4 3).mem.writes → w.ln ≠ pa4.toNat / 128) ∧
    (∀ (y : MemRead), y ∈ (mem4 3).mem.reads → y.region ≠ 4 ∧ y.seq ≠ (mem4 3).mem.seqCtr) :=
  ⟨by decide +kernel, by decide +kernel, by decide +kernel, by decide +kernel, (rfl), by decide +kernel, by decide +kernel, by decide +kernel, by decide +kernel, by decide +kernel⟩
/-- A read of the line, asked of the stack. -/
def read4 (m : Nat) (purpose : Purpose) (cands : List Nat) : MemRead := {
  seq := 1, engine := engine4, ln := line4, region := 4, level := 0, idx := 3, purpose, req := 1, who := 1, stage := .asked, raw := if m = 1 then some [6, 5] else none
  cands := some cands }
def asked4 (m : Nat) (x : MemRead) : State := let s := mem4 m; { s with mem := { s.mem with reads := [x], seqCtr := 2 } }
/-- The word that verifies under version 5. -/
def word4 : RdWord := { status := 0, cipher := zeroLine, tag := lt56 (engKey (asked4 1 (read4 1 .mission [5])) 3 (keySet (asked4 1 (read4 1 .mission [5])) 4 false)) zeroLine line4 1 5 (sideEpoch (asked4 1 (read4 1 .mission [5])) 4 false) }
def witness_Memory_3_x : MemRead := read4 1 .mission [5]
def witness_Memory_3_d : Line := reveal (asked4 1 (read4 1 .mission [5])) 4 false line4 1 5 zeroLine
def witness_Memory_3_s : Machine.State := asked4 1 (read4 1 .mission [5])
theorem witness_Memory_3 :
    ((askedRead witness_Memory_3_s fun x => x.engine == (BitVec.ofNat 4 engine4).toNat && x.ln == (BitVec.ofNat 40 line4).toNat && x.purpose.outside) =
      some witness_Memory_3_x) ∧
    (witness_Memory_3_x.level = 0) ∧
    (witness_Memory_3_x.cands = some [5]) ∧
    (witness_Memory_3_x.retried = false) ∧
    (∀ (y : MemRead), y ∈ witness_Memory_3_s.mem.reads → y = witness_Memory_3_x ∨ y.region ≠ witness_Memory_3_x.region ∧ y.seq ≠ witness_Memory_3_x.seq) ∧
    (suspectPc witness_Memory_3_s (BitVec.ofNat 4 engine4).toNat 63 = false) ∧
    (word4.status.toNat < 2) ∧
    (if (witness_Memory_3_s.region witness_Memory_3_x.region).mode = 3 then witness_Memory_3_d = fit 128 word4.cipher
    else
      isFallow witness_Memory_3_s witness_Memory_3_x.ln = false ∧
        ∃ v,
          checkTag witness_Memory_3_s witness_Memory_3_x.region witness_Memory_3_x.newer witness_Memory_3_x.ln
                (witness_Memory_3_s.region witness_Memory_3_x.region).mode [5] word4.cipher word4.tag =
              some v ∧
            witness_Memory_3_d =
              reveal witness_Memory_3_s witness_Memory_3_x.region witness_Memory_3_x.newer witness_Memory_3_x.ln
                (witness_Memory_3_s.region witness_Memory_3_x.region).mode v word4.cipher) :=
  ⟨by decide +kernel, by decide +kernel, by decide +kernel, by decide +kernel, (by intro y h; exact Or.inl (List.mem_singleton.mp h)), by decide +kernel, by decide +kernel, (by rw [if_neg (by decide +kernel)]; exact ⟨by decide +kernel, 5, checkTag_one (asked4 1 (read4 1 .mission [5])) 4 false line4 1 5 zeroLine, rfl⟩)⟩
def witness_Memory_3_alt2_x : MemRead := read4 3 (.block key0 0) []
def witness_Memory_3_alt2_s : Machine.State := asked4 3 (read4 3 (.block key0 0) [])
theorem witness_Memory_3_alt2 :
    ((askedRead witness_Memory_3_alt2_s fun x =>
        x.engine == (BitVec.ofNat 4 engine4).toNat && x.ln == (BitVec.ofNat 40 line4).toNat && x.purpose.outside) =
      some witness_Memory_3_alt2_x) ∧
    (witness_Memory_3_alt2_x.level = 0) ∧
    (witness_Memory_3_alt2_x.cands = some []) ∧
    (witness_Memory_3_alt2_x.retried = false) ∧
    (∀ (y : MemRead),
      y ∈ witness_Memory_3_alt2_s.mem.reads →
        y = witness_Memory_3_alt2_x ∨ y.region ≠ witness_Memory_3_alt2_x.region ∧ y.seq ≠ witness_Memory_3_alt2_x.seq) ∧
    (suspectPc witness_Memory_3_alt2_s (BitVec.ofNat 4 engine4).toNat 0 = false) ∧
    (word3p.word.status.toNat < 2) ∧
    (if (witness_Memory_3_alt2_s.region witness_Memory_3_alt2_x.region).mode = 3 then Tests.zeroLine = fit 128 word3p.word.cipher
    else
      isFallow witness_Memory_3_alt2_s witness_Memory_3_alt2_x.ln = false ∧
        ∃ v,
          checkTag witness_Memory_3_alt2_s witness_Memory_3_alt2_x.region witness_Memory_3_alt2_x.newer witness_Memory_3_alt2_x.ln
                (witness_Memory_3_alt2_s.region witness_Memory_3_alt2_x.region).mode [] word3p.word.cipher word3p.word.tag =
              some v ∧
            Tests.zeroLine =
              reveal witness_Memory_3_alt2_s witness_Memory_3_alt2_x.region witness_Memory_3_alt2_x.newer witness_Memory_3_alt2_x.ln
                (witness_Memory_3_alt2_s.region witness_Memory_3_alt2_x.region).mode v word3p.word.cipher) :=
  ⟨by decide +kernel, by decide +kernel, by decide +kernel, by decide +kernel, (by intro y h; exact Or.inl (List.mem_singleton.mp h)), by decide +kernel, by decide +kernel, (by rw [if_pos (by decide +kernel)]; decide +kernel)⟩
def witness_Memory_4_x : MemRead := read4 1 .mission [5]
def witness_Memory_4_s : Machine.State := asked4 1 (read4 1 .mission [5])
theorem witness_Memory_4 :
    ((askedRead witness_Memory_4_s fun x => x.engine == (BitVec.ofNat 4 engine4).toNat && x.ln == (BitVec.ofNat 40 line4).toNat && x.purpose.outside) =
      some witness_Memory_4_x) ∧
    (witness_Memory_4_x.level = 0) ∧
    (witness_Memory_4_x.cands = some [5]) ∧
    (witness_Memory_4_x.retried = false) ∧
    (∀ (y : MemRead), y ∈ witness_Memory_4_s.mem.reads → y = witness_Memory_4_x ∨ y.region ≠ witness_Memory_4_x.region ∧ y.seq ≠ witness_Memory_4_x.seq) ∧
    (suspectPc witness_Memory_4_s (BitVec.ofNat 4 engine4).toNat 0 = false) ∧
    (word3p.word.status.toNat < 2) ∧
    ((witness_Memory_4_s.region witness_Memory_4_x.region).mode ≠ 3) ∧
    (isFallow witness_Memory_4_s witness_Memory_4_x.ln = false) ∧
    (witness_Memory_4_x.purpose = Purpose.mission) :=
  ⟨by decide +kernel, by decide +kernel, by decide +kernel, by decide +kernel, (by intro y h; exact Or.inl (List.mem_singleton.mp h)), by decide +kernel, by decide +kernel, by decide +kernel, by decide +kernel, by decide +kernel⟩
/-- A write that waits for its version. -/
def write4 : MemWrite := { seq := 1, engine := engine4, ln := line4, req := 1, who := 1, region := 4, off := 3, data := zeroLine, raw := some 6, imported := false, sheaf := none }
def witness_Memory_5_s : Machine.State := (let s := mem4 1; { s with mem := { s.mem with writes := [write4], seqCtr := 2 } })
theorem witness_Memory_5 :
    (List.find? (fun w => w.engine == (BitVec.ofNat 4 engine4).toNat && w.ln == (BitVec.ofNat 40 line4).toNat) witness_Memory_5_s.mem.writes = some write4) ∧
    (writeAnswer witness_Memory_5_s write4.region write4.off write4.raw = VersionAnswer.version 6) ∧
    (lineBusy witness_Memory_5_s write4.region write4.off write4.ln write4.seq = false) ∧
    (∀ (y : MemRead), y ∈ witness_Memory_5_s.mem.reads → y.region ≠ write4.region ∧ y.ln ≠ write4.ln) :=
  ⟨by decide +kernel, by decide +kernel, by decide +kernel, by decide +kernel⟩
theorem witness_Memory_6_0 :
    (cached (cached4 counters4) 4 1 0 = some (counter4 1 7 9 3)) ∧
    (pinned (cached4 counters4) (counter4 1 7 9 3) = false) ∧
    ((counter4 1 7 9 3).dirty = false) :=
  ⟨by decide +kernel, by decide +kernel, by decide +kernel⟩
def witness_Memory_6_1_c : CLine := { counter4 1 7 9 3 with dirty := true }
def witness_Memory_6_1_s : Machine.State := cached4 [{ counter4 1 7 9 3 with dirty := true }, counter4 2 3 8 0, counter4 3 2 5 0]
theorem witness_Memory_6_1 :
    (cached witness_Memory_6_1_s 4 1 0 = some witness_Memory_6_1_c) ∧
    (pinned witness_Memory_6_1_s witness_Memory_6_1_c = false) ∧
    (witness_Memory_6_1_c.dirty = true) ∧
    (blockedForever witness_Memory_6_1_s witness_Memory_6_1_c = false) ∧
    ((bumpParent witness_Memory_6_1_c witness_Memory_6_1_s).isSome = true) ∧
    (versionOf witness_Memory_6_1_s 4 1 0 = some 392) :=
  ⟨by decide +kernel, by decide +kernel, by decide +kernel, by decide +kernel, by decide +kernel, by decide +kernel⟩
def witness_Memory_6_1_alt2_c : CLine := { counter4 3 2 5 0 with dirty := true }
def witness_Memory_6_1_alt2_s : Machine.State := cached4 [{ counter4 3 2 5 0 with dirty := true }]
theorem witness_Memory_6_1_alt2 :
    (cached witness_Memory_6_1_alt2_s 4 3 0 = some witness_Memory_6_1_alt2_c) ∧
    (pinned witness_Memory_6_1_alt2_s witness_Memory_6_1_alt2_c = false) ∧
    (witness_Memory_6_1_alt2_c.dirty = true) ∧
    (blockedForever witness_Memory_6_1_alt2_s witness_Memory_6_1_alt2_c = false) ∧
    ((bumpParent witness_Memory_6_1_alt2_c witness_Memory_6_1_alt2_s).isSome = true) ∧
    (versionOf witness_Memory_6_1_alt2_s 4 3 0 = some 0) :=
  ⟨by decide +kernel, by decide +kernel, by decide +kernel, by decide +kernel, by decide +kernel, by decide +kernel⟩
/-- Level 1's counter of the line is at its end. -/
def full4 : List CLine := [counter4 1 7 127 3, counter4 2 3 8 0, counter4 3 2 5 0]
theorem witness_Memory_7 :
    (rebaseLine (cached4 full4) 4 1 0 false = some (counter4 1 7 127 3)) ∧
    ((counter4 1 7 127 3).region = 4) ∧
    (((cached4 full4).mem.rebases.any fun b => b.region == 4 && b.level == 1 && b.idx == 0 && b.old == false) = false) ∧
    ((cached4 full4).mem.rebases.length < 32) ∧
    (((cached4 full4).region 4).valid = true) ∧
    (ploughIn (cached4 full4) 4 1 0 = false) ∧
    ((counter4 1 7 127 3).major ≠ 2 ^ 57 - 1) ∧
    (((counter4 1 7 127 3).minors.ents.any fun e => e.snd == 127) = true) :=
  ⟨by decide +kernel, by decide +kernel, by decide +kernel, by decide +kernel, by decide +kernel, by decide +kernel, by decide +kernel, by decide +kernel⟩
/-- A rebase of a level at its first child. -/
def rebase4 (l major minor at_ : Nat) : Rebase := { region := 4, level := l, idx := 0, old := false, major, minors := (Tbl.const 0).set at_ minor, next := 0 }
def rebasing (b : Rebase) (cs : List CLine) (rs : List MemRead) : State := let s := cached4 cs; { s with mem := { s.mem with rebases := [b], reads := rs, seqCtr := 2 } }
def witness_Memory_8_0_s : Machine.State := rebasing (rebase4 1 7 127 3) [counter4 1 8 0 3, counter4 2 3 8 0, counter4 3 2 5 0] []
theorem witness_Memory_8_0 :
    (List.find? (fun b => b.region == 4 && b.level == 1 && b.idx == 0 && b.old == false) witness_Memory_8_0_s.mem.rebases = some (rebase4 1 7 127 3)) ∧
    (1#2 ≠ 0#2) ∧
    (childOf witness_Memory_8_0_s (rebase4 1 7 127 3) (rebase4 1 7 127 3).next = true) ∧
    (if (rebase4 1 7 127 3).level = 1 then
      isFallow witness_Memory_8_0_s
            (counterLn (witness_Memory_8_0_s.region 4) ((rebase4 1 7 127 3).level - 1) ((rebase4 1 7 127 3).idx * 128 + (rebase4 1 7 127 3).next)) =
          false ∧
        childFree witness_Memory_8_0_s 4 ((rebase4 1 7 127 3).idx * 128 + (rebase4 1 7 127 3).next)
            (counterLn (witness_Memory_8_0_s.region 4) ((rebase4 1 7 127 3).level - 1) ((rebase4 1 7 127 3).idx * 128 + (rebase4 1 7 127 3).next)) =
          true
    else cached witness_Memory_8_0_s 4 ((rebase4 1 7 127 3).level - 1) ((rebase4 1 7 127 3).idx * 128 + (rebase4 1 7 127 3).next) = none) ∧
    (∀ (y : MemRead), y ∈ witness_Memory_8_0_s.mem.reads → y.region ≠ 4 ∧ y.seq ≠ witness_Memory_8_0_s.mem.seqCtr) :=
  ⟨by decide +kernel, by decide +kernel, by decide +kernel, (by rw [if_pos (by decide +kernel)]; decide +kernel), by decide +kernel⟩
def witness_Memory_8_0_alt2_s : Machine.State := rebasing (rebase4 2 3 127 0) [counter4 2 4 0 0, counter4 3 2 5 0] []
theorem witness_Memory_8_0_alt2 :
    (List.find? (fun b => b.region == 4 && b.level == 2 && b.idx == 0 && b.old == false) witness_Memory_8_0_alt2_s.mem.rebases = some (rebase4 2 3 127 0)) ∧
    (2#2 ≠ 0#2) ∧
    (childOf witness_Memory_8_0_alt2_s (rebase4 2 3 127 0) (rebase4 2 3 127 0).next = true) ∧
    (if (rebase4 2 3 127 0).level = 1 then
      isFallow witness_Memory_8_0_alt2_s
            (counterLn (witness_Memory_8_0_alt2_s.region 4) ((rebase4 2 3 127 0).level - 1) ((rebase4 2 3 127 0).idx * 128 + (rebase4 2 3 127 0).next)) =
          false ∧
        childFree witness_Memory_8_0_alt2_s 4 ((rebase4 2 3 127 0).idx * 128 + (rebase4 2 3 127 0).next)
            (counterLn (witness_Memory_8_0_alt2_s.region 4) ((rebase4 2 3 127 0).level - 1) ((rebase4 2 3 127 0).idx * 128 + (rebase4 2 3 127 0).next)) =
          true
    else cached witness_Memory_8_0_alt2_s 4 ((rebase4 2 3 127 0).level - 1) ((rebase4 2 3 127 0).idx * 128 + (rebase4 2 3 127 0).next) = none) ∧
    (∀ (y : MemRead), y ∈ witness_Memory_8_0_alt2_s.mem.reads → y.region ≠ 4 ∧ y.seq ≠ witness_Memory_8_0_alt2_s.mem.seqCtr) :=
  ⟨by decide +kernel, by decide +kernel, by decide +kernel, (by rw [if_neg (by decide +kernel)]; decide +kernel), by decide +kernel⟩
def witness_Memory_8_1_s : Machine.State := rebasing (rebase4 2 3 127 0) [counter4 1 7 9 3, counter4 2 4 0 0, counter4 3 2 5 0] []
theorem witness_Memory_8_1 :
    (List.find? (fun b => b.region == 4 && b.level == 2 && b.idx == 0 && b.old == false) witness_Memory_8_1_s.mem.rebases = some (rebase4 2 3 127 0)) ∧
    (2#2 ≠ 0#2) ∧
    (childOf witness_Memory_8_1_s (rebase4 2 3 127 0) (rebase4 2 3 127 0).next = true) ∧
    ((rebase4 2 3 127 0).level ≠ 1) ∧
    (cached witness_Memory_8_1_s 4 ((rebase4 2 3 127 0).level - 1) ((rebase4 2 3 127 0).idx * 128 + (rebase4 2 3 127 0).next) = some (counter4 1 7 9 3)) ∧
    (witness_Memory_8_1_s.mem.reads = []) :=
  ⟨by decide +kernel, by decide +kernel, by decide +kernel, by decide +kernel, by decide +kernel, by decide +kernel⟩
/-- The read of the first child, and its word under the old version. -/
def childRead : MemRead := { seq := 1, engine := stackOf (mem4 0) 32768, ln := 32768, region := 4, level := 0, idx := 0, purpose := .child false, req := 0x11, who := 1, stage := .asked, cands := some [896] }
def childAsked : State := rebasing (rebase4 1 7 127 3) [counter4 1 8 0 3, counter4 2 3 8 0, counter4 3 2 5 0] [childRead]
def childWord : LineRead := { pc := 0, word := { status := 0, cipher := zeroLine, tag := lt56 (engKey childAsked 3 (keySet childAsked 4 false)) zeroLine 32768 0 896 (sideEpoch childAsked 4 false) } }
theorem witness_Memory_8_2 :
    (List.find? (fun b => b.region == 4 && b.level == 1 && b.idx == 0 && b.old == false) childAsked.mem.rebases = some (rebase4 1 7 127 3)) ∧
    (1#2 ≠ 0#2) ∧
    (childOf childAsked (rebase4 1 7 127 3) (rebase4 1 7 127 3).next = true) ∧
    ((rebase4 1 7 127 3).level = 1) ∧
    (childAsked.mem.reads = [childRead]) ∧
    (childRead.stage = Stage.asked) ∧
    (childRead.region = 4) ∧
    (childRead.level = 0) ∧
    (childRead.idx = (rebase4 1 7 127 3).idx * 128 + (rebase4 1 7 127 3).next) ∧
    (childRead.purpose = Purpose.child false) ∧
    (childRead.cands = some [(rebase4 1 7 127 3).major * 128 + (rebase4 1 7 127 3).minors.get (rebase4 1 7 127 3).next]) ∧
    (childRead.retried = false) ∧
    (suspectPc childAsked childRead.engine childWord.pc.toNat = false) ∧
    (childWord.word.status.toNat < 2) ∧
    (checkTag childAsked 4 childRead.newer childRead.ln (childAsked.region 4).mode
        [(rebase4 1 7 127 3).major * 128 + (rebase4 1 7 127 3).minors.get (rebase4 1 7 127 3).next] childWord.word.cipher childWord.word.tag =
      some 896) :=
  ⟨by decide +kernel, by decide +kernel, by decide +kernel, by decide +kernel, by decide +kernel, by decide +kernel, by decide +kernel, by decide +kernel, by decide +kernel, by decide +kernel, by decide +kernel, by decide +kernel, by decide +kernel, by decide +kernel, (checkTag_one childAsked 4 false 32768 0 896 zeroLine)⟩
/-- A read that the stack reported as DUE. -/
def due4 (tgc : Bool) : State := let s := asked4 1 { read4 1 .mission [5] with stage := .due }; { s with mem := { s.mem with regions := s.mem.regions.set 4 { reg4 1 with tgc } } }
def witness_Memory_9_0_x : MemRead := { read4 1 .mission [5] with stage := .due }
def witness_Memory_9_0_ps : List Nat := ((adjacency (due4 true) 2).take (due4 true).mem.tgcMax).tail
theorem witness_Memory_9_0 :
    (List.find?
        (fun x =>
          x.engine == (BitVec.ofNat 4 engine4).toNat && x.ln == (BitVec.ofNat 40 line4).toNat && x.stage == Stage.due &&
            !((due4 true).mem.corr.get (BitVec.ofNat 4 engine4).toNat).any fun c => c.read == x.seq)
        (due4 true).mem.reads =
      some witness_Memory_9_0_x) ∧
    (((due4 true).region witness_Memory_9_0_x.region).tgc = true) ∧
    (2 ≠ 127) ∧
    (List.take (due4 true).mem.tgcMax (adjacency (due4 true) 2) = 3 :: witness_Memory_9_0_ps) ∧
    ((due4 true).mem.corr.get (BitVec.ofNat 4 engine4).toNat = []) :=
  ⟨by decide +kernel, by decide +kernel, by decide +kernel, by decide +kernel, by decide +kernel⟩
def witness_Memory_9_1_x : MemRead := { read4 1 .mission [5] with stage := .due }
theorem witness_Memory_9_1 :
    (List.find?
        (fun x =>
          x.engine == (BitVec.ofNat 4 engine4).toNat && x.ln == (BitVec.ofNat 40 line4).toNat && x.stage == Stage.due &&
            !((due4 true).mem.corr.get (BitVec.ofNat 4 engine4).toNat).any fun c => c.read == x.seq)
        (due4 true).mem.reads =
      some witness_Memory_9_1_x) ∧
    (((due4 true).region witness_Memory_9_1_x.region).tgc = false ∨ 127 = 127) ∧
    (witness_Memory_9_1_x.level = 0) ∧
    (witness_Memory_9_1_x.purpose = Purpose.mission) ∧
    (((due4 true).region witness_Memory_9_1_x.region).state = 1 ∨ ((due4 true).region witness_Memory_9_1_x.region).state = 2) ∧
    (freeFallow (due4 true) = some 0) ∧
    (isFallow (due4 true) witness_Memory_9_1_x.ln = false) :=
  ⟨by decide +kernel, by decide +kernel, by decide +kernel, by decide +kernel, by decide +kernel, by decide +kernel, by decide +kernel⟩
def witness_Memory_9_1_alt2_x : MemRead := { read4 1 .mission [5] with stage := .due }
theorem witness_Memory_9_1_alt2 :
    (List.find?
        (fun x =>
          x.engine == (BitVec.ofNat 4 engine4).toNat && x.ln == (BitVec.ofNat 40 line4).toNat && x.stage == Stage.due &&
            !((due4 false).mem.corr.get (BitVec.ofNat 4 engine4).toNat).any fun c => c.read == x.seq)
        (due4 false).mem.reads =
      some witness_Memory_9_1_alt2_x) ∧
    (((due4 false).region witness_Memory_9_1_alt2_x.region).tgc = false ∨ 2 = 127) ∧
    (witness_Memory_9_1_alt2_x.level = 0) ∧
    (witness_Memory_9_1_alt2_x.purpose = Purpose.mission) ∧
    (((due4 false).region witness_Memory_9_1_alt2_x.region).state = 1 ∨ ((due4 false).region witness_Memory_9_1_alt2_x.region).state = 2) ∧
    (freeFallow (due4 false) = some 0) ∧
    (isFallow (due4 false) witness_Memory_9_1_alt2_x.ln = false) :=
  ⟨by decide +kernel, by decide +kernel, by decide +kernel, by decide +kernel, by decide +kernel, by decide +kernel, by decide +kernel⟩
/-- A correction of that read in progress, with none behind it. -/
def noCorr : List Corr := []
def corr4 (todo : List Nat) : Corr := { read := 1, handle := 77, anchor := 2, todo }
def correcting (todo : List Nat) : State := let s := due4 true; { s with mem := { s.mem with corr := s.mem.corr.set engine4 [corr4 todo] } }
def witness_Memory_10_0_answer : Option (Line × BitVec 56) := none
def witness_Memory_10_0_c : Corr := corr4 [3, 4]
def witness_Memory_10_0_x : MemRead := { read4 1 .mission [5] with stage := .due }
def witness_Memory_10_0_s : Machine.State := correcting [3, 4]
theorem witness_Memory_10_0 :
    (witness_Memory_10_0_s.mem.corr.get (BitVec.ofNat 4 engine4).toNat = witness_Memory_10_0_c :: noCorr) ∧
    (List.find? (fun x => x.seq == witness_Memory_10_0_c.read) witness_Memory_10_0_s.mem.reads = some witness_Memory_10_0_x) ∧
    (witness_Memory_10_0_c.todo = [3, 4]) ∧
    (witness_Memory_10_0_c.ambiguous = false) :=
  ⟨by decide +kernel, by decide +kernel, by decide +kernel, by decide +kernel⟩
def witness_Memory_10_1_answer : Option (Line × BitVec 56) := none
def witness_Memory_10_1_c : Corr := corr4 [3, 4]
def witness_Memory_10_1_x : MemRead := { read4 1 .mission [5] with stage := .due }
def witness_Memory_10_1_s : Machine.State := correcting [3, 4]
theorem witness_Memory_10_1 :
    (witness_Memory_10_1_s.mem.corr.get (BitVec.ofNat 4 engine4).toNat = witness_Memory_10_1_c :: noCorr) ∧
    (List.find? (fun x => x.seq == witness_Memory_10_1_c.read) witness_Memory_10_1_s.mem.reads = some witness_Memory_10_1_x) ∧
    (witness_Memory_10_1_c.todo = [3, 4]) ∧
    (witness_Memory_10_1_c.ambiguous = false) :=
  ⟨by decide +kernel, by decide +kernel, by decide +kernel, by decide +kernel⟩
def witness_Memory_10_2_answer : Option (Line × BitVec 56) := some (zeroLine, 0)
def witness_Memory_10_2_c : Corr := corr4 [3]
def witness_Memory_10_2_x : MemRead := { read4 1 .mission [5] with stage := .due }
def witness_Memory_10_2_s : Machine.State := correcting [3]
theorem witness_Memory_10_2 :
    (witness_Memory_10_2_s.mem.corr.get (BitVec.ofNat 4 engine4).toNat = witness_Memory_10_2_c :: noCorr) ∧
    (List.find? (fun x => x.seq == witness_Memory_10_2_c.read) witness_Memory_10_2_s.mem.reads = some witness_Memory_10_2_x) ∧
    (witness_Memory_10_2_c.todo = [3]) ∧
    (noCorr = []) ∧
    (witness_Memory_10_2_s.mem.reads = [witness_Memory_10_2_x]) ∧
    (witness_Memory_10_2_x.level = 0) ∧
    (witness_Memory_10_2_x.purpose = Purpose.mission) ∧
    (witness_Memory_10_2_s.mem.writes = []) ∧
    (newSide witness_Memory_10_2_s witness_Memory_10_2_x.region witness_Memory_10_2_x.idx = witness_Memory_10_2_x.newer) :=
  ⟨by decide +kernel, by decide +kernel, by decide +kernel, by decide +kernel, by decide +kernel, by decide +kernel, by decide +kernel, by decide +kernel, by decide +kernel⟩
def witness_Memory_11_read : LineRead := { pc := 0, word := { status := 0, cipher := zeroLine, tag := 0 } }
def witness_Memory_11_x : MemRead := read4 1 (.scrub 5) [5]
def witness_Memory_11_s : Machine.State := asked4 1 (read4 1 (.scrub 5) [5])
theorem witness_Memory_11 :
    ((askedRead witness_Memory_11_s fun x => x.engine == (BitVec.ofNat 4 engine4).toNat && x.ln == (BitVec.ofNat 40 line4).toNat && x.purpose.isScrub) =
      some witness_Memory_11_x) ∧
    (witness_Memory_11_x.cands = some [5]) ∧
    (witness_Memory_11_x.retried = false) ∧
    (witness_Memory_11_s.mem.reads = [witness_Memory_11_x]) ∧
    (suspectPc witness_Memory_11_s (BitVec.ofNat 4 engine4).toNat witness_Memory_11_read.pc.toNat = false) ∧
    (witness_Memory_11_read.word.status = 0#2) ∧
    (witness_Memory_11_x.level = 0) ∧
    ((witness_Memory_11_s.region witness_Memory_11_x.region).mode ≠ 3) :=
  ⟨by decide +kernel, by decide +kernel, by decide +kernel, by decide +kernel, by decide +kernel, by decide +kernel, by decide +kernel, by decide +kernel⟩
/-- A fetch of the level-3 line, asked of the stack. -/
def fetch4 : MemRead := { ownRead (mem4 0) 4 3 0 false .counter with seq := 1, stage := .asked, cands := some [0] }
theorem witness_Memory_12 :
    ((asked4 0 fetch4).mem.reads = [fetch4]) ∧
    (fetch4.region = 4) ∧
    (fetch4.level = 3) ∧
    (fetch4.idx = 0) ∧
    (fetch4.purpose = Purpose.counter) ∧
    (fetch4.stage = Stage.asked) ∧
    (fetch4.retried = false) ∧
    (fetch4.cands = some [(asked4 0 fetch4).mem.crown.get (((asked4 0 fetch4).region 4).crownFirst + 0)]) ∧
    (suspectPc (asked4 0 fetch4) fetch4.engine word3p.pc.toNat = false) ∧
    (word3p.word.status.toNat < 2) ∧
    ((asked4 0 fetch4).mem.cache = []) ∧
    (0 < ((asked4 0 fetch4).slice ((asked4 0 fetch4).region 4).slice).ways.get (stackOf (asked4 0 fetch4) (counterLn ((asked4 0 fetch4).region 4) 3 0))) :=
  ⟨by decide +kernel, by decide +kernel, by decide +kernel, by decide +kernel, by decide +kernel, by decide +kernel, by decide +kernel, by decide +kernel, by decide +kernel, by decide +kernel, by decide +kernel, by decide +kernel⟩

end Sys2Proof.Tests
end

