-- ==== Sys2Proof/Tests/WitnessSlices.lean ====
section
/-!
SUPPORT. States that meet the hypotheses of the statements about slices, migration, the block DMA's transfers and translation.
-/
set_option Elab.async false
namespace Sys2Proof.Tests
open Sys2Proof Sys2Proof.Machine

/-! ### Slices -/

/-- A creation record of slice 2. -/
def record2 : Bytes := magicFormat "SLC1" ++ [2, 0] ++ leBytes 2 1 ++ leBytes 2 32 ++ leBytes 2 16 ++ leBytes 2 256 ++ leBytes 2 256 ++ leBytes 2 16 ++ List.replicate 4 0
  ++ List.replicate 24 0xFF ++ List.replicate 12 0xFF ++ List.replicate 4 0xFF ++ leBytes 4 9 ++ List.replicate (512 - 0x44) 0
def s_witness_Slice_0 : State := ready (hdr 2#8) 1536 ([(24, 8, 4096)]) (up)
theorem witness_Slice_0 :
    (Starts (hdr 2#8) 1536 [(24, 8, 4096)] s_witness_Slice_0) ∧
    (aligned8 4096#64 = true) ∧
    (firstFail (createChecks s_witness_Slice_0 (fit 512 record2)) = none) :=
  ⟨starts_of (by decide +kernel), by decide +kernel, by decide +kernel⟩
def s_witness_Slice_1 : State := ready (hc 1#8 33#16) 1537 ([]) (base)
theorem witness_Slice_1 :
    (Starts (hc 1#8 33#16) 1537 [] s_witness_Slice_1) ∧
    ((s_witness_Slice_1.slice (hdrSlice (hc 1#8 33#16))).state ≠ 0) ∧
    (Fresh (hc 1#8 33#16).key s_witness_Slice_1) ∧
    (OutsideQueues (hc 1#8 33#16).key (hdrSlice (hc 1#8 33#16)) s_witness_Slice_1) ∧
    (s_witness_Slice_1.kst.dflt = { key := 0#256, attr := 0#64, binding := 281470681743360#64, wrapId := 0#128 : Slot }) :=
  ⟨starts_of (by decide +kernel), by decide +kernel, fresh_of (by decide +kernel), outside_of (by decide +kernel), by decide +kernel⟩
def s_witness_Slice_2 : State := ready (hdr 1#8) 1543 ([(24, 2, 65535), (28, 4, 5)]) (base)
theorem witness_Slice_2 :
    (Starts (hdr 1#8) 1543 [(24, 2, 65535), (28, 4, 5)] s_witness_Slice_2) ∧
    (65535#16 ≠ 0#16) ∧
    (s_witness_Slice_2.cex.bindings.get 65535 = none) ∧
    (5 ∈ (s_witness_Slice_2.slice (hdrSlice (hdr 1#8))).pasids) ∧
    ((s_witness_Slice_2.cex.bindings.findAll fun x b => b.isSome).length < 4096) :=
  ⟨starts_of (by decide +kernel), by decide +kernel, by decide +kernel, by decide +kernel, by decide +kernel⟩
def s_witness_Slice_3 : State := ready (hdr 1#8) 1544 ([(24, 2, 33)]) (base)
theorem witness_Slice_3 :
    (Starts (hdr 1#8) 1544 [(24, 2, 33)] s_witness_Slice_3) ∧
    (s_witness_Slice_3.cex.bindings.get 33 = some { slice := 1, pasid := 5 : Binding }) ∧
    ({ slice := 1, pasid := 5 : Binding }.slice = hdrSlice (hdr 1#8)) ∧
    (contextInFlight s_witness_Slice_3 33 = false) :=
  ⟨starts_of (by decide +kernel), by decide +kernel, by decide +kernel, by decide +kernel⟩
def s_witness_Slice_4 : State := ready (hdr 1#8) 1545 ([(24, 2, 33)]) (base)
theorem witness_Slice_4 :
    (Starts (hdr 1#8) 1545 [(24, 2, 33)] s_witness_Slice_4) ∧
    (sliceOf s_witness_Slice_4 33 = some (hdrSlice (hdr 1#8))) ∧
    (s_witness_Slice_4.cex.kills = []) ∧
    (Fresh (hdr 1#8).key s_witness_Slice_4) ∧
    (∀ (e : Nat × FenceGroup), e ∈ s_witness_Slice_4.cex.groups.ents → e.snd.waits = []) :=
  ⟨starts_of (by decide +kernel), by decide +kernel, by decide +kernel, fresh_of (by decide +kernel), by decide +kernel⟩
def s_witness_Slice_5 : State := ready (hdr 1#8) 1546 ([(24, 8, 4096), (32, 1, 1)]) (base)
theorem witness_Slice_5 :
    (Starts (hdr 1#8) 1546 [(24, 8, 4096), (32, 1, 1)] s_witness_Slice_5) ∧
    (aligned8 4096#64 = true) ∧
    ((s_witness_Slice_5.slice (hdrSlice (hdr 1#8))).state ≠ 0) ∧
    (entOk s_witness_Slice_5 = true) ∧
    (pkeRuns s_witness_Slice_5 = true) :=
  ⟨starts_of (by decide +kernel), by decide +kernel, by decide +kernel, by decide +kernel, by decide +kernel⟩
def s_witness_Slice_5_alt2 : State := ready (hdr 1#8) 1546 ([(24, 8, 4096), (32, 1, 0)]) (base)
theorem witness_Slice_5_alt2 :
    (Starts (hdr 1#8) 1546 [(24, 8, 4096), (32, 1, 0)] s_witness_Slice_5_alt2) ∧
    (aligned8 4096#64 = true) ∧
    ((s_witness_Slice_5_alt2.slice (hdrSlice (hdr 1#8))).state ≠ 0) ∧
    (entOk s_witness_Slice_5_alt2 = true) ∧
    (pkeRuns s_witness_Slice_5_alt2 = true) :=
  ⟨starts_of (by decide +kernel), by decide +kernel, by decide +kernel, by decide +kernel, by decide +kernel⟩
/-- Slice 1 without a domain and without a bound context. -/
def idle1 : State := { updDom 1 (fun _ => {}) base with cex := { base.cex with bindings := Tbl.const none } }
theorem witness_Slice_6 :
    (idle1.rcv.fwRunning = true) ∧
    (mayWrite Principal.hostk [1] idle1 = true) ∧
    (releasable idle1 1 = true) ∧
    (tdiLocked idle1 1 = false) :=
  ⟨by decide +kernel, by decide +kernel, by decide +kernel, by decide +kernel⟩
theorem witness_Slice_7 :
    (base.rcv.fwRunning = true) ∧
    (mayWrite Principal.hostk [1] base = true) ∧
    ((base.slice 1).state ≠ 0) ∧
    (tdiLocked base 1 = false) ∧
    (6#8 = 6#8 ∧ (List.replicate 24 0).length = 24 ∨ 6#8 = 8#8 ∧ (List.replicate 24 0).length = 4) :=
  ⟨by decide +kernel, by decide +kernel, by decide +kernel, by decide +kernel, by decide +kernel⟩
theorem witness_Slice_7_alt2 :
    (base.rcv.fwRunning = true) ∧
    (mayWrite Principal.hostk [1] base = true) ∧
    ((base.slice 1).state ≠ 0) ∧
    (tdiLocked base 1 = false) ∧
    (8#8 = 6#8 ∧ (List.replicate 4 255).length = 24 ∨ 8#8 = 8#8 ∧ (List.replicate 4 255).length = 4) :=
  ⟨by decide +kernel, by decide +kernel, by decide +kernel, by decide +kernel, by decide +kernel⟩
theorem witness_Slice_8 :
    (base.rcv.fwRunning = true) ∧
    (mayWrite Principal.hostk [1] base = true) ∧
    ((List.replicate 12 4).length = 12) ∧
    ((base.slice 1).state ≠ 0) ∧
    (holdsTree base 1 = true → ∀ (e : Nat), e < 12 → populated base e = true → 4 ≤ field (List.replicate 12 4) e 1) ∧
    (tdiLocked base 1 = false) ∧
    (admitted
        (updSlice 1
          (fun x =>
            have __src := base.slice 1;
            { state := __src.state, pasids := __src.pasids, published := __src.published, creation := __src.creation, keys := __src.keys,
              regions := __src.regions, streams0 := __src.streams0, streams1 := __src.streams1, graphKib := __src.graphKib, wheel := __src.wheel,
              ways := perEngine base fun e => field (List.replicate 12 4) e 1, shares := __src.shares, migEvidence := __src.migEvidence,
              migChain := __src.migChain, migrations := __src.migrations, freezing := __src.freezing, withdrawn := __src.withdrawn, usage := __src.usage :
              SliceRec })
          base) =
      true) :=
  ⟨by decide +kernel, by decide +kernel, by decide +kernel, by decide +kernel, by decide +kernel, by decide +kernel, by decide +kernel⟩

/-! ### Migration -/

/-- Slice 1 in a state of a migration. -/
def moving (st : Nat) : State := updSlice 1 (fun r => { r with state := st }) base
def s_witness_Migration_0 : State := ready (hdr 1#8) 1538 ([]) (base)
theorem witness_Migration_0 :
    (Starts (hdr 1#8) 1538 [] s_witness_Migration_0) ∧
    ((s_witness_Migration_0.slice (hdrSlice (hdr 1#8))).state = 1) ∧
    ((s_witness_Migration_0.slice (hdrSlice (hdr 1#8))).freezing = none) ∧
    (freezeRefused s_witness_Migration_0 (hdrSlice (hdr 1#8)) = false) ∧
    (Fresh (hdr 1#8).key s_witness_Migration_0) :=
  ⟨starts_of (by decide +kernel), by decide +kernel, by decide +kernel, by decide +kernel, fresh_of (by decide +kernel)⟩
def s_witness_Migration_1 : State := ready (hdr 1#8) 1539 ([(24, 8, 4096), (32, 8, 100000), (40, 8, 8192)]) (moving 2)
theorem witness_Migration_1 :
    (Starts (hdr 1#8) 1539 [(24, 8, 4096), (32, 8, 100000), (40, 8, 8192)] s_witness_Migration_1) ∧
    (aligned8 4096#64 = true) ∧
    (aligned8 8192#64 = true) ∧
    ((s_witness_Migration_1.slice (hdrSlice (hdr 1#8))).state = 2) ∧
    (keyed s_witness_Migration_1 (hdrSlice (hdr 1#8)) = true) ∧
    ((s_witness_Migration_1.slice (hdrSlice (hdr 1#8))).migrations < 8) ∧
    (Fresh (hdr 1#8).key s_witness_Migration_1) :=
  ⟨starts_of (by decide +kernel), by decide +kernel, by decide +kernel, by decide +kernel, by decide +kernel, by decide +kernel, fresh_of (by decide +kernel)⟩
/-- The reads of a SLICE_SAVE are done. -/
def saveGather : Gather := { key := key0, buffers := [[1], [2]] }
def gathered (g : Gather) (s : State) : State := { s with mem := { s.mem with gathers := [g] } }
def s_witness_Migration_2 : State := running (hdr 1#8) 1539 ([(24, 8, 4096), (32, 8, 100000), (40, 8, 8192)]) (gathered saveGather (moving 2))
theorem witness_Migration_2 :
    (InHand (hdr 1#8) 1539 [(24, 8, 4096), (32, 8, 100000), (40, 8, 8192)] s_witness_Migration_2) ∧
    (List.find? (fun g => g.key == (hdr 1#8).key) s_witness_Migration_2.mem.gathers = some saveGather) ∧
    (blockDone s_witness_Migration_2 (hdr 1#8).key = true) ∧
    ((s_witness_Migration_2.slice (hdrSlice (hdr 1#8))).state = 2) ∧
    (entOk s_witness_Migration_2 = true) ∧
    (pkeRuns s_witness_Migration_2 = true) ∧
    (kweRuns s_witness_Migration_2 = true) ∧
    ((freePke s_witness_Migration_2).isSome = true) ∧
    ((blobSlot s_witness_Migration_2 (hdrSlice (hdr 1#8))).isSome = true) :=
  ⟨inHand_of (by decide +kernel), by decide +kernel, by decide +kernel, by decide +kernel, by decide +kernel, by decide +kernel, by decide +kernel, by decide +kernel, by decide +kernel⟩
def s_witness_Migration_3 : State := ready (hdr 1#8) 1540 ([(24, 8, 4096), (32, 8, 0)]) (moving 4)
theorem witness_Migration_3 :
    (Starts (hdr 1#8) 1540 [(24, 8, 4096), (32, 8, 0)] s_witness_Migration_3) ∧
    ((s_witness_Migration_3.q (hdr 1#8).key).state ≠ 0) ∧
    (aligned8 4096#64 = true) ∧
    ((s_witness_Migration_3.slice (hdrSlice (hdr 1#8))).state = 4) ∧
    (kweRuns s_witness_Migration_3 = true) ∧
    ((blobSlot s_witness_Migration_3 (hdrSlice (hdr 1#8))).isSome = true) ∧
    (Fresh (hdr 1#8).key s_witness_Migration_3) :=
  ⟨starts_of (by decide +kernel), by decide +kernel, by decide +kernel, by decide +kernel, by decide +kernel, by decide +kernel, fresh_of (by decide +kernel)⟩
def s_witness_Migration_4 : State := ready (hdr 1#8) 1541 ([]) (moving 3)
theorem witness_Migration_4 :
    (Starts (hdr 1#8) 1541 [] s_witness_Migration_4) ∧
    ((s_witness_Migration_4.slice (hdrSlice (hdr 1#8))).state = 3) ∧
    (Fresh (hdr 1#8).key s_witness_Migration_4) ∧
    (OutsideQueues (hdr 1#8).key (hdrSlice (hdr 1#8)) s_witness_Migration_4) ∧
    (s_witness_Migration_4.kst.dflt = { key := 0#256, attr := 0#64, binding := 281470681743360#64, wrapId := 0#128 : Slot }) :=
  ⟨starts_of (by decide +kernel), by decide +kernel, fresh_of (by decide +kernel), outside_of (by decide +kernel), by decide +kernel⟩
def s_witness_Migration_5 : State := ready (hdr 1#8) 1542 ([]) (moving 5)
theorem witness_Migration_5 :
    (Starts (hdr 1#8) 1542 [] s_witness_Migration_5) ∧
    ((s_witness_Migration_5.slice (hdrSlice (hdr 1#8))).state = 5 ∨ (s_witness_Migration_5.slice (hdrSlice (hdr 1#8))).state = 2) ∧
    (Fresh (hdr 1#8).key s_witness_Migration_5) ∧
    (∀ (w : WaitRec), w ∈ (s_witness_Migration_5.slice (hdrSlice (hdr 1#8))).withdrawn → w.key ≠ (hdr 1#8).key) :=
  ⟨starts_of (by decide +kernel), by decide +kernel, fresh_of (by decide +kernel), by decide +kernel⟩
def s_witness_Migration_5_alt2 : State := ready (hdr 1#8) 1542 ([]) (moving 2)
theorem witness_Migration_5_alt2 :
    (Starts (hdr 1#8) 1542 [] s_witness_Migration_5_alt2) ∧
    ((s_witness_Migration_5_alt2.slice (hdrSlice (hdr 1#8))).state = 5 ∨ (s_witness_Migration_5_alt2.slice (hdrSlice (hdr 1#8))).state = 2) ∧
    (Fresh (hdr 1#8).key s_witness_Migration_5_alt2) ∧
    (∀ (w : WaitRec), w ∈ (s_witness_Migration_5_alt2.slice (hdrSlice (hdr 1#8))).withdrawn → w.key ≠ (hdr 1#8).key) :=
  ⟨starts_of (by decide +kernel), by decide +kernel, fresh_of (by decide +kernel), by decide +kernel⟩
def s_witness_Migration_6 : State := ready (hdr 1#8) 1542 ([]) (moving 3)
theorem witness_Migration_6 :
    (Starts (hdr 1#8) 1542 [] s_witness_Migration_6) ∧
    ((s_witness_Migration_6.slice (hdrSlice (hdr 1#8))).state = 3) ∧
    (keyed s_witness_Migration_6 (hdrSlice (hdr 1#8)) = true) :=
  ⟨starts_of (by decide +kernel), by decide +kernel, by decide +kernel⟩

/-! ### Transfers and translation -/

/-- A line from outside the stacks, to outside them. -/
def outsideLine (i : Nat) (l : Option Line) : CopyLine := { src := 1#52 <<< 51, dst := (1#52 <<< 51) + BitVec.ofNat 52 (128 * i), outside := l }
def witness_TransferAndTranslation_0_lines : List CopyLine := [outsideLine 0 none]
def s_witness_TransferAndTranslation_0 : State := ready (hdr 1#8) 1792 ([(24, 8, 4096), (32, 8, 8192), (40, 8, 128)]) (base)
theorem witness_TransferAndTranslation_0 :
    (Starts (hdr 1#8) 1792 [(24, 8, 4096), (32, 8, 8192), (40, 8, 128)] s_witness_TransferAndTranslation_0) ∧
    (128 ≤ 128) ∧
    (128 ≤ 2 ^ 40) ∧
    (128 % 128 = 0) ∧
    (4096 % 128 = 0) ∧
    (8192 % 128 = 0) ∧
    (witness_TransferAndTranslation_0_lines.length = 128 / 128) ∧
    (Fresh (hdr 1#8).key s_witness_TransferAndTranslation_0) ∧
    (∀ (b : BlockLine), b ∈ s_witness_TransferAndTranslation_0.mem.blocks → b.key ≠ (hdr 1#8).key) ∧
    (blockDone s_witness_TransferAndTranslation_0 (hdr 1#8).key = true) :=
  ⟨starts_of (by decide +kernel), by decide +kernel, by decide +kernel, by decide +kernel, by decide +kernel, by decide +kernel, by decide +kernel, fresh_of (by decide +kernel), by decide +kernel, by decide +kernel⟩
def witness_TransferAndTranslation_0_alt2_lines : List CopyLine := [outsideLine 0 (some [1]), outsideLine 1 (some [2])]
def s_witness_TransferAndTranslation_0_alt2 : State := ready (hdr 1#8) 1792 ([(24, 8, 4096), (32, 8, 8192), (40, 8, 256)]) (base)
theorem witness_TransferAndTranslation_0_alt2 :
    (Starts (hdr 1#8) 1792 [(24, 8, 4096), (32, 8, 8192), (40, 8, 256)] s_witness_TransferAndTranslation_0_alt2) ∧
    (128 ≤ 256) ∧
    (256 ≤ 2 ^ 40) ∧
    (256 % 128 = 0) ∧
    (4096 % 128 = 0) ∧
    (8192 % 128 = 0) ∧
    (witness_TransferAndTranslation_0_alt2_lines.length = 256 / 128) ∧
    (Fresh (hdr 1#8).key s_witness_TransferAndTranslation_0_alt2) ∧
    (∀ (b : BlockLine), b ∈ s_witness_TransferAndTranslation_0_alt2.mem.blocks → b.key ≠ (hdr 1#8).key) ∧
    (blockDone s_witness_TransferAndTranslation_0_alt2 (hdr 1#8).key = true) :=
  ⟨starts_of (by decide +kernel), by decide +kernel, by decide +kernel, by decide +kernel, by decide +kernel, by decide +kernel, by decide +kernel, fresh_of (by decide +kernel), by decide +kernel, by decide +kernel⟩
def copyGather : Gather := { key := key0, lines := [outsideLine 0 (some [1]), outsideLine 1 (some [2])] }
def s_witness_TransferAndTranslation_1 : State := running (hdr 1#8) 1792 ([(24, 8, 4096), (32, 8, 8192), (40, 8, 256)]) (gathered copyGather base)
theorem witness_TransferAndTranslation_1 :
    (InHand (hdr 1#8) 1792 [(24, 8, 4096), (32, 8, 8192), (40, 8, 256)] s_witness_TransferAndTranslation_1) ∧
    (List.find? (fun g => g.key == (hdr 1#8).key) s_witness_TransferAndTranslation_1.mem.gathers = some copyGather) ∧
    (blockDone s_witness_TransferAndTranslation_1 (hdr 1#8).key = true) ∧
    (copyGather.lines.length = 256 / 128) :=
  ⟨inHand_of (by decide +kernel), by decide +kernel, by decide +kernel, by decide +kernel⟩
/-- A list of one extent of 128 bytes of region 3, and a blob that declares as many. -/
def extent3 : Bytes := leBytes 1 1 ++ List.replicate 47 0 ++ leBytes 2 3 ++ List.replicate 6 0 ++ leBytes 8 0 ++ leBytes 8 128
def blob128 : Bytes := List.replicate 32 0 ++ leBytes 8 128 ++ List.replicate 88 0
def region3 : State := updRegion 3 (fun _ => { valid := true, slice := 1, mode := 1, state := 1, base := 0, pages := 1 }) base
def s_witness_TransferAndTranslation_2 : State := ready (hdr 1#8) 1793 ([(24, 8, 4096), (32, 8, 128), (40, 8, 8192), (48, 2, 65535)]) (region3)
theorem witness_TransferAndTranslation_2 :
    (Starts (hdr 1#8) 1793 [(24, 8, 4096), (32, 8, 128), (40, 8, 8192), (48, 2, 65535)] s_witness_TransferAndTranslation_2) ∧
    (aligned8 4096#64 = true) ∧
    (aligned8 8192#64 = true) ∧
    (firstFail (listChecks s_witness_TransferAndTranslation_2 (hdrSlice (hdr 1#8)) extent3 true) = none) ∧
    ((extents extent3).all (saveCovers s_witness_TransferAndTranslation_2) = true) ∧
    (∀ (r : Nat),
      r ∈ listRegions (extents extent3) →
        (s_witness_TransferAndTranslation_2.region r).state = 1 ∨ (s_witness_TransferAndTranslation_2.region r).state = 3) ∧
    (65535#16 ≠ 65535#16 → firstFail (srcChecks s_witness_TransferAndTranslation_2 (hdrSlice (hdr 1#8)) 65535 Slot.drv) = none) ∧
    (kweRuns s_witness_TransferAndTranslation_2 = true) ∧
    (payloadLen (extents extent3) = blobLen blob128) ∧
    ((blobSlot s_witness_TransferAndTranslation_2 (hdrSlice (hdr 1#8))).isSome = true) ∧
    (∀ (r : Nat), r ∈ listRegions (extents extent3) → importRefusal s_witness_TransferAndTranslation_2 r = none) ∧
    (boundAgrees s_witness_TransferAndTranslation_2 (listRegions (extents extent3)) (field blob128 80 16) = true) :=
  ⟨starts_of (by decide +kernel), by decide +kernel, by decide +kernel, by decide +kernel, by decide +kernel, by decide +kernel, by decide +kernel, by decide +kernel, by decide +kernel, by decide +kernel, by decide +kernel, by decide +kernel⟩
def s_witness_TransferAndTranslation_3 : State := ready (hdr 1#8) 1794 ([(24, 8, 4096), (32, 8, 4096), (40, 8, 8192), (48, 2, 33), (50, 1, 2), (51, 1, 0), (52, 1, 1)]) (region3)
theorem witness_TransferAndTranslation_3 :
    (Starts (hdr 1#8) 1794 [(24, 8, 4096), (32, 8, 4096), (40, 8, 8192), (48, 2, 33), (50, 1, 2), (51, 1, 0), (52, 1, 1)]
      s_witness_TransferAndTranslation_3) ∧
    (2 ∈ [2, 3, 5]) ∧
    (1 = 1 ∧ 33#16 ≠ 65535#16 ∨ 1 = 2 ∧ 33#16 = 65535#16) ∧
    (16 ≤ if 0#8 = 0#8 then 21 else 0) ∧
    ((if 0#8 = 0#8 then 21 else 0) ≤ 24) ∧
    (aligned8 4096#64 = true) ∧
    (aligned8 8192#64 = true) ∧
    (firstFail (listChecks s_witness_TransferAndTranslation_3 (hdrSlice (hdr 1#8)) extent3 false) = none) ∧
    (2 ≠ 5 ∨ field extent3 16 16 = 0) ∧
    (if 1 = 1 then field extent3 32 8 = 0 else field extent3 32 8 % 8 = 0) ∧
    (∀ (r : Nat),
      r ∈ listRegions (extents extent3) →
        (s_witness_TransferAndTranslation_3.region r).state = 1 ∨ (s_witness_TransferAndTranslation_3.region r).state = 2) ∧
    ((if 1 = 2 then 1824 else 128) + payloadLen (extents extent3) + 16 * chunkCount (payloadLen (extents extent3)) (if 0#8 = 0#8 then 21 else 0) ≤ 4096) ∧
    (firstFail (exportKeys s_witness_TransferAndTranslation_3 (hdrSlice (hdr 1#8)) 1 33) = none) :=
  ⟨starts_of (by decide +kernel), by decide +kernel, by decide +kernel, by decide +kernel, by decide +kernel, by decide +kernel, by decide +kernel, by decide +kernel, by decide +kernel, by decide +kernel, by decide +kernel, by decide +kernel, by decide +kernel⟩
def s_witness_TransferAndTranslation_3_alt2 : State := ready (hdr 1#8) 1794 ([(24, 8, 4096), (32, 8, 4096), (40, 8, 8192), (48, 2, 65535), (50, 1, 2), (51, 1, 24), (52, 1, 2)]) (region3)
theorem witness_TransferAndTranslation_3_alt2 :
    (Starts (hdr 1#8) 1794 [(24, 8, 4096), (32, 8, 4096), (40, 8, 8192), (48, 2, 65535), (50, 1, 2), (51, 1, 24), (52, 1, 2)]
      s_witness_TransferAndTranslation_3_alt2) ∧
    (2 ∈ [2, 3, 5]) ∧
    (2 = 1 ∧ 65535#16 ≠ 65535#16 ∨ 2 = 2 ∧ 65535#16 = 65535#16) ∧
    (16 ≤ if 24#8 = 0#8 then 21 else 24) ∧
    ((if 24#8 = 0#8 then 21 else 24) ≤ 24) ∧
    (aligned8 4096#64 = true) ∧
    (aligned8 8192#64 = true) ∧
    (firstFail (listChecks s_witness_TransferAndTranslation_3_alt2 (hdrSlice (hdr 1#8)) extent3 false) = none) ∧
    (2 ≠ 5 ∨ field extent3 16 16 = 0) ∧
    (if 2 = 1 then field extent3 32 8 = 0 else field extent3 32 8 % 8 = 0) ∧
    (∀ (r : Nat),
      r ∈ listRegions (extents extent3) →
        (s_witness_TransferAndTranslation_3_alt2.region r).state = 1 ∨ (s_witness_TransferAndTranslation_3_alt2.region r).state = 2) ∧
    ((if 2 = 2 then 1824 else 128) + payloadLen (extents extent3) + 16 * chunkCount (payloadLen (extents extent3)) (if 24#8 = 0#8 then 21 else 24) ≤ 4096) ∧
    (firstFail (exportKeys s_witness_TransferAndTranslation_3_alt2 (hdrSlice (hdr 1#8)) 2 65535) = none) :=
  ⟨starts_of (by decide +kernel), by decide +kernel, by decide +kernel, by decide +kernel, by decide +kernel, by decide +kernel, by decide +kernel, by decide +kernel, by decide +kernel, by decide +kernel, by decide +kernel, by decide +kernel, by decide +kernel⟩
def exportGather : Gather := { key := key0, buffers := [extent3, []] }
def s_witness_TransferAndTranslation_4 : State := running (hdr 1#8) 1794 ([(24, 8, 4096), (32, 8, 4096), (40, 8, 8192), (48, 2, 33), (50, 1, 2), (51, 1, 16), (52, 1, 1)]) (gathered exportGather region3)
theorem witness_TransferAndTranslation_4 :
    (InHand (hdr 1#8) 1794 [(24, 8, 4096), (32, 8, 4096), (40, 8, 8192), (48, 2, 33), (50, 1, 2), (51, 1, 16), (52, 1, 1)]
      s_witness_TransferAndTranslation_4) ∧
    (List.find? (fun g => g.key == (hdr 1#8).key) s_witness_TransferAndTranslation_4.mem.gathers = some exportGather) ∧
    (blockDone s_witness_TransferAndTranslation_4 (hdr 1#8).key = true) ∧
    (firstFail (exportKeys s_witness_TransferAndTranslation_4 (hdrSlice (hdr 1#8)) 1 33) = none) :=
  ⟨inHand_of (by decide +kernel), by decide +kernel, by decide +kernel, by decide +kernel⟩
def s_witness_TransferAndTranslation_5 : State := ready (hdr 1#8) 2048 ([(24, 8, 4096), (32, 1, 12), (33, 1, 0), (36, 4, 5)]) (base)
theorem witness_TransferAndTranslation_5 :
    (Starts (hdr 1#8) 2048 [(24, 8, 4096), (32, 1, 12), (33, 1, 0), (36, 4, 5)] s_witness_TransferAndTranslation_5) ∧
    (0 ≤ 3) ∧
    (0#8 = 0#8 ∨ 0#8 = 2#8 → 12 ≤ 12 ∧ 12 ≤ 40) ∧
    (2 ≤ 0 ∨ 5 ∈ (s_witness_TransferAndTranslation_5.slice (hdrSlice (hdr 1#8))).pasids) ∧
    (s_witness_TransferAndTranslation_5.xlt.invalidating = []) :=
  ⟨starts_of (by decide +kernel), by decide +kernel, by decide +kernel, by decide +kernel, by decide +kernel⟩
def s_witness_TransferAndTranslation_5_alt2 : State := ready (hdr 1#8) 2048 ([(24, 8, 4096), (32, 1, 40), (33, 1, 2), (36, 4, 0)]) (base)
theorem witness_TransferAndTranslation_5_alt2 :
    (Starts (hdr 1#8) 2048 [(24, 8, 4096), (32, 1, 40), (33, 1, 2), (36, 4, 0)] s_witness_TransferAndTranslation_5_alt2) ∧
    (2 ≤ 3) ∧
    (2#8 = 0#8 ∨ 2#8 = 2#8 → 12 ≤ 40 ∧ 40 ≤ 40) ∧
    (2 ≤ 2 ∨ 0 ∈ (s_witness_TransferAndTranslation_5_alt2.slice (hdrSlice (hdr 1#8))).pasids) ∧
    (s_witness_TransferAndTranslation_5_alt2.xlt.invalidating = []) :=
  ⟨starts_of (by decide +kernel), by decide +kernel, by decide +kernel, by decide +kernel, by decide +kernel⟩
def s_witness_TransferAndTranslation_5_alt3 : State := ready (hdr 1#8) 2048 ([(24, 8, 4096), (32, 1, 0), (33, 1, 3), (36, 4, 0)]) (base)
theorem witness_TransferAndTranslation_5_alt3 :
    (Starts (hdr 1#8) 2048 [(24, 8, 4096), (32, 1, 0), (33, 1, 3), (36, 4, 0)] s_witness_TransferAndTranslation_5_alt3) ∧
    (3 ≤ 3) ∧
    (3#8 = 0#8 ∨ 3#8 = 2#8 → 12 ≤ 0 ∧ 0 ≤ 40) ∧
    (2 ≤ 3 ∨ 0 ∈ (s_witness_TransferAndTranslation_5_alt3.slice (hdrSlice (hdr 1#8))).pasids) ∧
    (s_witness_TransferAndTranslation_5_alt3.xlt.invalidating = []) :=
  ⟨starts_of (by decide +kernel), by decide +kernel, by decide +kernel, by decide +kernel, by decide +kernel⟩
/-- A TLB entry of slice 1's PASID 5 that leads outside the stacks. -/
def entry1 : TlbEntry := { set := 1, pasid := 5, page := 0x1000, log2 := 12, ia := 0x1000, oa := 2 ^ 51 + 0x5000, read := true, write := true, shared := true, lastUse := 0 }
def witness_TransferAndTranslation_6_s : Machine.State := { base with xlt := { base.xlt with tlb := [entry1] } }
theorem witness_TransferAndTranslation_6 :
    (1 ≤ 16) ∧
    (List.find? (fun e => e.hits (dmaReq (1#5) (5#20) true (4112#64) true false false none)) witness_TransferAndTranslation_6_s.xlt.tlb = some entry1) ∧
    (permits entry1.read entry1.write (dmaReq (1#5) (5#20) true (4112#64) true false false none) = true) ∧
    (admitOa witness_TransferAndTranslation_6_s 1 (entry1.oa + (4112 - entry1.page))
        (isPrivate (dmaReq (1#5) (5#20) true (4112#64) true false false none) entry1.shared) false =
      none) :=
  ⟨by decide +kernel, by decide +kernel, by decide +kernel, by decide +kernel⟩
/-- Slice 1's interface runs. -/
def walkBase : State := { base with tdi := base.tdi.set 1 2 }
/-- A walk of slice 1 at its last level. -/
def walk1 : Walk := { req := dmaReq 1 5 true 0x1010 true false false none, joined := [], phase := 2, level1 := 3, level2 := 3, base := 0, target := 0x9010, leaf1 := none }
def walking (w : Walk) (s : State) : State := { s with xlt := { s.xlt with walkers := s.xlt.walkers.set 7 (some w) } }
/-- Its last descriptor, and the leaf that it gives. -/
def descriptor1 : BitVec 64 := BitVec.ofNat 64 (2 ^ 51 + 0x5000 + 15)
def leaf1 : Leaf × Nat := match walkStep (walking walk1 walkBase) walk1 descriptor1.toNat with | .ok (.inr p) => p | _ => ({ input := 0, output := 0, log2 := 0, read := false, write := false, shared := false }, 0)
theorem witness_TransferAndTranslation_8 :
    ((walking walk1 walkBase).xlt.walkers.get 7 = some walk1) ∧
    (walkStep (walking walk1 walkBase) walk1 descriptor1.toNat = Except.ok (Sum.inr (leaf1.fst, leaf1.snd))) ∧
    (walk1.joined = []) ∧
    (walk1.leaf1 = none) ∧
    (permits leaf1.fst.read leaf1.fst.write walk1.req = true) ∧
    ((walking walk1 walkBase).xlt.waiting = []) ∧
    ((walking walk1 walkBase).xlt.invalidating = []) ∧
    (admitOa (walking walk1 walkBase) walk1.req.set
        ((combine walk1 leaf1.fst (walking walk1 walkBase).xlt.useCtr).oa +
          (walk1.req.bva - (combine walk1 leaf1.fst (walking walk1 walkBase).xlt.useCtr).page))
        (isPrivate walk1.req (combine walk1 leaf1.fst (walking walk1 walkBase).xlt.useCtr).shared) walk1.req.write =
      none) :=
  ⟨by decide +kernel, (rfl), by decide +kernel, by decide +kernel, by decide +kernel, by decide +kernel, by decide +kernel, by decide +kernel⟩
/-- A walk at level 1, whose descriptor leads to a table. -/
def walk0 : Walk := { walk1 with level2 := 1 }
/-- A table descriptor, and the walk after it. -/
def descriptor0 : BitVec 64 := BitVec.ofNat 64 (2 ^ 51 + 0x5000 + 1)
def next0 : Walk := match walkStep (walking walk0 walkBase) walk0 descriptor0.toNat with | .ok (.inl w) => w | _ => walk0
theorem witness_TransferAndTranslation_7 :
    ((walking walk0 walkBase).xlt.walkers.get 7 = some walk0) ∧
    (walkStep (walking walk0 walkBase) walk0 descriptor0.toNat = Except.ok (Sum.inl next0)) ∧
    (checkRead (walking walk0 walkBase) next0 = none) :=
  ⟨by decide +kernel, (rfl), by decide +kernel⟩
theorem witness_TransferAndTranslation_9 :
    (base.rcv.fwRunning = true) ∧
    (mayWrite Principal.hostk [1] base = true) ∧
    (1 ≤ 16) ∧
    (1 < 16 → tdiLocked base 1 = false) ∧
    (20481 = baseOf 20481 + 20481 % 2) ∧
    (∀ (i : Nat), i < 8 → base.xlt.walkers.get i = none) ∧
    (base.xlt.waiting = []) :=
  ⟨by decide +kernel, by decide +kernel, by decide +kernel, by decide +kernel, by decide +kernel, (by decide +kernel), by decide +kernel⟩
theorem witness_TransferAndTranslation_9_alt2 :
    (base.rcv.fwRunning = true) ∧
    (mayWrite Principal.hostk [1] base = true) ∧
    (16 ≤ 16) ∧
    (16 < 16 → tdiLocked base 16 = false) ∧
    (20480 = baseOf 20480 + 20480 % 2) ∧
    (∀ (i : Nat), i < 8 → base.xlt.walkers.get i = none) ∧
    (base.xlt.waiting = []) :=
  ⟨by decide +kernel, by decide +kernel, by decide +kernel, by decide +kernel, by decide +kernel, by decide +kernel, by decide +kernel⟩
theorem witness_TransferAndTranslation_10 :
    (base.rcv.fwRunning = true) ∧
    (mayWrite (Principal.slice 1#4) [1, 5] base = true) ∧
    (1 < 16) ∧
    (∀ (m : BitVec 4), Principal.slice 1#4 = Principal.slice m → m.toNat = 1) ∧
    (Principal.slice 1#4 = Principal.hostk → tdiLocked base 1 = false) ∧
    (20481 = baseOf 20481 + 20481 % 2) ∧
    (∀ (i : Nat), i < 8 → base.xlt.walkers.get i = none) ∧
    (base.xlt.waiting = []) :=
  ⟨by decide +kernel, by decide +kernel, by decide +kernel, by decide +kernel, by decide +kernel, by decide +kernel, by decide +kernel, by decide +kernel⟩
theorem witness_TransferAndTranslation_10_alt2 :
    (base.rcv.fwRunning = true) ∧
    (mayWrite Principal.hostk [1, 5] base = true) ∧
    (15 < 16) ∧
    (∀ (m : BitVec 4), Principal.hostk = Principal.slice m → m.toNat = 15) ∧
    (Principal.hostk = Principal.hostk → tdiLocked base 15 = false) ∧
    (20481 = baseOf 20481 + 20481 % 2) ∧
    (∀ (i : Nat), i < 8 → base.xlt.walkers.get i = none) ∧
    (base.xlt.waiting = []) :=
  ⟨by decide +kernel, by decide +kernel, by decide +kernel, by decide +kernel, by decide +kernel, by decide +kernel, by decide +kernel, by decide +kernel⟩
theorem witness_TransferAndTranslation_11 :
    (base.rcv.fwRunning = true) ∧
    (mayWrite Principal.hostk [1, 4] base = true) :=
  ⟨by decide +kernel, by decide +kernel⟩

end Sys2Proof.Tests
end

