-- ==== Sys2Proof/Tests/WitnessSystem.lean ====
section
/-!
SUPPORT. States that meet the hypotheses of the statements about recovery, the sentinel, the vault and the supplies, the life cycle and
debug, observation, start-up, the slot wheel and the whole machine.
-/
set_option Elab.async false
namespace Sys2Proof.Tests
open Sys2Proof Sys2Proof.Machine

/-! ### Recovery -/

theorem witness_Recovery_0 :
    (base.lcc.decoded = true) ∧
    (mayWrite Principal.hostk [0, 1] base = true) ∧
    (base.rcv.chipResetReq = false) ∧
    (base.rcv.powerCycleReq = false) :=
  ⟨by decide +kernel, by decide +kernel, by decide +kernel, by decide +kernel⟩
/-- A chip reset is requested. -/
def chipReq : State := { base with rcv := { base.rcv with chipResetReq := true, pendingCause := 1 } }
theorem witness_Recovery_1 :
    (chipReq.rcv.chipResetReq = true) ∧
    (chipReq.rcv.powerCycleReq = false) :=
  ⟨by decide +kernel, by decide +kernel⟩
theorem witness_Recovery_2_0 :
    (base.lcc.decoded = true) ∧
    (mayWrite Principal.hostk [0, 1] base = true) :=
  ⟨by decide +kernel, by decide +kernel⟩
theorem witness_Recovery_2_1 :
    (base.lcc.decoded = true) ∧
    (mayWrite Principal.tray [0, 1] base = true) ∧
    ((0 + 2 ^ 32 - base.rcv.consumed) % 2 ^ 32 ≤ unconsumed base.rcv) :=
  ⟨by decide +kernel, by decide +kernel, by decide +kernel⟩
def witness_Recovery_3_s : Machine.State := { base with lcc := { base.lcc with scopes := 1 } }
theorem witness_Recovery_3 :
    (witness_Recovery_3_s.lcc.decoded = true) ∧
    (mayWrite Principal.dbg [0, 1, 3] witness_Recovery_3_s = true) :=
  ⟨by decide +kernel, by decide +kernel⟩
theorem witness_Recovery_4 :
    (base.rcv.fwRunning = true) ∧
    (mayWrite Principal.fw [4] base = true) :=
  ⟨by decide +kernel, by decide +kernel⟩
theorem witness_Recovery_5 :
    (armed base 9 = true) :=
  by decide +kernel
def witness_Recovery_6_0_units : List (BitVec 256) := []
theorem witness_Recovery_6_0 :
    (armed chipReq 9 = true) ∧
    (chipReq.rcv.chipResetReq = true ∨ chipReq.rcv.powerCycleReq = true) :=
  ⟨by decide +kernel, by decide +kernel⟩
def witness_Recovery_6_1_units : List (BitVec 256) := []
theorem witness_Recovery_6_1 :
    (armed base 9 = true) ∧
    (base.rcv.chipResetReq = false) ∧
    (base.rcv.powerCycleReq = false) ∧
    (1 < 9) ∧
    (sharedEngine 9 = false) :=
  ⟨by decide +kernel, by decide +kernel, by decide +kernel, by decide +kernel, by decide +kernel⟩
def witness_Recovery_6_2_units : List (BitVec 256) := []
theorem witness_Recovery_6_2 :
    (armed base 8 = true) ∧
    (base.rcv.chipResetReq = false) ∧
    (base.rcv.powerCycleReq = false) ∧
    (within base (base.rcv.hist.get 8).engineAt escalateNs = false) ∧
    (8 ≤ 1 ∧ (base.rcv.hist.get (1 - 8)).resetting = false ∨
      sharedEngine 8 = true ∧ 0#16 = 0#16 ∧ within base (base.rcv.hist.get 8).partitionAt escalateNs = false ∧ (base.rcv.hist.get 8).killing = none) :=
  ⟨by decide +kernel, by decide +kernel, by decide +kernel, by decide +kernel, by decide +kernel⟩
def witness_Recovery_6_2_alt2_units : List (BitVec 256) := []
theorem witness_Recovery_6_2_alt2 :
    (armed base 0 = true) ∧
    (base.rcv.chipResetReq = false) ∧
    (base.rcv.powerCycleReq = false) ∧
    (within base (base.rcv.hist.get 0).engineAt escalateNs = false) ∧
    (0 ≤ 1 ∧ (base.rcv.hist.get (1 - 0)).resetting = false ∨
      sharedEngine 0 = true ∧ 33#16 = 0#16 ∧ within base (base.rcv.hist.get 0).partitionAt escalateNs = false ∧ (base.rcv.hist.get 0).killing = none) :=
  ⟨by decide +kernel, by decide +kernel, by decide +kernel, by decide +kernel, by decide +kernel⟩
def witness_Recovery_6_3_units : List (BitVec 256) := []
theorem witness_Recovery_6_3 :
    (armed base 8 = true) ∧
    (base.rcv.chipResetReq = false) ∧
    (base.rcv.powerCycleReq = false) ∧
    (sharedEngine 8 = true) ∧
    (33#16 ≠ 0#16) ∧
    (within base (base.rcv.hist.get 8).partitionAt escalateNs = false) ∧
    (within base (base.rcv.hist.get 8).engineAt escalateNs = false) ∧
    ((base.rcv.hist.get 8).killing = none) ∧
    ((base.cex.kills.any fun k => k.snd == 33) = false) :=
  ⟨by decide +kernel, by decide +kernel, by decide +kernel, by decide +kernel, by decide +kernel, by decide +kernel, by decide +kernel, by decide +kernel, by decide +kernel⟩
def witness_Recovery_7_0_units : List (BitVec 256) := []
theorem witness_Recovery_7_0 :
    (chipReq.boot.inReset = false) ∧
    ((chipReq.lcc.harts.get (b2n true)).halted = false) ∧
    (chipReq.rcv.chipResetReq = true ∨ chipReq.rcv.powerCycleReq = true) :=
  ⟨by decide +kernel, by decide +kernel, by decide +kernel⟩
def witness_Recovery_7_1_units : List (BitVec 256) := []
theorem witness_Recovery_7_1 :
    (base.boot.inReset = false) ∧
    ((base.lcc.harts.get (b2n true)).halted = false) ∧
    (base.rcv.chipResetReq = false) ∧
    (base.rcv.powerCycleReq = false) ∧
    ((base.rcv.hist.get (1 - b2n true)).resetting = false) ∧
    (within base (base.rcv.hist.get (b2n true)).engineAt escalateNs = false) :=
  ⟨by decide +kernel, by decide +kernel, by decide +kernel, by decide +kernel, by decide +kernel, by decide +kernel⟩
theorem witness_Recovery_8 :
    (11 < 12) ∧
    (∀ (x : Nat), base.rcv.hostStallAt.get 11 = some x → x + 1000000000 ≤ base.now) :=
  ⟨by decide +kernel, (by intro x h; cases h)⟩
/-- A shared engine in the middle of a context kill. -/
def killingUnit : State := { base with rcv := { base.rcv with hist := base.rcv.hist.set 8 { base.rcv.hist.get 8 with killing := some 0x21 } } }
theorem witness_Recovery_9 :
    (sharedEngine 8 = true) ∧
    ((killingUnit.rcv.hist.get 8).killing.isSome = true) ∧
    (killingUnit.kwe.current = none) :=
  ⟨by decide +kernel, by decide +kernel, by decide +kernel⟩
/-- A request at the key wrap engine of a context that is killed. -/
def kweReq : KweReq := { who := 1, op := .generate, src := 32, dst := .buffer, ctx := 0x21, dead := false }
def kweKill : State := { base with kwe := { base.kwe with current := some kweReq }, cex := { base.cex with kills := [(some key0, 0x21)] } }
theorem witness_Recovery_10 :
    (kweKill.kwe.current = some kweReq) ∧
    ((kweKill.cex.kills.any fun k => k.snd == kweReq.ctx) = true) :=
  ⟨by decide +kernel, by decide +kernel⟩
/-- An engine in reset. -/
def resettingUnit (n : Nat) : State := { base with rcv := { base.rcv with hist := base.rcv.hist.set n { base.rcv.hist.get n with resetting := true } } }
theorem witness_Recovery_11 :
    (((resettingUnit 8).rcv.hist.get 8).resetting = true) :=
  by decide +kernel

/-! ### The sentinel -/

theorem witness_Sentinel_0_0 :
    (2 < canaries 3) ∧
    (↑255 * 256 < (base.sen.units.get 3).mu.get 2 - (8 * (base.sen.units.get 3).d.get 2 + 2 * 256) ∨
      (base.sen.units.get 3).mu.get 2 + (8 * (base.sen.units.get 3).d.get 2 + 2 * 256) < ↑255 * 256) :=
  ⟨by decide +kernel, by decide +kernel⟩
/-- Canary 2 of unit 3 has settled at 100. -/
def settled : State := { base with sen := { base.sen with units := base.sen.units.set 3 { base.sen.units.get 3 with mu := Tbl.const 25600, d := Tbl.const 256 } } }
theorem witness_Sentinel_0_1 :
    (2 < canaries 3) ∧
    ((settled.sen.units.get 3).mu.get 2 - (8 * (settled.sen.units.get 3).d.get 2 + 2 * 256) ≤ ↑101 * 256) ∧
    (↑101 * 256 ≤ (settled.sen.units.get 3).mu.get 2 + (8 * (settled.sen.units.get 3).d.get 2 + 2 * 256)) ∧
    ((settled.sen.units.get 3).frozenAt = none) :=
  ⟨by decide +kernel, by decide +kernel, by decide +kernel, by decide +kernel⟩
theorem witness_Sentinel_0_0_alt2 :
    (2 < canaries 3) ∧
    (↑0 * 256 < (settled.sen.units.get 3).mu.get 2 - (8 * (settled.sen.units.get 3).d.get 2 + 2 * 256) ∨
      (settled.sen.units.get 3).mu.get 2 + (8 * (settled.sen.units.get 3).d.get 2 + 2 * 256) < ↑0 * 256) :=
  ⟨by decide +kernel, by decide +kernel⟩
def witness_Sentinel_1_1_codes : List (BitVec 8) := [1, 2, 3, 4, 5, 6, 7]
theorem witness_Sentinel_1_1 :
    (witness_Sentinel_1_1_codes.length < 8) :=
  by decide +kernel
theorem witness_Sentinel_3 :
    (2#2 ≠ 3#2) :=
  by decide +kernel
theorem witness_Sentinel_5 :
    (2#2 ≠ 3#2) :=
  by decide +kernel
/-- Tamper input 1 is enabled and has read active fifteen times. -/
def tampered : State := { base with pins := { base.pins with applied := base.pins.applied.set 6 15 }, tamperIn := base.tamperIn.set 1 { samples := List.replicate 15 true } }
theorem witness_Sentinel_6 :
    (tampered.clk.vaultRunning = true) ∧
    (tamperEnabled 1 tampered = true) :=
  ⟨by decide +kernel, by decide +kernel⟩
/-- A latched input that has been quiet. -/
def latchedQuiet : State := { base with tamperIn := base.tamperIn.set 1 { latched := true, quiet := 32 } }
theorem witness_Sentinel_7 :
    (latchedQuiet.lcc.decoded = true) ∧
    (mayWrite Principal.hostk [0, 1] latchedQuiet = true) ∧
    (32 ≤ (latchedQuiet.tamperIn.get 1).quiet) :=
  ⟨by decide +kernel, by decide +kernel, by decide +kernel⟩

/-! ### The vault and the supplies -/

theorem witness_VaultAndSupply_0 :
    (vaultRuns base = true) :=
  by decide +kernel
theorem witness_VaultAndSupply_1_0 :
    (vaultRuns base = true) ∧
    (2199 < 2200 ∨ 3800 < 2199) :=
  ⟨by decide +kernel, by decide +kernel⟩
theorem witness_VaultAndSupply_1_0_alt2 :
    (vaultRuns base = true) ∧
    (3801 < 2200 ∨ 3800 < 3801) :=
  ⟨by decide +kernel, by decide +kernel⟩
theorem witness_VaultAndSupply_1_1 :
    (vaultRuns base = true) ∧
    (549 < 550 ∨ 900 < 549) :=
  ⟨by decide +kernel, by decide +kernel⟩
theorem witness_VaultAndSupply_1_1_alt2 :
    (vaultRuns base = true) ∧
    (901 < 550 ∨ 900 < 901) :=
  ⟨by decide +kernel, by decide +kernel⟩
theorem witness_VaultAndSupply_2 :
    (vaultRuns base = true) :=
  by decide +kernel
theorem witness_VaultAndSupply_3 :
    ((vaultTrigger 3 base).vault.trigger ≠ 0) ∧
    ((vaultTrigger 3 base).vault.state ≠ 2) ∧
    ((vaultTrigger 3 base).kst.dflt = { key := 0#256, attr := 0#64, binding := 281470681743360#64, wrapId := 0#128 : Slot }) :=
  ⟨by decide +kernel, by decide +kernel, by decide +kernel⟩
/-- The vault zeroizes. -/
def zeroizing : State := { base with vault := { base.vault with state := 2, cause := 8 } }
theorem witness_VaultAndSupply_4 :
    (zeroizing.vault.state = 2) ∧
    (zeroizing.lcc.progress ≠ 2) ∧
    (zeroizing.lcc.progress ≠ 3) :=
  ⟨by decide +kernel, by decide +kernel, by decide +kernel⟩
theorem witness_VaultAndSupply_5 :
    (base.lcc.decoded = true) ∧
    (mayWrite Principal.hostk [0, 1] base = true) ∧
    (base.vault.state ≠ 2) :=
  ⟨by decide +kernel, by decide +kernel, by decide +kernel⟩
/-- Some supplies are up. -/
def railed (n : Nat) : State := { base with pins := { base.pins with rails := n } }
theorem witness_VaultAndSupply_6_1 :
    (bit (railed 0).pins.rails 4 = false) :=
  by decide +kernel
def witness_VaultAndSupply_7_straps : List (BitVec 8) := List.replicate 8 0xFF
theorem witness_VaultAndSupply_7 :
    (bit base.pins.rails 4 = true) ∧
    (base.pins.strapTaken = false) :=
  ⟨by decide +kernel, by decide +kernel⟩
theorem witness_VaultAndSupply_8_0 :
    (0 < 7) ∧
    (bit base.pins.rails 0 = true) ∧
    (0 < 3) :=
  ⟨by decide +kernel, by decide +kernel, by decide +kernel⟩
theorem witness_VaultAndSupply_8_0_alt2 :
    (2 < 7) ∧
    (bit base.pins.rails 2 = true) ∧
    (2 < 3) :=
  ⟨by decide +kernel, by decide +kernel, by decide +kernel⟩
theorem witness_VaultAndSupply_8_1 :
    (3 < 7) ∧
    (bit base.pins.rails 3 = true) ∧
    (3 = 3) :=
  ⟨by decide +kernel, by decide +kernel, by decide +kernel⟩
theorem witness_VaultAndSupply_8_2 :
    (4 < 7) ∧
    (bit (railed 16).pins.rails 4 = true) ∧
    (4 = 4) ∧
    (bit (railed 16).pins.rails 5 = false) :=
  ⟨by decide +kernel, by decide +kernel, by decide +kernel, by decide +kernel⟩
theorem witness_VaultAndSupply_8_3 :
    (4 < 7) ∧
    (bit base.pins.rails 4 = true) ∧
    (4 = 4) ∧
    (bit base.pins.rails 5 = true) :=
  ⟨by decide +kernel, by decide +kernel, by decide +kernel, by decide +kernel⟩
theorem witness_VaultAndSupply_8_4 :
    (5 < 7) ∧
    (bit base.pins.rails 5 = true) ∧
    (5 = 5) ∧
    (bit base.pins.rails 4 = true) :=
  ⟨by decide +kernel, by decide +kernel, by decide +kernel, by decide +kernel⟩

/-! ### Life cycle and debug -/

/-- The block in a state of its life cycle, in no domain. -/
def inLife (st : Nat) : State := { base with lcc := { base.lcc with state := st }, dom := State.reset.dom }
/-- A request of a transition without a token. -/
def lcAsked (st : Nat) : Bytes := BitVec.ofNat 8 st :: List.replicate 19 0 ++ [0x4C, 0x43, 0x54, 0x52]
theorem witness_LifeCycleAndDebug_0_0 :
    ((inLife 64).lcc.decoded = true) ∧
    (mayWrite Principal.hostk [0, 1, 3] (inLife 64) = true) ∧
    ([1].length ≠ 24) :=
  ⟨by decide +kernel, by decide +kernel, by decide +kernel⟩
theorem witness_LifeCycleAndDebug_0_1 :
    ((inLife 64).lcc.decoded = true) ∧
    (mayWrite Principal.hostk [0, 1, 3] (inLife 64) = true) ∧
    (List.length (lcAsked 80) = 24) :=
  ⟨by decide +kernel, by decide +kernel, by decide +kernel⟩
theorem witness_LifeCycleAndDebug_0_1_alt2 :
    ((inLife 64).lcc.decoded = true) ∧
    (mayWrite Principal.tray [0, 1, 3] (inLife 64) = true) ∧
    (List.length (lcAsked 16) = 24) :=
  ⟨by decide +kernel, by decide +kernel, by decide +kernel⟩
theorem witness_LifeCycleAndDebug_1_0 :
    (tapOffers (inLife 112).lcc.state TapInstr.lcRegister = false) :=
  by decide +kernel
theorem witness_LifeCycleAndDebug_1_1 :
    (tapOffers (inLife 16).lcc.state TapInstr.idcode = true) ∧
    (TapInstr.idcode ≠ TapInstr.lcRegister) :=
  ⟨by decide +kernel, by decide +kernel⟩
theorem witness_LifeCycleAndDebug_1_2 :
    (testLocked (inLife 32).lcc.state = true ∨ testUnlocked (inLife 32).lcc.state = true) ∧
    (List.length (lcAsked 16) = 24) ∧
    (lcRefusal (inLife 32) (lcAsked 16) = 0) :=
  ⟨by decide +kernel, by decide +kernel, by decide +kernel⟩
/-- A transition to a state has reached a place. -/
def progressed (p target : Nat) : State := { inLife 0x40 with lcc := { (inLife 0x40).lcc with progress := p, target } }
theorem witness_LifeCycleAndDebug_2_0 :
    ((progressed 1 80).lcc.progress = 1) :=
  by decide +kernel
theorem witness_LifeCycleAndDebug_2_0_alt2 :
    ((progressed 1 112).lcc.progress = 1) :=
  by decide +kernel
theorem witness_LifeCycleAndDebug_2_0_alt3 :
    ((progressed 1 64).lcc.progress = 1) :=
  by decide +kernel
theorem witness_LifeCycleAndDebug_2_1 :
    ((progressed 3 80).lcc.progress = 3) :=
  by decide +kernel
theorem witness_LifeCycleAndDebug_2_2 :
    ((progressed 0 80).lcc.progress ≠ 1) ∧
    ((progressed 0 80).lcc.progress ≠ 3) :=
  ⟨by decide +kernel, by decide +kernel⟩
theorem witness_LifeCycleAndDebug_3_0 :
    ((inLife 48).lcc.decoded = true) ∧
    (mayWrite Principal.hostk [0, 1] (inLife 48) = true) ∧
    (32 ≤ 32) :=
  ⟨by decide +kernel, by decide +kernel, by decide +kernel⟩
theorem witness_LifeCycleAndDebug_3_1 :
    ((inLife 48).lcc.decoded = true) ∧
    (mayWrite Principal.hostk [0, 1] (inLife 48) = true) ∧
    (0 = 0) :=
  ⟨by decide +kernel, by decide +kernel, by decide +kernel⟩
theorem witness_LifeCycleAndDebug_3_2 :
    ((inLife 112).lcc.decoded = true) ∧
    (mayWrite Principal.hostk [0, 1] (inLife 112) = true) ∧
    (0 < 31) ∧
    (31 < 32) ∧
    (subset 31 ((aloneScopes (inLife 112).lcc.state).lor (molnorScopes (inLife 112).lcc.state)) = false) :=
  ⟨by decide +kernel, by decide +kernel, by decide +kernel, by decide +kernel, by decide +kernel⟩
def witness_LifeCycleAndDebug_3_3_0_s : Machine.State := { base with lcc := { base.lcc with state := 0x30 } }
theorem witness_LifeCycleAndDebug_3_3_0 :
    (witness_LifeCycleAndDebug_3_3_0_s.lcc.decoded = true) ∧
    (mayWrite Principal.hostk [0, 1] witness_LifeCycleAndDebug_3_3_0_s = true) ∧
    (0 < 3) ∧
    (3 < 32) ∧
    (subset 3 ((aloneScopes witness_LifeCycleAndDebug_3_3_0_s.lcc.state).lor (molnorScopes witness_LifeCycleAndDebug_3_3_0_s.lcc.state)) = true) ∧
    (noDomain witness_LifeCycleAndDebug_3_3_0_s = false) :=
  ⟨by decide +kernel, by decide +kernel, by decide +kernel, by decide +kernel, by decide +kernel, by decide +kernel⟩
theorem witness_LifeCycleAndDebug_3_3_1 :
    ((inLife 48).lcc.decoded = true) ∧
    (mayWrite Principal.hostk [0, 1] (inLife 48) = true) ∧
    (0 < 3) ∧
    (3 < 32) ∧
    (subset 3 ((aloneScopes (inLife 48).lcc.state).lor (molnorScopes (inLife 48).lcc.state)) = true) ∧
    (noDomain (inLife 48) = true) ∧
    (subset 3 (aloneScopes (inLife 48).lcc.state) = true) :=
  ⟨by decide +kernel, by decide +kernel, by decide +kernel, by decide +kernel, by decide +kernel, by decide +kernel, by decide +kernel⟩
theorem witness_LifeCycleAndDebug_3_3_2 :
    ((inLife 48).lcc.decoded = true) ∧
    (mayWrite Principal.hostk [0, 1] (inLife 48) = true) ∧
    (0 < 8) ∧
    (8 < 32) ∧
    (subset 8 ((aloneScopes (inLife 48).lcc.state).lor (molnorScopes (inLife 48).lcc.state)) = true) ∧
    (noDomain (inLife 48) = true) ∧
    (subset 8 (aloneScopes (inLife 48).lcc.state) = false) :=
  ⟨by decide +kernel, by decide +kernel, by decide +kernel, by decide +kernel, by decide +kernel, by decide +kernel, by decide +kernel⟩
theorem witness_LifeCycleAndDebug_4 :
    ((inLife 48).lcc.decoded = true) ∧
    (mayWrite Principal.hostk [0, 1] (inLife 48) = true) :=
  ⟨by decide +kernel, by decide +kernel⟩
def witness_LifeCycleAndDebug_5_s : Machine.State := { inLife 0x30 with lcc := { (inLife 0x30).lcc with scopes := 8 }, vault := { base.vault with state := 1 } }
theorem witness_LifeCycleAndDebug_5 :
    (witness_LifeCycleAndDebug_5_s.lcc.decoded = true) ∧
    (mayWrite Principal.hostk [0, 1] witness_LifeCycleAndDebug_5_s = true) :=
  ⟨by decide +kernel, by decide +kernel⟩
/-- Scopes are open. -/
def scopesOpen (n : Nat) : State := { base with lcc := { base.lcc with scopes := n } }
theorem witness_LifeCycleAndDebug_6_0 :
    ((scopesOpen 1).lcc.decoded = true) ∧
    (mayWrite Principal.dbg [3] (scopesOpen 1) = true) ∧
    (bit (scopesOpen 1).lcc.scopes 1 = false) :=
  ⟨by decide +kernel, by decide +kernel, by decide +kernel⟩
theorem witness_LifeCycleAndDebug_6_1 :
    ((scopesOpen 3).lcc.decoded = true) ∧
    (mayWrite Principal.dbg [3] (scopesOpen 3) = true) ∧
    (bit (scopesOpen 3).lcc.scopes 1 = true) :=
  ⟨by decide +kernel, by decide +kernel, by decide +kernel⟩
def witness_LifeCycleAndDebug_6_1_alt2_s : Machine.State := { scopesOpen 3 with lcc := { (scopesOpen 3).lcc with dmActive := true } }
theorem witness_LifeCycleAndDebug_6_1_alt2 :
    (witness_LifeCycleAndDebug_6_1_alt2_s.lcc.decoded = true) ∧
    (mayWrite Principal.dbg [3] witness_LifeCycleAndDebug_6_1_alt2_s = true) ∧
    (bit witness_LifeCycleAndDebug_6_1_alt2_s.lcc.scopes 1 = true) :=
  ⟨by decide +kernel, by decide +kernel, by decide +kernel⟩
theorem witness_LifeCycleAndDebug_7_0 :
    (testUnlocked (inLife 64).lcc.state = false) ∧
    (TapInstr.debug = TapInstr.debug) :=
  ⟨by decide +kernel, by decide +kernel⟩
theorem witness_LifeCycleAndDebug_7_1 :
    (testUnlocked (inLife 32).lcc.state = true) :=
  by decide +kernel
theorem witness_LifeCycleAndDebug_8_0 :
    (bit (scopesOpen 2).lcc.scopes 1 = true ∧
      ((scopesOpen 2).lcc.harts.get (b2n false)).halted = false ∧ ((scopesOpen 2).rcv.hist.get (b2n false)).resetting = false) :=
  by decide +kernel
theorem witness_LifeCycleAndDebug_8_1 :
    (¬(bit (scopesOpen 0).lcc.scopes 1 = true ∧
        ((scopesOpen 0).lcc.harts.get (b2n false)).halted = false ∧ ((scopesOpen 0).rcv.hist.get (b2n false)).resetting = false)) :=
  by decide +kernel

/-! ### Observation -/

theorem witness_Observation_0_0 :
    (base.lcc.decoded = true) ∧
    (mayWrite Principal.hostk [0, 1, 3, 4] base = true) ∧
    (∀ (i : Nat), i < 96 → bit 5 i = true → (base.obs.counters.get i).fst < 255) :=
  ⟨by decide +kernel, by decide +kernel, by decide +kernel⟩
/-- Counter 2 is at its last epoch. -/
def lastEpoch : State := { base with obs := { base.obs with counters := base.obs.counters.set 2 (255, 7) } }
theorem witness_Observation_0_1 :
    (lastEpoch.lcc.decoded = true) ∧
    (mayWrite Principal.hostk [0, 1, 3, 4] lastEpoch = true) ∧
    (2 < 96) ∧
    (4#96 = BitVec.ofNat 96 (2 ^ 2)) ∧
    ((lastEpoch.obs.counters.get 2).fst = 255) :=
  ⟨by decide +kernel, by decide +kernel, by decide +kernel, by decide +kernel, by decide +kernel⟩
theorem witness_Observation_1 :
    (base.lcc.decoded = true) ∧
    (mayWrite Principal.fw [0, 1, 3, 4] base = true) :=
  ⟨by decide +kernel, by decide +kernel⟩
theorem witness_Observation_2_0 :
    ((scopesOpen 5).rcv.fwRunning = true) ∧
    (mayWrite Principal.dbg [3] (scopesOpen 5) = true) ∧
    (traceOpen (scopesOpen 5) = true) ∧
    ((scopesOpen 5).obs.syncInterval ≠ 0) :=
  ⟨by decide +kernel, by decide +kernel, by decide +kernel, by decide +kernel⟩
theorem witness_Observation_2_1 :
    ((scopesOpen 1).rcv.fwRunning = true) ∧
    (mayWrite Principal.dbg [3] (scopesOpen 1) = true) ∧
    (traceOpen (scopesOpen 1) = false) :=
  ⟨by decide +kernel, by decide +kernel, by decide +kernel⟩
/-- A capture runs. -/
def traced : State := nx (execTraceArm .dbg true (scopesOpen 5))
theorem witness_Observation_2_2 :
    (traced.rcv.fwRunning = true) ∧
    (mayWrite Principal.dbg [3] traced = true) ∧
    (traceOpen traced = true) ∧
    (traced.obs.state = 1) ∧
    (traced.obs.writeIndex < 8191) ∧
    (traced.obs.fired.get 4 = false) :=
  ⟨by decide +kernel, by decide +kernel, by decide +kernel, by decide +kernel, by decide +kernel, by decide +kernel⟩
theorem witness_Observation_2_3 :
    ((scopesOpen 1).rcv.fwRunning = true) ∧
    (mayWrite Principal.dbg [3] (scopesOpen 1) = true) :=
  ⟨by decide +kernel, by decide +kernel⟩
theorem witness_Observation_3 :
    (traced.rcv.fwRunning = true) ∧
    (mayWrite Principal.fw [4] traced = true) ∧
    (traceOpen traced = true) ∧
    (traced.obs.state = 1) ∧
    (traced.obs.writeIndex < 8191) ∧
    (∀ (i : Nat), i < 4 → (traced.obs.trig.get i).kind ≠ 4) :=
  ⟨by decide +kernel, by decide +kernel, by decide +kernel, by decide +kernel, by decide +kernel, by decide +kernel⟩
def witness_Observation_4_0_l : List (Bool × BitVec 64 × BitVec 2 × BitVec 16) := [(true, 7, 1, 2)]
theorem witness_Observation_4_0 :
    (base.obs.state = 0 ∨ traceOpen base = false) :=
  by decide +kernel
theorem witness_Observation_4_1 :
    (traced.obs.state = 1) ∧
    (traceOpen traced = true) ∧
    (traced.obs.writeIndex < 8191) ∧
    (∀ (i : Nat), i < 4 → (traced.obs.trig.get i).kind ≠ 3 ∧ (traced.obs.trig.get i).kind ≠ 1) ∧
    (bit traced.obs.pcSelect (b2n true) = true) ∧
    ((traced.rcv.hist.get (b2n true)).resetting = false) :=
  ⟨by decide +kernel, by decide +kernel, by decide +kernel, by decide +kernel, by decide +kernel, by decide +kernel⟩

/-! ### Start-up -/

/-- The block in chip reset with its supplies up, in a state that boots. -/
def inReset : State := { State.reset with
  pins := { State.reset.pins with rails := 0x3F, strapTaken := true },
  lcc := { State.reset.lcc with words := ((Tbl.const 0).set 0 (BitVec.ofNat 32 lcPattern)).set 1 (BitVec.ofNat 32 lcPattern) |>.set 17 (BitVec.ofNat 32 lcPattern) } }
def witness_StartUp_0_0_straps : List (BitVec 8) := []
def witness_StartUp_0_0_kat : Option (BitVec 8) := none
theorem witness_StartUp_0_0 :
    (mayRelease (takeRails 0 State.reset) = false) :=
  by decide +kernel
def witness_StartUp_0_1_straps : List (BitVec 8) := []
def witness_StartUp_0_1_kat : Option (BitVec 8) := some 3
theorem witness_StartUp_0_1 :
    (mayRelease (takeRails 63 inReset) = true) :=
  by decide +kernel
theorem witness_StartUp_1_0 :
    (inReset.boot.fetching = false) :=
  by decide +kernel
/-- A fetch of the image waits. -/
def fetching : State := { inReset with boot := { inReset.boot with inReset := false, step := 6, fetching := true } }
/-- An image. -/
def image0 : FwImage := { header := [], sig := [], image := [1] }
def noImage : Option FwImage := none
theorem witness_StartUp_1_1 :
    (Tests.fetching.boot.fetching = true) ∧
    (noImage = none) :=
  ⟨by decide +kernel, by decide +kernel⟩
theorem witness_StartUp_1_2 :
    (Tests.fetching.boot.fetching = true) ∧
    (some image0 = some image0) :=
  ⟨by decide +kernel, by decide +kernel⟩
/-- The values of the firmware's table. -/
def ect0 : EctValues := { version := 1, hostId := 2, stackPeak := 3, portPeak := 4, decodeG := 7, decodeK := 8, decodeMap := [], adjacency := none, classMap := [], filters := [], clocks := [] }
theorem witness_StartUp_2_0 :
    (inReset.boot.step ≠ 8 ∨ inReset.rcv.fwRunning = true) :=
  by decide +kernel
def witness_StartUp_2_1_s : Machine.State := { inReset with boot := { inReset.boot with inReset := false, step := 8 } }
theorem witness_StartUp_2_1 :
    (witness_StartUp_2_1_s.boot.step = 8) ∧
    (witness_StartUp_2_1_s.rcv.fwRunning = false) :=
  ⟨by decide +kernel, by decide +kernel⟩

/-! ### The slot wheel -/

def witness_SlotsAreSpreadAroundTheWheel_0_g : List Nat := [100, 37, 0, 887]
theorem witness_SlotsAreSpreadAroundTheWheel_0 :
    (List.foldl (fun a b => a + b) 0 witness_SlotsAreSpreadAroundTheWheel_0_g ≤ 1024) :=
  by decide +kernel
theorem witness_SlotsAreSpreadAroundTheWheel_1 :
    (populated base 0 = true) :=
  by decide +kernel

/-! ### The whole machine -/

/-- A capture runs, a TDI is in RUN, and an interrupt preempted another; a command waits. -/
def busy : State := { traced with icu := { traced.icu with pairs := traced.icu.pairs.set 0 { traced.icu.pairs.get 0 with stack := [(3, 1), (7, 2)] } }, tdi := traced.tdi.set 1 2, pending := [.counterSnapshot .hostk true] }
theorem inv_busy : Inv busy :=
  ⟨⟨tbl_all (P := fun c : Nat × Nat => c.2 ≤ 2 ^ 56 - 1) _ (by decide +kernel) (by decide +kernel), by decide +kernel, by decide +kernel⟩,
    ⟨by decide +kernel, by decide +kernel, by decide +kernel⟩, tbl_all (P := fun x : IcuPair => x.stack.Pairwise (fun (a b : Nat × Nat) => a.1 < b.1)) busy.icu.pairs (by decide +kernel) (by decide +kernel),
    tbl_all (P := fun n => n ≤ 3) _ (by decide +kernel) (by decide +kernel)⟩
theorem witness_StepKeepsTheInvariant : Inv busy ∧ step busy = .next (nx (step busy)) := ⟨inv_busy, rfl⟩
theorem witness_ProgrammedWordsAreNeverUndone : step busy = .next (nx (step busy)) ∧ ∃ v, v ≠ 0 ∧ ({ busy with ods := { busy.ods with mfgLot := some v } } : State).ods.mfgLot = some v :=
  ⟨rfl, 1, by decide, rfl⟩
theorem witness_CommandsOnlyAddOutput : exec (.counterSnapshot .hostk true) busy = .next (nx (exec (.counterSnapshot .hostk true) busy)) := rfl
theorem witness_CommandsChangeOnlyTheirParts : exec (.strapSample []) base = .next (nx (exec (.strapSample []) base)) := rfl
theorem witness_RetainedRecordsSurviveChipReset_1 :
    (chipReq.rcv.chipResetReq = true) ∧
    (chipReq.rcv.powerCycleReq = false) :=
  ⟨by decide +kernel, by decide +kernel⟩
theorem witness_ChipResetClearsTheCounters_1 :
    (chipReq.rcv.chipResetReq = true) ∧
    (chipReq.rcv.powerCycleReq = false) :=
  ⟨by decide +kernel, by decide +kernel⟩

end Sys2Proof.Tests
end

namespace Sys2Proof.Machine

/-! ### What every command keeps -/

/-- A property that survives the updates of some parts survives those of fewer. -/
theorem Keeps.mono {P R : Part → Bool} {Q : State → Prop} (K : Keeps P Q) (h : ∀ p, R p = true → P p = true) : Keeps R Q where
  clk p := K.clk (h _ p)
  rcv p := K.rcv (h _ p)
  icu p := K.icu (h _ p)
  obs p := K.obs (h _ p)
  sen p := K.sen (h _ p)
  tamperIn p := K.tamperIn (h _ p)
  cex p := K.cex (h _ p)
  xlt p := K.xlt (h _ p)
  srg p := K.srg (h _ p)
  ods p := K.ods (h _ p)
  vault p := K.vault (h _ p)
  kst p := K.kst (h _ p)
  engKeys p := K.engKeys (h _ p)
  kwe p := K.kwe (h _ p)
  pke p := K.pke (h _ p)
  ent p := K.ent (h _ p)
  atu p := K.atu (h _ p)
  lcc p := K.lcc (h _ p)
  mem p := K.mem (h _ p)
  link p := K.link (h _ p)
  sheaf p := K.sheaf (h _ p)
  dom p := K.dom (h _ p)
  pins p := K.pins (h _ p)
  boot p := K.boot (h _ p)
  tdi p := K.tdi (h _ p)
  ac p := K.ac (h _ p)
  vt p := K.vt (h _ p)
  free p := K.free (h _ p)
  out p := K.out (h _ p)

/-- A command keeps every property that survives the updates of the parts that `commandParts` lists for it: one law of Laws/Keeps*.lean for
each command. -/
theorem exec_keeps {Q : State → Prop} {c : Instr} (K : Keeps (fun p => decide (p ∈ commandParts c)) Q) {s : State} (Ks : Q s) :
    KeepsBy Q (exec c s) := by
  cases c with
  | nop => exact exec_nop ▸ execNop_keeps K rfl rfl Ks
  | call => exact exec_call ▸ execCall_keeps K rfl rfl rfl rfl Ks
  | callIterationStart => exact exec_callIterationStart ▸ execCallIterationStart_keeps K rfl Ks
  | load => exact exec_load ▸ execLoad_keeps K rfl rfl rfl rfl rfl Ks
  | launch => exact exec_launch ▸ execLaunch_keeps K rfl rfl rfl rfl Ks
  | scalarSet => exact exec_scalarSet ▸ execScalarSet_keeps K rfl rfl Ks
  | scalarAdd => exact exec_scalarAdd ▸ execScalarAdd_keeps K rfl rfl Ks
  | scalarLoad => exact exec_scalarLoad ▸ execScalarLoad_keeps K rfl rfl rfl rfl rfl Ks
  | scalarStore => exact exec_scalarStore ▸ execScalarStore_keeps K rfl rfl rfl rfl rfl rfl Ks
  | waitMem => exact exec_waitMem ▸ execWaitMem_keeps K rfl rfl Ks
  | waitMemPoll => exact exec_waitMemPoll ▸ execWaitMemPoll_keeps K rfl rfl rfl rfl Ks
  | waitSync => exact exec_waitSync ▸ execWaitSync_keeps K rfl rfl Ks
  | waitTimeout => exact exec_waitTimeout ▸ execWaitTimeout_keeps K rfl Ks
  | fenceLocal => exact exec_fenceLocal ▸ execFenceLocal_keeps K rfl rfl Ks
  | fenceDomain => exact exec_fenceDomain ▸ execFenceDomain_keeps K rfl rfl rfl rfl rfl rfl rfl rfl rfl Ks
  | keyFence => exact exec_keyFence ▸ execKeyFence_keeps K rfl rfl Ks
  | egressFence => exact exec_egressFence ▸ execEgressFence_keeps K rfl rfl Ks
  | stepOpen => exact exec_stepOpen ▸ execStepOpen_keeps K rfl rfl rfl rfl rfl rfl rfl rfl rfl Ks
  | stepClose => exact exec_stepClose ▸ execStepClose_keeps K rfl rfl rfl rfl rfl rfl rfl rfl rfl Ks
  | stepCloseWritesDrained => exact exec_stepCloseWritesDrained ▸ execStepCloseWritesDrained_keeps K rfl rfl rfl rfl rfl rfl rfl rfl rfl Ks
  | groupDefine => exact exec_groupDefine ▸ execGroupDefine_keeps K rfl rfl rfl rfl rfl Ks
  | regionDefine => exact exec_regionDefine ▸ execRegionDefine_keeps K rfl rfl rfl rfl rfl rfl Ks
  | regionZeroFillDone => exact exec_regionZeroFillDone ▸ execRegionZeroFillDone_keeps K rfl rfl Ks
  | regionRetire => exact exec_regionRetire ▸ execRegionRetire_keeps K rfl rfl rfl rfl rfl rfl rfl rfl rfl rfl rfl Ks
  | regionDescriptorFreed => exact exec_regionDescriptorFreed ▸ execRegionDescriptorFreed_keeps K rfl rfl rfl Ks
  | regionGrant => exact exec_regionGrant ▸ execRegionGrant_keeps K rfl rfl rfl Ks
  | regionRevoke => exact exec_regionRevoke ▸ execRegionRevoke_keeps K rfl rfl rfl Ks
  | fallowRead => exact exec_fallowRead ▸ execFallowRead_keeps K rfl rfl rfl rfl rfl rfl Ks
  | pageRetire => exact exec_pageRetire ▸ execPageRetire_keeps K rfl rfl rfl Ks
  | saveBegin => exact exec_saveBegin ▸ execSaveBegin_keeps K rfl rfl rfl rfl rfl rfl rfl Ks
  | saveEnd => exact exec_saveEnd ▸ execSaveEnd_keeps K rfl rfl rfl rfl rfl rfl rfl Ks
  | saveDiscard => exact exec_saveDiscard ▸ execSaveDiscard_keeps K rfl rfl rfl rfl rfl rfl rfl Ks
  | plough => exact exec_plough ▸ execPlough_keeps K rfl rfl rfl rfl rfl rfl rfl rfl rfl rfl Ks
  | ploughLineMove =>
    exact exec_ploughLineMove ▸ execPloughLineMove_keeps K rfl rfl rfl rfl rfl rfl rfl rfl rfl rfl rfl rfl rfl rfl rfl rfl rfl rfl rfl Ks
  | ploughComplete =>
    exact exec_ploughComplete ▸ execPloughComplete_keeps K rfl rfl rfl rfl rfl rfl rfl rfl rfl rfl rfl rfl rfl rfl rfl rfl rfl rfl rfl Ks
  | ploughPause => exact exec_ploughPause ▸ execPloughPause_keeps K rfl rfl rfl rfl rfl rfl Ks
  | epochAged => exact exec_epochAged ▸ execEpochAged_keeps K rfl rfl Ks
  | keyDerive => exact exec_keyDerive ▸ execKeyDerive_keeps K rfl rfl rfl rfl rfl Ks
  | keyGenerate => exact exec_keyGenerate ▸ execKeyGenerate_keeps K rfl rfl rfl rfl rfl rfl rfl rfl rfl Ks
  | keyWrap => exact exec_keyWrap ▸ execKeyWrap_keeps K rfl rfl rfl rfl rfl rfl rfl rfl rfl rfl Ks
  | keyUnwrap => exact exec_keyUnwrap ▸ execKeyUnwrap_keeps K rfl rfl rfl rfl rfl rfl rfl rfl Ks
  | keyZeroize => exact exec_keyZeroize ▸ execKeyZeroize_keeps K rfl rfl rfl rfl rfl rfl Ks
  | cipherEncrypt => exact exec_cipherEncrypt ▸ execCipherEncrypt_keeps K rfl rfl rfl rfl rfl rfl rfl rfl rfl Ks
  | cipherDecrypt => exact exec_cipherDecrypt ▸ execCipherDecrypt_keeps K rfl rfl rfl rfl rfl rfl rfl rfl Ks
  | pkHash => exact exec_pkHash ▸ execPkHash_keeps K rfl rfl rfl rfl rfl rfl rfl Ks
  | pkVerify => exact exec_pkVerify ▸ execPkVerify_keeps K rfl rfl rfl rfl rfl rfl Ks
  | sheafBegin => exact exec_sheafBegin ▸ execSheafBegin_keeps K rfl rfl rfl rfl rfl rfl rfl rfl rfl Ks
  | sheafEnd => exact exec_sheafEnd ▸ execSheafEnd_keeps K rfl rfl rfl rfl rfl rfl rfl rfl rfl rfl Ks
  | sheafCombine => exact exec_sheafCombine ▸ execSheafCombine_keeps K rfl rfl rfl rfl rfl rfl rfl rfl rfl Ks
  | streamOpen => exact exec_streamOpen ▸ execStreamOpen_keeps K rfl rfl rfl rfl rfl rfl Ks
  | streamClose => exact exec_streamClose ▸ execStreamClose_keeps K rfl rfl rfl Ks
  | streamRotate => exact exec_streamRotate ▸ execStreamRotate_keeps K rfl rfl rfl rfl rfl rfl Ks
  | domainJoin =>
    exact exec_domainJoin ▸ execDomainJoin_keeps K rfl rfl rfl rfl rfl rfl rfl rfl rfl rfl rfl rfl rfl rfl rfl rfl rfl rfl rfl rfl rfl rfl Ks
  | domainForm =>
    exact exec_domainForm ▸ execDomainForm_keeps K rfl rfl rfl rfl rfl rfl rfl rfl rfl rfl rfl rfl rfl rfl rfl rfl rfl rfl rfl rfl rfl Ks
  | domainRelease =>
    exact exec_domainRelease ▸ execDomainRelease_keeps K rfl rfl rfl rfl rfl rfl rfl rfl rfl rfl rfl rfl rfl rfl rfl rfl rfl rfl rfl rfl rfl Ks
  | domainGo => exact exec_domainGo ▸ execDomainGo_keeps K rfl rfl rfl rfl rfl rfl rfl rfl rfl rfl rfl rfl Ks
  | domainAbort =>
    exact exec_domainAbort ▸ execDomainAbort_keeps K rfl rfl rfl rfl rfl rfl rfl rfl rfl rfl rfl rfl rfl rfl rfl rfl rfl rfl rfl Ks
  | domainDissolve =>
    exact exec_domainDissolve ▸ execDomainDissolve_keeps K rfl rfl rfl rfl rfl rfl rfl rfl rfl rfl rfl rfl rfl rfl rfl rfl rfl rfl rfl Ks
  | domainProve => exact exec_domainProve ▸ execDomainProve_keeps K rfl rfl rfl rfl rfl rfl Ks
  | sliceCreate => exact exec_sliceCreate ▸ execSliceCreate_keeps K rfl rfl rfl rfl rfl rfl rfl rfl rfl rfl rfl Ks
  | sliceReset =>
    exact exec_sliceReset ▸ execSliceReset_keeps K rfl rfl rfl rfl rfl rfl rfl rfl rfl rfl rfl rfl rfl rfl rfl rfl rfl rfl rfl rfl rfl rfl Ks
  | sliceFreeze => exact exec_sliceFreeze ▸ execSliceFreeze_keeps K rfl rfl rfl rfl rfl rfl rfl rfl rfl rfl rfl Ks
  | sliceSave =>
    exact exec_sliceSave ▸ execSliceSave_keeps K rfl rfl rfl rfl rfl rfl rfl rfl rfl rfl rfl rfl rfl rfl rfl rfl rfl rfl rfl rfl rfl Ks
  | sliceRestore =>
    exact exec_sliceRestore ▸ execSliceRestore_keeps K rfl rfl rfl rfl rfl rfl rfl rfl rfl rfl rfl rfl rfl rfl rfl rfl rfl rfl rfl rfl Ks
  | sliceCommit => exact exec_sliceCommit ▸ execSliceCommit_keeps K rfl rfl rfl rfl rfl rfl rfl rfl rfl rfl rfl rfl rfl rfl rfl rfl rfl Ks
  | sliceThaw => exact exec_sliceThaw ▸ execSliceThaw_keeps K rfl rfl rfl rfl rfl rfl rfl rfl rfl rfl rfl rfl rfl rfl rfl rfl rfl rfl rfl Ks
  | contextBind => exact exec_contextBind ▸ execContextBind_keeps K rfl rfl Ks
  | contextUnbind => exact exec_contextUnbind ▸ execContextUnbind_keeps K rfl rfl Ks
  | contextKill => exact exec_contextKill ▸ execContextKill_keeps K rfl rfl rfl rfl rfl rfl rfl rfl rfl rfl rfl rfl Ks
  | usageReport => exact exec_usageReport ▸ execUsageReport_keeps K rfl rfl rfl rfl rfl rfl rfl rfl Ks
  | copy => exact exec_copy ▸ execCopy_keeps K rfl rfl rfl rfl rfl rfl rfl rfl rfl rfl rfl rfl rfl rfl rfl rfl rfl rfl rfl rfl rfl Ks
  | importBlob => exact exec_importBlob ▸ execImportBlob_keeps K rfl rfl rfl rfl rfl rfl rfl rfl rfl rfl rfl rfl rfl rfl Ks
  | exportBlob =>
    exact exec_exportBlob ▸ execExportBlob_keeps K rfl rfl rfl rfl rfl rfl rfl rfl rfl rfl rfl rfl rfl rfl rfl rfl rfl rfl rfl rfl rfl Ks
  | xltInvalidate => exact exec_xltInvalidate ▸ execXltInvalidate_keeps K rfl rfl rfl Ks
  | doorbell => exact exec_doorbell ▸ execDoorbell_keeps K rfl rfl rfl rfl rfl Ks
  | commandFetch => exact exec_commandFetch ▸ execCommandFetch_keeps K rfl rfl rfl rfl rfl rfl rfl Ks
  | commandCompletion => exact exec_commandCompletion ▸ execCommandCompletion_keeps K rfl rfl rfl rfl rfl rfl Ks
  | queueEnable => exact exec_queueEnable ▸ execQueueEnable_keeps K rfl rfl rfl rfl Ks
  | queueResume => exact exec_queueResume ▸ execQueueResume_keeps K rfl rfl rfl rfl rfl rfl rfl Ks
  | queueSkip => exact exec_queueSkip ▸ execQueueSkip_keeps K rfl rfl rfl rfl Ks
  | compatTimeout => exact exec_compatTimeout ▸ execCompatTimeout_keeps K rfl Ks
  | compatDrainTimeout => exact exec_compatDrainTimeout ▸ execCompatDrainTimeout_keeps K rfl rfl rfl rfl rfl rfl rfl rfl rfl Ks
  | eventPost => exact exec_eventPost ▸ execEventPost_keeps K rfl rfl rfl rfl rfl rfl Ks
  | eventModerationExpiry => exact exec_eventModerationExpiry ▸ execEventModerationExpiry_keeps K rfl rfl Ks
  | eventRingBaseWrite => exact exec_eventRingBaseWrite ▸ execEventRingBaseWrite_keeps K rfl rfl rfl Ks
  | fenceAck => exact exec_fenceAck ▸ execFenceAck_keeps K rfl rfl rfl rfl rfl rfl rfl rfl rfl Ks
  | fenceDone => exact exec_fenceDone ▸ execFenceDone_keeps K rfl rfl rfl rfl rfl rfl rfl rfl rfl Ks
  | fenceResend => exact exec_fenceResend ▸ execFenceResend_keeps K rfl rfl rfl rfl rfl rfl rfl rfl Ks
  | fenceMsgForward => exact exec_fenceMsgForward ▸ execFenceMsgForward_keeps K rfl rfl rfl rfl rfl rfl rfl rfl Ks
  | fenceRerequestExpiry => exact exec_fenceRerequestExpiry ▸ execFenceRerequestExpiry_keeps K rfl rfl rfl rfl rfl rfl rfl rfl Ks
  | domainFenceTimeout =>
    exact exec_domainFenceTimeout ▸ execDomainFenceTimeout_keeps K rfl rfl rfl rfl rfl rfl rfl rfl rfl rfl rfl rfl rfl rfl rfl rfl rfl rfl rfl Ks
  | rollChallenge =>
    exact exec_rollChallenge ▸ execRollChallenge_keeps K rfl rfl rfl rfl rfl rfl rfl rfl rfl rfl rfl rfl rfl rfl rfl rfl rfl rfl rfl rfl Ks
  | rollChallengeHoldExpiry => exact exec_rollChallengeHoldExpiry ▸ execRollChallengeHoldExpiry_keeps K rfl Ks
  | rollAnswer =>
    exact exec_rollAnswer ▸ execRollAnswer_keeps K rfl rfl rfl rfl rfl rfl rfl rfl rfl rfl rfl rfl rfl rfl rfl rfl rfl rfl rfl rfl Ks
  | rollAnswerDeadline =>
    exact exec_rollAnswerDeadline ▸ execRollAnswerDeadline_keeps K rfl rfl rfl rfl rfl rfl rfl rfl rfl rfl rfl rfl rfl rfl rfl rfl rfl rfl rfl rfl Ks
  | rollCallTimeout =>
    exact exec_rollCallTimeout ▸ execRollCallTimeout_keeps K rfl rfl rfl rfl rfl rfl rfl rfl rfl rfl rfl rfl rfl rfl rfl rfl rfl rfl rfl rfl Ks
  | releaseTimeout =>
    exact exec_releaseTimeout ▸ execReleaseTimeout_keeps K rfl rfl rfl rfl rfl rfl rfl rfl rfl rfl rfl rfl rfl rfl rfl rfl rfl rfl rfl Ks
  | halyardKey =>
    exact exec_halyardKey ▸ execHalyardKey_keeps K rfl rfl rfl rfl rfl rfl rfl rfl rfl rfl rfl rfl rfl rfl rfl rfl rfl rfl rfl rfl Ks
  | halyardAck =>
    exact exec_halyardAck ▸ execHalyardAck_keeps K rfl rfl rfl rfl rfl rfl rfl rfl rfl rfl rfl rfl rfl rfl rfl rfl rfl rfl rfl Ks
  | halyardAckDeadline =>
    exact exec_halyardAckDeadline ▸ execHalyardAckDeadline_keeps K rfl rfl rfl rfl rfl rfl rfl rfl rfl rfl rfl rfl rfl rfl rfl rfl rfl rfl rfl rfl Ks
  | halyardLive => exact exec_halyardLive ▸ execHalyardLive_keeps K rfl rfl rfl rfl rfl rfl rfl rfl rfl rfl rfl rfl Ks
  | formationTimeout =>
    exact exec_formationTimeout ▸ execFormationTimeout_keeps K rfl rfl rfl rfl rfl rfl rfl rfl rfl rfl rfl rfl rfl rfl rfl rfl Ks
  | abort => exact exec_abort ▸ execAbort_keeps K rfl rfl rfl rfl rfl rfl rfl rfl rfl rfl rfl rfl rfl rfl rfl rfl rfl rfl rfl Ks
  | dissolve => exact exec_dissolve ▸ execDissolve_keeps K rfl rfl rfl rfl rfl rfl rfl rfl rfl rfl rfl rfl rfl rfl rfl rfl rfl rfl rfl Ks
  | domainResend => exact exec_domainResend ▸ execDomainResend_keeps K rfl rfl rfl rfl rfl rfl rfl rfl Ks
  | dictAccess =>
    exact exec_dictAccess ▸ execDictAccess_keeps K rfl rfl rfl rfl rfl rfl rfl rfl rfl rfl rfl rfl rfl rfl rfl rfl rfl rfl rfl rfl rfl rfl rfl rfl rfl rfl Ks
  | dictReply => exact exec_dictReply ▸ execDictReply_keeps K rfl rfl rfl rfl rfl rfl rfl rfl Ks
  | memoryWrite => exact exec_memoryWrite ▸ execMemoryWrite_keeps K rfl rfl rfl rfl rfl rfl rfl rfl rfl rfl Ks
  | memoryRead =>
    exact exec_memoryRead ▸ execMemoryRead_keeps K rfl rfl rfl rfl rfl rfl rfl rfl rfl rfl rfl rfl rfl rfl rfl rfl rfl rfl rfl Ks
  | memoryReadData =>
    exact exec_memoryReadData ▸ execMemoryReadData_keeps K rfl rfl rfl rfl rfl rfl rfl rfl rfl rfl rfl rfl rfl rfl rfl rfl rfl rfl rfl Ks
  | versionSupply =>
    exact exec_versionSupply ▸ execVersionSupply_keeps K rfl rfl rfl rfl rfl rfl rfl rfl rfl rfl rfl rfl rfl rfl rfl rfl rfl rfl rfl rfl Ks
  | counterLineFetchData =>
    exact exec_counterLineFetchData ▸ execCounterLineFetchData_keeps K rfl rfl rfl rfl rfl rfl rfl rfl rfl rfl rfl rfl rfl rfl rfl rfl rfl rfl rfl Ks
  | counterWriteback => exact exec_counterWriteback ▸ execCounterWriteback_keeps K rfl rfl rfl rfl rfl rfl Ks
  | rebase => exact exec_rebase ▸ execRebase_keeps K rfl rfl rfl rfl rfl Ks
  | rebaseChildMove =>
    exact exec_rebaseChildMove ▸ execRebaseChildMove_keeps K rfl rfl rfl rfl rfl rfl rfl rfl rfl rfl rfl rfl rfl rfl rfl rfl rfl rfl rfl Ks
  | dueReport => exact exec_dueReport ▸ execDueReport_keeps K rfl rfl rfl rfl rfl rfl rfl rfl rfl rfl rfl rfl rfl rfl rfl rfl rfl rfl rfl Ks
  | eraseResponse =>
    exact exec_eraseResponse ▸ execEraseResponse_keeps K rfl rfl rfl rfl rfl rfl rfl rfl rfl rfl rfl rfl rfl rfl rfl rfl rfl rfl rfl Ks
  | eraseTimeout =>
    exact exec_eraseTimeout ▸ execEraseTimeout_keeps K rfl rfl rfl rfl rfl rfl rfl rfl rfl rfl rfl rfl rfl rfl rfl rfl rfl rfl rfl Ks
  | scrubReread =>
    exact exec_scrubReread ▸ execScrubReread_keeps K rfl rfl rfl rfl rfl rfl rfl rfl rfl rfl rfl rfl rfl rfl rfl rfl rfl rfl rfl Ks
  | calAnn => exact exec_calAnn ▸ execCalAnn_keeps K rfl rfl rfl rfl rfl Ks
  | calDone => exact exec_calDone ▸ execCalDone_keeps K rfl rfl rfl rfl rfl rfl rfl rfl rfl rfl rfl rfl rfl rfl rfl rfl rfl rfl rfl Ks
  | calAnnouncementTimeout =>
    exact exec_calAnnouncementTimeout ▸ execCalAnnouncementTimeout_keeps K rfl rfl rfl rfl rfl rfl rfl rfl rfl rfl rfl rfl rfl rfl rfl rfl rfl rfl rfl Ks
  | sweepReq => exact exec_sweepReq ▸ execSweepReq_keeps K rfl rfl rfl rfl rfl Ks
  | sweepGnt => exact exec_sweepGnt ▸ execSweepGnt_keeps K rfl rfl Ks
  | sweepReqTimeout => exact exec_sweepReqTimeout ▸ execSweepReqTimeout_keeps K rfl rfl Ks
  | sweepEnd => exact exec_sweepEnd ▸ execSweepEnd_keeps K rfl Ks
  | sweepDurationExpiry => exact exec_sweepDurationExpiry ▸ execSweepDurationExpiry_keeps K rfl rfl rfl rfl rfl Ks
  | thrChange => exact exec_thrChange ▸ execThrChange_keeps K rfl rfl rfl rfl rfl Ks
  | rateSample => exact exec_rateSample ▸ execRateSample_keeps K rfl rfl rfl rfl rfl rfl rfl Ks
  | wheelSlotService => exact exec_wheelSlotService ▸ execWheelSlotService_keeps K rfl rfl rfl rfl rfl rfl rfl Ks
  | hostPacketTx => exact exec_hostPacketTx ▸ execHostPacketTx_keeps K rfl rfl rfl rfl rfl rfl rfl Ks
  | groupFlushExpiry => exact exec_groupFlushExpiry ▸ execGroupFlushExpiry_keeps K rfl rfl rfl rfl rfl rfl rfl Ks
  | groupReceive =>
    exact exec_groupReceive ▸ execGroupReceive_keeps K rfl rfl rfl rfl rfl rfl rfl rfl rfl rfl rfl rfl rfl rfl rfl rfl rfl rfl rfl Ks
  | groupTrailer =>
    exact exec_groupTrailer ▸ execGroupTrailer_keeps K rfl rfl rfl rfl rfl rfl rfl rfl rfl rfl rfl rfl rfl rfl rfl rfl rfl rfl rfl Ks
  | trailerTimeout =>
    exact exec_trailerTimeout ▸ execTrailerTimeout_keeps K rfl rfl rfl rfl rfl rfl rfl rfl rfl rfl rfl rfl rfl rfl rfl rfl rfl rfl rfl Ks
  | linkRotate => exact exec_linkRotate ▸ execLinkRotate_keeps K rfl rfl rfl rfl rfl rfl rfl Ks
  | linkNextKeyDerived =>
    exact exec_linkNextKeyDerived ▸ execLinkNextKeyDerived_keeps K rfl rfl rfl rfl rfl rfl rfl rfl rfl rfl rfl rfl rfl rfl rfl rfl rfl rfl rfl Ks
  | rxNextWaitTimeout =>
    exact exec_rxNextWaitTimeout ▸ execRxNextWaitTimeout_keeps K rfl rfl rfl rfl rfl rfl rfl rfl rfl rfl rfl rfl rfl rfl rfl rfl rfl rfl rfl Ks
  | drainEnd => exact exec_drainEnd ▸ execDrainEnd_keeps K rfl rfl rfl rfl rfl rfl rfl rfl rfl rfl rfl rfl rfl rfl rfl rfl rfl rfl rfl Ks
  | drainTimeout =>
    exact exec_drainTimeout ▸ execDrainTimeout_keeps K rfl rfl rfl rfl rfl rfl rfl rfl rfl rfl rfl rfl rfl rfl rfl rfl rfl rfl rfl Ks
  | deadTargetReport =>
    exact exec_deadTargetReport ▸ execDeadTargetReport_keeps K rfl rfl rfl rfl rfl rfl rfl rfl rfl rfl rfl rfl rfl rfl rfl rfl rfl rfl rfl Ks
  | hleTlpEgress => exact exec_hleTlpEgress ▸ execHleTlpEgress_keeps K rfl rfl rfl rfl rfl rfl rfl rfl rfl Ks
  | hleTlpReceive => exact exec_hleTlpReceive ▸ execHleTlpReceive_keeps K rfl rfl rfl rfl rfl rfl rfl rfl rfl rfl rfl rfl Ks
  | query => exact exec_query ▸ execQuery_keeps K rfl rfl rfl rfl Ks
  | keyProg => exact exec_keyProg ▸ execKeyProg_keeps K rfl rfl rfl rfl rfl rfl rfl rfl Ks
  | keySetGo => exact exec_keySetGo ▸ execKeySetGo_keeps K rfl rfl rfl rfl rfl Ks
  | keySetStop => exact exec_keySetStop ▸ execKeySetStop_keeps K rfl rfl rfl rfl rfl rfl rfl rfl rfl rfl rfl rfl Ks
  | getTdispVersion => exact exec_getTdispVersion ▸ execGetTdispVersion_keeps K rfl rfl rfl rfl Ks
  | getTdispCapabilities => exact exec_getTdispCapabilities ▸ execGetTdispCapabilities_keeps K rfl rfl rfl rfl Ks
  | lockInterfaceRequest => exact exec_lockInterfaceRequest ▸ execLockInterfaceRequest_keeps K rfl rfl rfl rfl rfl rfl Ks
  | getDeviceInterfaceReport => exact exec_getDeviceInterfaceReport ▸ execGetDeviceInterfaceReport_keeps K rfl rfl rfl rfl Ks
  | getDeviceInterfaceState => exact exec_getDeviceInterfaceState ▸ execGetDeviceInterfaceState_keeps K rfl rfl rfl rfl Ks
  | startInterfaceRequest => exact exec_startInterfaceRequest ▸ execStartInterfaceRequest_keeps K rfl rfl rfl rfl rfl rfl Ks
  | stopInterfaceRequest => exact exec_stopInterfaceRequest ▸ execStopInterfaceRequest_keeps K rfl rfl rfl rfl rfl rfl rfl Ks
  | tdispUnsupportedRequest => exact exec_tdispUnsupportedRequest ▸ execTdispUnsupportedRequest_keeps K rfl rfl rfl rfl Ks
  | getVersion => exact exec_getVersion ▸ execGetVersion_keeps K rfl rfl rfl rfl rfl Ks
  | getCapabilities => exact exec_getCapabilities ▸ execGetCapabilities_keeps K rfl rfl rfl rfl rfl Ks
  | negotiateAlgorithms => exact exec_negotiateAlgorithms ▸ execNegotiateAlgorithms_keeps K rfl rfl rfl rfl rfl Ks
  | getDigests => exact exec_getDigests ▸ execGetDigests_keeps K rfl rfl rfl rfl rfl Ks
  | getCertificate => exact exec_getCertificate ▸ execGetCertificate_keeps K rfl rfl rfl rfl rfl Ks
  | challenge => exact exec_challenge ▸ execChallenge_keeps K rfl rfl rfl rfl rfl rfl rfl Ks
  | getMeasurements => exact exec_getMeasurements ▸ execGetMeasurements_keeps K rfl rfl rfl rfl rfl rfl rfl Ks
  | keyExchange => exact exec_keyExchange ▸ execKeyExchange_keeps K rfl rfl rfl rfl rfl rfl rfl rfl rfl rfl rfl Ks
  | finish => exact exec_finish ▸ execFinish_keeps K rfl rfl rfl rfl rfl rfl rfl rfl rfl Ks
  | heartbeat => exact exec_heartbeat ▸ execHeartbeat_keeps K rfl rfl rfl rfl rfl Ks
  | keyUpdate => exact exec_keyUpdate ▸ execKeyUpdate_keeps K rfl rfl rfl rfl rfl rfl rfl rfl rfl Ks
  | endSession => exact exec_endSession ▸ execEndSession_keeps K rfl rfl rfl rfl rfl rfl rfl rfl Ks
  | chunkSend => exact exec_chunkSend ▸ execChunkSend_keeps K rfl rfl rfl rfl rfl Ks
  | chunkGet => exact exec_chunkGet ▸ execChunkGet_keeps K rfl rfl rfl rfl rfl Ks
  | vendorDefinedRequest => exact exec_vendorDefinedRequest ▸ execVendorDefinedRequest_keeps K rfl rfl rfl rfl rfl rfl Ks
  | spdmUnsupportedRequest => exact exec_spdmUnsupportedRequest ▸ execSpdmUnsupportedRequest_keeps K rfl rfl rfl rfl rfl Ks
  | dictRead =>
    exact exec_dictRead ▸ execDictRead_keeps K rfl rfl rfl rfl rfl rfl rfl rfl rfl rfl rfl rfl rfl rfl rfl rfl rfl rfl rfl rfl rfl rfl rfl rfl rfl rfl Ks
  | dictWrite =>
    exact exec_dictWrite ▸ execDictWrite_keeps K rfl rfl rfl rfl rfl rfl rfl rfl rfl rfl rfl rfl rfl rfl rfl rfl rfl rfl rfl rfl rfl rfl rfl rfl rfl rfl Ks
  | segRead =>
    exact exec_segRead ▸ execSegRead_keeps K rfl rfl rfl rfl rfl rfl rfl rfl rfl rfl rfl rfl rfl rfl rfl rfl rfl rfl rfl rfl rfl rfl rfl rfl rfl rfl Ks
  | segWrite =>
    exact exec_segWrite ▸ execSegWrite_keeps K rfl rfl rfl rfl rfl rfl rfl rfl rfl rfl rfl rfl rfl rfl rfl rfl rfl rfl rfl rfl rfl rfl rfl rfl rfl rfl Ks
  | dictAbort =>
    exact exec_dictAbort ▸ execDictAbort_keeps K rfl rfl rfl rfl rfl rfl rfl rfl rfl rfl rfl rfl rfl rfl rfl rfl rfl rfl rfl rfl rfl rfl rfl rfl rfl rfl Ks
  | dictSegIdleExpiry => exact exec_dictSegIdleExpiry ▸ execDictSegIdleExpiry_keeps K rfl Ks
  | dictEntryWrite =>
    exact exec_dictEntryWrite ▸ execDictEntryWrite_keeps K rfl rfl rfl rfl rfl rfl rfl rfl rfl rfl rfl rfl rfl rfl rfl rfl rfl rfl rfl rfl rfl rfl rfl rfl rfl rfl Ks
  | mbGo =>
    exact exec_mbGo ▸ execMbGo_keeps K rfl rfl rfl rfl rfl rfl rfl rfl rfl rfl rfl rfl rfl rfl rfl rfl rfl rfl rfl rfl rfl rfl rfl rfl rfl rfl Ks
  | setdasa => exact exec_setdasa ▸ execSetdasa_keeps K rfl Ks
  | entdaa => exact exec_entdaa ▸ execEntdaa_keeps K rfl Ks
  | setEndpointId => exact exec_setEndpointId ▸ execSetEndpointId_keeps K rfl rfl rfl rfl rfl Ks
  | getEndpointId => exact exec_getEndpointId ▸ execGetEndpointId_keeps K rfl rfl rfl rfl Ks
  | getEndpointUuid => exact exec_getEndpointUuid ▸ execGetEndpointUuid_keeps K rfl rfl rfl rfl Ks
  | getMctpVersionSupport => exact exec_getMctpVersionSupport ▸ execGetMctpVersionSupport_keeps K rfl rfl rfl rfl Ks
  | getMessageTypeSupport => exact exec_getMessageTypeSupport ▸ execGetMessageTypeSupport_keeps K rfl rfl rfl rfl Ks
  | getVendorDefinedMessageSupport =>
    exact exec_getVendorDefinedMessageSupport ▸ execGetVendorDefinedMessageSupport_keeps K rfl rfl rfl rfl Ks
  | mctpPacketReceive =>
    exact exec_mctpPacketReceive ▸ execMctpPacketReceive_keeps K rfl rfl rfl rfl rfl rfl rfl rfl rfl rfl rfl rfl rfl rfl rfl rfl rfl rfl rfl rfl rfl rfl rfl rfl rfl rfl Ks
  | tamperCauseClear => exact exec_tamperCauseClear ▸ execTamperCauseClear_keeps K rfl rfl rfl Ks
  | certCacheFlush => exact exec_certCacheFlush ▸ execCertCacheFlush_keeps K rfl rfl rfl Ks
  | sliceRelease =>
    exact exec_sliceRelease ▸ execSliceRelease_keeps K rfl rfl rfl rfl rfl rfl rfl rfl rfl rfl rfl rfl rfl rfl rfl rfl rfl Ks
  | sliceRecordWrite => exact exec_sliceRecordWrite ▸ execSliceRecordWrite_keeps K rfl rfl rfl Ks
  | mcWayQuotaWrite => exact exec_mcWayQuotaWrite ▸ execMcWayQuotaWrite_keeps K rfl rfl rfl rfl rfl rfl rfl rfl Ks
  | s2RootWrite => exact exec_s2RootWrite ▸ execS2RootWrite_keeps K rfl rfl rfl rfl rfl rfl rfl Ks
  | leModeWrite => exact exec_leModeWrite ▸ execLeModeWrite_keeps K rfl rfl rfl Ks
  | resetChipReq =>
    exact exec_resetChipReq ▸ execResetChipReq_keeps K rfl rfl rfl rfl rfl rfl rfl rfl rfl rfl rfl rfl rfl rfl rfl rfl rfl rfl rfl Ks
  | chipResetGo =>
    exact exec_chipResetGo ▸ execChipResetGo_keeps K rfl rfl rfl rfl rfl rfl rfl rfl rfl rfl rfl rfl rfl rfl rfl rfl rfl rfl rfl rfl rfl rfl rfl rfl rfl Ks
  | chipCoopTimeout => exact exec_chipCoopTimeout ▸ execChipCoopTimeout_keeps K rfl rfl rfl rfl rfl Ks
  | firstErrorClear => exact exec_firstErrorClear ▸ execFirstErrorClear_keeps K rfl rfl rfl Ks
  | dumpClear => exact exec_dumpClear ▸ execDumpClear_keeps K rfl rfl rfl Ks
  | errlogConsumedWrite => exact exec_errlogConsumedWrite ▸ execErrlogConsumedWrite_keeps K rfl rfl rfl Ks
  | cpKick => exact exec_cpKick ▸ execCpKick_keeps K rfl rfl rfl Ks
  | watchdogWarning => exact exec_watchdogWarning ▸ execWatchdogWarning_keeps K rfl rfl rfl rfl Ks
  | watchdogExpiry =>
    exact exec_watchdogExpiry ▸ execWatchdogExpiry_keeps K rfl rfl rfl rfl rfl rfl rfl rfl rfl rfl rfl rfl rfl rfl rfl rfl rfl rfl rfl rfl rfl rfl Ks
  | lockstepMismatch =>
    exact exec_lockstepMismatch ▸ execLockstepMismatch_keeps K rfl rfl rfl rfl rfl rfl rfl rfl rfl rfl rfl rfl rfl rfl rfl rfl rfl rfl rfl rfl rfl rfl Ks
  | hostStall => exact exec_hostStall ▸ execHostStall_keeps K rfl rfl rfl rfl Ks
  | killLimitExpiry => exact exec_killLimitExpiry ▸ execKillLimitExpiry_keeps K rfl rfl rfl rfl rfl rfl rfl rfl rfl rfl rfl rfl Ks
  | engineResetDone => exact exec_engineResetDone ▸ execEngineResetDone_keeps K rfl rfl rfl rfl rfl Ks
  | lcTransition => exact exec_lcTransition ▸ execLcTransition_keeps K rfl rfl rfl Ks
  | lcOtpProgramDone =>
    exact exec_lcOtpProgramDone ▸ execLcOtpProgramDone_keeps K rfl rfl rfl rfl rfl rfl rfl rfl rfl rfl rfl rfl rfl rfl rfl rfl rfl rfl rfl rfl rfl rfl rfl Ks
  | debugRequest =>
    exact exec_debugRequest ▸ execDebugRequest_keeps K rfl rfl rfl rfl rfl rfl rfl rfl rfl rfl rfl rfl rfl rfl rfl rfl rfl rfl rfl Ks
  | debugResponse =>
    exact exec_debugResponse ▸ execDebugResponse_keeps K rfl rfl rfl rfl rfl rfl rfl rfl rfl rfl rfl rfl rfl rfl rfl rfl rfl Ks
  | vaultProvision => exact exec_vaultProvision ▸ execVaultProvision_keeps K rfl rfl rfl rfl rfl rfl rfl Ks
  | dmiRead => exact exec_dmiRead ▸ execDmiRead_keeps K rfl rfl rfl rfl rfl rfl rfl rfl Ks
  | dmiWrite => exact exec_dmiWrite ▸ execDmiWrite_keeps K rfl rfl rfl rfl rfl rfl rfl rfl Ks
  | hartHalted => exact exec_hartHalted ▸ execHartHalted_keeps K rfl Ks
  | counterReset => exact exec_counterReset ▸ execCounterReset_keeps K rfl rfl rfl rfl rfl Ks
  | counterSnapshot => exact exec_counterSnapshot ▸ execCounterSnapshot_keeps K rfl rfl rfl Ks
  | traceArm => exact exec_traceArm ▸ execTraceArm_keeps K rfl rfl rfl rfl Ks
  | traceTriggerNow => exact exec_traceTriggerNow ▸ execTraceTriggerNow_keeps K rfl rfl rfl rfl Ks
  | traceMarker => exact exec_traceMarker ▸ execTraceMarker_keeps K rfl rfl rfl rfl Ks
  | tracePcSample => exact exec_tracePcSample ▸ execTracePcSample_keeps K rfl rfl rfl Ks
  | icuSourceAssert => exact exec_icuSourceAssert ▸ execIcuSourceAssert_keeps K rfl rfl rfl rfl Ks
  | claim => exact exec_claim ▸ execClaim_keeps K rfl rfl rfl Ks
  | eoi => exact exec_eoi ▸ execEoi_keeps K rfl rfl rfl rfl Ks
  | pendSet => exact exec_pendSet ▸ execPendSet_keeps K rfl rfl rfl Ks
  | pendClr => exact exec_pendClr ▸ execPendClr_keeps K rfl Ks
  | maskSet => exact exec_maskSet ▸ execMaskSet_keeps K rfl rfl Ks
  | maskClr => exact exec_maskClr ▸ execMaskClr_keeps K rfl Ks
  | stormClear => exact exec_stormClear ▸ execStormClear_keeps K rfl Ks
  | sgi => exact exec_sgi ▸ execSgi_keeps K rfl rfl rfl rfl Ks
  | stormWindowExpiry => exact exec_stormWindowExpiry ▸ execStormWindowExpiry_keeps K rfl Ks
  | icuModerationExpiry => exact exec_icuModerationExpiry ▸ execIcuModerationExpiry_keeps K rfl Ks
  | hostEvent => exact exec_hostEvent ▸ execHostEvent_keeps K rfl rfl rfl rfl Ks
  | fwdGo => exact exec_fwdGo ▸ execFwdGo_keeps K rfl rfl Ks
  | kweRequest => exact exec_kweRequest ▸ execKweRequest_keeps K rfl rfl Ks
  | kweComplete => exact exec_kweComplete ▸ execKweComplete_keeps K rfl rfl rfl rfl rfl rfl rfl rfl rfl rfl rfl Ks
  | pkeComplete => exact exec_pkeComplete ▸ execPkeComplete_keeps K rfl rfl rfl rfl rfl Ks
  | entHealthFailure => exact exec_entHealthFailure ▸ execEntHealthFailure_keeps K rfl rfl rfl rfl rfl Ks
  | entRetryExpiry => exact exec_entRetryExpiry ▸ execEntRetryExpiry_keeps K rfl Ks
  | entStartupTestsDone => exact exec_entStartupTestsDone ▸ execEntStartupTestsDone_keeps K rfl rfl Ks
  | drbgReseed => exact exec_drbgReseed ▸ execDrbgReseed_keeps K rfl rfl rfl rfl rfl rfl rfl Ks
  | meshCompare => exact exec_meshCompare ▸ execMeshCompare_keeps K rfl Ks
  | tamperInSample => exact exec_tamperInSample ▸ execTamperInSample_keeps K rfl rfl Ks
  | tamperLatchClear => exact exec_tamperLatchClear ▸ execTamperLatchClear_keeps K rfl rfl rfl Ks
  | vbatOutOfRange => exact exec_vbatOutOfRange ▸ execVbatOutOfRange_keeps K rfl rfl Ks
  | vaultSupplyOutOfRange => exact exec_vaultSupplyOutOfRange ▸ execVaultSupplyOutOfRange_keeps K rfl Ks
  | vaultTempReading => exact exec_vaultTempReading ▸ execVaultTempReading_keeps K rfl rfl Ks
  | zeroization =>
    exact exec_zeroization ▸ execZeroization_keeps K rfl rfl rfl rfl rfl rfl rfl rfl rfl rfl rfl rfl rfl rfl rfl rfl rfl rfl rfl rfl rfl Ks
  | zeroizationComplete =>
    exact exec_zeroizationComplete ▸ execZeroizationComplete_keeps K rfl rfl rfl rfl rfl rfl rfl rfl rfl rfl rfl rfl rfl rfl rfl rfl rfl rfl rfl rfl rfl rfl rfl Ks
  | canarySample => exact exec_canarySample ▸ execCanarySample_keeps K rfl rfl rfl rfl rfl rfl Ks
  | canaryIdleExercise => exact exec_canaryIdleExercise ▸ execCanaryIdleExercise_keeps K rfl rfl rfl rfl rfl rfl Ks
  | senFreezeExpiry => exact exec_senFreezeExpiry ▸ execSenFreezeExpiry_keeps K rfl rfl Ks
  | supplyExcursion => exact exec_supplyExcursion ▸ execSupplyExcursion_keeps K rfl rfl rfl rfl rfl rfl Ks
  | brownOut => exact exec_brownOut ▸ execBrownOut_keeps K rfl rfl rfl rfl rfl Ks
  | brownOutRecovery => exact exec_brownOutRecovery ▸ execBrownOutRecovery_keeps K rfl rfl rfl Ks
  | tjWarnCrossing => exact exec_tjWarnCrossing ▸ execTjWarnCrossing_keeps K rfl rfl rfl rfl rfl Ks
  | referenceClockLost => exact exec_referenceClockLost ▸ execReferenceClockLost_keeps K rfl Ks
  | referenceClockRegained => exact exec_referenceClockRegained ▸ execReferenceClockRegained_keeps K rfl Ks
  | vaonRamp => exact exec_vaonRamp ▸ execVaonRamp_keeps K rfl rfl rfl rfl rfl Ks
  | strapSample => exact exec_strapSample ▸ execStrapSample_keeps K rfl Ks
  | chipResetRelease =>
    exact exec_chipResetRelease ▸ execChipResetRelease_keeps K rfl rfl rfl rfl rfl rfl rfl rfl rfl rfl rfl rfl rfl rfl rfl rfl rfl rfl rfl rfl rfl rfl rfl rfl rfl rfl Ks
  | recoveryFetchRetry => exact exec_recoveryFetchRetry ▸ execRecoveryFetchRetry_keeps K rfl rfl rfl rfl rfl rfl rfl rfl rfl rfl rfl rfl Ks
  | firmwareStart => exact exec_firmwareStart ▸ execFirmwareStart_keeps K rfl rfl rfl rfl rfl rfl rfl rfl rfl rfl Ks
  | railLoss =>
    exact exec_railLoss ▸ execRailLoss_keeps K rfl rfl rfl rfl rfl rfl rfl rfl rfl rfl rfl rfl rfl rfl rfl rfl rfl rfl rfl rfl rfl rfl rfl rfl rfl rfl rfl Ks
  | tableWalkRead => exact exec_tableWalkRead ▸ execTableWalkRead_keeps K rfl rfl rfl rfl rfl rfl Ks
  | blockDmaAccess => exact exec_blockDmaAccess ▸ execBlockDmaAccess_keeps K rfl rfl rfl rfl rfl rfl Ks
  | eventReadIndexWrite => exact exec_eventReadIndexWrite ▸ execEventReadIndexWrite_keeps K rfl rfl rfl rfl rfl rfl Ks
  | preemptionPoint => exact exec_preemptionPoint ▸ execPreemptionPoint_keeps K rfl Ks
  | vbatRamp => exact exec_vbatRamp ▸ execVbatRamp_keeps K rfl rfl rfl Ks
  | resetPortAssert =>
    exact exec_resetPortAssert ▸ execResetPortAssert_keeps K rfl rfl rfl rfl rfl rfl rfl rfl rfl rfl rfl rfl rfl rfl rfl rfl rfl rfl rfl rfl rfl rfl rfl rfl rfl Ks
  | lossOfSecure => exact exec_lossOfSecure ▸ execLossOfSecure_keeps K rfl rfl rfl rfl rfl rfl rfl rfl rfl rfl rfl rfl Ks
  | srcCfgWrite => exact exec_srcCfgWrite ▸ execSrcCfgWrite_keeps K rfl Ks
  | pmrWrite => exact exec_pmrWrite ▸ execPmrWrite_keeps K rfl Ks
  | spdmHeartbeatTimeout => exact exec_spdmHeartbeatTimeout ▸ execSpdmHeartbeatTimeout_keeps K rfl rfl rfl rfl Ks
  | powerEstimateUpdate => exact exec_powerEstimateUpdate ▸ execPowerEstimateUpdate_keeps K rfl rfl Ks
  -- SEAL, whose constructor has the name of a keyword of Lean
  | _ => exact exec_seal ▸ execSeal_keeps K rfl rfl rfl rfl rfl Ks

/-- Every command keeps what Safety.lean asks of a safe run (`Kept`), whatever parts it changes. -/
theorem exec_kept (c : Instr) (s : State) : KeepsBy (Kept s) (exec c s) :=
  exec_keeps ((Kept.keeps s).mono fun _ _ => rfl) (Kept.refl s)

/-! ### Every command has a next state -/

/-- The meaning of every command is `.next` of the state that its operations make: what the manual refuses is a status inside that state (R15,
R337, R450), so each arm of the dispatch unfolds to a next state. -/
theorem exec_isNext (c : Instr) (s : State) : ∃ t, exec c s = .next t := by
  cases c <;> exact ⟨_, rfl⟩

/-! ### The statements about the whole machine -/

/-- Settles O6: a command keeps `Kept`, which holds these three facts among others. -/
theorem commandsOnlyAddOutput : Obligations.CommandsOnlyAddOutput := by
  unfold Obligations.CommandsOnlyAddOutput
  intro c s t h
  have kept : Kept s t := (exec_kept c s).next h
  exact ⟨kept.pending, kept.out, kept.free⟩

/-- Settles O7, by the dispatch: `exec_isNext`. -/
theorem everyCommandAnswersANextState : Obligations.EveryCommandAnswersANextState := exec_isNext

/-- Settles O1, by the equation of a step on a queue that is not empty. -/
theorem stepRunsFrontCommand : Obligations.StepRunsFrontCommand := by
  unfold Obligations.StepRunsFrontCommand
  intro c rest s h
  simp only [step, h]

end Sys2Proof.Machine

namespace Sys2Proof.Machine

/-! ### The parts that a command may change -/

/-- Settles O8: a frame (`Off`) is one of the properties that `exec_keeps` says every command keeps. -/
theorem commandsChangeOnlyTheirParts : Obligations.CommandsChangeOnlyTheirParts := by
  unfold Obligations.CommandsChangeOnlyTheirParts
  intro c s t h
  exact (exec_keeps (Off.keeps _ s) .refl).next h

/-! ### Fences that wait for a gate -/

/-- A held local fence whose conditions have come to hold has its gate sampled (R38, R286). -/
def sampleHold (s : State) (h : FenceHold) : FenceHold :=
  if !h.egress && h.sample.isEmpty && localReady s h.key then { h with sample := gateSample s h.slice } else h

/-- A held fence ends: its gate has been sampled, and lets it through. -/
def holdEnds (s : State) (h : FenceHold) : Bool := !h.sample.isEmpty && holdDone s h

/-- A fence that ends signals its counter, when it names one (R346). -/
def signalHold (h : FenceHold) (s : State) : State :=
  match h.counter with
  | some (c, v) => wakeSync h.slice c (signalCounter h.slice c v (match s.flight h.key with | some f => rawCtx f.raw | none => 0) s)
  | none => s

/-- A fence that ends forgets its wait and is finished. -/
def endHold (s : State) (h : FenceHold) : State :=
  let s := signalHold h s
  finish h.key St.success h.detail { s with cex := { s.cex with waits := s.cex.waits.filter (fun w => w.key != h.key) } }

/-- The state with other fences held. -/
def State.withHolds (l : List FenceHold) (s : State) : State := { s with cex := { s.cex with holds := l } }

@[simp] theorem withHolds_rest {l : List FenceHold} {s : State} :
    (s.withHolds l).cex.holds = l ∧ (s.withHolds l).cex.waits = s.cex.waits ∧ (s.withHolds l).cex.syncs = s.cex.syncs := ⟨rfl, rfl, rfl⟩

theorem Runs.withHolds {k : CmdKey} {l : List FenceHold} {s : State} (h : Runs k s) : Runs k (s.withHolds l) := h.of_queues rfl

/-- Settling the held fences: those that wait on stay, the others end in their order. -/
theorem settleHolds_eq (s : State) : settleHolds s =
    ((s.cex.holds.map (sampleHold s)).filter (holdEnds s)).foldl endHold
      (s.withHolds ((s.cex.holds.map (sampleHold s)).filter (fun h => !holdEnds s h))) := by
  simp only [holdEnds, Bool.not_and, Bool.not_not]
  rfl

theorem signalHold_none {h : FenceHold} {s : State} (hc : h.counter = none) : signalHold h s = s := by unfold signalHold; rw [hc]

/-- A wait that a counter's signal leaves was there before. -/
theorem wakeSync_waits_subset (sl c : Nat) (s : State) : (wakeSync sl c s).cex.waits ⊆ s.cex.waits := by
  intro w hw
  unfold wakeSync at hw
  have hm := (List.mem_filter.1 hw).1
  rwa [(foldl_finish_waits _ s).1] at hm

theorem wakeSync_holds (sl c : Nat) (s : State) : (wakeSync sl c s).cex.holds = s.cex.holds := (foldl_finish_waits _ s).2.2

theorem wakeSync_graph {sl c n m : Nat} {s : State} : (wakeSync sl c s).graph n m = s.graph n m :=
  foldl_keep (P := fun u => u.graph n m = s.graph n m) (f := fun s w => finish (WaitRec.key w) _ _ s) (fun _ _ e => e) _ s rfl

theorem signalHold_holds (h : FenceHold) (s : State) : (signalHold h s).cex.holds = s.cex.holds := by
  unfold signalHold
  split
  · exact wakeSync_holds _ _ _
  · rfl

theorem signalHold_graph {h : FenceHold} {n m : Nat} {s : State} : (signalHold h s).graph n m = s.graph n m := by
  unfold signalHold
  split
  · exact wakeSync_graph
  · rfl

theorem endHold_holds (s : State) (h : FenceHold) : (endHold s h).cex.holds = s.cex.holds := signalHold_holds h s

theorem endHold_graph {h : FenceHold} {n m : Nat} {s : State} : (endHold s h).graph n m = s.graph n m := signalHold_graph

/-- The command runs, and no wait names it: what other commands signal does not end it. -/
def RunsUnwaited (k : CmdKey) (s : State) : Prop := Runs k s ∧ ∀ w ∈ s.cex.waits, w.key ≠ k

theorem RunsUnwaited.withHolds {k : CmdKey} {s : State} (r : RunsUnwaited k s) {l : List FenceHold} : RunsUnwaited k (s.withHolds l) :=
  ⟨r.1.withHolds, r.2⟩

theorem RunsUnwaited.updGraph {k : CmdKey} {s : State} (r : RunsUnwaited k s) {sl n : Nat} {f : Graph → Graph} : RunsUnwaited k (updGraph sl n f s) :=
  ⟨updGraph_runs r.1, r.2⟩

theorem RunsUnwaited.signalCounter {k : CmdKey} {s : State} (r : RunsUnwaited k s) (sl c ctx : Nat) (v : BitVec 64) :
    RunsUnwaited k (signalCounter sl c v ctx s) := ⟨r.1.of_queues rfl, r.2⟩

theorem RunsUnwaited.wakeSync {k : CmdKey} {s : State} (r : RunsUnwaited k s) (sl c : Nat) : RunsUnwaited k (wakeSync sl c s) :=
  ⟨wakeSync_runs r.1 fun w hw e => absurd e (r.2 w hw), fun w hw => r.2 w (wakeSync_waits_subset _ _ _ hw)⟩

theorem RunsUnwaited.signalHold {k : CmdKey} {s : State} (r : RunsUnwaited k s) (h : FenceHold) : RunsUnwaited k (signalHold h s) := by
  unfold Machine.signalHold
  split
  · exact (r.signalCounter _ _ _ _).wakeSync _ _
  · exact r

/-- The end of another command's fence leaves a running command running. -/
theorem RunsUnwaited.endHold {k : CmdKey} {s : State} (r : RunsUnwaited k s) {h : FenceHold} (hk : h.key ≠ k) : RunsUnwaited k (endHold s h) := by
  obtain ⟨runs, free⟩ := r.signalHold h
  exact ⟨(runs.of_queues rfl).finish_ne hk.symm, fun w hw => free w (List.mem_filter.1 hw).1⟩

theorem RunsUnwaited.foldl_endHold {k : CmdKey} (l : List FenceHold) {s : State} (r : RunsUnwaited k s) (hl : ∀ h ∈ l, h.key ≠ k) :
    RunsUnwaited k (l.foldl Machine.endHold s) := by
  induction l generalizing s with
  | nil => exact r
  | cons h l ih => exact ih (r.endHold (hl h (List.mem_cons_self ..))) fun x hx => hl x (List.mem_cons_of_mem _ hx)

/-- The command of a fence that ends has ended with SUCCESS and the fence's DETAIL. -/
theorem endHold_ended {h : FenceHold} {s : State} (r : RunsUnwaited h.key s) : Ended h.key St.success h.detail (endHold s h) :=
  finish_ended _ _ ((r.signalHold h).1.of_queues rfl)

theorem settleHolds_graph {n m : Nat} {s : State} : (settleHolds s).graph n m = s.graph n m := by
  rw [settleHolds_eq]
  exact foldl_keep (P := fun u => u.graph n m = s.graph n m) (fun _ _ e => endHold_graph.trans e) _ _ rfl

theorem foldl_endHold_holds (l : List FenceHold) (s : State) : (l.foldl endHold s).cex.holds = s.cex.holds :=
  foldl_keep (P := fun u => u.cex.holds = s.cex.holds) (fun u h e => (endHold_holds u h).trans e) l s rfl

theorem sampleHold_key (s : State) (h : FenceHold) : (sampleHold s h).key = h.key := by unfold sampleHold; split <;> rfl

theorem sampleHold_detail (s : State) (h : FenceHold) : (sampleHold s h).detail = h.detail := by unfold sampleHold; split <;> rfl

theorem sampleHold_egress {s : State} {h : FenceHold} (he : h.egress = true) : sampleHold s h = h := by simp [sampleHold, he]

theorem sampleHold_sampled {s : State} {h : FenceHold} (hs : h.sample.isEmpty = false) : sampleHold s h = h := by simp [sampleHold, hs]

/-- A local fence whose earlier commands have completed has its gate sampled (R38, R286). -/
theorem sampleHold_local {s : State} {h : FenceHold} (he : h.egress = false) (hs : h.sample = []) (hr : localReady s h.key = true) :
    sampleHold s h = { h with sample := gateSample s h.slice } := by simp [sampleHold, he, hs, hr]

/-- What adding a fence does to the fences already held, and to its own, in the order in which they were held. -/
theorem addHold_eq (f : FenceHold) (s : State) : addHold f s =
    ((s.cex.holds.map (sampleHold s)).filter (holdEnds s) ++ [sampleHold s f].filter (holdEnds s)).foldl endHold
      (s.withHolds ((s.cex.holds.map (sampleHold s)).filter (fun h => !holdEnds s h) ++ [sampleHold s f].filter (fun h => !holdEnds s h))) := by
  rw [← List.filter_append, ← List.filter_append, ← List.map_singleton, ← List.map_append]
  exact settleHolds_eq _

section
variable {f : FenceHold} {s : State}

/-- The fences held before a new command's do not name it, sampled or not. -/
theorem sampled_key_ne {k : CmdKey} (hh : ∀ x ∈ s.cex.holds, x.key ≠ k) (p : FenceHold → Bool) :
    ∀ x ∈ (s.cex.holds.map (sampleHold s)).filter p, x.key ≠ k := by
  intro x hx
  obtain ⟨y, hy, rfl⟩ := List.mem_map.1 (List.mem_filter.1 hx).1
  rw [sampleHold_key]
  exact hh y hy

/-- The ends of the fences held before leave a new fence's command running. -/
theorem RunsUnwaited.held (r : RunsUnwaited f.key s) (hh : ∀ x ∈ s.cex.holds, x.key ≠ f.key) (l : List FenceHold) :
    RunsUnwaited f.key (((s.cex.holds.map (sampleHold s)).filter (holdEnds s)).foldl Machine.endHold (s.withHolds l)) :=
  RunsUnwaited.foldl_endHold _ r.withHolds (sampled_key_ne hh _)

/-- A fence that nothing holds ends its command at once (R39, R286). -/
theorem addHold_ended (r : RunsUnwaited f.key s) (hh : ∀ x ∈ s.cex.holds, x.key ≠ f.key) (he : holdEnds s (sampleHold s f) = true) :
    Ended f.key St.success f.detail (addHold f s) := by
  rw [addHold_eq, List.filter_cons_of_pos he, List.filter_nil, List.foldl_append, ← sampleHold_key s f, ← sampleHold_detail s f]
  exact endHold_ended (sampleHold_key s f ▸ r.held hh _)

/-- A fence whose gate or whose other conditions are missing waits, and its command runs on (R39, R286). -/
theorem addHold_waits (r : RunsUnwaited f.key s) (hh : ∀ x ∈ s.cex.holds, x.key ≠ f.key) (he : holdEnds s (sampleHold s f) = false) :
    Runs f.key (addHold f s) ∧ sampleHold s f ∈ (addHold f s).cex.holds := by
  have ends : [sampleHold s f].filter (holdEnds s) = [] := by simp [he]
  rw [addHold_eq, ends, List.append_nil, foldl_endHold_holds]
  exact ⟨(r.held hh _).1, List.mem_append_right _ (List.mem_filter.2 ⟨List.mem_singleton_self _, by simp [he]⟩)⟩

/-- With no other fence held, a fence that nothing holds is the only one that ends. -/
theorem addHold_alone (hh : s.cex.holds = []) (he : holdEnds s (sampleHold s f) = true) : addHold f s = endHold (s.withHolds []) (sampleHold s f) := by
  simp [addHold_eq, hh, he]

end

/-- A command at the gate of its slice ends there when the gate is open, and waits for it otherwise (R39, R286). -/
theorem throughGate_endsAtGate {k : CmdKey} {sl d : Nat} {s u : State} (r : RunsUnwaited k u) (hh : ∀ x ∈ u.cex.holds, x.key ≠ k)
    (ac : u.ac = s.ac) (vt : u.vt = s.vt) : EndsAtGate k sl d s (throughGate k sl d u) := by
  have none_held : u.cex.holds.any (fun x => x.key == k) = false := by
    rw [List.any_eq_false]
    simpa using hh
  let f : FenceHold := { key := k, slice := sl, egress := false, sample := gateSample s sl, tlps := 0, counter := none, detail := d }
  have sampled : sampleHold u f = f := sampleHold_sampled gateSample_ne
  have ends : holdEnds u (sampleHold u f) = gateOpen s sl (gateSample s sl) := by
    simp [sampled, f, holdEnds, holdDone, gateSample_ne, gateOpen_of_vt vt]
  unfold throughGate
  rw [none_held, if_neg Bool.false_ne_true, gateSample_of_ac ac]
  constructor
  · intro opened
    exact addHold_ended (f := f) r hh (ends.trans opened)
  · intro closed
    obtain ⟨runs, held⟩ := addHold_waits (f := f) r hh (ends.trans closed)
    exact ⟨runs, f, sampled ▸ held, rfl, rfl, rfl⟩

theorem throughGate_graph {k : CmdKey} {sl d n m : Nat} {s : State} : (throughGate k sl d s).graph n m = s.graph n m := by
  unfold throughGate
  split
  · rfl
  · exact settleHolds_graph

/-- A command that has just started runs, and no wait names it. -/
theorem started_unwaited {h : CmdHdr} {op : Nat} {ops : List (Nat × Nat × Nat)} {s : State} (H : Starts h op ops s)
    (free : ∀ w ∈ s.cex.waits, w.key ≠ h.key) : RunsUnwaited h.key (s.started h) := by
  refine ⟨started_runs H, ?_⟩
  simpa using free

/-! ### Buffers and graphs -/

/-- The frame that CALL starts over its buffer (R340). -/
def callFrame (h : CmdHdr) (count : BitVec 16) (index : BitVec 8) (limit : BitVec 32) : Frame := {
  key := h.key, graph := none, count := count.toNat, limit := limit.toNat, index := index.toNat % 16, iteration := 0, started := false,
  fetched := 0, finished := 0, bad := none, handle := none, slice := hdrSlice h }

/-- The frame that LAUNCH starts over the copy of a loaded graph (R344). -/
def launchFrame (h : CmdHdr) (handle : Nat) (g : Graph) : Frame := {
  key := h.key, graph := some g.copy, count := g.count, limit := 1, index := 0, iteration := 0, started := true, fetched := 0, finished := 0,
  bad := none, handle := some (hdrSlice h * 64 + handle), slice := hdrSlice h }

theorem callFrame_key {h : CmdHdr} {count : BitVec 16} {index : BitVec 8} {limit : BitVec 32} : (callFrame h count index limit).key = h.key := rfl

theorem launchFrame_key {h : CmdHdr} {handle : Nat} {g : Graph} : (launchFrame h handle g).key = h.key := rfl

/-- A frame comes behind the others of its command's queue. -/
theorem frames_addFrame {f : Frame} {k : CmdKey} {s : State} (hk : f.key = k) : ((addFrame f s).q k).frames = (s.q k).frames ++ [f] :=
  hk ▸ addFrame_frames

theorem addFrame_graph {f : Frame} {s : State} {sl n : Nat} : (addFrame f s).graph sl n = s.graph sl n := rfl

theorem updGraph_q {sl n : Nat} {f : Graph → Graph} {s : State} {k : CmdKey} : (updGraph sl n f s).q k = s.q k := rfl

/-- CALL starts a frame over its buffer (R340, R341). -/
theorem call_runs {h : CmdHdr} {bva : BitVec 64} {count : BitVec 16} {index : BitVec 8} {limit : BitVec 32} {s : State}
    (H : Starts h 0x0001 [(0x18, 8, bva.toNat), (0x20, 2, count.toNat), (0x22, 1, index.toNat), (0x24, 4, limit.toNat)] s)
    (depth : h.key.path.length < 4) (aligned : bva.toNat % 8 = 0) (hc : count ≠ 0) (hl : limit ≠ 0)
    (room : 64 ≤ partitionSpaces (s.started h) (hdrSlice h)) :
    ∃ t, exec (.call h bva count index limit) s = .next t ∧ Runs h.key t ∧
      (t.q h.key).frames = (s.q h.key).frames ++ [callFrame h count index limit] := by
  have run : exec (.call h bva count index limit) s = .next (addFrame (callFrame h count index limit) (s.started h)) := by
    rw [exec_call, execCall, cexRun_starts H, nested_ok depth, checked_ok]
    · rfl
    · simpa [firstFail_cons, firstFail_nil, aligned8, aligned, room] using And.intro hc hl
  exact ⟨_, run, addFrame_runs (started_runs H) callFrame_key, by rw [frames_addFrame callFrame_key, started_frames]⟩

/-- The number of the iteration that a CALL's frame comes to next (R340). -/
def nextIteration (f : Frame) : Nat := if f.started then f.iteration + 1 else 0

/-- The frames of a CALL begin an iteration (R340). -/
def beginIteration (key : CmdKey) (k : Nat) (s : State) : State :=
  updQ key.queue.toNat (fun q => { q with
    frames := mapIf (fun g => g.key == key) (fun g => { g with iteration := k, started := true, fetched := 0, finished := 0 }) q.frames }) s

/-- A CALL whose iteration has finished comes to its next one: the index scalar is written, and the CALL ends or the iteration begins (R340). -/
theorem callIterationStart_eq {key : CmdKey} {f : Frame} {p : Flight} {s : State}
    (frame : (s.q key).frames.find? (fun f => f.key == key && f.graph.isNone) = some f) (flight : s.flight key = some p)
    (running : p.phase = .running) (fetches : fetchStopped s (s.q key).owner = false) (finished : f.started = true → f.count ≤ f.finished) :
    let k := nextIteration f
    let u := setScalar key f.index (BitVec.ofNat 64 k) s
    exec (.callIterationStart key) s =
      .next (if !condHolds (u.q key) (rawCond p.raw) || k == f.limit then endCall f k u else beginIteration key k u) := by
  have idle : (f.started && decide (f.finished < f.count)) = false := by
    cases hs : f.started with
    | false => rfl
    | true => simpa using finished hs
  rw [exec_callIterationStart]
  unfold execCallIterationStart
  simp only [frame, flight, running, fetches, idle]
  rfl

theorem beginIteration_runs {key : CmdKey} {k : Nat} {s : State} (h : Runs key s) : Runs key (beginIteration key k s) :=
  h.of_queues (updQ_flights rfl)

theorem beginIteration_scalars {key : CmdKey} {k : Nat} {s : State} : ((beginIteration key k s).q key).scalars = (s.q key).scalars := by
  unfold beginIteration; rw [updQ_q]

theorem beginIteration_frames {key : CmdKey} {k : Nat} {s : State} : ∀ g ∈ ((beginIteration key k s).q key).frames, g.key = key →
    g.iteration = k ∧ g.started = true ∧ g.fetched = 0 ∧ g.finished = 0 := by
  intro g hg hk
  unfold beginIteration at hg
  rw [updQ_q] at hg
  obtain ⟨v, _, ⟨_, rfl⟩ | ⟨hv, rfl⟩⟩ := mem_mapIf hg
  · exact ⟨rfl, rfl, rfl, rfl⟩
  · simp [hk] at hv

theorem endCall_ended {f : Frame} {k : Nat} {s : State} (h : Runs f.key s) :
    Ended f.key (match f.bad with | some b => b.2.2 | none => 0) k (endCall f k s) :=
  (finish_ended _ _ h).of_queues (updQ_flights rfl)

theorem endCall_scalars {f : Frame} {k : Nat} {s : State} : ((endCall f k s).q f.key).scalars = (s.q f.key).scalars := by
  unfold endCall; rw [updQ_q]; exact finish_scalars

theorem endCall_frames {f : Frame} {k : Nat} {s : State} : ∀ g ∈ ((endCall f k s).q f.key).frames, g.key ≠ f.key := by
  intro g hg
  unfold endCall at hg
  rw [updQ_q] at hg
  simpa using (List.mem_filter.1 hg).2

/-- CALL_ITERATION_START writes the index scalar, and ends the CALL or begins its next iteration (R340). -/
theorem callIterationStart_spec {key : CmdKey} {f : Frame} {p : Flight} {s : State}
    (frame : (s.q key).frames.find? (fun f => f.key == key && f.graph.isNone) = some f) (flight : s.flight key = some p)
    (running : p.phase = .running) (unkilled : p.override = none) (fetches : fetchStopped s (s.q key).owner = false)
    (finished : f.started = true → f.count ≤ f.finished) :
    let k := nextIteration f
    let q := { s.q key with scalars := (s.q key).scalars.set f.index (BitVec.ofNat 64 k) }
    ∃ t, exec (.callIterationStart key) s = .next t ∧ (t.q key).scalars.get f.index = BitVec.ofNat 64 k ∧
      (k = f.limit ∨ condHolds q (rawCond p.raw) = false →
        Ended key (match f.bad with | some b => b.2.2 | none => 0) k t ∧ ∀ g ∈ (t.q key).frames, g.key ≠ key) ∧
      (k ≠ f.limit → condHolds q (rawCond p.raw) = true →
        Runs key t ∧ ∀ g ∈ (t.q key).frames, g.key = key → g.iteration = k ∧ g.started = true ∧ g.fetched = 0 ∧ g.finished = 0) := by
  intro k q
  obtain rfl : f.key = key := by
    have named := List.find?_some frame
    rw [Bool.and_eq_true, beq_iff_eq] at named
    exact named.1
  have runs : Runs f.key (setScalar f.key f.index (BitVec.ofNat 64 k) s) := setScalar_runs ⟨p, flight, running, unkilled⟩
  have index : ((setScalar f.key f.index (BitVec.ofNat 64 k) s).q f.key).scalars.get f.index = BitVec.ofNat 64 k := by
    rw [setScalar_get, if_pos rfl]
  have hq : (setScalar f.key f.index (BitVec.ofNat 64 k) s).q f.key = q := updQ_q _ _
  refine ⟨_, callIterationStart_eq frame flight running fetches finished, ?_⟩
  rw [hq]
  by_cases last : k = f.limit ∨ condHolds q (rawCond p.raw) = false
  · rw [if_pos (by simpa [or_comm] using last)]
    exact ⟨by rw [endCall_scalars, index], fun _ => ⟨endCall_ended runs, endCall_frames⟩, fun more cond => absurd last (by simp [more, cond])⟩
  · rw [if_neg (by simpa [or_comm] using last)]
    exact ⟨by rw [beginIteration_scalars, index], fun h => absurd h last, fun _ _ => ⟨beginIteration_runs runs, beginIteration_frames⟩⟩

/-- SEAL keeps its graph's digest and ends at the gate of its slice (R39, R342, R343). -/
theorem seal_endsAtGate {h : CmdHdr} {bva : BitVec 64} {count : BitVec 16} {handle : BitVec 8} {graph : List (BitVec 512)} {s : State}
    (H : Starts h 0x0002 [(0x18, 8, bva.toNat), (0x20, 2, count.toNat), (0x22, 1, handle.toNat)] s) (fresh : Fresh h.key s)
    (aligned : bva.toNat % 8 = 0) (hc : count ≠ 0) (hm : count.toNat ≤ 8192) (hn : handle.toNat < 64)
    (idle : (s.graph (hdrSlice h) handle.toNat).launches = 0) (fits : count.toNat ≤ (s.slice (hdrSlice h)).graphKib.2 * 16) :
    let d := graphDigest (graphOf count.toNat graph)
    ∃ t, exec (.seal h bva count handle none graph) s = .next t ∧ EndsAtGate h.key (hdrSlice h) (digestHead d) s t ∧
      t.graph (hdrSlice h) handle.toNat = { state := 1, digest := d, count := count.toNat, copy := [], launches := 0 } := by
  intro d
  have run : exec (.seal h bva count handle none graph) s = .next (throughGate h.key (hdrSlice h) (digestHead d)
      (updGraph (hdrSlice h) handle.toNat (fun _ => { state := 1, digest := d, count := count.toNat, copy := [], launches := 0 }) (s.started h))) := by
    rw [exec_seal, execSeal]
    simp only [idle, bne_self_eq_false, Bool.and_false, Bool.false_eq_true, if_false]
    rw [cexRun_starts H, checked_ok]
    rw [started_slice]
    simpa [firstFail_cons, firstFail_nil, aligned8, aligned, hm, hn, fits] using hc
  refine ⟨_, run, throughGate_endsAtGate (started_unwaited H fresh.waits).updGraph ?_ ?_ ?_, by rw [throughGate_graph, updGraph_graph]⟩
  · simpa [updGraph] using fresh.holds
  · simp [updGraph]
  · simp [updGraph]

/-- LOAD loads the copy of a graph that has the handle's digest, and refuses another (R343). -/
theorem load_ended {h : CmdHdr} {bva : BitVec 64} {handle : BitVec 8} {graph : List (BitVec 512)} {s : State}
    (H : Starts h 0x0003 [(0x18, 8, bva.toNat), (0x22, 1, handle.toNat)] s) (aligned : bva.toNat % 8 = 0) (hn : handle.toNat < 64) :
    let g := s.graph (hdrSlice h) handle.toNat
    g.launches = 0 → g.count ≤ partitionSpaces (s.started h) (hdrSlice h) →
    ∃ t, exec (.load h bva handle none graph) s = .next t ∧
      (g.state ≠ 0 ∧ graphDigest (graphOf g.count graph) = g.digest →
        Ended h.key St.success 0 t ∧ t.graph (hdrSlice h) handle.toNat = { g with state := 2, copy := graphOf g.count graph }) ∧
      (¬ (g.state ≠ 0 ∧ graphDigest (graphOf g.count graph) = g.digest) →
        Ended h.key St.hashMismatch 0 t ∧ t.graph (hdrSlice h) handle.toNat = g) := by
  intro g idle room
  have started : (s.started h).graph (hdrSlice h) handle.toNat = g := State.started_graph
  have run : exec (.load h bva handle none graph) s = .next (if g.state ≠ 0 ∧ graphDigest (graphOf g.count graph) = g.digest then
      finish h.key St.success 0 (updGraph (hdrSlice h) handle.toNat (fun g' => { g' with state := 2, copy := graphOf g.count graph }) (s.started h))
      else finish h.key St.hashMismatch 0 (s.started h)) := by
    rw [exec_load, execLoad]
    have idle' : (s.graph (hdrSlice h) handle.toNat).launches = 0 := idle
    simp only [idle', bne_self_eq_false, Bool.and_false, Bool.false_eq_true, if_false]
    rw [cexRun_starts H, checked_ok]
    · simp [started]
    · simp [firstFail_cons, firstFail_nil, aligned8, aligned, hn, started, room]
  refine ⟨_, run, fun same => ?_, fun differs => ?_⟩
  · rw [if_pos same, finish_graph, updGraph_graph, started]
    exact ⟨finish_ended _ _ (updGraph_runs (started_runs H)), rfl⟩
  · rw [if_neg differs, finish_graph, started]
    exact ⟨finish_ended _ _ (started_runs H), rfl⟩

/-- LAUNCH starts a frame over the loaded copy, and its handle counts it in flight (R344). -/
theorem launch_runs {h : CmdHdr} {handle : BitVec 8} {s : State} (H : Starts h 0x0004 [(0x22, 1, handle.toNat)] s)
    (depth : h.key.path.length < 4) (hn : handle.toNat < 64) (loaded : (s.graph (hdrSlice h) handle.toNat).state = 2) :
    ∃ t, exec (.launch h handle) s = .next t ∧ Runs h.key t ∧
      (t.graph (hdrSlice h) handle.toNat).launches = (s.graph (hdrSlice h) handle.toNat).launches + 1 ∧
      (t.q h.key).frames = (s.q h.key).frames ++ [launchFrame h handle.toNat (s.graph (hdrSlice h) handle.toNat)] := by
  have run : exec (.launch h handle) s = .next (addFrame (launchFrame h handle.toNat (s.graph (hdrSlice h) handle.toNat))
      (updGraph (hdrSlice h) handle.toNat (fun g => { g with launches := g.launches + 1 }) (s.started h))) := by
    rw [exec_launch, execLaunch, cexRun_starts H, nested_ok depth]
    dsimp only
    rw [State.started_graph, checked_ok]
    · rfl
    · simp [firstFail_cons, firstFail_nil, hn, loaded]
  refine ⟨_, run, addFrame_runs (updGraph_runs (started_runs H)) launchFrame_key, by rw [addFrame_graph, updGraph_graph, State.started_graph], ?_⟩
  rw [frames_addFrame launchFrame_key, updGraph_q, started_frames]

/-- Settles O13: one lemma for each of the five commands. -/
theorem bufferAndGraphCommandsComplete : Obligations.BufferAndGraphCommandsComplete := by
  unfold Obligations.BufferAndGraphCommandsComplete
  refine ⟨?_, ?_, ?_, ?_, ?_⟩
  · intro h bva count index limit s
    exact call_runs
  · intro key f p s
    exact callIterationStart_spec
  · intro h bva count handle graph s
    exact seal_endsAtGate
  · intro h bva handle graph s
    exact load_ended
  · intro h handle s
    exact launch_runs

/-! ### Local and egress fences, groups -/

/-- A fence that signals no counter ends with its own command finished, and leaves the counters. -/
theorem endHold_silent {f : FenceHold} {s : State} (hc : f.counter = none) (r : Runs f.key s) :
    Ended f.key St.success f.detail (endHold s f) ∧ (endHold s f).cex.syncs = s.cex.syncs := by
  unfold endHold
  rw [signalHold_none hc]
  exact ⟨finish_ended _ _ (r.of_queues rfl), rfl⟩

/-- A fence that signals a counter, with no command waiting, leaves its value there and nothing broken (R346). -/
theorem endHold_signals {f : FenceHold} {s : State} {c : Nat} {v : BitVec 64} (hc : f.counter = some (c, v)) (hw : s.cex.waits = []) :
    ((endHold s f).cex.syncs.get (f.slice * 64 + c)).value = v ∧ ((endHold s f).cex.syncs.get (f.slice * 64 + c)).broken = false := by
  unfold endHold signalHold
  rw [hc]
  dsimp only
  rw [wakeSync_nil (by exact hw)]
  simp [finish, updFlight, signalCounter]

/-- The fence that FENCE_LOCAL holds until its conditions are met, with its gate sample (R38, R346). -/
def localHold (h : CmdHdr) (value : BitVec 64) (counter opt : BitVec 8) (sample : List Nat) : FenceHold :=
  { key := h.key, slice := hdrSlice h, egress := false, sample, tlps := 0,
    counter := if bit opt.toNat 0 then some (counter.toNat, value) else none }

theorem sampleHold_localHold {h : CmdHdr} {value : BitVec 64} {counter opt : BitVec 8} {s : State} (ready : localReady s h.key = true) :
    sampleHold s (localHold h value counter opt []) = localHold h value counter opt (gateSample s (hdrSlice h)) := sampleHold_local rfl rfl ready

/-- FENCE_LOCAL ends when its earlier commands have completed and its gate is open, and signals the counter it names (R38, R286, R346). -/
theorem fenceLocal_ended {h : CmdHdr} {value : BitVec 64} {counter opt : BitVec 8} {s : State}
    (H : Starts h 0x0030 [(0x18, 8, value.toNat), (0x20, 1, counter.toNat), (0x21, 1, opt.toNat)] s)
    (named : bit opt.toNat 0 = true → counter.toNat < 64) (ready : localReady (s.started h) h.key = true)
    (opened : gateOpen s (hdrSlice h) (gateSample s (hdrSlice h)) = true) (noHolds : s.cex.holds = []) (noWaits : s.cex.waits = []) :
    ∃ t, exec (.fenceLocal h value counter opt) s = .next t ∧ Ended h.key St.success 0 t ∧ t.cex.holds = [] ∧
      (bit opt.toNat 0 = true → (t.cex.syncs.get (hdrSlice h * 64 + counter.toNat)).value = value ∧
        (t.cex.syncs.get (hdrSlice h * 64 + counter.toNat)).broken = false) ∧
      (bit opt.toNat 0 = false → t.cex.syncs = s.cex.syncs) := by
  let f := localHold h value counter opt (gateSample s (hdrSlice h))
  have sampled : sampleHold (s.started h) (localHold h value counter opt []) = f := by
    rw [sampleHold_localHold ready, started_gateSample]
  have ends : holdEnds (s.started h) f = true := by
    simp [holdEnds, holdDone, f, localHold, gateSample_ne, gateOpen_of_vt (s := s) (t := s.started h) (by simp), opened]
  have inRange : (!bit opt.toNat 0 || decide (counter.toNat < 64)) = true := by
    cases signals : bit opt.toNat 0 with
    | false => rfl
    | true => simp [named signals]
  have alone := addHold_alone (s := s.started h) (by simpa using noHolds) (by rw [sampled, ends])
  have run : exec (.fenceLocal h value counter opt) s = .next (endHold ((s.started h).withHolds []) f) := by
    rw [exec_fenceLocal, execFenceLocal, cexRun_starts H, ← sampled, ← alone]
    exact congrArg _ (checked_ok (firstFail_one.2 inRange))
  have unwaited : RunsUnwaited f.key ((s.started h).withHolds []) := (started_unwaited H (by simp [noWaits])).withHolds
  refine ⟨_, run, endHold_ended (h := f) unwaited, endHold_holds _ _, fun signals => ?_, fun silent => ?_⟩
  · exact endHold_signals (f := f) (if_pos signals) (by simp [noWaits])
  · refine (endHold_silent (f := f) (if_neg (by simp [silent])) unwaited.1).2.trans ?_
    simp

/-- EGRESS_FENCE ends when its slice holds no TLP and its gate is open (R286, R287). -/
theorem egressFence_ended {h : CmdHdr} {s : State} (H : Starts h 0x0033 [] s)
    (opened : gateOpen s (hdrSlice h) (gateSample s (hdrSlice h)) = true) (drained : ∀ x ∈ s.link.egress, x.slice ≠ hdrSlice h)
    (noHolds : s.cex.holds = []) :
    ∃ t, exec (.egressFence h) s = .next t ∧ Ended h.key St.success 0 t ∧ t.cex.holds = [] ∧ t.cex.syncs = s.cex.syncs := by
  let f : FenceHold := { key := h.key, slice := hdrSlice h, egress := true, sample := gateSample s (hdrSlice h), tlps := 0, counter := none }
  have noTlps : (s.started h).link.egress.filter (fun x => x.slice == hdrSlice h) = [] := by
    rw [started_link]
    simpa using drained
  have sampled : sampleHold (s.started h) f = f := sampleHold_egress rfl
  have ends : holdEnds (s.started h) f = true := by
    simp [holdEnds, holdDone, f, gateSample_ne, gateOpen_of_vt (s := s) (t := s.started h) (by simp), opened]
  have run : exec (.egressFence h) s = .next (endHold ((s.started h).withHolds []) f) := by
    rw [exec_egressFence, execEgressFence, cexRun_starts H]
    dsimp only
    rw [noTlps, started_gateSample]
    exact congrArg _ ((addHold_alone (f := f) (by simpa using noHolds) (by rw [sampled, ends])).trans (by rw [sampled]))
  obtain ⟨ended, syncs⟩ := endHold_silent (f := f) (s := (s.started h).withHolds []) rfl (started_runs H).withHolds
  exact ⟨_, run, ended, endHold_holds _ _, syncs.trans (by simp)⟩

theorem Runs.updGroup {k : CmdKey} {sl g : Nat} {f : FenceGroup → FenceGroup} {s : State} (h : Runs k s) : Runs k (updGroup sl g f s) := h.of_queues rfl

/-- GROUP_DEFINE sets the members and the collector of its group (R348). -/
theorem groupDefine_ended {h : CmdHdr} {bva : BitVec 64} {group : BitVec 8} {collector : BitVec 16} {bitmap : BitVec 4096} {s : State}
    (H : Starts h 0x0036 [(0x18, 8, bva.toNat), (0x20, 1, group.toNat), (0x22, 2, collector.toNat)] s) (aligned : bva.toNat % 8 = 0)
    (one : 1 ≤ group.toNat) (below : group.toNat < 64) (hk : keyed s (hdrSlice h) = true) (member : bit bitmap.toNat collector.toNat = true) :
    ∃ t, exec (.groupDefine h bva group collector none bitmap) s = .next t ∧ Ended h.key St.success 0 t ∧
      t.group (hdrSlice h) group.toNat = { s.group (hdrSlice h) group.toNat with defined := true, members := bitmap, collector := collector.toNat } := by
  let u := updGroup (hdrSlice h) group.toNat (fun x => { x with defined := true, members := bitmap, collector := collector.toNat }) (s.started h)
  have run : exec (.groupDefine h bva group collector none bitmap) s = .next (finish h.key St.success 0 u) := by
    rw [exec_groupDefine, execGroupDefine, cexRun_starts H]
    dsimp only
    rw [started_keyed, checked_ok]
    · rw [if_pos member]
    · simp [firstFail_cons, firstFail_nil, aligned8, aligned, one, below, hk]
  refine ⟨_, run, finish_ended _ _ (started_runs H).updGroup, ?_⟩
  rw [finish_group, updGroup_group, if_pos rfl, started_group]

/-- Settles O15: one lemma for each of the three commands. -/
theorem localFenceAndGroupCommandsComplete : Obligations.LocalFenceAndGroupCommandsComplete := by
  unfold Obligations.LocalFenceAndGroupCommandsComplete
  refine ⟨?_, ?_, ?_⟩
  · intro h value counter opt s
    exact fenceLocal_ended
  · intro h s
    exact egressFence_ended
  · intro h bva group collector bitmap s
    exact groupDefine_ended

end Sys2Proof.Machine
